-- ==== Sys2Proof/Word.lean ====
section
/-! DEFINITION. The word and byte types of the device (00, "Registers and fields": registers are 64 bits wide). -/

namespace Sys2Proof

/-- A register, a Cerri operand or a counter: 64 bits. -/
abbrev Word := BitVec 64

/-- The smallest addressable unit of every memory. -/
abbrev Byte := BitVec 8

end Sys2Proof
end

