-- ==== Sys2Proof/Machine/Tab.lean ====
section
/-! DEFINITION. Sparse tables and memories as plain data: a table is a list of (key, value) pairs with strictly
rising keys. A word table lists no zero word and a memory lists no zero byte, so that equal contents are equal
lists; an unlisted key of either reads as zero. -/

namespace Sys2Proof.Machine

/-- A sparse table with strictly rising keys. -/
abbrev Tab (α : Type) := List (Nat × α)

/-- The value listed under key `a`. -/
def Tab.look {α : Type} : Tab α → Nat → Option α
  | [], _ => none
  | (k, v) :: t, a => if a = k then some v else Tab.look t a

/-- List `v` under key `a`, in place of what was listed there. -/
def Tab.put {α : Type} : Tab α → Nat → α → Tab α
  | [], a, v => [(a, v)]
  | (k, w) :: t, a, v =>
    if a = k then (a, v) :: t
    else if a < k then (a, v) :: (k, w) :: t
    else (k, w) :: Tab.put t a v

/-- List nothing under key `a`. -/
def Tab.del {α : Type} : Tab α → Nat → Tab α
  | [], _ => []
  | (k, w) :: t, a => if a = k then Tab.del t a else (k, w) :: Tab.del t a

/-- The canonical form's order: keys strictly rising. -/
def Tab.rising {α : Type} : Tab α → Bool
  | [] => true
  | [_] => true
  | (k, _) :: (l, w) :: t => decide (k < l) && Tab.rising ((l, w) :: t)

/-- Change the entry under key `a`, an absent one counting as `dflt`. -/
def Tab.modify {α : Type} (t : Tab α) (dflt : α) (a : Nat) (f : α → α) : Tab α :=
  t.put a (f ((t.look a).getD dflt))

/-- A table of 64-bit words in which an unlisted key reads as zero. -/
abbrev WTab := Tab Word

/-- The word under key `a`. -/
def WTab.get (t : WTab) (a : Nat) : Word := (Tab.look t a).getD 0

/-- Make the word under key `a` equal to `v`. -/
def WTab.set (t : WTab) (a : Nat) (v : Word) : WTab :=
  if v = 0 then Tab.del t a else Tab.put t a v

/-- The canonical form of a word table. -/
def WTab.wf (t : WTab) : Bool := Tab.rising t && t.all (fun p => decide (p.2 ≠ 0))

/-- A byte-addressed memory; an unlisted address reads as zero (log 4). -/
abbrev Memory := List Host.Cell

/-- The byte at address `a`. -/
def Memory.byte (m : Memory) (a : Nat) : Byte := (Tab.look m a).getD 0

/-- Store one byte. -/
def Memory.setByte (m : Memory) (a : Nat) (v : Byte) : Memory :=
  if v = 0 then Tab.del m a else Tab.put m a v

/-- The canonical form of a memory. -/
def Memory.wf (m : Memory) : Bool := Tab.rising m && m.all (fun p => decide (p.2 ≠ 0))

/-- The number held little-endian in the `n` bytes from `a` (registers and memories are little-endian). -/
def Memory.read (m : Memory) (a : Nat) : Nat → Nat
  | 0 => 0
  | n + 1 => (m.byte a).toNat + 256 * Memory.read m (a + 1) n

/-- Store the low `n` bytes of `v`, little-endian, from `a`. -/
def Memory.write (m : Memory) (a : Nat) : Nat → Nat → Memory
  | 0, _ => m
  | n + 1, v => Memory.write (m.setByte a (BitVec.ofNat 8 v)) (a + 1) n (v / 256)

/-- The `n` bytes from `a`, lowest address first. -/
def Memory.bytes (m : Memory) (a : Nat) : Nat → List Byte
  | 0 => []
  | n + 1 => m.byte a :: Memory.bytes m (a + 1) n

/-- Store a list of bytes from `a` upward. -/
def Memory.setBytes (m : Memory) (a : Nat) : List Byte → Memory
  | [] => m
  | b :: bs => Memory.setBytes (m.setByte a b) (a + 1) bs

/-- Copy `n` bytes of `src` at `sa` to `dst` at `da`. -/
def Memory.copy (src : Memory) (sa : Nat) (dst : Memory) (da n : Nat) : Memory :=
  dst.setBytes da (src.bytes sa n)

/-- Drop every cell at or above `lo` and below `hi`: those addresses read as zero again. -/
def Memory.clear (m : Memory) (lo hi : Nat) : Memory := m.filter (fun p => p.1 < lo || hi ≤ p.1)

/-- Bits `hi:lo` of a number. -/
def bitsOf (v hi lo : Nat) : Nat := (v / 2 ^ lo) % 2 ^ (hi - lo + 1)

/-- Bit `i` of a number. -/
def bitOf (v i : Nat) : Bool := v.testBit i

/-- Bits `hi:lo` of a word, as a number. -/
def field (w : Word) (hi lo : Nat) : Nat := bitsOf w.toNat hi lo

/-- The word with bits `hi:lo` replaced by the low bits of `v`. -/
def setField (w : Word) (hi lo v : Nat) : Word :=
  let mask : Word := BitVec.ofNat 64 ((2 ^ (hi - lo + 1) - 1) * 2 ^ lo)
  (w &&& ~~~mask) ||| (BitVec.ofNat 64 (v * 2 ^ lo) &&& mask)

/-- The mask of bits `hi:lo`. -/
def maskOf (hi lo : Nat) : Word := BitVec.ofNat 64 ((2 ^ (hi - lo + 1) - 1) * 2 ^ lo)

/-- A Boolean as one bit. -/
def b2n (b : Bool) : Nat := if b then 1 else 0

/-- The little-endian number a byte list spells. -/
def leNat : List Byte → Nat
  | [] => 0
  | b :: bs => b.toNat + 256 * leNat bs

/-- The low `n` bytes of a number, lowest first. -/
def leBytes (v : Nat) : Nat → List Byte
  | 0 => []
  | n + 1 => BitVec.ofNat 8 v :: leBytes (v / 256) n

/-- A signed number from a `w`-bit two's-complement one. -/
def signed (w v : Nat) : Int := if v % 2 ^ w < 2 ^ (w - 1) then (v % 2 ^ w : Nat) else (v % 2 ^ w : Nat) - (2 ^ w : Nat)

/-- The `w`-bit two's-complement form of a signed number. -/
def unsigned (w : Nat) (v : Int) : Nat := (v % (2 ^ w : Nat)).toNat

end Sys2Proof.Machine
end

