-- ==== Sys2Proof/Machine/StCore.lean ====
section
/-! DEFINITION. Plain data of the parts every block shares: the per-instance header of R57, the Warden event ring of
R70, the memories of R19, the reset and strap pins with the fuses, and the CAMP, TIME, SPOTTER, MGMT, WARDEN and DMC
blocks. -/

namespace Sys2Proof.Machine

/-- Which consistency check of a block is running (R58, R65). -/
inductive CheckKind where
  | enable
  | swap
  deriving DecidableEq, Repr

/-- The common header of one block instance (R57) and the run-time state R58 to R66 speak of. -/
structure Inst where
  /-- BLK_CTRL.ENABLE as last accepted. -/
  enable : Bool := false
  /-- BLK_CTRL.DRAIN. -/
  drain : Bool := false
  /-- BLK_STATUS.ENABLED. -/
  enabled : Bool := false
  /-- BLK_STATUS.REFUSED. -/
  refused : Bool := false
  /-- BLK_STATUS.SAFE. -/
  safe : Bool := false
  /-- BLK_REFUSE.OFFSET. -/
  refOff : Nat := 0
  /-- BLK_REFUSE.REASON. -/
  refReason : Nat := 0
  /-- BLK_ERR. -/
  err : Word := 0
  /-- BLK_ERR_MASK. -/
  errMask : Word := 0
  /-- BLK_PWR_REQ.STATE. -/
  pwrReq : Nat := 4
  /-- BLK_GEN.ACTIVE. -/
  active : Nat := 0
  /-- BLK_GEN.STAGED. -/
  staged : Nat := 0
  /-- BLK_GEN.SWAP: a swap is requested and not done. -/
  swap : Bool := false
  /-- The swap's check has passed and it waits for its swap point (R65). -/
  swapReady : Bool := false
  /-- Network time at which the swap was requested: a swap point that was passing then is not its own (R66). -/
  swapAt : Nat := 0
  /-- Generations that drain, oldest first; BLK_GEN.DRAINING is their number. -/
  draining : List Nat := []
  /-- The check that runs now. -/
  check : Option CheckKind := none
  /-- A write of 0 to ENABLE held until the check or the swap ends (R61). -/
  heldDisable : Bool := false
  /-- A disable has been accepted and the work in flight is being finished (R61). -/
  disabling : Bool := false
  /-- A write of 0 to ENABLE has come since the instance entered safe state (R426). -/
  zeroed : Bool := false
  /-- In safe state, the work the instance held has been abandoned (R426). -/
  quit : Bool := false
  /-- DRAIN is set and the last work in flight has ended (BLK_STATUS.DRAINED). -/
  drained : Bool := false
  /-- BLK_SNAP[0..31], as last latched (R480). -/
  snap : List Word := []
  deriving DecidableEq, Repr

/-- One entry of the Warden event ring, before it is written to memory (R70). -/
structure RingEntry where
  time : Nat
  blk : Nat
  inst : Nat
  code : Nat
  arg : Nat
  deriving DecidableEq, Repr

/-- The memories a command can address (R19, R77, R108), and the instruction stores. -/
structure Mems where
  /-- External DRAM, by byte offset. -/
  dram : Memory := []
  /-- Pitch scratch: thread t's 16 KiB from 16,384 × t. -/
  scratch : Memory := []
  /-- Cluster shared memory: cluster c's 256 KiB from 262,144 × c. -/
  shared : Memory := []
  /-- Warden core local memory: core n's 256 KiB from 262,144 × n. -/
  wlocal : Memory := []
  /-- The Warden region of SRAM. -/
  wsram : Memory := []
  /-- Warden instruction memory, one instruction word per index. -/
  wcode : WTab := []
  /-- Pitch instruction stores: bank b of cluster c holds its words from 16,384 × (4 × c + b). -/
  pcode : WTab := []
  deriving DecidableEq, Repr

/-- What no command but a pin or fuse event changes: the package's reset and strap pins, and the fuse cells: 64 words in
two cells a bit (R430, R439). -/
structure Hard where
  pwrGood : Bool := true
  resetN : Bool := true
  /-- Level of the UNIT_ID strap pin. -/
  unitIdPin : Nat := 0
  /-- Level of the BOOT_MODE strap pin. -/
  bootModePin : Nat := 0
  /-- The two cells of every fuse bit. -/
  fuseA : WTab := []
  fuseB : WTab := []
  deriving DecidableEq, Repr

/-- One power domain (R446, R449). -/
structure Dom where
  state : Nat := 4
  req : Nat := 4
  moving : Bool := false
  /-- Its state lies in the save area (R448). -/
  saved : Bool := false
  /-- It is held at D3 because there is no save area (R448). -/
  held : Bool := false
  deriving DecidableEq, Repr

/-- Where the power-fail sequence of R457 and R458 stands. -/
inductive PFail where
  | idle
  | filtering
  | quiesced
  | dumping
  | done
  deriving DecidableEq, Repr

/-- CAMP beyond its registers. -/
structure Camp where
  /-- The domains by number; an unlisted one is as a cold reset leaves it. -/
  doms : Tab Dom := []
  /-- The transition under way was started by a wake (R453). -/
  psWake : Bool := false
  pfail : PFail := .idle
  /-- Level of PFAIL_N. -/
  pfailN : Bool := true
  /-- The sequence was started by a UNIT reaction of an unpaired unit (R427). -/
  unitDump : Bool := false
  deriving DecidableEq, Repr

/-- One stamped egress frame in a TIM_TXTS FIFO (R303). -/
structure TxStamp where
  tag : Nat
  ns : Nat
  deriving DecidableEq, Repr

/-- TIME beyond its registers (R300 to R304). -/
structure Tim where
  /-- Network time, ns. -/
  ns : Nat := 0
  /-- The 32-bit fraction of a nanosecond. -/
  frac : Nat := 0
  /-- The part of a nanosecond already absorbed of TIM_SLEW.OFFSET, in 2^−32 ns. -/
  slewFrac : Nat := 0
  mono : Bool := false
  /-- The TIM_TXTS FIFO of each port, oldest first, at most 16 entries. -/
  txts : Tab (List TxStamp) := []
  /-- The 1PPS output is high until this instant (R304). -/
  ppsUntil : Option Nat := none
  /-- The last whole second at which 1PPS rose. -/
  lastPps : Option Nat := none
  /-- Level of the PPS input. -/
  ppsIn : Bool := false
  deriving DecidableEq, Repr

/-- SPOTTER beyond its registers. -/
structure Spotter where
  /-- A UNIT reaction holds the unit in safe state until a reset (R426). -/
  unitSafe : Bool := false
  /-- A full self-test pass runs (R429). -/
  pass : Bool := false
  /-- Item failed so far in this pass, 0 for none. -/
  passFail : Nat := 0
  deriving DecidableEq, Repr

/-- One remembered request of the register-access service (R73, R74). -/
structure RasMemo where
  /-- Source: IPv4 address and UDP port, or the MCTP endpoint ID. -/
  source : Nat
  seq : Nat
  response : List Byte
  deriving DecidableEq, Repr

/-- The I3C target, the UART and the JTAG port, which MGMT and the package hold (R502, R503, R505). -/
structure Mgmt where
  /-- Memory of the lane, most recent first, at most 16 (R74). -/
  lane : List RasMemo := []
  /-- Memory of the MCTP path, most recent first, at most 16 (R74, R164). -/
  mctp : List RasMemo := []
  /-- The last response sent on the lane, and on the MCTP path. -/
  laneTx : List Byte := []
  mctpTx : List Byte := []
  /-- The NVMe-MI status of that response, 0 for Success (R164). -/
  mctpStatus : Nat := 0
  /-- Levels on the general-purpose pins that are inputs. -/
  gpioPins : Nat := 0
  /-- The I3C dynamic address, when one has been assigned. -/
  i3cDyn : Option Nat := none
  /-- The bytes the I3C target returned last. -/
  i3cTx : List Byte := []
  /-- The management lane is up. -/
  laneUp : Bool := false
  deriving DecidableEq, Repr

/-- The JTAG port (R505): the instruction register, the boundary cells as last sampled or preloaded, whether EXTEST
drives them onto the balls, and the bypass bit. -/
structure Jtag where
  ir : Nat := 0xFF
  cells : List Bool := []
  drives : Bool := false
  bypass : Bool := false
  /-- The bits shifted out at TDO by the last scan, first bit first. -/
  tdo : List Bool := []
  deriving DecidableEq, Repr

/-- One RDIMM slot, as its SPD hub reports it (R510). -/
structure Rdimm where
  mib : Nat
  ecc : Bool
  deriving DecidableEq, Repr

/-- DMC beyond its registers. -/
structure Dmc where
  /-- DRAM is in self-refresh with its contents kept (R48, R52). -/
  selfRefresh : Bool := false
  deriving DecidableEq, Repr

end Sys2Proof.Machine
end

