-- ==== Sys2Proof/Machine/StHost.lean ====
section
/-! DEFINITION. Plain data of HOSTQ and of the NVMe target the base program set presents (R135 to R165). -/

namespace Sys2Proof.Machine

/-- A valid subsystem entry. -/
structure Subsys where
  nqn : List Byte
  discovery : Bool
  deriving DecidableEq, Repr

/-- A valid host entry (R136). -/
structure HostEnt where
  hash : List Byte
  subsys : Nat
  tenant : Nat
  /-- I/O queues, with HOSTQ_CFG.MAXQ put in for 0. -/
  maxq : Nat
  deriving DecidableEq, Repr

/-- A namespace entry in force (R138, R165). -/
structure Ns where
  nsid : Nat
  subsys : Nat
  tenant : Nat
  nsze : Nat
  grade : Nat
  anagrp : Nat
  attached : Bool
  pinned : Bool
  keySlot : Nat
  /-- Its pinned map is not loaded: it is served at the takeover grade (R30, R206). -/
  cold : Bool := false
  /-- Format NVM runs on it (R150). -/
  formatting : Bool := false
  /-- Its key slot stands at its hard usage limit (R150, R382). -/
  keyHard : Bool := false
  deriving DecidableEq, Repr

/-- ANA states of R141. -/
inductive Ana where
  | optimized
  | nonOptimized
  | inaccessible
  | persistentLoss
  | change
  deriving DecidableEq, Repr

/-- A completion queue entry as HOSTQ hands it to the transport (R144, R150). -/
structure Cqe where
  sct : Nat
  sc : Nat
  dnr : Bool := true
  crd : Nat := 0
  dw0 : Nat := 0
  dw1 : Nat := 0
  sqhd : Nat := 0
  deriving DecidableEq, Repr

/-- Data a command returns: `len` bytes, of which `m` holds those the spec gives. Where `open_` is a value, bytes the spec
does not give are what that free value stands for; otherwise they are zero. `given` lists, as first byte, length and a mask
on each byte, what the spec fixes at zero where `m` lists nothing. -/
structure HostData where
  m : Memory := []
  len : Nat
  open_ : Option Word := none
  given : List (Nat × Nat × Nat) := []
  deriving DecidableEq, Repr

/-- Who sends an admin command: a host, as the command with a CID on an admin queue, or the management path, with the
submission entry it tunnels. -/
inductive Src where
  | host (ctx cid : Nat)
  | mgmt (sqe : List Word)
  deriving DecidableEq, Repr

/-- An asynchronous event waiting to be reported (R158). -/
structure AsyncEv where
  typ : Nat
  info : Nat
  page : Nat
  deriving DecidableEq, Repr

/-- A controller (R136, R143, R145). -/
structure Ctrl where
  subsys : Nat
  tenant : Nat
  maxq : Nat
  discovery : Bool := false
  hostHash : List Byte := []
  /-- Context of the admin queue. -/
  adminCtx : Nat
  /-- Keep Alive Timeout, ms. -/
  kato : Nat := 120000
  /-- Instant of the last command on its admin queue. -/
  katoLast : Nat := 0
  /-- CC as last written. -/
  cc : Nat := 0
  /-- CC.EN. -/
  en : Bool := false
  /-- CSTS.RDY. -/
  rdy : Bool := false
  /-- A controller reset waits for outstanding commands (R154). -/
  resetting : Bool := false
  /-- The reset also deletes I/O queues and association. -/
  dropping : Bool := false
  /-- FID 02h: the power state this controller asks for. -/
  ps : Nat := 0
  /-- FID 0Ch: APST, as last set. -/
  apst : Nat := 0
  /-- The state its autonomous transitions have reached, which stands in for `ps` while its queues are idle (R157). -/
  apstPs : Option Nat := none
  /-- Instant since which its queues have been idle. -/
  idleSince : Nat := 0
  /-- FID 04h: the over and the under temperature threshold of the composite. -/
  temp : Nat := 0
  tempUnder : Nat := 0
  /-- FID 0Bh: events enabled. -/
  aec : Nat := 0
  /-- FID 81h, as last set. -/
  fid81 : Nat := 0
  /-- FID 07h: queues asked for. -/
  nq : Nat := 0
  /-- Held Asynchronous Event Requests, oldest first: CIDs (R158). -/
  aers : List Nat := []
  /-- Events not yet reported, oldest first. -/
  events : List AsyncEv := []
  /-- Outstanding Aborts: CIDs. -/
  aborts : List Nat := []
  deriving DecidableEq, Repr

/-- Which transport carries a queue. -/
inductive Fabric where
  | rdma
  | tcp
  deriving DecidableEq, Repr

/-- A queue: one transport connection, keyed by its context (R143, R144). -/
structure Queue where
  ctrl : Nat
  qid : Nat
  /-- 0-based size. -/
  sqsize : Nat
  fabric : Fabric
  /-- SQHD. -/
  head : Nat := 0
  deriving DecidableEq, Repr

/-- States of a tag; a Free tag is not listed. -/
inductive TagState where
  | queued
  | running
  | committed
  | completed
  deriving DecidableEq, Repr

/-- A command known to HOSTQ, keyed by context × 65,536 + CID. -/
structure Tag where
  state : TagState := .queued
  ctx : Nat
  qid : Nat
  cid : Nat
  ctrl : Nat
  tenant : Nat
  /-- The 64-byte submission entry as eight words. -/
  sqe : List Word
  /-- Bytes its SGL describes (R151), the number of its data blocks, and the first 64 bytes of its segment (R119). -/
  sglLen : Nat := 0
  nsgl : Nat := 1
  seg : List Word := []
  /-- Namespace handle once decoded. -/
  nsh : Nat := 0
  slba : Nat := 0
  nblk : Nat := 0
  /-- The base program set has decoded and checked the command. -/
  checked : Bool := false
  /-- Rope number, 0 before its commit point. -/
  rope : Nat := 0
  /-- Commit cycle it was admitted in. -/
  cycle : Nat := 0
  /-- Forwarded to the owning unit (R142). -/
  forwarded : Bool := false
  /-- A Flush of every namespace that waits for the partner's part of it (R142, R153). -/
  far : Bool := false
  /-- Program generation it started under, once it runs (R131). -/
  gen : Option Nat := none
  /-- A status of R150 that hardware has settled for it: SCT and SC. -/
  fate : Option (Nat × Nat) := none
  /-- The Abort waiting for this tag's mark: controller and CID of the Abort. -/
  abortBy : Option (Nat × Nat) := none
  /-- Status it will complete with, once known, while its completion waits for its cycle. -/
  pendingCqe : Option Cqe := none
  /-- The admin event CID it holds for, when it is an Asynchronous Event Request held open. -/
  held : Bool := false
  /-- Data returned. -/
  data : Option HostData := none
  /-- It runs for the partner (R405), for a controller of this subsystem. -/
  remote : Option Nat := none
  /-- Its deadline, fixed at its admission; 0 while it has none (R166, R175). -/
  deadline : Nat := 0
  /-- It was in flight when a takeover began (R35). -/
  inFlight : Bool := false
  deriving DecidableEq, Repr

/-- A completion handed to the transport and not yet reported delivered. `ofTag` is false for one that completes a
capsule without owning the tag (R146). -/
structure Done where
  ctx : Nat
  cid : Nat
  cqe : Cqe
  ofTag : Bool := true
  tenant : Nat := 0
  /-- The command's deadline, 0 when it carries none (R173). -/
  deadline : Nat := 0
  deriving DecidableEq, Repr

/-- The device self-test in progress (R156). -/
structure SelfTest where
  ctrl : Nat
  extended : Bool
  segment : Nat := 1
  /-- Handles of the namespaces it covers. -/
  nss : List Nat := []
  deriving DecidableEq, Repr

/-- A logged self-test result (log page 06h). -/
structure StResult where
  code : Nat
  result : Nat
  segment : Nat
  deriving DecidableEq, Repr

/-- A firmware bundle (R162): a program image and a Warden image. -/
structure Bundle where
  program : List Byte
  warden : List Byte
  deriving DecidableEq, Repr

/-- Firmware slots and the download buffer (R162). -/
structure Firmware where
  buffer : List Byte := []
  slots : Tab Bundle := []
  /-- Slot that becomes active at the next warm reset. -/
  nextReset : Option Nat := none
  active : Nat := 1
  /-- Slot whose program image a requested swap will make active. -/
  swapping : Option Nat := none
  deriving DecidableEq, Repr

/-- A sanitize (R163): the kind last started, whether it runs, and the bands it had to erase. -/
structure Sanitize where
  action : Nat
  running : Bool
  total : Nat := 0
  deriving DecidableEq, Repr

/-- HOSTQ beyond its registers, and the base program set's NVMe state. -/
structure Hostq where
  subs : Tab Subsys := []
  hosts : List HostEnt := []
  nss : Tab Ns := []
  ctrls : Tab Ctrl := []
  queues : Tab Queue := []
  tags : Tab Tag := []
  outbox : List Done := []
  /-- Tenants whose METER_VISIBLE is 1. -/
  visible : List Nat := []
  /-- Namespaces whose attributes changed since a controller read page 04h, by controller × 2^32 + NSID. -/
  changed : List Nat := []
  /-- Spare blocks of the shelf stand below 10 % (R158). -/
  spareLow : Bool := false
  /-- The composite temperature as last seen, a free value (R158). -/
  temp : Nat := 0
  /-- ANA groups 1 to 64 whose state differs from what ownership gives. -/
  ana : Tab Ana := []
  /-- The state last reported of each group that has namespaces (R158). -/
  anaSeen : Tab Ana := []
  selfTest : Option SelfTest := none
  stLog : List StResult := []
  sanitize : Option Sanitize := none
  fw : Firmware := {}
  /-- The power state the management path asks for, when it has asked (R157). -/
  mgmtPs : Option Nat := none
  /-- The result of the last management-path command and the data it returned. -/
  mgmtCqe : Option Cqe := none
  mgmtData : Option HostData := none
  /-- Flushes that wait: tag key and the rope numbers, per namespace, they wait for (R153). -/
  flushes : Tab (List Nat) := []
  /-- Commands received on a Non-Optimized path and still to be forwarded (R142, R405). -/
  fwdOut : List Nat := []
  /-- Forwarded commands the partner is to be told of: aborted (false), or ended by a reset or a deleted queue. -/
  fwdMarks : List (Nat × Bool) := []
  /-- The kind of a sanitize still to be carried to the partner (R163). -/
  sanTell : Option Nat := none
  deriving DecidableEq, Repr

end Sys2Proof.Machine
end

