-- ==== Sys2Proof/Machine/StPort.lean ====
section
/-! DEFINITION. Plain data of the transports XPORT and STREAM (R323 to R348). -/

namespace Sys2Proof.Machine

/-- A context, by the fields of R325. `kind` is 1 for RoCEv2 and 2 for NVMe/TCP; the fields of the other kind are zero. -/
structure Ctx where
  kind : Nat := 0
  state : Nat := 1
  tenant : Nat := 0
  cntlid : Nat := 0xFFFF
  qid : Nat := 0xFFFF
  flags : Nat := 0
  egress : Nat := 0
  tclass : Nat := 0
  vlan : Nat := 0
  localIp : Nat := 0
  remoteIp : Nat := 0
  remoteMac : Nat := 0
  dscp : Nat := 0
  lqpn : Nat := 0
  rqpn : Nat := 0
  epsn : Nat := 0
  msn : Nat := 0
  acked : Nat := 0
  npsn : Nat := 0
  una : Nat := 0
  limit : Nat := 0
  sport : Nat := 0
  pmtu : Nat := 0
  retry : Nat := 0
  rnr : Nat := 0
  ord : Nat := 0
  granted : Nat := 0
  ports : Nat := 0
  sndUna : Nat := 0
  sndNxt : Nat := 0
  rcvNxt : Nat := 0
  sndWnd : Nat := 0
  sndScale : Nat := 0
  rcvScale : Nat := 0
  mss : Nat := 0
  cwnd : Nat := 0
  ssthresh : Nat := 0
  srtt : Nat := 0
  rttvar : Nat := 0
  tsRecent : Nat := 0
  pdu : Nat := 0
  keySlot : Nat := 0
  rxRseq : Nat := 0
  txRseq : Nat := 0
  maxH2c : Nat := 0
  hpda : Nat := 0
  r2ts : Nat := 0
  deriving DecidableEq, Repr

/-- What an inbound request asks for (R328): a SEND packet, with the capsule when it is the message's last, or anything
the responder refuses. -/
inductive ReqOp where
  | send (capsule : Option (List Word))
  | other
  deriving DecidableEq, Repr

/-- A NAK (IBA syndromes). -/
inductive Nak where
  | sequence
  | rnr
  | invalidRequest
  | remoteAccess
  | remoteOperational
  deriving DecidableEq, Repr

/-- A segment on an open connection. `rtt` is the round trip in µs that its timestamp echo shows; `sack` its SACK blocks,
each from its first sequence number to the one after its last. -/
structure TcpSeg where
  seq : Nat
  ack : Nat
  wnd : Nat
  len : Nat := 0
  fin : Bool := false
  rst : Bool := false
  ece : Bool := false
  tsval : Nat := 0
  rtt : Option Nat := none
  sack : List (Nat × Nat) := []
  deriving DecidableEq, Repr

/-- What a frame that waits in a miss queue holds (R327). `raw` is a frame that CLASS has just handed over, whose
transport command has not come yet. -/
inductive RxFrame where
  | raw
  | request (psn : Nat) (op : ReqOp) (ce : Bool)
  | ack (psn code msn : Nat)
  | nak (psn : Nat) (nak : Nak)
  | response (psn : Nat) (data : List Byte) (ce : Bool)
  | cnp
  | segment (g : TcpSeg)
  deriving DecidableEq, Repr

/-- A frame in a miss queue, with its context. -/
structure Missed where
  ctx : Nat
  rx : RxFrame
  deriving DecidableEq, Repr

/-- What a message of a transport carries. -/
inductive TxOp where
  /-- A completion of (tag); `inval` asks for remote invalidation. -/
  | send (inval : Bool)
  | write
  | read
  deriving DecidableEq, Repr

/-- Where an outbound message stands. -/
inductive TxState where
  | queued
  /-- Its PSNs are given and its transport records are not all held by the partner (R334). -/
  | recording
  | sent
  deriving DecidableEq, Repr

/-- A transfer call that XPORT or STREAM works on (R347), with what its XFER_DONE needs (R348). -/
structure Xfer where
  write : Bool
  handle : Nat
  token : Nat
  off : Nat
  len : Nat
  /-- Bytes landed, of a read. -/
  got : Nat := 0
  tenant : Nat
  nsh : Nat
  cmdref : Nat
  rope : Nat := 0
  runToken : Nat
  gen : Nat
  /-- Bytes asked for with R2Ts. -/
  asked : Nat := 0
  /-- It moves data of a command that the partner runs (R405). -/
  relay : Bool := false
  deriving DecidableEq, Repr

/-- An outbound RoCEv2 message. -/
structure TxMsg where
  op : TxOp
  tag : Nat
  cmdref : Nat
  psn : Nat := 0
  pkts : Nat := 1
  state : TxState := .queued
  /-- Transport records not yet confirmed. -/
  recs : Nat := 0
  xfer : Option Xfer := none
  deriving DecidableEq, Repr

/-- A RoCEv2 connection beyond its context. -/
structure RConn where
  out : List TxMsg := []
  /-- An inbound acknowledgement is owed, up to this PSN. -/
  owe : Option Nat := none
  /-- Inbound PSNs whose transport records the partner does not hold yet (R334). -/
  recPsns : List Nat := []
  /-- A Sequence Error NAK has been sent for the present gap (R329). -/
  nakSent : Bool := false
  /-- An RNR wait is in progress. -/
  rnrWait : Bool := false
  /-- The limit last sent. -/
  limitSent : Nat := 0
  lastCnp : Option Nat := none
  /-- Instant at which UNA last moved, was first sent or was resent (R331). -/
  unaSince : Nat := 0
  /-- Messages sent as requester: SENDs, for LIMIT. -/
  sends : Nat := 0
  deriving DecidableEq, Repr

/-- Bytes of the TCP stream not yet acknowledged: what they are and where they end. -/
inductive SKind where
  | resp (tag : Nat)
  | c2h (x : Xfer)
  | r2t
  | icresp
  | term
  | tls
  deriving DecidableEq, Repr

/-- One piece of outbound stream. -/
structure SOut where
  kind : SKind
  bytes : Nat
  /-- Sequence number at which it begins, once it has been sent. -/
  seq : Option Nat := none
  /-- Bytes of its PDU in front of the data, and of the data. -/
  head : Nat := 0
  data : Nat := 0
  deriving DecidableEq, Repr

/-- An outstanding R2T (R340). -/
structure R2t where
  ttag : Nat
  /-- The transfer: its handle, staging TOKEN and offset. -/
  handle : Nat
  token : Nat
  xoff : Nat
  off : Nat
  len : Nat
  got : Nat := 0
  deriving DecidableEq, Repr

/-- A capsule held until its TLS record verifies (R342). -/
structure HeldCap where
  sqe : List Word
  nsgl : Nat
  sgl : Nat
  seg : List Word
  data : List Byte
  deriving DecidableEq, Repr

/-- A PDU or record of the received stream, by what its command carries (R338 to R343). -/
inductive RxPdu where
  | icReq (pfv hpda : Nat) (hdgst ddgst lenOk : Bool)
  | capsule (k : HeldCap) (lenOk digestsOk : Bool)
  | h2cData (ttag off : Nat) (data : List Byte) (lenOk digestsOk : Bool)
  | term
  | record (header sealed : List Byte)
  | keyUpdate
  | alert
  deriving DecidableEq, Repr

/-- An NVMe/TCP connection beyond its context. -/
structure SConn where
  out : List SOut := []
  r2ts : List R2t := []
  /-- Read transfers under way. -/
  xfers : List Xfer := []
  /-- ICReq has been answered. -/
  ready : Bool := false
  hdgst : Bool := false
  ddgst : Bool := false
  nextTtag : Nat := 0
  heldCaps : List HeldCap := []
  /-- Transfers whose data has landed whole and waits for its record's tag. -/
  landed : List Xfer := []
  /-- Bytes of in-capsule data that landed and that no read call has asked for, by CID. -/
  inCapsule : Tab Nat := []
  /-- Receive processing is held for a KeyUpdate (R343). -/
  rxHeld : Bool := false
  dupAcks : Nat := 0
  /-- NewReno: the highest sequence sent when recovery began. -/
  recover : Option Nat := none
  /-- The highest sequence sent when a congestion mark was last obeyed (RFC 3168). -/
  cwr : Option Nat := none
  timeouts : Nat := 0
  /-- Instant at which the retransmission timer was last started. -/
  rtoFrom : Nat := 0
  /-- SACK blocks received beyond SND_UNA, and the sequence number up to which this recovery has resent (R337). -/
  sacked : List (Nat × Nat) := []
  rexmit : Option Nat := none
  /-- Received stream that waits: for the context (R327), or for the next receive key (R343). -/
  rxWait : List RxPdu := []
  deriving DecidableEq, Repr

/-- A transport record that waits for the partner (R334, R403). -/
structure TRec where
  kind : Nat
  opcode : Nat := 0
  ctx : Nat
  psn : Nat
  cmdref : Nat := 0
  handle : Nat := 0
  off : Nat := 0
  bytes : Nat := 0
  rope : Nat := 0
  /-- Write generations of the at most two units that the payload draws on. -/
  wgens : List Nat := []
  body : List Word := []
  deriving DecidableEq, Repr

/-- An open that waits for an evictable context (R326): its number, its context, and since when. -/
structure OpenWait where
  ctx : Nat
  img : Ctx
  since : Nat
  deriving DecidableEq, Repr

/-- One transport's contexts. `res` are the resident ones, `use` the instant each was last used; `spilled` are those
whose image lies in the block's spill area in DRAM. -/
structure Tport where
  res : Tab Ctx := []
  use : Tab Nat := []
  spilled : List Nat := []
  wait : Option OpenWait := none
  deriving DecidableEq, Repr

/-- XPORT beyond its registers. -/
structure Xpt where
  t : Tport := {}
  conns : Tab RConn := []
  deriving DecidableEq, Repr

/-- STREAM beyond its registers. -/
structure Stm where
  t : Tport := {}
  conns : Tab SConn := []
  /-- Handshake records passed to Warden firmware, with their contexts, oldest first (R341). -/
  handshake : List (Nat × List Byte) := []
  deriving DecidableEq, Repr

/-- The miss queues, by pipeline, oldest frame first (R327), and the transport records that wait for the partner, oldest
first. -/
structure Trans where
  miss : Tab (List Missed) := []
  recs : List TRec := []
  /-- Network-time use counter of contexts. -/
  clock : Nat := 0
  deriving DecidableEq, Repr

end Sys2Proof.Machine
end

