-- ==== Sys2Proof/Machine/StStore.lean ====
section
/-! DEFINITION. Plain data of the storage path: LEDGER, ROPE, MAP, JOURNAL, TETHER, MEDIA and STRIPE (R166 to R295). -/

namespace Sys2Proof.Machine

/-- What a command does to logical blocks: the kinds of R180's table, and an admin command, which takes no entry. -/
inductive CmdKind where
  | read
  | write
  | dealloc
  | flush
  | nswide
  | admin
  deriving DecidableEq, Repr

/-- A tenant entry in force (R168). Tokens are counted in millionths of a 4 KiB operation. -/
structure LedgerTenant where
  readRsv : Nat
  writeRsv : Nat
  burst : Nat
  weight : Nat
  failFast : Bool
  readTok : Nat := 0
  writeTok : Nat := 0
  deriving DecidableEq, Repr

/-- A read slot: a stretch of network time on a plane, whose number is its entry without block, page, slot and generation, and
the media entry it was taken for. -/
structure ReadSlot where
  plane : Nat
  start : Nat
  stop : Nat
  entry : Nat
  /-- The reserved retry slot of a G1 read. -/
  retry : Bool := false
  deriving DecidableEq, Repr

/-- An admission, or a command that waits for one (R176, R178). -/
structure Admission where
  /-- The command: context × 65,536 + CID. -/
  tag : Nat
  ctx : Nat
  cmdref : Nat
  token : Nat := 0
  tenant : Nat
  nsh : Nat
  kind : CmdKind
  grade : Nat
  slba : Nat
  nblk : Nat
  /-- 4 KiB units transferred. -/
  units : Nat
  /-- Range-lock entries held and not yet requested (R184). -/
  entries : Nat
  depth : Nat := 0
  /-- Drawn on the reserved pool (R167). -/
  reserved : Bool := false
  /-- Instant of admission, or of the ask while it waits. -/
  since : Nat
  deadline : Nat := 0
  cycle : Nat := 0
  /-- Handle of its map lookup. -/
  handle : Nat := 0
  /-- The read slots held (R176). -/
  slots : List ReadSlot := []
  /-- Belay bytes held, and units of write staging held; of these, the units not yet formed. -/
  belay : Nat := 0
  staging : Nat := 0
  promised : Nat := 0
  /-- Event types whose engine time is held. -/
  engine : List Nat := []
  /-- Media entries of the map pages a miss waits for, and the clean frames reserved for them (R177, R203). -/
  pages : List Nat := []
  frames : Nat := 0
  /-- Lookup handle whose miss made the admission (R177). -/
  miss : Option Nat := none
  gen : Nat := 0
  deriving DecidableEq, Repr

/-- LEDGER beyond its registers. -/
structure Ledger where
  tenants : Tab LedgerTenant := []
  adms : Tab Admission := []
  nextAdm : Nat := 1
  /-- Commands that wait, in arrival order (R178). -/
  waiting : List Admission := []
  /-- The current cycle takes no more writes (R188). -/
  closed : Bool := false
  /-- Bytes held in the current cycle's G1 section, and in all its sections and forwards (R189). -/
  g1Bytes : Nat := 0
  belayBytes : Nat := 0
  /-- Bytes beyond BELAY_PCT of an earlier cycle, which the cycles after it owe (R189). -/
  belayDebt : Nat := 0
  /-- Deficits of the shared pool's round robin, by tenant × 8 + grade, and the queue it stands at (R178). -/
  deficit : Tab Nat := []
  drrAt : Nat := 0
  /-- Plane reads drawn on the shared pool in a second of network time, and that second (R167). -/
  sharedSec : Nat := 0
  sharedReads : Nat := 0
  /-- Every section of the cycles below this one has been confirmed, or released when unpaired; `confirmed1` and
  `confirmed2` say the same of the G1 and the G2 sections alone (R27, R189). -/
  confirmed : Nat := 0
  confirmed1 : Nat := 0
  confirmed2 : Nat := 0
  deriving DecidableEq, Repr

/-- A range-lock entry (R185), with the admission and the context of its command. -/
structure Lock where
  rope : Nat
  slba : Nat
  nblk : Nat
  nsh : Nat
  kind : CmdKind
  /-- STATE: granted rather than waiting. An applied entry is freed. -/
  granted : Bool
  tenant : Nat
  depth : Nat
  ctx : Nat
  cmdref : Nat
  next : Option Nat := none
  gen : Nat := 0
  deriving DecidableEq, Repr

/-- A mark on a tag: the instant it was made, and whether it found the tag's command Running (R186). -/
structure Mark where
  made : Nat
  found : Bool := false
  deriving DecidableEq, Repr

/-- ROPE beyond its registers. -/
structure Rope where
  locks : Tab Lock := []
  /-- Marks, by controller × 2^32 + CMDREF (R186). -/
  marks : Tab Mark := []
  /-- Records of the trace ring written and not yet read by software: ROPE_TRACE has no read index, so every record
  counts as unread until the ring wraps over it. -/
  traced : Nat := 0
  deriving DecidableEq, Repr

/-- A unit record (R197). -/
structure URec where
  wgen : Nat
  nsh : Nat
  lba : Nat
  keySlot : Nat := 0
  keyGen : Nat := 0
  copy : Bool := false
  zrange : Bool := false
  tenant : Nat := 0
  tag : Nat := 0
  /-- Blocks a zero-range unit covers, and whether it deallocates them, as its data says (R194). -/
  span : Nat := 0
  deac : Bool := false
  deriving DecidableEq, Repr

/-- States of a staging unit that is not FREE (R207). -/
inductive SState where
  | landing
  | held
  | dirty
  | placing
  | mirror
  deriving DecidableEq, Repr

/-- A staging unit. -/
structure SUnit where
  state : SState
  rec_ : URec
  data : Memory := []
  /-- Data CRC of the plaintext as it landed (R418, R419). -/
  crc : Nat := 0
  /-- The staging TOKEN it landed under. -/
  token : Nat := 0
  /-- The write it belongs to. -/
  tag : Option Nat := none
  /-- Commit cycle and rope number of the write. -/
  cycle : Nat := 0
  grade : Nat := 4
  /-- Its command draws on the shared pool (R167). -/
  shared : Bool := false
  /-- Its data is held uncommitted until a TLS tag verifies (R28). -/
  uncommitted : Bool := false
  /-- CIPHER has encrypted it. -/
  sealed : Bool := false
  /-- The staging index its map entry names: its own, or its group's in 16 KiB mode (R211). -/
  group : Nat := 0
  /-- The entry that its own replaced, a STAGED one looked through (R211). -/
  former : Nat := 0xFA00000000
  /-- The entry that its own replaced, as it stood, kept until its seal ends (R375). -/
  replaced : Nat := 0xFA00000000
  /-- Superseded, and the commit cycle of the superseding command (R211). -/
  superseded : Option Nat := none
  /-- The stripe it is being placed in and the media entry it will have. -/
  stripe : Option Nat := none
  target : Nat := 0
  /-- The MAP record that switches it is durable, and its stripe has passed (R210). -/
  switched : Bool := false
  /-- The section it was mirrored with: cycle and grade (R399). -/
  section_ : Option (Nat × Nat) := none
  /-- It lies in the Deep area (R208). -/
  deep : Bool := false
  /-- The write stream its stage call named, 0 for the default (R212, R228). -/
  stream : Nat := 0
  deriving DecidableEq, Repr

/-- A lookup handle (R228). -/
structure Lookup where
  tenant : Nat
  nsh : Nat
  slba : Nat
  nblk : Nat
  tag : Nat
  ctx : Nat
  cmdref : Nat
  token : Nat
  /-- The captured entries, one per map unit, and the write generations of the data they name (R183). -/
  entries : List Nat
  gens : List Nat := []
  /-- Every page it needs is resident. -/
  ready : Bool := true
  gen : Nat := 0
  deriving DecidableEq, Repr

/-- A map page held in DRAM, in a frame of the cache area (R203) or, of a pinned namespace, in the pin area. -/
structure Frame where
  dirty : Bool := false
  /-- Second-chance bit. -/
  used : Bool := true
  /-- JSEQ of the oldest change that no copy on the media holds, and of the newest change. -/
  first : Nat := 0
  jseq : Nat := 0
  deriving DecidableEq, Repr

/-- Staged data bound to a command for its apply (R228). -/
structure Bound where
  slba : Nat
  nblk : Nat
  token : Nat
  stream : Nat
  deriving DecidableEq, Repr

/-- A copy that stopped being current while secure deletion is on (R217): its band and when. -/
structure StaleCopy where
  band : Nat
  since : Nat
  deriving DecidableEq, Repr

/-- A unit in the move buffer, its copy not yet placed (R278): the entry it was read from. -/
structure MoveUnit where
  rec_ : URec
  data : Memory
  src : Nat
  deriving DecidableEq, Repr

/-- MAP beyond its registers. Map entries are keyed by namespace handle × 2^40 + map unit; an unlisted one is DEALLOC.
Map pages are keyed by namespace handle × 2^32 + page. -/
structure Map where
  entries : Tab Nat := []
  dir : Tab Nat := []
  frames : Tab Frame := []
  /-- The frames in the order in which second chance comes to them (R203). -/
  ring : List Nat := []
  /-- Keys of the entries in the SRAM map cache, the most recently used first (R202). -/
  sram : List Nat := []
  /-- Pages of cold pinned maps still to load. -/
  coldPages : List Nat := []
  lookups : Tab Lookup := []
  nextLookup : Nat := 1
  staging : Tab SUnit := []
  /-- Staged data bound to commands, by tag. -/
  bound : Tab Bound := []
  /-- The unit record of every valid data unit on the media, by entry / 4. -/
  valid : Tab URec := []
  stale : List StaleCopy := []
  /-- When media units stopped being current whose record is not durable yet, by entry / 4 (R217). -/
  ended : Tab Nat := []
  /-- Blocks read from former entries that a 16 KiB map unit takes over at its placement (R211). -/
  fills : List MoveUnit := []
  /-- CLEAR_SEQ of each namespace (R218). -/
  clearSeq : Tab Nat := []
  /-- MAP is stopped for a full journal ring (R226). -/
  stalled : Bool := false
  /-- Work items asked to move, and the bands they name (R228). -/
  moves : Tab Nat := []
  /-- Staging indices freed and not yet reported to the partner (R399). -/
  released : List Nat := []
  /-- Page sequence counter (R199). -/
  seq : Nat := 1
  deriving DecidableEq, Repr

/-- What follows when a journal record becomes durable (R227). -/
inductive JAct where
  /-- Switch the entry under `key` to `new` if it still holds `cond`; `former` is the copy that then stops being
  current; `recs` are the unit records of the new copy by slot, and `units` the staging units placed, none for a move. -/
  | switch (key cond new former : Nat) (recs : List (Nat × URec)) (units : List Nat)
  /-- The copies of map units, and of map pages, at these entries stopped being current. -/
  | stale (entries pages : List Nat)
  | none
  deriving DecidableEq, Repr

/-- A record appended and not yet durable. -/
structure JPend where
  jseq : Nat
  act : JAct
  deriving DecidableEq, Repr

/-- A record that found the ring full and waits for the tail (R226). -/
structure JWait where
  typ : Nat
  flags : Nat
  nsh : Nat
  body : Nat
  act : JAct
  deriving DecidableEq, Repr

/-- A checkpoint in progress (R225). -/
structure Ckpt where
  number : Nat
  b : Nat
  deriving DecidableEq, Repr

/-- JOURNAL beyond its registers: the 64 MiB of MRAM (R220) and the records in flight. -/
structure Jnl where
  mram : Memory := []
  pend : List JPend := []
  /-- Records that wait for space in the ring, in order. -/
  waits : List JWait := []
  ckpt : Option Ckpt := none
  /-- Number of the newest checkpoint begun, and of the newest that a superblock names. -/
  ckptNo : Nat := 0
  ckptDone : Nat := 0
  /-- The partner's last checkpoint root, from its CKPT_END (R223). -/
  partnerRoot : Nat := 0
  deriving DecidableEq, Repr

/-- One codeword of a page: its data and its unit record (R236). -/
structure Codeword where
  data : Memory := []
  rec_ : Option URec := none
  deriving DecidableEq, Repr

/-- A frame of a Tether link that this unit has sent and that is not yet acknowledged (R232, R234). -/
structure TFrame where
  seq : Nat
  typ : Nat
  tag : Nat := 0
  channel : Nat := 0
  die : Nat := 0
  plane : Nat := 0
  claim : Nat := 0
  /-- OP, CLAIM and LINK payloads, as little-endian words. -/
  words : List Word := []
  /-- A DATA payload: the page's four codewords, and the page record of its spare area (R198). -/
  page : List Codeword := []
  spare : List Byte := []
  replays : Nat := 0
  deriving DecidableEq, Repr

/-- A Tether link beyond its registers. -/
structure Link where
  txSeq : Nat := 0
  rxSeq : Nat := 0
  unacked : List TFrame := []
  opCredits : Nat := 0
  dataCredits : Nat := 0
  retraining : Bool := false
  /-- Die temperatures, at channel × 16 + die, as unsigned bytes; unlisted ones are absent. -/
  temps : Tab Nat := []
  /-- BUSY masks by channel from the last claim change (R240). -/
  busy : Tab Nat := []
  /-- Channels owned when an anchor reset was seen, being presented again (R243). -/
  represent : Nat := 0
  late : Bool := false
  /-- Instant of the last STATUS, or of the link's coming up. -/
  lastStatus : Nat := 0
  deriving DecidableEq, Repr

/-- The claim exchange of R242. -/
structure ClaimX where
  epoch : Nat
  sleds : Nat
  channels : Nat
  /-- Sleds that have not answered. -/
  waiting : Nat
  /-- Sleds that accepted every channel. -/
  accepted : Nat := 0
  /-- Resends made, by sled. -/
  resends : Tab Nat := []
  deriving DecidableEq, Repr

/-- What a NAND operation is for. -/
inductive OpUse where
  | read (job unit level : Nat) (g1 : Bool)
  | rebuild (job unit pos : Nat)
  | program (stripe chunk : Nat)
  | dump (stripe chunk : Nat)
  | erase (band chunk : Nat)
  | suspend (g1 : Bool)
  | resume
  | mapPage (page : Nat)
  | other
  deriving DecidableEq, Repr

/-- An outstanding NAND operation, keyed by sled × 4,096 + tag. -/
structure NandOp where
  use : OpUse
  opcode : Nat
  channel : Nat
  die : Nat
  plane : Nat
  block : Nat
  page : Nat
  issued : Nat
  /-- Scheduled and G1 suspends used. -/
  sched : Nat := 0
  g1 : Nat := 0
  suspended : Bool := false
  /-- Instant of the start or of the last resume. -/
  runSince : Nat := 0
  /-- NSENSE of a SOFT_READ. -/
  nsense : Nat := 0
  /-- Run time before the last suspend. -/
  ran : Nat := 0
  /-- Instant of the last SUSPEND. -/
  suspAt : Nat := 0
  deriving DecidableEq, Repr

/-- A sled record in force (R246). -/
structure SledRec where
  cell : Nat
  channels : Nat
  dies : Nat
  planes : Nat
  profile : Nat
  blocks : Nat
  pages : Nat
  phys : Nat
  trMax : Nat
  xCh : Nat
  tsusMax : Nat
  tprogMax : Nat
  tbersMax : Nat
  susMax : Nat
  g1Sus : Nat
  peRated : Nat
  tresMin : Nat
  tempMax : Nat
  step : Nat
  tslcMax : Nat
  deriving DecidableEq, Repr

/-- One media gate list entry. -/
structure Gate where
  kind : Nat
  ns : Nat
  deriving DecidableEq, Repr

/-- A media gate-list table as copied (R250, R251): list and phase of each die group. -/
structure GateTab where
  cycle : Nat := 0
  lists : List (List Gate) := []
  groups : List (Nat × Nat) := []
  deriving DecidableEq, Repr

/-- A unit of a read job, on its way through the decode ladder (R259). -/
structure JobUnit where
  entry : Nat
  /-- The block it is read for, and its place in the data returned. -/
  lba : Nat := 0
  place : Nat := 0
  /-- Level reached. -/
  level : Nat := 0
  /-- Its codeword has decoded and gone to CIPHER. -/
  decoded : Bool := false
  /-- It has been delivered, or failed for good. -/
  done : Bool := false
  bad : Bool := false
  /-- It ended with its tag failing after a rebuild (R150, R260). -/
  tagFailed : Bool := false
  lost : Bool := false
  rec_ : Option URec := none
  data : Memory := []
  /-- Codewords of a rebuild that have decoded, by chunk position. -/
  rebuilt : Tab Codeword := []
  /-- Rebuild reads still out. -/
  rebuildLeft : Nat := 0
  deriving DecidableEq, Repr

/-- A queued read (R261). -/
structure ReadJob where
  ctx : Nat
  cmdref : Nat
  tenant : Nat
  nsh : Nat
  rope : Nat
  admNo : Nat
  lookup : Nat
  dest : Nat
  grade : Nat
  units : List JobUnit
  /-- It reads for a move (R278), not for a command; `fill` says that it reads what a 16 KiB map unit takes over (R211). -/
  move : Bool := false
  fill : Bool := false
  timing : Bool := false
  rebuiltOne : Bool := false
  retryOver : Bool := false
  gen : Nat := 0
  deriving DecidableEq, Repr

/-- A SOFT_READ, READ or PROGRAM waiting to be issued: what for and where. -/
structure NandReq where
  use : OpUse
  opcode : Nat
  sled : Nat
  channel : Nat
  die : Nat
  plane : Nat
  block : Nat
  page : Nat
  cw : Nat := 0
  /-- Threshold set, or NSENSE. -/
  opt : Nat := 0
  deriving DecidableEq, Repr

/-- MEDIA beyond its registers. -/
structure Media where
  sleds : Tab SledRec := []
  gates : GateTab := {}
  /-- The gate table that a swap has accepted and its start. -/
  nextGates : Option (GateTab × Nat) := none
  thresholds : Memory := []
  ops : Tab NandOp := []
  reqs : List NandReq := []
  jobs : Tab ReadJob := []
  nextJob : Nat := 1
  /-- Dies throttled under R256: sled × 128 + channel × 16 + die. -/
  throttled : List Nat := []
  /-- TETHER has signalled BELAY that a claim was lost (R242). -/
  claimLost : Bool := false
  /-- A sled rejected a channel of the last claim exchange (R408). -/
  claimRejected : Bool := false
  /-- Sleds that answer again and whose records have not been reloaded since (R231, R247). -/
  needReload : List Nat := []
  deriving DecidableEq, Repr

/-- A chunk's place (R268). -/
structure Chunk where
  group : Nat
  die : Nat
  plane : Nat
  block : Nat
  lost : Bool := false
  deriving DecidableEq, Repr

/-- States of a band (R268). -/
inductive BState where
  | queued
  | opened
  | closed
  | victim
  | erasing
  | dump
  deriving DecidableEq, Repr

/-- A band (R268). -/
structure Band where
  state : BState
  k : Nat
  m : Nat
  slc : Bool := false
  partner : Bool := false
  early : Bool := false
  stream : Nat := 0
  nextPage : Nat := 0
  valid : Nat := 0
  reads : Nat := 0
  since : Nat := 0
  chunks : List Chunk := []
  /-- It has an outstanding work item: its KIND (R282). -/
  item : Option Nat := none
  /-- Chunks whose erase has ended, when it is ERASING. -/
  erased : Nat := 0
  /-- A chunk that failed to program: its block is retired after the move (R284). -/
  failed : List Nat := []
  /-- The newest checkpoint that a superblock named when a map-stream band became a victim (R281). -/
  ckptAt : Nat := 0
  /-- When it joined the queue its blocks were the least worn free ones of their die groups; the most worn (R276). -/
  low : Bool := true
  high : Bool := true
  deriving DecidableEq, Repr

/-- What fills a slot of a stripe. -/
inductive SlotUse where
  | unit (index : Nat)
  | move (m : MoveUnit)
  /-- A map page with its 4 KiB as they stood, and the JSEQ then at the journal's head (R201). -/
  | mapPage (page head : Nat) (data : Memory)
  /-- A block that a 16 KiB map unit takes over from its former entry (R211). -/
  | fill (m : MoveUnit)
  | empty
  deriving DecidableEq, Repr

/-- A stripe being filled or programmed. -/
structure Stripe where
  band : Nat
  page : Nat
  slots : List SlotUse := []
  /-- Closed: its chunks are being programmed. -/
  full : Bool := false
  /-- Chunks that have passed. -/
  passed : List Nat := []
  failed : Bool := false
  last : Nat := 0
  dump : Bool := false
  /-- Page sequence number of its first page. -/
  seq : Nat := 0
  deriving DecidableEq, Repr

/-- STRIPE beyond its registers. -/
structure Strp where
  bands : Tab Band := []
  /-- The allocation queue (R269). -/
  queue : List Nat := []
  /-- Free blocks, as chunks (R276). -/
  free : List Chunk := []
  /-- Erased blocks that join a queue only at the next checkpoint (R269). -/
  erasedBlocks : List Chunk := []
  stripes : Tab Stripe := []
  nextStripe : Nat := 0
  /-- The open stripe of each stream. -/
  streams : Tab Nat := []
  /-- Absent-since instants by sled. -/
  absentSince : Tab Nat := []
  /-- Work-item TOKENs: the band each names. -/
  items : Tab Nat := []
  nextItem : Nat := 1
  /-- FREE_LOW's work item is outstanding. -/
  gcAsked : Bool := false
  /-- Free bands have been below FREE_CRIT since. -/
  critSince : Option Nat := none
  /-- Instant at which a victim was last selected (R277). -/
  lastVictim : Nat := 0
  moveBuf : List MoveUnit := []
  /-- Units of the dump in progress. -/
  dumpOwn : Nat := 0
  dumpMirror : Nat := 0
  /-- The garbage-collection stream has been given a band since free bands fell below FREE_CRIT (R280). -/
  gcGiven : Bool := false
  /-- IDENT models of sleds when they became FAILED (R275). -/
  models : Tab Nat := []
  deriving DecidableEq, Repr

end Sys2Proof.Machine
end

