-- ==== Sys2Proof/Machine/StBelay.lean ====
section
/-! DEFINITION. Plain data of BELAY (R389 to R417). -/

namespace Sys2Proof.Machine

/-- What a FWD frame carries (R405). The spec gives no layout; `key` names the command by the receiving unit's context ×
65,536 + CID (log 38). -/
inductive FwdMsg where
  /-- The capsule, with its queue, tenant, subsystem and the bytes its SGL describes. -/
  | capsule (key qid tenant subsys : Nat) (sqe : List Word) (nsgl sgl : Nat) (seg : List Word)
  /-- The owning unit asks for write data. -/
  | want (key off len : Nat)
  /-- Write data from the host, or the result code that stopped it. -/
  | data (key off result : Nat) (bytes : List Byte)
  /-- Read data from the owning unit. -/
  | readData (key off : Nat) (bytes : List Byte)
  /-- The completion, with the deadline that the owner fixed at the admission (R175). -/
  | completion (key : Nat) (c : Cqe) (deadline : Nat)
  /-- The command is aborted, or ended by a reset or a deleted queue (R152, R154). -/
  | mark (key : Nat) (reset : Bool)
  /-- A sanitize of this SANACT begins on the pair (R163). -/
  | sanitize (action : Nat)
  deriving DecidableEq, Repr

/-- A frame sent on the Belay link and not acknowledged yet (R390). `msg` is the content of a FWD frame. -/
structure BFrame where
  seq : Nat
  typ : Nat
  last : Bool := false
  payload : List Byte := []
  msg : Option FwdMsg := none
  replays : Nat := 0
  deriving DecidableEq, Repr

/-- Header of a frame from the partner: SEQ and ACK, and whether its FCS is right and its TYPE known. -/
structure BHdr where
  seq : Nat
  ack : Nat
  good : Bool := true
  deriving DecidableEq, Repr

/-- The HELLO last received, by its fields (R392), and when. -/
structure HelloRec where
  proto : Nat
  unit : Nat
  order : Nat
  state : Nat
  epoch : Nat
  cycleNs : Nat
  ropeHigh : Nat
  seqHigh : Nat
  pinMib : Nat
  mapCfg : Nat
  mirrorPct : Nat
  k : Nat
  m : Nat
  home : Nat
  sleds : Nat
  at_ : Nat
  deriving DecidableEq, Repr

/-- An effect applied to the map in a commit cycle, for its item in the bundle (R400, R401): KIND 1 or 2, `zeros` its
FLAGS bit. -/
structure Effect where
  cycle : Nat
  grade : Nat
  tag : Nat
  ctx : Nat
  cmdref : Nat
  kind : Nat
  zeros : Bool
  nsh : Nat
  slba : Nat
  nblk : Nat
  rope : Nat
  deriving DecidableEq, Repr

/-- A section being received, or one that was, with its bytes (R400). -/
structure Section where
  cycle : Nat
  sec : Nat
  bytes : List Byte
  deriving DecidableEq, Repr

/-- A WRITE or DEALLOC item of a kept section: for a WRITE with data, the staging indices of its MIRROR units. -/
structure Kept where
  cycle : Nat
  sec : Nat
  kind : Nat
  zeros : Bool
  nsh : Nat
  slba : Nat
  nblk : Nat
  rope : Nat
  units : List Nat := []
  deriving DecidableEq, Repr

/-- A kept COMPLETION item (R401). -/
structure KeptDone where
  ctx : Nat
  cmdref : Nat
  sct : Nat
  sc : Nat
  dw0 : Nat
  dw1 : Nat
  deriving DecidableEq, Repr

/-- A bundle sent and not wholly confirmed: its cycle, the instant the cycle ended, and the highest section confirmed. -/
structure OutBundle where
  cycle : Nat
  ended : Nat
  upTo : Nat := 0
  deriving DecidableEq, Repr

/-- Where a takeover stands: which of R410's steps is next. -/
inductive Takeover where
  | none
  | claiming
  | claimingOwn
  | released
  | loaded
  deriving DecidableEq, Repr

/-- A transfer of a forwarded command that this unit, the owner, waits for: its key and the transfer (R405). -/
structure FwdXfer where
  key : Nat
  x : Xfer
  deriving DecidableEq, Repr

/-- BELAY beyond its registers. -/
structure Belay where
  txSeq : Nat := 0
  rxSeq : Nat := 0
  unacked : List BFrame := []
  /-- Credits of 9,216 bytes that the partner's LINK frames have returned. -/
  credits : Nat := 0
  /-- Instant at which both PHYs went down. -/
  downSince : Option Nat := none
  hello : Option HelloRec := none
  /-- Instants of the last beat on the link and on the pins. -/
  lastLink : Option Nat := none
  lastPins : Option Nat := none
  /-- The last BEAT received: its TX_NS and when it arrived. -/
  echoTx : Nat := 0
  echoRx : Nat := 0
  /-- Consecutive BEATs whose offset is beyond the tolerance. -/
  skew : Nat := 0
  /-- The unit beats. -/
  beating : Bool := false
  /-- Levels of PEER_BEAT and PEER_BEAT_IN. -/
  pinOut : Bool := false
  pinIn : Bool := false
  /-- Effects whose bundle has not been sealed, oldest first. -/
  effects : List Effect := []
  /-- The oldest commit cycle not yet sealed, and the first journal record no bundle has carried. -/
  nextSeal : Nat := 0
  jseqSent : Nat := 1
  out : List OutBundle := []
  /-- The section whose frames are arriving, and whole ones not held and confirmed yet. -/
  rxPart : Option Section := none
  rxSects : List Section := []
  /-- WRITE and DEALLOC items, and COMPLETION items, of the sections confirmed. -/
  kept : List Kept := []
  keptDone : List KeptDone := []
  /-- Highest rope and page sequence numbers of the partner, as bundles and HELLOs gave them. -/
  ropeHigh : Nat := 0
  seqHigh : Nat := 0
  /-- The partner's transport records (R404). -/
  precs : List TRec := []
  precNo : Nat := 0
  /-- The local context number assigned to each partner context with an OPEN record (BLY_PCTX_TAB). -/
  pctx : Tab Nat := []
  /-- Recorded RDMA WRITE packets of carried contexts, under the local numbers, not resent yet (R412). -/
  carried : List TRec := []
  /-- Number of the oldest own record not confirmed, how many of them have been sent, and when: (number, instant). -/
  trecBase : Nat := 0
  trecSent : Nat := 0
  trecAt : List (Nat × Nat) := []
  takeover : Takeover := .none
  /-- t0 of the takeover in progress. -/
  t0 : Nat := 0
  /-- A CTRL JOIN waits for the next boundary; bundles are sent though the unit is not paired yet (R414). -/
  joinWaits : Bool := false
  bundling : Bool := false
  /-- A first section 1 has been confirmed, so that the next boundary pairs ROPE (R414). -/
  pairNext : Bool := false
  /-- The unit hands its own home groups over (R416) rather than the joiner's back. -/
  handover : Bool := false
  /-- The unit joins and the HANDBACK has come: its contents are awaited or loaded. -/
  handback : Bool := false
  /-- Home channels were released in a handback or handover: CLAIM_LOST on them is expected (R415). -/
  releasing : Bool := false
  /-- Forwarded transfers this unit owns, relayed ones that ended, completions to send back (R405). -/
  fwdXfers : List FwdXfer := []
  relayed : List (Nat × Xfer × Nat) := []
  fwdBack : List (Nat × Cqe × Nat) := []
  deriving DecidableEq, Repr

end Sys2Proof.Machine
end

