-- ==== Sys2Proof/Machine/StCerri.lean ====
section
/-! DEFINITION. Plain data of the Cerri machines: pitch threads and their runs (R75, R113 to R134), Warden cores
(R107 to R112), and the asks that both send (R96 to R103). -/

namespace Sys2Proof.Machine

/-- An open bounded loop (R91): the indices of its first and last body instruction and the iterations left. An
unbounded Warden loop (R107) is one whose count came from its operand alone. -/
structure LoopRec where
  start : Nat
  last : Nat
  left : Nat
  deriving DecidableEq, Repr

/-- An open call (R89): the return index and the loop-stack depth recorded by `jal`. -/
structure RetRec where
  index : Nat
  loopDepth : Nat
  deriving DecidableEq, Repr

/-- An occupied ask slot of a thread or core (R97, R98). -/
structure AskSlot where
  /-- The ask it holds, by its number in `Dev.asks`. -/
  ask : Nat
  serial : Nat
  posted : Bool
  /-- The status word, once the answer is available, and the answer words with the address of the block they cover. -/
  status : Option Word := none
  words : List Word := []
  addr : Nat := 0
  deriving DecidableEq, Repr

/-- The register state that R75 gives each thread and core. -/
structure Cpu where
  /-- g1 to g31; g0 is never listed. -/
  g : WTab := []
  /-- p1 to p7: bit n is pn. -/
  p : Nat := 0
  pc : Nat := 0
  /-- Open loops, innermost first. -/
  loops : List LoopRec := []
  /-- Open calls, innermost first. -/
  rets : List RetRec := []
  /-- Ask slots in use, by slot number. -/
  slots : Tab AskSlot := []
  /-- Serial number of the last ask, 0 before the first. -/
  serial : Nat := 0
  deriving DecidableEq, Repr

/-- A posted event (R117, R118): its descriptor as little-endian words, the generation of the run whose ask caused it
(none for an arrival, R131), and, for MGMT_POST, the cluster it must run in. -/
structure PEvent where
  typ : Nat
  words : List Word
  gen : Option Nat := none
  cluster : Option Nat := none
  /-- Of a TRAP event, the descriptor of the event whose run trapped: a work item returns to its block whole (R133). -/
  orig : List Word := []
  deriving DecidableEq, Repr

/-- A run on a pitch thread. -/
structure Run where
  ev : PEvent
  gen : Nat
  /-- Slots counted so far (R132). -/
  used : Nat := 0
  /-- Budget in force for the run. -/
  budget : Nat
  /-- An `await` in progress: destination specifier and ask slot. -/
  waiting : Option (Nat × Nat) := none
  deriving DecidableEq, Repr

/-- A pitch thread. -/
structure Thread where
  cpu : Cpu := {}
  run : Option Run := none
  /-- The result word that its last `done` handed to PITCH (R89). -/
  result : Word := 0
  deriving DecidableEq, Repr

/-- A bind record (R124). -/
structure Bind where
  entry : Nat
  worst : Nat
  deriving DecidableEq, Repr

/-- A declared DMA region (R126). -/
structure DmaRegion where
  base : Nat
  length : Nat
  canRead : Bool
  canWrite : Bool
  deriving DecidableEq, Repr

/-- A shared-memory init record (R125). -/
structure InitRec where
  offset : Nat
  data : List Byte
  deriving DecidableEq, Repr

/-- A resident program image: its bank, its code length, binds by event type, regions and init records. -/
structure Image where
  bank : Nat
  gen : Nat
  ncode : Nat
  svn : Nat
  binds : Tab Bind
  dma : List DmaRegion
  inits : List InitRec
  deriving DecidableEq, Repr

/-- PITCH beyond its registers. -/
structure Pitch where
  threads : Tab Thread := []
  /-- The pending queue, oldest first, at most 8,192 entries (R113). -/
  queue : List PEvent := []
  /-- Events their source blocks hold while the queue is full, oldest first (R113). -/
  held : List PEvent := []
  /-- Resident images that are active or draining. -/
  images : List Image := []
  /-- The ready staged image. -/
  staged : Option Image := none
  /-- The load in progress will use this image when it ends well. -/
  loading : Option (Option Image × Nat × Nat) := none
  /-- Admission is paused and arrivals are held for a swap (R130): the cycle N at which the pause began. -/
  pause : Option Nat := none
  /-- Runs of the current MGMT_POST not yet ended (R134). -/
  postLeft : Nat := 0
  /-- MAINT items that return to their block and are reposted after 1 ms (R133). -/
  reposts : List PEvent := []
  deriving DecidableEq, Repr

/-- Who executes an instruction or sends an ask: a pitch thread or a Warden core. -/
inductive Agent where
  | pitch (tid : Nat)
  | warden (core : Nat)
  deriving DecidableEq, Repr

/-- An ask on its way (R96 to R103). -/
structure Ask where
  owner : Agent
  slot : Nat
  accel : Nat
  code : Nat
  args : List Word
  /-- Address of the argument block in the owner's scratch or local memory. -/
  addr : Nat
  posted : Bool
  /-- Its run has ended, so its answer is discarded (R97). -/
  detached : Bool := false
  /-- Its maximum wait has passed without an answer (R102). -/
  late : Bool := false
  /-- Tenant, namespace handle, context, CMDREF and TOKEN of the run's event. -/
  tenant : Nat := 0
  nsh : Nat := 0
  context : Nat := 0
  cmdref : Nat := 0
  token : Nat := 0
  gen : Nat := 0
  /-- What the accelerator answers: status word and answer words. -/
  answer : Option (Word × List Word) := none
  deriving DecidableEq, Repr

/-- What a Warden core waits for. -/
inductive CoreWait where
  | none
  | await (dst slot : Nat)
  | rdreg (dst addr : Nat)
  | wfe
  | fence
  deriving DecidableEq, Repr

/-- A Warden core (R107 to R112). -/
structure Core where
  cpu : Cpu := {}
  tvec : Word := 0
  epc : Word := 0
  cause : Word := 0
  tval : Word := 0
  status : Word := 0
  timecmp : Word := 0
  kscratch : Word := 0
  /-- CYCLE as last read since the core's RUN bit was set, 0 when it was not read. -/
  cycles : Word := 0
  /-- WDN_MBOX has been written since this core last read it. -/
  mbox : Bool := false
  wait : CoreWait := .none
  deriving DecidableEq, Repr

/-- WARDEN beyond its registers. -/
structure Warden where
  cores : Tab Core := []
  /-- SPOTTER has a fault notice for Warden (R111). -/
  notice : Bool := false
  /-- Words in the image that instruction memory holds. -/
  ncode : Nat := 0
  /-- Periods of the 25 MHz reference that the watchdog has counted (R509). -/
  wdog : Nat := 0
  deriving DecidableEq, Repr

end Sys2Proof.Machine
end

