-- ==== Sys2Proof/Machine/StCipher.lean ====
section
/-! DEFINITION. Plain data of CIPHER (R369 to R388). -/

namespace Sys2Proof.Machine

/-- One generation of a data key: Key1 and Key2, and the units it has encrypted (R369, R380). -/
structure KeyGen where
  gen : Nat
  key : List Byte
  used : Nat := 0
  deriving DecidableEq, Repr

/-- A data slot that has been loaded (R369, R370). `cur` none with a slot listed is EMPTY with its tenant kept. -/
structure DSlot where
  tenant : Nat
  nsh : Nat
  cur : Option KeyGen := none
  standby : Option KeyGen := none
  /-- Older generations, draining, oldest first. -/
  older : List KeyGen := []
  /-- Event 0x0181 has been posted for this stay in PAST_SOFT (R381). -/
  deferred : Bool := false
  /-- A KEYGEN record of the partner has not been followed here: the slot reads EMPTY after a takeover (R373). -/
  lagging : Bool := false
  deriving DecidableEq, Repr

/-- One direction of a session slot: traffic key, write IV, records processed, and its slot generation. -/
structure SKey where
  key : List Byte
  iv : List Byte
  used : Nat := 0
  gen : Nat := 0
  deriving DecidableEq, Repr

/-- A session slot. -/
structure SSlot where
  rx : Option SKey := none
  tx : Option SKey := none
  deriving DecidableEq, Repr

/-- A queued seal (R387): its command, staging TOKEN and slot, and the units still to encrypt, in order. -/
structure Seal where
  ctx : Nat
  cmdref : Nat
  tenant : Nat
  nsh : Nat
  runToken : Nat
  runGen : Nat
  token : Nat
  slot : Nat
  rope : Nat
  left : List Nat
  units : Nat
  first : Option Nat := none
  last : Nat := 0
  failed : Bool := false
  /-- Units that MAP formed itself (R193): no program waits for them. -/
  own : Bool := false
  /-- Its number in the order of seal calls. -/
  serial : Nat := 0
  deriving DecidableEq, Repr

/-- A finished seal or read whose CIPHER_DONE has not been posted (R388). -/
structure CDone where
  result : Nat
  op : Nat
  first : Nat
  last : Nat
  units : Nat
  slot : Nat
  token : Nat
  ctx : Nat
  cmdref : Nat
  tenant : Nat
  nsh : Nat
  rope : Nat
  runToken : Nat
  gen : Nat
  deriving DecidableEq, Repr

/-- A read unit whose tag has matched: its plaintext waits under the read's destination TOKEN for egress, with the data
CRC that CIPHER passes with it (R376, R419). -/
structure PlainUnit where
  tag : Nat
  token : Nat
  index : Nat
  wgen : Nat
  data : Memory
  crc : Nat
  deriving DecidableEq, Repr

/-- CIPHER beyond its registers. -/
structure Cipher where
  data : Tab DSlot := []
  sess : Tab SSlot := []
  /-- Seals, oldest first. -/
  seals : List Seal := []
  plain : List PlainUnit := []
  dones : List CDone := []
  /-- Number of the next seal. -/
  nextSeal : Nat := 0
  /-- Erase calls that wait for the seals queued before them: ask, slot, and the number of the next seal then (R386). -/
  erases : List (Nat × Nat × Nat) := []
  /-- STREAM connections that a hard limit stops, still to be closed (R343, R384). -/
  hard : List Nat := []
  deriving DecidableEq, Repr

end Sys2Proof.Machine
end

