-- ==== Sys2Proof/Machine/StNet.lean ====
section
/-! DEFINITION. Plain data of the network path: PARSE, CLASS, SWITCH and SCHED (R296 to R322, R349 to R368). -/

namespace Sys2Proof.Machine

/-- A frame on its way through PARSE (R306): what one pass leaves to the next. -/
structure Walk where
  port : Nat
  /-- Arrival number within its sub-port (R352). -/
  seq : Nat
  /-- Bytes, the FCS included. -/
  data : Memory
  len : Nat
  /-- Receive stamp (R303). -/
  stamp : Nat
  pgen : Nat
  rgen : Nat
  vec : Memory := []
  depth : Nat := 0
  end_ : Nat
  /-- Layers pushed, last first: layer code and offset. -/
  layers : List (Nat × Nat) := []
  node : Nat
  off : Nat
  second : Bool := false
  /-- PRS_CFG.MAX_DEPTH of its parse generation. -/
  maxDepth : Nat := 12
  deriving DecidableEq, Repr

/-- The 64-byte classified descriptor of R319, by its fields. -/
structure Desc where
  stamp : Nat
  port : Nat
  reason : Nat := 0
  pgen : Nat
  rgen : Nat
  len : Nat
  /-- The merged action, its 16 bytes as one number. -/
  act : Nat := 0
  context : Nat := 0
  hash : Nat := 0
  steer : Nat := 0
  nodes : Nat := 0
  layers : List (Nat × Nat) := []
  deriving DecidableEq, Repr

/-- An exact-match or TCAM entry (R312, R317). -/
structure Rule where
  /-- Stage, of an exact-match entry. -/
  stage : Nat := 0
  key : Nat
  mask : Nat := 0
  act : Nat
  from_ : Nat
  till : Option Nat := none
  deriving DecidableEq, Repr

/-- CLASS's copy of its ST values for one resident generation (R317). -/
structure ClsGen where
  regs : WTab := []
  indir : Tab Nat := []
  deriving DecidableEq, Repr

/-- PARSE and CLASS beyond their registers. -/
structure Cls where
  /-- Parse graph images by generation (R310). -/
  graphs : Tab Memory := []
  /-- Per-generation copies (R317). -/
  gens : Tab ClsGen := []
  /-- The staged indirection table. -/
  indir : Tab Nat := []
  /-- Exact-match entries, by bucket × 4 + way. -/
  em : Tab Rule := []
  tcam : Tab Rule := []
  /-- Frames between their two passes (R309), oldest first. -/
  recirc : List Walk := []
  /-- Frames that wait in the resequencers (R352), oldest first. -/
  reseq : List (Walk × Desc) := []
  /-- Frames received of each sub-port. -/
  arrived : Tab Nat := []
  deriving DecidableEq, Repr

/-- Colours of R357. -/
inductive Colour where
  | green
  | yellow
  | red
  deriving DecidableEq, Repr

/-- An ingress frame that SWITCH holds for a transport. -/
structure InFrame where
  desc : Desc
  colour : Colour
  cells : Nat
  dram : Bool := false
  /-- Marked CE (R353). -/
  ce : Bool := false
  deriving DecidableEq, Repr

/-- A frame produced by XPORT, STREAM or Warden, with the copies still to leave (R349, R355). -/
structure OutFrame where
  tenant : Nat
  tclass : Nat
  /-- Length with FCS. -/
  len : Nat
  cells : Nat
  /-- Context it belongs to, none for a frame of Warden. -/
  ctx : Option Nat := none
  /-- Marked ECT(0) (R333, R337). -/
  ect : Bool := false
  /-- Its sender asks for an egress stamp under this tag (R303). -/
  stampTag : Option Nat := none
  ports : List Nat
  dram : Bool := false
  refs : Nat := 1
  deriving DecidableEq, Repr

/-- An egress queue of one sub-port, class and tenant: its frames, the finish time of its head and of its last served
head (R359). -/
structure EgrQ where
  frames : List Nat := []
  head : Nat := 0
  fLast : Nat := 0
  deriving DecidableEq, Repr

/-- One class of a sub-port: its virtual time over tenants, and its own start and last finish time at the class level. -/
structure EgrClass where
  v : Nat := 0
  start : Nat := 0
  fLast : Nat := 0
  deriving DecidableEq, Repr

/-- A sub-port's egress side: virtual time, the frame in transmission with the instant it ends, and the hold of R368. -/
structure EgrPort where
  v : Nat := 0
  tx : Option (Nat × Nat) := none
  /-- Instant of the link loss while the link is down. -/
  downSince : Option Nat := none
  /-- The hold has expired and the link is not back. -/
  expired : Bool := false
  deriving DecidableEq, Repr

/-- SWITCH beyond its registers. -/
structure Swt where
  /-- Ingress queues, by pipeline × 8 + class, oldest first. -/
  ingress : Tab (List InFrame) := []
  /-- Average occupancies (R353), in 1/65,536 byte. -/
  avg : Tab Nat := []
  frames : Tab OutFrame := []
  nextFrame : Nat := 1
  /-- Egress queues, by (port × 8 + class) × 4,096 + tenant. -/
  egress : Tab EgrQ := []
  classes : Tab EgrClass := []
  ports : Tab EgrPort := []
  /-- Frames whose producers wait for a cell or a queue descriptor (R351), oldest first. -/
  waiting : List OutFrame := []
  /-- An audit runs since this instant (R356). -/
  audit : Option Nat := none
  /-- Instant of the last event 0x00E1. -/
  fullEvent : Option Nat := none
  deriving DecidableEq, Repr

/-- A policer in force (R357, R358). Levels are in bytes with a remainder in 1/8,000 byte. -/
structure Policer where
  cir : Nat
  pir : Nat
  cbs : Nat
  pbs : Nat
  tenant : Nat
  tc : Nat
  tp : Nat
  cRem : Nat := 0
  pRem : Nat := 0
  last : Nat := 0
  deriving DecidableEq, Repr

/-- A shaper in force (R360, R361). Buckets are in 1/256 byte, with a remainder of the refill in 1/8,000 of that. -/
structure Shaper where
  cr : Nat
  pr : Nat
  cb : Nat
  pb : Nat
  weight : Nat
  c : Int
  e : Int
  cRem : Nat := 0
  eRem : Nat := 0
  last : Nat := 0
  deriving DecidableEq, Repr

/-- A rate limiter of a context (R363): rate in Mb/s, and when its one-frame bucket next allows a frame. -/
structure Limiter where
  port : Nat
  rate : Nat
  /-- Instant of the last CNP, or of the last rise of its rate. -/
  since : Nat
  ready : Nat := 0
  deriving DecidableEq, Repr

/-- An active gate-list table (R364): cycle, lists of (duration, gates), and each sub-port's list and phase. -/
structure NetGates where
  cycle : Nat := 0
  lists : List (List (Nat × Nat)) := []
  map : List (Nat × Nat) := []
  deriving DecidableEq, Repr

/-- SCHED beyond its registers. -/
structure Sch where
  pol : Tab Policer := []
  ten : Tab Shaper := []
  lim : Tab Limiter := []
  gates : NetGates := {}
  /-- A table copied and checked that waits for its start. -/
  next : Option (NetGates × Nat) := none
  /-- Frames dropped at enqueue for a tenant without a valid entry (R361). -/
  invalid : Tab Nat := []
  deriving DecidableEq, Repr

end Sys2Proof.Machine
end

