-- ==== Sys2Proof/Machine/StTally.lean ====
section
/-! DEFINITION. Plain data of TALLY (R462 to R477) and CAIRN (R478 to R482). -/

namespace Sys2Proof.Machine

/-- One threshold counter (R467): its configuration register, its ticks, whether the occupancy stood above LEVEL at the
last tick, and the instant of its last event. -/
structure Thr where
  cfg : Word := 0
  ticks : Nat := 0
  above : Bool := false
  lastEvent : Option Nat := none
  deriving DecidableEq, Repr

/-- The counts of one ingress port number in a window (R468). -/
structure PortWin where
  rxb : Nat := 0
  txb : Nat := 0
  rx : Nat := 0
  tx : Nat := 0
  deriving DecidableEq, Repr

/-- A metering batch handed to ANCHOR and not yet signed (R475): the bytes before its signature, its SEQ, END_NS and
SPAN. -/
structure Batch where
  bytes : List Byte
  seq : Nat
  endNs : Nat
  span : Bool
  deriving DecidableEq, Repr

/-- TALLY beyond its registers. -/
structure Tally where
  /-- Tenant counters, at tenant × 16 + index. -/
  tcnt : WTab := []
  /-- Program counters. -/
  pcnt : WTab := []
  thr : Tab Thr := []
  /-- Port counts of the current window, of the last completed one, and the largest ones since last read in KiB. -/
  cur : Tab PortWin := []
  done : Tab PortWin := []
  peak : Tab (Nat × Nat) := []
  /-- Port windows wait for the next boundary after a release from freeze (R471). -/
  restart : Bool := false
  /-- Boundary and values of the last latch; none before the baseline (R474). -/
  base : Option Nat := none
  latch : WTab := []
  /-- Network time of TALLY's enable. -/
  enabledNs : Nat := 0
  /-- The last boundary was held for a full ring (R477). -/
  held : Bool := false
  /-- SEQ of the last batch latched. -/
  seq : Nat := 0
  signing : Option Batch := none
  /-- The last instants at which a metering minute and a port window ended and the ticks of R464 came. -/
  lastMin : Option Nat := none
  lastWin : Option Nat := none
  lastSec : Option Nat := none
  lastMs : Option Nat := none
  deriving DecidableEq, Repr

/-- The trigger schedule in force (R478). -/
inductive CrnArm where
  | off
  | oneShot (at_ : Nat)
  /-- The next instant, the period in ns, and whether the series carries LATE. -/
  | periodic (next period : Nat) (late : Bool)
  deriving DecidableEq, Repr

/-- A snapshot set being collected (R481): its head's fields and whether it will be written. -/
structure CrnSet where
  ns : Nat
  seq : Nat
  late : Bool
  stepped : Bool
  /-- Tenant counters latched with it, when it carries them. -/
  tenants : Option WTab := none
  /-- A ring slot was free at the trigger. -/
  writes : Bool := true
  deriving DecidableEq, Repr

/-- CAIRN beyond its registers. -/
structure Cairn where
  arm : CrnArm := .off
  collecting : Option CrnSet := none
  /-- Triggers missed since the previous set. -/
  missed : Nat := 0
  /-- CAIRN_TRIG is high until this instant (R479). -/
  pinUntil : Option Nat := none
  deriving DecidableEq, Repr

end Sys2Proof.Machine
end

