-- ==== Sys2Proof/Machine/StTrust.lean ====
section
/-! DEFINITION. Plain data of ANCHOR (R430 to R444) and of the SPDM responder. -/

namespace Sys2Proof.Machine

/-- A measured image: SHAKE256 and SHA3-512 digests over the same bytes (R432, R444). -/
structure Measure where
  shake : List Byte
  sha3 : List Byte
  deriving DecidableEq, Repr

/-- An ANCHOR request in progress (R440): OP, the record's address, and the RESULT it will end with, once known; a fuse
request that is accepted waits for its fuse operation with the record that was accepted. -/
structure AncReq where
  op : Nat
  addr : Nat
  result : Option Nat := none
  accepted : Option (List Byte) := none
  deriving DecidableEq, Repr

/-- One measurement block of an SPDM response (R444): a digest, nothing for an empty index, or the raw bit stream. -/
inductive SpdmBlock where
  | digest (index : Nat) (sha3 : List Byte)
  | empty (index : Nat)
  | raw (index : Nat) (bits : List Byte)
  deriving DecidableEq, Repr

/-- What the SPDM responder sends (R444). -/
inductive SpdmRsp where
  | version (major minor : Nat)
  /-- CERT_CAP, CHAL_CAP, MEAS_CAP = signed, MEAS_FRESH_CAP. -/
  | capabilities (cert chal measSigned measFresh : Bool)
  /-- The agreement on Ed448 and SHA3-512; false when the requester offers neither. -/
  | algorithms (agreed : Bool)
  | digests (slot0 : List Byte)
  | certificate (portion : List Byte) (remainder : Nat)
  | challengeAuth (chainHash summary signature : List Byte)
  | measurements (blocks : List SpdmBlock) (signature : Option (List Byte))
  | unsupported
  /-- A request the responder cannot serve now or whose field names nothing it holds. -/
  | invalid
  deriving DecidableEq, Repr

/-- ANCHOR beyond its registers. -/
structure Anchor where
  /-- The fuse shadow: 64 words, each the OR of its two cells (R430 step 1). -/
  fuse : WTab := []
  /-- The fuses have been sensed since the last cold or pin reset (R52). -/
  sensed : Bool := false
  /-- Measurements by index 1 to 5 (R444); an unlisted index is empty. -/
  meas : Tab Measure := []
  /-- The CDI of R434; empty before boot step 9. -/
  cdi : List Byte := []
  /-- The Domain KEK, when one is loaded (R436). -/
  kek : Option (List Byte) := none
  /-- The 2 MiB recovery image buffer: its bytes so far (R433). -/
  recovery : List Byte := []
  /-- Since the last reset of ANCHOR a Warden core has run, so the recovery registers are closed (R433). -/
  wardenRan : Bool := false
  /-- The alias certificates issued at boot step 9, as the chain the export request returns (R437). -/
  chain : List Byte := []
  /-- The same chain without the metering alias, which SPDM gives (R444). -/
  spdmChain : List Byte := []
  /-- The DeviceID certificate as boot flash holds it from 0x00FF_0000 (R437, R504). -/
  flashCert : List Byte := []
  req : Option AncReq := none
  /-- SPDM: the version has been asked, capabilities exchanged, algorithms negotiated (R444). -/
  spdmStage : Nat := 0
  /-- The last SPDM response sent. -/
  spdmTx : Option SpdmRsp := none
  deriving DecidableEq, Repr

end Sys2Proof.Machine
end

