-- ==== Sys2Proof/Machine/Operands.lean ====
section
/-! DEFINITION. The operands that commands carry beside numbers and bytes: what a frame, a packet or a record from outside
holds, and what the media, the modules or a link answered. -/

namespace Sys2Proof.Machine

/-- What a check finds outside the device: whether the links it trains came up in their bound (or, for JOURNAL, whether the
MRAM array check passed), what a sled anchor answers, and the RDIMMs with the channels that failed training. -/
structure CheckObs where
  good : Bool := true
  lanes : Nat := 4
  proto : Nat := 0x0100
  model : Nat := 0
  planes : Nat := 0
  dies : Nat := 0
  channels : Nat := 0
  /-- RDIMMs found, by slot 2c + s. -/
  rdimms : Tab Rdimm := []
  /-- Bit c: channel c failed training. -/
  failing : Nat := 0
  deriving DecidableEq, Repr

/-- Header of a frame from an anchor (R232): link, SEQ, ACK, and whether its CRC is right and its TYPE known. -/
structure RxHdr where
  sled : Nat
  seq : Nat
  ack : Nat
  good : Bool
  deriving DecidableEq, Repr

/-- What the unit reads back from its media at recovery: the newest decodable checkpoint root, and the unit records at the
media units that replayed records name, by entry / 4. -/
structure RootObs where
  good : Bool
  /-- Map entries, directory, CLEAR_SEQs and valid units as of the root. -/
  entries : Tab Nat
  dir : Tab Nat
  clearSeq : Tab Nat
  valid : Tab URec
  bands : Tab Band
  queue : List Nat
  free : List Chunk
  /-- The block table, 768 MiB from MDA_BLKTAB. -/
  blocks : Memory
  recs : Tab URec := []
  /-- Tenant and key slot of the namespaces of its namespace table, by handle. -/
  nss : Tab (Nat × Nat) := []
  deriving DecidableEq, Repr

/-- A unit of the dump as read back: whether it was an own unit, its staging index then, its record and its data. -/
structure DumpUnit where
  own : Bool
  index : Nat
  rec_ : URec
  data : Memory
  deriving DecidableEq, Repr

/-- A unit found by a scan: where, its page sequence number, whether CIPHER has destroyed its key generation while its slot
is not loaded yet, and its record. -/
structure ScanUnit where
  entry : Nat
  seq : Nat
  dead : Bool
  rec_ : URec
  deriving DecidableEq, Repr

/-- The create data structure's fields (R138). -/
structure NsCreate where
  tenant : Nat
  grade : Nat
  flags : Nat
  keySlot : Nat
  reserved : Nat
  anagrp : Nat
  nsze : Nat
  ncap : Nat
  deriving DecidableEq, Repr

/-- The common command codes the target supports. -/
inductive Ccc where
  /-- The controller assigns a dynamic address. -/
  | entdaa (addr : Nat)
  /-- A dynamic address for the target at a static one. -/
  | setdasa (static addr : Nat)
  | rstdaa
  | getpid
  | getbcr
  | getdcr
  | getstatus
  deriving DecidableEq, Repr

/-- An update record. -/
structure UpdRec where
  op : Nat
  stage : Nat
  index : Nat
  act : Nat
  key : Nat
  mask : Nat
  /-- Every byte that must be zero is zero. -/
  zeros : Bool
  deriving DecidableEq, Repr

/-- The path an access comes by (R55). -/
inductive Path where
  | core (n : Nat)
  | lane
  | mctp
  deriving DecidableEq, Repr

/-- What a domain request names: a block instance through BLK_PWR_REQ, or a domain through CAMP_DOM (R449). -/
inductive DomSel where
  | block (blk n : Nat)
  | dom (k : Nat)
  deriving DecidableEq, Repr

/-- A Namespace Management command: create in a subsystem, under the handle HOSTQ gives it, or delete (R139). -/
inductive NsCmd where
  | create (subsys handle : Nat) (c : NsCreate)
  | delete (handle : Nat)
  deriving DecidableEq, Repr

/-- What MAP places into a stripe: a staging unit, a map page, or the oldest copies of the move buffer (R212, R213, R278). -/
inductive PlaceReq where
  | unit (i : Nat)
  | page (p : Nat)
  | moves (n : Nat)
  deriving DecidableEq, Repr

/-- Where a TCP segment goes: to an open connection, to a listen port as the ACK that completes a SYN cookie, or to no
connection (R336, R337). -/
inductive TcpIn where
  | conn (pipe n tenant : Nat) (g : TcpSeg)
  | opens (port : Nat) (c : Ctx)
  | stray (port tenant : Nat)
  deriving DecidableEq, Repr

end Sys2Proof.Machine
end

