-- ==== Sys2Proof/Syntax.lean ====
section
/-! DEFINITION. The commands of the block, one constructor per row of the opcode table, with the operands each carries from
outside. A command that names work already in the state names it by its number there. -/

namespace Sys2Proof

open Sys2Proof.Machine

/-- A command. -/
inductive Instr where
  /-- REG_WRITE (R8). -/
  | regWrite (who : Path) (addr : Nat) (value : Word)
  /-- REG_READ_CLEAR (R8). -/
  | regReadClear (who : Path) (addr : Nat)
  /-- BAD_ACCESS (R54). -/
  | badAccess (addr width : Nat)
  /-- BLOCK_ENABLE (R58). -/
  | blockEnable (blk n : Nat)
  /-- CONSISTENCY_CHECK_END (R58). -/
  | consistencyCheckEnd (blk n : Nat) (o : CheckObs)
  /-- BLOCK_DISABLE (R61). -/
  | blockDisable (blk n : Nat)
  /-- BLOCK_DISABLE_DONE (R61). -/
  | blockDisableDone (blk n : Nat)
  /-- BLOCK_DRAIN (R62). -/
  | blockDrain (blk n : Nat) (drain : Bool)
  /-- DRAINED (R57). -/
  | drained (blk n : Nat)
  /-- GEN_SWAP_REQUEST (R65). -/
  | genSwapRequest (blk n : Nat)
  /-- GEN_SWAP_CHECK_END (R65). -/
  | genSwapCheckEnd (blk n : Nat) (o : CheckObs)
  /-- GEN_SWAP_TAKE (R64). -/
  | genSwapTake (blk n : Nat)
  /-- GEN_DISCARD (R66). -/
  | genDiscard (blk n : Nat)
  /-- GEN_RELEASE (R24). -/
  | genRelease (blk n gen : Nat)
  /-- COLD_RESET (R48). -/
  | coldReset (unitId bootMode : Nat) (resetLow : Bool)
  /-- PIN_RESET (R48). -/
  | pinReset (ns : Nat)
  /-- WARM_RESET (R52). -/
  | warmReset (key : Nat)
  /-- WDOG_EXPIRY (R509). -/
  | wdogExpiry
  /-- WDOG_KICK (R509). -/
  | wdogKick (ms : Nat) (kick : Bool)
  /-- PWR_GOOD_FALL (R491). -/
  | pwrGoodFall (burnt : Bool)
  /-- ANCHOR_BOOT (R430). -/
  | anchorBoot (flash : List Byte) (senseBad : Bool)
  /-- MGMT_RCV_DATA (R433). -/
  | mgmtRcvData (value : Word)
  /-- MGMT_RCV_BOOT (R433). -/
  | mgmtRcvBoot
  /-- WARDEN_MAILBOX_WRITE (R70). -/
  | wardenMailboxWrite (value : Word)
  /-- CORE_RUN (R112). -/
  | coreRun (core : Nat) (run : Bool)
  /-- RAS_REQUEST (R72). -/
  | rasRequest (ip port dst dport : Nat) (req : List Byte)
  /-- RAS_MEMORY_EXPIRY (R74). -/
  | rasMemoryExpiry (who : Path) (source : Nat)
  /-- NVME_MI_VENDOR_C0 (R164). -/
  | nvmeMiVendorC0 (eid : Nat) (overLane : Bool) (req : List Byte)
  /-- ADD (R86). -/
  | add (who : Agent) (ecc : Bool)
  /-- SUB (R86). -/
  | sub (who : Agent) (ecc : Bool)
  /-- MUL (R86). -/
  | mul (who : Agent) (ecc : Bool)
  /-- MULHU (R86). -/
  | mulhu (who : Agent) (ecc : Bool)
  /-- AND (R86). -/
  | and (who : Agent) (ecc : Bool)
  /-- OR (R86). -/
  | or (who : Agent) (ecc : Bool)
  /-- XOR (R86). -/
  | xor (who : Agent) (ecc : Bool)
  /-- ANDN (R86). -/
  | andn (who : Agent) (ecc : Bool)
  /-- SHL (R86). -/
  | shl (who : Agent) (ecc : Bool)
  /-- SHR (R86). -/
  | shr (who : Agent) (ecc : Bool)
  /-- SAR (R86). -/
  | sar (who : Agent) (ecc : Bool)
  /-- ROR (R86). -/
  | ror (who : Agent) (ecc : Bool)
  /-- MINU (R86). -/
  | minu (who : Agent) (ecc : Bool)
  /-- MAXU (R86). -/
  | maxu (who : Agent) (ecc : Bool)
  /-- CLZ (R86). -/
  | clz (who : Agent) (ecc : Bool)
  /-- POPC (R86). -/
  | popc (who : Agent) (ecc : Bool)
  /-- BEXT (R86). -/
  | bext (who : Agent) (ecc : Bool)
  /-- BINS (R86). -/
  | bins (who : Agent) (ecc : Bool)
  /-- CRC32C (R86). -/
  | crc32c (who : Agent) (ecc : Bool)
  /-- BSWAP (R86). -/
  | bswap (who : Agent) (ecc : Bool)
  /-- CMPEQ (R87). -/
  | cmpeq (who : Agent) (ecc : Bool)
  /-- CMPNE (R87). -/
  | cmpne (who : Agent) (ecc : Bool)
  /-- CMPLTU (R87). -/
  | cmpltu (who : Agent) (ecc : Bool)
  /-- CMPLT (R87). -/
  | cmplt (who : Agent) (ecc : Bool)
  /-- CMPGEU (R87). -/
  | cmpgeu (who : Agent) (ecc : Bool)
  /-- CMPGE (R87). -/
  | cmpge (who : Agent) (ecc : Bool)
  /-- TST (R87). -/
  | tst (who : Agent) (ecc : Bool)
  /-- LD (R88). -/
  | ld (who : Agent) (ecc : Bool)
  /-- LDW (R88). -/
  | ldw (who : Agent) (ecc : Bool)
  /-- LDH (R88). -/
  | ldh (who : Agent) (ecc : Bool)
  /-- LDB (R88). -/
  | ldb (who : Agent) (ecc : Bool)
  /-- ST (R88). -/
  | st (who : Agent) (ecc : Bool)
  /-- STW (R88). -/
  | stw (who : Agent) (ecc : Bool)
  /-- STH (R88). -/
  | sth (who : Agent) (ecc : Bool)
  /-- STB (R88). -/
  | stb (who : Agent) (ecc : Bool)
  /-- LDD (R88). -/
  | ldd (who : Agent) (ecc : Bool)
  /-- LDC (R88). -/
  | ldc (who : Agent) (ecc : Bool)
  /-- AMOADD (R88). -/
  | amoadd (who : Agent) (ecc : Bool)
  /-- CAS (R88). -/
  | cas (who : Agent) (ecc : Bool)
  /-- BR (R89). -/
  | br (who : Agent) (ecc : Bool)
  /-- JAL (R89). -/
  | jal (who : Agent) (ecc : Bool)
  /-- RET (R89). -/
  | ret (who : Agent) (ecc : Bool)
  /-- JT (R95). -/
  | jt (who : Agent) (ecc : Bool)
  /-- LOOP (R91). -/
  | loop (who : Agent) (ecc : Bool)
  /-- DONE (R89). -/
  | done (who : Agent) (ecc : Bool)
  /-- FAULT (R89). -/
  | fault (who : Agent) (ecc : Bool)
  /-- NOP (R89). -/
  | nop (who : Agent) (ecc : Bool)
  /-- ASK (R96). -/
  | ask (who : Agent) (ecc : Bool)
  /-- AWAIT (R96). -/
  | await (who : Agent) (ecc : Bool)
  /-- POLL (R96). -/
  | poll (who : Agent) (ecc : Bool)
  /-- ASK_ANSWER (R99). -/
  | askAnswer (id waited : Nat)
  /-- ASK_LATE (R102). -/
  | askLate (id waited : Nat)
  /-- BUDGET_EXPIRY (R132). -/
  | budgetExpiry (tid : Nat)
  /-- CSRR (R109). -/
  | csrr (who : Agent) (ecc : Bool)
  /-- CSRW (R109). -/
  | csrw (who : Agent) (ecc : Bool)
  /-- RDREG (R109). -/
  | rdreg (who : Agent) (ecc : Bool)
  /-- RDREG_RETURN (R110). -/
  | rdregReturn (core : Nat)
  /-- WRREG (R109). -/
  | wrreg (who : Agent) (ecc : Bool)
  /-- ERET (R109). -/
  | eret (who : Agent) (ecc : Bool)
  /-- WFE (R109). -/
  | wfe (who : Agent) (ecc : Bool)
  /-- WFE_WAKE (R112). -/
  | wfeWake (core : Nat)
  /-- FENCE (R109). -/
  | fence (who : Agent) (ecc : Bool)
  /-- FENCE_DONE (R109). -/
  | fenceDone (core : Nat)
  /-- INTERRUPT_TAKEN (R112). -/
  | interruptTaken (core : Nat)
  /-- EVENT_POST (R113). -/
  | eventPost (tenant nsh token : Nat) (rest : List Nat)
  /-- EVENT_DISPATCH (R114). -/
  | eventDispatch (tid : Nat)
  /-- PITCH_LOAD (R127). -/
  | pitchLoad
  /-- PITCH_LOAD_DONE (R127). -/
  | pitchLoadDone
  /-- MGMT_POST_GO (R134). -/
  | mgmtPostGo (len : Nat)
  /-- MGMT_POST_DONE (R134). -/
  | mgmtPostDone
  /-- MAINT_REPOST (R133). -/
  | maintRepost
  /-- TALLY_ADD (R473). -/
  | tallyAdd (id : Nat)
  /-- TALLY_READ (R473). -/
  | tallyRead (id : Nat)
  /-- TALLY_LOG (R473). -/
  | tallyLog (id : Nat)
  /-- CLASS_EXACT_LOOKUP (R100). -/
  | classExactLookup (id stage key : Nat)
  /-- MAP_LOOKUP (R228). -/
  | mapLookup (id : Nat)
  /-- MAP_RELEASE (R228). -/
  | mapRelease (id : Nat)
  /-- MAP_STAGE (R228). -/
  | mapStage (id : Nat)
  /-- MAP_NAMESPACE_INFO (R228). -/
  | mapNamespaceInfo (id : Nat)
  /-- MAP_MOVE (R228). -/
  | mapMove (id : Nat)
  /-- LEDGER_ADMIT (R176). -/
  | ledgerAdmit (id : Nat) (kind : CmdKind) (slba nblk ranges handle : Nat)
  /-- LEDGER_RELEASE (R179). -/
  | ledgerRelease (id : Nat)
  /-- ROPE_REQUEST (R186). -/
  | ropeRequest (id : Nat) (applied : Bool)
  /-- ROPE_MARK (R186). -/
  | ropeMark (id : Nat)
  /-- MARK_EXPIRY (R186). -/
  | markExpiry (ctrl cmdref : Nat)
  /-- CIPHER_SEAL (R387). -/
  | cipherSeal (id : Nat)
  /-- CIPHER_ERASE (R386). -/
  | cipherErase (id : Nat)
  /-- MEDIA_READ (R261). -/
  | mediaRead (id : Nat)
  /-- MEDIA_WORK (R261). -/
  | mediaWork (id : Nat)
  /-- STRIPE_CANDIDATES (R295). -/
  | stripeCandidates (id : Nat)
  /-- STRIPE_SELECT (R295). -/
  | stripeSelect (id : Nat)
  /-- HOSTQ_FETCH_ENTRY (R100). -/
  | hostqFetchEntry (id : Nat)
  /-- HOSTQ_POST_COMPLETION (R100). -/
  | hostqPostCompletion (id : Nat) (c : Cqe)
  /-- XPORT_WRITE (R347). -/
  | xportWrite (id : Nat) (bad : Bool)
  /-- XPORT_READ (R347). -/
  | xportRead (id : Nat)
  /-- STREAM_WRITE (R347). -/
  | streamWrite (id : Nat) (bad : Bool)
  /-- STREAM_READ (R347). -/
  | streamRead (id : Nat)
  /-- DMA_READ (R511). -/
  | dmaRead (id : Nat)
  /-- DMA_WRITE (R511). -/
  | dmaWrite (id : Nat)
  /-- WARDEN_MAILBOX (R512). -/
  | wardenMailbox (id : Nat)
  /-- WARDEN_POST (R512). -/
  | wardenPost (id : Nat)
  /-- CAPSULE_ARRIVAL (R144). -/
  | capsuleArrival (ctx : Nat) (sqe : List Word) (nsgl sgl : Nat) (seg : List Word)
  /-- COMPLETION_DELIVERED (R146). -/
  | completionDelivered (ctx cid left : Nat)
  /-- GET_LOG_PAGE (R148). -/
  | getLogPage (src : Src)
  /-- IDENTIFY (R160). -/
  | identify (src : Src)
  /-- ABORT (R152). -/
  | abort (src : Src)
  /-- SET_FEATURES (R148). -/
  | setFeatures (src : Src) (data : List Byte)
  /-- GET_FEATURES (R148). -/
  | getFeatures (src : Src)
  /-- ASYNCHRONOUS_EVENT_REQUEST (R158). -/
  | asynchronousEventRequest (src : Src)
  /-- DEVICE_SELF_TEST_SHORT (R156). -/
  | deviceSelfTestShort (src : Src)
  /-- DEVICE_SELF_TEST_EXTENDED (R156). -/
  | deviceSelfTestExtended (src : Src)
  /-- DEVICE_SELF_TEST_ABORT (R156). -/
  | deviceSelfTestAbort (src : Src)
  /-- SELF_TEST_END (R156). -/
  | selfTestEnd (failed : Nat)
  /-- KEEP_ALIVE (R148). -/
  | keepAlive (src : Src)
  /-- KATO_EXPIRY (R145). -/
  | katoExpiry (ctrl : Nat)
  /-- CONNECT (R136). -/
  | connect (ctx cid : Nat) (fab : Fabric) (host sub : List Byte) (cntlid qid sqsize kato : Nat)
  /-- PROPERTY_GET (R148). -/
  | propertyGet (src : Src)
  /-- PROPERTY_SET (R148). -/
  | propertySet (src : Src)
  /-- DISCONNECT (R148). -/
  | disconnect (ctx cid : Nat)
  /-- CONTROLLER_RESET_DRAINED (R154). -/
  | controllerResetDrained (ctrl : Nat)
  /-- FORMAT_NVM (R218). -/
  | formatNvm (src : Src)
  /-- FIRMWARE_IMAGE_DOWNLOAD (R162). -/
  | firmwareImageDownload (src : Src) (off : Nat) (data : List Byte)
  /-- FIRMWARE_COMMIT (R162). -/
  | firmwareCommit (src : Src)
  /-- NAMESPACE_MANAGEMENT (R139). -/
  | namespaceManagement (src : Src) (cmd : NsCmd)
  /-- NAMESPACE_ATTACHMENT (R137). -/
  | namespaceAttachment (src : Src) (handle : Nat) (attach : Bool) (ctrls : List Nat)
  /-- SANITIZE_CRYPTO_ERASE (R163). -/
  | sanitizeCryptoErase (src : Src)
  /-- SANITIZE_BLOCK_ERASE (R163). -/
  | sanitizeBlockErase (src : Src)
  /-- FLUSH (R153). -/
  | flush (ctx cid : Nat)
  /-- FLUSH_COMPLETE (R153). -/
  | flushComplete (ctx cid : Nat)
  /-- WRITE (R149). -/
  | write (ctx cid : Nat)
  /-- READ (R149). -/
  | read (ctx cid : Nat)
  /-- WRITE_ZEROES (R193). -/
  | writeZeroes (ctx cid : Nat)
  /-- DATASET_MANAGEMENT (R216). -/
  | datasetManagement (ctx cid : Nat) (ranges : List (Nat × Nat))
  /-- NS_ENTRY_UPDATE (R165). -/
  | nsEntryUpdate (handle : Nat)
  /-- LEDGER_DEFERRED_ADMIT (R178). -/
  | ledgerDeferredAdmit
  /-- LEDGER_TEN_UPDATE (R169). -/
  | ledgerTenUpdate (tenant : Nat)
  /-- COMMIT_CYCLE_BOUNDARY (R14). -/
  | commitCycleBoundary
  /-- SEAL_LEAD_CLOSE (R188). -/
  | sealLeadClose
  /-- BUNDLE_SEAL (R26). -/
  | bundleSeal
  /-- LOCK_GRANT (R181). -/
  | lockGrant (entry : Nat) (applied : Bool)
  /-- DATA_LANDING (R207). -/
  | dataLanding (tenant nsh token at_ : Nat) (data : List Byte) (uncommitted : Bool)
  /-- MAP_PLACE (R212). -/
  | mapPlace (what : PlaceReq)
  /-- STRIPE_PROGRAM_PASS (R227). -/
  | stripeProgramPass (stripe : Nat)
  /-- JOURNAL_DURABLE (R222). -/
  | journalDurable
  /-- STAGING_FREE (R210). -/
  | stagingFree (unit : Nat)
  /-- MAP_PAGE_READY (R202). -/
  | mapPageReady (page : Nat) (good : Bool)
  /-- MAP_CACHE_WRITEBACK (R203). -/
  | mapCacheWriteback (page : Nat)
  /-- PINNED_MAP_WARM (R206). -/
  | pinnedMapWarm (page : Nat)
  /-- SECURE_DEL_DEADLINE (R217). -/
  | secureDelDeadline (band : Nat)
  /-- CHECKPOINT_START (R225). -/
  | checkpointStart
  /-- CHECKPOINT_END (R225). -/
  | checkpointEnd (root : Nat) (bands : List (Nat × List Chunk))
  /-- MAP_RECOVER_REPLAY (R291). -/
  | mapRecoverReplay (root : RootObs) (dump : List DumpUnit) (seqHigh : Nat)
  /-- MAP_RECOVER_SCAN (R293). -/
  | mapRecoverScan (root : RootObs) (us : List ScanUnit) (dump : List DumpUnit) (seqHigh newRoot : Nat)
  /-- RECOVERY_END (R294). -/
  | recoveryEnd (good : Bool)
  /-- TETHER_LANE_LOSS (R231). -/
  | tetherLaneLoss (sled : Nat)
  /-- TETHER_RETRAIN_END (R231). -/
  | tetherRetrainEnd (sled : Nat) (ok : Bool)
  /-- TETHER_LINK_FRAME (R235). -/
  | tetherLinkFrame (h : RxHdr) (op data : Nat) (nak : Bool)
  /-- TETHER_REPLAY_TIMEOUT (R234). -/
  | tetherReplayTimeout (sled : Nat)
  /-- TETHER_RESP (R238). -/
  | tetherResp (h : RxHdr) (tag result temp exec held : Nat)
  /-- TETHER_RDATA (R236). -/
  | tetherRdata (h : RxHdr) (tag : Nat) (pass : Bool) (cw : Codeword)
  /-- TETHER_CLAIM_REPLY (R240). -/
  | tetherClaimReply (h : RxHdr) (claim accepted rejected : Nat) (held busy : List Nat)
  /-- TETHER_STATUS (R244). -/
  | tetherStatus (h : RxHdr) (temp flags : Nat) (held temps : List Nat)
  /-- STATUS_LATE (R244). -/
  | statusLate (sled : Nat)
  /-- TTH_CLAIM_CMD (R242). -/
  | tthClaimCmd (epoch sleds channels : Nat)
  /-- CLAIM_RESEND_TIMEOUT (R242). -/
  | claimResendTimeout (sled : Nat)
  /-- NAND_OP_TIMEOUT (R248). -/
  | nandOpTimeout (sled tag : Nat)
  /-- MDA_SLED_RELOAD (R247). -/
  | mdaSledReload (sled : Nat)
  /-- MEDIA_GATE_LIST_START (R252). -/
  | mediaGateListStart
  /-- NAND_PROGRAM_ISSUE (R253). -/
  | nandProgramIssue (req tag : Nat)
  /-- NAND_READ_ISSUE (R176). -/
  | nandReadIssue (req tag : Nat)
  /-- MEDIA_SUSPEND_SEND (R254). -/
  | mediaSuspendSend (sled ch die tag : Nat) (g1 : Bool)
  /-- MEDIA_RESUME_SEND (R254). -/
  | mediaResumeSend (sled ch die tag : Nat)
  /-- OPEN_STRIPE_IDLE_CLOSE (R267). -/
  | openStripeIdleClose (stream : Nat)
  /-- SLED_GRACE_EXPIRY (R271). -/
  | sledGraceExpiry (sled : Nat)
  /-- SLED_DECLARE_FAILED (R273). -/
  | sledDeclareFailed (sled : Nat)
  /-- SLED_RETURN (R275). -/
  | sledReturn (sled : Nat)
  /-- SLED_RETIRED (R273). -/
  | sledRetired (sled : Nat)
  /-- GC_AUTO_SELECT (R277). -/
  | gcAutoSelect
  /-- GC_ERASE_ISSUE (R278). -/
  | gcEraseIssue (band : Nat)
  /-- GC_ERASE_DONE (R278). -/
  | gcEraseDone (band : Nat)
  /-- PFAIL_FALL (R457). -/
  | pfailFall
  /-- PFAIL_GLITCH (R457). -/
  | pfailGlitch
  /-- PFAIL_FILTER_PASS (R458). -/
  | pfailFilterPass
  /-- DUMP_START (R288). -/
  | dumpStart
  /-- DUMP_END (R289). -/
  | dumpEnd
  /-- PFAIL_RISE (R460). -/
  | pfailRise
  /-- SUBPORT_LINK_CHANGE (R299). -/
  | subportLinkChange (port : Nat) (up : Bool)
  /-- FRAME_RECEIVE (R298). -/
  | frameReceive (port : Nat) (frame : List Byte) (fcsGood ect : Bool) (corr uncorr : Nat)
  /-- RECIRCULATION_PASS (R309). -/
  | recirculationPass (pipe : Nat) (ect : Bool)
  /-- RESEQUENCE_RELEASE (R352). -/
  | resequenceRelease (port : Nat) (ect : Bool)
  /-- CLASS_UPDATE_LOAD (R320). -/
  | classUpdateLoad (count ports : Nat)
  /-- EM_ADD (R320). -/
  | emAdd (u : UpdRec)
  /-- EM_END (R320). -/
  | emEnd (u : UpdRec)
  /-- TCAM_ADD (R320). -/
  | tcamAdd (u : UpdRec)
  /-- TCAM_END (R320). -/
  | tcamEnd (u : UpdRec)
  /-- INDIR (R320). -/
  | indir (u : UpdRec)
  /-- TIM_STEP (R301). -/
  | timStep (value : Word)
  /-- TIM_SLEW (R302). -/
  | timSlew (value : Word)
  /-- PPS_OUT_EDGE (R304). -/
  | ppsOutEdge
  /-- PPS_IN_EDGE (R304). -/
  | ppsInEdge
  /-- EGRESS_FRAME_START (R359). -/
  | egressFrameStart (port : Nat)
  /-- PRODUCER_CELL_RESUME (R351). -/
  | producerCellResume
  /-- AUDIT_START (R356). -/
  | auditStart
  /-- AUDIT_END (R356). -/
  | auditEnd (leaked : Nat)
  /-- SCH_TEN_UPDATE (R362). -/
  | schTenUpdate (tenant : Nat)
  /-- SCH_POL_UPDATE (R358). -/
  | schPolUpdate (policer : Nat)
  /-- CNP_RECOVER_EXPIRY (R363). -/
  | cnpRecoverExpiry (ctx : Nat)
  /-- SCHED_GATE_LIST_START (R367). -/
  | schedGateListStart
  /-- HOLD_EXPIRY (R368). -/
  | holdExpiry (port : Nat)
  /-- ROCE_REQUEST_RECEIVE (R329). -/
  | roceRequestReceive (pipe n tenant psn : Nat) (op : ReqOp) (ce : Bool)
  /-- ACK_COALESCE_EXPIRY (R329). -/
  | ackCoalesceExpiry (n : Nat)
  /-- ROCE_ACK_RECEIVE (R331). -/
  | roceAckReceive (pipe n tenant psn code msn : Nat)
  /-- ROCE_NAK_RECEIVE (R331). -/
  | roceNakReceive (pipe n tenant psn : Nat) (nak : Nak)
  /-- ROCE_READ_RESPONSE (R331). -/
  | roceReadResponse (pipe n tenant psn : Nat) (data : List Byte) (ce : Bool)
  /-- ROCE_ACK_TIMEOUT (R331). -/
  | roceAckTimeout (n : Nat)
  /-- RNR_TIMER_EXPIRY (R331). -/
  | rnrTimerExpiry (n : Nat)
  /-- CNP_RECEIVE (R333). -/
  | cnpReceive (pipe n tenant : Nat)
  /-- CM_MAD_RECEIVE (R328). -/
  | cmMadReceive (x : Desc) (data : List Byte)
  /-- CONTEXT_FETCH_DONE (R327). -/
  | contextFetchDone (n : Nat)
  /-- CONTEXT_OPEN_RESUME (R326). -/
  | contextOpenResume (blk : Nat)
  /-- XPT_CTX_OPEN (R325). -/
  | xptCtxOpen
  /-- XPT_CTX_CLOSE (R325). -/
  | xptCtxClose (n : Nat)
  /-- XPT_CTX_MOVE (R345). -/
  | xptCtxMove (n : Nat)
  /-- STR_CTX_BIND (R341). -/
  | strCtxBind (n slot : Nat)
  /-- STR_CTX_CLOSE (R325). -/
  | strCtxClose (n : Nat)
  /-- TCP_SYN_RECEIVE (R337). -/
  | tcpSynReceive (port tenant : Nat)
  /-- TCP_SEGMENT_RECEIVE (R337). -/
  | tcpSegmentReceive (seg : TcpIn)
  /-- TCP_RTO_EXPIRY (R337). -/
  | tcpRtoExpiry (n : Nat)
  /-- ICREQ (R338). -/
  | icreq (n pfv hpda : Nat) (hdgst ddgst lenOk : Bool)
  /-- CAPSULECMD (R338). -/
  | capsulecmd (n : Nat) (k : HeldCap) (lenOk digestsOk : Bool)
  /-- H2CDATA (R340). -/
  | h2cdata (n ttag off : Nat) (data : List Byte) (lenOk digestsOk : Bool)
  /-- H2CTERMREQ (R338). -/
  | h2ctermreq (n : Nat)
  /-- TLS_RECORD_RECEIVE (R342). -/
  | tlsRecordReceive (n : Nat) (header sealed : List Byte)
  /-- TLS_KEYUPDATE_RECEIVE (R343). -/
  | tlsKeyupdateReceive (n : Nat)
  /-- TLS_ALERT_RECEIVE (R341). -/
  | tlsAlertReceive (n : Nat)
  /-- KEY_LOAD (R372). -/
  | keyLoad (session : Bool) (slot : Nat)
  /-- KEY_DESTROY (R386). -/
  | keyDestroy (all session : Bool) (slot : Nat)
  /-- SEAL_UNIT (R375). -/
  | sealUnit (k : Nat) (bad : Bool)
  /-- UNIT_DECRYPT (R376). -/
  | unitDecrypt (job unit : Nat)
  /-- CIPHER_DONE (R388). -/
  | cipherDone
  /-- GENERATION_DRAINED (R385). -/
  | generationDrained (slot gen : Nat)
  /-- BELAY_LINK_ENABLE (R392). -/
  | belayLinkEnable (phys : Nat)
  /-- HELLO_TIMER (R392). -/
  | helloTimer
  /-- HELLO (R392). -/
  | hello (h : BHdr) (payload : List Byte)
  /-- BEAT_TIMER (R395). -/
  | beatTimer
  /-- BEAT (R394). -/
  | beat (h : BHdr) (payload : List Byte)
  /-- PEER_BEAT_EDGE (R395). -/
  | peerBeatEdge (level : Bool)
  /-- BEAT_MISS (R395). -/
  | beatMiss (pins : Bool)
  /-- PARTNER_LOST (R396). -/
  | partnerLost
  /-- BELAY_PHY_DOWN (R391). -/
  | belayPhyDown (phy : Nat)
  /-- LINK_GRACE_EXPIRY (R397). -/
  | linkGraceExpiry
  /-- BELAY_REPLAY_TIMEOUT (R390). -/
  | belayReplayTimeout
  /-- BUNDLE (R399). -/
  | bundle (h : BHdr) (payload : List Byte)
  /-- BCONF (R399). -/
  | bconf (h : BHdr) (cycle part : Nat)
  /-- TREC (R404). -/
  | trec (h : BHdr) (payload : List Byte)
  /-- TCONF (R403). -/
  | tconf (h : BHdr) (number : Nat)
  /-- FWD (R405). -/
  | fwd (h : BHdr) (m : FwdMsg)
  /-- JOIN (R414). -/
  | join (h : BHdr) (epoch : Nat)
  /-- HANDBACK (R415). -/
  | handback (h : BHdr) (epoch : Nat)
  /-- HANDBACK_DRAINED (R415). -/
  | handbackDrained
  /-- REJOIN_DONE (R415). -/
  | rejoinDone (h : Option BHdr)
  /-- HANDOVER (R416). -/
  | handover
  /-- HANDOVER_RECEIVE (R416). -/
  | handoverReceive (h : BHdr) (epoch : Nat)
  /-- FENCE_NOW (R409). -/
  | fenceNow
  /-- TAKEOVER_CLAIM_DONE (R410). -/
  | takeoverClaimDone
  /-- TAKEOVER_SECOND_CLAIM_DONE (R408). -/
  | takeoverSecondClaimDone
  /-- TAKEOVER_STATE_LOAD (R411). -/
  | takeoverStateLoad (root : RootObs)
  /-- TAKEOVER_ACCEPT_RESUME (R412). -/
  | takeoverAcceptResume
  /-- FAULT_DETECT (R423). -/
  | faultDetect (cls blk n detail : Nat)
  /-- SELFTEST_SLICE (R428). -/
  | selftestSlice (item blk n : Nat) (failed : Bool)
  /-- SELFTEST_PASS_START (R429). -/
  | selftestPassStart
  /-- SELFTEST_PASS_END (R428). -/
  | selftestPassEnd (ms : Nat)
  /-- SPT_INJECT (R424). -/
  | sptInject (blk cls : Nat)
  /-- ATTEST_REPORT (R443). -/
  | attestReport
  /-- KEK_IMPORT (R436). -/
  | kekImport
  /-- KEK_UNSEAL (R436). -/
  | kekUnseal
  /-- FUSE_REQUEST (R440). -/
  | fuseRequest
  /-- ENROLL (R441). -/
  | enroll
  /-- REVOKE (R440). -/
  | revoke
  /-- RAISE_WDN (R440). -/
  | raiseWdn
  /-- RAISE_PGM (R440). -/
  | raisePgm
  /-- DECOMMISSION (R440). -/
  | decommission
  /-- CERT_EXPORT (R437). -/
  | certExport
  /-- SPDM_SIGN (R438). -/
  | spdmSign
  /-- ANCHOR_REQUEST_DONE (R440). -/
  | anchorRequestDone
  /-- GET_VERSION (R444). -/
  | getVersion
  /-- GET_CAPABILITIES (R444). -/
  | getCapabilities
  /-- NEGOTIATE_ALGORITHMS (R444). -/
  | negotiateAlgorithms (ed448 sha3 : Bool)
  /-- GET_DIGESTS (R444). -/
  | getDigests
  /-- GET_CERTIFICATE (R444). -/
  | getCertificate (slot offset length : Nat)
  /-- CHALLENGE (R444). -/
  | challenge (slot summary : Nat) (hash : List Byte)
  /-- GET_MEASUREMENTS (R444). -/
  | getMeasurements (index : Nat) (hash : Option (List Byte))
  /-- SPDM_UNSUPPORTED_REQUEST (R444). -/
  | spdmUnsupportedRequest
  /-- POWER_STATE_REQUEST (R452). -/
  | powerStateRequest (ps : Nat)
  /-- WAKE (R453). -/
  | wake
  /-- POWER_STATE_REACHED (R454). -/
  | powerStateReached
  /-- DOMAIN_REQUEST (R449). -/
  | domainRequest (sel : DomSel) (state : Nat)
  /-- DOMAIN_STATE_REACHED (R446). -/
  | domainStateReached (dom : Nat) (failed : Bool)
  /-- DOMAIN_IDLE_GATE (R447). -/
  | domainIdleGate (dom : Nat)
  /-- DOMAIN_WORK_WAKE (R447). -/
  | domainWorkWake (dom : Nat)
  /-- PLL_LOCK (R455). -/
  | pllLock (pll : Nat)
  /-- PLL_LOCK_LOSS (R456). -/
  | pllLockLoss (pll : Option Nat)
  /-- METER_BOUNDARY (R474). -/
  | meterBoundary
  /-- METER_BATCH_SIGNED (R475). -/
  | meterBatchSigned
  /-- CAPACITY_SECOND_TICK (R464). -/
  | capacitySecondTick
  /-- GRADE_MS_TICK (R464). -/
  | gradeMsTick
  /-- THRESHOLD_TICK (R467). -/
  | thresholdTick
  /-- PORT_WINDOW_END (R468). -/
  | portWindowEnd
  /-- SAMPLING_EVENT (R469). -/
  | samplingEvent (src tenant : Nat)
  /-- SAMP_COUNT_WRITE (R470). -/
  | sampCountWrite (counter : Nat) (value : Word) (event : Bool)
  /-- TLY_FREEZE_WRITE (R471). -/
  | tlyFreezeWrite (frozen onTrig : Bool)
  /-- CAIRN_DISARM (R478). -/
  | cairnDisarm
  /-- CAIRN_ONE_SHOT (R478). -/
  | cairnOneShot
  /-- CAIRN_PERIODIC (R478). -/
  | cairnPeriodic
  /-- CAIRN_TRIGGER (R479). -/
  | cairnTrigger
  /-- SNAPSHOT_SET_WRITTEN (R481). -/
  | snapshotSetWritten
  /-- I3C_CCC (R502). -/
  | i3cCcc (c : Ccc)
  /-- JTAG_EXTEST (R505). -/
  | jtagExtest (levels shift : List Bool)
  /-- JTAG_SAMPLE_PRELOAD (R505). -/
  | jtagSamplePreload (levels shift : List Bool)
  /-- JTAG_BYPASS (R505). -/
  | jtagBypass (shift : List Bool)
  /-- TETHER_LINK_UP (R231). -/
  | tetherLinkUp (sled : Nat) (o : CheckObs)
  /-- BELAY_PHY_UP (R391). -/
  | belayPhyUp (phy : Nat)
  /-- BELAY_LINK_FRAME (R390). -/
  | belayLinkFrame (h : BHdr) (credits : Nat) (nak : Bool)
  /-- RESET_N_RISE (R498). -/
  | resetNRise (unitId bootMode : Nat)
  /-- RETENTION_EXPIRY (R282). -/
  | retentionExpiry (band : Nat)
  deriving DecidableEq, Repr

end Sys2Proof
end

