-- ==== Sys2Proof/Machine/Codes.lean ====
section
/-! DEFINITION. The checksums and the erasure code that the spec gives in full: CRC-32C (R86, R198), the protection tag's
CRC-64 (R418) and the Reed-Solomon code of R265. -/

namespace Sys2Proof.Machine

/-- One bit of CRC-32C, reflected form. -/
def crc32cBit (c : Nat) : Nat := if c % 2 = 1 then (c / 2) ^^^ 0x82F63B78 else c / 2

/-- CRC-32C state after one more byte. -/
def crc32cByte (c : Nat) (b : Byte) : Nat := (List.range 8).foldl (fun c _ => crc32cBit c) (c ^^^ b.toNat)

/-- CRC-32C of a byte string, with initial value and final XOR all ones. -/
def crc32c (bs : List Byte) : Nat := (bs.foldl crc32cByte 0xFFFFFFFF) ^^^ 0xFFFFFFFF

/-- One bit of the protection tag's CRC, polynomial 0xAD93_D235_94C9_3659 in reflected form (R418). -/
def crc64Bit (c : Nat) : Nat := if c % 2 = 1 then (c / 2) ^^^ 0x9A6C9329AC4BC9B5 else c / 2

/-- CRC state after one more byte. -/
def crc64Byte (c : Nat) (b : Byte) : Nat := (List.range 8).foldl (fun c _ => crc64Bit c) (c ^^^ b.toNat)

/-- The data CRC of R418: the state after the plaintext bytes. -/
def dataCrc (bs : List Byte) : Nat := bs.foldl crc64Byte 0xFFFFFFFFFFFFFFFF

/-- The protection tag of a unit: the data CRC completed over LADDR and WGEN (R418). -/
def finishTag (crc laddr wgen : Nat) : Nat :=
  ((leBytes laddr 8 ++ leBytes wgen 8).foldl crc64Byte crc) ^^^ 0xFFFFFFFFFFFFFFFF

/-- Multiply in GF(2^8) with polynomial 0x11D (R265). -/
def gfMul (a b : Nat) : Nat :=
  ((List.range 8).foldl (fun (p : Nat × Nat) i =>
    (if bitOf b i then p.1 ^^^ p.2 else p.1, if p.2 < 128 then p.2 * 2 else (p.2 * 2) ^^^ 0x11D)) (0, a)).1

/-- The inverse of a non-zero element of GF(2^8): its 254th power. -/
def gfInv (a : Nat) : Nat :=
  let a2 := gfMul a a
  let a4 := gfMul a2 a2
  let a8 := gfMul a4 a4
  let a16 := gfMul a8 a8
  let a32 := gfMul a16 a16
  let a64 := gfMul a32 a32
  let a128 := gfMul a64 a64
  gfMul a2 (gfMul a4 (gfMul a8 (gfMul a16 (gfMul a32 (gfMul a64 a128)))))

/-- The Cauchy coefficient c(r, j) of R265. -/
def rsCoef (r j : Nat) : Nat := gfInv (r ^^^ (j + 4))

/-- Add `c` times the bytes `y` to the bytes `x`. -/
def gfAxpy (c : Nat) (x y : List Byte) : List Byte :=
  List.zipWith (fun a b => a ^^^ BitVec.ofNat 8 (gfMul c b.toNat)) x y

/-- Parity `r` over the data chunks' bytes, in chunk order, each of `n` bytes (R265). -/
def rsParity (r n : Nat) (data : List (List Byte)) : List Byte :=
  ((data.zipIdx).foldl (fun acc p => gfAxpy (rsCoef r p.2) acc p.1) (List.replicate n 0))

/-- Multiply a byte string by a constant. -/
def gfScale (c : Nat) (x : List Byte) : List Byte := x.map fun b => BitVec.ofNat 8 (gfMul c b.toNat)

/-- One elimination step on the rows (coefficients, bytes): pivot on column `col`. -/
def gfPivot (col : Nat) (rows : List (List Nat × List Byte)) : List (List Nat × List Byte) :=
  match rows.find? (fun r => r.1.getD col 0 ≠ 0) with
  | none => rows
  | some p =>
    let inv := gfInv (p.1.getD col 0)
    let pn : List Nat × List Byte := (p.1.map (gfMul inv), gfScale inv p.2)
    pn :: ((rows.erase p).map fun r =>
      let f := r.1.getD col 0
      (List.zipWith (fun a b => a ^^^ gfMul f b) r.1 pn.1, gfAxpy f r.2 pn.2))

/-- Eliminate column after column, each solved row being set aside in column order. -/
def gfSolve (k : Nat) : Nat → List (List Nat × List Byte) → List (List Nat × List Byte) → List (List Nat × List Byte)
  | 0, done, _ => done
  | n + 1, done, rows =>
    let col := k - (n + 1)
    match gfPivot col rows with
    | [] => done
    | p :: rest =>
      let clear := done.map fun r =>
        let f := r.1.getD col 0
        (List.zipWith (fun a b => a ^^^ gfMul f b) r.1 p.1, gfAxpy f r.2 p.2)
      gfSolve k n (clear ++ [p]) rest

/-- The row of chunk position `pos` in the code with `k` data chunks. -/
def rsRow (k pos : Nat) : List Nat :=
  (List.range k).map fun j => if pos < k then (if j = pos then 1 else 0) else rsCoef (pos - k) j

/-- Rebuild the bytes of position `want` from `k` known positions (R265, R270). -/
def rsRebuild (k want n : Nat) (known : List (Nat × List Byte)) : List Byte :=
  let data := (gfSolve k k [] ((known.take k).map fun p => (rsRow k p.1, p.2))).map (·.2)
  if want < k then data.getD want (List.replicate n 0) else rsParity (want - k) n data

end Sys2Proof.Machine
end

