-- ==== Sys2Proof/Config.lean ====
section
/-! DEFINITION. What the spec leaves open, as opaque constants: free values, and the cryptographic functions that
published standards define and the spec only names. No constant of this file has a body that a proof could see. -/

namespace Sys2Proof.Config

/-- The n-th value the spec leaves open, where nothing ties it to anything (log 2). -/
opaque freeValue : Nat → Word

/-- SHAKE256 of a byte string, `n` bytes (FIPS 202; named by R123, R432, R436). -/
opaque shake256 : List Byte → Nat → List Byte

/-- SHA3-512 of a byte string (FIPS 202; R444). -/
opaque sha3_512 : List Byte → List Byte

/-- Does an Ed448 signature verify under a public key (RFC 8032; R123, R430)? -/
opaque ed448Verify : (key msg sig : List Byte) → Bool

/-- The Ed448 signature of a message under a private seed (R438, R443, R475). -/
opaque ed448Sign : (seed msg : List Byte) → List Byte

/-- The Ed448 public key of a private seed. -/
opaque ed448Public : (seed : List Byte) → List Byte

/-- The X448 function (R436). -/
opaque x448 : (scalar point : List Byte) → List Byte

/-- AES key unwrap (SP 800-38F): the unwrapped bytes, or none when the integrity check fails (R371, R372, R436). -/
opaque keyUnwrap : (kek wrapped : List Byte) → Option (List Byte)

/-- AES key wrap (SP 800-38F). -/
opaque keyWrap : (kek data : List Byte) → List Byte

/-- XTS-AES-256 encryption of a unit under a key and tweak (R374). -/
opaque xtsEncrypt : (key : List Byte) → (tweak : Nat) → List Byte → List Byte

/-- XTS-AES-256 decryption (R376). -/
opaque xtsDecrypt : (key : List Byte) → (tweak : Nat) → List Byte → List Byte

/-- AES-256-GCM opening of a record: its plaintext, or none when the tag fails (R378, R379). -/
opaque gcmOpen : (key nonce aad sealed : List Byte) → Option (List Byte)

/-- AES-256-GCM sealing (R378). -/
opaque gcmSeal : (key nonce aad plain : List Byte) → List Byte

/-- What the Rosino verifier and the loader prove about the memory that the load or store at a word of a program reaches,
where its base is not g0: cluster shared memory (true), thread scratch (false), or nothing. R106 uses it and the spec does
not say how it is found (log 44). -/
opaque provenKind : (code : List Word) → (pc : Nat) → Option Bool

/-- The program image and the Warden image that a downloaded firmware bundle holds, none when its format is bad: R162 names
the bundle and the spec gives no layout of it. -/
opaque bundleParts : List Byte → Option (List Byte × List Byte)

/-- Contents of ANCHOR's boot ROM, which the spec does not give (R444 index 1). -/
opaque bootRom : List Byte

/-- The DER certificate chain of R437 as exported, or without the metering alias (R444), from the certificates in boot
flash, the DeviceID seed, the two alias public keys and the measurements that TcbInfo carries. -/
opaque certChain : (withMeter : Bool) → (flash devSeed attestPub meterPub tcb : List Byte) → List Byte

/-- The SPDM 1.2 signing prefix that ANCHOR puts before a message hash (R438). -/
opaque spdmPrefix : List Byte

/-- The fuse word manufacture left in a unit (R439). -/
opaque fuseWord : Nat → Word

end Sys2Proof.Config
end

