-- ==== Sys2Proof/Machine/Regs.lean ====
section
/-! DEFINITION. The register tables of the spec as data (the register sections of files 02 to 17): for every
register of every block its offset, and for every field its bits, access type (R8), reset value, and the range its
row states; and one name for each field, spelled as the spec spells it. The enable check of R60 reads the ranges. -/

namespace Sys2Proof.Machine

/-- The access types of R8. -/
inductive Acc where
  | rw | ro | wo | w1c | w1s | rc | lk | st
  deriving DecidableEq, Repr

/-- One field of a register: bits `hi:lo`, access type, reset value; whether zero is meaningless (R67), and the
least and greatest value of its stated range (R63). Only LK and ST fields carry a range. -/
structure Fld where
  hi : Nat
  lo : Nat
  acc : Acc
  rst : Nat := 0
  zeroBad : Bool := false
  least : Nat := 0
  most : Nat := 0xFFFFFFFFFFFFFFFF
  deriving DecidableEq, Repr

/-- One register, or `cnt` like registers eight bytes apart. `only0` marks a register that instance 0 alone has. -/
structure Row where
  off : Nat
  cnt : Nat := 1
  only0 : Bool := false
  flds : List Fld
  deriving DecidableEq, Repr

/-- The name of a field: its block, its register's offset and its bits. -/
structure FRef where
  blk : Nat
  off : Nat
  hi : Nat
  lo : Nat
  deriving DecidableEq, Repr

/-- The same field of the register `i` places further on (an array of registers eight bytes apart). -/
def FRef.nth (r : FRef) (i : Nat) : FRef := { r with off := r.off + 8 * i }

/-- The registers of CAMP. -/
def rowsCAMP : List Row :=
  [
   -- CAMP_RST_CAUSE
   ⟨0x200, 1, false, [⟨63, 32, .ro, 0, false, 0, 0xFFFFFFFFFFFFFFFF⟩, ⟨5, 5, .w1c, 0, false, 0, 0xFFFFFFFFFFFFFFFF⟩, ⟨4, 4, .w1c, 0, false, 0, 0xFFFFFFFFFFFFFFFF⟩, ⟨3, 3, .w1c, 0, false, 0, 0xFFFFFFFFFFFFFFFF⟩, ⟨2, 2, .w1c, 0, false, 0, 0xFFFFFFFFFFFFFFFF⟩, ⟨1, 1, .w1c, 1, false, 0, 0xFFFFFFFFFFFFFFFF⟩]⟩,
   -- CAMP_WRST
   ⟨0x208, 1, false, [⟨15, 0, .wo, 0, false, 0, 0xFFFFFFFFFFFFFFFF⟩]⟩,
   -- CAMP_STRAP
   ⟨0x210, 1, false, [⟨1, 1, .ro, 0, false, 0, 0xFFFFFFFFFFFFFFFF⟩, ⟨0, 0, .ro, 0, false, 0, 0xFFFFFFFFFFFFFFFF⟩]⟩,
   -- CAMP_PLL
   ⟨0x218, 1, false, [⟨48, 32, .ro, 0, false, 0, 0xFFFFFFFFFFFFFFFF⟩, ⟨16, 0, .ro, 0, false, 0, 0xFFFFFFFFFFFFFFFF⟩]⟩,
   -- CAMP_DOM_SEL
   ⟨0x220, 1, false, [⟨6, 0, .rw, 0, false, 0, 0xFFFFFFFFFFFFFFFF⟩]⟩,
   -- CAMP_DOM
   ⟨0x228, 1, false, [⟨14, 12, .ro, 0, false, 0, 0xFFFFFFFFFFFFFFFF⟩, ⟨11, 11, .ro, 0, false, 0, 0xFFFFFFFFFFFFFFFF⟩, ⟨10, 8, .ro, 0, false, 0, 0xFFFFFFFFFFFFFFFF⟩, ⟨6, 4, .ro, 0, false, 0, 0xFFFFFFFFFFFFFFFF⟩, ⟨2, 0, .rw, 0, false, 0, 0xFFFFFFFFFFFFFFFF⟩]⟩,
   -- CAMP_SAVE
   ⟨0x230, 1, false, [⟨31, 0, .rw, 0, false, 0, 0xFFFFFFFFFFFFFFFF⟩]⟩,
   -- CAMP_PS
   ⟨0x238, 1, false, [⟨63, 32, .rc, 0, false, 0, 0xFFFFFFFFFFFFFFFF⟩, ⟨12, 12, .ro, 0, false, 0, 0xFFFFFFFFFFFFFFFF⟩, ⟨9, 8, .ro, 0, false, 0, 0xFFFFFFFFFFFFFFFF⟩, ⟨1, 0, .rw, 0, false, 0, 0xFFFFFFFFFFFFFFFF⟩]⟩,
   -- CAMP_PFAIL_CFG
   ⟨0x248, 1, false, [⟨8, 8, .rw, 1, false, 0, 0xFFFFFFFFFFFFFFFF⟩, ⟨7, 0, .rw, 0xa, false, 0, 0xFFFFFFFFFFFFFFFF⟩]⟩,
   -- CAMP_PFAIL_REC
   ⟨0x250, 1, false, [⟨63, 48, .rc, 0, false, 0, 0xFFFFFFFFFFFFFFFF⟩, ⟨47, 32, .ro, 0, false, 0, 0xFFFFFFFFFFFFFFFF⟩, ⟨31, 0, .ro, 0, false, 0, 0xFFFFFFFFFFFFFFFF⟩]⟩,
   -- CAMP_PFAIL_NS
   ⟨0x258, 1, false, [⟨63, 0, .ro, 0, false, 0, 0xFFFFFFFFFFFFFFFF⟩]⟩
  ]

/-- The registers of ANCHOR. -/
def rowsANCHOR : List Row :=
  [
   -- ANC_BOOT
   ⟨0x200, 1, false, [⟨63, 32, .ro, 0, false, 0, 0xFFFFFFFFFFFFFFFF⟩, ⟨22, 20, .ro, 0, false, 0, 0xFFFFFFFFFFFFFFFF⟩, ⟨17, 16, .ro, 0, false, 0, 0xFFFFFFFFFFFFFFFF⟩, ⟨11, 8, .ro, 0, false, 0, 0xFFFFFFFFFFFFFFFF⟩, ⟨0, 0, .ro, 0, false, 0, 0xFFFFFFFFFFFFFFFF⟩]⟩,
   -- ANC_MEAS_SEL
   ⟨0x208, 1, false, [⟨6, 4, .rw, 0, false, 0, 0xFFFFFFFFFFFFFFFF⟩, ⟨3, 0, .rw, 0, false, 0, 0xFFFFFFFFFFFFFFFF⟩]⟩,
   -- ANC_MEAS
   ⟨0x210, 1, false, [⟨63, 0, .ro, 0, false, 0, 0xFFFFFFFFFFFFFFFF⟩]⟩,
   -- ANC_FUSE_SEL
   ⟨0x218, 1, false, [⟨5, 0, .rw, 0, false, 0, 0xFFFFFFFFFFFFFFFF⟩]⟩,
   -- ANC_FUSE
   ⟨0x220, 1, false, [⟨63, 0, .ro, 0, false, 0, 0xFFFFFFFFFFFFFFFF⟩]⟩,
   -- ANC_REQ
   ⟨0x228, 1, false, [⟨39, 0, .rw, 0, false, 0, 0xFFFFFFFFFFFFFFFF⟩]⟩,
   -- ANC_REQ_CTRL
   ⟨0x230, 1, false, [⟨63, 63, .wo, 0, false, 0, 0xFFFFFFFFFFFFFFFF⟩, ⟨62, 62, .ro, 0, false, 0, 0xFFFFFFFFFFFFFFFF⟩, ⟨55, 48, .ro, 0, false, 0, 0xFFFFFFFFFFFFFFFF⟩, ⟨7, 0, .rw, 0, false, 0, 0xFFFFFFFFFFFFFFFF⟩]⟩,
   -- ANC_KEK
   ⟨0x238, 1, false, [⟨63, 8, .ro, 0, false, 0, 0xFFFFFFFFFFFFFFFF⟩, ⟨0, 0, .ro, 0, false, 0, 0xFFFFFFFFFFFFFFFF⟩]⟩,
   -- ANC_SIGNS
   ⟨0x240, 1, false, [⟨63, 32, .rc, 0, false, 0, 0xFFFFFFFFFFFFFFFF⟩, ⟨31, 0, .rc, 0, false, 0, 0xFFFFFFFFFFFFFFFF⟩]⟩
  ]

/-- The registers of WARDEN. -/
def rowsWARDEN : List Row :=
  [
   -- WDN_CORE_CTRL
   ⟨0x200, 1, false, [⟨3, 0, .rw, 0, false, 0, 0xFFFFFFFFFFFFFFFF⟩]⟩,
   -- WDN_PATH_POLICY
   ⟨0x208, 1, false, [⟨28, 0, .rw, 0, false, 0, 0xFFFFFFFFFFFFFFFF⟩]⟩,
   -- WDN_EVR_HEAD
   ⟨0x210, 1, false, [⟨11, 0, .ro, 0, false, 0, 0xFFFFFFFFFFFFFFFF⟩]⟩,
   -- WDN_EVR_TAIL
   ⟨0x218, 1, false, [⟨11, 0, .rw, 0, false, 0, 0xFFFFFFFFFFFFFFFF⟩]⟩,
   -- WDN_EVR_LOST
   ⟨0x220, 1, false, [⟨31, 0, .rc, 0, false, 0, 0xFFFFFFFFFFFFFFFF⟩]⟩,
   -- WDN_MBOX
   ⟨0x228, 1, false, [⟨63, 0, .rw, 0, false, 0, 0xFFFFFFFFFFFFFFFF⟩]⟩,
   -- WDN_WDOG
   ⟨0x230, 1, false, [⟨16, 16, .wo, 0, false, 0, 0xFFFFFFFFFFFFFFFF⟩, ⟨15, 0, .rw, 0, false, 0, 0xFFFFFFFFFFFFFFFF⟩]⟩
  ]

/-- The registers of SPOTTER. -/
def rowsSPOTTER : List Row :=
  [
   -- SPT_CFG
   ⟨0x200, 1, false, [⟨16, 16, .lk, 0, false, 0, 1⟩, ⟨13, 8, .lk, 0x32, true, 1, 50⟩, ⟨2, 0, .lk, 5, true, 1, 5⟩]⟩,
   -- SPT_REACT
   ⟨0x208, 1, false, [⟨63, 0, .rw, 0x2a400418, false, 0, 0xFFFFFFFFFFFFFFFF⟩]⟩,
   -- SPT_LAST
   ⟨0x210, 1, false, [⟨63, 56, .ro, 0, false, 0, 0xFFFFFFFFFFFFFFFF⟩, ⟨55, 48, .ro, 0, false, 0, 0xFFFFFFFFFFFFFFFF⟩, ⟨47, 40, .ro, 0, false, 0, 0xFFFFFFFFFFFFFFFF⟩, ⟨39, 32, .ro, 0, false, 0, 0xFFFFFFFFFFFFFFFF⟩, ⟨31, 0, .ro, 0, false, 0, 0xFFFFFFFFFFFFFFFF⟩]⟩,
   -- SPT_LAST_NS
   ⟨0x218, 1, false, [⟨63, 0, .ro, 0, false, 0, 0xFFFFFFFFFFFFFFFF⟩]⟩,
   -- SPT_FAULTS
   ⟨0x220, 1, false, [⟨63, 32, .rc, 0, false, 0, 0xFFFFFFFFFFFFFFFF⟩, ⟨31, 0, .rc, 0, false, 0, 0xFFFFFFFFFFFFFFFF⟩]⟩,
   -- SPT_SAFE
   ⟨0x228, 1, false, [⟨28, 0, .ro, 0, false, 0, 0xFFFFFFFFFFFFFFFF⟩]⟩,
   -- SPT_ST_CTRL
   ⟨0x230, 1, false, [⟨63, 63, .w1s, 0, false, 0, 0xFFFFFFFFFFFFFFFF⟩]⟩,
   -- SPT_ST_STAT
   ⟨0x238, 1, false, [⟨63, 32, .rc, 0, false, 0, 0xFFFFFFFFFFFFFFFF⟩, ⟨31, 16, .ro, 0, false, 0, 0xFFFFFFFFFFFFFFFF⟩, ⟨15, 0, .ro, 0, false, 0, 0xFFFFFFFFFFFFFFFF⟩]⟩,
   -- SPT_INJECT
   ⟨0x240, 1, false, [⟨63, 63, .wo, 0, false, 0, 0xFFFFFFFFFFFFFFFF⟩, ⟨15, 8, .rw, 0, false, 0, 0xFFFFFFFFFFFFFFFF⟩, ⟨7, 0, .rw, 0, false, 0, 0xFFFFFFFFFFFFFFFF⟩]⟩
  ]

/-- The registers of CAIRN. -/
def rowsCAIRN : List Row :=
  [
   -- CRN_CFG
   ⟨0x200, 1, false, [⟨1, 1, .lk, 0, false, 0, 1⟩, ⟨0, 0, .rw, 0, false, 0, 0xFFFFFFFFFFFFFFFF⟩]⟩,
   -- CRN_BASE
   ⟨0x208, 1, false, [⟨63, 0, .rw, 0, false, 0, 0xFFFFFFFFFFFFFFFF⟩]⟩,
   -- CRN_PERIOD
   ⟨0x210, 1, false, [⟨31, 0, .rw, 0x3e8, false, 0, 0xFFFFFFFFFFFFFFFF⟩]⟩,
   -- CRN_CTRL
   ⟨0x218, 1, false, [⟨63, 63, .wo, 0, false, 0, 0xFFFFFFFFFFFFFFFF⟩, ⟨62, 62, .ro, 0, false, 0, 0xFFFFFFFFFFFFFFFF⟩, ⟨57, 56, .rw, 0, false, 0, 0xFFFFFFFFFFFFFFFF⟩, ⟨55, 48, .ro, 0, false, 0, 0xFFFFFFFFFFFFFFFF⟩]⟩,
   -- CRN_RING
   ⟨0x220, 1, false, [⟨39, 12, .lk, 0, true, 0, 268435455⟩, ⟨6, 0, .lk, 8, true, 2, 64⟩]⟩,
   -- CRN_RING_IDX
   ⟨0x228, 1, false, [⟨22, 16, .ro, 0, false, 0, 0xFFFFFFFFFFFFFFFF⟩, ⟨6, 0, .rw, 0, false, 0, 0xFFFFFFFFFFFFFFFF⟩]⟩,
   -- CRN_LAST
   ⟨0x230, 1, false, [⟨63, 0, .ro, 0, false, 0, 0xFFFFFFFFFFFFFFFF⟩]⟩,
   -- CRN_STAT
   ⟨0x238, 1, false, [⟨63, 32, .rc, 0, false, 0, 0xFFFFFFFFFFFFFFFF⟩, ⟨31, 0, .rc, 0, false, 0, 0xFFFFFFFFFFFFFFFF⟩]⟩,
   -- CRN_SEQ
   ⟨0x240, 1, false, [⟨31, 0, .ro, 0, false, 0, 0xFFFFFFFFFFFFFFFF⟩]⟩
  ]

/-- The registers of TALLY. -/
def rowsTALLY : List Row :=
  [
   -- TLY_METER_CFG
   ⟨0x200, 1, false, [⟨0, 0, .lk, 0, false, 0, 1⟩]⟩,
   -- TLY_METER_RING
   ⟨0x208, 1, false, [⟨39, 12, .lk, 0, false, 0, 268435455⟩, ⟨6, 0, .lk, 8, true, 2, 64⟩]⟩,
   -- TLY_METER_IDX
   ⟨0x210, 1, false, [⟨22, 16, .ro, 0, false, 0, 0xFFFFFFFFFFFFFFFF⟩, ⟨6, 0, .rw, 0, false, 0, 0xFFFFFFFFFFFFFFFF⟩]⟩,
   -- TLY_METER_SEQ
   ⟨0x218, 1, false, [⟨63, 0, .ro, 0, false, 0, 0xFFFFFFFFFFFFFFFF⟩]⟩,
   -- TLY_METER_END
   ⟨0x220, 1, false, [⟨63, 0, .ro, 0, false, 0, 0xFFFFFFFFFFFFFFFF⟩]⟩,
   -- TLY_METER_GAPS
   ⟨0x228, 1, false, [⟨63, 32, .rc, 0, false, 0, 0xFFFFFFFFFFFFFFFF⟩, ⟨31, 0, .rc, 0, false, 0, 0xFFFFFFFFFFFFFFFF⟩]⟩,
   -- TLY_TEN_SEL
   ⟨0x230, 1, false, [⟨19, 16, .rw, 0, false, 0, 0xFFFFFFFFFFFFFFFF⟩, ⟨11, 0, .rw, 0, false, 0, 0xFFFFFFFFFFFFFFFF⟩]⟩,
   -- TLY_TEN_VAL
   ⟨0x238, 1, false, [⟨63, 0, .ro, 0, false, 0, 0xFFFFFFFFFFFFFFFF⟩]⟩,
   -- TLY_PGM_SEL
   ⟨0x240, 1, false, [⟨16, 0, .rw, 0, false, 0, 0xFFFFFFFFFFFFFFFF⟩]⟩,
   -- TLY_PGM_VAL
   ⟨0x248, 1, false, [⟨63, 0, .ro, 0, false, 0, 0xFFFFFFFFFFFFFFFF⟩]⟩,
   -- TLY_FREEZE
   ⟨0x250, 1, false, [⟨1, 1, .rw, 0, false, 0, 0xFFFFFFFFFFFFFFFF⟩, ⟨0, 0, .rw, 0, false, 0, 0xFFFFFFFFFFFFFFFF⟩]⟩,
   -- TLY_WIN_CFG
   ⟨0x258, 1, false, [⟨15, 0, .lk, 0x64, true, 1, 1000⟩]⟩
  ] ++
  [
   -- TLY_WIN_SEL
   ⟨0x260, 1, false, [⟨3, 0, .rw, 0, false, 0, 0xFFFFFFFFFFFFFFFF⟩]⟩,
   -- TLY_WIN_RXB
   ⟨0x268, 1, false, [⟨63, 0, .ro, 0, false, 0, 0xFFFFFFFFFFFFFFFF⟩]⟩,
   -- TLY_WIN_TXB
   ⟨0x270, 1, false, [⟨63, 0, .ro, 0, false, 0, 0xFFFFFFFFFFFFFFFF⟩]⟩,
   -- TLY_WIN_FRAMES
   ⟨0x278, 1, false, [⟨63, 32, .ro, 0, false, 0, 0xFFFFFFFFFFFFFFFF⟩, ⟨31, 0, .ro, 0, false, 0, 0xFFFFFFFFFFFFFFFF⟩]⟩,
   -- TLY_WIN_PEAK
   ⟨0x280, 1, false, [⟨63, 32, .rc, 0, false, 0, 0xFFFFFFFFFFFFFFFF⟩, ⟨31, 0, .rc, 0, false, 0, 0xFFFFFFFFFFFFFFFF⟩]⟩,
   -- TLY_WIN_END
   ⟨0x288, 1, false, [⟨63, 0, .ro, 0, false, 0, 0xFFFFFFFFFFFFFFFF⟩]⟩,
   -- TLY_THR_SEL
   ⟨0x290, 1, false, [⟨5, 0, .rw, 0, false, 0, 0xFFFFFFFFFFFFFFFF⟩]⟩,
   -- TLY_THR_CFG
   ⟨0x298, 1, false, [⟨63, 63, .rw, 0, false, 0, 0xFFFFFFFFFFFFFFFF⟩, ⟨62, 62, .rw, 0, false, 0, 0xFFFFFFFFFFFFFFFF⟩, ⟨55, 48, .rw, 0, false, 0, 0xFFFFFFFFFFFFFFFF⟩, ⟨47, 40, .rw, 0, false, 0, 0xFFFFFFFFFFFFFFFF⟩, ⟨31, 0, .rw, 0, false, 0, 0xFFFFFFFFFFFFFFFF⟩]⟩,
   -- TLY_THR_COUNT
   ⟨0x2a0, 1, false, [⟨63, 0, .ro, 0, false, 0, 0xFFFFFFFFFFFFFFFF⟩]⟩,
   -- TLY_SAMP_CFG
   ⟨0x300, 16, false, [⟨63, 63, .rw, 0, false, 0, 0xFFFFFFFFFFFFFFFF⟩, ⟨62, 62, .rw, 0, false, 0, 0xFFFFFFFFFFFFFFFF⟩, ⟨43, 32, .rw, 0, false, 0, 0xFFFFFFFFFFFFFFFF⟩, ⟨7, 0, .rw, 0, false, 0, 0xFFFFFFFFFFFFFFFF⟩]⟩,
   -- TLY_SAMP_CNT
   ⟨0x380, 16, false, [⟨32, 32, .w1c, 0, false, 0, 0xFFFFFFFFFFFFFFFF⟩, ⟨31, 0, .rw, 0, false, 0, 0xFFFFFFFFFFFFFFFF⟩]⟩
  ]

/-- The registers of PORT. -/
def rowsPORT : List Row :=
  [
   -- PRT_CFG
   ⟨0x200, 1, false, [⟨29, 16, .lk, 0x2400, true, 1518, 9216⟩, ⟨11, 8, .lk, 0, true, 1, 15⟩, ⟨4, 3, .lk, 0, false, 0, 2⟩, ⟨2, 2, .lk, 1, false, 0, 1⟩, ⟨1, 0, .lk, 0, false, 0, 2⟩]⟩,
   -- PRT_LINK
   ⟨0x208, 1, false, [⟨63, 48, .rc, 0, false, 0, 0xFFFFFFFFFFFFFFFF⟩, ⟨11, 8, .ro, 0, false, 0, 0xFFFFFFFFFFFFFFFF⟩, ⟨3, 0, .ro, 0, false, 0, 0xFFFFFFFFFFFFFFFF⟩]⟩,
   -- PRT_FEC
   ⟨0x210, 1, false, [⟨63, 32, .rc, 0, false, 0, 0xFFFFFFFFFFFFFFFF⟩, ⟨31, 0, .rc, 0, false, 0, 0xFFFFFFFFFFFFFFFF⟩]⟩,
   -- PRT_DROP
   ⟨0x218, 1, false, [⟨63, 48, .rc, 0, false, 0, 0xFFFFFFFFFFFFFFFF⟩, ⟨47, 32, .rc, 0, false, 0, 0xFFFFFFFFFFFFFFFF⟩, ⟨31, 16, .rc, 0, false, 0, 0xFFFFFFFFFFFFFFFF⟩, ⟨15, 0, .rc, 0, false, 0, 0xFFFFFFFFFFFFFFFF⟩]⟩,
   -- PRT_TSCOMP
   ⟨0x220, 1, false, [⟨31, 16, .rw, 0, false, 0, 0xFFFFFFFFFFFFFFFF⟩, ⟨15, 0, .rw, 0, false, 0, 0xFFFFFFFFFFFFFFFF⟩]⟩
  ]

/-- The registers of TIME. -/
def rowsTIME : List Row :=
  [
   -- TIM_CTRL
   ⟨0x200, 1, false, [⟨2, 2, .rw, 0, false, 0, 0xFFFFFFFFFFFFFFFF⟩, ⟨1, 1, .rw, 0, false, 0, 0xFFFFFFFFFFFFFFFF⟩, ⟨0, 0, .rw, 0, false, 0, 0xFFFFFFFFFFFFFFFF⟩]⟩,
   -- TIM_NOW
   ⟨0x208, 1, false, [⟨63, 0, .ro, 0, false, 0, 0xFFFFFFFFFFFFFFFF⟩]⟩,
   -- TIM_STEP
   ⟨0x210, 1, false, [⟨63, 0, .wo, 0, false, 0, 0xFFFFFFFFFFFFFFFF⟩]⟩,
   -- TIM_FREQ
   ⟨0x218, 1, false, [⟨31, 0, .rw, 0, false, 0, 0xFFFFFFFFFFFFFFFF⟩]⟩,
   -- TIM_SLEW
   ⟨0x220, 1, false, [⟨63, 32, .rw, 0, false, 0, 0xFFFFFFFFFFFFFFFF⟩, ⟨7, 0, .rw, 0x32, false, 0, 0xFFFFFFFFFFFFFFFF⟩]⟩,
   -- TIM_STATUS
   ⟨0x228, 1, false, [⟨1, 1, .ro, 0, false, 0, 0xFFFFFFFFFFFFFFFF⟩, ⟨0, 0, .ro, 0, false, 0, 0xFFFFFFFFFFFFFFFF⟩]⟩,
   -- TIM_PPS_IN
   ⟨0x230, 1, false, [⟨63, 0, .ro, 0, false, 0, 0xFFFFFFFFFFFFFFFF⟩]⟩,
   -- TIM_TXTS
   ⟨0x240, 4, false, [⟨63, 48, .rc, 0, false, 0, 0xFFFFFFFFFFFFFFFF⟩, ⟨47, 0, .rc, 0, false, 0, 0xFFFFFFFFFFFFFFFF⟩]⟩
  ]

/-- The registers of PARSE. -/
def rowsPARSE : List Row :=
  [
   -- PRS_GRAPH
   ⟨0x200, 1, true, [⟨39, 12, .st, 0, true, 0, 268435455⟩]⟩,
   -- PRS_CFG
   ⟨0x208, 1, true, [⟨13, 13, .st, 1, false, 0, 1⟩, ⟨12, 8, .st, 0xc, true, 1, 16⟩, ⟨7, 0, .st, 0, false, 0, 253⟩]⟩,
   -- PRS_STAT
   ⟨0x210, 1, false, [⟨63, 32, .rc, 0, false, 0, 0xFFFFFFFFFFFFFFFF⟩, ⟨31, 0, .rc, 0, false, 0, 0xFFFFFFFFFFFFFFFF⟩]⟩,
   -- PRS_EXC
   ⟨0x218, 1, false, [⟨63, 48, .rc, 0, false, 0, 0xFFFFFFFFFFFFFFFF⟩, ⟨47, 32, .rc, 0, false, 0, 0xFFFFFFFFFFFFFFFF⟩, ⟨31, 16, .rc, 0, false, 0, 0xFFFFFFFFFFFFFFFF⟩, ⟨15, 0, .rc, 0, false, 0, 0xFFFFFFFFFFFFFFFF⟩]⟩,
   -- PRS_CSUM
   ⟨0x220, 1, false, [⟨31, 0, .rc, 0, false, 0, 0xFFFFFFFFFFFFFFFF⟩]⟩,
   -- PRS_GFAIL
   ⟨0x228, 1, true, [⟨7, 0, .ro, 0, false, 0, 0xFFFFFFFFFFFFFFFF⟩]⟩
  ]

/-- The registers of CLASS. -/
def rowsCLASS : List Row :=
  [
   -- CLS_CFG
   ⟨0x200, 1, true, [⟨0, 0, .lk, 0, false, 0, 1⟩]⟩,
   -- CLS_STAGE
   ⟨0x208, 4, true, [⟨63, 63, .st, 0, false, 0, 1⟩, ⟨62, 62, .st, 0, false, 0, 1⟩, ⟨54, 51, .st, 0, false, 0, 14⟩, ⟨50, 36, .st, 0, false, 0, 28671⟩, ⟨24, 0, .st, 0, false, 0, 33554431⟩]⟩,
   -- CLS_TCAM_KEY
   ⟨0x228, 1, true, [⟨31, 0, .st, 0x76543210, false, 0, 4294967295⟩]⟩,
   -- CLS_DEFAULT_LO
   ⟨0x230, 1, true, [⟨63, 0, .st, 0, false, 0, 18446744073709551615⟩]⟩,
   -- CLS_DEFAULT_HI
   ⟨0x238, 1, true, [⟨63, 0, .st, 0, false, 0, 18446744073709551615⟩]⟩,
   -- CLS_RSS_SEL
   ⟨0x240, 1, true, [⟨63, 60, .st, 0, false, 0, 9⟩, ⟨44, 0, .st, 0, false, 0, 35184372088831⟩]⟩,
   -- CLS_RSS_KEY
   ⟨0x248, 5, true, [⟨63, 0, .st, 0, false, 0, 18446744073709551615⟩]⟩,
   -- CLS_EXC
   ⟨0x270, 1, true, [⟨10, 8, .st, 0, false, 0, 7⟩, ⟨4, 0, .st, 0, false, 0, 31⟩]⟩,
   -- CLS_WRING
   ⟨0x278, 1, true, [⟨39, 12, .lk, 0, true, 0, 268435455⟩, ⟨3, 0, .lk, 8, false, 4, 12⟩]⟩,
   -- CLS_WRING_IDX
   ⟨0x280, 1, true, [⟨27, 16, .ro, 0, false, 0, 0xFFFFFFFFFFFFFFFF⟩, ⟨11, 0, .rw, 0, false, 0, 0xFFFFFFFFFFFFFFFF⟩]⟩,
   -- CLS_UPD_ADDR
   ⟨0x288, 1, true, [⟨39, 0, .rw, 0, false, 0, 0xFFFFFFFFFFFFFFFF⟩]⟩,
   -- CLS_UPD_CTRL
   ⟨0x290, 1, true, [⟨63, 63, .wo, 0, false, 0, 0xFFFFFFFFFFFFFFFF⟩, ⟨62, 62, .ro, 0, false, 0, 0xFFFFFFFFFFFFFFFF⟩, ⟨55, 48, .ro, 0, false, 0, 0xFFFFFFFFFFFFFFFF⟩, ⟨47, 32, .ro, 0, false, 0, 0xFFFFFFFFFFFFFFFF⟩, ⟨31, 16, .rw, 0, false, 0, 0xFFFFFFFFFFFFFFFF⟩, ⟨15, 0, .rw, 0, false, 0, 0xFFFFFFFFFFFFFFFF⟩]⟩
  ] ++
  [
   -- CLS_VERDICT
   ⟨0x298, 1, false, [⟨63, 32, .rc, 0, false, 0, 0xFFFFFFFFFFFFFFFF⟩, ⟨31, 0, .rc, 0, false, 0, 0xFFFFFFFFFFFFFFFF⟩]⟩,
   -- CLS_WRING_LOST
   ⟨0x2a0, 1, true, [⟨31, 0, .rc, 0, false, 0, 0xFFFFFFFFFFFFFFFF⟩]⟩,
   -- CLS_OCC
   ⟨0x2a8, 1, true, [⟨46, 32, .ro, 0, false, 0, 0xFFFFFFFFFFFFFFFF⟩, ⟨16, 0, .ro, 0, false, 0, 0xFFFFFFFFFFFFFFFF⟩]⟩
  ]

/-- The registers of XPORT. -/
def rowsXPORT : List Row :=
  [
   -- XPT_CFG
   ⟨0x200, 1, false, [⟨23, 16, .lk, 4, false, 0, 255⟩, ⟨15, 8, .lk, 0x40, true, 1, 255⟩, ⟨4, 4, .lk, 1, false, 0, 1⟩, ⟨3, 3, .lk, 0, false, 0, 1⟩, ⟨2, 0, .lk, 5, false, 3, 5⟩]⟩,
   -- XPT_CTX
   ⟨0x208, 1, false, [⟨50, 32, .lk, 0x20000, true, 1, 262144⟩, ⟨13, 0, .lk, 0x2000, true, 1, 12288⟩]⟩,
   -- XPT_SPILL
   ⟨0x210, 1, false, [⟨39, 12, .lk, 0, true, 0, 268435455⟩]⟩,
   -- XPT_TIMER
   ⟨0x218, 1, false, [⟨31, 24, .lk, 5, false, 0, 255⟩, ⟨19, 16, .lk, 7, true, 1, 7⟩, ⟨15, 0, .lk, 0xc8, true, 10, 65535⟩]⟩,
   -- XPT_CTX_CMD
   ⟨0x220, 1, false, [⟨63, 63, .wo, 0, false, 0, 0xFFFFFFFFFFFFFFFF⟩, ⟨62, 62, .ro, 0, false, 0, 0xFFFFFFFFFFFFFFFF⟩, ⟨58, 56, .rw, 0, false, 0, 0xFFFFFFFFFFFFFFFF⟩, ⟨55, 48, .ro, 0, false, 0, 0xFFFFFFFFFFFFFFFF⟩, ⟨17, 0, .rw, 0, false, 0, 0xFFFFFFFFFFFFFFFF⟩]⟩,
   -- XPT_CTX_IMG
   ⟨0x228, 1, false, [⟨39, 0, .rw, 0, false, 0, 0xFFFFFFFFFFFFFFFF⟩]⟩,
   -- XPT_OCC
   ⟨0x230, 1, false, [⟨50, 32, .ro, 0, false, 0, 0xFFFFFFFFFFFFFFFF⟩, ⟨13, 0, .ro, 0, false, 0, 0xFFFFFFFFFFFFFFFF⟩]⟩,
   -- XPT_MISS
   ⟨0x238, 1, false, [⟨63, 32, .rc, 0, false, 0, 0xFFFFFFFFFFFFFFFF⟩, ⟨31, 0, .rc, 0, false, 0, 0xFFFFFFFFFFFFFFFF⟩]⟩,
   -- XPT_RETX
   ⟨0x240, 1, false, [⟨63, 32, .rc, 0, false, 0, 0xFFFFFFFFFFFFFFFF⟩, ⟨31, 0, .rc, 0, false, 0, 0xFFFFFFFFFFFFFFFF⟩]⟩,
   -- XPT_DROP
   ⟨0x248, 1, false, [⟨63, 32, .rc, 0, false, 0, 0xFFFFFFFFFFFFFFFF⟩, ⟨31, 0, .rc, 0, false, 0, 0xFFFFFFFFFFFFFFFF⟩]⟩,
   -- XPT_FAIL
   ⟨0x250, 1, false, [⟨63, 32, .rc, 0, false, 0, 0xFFFFFFFFFFFFFFFF⟩, ⟨31, 0, .rc, 0, false, 0, 0xFFFFFFFFFFFFFFFF⟩]⟩,
   -- XPT_CNP
   ⟨0x258, 1, false, [⟨63, 32, .rc, 0, false, 0, 0xFFFFFFFFFFFFFFFF⟩, ⟨31, 0, .rc, 0, false, 0, 0xFFFFFFFFFFFFFFFF⟩]⟩
  ]

/-- The registers of STREAM. -/
def rowsSTREAM : List Row :=
  [
   -- STR_CFG
   ⟨0x200, 1, false, [⟨39, 32, .lk, 0x80, true, 4, 128⟩, ⟨31, 16, .lk, 0x100, true, 64, 4096⟩, ⟨15, 8, .lk, 0x10, true, 1, 16⟩, ⟨1, 1, .lk, 1, false, 0, 1⟩, ⟨0, 0, .lk, 1, false, 0, 1⟩]⟩,
   -- STR_CTX
   ⟨0x208, 1, false, [⟨50, 32, .lk, 0x20000, true, 1, 262144⟩, ⟨13, 0, .lk, 0x1000, true, 1, 12288⟩]⟩,
   -- STR_SPILL
   ⟨0x210, 1, false, [⟨39, 12, .lk, 0, true, 0, 268435455⟩]⟩,
   -- STR_LISTEN
   ⟨0x218, 4, false, [⟨63, 63, .lk, 0, false, 0, 1⟩, ⟨62, 62, .lk, 0, false, 0, 1⟩, ⟨15, 0, .lk, 0x1144, false, 0, 65535⟩]⟩,
   -- STR_TCP
   ⟨0x238, 1, false, [⟨19, 16, .lk, 8, true, 1, 15⟩, ⟨15, 0, .lk, 0x3e8, true, 100, 65535⟩]⟩,
   -- STR_CTX_CMD
   ⟨0x240, 1, false, [⟨63, 63, .wo, 0, false, 0, 0xFFFFFFFFFFFFFFFF⟩, ⟨62, 62, .ro, 0, false, 0, 0xFFFFFFFFFFFFFFFF⟩, ⟨58, 56, .rw, 0, false, 0, 0xFFFFFFFFFFFFFFFF⟩, ⟨55, 48, .ro, 0, false, 0, 0xFFFFFFFFFFFFFFFF⟩, ⟨45, 32, .rw, 0, false, 0, 0xFFFFFFFFFFFFFFFF⟩, ⟨17, 0, .rw, 0, false, 0, 0xFFFFFFFFFFFFFFFF⟩]⟩,
   -- STR_OCC
   ⟨0x248, 1, false, [⟨50, 32, .ro, 0, false, 0, 0xFFFFFFFFFFFFFFFF⟩, ⟨13, 0, .ro, 0, false, 0, 0xFFFFFFFFFFFFFFFF⟩]⟩,
   -- STR_MISS
   ⟨0x250, 1, false, [⟨63, 48, .rc, 0, false, 0, 0xFFFFFFFFFFFFFFFF⟩, ⟨47, 32, .rc, 0, false, 0, 0xFFFFFFFFFFFFFFFF⟩, ⟨31, 0, .rc, 0, false, 0, 0xFFFFFFFFFFFFFFFF⟩]⟩,
   -- STR_TLS
   ⟨0x258, 1, false, [⟨63, 48, .rc, 0, false, 0, 0xFFFFFFFFFFFFFFFF⟩, ⟨47, 32, .rc, 0, false, 0, 0xFFFFFFFFFFFFFFFF⟩, ⟨31, 0, .rc, 0, false, 0, 0xFFFFFFFFFFFFFFFF⟩]⟩,
   -- STR_ERR
   ⟨0x260, 1, false, [⟨63, 48, .rc, 0, false, 0, 0xFFFFFFFFFFFFFFFF⟩, ⟨47, 32, .rc, 0, false, 0, 0xFFFFFFFFFFFFFFFF⟩, ⟨31, 0, .rc, 0, false, 0, 0xFFFFFFFFFFFFFFFF⟩]⟩
  ]

/-- The registers of SWITCH. -/
def rowsSWITCH : List Row :=
  [
   -- SWT_CFG
   ⟨0x200, 1, false, [⟨31, 16, .lk, 0x3e8, false, 0, 60000⟩, ⟨15, 8, .lk, 0x19, false, 10, 75⟩, ⟨0, 0, .lk, 1, false, 0, 1⟩]⟩,
   -- SWT_OVF
   ⟨0x208, 1, false, [⟨63, 32, .lk, 0, false, 0, 4294967295⟩, ⟨31, 0, .lk, 0, false, 0, 4294967295⟩]⟩,
   -- SWT_OVF_THR
   ⟨0x210, 1, false, [⟨23, 16, .lk, 0xa, false, 1, 50⟩, ⟨15, 0, .lk, 0x100, true, 16, 16384⟩]⟩,
   -- SWT_RED
   ⟨0x218, 8, false, [⟨63, 56, .st, 0x40, false, 0, 255⟩, ⟨55, 48, .st, 0x80, false, 0, 255⟩, ⟨47, 40, .st, 0x10, false, 0, 255⟩, ⟨39, 32, .st, 0x40, false, 0, 255⟩, ⟨31, 24, .st, 0x20, true, 1, 255⟩, ⟨19, 16, .st, 9, false, 0, 15⟩, ⟨0, 0, .st, 1, false, 0, 1⟩]⟩,
   -- SWT_OCC
   ⟨0x258, 1, false, [⟨47, 32, .ro, 0, false, 0, 0xFFFFFFFFFFFFFFFF⟩, ⟨16, 0, .ro, 0, false, 0, 0xFFFFFFFFFFFFFFFF⟩]⟩,
   -- SWT_DROP
   ⟨0x260, 1, false, [⟨63, 32, .rc, 0, false, 0, 0xFFFFFFFFFFFFFFFF⟩, ⟨31, 0, .rc, 0, false, 0, 0xFFFFFFFFFFFFFFFF⟩]⟩,
   -- SWT_ECN
   ⟨0x268, 1, false, [⟨31, 0, .rc, 0, false, 0, 0xFFFFFFFFFFFFFFFF⟩]⟩,
   -- SWT_OVFSTAT
   ⟨0x270, 1, false, [⟨63, 32, .rc, 0, false, 0, 0xFFFFFFFFFFFFFFFF⟩, ⟨31, 0, .rc, 0, false, 0, 0xFFFFFFFFFFFFFFFF⟩]⟩,
   -- SWT_AUDIT
   ⟨0x278, 1, false, [⟨63, 32, .rc, 0, false, 0, 0xFFFFFFFFFFFFFFFF⟩, ⟨31, 0, .rc, 0, false, 0, 0xFFFFFFFFFFFFFFFF⟩]⟩,
   -- SWT_RESEQ
   ⟨0x280, 1, false, [⟨63, 32, .rc, 0, false, 0, 0xFFFFFFFFFFFFFFFF⟩, ⟨31, 0, .rc, 0, false, 0, 0xFFFFFFFFFFFFFFFF⟩]⟩,
   -- SWT_QDESC
   ⟨0x288, 1, false, [⟨63, 32, .rc, 0, false, 0, 0xFFFFFFFFFFFFFFFF⟩, ⟨17, 0, .ro, 0, false, 0, 0xFFFFFFFFFFFFFFFF⟩]⟩
  ]

/-- The registers of SCHED. -/
def rowsSCHED : List Row :=
  [
   -- SCH_CFG
   ⟨0x200, 1, false, [⟨15, 8, .lk, 0x80, false, 0, 255⟩, ⟨0, 0, .lk, 0, false, 0, 1⟩]⟩,
   -- SCH_TC_WEIGHT
   ⟨0x208, 1, false, [⟨63, 0, .st, 0x101010101010101, false, 0, 18446744073709551615⟩]⟩,
   -- SCH_TEN_TAB
   ⟨0x210, 1, false, [⟨39, 12, .lk, 0, true, 1, 268435455⟩]⟩,
   -- SCH_POL_TAB
   ⟨0x218, 1, false, [⟨39, 12, .lk, 0, true, 1, 268435455⟩]⟩,
   -- SCH_TEN_UPDATE
   ⟨0x220, 1, false, [⟨63, 63, .wo, 0, false, 0, 0xFFFFFFFFFFFFFFFF⟩, ⟨39, 32, .ro, 0, false, 0, 0xFFFFFFFFFFFFFFFF⟩, ⟨31, 31, .ro, 0, false, 0, 0xFFFFFFFFFFFFFFFF⟩, ⟨11, 0, .rw, 0, false, 0, 0xFFFFFFFFFFFFFFFF⟩]⟩,
   -- SCH_POL_UPDATE
   ⟨0x228, 1, false, [⟨63, 63, .wo, 0, false, 0, 0xFFFFFFFFFFFFFFFF⟩, ⟨39, 32, .ro, 0, false, 0, 0xFFFFFFFFFFFFFFFF⟩, ⟨31, 31, .ro, 0, false, 0, 0xFFFFFFFFFFFFFFFF⟩, ⟨13, 0, .rw, 0, false, 0, 0xFFFFFFFFFFFFFFFF⟩]⟩,
   -- SCH_GL_TAB
   ⟨0x230, 1, false, [⟨39, 12, .st, 0, false, 0, 268435455⟩]⟩,
   -- SCH_GL_BASE
   ⟨0x238, 1, false, [⟨63, 0, .st, 0, false, 0, 18446744073709551615⟩]⟩,
   -- SCH_GL_START
   ⟨0x240, 1, false, [⟨63, 0, .ro, 0, false, 0, 0xFFFFFFFFFFFFFFFF⟩]⟩,
   -- SCH_GL_LATE
   ⟨0x248, 1, false, [⟨32, 32, .ro, 0, false, 0, 0xFFFFFFFFFFFFFFFF⟩, ⟨31, 0, .rc, 0, false, 0, 0xFFFFFFFFFFFFFFFF⟩]⟩,
   -- SCH_HOLD
   ⟨0x250, 2, false, [⟨63, 0, .rw, 0x1414141414141414, false, 0, 0xFFFFFFFFFFFFFFFF⟩]⟩,
   -- SCH_CNP
   ⟨0x260, 1, false, [⟨63, 48, .lk, 0xa, true, 1, 4000⟩, ⟨47, 32, .lk, 0x32, true, 1, 4000⟩, ⟨31, 16, .lk, 0x37, true, 1, 65535⟩, ⟨7, 0, .lk, 0x80, true, 1, 255⟩]⟩
  ] ++
  [
   -- SCH_POL_DROP
   ⟨0x268, 1, false, [⟨63, 32, .rc, 0, false, 0, 0xFFFFFFFFFFFFFFFF⟩, ⟨31, 0, .rc, 0, false, 0, 0xFFFFFFFFFFFFFFFF⟩]⟩,
   -- SCH_HELD
   ⟨0x270, 1, false, [⟨63, 32, .rc, 0, false, 0, 0xFFFFFFFFFFFFFFFF⟩, ⟨31, 0, .rc, 0, false, 0, 0xFFFFFFFFFFFFFFFF⟩]⟩,
   -- SCH_CNP_OCC
   ⟨0x278, 1, false, [⟨63, 32, .rc, 0, false, 0, 0xFFFFFFFFFFFFFFFF⟩, ⟨12, 0, .ro, 0, false, 0, 0xFFFFFFFFFFFFFFFF⟩]⟩
  ]

/-- The registers of HOSTQ. -/
def rowsHOSTQ : List Row :=
  [
   -- HOSTQ_CFG
   ⟨0x200, 1, false, [⟨46, 32, .lk, 0x1000, true, 1, 16384⟩, ⟨26, 16, .lk, 0x40, true, 1, 1024⟩, ⟨11, 0, .lk, 0xfff, false, 15, 4095⟩]⟩,
   -- HOSTQ_SUBTAB
   ⟨0x208, 1, false, [⟨39, 12, .lk, 0, true, 0, 268435455⟩]⟩,
   -- HOSTQ_HOSTTAB
   ⟨0x210, 1, false, [⟨39, 12, .lk, 0, true, 0, 268435455⟩]⟩,
   -- HOSTQ_NSTAB
   ⟨0x218, 1, false, [⟨39, 12, .lk, 0, true, 0, 268435455⟩]⟩,
   -- HOSTQ_HOSTTAB_LEN
   ⟨0x220, 1, false, [⟨15, 0, .lk, 0, true, 1, 65535⟩]⟩,
   -- HOSTQ_NS_UPDATE
   ⟨0x228, 1, false, [⟨63, 63, .wo, 0, false, 0, 0xFFFFFFFFFFFFFFFF⟩, ⟨39, 32, .ro, 0, false, 0, 0xFFFFFFFFFFFFFFFF⟩, ⟨31, 31, .ro, 0, false, 0, 0xFFFFFFFFFFFFFFFF⟩, ⟨13, 0, .rw, 0, false, 0, 0xFFFFFFFFFFFFFFFF⟩]⟩,
   -- HOSTQ_ANA_OWN
   ⟨0x230, 1, false, [⟨63, 0, .st, 0, false, 0, 18446744073709551615⟩]⟩,
   -- HOSTQ_TEN_SEL
   ⟨0x238, 1, false, [⟨11, 0, .rw, 0, false, 0, 0xFFFFFFFFFFFFFFFF⟩]⟩,
   -- HOSTQ_TEN_FLAGS
   ⟨0x240, 1, false, [⟨0, 0, .rw, 0, false, 0, 0xFFFFFFFFFFFFFFFF⟩]⟩,
   -- HOSTQ_OCC
   ⟨0x248, 1, false, [⟨46, 32, .ro, 0, false, 0, 0xFFFFFFFFFFFFFFFF⟩, ⟨31, 16, .ro, 0, false, 0, 0xFFFFFFFFFFFFFFFF⟩]⟩,
   -- HOSTQ_STAT
   ⟨0x250, 1, false, [⟨63, 32, .rc, 0, false, 0, 0xFFFFFFFFFFFFFFFF⟩, ⟨31, 0, .rc, 0, false, 0, 0xFFFFFFFFFFFFFFFF⟩]⟩,
   -- HOSTQ_ABORTS
   ⟨0x258, 1, false, [⟨63, 32, .rc, 0, false, 0, 0xFFFFFFFFFFFFFFFF⟩, ⟨31, 0, .rc, 0, false, 0, 0xFFFFFFFFFFFFFFFF⟩]⟩
  ]

/-- The registers of LEDGER. -/
def rowsLEDGER : List Row :=
  [
   -- LEDGER_CFG
   ⟨0x200, 1, false, [⟨23, 16, .lk, 0x55, false, 10, 95⟩, ⟨15, 8, .lk, 0x50, false, 0, 95⟩, ⟨7, 0, .lk, 0x5a, false, 10, 95⟩]⟩,
   -- LEDGER_G1_BELAY
   ⟨0x208, 1, false, [⟨31, 0, .lk, 0x30d40, true, 1, 4294967295⟩]⟩,
   -- LEDGER_TEN_TAB
   ⟨0x210, 1, false, [⟨39, 12, .lk, 0, true, 0, 268435455⟩]⟩,
   -- LEDGER_TEN_UPDATE
   ⟨0x218, 1, false, [⟨63, 63, .wo, 0, false, 0, 0xFFFFFFFFFFFFFFFF⟩, ⟨39, 32, .ro, 0, false, 0, 0xFFFFFFFFFFFFFFFF⟩, ⟨31, 31, .ro, 0, false, 0, 0xFFFFFFFFFFFFFFFF⟩, ⟨11, 0, .rw, 0, false, 0, 0xFFFFFFFFFFFFFFFF⟩]⟩,
   -- LEDGER_PARTS
   ⟨0x220, 1, false, [⟨47, 32, .ro, 0, false, 0, 0xFFFFFFFFFFFFFFFF⟩, ⟨31, 16, .ro, 0, false, 0, 0xFFFFFFFFFFFFFFFF⟩, ⟨15, 0, .ro, 0, false, 0, 0xFFFFFFFFFFFFFFFF⟩]⟩,
   -- LEDGER_ADMIT
   ⟨0x228, 1, false, [⟨63, 32, .rc, 0, false, 0, 0xFFFFFFFFFFFFFFFF⟩, ⟨31, 0, .rc, 0, false, 0, 0xFFFFFFFFFFFFFFFF⟩]⟩,
   -- LEDGER_WAIT
   ⟨0x230, 1, false, [⟨63, 32, .rc, 0, false, 0, 0xFFFFFFFFFFFFFFFF⟩, ⟨31, 0, .rc, 0, false, 0, 0xFFFFFFFFFFFFFFFF⟩]⟩,
   -- LEDGER_OVERRUN
   ⟨0x238, 1, false, [⟨63, 32, .rc, 0, false, 0, 0xFFFFFFFFFFFFFFFF⟩, ⟨31, 0, .rc, 0, false, 0, 0xFFFFFFFFFFFFFFFF⟩]⟩,
   -- LEDGER_OCC
   ⟨0x240, 1, false, [⟨47, 40, .ro, 0, false, 0, 0xFFFFFFFFFFFFFFFF⟩, ⟨39, 32, .ro, 0, false, 0, 0xFFFFFFFFFFFFFFFF⟩, ⟨31, 0, .ro, 0, false, 0, 0xFFFFFFFFFFFFFFFF⟩]⟩
  ]

/-- The registers of ROPE. -/
def rowsROPE : List Row :=
  [
   -- ROPE_CYCLE
   ⟨0x200, 1, false, [⟨15, 0, .lk, 0x1f40, true, 2000, 32000⟩]⟩,
   -- ROPE_CHAIN
   ⟨0x208, 1, false, [⟨3, 0, .lk, 2, true, 1, 8⟩]⟩,
   -- ROPE_NEXT
   ⟨0x210, 1, false, [⟨63, 0, .ro, 1, false, 0, 0xFFFFFFFFFFFFFFFF⟩]⟩,
   -- ROPE_CUR_CYCLE
   ⟨0x218, 1, false, [⟨47, 0, .ro, 0, false, 0, 0xFFFFFFFFFFFFFFFF⟩]⟩,
   -- ROPE_LOCKS
   ⟨0x220, 1, false, [⟨48, 32, .rc, 0, false, 0, 0xFFFFFFFFFFFFFFFF⟩, ⟨16, 0, .ro, 0, false, 0, 0xFFFFFFFFFFFFFFFF⟩]⟩,
   -- ROPE_STALLS
   ⟨0x228, 1, false, [⟨63, 32, .rc, 0, false, 0, 0xFFFFFFFFFFFFFFFF⟩, ⟨31, 0, .rc, 0, false, 0, 0xFFFFFFFFFFFFFFFF⟩]⟩,
   -- ROPE_TRACE_BASE
   ⟨0x230, 1, false, [⟨39, 12, .lk, 0, false, 0, 268435455⟩]⟩,
   -- ROPE_TRACE
   ⟨0x238, 1, false, [⟨55, 32, .ro, 0, false, 0, 0xFFFFFFFFFFFFFFFF⟩, ⟨23, 0, .lk, 0, false, 0, 16777215⟩]⟩,
   -- ROPE_PAIR
   ⟨0x240, 1, false, [⟨0, 0, .ro, 0, false, 0, 0xFFFFFFFFFFFFFFFF⟩]⟩
  ]

/-- The registers of PITCH. -/
def rowsPITCH : List Row :=
  [
   -- PITCH_CTRL
   ⟨0x200, 1, false, [⟨15, 0, .lk, 0xffff, true, 0, 65535⟩]⟩,
   -- PITCH_IMG_BASE
   ⟨0x208, 1, false, [⟨39, 0, .rw, 0, false, 0, 0xFFFFFFFFFFFFFFFF⟩]⟩,
   -- PITCH_IMG_LEN
   ⟨0x210, 1, false, [⟨20, 0, .rw, 0, false, 0, 0xFFFFFFFFFFFFFFFF⟩]⟩,
   -- PITCH_LOAD
   ⟨0x218, 1, false, [⟨63, 32, .ro, 0, false, 0, 0xFFFFFFFFFFFFFFFF⟩, ⟨31, 16, .ro, 0, false, 0, 0xFFFFFFFFFFFFFFFF⟩, ⟨3, 1, .ro, 0, false, 0, 0xFFFFFFFFFFFFFFFF⟩, ⟨0, 0, .wo, 0, false, 0, 0xFFFFFFFFFFFFFFFF⟩]⟩,
   -- PITCH_BIND_SEL
   ⟨0x220, 1, false, [⟨4, 0, .rw, 0, false, 0, 0xFFFFFFFFFFFFFFFF⟩]⟩,
   -- PITCH_BIND_VIEW
   ⟨0x228, 1, false, [⟨63, 48, .ro, 0, false, 0, 0xFFFFFFFFFFFFFFFF⟩, ⟨47, 32, .ro, 0, false, 0, 0xFFFFFFFFFFFFFFFF⟩, ⟨15, 15, .ro, 0, false, 0, 0xFFFFFFFFFFFFFFFF⟩, ⟨13, 0, .ro, 0, false, 0, 0xFFFFFFFFFFFFFFFF⟩]⟩,
   -- PITCH_RUNS
   ⟨0x230, 1, false, [⟨63, 0, .ro, 0, false, 0, 0xFFFFFFFFFFFFFFFF⟩]⟩,
   -- PITCH_TRAPS
   ⟨0x238, 1, false, [⟨63, 32, .rc, 0, false, 0, 0xFFFFFFFFFFFFFFFF⟩, ⟨31, 0, .rc, 0, false, 0, 0xFFFFFFFFFFFFFFFF⟩]⟩,
   -- PITCH_LAST_TRAP
   ⟨0x240, 1, false, [⟨63, 48, .ro, 0, false, 0, 0xFFFFFFFFFFFFFFFF⟩, ⟨47, 40, .ro, 0, false, 0, 0xFFFFFFFFFFFFFFFF⟩, ⟨39, 32, .ro, 0, false, 0, 0xFFFFFFFFFFFFFFFF⟩, ⟨31, 16, .ro, 0, false, 0, 0xFFFFFFFFFFFFFFFF⟩, ⟨13, 0, .ro, 0, false, 0, 0xFFFFFFFFFFFFFFFF⟩]⟩,
   -- PITCH_LAST_TVAL
   ⟨0x248, 1, false, [⟨63, 0, .ro, 0, false, 0, 0xFFFFFFFFFFFFFFFF⟩]⟩,
   -- PITCH_EVQ
   ⟨0x250, 1, false, [⟨29, 16, .rc, 0, false, 0, 0xFFFFFFFFFFFFFFFF⟩, ⟨13, 0, .ro, 0, false, 0, 0xFFFFFFFFFFFFFFFF⟩]⟩,
   -- PITCH_DROPS
   ⟨0x258, 1, false, [⟨31, 0, .rc, 0, false, 0, 0xFFFFFFFFFFFFFFFF⟩]⟩
  ] ++
  [
   -- PITCH_POST
   ⟨0x260, 1, false, [⟨39, 0, .rw, 0, false, 0, 0xFFFFFFFFFFFFFFFF⟩]⟩,
   -- PITCH_POST_CTRL
   ⟨0x268, 1, false, [⟨42, 32, .rw, 0, false, 0, 0xFFFFFFFFFFFFFFFF⟩, ⟨2, 2, .ro, 0, false, 0, 0xFFFFFFFFFFFFFFFF⟩, ⟨1, 1, .ro, 0, false, 0, 0xFFFFFFFFFFFFFFFF⟩, ⟨0, 0, .wo, 0, false, 0, 0xFFFFFFFFFFFFFFFF⟩]⟩,
   -- PITCH_DMA_WIN
   ⟨0x270, 1, false, [⟨63, 32, .lk, 0, false, 0, 4294967295⟩, ⟨31, 0, .lk, 0, false, 0, 4294967295⟩]⟩,
   -- PITCH_SWAP
   ⟨0x278, 1, false, [⟨49, 48, .ro, 0, false, 0, 0xFFFFFFFFFFFFFFFF⟩, ⟨47, 0, .ro, 0, false, 0, 0xFFFFFFFFFFFFFFFF⟩]⟩,
   -- PITCH_BUDGET
   ⟨0x408, 31, false, [⟨17, 16, .st, 0, false, 0, 3⟩, ⟨15, 0, .st, 0, false, 0, 18446744073709551615⟩]⟩
  ]

/-- The registers of MAP. -/
def rowsMAP : List Row :=
  [
   -- MAP_CFG
   ⟨0x200, 1, false, [⟨4, 4, .lk, 0, false, 0, 1⟩, ⟨3, 3, .lk, 0, false, 0, 1⟩, ⟨2, 1, .lk, 0, false, 0, 2⟩, ⟨0, 0, .lk, 0, false, 0, 1⟩]⟩,
   -- MAP_PIN
   ⟨0x208, 1, false, [⟨31, 0, .lk, 0, false, 0, 4294967295⟩]⟩,
   -- MAP_PIN_USED
   ⟨0x210, 1, false, [⟨63, 32, .ro, 0, false, 0, 0xFFFFFFFFFFFFFFFF⟩, ⟨31, 0, .ro, 0, false, 0, 0xFFFFFFFFFFFFFFFF⟩]⟩,
   -- MAP_PIN_AREA
   ⟨0x218, 1, false, [⟨63, 32, .lk, 0, false, 0, 4294967295⟩, ⟨31, 0, .lk, 0, false, 0, 4294967295⟩]⟩,
   -- MAP_CACHE_AREA
   ⟨0x220, 1, false, [⟨63, 32, .lk, 0, true, 1, 4294967295⟩, ⟨31, 0, .lk, 0, true, 1, 4294967295⟩]⟩,
   -- MAP_CACHE
   ⟨0x228, 1, false, [⟨15, 8, .lk, 0x19, false, 5, 75⟩, ⟨7, 0, .lk, 0x32, false, 0, 100⟩]⟩,
   -- MAP_DEEP
   ⟨0x230, 1, false, [⟨31, 0, .lk, 0, false, 0, 4294967295⟩]⟩,
   -- MAP_MIRROR
   ⟨0x238, 1, false, [⟨7, 0, .lk, 0x32, false, 25, 75⟩]⟩,
   -- MAP_SECDEL
   ⟨0x240, 1, false, [⟨7, 0, .lk, 0x18, false, 0, 255⟩]⟩,
   -- MAP_CAP
   ⟨0x248, 1, false, [⟨47, 0, .ro, 0, false, 0, 0xFFFFFFFFFFFFFFFF⟩]⟩,
   -- MAP_ALLOC
   ⟨0x250, 1, false, [⟨47, 0, .ro, 0, false, 0, 0xFFFFFFFFFFFFFFFF⟩]⟩,
   -- MAP_STAGE
   ⟨0x258, 1, false, [⟨59, 40, .ro, 0, false, 0, 0xFFFFFFFFFFFFFFFF⟩, ⟨39, 20, .ro, 0, false, 0, 0xFFFFFFFFFFFFFFFF⟩, ⟨19, 0, .ro, 0, false, 0, 0xFFFFFFFFFFFFFFFF⟩]⟩
  ] ++
  [
   -- MAP_LOOKUP
   ⟨0x260, 1, false, [⟨63, 32, .rc, 0, false, 0, 0xFFFFFFFFFFFFFFFF⟩, ⟨31, 0, .rc, 0, false, 0, 0xFFFFFFFFFFFFFFFF⟩]⟩,
   -- MAP_SUPERSEDED
   ⟨0x268, 1, false, [⟨63, 32, .rc, 0, false, 0, 0xFFFFFFFFFFFFFFFF⟩, ⟨31, 0, .rc, 0, false, 0, 0xFFFFFFFFFFFFFFFF⟩]⟩,
   -- MAP_WARM
   ⟨0x270, 1, false, [⟨47, 32, .ro, 0, false, 0, 0xFFFFFFFFFFFFFFFF⟩, ⟨31, 0, .ro, 0, false, 0, 0xFFFFFFFFFFFFFFFF⟩]⟩,
   -- MAP_RECOVER
   ⟨0x278, 1, false, [⟨63, 63, .wo, 0, false, 0, 0xFFFFFFFFFFFFFFFF⟩, ⟨3, 2, .rw, 0, false, 0, 0xFFFFFFFFFFFFFFFF⟩, ⟨1, 0, .ro, 0, false, 0, 0xFFFFFFFFFFFFFFFF⟩]⟩,
   -- MAP_KEYGEN_SEL
   ⟨0x280, 1, false, [⟨21, 14, .rw, 0, false, 0, 0xFFFFFFFFFFFFFFFF⟩, ⟨13, 0, .rw, 0, false, 0, 0xFFFFFFFFFFFFFFFF⟩]⟩,
   -- MAP_KEYGEN_UNITS
   ⟨0x288, 1, false, [⟨39, 0, .ro, 0, false, 0, 0xFFFFFFFFFFFFFFFF⟩]⟩
  ]

/-- The registers of STRIPE. -/
def rowsSTRIPE : List Row :=
  [
   -- STRIPE_GEOM
   ⟨0x200, 1, false, [⟨15, 8, .lk, 0x14, true, 2, 23⟩, ⟨7, 0, .lk, 4, true, 1, 4⟩]⟩,
   -- STRIPE_BAND_TAB
   ⟨0x208, 1, false, [⟨39, 12, .lk, 0, true, 0, 268435455⟩]⟩,
   -- STRIPE_BAND_LEN
   ⟨0x210, 1, false, [⟨24, 0, .lk, 0, true, 1, 16777216⟩]⟩,
   -- STRIPE_MOVE_BUF
   ⟨0x218, 1, false, [⟨31, 0, .lk, 0, true, 0, 4294967295⟩]⟩,
   -- STRIPE_GC
   ⟨0x220, 1, false, [⟨31, 16, .lk, 0x40, true, 0, 65535⟩, ⟨15, 0, .lk, 0x10, true, 0, 65535⟩]⟩,
   -- STRIPE_QUEUE
   ⟨0x228, 1, false, [⟨31, 16, .lk, 0x20, true, 0, 65535⟩, ⟨15, 0, .lk, 0x100, true, 16, 4096⟩]⟩,
   -- STRIPE_FILL
   ⟨0x230, 1, false, [⟨15, 0, .lk, 0x1f4, true, 10, 10000⟩]⟩,
   -- STRIPE_RELOC
   ⟨0x238, 1, false, [⟨47, 32, .lk, 0xb4, true, 7, 3650⟩, ⟨31, 0, .lk, 0x1e8480, true, 100000, 4294967295⟩]⟩,
   -- STRIPE_WEAR
   ⟨0x240, 1, false, [⟨15, 0, .lk, 0x12c, false, 0, 65535⟩]⟩,
   -- STRIPE_REBUILD
   ⟨0x248, 1, false, [⟨63, 32, .ro, 0, false, 0, 0xFFFFFFFFFFFFFFFF⟩, ⟨11, 0, .lk, 0x3c, true, 1, 3600⟩]⟩,
   -- STRIPE_SLED
   ⟨0x250, 1, false, [⟨47, 0, .ro, 0, false, 0, 0xFFFFFFFFFFFFFFFF⟩]⟩,
   -- STRIPE_SLED_CMD
   ⟨0x258, 1, false, [⟨63, 63, .wo, 0, false, 0, 0xFFFFFFFFFFFFFFFF⟩, ⟨9, 8, .rw, 0, false, 0, 0xFFFFFFFFFFFFFFFF⟩, ⟨4, 0, .rw, 0, false, 0, 0xFFFFFFFFFFFFFFFF⟩]⟩
  ] ++
  [
   -- STRIPE_BANDS
   ⟨0x260, 1, false, [⟨63, 48, .ro, 0, false, 0, 0xFFFFFFFFFFFFFFFF⟩, ⟨47, 24, .ro, 0, false, 0, 0xFFFFFFFFFFFFFFFF⟩, ⟨23, 0, .ro, 0, false, 0, 0xFFFFFFFFFFFFFFFF⟩]⟩,
   -- STRIPE_DUMP
   ⟨0x268, 1, false, [⟨47, 24, .ro, 0, false, 0, 0xFFFFFFFFFFFFFFFF⟩, ⟨23, 16, .ro, 0, false, 0, 0xFFFFFFFFFFFFFFFF⟩, ⟨7, 0, .lk, 0x20, true, 1, 64⟩]⟩,
   -- STRIPE_SPARE
   ⟨0x270, 1, false, [⟨63, 32, .ro, 0, false, 0, 0xFFFFFFFFFFFFFFFF⟩, ⟨7, 0, .ro, 0, false, 0, 0xFFFFFFFFFFFFFFFF⟩]⟩,
   -- STRIPE_LOSS
   ⟨0x278, 1, false, [⟨63, 32, .rc, 0, false, 0, 0xFFFFFFFFFFFFFFFF⟩, ⟨31, 0, .rc, 0, false, 0, 0xFFFFFFFFFFFFFFFF⟩]⟩,
   -- STRIPE_GCSTAT
   ⟨0x280, 1, false, [⟨63, 32, .rc, 0, false, 0, 0xFFFFFFFFFFFFFFFF⟩, ⟨31, 0, .rc, 0, false, 0, 0xFFFFFFFFFFFFFFFF⟩]⟩
  ]

/-- The registers of MEDIA. -/
def rowsMEDIA : List Row :=
  [
   -- MDA_SLED_TAB
   ⟨0x200, 1, false, [⟨39, 12, .lk, 0, true, 0, 268435455⟩]⟩,
   -- MDA_BLKTAB
   ⟨0x208, 1, false, [⟨39, 12, .lk, 0, true, 0, 268435455⟩]⟩,
   -- MDA_THR_TAB
   ⟨0x210, 1, false, [⟨39, 12, .lk, 0, true, 0, 268435455⟩]⟩,
   -- MDA_GL_TAB
   ⟨0x218, 1, false, [⟨39, 12, .st, 0, true, 0, 268435455⟩]⟩,
   -- MDA_GL_BASE
   ⟨0x220, 1, false, [⟨63, 0, .st, 0, false, 0, 18446744073709551615⟩]⟩,
   -- MDA_GL_START
   ⟨0x228, 1, false, [⟨63, 0, .ro, 0, false, 0, 0xFFFFFFFFFFFFFFFF⟩]⟩,
   -- MDA_GL_LATE
   ⟨0x230, 1, false, [⟨32, 32, .ro, 0, false, 0, 0xFFFFFFFFFFFFFFFF⟩, ⟨31, 0, .rc, 0, false, 0, 0xFFFFFFFFFFFFFFFF⟩]⟩,
   -- MDA_SLEDS
   ⟨0x238, 1, false, [⟨23, 0, .ro, 0, false, 0, 0xFFFFFFFFFFFFFFFF⟩]⟩,
   -- MDA_THERM
   ⟨0x240, 1, false, [⟨15, 8, .ro, 0, false, 0, 0xFFFFFFFFFFFFFFFF⟩, ⟨3, 0, .lk, 5, true, 1, 15⟩]⟩,
   -- MDA_SUSP
   ⟨0x248, 1, false, [⟨63, 32, .rc, 0, false, 0, 0xFFFFFFFFFFFFFFFF⟩, ⟨31, 0, .rc, 0, false, 0, 0xFFFFFFFFFFFFFFFF⟩]⟩,
   -- MDA_DECODE
   ⟨0x250, 1, false, [⟨63, 48, .rc, 0, false, 0, 0xFFFFFFFFFFFFFFFF⟩, ⟨47, 32, .rc, 0, false, 0, 0xFFFFFFFFFFFFFFFF⟩, ⟨31, 16, .rc, 0, false, 0, 0xFFFFFFFFFFFFFFFF⟩, ⟨15, 0, .rc, 0, false, 0, 0xFFFFFFFFFFFFFFFF⟩]⟩,
   -- MDA_UNRECOV
   ⟨0x258, 1, false, [⟨63, 32, .rc, 0, false, 0, 0xFFFFFFFFFFFFFFFF⟩, ⟨31, 0, .rc, 0, false, 0, 0xFFFFFFFFFFFFFFFF⟩]⟩
  ] ++
  [
   -- MDA_TIMING
   ⟨0x260, 1, false, [⟨39, 32, .ro, 0, false, 0, 0xFFFFFFFFFFFFFFFF⟩, ⟨31, 0, .rc, 0, false, 0, 0xFFFFFFFFFFFFFFFF⟩]⟩,
   -- MDA_SLED_RELOAD
   ⟨0x268, 1, false, [⟨63, 63, .wo, 0, false, 0, 0xFFFFFFFFFFFFFFFF⟩, ⟨39, 32, .ro, 0, false, 0, 0xFFFFFFFFFFFFFFFF⟩, ⟨31, 31, .ro, 0, false, 0, 0xFFFFFFFFFFFFFFFF⟩, ⟨4, 0, .rw, 0, false, 0, 0xFFFFFFFFFFFFFFFF⟩]⟩
  ]

/-- The registers of TETHER. -/
def rowsTETHER : List Row :=
  [
   -- TTH_CFG
   ⟨0x200, 1, false, [⟨4, 4, .lk, 1, false, 0, 1⟩, ⟨3, 0, .lk, 7, false, 0, 10⟩]⟩,
   -- TTH_LINK
   ⟨0x208, 1, false, [⟨63, 32, .rc, 0, false, 0, 0xFFFFFFFFFFFFFFFF⟩, ⟨11, 8, .ro, 0, false, 0, 0xFFFFFFFFFFFFFFFF⟩, ⟨2, 0, .ro, 0, false, 0, 0xFFFFFFFFFFFFFFFF⟩]⟩,
   -- TTH_IDENT
   ⟨0x210, 1, false, [⟨63, 48, .ro, 0, false, 0, 0xFFFFFFFFFFFFFFFF⟩, ⟨47, 32, .ro, 0, false, 0, 0xFFFFFFFFFFFFFFFF⟩, ⟨19, 16, .ro, 0, false, 0, 0xFFFFFFFFFFFFFFFF⟩, ⟨15, 8, .ro, 0, false, 0, 0xFFFFFFFFFFFFFFFF⟩, ⟨7, 0, .ro, 0, false, 0, 0xFFFFFFFFFFFFFFFF⟩]⟩,
   -- TTH_OWN
   ⟨0x218, 1, false, [⟨63, 32, .ro, 0, false, 0, 0xFFFFFFFFFFFFFFFF⟩, ⟨7, 0, .ro, 0, false, 0, 0xFFFFFFFFFFFFFFFF⟩]⟩,
   -- TTH_HELD
   ⟨0x220, 4, false, [⟨63, 32, .ro, 0, false, 0, 0xFFFFFFFFFFFFFFFF⟩, ⟨31, 0, .ro, 0, false, 0, 0xFFFFFFFFFFFFFFFF⟩]⟩,
   -- TTH_ANCHOR
   ⟨0x240, 1, false, [⟨47, 32, .ro, 0, false, 0, 0xFFFFFFFFFFFFFFFF⟩, ⟨23, 16, .ro, 0, false, 0, 0xFFFFFFFFFFFFFFFF⟩, ⟨3, 0, .ro, 0, false, 0, 0xFFFFFFFFFFFFFFFF⟩]⟩,
   -- TTH_DIE
   ⟨0x248, 1, false, [⟨15, 8, .ro, 0, false, 0, 0xFFFFFFFFFFFFFFFF⟩, ⟨6, 4, .rw, 0, false, 0, 0xFFFFFFFFFFFFFFFF⟩, ⟨3, 0, .rw, 0, false, 0, 0xFFFFFFFFFFFFFFFF⟩]⟩,
   -- TTH_FRAMES
   ⟨0x250, 1, false, [⟨63, 32, .rc, 0, false, 0, 0xFFFFFFFFFFFFFFFF⟩, ⟨31, 0, .rc, 0, false, 0, 0xFFFFFFFFFFFFFFFF⟩]⟩,
   -- TTH_OPS
   ⟨0x258, 1, false, [⟨44, 32, .ro, 0, false, 0, 0xFFFFFFFFFFFFFFFF⟩, ⟨31, 0, .rc, 0, false, 0, 0xFFFFFFFFFFFFFFFF⟩]⟩,
   -- TTH_CLAIM_CMD
   ⟨0x260, 1, true, [⟨63, 63, .wo, 0, false, 0, 0xFFFFFFFFFFFFFFFF⟩, ⟨62, 32, .rw, 0, false, 0, 0xFFFFFFFFFFFFFFFF⟩, ⟨31, 8, .rw, 0, false, 0, 0xFFFFFFFFFFFFFFFF⟩, ⟨7, 0, .rw, 0, false, 0, 0xFFFFFFFFFFFFFFFF⟩]⟩,
   -- TTH_CLAIM_STAT
   ⟨0x268, 1, true, [⟨62, 32, .ro, 0, false, 0, 0xFFFFFFFFFFFFFFFF⟩, ⟨31, 31, .ro, 0, false, 0, 0xFFFFFFFFFFFFFFFF⟩, ⟨30, 30, .ro, 0, false, 0, 0xFFFFFFFFFFFFFFFF⟩, ⟨23, 0, .ro, 0, false, 0, 0xFFFFFFFFFFFFFFFF⟩]⟩
  ]

/-- The registers of CIPHER. -/
def rowsCIPHER : List Row :=
  [
   -- CPH_LOAD
   ⟨0x200, 1, false, [⟨39, 0, .rw, 0, false, 0, 0xFFFFFFFFFFFFFFFF⟩]⟩,
   -- CPH_LOAD_CTRL
   ⟨0x208, 1, false, [⟨63, 63, .wo, 0, false, 0, 0xFFFFFFFFFFFFFFFF⟩, ⟨62, 62, .ro, 0, false, 0, 0xFFFFFFFFFFFFFFFF⟩, ⟨47, 40, .ro, 0, false, 0, 0xFFFFFFFFFFFFFFFF⟩, ⟨14, 14, .rw, 0, false, 0, 0xFFFFFFFFFFFFFFFF⟩, ⟨13, 0, .rw, 0, false, 0, 0xFFFFFFFFFFFFFFFF⟩]⟩,
   -- CPH_XTS_LIMIT
   ⟨0x210, 1, false, [⟨15, 8, .lk, 0x25, false, 20, 38⟩, ⟨7, 0, .lk, 0x26, false, 21, 39⟩]⟩,
   -- CPH_GCM_LIMIT
   ⟨0x218, 1, false, [⟨63, 32, .lk, 0x800000, true, 1, 4294967295⟩, ⟨31, 0, .lk, 0x1000000, true, 1, 16777216⟩]⟩,
   -- CPH_SLOT_SEL
   ⟨0x220, 1, false, [⟨14, 14, .rw, 0, false, 0, 0xFFFFFFFFFFFFFFFF⟩, ⟨13, 0, .rw, 0, false, 0, 0xFFFFFFFFFFFFFFFF⟩]⟩,
   -- CPH_SLOT_STAT
   ⟨0x228, 1, false, [⟨63, 24, .ro, 0, false, 0, 0xFFFFFFFFFFFFFFFF⟩, ⟨23, 16, .ro, 0, false, 0, 0xFFFFFFFFFFFFFFFF⟩, ⟨9, 8, .ro, 0, false, 0, 0xFFFFFFFFFFFFFFFF⟩, ⟨7, 7, .ro, 0, false, 0, 0xFFFFFFFFFFFFFFFF⟩, ⟨1, 0, .ro, 0, false, 0, 0xFFFFFFFFFFFFFFFF⟩]⟩,
   -- CPH_DESTROY
   ⟨0x230, 1, false, [⟨63, 63, .wo, 0, false, 0, 0xFFFFFFFFFFFFFFFF⟩, ⟨62, 62, .ro, 0, false, 0, 0xFFFFFFFFFFFFFFFF⟩, ⟨15, 15, .rw, 0, false, 0, 0xFFFFFFFFFFFFFFFF⟩, ⟨14, 14, .rw, 0, false, 0, 0xFFFFFFFFFFFFFFFF⟩, ⟨13, 0, .rw, 0, false, 0, 0xFFFFFFFFFFFFFFFF⟩]⟩,
   -- CPH_STAT
   ⟨0x238, 1, false, [⟨63, 32, .rc, 0, false, 0, 0xFFFFFFFFFFFFFFFF⟩, ⟨31, 0, .rc, 0, false, 0, 0xFFFFFFFFFFFFFFFF⟩]⟩,
   -- CPH_ROTATE
   ⟨0x240, 1, false, [⟨63, 32, .rc, 0, false, 0, 0xFFFFFFFFFFFFFFFF⟩, ⟨31, 0, .rc, 0, false, 0, 0xFFFFFFFFFFFFFFFF⟩]⟩,
   -- CPH_OCC
   ⟨0x248, 1, false, [⟨45, 32, .ro, 0, false, 0, 0xFFFFFFFFFFFFFFFF⟩, ⟨14, 0, .ro, 0, false, 0, 0xFFFFFFFFFFFFFFFF⟩]⟩
  ]

/-- The registers of BELAY. -/
def rowsBELAY : List Row :=
  [
   -- BLY_CFG
   ⟨0x200, 1, false, [⟨47, 32, .lk, 0x3e8, true, 500, 10000⟩, ⟨31, 16, .lk, 0x3e8, true, 100, 65535⟩, ⟨0, 0, .rw, 0, false, 0, 0xFFFFFFFFFFFFFFFF⟩]⟩,
   -- BLY_HOME
   ⟨0x208, 1, false, [⟨63, 0, .lk, 0, false, 0, 18446744073709551615⟩]⟩,
   -- BLY_STATUS
   ⟨0x210, 1, false, [⟨15, 15, .ro, 0, false, 0, 0xFFFFFFFFFFFFFFFF⟩, ⟨14, 14, .ro, 0, false, 0, 0xFFFFFFFFFFFFFFFF⟩, ⟨11, 11, .ro, 0, false, 0, 0xFFFFFFFFFFFFFFFF⟩, ⟨10, 10, .ro, 0, false, 0, 0xFFFFFFFFFFFFFFFF⟩, ⟨9, 8, .ro, 0, false, 0, 0xFFFFFFFFFFFFFFFF⟩, ⟨2, 0, .ro, 0, false, 0, 0xFFFFFFFFFFFFFFFF⟩]⟩,
   -- BLY_EPOCH
   ⟨0x218, 1, false, [⟨62, 32, .ro, 0, false, 0, 0xFFFFFFFFFFFFFFFF⟩, ⟨30, 0, .ro, 0, false, 0, 0xFFFFFFFFFFFFFFFF⟩]⟩,
   -- BLY_TIME
   ⟨0x220, 1, false, [⟨63, 32, .ro, 0, false, 0, 0xFFFFFFFFFFFFFFFF⟩, ⟨31, 0, .ro, 0, false, 0, 0xFFFFFFFFFFFFFFFF⟩]⟩,
   -- BLY_PCTX_TAB
   ⟨0x228, 1, false, [⟨39, 12, .lk, 0, true, 1, 268435455⟩]⟩,
   -- BLY_MIRROR
   ⟨0x230, 1, false, [⟨47, 0, .ro, 0, false, 0, 0xFFFFFFFFFFFFFFFF⟩]⟩,
   -- BLY_CONF_LAT
   ⟨0x238, 1, false, [⟨63, 32, .rc, 0, false, 0, 0xFFFFFFFFFFFFFFFF⟩, ⟨31, 0, .rc, 0, false, 0, 0xFFFFFFFFFFFFFFFF⟩]⟩,
   -- BLY_BEATS
   ⟨0x240, 1, false, [⟨63, 32, .rc, 0, false, 0, 0xFFFFFFFFFFFFFFFF⟩, ⟨31, 0, .rc, 0, false, 0, 0xFFFFFFFFFFFFFFFF⟩]⟩,
   -- BLY_LAST_T0
   ⟨0x248, 1, false, [⟨63, 0, .ro, 0, false, 0, 0xFFFFFFFFFFFFFFFF⟩]⟩,
   -- BLY_COUNT
   ⟨0x250, 1, false, [⟨63, 32, .rc, 0, false, 0, 0xFFFFFFFFFFFFFFFF⟩, ⟨31, 0, .rc, 0, false, 0, 0xFFFFFFFFFFFFFFFF⟩]⟩,
   -- BLY_FWD
   ⟨0x258, 1, false, [⟨63, 32, .rc, 0, false, 0, 0xFFFFFFFFFFFFFFFF⟩, ⟨31, 0, .rc, 0, false, 0, 0xFFFFFFFFFFFFFFFF⟩]⟩
  ] ++
  [
   -- BLY_CMD
   ⟨0x260, 1, false, [⟨63, 63, .wo, 0, false, 0, 0xFFFFFFFFFFFFFFFF⟩, ⟨62, 62, .ro, 0, false, 0, 0xFFFFFFFFFFFFFFFF⟩, ⟨57, 56, .rw, 0, false, 0, 0xFFFFFFFFFFFFFFFF⟩, ⟨55, 48, .ro, 0, false, 0, 0xFFFFFFFFFFFFFFFF⟩]⟩
  ]

/-- The registers of DMC. -/
def rowsDMC : List Row :=
  [
   -- DMC_CTRL
   ⟨0x200, 1, false, [⟨0, 0, .rw, 0, false, 0, 0xFFFFFFFFFFFFFFFF⟩]⟩,
   -- DMC_POP
   ⟨0x208, 1, false, [⟨15, 0, .lk, 0, true, 1, 65535⟩]⟩,
   -- DMC_RATE
   ⟨0x210, 1, false, [⟨15, 0, .lk, 0x1900, true, 4800, 6400⟩]⟩,
   -- DMC_CAP
   ⟨0x218, 1, false, [⟨31, 0, .ro, 0, false, 0, 0xFFFFFFFFFFFFFFFF⟩]⟩,
   -- DMC_TRAIN
   ⟨0x220, 1, false, [⟨15, 8, .ro, 0, false, 0, 0xFFFFFFFFFFFFFFFF⟩, ⟨7, 0, .ro, 0, false, 0, 0xFFFFFFFFFFFFFFFF⟩]⟩,
   -- DMC_ECC
   ⟨0x228, 1, false, [⟨47, 32, .rc, 0, false, 0, 0xFFFFFFFFFFFFFFFF⟩, ⟨31, 0, .rc, 0, false, 0, 0xFFFFFFFFFFFFFFFF⟩]⟩
  ]

/-- The registers of JOURNAL. -/
def rowsJOURNAL : List Row :=
  [
   -- JNL_CKPT_CFG
   ⟨0x200, 1, false, [⟨7, 0, .lk, 0x32, false, 25, 90⟩]⟩,
   -- JNL_HEAD
   ⟨0x208, 1, false, [⟨63, 0, .ro, 0, false, 0, 0xFFFFFFFFFFFFFFFF⟩]⟩,
   -- JNL_TAIL
   ⟨0x210, 1, false, [⟨63, 0, .ro, 0, false, 0, 0xFFFFFFFFFFFFFFFF⟩]⟩,
   -- JNL_OCC
   ⟨0x218, 1, false, [⟨39, 32, .rc, 0, false, 0, 0xFFFFFFFFFFFFFFFF⟩, ⟨31, 0, .ro, 0, false, 0, 0xFFFFFFFFFFFFFFFF⟩]⟩,
   -- JNL_CKPT
   ⟨0x220, 1, false, [⟨63, 63, .w1s, 0, false, 0, 0xFFFFFFFFFFFFFFFF⟩, ⟨2, 0, .ro, 0, false, 0, 0xFFFFFFFFFFFFFFFF⟩]⟩,
   -- JNL_CKPT_LAST
   ⟨0x228, 1, false, [⟨63, 0, .ro, 0, false, 0, 0xFFFFFFFFFFFFFFFF⟩]⟩,
   -- JNL_SB
   ⟨0x230, 1, false, [⟨63, 1, .ro, 0, false, 0, 0xFFFFFFFFFFFFFFFF⟩, ⟨0, 0, .ro, 0, false, 0, 0xFFFFFFFFFFFFFFFF⟩]⟩,
   -- JNL_REPLAY
   ⟨0x238, 1, false, [⟨63, 32, .ro, 0, false, 0, 0xFFFFFFFFFFFFFFFF⟩, ⟨0, 0, .ro, 0, false, 0, 0xFFFFFFFFFFFFFFFF⟩]⟩,
   -- JNL_STALL
   ⟨0x240, 1, false, [⟨31, 0, .rc, 0, false, 0, 0xFFFFFFFFFFFFFFFF⟩]⟩,
   -- JNL_PASSES
   ⟨0x248, 1, false, [⟨63, 0, .ro, 0, false, 0, 0xFFFFFFFFFFFFFFFF⟩]⟩
  ]

/-- The registers of MGMT. -/
def rowsMGMT : List Row :=
  [
   -- MGMT_CTRL
   ⟨0x200, 1, false, [⟨2, 2, .lk, 0, false, 0, 1⟩, ⟨1, 1, .lk, 0, false, 0, 1⟩, ⟨0, 0, .lk, 0, false, 0, 1⟩]⟩,
   -- MGMT_MAC
   ⟨0x208, 1, false, [⟨47, 0, .lk, 0, false, 0, 281474976710655⟩]⟩,
   -- MGMT_RAS
   ⟨0x210, 1, false, [⟨47, 32, .lk, 0x1d2c, true, 0, 65535⟩, ⟨31, 0, .lk, 0, false, 0, 4294967295⟩]⟩,
   -- MGMT_RAS_ALLOW
   ⟨0x218, 1, false, [⟨37, 32, .lk, 0x20, false, 0, 32⟩, ⟨31, 0, .lk, 0, false, 0, 4294967295⟩]⟩,
   -- MGMT_GPIO
   ⟨0x220, 1, false, [⟨47, 32, .ro, 0, false, 0, 0xFFFFFFFFFFFFFFFF⟩, ⟨31, 16, .rw, 0, false, 0, 0xFFFFFFFFFFFFFFFF⟩, ⟨15, 0, .rw, 0, false, 0, 0xFFFFFFFFFFFFFFFF⟩]⟩,
   -- MGMT_RCV_DATA
   ⟨0x300, 1, false, [⟨63, 0, .wo, 0, false, 0, 0xFFFFFFFFFFFFFFFF⟩]⟩,
   -- MGMT_RCV_CTRL
   ⟨0x308, 1, false, [⟨0, 0, .wo, 0, false, 0, 0xFFFFFFFFFFFFFFFF⟩]⟩
  ]

/-- The block's own registers, from offset 0x200 (R53). -/
def rowsOf : Nat → List Row
  | 0x0 => rowsCAMP
  | 0x1 => rowsANCHOR
  | 0x2 => rowsWARDEN
  | 0x3 => rowsSPOTTER
  | 0x4 => rowsCAIRN
  | 0x5 => rowsTALLY
  | 0x8 => rowsPORT
  | 0x9 => rowsTIME
  | 0xa => rowsPARSE
  | 0xb => rowsCLASS
  | 0xc => rowsXPORT
  | 0xd => rowsSTREAM
  | 0xe => rowsSWITCH
  | 0xf => rowsSCHED
  | 0x10 => rowsHOSTQ
  | 0x11 => rowsLEDGER
  | 0x12 => rowsROPE
  | 0x13 => rowsPITCH
  | 0x14 => rowsMAP
  | 0x15 => rowsSTRIPE
  | 0x16 => rowsMEDIA
  | 0x17 => rowsTETHER
  | 0x18 => rowsCIPHER
  | 0x19 => rowsBELAY
  | 0x1a => rowsDMC
  | 0x1b => rowsJOURNAL
  | 0x1c => rowsMGMT
  | _ => []

namespace Reg

def WDN_CORE_CTRL.RUN : FRef := ⟨0x2, 0x200, 3, 0⟩
def WDN_PATH_POLICY.WRITE_ALLOW : FRef := ⟨0x2, 0x208, 28, 0⟩
def WDN_EVR_HEAD.INDEX : FRef := ⟨0x2, 0x210, 11, 0⟩
def WDN_EVR_TAIL.INDEX : FRef := ⟨0x2, 0x218, 11, 0⟩
def WDN_EVR_LOST.COUNT : FRef := ⟨0x2, 0x220, 31, 0⟩
def WDN_MBOX.DATA : FRef := ⟨0x2, 0x228, 63, 0⟩
def WDN_WDOG.KICK : FRef := ⟨0x2, 0x230, 16, 16⟩
def WDN_WDOG.TIMEOUT_MS : FRef := ⟨0x2, 0x230, 15, 0⟩
def DMC_CTRL.KEEP_ON_WARM : FRef := ⟨0x1a, 0x200, 0, 0⟩
def DMC_POP.SLOT : FRef := ⟨0x1a, 0x208, 15, 0⟩
def DMC_RATE.MTS : FRef := ⟨0x1a, 0x210, 15, 0⟩
def DMC_CAP.MIB : FRef := ⟨0x1a, 0x218, 31, 0⟩
def DMC_TRAIN.FAIL : FRef := ⟨0x1a, 0x220, 15, 8⟩
def DMC_TRAIN.PASS : FRef := ⟨0x1a, 0x220, 7, 0⟩
def DMC_ECC.UNCORR : FRef := ⟨0x1a, 0x228, 47, 32⟩
def DMC_ECC.CORR : FRef := ⟨0x1a, 0x228, 31, 0⟩
def MGMT_CTRL.UART_EN : FRef := ⟨0x1c, 0x200, 2, 2⟩
def MGMT_CTRL.I3C_EN : FRef := ⟨0x1c, 0x200, 1, 1⟩
def MGMT_CTRL.LANE_EN : FRef := ⟨0x1c, 0x200, 0, 0⟩
def MGMT_MAC.ADDR : FRef := ⟨0x1c, 0x208, 47, 0⟩
def MGMT_RAS.UDP_PORT : FRef := ⟨0x1c, 0x210, 47, 32⟩
def MGMT_RAS.IPV4 : FRef := ⟨0x1c, 0x210, 31, 0⟩
def MGMT_RAS_ALLOW.PREFIX_LEN : FRef := ⟨0x1c, 0x218, 37, 32⟩
def MGMT_RAS_ALLOW.PREFIX : FRef := ⟨0x1c, 0x218, 31, 0⟩
def MGMT_GPIO.IN : FRef := ⟨0x1c, 0x220, 47, 32⟩
def MGMT_GPIO.OUT : FRef := ⟨0x1c, 0x220, 31, 16⟩
def MGMT_GPIO.DIR : FRef := ⟨0x1c, 0x220, 15, 0⟩
def PITCH_CTRL.CLUSTER_EN : FRef := ⟨0x13, 0x200, 15, 0⟩
def PITCH_IMG_BASE.ADDR : FRef := ⟨0x13, 0x208, 39, 0⟩
def PITCH_IMG_LEN.BYTES : FRef := ⟨0x13, 0x210, 20, 0⟩
def PITCH_LOAD.FAIL_AT : FRef := ⟨0x13, 0x218, 63, 32⟩
def PITCH_LOAD.FAIL_REASON : FRef := ⟨0x13, 0x218, 31, 16⟩
def PITCH_LOAD.STATE : FRef := ⟨0x13, 0x218, 3, 1⟩
def PITCH_LOAD.START : FRef := ⟨0x13, 0x218, 0, 0⟩
def PITCH_BIND_SEL.TYPE : FRef := ⟨0x13, 0x220, 4, 0⟩
def PITCH_BIND_VIEW.WORST_STAGED : FRef := ⟨0x13, 0x228, 63, 48⟩
def PITCH_BIND_VIEW.WORST_ACTIVE : FRef := ⟨0x13, 0x228, 47, 32⟩
def PITCH_BIND_VIEW.BOUND : FRef := ⟨0x13, 0x228, 15, 15⟩
def PITCH_BIND_VIEW.ENTRY : FRef := ⟨0x13, 0x228, 13, 0⟩
def PITCH_RUNS.COUNT : FRef := ⟨0x13, 0x230, 63, 0⟩
def PITCH_TRAPS.BUDGET : FRef := ⟨0x13, 0x238, 63, 32⟩
def PITCH_TRAPS.ALL : FRef := ⟨0x13, 0x238, 31, 0⟩
def PITCH_LAST_TRAP.EVENT : FRef := ⟨0x13, 0x240, 63, 48⟩
def PITCH_LAST_TRAP.CODE : FRef := ⟨0x13, 0x240, 47, 40⟩
def PITCH_LAST_TRAP.TID : FRef := ⟨0x13, 0x240, 39, 32⟩
def PITCH_LAST_TRAP.GEN : FRef := ⟨0x13, 0x240, 31, 16⟩
def PITCH_LAST_TRAP.PC : FRef := ⟨0x13, 0x240, 13, 0⟩
def PITCH_LAST_TVAL.TVAL : FRef := ⟨0x13, 0x248, 63, 0⟩
def PITCH_EVQ.HIGH : FRef := ⟨0x13, 0x250, 29, 16⟩
def PITCH_EVQ.DEPTH : FRef := ⟨0x13, 0x250, 13, 0⟩
def PITCH_DROPS.UNBOUND : FRef := ⟨0x13, 0x258, 31, 0⟩
def PITCH_POST.ADDR : FRef := ⟨0x13, 0x260, 39, 0⟩
def PITCH_POST_CTRL.LEN : FRef := ⟨0x13, 0x268, 42, 32⟩
def PITCH_POST_CTRL.DONE : FRef := ⟨0x13, 0x268, 2, 2⟩
def PITCH_POST_CTRL.BUSY : FRef := ⟨0x13, 0x268, 1, 1⟩
def PITCH_POST_CTRL.GO : FRef := ⟨0x13, 0x268, 0, 0⟩
def PITCH_DMA_WIN.LIMIT_MIB : FRef := ⟨0x13, 0x270, 63, 32⟩
def PITCH_DMA_WIN.BASE_MIB : FRef := ⟨0x13, 0x270, 31, 0⟩
def PITCH_SWAP.PAUSE : FRef := ⟨0x13, 0x278, 49, 48⟩
def PITCH_SWAP.CYCLE : FRef := ⟨0x13, 0x278, 47, 0⟩
def PITCH_BUDGET.PRIORITY : FRef := ⟨0x13, 0x400, 17, 16⟩
def PITCH_BUDGET.SLOTS : FRef := ⟨0x13, 0x400, 15, 0⟩
def HOSTQ_CFG.MAX_CTRL : FRef := ⟨0x10, 0x200, 46, 32⟩
def HOSTQ_CFG.MAXQ : FRef := ⟨0x10, 0x200, 26, 16⟩
def HOSTQ_CFG.MQES : FRef := ⟨0x10, 0x200, 11, 0⟩
def HOSTQ_SUBTAB.ADDR : FRef := ⟨0x10, 0x208, 39, 12⟩
def HOSTQ_HOSTTAB.ADDR : FRef := ⟨0x10, 0x210, 39, 12⟩
def HOSTQ_NSTAB.ADDR : FRef := ⟨0x10, 0x218, 39, 12⟩
def HOSTQ_HOSTTAB_LEN.ENTRIES : FRef := ⟨0x10, 0x220, 15, 0⟩
def HOSTQ_NS_UPDATE.GO : FRef := ⟨0x10, 0x228, 63, 63⟩
def HOSTQ_NS_UPDATE.RESULT : FRef := ⟨0x10, 0x228, 39, 32⟩
def HOSTQ_NS_UPDATE.BUSY : FRef := ⟨0x10, 0x228, 31, 31⟩
def HOSTQ_NS_UPDATE.HANDLE : FRef := ⟨0x10, 0x228, 13, 0⟩
def HOSTQ_ANA_OWN.UNIT : FRef := ⟨0x10, 0x230, 63, 0⟩
def HOSTQ_TEN_SEL.TENANT : FRef := ⟨0x10, 0x238, 11, 0⟩
def HOSTQ_TEN_FLAGS.METER_VISIBLE : FRef := ⟨0x10, 0x240, 0, 0⟩
def HOSTQ_OCC.CTRL : FRef := ⟨0x10, 0x248, 46, 32⟩
def HOSTQ_OCC.IOQ : FRef := ⟨0x10, 0x248, 31, 16⟩
def HOSTQ_STAT.SQ_OVERRUN : FRef := ⟨0x10, 0x250, 63, 32⟩
def HOSTQ_STAT.CID_CONFLICT : FRef := ⟨0x10, 0x250, 31, 0⟩
def HOSTQ_ABORTS.WON : FRef := ⟨0x10, 0x258, 63, 32⟩
def HOSTQ_ABORTS.LOST : FRef := ⟨0x10, 0x258, 31, 0⟩
def LEDGER_CFG.BELAY_PCT : FRef := ⟨0x11, 0x200, 23, 16⟩
def LEDGER_CFG.RSV_PCT : FRef := ⟨0x11, 0x200, 15, 8⟩
def LEDGER_CFG.ENG_PCT : FRef := ⟨0x11, 0x200, 7, 0⟩
def LEDGER_G1_BELAY.BYTES : FRef := ⟨0x11, 0x208, 31, 0⟩
def LEDGER_TEN_TAB.ADDR : FRef := ⟨0x11, 0x210, 39, 12⟩
def LEDGER_TEN_UPDATE.GO : FRef := ⟨0x11, 0x218, 63, 63⟩
def LEDGER_TEN_UPDATE.RESULT : FRef := ⟨0x11, 0x218, 39, 32⟩
def LEDGER_TEN_UPDATE.BUSY : FRef := ⟨0x11, 0x218, 31, 31⟩
def LEDGER_TEN_UPDATE.TENANT : FRef := ⟨0x11, 0x218, 11, 0⟩
def LEDGER_PARTS.TR_MAX : FRef := ⟨0x11, 0x220, 47, 32⟩
def LEDGER_PARTS.G2_READ : FRef := ⟨0x11, 0x220, 31, 16⟩
def LEDGER_PARTS.G1_READ : FRef := ⟨0x11, 0x220, 15, 0⟩
def LEDGER_ADMIT.DEFERRED : FRef := ⟨0x11, 0x228, 63, 32⟩
def LEDGER_ADMIT.ADMITTED : FRef := ⟨0x11, 0x228, 31, 0⟩
def LEDGER_WAIT.FAILFAST : FRef := ⟨0x11, 0x230, 63, 32⟩
def LEDGER_WAIT.MAX_NS : FRef := ⟨0x11, 0x230, 31, 0⟩
def LEDGER_OVERRUN.RETRY : FRef := ⟨0x11, 0x238, 63, 32⟩
def LEDGER_OVERRUN.COUNT : FRef := ⟨0x11, 0x238, 31, 0⟩
def LEDGER_OCC.ENG_PCT_NOW : FRef := ⟨0x11, 0x240, 47, 40⟩
def LEDGER_OCC.BELAY_PCT_NOW : FRef := ⟨0x11, 0x240, 39, 32⟩
def LEDGER_OCC.WAITING : FRef := ⟨0x11, 0x240, 31, 0⟩
def ROPE_CYCLE.NS : FRef := ⟨0x12, 0x200, 15, 0⟩
def ROPE_CHAIN.LOCK_CHAIN : FRef := ⟨0x12, 0x208, 3, 0⟩
def ROPE_NEXT.ROPE : FRef := ⟨0x12, 0x210, 63, 0⟩
def ROPE_CUR_CYCLE.CYCLE : FRef := ⟨0x12, 0x218, 47, 0⟩
def ROPE_LOCKS.HIGH : FRef := ⟨0x12, 0x220, 48, 32⟩
def ROPE_LOCKS.IN_USE : FRef := ⟨0x12, 0x220, 16, 0⟩
def ROPE_STALLS.DEPTH : FRef := ⟨0x12, 0x228, 63, 32⟩
def ROPE_STALLS.FULL : FRef := ⟨0x12, 0x228, 31, 0⟩
def ROPE_TRACE_BASE.ADDR : FRef := ⟨0x12, 0x230, 39, 12⟩
def ROPE_TRACE.HEAD : FRef := ⟨0x12, 0x238, 55, 32⟩
def ROPE_TRACE.ENTRIES : FRef := ⟨0x12, 0x238, 23, 0⟩
def ROPE_PAIR.PAIRED : FRef := ⟨0x12, 0x240, 0, 0⟩
def MAP_CFG.SECURE : FRef := ⟨0x14, 0x200, 4, 4⟩
def MAP_CFG.BUF_MODE : FRef := ⟨0x14, 0x200, 3, 3⟩
def MAP_CFG.MODE : FRef := ⟨0x14, 0x200, 2, 1⟩
def MAP_CFG.UNIT : FRef := ⟨0x14, 0x200, 0, 0⟩
def MAP_PIN.BUDGET_MIB : FRef := ⟨0x14, 0x208, 31, 0⟩
def MAP_PIN_USED.PARTNER_MIB : FRef := ⟨0x14, 0x210, 63, 32⟩
def MAP_PIN_USED.OWN_MIB : FRef := ⟨0x14, 0x210, 31, 0⟩
def MAP_PIN_AREA.LIMIT_MIB : FRef := ⟨0x14, 0x218, 63, 32⟩
def MAP_PIN_AREA.BASE_MIB : FRef := ⟨0x14, 0x218, 31, 0⟩
def MAP_CACHE_AREA.LIMIT_MIB : FRef := ⟨0x14, 0x220, 63, 32⟩
def MAP_CACHE_AREA.BASE_MIB : FRef := ⟨0x14, 0x220, 31, 0⟩
def MAP_CACHE.CLEAN_MIN : FRef := ⟨0x14, 0x228, 15, 8⟩
def MAP_CACHE.G2_PCT : FRef := ⟨0x14, 0x228, 7, 0⟩
def MAP_DEEP.BASE_MIB : FRef := ⟨0x14, 0x230, 31, 0⟩
def MAP_MIRROR.PCT : FRef := ⟨0x14, 0x238, 7, 0⟩
def MAP_SECDEL.HOURS : FRef := ⟨0x14, 0x240, 7, 0⟩
def MAP_CAP.BLOCKS : FRef := ⟨0x14, 0x248, 47, 0⟩
def MAP_ALLOC.BLOCKS : FRef := ⟨0x14, 0x250, 47, 0⟩
def MAP_STAGE.MIRROR : FRef := ⟨0x14, 0x258, 59, 40⟩
def MAP_STAGE.DIRTY : FRef := ⟨0x14, 0x258, 39, 20⟩
def MAP_STAGE.LANDING : FRef := ⟨0x14, 0x258, 19, 0⟩
def MAP_LOOKUP.MISSES : FRef := ⟨0x14, 0x260, 63, 32⟩
def MAP_LOOKUP.HITS : FRef := ⟨0x14, 0x260, 31, 0⟩
def MAP_SUPERSEDED.MOVE : FRef := ⟨0x14, 0x268, 63, 32⟩
def MAP_SUPERSEDED.PLACE : FRef := ⟨0x14, 0x268, 31, 0⟩
def MAP_WARM.COLD_NS : FRef := ⟨0x14, 0x270, 47, 32⟩
def MAP_WARM.PAGES_LEFT : FRef := ⟨0x14, 0x270, 31, 0⟩
def MAP_RECOVER.GO : FRef := ⟨0x14, 0x278, 63, 63⟩
def MAP_RECOVER.MODE : FRef := ⟨0x14, 0x278, 3, 2⟩
def MAP_RECOVER.STATE : FRef := ⟨0x14, 0x278, 1, 0⟩
def MAP_KEYGEN_SEL.GEN : FRef := ⟨0x14, 0x280, 21, 14⟩
def MAP_KEYGEN_SEL.SLOT : FRef := ⟨0x14, 0x280, 13, 0⟩
def MAP_KEYGEN_UNITS.COUNT : FRef := ⟨0x14, 0x288, 39, 0⟩
def JNL_CKPT_CFG.CKPT_PCT : FRef := ⟨0x1b, 0x200, 7, 0⟩
def JNL_HEAD.JSEQ : FRef := ⟨0x1b, 0x208, 63, 0⟩
def JNL_TAIL.JSEQ : FRef := ⟨0x1b, 0x210, 63, 0⟩
def JNL_OCC.HIGH_PCT : FRef := ⟨0x1b, 0x218, 39, 32⟩
def JNL_OCC.BYTES : FRef := ⟨0x1b, 0x218, 31, 0⟩
def JNL_CKPT.REQ : FRef := ⟨0x1b, 0x220, 63, 63⟩
def JNL_CKPT.STATE : FRef := ⟨0x1b, 0x220, 2, 0⟩
def JNL_CKPT_LAST.JSEQ : FRef := ⟨0x1b, 0x228, 63, 0⟩
def JNL_SB.GENERATION : FRef := ⟨0x1b, 0x230, 63, 1⟩
def JNL_SB.ACTIVE : FRef := ⟨0x1b, 0x230, 0, 0⟩
def JNL_REPLAY.RECORDS : FRef := ⟨0x1b, 0x238, 63, 32⟩
def JNL_REPLAY.TORN : FRef := ⟨0x1b, 0x238, 0, 0⟩
def JNL_STALL.COUNT : FRef := ⟨0x1b, 0x240, 31, 0⟩
def JNL_PASSES.COUNT : FRef := ⟨0x1b, 0x248, 63, 0⟩
def TTH_CFG.AUTO_RETRAIN : FRef := ⟨0x17, 0x200, 4, 4⟩
def TTH_CFG.TX_PRESET : FRef := ⟨0x17, 0x200, 3, 0⟩
def TTH_LINK.RETRAINS : FRef := ⟨0x17, 0x208, 63, 32⟩
def TTH_LINK.LANES_UP : FRef := ⟨0x17, 0x208, 11, 8⟩
def TTH_LINK.STATE : FRef := ⟨0x17, 0x208, 2, 0⟩
def TTH_IDENT.PROTO : FRef := ⟨0x17, 0x210, 63, 48⟩
def TTH_IDENT.MODEL : FRef := ⟨0x17, 0x210, 47, 32⟩
def TTH_IDENT.PLANES : FRef := ⟨0x17, 0x210, 19, 16⟩
def TTH_IDENT.DIES : FRef := ⟨0x17, 0x210, 15, 8⟩
def TTH_IDENT.CHANNELS : FRef := ⟨0x17, 0x210, 7, 0⟩
def TTH_OWN.CLAIM : FRef := ⟨0x17, 0x218, 63, 32⟩
def TTH_OWN.OWNED : FRef := ⟨0x17, 0x218, 7, 0⟩
def TTH_HELD.ODD : FRef := ⟨0x17, 0x220, 63, 32⟩
def TTH_HELD.EVEN : FRef := ⟨0x17, 0x220, 31, 0⟩
def TTH_ANCHOR.AGE_MS : FRef := ⟨0x17, 0x240, 47, 32⟩
def TTH_ANCHOR.TEMP : FRef := ⟨0x17, 0x240, 23, 16⟩
def TTH_ANCHOR.FLAGS : FRef := ⟨0x17, 0x240, 3, 0⟩
def TTH_DIE.TEMP : FRef := ⟨0x17, 0x248, 15, 8⟩
def TTH_DIE.CHANNEL : FRef := ⟨0x17, 0x248, 6, 4⟩
def TTH_DIE.DIE : FRef := ⟨0x17, 0x248, 3, 0⟩
def TTH_FRAMES.CRC_ERR : FRef := ⟨0x17, 0x250, 63, 32⟩
def TTH_FRAMES.REPLAYS : FRef := ⟨0x17, 0x250, 31, 0⟩
def TTH_OPS.OUTSTANDING : FRef := ⟨0x17, 0x258, 44, 32⟩
def TTH_OPS.TIMEOUTS : FRef := ⟨0x17, 0x258, 31, 0⟩
def TTH_CLAIM_CMD.GO : FRef := ⟨0x17, 0x260, 63, 63⟩
def TTH_CLAIM_CMD.EPOCH : FRef := ⟨0x17, 0x260, 62, 32⟩
def TTH_CLAIM_CMD.SLEDS : FRef := ⟨0x17, 0x260, 31, 8⟩
def TTH_CLAIM_CMD.CHANNELS : FRef := ⟨0x17, 0x260, 7, 0⟩
def TTH_CLAIM_STAT.LAST_EPOCH : FRef := ⟨0x17, 0x268, 62, 32⟩
def TTH_CLAIM_STAT.BUSY : FRef := ⟨0x17, 0x268, 31, 31⟩
def TTH_CLAIM_STAT.DONE : FRef := ⟨0x17, 0x268, 30, 30⟩
def TTH_CLAIM_STAT.ACCEPTED : FRef := ⟨0x17, 0x268, 23, 0⟩
def MDA_SLED_TAB.ADDR : FRef := ⟨0x16, 0x200, 39, 12⟩
def MDA_BLKTAB.ADDR : FRef := ⟨0x16, 0x208, 39, 12⟩
def MDA_THR_TAB.ADDR : FRef := ⟨0x16, 0x210, 39, 12⟩
def MDA_GL_TAB.ADDR : FRef := ⟨0x16, 0x218, 39, 12⟩
def MDA_GL_BASE.NS : FRef := ⟨0x16, 0x220, 63, 0⟩
def MDA_GL_START.NS : FRef := ⟨0x16, 0x228, 63, 0⟩
def MDA_GL_LATE.LATE_START : FRef := ⟨0x16, 0x230, 32, 32⟩
def MDA_GL_LATE.COUNT : FRef := ⟨0x16, 0x230, 31, 0⟩
def MDA_SLEDS.VALID : FRef := ⟨0x16, 0x238, 23, 0⟩
def MDA_THERM.THROTTLED : FRef := ⟨0x16, 0x240, 15, 8⟩
def MDA_THERM.HYST : FRef := ⟨0x16, 0x240, 3, 0⟩
def MDA_SUSP.SCHEDULED : FRef := ⟨0x16, 0x248, 63, 32⟩
def MDA_SUSP.G1 : FRef := ⟨0x16, 0x248, 31, 0⟩
def MDA_DECODE.L4 : FRef := ⟨0x16, 0x250, 63, 48⟩
def MDA_DECODE.L3 : FRef := ⟨0x16, 0x250, 47, 32⟩
def MDA_DECODE.L2 : FRef := ⟨0x16, 0x250, 31, 16⟩
def MDA_DECODE.L1 : FRef := ⟨0x16, 0x250, 15, 0⟩
def MDA_UNRECOV.TAG_FAIL : FRef := ⟨0x16, 0x258, 63, 32⟩
def MDA_UNRECOV.COUNT : FRef := ⟨0x16, 0x258, 31, 0⟩
def MDA_TIMING.SLED : FRef := ⟨0x16, 0x260, 39, 32⟩
def MDA_TIMING.COUNT : FRef := ⟨0x16, 0x260, 31, 0⟩
def MDA_SLED_RELOAD.GO : FRef := ⟨0x16, 0x268, 63, 63⟩
def MDA_SLED_RELOAD.RESULT : FRef := ⟨0x16, 0x268, 39, 32⟩
def MDA_SLED_RELOAD.BUSY : FRef := ⟨0x16, 0x268, 31, 31⟩
def MDA_SLED_RELOAD.SLED : FRef := ⟨0x16, 0x268, 4, 0⟩
def STRIPE_GEOM.K : FRef := ⟨0x15, 0x200, 15, 8⟩
def STRIPE_GEOM.M : FRef := ⟨0x15, 0x200, 7, 0⟩
def STRIPE_BAND_TAB.ADDR : FRef := ⟨0x15, 0x208, 39, 12⟩
def STRIPE_BAND_LEN.ENTRIES : FRef := ⟨0x15, 0x210, 24, 0⟩
def STRIPE_MOVE_BUF.BASE_MIB : FRef := ⟨0x15, 0x218, 31, 0⟩
def STRIPE_GC.FREE_LOW : FRef := ⟨0x15, 0x220, 31, 16⟩
def STRIPE_GC.FREE_CRIT : FRef := ⟨0x15, 0x220, 15, 0⟩
def STRIPE_QUEUE.LOW : FRef := ⟨0x15, 0x228, 31, 16⟩
def STRIPE_QUEUE.LEN : FRef := ⟨0x15, 0x228, 15, 0⟩
def STRIPE_FILL.US : FRef := ⟨0x15, 0x230, 15, 0⟩
def STRIPE_RELOC.RETAIN_DAYS : FRef := ⟨0x15, 0x238, 47, 32⟩
def STRIPE_RELOC.DISTURB : FRef := ⟨0x15, 0x238, 31, 0⟩
def STRIPE_WEAR.SPREAD : FRef := ⟨0x15, 0x240, 15, 0⟩
def STRIPE_REBUILD.BANDS_LEFT : FRef := ⟨0x15, 0x248, 63, 32⟩
def STRIPE_REBUILD.GRACE_S : FRef := ⟨0x15, 0x248, 11, 0⟩
def STRIPE_SLED.STATE : FRef := ⟨0x15, 0x250, 47, 0⟩
def STRIPE_SLED_CMD.GO : FRef := ⟨0x15, 0x258, 63, 63⟩
def STRIPE_SLED_CMD.ACT : FRef := ⟨0x15, 0x258, 9, 8⟩
def STRIPE_SLED_CMD.SLED : FRef := ⟨0x15, 0x258, 4, 0⟩
def STRIPE_BANDS.OLD_GEOM : FRef := ⟨0x15, 0x260, 63, 48⟩
def STRIPE_BANDS.CLOSED : FRef := ⟨0x15, 0x260, 47, 24⟩
def STRIPE_BANDS.FREE : FRef := ⟨0x15, 0x260, 23, 0⟩
def STRIPE_DUMP.LAST_UNITS : FRef := ⟨0x15, 0x268, 47, 24⟩
def STRIPE_DUMP.READY : FRef := ⟨0x15, 0x268, 23, 16⟩
def STRIPE_DUMP.BANDS : FRef := ⟨0x15, 0x268, 7, 0⟩
def STRIPE_SPARE.RETIRED : FRef := ⟨0x15, 0x270, 63, 32⟩
def STRIPE_SPARE.PCT : FRef := ⟨0x15, 0x270, 7, 0⟩
def STRIPE_LOSS.REBUILT : FRef := ⟨0x15, 0x278, 63, 32⟩
def STRIPE_LOSS.UNITS : FRef := ⟨0x15, 0x278, 31, 0⟩
def STRIPE_GCSTAT.ERASED : FRef := ⟨0x15, 0x280, 63, 32⟩
def STRIPE_GCSTAT.MOVED : FRef := ⟨0x15, 0x280, 31, 0⟩
def PRT_CFG.MTU : FRef := ⟨0x8, 0x200, 29, 16⟩
def PRT_CFG.SUBEN : FRef := ⟨0x8, 0x200, 11, 8⟩
def PRT_CFG.MEDIA : FRef := ⟨0x8, 0x200, 4, 3⟩
def PRT_CFG.AN : FRef := ⟨0x8, 0x200, 2, 2⟩
def PRT_CFG.MODE : FRef := ⟨0x8, 0x200, 1, 0⟩
def PRT_LINK.DOWN_EVENTS : FRef := ⟨0x8, 0x208, 63, 48⟩
def PRT_LINK.LOCK : FRef := ⟨0x8, 0x208, 11, 8⟩
def PRT_LINK.UP : FRef := ⟨0x8, 0x208, 3, 0⟩
def PRT_FEC.UNCORR : FRef := ⟨0x8, 0x210, 63, 32⟩
def PRT_FEC.CORR : FRef := ⟨0x8, 0x210, 31, 0⟩
def PRT_DROP.CTRL : FRef := ⟨0x8, 0x218, 63, 48⟩
def PRT_DROP.OVERSIZE : FRef := ⟨0x8, 0x218, 47, 32⟩
def PRT_DROP.RUNT : FRef := ⟨0x8, 0x218, 31, 16⟩
def PRT_DROP.FCS : FRef := ⟨0x8, 0x218, 15, 0⟩
def PRT_TSCOMP.TX : FRef := ⟨0x8, 0x220, 31, 16⟩
def PRT_TSCOMP.RX : FRef := ⟨0x8, 0x220, 15, 0⟩
def TIM_CTRL.PPS_IN_EN : FRef := ⟨0x9, 0x200, 2, 2⟩
def TIM_CTRL.PPS_OUT_EN : FRef := ⟨0x9, 0x200, 1, 1⟩
def TIM_CTRL.SYNC : FRef := ⟨0x9, 0x200, 0, 0⟩
def TIM_NOW.NS : FRef := ⟨0x9, 0x208, 63, 0⟩
def TIM_STEP.NS : FRef := ⟨0x9, 0x210, 63, 0⟩
def TIM_FREQ.ADJ : FRef := ⟨0x9, 0x218, 31, 0⟩
def TIM_SLEW.OFFSET : FRef := ⟨0x9, 0x220, 63, 32⟩
def TIM_SLEW.RATE_PPM : FRef := ⟨0x9, 0x220, 7, 0⟩
def TIM_STATUS.SLEWING : FRef := ⟨0x9, 0x228, 1, 1⟩
def TIM_STATUS.MONO : FRef := ⟨0x9, 0x228, 0, 0⟩
def TIM_PPS_IN.NS : FRef := ⟨0x9, 0x230, 63, 0⟩
def TIM_TXTS.TAG : FRef := ⟨0x9, 0x240, 63, 48⟩
def TIM_TXTS.NS : FRef := ⟨0x9, 0x240, 47, 0⟩
def PRS_GRAPH.ADDR : FRef := ⟨0xa, 0x200, 39, 12⟩
def PRS_CFG.RECIRC : FRef := ⟨0xa, 0x208, 13, 13⟩
def PRS_CFG.MAX_DEPTH : FRef := ⟨0xa, 0x208, 12, 8⟩
def PRS_CFG.START : FRef := ⟨0xa, 0x208, 7, 0⟩
def PRS_STAT.RECIRC : FRef := ⟨0xa, 0x210, 63, 32⟩
def PRS_STAT.FRAMES : FRef := ⟨0xa, 0x210, 31, 0⟩
def PRS_EXC.NO_NODE : FRef := ⟨0xa, 0x218, 63, 48⟩
def PRS_EXC.TRUNCATED : FRef := ⟨0xa, 0x218, 47, 32⟩
def PRS_EXC.LENGTH : FRef := ⟨0xa, 0x218, 31, 16⟩
def PRS_EXC.TOO_DEEP : FRef := ⟨0xa, 0x218, 15, 0⟩
def PRS_CSUM.COUNT : FRef := ⟨0xa, 0x220, 31, 0⟩
def PRS_GFAIL.NODE : FRef := ⟨0xa, 0x228, 7, 0⟩
def CLS_CFG.PROFILE : FRef := ⟨0xb, 0x200, 0, 0⟩
def CLS_STAGE.EN : FRef := ⟨0xb, 0x208, 63, 63⟩
def CLS_STAGE.REQUIRED : FRef := ⟨0xb, 0x208, 62, 62⟩
def CLS_STAGE.LOG2 : FRef := ⟨0xb, 0x208, 54, 51⟩
def CLS_STAGE.BASE : FRef := ⟨0xb, 0x208, 50, 36⟩
def CLS_STAGE.SEG : FRef := ⟨0xb, 0x208, 24, 0⟩
def CLS_TCAM_KEY.SEG : FRef := ⟨0xb, 0x228, 31, 0⟩
def CLS_DEFAULT_LO.ACTION : FRef := ⟨0xb, 0x230, 63, 0⟩
def CLS_DEFAULT_HI.ACTION : FRef := ⟨0xb, 0x238, 63, 0⟩
def CLS_RSS_SEL.NSEG : FRef := ⟨0xb, 0x240, 63, 60⟩
def CLS_RSS_SEL.SEG : FRef := ⟨0xb, 0x240, 44, 0⟩
def CLS_RSS_KEY.KEY : FRef := ⟨0xb, 0x248, 63, 0⟩
def CLS_EXC.TO_WARDEN_C : FRef := ⟨0xb, 0x270, 10, 8⟩
def CLS_EXC.TO_WARDEN_P : FRef := ⟨0xb, 0x270, 4, 0⟩
def CLS_WRING.ADDR : FRef := ⟨0xb, 0x278, 39, 12⟩
def CLS_WRING.LOG2 : FRef := ⟨0xb, 0x278, 3, 0⟩
def CLS_WRING_IDX.HEAD : FRef := ⟨0xb, 0x280, 27, 16⟩
def CLS_WRING_IDX.TAIL : FRef := ⟨0xb, 0x280, 11, 0⟩
def CLS_UPD_ADDR.ADDR : FRef := ⟨0xb, 0x288, 39, 0⟩
def CLS_UPD_CTRL.GO : FRef := ⟨0xb, 0x290, 63, 63⟩
def CLS_UPD_CTRL.BUSY : FRef := ⟨0xb, 0x290, 62, 62⟩
def CLS_UPD_CTRL.RESULT : FRef := ⟨0xb, 0x290, 55, 48⟩
def CLS_UPD_CTRL.FAIL_AT : FRef := ⟨0xb, 0x290, 47, 32⟩
def CLS_UPD_CTRL.COUNT : FRef := ⟨0xb, 0x290, 31, 16⟩
def CLS_UPD_CTRL.PORTS : FRef := ⟨0xb, 0x290, 15, 0⟩
def CLS_VERDICT.EXCEPTION : FRef := ⟨0xb, 0x298, 63, 32⟩
def CLS_VERDICT.DROP : FRef := ⟨0xb, 0x298, 31, 0⟩
def CLS_WRING_LOST.COUNT : FRef := ⟨0xb, 0x2a0, 31, 0⟩
def CLS_OCC.TCAM : FRef := ⟨0xb, 0x2a8, 46, 32⟩
def CLS_OCC.EM : FRef := ⟨0xb, 0x2a8, 16, 0⟩
def XPT_CFG.SPILL_GRANT : FRef := ⟨0xc, 0x200, 23, 16⟩
def XPT_CFG.CREDIT_MAX : FRef := ⟨0xc, 0x200, 15, 8⟩
def XPT_CFG.CNP_EN : FRef := ⟨0xc, 0x200, 4, 4⟩
def XPT_CFG.WRITE_FENCE : FRef := ⟨0xc, 0x200, 3, 3⟩
def XPT_CFG.PMTU : FRef := ⟨0xc, 0x200, 2, 0⟩
def XPT_CTX.MAX : FRef := ⟨0xc, 0x208, 50, 32⟩
def XPT_CTX.RESIDENT : FRef := ⟨0xc, 0x208, 13, 0⟩
def XPT_SPILL.ADDR : FRef := ⟨0xc, 0x210, 39, 12⟩
def XPT_TIMER.ACK_COAL : FRef := ⟨0xc, 0x218, 31, 24⟩
def XPT_TIMER.RETRY_CNT : FRef := ⟨0xc, 0x218, 19, 16⟩
def XPT_TIMER.ACK_TO_US : FRef := ⟨0xc, 0x218, 15, 0⟩
def XPT_CTX_CMD.GO : FRef := ⟨0xc, 0x220, 63, 63⟩
def XPT_CTX_CMD.BUSY : FRef := ⟨0xc, 0x220, 62, 62⟩
def XPT_CTX_CMD.OP : FRef := ⟨0xc, 0x220, 58, 56⟩
def XPT_CTX_CMD.RESULT : FRef := ⟨0xc, 0x220, 55, 48⟩
def XPT_CTX_CMD.CONTEXT : FRef := ⟨0xc, 0x220, 17, 0⟩
def XPT_CTX_IMG.ADDR : FRef := ⟨0xc, 0x228, 39, 0⟩
def XPT_OCC.OPEN : FRef := ⟨0xc, 0x230, 50, 32⟩
def XPT_OCC.RESIDENT : FRef := ⟨0xc, 0x230, 13, 0⟩
def XPT_MISS.DROPS : FRef := ⟨0xc, 0x238, 63, 32⟩
def XPT_MISS.FETCHES : FRef := ⟨0xc, 0x238, 31, 0⟩
def XPT_RETX.TIMEOUTS : FRef := ⟨0xc, 0x240, 63, 32⟩
def XPT_RETX.NAK_SEQ : FRef := ⟨0xc, 0x240, 31, 0⟩
def XPT_DROP.DUPLICATE : FRef := ⟨0xc, 0x248, 63, 32⟩
def XPT_DROP.TENANT : FRef := ⟨0xc, 0x248, 31, 0⟩
def XPT_FAIL.REFUSED : FRef := ⟨0xc, 0x250, 63, 32⟩
def XPT_FAIL.ERRORS : FRef := ⟨0xc, 0x250, 31, 0⟩
def XPT_CNP.RECEIVED : FRef := ⟨0xc, 0x258, 63, 32⟩
def XPT_CNP.SENT : FRef := ⟨0xc, 0x258, 31, 0⟩
def STR_CFG.MAXH2C_KIB : FRef := ⟨0xd, 0x200, 39, 32⟩
def STR_CFG.RWND_KIB : FRef := ⟨0xd, 0x200, 31, 16⟩
def STR_CFG.R2T_MAX : FRef := ⟨0xd, 0x200, 15, 8⟩
def STR_CFG.DDGST_OK : FRef := ⟨0xd, 0x200, 1, 1⟩
def STR_CFG.HDGST_OK : FRef := ⟨0xd, 0x200, 0, 0⟩
def STR_CTX.MAX : FRef := ⟨0xd, 0x208, 50, 32⟩
def STR_CTX.RESIDENT : FRef := ⟨0xd, 0x208, 13, 0⟩
def STR_SPILL.ADDR : FRef := ⟨0xd, 0x210, 39, 12⟩
def STR_LISTEN.EN : FRef := ⟨0xd, 0x218, 63, 63⟩
def STR_LISTEN.TLS : FRef := ⟨0xd, 0x218, 62, 62⟩
def STR_LISTEN.PORT : FRef := ⟨0xd, 0x218, 15, 0⟩
def STR_TCP.RETRIES : FRef := ⟨0xd, 0x238, 19, 16⟩
def STR_TCP.RTO_MIN_US : FRef := ⟨0xd, 0x238, 15, 0⟩
def STR_CTX_CMD.GO : FRef := ⟨0xd, 0x240, 63, 63⟩
def STR_CTX_CMD.BUSY : FRef := ⟨0xd, 0x240, 62, 62⟩
def STR_CTX_CMD.OP : FRef := ⟨0xd, 0x240, 58, 56⟩
def STR_CTX_CMD.RESULT : FRef := ⟨0xd, 0x240, 55, 48⟩
def STR_CTX_CMD.KEY_SLOT : FRef := ⟨0xd, 0x240, 45, 32⟩
def STR_CTX_CMD.CONTEXT : FRef := ⟨0xd, 0x240, 17, 0⟩
def STR_OCC.OPEN : FRef := ⟨0xd, 0x248, 50, 32⟩
def STR_OCC.RESIDENT : FRef := ⟨0xd, 0x248, 13, 0⟩
def STR_MISS.DROPS : FRef := ⟨0xd, 0x250, 63, 48⟩
def STR_MISS.TENANT : FRef := ⟨0xd, 0x250, 47, 32⟩
def STR_MISS.FETCHES : FRef := ⟨0xd, 0x250, 31, 0⟩
def STR_TLS.HARD_CLOSE : FRef := ⟨0xd, 0x258, 63, 48⟩
def STR_TLS.KEYUPDATE : FRef := ⟨0xd, 0x258, 47, 32⟩
def STR_TLS.TAG_FAIL : FRef := ⟨0xd, 0x258, 31, 0⟩
def STR_ERR.DIGEST : FRef := ⟨0xd, 0x260, 63, 48⟩
def STR_ERR.REFUSED : FRef := ⟨0xd, 0x260, 47, 32⟩
def STR_ERR.RETX : FRef := ⟨0xd, 0x260, 31, 0⟩
def SWT_CFG.AUDIT_MS : FRef := ⟨0xe, 0x200, 31, 16⟩
def SWT_CFG.EGR_RSV_PCT : FRef := ⟨0xe, 0x200, 15, 8⟩
def SWT_CFG.OVF_EN : FRef := ⟨0xe, 0x200, 0, 0⟩
def SWT_OVF.LIMIT_MIB : FRef := ⟨0xe, 0x208, 63, 32⟩
def SWT_OVF.BASE_MIB : FRef := ⟨0xe, 0x208, 31, 0⟩
def SWT_OVF_THR.POOL_PCT : FRef := ⟨0xe, 0x210, 23, 16⟩
def SWT_OVF_THR.QUEUE_KIB : FRef := ⟨0xe, 0x210, 15, 0⟩
def SWT_RED.G_MIN : FRef := ⟨0xe, 0x218, 63, 56⟩
def SWT_RED.G_MAX : FRef := ⟨0xe, 0x218, 55, 48⟩
def SWT_RED.Y_MIN : FRef := ⟨0xe, 0x218, 47, 40⟩
def SWT_RED.Y_MAX : FRef := ⟨0xe, 0x218, 39, 32⟩
def SWT_RED.PMAX : FRef := ⟨0xe, 0x218, 31, 24⟩
def SWT_RED.WEIGHT : FRef := ⟨0xe, 0x218, 19, 16⟩
def SWT_RED.ECN : FRef := ⟨0xe, 0x218, 0, 0⟩
def SWT_OCC.DRAM_MIB : FRef := ⟨0xe, 0x258, 47, 32⟩
def SWT_OCC.CELLS : FRef := ⟨0xe, 0x258, 16, 0⟩
def SWT_DROP.YELLOW : FRef := ⟨0xe, 0x260, 63, 32⟩
def SWT_DROP.GREEN : FRef := ⟨0xe, 0x260, 31, 0⟩
def SWT_ECN.MARKED : FRef := ⟨0xe, 0x268, 31, 0⟩
def SWT_OVFSTAT.FULL_DROPS : FRef := ⟨0xe, 0x270, 63, 32⟩
def SWT_OVFSTAT.OVERFLOWS : FRef := ⟨0xe, 0x270, 31, 0⟩
def SWT_AUDIT.LEAKED : FRef := ⟨0xe, 0x278, 63, 32⟩
def SWT_AUDIT.RUNS : FRef := ⟨0xe, 0x278, 31, 0⟩
def SWT_RESEQ.GAPS : FRef := ⟨0xe, 0x280, 63, 32⟩
def SWT_RESEQ.HELD : FRef := ⟨0xe, 0x280, 31, 0⟩
def SWT_QDESC.WAITS : FRef := ⟨0xe, 0x288, 63, 32⟩
def SWT_QDESC.IN_USE : FRef := ⟨0xe, 0x288, 17, 0⟩
def SCH_CFG.STRICT : FRef := ⟨0xf, 0x200, 15, 8⟩
def SCH_CFG.GATES_EN : FRef := ⟨0xf, 0x200, 0, 0⟩
def SCH_TC_WEIGHT.WEIGHT : FRef := ⟨0xf, 0x208, 63, 0⟩
def SCH_TEN_TAB.ADDR : FRef := ⟨0xf, 0x210, 39, 12⟩
def SCH_POL_TAB.ADDR : FRef := ⟨0xf, 0x218, 39, 12⟩
def SCH_TEN_UPDATE.GO : FRef := ⟨0xf, 0x220, 63, 63⟩
def SCH_TEN_UPDATE.RESULT : FRef := ⟨0xf, 0x220, 39, 32⟩
def SCH_TEN_UPDATE.BUSY : FRef := ⟨0xf, 0x220, 31, 31⟩
def SCH_TEN_UPDATE.TENANT : FRef := ⟨0xf, 0x220, 11, 0⟩
def SCH_POL_UPDATE.GO : FRef := ⟨0xf, 0x228, 63, 63⟩
def SCH_POL_UPDATE.RESULT : FRef := ⟨0xf, 0x228, 39, 32⟩
def SCH_POL_UPDATE.BUSY : FRef := ⟨0xf, 0x228, 31, 31⟩
def SCH_POL_UPDATE.POLICER : FRef := ⟨0xf, 0x228, 13, 0⟩
def SCH_GL_TAB.ADDR : FRef := ⟨0xf, 0x230, 39, 12⟩
def SCH_GL_BASE.NS : FRef := ⟨0xf, 0x238, 63, 0⟩
def SCH_GL_START.NS : FRef := ⟨0xf, 0x240, 63, 0⟩
def SCH_GL_LATE.LATE_START : FRef := ⟨0xf, 0x248, 32, 32⟩
def SCH_GL_LATE.COUNT : FRef := ⟨0xf, 0x248, 31, 0⟩
def SCH_HOLD.HOLD_MS : FRef := ⟨0xf, 0x250, 63, 0⟩
def SCH_CNP.MIN : FRef := ⟨0xf, 0x260, 63, 48⟩
def SCH_CNP.STEP : FRef := ⟨0xf, 0x260, 47, 32⟩
def SCH_CNP.RECOVER_US : FRef := ⟨0xf, 0x260, 31, 16⟩
def SCH_CNP.CUT : FRef := ⟨0xf, 0x260, 7, 0⟩
def SCH_POL_DROP.MISMATCH : FRef := ⟨0xf, 0x268, 63, 32⟩
def SCH_POL_DROP.RED : FRef := ⟨0xf, 0x268, 31, 0⟩
def SCH_HELD.DOWN_DROP : FRef := ⟨0xf, 0x270, 63, 32⟩
def SCH_HELD.FREED : FRef := ⟨0xf, 0x270, 31, 0⟩
def SCH_CNP_OCC.EVICTED : FRef := ⟨0xf, 0x278, 63, 32⟩
def SCH_CNP_OCC.IN_USE : FRef := ⟨0xf, 0x278, 12, 0⟩
def CPH_LOAD.ADDR : FRef := ⟨0x18, 0x200, 39, 0⟩
def CPH_LOAD_CTRL.GO : FRef := ⟨0x18, 0x208, 63, 63⟩
def CPH_LOAD_CTRL.BUSY : FRef := ⟨0x18, 0x208, 62, 62⟩
def CPH_LOAD_CTRL.RESULT : FRef := ⟨0x18, 0x208, 47, 40⟩
def CPH_LOAD_CTRL.SESSION : FRef := ⟨0x18, 0x208, 14, 14⟩
def CPH_LOAD_CTRL.SLOT : FRef := ⟨0x18, 0x208, 13, 0⟩
def CPH_XTS_LIMIT.SOFT_LOG2 : FRef := ⟨0x18, 0x210, 15, 8⟩
def CPH_XTS_LIMIT.HARD_LOG2 : FRef := ⟨0x18, 0x210, 7, 0⟩
def CPH_GCM_LIMIT.SOFT : FRef := ⟨0x18, 0x218, 63, 32⟩
def CPH_GCM_LIMIT.HARD : FRef := ⟨0x18, 0x218, 31, 0⟩
def CPH_SLOT_SEL.SESSION : FRef := ⟨0x18, 0x220, 14, 14⟩
def CPH_SLOT_SEL.SLOT : FRef := ⟨0x18, 0x220, 13, 0⟩
def CPH_SLOT_STAT.USED : FRef := ⟨0x18, 0x228, 63, 24⟩
def CPH_SLOT_STAT.GEN : FRef := ⟨0x18, 0x228, 23, 16⟩
def CPH_SLOT_STAT.DRAINING : FRef := ⟨0x18, 0x228, 9, 8⟩
def CPH_SLOT_STAT.STANDBY : FRef := ⟨0x18, 0x228, 7, 7⟩
def CPH_SLOT_STAT.STATE : FRef := ⟨0x18, 0x228, 1, 0⟩
def CPH_DESTROY.GO : FRef := ⟨0x18, 0x230, 63, 63⟩
def CPH_DESTROY.BUSY : FRef := ⟨0x18, 0x230, 62, 62⟩
def CPH_DESTROY.ALL : FRef := ⟨0x18, 0x230, 15, 15⟩
def CPH_DESTROY.SESSION : FRef := ⟨0x18, 0x230, 14, 14⟩
def CPH_DESTROY.SLOT : FRef := ⟨0x18, 0x230, 13, 0⟩
def CPH_STAT.GCM_TAG_FAIL : FRef := ⟨0x18, 0x238, 63, 32⟩
def CPH_STAT.PI_FAIL : FRef := ⟨0x18, 0x238, 31, 0⟩
def CPH_ROTATE.DEFERRED : FRef := ⟨0x18, 0x240, 63, 32⟩
def CPH_ROTATE.PROMOTED : FRef := ⟨0x18, 0x240, 31, 0⟩
def CPH_OCC.SESSION : FRef := ⟨0x18, 0x248, 45, 32⟩
def CPH_OCC.DATA : FRef := ⟨0x18, 0x248, 14, 0⟩
def BLY_CFG.LINK_GRACE_US : FRef := ⟨0x19, 0x200, 47, 32⟩
def BLY_CFG.TIME_TOL_NS : FRef := ⟨0x19, 0x200, 31, 16⟩
def BLY_CFG.LINK_EN : FRef := ⟨0x19, 0x200, 0, 0⟩
def BLY_HOME.GROUPS : FRef := ⟨0x19, 0x208, 63, 0⟩
def BLY_STATUS.SAME_FW : FRef := ⟨0x19, 0x210, 15, 15⟩
def BLY_STATUS.PEER_UNIT : FRef := ⟨0x19, 0x210, 14, 14⟩
def BLY_STATUS.PINS_UP : FRef := ⟨0x19, 0x210, 11, 11⟩
def BLY_STATUS.LINK_UP : FRef := ⟨0x19, 0x210, 10, 10⟩
def BLY_STATUS.PHYS : FRef := ⟨0x19, 0x210, 9, 8⟩
def BLY_STATUS.STATE : FRef := ⟨0x19, 0x210, 2, 0⟩
def BLY_EPOCH.PEER : FRef := ⟨0x19, 0x218, 62, 32⟩
def BLY_EPOCH.OWN : FRef := ⟨0x19, 0x218, 30, 0⟩
def BLY_TIME.DELAY_NS : FRef := ⟨0x19, 0x220, 63, 32⟩
def BLY_TIME.OFFSET_NS : FRef := ⟨0x19, 0x220, 31, 0⟩
def BLY_PCTX_TAB.ADDR : FRef := ⟨0x19, 0x228, 39, 12⟩
def BLY_MIRROR.CONF_CYCLE : FRef := ⟨0x19, 0x230, 47, 0⟩
def BLY_CONF_LAT.TREC_MAX_NS : FRef := ⟨0x19, 0x238, 63, 32⟩
def BLY_CONF_LAT.G1_MAX_NS : FRef := ⟨0x19, 0x238, 31, 0⟩
def BLY_BEATS.PIN_MISSED : FRef := ⟨0x19, 0x240, 63, 32⟩
def BLY_BEATS.LINK_MISSED : FRef := ⟨0x19, 0x240, 31, 0⟩
def BLY_LAST_T0.NS : FRef := ⟨0x19, 0x248, 63, 0⟩
def BLY_COUNT.REJOINS : FRef := ⟨0x19, 0x250, 63, 32⟩
def BLY_COUNT.TAKEOVERS : FRef := ⟨0x19, 0x250, 31, 0⟩
def BLY_FWD.RECEIVED : FRef := ⟨0x19, 0x258, 63, 32⟩
def BLY_FWD.SENT : FRef := ⟨0x19, 0x258, 31, 0⟩
def BLY_CMD.GO : FRef := ⟨0x19, 0x260, 63, 63⟩
def BLY_CMD.BUSY : FRef := ⟨0x19, 0x260, 62, 62⟩
def BLY_CMD.OP : FRef := ⟨0x19, 0x260, 57, 56⟩
def BLY_CMD.RESULT : FRef := ⟨0x19, 0x260, 55, 48⟩
def MGMT_RCV_DATA.DATA : FRef := ⟨0x1c, 0x300, 63, 0⟩
def MGMT_RCV_CTRL.BOOT : FRef := ⟨0x1c, 0x308, 0, 0⟩
def SPT_CFG.INJECT_EN : FRef := ⟨0x3, 0x200, 16, 16⟩
def SPT_CFG.DIAG_MS : FRef := ⟨0x3, 0x200, 13, 8⟩
def SPT_CFG.ST_PCT : FRef := ⟨0x3, 0x200, 2, 0⟩
def SPT_REACT.REACT : FRef := ⟨0x3, 0x208, 63, 0⟩
def SPT_LAST.CLASS : FRef := ⟨0x3, 0x210, 63, 56⟩
def SPT_LAST.BLOCK : FRef := ⟨0x3, 0x210, 55, 48⟩
def SPT_LAST.INSTANCE : FRef := ⟨0x3, 0x210, 47, 40⟩
def SPT_LAST.REACTION : FRef := ⟨0x3, 0x210, 39, 32⟩
def SPT_LAST.DETAIL : FRef := ⟨0x3, 0x210, 31, 0⟩
def SPT_LAST_NS.NS : FRef := ⟨0x3, 0x218, 63, 0⟩
def SPT_FAULTS.LATENT : FRef := ⟨0x3, 0x220, 63, 32⟩
def SPT_FAULTS.ALL : FRef := ⟨0x3, 0x220, 31, 0⟩
def SPT_SAFE.BLOCKS : FRef := ⟨0x3, 0x228, 28, 0⟩
def SPT_ST_CTRL.RUN : FRef := ⟨0x3, 0x230, 63, 63⟩
def SPT_ST_STAT.PASSES : FRef := ⟨0x3, 0x238, 63, 32⟩
def SPT_ST_STAT.LAST_FAIL : FRef := ⟨0x3, 0x238, 31, 16⟩
def SPT_ST_STAT.LAST_MS : FRef := ⟨0x3, 0x238, 15, 0⟩
def SPT_INJECT.GO : FRef := ⟨0x3, 0x240, 63, 63⟩
def SPT_INJECT.BLOCK : FRef := ⟨0x3, 0x240, 15, 8⟩
def SPT_INJECT.CLASS : FRef := ⟨0x3, 0x240, 7, 0⟩
def ANC_BOOT.SVN : FRef := ⟨0x1, 0x200, 63, 32⟩
def ANC_BOOT.LIFECYCLE : FRef := ⟨0x1, 0x200, 22, 20⟩
def ANC_BOOT.OWNER : FRef := ⟨0x1, 0x200, 17, 16⟩
def ANC_BOOT.STAGE : FRef := ⟨0x1, 0x200, 11, 8⟩
def ANC_BOOT.BOOT_MODE : FRef := ⟨0x1, 0x200, 0, 0⟩
def ANC_MEAS_SEL.WORD : FRef := ⟨0x1, 0x208, 6, 4⟩
def ANC_MEAS_SEL.INDEX : FRef := ⟨0x1, 0x208, 3, 0⟩
def ANC_MEAS.DATA : FRef := ⟨0x1, 0x210, 63, 0⟩
def ANC_FUSE_SEL.WORD : FRef := ⟨0x1, 0x218, 5, 0⟩
def ANC_FUSE.DATA : FRef := ⟨0x1, 0x220, 63, 0⟩
def ANC_REQ.ADDR : FRef := ⟨0x1, 0x228, 39, 0⟩
def ANC_REQ_CTRL.GO : FRef := ⟨0x1, 0x230, 63, 63⟩
def ANC_REQ_CTRL.BUSY : FRef := ⟨0x1, 0x230, 62, 62⟩
def ANC_REQ_CTRL.RESULT : FRef := ⟨0x1, 0x230, 55, 48⟩
def ANC_REQ_CTRL.OP : FRef := ⟨0x1, 0x230, 7, 0⟩
def ANC_KEK.KEK_ID : FRef := ⟨0x1, 0x238, 63, 8⟩
def ANC_KEK.LOADED : FRef := ⟨0x1, 0x238, 0, 0⟩
def ANC_SIGNS.METER : FRef := ⟨0x1, 0x240, 63, 32⟩
def ANC_SIGNS.ATTEST : FRef := ⟨0x1, 0x240, 31, 0⟩
def CAMP_RST_CAUSE.COUNT : FRef := ⟨0x0, 0x200, 63, 32⟩
def CAMP_RST_CAUSE.PFAIL : FRef := ⟨0x0, 0x200, 5, 5⟩
def CAMP_RST_CAUSE.WDOG : FRef := ⟨0x0, 0x200, 4, 4⟩
def CAMP_RST_CAUSE.WARM_REQ : FRef := ⟨0x0, 0x200, 3, 3⟩
def CAMP_RST_CAUSE.PIN : FRef := ⟨0x0, 0x200, 2, 2⟩
def CAMP_RST_CAUSE.COLD : FRef := ⟨0x0, 0x200, 1, 1⟩
def CAMP_WRST.KEY : FRef := ⟨0x0, 0x208, 15, 0⟩
def CAMP_STRAP.BOOT_MODE : FRef := ⟨0x0, 0x210, 1, 1⟩
def CAMP_STRAP.UNIT_ID : FRef := ⟨0x0, 0x210, 0, 0⟩
def CAMP_PLL.LOCK : FRef := ⟨0x0, 0x218, 48, 32⟩
def CAMP_PLL.RUN : FRef := ⟨0x0, 0x218, 16, 0⟩
def CAMP_DOM_SEL.DOMAIN : FRef := ⟨0x0, 0x220, 6, 0⟩
def CAMP_DOM.STATE : FRef := ⟨0x0, 0x228, 14, 12⟩
def CAMP_DOM.MOVING : FRef := ⟨0x0, 0x228, 11, 11⟩
def CAMP_DOM.FLOOR : FRef := ⟨0x0, 0x228, 10, 8⟩
def CAMP_DOM.TARGET : FRef := ⟨0x0, 0x228, 6, 4⟩
def CAMP_DOM.REQ : FRef := ⟨0x0, 0x228, 2, 0⟩
def CAMP_SAVE.BASE_MIB : FRef := ⟨0x0, 0x230, 31, 0⟩
def CAMP_PS.WAKES : FRef := ⟨0x0, 0x238, 63, 32⟩
def CAMP_PS.MOVING : FRef := ⟨0x0, 0x238, 12, 12⟩
def CAMP_PS.CUR : FRef := ⟨0x0, 0x238, 9, 8⟩
def CAMP_PS.REQ : FRef := ⟨0x0, 0x238, 1, 0⟩
def CAMP_PFAIL_CFG.AUTO_WARM : FRef := ⟨0x0, 0x248, 8, 8⟩
def CAMP_PFAIL_CFG.FILTER : FRef := ⟨0x0, 0x248, 7, 0⟩
def CAMP_PFAIL_REC.GLITCHES : FRef := ⟨0x0, 0x250, 63, 48⟩
def CAMP_PFAIL_REC.EVENTS : FRef := ⟨0x0, 0x250, 47, 32⟩
def CAMP_PFAIL_REC.LAST_US : FRef := ⟨0x0, 0x250, 31, 0⟩
def CAMP_PFAIL_NS.NS : FRef := ⟨0x0, 0x258, 63, 0⟩
def TLY_METER_CFG.EN : FRef := ⟨0x5, 0x200, 0, 0⟩
def TLY_METER_RING.ADDR : FRef := ⟨0x5, 0x208, 39, 12⟩
def TLY_METER_RING.SLOTS : FRef := ⟨0x5, 0x208, 6, 0⟩
def TLY_METER_IDX.HEAD : FRef := ⟨0x5, 0x210, 22, 16⟩
def TLY_METER_IDX.TAIL : FRef := ⟨0x5, 0x210, 6, 0⟩
def TLY_METER_SEQ.VALUE : FRef := ⟨0x5, 0x218, 63, 0⟩
def TLY_METER_END.VALUE : FRef := ⟨0x5, 0x220, 63, 0⟩
def TLY_METER_GAPS.SPANS : FRef := ⟨0x5, 0x228, 63, 32⟩
def TLY_METER_GAPS.HELD : FRef := ⟨0x5, 0x228, 31, 0⟩
def TLY_TEN_SEL.INDEX : FRef := ⟨0x5, 0x230, 19, 16⟩
def TLY_TEN_SEL.TENANT : FRef := ⟨0x5, 0x230, 11, 0⟩
def TLY_TEN_VAL.VALUE : FRef := ⟨0x5, 0x238, 63, 0⟩
def TLY_PGM_SEL.INDEX : FRef := ⟨0x5, 0x240, 16, 0⟩
def TLY_PGM_VAL.VALUE : FRef := ⟨0x5, 0x248, 63, 0⟩
def TLY_FREEZE.ON_TRIG : FRef := ⟨0x5, 0x250, 1, 1⟩
def TLY_FREEZE.FROZEN : FRef := ⟨0x5, 0x250, 0, 0⟩
def TLY_WIN_CFG.MS : FRef := ⟨0x5, 0x258, 15, 0⟩
def TLY_WIN_SEL.PORT : FRef := ⟨0x5, 0x260, 3, 0⟩
def TLY_WIN_RXB.BYTES : FRef := ⟨0x5, 0x268, 63, 0⟩
def TLY_WIN_TXB.BYTES : FRef := ⟨0x5, 0x270, 63, 0⟩
def TLY_WIN_FRAMES.TX : FRef := ⟨0x5, 0x278, 63, 32⟩
def TLY_WIN_FRAMES.RX : FRef := ⟨0x5, 0x278, 31, 0⟩
def TLY_WIN_PEAK.TX_KIB : FRef := ⟨0x5, 0x280, 63, 32⟩
def TLY_WIN_PEAK.RX_KIB : FRef := ⟨0x5, 0x280, 31, 0⟩
def TLY_WIN_END.NS : FRef := ⟨0x5, 0x288, 63, 0⟩
def TLY_THR_SEL.INDEX : FRef := ⟨0x5, 0x290, 5, 0⟩
def TLY_THR_CFG.EN : FRef := ⟨0x5, 0x298, 63, 63⟩
def TLY_THR_CFG.EVENT : FRef := ⟨0x5, 0x298, 62, 62⟩
def TLY_THR_CFG.SOURCE : FRef := ⟨0x5, 0x298, 55, 48⟩
def TLY_THR_CFG.PARAM : FRef := ⟨0x5, 0x298, 47, 40⟩
def TLY_THR_CFG.LEVEL : FRef := ⟨0x5, 0x298, 31, 0⟩
def TLY_THR_COUNT.TICKS : FRef := ⟨0x5, 0x2a0, 63, 0⟩
def TLY_SAMP_CFG.EN : FRef := ⟨0x5, 0x300, 63, 63⟩
def TLY_SAMP_CFG.TEN_FILTER : FRef := ⟨0x5, 0x300, 62, 62⟩
def TLY_SAMP_CFG.TENANT : FRef := ⟨0x5, 0x300, 43, 32⟩
def TLY_SAMP_CFG.SOURCE : FRef := ⟨0x5, 0x300, 7, 0⟩
def TLY_SAMP_CNT.OVF : FRef := ⟨0x5, 0x380, 32, 32⟩
def TLY_SAMP_CNT.COUNT : FRef := ⟨0x5, 0x380, 31, 0⟩
def CRN_CFG.TENANTS : FRef := ⟨0x4, 0x200, 1, 1⟩
def CRN_CFG.PIN_OUT : FRef := ⟨0x4, 0x200, 0, 0⟩
def CRN_BASE.NS : FRef := ⟨0x4, 0x208, 63, 0⟩
def CRN_PERIOD.US : FRef := ⟨0x4, 0x210, 31, 0⟩
def CRN_CTRL.GO : FRef := ⟨0x4, 0x218, 63, 63⟩
def CRN_CTRL.ARMED : FRef := ⟨0x4, 0x218, 62, 62⟩
def CRN_CTRL.MODE : FRef := ⟨0x4, 0x218, 57, 56⟩
def CRN_CTRL.RESULT : FRef := ⟨0x4, 0x218, 55, 48⟩
def CRN_RING.ADDR : FRef := ⟨0x4, 0x220, 39, 12⟩
def CRN_RING.SLOTS : FRef := ⟨0x4, 0x220, 6, 0⟩
def CRN_RING_IDX.HEAD : FRef := ⟨0x4, 0x228, 22, 16⟩
def CRN_RING_IDX.TAIL : FRef := ⟨0x4, 0x228, 6, 0⟩
def CRN_LAST.NS : FRef := ⟨0x4, 0x230, 63, 0⟩
def CRN_STAT.MISSED : FRef := ⟨0x4, 0x238, 63, 32⟩
def CRN_STAT.DROPPED : FRef := ⟨0x4, 0x238, 31, 0⟩
def CRN_SEQ.SEQ : FRef := ⟨0x4, 0x240, 31, 0⟩

end Reg

end Sys2Proof.Machine
end

