-- ==== Sys2Proof/Machine/Dev.lean ====
section
/-! DEFINITION. The state of the device but for the queue of waiting commands: one field per block, the register file,
the memories, the asks, and the counter that numbers free values. -/

namespace Sys2Proof.Machine

/-- The device. -/
structure Dev where
  /-- Every register's value in effect, by address; an unlisted register reads zero. -/
  regs : WTab := []
  /-- The staged shadow of every register with ST fields, by address (R10). -/
  shadow : WTab := []
  /-- The headers, by block ID × 32 + instance; an unlisted one is at its reset value. -/
  insts : Tab Inst := []
  /-- Asks in flight, by number. -/
  asks : Tab Ask := []
  /-- Number of the next ask. -/
  nextAsk : Nat := 0
  /-- Free values taken so far (the model's own field, log 2). -/
  free : Nat := 0
  mem : Mems := {}
  camp : Camp := {}
  tim : Tim := {}
  spotter : Spotter := {}
  mgmt : Mgmt := {}
  jtag : Jtag := {}
  dmc : Dmc := {}
  warden : Warden := {}
  pitch : Pitch := {}
  anchor : Anchor := {}
  hostq : Hostq := {}
  ledger : Ledger := {}
  rope : Rope := {}
  map : Map := {}
  jnl : Jnl := {}
  links : Tab Link := []
  claimX : Option ClaimX := none
  media : Media := {}
  stripe : Strp := {}
  tally : Tally := {}
  cairn : Cairn := {}
  cls : Cls := {}
  swt : Swt := {}
  sch : Sch := {}
  xpt : Xpt := {}
  stm : Stm := {}
  trans : Trans := {}
  cipher : Cipher := {}
  belay : Belay := {}
  deriving DecidableEq, Repr

end Sys2Proof.Machine
end

