-- ==== Sys2Proof/Machine/Ops.lean ====
section
/-! DEFINITION. The operations every block shares: registers and headers, the Warden event ring, sticky errors,
faults and safe state, pitch events, and answers to asks. -/

namespace Sys2Proof.Machine

/-! ### Blocks and addresses -/

/-- How many instances a block ID has (01, "Blocks"; 08; 10); 0 for an ID that names no block. -/
def instCount (blk : Nat) : Nat :=
  if blk = 0x08 then 4
  else if blk = 0x0A ∨ blk = 0x0B then 2
  else if blk = 0x17 then 24
  else if blk = 0x06 ∨ blk = 0x07 ∨ 0x1C < blk then 0
  else 1

/-- Every block instance in ascending block ID, then instance (R481): 55 of them. -/
def allInsts : List (Nat × Nat) :=
  (List.range 0x1D).flatMap (fun b => (List.range (instCount b)).map (fun n => (b, n)))

/-- Start of an instance's 64 KiB, with the TETHER extension window (R53). -/
def instBase (blk n : Nat) : Nat :=
  if blk = 0x17 ∧ 16 ≤ n then 0x09700000 + (n - 16) * 0x10000 else blk * 0x100000 + n * 0x10000

/-- Address of a register (R53). -/
def regAddr (blk n off : Nat) : Nat := instBase blk n + off

/-- Does an address lie in a window of block `blk`? -/
def inBlock (blk a : Nat) : Bool := a / 0x100000 = blk || (blk = 0x17 && a / 0x100000 = 0x97)

/-- The register's value when every field holds its reset value. -/
def Row.reset (r : Row) : Word := r.flds.foldl (fun w f => setField w f.hi f.lo f.rst) 0

/-- The part of that value that ST fields hold. -/
def Row.resetSt (r : Row) : Word :=
  r.flds.foldl (fun w f => if f.acc = .st then setField w f.hi f.lo f.rst else w) 0

/-- The non-zero reset values of one instance's own registers, in rising address order. -/
def initRegs (blk n : Nat) (val : Row → Word) : WTab :=
  (rowsOf blk).flatMap fun r =>
    if (r.only0 ∧ n ≠ 0) ∨ val r = 0 then []
    else (List.range r.cnt).map fun i => (regAddr blk n (r.off + 8 * i), val r)

/-- The non-zero reset values of every register, in rising address order. -/
def initAll (val : Row → Word) : WTab :=
  (allInsts.filter fun p => !(p.1 = 0x17 && 16 ≤ p.2)).flatMap (fun p => initRegs p.1 p.2 val) ++
    ((List.range 8).flatMap fun i => initRegs 0x17 (16 + i) val)

/-- Drop what `t` lists for block `blk` and list `new` in its place. -/
def replaceBlock (t : WTab) (blk : Nat) (new : WTab) : WTab :=
  new.foldl (fun acc p => WTab.set acc p.1 p.2) (t.filter fun p => !inBlock blk p.1)

/-! ### Registers -/

/-- A register's value in effect. -/
def Dev.reg (d : Dev) (blk n off : Nat) : Word := d.regs.get (regAddr blk n off)

/-- Write a whole register, below the access types. -/
def Dev.setReg (d : Dev) (blk n off : Nat) (v : Word) : Dev := { d with regs := d.regs.set (regAddr blk n off) v }

/-- A field's value in effect. -/
def Dev.fget (d : Dev) (f : FRef) (n : Nat := 0) : Nat := field (d.reg f.blk n f.off) f.hi f.lo

/-- Set a field, as the device itself does. -/
def Dev.fset (d : Dev) (f : FRef) (v : Nat) (n : Nat := 0) : Dev :=
  d.setReg f.blk n f.off (setField (d.reg f.blk n f.off) f.hi f.lo v)

/-- Add to a counter field, modulo its width (log 9). -/
def Dev.bump (d : Dev) (f : FRef) (k : Nat := 1) (n : Nat := 0) : Dev := d.fset f (d.fget f n + k) n

/-- Add to a counter field that its row calls saturating. -/
def Dev.bumpSat (d : Dev) (f : FRef) (k : Nat := 1) (n : Nat := 0) : Dev :=
  d.fset f (min (d.fget f n + k) (2 ^ (f.hi - f.lo + 1) - 1)) n

/-- Raise a maximum field to `v` when `v` is greater. -/
def Dev.raiseTo (d : Dev) (f : FRef) (v : Nat) (n : Nat := 0) : Dev :=
  d.fset f (max (d.fget f n) (min v (2 ^ (f.hi - f.lo + 1) - 1))) n

/-- Network time, ns (R300). -/
def Dev.now (d : Dev) : Nat := d.tim.ns

/-- Cycle number `a` does not come after `b`: only their difference modulo 2^48, read as signed, is compared (R22). -/
def cycLe (a b : Nat) : Bool := decide (0 ≤ signed 48 (b + 2 ^ 48 - a % 2 ^ 48))

/-- Cycle number `a` comes before `b`. -/
def cycLt (a b : Nat) : Bool := decide (0 < signed 48 (b + 2 ^ 48 - a % 2 ^ 48))

/-- The later of two cycle numbers. -/
def cycMax (a b : Nat) : Nat := if cycLe a b then b else a

/-- The cycle number `k` cycles later. -/
def cycAdd (c k : Nat) : Nat := (c + k) % 2 ^ 48

/-- Take a value the spec leaves open. -/
def Dev.takeFree (d : Dev) : Word × Dev := (Config.freeValue d.free, { d with free := d.free + 1 })

/-! ### Headers -/

/-- Key of an instance in `Dev.insts`. -/
def instKey (blk n : Nat) : Nat := blk * 32 + n

/-- A header as a cold reset leaves it (R57, the note on reset values). -/
def Inst.rst (blk : Nat) : Inst :=
  { enable := decide (blk = 0), enabled := decide (blk = 0), pwrReq := if blk ≤ 2 then 0 else 4 }

/-- An instance's header. -/
def Dev.inst (d : Dev) (blk n : Nat) : Inst := (Tab.look d.insts (instKey blk n)).getD (Inst.rst blk)

/-- The instances that an instance requires (R68, R508). -/
def requires (blk n : Nat) : List (Nat × Nat) :=
  match blk with
  | 0x01 => [(0x00, 0)]
  | 0x02 => [(0x01, 0)]
  | 0x03 | 0x1C | 0x09 | 0x1B | 0x1A => [(0x02, 0)]
  | 0x05 => [(0x09, 0), (0x1A, 0)]
  | 0x04 => [(0x09, 0), (0x05, 0)]
  | 0x18 => [(0x01, 0), (0x1A, 0)]
  | 0x13 => [(0x1A, 0), (0x05, 0)]
  | 0x17 => [(0x03, 0), (0x09, 0)]
  | 0x16 => [(0x17, 0), (0x13, 0)]
  | 0x15 => [(0x16, 0)]
  | 0x14 => [(0x15, 0), (0x1B, 0), (0x18, 0)]
  | 0x0E => [(0x1A, 0)]
  | 0x0F => [(0x0E, 0), (0x09, 0)]
  | 0x0B => if n = 0 then [(0x0E, 0), (0x0F, 0)] else [(0x0E, 0), (0x0F, 0), (0x0B, 0)]
  | 0x0A => if n = 0 then [(0x0B, 0)] else [(0x0A, 0), (0x0B, 1)]
  | 0x08 => [(0x0A, n / 2), (0x09, 0)]
  | 0x19 => [(0x14, 0), (0x17, 0)]
  | 0x12 => [(0x14, 0), (0x09, 0)]
  | 0x11 => [(0x12, 0), (0x16, 0)]
  | 0x10 => [(0x11, 0), (0x13, 0)]
  | 0x0C => [(0x10, 0), (0x0B, 0)]
  | 0x0D => [(0x10, 0), (0x0B, 0), (0x18, 0)]
  | _ => []

/-- Replace an instance's header. -/
def Dev.setInst (d : Dev) (blk n : Nat) (i : Inst) : Dev := { d with insts := Tab.put d.insts (instKey blk n) i }

/-- Change an instance's header. -/
def Dev.modInst (d : Dev) (blk n : Nat) (f : Inst → Inst) : Dev := d.setInst blk n (f (d.inst blk n))

/-- Is the instance enabled, in safe state or not (BLK_STATUS.ENABLED)? -/
def Dev.isEnabled (d : Dev) (blk : Nat) (n : Nat := 0) : Bool := (d.inst blk n).enabled

/-- Is the instance in service: enabled and not in safe state (R426)? -/
def Dev.on (d : Dev) (blk : Nat) (n : Nat := 0) : Bool := d.isEnabled blk n && !(d.inst blk n).safe

/-- Does the instance take new work (in service, and not draining)? -/
def Dev.serves (d : Dev) (blk : Nat) (n : Nat := 0) : Bool := d.on blk n && !(d.inst blk n).drain

/-- Is every instance that this one requires enabled? Only a disable out of safe state makes it false of an enabled
instance (R62). -/
def Dev.needsMet (d : Dev) (blk n : Nat) : Bool := (requires blk n).all fun p => d.isEnabled p.1 p.2

/-! ### Generations (R10, R24, R64) -/

/-- Bits of a register that fields of one access type hold. -/
def Row.mask (r : Row) (p : Acc → Bool) : Word :=
  r.flds.foldl (fun w f => if p f.acc then w ||| maskOf f.hi f.lo else w) 0

/-- The registers of an instance: its rows' registers with their ST bits. -/
def stRegs (blk n : Nat) : List (Nat × Word) :=
  (rowsOf blk).flatMap fun r =>
    let m := r.mask (· = .st)
    if (r.only0 ∧ n ≠ 0) ∨ m = 0 then []
    else (List.range r.cnt).map fun i => (regAddr blk n (r.off + 8 * i), m)

/-- The staged values of an instance take effect; the shadow keeps them. -/
def Dev.activateShadow (d : Dev) (blk n : Nat) : Dev :=
  (stRegs blk n).foldl (fun (d : Dev) (p : Nat × Word) =>
    { d with regs := d.regs.set p.1 ((d.regs.get p.1 &&& ~~~p.2) ||| (d.shadow.get p.1 &&& p.2)) }) d

/-- The effective values are copied back into the shadow (R66). -/
def Dev.discardShadow (d : Dev) (blk n : Nat) : Dev :=
  (stRegs blk n).foldl (fun (d : Dev) (p : Nat × Word) =>
    { d with shadow := d.shadow.set p.1 ((d.shadow.get p.1 &&& ~~~p.2) ||| (d.regs.get p.1 &&& p.2)) }) d

/-- May the staged generation become active? At most two drain (R25), and none that drains has its number (R24). -/
def Inst.swapFits (i : Inst) : Bool := decide (i.draining.length < 2) && !i.draining.contains i.staged

/-- A swap takes place: the staged values become active under STAGED, and with `drains` the previous generation drains
(R65); that of a gate list is released at the start (R252, R367). -/
def Dev.takeGen (d : Dev) (blk n : Nat) (drains : Bool) : Dev :=
  let d := d.modInst blk n fun i =>
    { i with active := i.staged, staged := (i.staged + 1) % 65536, swap := false, swapReady := false,
             draining := if drains then i.draining ++ [i.active] else i.draining }
  d.activateShadow blk n

/-! ### The Warden event ring (R70) -/

/-- The 16 bytes of an entry. -/
def RingEntry.bytes (e : RingEntry) : List Byte :=
  leBytes e.time 8 ++ leBytes e.blk 1 ++ leBytes e.inst 1 ++ leBytes e.code 2 ++ leBytes e.arg 4

/-- The ring's first byte in the Warden region of SRAM: the spec gives the ring's size and region, and the model puts it at
the region's start (DESIGN CHOICE, log 23). -/
def ringBase : Nat := 0

/-- Post an event to the ring in the Warden region, where the cores load it (R108), or drop and count it. -/
def Dev.post (d : Dev) (blk n code arg : Nat) : Dev :=
  let h := d.fget Reg.WDN_EVR_HEAD.INDEX
  if !d.on 2 || (h + 1) % 4096 = d.fget Reg.WDN_EVR_TAIL.INDEX then d.bump Reg.WDN_EVR_LOST.COUNT
  else
    let e : RingEntry := { time := d.now, blk := blk, inst := n, code := code, arg := arg % 2 ^ 32 }
    let d := { d with mem := { d.mem with wsram := d.mem.wsram.setBytes (ringBase + 16 * h) e.bytes } }
    d.fset Reg.WDN_EVR_HEAD.INDEX ((h + 1) % 4096)

/-- Set a BLK_ERR bit; a rise of an unmasked bit posts 0x0100 + its number (R57, R70). The event's argument is a free
value, because the spec gives none. -/
def Dev.setErr (d : Dev) (blk n bit : Nat) : Dev :=
  let i := d.inst blk n
  if i.err.getLsbD bit then d
  else
    let d := d.modInst blk n fun i => { i with err := i.err ||| BitVec.ofNat 64 (2 ^ bit) }
    if i.errMask.getLsbD bit then d
    else let (v, d) := d.takeFree; d.post blk n (0x100 + bit) (v.toNat % 2 ^ 32)

/-- BLK_ERR bits every block has (R57). -/
def errLkWrite : Nat := 0
def errAccess : Nat := 1
def errEccCorr : Nat := 2
def errEccUncorr : Nat := 3
def errDepHeld : Nat := 4
def errStageBusy : Nat := 5
def errSwapRefused : Nat := 6

/-! ### Asks (R96 to R102) -/

/-- The block that serves an accelerator number (R100; DMA is served by PITCH, R511). -/
def accelBlk (a : Nat) : Option Nat :=
  match a with
  | 0x01 => some 0x05
  | 0x02 => some 0x0B
  | 0x03 => some 0x14
  | 0x04 => some 0x11
  | 0x05 => some 0x12
  | 0x06 => some 0x18
  | 0x07 => some 0x16
  | 0x08 => some 0x15
  | 0x09 => some 0x10
  | 0x0A => some 0x0C
  | 0x0B => some 0x0D
  | 0x0C => some 0x13
  | 0x0D => some 0x02
  | _ => none

/-- The status word of R101: the status in [15:0], call-specific data in [63:16]. -/
def statusWord (st data : Nat) : Word := BitVec.ofNat 64 (st % 65536 + data * 65536)

/-- Record an accelerator's answer to ask `id`: it is delivered by ASK_ANSWER. -/
def Dev.reply (d : Dev) (id st : Nat) (data : Nat := 0) (words : List Word := []) : Dev :=
  match Tab.look d.asks id with
  | some a => { d with asks := Tab.put d.asks id { a with answer := some (statusWord st data, words) } }
  | none => d

/-- Serve ask `id` with `f` when it is a call of accelerator `accel` with code `code` that is not yet answered; any
other `id` names no such call, and nothing happens. -/
def Dev.serve (d : Dev) (id accel code : Nat) (f : Ask → Dev → Dev) : Dev :=
  match Tab.look d.asks id with
  | some a => if a.accel = accel ∧ a.code = code ∧ a.answer = none then f a d else d
  | none => d

/-- Argument word `i` of an ask, zero beyond its block. -/
def Ask.arg (a : Ask) (i : Nat) : Nat := (a.args.getD i 0).toNat

/-! ### Pitch events (R113, R117, R118) -/

/-- Pad a list of words with zeros to `n` words, cutting any beyond. -/
def padWords (n : Nat) (ws : List Word) : List Word := (ws ++ List.replicate n 0).take n

/-- A descriptor: the common header of R118 and the words from byte 0x20. Bit 18 of CONTEXT, which a program never sees,
marks inside the device a command that runs for the partner (R405, log 38). -/
def descriptor (typ len tenant nsh ctx cmdref : Nat) (rope token : Nat) (rest : List Nat) : List Word :=
  padWords (len / 8)
    (([typ % 2 ^ 16 + (len % 2 ^ 16) * 2 ^ 16 + (tenant % 2 ^ 12) * 2 ^ 32 + (nsh % 2 ^ 14) * 2 ^ 48,
       ctx % 2 ^ 19 + (cmdref % 2 ^ 32) * 2 ^ 32, rope, token] ++ rest).map (BitVec.ofNat 64))

/-- Event types of R117. -/
def evIoArrival : Nat := 0x01
def evAdminArrival : Nat := 0x02
def evMapReady : Nat := 0x03
def evLockGranted : Nat := 0x04
def evAdmitReady : Nat := 0x05
def evMediaDone : Nat := 0x06
def evCipherDone : Nat := 0x07
def evXferDone : Nat := 0x08
def evMaint : Nat := 0x09
def evAsync : Nat := 0x0A
def evTakeover : Nat := 0x0B
def evMgmtPost : Nat := 0x0C
def evTrap : Nat := 0x0F

/-- PITCH_EVQ shows the queue's depth and its highest depth. -/
def Dev.showQueue (d : Dev) : Dev :=
  (d.fset Reg.PITCH_EVQ.DEPTH d.pitch.queue.length).raiseTo Reg.PITCH_EVQ.HIGH d.pitch.queue.length

/-- The pending queue becomes `q`, and held events enter it, oldest first, as far as there is room (R113). -/
def Dev.queueIs (d : Dev) (q : List PEvent) : Dev :=
  let n := 8192 - q.length
  Dev.showQueue { d with pitch := { d.pitch with queue := q ++ d.pitch.held.take n, held := d.pitch.held.drop n } }

/-- Post an event to PITCH's pending queue, or have its source hold it while the queue is full (R113). -/
def Dev.event (d : Dev) (e : PEvent) : Dev :=
  if d.pitch.queue.length < 8192 ∧ d.pitch.held = [] then
    Dev.showQueue { d with pitch := { d.pitch with queue := d.pitch.queue ++ [e] } }
  else { d with pitch := { d.pitch with held := d.pitch.held ++ [e] } }

/-- Post an ASYNC event (R117): its tenant, namespace and the words from byte 0x20. -/
def Dev.async (d : Dev) (tenant nsh token : Nat) (rest : List Nat) : Dev :=
  d.event { typ := evAsync, words := descriptor evAsync 64 tenant nsh 0 0 0 token rest }

/-- Post a MAINT work item of tenant 0 (R117): 128 bytes. -/
def Dev.maint (d : Dev) (nsh token : Nat) (rest : List Nat) : Dev :=
  d.event { typ := evMaint, words := descriptor evMaint 128 0 nsh 0 0 0 token rest }

/-! ### Faults and safe state (R422 to R427) -/

/-- Answer every waiting ask of a block with one status. -/
def Dev.answerAll (d : Dev) (blk st : Nat) : Dev :=
  { d with asks := d.asks.map fun p =>
      if accelBlk p.2.accel = some blk ∧ p.2.answer = none then (p.1, { p.2 with answer := some (statusWord st 0, []) })
      else p }

/-- Put an instance in safe state: it abandons its work and answers asks with 0x0006 (R426). BELAY stops beating (R425). -/
def Dev.safeInst (d : Dev) (blk n : Nat) : Dev :=
  let d := d.modInst blk n fun i =>
    { i with safe := true, zeroed := false, check := none, swap := false, swapReady := false, disabling := false
             heldDisable := false }
  let d := if blk = 0x19 then { d with belay := { d.belay with beating := false } } else d
  let d := d.fset Reg.SPT_SAFE.BLOCKS (d.fget Reg.SPT_SAFE.BLOCKS ||| 2 ^ blk)
  d.answerAll blk 6

/-- Put every instance of the listed blocks in safe state. -/
def Dev.safeBlocks (d : Dev) (blks : List Nat) : Dev :=
  (allInsts.filter fun p => blks.contains p.1).foldl (fun d p => d.safeInst p.1 p.2) d

/-- The blocks a UNIT reaction puts in safe state (R425). -/
def unitSafeBlocks : List Nat :=
  [0x04, 0x08, 0x0A, 0x0B, 0x0C, 0x0D, 0x0E, 0x0F, 0x10, 0x11, 0x12, 0x13, 0x14, 0x15, 0x16, 0x17, 0x18, 0x19, 0x1A]

/-- The blocks an unpaired unit's dump needs, which stay out of safe state until it has ended (R425, R427). -/
def dumpBlocks : List Nat := [0x14, 0x15, 0x16, 0x17, 0x1A]

/-- The default reaction of a fault class (R422): two bits of the reset value of SPT_REACT. -/
def defaultReaction (cls : Nat) : Nat := bitsOf 0x2A400418 (2 * cls + 1) (2 * cls)

/-- Classes whose default no write lowers (R424): LOCKSTEP, CLOCK, SUPPLY and THERMAL. -/
def fixedClass (cls : Nat) : Bool := cls = 0x01 || cls = 0x0C || cls = 0x0D || cls = 0x0E

/-- The reaction in force for a class against a block (R423, R424): 3 is taken as 2, a fixed class is never below its
default, and a BLOCK reaction against SPOTTER is taken as UNIT. -/
def Dev.reaction (d : Dev) (cls blk : Nat) : Nat :=
  let r := min 2 (bitsOf (d.reg 3 0 Reg.SPT_REACT.REACT.off).toNat (2 * cls + 1) (2 * cls))
  let r := if fixedClass cls then max r (defaultReaction cls) else r
  if blk = 0x03 ∧ r = 1 then 2 else r

/-- Start the power-fail sequence (R458): t0 is recorded, the sequence is counted, and the unit quiesces. -/
def Dev.startPfail (d : Dev) : Dev :=
  let d := d.bumpSat Reg.CAMP_PFAIL_REC.EVENTS
  let d := d.fset Reg.CAMP_PFAIL_NS.NS d.now
  { d with camp := { d.camp with pfail := .quiesced } }

/-- Does a UNIT reaction for a fault in this block leave the power-fail dump to be written: the unit is unpaired, MAP has
something to dump that is not written yet, and the fault lies outside MAP, STRIPE, MEDIA, TETHER and CIPHER (R427)? -/
def Dev.unitDumps (d : Dev) (blk : Nat) : Bool :=
  decide (d.fget Reg.ROPE_PAIR.PAIRED = 0 ∧ ¬ (blk ∈ [0x14, 0x15, 0x16, 0x17, 0x18]) ∧ d.on 0x14 = true ∧ d.camp.pfail ≠ .done)

/-- The unit enters safe state (R425, R427). A dump that already runs goes on, and one whose blocks the fault now takes is
given up: nothing more is written to the media. -/
def Dev.unitReaction (d : Dev) (blk : Nat) : Dev :=
  let runs := decide (d.camp.pfail ∈ [PFail.quiesced, .dumping])
  let d := { d with spotter := { d.spotter with unitSafe := true } }
  let d := if d.unitDumps blk then
      let d := if runs then d else d.startPfail
      let d := { d with camp := { d.camp with unitDump := true } }
      d.safeBlocks (unitSafeBlocks.filter fun b => !dumpBlocks.contains b)
    else
      let d := if runs then { d with camp := { d.camp with pfail := .done, unitDump := false } } else d
      d.safeBlocks unitSafeBlocks
  d.post 3 0 0x0142 0

/-- SPOTTER detects a fault (R423): it records, counts and reports it, and takes the class's reaction; a SPOTTER that
is not enabled does nothing. -/
def Dev.raiseFault (d : Dev) (cls blk n detail : Nat) : Dev :=
  if !d.on 3 then d
  else
    let r := d.reaction cls blk
    let d := d.fset Reg.SPT_LAST.CLASS cls
    let d := d.fset Reg.SPT_LAST.BLOCK blk
    let d := d.fset Reg.SPT_LAST.INSTANCE n
    let d := d.fset Reg.SPT_LAST.REACTION r
    let d := d.fset Reg.SPT_LAST.DETAIL detail
    let d := d.fset Reg.SPT_LAST_NS.NS d.now
    let d := d.bump Reg.SPT_FAULTS.ALL
    let d := if cls = 0x0B then d.bump Reg.SPT_FAULTS.LATENT else d
    let d := d.post 3 0 0x0140 (cls + blk * 256 + n * 65536)
    let d := { d with warden := { d.warden with notice := true } }
    if r = 2 then d.unitReaction blk else if r = 1 then d.safeInst blk n else d

/-- The power-fail sequence has quiesced the unit: nothing is admitted, accepted, landed, released or sent (R458). -/
def Dev.quiet (d : Dev) : Bool := decide (d.camp.pfail ∈ [PFail.quiesced, .dumping, .done])

end Sys2Proof.Machine
end

