-- ==== Sys2Proof/Machine/TallyBase.lean ====
section
/-! DEFINITION. The counters of TALLY that other blocks' events advance: tenant counters (R464), sampling counters
(R469 to R471) and port windows (R468). -/

namespace Sys2Proof.Machine

/-- Are the freezable counters frozen (R471)? -/
def Dev.frozen (d : Dev) : Bool := d.fget Reg.TLY_FREEZE.FROZEN = 1

/-- A tenant counter. -/
def Dev.tcntOf (d : Dev) (t i : Nat) : Word := d.tally.tcnt.get (t * 16 + i)

/-- Advance a tenant counter (R462, R464); hardware counts while TALLY is in service. -/
def Dev.tcount (d : Dev) (t i k : Nat) : Dev :=
  if !d.on 5 then d
  else
    let key := t % 4096 * 16 + i % 16
    { d with tally := { d.tally with tcnt := d.tally.tcnt.set key (d.tally.tcnt.get key + BitVec.ofNat 64 k) } }

/-- One event of a source at sampling counter `i` (R469). -/
def Dev.sampleAt (d : Dev) (src : Nat) (tenant : Option Nat) (i : Nat) : Dev :=
  let c := Reg.TLY_SAMP_CFG.EN
  let n := Reg.TLY_SAMP_CNT.COUNT
  let fits := d.fget (c.nth i) = 1 ∧ d.fget (Reg.TLY_SAMP_CFG.SOURCE.nth i) = src ∧
    (d.fget (Reg.TLY_SAMP_CFG.TEN_FILTER.nth i) = 0 ∨ tenant = some (d.fget (Reg.TLY_SAMP_CFG.TENANT.nth i)))
  if !fits then d
  else
    let v := d.fget (n.nth i)
    let d := d.fset (n.nth i) (v + 1)
    if v = 0xFFFFFFFF then (d.fset (Reg.TLY_SAMP_CNT.OVF.nth i) 1).post 5 0 0x172 i else d

/-- One event of a sampling source, with its tenant where it has one (R469, R471). -/
def Dev.sample (d : Dev) (src : Nat) (tenant : Option Nat) : Dev :=
  if !d.on 5 || d.frozen || src = 0 || 0x13 < src then d
  else (List.range 16).foldl (fun d i => d.sampleAt src tenant i) d

/-- A frame with its FCS passes a port, in or out (R468, R469). -/
def Dev.countFrame (d : Dev) (port bytes : Nat) (rx : Bool) : Dev :=
  let d := d.sample (if rx then 0x01 else 0x02) none
  if !d.on 5 || d.frozen || d.tally.restart then d
  else
    let f := fun (w : PortWin) =>
      if rx then { w with rxb := w.rxb + bytes, rx := w.rx + 1 } else { w with txb := w.txb + bytes, tx := w.tx + 1 }
    { d with tally := { d.tally with cur := Tab.modify d.tally.cur {} (port % 16) f } }

end Sys2Proof.Machine
end

