-- ==== Sys2Proof/Machine/CipherBase.lean ====
section
/-! DEFINITION. Key slots: their states and limits (R370, R380 to R384). -/

namespace Sys2Proof.Machine

/-- Soft and hard limits of a data generation, and its fixed ceiling (R380, R383). -/
def Dev.xtsSoft (d : Dev) : Nat := 2 ^ d.fget Reg.CPH_XTS_LIMIT.SOFT_LOG2
def Dev.xtsHard (d : Dev) : Nat := 2 ^ d.fget Reg.CPH_XTS_LIMIT.HARD_LOG2
def xtsCeiling : Nat := 2 ^ 40

/-- A data slot; one never loaded is EMPTY. -/
def Dev.dslot (d : Dev) (n : Nat) : DSlot := (Tab.look d.cipher.data n).getD { tenant := 0, nsh := 0 }

/-- State of a data slot (R370): 0 EMPTY, 1 IN_USE, 2 PAST_SOFT, 3 AT_HARD. -/
def Dev.dstate (d : Dev) (n : Nat) : Nat :=
  match (d.dslot n).cur with
  | none => 0
  | some k => if d.xtsHard ≤ k.used then 3 else if d.xtsSoft ≤ k.used then 2 else 1

/-- CPH_OCC shows the slots in use. -/
def Dev.showSlots (d : Dev) : Dev :=
  let d := d.fset Reg.CPH_OCC.DATA (d.cipher.data.filter fun p => p.2.cur.isSome).length
  d.fset Reg.CPH_OCC.SESSION (d.cipher.sess.filter fun p => p.2.rx.isSome || p.2.tx.isSome).length

/-- Replace a data slot. -/
def Dev.setDslot (d : Dev) (n : Nat) (s : DSlot) : Dev :=
  Dev.showSlots { d with cipher := { d.cipher with data := Tab.put d.cipher.data n s } }

/-- A session slot, and its replacement. -/
def Dev.sslot (d : Dev) (n : Nat) : SSlot := (Tab.look d.cipher.sess n).getD {}
def Dev.setSslot (d : Dev) (n : Nat) (s : SSlot) : Dev :=
  Dev.showSlots { d with cipher := { d.cipher with sess := Tab.put d.cipher.sess n s } }

/-- Queue a seal (R387). -/
def Dev.queueSeal (d : Dev) (s : Seal) : Dev :=
  { d with cipher := { d.cipher with seals := d.cipher.seals ++ [{ s with serial := d.cipher.nextSeal }]
                                     nextSeal := d.cipher.nextSeal + 1 } }

/-- CPH_SLOT_STAT for the selection in CPH_SLOT_SEL. -/
def Dev.slotStat (d : Dev) : Word :=
  let n := d.fget Reg.CPH_SLOT_SEL.SLOT
  if d.fget Reg.CPH_SLOT_SEL.SESSION = 1 then
    match (d.sslot n).rx with
    | some k => BitVec.ofNat 64 (1 + k.gen % 256 * 2 ^ 16 + k.used % 2 ^ 40 * 2 ^ 24)
    | none => if (d.sslot n).tx.isSome then 1 else 0
  else
    let s := d.dslot n
    let (g, u) := match s.cur with
      | some k => (k.gen, k.used)
      | none => (0, 0)
    BitVec.ofNat 64 (d.dstate n + 128 * b2n s.standby.isSome + s.older.length % 4 * 2 ^ 8 + g % 256 * 2 ^ 16 +
      u % 2 ^ 40 * 2 ^ 24)

/-- Can the direction of a session slot process so many more records (R384)? -/
def Dev.sessRoom (d : Dev) (slot : Nat) (send : Bool) (k : Nat) : Bool :=
  match (if send then (d.sslot slot).tx else (d.sslot slot).rx) with
  | some x => decide (x.used + k ≤ d.fget Reg.CPH_GCM_LIMIT.HARD)
  | none => false

/-- Count records of a direction; passing the soft limit posts event 0x0184. Answers whether it was passed (R384). -/
def Dev.sessUse (d : Dev) (slot : Nat) (send : Bool) (k : Nat) : Dev × Bool :=
  let s := d.sslot slot
  match (if send then s.tx else s.rx) with
  | none => (d, false)
  | some x =>
    let soft := d.fget Reg.CPH_GCM_LIMIT.SOFT
    let x' := { x with used := x.used + k }
    let d := d.setSslot slot (if send then { s with tx := some x' } else { s with rx := some x' })
    if x.used < soft ∧ soft ≤ x'.used then (d.post 0x18 0 0x184 (slot + b2n send * 65536), true) else (d, false)

end Sys2Proof.Machine
end

