-- ==== Sys2Proof/Machine/StoreBase.lean ====
section
/-! DEFINITION. What the storage blocks share: map entries and records of R192 to R201, the namespaces' grades, sleds,
gate windows and dies, bands with their table in DRAM, the block table, and the appending of journal records. -/

namespace Sys2Proof.Machine

/-! ### Map entries (R192, R193) -/

/-- The entry DEALLOC. -/
def entDealloc : Nat := 0xFA00000000
/-- A STAGED entry. -/
def entStaged (idx wgen : Nat) : Nat := 0xF800000000 + (idx % 2 ^ 30) * 4 + wgen % 4
/-- A ZEROS entry. -/
def entZeros (wgen : Nat) : Nat := 0xFC00000000 + wgen % 4
/-- A media entry. -/
def entMedia (sled ch die plane blk page slot wgen : Nat) : Nat :=
  sled * 2 ^ 35 + (ch % 8) * 2 ^ 32 + (die % 16) * 2 ^ 28 + (plane % 4) * 2 ^ 26 + (blk % 4096) * 2 ^ 14
    + (page % 1024) * 16 + (slot % 4) * 4 + wgen % 4

def entSled (e : Nat) : Nat := bitsOf e 39 35
def entChannel (e : Nat) : Nat := bitsOf e 34 32
def entDie (e : Nat) : Nat := bitsOf e 31 28
def entPlane (e : Nat) : Nat := bitsOf e 27 26
def entBlock (e : Nat) : Nat := bitsOf e 25 14
def entPage (e : Nat) : Nat := bitsOf e 13 4
def entSlot (e : Nat) : Nat := bitsOf e 3 2
/-- The die group of a media entry. -/
def entGroup (e : Nat) : Nat := entSled e * 8 + entChannel e
/-- The plane of a media entry, as one number. -/
def entPlaneKey (e : Nat) : Nat := e / 2 ^ 26
def entIsMedia (e : Nat) : Bool := decide (entSled e < 24)
def entIsStaged (e : Nat) : Bool := decide (e / 2 ^ 32 = 0xF8)
def entIsDealloc (e : Nat) : Bool := decide (e / 2 ^ 32 = 0xFA)
def entIsZeros (e : Nat) : Bool := decide (e / 2 ^ 32 = 0xFC)
/-- The staging index of a STAGED entry. -/
def entIndex (e : Nat) : Nat := bitsOf e 31 2
/-- A malformed entry (R193). -/
def entBad (e : Nat) : Bool := !(entIsMedia e || entIsStaged e || entIsDealloc e || entIsZeros e)

/-- Blocks per map unit (R191). -/
def Dev.mapSpan (d : Dev) : Nat := if d.fget Reg.MAP_CFG.UNIT = 1 then 4 else 1

/-- The map unit of a block. -/
def Dev.unitOf (d : Dev) (lba : Nat) : Nat := lba / d.mapSpan

/-- Key of a map unit. -/
def unitKey (nsh u : Nat) : Nat := nsh * 2 ^ 40 + u % 2 ^ 40

/-- The entry under a key; one never written is DEALLOC. -/
def Dev.entryAt (d : Dev) (key : Nat) : Nat := (Tab.look d.map.entries key).getD entDealloc

/-- The entry of a map unit. -/
def Dev.entry (d : Dev) (nsh u : Nat) : Nat := d.entryAt (unitKey nsh u)

/-- Key of the map page of a map unit (R201). -/
def pageKey (nsh u : Nat) : Nat := nsh * 2 ^ 32 + u / 800

/-- The map units of a range of blocks. -/
def Dev.unitsOf (d : Dev) (slba nblk : Nat) : List Nat :=
  if nblk = 0 then []
  else (List.range (d.unitOf (slba + nblk - 1) + 1 - d.unitOf slba)).map (· + d.unitOf slba)

/-- Entries that the 16 MiB SRAM map cache holds, at five bytes each (R192, R202). -/
def sramEntries : Nat := 3355443

/-- Use entries in the SRAM map cache, which keeps the most recently used (R202; the order of replacement is a DESIGN CHOICE,
log 108). -/
def touchSram (keys cache : List Nat) : List Nat :=
  (keys ++ cache.filter fun k => !keys.contains k).take sramEntries

/-- Is the page's namespace pinned? -/
def Dev.pagePinned (d : Dev) (page : Nat) : Bool := (Tab.look d.hostq.nss (page / 2 ^ 32)).any (·.pinned)

/-- Store an entry; the map page that holds it becomes resident and dirty (R202, R203, log 108). -/
def Dev.setEntry (d : Dev) (key e : Nat) : Dev :=
  let entries := if e = entDealloc then Tab.del d.map.entries key else Tab.put d.map.entries key e
  let page := pageKey (key / 2 ^ 40) (key % 2 ^ 40)
  let j := d.fget Reg.JNL_HEAD.JSEQ
  let f : Frame := match Tab.look d.map.frames page with
    | some f => { f with dirty := true, first := if f.dirty then f.first else j, jseq := j }
    | none => { dirty := true, first := j, jseq := j }
  { d with map := { d.map with
      entries := entries
      frames := Tab.put d.map.frames page f
      ring := if d.map.ring.contains page || d.pagePinned page then d.map.ring else d.map.ring ++ [page]
      sram := touchSram [key] d.map.sram } }

/-! ### Records (R197, R198, R201) -/

/-- LADDR of a unit record. -/
def URec.laddr (r : URec) : Nat := (r.nsh % 2 ^ 14) * 2 ^ 50 + r.lba % 2 ^ 40

/-- The 32 bytes of a unit record. -/
def URec.bytes (r : URec) : List Byte :=
  leBytes r.wgen 8 ++ leBytes r.laddr 8 ++ leBytes (r.keySlot % 2 ^ 14) 2 ++ leBytes r.keyGen 1 ++
    leBytes (1 + b2n r.copy * 2 + b2n r.zrange * 4) 1 ++ leBytes (r.tenant % 2 ^ 12) 2 ++ leBytes 0 2 ++ leBytes r.tag 8

/-- A page record over the bytes of its four unit records (R198). -/
def pageRecord (seq ptime temp kind unit : Nat) (recs : List Byte) : List Byte :=
  let head := leBytes seq 8 ++ leBytes ptime 8 ++ leBytes temp 1 ++ leBytes kind 1 ++ leBytes unit 1 ++ leBytes 0 5
  head ++ leBytes (crc32c (head ++ recs)) 4 ++ leBytes 0 4

/-- The 4 KiB of a map page as its entries stand (R201). -/
def Dev.mapPageBytes (d : Dev) (page : Nat) : List Byte :=
  let nsh := page / 2 ^ 32
  let n := page % 2 ^ 32
  let body := ((List.range 800).flatMap fun i => leBytes (d.entry nsh (800 * n + i)) 5) ++ leBytes (nsh % 2 ^ 14) 2 ++
    leBytes 0 2 ++ leBytes n 4 ++ leBytes ((Tab.look d.map.frames page).getD {}).jseq 8 ++ leBytes 0 76
  body ++ leBytes (crc32c body) 4

/-- What a zero-range unit's data says beyond its record (R194). -/
def URec.ranged (r : URec) (data : Memory) : URec :=
  if r.zrange then { r with span := data.read 0 8, deac := decide (data.read 8 1 = 1) } else r

/-- The unit record at byte `a` of a memory, or none when it holds no data. -/
def readURec (m : Memory) (a : Nat) : Option URec :=
  let f := m.read (a + 19) 1
  if f % 2 = 0 then none
  else
    let la := m.read (a + 8) 8
    some { wgen := m.read a 8, nsh := bitsOf la 63 50, lba := bitsOf la 39 0, keySlot := m.read (a + 16) 2 % 2 ^ 14,
           keyGen := m.read (a + 18) 1, copy := bitOf f 1, zrange := bitOf f 2, tenant := m.read (a + 20) 2 % 2 ^ 12,
           tag := m.read (a + 24) 8 }

/-! ### Namespaces and staging -/

/-- The grade a namespace is served at: 1 to 4, or 5 for the takeover grade while its pinned map is cold (R30). -/
def Dev.gradeOf (d : Dev) (nsh : Nat) : Nat :=
  match Tab.look d.hostq.nss nsh with
  | some n => if n.cold then 5 else n.grade
  | none => 4

/-- Does the namespace belong to the tenant? -/
def Dev.nsOwned (d : Dev) (nsh tenant : Nat) : Bool :=
  match Tab.look d.hostq.nss nsh with
  | some n => decide (n.tenant = tenant)
  | none => false

/-- The key of a command: context × 65,536 + command identifier. -/
def tagKey (ctx cmdref : Nat) : Nat := ctx * 65536 + cmdref % 65536

/-- Hardware settles a status of R150 for a command, by SCT and SC: the first one stands. -/
def Dev.doom (d : Dev) (key sct sc : Nat) : Dev :=
  match Tab.look d.hostq.tags key with
  | some t =>
    if t.fate.isSome then d
    else { d with hostq := { d.hostq with tags := Tab.put d.hostq.tags key { t with fate := some (sct, sc) } } }
  | none => d

/-- The key of the command an ask acts for. -/
def Ask.tagKey (a : Ask) : Nat := Machine.tagKey a.context a.cmdref

/-- Change one staging unit. -/
def Dev.modUnit (d : Dev) (i : Nat) (f : SUnit → SUnit) : Dev :=
  match Tab.look d.map.staging i with
  | some u => { d with map := { d.map with staging := Tab.put d.map.staging i (f u) } }
  | none => d

/-- Staging units of some kind. -/
def Dev.unitsWhere (d : Dev) (p : SUnit → Bool) : List Nat := (d.map.staging.filter fun x => p x.2).map (·.1)

/-- Does the unit count against the dirty budget (R207)? -/
def SUnit.counts (u : SUnit) : Bool := decide (u.state ∈ [SState.held, .dirty, .placing])

/-- MAP_STAGE shows the staging. -/
def Dev.showStaging (d : Dev) : Dev :=
  let d := d.fset Reg.MAP_STAGE.MIRROR (d.unitsWhere fun u => decide (u.state = .mirror)).length
  let d := d.fset Reg.MAP_STAGE.DIRTY (d.unitsWhere SUnit.counts).length
  d.fset Reg.MAP_STAGE.LANDING (d.unitsWhere fun u => decide (u.state = .landing)).length

/-- Free a staging unit. -/
def Dev.freeUnit (d : Dev) (i : Nat) : Dev :=
  Dev.showStaging { d with map := { d.map with staging := Tab.del d.map.staging i } }

/-- The own dirty budget in units (R208); unpaired, the mirror partition belongs to it (R209). -/
def Dev.dirtyBudget (d : Dev) : Nat :=
  let all := if d.fget Reg.MAP_CFG.BUF_MODE = 1 then 262144 else 16384
  if d.fget Reg.ROPE_PAIR.PAIRED = 0 then all else all * (100 - d.fget Reg.MAP_MIRROR.PCT) / 100

/-- Units of SRAM that LANDING and HELD units may take: the 64 MiB of write staging, less the mirror partition where that
lies in SRAM too (R19, R208, R209). -/
def Dev.sramUnits (d : Dev) : Nat := if d.fget Reg.MAP_CFG.BUF_MODE = 1 then 16384 else d.dirtyBudget

/-- Staging units of the SRAM that are FREE for landing. -/
def Dev.sramFree (d : Dev) : Nat := d.sramUnits - (d.unitsWhere fun u => decide (u.state ≠ .mirror) && !u.deep).length

/-- The write generation of the data an entry names, 0 for none (R196). -/
def Dev.genOf (d : Dev) (e : Nat) : Nat :=
  if entIsStaged e then ((Tab.look d.map.staging (entIndex e)).map (·.rec_.wgen)).getD 0
  else if entIsMedia e then
    ((List.range d.mapSpan).map fun s => ((Tab.look d.map.valid (e / 4 + s)).map (·.wgen)).getD 0).foldl max 0
  else 0

/-- The map units a lookup has captured: the map unit, its entry, and the write generation of what that names. -/
def Dev.captured (d : Dev) (l : Lookup) : List (Nat × Nat × Nat) :=
  (d.unitsOf l.slba l.nblk).zip (l.entries.zip l.gens)

/-- Does an unreleased lookup read the staging unit (R210)? It has captured a STAGED entry of its map unit, of data no older. -/
def Dev.unitHeld (d : Dev) (u : SUnit) : Bool :=
  !u.rec_.zrange && d.map.lookups.any fun l => l.2.nsh = u.rec_.nsh &&
    (d.captured l.2).any fun c => entIsStaged c.2.1 && c.1 = d.unitOf u.rec_.lba && decide (u.rec_.wgen ≤ c.2.2)

/-! ### Sleds, gates and dies -/

/-- A sled's record. -/
def Dev.sled (d : Dev) (n : Nat) : Option SledRec := Tab.look d.media.sleds n

/-- A sled's state in STRIPE_SLED: 0 PRESENT, 1 ABSENT, 2 FAILED, 3 RETIRED (R271). -/
def Dev.sledState (d : Dev) (n : Nat) : Nat := bitsOf (d.fget Reg.STRIPE_SLED.STATE) (2 * n + 1) (2 * n)

/-- Set it. -/
def Dev.setSledState (d : Dev) (n v : Nat) : Dev :=
  d.setReg 0x15 0 Reg.STRIPE_SLED.STATE.off (setField (d.reg 0x15 0 Reg.STRIPE_SLED.STATE.off) (2 * n + 1) (2 * n) v)

/-- Does the unit own the channel (R242)? -/
def Dev.owns (d : Dev) (sled ch : Nat) : Bool := bitOf (d.fget Reg.TTH_OWN.OWNED sled) ch

/-- The sleds whose records are loaded. -/
def Dev.sledList (d : Dev) : List Nat := (List.range 24).filter fun n => (d.sled n).isSome

/-- The window that a list of gates is in at a position: its kind and how much of it is left. -/
def gateAt : List Gate → Nat → Option (Nat × Nat)
  | [], _ => none
  | g :: gs, p => if p < g.ns then some (g.kind, g.ns - p) else gateAt gs (p - g.ns)

/-- The window of a die group at an instant (R250): 0 READ, 1 PROGRAM, 2 ERASE, and the time left in it. -/
def windowIn (t : GateTab) (start g now : Nat) : Option (Nat × Nat) :=
  match t.groups[g]? with
  | none => none
  | some (l, phase) =>
    if t.cycle = 0 then none
    else gateAt (t.lists.getD l []) ((now + t.cycle * (start / t.cycle + 1) - start + phase) % t.cycle)

/-- The window of a die group, on the list that is in force at the instant (R252). -/
def Dev.window (d : Dev) (g now : Nat) : Option (Nat × Nat) :=
  match d.media.nextGates with
  | some (t, s) => if s ≤ now then windowIn t s g now else windowIn d.media.gates (d.fget Reg.MDA_GL_START.NS) g now
  | none => windowIn d.media.gates (d.fget Reg.MDA_GL_START.NS) g now

/-- The operation that runs or is suspended on a die. -/
def Dev.dieOp (d : Dev) (sled ch die : Nat) : Option (Nat × NandOp) :=
  d.media.ops.find? fun o =>
    o.1 / 4096 = sled && o.2.channel = ch && o.2.die = die && (o.2.opcode = 3 || o.2.opcode = 4)

/-- May a G1 read take the die outside READ windows: it is not BUSY from a claim change, and what runs on it may be suspended
once more (R255)? -/
def Dev.g1May (d : Dev) (sled ch die now : Nat) : Bool :=
  !bitOf ((Tab.look ((Tab.look d.links sled).getD {}).busy ch).getD 0) die &&
    match d.dieOp sled ch die, d.sled sled with
    | some (_, o), some r => decide (o.g1 < r.g1Sus) && decide (o.runSince + r.tresMin * 1000 ≤ now)
    | none, _ => true
    | _, none => false

/-- An operation whose suspends are used up holds its die until its maximum end: no read is planned there before (R254). -/
def Dev.spentBar (d : Dev) (plane : Nat) : List (Nat × Nat) :=
  let g := plane / 64
  match d.dieOp (g / 8) (g % 8) (plane / 4 % 16), d.sled (g / 8) with
  | some (_, o), some r =>
    if o.suspended || decide (o.sched + o.g1 < r.susMax) then []
    else [(0, o.runSince + (if o.opcode = 3 then r.tprogMax else r.tbersMax) * 1000 - o.ran)]
  | _, _ => []

/-! ### Capacity (R203, R213, R214) -/

/-- Bytes of a MiB. -/
def mibBytes : Nat := 1048576

/-- Over-provisioning of a placement mode, percent (R213). -/
def opPct (mode : Nat) : Nat := if mode = 0 then 20 else if mode = 1 then 28 else 7

/-- Usable blocks for a raw capacity in bytes (R214). -/
def usableBlocks (raw k m mode : Nat) : Nat := raw * k * (100 - opPct mode) * 98 / ((k + m) * 10000 * 4096)

/-- Raw bytes of a unit's own die groups: the channels whose home it is (R16). -/
def Dev.rawHome (d : Dev) (unit : Nat) : Nat :=
  let mine (c : Nat) : Bool := decide (c / 4 = unit)
  (d.sledList.map fun n => match d.sled n with
    | some r => ((List.range 8).filter fun c => bitOf r.channels c && mine c).length * r.dies * r.planes * r.blocks *
        r.pages * 16384
    | none => 0).foldl (· + ·) 0

/-- Raw bytes of this unit's own die groups. -/
def Dev.rawOwned (d : Dev) : Nat := d.rawHome (d.fget Reg.CAMP_STRAP.UNIT_ID)

/-- MiB of the map directory for twice the usable blocks: five bytes a page of 800 units (R199, R203). -/
def Dev.directoryMib (s : Dev) (usable : Nat) : Nat :=
  let units := (2 * usable + s.mapSpan - 1) / s.mapSpan
  let pages := (units + 799) / 800
  (5 * pages + mibBytes - 1) / mibBytes

/-- MAP_CAP.USABLE under the configured mode and geometry (R214). -/
def Dev.usableNow (s : Dev) : Nat :=
  usableBlocks s.rawOwned (s.fget Reg.STRIPE_GEOM.K) (s.fget Reg.STRIPE_GEOM.M) (s.fget Reg.MAP_CFG.MODE)

/-! ### Bands and blocks -/

/-- The code of a band's STATE. -/
def BState.code : BState → Nat
  | .queued => 1
  | .opened => 2
  | .closed => 3
  | .victim => 4
  | .erasing => 5
  | .dump => 6

/-- The 4 bytes of a chunk (R268). -/
def Chunk.word (c : Chunk) : Nat :=
  c.group % 256 + (c.die % 16) * 2 ^ 8 + (c.plane % 4) * 2 ^ 12 + (c.block % 4096) * 2 ^ 14 + b2n c.lost * 2 ^ 31

/-- The 128 bytes of a band-table entry (R268). -/
def Band.bytes (b : Band) : List Byte :=
  leBytes b.state.code 1 ++ leBytes b.k 1 ++ leBytes b.m 1 ++
    leBytes (b2n b.slc + 2 * b2n b.partner + 4 * b2n (b.chunks.any (·.lost)) + 8 * b2n b.early) 1 ++
    leBytes (b.stream % 64) 2 ++ leBytes b.nextPage 2 ++ leBytes b.valid 4 ++ leBytes b.reads 4 ++ leBytes b.since 8 ++
    leBytes 0 8 ++ ((List.range 24).flatMap fun i => leBytes ((b.chunks[i]?.map Chunk.word).getD 0) 4)

/-- STRIPE_BANDS shows the bands; free blocks count in whole bands. -/
def Dev.showBands (d : Dev) : Dev :=
  let bs := d.stripe.bands.map (·.2)
  let width := d.fget Reg.STRIPE_GEOM.K + d.fget Reg.STRIPE_GEOM.M
  let free := (bs.filter fun b => decide (b.state = .queued)).length +
    (if width = 0 then 0 else d.stripe.free.length / width)
  let closed := (bs.filter fun b => decide (b.state ∈ [BState.closed, .victim])).length
  let old := (bs.filter fun b => decide (b.k ≠ d.fget Reg.STRIPE_GEOM.K ∨ b.m ≠ d.fget Reg.STRIPE_GEOM.M)).length
  let d := d.fset Reg.STRIPE_BANDS.FREE free
  let d := d.fset Reg.STRIPE_BANDS.CLOSED closed
  d.fset Reg.STRIPE_BANDS.OLD_GEOM (min old 65535)

/-- Store a band, with its entry of the band table in DRAM (R268). -/
def Dev.putBand (d : Dev) (n : Nat) (b : Band) : Dev :=
  let d := { d with stripe := { d.stripe with bands := Tab.put d.stripe.bands n b } }
  let d := { d with mem := { d.mem with
    dram := d.mem.dram.setBytes (d.fget Reg.STRIPE_BAND_TAB.ADDR * 4096 + 128 * n) b.bytes } }
  d.showBands

/-- Drop a band: its entry becomes unused. -/
def Dev.dropBand (d : Dev) (n : Nat) : Dev :=
  let d := { d with stripe := { d.stripe with bands := Tab.del d.stripe.bands n } }
  let a := d.fget Reg.STRIPE_BAND_TAB.ADDR * 4096 + 128 * n
  let d := { d with mem := { d.mem with dram := d.mem.dram.clear a (a + 128) } }
  d.showBands

/-- Change a band. -/
def Dev.modBand (d : Dev) (n : Nat) (f : Band → Band) : Dev :=
  match Tab.look d.stripe.bands n with
  | some b => d.putBand n (f b)
  | none => d

/-- Is the chunk the block a media entry lies in? -/
def Chunk.has (c : Chunk) (e : Nat) : Bool :=
  c.group = entGroup e && c.die = entDie e && c.plane = entPlane e && c.block = entBlock e

/-- The band a media entry lies in. -/
def Dev.bandOf (d : Dev) (e : Nat) : Option (Nat × Band) :=
  d.stripe.bands.find? fun b => b.2.chunks.any fun c => c.has e

/-- The newest staging unit of a map unit that holds data no newer than a write generation. -/
def Dev.stagedOf (d : Dev) (nsh u gen : Nat) (p : SUnit → Bool) : Option SUnit :=
  let us := d.map.staging.filter fun x => x.2.rec_.nsh = nsh && d.unitOf x.2.rec_.lba = u && decide (x.2.rec_.wgen ≤ gen) &&
    decide (x.2.state ≠ .landing ∧ x.2.state ≠ .mirror) && !x.2.rec_.zrange && p x.2
  us.foldl (fun best x => match best with
    | some b => if b.rec_.wgen < x.2.rec_.wgen then some x.2 else some b
    | none => some x.2) none

/-- The media entries that a lookup's captured locations are read from: in 16 KiB mode a staged one reads the blocks not
staged from the former entry of its group (R211). -/
def Dev.readsFrom (d : Dev) (l : Lookup) : List Nat :=
  (d.captured l).filterMap fun c =>
    if entIsMedia c.2.1 then some c.2.1
    else if entIsStaged c.2.1 ∧ d.mapSpan = 4 then
      ((d.stagedOf l.nsh c.1 c.2.2 fun _ => true).map (·.former)).filter entIsMedia
    else none

/-- Does a read hold the band (R183)? -/
def Dev.bandHeld (d : Dev) (n : Nat) : Bool :=
  d.map.lookups.any fun l => (d.readsFrom l.2).any fun e => (d.bandOf e).map (·.1) = some n

/-- Address of a block's entry of the block table (R257). -/
def Dev.blkAddr (d : Dev) (c : Chunk) : Nat :=
  d.fget Reg.MDA_BLKTAB.ADDR * 4096 + 16 * (((c.group * 16 + c.die) * 4 + c.plane) * 4096 + c.block)

/-- A block's program/erase count. -/
def Dev.blkPE (d : Dev) (c : Chunk) : Nat := d.mem.dram.read (d.blkAddr c + 10) 3

/-- A block's flags: [0] BAD, [1] SLC, [2] OPEN, [3] ERASED. -/
def Dev.blkFlags (d : Dev) (c : Chunk) : Nat := d.mem.dram.read (d.blkAddr c + 9) 1

/-- Write bytes of a block's entry. -/
def Dev.blkWrite (d : Dev) (c : Chunk) (off n v : Nat) : Dev :=
  { d with mem := { d.mem with dram := d.mem.dram.write (d.blkAddr c + off) n v } }

/-- Set or clear a block's ERASED flag. A block that joins the free pool, or that waits in the queue, through a recovery or a
returned sled is erased again before use (R275, R294). -/
def Dev.blkErased (d : Dev) (c : Chunk) (on : Bool) : Dev :=
  let f := d.blkFlags c
  d.blkWrite c 9 1 (if on then 8 else f - f / 8 % 2 * 8)

/-- STRIPE_SPARE after a change of the retired count (R276). The unit's blocks are those of its loaded sleds' owned
channels. -/
def Dev.showSpare (d : Dev) : Dev :=
  let blocks := (d.sledList.map fun n => match d.sled n with
    | some r => ((List.range 8).filter fun c => bitOf r.channels c && d.owns n c).length * r.dies * r.planes * r.blocks
    | none => 0).foldl (· + ·) 0
  let reserve := blocks / 100
  let retired := d.fget Reg.STRIPE_SPARE.RETIRED
  d.fset Reg.STRIPE_SPARE.PCT (if reserve = 0 then 0 else 100 * (reserve - retired) / reserve)

/-- Retire a block: it is marked BAD and counted (R276, R284, R285). -/
def Dev.retire (d : Dev) (c : Chunk) : Dev :=
  let d := d.blkWrite c 9 1 (d.blkFlags c ||| 1)
  (d.bump Reg.STRIPE_SPARE.RETIRED).showSpare

/-- Post a STRIPE work item of a KIND for a band, unless the band has one (R282). -/
def Dev.bandItem (d : Dev) (n kind : Nat) : Dev :=
  match Tab.look d.stripe.bands n with
  | some b =>
    if b.item.isSome then d
    else
      let tok := d.stripe.nextItem
      let d := { d with stripe := { d.stripe with items := Tab.put d.stripe.items tok n, nextItem := tok + 1 } }
      let d := d.putBand n { b with item := some kind }
      d.maint 0 tok [kind % 65536 + n * 2 ^ 32]
  | none => d

/-! ### The journal (R220 to R226) -/

/-- Records the ring holds (R220). -/
def ringLen : Nat := 2095104

/-- Offset in MRAM of the ring slot of a JSEQ (DEDUCED: JSEQ 1 is the ring's first record, and the ring wraps). -/
def ringSlot (jseq : Nat) : Nat := 0x10000 + 32 * ((jseq - 1) % ringLen)

/-- Is the ring record of a JSEQ intact and in sequence (R222)? -/
def jrecOk (m : Memory) (j : Nat) : Bool :=
  let a := ringSlot j
  m.read (a + 8) 8 = j && m.read (a + 4) 4 = crc32c (m.bytes a 4 ++ m.bytes (a + 8) 24)

/-- The JSEQ after the last of the intact records from one on (R222). -/
def ringHead (m : Memory) : Nat → Nat → Nat
  | 0, j => j
  | f + 1, j => if jrecOk m j then ringHead m f (j + 1) else j

/-- The 32 bytes of a journal record (R221): TYPE, FLAGS, NSH, JSEQ and the 16 bytes of BODY. -/
def jrec (typ flags nsh jseq body : Nat) : List Byte :=
  let head := leBytes typ 1 ++ leBytes flags 1 ++ leBytes (nsh % 2 ^ 14) 2
  let tail := leBytes jseq 8 ++ leBytes body 16
  head ++ leBytes (crc32c (head ++ tail)) 4 ++ tail

/-- JNL_OCC shows the ring's occupancy. -/
def Dev.showRing (d : Dev) : Dev :=
  let n := d.fget Reg.JNL_HEAD.JSEQ - d.fget Reg.JNL_TAIL.JSEQ
  let d := d.fset Reg.JNL_OCC.BYTES (32 * n)
  d.raiseTo Reg.JNL_OCC.HIGH_PCT (100 * n / ringLen)

/-- Does the namespace's home lie with the partner, while this unit serves it (R407, "home groups")? -/
def Dev.partnerNs (d : Dev) (nsh : Nat) : Bool :=
  d.isEnabled 0x19 && (match Tab.look d.hostq.nss nsh with
    | some n => decide (bitsOf (d.fget Reg.BLY_HOME.GROUPS) (n.anagrp - 1) (n.anagrp - 1) ≠ d.fget Reg.CAMP_STRAP.UNIT_ID)
    | none => false)

/-- Append a record and say what follows its durability; records about the partner's home groups carry FLAGS.PARTNER (those of
a checkpoint, types 4 and 5, name no namespace). The
CRC is written last, with the record's durability (R222). At a full ring (R226; two records are kept for a checkpoint's own,
DESIGN CHOICE, log 109) false says that the switch or the checkpoint must be tried again, and any other record waits. -/
def Dev.append (d : Dev) (typ flags nsh body : Nat) (act : JAct) : Dev × Bool :=
  let j := d.fget Reg.JNL_HEAD.JSEQ
  let flags := if typ ≠ 4 ∧ typ ≠ 5 ∧ d.partnerNs nsh then 1 else flags
  let ckpt := decide ((typ = 4 ∨ typ = 5) ∧ flags = 0)
  if (if ckpt then ringLen else ringLen - 2) ≤ j - d.fget Reg.JNL_TAIL.JSEQ then
    let d := if d.map.stalled then d else d.bump Reg.JNL_STALL.COUNT
    let d := { d with map := { d.map with stalled := true } }
    let again := ckpt || (match act with
      | .switch .. => true
      | _ => false)
    if again then (d, false)
    else
      let w : JWait := { typ := typ, flags := flags, nsh := nsh, body := body, act := act }
      ({ d with jnl := { d.jnl with waits := d.jnl.waits ++ [w] } }, true)
  else
    let r := jrec typ flags nsh j body
    let d := { d with jnl := { d.jnl with
      mram := (d.jnl.mram.setBytes (ringSlot j) (r.take 4)).setBytes (ringSlot j + 8) (r.drop 8)
      pend := d.jnl.pend ++ [({ jseq := j, act := act } : JPend)] } }
    let d := d.fset Reg.JNL_HEAD.JSEQ (j + 1)
    let d := if j % ringLen = 0 then d.bump Reg.JNL_PASSES.COUNT else d
    (d.showRing.sample 0x0F none, true)

/-- Body of a MAP record. -/
def bodyMap (unit new old : Nat) : Nat := unit % 2 ^ 40 + (new % 2 ^ 40) * 2 ^ 40 + (old % 2 ^ 40) * 2 ^ 80

/-- Body of a DEALLOC record. -/
def bodyDealloc (first count : Nat) : Nat := first % 2 ^ 40 + (count % 2 ^ 40) * 2 ^ 40

/-- Is the superblock at `a` valid: its MAGIC, VERSION and CRC (R224)? -/
def sbValid (m : Memory) (a : Nat) : Bool :=
  m.read a 4 = 0x4C4A4E53 && m.read (a + 4) 4 = 1 && m.read (a + 4092) 4 = crc32c (m.bytes a 4092)

/-- The active superblock's offset (R224). -/
def Jnl.active (j : Jnl) : Option Nat :=
  let a := sbValid j.mram 0
  let b := sbValid j.mram 0x1000
  if a && b then (if j.mram.read 8 8 < j.mram.read 0x1008 8 then some 0x1000 else some 0)
  else if a then some 0 else if b then some 0x1000 else none

/-- A field of the active superblock, 0 when there is none. -/
def Jnl.sbField (j : Jnl) (off n : Nat) : Nat :=
  match j.active with
  | some a => j.mram.read (a + off) n
  | none => 0

/-- JNL_SB, JNL_PASSES and JNL_CKPT_LAST show the active superblock. -/
def Dev.showSb (d : Dev) : Dev :=
  let d := d.fset Reg.JNL_SB.GENERATION (d.jnl.sbField 8 8 % 2 ^ 63)
  let d := d.fset Reg.JNL_SB.ACTIVE (b2n (d.jnl.active = some 0x1000))
  d.fset Reg.JNL_CKPT_LAST.JSEQ (d.jnl.sbField 16 8)

/-- Write the superblock with the lower GENERATION, or A when neither is valid (R224). -/
def Dev.writeSuper (d : Dev) (ckpt root seqHigh ropeHigh : Nat) : Dev :=
  let a := match d.jnl.active with
    | some 0 => 0x1000
    | _ => 0
  let gen := d.jnl.sbField 8 8 + 1
  let cfg := d.fget Reg.MAP_CFG.UNIT + 2 * d.fget Reg.MAP_CFG.MODE + 8 * d.fget Reg.MAP_CFG.BUF_MODE
  let m := d.jnl.mram.clear a (a + 4096)
  let m := m.write a 4 0x4C4A4E53
  let m := m.write (a + 4) 4 1
  let m := m.write (a + 8) 8 gen
  let m := m.write (a + 16) 8 ckpt
  let m := m.write (a + 24) 5 root
  let m := m.write (a + 29) 1 cfg
  let m := m.write (a + 32) 8 seqHigh
  let m := m.write (a + 40) 8 ropeHigh
  let m := m.write (a + 48) 8 (d.fget Reg.JNL_PASSES.COUNT)
  let m := m.write (a + 4092) 4 (crc32c (m.bytes a 4092))
  Dev.showSb { d with jnl := { d.jnl with mram := m } }

/-- A ceiling for a counter: within 2^32 of it, it rises by 2^33, and by as many times that as a counter that has jumped
needs (R180, R199). -/
def ceilingFor (high next : Nat) : Nat := if high ≤ next + 2 ^ 32 then high + ((next + 2 ^ 32 - high) / 2 ^ 33 + 1) * 2 ^ 33 else high

/-- Keep the rope ceiling above ROPE_NEXT (R180) and the sequence ceiling above the page counter (R199): JOURNAL writes the
superblock with those that must rise. -/
def Dev.raiseCeilings (d : Dev) : Dev :=
  if d.jnl.active = none then d
  else
    let rh := d.jnl.sbField 40 8
    let sh := d.jnl.sbField 32 8
    let r := ceilingFor rh (d.fget Reg.ROPE_NEXT.ROPE)
    let q := ceilingFor sh d.map.seq
    if r = rh ∧ q = sh then d else d.writeSuper (d.jnl.sbField 16 8) (d.jnl.sbField 24 5) q r

end Sys2Proof.Machine
end

