-- ==== Sys2Proof/Machine/PowerOps.lean ====
section
/-! DEFINITION. Power domains, clocks, NVMe power states and wakes (R445 to R456). -/

namespace Sys2Proof.Machine

/-- The part is an LX9624-B (R2; fuse word 9 [1:0], R439). -/
def Dev.partB (d : Dev) : Bool := field (d.anchor.fuse.get 9) 1 0 = 1

/-- The block instances a domain serves (R445). For the on-die SRAM arrays these are the partition holders (R19). -/
def domInsts (k : Nat) : List (Nat × Nat) :=
  if k = 0 then [(0x00, 0)]
  else if k = 1 then [(0x01, 0)]
  else if k ≤ 5 then [(0x02, 0)]
  else if k = 6 then [(0x03, 0)]
  else if k = 7 then [(0x05, 0)]
  else if k = 8 then [(0x04, 0)]
  else if k ≤ 12 then [(0x08, k - 9)]
  else if k = 13 then [(0x09, 0)]
  else if k ≤ 15 then [(0x0A, k - 14), (0x0B, k - 14)]
  else if k = 16 then [(0x0B, 0)]
  else if k ≤ 23 then [(0x0C + (k - 17), 0)]
  else if k ≤ 39 then [(0x13, 0)]
  else if k = 40 then [(0x14, 0)]
  else if k = 41 then [(0x15, 0)]
  else if k ≤ 50 then [(0x16, 0)]
  else if k ≤ 74 then [(0x17, k - 51)]
  else if k ≤ 76 then [(0x18, 0)]
  else if k = 77 then [(0x19, 0)]
  else if k ≤ 85 then [(0x1A, 0)]
  else if k = 86 then [(0x1B, 0)]
  else if k = 87 then [(0x1C, 0)]
  else if k ≤ 91 ∨ k = 94 then [(0x14, 0)]
  else if k ≤ 93 then [(0x0E, 0), (0x0B, 0)]
  else if k = 95 then [(0x0C, 0), (0x0D, 0), (0x13, 0), (0x05, 0), (0x12, 0), (0x02, 0), (0x10, 0)]
  else []

/-- The floor of a domain while its block is enabled (R445). -/
def domFloor (k : Nat) : Nat :=
  if k = 1 then 3
  else if k = 2 ∨ k = 75 ∨ k = 76 ∨ k = 87 then 1
  else if (3 ≤ k ∧ k ≤ 5) ∨ (24 ≤ k ∧ k ≤ 39) ∨ (43 ≤ k ∧ k ≤ 50) then 4
  else 0

/-- The PLLs a domain's clocks come from (R445, R451). -/
def domPlls (k : Nat) : List Nat :=
  if k = 0 then []
  else if k = 1 then [0]
  else if k ≤ 5 then [0, 1]
  else if k ≤ 8 then [3]
  else if k ≤ 12 then [5 + (k - 9), 2]
  else if k = 13 then [3]
  else if k ≤ 16 then [2]
  else if k = 19 ∨ k = 20 then [2]
  else if k ≤ 23 then [3]
  else if k ≤ 39 then [1]
  else if k ≤ 42 then [3]
  else if k ≤ 50 then [1]
  else if k ≤ 74 then [10 + (k - 51) / 4, 3]
  else if k ≤ 76 then [1]
  else if k = 77 then [9, 3]
  else if k ≤ 85 then [4]
  else if k = 87 then [3, 16]
  else [3]

/-- The domains of a block instance, the SRAM arrays apart. -/
def instDoms (blk n : Nat) : List Nat := (List.range 88).filter fun k => (domInsts k).contains (blk, n)

/-- A domain as a cold reset leaves it: domains 0 to 5 in D0, every other one in D4. -/
def Dom.rst (k : Nat) : Dom := if k ≤ 5 then { state := 0, req := 0 } else {}

/-- A domain. -/
def Dev.dom (d : Dev) (k : Nat) : Dom := (Tab.look d.camp.doms k).getD (Dom.rst k)

/-- Replace a domain. -/
def Dev.setDom (d : Dev) (k : Nat) (x : Dom) : Dev := { d with camp := { d.camp with doms := Tab.put d.camp.doms k x } }

/-- Is a block the domain serves enabled? -/
def Dev.domBusy (d : Dev) (k : Nat) : Bool := (domInsts k).any fun p => d.isEnabled p.1 p.2

/-- The floor now in force (CAMP_DOM.FLOOR): the domain's own while its block is enabled, else 4. -/
def Dev.floorNow (d : Dev) (k : Nat) : Nat := if d.domBusy k then domFloor k else 4

/-- The state the composition of power state `ps` gives a domain; 0 where it names none (R452). -/
def psState (ps k : Nat) : Nat :=
  let low := (28 ≤ k ∧ k ≤ 39) ∨ (45 ≤ k ∧ k ≤ 50) ∨ (3 ≤ k ∧ k ≤ 5)
  if ps = 1 then if low then 1 else 0
  else if ps = 2 then if low then 2 else 0
  else if ps = 3 then
    if (26 ≤ k ∧ k ≤ 39) ∨ (44 ≤ k ∧ k ≤ 50) then 4
    else if k = 24 ∨ k = 25 ∨ k = 43 then 1
    else if 3 ≤ k ∧ k ≤ 5 then 3
    else 0
  else 0

/-- The target of a domain before the save area is asked for (R449): the deepest of its REQ and its entry in the
composition of the requested power state, raised to the floor in force; the LX9624-B's absent domains stay in D4. -/
def Dev.rawTarget (d : Dev) (k : Nat) : Nat :=
  if d.partB ∧ (k = 11 ∨ k = 12 ∨ (63 ≤ k ∧ k ≤ 74)) then 4
  else
    let t := max (d.dom k).req (psState (d.fget Reg.CAMP_PS.REQ) k)
    if d.domBusy k then min t (domFloor k) else t

/-- A D4 target of an enabled block's domain is held at D3 while there is no save area (R448). -/
def Dev.heldAt3 (d : Dev) (k : Nat) : Bool :=
  d.rawTarget k = 4 && d.domBusy k && d.fget Reg.CAMP_SAVE.BASE_MIB = 0

/-- The target of a domain (CAMP_DOM.TARGET). -/
def Dev.target (d : Dev) (k : Nat) : Nat := if d.heldAt3 k then 3 else d.rawTarget k

/-- Bring a domain's MOVING and the holding at D3 up to date with its target; a new holding sets SAVE_MISSING and
posts event 0x0163 (R448). -/
def Dev.retarget (d : Dev) (k : Nat) : Dev :=
  let x := d.dom k
  let h := d.heldAt3 k
  let d := d.setDom k { x with moving := decide (x.state ≠ d.target k), held := h }
  if h ∧ ¬ x.held then (d.setErr 0 0 8).post 0 0 0x0163 k else d

/-- PLL `p` is asked for: some domain that uses it has a target of D0 to D3 and serves an enabled block, or is asked
for D0 to D3 at all (R455). -/
def Dev.pllWanted (d : Dev) (p : Nat) : Bool :=
  (List.range 96).any fun k => (domPlls k).contains p && decide (d.target k ≤ 3)

/-- A running PLL that every domain has left stops; a PLL that is asked for starts (R455). ANC always runs. -/
def Dev.updatePlls (d : Dev) : Dev :=
  let run := d.fget Reg.CAMP_PLL.RUN
  let want := (List.range 17).foldl (fun acc p => if p = 0 ∨ d.pllWanted p = true then acc + 2 ^ p else acc) 0
  let keep := (List.range 17).foldl (fun acc p =>
    if bitOf run p ∧ (List.range 96).any (fun k => (domPlls k).contains p && decide ((d.dom k).state ≤ 3) && d.domBusy k)
    then acc + 2 ^ p else acc) 0
  let run' := want ||| keep
  let d := d.fset Reg.CAMP_PLL.RUN run'
  d.fset Reg.CAMP_PLL.LOCK (d.fget Reg.CAMP_PLL.LOCK &&& run')

/-- Recompute the targets of the listed domains and the PLLs. -/
def Dev.retargetAll (d : Dev) (ks : List Nat) : Dev := (ks.foldl Dev.retarget d).updatePlls

/-- BLK_PWR_STATE.STATE: the shallowest state among the instance's domains (R449). -/
def Dev.pwrState (d : Dev) (blk n : Nat) : Nat := ((instDoms blk n).map fun k => (d.dom k).state).foldl min 4

/-- BLK_PWR_STATE.MOVING: one of them is changing state. -/
def Dev.pwrMoving (d : Dev) (blk n : Nat) : Bool := (instDoms blk n).any fun k => (d.dom k).moving

/-- Set REQ of the listed domains; a request below a floor in force sets FLOOR in CAMP (R449). -/
def Dev.requestDoms (d : Dev) (ks : List Nat) (st : Nat) : Dev :=
  let below := ks.any fun k => decide (d.floorNow k < st)
  let d := ks.foldl (fun d k => d.setDom k { d.dom k with req := st }) d
  let d := if below then d.setErr 0 0 9 else d
  d.retargetAll ks

/-- A write of BLK_PWR_REQ.STATE (R449); 5 to 7 are ignored. -/
def Dev.requestBlock (d : Dev) (blk n st : Nat) : Dev :=
  if 4 < st then d
  else (d.modInst blk n fun i => { i with pwrReq := st }).requestDoms (instDoms blk n) st

/-- A write of CAMP_DOM.REQ for domain `k`; 5 to 7, and domains beyond 95, are ignored. -/
def Dev.requestDom (d : Dev) (k st : Nat) : Dev := if 4 < st ∨ 95 < k then d else d.requestDoms [k] st

/-- The domains that some power state lowers (R452). -/
def psDoms : List Nat := (List.range 96).filter fun k => decide (0 < psState 3 k)

/-- A wake source occurs (R453): unless the unit already is in PS0 and stays there, it counts, REQ becomes 0, and the
unit rises towards PS0. -/
def Dev.wake (d : Dev) : Dev :=
  if d.fget Reg.CAMP_PS.CUR = 0 ∧ d.fget Reg.CAMP_PS.REQ = 0 ∧ d.fget Reg.CAMP_PS.MOVING = 0 then d
  else
    let d := d.bump Reg.CAMP_PS.WAKES
    let d := d.fset Reg.CAMP_PS.REQ 0
    let d := d.fset Reg.CAMP_PS.MOVING 1
    let d := { d with camp := { d.camp with psWake := true } }
    d.retargetAll psDoms

/-- A write of CAMP_PS.REQ: 0 is a wake source (R453); any other value that is not the state reached starts a
transition to the composed state (R452). -/
def Dev.requestPs (d : Dev) (ps : Nat) : Dev :=
  if ps % 4 = 0 then d.wake
  else
    let d := d.fset Reg.CAMP_PS.REQ ps
    let d := if d.fget Reg.CAMP_PS.CUR = ps % 4 ∧ d.fget Reg.CAMP_PS.MOVING = 0 then d else d.fset Reg.CAMP_PS.MOVING 1
    let d := { d with camp := { d.camp with psWake := false } }
    d.retargetAll psDoms

/-- A domain can receive work: it is in D0, or in D1, which it leaves by itself (R447). -/
def Dev.domTakes (d : Dev) (k : Nat) : Bool := decide ((d.dom k).state ≤ 1)

/-- Admission waits for PS0 (R454). -/
def Dev.psDefers (d : Dev) : Bool := d.fget Reg.CAMP_PS.CUR ≠ 0 || d.fget Reg.CAMP_PS.MOVING = 1

end Sys2Proof.Machine
end

