-- ==== Sys2Proof/Machine/SwitchOps.lean ====
section
/-! DEFINITION. SWITCH and SCHED: cells, queues, early drops, policers, shapers, weighted fair queueing, gate lists, rate
limiters and held sub-ports (R349 to R368). -/

namespace Sys2Proof.Machine

/-! ### Cells and queues (R349 to R351) -/

/-- Rate of a sub-port, Mb/s (R296). -/
def Dev.portRate (d : Dev) (q : Nat) : Nat :=
  let m := d.fget Reg.PRT_CFG.MODE (q / 4)
  if m = 0 then 400000 else if m = 1 then 200000 else 100000

/-- Cells a frame of a length takes. -/
def cellsFor (len : Nat) : Nat := (len + 64 + 255) / 256

/-- Cells of the egress reserve, and those shared by both directions. -/
def Dev.reserveCells (d : Dev) : Nat := 98304 * d.fget Reg.SWT_CFG.EGR_RSV_PCT / 100
def Dev.sharedCells (d : Dev) : Nat := 98304 - d.reserveCells

/-- All ingress frames. -/
def Dev.inFrames (d : Dev) : List InFrame := d.swt.ingress.flatMap (·.2)

/-- Cells that ingress frames, and produced frames, hold in SRAM. -/
def Dev.inCells (d : Dev) : Nat := ((d.inFrames.filter fun f => !f.dram).map (·.cells)).foldl (· + ·) 0
def Dev.outCells (d : Dev) : Nat := ((d.swt.frames.filter fun f => !f.2.dram).map (·.2.cells)).foldl (· + ·) 0

/-- Shared cells in use: those of ingress frames, and of produced frames beyond the reserve. -/
def Dev.sharedUsed (d : Dev) : Nat := d.inCells + (d.outCells - d.reserveCells)

/-- Bytes of the overflow area in use: a frame there takes as much as its cells (DEDUCED). -/
def Dev.ovfUsed (d : Dev) : Nat :=
  256 * (((d.inFrames.filter (·.dram)).map (·.cells)).foldl (· + ·) 0 +
    ((d.swt.frames.filter fun f => f.2.dram).map (·.2.cells)).foldl (· + ·) 0)

/-- Has the overflow area room for so many cells' bytes? -/
def Dev.ovfRoom (d : Dev) (cells : Nat) : Bool :=
  decide (d.ovfUsed + 256 * cells ≤ (d.fget Reg.SWT_OVF.LIMIT_MIB - d.fget Reg.SWT_OVF.BASE_MIB) * 1048576)

/-- Does a queue take its next frame to DRAM (R350): it holds a DRAM frame, or its occupancy or the pool calls for it? -/
def Dev.overflows (d : Dev) (hasDram : Bool) (sramCells : Nat) : Bool :=
  d.fget Reg.SWT_CFG.OVF_EN = 1 &&
    (hasDram || decide (d.fget Reg.SWT_OVF_THR.QUEUE_KIB * 1024 < sramCells * 256) ||
      decide ((d.sharedCells - d.sharedUsed) * 100 < d.fget Reg.SWT_OVF_THR.POOL_PCT * d.sharedCells))

/-- SWT_OCC and SWT_QDESC.IN_USE show the occupancy. -/
def Dev.showSwt (d : Dev) : Dev :=
  let d := d.fset Reg.SWT_OCC.CELLS (d.inCells + d.outCells)
  let d := d.fset Reg.SWT_OCC.DRAM_MIB (min 65535 ((d.ovfUsed + 1048575) / 1048576))
  d.fset Reg.SWT_QDESC.IN_USE (d.swt.egress.filter fun q => !q.2.frames.isEmpty).length

/-- Event 0x00E1, at most once a millisecond (R351). -/
def Dev.fullEvent (d : Dev) : Dev :=
  let ok := match d.swt.fullEvent with
    | some t => decide (t + 1000000 ≤ d.now)
    | none => true
  if ok then { d with swt := { d.swt with fullEvent := some d.now } }.post 0x0E 0 0xE1 1 else d

/-! ### Ingress: early drops and queueing (R350 to R354) -/

/-- The new average occupancy (R353), in 1/65,536 byte. -/
def redAverage (a q w : Nat) : Nat :=
  let q := q * 65536
  if a ≤ q then a + (q - a) / 2 ^ w else a - (a - q) / 2 ^ w

/-- Is a frame selected by RED: `r` is the pseudo-random number, of which 16 bits are used? -/
def redSelects (a lo hi pmax r : Nat) : Bool :=
  let lo := lo * 65536 * 65536
  let hi := hi * 65536 * 65536
  if a < lo then false
  else if hi ≤ a then true
  else decide (r % 65536 * 256 * (hi - lo) < pmax * (a - lo) * 65536)

/-- An ingress frame that has passed its policer reaches its queue, marked, or is dropped (R351, R353). `ect` says that
its ECN field is ECT(0) or ECT(1). -/
def Dev.enqueueIn (d : Dev) (pipe tc : Nat) (desc : Desc) (col : Colour) (ect : Bool) : Dev :=
  let key := pipe * 8 + tc
  let q := (Tab.look d.swt.ingress key).getD []
  let occ := 256 * (q.map (·.cells)).foldl (· + ·) 0
  let red := Reg.SWT_RED.G_MIN.nth tc
  let get := fun (f : FRef) => d.fget (f.nth tc)
  let a := redAverage ((Tab.look d.swt.avg key).getD 0) occ (get Reg.SWT_RED.WEIGHT)
  let d := { d with swt := { d.swt with avg := Tab.put d.swt.avg key a } }
  let lo := if col = .green then d.fget red else get Reg.SWT_RED.Y_MIN
  let hi := if col = .green then get Reg.SWT_RED.G_MAX else get Reg.SWT_RED.Y_MAX
  let (r, d) := d.takeFree
  let sel := redSelects a lo hi (get Reg.SWT_RED.PMAX) r.toNat
  let mark := sel && decide (a < hi * 65536 * 65536) && get Reg.SWT_RED.ECN = 1 && ect
  if sel && !mark then
    if col = .green then d.bump Reg.SWT_DROP.GREEN else d.bump Reg.SWT_DROP.YELLOW
  else
    let d := if mark then d.bump Reg.SWT_ECN.MARKED else d
    let cells := cellsFor desc.len
    let sram := ((q.filter fun f => !f.dram).map (·.cells)).foldl (· + ·) 0
    let ovf := d.overflows (q.any (·.dram)) sram
    let fits := decide (d.sharedUsed + cells ≤ d.sharedCells)
    let room := d.fget Reg.SWT_CFG.OVF_EN = 1 && d.ovfRoom cells
    if (ovf || !fits) && !room then (d.bump Reg.SWT_OVFSTAT.FULL_DROPS).fullEvent
    else
      let dram := ovf || !fits
      let d := if dram then d.bump Reg.SWT_OVFSTAT.OVERFLOWS else d
      let f : InFrame := { desc := desc, colour := col, cells := cells, dram := dram, ce := mark }
      Dev.showSwt { d with swt := { d.swt with ingress := Tab.put d.swt.ingress key (q ++ [f]) } }

/-- The transport `kind` takes the oldest queued frame of a context, when one is queued. -/
def Dev.takeIn (d : Dev) (kind ctx : Nat) : Dev :=
  let hit := fun (f : InFrame) => decide (bitsOf f.desc.act 15 8 = kind) && f.desc.context = ctx
  match d.swt.ingress.find? (fun p => p.2.any hit) with
  | none => d
  | some p =>
    Dev.showSwt { d with swt := { d.swt with ingress := Tab.put d.swt.ingress p.1 (p.2.eraseP hit) } }

/-! ### Policers (R357, R358) -/

/-- Refill a level of bytes at a rate for a time, up to its size; the remainder counts 1/8,000 byte. -/
def refillBytes (lvl rem rate dt size : Nat) : Nat × Nat :=
  let t := rate * dt + rem
  (min size (lvl + t / 8000), if size ≤ lvl + t / 8000 then 0 else t % 8000)

/-- A policer at an instant. -/
def Policer.at_ (p : Policer) (now : Nat) : Policer :=
  let dt := now - p.last
  let (tc, cr) := refillBytes p.tc p.cRem p.cir dt p.cbs
  let (tp, pr) := refillBytes p.tp p.pRem p.pir dt p.pbs
  { p with tc := tc, cRem := cr, tp := tp, pRem := pr, last := now }

/-- The RFC 2698 marker, colour-blind (R357). -/
def Policer.mark (p : Policer) (b : Nat) : Colour × Policer :=
  if p.tp < b then (.red, p)
  else if p.tc < b then (.yellow, { p with tp := p.tp - b })
  else (.green, { p with tp := p.tp - b, tc := p.tc - b })

/-- Police a frame (R357): its colour, none for a foreign or invalid policer. -/
def Dev.police (d : Dev) (n tenant bytes : Nat) : Option Colour × Dev :=
  if n = 0 then (some .green, d)
  else
    match Tab.look d.sch.pol n with
    | none => (none, d.bump Reg.SCH_POL_DROP.MISMATCH)
    | some p =>
      if p.tenant ≠ tenant then (none, d.bump Reg.SCH_POL_DROP.MISMATCH)
      else
        let (c, p) := (p.at_ d.now).mark bytes
        let d := { d with sch := { d.sch with pol := Tab.put d.sch.pol n p } }
        if c = .red then (some .red, ((d.bump Reg.SCH_POL_DROP.RED).tcount tenant 12 1).sample 0x0E (some tenant))
        else (some c, d)

/-- A policer entry of the table in DRAM (R358), or the result that refuses it; the zero of PIR is reported first. -/
def Dev.readPolicer (d : Dev) (base n : Nat) : Except Nat (Option Policer) :=
  let a := base + 32 * n
  let m := d.mem.dram
  let cir := m.read a 4
  let pir := m.read (a + 4) 4
  let cbs := m.read (a + 8) 4
  let pbs := m.read (a + 12) 4
  let ten := m.read (a + 16) 2
  let fl := m.read (a + 18) 1
  if fl % 2 = 0 then .ok none
  else if pir = 0 then .error 6
  else if 400000 < cir ∨ 400000 < pir ∨ pir < cir ∨ 16777216 < cbs ∨ (cir ≠ 0 ∧ cbs < 9216) ∨ pbs < 9216 ∨
      16777216 < pbs ∨ 4096 ≤ ten ∨ 1 < fl ∨ m.read (a + 19) 13 ≠ 0 then .error 2
  else .ok (some { cir := cir, pir := pir, cbs := cbs, pbs := pbs, tenant := ten, tc := cbs, tp := pbs, last := d.now })

/-- The done event of an update (0x00F2). -/
def Dev.schDone (d : Dev) (n res : Nat) (pol : Bool) : Dev := d.post 0x0F 0 0xF2 (n * 65536 + res + b2n pol * 256)

/-- A write of SCH_POL_UPDATE.GO (R358). -/
def Dev.polUpdate (d : Dev) (n : Nat) : Dev :=
  if d.fget Reg.SCH_POL_UPDATE.BUSY = 1 ∨ !d.on 0x0F then d
  else
    let d := d.fset Reg.SCH_POL_UPDATE.POLICER n
    let r := if n = 0 then Except.error 2 else d.readPolicer (d.fget Reg.SCH_POL_TAB.ADDR * 4096) n
    let (res, pol) := match r with
      | .error e => (e, d.sch.pol)
      | .ok none => (0, Tab.del d.sch.pol n)
      | .ok (some p) =>
        match Tab.look d.sch.pol n with
        | some old =>
          let old := old.at_ d.now
          (0, Tab.put d.sch.pol n { p with tc := min old.tc p.cbs, tp := min old.tp p.pbs })
        | none => (0, Tab.put d.sch.pol n p)
    let d := { d with sch := { d.sch with pol := pol } }
    (d.fset Reg.SCH_POL_UPDATE.RESULT res).schDone n res true

/-! ### Shapers (R360 to R362) -/

/-- Refill a bucket of 1/256 bytes at a rate for a time, up to its size in bytes. -/
def refillBucket (lvl : Int) (rem rate dt size : Nat) : Int × Nat :=
  let t := rate * dt * 256 + rem
  let v := lvl + (t / 8000 : Nat)
  if ((size * 256 : Nat) : Int) ≤ v then (((size * 256 : Nat) : Int), 0) else (v, t % 8000)

/-- A shaper at an instant. -/
def Shaper.at_ (s : Shaper) (now : Nat) : Shaper :=
  let dt := now - s.last
  let (c, cr) := refillBucket s.c s.cRem s.cr dt s.cb
  let (e, er) := refillBucket s.e s.eRem s.pr dt s.pb
  { s with c := c, cRem := cr, e := e, eRem := er, last := now }

/-- A shaper entry of the table in DRAM (R361), or the result that refuses it. -/
def Dev.readShaper (d : Dev) (base n : Nat) : Except Nat (Option Shaper) :=
  let a := base + 32 * n
  let m := d.mem.dram
  let cr := m.read a 4
  let pr := m.read (a + 4) 4
  let cb := m.read (a + 8) 4
  let pb := m.read (a + 12) 4
  let w := m.read (a + 16) 1
  let fl := m.read (a + 17) 1
  if fl % 2 = 0 then .ok none
  else if pr = 0 ∨ w = 0 then .error 6
  else if 400000 < cr ∨ 400000 < pr ∨ pr < cr ∨ (cb < 9236 ∧ ¬(cb = 0 ∧ cr = 0)) ∨ 16777216 < cb ∨ pb < 9236 ∨
      16777216 < pb ∨ 1 < fl ∨ m.read (a + 18) 14 ≠ 0 then .error 2
  else .ok (some { cr := cr, pr := pr, cb := cb, pb := pb, weight := w, c := cb * 256, e := pb * 256, last := d.now })

/-- A write of SCH_TEN_UPDATE.GO (R362): debts stay, and a fuller bucket is cut. -/
def Dev.shaperUpdate (d : Dev) (n : Nat) : Dev :=
  if d.fget Reg.SCH_TEN_UPDATE.BUSY = 1 ∨ !d.on 0x0F then d
  else
    let d := d.fset Reg.SCH_TEN_UPDATE.TENANT n
    let (res, ten) := match d.readShaper (d.fget Reg.SCH_TEN_TAB.ADDR * 4096) n with
      | .error e => (e, d.sch.ten)
      | .ok none => (0, Tab.del d.sch.ten n)
      | .ok (some s) =>
        match Tab.look d.sch.ten n with
        | some old =>
          let old := old.at_ d.now
          (0, Tab.put d.sch.ten n { s with c := min old.c s.c, e := min old.e s.e })
        | none => (0, Tab.put d.sch.ten n s)
    let d := { d with sch := { d.sch with ten := ten } }
    (d.fset Reg.SCH_TEN_UPDATE.RESULT res).schDone n res false

/-- Eligibility of a tenant's head frames (R360): 2 green, 1 yellow, 0 none. -/
def Dev.eligible (d : Dev) (tenant : Nat) : Nat :=
  if tenant = 0 then 2
  else match Tab.look d.sch.ten tenant with
    | none => 0
    | some s =>
      let s := s.at_ d.now
      if s.e ≤ 0 then 0 else if 0 < s.c then 2 else 1

/-! ### Gate lists (R364 to R367) -/

/-- Bytes of every entry of a table between two addresses that has a listed byte: its number. -/
def touched (m : Memory) (base size n : Nat) : List Nat :=
  ((m.filter fun p => decide (base ≤ p.1 ∧ p.1 < base + size * n)).map fun p => (p.1 - base) / size).dedup

/-- The gate-list table in DRAM, as it is copied (R364). -/
def Dev.readNetGates (d : Dev) (base : Nat) : NetGates :=
  let m := d.mem.dram
  let n := m.read base 1 % 16 + 1
  { cycle := m.read (base + 4) 4
    lists := (List.range n).map fun l => (List.range (m.read (base + 8 + 8 * l) 1 % 128)).map fun i =>
      let e := base + 0x100 + 512 * l + 8 * i
      (m.read e 4, m.read (e + 4) 1)
    map := (List.range 16).map fun q => (m.read (base + 0x2100 + 8 * q) 1 % 16, m.read (base + 0x2104 + 8 * q) 4) }

/-- Reserved bits of the table (R364). -/
def Dev.netGatesReserved (d : Dev) (base : Nat) : Bool :=
  let m := d.mem.dram
  let n := m.read base 1 % 16 + 1
  decide (m.read base 4 / 16 = 0) &&
    ((List.range n).all fun l => decide (m.read (base + 8 + 8 * l) 8 < 128) &&
      (List.range (m.read (base + 8 + 8 * l) 1 % 128)).all fun i =>
        decide (m.read (base + 0x105 + 512 * l + 8 * i) 3 = 0)) &&
    (List.range 16).all fun q => decide (m.read (base + 0x2100 + 8 * q) 4 < 16)

/-- Time a class stays open from a position of a list, at most `left` entries further: entries laid end to end. -/
def openFrom (tc : Nat) : List (Nat × Nat) → Nat → Nat
  | [], _ => 0
  | (dur, g) :: es, pos =>
    if pos < dur then (if bitOf g tc then dur - pos + openFrom tc es 0 else 0)
    else openFrom tc es (pos - dur)

/-- How long the gate of a class of a sub-port stays open from now, none for ever. -/
def NetGates.openNow (g : NetGates) (start q tc now : Nat) : Option Nat :=
  let (l, ph) := g.map.getD q (0, 0)
  let es := g.lists.getD l []
  if es.all (fun e => bitOf e.2 tc) then none
  else some (openFrom tc (es ++ es) (if g.cycle = 0 then 0 else (now + g.cycle - start % (max 1 g.cycle) + ph) % g.cycle))

/-- The longest run of open entries of a class around the cycle. -/
def longestOpen (tc : Nat) (es : List (Nat × Nat)) : Nat :=
  ((List.range es.length).map fun i => openFrom tc (es.rotateLeft i) 0).foldl max 0

/-- Result of checking a gate-list table (R366): none, or a refusal reason. -/
def Dev.checkNetGates (d : Dev) (base : Nat) : Option Nat :=
  let g := d.readNetGates base
  let okList := fun (es : List (Nat × Nat)) =>
    decide (1 ≤ es.length ∧ es.length ≤ 64) && es.all (fun e => decide (100 ≤ e.1)) &&
      decide ((es.map (·.1)).foldl (· + ·) 0 = g.cycle)
  if !d.netGatesReserved base || g.cycle < 1000 || 10000000 < g.cycle || !g.lists.all okList ||
      !g.map.all (fun p => decide (p.1 < g.lists.length ∧ p.2 < g.cycle)) then some 0x0F20
  else
    let bad := (List.range 16).any fun q =>
      let es := g.lists.getD (g.map.getD q (0, 0)).1 []
      let need := (d.fget Reg.PRT_CFG.MTU (q / 4) + 20) * 8000 / d.portRate q
      (List.range 8).any fun tc => es.any (fun e => bitOf e.2 tc) && decide (longestOpen tc es < need)
    if bad then some 0x0F21 else none

/-- The start of a gate list asked for at `r` (R367), and whether it is late. -/
def gateStart (base cycle r : Nat) : Nat × Bool :=
  if r + 20000 ≤ base then (base, false)
  else (base + (r + 20000 - base + cycle - 1) / (max 1 cycle) * cycle, true)

/-- Prepare a gate list at an enable or swap: its start is fixed, and a late one is reported. -/
def Dev.gateArm (d : Dev) : Dev :=
  if d.fget Reg.SCH_CFG.GATES_EN = 0 then d
  else
    let g := d.readNetGates ((field (d.shadow.get (regAddr 0x0F 0 Reg.SCH_GL_TAB.ADDR.off)) 39 12) * 4096)
    let base := (d.shadow.get (regAddr 0x0F 0 Reg.SCH_GL_BASE.NS.off)).toNat
    let (st, late) := gateStart base g.cycle d.now
    let d := { d with sch := { d.sch with next := some (g, st) } }
    let d := d.fset Reg.SCH_GL_LATE.LATE_START (b2n late)
    if late then (d.bump Reg.SCH_GL_LATE.COUNT).post 0x0F 0 0xF0 (st % 2 ^ 32) else d

/-- A network gate list reaches its start (R367). -/
def Dev.gateListStart (d : Dev) : Dev :=
  match d.sch.next with
  | none => d
  | some (g, st) =>
    if d.now < st then d
    else
      let d := ({ d with sch := { d.sch with gates := g, next := none } }).fset Reg.SCH_GL_START.NS st
      if (d.inst 0x0F 0).swapReady then d.takeGen 0x0F 0 false else d

/-- How long a class's gate of a sub-port stays open (R365); none for ever. -/
def Dev.gateOpen (d : Dev) (q tc : Nat) : Option Nat :=
  if d.fget Reg.SCH_CFG.GATES_EN = 0 then none
  else d.sch.gates.openNow (d.fget Reg.SCH_GL_START.NS) q tc d.now

/-! ### Weighted fair queueing (R359) -/

/-- Order of 48-bit finish times: is a before b? -/
def vBefore (a b : Nat) : Bool := decide (2 ^ 47 ≤ (a + 2 ^ 48 - b % 2 ^ 48) % 2 ^ 48)

/-- The later of two. -/
def vMax (a b : Nat) : Nat := if vBefore a b then b else a

/-- Key of an egress queue, and of a class. -/
def egrKey (q tc tenant : Nat) : Nat := (q * 8 + tc) * 4096 + tenant
def egrCls (q tc : Nat) : Nat := q * 8 + tc

/-- The sub-port, class, queue records. -/
def Dev.egrPort (d : Dev) (q : Nat) : EgrPort := (Tab.look d.swt.ports q).getD {}
def Dev.egrClass (d : Dev) (q tc : Nat) : EgrClass := (Tab.look d.swt.classes (egrCls q tc)).getD {}
def Dev.setEgrPort (d : Dev) (q : Nat) (p : EgrPort) : Dev := { d with swt := { d.swt with ports := Tab.put d.swt.ports q p } }

/-- Wire length of a frame. -/
def wireLen (len : Nat) : Nat := len + 20

/-- The tenant's weight in its class. -/
def Dev.tenWeight (d : Dev) (t : Nat) : Nat := max 1 (((Tab.look d.sch.ten t).map (·.weight)).getD 1)

/-- Weight of a class. -/
def Dev.clsWeight (d : Dev) (tc : Nat) : Nat := max 1 (bitsOf (d.fget Reg.SCH_TC_WEIGHT.WEIGHT) (8 * tc + 7) (8 * tc))

/-- Finish time of a frame that starts at `s`. -/
def finish (s len w : Nat) : Nat := (s + wireLen len * 256 / w) % 2 ^ 48

/-- The non-empty queues of a sub-port and class, with their tenants. -/
def Dev.queuesOf (d : Dev) (q tc : Nat) : List (Nat × EgrQ) :=
  (d.swt.egress.filter fun p => decide (p.1 / 4096 = egrCls q tc) && !p.2.frames.isEmpty).map fun p => (p.1 % 4096, p.2)

/-- Length of a produced frame. -/
def Dev.frameLen (d : Dev) (id : Nat) : Nat := ((Tab.look d.swt.frames id).map (·.len)).getD 0

/-- Put one copy of a frame in its queue (R355, R359). -/
def Dev.enqueueCopy (d : Dev) (id q tc tenant len : Nat) : Dev :=
  let c := d.egrClass q tc
  let c := if (d.queuesOf q tc).isEmpty then { c with start := vMax (d.egrPort q).v c.fLast } else c
  let key := egrKey q tc tenant
  let e := (Tab.look d.swt.egress key).getD {}
  let e := if e.frames.isEmpty then { e with head := finish (vMax c.v e.fLast) len (d.tenWeight tenant) } else e
  { d with swt := { d.swt with classes := Tab.put d.swt.classes (egrCls q tc) c
                               egress := Tab.put d.swt.egress key { e with frames := e.frames ++ [id] } } }

/-! ### Producing frames (R349, R351, R355, R361) -/

/-- Must a produced frame be written to the overflow area (R350): does a queue it joins overflow? -/
def Dev.outOverflows (d : Dev) (f : OutFrame) : Bool :=
  let qs := f.ports.map fun q => (Tab.look d.swt.egress (egrKey q f.tclass f.tenant)).getD {}
  let ids := qs.flatMap (·.frames)
  let drams := ids.any fun i => ((Tab.look d.swt.frames i).map (·.dram)).getD false
  let sram := (qs.map fun e => (e.frames.filterMap fun i => Tab.look d.swt.frames i).foldl
    (fun n g => if g.dram then n else n + g.cells) 0).foldl max 0
  d.overflows drams sram

/-- Is there a cell that a produced frame may use, or room in the overflow area, and a queue descriptor (R350, R351)? -/
def Dev.hasRoom (d : Dev) (f : OutFrame) : Bool :=
  let cells := (decide (d.inCells + d.outCells + f.cells ≤ 98304) && !d.outOverflows f) ||
    (d.fget Reg.SWT_CFG.OVF_EN = 1 && d.ovfRoom f.cells)
  let new := (f.ports.filter fun q => !((Tab.look d.swt.egress (egrKey q f.tclass f.tenant)).any fun e => !e.frames.isEmpty)).length
  cells && decide (d.fget Reg.SWT_QDESC.IN_USE + new ≤ 131072)

/-- Take a frame into its queues. -/
def Dev.admitFrame (d : Dev) (f : OutFrame) : Dev :=
  let dram := decide (98304 < d.inCells + d.outCells + f.cells) || d.outOverflows f
  let d := if dram then d.bump Reg.SWT_OVFSTAT.OVERFLOWS else d
  let id := d.swt.nextFrame
  let f := { f with dram := dram, refs := f.ports.length }
  let d := { d with swt := { d.swt with frames := Tab.put d.swt.frames id f, nextFrame := id + 1 } }
  Dev.showSwt (f.ports.foldl (fun d q => d.enqueueCopy id q f.tclass f.tenant f.len) d)

/-- One copy of a frame has left or been freed: with the last, its cells are free (R355). -/
def Dev.dropRef (d : Dev) (id : Nat) : Dev :=
  match Tab.look d.swt.frames id with
  | none => d
  | some f =>
    let frames := if f.refs ≤ 1 then Tab.del d.swt.frames id else Tab.put d.swt.frames id { f with refs := f.refs - 1 }
    Dev.showSwt { d with swt := { d.swt with frames := frames } }

/-- Hold time of a sub-port, ns. -/
def Dev.holdNs (d : Dev) (q : Nat) : Nat :=
  min 100 (bitsOf (d.fget (Reg.SCH_HOLD.HOLD_MS.nth (q / 8))) (8 * (q % 8) + 7) (8 * (q % 8))) * 1000000

/-- Free every frame queued for a sub-port, and count the copies freed. -/
def Dev.freeQueued (d : Dev) (q : Nat) : Dev :=
  let mine := d.swt.egress.filter fun p => decide (p.1 / 4096 / 8 = q)
  let ids := mine.flatMap (·.2.frames)
  let egress := d.swt.egress.map fun p => if p.1 / 4096 / 8 = q then (p.1, { p.2 with frames := [] }) else p
  let d := { d with swt := { d.swt with egress := egress } }
  let d := ids.foldl Dev.dropRef d
  ((d.bump Reg.SCH_HELD.FREED ids.length).post 0x0F 0 0xF1 q).showSwt

/-- The hold of a down sub-port passes. -/
def Dev.holdExpiry (d : Dev) (q : Nat) : Dev :=
  let p := d.egrPort q
  match p.downSince with
  | some t => if p.expired ∨ d.now < t + d.holdNs q then d else (d.setEgrPort q { p with expired := true }).freeQueued q
  | none => d

/-- The copies of a frame for sub-ports that are down past their hold are freed (R368). -/
def Dev.freeDead (d : Dev) (f : OutFrame) : Dev × OutFrame :=
  let d := f.ports.foldl Dev.holdExpiry d
  let dead := f.ports.filter fun q => (d.egrPort q).expired
  (if dead.isEmpty then d else d.bump Reg.SCH_HELD.DOWN_DROP dead.length,
    { f with ports := f.ports.filter fun q => !(d.egrPort q).expired })

/-- A producer hands SWITCH a frame: frames of a tenant without a valid shaper entry are dropped (R361), copies for a
sub-port down past its hold are freed (R368), and a frame that finds no room waits (R351). -/
def Dev.emit (d : Dev) (f : OutFrame) : Dev :=
  if !d.on 0x0E || !d.on 0x0F then d
  else if f.tenant ≠ 0 ∧ (Tab.look d.sch.ten f.tenant).isNone then
    { d with sch := { d.sch with invalid := Tab.modify d.sch.invalid 0 f.tenant (· + 1) } }
  else
    let (d, f) := d.freeDead f
    if f.ports.isEmpty then d
    else if d.swt.waiting.isEmpty && d.hasRoom f then d.admitFrame f
    else ({ d with swt := { d.swt with waiting := d.swt.waiting ++ [f] } }).bump Reg.SWT_QDESC.WAITS

/-- A waiting producer continues once its frame finds room (R351). -/
def Dev.producerResume (d : Dev) : Dev :=
  match d.swt.waiting with
  | [] => d
  | f :: fs =>
    let (d, f) := d.freeDead f
    if f.ports.isEmpty then { d with swt := { d.swt with waiting := fs } }
    else if d.hasRoom f then ({ d with swt := { d.swt with waiting := fs } }).admitFrame f
    else { d with swt := { d.swt with waiting := f :: fs } }

/-- The frame in transmission on a sub-port ends when its time has come. -/
def Dev.settleTx (d : Dev) (q : Nat) : Dev :=
  let p := d.egrPort q
  match p.tx with
  | some (id, t) => if t ≤ d.now then (d.setEgrPort q { p with tx := none }).dropRef id else d
  | none => d

/-- Does a context's rate limiter let a frame go now (R363)? -/
def Dev.limiterAllows (d : Dev) (ctx : Option Nat) : Bool :=
  match ctx with
  | none => true
  | some c => match Tab.look d.sch.lim c with
    | some l => decide (l.ready ≤ d.now)
    | none => true

/-- Time a frame takes on a sub-port with its gap, ns, rounded up. -/
def Dev.txTime (d : Dev) (q len : Nat) : Nat := (wireLen len * 8000 + d.portRate q - 1) / d.portRate q

/-- May the head frame of a queue start now: tokens, limiter and the time left in its window (R360, R363, R365)? The
answer is its eligibility. -/
def Dev.headEligible (d : Dev) (q tc tenant : Nat) (e : EgrQ) : Nat :=
  match e.frames with
  | [] => 0
  | id :: _ =>
    let f := (Tab.look d.swt.frames id).getD { tenant := 0, tclass := 0, len := 0, cells := 0, ports := [] }
    let fits := match d.gateOpen q tc with
      | none => true
      | some t => decide (d.txTime q f.len ≤ t)
    if fits && d.limiterAllows f.ctx then d.eligible tenant else 0

/-- The least by finish time, the lower number on a tie. -/
def vLeast : List (Nat × Nat) → Option (Nat × Nat)
  | [] => none
  | x :: xs => match vLeast xs with
    | none => some x
    | some y => if vBefore y.2 x.2 then some y else some x

/-- The tenant that a class of a sub-port serves next (R360): its number and whether the frame goes green. -/
def Dev.chooseTenant (d : Dev) (q tc : Nat) : Option (Nat × Bool) :=
  let qs := (d.queuesOf q tc).map fun p => (p.1, p.2.head, d.headEligible q tc p.1 p.2)
  let pick := fun n => (vLeast ((qs.filter fun x => x.2.2 = n).map fun x => (x.1, x.2.1))).map (·.1)
  match pick 2 with
  | some t => some (t, true)
  | none => (pick 1).map fun t => (t, false)

/-- Length of a tenant's head frame. -/
def Dev.headLen (d : Dev) (q tc t : Nat) : Nat :=
  match Tab.look d.swt.egress (egrKey q tc t) with
  | some e => d.frameLen (e.frames.headD 0)
  | none => 0

/-- The class a sub-port serves next, with its tenant (12, "Egress scheduling", levels 1 to 3). -/
def Dev.chooseClass (d : Dev) (q : Nat) : Option (Nat × Nat × Bool) :=
  let cs := (List.range 8).filterMap fun tc => (d.chooseTenant q tc).map fun t => (tc, t)
  let strict := cs.filter fun x => bitOf (d.fget Reg.SCH_CFG.STRICT) x.1
  match strict.getLast? with
  | some x => some (x.1, x.2.1, x.2.2)
  | none =>
    let fs := cs.map fun x => (x.1, finish (d.egrClass q x.1).start (d.headLen q x.1 x.2.1) (d.clsWeight x.1))
    match vLeast fs with
    | none => none
    | some y => (cs.find? fun x => x.1 = y.1).map fun x => (x.1, x.2.1, x.2.2)

/-- Put a stamp in a port's TIM_TXTS FIFO, or lose it (R303). -/
def Dev.txStamp (d : Dev) (p tag : Nat) : Dev :=
  let comp := signed 16 (d.fget Reg.PRT_TSCOMP.TX p)
  let ns := ((d.now * 8 : Nat) + comp) / 8
  let q := (Tab.look d.tim.txts p).getD []
  if 16 ≤ q.length then d.setErr 9 0 9
  else { d with tim := { d.tim with txts := Tab.put d.tim.txts p (q ++ [{ tag := tag, ns := ns.toNat }]) } }

/-- A sub-port chooses its next frame and starts it (R303, R355, R359, R360, R365). -/
def Dev.egressStart (d : Dev) (q : Nat) : Dev :=
  let d := d.settleTx q
  let p := d.egrPort q
  if p.tx.isSome ∨ p.downSince.isSome ∨ !d.on 0x0F ∨ !d.on 0x0E then d
  else
    match d.chooseClass q with
    | none => d
    | some (tc, t, green) =>
      let key := egrKey q tc t
      match Tab.look d.swt.egress key with
      | none => d
      | some e =>
        match e.frames with
        | [] => d
        | id :: rest =>
          let f := (Tab.look d.swt.frames id).getD { tenant := 0, tclass := 0, len := 0, cells := 0, ports := [] }
          let c := d.egrClass q tc
          let cf := finish c.start f.len (d.clsWeight tc)
          let e' : EgrQ := { frames := rest, fLast := e.head
                             head := match rest with
                               | [] => e.head
                               | n :: _ => finish e.head (d.frameLen n) (d.tenWeight t) }
          let c' : EgrClass := { v := e.head, start := cf, fLast := cf }
          let ten := match Tab.look d.sch.ten t with
            | some s =>
              if t = 0 then d.sch.ten
              else
                let s := s.at_ d.now
                let l : Int := (wireLen f.len * 256 : Nat)
                Tab.put d.sch.ten t { s with e := s.e - l, c := if green then s.c - l else s.c }
            | none => d.sch.ten
          let lim := match f.ctx with
            | some x => match Tab.look d.sch.lim x with
              | some l => Tab.put d.sch.lim x { l with ready := d.now + wireLen f.len * 8000 / max 1 l.rate }
              | none => d.sch.lim
            | none => d.sch.lim
          let port : EgrPort := { p with v := cf, tx := some (id, d.now + d.txTime q f.len) }
          let d := { d with
            swt := { d.swt with egress := Tab.put d.swt.egress key e'
                                classes := Tab.put d.swt.classes (egrCls q tc) c'
                                ports := Tab.put d.swt.ports q port }
            sch := { d.sch with ten := ten, lim := lim } }
          let d := match f.stampTag with
            | some g => d.txStamp (q / 4) g
            | none => d
          (d.countFrame q f.len false).showSwt

/-! ### A sub-port goes down (R368) -/

/-- Lanes of a sub-port (R296). -/
def Dev.lanesOf (d : Dev) (q : Nat) : Nat :=
  let m := d.fget Reg.PRT_CFG.MODE (q / 4)
  let s := q % 4
  if m = 0 then 15 else if m = 1 then 3 * 2 ^ (2 * s % 4) else 2 ^ s

/-- A sub-port's link comes up or is lost (R299, R368). -/
def Dev.linkChange (d : Dev) (q : Nat) (up : Bool) : Dev :=
  let n := q / 4
  let bit := 2 ^ (q % 4)
  let was := bitOf (d.fget Reg.PRT_LINK.UP n) (q % 4)
  if !d.on 8 n || was = up || !bitOf (d.fget Reg.PRT_CFG.SUBEN n) (q % 4) then d
  else
    let m := d.fget Reg.PRT_LINK.UP n
    let l := d.fget Reg.PRT_LINK.LOCK n
    let lanes := d.lanesOf q
    let d := d.fset Reg.PRT_LINK.UP (if up then m ||| bit else m ^^^ bit) n
    let d := d.fset Reg.PRT_LINK.LOCK (if up then l ||| lanes else l &&& (15 ^^^ lanes)) n
    let d := d.post 8 n 0x90 (q + b2n up * 256)
    let late := (d.egrPort q).downSince.any fun t => decide (t + d.holdNs q < d.now)
    let d := if up && late then d.holdExpiry q else d
    let p := d.egrPort q
    if up then d.setEgrPort q { p with downSince := none, expired := false }
    else
      let d := d.bumpSat Reg.PRT_LINK.DOWN_EVENTS 1 n
      let d := d.setEgrPort q { p with downSince := some d.now, expired := false, tx := none }
      let d := match p.tx with
        | some (id, _) => (d.bump Reg.SCH_HELD.FREED).dropRef id
        | none => d
      if d.holdNs q = 0 then d.holdExpiry q else d

/-! ### Rate limiters (R363) -/

/-- SCH_CNP_OCC.IN_USE shows the limiters. -/
def Dev.showLimits (d : Dev) : Dev := d.fset Reg.SCH_CNP_OCC.IN_USE d.sch.lim.length

/-- The limiter with the highest rate. -/
def fastest : Tab Limiter → Option (Nat × Limiter)
  | [] => none
  | x :: xs => match fastest xs with
    | none => some x
    | some y => if x.2.rate < y.2.rate then some y else some x

/-- A CNP limits its context's rate. -/
def Dev.cnpLimit (d : Dev) (ctx port : Nat) : Dev :=
  let cut := fun r => r * (256 - d.fget Reg.SCH_CNP.CUT) / 256
  let least := d.fget Reg.SCH_CNP.MIN * 100
  match Tab.look d.sch.lim ctx with
  | some l =>
    { d with sch := { d.sch with lim := Tab.put d.sch.lim ctx { l with rate := max least (cut l.rate), since := d.now } } }
  | none =>
    let d := if d.sch.lim.length < 4096 then d
      else match fastest d.sch.lim with
        | some x => ({ d with sch := { d.sch with lim := Tab.del d.sch.lim x.1 } }).bump Reg.SCH_CNP_OCC.EVICTED
        | none => d
    let l : Limiter := { port := port, rate := cut (d.portRate port), since := d.now }
    Dev.showLimits { d with sch := { d.sch with lim := Tab.put d.sch.lim ctx l } }

/-- RECOVER_US passes without a CNP, counted from the last CNP or the last rise. -/
def Dev.cnpRecover (d : Dev) (ctx : Nat) : Dev :=
  match Tab.look d.sch.lim ctx with
  | none => d
  | some l =>
    let r := l.rate + d.fget Reg.SCH_CNP.STEP * 100
    if d.now < l.since + d.fget Reg.SCH_CNP.RECOVER_US * 1000 then d
    else if d.portRate l.port ≤ r then Dev.showLimits { d with sch := { d.sch with lim := Tab.del d.sch.lim ctx } }
    else { d with sch := { d.sch with lim := Tab.put d.sch.lim ctx { l with rate := r, since := d.now } } }

/-! ### The free-list audit (R356) -/

/-- An audit starts. -/
def Dev.auditStart (d : Dev) : Dev :=
  if !d.on 0x0E || d.fget Reg.SWT_CFG.AUDIT_MS = 0 || d.swt.audit.isSome then d
  else { d with swt := { d.swt with audit := some d.now } }

/-- The audit ends with `leaked` cells allocated and unmarked. -/
def Dev.auditEnd (d : Dev) (leaked : Nat) : Dev :=
  if d.swt.audit.isNone then d
  else
    let d := { d with swt := { d.swt with audit := none } }
    let d := d.bump Reg.SWT_AUDIT.RUNS
    if leaked = 0 then d
    else
      let d := d.bump Reg.SWT_AUDIT.LEAKED leaked
      let d := (d.setErr 0x0E 0 8).post 0x0E 0 0xE0 leaked
      d.raiseFault 0x0A 0x0E 0 leaked

end Sys2Proof.Machine
end

