-- ==== Sys2Proof/Machine/TransBase.lean ====
section
/-! DEFINITION. Contexts of XPORT and STREAM, resident and spilled (R323 to R327), and the sending sides: RoCEv2
messages (R328 to R334) and the NVMe/TCP byte stream (R337 to R341). -/

namespace Sys2Proof.Machine

/-! ### Context images (R325) -/

/-- The 256 bytes of a context. -/
def Ctx.bytes (c : Ctx) : List Byte :=
  let common := [(c.kind, 1), (c.state, 1), (c.tenant, 2), (c.cntlid, 2), (c.qid, 2), (c.flags, 2), (c.egress, 1),
    (c.tclass, 1), (c.vlan, 4), (c.localIp, 16), (c.remoteIp, 16), (c.remoteMac, 6), (c.dscp, 1), (0, 9)]
  let rest := if c.kind = 1 then
      [(c.lqpn, 4), (c.rqpn, 4), (c.epsn, 4), (c.msn, 4), (c.acked, 4), (c.npsn, 4), (c.una, 4), (c.limit, 4), (c.sport, 2),
        (c.pmtu, 1), (c.retry + 16 * c.rnr, 1), (c.ord, 1), (0, 1), (c.granted, 2), (0, 152)]
    else
      [(c.ports, 4), (c.sndUna, 4), (c.sndNxt, 4), (c.rcvNxt, 4), (c.sndWnd, 4), (c.sndScale, 1), (c.rcvScale, 1), (c.mss, 2),
        (c.cwnd, 4), (c.ssthresh, 4), (c.srtt, 2), (c.rttvar, 2), (c.tsRecent, 4), (c.pdu, 4), (c.keySlot, 2), (0, 2),
        (c.rxRseq, 8), (c.txRseq, 8), (c.maxH2c, 4), (c.hpda, 1), (c.r2ts, 1), (0, 122)]
  (common ++ rest).flatMap fun p => leBytes p.1 p.2

/-- The context whose image lies at an address. -/
def readCtx (m : Memory) (a : Nat) : Ctx :=
  let r := fun o n => m.read (a + o) n
  let c : Ctx :=
    { kind := r 0 1, state := r 1 1, tenant := r 2 2, cntlid := r 4 2, qid := r 6 2, flags := r 8 2, egress := r 10 1
      tclass := r 11 1, vlan := r 12 4, localIp := r 16 16, remoteIp := r 32 16, remoteMac := r 48 6, dscp := r 54 1 }
  if c.kind = 1 then
    { c with lqpn := r 64 4, rqpn := r 68 4, epsn := r 72 4, msn := r 76 4, acked := r 80 4, npsn := r 84 4, una := r 88 4
             limit := r 92 4, sport := r 96 2, pmtu := r 98 1, retry := r 99 1 % 16, rnr := r 99 1 / 16, ord := r 100 1
             granted := r 102 2 }
  else
    { c with ports := r 64 4, sndUna := r 68 4, sndNxt := r 72 4, rcvNxt := r 76 4, sndWnd := r 80 4, sndScale := r 84 1
             rcvScale := r 85 1, mss := r 86 2, cwnd := r 88 4, ssthresh := r 92 4, srtt := r 96 2, rttvar := r 98 2
             tsRecent := r 100 4, pdu := r 104 4, keySlot := r 108 2, rxRseq := r 112 8, txRseq := r 120 8
             maxH2c := r 128 4, hpda := r 132 1, r2ts := r 133 1 }

/-- May firmware open a RoCEv2 context from this image: every field in range and every zero byte zero? -/
def imageOk (m : Memory) (a : Nat) : Bool :=
  let c := readCtx m a
  let z := fun o n => decide (m.read (a + o) n = 0)
  let p24 := fun x => decide (x < 2 ^ 24)
  decide (c.kind = 1 ∧ 1 ≤ c.state ∧ c.state ≤ 3 ∧ c.tenant < 4096 ∧ c.flags < 64 ∧ c.egress < 16 ∧ c.tclass < 8 ∧
    c.dscp < 64 ∧ 3 ≤ c.pmtu ∧ c.pmtu ≤ 5 ∧ 1 ≤ c.ord ∧ c.ord ≤ 16) &&
    [c.lqpn, c.rqpn, c.epsn, c.msn, c.acked, c.npsn, c.una].all p24 &&
    decide (bitsOf c.limit 30 24 = 0) && z 55 9 && z 101 1 && z 104 152

/-! ### Resident and spilled contexts (R323, R326) -/

/-- The transport of block 0x0C (XPORT) or 0x0D (STREAM). -/
def Dev.tport (d : Dev) (blk : Nat) : Tport := if blk = 0x0C then d.xpt.t else d.stm.t

/-- Replace it. -/
def Dev.setTport (d : Dev) (blk : Nat) (t : Tport) : Dev :=
  if blk = 0x0C then { d with xpt := { d.xpt with t := t } } else { d with stm := { d.stm with t := t } }

/-- MAX and RESIDENT of a transport. -/
def Dev.ctxMax (d : Dev) (blk : Nat) : Nat := if blk = 0x0C then d.fget Reg.XPT_CTX.MAX else d.fget Reg.STR_CTX.MAX
def Dev.ctxRes (d : Dev) (blk : Nat) : Nat := if blk = 0x0C then d.fget Reg.XPT_CTX.RESIDENT else d.fget Reg.STR_CTX.RESIDENT

/-- First context number of a transport (R323). -/
def Dev.ctxBase (d : Dev) (blk : Nat) : Nat := if blk = 0x0C then 0 else 262144 - d.ctxMax blk

/-- Is a number one of the transport's? -/
def Dev.ctxIn (d : Dev) (blk n : Nat) : Bool :=
  decide (d.ctxBase blk ≤ n ∧ n < d.ctxBase blk + d.ctxMax blk) && !(blk = 0x0D && n = 0x3FFFF)

/-- Address of a context's image in its spill area (R325, STR_SPILL). -/
def Dev.spillAddr (d : Dev) (blk n : Nat) : Nat :=
  (if blk = 0x0C then d.fget Reg.XPT_SPILL.ADDR else d.fget Reg.STR_SPILL.ADDR) * 4096 + 256 * (n - d.ctxBase blk)

/-- XPT_OCC and STR_OCC show the contexts. -/
def Dev.showCtx (d : Dev) (blk : Nat) : Dev :=
  let t := d.tport blk
  if blk = 0x0C then
    (d.fset Reg.XPT_OCC.OPEN (t.res.length + t.spilled.length)).fset Reg.XPT_OCC.RESIDENT t.res.length
  else (d.fset Reg.STR_OCC.OPEN (t.res.length + t.spilled.length)).fset Reg.STR_OCC.RESIDENT t.res.length

/-- A resident context. -/
def Dev.ctx (d : Dev) (blk n : Nat) : Option Ctx := Tab.look (d.tport blk).res n

/-- A context, resident or spilled. -/
def Dev.ctxAny (d : Dev) (blk n : Nat) : Option Ctx :=
  match d.ctx blk n with
  | some c => some c
  | none => if (d.tport blk).spilled.contains n then some (readCtx d.mem.dram (d.spillAddr blk n)) else none

/-- Change a resident context; it becomes the most recently used. -/
def Dev.modCtx (d : Dev) (blk n : Nat) (f : Ctx → Ctx) : Dev :=
  let t := d.tport blk
  match Tab.look t.res n with
  | none => d
  | some c =>
    let k := d.trans.clock + 1
    ({ d with trans := { d.trans with clock := k } }).setTport blk
      { t with res := Tab.put t.res n (f c), use := Tab.put t.use n k }

/-- The connection records. -/
def Dev.rconn (d : Dev) (n : Nat) : RConn := (Tab.look d.xpt.conns n).getD {}
def Dev.setRconn (d : Dev) (n : Nat) (c : RConn) : Dev := { d with xpt := { d.xpt with conns := Tab.put d.xpt.conns n c } }
def Dev.sconn (d : Dev) (n : Nat) : SConn := (Tab.look d.stm.conns n).getD {}
def Dev.setSconn (d : Dev) (n : Nat) (c : SConn) : Dev := { d with stm := { d.stm with conns := Tab.put d.stm.conns n c } }

/-- Does a frame of the context wait in a miss queue? -/
def Dev.inMiss (d : Dev) (n : Nat) : Bool := d.trans.miss.any fun q => q.2.any fun f => f.ctx = n

/-- May the resident context be evicted (R326)? -/
def Dev.evictable (d : Dev) (blk n : Nat) : Bool :=
  let missing := d.inMiss n
  if blk = 0x0C then
    (d.rconn n).out.all (fun m => decide (m.state = .queued)) && !missing &&
      (match d.ctx blk n with
        | some c => decide (c.granted ≤ d.fget Reg.XPT_CFG.SPILL_GRANT)
        | none => false)
  else (d.sconn n).out.isEmpty && (d.sconn n).r2ts.isEmpty && !missing

/-- The least recently used evictable context. -/
def Dev.victim (d : Dev) (blk : Nat) : Option Nat :=
  let t := d.tport blk
  let cs := (t.res.filter fun p => d.evictable blk p.1).map fun p => (p.1, (Tab.look t.use p.1).getD 0)
  (cs.foldl (fun (b : Option (Nat × Nat)) x => match b with
    | some y => if x.2 < y.2 then some x else b
    | none => some x) none).map (·.1)

/-- Write a context back to the spill area. -/
def Dev.evict (d : Dev) (blk n : Nat) : Dev :=
  let t := d.tport blk
  match Tab.look t.res n with
  | none => d
  | some c =>
    let d := { d with mem := { d.mem with dram := d.mem.dram.setBytes (d.spillAddr blk n) c.bytes } }
    d.setTport blk { t with res := Tab.del t.res n, use := Tab.del t.use n, spilled := n :: t.spilled }

/-- Free an on-die slot if none is free; false when no resident context is evictable. -/
def Dev.makeSlot (d : Dev) (blk : Nat) : Dev × Bool :=
  if (d.tport blk).res.length < d.ctxRes blk then (d, true)
  else match d.victim blk with
    | some v => (d.evict blk v, true)
    | none => (d, false)

/-- Make a context resident in a slot known to be free. -/
def Dev.placeCtx (d : Dev) (blk n : Nat) (c : Ctx) : Dev :=
  let t := d.tport blk
  let k := d.trans.clock + 1
  Dev.showCtx (({ d with trans := { d.trans with clock := k } }).setTport blk
    { t with res := Tab.put t.res n c, use := Tab.put t.use n k, spilled := t.spilled.filter (· ≠ n) }) blk

/-- The lowest number of a transport that no context holds. -/
def Dev.freeCtxNo (d : Dev) (blk : Nat) : Option Nat :=
  let t := d.tport blk
  let used := fun n => (Tab.look t.res n).isSome || t.spilled.contains n || (t.wait.any fun w => w.ctx = n) ||
    (blk = 0x0C && d.belay.pctx.any fun p => p.2 = n)
  let k := t.res.length + t.spilled.length + (if t.wait.isSome then 1 else 0) + d.belay.pctx.length
  ((List.range (k + 2)).map (· + d.ctxBase blk)).find? fun n => !used n && d.ctxIn blk n

/-- Forget a context (R344). -/
def Dev.freeCtx (d : Dev) (blk n : Nat) : Dev :=
  let t := d.tport blk
  let d := d.setTport blk { t with res := Tab.del t.res n, use := Tab.del t.use n, spilled := t.spilled.filter (· ≠ n) }
  let d := if blk = 0x0C then { d with xpt := { d.xpt with conns := Tab.del d.xpt.conns n } }
    else { d with stm := { d.stm with conns := Tab.del d.stm.conns n } }
  let miss := d.trans.miss.map fun q => (q.1, q.2.filter fun f => f.ctx ≠ n)
  ({ d with trans := { d.trans with miss := miss } }).showCtx blk

/-- Fetch a spilled context, once a slot is free for it (R326, R327). -/
def Dev.fetchCtx (d : Dev) (blk n : Nat) : Dev :=
  if !(d.tport blk).spilled.contains n then d
  else
    let c := readCtx d.mem.dram (d.spillAddr blk n)
    let (d, ok) := d.makeSlot blk
    if !ok then d
    else
      let d := d.placeCtx blk n c
      let d := if blk = 0x0C then d.bump Reg.XPT_MISS.FETCHES else d.bump Reg.STR_MISS.FETCHES
      d.sample 0x13 none

/-- A call needs a context: a spilled one is fetched (R326). -/
def Dev.needCtx (d : Dev) (blk n : Nat) : Dev := if (d.ctx blk n).isSome then d else d.fetchCtx blk n

/-- Which transport a context number belongs to, by the block that holds it. -/
def Dev.ctxBlk (d : Dev) (n : Nat) : Option Nat :=
  if (d.ctxAny 0x0C n).isSome then some 0x0C else if (d.ctxAny 0x0D n).isSome then some 0x0D else none

/-! ### Frames on the wire -/

/-- Bytes of Ethernet, VLAN tags and IP in front of the transport header, with the FCS. -/
def Ctx.wrap (c : Ctx) : Nat :=
  18 + (if c.vlan / 65536 = 0 then 0 else 4) + (if c.vlan % 65536 = 0 then 0 else 4) + (if c.flags % 2 = 1 then 40 else 20)

/-- Produce one frame of a context: `body` is what follows the IP header. -/
def Dev.emitCtx (d : Dev) (n : Nat) (c : Ctx) (body : Nat) : Dev :=
  let len := max 64 (c.wrap + body)
  d.emit { tenant := c.tenant, tclass := c.tclass, len := len, cells := cellsFor len, ctx := some n, ports := [c.egress]
           ect := if c.kind = 1 then d.fget Reg.XPT_CFG.CNP_EN = 1 else bitOf c.flags 5 }

/-- XFER_DONE (R348). -/
def Dev.xferDone (d : Dev) (ctx : Nat) (x : Xfer) (result bytes : Nat) : Dev :=
  let d := if result = 0 ∧ !x.relay then d.tcount x.tenant (if x.write then 3 else 4) bytes else d
  let d := if result = 0 ∨ x.relay = true then d else d.doom (tagKey ctx x.cmdref) 0 4
  let rel := d.belay.relayed ++ [(ctx, x, result)]
  let ws := descriptor evXferDone 128 x.tenant x.nsh ctx x.cmdref x.rope x.runToken
    [result % 2 ^ 32 + (if x.write then 1 else 2) * 2 ^ 32, x.handle, x.token, x.off % 2 ^ 32 + bytes % 2 ^ 32 * 2 ^ 32]
  if x.relay = true then { d with belay := { d.belay with relayed := rel } }
  else d.event { typ := evXferDone, gen := some x.gen, words := ws }

/-! ### RoCEv2 sending (R328, R331 to R334) -/

/-- Is `a` at or before `b`, as 24-bit PSNs? -/
def psnLe (a b : Nat) : Bool := decide ((b + 2 ^ 24 - a % 2 ^ 24) % 2 ^ 24 < 2 ^ 23)

/-- Payload bytes of a packet. -/
def Ctx.mtu (c : Ctx) : Nat := 128 * 2 ^ c.pmtu

/-- Must transport records be held by the partner first (R334)? -/
def Dev.recording (d : Dev) : Bool := d.isEnabled 0x19 && d.fget Reg.ROPE_PAIR.PAIRED = 1

/-- BTH opcode of packet `i` of `n` of a message (IBA, PRESUMED). -/
def TxOp.opcode (o : TxOp) (i n : Nat) : Nat :=
  match o with
  | .send inv => if inv then 0x17 else 0x04
  | .write => if n = 1 then 0x0A else if i = 0 then 0x06 else if i + 1 = n then 0x08 else 0x07
  | .read => 0x0C

/-- Payload of packet `i` of a message. -/
def TxMsg.payload (m : TxMsg) (mtu i : Nat) : Nat :=
  match m.op, m.xfer with
  | .send _, _ => 16
  | .write, some x => min mtu (x.len - i * mtu)
  | _, _ => 0

/-- Number of packets the device itself sends for a message: an RDMA READ is one request, whatever PSNs it takes. -/
def TxMsg.sends (m : TxMsg) : Nat := if m.op = .read then 1 else m.pkts

/-- Put a message's packets on their way. -/
def Dev.sendMsg (d : Dev) (n : Nat) (c : Ctx) (m : TxMsg) : Dev :=
  (List.range m.sends).foldl (fun d i =>
    let p := m.payload c.mtu i
    let ext := match m.op with
      | .write => if i = 0 then 16 else 0
      | .read => 16
      | .send inv => if inv then 4 else 0
    d.emitCtx n c (8 + 12 + ext + (p + 3) / 4 * 4 + 4)) d

/-- A completion's 16 bytes as two words (NVMe): DW0 and DW1; SQHD, SQID, CID and the status field. -/
def Cqe.words (c : Cqe) (qid cid : Nat) : List Word :=
  [BitVec.ofNat 64 (c.dw0 % 2 ^ 32 + c.dw1 % 2 ^ 32 * 2 ^ 32),
   BitVec.ofNat 64 (c.sqhd % 65536 + qid % 65536 * 2 ^ 16 + cid % 65536 * 2 ^ 32 +
     (c.sc % 256 + c.sct % 8 * 2 ^ 8 + c.crd % 4 * 2 ^ 11 + b2n c.dnr * 2 ^ 14) * 2 ^ 49)]

/-- The completion that a SEND of a connection carries: the one HOSTQ handed over for its tag. -/
def Dev.sendBody (d : Dev) (n : Nat) (m : TxMsg) : List Word :=
  match m.op with
  | .send _ =>
    match d.hostq.outbox.find? (fun o => o.ctx = n && o.cid = m.cmdref % 65536) with
    | some o => o.cqe.words (m.cmdref / 65536) o.cid
    | none => []
  | _ => []

/-- Write generations of the units of a TOKEN's data that bytes `lo` up to `hi` draw on. -/
def Dev.wgensOf (d : Dev) (token lo hi : Nat) : List Nat :=
  ((d.cipher.plain.filter fun p => decide (p.token = token ∧ p.index * 4096 < hi ∧ lo < (p.index + 1) * 4096)).map (·.wgen)).take 2

/-- The transport records of a message (R334, R403). -/
def Dev.txRecs (d : Dev) (n mtu : Nat) (m : TxMsg) : List TRec :=
  (List.range m.sends).map fun i =>
    let t : TRec := { kind := 4, opcode := m.op.opcode i m.sends, ctx := n, psn := (m.psn + i) % 2 ^ 24, cmdref := m.cmdref
                      bytes := m.payload mtu i, body := d.sendBody n m }
    match m.xfer with
    | some x =>
      let lo := x.off + i * mtu
      { t with handle := x.handle, off := lo, rope := x.rope
               wgens := if m.op = .write then d.wgensOf x.token lo (lo + m.payload mtu i) else [] }
    | none => t

/-- May the next queued message be placed (R331, R332)? -/
def Dev.mayPlace (d : Dev) (c : Ctx) (r : RConn) (m : TxMsg) : Bool :=
  match m.op with
  | .send _ =>
    (bitOf c.limit 31 || decide ((c.limit % 2 ^ 24 + 2 ^ 24 - (r.sends + 1) % 2 ^ 24) % 2 ^ 24 < 2 ^ 23)) &&
      (d.fget Reg.XPT_CFG.WRITE_FENCE = 0 || r.out.all fun w => !(decide (w.op = .write) && w.tag = m.tag))
  | .write => true
  | .read => decide ((r.out.filter fun w => decide (w.op = .read ∧ w.state ≠ .queued)).length < c.ord)

/-- Place queued messages in order, as far as they may go: each takes its PSNs, and is sent once its records are held. -/
def Dev.pumpN (d : Dev) (n : Nat) : Nat → Dev
  | 0 => d
  | k + 1 =>
    match d.ctx 0x0C n with
    | none => d
    | some c =>
      let r := d.rconn n
      match r.out.findIdx? (fun m => decide (m.state = .queued)) with
      | none => d
      | some i =>
        match r.out[i]? with
        | none => d
        | some m =>
          if c.state ≠ 1 ∨ d.quiet = true ∨ r.rnrWait = true ∨ d.mayPlace c r m = false then d
          else
            let m := { m with psn := c.npsn }
            let rec_ := d.recording
            let recs := if rec_ then d.txRecs n c.mtu m else []
            let m := { m with state := if rec_ then .recording else .sent, recs := recs.length }
            let d := d.setRconn n { r with out := r.out.set i m, sends := r.sends + 1
                                           unaSince := if c.una = c.npsn then d.now else r.unaSince }
            let d := d.modCtx 0x0C n fun c => { c with npsn := (c.npsn + m.pkts) % 2 ^ 24 }
            let d := { d with trans := { d.trans with recs := d.trans.recs ++ recs } }
            Dev.pumpN (if rec_ then d else d.sendMsg n c m) n k

/-- Place what may be placed. -/
def Dev.pump (d : Dev) (n : Nat) : Dev := d.pumpN n (d.rconn n).out.length

/-- Queue a message on a connection. -/
def Dev.queueMsg (d : Dev) (n : Nat) (m : TxMsg) : Dev :=
  let r := d.rconn n
  (d.setRconn n { r with out := r.out ++ [m] }).pump n

/-! ### The NVMe/TCP stream (R337 to R341) -/

/-- Bytes of a PDU with its digests: `head` bytes of header and `data` of data. -/
def SConn.pduLen (s : SConn) (head data : Nat) : Nat :=
  head + data + (if s.hdgst then 4 else 0) + (if s.ddgst ∧ 0 < data then 4 else 0)

/-- Bytes on the stream of `n` bytes of PDUs: under TLS each record of at most 16,384 bytes adds 22. -/
def Ctx.sealedLen (c : Ctx) (n : Nat) : Nat := if bitOf c.flags 2 then n + 22 * ((n + 16383) / 16384) else n

/-- 32-bit sequence numbers: is `a` at or before `b`? -/
def seqLe (a b : Nat) : Bool := decide ((b + 2 ^ 32 - a % 2 ^ 32) % 2 ^ 32 < 2 ^ 31)

/-- Bytes in flight. -/
def Ctx.flight (c : Ctx) : Nat := (c.sndNxt + 2 ^ 32 - c.sndUna) % 2 ^ 32

/-- Send a piece's segments. -/
def Dev.sendPiece (d : Dev) (n : Nat) (c : Ctx) (bytes : Nat) : Dev :=
  let mss := max 1 c.mss
  (List.range ((bytes + mss - 1) / mss)).foldl (fun d i => d.emitCtx n c (32 + min mss (bytes - i * mss))) d

/-- Send queued pieces in order while the windows allow (R337). A piece goes whole once the smaller window is open. -/
def Dev.streamPumpN (d : Dev) (n : Nat) : Nat → Dev
  | 0 => d
  | k + 1 =>
    match d.ctx 0x0D n with
    | none => d
    | some c =>
      let s := d.sconn n
      match s.out.findIdx? (fun p => p.seq.isNone) with
      | none => d
      | some i =>
        match s.out[i]? with
        | none => d
        | some p =>
          if d.quiet ∨ (c.flight ≠ 0 ∧ min c.cwnd c.sndWnd < c.flight + p.bytes) ∨ c.state = 3 then d
          else
            let tls := bitOf c.flags 2
            let recs := if tls then (p.bytes + 16405) / 16406 else 0
            if tls && !d.sessRoom c.keySlot true recs then
              { d with cipher := { d.cipher with hard := d.cipher.hard ++ [n] } }
            else
              let s := { s with out := s.out.set i { p with seq := some c.sndNxt }
                                rtoFrom := if c.flight = 0 then d.now else s.rtoFrom }
              let (d, soft) := d.sessUse c.keySlot true recs
              let s := if soft then { s with out := s.out ++ [{ kind := .tls, bytes := c.sealedLen 5 }] } else s
              let d := if soft then d.bumpSat Reg.STR_TLS.KEYUPDATE else d
              let d := d.setSconn n s
              let d := d.modCtx 0x0D n fun c =>
                { c with sndNxt := (c.sndNxt + p.bytes) % 2 ^ 32, txRseq := c.txRseq + recs }
              Dev.streamPumpN (d.sendPiece n c p.bytes) n k

/-- Send what may be sent. -/
def Dev.streamPump (d : Dev) (n : Nat) : Dev := d.streamPumpN n (d.sconn n).out.length

/-- Queue a piece of stream. -/
def Dev.queuePiece (d : Dev) (n : Nat) (k : SKind) (head data : Nat) : Dev :=
  match d.ctxAny 0x0D n with
  | none => d
  | some c =>
    let s := d.sconn n
    let p : SOut := { kind := k, bytes := c.sealedLen (s.pduLen head data), head := head + (if s.hdgst then 4 else 0)
                      data := data }
    (d.setSconn n { s with out := s.out ++ [p] }).streamPump n

/-! ### Handing a completion to its transport (R332, R338) -/

/-- Queue the completion of a command on its connection, behind the transfers queued for it before. -/
def Dev.sendResponse (d : Dev) (ctx tag cmdref : Nat) (inval : Bool) : Dev :=
  match d.ctxBlk ctx with
  | none => d
  | some 0x0C => (d.needCtx 0x0C ctx).queueMsg ctx { op := .send inval, tag := tag, cmdref := cmdref }
  | some _ => (d.needCtx 0x0D ctx).queuePiece ctx (.resp tag) 24 0

/-- Does the transport still hold a completion of the tag unsent or unacknowledged? -/
def Dev.responseHeld (d : Dev) (ctx tag : Nat) : Bool :=
  ((d.rconn ctx).out.any fun m => m.tag = tag && (match m.op with
    | .send _ => true
    | _ => false)) ||
  ((d.sconn ctx).out.any fun p => decide (p.kind = .resp tag))

end Sys2Proof.Machine
end

