-- ==== Sys2Proof/Machine/ParseOps.lean ====
section
/-! DEFINITION. PORT reception, the parse graph, classification and rule updates (R296 to R322). -/

namespace Sys2Proof.Machine

/-! ### The parse graph (R305 to R307) -/

/-- A byte of a node, and a byte of a frame. -/
def nodeByte (g : Memory) (n i : Nat) : Nat := (g.byte (64 * n + i)).toNat
def Walk.at_ (w : Walk) (i : Nat) : Nat := (w.data.byte (w.off + i)).toNat

/-- A 16-bit big-endian field of the header. -/
def Walk.be16 (w : Walk) (i : Nat) : Nat := w.at_ i * 256 + w.at_ (i + 1)

/-- Header length by the formula of R305; with HSCALE = 0 it is HBASE. -/
def hdrLen (g : Memory) (n : Nat) (w : Walk) : Nat :=
  nodeByte g n 2 + ((w.at_ (nodeByte g n 3) / 2 ^ (nodeByte g n 4 % 8)) &&& nodeByte g n 5) * nodeByte g n 6

/-- The IPv4 header checksum over `h` bytes is good. -/
def ipv4Good (w : Walk) (h : Nat) : Bool :=
  let s := ((List.range (h / 2)).map fun i => w.be16 (2 * i)).foldl (· + ·) 0
  let s := s % 65536 + s / 65536
  decide ((s % 65536 + s / 65536) % 65536 = 0xFFFF)

/-- Copy the extractions of a node into the vector. -/
def Walk.extract (w : Walk) (g : Memory) (n : Nat) : Memory :=
  (List.range 3).foldl (fun v k =>
    let src := nodeByte g n (50 + 3 * k)
    let len := nodeByte g n (51 + 3 * k)
    let dst := nodeByte g n (52 + 3 * k)
    v.setBytes dst (w.data.bytes (w.off + src) len)) w.vec

/-- The node that follows (R305): the first matching pair, else DEFAULT. A pair with next 0 and value 0 is unused. -/
def Walk.next (w : Walk) (g : Memory) (n : Nat) : Nat :=
  let soff := nodeByte g n 12
  let sel := if nodeByte g n 13 = 0 then w.at_ soff else w.be16 soff
  let sel := sel &&& (nodeByte g n 14 + 256 * nodeByte g n 15)
  let pairs := (List.range 8).map fun k =>
    (nodeByte g n (16 + 4 * k) + 256 * nodeByte g n (17 + 4 * k), nodeByte g n (18 + 4 * k))
  match pairs.find? (fun p => p.1 = sel && !(decide (p.1 = 0 ∧ p.2 = 0))) with
  | some p => p.2
  | none => nodeByte g n 48

/-- How a pass ends. -/
inductive WalkEnd where
  | classify (w : Walk)
  | exception (reason : Nat) (w : Walk)
  | recirculate (w : Walk)
  deriving DecidableEq, Repr

/-- One pass of the walk of R306. `start` is the offset at which the pass began. -/
def walk (g : Memory) (maxDepth : Nat) (recirc : Bool) (start : Nat) : Nat → Walk → WalkEnd
  | 0, w => .exception 1 w
  | f + 1, w =>
    let n := w.node
    let w := { w with depth := w.depth + 1 }
    if maxDepth < w.depth then .exception 1 w
    else
      let h := hdrLen g n w
      if h < nodeByte g n 7 then .exception 2 w
      else if w.end_ < w.off + h then .exception 3 w
      else if 256 < h then .exception 1 w
      else if start + 256 < w.off + h then
        if !w.second && recirc then .recirculate w else .exception 1 w
      else
        let lm := decide (nodeByte g n 9 = 1)
        let v : Int := (w.be16 (nodeByte g n 8) : Nat) + signed 16 (nodeByte g n 10 + 256 * nodeByte g n 11)
        if lm && decide (v < (h : Nat) ∨ ((w.end_ : Nat) : Int) < (w.off : Nat) + v) then .exception 2 w
        else
          let w := if lm then { w with end_ := w.off + v.toNat } else w
          let cs := decide (nodeByte g n 0 / 2 % 2 = 1)
          if cs && !ipv4Good w h then .exception 4 w
          else
            let vec := if cs then w.vec.write 1 1 ((w.vec.read 1 1) ||| 2) else w.vec
            let w := { w with vec := vec }
            let w := { w with vec := w.extract g n, layers := (nodeByte g n 1, w.off) :: w.layers }
            let nx := w.next g n
            let w := { w with off := w.off + h, node := nx }
            if nx = 0xFE then .classify w
            else if nx = 0xFF then .exception 5 w
            else walk g maxDepth recirc start f w

/-- Nodes reachable from a node by any next value. -/
def succs (g : Memory) (n : Nat) : List Nat :=
  (nodeByte g n 48 :: (List.range 8).filterMap fun k =>
    let v := nodeByte g n (16 + 4 * k) + 256 * nodeByte g n (17 + 4 * k)
    let nx := nodeByte g n (18 + 4 * k)
    if v = 0 ∧ nx = 0 then none else some nx).filter (· < 0xFE)

/-- Close a set of nodes under `succs`. -/
def reach (g : Memory) : Nat → List Nat → List Nat
  | 0, s => s
  | f + 1, s =>
    let t := (s ++ s.flatMap (succs g)).dedup
    if t.length = s.length then s else reach g f t

/-- Is a reachable node at fault (R307)? -/
def nodeBad (g : Memory) (n : Nat) : Bool :=
  let b := nodeByte g n
  let hmin := b 7
  let res := decide (b 0 % 2 = 0 ∨ 3 < b 0 ∨ b 1 = 0 ∨ 7 < b 4 ∨ hmin = 0 ∨ 1 < b 9 ∨ 1 < b 13 ∨ b 49 ≠ 0 ∨ b 62 ≠ 0 ∨
    b 63 ≠ 0 ∨ 253 < n) || (List.range 8).any fun k => decide (b (19 + 4 * k) ≠ 0)
  let reads := decide (hmin < b 3 ∨ hmin < b 8 + 2 ∨ hmin < b 12 + b 13 + 1)
  let ext := (List.range 3).any fun k =>
    let src := b (50 + 3 * k)
    let len := b (51 + 3 * k)
    let dst := b (52 + 3 * k)
    decide (0 < len) && decide (16 < len ∨ hmin < src + len ∨ dst < 16 ∨ 128 < dst + len)
  let short := if b 6 = 0 then decide (b 2 < hmin) else decide (b 2 + b 5 * b 6 < hmin)
  res || reads || ext || short

/-- The first node at fault of an image, in ascending order (R307). Slots 254 and 255 must be zero. -/
def graphFault (g : Memory) (start : Nat) : Option Nat :=
  let ns := (reach g 256 [start]).insertionSort (· ≤ ·)
  match ns.find? (nodeBad g) with
  | some n => some n
  | none => if (g.filter fun p => decide (64 * 254 ≤ p.1 ∧ p.1 < 16384)).isEmpty then none else some 254

/-- The 16 KiB image at an address of DRAM, from its first byte. -/
def Dev.readGraph (d : Dev) (a : Nat) : Memory :=
  (d.mem.dram.filter fun p => decide (a ≤ p.1 ∧ p.1 < a + 16384)).map fun p => (p.1 - a, p.2)

/-! ### Actions and rules (R313, R317) -/

/-- Fields of an action: 16 bytes as one number. -/
def actSets (a : Nat) : Nat := bitsOf a 7 0
def actKind (a : Nat) : Nat := bitsOf a 15 8
def actTenant (a : Nat) : Nat := bitsOf a 27 16
def actCtxValue (a : Nat) : Nat := bitsOf a 49 32
def actCtxMode (a : Nat) : Nat := bitsOf a 51 50
def actCtxOff (a : Nat) : Nat := bitsOf a 59 52
def actPolicer (a : Nat) : Nat := bitsOf a 77 64
def actTclass (a : Nat) : Nat := bitsOf a 82 80
def actSpread (a : Nat) : Nat := bitsOf a 91 88
def actSpreadBase (a : Nat) : Nat := bitsOf a 107 96

/-- The bytes that each bit of SETS covers, as (low bit, width). -/
def actFields : List (Nat × Nat × Nat) := [(0, 8, 8), (1, 16, 16), (2, 32, 32), (3, 64, 16), (4, 80, 8), (5, 88, 24)]

/-- Is an action valid: KIND, MODE, SPREAD in range and every zero bit zero (R313)? -/
def actOk (a : Nat) : Bool :=
  decide (actSets a < 64 ∧ actKind a ≤ 4 ∧ bitsOf a 31 28 = 0 ∧ actCtxMode a ≤ 2 ∧ bitsOf a 63 60 = 0 ∧
    bitsOf a 79 78 = 0 ∧ bitsOf a 87 83 = 0 ∧ bitsOf a 95 92 = 0 ∧ actSpread a ≤ 12 ∧ bitsOf a 111 108 = 0 ∧
    bitsOf a 127 112 = 0)

/-- Put the fields that action `b` sets over action `a` (R314). -/
def actMerge (a b : Nat) : Nat :=
  let a := actFields.foldl (fun a f =>
    if bitOf (actSets b) f.1 then a - bitsOf a (f.2.1 + f.2.2 - 1) f.2.1 * 2 ^ f.2.1 +
      bitsOf b (f.2.1 + f.2.2 - 1) f.2.1 * 2 ^ f.2.1
    else a) a
  a - actSets a + (actSets a ||| actSets b)

/-- Is an entry valid in a generation (R317)? -/
def Rule.valid (r : Rule) (g : Nat) : Bool :=
  let d := (g + 65536 - r.from_ % 65536) % 65536
  decide (d < 32768) && (match r.till with
    | some t => decide (d < (t + 65536 - r.from_ % 65536) % 65536)
    | none => true)

/-- CRC-32C over a byte string from an initial value, inverted at the end (R312). -/
def crcFrom (init : Nat) (bs : List Byte) : Nat := (bs.foldl crc32cByte init) ^^^ 0xFFFFFFFF

/-- The two buckets of a key in a stage's region. -/
def buckets (base lg : Nat) (key : List Byte) : List Nat :=
  [base + crcFrom 0xFFFFFFFF key % 2 ^ lg, base + crcFrom 0xA5A5A5A5 key % 2 ^ lg]

/-! ### The copies CLASS keeps for each resident generation (R317) -/

/-- A register of CLASS[0] as generation `g` has it. -/
def Dev.clsReg (d : Dev) (g : Nat) (off : Nat) : Word :=
  match Tab.look d.cls.gens g with
  | some c => c.regs.get off
  | none => d.reg 0x0B 0 off

/-- A field of it. -/
def Dev.clsGet (d : Dev) (g : Nat) (f : FRef) (i : Nat := 0) : Nat := field (d.clsReg g (f.off + 8 * i)) f.hi f.lo

/-- An entry of the indirection table of a generation. -/
def Dev.clsIndir (d : Dev) (g i : Nat) : Nat :=
  match Tab.look d.cls.gens g with
  | some c => (Tab.look c.indir i).getD 0
  | none => 0

/-- Copy the ST values of CLASS[0] for a generation. -/
def Dev.clsCopy (d : Dev) (g : Nat) : Dev :=
  let offs := (List.range 15).map fun i => 0x208 + 8 * i
  let regs := offs.foldl (fun t o => WTab.set t o (d.reg 0x0B 0 o)) []
  { d with cls := { d.cls with gens := Tab.put d.cls.gens g { regs := regs, indir := d.cls.indir } } }

/-- The rule-set generations that are resident. -/
def Dev.clsResident (d : Dev) : List Nat := let i := d.inst 0x0B 0; i.active :: i.staged :: i.draining

/-- CLS_OCC shows the entries held. -/
def Dev.showRules (d : Dev) : Dev :=
  (d.fset Reg.CLS_OCC.EM d.cls.em.length).fset Reg.CLS_OCC.TCAM d.cls.tcam.length

/-- Free every entry that no resident generation finds valid, and every copy of a generation that is gone (R317). -/
def Dev.clsReap (d : Dev) : Dev :=
  let gs := d.clsResident
  let keep := fun (p : Nat × Rule) => gs.any fun g => p.2.valid g
  Dev.showRules { d with cls := { d.cls with em := d.cls.em.filter keep, tcam := d.cls.tcam.filter keep
                                             gens := d.cls.gens.filter fun p => gs.contains p.1 } }

/-- BLK_GEN.DISCARD for CLASS (R320). -/
def Dev.clsDiscard (d : Dev) : Dev :=
  let st := (d.inst 0x0B 0).staged
  let act := (d.inst 0x0B 0).active
  let undo := fun (t : Tab Rule) => (t.filter fun p => decide (p.2.from_ ≠ st)).map fun p =>
    if p.2.till = some st then (p.1, { p.2 with till := none }) else p
  let indir := ((Tab.look d.cls.gens act).map (·.indir)).getD []
  Dev.showRules { d with cls := { d.cls with em := undo d.cls.em, tcam := undo d.cls.tcam, indir := indir } }

/-! ### Classification (R311 to R316, R319) -/

/-- The 40 key bytes of a stage: five vector words, code 16 being zeros. -/
def stageKey (segs : Nat) (vec : Memory) : List Byte :=
  (List.range 5).flatMap fun i =>
    let c := bitsOf segs (5 * i + 4) (5 * i)
    if c < 16 then vec.bytes (8 * c) 8 else List.replicate 8 0

/-- The entry a stage hits. -/
def Dev.emHit (d : Dev) (g s : Nat) (vec : Memory) : Option Rule :=
  let key := stageKey (d.clsGet g Reg.CLS_STAGE.SEG s) vec
  let bs := buckets (d.clsGet g Reg.CLS_STAGE.BASE s) (d.clsGet g Reg.CLS_STAGE.LOG2 s) key
  let ways := bs.flatMap fun b => (List.range 4).map fun w => b * 4 + w
  (ways.filterMap fun k => Tab.look d.cls.em k).find? fun r => r.stage = s && r.key = leNat key && r.valid g

/-- The TCAM entry that wins: the lowest index among those that match (R312). The vector word that CLS_TCAM_KEY names first
takes key bits 511 to 448. -/
def Dev.tcamHit (d : Dev) (g : Nat) (vec : Memory) : Option Rule :=
  let sel := d.clsGet g Reg.CLS_TCAM_KEY.SEG
  let key := leNat ((List.range 8).reverse.flatMap fun i => vec.bytes (8 * bitsOf sel (4 * i + 3) (4 * i)) 8)
  (d.cls.tcam.find? fun p => p.2.valid g && decide (key &&& p.2.mask = p.2.key &&& p.2.mask)).map (·.2)

/-- The Toeplitz hash of a byte string under a 40-byte key (R316). -/
def toeplitz (key : List Byte) (input : List Byte) : Nat :=
  let k := key.foldl (fun n b => n * 256 + b.toNat) 0
  (List.range (8 * input.length)).foldl (fun h i =>
    if (input.getD (i / 8) 0).getLsbD (7 - i % 8) then h ^^^ bitsOf k (319 - i) (288 - i) else h) 0

/-- HASH of a frame. -/
def Dev.rssHash (d : Dev) (g : Nat) (vec : Memory) : Nat :=
  let n := min 9 (d.clsGet g Reg.CLS_RSS_SEL.NSEG)
  if n = 0 then 0
  else
    let sel := d.clsGet g Reg.CLS_RSS_SEL.SEG
    let key := (List.range 5).flatMap fun i => leBytes (d.clsGet g Reg.CLS_RSS_KEY.KEY i) 8
    toeplitz key ((List.range n).flatMap fun i => vec.bytes (4 * bitsOf sel (5 * i + 4) (5 * i)) 4)

/-- The classified descriptor's bytes (R319). -/
def Desc.bytes (x : Desc) : List Byte :=
  let ls := (x.layers.take 5).reverse
  ([(x.stamp, 8), (x.port, 1), (x.reason, 1), (x.pgen, 2), (x.rgen, 2), (x.len, 2), (x.act, 16), (x.context, 4), (x.hash, 4),
    (x.steer, 2), (x.nodes, 1), (0, 1)].flatMap fun p => leBytes p.1 p.2) ++
    (ls.flatMap fun l => leBytes l.1 1 ++ leBytes 0 1 ++ leBytes l.2 2) ++
    List.replicate (4 * (5 - ls.length)) 0

/-- Write an entry of the Warden ring (R318): the descriptor and the first 256 bytes of the frame. -/
def Dev.wardenRing (d : Dev) (x : Desc) (data : Memory) : Dev :=
  let n := 2 ^ d.fget Reg.CLS_WRING.LOG2
  let h := d.fget Reg.CLS_WRING_IDX.HEAD
  if (h + 1) % n = d.fget Reg.CLS_WRING_IDX.TAIL % n then d.bump Reg.CLS_WRING_LOST.COUNT
  else
    let a := d.fget Reg.CLS_WRING.ADDR * 4096 + 320 * h
    let bs := x.bytes ++ data.bytes 0 (min 256 x.len)
    let bs := bs ++ List.replicate (320 - bs.length) 0
    let d := { d with mem := { d.mem with dram := d.mem.dram.setBytes a bs } }
    d.fset Reg.CLS_WRING_IDX.HEAD ((h + 1) % n)

/-- A frame releases its place in arrival order without reaching a transport (R352). -/
def Dev.gap (d : Dev) : Dev := d.bump Reg.SWT_RESEQ.GAPS

/-- An exception frame is dropped and counted, and copied to the Warden ring where CLS_EXC says so (R308). -/
def Dev.exceptionFrame (d : Dev) (w : Walk) (x : Desc) (reason : Nat) : Dev :=
  let i := w.port / 8
  let d := d.bump Reg.CLS_VERDICT.EXCEPTION 1 i
  let d := if reason = 1 then d.bumpSat Reg.PRS_EXC.TOO_DEEP 1 i else if reason = 2 then d.bumpSat Reg.PRS_EXC.LENGTH 1 i
    else if reason = 3 then d.bumpSat Reg.PRS_EXC.TRUNCATED 1 i else if reason = 4 then d.bump Reg.PRS_CSUM.COUNT 1 i
    else if reason = 5 then d.bumpSat Reg.PRS_EXC.NO_NODE 1 i else d
  let copy := if reason < 16 then bitOf (d.fget Reg.CLS_EXC.TO_WARDEN_P) (reason - 1)
    else bitOf (d.fget Reg.CLS_EXC.TO_WARDEN_C) (reason - 16)
  let d := if copy then d.wardenRing { x with reason := reason } w.data else d
  d.gap

/-- What every descriptor of a frame holds. -/
def Walk.desc (w : Walk) : Desc :=
  { stamp := w.stamp, port := w.port, pgen := w.pgen, rgen := w.rgen, len := w.len, nodes := w.depth, layers := w.layers }

/-- The merged action and the descriptor of a frame that reached END, or the exception it meets (R312 to R316). -/
def Dev.verdict (d : Dev) (w : Walk) : Desc × Option Nat :=
  let g := w.rgen
  let stages := (List.range 4).filter fun s => d.clsGet g Reg.CLS_STAGE.EN s = 1
  let hits := stages.map fun s => (s, d.emHit g s w.vec)
  let missed := hits.any fun h => h.2.isNone && d.clsGet g Reg.CLS_STAGE.REQUIRED h.1 = 1
  let full := d.fget Reg.CLS_CFG.PROFILE = 1
  let acts := (hits.filterMap fun h => h.2.map (·.act)) ++
    (if full then ((d.tcamHit g w.vec).map (·.act)).toList else [])
  let dflt := d.clsGet g Reg.CLS_DEFAULT_LO.ACTION + d.clsGet g Reg.CLS_DEFAULT_HI.ACTION * 2 ^ 64
  let m := acts.foldl actMerge (actMerge 0 dflt)
  let m := if acts.any (fun a => bitOf (actSets a) 1) then m else m - bitsOf m 31 16 * 65536
  let off := actCtxOff m
  let ctx := if actCtxMode m = 0 then actCtxValue m
    else if actCtxMode m = 1 then
      (actCtxValue m + (w.vec.byte off).toNat * 65536 + (w.vec.byte (off + 1)).toNat * 256 + (w.vec.byte (off + 2)).toNat) %
        2 ^ 18
    else 0x3FFFF
  let hash := d.rssHash g w.vec
  let steer := if actSpread m = 0 then 0 else d.clsIndir g ((actSpreadBase m + hash % 2 ^ actSpread m) % 4096)
  let x := { w.desc with act := m, context := ctx, hash := hash, steer := steer }
  let k := actKind m
  let down := (k = 1 && !d.on 0x0C) || (k = 2 && !d.on 0x0D)
  (x, if missed then some 0x10 else if k = 4 then some 0x11 else if down then some 0x12 else none)

/-- A transport meets an ingress frame (R324, R327): a free context, one beyond its range or of another tenant drops it;
a spilled context's frame joins its pipeline's miss queue. A context that STREAM resolves itself is left to it. -/
def Dev.transMeet (d : Dev) (blk : Nat) (x : Desc) : Dev :=
  let n := x.context
  if blk = 0x0D ∧ n = 0x3FFFF then d
  else
    let drop := fun (d : Dev) => (if blk = 0x0C then d.bump Reg.XPT_DROP.TENANT else d.bumpSat Reg.STR_MISS.TENANT).takeIn
      (blk - 0x0B) n
    match d.ctxAny blk n with
    | none => drop d
    | some c =>
      if c.tenant ≠ actTenant x.act ∨ d.ctxIn blk n = false then drop d
      else
        let i := x.port / 8
        let q := (Tab.look d.trans.miss i).getD []
        if (d.ctx blk n).isSome then d
        else
          let d := d.takeIn (blk - 0x0B) n
          if 512 ≤ q.length then
            if blk = 0x0C then d.bump Reg.XPT_MISS.DROPS else d.bumpSat Reg.STR_MISS.DROPS
          else { d with trans := { d.trans with miss := Tab.put d.trans.miss i (q ++ [{ ctx := n, rx := .raw }]) } }

/-- A frame reaches its turn after the verdict (R314, R318, R349 to R353, R357). -/
def Dev.deliver (d : Dev) (w : Walk) (x : Desc) (ect : Bool) : Dev :=
  let k := actKind x.act
  if k = 0 then (d.bump Reg.CLS_VERDICT.DROP 1 (w.port / 8)).gap
  else
    let (col, d) := d.police (actPolicer x.act) (actTenant x.act) w.len
    match col with
    | none | some .red => d.gap
    | some c =>
      let before := d.inFrames.length
      let d := d.enqueueIn (w.port / 8) (actTclass x.act) x c ect
      if d.inFrames.length = before then d.gap
      else if k = 3 then (d.takeIn 3 x.context).wardenRing x w.data
      else d.transMeet (if k = 1 then 0x0C else 0x0D) x

/-- Does an earlier frame of the sub-port still wait for its second pass or in the resequencer (R352)? -/
def Dev.mustWait (d : Dev) (port seq : Nat) : Bool :=
  d.cls.recirc.any (fun w => w.port = port && decide (w.seq < seq)) ||
    d.cls.reseq.any (fun p => p.1.port = port && decide (p.1.seq < seq))

/-- What a pass led to (R306 to R309, R311). -/
def Dev.passEnd (d : Dev) (e : WalkEnd) (ect : Bool) : Dev :=
  match e with
  | .recirculate w =>
    { d with cls := { d.cls with recirc := d.cls.recirc ++ [{ w with second := true }] } }
  | .exception r w => d.exceptionFrame w w.desc r
  | .classify w =>
    let (x, ex) := d.verdict w
    match ex with
    | some r => d.exceptionFrame w x r
    | none =>
      if d.mustWait w.port w.seq then
        ({ d with cls := { d.cls with reseq := d.cls.reseq ++ [(w, x)] } }).bump Reg.SWT_RESEQ.HELD
      else d.deliver w x ect

/-- The graph of a parse generation. -/
def Dev.graphOf (d : Dev) (g : Nat) : Memory := (Tab.look d.cls.graphs g).getD []

/-- A sub-port receives a frame (R298, R303, R306, R310, R322): its bytes with the FCS, whether the FCS is good, and how many
codewords of it the FEC corrected and could not (R296). `ect` says that its ECN field is ECT(0) or ECT(1). -/
def Dev.frameReceive (d : Dev) (port : Nat) (bytes : List Byte) (fcsGood ect : Bool) (corr uncorr : Nat) : Dev :=
  let n := port / 4
  let i := port / 8
  let len := bytes.length
  if 16 ≤ port ∨ !d.on 8 n ∨ !bitOf (d.fget Reg.PRT_LINK.UP n) (port % 4) then d
  else
  let d := (d.bump Reg.PRT_FEC.CORR corr n).bump Reg.PRT_FEC.UNCORR uncorr n
  if !fcsGood then d.bumpSat Reg.PRT_DROP.FCS 1 n
  else if len < 64 then d.bumpSat Reg.PRT_DROP.RUNT 1 n
  else if d.fget Reg.PRT_CFG.MTU n < len then d.bumpSat Reg.PRT_DROP.OVERSIZE 1 n
  else if bytes.getD 12 0 = 0x88 ∧ bytes.getD 13 0 = 0x08 then d.bumpSat Reg.PRT_DROP.CTRL 1 n
  else
    let comp := signed 16 (d.fget Reg.PRT_TSCOMP.RX n)
    let stamp := (((d.now * 8 : Nat) : Int) + comp) / 8
    let seq := (Tab.look d.cls.arrived port).getD 0
    let d := { d with cls := { d.cls with arrived := Tab.put d.cls.arrived port (seq + 1) } }
    let d := d.countFrame port len true
    if !d.on 0x0A i ∨ !d.on 0x0B i then d
    else
      let d := d.bump Reg.PRS_STAT.FRAMES 1 i
      let vec := (Memory.write [] 0 1 port).write 4 2 len
      let w : Walk := { port := port, seq := seq, data := Memory.setBytes [] 0 bytes, len := len, stamp := stamp.toNat
                        pgen := (d.inst 0x0A 0).active, rgen := (d.inst 0x0B 0).active, vec := vec, end_ := len - 4
                        node := d.fget Reg.PRS_CFG.START, off := 0, maxDepth := d.fget Reg.PRS_CFG.MAX_DEPTH }
      let e := walk (d.graphOf w.pgen) w.maxDepth (d.fget Reg.PRS_CFG.RECIRC = 1) 0 17 w
      let e := match e with
        | .classify w => .classify { w with vec := w.vec.write 2 1 w.depth }
        | e => e
      d.passEnd e ect

/-- The oldest recirculated frame of a pipeline makes its second pass (R309, R322). -/
def Dev.recirculate (d : Dev) (pipe : Nat) (ect : Bool) : Dev :=
  match d.cls.recirc.find? (fun w => w.port / 8 = pipe) with
  | none => d
  | some w =>
    let d := { d with cls := { d.cls with recirc := d.cls.recirc.erase w } }
    let d := d.bump Reg.PRS_STAT.RECIRC 1 pipe
    let w := { w with vec := w.vec.write 1 1 ((w.vec.read 1 1) ||| 1) }
    let e := walk (d.graphOf w.pgen) w.maxDepth false w.off 17 w
    let e := match e with
      | .classify w => .classify { w with vec := w.vec.write 2 1 w.depth }
      | e => e
    d.passEnd e ect

/-- The oldest frame of a sub-port in the resequencer goes on, once nothing of its sub-port is ahead of it (R352). -/
def Dev.reseqRelease (d : Dev) (port : Nat) (ect : Bool) : Dev :=
  match d.cls.reseq.find? (fun p => p.1.port = port) with
  | none => d
  | some (w, x) =>
    if d.cls.recirc.any fun r => r.port = port && decide (r.seq < w.seq) then d
    else ({ d with cls := { d.cls with reseq := d.cls.reseq.eraseP fun p => p.1.port = port } }).deliver w x ect

/-! ### Changing rules (R320) -/

/-- The record at an address (R320). -/
def readUpd (m : Memory) (a : Nat) : UpdRec :=
  let op := m.read a 1
  let tcam := decide (op = 3 ∨ op = 4)
  { op := op, stage := m.read (a + 1) 1, index := m.read (a + 4) 4, act := m.read (a + 8) 16
    key := if tcam then m.read (a + 24) 64 else m.read (a + 24) 40, mask := if tcam then m.read (a + 88) 64 else 0
    zeros := decide (m.read (a + 2) 2 = 0 ∧ m.read (a + 152) 8 = 0) && (tcam || decide (m.read (a + 64) 24 = 0)) &&
      (tcam || decide (m.read (a + 88) 64 = 0)) && (tcam || op = 5 || decide (m.read (a + 4) 4 = 0)) &&
      (!(op = 5) || decide (m.read (a + 10) 14 = 0)) }

/-- Does an entry stand open under this stage and key? -/
def Rule.open_ (r : Rule) (stage key : Nat) : Bool := r.stage = stage && r.key = key && r.till.isNone

/-- Apply a record to the staged generation: RESULT 0, or why not (R320). -/
def Dev.applyUpd (d : Dev) (u : UpdRec) : Nat × Dev :=
  let i := d.inst 0x0B 0
  let full := d.fget Reg.CLS_CFG.PROFILE = 1
  let res := d.clsResident
  let setEm := fun (t : Tab Rule) => Dev.showRules { d with cls := { d.cls with em := t } }
  let setTc := fun (t : Tab Rule) => Dev.showRules { d with cls := { d.cls with tcam := t } }
  if !u.zeros then (2, d)
  else if u.op = 1 then
    if 3 < u.stage ∨ !actOk u.act then (2, d)
    else if d.cls.em.any (fun p => p.2.open_ u.stage u.key && p.2.valid i.staged) then (0x23, d)
    else
      let st := fun (f : FRef) => field (d.shadow.get (regAddr 0x0B 0 (f.off + 8 * u.stage))) f.hi f.lo
      let bs := buckets (st Reg.CLS_STAGE.BASE) (st Reg.CLS_STAGE.LOG2) (leBytes u.key 40)
      match (bs.flatMap fun b => (List.range 4).map fun w => b * 4 + w).find? (fun k => (Tab.look d.cls.em k).isNone) with
      | none => (7, d)
      | some k => (0, setEm (Tab.put d.cls.em k { stage := u.stage, key := u.key, act := u.act, from_ := i.staged }))
  else if u.op = 2 then
    if 3 < u.stage then (2, d)
    else
      match d.cls.em.find? (fun p => p.2.open_ u.stage u.key && p.2.valid i.active) with
      | none => (0x22, d)
      | some p => (0, setEm (Tab.put d.cls.em p.1 { p.2 with till := some i.staged }))
  else if u.op = 3 then
    if !actOk u.act then (2, d)
    else if 16384 ≤ u.index then (7, d)
    else if !full then (0x21, d)
    else if (Tab.look d.cls.tcam u.index).any (fun r => res.any fun g => r.valid g) then (0x23, d)
    else (0, setTc (Tab.put d.cls.tcam u.index { key := u.key, mask := u.mask, act := u.act, from_ := i.staged }))
  else if u.op = 4 then
    if !full then (0x21, d)
    else
      match Tab.look d.cls.tcam u.index with
      | some r => if r.till.isNone && r.valid i.active then
          (0, setTc (Tab.put d.cls.tcam u.index { r with till := some i.staged })) else (0x22, d)
      | none => (0x22, d)
  else if u.op = 5 then
    if 4096 ≤ u.index then (2, d)
    else
      let v := u.act % 65536
      let t := if v = 0 then Tab.del d.cls.indir u.index else Tab.put d.cls.indir u.index v
      (0, { d with cls := { d.cls with indir := t } })
  else (2, d)

/-- Apply records in order, to the first that fails. -/
def Dev.applyUpds (d : Dev) (a : Nat) : Nat → Nat → Nat × Nat × Dev
  | 0, k => (0, k, d)
  | f + 1, k =>
    let (r, d') := d.applyUpd (readUpd d.mem.dram (a + 160 * k))
    if r = 0 then Dev.applyUpds d' a f (k + 1) else (r, k, d)

/-- Show a load's outcome. -/
def Dev.updShow (d : Dev) (res failAt : Nat) : Dev :=
  (d.fset Reg.CLS_UPD_CTRL.RESULT res).fset Reg.CLS_UPD_CTRL.FAIL_AT failAt

/-- May a load start? It is ignored while BUSY or a swap is pending; COUNT = 0 is an access error. -/
def Dev.updReady (d : Dev) : Bool :=
  d.on 0x0B && decide (d.fget Reg.CLS_UPD_CTRL.BUSY = 0) && !(d.inst 0x0B 0).swap

/-- A write of CLS_UPD_CTRL.GO (R320): `ports` accumulate until the swap (R321). -/
def Dev.updLoad (d : Dev) (count ports : Nat) : Dev :=
  if !d.updReady then d
  else
    let d := (d.fset Reg.CLS_UPD_CTRL.COUNT count).fset Reg.CLS_UPD_CTRL.PORTS (d.fget Reg.CLS_UPD_CTRL.PORTS ||| ports)
    if count = 0 then d.setErr 0x0B 0 1
    else
      let (r, k, d) := d.applyUpds (d.fget Reg.CLS_UPD_ADDR.ADDR) count 0
      d.updShow r (if r = 0 then 0 else k)

/-- One record of an operation, applied by a load of one record. -/
def Dev.updOne (d : Dev) (u : UpdRec) : Dev :=
  if !d.updReady then d else let (r, d) := d.applyUpd u; d.updShow r 0

/-- The exact-match lookup call of CLASS (R100): a hit answers with the action, a miss with 0x0004. The call's layout is
not given, so its stage and key come with the command (log 26). -/
def Dev.classLookup (d : Dev) (id stage key : Nat) : Dev :=
  match Tab.look d.asks id with
  | none => d
  | some a =>
    if a.accel ≠ 2 ∨ a.answer.isSome then d
    else if (d.inst 0x0B 0).safe then d.reply id 6
    else if !d.serves 0x0B then d.reply id 5
    else if 3 < stage then d.reply id 3
    else
      let g := (d.inst 0x0B 0).active
      let bs := buckets (d.clsGet g Reg.CLS_STAGE.BASE stage) (d.clsGet g Reg.CLS_STAGE.LOG2 stage) (leBytes key 40)
      let ways := bs.flatMap fun b => (List.range 4).map fun w => b * 4 + w
      match (ways.filterMap fun k => Tab.look d.cls.em k).find? (fun r => r.stage = stage && r.key = key && r.valid g) with
      | some r => d.reply id 0 0 [BitVec.ofNat 64 r.act, BitVec.ofNat 64 (r.act / 2 ^ 64)]
      | none => d.reply id 4

end Sys2Proof.Machine
end

