-- ==== Sys2Proof/Machine/LedgerOps.lean ====
section
/-! DEFINITION. LEDGER: bounds, admission, waiting, tenant entries and the commit cycle's tokens (R166 to R190). -/

namespace Sys2Proof.Machine

/-- Serve ask `id` with `f` when it is a call of accelerator `accel` whose code satisfies `p`. -/
def Dev.serveIf (d : Dev) (id accel : Nat) (p : Nat → Bool) (f : Ask → Dev → Dev) : Dev :=
  match Tab.look d.asks id with
  | some a => if a.accel = accel ∧ p a.code = true ∧ a.answer = none then f a d else d
  | none => d

/-- The commit-cycle length, ns. -/
def Dev.cycleNs (d : Dev) : Nat := d.fget Reg.ROPE_CYCLE.NS

/-- The current cycle number. -/
def Dev.cycle (d : Dev) : Nat := d.fget Reg.ROPE_CUR_CYCLE.CYCLE

/-- A grade bound of R34 for 4 KiB, ns; grade 5 is the takeover grade. -/
def boundBase (l : Nat) (write : Bool) (g : Nat) : Nat :=
  if write then
    if g = 1 then l + 5000 else if g = 2 then 2 * l + 10000 else if g = 3 then 100000
    else if g = 4 then 5000000 else 25000000
  else if g = 1 then 150000 else if g = 2 then 400000 else if g = 3 then 2000000
  else if g = 4 then 50000000 else 25000000

/-- Growth of the bound for each 4 KiB beyond the first, ns (R173). -/
def boundGrow (write : Bool) (g : Nat) : Nat :=
  if write then if g ≤ 2 then 50 else if g = 3 then 400 else if g = 4 then 10000 else 50000
  else if g = 1 then 500 else if g = 2 then 1000 else if g = 3 then 4000 else if g = 4 then 100000 else 50000

/-- Is the kind bounded as a write (R172)? -/
def CmdKind.isWrite : CmdKind → Bool
  | .write | .dealloc | .flush => true
  | .read | .nswide | .admin => false

/-- A command's bound, ns (R34, R172, R173). Write Zeroes and Dataset Management take the bound of 4 KiB, which is what
their `units` say; what runs for an admin command carries none. -/
def bound (l : Nat) (kind : CmdKind) (g units : Nat) : Nat :=
  if kind = .admin ∨ kind = .nswide then 0 else boundBase l kind.isWrite g + (units - 1) * boundGrow kind.isWrite g

/-- The latest start of the first die operation after admission, ns (R170, R176); none is stated for G4 and the takeover
grade. -/
def startLimit (g : Nat) : Option Nat :=
  if g = 1 then some 20000 else if g = 2 then some 40000 else if g = 3 then some 1000000 else none

/-- Bytes of a write's item in its bundle section (R401): its header, and for each unit the unit record, the ciphertext
and the staging index. -/
def belayBytes (units : Nat) : Nat := 32 + units * 4160

/-- The Belay bytes a cycle may hold: BELAY_PCT of the link's time at 100 bytes a ns (R189, R389), halved while one PHY
is down (R391). -/
def Dev.belayCap (d : Dev) : Nat :=
  let full := d.cycleNs * 100 * d.fget Reg.LEDGER_CFG.BELAY_PCT / 100
  if d.fget Reg.BLY_STATUS.PHYS = 1 ∨ d.fget Reg.BLY_STATUS.PHYS = 2 then full / 2 else full

/-- Does a range of blocks overlap another? -/
def overlaps (s1 n1 s2 n2 : Nat) : Bool := decide (s1 < s2 + n2) && decide (s2 < s1 + n1)

/-- Does a lock entry or admitted command of kind `k` on a range stand in the way of an entry of kind `k'` on another
(R181)? A FLUSH never blocks; an NSWIDE overlaps all; a FLUSH waits for writes and deallocations. -/
def blocks (k : CmdKind) (s n : Nat) (k' : CmdKind) (s' n' : Nat) : Bool :=
  if k = .admin ∨ k' = .admin then false
  else if k = .nswide ∨ k' = .nswide then decide (k ≠ .flush)
  else if k = .flush then false
  else if k' = .flush then decide (k = .write ∨ k = .dealloc)
  else overlaps s n s' n'

/-- What stands lower than a new command, in order: the unapplied entries by their numbers, then the admitted commands that
have no number yet (R182). -/
def Dev.lowerWork (d : Dev) (nsh : Nat) : List (CmdKind × Nat × Nat) :=
  let ls := (d.rope.locks.filter fun l => l.2.nsh = nsh).insertionSort fun a b => decide (a.2.rope ≤ b.2.rope)
  ls.map (fun l => (l.2.kind, l.2.slba, l.2.nblk)) ++
    (d.ledger.adms.filter fun a => decide (a.2.nsh = nsh ∧ 0 < a.2.entries)).map fun a => (a.2.kind, a.2.slba, a.2.nblk)

/-- The depth of each of a list in order: 0 where no lower one stands in its way, else 1 more than the deepest that does. -/
def depths : List (CmdKind × Nat × Nat) → List ((CmdKind × Nat × Nat) × Nat) → List ((CmdKind × Nat × Nat) × Nat)
  | [], acc => acc
  | x :: xs, acc =>
    let under := acc.filter fun y => blocks y.1.1 y.1.2.1 y.1.2.2 x.1 x.2.1 x.2.2
    depths xs (acc ++ [(x, (under.map fun y => y.2 + 1).foldl max 0)])

/-- The lock depth of a command (R182), as its lower work now stands. -/
def Dev.depthOf (d : Dev) (nsh : Nat) (kind : CmdKind) (slba nblk : Nat) : Nat :=
  (((depths (d.lowerWork nsh ++ [(kind, slba, nblk)]) []).getLast?).map (·.2)).getD 0

/-- Entries in use or promised to admitted commands (R184). -/
def Dev.entriesHeld (d : Dev) : Nat := d.rope.locks.length + (d.ledger.adms.map (·.2.entries)).foldl (· + ·) 0

/-- Tokens a command costs, in millionths: one for each 4 KiB unit, two for a G1 read, whose retry is reserved. A Flush, a
Write Zeroes and a Dataset Management, for which the spec gives no cost, take one write token, as they take the write bound
of 4 KiB (DESIGN CHOICE, log 102); what runs for an admin command takes none. -/
def tokenCost (kind : CmdKind) (g units : Nat) : Nat :=
  (if kind = .read ∧ g = 1 then 2 * units else if kind = .admin ∨ kind = .nswide then 0 else units) * 1000000

/-- Do the tenant's tokens cover a cost (R176)? -/
def LedgerTenant.covers (t : LedgerTenant) (kind : CmdKind) (c : Nat) : Bool :=
  if kind.isWrite then decide (c ≤ t.writeTok ∧ 0 < t.writeRsv) else decide (c ≤ t.readTok ∧ (0 < t.readRsv ∨ c = 0))

/-- Charge the tenant's tokens. -/
def LedgerTenant.charge (t : LedgerTenant) (kind : CmdKind) (c : Nat) : LedgerTenant :=
  if kind.isWrite then { t with writeTok := t.writeTok - c } else { t with readTok := t.readTok - c }

/-- Refill at a commit-cycle boundary: reservation × cycle length, capped at reservation × BURST_MS (R168). -/
def LedgerTenant.refill (t : LedgerTenant) (ns : Nat) : LedgerTenant :=
  { t with readTok := min (t.readTok + t.readRsv * ns) (t.readRsv * t.burst * 1000000)
           writeTok := min (t.writeTok + t.writeRsv * ns) (t.writeRsv * t.burst * 1000000) }

/-! ### Die time and channel time (R166, R167, R170, R176, R177) -/

/-- The media entries of a command's lookup that need die time: those on the media. -/
def Dev.mediaEntries (d : Dev) (handle : Nat) : List Nat :=
  match Tab.look d.map.lookups handle with
  | some l => l.entries.filter entIsMedia
  | none => []

/-- The grade whose parts a read takes: G3's at best when its data lies on an ABSENT or FAILED sled (R271); G2's for a
G1 lookup that missed (R177). -/
def Dev.partsGrade (d : Dev) (g handle : Nat) (missed : Bool) : Nat :=
  let g := if missed ∧ g = 1 then 2 else g
  if (d.mediaEntries handle).any (fun e => decide (d.sledState (entSled e) = 1 ∨ d.sledState (entSled e) = 2)) then max g 3
  else g

/-- tR_MAX of a sled, ns. -/
def Dev.sledReadNs (d : Dev) (sled : Nat) : Nat := ((d.sled sled).map (·.trMax)).getD 0 * 100

/-- X_CH of a sled, ns, doubled while the unit owns more than four of its channels (R249). -/
def Dev.chNs (d : Dev) (sled : Nat) : Nat :=
  let owned := ((List.range 8).filter fun c => d.owns sled c).length
  ((d.sled sled).map (·.xCh)).getD 0 * (if 4 < owned then 2 else 1)

/-- Does a held slot stand in the way of a read that draws on the reserved pool or not, of a grade? A reserved read never
waits for a shared one (R167), and no read for one of G4 (R170), unless that one has begun. -/
def Dev.slotBars (d : Dev) (reserved : Bool) (g : Nat) (a : Admission) (s : ReadSlot) : Bool :=
  decide (d.now < s.stop) &&
    (decide (s.start ≤ d.now) || !((reserved && !a.reserved) || (decide (g < 4) && decide (a.grade = 4))))

/-- The slots held on a plane that bar a read, as start and end. -/
def Dev.barsOn (d : Dev) (plane : Nat) (reserved : Bool) (g : Nat) : List (Nat × Nat) :=
  d.ledger.adms.flatMap fun a =>
    (a.2.slots.filter fun s => s.plane = plane && d.slotBars reserved g a.2 s).map fun s => (s.start, s.stop)

/-- first_slot of R176: from `t` on, the earliest start at which no held slot lies within `len`, and the die group is in a
READ window or, for G1, what runs may be suspended. -/
def Dev.firstSlot (d : Dev) (bars : List (Nat × Nat)) (g e len : Nat) (limit : Option Nat) : Nat → Nat → Option Nat
  | 0, _ => none
  | f + 1, t =>
    if limit.any (fun m => decide (m < t)) then none
    else match bars.find? (fun b => decide (b.1 < t + len ∧ t < b.2)) with
      | some b => d.firstSlot bars g e len limit f b.2
      | none =>
        match d.window (entGroup e) t with
        | none => none
        | some (k, left) =>
          if k = 0 || (g = 1 && d.g1May (entSled e) (entChannel e) (entDie e) t) then some t
          else d.firstSlot bars g e len limit f (t + max 1 left)

/-- The slots of a read's media units, one after the other: each takes tR_MAX on its plane, and for G1 the retry slot that
follows it; none when one of them finds no place to start by `limit`. -/
def Dev.placeSlots (d : Dev) (pg : Nat) (reserved : Bool) (limit : Option Nat) :
    List Nat → List ReadSlot → Option (List ReadSlot)
  | [], acc => some acc
  | e :: es, acc =>
    let tr := d.sledReadNs (entSled e)
    let len := if pg = 1 then 2 * tr else tr
    let plane := entPlaneKey e
    let bars := d.barsOn plane reserved pg ++ d.spentBar plane ++ (acc.filter fun s => s.plane = plane).map fun s => (s.start, s.stop)
    match d.firstSlot bars pg e len limit (256 + 2 * bars.length) d.now with
    | none => none
    | some t =>
      let s : ReadSlot := { plane := plane, start := t, stop := t + tr, entry := e }
      d.placeSlots pg reserved limit es (acc ++ s :: if pg = 1 then [{ s with start := t + tr, stop := t + 2 * tr, retry := true }] else [])

/-- Channel time: the transfers that end with a new slot, with those of the slots held on its channel whose ends lie within
the 10 µs that R170 gives the transfer part, take no longer than that. -/
def Dev.chanFits (d : Dev) (news : List ReadSlot) : Bool :=
  let held := (d.ledger.adms.flatMap fun a => a.2.slots) ++ news
  news.all fun s => s.retry ||
    decide (((held.filter fun h => !h.retry && entGroup h.entry = entGroup s.entry &&
      decide (h.stop < s.stop + 10000 ∧ s.stop < h.stop + 10000)).length) * d.chNs (entSled s.entry) ≤ max 10000 (d.chNs (entSled s.entry)))

/-- Reserved slots taken over a shared or a G4 one that had not begun: the displaced ones are placed again behind them, past
their limit where they must. -/
def Dev.displace (d : Dev) (n : Nat) : Dev :=
  match Tab.look d.ledger.adms n with
  | none => d
  | some c =>
    d.ledger.adms.foldl (fun d p =>
      let hit (s : ReadSlot) : Bool := p.1 ≠ n && c.slots.any fun t =>
        t.plane = s.plane && decide (t.start < s.stop ∧ s.start < t.stop) && !d.slotBars c.reserved c.grade p.2 s
      if !p.2.slots.any hit then d
      else
        let keep := p.2.slots.filter fun s => !hit s
        let moved := (p.2.slots.filter hit).map fun s =>
          let bars := (d.ledger.adms.filter fun q => q.1 ≠ p.1).flatMap fun q =>
            (q.2.slots.filter fun t => t.plane = s.plane).map fun t => (t.start, t.stop)
          match d.firstSlot bars p.2.grade s.entry (s.stop - s.start) none (256 + 2 * bars.length) d.now with
          | some t => { s with start := t, stop := t + (s.stop - s.start) }
          | none => s
        { d with ledger := { d.ledger with adms := Tab.put d.ledger.adms p.1 { p.2 with slots := keep ++ moved } } }) d

/-! ### The other resources -/

/-- The events whose runs a command will raise (R166): those of the worked figure of R122 for a read, with MAP_READY after
a miss; for the others what their steps raise (DEDUCED, log 103). -/
def eventsOf (kind : CmdKind) (missed : Bool) : List Nat :=
  match kind with
  | .read => [evIoArrival, evMediaDone, evCipherDone, evXferDone] ++ if missed then [evMapReady] else []
  | .write => [evIoArrival, evXferDone, evCipherDone]
  | .dealloc | .flush => [evIoArrival]
  | .nswide | .admin => [evAdminArrival]

/-- PITCH_BUDGET slots of a list of events. -/
def Dev.slotsOf (d : Dev) (ts : List Nat) : Nat := (ts.map fun t => d.fget (Reg.PITCH_BUDGET.SLOTS.nth t)).foldl (· + ·) 0

/-- A cluster of pitch threads in service. -/
def Dev.clusterOn (d : Dev) (c : Nat) : Bool := decide (c < 16) && bitOf (d.fget Reg.PITCH_CTRL.CLUSTER_EN) c

/-- A cluster in service whose domain can receive work (R447, R454). -/
def Dev.clusterRuns (d : Dev) (c : Nat) : Bool := d.clusterOn c && d.domTakes (24 + c)

/-- Engine slots held, by the commands that `p` keeps. -/
def Dev.engineHeld (d : Dev) (p : Admission → Bool) : Nat :=
  ((d.ledger.adms.filter fun a => p a.2).map fun a => d.slotsOf a.2.engine).foldl (· + ·) 0

/-- Engine slots of the threads of some clusters in one millisecond, the span for which LEDGER holds them (R167; the span is a
DESIGN CHOICE, log 103). -/
def engineSlots (clusters : List Nat) : Nat := clusters.length * 16 * 400000

/-- Engine slots of the clusters in service. -/
def Dev.engineAll (d : Dev) : Nat := engineSlots ((List.range 16).filter d.clusterOn)

/-- Engine slots LEDGER may hold: ENG_PCT of those of the clusters whose domains are in D0 or D1 (R454). -/
def Dev.engineCap (d : Dev) : Nat :=
  engineSlots ((List.range 16).filter d.clusterRuns) * d.fget Reg.LEDGER_CFG.ENG_PCT / 100

/-- Frames of the cache area that hold map pages, by the partition of a grade (R203): G2_PCT of them for G2 and the rest for
the others, or all of them where G2_PCT is 0 or 100. -/
def Dev.framesOf (d : Dev) (g : Nat) : Nat :=
  let mib := d.fget Reg.MAP_CACHE_AREA.LIMIT_MIB - d.fget Reg.MAP_CACHE_AREA.BASE_MIB
  let all := (mib - d.directoryMib d.usableNow) * 256
  let pct := d.fget Reg.MAP_CACHE.G2_PCT
  if pct = 0 ∨ 100 ≤ pct then all else if g = 2 then all * pct / 100 else all - all * pct / 100

/-- Do two grades share a partition? -/
def Dev.samePart (d : Dev) (g h : Nat) : Bool :=
  let pct := d.fget Reg.MAP_CACHE.G2_PCT
  decide (pct = 0 ∨ 100 ≤ pct) || decide ((g = 2) ↔ (h = 2))

/-- The configured grade of a map page's namespace. -/
def Dev.pageGrade (d : Dev) (page : Nat) : Nat := ((Tab.look d.hostq.nss (page / 2 ^ 32)).map (·.grade)).getD 4

/-- Frames of a grade's partition that a miss may still reserve: those neither dirty nor reserved. -/
def Dev.cleanFrames (d : Dev) (g : Nat) : Nat :=
  let dirty := (d.map.frames.filter fun f => f.2.dirty && !d.pagePinned f.1 && d.samePart g (d.pageGrade f.1)).length
  let held := ((d.ledger.adms.filter fun a => d.samePart g (d.pageGrade (a.2.nsh * 2 ^ 32))).map fun a => a.2.frames).foldl (· + ·) 0
  d.framesOf g - dirty - held

/-- Bytes a command takes of the cycle's Belay time (R166, R189): a write's item while ROPE runs paired, and, of a command
that runs for the partner, the FWD frames that carry its read data and completion back. -/
def Dev.belayNeed (d : Dev) (c : Admission) : Nat :=
  let far := (Tab.look d.hostq.tags c.tag).any (·.remote.isSome)
  let own := if c.kind.isWrite ∧ c.kind ≠ .flush ∧ d.fget Reg.ROPE_PAIR.PAIRED = 1 then belayBytes c.staging else 0
  own + if far then (if c.kind = .read then belayBytes c.units else 64) else 0

/-- Does a write or forwarded command fit the cycle (R189)? The G1 section takes one write of any length while it is empty;
so does a cycle of which nothing is taken, and what exceeds BELAY_PCT is then owed by the cycles that follow. -/
def Dev.belayFits (d : Dev) (c : Admission) (reserved : Bool) (n : Nat) : Bool :=
  let l := d.ledger
  let used := l.belayBytes + l.belayDebt
  let sh := ((l.adms.filter fun a => !a.2.reserved && decide (a.2.cycle = d.cycle)).map (·.2.belay)).foldl (· + ·) 0
  let cap := d.belayCap
  if n = 0 then true
  else if c.grade = 1 then decide (l.g1Bytes = 0) ||
    (decide (l.g1Bytes + n ≤ d.fget Reg.LEDGER_G1_BELAY.BYTES) && decide (used + n ≤ cap))
  else decide (used = 0) ||
    (decide (used + n ≤ cap) && (reserved || decide (sh + n ≤ cap * (100 - d.fget Reg.LEDGER_CFG.RSV_PCT) / 100)))

/-- Units a command takes of the dirty budget beyond those that have landed: a Write Zeroes' zero-range unit and, in 16 KiB
mode, the blocks of map units it covers in part (R193, R194, R207). -/
def Dev.ownUnits (d : Dev) (c : Admission) : Nat :=
  let zeroes := (Tab.look d.hostq.tags c.tag).any fun t => field (t.sqe.getD 0 0) 7 0 = 8
  if !zeroes ∨ ¬ (c.kind = .write ∨ c.kind = .dealloc) then 0
  else
    let sp := d.mapSpan
    let lead := (sp - c.slba % sp) % sp
    let part := if c.nblk ≤ lead then c.nblk else lead + (c.nblk - lead) % sp
    1 + if sp = 1 then 0 else part

/-- Does it fit the dirty budget: what is held and promised, and of a shared draw what the shared pool holds (R167, R207)? -/
def Dev.stagingFits (d : Dev) (reserved : Bool) (n : Nat) : Bool :=
  let promised := (d.ledger.adms.map fun a => a.2.promised).foldl (· + ·) 0
  let used := (d.unitsWhere SUnit.counts).length + promised
  let sh := (d.unitsWhere fun u => u.counts && u.shared).length
  n = 0 || (decide (used + n ≤ d.dirtyBudget) &&
    (reserved || decide (sh + n ≤ d.dirtyBudget * (100 - d.fget Reg.LEDGER_CFG.RSV_PCT) / 100)))

/-- Range-lock entries in use by, or promised to, commands that drew on the shared pool. -/
def Dev.sharedEntries (d : Dev) : Nat :=
  let mine := d.ledger.adms.filter fun a => !a.2.reserved
  (mine.map fun a => a.2.entries + (d.rope.locks.filter fun l => tagKey l.2.ctx l.2.cmdref = a.2.tag).length).foldl (· + ·) 0

/-- Plane reads and channel transfers a second that the loaded sleds give at the active gate list (R167's formulas), over
the unit's own channels. -/
def Dev.readCapacity (d : Dev) : Nat × Nat :=
  let rd (g : Nat) : Nat := match d.media.gates.groups[g]? with
    | some (l, _) => ((d.media.gates.lists.getD l []).filter fun x => x.kind = 0).map (·.ns) |>.foldl (· + ·) 0
    | none => 0
  let cyc := max 1 d.media.gates.cycle
  let per := d.sledList.flatMap fun n => match d.sled n with
    | some r => ((List.range 8).filter fun c => bitOf r.channels c && d.owns n c).map fun c =>
        (r.dies * r.planes * rd (n * 8 + c) * 1000000000 / (cyc * max 1 (r.trMax * 100)),
         rd (n * 8 + c) * 1000000000 / (cyc * max 1 (d.chNs n)))
    | none => []
  ((per.map (·.1)).foldl (· + ·) 0, (per.map (·.2)).foldl (· + ·) 0)

/-- May a read of so many plane reads draw on the shared pool in the present second (R167)? 10 % of the time is kept as the
retry pool of G2 and G3. -/
def Dev.sharedReadsFit (d : Dev) (g n : Nat) : Bool :=
  let (planes, xfers) := d.readCapacity
  let pct := (100 - d.fget Reg.LEDGER_CFG.RSV_PCT) * (if g = 1 then 100 else 90)
  let used := if d.ledger.sharedSec = d.now / 1000000000 then d.ledger.sharedReads else 0
  n = 0 || decide ((used + n) * 10000 ≤ min planes xfers * pct)

/-! ### The decision (R176 to R179) -/

/-- Why a command waits. -/
inductive Hold where
  | depth
  | full
  | other
  deriving DecidableEq, Repr

/-- Do a command's tokens cover its cost? -/
def Dev.covered (d : Dev) (c : Admission) : Bool :=
  (Tab.look d.ledger.tenants c.tenant).any fun t => t.covers c.kind (tokenCost c.kind c.grade c.units)

/-- The die time a command holds (R176, R177): the slots of its media units; after a miss those of the map pages, with the
data read floating in a READ window within 40 µs of the page. -/
def Dev.dieTime (d : Dev) (c : Admission) (reserved : Bool) : Option (List ReadSlot) :=
  if c.kind ≠ .read then some []
  else
    let pg := d.partsGrade c.grade c.handle c.miss.isSome
    let limit := (startLimit pg).map (· + d.now)
    if c.miss.isNone then d.placeSlots pg reserved limit (d.mediaEntries c.handle) []
    else
      match d.placeSlots pg reserved limit (c.pages.filter entIsMedia) [] with
      | none => none
      | some ss =>
        let ready := (ss.map (·.stop)).foldl max d.now + 14000
        let near (e : Nat) : Bool := (d.window (entGroup e) ready).any fun w => decide (w.1 = 0 ∨ w.2 ≤ 40000)
        if ss.all fun s => near s.entry then some ss else none

/-- The holds of R176 from one of the two pools: the reason to wait, or the admission with all that it takes. -/
def Dev.holdsFor (d : Dev) (c : Admission) (reserved : Bool) : Except Hold Admission :=
  let depth := d.depthOf c.nsh c.kind c.slba c.nblk
  let rsv := d.fget Reg.LEDGER_CFG.RSV_PCT
  let eng := eventsOf c.kind c.miss.isSome
  let own := d.ownUnits c
  let c := { c with staging := c.staging + own, promised := own }
  let bel := d.belayNeed c
  let slots := d.slotsOf eng
  if d.fget Reg.ROPE_CHAIN.LOCK_CHAIN < depth then .error .depth
  else if 65536 < d.entriesHeld + c.entries then .error .full
  else if !reserved && decide (65536 * (100 - rsv) / 100 < d.sharedEntries + c.entries) then .error .full
  else if c.kind.isWrite && c.kind ≠ .flush && d.ledger.closed then .error .other
  else if d.pitch.pause.isSome || d.quiet then .error .other
  else if d.engineCap < d.engineHeld (fun _ => true) + slots then .error .other
  else if !reserved && decide (d.engineCap * (100 - rsv) / 100 < d.engineHeld (fun a => !a.reserved) + slots) then .error .other
  else if !d.stagingFits reserved c.staging then .error .other
  else if !d.belayFits c reserved bel then .error .other
  else if c.miss.isSome && decide (d.cleanFrames c.grade < c.pages.length) then .error .other
  else
    match d.dieTime c reserved with
    | none => .error .other
    | some ss =>
      if !d.chanFits ss then .error .other
      else if !reserved && !d.sharedReadsFit c.grade ss.length then .error .other
      else
        let bg := if c.miss.isSome ∧ c.grade = 1 then 2 else c.grade
        .ok { c with depth := depth, reserved := reserved, since := d.now, cycle := d.cycle
                     deadline := if c.kind = .admin ∨ c.kind = .nswide then 0
                       else d.now + bound d.cycleNs c.kind bg c.units +
                         (if (Tab.look d.hostq.tags c.tag).any (·.remote.isSome) then 20000 else 0)
                     slots := ss, belay := bel, engine := eng, frames := if c.miss.isSome then c.pages.length else 0 }

/-- A candidate for the shared pool: its tenant's WEIGHT is not 0. -/
def Dev.weightOf (d : Dev) (t : Nat) : Nat := ((Tab.look d.ledger.tenants t).map (·.weight)).getD 0

/-- The queue of a command: per tenant and grade (R178). -/
def Admission.queue (c : Admission) : Nat := c.tenant * 8 + c.grade

/-- The heads of the queues, with their places, in arrival order, at the grade now in force; while the unit wakes only
tenant 0's (R454). -/
def Dev.heads (d : Dev) : List (Nat × Admission) :=
  let ws := d.ledger.waiting.zipIdx.map fun p => (p.2, { p.1 with grade := d.gradeOf p.1.nsh })
  ws.filter fun p => (ws.all fun q => !(decide (q.1 < p.1) && q.2.queue = p.2.queue)) &&
    (!d.psDefers || decide (p.2.tenant = 0))

/-- What deficit round robin needs of a queue: its key, its WEIGHT, its head's cost and its deficit. The quantum of a visit is
WEIGHT tokens (DESIGN CHOICE, log 104). -/
structure DrrQ where
  key : Nat
  weight : Nat
  cost : Nat
  deficit : Nat
  deriving DecidableEq, Repr

/-- The round in which the scheduler, standing at queue `at_`, serves a queue, and its place in that round: the queue it
stands at goes on without a new quantum. -/
def DrrQ.rank (q : DrrQ) (at_ : Nat) : Nat × Nat :=
  let need := (q.cost - q.deficit + q.weight * 1000000 - 1) / (q.weight * 1000000)
  let pos := (q.key + 32768 - at_ % 32768) % 32768
  if pos = 0 then (if need = 0 then (0, 0) else (need, 32768)) else (max 1 need, pos)

/-- Does one rank come before another? -/
def rankLt (a b : Nat × Nat) : Bool := decide (a.1 < b.1) || (a.1 = b.1 && decide (a.2 < b.2))

/-- The queue served next. -/
def drrPick (at_ : Nat) : List DrrQ → Option DrrQ
  | [] => none
  | q :: qs => match drrPick at_ qs with
    | none => some q
    | some r => if rankLt (r.rank at_) (q.rank at_) then some r else some q

/-- The deficits after queue `w` is served: every queue visited before it has gained its quanta. -/
def drrAfter (at_ : Nat) (w : DrrQ) (qs : List DrrQ) : List (Nat × Nat) :=
  let rw := w.rank at_
  qs.map fun q =>
    let pos := (q.rank at_).2
    let here := (q.key + 32768 - at_ % 32768) % 32768 = 0
    let visits := if here then (if q.key = w.key then rw.1 else rw.1 - 1)
      else if rankLt (0, rw.2) (0, pos) then rw.1 - 1 else rw.1
    (q.key, q.deficit + visits * q.weight * 1000000 - if q.key = w.key then q.cost else 0)

/-- A head or an arriving command as LEDGER sees it. -/
def Dev.drrOf (d : Dev) (c : Admission) : DrrQ :=
  { key := c.queue, weight := d.weightOf c.tenant, cost := tokenCost c.kind c.grade c.units
    deficit := (Tab.look d.ledger.deficit c.queue).getD 0 }

/-- The command LEDGER serves next of some candidates (R178): the first covered by its tenant's tokens, grade by grade, that
can be admitted; else of the shared pool the one deficit round robin reaches among those that can be. Answers its place, its
admission and the deficits that result. -/
def Dev.serveNext (d : Dev) (cs : List (Nat × Admission)) : Option (Nat × Admission × List (Nat × Nat)) :=
  let cov := (cs.filter fun p => d.covered p.2).insertionSort fun a b => decide (a.2.grade ≤ b.2.grade)
  match cov.findSome? fun p => (d.holdsFor p.2 true).toOption.map fun c => (p.1, c) with
  | some (n, c) => some (n, c, [])
  | none =>
    let sh := (cs.filter fun p => !d.covered p.2 && decide (0 < d.weightOf p.2.tenant)).filterMap fun p =>
      (d.holdsFor p.2 false).toOption.map fun c => (p.1, c)
    let qs := sh.map fun p => d.drrOf p.2
    match drrPick d.ledger.drrAt qs with
    | none => none
    | some w => (sh.find? fun p => p.2.queue = w.key).map fun p =>
        (p.1, p.2, if qs.length ≤ 1 then [(w.key, 0)] else drrAfter d.ledger.drrAt w qs)

/-- The decision on an arriving command (R176, R178): it waits behind those of its own queue, and takes its turn among the
heads of the others. -/
def Dev.decide_ (d : Dev) (c : Admission) : Except Hold (Admission × List (Nat × Nat)) :=
  if d.ledger.waiting.any fun x => decide (x.tenant = c.tenant ∧ d.gradeOf x.nsh = c.grade) then .error .other
  else
    match d.serveNext (d.heads ++ [(d.ledger.waiting.length, c)]) with
    | some (n, c', defs) => if n = d.ledger.waiting.length then .ok (c', defs) else .error .other
    | none => match d.holdsFor c (d.covered c) with
      | .error h => .error h
      | .ok _ => .error .other

/-- LEDGER_OCC shows what waits, the Belay time held in the cycle and the engine slots held. -/
def Dev.showLedger (d : Dev) : Dev :=
  let d := d.fset Reg.LEDGER_OCC.WAITING d.ledger.waiting.length
  let cap := d.cycleNs * 100
  let all := d.engineAll
  let d := d.fset Reg.LEDGER_OCC.ENG_PCT_NOW (if all = 0 then 0 else min 255 (100 * d.engineHeld (fun _ => true) / all))
  d.fset Reg.LEDGER_OCC.BELAY_PCT_NOW (if cap = 0 then 0 else min 255 (100 * d.ledger.belayBytes / cap))

/-- The deadline of an admitted command (R175); one in flight when a takeover began keeps R35's. -/
def Dev.deadlineOf (d : Dev) (c : Admission) : Nat :=
  if (Tab.look d.hostq.tags c.tag).any (·.inFlight) ∧ c.deadline ≠ 0 then d.belay.t0 + bound d.cycleNs c.kind 5 c.units
  else c.deadline

/-- The ledger after admission `c` with the deficits `defs`: its tenant or the shared pool is charged (R176, R178). -/
def Dev.charged (d : Dev) (c : Admission) (defs : List (Nat × Nat)) : Ledger :=
  let l := d.ledger
  let sec := d.now / 1000000000
  let n := if c.reserved then 0 else c.slots.length
  { l with
    adms := Tab.put l.adms l.nextAdm c
    nextAdm := (l.nextAdm + 1) % 2 ^ 32
    tenants := match Tab.look l.tenants c.tenant with
      | some t =>
        if c.reserved then Tab.put l.tenants c.tenant (t.charge c.kind (tokenCost c.kind c.grade c.units)) else l.tenants
      | none => l.tenants
    deficit := defs.foldl (fun t p => if p.2 = 0 then Tab.del t p.1 else Tab.put t p.1 p.2) l.deficit
    drrAt := if defs.isEmpty then l.drrAt else c.queue
    sharedSec := if n = 0 then l.sharedSec else sec
    sharedReads := if n = 0 then l.sharedReads else (if l.sharedSec = sec then l.sharedReads else 0) + n
    g1Bytes := if c.grade = 1 then l.g1Bytes + c.belay else l.g1Bytes
    belayBytes := l.belayBytes + c.belay }

/-- Take an admission's holds (R166, R176): charge it, count it, give its command its deadline, and turn its landed units HELD
(R207). -/
def Dev.take (d : Dev) (c : Admission) (defs : List (Nat × Nat)) (waited : Nat) : Nat × Dev :=
  let id := d.ledger.nextAdm
  let c := { c with deadline := d.deadlineOf c }
  let tags := match Tab.look d.hostq.tags c.tag with
    | some t => Tab.put d.hostq.tags c.tag { t with deadline := c.deadline }
    | none => d.hostq.tags
  let st := d.map.staging.map fun p =>
    if p.2.tag = some c.tag ∧ p.2.state = .landing then
      (p.1, { p.2 with state := .held, cycle := c.cycle, grade := c.grade, shared := !c.reserved })
    else p
  let d := { d with hostq := { d.hostq with tags := tags }, ledger := d.charged c defs, map := { d.map with staging := st } }
  let d := (d.bump Reg.LEDGER_ADMIT.ADMITTED).sample 0x03 (some c.tenant)
  let d := d.raiseTo Reg.LEDGER_WAIT.MAX_NS waited
  (id, ((d.displace id).showStaging).showLedger)

/-- Units that admitted writes of a slot's namespaces hold and that are not sealed yet (R382). -/
def Dev.slotReserved (d : Dev) (slot : Nat) : Nat :=
  let mine := fun (a : Admission) => decide (a.kind = .write) &&
    (match Tab.look d.hostq.nss a.nsh with
      | some n => n.keySlot = slot
      | none => false)
  let adms := d.ledger.adms.filter fun p => mine p.2
  (adms.map fun p => (d.unitsWhere fun u => decide (u.tag = some p.2.tag) && !u.sealed).length).foldl (· + ·) 0

/-- Does the key slot refuse a write of so many units (R179, R382): it is EMPTY, or the count, the reserved units and
these would pass the hard limit? -/
def Dev.keyHard (d : Dev) (nsh : Nat) (kind : CmdKind) (units : Nat) : Bool :=
  decide (kind = .write) && (match Tab.look d.hostq.nss nsh with
    | some n => match (d.dslot n.keySlot).cur with
      | some k => decide (d.xtsHard < k.used + d.slotReserved n.keySlot + units)
      | none => true
    | none => false)

/-- Is the tenant's FAIL_FAST flag 1? -/
def Dev.failFast (d : Dev) (t : Nat) : Bool := ((Tab.look d.ledger.tenants t).map (·.failFast)).getD false

/-- The admission call (R176 to R179, R454). The ask's arguments name the range and the lookup handle; their layout is not
given, so they come with the command. A fail-fast tenant's command that would wait has its status settled: Command
Interrupted (R150). -/
def Dev.ledgerAdmit (d : Dev) (id : Nat) (kind : CmdKind) (slba nblk ranges handle : Nat) : Dev :=
  d.serveIf id 4 (fun c => c ≠ 2) fun a d =>
    if !d.serves 0x11 then d.reply id (if (d.inst 0x11 0).safe then 6 else 5)
    else
      match d.ledger.adms.find? (fun x => x.2.tag = a.tagKey && x.2.miss = some handle && x.2.kind = kind) with
      | some x => d.reply id 0 0 [BitVec.ofNat 64 x.1]
      | none =>
        let g := d.gradeOf a.nsh
        let staged := (d.unitsWhere fun u => decide (u.tag = some a.tagKey ∧ u.state = .landing)).length
        let c : Admission :=
          { tag := a.tagKey, ctx := a.context, cmdref := a.cmdref, token := a.token, tenant := a.tenant, nsh := a.nsh
            kind := kind, grade := g, slba := slba, nblk := nblk, handle := handle
            units := if kind = .read then max nblk 1 else max staged 1
            entries := if kind = .admin then 0 else if kind = .dealloc then ranges else 1
            since := d.now, staging := staged, gen := a.gen }
        if d.keyHard a.nsh kind c.units then d.reply id 0x12
        else
          let asleep := d.psDefers && decide (a.tenant ≠ 0)
          match if asleep then Except.error Hold.other else d.decide_ c with
          | .ok (c, defs) =>
            let (n, d) := d.take c defs 0
            d.reply id 0 0 [BitVec.ofNat 64 n]
          | .error h =>
            let d := match h with
              | .depth => d.bump Reg.ROPE_STALLS.DEPTH
              | .full => d.bump Reg.ROPE_STALLS.FULL
              | .other => d
            if d.failFast a.tenant && !asleep then
              ((d.bump Reg.LEDGER_WAIT.FAILFAST).doom a.tagKey 0 0x21).reply id 0x10
            else
              let d := (d.bump Reg.LEDGER_ADMIT.DEFERRED).sample 0x05 (some a.tenant)
              Dev.showLedger ({ d with ledger := { d.ledger with waiting := d.ledger.waiting ++ [c] } }.reply id 2)

/-- A map miss makes the admission (R177), or the command waits for one; a fail-fast tenant's is left to the admit ask, which
is refused as any other (R179). -/
def Dev.admitMiss (d : Dev) (c : Admission) : Dev :=
  let asleep := d.psDefers && decide (c.tenant ≠ 0)
  match if asleep then Except.error Hold.other else d.decide_ c with
  | .ok (c, defs) => (d.take c defs 0).2
  | .error _ =>
    if d.failFast c.tenant && !asleep then d
    else Dev.showLedger { d with ledger := { d.ledger with waiting := d.ledger.waiting ++ [c] } }

/-- The ADMIT_READY event (R179). -/
def Dev.admitReady (d : Dev) (c : Admission) (result admId : Nat) : Dev :=
  d.event { typ := evAdmitReady, gen := some c.gen,
            words := descriptor evAdmitReady 64 c.tenant c.nsh c.ctx c.cmdref 0 c.token
              [result % 2 ^ 32 + admId * 2 ^ 32] }

/-- Take a waiting command out of its queue. -/
def Dev.unqueue (d : Dev) (n : Nat) : Dev :=
  Dev.showLedger { d with ledger := { d.ledger with waiting := d.ledger.waiting.eraseIdx n } }

/-- LEDGER looks at what waits (R178, R179): a command whose key slot is at its hard limit is refused; else the command that
is next of those that can be admitted is; else, in PS0, the first head of a fail-fast tenant is refused as it would have been
had it come now (its RESULT is the ask's status, DEDUCED, log 105). -/
def Dev.admitWaiting (d : Dev) : Dev :=
  if !d.serves 0x11 then d
  else
    let hs := d.heads
    match hs.find? fun p => d.keyHard p.2.nsh p.2.kind p.2.units with
    | some (n, c) => (d.unqueue n).admitReady c 0x12 0
    | none =>
      match d.serveNext hs with
      | some (n, c, defs) =>
        let (m, d) := (d.unqueue n).take c defs (d.now - (((d.ledger.waiting[n]?).map (·.since)).getD d.now))
        if c.miss.isSome then d else d.admitReady c 0 m
      | none =>
        match hs.find? fun p => d.failFast p.2.tenant && !d.psDefers with
        | some (n, c) => (((d.unqueue n).bump Reg.LEDGER_WAIT.FAILFAST).doom c.tag 0 0x21).admitReady c 0x10 0
        | none => d

/-- Give back the Belay bytes of the cycle that an admission has not used (R179). -/
def Dev.giveBack (d : Dev) (c : Admission) : Dev :=
  if c.cycle ≠ d.cycle ∨ c.kind = .read then d
  else { d with ledger := { d.ledger with
    g1Bytes := if c.grade = 1 then d.ledger.g1Bytes - c.belay else d.ledger.g1Bytes
    belayBytes := d.ledger.belayBytes - c.belay } }

/-- Free an admission's holds. -/
def Dev.dropAdm (d : Dev) (n : Nat) : Dev :=
  match Tab.look d.ledger.adms n with
  | none => d
  | some c => Dev.showLedger { d.giveBack c with ledger := { (d.giveBack c).ledger with adms := Tab.del d.ledger.adms n } }

/-- Free all that LEDGER holds for a command. -/
def Dev.dropAdmsOf (d : Dev) (tag : Nat) : Dev :=
  let d := (d.ledger.adms.filter fun x => decide (x.2.tag = tag)).foldl (fun d p => d.dropAdm p.1) d
  Dev.showLedger { d with ledger := { d.ledger with waiting := d.ledger.waiting.filter fun x => decide (x.tag ≠ tag) } }

/-- A run of an event of a command has ended: its engine time is released (R166). -/
def Dev.engineFree (d : Dev) (tag typ : Nat) : Dev :=
  let adms := d.ledger.adms.map fun p => if p.2.tag = tag then (p.1, { p.2 with engine := p.2.engine.erase typ }) else p
  Dev.showLedger { d with ledger := { d.ledger with adms := adms } }

/-- The release call (R179). -/
def Dev.ledgerRelease (d : Dev) (id : Nat) : Dev :=
  d.serve id 4 2 fun a d => if a.args = [] then d.reply id 3 else (d.dropAdm (a.arg 0 % 2 ^ 32)).reply id 0

/-- A tenant entry of the table in DRAM (R168): the entry, or the result code that refuses it. -/
def Dev.readTenant (d : Dev) (t : Nat) : Except Nat (Option LedgerTenant) :=
  let a := d.fget Reg.LEDGER_TEN_TAB.ADDR * 4096 + 32 * t
  let m := d.mem.dram
  let fl := m.read (a + 11) 1
  if fl % 2 = 0 then .ok none
  else
    let b := m.read (a + 8) 2
    if b = 0 then .error 6
    else if 100 < b ∨ 4 ≤ fl ∨ m.read (a + 12) 20 ≠ 0 then .error 2
    else .ok (some { readRsv := m.read a 4, writeRsv := m.read (a + 4) 4, burst := b, weight := m.read (a + 10) 1,
                     failFast := bitOf fl 1 })

/-- Sum of a field over the tenant entries. -/
def sumTen (ts : Tab LedgerTenant) (f : LedgerTenant → Nat) : Nat := (ts.map fun p => f p.2).foldl (· + ·) 0

/-- Do the summed reservations cost no more than the reserved pool of any resource, at the G1 costs (R169)? In a second a
reserved read costs two plane reads, two transfers and its events' engine slots, and a write its events' slots and its item's
Belay bytes. Of what is held rather than spent, write staging and lock entries, the reservations of one millisecond are held
at once (DESIGN CHOICE, log 103). -/
def Dev.tenantsFit (d : Dev) (ts : Tab LedgerTenant) : Bool :=
  let pct := d.fget Reg.LEDGER_CFG.RSV_PCT
  let (planes, xfers) := d.readCapacity
  let r := sumTen ts (·.readRsv)
  let w := sumTen ts (·.writeRsv)
  let fits (need pool : Nat) : Bool := decide (need * 100 ≤ pool * pct)
  let slots (k : CmdKind) : Nat := d.slotsOf (eventsOf k false)
  if pct = 0 then decide (r = 0 ∧ w = 0)
  else fits (2000 * r) planes && fits (2000 * r) xfers && fits (r * slots .read + w * slots .write) d.engineCap &&
    fits (1000 * w * belayBytes 1) (1000000000 * d.fget Reg.LEDGER_CFG.BELAY_PCT) && fits w d.dirtyBudget && fits (r + w) 65536

/-- Result of checking a whole tenant table (R169): 0, or a result code. -/
def Dev.tenantsCheck (d : Dev) (ts : Tab LedgerTenant) : Nat :=
  match Tab.look ts 0 with
  | none => 6
  | some z => if z.writeRsv = 0 then 6 else if d.tenantsFit ts then 0 else 7

/-- A write of LEDGER_TEN_UPDATE.GO (R169): the entry reloads, or the previous one stays. -/
def Dev.tenUpdate (d : Dev) (t : Nat) : Dev :=
  if d.fget Reg.LEDGER_TEN_UPDATE.BUSY = 1 ∨ !d.on 0x11 then d
  else
    let d := d.fset Reg.LEDGER_TEN_UPDATE.TENANT t
    let (res, tens) := match d.readTenant t with
      | .error e => (e, d.ledger.tenants)
      | .ok none => let ts := Tab.del d.ledger.tenants t
                    (d.tenantsCheck ts, ts)
      | .ok (some n) =>
        let old := (Tab.look d.ledger.tenants t).getD n
        let n := { n with readTok := min old.readTok (n.readRsv * n.burst * 1000000)
                          writeTok := min old.writeTok (n.writeRsv * n.burst * 1000000) }
        let ts := Tab.put d.ledger.tenants t n
        (d.tenantsCheck ts, ts)
    let d := if res = 0 then { d with ledger := { d.ledger with tenants := tens } } else d
    let d := d.fset Reg.LEDGER_TEN_UPDATE.RESULT res
    d.post 0x11 0 0x30 (t * 65536 + res)

/-- A cycle boundary's part for LEDGER: writes are taken again, the new cycle's sections are empty but for what an earlier
cycle took beyond BELAY_PCT, and tokens refill (R14, R168, R188, R189). -/
def Dev.ledgerBoundary (d : Dev) : Dev :=
  Dev.showLedger { d with ledger := { d.ledger with
    closed := false, g1Bytes := 0, belayBytes := 0
    belayDebt := d.ledger.belayBytes + d.ledger.belayDebt - d.belayCap
    tenants := d.ledger.tenants.map fun p => (p.1, p.2.refill d.cycleNs) } }

/-- SEAL_LEAD, ns (R188). -/
def Dev.sealLead (d : Dev) : Nat := d.fget Reg.ROPE_CHAIN.LOCK_CHAIN * 500

/-- The composed read bounds of R174, in 0.1 µs, for a largest tR_MAX: the parts of R170 before their margin, with one
read of tR + X + decode = tR + 14 µs. -/
def composed (tr : Nat) : Nat × Nat :=
  let rd := tr + 140
  (200 + rd + rd + 60, 400 + rd + 400 + rd + 400 + rd + 60)

end Sys2Proof.Machine
end

