-- ==== Sys2Proof/Machine/MapOps.lean ====
section
/-! DEFINITION. MAP: its calls (R228), landing (R207), and the effects that granted range-lock entries apply to the map
(R181, R183, R193, R194, R211, R216). -/

namespace Sys2Proof.Machine

/-! ### Calls -/

/-- Does the ask act for tenant 0 on a work item's TOKEN (R228)? -/
def Dev.workItem (d : Dev) (a : Ask) : Bool := decide (a.tenant = 0) && (Tab.look d.stripe.items a.token).isSome

/-- Serve MAP call `code`: 0x0006 in safe state, 0x0005 while not in service or before recovery is done, 0x0001 when the
namespace is another tenant's and no work item is acted on (R40, R228). -/
def Dev.mapServe (d : Dev) (id code : Nat) (f : Ask → Dev → Dev) : Dev :=
  d.serve id 3 code fun a d =>
    if (d.inst 0x14 0).safe then d.reply id 6
    else if !d.serves 0x14 || d.fget Reg.MAP_RECOVER.STATE ≠ 2 then d.reply id 5
    else if (Tab.look d.hostq.nss a.nsh).isSome && !d.nsOwned a.nsh a.tenant && !d.workItem a then d.reply id 1
    else f a d

/-- Is the map page resident: in the pin area, in a frame, or never written (R201, R202)? -/
def Dev.resident (d : Dev) (nsh page : Nat) : Bool :=
  let pinned := ((Tab.look d.hostq.nss nsh).map (·.pinned)).getD false
  (pinned && !d.map.coldPages.contains page) || (Tab.look d.map.frames page).isSome || (Tab.look d.map.dir page).isNone

/-- The map pages a range needs. -/
def Dev.pagesOf (d : Dev) (nsh slba nblk : Nat) : List Nat :=
  ((d.unitsOf slba nblk).map (pageKey nsh)).dedup

/-- The entries of a range, one per map unit. -/
def Dev.rangeEntries (d : Dev) (nsh slba nblk : Nat) : List Nat := (d.unitsOf slba nblk).map (d.entry nsh)

/-- The pages of a range that a lookup must read: those not resident that hold an entry which is not in the SRAM map cache
either (R202). -/
def Dev.missing (d : Dev) (nsh slba nblk : Nat) : List Nat :=
  let us := (d.unitsOf slba nblk).filter fun u =>
    !d.resident nsh (pageKey nsh u) && !d.map.sram.contains (unitKey nsh u)
  (us.map (pageKey nsh)).dedup

/-- A lookup uses its entries and frames: they are the most recently used (R202), and have their second chance (R203). -/
def Dev.touch (d : Dev) (nsh slba nblk : Nat) : Dev :=
  let pages := d.pagesOf nsh slba nblk
  { d with map := { d.map with
      frames := d.map.frames.map fun p => if pages.contains p.1 then (p.1, { p.2 with used := true }) else p
      sram := touchSram ((d.unitsOf slba nblk).map (unitKey nsh)) d.map.sram } }

/-- Answer word 0 of a lookup. -/
def lookupWord (handle : Nat) (es : List Nat) : Word :=
  let m := (es.filter entIsMedia).length
  BitVec.ofNat 64 (handle + m * 2 ^ 32 + (es.length - m) * 2 ^ 48)

/-- The lookup call (R177, R183, R193, R202, R228). A read that misses is admitted with the reading of its map pages. -/
def Dev.mapLookup (d : Dev) (id : Nat) : Dev :=
  d.mapServe id 1 fun a d =>
    match Tab.look d.hostq.nss a.nsh with
    | none => d.reply id 0x11
    | some n =>
      if a.args.length < 2 then d.reply id 3
      else
        let slba := a.arg 0
        let nblk := a.arg 1 % 65536 + 1
        if n.nsze < slba + nblk then d.reply id 0x10
        else
          let es := d.rangeEntries a.nsh slba nblk
          let pages := d.missing a.nsh slba nblk
          let hit := pages.isEmpty
          if hit && es.any entBad then
            (d.raiseFault 0x08 0x14 0 ((d.pagesOf a.nsh slba nblk).headD 0 % 2 ^ 31)).reply id 1
          else
            let h := d.map.nextLookup
            let l : Lookup := { tenant := a.tenant, nsh := a.nsh, slba := slba, nblk := nblk, tag := a.tagKey
                                ctx := a.context, cmdref := a.cmdref, token := a.token
                                entries := if hit then es else [], gens := if hit then es.map d.genOf else []
                                ready := hit, gen := a.gen }
            let d := { d with map := { d.map with lookups := Tab.put d.map.lookups h l, nextLookup := (h + 1) % 2 ^ 32 } }
            if hit then
              ((d.touch a.nsh slba nblk).bump Reg.MAP_LOOKUP.HITS).reply id 0 0 [lookupWord h es]
            else
              let d := (d.bump Reg.MAP_LOOKUP.MISSES).sample 0x08 (some a.tenant)
              let d := if n.grade = 1 ∧ !n.cold then d.raiseFault 0x09 0x14 0 (h % 2 ^ 31) else d
              let read := (Tab.look d.hostq.tags a.tagKey).any fun t => decide (t.qid ≠ 0) && field (t.sqe.getD 0 0) 7 0 = 2
              let c : Admission :=
                { tag := a.tagKey, ctx := a.context, cmdref := a.cmdref, token := a.token, tenant := a.tenant, nsh := a.nsh
                  kind := .read, grade := d.gradeOf a.nsh, slba := slba, nblk := nblk, units := nblk, entries := 1
                  since := d.now, handle := h, miss := some h, pages := pages.filterMap (Tab.look d.map.dir), gen := a.gen }
              (if read then d.admitMiss c else d).reply id 4 0 [BitVec.ofNat 64 h]

/-- The release call (R228). -/
def Dev.mapRelease (d : Dev) (id : Nat) : Dev :=
  d.mapServe id 2 fun a d =>
    let h := a.arg 0 % 2 ^ 32
    let ok := (Tab.look d.map.lookups h).any fun l => decide (l.tenant = a.tenant) || d.workItem a
    let d := if ok then { d with map := { d.map with lookups := Tab.del d.map.lookups h } } else d
    d.reply id 0

/-- The stage call (R28, R40, R228): bind the data that landed under a TOKEN to the command. The units of the TOKEN, in
the order of their places in the data, take the blocks of the range in order. Units whose command is admitted already
are HELD from now on (R207). -/
def Dev.mapStage (d : Dev) (id : Nat) : Dev :=
  d.mapServe id 3 fun a d =>
    match Tab.look d.hostq.nss a.nsh with
    | none => d.reply id 1
    | some n =>
      let slba := a.arg 0
      let nblk := a.arg 1 % 65536 + 1
      let tok := a.arg 2
      let us := d.map.staging.filter fun p => decide (p.2.token = tok ∧ p.2.state = .landing)
      if n.nsze < slba + nblk then d.reply id 0x10
      else if us.any (fun p => p.2.uncommitted) then d.reply id 0x12
      else if us.any (fun p => p.2.rec_.tenant ≠ a.tenant) || us.isEmpty then d.reply id 1
      else
        let adm := d.ledger.adms.find? fun p => decide (p.2.tag = a.tagKey)
        let d := us.foldl (fun d p => d.modUnit p.1 fun u =>
          { u with tag := some a.tagKey
                   state := if adm.isSome then .held else u.state
                   cycle := match adm with | some c => c.2.cycle | none => u.cycle
                   grade := match adm with | some c => c.2.grade | none => u.grade
                   stream := a.arg 3
                   rec_ := { u.rec_ with nsh := a.nsh, lba := slba + (us.filter fun q => decide (q.2.rec_.lba < p.2.rec_.lba)).length
                                         tenant := a.tenant
                                         keySlot := n.keySlot } }) d
        let b : Bound := { slba := slba, nblk := nblk, token := tok, stream := a.arg 3 }
        let d := { d with map := { d.map with bound := Tab.put d.map.bound a.tagKey b } }
        d.showStaging.reply id 0

/-- The namespace-info call (R228). -/
def Dev.mapInfo (d : Dev) (id : Nat) : Dev :=
  d.mapServe id 4 fun a d =>
    match Tab.look d.hostq.nss a.nsh with
    | none => d.reply id 1
    | some n =>
      d.reply id 0 0 [BitVec.ofNat 64 n.nsze, BitVec.ofNat 64 (n.grade + 8 * b2n n.pinned + 16 * b2n n.cold)]

/-! ### Landing (R207) -/

/-- The lowest staging index not in use, from `n`. -/
def freeIndex (t : Tab SUnit) : Nat → Nat → Nat
  | 0, n => n
  | f + 1, n => if (Tab.look t n).isSome then freeIndex t f (n + 1) else n

/-- The unit that has landed, or is landing, in a place of the data a TOKEN names. -/
def Dev.landingUnit (d : Dev) (tenant token place : Nat) : Option (Nat × SUnit) :=
  d.map.staging.find? fun p => decide (p.2.state = .landing ∧ p.2.token = token ∧ p.2.rec_.lba = place ∧
    p.2.rec_.tenant = tenant)

/-- Bytes of write data land (R207, R418, R419): they lie in one 4 KiB place of the data that a staging TOKEN names, from
byte `off` of it. The place's unit takes them, or the lowest FREE one does. Until the stage call LBA holds the place. -/
def Dev.landIn (d : Dev) (tenant nsh token place off : Nat) (bs : List Byte) (uncommitted : Bool) : Dev :=
  let fill := fun (u : SUnit) =>
    let data := u.data.setBytes off bs
    { u with data := data, crc := dataCrc (data.bytes 0 4096), uncommitted := u.uncommitted || uncommitted }
  match d.landingUnit tenant token place with
  | some p => { d with map := { d.map with staging := Tab.put d.map.staging p.1 (fill p.2) } }
  | none =>
    let i := freeIndex d.map.staging d.map.staging.length 0
    let u : SUnit := { state := .landing, rec_ := { wgen := 0, nsh := nsh, lba := place, tenant := tenant }
                       token := token, group := i }
    { d with map := { d.map with staging := Tab.put d.map.staging i (fill u) } }

/-- Bytes land from byte `at_` of the data of a TOKEN. Nothing lands once the power-fail sequence has quiesced, nor while
the SRAM has too few FREE units for all of it (R19, R208): the bytes then stay where they are, outside. -/
def Dev.land (d : Dev) (tenant nsh token at_ : Nat) (bs : List Byte) (uncommitted : Bool) : Dev :=
  let first := at_ / 4096
  let places := (List.range ((at_ + bs.length - 1) / 4096 + 1 - first)).map (· + first)
  if d.quiet || bs.isEmpty ||
      decide (d.sramFree < (places.filter fun k => (d.landingUnit tenant token k).isNone).length) then d
  else
    Dev.showStaging (places.foldl (fun d k =>
      let lo := max at_ (k * 4096)
      let hi := min (at_ + bs.length) ((k + 1) * 4096)
      d.landIn tenant nsh token k (lo % 4096) ((bs.drop (lo - at_)).take (hi - lo)) uncommitted) d)

/-- Discard the LANDING units that satisfy `p` (R28, R207). -/
def Dev.discard (d : Dev) (p : SUnit → Bool) : Dev :=
  let st := d.map.staging.filter fun x => !(decide (x.2.state = .landing) && p x.2)
  Dev.showStaging { d with map := { d.map with staging := st } }

/-! ### Effects of granted entries -/

/-- Mark superseded the staged units of a group that hold blocks of a range (R211). -/
def Dev.supersede (d : Dev) (g slba nblk cycle : Nat) (keep : Nat → Bool) : Dev :=
  let st := d.map.staging.map fun p =>
    if p.2.group = g ∧ slba ≤ p.2.rec_.lba ∧ p.2.rec_.lba < slba + nblk ∧ p.2.superseded = none ∧ !p.2.rec_.zrange ∧
        keep p.1 = false then
      (p.1, { p.2 with superseded := some cycle })
    else p
  { d with map := { d.map with staging := st } }

/-- The entry that a STAGED entry replaced, looked through to what is not STAGED (R211). -/
def Dev.formerOf (d : Dev) (e : Nat) : Nat :=
  if entIsStaged e then
    match d.map.staging.find? (fun p => p.2.group = entIndex e) with
    | some p => p.2.former
    | none => entDealloc
  else e

/-- With secure deletion on, a media copy that stops being current now is remembered with the instant (R217). -/
def Dev.endCopy (d : Dev) (e : Nat) : Dev :=
  if d.fget Reg.MAP_CFG.SECURE = 1 ∧ entIsMedia e = true ∧ (Tab.look d.map.ended (e / 4)).isNone = true then
    { d with map := { d.map with ended := Tab.put d.map.ended (e / 4) d.now } }
  else d

/-- Point a map unit's entry at the staged units of a write (R181, R193, R211). In 16 KiB mode the units of an earlier
write that this one leaves current join its group. -/
def Dev.stageUnit (d : Dev) (nsh u rope cycle : Nat) (mine : List Nat) : Dev :=
  match mine with
  | [] => d
  | g :: _ =>
    let key := unitKey nsh u
    let old := d.entryAt key
    let former := d.formerOf old
    let lbas := mine.filterMap fun i => (Tab.look d.map.staging i).map (·.rec_.lba)
    let st := d.map.staging.map fun p =>
      if mine.contains p.1 then
        (p.1, { p.2 with group := g, former := former, replaced := old, rec_ := { p.2.rec_ with wgen := rope } })
      else if entIsStaged old ∧ p.2.group = entIndex old ∧ p.2.superseded = none ∧ !p.2.rec_.zrange then
        if lbas.contains p.2.rec_.lba then (p.1, { p.2 with superseded := some cycle })
        else (p.1, { p.2 with group := g })
      else p
    let d := { d with map := { d.map with staging := st } }
    (d.endCopy old).setEntry key (entStaged g rope)

/-- Apply a Write: its staged units, map unit by map unit. -/
def Dev.applyWrite (d : Dev) (tag nsh slba nblk rope cycle : Nat) : Dev :=
  (d.unitsOf slba nblk).foldl (fun d u =>
    let mine := (d.map.staging.filter fun p =>
      decide (p.2.tag = some tag) && !p.2.rec_.zrange && d.unitOf p.2.rec_.lba = u).map (·.1)
    d.stageUnit nsh u rope cycle mine) d

/-- Land a unit that MAP forms itself, as part of command `tag`; its admission promised the unit (R207). -/
def Dev.landOwn (d : Dev) (tag : Nat) (r : URec) (data : Memory) (cycle grade : Nat) : Nat × Dev :=
  let i := freeIndex d.map.staging d.map.staging.length 0
  let adms := d.ledger.adms.map fun p => if p.2.tag = tag then (p.1, { p.2 with promised := p.2.promised - 1 }) else p
  let d := { d with ledger := { d.ledger with adms := adms } }
  let u : SUnit := { state := .held, rec_ := r, data := data, crc := dataCrc (data.bytes 0 4096), tag := some tag
                     cycle := cycle, grade := grade, group := i
                     sealed := r.zrange }
  (i, { d with map := { d.map with staging := Tab.put d.map.staging i u } })

/-- The map units of a range that it covers whole, and the blocks of the others (R216, R193). -/
def Dev.wholeUnits (d : Dev) (slba nblk : Nat) : List Nat × List Nat :=
  let sp := d.mapSpan
  let whole := (d.unitsOf slba nblk).filter fun u => decide (slba ≤ u * sp ∧ u * sp + sp ≤ slba + nblk)
  let rest := (List.range nblk).map (· + slba) |>.filter fun b => !whole.contains (b / sp)
  (whole, if sp = 1 then [] else rest)

/-- Deallocate map units: their entries become DEALLOC, a DEALLOC record is appended, and the copies that stop being
current become stale when it is durable (R216, R227). -/
def Dev.deallocUnits (d : Dev) (nsh : Nat) (us : List Nat) (cycle : Nat) : Dev :=
  let olds := us.map (d.entry nsh)
  let media := olds.map d.formerOf |>.filter entIsMedia
  let d := (us.zip olds).foldl (fun d p =>
    let d := if entIsStaged p.2 then d.supersede (entIndex p.2) (p.1 * d.mapSpan) d.mapSpan cycle (fun _ => false) else d
    (d.endCopy p.2).setEntry (unitKey nsh p.1) entDealloc) d
  match us with
  | [] => d
  | u :: _ => (d.append 2 0 nsh (bodyDealloc u us.length) (.stale media [])).1

/-- Zero map units: ZEROS entries, each with its MAP record (DEDUCED, log 21). -/
def Dev.zeroUnits (d : Dev) (nsh : Nat) (us : List Nat) (rope cycle : Nat) : Dev :=
  us.foldl (fun d u =>
    let old := d.entry nsh u
    let former := d.formerOf old
    let d := if entIsStaged old then d.supersede (entIndex old) (u * d.mapSpan) d.mapSpan cycle (fun _ => false) else d
    let d := (d.endCopy old).setEntry (unitKey nsh u) (entZeros rope)
    (d.append 1 0 nsh (bodyMap u (entZeros rope) former) (.stale (if entIsMedia former then [former] else []) [])).1) d

/-- The zero-range unit of a Write Zeroes (R194): its record, under the current key of its namespace, and its data. -/
def Dev.zeroRange (d : Dev) (nsh slba nblk rope : Nat) (deac : Bool) : URec × Memory :=
  let (slot, gen, ten) := match Tab.look d.hostq.nss nsh with
    | some n => (n.keySlot, (((d.dslot n.keySlot).cur.map (fun (k : KeyGen) => k.gen)).getD 0), n.tenant)
    | none => (0, 0, 0)
  let data := (Memory.write [] 0 8 nblk).write 8 1 (b2n deac)
  let r : URec := { wgen := rope, nsh := nsh, lba := slba, keySlot := slot, keyGen := gen, zrange := true, tenant := ten
                    span := nblk, deac := deac }
  ({ r with tag := finishTag (dataCrc (data.bytes 0 4096)) r.laddr rope }, data)

/-- Apply a Write Zeroes (R193, R194): one zero-range unit lands, whole map units become ZEROS or DEALLOC, and in
16 KiB mode blocks of partly covered units are written as zero data. -/
def Dev.applyZeroes (d : Dev) (tag nsh slba nblk rope cycle grade : Nat) (deac : Bool) : Dev :=
  let (r, data) := d.zeroRange nsh slba nblk rope deac
  let (_, d) := d.landOwn tag r data cycle grade
  let (whole, part) := d.wholeUnits slba nblk
  let d := if deac then d.deallocUnits nsh whole cycle else d.zeroUnits nsh whole rope cycle
  let (ids, d) := part.foldl (fun (acc : List Nat × Dev) b =>
    let (ids, d) := acc
    let pr : URec := { wgen := rope, nsh := nsh, lba := b, keySlot := r.keySlot, tenant := r.tenant }
    let (i, d) := d.landOwn tag pr [] cycle grade
    (ids ++ [i], d.stageUnit nsh (d.unitOf b) rope cycle [i])) ([], d)
  let q : Seal :=
    { ctx := tag / 65536, cmdref := tag % 65536, tenant := r.tenant, nsh := nsh, runToken := 0, runGen := 0, token := 0
      slot := r.keySlot, rope := rope, left := ids, units := ids.length, own := true }
  let d := if ids.isEmpty then d else d.queueSeal q
  d.showStaging

/-- The opcode of a command, and bit 25 of its DW12 (DEAC of Write Zeroes). -/
def Dev.sqeOp (d : Dev) (tag : Nat) : Nat × Bool :=
  match Tab.look d.hostq.tags tag with
  | some t => (field (t.sqe.getD 0 0) 7 0, (t.sqe.getD 6 0).getLsbD 25)
  | none => (0, false)

/-- A lookup confirmed at its command's rope position (R183): each location that a write has replaced since the lookup, which
is one of another write generation, or of another kind where no data is named, is redirected. With it the media entries that
were replaced. A lookup that still waits for its pages takes what stands now. -/
def Dev.confirm (d : Dev) (l : Lookup) : Lookup × List Nat :=
  let now := d.rangeEntries l.nsh l.slba l.nblk
  let fresh := now.map fun e => (e, d.genOf e)
  if !l.ready then ({ l with entries := now, gens := fresh.map (·.2) }, [])
  else
    let same (a b : Nat × Nat) : Bool := a.2 = b.2 && (a.2 ≠ 0 || a.1 = b.1)
    let ps := (l.entries.zip l.gens).zip fresh
    let kept := ps.map fun p => if same p.1 p.2 then p.1 else p.2
    ({ l with entries := kept.map (·.1), gens := kept.map (·.2) },
      (ps.filter fun p => !same p.1 p.2 && entIsMedia p.1.1).map (·.1.1))

/-- Confirm a read's captured locations at its rope position: every replaced one is redirected, and the die time held for it
is released (R183). -/
def Dev.redirect (d : Dev) (tag : Nat) : Dev :=
  let mine := d.map.lookups.filter fun p => decide (p.2.tag = tag)
  let gone := mine.flatMap fun p => (d.confirm p.2).2
  let ls := d.map.lookups.map fun p => if p.2.tag = tag then (p.1, (d.confirm p.2).1) else p
  let adms := d.ledger.adms.map fun p =>
    if p.2.tag = tag then (p.1, { p.2 with slots := p.2.slots.filter fun s => !gone.contains s.entry }) else p
  { d with map := { d.map with lookups := ls }, ledger := { d.ledger with adms := adms } }

/-- Apply a granted entry to the map. -/
def Dev.applyRange (d : Dev) (tag : Nat) (l : Lock) (cycle grade : Nat) : Dev :=
  let op := d.sqeOp tag
  match l.kind with
  | .read => d.redirect tag
  | .write => if op.1 = 0x08 then d.applyZeroes tag l.nsh l.slba l.nblk l.rope cycle grade false
              else d.applyWrite tag l.nsh l.slba l.nblk l.rope cycle
  | .dealloc => if op.1 = 0x08 then d.applyZeroes tag l.nsh l.slba l.nblk l.rope cycle grade true
                else d.deallocUnits l.nsh (d.wholeUnits l.slba l.nblk).1 cycle
  | .flush | .nswide | .admin => d

/-! ### Misses and frames (R202, R203) -/

/-- Second chance (R203): from the head of the ring, a frame that has been used goes to its end and loses its chance; the
first other one that is clean and of the partition is the victim. Answers it, with the ring and the frames after it. -/
def Dev.secondChance (d : Dev) (g : Nat) : Nat → List Nat → Tab Frame → Option Nat × List Nat × Tab Frame
  | 0, ring, fs => (none, ring, fs)
  | n + 1, ring, fs =>
    match ring with
    | [] => (none, [], fs)
    | p :: rest =>
      match Tab.look fs p with
      | none => d.secondChance g n rest fs
      | some f =>
        if f.dirty || !d.samePart g (d.pageGrade p) then d.secondChance g n (rest ++ [p]) fs
        else if f.used then d.secondChance g n (rest ++ [p]) (Tab.put fs p { f with used := false })
        else (some p, rest, Tab.del fs p)

/-- A map page comes into a frame; a full partition gives up a clean one (R203). -/
def Dev.frameIn (d : Dev) (page : Nat) : Dev :=
  if (Tab.look d.map.frames page).isSome then d
  else
    let g := d.pageGrade page
    let n := (d.map.frames.filter fun f => !d.pagePinned f.1 && d.samePart g (d.pageGrade f.1)).length
    let (ring, fs) := if n < d.framesOf g then (d.map.ring, d.map.frames)
      else (d.secondChance g (2 * d.map.ring.length + 1) d.map.ring d.map.frames).2
    { d with map := { d.map with frames := Tab.put fs page {}, ring := ring ++ [page] } }

/-- A page that an admission waited for has come: its frame is no longer reserved, and with the last one the floating read
takes its slots (R177): within 40 µs, or behind what is held where that cannot be. -/
def Dev.floatDown (d : Dev) (h : Nat) (last : Bool) : Dev :=
  let adms := d.ledger.adms.map fun p =>
    if p.2.miss = some h then
      let c := { p.2 with frames := p.2.frames - 1 }
      let pg := d.partsGrade c.grade h true
      let es := d.mediaEntries h
      let more := if !last then [] else
        ((d.placeSlots pg c.reserved (some (d.now + 40000)) es []).or (d.placeSlots pg c.reserved none es [])).getD []
      (p.1, { c with slots := c.slots ++ more })
    else p
  { d with ledger := { d.ledger with adms := adms } }

/-- A lookup's result once its pages have come, or one has failed: 0, 0x13, or 1 for a malformed entry, which a hit would have
answered and which SPOTTER records as DF1 (R193, R228, DEDUCED, log 106). -/
def Dev.lookupEnds (d : Dev) (h : Nat) (l : Lookup) (good : Bool) : Dev :=
  let es := if !good then [] else if l.entries.isEmpty then d.rangeEntries l.nsh l.slba l.nblk else l.entries
  let gens := if l.entries.isEmpty then es.map d.genOf else l.gens
  let bad := es.any entBad
  let d := if bad then d.raiseFault 0x08 0x14 0 ((d.pagesOf l.nsh l.slba l.nblk).headD 0 % 2 ^ 31) else d
  let l := { l with ready := true, entries := if bad then [] else es, gens := if bad then [] else gens }
  let d := { d with map := { d.map with lookups := Tab.put d.map.lookups h l } }
  (d.touch l.nsh l.slba l.nblk).event
    { typ := evMapReady, gen := some l.gen
      words := descriptor evMapReady 64 l.tenant l.nsh l.ctx l.cmdref 0 l.token
        [h % 2 ^ 32 + (if bad then 1 else if good then 0 else 0x13) * 2 ^ 32] }

/-- A map page arrives in a frame, or fails its CRC and rebuild. Every lookup it completes becomes ready, and MAP_READY is
posted (R177, R202, R203, R228). -/
def Dev.pageReady (d : Dev) (page : Nat) (good : Bool) : Dev :=
  let waits := d.map.lookups.filter fun p => !p.2.ready && (d.missing p.2.nsh p.2.slba p.2.nblk).contains page
  let d := if good then d.frameIn page else d
  waits.foldl (fun d p =>
    let left := (d.missing p.2.nsh p.2.slba p.2.nblk).filter (· ≠ page)
    let ends := !good || left.isEmpty
    let d := if ends then d.lookupEnds p.1 p.2 good else d
    d.floatDown p.1 ends) d

/-- MAP_WARM shows the cold maps (R206). -/
def Dev.showWarm (d : Dev) : Dev :=
  let d := d.fset Reg.MAP_WARM.COLD_NS (d.hostq.nss.filter fun p => p.2.cold).length
  d.fset Reg.MAP_WARM.PAGES_LEFT
    (d.map.coldPages.filter fun p => ((Tab.look d.hostq.nss (p / 2 ^ 32)).map (·.pinned)).getD false).length

/-- Is the page of a cold pinned map next to load: no page of a lower handle's is left (R206)? -/
def Dev.warmNext (d : Dev) (page : Nat) : Bool :=
  d.map.coldPages.contains page && d.map.coldPages.all fun p => decide (page / 2 ^ 32 ≤ p / 2 ^ 32) || !d.pagePinned p

/-- Pages of a pinned map load, in the order of the handles; with the last, the namespace is warm and event 0x0041 is posted
(R206). -/
def Dev.warmPage (d : Dev) (page : Nat) : Dev :=
  if !d.warmNext page then d
  else
    let nsh := page / 2 ^ 32
    let d := { d with map := { d.map with coldPages := d.map.coldPages.filter (· ≠ page) } }
    if d.map.coldPages.any (fun p => p / 2 ^ 32 = nsh) then d.showWarm
    else
      match Tab.look d.hostq.nss nsh with
      | some n =>
        let d := { d with hostq := { d.hostq with nss := Tab.put d.hostq.nss nsh { n with cold := false } } }
        (d.showWarm).post 0x14 0 0x41 nsh
      | none => d.showWarm

/-! ### Capacity (R205, R214) -/

/-- MiB a pinned namespace of `blocks` blocks is charged (R205). -/
def Dev.pinCharge (d : Dev) (blocks : Nat) : Nat :=
  ((blocks + d.mapSpan - 1) / d.mapSpan * 5 + 1048575) / 1048576

/-- MAP_ALLOC and MAP_PIN_USED.OWN_MIB from the namespaces of the unit's own ANA groups (R205, R214). -/
def Dev.showAlloc (d : Dev) : Dev :=
  let own := d.hostq.nss.filter fun p =>
    decide (bitsOf (d.fget Reg.HOSTQ_ANA_OWN.UNIT) (p.2.anagrp - 1) (p.2.anagrp - 1) = d.fget Reg.CAMP_STRAP.UNIT_ID)
  let d := d.fset Reg.MAP_ALLOC.BLOCKS ((own.map fun p => p.2.nsze).foldl (· + ·) 0)
  d.fset Reg.MAP_PIN_USED.OWN_MIB (((own.filter fun p => p.2.pinned).map fun p => d.pinCharge p.2.nsze).foldl (· + ·) 0)

end Sys2Proof.Machine
end

