-- ==== Sys2Proof/Machine/RopeOps.lean ====
section
/-! DEFINITION. ROPE: rope numbers, range locks, marks, the trace ring and the commit cycle (R180 to R189). -/

namespace Sys2Proof.Machine

/-- KIND of the request call and of an entry (R185). -/
def kindOf (k : Nat) : Option CmdKind :=
  if k = 0 then some .read else if k = 1 then some .write else if k = 2 then some .dealloc
  else if k = 3 then some .flush else if k = 4 then some .nswide else none

/-- KIND's code in an entry. -/
def CmdKind.code : CmdKind → Nat
  | .read => 0
  | .write => 1
  | .dealloc => 2
  | .flush => 3
  | .nswide => 4
  | .admin => 5

/-- The controller of a context, 0 when HOSTQ knows none. -/
def Dev.ctrlOf (d : Dev) (ctx : Nat) : Nat := ((Tab.look d.hostq.queues ctx).map (·.ctrl)).getD (if 2 ^ 18 ≤ ctx then ctx else 0)

/-- Key of a mark: controller × 2^32 + CMDREF. -/
def Dev.markKey (d : Dev) (ctx cmdref : Nat) : Nat := d.ctrlOf ctx * 2 ^ 32 + cmdref % 2 ^ 32

/-- ROPE_LOCKS shows the entries in use. -/
def Dev.showLocks (d : Dev) : Dev :=
  let n := d.rope.locks.length
  (d.fset Reg.ROPE_LOCKS.IN_USE n).raiseTo Reg.ROPE_LOCKS.HIGH n

/-- The lowest table index not in use, from `n`. -/
def freeLock (t : Tab Lock) : Nat → Nat → Nat
  | 0, n => n
  | f + 1, n => if (Tab.look t n).isSome then freeLock t f (n + 1) else n

/-- Words 0 to 2 of an entry (R185). -/
def Lock.words (l : Lock) (applied : Bool) : List Nat :=
  [l.rope,
   1 + (if applied then 2 else b2n l.granted) * 2 + l.kind.code * 16 + (l.nsh % 2 ^ 14) * 2 ^ 10 + (l.slba % 2 ^ 40) * 2 ^ 24,
   (l.depth % 16) * 2 ^ 8 + (l.tenant % 4096) * 2 ^ 12 + (l.nblk % 2 ^ 40) * 2 ^ 24]

/-- Write an applied entry's record to the trace ring (R187); wrapping over records posts event 0x0031. -/
def Dev.trace (d : Dev) (l : Lock) : Dev :=
  let n := d.fget Reg.ROPE_TRACE.ENTRIES
  if n = 0 then d
  else
    let h := d.fget Reg.ROPE_TRACE.HEAD
    let a := d.fget Reg.ROPE_TRACE_BASE.ADDR * 4096 + 32 * h
    let bs := (l.words true ++ [d.now]).flatMap fun w => leBytes w 8
    let d := { d with mem := { d.mem with dram := d.mem.dram.setBytes a bs }
                      rope := { d.rope with traced := min (d.rope.traced + 1) n } }
    let d := d.fset Reg.ROPE_TRACE.HEAD ((h + 1) % n)
    if (h + 1) % n = 0 ∧ d.rope.traced = n then d.post 0x12 0 0x31 n else d

/-- Free an applied entry. -/
def Dev.freeLockAt (d : Dev) (i : Nat) : Dev :=
  Dev.showLocks { d with rope := { d.rope with locks := Tab.del d.rope.locks i } }

/-- Free every entry of a command, and its LEDGER holds (R133). -/
def Dev.releaseCommand (d : Dev) (tag : Nat) : Dev :=
  let locks := d.rope.locks.filter fun p => decide (tagKey p.2.ctx p.2.cmdref ≠ tag)
  (Dev.showLocks { d with rope := { d.rope with locks := locks } }).dropAdmsOf tag

/-- Is every lower overlapping entry applied (R181)? Applied entries are no longer listed. -/
def Dev.grantable (d : Dev) (l : Lock) : Bool :=
  d.rope.locks.all fun p => !(decide (p.2.rope < l.rope) && p.2.nsh = l.nsh &&
    blocks p.2.kind p.2.slba p.2.nblk l.kind l.slba l.nblk)

/-- The commit cycle and grade a command was admitted with. -/
def Dev.admittedAs (d : Dev) (tag : Nat) : Nat × Nat :=
  match d.ledger.adms.find? (fun p => p.2.tag = tag) with
  | some p => (p.2.cycle, p.2.grade)
  | none => (d.cycle, 4)

/-- Apply the granted entry at an index and free it, except a FLUSH or NSWIDE entry, which stays until its operation is
complete (R180's table). -/
def Dev.applyEntry (d : Dev) (i : Nat) : Dev :=
  match Tab.look d.rope.locks i with
  | none => d
  | some l =>
    if !l.granted || l.kind = .flush || l.kind = .nswide then d
    else
      let tag := tagKey l.ctx l.cmdref
      let (cyc, g) := d.admittedAs tag
      let op := d.sqeOp tag
      let zeroes := decide (op.1 = 0x08)
      let e : Effect := { cycle := cyc, grade := g, tag := tag, ctx := l.ctx, cmdref := l.cmdref
                          kind := if l.kind = .dealloc then 2 else 1
                          zeros := zeroes && decide (l.kind = .write), nsh := l.nsh, slba := l.slba, nblk := l.nblk
                          rope := l.rope }
      let d := if l.kind = .write ∨ l.kind = .dealloc then
          { d with belay := { d.belay with effects := d.belay.effects ++ [e] } }
        else d
      ((d.applyRange tag l cyc g).trace l).freeLockAt i

/-- Grant a waiting entry, post LOCK_GRANTED, and apply it where `applied` says that MAP has done so by the end of the
step (R181, R186). -/
def Dev.grant (d : Dev) (i : Nat) (applied : Bool) : Dev :=
  match Tab.look d.rope.locks i with
  | none => d
  | some l =>
    if l.granted then (if applied then d.applyEntry i else d)
    else if !d.grantable l then d
    else
      let d := { d with rope := { d.rope with locks := Tab.put d.rope.locks i { l with granted := true } } }
      let d := d.event { typ := evLockGranted, gen := some l.gen,
                         words := descriptor evLockGranted 64 l.tenant l.nsh l.ctx l.cmdref l.rope 0 [i % 65536] }
      if applied then d.applyEntry i else d

/-- Index of the next waiting entry on the same range, for NEXT of the entry before it. -/
def Dev.linkNext (d : Dev) (l : Lock) (i : Nat) : Dev :=
  let locks := d.rope.locks.map fun p =>
    if p.2.nsh = l.nsh && blocks p.2.kind p.2.slba p.2.nblk l.kind l.slba l.nblk && p.2.next = none then
      (p.1, { p.2 with next := some i })
    else p
  { d with rope := { d.rope with locks := locks } }

/-- Does the command's admission cover a request (R45, R166, R184): of its kind, with an entry left, over a range within the
one admitted? A Dataset Management's ranges come with the requests; Flush and NSWIDE entries cover the namespace. -/
def Dev.covers (d : Dev) (tag nsh : Nat) (kind : CmdKind) (slba nblk : Nat) : Bool :=
  d.ledger.adms.any fun p => decide (p.2.tag = tag ∧ p.2.nsh = nsh ∧ p.2.kind = kind ∧ 0 < p.2.entries) &&
    (decide (kind ≠ .read ∧ kind ≠ .write) || decide (p.2.slba ≤ slba ∧ slba + nblk ≤ p.2.slba + p.2.nblk))

/-- A request uses one of its admission's entries. -/
def Dev.useEntry (d : Dev) (tag : Nat) (kind : CmdKind) : Dev :=
  let adms := d.ledger.adms.map fun p =>
    if p.2.tag = tag ∧ p.2.kind = kind then (p.1, { p.2 with entries := p.2.entries - 1 }) else p
  { d with ledger := { d.ledger with adms := adms } }

/-- The command's rope number: the one it has, where it touches several ranges (R180, R184), or the next. -/
def Dev.ropeOf (d : Dev) (tag : Nat) : Nat × Dev :=
  match Tab.look d.hostq.tags tag with
  | some t =>
    if t.rope ≠ 0 then (t.rope, d)
    else
      let d := d.raiseCeilings
      let r := d.fget Reg.ROPE_NEXT.ROPE
      let t := { t with state := .committed, rope := r, cycle := d.cycle }
      let d := { d with hostq := { d.hostq with tags := Tab.put d.hostq.tags tag t } }
      (r, d.fset Reg.ROPE_NEXT.ROPE (r + 1))
  | none =>
    let d := d.raiseCeilings
    let r := d.fget Reg.ROPE_NEXT.ROPE
    (r, d.fset Reg.ROPE_NEXT.ROPE (r + 1))

/-- The depth that the DEPTH field of a new entry holds: what its lower unapplied entries give (R182, R185). -/
def Dev.entryDepth (d : Dev) (nsh : Nat) (kind : CmdKind) (slba nblk : Nat) : Nat :=
  let under := d.rope.locks.filter fun p =>
    decide (p.2.nsh = nsh) && blocks p.2.kind p.2.slba p.2.nblk kind slba nblk
  (under.map fun p => p.2.depth + 1).foldl max 0

/-- Put an entry in the table: granted, and applied where `applied` says that MAP has done so by the end of the step, or
waiting (R181). Answers whether it is granted. -/
def Dev.lockIn (d : Dev) (l : Lock) (applied : Bool) : Bool × Dev :=
  let i := freeLock d.rope.locks d.rope.locks.length 0
  if d.grantable l then
    let d := Dev.showLocks { d with rope := { d.rope with locks := Tab.put d.rope.locks i { l with granted := true } } }
    (true, if applied then d.applyEntry i else d)
  else
    let d := d.linkNext l i
    (false, Dev.showLocks { d with rope := { d.rope with locks := Tab.put d.rope.locks i l } })

/-- The range an entry holds: a Flush's and an NSWIDE's is the whole namespace (R185). -/
def Dev.lockRange (d : Dev) (nsh : Nat) (kind : CmdKind) (slba nblk : Nat) : Nat × Nat :=
  if kind = .flush ∨ kind = .nswide then (0, ((Tab.look d.hostq.nss nsh).map (·.nsze)).getD 0) else (slba, nblk)

/-- The entry of a Flush or of a namespace-wide operation, which a command of HOSTQ holds from its commit point to its end
(R184, R185). -/
def Dev.holdSpace (d : Dev) (tag ctx cmdref tenant nsh : Nat) (kind : CmdKind) : Dev :=
  if d.rope.locks.any fun p => decide (tagKey p.2.ctx p.2.cmdref = tag ∧ p.2.nsh = nsh ∧ p.2.kind = kind) then d
  else
    let (slba, nblk) := d.lockRange nsh kind 0 0
    let (r, d) := d.ropeOf tag
    (d.lockIn { rope := r, slba := slba, nblk := nblk, nsh := nsh, kind := kind, granted := false, tenant := tenant
                depth := d.entryDepth nsh kind slba nblk, ctx := ctx, cmdref := cmdref } false).2

/-- The request call (R45, R147, R180, R184, R186). What LEDGER has not admitted is refused with 0x0001; a Flush or NSWIDE
entry that the command holds already is its answer. -/
def Dev.ropeRequest (d : Dev) (id : Nat) (applied : Bool) : Dev :=
  d.serve id 5 1 fun a d =>
    if (d.inst 0x12 0).safe then d.reply id 6
    else if !d.serves 0x12 then d.reply id 5
    else
      let w := a.arg 0
      let cmdref := w % 2 ^ 32
      let nsh := bitsOf w 45 32
      let tag := tagKey a.context cmdref
      let admin := (Tab.look d.hostq.tags tag).any fun t => t.qid = 0
      match kindOf (bitsOf w 51 48) with
      | none => d.reply id 3
      | some kind =>
        let key := d.markKey a.context cmdref
        let (slba, nblk) := d.lockRange nsh kind (a.arg 1) (a.arg 2)
        if (Tab.look d.rope.marks key).isSome then
          ({ d with rope := { d.rope with marks := Tab.del d.rope.marks key } }).reply id 0x10
        else if cmdref ≠ a.cmdref ∨ nsh ≠ a.nsh then d.reply id 1
        else if admin ∧ kind ≠ .nswide then
          let (r, d) := d.ropeOf tag
          d.reply id 0 0 [BitVec.ofNat 64 r]
        else
        match d.rope.locks.find? (fun p => decide (tagKey p.2.ctx p.2.cmdref = tag ∧ p.2.nsh = nsh ∧ p.2.kind = kind ∧
          (kind = .flush ∨ kind = .nswide))) with
        | some p => d.reply id (if p.2.granted then 0 else 2) 0 [BitVec.ofNat 64 p.2.rope]
        | none =>
        if !d.covers tag nsh kind slba nblk ∨ 65536 ≤ d.rope.locks.length then d.reply id 1
        else
          let (r, d) := (d.useEntry tag kind).ropeOf tag
          let l : Lock :=
            { rope := r, slba := slba, nblk := nblk, nsh := nsh, kind := kind, granted := false, tenant := a.tenant
              depth := d.entryDepth nsh kind slba nblk, ctx := a.context, cmdref := cmdref, gen := a.gen }
          let (ok, d) := d.lockIn l applied
          d.reply id (if ok then 0 else 2) 0 [BitVec.ofNat 64 r]

/-- The mark call (R152, R186): it marks the tag, or comes too late. -/
def Dev.ropeMark (d : Dev) (id : Nat) : Dev :=
  d.serve id 5 2 fun a d =>
    if (d.inst 0x12 0).safe then d.reply id 6
    else if !d.serves 0x12 then d.reply id 5
    else
      let cmdref := a.arg 0 % 2 ^ 32
      let c := d.ctrlOf a.context
      let mine := d.hostq.tags.filter fun p => decide (p.2.ctrl = c ∧ p.2.qid * 65536 + p.2.cid = cmdref)
      if mine.any fun p => decide (p.2.state = .committed ∨ p.2.state = .completed) then d.reply id 0x11
      else
        let found := mine.any fun p => decide (p.2.state = .running)
        let m := Tab.put d.rope.marks (d.markKey a.context cmdref) { made := d.now, found := found }
        ({ d with rope := { d.rope with marks := m } }).reply id 0

/-- A mark that found no Running command is discarded 10 ms after it was made (R186). -/
def Dev.markExpire (d : Dev) (ctrl cmdref : Nat) : Dev :=
  let key := ctrl * 2 ^ 32 + cmdref % 2 ^ 32
  if (Tab.look d.rope.marks key).any fun m => !m.found && decide (m.made + 10000000 ≤ d.now) then
    { d with rope := { d.rope with marks := Tab.del d.rope.marks key } }
  else d

/-- ROPE continues, at its first enable after a reset and at a rejoin, from one above the largest of the superblock's ceiling, a
reloaded dump's WGEN_HIGH and the partner's highest number (R180). -/
def Dev.ropeContinue (d : Dev) (partnerHigh : Nat) : Dev :=
  let dump := if d.jnl.mram.read 0x2000 4 = 0x504D5544 ∧ d.jnl.mram.read 0x2004 1 = 3 then d.jnl.mram.read 0x2020 8 else 0
  let high := max (d.jnl.sbField 40 8) (max dump partnerHigh)
  d.fset Reg.ROPE_NEXT.ROPE (max (d.fget Reg.ROPE_NEXT.ROPE) (if high = 0 then 1 else high + 1))

/-- LEDGER closes the cycle to writes SEAL_LEAD before its end (R188). -/
def Dev.sealClose (d : Dev) : Dev := { d with ledger := { d.ledger with closed := true } }

end Sys2Proof.Machine
end

