-- ==== Sys2Proof/Machine/StripeOps.lean ====
section
/-! DEFINITION. Placement, the order of persistence, garbage collection, sleds, checkpoints and recovery (R210 to R227,
R263 to R295). -/

namespace Sys2Proof.Machine

/-! ### Valid units -/

/-- Key of the media unit at an entry, `slot` slots on. -/
def validKey (e slot : Nat) : Nat := e / 4 + slot

/-- A unit on the media becomes valid. -/
def Dev.raiseValid (d : Dev) (e : Nat) (r : URec) : Dev :=
  let d := { d with map := { d.map with valid := Tab.put d.map.valid (e / 4) r } }
  match d.bandOf e with
  | some (n, b) => d.putBand n { b with valid := b.valid + 1 }
  | none => d

/-- Does a stripe that is open or being programmed lie in the band? -/
def Dev.bandBusy (d : Dev) (n : Nat) : Bool := d.stripe.stripes.any fun s => s.2.band = n

/-- A band of the map-page stream, of either unit (R213, R281)? -/
def Band.ofMap (b : Band) : Bool := b.stream % 64 = 15

/-- A copy in a band stops being current while secure deletion is on, since an instant (R217). -/
def Dev.staleCopy (d : Dev) (n since : Nat) : Dev :=
  if d.fget Reg.MAP_CFG.SECURE = 1 then
    { d with map := { d.map with stale := d.map.stale ++ [({ band := n, since := since } : StaleCopy)] } }
  else d

/-- The copies in `n` slots from a media entry on stop being current: the band's valid count falls, and with secure deletion
on their deadline runs from the instant at which they did (R216, R217, R227). A closed map-stream band whose last page is
superseded becomes a victim (R281). -/
def Dev.lowerAt (d : Dev) (e n : Nat) : Dev :=
  if !entIsMedia e then d
  else
    let keys := (List.range n).map (validKey e)
    let had := (keys.filter fun k => (Tab.look d.map.valid k).isSome).length
    let since := (Tab.look d.map.ended (e / 4)).getD d.now
    let d := { d with map := { d.map with valid := keys.foldl Tab.del d.map.valid, ended := Tab.del d.map.ended (e / 4) } }
    match d.bandOf e with
    | some (k, b) =>
      let b := { b with valid := b.valid - had }
      if b.ofMap then
        d.putBand k (if b.state = .closed ∧ b.valid = 0 ∧ d.bandBusy k = false then
          { b with state := .victim, ckptAt := d.jnl.ckptDone } else b)
      else (d.putBand k b).staleCopy k since
    | none => d

/-- The copy of a map unit that an entry names stops being current. -/
def Dev.lower (d : Dev) (e : Nat) : Dev := d.lowerAt e d.mapSpan

/-- Does a map unit that a zero-range unit covers still hold the entry it set (R193, R194)? -/
def Dev.zrangeLives (d : Dev) (r : URec) : Bool :=
  (d.wholeUnits r.lba r.span).1.any fun u => decide (d.entry r.nsh u = if r.deac then entDealloc else entZeros r.wgen)

/-- Zero-range units on the media whose last block has been replaced become stale (R194). -/
def Dev.sweepZranges (d : Dev) : Dev :=
  (d.map.valid.filter fun p => p.2.zrange && !d.zrangeLives p.2).foldl (fun d p => d.lowerAt (p.1 * 4) 1) d

/-- Units, staged and on the media, under a key slot and generation (R219); map pages have no write generation and no key. -/
def Dev.keyUnits (d : Dev) (slot gen : Nat) : Nat :=
  (d.map.valid.filter fun p => p.2.keySlot = slot && p.2.keyGen = gen && decide (p.2.wgen ≠ 0)).length +
    (d.map.staging.filter fun p => p.2.sealed && p.2.rec_.keySlot = slot && p.2.rec_.keyGen = gen &&
      decide (p.2.state ≠ .mirror)).length

/-! ### Free bands -/

/-- Free and QUEUED bands. -/
def Dev.freeBands (d : Dev) : Nat := d.fget Reg.STRIPE_BANDS.FREE

/-- STRIPE's watch over the free bands (R269, R277, R280): below FREE_LOW it posts a KIND 0x0001 item, below FREE_CRIT
event 0x0084, with which CAMP wakes (R453), and below LOW queued bands it asks for a checkpoint. -/
def Dev.watchFree (d : Dev) : Dev :=
  if !d.on 0x15 then d
  else
    let n := d.freeBands
    let d := if n < d.fget Reg.STRIPE_GC.FREE_LOW then
        if d.stripe.gcAsked then d
        else
          let tok := d.stripe.nextItem
          let d := { d with stripe := { d.stripe with gcAsked := true, nextItem := tok + 1 } }
          d.maint 0 tok [1]
      else { d with stripe := { d.stripe with gcAsked := false } }
    let d := if n < d.fget Reg.STRIPE_GC.FREE_CRIT then
        if d.stripe.critSince.isSome then d
        else
          let d := { d with stripe := { d.stripe with critSince := some d.now, gcGiven := false } }
          (d.post 0x15 0 0x84 0).wake
      else { d with stripe := { d.stripe with critSince := none } }
    if d.stripe.queue.length < d.fget Reg.STRIPE_QUEUE.LOW ∧ d.jnl.ckpt = none then d.fset Reg.JNL_CKPT.REQ 1 else d

/-! ### Placement (R212, R213, R263 to R272) -/

/-- Pages a band's stripes can take: the fewest of its sleds' records, in its cell mode. -/
def Dev.bandPages (d : Dev) (b : Band) : Nat :=
  (b.chunks.map fun c => match d.sled (c.group / 8) with
    | some r => if b.slc then r.pages / max 1 r.cell else r.pages
    | none => 0).foldl min 1024

/-- Sleds PRESENT with a record. -/
def Dev.presentSleds (d : Dev) : Nat := (d.sledList.filter fun n => d.sledState n = 0).length

/-- Close a band. -/
def Dev.closeBand (d : Dev) (n : Nat) (early : Bool) : Dev :=
  d.modBand n fun b => { b with state := .closed, early := b.early || early }

/-- The erase of a chunk of a band, waiting for its window. -/
def eraseReq (n i : Nat) (c : Chunk) : NandReq :=
  { use := .erase n i, opcode := 4, sled := c.group / 8, channel := c.group % 8, die := c.die, plane := c.plane
    block := c.block, page := 0 }

/-- The blocks of a band that are not erased are erased before its first program (R294). -/
def Dev.eraseFirst (d : Dev) (n : Nat) : Dev :=
  match Tab.look d.stripe.bands n with
  | none => d
  | some b =>
    let reqs := (b.chunks.zipIdx.filter fun c => !c.1.lost && !bitOf (d.blkFlags c.1) 3).map fun c => eraseReq n c.2 c.1
    { d with media := { d.media with reqs := d.media.reqs ++ reqs } }

/-- Can the band take programs: every block of it is there, on a PRESENT sled (R271)? -/
def Dev.bandWhole (d : Dev) (b : Band) : Bool := b.chunks.all fun c => !c.lost && decide (d.sledState (c.group / 8) = 0)

/-- Does a stream take the most worn blocks: garbage collection, and Endurance-mode rewrites older than a day (R276)? -/
def Dev.takesWorn (d : Dev) (stream : Nat) : Bool :=
  decide (stream % 64 = 14) || (decide (stream % 64 = 4) && decide (d.fget Reg.MAP_CFG.MODE = 1))

/-- Time until the program window of a die group opens, from `t` on. -/
def Dev.progWait (d : Dev) (g : Nat) : Nat → Nat → Nat
  | 0, t => t
  | f + 1, t =>
    match d.window g (d.now + t) with
    | some (k, rest) => if k = 1 then t else d.progWait g f (t + rest)
    | none => t

/-- Of the bands of a list the one whose program windows open first, by the last of its chunks (R212). -/
def Dev.openFirst (d : Dev) (ns : List Nat) : Option Nat :=
  let wait (n : Nat) : Nat := (((Tab.look d.stripe.bands n).map (·.chunks)).getD []).foldl
    (fun w c => max w (d.progWait c.group 64 0)) 0
  ns.foldl (fun o n => match o with
    | some m => if wait n < wait m then some n else some m
    | none => some n) none

/-- Open a band of the allocation queue for a stream (R269), unless R272 stops placement or R280 keeps it for garbage
collection: of those that are whole and whose wear suits the stream, or else of the whole ones, the one whose program windows
open first (R212, R271, R276, log 115).
Streams from 64 on are those of the partner's home groups, on bands with FLAGS.PARTNER (file 14, "Takeover"). -/
def Dev.openBand (d : Dev) (stream : Nat) : Dev × Option Nat :=
  if d.presentSleds < d.fget Reg.STRIPE_GEOM.M + 2 then
    (if (d.inst 0x15 0).err.getLsbD 8 then d else (d.setErr 0x15 0 8).post 0x15 0 0x84 1, none)
  else if stream % 64 ≤ 4 ∧ d.stripe.critSince.isSome ∧ !d.stripe.gcGiven then (d, none)
  else
    let fits (n : Nat) : Bool := (Tab.look d.stripe.bands n).any fun b => b.partner = decide (64 ≤ stream) && d.bandWhole b
    let suits (n : Nat) : Bool := (Tab.look d.stripe.bands n).any fun b => if d.takesWorn stream then b.high else b.low
    let qs := d.stripe.queue.filter fits
    match (d.openFirst (qs.filter suits)).or (d.openFirst qs) with
    | none => (d, none)
    | some n =>
      let d := { d with stripe := { d.stripe with queue := d.stripe.queue.erase n
                                                  gcGiven := d.stripe.gcGiven || stream = 14 } }
      let d := d.modBand n fun b => { b with state := .opened, stream := stream, since := d.now, nextPage := 0 }
      (d.eraseFirst n |>.watchFree, some n)

/-- Close a stripe: its empty slots stay empty (R267), and its chunks wait for program windows. -/
def Dev.closeStripe (d : Dev) (id : Nat) : Dev :=
  match Tab.look d.stripe.stripes id with
  | none => d
  | some s =>
    match Tab.look d.stripe.bands s.band with
    | none => d
    | some b =>
      let pad := List.replicate (4 * b.k - s.slots.length) SlotUse.empty
      let s := { s with full := true, slots := s.slots ++ pad }
      let reqs := b.chunks.zipIdx.map fun c =>
        ({ use := if s.dump then .dump id c.2 else .program id c.2, opcode := 3, sled := c.1.group / 8
           channel := c.1.group % 8, die := c.1.die, plane := c.1.plane, block := c.1.block, page := s.page } : NandReq)
      let streams := d.stripe.streams.filter fun p => p.2 ≠ id
      let d := { d with stripe := { d.stripe with stripes := Tab.put d.stripe.stripes id s, streams := streams }
                        media := { d.media with reqs := d.media.reqs ++ reqs } }
      if d.bandPages b ≤ b.nextPage then d.closeBand s.band false else d

/-- Open the next stripe of a stream's band, or of a new band (R263). -/
def Dev.openStripe (d : Dev) (stream : Nat) : Dev × Option Nat :=
  let cur := d.stripe.bands.find? fun p =>
    decide (p.2.state = .opened) && p.2.stream = stream && decide (p.2.nextPage < d.bandPages p.2) && d.bandWhole p.2
  let (d, band) := match cur with
    | some p => (d, some p.1)
    | none => d.openBand stream
  match band with
  | none => (d, none)
  | some n =>
    match Tab.look d.stripe.bands n with
    | none => (d, none)
    | some b =>
      let id := d.stripe.nextStripe
      let s : Stripe := { band := n, page := b.nextPage, last := d.now, seq := d.map.seq }
      let d := { d with
        stripe := { d.stripe with stripes := Tab.put d.stripe.stripes id s, nextStripe := id + 1
                                  streams := Tab.put d.stripe.streams stream id }
        map := { d.map with seq := d.map.seq + b.k + b.m } }
      (d.raiseCeilings.modBand n fun b => { b with nextPage := b.nextPage + 1 }, some id)

/-- The tenant of the units in a stripe. -/
def Dev.stripeTenant (d : Dev) (s : Stripe) : Option Nat :=
  s.slots.findSome? fun u => match u with
    | .unit i => (Tab.look d.map.staging i).map (·.rec_.tenant)
    | .move m | .fill m => some m.rec_.tenant
    | .mapPage _ _ _ => some 0
    | .empty => none

/-- The media entry of slot `n` of a stripe. -/
def slotEntry (b : Band) (s : Stripe) (n wgen : Nat) : Nat :=
  match b.chunks[n / 4]? with
  | some c => entMedia (c.group / 8) (c.group % 8) c.die c.plane c.block s.page (n % 4) wgen
  | none => entDealloc

/-- Put a run of slots, one map unit or page, into a stream's open stripe, closing first a stripe of another tenant (R212), or
one of a band that has lost a sled (R271). Answers the stripe and the entry of the first slot. -/
def Dev.placeRun (d : Dev) (stream tenant wgen : Nat) (us : List SlotUse) : Dev × Option (Nat × Nat) :=
  let d := match Tab.look d.stripe.streams stream with
    | some id => match Tab.look d.stripe.stripes id with
      | some s =>
        let gone := (Tab.look d.stripe.bands s.band).any fun b => !d.bandWhole b
        if (d.stripeTenant s).any (· ≠ tenant) || gone then d.closeStripe id else d
      | none => d
    | none => d
  let (d, sid) := match Tab.look d.stripe.streams stream with
    | some id => (d, some id)
    | none => d.openStripe stream
  match sid with
  | none => (d, none)
  | some id =>
    match Tab.look d.stripe.stripes id with
    | none => (d, none)
    | some s =>
      match Tab.look d.stripe.bands s.band with
      | none => (d, none)
      | some b =>
        let e := slotEntry b s s.slots.length wgen
        let s := { s with slots := s.slots ++ us, last := d.now }
        let d := { d with stripe := { d.stripe with stripes := Tab.put d.stripe.stripes id s } }
        (if 4 * b.k ≤ s.slots.length then d.closeStripe id else d, some (id, e))

/-- Host streams of the placement mode (R213). -/
def Dev.hostStreams (d : Dev) : Nat :=
  let mode := d.fget Reg.MAP_CFG.MODE
  if mode = 0 then 2 else if mode = 1 then 4 else 1

/-- The block of a media entry. -/
def entChunk (e : Nat) : Chunk := { group := entGroup e, die := entDie e, plane := entPlane e, block := entBlock e }

/-- The host stream of a unit (R213): the one its stage call named, or the one of the placement mode: in Latency mode first
writes apart from rewrites, in Endurance mode by the age of the data replaced. A named stream above the mode's, a first
write in Endurance mode (with the oldest) and the age as the block's PTIME gives it are DESIGN CHOICES (log 110). -/
def Dev.streamOf (d : Dev) (u : SUnit) : Nat :=
  let mode := d.fget Reg.MAP_CFG.MODE
  if u.stream ≠ 0 then min u.stream d.hostStreams
  else if mode = 0 then (if entIsMedia u.former || entIsStaged u.replaced then 2 else 1)
  else if mode = 1 then
    let s := 1000000000
    let age := d.now - d.mem.dram.read (d.blkAddr (entChunk u.former)) 8
    if entIsStaged u.replaced then 1
    else if !entIsMedia u.former then 4
    else if age < 60 * s then 1 else if age < 3600 * s then 2 else if age < 86400 * s then 3 else 4
  else 1

/-- Streams from 64 on are the same ones on the die groups of the partner's home groups (R212). -/
def Dev.streamFor (d : Dev) (nsh stream : Nat) : Nat := stream + (if d.partnerNs nsh then 64 else 0)

/-- The newest write generation in a run of slots, whose low bits its entry has (R192). -/
def Dev.runGen (d : Dev) (us : List SlotUse) : Nat :=
  (us.map fun u => match u with
    | .unit i => ((Tab.look d.map.staging i).map (·.rec_.wgen)).getD 0
    | .move m | .fill m => m.rec_.wgen
    | _ => 0).foldl max 0

/-- The blocks of a map unit that a 16 KiB group takes over from its former entry, by the media entry of each: those of its
valid slots that the group does not hold (R211). -/
def Dev.missingBlocks (d : Dev) (former : Nat) (have_ : List Nat) : List Nat :=
  if !entIsMedia former then []
  else (List.range 4).filterMap fun b =>
    if have_.contains b || (Tab.look d.map.valid (validKey former b)).isNone then none else some (former + 4 * b)

/-- Queue the reading of a media unit for a job. -/
def readReq (job i level : Nat) (g1 : Bool) (e : Nat) : NandReq :=
  { use := .read job i level g1, opcode := 1, sled := entSled e, channel := entChannel e, die := entDie e
    plane := entPlane e, block := entBlock e, page := entPage e, cw := 2 ^ entSlot e }

/-- Read media units as tenant-0 work, for a move or for the placement of a 16 KiB map unit (R211, R278). -/
def Dev.workRead (d : Dev) (es : List Nat) (dest : Nat) (fill : Bool) : Dev :=
  if es.isEmpty then d
  else
    let j := d.media.nextJob
    let job : ReadJob := { ctx := 0, cmdref := 0, tenant := 0, nsh := 0, rope := 0, admNo := 0, lookup := 0, dest := dest
                           grade := 4, units := es.map fun e => { entry := e }, move := !fill, fill := fill }
    let reqs := es.zipIdx.map fun p => readReq j p.2 0 false p.1
    { d with media := { d.media with jobs := Tab.put d.media.jobs j job, nextJob := j + 1
                                     reqs := d.media.reqs ++ reqs } }

/-- Place one DIRTY staging unit of its own, in a stream. -/
def Dev.placeOne (d : Dev) (i : Nat) (u : SUnit) (stream : Nat) : Dev :=
  match d.placeRun (d.streamFor u.rec_.nsh stream) u.rec_.tenant u.rec_.wgen [.unit i] with
  | (d, none) => d
  | (d, some (id, e)) =>
    (d.modUnit i fun x => { x with state := .placing, stripe := some id, target := e }).showStaging

/-- Place the group of a DIRTY staging unit in 16 KiB mode, as the four slots of one page: blocks not staged are taken over
from the former entry, read first as tenant-0 work, or left empty where that has no data, which reads as zeros (R211,
DESIGN CHOICE, log 107). -/
def Dev.placeGroup (d : Dev) (u : SUnit) : Dev :=
  let members := d.map.staging.filter fun p => p.2.group = u.group && p.2.superseded.isNone && !p.2.rec_.zrange &&
    decide (p.2.state ∈ [SState.held, .dirty, .placing])
  let need := d.missingBlocks u.former (members.map fun p => p.2.rec_.lba % 4)
  let got (e : Nat) : Option MoveUnit := d.map.fills.find? fun m => m.src / 4 = e / 4
  let ask := need.filter fun e => (got e).isNone
  if members.any fun p => decide (p.2.state ≠ .dirty) then d
  else if !ask.isEmpty then
    if d.media.jobs.any fun j => j.2.fill && j.2.units.any fun x => ask.contains x.entry then d
    else d.workRead ask u.group true
  else
    let us := (List.range 4).map fun b =>
      match members.find? (fun p => p.2.rec_.lba % 4 = b), (need.find? fun e => entSlot e = b).bind got with
      | some p, _ => SlotUse.unit p.1
      | none, some m => .fill m
      | none, none => .empty
    match d.placeRun (d.streamFor u.rec_.nsh (d.streamOf u)) u.rec_.tenant (d.runGen us) us with
    | (d, none) => d
    | (d, some (id, e)) =>
      let d := { d with map := { d.map with fills := d.map.fills.filter fun m => !need.any fun x => x / 4 = m.src / 4 } }
      Dev.showStaging (members.foldl (fun d p => d.modUnit p.1 fun x =>
        { x with state := .placing, stripe := some id, target := e }) d)

/-- Place a DIRTY staging unit, or in 16 KiB mode its whole group (R194, R207, R211, R212). Superseded units are never
placed. -/
def Dev.placeUnit (d : Dev) (i : Nat) : Dev :=
  match Tab.look d.map.staging i with
  | none => d
  | some u =>
    if u.state ≠ .dirty ∨ u.superseded.isSome ∨ d.map.stalled then d
    else if u.rec_.zrange then d.placeOne i u 15
    else if d.mapSpan = 1 then d.placeOne i u (d.streamOf u)
    else d.placeGroup u

/-- Place a map page, as its entries stand, in the map-page stream (R201, R212, R213). -/
def Dev.placePage (d : Dev) (page : Nat) : Dev :=
  let data := Memory.setBytes [] 0 (d.mapPageBytes page)
  (d.placeRun (d.streamFor (page / 2 ^ 32) 15) 0 0 [.mapPage page (d.fget Reg.JNL_HEAD.JSEQ) data]).1

/-- Place the oldest copy of the move buffer in the garbage-collection stream, a zero-range unit in the map-page stream, and
in 16 KiB mode all of a source page's units as one page, once they are all in the buffer (R194, R211, R278). -/
def Dev.placeMove (d : Dev) : Dev :=
  match d.stripe.moveBuf with
  | [] => d
  | m :: rest =>
    let alone := m.rec_.zrange || d.mapSpan = 1
    let page := d.stripe.moveBuf.filter fun x => x.src / 16 = m.src / 16
    let ready := (List.range 4).all fun b =>
      (Tab.look d.map.valid (m.src / 16 * 4 + b)).isNone || page.any fun x => entSlot x.src = b
    if !alone && !ready then d
    else
      let us := if alone then [SlotUse.move m] else
        (List.range 4).map fun b => ((page.find? fun x => entSlot x.src = b).map SlotUse.move).getD .empty
      let left := if alone then rest else d.stripe.moveBuf.filter fun x => x.src / 16 ≠ m.src / 16
      let (d', r) := d.placeRun (d.streamFor m.rec_.nsh (if m.rec_.zrange then 15 else 14)) m.rec_.tenant (d.runGen us) us
      if r.isNone then d' else { d' with stripe := { d'.stripe with moveBuf := left } }

/-- Place the oldest copies of the move buffer (R278). -/
def Dev.placeMoves (d : Dev) (n : Nat) : Dev := (List.range n).foldl (fun d _ => d.placeMove) d

/-- A stripe whose program failed returns its units to DIRTY and its copies to the move buffer, and what of it has not been
issued is not (R284, R286); the band closes early, and the failed block is remembered for retirement. -/
def Dev.failStripe (d : Dev) (id chunk : Nat) : Dev :=
  match Tab.look d.stripe.stripes id with
  | none => d
  | some s =>
    let d := s.slots.foldl (fun d u => match u with
      | .unit i => d.modUnit i fun x => if x.state = .placing then { x with state := .dirty, stripe := none } else x
      | .move m => { d with stripe := { d.stripe with moveBuf := d.stripe.moveBuf ++ [m] } }
      | .fill m => { d with map := { d.map with fills := d.map.fills ++ [m] } }
      | .mapPage _ _ _ | .empty => d) d
    let mine (u : OpUse) : Bool := match u with
      | .program n _ => n = id
      | _ => false
    let d := { d with stripe := { d.stripe with stripes := Tab.del d.stripe.stripes id
                                                streams := d.stripe.streams.filter fun p => p.2 ≠ id }
                      media := { d.media with reqs := d.media.reqs.filter fun q => !mine q.use } }
    let d := d.modBand s.band fun b => { b with state := .closed, early := true, failed := b.failed ++ [chunk] }
    Dev.showStaging (d.bandItem s.band 8)

/-- A chunk of a stripe has programmed with passing status. -/
def Dev.chunkPassed (d : Dev) (id chunk : Nat) : Dev :=
  match Tab.look d.stripe.stripes id with
  | some s =>
    let s := { s with passed := chunk :: s.passed.filter (· ≠ chunk) }
    { d with stripe := { d.stripe with stripes := Tab.put d.stripe.stripes id s } }
  | none => d

/-- The pages that a checkpoint still has to write: those that hold a change with a JSEQ below its own (R225 step 2). -/
def Dev.ckptPages (d : Dev) (c : Ckpt) : List Nat :=
  (d.map.frames.filter fun f => f.2.dirty && decide (f.2.first < c.b)).map (·.1)

/-- A map page has been programmed: the directory names it, what it replaces is stale, and its frame is clean unless its
entries have changed since (R201, R203). A page whose namespace has been cleared meanwhile is stale from birth. A checkpoint
that waits for no other page goes on to its root (R225). -/
def Dev.pageWritten (d : Dev) (e page head : Nat) : Dev :=
  match Tab.look d.map.frames page with
  | none => d
  | some f =>
    let old := (Tab.look d.map.dir page).getD entDealloc
    let d := d.raiseValid e { wgen := 0, nsh := page / 2 ^ 32, lba := page % 2 ^ 32, copy := true }
    let f := if head ≤ f.jseq then { f with first := head } else { f with dirty := false }
    let frames := Tab.put d.map.frames page f
    let d := Dev.lowerAt { d with map := { d.map with dir := Tab.put d.map.dir page e, frames := frames } } old 1
    match d.jnl.ckpt with
    | some c => if d.ckptPages c = [] then d.fset Reg.JNL_CKPT.STATE 3 else d
    | none => d

/-- The unit records of a run of slots, by valid key. -/
def Dev.runRecs (d : Dev) (e : Nat) (us : List SlotUse) : List (Nat × URec) :=
  us.zipIdx.filterMap fun p => match p.1 with
    | .unit i => (Tab.look d.map.staging i).map fun x => (validKey e p.2, x.rec_)
    | .move m | .fill m => some (validKey e p.2, { m.rec_ with copy := true })
    | _ => none

/-- The MAP record of the run of slots at a media entry, one map unit, of a passed stripe; true when it needs nothing more
(R204, R227, R278). A zero-range unit switches no entry (R194). -/
def Dev.recordRun (d : Dev) (e : Nat) (us : List SlotUse) : Dev × Bool :=
  let recs := d.runRecs e us
  let ids := us.filterMap fun u => match u with
    | .unit i => if (Tab.look d.map.staging i).isSome then some i else none
    | _ => none
  let moved := us.findSome? fun u => match u with
    | .move m => some m
    | _ => none
  match us, ids.head?.bind (Tab.look d.map.staging), moved with
  | .mapPage p h _ :: _, _, _ => (d.pageWritten e p h, true)
  | _, some x, _ =>
    if x.rec_.zrange then
      ((d.raiseValid e x.rec_).modUnit (ids.headD 0) fun y => { y with switched := true }, true)
    else
      let key := unitKey x.rec_.nsh (d.unitOf x.rec_.lba)
      d.append 1 0 x.rec_.nsh (bodyMap key x.target x.former)
        (.switch key (entStaged x.group (d.runGen (us.filter fun u => match u with
          | .unit _ => true
          | _ => false))) x.target x.former recs ids)
  | _, none, some m =>
    if m.rec_.zrange then ((d.raiseValid e { m.rec_ with copy := true }).lowerAt m.src 1, true)
    else
      let key := unitKey m.rec_.nsh (d.unitOf m.rec_.lba)
      let cur := d.entryAt key
      let src := if d.mapSpan = 4 then m.src / 16 * 16 else m.src
      let cond := if cur / (4 * d.mapSpan) = src / (4 * d.mapSpan) then cur else src
      d.append 1 0 m.rec_.nsh (bodyMap key e cond) (.switch key cond e cond recs [])
  | _, none, none => (d, true)

/-- The slots of a stripe in runs, of one map unit each: a page in 16 KiB mode, but for the map-page stream. -/
def runsOf (n : Nat) : Nat → Nat → List SlotUse → List (Nat × List SlotUse)
  | 0, _, _ => []
  | _, _, [] => []
  | f + 1, i, us => (i, us.take n) :: runsOf n f (i + n) (us.drop n)

/-- Every chunk of a stripe has passed: MAP appends the records of its slots, in slot order, and stops at a full ring
(R226, R227). A stripe of the dump needs none. -/
def Dev.stripePass (d : Dev) (id : Nat) : Dev :=
  match Tab.look d.stripe.stripes id with
  | none => d
  | some s =>
    match Tab.look d.stripe.bands s.band with
    | none => d
    | some b =>
      if !s.full || s.dump || s.passed.length < b.k + b.m then d
      else
        let n := if b.ofMap then 1 else d.mapSpan
        let (d, rest, _) := (runsOf n s.slots.length 0 s.slots).foldl (fun (acc : Dev × List SlotUse × Bool) p =>
          let (d, rest, go) := acc
          if !go then (d, rest ++ p.2, false)
          else
            let (d, ok) := d.recordRun (slotEntry b s p.1 (d.runGen p.2)) p.2
            if ok then (d, rest ++ p.2.map fun _ => SlotUse.empty, true) else (d, rest ++ p.2, false)) (d, [], true)
        if rest.all (· = .empty) then
          { d with stripe := { d.stripe with stripes := Tab.del d.stripe.stripes id } }
        else { d with stripe := { d.stripe with stripes := Tab.put d.stripe.stripes id { s with slots := rest } } }

/-- The conditional switch of an entry to a new copy (R204): it counts as valid, and the former one no longer does (R227); or
the copy is stale from birth, and the discard is counted. Blocks that a later write has taken over into its own 16 KiB group
are then to be placed again with it (R211). -/
def Dev.switch (d : Dev) (key cond new former : Nat) (recs : List (Nat × URec)) (units : List Nat) : Dev :=
  if d.entryAt key = cond then
    let d := units.foldl (fun d i => d.modUnit i fun x => { x with switched := true }) d
    let d := ((d.endCopy former).setEntry key new).lower former
    let d := recs.foldl (fun d p => d.raiseValid (p.1 * 4) p.2) d
    (if units = [] then d.bump Reg.STRIPE_GCSTAT.MOVED recs.length else d).sweepZranges
  else
    let d := units.foldl (fun d i => d.modUnit i fun x =>
      if x.superseded.isSome then { x with switched := true } else { x with state := .dirty, stripe := none }) d
    let d := if units = [] then d.bump Reg.MAP_SUPERSEDED.MOVE else d.bump Reg.MAP_SUPERSEDED.PLACE
    match d.bandOf new with
    | some (n, _) => d.staleCopy n d.now
    | none => d

/-- What follows when a record becomes durable: the conditional switch (R204), and the valid counts (R227). -/
def Dev.jact (d : Dev) (a : JAct) : Dev :=
  match a with
  | .none => d
  | .stale es ps => (ps.foldl (fun d e => d.lowerAt e 1) (es.foldl Dev.lower d)).sweepZranges
  | .switch key cond new former recs units => d.switch key cond new former recs units

/-- The oldest record in flight becomes durable: its CRC is written (R222). -/
def Dev.journalDurable (d : Dev) : Dev :=
  match d.jnl.pend with
  | [] => d
  | p :: rest =>
    let a := ringSlot p.jseq
    let m := d.jnl.mram
    let m := m.write (a + 4) 4 (crc32c (m.bytes a 4 ++ m.bytes (a + 8) 24))
    ({ d with jnl := { d.jnl with pend := rest, mram := m } }).jact p.act

/-- The tail has moved: records that waited for space are appended, in order, as far as there is any (R226). -/
def Dev.appendWaits (d : Dev) : Dev :=
  let ws := d.jnl.waits
  ws.foldl (fun d w => (d.append w.typ w.flags w.nsh w.body w.act).1) { d with jnl := { d.jnl with waits := [] } }

/-- Has the commit cycle's work been confirmed by the partner, or released when unpaired (R27)? -/
def Dev.cycleConfirmed (d : Dev) (c : Nat) : Bool := cycLt c d.ledger.confirmed

/-- May a staging unit be freed (R210, R211)? -/
def Dev.mayFree (d : Dev) (u : SUnit) : Bool :=
  let held := d.unitHeld u
  if u.state = .placing then u.switched && !held && (u.superseded.map d.cycleConfirmed).getD true
  else
    match u.superseded with
    | some c => decide (u.state ∈ [SState.held, .dirty]) && d.cycleConfirmed c && !held
    | none => false

/-- Free a staging unit whose conditions hold; its index goes to the partner as released (R399). -/
def Dev.stagingFree (d : Dev) (i : Nat) : Dev :=
  match Tab.look d.map.staging i with
  | none => d
  | some u =>
    if !d.mayFree u then d
    else
      let d := if d.fget Reg.ROPE_PAIR.PAIRED = 1 then
          { d with map := { d.map with released := d.map.released ++ [i] } }
        else d
      d.freeUnit i

/-! ### Garbage collection (R277 to R282) -/

/-- The candidates call (R295): bands in the order asked for, at most eight. -/
def Dev.candidates (d : Dev) (id : Nat) : Dev :=
  d.serve id 8 1 fun a d =>
    if (d.inst 0x15 0).safe then d.reply id 6
    else if !d.serves 0x15 then d.reply id 5
    else if a.tenant ≠ 0 then d.reply id 1
    else
      let order := a.arg 0 % 4
      if order = 3 then d.reply id 3
      else
        let point (n : Nat) : Nat := ((d.map.stale.filter fun s => s.band = n).map (·.since)).foldl min (2 ^ 64)
        let bs := d.stripe.bands.filter fun p => decide (p.2.state = .closed)
        let le (x y : Nat × Band) : Bool :=
          if order = 0 then decide (x.2.valid ≤ y.2.valid)
          else if order = 1 then decide (x.2.since ≤ y.2.since) else decide (point x.1 ≤ point y.1)
        let top := (bs.insertionSort fun x y => le x y).take 8
        let one (p : Nat × Band) : List Nat :=
          [p.1 + p.2.valid * 2 ^ 32,
           (p.2.k * d.bandPages p.2 * 4) % 2 ^ 32 + (min ((d.now - p.2.since) / 3600000000000) 65535) * 2 ^ 32
             + (p.2.stream % 64) * 2 ^ 48]
        let ws := top.flatMap one ++ (if top.length < 8 then [0xFFFFFFFF] else [])
        d.reply id 0 0 (ws.map (BitVec.ofNat 64))

/-- The map pages of a map-stream band that are still current are to be written again by the next checkpoint (R281). -/
def Dev.rewritePages (d : Dev) (b : Band) : Dev :=
  let ps := (d.map.valid.filter fun p => !p.2.zrange && b.chunks.any fun c => c.has (p.1 * 4)).map fun p =>
    p.2.nsh * 2 ^ 32 + p.2.lba
  let frames := ps.foldl (fun t p => Tab.modify t {} p fun f => { f with dirty := true, first := 0 }) d.map.frames
  { d with map := { d.map with frames := frames } }

/-- A band is chosen for garbage collection: it becomes a victim (R277), and one that is QUEUED leaves the queue (R273). A map-stream band is never moved: it
becomes one once its last page is superseded, and its current pages are rewritten (R281). -/
def Dev.chooseBand (d : Dev) (n : Nat) : Dev :=
  match Tab.look d.stripe.bands n with
  | none => d
  | some b =>
    if b.ofMap ∧ b.valid ≠ 0 then d.rewritePages b
    else
      let d := { d with stripe := { d.stripe with queue := d.stripe.queue.filter (· ≠ n), lastVictim := d.now } }
      d.putBand n { b with state := .victim, early := b.early || b.state = .opened, ckptAt := d.jnl.ckptDone }

/-- The select call (R277, R281, R295). -/
def Dev.select (d : Dev) (id : Nat) : Dev :=
  d.serve id 8 2 fun a d =>
    if (d.inst 0x15 0).safe then d.reply id 6
    else if !d.serves 0x15 then d.reply id 5
    else if a.tenant ≠ 0 then d.reply id 1
    else
      let n := a.arg 0 % 2 ^ 32
      match Tab.look d.stripe.bands n with
      | none => d.reply id 0x10
      | some b =>
        if b.state ≠ .closed then d.reply id 0x10
        else if b.item.isSome then d.reply id 0x11
        else
          let tok := d.stripe.nextItem
          let d := { d with stripe := { d.stripe with items := Tab.put d.stripe.items tok n, nextItem := tok + 1
                                                      gcAsked := false } }
          let d := (d.putBand n { b with item := some (bitsOf (a.arg 0) 47 32) }).chooseBand n
          (d.watchFree).reply id 0 0 [BitVec.ofNat 64 tok]

/-- Is a move of the band under way: units of it being read, in the move buffer, or in a stripe? -/
def Dev.moving (d : Dev) (n : Nat) (b : Band) : Bool :=
  let from_ (m : MoveUnit) : Bool := b.chunks.any fun c => c.has m.src
  d.media.jobs.any (fun j => j.2.move && decide (j.2.dest = n)) || d.stripe.moveBuf.any from_ ||
    d.stripe.stripes.any fun s => s.2.slots.any fun u => match u with
      | .move m => from_ m
      | _ => false

/-- Start the move of a band, unless one is under way: every valid unit is read as tenant-0 work (R278); of a map-stream band
only the zero-range units (R194, R281). -/
def Dev.startMove (d : Dev) (n : Nat) : Dev :=
  match Tab.look d.stripe.bands n with
  | none => d
  | some b =>
    if d.moving n b then d
    else
    let us := d.map.valid.filter fun p => (!b.ofMap || p.2.zrange) && b.chunks.any fun c => c.has (p.1 * 4)
    (d.chooseBand n).workRead (us.map fun p => p.1 * 4 + p.2.wgen % 4) n false

/-- The move call (R228): tenant 0 with a work item's TOKEN. -/
def Dev.mapMove (d : Dev) (id : Nat) : Dev :=
  d.mapServe id 0x10 fun a d =>
    if a.tenant ≠ 0 then d.reply id 1
    else
      match Tab.look d.stripe.items (a.arg 0) with
      | none => d.reply id 1
      | some n => (d.startMove n).reply id 0

/-- Below FREE_CRIT for 1 ms with no victim, STRIPE selects the CLOSED band with the fewest valid units (R277). -/
def Dev.autoSelect (d : Dev) : Dev :=
  if d.stripe.critSince.all fun t => decide (d.now < max t d.stripe.lastVictim + 1000000) then d
  else
    let bs := (d.stripe.bands.filter fun p => decide (p.2.state = .closed)).insertionSort fun x y => decide (x.2.valid ≤ y.2.valid)
    match bs with
    | [] => d
    | p :: _ => (d.bandItem p.1 1).chooseBand p.1

/-- Does what follows a record still concern a band: a copy in it that is to become current, or one that has stopped being
so? -/
def JAct.touches (b : Band) : JAct → Bool
  | .switch _ _ new former _ _ => b.chunks.any fun c => c.has former || c.has new
  | .stale es ps => (es ++ ps).any fun e => b.chunks.any fun c => c.has e
  | .none => false

/-- A VICTIM band with no valid unit, no read holding it, no program under way and no record about it still to become durable
becomes ERASING; its erases wait for their windows (R29, R227, R278), but a block that failed to program is marked BAD and
retired instead (R284). A map-stream band waits for a superblock that names a
checkpoint without a page in it (R281). -/
def Dev.eraseIssue (d : Dev) (n : Nat) : Dev :=
  match Tab.look d.stripe.bands n with
  | none => d
  | some b =>
    let open_ := (d.jnl.pend.any fun p => p.act.touches b) || d.jnl.waits.any fun p => p.act.touches b
    let root := d.jnl.sbField 24 5
    let named := b.ofMap && (decide (d.jnl.ckptDone ≤ b.ckptAt) || b.chunks.any fun c => c.has root)
    if b.state ≠ .victim ∨ b.valid ≠ 0 ∨ d.bandHeld n = true ∨ open_ = true ∨ named = true ∨ d.bandBusy n = true then d
    else
      let skip (c : Chunk × Nat) : Bool := c.1.lost || b.failed.contains c.2
      let reqs := (b.chunks.zipIdx.filter fun c => !skip c).map fun c => eraseReq n c.2 c.1
      let d := (b.chunks.zipIdx.filter fun c => !c.1.lost && b.failed.contains c.2).foldl (fun d c => d.retire c.1) d
      let d := d.putBand n { b with state := .erasing, erased := (b.chunks.zipIdx.filter skip).length }
      { d with media := { d.media with reqs := d.media.reqs ++ reqs } }

/-- Static wear levelling (R276): the PE spread over the unit's free and banded blocks. -/
def Dev.wearCheck (d : Dev) : Dev :=
  let sp := d.fget Reg.STRIPE_WEAR.SPREAD
  let pes := (d.stripe.free ++ d.stripe.erasedBlocks ++ d.stripe.bands.flatMap (fun p => p.2.chunks)).map d.blkPE
  if sp = 0 ∨ pes = [] ∨ pes.foldl max 0 ≤ pes.foldl min (2 ^ 24) + sp then d
  else
    let bs := (d.stripe.bands.filter fun p => decide (p.2.state = .closed ∧ 1 ≤ p.2.stream % 64 ∧ p.2.stream % 64 ≤ 4)).insertionSort
      fun x y => decide (x.2.since ≤ y.2.since)
    match bs with
    | [] => d
    | p :: _ => d.bandItem p.1 7

/-- An erase of a band's block has ended: a failed one marks its block BAD (R285); a good one counts a cycle and retires a
block that had reached its rating before (R276), and the block of an ERASING band waits for the next queue (R269). The stripes of an open band that has
lost a block so are placed again (R284). -/
def Dev.chunkErased (d : Dev) (n chunk : Nat) (good : Bool) : Dev :=
  match Tab.look d.stripe.bands n with
  | none => d
  | some b =>
    match b.chunks[chunk]? with
    | none => d
    | some c =>
      let rated := ((d.sled (c.group / 8)).map (·.peRated)).getD 0
      let worn := !good || decide (rated ≤ d.blkPE c)
      let d := (d.blkWrite c 10 3 (d.blkPE c + 1)).wearCheck
      if b.state = .erasing then
        let d := if worn then d.retire c
          else
            let d := d.blkErased c true
            { d with stripe := { d.stripe with erasedBlocks := d.stripe.erasedBlocks ++ [c] } }
        d.modBand n fun b => { b with erased := b.erased + 1 }
      else if good then d.blkErased c true
      else ((d.stripe.stripes.filter fun s => s.2.band = n).map (·.1)).foldl (fun d id => d.failStripe id chunk) (d.retire c)

/-- A block-erase sanitize ends with the last written band (R163). -/
def Dev.sanitizeEnd (d : Dev) : Dev :=
  match d.hostq.sanitize with
  | some z =>
    if z.running && d.stripe.bands.all (fun b => decide (b.2.state ∉ [BState.victim, .erasing])) then
      { d with hostq := { d.hostq with sanitize := some { z with running := false } } }
    else d
  | none => d

/-- A band's erases have all ended: the band is gone, its item is done, and erases later than the secure-deletion bound
are counted (R217, R278). -/
def Dev.eraseDone (d : Dev) (n : Nat) : Dev :=
  match Tab.look d.stripe.bands n with
  | none => d
  | some b =>
    if b.state ≠ .erasing ∨ b.erased < b.chunks.length then d
    else
      let late := (d.map.stale.filter fun s =>
        s.band = n && decide (s.since + d.fget Reg.MAP_SECDEL.HOURS * 3600000000000 < d.now)).length
      let d := { d with map := { d.map with stale := d.map.stale.filter fun s => s.band ≠ n }
                        stripe := { d.stripe with items := d.stripe.items.filter fun p => p.2 ≠ n } }
      let d := (d.dropBand n).bump Reg.STRIPE_GCSTAT.ERASED
      let d := if d.fget Reg.STRIPE_REBUILD.BANDS_LEFT = 0 then d
        else d.fset Reg.STRIPE_REBUILD.BANDS_LEFT (d.stripe.bands.filter fun p => p.2.chunks.any (·.lost)).length
      let d := if 0 < late then d.post 0x14 0 0x42 late else d
      d.sanitizeEnd.watchFree

/-- The secure-deletion point passes for a band: HOURS − 1 hour after its oldest stale copy it becomes a victim; past
HOURS the late erase is counted (R217). -/
def Dev.secureDeadline (d : Dev) (n : Nat) : Dev :=
  let h := 3600000000000
  let gone := (d.map.ended.filter fun p => (d.bandOf (p.1 * 4)).map (·.1) = some n).map (·.2)
  let old := (((d.map.stale.filter fun s => s.band = n).map (·.since)) ++ gone).foldl min (2 ^ 64)
  if d.fget Reg.MAP_CFG.SECURE = 0 ∨ d.now < old + (d.fget Reg.MAP_SECDEL.HOURS - 1) * h then d
  else
    match Tab.look d.stripe.bands n with
    | none => d
    | some b =>
      if b.state = .closed ∨ b.state = .opened then (d.bandItem n 1).chooseBand n else d

/-- An open stripe has been idle for STRIPE_FILL.US (R267). -/
def Dev.idleClose (d : Dev) (stream : Nat) : Dev :=
  match Tab.look d.stripe.streams stream with
  | none => d
  | some id =>
    match Tab.look d.stripe.stripes id with
    | some s =>
      if s.slots = [] ∨ d.now < s.last + d.fget Reg.STRIPE_FILL.US * 1000 then d else d.closeStripe id
    | none => d

/-- A band's OPENED is older than RETAIN_DAYS (R282). -/
def Dev.retention (d : Dev) (n : Nat) : Dev :=
  match Tab.look d.stripe.bands n with
  | none => d
  | some b =>
    if b.state ≠ .closed ∨ d.now < b.since + d.fget Reg.STRIPE_RELOC.RETAIN_DAYS * 86400000000000 then d
    else d.bandItem n 4

/-- Count a data-unit read of a CLOSED band, with its read-disturb trigger (R268, R282). -/
def Dev.countRead (d : Dev) (e : Nat) : Dev :=
  match d.bandOf e with
  | none => d
  | some (n, b) =>
    if b.state ≠ .closed then d
    else
      let r := min (b.reads + 1) (2 ^ 32 - 1)
      let d := d.putBand n { b with reads := r }
      if d.fget Reg.STRIPE_RELOC.DISTURB < r then d.bandItem n 5 else d

/-! ### Sleds (R271 to R275) -/

/-- The sled's link has gone down: nothing is issued to it before its record is reloaded, and a PRESENT sled counts as lost
(R231, R271). -/
def Dev.sledAbsent (d : Dev) (n : Nat) : Dev :=
  if (d.sled n).isNone then d
  else
    let d := { d with media := { d.media with needReload := n :: d.media.needReload.filter (· ≠ n) } }
    if d.sledState n ≠ 0 then d
    else
      let d := d.setSledState n 1
      Dev.post { d with stripe := { d.stripe with absentSince := Tab.put d.stripe.absentSince n d.now } } 0x15 0 0x80 n

/-- The last affected band has been erased: the sled becomes RETIRED (R273). -/
def Dev.sledRetired (d : Dev) (n : Nat) : Dev :=
  if d.sledState n ≠ 2 ∨ d.stripe.bands.any (fun p => p.2.chunks.any fun c => c.group / 8 = n) then d
  else ((d.setSledState n 3).fset Reg.STRIPE_REBUILD.BANDS_LEFT 0).post 0x15 0 0x82 n

/-! ### Checkpoints (R225) -/

/-- A checkpoint begins, when the ring holds more than CKPT_PCT percent or REQ asks for one, and none runs (R225). -/
def Dev.ckptStart (d : Dev) : Dev :=
  let used := d.fget Reg.JNL_HEAD.JSEQ - d.fget Reg.JNL_TAIL.JSEQ
  let due := decide (d.fget Reg.JNL_CKPT_CFG.CKPT_PCT * ringLen < 100 * used) || decide (d.fget Reg.JNL_CKPT.REQ = 1)
  if !due || d.jnl.ckpt.isSome || !d.on 0x1B then d
  else
    let no := d.jnl.ckptNo + 1
    let b := d.fget Reg.JNL_HEAD.JSEQ
    let (d, ok) := d.append 4 0 0 no .none
    if !ok then d
    else
      let c : Ckpt := { number := no, b := b }
      let d := { d with jnl := { d.jnl with ckpt := some c, ckptNo := no } }
      let d := d.fset Reg.JNL_CKPT.REQ 0
      d.fset Reg.JNL_CKPT.STATE (if d.ckptPages c = [] then 3 else 2)

/-- The unit whose home a die group is (R16). -/
def Chunk.home (c : Chunk) : Nat := c.group % 8 / 4

/-- Is every block of a proposed band the least worn free one of its die group (`least`), or the most worn (R276)? -/
def Dev.drawn (d : Dev) (cs : List Chunk) (least : Bool) : Bool :=
  cs.all fun c =>
    let pes := (d.stripe.free.filter fun x => x.group = c.group).map d.blkPE
    d.blkPE c = if least then pes.foldl min (2 ^ 24) else pes.foldl max 0

/-- A proposed band for the allocation queue is right: K' + M free blocks on owned die groups, all of one unit's home, on
different sleds that are PRESENT, each the least worn free block of its die group, or each the most worn one (R263, R268,
R272, R276). -/
def Dev.bandOk (d : Dev) (cs : List Chunk) : Bool :=
  let m := d.fget Reg.STRIPE_GEOM.M
  let k := min (d.fget Reg.STRIPE_GEOM.K) (d.presentSleds - m)
  let sleds : List Nat := cs.map fun c => c.group / 8
  decide (cs.length = k + m) && decide (2 ≤ k) && decide (sleds.Nodup) && sleds.all (fun s => d.sledState s = 0) &&
    (cs.all fun c => d.stripe.free.contains c && d.owns (c.group / 8) (c.group % 8) && c.home = (cs.headD c).home) &&
    (d.drawn cs true || d.drawn cs false)

/-- Queue new bands (R269, R276). -/
def Dev.fillQueue (d : Dev) (bands : List (Nat × List Chunk)) : Dev :=
  bands.foldl (fun d p =>
    if (Tab.look d.stripe.bands p.1).isSome || !d.bandOk p.2 || decide (d.fget Reg.STRIPE_QUEUE.LEN ≤ d.stripe.queue.length)
    then d
    else
      let m := d.fget Reg.STRIPE_GEOM.M
      let low := d.drawn p.2 true
      let high := d.drawn p.2 false
      let d := { d with stripe := { d.stripe with free := d.stripe.free.filter fun c => !p.2.contains c
                                                  queue := d.stripe.queue ++ [p.1] } }
      d.putBand p.1 { state := .queued, k := p.2.length - m, m := m, chunks := p.2, low := low, high := high
                      partner := p.2.any fun c => c.home ≠ d.fget Reg.CAMP_STRAP.UNIT_ID }) d

/-- A partition of the cache area has fewer clean frames than CLEAN_MIN percent (R203). -/
def Dev.lacksClean (d : Dev) (page : Nat) : Bool :=
  let g := d.pageGrade page
  let fs := d.map.frames.filter fun f => !d.pagePinned f.1 && d.samePart g (d.pageGrade f.1)
  decide (100 * (fs.filter fun f => !f.2.dirty).length < d.fget Reg.MAP_CACHE.CLEAN_MIN * fs.length)

/-- MAP writes a map page back as tenant-0 work: a dirty frame of a partition that lacks clean ones, or a page that a
checkpoint has to write (R203, R225). A page whose write is under way is not written again. -/
def Dev.writeBack (d : Dev) (page : Nat) : Dev :=
  let out := d.stripe.stripes.any fun s => s.2.slots.any fun u => match u with
    | .mapPage p _ _ => p = page
    | _ => false
  let due := (d.jnl.ckpt.map fun c => (d.ckptPages c).contains page).getD false || (!d.pagePinned page && d.lacksClean page)
  if (Tab.look d.map.frames page).any (·.dirty) && due && !out && !d.map.stalled then d.placePage page else d

/-- A checkpoint ends once every map page of its step 2 is on the media: its root is written, CKPT_END names it, the
superblock records it, the tail moves to b, waiting records are appended, and the queue is refilled (R225, R226, R269). -/
def Dev.ckptEnd (d : Dev) (root : Nat) (bands : List (Nat × List Chunk)) : Dev :=
  match d.jnl.ckpt with
  | none => d
  | some c =>
    if d.ckptPages c ≠ [] then d
    else
    let (d, ok) := d.append 5 0 0 (c.number + (root % 2 ^ 40) * 2 ^ 64) .none
    if !ok then d.fset Reg.JNL_CKPT.STATE 4
    else
      let d := d.writeSuper c.b root (ceilingFor (d.jnl.sbField 32 8) d.map.seq)
        (ceilingFor (d.jnl.sbField 40 8) (d.fget Reg.ROPE_NEXT.ROPE))
      let d := d.raiseCeilings
      let d := d.fset Reg.JNL_TAIL.JSEQ c.b
      let d := { d with jnl := { d.jnl with ckpt := none, ckptDone := c.number }, map := { d.map with stalled := false } }
      let d := (d.fset Reg.JNL_CKPT.STATE 0).showRing.appendWaits
      let d := d.post 0x1B 0 0x50 c.number
      let d := { d with stripe := { d.stripe with free := d.stripe.free ++ d.stripe.erasedBlocks, erasedBlocks := [] } }
      ((d.fillQueue bands).wearCheck).watchFree

/-! ### Recovery (R291 to R294) -/

/-- The state of a checkpoint root comes into force; the blocks that its block table marks BAD are those retired. -/
def Dev.loadRoot (d : Dev) (r : RootObs) : Dev :=
  let a := d.fget Reg.MDA_BLKTAB.ADDR * 4096
  let dram := d.mem.dram.clear a (a + 805306368)
  let dram := r.blocks.foldl (fun m c => Memory.setByte m (a + c.1) c.2) dram
  let d := { d with
    mem := { d.mem with dram := dram }
    map := { d.map with entries := r.entries, dir := r.dir, clearSeq := r.clearSeq, valid := r.valid, frames := []
                        ring := [], sram := [], ended := [], fills := [] }
    stripe := { d.stripe with queue := r.queue, free := r.free, bands := [], streams := [], stripes := [], moveBuf := [] } }
  let d := d.fset Reg.STRIPE_SPARE.RETIRED (r.blocks.filter fun c => c.1 % 16 = 9 && c.2.getLsbD 0).length
  (r.bands.foldl (fun d p => d.putBand p.1 p.2) d).showSpare

/-- The tenant and the key slot of a namespace: those of the checkpoint root's namespace table (R291, R293), or where it has
none those in force. -/
def Dev.nsKey (d : Dev) (root : RootObs) (nsh : Nat) : Option (Nat × Nat) :=
  (Tab.look root.nss nsh).or ((Tab.look d.hostq.nss nsh).map fun n => (n.tenant, n.keySlot))

/-- The unit record of a replayed copy (R219): as the media gives it, or, where they have not been read, that of the
namespace's current key. -/
def Dev.replayedRec (d : Dev) (root : RootObs) (k nsh lba wgen : Nat) : URec :=
  match Tab.look root.recs k with
  | some r => r
  | none =>
    let (tenant, slot) := (d.nsKey root nsh).getD (0, 0)
    { wgen := wgen, nsh := nsh, lba := lba, keySlot := slot, tenant := tenant
      keyGen := ((d.dslot slot).cur.map (·.gen)).getD 0 }

/-- Apply one record to the map (R218, R221, R291). -/
def Dev.replayRec (d : Dev) (root : RootObs) (j : Nat) : Dev :=
  let m := d.jnl.mram
  let a := ringSlot j
  let typ := m.read a 1
  let nsh := m.read (a + 2) 2 % 2 ^ 14
  let b5 (o : Nat) : Nat := m.read (a + o) 5
  if typ = 1 then
    let key := unitKey nsh (b5 16)
    let new := b5 21
    let d := d.lower (b5 26)
    let d := d.setEntry key new
    let held (s : Nat) : Bool := d.mapSpan = 1 || (Tab.look root.recs (validKey new s)).isSome || root.recs.isEmpty
    if !entIsMedia new then d
    else (List.range d.mapSpan).foldl (fun d s =>
      if held s then
        d.raiseValid (new + 4 * s) (d.replayedRec root (validKey new s) nsh (b5 16 * d.mapSpan + s) (new % 4))
      else d) d
  else if typ = 2 then
    (List.range (b5 21)).foldl (fun d i =>
      let key := unitKey nsh (b5 16 + i)
      (d.lower (d.entryAt key)).setEntry key entDealloc) d
  else if typ = 3 then
    let olds := (d.map.entries.filter fun p => p.1 / 2 ^ 40 = nsh).map (·.2)
    let pages := (d.map.dir.filter fun p => p.1 / 2 ^ 32 = nsh).map (·.2)
    let d := olds.foldl Dev.lower d
    let d := pages.foldl (fun d e => d.lowerAt e 1) d
    let es := d.map.entries.filter fun p => p.1 / 2 ^ 40 ≠ nsh
    { d with map := { d.map with entries := es, clearSeq := Tab.put d.map.clearSeq nsh (m.read (a + 16) 8)
                                 dir := d.map.dir.filter fun p => p.1 / 2 ^ 32 ≠ nsh } }
  else d

/-- Is the record of a JSEQ one of the partner's (FLAGS.PARTNER)? -/
def Dev.isPartnerRec (d : Dev) (j : Nat) : Bool := d.jnl.mram.read (ringSlot j + 1) 1 % 2 = 1

/-- Apply one own record; the partner's are kept for a takeover (R223, R291). -/
def Dev.replayOne (d : Dev) (root : RootObs) (j : Nat) : Dev := if d.isPartnerRec j then d else d.replayRec root j

/-- Replay own records from a JSEQ while they are intact; answers the JSEQ after the last (R222, R291). -/
def Dev.replay (root : RootObs) : Nat → Dev → Nat → Nat → Dev × Nat × Nat
  | 0, d, j, n => (d, j, n)
  | f + 1, d, j, n =>
    if jrecOk d.jnl.mram j then Dev.replay root f (d.replayOne root j) (j + 1) (n + 1) else (d, j, n)

/-- QUEUED bands of a unit's die groups into which replay pointed an entry, and those before them in its queue, become OPEN
(R291 step 3). -/
def Dev.openReplayed (d : Dev) (partner : Bool) : Dev :=
  let mine (n : Nat) : Bool := (Tab.look d.stripe.bands n).any fun b => b.partner = partner
  let used (n : Nat) : Bool := (Tab.look d.stripe.bands n).any fun b => decide (b.valid ≠ 0)
  let q := d.stripe.queue.filter mine
  let opened := q.take (q.length - ((q.reverse.takeWhile fun n => !used n).length))
  let d := { d with stripe := { d.stripe with queue := d.stripe.queue.filter fun n => !opened.contains n } }
  opened.foldl (fun d n => d.modBand n fun b => { b with state := .opened }) d

/-- After a recovery or a takeover's load, the bands of a unit's die groups that are OPEN close early, and the blocks of its
QUEUED bands and of the free pool are to be erased again before use (R294). -/
def Dev.settleBands (d : Dev) (partner : Bool) : Dev :=
  let mine := d.stripe.bands.filter fun p => p.2.partner = partner
  let d := (mine.filter fun p => decide (p.2.state = .opened)).foldl (fun d p => d.closeBand p.1 true) d
  let d := (mine.filter fun p => decide (p.2.state = .queued)).foldl (fun d p =>
    p.2.chunks.foldl (fun d c => d.blkErased c false) d) d
  let home := if partner then 1 - d.fget Reg.CAMP_STRAP.UNIT_ID else d.fget Reg.CAMP_STRAP.UNIT_ID
  (d.stripe.free.filter fun c => c.home = home).foldl (fun d c => d.blkErased c false) d

/-- Reload the dump (R292): own units land as DIRTY and are re-applied in ascending WGEN order, mirror units land as
MIRROR; the counters continue above what was found, and STATE becomes 3. -/
def Dev.dumpReload (d : Dev) (us : List DumpUnit) (seqHigh : Nat) : Dev :=
  let m := d.jnl.mram
  let st := m.read 0x2004 1
  if m.read 0x2000 4 ≠ 0x504D5544 ∨ ¬ (st = 1 ∨ st = 2) then d
  else
    let own := (us.filter (·.own)).insertionSort fun x y => decide (x.rec_.wgen ≤ y.rec_.wgen)
    let put (d : Dev) (u : DumpUnit) : Dev :=
      let x : SUnit := { state := if u.own then .dirty else .mirror, rec_ := u.rec_, data := u.data, sealed := true
                         group := u.index }
      { d with map := { d.map with staging := Tab.put d.map.staging u.index x } }
    let d := (us.filter fun u => !u.own).foldl put d
    let d := own.foldl (fun d u =>
      let d := put d u
      if u.rec_.zrange then
        let deac := (u.data.byte 8).toNat = 1
        (d.wholeUnits u.rec_.lba u.rec_.span).1.foldl (fun d k =>
          d.setEntry (unitKey u.rec_.nsh k) (if deac then entDealloc else entZeros u.rec_.wgen)) d
      else d.stageUnit u.rec_.nsh (d.unitOf u.rec_.lba) u.rec_.wgen 0 [u.index]) d
    let high := max (m.read 0x2020 8) ((us.map (·.rec_.wgen)).foldl max 0)
    let d := d.fset Reg.ROPE_NEXT.ROPE (max (d.fget Reg.ROPE_NEXT.ROPE) (high + 1))
    let d := { d with map := { d.map with seq := max d.map.seq (seqHigh + 1) }
                      jnl := { d.jnl with mram := (m.write 0x2004 1 3) } }
    let d := d.fset Reg.STRIPE_DUMP.LAST_UNITS (m.read 0x2018 4 + m.read 0x201C 4)
    (d.showStaging).post 0x15 0 0x85 own.length

/-- The page sequence counter continues above the ceiling, above what a recovery found and above the highest number the
partner holds (R199). -/
def Dev.seqContinue (d : Dev) (high : Nat) : Dev :=
  { d with map := { d.map with seq := max d.map.seq (max (d.jnl.sbField 32 8) (max high d.belay.seqHigh) + 1) } }

/-- Recovery fails: STATE becomes 3 and event 0x0040 says so (R294). -/
def Dev.recoverFails (d : Dev) : Dev := (d.fset Reg.MAP_RECOVER.STATE 3).post 0x14 0 0x40 3

/-- MAP_RECOVER.GO with MODE 0 (R291): it fails with no valid superblock, with a root that does not check, or with a journal
that is lost, a CRC failing before the head (R222, R294). -/
def Dev.recoverReplay (d : Dev) (root : RootObs) (dump : List DumpUnit) (seqHigh : Nat) : Dev :=
  if d.fget Reg.MAP_RECOVER.STATE = 1 ∨ !d.on 0x14 then d
  else
    let d := d.fset Reg.MAP_RECOVER.MODE 0
    if d.jnl.active = none ∨ !root.good then d.recoverFails
    else
      let d := (d.loadRoot root).fset Reg.MAP_RECOVER.STATE 1
      let first := d.jnl.sbField 16 8
      let (d, j, n) := Dev.replay root ringLen d first 0
      let torn := decide (d.jnl.mram.read (ringSlot j + 8) 8 = j)
      let d := (d.fset Reg.JNL_REPLAY.RECORDS n).fset Reg.JNL_REPLAY.TORN (b2n torn)
      if torn && jrecOk d.jnl.mram (j + 1) then d.recoverFails
      else
      let d := ((d.fset Reg.JNL_HEAD.JSEQ j).fset Reg.JNL_TAIL.JSEQ first).showRing
      ((d.openReplayed false).seqContinue seqHigh).dumpReload dump seqHigh

/-- Has CIPHER destroyed a key generation: its slot is loaded and holds it no longer (R218, DEDUCED, log 112)? -/
def Dev.keyGone (d : Dev) (slot gen : Nat) : Bool :=
  let s := d.dslot slot
  s.cur.isSome && (s.cur.toList ++ s.older).all fun k => decide (k.gen ≠ gen)

/-- Is a scanned unit to be left out (R218, R293)? -/
def Dev.scanDead (d : Dev) (root : RootObs) (u : ScanUnit) : Bool :=
  let cleared := max ((Tab.look root.clearSeq u.rec_.nsh).getD 0) ((Tab.look d.map.clearSeq u.rec_.nsh).getD 0)
  u.dead || d.keyGone u.rec_.keySlot u.rec_.keyGen || decide (u.seq < cleared) ||
    d.nsKey root u.rec_.nsh ≠ some (u.rec_.tenant, u.rec_.keySlot)

/-- Apply scanned units in ascending order of WGEN, then SEQ, so that the newest copy of every block stays (R200). -/
def Dev.scanApply (d : Dev) (us : List ScanUnit) : Dev :=
  (us.insertionSort fun x y => decide (x.rec_.wgen < y.rec_.wgen ∨ (x.rec_.wgen = y.rec_.wgen ∧ x.seq ≤ y.seq))).foldl (fun d u =>
    if u.rec_.zrange then
      let d := d.raiseValid u.entry u.rec_
      (d.wholeUnits u.rec_.lba u.rec_.span).1.foldl (fun d k =>
        let key := unitKey u.rec_.nsh k
        (d.lower (d.entryAt key)).setEntry key (if u.rec_.deac then entDealloc else entZeros u.rec_.wgen)) d
    else
      let key := unitKey u.rec_.nsh (d.unitOf u.rec_.lba)
      let old := d.entryAt key
      let d := if d.mapSpan = 1 ∨ old / 16 ≠ u.entry / 16 then d.lower old else d
      let e := if d.mapSpan = 4 then u.entry / 16 * 16 + u.entry % 4 else u.entry
      (d.setEntry key e).raiseValid u.entry u.rec_) d

/-- MAP_RECOVER.GO with MODE 1 (R293): the map is rebuilt from the units found, the dump is reloaded, and a checkpoint
whose root is `newRoot` records the ceilings. -/
def Dev.recoverScan (d : Dev) (root : RootObs) (us : List ScanUnit) (dump : List DumpUnit) (seqHigh newRoot : Nat) : Dev :=
  if d.fget Reg.MAP_RECOVER.STATE = 1 ∨ !d.on 0x14 then d
  else
    let d := (d.fset Reg.MAP_RECOVER.MODE 1).fset Reg.MAP_RECOVER.STATE 1
    let live := us.filter fun u => !d.scanDead root u
    let bands := root.bands.map fun p => (p.1, { p.2 with valid := 0 })
    let d := (d.loadRoot { root with entries := [], dir := [], valid := [], bands := bands }).scanApply live
    let d := (d.seqContinue (max seqHigh ((us.map (·.seq)).foldl max 0))).dumpReload dump seqHigh
    let high := (us.map (·.rec_.wgen)).foldl max 0
    let d := d.fset Reg.ROPE_NEXT.ROPE (max (d.fget Reg.ROPE_NEXT.ROPE) (high + 1))
    let no := d.jnl.ckptNo + 1
    let b := d.fget Reg.JNL_HEAD.JSEQ
    let (d, _) := d.append 4 0 0 no .none
    let (d, _) := d.append 5 0 0 (no + (newRoot % 2 ^ 40) * 2 ^ 64) .none
    let d := { d with jnl := { d.jnl with ckptNo := no, ckptDone := no } }
    let d := d.writeSuper b newRoot (d.map.seq + 2 ^ 33) (d.fget Reg.ROPE_NEXT.ROPE + 2 ^ 33)
    ((d.fset Reg.JNL_TAIL.JSEQ b).showRing).post 0x1B 0 0x50 no

/-- Recovery ends (R294): OPEN bands close early, unopened QUEUED bands' and free blocks are to be erased again, the dump bands
are erased for the next dump (R289), and STATE becomes 2, or 3 where a check failed. No map page is loaded yet, and a pinned namespace with pages is cold (R206). -/
def Dev.recoveryEnd (d : Dev) (good : Bool) : Dev :=
  if d.fget Reg.MAP_RECOVER.STATE ≠ 1 then d
  else
    let d := d.settleBands false
    let dumps := d.stripe.bands.filter fun p => decide (p.2.state = .dump)
    let d := if good then dumps.foldl (fun d p => d.eraseFirst p.1) d else d
    let pages := d.map.dir.map (·.1)
    let cold := d.hostq.nss.map fun p => (p.1, { p.2 with cold := p.2.pinned && pages.any fun g => g / 2 ^ 32 = p.1 })
    let d := { d with hostq := { d.hostq with nss := cold }, map := { d.map with coldPages := pages } }
    let d := d.fset Reg.MAP_RECOVER.STATE (if good then 2 else 3)
    let d := (d.showWarm).post 0x14 0 0x40 (if good then 2 else 3)
    if good then d.watchFree else d

/-! ### The power-fail dump (R288 to R290) -/

/-- Dump bands that are erased and ready (STRIPE_DUMP.READY). -/
def Dev.dumpReady (d : Dev) : Nat :=
  (d.stripe.bands.filter fun p => decide (p.2.state = .dump) && p.2.chunks.all fun c => bitOf (d.blkFlags c) 3).length

/-- The dump directory's bytes (R290). -/
def Dev.dumpDir (d : Dev) (state : Nat) (first time own mirror high : Nat) (bands : List (Nat × Band)) : Dev :=
  let head := leBytes 0x504D5544 4 ++ leBytes state 1 ++ leBytes bands.length 1 ++ leBytes 0 2 ++ leBytes first 8 ++
    leBytes time 8 ++ leBytes own 4 ++ leBytes mirror 4 ++ leBytes high 8 ++ leBytes 0 20
  let list := bands.flatMap fun p => p.2.bytes
  let bs := head ++ leBytes (crc32c (head ++ list)) 4 ++ list
  { d with jnl := { d.jnl with mram := d.jnl.mram.setBytes 0x2000 bs } }

/-- The units a dump writes: own ones not superseded in ascending WGEN order, then MIRROR ones (R288). -/
def Dev.dumpUnits (d : Dev) : List Nat × List Nat :=
  let by_ := fun (l : Tab SUnit) => (l.insertionSort fun x y => decide (x.2.rec_.wgen ≤ y.2.rec_.wgen)).map (·.1)
  (by_ (d.map.staging.filter fun p => p.2.counts && p.2.superseded.isNone),
   by_ (d.map.staging.filter fun p => decide (p.2.state = .mirror)))

/-- Spread a dump's units over stripes of the dump bands, round robin (R289). -/
def Dev.dumpStripes (d : Dev) : Nat → List (Nat × Band) → List Nat → List Nat → Dev
  | 0, _, _, _ => d
  | f + 1, bands, pages, us =>
    match us, bands, pages with
    | [], _, _ => d
    | _, [], _ => d
    | _, (n, b) :: rest, pg =>
      let page := pg.headD 0
      let id := d.stripe.nextStripe
      let s : Stripe := { band := n, page := page, slots := (us.take (4 * b.k)).map SlotUse.unit, last := d.now
                          dump := true, seq := d.map.seq }
      let d := { d with
        stripe := { d.stripe with stripes := Tab.put d.stripe.stripes id s, nextStripe := id + 1 }
        map := { d.map with seq := d.map.seq + b.k + b.m } }
      let d := d.closeStripe id
      Dev.dumpStripes d f (rest ++ [(n, { b with nextPage := page + 1 })]) (pg.drop 1 ++ [page + 1]) (us.drop (4 * b.k))

/-- The dump starts (R288 to R290): LANDING units are discarded, the directory is marked dumping, and the SLC programs
are issued to wait for no window. -/
def Dev.dumpStart (d : Dev) : Dev :=
  if d.camp.pfail ≠ .quiesced then d
  else
    let d := d.discard fun _ => true
    let (own, mir) := d.dumpUnits
    let bands := (d.stripe.bands.filter fun p => decide (p.2.state = .dump)).take (d.fget Reg.STRIPE_DUMP.BANDS)
    let high := ((own ++ mir).map fun i => ((Tab.look d.map.staging i).map (·.rec_.wgen)).getD 0).foldl max 0
    let d := d.dumpDir 1 d.map.seq d.now own.length mir.length high bands
    let d := { d with stripe := { d.stripe with dumpOwn := own.length, dumpMirror := mir.length }
                      camp := { d.camp with pfail := .dumping } }
    d.dumpStripes (own.length + mir.length + 1) bands (bands.map fun p => p.2.nextPage) (own ++ mir)

end Sys2Proof.Machine
end

