-- ==== Sys2Proof/Machine/MediaOps.lean ====
section
/-! DEFINITION. TETHER and MEDIA: link frames, claims, NAND operations, suspends, sled records, gate lists and the decode
ladder (R229 to R262, R270). -/

namespace Sys2Proof.Machine

/-! ### Links and frames (R231 to R235) -/

/-- A link. -/
def Dev.link (d : Dev) (n : Nat) : Link := (Tab.look d.links n).getD {}

/-- Change a link. -/
def Dev.modLink (d : Dev) (n : Nat) (f : Link → Link) : Dev := { d with links := Tab.put d.links n (f (d.link n)) }

/-- Is the link in service: ACTIVE and not retraining? -/
def Dev.linkUp (d : Dev) (n : Nat) : Bool :=
  d.on 0x17 n && d.fget Reg.TTH_LINK.STATE n = 5 && !(d.link n).retraining

/-- Send a frame with the link's next SEQ; it is kept until acknowledged (R234). -/
def Dev.sendFrame (d : Dev) (n : Nat) (f : TFrame) : Dev :=
  d.modLink n fun l =>
    let s := (l.txSeq + 1) % 4096
    { l with txSeq := s, unacked := l.unacked ++ [{ f with seq := s }] }

/-- Is sequence number `a` at or before `b`, in the window of half the number space? -/
def linkSeqLe (m a b : Nat) : Bool := decide ((b + m - a % m) % m < m / 2)

/-- The sender drops what an ACK covers. -/
def Dev.ackFrames (d : Dev) (n ack : Nat) : Dev :=
  d.modLink n fun l => { l with unacked := l.unacked.filter fun f => !linkSeqLe 4096 f.seq ack }

/-- Operations outstanding on a link, shown in TTH_OPS. -/
def Dev.showOps (d : Dev) (n : Nat) : Dev :=
  d.fset Reg.TTH_OPS.OUTSTANDING (d.media.ops.filter fun o => o.1 / 4096 = n).length n

/-! ### The decode ladder (R259, R260, R270) -/

/-- Change a job's unit. -/
def Dev.modJobUnit (d : Dev) (j i : Nat) (f : JobUnit → JobUnit) : Dev :=
  match Tab.look d.media.jobs j with
  | some job =>
    let us := job.units.zipIdx.map fun p => if p.2 = i then f p.1 else p.1
    { d with media := { d.media with jobs := Tab.put d.media.jobs j { job with units := us } } }
  | none => d

/-- Change a job. -/
def Dev.modJob (d : Dev) (j : Nat) (f : ReadJob → ReadJob) : Dev :=
  match Tab.look d.media.jobs j with
  | some job => { d with media := { d.media with jobs := Tab.put d.media.jobs j (f job) } }
  | none => d

/-- When every unit of a command's read is done, MEDIA_DONE is posted (R262), and a unit that is unrecovered settles the
command's status (R150); the job of a move just ends. -/
def Dev.finishJob (d : Dev) (j : Nat) : Dev :=
  match Tab.look d.media.jobs j with
  | none => d
  | some job =>
    if !job.units.all (·.done) then d
    else
      let d := { d with media := { d.media with jobs := Tab.del d.media.jobs j } }
      if job.move || job.fill then d
      else
        let gen := fun (u : Option JobUnit) => ((u.bind (·.rec_)).map (·.keyGen)).getD 0
        let done : CDone :=
          { result := 0, op := 2, first := gen job.units.head?, last := gen job.units.getLast?, units := job.units.length
            slot := ((job.units.findSome? (·.rec_)).map (·.keySlot)).getD 0, token := job.dest, ctx := job.ctx
            cmdref := job.cmdref, tenant := job.tenant, nsh := job.nsh, rope := job.rope, runToken := 0, gen := job.gen }
        let d := if job.units.any (·.bad) then d else { d with cipher := { d.cipher with dones := d.cipher.dones ++ [done] } }
        let nbad := (job.units.filter (·.bad)).length
        let first := (job.units.findIdx? (·.bad)).getD 0xFFFF
        let res : Nat := if job.units.any (·.lost) then 0x15 else if nbad = 0 then 0 else 0x14
        let lvl := (job.units.map (·.level)).foldl max 0
        let d := if res ≠ 0x14 then d
          else if job.units.any (·.tagFailed) then d.doom (tagKey job.ctx job.cmdref) 0 6
          else d.doom (tagKey job.ctx job.cmdref) 2 0x81
        let fl := b2n job.retryOver + 2 * b2n job.timing + 4 * b2n job.rebuiltOne
        d.event { typ := evMediaDone, gen := some job.gen,
                  words := descriptor evMediaDone 128 job.tenant job.nsh job.ctx job.cmdref job.rope 0
                    [res + lvl * 2 ^ 32 + fl * 2 ^ 40 + (job.units.length - nbad) * 2 ^ 48,
                     job.admNo % 2 ^ 32 + job.lookup * 2 ^ 32, job.dest, first + nbad * 2 ^ 16] }

/-- A read that reached level 2 or more has ended: MEDIA posts the item that relocates its block, of KIND 0x0003, for the band
STRIPE maps it to, unless that has an item already (R260, R282). -/
def Dev.relocate (d : Dev) (e level : Nat) : Dev :=
  match d.bandOf e with
  | none => d
  | some (n, b) =>
    if level < 2 ∨ b.item.isSome then d
    else
      let tok := d.stripe.nextItem
      let d := { d with stripe := { d.stripe with items := Tab.put d.stripe.items tok n, nextItem := tok + 1 } }
      (d.putBand n { b with item := some 3 }).maint 0 tok [3 + (entGroup e % 256) * 2 ^ 16 + entDie e * 2 ^ 24 +
        entPlane e * 2 ^ 32 + level * 2 ^ 40 + entBlock e * 2 ^ 48]

/-- A unit ends unrecovered: counted, event 0x0073 (R260). -/
def Dev.unrecovered (d : Dev) (j i : Nat) (e : Nat) : Dev :=
  let d := d.bump Reg.MDA_UNRECOV.COUNT
  let d := (d.relocate e 4).post 0x16 0 0x73 (entGroup e)
  (d.modJobUnit j i fun u => { u with bad := true, done := true, level := 4 }).finishJob j

/-- Queue the reads of a level-4 rebuild: the codeword of every other chunk of the stripe that is not LOST and whose sled
is present (R270). -/
def Dev.rebuildReqs (d : Dev) (j i e : Nat) : Dev :=
  match d.bandOf e with
  | none => d.unrecovered j i e
  | some (_, b) =>
    let rs := b.chunks.zipIdx.filter fun c => !c.1.has e && !c.1.lost && d.sledState (c.1.group / 8) = 0
    let reqs := rs.map fun c =>
      ({ use := .rebuild j i c.2, opcode := 1, sled := c.1.group / 8, channel := c.1.group % 8, die := c.1.die
         plane := c.1.plane, block := c.1.block, page := entPage e, cw := 2 ^ entSlot e } : NandReq)
    let d := d.modJobUnit j i fun u => { u with rebuildLeft := rs.length, rebuilt := [] }
    if rs.length < b.k then d.unrecovered j i e
    else { d with media := { d.media with reqs := d.media.reqs ++ reqs } }

/-- A codeword enters the next ladder level (R259, R260): it is counted; level 2 tells LEDGER of a G1 or G2 read beyond its
retries (R171). -/
def Dev.climb (d : Dev) (j i : Nat) : Dev :=
  match Tab.look d.media.jobs j with
  | none => d
  | some job =>
    match job.units[i]? with
    | none => d
    | some u =>
      let l := u.level + 1
      let e := u.entry
      if 4 < l then d.unrecovered j i e
      else
        let d := d.modJobUnit j i fun u => { u with level := l, decoded := false }
        let d := if l = 1 then (d.bump Reg.MDA_DECODE.L1).sample 0x0C none else if l = 2 then d.bump Reg.MDA_DECODE.L2
          else if l = 3 then d.bump Reg.MDA_DECODE.L3 else d.bumpSat Reg.MDA_DECODE.L4
        let d := if l = 2 then
            if (job.grade = 1 ∨ job.grade = 2) ∧ !job.retryOver ∧ !job.move then
              (d.bump Reg.LEDGER_OVERRUN.RETRY).modJob j fun x => { x with retryOver := true }
            else d
          else d
        if l = 4 then d.rebuildReqs j i e
        else
          let q := readReq j i l (job.grade = 1) e
          let q := if l = 1 then q else { q with opcode := 2, opt := if l = 2 then 2 else 6 }
          { d with media := { d.media with reqs := d.media.reqs ++ [q] } }

/-- A unit starts at level 4: its tag failed at CIPHER (R260), or its sled is not PRESENT (R271). -/
def Dev.toLevel4 (d : Dev) (j i : Nat) : Dev := (d.modJobUnit j i fun u => { u with level := 3 }).climb j i

/-- A codeword has decoded: the unit goes to CIPHER; the retry slot that a G1 read held for it is released (R166), and the block
of a read beyond level 1 is to be relocated (R260). -/
def Dev.decoded (d : Dev) (j i : Nat) (r : Option URec) (data : Memory) : Dev :=
  let d := d.modJobUnit j i fun u => { u with decoded := true, rec_ := r, data := data }
  match Tab.look d.media.jobs j with
  | some job =>
    match job.units[i]? with
    | some u =>
      let adms := d.ledger.adms.map fun p =>
        if p.1 = job.admNo then
          (p.1, { p.2 with slots := p.2.slots.filter fun s =>
            !(s.retry && decide (s.entry / (4 * d.mapSpan) = u.entry / (4 * d.mapSpan))) })
        else p
      { d with ledger := { d.ledger with adms := adms } }.relocate u.entry u.level
    | none => d
  | none => d

/-- The unit-record bytes of a codeword; one without a record holds parity there, or zeros (R197, R266). -/
def Codeword.recBytes (c : Codeword) : List Byte :=
  match c.rec_ with
  | some r => r.bytes
  | none => c.data.bytes 4096 4128

/-- Bytes of a codeword that the code covers (R265). -/
def Codeword.bytes (c : Codeword) : List Byte := c.data.bytes 0 4096 ++ c.recBytes

/-- A rebuild read has answered; with K codewords the missing one is solved, with none left to come it is unrecovered
(R270). -/
def Dev.rebuildGot (d : Dev) (j i pos : Nat) (cw : Option Codeword) : Dev :=
  let d := d.modJobUnit j i fun u =>
    { u with rebuildLeft := u.rebuildLeft - 1, rebuilt := match cw with
      | some c => Tab.put u.rebuilt pos c
      | none => u.rebuilt }
  match (Tab.look d.media.jobs j).bind fun job => job.units[i]? with
  | none => d
  | some u =>
    match d.bandOf u.entry with
    | none => d
    | some (_, b) =>
      if u.decoded then d
      else if b.k ≤ u.rebuilt.length then
        let known := u.rebuilt.map fun p => (p.1, p.2.bytes)
        let want := (b.chunks.findIdx? fun c => c.has u.entry).getD 0
        let bs := rsRebuild b.k want 4128 known
        let m := Memory.setBytes [] 0 bs
        let d := d.bump Reg.STRIPE_LOSS.REBUILT
        let d := d.modJob j fun x => { x with rebuiltOne := true }
        let data := m.clear 4096 4128
        d.decoded j i ((readURec m 4096).map fun r => r.ranged data) data
      else if u.rebuildLeft = 0 then d.unrecovered j i u.entry
      else d

/-! ### The end of an operation -/

/-- The block of a request. -/
def NandReq.chunk (q : NandReq) : Chunk := { group := q.sled * 8 + q.channel, die := q.die, plane := q.plane, block := q.block }

/-- A chunk's program has failed (R284): its stripe does; where another chunk's failure has ended the stripe already, the block
is remembered for retirement. -/
def Dev.programFailed (d : Dev) (ch : Chunk) (s c : Nat) : Dev :=
  if (Tab.look d.stripe.stripes s).isSome then d.failStripe s c
  else
    let at_ (x : Chunk) : Bool := x.group = ch.group && x.die = ch.die && x.plane = ch.plane && x.block = ch.block
    match d.stripe.bands.find? fun p => p.2.chunks.any at_ with
    | some (n, b) => d.putBand n { b with failed := ((b.chunks.findIdx? at_).getD 0) :: b.failed }
    | none => d

/-- An operation of a link has failed or timed out (R248, R284, R285). A page of the dump that fails is missed by its stripe's
parity alone. -/
def Dev.opFailed (d : Dev) (n : Nat) (o : NandOp) : Dev :=
  match o.use with
  | .read j i _ _ => d.climb j i
  | .rebuild j i pos => d.rebuildGot j i pos none
  | .program s c => d.programFailed { group := n * 8 + o.channel, die := o.die, plane := o.plane, block := o.block } s c
  | .erase b c => d.chunkErased b c false
  | _ => d

/-- End every operation that satisfies `p` as failed; answers how many. -/
def Dev.endOps (d : Dev) (n : Nat) (p : NandOp → Bool) : Dev × Nat :=
  let hit := d.media.ops.filter fun o => o.1 / 4096 = n && p o.2
  let d := { d with media := { d.media with ops := d.media.ops.filter fun o => !(o.1 / 4096 = n && p o.2) } }
  ((hit.foldl (fun d o => d.opFailed n o.2) d).showOps n, hit.length)

/-! ### Sleds (R271 to R275) -/

/-- Units of a band on LOST data chunks, or on those of one sled only. -/
def Dev.lostUnits (d : Dev) (b : Band) (only : Option Nat) : Nat :=
  (d.map.valid.filter fun p => b.chunks.any fun c => c.lost && c.has (p.1 * 4) && only.all fun n => c.group / 8 = n).length

/-- Data are lost beyond their parity: the groups of the namespaces with units on LOST chunks of the band report Persistent
Loss (R141). Nothing in the spec ends that state but a reset (log 94). -/
def Dev.lossReport (d : Dev) (b : Band) : Dev :=
  let hs := ((d.map.entries.filter fun p => b.chunks.any fun c => c.lost && c.has p.2).map (·.1 / 2 ^ 40)).dedup
  let gs := (d.hostq.nss.filter fun p => hs.contains p.1).map (·.2.anagrp)
  { d with hostq := { d.hostq with ana := gs.foldl (fun t g => Tab.put t g .persistentLoss) d.hostq.ana } }

/-- What waits to be issued to a sled that has gone is settled: reads go on by level-4 rebuild (R271), a read of a rebuild does
without that chunk (R270); and once the sled is FAILED, programs and erases end as failed (R248, R284). -/
def Dev.dropReqs (d : Dev) (n : Nat) (failed : Bool) : Dev :=
  let goes (q : NandReq) : Bool := q.sled = n && (failed || q.opcode = 1 || q.opcode = 2)
  let gone := d.media.reqs.filter goes
  let d := { d with media := { d.media with reqs := d.media.reqs.filter fun q => !goes q } }
  gone.foldl (fun d q => match q.use with
    | .read j i _ _ => d.toLevel4 j i
    | .rebuild j i pos => d.rebuildGot j i pos none
    | .erase b c => d.modBand b fun x => { x with erased := x.erased + (if x.state = .erasing ∧ c < x.chunks.length then 1 else 0) }
    | .program s c => d.programFailed q.chunk s c
    | _ => d) d

/-- A sled becomes FAILED: its chunks are LOST, event 0x0081, with which CAMP wakes (R453), and the rebuild items are posted, most LOST chunks first
and then oldest OPENED; of bands beyond their parity the units on LOST chunks are lost, and each is counted once (R273,
R274). -/
def Dev.sledFail (d : Dev) (n : Nat) : Dev :=
  let d := d.setSledState n 2
  let d := { d with stripe := { d.stripe with models := Tab.put d.stripe.models n (d.fget Reg.TTH_IDENT.MODEL n) }
                    media := { d.media with needReload := n :: d.media.needReload.filter (· ≠ n) } }
  let hit := d.stripe.bands.filter fun p => p.2.chunks.any fun c => c.group / 8 = n && !c.lost
  let d := hit.foldl (fun d p => d.modBand p.1 fun b =>
    { b with chunks := b.chunks.map fun c => if c.group / 8 = n then { c with lost := true } else c }) d
  let d := (d.post 0x15 0 0x81 n).wake
  let bs := (d.stripe.bands.filter fun p => hit.any fun h => h.1 = p.1).insertionSort fun (x y : Nat × Band) =>
    let lx := (x.2.chunks.filter (·.lost)).length
    let ly := (y.2.chunks.filter (·.lost)).length
    decide (ly < lx) || (lx = ly && decide (x.2.since ≤ y.2.since))
  let d := d.fset Reg.STRIPE_REBUILD.BANDS_LEFT bs.length
  let d := bs.foldl (fun d p =>
    let before := ((Tab.look hit p.1).map fun b => (b.chunks.filter (·.lost)).length).getD 0
    let d := if p.2.m < (p.2.chunks.filter (·.lost)).length then
        let u := d.lostUnits p.2 (if p.2.m < before then some n else none)
        (((d.bump Reg.STRIPE_LOSS.UNITS u).setErr 0x15 0 9).post 0x15 0 0x83 p.1).lossReport p.2
      else d
    d.bandItem p.1 2) d
  d.dropReqs n true

/-- ABSENT for GRACE_S, a sled becomes FAILED (R271). -/
def Dev.sledGrace (d : Dev) (n : Nat) : Dev :=
  match Tab.look d.stripe.absentSince n with
  | none => d
  | some t =>
    if d.sledState n ≠ 1 ∨ d.now < t + d.fget Reg.STRIPE_REBUILD.GRACE_S * 1000000000 then d else d.sledFail n

/-- A write of STRIPE_SLED_CMD.GO (R271, R273, R275). A returned sled's blocks join the free pool unerased, but for those marked
BAD. -/
def Dev.sledCmd (d : Dev) (act n : Nat) : Dev :=
  let d := (d.fset Reg.STRIPE_SLED_CMD.ACT act).fset Reg.STRIPE_SLED_CMD.SLED n
  let st := d.sledState n
  if act % 4 = 1 then
    if n < 24 ∧ (st = 0 ∨ st = 1) then d.sledFail n else d.setErr 0x15 0 errAccess
  else if act % 4 = 2 then
    match d.sled n with
    | some r =>
      if st = 3 ∧ !d.media.needReload.contains n then
        let groups := (List.range 8).filter fun c => bitOf r.channels c && d.owns n c
        let cs := groups.flatMap fun c => (List.range r.dies).flatMap fun di => (List.range r.planes).flatMap fun pl =>
          (List.range r.blocks).map fun b => ({ group := n * 8 + c, die := di, plane := pl, block := b } : Chunk)
        let d := if Tab.look d.stripe.models n = some (d.fget Reg.TTH_IDENT.MODEL n) then d
          else cs.foldl (fun d c => d.blkWrite c 10 3 0) d
        let d := cs.foldl (fun d c => d.blkErased c false) d
        let other (c : Chunk) : Bool := decide (c.group / 8 ≠ n)
        let good := cs.filter fun c => !bitOf (d.blkFlags c) 0
        let d := { d with stripe := { d.stripe with free := d.stripe.free.filter other ++ good
                                                    erasedBlocks := d.stripe.erasedBlocks.filter other } }
        Dev.showBands (d.setSledState n 0)
      else d.setErr 0x15 0 errAccess
    | none => d.setErr 0x15 0 errAccess
  else d

/-- The link goes down (R231). -/
def Dev.linkDown (d : Dev) (n : Nat) : Dev :=
  let d := (d.fset Reg.TTH_LINK.STATE 1 n).fset Reg.TTH_LINK.LANES_UP 0 n
  let d := d.modLink n fun l => { l with retraining := false, unacked := [] }
  let d := (d.setErr 0x17 n 9).post 0x17 n 0x61 0
  let d := d.sledAbsent n
  let (d, k) := d.endOps n fun _ => true
  (d.bump Reg.TTH_OPS.TIMEOUTS k n).dropReqs n false

/-- A retrain begins, or the link goes down at once (R231). -/
def Dev.retrain (d : Dev) (n : Nat) : Dev :=
  if d.fget Reg.TTH_CFG.AUTO_RETRAIN n = 1 then
    let d := (d.fset Reg.TTH_LINK.STATE 1 n).fset Reg.TTH_LINK.LANES_UP 0 n
    d.modLink n fun l => { l with retraining := true }
  else d.linkDown n

/-- A lane of an enabled link loses lock. -/
def Dev.laneLoss (d : Dev) (n : Nat) : Dev := if d.linkUp n then d.retrain n else d

/-- Retraining ends. -/
def Dev.retrainEnd (d : Dev) (n : Nat) (ok : Bool) : Dev :=
  if !(d.link n).retraining then d
  else if ok then
    let d := (d.fset Reg.TTH_LINK.STATE 5 n).fset Reg.TTH_LINK.LANES_UP 4 n
    (d.bump Reg.TTH_LINK.RETRAINS 1 n).modLink n fun l => { l with retraining := false }
  else d.linkDown n

/-- What training has brought about: the link is ACTIVE on four lanes, and TTH_IDENT shows the anchor's answer (R230). -/
def Dev.trained (d : Dev) (n : Nat) (o : CheckObs) : Dev :=
  let d := (d.fset Reg.TTH_LINK.STATE 5 n).fset Reg.TTH_LINK.LANES_UP 4 n
  let d := (d.fset Reg.TTH_IDENT.PROTO o.proto n).fset Reg.TTH_IDENT.MODEL o.model n
  let d := (d.fset Reg.TTH_IDENT.PLANES o.planes n).fset Reg.TTH_IDENT.DIES o.dies n
  d.fset Reg.TTH_IDENT.CHANNELS o.channels n

/-- A down link finds its anchor answering and trains again, on four lanes and with a protocol it supports (R230); nothing is
issued until the record is reloaded (R231). -/
def Dev.linkReturns (d : Dev) (n : Nat) (o : CheckObs) : Dev :=
  if !d.on 0x17 n || d.linkUp n || (d.link n).retraining || !o.good || decide (o.lanes < 4 ∨ o.proto ≠ 0x0100) then d
  else
    let d := d.trained n o
    d.modLink n fun _ => { temps := (d.link n).temps, lastStatus := d.now }

/-- Replay every unacknowledged frame; one that has been replayed eight times makes the link retrain (R234). -/
def Dev.replayFrames (d : Dev) (n : Nat) : Dev :=
  let l := d.link n
  if l.unacked.any fun f => decide (8 ≤ f.replays) then d.retrain n
  else
    let d := d.modLink n fun l => { l with unacked := l.unacked.map fun f => { f with replays := f.replays + 1 } }
    d.bump Reg.TTH_FRAMES.REPLAYS l.unacked.length n

/-- 5 µs without an ACK (R234). -/
def Dev.replayTimeout (d : Dev) (n : Nat) : Dev :=
  if d.linkUp n && !(d.link n).unacked.isEmpty then d.replayFrames n else d

/-- Receive a frame (R234): a bad or out-of-order one is dropped, counted and answered with a NAK; a repeat of one
received is discarded; a good one takes effect once. -/
def Dev.rx (d : Dev) (h : RxHdr) (f : Dev → Dev) : Dev :=
  let n := h.sled
  if !d.linkUp n then d
  else
    let l := d.link n
    let nak : TFrame := { seq := 0, typ := 0x0F, words := [BitVec.ofNat 64 (2 ^ 32)] }
    if !h.good then (d.bump Reg.TTH_FRAMES.CRC_ERR 1 n).sendFrame n nak
    else if h.seq % 4096 = (l.rxSeq + 1) % 4096 then
      f ((d.modLink n fun l => { l with rxSeq := h.seq % 4096 }).ackFrames n h.ack)
    else if linkSeqLe 4096 h.seq l.rxSeq then d.ackFrames n h.ack
    else (d.bump Reg.TTH_FRAMES.CRC_ERR 1 n).sendFrame n nak

/-- A LINK frame: credits and acknowledgement, or a NAK (R233 to R235). -/
def Dev.rxLink (d : Dev) (h : RxHdr) (op data : Nat) (nak : Bool) : Dev :=
  d.rx h fun d =>
    let d := d.modLink h.sled fun l => { l with opCredits := l.opCredits + op, dataCredits := l.dataCredits + data }
    if nak then d.replayFrames h.sled else d

/-! ### Claims (R239 to R243) -/

/-- The claim number a unit presents in an epoch. -/
def Dev.claimNo (d : Dev) (epoch : Nat) : Nat := epoch * 2 + d.fget Reg.CAMP_STRAP.UNIT_ID

/-- Send CLAIM to a sled for a channel mask. -/
def Dev.sendClaim (d : Dev) (n mask : Nat) : Dev :=
  d.sendFrame n { seq := 0, typ := 3, claim := d.fget Reg.TTH_OWN.CLAIM n, words := [BitVec.ofNat 64 (mask % 256)] }

/-- The anchor holds a higher claim for owned channels: TETHER gives them up and signals BELAY (R242). -/
def Dev.claimLost (d : Dev) (n mask : Nat) : Dev :=
  let owned := d.fget Reg.TTH_OWN.OWNED n
  let lost := owned &&& mask
  if lost = 0 then d
  else
    let d := d.fset Reg.TTH_OWN.OWNED (owned - lost) n
    let gone (u : JobUnit) : JobUnit :=
      if entSled u.entry = n ∧ bitOf lost (entChannel u.entry) = true ∧ u.done = false ∧ u.decoded = false then
        { u with lost := true, bad := true, done := true }
      else u
    let jobs := d.media.jobs.map fun p => (p.1, { p.2 with units := p.2.units.map gone })
    let ids := jobs.map (·.1)
    let d := { d with media := { d.media with jobs := jobs, claimLost := true } }
    let d := ids.foldl (fun d j => d.finishJob j) d
    let (d, _) := d.endOps n fun o => bitOf lost o.channel
    (d.setErr 0x17 n 8).post 0x17 n 0x60 lost

/-- Held claims as a report of the anchor gives them; an owned channel with a higher one is lost. -/
def Dev.seeHeld (d : Dev) (n : Nat) (held : List Nat) : Dev :=
  let d := (List.range 4).foldl (fun d i =>
    (d.fset (Reg.TTH_HELD.EVEN.nth i) (held.getD (2 * i) 0) n).fset (Reg.TTH_HELD.ODD.nth i) (held.getD (2 * i + 1) 0) n) d
  let mine := d.fget Reg.TTH_OWN.CLAIM n
  let mask := (List.range 8).foldl (fun m c => if mine < held.getD c 0 then m + 2 ^ c else m) 0
  d.claimLost n mask

/-- The anchor has been reset since the claim was presented (R243). -/
def Dev.anchorReset (d : Dev) (n : Nat) : Dev :=
  if d.fget Reg.TTH_OWN.CLAIM n = 0 ∨ (d.link n).represent ≠ 0 then d
  else
    let owned := d.fget Reg.TTH_OWN.OWNED n
    let d := d.fset Reg.TTH_OWN.OWNED 0 n
    let d := d.modLink n fun l => { l with represent := owned }
    ((d.setErr 0x17 n 11).post 0x17 n 0x62 0).sendClaim n owned

/-- Finish a claim exchange when no sled is left to answer (R242). -/
def Dev.claimFinish (d : Dev) : Dev :=
  match d.claimX with
  | some x =>
    if x.waiting ≠ 0 then d
    else
      let d := { d with claimX := none }
      let d := d.fset Reg.TTH_CLAIM_STAT.ACCEPTED x.accepted
      let d := (d.fset Reg.TTH_CLAIM_STAT.BUSY 0).fset Reg.TTH_CLAIM_STAT.DONE 1
      d.post 0x17 0 0x63 x.accepted
  | none => d

/-- TETHER[0] sends a claim to sleds in parallel (R242). -/
def Dev.claimSend (d : Dev) (epoch sleds channels : Nat) : Dev :=
  let c := d.claimNo epoch
  let d := (d.fset Reg.TTH_CLAIM_STAT.BUSY 1).fset Reg.TTH_CLAIM_STAT.DONE 0
  let d := d.raiseTo Reg.TTH_CLAIM_STAT.LAST_EPOCH epoch
  let d := { d with media := { d.media with claimRejected := false } }
  let ns := (List.range 24).filter (bitOf sleds)
  let d := ns.foldl (fun d n => (d.fset Reg.TTH_OWN.CLAIM c n).sendClaim n channels) d
  Dev.claimFinish { d with claimX := some { epoch := epoch, sleds := sleds, channels := channels, waiting := sleds } }

/-- A Warden write of TTH_CLAIM_CMD.GO (R242). -/
def Dev.claimCmd (d : Dev) (epoch sleds channels : Nat) : Dev :=
  let d := ((d.fset Reg.TTH_CLAIM_CMD.EPOCH epoch).fset Reg.TTH_CLAIM_CMD.SLEDS sleds).fset Reg.TTH_CLAIM_CMD.CHANNELS
    channels
  if d.fget Reg.TTH_CLAIM_STAT.BUSY = 1 then d
  else if d.isEnabled 0x19 ∨ epoch < d.fget Reg.TTH_CLAIM_STAT.LAST_EPOCH then d.setErr 0x17 0 12
  else if epoch = 0 ∨ !d.on 0x17 then d
  else d.claimSend epoch sleds channels

/-- A CLAIM unanswered for 40 µs is sent again, or its sled is given up after two resends (R242). -/
def Dev.claimTimeout (d : Dev) (n : Nat) : Dev :=
  match d.claimX with
  | none => d
  | some x =>
    if !bitOf x.waiting n then d
    else
      let k := (Tab.look x.resends n).getD 0
      if k < 2 then
        Dev.sendClaim { d with claimX := some { x with resends := Tab.put x.resends n (k + 1) } } n x.channels
      else Dev.claimFinish { d with claimX := some { x with waiting := x.waiting - 2 ^ n } }

/-- A CLAIM_REPLY (R240 to R243). -/
def Dev.rxClaimReply (d : Dev) (h : RxHdr) (claim accepted rejected : Nat) (held busy : List Nat) : Dev :=
  d.rx h fun d =>
    let n := h.sled
    let d := d.modLink n fun l => { l with busy := (List.range 8).foldl (fun t c => Tab.put t c (busy.getD c 0)) [] }
    let mine := decide (claim = d.fget Reg.TTH_OWN.CLAIM n)
    let rep := (d.link n).represent
    let d := if mine && rep ≠ 0 then
        let d := d.fset Reg.TTH_OWN.OWNED (d.fget Reg.TTH_OWN.OWNED n ||| rep) n
        let d := d.modLink n fun l => { l with represent := 0 }
        d.claimLost n (rejected &&& rep)
      else d
    let d := match d.claimX with
      | some x =>
        if mine && bitOf x.waiting n then
          let ok := accepted &&& x.channels
          let bad := d.media.claimRejected || decide (rejected &&& x.channels ≠ 0)
          let d := { d with media := { d.media with claimRejected := bad } }
          let d := d.fset Reg.TTH_OWN.OWNED (d.fget Reg.TTH_OWN.OWNED n ||| ok) n
          let x := { x with waiting := x.waiting - 2 ^ n
                            accepted := if ok = x.channels then x.accepted + 2 ^ n else x.accepted }
          Dev.claimFinish { d with claimX := some x }
        else d
      | none => d
    d.seeHeld n held

/-! ### Temperature (R244, R256) -/

/-- A die's temperature is known anew: it crosses TEMP_MAX or falls by the hysteresis (R256). -/
def Dev.dieTemp (d : Dev) (n ch die t : Nat) : Dev :=
  let d := d.modLink n fun l => { l with temps := Tab.put l.temps (ch * 16 + die) (t % 256) }
  match d.sled n with
  | none => d
  | some r =>
    let key := n * 128 + ch * 16 + die
    let hot := d.media.throttled.contains key
    let now := signed 8 t
    let top := signed 8 r.tempMax
    let show_ := fun (d : Dev) => d.fset Reg.MDA_THERM.THROTTLED (min 255 d.media.throttled.length)
    if !hot ∧ top < now then
      let d := show_ { d with media := { d.media with throttled := key :: d.media.throttled } }
      (d.setErr 0x16 0 9).post 0x16 0 0x72 (n * 8 + ch + 256)
    else if hot ∧ now ≤ top - (d.fget Reg.MDA_THERM.HYST : Nat) then
      (show_ { d with media := { d.media with throttled := d.media.throttled.filter (· ≠ key) } }).post 0x16 0 0x72 (n * 8 + ch)
    else d

/-- A STATUS frame (R243, R244). -/
def Dev.rxStatus (d : Dev) (h : RxHdr) (temp flags : Nat) (held temps : List Nat) : Dev :=
  d.rx h fun d =>
    let n := h.sled
    let d := (d.fset Reg.TTH_ANCHOR.TEMP temp n).fset Reg.TTH_ANCHOR.FLAGS flags n
    let d := d.modLink n fun l => { l with lastStatus := d.now, late := false }
    let d := if bitOf flags 2 then d.anchorReset n else d
    let d := d.seeHeld n held
    (List.range 128).foldl (fun d i =>
      let t := temps.getD i 0x80
      if t % 256 = 0x80 then d.modLink n fun l => { l with temps := Tab.del l.temps i }
      else d.dieTemp n (i / 16) (i % 16) t) d

/-- No STATUS for 30 ms (R244). -/
def Dev.statusLate (d : Dev) (n : Nat) : Dev :=
  if !d.on 0x17 n || (d.link n).late || decide (d.now < (d.link n).lastStatus + 30000000) then d
  else ((d.modLink n fun l => { l with late := true }).setErr 0x17 n 10).post 0x17 n 0x64 0

/-! ### Issuing (R237, R253 to R255, R258) -/

/-- The operation block of R237, as four words. -/
def opBlock (opcode opt planes nsense blk page cw step : Nat) (thresh : List Nat) : List Word :=
  let bs := leBytes opcode 1 ++ leBytes opt 1 ++ leBytes planes 1 ++ leBytes nsense 1 ++ leBytes blk 2 ++ leBytes page 2 ++
    leBytes cw 1 ++ leBytes step 1 ++ leBytes 0 2 ++ ((List.range 15).map fun i => BitVec.ofNat 8 (thresh.getD i 0)) ++
    leBytes 0 5
  (List.range 4).map fun i => BitVec.ofNat 64 (leNat ((bs.drop (8 * i)).take 8))

/-- The AGE bin of R258. -/
def ageBin (ns : Nat) : Nat :=
  let day := 86400000000000
  if ns < 3600000000000 then 0 else if ns < day then 1 else if ns < 7 * day then 2 else if ns < 30 * day then 3
  else if ns < 90 * day then 4 else if ns < 180 * day then 5 else if ns < 365 * day then 6 else 7

/-- The CROSS bin of R258. -/
def crossBin (dt : Int) : Nat := if dt < -30 then 0 else if dt < 0 then 1 else if dt < 30 then 2 else 3

/-- The threshold set of a level-0 read of a chunk's block (R258). -/
def Dev.threshSet (d : Dev) (r : SledRec) (c : Chunk) (temp : Nat) : Nat :=
  let a := d.blkAddr c
  let ptime := d.mem.dram.read a 8
  let pt := d.mem.dram.read (a + 8) 1
  let wear := min 7 (8 * d.blkPE c / max 1 r.peRated)
  let idx := ageBin (d.now - ptime) * 32 + wear * 4 + crossBin (signed 8 temp - signed 8 pt)
  d.media.thresholds.read (4352 * r.profile + idx) 1

/-- The fifteen offsets of a set, and its NEXT. -/
def Dev.setOffsets (d : Dev) (profile set : Nat) : List Nat × Nat :=
  let a := 4352 * profile + 256 + 16 * set
  ((List.range 15).map fun i => d.media.thresholds.read (a + i) 1, d.media.thresholds.read (a + 15) 1)

/-- The thresholds a request reads with: level 0's set, or the set after it from level 1 on; SLC blocks read with zero
and then SET[0] (R258, R259). -/
def Dev.readThresh (d : Dev) (q : NandReq) (level : Nat) : List Nat :=
  match d.sled q.sled with
  | none => []
  | some r =>
    let c : Chunk := { group := q.sled * 8 + q.channel, die := q.die, plane := q.plane, block := q.block }
    if bitOf (d.blkFlags c) 1 then (if level = 0 then List.replicate 15 0 else (d.setOffsets r.profile 0).1)
    else
      let t := (Tab.look (d.link q.sled).temps (q.channel * 16 + q.die)).getD 0
      let s0 := d.threshSet r c t
      let (o0, next) := d.setOffsets r.profile s0
      if level = 0 then o0 else (d.setOffsets r.profile next).1

/-- The link can take an operation now: it is up, its record is loaded, the channel is owned, a credit is there, fewer than
4,096 operations are out, and the tag is free (R16, R231, R235). -/
def Dev.canIssue (d : Dev) (q : NandReq) (tag : Nat) : Bool :=
  d.linkUp q.sled && (d.sled q.sled).isSome && !d.media.needReload.contains q.sled && d.owns q.sled q.channel &&
    decide (0 < (d.link q.sled).opCredits) && decide (tag < 4096) &&
    (Tab.look d.media.ops (q.sled * 4096 + tag)).isNone &&
    decide ((d.media.ops.filter fun o => o.1 / 4096 = q.sled).length < 4096)

/-- Send an operation: its OP frame, its entry among the outstanding ones, one OP credit. -/
def Dev.sendOp (d : Dev) (q : NandReq) (tag : Nat) (block : List Word) : Dev :=
  let d := d.sendFrame q.sled { seq := 0, typ := 1, tag := tag, channel := q.channel, die := q.die, plane := q.plane
                                claim := d.fget Reg.TTH_OWN.CLAIM q.sled, words := block }
  let d := d.modLink q.sled fun l => { l with opCredits := l.opCredits - 1 }
  let op : NandOp := { use := q.use, opcode := q.opcode, channel := q.channel, die := q.die, plane := q.plane
                       block := q.block, page := q.page, issued := d.now, runSince := d.now
                       nsense := if q.opcode = 2 then q.opt else 0 }
  let d := d.sample (if q.opcode ≤ 2 then 0x09 else if q.opcode = 3 then 0x0A else 0x0B) none
  Dev.showOps { d with media := { d.media with ops := Tab.put d.media.ops (q.sled * 4096 + tag) op } } q.sled

/-- Some LDPC decoder group's domain is in D0 or D1 (R447). -/
def Dev.decoderUp (d : Dev) : Bool := (List.range 8).any fun g => d.domTakes (43 + g)

/-- Does a read keep off the reserved slots of others (R170, R176)? Reserved time of a plane is that of its holder: a read of no
admission, or of one without a slot there now, waits while it would run into another's slot. -/
def Dev.slotFree (d : Dev) (q : NandReq) : Bool :=
  let plane := ((q.sled * 8 + q.channel) * 16 + q.die) * 4 + q.plane
  let stop := d.now + d.sledReadNs q.sled
  let owner := match q.use with
    | .read j _ _ _ | .rebuild j _ _ => ((Tab.look d.media.jobs j).map (·.admNo)).getD 0
    | _ => 0
  let at_ (a : Admission) : Bool := a.slots.any fun s => s.plane = plane && decide (s.start < stop ∧ d.now < s.stop)
  (Tab.look d.ledger.adms owner).any at_ || !d.ledger.adms.any fun p => p.1 ≠ owner && at_ p.2

/-- A reserved read slot starts, or a window opens for a waiting read, and MEDIA sends it (R176, R254, R258, R259): in a
READ window, or for a G1 read on a die that is suspended or idle, never in another's reserved time, and only while a decoder
group can take its codewords (R447). -/
def Dev.readIssue (d : Dev) (n tag : Nat) : Dev :=
  match d.media.reqs[n]? with
  | none => d
  | some q =>
    let g := q.sled * 8 + q.channel
    let win := decide ((d.window g d.now).map (·.1) = some 0)
    let (level, g1) := match q.use with
      | .read _ _ l g => (l, g)
      | _ => (0, false)
    let idle := match d.dieOp q.sled q.channel q.die with
      | some (_, o) => o.suspended
      | none => true
    if !(q.opcode = 1 ∨ q.opcode = 2) ∨ !d.canIssue q tag ∨ !(win || g1) ∨ !idle ∨ d.quiet ∨ !d.slotFree q ∨ !d.decoderUp then d
    else
      let d := { d with media := { d.media with reqs := d.media.reqs.eraseIdx n } }
      let step := ((d.sled q.sled).map (·.step)).getD 0
      let blk := opBlock q.opcode 0 0 (if q.opcode = 2 then q.opt else 0) q.block q.page q.cw
        (if q.opcode = 2 then step else 0) (d.readThresh q level)
      d.sendOp q tag blk

/-- READ window starts an operation meets from a position, progressing only in windows of its own kind (R253). -/
def readStarts (own : Nat) : Nat → List Gate → Nat → Nat
  | 0, _, _ => 0
  | _, [], _ => 0
  | f + 1, g :: gs, left =>
    if left = 0 then 0
    else if g.kind = 0 then 1 + readStarts own f (gs ++ [g]) left
    else if g.kind = own then readStarts own f (gs ++ [g]) (left - g.ns)
    else readStarts own f (gs ++ [g]) left

/-- The READ window starts an operation of `ns` issued now can meet. -/
def Dev.windowMeets (d : Dev) (g own ns : Nat) : Nat :=
  match d.media.gates.groups[g]? with
  | none => 0
  | some (l, _) =>
    let gs := d.media.gates.lists.getD l []
    match d.window g d.now with
    | none => 0
    | some (k, rest) =>
      let i := (gs.findIdx? fun x => x.kind = k && decide (rest ≤ x.ns)).getD 0
      let order := gs.drop (i + 1) ++ gs.take (i + 1)
      readStarts own (64 * (ns / 1000 + 2)) order (if k = own then ns - rest else ns)

/-- The 4 codewords of a chunk of a stripe: the slots' data, or the parity over them (R236, R263 to R266). -/
def Dev.chunkPage (d : Dev) (s : Stripe) (b : Band) (pos : Nat) : List Codeword :=
  let cw (n : Nat) : Codeword := match s.slots.getD n .empty with
    | .unit i => match Tab.look d.map.staging i with
      | some u => { data := u.data, rec_ := some u.rec_ }
      | none => {}
    | .move m | .fill m => { data := m.data, rec_ := some { m.rec_ with copy := true } }
    | .mapPage p _ data =>
      let r : URec := { wgen := 0, nsh := p / 2 ^ 32, lba := p % 2 ^ 32, copy := true }
      { data := data, rec_ := some { r with tag := finishTag (dataCrc (data.bytes 0 4096)) r.laddr 0 } }
    | .empty => {}
  if pos < b.k then (List.range 4).map fun i => cw (4 * pos + i)
  else
    (List.range 4).map fun i =>
      { data := Memory.setBytes [] 0 (rsParity (pos - b.k) 4128 ((List.range b.k).map fun j => (cw (4 * j + i)).bytes)) }

/-- KIND of a chunk's page record (R198). -/
def Stripe.kind (s : Stripe) (b : Band) (pos : Nat) : Nat :=
  if b.k ≤ pos then 4
  else if s.dump then 3
  else b2n (((s.slots.drop (4 * pos)).take 4).any fun u => match u with
    | .mapPage _ _ _ => true
    | _ => false)

/-- The page record of a chunk's page (R198): SEQ counts on through the chunks of the stripe, TEMP is the die's last known
temperature, and PTIME, the instant at which the program will have ended, is a free value (log 113). -/
def Dev.chunkSpare (d : Dev) (s : Stripe) (b : Band) (pos : Nat) : List Byte :=
  let c := b.chunks.getD pos { group := 0, die := 0, plane := 0, block := 0 }
  let temp := (Tab.look (d.link (c.group / 8)).temps (c.group % 8 * 16 + c.die)).getD 0
  pageRecord (s.seq + pos) (Config.freeValue d.free).toNat temp (s.kind b pos) (d.fget Reg.CAMP_STRAP.UNIT_ID)
    ((d.chunkPage s b pos).flatMap Codeword.recBytes)

/-- MEDIA issues a program or an erase in its window, when its suspend count and its die's temperature allow, the first program
of a block once the block is erased (R294); a program of the dump waits for neither (R253, R256, R289). The page of a program takes four data credits (R235). -/
def Dev.programIssue (d : Dev) (n tag : Nat) : Dev :=
  match d.media.reqs[n]? with
  | none => d
  | some q =>
    let g := q.sled * 8 + q.channel
    let dump : Bool := match q.use with
      | .dump _ _ => true
      | _ => false
    match d.sled q.sled with
    | none => d
    | some r =>
      let own := if q.opcode = 3 then 1 else 2
      let ns := (if q.opcode = 3 then r.tprogMax else r.tbersMax) * 1000
      let ok := decide ((d.window g d.now).map (·.1) = some own) && decide (d.windowMeets g own ns ≤ r.susMax - r.g1Sus) &&
        !d.media.throttled.contains (q.sled * 128 + q.channel * 16 + q.die) && (d.dieOp q.sled q.channel q.die).isNone &&
        !d.quiet && (decide (q.opcode = 4 ∨ q.page ≠ 0) || bitOf (d.blkFlags q.chunk) 3)
      if !(q.opcode = 3 ∨ q.opcode = 4) ∨ !d.canIssue q tag ∨ !(dump || ok) ∨
          (q.opcode = 3 ∧ (d.link q.sled).dataCredits < 4) then d
      else
        let d := { d with media := { d.media with reqs := d.media.reqs.eraseIdx n } }
        let slc : Bool := match q.use with
          | .program s _ | .dump s _ =>
            dump || ((Tab.look d.stripe.stripes s).bind fun x => Tab.look d.stripe.bands x.band).any (·.slc)
          | _ => false
        let d := match q.use with
          | .program s c | .dump s c =>
            match Tab.look d.stripe.stripes s with
            | some x => match Tab.look d.stripe.bands x.band with
              | some b =>
                let d := d.sendFrame q.sled { seq := 0, typ := 2, tag := tag, channel := q.channel, die := q.die
                                              plane := q.plane, claim := d.fget Reg.TTH_OWN.CLAIM q.sled
                                              page := d.chunkPage x b c, spare := d.chunkSpare x b c }
                { d with free := d.free + 1 }.modLink q.sled fun l => { l with dataCredits := l.dataCredits - 4 }
              | none => d
            | none => d
          | _ => d
        d.sendOp q tag (opBlock q.opcode (b2n slc) 0 0 q.block q.page 0 0 [])

/-- Send SUSPEND for the operation on a die: for the READ window that is TSUS_MAX away, or as a G1 suspend (R254, R255).
Each counts against its allowance. -/
def Dev.suspendSend (d : Dev) (n ch die tag : Nat) (g1 : Bool) : Dev :=
  match d.dieOp n ch die, d.sled n with
  | some (k, o), some r =>
    let q : NandReq := { use := .suspend g1, opcode := 5, sled := n, channel := ch, die := die, plane := o.plane, block := 0
                         page := 0 }
    let room := decide (o.sched + o.g1 < r.susMax)
    let ahead := match d.window (n * 8 + ch) d.now with
      | some (kind, rest) => decide (kind ≠ 0 ∧ rest ≤ r.tsusMax * 100)
      | none => false
    let may := if g1 then d.g1May n ch die d.now else room && ahead
    let slcDump : Bool := match o.use with
      | .dump _ _ => true
      | _ => false
    if o.suspended || slcDump || !may || !d.canIssue q tag then d
    else
      let o := if g1 then { o with g1 := o.g1 + 1, suspAt := d.now } else { o with sched := o.sched + 1, suspAt := d.now }
      let d := { d with media := { d.media with ops := Tab.put d.media.ops k o } }
      let d := if g1 then d.bump Reg.MDA_SUSP.G1 else d.bump Reg.MDA_SUSP.SCHEDULED
      d.sendOp q tag (opBlock 5 0 0 0 0 0 0 0 [])
  | _, _ => d

/-- Send RESUME at the READ window's end, or when the die's last reserved read ends, a G1 suspend serving every slot that starts
within 20 µs of it, unless the power-fail sequence keeps it suspended (R254, R255, R288). -/
def Dev.resumeSend (d : Dev) (n ch die tag : Nat) : Dev :=
  match d.dieOp n ch die with
  | some (_, o) =>
    let q : NandReq := { use := .resume, opcode := 6, sled := n, channel := ch, die := die, plane := o.plane, block := 0
                         page := 0 }
    let reading := d.media.ops.any fun x =>
      x.1 / 4096 = n && x.2.channel = ch && x.2.die = die && (x.2.opcode = 1 || x.2.opcode = 2)
    let kept := d.ledger.adms.any fun a => a.2.slots.any fun s =>
      s.plane / 4 = (n * 8 + ch) * 16 + die && decide (d.now < s.stop ∧ s.start ≤ max d.now (o.suspAt + 20000))
    let win := decide ((d.window (n * 8 + ch) d.now).map (·.1) = some 0)
    if !o.suspended || reading || kept || win || d.quiet || !d.canIssue q tag then d
    else d.sendOp q tag (opBlock 6 0 0 0 0 0 0 0 [])
  | none => d

/-- At the power-fail sequence MEDIA sends SUSPEND for every running program and erase, under the lowest free tag, and never
resumes them (R288, R458). -/
def Dev.suspendAll (d : Dev) : Dev :=
  let runs := d.media.ops.filter fun o => (o.2.opcode = 3 || o.2.opcode = 4) && !o.2.suspended
  let d := runs.foldl (fun d o =>
    let n := o.1 / 4096
    let tag := ((List.range 4096).find? fun t => (Tab.look d.media.ops (n * 4096 + t)).isNone).getD 4096
    let q : NandReq := { use := .suspend false, opcode := 5, sled := n, channel := o.2.channel, die := o.2.die
                         plane := o.2.plane, block := 0, page := 0 }
    if d.canIssue q tag then d.sendOp q tag (opBlock 5 0 0 0 0 0 0 0 []) else d) d
  { d with media := { d.media with ops := d.media.ops.map fun o =>
      if o.2.opcode = 3 || o.2.opcode = 4 then (o.1, { o.2 with suspended := true }) else o } }

/-! ### Responses (R238, R248) -/

/-- The record's maximum for an operation, ns (R248). -/
def SledRec.maxNs (r : SledRec) (o : NandOp) : Nat :=
  match o.use with
  | .dump _ _ => r.tslcMax * 1000
  | _ =>
    if o.opcode = 1 ∨ o.opcode = 2 then r.trMax * 100
    else if o.opcode = 3 then r.tprogMax * 1000
    else if o.opcode = 4 then r.tbersMax * 1000
    else if o.opcode = 5 then r.tsusMax * 100 else 2 ^ 64

/-- A response over its maximum (R248). -/
def Dev.timing (d : Dev) (n : Nat) (o : NandOp) (exec : Nat) : Dev :=
  match d.sled n with
  | none => d
  | some r =>
    if exec ≤ r.maxNs o then d
    else
      let d := (d.bump Reg.MDA_TIMING.COUNT).fset Reg.MDA_TIMING.SLED n
      let d := match o.use with
        | .read j _ _ _ | .rebuild j _ _ => d.modJob j fun x => { x with timing := true }
        | _ => d
      (d.setErr 0x16 0 8).post 0x16 0 0x71 (n * 256 + o.opcode)

/-- A program has passed: the block table takes its first page's time and temperature (R257), and its chunk has passed. -/
def Dev.programPassed (d : Dev) (n : Nat) (o : NandOp) (s c temp : Nat) : Dev :=
  let ch : Chunk := { group := n * 8 + o.channel, die := o.die, plane := o.plane, block := o.block }
  let slc : Bool := match o.use with
    | .dump _ _ => true
    | _ => false
  let d := if o.page = 0 then ((d.blkWrite ch 0 8 d.now).blkWrite ch 8 1 temp).blkWrite ch 9 1 (4 + 2 * b2n slc) else d
  d.chunkPassed s c

/-- A frame of the anchor is consumed: LINK returns its credits, of the OP kind for a RESP and one for each 4,672 bytes of an
RDATA (R235, DEDUCED, log 116). -/
def Dev.returnCredits (d : Dev) (n op data : Nat) : Dev :=
  d.sendFrame n { seq := 0, typ := 0x0F, words := [BitVec.ofNat 64 (op + data * 2 ^ 16)] }

/-- The held claim of a channel as a RESP gives it: it is shown, and a higher one than this unit's loses the channel (R242). -/
def Dev.seeClaim (d : Dev) (n ch held : Nat) : Dev :=
  let d := d.fset (if ch % 2 = 0 then Reg.TTH_HELD.EVEN.nth (ch / 2) else Reg.TTH_HELD.ODD.nth (ch / 2)) held n
  if d.fget Reg.TTH_OWN.CLAIM n < held then d.claimLost n (2 ^ ch) else d

/-- A RESP frame ends an operation (R238). -/
def Dev.rxResp (d : Dev) (h : RxHdr) (tag result temp exec held : Nat) : Dev :=
  d.rx h fun d =>
    let n := h.sled
    let key := n * 4096 + tag
    match Tab.look d.media.ops key with
    | none => d
    | some o =>
      let d := Dev.showOps { d with media := { d.media with ops := Tab.del d.media.ops key } } n
      let d := (d.returnCredits n 1 0).timing n o exec
      let d := d.dieTemp n o.channel o.die temp
      if result = 9 then ((d.seeClaim n o.channel held).anchorReset n).opFailed n o
      else if result = 2 then
        let d := match o.use with
          | .read j i _ _ | .rebuild j i _ =>
            (d.modJobUnit j i fun u => { u with lost := true, bad := true, done := true }).finishJob j
          | _ => d.opFailed n o
        (d.seeClaim n o.channel held).claimLost n (2 ^ o.channel)
      else
        let d := d.seeClaim n o.channel held
        match o.use with
        | .suspend _ =>
          if result = 0 ∨ result = 6 then
            match d.dieOp n o.channel o.die with
            | some (k, x) =>
              let x := { x with suspended := true, ran := x.ran + (d.now - x.runSince) }
              { d with media := { d.media with ops := Tab.put d.media.ops k x } }
            | none => d
          else d
        | .resume =>
          if result = 0 then
            match d.dieOp n o.channel o.die with
            | some (k, x) =>
              { d with media := { d.media with ops := Tab.put d.media.ops k { x with suspended := false, runSince := d.now } } }
            | none => d
          else d
        | .program s c | .dump s c => if result = 0 then d.programPassed n o s c temp else d.opFailed n o
        | .erase b c => d.chunkErased b c (result = 0)
        | _ => if result = 0 then d else d.opFailed n o

/-- An RDATA frame delivers a codeword; `pass` is what its LDPC decode gives, which no rule of the spec computes, and `cw`
the decoded codeword (R236, R259, R260). -/
def Dev.rxData (d : Dev) (h : RxHdr) (tag : Nat) (pass : Bool) (cw : Codeword) : Dev :=
  d.rx h fun d =>
    match Tab.look d.media.ops (h.sled * 4096 + tag) with
    | none => d
    | some o =>
      let q := 1 + (if o.opcode = 2 then o.nsense / 2 else 0)
      let d := d.returnCredits h.sled 0 q
      match o.use with
      | .read j i _ _ =>
        match (Tab.look d.media.jobs j).bind fun x => x.units[i]? with
        | some u =>
          let d := d.countRead u.entry
          if pass then d.decoded j i cw.rec_ cw.data else d.climb j i
        | none => d
      | .rebuild j i pos => d.rebuildGot j i pos (if pass then some cw else none)
      | _ => d

/-- Has an operation had its maximum plus 50 µs without a response (R248)? A program's or erase's time suspended does not
count. -/
def Dev.overdue (d : Dev) (n : Nat) (o : NandOp) : Bool :=
  let ran := o.ran + (if o.suspended then 0 else d.now - o.runSince)
  (d.sled n).all fun r => decide (r.maxNs o + 50000 ≤ ran)

/-- An operation with no response within its maximum plus 50 µs (R248). -/
def Dev.opTimeout (d : Dev) (n tag : Nat) : Dev :=
  match Tab.look d.media.ops (n * 4096 + tag) with
  | none => d
  | some o =>
    if !d.overdue n o then d
    else
    let d := Dev.showOps { d with media := { d.media with ops := Tab.del d.media.ops (n * 4096 + tag) } } n
    (d.bump Reg.TTH_OPS.TIMEOUTS 1 n).opFailed n o

/-! ### Calls (R261) -/

/-- A unit of zeros, delivered without a die operation (R261). -/
def zeroUnit (tag token place : Nat) : PlainUnit :=
  { tag := tag, token := token, index := place, wgen := 0, data := [], crc := dataCrc (List.replicate 4096 0) }

/-- How a block is read from a media entry of its map unit, or that it reads as zeros. -/
def Dev.mediaUnit (d : Dev) (e lba place : Nat) : JobUnit :=
  if entIsMedia e then { entry := if d.mapSpan = 4 then e + 4 * (lba % 4) else e, lba := lba, place := place }
  else { entry := e, lba := lba, place := place, done := true }

/-- The blocks of a lookup in one map unit, as its captured entry says: those staged from staging, as they stood then, though a
later write may have superseded them (R211); in 16 KiB mode the others from the group's former entry; or from the media; or as
zeros (R193, R261). -/
def Dev.readUnits (d : Dev) (l : Lookup) (u e gen : Nat) : List JobUnit :=
  let sp := d.mapSpan
  let lbas := (List.range sp).map (· + u * sp) |>.filter fun b => decide (l.slba ≤ b ∧ b < l.slba + l.nblk)
  lbas.map fun b =>
    let place := b - l.slba
    if entIsStaged e then
      match d.stagedOf l.nsh u gen (fun x => x.rec_.lba = b) with
      | some x => { entry := e, lba := b, place := place, decoded := true, rec_ := some x.rec_, data := x.data }
      | none => d.mediaUnit (((d.stagedOf l.nsh u gen fun _ => true).map (·.former)).getD entDealloc) b place
    else d.mediaUnit e b place

/-- The read call. Units that are staged or hold no data take no die operation. -/
def Dev.mediaRead (d : Dev) (id : Nat) : Dev :=
  d.serve id 7 1 fun a d =>
    if (d.inst 0x16 0).safe then d.reply id 6
    else if !d.serves 0x16 then d.reply id 5
    else
      let w := a.arg 0
      let first := bitsOf w 47 32
      let count := bitsOf w 63 48
      let adm := w % 2 ^ 32
      let h := a.arg 1 % 2 ^ 32
      if count = 0 ∨ 256 < count then d.reply id 3
      else
        match Tab.look d.map.lookups h with
        | none => d.reply id 0x11
        | some l =>
          match Tab.look d.ledger.adms adm with
          | none => d.reply id 0x10
          | some ad =>
            if l.tenant ≠ a.tenant ∨ ad.tag ≠ l.tag ∨ l.entries.length < first + count then d.reply id 0x10
            else
              let us := ((d.captured l).drop first |>.take count).flatMap fun c => d.readUnits l c.1 c.2.1 c.2.2
              let j := d.media.nextJob
              let job : ReadJob := { ctx := a.context, cmdref := a.cmdref, tenant := a.tenant, nsh := a.nsh, rope := a.arg 2
                                     admNo := adm, lookup := h, dest := a.arg 3, grade := ad.grade, units := us
                                     gen := a.gen }
              let media := us.zipIdx.filter fun p => !p.1.decoded && !p.1.done
              let here := fun (u : JobUnit) => d.sledState (entSled u.entry) = 0
              let reqs := (media.filter fun p => here p.1).map fun p => readReq j p.2 0 (ad.grade = 1) p.1.entry
              let away := (media.filter fun p => !here p.1).map (·.2)
              let d := { d with media := { d.media with jobs := Tab.put d.media.jobs j job, nextJob := j + 1
                                                        reqs := d.media.reqs ++ reqs } }
              let zeros := (us.filter (·.done)).map fun u => zeroUnit l.tag (a.arg 3) u.place
              let d := { d with cipher := { d.cipher with plain := d.cipher.plain ++ zeros } }
              let d := away.foldl (fun d i => d.toLevel4 j i) d
              (d.reply id 0).finishJob j

/-- The work call (R261): tenant 0 hands MEDIA a work item's TOKEN, and the band it names moves, as each item of relocation
work moves one whole band (R282, DEDUCED, log 116). -/
def Dev.mediaWork (d : Dev) (id : Nat) : Dev :=
  d.serve id 7 0x10 fun a d =>
    if (d.inst 0x16 0).safe then d.reply id 6
    else if !d.serves 0x16 then d.reply id 5
    else if a.tenant ≠ 0 then d.reply id 1
    else
      let d := match Tab.look d.stripe.items (a.arg 0) with
        | some n => d.startMove n
        | none => d
      d.reply id 0

/-! ### Sled records (R246, R247) -/

/-- A sled record of the table in DRAM: none when VALID = 0, or the low byte of the code that refuses it (R247). -/
def Dev.readSled (d : Dev) (n : Nat) : Except Nat (Option SledRec) :=
  let a := d.fget Reg.MDA_SLED_TAB.ADDR * 4096 + 64 * n
  let m := d.mem.dram
  let f (o k : Nat) : Nat := m.read (a + o) k
  if f 0 1 % 2 = 0 then .ok none
  else
    let r : SledRec :=
      { cell := f 1 1, channels := f 2 1, dies := f 3 1, planes := f 4 1, profile := f 5 1, blocks := f 6 2, pages := f 8 2
        phys := f 10 2, trMax := f 12 2, xCh := f 14 2, tsusMax := f 16 2, tprogMax := f 18 2, tbersMax := f 20 2
        susMax := f 22 1, g1Sus := f 23 1, peRated := f 24 4, tresMin := f 28 2, tempMax := f 30 1, step := f 31 1
        tslcMax := f 32 2 }
    if !d.on 0x17 n || decide (r.channels ≠ d.fget Reg.TTH_IDENT.CHANNELS n) || decide (r.dies ≠ d.fget Reg.TTH_IDENT.DIES n)
        || decide (r.planes ≠ d.fget Reg.TTH_IDENT.PLANES n) then .error 0x20
    else if ¬ (r.cell = 3 ∨ r.cell = 4) ∨ r.phys < 18688 then .error 0x21
    else if 200 < r.tsusMax ∨ r.susMax < r.g1Sus then .error 0x22
    else if [r.channels, r.dies, r.planes, r.blocks, r.pages, r.trMax, r.xCh, r.tsusMax, r.tprogMax, r.tbersMax, r.susMax,
        r.peRated, r.tempMax, r.step, r.tslcMax].contains 0 then .error 6
    else if 16 < r.dies ∨ 4 < r.planes ∨ 3 < r.profile ∨ 4096 < r.blocks ∨ 1024 < r.pages ∨ 63 < r.step ∨
        f 0 1 ≠ 1 then .error 2
    else .ok (some r)

/-- MDA_SLEDS shows the loaded records. -/
def Dev.showSleds (d : Dev) : Dev :=
  d.fset Reg.MDA_SLEDS.VALID ((d.sledList.map fun n => 2 ^ n).foldl (· + ·) 0)

/-- A write of MDA_SLED_RELOAD.GO (R247): the sled's record is read and checked; a good one, over a link in service, returns an
ABSENT sled (R231, R271). -/
def Dev.sledReload (d : Dev) (n : Nat) : Dev :=
  if d.fget Reg.MDA_SLED_RELOAD.BUSY = 1 ∨ !d.on 0x16 ∨ 24 ≤ n then d
  else
    let d := d.fset Reg.MDA_SLED_RELOAD.SLED n
    match d.readSled n with
    | .error e => d.fset Reg.MDA_SLED_RELOAD.RESULT e
    | .ok none =>
      Dev.showSleds (({ d with media := { d.media with sleds := Tab.del d.media.sleds n } }).fset
        Reg.MDA_SLED_RELOAD.RESULT 0)
    | .ok (some r) =>
      let d := { d with media := { d.media with sleds := Tab.put d.media.sleds n r } }
      let d := (d.fset Reg.MDA_SLED_RELOAD.RESULT 0).showSleds
      if !d.linkUp n then d
      else
      let d := { d with media := { d.media with needReload := d.media.needReload.filter (· ≠ n) } }
      let d := if d.sledState n = 1 then d.setSledState n 0 else d
      { d with stripe := { d.stripe with absentSince := Tab.del d.stripe.absentSince n } }

/-! ### Gate lists (R250 to R252) -/

/-- The gate-list table in DRAM at an address (R250). -/
def Dev.readGates (d : Dev) (a : Nat) : GateTab :=
  let m := d.mem.dram
  let n := m.read a 1 % 16 + 1
  let ent (l i : Nat) : Gate :=
    let w := m.read (a + 0x100 + 256 * l + 4 * i) 4
    { kind := bitsOf w 31 30, ns := bitsOf w 27 0 }
  { cycle := m.read (a + 4) 4
    lists := (List.range n).map fun l => (List.range (m.read (a + 8 + 8 * l) 1 % 128)).map (ent l)
    groups := (List.range 192).map fun g => (m.read (a + 0x1100 + 8 * g) 1 % 16, m.read (a + 0x1104 + 8 * g) 4) }

/-- The longest stretch without a READ window, around the cycle; the first argument is the run so far. -/
def longestGap : Nat → Nat → List Gate → Nat
  | run, best, [] => max run best
  | run, best, g :: gs => if g.kind = 0 then longestGap 0 (max run best) gs else longestGap (run + g.ns) best gs

/-- The check of R251: 0, or the reason's low byte; and the table's own ranges (0x1602). -/
def GateTab.check (t : GateTab) : Nat :=
  let used := (t.groups.map (·.1)).dedup
  if t.cycle < 10000 ∨ 10000000 < t.cycle ∨ (t.lists.any fun l => (l.map (·.ns)).foldl (· + ·) 0 ≠ t.cycle) then 0x26
  else if t.lists.any fun l => !(l.any fun g => g.kind = 1) || !(l.any fun g => g.kind = 2) then 0x25
  else if used.any fun i =>
      let l := t.lists.getD i []
      (l.any fun g => g.kind = 0 && decide (g.ns < 10000)) || decide (40000 < longestGap 0 0 (l ++ l)) then 0x24
  else if (t.groups.any fun g => decide (t.lists.length ≤ g.1 ∨ t.cycle ≤ g.2)) || (t.lists.any fun l =>
      decide (l.length = 0 ∨ 64 < l.length) || l.any fun g => decide (g.kind = 3)) then 2
  else 0

/-- The start of a list accepted at instant `r` (R252), and whether it is late. -/
def mediaGateStart (base cycle r : Nat) : Nat × Bool :=
  if r + 2000000 ≤ base then (base, false)
  else (base + (r + 2000000 - base + cycle - 1) / max 1 cycle * cycle, true)

/-- A checked table is accepted at this instant: its start is set and a late one is reported (R252). -/
def Dev.acceptGates (d : Dev) (t : GateTab) (first : Bool) : Dev :=
  let (s, late) := mediaGateStart (d.reg 0x16 0 Reg.MDA_GL_BASE.NS.off).toNat t.cycle d.now
  let d := d.fset Reg.MDA_GL_LATE.LATE_START (b2n late)
  let d := if late then ((d.bump Reg.MDA_GL_LATE.COUNT).setErr 0x16 0 10).post 0x16 0 0x70 s else d
  if first then ({ d with media := { d.media with gates := t } }).fset Reg.MDA_GL_START.NS s
  else { d with media := { d.media with nextGates := some (t, s) } }

/-- A media gate list reaches its start: it is active and the old generation is released (R24, R252). -/
def Dev.mediaListStart (d : Dev) : Dev :=
  match d.media.nextGates with
  | some (t, s) =>
    if d.now < s then d
    else
      let d := { d with media := { d.media with gates := t, nextGates := none } }
      let d := d.fset Reg.MDA_GL_START.NS s
      if (d.inst 0x16 0).swapReady then d.takeGen 0x16 0 false else d
  | none => d

end Sys2Proof.Machine
end

