-- ==== Sys2Proof/Machine/HostqCore.lean ====
section
/-! DEFINITION. HOSTQ: arrivals, completions, asynchronous events, aborts, resets and lost queues (R142 to R158). -/

namespace Sys2Proof.Machine

/-! ### Lookups -/

/-- A queue, a controller, a tag. -/
def Dev.queue (d : Dev) (ctx : Nat) : Option Queue := Tab.look d.hostq.queues ctx
def Dev.ctrl (d : Dev) (c : Nat) : Option Ctrl := Tab.look d.hostq.ctrls c
def Dev.tag (d : Dev) (key : Nat) : Option Tag := Tab.look d.hostq.tags key

/-- Change a controller. -/
def Dev.modCtrl (d : Dev) (c : Nat) (f : Ctrl → Ctrl) : Dev :=
  match d.ctrl c with
  | some x => { d with hostq := { d.hostq with ctrls := Tab.put d.hostq.ctrls c (f x) } }
  | none => d

/-- Change a tag. -/
def Dev.modTag (d : Dev) (key : Nat) (f : Tag → Tag) : Dev :=
  match d.tag key with
  | some t => { d with hostq := { d.hostq with tags := Tab.put d.hostq.tags key (f t) } }
  | none => d

/-- I/O queues of the shelf that the partner holds, as far as this unit is told: those of the contexts its transport records
have opened (R334; log 93). -/
def Dev.partnerIoq (d : Dev) : Nat :=
  (d.belay.precs.filter fun t => t.kind = 1 &&
    decide ((readCtx (Memory.setBytes [] 0 (t.body.flatMap fun w => leBytes w.toNat 8)) 0).qid ≠ 0)).length

/-- HOSTQ_OCC shows the controllers, and the I/O queues of the shelf. -/
def Dev.showHostq (d : Dev) : Dev :=
  let d := d.fset Reg.HOSTQ_OCC.CTRL d.hostq.ctrls.length
  d.fset Reg.HOSTQ_OCC.IOQ ((d.hostq.queues.filter fun q => decide (q.2.qid ≠ 0)).length + d.partnerIoq)

/-- Opcode, NSID and a dword of a submission entry. -/
def sqeOpcode (s : List Word) : Nat := field (s.getD 0 0) 7 0
def sqeNsid (s : List Word) : Nat := field (s.getD 0 0) 63 32
def sqeDw (s : List Word) (n : Nat) : Nat :=
  if n % 2 = 0 then field (s.getD (n / 2) 0) 31 0 else field (s.getD (n / 2) 0) 63 32
def sqeCid (s : List Word) : Nat := field (s.getD 0 0) 31 16

/-- Starting LBA and 0-based number of blocks (R119). -/
def sqeSlba (s : List Word) : Nat := (s.getD 5 0).toNat
def sqeNlb (s : List Word) : Nat := field (s.getD 6 0) 15 0

/-- Does the command's keyed SGL ask for remote invalidation (NVMe over Fabrics, PRESUMED: SGL identifier 4Fh)? -/
def sqeInval (s : List Word) : Bool := field (s.getD 4 0) 63 56 = 0x4F

/-- Bytes a command moves at most: its SGL's, and of a Read or Write no more than its blocks (R151). -/
def Tag.moves (t : Tag) : Nat :=
  if t.qid ≠ 0 ∧ sqeOpcode t.sqe ∈ [1, 2] then min t.sglLen ((sqeNlb t.sqe + 1) * 4096) else t.sglLen

/-- The ANA group of a namespace, and the unit that owns it. -/
def Dev.groupOwner (d : Dev) (g : Nat) : Nat := bitsOf (d.fget Reg.HOSTQ_ANA_OWN.UNIT) (g - 1) (g - 1)

/-- Does this unit own a group? -/
def Dev.ownsGroup (d : Dev) (g : Nat) : Bool := d.groupOwner g = d.fget Reg.CAMP_STRAP.UNIT_ID

/-- The ANA state this unit reports for a group (R141): what ownership gives, unless an exception is in force. A unit that
is not paired reports the groups of an owner it has not taken over as Inaccessible; from the loss of the partner to the end
of a takeover (STATE 3) arriving commands wait for it and the group stays Non-Optimized (log 94). -/
def Dev.anaState (d : Dev) (g : Nat) : Ana :=
  match Tab.look d.hostq.ana g with
  | some a => a
  | none =>
    if d.groupOwner g = d.fget Reg.CAMP_STRAP.UNIT_ID then .optimized
    else if d.fget Reg.BLY_STATUS.STATE ∈ [2, 3, 5] then .nonOptimized
    else .inaccessible

/-- The namespace of a controller's subsystem under an NSID, attached to it (R136, R137). -/
def Dev.nsFor (d : Dev) (c : Ctrl) (nsid : Nat) : Option (Nat × Ns) :=
  (d.hostq.nss.find? fun p => p.2.nsid = nsid && p.2.subsys = c.subsys && p.2.tenant = c.tenant && p.2.attached)

/-! ### Completions (R144, R146, R150, R187, R464) -/

/-- Count a completion (R464): discovery controllers count against tenant 0. -/
def Dev.countDone (d : Dev) (ctrl tenant qid op : Nat) (c : Cqe) : Dev :=
  let t := if (d.ctrl ctrl).any (·.discovery) then 0 else tenant
  let idx := if qid = 0 then 2 else if op = 2 then 0 else if op = 1 ∨ op = 8 then 1 else 2
  let d := d.tcount t idx 1
  let d := if c.sct = 0 ∧ c.sc = 0 then d else d.tcount t 14 1
  let d := if c.sct = 0 ∧ c.sc = 0x21 then d.tcount t 13 1 else d
  d.sample 0x04 (some t)

/-- Free every FLUSH or NSWIDE entry of a command, which stayed until its operation was complete (R180, R187). -/
def Dev.finishLocks (d : Dev) (key : Nat) : Dev :=
  let mine := d.rope.locks.filter fun p => decide (tagKey p.2.ctx p.2.cmdref = key) &&
    decide (p.2.kind = .flush ∨ p.2.kind = .nswide)
  mine.foldl (fun d p => (d.trace p.2).freeLockAt p.1) d

/-- HOSTQ hands a command's completion to its transport: I/O completions carry the rope number (R187); what is held for
the command is released. A tag already Completed or unknown changes nothing. `counted` is false for a completion that
the partner counted (R466). -/
def Dev.hostDone (d : Dev) (key : Nat) (c : Cqe) (counted : Bool := true) : Dev :=
  match d.tag key with
  | none => d
  | some t =>
    if t.state = .completed then d
    else
      let c := if t.qid = 0 then c else { c with dw0 := t.rope % 2 ^ 32, dw1 := t.rope / 2 ^ 32 }
      let c := { c with sqhd := ((d.queue t.ctx).map (·.head)).getD 0 }
      let d := if counted then d.countDone t.ctrl t.tenant t.qid (sqeOpcode t.sqe) c else d
      let d := (d.finishLocks key).dropAdmsOf key
      let d := d.discard fun u => u.tag = some key
      let d := { d with hostq := { d.hostq with flushes := Tab.del d.hostq.flushes key }
                        rope := { d.rope with marks := Tab.del d.rope.marks (t.ctrl * 2 ^ 32 + t.qid * 65536 + t.cid) } }
      if t.remote.isSome then
        { d with hostq := { d.hostq with tags := Tab.del d.hostq.tags key }
                 belay := { d.belay with fwdBack := d.belay.fwdBack ++ [(key, c, t.deadline)] } }
      else if (d.queue t.ctx).isNone then { d with hostq := { d.hostq with tags := Tab.del d.hostq.tags key } }
      else
        let d := d.modTag key fun t => { t with state := .completed, pendingCqe := none }
        let o : Done := { ctx := t.ctx, cid := t.cid, cqe := c, tenant := t.tenant, deadline := t.deadline }
        let d := { d with hostq := { d.hostq with outbox := d.hostq.outbox ++ [o] } }
        d.sendResponse t.ctx key (t.qid * 65536 + t.cid) (sqeInval t.sqe)

/-- Complete with data. -/
def Dev.hostData (d : Dev) (key : Nat) (h : HostData) : Dev :=
  (d.modTag key fun t => { t with data := some h }).hostDone key { sct := 0, sc := 0, dnr := false }

/-- A write-type command: its completion waits for its commit cycle (R27). -/
def Tag.writes (t : Tag) : Bool := decide (t.qid ≠ 0 ∧ 0 < t.rope) && [1, 8, 9].contains (sqeOpcode t.sqe)

/-- Has the section that carries a write of a cycle and grade been confirmed, or the cycle been released (R27, R189)? -/
def Dev.cycleFree (d : Dev) (cycle grade : Nat) : Bool :=
  if grade = 1 then cycLt cycle d.ledger.confirmed1
  else if grade = 2 then cycLt cycle d.ledger.confirmed2
  else cycLt cycle d.ledger.confirmed

/-- Release every completion that waited for a section now confirmed. -/
def Dev.releaseHeld (d : Dev) : Dev :=
  d.hostq.tags.foldl (fun d p =>
    match p.2.pendingCqe with
    | some c =>
      let (cyc, g) := d.admittedAs p.1
      if p.2.state = .committed ∧ d.cycleFree cyc g then d.hostDone p.1 c else d
    | none => d) d

/-- A status of R150 as a completion. -/
def cqe (sct sc : Nat) (dnr : Bool := true) : Cqe := { sct := sct, sc := sc, dnr := dnr }

/-- The completion of a command: the status hardware has settled for it (R150), or the one the base program posts. -/
def Tag.status (t : Tag) (c : Cqe) : Cqe :=
  match t.fate with
  | some (sct, sc) => cqe sct sc (decide (sc ≠ 0x21))
  | none => c

/-- The base program posts a command's completion: a successful write waits for its cycle (R27, R30). -/
def Dev.postCompletion (d : Dev) (key : Nat) (c : Cqe) : Dev :=
  match d.tag key with
  | none => d
  | some t =>
    let c := t.status c
    let (cyc, g) := d.admittedAs key
    if t.writes && decide (t.state = .committed ∧ c.sct = 0 ∧ c.sc = 0) && !d.cycleFree cyc g then
      d.modTag key fun t => { t with pendingCqe := some c }
    else d.hostDone key c

/-- The default action of a command whose run trapped (R133): Internal Error, and LEDGER and ROPE let go. -/
def Dev.internalError (d : Dev) (key : Nat) : Dev :=
  match d.tag key with
  | none => d
  | some t => if t.state = .completed then d else (d.hostDone key (cqe 0 6)).releaseCommand key

/-! ### Asynchronous events (R158) -/

/-- The bit of FID 0Bh that enables an event (NVMe 2.0, PRESUMED; the vendor events take bits 30 and 31). -/
def aecBit (e : AsyncEv) : Nat :=
  if e.typ = 1 then (if e.info = 1 then 1 else 0)
  else if e.typ = 2 then (if e.info = 0 then 8 else if e.info = 1 then 9 else 11)
  else if e.info = 0xC0 then 30 else 31

/-- Answer held Asynchronous Event Requests with the oldest enabled events. -/
def Dev.serveEvents (d : Dev) (c : Nat) : Dev :=
  match d.ctrl c with
  | none => d
  | some x =>
    match x.aers, x.events.find? (fun e => bitOf x.aec (aecBit e)) with
    | cid :: rest, some e =>
      let d := d.modCtrl c fun x => { x with aers := rest, events := x.events.erase e }
      d.hostDone (tagKey x.adminCtx cid) { cqe 0 0 false with dw0 := e.typ + e.info * 256 + e.page * 65536 }
    | _, _ => d

/-- Report an event to a controller (R158): one already waiting is not repeated. -/
def Dev.raiseAen (d : Dev) (c typ info page : Nat) : Dev :=
  let e : AsyncEv := { typ := typ, info := info, page := page }
  (d.modCtrl c fun x => if x.events.contains e then x else { x with events := x.events ++ [e] }).serveEvents c

/-- Report an event to every controller that satisfies `p`. -/
def Dev.raiseAens (d : Dev) (p : Ctrl → Bool) (typ info page : Nat) : Dev :=
  (d.hostq.ctrls.filter fun x => p x.2).foldl (fun d x => d.raiseAen x.1 typ info page) d

/-- Does a controller see a namespace? -/
def Ctrl.sees (c : Ctrl) (n : Ns) : Bool := n.attached && n.subsys = c.subsys && n.tenant = c.tenant

/-- A namespace attribute changed (R158). -/
def Dev.nsChanged (d : Dev) (n : Ns) : Dev :=
  let cs := (d.hostq.ctrls.filter fun c => n.subsys = c.2.subsys && n.tenant = c.2.tenant).map (·.1)
  let ch := cs.foldl (fun l c => if l.contains (c * 2 ^ 32 + n.nsid) then l else l ++ [c * 2 ^ 32 + n.nsid]) d.hostq.changed
  { d with hostq := { d.hostq with changed := ch } }.raiseAens (fun c => n.subsys = c.subsys && n.tenant = c.tenant) 2 0 4

/-- Forget the plaintext that CIPHER passed on for a command. -/
def Dev.dropPlain (d : Dev) (key : Nat) : Dev :=
  { d with cipher := { d.cipher with plain := d.cipher.plain.filter fun p => decide (p.tag ≠ key) } }

/-- The transport reports a completion delivered at instant `left`: the tag is Free (R146), and a completion later than
its deadline is a bound overrun event (R36, R175). -/
def Dev.delivered (d : Dev) (ctx cid left : Nat) : Dev :=
  match d.hostq.outbox.find? (fun o => o.ctx = ctx && o.cid = cid) with
  | none => d
  | some o =>
    let key := tagKey ctx cid
    if o.ofTag && d.responseHeld ctx key then d
    else
      let d := { d with hostq := { d.hostq with
        outbox := d.hostq.outbox.eraseP fun x => x.ctx = ctx && x.cid = cid
        tags := if o.ofTag then Tab.del d.hostq.tags key else d.hostq.tags } }
      let d := if o.ofTag then d.dropPlain key else d
      if o.deadline = 0 ∨ left ≤ o.deadline then d
      else
        let d := ((d.tcount o.tenant 11 1).bump Reg.LEDGER_OVERRUN.COUNT).sample 0x0D (some o.tenant)
        if (d.tcntOf o.tenant 11).toNat % 1024 = 0 then
          d.raiseAens (fun c => c.tenant = o.tenant && !c.discovery) 7 0xC1 0xC0
        else d

/-! ### Arrivals (R119, R142, R144, R146, R148, R149, R346) -/

/-- The descriptor of an arrival (R118, R119, R346): `sgl` lists the lengths of its SGL data blocks, and `seg` holds the
first 64 bytes of the SGL segment when there is one; `nsgl` counts the data blocks, those of length 0 left out (R151). `nsh`
is the handle of the namespace an I/O command names, 0 for none. -/
def arrivalWords (typ tenant ctx qid : Nat) (sqe : List Word) (nsgl : Nat) (seg : List Word) (nsh : Nat := 0) : List Word :=
  let cid := sqeCid sqe
  let h := fun i => if i < min nsgl 4 then cid * 2 ^ 48 + ctx % 2 ^ 18 * 2 ^ 30 + 2 ^ 29 + i else 0
  let w := fun i => (sqe.getD i 0).toNat
  descriptor typ 256 tenant nsh ctx (qid * 65536 + cid) 0 0
    ([w 0, w 5, w 6, nsgl, h 0, h 1, h 2, h 3, w 7, 0, 0, 0] ++ (padWords 8 sqe).map BitVec.toNat ++
      (padWords 8 seg).map BitVec.toNat)

/-- Opcodes an I/O queue, and a host's admin queue, accept (R148, R149). -/
def ioOpcodes : List Nat := [0x00, 0x01, 0x02, 0x08, 0x09]
def adminOpcodes : List Nat := [0x02, 0x06, 0x08, 0x09, 0x0A, 0x0C, 0x14, 0x18, 0x7F, 0x80]

/-- The controller a command runs for; one that runs for the partner has none here, so what counts is its subsystem and
tenant (R405). -/
def Dev.ctrlFor (d : Dev) (t : Tag) : Option Ctrl :=
  match t.remote with
  | some s => some { subsys := s, tenant := t.tenant, maxq := 0, adminCtx := 0, en := true, rdy := true }
  | none => d.ctrl t.ctrl

/-- Post the arrival event of a Queued command (R119). -/
def Dev.arrive (d : Dev) (t : Tag) : Dev :=
  let typ := if t.qid = 0 then evAdminArrival else evIoArrival
  let nsh := if t.qid = 0 then 0 else (((d.ctrlFor t).bind fun c => d.nsFor c (sqeNsid t.sqe)).map (·.1)).getD 0
  d.event { typ := typ, words := arrivalWords typ t.tenant t.ctx t.qid t.sqe t.nsgl t.seg nsh }

/-- Answer a capsule that owns no tag of its own. -/
def Dev.answerCapsule (d : Dev) (q : Queue) (ctx cid tenant op : Nat) (c : Cqe) : Dev :=
  let d := d.countDone q.ctrl tenant q.qid op c
  let o : Done := { ctx := ctx, cid := cid, cqe := { c with sqhd := q.head }, ofTag := false, tenant := tenant }
  let d := { d with hostq := { d.hostq with outbox := d.hostq.outbox ++ [o] } }
  d.sendResponse ctx (tagKey ctx cid) (q.qid * 65536 + cid) false

/-- A command capsule arrives on a queue: R144, R146, R148, R149 in this order; an accepted one is Queued, and its
arrival event is posted or it is forwarded (R142). `sgl` is the length its SGL describes. -/
def Dev.capsule (d : Dev) (ctx : Nat) (sqe : List Word) (nsgl sgl : Nat) (seg : List Word) : Dev :=
  match d.queue ctx with
  | none => d
  | some q =>
    match d.ctrl q.ctrl with
    | none => d
    | some c =>
      if !d.on 0x10 || d.quiet then d
      else
        let d := d.wake
        let cid := sqeCid sqe
        let key := tagKey ctx cid
        let op := sqeOpcode sqe
        let open_ := (d.hostq.tags.filter fun t => t.2.ctx = ctx && decide (t.2.state ≠ .completed)).length
        if q.sqsize + 1 ≤ open_ then
          (d.bump Reg.HOSTQ_STAT.SQ_OVERRUN).post 0x10 0 0x20 (q.ctrl % 65536 * 65536 + q.qid % 65536)
        else
          let q := { q with head := (q.head + 1) % (q.sqsize + 1) }
          let d := { d with hostq := { d.hostq with queues := Tab.put d.hostq.queues ctx q } }
          let d := d.modCtrl q.ctrl fun c =>
            { c with idleSince := d.now, apstPs := none, katoLast := if q.qid = 0 then d.now else c.katoLast }
          if (d.tag key).isSome then
            (d.bump Reg.HOSTQ_STAT.CID_CONFLICT).answerCapsule q ctx cid c.tenant op (cqe 0 3)
          else
            let t : Tag := { ctx := ctx, qid := q.qid, cid := cid, ctrl := q.ctrl, tenant := c.tenant
                             sqe := padWords 8 sqe, sglLen := sgl, nsgl := nsgl, seg := seg }
            let d := { d with hostq := { d.hostq with tags := Tab.put d.hostq.tags key t } }
            let known := if q.qid = 0 then adminOpcodes.contains op else ioOpcodes.contains op
            if !known then d.hostDone key (cqe 0 1)
            else
              let far := q.qid ≠ 0 && (match d.nsFor c (sqeNsid sqe) with
                | some (_, n) => decide (d.anaState n.anagrp = .nonOptimized) &&
                  decide (d.groupOwner n.anagrp ≠ d.fget Reg.CAMP_STRAP.UNIT_ID)
                | none => false)
              if far then
                { d with hostq := { d.hostq with
                    tags := Tab.put d.hostq.tags key { t with forwarded := true }, fwdOut := d.hostq.fwdOut ++ [key] } }
              else
                d.arrive t

/-- A run for an arrival has been dispatched under a generation: its tag is Running. -/
def Dev.tagRuns (d : Dev) (ctx cmdref gen : Nat) : Dev :=
  d.modTag (tagKey ctx cmdref) fun t => if t.state = .queued then { t with state := .running, gen := some gen } else t

/-! ### Aborts, resets and lost queues (R152, R154, R344) -/

/-- Remove a command's arrival from PITCH's queues. -/
def Dev.dropArrival (d : Dev) (ctx cmdref : Nat) : Dev :=
  let mine := fun (e : PEvent) => (e.typ = evIoArrival || e.typ = evAdminArrival) &&
    decide (field (e.words.getD 1 0) 18 0 = ctx % 2 ^ 19 ∧ field (e.words.getD 1 0) 63 32 = cmdref)
  let p := d.pitch
  Dev.queueIs { d with pitch := { p with held := p.held.filter fun e => !mine e } } (p.queue.filter fun e => !mine e)

/-- Change a namespace in force. -/
def Dev.modNs (d : Dev) (h : Nat) (f : Ns → Ns) : Dev :=
  match Tab.look d.hostq.nss h with
  | some n => { d with hostq := { d.hostq with nss := Tab.put d.hostq.nss h (f n) } }
  | none => d

/-- A Running admin command ends with no effect: a held Asynchronous Event Request is let go, and the namespace of a Format
NVM that waits is no longer not ready. -/
def Dev.letGo (d : Dev) (t : Tag) : Dev :=
  if t.qid ≠ 0 then d
  else if t.held then d.modCtrl t.ctrl fun x => { x with aers := x.aers.filter (· ≠ t.cid) }
  else if sqeOpcode t.sqe = 0x80 then
    match (d.ctrlFor t).bind fun c => d.nsFor c (sqeNsid t.sqe) with
    | some (h, _) => d.modNs h fun n => { n with formatting := false }
    | none => d
  else d

/-- Put the mark of R152 on a command. -/
def Dev.setMark (d : Dev) (t : Tag) (found : Bool) : Dev :=
  let m : Mark := { made := d.now, found := found }
  { d with rope := { d.rope with marks := Tab.put d.rope.marks (t.ctrl * 2 ^ 32 + t.qid * 65536 + t.cid) m } }

/-- A Running command that the mark reaches first: an admin command ends at once, an I/O command at its request of a rope
number (R152). -/
def Dev.abortRunning (d : Dev) (key : Nat) (t : Tag) : Dev :=
  if t.qid = 0 then (d.letGo t).hostDone key (cqe 0 7) else d.setMark t true

/-- End a command for a reset or a deleted queue (R154, R344): Queued ones with Commands Aborted due to SQ Deletion,
Running ones marked and with Command Abort Requested; Committed ones run on. What the partner runs ends there, and its
completion comes back. -/
def Dev.cutShort (d : Dev) (key : Nat) : Dev :=
  match d.tag key with
  | none => d
  | some t =>
    match t.state with
    | .queued =>
      let d := { d with hostq := { d.hostq with fwdOut := d.hostq.fwdOut.filter (· ≠ key) } }
      (d.dropArrival t.ctx (t.qid * 65536 + t.cid)).hostDone key (cqe 0 8)
    | .running =>
      if t.forwarded then
        { d with hostq := { d.hostq with fwdMarks := d.hostq.fwdMarks ++ [(key, true)] } }
      else ((d.letGo t).hostDone key (cqe 0 7)).setMark t false
    | _ => d

/-- ROPE_REQUEST: when the mark wins, the request is refused, and the command completes with Command Abort Requested and
holds nothing any more (R152, R186). -/
def Dev.ropeCall (d : Dev) (id : Nat) (applied : Bool) : Dev :=
  let e := d.ropeRequest id applied
  match Tab.look d.asks id, Tab.look e.asks id with
  | some a, some b =>
    if a.answer = none ∧ b.answer = some (statusWord 0x10 0, []) then
      let key := tagKey a.context (a.arg 0 % 2 ^ 32)
      (e.hostDone key (cqe 0 7)).releaseCommand key
    else e
  | _, _ => e

/-- Commands of a controller or queue that are not Completed. -/
def Dev.openTags (d : Dev) (p : Tag → Bool) : List Nat :=
  (d.hostq.tags.filter fun t => p t.2 && decide (t.2.state ≠ .completed)).map (·.1)

/-- End the device self-test with a result (R156). -/
def Dev.endSelfTest (d : Dev) (result segment : Nat) : Dev :=
  match d.hostq.selfTest with
  | none => d
  | some s =>
    let r : StResult := { code := if s.extended then 2 else 1, result := result, segment := segment }
    { d with hostq := { d.hostq with selfTest := none, stLog := (r :: d.hostq.stLog).take 20 } }

/-- A controller resets (R154); `dropping` also deletes its I/O queues and its association. -/
def Dev.resetCtrl (d : Dev) (c : Nat) (dropping : Bool) : Dev :=
  match d.ctrl c with
  | none => d
  | some _ =>
    let d := (d.openTags fun t => decide (t.ctrl = c)).foldl Dev.cutShort d
    let d := if d.hostq.selfTest.any (fun s => s.ctrl = c) then d.endSelfTest 2 0 else d
    d.modCtrl c fun x => { x with en := false, resetting := true, dropping := x.dropping || dropping, aers := [], aborts := [] }

/-- The power state the unit runs in follows the lowest-numbered request (R157): a controller asks for the state its
autonomous transitions have reached, else for that of FID 02h. -/
def Dev.hostPs (d : Dev) : Dev :=
  let asks := (d.hostq.ctrls.filter fun c => !c.2.discovery).map (fun c => c.2.apstPs.getD c.2.ps) ++ d.hostq.mgmtPs.toList
  d.requestPs (if asks.isEmpty then 0 else asks.foldl min 3)

/-- The state an idle controller moves to, if its APST table has one for the state it is in: the entry of that state gives
the next state in bits 7:3 and the idle time in ms in bits 31:8, 0 for none (FID 0Ch of NVMe 2.0, PRESUMED). -/
def Ctrl.apstNext (c : Ctrl) (now : Nat) : Option Nat :=
  let e := c.apst / 2 / 2 ^ (64 * c.apstPs.getD c.ps)
  let ms := bitsOf e 31 8
  if c.apst % 2 = 1 ∧ ms ≠ 0 ∧ c.idleSince + ms * 1000000 ≤ now ∧ bitsOf e 7 3 ≤ 3 then some (bitsOf e 7 3) else none

/-- Autonomous power state transitions (R157): a controller whose queues have been idle for its time asks for its next
state. Held Asynchronous Event Requests are no work. -/
def Dev.apstMoves (d : Dev) : Dev :=
  let busy (c : Nat) : Bool := !(d.openTags fun t => decide (t.ctrl = c) && t.remote.isNone && !t.held).isEmpty
  let cs := d.hostq.ctrls.map fun p =>
    if busy p.1 then (p.1, { p.2 with idleSince := d.now })
    else match p.2.apstNext d.now with
      | some s => (p.1, { p.2 with apstPs := some s, idleSince := d.now })
      | none => p
  let moved := decide (cs.map (fun p => p.2.apstPs) ≠ d.hostq.ctrls.map fun p => p.2.apstPs)
  let d := { d with hostq := { d.hostq with ctrls := cs } }
  if moved then d.hostPs else d

/-- Drop a queue: completions that can no longer be delivered are dropped, and their tags are Free. -/
def Dev.dropQueue (d : Dev) (ctx : Nat) : Dev :=
  let tags := d.hostq.tags.filter fun t => !(t.2.ctx = ctx && decide (t.2.state = .completed))
  let plain := d.cipher.plain.filter fun p => decide (p.tag / 65536 ≠ ctx)
  let d := { d with cipher := { d.cipher with plain := plain } }
  Dev.showHostq { d with hostq := { d.hostq with
    queues := Tab.del d.hostq.queues ctx
    outbox := d.hostq.outbox.filter fun o => decide (o.ctx ≠ ctx)
    tags := tags } }

/-- Every outstanding command of a resetting controller has completed: CSTS.RDY reads 0, and a reset that deletes the
association takes the I/O queues and the controller with it (R145, R154). -/
def Dev.resetDrained (d : Dev) (c : Nat) : Dev :=
  match d.ctrl c with
  | none => d
  | some x =>
    if !x.resetting || !(d.openTags fun t => decide (t.ctrl = c)).isEmpty then d
    else if x.dropping then
      let qs := (d.hostq.queues.filter fun q => decide (q.2.ctrl = c)).map (·.1)
      let d := qs.foldl Dev.dropQueue d
      Dev.hostPs (Dev.showHostq { d with hostq := { d.hostq with ctrls := Tab.del d.hostq.ctrls c } })
    else d.modCtrl c fun x => { x with rdy := false, resetting := false }

/-- The connection of a queue is lost (R344): the admin queue's resets the controller, an I/O queue's is deleted. -/
def Dev.queueLost (d : Dev) (ctx : Nat) : Dev :=
  match d.queue ctx with
  | none => d
  | some q =>
    if q.qid = 0 then d.resetCtrl q.ctrl true
    else ((d.openTags fun t => decide (t.ctx = ctx)).foldl Dev.cutShort d).dropQueue ctx

end Sys2Proof.Machine
end

