-- ==== Sys2Proof/Machine/TransOps.lean ====
section
/-! DEFINITION. What XPORT and STREAM do with frames, timers, context commands and calls (R323 to R348). -/

namespace Sys2Proof.Machine

/-! ### Losing a connection (R344, R345, R348) -/

/-- An ASYNC event of a transport (R345). -/
def Dev.transAsync (d : Dev) (kind cause : Nat) (n : Nat) (c : Ctx) : Dev :=
  d.event { typ := evAsync, words := descriptor evAsync 64 c.tenant 0 n 0 0 0
              [kind % 2 ^ 16 + cause % 2 ^ 8 * 2 ^ 16 + c.egress % 2 ^ 8 * 2 ^ 24 + c.cntlid % 2 ^ 16 * 2 ^ 32 +
                c.qid % 2 ^ 16 * 2 ^ 48] }

/-- RESULT of a transfer that the loss of its connection ends (R348, R342): transfers sent and not acknowledged fail after
retries or a NAK, read transfers fail with a TLS tag; every other one has lost its connection. -/
def lossResult (cause : Nat) (sent write : Bool) : Nat :=
  if (cause = 1 ∨ cause = 2) ∧ sent = true then 0x16
  else if cause = 3 ∧ write = false then 0x18
  else 0x17

/-- Bytes of a message's transfer that have been acknowledged or have landed (R348). -/
def TxMsg.moved (m : TxMsg) (c : Ctx) (x : Xfer) : Nat :=
  if !x.write then x.got
  else if m.state = .sent ∧ psnLe m.psn c.una = true then min x.len ((c.una + 2 ^ 24 - m.psn) % 2 ^ 24 * c.mtu)
  else 0

/-- Bytes of data of a piece of stream that have been acknowledged: under TLS, record headers and tags are none. -/
def SOut.moved (p : SOut) (c : Ctx) : Nat :=
  match p.seq with
  | none => 0
  | some s =>
    let b := if seqLe s c.sndUna then min p.bytes ((c.sndUna + 2 ^ 32 - s) % 2 ^ 32) else 0
    let b := if bitOf c.flags 2 then b / 16406 * 16384 + min 16384 (b % 16406 - 5) else b
    min p.data (b - p.head)

/-- End every transfer of a connection with its XFER_DONE. A failed tag discards what had landed. -/
def Dev.failXfers (d : Dev) (n cause : Nat) (c : Ctx) : Dev :=
  let d := (d.rconn n).out.foldl (fun d m => match m.xfer with
    | some x => d.xferDone n x (lossResult cause (decide (m.state = .sent)) x.write) (m.moved c x)
    | none => d) d
  let s := d.sconn n
  let d := s.out.foldl (fun d p => match p.kind with
    | .c2h x => d.xferDone n x (lossResult cause p.seq.isSome true) (p.moved c)
    | _ => d) d
  (s.xfers ++ s.landed).foldl (fun d x => d.xferDone n x (lossResult cause true false) (if cause = 3 then 0 else x.got)) d

/-- Does a staging unit hold uncommitted data of a connection (R342): its TOKEN is one of a read transfer under way or of
in-capsule data? -/
def SConn.owns (s : SConn) (u : SUnit) : Bool :=
  u.uncommitted && (s.xfers ++ s.landed).any fun x => decide (x.token = u.token ∧ x.tenant = u.rec_.tenant)

/-- A connection is lost (R344): its transfers end, the ASYNC event is posted, the base program set resets the
controller or deletes the queue, what the transport held is dropped and the context is freed. -/
def Dev.connLost (d : Dev) (blk n cause : Nat) : Dev :=
  match d.ctxAny blk n with
  | none => d
  | some c =>
    let d := d.failXfers n cause c
    let d := if blk = 0x0C ∧ d.recording = true then
        { d with trans := { d.trans with recs := d.trans.recs ++ [{ kind := 2, ctx := n, psn := 0 }] } }
      else d
    let d := d.transAsync 0x0101 cause n c
    ((d.queueLost n).freeCtx blk n)

/-- A RoCEv2 context enters ERROR (R331, R344): event 0x00C0, counted, and its connection is lost. -/
def Dev.roceError (d : Dev) (n cause : Nat) : Dev :=
  if (d.ctx 0x0C n).isNone then d
  else
    let d := d.modCtx 0x0C n fun c => { c with state := 2 }
    let d := (d.bump Reg.XPT_FAIL.ERRORS).post 0x0C 0 0xC0 n
    d.connLost 0x0C n cause

/-- A TCP reset leaves on a connection, and the connection is lost. -/
def Dev.tcpReset (d : Dev) (n cause : Nat) : Dev :=
  match d.ctx 0x0D n with
  | none => d.connLost 0x0D n cause
  | some c => (d.emitCtx n c 20).connLost 0x0D n cause

/-- A hard usage limit stops a connection (R343, R384): close_notify, TCP reset, and the slot's keys are zeroised. -/
def Dev.hardClose (d : Dev) (n : Nat) : Dev :=
  let d := { d with cipher := { d.cipher with hard := d.cipher.hard.filter (· ≠ n) } }
  match d.ctx 0x0D n with
  | none => d
  | some c =>
    let d := (d.bumpSat Reg.STR_TLS.HARD_CLOSE).post 0x0D 0 0xD1 n
    let d := d.setSslot c.keySlot {}
    (d.emitCtx n c (20 + 24)).tcpReset n 7

/-- Close every connection that a hard limit has stopped. -/
def Dev.closeHard (d : Dev) : Dev := d.cipher.hard.foldl (fun d n => d.hardClose n) d

/-! ### A frame and its context (R324, R327) -/

/-- Is the transport working at all: enabled, not in safe state, the unit not quiesced? -/
def Dev.transOn (d : Dev) (blk : Nat) : Bool := d.on blk && !d.quiet

/-- Put a frame in its pipeline's miss queue (R327): it takes the place of the frame that CLASS has handed over for its
context, or an entry of its own; a full queue drops it. -/
def Dev.missFrame (d : Dev) (blk pipe n : Nat) (rx : RxFrame) : Dev :=
  let i := pipe % 2
  let q := (Tab.look d.trans.miss i).getD []
  let raw : Missed := { ctx := n, rx := .raw }
  let put := fun (q : List Missed) => { d with trans := { d.trans with miss := Tab.put d.trans.miss i q } }
  if q.contains raw then put ((q.takeWhile (· ≠ raw)) ++ { ctx := n, rx := rx } :: (q.dropWhile (· ≠ raw)).tail)
  else if 512 ≤ q.length then if blk = 0x0C then d.bump Reg.XPT_MISS.DROPS else d.bumpSat Reg.STR_MISS.DROPS
  else put (q ++ [{ ctx := n, rx := rx }])

/-- Was the oldest frame of a context that SWITCH holds for the transport `kind` marked CE (R353)? -/
def Dev.ceIn (d : Dev) (kind ctx : Nat) : Bool :=
  let hit := fun (f : InFrame) => decide (bitsOf f.desc.act 15 8 = kind) && f.desc.context = ctx
  ((d.swt.ingress.findSome? fun p => p.2.find? hit).map (·.ce)).getD false

/-- The frame with a congestion mark added. -/
def RxFrame.mark (ce : Bool) : RxFrame → RxFrame
  | .request p o e => .request p o (e || ce)
  | .response p b e => .response p b (e || ce)
  | f => f

/-- A frame meets its context: dropped and counted for a free context or another tenant; queued for a spilled one, or
behind frames of the same context that still wait; otherwise `run` gives it to the resident context. `pipe` is the
pipeline it came through. -/
def Dev.meets (d : Dev) (blk pipe n tenant : Nat) (rx : RxFrame) (run : Dev → RxFrame → Dev) : Dev :=
  if !d.transOn blk then d
  else
    let rx := rx.mark (d.ceIn (blk - 0x0B) n)
    let d := d.takeIn (blk - 0x0B) n
    match d.ctxAny blk n with
    | none => if blk = 0x0C then d.bump Reg.XPT_DROP.TENANT else d.bumpSat Reg.STR_MISS.TENANT
    | some c =>
      if c.tenant ≠ tenant ∨ d.ctxIn blk n = false then
        if blk = 0x0C then d.bump Reg.XPT_DROP.TENANT else d.bumpSat Reg.STR_MISS.TENANT
      else if (d.ctx blk n).isNone || d.inMiss n then d.missFrame blk pipe n rx
      else run d rx

/-! ### RoCEv2, as responder (R328 to R330, R333, R334) -/

/-- Credits that a code stands for (R330). -/
def creditsOf (c : Nat) : Nat :=
  if c ≤ 3 then c else if c % 2 = 0 then 2 ^ (c / 2) else 3 * 2 ^ ((c - 3) / 2)

/-- The largest code whose value does not exceed a number of credits (R330). -/
def creditCode (n : Nat) : Nat :=
  (List.range 31).foldl (fun b c => if creditsOf c ≤ n ∧ creditsOf b ≤ creditsOf c then c else b) 0

/-- Free entries of a connection's queue; 32 before its Connect (R330). -/
def Dev.queueFree (d : Dev) (n : Nat) : Nat :=
  match d.queue n with
  | none => 32
  | some q => q.sqsize + 1 - (d.hostq.tags.filter fun t => t.2.ctx = n && decide (t.2.state ≠ .completed)).length

/-- Send an AETH on a connection, with the credits granted now; a limit once sent is never lowered (R330). -/
def Dev.sendAeth (d : Dev) (n : Nat) (c : Ctx) : Dev :=
  let g := creditsOf (creditCode (min (d.fget Reg.XPT_CFG.CREDIT_MAX) (d.queueFree n)))
  let r := d.rconn n
  let lim := (c.msn + g) % 2 ^ 24
  let lim := if psnLe r.limitSent lim then lim else r.limitSent
  let d := d.setRconn n { r with limitSent := lim }
  let d := d.modCtx 0x0C n fun c => { c with granted := (lim + 2 ^ 24 - c.msn) % 2 ^ 24 }
  d.emitCtx n c (8 + 12 + 4 + 4)

/-- Acknowledge what is owed, up to the last PSN before one whose transport record the partner does not hold (R334). -/
def Dev.ackNow (d : Dev) (n : Nat) : Dev :=
  match d.ctx 0x0C n, (d.rconn n).owe with
  | some c, some p =>
    let r := d.rconn n
    match r.recPsns with
    | [] => ((d.setRconn n { r with owe := none }).modCtx 0x0C n fun c => { c with acked := p }).sendAeth n { c with acked := p }
    | q :: _ =>
      let q := (q + 2 ^ 24 - 1) % 2 ^ 24
      if psnLe q c.acked then d
      else (d.modCtx 0x0C n fun c => { c with acked := q }).sendAeth n { c with acked := q }
  | _, _ => d

/-- Owe an acknowledgement up to a PSN; without coalescing it leaves at once (R329). -/
def Dev.oweAck (d : Dev) (n p : Nat) : Dev :=
  let d := d.setRconn n { d.rconn n with owe := some p }
  if d.fget Reg.XPT_TIMER.ACK_COAL = 0 then d.ackNow n else d

/-- A CE-marked packet is answered with a CNP, at most one per context per 50 µs (R333). -/
def Dev.reflectCe (d : Dev) (n : Nat) (c : Ctx) : Dev :=
  let r := d.rconn n
  let free := match r.lastCnp with
    | some t => decide (t + 50000 ≤ d.now)
    | none => true
  if d.fget Reg.XPT_CFG.CNP_EN = 1 && free then
    ((d.setRconn n { r with lastCnp := some d.now }).bump Reg.XPT_CNP.SENT).emitCtx n c (8 + 12 + 16 + 4)
  else d

/-- An inbound RoCEv2 request (R328 to R330, R333, R334). `ce` is its congestion mark. -/
def Dev.requestOn (d : Dev) (n : Nat) (c : Ctx) (psn : Nat) (op : ReqOp) (ce : Bool) : Dev :=
  if c.state ≠ 1 then d
  else
    let d := if ce then d.reflectCe n c else d
    let gap := (psn + 2 ^ 24 - c.epsn) % 2 ^ 24
    if gap = 0 then
      match op with
      | .other => (d.sendAeth n c).roceError n 8
      | .send cap =>
        let msg := cap.isSome
        let d := d.modCtx 0x0C n fun c =>
          { c with epsn := (c.epsn + 1) % 2 ^ 24, msn := if msg then (c.msn + 1) % 2 ^ 24 else c.msn
                   granted := if msg then c.granted - 1 else c.granted }
        let r := { d.rconn n with nakSent := false }
        let d := if d.recording then
            let t : TRec := { kind := 3, opcode := if msg then 0x04 else 0x00, ctx := n, psn := psn
                              cmdref := ((d.queue n).map fun q => q.qid * 65536 + sqeCid (cap.getD [])).getD 0
                              bytes := if msg then 64 else 0, body := padWords (if msg then 8 else 0) (cap.getD []) }
            { d.setRconn n { r with recPsns := r.recPsns ++ [psn] } with
              trans := { d.trans with recs := d.trans.recs ++ [t] } }
          else d.setRconn n r
        let d := match cap with
          | some sqe => d.capsule n sqe 1 (field (sqe.getD 4 0) 23 0) []
          | none => d
        if (d.ctx 0x0C n).isSome then d.oweAck n psn else d
    else if 2 ^ 23 ≤ gap then
      (d.bump Reg.XPT_DROP.DUPLICATE).oweAck n ((c.epsn + 2 ^ 24 - 1) % 2 ^ 24)
    else
      let r := d.rconn n
      if r.nakSent then d
      else ((d.setRconn n { r with nakSent := true }).bump Reg.XPT_RETX.NAK_SEQ).sendAeth n c

/-- The coalescing time passes (R329). -/
def Dev.ackCoalesce (d : Dev) (n : Nat) : Dev := if d.transOn 0x0C then (d.needCtx 0x0C n).ackNow n else d

/-! ### RoCEv2, as requester (R331, R332) -/

/-- Last PSN of a message. -/
def TxMsg.lastPsn (m : TxMsg) : Nat := (m.psn + m.pkts - 1) % 2 ^ 24

/-- Is the message complete when every PSN below `una` is acknowledged? An RDMA READ also needs its data. -/
def TxMsg.acked (m : TxMsg) (una : Nat) : Bool :=
  decide (m.state = .sent) && decide (m.op ≠ .read) && psnLe ((m.lastPsn + 1) % 2 ^ 24) una

/-- First PSN that an outstanding RDMA READ still needs. -/
def TxMsg.readFrom (m : TxMsg) (mtu : Nat) : Option Nat :=
  match m.op, m.xfer with
  | .read, some x => if m.state = .queued then none else some ((m.psn + x.got / mtu) % 2 ^ 24)
  | _, _ => none

/-- UNA advances to `p`, but not past what an outstanding RDMA READ still needs: retries start anew, and messages now
acknowledged end, each write with its XFER_DONE. -/
def Dev.advanceUna (d : Dev) (n : Nat) (c : Ctx) (p : Nat) : Dev :=
  let r := d.rconn n
  let p := (r.out.filterMap fun m => m.readFrom c.mtu).foldl (fun p q => if psnLe p q then p else q) p
  if p = c.una ∨ psnLe c.una p = false ∨ psnLe p c.npsn = false then d
  else
    let cnt := d.fget Reg.XPT_TIMER.RETRY_CNT
    let d := d.modCtx 0x0C n fun c => { c with una := p, retry := cnt, rnr := cnt }
    let r := { r with unaSince := d.now }
    let done := r.out.filter fun m => m.acked p
    let d := d.setRconn n { r with out := r.out.filter fun m => !m.acked p }
    let d := if d.recording then { d with trans := { d.trans with recs := d.trans.recs ++ [{ kind := 5, ctx := n, psn := p }] } }
      else d
    let d := done.foldl (fun d m => match m.xfer with
      | some x => d.xferDone n x 0 x.len
      | none => d) d
    d.pump n

/-- An ACK from the host (R331): `code` is its credit code, 31 for no limit. -/
def Dev.ackOn (d : Dev) (n : Nat) (c : Ctx) (psn code msn : Nat) : Dev :=
  if c.state ≠ 1 then d
  else
    let lim := if 31 ≤ code then 2 ^ 31 else (msn + creditsOf code) % 2 ^ 24
    let d := d.modCtx 0x0C n fun c => { c with limit := lim }
    (d.advanceUna n { c with limit := lim } ((psn + 1) % 2 ^ 24)).pump n

/-- Resend every message that has been sent, from UNA (R331). -/
def Dev.resendFrom (d : Dev) (n : Nat) (c : Ctx) : Dev :=
  let r := d.rconn n
  (r.out.filter fun m => decide (m.state = .sent)).foldl (fun d m =>
    (List.range m.sends).foldl (fun d i =>
      if m.op ≠ .read ∧ psnLe ((m.psn + i + 1) % 2 ^ 24) c.una = true then d
      else d.emitCtx n c (8 + 12 + (if m.op = .read then 16 else 0) + (m.payload c.mtu i + 3) / 4 * 4 + 4)) d)
    (d.setRconn n { r with unaSince := d.now })

/-- One retry is used; with none left the context enters ERROR (R331). -/
def Dev.retryRoce (d : Dev) (n : Nat) (c : Ctx) : Dev :=
  if c.retry ≤ 1 then d.roceError n 1
  else (d.modCtx 0x0C n fun c => { c with retry := c.retry - 1 }).resendFrom n c

/-- A NAK from the host for a PSN (R331): it acknowledges every earlier PSN. -/
def Dev.nakOn (d : Dev) (n : Nat) (c : Ctx) (psn : Nat) (k : Nak) : Dev :=
  if c.state ≠ 1 then d
  else
    let d := d.advanceUna n c psn
    match d.ctx 0x0C n with
    | none => d
    | some c =>
      match k with
      | .sequence => d.retryRoce n c
      | .rnr =>
        if c.rnr ≤ 1 then d.roceError n 1
        else (d.modCtx 0x0C n fun c => { c with rnr := c.rnr - 1 }).setRconn n { d.rconn n with rnrWait := true }
      | _ => d.roceError n 2

/-- An RDMA READ Response packet lands the host's write data (R331, R347): the response that the READ needs next, any
other PSN is discarded. -/
def Dev.responseOn (d : Dev) (n : Nat) (c : Ctx) (psn : Nat) (data : List Byte) (ce : Bool) : Dev :=
  if c.state ≠ 1 then d
  else
    let d := if ce then d.reflectCe n c else d
    let r := d.rconn n
    match r.out.find? (fun m => m.readFrom c.mtu = some psn) with
    | none => d
    | some m =>
      match m.xfer with
      | none => d
      | some x =>
        let bs := data.take (min c.mtu (x.len - x.got))
        let d := d.land x.tenant x.nsh x.token (x.off / 4096 * 4096 + x.got) bs false
        let x' := { x with got := x.got + bs.length }
        let whole := decide (x.len ≤ x'.got)
        let out := if whole then r.out.filter fun y => decide (y.psn ≠ m.psn ∨ y.state = .queued)
          else r.out.map fun y => if y.psn = m.psn ∧ y.state ≠ .queued then { y with xfer := some x' } else y
        let d := d.setRconn n { r with out := out }
        let d := d.advanceUna n c (if whole then (m.lastPsn + 1) % 2 ^ 24 else (psn + 1) % 2 ^ 24)
        let d := if whole then d.xferDone n x' 0 x'.len else d
        d.pump n

/-- No ACK covers UNA within ACK_TO_US (R331). -/
def Dev.roceTimeout (d : Dev) (n : Nat) : Dev :=
  match d.ctx 0x0C n with
  | none => d
  | some c =>
    if !d.transOn 0x0C ∨ c.state ≠ 1 ∨ c.una = c.npsn ∨ d.now < (d.rconn n).unaSince + d.fget Reg.XPT_TIMER.ACK_TO_US * 1000 then d
    else ((d.bump Reg.XPT_RETX.TIMEOUTS).sample 0x12 none).retryRoce n c

/-- The timer that an RNR NAK named expires (R331). -/
def Dev.rnrExpiry (d : Dev) (n : Nat) : Dev :=
  match d.ctx 0x0C n with
  | none => d
  | some c =>
    let r := d.rconn n
    if !d.transOn 0x0C ∨ !r.rnrWait then d
    else ((d.setRconn n { r with rnrWait := false }).resendFrom n c).pump n

/-! ### Contexts (R323 to R327, R344) -/

/-- A refused open (R323): counted at MAX, event 0x00C1, RESULT, and ASYNC KIND 0x0103 at capacity. -/
def Dev.openRefused (d : Dev) (c : Ctx) (res : Nat) : Dev :=
  let d := (d.fset Reg.XPT_CTX_CMD.RESULT res).post 0x0C 0 0xC1 res
  if res = 7 then (d.bump Reg.XPT_FAIL.REFUSED).transAsync 0x0103 0 0 c else d

/-- A RoCEv2 context is open: resident, shown, and its OPEN record goes to the partner (R326, R334). -/
def Dev.opened (d : Dev) (n : Nat) (c : Ctx) : Dev :=
  let d := d.placeCtx 0x0C n c
  let d := d.setRconn n { limitSent := (c.msn + c.granted) % 2 ^ 24 }
  let d := if d.recording then { d with trans := { d.trans with recs := d.trans.recs ++
      [{ kind := 1, ctx := n, psn := 0, bytes := 256
         body := (List.range 32).map fun i => BitVec.ofNat 64 (leNat ((c.bytes.drop (8 * i)).take 8)) }] } } else d
  let d := d.fset Reg.XPT_CTX_CMD.CONTEXT n
  (d.fset Reg.XPT_CTX_CMD.RESULT 0).fset Reg.XPT_CTX_CMD.BUSY 0

/-- XPT_CTX_CMD OP 1 (R323, R325, R326). -/
def Dev.xptOpen (d : Dev) : Dev :=
  if !d.serves 0x0C || d.fget Reg.XPT_CTX_CMD.BUSY = 1 then d
  else
    let a := d.fget Reg.XPT_CTX_IMG.ADDR
    let c := readCtx d.mem.dram a
    let d := d.fset Reg.XPT_CTX_CMD.OP 1
    if !imageOk d.mem.dram a then d.openRefused c 2
    else
      match d.freeCtxNo 0x0C with
      | none => d.openRefused c 7
      | some n =>
        match d.makeSlot 0x0C with
        | (d, true) => d.opened n c
        | (d, false) =>
          let t := d.tport 0x0C
          (d.setTport 0x0C { t with wait := some { ctx := n, img := c, since := d.now } }).fset Reg.XPT_CTX_CMD.BUSY 1

/-- An open that waits continues once a context is evictable, or ends after 1 ms (R326). The spec gives no RESULT for an
open that has waited 1 ms: it is refused with 0x07 (log 30). -/
def Dev.openResume (d : Dev) (blk : Nat) : Dev :=
  let t := d.tport blk
  match t.wait with
  | none => d
  | some w =>
    match d.makeSlot blk with
    | (d, true) =>
      let t := d.tport blk
      let d := d.setTport blk { t with wait := none }
      if blk = 0x0C then d.opened w.ctx w.img else (d.placeCtx 0x0D w.ctx w.img).setSconn w.ctx {}
    | (d, false) =>
      if d.now < w.since + 1000000 then d
      else
        let d := d.setTport blk { t with wait := none }
        if blk = 0x0C then (d.fset Reg.XPT_CTX_CMD.BUSY 0).openRefused w.img 7
        else ((d.bumpSat Reg.STR_ERR.REFUSED).emitCtx w.ctx w.img 20).transAsync 0x0103 0 0 w.img

/-- XPT_CTX_CMD OP 2: Warden closes a context (R344). -/
def Dev.xptClose (d : Dev) (n : Nat) : Dev :=
  if !d.on 0x0C || d.fget Reg.XPT_CTX_CMD.BUSY = 1 then d
  else
    let d := (d.fset Reg.XPT_CTX_CMD.OP 2).fset Reg.XPT_CTX_CMD.CONTEXT n
    if (d.ctxAny 0x0C n).isNone then d.fset Reg.XPT_CTX_CMD.RESULT 0x20
    else (d.fset Reg.XPT_CTX_CMD.RESULT 0).connLost 0x0C n 6

/-- XPT_CTX_CMD OP 3: a context moves to the EGRESS of the image (R345). -/
def Dev.xptMove (d : Dev) (n : Nat) : Dev :=
  if !d.on 0x0C || d.fget Reg.XPT_CTX_CMD.BUSY = 1 then d
  else
    let d := (d.fset Reg.XPT_CTX_CMD.OP 3).fset Reg.XPT_CTX_CMD.CONTEXT n
    let e := d.mem.dram.read (d.fget Reg.XPT_CTX_IMG.ADDR + 10) 1
    if (d.ctxAny 0x0C n).isNone then d.fset Reg.XPT_CTX_CMD.RESULT 0x20
    else if 16 ≤ e then d.fset Reg.XPT_CTX_CMD.RESULT 2
    else
      let d := d.needCtx 0x0C n
      (d.fset Reg.XPT_CTX_CMD.RESULT 0).modCtx 0x0C n fun c => { c with egress := e }

/-- Session key slots that NVMe/TCP contexts are bound to. -/
def Dev.boundSlots (d : Dev) : List Nat :=
  let t := d.tport 0x0D
  ((t.res.map (·.2) ++ t.spilled.map fun n => readCtx d.mem.dram (d.spillAddr 0x0D n)).filter fun c => bitOf c.flags 2).map
    (·.keySlot)

/-- STR_CTX_CMD OP 1: bind a session key slot and start record protection, with record sequence 0 each way (R341). -/
def Dev.strBind (d : Dev) (n slot : Nat) : Dev :=
  if !d.on 0x0D || d.fget Reg.STR_CTX_CMD.BUSY = 1 then d
  else
    let d := ((d.fset Reg.STR_CTX_CMD.OP 1).fset Reg.STR_CTX_CMD.CONTEXT n).fset Reg.STR_CTX_CMD.KEY_SLOT slot
    if 12288 ≤ slot then d.fset Reg.STR_CTX_CMD.RESULT 2
    else if (d.ctxAny 0x0D n).isNone then d.fset Reg.STR_CTX_CMD.RESULT 0x20
    else if d.boundSlots.contains slot || decide (12288 ≤ d.boundSlots.length) then
      (d.fset Reg.STR_CTX_CMD.RESULT 7).tcpReset n 6
    else
      let d := d.needCtx 0x0D n
      (d.fset Reg.STR_CTX_CMD.RESULT 0).modCtx 0x0D n fun c =>
        { c with keySlot := slot, flags := c.flags ||| 4, state := 1, rxRseq := 0, txRseq := 0 }

/-- STR_CTX_CMD OP 2: Warden closes a context. -/
def Dev.strClose (d : Dev) (n : Nat) : Dev :=
  if !d.on 0x0D || d.fget Reg.STR_CTX_CMD.BUSY = 1 then d
  else
    let d := (d.fset Reg.STR_CTX_CMD.OP 2).fset Reg.STR_CTX_CMD.CONTEXT n
    if (d.ctxAny 0x0D n).isNone then d.fset Reg.STR_CTX_CMD.RESULT 0x20
    else (d.fset Reg.STR_CTX_CMD.RESULT 0).tcpReset n 6

/-! ### TCP (R337) -/

/-- The listen entry of a TCP port: whether TLS is required there. -/
def Dev.listens (d : Dev) (port : Nat) : Option Bool :=
  ((List.range 4).find? fun i => d.fget (Reg.STR_LISTEN.EN.nth i) = 1 && d.fget (Reg.STR_LISTEN.PORT.nth i) = port).map
    fun i => d.fget (Reg.STR_LISTEN.TLS.nth i) = 1

/-- A frame that belongs to no context: a SYN cookie's SYN-ACK or a reset, on the sub-port it answers. -/
def Dev.emitBare (d : Dev) (port tenant : Nat) : Dev :=
  d.emit { tenant := tenant, tclass := 0, len := 78, cells := cellsFor 78, ports := [port] }

/-- A SYN (R337): a listen port answers with a SYN cookie, any other with a reset; nothing is held. -/
def Dev.tcpSyn (d : Dev) (port tenant : Nat) : Dev :=
  if !d.transOn 0x0D then d else d.emitBare port tenant

/-- The receive-window scale: the least that lets 16 bits hold the window. -/
def Dev.rcvScale (d : Dev) : Nat :=
  ((List.range 15).find? fun s => d.fget Reg.STR_CFG.RWND_KIB * 1024 / 2 ^ s < 65536).getD 14

/-- The completing ACK of a SYN cookie opens a context (R323, R337); `c` holds the connection's addresses, ports, sequence
numbers and options. -/
def Dev.tcpOpen (d : Dev) (port : Nat) (c : Ctx) : Dev :=
  if !d.transOn 0x0D then d
  else match d.listens (bitsOf c.ports 31 16) with
  | none => d.emitBare port c.tenant
  | some tls =>
    let mtu := d.fget Reg.PRT_CFG.MTU (port / 4 % 4) - (if c.flags % 2 = 1 then 60 else 40)
    let mss := if c.mss = 0 then mtu else min c.mss mtu
    let iw := if 2190 < mss then 2 * mss else if 1095 < mss then 3 * mss else 4 * mss
    let c := { c with kind := 2, state := if tls then 2 else 1, cntlid := 0xFFFF, qid := 0xFFFF, flags := c.flags &&& 0x21
                      egress := port, mss := mss, cwnd := iw, ssthresh := 0xFFFFFFFF, rcvScale := d.rcvScale
                      maxH2c := d.fget Reg.STR_CFG.MAXH2C_KIB * 1024, r2ts := d.fget Reg.STR_CFG.R2T_MAX, keySlot := 0 }
    match d.freeCtxNo 0x0D with
    | none => ((d.bumpSat Reg.STR_ERR.REFUSED).emitBare port c.tenant).transAsync 0x0103 0 0 c
    | some n =>
      match d.makeSlot 0x0D with
      | (d, true) => (d.placeCtx 0x0D n c).setSconn n {}
      | (d, false) =>
        let t := d.tport 0x0D
        if t.wait.isSome then ((d.bumpSat Reg.STR_ERR.REFUSED).emitBare port c.tenant).transAsync 0x0103 0 0 c
        else d.setTport 0x0D { t with wait := some { ctx := n, img := c, since := d.now } }

/-- Bytes between two sequence numbers. -/
def seqDiff (a b : Nat) : Nat := (b + 2 ^ 32 - a % 2 ^ 32) % 2 ^ 32

/-- The first unacknowledged segment leaves again. -/
def Dev.tcpResend (d : Dev) (n : Nat) (c : Ctx) : Dev :=
  (d.bump Reg.STR_ERR.RETX).emitCtx n c (32 + min (max 1 c.mss) c.flight)

/-- The first bytes from offset `x` that no SACK block covers and a later block follows (R337): their offset and length. Blocks
are pairs of offsets from SND_UNA; `fuel` bounds the blocks passed. -/
def nextHole (bs : List (Nat × Nat)) : Nat → Nat → Option (Nat × Nat)
  | 0, _ => none
  | fuel + 1, x =>
    match bs.find? fun b => decide (b.1 ≤ x ∧ x < b.2) with
    | some b => nextHole bs fuel b.2
    | none =>
      match (bs.map (·.1)).filter (x < ·) with
      | [] => none
      | y :: ys => some (x, ys.foldl min y - x)

/-- A retransmission of the recovery: with SACK blocks the next hole between them, else the first unacknowledged segment. -/
def Dev.tcpRepair (d : Dev) (n : Nat) (c : Ctx) : Dev :=
  let s := d.sconn n
  let bs := s.sacked.map fun b => (seqDiff c.sndUna b.1, seqDiff c.sndUna b.2)
  if bs.isEmpty then d.tcpResend n c
  else
    let from_ := match s.rexmit with
      | some r => if seqLe c.sndUna r then seqDiff c.sndUna r else 0
      | none => 0
    match nextHole bs (bs.length + 1) from_ with
    | none => d
    | some (x, l) =>
      let l := min (max 1 c.mss) l
      let d := d.setSconn n { s with rexmit := some ((c.sndUna + x + l) % 2 ^ 32) }
      (d.bump Reg.STR_ERR.RETX).emitCtx n c (32 + l)

/-- Is a piece wholly acknowledged? -/
def SOut.done (p : SOut) (una : Nat) : Bool :=
  match p.seq with
  | some s => seqLe ((s + p.bytes) % 2 ^ 32) una
  | none => false

/-- RTT estimate of RFC 6298 after a sample. -/
def Ctx.withRtt (c : Ctx) (r : Nat) : Ctx :=
  if c.srtt = 0 then { c with srtt := min r 65535, rttvar := min (r / 2) 65535 }
  else
    let dev := if c.srtt ≤ r then r - c.srtt else c.srtt - r
    { c with rttvar := min ((3 * c.rttvar + dev) / 4) 65535, srtt := min ((7 * c.srtt + r) / 8) 65535 }

/-- The acknowledgement part of a segment (RFC 5681, RFC 6582, RFC 3168). -/
def Dev.tcpAck (d : Dev) (n : Nat) (c : Ctx) (g : TcpSeg) : Dev :=
  let mss := max 1 c.mss
  let wnd := g.wnd * 2 ^ c.sndScale
  let half := max (c.flight / 2) (2 * mss)
  let s := d.sconn n
  let s := { s with sacked := (s.sacked ++ g.sack).filter fun b => !seqLe b.2 g.ack }
  let new := seqDiff c.sndUna g.ack
  if 0 < new ∧ new ≤ c.flight then
    let s' := { s with out := s.out.filter fun p => !p.done g.ack, dupAcks := 0, timeouts := 0, rtoFrom := d.now }
    let out := s.recover.any fun r => seqLe r g.ack
    let part := s.recover.isSome && !out
    let cw := if out then min c.ssthresh (max (c.flight - new) mss + mss)
      else if part then c.cwnd - new + mss
      else if c.cwnd < c.ssthresh then c.cwnd + min new mss else c.cwnd + max 1 (mss * mss / max 1 c.cwnd)
    let marked := g.ece && bitOf c.flags 5 && s.recover.isNone && (s.cwr.all fun r => seqLe r g.ack)
    let s' := { s' with recover := if out then none else s.recover, rexmit := if part then s.rexmit else none
                        cwr := if marked then some c.sndNxt else s.cwr }
    let c' := { c with sndUna := g.ack, sndWnd := wnd, tsRecent := g.tsval
                       cwnd := if marked then half else cw, ssthresh := if marked then half else c.ssthresh }
    let c' := match g.rtt with
      | some r => c'.withRtt r
      | none => c'
    let d := (d.setSconn n s').modCtx 0x0D n fun _ => c'
    let d := if part then d.tcpRepair n c' else d
    let d := (s.out.filter fun p => p.done g.ack).foldl (fun d p => match p.kind with
      | .c2h x => d.xferDone n x 0 x.len
      | _ => d) d
    d.streamPump n
  else if new = 0 ∧ 0 < c.flight ∧ g.len = 0 ∧ wnd = c.sndWnd then
    let k := s.dupAcks + 1
    let d := d.setSconn n { s with dupAcks := k }
    if s.recover.isSome then
      let d := if s.sacked.isEmpty then d else d.tcpRepair n c
      (d.modCtx 0x0D n fun c => { c with cwnd := c.cwnd + mss }).streamPump n
    else if k = 3 then
      let d := d.setSconn n { s with dupAcks := k, recover := some c.sndNxt }
      (d.modCtx 0x0D n fun c => { c with ssthresh := half, cwnd := half + 3 * mss }).tcpRepair n c
    else d
  else ((d.setSconn n s).modCtx 0x0D n fun c => { c with sndWnd := wnd, tsRecent := g.tsval }).streamPump n

/-- A segment of an open connection (R337, R344). Data that does not begin at RCV_NXT is dropped and answered with a
duplicate ACK; accepted data is acknowledged at once. -/
def Dev.segmentOn (d : Dev) (n : Nat) (c : Ctx) (g : TcpSeg) : Dev :=
  if g.rst then d.connLost 0x0D n 5
  else
    let d := d.tcpAck n c g
    match d.ctx 0x0D n with
    | none => d
    | some c =>
      if 0 < g.len ∧ g.seq ≠ c.rcvNxt then d.emitCtx n c 32
      else
        let d := if g.len = 0 then d
          else (d.modCtx 0x0D n fun c => { c with rcvNxt := (c.rcvNxt + g.len) % 2 ^ 32 }).emitCtx n c 32
        if g.fin ∧ (g.seq + g.len) % 2 ^ 32 = (c.rcvNxt + g.len) % 2 ^ 32 then d.connLost 0x0D n 5 else d

/-- A segment that belongs to no connection is answered with a reset (R336, R337). -/
def Dev.tcpStray (d : Dev) (port tenant : Nat) : Dev := if d.transOn 0x0D then d.emitBare port tenant else d

/-- The retransmission timeout of RFC 6298, µs, with its backoff; before a round trip has been measured it is 1 s. -/
def Dev.rtoUs (d : Dev) (c : Ctx) (timeouts : Nat) : Nat :=
  max (d.fget Reg.STR_TCP.RTO_MIN_US) (if c.srtt = 0 then 1000000 else c.srtt + max 1 (4 * c.rttvar)) * 2 ^ timeouts

/-- The retransmission timer expires (R337). -/
def Dev.tcpRto (d : Dev) (n : Nat) : Dev :=
  match d.ctx 0x0D n with
  | none => d
  | some c =>
    if !d.transOn 0x0D ∨ c.flight = 0 ∨ d.now < (d.sconn n).rtoFrom + d.rtoUs c (d.sconn n).timeouts * 1000 then d
    else
      let s := d.sconn n
      if d.fget Reg.STR_TCP.RETRIES ≤ s.timeouts + 1 then d.tcpReset n 1
      else
        let mss := max 1 c.mss
        let d := d.setSconn n { s with timeouts := s.timeouts + 1, dupAcks := 0, recover := none, rtoFrom := d.now, sacked := [], rexmit := none }
        (d.modCtx 0x0D n fun c => { c with ssthresh := max (c.flight / 2) (2 * mss), cwnd := mss }).tcpResend n c

/-! ### NVMe/TCP PDUs (R338 to R340) -/

/-- A PDU that breaks the protocol: C2HTermReq, and the connection closes. -/
def Dev.termReq (d : Dev) (n : Nat) (c : Ctx) (cause : Nat) : Dev := (d.emitCtx n c (32 + 24)).tcpReset n cause

/-- A PDU takes effect on a context in service, ICReq answered before, its length right and its digests good. -/
def Dev.pduOn (d : Dev) (n : Nat) (c : Ctx) (first lenOk digestsOk : Bool) (f : Dev → SConn → Dev) : Dev :=
  let s := d.sconn n
  if c.state ≠ 1 then d
  else if first = s.ready ∨ !lenOk then d.termReq n c 8
  else if !digestsOk then (d.bumpSat Reg.STR_ERR.DIGEST).termReq n c 4
  else f d s

/-- ICReq (R338): the digests are those both sides want. -/
def Dev.icReqOn (d : Dev) (n : Nat) (c : Ctx) (pfv hpda : Nat) (hdgst ddgst lenOk : Bool) : Dev :=
  d.pduOn n c true lenOk true fun d s =>
    if pfv ≠ 0 ∨ 32 ≤ hpda then d.termReq n c 8
    else
      let h := hdgst && d.fget Reg.STR_CFG.HDGST_OK = 1
      let g := ddgst && d.fget Reg.STR_CFG.DDGST_OK = 1
      let d := d.setSconn n { s with ready := true, hdgst := h, ddgst := g }
      let d := d.modCtx 0x0D n fun c => { c with hpda := hpda, flags := c.flags ||| (8 * b2n h + 16 * b2n g) }
      d.queuePiece n .icresp 128 0

/-- The internal name under which a command's in-capsule data lands, until its read call gives it a staging TOKEN. -/
def inCapsuleToken (n cid : Nat) : Nat := 2 ^ 64 + n * 65536 + cid

/-- A capsule takes effect: its data lands, and HOSTQ takes it (R338, R340). -/
def Dev.takeCapsule (d : Dev) (n : Nat) (c : Ctx) (k : HeldCap) : Dev :=
  let cid := sqeCid k.sqe
  let d := if k.data.isEmpty then d
    else
      let s := d.sconn n
      (d.setSconn n { s with inCapsule := Tab.put s.inCapsule cid k.data.length }).land c.tenant 0 (inCapsuleToken n cid) 0
        k.data false
  d.capsule n k.sqe k.nsgl k.sgl k.seg

/-- CapsuleCmd (R338, R340); under TLS it waits for its record's tag (R342). -/
def Dev.capsuleOn (d : Dev) (n : Nat) (c : Ctx) (k : HeldCap) (lenOk digestsOk : Bool) : Dev :=
  d.pduOn n c false (lenOk && decide (k.data.length ≤ 8192)) digestsOk fun d s =>
    if bitOf c.flags 2 then d.setSconn n { s with heldCaps := s.heldCaps ++ [k] } else d.takeCapsule n c k

/-- Ask for more of a connection's read transfers with R2Ts: at most R2TS outstanding for a command, each of at most
MAXH2C bytes (R340). -/
def Dev.issueR2ts (d : Dev) (n : Nat) : Nat → Dev
  | 0 => d
  | k + 1 =>
    match d.ctx 0x0D n with
    | none => d
    | some c =>
      let s := d.sconn n
      let room := fun (x : Xfer) => decide (x.asked < x.len) &&
        decide ((s.r2ts.filter fun r => r.handle / 2 ^ 48 = x.handle / 2 ^ 48).length < c.r2ts)
      match s.xfers.findIdx? room with
      | none => d
      | some i =>
        match s.xfers[i]? with
        | none => d
        | some x =>
          let len := min (max 1 c.maxH2c) (x.len - x.asked)
          let r : R2t := { ttag := s.nextTtag, handle := x.handle, token := x.token, xoff := x.off, off := x.off + x.asked
                           len := len }
          let s := { s with r2ts := s.r2ts ++ [r], nextTtag := (s.nextTtag + 1) % 65536
                            xfers := s.xfers.set i { x with asked := x.asked + len } }
          Dev.issueR2ts ((d.setSconn n s).queuePiece n .r2t 24 0) n k

/-- Issue what may be issued. -/
def Dev.moreR2ts (d : Dev) (n : Nat) : Dev := d.issueR2ts n (16 * ((d.sconn n).xfers.length + 1))

/-- A read transfer has landed whole: it is done, or waits for its record's tag under TLS (R342, R347). -/
def Dev.landedWhole (d : Dev) (n : Nat) (c : Ctx) (x : Xfer) : Dev :=
  let s := d.sconn n
  if bitOf c.flags 2 then d.setSconn n { s with landed := s.landed ++ [x] } else d.xferDone n x 0 x.len

/-- H2CData (R340): `ttag` and `off` name the R2T and the place. -/
def Dev.h2cDataOn (d : Dev) (n : Nat) (c : Ctx) (ttag off : Nat) (data : List Byte) (lenOk digestsOk : Bool) : Dev :=
  d.pduOn n c false lenOk digestsOk fun d s =>
    match s.r2ts.find? (fun r => r.ttag = ttag) with
    | none => d.termReq n c 8
    | some r =>
      if off < r.off ∨ r.off + r.len < off + data.length then d.termReq n c 8
      else
        let same := fun (x : Xfer) => decide (x.handle = r.handle ∧ x.token = r.token ∧ x.off = r.xoff)
        match s.xfers.find? same with
        | none => d.termReq n c 8
        | some x =>
          let d := d.land x.tenant x.nsh x.token (x.off / 4096 * 4096 + (off - x.off)) data (bitOf c.flags 2)
          let r' := { r with got := r.got + data.length }
          let x' := { x with got := x.got + data.length }
          let whole := decide (x'.len ≤ x'.got)
          let s := { s with
            r2ts := if r.len ≤ r'.got then s.r2ts.filter fun q => q.ttag ≠ ttag
              else s.r2ts.map fun q => if q.ttag = ttag then r' else q
            xfers := if whole then s.xfers.filter fun y => !same y else s.xfers.map fun y => if same y then x' else y }
          let d := d.setSconn n s
          (if whole then d.landedWhole n c x' else d).moreR2ts n

/-! ### TLS (R341 to R343, R378, R379) -/

/-- The nonce of a record: the write IV XOR the record sequence number, left-padded (R378). -/
def recordNonce (iv : List Byte) (seq : Nat) : List Byte :=
  let pad := List.replicate 4 (0 : Byte) ++ (leBytes seq 8).reverse
  (padded iv 12).zipWith (· ^^^ ·) pad
where
  /-- The first `n` bytes, zero-filled. -/
  padded (b : List Byte) (n : Nat) : List Byte := (b ++ List.replicate n 0).take n

/-- The content type of a decrypted record: its last byte that is not zero (RFC 8446). -/
def innerType (plain : List Byte) : Nat := ((plain.reverse.find? fun b => b ≠ 0).map (·.toNat)).getD 0

/-- A record's tag fails (R342): the uncommitted staging of the connection is discarded, a bad_record_mac alert and a
reset leave, and the commands whose data was discarded complete with Data Transfer Error. -/
def Dev.tagFail (d : Dev) (n : Nat) (c : Ctx) : Dev :=
  let s := d.sconn n
  let d := ((d.bump Reg.STR_TLS.TAG_FAIL).bump Reg.CPH_STAT.GCM_TAG_FAIL).post 0x0D 0 0xD0 n
  let hit := (s.xfers ++ s.landed).filter fun x =>
    d.map.staging.any fun p => decide (p.2.state = .landing) && p.2.uncommitted &&
      decide (p.2.token = x.token ∧ p.2.rec_.tenant = x.tenant)
  let d := d.discard fun u => s.owns u
  let d := d.emitCtx n c (20 + 24)
  let d := d.emitCtx n c 20
  let d := d.failXfers n 3 c
  let d := d.setSconn n { s with xfers := [], landed := [], out := [], r2ts := [], heldCaps := [] }
  let d := hit.foldl (fun d x => d.hostDone (tagKey n (x.cmdref % 65536)) (cqe 0 4)) d
  d.connLost 0x0D n 3

/-- A record verifies (R342): the capsules it carried take effect, and transfers that have landed whole are committed and
done. -/
def Dev.recordGood (d : Dev) (n : Nat) (c : Ctx) : Dev :=
  let s := d.sconn n
  let caps := s.heldCaps
  let landed := s.landed
  let d := d.setSconn n { s with heldCaps := [], landed := [] }
  let st := d.map.staging.map fun p =>
    if p.2.uncommitted && landed.any (fun x => decide (x.token = p.2.token ∧ x.tenant = p.2.rec_.tenant)) then
      (p.1, { p.2 with uncommitted := false })
    else p
  let d := { d with map := { d.map with staging := st } }
  let d := landed.foldl (fun d x => d.xferDone n x 0 x.len) d
  caps.foldl (fun d k => d.takeCapsule n c k) d

/-- A handshake record goes to Warden firmware (R341). -/
def Dev.toFirmware (d : Dev) (n : Nat) (bytes : List Byte) : Dev :=
  { d with stm := { d.stm with handshake := d.stm.handshake ++ [(n, bytes)] } }

/-- A TLS record (R341, R342, R378, R379, R384): `header` is its 5-byte header, `sealed` what follows. During the handshake,
and when its content is handshake, it goes to Warden firmware. -/
def Dev.recordOn (d : Dev) (n : Nat) (c : Ctx) (header sealed : List Byte) : Dev :=
  if c.state = 2 then d.toFirmware n (header ++ sealed)
  else if !bitOf c.flags 2 then d
  else
    match (d.sslot c.keySlot).rx with
    | none => d
    | some k =>
      if !d.sessRoom c.keySlot false 1 then d.hardClose n
      else
        match Config.gcmOpen k.key (recordNonce k.iv c.rxRseq) header sealed with
        | none => d.tagFail n c
        | some plain =>
          let (d, soft) := d.sessUse c.keySlot false 1
          let d := d.modCtx 0x0D n fun c => { c with rxRseq := c.rxRseq + 1 }
          let d := if soft then (d.bumpSat Reg.STR_TLS.KEYUPDATE).queuePiece n .tls 5 0 else d
          if innerType plain = 21 then d.tcpReset n 5
          else if innerType plain = 22 then (d.toFirmware n plain).recordGood n c
          else d.recordGood n c

/-! ### The received stream, and the miss queues (R327, R338 to R343) -/

/-- A PDU or record takes effect on a resident context. A KeyUpdate holds what follows it until the next receive key is
loaded; an alert record, and H2CTermReq, end the connection. -/
def Dev.pduRun (d : Dev) (n : Nat) (p : RxPdu) : Dev :=
  match d.ctx 0x0D n with
  | none => d
  | some c =>
    match p with
    | .icReq pfv hpda h g ok => d.icReqOn n c pfv hpda h g ok
    | .capsule k ok dig => d.capsuleOn n c k ok dig
    | .h2cData ttag off data ok dig => d.h2cDataOn n c ttag off data ok dig
    | .term => d.tcpReset n 5
    | .record header sealed => d.recordOn n c header sealed
    | .keyUpdate =>
      if bitOf c.flags 2 then (d.setSconn n { d.sconn n with rxHeld := true }).bumpSat Reg.STR_TLS.KEYUPDATE else d
    | .alert => if bitOf c.flags 2 then d.tcpReset n 5 else d

/-- A PDU or record of the received stream: it takes effect now, or waits for its context or its receive key. -/
def Dev.pduIn (d : Dev) (n : Nat) (p : RxPdu) : Dev :=
  let s := d.sconn n
  if !d.transOn 0x0D ∨ (d.ctxAny 0x0D n).isNone then d
  else if (d.ctx 0x0D n).isNone || d.inMiss n || s.rxHeld || !s.rxWait.isEmpty then
    d.setSconn n { s with rxWait := s.rxWait ++ [p] }
  else d.pduRun n p

/-- The received stream of a connection that waited goes on, as far as it may. -/
def Dev.streamResume (d : Dev) (n : Nat) : Dev :=
  let s := d.sconn n
  if s.rxWait.isEmpty then d
  else s.rxWait.foldl (fun d p => d.pduIn n p) (d.setSconn n { s with rxWait := [] })

/-- ICREQ, CAPSULECMD, H2CDATA, H2CTERMREQ, and the TLS record rows. -/
def Dev.icReq (d : Dev) (n pfv hpda : Nat) (hdgst ddgst lenOk : Bool) : Dev := d.pduIn n (.icReq pfv hpda hdgst ddgst lenOk)
def Dev.capsuleCmd (d : Dev) (n : Nat) (k : HeldCap) (lenOk digestsOk : Bool) : Dev := d.pduIn n (.capsule k lenOk digestsOk)
def Dev.h2cData (d : Dev) (n ttag off : Nat) (data : List Byte) (lenOk digestsOk : Bool) : Dev :=
  d.pduIn n (.h2cData ttag off data lenOk digestsOk)
def Dev.h2cTerm (d : Dev) (n : Nat) : Dev := d.pduIn n .term
def Dev.tlsRecord (d : Dev) (n : Nat) (header sealed : List Byte) : Dev := d.pduIn n (.record header sealed)
def Dev.tlsKeyUpdate (d : Dev) (n : Nat) : Dev := d.pduIn n .keyUpdate
def Dev.tlsAlert (d : Dev) (n : Nat) : Dev := d.pduIn n .alert

/-- A frame acts on its resident context. A CNP makes SCHED limit the context's rate (R333, R363). -/
def Dev.frameOn (d : Dev) (blk n : Nat) (c : Ctx) (rx : RxFrame) : Dev :=
  match rx with
  | .raw => d
  | .request psn op ce => d.requestOn n c psn op ce
  | .ack psn code msn => d.ackOn n c psn code msn
  | .nak psn k => d.nakOn n c psn k
  | .response psn data ce => d.responseOn n c psn data ce
  | .cnp => (d.bump Reg.XPT_CNP.RECEIVED).cnpLimit n c.egress
  | .segment g => if blk = 0x0D then d.segmentOn n c g else d

/-- It acts once its context is resident; a context that is not keeps it in the miss queue. -/
def Dev.frameRun (blk pipe n : Nat) (d : Dev) (rx : RxFrame) : Dev :=
  match d.ctx blk n with
  | some c => d.frameOn blk n c rx
  | none => if (d.ctxAny blk n).isSome then d.missFrame blk pipe n rx else d

/-- A frame of a context comes through a pipeline. -/
def Dev.portFrame (d : Dev) (blk pipe n tenant : Nat) (rx : RxFrame) : Dev :=
  d.meets blk pipe n tenant rx fun d rx => Dev.frameRun blk pipe n d rx

/-- The rows of RoCEv2 packets and TCP segments. -/
def Dev.roceRequest (d : Dev) (pipe n tenant psn : Nat) (op : ReqOp) (ce : Bool) : Dev :=
  d.portFrame 0x0C pipe n tenant (.request psn op ce)
def Dev.roceAck (d : Dev) (pipe n tenant psn code msn : Nat) : Dev := d.portFrame 0x0C pipe n tenant (.ack psn code msn)
def Dev.roceNak (d : Dev) (pipe n tenant psn : Nat) (k : Nak) : Dev := d.portFrame 0x0C pipe n tenant (.nak psn k)
def Dev.roceReadResponse (d : Dev) (pipe n tenant psn : Nat) (data : List Byte) (ce : Bool) : Dev :=
  d.portFrame 0x0C pipe n tenant (.response psn data ce)
def Dev.cnpReceive (d : Dev) (pipe n tenant : Nat) : Dev := d.portFrame 0x0C pipe n tenant .cnp
def Dev.tcpSegment (d : Dev) (pipe n tenant : Nat) (g : TcpSeg) : Dev := d.portFrame 0x0D pipe n tenant (.segment g)

/-- A spilled context has been fetched (R327): the frames of its miss queue act in order, then the stream that waited. -/
def Dev.contextFetched (d : Dev) (n : Nat) : Dev :=
  match d.ctxBlk n with
  | none => d
  | some blk =>
    if !d.transOn blk then d
    else
      let d := d.fetchCtx blk n
      if (d.ctx blk n).isNone then d
      else
        let fs := d.trans.miss.flatMap fun q => (q.2.filter fun f => f.ctx = n).map fun f => (q.1, f.rx)
        let miss := d.trans.miss.map fun q => (q.1, q.2.filter fun f => f.ctx ≠ n)
        let d := { d with trans := { d.trans with miss := miss } }
        (fs.foldl (fun d f => Dev.frameRun blk f.1 n d f.2) d).streamResume n

/-! ### Calls (R346, R347, R420) -/

/-- A transfer of a command that runs for the partner is done over the link (R405). -/
def Dev.fwdXfer (d : Dev) (key : Nat) (x : Xfer) : Dev :=
  { d with belay := { d.belay with fwdXfers := d.belay.fwdXfers ++ [{ key := key, x := x }] } }

/-- Serve a transfer call of XPORT (accelerator 0x0A, block 0x0C) or STREAM (0x0B, 0x0D) up to its queueing: the answers
of R347 that refuse it, in an order of the model's own. -/
def Dev.xferCall (d : Dev) (id accel code : Nat) (f : Dev → Nat → Ctx → Xfer → Dev) : Dev :=
  let blk := accel + 2
  d.serve id accel code fun a d =>
    if (d.inst blk 0).safe then d.reply id 6
    else if !d.on blk then d.reply id 5
    else if a.args.length < 3 then d.reply id 3
    else
      let h := a.arg 0
      let n := if 2 ^ 18 ≤ a.context then a.context else bitsOf h 47 30
      let off := bitsOf (a.arg 1) 31 0
      let len := bitsOf (a.arg 1) 63 32
      let key := tagKey n (bitsOf h 63 48)
      let t := d.tag key
      let live := t.any fun t => decide (t.state = .running ∨ t.state = .committed)
      let x : Xfer := { write := code = 1, handle := h, token := a.arg 2, off := off, len := len, tenant := a.tenant
                        nsh := a.nsh, cmdref := a.cmdref, rope := (t.map (·.rope)).getD 0, runToken := a.token
                        gen := a.gen }
      if 2 ^ 18 ≤ a.context then
        if !bitOf h 29 || !live then d.reply id 0x10
        else if len = 0 ∨ 1048576 < len then d.reply id 3
        else if (t.map Tag.moves).getD 0 < off + len then d.reply id 0x11
        else (d.reply id 0).fwdXfer key x
      else match d.ctxAny blk n with
      | none => d.reply id (if bitOf h 29 then 0x12 else 0x10)
      | some c =>
        if !bitOf h 29 then d.reply id 0x10
        else if c.tenant ≠ a.tenant ∧ a.tenant ≠ 0 then d.reply id 1
        else if (blk = 0x0C ∧ c.state ≠ 1) ∨ (blk = 0x0D ∧ c.state = 3) then d.reply id 0x12
        else if !live then d.reply id 0x10
        else if len = 0 ∨ 1048576 < len then d.reply id 3
        else if (t.map Tag.moves).getD 0 < off + len then d.reply id 0x11
        else
          f ((d.needCtx blk n).reply id 0) n c { x with tenant := c.tenant }

/-- The egress comparison (R419, R420): every unit that CIPHER delivered under the source TOKEN still has its data CRC. -/
def Dev.egressGood (d : Dev) (x : Xfer) : Bool :=
  (d.cipher.plain.filter fun p => p.token = x.token).all fun p => dataCrc (p.data.bytes 0 4096) = p.crc

/-- The egress comparison fails: the packet is never formed, the transfer ends with 0x0016, SPOTTER records TAG_EGRESS. -/
def Dev.egressBad (d : Dev) (blk n : Nat) (x : Xfer) : Dev := (d.xferDone n x 0x16 0).raiseFault 0x04 blk 0 n

/-- XPORT's write call: an RDMA WRITE (R332, R347). A read that runs anew after a takeover resends its recorded packets at
their recorded PSNs when the write generations agree, and its connection closes otherwise (R412). `bad` says that the egress comparison meets altered data. -/
def Dev.xportWrite (d : Dev) (id : Nat) (bad : Bool) : Dev :=
  d.xferCall id 0x0A 1 fun d n c x =>
    let mine := d.belay.carried.filter fun t => decide (t.ctx = n ∧ t.cmdref = x.cmdref)
    let same := mine.all fun t => decide (d.wgensOf x.token t.off (t.off + t.bytes) = t.wgens.filter (· ≠ 0))
    if bad || !d.egressGood x then d.egressBad 0x0C n x
    else if !same then d.connLost 0x0C n 6
    else if let t :: _ := mine then
      let m : TxMsg := { op := .write, tag := tagKey n (x.cmdref % 65536), cmdref := x.cmdref, psn := t.psn
                         pkts := max 1 ((x.len + c.mtu - 1) / c.mtu), state := .sent, xfer := some x }
      let rest := d.belay.carried.filter fun t => !decide (t.ctx = n ∧ t.cmdref = x.cmdref)
      let d := { d with belay := { d.belay with carried := rest } }
      let r := d.rconn n
      let d := d.setRconn n { r with out := r.out ++ [m] }
      let last := (t.psn + m.pkts) % 2 ^ 24
      let d := d.modCtx 0x0C n fun c => if psnLe c.npsn last then { c with npsn := last } else c
      d.sendMsg n c m
    else
      let m : TxMsg := { op := .write, tag := tagKey n (x.cmdref % 65536), cmdref := x.cmdref
                         pkts := max 1 ((x.len + c.mtu - 1) / c.mtu), xfer := some x }
      d.queueMsg n m

/-- XPORT's read call: an RDMA READ, which takes one PSN for each response packet. -/
def Dev.xportRead (d : Dev) (id : Nat) : Dev :=
  d.xferCall id 0x0A 2 fun d n c x =>
    d.queueMsg n { op := .read, tag := tagKey n (x.cmdref % 65536), cmdref := x.cmdref
                   pkts := max 1 ((x.len + c.mtu - 1) / c.mtu), xfer := some x }

/-- STREAM's write call: C2HData (R338, R347). -/
def Dev.streamWrite (d : Dev) (id : Nat) (bad : Bool) : Dev :=
  d.xferCall id 0x0B 1 fun d n c x =>
    if bad || !d.egressGood x then d.egressBad 0x0D n x
    else
      let align := 4 * (c.hpda + 1)
      let head := (24 + (if (d.sconn n).hdgst then 4 else 0) + align - 1) / align * align -
        (if (d.sconn n).hdgst then 4 else 0)
      d.queuePiece n (.c2h x) head x.len

/-- STREAM's read call: in-capsule data is there already, and the rest is asked for with R2Ts (R340, R347). -/
def Dev.streamRead (d : Dev) (id : Nat) : Dev :=
  d.xferCall id 0x0B 2 fun d n c x =>
    let s := d.sconn n
    let cid := x.handle / 2 ^ 48
    match Tab.look s.inCapsule cid with
    | some k =>
      if x.off + x.len ≤ k then
        let st := d.map.staging.map fun p =>
          if p.2.token = inCapsuleToken n cid then
            (p.1, { p.2 with token := x.token, rec_ := { p.2.rec_ with nsh := x.nsh } })
          else p
        let d := { d with map := { d.map with staging := st } }
        let d := d.setSconn n { s with inCapsule := Tab.del s.inCapsule cid }
        d.xferDone n { x with got := x.len } 0 x.len
      else (d.setSconn n { s with xfers := s.xfers ++ [x] }).moreR2ts n
    | none => (d.setSconn n { s with xfers := s.xfers ++ [x] }).moreR2ts n

/-- A sub-port that contexts send on has gone down: KIND 0x0102 for each transport that has contexts bound to it (R345). The
controller and queue it names are a free value, because the spec does not say whose they are. -/
def Dev.egressDown (d : Dev) (port : Nat) : Dev :=
  let has := fun (d : Dev) (blk : Nat) => ((d.tport blk).res.any fun p => p.2.egress = port) ||
    ((d.tport blk).spilled.any fun n => (readCtx d.mem.dram (d.spillAddr blk n)).egress = port)
  [0x0C, 0x0D].foldl (fun d blk =>
    if has d blk then
      let (v, d) := d.takeFree
      d.transAsync 0x0102 0 0 { egress := port, cntlid := field v 15 0, qid := field v 31 16, tenant := 0 }
    else d) d

end Sys2Proof.Machine
end

