-- ==== Sys2Proof/Machine/CipherOps.lean ====
section
/-! DEFINITION. CIPHER: loading and destroying keys, counts and promotions, seals and withdrawals, and the decryption of
what is read (R369 to R388). -/

namespace Sys2Proof.Machine

/-! ### Promotions and counts (R380 to R383) -/

/-- Is a KEYGEN record of a slot not durable yet (R381)? -/
def Dev.keygenWaits (d : Dev) (slot : Nat) : Bool :=
  (d.jnl.pend.any fun p =>
    d.jnl.mram.read (ringSlot p.jseq) 1 = 6 && d.jnl.mram.read (ringSlot p.jseq + 16) 2 % 2 ^ 14 = slot) ||
    d.jnl.waits.any fun w => w.typ = 6 && w.body % 2 ^ 14 = slot

/-- Append the KEYGEN record of a slot's generation (R221, R381); false at a full ring. -/
def Dev.keygenRecord (d : Dev) (slot gen nsh : Nat) : Dev × Bool := d.append 6 0 nsh (slot + gen % 256 * 2 ^ 16) .none

/-- Bands that hold units of a generation get a re-key work item (R282). -/
def Dev.markRekey (d : Dev) (slot gen : Nat) : Dev :=
  let es := (d.map.valid.filter fun p => decide (p.2.keySlot = slot ∧ p.2.keyGen = gen)).map fun p => p.1 * 4
  let bs := (d.stripe.bands.filter fun b => decide (b.2.state = .closed) && es.any fun e => b.2.chunks.any fun c => c.has e).map
    (·.1)
  bs.foldl (fun d n => d.bandItem n 6) d

/-- Promote a slot's standby to its current generation, numbered one above the old one (R381): its KEYGEN record, the old
generation's re-encryption, event 0x0180. `keep` says that the old generation drains rather than being destroyed. -/
def Dev.promote (d : Dev) (n : Nat) (keep : Bool) : Dev × Bool :=
  let s := d.dslot n
  match s.cur, s.standby with
  | some k, some b =>
    let gen := (k.gen + 1) % 256
    match d.keygenRecord n gen s.nsh with
    | (d, false) => (d, false)
    | (d, true) =>
      let d := d.setDslot n { s with cur := some { b with gen := gen, used := 0 }, standby := none, deferred := false
                                     older := if keep then s.older ++ [k] else [] }
      let d := if keep then d.markRekey n k.gen else d
      ((d.bump Reg.CPH_ROTATE.PROMOTED).post 0x18 0 0x180 (n + gen * 2 ^ 16), true)
  | _, _ => (d, false)

/-- May the slot promote: a standby is loaded and fewer than two generations drain (R25, R381)? -/
def DSlot.mayPromote (s : DSlot) : Bool := s.standby.isSome && decide (s.older.length < 2)

/-- At or past the soft limit a slot promotes, or its promotion is deferred with event 0x0181 once. -/
def Dev.atSoft (d : Dev) (n : Nat) : Dev :=
  let s := d.dslot n
  if (s.cur.map (·.used)).getD 0 < d.xtsSoft then d
  else if s.mayPromote then (d.promote n true).1
  else if s.deferred then d
  else ((d.setDslot n { s with deferred := true }).bump Reg.CPH_ROTATE.DEFERRED).post 0x18 0 0x181 n

/-- The generation that encrypts the next unit of a slot, counted; none when the slot is EMPTY, at the ceiling, or waits for
the KEYGEN record of a promotion (R381). -/
def Dev.takeKey (d : Dev) (n : Nat) : Dev × Option KeyGen :=
  let s := d.dslot n
  let d := if (s.cur.map (·.used)).getD 0 < d.xtsSoft then d else d.atSoft n
  let s := d.dslot n
  match s.cur with
  | none => (d, none)
  | some k =>
    if xtsCeiling ≤ k.used ∨ d.keygenWaits n = true then (d, none)
    else
      let d := d.setDslot n { s with cur := some { k with used := k.used + 1 } }
      let d := if k.used + 1 = d.xtsHard then d.post 0x18 0 0x182 n else d
      (if k.used + 1 = d.xtsSoft then d.atSoft n else d, some k)

/-- The tweak of a unit (R374). -/
def URec.tweak (r : URec) : Nat := r.laddr + r.wgen % 2 ^ 64 * 2 ^ 64

/-! ### Loading and destroying keys (R371, R372, R386) -/

/-- A session key is loaded: its direction's record sequence restarts, and a connection held for a KeyUpdate goes on
(R341, R343, R372). -/
def Dev.sessionLoaded (d : Dev) (slot : Nat) (send : Bool) : Dev :=
  let t := d.tport 0x0D
  let mine := (t.res.filter fun p => bitOf p.2.flags 2 && p.2.keySlot = slot).map (·.1) ++
    t.spilled.filter fun n => let c := readCtx d.mem.dram (d.spillAddr 0x0D n); bitOf c.flags 2 && c.keySlot = slot
  mine.foldl (fun d n =>
    let d := d.needCtx 0x0D n
    let d := d.modCtx 0x0D n fun c => if send then { c with txRseq := 0 } else { c with rxRseq := 0 }
    if send then d else (d.setSconn n { d.sconn n with rxHeld := false }).streamResume n) d

/-- RESULT of a load, and what it leaves (R372): the checks in the table's order. -/
def Dev.keyLoadResult (d : Dev) (session : Bool) (slot : Nat) : Nat × Dev :=
  let a := d.fget Reg.CPH_LOAD.ADDR
  let m := d.mem.dram
  let head := m.bytes a 8
  let recSlot := m.read a 2
  let nsh := m.read (a + 2) 2
  let ten := m.read (a + 4) 2
  let role := m.read (a + 6) 1
  let gen := m.read (a + 7) 1
  let range := if session then decide (slot < 12288) else decide (slot < 16384)
  let zeros := decide (recSlot < 32768 ∧ nsh < 16384 ∧ ten < 4096 ∧ m.read (a + 88) 8 = 0 ∧
    (role = 0 ∨ (gen = 0 ∧ nsh = 0)))
  if !range || 2 < role || !zeros then (2, d)
  else
    match d.anchor.kek.bind fun k => Config.keyUnwrap k (m.bytes (a + 8) 80) with
    | none => (5, d)
    | some plain =>
      let key := plain.drop 8
      if plain.take 8 ≠ head ∨ recSlot % 16384 ≠ slot ∨ bitOf recSlot 14 ≠ session ∨ decide (role ≠ 0) ≠ session then (0x20, d)
      else if session then
        let s := d.sslot slot
        let old := if role = 1 then s.rx else s.tx
        let k : SKey := { key := key.take 32, iv := (key.drop 32).take 12, gen := ((old.map (·.gen)).getD 0 + 1) % 256 }
        let d := d.setSslot slot (if role = 1 then { s with rx := some k } else { s with tx := some k })
        (0, d.sessionLoaded slot (decide (role = 2)))
      else
        let s := d.dslot slot
        if key.take 32 = (key.drop 32).take 32 then (0x21, d)
        else
          let k : KeyGen := { gen := gen, key := key.take 64 }
          match s.cur with
          | none =>
            let d := d.setDslot slot { tenant := ten, nsh := nsh, cur := some k, older := s.older }
            (0, (d.keygenRecord slot gen nsh).1)
          | some c =>
            if s.tenant ≠ ten ∨ s.nsh ≠ nsh then (0x22, d)
            else if s.standby.isSome then (0x23, d)
            else if gen ≠ (c.gen + 1) % 256 then (0x24, d)
            else (0, d.setDslot slot { s with standby := some k })

/-- A write of CPH_LOAD_CTRL with GO = 1 (R372). -/
def Dev.keyLoad (d : Dev) (session : Bool) (slot : Nat) : Dev :=
  if !d.on 0x18 || d.fget Reg.CPH_LOAD_CTRL.BUSY = 1 then d
  else
    let d := (d.fset Reg.CPH_LOAD_CTRL.SESSION (b2n session)).fset Reg.CPH_LOAD_CTRL.SLOT slot
    let (r, d) := d.keyLoadResult session (slot % 16384)
    d.fset Reg.CPH_LOAD_CTRL.RESULT r

/-- Zeroise a data slot: it is EMPTY. -/
def Dev.zeroData (d : Dev) (n : Nat) : Dev :=
  Dev.showSlots { d with cipher := { d.cipher with data := Tab.del d.cipher.data n } }

/-- A write of CPH_DESTROY with GO = 1 (R386). -/
def Dev.keyDestroy (d : Dev) (all session : Bool) (slot : Nat) : Dev :=
  if !d.on 0x18 || d.fget Reg.CPH_DESTROY.BUSY = 1 then d
  else
    let d := ((d.fset Reg.CPH_DESTROY.ALL (b2n all)).fset Reg.CPH_DESTROY.SESSION (b2n session)).fset Reg.CPH_DESTROY.SLOT slot
    if all then Dev.showSlots { d with cipher := { d.cipher with data := [], sess := [] } }
    else if session then Dev.showSlots { d with cipher := { d.cipher with sess := Tab.del d.cipher.sess slot } }
    else d.zeroData slot

/-- Destroy every generation of a data slot; its standby becomes a new current generation. Answers whether the slot is
then EMPTY (R386). -/
def Dev.eraseSlot (d : Dev) (n : Nat) : Dev × Bool :=
  match d.promote n false with
  | (d, true) => (d, false)
  | (d, false) =>
    let s := d.dslot n
    (d.setDslot n { s with cur := none, standby := none, older := [], deferred := false }, true)

/-- Perform the erase calls that no queued seal holds up any more (R386). -/
def Dev.runErases (d : Dev) : Dev :=
  d.cipher.erases.foldl (fun d e =>
    if d.cipher.seals.any (fun s => decide (s.slot = e.2.1 ∧ s.serial < e.2.2)) then d
    else
      let (d, empty) := d.eraseSlot e.2.1
      ({ d with cipher := { d.cipher with erases := d.cipher.erases.erase e } }).reply e.1 (if empty then 0x14 else 0)) d

/-! ### Calls (R387) -/

/-- May the asking run use the slot: its tenant and namespace are the slot's, or tenant 0 acts on a work item's TOKEN? -/
def Dev.slotAllows (d : Dev) (a : Ask) (n : Nat) : Bool :=
  let s := d.dslot n
  (s.tenant = a.tenant && s.nsh = a.nsh) || (a.tenant = 0 && (Tab.look d.stripe.items a.token).isSome)

/-- The seal call. -/
def Dev.cipherSeal (d : Dev) (id : Nat) : Dev :=
  d.serve id 6 1 fun a d =>
    if (d.inst 0x18 0).safe then d.reply id 6
    else if !d.serves 0x18 then d.reply id 5
    else
      let tok := a.arg 0
      let n := bitsOf (a.arg 1) 8 0
      let slot := bitsOf (a.arg 1) 29 16
      if n = 0 ∨ 256 < n then d.reply id 3
      else if (d.dslot slot).cur.isNone then d.reply id 0x10
      else if !d.slotAllows a slot then d.reply id 1
      else
        let us := (d.map.staging.filter fun p => decide (p.2.tag = some a.tagKey ∧ p.2.token = tok) && !p.2.sealed &&
          !p.2.rec_.zrange).insertionSort fun x y => decide (x.2.rec_.lba ≤ y.2.rec_.lba)
        if us.any (fun p => p.2.uncommitted) then d.reply id 0x13
        else
          let us := us.take n
          let s : Seal := { ctx := a.context, cmdref := a.cmdref, tenant := a.tenant, nsh := a.nsh, runToken := a.token
                            runGen := a.gen, token := tok, slot := slot, rope := a.arg 2, left := us.map (·.1), units := us.length }
          (d.queueSeal s).reply id 0

/-- The erase call: performed after every seal already queued on the slot. -/
def Dev.cipherErase (d : Dev) (id : Nat) : Dev :=
  d.serve id 6 2 fun a d =>
    if (d.inst 0x18 0).safe then d.reply id 6
    else if !d.serves 0x18 then d.reply id 5
    else if a.args = [] then d.reply id 3
    else
      let n := bitsOf (a.arg 0) 13 0
      if !d.slotAllows a n && (d.dslot n).cur.isSome then d.reply id 1
      else Dev.runErases { d with cipher := { d.cipher with erases := d.cipher.erases ++ [(id, n, d.cipher.nextSeal)] } }

/-! ### Seals (R375) -/

/-- Withdraw a write whose seal failed: its entries that still name its staging return to what they replaced, the units
they had superseded are current again, and its staging is freed. -/
def Dev.withdraw (d : Dev) (tag : Nat) : Dev :=
  let mine := d.map.staging.filter fun p => p.2.tag = some tag
  let d := mine.foldl (fun d p =>
    let u := p.2
    let key := unitKey u.rec_.nsh (d.unitOf u.rec_.lba)
    let e := d.entryAt key
    if u.rec_.zrange || !(entIsStaged e && decide (entIndex e = u.group ∧ e % 4 = u.rec_.wgen % 4)) then d
    else
      let old := u.replaced
      let st := d.map.staging.map fun q =>
        if q.2.tag = some tag ∨ q.2.rec_.zrange = true then q
        else if entIsStaged old = true ∧ (q.2.group = u.group ∨ q.2.group = entIndex old) ∧
            d.unitOf q.2.rec_.lba = d.unitOf u.rec_.lba ∧ q.2.rec_.nsh = u.rec_.nsh then
          let back := decide (q.2.superseded = some u.cycle)
          (q.1, { q.2 with group := entIndex old, superseded := if back then none else q.2.superseded
                           state := if back && q.2.switched then .dirty else q.2.state
                           switched := q.2.switched && !back })
        else q
      ({ d with map := { d.map with staging := st } }).setEntry key old) d
  let st := d.map.staging.filter fun p => decide (p.2.tag ≠ some tag)
  let bound := Tab.del d.map.bound tag
  Dev.showStaging { d with map := { d.map with staging := st, bound := bound } }

/-- The seal at place `k` of the queue goes on with its next unit; one behind an erase call of its slot waits for it (R386).
`bad` says that the recomputed data CRC differs from the
one of the landing. -/
def Dev.sealUnit (d : Dev) (k : Nat) (bad : Bool) : Dev :=
  if !d.on 0x18 then d
  else
    match d.cipher.seals[k]? with
    | none => d
    | some s =>
      let put := fun (d : Dev) (x : Seal) => { d with cipher := { d.cipher with seals := d.cipher.seals.set k x } }
      let d := match s.left with
        | [] => d
        | i :: rest =>
          match Tab.look d.map.staging i with
          | none => put d { s with left := rest }
          | some u =>
            if d.cipher.erases.any fun e => decide (e.2.1 = s.slot ∧ e.2.2 ≤ s.serial) then d
            else if bad || dataCrc (u.data.bytes 0 4096) ≠ u.crc then
              let d := (d.setErr 0x18 0 8).bump Reg.CPH_STAT.PI_FAIL
              let d := d.raiseFault 0x03 0x18 0 s.slot
              (put d { s with left := [], units := s.units - s.left.length, failed := true }).withdraw (u.tag.getD (tagKey s.ctx s.cmdref))
            else
              match d.takeKey s.slot with
              | (d, none) => d
              | (d, some g) =>
                let r := { u.rec_ with wgen := s.rope, keySlot := s.slot, keyGen := g.gen }
                let r := { r with tag := finishTag u.crc r.laddr r.wgen }
                let ct := Config.xtsEncrypt g.key r.tweak (u.data.bytes 0 4096)
                let d := d.modUnit i fun u => { u with sealed := true, rec_ := r, data := Memory.setBytes [] 0 ct }
                (put d { s with left := rest, first := some (s.first.getD g.gen), last := g.gen }).sample 0x10 (some s.tenant)
      match d.cipher.seals[k]? with
      | some s =>
        if s.left.isEmpty then
          let done : CDone := { result := if s.failed then 0x19 else 0, op := 1, first := s.first.getD 0, last := s.last
                                units := s.units, slot := s.slot, token := s.token, ctx := s.ctx, cmdref := s.cmdref
                                tenant := s.tenant, nsh := s.nsh, rope := s.rope, runToken := s.runToken, gen := s.runGen }
          Dev.runErases { d with cipher := { d.cipher with
            seals := d.cipher.seals.eraseIdx k
            dones := if s.own then d.cipher.dones else d.cipher.dones ++ [done] } }
        else d
      | none => d

/-- CIPHER posts CIPHER_DONE for the oldest seal or read that has finished every unit (R388). -/
def Dev.cipherDone (d : Dev) : Dev :=
  match d.cipher.dones with
  | [] => d
  | c :: rest =>
    { d with cipher := { d.cipher with dones := rest } }.event
      { typ := evCipherDone, gen := some c.gen,
        words := descriptor evCipherDone 64 c.tenant c.nsh c.ctx c.cmdref c.rope c.runToken
          [c.result % 2 ^ 32 + c.op * 2 ^ 32 + c.first % 256 * 2 ^ 40 + c.last % 256 * 2 ^ 48,
           c.units % 65536 + c.slot % 2 ^ 14 * 2 ^ 16, c.token, 0] }

/-! ### Reads (R376, R283) -/

/-- The key of a generation of a slot, current or draining. -/
def Dev.keyOf (d : Dev) (slot gen : Nat) : Option (List Byte) :=
  let s := d.dslot slot
  ((s.cur.toList ++ s.older).find? fun k => k.gen = gen).map (·.key)

/-- Does the record belong to the block that a read job's unit reads? Work on media units takes what their records say. -/
def ReadJob.fits (job : ReadJob) (u : JobUnit) (r : URec) : Bool :=
  job.move || job.fill || decide (r.nsh = job.nsh ∧ r.lba = u.lba)

/-- A unit's tag fails: counted; the unit goes to decode level 4, or is unrecovered when it came from there (R260, R376). -/
def Dev.tagBad (d : Dev) (j i : Nat) (u : JobUnit) : Dev :=
  let d := d.bump Reg.CPH_STAT.PI_FAIL
  if u.level = 4 then
    ((d.bump Reg.MDA_UNRECOV.TAG_FAIL).modJobUnit j i fun u => { u with tagFailed := true }).unrecovered j i u.entry
  else d.toLevel4 j i

/-- A re-key move encrypts a unit under its slot's current generation (R283); a zero-range unit only changes its record. -/
def Dev.rekey (d : Dev) (r : URec) (plain : List Byte) (data : Memory) : Dev × URec × Memory :=
  match (d.dslot r.keySlot).cur with
  | none => (d, r, data)
  | some c =>
    if c.gen = r.keyGen then (d, r, data)
    else if r.zrange then (d, { r with keyGen := c.gen }, data)
    else
      match d.takeKey r.keySlot with
      | (d, none) => (d, r, data)
      | (d, some g) => (d, { r with keyGen := g.gen }, Memory.setBytes [] 0 (Config.xtsEncrypt g.key r.tweak plain))

/-- A unit of a read job that has decoded is decrypted and its tag checked (R376). A unit still unsealed in staging waits
for its seal (R375). -/
def Dev.unitDecrypt (d : Dev) (j i : Nat) : Dev :=
  if !d.on 0x18 then d
  else
    match Tab.look d.media.jobs j with
    | none => d
    | some job =>
      match job.units[i]? with
      | none => d
      | some u =>
        if !u.decoded || u.done then d
        else
          match u.rec_ with
          | none =>
            if d.mapSpan = 4 ∧ job.move = false ∧ job.fill = false then
              let z := zeroUnit (tagKey job.ctx job.cmdref) job.dest u.place
              ({ d with cipher := { d.cipher with plain := d.cipher.plain ++ [z] } }.modJobUnit j i fun u =>
                { u with done := true }).finishJob j
            else d.tagBad j i u
          | some r0 =>
            let live := if entIsStaged u.entry then
                d.map.staging.find? fun p => decide (p.2.rec_.nsh = r0.nsh ∧ p.2.rec_.lba = r0.lba ∧ p.2.rec_.wgen = r0.wgen)
              else none
            if live.any (fun p => !p.2.sealed) then d
            else
              let (r, data) := match live with
                | some p => (p.2.rec_, p.2.data)
                | none => (r0, u.data)
              let ct := data.bytes 0 4096
              let rekey := job.move && (Tab.look d.stripe.bands job.dest).any (·.item = some 6)
              if rekey && d.keygenWaits r.keySlot then d
              else
              let plain := if r.zrange then some ct else (d.keyOf r.keySlot r.keyGen).map fun k => Config.xtsDecrypt k r.tweak ct
              match plain with
              | none => d.tagBad j i u
              | some p =>
                let crc := dataCrc p
                if finishTag crc r.laddr r.wgen ≠ r.tag ∨ job.fits u r = false then d.tagBad j i u
                else
                  let d := d.modJobUnit j i fun u => { u with done := true }
                  let d := if job.move || job.fill then
                      let (d, r, data) := if rekey then d.rekey (r.ranged data) p data else (d, r.ranged data, data)
                      let m : MoveUnit := { rec_ := { r with copy := true }, data := data, src := u.entry }
                      if job.move then { d with stripe := { d.stripe with moveBuf := d.stripe.moveBuf ++ [m] } }
                      else { d with map := { d.map with fills := d.map.fills ++ [m] } }
                    else
                      let x : PlainUnit := { tag := tagKey job.ctx job.cmdref, token := job.dest, index := u.place
                                             wgen := r.wgen, data := Memory.setBytes [] 0 p, crc := crc }
                      { d with cipher := { d.cipher with plain := d.cipher.plain ++ [x] } }
                  d.finishJob j

/-- MAP reports no valid unit under a draining generation: its key is zeroised (R219, R385). -/
def Dev.generationDrained (d : Dev) (slot gen : Nat) : Dev :=
  let s := d.dslot slot
  if d.keyUnits slot gen ≠ 0 ∨ s.older.all (fun k => decide (k.gen ≠ gen)) then d
  else
    (d.setDslot slot { s with older := s.older.filter fun k => decide (k.gen ≠ gen) }).post 0x18 0 0x183 (slot + gen % 256 * 2 ^ 16)

/-! ### Crypto erase and NS_CLEAR (R216 to R218) -/

/-- Step 2 and 3 of R218: the NS_CLEAR record with the page sequence number, and every entry DEALLOC. -/
def Dev.nsClear (d : Dev) (nsh : Nat) : Dev :=
  let olds := (d.map.entries.filter fun p => p.1 / 2 ^ 40 = nsh).map fun p => d.formerOf p.2
  let pages := (d.map.dir.filter fun p => p.1 / 2 ^ 32 = nsh).map (·.2)
  let d := olds.foldl Dev.endCopy d
  let seq := d.map.seq
  let cyc := d.cycle
  let st := d.map.staging.map fun p =>
    if p.2.rec_.nsh = nsh ∧ p.2.state ≠ .landing ∧ p.2.state ≠ .mirror ∧ p.2.superseded = none then
      (p.1, { p.2 with superseded := some cyc })
    else p
  let d := { d with map := { d.map with
      entries := d.map.entries.filter fun p => p.1 / 2 ^ 40 ≠ nsh
      dir := d.map.dir.filter fun p => p.1 / 2 ^ 32 ≠ nsh
      frames := d.map.frames.filter fun p => p.1 / 2 ^ 32 ≠ nsh
      ring := d.map.ring.filter fun p => p / 2 ^ 32 ≠ nsh
      sram := d.map.sram.filter fun k => k / 2 ^ 40 ≠ nsh
      fills := d.map.fills.filter fun m => m.rec_.nsh ≠ nsh
      staging := st
      clearSeq := Tab.put d.map.clearSeq nsh seq } }
  (d.append 3 0 nsh seq (.stale (olds.filter entIsMedia) pages)).1

/-- A crypto erase of one namespace (R218). -/
def Dev.cryptoErase (d : Dev) (nsh : Nat) : Dev :=
  match Tab.look d.hostq.nss nsh with
  | none => d
  | some n => ((d.eraseSlot n.keySlot).1).nsClear nsh

end Sys2Proof.Machine
end

