-- ==== Sys2Proof/Machine/HostqOps.lean ====
section
/-! DEFINITION. The NVMe target's admin and I/O commands, the management path, and HOSTQ's namespace updates (R135 to
R165). Data-structure offsets that the spec takes from NVMe 2.0 are PRESUMED from that standard (log 24). -/

namespace Sys2Proof.Machine

/-! ### Admin commands -/

/-- The parameters of an admin command: its sender, its entry, its controller (none on the management path) and the bytes
its SGL describes. -/
structure AdmIn where
  src : Src
  sqe : List Word
  ctrl : Option (Nat × Ctrl)
  sgl : Nat

/-- Complete an admin command (R150), with its data cut to what its SGL describes (R151). -/
def Dev.admDone (d : Dev) (a : AdmIn) (c : Cqe) (data : Option HostData := none) : Dev :=
  let data := data.map fun h => { h with len := min h.len a.sgl }
  match a.src with
  | .host ctx cid => (d.modTag (tagKey ctx cid) fun t => { t with data := data }).hostDone (tagKey ctx cid) c
  | .mgmt _ => { d with hostq := { d.hostq with mgmtCqe := some c, mgmtData := data } }

/-- Opcodes that run while a sanitize does (R150). -/
def sanitizeOk : List Nat := [0x06, 0x02, 0x0A, 0x18, 0x08]

/-- Is a sanitize running? -/
def Dev.sanitizing (d : Dev) : Bool := d.hostq.sanitize.any (·.running)

/-- Run an admin command of opcode `op` from its sender: a host's must be an outstanding command of that opcode on an
admin queue. While a sanitize runs, all but the commands of R150 are refused. -/
def Dev.admin (d : Dev) (src : Src) (op : Nat) (f : AdmIn → Dev → Dev) : Dev :=
  let go := fun (a : AdmIn) (d : Dev) =>
    if d.sanitizing && !sanitizeOk.contains op then d.admDone a (cqe 0 0x1D false) else f a d
  match src with
  | .mgmt sqe =>
    if !d.on 0x10 ∨ sqeOpcode sqe ≠ op then d else go { src := src, sqe := padWords 8 sqe, ctrl := none, sgl := 2 ^ 32 } d
  | .host ctx cid =>
    match d.tag (tagKey ctx cid) with
    | none => d
    | some t =>
      if t.qid ≠ 0 ∨ sqeOpcode t.sqe ≠ op ∨ t.state = .completed ∨ t.held then d
      else
        match d.ctrlFor t with
        | none => d
        | some c =>
          let d := (d.dropArrival ctx cid).modTag (tagKey ctx cid) fun t =>
            { t with state := if t.state = .committed then .committed else .running, checked := true }
          go { src := src, sqe := t.sqe, ctrl := some (t.ctrl, c), sgl := t.sglLen } d

/-- A dword of the command. -/
def AdmIn.dw (a : AdmIn) (n : Nat) : Nat := sqeDw a.sqe n

/-- Did a controller, not the management path, send it, and is it a discovery controller? -/
def AdmIn.discovery (a : AdmIn) : Bool := a.ctrl.any (·.2.discovery)

/-- The namespaces a sender sees: those attached to its controller, or every one of the unit on the management path. -/
def Dev.nsOf (d : Dev) (a : AdmIn) : List (Nat × Ns) :=
  d.hostq.nss.filter fun p => match a.ctrl with
    | some (_, c) => c.sees p.2
    | none => true

/-- The namespace a command names. -/
def Dev.nsNamed (d : Dev) (a : AdmIn) : Option (Nat × Ns) := (d.nsOf a).find? fun p => p.2.nsid = sqeNsid a.sqe

/-- ASCII bytes of a string. -/
def ascii (s : String) : List Byte := s.toList.map fun c => BitVec.ofNat 8 c.toNat

/-- The upper-case hexadecimal digit of a number below 16. -/
def hexDigit (n : Nat) : Byte := BitVec.ofNat 8 (if n < 10 then 48 + n else 55 + n)

/-- The first 64 bytes of a measurement of R432 by its index, zeros when there is none. -/
def Dev.measure (d : Dev) (i : Nat) : List Byte := ((Tab.look d.anchor.meas i).map (·.shake)).getD []

/-! ### Log pages (R148, R151, R158, R159) -/

/-- Log page C0h (R159). -/
def Dev.tenantPage (d : Dev) (t : Nat) : Memory :=
  let m := ((Memory.write [] 0 2 1).write 2 2 t).write 8 8 d.now
  (List.range 14).foldl (fun m i => m.write (16 + 8 * i) 8 (d.tcntOf t i).toNat) m

/-- Log page 06h: the test in progress and the last 20 results; an entry without a result holds Fh. -/
def Dev.selfTestPage (d : Dev) : Memory :=
  let cur := match d.hostq.selfTest with
    | some s => if s.extended then 2 else 1
    | none => 0
  (List.range 20).foldl (fun m i => match d.hostq.stLog[i]? with
    | some r => (m.write (4 + 28 * i) 1 (r.code * 16 + r.result)).write (5 + 28 * i) 1 r.segment
    | none => m.write (4 + 28 * i) 1 0x0F) (Memory.write [] 0 1 cur)

/-- The first eight hexadecimal digits, upper case, of an image's hash (R160). -/
def hashDigits (hash : List Byte) : List Byte :=
  (hash.take 4).flatMap fun b => [hexDigit (b.toNat / 16), hexDigit (b.toNat % 16)]

/-- Log page 03h (R155): the active slot, the slot of the next reset, and each slot's revision, which for the active slot is
that of the image that runs. -/
def Dev.slotPage (d : Dev) : Memory :=
  let fw := d.hostq.fw
  let rev (i : Nat) : List Byte :=
    if i = fw.active then hashDigits (d.measure 4)
    else match Tab.look fw.slots i with
      | some b => hashDigits (Config.shake256 b.program 64)
      | none => []
  ((Memory.write [] 0 1 (fw.active + 16 * fw.nextReset.getD 0)).setBytes 8 (rev 1)).setBytes 16 (rev 2)

/-- Log page 81h (R163): progress in 65,536ths, FFFFh when none runs; the status of the last sanitize; and its SANACT. -/
def Dev.sanitizePage (d : Dev) : Memory :=
  let left := (d.stripe.bands.filter fun b => decide (b.2.state ∈ [BState.victim, .erasing])).length
  let (prog, stat, act) := match d.hostq.sanitize with
    | none => (0xFFFF, 0, 0)
    | some s => if s.running then (min 0xFFFF ((s.total - left) * 65536 / max 1 s.total), 2, s.action) else (0xFFFF, 1, s.action)
  ((Memory.write [] 0 2 prog).write 2 1 stat).write 4 4 act

/-- Log page 0Ch: a header and a descriptor for each group with namespaces the sender sees (R141). -/
def Ana.code : Ana → Nat
  | .optimized => 1
  | .nonOptimized => 2
  | .inaccessible => 3
  | .persistentLoss => 4
  | .change => 15

def Dev.anaPage (d : Dev) (a : AdmIn) : Memory × Nat × List (Nat × Nat × Nat) :=
  let nss := d.nsOf a
  let gs := (nss.map (·.2.anagrp)).dedup.insertionSort (· ≤ ·)
  gs.foldl (fun (p : Memory × Nat × List (Nat × Nat × Nat)) g =>
    let (m, o, given) := p
    let ids := (nss.filter fun n => n.2.anagrp = g).map (·.2.nsid)
    let m := ((m.write o 4 g).write (o + 4) 4 ids.length).write (o + 16) 1 (d.anaState g).code
    let m := ids.zipIdx.foldl (fun m x => m.write (o + 32 + 4 * x.2) 4 x.1) m
    (m, o + 32 + 4 * ids.length, given ++ [(o, 8, 255), (o + 16, 1, 255), (o + 32, 4 * ids.length, 255)]))
    (Memory.write [] 8 2 gs.length, 16, [(8, 2, 255)])

/-- Log page 70h: the subsystems in which the host has a valid entry (R137, the discovery paragraph). -/
def Dev.discoveryPage (d : Dev) (c : Ctrl) : Memory × Nat :=
  let ss := (d.hostq.hosts.filter fun h => h.hash = c.hostHash).map (·.subsys)
  let nqns := (d.hostq.subs.filter fun s => ss.contains s.1).map (·.2.nqn)
  (nqns.zipIdx.foldl (fun m p => m.setBytes (1024 * (p.2 + 1) + 256) p.1) (Memory.write [] 8 8 nqns.length),
    1024 * (nqns.length + 1))

/-- Is METER_VISIBLE of a tenant 1? -/
def Dev.meterVisible (d : Dev) (t : Nat) : Bool := d.hostq.visible.contains t

/-- A log page's bytes and length; none for a page that is not supported. -/
def Dev.logPage (d : Dev) (a : AdmIn) (lid : Nat) : Option (HostData × Dev) :=
  let open_ := fun (m : Memory) n given =>
    let (v, d) := d.takeFree; some (({ m := m, len := n, open_ := some v, given := given } : HostData), d)
  if lid = 0x01 then open_ [] 4096 []
  else if lid = 0x02 then open_ [] 512 []
  else if lid = 0x03 then open_ d.slotPage 512 [(0, 1, 255), (8, 16, 255)]
  else if lid = 0x04 then
    let ids := match a.ctrl with
      | some (c, _) => (d.hostq.changed.filter fun k => decide (k / 2 ^ 32 = c)).map (· % 2 ^ 32)
      | none => []
    some ({ m := (ids.insertionSort (· ≤ ·)).zipIdx.foldl (fun m x => m.write (4 * x.2) 4 x.1) [], len := 4096 }, d)
  else if lid = 0x05 then open_ [] 4096 []
  else if lid = 0x06 then open_ d.selfTestPage 564 ((0, 1, 255) :: (List.range 20).map fun i => (4 + 28 * i, 2, 255))
  else if lid = 0x0C then let (m, n, given) := d.anaPage a; open_ m n given
  else if lid = 0x70 then
    match a.ctrl with
    | some (_, c) =>
      if c.discovery then
        let (m, n) := d.discoveryPage c
        open_ m n ((8, 8, 255) :: (List.range (n / 1024 - 1)).map fun i => (1024 * (i + 1) + 256, 256, 255))
      else none
    | none => none
  else if lid = 0x81 then open_ d.sanitizePage 512 [(0, 3, 255), (4, 4, 255)]
  else if lid = 0xC0 then
    match a.ctrl with
    | some (_, c) => if d.meterVisible c.tenant then some ({ m := d.tenantPage c.tenant, len := 512 }, d) else none
    | none => none
  else none

/-- Get Log Page: unsupported pages fail with Invalid Log Page, offsets beyond the page with Invalid Field; a read with
RAE = 0 lets go of the page's event (R148, R150, R158). An offset equal to the page's length is not beyond it and returns no
byte, and one that is no multiple of 4 is an unsupported field value (DESIGN CHOICE, log 95). -/
def Dev.getLogPage (d : Dev) (src : Src) : Dev :=
  d.admin src 2 fun a d =>
    let lid := a.dw 10 % 256
    let len := (bitsOf (a.dw 10) 31 16 + (a.dw 11 % 65536) * 65536 + 1) * 4
    let off := a.dw 12 + a.dw 13 * 2 ^ 32
    match d.logPage a lid with
    | none => d.admDone a (cqe 1 9)
    | some (h, d') =>
      if h.len < off ∨ off % 4 ≠ 0 then d.admDone a (cqe 0 2)
      else if a.sgl = 0 then d.admDone a (cqe 0 0 false)
      else
        let m := (h.m.filter fun p => decide (off ≤ p.1)).map fun p => (p.1 - off, p.2)
        let h := { h with m := m.filter fun p => decide (p.1 < len), len := min len (h.len - off)
                          given := (h.given.filter fun g => decide (off < g.1 + g.2.1)).map fun g =>
                            (g.1 - off, g.2.1 - (off - g.1), g.2.2) }
        let d := match a.ctrl with
          | some (c, _) =>
            if bitOf (a.dw 10) 15 then d'
            else
              let d := d'.modCtrl c fun x => { x with events := x.events.filter fun e => decide (e.page ≠ lid) }
              if lid = 4 then
                { d with hostq := { d.hostq with changed := d.hostq.changed.filter fun k => decide (k / 2 ^ 32 ≠ c) } }
              else d
          | none => d'
        d.admDone a (cqe 0 0 false) (some h)

/-! ### Identify (R148, R160) -/

/-- Identify Controller (R160): offsets of NVMe 2.0. -/
def Dev.identifyCtrl (d : Dev) (a : AdmIn) : Memory :=
  let prog := d.measure 4
  let mn := ascii (if d.partB then "LOXATIL LX9624-B" else "LOXATIL LX9624-A")
  let fr := hashDigits prog
  let tcp : Bool := match a.ctrl with
    | some (_, c) => (d.queue c.adminCtx).any fun q => decide (q.fabric = .tcp)
    | none => false
  let put := fun (m : Memory) (p : Nat × Nat × Nat) => m.write p.1 p.2.1 p.2.2
  let m := ((Memory.setBytes [] 24 (mn ++ List.replicate (40 - mn.length) 0x20)).setBytes 64 fr)
  let m := [(77, 1, 8), (80, 4, 0x20000), (111, 1, if a.discovery then 2 else 1), (256, 2, 0x12), (258, 1, 3), (259, 1, 3),
    (260, 1, 0x14), (261, 1, 6), (262, 1, 63), (263, 1, 3), (270, 2, 1), (316, 2, 30), (318, 1, 1), (320, 2, 1), (328, 4, 3),
    (342, 1, 1), (343, 1, 0xDF), (344, 4, 64), (348, 4, 64), (514, 2, 4096), (516, 4, 16384), (520, 2, 0x0C),
    (1792, 4, if tcp then 516 else 4), (1796, 4, 1), (3136, 2, (d.inst 0x13 0).active),
    (3138, 1, d.fget Reg.CAMP_STRAP.UNIT_ID)].foldl put m
  (m.setBytes 3072 (prog.take 32)).setBytes 3104 ((d.measure 3).take 32)

/-- What Identify Namespace fixes at zero where it holds no other value (R135, R138, R149): THINP; NLBAF, FLBAS, MC, DPC and
DPS; RESCAP; DLFEAT bits 2:0; and MS and LBADS of LBAF0, at the offsets of NVMe 2.0 (PRESUMED, log 24). -/
def nsGiven : List (Nat × Nat × Nat) :=
  [(0, 24, 255), (24, 1, 1), (25, 5, 255), (31, 1, 255), (33, 1, 7), (92, 4, 255), (128, 3, 255)]

/-- Identify Namespace: one LBA format of 4,096 bytes, NUSE = NCAP = NSZE, DLFEAT 2:0 = 000b (R138, R149). -/
def identifyNs (n : Ns) : Memory :=
  ((((Memory.write [] 0 8 n.nsze).write 8 8 n.nsze).write 16 8 n.nsze).write 92 4 n.anagrp).write 130 1 12

/-- Identify. -/
def Dev.identify (d : Dev) (src : Src) : Dev :=
  d.admin src 6 fun a d =>
    let cns := a.dw 10 % 256
    let ok := fun (h : HostData) (d : Dev) => d.admDone a (cqe 0 0 false) (some h)
    if !([0, 1, 2, 3, 8, 0x1C] : List Nat).contains cns then d.admDone a (cqe 0 2)
    else if a.sgl = 0 then d.admDone a (cqe 0 0 false)
    else if cns = 1 then ok { m := d.identifyCtrl a, len := 4096 } d
    else if cns = 2 then
      let ids := ((d.nsOf a).map (·.2.nsid)).filter (fun i => decide (sqeNsid a.sqe < i)) |>.insertionSort (· ≤ ·)
      ok { m := (ids.take 1024).zipIdx.foldl (fun m x => m.write (4 * x.2) 4 x.1) [], len := 4096 } d
    else if cns = 0x1C then let (v, d) := d.takeFree; ok { len := 4096, open_ := some v } d
    else
      match d.nsNamed a with
      | none => d.admDone a (cqe 0 0x0B)
      | some (_, n) =>
        let (v, d) := d.takeFree
        ok { m := if cns = 0 then identifyNs n else [], len := 4096, open_ := some v, given := if cns = 0 then nsGiven else [] } d

/-! ### Abort, features, events, self-test, keep alive -/

/-- HOSTQ_ABORTS counts an Abort's outcome; DW0 bit 0 says that it came too late (R152). -/
def Dev.abortDone (d : Dev) (a : AdmIn) (won : Bool) : Dev :=
  let d := if won then d.bump Reg.HOSTQ_ABORTS.WON else d.bump Reg.HOSTQ_ABORTS.LOST
  d.admDone a { cqe 0 0 false with dw0 := b2n (!won) }

/-- The Abort of a key waited for a forwarded command, whose fate is now known. -/
def Dev.abortAnswer (d : Dev) (key : Nat × Nat) (won : Bool) : Dev :=
  let d := if won then d.bump Reg.HOSTQ_ABORTS.WON else d.bump Reg.HOSTQ_ABORTS.LOST
  d.hostDone (tagKey key.1 key.2) { cqe 0 0 false with dw0 := b2n (!won) }

/-- Abort (R152): a Queued command is removed; a Running one is marked; any other is too late. Of a command the partner
runs, the partner decides, and the Abort waits for its completion. -/
def Dev.abort (d : Dev) (src : Src) : Dev :=
  d.admin src 8 fun a d =>
    match a.ctrl with
    | none => d.abortDone a false
    | some (cn, _) =>
      let out := d.openTags fun t => decide (t.ctrl = cn ∧ t.qid = 0 ∧ sqeOpcode t.sqe = 8)
      if 4 < out.length then d.admDone a (cqe 1 3)
      else
        let sqid := a.dw 10 % 65536
        let cid := a.dw 10 / 65536
        match d.hostq.tags.find? (fun p => p.2.ctrl = cn && p.2.qid = sqid && p.2.cid = cid) with
        | none => d.abortDone a false
        | some (key, t) =>
          match t.state with
          | .queued =>
            let d := { d with hostq := { d.hostq with fwdOut := d.hostq.fwdOut.filter (· ≠ key) } }
            ((d.dropArrival t.ctx (sqid * 65536 + cid)).hostDone key (cqe 0 7)).abortDone a true
          | .running =>
            match t.forwarded, t.abortBy, a.src with
            | true, none, .host actx acid =>
              { d with hostq := { d.hostq with fwdMarks := d.hostq.fwdMarks ++ [(key, false)] } }.modTag key fun t =>
                { t with abortBy := some (actx, acid) }
            | true, _, _ => d.abortDone a true
            | false, _, _ => (d.abortRunning key t).abortDone a true
          | _ => d.abortDone a false

/-- FID 04h of NVMe 2.0 (PRESUMED): TMPTH in bits 15:0, TMPSEL in 19:16 (0 the composite, the one sensor the spec has; 15
every sensor), THSEL in 21:20 (0 over, 1 under). -/
def Dev.setTemp (d : Dev) (a : AdmIn) (c v : Nat) : Dev :=
  let t := v % 65536
  let sel := bitsOf v 19 16
  if sel ≠ 0 ∧ sel ≠ 15 ∨ 1 < bitsOf v 21 20 then d.admDone a (cqe 0 2)
  else
    (d.modCtrl c fun x => if bitOf v 20 then { x with tempUnder := t } else { x with temp := t }).admDone a (cqe 0 0 false)

/-- Set Features (R148, R157): `data` is the data buffer of FIDs 0Ch and 81h, and an SGL shorter than it is a Data SGL
Length Invalid (R150). A KATO of 0 in FID 0Fh takes the 120 s that R145 gives for Connect (DESIGN CHOICE, log 96). -/
def Dev.setFeatures (d : Dev) (src : Src) (data : List Byte) : Dev :=
  d.admin src 9 fun a d =>
    let fid := a.dw 10 % 256
    let v := a.dw 11
    let ok := fun (d : Dev) => d.admDone a (cqe 0 0 false)
    if bitOf (a.dw 10) 31 then d.admDone a (cqe 1 0x0D)
    else if fid = 2 then
      if 3 < v % 32 then d.admDone a (cqe 0 2)
      else
        match a.ctrl with
        | some (c, _) => ok ((d.modCtrl c fun x => { x with ps := v % 32, apstPs := none }).hostPs)
        | none => ok ({ d with hostq := { d.hostq with mgmtPs := some (v % 32) } }.hostPs)
    else
      match a.ctrl with
      | none => if [4, 7, 0x0B, 0x0C, 0x0F, 0x81].contains fid then ok d else d.admDone a (cqe 0 2)
      | some (c, x) =>
        if fid = 4 then d.setTemp a c v
        else if (fid = 0x0C ∧ a.sgl < 256) ∨ (fid = 0x81 ∧ a.sgl < 16) then d.admDone a (cqe 0 0x0F)
        else if fid = 7 then
          if d.hostq.queues.any (fun q => decide (q.2.ctrl = c ∧ q.2.qid ≠ 0)) then d.admDone a (cqe 0 0x0C)
          else if v % 65536 = 65535 ∨ v / 65536 = 65535 then d.admDone a (cqe 0 2)
          else (d.modCtrl c fun x => { x with nq := v }).admDone a { cqe 0 0 false with dw0 := (x.maxq - 1) * 65537 }
        else if fid = 0x0B then ok ((d.modCtrl c fun x => { x with aec := v }).serveEvents c)
        else if fid = 0x0C then
          ok (d.modCtrl c fun x => { x with apst := v % 2 + 2 * leNat (data.take 256), idleSince := d.now })
        else if fid = 0x0F then
          let k := if v = 0 then 120000 else (v + 99) / 100 * 100
          if k < 1000 ∨ 3600000 < k then d.admDone a (cqe 0 2) else ok (d.modCtrl c fun x => { x with kato := k })
        else if fid = 0x81 then ok (d.modCtrl c fun x => { x with fid81 := leNat (data.take 16) })
        else d.admDone a (cqe 0 2)

/-- Get Features: the value now in force (R145, R148, R151). -/
def Dev.getFeatures (d : Dev) (src : Src) : Dev :=
  d.admin src 0x0A fun a d =>
    let fid := a.dw 10 % 256
    let val : Option (Nat × Option HostData) := match a.ctrl with
      | none => if fid = 2 then some (d.fget Reg.CAMP_PS.REQ, none)
                else if [4, 7, 0x0B, 0x0C, 0x0F, 0x81].contains fid then some (0, none) else none
      | some (_, x) =>
        if fid = 2 then some (x.ps, none)
        else if fid = 4 then some (if bitOf (a.dw 11) 20 then x.tempUnder else x.temp, none)
        else if fid = 7 then some ((x.maxq - 1) * 65537, none)
        else if fid = 0x0B then some (x.aec, none)
        else if fid = 0x0C then some (x.apst % 2, some { m := Memory.setBytes [] 0 (leBytes (x.apst / 2) 256), len := 256 })
        else if fid = 0x0F then some (x.kato, none)
        else if fid = 0x81 then some (0, some { m := Memory.setBytes [] 0 (leBytes x.fid81 16), len := 16 })
        else none
    match val with
    | none => d.admDone a (cqe 0 2)
    | some (v, h) => d.admDone a { cqe 0 0 false with dw0 := v } (if a.sgl = 0 then none else h)

/-- Asynchronous Event Request: held, at most four to a controller (R148, R158). -/
def Dev.aer (d : Dev) (src : Src) : Dev :=
  d.admin src 0x0C fun a d =>
    match a.src, a.ctrl with
    | .host ctx cid, some (c, x) =>
      if 4 ≤ x.aers.length then d.admDone a (cqe 1 5)
      else
        let d := d.modTag (tagKey ctx cid) fun t => { t with held := true }
        (d.modCtrl c fun x => { x with aers := x.aers ++ [cid] }).serveEvents c
    | _, _ => d.admDone a (cqe 0 1)

/-- Device Self-test of an STC that another command carries out, or of a reserved one, which is refused (R150). -/
def Dev.selfTestOther (d : Dev) (a : AdmIn) : Dev :=
  if a.dw 10 % 16 ∈ [1, 2, 15] then d else d.admDone a (cqe 0 2)

/-- Device Self-test with STC 1h or 2h (R156): NSID 0 covers the controller alone. -/
def Dev.selfTestStart (d : Dev) (src : Src) (extended : Bool) : Dev :=
  d.admin src 0x14 fun a d =>
    if a.dw 10 % 16 ≠ (if extended then 2 else 1) then d.selfTestOther a
    else if sqeNsid a.sqe ≠ 0 ∧ sqeNsid a.sqe ≠ 0xFFFFFFFF ∧ (d.nsNamed a).isNone then d.admDone a (cqe 0 0x0B)
    else if d.hostq.selfTest.isSome then d.admDone a (cqe 1 0x1D false)
    else
      let nss := if sqeNsid a.sqe = 0 then [] else
        ((d.nsOf a).filter fun p => decide (sqeNsid a.sqe = 0xFFFFFFFF ∨ p.2.nsid = sqeNsid a.sqe)).map (·.1)
      let s : SelfTest := { ctrl := (a.ctrl.map (·.1)).getD 0xFFFF, extended := extended, nss := nss }
      ({ d with hostq := { d.hostq with selfTest := some s } }).admDone a (cqe 0 0 false)

/-- Device Self-test with STC Fh: the test in progress ends with result 1h. -/
def Dev.selfTestAbort (d : Dev) (src : Src) : Dev :=
  d.admin src 0x14 fun a d =>
    if a.dw 10 % 16 ≠ 15 then d.selfTestOther a else (d.endSelfTest 1 0).admDone a (cqe 0 0 false)

/-- Segment 2 of the self-test in progress: is every sled that holds units of the namespaces it covers linked and present? -/
def Dev.selfTestLinks (d : Dev) : Bool :=
  match d.hostq.selfTest with
  | none => true
  | some t =>
    let es := (d.map.entries.filter fun p => t.nss.contains (p.1 / 2 ^ 40) && entIsMedia p.2).map (·.2)
    ((es.flatMap fun e => match d.bandOf e with
      | some (_, b) => b.chunks.map fun c => c.group / 8
      | none => [entSled e]).dedup).all fun n => d.sledState n = 0

/-- The self-test finishes, or fails segment `failed` (R156): what the standby resources, the anchors, the map pages and the
media give is not the model's to compute; the links of segment 2 are (log 97). -/
def Dev.selfTestEnd (d : Dev) (failed : Nat) : Dev :=
  if failed = 1 then d.endSelfTest 7 1
  else if !d.selfTestLinks then d.endSelfTest 7 2
  else if failed = 0 then d.endSelfTest 0 0 else d.endSelfTest 7 failed

/-- Keep Alive. -/
def Dev.keepAlive (d : Dev) (src : Src) : Dev :=
  d.admin src 0x18 fun a d =>
    let d := match a.ctrl with
      | some (c, _) => d.modCtrl c fun x => { x with katoLast := d.now }
      | none => d
    d.admDone a (cqe 0 0 false)

/-- No command arrived on an admin queue within KATO (R145). -/
def Dev.katoExpiry (d : Dev) (c : Nat) : Dev :=
  match d.ctrl c with
  | none => d
  | some x =>
    if d.now < x.katoLast + x.kato * 1000000 ∨ x.resetting ∨ !d.on 0x10 then d
    else (d.post 0x10 0 0x21 (c % 65536)).resetCtrl c true

/-! ### Fabrics commands (R136, R143, R145, R148) -/

/-- The lowest controller number from `n` that is not in use. -/
def freeCtrl (t : Tab Ctrl) : Nat → Nat → Nat
  | 0, n => n
  | f + 1, n => if (Tab.look t n).isSome then freeCtrl t f (n + 1) else n

/-- The KATO a Connect leaves, in steps of 100 ms (R145). -/
def connectKato (k : Nat) : Nat := if k = 0 then 120000 else (k + 99) / 100 * 100

/-- Is a Connect's KATO outside what R145 accepts? It is then an Invalid Field in Command (DESIGN CHOICE, log 98). -/
def katoBad (k : Nat) : Bool := decide (connectKato k < 1000 ∨ 3600000 < connectKato k)

/-- Bytes of an NQN with no trailing zeros. -/
def nqnOf (bs : List Byte) : List Byte := (bs.reverse.dropWhile (· = 0)).reverse

/-- Put a new queue in service and answer its Connect with the controller's number. -/
def Dev.openQueue (d : Dev) (ctx cid c qid sqsize : Nat) (fab : Fabric) (tenant : Nat) : Dev :=
  let q : Queue := { ctrl := c, qid := qid, sqsize := sqsize, fabric := fab, head := 1 % (sqsize + 1) }
  let d := Dev.showHostq { d with hostq := { d.hostq with queues := Tab.put d.hostq.queues ctx q } }
  let d := match d.ctxBlk ctx with
    | some b => (d.needCtx b ctx).modCtx b ctx fun x => { x with cntlid := c, qid := qid }
    | none => d
  d.answerCapsule q ctx cid tenant 0x7F { cqe 0 0 false with dw0 := c }

/-- A failed Connect is answered on its connection. -/
def Dev.connectFails (d : Dev) (ctx cid : Nat) (c : Cqe) : Dev :=
  let tenant := match d.ctxBlk ctx with
    | some b => ((d.ctxAny b ctx).map (·.tenant)).getD 0
    | none => 0
  d.answerCapsule { ctrl := 0xFFFF, qid := 0, sqsize := 0, fabric := .rdma } ctx cid tenant 0x7F c

/-- Connect: the first command on a connection that carries no queue yet. -/
def Dev.connect (d : Dev) (ctx cid : Nat) (fab : Fabric) (host sub : List Byte) (cntlid qid sqsize kato : Nat) : Dev :=
  if !d.on 0x10 || (d.queue ctx).isSome || d.quiet then d
  else
    let d := d.wake
    if d.sanitizing then d.connectFails ctx cid (cqe 0 0x1D false)
    else match d.hostq.subs.find? (fun s => nqnOf s.2.nqn = nqnOf sub) with
    | none => d.connectFails ctx cid (cqe 1 0x84)
    | some (si, s) =>
      let hash := Config.shake256 (nqnOf host) 32
      let ent := d.hostq.hosts.find? fun h => h.hash = hash && h.subsys = si
      if !s.discovery && ent.isNone then d.connectFails ctx cid (cqe 1 0x84)
      else
        let tenant := (ent.map (·.tenant)).getD 0
        let mqes := d.fget Reg.HOSTQ_CFG.MQES
        if sqsize = 0 ∨ mqes < sqsize then d.connectFails ctx cid { cqe 1 0x82 with dw0 := 44 }
        else if qid = 0 then
          if katoBad kato then d.connectFails ctx cid (cqe 0 2)
          else if d.fget Reg.HOSTQ_CFG.MAX_CTRL ≤ d.hostq.ctrls.length ∨ 65535 ≤ d.fget Reg.HOSTQ_OCC.IOQ then
            d.connectFails ctx cid (cqe 1 0x81 false)
          else
            let c := freeCtrl d.hostq.ctrls d.hostq.ctrls.length 0
            let x : Ctrl :=
              { subsys := si, tenant := tenant, maxq := (ent.map (·.maxq)).getD (d.fget Reg.HOSTQ_CFG.MAXQ)
                discovery := s.discovery, hostHash := hash, adminCtx := ctx, kato := connectKato kato, katoLast := d.now
                idleSince := d.now }
            let d := Dev.hostPs { d with hostq := { d.hostq with ctrls := Tab.put d.hostq.ctrls c x } }
            d.openQueue ctx cid c 0 sqsize fab (if s.discovery then 0 else tenant)
        else
          match d.ctrl cntlid with
          | none => d.connectFails ctx cid { cqe 1 0x82 with dw0 := 16 }
          | some x =>
            if x.subsys ≠ si ∨ x.hostHash ≠ hash ∨ x.resetting then d.connectFails ctx cid { cqe 1 0x82 with dw0 := 16 }
            else if x.maxq < qid ∨ d.hostq.queues.any (fun q => q.2.ctrl = cntlid && q.2.qid = qid) then
              d.connectFails ctx cid { cqe 1 0x82 with dw0 := 42 }
            else if 65535 ≤ d.fget Reg.HOSTQ_OCC.IOQ then d.connectFails ctx cid (cqe 1 0x81 false)
            else d.openQueue ctx cid cntlid qid sqsize fab (if x.discovery then 0 else x.tenant)

/-- Is the command the Fabrics command of a type? -/
def AdmIn.fctype (a : AdmIn) : Nat := field (a.sqe.getD 0 0) 39 32

/-- CAP (R161's paragraph): MQES, CQR = 1, TO = 1, the NVM command set, MPSMIN = 0. -/
def Dev.cap (d : Dev) : Nat := d.fget Reg.HOSTQ_CFG.MQES + 2 ^ 16 + 2 ^ 24 + 2 ^ 37

/-- A Fabrics command other than the one a row carries out: Property Set, Property Get and Disconnect are other rows'; a
second Connect on a queue is refused by R143, naming QID; every other type is refused with Invalid Command Opcode (R148). -/
def Dev.fabricsOther (d : Dev) (a : AdmIn) : Dev :=
  if a.fctype ∈ [0, 4, 8] then d
  else if a.fctype = 1 then d.admDone a { cqe 1 0x82 with dw0 := 42 }
  else d.admDone a (cqe 0 1)

/-- Property Get. -/
def Dev.propertyGet (d : Dev) (src : Src) : Dev :=
  d.admin src 0x7F fun a d =>
    match a.ctrl with
    | none => d.admDone a (cqe 0 1)
    | some (_, x) =>
      if a.fctype ≠ 4 then d.fabricsOther a
      else
        let off := a.dw 11
        let v : Option Nat := if off = 0 then some d.cap else if off = 8 then some 0x20000
          else if off = 0x14 then some x.cc else if off = 0x1C then some (b2n x.rdy) else none
        match v with
        | some v => d.admDone a { cqe 0 0 false with dw0 := v % 2 ^ 32, dw1 := v / 2 ^ 32 }
        | none => d.admDone a (cqe 0 2)

/-- Property Set: CC alone is writable. CC.EN = 1 while CSTS.RDY is changing is a sequence error; CC.EN = 0 resets the
controller (R148, R150, R154). -/
def Dev.propertySet (d : Dev) (src : Src) : Dev :=
  d.admin src 0x7F fun a d =>
    match a.ctrl with
    | none => d.admDone a (cqe 0 1)
    | some (c, x) =>
      if a.fctype ≠ 0 then d.fabricsOther a
      else if a.dw 11 ≠ 0x14 then d.admDone a (cqe 0 2)
      else
        let v := a.dw 12
        if v % 2 = 1 then
          if x.resetting then d.admDone a (cqe 0 0x0C)
          else (d.modCtrl c fun x => { x with cc := v, en := true, rdy := true }).admDone a (cqe 0 0 false)
        else
          let d := (d.modCtrl c fun x => { x with cc := v }).admDone a (cqe 0 0 false)
          if x.en then d.resetCtrl c false else d

/-- Disconnect: on the admin queue it resets the controller, on an I/O queue it deletes the queue (R148, R154, R344). -/
def Dev.disconnect (d : Dev) (ctx cid : Nat) : Dev :=
  match d.tag (tagKey ctx cid) with
  | none => d
  | some t =>
    if sqeOpcode t.sqe ≠ 0x7F ∨ field (t.sqe.getD 0 0) 39 32 ≠ 8 ∨ t.state = .completed then d
    else if d.sanitizing then (d.dropArrival ctx cid).hostDone (tagKey ctx cid) (cqe 0 0x1D false)
    else ((d.dropArrival ctx cid).hostDone (tagKey ctx cid) (cqe 0 0 false)).queueLost ctx

/-! ### I/O commands (R137, R142, R149 to R151, R163) -/

/-- The holder hands the command's group over: until step 5 of R415 it stays Queued. -/
def Dev.handing (d : Dev) (t : Tag) : Bool :=
  d.fget Reg.BLY_STATUS.STATE = 5 && (match d.ctrlFor t with
    | some c => match d.nsFor c (sqeNsid t.sqe) with
      | some (_, n) => decide (d.anaState n.anagrp = .change)
      | none => false
    | none => false)

/-- The status with which a command on a path to a group fails (R142). -/
def Dev.anaFails (d : Dev) (g : Nat) : Option Cqe :=
  match d.anaState g with
  | .inaccessible => some (cqe 3 2 false)
  | .persistentLoss => some (cqe 3 1)
  | .change => some (cqe 3 3 false)
  | _ => none

/-- Check an I/O command of an opcode as the base program set does, in the order sanitize, namespace, path, transfer
size, range, SGL, readiness (the order is a DESIGN CHOICE, log 25); one that passes is Running, decoded and checked. -/
def Dev.ioCmd (d : Dev) (ctx cid op : Nat) (f : Nat → Tag → Ns → Nat → Dev → Dev) : Dev :=
  let key := tagKey ctx cid
  match d.tag key with
  | none => d
  | some t =>
    if t.qid = 0 ∨ sqeOpcode t.sqe ≠ op ∨ t.checked ∨ !(t.state = .queued ∨ t.state = .running) then d
    else if d.handing t then d
    else
      let d := (d.dropArrival ctx (t.qid * 65536 + cid)).modTag key fun t => { t with state := .running, checked := true }
      match d.ctrlFor t with
      | none => d
      | some c =>
        if d.sanitizing then d.hostDone key (cqe 0 0x1D false)
        else
          match d.nsFor c (sqeNsid t.sqe) with
          | none => d.hostDone key (cqe 0 0x0B)
          | some (nsh, n) =>
            match d.anaFails n.anagrp with
            | some e => d.hostDone key e
            | none => f key t n nsh d

/-- The checks of a command with a range of blocks: `data` says that it transfers them. -/
def Dev.rangeCmd (d : Dev) (ctx cid op : Nat) (data : Bool) : Dev :=
  d.ioCmd ctx cid op fun key t n nsh d =>
    let slba := sqeSlba t.sqe
    let nlb := sqeNlb t.sqe
    let writes := decide (op = 1 ∨ op = 8)
    if data && decide (255 < nlb) then d.hostDone key (cqe 0 2)
    else if n.nsze ≤ slba + nlb then d.hostDone key (cqe 0 0x80)
    else if data && decide (t.sglLen < (nlb + 1) * 4096) then d.hostDone key (cqe 0 0x0F)
    else if n.formatting || (writes && (d.dstate n.keySlot = 0 || d.dstate n.keySlot = 3)) then
      d.hostDone key { cqe 0 0x82 false with crd := 1 }
    else d.modTag key fun t => { t with nsh := nsh, slba := slba, nblk := nlb + 1 }

/-- Write, Read and Write Zeroes. -/
def Dev.nvmWrite (d : Dev) (ctx cid : Nat) : Dev := d.rangeCmd ctx cid 1 true
def Dev.nvmRead (d : Dev) (ctx cid : Nat) : Dev := d.rangeCmd ctx cid 2 true
def Dev.nvmWriteZeroes (d : Dev) (ctx cid : Nat) : Dev := d.rangeCmd ctx cid 8 false

/-- Dataset Management with its ranges, as (start, blocks), which it reads from the host: 16 bytes each (R149, R151, R216). -/
def Dev.dataset (d : Dev) (ctx cid : Nat) (ranges : List (Nat × Nat)) : Dev :=
  d.ioCmd ctx cid 9 fun key t n nsh d =>
    let nr := sqeDw t.sqe 10 % 256 + 1
    let ad := bitOf (sqeDw t.sqe 11) 2
    let rs := (ranges.take nr).filter fun r => decide (0 < r.2)
    if t.sglLen < 16 * nr then d.hostDone key (cqe 0 0x0F)
    else if rs.any fun r => decide (n.nsze < r.1 + r.2) then d.hostDone key (cqe 0 0x80)
    else if n.formatting then d.hostDone key { cqe 0 0x82 false with crd := 1 }
    else if !ad || rs.isEmpty then d.hostDone key (cqe 0 0 false)
    else d.modTag key fun t => { t with nsh := nsh, slba := (rs.headD (0, 0)).1, nblk := (rs.map (·.2)).foldl (· + ·) 0 }

/-- The namespaces a Flush names that this unit owns, with one of the partner's among them (R142, R153). -/
def Dev.flushNss (d : Dev) (c : Ctrl) (nsid : Nat) : List Nat × Bool :=
  let nss := if nsid = 0xFFFFFFFF then d.hostq.nss.filter fun p => c.sees p.2 else (d.nsFor c nsid).toList
  ((nss.filter fun p => decide (d.anaState p.2.anagrp = .optimized ∨ d.ownsGroup p.2.anagrp)).map (·.1),
    nss.any fun p => !d.ownsGroup p.2.anagrp && decide (d.anaState p.2.anagrp = .nonOptimized))

/-- Flush (R149, R153): it takes a rope number and its entries, and waits for every earlier write to its namespaces whose completion is
not released. One of every namespace goes to the partner too when it owns some of them, and waits for its part (R142). -/
def Dev.flush (d : Dev) (ctx cid : Nat) : Dev :=
  let key := tagKey ctx cid
  match d.tag key with
  | none => d
  | some t =>
    if t.qid = 0 ∨ sqeOpcode t.sqe ≠ 0 ∨ t.checked ∨ !(t.state = .queued ∨ t.state = .running) then d
    else if d.handing t then d
    else
      match d.ctrlFor t with
      | none => d
      | some c =>
        let d := (d.dropArrival ctx (t.qid * 65536 + cid)).modTag key fun t => { t with state := .running, checked := true }
        let all := decide (sqeNsid t.sqe = 0xFFFFFFFF)
        if d.sanitizing then d.hostDone key (cqe 0 0x1D false)
        else if !all && (d.nsFor c (sqeNsid t.sqe)).isNone then d.hostDone key (cqe 0 0x0B)
        else match (d.nsFor c (sqeNsid t.sqe)).bind fun p => d.anaFails p.2.anagrp with
        | some e => d.hostDone key e
        | none =>
          let (nss, other) := d.flushNss c (sqeNsid t.sqe)
          let far := all && other && t.remote.isNone
          let d := if far then { d with hostq := { d.hostq with fwdOut := d.hostq.fwdOut ++ [key] } } else d
          let (r, d) := d.ropeOf key
          let waits := (d.hostq.tags.filter fun p =>
            p.2.writes && decide (p.2.state = .committed ∧ p.2.rope < r) && nss.contains p.2.nsh).map (·.1)
          let d := { d with hostq := { d.hostq with flushes := Tab.put d.hostq.flushes key waits } }
          let d := nss.foldl (fun d h => d.holdSpace key ctx (t.qid * 65536 + cid) t.tenant h .flush) d
          d.modTag key fun t => { t with nsh := nss.headD 0, far := far }

/-- Every write a Flush waits for has had its completion released, at the partner too (R153). -/
def Dev.flushComplete (d : Dev) (ctx cid : Nat) : Dev :=
  let key := tagKey ctx cid
  match Tab.look d.hostq.flushes key with
  | none => d
  | some ks =>
    let done := ks.all fun k => match d.tag k with
      | some t => decide (t.state ≠ .committed)
      | none => true
    if done && !(d.tag key).any (·.far) then d.hostDone key (cqe 0 0 false) else d

/-! ### Namespaces (R137 to R140, R165) -/

/-- A namespace entry of the table in DRAM. -/
def Dev.nsAddr (d : Dev) (h : Nat) : Nat := d.fget Reg.HOSTQ_NSTAB.ADDR * 4096 + 32 * h

/-- The 32 bytes of an entry. -/
def Ns.bytes (n : Ns) : List Byte :=
  [(n.nsid, 4), (n.subsys, 2), (n.tenant, 2), (n.nsze, 8), (n.grade, 1), (n.anagrp, 1),
    (1 + 2 * b2n n.attached + 4 * b2n n.pinned, 1), (0, 1), (n.keySlot, 2), (0, 10)].flatMap fun p => leBytes p.1 p.2

/-- Put a namespace in force, with its entry in DRAM. -/
def Dev.putNs (d : Dev) (h : Nat) (n : Ns) : Dev :=
  let d := { d with hostq := { d.hostq with nss := Tab.put d.hostq.nss h n }
                    mem := { d.mem with dram := d.mem.dram.setBytes (d.nsAddr h) n.bytes } }
  d.showAlloc

/-- The namespaces of the groups that the partner owns. -/
def Dev.partnersNss (d : Dev) : List Ns := (d.hostq.nss.filter fun p => !d.ownsGroup p.2.anagrp).map (·.2)

/-- Would `blocks` more exceed the owning unit's capacity (R139, R214)? The partner's is that of its home channels, with
the geometry and mode that R393 makes equal. -/
def Dev.overCapacity (d : Dev) (g blocks : Nat) : Bool :=
  if d.ownsGroup g then decide (d.fget Reg.MAP_CAP.BLOCKS < d.fget Reg.MAP_ALLOC.BLOCKS + blocks)
  else
    let usable := usableBlocks (d.rawHome (1 - d.fget Reg.CAMP_STRAP.UNIT_ID)) (d.fget Reg.STRIPE_GEOM.K)
      (d.fget Reg.STRIPE_GEOM.M) (d.fget Reg.MAP_CFG.MODE)
    decide (usable < (d.partnersNss.map (·.nsze)).foldl (· + ·) 0 + blocks)

/-- Would a charge of `mib` more exceed the owning unit's pin budget (R140, R205)? The budgets are equal (R393). -/
def Dev.overPins (d : Dev) (g mib : Nat) : Bool :=
  let used := if d.ownsGroup g then d.fget Reg.MAP_PIN_USED.OWN_MIB
    else ((d.partnersNss.filter (·.pinned)).map fun n => d.pinCharge n.nsze).foldl (· + ·) 0
  decide (d.fget Reg.MAP_PIN.BUDGET_MIB < used + mib)

/-- The checks of a create, in R139's order. -/
def Dev.createCheck (d : Dev) (c : NsCreate) : Option Cqe :=
  if c.tenant = 0 ∨ 4095 < c.tenant ∨ c.grade < 1 ∨ 4 < c.grade ∨ 1 < c.flags ∨ c.reserved ≠ 0 ∨ 16383 < c.keySlot then
    some (cqe 0 2)
  else if c.nsze = 0 ∨ c.ncap ≠ c.nsze then some (cqe 0 2)
  else if c.anagrp < 1 ∨ 64 < c.anagrp then some (cqe 0 2)
  else if 16384 ≤ d.hostq.nss.length then some (cqe 1 0x16)
  else if c.grade = 1 ∧ c.flags % 2 = 0 then some (cqe 0 2)
  else if d.overCapacity c.anagrp c.nsze then some (cqe 1 0x15)
  else if c.flags % 2 = 1 ∧ d.overPins c.anagrp (d.pinCharge c.nsze) then some (cqe 1 0x15)
  else none

/-- The lowest NSID not used in a subsystem, from `n`. -/
def freeNsid (used : List Nat) : Nat → Nat → Nat
  | 0, n => n
  | f + 1, n => if used.contains n then freeNsid used f (n + 1) else n

/-- Namespace Management of the other SEL, or of a reserved one, which is refused (R150). -/
def Dev.nsSelOther (d : Dev) (a : AdmIn) : Dev := if a.dw 10 % 16 ≤ 1 then d else d.admDone a (cqe 0 2)

/-- Namespace Management create: the namespace takes the handle HOSTQ gives it (R139). -/
def Dev.nsCreate (d : Dev) (src : Src) (subsys handle : Nat) (c : NsCreate) : Dev :=
  d.admin src 0x0D fun a d =>
    if a.dw 10 % 16 ≠ 0 then d.nsSelOther a
    else
      match d.createCheck c with
      | some e => d.admDone a e
      | none =>
        if (Tab.look d.hostq.nss handle).isSome ∨ 16383 < handle then d
        else
          let used := (d.hostq.nss.filter fun p => decide (p.2.subsys = subsys)).map (·.2.nsid)
          let id := freeNsid used used.length 1
          let n : Ns := { nsid := id, subsys := subsys, tenant := c.tenant, nsze := c.nsze, grade := c.grade
                          anagrp := c.anagrp, attached := false, pinned := decide (c.flags % 2 = 1), keySlot := c.keySlot }
          (d.putNs handle n).admDone a { cqe 0 0 false with dw0 := id }

/-- Namespace Management delete: its entry is dropped and its map forgotten. -/
def Dev.nsDelete (d : Dev) (src : Src) (handle : Nat) : Dev :=
  d.admin src 0x0D fun a d =>
    if a.dw 10 % 16 ≠ 1 then d.nsSelOther a
    else
      match Tab.look d.hostq.nss handle with
      | none => d.admDone a (cqe 0 0x0B)
      | some n =>
        let d := if n.attached then d.nsChanged n else d
        let d := { d with hostq := { d.hostq with nss := Tab.del d.hostq.nss handle }
                          map := { d.map with entries := d.map.entries.filter fun p => decide (p.1 / 2 ^ 40 ≠ handle)
                                              dir := d.map.dir.filter fun p => decide (p.1 / 2 ^ 32 ≠ handle) }
                          mem := { d.mem with dram := d.mem.dram.clear (d.nsAddr handle) (d.nsAddr handle + 32) } }
        d.showAlloc.admDone a (cqe 0 0 false)

/-- Namespace Attachment (R137): attach or detach a namespace; every controller named must be one of its subsystem and
tenant. -/
def Dev.nsAttach (d : Dev) (src : Src) (handle : Nat) (attach : Bool) (ctrls : List Nat) : Dev :=
  d.admin src 0x15 fun a d =>
    match Tab.look d.hostq.nss handle with
    | none => d.admDone a (cqe 0 0x0B)
    | some n =>
      let bad := ctrls.isEmpty || ctrls.any fun c => match d.ctrl c with
        | some x => !(x.subsys = n.subsys && x.tenant = n.tenant)
        | none => true
      if bad then d.admDone a (cqe 1 0x1C)
      else if attach ∧ n.attached then d.admDone a (cqe 1 0x18)
      else if !attach ∧ !n.attached then d.admDone a (cqe 1 0x1A)
      else
        let n' := { n with attached := attach }
        ((d.putNs handle n').nsChanged n').admDone a (cqe 0 0 false)

/-- Read an entry of the namespace table, or the result that refuses it; an entry that is not VALID is none. A zero in NSZE is
reported as 0x06, a zero in NSID, TENANT, GRADE or ANAGRP, whose ranges begin at 1, as 0x02 (DESIGN CHOICE, log 99). -/
def Dev.readNs (d : Dev) (h : Nat) : Except Nat (Option Ns) :=
  let a := d.nsAddr h
  let m := d.mem.dram
  let nsid := m.read a 4
  let sub := m.read (a + 4) 2
  let ten := m.read (a + 6) 2
  let nsze := m.read (a + 8) 8
  let grade := m.read (a + 16) 1
  let grp := m.read (a + 17) 1
  let fl := m.read (a + 18) 1
  let key := m.read (a + 20) 2
  if fl % 2 = 0 then .ok none
  else if nsid < 1 ∨ 16384 < nsid ∨ 1023 < sub ∨ ten < 1 ∨ 4095 < ten ∨ grade < 1 ∨ 4 < grade ∨ grp < 1 ∨ 64 < grp ∨
      7 < fl ∨ m.read (a + 19) 1 ≠ 0 ∨ 16383 < key ∨ m.read (a + 22) 10 ≠ 0 then .error 2
  else if nsze = 0 then .error 6
  else .ok (some { nsid := nsid, subsys := sub, tenant := ten, nsze := nsze, grade := grade, anagrp := grp
                   attached := bitOf fl 1, pinned := bitOf fl 2, keySlot := key })

/-- The result of checking a reloaded entry against the entry in force (R165). -/
def Dev.nsCheck (d : Dev) (h : Nat) (n : Ns) : Nat :=
  let old : Option Ns := Tab.look d.hostq.nss h
  let oldSize := (old.map (·.nsze)).getD 0
  let oldPin := if old.any (·.pinned) then d.pinCharge oldSize else 0
  if d.hostq.nss.any (fun p => p.1 ≠ h && p.2.subsys = n.subsys && p.2.nsid = n.nsid) then 0x21
  else if old.any (fun o => o.subsys ≠ n.subsys || o.tenant ≠ n.tenant || o.anagrp ≠ n.anagrp || o.keySlot ≠ n.keySlot) then
    0x26
  else if n.nsze < oldSize then 0x27
  else if n.grade = 1 ∧ !n.pinned then 0x23
  else if n.pinned && d.overPins n.anagrp (d.pinCharge n.nsze - oldPin) then 0x24
  else if d.overCapacity n.anagrp (n.nsze - oldSize) then 0x25
  else 0

/-- Pages of a namespace's map that exist. -/
def Dev.mapPages (d : Dev) (h : Nat) : List Nat := (d.map.dir.filter fun p => decide (p.1 / 2 ^ 32 = h)).map (·.1)

/-- A write of HOSTQ_NS_UPDATE.GO (R140, R165, R205). -/
def Dev.nsUpdate (d : Dev) (h : Nat) : Dev :=
  if d.fget Reg.HOSTQ_NS_UPDATE.BUSY = 1 ∨ !d.on 0x10 then d
  else
    let d := d.fset Reg.HOSTQ_NS_UPDATE.HANDLE h
    let (res, d) := match d.readNs h with
      | .error e => (e, d)
      | .ok none => (0, Dev.showAlloc { d with hostq := { d.hostq with nss := Tab.del d.hostq.nss h } })
      | .ok (some n) =>
        let r := d.nsCheck h n
        if r ≠ 0 then (r, d)
        else
          let old : Option Ns := Tab.look d.hostq.nss h
          let nowCold := n.pinned && !old.any (fun o : Ns => o.pinned) && !(d.mapPages h).isEmpty
          let n := { n with cold := nowCold || old.any (fun o : Ns => o.cold), formatting := old.any (fun o : Ns => o.formatting) }
          let d := { d with hostq := { d.hostq with nss := Tab.put d.hostq.nss h n } }
          let d := if nowCold then { d with map := { d.map with coldPages := d.map.coldPages ++ (d.mapPages h).filter fun g => !d.map.coldPages.contains g } } else d
          let d := if old.any (fun o : Ns => o.attached ≠ n.attached ∨ o.nsze ≠ n.nsze) then d.nsChanged n else d
          (0, d.showAlloc.showWarm)
    let d := d.fset Reg.HOSTQ_NS_UPDATE.RESULT res
    d.post 0x10 0 0x22 (h * 65536 + res)

/-! ### Firmware images (R162) -/

/-- Firmware Image Download: bytes of the bundle at an offset of dwords. -/
def Dev.fwDownload (d : Dev) (src : Src) (off : Nat) (data : List Byte) : Dev :=
  d.admin src 0x11 fun a d =>
    let b := d.hostq.fw.buffer
    let b := b ++ List.replicate (4 * off - b.length) 0
    let b := b.take (4 * off) ++ data ++ b.drop (4 * off + data.length)
    ({ d with hostq := { d.hostq with fw := { d.hostq.fw with buffer := b } } }).admDone a (cqe 0 0 false)

/-! ### The tables of HOSTQ, read at its enable -/

/-- The subsystems, hosts and namespaces of the tables in DRAM. -/
def Dev.loadTables (d : Dev) : Dev :=
  let m := d.mem.dram
  let sb := d.fget Reg.HOSTQ_SUBTAB.ADDR * 4096
  let hb := d.fget Reg.HOSTQ_HOSTTAB.ADDR * 4096
  let nb := d.fget Reg.HOSTQ_NSTAB.ADDR * 4096
  let subs := ((touched m sb 256 1024).insertionSort (· ≤ ·)).filterMap fun i =>
    let fl := m.read (sb + 256 * i + 224) 4
    if fl % 2 = 1 then some (i, ({ nqn := nqnOf (m.bytes (sb + 256 * i) 224), discovery := bitOf fl 1 } : Subsys)) else none
  let hosts := ((touched m hb 64 (d.fget Reg.HOSTQ_HOSTTAB_LEN.ENTRIES)).insertionSort (· ≤ ·)).filterMap fun i =>
    let a := hb + 64 * i
    if m.read (a + 38) 1 % 2 = 1 then
      let q := m.read (a + 36) 2
      some ({ hash := m.bytes a 32, subsys := m.read (a + 32) 2 % 1024, tenant := m.read (a + 34) 2 % 4096
              maxq := if q = 0 then d.fget Reg.HOSTQ_CFG.MAXQ else q } : HostEnt)
    else none
  let nss := ((touched m nb 32 16384).insertionSort (· ≤ ·)).filterMap fun h => match d.readNs h with
    | .ok (some n) => some (h, { n with cold := n.pinned && (decide (d.fget Reg.MAP_RECOVER.STATE ≠ 2) ||
        d.map.coldPages.any fun g => g / 2 ^ 32 = h) })
    | _ => none
  Dev.showWarm <| Dev.showAlloc { d with hostq := { d.hostq with subs := subs, hosts := hosts, nss := nss } }

/-- A pinned namespace becomes warm with its last page: the host sees Grade Restored (R30, R158, R206), and the ANA group
of a survivor becomes Optimized when none of its maps is cold (R141). -/
def Dev.warmHost (d : Dev) (page : Nat) : Dev :=
  let h := page / 2 ^ 32
  let was := (Tab.look d.hostq.nss h).any (·.cold)
  let d := d.warmPage page
  match Tab.look d.hostq.nss h with
  | none => d
  | some n =>
    if !was || n.cold then d
    else
      let d := d.raiseAens (fun c => c.sees n) 7 0xC0 0xC0
      let g := n.anagrp
      if Tab.look d.hostq.ana g = some .nonOptimized ∧ d.ownsGroup g ∧
          d.hostq.nss.all (fun p => !(p.2.anagrp = g && p.2.cold)) then
        { d with hostq := { d.hostq with ana := Tab.del d.hostq.ana g } }
      else d

/-- ANA Change (R141, R158): a group that has namespaces and whose state differs from the one last reported is reported to
the controllers that see one of them. -/
def Dev.anaWatch (d : Dev) : Dev :=
  let new := ((d.hostq.nss.map fun p => p.2.anagrp).dedup).foldl (fun t g => Tab.put t g (d.anaState g)) []
  if new = d.hostq.anaSeen then d
  else
    let moved := new.filter fun p => (Tab.look d.hostq.anaSeen p.1).any fun a => decide (a ≠ p.2)
    let d := { d with hostq := { d.hostq with anaSeen := new } }
    if moved.isEmpty then d
    else d.raiseAens (fun c => d.hostq.nss.any fun p => (Tab.look moved p.2.anagrp).isSome && c.sees p.2) 2 3 0x0C

end Sys2Proof.Machine
end

