-- ==== Sys2Proof/Machine/HostqErase.lean ====
section
/-! DEFINITION. Format NVM and Sanitize (R148, R163, R218). -/

namespace Sys2Proof.Machine

/-- The context and CMDREF under which an admin command holds entries; a tunnelled one has a context of its own. -/
def Src.holder : Src → Nat × Nat
  | .host ctx cid => (ctx, cid)
  | .mgmt _ => (2 ^ 19, 0)

/-- The NSWIDE entries of a command for namespaces, taken at its first attempt (R184, R218): it may work once no lower entry
of theirs is left (R181). -/
def Dev.nswide (d : Dev) (src : Src) (hs : List Nat) : Bool × Dev :=
  let (ctx, cmdref) := src.holder
  let d := hs.foldl (fun d h =>
    d.holdSpace (tagKey ctx cmdref) ctx cmdref (((Tab.look d.hostq.nss h).map (·.tenant)).getD 0) h .nswide) d
  (d.rope.locks.all fun p => !decide (tagKey p.2.ctx p.2.cmdref = tagKey ctx cmdref) || d.grantable p.2, d)

/-- Its entries are let go once it has worked. -/
def Dev.nswideEnd (d : Dev) (src : Src) : Dev := d.finishLocks (tagKey src.holder.1 src.holder.2)

/-- Format NVM (R148, R218). It works under an NSWIDE entry: while a lower entry of the namespace is left it waits, and the
namespace is not ready. One of a namespace that the partner owns is forwarded to it (R142); on the management
path it names no namespace of the unit. -/
def Dev.formatNvm (d : Dev) (src : Src) : Dev :=
  d.admin src 0x80 fun a d =>
    let dw := a.dw 10
    let ses := bitsOf dw 11 9
    if sqeNsid a.sqe = 0xFFFFFFFF then d.admDone a (cqe 0 0x0B)
    else
      match d.nsNamed a with
      | none => d.admDone a (cqe 0 0x0B)
      | some (h, n) =>
        if dw % 16 ≠ 0 ∨ bitOf dw 4 = true ∨ bitsOf dw 7 5 ≠ 0 then d.admDone a (cqe 1 0x0A)
        else if 2 < ses then d.admDone a (cqe 0 2)
        else if let some e := d.anaFails n.anagrp then d.admDone a e
        else if !d.ownsGroup n.anagrp then
          match a.src with
          | .host ctx cid =>
            { d with hostq := { d.hostq with fwdOut := d.hostq.fwdOut ++ [tagKey ctx cid] } }.modTag (tagKey ctx cid) fun t =>
              { t with forwarded := true }
          | .mgmt _ => d.admDone a (cqe 0 0x0B)
        else
          let (ready, d) := (d.modNs h fun n => { n with formatting := true }).nswide a.src [h]
          if !ready then d
          else
            let d := if ses = 0 then d.nsClear h else d.cryptoErase h
            let d := d.modNs h fun n => { n with formatting := false }
            ((d.nsChanged n).nswideEnd a.src).admDone a (cqe 0 0 false)

/-- This unit's part of a sanitize with SANACT 100b (R163, R218): every namespace is crypto-erased, and every other data slot
is zeroised. -/
def Dev.sanCrypto (d : Dev) : Dev :=
  let d := d.hostq.nss.foldl (fun d p => d.cryptoErase p.1) d
  let used := d.hostq.nss.map (·.2.keySlot)
  let d := (d.cipher.data.filter fun p => !used.contains p.1).foldl (fun d p => d.zeroData p.1) d
  { d with hostq := { d.hostq with sanitize := some { action := 4, running := false } } }

/-- Sanitize of the other SANACT the device supports, which is another command's, or of one it does not (R163). -/
def Dev.sanOther (d : Dev) (a : AdmIn) : Dev := if a.dw 10 % 8 ∈ [2, 4] then d else d.admDone a (cqe 0 2)

/-- Sanitize works under an NSWIDE entry for every namespace of the unit (R184), and the partner is told (R163). -/
def Dev.sanitizeNow (d : Dev) (a : AdmIn) (action : Nat) (erase : Dev → Dev) : Dev :=
  let (ready, d) := d.nswide a.src (d.hostq.nss.map (·.1))
  if !ready then d
  else
    let d := erase d
    ({ d with hostq := { d.hostq with sanTell := some action } }.nswideEnd a.src).admDone a (cqe 0 0 false)

/-- Sanitize with SANACT 100b (R163). -/
def Dev.sanitizeCrypto (d : Dev) (src : Src) : Dev :=
  d.admin src 0x84 fun a d =>
    if a.dw 10 % 8 ≠ 4 then d.sanOther a
    else d.sanitizeNow a 4 Dev.sanCrypto

/-- This unit's part of a sanitize with SANACT 010b (R163): every namespace is cleared and every band with written blocks
becomes a victim; the sanitize runs until the last of them is erased. -/
def Dev.sanBlock (d : Dev) : Dev :=
  let d := d.hostq.nss.foldl (fun d p => d.nsClear p.1) d
  let st := d.map.staging.map fun p =>
    if p.2.state = .placing then (p.1, { p.2 with state := .dirty, stripe := none }) else p
  let d := { d with map := { d.map with staging := st }
                    stripe := { d.stripe with stripes := [], streams := [], moveBuf := [] } }
  let ns := (d.stripe.bands.filter fun b => decide (b.2.state ∈ [BState.opened, .closed])).map (·.1)
  let d := ns.foldl (fun d n => d.modBand n fun b => { b with state := .victim }) d
  let left := (d.stripe.bands.filter fun b => decide (b.2.state ∈ [BState.victim, .erasing])).length
  { d with hostq := { d.hostq with sanitize := some { action := 2, running := decide (0 < left), total := left } } }

/-- Sanitize with SANACT 010b (R163). -/
def Dev.sanitizeBlock (d : Dev) (src : Src) : Dev :=
  d.admin src 0x84 fun a d =>
    if a.dw 10 % 8 ≠ 2 then d.sanOther a
    else d.sanitizeNow a 2 Dev.sanBlock

end Sys2Proof.Machine
end

