-- ==== Sys2Proof/Machine/BelayOps.lean ====
section
/-! DEFINITION. BELAY: the link, meeting the partner, heartbeats, mirroring, transport records, forwarded commands
(R389 to R405). -/

namespace Sys2Proof.Machine

/-! ### The link (R389 to R391) -/

/-- This unit's number, and BLY_STATUS.STATE. -/
def Dev.unitId (d : Dev) : Nat := d.fget Reg.CAMP_STRAP.UNIT_ID
def Dev.bly (d : Dev) : Nat := d.fget Reg.BLY_STATUS.STATE
def Dev.setBly (d : Dev) (v : Nat) : Dev := d.fset Reg.BLY_STATUS.STATE v

/-- Change BELAY's own data. -/
def Dev.modBelay (d : Dev) (f : Belay → Belay) : Dev := { d with belay := f d.belay }

/-- The link is trained: LINK_EN and at least one PHY. -/
def Dev.blyUp (d : Dev) : Bool := decide (d.fget Reg.BLY_CFG.LINK_EN = 1 ∧ d.fget Reg.BLY_STATUS.PHYS ≠ 0)

/-- Send a frame, kept until acknowledged (R234, R390). While both PHYs are down frames are held (R231), but for HELLO, BEAT
and LINK frames, which would say nothing later. -/
def Dev.bsend (d : Dev) (f : BFrame) : Dev :=
  if d.fget Reg.BLY_CFG.LINK_EN = 0 ∨ (d.fget Reg.BLY_STATUS.PHYS = 0 ∧ (f.typ = 1 ∨ f.typ = 2 ∨ f.typ = 0x0F)) then d
  else d.modBelay fun b =>
    let s := (b.txSeq + 1) % 2 ^ 32
    { b with txSeq := s, unacked := b.unacked ++ [{ f with seq := s }], credits := b.credits - 1 }

/-- Drop what an ACK covers. -/
def Dev.backed (d : Dev) (ack : Nat) : Dev :=
  d.modBelay fun b => { b with unacked := b.unacked.filter fun f => !linkSeqLe (2 ^ 32) f.seq ack }

/-- A LINK frame that NAKs, its bytes as R233's LINK block: credits zero and the NAK bit. -/
def nakFrame : BFrame := { seq := 0, typ := 0x0F, payload := leBytes (2 ^ 32) 8 }

/-- Receive a frame (R234, R390): a bad or out-of-order one is dropped and answered with a NAK, a repeat is discarded, a
good one takes effect once. -/
def Dev.brx (d : Dev) (h : BHdr) (f : Dev → Dev) : Dev :=
  if !d.blyUp then d
  else if !h.good then d.bsend nakFrame
  else if h.seq % 2 ^ 32 = (d.belay.rxSeq + 1) % 2 ^ 32 then
    f ((d.modBelay fun b => { b with rxSeq := h.seq % 2 ^ 32 }).backed h.ack)
  else if linkSeqLe (2 ^ 32) h.seq d.belay.rxSeq then d.backed h.ack
  else d.bsend nakFrame

/-- Replay every frame not acknowledged; once one has been replayed eight times the link trains again, and its PHYs are down
until it has (R234, R390). -/
def Dev.breplay (d : Dev) : Dev :=
  if d.belay.unacked.any fun f => decide (8 ≤ f.replays) then
    (d.fset Reg.BLY_STATUS.PHYS 0).modBelay fun b =>
      { b with unacked := b.unacked.map fun f => { f with replays := 0 }, downSince := some d.now }
  else d.modBelay fun b => { b with unacked := b.unacked.map fun f => { f with replays := f.replays + 1 } }

/-- A LINK frame from the partner: credits of 9,216 bytes, or a NAK. -/
def Dev.blyLink (d : Dev) (h : BHdr) (credits : Nat) (nak : Bool) : Dev :=
  d.brx h fun d =>
    let d := d.modBelay fun b => { b with credits := b.credits + credits }
    if nak then d.breplay else d

/-- BELAY_REPLAY_TIMEOUT: 2 µs without an ACK. -/
def Dev.blyReplay (d : Dev) : Dev := if d.blyUp then d.breplay else d

/-- A PHY goes down (R391); with the second, the link is gone since now. -/
def Dev.blyPhyDown (d : Dev) (p : Nat) : Dev :=
  let m := d.fget Reg.BLY_STATUS.PHYS
  if !bitOf m (p % 2) then d
  else
    let m := m - 2 ^ (p % 2)
    let d := d.fset Reg.BLY_STATUS.PHYS m
    if m = 0 then d.modBelay fun b => { b with downSince := some d.now }
    else (d.setErr 0x19 0 11).post 0x19 0 0x196 m

/-- A PHY that was down comes back up. With the first, what was held leaves; outside a pair in service (STATE 0, 1, 3, 6) the
link begins anew, as the partner's end does after its reset (DESIGN CHOICE, log 131). -/
def Dev.blyPhyUp (d : Dev) (p : Nat) : Dev :=
  let m := d.fget Reg.BLY_STATUS.PHYS
  if d.fget Reg.BLY_CFG.LINK_EN = 0 ∨ bitOf m (p % 2) then d
  else
    let d := (d.fset Reg.BLY_STATUS.PHYS (m + 2 ^ (p % 2))).modBelay fun b => { b with downSince := none }
    if m ≠ 0 then d
    else if d.bly = 2 ∨ d.bly = 4 ∨ d.bly = 5 then d.breplay
    else d.modBelay fun b => { b with txSeq := 0, rxSeq := 0, unacked := [] }

/-! ### Meeting the partner (R392 to R394) -/

/-- IMAGE of R392: Identify Controller bytes 3072 to 3135, the active program's digest and Warden's (R161). -/
def Dev.imageBytes (d : Dev) : List Byte :=
  let get (i : Nat) : List Byte := ((((Tab.look d.anchor.meas i).map (fun (m : Measure) => m.shake)).getD []) ++ List.replicate 32 0).take 32
  get 4 ++ get 3

/-- MAP_CFG bits [4:0]. -/
def Dev.mapCfgBits (d : Dev) : Nat := field (d.reg 0x14 0 Reg.MAP_CFG.UNIT.off) 4 0

/-- The unit's own values for the comparison of R393. -/
def Dev.ownHello (d : Dev) : HelloRec :=
  { proto := 0x0100, unit := d.unitId, order := b2n d.partB, state := d.bly, epoch := d.fget Reg.BLY_EPOCH.OWN
    cycleNs := d.cycleNs, ropeHigh := d.fget Reg.ROPE_NEXT.ROPE - 1, seqHigh := d.map.seq - 1
    pinMib := d.fget Reg.MAP_PIN.BUDGET_MIB, mapCfg := d.mapCfgBits, mirrorPct := d.fget Reg.MAP_MIRROR.PCT
    k := d.fget Reg.STRIPE_GEOM.K, m := d.fget Reg.STRIPE_GEOM.M, home := d.fget Reg.BLY_HOME.GROUPS
    sleds := d.fget Reg.MDA_SLEDS.VALID, at_ := 0 }

/-- The 128 bytes of a HELLO (R392). -/
def HelloRec.bytes (h : HelloRec) (image : List Byte) : List Byte :=
  leBytes h.proto 2 ++ leBytes h.unit 1 ++ leBytes h.order 1 ++ leBytes h.state 1 ++ leBytes 0 3 ++ leBytes h.epoch 4 ++
    leBytes h.cycleNs 4 ++ leBytes h.ropeHigh 8 ++ leBytes h.seqHigh 8 ++ leBytes h.pinMib 4 ++ leBytes h.mapCfg 1 ++
    leBytes h.mirrorPct 1 ++ leBytes h.k 1 ++ leBytes h.m 1 ++ leBytes h.home 8 ++ leBytes h.sleds 4 ++ leBytes 0 4 ++
    image ++ leBytes 0 8

/-- The HELLO that a payload spells, received at `now`. -/
def readHello (m : Memory) (now : Nat) : HelloRec :=
  let r := m.read
  { proto := r 0 2, unit := r 2 1, order := r 3 1, state := r 4 1, epoch := r 8 4, cycleNs := r 12 4, ropeHigh := r 16 8
    seqHigh := r 24 8, pinMib := r 32 4, mapCfg := r 36 1, mirrorPct := r 37 1, k := r 38 1, m := r 39 1, home := r 40 8
    sleds := r 48 4, at_ := now }

/-- Send a HELLO. -/
def Dev.sendHello (d : Dev) : Dev := d.bsend { seq := 0, typ := 1, payload := d.ownHello.bytes d.imageBytes }

/-- A write of 1 to BLY_CFG.LINK_EN trains the PHYs (R392): `phys` are those that come up. -/
def Dev.blyLinkEnable (d : Dev) (phys : Nat) : Dev :=
  if d.fget Reg.BLY_CFG.LINK_EN = 1 then d
  else
    let d := (d.fset Reg.BLY_CFG.LINK_EN 1).fset Reg.BLY_STATUS.PHYS (phys % 4)
    let d := if phys % 4 ≠ 0 ∧ d.bly = 0 then d.setBly 1 else d
    let d := if phys % 4 = 1 ∨ phys % 4 = 2 then (d.setErr 0x19 0 11).post 0x19 0 0x196 (phys % 4) else d
    d.sendHello

/-- LINK_EN goes to 0: the PHYs go down and the exchange ends. -/
def Dev.blyLinkDisable (d : Dev) : Dev :=
  if d.isEnabled 0x19 then d
  else
    let d := ((d.fset Reg.BLY_CFG.LINK_EN 0).fset Reg.BLY_STATUS.PHYS 0).fset Reg.BLY_STATUS.LINK_UP 0
    let d := if d.bly = 1 then d.setBly 0 else d
    d.modBelay fun b => { b with txSeq := 0, rxSeq := 0, unacked := [], credits := 0, hello := none, downSince := none }

/-- HELLO_TIMER: every 1 ms. -/
def Dev.helloTimer (d : Dev) : Dev := d.sendHello

/-- A HELLO from the partner (R392, R393). -/
def Dev.rxHello (d : Dev) (h : BHdr) (payload : List Byte) : Dev :=
  d.brx h fun d =>
    let m := Memory.setBytes [] 0 payload
    let x := readHello m d.now
    let d := d.modBelay fun b => { b with hello := some x, ropeHigh := max b.ropeHigh x.ropeHigh
                                          seqHigh := max b.seqHigh x.seqHigh }
    let d := d.fset Reg.BLY_STATUS.PEER_UNIT x.unit
    let d := d.fset Reg.BLY_STATUS.SAME_FW (b2n (m.bytes 56 64 = d.imageBytes))
    d.fset Reg.BLY_EPOCH.PEER x.epoch

/-- R393: the reason that refuses BELAY's enable for what the last HELLO says, 0 for none. -/
def Dev.helloFails (d : Dev) : List Nat :=
  match d.belay.hello with
  | none => [0x21]
  | some x =>
    let o := d.ownHello
    let off := signed 32 (d.fget Reg.BLY_TIME.OFFSET_NS)
    if x.at_ + 5000000 < d.now then [0x21]
    else
      (if x.proto ≠ 0x0100 then [0x23] else []) ++ (if x.unit = o.unit then [0x20] else []) ++
        (if x.order ≠ o.order ∨ x.pinMib ≠ o.pinMib ∨ x.mapCfg ≠ o.mapCfg ∨ x.mirrorPct ≠ o.mirrorPct ∨ x.k ≠ o.k ∨
          x.m ≠ o.m ∨ x.home ≠ o.home then [0x08] else []) ++
        (if d.fget Reg.BLY_CFG.TIME_TOL_NS < off.natAbs then [0x22] else [])

/-! ### Claims (R406, R407) -/

/-- The sleds whose Tether links are enabled. -/
def Dev.linkedSleds (d : Dev) : Nat := (List.range 24).foldl (fun m n => if d.on 0x17 n then m + 2 ^ n else m) 0

/-- The epoch a raised claim takes (R406). -/
def Dev.nextEpoch (d : Dev) : Nat :=
  let held := (List.range 24).flatMap fun n =>
    if d.on 0x17 n then (List.range 4).flatMap fun i =>
      [d.fget (Reg.TTH_HELD.EVEN.nth i) n / 2, d.fget (Reg.TTH_HELD.ODD.nth i) n / 2]
    else []
  1 + held.foldl max (max (d.fget Reg.BLY_EPOCH.OWN) (d.fget Reg.BLY_EPOCH.PEER))

/-- Home channels of a unit (R16, R407), as a mask. -/
def homeMask (unit : Nat) : Nat := 15 * 2 ^ (4 * unit)

/-- Raise the claim for a unit's home channels with a new epoch. -/
def Dev.raiseClaim (d : Dev) (unit : Nat) : Dev :=
  let e := d.nextEpoch
  (d.fset Reg.BLY_EPOCH.OWN e).claimSend e d.linkedSleds (homeMask unit)

/-- The TAKEOVER event of a step (file 14, "The TAKEOVER descriptor"). -/
def Dev.takeoverEvent (d : Dev) (step nsh : Nat) : Dev :=
  let ws := descriptor evTakeover 256 0 nsh 0 0 0 0
    [step + (1 - d.unitId) * 2 ^ 16 + d.fget Reg.BLY_EPOCH.OWN * 2 ^ 32, d.belay.t0, nsh]
  d.event { typ := evTakeover, words := ws }

/-- The 32 bytes of a CTRL payload (R416), and the frame. -/
def Dev.sendCtrl (d : Dev) (op : Nat) : Dev :=
  d.bsend { seq := 0, typ := 8
            payload := leBytes op 8 ++ leBytes (d.fget Reg.BLY_EPOCH.OWN) 8 ++ leBytes 0 16 }

/-! ### Heartbeats (R394 to R397) -/

/-- BEAT_TIMER: a BEAT and an edge on PEER_BEAT (R395). -/
def Dev.beatTimer (d : Dev) : Dev :=
  if !d.belay.beating || d.quiet then d
  else
    let p := leBytes d.unitId 1 ++ leBytes d.bly 1 ++ leBytes 0 2 ++ leBytes (d.fget Reg.BLY_EPOCH.OWN) 4 ++
      leBytes d.now 8 ++ leBytes d.belay.echoTx 8 ++ leBytes d.belay.echoRx 8
    (d.bsend { seq := 0, typ := 2, payload := p }).modBelay fun b => { b with pinOut := !b.pinOut }

/-- The offset and delay of R394, when the BEAT echoes one of ours. -/
def Dev.beatTimes (d : Dev) (t3 t1 t2 : Nat) : Dev :=
  if t2 = 0 then d
  else
    let a : Int := (t2 : Int) - t1
    let b : Int := (d.now : Int) - t3
    let off := (a - b) / 2
    let d := d.fset Reg.BLY_TIME.OFFSET_NS (unsigned 32 off)
    let d := d.fset Reg.BLY_TIME.DELAY_NS (unsigned 32 ((a + b) / 2))
    let k := if d.fget Reg.BLY_CFG.TIME_TOL_NS < off.natAbs then d.belay.skew + 1 else 0
    let d := d.modBelay fun x => { x with skew := k }
    if k = 16 then (d.setErr 0x19 0 9).post 0x19 0 0x195 (unsigned 32 off) else d

/-- A BEAT arrives (R394, R395). The first one after the enable makes the unit PAIRED when nothing else is under way
(DEDUCED, log 36). -/
def Dev.rxBeat (d : Dev) (h : BHdr) (payload : List Byte) : Dev :=
  d.brx h fun d =>
    if !d.on 0x19 then d
    else
      let m := Memory.setBytes [] 0 payload
      let d := d.beatTimes (m.read 8 8) (m.read 16 8) (m.read 24 8)
      let d := d.fset Reg.BLY_EPOCH.PEER (m.read 4 4)
      let d := d.fset Reg.BLY_STATUS.LINK_UP 1
      let d := d.modBelay fun b => { b with lastLink := some d.now, echoTx := m.read 8 8, echoRx := d.now }
      if d.bly = 1 ∧ d.belay.beating ∧ !d.belay.releasing then d.setBly 2 else d

/-- An edge on PEER_BEAT input (R395). -/
def Dev.peerEdge (d : Dev) (level : Bool) : Dev :=
  if level = d.belay.pinIn then d
  else
    let d := d.modBelay fun b => { b with pinIn := level, lastPins := some d.now }
    if d.on 0x19 then d.fset Reg.BLY_STATUS.PINS_UP 1 else d

/-- Has a path been silent for 300 µs? -/
def Dev.silent (d : Dev) (last : Option Nat) : Bool :=
  match last with
  | some t => decide (t + 300000 ≤ d.now)
  | none => true

/-- A path misses a beat, 110 µs after the last (R395); one that has been silent for 300 µs while the other beats is down (R396). -/
def Dev.beatMiss (d : Dev) (pins : Bool) : Dev :=
  if !d.on 0x19 then d
  else
    let me := if pins then d.belay.lastPins else d.belay.lastLink
    if me.any fun t => decide (d.now < t + 110000) then d
    else
    let d := if pins then d.bump Reg.BLY_BEATS.PIN_MISSED else d.bump Reg.BLY_BEATS.LINK_MISSED
    let you := if pins then d.belay.lastLink else d.belay.lastPins
    let up := if pins then d.fget Reg.BLY_STATUS.PINS_UP else d.fget Reg.BLY_STATUS.LINK_UP
    if up = 1 ∧ d.silent me ∧ !d.silent you then
      let d := if pins then d.fset Reg.BLY_STATUS.PINS_UP 0 else d.fset Reg.BLY_STATUS.LINK_UP 0
      (d.setErr 0x19 0 8).post 0x19 0 0x193 (if pins then 2 else 1)
    else d

/-- The unit fences itself (R409): 1 link lost, 2 claim race, 3 CLAIM_LOST, 4 command. -/
def Dev.fence (d : Dev) (cause : Nat) : Dev :=
  if !d.on 0x19 || d.bly = 6 then d
  else
    let d := d.modBelay fun b => { b with beating := false, takeover := .none, bundling := false, joinWaits := false }
    let d := d.safeBlocks [0x08, 0x0C, 0x0D, 0x17, 0x11, 0x12]
    let d := ((d.setBly 6).setErr 0x19 0 10).post 0x19 0 0x192 cause
    d.takeoverEvent 9 0

/-- BLY_CMD OP 2 (R409). -/
def Dev.fenceNow (d : Dev) : Dev :=
  if d.fget Reg.BLY_CMD.BUSY = 1 ∨ !d.on 0x19 then d
  else ((d.fset Reg.BLY_CMD.OP 2).fset Reg.BLY_CMD.RESULT 0).fence 4

/-- LINK_GRACE_EXPIRY (R397). -/
def Dev.linkGrace (d : Dev) : Dev :=
  match d.belay.downSince with
  | none => d
  | some t =>
    if d.unitId = 1 ∧ d.fget Reg.BLY_STATUS.PINS_UP = 1 ∧ t + d.fget Reg.BLY_CFG.LINK_GRACE_US * 1000 ≤ d.now then d.fence 1
    else d

/-! ### Mirroring (R398 to R402) -/

/-- The section that carries a grade's writes (R398). -/
def secOf (g : Nat) : Nat := if g = 1 then 1 else if g = 2 then 2 else 3

/-- The 32-byte header of an item (R401). -/
def itemHead (kind flags count ctx cmdref nsh slba tail : Nat) : List Byte :=
  leBytes kind 1 ++ leBytes flags 1 ++ leBytes 0 2 ++ leBytes count 4 ++ leBytes (ctx % 2 ^ 18) 4 ++ leBytes cmdref 4 ++
    leBytes nsh 2 ++ leBytes slba 6 ++ leBytes tail 8

/-- The units of a write effect, in block order: index and unit. -/
def Dev.effectUnits (d : Dev) (e : Effect) : List (Nat × SUnit) :=
  ((d.map.staging.filter fun p => decide (p.2.tag = some e.tag ∧ p.2.cycle = e.cycle) && !p.2.rec_.zrange &&
      decide (p.2.state = .held ∧ e.slba ≤ p.2.rec_.lba ∧ p.2.rec_.lba < e.slba + e.nblk)).insertionSort
    fun a b => decide (a.2.rec_.lba ≤ b.2.rec_.lba))

/-- The bytes of one staged unit in a WRITE item: its record, its ciphertext, its staging index. -/
def unitBytes (p : Nat × SUnit) : List Byte := p.2.rec_.bytes ++ p.2.data.bytes 0 4096 ++ leBytes p.1 32

/-- The items of an effect; a withdrawn write has none (R26). Zero data that a Write Zeroes stages for blocks of 16 KiB units
which it covers in part follows as a WRITE item (R193). -/
def Dev.effectItem (d : Dev) (e : Effect) : List Byte :=
  let head := if e.kind = 2 then itemHead 2 0 e.nblk e.ctx e.cmdref e.nsh e.slba e.rope
    else if e.zeros then itemHead 1 1 e.nblk e.ctx e.cmdref e.nsh e.slba e.rope
    else []
  let us := d.effectUnits e
  head ++ (if us.isEmpty then []
    else itemHead 1 0 us.length e.ctx e.cmdref e.nsh e.slba e.rope ++ us.flatMap unitBytes)

/-- The bytes of section 1, 2 or 3 of a cycle. -/
def Dev.writeSection (d : Dev) (c sec : Nat) : List Byte :=
  (d.belay.effects.filter fun e => decide (e.cycle = c ∧ secOf e.grade = sec)).flatMap d.effectItem

/-- Journal records from a JSEQ up to the head that are this unit's own (R223). -/
def Dev.ownRecords (d : Dev) (from_ : Nat) : List (List Byte) :=
  ((List.range (d.fget Reg.JNL_HEAD.JSEQ - from_)).map fun i => d.jnl.mram.bytes (ringSlot (from_ + i)) 32).filter
    fun r => decide ((r.getD 1 0).toNat % 2 = 0)

/-- A list of bytes filled with zeros to a multiple of 32. -/
def pad32 (bs : List Byte) : List Byte := bs ++ List.replicate ((32 - bs.length % 32) % 32) 0

/-- The COMPLETION items of a cycle (R401): every write-type command whose completion the cycle releases. -/
def Dev.doneItems (d : Dev) (c : Nat) : List Byte :=
  (d.hostq.tags.filter fun p => p.2.writes && decide (p.2.state = .committed ∧ p.2.remote = none) &&
    decide ((d.admittedAs p.1).1 = c)).flatMap fun p =>
      let st := match p.2.pendingCqe with
        | some q => q.sc + q.sct * 256
        | none => 0
      itemHead 3 0 0 p.2.ctx (p.2.qid * 65536 + p.2.cid) p.2.nsh st p.2.rope

/-- Section 0 of a cycle's bundle (R400): header, journal records, released indices, completions. -/
def Dev.metaSection (d : Dev) (c : Nat) (recs : List (List Byte)) (sizes : List Nat) : List Byte :=
  let head := leBytes (d.fget Reg.ROPE_NEXT.ROPE - 1) 8 ++ leBytes (d.map.seq - 1) 8 ++
    leBytes (d.fget Reg.BLY_EPOCH.OWN) 4 ++ sizes.flatMap (fun n => leBytes n 4)
  let j := if recs.isEmpty then [] else itemHead 4 0 recs.length 0 0 0 0 0 ++ recs.flatten
  let r := if d.map.released.isEmpty then []
    else itemHead 5 0 d.map.released.length 0 0 0 0 0 ++ pad32 (d.map.released.flatMap fun i => leBytes i 4)
  head ++ j ++ r ++ d.doneItems c

/-- Send the frames of a section (R400), each with at most 9,166 bytes of it. -/
def Dev.sendSection (d : Dev) (c sec : Nat) (bs : List Byte) : Dev :=
  let n := max 1 ((bs.length + 9165) / 9166)
  (List.range n).foldl (fun d i =>
    let head := leBytes (c + sec * 2 ^ 48) 8 ++ leBytes (i * 9166) 4 ++ leBytes bs.length 4
    d.bsend { seq := 0, typ := 3, last := i + 1 = n, payload := head ++ (bs.drop (i * 9166)).take 9166 }) d

/-- Deep mode: DIRTY and MIRROR units lie in the DRAM area (R208). -/
def Dev.deepMode (d : Dev) : Bool := decide (d.fget Reg.MAP_CFG.BUF_MODE = 1)

/-- Is work of a cycle and grade in what is confirmed: a section of a cycle, or every cycle up to it? -/
def inConfirmed (c : Nat) (sec : Option Nat) (cycle grade : Nat) : Bool :=
  match sec with
  | some s => secOf grade = s && cycle = c
  | none => cycLe cycle c

/-- Units of a cycle and section become DIRTY, and move to the DRAM area in Deep mode: their completions may be released, and
the Belay bytes held for their commands are given back (R166, R207, R208). -/
def Dev.unitsDirty (d : Dev) (c : Nat) (sec : Option Nat) : Dev :=
  let st := d.map.staging.map fun p =>
    if decide (p.2.state = .held) && p.2.sealed && inConfirmed c sec p.2.cycle p.2.grade then
      (p.1, { p.2 with state := SState.dirty, deep := d.deepMode })
    else p
  let adms := d.ledger.adms.map fun p =>
    if inConfirmed c sec p.2.cycle p.2.grade then (p.1, { p.2 with belay := 0 }) else p
  Dev.showStaging { d with map := { d.map with staging := st }, ledger := { d.ledger with adms := adms } }

/-- The takeover's claim exchanges hold completions back (R408). -/
def Dev.claimsPending (d : Dev) : Bool := decide (d.belay.takeover = .claiming ∨ d.belay.takeover = .claimingOwn)

/-- Every section of the cycles up to `c` counts as confirmed: the unpaired rule of R27. -/
def Dev.releaseUnpaired (d : Dev) (c : Nat) : Dev :=
  let up (n : Nat) : Nat := cycMax n (cycAdd c 1)
  let l := d.ledger
  let d := { d with ledger := { l with confirmed := up l.confirmed, confirmed1 := up l.confirmed1
                                       confirmed2 := up l.confirmed2 } }
  (d.unitsDirty c none).releaseHeld

/-- Has every range that an admission covers been requested of ROPE and applied (R180, R184)? -/
def Dev.appliedAll (d : Dev) (a : Admission) : Bool :=
  decide (a.entries = 0) && d.rope.locks.all fun l => decide (tagKey l.2.ctx l.2.cmdref ≠ a.tag)

/-- Have all writes of a cycle been applied, and sealed or withdrawn (R26, R188)? -/
def Dev.cycleSealed (d : Dev) (c : Nat) : Bool :=
  (d.map.staging.all fun p => !(decide (p.2.state = .held ∧ p.2.cycle = c)) || p.2.sealed) &&
    d.ledger.adms.all fun p => !(decide (p.2.cycle = c ∧ (p.2.kind = .write ∨ p.2.kind = .dealloc))) || d.appliedAll p.2

/-- BUNDLE_SEAL (R26, R27, R398): the oldest ended cycle is sealed. Bundles go to the partner while the unit is paired or
rejoining; unpaired, the cycle's completions are released. -/
def Dev.bundleSeal (d : Dev) : Dev :=
  let c := d.belay.nextSeal
  if !d.on 0x12 || d.quiet || d.claimsPending || cycLe d.cycle c || !d.cycleSealed c then d
  else
    let d := if (d.belay.bundling || decide (d.fget Reg.ROPE_PAIR.PAIRED = 1)) && d.isEnabled 0x19 then
        let recs := d.ownRecords d.belay.jseqSent
        let s1 := d.writeSection c 1
        let s2 := d.writeSection c 2
        let s3 := d.writeSection c 3
        let s0 := d.metaSection c recs [s1.length, s2.length, s3.length]
        let d := (((d.sendSection c 0 s0).sendSection c 1 s1).sendSection c 2 s2).sendSection c 3 s3
        let d := { d with map := { d.map with released := [] } }
        d.modBelay fun b => { b with out := b.out ++ [({ cycle := c, ended := (d.now / max 1 d.cycleNs - (d.cycle + 2 ^ 48 - cycAdd c 1) % 2 ^ 48) * d.cycleNs } : OutBundle)] }
      else d
    let d := d.modBelay fun b => { b with nextSeal := cycAdd c 1, jseqSent := d.fget Reg.JNL_HEAD.JSEQ
                                          effects := b.effects.filter fun e => cycLt c e.cycle }
    if d.fget Reg.ROPE_PAIR.PAIRED = 1 then d else d.releaseUnpaired c

/-- BCONF (R399): the sections up to one of a cycle are confirmed. -/
def Dev.rxBconf (d : Dev) (h : BHdr) (c sec : Nat) : Dev :=
  d.brx h fun d =>
    match d.belay.out.find? (fun o => o.cycle = c) with
    | none => d
    | some o =>
      let out := if sec = 3 then d.belay.out.filter fun x => decide (x.cycle ≠ c)
        else d.belay.out.map fun x => if x.cycle = c then { x with upTo := sec } else x
      let d := d.modBelay fun b => { b with out := out, pairNext := b.pairNext || decide (sec = 1 ∧ d.bly = 5) }
      let l := d.ledger
      let d := if sec = 1 then
          ({ d with ledger := { l with confirmed1 := cycMax l.confirmed1 (cycAdd c 1) } }).raiseTo Reg.BLY_CONF_LAT.G1_MAX_NS
            (d.now - o.ended)
        else if sec = 2 then { d with ledger := { l with confirmed2 := cycMax l.confirmed2 (cycAdd c 1) } }
        else ({ d with ledger := { l with confirmed := cycMax l.confirmed (cycAdd c 1) } }).fset Reg.BLY_MIRROR.CONF_CYCLE c
      let d := d.sample 0x11 none
      if d.claimsPending then d
      else if d.fget Reg.ROPE_PAIR.PAIRED = 1 then (d.unitsDirty c (some sec)).releaseHeld
      else d

/-! ### Receiving bundles (R399, R411, R223, R373) -/

/-- An item of a section as received. -/
structure RxItem where
  kind : Nat
  flags : Nat
  count : Nat
  ctx : Nat
  cmdref : Nat
  nsh : Nat
  slba : Nat
  tail : Nat
  body : List Byte
  deriving DecidableEq, Repr

/-- Bytes of an item's body (R401). -/
def itemBody (kind flags count : Nat) : Nat :=
  if kind = 1 ∧ flags % 2 = 0 then count * 4160
  else if kind = 4 then count * 32
  else if kind = 5 then (count * 4 + 31) / 32 * 32
  else 0

/-- The items of a section's bytes. -/
def readItems : Nat → List Byte → List RxItem
  | 0, _ => []
  | f + 1, bs =>
    if bs.length < 32 then []
    else
      let g (o n : Nat) : Nat := leNat ((bs.drop o).take n)
      let n := itemBody (g 0 1) (g 1 1) (g 4 4)
      { kind := g 0 1, flags := g 1 1, count := g 4 4, ctx := g 8 4 % 2 ^ 18, cmdref := g 12 4, nsh := g 16 2 % 2 ^ 14
        slba := g 18 6 % 2 ^ 40, tail := g 24 8, body := (bs.drop 32).take n } :: readItems f (bs.drop (32 + n))

/-- Land one mirrored unit from its 4,160 bytes as MIRROR; its TOKEN holds the sender's staging index. Answers its index
here. -/
def Dev.landMirror (d : Dev) (c sec : Nat) (bs : List Byte) (state : SState) : Nat × Dev :=
  let m := Memory.setBytes [] 0 bs
  let i := freeIndex d.map.staging d.map.staging.length 0
  let data := Memory.setBytes [] 0 (m.bytes 32 4096)
  let r := ((readURec m 0).getD { wgen := 0, nsh := 0, lba := 0 }).ranged data
  let u : SUnit := { state := state, rec_ := r, data := data, sealed := true
                     token := m.read 4128 4 % 2 ^ 20, group := i, section_ := some (c, sec), deep := d.deepMode }
  (i, { d with map := { d.map with staging := Tab.put d.map.staging i u } })

/-- The receiver of a WRITE item with FLAGS.ZEROS forms the sender's zero-range unit as MIRROR (R194). No RELEASE names it: it is
freed at the partner's next whole checkpoint (DESIGN CHOICE, log 114). -/
def Dev.landZeros (d : Dev) (c sec : Nat) (x : RxItem) : Nat × Dev :=
  let i := freeIndex d.map.staging d.map.staging.length 0
  let (r, data) := d.zeroRange x.nsh x.slba x.count x.tail false
  let u : SUnit := { state := .mirror, rec_ := r, data := data, sealed := true, token := 2 ^ 20, group := i
                     section_ := some (c, sec), deep := d.deepMode }
  (i, { d with map := { d.map with staging := Tab.put d.map.staging i u } })

/-- A KEYGEN record of the partner (R373): its generation is promoted here, or the slot is counted as deferred. One that names
the slot's current generation, as the first load of a slot's key on both units does, has nothing to change (DEDUCED,
log 123). -/
def Dev.keygenFrom (d : Dev) (slot gen : Nat) : Dev :=
  let s := d.dslot slot
  if s.cur.any fun k => k.gen = gen then d
  else match s.standby with
  | some b =>
    let older := match s.cur with
      | some k => s.older ++ [k]
      | none => s.older
    (d.setDslot slot { s with cur := some { b with gen := gen, used := 0 }, standby := none, older := older, lagging := false }).bump
      Reg.CPH_ROTATE.PROMOTED
  | none => ((d.setDslot slot { s with lagging := true }).post 0x18 0 0x181 slot).bump Reg.CPH_ROTATE.DEFERRED

/-- Drop kept items from the oldest on while none of their units is still mirrored: what they did is in the partner's
journal by then. -/
def Dev.pruneKept (d : Dev) : Dev :=
  let live (k : Kept) : Bool := k.units.any fun i =>
    (Tab.look d.map.staging i).any fun u => decide (u.state = .mirror)
  d.modBelay fun b => { b with kept := b.kept.dropWhile fun k => !live k }

/-- A checkpoint of the partner begins, or ends: the MIRROR zero-range units from before its begin are freed (log 114). -/
def Dev.partnerCkpt (d : Dev) (ends : Bool) : Dev :=
  let zr (u : SUnit) : Bool := decide (u.state = .mirror) && u.rec_.zrange
  if ends then
    Dev.pruneKept { d with map := { d.map with staging := d.map.staging.filter fun p => !(zr p.2 && p.2.switched) } }
  else
    let st := d.map.staging.map fun p => if zr p.2 then (p.1, { p.2 with switched := true }) else p
    { d with map := { d.map with staging := st } }

/-- One received journal record: appended to the own ring with FLAGS.PARTNER = `flag` (R223, R415). -/
def Dev.takeRecord (d : Dev) (flag : Nat) (r : List Byte) : Dev :=
  let g (o n : Nat) : Nat := leNat ((r.drop o).take n)
  let typ := g 0 1
  let (d, _) := d.append typ flag (g 2 2) (g 16 16) .none
  let d := if typ = 5 then { d with jnl := { d.jnl with partnerRoot := g 24 5 } } else d
  let d := if flag = 1 ∧ (typ = 4 ∨ typ = 5) then d.partnerCkpt (typ = 5) else d
  if typ = 6 ∧ flag = 1 then d.keygenFrom (g 16 2 % 2 ^ 14) (g 18 1) else d

/-- Take one item of a confirmed section. -/
def Dev.takeItem (d : Dev) (c sec : Nat) (x : RxItem) : Dev :=
  if x.kind = 1 ∧ x.flags % 2 = 0 then
    let (ids, d) := (List.range x.count).foldl (fun (acc : List Nat × Dev) i =>
      let (j, d) := acc.2.landMirror c sec ((x.body.drop (4160 * i)).take 4160) .mirror
      (acc.1 ++ [j], d)) ([], d)
    let k : Kept := { cycle := c, sec := sec, kind := 1, zeros := false, nsh := x.nsh, slba := x.slba, nblk := x.count
                      rope := x.tail, units := ids }
    d.modBelay fun b => { b with kept := b.kept ++ [k] }
  else if x.kind = 1 then
    let (i, d) := d.landZeros c sec x
    let k : Kept := { cycle := c, sec := sec, kind := 1, zeros := true, nsh := x.nsh, slba := x.slba, nblk := x.count
                      rope := x.tail, units := [i] }
    d.modBelay fun b => { b with kept := b.kept ++ [k] }
  else if x.kind = 2 then
    let k : Kept := { cycle := c, sec := sec, kind := 2, zeros := false, nsh := x.nsh, slba := x.slba, nblk := x.count
                      rope := x.tail }
    d.modBelay fun b => { b with kept := b.kept ++ [k] }
  else if x.kind = 3 then
    let k : KeptDone := { ctx := x.ctx, cmdref := x.cmdref, sct := x.slba / 256 % 8, sc := x.slba % 256
                          dw0 := x.tail % 2 ^ 32, dw1 := x.tail / 2 ^ 32 }
    d.modBelay fun b =>
      { b with keptDone := b.keptDone ++ [k]
               precs := b.precs.filter fun t => !(t.kind = 3 && t.ctx = x.ctx && t.cmdref = x.cmdref) }
  else if x.kind = 4 then
    (List.range x.count).foldl (fun d i => d.takeRecord 1 ((x.body.drop (32 * i)).take 32)) d
  else if x.kind = 5 then
    let idx := (List.range x.count).map fun i => leNat ((x.body.drop (4 * i)).take 4)
    let st := d.map.staging.filter fun p => !(decide (p.2.state = .mirror) && idx.contains p.2.token)
    Dev.pruneKept { d with map := { d.map with staging := st } }
  else d

/-- A section's items: section 0 begins with the bundle header (R400). -/
def Section.body (s : Section) : List Byte := if s.sec = 0 then s.bytes.drop 32 else s.bytes

/-- Units that a section would land. -/
def sectionUnits (s : Section) : Nat :=
  ((readItems s.body.length s.body).map fun x => if x.kind = 1 then (if x.flags % 2 = 0 then x.count else 1) else 0).foldl (· + ·) 0

/-- The mirror partition in units (R209). -/
def Dev.mirrorBudget (d : Dev) : Nat :=
  (if d.fget Reg.MAP_CFG.BUF_MODE = 1 then 262144 else 16384) * d.fget Reg.MAP_MIRROR.PCT / 100

/-- Hold and confirm a complete section (R399, R400): sections 0 and 1 with one BCONF for section 1. Section 0's header
gives the partner's counters. -/
def Dev.holdSection (d : Dev) (s : Section) : Dev :=
  let g (o n : Nat) : Nat := leNat ((s.bytes.drop o).take n)
  let d := if s.sec = 0 then
      (d.modBelay fun b => { b with ropeHigh := max b.ropeHigh (g 0 8), seqHigh := max b.seqHigh (g 8 8) }).fset
        Reg.BLY_EPOCH.PEER (g 16 4)
    else d
  let d := (readItems s.body.length s.body).foldl (fun d x => d.takeItem s.cycle s.sec x) d
  let d := d.showStaging
  if s.sec = 0 then d else d.bsend { seq := 0, typ := 4, payload := leBytes (s.cycle + s.sec * 2 ^ 48) 8 }

/-- The contents of a HANDBACK (R415 step 7): the root goes into JOURNAL's lower-generation superblock, the records into
the ring with FLAGS.PARTNER = 0, the DIRTY units into the own staging, and the counters continue. -/
def Dev.handbackLoad (d : Dev) (s0 s3 : List Byte) : Dev :=
  let g (o n : Nat) : Nat := leNat ((s0.drop o).take n)
  let items := readItems s0.length (s0.drop 32)
  let recs := items.flatMap fun x => if x.kind = 4 then
      (List.range x.count).map fun i => (x.body.drop (32 * i)).take 32
    else []
  let first := d.fget Reg.JNL_HEAD.JSEQ
  let d := recs.foldl (fun d r => d.takeRecord 0 r) d
  let root := ((recs.filter fun r => (r.getD 0 0).toNat = 5).map fun r => leNat ((r.drop 24).take 5)).getLastD 0
  let d := d.writeSuper first root (max (d.jnl.sbField 32 8) (g 8 8)) (max (d.jnl.sbField 40 8) (g 0 8))
  let d := (readItems s3.length s3).foldl (fun d x =>
    if x.kind = 1 ∧ x.flags % 2 = 0 then
      (List.range x.count).foldl (fun d i => (d.landMirror 0 3 ((x.body.drop (4160 * i)).take 4160) .dirty).2) d
    else d) d
  let d := d.modBelay fun b => { b with ropeHigh := max b.ropeHigh (g 0 8), seqHigh := max b.seqHigh (g 8 8) }
  let d := (d.fset Reg.ROPE_NEXT.ROPE (max (d.fget Reg.ROPE_NEXT.ROPE) (g 0 8 + 1))).showStaging
  { d with map := { d.map with seq := max d.map.seq (g 8 8 + 1) } }.raiseCeilings

/-- Every section that is whole is held and confirmed in the order received, while the mirror partition has room; a
HANDBACK's two sections are loaded together. -/
def Dev.holdSections : Nat → Dev → Dev
  | 0, d => d
  | f + 1, d =>
    match d.belay.rxSects with
    | [] => d
    | s :: rest =>
      if s.cycle = 0 ∧ d.belay.handback then
        match rest with
        | t :: more =>
          Dev.holdSections f ((d.modBelay fun b => { b with rxSects := more }).handbackLoad s.bytes t.bytes)
        | [] => d
      else if d.mirrorBudget < d.fget Reg.MAP_STAGE.MIRROR + sectionUnits s then d
      else Dev.holdSections f ((d.modBelay fun b => { b with rxSects := rest }).holdSection s)

/-- Bytes of a section so far: whole, it joins those to be held. -/
def Dev.gotPart (d : Dev) (c sec total : Nat) (bs : List Byte) : Dev :=
  let s : Section := { cycle := c, sec := sec, bytes := bs }
  if bs.length < total then d.modBelay fun b => { b with rxPart := some s }
  else
    let d := d.modBelay fun b => { b with rxPart := none, rxSects := b.rxSects ++ [s] }
    Dev.holdSections d.belay.rxSects.length d

/-- A BUNDLE frame (R399, R400). -/
def Dev.rxBundle (d : Dev) (h : BHdr) (payload : List Byte) : Dev :=
  d.brx h fun d =>
    if !d.on 0x14 || !d.on 0x19 || d.quiet || !(d.bly = 2 || d.bly = 4 || d.bly = 5) then d
    else
      let g (o n : Nat) : Nat := leNat ((payload.drop o).take n)
      let c := g 0 6
      let sec := g 6 1
      let off := g 8 4
      let total := g 12 4
      let data := payload.drop 16
      match d.belay.rxPart with
      | some s =>
        if s.cycle = c ∧ s.sec = sec ∧ s.bytes.length = off then d.gotPart c sec total (s.bytes ++ data) else d
      | none => if off = 0 then d.gotPart c sec total data else d

end Sys2Proof.Machine
end

