-- ==== Sys2Proof/Machine/BelayTake.lean ====
section
/-! DEFINITION. BELAY: transport records and forwarded commands (R403 to R405), takeover (R410 to R413), rejoin and
handover (R414 to R417). -/

namespace Sys2Proof.Machine

/-! ### Transport records (R334, R403, R404) -/

/-- A record's bytes. -/
def TRec.wire (t : TRec) : List Byte :=
  leBytes t.kind 1 ++ leBytes t.opcode 1 ++ leBytes (64 + 8 * t.body.length) 2 ++ leBytes (t.ctx % 2 ^ 18) 4 ++
    leBytes t.psn 4 ++ leBytes t.cmdref 4 ++ leBytes t.handle 8 ++ leBytes t.off 4 ++ leBytes t.bytes 4 ++
    leBytes t.rope 8 ++ leBytes (t.wgens.getD 0 0) 8 ++ leBytes (t.wgens.getD 1 0) 8 ++ leBytes 0 8 ++
    t.body.flatMap fun w => leBytes w.toNat 8

/-- The record at the start of a byte string. -/
def readTRec (bs : List Byte) : TRec :=
  let g (o n : Nat) : Nat := leNat ((bs.drop o).take n)
  { kind := g 0 1, opcode := g 1 1, ctx := g 4 4 % 2 ^ 18, psn := g 8 4 % 2 ^ 24, cmdref := g 12 4, handle := g 16 8
    off := g 24 4, bytes := g 28 4, rope := g 32 8, wgens := [g 40 8, g 48 8].filter (· ≠ 0)
    body := (List.range ((g 2 2 - 64) / 8)).map fun i => BitVec.ofNat 64 (g (64 + 8 * i) 8) }

/-- The records of a TREC payload after its number. -/
def readTRecs : Nat → List Byte → List TRec
  | 0, _ => []
  | f + 1, bs =>
    let n := leNat ((bs.drop 2).take 2)
    if bs.length < 64 ∨ n < 64 then [] else readTRec bs :: readTRecs f (bs.drop n)

/-- Send the records that have not been sent, at most 28 in a frame, each frame with the number of its first. -/
def Dev.trecPump (d : Dev) : Dev :=
  let new := d.trans.recs.drop d.belay.trecSent
  if new.isEmpty || !d.blyUp then d
  else
    let n := (new.length + 27) / 28
    let first := d.belay.trecBase + d.belay.trecSent
    let d := (List.range n).foldl (fun d i =>
      d.bsend { seq := 0, typ := 5
                payload := leBytes (first + 28 * i) 8 ++ ((new.drop (28 * i)).take 28).flatMap TRec.wire }) d
    d.modBelay fun b => { b with trecSent := d.trans.recs.length
                                 trecAt := b.trecAt ++ [(first + new.length - 1, d.now)] }

/-- The partner holds a record: an inbound PSN may be acknowledged, an outbound message whose records are all held is
sent (R334). -/
def Dev.recHeld (d : Dev) (t : TRec) : Dev :=
  if t.kind = 3 then
    let r := d.rconn t.ctx
    (d.setRconn t.ctx { r with recPsns := r.recPsns.erase t.psn }).ackNow t.ctx
  else if t.kind = 4 then
    let r := d.rconn t.ctx
    match r.out.find? (fun m => decide (m.state = .recording ∧ (t.psn + 2 ^ 24 - m.psn) % 2 ^ 24 < m.sends)), d.ctx 0x0C t.ctx with
    | some m, some c =>
      let m' := { m with recs := m.recs - 1, state := if m.recs ≤ 1 then TxState.sent else .recording }
      let d := d.setRconn t.ctx { r with out := r.out.map fun x => if x = m then m' else x }
      if m.recs ≤ 1 then d.sendMsg t.ctx c m' else d
    | _, _ => d
  else d

/-- The oldest `k` records are held by the partner. -/
def Dev.recsHeld (d : Dev) (k : Nat) : Dev :=
  let done := d.trans.recs.take k
  let d := { d with trans := { d.trans with recs := d.trans.recs.drop k } }
  let d := d.modBelay fun b => { b with trecBase := b.trecBase + done.length, trecSent := b.trecSent - done.length }
  done.foldl Dev.recHeld d

/-- TCONF (R403, R404). -/
def Dev.rxTconf (d : Dev) (h : BHdr) (number : Nat) : Dev :=
  d.brx h fun d =>
    let waits := (d.belay.trecAt.filter fun p => decide (p.1 ≤ number)).map fun p => d.now - p.2
    let d := waits.foldl (fun d w => d.raiseTo Reg.BLY_CONF_LAT.TREC_MAX_NS w) d
    let d := d.modBelay fun b => { b with trecAt := b.trecAt.filter fun p => decide (number < p.1) }
    d.recsHeld (min (number + 1 - d.belay.trecBase) d.belay.trecSent)

/-- The entry of a partner context in BLY_PCTX_TAB: a local number, or none. -/
def Dev.setPctx (d : Dev) (ctx : Nat) (n : Option Nat) : Dev :=
  let v := match n with
    | some k => k + 2 ^ 31
    | none => 0
  { d with mem := { d.mem with dram := d.mem.dram.write (d.fget Reg.BLY_PCTX_TAB.ADDR * 4096 + 4 * ctx) 4 v } }

/-- Keep one of the partner's records (R404); an OPEN gets a local number in XPORT's range. -/
def Dev.keepRec (d : Dev) (t : TRec) : Dev :=
  let put (d : Dev) : Dev := d.modBelay fun b => { b with precs := b.precs ++ [t] }
  if t.kind = 1 then
    match d.freeCtxNo 0x0C with
    | some n => ((put d).modBelay fun b => { b with pctx := Tab.put b.pctx t.ctx n }).setPctx t.ctx (some n)
    | none => put d
  else if t.kind = 2 then
    (d.modBelay fun b => { b with precs := b.precs.filter fun x => decide (x.ctx ≠ t.ctx)
                                  pctx := Tab.del b.pctx t.ctx
                                  keptDone := b.keptDone.filter fun x => decide (x.ctx ≠ t.ctx) }).setPctx t.ctx none
  else if t.kind = 5 then
    d.modBelay fun b => { b with
      precs := (b.precs.filter fun x => !(x.kind = 4 && x.ctx = t.ctx && psnLe ((x.psn + 1) % 2 ^ 24) t.psn)) ++ [t] }
  else if t.kind = 4 ∧ (t.opcode = 0x04 ∨ t.opcode = 0x17) then
    (put d).modBelay fun b => { b with
      precs := b.precs.filter fun x => !(x.kind = 3 && x.ctx = t.ctx && x.cmdref = t.cmdref)
      keptDone := b.keptDone.filter fun x => !(x.ctx = t.ctx && x.cmdref = t.cmdref) }
  else put d

/-- A TREC frame (R404): its records are kept, and confirmed by their highest number. -/
def Dev.rxTrec (d : Dev) (h : BHdr) (payload : List Byte) : Dev :=
  d.brx h fun d =>
    if !d.on 0x19 then d
    else
      let first := leNat (payload.take 8)
      let ts := readTRecs payload.length (payload.drop 8)
      if ts.isEmpty then d
      else
        let d := Dev.showHostq ((ts.foldl Dev.keepRec d).modBelay fun b => { b with precNo := first + ts.length - 1 })
        d.bsend { seq := 0, typ := 6, payload := leBytes (first + ts.length - 1) 8 }

/-! ### Forwarded commands (R142, R405) -/

/-- The staging TOKEN under which a relayed transfer lands at the unit that holds the host's connection. -/
def relayToken (key : Nat) : Nat := 2 ^ 66 + key

/-- Send a FWD frame. -/
def Dev.sendFwd (d : Dev) (m : FwdMsg) : Dev := d.bsend { seq := 0, typ := 7, msg := some m }

/-- Bytes landed under a TOKEN, in the order of their places. -/
def Dev.landedBytes (d : Dev) (tok len : Nat) : List Byte :=
  let us := (d.map.staging.filter fun p => decide (p.2.token = tok ∧ p.2.state = .landing)).insertionSort
    fun a b => decide (a.2.rec_.lba ≤ b.2.rec_.lba)
  (us.flatMap fun p => p.2.data.bytes 0 4096).take len

/-- The partner runs a command that arrived here: its capsule goes over the link. -/
def Dev.fwdCapsules (d : Dev) : Dev :=
  let keys := d.hostq.fwdOut
  let d := { d with hostq := { d.hostq with fwdOut := [] } }
  keys.foldl (fun d k => match d.tag k with
    | some t =>
      let sub := ((d.ctrl t.ctrl).map (·.subsys)).getD 0
      let d := d.modTag k fun t => if t.forwarded then { t with state := .running } else t
      (d.bump Reg.BLY_FWD.SENT).sendFwd (.capsule k t.qid t.tenant sub t.sqe t.nsgl t.sglLen t.seg)
    | none => d) d

/-- What else the partner is told: which forwarded commands end early, and that a sanitize begins (R152, R154, R163). -/
def Dev.fwdTells (d : Dev) : Dev :=
  let ms := d.hostq.fwdMarks
  let sa := d.hostq.sanTell
  let d := { d with hostq := { d.hostq with fwdMarks := [], sanTell := none } }
  let d := ms.foldl (fun d m => d.sendFwd (.mark m.1 m.2)) d
  match sa with
  | some a => if d.blyUp then d.sendFwd (.sanitize a) else d
  | none => d

/-- Transfers of commands run for the partner: write data is asked for, read data goes out with its XFER_DONE. -/
def Dev.fwdTransfers (d : Dev) : Dev :=
  d.belay.fwdXfers.foldl (fun d f =>
    let key := f.key - 2 ^ 18 * 65536
    if f.x.write then
      let bs := ((d.cipher.plain.filter fun p => p.token = f.x.token).insertionSort fun a b => decide (a.index ≤ b.index)).flatMap
        fun p => p.data.bytes 0 4096
      let d := d.sendFwd (.readData key f.x.off ((bs.drop (f.x.off % 4096)).take f.x.len))
      (d.modBelay fun b => { b with fwdXfers := b.fwdXfers.erase f }).xferDone (f.key / 65536) f.x 0 f.x.len
    else if f.x.asked = 0 then
      (d.sendFwd (.want key f.x.off f.x.len)).modBelay fun b =>
        { b with fwdXfers := b.fwdXfers.map fun g => if g = f then { g with x := { g.x with asked := 1 } } else g }
    else d) d

/-- Completions of commands run for the partner go back, and relayed write data goes out. -/
def Dev.fwdAnswers (d : Dev) : Dev :=
  let back := d.belay.fwdBack
  let rel := d.belay.relayed
  let d := d.modBelay fun b => { b with fwdBack := [], relayed := [] }
  let d := back.foldl (fun d p => d.sendFwd (.completion (p.1 - 2 ^ 18 * 65536) p.2.1 p.2.2)) d
  rel.foldl (fun d r =>
    let key := tagKey r.1 r.2.1.cmdref
    if r.2.1.write then d
    else
      let bs := if r.2.2 = 0 then d.landedBytes (relayToken key) r.2.1.len else []
      (d.sendFwd (.data key r.2.1.off r.2.2 bs)).discard fun u => u.token = relayToken key) d

/-- A relayed transfer at the unit that holds the host's connection. -/
def Dev.relayXfer (d : Dev) (key off len : Nat) (write : Bool) : Dev :=
  match d.tag key with
  | none => d
  | some t =>
    let h := t.cid * 2 ^ 48 + t.ctx % 2 ^ 18 * 2 ^ 30 + 2 ^ 29
    let ref := t.qid * 65536 + t.cid
    let x : Xfer := { write := write, handle := h, token := relayToken key, off := off, len := len, tenant := t.tenant
                      nsh := 0, cmdref := ref, runToken := 0, gen := 0, relay := true }
    match d.ctxBlk t.ctx with
    | none => d
    | some 0x0C =>
      let d := d.needCtx 0x0C t.ctx
      match d.ctx 0x0C t.ctx with
      | none => d
      | some c =>
        d.queueMsg t.ctx { op := if write then .write else .read, tag := key, cmdref := ref
                           pkts := max 1 ((len + c.mtu - 1) / c.mtu), xfer := some x }
    | some _ =>
      let d := d.needCtx 0x0D t.ctx
      if write then d.queuePiece t.ctx (.c2h x) 24 len
      else
        let s := d.sconn t.ctx
        (d.setSconn t.ctx { s with xfers := s.xfers ++ [x] }).moreR2ts t.ctx

/-- A command of the partner's host arrives at the unit that owns its namespace (R405): it is Queued here, and its arrival
is posted. -/
def Dev.fwdArrival (d : Dev) (key qid tenant subsys : Nat) (sqe : List Word) (nsgl sgl : Nat) (seg : List Word) : Dev :=
  if !d.on 0x10 then d
  else
    let ctx := 2 ^ 18 + key / 65536
    let k := tagKey ctx (key % 65536)
    let t : Tag := { ctx := ctx, qid := qid, cid := key % 65536, ctrl := ctx, tenant := tenant, sqe := padWords 8 sqe
                     sglLen := sgl, nsgl := nsgl, seg := seg, remote := some subsys }
    let d := { d with hostq := { d.hostq with tags := Tab.put d.hostq.tags k t } }
    let d := (d.bump Reg.BLY_FWD.RECEIVED).wake
    let known := if qid = 0 then decide (sqeOpcode sqe = 0x80) else ioOpcodes.contains (sqeOpcode sqe)
    if !known then d.hostDone k (cqe 0 1) else d.arrive t

/-- The partner says that a command this unit runs for it ends early (R152, R154). -/
def Dev.fwdMarked (d : Dev) (k : Nat) (reset : Bool) : Dev :=
  match d.tag k with
  | none => d
  | some t =>
    match t.state with
    | .queued => (d.dropArrival t.ctx (t.qid * 65536 + t.cid)).hostDone k (if reset then cqe 0 8 else cqe 0 7)
    | .running => d.abortRunning k t
    | _ => d

/-- The completion of a forwarded command, or of the partner's part of a Flush, comes back: an Abort that waited for it
learns which came first (R152, R153, R405). Its delivery here is held to the deadline fixed at the owner (R175). -/
def Dev.fwdCompleted (d : Dev) (key : Nat) (c : Cqe) (deadline : Nat) : Dev :=
  match d.tag key with
  | none => d
  | some t =>
    if t.far then d.modTag key fun t => { t with far := false }
    else
      let d := d.modTag key fun t =>
        { t with rope := if t.qid = 0 then t.rope else c.dw0 + c.dw1 * 2 ^ 32, deadline := deadline }
      let d := d.hostDone key c false
      let d := match (d.ctrlFor t).bind fun x => d.nsFor x (sqeNsid t.sqe) with
        | some (_, n) => if t.qid = 0 ∧ c.sct = 0 ∧ c.sc = 0 then d.nsChanged n else d
        | none => d
      match t.abortBy with
      | some k => d.abortAnswer k (decide (c.sct = 0 ∧ c.sc = 7))
      | none => d

/-- The partner begins a sanitize: this unit's part of it (R163). -/
def Dev.fwdSanitize (d : Dev) (action : Nat) : Dev := if action = 4 then d.sanCrypto else d.sanBlock

/-- A FWD frame (R405). -/
def Dev.rxFwd (d : Dev) (h : BHdr) (m : FwdMsg) : Dev :=
  d.brx h fun d =>
    if !d.on 0x19 then d
    else match m with
    | .capsule key qid tenant subsys sqe nsgl sgl seg => d.fwdArrival key qid tenant subsys sqe nsgl sgl seg
    | .want key off len => d.relayXfer key off len false
    | .readData key off bs => d.relayXfer key off bs.length true
    | .data key off result bs =>
      let k := 2 ^ 18 * 65536 + key
      match d.belay.fwdXfers.find? (fun f => decide (f.key = k ∧ f.x.off = off ∧ f.x.write = false)) with
      | none => d
      | some f =>
        let d := d.modBelay fun b => { b with fwdXfers := b.fwdXfers.erase f }
        let d := if result = 0 then d.land f.x.tenant f.x.nsh f.x.token (off / 4096 * 4096) bs false else d
        d.xferDone (k / 65536) f.x result (if result = 0 then f.x.len else 0)
    | .completion key c deadline => d.fwdCompleted key c deadline
    | .mark key reset => d.fwdMarked (2 ^ 18 * 65536 + key) reset
    | .sanitize action => d.fwdSanitize action

/-! ### Takeover (R396, R408 to R413) -/

/-- The ANA groups whose home is a unit. -/
def Dev.homeGroups (d : Dev) (unit : Nat) : List Nat :=
  ((List.range 64).filter fun g => bitsOf (d.fget Reg.BLY_HOME.GROUPS) g g = unit).map (· + 1)

/-- The namespaces of those groups. -/
def Dev.homeNs (d : Dev) (unit : Nat) : List Nat :=
  (d.hostq.nss.filter fun p => decide (bitsOf (d.fget Reg.BLY_HOME.GROUPS) (p.2.anagrp - 1) (p.2.anagrp - 1) = unit)).map
    (·.1)

/-- Set the owner of a unit's home groups in HOSTQ_ANA_OWN. -/
def Dev.setOwner (d : Dev) (home owner : Nat) : Dev :=
  let v := (d.homeGroups home).foldl (fun w g => setField w (g - 1) (g - 1) owner) (BitVec.ofNat 64 (d.fget Reg.HOSTQ_ANA_OWN.UNIT))
  d.fset Reg.HOSTQ_ANA_OWN.UNIT v.toNat

/-- Report a unit's home groups in a state, or as ownership gives (none); Persistent Loss stays. -/
def Dev.reportGroups (d : Dev) (home : Nat) (a : Option Ana) : Dev :=
  let gs := (d.homeGroups home).filter fun g => decide (Tab.look d.hostq.ana g ≠ some .persistentLoss)
  let ana := gs.foldl (fun t g => match a with
    | some x => Tab.put t g x
    | none => Tab.del t g) d.hostq.ana
  { d with hostq := { d.hostq with ana := ana } }

/-- Every command in flight when the pair loses a unit has the takeover's bound from t0 (R35): a command that has a deadline
has the new one, and a command not admitted yet gets it from LEDGER. -/
def Dev.inFlightAll (d : Dev) (t0 : Nat) : Dev :=
  let tags := d.hostq.tags.map fun p =>
    let op := sqeOpcode p.2.sqe
    let k : CmdKind := if op = 2 then .read else .write
    let units := if op ∈ [1, 2] then max 1 p.2.nblk else 1
    (p.1, { p.2 with inFlight := true
                     deadline := if p.2.deadline = 0 then 0 else t0 + bound d.cycleNs k 5 units })
  { d with hostq := { d.hostq with tags := tags } }

/-- Loss is declared (R396, R410): SOLO, the takeover starts with the claim of the partner's home channels. -/
def Dev.startTakeover (d : Dev) (t0 : Nat) : Dev :=
  let d := (d.setBly 3).fset Reg.BLY_LAST_T0.NS t0
  let d := d.modBelay fun b => { b with takeover := .claiming, t0 := t0, bundling := false, joinWaits := false
                                        pairNext := false, releasing := false, rxPart := none, rxSects := [] }
  let d := (d.inFlightAll t0).raiseClaim (1 - d.unitId)
  (d.takeoverEvent 1 0).post 0x19 0 0x190 (d.fget Reg.BLY_EPOCH.OWN)

/-- PARTNER_LOST (R396, R415), a wake source (R453). -/
def Dev.partnerLost (d : Dev) : Dev :=
  let b := d.belay
  if !d.on 0x19 || !(d.bly = 2 || d.bly = 4 || d.bly = 5) || !d.silent b.lastLink || !d.silent b.lastPins then d
  else
    let t0 := max (b.lastLink.getD 0) (b.lastPins.getD 0)
    let d := (d.wake.fset Reg.BLY_STATUS.LINK_UP 0).fset Reg.BLY_STATUS.PINS_UP 0
    if d.bly = 4 then
      if !b.handback then (d.setBly 1).modBelay fun b => { b with joinWaits := false }
      else if d.fget Reg.MAP_RECOVER.STATE = 2 then d.startTakeover t0
      else d
    else if d.bly = 5 ∧ !b.handover ∧ !b.releasing then
      let d := ((d.setBly 3).fset Reg.ROPE_PAIR.PAIRED 0).reportGroups (1 - d.unitId) none
      d.modBelay fun b => { b with bundling := false, pairNext := false, rxPart := none, rxSects := [] }
    else
      let d := if b.handover then
          (((d.fset Reg.BLY_CMD.RESULT 0x21).fset Reg.BLY_CMD.BUSY 0).reportGroups d.unitId none).modBelay
            fun b => { b with handover := false }
        else d
      d.startTakeover t0

/-- TAKEOVER_CLAIM_DONE: the first exchange is answered, and the second goes out for the own home channels (R407, R408). -/
def Dev.takeoverClaimed (d : Dev) : Dev :=
  if d.belay.takeover ≠ .claiming ∨ d.claimX.isSome then d
  else if d.media.claimRejected then d.fence 2
  else
    (d.modBelay fun b => { b with takeover := .claimingOwn }).claimSend (d.fget Reg.BLY_EPOCH.OWN) d.linkedSleds
      (homeMask d.unitId)

/-- From here on ROPE runs unpaired: completions held are released, and no record waits for a partner (R27, R408, R410). -/
def Dev.goUnpaired (d : Dev) : Dev :=
  let d := (d.fset Reg.ROPE_PAIR.PAIRED 0).modBelay fun b => { b with out := [] }
  let d := d.releaseUnpaired (cycAdd d.belay.nextSeal (2 ^ 48 - 1))
  d.recsHeld d.trans.recs.length

/-- TAKEOVER_SECOND_CLAIM_DONE (R408). -/
def Dev.takeoverWon (d : Dev) : Dev :=
  if d.belay.takeover ≠ .claimingOwn ∨ d.claimX.isSome then d
  else if d.media.claimRejected || d.media.claimLost then d.fence 2
  else (d.modBelay fun b => { b with takeover := .released }).goUnpaired

/-- Is a map unit covered by a later item? -/
def Dev.coveredBy (d : Dev) (rest : List Kept) (nsh u : Nat) : Bool :=
  rest.any fun r => r.nsh = nsh && decide (d.unitOf r.slba ≤ u ∧ u < d.unitOf (r.slba + r.nblk + d.mapSpan - 1))

/-- Apply the kept items in order (R411): mirrored units become DIRTY and current, and deallocations take effect where no
later item covers them. -/
def Dev.applyKept : List Kept → Dev → Dev
  | [], d => d
  | k :: rest, d =>
    let free (u : Nat) : Bool := !d.coveredBy rest k.nsh u
    let cyc := cycAdd d.belay.nextSeal (2 ^ 48 - 1)
    let d :=
      if k.kind = 2 then d.deallocUnits k.nsh ((d.wholeUnits k.slba k.nblk).1.filter free) cyc
      else if k.zeros then
        let d := k.units.foldl (fun d i => d.modUnit i fun u =>
          if u.state = .mirror then { u with state := .dirty, section_ := none, cycle := cyc, switched := false } else u) d
        d.zeroUnits k.nsh ((d.wholeUnits k.slba k.nblk).1.filter free) k.rope cyc
      else
        let us := k.units.filter fun i => (Tab.look d.map.staging i).any fun u => decide (u.state = .mirror)
        let lbaOf (d : Dev) (i : Nat) : Nat := ((Tab.look d.map.staging i).map (·.rec_.lba)).getD 0
        let d := us.foldl (fun d i => d.modUnit i fun u => { u with state := .dirty, section_ := none, cycle := cyc }) d
        (d.unitsOf k.slba k.nblk).foldl (fun d u =>
          d.stageUnit k.nsh u k.rope cyc (us.filter fun i => d.unitOf (lbaOf d i) = u)) d
    Dev.applyKept rest d

/-- The JSEQ from which the partner's records are replayed: its last CKPT_BEGIN that a CKPT_END follows, else the tail. -/
def Dev.partnerFrom (d : Dev) : Nat :=
  let m := d.jnl.mram
  let js := ((List.range (d.fget Reg.JNL_HEAD.JSEQ - d.fget Reg.JNL_TAIL.JSEQ)).map (· + d.fget Reg.JNL_TAIL.JSEQ)).filter
    d.isPartnerRec
  match (js.filter fun j => m.read (ringSlot j) 1 = 5).getLast? with
  | none => d.fget Reg.JNL_TAIL.JSEQ
  | some e => ((js.filter fun j => m.read (ringSlot j) 1 = 4 && decide (j < e)).getLast?).getD (d.fget Reg.JNL_TAIL.JSEQ)

/-- The partner's map, directory, bands and blocks as of its checkpoint root join this unit's (R223, R411): its bands take
FLAGS.PARTNER and the lowest numbers not in use, and its blocks' entries in the block table come with them. -/
def Dev.loadPartnerRoot (d : Dev) (r : RootObs) : Dev :=
  let theirs (k : Nat) : Bool := d.partnerNs k
  let merge {α : Type} (mine new : Tab α) (nsOf : Nat → Nat) : Tab α :=
    (new.filter fun p => theirs (nsOf p.1)).foldl (fun t p => Tab.put t p.1 p.2) mine
  let valid := r.valid.foldl (fun t p => Tab.put t p.1 p.2) d.map.valid
  let a := d.fget Reg.MDA_BLKTAB.ADDR * 4096
  let dram := r.blocks.foldl (fun m c => Memory.setByte m (a + c.1) c.2) d.mem.dram
  let d := { d with
    mem := { d.mem with dram := dram }
    map := { d.map with entries := merge d.map.entries r.entries (· / 2 ^ 40), dir := merge d.map.dir r.dir (· / 2 ^ 32)
                        clearSeq := merge d.map.clearSeq r.clearSeq id, valid := valid }
    stripe := { d.stripe with free := d.stripe.free ++ r.free } }
  let (d, names) := r.bands.foldl (fun (acc : Dev × Tab Nat) p =>
    let (d, t) := acc
    let n := (((List.range (d.stripe.bands.length + 1))).find? fun n => (Tab.look d.stripe.bands n).isNone).getD 0
    (d.putBand n { p.2 with partner := true, ckptAt := d.jnl.ckptDone }, Tab.put t p.1 n)) (d, [])
  { d with stripe := { d.stripe with queue := d.stripe.queue ++ r.queue.filterMap (Tab.look names) } }

/-- A carried context (R335): opened at its local number with FLAGS.PARTNER, its sequence state from the records, and its
queue known to HOSTQ. The partner's controllers are not mirrored: the queue's controller is the image's CNTLID, or the
lowest free one (log 37). -/
def Dev.openCarried (d : Dev) (n : Nat) (o : TRec) (recs : List TRec) : Dev :=
  let img := readCtx (Memory.setBytes [] 0 (o.body.flatMap fun w => leBytes w.toNat 8)) 0
  let rx := recs.filter fun t => t.kind = 3
  let tx := recs.filter fun t => t.kind = 4
  let top (start : Nat) (ts : List TRec) : Nat :=
    ts.foldl (fun p t => if psnLe p ((t.psn + 1) % 2 ^ 24) then (t.psn + 1) % 2 ^ 24 else p) start
  let una := (recs.filter fun t => t.kind = 5).foldl (fun p t => if psnLe p t.psn then t.psn else p) img.una
  let epsn := top img.epsn rx
  let c := { img with flags := img.flags ||| 2, epsn := epsn, acked := (epsn + 2 ^ 24 - 1) % 2 ^ 24, una := una
                      npsn := top (if psnLe img.npsn una then una else img.npsn) tx }
  let d := match d.makeSlot 0x0C with
    | (d, true) => d.placeCtx 0x0C n c
    | (d, false) =>
      let d := { d with mem := { d.mem with dram := d.mem.dram.setBytes (d.spillAddr 0x0C n) c.bytes } }
      let t := d.tport 0x0C
      (d.setTport 0x0C { t with spilled := n :: t.spilled }).showCtx 0x0C
  let d := d.setRconn n { limitSent := (c.msn + c.granted) % 2 ^ 24 }
  let id := if (d.ctrl c.cntlid).isNone then c.cntlid else freeCtrl d.hostq.ctrls d.hostq.ctrls.length 1
  let known := d.hostq.queues.find? fun q => decide (q.2.qid = 0 ∧ q.1 ∈ d.belay.pctx.map (·.2)) &&
    (d.ctxAny 0x0C q.1).any fun x => x.cntlid = c.cntlid
  let (id, d) := match known with
    | some q => (q.2.ctrl, d)
    | none =>
      let none_ : HostEnt := { hash := [], subsys := 0, tenant := 0, maxq := 1 }
      let e : HostEnt := (d.hostq.hosts.find? fun (h : HostEnt) => decide (h.tenant = c.tenant)).getD none_
      let k : Ctrl := { subsys := e.subsys, tenant := c.tenant, maxq := e.maxq, hostHash := e.hash, adminCtx := n, en := true, rdy := true, katoLast := d.now }
      (id, { d with hostq := { d.hostq with ctrls := Tab.put d.hostq.ctrls id k } })
  let q : Queue := { ctrl := id, qid := c.qid, sqsize := d.fget Reg.HOSTQ_CFG.MQES, fabric := .rdma }
  Dev.showHostq { d with hostq := { d.hostq with queues := Tab.put d.hostq.queues n q } }

/-- TAKEOVER_STATE_LOAD (R410, R411, R413, R335): the confirmed sections are loaded, the counters continue, the groups
change owner, and the partner's contexts are opened. `root` is what the media give for the partner's last root. -/
def Dev.takeoverLoad (d : Dev) (root : RootObs) : Dev :=
  if d.belay.takeover ≠ .released then d
  else
    let d := d.loadPartnerRoot root
    let from_ := d.partnerFrom
    let d := (List.range (d.fget Reg.JNL_HEAD.JSEQ - from_)).foldl (fun d i =>
      if d.isPartnerRec (from_ + i) then d.replayRec root (from_ + i) else d) d
    let d := (d.openReplayed true).settleBands true
    let d := Dev.applyKept d.belay.kept d
    let d := (d.modBelay fun b => { b with kept := [] }).showStaging
    let lag := (d.cipher.data.filter fun p => p.2.lagging).map (·.1)
    let d := lag.foldl (fun d n => d.setDslot n { tenant := (d.dslot n).tenant, nsh := (d.dslot n).nsh }) d
    let d := d.fset Reg.ROPE_NEXT.ROPE (max (d.fget Reg.ROPE_NEXT.ROPE) (d.belay.ropeHigh + 1))
    let d := { d with map := { d.map with seq := max d.map.seq (d.belay.seqHigh + 1) } }
    let d := d.raiseCeilings.takeoverEvent 3 0
    let other := 1 - d.unitId
    let ns := d.homeNs other
    let pages := (d.map.dir.map (·.1)).filter fun p => ns.contains (p / 2 ^ 32)
    let cold := d.hostq.nss.map fun p =>
      if ns.contains p.1 then (p.1, { p.2 with cold := p.2.pinned && pages.any fun g => g / 2 ^ 32 = p.1 }) else p
    let d := { d with hostq := { d.hostq with nss := cold }, map := { d.map with coldPages := d.map.coldPages ++ pages } }
    let d := (d.setOwner other d.unitId).reportGroups other (some .nonOptimized)
    let warm := (d.homeGroups other).filter fun g => !d.hostq.nss.any fun p => p.2.anagrp = g && p.2.cold
    let d := { d with hostq := { d.hostq with ana := warm.foldl Tab.del d.hostq.ana } }
    let mib := (ns.map fun h => match Tab.look d.hostq.nss h with
      | some n => if n.pinned then d.pinCharge n.nsze else 0
      | none => 0).foldl (· + ·) 0
    let d := (d.fset Reg.MAP_PIN_USED.PARTNER_MIB mib).showWarm
    let d := (d.belay.precs.filter fun t => t.kind = 1).foldl (fun d o =>
      match Tab.look d.belay.pctx o.ctx with
      | some n => d.openCarried n o (d.belay.precs.filter fun t => t.ctx = o.ctx)
      | none => d) d
    (d.modBelay fun b => { b with takeover := .loaded }).takeoverEvent 4 0

/-- A completion entry as its 16 bytes give it. -/
def cqeOf (ws : List Word) : Cqe :=
  let s := field (ws.getD 1 0) 63 49
  { sct := s / 256 % 8, sc := s % 256, crd := s / 2048 % 4, dnr := bitOf s 14, dw0 := field (ws.getD 0 0) 31 0
    dw1 := field (ws.getD 0 0) 63 32, sqhd := field (ws.getD 1 0) 15 0 }

/-- A completion that the partner counted and this unit sends (R412, R466): its tag is Completed until delivered. -/
def Dev.carriedDone (d : Dev) (n qid cid : Nat) (c : Cqe) : Dev :=
  let k := tagKey n cid
  let q := (d.queue n).getD { ctrl := 0, qid := qid, sqsize := 0, fabric := .rdma }
  let ten := ((d.ctxAny 0x0C n).map (·.tenant)).getD 0
  let t : Tag := { state := .completed, ctx := n, qid := qid, cid := cid, ctrl := q.ctrl, tenant := ten, sqe := padWords 8 [] }
  let o : Done := { ctx := n, cid := cid, cqe := c, tenant := ten }
  { d with hostq := { d.hostq with tags := Tab.put d.hostq.tags k t, outbox := d.hostq.outbox ++ [o] } }

/-- Settle the commands of one carried context (R412, R335): kept completions without a TX record are sent, recorded
packets from UNA are resent, recorded capsules run anew. -/
def Dev.settleCarried (d : Dev) (pctx n : Nat) : Dev :=
  let recs := d.belay.precs.filter fun t => t.ctx = pctx
  let dones := d.belay.keptDone.filter fun k => k.ctx = pctx
  match d.ctxAny 0x0C n with
  | none => d
  | some c =>
    let d := (recs.filter fun t => t.kind = 4 ∧ psnLe c.una t.psn = true).foldl (fun d t =>
      if t.opcode = 0x04 ∨ t.opcode = 0x17 then
        let m : TxMsg := { op := .send (t.opcode = 0x17), tag := tagKey n (t.cmdref % 65536), cmdref := t.cmdref
                           psn := t.psn, state := .sent }
        let d := d.carriedDone n (t.cmdref / 65536) (t.cmdref % 65536) (cqeOf t.body)
        let r := d.rconn n
        (d.setRconn n { r with out := r.out ++ [m], sends := r.sends + 1 }).sendMsg n c m
      else d.modBelay fun b => { b with carried := b.carried ++ [{ t with ctx := n }] }) d
    let d := dones.foldl (fun d k =>
      let q : Cqe := { sct := k.sct, sc := k.sc, dnr := false, dw0 := k.dw0, dw1 := k.dw1 }
      (d.carriedDone n (k.cmdref / 65536) (k.cmdref % 65536) q).sendResponse n (tagKey n k.cmdref) k.cmdref false) d
    let d := (recs.filter fun t => t.kind = 3 && t.body.length = 8).foldl (fun d t =>
      d.capsule n t.body 1 (field (t.body.getD 4 0) 23 0) []) d
    let tags := d.hostq.tags.map fun p => if p.2.ctx = n then (p.1, { p.2 with inFlight := true }) else p
    { d with hostq := { d.hostq with tags := tags } }

/-- A command forwarded to a partner now lost runs here, unless it is aborted or its controller resets (R412); the partner's
part of a Flush is settled with the state loaded. -/
def Dev.fwdTakenBack (d : Dev) (p : Nat × Tag) : Dev :=
  let t := p.2
  if t.far then d.modTag p.1 fun t => { t with far := false }
  else if !t.forwarded || decide (t.state = .completed) then d
  else
    let d := d.modTag p.1 fun t => { t with forwarded := false, state := .queued }
    match t.abortBy with
    | some k => (d.hostDone p.1 (cqe 0 7)).abortAnswer k true
    | none =>
      if (d.queue t.ctx).isNone || (d.ctrl t.ctrl).any (·.resetting) then d.hostDone p.1 (cqe 0 8) else d.arrive t

/-- TAKEOVER_ACCEPT_RESUME (R410, R412). Commands that had been forwarded run here, and those run for the partner's hosts
are dropped: their capsules run anew from its records. -/
def Dev.takeoverAccept (d : Dev) : Dev :=
  if d.belay.takeover ≠ .loaded then d
  else
    let handed := d.belay.handover
    let d := d.modBelay fun b => { b with takeover := .none, handover := false, fwdXfers := [], relayed := [] }
    let d := { d with hostq := { d.hostq with tags := d.hostq.tags.filter fun p => p.2.remote.isNone } }
    let d := d.belay.pctx.foldl (fun d p => d.settleCarried p.1 p.2) d
    let d := d.hostq.tags.foldl Dev.fwdTakenBack d
    let d := { d with hostq := { d.hostq with fwdOut := [], fwdMarks := [] } }
    let d := Dev.showHostq (d.modBelay fun b => { b with precs := [], keptDone := [], pctx := [] })
    let d := d.takeoverEvent 5 0
    if handed then (d.bump Reg.BLY_COUNT.REJOINS).post 0x19 0 0x194 0
    else (d.bump Reg.BLY_COUNT.TAKEOVERS).post 0x19 0 0x191 0

/-- A page of a pinned map loads; a namespace that becomes warm on a survivor is TAKEOVER STEP 6 (R413). -/
def Dev.warmTake (d : Dev) (page : Nat) : Dev :=
  let h := page / 2 ^ 32
  let was := (Tab.look d.hostq.nss h).any (·.cold)
  let d := d.warmHost page
  let now := (Tab.look d.hostq.nss h).any (·.cold)
  if was ∧ !now ∧ d.bly = 3 ∧ d.partnerNs h then d.takeoverEvent 6 h else d

/-! ### Rejoin and handover (R414 to R417) -/

/-- BELAY comes into service (R395, R407, R414): it beats; it joins a partner that serves SOLO, or claims its own home
channels. -/
def Dev.blyEnabled (d : Dev) : Dev :=
  let d := d.modBelay fun b => { b with beating := true, lastLink := some d.now, lastPins := some d.now, skew := 0
                                        takeover := .none, joinWaits := false, bundling := false, pairNext := false
                                        handover := false, handback := false, releasing := false, t0 := d.now }
  if d.belay.hello.any (fun h => h.state = 3 || h.state = 5) then (d.setBly 4).sendCtrl 1
  else (d.setBly 1).raiseClaim d.unitId

/-- BELAY goes out of service (R417). -/
def Dev.blyDisabled (d : Dev) : Dev :=
  let d := d.modBelay fun b => { b with beating := false, takeover := .none, bundling := false }
  let d := (d.fset Reg.BLY_STATUS.LINK_UP 0).fset Reg.BLY_STATUS.PINS_UP 0
  d.setBly (if d.blyUp then 1 else 0)

/-- A CTRL JOIN (R414): the holder starts at the next boundary. -/
def Dev.rxJoin (d : Dev) (h : BHdr) (epoch : Nat) : Dev :=
  d.brx h fun d =>
    let d := d.fset Reg.BLY_EPOCH.PEER epoch
    if d.bly = 3 ∧ d.belay.takeover = .none then d.modBelay fun b => { b with joinWaits := true } else d

/-- BLY_CMD OP 1 (R416). -/
def Dev.blyHandover (d : Dev) : Dev :=
  if d.fget Reg.BLY_CMD.BUSY = 1 then d
  else
    let d := d.fset Reg.BLY_CMD.OP 1
    if !d.on 0x19 || d.bly ≠ 2 then d.fset Reg.BLY_CMD.RESULT 0x20
    else (d.fset Reg.BLY_CMD.BUSY 1).modBelay fun b => { b with joinWaits := true, handover := true }

/-- The unit whose home groups a handback or handover moves. -/
def Dev.movingHome (d : Dev) : Nat := if d.belay.handover then d.unitId else 1 - d.unitId

/-- A commit-cycle boundary (R414, R415 step 2): a waiting JOIN or handover begins; ROPE is paired after a first section 1
has been confirmed. -/
def Dev.blyBoundary (d : Dev) : Dev :=
  let d := if d.belay.pairNext ∧ d.bly = 5 then
      (d.fset Reg.ROPE_PAIR.PAIRED 1).modBelay fun b => { b with pairNext := false }
    else d
  if d.belay.joinWaits then
    let d := d.modBelay fun b => { b with joinWaits := false, bundling := true, t0 := d.now }
    ((d.setBly 5).reportGroups d.movingHome (some .change)).takeoverEvent 7 0
  else d

/-- Is all work of the moving groups' namespaces done: no command admitted or running, no program under way (R415 step 3)? -/
def Dev.movedDrained (d : Dev) : Bool :=
  let ns := d.homeNs d.movingHome
  (d.ledger.adms.all fun a => !ns.contains a.2.nsh) &&
    (d.hostq.tags.all fun p => !(ns.contains p.2.nsh && p.2.checked && decide (p.2.state ≠ .completed))) &&
    (d.map.staging.all fun p => !(ns.contains p.2.rec_.nsh && decide (p.2.state = .placing ∨ p.2.state = .held)))

/-- The DIRTY units of namespaces as WRITE items, one for each unit. -/
def Dev.dirtyItems (d : Dev) (ns : List Nat) : List Byte :=
  (d.map.staging.filter fun p => ns.contains p.2.rec_.nsh && decide (p.2.state = .dirty) && p.2.superseded.isNone).flatMap
    fun p => itemHead 1 0 1 0 0 p.2.rec_.nsh p.2.rec_.lba p.2.rec_.wgen ++ unitBytes p

/-- HANDBACK_DRAINED (R415 steps 3 to 5, R416). -/
def Dev.handbackSend (d : Dev) : Dev :=
  if d.bly ≠ 5 ∨ d.belay.releasing ∨ !d.movedDrained then d
  else
    let home := d.movingHome
    let ns := d.homeNs home
    let d := if d.belay.handover then d.sendCtrl 4
      else
        let from_ := d.partnerFrom
        let recs := ((List.range (d.fget Reg.JNL_HEAD.JSEQ - from_)).filter fun i => d.isPartnerRec (from_ + i)).map
          fun i => d.jnl.mram.bytes (ringSlot (from_ + i)) 32
        let head := leBytes (d.fget Reg.ROPE_NEXT.ROPE - 1) 8 ++ leBytes (d.map.seq - 1) 8 ++
          leBytes (d.fget Reg.BLY_EPOCH.OWN) 4
        let s3 := d.dirtyItems ns
        let s0 := head ++ leBytes 0 4 ++ leBytes 0 4 ++ leBytes s3.length 4 ++
          itemHead 4 0 recs.length 0 0 0 0 0 ++ recs.flatten
        let d := ((d.sendCtrl 2).sendSection 0 0 s0).sendSection 0 3 s3
        let st := d.map.staging.filter fun p => !(ns.contains p.2.rec_.nsh && decide (p.2.state = .dirty))
        Dev.showStaging { d with map := { d.map with staging := st } }
    let d := (List.range 24).foldl (fun d n =>
      let o := d.fget Reg.TTH_OWN.OWNED n
      d.fset Reg.TTH_OWN.OWNED (o - (o &&& homeMask home)) n) d
    let d := (d.setOwner home (1 - d.unitId)).reportGroups home (some .inaccessible)
    let queued := (d.hostq.tags.filter fun p => decide (p.2.state = .queued ∧ p.2.qid ≠ 0) &&
      (match d.ctrlFor p.2 with
        | some c => (d.nsFor c (sqeNsid p.2.sqe)).any fun q => ns.contains q.1
        | none => false)).map (·.1)
    let d := queued.foldl (fun d k => match d.tag k with
      | some t => (d.dropArrival t.ctx (t.qid * 65536 + t.cid)).hostDone k (cqe 3 2 false)
      | none => d) d
    let d := d.modBelay fun b => { b with releasing := true }
    if d.belay.handover then
      let d := ((d.setBly 1).fset Reg.BLY_CMD.RESULT 0).fset Reg.BLY_CMD.BUSY 0
      let d := (d.fset Reg.ROPE_PAIR.PAIRED 0).modBelay fun b => { b with bundling := false, handover := false }
      ((d.bump Reg.BLY_COUNT.REJOINS).post 0x19 0 0x194 0).takeoverEvent 8 0
    else d

/-- A CTRL HANDBACK at the joiner (R415 steps 5 to 7): it claims its home channels; its contents follow in BUNDLE frames of
cycle 0. -/
def Dev.rxHandback (d : Dev) (h : BHdr) (epoch : Nat) : Dev :=
  d.brx h fun d =>
    if d.bly ≠ 4 then d
    else
      let d := (d.fset Reg.BLY_EPOCH.PEER epoch).modBelay fun b => { b with handback := true }
      (d.setOwner d.unitId d.unitId).raiseClaim d.unitId

/-- The rejoin ends (R415 step 8): at the joiner once its recovery is done and its blocks are in service, at the holder with
CTRL DONE. -/
def Dev.rejoined (d : Dev) : Dev :=
  let d := ((d.setBly 2).reportGroups d.unitId none).reportGroups (1 - d.unitId) none
  let d := d.modBelay fun b => { b with releasing := false, handback := false, joinWaits := false, pairNext := false }
  ((d.bump Reg.BLY_COUNT.REJOINS).post 0x19 0 0x194 0).takeoverEvent 8 0

/-- REJOIN_DONE: `h` is none at the joiner, which sends DONE. -/
def Dev.rejoinDone (d : Dev) (h : Option BHdr) : Dev :=
  match h with
  | some h => d.brx h fun d => if d.bly = 5 ∧ d.belay.releasing then d.rejoined else d
  | none =>
    if d.bly = 4 ∧ d.belay.handback ∧ d.fget Reg.MAP_RECOVER.STATE = 2 ∧ d.fget Reg.ROPE_PAIR.PAIRED = 1 ∧ d.on 0x12 ∧
        d.on 0x11 ∧ d.on 0x10 then (d.sendCtrl 3).rejoined
    else d

/-- A CTRL HANDOVER (R416): the partner claims the channels and becomes SOLO; the takeover's load and resumption follow. -/
def Dev.rxHandover (d : Dev) (h : BHdr) (epoch : Nat) : Dev :=
  d.brx h fun d =>
    if d.bly ≠ 2 then d
    else
      let d := (d.fset Reg.BLY_EPOCH.PEER epoch).raiseClaim (1 - d.unitId)
      let d := (d.setBly 3).modBelay fun b => { b with takeover := .released, t0 := d.now, handover := true
                                                       bundling := false }
      d.goUnpaired

/-! ### What follows any command -/

/-- A lost claim fences the unit (R409); in a takeover's exchanges it is the lost race of R408. -/
def Dev.claimWatch (d : Dev) : Dev :=
  if !d.media.claimLost then d
  else
    let race := d.claimsPending
    let d := { d with media := { d.media with claimLost := false } }
    d.fence (if race then 2 else 3)

/-- What BELAY does at once after any command: it fences for a lost claim, and records and forwarded traffic leave. -/
def Dev.belaySettle (d : Dev) : Dev := d.claimWatch.fwdCapsules.fwdTells.fwdTransfers.fwdAnswers.trecPump

end Sys2Proof.Machine
end

