-- ==== Sys2Proof/Machine/ResetOps.lean ====
section
/-! DEFINITION. Resets (R47 to R52), the watchdog (R509), and the power-fail sequence (R457 to R460). -/

namespace Sys2Proof.Machine

/-! ### Resets -/

/-- The device when every register and field holds its reset value, with nothing in flight. -/
def Dev.rst : Dev := { regs := initAll Row.reset, shadow := initAll Row.resetSt }

/-- What no reset touches: MRAM, the firmware slots in boot flash (R162), levels that others drive, and the counter of free values. -/
def Dev.keepAlways (d new : Dev) : Dev :=
  { new with
    free := d.free
    jnl := { new.jnl with mram := d.jnl.mram }
    hostq := { new.hostq with fw := { d.hostq.fw with buffer := [] } }
    camp := { new.camp with pfailN := d.camp.pfailN }
    tim := { new.tim with ppsIn := d.tim.ppsIn }
    mgmt := { new.mgmt with gpioPins := d.mgmt.gpioPins }
    belay := { new.belay with pinIn := d.belay.pinIn } }

/-- CAMP latches its straps (R50). -/
def Dev.latchStraps (d : Dev) (h : Hard) : Dev :=
  (d.fset Reg.CAMP_STRAP.UNIT_ID h.unitIdPin).fset Reg.CAMP_STRAP.BOOT_MODE h.bootModePin

/-- ANC is the one clock that runs from PWR_GOOD on (R451, R455). -/
def Dev.startAnc (d : Dev) : Dev := (d.fset Reg.CAMP_PLL.RUN 1).fset Reg.CAMP_PLL.LOCK 1

/-- A cold reset (R48): everything but MRAM; COUNT is 0 and COLD is set. -/
def Dev.coldReset (d : Dev) (h : Hard) : Dev := ((d.keepAlways Dev.rst).latchStraps h).startAnc

/-- Count a pin or warm reset and set its cause bit (CAMP_RST_CAUSE). -/
def Dev.countReset (d old : Dev) (cause : FRef) : Dev :=
  let d := d.setReg 0 0 Reg.CAMP_RST_CAUSE.COUNT.off (old.reg 0 0 Reg.CAMP_RST_CAUSE.COUNT.off)
  (d.bump Reg.CAMP_RST_CAUSE.COUNT).fset cause 1

/-- A pin reset (R48): everything but MRAM and the reset-cause and power-fail records. -/
def Dev.pinReset (d : Dev) (h : Hard) : Dev :=
  let new := ((d.keepAlways Dev.rst).latchStraps h).startAnc
  let new := new.setReg 0 0 Reg.CAMP_PFAIL_REC.EVENTS.off (d.reg 0 0 Reg.CAMP_PFAIL_REC.EVENTS.off)
  let new := new.setReg 0 0 Reg.CAMP_PFAIL_NS.NS.off (d.reg 0 0 Reg.CAMP_PFAIL_NS.NS.off)
  new.countReset d Reg.CAMP_RST_CAUSE.PIN

/-- Where the power-fail sequence stands after a warm reset: CAMP keeps its state (R52), the dump has lost what it was dumping,
and the sequence ends where PFAIL_N is high (R460). A UNIT reaction's dump ends with the reset, and a low PFAIL_N then
starts the filter (DEDUCED, log 82). -/
def Camp.pfailWarm (c : Camp) : PFail :=
  if c.pfail = .idle ∨ c.pfail = .filtering then c.pfail
  else if c.pfailN then .idle
  else if c.unitDump then .filtering
  else .done

/-- A warm reset (R48, R52): everything but CAMP, the fuse shadow, MGMT, MRAM, and DRAM when KEEP_ON_WARM was 1. Domains of
the blocks reset return to their reset values, so that their clocks stop until they are asked for again (DEDUCED, log 40). -/
def Dev.warmReset (d : Dev) (cause : FRef) : Dev :=
  let keep (a : Nat) : Bool := inBlock 0x00 a || inBlock 0x1C a
  let regs (new old : WTab) : WTab :=
    (new.filter fun (p : Nat × Word) => !keep p.1).foldl (fun t (p : Nat × Word) => t.set p.1 p.2)
      (old.filter fun (p : Nat × Word) => keep p.1)
  let kept := decide (d.fget Reg.DMC_CTRL.KEEP_ON_WARM = 1)
  let new := d.keepAlways Dev.rst
  let doms := d.camp.doms.filter fun p => decide (p.1 = 0 ∨ p.1 = 87)
  let new := { new with
    regs := regs new.regs d.regs
    shadow := regs new.shadow d.shadow
    insts := d.insts.filter fun p => decide (p.1 / 32 = 0x00 ∨ p.1 / 32 = 0x1C)
    mem := { new.mem with dram := if kept then d.mem.dram else [] }
    dmc := { new.dmc with selfRefresh := kept }
    camp := { d.camp with doms := doms, pfail := d.camp.pfailWarm, unitDump := false }
    mgmt := d.mgmt
    jtag := d.jtag
    hostq := { new.hostq with fw := { new.hostq.fw with active := d.hostq.fw.nextReset.getD d.hostq.fw.active, nextReset := none, swapping := none } }
    anchor := { new.anchor with fuse := d.anchor.fuse, sensed := d.anchor.sensed } }
  (new.updatePlls).countReset d cause

/-- A write of CAMP_WRST.KEY (R52): the key starts a warm reset, any other value is a bad access. -/
def Dev.warmRequest (d : Dev) (key : Nat) : Dev :=
  if key % 65536 = 0x5752 then d.warmReset Reg.CAMP_RST_CAUSE.WARM_REQ else d.setErr 0 0 errAccess

/-! ### The watchdog (R509) -/

/-- Periods of the 25 MHz reference in a millisecond. -/
def wdogMs : Nat := 25000

/-- A write of WDN_WDOG: it restarts the count with KICK or with another TIMEOUT_MS. -/
def Dev.wdogWrite (d : Dev) (ms : Nat) (kick : Bool) : Dev :=
  let restart := kick || decide (d.fget Reg.WDN_WDOG.TIMEOUT_MS ≠ ms % 65536)
  let d := d.fset Reg.WDN_WDOG.TIMEOUT_MS ms
  if restart then { d with warden := { d.warden with wdog := 0 } } else d

/-- The count reaches TIMEOUT_MS. -/
def Dev.wdogExpire (d : Dev) : Dev :=
  if d.fget Reg.WDN_WDOG.TIMEOUT_MS = 0 then d else d.warmReset Reg.CAMP_RST_CAUSE.WDOG

/-- One period of the reference. -/
def Dev.wdogTick (d : Dev) : Dev :=
  let ms := d.fget Reg.WDN_WDOG.TIMEOUT_MS
  if ms = 0 then d
  else if ms * wdogMs ≤ d.warden.wdog + 1 then d.wdogExpire
  else { d with warden := { d.warden with wdog := d.warden.wdog + 1 } }

/-! ### The power-fail sequence -/

/-- PFAIL_N falls: the filter starts (R457), also when a UNIT reaction's dump has ended. -/
def Dev.pfailFall (d : Dev) : Dev :=
  { d with camp := { d.camp with pfailN := false, pfail := if d.camp.pfail = .idle ∨ (d.camp.pfail = .done ∧ d.camp.unitDump = true) then .filtering else d.camp.pfail } }

/-- PFAIL_N rises before the filter passes: a glitch (R457). -/
def Dev.pfailGlitch (d : Dev) : Dev :=
  if d.camp.pfail ≠ .filtering then d
  else
    let d := { d with camp := { d.camp with pfailN := true, pfail := .idle } }
    (d.bumpSat Reg.CAMP_PFAIL_REC.GLITCHES).setErr 0 0 10

/-- MEDIA at the start of the sequence (R458): programs and erases are suspended, reads abandoned. -/
def Dev.mediaQuiesce (d : Dev) : Dev :=
  let d := d.suspendAll
  { d with media := { d.media with
      ops := d.media.ops.filter fun o => decide (o.2.opcode = 3 ∨ o.2.opcode = 4)
      reqs := [] } }

/-- The filter passes (R458); with MAP not enabled there is nothing to dump (R460). -/
def Dev.pfailPass (d : Dev) : Dev :=
  if d.camp.pfail ≠ .filtering then d
  else
    let d := d.startPfail
    let d := { d with camp := { d.camp with unitDump := false } }
    if d.on 0x14 then d.mediaQuiesce else { d with camp := { d.camp with pfail := .done } }

/-- DUMP_START (R288, R458): the last operation reports suspended or has ended. -/
def Dev.dumpBegins (d : Dev) : Dev :=
  if d.camp.pfail ≠ .quiesced then d else d.dumpStart.fset Reg.CAMP_PFAIL_REC.LAST_US 0xFFFFFFFF

/-- The dump directory's STATE changes, with its CRC (R290). -/
def Dev.dumpState (d : Dev) (st : Nat) : Dev :=
  let m := d.jnl.mram.write 0x2004 1 st
  let n := m.read 0x2005 1
  let crc := crc32c (m.bytes 0x2000 60 ++ m.bytes 0x2040 (128 * n))
  { d with jnl := { d.jnl with mram := m.write 0x203C 4 crc } }

/-- The unit is quiesced, PFAIL_N is high, and with AUTO_WARM a warm reset follows (R460). A UNIT reaction's dump waits for
a reset of another kind (R427). -/
def Dev.afterDump (d : Dev) : Dev :=
  if d.camp.pfail = .done ∧ d.camp.pfailN = true ∧ d.camp.unitDump = false ∧ d.fget Reg.CAMP_PFAIL_CFG.AUTO_WARM = 1 then
    d.warmReset Reg.CAMP_RST_CAUSE.PFAIL
  else d

/-- Is the NAND work a dump program? -/
def OpUse.isDump : OpUse → Bool
  | .dump _ _ => true
  | _ => false

/-- DUMP_END (R289, R290, R427, R458): the last dump program has passed. -/
def Dev.dumpEnds (d : Dev) : Dev :=
  if d.camp.pfail ≠ .dumping ∨ d.media.reqs.any (·.use.isDump) = true ∨ d.media.ops.any (·.2.use.isDump) = true then d
  else
    let us := (d.now - d.fget Reg.CAMP_PFAIL_NS.NS) / 1000
    let d := (d.dumpState 2).fset Reg.CAMP_PFAIL_REC.LAST_US us
    let d := d.fset Reg.STRIPE_DUMP.LAST_UNITS (d.stripe.dumpOwn + d.stripe.dumpMirror)
    let d := d.post 0 0 0x161 us
    let d := { d with belay := { d.belay with beating := false }, camp := { d.camp with pfail := .done } }
    let d := if d.camp.unitDump then d.safeBlocks dumpBlocks else d
    d.afterDump

/-- PFAIL_N is high again. -/
def Dev.pfailRise (d : Dev) : Dev :=
  if d.camp.pfail = .filtering then d.pfailGlitch
  else Dev.afterDump { d with camp := { d.camp with pfailN := true } }

/-! ### Power states and clocks (R446 to R456) -/

/-- POWER_STATE_REACHED (R452, R454): every domain has reached its target. -/
def Dev.psReached (d : Dev) : Dev :=
  if d.fget Reg.CAMP_PS.MOVING = 0 then d
  else
    let d := psDoms.foldl (fun d k => d.setDom k { d.dom k with state := d.target k, moving := false }) d
    let ps := d.fget Reg.CAMP_PS.REQ
    let d := (d.fset Reg.CAMP_PS.CUR ps).fset Reg.CAMP_PS.MOVING 0
    let woke := d.camp.psWake
    let d := { d with camp := { d.camp with psWake := false } }
    d.updatePlls.post 0 0 0x160 (ps + 256 * b2n woke)

/-- DOMAIN_STATE_REACHED (R446, R448, R450): the domain arrives at its target. `failed` says that its self-test on the exit
from D3 or D4 failed: it does not enter service. Entering D4 with an enabled block saves its state, and leaving restores
it, so the block's state is untouched. -/
def Dev.domReached (d : Dev) (k : Nat) (failed : Bool) : Dev :=
  let x := d.dom k
  let t := d.target k
  if !x.moving || decide (95 < k) then d
  else
    let deep := decide (3 ≤ x.state ∧ t < 3)
    if deep && failed then
      let p := (domInsts k).headD (0, 0)
      d.raiseFault 0x0B p.1 p.2 k
    else
      let saves := decide (t = 4) && d.domBusy k
      (d.setDom k { x with state := t, moving := false, saved := saves }).updatePlls

/-- A domain in D1 with work returns to D0, and after 256 idle cycles to D1 (R447). -/
def Dev.domWake (d : Dev) (k : Nat) : Dev :=
  let x := d.dom k
  if x.state = 1 ∧ k ≤ 95 then d.setDom k { x with state := 0, moving := false } else d

/-- The idle gate of a domain whose target is D1. -/
def Dev.domIdle (d : Dev) (k : Nat) : Dev :=
  let x := d.dom k
  if x.state = 0 ∧ d.target k = 1 ∧ k ≤ 95 then d.setDom k { x with state := 1 } else d

/-- A started PLL locks (R455). -/
def Dev.pllLock (d : Dev) (p : Nat) : Dev :=
  if p < 17 ∧ bitOf (d.fget Reg.CAMP_PLL.RUN) p = true then
    d.fset Reg.CAMP_PLL.LOCK (d.fget Reg.CAMP_PLL.LOCK ||| 2 ^ p)
  else d

/-- A clock is more than 1 % off, or a PLL loses lock (R456, R497): class CLOCK; a PLL also posts event 0x0162. `pll` is
none for REF or LF. -/
def Dev.clockFault (d : Dev) (pll : Option Nat) : Dev :=
  match pll with
  | some p =>
    let lock := d.fget Reg.CAMP_PLL.LOCK
    let d := if bitOf lock p then d.fset Reg.CAMP_PLL.LOCK (lock - 2 ^ p) else d
    (d.post 0 0 0x162 (p % 32)).raiseFault 0x0C 0 0 p
  | none => d.raiseFault 0x0C 0 0 31

end Sys2Proof.Machine
end

