-- ==== Sys2Proof/Machine/TrustOps.lean ====
section
/-! DEFINITION. SPOTTER's rows (R422 to R429), ANCHOR's boot (R430 to R434), its requests and fuse operations (R436 to
R443), and the SPDM responder (R444). -/

namespace Sys2Proof.Machine

/-! ### SPOTTER -/

/-- A row's class and block name a fault the device can have (R422; 01, "Blocks"). -/
def faultNamed (cls blk n : Nat) : Bool := decide (1 ≤ cls ∧ cls ≤ 0x0E ∧ n < instCount blk)

/-- ECC meets an error in a block's memories (R20, R57): a single-bit error is corrected and counted, an uncorrectable one is
marked; DMC counts the bursts. -/
def Dev.eccError (d : Dev) (blk n : Nat) (uncorr : Bool) : Dev :=
  if uncorr then
    let d := d.setErr blk n errEccUncorr
    if blk = 0x1A then d.bump Reg.DMC_ECC.UNCORR else d
  else
    let d := d.setErr blk n errEccCorr
    if blk = 0x1A then d.bump Reg.DMC_ECC.CORR else d

/-- A fault is detected (R423). Class 0 names no fault: under it the row carries an ECC error that SPOTTER is not told of, one
that is corrected, or with bit 0 of `detail` one in data, which the protection tag catches (R20; DESIGN CHOICE, log 83). While PFAIL_N is low a core supply outside its window is no fault (R422). -/
def Dev.faultDetect (d : Dev) (cls blk n detail : Nat) : Dev :=
  if cls = 0 ∧ n < instCount blk then d.eccError blk n (bitOf detail 0)
  else if faultNamed cls blk n && !(decide (cls = 0x0D) && !d.camp.pfailN) then
    let d := if cls = 2 then d.eccError blk n true else d
    d.raiseFault cls blk n (detail % 2 ^ 31)
  else d

/-- A self-test item of a slice has run (R428): a failed one raises SELFTEST against its block. -/
def Dev.selfTestSlice (d : Dev) (item blk n : Nat) (failed : Bool) : Dev :=
  if !d.on 3 || !failed || !faultNamed 0x0B blk n then d
  else
    let d := d.fset Reg.SPT_ST_STAT.LAST_FAIL item
    let d := if d.spotter.pass then { d with spotter := { d.spotter with passFail := item % 65536 } } else d
    d.raiseFault 0x0B blk n (item % 2 ^ 31)

/-- SPT_ST_CTRL.RUN (R429): a full pass starts at once; a pass that runs goes on. -/
def Dev.selfTestPass (d : Dev) : Dev :=
  let d := d.fset Reg.SPT_ST_CTRL.RUN 1
  if !d.on 3 || d.spotter.pass then d else { d with spotter := { d.spotter with pass := true, passFail := 0 } }

/-- A full pass ends after `ms` milliseconds. -/
def Dev.selfTestPassEnd (d : Dev) (ms : Nat) : Dev :=
  if !d.spotter.pass then d
  else
    let failing := d.spotter.passFail
    let d := { d with spotter := { d.spotter with pass := false, passFail := 0 } }
    let d := d.fset Reg.SPT_ST_CTRL.RUN 0
    let d := (d.bump Reg.SPT_ST_STAT.PASSES).fset Reg.SPT_ST_STAT.LAST_MS ms
    d.post 3 0 0x0141 failing

/-- SPT_INJECT.GO, with the BLOCK and CLASS of the same write. -/
def Dev.sptInject (d : Dev) (blk cls : Nat) : Dev :=
  let d := (d.fset Reg.SPT_INJECT.BLOCK blk).fset Reg.SPT_INJECT.CLASS cls
  let blk := blk % 256
  let cls := cls % 256
  if d.fget Reg.SPT_CFG.INJECT_EN = 0 ∨ faultNamed cls blk 0 = false then d.setErr 3 0 errAccess
  else d.raiseFault cls blk 0 (2 ^ 31)

/-! ### Fuses and owner keys (R439) -/

/-- The number of bits set in a word: the floor a thermometer field holds. -/
def popcount (w : Word) : Nat := ((List.range 64).filter fun i => w.getLsbD i).length

/-- A fuse word of the shadow. -/
def Dev.fuseW (d : Dev) (i : Nat) : Word := d.anchor.fuse.get i

/-- The bytes of fuse words `i` to `i + n − 1`. -/
def Dev.fuseBytes (d : Dev) (i n : Nat) : List Byte :=
  (List.range n).flatMap fun k => leBytes (d.fuseW (i + k)).toNat 8

/-- Owner slot `k`'s Ed448 public key: 57 bytes. -/
def Dev.ownerKey (d : Dev) (k : Nat) : List Byte := (d.fuseBytes (16 + 8 * k) 8).take 57

/-- Owner slot `k` is enabled and not revoked. -/
def Dev.ownerGood (d : Dev) (k : Nat) : Bool :=
  decide (k < 4) && (d.fuseW 9).getLsbD (16 + k) && !(d.fuseW 9).getLsbD (20 + k)

/-- The enabled, unrevoked slot whose key hash equals OWNER. -/
def Dev.ownerOf (d : Dev) (owner : List Byte) : Option Nat :=
  (List.range 4).find? fun k => d.ownerGood k && decide (Config.shake256 (d.ownerKey k) 32 = owner)


/-- The UDS, and the fuse measurement's bytes: the shadow with the UDS words zero (R434). -/
def Dev.uds (d : Dev) : List Byte := d.fuseBytes 0 8

def Dev.fuseImage (d : Dev) : List Byte := List.replicate 64 0 ++ d.fuseBytes 8 56

/-- SHAKE256 and SHA3-512 of the same bytes (R432, R444). -/
def measureOf (bs : List Byte) : Measure := { shake := Config.shake256 bs 64, sha3 := Config.sha3_512 bs }

/-- A measurement's SHAKE256 figure; zeros for an empty index. -/
def Dev.measured (d : Dev) (i : Nat) : List Byte :=
  match Tab.look d.anchor.meas i with
  | some m => m.shake
  | none => List.replicate 64 0

/-- Set or clear a measurement. -/
def Dev.setMeas (d : Dev) (i : Nat) (m : Option Measure) : Dev :=
  { d with anchor := { d.anchor with
      meas := match m with
        | some m => Tab.put d.anchor.meas i m
        | none => Tab.del d.anchor.meas i } }

/-! ### Derived keys (R434) -/

def Dev.devIdSeed (d : Dev) : List Byte := Config.shake256 (ascii "LX9624 DEVID" ++ d.uds) 57
def Dev.srk (d : Dev) : List Byte := Config.shake256 (ascii "LX9624 SRK" ++ d.uds) 32
def Dev.importKey (d : Dev) : List Byte := Config.shake256 (ascii "LX9624 IMPORT" ++ d.uds) 56
def Dev.attestSeed (d : Dev) : List Byte := Config.shake256 (ascii "LX9624 ATTEST" ++ d.anchor.cdi) 57
def Dev.meterSeed (d : Dev) : List Byte := Config.shake256 (ascii "LX9624 METER" ++ d.anchor.cdi) 57

/-- The X448 base point. -/
def x448Base : List Byte := (5 : Byte) :: List.replicate 55 0

/-- The import public key. -/
def Dev.importPub (d : Dev) : List Byte := Config.x448 d.importKey x448Base

/-- Load a Domain KEK: ANC_KEK shows its identity (R436). -/
def Dev.loadKek (d : Dev) (k : List Byte) : Dev :=
  let d := { d with anchor := { d.anchor with kek := some k } }
  (d.fset Reg.ANC_KEK.KEK_ID (leNat ((Config.shake256 k 7).take 7))).fset Reg.ANC_KEK.LOADED 1

/-! ### Boot (R430, R431, R433, R51) -/

/-- A slice of a byte string. -/
def slice (bs : List Byte) (a n : Nat) : List Byte := (bs.drop a).take n

/-- The little-endian number in the `n` bytes from `a`. -/
def leAt (bs : List Byte) (a n : Nat) : Nat := leNat (slice bs a n)

/-- Are the bytes from `a` to below `b` zero? -/
def zerosAt (bs : List Byte) (a b : Nat) : Bool := (slice bs a (b - a)).all (· = 0)

/-- The Warden image in a byte string that may go on beyond it: whole, and of the format of R431. -/
def wardenImage (bs : List Byte) : Option (List Byte) :=
  let ncode := leAt bs 0x10 4
  let len := 0x100 + 8 * ncode
  let ok := leAt bs 0 4 = 0x4E445257 ∧ leAt bs 4 2 = 1 ∧ leAt bs 6 2 = 0 ∧ leAt bs 0x0C 4 = 0 ∧ 1 ≤ ncode ∧
    ncode ≤ 131072 ∧ zerosAt bs 0x14 0x30 = true ∧ leAt bs 0x30 4 = len ∧ zerosAt bs 0x34 0x40 = true ∧
    zerosAt bs 0x60 0x100 = true ∧ len + 128 ≤ bs.length ∧ zerosAt bs (len + 114) (len + 128) = true
  if ok then some (bs.take (len + 128)) else none

/-- The code words of an image's code section. -/
def codeWords (code : List Byte) (n : Nat) : WTab :=
  (List.range n).foldl (fun t i => t.set i (BitVec.ofNat 64 (leAt code (8 * i) 8))) []

/-- Start a Warden core at instruction index 0 with its control registers at their reset values and its other state
unchanged (R112). -/
def Dev.coreStart (d : Dev) (n : Nat) : Dev :=
  let c := (Tab.look d.warden.cores n).getD {}
  let c' : Core := { cpu := { c.cpu with pc := 0 }, mbox := c.mbox }
  let d := { d with warden := { d.warden with cores := Tab.put d.warden.cores n c' } }
  d.fset Reg.WDN_CORE_CTRL.RUN (d.fget Reg.WDN_CORE_CTRL.RUN ||| 2 ^ n)

/-- Hardware puts a block in service at boot: its staged values become generation ACTIVE + 1 (R57, R58). -/
def Dev.hwEnable (d : Dev) (blk : Nat) : Dev :=
  d.modInst blk 0 fun i =>
    { i with enable := true, enabled := true, refused := false, active := (i.active + 1) % 65536, staged := (i.active + 2) % 65536 }

/-- A boot step fails (R51): no core is released, and ANCHOR.BLK_REFUSE records the reason. -/
def Dev.bootRefuse (d : Dev) (reason : Nat) : Dev :=
  d.modInst 1 0 fun i => { i with refReason := reason, refOff := 0, refused := true }

/-- Steps 4 to 10 of R430 on an image; the reason when one fails. -/
def Dev.bootImage (d : Dev) (bs : List Byte) : Except Nat Dev :=
  match wardenImage bs with
  | none => .error 0x0122
  | some im =>
    let len := leAt im 0x30 4
    match d.ownerOf (slice im 0x40 32) with
    | none => .error 0x0105
    | some k =>
      let svn := leAt im 8 4
      if svn < popcount (d.fuseW 10) then .error 0x0105
      else if !Config.ed448Verify (d.ownerKey k) (im.take len) (slice im len 114) then .error 0x0105
      else
        let ncode := leAt im 0x10 4
        let d := d.setMeas 3 (some (measureOf im))
        let d := { d with
          warden := { d.warden with ncode := ncode }
          mem := { d.mem with wcode := codeWords (slice im 0x100 (8 * ncode)) ncode } }
        let fuseM := d.measured 2
        let wardenM := d.measured 3
        let cdi := Config.shake256 (ascii "LX9624 CDI" ++ d.uds ++ fuseM ++ wardenM) 64
        let d := { d with anchor := { d.anchor with cdi := cdi } }
        let attest := Config.ed448Public d.attestSeed
        let meter := Config.ed448Public d.meterSeed
        let tcb := wardenM ++ leBytes svn 4 ++ fuseM
        let d := { d with anchor := { d.anchor with
          chain := Config.certChain true d.anchor.flashCert d.devIdSeed attest meter tcb
          spdmChain := Config.certChain false d.anchor.flashCert d.devIdSeed attest meter tcb
          wardenRan := true
          recovery := [] } }
        let d := ((d.fset Reg.ANC_BOOT.SVN svn).fset Reg.ANC_BOOT.OWNER k).fset Reg.ANC_BOOT.STAGE 3
        .ok ((d.hwEnable 2).coreStart 0)

/-- ANCHOR_BOOT (R430): steps 1 and 2 unless the fuses are sensed already (R52), then the image from boot flash, or with
BOOT_MODE = 1 the wait for a recovery image with the management lane up (R433). `senseBad` says that fuse sensing failed
its redundancy check. -/
def Dev.anchorBoot (d : Dev) (h : Hard) (flash : List Byte) (senseBad : Bool) : Dev :=
  if d.fget Reg.ANC_BOOT.STAGE ≠ 0 then d
  else
    let d := { d with anchor := { d.anchor with flashCert := flash.drop 0x00FF0000 } }
    let d := d.fset Reg.ANC_BOOT.BOOT_MODE (d.fget Reg.CAMP_STRAP.BOOT_MODE)
    let lane := decide (d.fget Reg.CAMP_STRAP.BOOT_MODE = 1)
    let stop (d : Dev) (r : Nat) : Dev :=
      let d := (d.bootRefuse r).fset Reg.ANC_BOOT.STAGE 4
      { d with mgmt := { d.mgmt with laneUp := d.mgmt.laneUp || lane } }
    let first := !d.anchor.sensed
    if first && senseBad then stop d 0x0120
    else
      let d := if first then
          let cells := (List.range 64).foldl (fun (t : WTab) i => t.set i (h.fuseA.get i ||| h.fuseB.get i)) []
          { d with anchor := { d.anchor with fuse := cells, sensed := true } }
        else d
      let d := d.fset Reg.ANC_BOOT.LIFECYCLE (field (d.fuseW 9) 10 8)
      if first && (d.fuseW 9).getLsbD 10 then stop d 0x0121
      else
        let d := d.hwEnable 1
        let d := (d.setMeas 1 (some (measureOf Config.bootRom))).setMeas 2 (some (measureOf d.fuseImage))
        if d.fget Reg.CAMP_STRAP.BOOT_MODE = 1 then
          let d := { d with mgmt := { d.mgmt with laneUp := true } }
          d.fset Reg.ANC_BOOT.STAGE 1
        else
          match d.bootImage flash with
          | .ok d => d
          | .error r => stop d r

/-- The recovery registers still serve (R433). -/
def Dev.recoveryOpen (d : Dev) : Bool :=
  d.fget Reg.CAMP_STRAP.BOOT_MODE = 1 && !d.anchor.wardenRan && d.fget Reg.ANC_BOOT.STAGE = 1

/-- A write of MGMT_RCV_DATA; bytes beyond the 2 MiB buffer are dropped (log 41). -/
def Dev.rcvData (d : Dev) (v : Word) : Dev :=
  if !d.recoveryOpen || decide (2097152 < d.anchor.recovery.length + 8) then d
  else { d with anchor := { d.anchor with recovery := d.anchor.recovery ++ leBytes v.toNat 8 } }

/-- A write of MGMT_RCV_CTRL.BOOT: a failure empties the buffer, and ANCHOR waits again. -/
def Dev.rcvBoot (d : Dev) : Dev :=
  if !d.recoveryOpen then d
  else
    match d.bootImage d.anchor.recovery with
    | .ok d => d
    | .error r => Dev.bootRefuse { d with anchor := { d.anchor with recovery := [] } } r

/-! ### Requests (R436 to R443) -/

/-- Bytes of the request record. -/
def Dev.ancIn (d : Dev) (r : AncReq) (at_ n : Nat) : List Byte := d.mem.dram.bytes (r.addr + at_) n

/-- Store bytes in the request record. -/
def Dev.ancOut (d : Dev) (r : AncReq) (at_ : Nat) (bs : List Byte) : Dev :=
  { d with mem := { d.mem with dram := d.mem.dram.setBytes (r.addr + at_) bs } }

/-- The request ends with this RESULT once ANCHOR_REQUEST_DONE arrives. -/
def Dev.ancEnds (d : Dev) (result : Nat) : Dev :=
  { d with anchor := { d.anchor with req := d.anchor.req.map fun (r : AncReq) => { r with result := some result } } }

/-- ANC_REQ_CTRL.GO with OP (ignored while BUSY, and in safe state): the request begins; a record that is not aligned or does
not lie in DRAM is a field out of range. -/
def Dev.ancStart (d : Dev) (op : Nat) : Dev :=
  let op := op % 256
  let d := d.fset Reg.ANC_REQ_CTRL.OP op
  if d.anchor.req.isSome || (d.inst 1 0).safe then d
  else
    let r : AncReq := { op := op, addr := d.fget Reg.ANC_REQ.ADDR }
    let d := { d with anchor := { d.anchor with req := some r } }
    let d := d.fset Reg.ANC_REQ_CTRL.BUSY 1
    if op < 1 ∨ 6 < op ∨ r.addr % 8 ≠ 0 ∨ d.fget Reg.DMC_CAP.MIB * 2 ^ 20 ≤ r.addr then d.ancEnds 2 else d

/-- Run `f` on the request that a write of GO has begun, or begins now, unless it already has its result. -/
def Dev.ancRun (d : Dev) (op : Nat) (f : AncReq → Dev → Dev) : Dev :=
  match d.anchor.req with
  | some r => if r.op = op ∧ r.result = none then f r d else d.ancStart op
  | none =>
    let d := d.ancStart op
    match d.anchor.req with
    | some r => if r.result.isSome then d else f r d
    | none => d

/-- The first 448 bytes of the report of R443. -/
def Dev.reportBody (d : Dev) (nonce : List Byte) : List Byte :=
  let w9 := d.fuseW 9
  leBytes 0x5454414C 4 ++ leBytes 1 2 ++ leBytes (d.fget Reg.CAMP_STRAP.UNIT_ID) 1 ++ leBytes (field w9 1 0) 1 ++
    leBytes (d.fuseW 8).toNat 8 ++ nonce ++ leBytes d.now 8 ++ leBytes 0x0C00 2 ++ leBytes (field w9 10 8) 1 ++
    leBytes (field w9 19 16 + 16 * field w9 23 20) 1 ++ leBytes (popcount (d.fuseW 10)) 1 ++
    leBytes (popcount (d.fuseW 11)) 1 ++ leBytes (d.inst 0x13 0).active 2 ++ d.measured 1 ++ d.measured 2 ++
    d.measured 3 ++ d.measured 4 ++ d.measured 5 ++ Config.ed448Public d.attestSeed ++ List.replicate 7 0

/-- OP 1: the attestation report (R443). -/
def Dev.attest (d : Dev) : Dev :=
  d.ancRun 1 fun r d =>
    let body := d.reportBody (d.ancIn r 0 32)
    let d := d.ancOut r 64 (body ++ Config.ed448Sign d.attestSeed body ++ List.replicate 14 0)
    (d.bump Reg.ANC_SIGNS.ATTEST).ancEnds 0

/-- OP 2: KEK import (R436). -/
def Dev.kekImport (d : Dev) : Dev :=
  d.ancRun 2 fun r d =>
    let e := d.ancIn r 0 56
    let key := Config.shake256 (ascii "LX9624 KEK" ++ Config.x448 d.importKey e ++ e ++ d.importPub) 32
    match Config.keyUnwrap key (d.ancIn r 56 40) with
    | none => d.ancEnds 5
    | some k => ((d.loadKek k).ancOut r 96 (Config.keyWrap d.srk k)).ancEnds 0

/-- OP 3: KEK unseal (R436). -/
def Dev.kekUnseal (d : Dev) : Dev :=
  d.ancRun 3 fun r d =>
    match Config.keyUnwrap d.srk (d.ancIn r 0 40) with
    | none => d.ancEnds 5
    | some k => (d.loadKek k).ancEnds 0

/-- OP 5: the certificate chain (R437). -/
def Dev.certExport (d : Dev) : Dev :=
  d.ancRun 5 fun r d => (d.ancOut r 0 (leBytes d.anchor.chain.length 4 ++ d.anchor.chain)).ancEnds 0

/-- OP 6: an SPDM signature (R438). -/
def Dev.spdmSign (d : Dev) : Dev :=
  d.ancRun 6 fun r d =>
    let d := d.ancOut r 64 (Config.ed448Sign d.attestSeed (Config.spdmPrefix ++ d.ancIn r 0 64))
    (d.bump Reg.ANC_SIGNS.ATTEST).ancEnds 0

/-! ### Fuse requests (R440, R441) -/

/-- The slot holds no key bit and was never enabled. -/
def Dev.slotEmpty (d : Dev) (k : Nat) : Bool :=
  (List.range 8).all (fun i => decide (d.fuseW (16 + 8 * k + i) = 0)) && !(d.fuseW 9).getLsbD (16 + k)

/-- The RESULT that refuses a fuse request, or none when its operation may be programmed. The order of the conditions is
the model's (log 41). -/
def Dev.fuseCheck (d : Dev) (r : AncReq) : Option Nat :=
  let at_ := fun i => (d.ancIn r i 1).headD 0 |>.toNat
  let op := at_ 0
  let slot := at_ 1
  let signer := at_ 80
  let signed := op = 1 ∨ op = 2 ∨ op = 5
  let zero := fun a n => (d.ancIn r a n).all (· = 0)
  if op < 1 ∨ 5 < op then some 2
  else if op = 3 ∨ op = 4 then (if (d.fuseW 9).getLsbD 10 then some 0x22 else none)
  else if 3 < slot ∨ 3 < signer ∨ zero 2 6 = false ∨ zero 73 7 = false ∨ zero 81 15 = false ∨ zero 210 14 = false then some 2
  else if signed ∧ d.ancIn r 8 8 ≠ leBytes (d.fuseW 8).toNat 8 then some 0x21
  else if op ≠ 5 ∧ (d.fuseW 9).getLsbD 10 then some 0x22
  else if d.ownerGood signer = false then some 0x20
  else if op = 1 ∧ d.slotEmpty slot = false then some 0x20
  else if op = 2 ∧ (slot = signer ∨ (List.range 4).all (fun k => !d.ownerGood k || k = slot) = true) then some 0x20
  else if !Config.ed448Verify (d.ownerKey signer) (d.ancIn r 0 96) (d.ancIn r 96 114) then some 5
  else none

/-- OP 4: a fuse request is checked; an accepted one waits for its fuse operation. -/
def Dev.fuseRequest (d : Dev) : Dev :=
  d.ancRun 4 fun r d =>
    match d.fuseCheck r with
    | some x => d.ancEnds x
    | none => { d with anchor := { d.anchor with req := some { r with accepted := some (d.ancIn r 0 224) } } }

/-- The accepted fuse operation that waits to be programmed: its OP and record. -/
def Dev.fusePending (d : Dev) : Option (Nat × List Byte) :=
  match d.anchor.req with
  | some r => if r.op = 4 ∧ r.result = none then r.accepted.map fun bs => (leAt bs 0 1, bs) else none
  | none => none

/-- The words an ENROLL burns before its ENABLED bit: the key of the slot (R441). -/
def enrollKey (bs : List Byte) : List (Nat × Word) :=
  let slot := leAt bs 1 1
  let key := slice bs 16 57 ++ List.replicate 7 0
  (List.range 8).map fun i => (16 + 8 * slot + i, BitVec.ofNat 64 (leAt key (8 * i) 8))

/-- A thermometer word raised to at least `n` bits, and never above it: its lowest clear bits are burnt (R440). -/
def raiseFloor (w : Word) (n : Nat) : Word :=
  (List.range 64).foldl (fun (w : Word) i => if popcount w < n then w ||| BitVec.ofNat 64 (2 ^ i) else w) w

/-- The fuse words an accepted operation leaves, beside those it leaves alone. -/
def Dev.fuseWrites (d : Dev) (op : Nat) (bs : List Byte) : List (Nat × Word) :=
  let slot := leAt bs 1 1
  let w9 := d.fuseW 9
  if op = 1 then enrollKey bs ++ [(9, w9 ||| BitVec.ofNat 64 (2 ^ (16 + slot)))]
  else if op = 2 then [(9, w9 ||| BitVec.ofNat 64 (2 ^ (20 + slot)))]
  else if op = 3 then [(10, raiseFloor (d.fuseW 10) (d.fget Reg.ANC_BOOT.SVN))]
  else if op = 4 then
    let svn := (d.pitch.images.find? fun i => i.gen = (d.inst 0x13 0).active).map (·.svn)
    [(11, raiseFloor (d.fuseW 11) (svn.getD 0))]
  else if op = 5 then (List.range 8).map (fun i => (i, (0 : Word))) ++ [(9, w9 ||| BitVec.ofNat 64 (2 ^ 10))]
  else []

/-- Burn a word of cells: a bit of a cell is only ever set, but for the UDS, which is zeroised (R440). -/
def burnWord (t : WTab) (i : Nat) (v : Word) : WTab := t.set i (if i < 8 then v else t.get i ||| v)

/-- Burn fuse words: both cells of each bit. -/
def burnCells (h : Hard) (ws : List (Nat × Word)) : Hard :=
  ws.foldl (fun h p => { h with fuseA := burnWord h.fuseA p.1 p.2, fuseB := burnWord h.fuseB p.1 p.2 }) h

/-- The same words in the shadow, in both of whose cells they now stand. -/
def Dev.burnShadow (d : Dev) (ws : List (Nat × Word)) : Dev :=
  let d := ws.foldl (fun (d : Dev) (p : Nat × Word) => { d with anchor := { d.anchor with fuse := d.anchor.fuse.set p.1 p.2 } }) d
  d.fset Reg.ANC_BOOT.LIFECYCLE (field (d.fuseW 9) 10 8)

/-- The words fuse operation `op` burns now; none when no such accepted operation waits. -/
def Dev.fuseBurn (d : Dev) (op : Nat) : List (Nat × Word) :=
  match d.fusePending with
  | some (o, bs) => if o = op then d.fuseWrites op bs else []
  | none => []

/-- ENROLL, REVOKE, RAISE_WDN, RAISE_PGM, DECOMMISSION: the accepted operation is programmed, with event 0x0151 when a fuse
was. -/
def Dev.fuseOp (d : Dev) (op : Nat) : Dev :=
  match d.fusePending with
  | some (o, bs) =>
    if o ≠ op then d
    else
      let ws := d.fuseWrites op bs
      let changed := ws.any fun p => decide (d.fuseW p.1 ≠ p.2)
      let d := (d.burnShadow ws).ancEnds 0
      if changed then d.post 1 0 0x0151 op else d
  | none => d

/-- What a power loss leaves burnt of the operation that waits (R441): `burnt` says whether the cells were reached; an
ENROLL then leaves its key without the ENABLED bit, a floor its new value. -/
def Dev.fuseCut (d : Dev) (burnt : Bool) : List (Nat × Word) :=
  if !burnt then []
  else
    match d.fusePending with
    | some (o, bs) => if o = 1 then enrollKey bs else d.fuseWrites o bs
    | none => []

/-- ANCHOR_REQUEST_DONE: BUSY clears, RESULT shows, and event 0x0150 is posted. A request whose result is not known yet
has not finished. -/
def Dev.ancDone (d : Dev) : Dev :=
  match d.anchor.req with
  | some r =>
    match r.result with
    | some x =>
      let d := { d with anchor := { d.anchor with req := none } }
      let d := (d.fset Reg.ANC_REQ_CTRL.BUSY 0).fset Reg.ANC_REQ_CTRL.RESULT x
      d.post 1 0 0x0150 (r.op + 256 * x)
    | none => d
  | none => d

/-! ### The SPDM responder (R444) -/

/-- Send a response while the Warden firmware runs; the exchange then stands at `stage`. -/
def Dev.spdm (d : Dev) (stage : Nat) (m : SpdmRsp) : Dev :=
  if !d.anchor.wardenRan || !d.on 2 then d
  else { d with anchor := { d.anchor with spdmStage := stage, spdmTx := some m } }

/-- Answer in the given stage of the exchange, or as an invalid request (log 42). -/
def Dev.spdmIn (d : Dev) (need : Nat) (f : Dev → Dev) : Dev :=
  if d.anchor.spdmStage < need then d.spdm d.anchor.spdmStage .invalid else f d

def Dev.getVersion (d : Dev) : Dev := d.spdm 1 (.version 1 2)

def Dev.getCapabilities (d : Dev) : Dev := d.spdmIn 1 fun d => d.spdm (max 2 d.anchor.spdmStage) (.capabilities true true true true)

/-- NEGOTIATE_ALGORITHMS: the requester's offer of Ed448, and of SHA3-512. -/
def Dev.negotiate (d : Dev) (ed448 sha3 : Bool) : Dev :=
  d.spdmIn 2 fun d => d.spdm (if ed448 && sha3 then 3 else 2) (.algorithms (ed448 && sha3))

def Dev.getDigests (d : Dev) : Dev := d.spdmIn 3 fun d => d.spdm 3 (.digests (Config.sha3_512 d.anchor.spdmChain))

/-- GET_CERTIFICATE: a portion of the chain of slot 0. -/
def Dev.getCertificate (d : Dev) (slot offset len : Nat) : Dev :=
  d.spdmIn 3 fun d =>
    let c := d.anchor.spdmChain
    if slot ≠ 0 ∨ c.length < offset then d.spdm 3 .invalid
    else
      let part := slice c offset len
      d.spdm 3 (.certificate part (c.length - offset - part.length))

/-- Measurement block `i` of R444. -/
def Dev.spdmBlock (d : Dev) (i : Nat) : SpdmBlock :=
  if i = 6 then .raw 6 (leBytes (field (d.fuseW 9) 1 0) 1 ++ leBytes 0x0C00 2)
  else
    match Tab.look d.anchor.meas i with
    | some m => .digest i m.sha3
    | none => .empty i

/-- The bytes of a measurement block's value. -/
def SpdmBlock.value : SpdmBlock → List Byte
  | .digest _ s => s
  | .empty _ => []
  | .raw _ b => b

/-- A signature with the attestation alias over the message hash that firmware supplies (R438). -/
def Dev.spdmSig (d : Dev) (hash : List Byte) : List Byte := Config.ed448Sign d.attestSeed (Config.spdmPrefix ++ hash)

/-- CHALLENGE: measurement summary type none (0) or all (255). -/
def Dev.challenge (d : Dev) (slot summary : Nat) (hash : List Byte) : Dev :=
  d.spdmIn 3 fun d =>
    if slot ≠ 0 ∨ (summary ≠ 0 ∧ summary ≠ 255) ∨ d.anchor.wardenRan = false ∨ d.on 2 = false then d.spdm 3 .invalid
    else
      let sum := if summary = 0 then []
        else Config.sha3_512 ((List.range 6).flatMap fun i => (d.spdmBlock (i + 1)).value)
      let d := d.spdm 3 (.challengeAuth (Config.sha3_512 d.anchor.spdmChain) sum (d.spdmSig hash))
      d.bump Reg.ANC_SIGNS.ATTEST

/-- GET_MEASUREMENTS: index 1 to 6 or 0xFF for all of them, signed or not. -/
def Dev.getMeasurements (d : Dev) (index : Nat) (hash : Option (List Byte)) : Dev :=
  d.spdmIn 3 fun d =>
    if (index < 1 ∨ 6 < index) ∧ index ≠ 255 then d.spdm 3 .invalid
    else
      let is := if index = 255 then (List.range 6).map (· + 1) else [index]
      let live := d.anchor.wardenRan && d.on 2
      let d := d.spdm 3 (.measurements (is.map d.spdmBlock) (hash.map d.spdmSig))
      if live && hash.isSome then d.bump Reg.ANC_SIGNS.ATTEST else d

def Dev.spdmUnsupported (d : Dev) : Dev := d.spdm d.anchor.spdmStage .unsupported

end Sys2Proof.Machine
end

