-- ==== Sys2Proof/Machine/View.lean ====
section
/-! DEFINITION. What a register shows when it is read, with no side effect (R8, R57, R480): the stored fields, the common
header, and the registers that show something through a selector or from elsewhere in the state. -/

namespace Sys2Proof.Machine

/-- The row that holds register `off` of an instance. -/
def rowAt (blk n off : Nat) : Option Row :=
  (rowsOf blk).find? fun r => decide (r.off ≤ off ∧ off < r.off + 8 * r.cnt) && (!r.only0 || decide (n = 0))

/-- Offsets of the common header (R57). -/
def inHeader (off : Nat) : Bool := decide (off ≤ 0x40 ∨ (0x100 ≤ off ∧ off < 0x200))

/-- A register exists at this offset of this instance (R54). -/
def mapped (blk n off : Nat) : Bool :=
  decide (n < instCount blk ∧ off % 8 = 0) && (inHeader off || (rowAt blk n off).isSome)

/-- The staged shadow of a register (R10). -/
def Dev.shadowReg (d : Dev) (blk n off : Nat) : Word := d.shadow.get (regAddr blk n off)

/-- Does the shadow of an instance differ from the values in effect (BLK_GEN.STAGED_VALID)? -/
def Dev.stagedValid (d : Dev) (blk n : Nat) : Bool :=
  ((rowsOf blk).any fun r =>
    let m := r.mask (· = .st)
    (!r.only0 || decide (n = 0)) && decide (m ≠ 0) && (List.range r.cnt).any fun i =>
      decide ((d.shadowReg blk n (r.off + 8 * i) ^^^ d.reg blk n (r.off + 8 * i)) &&& m ≠ 0))

/-- BLK_STATUS.BUSY: a check, a disable or a generation swap is in progress (R57). -/
def Inst.busy (i : Inst) : Bool := i.check.isSome || i.disabling || i.swap

/-- The registers of the common header (R57). -/
def Dev.headerView (d : Dev) (blk n off : Nat) : Word :=
  let i := d.inst blk n
  if off = 0x00 then BitVec.ofNat 64 (blk * 2 ^ 24 + n * 2 ^ 16 + 0x0C00)
  else if off = 0x08 then BitVec.ofNat 64 (b2n i.enable + 2 * b2n i.drain)
  else if off = 0x10 then
    BitVec.ofNat 64 (b2n i.enabled + 2 * b2n i.refused + 4 * b2n i.busy + 8 * b2n i.safe + 16 * b2n i.drained)
  else if off = 0x18 then BitVec.ofNat 64 (i.refReason + 65536 * i.refOff)
  else if off = 0x20 then i.err
  else if off = 0x28 then i.errMask
  else if off = 0x30 then BitVec.ofNat 64 i.pwrReq
  else if off = 0x38 then BitVec.ofNat 64 (d.pwrState blk n + 8 * b2n (d.pwrMoving blk n))
  else if off = 0x40 then
    BitVec.ofNat 64 (i.active + 65536 * i.staged + 2 ^ 32 * b2n (d.stagedValid blk n) +
      2 ^ 34 * min i.draining.length 2 + 2 ^ 36 * b2n i.swap)
  else if 0x100 ≤ off ∧ off < 0x200 then i.snap.getD ((off - 0x100) / 8) 0
  else 0

/-- CAMP_DOM for the domain CAMP_DOM_SEL names (R449). -/
def Dev.domView (d : Dev) : Word :=
  let k := d.fget Reg.CAMP_DOM_SEL.DOMAIN
  if 95 < k then 0
  else
    let x := d.dom k
    BitVec.ofNat 64 (x.req + 16 * d.target k + 256 * d.floorNow k + 2048 * b2n x.moving + 4096 * x.state)

/-- ANC_MEAS (R444). -/
def Dev.measView (d : Dev) : Word :=
  let i := d.fget Reg.ANC_MEAS_SEL.INDEX
  if i < 1 ∨ 5 < i then 0 else BitVec.ofNat 64 (leAt (d.measured i) (8 * d.fget Reg.ANC_MEAS_SEL.WORD) 8)

/-- The active image of PITCH. -/
def Dev.activeImage (d : Dev) : Option Image := d.pitch.images.find? fun i => i.gen = (d.inst 0x13 0).active

/-- PITCH_BIND_VIEW. -/
def Dev.bindView (d : Dev) : Word :=
  let t := d.fget Reg.PITCH_BIND_SEL.TYPE
  let act := d.activeImage.bind fun i => Tab.look i.binds t
  let stg := d.pitch.staged.bind fun i => Tab.look i.binds t
  let w := fun (b : Option Bind) => (b.map fun b => min b.worst 0xFFFF).getD 0
  BitVec.ofNat 64 ((act.map (·.entry)).getD 0 % 2 ^ 14 + 2 ^ 15 * b2n act.isSome + 2 ^ 32 * w act + 2 ^ 48 * w stg)

/-- The window counts of the port TLY_WIN_SEL names (R468). -/
def Dev.winDone (d : Dev) : PortWin := (Tab.look d.tally.done (d.fget Reg.TLY_WIN_SEL.PORT)).getD {}

/-- The threshold counter TLY_THR_SEL names (R467). -/
def Dev.thrSel (d : Dev) : Thr := (Tab.look d.tally.thr (d.fget Reg.TLY_THR_SEL.INDEX)).getD {}

/-- TALLY's registers that show a selected counter. -/
def Dev.tallyView (d : Dev) (off : Nat) : Option Word :=
  if off = 0x238 then some (d.tcntOf (d.fget Reg.TLY_TEN_SEL.TENANT) (d.fget Reg.TLY_TEN_SEL.INDEX))
  else if off = 0x248 then some (d.tally.pcnt.get (d.fget Reg.TLY_PGM_SEL.INDEX))
  else if off = 0x268 then some (BitVec.ofNat 64 d.winDone.rxb)
  else if off = 0x270 then some (BitVec.ofNat 64 d.winDone.txb)
  else if off = 0x278 then some (BitVec.ofNat 64 (d.winDone.rx % 2 ^ 32 + d.winDone.tx * 2 ^ 32))
  else if off = 0x280 then
    let p := (Tab.look d.tally.peak (d.fget Reg.TLY_WIN_SEL.PORT)).getD (0, 0)
    some (BitVec.ofNat 64 (p.1 % 2 ^ 32 + p.2 * 2 ^ 32))
  else if off = 0x298 then some d.thrSel.cfg
  else if off = 0x2A0 then some (BitVec.ofNat 64 d.thrSel.ticks)
  else none

/-- Registers of other blocks that the state shows in another form. -/
def Dev.specialView (d : Dev) (blk n off : Nat) : Option Word :=
  if blk = 0x00 then if off = 0x228 then some d.domView else none
  else if blk = 0x01 then
    if off = 0x210 then some d.measView
    else if off = 0x220 then
      let w := d.fget Reg.ANC_FUSE_SEL.WORD
      some (if w < 8 then 0 else d.fuseW w)
    else none
  else if blk = 0x05 then d.tallyView off
  else if blk = 0x09 then
    if off = 0x208 then some (BitVec.ofNat 64 d.now)
    else if off = 0x228 then some (setField (d.reg 9 0 0x228) 1 1 (b2n (d.fget Reg.TIM_SLEW.OFFSET ≠ 0)))
    else if 0x240 ≤ off ∧ off < 0x260 then
      some (match (Tab.look d.tim.txts ((off - 0x240) / 8)).getD [] with
        | s :: _ => BitVec.ofNat 64 (s.ns % 2 ^ 48 + s.tag * 2 ^ 48)
        | [] => 0)
    else none
  else if blk = 0x10 then
    if off = 0x240 then some (BitVec.ofNat 64 (b2n (d.meterVisible (d.fget Reg.HOSTQ_TEN_SEL.TENANT)))) else none
  else if blk = 0x13 then if off = 0x228 then some d.bindView else none
  else if blk = 0x14 then
    if off = 0x288 then
      some (BitVec.ofNat 64 (d.keyUnits (d.fget Reg.MAP_KEYGEN_SEL.SLOT) (d.fget Reg.MAP_KEYGEN_SEL.GEN)))
    else none
  else if blk = 0x15 then
    if off = 0x268 then some (setField (d.reg 0x15 0 0x268) 23 16 d.dumpReady) else none
  else if blk = 0x17 then
    if off = 0x240 ∧ d.isEnabled 0x17 n then
      some (setField (d.reg 0x17 n 0x240) 47 32 (min 65535 ((d.now - (d.link n).lastStatus) / 1000000)))
    else if off = 0x248 then
      let k := d.fget Reg.TTH_DIE.CHANNEL n * 16 + d.fget Reg.TTH_DIE.DIE n
      some (setField (d.reg 0x17 n 0x248) 15 8 ((Tab.look (d.link n).temps k).getD (if d.isEnabled 0x17 n then 0x80 else 0)))
    else none
  else if blk = 0x18 then if off = 0x228 then some d.slotStat else none
  else if blk = 0x1C then
    if off = 0x220 then
      let dir := if d.on 0x1C then d.fget Reg.MGMT_GPIO.DIR else 0
      let lv := (d.fget Reg.MGMT_GPIO.OUT &&& dir) ||| (d.mgmt.gpioPins &&& (dir ^^^ 0xFFFF))
      some (setField (d.reg 0x1C 0 0x220) 47 32 lv)
    else none
  else none

/-- What register `off` of an instance shows; WO fields and unmapped registers show zero (R8, R54, R480). -/
def Dev.view (d : Dev) (blk n off : Nat) : Word :=
  if !mapped blk n off then 0
  else if inHeader off then d.headerView blk n off
  else
    match rowAt blk n off with
    | none => 0
    | some r => (d.specialView blk n off).getD (d.reg blk n off) &&& ~~~(r.mask (· = .wo))

end Sys2Proof.Machine
end

