-- ==== Sys2Proof/Machine/TallyOps.lean ====
section
/-! DEFINITION. TALLY: its asks (R473), grade and capacity ticks (R464, R465), thresholds (R467), port windows (R468),
sampling counters (R469, R470), freeze (R471) and metering (R474 to R477); CAIRN's triggers and snapshot sets (R478 to
R482). -/

namespace Sys2Proof.Machine

/-! ### Instants -/

/-- Network time reaches an instant not behind it. -/
def Dev.jumpTo (d : Dev) (t : Nat) : Dev :=
  if d.now < t then { d with tim := { d.tim with ns := t, frac := 0 } } else d

/-- The next instant that is a multiple of `p`, the present one included, beyond the last one: a backward step of network
time repeats nothing already done (R301). -/
def nextAt (now p : Nat) (last : Option Nat) : Nat :=
  let t := (now + p - 1) / p * p
  match last with
  | some l => if l < t then t else (l / p + 1) * p
  | none => t

/-! ### Asks (R473) -/

/-- add -/
def Dev.tallyAdd (d : Dev) (id : Nat) : Dev :=
  d.serve id 1 1 fun a d =>
    let i := a.arg 0 % 2 ^ 32
    if 131071 < i then d.reply id 0x10
    else
      let v := d.tally.pcnt.get i + BitVec.ofNat 64 (a.arg 0 / 2 ^ 32)
      Dev.reply { d with tally := { d.tally with pcnt := d.tally.pcnt.set i v } } id 0

/-- read -/
def Dev.tallyRead (d : Dev) (id : Nat) : Dev :=
  d.serve id 1 2 fun a d =>
    let i := a.arg 0 % 2 ^ 32
    if 131071 < i then d.reply id 0x10 else d.reply id 0 0 [d.tally.pcnt.get i]

/-- log: the page of R159 goes into the staging unit of the TOKEN. -/
def Dev.tallyLog (d : Dev) (id : Nat) : Dev :=
  d.serve id 1 3 fun a d =>
    if d.meterVisible a.tenant then
      (d.land a.tenant a.nsh (a.arg 0) 0 ((d.tenantPage a.tenant).bytes 0 512) false).reply id 0
    else d.reply id 0x11

/-! ### Ticks of R464 -/

/-- The namespaces the unit counts (R465). -/
def Dev.countedNs (d : Dev) : List (Nat × Ns) :=
  d.hostq.nss.filter fun p => decide (d.groupOwner p.2.anagrp = d.fget Reg.CAMP_STRAP.UNIT_ID)

/-- CAPACITY_SECOND_TICK: the next whole second. -/
def Dev.secondTick (d : Dev) : Dev :=
  if !d.on 5 then d
  else
    let t := nextAt d.now 1000000000 d.tally.lastSec
    let d := d.jumpTo t
    let d := { d with tally := { d.tally with lastSec := some t } }
    d.countedNs.foldl (fun d p => d.tcount p.2.tenant 5 ((p.2.nsze + d.mapSpan - 1) / d.mapSpan)) d

/-- GRADE_MS_TICK: the next whole millisecond. -/
def Dev.msTick (d : Dev) : Dev :=
  if !d.on 5 then d
  else
    let t := nextAt d.now 1000000 d.tally.lastMs
    let d := d.jumpTo t
    let d := { d with tally := { d.tally with lastMs := some t } }
    d.countedNs.foldl (fun d p => d.tcount p.2.tenant (if p.2.cold then 10 else 5 + p.2.grade) 1) d

/-! ### Threshold counters (R467) -/

/-- SOURCE and PARAM name an occupancy. -/
def thrValid (w : Word) : Bool :=
  let src := field w 55 48
  let p := field w 47 40
  decide (1 ≤ src ∧ src ≤ 0x0C) && (decide (src ≠ 9) || decide (p ≤ 1)) && (decide (src ≠ 0x0A) || decide (p ≤ 23)) &&
    (decide (src ≠ 0x0C) || decide (p ≤ 15))

/-- Bytes in the egress queues of an ingress port number. -/
def Dev.egressBytes (d : Dev) (q : Nat) : Nat :=
  ((d.swt.egress.filter fun p => decide (p.1 / 4096 / 8 = q)).map fun p => ((p.2.frames.map d.frameLen).sum)).sum

/-- A source's occupancy. -/
def Dev.occupancy (d : Dev) (src p : Nat) : Nat :=
  if src = 1 then d.fget Reg.SWT_OCC.CELLS
  else if src = 2 then d.fget Reg.SWT_OCC.DRAM_MIB
  else if src = 3 then d.fget Reg.LEDGER_OCC.WAITING
  else if src = 4 then d.pitch.queue.length
  else if src = 5 then d.rope.locks.length
  else if src = 6 then d.fget Reg.MAP_STAGE.DIRTY
  else if src = 7 then d.fget Reg.JNL_OCC.BYTES
  else if src = 8 then d.xpt.t.res.length
  else if src = 9 then ((Tab.look d.trans.miss p).getD []).length
  else if src = 0x0A then d.fget Reg.TTH_OPS.OUTSTANDING p
  else if src = 0x0B then d.fget Reg.LEDGER_OCC.ENG_PCT_NOW
  else d.egressBytes p

/-- A write of TLY_THR_CFG for the selected counter. -/
def Dev.thrWrite (d : Dev) (w : Word) : Dev :=
  let i := d.fget Reg.TLY_THR_SEL.INDEX
  let w := w &&& (maskOf 63 62 ||| maskOf 55 40 ||| maskOf 31 0)
  let d := { d with tally := { d.tally with thr := Tab.modify d.tally.thr {} i fun t => { t with cfg := w } } }
  if thrValid w then d else d.setErr 5 0 errAccess

/-- One counter at one tick. -/
def Dev.thrTickAt (d : Dev) (i : Nat) : Dev :=
  match Tab.look d.tally.thr i with
  | none => d
  | some t =>
    if field t.cfg 63 63 = 0 ∨ thrValid t.cfg = false then d
    else
      let above := decide (field t.cfg 31 0 < d.occupancy (field t.cfg 55 48) (field t.cfg 47 40))
      let quiet := match t.lastEvent with
        | some e => decide (d.now < e + 1000000)
        | none => false
      let posts := above && !t.above && decide (field t.cfg 62 62 = 1) && !quiet
      let t' : Thr := { t with
        ticks := (t.ticks + b2n above) % 2 ^ 64
        above := above
        lastEvent := if posts then some d.now else t.lastEvent }
      let d := { d with tally := { d.tally with thr := Tab.put d.tally.thr i t' } }
      if posts then d.post 5 0 0x171 i else d

/-- THRESHOLD_TICK -/
def Dev.thrTick (d : Dev) : Dev :=
  if !d.on 5 || d.frozen then d else (List.range 64).foldl Dev.thrTickAt d

/-! ### Port windows, sampling and freeze (R468 to R471) -/

/-- PORT_WINDOW_END -/
def Dev.windowEnd (d : Dev) : Dev :=
  let p := d.fget Reg.TLY_WIN_CFG.MS * 1000000
  if !d.on 5 || decide (p = 0) then d
  else
    let t := nextAt d.now p d.tally.lastWin
    let d := d.jumpTo t
    let d := { d with tally := { d.tally with lastWin := some t } }
    if d.frozen then d
    else if d.tally.restart then { d with tally := { d.tally with restart := false, cur := [] } }
    else
      let peak := d.tally.cur.foldl (fun (acc : Tab (Nat × Nat)) (x : Nat × PortWin) =>
        let o := (Tab.look acc x.1).getD (0, 0)
        Tab.put acc x.1 (max o.1 (min (x.2.rxb / 1024) 0xFFFFFFFF), max o.2 (min (x.2.txb / 1024) 0xFFFFFFFF))) d.tally.peak
      let d := { d with tally := { d.tally with done := d.tally.cur, cur := [], peak := peak } }
      d.fset Reg.TLY_WIN_END.NS t

/-- The sources whose events have a tenant (R469). -/
def sourceNames (src : Nat) : Bool := [0x03, 0x04, 0x05, 0x06, 0x07, 0x08, 0x0D, 0x0E, 0x10].contains src

/-- SAMPLING_EVENT: an event of a source, with its tenant where the source has one. -/
def Dev.sampling (d : Dev) (src tenant : Nat) : Dev :=
  d.sample src (if sourceNames src then some (tenant % 4096) else none)

/-- SAMP_COUNT_WRITE (R470): a write of TLY_SAMP_CNT[i]; a 1 in OVF clears it and COUNT takes the value written. `event`
says that an event of the counter's source, of its tenant where it filters by one, arrives in the same cycle: it is added after
the write. -/
def Dev.sampWrite (d : Dev) (i : Nat) (w : Word) (event : Bool) : Dev :=
  if 15 < i then d
  else
    let d := if field w 32 32 = 1 then d.fset (Reg.TLY_SAMP_CNT.OVF.nth i) 0 else d
    let d := d.fset (Reg.TLY_SAMP_CNT.COUNT.nth i) (field w 31 0)
    let src := d.fget (Reg.TLY_SAMP_CFG.SOURCE.nth i)
    if event && d.on 5 && !d.frozen && decide (1 ≤ src ∧ src ≤ 0x13) then
      d.sampleAt src (if sourceNames src then some (d.fget (Reg.TLY_SAMP_CFG.TENANT.nth i)) else none) i
    else d

/-- Freeze or release the freezable counters; a release restarts the port windows at the next boundary. -/
def Dev.freeze (d : Dev) (v : Bool) : Dev :=
  let was := d.frozen
  let d := d.fset Reg.TLY_FREEZE.FROZEN (b2n v)
  if was && !v then { d with tally := { d.tally with restart := true, cur := [] } } else d

/-- TLY_FREEZE_WRITE -/
def Dev.freezeWrite (d : Dev) (frozen onTrig : Bool) : Dev := (d.freeze frozen).fset Reg.TLY_FREEZE.ON_TRIG (b2n onTrig)

/-! ### Metering (R474 to R477) -/

/-- Nanoseconds in a metering minute (R15). -/
def minuteNs : Nat := 60000000000

/-- The record of a tenant, when a delta is not zero (R476). -/
def meterRecord (new old : WTab) (t : Nat) : List Byte :=
  let ds := (List.range 15).map fun i => new.get (t * 16 + i) - old.get (t * 16 + i)
  if ds.all (· = 0) then []
  else leBytes t 2 ++ List.replicate 6 0 ++ ds.flatMap fun v => leBytes v.toNat 8

/-- Tenants with a counter, ascending. -/
def tenantsOf (t : WTab) : List Nat := (t.map fun p => p.1 / 16).dedup

/-- The bytes of a batch before its signature (R475). -/
def Dev.batchBytes (d : Dev) (start end_ seq : Nat) (span : Bool) : List Byte :=
  let recs := (tenantsOf d.tally.tcnt).flatMap (meterRecord d.tally.tcnt d.tally.latch)
  leBytes 0x5254454D 4 ++ leBytes 1 2 ++ leBytes (d.fget Reg.CAMP_STRAP.UNIT_ID) 1 ++
    leBytes (b2n (seq = 1) + 2 * b2n span) 1 ++ leBytes (d.fuseW 8).toNat 8 ++ leBytes seq 8 ++ leBytes start 8 ++
    leBytes end_ 8 ++ leBytes (recs.length / 128) 4 ++ leBytes (d.fget Reg.CAMP_RST_CAUSE.COUNT) 4 ++
    leBytes d.tally.enabledNs 8 ++ List.replicate 8 0 ++ recs

/-- Offset of the ring slot TALLY writes next. -/
def Dev.meterSlot (d : Dev) : Nat := d.fget Reg.TLY_METER_RING.ADDR * 4096 + 528384 * d.fget Reg.TLY_METER_IDX.HEAD

/-- METER_BOUNDARY: the next metering minute boundary. -/
def Dev.meterBoundary (d : Dev) : Dev :=
  if !d.on 5 || d.fget Reg.TLY_METER_CFG.EN = 0 || d.fget Reg.TIM_STATUS.MONO = 0 || d.tally.signing.isSome then d
  else
    let slots := d.fget Reg.TLY_METER_RING.SLOTS
    let t := nextAt d.now minuteNs d.tally.lastMin
    let d := d.jumpTo t
    let d := { d with tally := { d.tally with lastMin := some t } }
    match d.tally.base with
    | none => { d with tally := { d.tally with base := some t, latch := d.tally.tcnt } }
    | some start =>
      if slots = 0 ∨ (d.fget Reg.TLY_METER_IDX.HEAD + 1) % slots = d.fget Reg.TLY_METER_IDX.TAIL % slots then
        let d' := d.bump Reg.TLY_METER_GAPS.HELD
        if d.tally.held then d' else Dev.post { d' with tally := { d'.tally with held := true } } 5 0 0x173 t
      else
        let seq := d.tally.seq + 1
        let span := decide (start + minuteNs < t)
        let bs := d.batchBytes start t seq span
        let b : Batch := { bytes := bs, seq := seq, endNs := t, span := span }
        let d := { d with
          mem := { d.mem with dram := d.mem.dram.setBytes d.meterSlot bs }
          tally := { d.tally with signing := some b, seq := seq, base := some t, latch := d.tally.tcnt, held := false } }
        if span then d.bump Reg.TLY_METER_GAPS.SPANS else d

/-- METER_BATCH_SIGNED: ANCHOR's metering alias has signed the batch (R438, R475). -/
def Dev.meterSigned (d : Dev) : Dev :=
  match d.tally.signing with
  | none => d
  | some b =>
    let sig := Config.ed448Sign d.meterSeed b.bytes ++ List.replicate 14 0
    let slots := d.fget Reg.TLY_METER_RING.SLOTS
    let head := d.fget Reg.TLY_METER_IDX.HEAD
    let d := { d with
      mem := { d.mem with dram := d.mem.dram.setBytes (d.meterSlot + b.bytes.length) sig }
      tally := { d.tally with signing := none } }
    let d := d.fset Reg.TLY_METER_IDX.HEAD (if head + 1 < slots then head + 1 else 0)
    let d := (d.fset Reg.TLY_METER_SEQ.VALUE b.seq).fset Reg.TLY_METER_END.VALUE b.endNs
    (d.bump Reg.ANC_SIGNS.METER).post 5 0 0x170 b.seq

/-! ### CAIRN (R478 to R482) -/

/-- A schedule is in force, or none is. -/
def Dev.crnArm (d : Dev) (a : CrnArm) (result : Nat) : Dev :=
  let d := { d with cairn := { d.cairn with arm := a } }
  (d.fset Reg.CRN_CTRL.ARMED (b2n (a ≠ CrnArm.off))).fset Reg.CRN_CTRL.RESULT result

/-- CRN_CTRL.GO with MODE, while CAIRN is in service. -/
def Dev.crnGo (d : Dev) (mode : Nat) : Dev :=
  let mode := mode % 4
  let d := d.fset Reg.CRN_CTRL.MODE mode
  let base := d.fget Reg.CRN_BASE.NS
  let near := decide (base < d.now + 2000)
  if !d.on 4 then d
  else if mode = 0 then d.crnArm .off 0
  else if mode = 1 then if near then d.crnArm .off 0x21 else d.crnArm (.oneShot base) 0
  else
    let p := d.fget Reg.CRN_PERIOD.US * 1000
    if mode = 3 ∨ p < 100000 then d.fset Reg.CRN_CTRL.RESULT 2
    else
      let lo := d.now + 2000
      let first := lo + (base % p + p - lo % p) % p
      d.crnArm (.periodic first p near) (if near then 0x22 else 0)

/-- The next scheduled instant, and whether its set carries LATE. -/
def CrnArm.next : CrnArm → Option (Nat × Bool)
  | .off => none
  | .oneShot t => some (t, false)
  | .periodic t _ late => some (t, late)

/-- The schedule after its next instant. -/
def CrnArm.advance : CrnArm → CrnArm
  | .periodic t p late => .periodic (t + p) p late
  | _ => .off

/-- Bytes of a slot of the snapshot ring (R481). -/
def Dev.crnSlotBytes (d : Dev) : Nat := if d.fget Reg.CRN_CFG.TENANTS = 1 then 540672 else 16384

/-- What an instance latches (R479, R480): zeros unless its domains all are in D0 to D2. -/
def Dev.latchOf (d : Dev) (blk n ns seq : Nat) (late stepped : Bool) : List Word :=
  if (instDoms blk n).all fun k => decide ((d.dom k).state ≤ 2) then
    BitVec.ofNat 64 ns ::
      BitVec.ofNat 64 (seq % 2 ^ 32 + 2 ^ 32 + 2 ^ 33 * b2n late + 2 ^ 34 * b2n stepped + 2 ^ 48 * n + 2 ^ 56 * blk) ::
      (List.range 30).map fun k => d.view blk n (0x200 + 8 * k)
  else List.replicate 32 0

/-- A trigger at instant `ns` (R479 to R482). -/
def Dev.crnFire (d : Dev) (ns : Nat) (late stepped : Bool) : Dev :=
  let seq := (d.fget Reg.CRN_SEQ.SEQ + 1) % 2 ^ 32
  let d := (d.fset Reg.CRN_SEQ.SEQ seq).fset Reg.CRN_LAST.NS ns
  let d := if d.fget Reg.CRN_CFG.PIN_OUT = 1 then { d with cairn := { d.cairn with pinUntil := some (d.now + 1000) } } else d
  if d.cairn.collecting.isSome then
    let d := { d with cairn := { d.cairn with missed := d.cairn.missed + 1 } }
    (d.bump Reg.CRN_STAT.MISSED).post 4 0 0x1A1 1
  else
    let latched := allInsts.map fun p => (p, d.latchOf p.1 p.2 ns seq late stepped)
    let tcnt := d.tally.tcnt
    let d := latched.foldl (fun (d : Dev) (x : (Nat × Nat) × List Word) =>
      d.modInst x.1.1 x.1.2 fun i => { i with snap := x.2 }) d
    let d := if d.on 5 && d.fget Reg.TLY_FREEZE.ON_TRIG = 1 then d.freeze true else d
    let slots := d.fget Reg.CRN_RING.SLOTS
    if slots = 0 ∨ (d.fget Reg.CRN_RING_IDX.HEAD + 1) % slots = d.fget Reg.CRN_RING_IDX.TAIL % slots then
      (d.bump Reg.CRN_STAT.DROPPED).post 4 0 0x1A1 0
    else
      let s : CrnSet := { ns := ns, seq := seq, late := late, stepped := stepped
                          tenants := if d.fget Reg.CRN_CFG.TENANTS = 1 then some tcnt else none }
      { d with cairn := { d.cairn with collecting := some s } }

/-- CAIRN_TRIGGER: network time reaches the next scheduled instant. -/
def Dev.crnTrigger (d : Dev) : Dev :=
  match d.cairn.arm.next with
  | none => d
  | some (t, late) =>
    if !d.on 4 then d
    else
      let d := d.jumpTo t
      let a := d.cairn.arm.advance
      let d := (({ d with cairn := { d.cairn with arm := a } }).fset Reg.CRN_CTRL.ARMED (b2n (a ≠ CrnArm.off)))
      d.crnFire t late false

/-- The bytes of a snapshot set (R481). -/
def Dev.crnSetBytes (d : Dev) (s : CrnSet) : List Byte :=
  leBytes 0x4E524143 4 ++ leBytes 1 2 ++ leBytes (d.fget Reg.CAMP_STRAP.UNIT_ID) 1 ++
    leBytes (b2n s.tenants.isSome + 2 * b2n s.late + 4 * b2n s.stepped) 1 ++ leBytes s.ns 8 ++ leBytes s.seq 4 ++
    leBytes 55 4 ++ leBytes d.cairn.missed 4 ++ List.replicate 36 0 ++
    allInsts.flatMap (fun p => (padWords 32 (d.inst p.1 p.2).snap).flatMap fun w => leBytes w.toNat 8) ++
    (match s.tenants with
      | some t => (List.range 65536).flatMap fun i => leBytes (t.get i).toNat 8
      | none => [])

/-- SNAPSHOT_SET_WRITTEN: the set is collected into the ring. -/
def Dev.crnWritten (d : Dev) : Dev :=
  match d.cairn.collecting with
  | none => d
  | some s =>
    let head := d.fget Reg.CRN_RING_IDX.HEAD
    let a := d.fget Reg.CRN_RING.ADDR * 4096 + d.crnSlotBytes * head
    let d := { d with
      mem := { d.mem with dram := d.mem.dram.setBytes a (d.crnSetBytes s) }
      cairn := { d.cairn with collecting := none, missed := 0 } }
    let d := d.fset Reg.CRN_RING_IDX.HEAD (if head + 1 < d.fget Reg.CRN_RING.SLOTS then head + 1 else 0)
    d.post 4 0 0x1A0 s.seq

/-- A forward step of network time from `old` fires one trigger for every scheduled instant it jumped over (R301, R478). -/
def Dev.crnStepped (d : Dev) : Dev :=
  if !d.on 4 then d
  else
    let (times, rest) : List Nat × CrnArm := match d.cairn.arm with
      | .off => ([], .off)
      | .oneShot t => if t ≤ d.now then ([t], .off) else ([], .oneShot t)
      | .periodic t p late =>
        if t ≤ d.now ∧ p ≠ 0 then
          let k := (d.now - t) / p + 1
          ((List.range k).map fun i => t + i * p, .periodic (t + k * p) p late)
        else ([], d.cairn.arm)
    let late := (d.cairn.arm.next.map (·.2)).getD false
    let d := ({ d with cairn := { d.cairn with arm := rest } }).fset Reg.CRN_CTRL.ARMED (b2n (rest ≠ CrnArm.off))
    times.foldl (fun d t => d.crnFire t late true) d

end Sys2Proof.Machine
end

