-- ==== Sys2Proof/Machine/TimeOps.lean ====
section
/-! DEFINITION. TIME (R300 to R304), the passing of one reference period, and the I3C, JTAG and UART pins (R502, R505). -/

namespace Sys2Proof.Machine

/-! ### Network time -/

/-- What a forward step of network time does to the instants it jumped over (R301). -/
def Dev.afterStep (d : Dev) : Dev := d.crnStepped.gateListStart.mediaListStart

/-- A write of TIM_STEP (R301). -/
def Dev.timStep (d : Dev) (w : Word) : Dev :=
  if !d.on 9 then d
  else if d.fget Reg.TIM_STATUS.MONO = 1 then d.setErr 9 0 8
  else
    let old := d.now
    let t := (BitVec.ofNat 64 old + w).toNat
    let d := { d with tim := { d.tim with ns := t } }
    let d := d.post 9 0 0xA0 (field w 31 0)
    if old < t ∧ 0 ≤ w.toInt then d.afterStep else d

/-- A write of TIM_SLEW (R302); RATE_PPM is held between 1 and 100. -/
def Dev.timSlew (d : Dev) (w : Word) : Dev :=
  let d := d.fset Reg.TIM_SLEW.OFFSET (field w 63 32)
  let d := d.fset Reg.TIM_SLEW.RATE_PPM (min 100 (max 1 (field w 7 0)))
  { d with tim := { d.tim with slewFrac := 0 } }

/-- A write of TIM_FREQ: a magnitude above 102,400,000 is held at that value. -/
def Dev.timFreq (d : Dev) (w : Word) : Dev :=
  let v := signed 32 (field w 31 0)
  d.fset Reg.TIM_FREQ.ADJ (unsigned 32 (max (-102400000) (min 102400000 v)))

/-- PPS_OUT_EDGE: the next whole second of network time. -/
def Dev.ppsOut (d : Dev) : Dev :=
  if !d.on 9 || d.fget Reg.TIM_CTRL.PPS_OUT_EN = 0 then d
  else
    let t := nextAt d.now 1000000000 d.tim.lastPps
    let d := d.jumpTo t
    { d with tim := { d.tim with lastPps := some t, ppsUntil := some (t + 100000) } }

/-- PPS_IN_EDGE -/
def Dev.ppsIn (d : Dev) : Dev :=
  let d := { d with tim := { d.tim with ppsIn := true } }
  if d.on 9 && d.fget Reg.TIM_CTRL.PPS_IN_EN = 1 then d.fset Reg.TIM_PPS_IN.NS d.now else d

/-- One 25 MHz reference period in units of 2^−32 ns. -/
def periodUnits : Nat := 40 * 2 ^ 32

/-- Network time advances by one reference period (R300, R302): the period times 1 + ADJ / (1,024 × 10^9), and while
OFFSET is not zero RATE_PPM faster or slower (log 3). -/
def Dev.advance (d : Dev) : Dev :=
  if !d.on 9 then d
  else
    let adj := signed 32 (d.fget Reg.TIM_FREQ.ADJ)
    let base : Int := periodUnits + periodUnits * adj / 1024000000000
    let off := signed 32 (d.fget Reg.TIM_SLEW.OFFSET)
    let most := periodUnits * d.fget Reg.TIM_SLEW.RATE_PPM / 1000000
    let part : Nat := min most (off.natAbs * 2 ^ 32 - d.tim.slewFrac)
    let slew : Int := if off < 0 then -(part : Int) else (part : Int)
    let done := d.tim.slewFrac + part
    let left : Nat := off.natAbs - done / 2 ^ 32
    let off' : Int := if off < 0 then -(left : Int) else (left : Int)
    let units := (d.tim.ns * 2 ^ 32 + d.tim.frac + (base + slew).toNat)
    let d := { d with tim := { d.tim with
      ns := units / 2 ^ 32 % 2 ^ 64, frac := units % 2 ^ 32, slewFrac := done % 2 ^ 32 } }
    d.fset Reg.TIM_SLEW.OFFSET (unsigned 32 off')

/-- Outputs that fall when their time has passed. -/
def Dev.settlePins (d : Dev) : Dev :=
  let past := fun (o : Option Nat) => o.filter fun t => decide (d.now < t)
  { d with
    tim := { d.tim with ppsUntil := past d.tim.ppsUntil }
    cairn := { d.cairn with pinUntil := past d.cairn.pinUntil } }

/-- One period of the 25 MHz reference passes: the watchdog counts, network time advances, and frames that have left end
their transmission (log 3). -/
def Dev.tick (d : Dev) : Dev :=
  let d := d.wdogTick.advance
  let d := (List.range 16).foldl Dev.settleTx d
  d.settlePins

/-! ### The I3C target (R502) -/

/-- The static address. -/
def Dev.i3cStatic (d : Dev) : Nat := 0x1D + d.fget Reg.CAMP_STRAP.UNIT_ID

/-- The target answers with free bytes, where the spec gives none. -/
def Dev.i3cFree (d : Dev) (n : Nat) : Dev :=
  let (v, d) := d.takeFree
  { d with mgmt := { d.mgmt with i3cTx := leBytes v.toNat n } }

/-- I3C_CCC: the provisional ID's low 32 bits are those of SERIAL; its other bits and the other answers are free values. -/
def Dev.i3cCcc (d : Dev) (c : Ccc) : Dev :=
  if !d.on 0x1C || d.fget Reg.MGMT_CTRL.I3C_EN = 0 then d
  else
    match c with
    | .entdaa a => if d.mgmt.i3cDyn.isNone then { d with mgmt := { d.mgmt with i3cDyn := some (a % 128) } } else d
    | .setdasa s a => if s = d.i3cStatic then { d with mgmt := { d.mgmt with i3cDyn := some (a % 128) } } else d
    | .rstdaa => { d with mgmt := { d.mgmt with i3cDyn := none } }
    | .getpid =>
      let (v, d) := d.takeFree
      let pid := (leBytes v.toNat 2).reverse ++ (leBytes (field (d.fuseW 8) 31 0) 4).reverse
      { d with mgmt := { d.mgmt with i3cTx := pid } }
    | .getbcr => d.i3cFree 1
    | .getdcr => d.i3cFree 1
    | .getstatus => d.i3cFree 2

/-! ### JTAG (R505) -/

/-- Boundary cells: 11 inputs, 6 outputs of two cells and 24 two-way balls of three; the TAP's own balls have none. -/
def boundaryCells : Nat := 95

/-- A list of cells of the register's length. -/
def cellsOf (bs : List Bool) : List Bool := (bs ++ List.replicate boundaryCells false).take boundaryCells

/-- EXTEST: the cells capture the balls' levels, shift, and drive what was shifted in. -/
def Dev.jtagExtest (d : Dev) (levels shift : List Bool) : Dev :=
  { d with jtag := { d.jtag with ir := 0x00, tdo := cellsOf levels, cells := cellsOf shift, drives := true } }

/-- SAMPLE/PRELOAD: the same capture and load, with the balls left to the device. -/
def Dev.jtagSample (d : Dev) (levels shift : List Bool) : Dev :=
  { d with jtag := { d.jtag with ir := 0x01, tdo := cellsOf levels, cells := cellsOf shift, drives := false } }

/-- BYPASS: one bit of delay between TDI and TDO, which captures 0. -/
def Dev.jtagBypass (d : Dev) (shift : List Bool) : Dev :=
  { d with jtag := { d.jtag with
      ir := 0xFF, drives := false, tdo := (false :: shift).take shift.length, bypass := (false :: shift).getLastD false } }

end Sys2Proof.Machine
end

