-- ==== Sys2Proof/Machine/CerriBase.lean ====
section
/-! DEFINITION. The Cerri instruction word: its fields, its static rules, the cost of an instruction, and the operations
on operand values (R81 to R96, R109). -/

namespace Sys2Proof.Machine

/-- The fields of an instruction word (R81). -/
structure CWord where
  op : Nat
  guard : Nat
  dst : Nat
  sa : Nat
  sb : Nat
  form : Nat
  imm : Nat
  deriving DecidableEq, Repr

def cword (w : Word) : CWord :=
  { op := field w 63 56, guard := field w 55 52, dst := field w 51 46, sa := field w 45 40, sb := field w 39 34
    form := field w 33 32, imm := field w 31 0 }

/-- The immediate, sign-extended. -/
def CWord.simm (c : CWord) : Int := signed 32 c.imm

/-- How an instruction uses its destination field. -/
inductive DstUse where
  | unused
  | written
  | isRead
  | both
  deriving DecidableEq, Repr

/-- One row of the instruction tables: the forms it accepts, its use of the register fields, and its cost when that is
fixed (0 for the loads, stores and asks of R88 and R96). -/
structure CRow where
  forms : List Nat
  dst : DstUse
  a : Bool
  b : Bool
  slots : Nat
  deriving DecidableEq, Repr

/-- The row of a listed opcode (R86 to R89, R96, R109). -/
def cerriRow (op : Nat) : Option CRow :=
  match op with
  | 0x03 | 0x04 => some ⟨[0, 1, 2, 3], .written, true, true, 2⟩
  | 0x01 | 0x02 | 0x05 | 0x06 | 0x07 | 0x08 | 0x09 | 0x0A | 0x0B | 0x0C | 0x0D | 0x0E
  | 0x18 | 0x19 | 0x1A | 0x1B | 0x1C | 0x1D | 0x1E => some ⟨[0, 1, 2, 3], .written, true, true, 1⟩
  | 0x0F | 0x10 | 0x15 => some ⟨[0], .written, true, false, 1⟩
  | 0x11 => some ⟨[2], .written, true, false, 1⟩
  | 0x12 => some ⟨[2], .both, true, false, 1⟩
  | 0x14 => some ⟨[0], .written, true, true, 2⟩
  | 0x30 | 0x31 | 0x32 | 0x33 => some ⟨[1], .written, true, false, 0⟩
  | 0x34 | 0x35 | 0x36 | 0x37 => some ⟨[1], .isRead, true, false, 0⟩
  | 0x38 => some ⟨[1], .written, true, false, 1⟩
  | 0x39 => some ⟨[1], .written, false, false, 2⟩
  | 0x3A => some ⟨[0, 1], .written, true, true, 3⟩
  | 0x3B => some ⟨[0], .both, true, true, 3⟩
  | 0x40 | 0x41 => some ⟨[1], .unused, false, false, 1⟩
  | 0x42 | 0x47 | 0x64 | 0x65 | 0x66 => some ⟨[0], .unused, false, false, 1⟩
  | 0x43 => some ⟨[2], .unused, true, false, 2⟩
  | 0x44 => some ⟨[2], .unused, true, false, 1⟩
  | 0x45 => some ⟨[0, 2], .unused, true, false, 1⟩
  | 0x46 => some ⟨[2], .unused, false, false, 1⟩
  | 0x50 => some ⟨[2], .written, true, false, 0⟩
  | 0x51 | 0x52 => some ⟨[0], .written, true, false, 1⟩
  | 0x60 => some ⟨[2], .written, false, false, 1⟩
  | 0x61 => some ⟨[2], .unused, true, false, 1⟩
  | 0x62 => some ⟨[1], .written, true, false, 1⟩
  | 0x63 => some ⟨[1], .isRead, true, false, 1⟩
  | _ => none

/-- An opcode of the privileged range (R84, R107). -/
def privOp (op : Nat) : Bool := decide (0x60 ≤ op ∧ op ≤ 0x6F)

/-- A specifier that may be read, and one that may be written (R76). -/
def canRead (r : Nat) : Bool := decide (r ≤ 0x3A)
def canWrite (r : Nat) : Bool := decide (r ≤ 0x27)

/-- The length of an ask's argument block, in words. -/
def CWord.askWords (c : CWord) : Nat := bitsOf c.imm 15 8

/-- `bext` and `bins`: width and low bit. -/
def CWord.bitW (c : CWord) : Nat := bitsOf c.imm 13 8 + 1
def CWord.bitLo (c : CWord) : Nat := bitsOf c.imm 5 0

/-- The immediate fields are valid whatever the operands (R86, R89, R91, R95, R96, R97, R109, R111). `priv` says that the
instruction is on a Warden core, where a loop may be unbounded (R107). R96 gives an ask block 1 to 32 words and R97 a trap
for length zero alone; a length above 32 words traps ILLEGAL here too (DESIGN CHOICE, log 84). -/
def CWord.immOk (priv : Bool) (c : CWord) : Bool :=
  match c.op with
  | 0x11 | 0x12 => decide (bitsOf c.imm 31 14 = 0 ∧ bitsOf c.imm 7 6 = 0 ∧ c.bitLo + c.bitW ≤ 64)
  | 0x43 => decide (1 ≤ bitsOf c.imm 31 16 ∧ bitsOf c.imm 31 16 ≤ 4096 ∧ bitsOf c.imm 15 0 ≠ 0)
  | 0x44 => decide (bitsOf c.imm 15 0 ≠ 0) && (priv || decide (bitsOf c.imm 31 16 ≠ 0))
  | 0x46 => decide (bitsOf c.imm 31 16 = 0)
  | 0x50 => decide (1 ≤ bitsOf c.imm 31 24 ∧ bitsOf c.imm 31 24 ≤ 0x0D ∧ 1 ≤ c.askWords ∧ c.askWords ≤ 32 ∧ bitsOf c.imm 7 0 = 0)
  | 0x60 => decide (c.imm ≤ 0x0A)
  | 0x61 => decide (c.imm ∈ [0x00, 0x01, 0x04, 0x09, 0x0A])
  | _ => true

/-- Nothing in the word traps ILLEGAL whatever the operands (R82, R83, R104). An unlisted opcode of the privileged range traps
PRIV in a pitch thread (R84), a listed one ILLEGAL first where its fields are wrong (R105). -/
def CWord.legal (priv : Bool) (c : CWord) : Bool :=
  if c.guard = 8 then false
  else
    match cerriRow c.op with
    | none => !priv && privOp c.op
    | some r =>
      let useA := r.a && !(c.op == 0x45 && c.form == 2)
      let useB := r.b && c.form == 0
      r.forms.contains c.form && (c.form != 0 || c.imm == 0) &&
      (if useA then canRead c.sa else c.sa == 0) && (if useB then canRead c.sb else c.sb == 0) &&
      (match r.dst with
        | .unused => c.dst == 0
        | .written => canWrite c.dst
        | .isRead => canRead c.dst
        | .both => canWrite c.dst) &&
      c.immOk priv

/-- Operand b (R83), from the value of the register that source b names. -/
def CWord.operand (c : CWord) (rb : Word) : Word :=
  match c.form with
  | 0 => rb
  | 1 => BitVec.ofInt 64 c.simm
  | 2 => BitVec.ofNat 64 c.imm
  | _ => BitVec.ofNat 64 (c.imm * 2 ^ 32)

/-- The address of a load or store: a + sext(imm) (R88). -/
def CWord.address (c : CWord) (a : Word) : Nat := (a + BitVec.ofInt 64 c.simm).toNat

/-- Thread scratch and cluster shared memory (R77). -/
def inScratch (a : Nat) : Bool := decide (a < 0x4000)
def inShared (a : Nat) : Bool := decide (0x10000 ≤ a ∧ a < 0x50000)

/-- Cost of the memory at an address; an unmapped one costs 1 (log 46). -/
def memSlots (a : Nat) : Nat := if inShared a then 2 else 1

/-- The slots of an instruction whose guard holds, whether it completes or traps (R85, R96), for operand a. -/
def CWord.slots (c : CWord) (a : Word) : Nat :=
  if 0x30 ≤ c.op ∧ c.op ≤ 0x37 then memSlots (c.address a)
  else if c.op = 0x50 then 2 + (8 * c.askWords + 31) / 32
  else match cerriRow c.op with
    | some r => r.slots
    | none => 1

/-- Bytes that a load or store moves. -/
def CWord.size (c : CWord) : Nat := 8 / 2 ^ (c.op % 4)

/-! ### Operations on values (R86, R87) -/

def rotRight (a : Word) (n : Nat) : Word := a.rotateRight n

/-- Leading zeros: 64 less the position of the highest one bit. -/
def leadingZeros (a : Word) : Nat := (((List.range 64).reverse.map fun i => a.getLsbD i).takeWhile fun b => !b).length

def oneBits (a : Word) : Nat := ((List.range 64).filter fun i => a.getLsbD i).length

def reverseBytes (a : Word) : Word := BitVec.ofNat 64 (leNat (leBytes a.toNat 8).reverse)

/-- The CRC state after the eight bytes of b, without inversions. -/
def crcUpdate (a b : Word) : Word := BitVec.ofNat 64 ((leBytes b.toNat 8).foldl crc32cByte (a.toNat % 2 ^ 32))

def bitExtract (a : Word) (lo w : Nat) : Word := BitVec.ofNat 64 (bitsOf a.toNat (lo + w - 1) lo)

def bitInsert (d a : Word) (lo w : Nat) : Word := setField d (lo + w - 1) lo (bitsOf a.toNat (w - 1) 0)

/-- A relation's result. -/
def truth (b : Bool) : Word := if b then 1 else 0

/-- The maximum wait of an accelerator, in slots (R100). -/
def askWait (accel : Nat) : Nat := [0, 8, 20, 80, 120, 60, 40, 40, 40, 40, 40, 40, 240, 40].getD accel 0

/-! ### Loops and calls (R91 to R93) -/

/-- The exit index of R93's transfer rule: the loops that stay open when control reaches `t`, the loops of the current call
level given innermost first as (start, last); none where `t` is not admitted. -/
def leaveLoops (level : List (Nat × Nat)) (t : Nat) : Option Nat :=
  match level with
  | [] => some 0
  | (s, l) :: _ =>
    if s ≤ t ∧ t ≤ l then some 0
    else
      match ((level.zipIdx.filter fun p => p.1.2 + 1 = t).map (·.2)).getLast? with
      | some k => some (k + 1)
      | none => none

/-- A jump-table entry (R95): its displacement, when it is one. -/
def tableEntry (w : Word) : Option Int := if field w 63 32 = 0xFE000000 then some (signed 32 (field w 31 0)) else none

end Sys2Proof.Machine
end

