-- ==== Sys2Proof/Machine/Verify.lean ====
section
/-! DEFINITION. The loader's static verification of a pitch program and its worst-case count (R106, stages 3 and 4 of
R127). -/

namespace Sys2Proof.Machine

/-- A point of a path: the word reached, the open loops innermost first, the open calls (return index, function entered,
loop depth at the call) innermost first, and the tickets: the ask that wrote each register that holds an open ticket.
`lost` says that an open ticket is held by no register any more. -/
structure PathPt where
  pc : Nat
  loops : List (Nat × Nat) := []
  calls : List (Nat × Nat × Nat) := []
  tickets : Tab Nat := []
  lost : Bool := false
  deriving DecidableEq, Repr

/-- The loops of the current call level. -/
def PathPt.level (p : PathPt) : List (Nat × Nat) :=
  match p.calls with
  | [] => p.loops
  | (_, _, n) :: _ => p.loops.take (p.loops.length - n)

/-- A write to register `r`: an open ticket it held is lost. -/
def PathPt.write (p : PathPt) (r : Nat) : PathPt :=
  if r = 0 ∨ 0x1F < r then p
  else if (Tab.look p.tickets r).isSome then { p with tickets := Tab.del p.tickets r, lost := true }
  else p

/-- Where paths go after a word that does not transfer control: the back edge and the exit of each open loop that ends there,
innermost first (R92). -/
def afterWord (pc : Nat) : List (Nat × Nat) → List (Nat × List (Nat × Nat))
  | [] => [(pc + 1, [])]
  | (s, l) :: rest =>
    if l = pc then (s, (s, l) :: rest) :: afterWord pc rest else (afterWord pc rest).map fun q => (q.1, (s, l) :: q.2)

/-- The points that follow when word `p.pc` does not transfer control. -/
def PathPt.falls (p : PathPt) : List PathPt := (afterWord p.pc p.loops).map fun q => { p with pc := q.1, loops := q.2 }

/-- A `br` or `jt` to `t`: the point reached, when R89, R90 and R93 allow it. -/
def PathPt.goes (p : PathPt) (n : Nat) (t : Int) : Option PathPt :=
  if t ≤ p.pc ∨ (n : Int) ≤ t then none
  else (leaveLoops p.level t.toNat).map fun k => { p with pc := t.toNat, loops := p.loops.drop k }

/-- The targets of a `jt` at word `pc`, none where a table word is outside the image or is no entry, or a target lies in
the table (R95). -/
def jtTargets (code : List Word) (pc n off : Nat) : Option (List Int) :=
  (List.range (n + 1)).foldr (fun i acc =>
    match acc, (code[pc + off + i]?).bind tableEntry with
    | some ts, some e =>
      let t : Int := pc + e
      if ((pc + off : Nat) : Int) ≤ t ∧ t ≤ ((pc + off + n : Nat) : Int) then none else some (t :: ts)
    | _, _ => none) (some [])

/-- The points that follow `p` on some path, none where R90 to R95 or a refusal of R106 rejects word `p.pc`. `entry` is
the entry point of the program. -/
def PathPt.next (code : List Word) (entry : Nat) (p : PathPt) : Option (List PathPt) :=
  match code[p.pc]? with
  | none => none
  | some w =>
    let c := cword w
    let n := code.length
    if !c.legal false || privOp c.op then none
    else if c.op = 0x46 then some []
    else if c.op = 0x45 then if p.tickets = [] ∧ p.lost = false then some [] else none
    else if c.op = 0x40 then
      match p.goes n (p.pc + c.simm) with
      | none => none
      | some q => some (q :: (if c.guard = 0 then [] else p.falls))
    else if c.op = 0x43 then
      match jtTargets code p.pc (bitsOf c.imm 31 16) (bitsOf c.imm 15 0) with
      | none => none
      | some ts => ts.foldr (fun t acc =>
          match acc, p.goes n t with
          | some qs, some q => some (q :: qs)
          | _, _ => none) (some [])
    else if c.op = 0x44 then
      let last := p.pc + bitsOf c.imm 15 0
      if n ≤ last + 1 ∨ 4 ≤ p.loops.length then none
      else some ({ p with pc := last + 1 } :: ({ p with loops := (p.pc + 1, last) :: p.loops } : PathPt).falls)
    else if c.op = 0x41 then
      let t : Int := p.pc + c.simm
      if t < 0 ∨ (n : Int) ≤ t ∨ 8 ≤ p.calls.length ∨ t.toNat = entry ∨ (p.calls.any fun k => k.2.1 = t.toNat) then none
      else
        let q := p.write 31
        some [{ q with pc := t.toNat, calls := (p.pc + 1, t.toNat, p.loops.length) :: p.calls }]
    else if c.op = 0x42 then
      match p.calls with
      | [] => none
      | (r, _, _) :: rest => if p.level = [] then some [{ p with pc := r, calls := rest }] else none
    else if c.op = 0x50 then
      if c.dst = 0 then some p.falls
      else
        let q := p.write c.dst
        let q := if c.dst ≤ 0x1F then { q with tickets := Tab.put q.tickets c.dst p.pc } else { q with lost := true }
        some q.falls
    else if c.op = 0x51 then
      match Tab.look p.tickets c.sa with
      | none => none
      | some _ =>
        let q : PathPt := { p with tickets := Tab.del p.tickets c.sa }
        some (q.write c.dst).falls
    else
      match cerriRow c.op with
      | some r => some ((if r.dst = .written ∨ r.dst = .both then p.write c.dst else p).falls)
      | none => none

/-- Every point that some path reaches, or the word at which a path is refused. -/
def explore (code : List Word) (entry : Nat) : Nat → List PathPt → List PathPt → Except Nat (List PathPt)
  | 0, p :: _, _ => .error p.pc
  | _, [], seen => .ok seen
  | k + 1, p :: work, seen =>
    if p ∈ seen then explore code entry k work seen
    else
      match p.next code entry with
      | none => .error p.pc
      | some qs => explore code entry k (qs ++ work) (p :: seen)

/-- More points and longer paths than any image has. -/
def pathFuel : Nat := 2 ^ 64

/-- The slots of word `pc` in the count, an `await` at its one slot. A load or store based on g0 has a known address; of
another the spec does not say what the verifier can prove: the opaque constant answers it, and `unproved` is the cost
where it cannot. -/
def countSlots (code : List Word) (unproved : Nat) (pc : Nat) : Nat :=
  match code[pc]? with
  | none => 0
  | some w =>
    let c := cword w
    if 0x30 ≤ c.op ∧ c.op ≤ 0x37 ∧ c.sa ≠ 0 then
      match Config.provenKind code pc with
      | some k => if k then 2 else 1
      | none => unproved
    else c.slots 0

/-- The pair with the smallest first part, and the rest. -/
def takeLeast : List (Nat × PathPt) → Option ((Nat × PathPt) × List (Nat × PathPt))
  | [] => none
  | x :: xs =>
    match takeLeast xs with
    | none => some (x, [])
    | some (y, ys) => if x.1 ≤ y.1 then some (x, y :: ys) else some (y, x :: ys)

/-- The fewest slots on any path from the frontier to a point that `hit` names. -/
def fewest (code : List Word) (entry : Nat) (hit : PathPt → Bool) : Nat → List (Nat × PathPt) → List PathPt → Option Nat
  | 0, _, _ => none
  | k + 1, front, done =>
    match takeLeast front with
    | none => none
    | some ((n, p), rest) =>
      if hit p then some n
      else if p ∈ done then fewest code entry hit k rest done
      else
        let ns := ((p.next code entry).getD []).map fun q => (n + countSlots code 1 p.pc, q)
        fewest code entry hit k (rest ++ ns) (p :: done)

/-- What the `await` at word `pc` waits beyond its own slot: the greatest W − S over the asks whose ticket it may name. -/
def awaitSlots (code : List Word) (entry : Nat) (seen : List PathPt) (pc : Nat) : Nat :=
  let reg := match code[pc]? with
    | some w => (cword w).sa
    | none => 0
  let asks := ((seen.filter fun p => p.pc = pc).filterMap fun p => Tab.look p.tickets reg).dedup
  (asks.map fun x =>
    let w := match code[x]? with
      | some w => askWait (bitsOf (cword w).imm 31 24)
      | none => 0
    let starts := ((seen.filter fun p => p.pc = x).flatMap fun p => (p.next code entry).getD []).map fun q => (0, q)
    let s := (fewest code entry (fun p => decide (p.pc = pc ∧ Tab.look p.tickets reg = some x)) pathFuel starts []).getD 0
    w - s).foldl max 0

/-- The longer of two path ends, none where there is no such path. -/
def longer (a b : Option Nat) : Option Nat :=
  match a, b with
  | some x, some y => some (max x y)
  | some x, none => some x
  | none, b => b

def plus (n : Nat) (a : Option Nat) : Option Nat := a.map (n + ·)

/-- The longest count from word `pc` to a `ret` of the same call level, and to any other end: `done`, `fault`, or a word
beyond `stop`, the last word of the loop body counted. `wait` gives each await's wait. -/
def longest (code : List Word) (wait : Nat → Nat) : Nat → Nat → Option Nat → Option Nat × Option Nat
  | 0, _, _ => (none, some 0)
  | k + 1, pc, stop =>
    if (match stop with
        | some e => decide (e < pc)
        | none => false) then (none, some 0)
    else
      match code[pc]? with
      | none => (none, some 0)
      | some w =>
        let c := cword w
        let n := countSlots code 2 pc
        let go (t : Nat) : Option Nat × Option Nat :=
          let r := longest code wait k t stop
          (plus n r.1, plus n r.2)
        if c.op = 0x45 ∨ c.op = 0x46 then (none, some n)
        else if c.op = 0x42 then (some n, none)
        else if c.op = 0x40 then
          let a := go (pc + c.simm).toNat
          if c.guard = 0 then a
          else
            let b := go (pc + 1)
            (longer a.1 b.1, longer a.2 b.2)
        else if c.op = 0x43 then
          ((jtTargets code pc (bitsOf c.imm 31 16) (bitsOf c.imm 15 0)).getD []).foldl (fun (acc : Option Nat × Option Nat) t =>
            let a := go t.toNat
            (longer acc.1 a.1, longer acc.2 a.2)) (none, none)
        else if c.op = 0x44 then
          let last := pc + bitsOf c.imm 15 0
          let body := longest code wait k (pc + 1) (some last)
          let most := ((longer body.1 body.2).getD 0) * bitsOf c.imm 31 16
          let r := longest code wait k (last + 1) stop
          (plus (1 + most) r.1, plus (1 + most) r.2)
        else if c.op = 0x41 then
          let f := longest code wait k (pc + c.simm).toNat none
          let r := longest code wait k (pc + 1) stop
          match f.1 with
          | some m => (plus (n + m) r.1, longer (plus n f.2) (plus (n + m) r.2))
          | none => (none, plus n f.2)
        else if c.op = 0x51 then
          let r := longest code wait k (pc + 1) stop
          (plus (n + wait pc) r.1, plus (n + wait pc) r.2)
        else go (pc + 1)

/-- Deeper than any chain of words and calls that verification admits: nine call levels of 16,384 words. -/
def countFuel : Nat := 2 ^ 18

/-- The worst-case slot count of the program at `entry` (R106), over the points its paths reach. -/
def worstCase (code : List Word) (entry : Nat) (seen : List PathPt) : Nat :=
  (longest code (awaitSlots code entry seen) countFuel entry none).2.getD 0

/-- What stages 3 and 4 of a load find. -/
inductive LoadFinding where
  | sound
  /-- The word at which a rule is broken. -/
  | broken (word : Nat)
  /-- The bind record whose WORST differs from the loader's count. -/
  | worstDiffers (record : Nat)
  deriving DecidableEq, Repr

/-- Verify a program from its bind records' (ENTRY, WORST), in record order: every path first, then the counts. -/
def verify (code : List Word) (binds : List (Nat × Nat)) : LoadFinding :=
  let runs := binds.map fun b => explore code b.1 pathFuel [{ pc := b.1 }] []
  match runs.findSome? (fun r => match r with
      | .error w => some w
      | .ok _ => none) with
  | some w => .broken w
  | none =>
    match (binds.zip runs).findIdx? (fun p => match p.2 with
        | .ok seen => decide (worstCase code p.1.1 seen ≠ p.1.2)
        | .error _ => true) with
    | some i => .worstDiffers i
    | none => .sound

end Sys2Proof.Machine
end

