-- ==== Sys2Proof/Machine/PitchOps.lean ====
section
/-! DEFINITION. PITCH: events and their dispatch (R113 to R119), the end of runs (R131 to R133), MGMT_POST (R134), program
images, loads and activation (R122 to R130). -/

namespace Sys2Proof.Machine

/-! ### Threads -/

/-- A pitch thread, and its replacement. -/
def Dev.thread (d : Dev) (tid : Nat) : Thread := (Tab.look d.pitch.threads tid).getD {}
def Dev.setThread (d : Dev) (tid : Nat) (t : Thread) : Dev :=
  { d with pitch := { d.pitch with threads := Tab.put d.pitch.threads tid t } }

/-- The cluster of a thread: 16 threads each. -/
def clusterOf (tid : Nat) : Nat := tid / 16

/-- The clusters in service. -/
def Dev.clusters (d : Dev) : List Nat := (List.range 16).filter d.clusterOn

/-- The resident image of a generation; an event whose generation is gone takes the active one. -/
def Dev.imageOf (d : Dev) (gen : Nat) : Option Image :=
  (d.pitch.images.find? fun i => i.gen = gen).or d.activeImage

/-- An event's tenant, CMDREF and CONTEXT (R118). -/
def PEvent.tenant (e : PEvent) : Nat := field (e.words.getD 0 0) 43 32
def PEvent.nsh (e : PEvent) : Nat := field (e.words.getD 0 0) 61 48
def PEvent.context (e : PEvent) : Nat := field (e.words.getD 1 0) 18 0
def PEvent.cmdref (e : PEvent) : Nat := field (e.words.getD 1 0) 63 32
def PEvent.token (e : PEvent) : Nat := (e.words.getD 3 0).toNat

/-- The descriptor as a program sees it: the device's own mark in the context word is masked (R118, log 38). -/
def PEvent.shown (e : PEvent) : List Word :=
  match e.words with
  | a :: b :: rest => a :: setField b 31 18 0 :: rest
  | ws => ws

/-! ### The end of a run -/

/-- Detach the asks of a run that ends: their slots are free, and their answers will be discarded (R97). -/
def Dev.detachAsks (d : Dev) (who : Agent) (slots : Tab AskSlot) : Dev :=
  { d with asks := slots.foldl (fun (t : Tab Ask) (p : Nat × AskSlot) =>
      match Tab.look t p.2.ask with
      | some a => if a.owner = who then Tab.put t p.2.ask { a with detached := true } else t
      | none => t) d.asks }

/-- A MGMT_POST run has ended, or been discarded (R134). -/
def Dev.postRunEnds (d : Dev) (typ : Nat) : Dev :=
  if typ = evMgmtPost then { d with pitch := { d.pitch with postLeft := d.pitch.postLeft - 1 } } else d

/-- The thread falls idle. -/
def Dev.endRun (d : Dev) (tid : Nat) : Dev :=
  let t := d.thread tid
  match t.run with
  | none => d
  | some r =>
    let d := d.detachAsks (.pitch tid) t.cpu.slots
    let d := d.setThread tid { t with cpu := { t.cpu with slots := [], loops := [], rets := [] }, run := none }
    (d.engineFree (tagKey r.ev.context r.ev.cmdref) r.ev.typ).postRunEnds r.ev.typ

/-- `done`: PITCH has the result word (R89), and the run is counted (PITCH_RUNS, R469). -/
def Dev.runDone (d : Dev) (tid : Nat) (result : Word) : Dev :=
  let t := d.thread tid
  match t.run with
  | none => d
  | some r => (((d.setThread tid { t with result := result }).bump Reg.PITCH_RUNS.COUNT).sample 0x06 (some r.ev.tenant)).endRun tid

/-- The default action for an event of type `typ` (R133). -/
def Dev.defaultAction (d : Dev) (typ : Nat) (e : PEvent) : Dev :=
  if typ ∈ [evIoArrival, evAdminArrival, evMapReady, evLockGranted, evAdmitReady, evMediaDone, evCipherDone, evXferDone] then
    if e.cmdref = 0 then d else d.internalError (tagKey e.context e.cmdref)
  else if typ = evMaint then { d with pitch := { d.pitch with reposts := d.pitch.reposts ++ [e] } }
  else d

/-- Is a type bound in the image a generation runs? -/
def Dev.bindOf (d : Dev) (gen typ : Nat) : Option Bind := (d.imageOf gen).bind fun i => Tab.look i.binds typ

/-- The TRAP event of a trapped run (R133). -/
def trapEvent (r : Run) (last tval : Word) : PEvent :=
  let head := padWords 8 r.ev.words
  let w0 := setField (setField (head.getD 0 0) 15 0 evTrap) 31 16 128
  { typ := evTrap, words := padWords 16 (w0 :: (head.drop 1 ++ [last, tval])), gen := some r.gen
    orig := r.ev.words }

/-- A TRAP run traps itself: the default action is that of the trapped type, for the event that was trapped (R133). -/
def Dev.trapAgain (d : Dev) (e : PEvent) : Dev :=
  let typ := field (e.words.getD 8 0) 63 48
  d.defaultAction typ (if typ = evMaint then { e with typ := evMaint, words := e.orig, orig := [] } else e)

/-- A run traps (R132, R133): trap `code` with TVAL. -/
def Dev.pitchTrap (d : Dev) (tid code : Nat) (tval : Word) : Dev :=
  let t := d.thread tid
  match t.run with
  | none => d
  | some r =>
    let d := d.fset Reg.PITCH_LAST_TRAP.EVENT r.ev.typ
    let d := d.fset Reg.PITCH_LAST_TRAP.CODE code
    let d := d.fset Reg.PITCH_LAST_TRAP.TID tid
    let d := d.fset Reg.PITCH_LAST_TRAP.GEN r.gen
    let d := d.fset Reg.PITCH_LAST_TRAP.PC t.cpu.pc
    let d := d.fset Reg.PITCH_LAST_TVAL.TVAL tval.toNat
    let d := d.bump Reg.PITCH_TRAPS.ALL
    let d := if code = 0x0C then d.bump Reg.PITCH_TRAPS.BUDGET else d
    let d := d.post 0x13 0 0x0010 (r.ev.typ * 65536 + code * 256 + tid)
    let d := d.sample 0x07 (some r.ev.tenant)
    let d := d.endRun tid
    let last := d.reg 0x13 0 Reg.PITCH_LAST_TRAP.EVENT.off
    let d :=
      if r.ev.typ ≠ evTrap ∧ (d.bindOf r.gen evTrap).isSome then d.event (trapEvent r last tval)
      else if r.ev.typ = evTrap then d.trapAgain r.ev
      else d.defaultAction r.ev.typ r.ev
    if code = 0x0C ∨ code = 0x0D then
      let (v, d) := d.takeFree
      let d := if code = 0x0D then d.setErr 0x13 0 errEccUncorr else d
      d.raiseFault (if code = 0x0C then 0x06 else 0x07) 0x13 0 (v.toNat % 2 ^ 31)
    else d

/-! ### Dispatch (R113, R114, R131) -/

/-- An arrival waits for a swap that has paused admission (R130). -/
def Dev.arrivalHeld (d : Dev) (e : PEvent) : Bool :=
  d.pitch.pause.isSome && (decide (e.typ = evIoArrival) || decide (e.typ = evAdminArrival))

/-- Priority of an event (R113). -/
def Dev.priority (d : Dev) (e : PEvent) : Nat := d.fget (Reg.PITCH_BUDGET.PRIORITY.nth e.typ)

/-- The event a thread of cluster `c` takes: the earliest of the highest priority among those it may run. -/
def Dev.nextEvent (d : Dev) (c : Nat) : Option PEvent :=
  let may := d.pitch.queue.filter fun e =>
    !d.arrivalHeld e && (match e.cluster with
      | some k => decide (k = c)
      | none => true)
  let top := (may.map d.priority).foldl max 0
  may.find? fun e => d.priority e = top

/-- Take an event out of the queue; the oldest held event then enters. -/
def Dev.dequeue (d : Dev) (e : PEvent) : Dev := d.queueIs (d.pitch.queue.erase e)

/-- EVENT_DISPATCH to an idle thread of a cluster in service whose domain is in D0 or, waking it, in D1 (R447). An unbound type takes its default action (R120). -/
def Dev.dispatch (d : Dev) (tid : Nat) : Dev :=
  let t := d.thread tid
  if !d.on 0x13 || d.quiet || !d.clusterRuns (clusterOf tid) || t.run.isSome then d
  else
    match d.nextEvent (clusterOf tid) with
    | none => d
    | some e =>
      let d := (d.dequeue e).domWake (24 + clusterOf tid)
      let active := (d.inst 0x13 0).active
      let arrival := decide (e.typ = evIoArrival ∨ e.typ = evAdminArrival)
      let gen := if arrival then active else e.gen.getD active
      let d := if arrival then d.tagRuns e.context e.cmdref active else d
      match d.bindOf gen e.typ with
      | none => ((d.bump Reg.PITCH_DROPS.UNBOUND).defaultAction e.typ e).postRunEnds e.typ
      | some b =>
        let r : Run := { ev := e, gen := gen, budget := d.fget (Reg.PITCH_BUDGET.SLOTS.nth e.typ) }
        d.setThread tid { t with cpu := { pc := b.entry, serial := t.cpu.serial }, run := some r }

/-- EVENT_POST: a block posts an ASYNC event for the host (R117). -/
def Dev.eventPost (d : Dev) (tenant nsh token : Nat) (rest : List Nat) : Dev :=
  if !d.on 0x13 then d else d.async tenant nsh token rest

/-- MAINT_REPOST: the oldest work item that came back is posted again. -/
def Dev.maintRepost (d : Dev) : Dev :=
  match d.pitch.reposts with
  | [] => d
  | e :: es => Dev.event { d with pitch := { d.pitch with reposts := es } } { e with gen := none }

/-! ### MGMT_POST (R134) -/

/-- PITCH_POST_CTRL.GO with the LEN of the same write, a wake source (R453). The descriptor is posted as it lies in DRAM, its header with it, and
a GO while PITCH is not enabled is ignored: R134 says neither (DESIGN CHOICE, log 87). -/
def Dev.mgmtPost (d : Dev) (len : Nat) : Dev :=
  let d := d.fset Reg.PITCH_POST_CTRL.LEN len
  let len := len % 2048
  let addr := d.fget Reg.PITCH_POST.ADDR
  if d.fget Reg.PITCH_POST_CTRL.BUSY = 1 ∨ d.on 0x13 = false then d
  else if len < 32 ∨ 1024 < len ∨ len % 8 ≠ 0 ∨ addr % 8 ≠ 0 then d.setErr 0x13 0 errAccess
  else
    let ws := (List.range (len / 8)).map fun i => BitVec.ofNat 64 (d.mem.dram.read (addr + 8 * i) 8)
    let d := (d.wake.fset Reg.PITCH_POST_CTRL.BUSY 1).fset Reg.PITCH_POST_CTRL.DONE 0
    let d := { d with pitch := { d.pitch with postLeft := d.clusters.length } }
    d.clusters.foldl (fun d c => d.event { typ := evMgmtPost, words := ws, cluster := some c }) d

/-- MGMT_POST_DONE: every run of the post has ended. -/
def Dev.mgmtPostDone (d : Dev) : Dev :=
  if d.fget Reg.PITCH_POST_CTRL.BUSY = 0 ∨ d.pitch.postLeft ≠ 0 then d
  else ((d.fset Reg.PITCH_POST_CTRL.BUSY 0).fset Reg.PITCH_POST_CTRL.DONE 1).post 0x13 0 0x0012 0

/-! ### Images (R123 to R127) -/

/-- The event types an image may bind (R117, R124). -/
def bindable (t : Nat) : Bool := decide ((1 ≤ t ∧ t ≤ 0x0C) ∨ t = 0x0F)

/-- Do two of the stretches (start, length) overlap? -/
def stretchesOverlap : List (Nat × Nat) → Bool
  | [] => false
  | p :: ps => (ps.any fun q => decide (p.1 < q.1 + q.2 ∧ q.1 < p.1 + p.2)) || stretchesOverlap ps

/-- The init records from byte `a`: none when one is malformed. -/
def readInits (im : List Byte) : Nat → Nat → Option (List InitRec × Nat)
  | 0, a => some ([], a)
  | n + 1, a =>
    let off := leAt im a 4
    let len := leAt im (a + 4) 4
    if off % 8 ≠ 0 ∨ len < 8 ∨ 262144 < len ∨ len % 8 ≠ 0 ∨ 262144 < off + len ∨ im.length < a + 8 + len then none
    else
      match readInits im n (a + 8 + len) with
      | none => none
      | some (rs, e) => some ({ offset := off, data := slice im (a + 8) len } :: rs, e)

/-- A bind record: none when it is malformed. -/
def readBind (im : List Byte) (ncode a : Nat) : Option (Nat × Bind) :=
  let t := leAt im a 2
  let e := leAt im (a + 4) 4
  if bindable t ∧ zerosAt im (a + 2) (a + 4) = true ∧ zerosAt im (a + 12) (a + 16) = true ∧ e < ncode then
    some (t, { entry := e, worst := leAt im (a + 8) 4 })
  else none

/-- A DMA region record: none when it is malformed. -/
def readDma (im : List Byte) (a : Nat) : Option DmaRegion :=
  let base := leAt im a 8
  let len := leAt im (a + 8) 4
  let acc := leAt im (a + 12) 1
  if base % 4096 = 0 ∧ 4096 ≤ len ∧ len ≤ 2 ^ 30 ∧ len % 4096 = 0 ∧ 1 ≤ acc ∧ acc ≤ 3 ∧ zerosAt im (a + 13) (a + 16) = true then
    some { base := base, length := len, canRead := decide (acc % 2 = 1), canWrite := decide (2 ≤ acc) }
  else none

/-- Stage 1 of R127 on a program image: its parts, or the reason. A section may not begin inside the header of 0x100 bytes,
and sections may overlap one another: R123 says neither (DESIGN CHOICE, log 88). -/
def readImage (im : List Byte) : Except Nat Image :=
  let ncode := leAt im 0x10 4
  let nbind := leAt im 0x14 4
  let ninit := leAt im 0x18 4
  let ndma := leAt im 0x1C 4
  let oc := leAt im 0x20 4
  let ob := leAt im 0x24 4
  let oi := leAt im 0x28 4
  let od := leAt im 0x2C 4
  let sig := leAt im 0x30 4
  let headOk := leAt im 0 4 = 0x4950584C ∧ leAt im 4 2 = 1 ∧ leAt im 6 2 = 0 ∧ zerosAt im 0x0C 0x10 = true ∧ 1 ≤ ncode ∧
    ncode ≤ 16384 ∧ 2 ≤ nbind ∧ nbind ≤ 31 ∧ ninit ≤ 1024 ∧ ndma ≤ 64 ∧ sig + 128 = im.length ∧ zerosAt im 0x34 0x40 = true ∧
    zerosAt im 0x60 0x100 = true ∧ oc % 8 = 0 ∧ ob % 8 = 0 ∧ oi % 8 = 0 ∧ od % 8 = 0 ∧ 0x100 ≤ oc ∧ oc + 8 * ncode ≤ sig ∧
    0x100 ≤ ob ∧ ob + 16 * nbind ≤ sig ∧ (ninit = 0 ∨ 0x100 ≤ oi) ∧ (ndma = 0 ∨ (0x100 ≤ od ∧ od + 16 * ndma ≤ sig)) ∧
    zerosAt im (sig + 114) (sig + 128) = true
  if !headOk then .error 0x1324
  else
    let binds := (List.range nbind).map fun i => readBind im ncode (ob + 16 * i)
    let dmas := (List.range ndma).map fun i => readDma im (od + 16 * i)
    let types := binds.filterMap fun b => b.map (·.1)
    match readInits im ninit oi with
    | none => .error 0x1324
    | some (inits, e) =>
      if binds.any (·.isNone) || dmas.any (·.isNone) || decide (types.dedup.length ≠ nbind) || decide (ninit ≠ 0 ∧ sig < e) ||
          stretchesOverlap (inits.map fun r => (r.offset, r.data.length)) then .error 0x1324
      else if !(types.contains evIoArrival && types.contains evAdminArrival) then .error 0x1323
      else
        .ok { bank := 0, gen := 0, ncode := ncode, svn := leAt im 8 4, inits := inits, dma := dmas.filterMap id
              binds := (binds.filterMap id).foldl (fun (t : Tab Bind) (b : Nat × Bind) => Tab.put t b.1 b.2) [] }

/-- Stage 2 of R127: the owner is enrolled, the signature verifies, and SVN is not below the floor (R442). -/
def Dev.imageAuthentic (d : Dev) (im : List Byte) : Bool :=
  let sig := leAt im 0x30 4
  match d.ownerOf (slice im 0x40 32) with
  | none => false
  | some k => Config.ed448Verify (d.ownerKey k) (im.take sig) (slice im sig 114) && decide (popcount (d.fuseW 11) ≤ leAt im 8 4)

/-- The DRAM window for DMA regions (PITCH_DMA_WIN), in bytes. -/
def Dev.dmaInWindow (d : Dev) (r : DmaRegion) : Bool :=
  decide (d.fget Reg.PITCH_DMA_WIN.BASE_MIB * 2 ^ 20 ≤ r.base ∧ r.base + r.length ≤ d.fget Reg.PITCH_DMA_WIN.LIMIT_MIB * 2 ^ 20)

/-- The lowest bank that no resident image uses (R25). -/
def Dev.freeBank (d : Dev) : Option Nat := (List.range 4).find? fun b => d.pitch.images.all fun i => i.bank ≠ b

/-- Stages 3 and 4 of R127 on an image whose format is right. -/
def verifyImage (im : List Byte) (ncode : Nat) : LoadFinding :=
  let oc := leAt im 0x20 4
  let ob := leAt im 0x24 4
  verify ((List.range ncode).map fun i => BitVec.ofNat 64 (leAt im (oc + 8 * i) 8))
    ((List.range (leAt im 0x14 4)).map fun i => (leAt im (ob + 16 * i + 4) 4, leAt im (ob + 16 * i + 8) 4))

/-- The stages of a load, in order (R127): the image to be placed, or the reason and FAIL_AT. -/
def Dev.loadStages (d : Dev) (im : List Byte) : Except (Nat × Nat) Image :=
  match readImage im with
  | .error r => .error (r, 0)
  | .ok i =>
    if !d.imageAuthentic im then .error (0x1305, 0)
    else
      match verifyImage im i.ncode with
      | .broken w => .error (0x1322, w)
      | .worstDiffers r => .error (0x1321, r)
      | .sound =>
        match i.dma.findIdx? (fun r => !d.dmaInWindow r) with
        | some k => .error (0x1325, k)
        | none =>
          if stretchesOverlap (i.dma.map fun r => (r.base, r.length)) then .error (0x1325, 0)
          else
            match d.freeBank with
            | none => .error (0x1307, 0)
            | some b => .ok { i with bank := b }

/-- Copy the code of an image into bank `b` of every cluster in service. -/
def Dev.copyCode (d : Dev) (im : List Byte) (b ncode : Nat) : Dev :=
  let code := slice im (leAt im 0x20 4) (8 * ncode)
  let pc := d.clusters.foldl (fun (t : WTab) c =>
    (List.range 16384).foldl (fun (t : WTab) i =>
      t.set (16384 * (4 * c + b) + i) (if i < ncode then BitVec.ofNat 64 (leAt code (8 * i) 8) else 0)) t) d.mem.pcode
  { d with mem := { d.mem with pcode := pc } }

/-- The bytes PITCH_IMG_BASE and PITCH_IMG_LEN name. -/
def Dev.loadBytes (d : Dev) : List Byte := d.mem.dram.bytes (d.fget Reg.PITCH_IMG_BASE.ADDR) (d.fget Reg.PITCH_IMG_LEN.BYTES)

/-- Begin a load of the image `im`, or fail at once with a reason; PITCH_LOAD_DONE reports what the stages found. -/
def Dev.beginLoad (d : Dev) (early : Option Nat) (im : List Byte) : Dev :=
  let res : Except (Nat × Nat) Image := match early with
    | some r => .error (r, 0)
    | none => d.loadStages im
  let d := (d.wake.fset Reg.PITCH_LOAD.STATE 1).setMeas 5 none
  let d := { d with pitch := { d.pitch with staged := none } }
  match res with
  | .error (r, a) => { d with pitch := { d.pitch with loading := some (none, r, a) } }
  | .ok i =>
    let d := (d.copyCode im i.bank i.ncode).setMeas 5 (some (measureOf im))
    { d with pitch := { d.pitch with loading := some (some i, 0, 0) } }

/-- The last PITCH_LOAD.STATE that the load in progress shows before it ends: a failure of format or authentication stops it
in state 1, one of the later checks in state 2. -/
def Dev.loadReach (d : Dev) : Nat :=
  match d.pitch.loading with
  | some (none, r, _) => if r % 256 ∈ [0x21, 0x22, 0x25, 0x07] then 2 else 1
  | _ => 3

/-- A read of PITCH_LOAD during a load finds the stages as far on as the load has come: how far is a free value, and it
never goes back (log 89). -/
def Dev.loadGoesOn (d : Dev) : Dev :=
  if d.pitch.loading.isNone then d
  else
    let (v, d) := d.takeFree
    d.fset Reg.PITCH_LOAD.STATE (min d.loadReach (d.fget Reg.PITCH_LOAD.STATE + v.toNat % 3))

/-- A load or a swap of PITCH is under way (R128). -/
def Dev.loadBusy (d : Dev) : Bool := d.pitch.loading.isSome || (d.inst 0x13 0).swap

/-- PITCH_LOAD.START (R127, R128): the stages run on the image as it lies in DRAM. -/
def Dev.pitchLoad (d : Dev) : Dev :=
  if d.loadBusy then d.setErr 0x13 0 8
  else
    let len := d.fget Reg.PITCH_IMG_LEN.BYTES
    let early := if d.fget Reg.PITCH_IMG_BASE.ADDR % 8 ≠ 0 then some 0x1302
      else if len = 0 then some 0x1306
      else if len < 512 ∨ 1048576 < len then some 0x1302
      else none
    d.beginLoad early d.loadBytes

/-- PITCH_LOAD_DONE -/
def Dev.pitchLoadDone (d : Dev) : Dev :=
  match d.pitch.loading with
  | none => d
  | some (im, r, a) =>
    let d := { d with pitch := { d.pitch with loading := none, staged := im } }
    if im.isSome then (d.fset Reg.PITCH_LOAD.STATE 4).post 0x13 0 0x0011 (d.fget Reg.PITCH_LOAD.FAIL_REASON * 65536 + 4)
    else
      let d := ((d.fset Reg.PITCH_LOAD.STATE 5).fset Reg.PITCH_LOAD.FAIL_REASON r).fset Reg.PITCH_LOAD.FAIL_AT a
      d.post 0x13 0 0x0011 (r * 65536 + 5)

/-! ### Activation (R129, R130) -/

/-- The check of R129 over the staged image: reason and OFFSET, or none. -/
def Dev.pitchCheck (d : Dev) : Option (Nat × Nat) :=
  match d.pitch.staged with
  | none => some (if d.fget Reg.PITCH_LOAD.STATE = 5 then d.fget Reg.PITCH_LOAD.FAIL_REASON else 0x1303, 0)
  | some i =>
    let slots := fun t => field (d.shadow.get (regAddr 0x13 0 (0x400 + 8 * t))) 15 0
    let off := fun (t : Nat) => 0x400 + 8 * t
    match i.binds.find? (fun b => slots b.1 = 0) with
    | some b => some (0x1306, off b.1)
    | none =>
      match i.binds.find? (fun b => decide (slots b.1 < 8 ∨ 16384 < slots b.1)) with
      | some b => some (0x1302, off b.1)
      | none =>
        match i.binds.find? (fun b => decide (slots b.1 < b.2.worst)) with
        | some b => some (0x1320, off b.1)
        | none => none

/-- The init records are written to the shared memory of every cluster in service (R129). -/
def Dev.applyInits (d : Dev) : Dev :=
  match d.pitch.staged with
  | none => d
  | some i =>
    let sh := d.clusters.foldl (fun m c =>
      i.inits.foldl (fun m r => Memory.setBytes m (262144 * c + r.offset) r.data) m) d.mem.shared
    { d with mem := { d.mem with shared := sh } }

/-- The staged image becomes active as generation `gen`. -/
def Dev.activateImage (d : Dev) (gen : Nat) : Dev :=
  match d.pitch.staged with
  | none => d
  | some i =>
    let d := { d with pitch := { d.pitch with images := d.pitch.images ++ [{ i with gen := gen }], staged := none } }
    let m := Tab.look d.anchor.meas 5
    ((d.setMeas 4 m).setMeas 5 none).fset Reg.PITCH_LOAD.STATE 0

/-- A passed swap takes effect now (R130): the image and the budgets become active, the old generation drains, held
arrivals dispatch again, and each controller has a Firmware Activation Starting event (R155). -/
def Dev.pitchSwap (d : Dev) : Dev :=
  match d.pitch.pause with
  | none => d
  | some n =>
    let d := d.takeGen 0x13 0 true
    let d := d.activateImage (d.inst 0x13 0).active
    let fw := d.hostq.fw
    let d := { d with pitch := { d.pitch with pause := none }
                      hostq := { d.hostq with fw := { fw with active := fw.swapping.getD fw.active, swapping := none } } }
    let d := (d.fset Reg.PITCH_SWAP.CYCLE d.cycle).fset Reg.PITCH_SWAP.PAUSE ((d.cycle + 2 ^ 48 - n) % 2 ^ 48)
    d.raiseAens (fun _ => true) 2 1 3

/-- A commit-cycle boundary has come (R130): a swap that has passed its check pauses admission, if the draining generations
let it (R24, R25); the second boundary after the pause makes it active, when it was not active before. -/
def Dev.pitchBoundary (d : Dev) : Dev :=
  match d.pitch.pause with
  | some n => if cycLe (cycAdd n 2) d.cycle then d.pitchSwap else d
  | none =>
    let i := d.inst 0x13 0
    if i.swapReady && i.swapFits then { d with pitch := { d.pitch with pause := some d.cycle } } else d

/-- Does a command that started under a generation, or a call of one of its runs that a block has put off, still stand? Its
answer is an event of that generation. -/
def Dev.deferredUse (d : Dev) (gen : Nat) : Bool :=
  (d.hostq.tags.any fun t => t.2.gen = some gen && decide (t.2.state ≠ .completed)) ||
    (d.rope.locks.any fun l => l.2.gen = gen && !l.2.granted) || (d.map.lookups.any fun l => l.2.gen = gen && !l.2.ready) ||
    (d.media.jobs.any fun j => j.2.gen = gen && !j.2.move) ||
    (d.cipher.seals.any fun s => s.runGen = gen && !s.own) || d.cipher.dones.any fun c => c.gen = gen

/-- Does anything still refer to generation `gen` of PITCH (R131)? -/
def Dev.pitchGenUsed (d : Dev) (gen : Nat) : Bool :=
  (d.pitch.threads.any fun t => (t.2.run.map (·.gen)) = some gen) ||
    ((d.pitch.queue ++ d.pitch.held).any fun e => e.gen = some gen) ||
    (d.asks.any fun p => p.2.gen = gen && decide (p.2.answer = none) && (match p.2.owner with
      | .pitch _ => true
      | .warden _ => false)) ||
    d.deferredUse gen

/-- A generation of PITCH is released with its bank. -/
def Dev.releaseImage (d : Dev) (gen : Nat) : Dev :=
  { d with pitch := { d.pitch with images := d.pitch.images.filter fun i => i.gen ≠ gen } }

end Sys2Proof.Machine
end

