-- ==== Sys2Proof/Machine/Check.lean ====
section
/-! DEFINITION. The consistency check of an enable or a swap (R58 to R69, R508, R510, and each block's own reasons), what
an enable and a disable do to a block, and generation swaps (R24, R25, R64 to R66). -/

namespace Sys2Proof.Machine

/-- A failing condition: the low byte of its reason, and OFFSET. -/
abbrev Fail := Nat × Nat

/-- The one-element list of a condition that fails. -/
def failIf (b : Bool) (low off : Nat) : List Fail := if b then [(low, off)] else []

/-- The place of a reason in the order of R60; DMC tests 0x25 before its other own reasons (R510). -/
def failRank (blk low : Nat) : Nat :=
  match low with
  | 0x05 => 0
  | 0x04 => 1
  | 0x01 => 2
  | 0x06 => 3
  | 0x02 => 4
  | 0x03 => 5
  | 0x07 => 6
  | 0x08 => 7
  | l => if blk = 0x1A ∧ l = 0x25 then 8 else l + 9

/-- The failure that is reported: the first in the order of R60, and of several of one rank the first listed. -/
def firstFail (blk : Nat) : List Fail → Option Fail
  | [] => none
  | f :: fs =>
    match firstFail blk fs with
    | some g => if failRank blk g.1 < failRank blk f.1 then some g else some f
    | none => some f

/-! ### Conditions of every block -/

/-- An instance that the LX9624-B lacks (R2): PORT 2 and 3 and TETHER 12 to 23. -/
def Dev.absent (d : Dev) (blk n : Nat) : Bool :=
  d.partB && (decide (blk = 0x08 ∧ 2 ≤ n) || decide (blk = 0x17 ∧ 12 ≤ n))

/-- Does an enabled instance require this one (R62)? -/
def Dev.depHeld (d : Dev) (blk n : Nat) : Bool :=
  allInsts.any fun p => d.isEnabled p.1 p.2 && (requires p.1 p.2).contains (blk, n)

/-- Zeros and ranges of the LK and ST fields by their rows (R63, R67). -/
def Dev.fieldFails (s : Dev) (blk n : Nat) : List Fail :=
  (rowsOf blk).flatMap fun r =>
    if r.only0 ∧ n ≠ 0 then []
    else (List.range r.cnt).flatMap fun i =>
      let off := r.off + 8 * i
      let w := s.reg blk n off
      r.flds.flatMap fun f =>
        if f.acc ≠ .lk ∧ f.acc ≠ .st then []
        else
          let v := field w f.hi f.lo
          if f.zeroBad ∧ v = 0 then [(0x06, off)]
          else failIf (decide (v < f.least ∨ f.most < v)) 0x02 off

/-! ### DRAM areas -/

/-- A DRAM area: its first byte and its length in bytes. -/
abbrev Area := Nat × Nat

/-- The DRAM areas that a block's registers name. -/
def Dev.areas (s : Dev) (blk : Nat) : List Area :=
  let at4k := fun (f : FRef) (len : Nat) => (s.fget f * 4096, len)
  let span := fun (lo hi : FRef) => (s.fget lo * mibBytes, (s.fget hi - s.fget lo) * mibBytes)
  match blk with
  | 0x00 => if s.fget Reg.CAMP_SAVE.BASE_MIB = 0 then [] else [(s.fget Reg.CAMP_SAVE.BASE_MIB * mibBytes, 64 * mibBytes)]
  | 0x04 => [at4k Reg.CRN_RING.ADDR (s.fget Reg.CRN_RING.SLOTS * s.crnSlotBytes)]
  | 0x05 => if s.fget Reg.TLY_METER_CFG.EN = 0 then []
            else [at4k Reg.TLY_METER_RING.ADDR (s.fget Reg.TLY_METER_RING.SLOTS * 528384)]
  | 0x0B => [at4k Reg.CLS_WRING.ADDR (320 * 2 ^ s.fget Reg.CLS_WRING.LOG2)]
  | 0x0C => [at4k Reg.XPT_SPILL.ADDR (s.fget Reg.XPT_CTX.MAX * 256)]
  | 0x0D => [at4k Reg.STR_SPILL.ADDR (s.fget Reg.STR_CTX.MAX * 384)]
  | 0x0E => [span Reg.SWT_OVF.BASE_MIB Reg.SWT_OVF.LIMIT_MIB]
  | 0x0F => [at4k Reg.SCH_TEN_TAB.ADDR 131072, at4k Reg.SCH_POL_TAB.ADDR 524288]
  | 0x10 => [at4k Reg.HOSTQ_SUBTAB.ADDR 262144, at4k Reg.HOSTQ_HOSTTAB.ADDR (64 * s.fget Reg.HOSTQ_HOSTTAB_LEN.ENTRIES),
             at4k Reg.HOSTQ_NSTAB.ADDR 524288]
  | 0x11 => [at4k Reg.LEDGER_TEN_TAB.ADDR 131072]
  | 0x12 => [at4k Reg.ROPE_TRACE_BASE.ADDR (32 * s.fget Reg.ROPE_TRACE.ENTRIES)]
  | 0x14 => [span Reg.MAP_PIN_AREA.BASE_MIB Reg.MAP_PIN_AREA.LIMIT_MIB, span Reg.MAP_CACHE_AREA.BASE_MIB Reg.MAP_CACHE_AREA.LIMIT_MIB] ++
      (if s.fget Reg.MAP_CFG.BUF_MODE = 1 then [(s.fget Reg.MAP_DEEP.BASE_MIB * mibBytes, 1024 * mibBytes)] else [])
  | 0x15 => [at4k Reg.STRIPE_BAND_TAB.ADDR (128 * s.fget Reg.STRIPE_BAND_LEN.ENTRIES),
             (s.fget Reg.STRIPE_MOVE_BUF.BASE_MIB * mibBytes, 64 * mibBytes)]
  | 0x16 => [at4k Reg.MDA_SLED_TAB.ADDR 1536, at4k Reg.MDA_BLKTAB.ADDR (768 * mibBytes), at4k Reg.MDA_THR_TAB.ADDR 17408,
             at4k Reg.MDA_GL_TAB.ADDR 5888]
  | 0x19 => [at4k Reg.BLY_PCTX_TAB.ADDR mibBytes]
  | _ => []

/-- Do two areas share a byte? -/
def areasMeet (a b : Area) : Bool := decide (a.1 < b.1 + b.2 ∧ b.1 < a.1 + a.2)

/-- Do two of the areas of a list share a byte? -/
def anyMeet : List Area → Bool
  | [] => false
  | a :: as => as.any (areasMeet a) || anyMeet as

/-- The areas of the other blocks that are enabled. -/
def Dev.otherAreas (s : Dev) (blk : Nat) : List Area :=
  (List.range 0x1D).flatMap fun b => if b ≠ blk ∧ s.isEnabled b then s.areas b else []

/-- An area of the block overlaps another DRAM area or ends beyond DMC_CAP.MIB. A window in which a block only permits
accesses (PITCH_DMA_WIN) is no area; MAP alone is held against it (0x1421). Areas of blocks that are not enabled are not
compared (DEDUCED, log 45). -/
def Dev.areaFails (s : Dev) (blk : Nat) : Bool :=
  let own := s.areas blk
  let others := if blk = 0x14 then
      [(s.fget Reg.PITCH_DMA_WIN.BASE_MIB * mibBytes,
        (s.fget Reg.PITCH_DMA_WIN.LIMIT_MIB - s.fget Reg.PITCH_DMA_WIN.BASE_MIB) * mibBytes)]
    else s.otherAreas blk
  anyMeet own || own.any (fun a => others.any (areasMeet a) || decide (s.fget Reg.DMC_CAP.MIB * mibBytes < a.1 + a.2))

/-! ### The blocks' own conditions -/

/-- DMC (R510 and the DMC reasons). MIB and the training masks are set before. -/
def Dev.failsDmc (s : Dev) (o : CheckObs) : List Fail :=
  let named := s.fget Reg.DMC_POP.SLOT
  let mts := s.fget Reg.DMC_RATE.MTS
  let chan := fun (c : Nat) => (Tab.look o.rdimms (2 * c), Tab.look o.rdimms (2 * c + 1))
  let mib := s.fget Reg.DMC_CAP.MIB
  failIf (decide (mts ≠ 0 ∧ mts ≠ 4800 ∧ mts ≠ 5600 ∧ mts ≠ 6400)) 0x02 0x210 ++
    failIf ((List.range 16).any fun k => bitOf named k ≠ (Tab.look o.rdimms k).isSome) 0x25 0x208 ++
    failIf (decide (s.fget Reg.DMC_TRAIN.FAIL ≠ 0)) 0x20 0 ++
    failIf (decide (mib < 262144)) 0x21 0 ++
    failIf (decide (1048576 < mib)) 0x22 0 ++
    failIf ((List.range 8).any fun c => decide (chan c ≠ chan 0)) 0x23 0 ++
    failIf (o.rdimms.any fun p => !p.2.ecc) 0x24 0

/-- The capacity and the training result that DMC's check leaves (R510): nothing is trained when the slots disagree. -/
def Dev.dmcTrain (d : Dev) (o : CheckObs) : Dev :=
  let named := d.fget Reg.DMC_POP.SLOT
  let agree := (List.range 16).all fun k => bitOf named k = (Tab.look o.rdimms k).isSome
  let has := fun (c : Nat) => (Tab.look o.rdimms (2 * c)).isSome || (Tab.look o.rdimms (2 * c + 1)).isSome
  let bits := fun (p : Nat → Bool) => (List.range 8).foldl (fun a c => if p c then a + 2 ^ c else a) 0
  let pass := if agree then bits fun c => has c && !bitOf o.failing c else 0
  let fail := if agree then bits fun c => has c && bitOf o.failing c else 0
  let mib := (o.rdimms.map fun p => if bitOf pass (p.1 / 2) then p.2.mib else 0).foldl (· + ·) 0
  ((d.fset Reg.DMC_TRAIN.PASS pass).fset Reg.DMC_TRAIN.FAIL fail).fset Reg.DMC_CAP.MIB mib

/-- MGMT. -/
def Dev.failsMgmt (s : Dev) (o : CheckObs) : List Fail :=
  let lane := decide (s.fget Reg.MGMT_CTRL.LANE_EN = 1)
  failIf (lane && decide (s.fget Reg.MGMT_MAC.ADDR = 0)) 0x06 0x208 ++
    failIf (lane && decide (s.fget Reg.MGMT_RAS.IPV4 = 0)) 0x06 0x210 ++ failIf (lane && !o.good) 0x20 0

/-- TALLY. -/
def Dev.failsTally (s : Dev) : List Fail :=
  let en := decide (s.fget Reg.TLY_METER_CFG.EN = 1)
  let ms := s.fget Reg.TLY_WIN_CFG.MS
  failIf (en && decide (s.fget Reg.TLY_METER_RING.ADDR = 0)) 0x06 0x208 ++
    failIf (en && s.areaFails 0x05) 0x20 0x208 ++ failIf (decide (ms ≠ 0 ∧ 60000 % ms ≠ 0)) 0x21 0x258

/-- PORT (R297). -/
def Dev.failsPort (s : Dev) (n : Nat) (o : CheckObs) : List Fail :=
  let m := s.fget Reg.PRT_CFG.MODE n
  let most := if m = 0 then 1 else if m = 1 then 3 else 15
  failIf (decide (most < s.fget Reg.PRT_CFG.SUBEN n)) 0x02 0x200 ++ failIf (!o.good) 0x20 0 ++
    failIf (decide (s.fget Reg.PRT_CFG.AN n = 1 ∧ s.fget Reg.PRT_CFG.MEDIA n = 2)) 0x21 0x200

/-- PARSE[0]: the node at fault of the staged graph (R307). -/
def Dev.stagedGraphFault (s : Dev) : Option Nat :=
  graphFault (s.readGraph (s.fget Reg.PRS_GRAPH.ADDR * 4096)) (s.fget Reg.PRS_CFG.START)

/-- CLASS[0] (R312). -/
def Dev.failsClass (s : Dev) : List Fail :=
  let st := List.range 4
  let seg := fun (i : Nat) => s.fget (Reg.CLS_STAGE.SEG.nth i)
  let region := fun (i : Nat) => ((s.fget (Reg.CLS_STAGE.BASE.nth i), 2 ^ s.fget (Reg.CLS_STAGE.LOG2.nth i)) : Area)
  let on := (st.filter fun i => s.fget (Reg.CLS_STAGE.EN.nth i) = 1).map region
  (st.flatMap fun i => failIf ((List.range 5).any fun k => decide (17 ≤ bitsOf (seg i) (5 * k + 4) (5 * k))) 0x02 (0x208 + 8 * i)) ++
    failIf (decide (s.fget Reg.CLS_CFG.PROFILE = 1) && s.partB) 0x07 0x200 ++
    failIf (anyMeet on || on.any fun r => decide (28672 < r.1 + r.2)) 0x20 0x208 ++ failIf (s.areaFails 0x0B) 0x21 0x278

/-- The second of XPORT and STREAM to be enabled (R323). -/
def Dev.failsShare (s : Dev) (other : Nat) (off : Nat) : List Fail :=
  failIf (s.on other && decide (262144 < s.fget Reg.XPT_CTX.MAX + s.fget Reg.STR_CTX.MAX ∨
    12288 < s.fget Reg.XPT_CTX.RESIDENT + s.fget Reg.STR_CTX.RESIDENT)) 0x07 off

/-- STREAM. -/
def Dev.failsStream (s : Dev) : List Fail :=
  let ls := (List.range 4).filter fun i => s.fget (Reg.STR_LISTEN.EN.nth i) = 1
  let port := fun (i : Nat) => s.fget (Reg.STR_LISTEN.PORT.nth i)
  (ls.flatMap fun i => failIf (decide (port i = 0)) 0x06 (Reg.STR_LISTEN.PORT.off + 8 * i)) ++
    s.failsShare 0x0C Reg.STR_CTX.MAX.off ++ failIf (s.areaFails 0x0D) 0x20 Reg.STR_SPILL.ADDR.off ++
    failIf (decide ((ls.map port).dedup.length ≠ ls.length)) 0x21 Reg.STR_LISTEN.PORT.off

/-- SWITCH. -/
def Dev.failsSwitch (s : Dev) : List Fail :=
  let lo := s.fget Reg.SWT_OVF.BASE_MIB
  let hi := s.fget Reg.SWT_OVF.LIMIT_MIB
  let en := decide (s.fget Reg.SWT_CFG.OVF_EN = 1)
  let aud := s.fget Reg.SWT_CFG.AUDIT_MS
  failIf (decide (lo = 0 ∨ hi = 0) && !(decide (lo = 0 ∧ hi = 0) && !en)) 0x06 0x208 ++
    failIf (decide (aud ≠ 0 ∧ aud < 100)) 0x02 0x200 ++
    ((List.range 8).flatMap fun i =>
      let f := fun (r : FRef) => s.fget (r.nth i)
      failIf (!decide (f Reg.SWT_RED.G_MIN < f Reg.SWT_RED.G_MAX ∧ f Reg.SWT_RED.Y_MIN < f Reg.SWT_RED.Y_MAX ∧
        f Reg.SWT_RED.Y_MIN ≤ f Reg.SWT_RED.G_MIN ∧ f Reg.SWT_RED.Y_MAX ≤ f Reg.SWT_RED.G_MAX)) 0x20 (0x218 + 8 * i)) ++
    failIf (decide (lo ≠ 0 ∨ hi ≠ 0) && s.areaFails 0x0E) 0x21 0x208 ++ failIf (en && decide (hi - lo < 1024)) 0x22 0x208

/-- Does a read of a table entry refuse it? -/
def refuses {α : Type} : Except Nat α → Bool
  | .error _ => true
  | .ok _ => false

/-- SCHED. -/
def Dev.failsSched (s : Dev) : List Fail :=
  let gates := decide (s.fget Reg.SCH_CFG.GATES_EN = 1)
  let gl := s.fget Reg.SCH_GL_TAB.ADDR
  let strict := s.fget Reg.SCH_CFG.STRICT
  let w := s.fget Reg.SCH_TC_WEIGHT.WEIGHT
  let ten := s.fget Reg.SCH_TEN_TAB.ADDR * 4096
  let pol := s.fget Reg.SCH_POL_TAB.ADDR * 4096
  failIf ((List.range 8).any fun c => !bitOf strict c && decide (bitsOf w (8 * c + 7) (8 * c) = 0)) 0x06 0x208 ++
    failIf (gates && decide (gl = 0)) 0x06 Reg.SCH_GL_TAB.ADDR.off ++
    (if gates then match s.checkNetGates (gl * 4096) with
      | some c => [(c % 256, Reg.SCH_GL_TAB.ADDR.off)]
      | none => []
     else []) ++
    failIf ((touched s.mem.dram ten 32 4096).any fun t => refuses (s.readShaper ten t)) 0x22 0x210 ++
    failIf ((touched s.mem.dram pol 32 16384).any fun t => refuses (s.readPolicer pol t)) 0x22 0x218

/-- The namespace entries of HOSTQ's table that are not refused, and the codes of those that are. -/
def Dev.nsEntries (s : Dev) : List (Except Nat (Nat × Ns)) :=
  (touched s.mem.dram (s.fget Reg.HOSTQ_NSTAB.ADDR * 4096) 32 16384).filterMap fun h =>
    match s.readNs h with
    | .error e => some (.error e)
    | .ok (some n) => some (.ok (h, n))
    | .ok none => none

/-- HOSTQ. -/
def Dev.failsHostq (s : Dev) : List Fail :=
  let t := s.loadTables
  let es := s.nsEntries
  let codes := es.filterMap fun e => match e with
    | .error c => some c
    | .ok _ => none
  let keys := t.hostq.nss.map fun p => (p.2.subsys, p.2.nsid)
  let hosts := t.hostq.hosts.map fun h => (h.subsys, h.hash)
  (codes.map fun c => (c, 0x218)) ++ failIf (decide (32768 < s.fget Reg.HOSTQ_HOSTTAB_LEN.ENTRIES)) 0x07 0x220 ++
    failIf (t.hostq.nss.any fun p => (Tab.look t.hostq.subs p.2.subsys).isNone) 0x20 0x218 ++
    failIf (decide (keys.dedup.length ≠ keys.length)) 0x21 0x218 ++
    failIf (decide (hosts.dedup.length ≠ hosts.length)) 0x22 0x210

/-- The tenant table of LEDGER as it lies in DRAM (R168, R169), and whether an entry is refused. -/
def Dev.tenantTable (s : Dev) : Tab LedgerTenant × Bool :=
  (touched s.mem.dram (s.fget Reg.LEDGER_TEN_TAB.ADDR * 4096) 32 4096).foldl (fun (acc : Tab LedgerTenant × Bool) t =>
    match s.readTenant t with
    | .error _ => (acc.1, true)
    | .ok (some e) => (Tab.put acc.1 t e, acc.2)
    | .ok none => acc) ([], false)

/-- The largest tR_MAX of the loaded sleds. -/
def Dev.trMax (s : Dev) : Nat := (s.sledList.filterMap fun n => (s.sled n).map (·.trMax)).foldl max 0

/-- LEDGER (R169, R174). -/
def Dev.failsLedger (s : Dev) : List Fail :=
  let (g1, g2) := composed s.trMax
  let (ts, bad) := s.tenantTable
  failIf (decide (1500 < g1 ∨ 4000 < g2)) 0x20 0 ++ failIf (decide (200000 < s.fget Reg.LEDGER_G1_BELAY.BYTES)) 0x21 0x208 ++
    failIf (bad || decide (s.tenantsCheck ts ≠ 0)) 0x22 0x210

/-- ROPE (R69, R187, R188, R393). -/
def Dev.failsRope (s : Dev) : List Fail :=
  let ns := s.cycleNs
  let e := s.fget Reg.ROPE_TRACE.ENTRIES
  let partner := (s.belay.hello.map (·.cycleNs)).getD ns
  failIf (decide (e ≠ 0 ∧ s.fget Reg.ROPE_TRACE_BASE.ADDR = 0)) 0x06 0x230 ++ failIf (decide (ns % 1000 ≠ 0)) 0x02 0x200 ++
    failIf (s.isEnabled 0x19 && decide (partner ≠ ns)) 0x08 0x200 ++ failIf (decide (ns < s.sealLead + 1000)) 0x20 0x208 ++
    failIf (decide (e ≠ 0) && !(List.range 17).any fun k => decide (e = 2 ^ (k + 7))) 0x21 0x238

/-- PITCH (R129; PITCH_DMA_WIN). -/
def Dev.failsPitch (s : Dev) : List Fail :=
  let lo := s.fget Reg.PITCH_DMA_WIN.BASE_MIB
  let hi := s.fget Reg.PITCH_DMA_WIN.LIMIT_MIB
  failIf (decide (lo ≠ 0 ∨ hi ≠ 0) && decide (hi ≤ lo ∨ s.fget Reg.DMC_CAP.MIB < hi)) 0x02 0x270 ++
    match s.pitchCheck with
    | some (r, off) => [(r % 256, off)]
    | none => []

/-- MAP (R191, R195, R205, R214, R215). -/
def Dev.failsMap (s : Dev) : List Fail :=
  let t := if s.isEnabled 0x10 then s else (s.activateShadow 0x10 0).loadTables
  let lo := s.fget Reg.MAP_PIN_AREA.BASE_MIB
  let hi := s.fget Reg.MAP_PIN_AREA.LIMIT_MIB
  let budget := s.fget Reg.MAP_PIN.BUDGET_MIB
  let deep := decide (s.fget Reg.MAP_CFG.BUF_MODE = 1)
  let hours := s.fget Reg.MAP_SECDEL.HOURS
  let cache := s.fget Reg.MAP_CACHE_AREA.LIMIT_MIB - s.fget Reg.MAP_CACHE_AREA.BASE_MIB
  let wide := s.sledList.any fun n => match s.sled n with
    | some r => decide (4 < r.planes ∨ 4096 < r.blocks ∨ 1024 < r.pages)
    | none => false
  let cfg := s.jnl.sbField 29 1
  failIf (decide (lo = 0 ∨ hi = 0) && !decide (lo = 0 ∧ hi = 0 ∧ budget = 0)) 0x06 0x218 ++
    failIf (deep && decide (s.fget Reg.MAP_DEEP.BASE_MIB = 0)) 0x06 0x230 ++
    failIf (decide (s.fget Reg.MAP_CFG.SECURE = 1 ∧ hours = 0)) 0x06 0x240 ++
    failIf (decide (s.fget Reg.MAP_DEEP.BASE_MIB % 1024 ≠ 0)) 0x02 0x230 ++
    failIf (decide (hours ≠ 0 ∧ (hours < 2 ∨ 168 < hours))) 0x02 0x240 ++
    failIf wide 0x20 0 ++ failIf (s.areaFails 0x14) 0x21 0 ++
    failIf (decide (hi - lo < 2 * budget)) 0x22 0x218 ++
    failIf (decide (cache < s.directoryMib s.usableNow + 1024)) 0x22 0x220 ++
    failIf (s.jnl.active.isSome && !t.hostq.nss.isEmpty && decide (cfg % 2 ≠ s.fget Reg.MAP_CFG.UNIT)) 0x23 0x200 ++
    failIf (decide (s.usableNow < t.showAlloc.fget Reg.MAP_ALLOC.BLOCKS)) 0x24 0x200

/-- STRIPE (R264, R268, R289). -/
def Dev.failsStripe (s : Dev) : List Fail :=
  let k := s.fget Reg.STRIPE_GEOM.K
  let m := s.fget Reg.STRIPE_GEOM.M
  let recs := s.sledList.filterMap s.sled
  let blocks := (recs.map fun r => ((List.range 8).filter (bitOf r.channels)).length * r.dies * r.planes * r.blocks).foldl (· + ·) 0
  let bands := s.fget Reg.STRIPE_DUMP.BANDS
  failIf (decide (s.fget Reg.STRIPE_MOVE_BUF.BASE_MIB % 64 ≠ 0)) 0x02 0x218 ++
    failIf (decide (24 < k + m ∨ recs.length < k + m)) 0x20 0x200 ++
    failIf (decide (s.fget Reg.STRIPE_BAND_LEN.ENTRIES * (k + m) < blocks)) 0x21 0x210 ++
    failIf (recs.any fun r => decide (bands * k * (r.pages / r.cell) * 4 < 278528)) 0x22 0x268 ++
    failIf (decide (s.fget Reg.STRIPE_GC.FREE_LOW ≤ s.fget Reg.STRIPE_GC.FREE_CRIT)) 0x23 0x220 ++
    failIf (decide (s.fget Reg.STRIPE_QUEUE.LEN ≤ s.fget Reg.STRIPE_QUEUE.LOW)) 0x23 0x228 ++ failIf (s.areaFails 0x15) 0x24 0

/-- The threshold table as it lies in DRAM (R258). -/
def Dev.readThresholds (s : Dev) : Memory :=
  let a := s.fget Reg.MDA_THR_TAB.ADDR * 4096
  (s.mem.dram.filter fun p => decide (a ≤ p.1 ∧ p.1 < a + 17408)).map fun p => (p.1 - a, p.2)

/-- The sled records of the table (R247): those that are VALID and good, and the codes of the others. -/
def Dev.sledTable (s : Dev) : Tab SledRec × List Nat :=
  (List.range 24).foldl (fun (acc : Tab SledRec × List Nat) n =>
    match s.readSled n with
    | .error c => (acc.1, acc.2 ++ [c])
    | .ok (some r) => (Tab.put acc.1 n r, acc.2)
    | .ok none => acc) ([], [])

/-- MEDIA (R247, R251, R258). -/
def Dev.failsMedia (s : Dev) : List Fail :=
  let (recs, bad) := s.sledTable
  let gl := (s.readGates (s.fget Reg.MDA_GL_TAB.ADDR * 4096)).check
  let thr := s.readThresholds
  let beyond := recs.any fun r => decide (r.2.cell = 3) && thr.any fun (p : Nat × Byte) =>
    let i := p.1 % 4352
    decide (p.1 / 4352 = r.2.profile ∧ 256 ≤ i ∧ 7 ≤ (i - 256) % 16 ∧ (i - 256) % 16 ≤ 14)
  (bad.map fun c => (c, 0x200)) ++ failIf (recs.isEmpty && bad.isEmpty) 0x03 0x200 ++ failIf beyond 0x23 0x210 ++
    (if gl = 0 then [] else [(gl, 0x218)]) ++ failIf (s.areaFails 0x16) 0x27 0

/-- TETHER (R230). -/
def failsTether (o : CheckObs) : List Fail :=
  failIf (!o.good) 0x20 0 ++ failIf (decide (o.proto ≠ 0x0100)) 0x21 0 ++ failIf (decide (o.lanes < 4)) 0x22 0

/-- CIPHER (R380, R384, R436). -/
def Dev.failsCipher (s : Dev) : List Fail :=
  failIf (decide (s.fget Reg.CPH_XTS_LIMIT.HARD_LOG2 ≤ s.fget Reg.CPH_XTS_LIMIT.SOFT_LOG2)) 0x20 Reg.CPH_XTS_LIMIT.HARD_LOG2.off ++
    failIf (decide (s.fget Reg.CPH_GCM_LIMIT.HARD ≤ s.fget Reg.CPH_GCM_LIMIT.SOFT)) 0x20 Reg.CPH_GCM_LIMIT.HARD.off ++
    failIf s.anchor.kek.isNone 0x21 0

/-- BELAY (R393): a partner of another ordering code is a partner conflict, which R60 ranks before BELAY's own reasons
(R3). -/
def Dev.failsBelay (s : Dev) : List Fail :=
  (s.helloFails.map fun r => (r, 0)) ++ failIf (s.areaFails 0x19) 0x24 Reg.BLY_PCTX_TAB.ADDR.off

/-- A block's own conditions. -/
def Dev.ownFails (s : Dev) (blk n : Nat) (o : CheckObs) : List Fail :=
  match blk with
  | 0x02 => failIf (decide (s.warden.ncode = 0)) 0x20 0
  | 0x04 => failIf (s.areaFails 0x04) 0x20 Reg.CRN_RING.ADDR.off
  | 0x05 => s.failsTally
  | 0x08 => s.failsPort n o
  | 0x0A => failIf (decide (n = 0) && s.stagedGraphFault.isSome) 0x20 0x200
  | 0x0B => if n = 0 then s.failsClass else []
  | 0x0C => s.failsShare 0x0D Reg.XPT_CTX.MAX.off ++ failIf (s.areaFails 0x0C) 0x20 Reg.XPT_SPILL.ADDR.off
  | 0x0D => s.failsStream
  | 0x0E => s.failsSwitch
  | 0x0F => s.failsSched
  | 0x10 => s.failsHostq
  | 0x11 => s.failsLedger
  | 0x12 => s.failsRope
  | 0x13 => s.failsPitch
  | 0x14 => s.failsMap
  | 0x15 => s.failsStripe
  | 0x16 => s.failsMedia
  | 0x17 => failsTether o
  | 0x18 => s.failsCipher
  | 0x19 => s.failsBelay
  | 0x1A => s.failsDmc o
  | 0x1B => failIf (!o.good) 0x20 0
  | 0x1C => s.failsMgmt o
  | _ => []

/-- The result of the check of an instance (R60): none, or the reason and OFFSET that refuse it. -/
def Dev.checkResult (d : Dev) (blk n : Nat) (o : CheckObs) : Option (Nat × Nat) :=
  if d.absent blk n then some (blk * 256 + 0x07, 0)
  else
    let s := d.activateShadow blk n
    let fs := failIf (decide (d.pwrState blk n ≠ 0)) 0x04 0 ++
      failIf (!d.needsMet blk n) 0x01 0 ++ s.fieldFails blk n ++ s.ownFails blk n o
    (firstFail blk fs).map fun f => (blk * 256 + f.1, f.2)

end Sys2Proof.Machine
end

