-- ==== Sys2Proof/Machine/EnableOps.lean ====
section
/-! DEFINITION. Enabling, disabling and draining a block, and generation swaps (R24, R25, R58 to R66, R417, R426). -/

namespace Sys2Proof.Machine

/-! ### Going out of service (R61) -/

/-- Registers whose RO and RC fields a disable keeps: the fields that must never go back (R61) and WDN_EVR_LOST (R70). -/
def keptAtDisable (blk off : Nat) : Bool :=
  decide ((blk = 0x12 ∧ off = Reg.ROPE_NEXT.ROPE.off) ∨ (blk = 0x19 ∧ off = Reg.BLY_EPOCH.OWN.off) ∨
    (blk = 0x02 ∧ off = Reg.WDN_EVR_LOST.COUNT.off))

/-- The bits of a register that a disable returns to their reset values. TTH_CLAIM_STAT.LAST_EPOCH never goes back; BELAY's
PHYs stay up while LINK_EN is 1, and its STATE after a disable is what `clearBlock` leaves (R392, R417). -/
def clearMask (blk : Nat) (r : Row) : Word :=
  if keptAtDisable blk r.off then 0
  else
    let m := r.mask fun a => decide (a = .ro ∨ a = .rc)
    if blk = 0x17 ∧ r.off = Reg.TTH_CLAIM_STAT.LAST_EPOCH.off then m &&& ~~~(maskOf 62 32)
    else if blk = 0x19 ∧ r.off = Reg.BLY_STATUS.STATE.off then m &&& ~~~(maskOf 9 8 ||| maskOf 2 0)
    else m

/-- The block-specific RO and RC fields return to their reset values. -/
def Dev.clearFields (d : Dev) (blk n : Nat) : Dev :=
  (rowsOf blk).foldl (fun (d : Dev) r =>
    let m := clearMask blk r
    if (r.only0 ∧ n ≠ 0) ∨ m = 0 then d
    else (List.range r.cnt).foldl (fun (d : Dev) i =>
      let a := regAddr blk n (r.off + 8 * i)
      { d with regs := d.regs.set a ((d.regs.get a &&& ~~~m) ||| (r.reset &&& m)) }) d) d

/-- The Warden cores stop, and the event ring is empty. -/
def Dev.wardenStops (d : Dev) : Dev :=
  let d := { d with warden := { d.warden with cores := [], notice := false } }
  ((d.fset Reg.WDN_CORE_CTRL.RUN 0).fset Reg.WDN_EVR_TAIL.INDEX 0).fset Reg.WDN_MBOX.DATA 0

/-- A sled whose TETHER instance is disabled counts as a link that has gone down (R508). -/
def Dev.tetherStops (d : Dev) (n : Nat) : Dev :=
  let d := d.sledAbsent n
  let (d, k) := d.endOps n fun _ => true
  let d := (d.bump Reg.TTH_OPS.TIMEOUTS k n).dropReqs n false
  { d with links := Tab.del d.links n, claimX := if n = 0 then none else d.claimX }

/-- The sub-ports of a PORT instance fall silent (R368). -/
def Dev.portStops (d : Dev) (n : Nat) : Dev :=
  (List.range 4).foldl (fun (d : Dev) s =>
    let q := 4 * n + s
    let p := d.egrPort q
    if bitOf (d.fget Reg.PRT_LINK.UP n) s then d.setEgrPort q { p with downSince := some d.now, expired := false, tx := none }
    else d) d

/-- A block's run-time state beyond its registers returns to what reset leaves. -/
def Dev.clearBlock (d : Dev) (blk n : Nat) : Dev :=
  match blk with
  | 0x01 => { d with anchor := { fuse := d.anchor.fuse, sensed := d.anchor.sensed, meas := d.anchor.meas
                                 wardenRan := d.anchor.wardenRan } }
  | 0x02 => d.wardenStops
  | 0x03 => Dev.fset { d with spotter := { unitSafe := d.spotter.unitSafe } } Reg.SPT_ST_CTRL.RUN 0
  | 0x04 => { d with cairn := {} }
  | 0x05 => { d with tally := { tcnt := d.tally.tcnt, pcnt := d.tally.pcnt, thr := d.tally.thr } }
  | 0x08 => d.portStops n
  | 0x09 => { d with tim := { ppsIn := d.tim.ppsIn } }
  | 0x0A =>
    let d := { d with cls := { d.cls with recirc := d.cls.recirc.filter fun w => w.port / 8 ≠ n } }
    if n = 0 then { d with cls := { d.cls with graphs := [] } } else d
  | 0x0B =>
    let d := { d with cls := { d.cls with reseq := d.cls.reseq.filter fun p => p.1.port / 8 ≠ n } }
    if n = 0 then { d with cls := { d.cls with gens := [] } } else d
  | 0x0C => { d with xpt := {}, trans := { d.trans with recs := [] } }
  | 0x0D => { d with stm := {} }
  | 0x0E => { d with swt := {} }
  | 0x0F => { d with sch := {} }
  | 0x10 =>
    let h := d.hostq
    { d with hostq := { subs := h.subs, hosts := h.hosts, nss := h.nss, visible := h.visible, spareLow := h.spareLow,
                        stLog := h.stLog, sanitize := h.sanitize, fw := h.fw, mgmtPs := h.mgmtPs } }
  | 0x11 => { d with ledger := {} }
  | 0x12 => { d with rope := {} }
  | 0x13 => (Dev.setMeas { d with pitch := {} } 4 none).setMeas 5 none
  | 0x14 => { d with map := {} }
  | 0x15 => { d with stripe := {} }
  | 0x16 => { d with media := {} }
  | 0x17 => d.tetherStops n
  | 0x18 => { d with cipher := {} }
  | 0x19 => d.blyDisabled
  | 0x1A => { d with dmc := {} }
  | 0x1B => { d with jnl := { mram := d.jnl.mram } }
  | 0x1C => { d with mgmt := { gpioPins := d.mgmt.gpioPins } }
  | _ => d

/-- The work an instance abandons in safe state (R426): run-time state that a disable would clear later, but not PITCH's
images, nor what ANCHOR, WARDEN, SPOTTER, TALLY, TIME, BELAY, DMC, JOURNAL and MGMT hold beside work (DESIGN CHOICE, log 132). -/
def Dev.dropWork (d : Dev) (blk n : Nat) : Dev :=
  if blk = 0x13 then { d with pitch := { images := d.pitch.images, staged := d.pitch.staged } }
  else if blk ∈ [0x04, 0x08, 0x0A, 0x0B, 0x0C, 0x0D, 0x0E, 0x0F, 0x10, 0x11, 0x12, 0x14, 0x15, 0x16, 0x17, 0x18] then
    d.clearBlock blk n
  else d

/-- Instances that have entered safe state abandon their work, and a UNIT reaction's dump begins as a power failure's does:
MEDIA quiesces (R426, R427). -/
def Dev.abandon (d : Dev) : Dev :=
  let d := (allInsts.filter fun p => (d.inst p.1 p.2).safe && !(d.inst p.1 p.2).quit).foldl (fun d p =>
    (d.dropWork p.1 p.2).modInst p.1 p.2 fun i => { i with quit := true }) d
  if d.camp.unitDump && decide (d.camp.pfail = .quiesced) then d.mediaQuiesce else d

/-- The domains a block instance uses, the SRAM arrays included. -/
def usedDoms (blk n : Nat) : List Nat := (List.range 96).filter fun k => (domInsts k).contains (blk, n)

/-- The instance is out of service (R61): the header keeps what R61 lists. -/
def Dev.outOfService (d : Dev) (blk n : Nat) : Dev :=
  let d := (d.clearBlock blk n).clearFields blk n
  let d := d.modInst blk n fun i =>
    { i with enable := false, enabled := false, disabling := false, heldDisable := false, drain := false, drained := false
             check := none, swap := false, swapReady := false, draining := [], staged := (i.active + 1) % 65536 }
  d.retargetAll (usedDoms blk n)

/-! ### Disabling and draining (R61, R62, R417, R426) -/

/-- The dependents of an instance that went out of safe state stay enabled and answer their asks with 0x0005 (R62). -/
def Dev.needAsks (d : Dev) (blk n : Nat) : Dev :=
  (allInsts.filter fun p => d.isEnabled p.1 p.2 && (requires p.1 p.2).contains (blk, n)).foldl (fun d p => d.answerAll p.1 5) d

/-- Is a disable ignored: a dependent is enabled (R62), BELAY serves the pair (R417), or the block is CAMP? -/
def Dev.disableHeld (d : Dev) (blk n : Nat) : Bool :=
  !(d.inst blk n).safe && (d.depHeld blk n || decide (blk = 0x19 ∧ 2 ≤ d.bly ∧ d.bly ≤ 5))

/-- A write of 0 to ENABLE of an enabled instance acts. -/
def Dev.disableActs (d : Dev) (blk n : Nat) : Dev :=
  if d.disableHeld blk n then d.setErr blk n errDepHeld
  else if (d.inst blk n).safe then (d.outOfService blk n).needAsks blk n
  else d.modInst blk n fun i => { i with enable := false, drain := true, disabling := true }

/-- BLOCK_DISABLE: a write of 0 to ENABLE. It waits for a check or a swap (R61), and CAMP ignores it (R62). -/
def Dev.blockDisable (d : Dev) (blk n : Nat) : Dev :=
  let i := d.inst blk n
  if blk = 0 then d
  else
    let d := if i.safe then d.modInst blk n fun i => { i with zeroed := true } else d
    if i.check.isSome || (i.enabled && i.swap) then d.modInst blk n fun i => { i with heldDisable := true }
    else if !i.enabled then d.modInst blk n fun i => { i with enable := false }
    else if i.disabling then d
    else d.disableActs blk n

/-- BLOCK_DISABLE_DONE: the work in flight has finished. -/
def Dev.blockDisableDone (d : Dev) (blk n : Nat) : Dev := if (d.inst blk n).disabling then d.outOfService blk n else d

/-- A write of 0 that was held acts now. -/
def Dev.heldActs (d : Dev) (blk n : Nat) : Dev :=
  let i := d.inst blk n
  if !i.heldDisable then d
  else
    let d := d.modInst blk n fun i => { i with heldDisable := false }
    if i.enabled then d.disableActs blk n else d

/-- BLOCK_DRAIN: a write of DRAIN. -/
def Dev.blockDrain (d : Dev) (blk n : Nat) (v : Bool) : Dev :=
  if (d.inst blk n).disabling then d
  else d.modInst blk n fun i => { i with drain := v, drained := i.drained && v }

/-- DRAINED: the last work in flight has ended. -/
def Dev.blockDrained (d : Dev) (blk n : Nat) : Dev :=
  d.modInst blk n fun i => { i with drained := i.drain && !i.disabling }

/-! ### Coming into service (R58) -/

/-- BLOCK_ENABLE: a write of 1 to ENABLE starts the check. After a UNIT reaction it has no effect, and an instance that a
BLOCK reaction put in safe state needs a write of 0 first (R426). -/
def Dev.blockEnable (d : Dev) (blk n : Nat) : Dev :=
  let i := d.inst blk n
  if i.enabled || i.busy || (i.safe && (d.spotter.unitSafe || !i.zeroed)) then d
  else
    let d := if blk = 0x17 then d.fset Reg.TTH_LINK.STATE 1 n else d
    d.modInst blk n fun i => { i with enable := true, check := some .enable }

/-- JOURNAL finds its superblocks (R224). -/
def Dev.journalStarts (d : Dev) : Dev :=
  let d := d.showSb
  if d.jnl.active.isSome then
    let first := d.jnl.sbField 16 8
    let no := d.jnl.mram.read (ringSlot first + 16) 8
    let d := { d with jnl := { d.jnl with ckptNo := no, ckptDone := no } }
    let d := (d.fset Reg.JNL_TAIL.JSEQ first).fset Reg.JNL_HEAD.JSEQ (ringHead d.jnl.mram ringLen first)
    (d.fset Reg.JNL_PASSES.COUNT (d.jnl.sbField 48 8)).showRing
  else ((d.fset Reg.JNL_HEAD.JSEQ 1).fset Reg.JNL_TAIL.JSEQ 1).post 0x1B 0 0x51 0

/-- LEDGER loads its tenant table and shows the composed parts (R169, R174). -/
def Dev.ledgerStarts (d : Dev) : Dev :=
  let c := d.cycle
  let d := { d with ledger := { tenants := d.tenantTable.1, confirmed := c, confirmed1 := c, confirmed2 := c } }
  let (g1, g2) := composed d.trMax
  ((d.fset Reg.LEDGER_PARTS.TR_MAX d.trMax).fset Reg.LEDGER_PARTS.G1_READ g1).fset Reg.LEDGER_PARTS.G2_READ g2

/-- ROPE starts, paired when BELAY is enabled (R69), with network time monotonic from now on (R301) and the rope number
continued (R180). -/
def Dev.ropeStarts (d : Dev) : Dev :=
  let d := d.fset Reg.ROPE_PAIR.PAIRED (b2n (d.isEnabled 0x19))
  let d := if d.tim.mono then d else d.ropeContinue d.belay.ropeHigh
  let d := Dev.fset { d with tim := { d.tim with mono := true } } Reg.TIM_STATUS.MONO 1
  let d := d.fset Reg.ROPE_CUR_CYCLE.CYCLE (d.now / max 1 d.cycleNs)
  d.modBelay fun b => { b with nextSeal := d.cycle }

/-- SCHED reads its tables (R358, R361) and arms its gate list (R367). -/
def Dev.schedStarts (d : Dev) : Dev :=
  let ten := d.fget Reg.SCH_TEN_TAB.ADDR * 4096
  let pol := d.fget Reg.SCH_POL_TAB.ADDR * 4096
  let ts := (touched d.mem.dram ten 32 4096).foldl (fun (t : Tab Shaper) n => match d.readShaper ten n with
    | .ok (some s) => Tab.put t n s
    | _ => t) []
  let ps := (touched d.mem.dram pol 32 16384).foldl (fun (t : Tab Policer) n => match d.readPolicer pol n with
    | .ok (some p) => if n = 0 then t else Tab.put t n p
    | _ => t) []
  Dev.gateArm { d with sch := { d.sch with ten := ts, pol := ps } }

/-- MEDIA loads its sled records, thresholds and gate list (R246, R251, R258). -/
def Dev.mediaStarts (d : Dev) : Dev :=
  let d := { d with media := { d.media with sleds := d.sledTable.1, thresholds := d.readThresholds } }
  (d.acceptGates (d.readGates (d.fget Reg.MDA_GL_TAB.ADDR * 4096)) true).showSleds

/-- STRIPE takes sleds without a link in service as ABSENT (R271). -/
def Dev.stripeStarts (d : Dev) : Dev :=
  let d := d.sledList.foldl (fun (d : Dev) n => if d.linkUp n then d else d.sledAbsent n) d
  d.showBands.showSpare

/-- A Tether link is in service, with what its anchor says of itself (R229, R230). -/
def Dev.tetherStarts (d : Dev) (n : Nat) (o : CheckObs) : Dev :=
  let d := d.trained n o
  { d with links := Tab.put d.links n { lastStatus := d.now } }

/-- PARSE copies the graph image of a generation (R307, R310). -/
def Dev.copyGraph (d : Dev) (g : Nat) : Dev :=
  { d with cls := { d.cls with graphs := Tab.put d.cls.graphs g (d.readGraph (d.fget Reg.PRS_GRAPH.ADDR * 4096)) } }

/-- What entering service does to a block beyond its header. -/
def Dev.startBlock (d : Dev) (blk n : Nat) (o : CheckObs) : Dev :=
  let g := (d.inst blk n).active
  match blk with
  | 0x03 => if d.fget Reg.SPT_ST_CTRL.RUN = 1 then d.selfTestPass else d
  | 0x05 => { d with tally := { d.tally with enabledNs := d.now } }
  | 0x08 => (List.range 4).foldl (fun (d : Dev) s => d.linkChange (4 * n + s) true) d
  | 0x09 => { d with tim := { ppsIn := d.tim.ppsIn } }
  | 0x0A => if n = 0 then d.copyGraph g else d
  | 0x0B => if n = 0 then (d.clsCopy g).showRules else d
  | 0x0C | 0x0D => d.showCtx blk
  | 0x0E => d.showSwt
  | 0x0F => d.schedStarts
  | 0x10 => d.loadTables
  | 0x11 => d.ledgerStarts
  | 0x12 => d.ropeStarts
  | 0x13 => d.applyInits.activateImage g
  | 0x14 => (d.fset Reg.MAP_CAP.BLOCKS d.usableNow).showAlloc
  | 0x15 => d.stripeStarts
  | 0x16 => d.mediaStarts
  | 0x17 => d.tetherStarts n o
  | 0x19 => d.blyEnabled
  | 0x1A => { d with dmc := {} }
  | 0x1B => d.journalStarts
  | 0x1C => { d with mgmt := { d.mgmt with laneUp := decide (d.fget Reg.MGMT_CTRL.LANE_EN = 1) } }
  | _ => d

/-- A check has failed: the refusal is recorded (R58, R65); PARSE names the node at fault (R307). -/
def Dev.refuse (d : Dev) (blk n : Nat) (r : Nat × Nat) : Dev :=
  let d := if r.1 = 0x0A20 then
      d.fset Reg.PRS_GFAIL.NODE (((d.activateShadow blk n).stagedGraphFault).getD 0)
    else d
  d.modInst blk n fun i => { i with check := none, refused := true, refReason := r.1, refOff := r.2 }

/-- SPT_SAFE drops a block none of whose instances is in safe state. -/
def Dev.leaveSafe (d : Dev) (blk n : Nat) : Dev :=
  let d := d.modInst blk n fun i => { i with safe := false, zeroed := false, quit := false }
  if allInsts.any fun p => decide (p.1 = blk) && (d.inst p.1 p.2).safe then d
  else d.fset Reg.SPT_SAFE.BLOCKS (d.fget Reg.SPT_SAFE.BLOCKS &&& (2 ^ 29 - 1 - 2 ^ blk))

/-- The check of an enable has passed: the staged values become active as generation ACTIVE + 1 (R58). -/
def Dev.intoService (d : Dev) (blk n : Nat) (o : CheckObs) : Dev :=
  let d := d.activateShadow blk n
  let d := d.modInst blk n fun i =>
    { i with check := none, refused := false, enabled := true, active := (i.active + 1) % 65536
             staged := (i.active + 2) % 65536, drained := false }
  let d := if (d.inst blk n).safe then d.leaveSafe blk n else d
  (d.startBlock blk n o).retargetAll (usedDoms blk n)

/-- What DMC finds in its slots before its check: after a warm reset that kept DRAM it exits self-refresh in place of
training, so no channel fails (R52). An instance whose check then fails on power, a dependency, a zero or a range keeps
what was found: the spec does not say whether it is looked for first (DESIGN CHOICE, log 81). -/
def Dev.dmcFinds (d : Dev) (o : CheckObs) : CheckObs := if d.dmc.selfRefresh then { o with failing := 0 } else o

/-- A TETHER enable is refused: the link has failed where training did not end well, and is down otherwise (R230). -/
def Dev.notTrained (d : Dev) (n : Nat) (r : Nat × Nat) (o : CheckObs) : Dev :=
  let d := d.fset Reg.TTH_LINK.STATE (if r.1 % 256 ∈ [0x20, 0x21, 0x22] then 6 else 0) n
  if r.1 % 256 = 0x21 then d.fset Reg.TTH_IDENT.PROTO o.proto n else d

/-- CONSISTENCY_CHECK_END: the enable check ends (R58, R60). -/
def Dev.checkEnd (d : Dev) (blk n : Nat) (o : CheckObs) : Dev :=
  if (d.inst blk n).check ≠ some .enable then d
  else
    let d := if blk = 0x1A then d.dmcTrain (d.dmcFinds o) else d
    match d.checkResult blk n o with
    | some r =>
      let d := if blk = 0x17 then d.notTrained n r o else d
      ((d.refuse blk n r).modInst blk n fun i => { i with enable := false, heldDisable := false })
    | none => (d.intoService blk n o).heldActs blk n

/-! ### Generation swaps (R24, R25, R64 to R66) -/

/-- GEN_SWAP_REQUEST: a write of BLK_GEN.SWAP (R65, R66); PITCH's is a wake source (R453). -/
def Dev.swapRequest (d : Dev) (blk n : Nat) : Dev :=
  let i := d.inst blk n
  if !i.enabled || i.busy then d
  else
    let d := if blk = 0x13 then d.wake else d
    d.modInst blk n fun i => { i with swap := true, swapAt := d.now, check := some .swap }

/-- A block whose swap takes place at once (R64): SCHED without a gate list has no start to wait for. -/
def Dev.swapsAtOnce (d : Dev) (blk : Nat) : Bool :=
  decide (blk ≠ 0x11 ∧ blk ≠ 0x12 ∧ blk ≠ 0x13 ∧ blk ≠ 0x16 ∧ (blk ≠ 0x0F ∨ d.fget Reg.SCH_CFG.GATES_EN = 0))

/-- A swap that takes place at once does, unless the draining generations hold it back (R24, R25). -/
def Dev.swapNow (d : Dev) (blk n : Nat) : Dev :=
  let i := d.inst blk n
  if i.swapReady && d.swapsAtOnce blk && i.swapFits then
    let d := d.takeGen blk n true
    let g := (d.inst blk n).active
    let d := if blk = 0x0B ∧ n = 0 then ((d.clsCopy g).showRules).fset Reg.CLS_UPD_CTRL.PORTS 0
      else if blk = 0x0A ∧ n = 0 then d.copyGraph g else d
    d.heldActs blk n
  else d

/-- A swap whose check has passed prepares what it will activate. -/
def Dev.swapPrepares (d : Dev) (blk : Nat) : Dev :=
  match blk with
  | 0x13 => d.applyInits
  | 0x16 =>
    let a := field (d.shadow.get (regAddr 0x16 0 Reg.MDA_GL_TAB.ADDR.off)) 39 12 * 4096
    let base := d.reg 0x16 0 Reg.MDA_GL_BASE.NS.off
    let s := d.setReg 0x16 0 Reg.MDA_GL_BASE.NS.off (d.shadow.get (regAddr 0x16 0 Reg.MDA_GL_BASE.NS.off))
    (s.acceptGates (d.readGates a) false).setReg 0x16 0 Reg.MDA_GL_BASE.NS.off base
  | 0x0F => d.gateArm
  | _ => d

/-- GEN_SWAP_CHECK_END (R65). -/
def Dev.swapCheckEnd (d : Dev) (blk n : Nat) (o : CheckObs) : Dev :=
  if (d.inst blk n).check ≠ some .swap then d
  else
    match d.checkResult blk n o with
    | some r =>
      let d := (d.refuse blk n r).modInst blk n fun i => { i with swap := false }
      (d.setErr blk n errSwapRefused).heldActs blk n
    | none =>
      let d := d.modInst blk n fun i => { i with check := none, refused := false, swapReady := true }
      (d.swapPrepares blk).swapNow blk n

/-- A swap of LEDGER or ROPE takes place at the boundary `at_` that has come, when it was requested before it (R64, R66). -/
def Dev.boundarySwap (d : Dev) (blk at_ : Nat) : Dev :=
  let i := d.inst blk 0
  if i.swapReady && i.swapFits && decide (i.swapAt < at_) then (d.takeGen blk 0 true).heldActs blk 0 else d

/-- GEN_SWAP_TAKE: the swap point has come (R64). -/
def Dev.swapTake (d : Dev) (blk n : Nat) : Dev :=
  if !(d.inst blk n).swapReady then d
  else if blk = 0x11 ∨ blk = 0x12 then if d.now % max 1 d.cycleNs = 0 then d.boundarySwap blk d.now else d
  else if blk = 0x13 then
    match d.pitch.pause with
    | some p => if d.now % max 1 d.cycleNs = 0 ∧ cycLt p d.cycle = true then d.pitchSwap.heldActs blk n else d
    | none => d
  else if d.swapsAtOnce blk then d.swapNow blk n
  else if blk = 0x16 then d.mediaListStart.heldActs blk n
  else d.gateListStart.heldActs blk n

/-- GEN_DISCARD: a write of BLK_GEN.DISCARD (R66, R320). -/
def Dev.genDiscard (d : Dev) (blk n : Nat) : Dev :=
  if (d.inst blk n).swap then d
  else
    let d := d.discardShadow blk n
    if blk = 0x0B ∧ n = 0 then d.clsDiscard else d

/-- Does anything still refer to a draining generation? PITCH, PARSE and CLASS know it from their own state; of another
block the command says that the last reference has gone. -/
def Dev.genUsed (d : Dev) (blk g : Nat) : Bool :=
  if blk = 0x13 then d.pitchGenUsed g
  else if blk = 0x0A then d.cls.recirc.any fun w => w.pgen = g
  else if blk = 0x0B then (d.cls.recirc.any fun w => w.rgen = g) || d.cls.reseq.any fun p => p.1.rgen = g
  else false

/-- GEN_RELEASE: the reference count of a draining generation has reached zero (R24); a swap that waited for it takes place
(R25). -/
def Dev.genRelease (d : Dev) (blk n g : Nat) : Dev :=
  if !(d.inst blk n).draining.contains g || d.genUsed blk g then d
  else
    let d := d.modInst blk n fun i => { i with draining := i.draining.erase g }
    let d := if blk = 0x13 then d.releaseImage g
      else if blk = 0x0A ∧ n = 0 then { d with cls := { d.cls with graphs := Tab.del d.cls.graphs g } }
      else if blk = 0x0B ∧ n = 0 then d.clsReap else d
    d.swapNow blk n

end Sys2Proof.Machine
end

