-- ==== Sys2Proof/Machine/Bus.lean ====
section
/-! DEFINITION. The register space as its three paths reach it (R53 to R56): what an address names, reads with their side
effects and writes by access type (R8 to R11), the writes that start something, and the register-access service
(R71 to R74, R164). -/

namespace Sys2Proof.Machine

/-- What an address names (R53, R54). -/
inductive Target where
  /-- A register of an instance. -/
  | reg (blk n off : Nat)
  /-- No register, or a misaligned address, in a window of block `blk`: the error sets in instance `n`. -/
  | unmapped (blk n : Nat)
  /-- No block's window. -/
  | outside
  deriving DecidableEq, Repr

/-- Decode an address of the register space. -/
def addrTarget (a : Nat) : Target :=
  let w := a / 0x100000
  let slot := (a / 0x10000) % 16
  let off := a % 0x10000
  if w = 0x97 then
    if 8 ≤ slot then .unmapped 0x17 0 else if mapped 0x17 (16 + slot) off then .reg 0x17 (16 + slot) off else .unmapped 0x17 (16 + slot)
  else if instCount w = 0 then .outside
  else if min 16 (instCount w) ≤ slot then .unmapped w 0
  else if mapped w slot off then .reg w slot off
  else .unmapped w slot

/-- The effect of an access that R54 does not accept: BLK_ERR.ACCESS in the target block. -/
def Dev.badAccess (d : Dev) (a : Nat) : Dev :=
  match addrTarget a with
  | .reg blk n _ => d.setErr blk n errAccess
  | .unmapped blk n => d.setErr blk n errAccess
  | .outside => d

/-- BAD_ACCESS: an access of `width` bytes at `a` that R54 does not accept; any other is no event of this row. -/
def Dev.badBus (d : Dev) (a width : Nat) : Dev :=
  if width = 8 ∧ a % 8 = 0 ∧ (match addrTarget a with
    | .reg .. => true
    | _ => false) = true then d
  else d.badAccess a

/-- What a command does to an instance, when the block has that instance. -/
def Dev.onInst (d : Dev) (blk n : Nat) (f : Dev → Dev) : Dev := if n < instCount blk then f d else d

/-! ### Reads -/

/-- What a read changes (R8): RC fields return to their reset values; a TIM_TXTS read removes the oldest stamp (R303); a
read of SPT_FAULTS takes the notice for Warden (R111). -/
def Dev.readActs (d : Dev) (who : Path) (blk n off : Nat) : Dev :=
  if blk = 9 ∧ 0x240 ≤ off ∧ off < 0x260 then
    let p := (off - 0x240) / 8
    { d with tim := { d.tim with txts := Tab.modify d.tim.txts [] p (·.drop 1) } }
  else if blk = 5 ∧ off = Reg.TLY_WIN_PEAK.RX_KIB.off then
    { d with tally := { d.tally with peak := Tab.del d.tally.peak (d.fget Reg.TLY_WIN_SEL.PORT) } }
  else
    let d := if blk = 3 ∧ off = Reg.SPT_FAULTS.ALL.off then { d with warden := { d.warden with notice := false } } else d
    let d := if blk = 0x13 ∧ off = Reg.PITCH_LOAD.STATE.off then d.loadGoesOn else d
    let d := match who with
      | .core k => if blk = 2 ∧ off = Reg.WDN_MBOX.DATA.off then
          { d with warden := { d.warden with cores := Tab.modify d.warden.cores {} k fun c => { c with mbox := false } } }
        else d
      | _ => d
    match rowAt blk n off with
    | none => d
    | some r =>
      r.flds.foldl (fun (d : Dev) (f : Fld) =>
        if f.acc = .rc then d.setReg blk n off (setField (d.reg blk n off) f.hi f.lo f.rst) else d) d

/-- A read: the word, and the state after it. -/
def Dev.readBus (d : Dev) (who : Path) (a : Nat) : Word × Dev :=
  match addrTarget a with
  | .reg blk n off => (d.view blk n off, d.readActs who blk n off)
  | .unmapped blk n => (0, d.setErr blk n errAccess)
  | .outside => (0, d)

/-! ### Writes -/

/-- Bits of a register that `ownWrite` writes itself, in place of the access type's plain rule. -/
def ownBits (blk off : Nat) : Word :=
  if (blk = 0 ∧ off ∈ [0x228, 0x230, 0x238]) ∨ (blk = 2 ∧ off ∈ [0x200, 0x230]) ∨ (blk = 5 ∧ (off ∈ [0x250, 0x298] ∨ 0x380 ≤ off)) ∨
      (blk = 9 ∧ off ∈ [0x218, 0x220]) ∨ (blk = 0x10 ∧ off = 0x240) then maskOf 63 0
  else if blk = 0x19 ∧ off = 0x200 then maskOf 0 0
  else if blk = 0x0B ∧ off = 0x290 then maskOf 15 0
  else 0

/-- A write by access type (R8, R9, R66): RW fields, and LK fields while ENABLE is 0, take the value; a W1C bit clears, and
a W1S bit sets; ST fields go to the shadow; other fields ignore it. -/
def Dev.plainWrite (d : Dev) (blk n off : Nat) (r : Row) (v : Word) : Dev :=
  let i := d.inst blk n
  let old := d.reg blk n off
  let lk := r.mask (· = .lk)
  let st := r.mask (· = .st)
  let m := (r.mask (· = .rw) ||| (if i.enable then 0 else lk)) &&& ~~~(ownBits blk off)
  let w1c := r.mask (· = .w1c) &&& ~~~(ownBits blk off)
  let w1s := r.mask (· = .w1s)
  let d := d.setReg blk n off (((old &&& ~~~m) ||| (v &&& m) ||| (v &&& w1s)) &&& ~~~(v &&& w1c))
  let d := if i.enable ∧ (v ^^^ old) &&& lk ≠ 0 then d.setErr blk n errLkWrite else d
  if st = 0 then d
  else if i.swap then d.setErr blk n errStageBusy
  else { d with shadow := d.shadow.set (regAddr blk n off) ((d.shadowReg blk n off &&& ~~~st) ||| (v &&& st)) }

/-- A write of the common header (R57, R58, R61, R62, R65, R66). -/
def Dev.headerWrite (d : Dev) (blk n off : Nat) (v : Word) : Dev :=
  if off = 0x08 then
    let d := d.blockDrain blk n (v.getLsbD 1)
    if v.getLsbD 0 then d.blockEnable blk n else d.blockDisable blk n
  else if off = 0x20 then d.modInst blk n fun i => { i with err := i.err &&& ~~~v }
  else if off = 0x28 then d.modInst blk n fun i => { i with errMask := v }
  else if off = 0x30 then d.requestBlock blk n (field v 2 0)
  else if off = 0x40 then
    let d := if v.getLsbD 36 then d.swapRequest blk n else d
    if v.getLsbD 37 then d.genDiscard blk n else d
  else d

/-- WDN_CORE_CTRL: a core whose RUN bit rises starts at index 0, and one whose bit falls halts (R112). -/
def Dev.coreCtrl (d : Dev) (run : Nat) : Dev :=
  let was := d.fget Reg.WDN_CORE_CTRL.RUN
  let d := d.fset Reg.WDN_CORE_CTRL.RUN (was &&& run)
  (List.range 4).foldl (fun (d : Dev) k => if bitOf run k && !bitOf was k then d.coreStart k else d) d

/-- CORE_RUN: one core's RUN bit is written. -/
def Dev.coreRun (d : Dev) (n : Nat) (run : Bool) : Dev :=
  if 3 < n then d
  else
    let was := d.fget Reg.WDN_CORE_CTRL.RUN
    let off := if bitOf was n then was - 2 ^ n else was
    d.coreCtrl (if run then off + 2 ^ n else off)

/-- WDN_MBOX: event 0x0001 with the value's low 32 bits, and the doorbell of every core (R70, R111). -/
def Dev.mboxWrite (d : Dev) (v : Word) : Dev :=
  let d := (d.fset Reg.WDN_MBOX.DATA v.toNat).post 2 0 0x0001 (field v 31 0)
  { d with warden := { d.warden with cores := (List.range 4).foldl (fun (t : Tab Core) k =>
      Tab.modify t {} k fun c => { c with mbox := true }) d.warden.cores } }

/-- The smallest reaction of each class that SPT_REACT may hold (R424). -/
def reactHeld (v : Nat) : Nat :=
  (List.range 32).foldl (fun acc c =>
    let r := bitsOf v (2 * c + 1) (2 * c)
    acc + (if fixedClass c then max r (defaultReaction c) else r) * 4 ^ c) 0

/-- HOSTQ_TEN_FLAGS of the selected tenant. -/
def Dev.tenFlags (d : Dev) (on : Bool) : Dev :=
  let t := d.fget Reg.HOSTQ_TEN_SEL.TENANT
  let rest := d.hostq.visible.filter fun x => x ≠ t
  { d with hostq := { d.hostq with visible := if on then (rest ++ [t]).insertionSort (· ≤ ·) else rest } }

/-- CAMP_SAVE: a write while a domain's state lies in the area is ignored and sets ACCESS (R448). -/
def Dev.saveWrite (d : Dev) (v : Word) : Dev :=
  if d.camp.doms.any fun p => p.2.saved then d.setErr 0 0 errAccess else d.fset Reg.CAMP_SAVE.BASE_MIB (field v 31 0)

/-- Writes with an effect beyond the access types, in CAMP, ANCHOR, WARDEN, SPOTTER, MGMT, TIME, TALLY and CAIRN. -/
def Dev.ownWriteA (d : Dev) (blk off : Nat) (v : Word) : Dev :=
  let go := v.getLsbD 63
  if blk = 0 then
    if off = 0x208 then d.warmRequest (field v 15 0)
    else if off = 0x228 then d.requestDom (d.fget Reg.CAMP_DOM_SEL.DOMAIN) (field v 2 0)
    else if off = 0x230 then d.saveWrite v
    else if off = 0x238 then d.requestPs (field v 1 0)
    else if off = 0x248 then d.fset Reg.CAMP_PFAIL_CFG.FILTER (max 1 (min 100 (field v 7 0)))
    else d
  else if blk = 1 then if off = 0x230 ∧ go then d.ancStart (field v 7 0) else d
  else if blk = 2 then
    if off = 0x200 then d.coreCtrl (field v 3 0)
    else if off = 0x208 then d.fset Reg.WDN_PATH_POLICY.WRITE_ALLOW (field v 28 2 * 4 + field v 0 0)
    else if off = 0x228 then d.mboxWrite v
    else if off = 0x230 then d.wdogWrite (field v 15 0) (v.getLsbD 16)
    else d
  else if blk = 3 then
    if off = 0x208 then d.fset Reg.SPT_REACT.REACT (reactHeld v.toNat)
    else if off = 0x230 ∧ go then d.selfTestPass
    else if off = 0x240 ∧ go then d.sptInject (field v 15 8) (field v 7 0)
    else d
  else if blk = 4 then if off = 0x218 ∧ go then d.crnGo (field v 57 56) else d
  else if blk = 5 then
    if off = 0x250 then d.freezeWrite (v.getLsbD 0) (v.getLsbD 1)
    else if off = 0x298 then d.thrWrite v
    else if 0x380 ≤ off then d.sampWrite ((off - 0x380) / 8) v false
    else d
  else if blk = 9 then
    if off = 0x210 then d.timStep v else if off = 0x218 then d.timFreq v else if off = 0x220 then d.timSlew v else d
  else if blk = 0x1C then
    if off = 0x300 then d.rcvData v else if off = 0x308 ∧ v.getLsbD 0 then d.rcvBoot else d
  else d

/-- Such writes in the other blocks. -/
def Dev.ownWriteB (d : Dev) (blk off : Nat) (v : Word) : Dev :=
  let go := v.getLsbD 63
  if blk = 0x0B then
    if off = 0x290 then
      if go then d.updLoad (field v 31 16) (field v 15 0)
      else d.fset Reg.CLS_UPD_CTRL.PORTS (d.fget Reg.CLS_UPD_CTRL.PORTS ||| field v 15 0)
    else d
  else if blk = 0x0C then
    if off = 0x220 ∧ go then
      match field v 58 56 with
      | 1 => d.xptOpen
      | 2 => d.xptClose (field v 17 0)
      | 3 => d.xptMove (field v 17 0)
      | _ => d
    else d
  else if blk = 0x0D then
    if off = 0x240 ∧ go then
      match field v 58 56 with
      | 1 => d.strBind (field v 17 0) (field v 45 32)
      | 2 => d.strClose (field v 17 0)
      | _ => d
    else d
  else if blk = 0x0F then
    if off = 0x220 ∧ go then d.shaperUpdate (field v 11 0)
    else if off = 0x228 ∧ go then d.polUpdate (field v 13 0)
    else if off = 0x250 ∨ off = 0x258 then
      let held := (List.range 8).foldl (fun acc j => acc + min 100 (field v (8 * j + 7) (8 * j)) * 256 ^ j) 0
      d.setReg 0x0F 0 off (BitVec.ofNat 64 held)
    else d
  else if blk = 0x10 then
    if off = 0x228 ∧ go then d.nsUpdate (field v 13 0) else if off = 0x240 then d.tenFlags (v.getLsbD 0) else d
  else if blk = 0x11 then if off = 0x218 ∧ go then d.tenUpdate (field v 11 0) else d
  else if blk = 0x13 then
    if off = 0x218 ∧ v.getLsbD 0 then d.pitchLoad
    else if off = 0x268 ∧ v.getLsbD 0 then d.mgmtPost (field v 42 32)
    else d
  else if blk = 0x15 then if off = 0x258 ∧ go then d.sledCmd (field v 9 8) (field v 4 0) else d
  else if blk = 0x16 then if off = 0x268 ∧ go then d.sledReload (field v 4 0) else d
  else if blk = 0x17 then if off = 0x260 ∧ go then d.claimCmd (field v 62 32) (field v 31 8) (field v 7 0) else d
  else if blk = 0x18 then
    if off = 0x208 ∧ go then d.keyLoad (v.getLsbD 14) (field v 13 0)
    else if off = 0x230 ∧ go then d.keyDestroy (v.getLsbD 15) (v.getLsbD 14) (field v 13 0)
    else d
  else if blk = 0x19 then
    if off = 0x200 then
      if v.getLsbD 0 then
        let (f, d) := d.takeFree
        d.blyLinkEnable (f.toNat % 4)
      else d.blyLinkDisable
    else if off = 0x260 ∧ go then
      match field v 57 56 with
      | 1 => d.blyHandover
      | 2 => d.fenceNow
      | _ => d
    else d
  else if blk = 0x1B then if off = 0x220 ∧ go then d.ckptStart else d
  else d

/-- A write of a register of an instance. -/
def Dev.writeReg (d : Dev) (blk n off : Nat) (v : Word) : Dev :=
  if inHeader off then d.headerWrite blk n off v
  else
    match rowAt blk n off with
    | none => d
    | some r =>
      let d := d.plainWrite blk n off r v
      if blk < 0x0A ∨ blk = 0x1C then d.ownWriteA blk off v else d.ownWriteB blk off v

/-- May a path write this block (R55)? The recovery registers have a rule of their own (R433). -/
def Dev.mayWrite (d : Dev) (who : Path) (blk off : Nat) : Bool :=
  match who with
  | .core _ => true
  | _ =>
    (decide (blk ≠ 1) && bitOf (d.fget Reg.WDN_PATH_POLICY.WRITE_ALLOW) blk) ||
      (decide (who = .lane) && d.recoveryOpen && decide (blk = 0x1C ∧ (off = 0x300 ∨ off = 0x308)))

/-- A write over a path: a denied one changes nothing. -/
def Dev.writeBus (d : Dev) (who : Path) (a : Nat) (v : Word) : Dev :=
  match addrTarget a with
  | .reg blk n off => if d.mayWrite who blk off then d.writeReg blk n off v else d
  | .unmapped blk n => d.setErr blk n errAccess
  | .outside => d

/-! ### The register-access service -/

/-- A response: its header, then data (R71). -/
def rasHead (op st count seq addr : Nat) : List Byte :=
  leBytes (1 + (op ||| 0x80) * 256 + st * 65536 + count * 2 ^ 24) 4 ++ leBytes seq 4 ++ leBytes addr 8

/-- Read `n` registers from `a` in ascending order, up to the first failure: how many were read, their data, the failure's
status. -/
def Dev.rasReads (d : Dev) (who : Path) (a : Nat) : Nat → Nat × List Byte × Nat × Dev
  | 0 => (0, [], 0, d)
  | n + 1 =>
    match addrTarget a with
    | .reg .. =>
      let (w, d) := d.readBus who a
      let (k, bs, st, d) := Dev.rasReads d who (a + 8) n
      (k + 1, leBytes w.toNat 8 ++ bs, st, d)
    | _ => (0, [], 1, d.badAccess a)

/-- Write the words in ascending order, up to the first failure. -/
def Dev.rasWrites (d : Dev) (who : Path) (a : Nat) : List Word → Nat × Nat × Dev
  | [] => (0, 0, d)
  | w :: ws =>
    match addrTarget a with
    | .reg blk n off =>
      if d.mayWrite who blk off then
        let (k, st, d) := Dev.rasWrites (d.writeReg blk n off w) who (a + 8) ws
        (k + 1, st, d)
      else (0, 3, d)
    | _ => (0, 1, d.badAccess a)

/-- Serve a request that is not a repeat (R72): the response. -/
def Dev.rasServe (d : Dev) (who : Path) (req : List Byte) : List Byte × Dev :=
  let get := fun (i n : Nat) => leAt req i n
  let op := get 1 1
  let count := get 3 1
  let a := get 8 8
  let fail := fun (st : Nat) => (rasHead op st 0 (get 4 4) a, d)
  let badHead := get 0 1 ≠ 1 ∨ ¬ (op = 1 ∨ op = 2) ∨ count = 0 ∨ 64 < count
  let badLen := req.length ≠ if op = 2 then 16 + 8 * count else 16
  if badHead ∨ badLen then fail 4
  else if a % 8 ≠ 0 then fail 2
  else if op = 1 then
    let (k, bs, st, d) := d.rasReads who a count
    (rasHead op st k (get 4 4) a ++ bs, d)
  else
    let ws := (List.range count).map fun i => BitVec.ofNat 64 (get (16 + 8 * i) 8)
    let (k, st, d) := d.rasWrites who a ws
    (rasHead op st k (get 4 4) a, d)

/-- Remember a source's last request, most recent first, at most 16 (R74). -/
def remember (m : List RasMemo) (x : RasMemo) : List RasMemo := (x :: m.filter fun y => y.source ≠ x.source).take 16

/-- RAS_REQUEST: a datagram on the management lane from address `ip` and port `port`, to `dst` and `dport` (R71 to R74).
Before MGMT is enabled the lane of BOOT_MODE 1 takes its address from the fuses and admits every source (R433). -/
def Dev.rasRequest (d : Dev) (ip port dst dport : Nat) (req : List Byte) : Dev :=
  let on := d.on 0x1C && decide (d.fget Reg.MGMT_CTRL.LANE_EN = 1)
  let len := min 32 (d.fget Reg.MGMT_RAS_ALLOW.PREFIX_LEN)
  let addressed := if on then decide (dst = d.fget Reg.MGMT_RAS.IPV4 ∧ dport = d.fget Reg.MGMT_RAS.UDP_PORT)
    else decide (dst = field (d.fuseW 13) 31 0 ∧ dport = 0x1D2C)
  let admitted := !on || decide (ip / 2 ^ (32 - len) = d.fget Reg.MGMT_RAS_ALLOW.PREFIX / 2 ^ (32 - len))
  if !d.mgmt.laneUp || !addressed || !admitted then d
  else
    let src := ip * 65536 + port
    match d.mgmt.lane.find? (fun m => decide (m.source = src ∧ m.seq = leAt req 4 4)) with
    | some m => { d with mgmt := { d.mgmt with laneTx := m.response, lane := remember d.mgmt.lane m } }
    | none =>
      let (resp, d) := d.rasServe .lane req
      let memo : RasMemo := { source := src, seq := leAt req 4 4, response := resp }
      { d with mgmt := { d.mgmt with laneTx := resp, lane := remember d.mgmt.lane memo } }

/-- RAS_MEMORY_EXPIRY: 10 s after its last request a requester is forgotten (R74). -/
def Dev.rasExpiry (d : Dev) (who : Path) (source : Nat) : Dev :=
  match who with
  | .lane => { d with mgmt := { d.mgmt with lane := d.mgmt.lane.filter fun m => m.source ≠ source } }
  | .mctp => { d with mgmt := { d.mgmt with mctp := d.mgmt.mctp.filter fun m => m.source ≠ source } }
  | .core _ => d

/-- The NVMe-MI status: Success for a request that holds a header and was parsed; the spec states none for one that was not,
a free value (R164, log 101). -/
def Dev.miStatus (d : Dev) (req : List Byte) : Dev :=
  let (v, d) := if 16 ≤ req.length then (0, d) else d.takeFree
  { d with mgmt := { d.mgmt with mctpStatus := v.toNat % 256 } }

/-- NVME_MI_VENDOR_C0 (R164): a request from MCTP endpoint `eid`, over the lane or over I3C. -/
def Dev.nvmeMi (d : Dev) (eid : Nat) (overLane : Bool) (req : List Byte) : Dev :=
  let path := if overLane then d.fget Reg.MGMT_CTRL.LANE_EN else d.fget Reg.MGMT_CTRL.I3C_EN
  if !d.on 0x1C || decide (path = 0) then d
  else
    match d.mgmt.mctp.find? (fun m => decide (m.source = eid ∧ m.seq = leAt req 4 4)) with
    | some m => { d.miStatus req with mgmt := { (d.miStatus req).mgmt with mctpTx := m.response, mctp := remember d.mgmt.mctp m } }
    | none =>
      let (resp, d) := d.rasServe .mctp req
      let memo : RasMemo := { source := eid, seq := leAt req 4 4, response := resp }
      { d.miStatus req with mgmt := { (d.miStatus req).mgmt with mctpTx := resp, mctp := remember d.mgmt.mctp memo } }

end Sys2Proof.Machine
end

