-- ==== Sys2Proof/Machine/CycleOps.lean ====
section
/-! DEFINITION. Operations that span blocks: the commit-cycle boundary (R14, R64, R130), Firmware Commit (R155, R162), the
calls of HOSTQ (R100), the health events of R158, and what follows at once whatever a command changed. -/

namespace Sys2Proof.Machine

/-- COMMIT_CYCLE_BOUNDARY: network time reaches the next multiple of the cycle length (or, when it has jumped, the cycle it
stands in); ROPE and LEDGER take their swaps, tokens refill, BELAY and PITCH take their steps of the boundary. -/
def Dev.commitBoundary (d : Dev) : Dev :=
  let len := max 1 d.cycleNs
  let c := d.now / len
  let d := if c % 2 ^ 48 = d.cycle then d.jumpTo ((c + 1) * len) else d
  let at_ := d.now / len * len
  let d := (d.boundarySwap 0x11 at_).boundarySwap 0x12 at_
  let d := d.fset Reg.ROPE_CUR_CYCLE.CYCLE (d.now / max 1 d.cycleNs)
  let d := d.ledgerBoundary.blyBoundary.pitchBoundary
  d.heldActs 0x13 0

/-! ### Firmware Commit -/

/-- Load and swap the program image of a bundle without a reset: a failed load completes the command with its reason. While
another load or swap is under way the command waits, since R150 lists no status for it (DESIGN CHOICE, log 92). -/
def Dev.commitNow (d : Dev) (a : AdmIn) (slot : Nat) (program : List Byte) : Dev :=
  if d.loadBusy then d
  else
    let d := (d.beginLoad none program).pitchLoadDone
    if d.pitch.staged.isNone then d.admDone a { cqe 1 0x07 with dw0 := d.fget Reg.PITCH_LOAD.FAIL_REASON }
    else
      let d := d.swapRequest 0x13 0
      Dev.admDone { d with hostq := { d.hostq with fw := { d.hostq.fw with swapping := some slot } } } a (cqe 0 0 false)

/-- What the format or the signature of a bundle's images lacks: the program image's by the load's reason codes, the Warden
image's by those of the boot (R162, R430). -/
def Dev.bundleBad (d : Dev) (program warden : List Byte) : Option Nat :=
  match readImage program with
  | .error r => some r
  | .ok _ =>
    if !d.imageAuthentic program then some 0x1305
    else match d.bootImage warden with
      | .error r => some r
      | .ok _ => none

/-- FIRMWARE_COMMIT: commit actions 000b to 011b on slots 0 to 2; slot 0 is the slot that does not hold the active bundle. -/
def Dev.fwCommit (d : Dev) (src : Src) : Dev :=
  d.admin src 0x10 fun a d =>
    let act := bitsOf (a.dw 10) 5 3
    let fw := d.hostq.fw
    let named := bitsOf (a.dw 10) 2 0
    let slot := if named = 0 then (if fw.active = 1 then 2 else 1) else named
    let next (d : Dev) : Dev := { d with hostq := { d.hostq with fw := { d.hostq.fw with nextReset := some slot } } }
    if 2 < named then d.admDone a (cqe 1 0x06)
    else if 3 < act then d.admDone a (cqe 0 0x02)
    else if act = 2 then
      if (Tab.look fw.slots slot).isSome then (next d).admDone a (cqe 0 0 false) else d.admDone a (cqe 1 0x06)
    else
      match Config.bundleParts fw.buffer with
      | none => d.admDone a { cqe 1 0x07 with dw0 := 0x1324 }
      | some (program, warden) =>
        match d.bundleBad program warden with
        | some r => d.admDone a { cqe 1 0x07 with dw0 := r }
        | none =>
          let b : Bundle := { program := program, warden := warden }
          let d := { d with hostq := { d.hostq with fw := { fw with slots := Tab.put fw.slots slot b } } }
          if act = 0 then d.admDone a (cqe 0 0 false)
          else if act = 1 then (next d).admDone a (cqe 0 0 false)
          else if (measureOf warden).shake = d.measure 3 then d.commitNow a slot program
          else (next d).admDone a (cqe 1 0x10)

/-! ### The calls of HOSTQ (R100) -/

/-- The fetch call answers with the submission entry of the asking run's command; the spec gives the call and not its layout
(log 48). -/
def Dev.hostqFetch (d : Dev) (id : Nat) : Dev :=
  d.serveIf id 9 (fun _ => true) fun a d =>
    match d.tag a.tagKey with
    | some t => d.reply id 0 0 (padWords 8 t.sqe)
    | none => d.reply id 1

/-- The completion call posts `c` for the asking run's command. -/
def Dev.hostqPost (d : Dev) (id : Nat) (c : Cqe) : Dev :=
  d.serveIf id 9 (fun _ => true) fun a d =>
    match d.tag a.tagKey with
    | some _ => (d.postCompletion a.tagKey c).reply id 0
    | none => d.reply id 1

/-! ### Health events (R158) -/

/-- The composite temperature may have moved: a controller whose over threshold of FID 04h it rises to, or whose under
threshold it falls to, has the event. The spec
does not say how the composite is formed, so it is a free value. -/
def Dev.tempMoves (d : Dev) : Dev :=
  let old := d.hostq.temp
  let (v, d) := d.takeFree
  let new := v.toNat % 65536
  let d := { d with hostq := { d.hostq with temp := new } }
  d.raiseAens (fun c => decide ((old < c.temp ∧ c.temp ≤ new) ∨ (new ≤ c.tempUnder ∧ c.tempUnder < old))) 1 1 2

/-- Spare blocks fall below 10 %, or stand above it again. -/
def Dev.spareWatch (d : Dev) : Dev :=
  let low := d.on 0x15 && decide (d.fget Reg.STRIPE_SPARE.PCT < 10)
  if low = d.hostq.spareLow then d
  else
    let d := { d with hostq := { d.hostq with spareLow := low } }
    if low then d.raiseAens (fun _ => true) 1 2 2 else d

/-! ### What follows at once -/

/-- After a command that may raise a fault, or touch a claim, a hard usage limit, the spare, or traffic for the partner. -/
def Dev.settle (d : Dev) : Dev := d.abandon.closeHard.spareWatch.anaWatch.belaySettle

/-- SUBPORT_LINK_CHANGE: the link's own effects, and the transports' event for the contexts of a sub-port that is down. -/
def Dev.portChange (d : Dev) (q : Nat) (up : Bool) : Dev :=
  let was := bitOf (d.fget Reg.PRT_LINK.UP (q / 4)) (q % 4)
  let d := d.linkChange q up
  if was && !bitOf (d.fget Reg.PRT_LINK.UP (q / 4)) (q % 4) then d.egressDown q else d

end Sys2Proof.Machine
end

