-- ==== Sys2Proof/Machine/CerriOps.lean ====
section
/-! DEFINITION. The Cerri machines: fetch, issue and traps of a pitch thread and of a Warden core (R75 to R112), asks and
their answers (R96 to R103), and the DMA and WARDEN accelerators (R511, R512). -/

namespace Sys2Proof.Machine

/-! ### The executing machine -/

/-- What an instruction sees of its thread or core (R75, R76, R107). -/
structure Mach where
  cpu : Cpu
  priv : Bool
  /-- Thread number, or core number. -/
  num : Nat
  /-- The event descriptor; none on a core. -/
  desc : List Word
  evt : Word
  /-- Words in the running image. -/
  ncode : Nat
  deriving DecidableEq, Repr

def Mach.who (m : Mach) : Agent := if m.priv then .warden m.num else .pitch m.num

/-- Read a register (R76). -/
def Mach.rd (m : Mach) (r : Nat) : Word :=
  if r = 0 then 0
  else if r ≤ 0x1F then m.cpu.g.get r
  else if r = 0x20 then 1
  else if r ≤ 0x27 then truth (bitOf m.cpu.p (r - 0x20))
  else if r = 0x3A then BitVec.ofNat 64 ((m.cpu.loops.head?.map (·.left)).getD 0)
  else if m.priv then 0
  else if r ≤ 0x37 then m.desc.getD (r - 0x28) 0
  else if r = 0x38 then BitVec.ofNat 64 m.num
  else if r = 0x39 then m.evt
  else 0

/-- Write a register; g0 and p0 discard the value (R76). -/
def Cpu.wr (c : Cpu) (r : Nat) (v : Word) : Cpu :=
  if r = 0 ∨ r = 0x20 ∨ 0x27 < r then c
  else if r ≤ 0x1F then { c with g := c.g.set r v }
  else
    let bit := 2 ^ (r - 0x20)
    let rest := if bitOf c.p (r - 0x20) then c.p - bit else c.p
    { c with p := if v = 0 then rest else rest + bit }

/-- Does the guard hold (R82)? -/
def Mach.guard (m : Mach) (c : CWord) : Bool := (m.rd (0x20 + c.guard % 8) == 1) != decide (8 ≤ c.guard)

/-- The word index and open loops after a word that does not transfer control (R92): of the open loops that end here the
innermost first, and the next one out only when that one has been popped. A loop that ends elsewhere stays open. -/
def backEdges (pc : Nat) : List LoopRec → Nat × List LoopRec
  | [] => (pc + 1, [])
  | l :: rest =>
    if l.last = pc then if 1 < l.left then (l.start, { l with left := l.left - 1 } :: rest) else backEdges pc rest
    else
      let r := backEdges pc rest
      (r.1, l :: r.2)

/-- The machine moves past the word at `pc`. -/
def Cpu.fall (c : Cpu) : Cpu :=
  let n := backEdges c.pc c.loops
  { c with pc := n.1, loops := n.2 }

/-- The loops of the current call level, innermost first (R93). -/
def Cpu.level (c : Cpu) : List LoopRec :=
  c.loops.take (c.loops.length - (c.rets.head?.map (·.loopDepth)).getD 0)

/-- What an instruction does once it has issued. -/
inductive Flow where
  /-- It completes, and control moves on past it. -/
  | fall (c : Cpu) (d : Dev)
  /-- It completes with the registers and program counter given. -/
  | go (c : Cpu) (d : Dev)
  /-- It completes, and then posts a register write (R109). -/
  | post (c : Cpu) (a : Nat) (v : Word)
  /-- It traps. -/
  | trap (code : Nat) (tval : Word)
  /-- The run has ended. -/
  | ended (d : Dev)

/-! ### Warden cores: interrupts and traps (R111, R112) -/

def Dev.core (d : Dev) (n : Nat) : Core := (Tab.look d.warden.cores n).getD {}
def Dev.setCore (d : Dev) (n : Nat) (c : Core) : Dev :=
  { d with warden := { d.warden with cores := Tab.put d.warden.cores n c } }

/-- PEND: the four interrupts. -/
def Dev.pend (d : Dev) (n : Nat) : Nat :=
  let c := d.core n
  b2n (d.fget Reg.WDN_EVR_HEAD.INDEX ≠ d.fget Reg.WDN_EVR_TAIL.INDEX) + 2 * b2n c.mbox +
    4 * b2n (c.timecmp.toNat ≤ d.now ∧ c.timecmp ≠ 0) + 8 * b2n d.warden.notice

/-- The admitted pending interrupts: PEND & STATUS.MASK. -/
def Dev.admitted (d : Dev) (n : Nat) : Nat := d.pend n &&& field (d.core n).status 11 8

/-- The interrupt a core takes before its next instruction: the lowest, with IE set. -/
def Dev.interrupt (d : Dev) (n : Nat) : Option Nat :=
  if (d.core n).status.getLsbD 0 then (List.range 4).find? fun i => bitOf (d.admitted n) i else none

/-- Enter the handler. -/
def Dev.coreEnter (d : Dev) (n epc cause : Nat) (tval : Word) : Dev :=
  let c := d.core n
  let st := setField (setField (setField c.status 1 1 (field c.status 0 0)) 0 0 0) 2 2 1
  d.setCore n { c with cpu := { c.cpu with pc := c.tvec.toNat }, epc := BitVec.ofNat 64 epc
                       cause := BitVec.ofNat 64 cause, tval := tval, status := st }

/-- A trap on a core: the handler, or a halt while the handler is active. -/
def Dev.coreTrap (d : Dev) (n code : Nat) (tval : Word) : Dev :=
  let c := d.core n
  if c.status.getLsbD 2 then
    let run := d.fget Reg.WDN_CORE_CTRL.RUN
    let d := d.fset Reg.WDN_CORE_CTRL.RUN (if bitOf run n then run - 2 ^ n else run)
    d.post 2 0 0x0002 (n * 256 + code)
  else d.coreEnter n c.cpu.pc code tval

/-- INTERRUPT_TAKEN -/
def Dev.interruptTaken (d : Dev) (n : Nat) : Dev :=
  let c := d.core n
  if n < 4 ∧ d.on 2 = true ∧ bitOf (d.fget Reg.WDN_CORE_CTRL.RUN) n = true ∧ c.wait = .none then
    match d.interrupt n with
    | some i => d.coreEnter n c.cpu.pc (0x80 + i) 0
    | none => d
  else d

/-- The value of a control register (R111). CYCLE has risen since it was last read by at least one cycle, and by how many
more is a free value (log 85). -/
def Dev.csr (d : Dev) (n k : Nat) : Word × Dev :=
  let c := d.core n
  match k with
  | 0 => (c.tvec, d)
  | 1 => (c.epc, d)
  | 2 => (c.cause, d)
  | 3 => (c.tval, d)
  | 4 => (c.status, d)
  | 5 => (BitVec.ofNat 64 (d.pend n), d)
  | 6 =>
    let (v, d) := d.takeFree
    let k := c.cycles + 1 + v % 2 ^ 32
    (k, d.setCore n { c with cycles := k })
  | 7 => (BitVec.ofNat 64 n, d)
  | 8 => (BitVec.ofNat 64 d.now, d)
  | 9 => (c.timecmp, d)
  | _ => (c.kscratch, d)

/-- Write a control register; STATUS keeps its reserved bits zero. -/
def Core.setCsr (c : Core) (k : Nat) (v : Word) : Core :=
  match k with
  | 0 => { c with tvec := v }
  | 1 => { c with epc := v }
  | 4 => { c with status := v &&& 0xF07 }
  | 9 => { c with timecmp := v }
  | 10 => { c with kscratch := v }
  | _ => c

/-! ### Fetch and issue -/

/-- The machine of an agent that can issue an instruction now: a run that does not wait, on a cluster in service whose
domain is in D0 or D1 (R447); a core
whose RUN bit is set, that does not wait and that takes no interrupt first. -/
def Dev.machine (d : Dev) (who : Agent) : Option Mach :=
  match who with
  | .pitch tid =>
    let t := d.thread tid
    match t.run with
    | none => none
    | some r =>
      if r.waiting.isSome || !d.on 0x13 || !d.clusterRuns (clusterOf tid) then none
      else
        some { cpu := t.cpu, priv := false, num := tid, desc := r.ev.shown
               evt := BitVec.ofNat 64 (r.ev.typ % 65536 + r.gen % 65536 * 65536)
               ncode := ((d.imageOf r.gen).map (·.ncode)).getD 0 }
  | .warden n =>
    let c := d.core n
    if n < 4 ∧ d.on 2 = true ∧ bitOf (d.fget Reg.WDN_CORE_CTRL.RUN) n = true ∧ c.wait = .none ∧
        d.interrupt n = none then
      some { cpu := c.cpu, priv := true, num := n, desc := [], evt := 0, ncode := d.warden.ncode }
    else none

/-- Word `i` of the running image, none outside it. -/
def Dev.codeWord (d : Dev) (m : Mach) (i : Nat) : Option Word :=
  if m.ncode ≤ i then none
  else if m.priv then some (d.mem.wcode.get i)
  else
    match (d.thread m.num).run.bind fun r => d.imageOf r.gen with
    | some im => some (d.mem.pcode.get (16384 * (4 * clusterOf m.num + im.bank) + i))
    | none => none

/-- Put back the registers of the agent. -/
def Dev.setCpu (d : Dev) (m : Mach) (c : Cpu) : Dev :=
  if m.priv then d.setCore m.num { d.core m.num with cpu := c }
  else d.setThread m.num { d.thread m.num with cpu := c }

/-- The agent traps. -/
def Dev.trap (d : Dev) (m : Mach) (code : Nat) (tval : Word) : Dev :=
  if m.priv then d.coreTrap m.num code tval else (d.pitchTrap m.num code tval).settle

/-- Slots of the word `w` at hand, `none` for a word outside the image: 1 with a false guard (R82), and else those of its
row, whether it completes or traps (R85). -/
def Mach.cost (m : Mach) (w : Option Word) : Nat :=
  match w with
  | none => 1
  | some w => if m.guard (cword w) then (cword w).slots (m.rd (cword w).sa) else 1

/-- The run's budget leaves room for `n` more slots (R132); a core has no budget. -/
def Dev.room (d : Dev) (m : Mach) (n : Nat) : Bool :=
  m.priv || (match (d.thread m.num).run with
    | some r => decide (r.used + n ≤ r.budget)
    | none => true)

/-- Count slots of a run. -/
def Dev.spend (d : Dev) (m : Mach) (n : Nat) : Dev :=
  if m.priv then d
  else
    let t := d.thread m.num
    d.setThread m.num { t with run := t.run.map fun (r : Run) => { r with used := r.used + n } }

/-- Finish an instruction. -/
def Dev.finish (d : Dev) (m : Mach) (f : Flow) : Dev :=
  match f with
  | .fall c d => d.setCpu m c.fall
  | .go c d => d.setCpu m c
  | .post c a v => (d.setCpu m c.fall).writeBus (.core m.num) a v
  | .trap code tval => d.trap m code tval
  | .ended d => d

/-- Issue the instruction at the agent's program counter, when its opcode is `op`: the causes of R105 that belong to no
one instruction come first. Another listed opcode is another row's business, and nothing happens; a word that no row lists
traps on any row. `ecc` says that the word, or memory it reads, has an uncorrectable error. -/
def Dev.issue (d : Dev) (who : Agent) (op : Nat) (ecc : Bool) (body : Mach → CWord → Dev → Flow) : Dev :=
  match d.machine who with
  | none => d
  | some m =>
    let w := d.codeWord m m.cpu.pc
    let c := cword (w.getD 0)
    if w.isSome && (cerriRow c.op).isSome && decide (c.op ≠ op) then d
    else
      let n := m.cost w
      if !d.room m n then d.trap m 0x0C 0
      else
        let d := d.spend m n
        match w with
        | none => d.trap m 0x0E 0
        | some w =>
          if ecc then d.trap m 0x0D 0
          else if !c.legal m.priv then d.trap m 0x01 w
          else if !m.guard c then d.setCpu m m.cpu.fall
          else if !m.priv && privOp c.op then d.trap m 0x02 w
          else d.finish m (body m c d)

/-- An instruction that computes its destination from operands a and b. -/
def Dev.alu (d : Dev) (who : Agent) (op : Nat) (ecc : Bool) (f : Word → Word → Word) : Dev :=
  d.issue who op ecc fun m c d => .fall (m.cpu.wr c.dst (f (m.rd c.sa) (c.operand (m.rd c.sb)))) d

/-! ### Memory (R77, R88, R108) -/

/-- The memories a load or store reaches. -/
inductive Place where
  | scratch (a : Nat)
  | shared (a : Nat)
  | local_ (a : Nat)
  | sram (a : Nat)
  | dram (a : Nat)
  deriving DecidableEq, Repr

/-- Does [a, a + n) lie in [lo, hi)? -/
def within (a n lo hi : Nat) : Bool := decide (lo ≤ a ∧ a + n ≤ hi)

/-- The memory an access of `n` bytes at `a` reaches, none for a trap ADDR. -/
def Dev.place (d : Dev) (m : Mach) (a n : Nat) : Option Place :=
  if m.priv then
    if within a n 0 0x40000 then some (.local_ (262144 * m.num + a))
    else if within a n 0x100000 0x400000 then some (.sram (a - 0x100000))
    else if d.on 0x1A && within a n (2 ^ 40) (2 ^ 40 + d.fget Reg.DMC_CAP.MIB * 2 ^ 20) then some (.dram (a - 2 ^ 40))
    else none
  else if within a n 0 0x4000 then some (.scratch (16384 * m.num + a))
  else if within a n 0x10000 0x50000 then some (.shared (262144 * clusterOf m.num + (a - 0x10000)))
  else none

/-- Read `n` bytes, and store the low `n` bytes of a number. -/
def Mems.load (s : Mems) (p : Place) (n : Nat) : Nat :=
  match p with
  | .scratch a => s.scratch.read a n
  | .shared a => s.shared.read a n
  | .local_ a => s.wlocal.read a n
  | .sram a => s.wsram.read a n
  | .dram a => s.dram.read a n

def Mems.store (s : Mems) (p : Place) (n v : Nat) : Mems :=
  match p with
  | .scratch a => { s with scratch := s.scratch.write a n v }
  | .shared a => { s with shared := s.shared.write a n v }
  | .local_ a => { s with wlocal := s.wlocal.write a n v }
  | .sram a => { s with wsram := s.wsram.write a n v }
  | .dram a => { s with dram := s.dram.write a n v }

/-- An access of `n` bytes at `a`: the traps ADDR and ALIGN, in that order, or what `f` does at the place. -/
def Dev.access (d : Dev) (m : Mach) (a n : Nat) (f : Place → Flow) : Flow :=
  match d.place m a n with
  | none => .trap 0x03 (BitVec.ofNat 64 a)
  | some p => if a % n ≠ 0 then .trap 0x04 (BitVec.ofNat 64 a) else f p

/-- A load of the word's size, zero-extended. -/
def Dev.loadOp (d : Dev) (who : Agent) (op : Nat) (ecc : Bool) : Dev :=
  d.issue who op ecc fun m c d =>
    d.access m (c.address (m.rd c.sa)) c.size fun p => .fall (m.cpu.wr c.dst (BitVec.ofNat 64 (d.mem.load p c.size))) d

/-- A store of the destination register's low bytes. -/
def Dev.storeOp (d : Dev) (who : Agent) (op : Nat) (ecc : Bool) : Dev :=
  d.issue who op ecc fun m c d =>
    d.access m (c.address (m.rd c.sa)) c.size fun p => .fall m.cpu { d with mem := d.mem.store p c.size (m.rd c.dst).toNat }

/-- `ldd`: eight bytes of the event descriptor; a core has none. -/
def Dev.lddOp (d : Dev) (who : Agent) (ecc : Bool) : Dev :=
  d.issue who 0x38 ecc fun m c d =>
    let a := c.address (m.rd c.sa)
    if 8 * m.desc.length < a + 8 then .trap 0x03 (BitVec.ofNat 64 a)
    else if a % 8 ≠ 0 then .trap 0x04 (BitVec.ofNat 64 a)
    else .fall (m.cpu.wr c.dst (m.desc.getD (a / 8) 0)) d

/-- `ldc`: a word of the running image. -/
def Dev.ldcOp (d : Dev) (who : Agent) (ecc : Bool) : Dev :=
  d.issue who 0x39 ecc fun m c d =>
    let i : Int := m.cpu.pc + c.simm
    match if i < 0 then none else d.codeWord m i.toNat with
    | none => .trap 0x0E 0
    | some w => .fall (m.cpu.wr c.dst w) d

/-- An atomic: the new word from the old one, operand b and the destination; only memory that admits atomics. -/
def Dev.atomic (d : Dev) (who : Agent) (op : Nat) (ecc : Bool) (f : Word → Word → Word → Word) : Dev :=
  d.issue who op ecc fun m c d =>
    let a := (m.rd c.sa).toNat
    let ok := if m.priv then within a 8 0x100000 0x400000 else within a 8 0x10000 0x50000
    if !ok then .trap 0x03 (BitVec.ofNat 64 a)
    else d.access m a 8 fun p =>
      let old := BitVec.ofNat 64 (d.mem.load p 8)
      .fall (m.cpu.wr c.dst old) { d with mem := d.mem.store p 8 (f old (c.operand (m.rd c.sb)) (m.rd c.dst)).toNat }

/-! ### Control (R89 to R95) -/

/-- Transfer to `t` by `br` or `jt`, under R89, R90 and R93. -/
def Mach.jump (m : Mach) (d : Dev) (t : Int) : Flow :=
  if t < 0 ∨ (m.ncode : Int) ≤ t ∨ (m.priv = false ∧ t ≤ m.cpu.pc) then .trap 0x0E 0
  else
    match leaveLoops (m.cpu.level.map fun l => (l.start, l.last)) t.toNat with
    | none => .trap 0x0E 0
    | some k => .go { m.cpu with pc := t.toNat, loops := m.cpu.loops.drop k } d

def Dev.brOp (d : Dev) (who : Agent) (ecc : Bool) : Dev :=
  d.issue who 0x40 ecc fun m c d => m.jump d (m.cpu.pc + c.simm)

def Dev.jalOp (d : Dev) (who : Agent) (ecc : Bool) : Dev :=
  d.issue who 0x41 ecc fun m c d =>
    let t : Int := m.cpu.pc + c.simm
    if t < 0 ∨ (m.ncode : Int) ≤ t then .trap 0x0E 0
    else if (if m.priv then 64 else 8) ≤ m.cpu.rets.length then .trap 0x07 0
    else
      let r : RetRec := { index := m.cpu.pc + 1, loopDepth := m.cpu.loops.length }
      let k := m.cpu.wr 31 (BitVec.ofNat 64 (m.cpu.pc + 1))
      .go { k with pc := t.toNat, rets := r :: k.rets } d

def Dev.retOp (d : Dev) (who : Agent) (ecc : Bool) : Dev :=
  d.issue who 0x42 ecc fun m _ d =>
    match m.cpu.rets with
    | [] => .trap 0x08 0
    | r :: rest =>
      if m.ncode ≤ r.index then .trap 0x0E 0
      else if m.cpu.level ≠ [] then .trap 0x11 0
      else if m.rd 31 ≠ BitVec.ofNat 64 r.index then .trap 0x08 0
      else .go { m.cpu with pc := r.index, rets := rest } d

def Dev.jtOp (d : Dev) (who : Agent) (ecc : Bool) : Dev :=
  d.issue who 0x43 ecc fun m c d =>
    let n := bitsOf c.imm 31 16
    let base := m.cpu.pc + bitsOf c.imm 15 0
    match d.codeWord m (base + min (m.rd c.sa).toNat n) with
    | none => .trap 0x0E 0
    | some w =>
      match tableEntry w with
      | none => .trap 0x10 0
      | some e =>
        let t : Int := m.cpu.pc + e
        if (base : Int) ≤ t ∧ t ≤ ((base + n : Nat) : Int) then .trap 0x0E 0 else m.jump d t

def Dev.loopOp (d : Dev) (who : Agent) (ecc : Bool) : Dev :=
  d.issue who 0x44 ecc fun m c d =>
    let k := (m.rd c.sa).toNat
    let most := bitsOf c.imm 31 16
    let last := m.cpu.pc + bitsOf c.imm 15 0
    if k = 0 then if m.ncode ≤ last + 1 then .trap 0x0E 0 else .go { m.cpu with pc := last + 1 } d
    else if (most ≠ 0 ∨ m.priv = false) ∧ most < k then .trap 0x05 0
    else if 4 ≤ m.cpu.loops.length then .trap 0x06 0
    else
      let l : LoopRec := { start := m.cpu.pc + 1, last := last, left := k }
      .fall { m.cpu with loops := l :: m.cpu.loops } d

/-- `done`: ASK_OPEN, or the end of the run, with the result word handed to PITCH; a core has no run to end and goes on
(log 47). -/
def Dev.doneOp (d : Dev) (who : Agent) (ecc : Bool) : Dev :=
  d.issue who 0x45 ecc fun m c d =>
    if m.cpu.slots.any fun p => !p.2.posted then .trap 0x0B 0
    else if m.priv then .fall m.cpu d
    else .ended (d.runDone m.num (if c.form = 0 then m.rd c.sa else c.operand 0))

def Dev.faultOp (d : Dev) (who : Agent) (ecc : Bool) : Dev :=
  d.issue who 0x46 ecc fun _ c _ => .trap 0x0F (BitVec.ofNat 64 (bitsOf c.imm 15 0))

/-! ### Asks (R96 to R103) -/

/-- The call codes an accelerator defines; CLASS, LEDGER's admission and HOSTQ have codes the spec does not give, so any code
of theirs is taken (log 48). -/
def accelDefines (accel code : Nat) : Bool :=
  match accel with
  | 0x01 => decide (1 ≤ code ∧ code ≤ 3)
  | 0x03 => decide ((1 ≤ code ∧ code ≤ 4) ∨ code = 0x10)
  | 0x05 | 0x06 | 0x08 | 0x0A | 0x0B | 0x0C | 0x0D => decide (1 ≤ code ∧ code ≤ 2)
  | 0x07 => decide (code = 1 ∨ code = 0x10)
  | _ => true

/-- The status an ask meets at once: the block in safe state, not in service or draining, or an undefined code (R97, R101). -/
def Dev.askRefusal (d : Dev) (accel code : Nat) : Option Nat :=
  match accelBlk accel with
  | none => some 3
  | some blk =>
    let is := List.range (instCount blk)
    if is.any (fun n => d.serves blk n && d.needsMet blk n) then if accelDefines accel code then none else some 3
    else if is.any (fun n => (d.inst blk n).safe) then some 6
    else some 5

/-- The ask that the word sends with argument words `args` from address `a`. -/
def Dev.newAsk (d : Dev) (m : Mach) (c : CWord) (slot a : Nat) (args : List Word) : Ask :=
  let accel := bitsOf c.imm 31 24
  let code := bitsOf c.imm 23 16
  let base : Ask := { owner := m.who, slot := slot, accel := accel, code := code, args := args, addr := a
                      posted := decide (c.dst = 0)
                      answer := (d.askRefusal accel code).map fun st => (statusWord st 0, []) }
  match if m.priv then none else (d.thread m.num).run with
  | none => base
  | some r => { base with tenant := r.ev.tenant, nsh := r.ev.nsh, context := r.ev.context, cmdref := r.ev.cmdref
                          token := r.ev.token, gen := r.gen }

/-- The memory that holds argument blocks: thread scratch, or a core's local memory: its size, and its place of `a`. -/
def Mach.blockSize (m : Mach) : Nat := if m.priv then 0x40000 else 0x4000
def Mach.blockPlace (m : Mach) (a : Nat) : Place :=
  if m.priv then .local_ (262144 * m.num + a) else .scratch (16384 * m.num + a)

/-- `ask`: the slot is the lowest free one, and the serial goes on from the thread's last, 1 after reset, over its runs: R98
gives neither (DESIGN CHOICE, log 11). -/
def Dev.askOp (d : Dev) (who : Agent) (ecc : Bool) : Dev :=
  d.issue who 0x50 ecc fun m c d =>
    let a := (m.rd c.sa).toNat
    let n := c.askWords
    if m.blockSize < a + 8 * n then .trap 0x03 (BitVec.ofNat 64 a)
    else if a % 8 ≠ 0 then .trap 0x04 (BitVec.ofNat 64 a)
    else
      match (List.range 8).find? fun k => (Tab.look m.cpu.slots k).isNone with
      | none => .trap 0x09 0
      | some slot =>
        let args := (List.range n).map fun i => BitVec.ofNat 64 (d.mem.load (m.blockPlace (a + 8 * i)) 8)
        let serial := m.cpu.serial % 255 + 1
        let s : AskSlot := { ask := d.nextAsk, serial := serial, posted := decide (c.dst = 0) }
        let k : Cpu := { m.cpu with slots := Tab.put m.cpu.slots slot s, serial := serial }
        let k := k.wr c.dst (BitVec.ofNat 64 (serial * 256 + slot))
        .fall k { d with asks := Tab.put d.asks d.nextAsk (d.newAsk m c slot a args), nextAsk := d.nextAsk + 1 }

/-- The slot of the open ask whose ticket the word is (R98). -/
def Mach.ticket (m : Mach) (v : Word) : Option (Nat × AskSlot) :=
  m.cpu.slots.find? fun p => !p.2.posted && decide (v.toNat = p.2.serial * 256 + p.1)

/-- The agent waits for ask slot `slot`, with destination `dst`. -/
def Dev.startWait (d : Dev) (m : Mach) (dst slot : Nat) : Dev :=
  if m.priv then d.setCore m.num { d.core m.num with wait := .await dst slot }
  else
    let t := d.thread m.num
    d.setThread m.num { t with run := t.run.map fun (r : Run) => { r with waiting := some (dst, slot) } }

/-- Answer words over the argument block at `addr` (R99): at most 256 bytes, and none beyond the memory the block lies in. -/
def Dev.writeAnswer (d : Dev) (m : Mach) (addr : Nat) (ws : List Word) : Dev :=
  let n := min 32 ((m.blockSize - addr) / 8)
  { d with mem := ((ws.take n).zipIdx).foldl (fun (s : Mems) (p : Word × Nat) =>
      s.store (m.blockPlace (addr + 8 * p.2)) 8 p.1.toNat) d.mem }

/-- An ask's ticket retires with status `st`. -/
def Cpu.retire (c : Cpu) (dst slot : Nat) (st : Word) : Cpu := Cpu.wr { c with slots := Tab.del c.slots slot } dst st

def Dev.awaitOp (d : Dev) (who : Agent) (ecc : Bool) : Dev :=
  d.issue who 0x51 ecc fun m c d =>
    match m.ticket (m.rd c.sa) with
    | none => .trap 0x0A 0
    | some (slot, s) =>
      match s.status with
      | some st => .fall (m.cpu.retire c.dst slot st) (d.writeAnswer m s.addr s.words)
      | none => .go m.cpu (d.startWait m c.dst slot)

def Dev.pollOp (d : Dev) (who : Agent) (ecc : Bool) : Dev :=
  d.issue who 0x52 ecc fun m c d =>
    match m.ticket (m.rd c.sa) with
    | none => .trap 0x0A 0
    | some (_, s) => .fall (m.cpu.wr c.dst (truth s.status.isSome)) d

/-- The agent that owns an ask, whether or not it runs. -/
def Dev.owner (d : Dev) (who : Agent) : Mach :=
  match who with
  | .pitch tid => { cpu := (d.thread tid).cpu, priv := false, num := tid, desc := [], evt := 0, ncode := 0 }
  | .warden n => { cpu := (d.core n).cpu, priv := true, num := n, desc := [], evt := 0, ncode := 0 }

/-- The wait in progress of an agent: destination and slot. -/
def Dev.waitOf (d : Dev) (who : Agent) : Option (Nat × Nat) :=
  match who with
  | .pitch tid => (d.thread tid).run.bind (·.waiting)
  | .warden n => match (d.core n).wait with
    | .await dst slot => some (dst, slot)
    | _ => none

/-- The wait is over. -/
def Dev.endWait (d : Dev) (m : Mach) : Dev :=
  if m.priv then d.setCore m.num { d.core m.num with wait := .none }
  else
    let t := d.thread m.num
    d.setThread m.num { t with run := t.run.map fun (r : Run) => { r with waiting := none } }

/-- The answer of an ask that its owner still holds becomes available: a posted ask frees its slot; an `await` in progress
completes after `waited` slots, unless the budget is reached first (R132). With no `await` in progress the slot keeps the
answer for the `await` to come, which writes it; whether memory holds it before then is unpredictable, a free bit (R99). -/
def Dev.deliverAnswer (d : Dev) (a : Ask) (st : Word) (ws : List Word) (waited : Nat) : Dev :=
  let m := d.owner a.owner
  if a.posted then d.setCpu m { m.cpu with slots := Tab.del m.cpu.slots a.slot }
  else
    match (d.waitOf a.owner).filter (fun p => p.2 = a.slot) with
    | none =>
      let (f, d) := d.takeFree
      let d := if f.getLsbD 0 then d.writeAnswer m a.addr ws else d
      d.setCpu m { m.cpu with slots := (match Tab.look m.cpu.slots a.slot with
        | some s => Tab.put m.cpu.slots a.slot { s with status := some st, words := ws, addr := a.addr }
        | none => m.cpu.slots) }
    | some (dst, slot) =>
      if !d.room m waited then d.trap m 0x0C 0
      else
        let d := ((d.spend m waited).writeAnswer m a.addr ws).endWait m
        d.setCpu m (m.cpu.retire dst slot st).fall

/-- ASK_ANSWER: the answer of ask `id` arrives, `waited` slots into an `await` in progress. -/
def Dev.askAnswer (d : Dev) (id waited : Nat) : Dev :=
  match Tab.look d.asks id with
  | none => d
  | some a =>
    match a.answer with
    | none => d
    | some (st, ws) =>
      let d := { d with asks := Tab.del d.asks id }
      if a.detached then d else d.deliverAnswer a st ws waited

/-- ASK_LATE: ask `id` reaches its maximum wait unanswered (R102). It is detached, because its call may still act. -/
def Dev.askLate (d : Dev) (id waited : Nat) : Dev :=
  match Tab.look d.asks id with
  | none => d
  | some a =>
    if a.answer.isSome || a.late then d
    else
      let d := { d with asks := Tab.put d.asks id { a with detached := true, late := true } }
      let d := if a.detached then d else d.deliverAnswer a 0xFFFF [] waited
      let (v, d) := d.takeFree
      d.raiseFault 0x05 ((accelBlk a.accel).getD 0) 0 (v.toNat % 2 ^ 31)

/-- BUDGET_EXPIRY: the wait of an `await` reaches the budget, or the next instruction would exceed it (R132). -/
def Dev.budgetExpiry (d : Dev) (tid : Nat) : Dev :=
  match (d.thread tid).run with
  | none => d
  | some r =>
    if r.waiting.isSome then
      let t := d.thread tid
      (d.setThread tid { t with run := some { r with used := max r.used r.budget } }).trap (d.owner (.pitch tid)) 0x0C 0
    else
      match d.machine (.pitch tid) with
      | none => d
      | some m => if d.room m (m.cost (d.codeWord m m.cpu.pc)) then d else d.trap m 0x0C 0

/-! ### Privileged instructions (R109, R110) -/

def Dev.csrrOp (d : Dev) (who : Agent) (ecc : Bool) : Dev :=
  d.issue who 0x60 ecc fun m c d =>
    let (v, d) := d.csr m.num (c.imm % 256)
    .fall (m.cpu.wr c.dst v) d

def Dev.csrwOp (d : Dev) (who : Agent) (ecc : Bool) : Dev :=
  d.issue who 0x61 ecc fun m c d =>
    .fall m.cpu (d.setCore m.num ((d.core m.num).setCsr (c.imm % 256) (m.rd c.sa)))

def Dev.rdregOp (d : Dev) (who : Agent) (ecc : Bool) : Dev :=
  d.issue who 0x62 ecc fun m c d =>
    .go m.cpu (d.setCore m.num { d.core m.num with wait := .rdreg c.dst (c.address (m.rd c.sa)) })

/-- RDREG_RETURN: the read takes place and its data reaches the destination. -/
def Dev.rdregReturn (d : Dev) (n : Nat) : Dev :=
  match (d.core n).wait with
  | .rdreg dst a =>
    let (v, d) := d.readBus (.core n) a
    let c := d.core n
    d.setCore n { c with wait := .none, cpu := (c.cpu.wr dst v).fall }
  | _ => d

def Dev.wrregOp (d : Dev) (who : Agent) (ecc : Bool) : Dev :=
  d.issue who 0x63 ecc fun m c _ => .post m.cpu (c.address (m.rd c.sa)) (m.rd c.dst)

def Dev.eretOp (d : Dev) (who : Agent) (ecc : Bool) : Dev :=
  d.issue who 0x64 ecc fun m _ d =>
    let c := d.core m.num
    let st := setField (setField c.status 0 0 (field c.status 1 1)) 2 2 0
    .go { m.cpu with pc := c.epc.toNat } (d.setCore m.num { c with status := st })

def Dev.wfeOp (d : Dev) (who : Agent) (ecc : Bool) : Dev :=
  d.issue who 0x65 ecc fun m _ d =>
    if d.admitted m.num ≠ 0 then .fall m.cpu d
    else .go m.cpu (d.setCore m.num { d.core m.num with wait := .wfe })

/-- WFE_WAKE -/
def Dev.wfeWake (d : Dev) (n : Nat) : Dev :=
  let c := d.core n
  if c.wait = .wfe ∧ d.admitted n ≠ 0 then d.setCore n { c with wait := .none, cpu := c.cpu.fall } else d

def Dev.fenceOp (d : Dev) (who : Agent) (ecc : Bool) : Dev :=
  d.issue who 0x66 ecc fun m _ d => .go m.cpu (d.setCore m.num { d.core m.num with wait := .fence })

/-- FENCE_DONE: every earlier write has been accepted; a posted write is accepted when it is issued (log 49). -/
def Dev.fenceDone (d : Dev) (n : Nat) : Dev :=
  let c := d.core n
  if c.wait = .fence then d.setCore n { c with wait := .none, cpu := c.cpu.fall } else d

/-! ### The DMA and WARDEN accelerators -/

/-- Every byte of [off, off + n) lies in a region the asking program's image declares with the access wanted (R126, R511);
a core's asks come from no program image. -/
def Dev.dmaAllowed (d : Dev) (a : Ask) (off n : Nat) (write : Bool) : Bool :=
  match a.owner with
  | .warden _ => false
  | .pitch _ =>
    let regions := ((d.imageOf a.gen).map (·.dma)).getD []
    (List.range (n / 8)).all fun i => regions.any fun r =>
      decide (r.base ≤ off + 8 * i ∧ off + 8 * i + 8 ≤ r.base + r.length) && (if write then r.canWrite else r.canRead)

/-- Word 0 of a DMA call: offset and length. -/
def dmaOffset (a : Ask) : Nat := bitsOf (a.arg 0) 39 0
def dmaLength (a : Ask) : Nat := bitsOf (a.arg 0) 48 40

/-- Word 0 is well formed, for a transfer of at most `most` bytes. -/
def dmaWordOk (a : Ask) (most : Nat) : Bool :=
  decide (dmaOffset a % 8 = 0 ∧ 8 ≤ dmaLength a ∧ dmaLength a ≤ most ∧ dmaLength a % 8 = 0 ∧ bitsOf (a.arg 0) 63 49 = 0)

/-- DMA read: a malformed word is answered with 0x0003 before the regions are looked at; R511 gives both statuses and no
order between them (DESIGN CHOICE, log 86). -/
def Dev.dmaRead (d : Dev) (id : Nat) : Dev :=
  d.serve id 0x0C 1 fun a d =>
    if !dmaWordOk a 256 then d.reply id 3
    else if !d.dmaAllowed a (dmaOffset a) (dmaLength a) false then d.reply id 1
    else
      d.reply id 0 0 ((List.range (dmaLength a / 8)).map fun i => BitVec.ofNat 64 (d.mem.dram.read (dmaOffset a + 8 * i) 8))

/-- DMA write, with the same order of its two refusals (log 86). -/
def Dev.dmaWrite (d : Dev) (id : Nat) : Dev :=
  d.serve id 0x0C 2 fun a d =>
    if !dmaWordOk a 248 || decide (a.args.length ≠ 1 + dmaLength a / 8) then d.reply id 3
    else if !d.dmaAllowed a (dmaOffset a) (dmaLength a) true then d.reply id 1
    else
      let bs := (a.args.drop 1).flatMap fun w => leBytes w.toNat 8
      Dev.reply { d with mem := { d.mem with dram := d.mem.dram.setBytes (dmaOffset a) bs } } id 0

def Dev.wardenMailbox (d : Dev) (id : Nat) : Dev :=
  d.serve id 0x0D 1 fun a d => (d.mboxWrite (BitVec.ofNat 64 (a.arg 0))).reply id 0

/-- The number that a post's ring entry shows as its instance. -/
def Agent.num : Agent → Nat
  | .pitch tid => tid
  | .warden n => n

def Dev.wardenPost (d : Dev) (id : Nat) : Dev :=
  d.serve id 0x0D 2 fun a d =>
    let code := a.arg 0
    let arg := a.arg 1
    if code < 0x8000 ∨ 0xFFFF < code ∨ 2 ^ 32 ≤ arg then d.reply id 3
    else
      let full := (d.fget Reg.WDN_EVR_HEAD.INDEX + 1) % 4096 = d.fget Reg.WDN_EVR_TAIL.INDEX
      (d.post 0x13 a.owner.num code arg).reply id (if full then 0x10 else 0)

end Sys2Proof.Machine
end

