-- ==== Sys2Proof/Machine/State.lean ====
section
/-! DEFINITION. The state of the model: the commands that wait, the pins and fuse cells, and the device. -/

namespace Sys2Proof.Machine

/-- No command stops the device with a fault: an access that the device does not accept sets an error bit, an instruction
it does not accept traps, and both are next states. -/
inductive Fault where
  deriving DecidableEq, Repr

/-- Why a command has no meaning. -/
inductive Refusal where
  /-- A command of the table that the model gives no meaning; no command is one. Safe: the machine stops. -/
  | notModelled (mnemonic : String)
  deriving DecidableEq, Repr

/-- The state. -/
structure State where
  /-- Commands that wait, first in, first out. -/
  pending : List Instr := []
  hard : Hard := {}
  dev : Dev := {}
  deriving DecidableEq, Repr

/-- The cells of a unit as manufacture left them: both cells of every bit agree (R439). -/
def madeCells : WTab := (List.range 64).foldl (fun (t : WTab) (i : Nat) => t.set i (Config.fuseWord i)) []

/-- The machine right after a cold reset with power good, RESET_N high, and both straps low (R48 to R51). -/
def State.reset : State :=
  let h : Hard := { pwrGood := true, resetN := true, unitIdPin := 0, bootModePin := 0, fuseA := madeCells, fuseB := madeCells }
  { pending := [], hard := h, dev := Dev.coldReset {} h }

end Sys2Proof.Machine
end

