-- ==== Sys2Proof/Machine/Run.lean ====
section
/-! DEFINITION. How a command meets the state: nothing but power and reset reaches a device whose power is not good or
whose reset is low (R48, R498); the resets and the fuse operations, which also touch pins and cells. -/

namespace Sys2Proof.Machine

/-- The device runs: power is good and reset is high. -/
def State.live (s : State) : Bool := s.hard.pwrGood && s.hard.resetN

/-- A change of the device by a command, while it runs. -/
def State.upd (s : State) (f : Dev → Dev) : Host.Outcome State Fault Refusal :=
  .next (if s.live then { s with dev := f s.dev } else s)

/-- The same, with what the device watches for after it: hard key limits, the spare, partner traffic (R30, R270, R382). -/
def State.act (s : State) (f : Dev → Dev) : Host.Outcome State Fault Refusal := s.upd fun d => (f d).settle

/-- A change by the JTAG port, which needs power only (R505). -/
def State.tap (s : State) (f : Dev → Dev) : Host.Outcome State Fault Refusal :=
  .next (if s.hard.pwrGood then { s with dev := f s.dev } else s)

/-- PWR_GOOD rises with the straps at these levels, and RESET_N low or high (R48, R50, R498). -/
def State.coldReset (s : State) (unitId bootMode : Nat) (resetLow : Bool) : Host.Outcome State Fault Refusal :=
  let h := { s.hard with pwrGood := true, resetN := !resetLow, unitIdPin := unitId, bootModePin := bootMode }
  .next { s with hard := h, dev := s.dev.coldReset h }

/-- RESET_N low for `ns`: a pin reset from 1 µs, nothing up to 0.2 µs, and between them one or the other (R498). The pin
stays low until RESET_N_RISE. -/
def State.pinReset (s : State) (ns : Nat) : Host.Outcome State Fault Refusal :=
  let h := { s.hard with resetN := false }
  if !s.live || decide (ns ≤ 200) then .next s
  else if 1000 ≤ ns then .next { s with hard := h, dev := s.dev.pinReset h }
  else
    let (v, d) := s.dev.takeFree
    if v.getLsbD 0 then .next { s with hard := h, dev := d.pinReset h } else .next { s with dev := d }

/-- RESET_N rises: the straps are latched and the boot sequence may begin (R498). -/
def State.resetRise (s : State) (unitId bootMode : Nat) : Host.Outcome State Fault Refusal :=
  if s.hard.pwrGood && !s.hard.resetN then
    let h := { s.hard with resetN := true, unitIdPin := unitId, bootModePin := bootMode }
    .next { s with hard := h, dev := s.dev.latchStraps h }
  else .next s

/-- PWR_GOOD falls (R491); `burnt` says whether a fuse operation that waits had reached its cells (R441). -/
def State.powerFall (s : State) (burnt : Bool) : Host.Outcome State Fault Refusal :=
  let h := if s.hard.pwrGood then { burnCells s.hard (s.dev.fuseCut burnt) with pwrGood := false } else s.hard
  .next { s with hard := h, dev := if s.hard.pwrGood then s.dev.coldReset h else s.dev }

/-- An accepted fuse operation is programmed (R439 to R441). -/
def State.fuses (s : State) (op : Nat) : Host.Outcome State Fault Refusal :=
  .next (if s.live then { s with hard := burnCells s.hard (s.dev.fuseBurn op), dev := s.dev.fuseOp op } else s)

end Sys2Proof.Machine
end

