-- ==== Sys2Proof/Machine/Bands.lean ====
section
/-! DEFINITION. Meanings of the commands of family Bands, one definition for each row of the opcode table. -/

namespace Sys2Proof.Machine

/-- OPEN_STRIPE_IDLE_CLOSE (R267). -/
def execOpenStripeIdleClose (stream : Nat) (s : State) : Host.Outcome State Fault Refusal :=
  s.act fun d => d.idleClose stream

/-- SLED_GRACE_EXPIRY (R271). -/
def execSledGraceExpiry (sled : Nat) (s : State) : Host.Outcome State Fault Refusal := s.act fun d => d.sledGrace sled

/-- SLED_DECLARE_FAILED (R273). -/
def execSledDeclareFailed (sled : Nat) (s : State) : Host.Outcome State Fault Refusal := s.act fun d => d.sledCmd 1 sled

/-- SLED_RETURN (R275). -/
def execSledReturn (sled : Nat) (s : State) : Host.Outcome State Fault Refusal := s.act fun d => d.sledCmd 2 sled

/-- SLED_RETIRED (R273). -/
def execSledRetired (sled : Nat) (s : State) : Host.Outcome State Fault Refusal := s.act fun d => d.sledRetired sled

/-- GC_AUTO_SELECT (R277). -/
def execGcAutoSelect (s : State) : Host.Outcome State Fault Refusal := s.act fun d => d.autoSelect

/-- GC_ERASE_ISSUE (R278). -/
def execGcEraseIssue (band : Nat) (s : State) : Host.Outcome State Fault Refusal := s.act fun d => d.eraseIssue band

/-- GC_ERASE_DONE (R278). -/
def execGcEraseDone (band : Nat) (s : State) : Host.Outcome State Fault Refusal := s.act fun d => d.eraseDone band

/-- RETENTION_EXPIRY (R282). -/
def execRetentionExpiry (band : Nat) (s : State) : Host.Outcome State Fault Refusal := s.act fun d => d.retention band

end Sys2Proof.Machine
end

