-- ==== Sys2Proof/Machine/Block.lean ====
section
/-! DEFINITION. Meanings of the commands of family Block, one definition for each row of the opcode table. -/

namespace Sys2Proof.Machine

/-- REG_WRITE (R8). -/
def execRegWrite (who : Path) (addr : Nat) (value : Word) (s : State) : Host.Outcome State Fault Refusal :=
  s.act fun d => d.writeBus who addr value

/-- REG_READ_CLEAR (R8). -/
def execRegReadClear (who : Path) (addr : Nat) (s : State) : Host.Outcome State Fault Refusal :=
  s.upd fun d => (d.readBus who addr).2

/-- BAD_ACCESS (R54). -/
def execBadAccess (addr width : Nat) (s : State) : Host.Outcome State Fault Refusal := s.upd fun d => d.badBus addr width

/-- BLOCK_ENABLE (R58). -/
def execBlockEnable (blk n : Nat) (s : State) : Host.Outcome State Fault Refusal :=
  s.upd fun d => d.onInst blk n fun d => d.blockEnable blk n

/-- CONSISTENCY_CHECK_END (R58). -/
def execConsistencyCheckEnd (blk n : Nat) (o : CheckObs) (s : State) : Host.Outcome State Fault Refusal :=
  s.act fun d => d.onInst blk n fun d => d.checkEnd blk n o

/-- BLOCK_DISABLE (R61). -/
def execBlockDisable (blk n : Nat) (s : State) : Host.Outcome State Fault Refusal :=
  s.act fun d => d.onInst blk n fun d => d.blockDisable blk n

/-- BLOCK_DISABLE_DONE (R61). -/
def execBlockDisableDone (blk n : Nat) (s : State) : Host.Outcome State Fault Refusal :=
  s.act fun d => d.onInst blk n fun d => d.blockDisableDone blk n

/-- BLOCK_DRAIN (R62). -/
def execBlockDrain (blk n : Nat) (drain : Bool) (s : State) : Host.Outcome State Fault Refusal :=
  s.upd fun d => d.onInst blk n fun d => d.blockDrain blk n drain

/-- DRAINED (R57). -/
def execDrained (blk n : Nat) (s : State) : Host.Outcome State Fault Refusal :=
  s.upd fun d => d.onInst blk n fun d => d.blockDrained blk n

/-- GEN_SWAP_REQUEST (R65). -/
def execGenSwapRequest (blk n : Nat) (s : State) : Host.Outcome State Fault Refusal :=
  s.upd fun d => d.onInst blk n fun d => d.swapRequest blk n

/-- GEN_SWAP_CHECK_END (R65). -/
def execGenSwapCheckEnd (blk n : Nat) (o : CheckObs) (s : State) : Host.Outcome State Fault Refusal :=
  s.act fun d => d.onInst blk n fun d => d.swapCheckEnd blk n o

/-- GEN_SWAP_TAKE (R64). -/
def execGenSwapTake (blk n : Nat) (s : State) : Host.Outcome State Fault Refusal :=
  s.act fun d => d.onInst blk n fun d => d.swapTake blk n

/-- GEN_DISCARD (R66). -/
def execGenDiscard (blk n : Nat) (s : State) : Host.Outcome State Fault Refusal :=
  s.upd fun d => d.onInst blk n fun d => d.genDiscard blk n

/-- GEN_RELEASE (R24). -/
def execGenRelease (blk n gen : Nat) (s : State) : Host.Outcome State Fault Refusal :=
  s.act fun d => d.onInst blk n fun d => d.genRelease blk n gen

end Sys2Proof.Machine
end

