-- ==== Sys2Proof/Machine/Calls.lean ====
section
/-! DEFINITION. Meanings of the commands of family Calls, one definition for each row of the opcode table. -/

namespace Sys2Proof.Machine

/-- TALLY_ADD (R473). -/
def execTallyAdd (id : Nat) (s : State) : Host.Outcome State Fault Refusal := s.upd fun d => d.tallyAdd id

/-- TALLY_READ (R473). -/
def execTallyRead (id : Nat) (s : State) : Host.Outcome State Fault Refusal := s.upd fun d => d.tallyRead id

/-- TALLY_LOG (R473). -/
def execTallyLog (id : Nat) (s : State) : Host.Outcome State Fault Refusal := s.act fun d => d.tallyLog id

/-- CLASS_EXACT_LOOKUP (R100). -/
def execClassExactLookup (id stage key : Nat) (s : State) : Host.Outcome State Fault Refusal :=
  s.upd fun d => d.classLookup id stage key

/-- MAP_LOOKUP (R228). -/
def execMapLookup (id : Nat) (s : State) : Host.Outcome State Fault Refusal := s.act fun d => d.mapLookup id

/-- MAP_RELEASE (R228). -/
def execMapRelease (id : Nat) (s : State) : Host.Outcome State Fault Refusal := s.act fun d => d.mapRelease id

/-- MAP_STAGE (R228). -/
def execMapStage (id : Nat) (s : State) : Host.Outcome State Fault Refusal := s.act fun d => d.mapStage id

/-- MAP_NAMESPACE_INFO (R228). -/
def execMapNamespaceInfo (id : Nat) (s : State) : Host.Outcome State Fault Refusal := s.act fun d => d.mapInfo id

/-- MAP_MOVE (R228). -/
def execMapMove (id : Nat) (s : State) : Host.Outcome State Fault Refusal := s.act fun d => d.mapMove id

/-- LEDGER_ADMIT (R176). -/
def execLedgerAdmit (id : Nat) (kind : CmdKind) (slba nblk ranges handle : Nat) (s : State) : Host.Outcome State Fault Refusal :=
  s.act fun d => d.ledgerAdmit id kind slba nblk ranges handle

/-- LEDGER_RELEASE (R179). -/
def execLedgerRelease (id : Nat) (s : State) : Host.Outcome State Fault Refusal := s.act fun d => d.ledgerRelease id

/-- ROPE_REQUEST (R186). -/
def execRopeRequest (id : Nat) (applied : Bool) (s : State) : Host.Outcome State Fault Refusal :=
  s.act fun d => d.ropeCall id applied

/-- ROPE_MARK (R186). -/
def execRopeMark (id : Nat) (s : State) : Host.Outcome State Fault Refusal := s.act fun d => d.ropeMark id

/-- MARK_EXPIRY (R186). -/
def execMarkExpiry (ctrl cmdref : Nat) (s : State) : Host.Outcome State Fault Refusal :=
  s.act fun d => d.markExpire ctrl cmdref

/-- CIPHER_SEAL (R387). -/
def execCipherSeal (id : Nat) (s : State) : Host.Outcome State Fault Refusal := s.act fun d => d.cipherSeal id

/-- CIPHER_ERASE (R386). -/
def execCipherErase (id : Nat) (s : State) : Host.Outcome State Fault Refusal := s.act fun d => d.cipherErase id

/-- MEDIA_READ (R261). -/
def execMediaRead (id : Nat) (s : State) : Host.Outcome State Fault Refusal := s.act fun d => d.mediaRead id

/-- MEDIA_WORK (R261). -/
def execMediaWork (id : Nat) (s : State) : Host.Outcome State Fault Refusal := s.act fun d => d.mediaWork id

/-- STRIPE_CANDIDATES (R295). -/
def execStripeCandidates (id : Nat) (s : State) : Host.Outcome State Fault Refusal := s.act fun d => d.candidates id

/-- STRIPE_SELECT (R295). -/
def execStripeSelect (id : Nat) (s : State) : Host.Outcome State Fault Refusal := s.act fun d => d.select id

/-- HOSTQ_FETCH_ENTRY (R100). -/
def execHostqFetchEntry (id : Nat) (s : State) : Host.Outcome State Fault Refusal := s.act fun d => d.hostqFetch id

/-- HOSTQ_POST_COMPLETION (R100). -/
def execHostqPostCompletion (id : Nat) (c : Cqe) (s : State) : Host.Outcome State Fault Refusal :=
  s.act fun d => d.hostqPost id c

/-- XPORT_WRITE (R347). -/
def execXportWrite (id : Nat) (bad : Bool) (s : State) : Host.Outcome State Fault Refusal :=
  s.act fun d => d.xportWrite id bad

/-- XPORT_READ (R347). -/
def execXportRead (id : Nat) (s : State) : Host.Outcome State Fault Refusal := s.act fun d => d.xportRead id

/-- STREAM_WRITE (R347). -/
def execStreamWrite (id : Nat) (bad : Bool) (s : State) : Host.Outcome State Fault Refusal :=
  s.act fun d => d.streamWrite id bad

/-- STREAM_READ (R347). -/
def execStreamRead (id : Nat) (s : State) : Host.Outcome State Fault Refusal := s.act fun d => d.streamRead id

/-- DMA_READ (R511). -/
def execDmaRead (id : Nat) (s : State) : Host.Outcome State Fault Refusal := s.upd fun d => d.dmaRead id

/-- DMA_WRITE (R511). -/
def execDmaWrite (id : Nat) (s : State) : Host.Outcome State Fault Refusal := s.upd fun d => d.dmaWrite id

/-- WARDEN_MAILBOX (R512). -/
def execWardenMailbox (id : Nat) (s : State) : Host.Outcome State Fault Refusal := s.upd fun d => d.wardenMailbox id

/-- WARDEN_POST (R512). -/
def execWardenPost (id : Nat) (s : State) : Host.Outcome State Fault Refusal := s.upd fun d => d.wardenPost id

end Sys2Proof.Machine
end

