-- ==== Sys2Proof/Machine/CerriArith.lean ====
section
/-! DEFINITION. Meanings of the commands of family CerriArith, one definition for each row of the opcode table. -/

namespace Sys2Proof.Machine

/-- ADD (R86). -/
def execAdd (who : Agent) (ecc : Bool) (s : State) : Host.Outcome State Fault Refusal :=
  s.upd fun d => d.alu who 0x01 ecc fun a b => a + b

/-- SUB (R86). -/
def execSub (who : Agent) (ecc : Bool) (s : State) : Host.Outcome State Fault Refusal :=
  s.upd fun d => d.alu who 0x02 ecc fun a b => a - b

/-- MUL (R86). -/
def execMul (who : Agent) (ecc : Bool) (s : State) : Host.Outcome State Fault Refusal :=
  s.upd fun d => d.alu who 0x03 ecc fun a b => a * b

/-- MULHU (R86). -/
def execMulhu (who : Agent) (ecc : Bool) (s : State) : Host.Outcome State Fault Refusal :=
  s.upd fun d => d.alu who 0x04 ecc fun a b => BitVec.ofNat 64 (a.toNat * b.toNat / 2 ^ 64)

/-- AND (R86). -/
def execAnd (who : Agent) (ecc : Bool) (s : State) : Host.Outcome State Fault Refusal :=
  s.upd fun d => d.alu who 0x05 ecc fun a b => a &&& b

/-- OR (R86). -/
def execOr (who : Agent) (ecc : Bool) (s : State) : Host.Outcome State Fault Refusal :=
  s.upd fun d => d.alu who 0x06 ecc fun a b => a ||| b

/-- XOR (R86). -/
def execXor (who : Agent) (ecc : Bool) (s : State) : Host.Outcome State Fault Refusal :=
  s.upd fun d => d.alu who 0x07 ecc fun a b => a ^^^ b

/-- ANDN (R86). -/
def execAndn (who : Agent) (ecc : Bool) (s : State) : Host.Outcome State Fault Refusal :=
  s.upd fun d => d.alu who 0x08 ecc fun a b => a &&& ~~~b

/-- SHL (R86). -/
def execShl (who : Agent) (ecc : Bool) (s : State) : Host.Outcome State Fault Refusal :=
  s.upd fun d => d.alu who 0x09 ecc fun a b => a <<< (b.toNat % 64)

/-- SHR (R86). -/
def execShr (who : Agent) (ecc : Bool) (s : State) : Host.Outcome State Fault Refusal :=
  s.upd fun d => d.alu who 0x0A ecc fun a b => a >>> (b.toNat % 64)

/-- SAR (R86). -/
def execSar (who : Agent) (ecc : Bool) (s : State) : Host.Outcome State Fault Refusal :=
  s.upd fun d => d.alu who 0x0B ecc fun a b => a.sshiftRight (b.toNat % 64)

/-- ROR (R86). -/
def execRor (who : Agent) (ecc : Bool) (s : State) : Host.Outcome State Fault Refusal :=
  s.upd fun d => d.alu who 0x0C ecc fun a b => rotRight a (b.toNat % 64)

/-- MINU (R86). -/
def execMinu (who : Agent) (ecc : Bool) (s : State) : Host.Outcome State Fault Refusal :=
  s.upd fun d => d.alu who 0x0D ecc fun a b => if a < b then a else b

/-- MAXU (R86). -/
def execMaxu (who : Agent) (ecc : Bool) (s : State) : Host.Outcome State Fault Refusal :=
  s.upd fun d => d.alu who 0x0E ecc fun a b => if b < a then a else b

/-- CLZ (R86). -/
def execClz (who : Agent) (ecc : Bool) (s : State) : Host.Outcome State Fault Refusal :=
  s.upd fun d => d.alu who 0x0F ecc fun a _ => BitVec.ofNat 64 (leadingZeros a)

/-- POPC (R86). -/
def execPopc (who : Agent) (ecc : Bool) (s : State) : Host.Outcome State Fault Refusal :=
  s.upd fun d => d.alu who 0x10 ecc fun a _ => BitVec.ofNat 64 (oneBits a)

/-- BEXT (R86). -/
def execBext (who : Agent) (ecc : Bool) (s : State) : Host.Outcome State Fault Refusal :=
  s.upd fun d => d.issue who 0x11 ecc fun m c d => .fall (m.cpu.wr c.dst (bitExtract (m.rd c.sa) c.bitLo c.bitW)) d

/-- BINS (R86). -/
def execBins (who : Agent) (ecc : Bool) (s : State) : Host.Outcome State Fault Refusal :=
  s.upd fun d => d.issue who 0x12 ecc fun m c d => .fall (m.cpu.wr c.dst (bitInsert (m.rd c.dst) (m.rd c.sa) c.bitLo c.bitW)) d

/-- CRC32C (R86). -/
def execCrc32c (who : Agent) (ecc : Bool) (s : State) : Host.Outcome State Fault Refusal :=
  s.upd fun d => d.alu who 0x14 ecc fun a b => crcUpdate a b

/-- BSWAP (R86). -/
def execBswap (who : Agent) (ecc : Bool) (s : State) : Host.Outcome State Fault Refusal :=
  s.upd fun d => d.alu who 0x15 ecc fun a _ => reverseBytes a

/-- CMPEQ (R87). -/
def execCmpeq (who : Agent) (ecc : Bool) (s : State) : Host.Outcome State Fault Refusal :=
  s.upd fun d => d.alu who 0x18 ecc fun a b => truth (a == b)

/-- CMPNE (R87). -/
def execCmpne (who : Agent) (ecc : Bool) (s : State) : Host.Outcome State Fault Refusal :=
  s.upd fun d => d.alu who 0x19 ecc fun a b => truth (a != b)

/-- CMPLTU (R87). -/
def execCmpltu (who : Agent) (ecc : Bool) (s : State) : Host.Outcome State Fault Refusal :=
  s.upd fun d => d.alu who 0x1A ecc fun a b => truth (a.ult b)

/-- CMPLT (R87). -/
def execCmplt (who : Agent) (ecc : Bool) (s : State) : Host.Outcome State Fault Refusal :=
  s.upd fun d => d.alu who 0x1B ecc fun a b => truth (a.slt b)

/-- CMPGEU (R87). -/
def execCmpgeu (who : Agent) (ecc : Bool) (s : State) : Host.Outcome State Fault Refusal :=
  s.upd fun d => d.alu who 0x1C ecc fun a b => truth (!a.ult b)

/-- CMPGE (R87). -/
def execCmpge (who : Agent) (ecc : Bool) (s : State) : Host.Outcome State Fault Refusal :=
  s.upd fun d => d.alu who 0x1D ecc fun a b => truth (!a.slt b)

/-- TST (R87). -/
def execTst (who : Agent) (ecc : Bool) (s : State) : Host.Outcome State Fault Refusal :=
  s.upd fun d => d.alu who 0x1E ecc fun a b => truth (a &&& b != 0)

end Sys2Proof.Machine
end

