-- ==== Sys2Proof/Machine/CerriFlow.lean ====
section
/-! DEFINITION. Meanings of the commands of family CerriFlow, one definition for each row of the opcode table. -/

namespace Sys2Proof.Machine

/-- BR (R89). -/
def execBr (who : Agent) (ecc : Bool) (s : State) : Host.Outcome State Fault Refusal := s.upd fun d => d.brOp who ecc

/-- JAL (R89). -/
def execJal (who : Agent) (ecc : Bool) (s : State) : Host.Outcome State Fault Refusal := s.upd fun d => d.jalOp who ecc

/-- RET (R89). -/
def execRet (who : Agent) (ecc : Bool) (s : State) : Host.Outcome State Fault Refusal := s.upd fun d => d.retOp who ecc

/-- JT (R95). -/
def execJt (who : Agent) (ecc : Bool) (s : State) : Host.Outcome State Fault Refusal := s.upd fun d => d.jtOp who ecc

/-- LOOP (R91). -/
def execLoop (who : Agent) (ecc : Bool) (s : State) : Host.Outcome State Fault Refusal := s.upd fun d => d.loopOp who ecc

/-- DONE (R89). -/
def execDone (who : Agent) (ecc : Bool) (s : State) : Host.Outcome State Fault Refusal := s.upd fun d => d.doneOp who ecc

/-- FAULT (R89). -/
def execFault (who : Agent) (ecc : Bool) (s : State) : Host.Outcome State Fault Refusal := s.upd fun d => d.faultOp who ecc

/-- NOP (R89). -/
def execNop (who : Agent) (ecc : Bool) (s : State) : Host.Outcome State Fault Refusal :=
  s.upd fun d => d.issue who 0x47 ecc fun m _ d => .fall m.cpu d

/-- ASK (R96). -/
def execAsk (who : Agent) (ecc : Bool) (s : State) : Host.Outcome State Fault Refusal := s.upd fun d => d.askOp who ecc

/-- AWAIT (R96). -/
def execAwait (who : Agent) (ecc : Bool) (s : State) : Host.Outcome State Fault Refusal := s.upd fun d => d.awaitOp who ecc

/-- POLL (R96). -/
def execPoll (who : Agent) (ecc : Bool) (s : State) : Host.Outcome State Fault Refusal := s.upd fun d => d.pollOp who ecc

/-- ASK_ANSWER (R99). -/
def execAskAnswer (id waited : Nat) (s : State) : Host.Outcome State Fault Refusal := s.upd fun d => d.askAnswer id waited

/-- ASK_LATE (R102). -/
def execAskLate (id waited : Nat) (s : State) : Host.Outcome State Fault Refusal := s.act fun d => d.askLate id waited

/-- BUDGET_EXPIRY (R132). -/
def execBudgetExpiry (tid : Nat) (s : State) : Host.Outcome State Fault Refusal := s.upd fun d => d.budgetExpiry tid

/-- CSRR (R109). -/
def execCsrr (who : Agent) (ecc : Bool) (s : State) : Host.Outcome State Fault Refusal := s.upd fun d => d.csrrOp who ecc

/-- CSRW (R109). -/
def execCsrw (who : Agent) (ecc : Bool) (s : State) : Host.Outcome State Fault Refusal := s.upd fun d => d.csrwOp who ecc

/-- RDREG (R109). -/
def execRdreg (who : Agent) (ecc : Bool) (s : State) : Host.Outcome State Fault Refusal := s.upd fun d => d.rdregOp who ecc

/-- RDREG_RETURN (R110). -/
def execRdregReturn (core : Nat) (s : State) : Host.Outcome State Fault Refusal := s.upd fun d => d.rdregReturn core

/-- WRREG (R109). -/
def execWrreg (who : Agent) (ecc : Bool) (s : State) : Host.Outcome State Fault Refusal := s.act fun d => d.wrregOp who ecc

/-- ERET (R109). -/
def execEret (who : Agent) (ecc : Bool) (s : State) : Host.Outcome State Fault Refusal := s.upd fun d => d.eretOp who ecc

/-- WFE (R109). -/
def execWfe (who : Agent) (ecc : Bool) (s : State) : Host.Outcome State Fault Refusal := s.upd fun d => d.wfeOp who ecc

/-- WFE_WAKE (R112). -/
def execWfeWake (core : Nat) (s : State) : Host.Outcome State Fault Refusal := s.upd fun d => d.wfeWake core

/-- FENCE (R109). -/
def execFence (who : Agent) (ecc : Bool) (s : State) : Host.Outcome State Fault Refusal := s.upd fun d => d.fenceOp who ecc

/-- FENCE_DONE (R109). -/
def execFenceDone (core : Nat) (s : State) : Host.Outcome State Fault Refusal := s.upd fun d => d.fenceDone core

/-- INTERRUPT_TAKEN (R112). -/
def execInterruptTaken (core : Nat) (s : State) : Host.Outcome State Fault Refusal := s.upd fun d => d.interruptTaken core

end Sys2Proof.Machine
end

