-- ==== Sys2Proof/Machine/CerriMem.lean ====
section
/-! DEFINITION. Meanings of the commands of family CerriMem, one definition for each row of the opcode table. -/

namespace Sys2Proof.Machine

/-- LD (R88). -/
def execLd (who : Agent) (ecc : Bool) (s : State) : Host.Outcome State Fault Refusal := s.upd fun d => d.loadOp who 0x30 ecc

/-- LDW (R88). -/
def execLdw (who : Agent) (ecc : Bool) (s : State) : Host.Outcome State Fault Refusal := s.upd fun d => d.loadOp who 0x31 ecc

/-- LDH (R88). -/
def execLdh (who : Agent) (ecc : Bool) (s : State) : Host.Outcome State Fault Refusal := s.upd fun d => d.loadOp who 0x32 ecc

/-- LDB (R88). -/
def execLdb (who : Agent) (ecc : Bool) (s : State) : Host.Outcome State Fault Refusal := s.upd fun d => d.loadOp who 0x33 ecc

/-- ST (R88). -/
def execSt (who : Agent) (ecc : Bool) (s : State) : Host.Outcome State Fault Refusal := s.upd fun d => d.storeOp who 0x34 ecc

/-- STW (R88). -/
def execStw (who : Agent) (ecc : Bool) (s : State) : Host.Outcome State Fault Refusal :=
  s.upd fun d => d.storeOp who 0x35 ecc

/-- STH (R88). -/
def execSth (who : Agent) (ecc : Bool) (s : State) : Host.Outcome State Fault Refusal :=
  s.upd fun d => d.storeOp who 0x36 ecc

/-- STB (R88). -/
def execStb (who : Agent) (ecc : Bool) (s : State) : Host.Outcome State Fault Refusal :=
  s.upd fun d => d.storeOp who 0x37 ecc

/-- LDD (R88). -/
def execLdd (who : Agent) (ecc : Bool) (s : State) : Host.Outcome State Fault Refusal := s.upd fun d => d.lddOp who ecc

/-- LDC (R88). -/
def execLdc (who : Agent) (ecc : Bool) (s : State) : Host.Outcome State Fault Refusal := s.upd fun d => d.ldcOp who ecc

/-- AMOADD (R88). -/
def execAmoadd (who : Agent) (ecc : Bool) (s : State) : Host.Outcome State Fault Refusal :=
  s.upd fun d => d.atomic who 0x3A ecc fun old b _ => old + b

/-- CAS (R88). -/
def execCas (who : Agent) (ecc : Bool) (s : State) : Host.Outcome State Fault Refusal :=
  s.upd fun d => d.atomic who 0x3B ecc fun old b dst => if old = dst then b else old

end Sys2Proof.Machine
end

