-- ==== Sys2Proof/Machine/Crypto.lean ====
section
/-! DEFINITION. Meanings of the commands of family Crypto, one definition for each row of the opcode table. -/

namespace Sys2Proof.Machine

/-- KEY_LOAD (R372). -/
def execKeyLoad (session : Bool) (slot : Nat) (s : State) : Host.Outcome State Fault Refusal :=
  s.act fun d => d.keyLoad session slot

/-- KEY_DESTROY (R386). -/
def execKeyDestroy (all session : Bool) (slot : Nat) (s : State) : Host.Outcome State Fault Refusal :=
  s.act fun d => d.keyDestroy all session slot

/-- SEAL_UNIT (R375). -/
def execSealUnit (k : Nat) (bad : Bool) (s : State) : Host.Outcome State Fault Refusal := s.act fun d => d.sealUnit k bad

/-- UNIT_DECRYPT (R376). -/
def execUnitDecrypt (job unit : Nat) (s : State) : Host.Outcome State Fault Refusal := s.act fun d => d.unitDecrypt job unit

/-- CIPHER_DONE (R388). -/
def execCipherDone (s : State) : Host.Outcome State Fault Refusal := s.act fun d => d.cipherDone

/-- GENERATION_DRAINED (R385). -/
def execGenerationDrained (slot gen : Nat) (s : State) : Host.Outcome State Fault Refusal :=
  s.act fun d => d.generationDrained slot gen

end Sys2Proof.Machine
end

