-- ==== Sys2Proof/Machine/Integrity.lean ====
section
/-! DEFINITION. Meanings of the commands of family Integrity, one definition for each row of the opcode table. -/

namespace Sys2Proof.Machine

/-- FAULT_DETECT (R423). -/
def execFaultDetect (cls blk n detail : Nat) (s : State) : Host.Outcome State Fault Refusal :=
  s.act fun d => d.faultDetect cls blk n detail

/-- SELFTEST_SLICE (R428). -/
def execSelftestSlice (item blk n : Nat) (failed : Bool) (s : State) : Host.Outcome State Fault Refusal :=
  s.act fun d => d.selfTestSlice item blk n failed

/-- SELFTEST_PASS_START (R429). -/
def execSelftestPassStart (s : State) : Host.Outcome State Fault Refusal := s.act fun d => d.selfTestPass

/-- SELFTEST_PASS_END (R428). -/
def execSelftestPassEnd (ms : Nat) (s : State) : Host.Outcome State Fault Refusal := s.act fun d => d.selfTestPassEnd ms

/-- SPT_INJECT (R424). -/
def execSptInject (blk cls : Nat) (s : State) : Host.Outcome State Fault Refusal := s.act fun d => d.sptInject blk cls

end Sys2Proof.Machine
end

