-- ==== Sys2Proof/Machine/Ledger.lean ====
section
/-! DEFINITION. Meanings of the commands of family Ledger, one definition for each row of the opcode table. -/

namespace Sys2Proof.Machine

/-- LEDGER_DEFERRED_ADMIT (R178). -/
def execLedgerDeferredAdmit (s : State) : Host.Outcome State Fault Refusal := s.act fun d => d.admitWaiting

/-- LEDGER_TEN_UPDATE (R169). -/
def execLedgerTenUpdate (tenant : Nat) (s : State) : Host.Outcome State Fault Refusal := s.act fun d => d.tenUpdate tenant

/-- COMMIT_CYCLE_BOUNDARY (R14). -/
def execCommitCycleBoundary (s : State) : Host.Outcome State Fault Refusal := s.act fun d => d.commitBoundary

/-- SEAL_LEAD_CLOSE (R188). -/
def execSealLeadClose (s : State) : Host.Outcome State Fault Refusal := s.act fun d => d.sealClose

/-- BUNDLE_SEAL (R26). -/
def execBundleSeal (s : State) : Host.Outcome State Fault Refusal := s.act fun d => d.bundleSeal

/-- LOCK_GRANT (R181). -/
def execLockGrant (entry : Nat) (applied : Bool) (s : State) : Host.Outcome State Fault Refusal :=
  s.act fun d => d.grant entry applied

end Sys2Proof.Machine
end

