-- ==== Sys2Proof/Machine/Manage.lean ====
section
/-! DEFINITION. Meanings of the commands of family Manage, one definition for each row of the opcode table. -/

namespace Sys2Proof.Machine

/-- ANCHOR_BOOT (R430). -/
def execAnchorBoot (flash : List Byte) (senseBad : Bool) (s : State) : Host.Outcome State Fault Refusal :=
  s.upd fun d => d.anchorBoot s.hard flash senseBad

/-- MGMT_RCV_DATA (R433). -/
def execMgmtRcvData (value : Word) (s : State) : Host.Outcome State Fault Refusal := s.upd fun d => d.rcvData value

/-- MGMT_RCV_BOOT (R433). -/
def execMgmtRcvBoot (s : State) : Host.Outcome State Fault Refusal := s.upd fun d => d.rcvBoot

/-- WARDEN_MAILBOX_WRITE (R70). -/
def execWardenMailboxWrite (value : Word) (s : State) : Host.Outcome State Fault Refusal := s.upd fun d => d.mboxWrite value

/-- CORE_RUN (R112). -/
def execCoreRun (core : Nat) (run : Bool) (s : State) : Host.Outcome State Fault Refusal := s.upd fun d => d.coreRun core run

/-- RAS_REQUEST (R72). -/
def execRasRequest (ip port dst dport : Nat) (req : List Byte) (s : State) : Host.Outcome State Fault Refusal :=
  s.act fun d => d.rasRequest ip port dst dport req

/-- RAS_MEMORY_EXPIRY (R74). -/
def execRasMemoryExpiry (who : Path) (source : Nat) (s : State) : Host.Outcome State Fault Refusal :=
  s.upd fun d => d.rasExpiry who source

/-- NVME_MI_VENDOR_C0 (R164). -/
def execNvmeMiVendorC0 (eid : Nat) (overLane : Bool) (req : List Byte) (s : State) : Host.Outcome State Fault Refusal :=
  s.act fun d => d.nvmeMi eid overLane req

end Sys2Proof.Machine
end

