-- ==== Sys2Proof/Machine/Mapping.lean ====
section
/-! DEFINITION. Meanings of the commands of family Mapping, one definition for each row of the opcode table. -/

namespace Sys2Proof.Machine

/-- DATA_LANDING (R207). -/
def execDataLanding (tenant nsh token at_ : Nat) (data : List Byte) (uncommitted : Bool) (s : State) : Host.Outcome State Fault Refusal :=
  s.act fun d => d.land tenant nsh token at_ data uncommitted

/-- MAP_PLACE (R212). -/
def execMapPlace (what : PlaceReq) (s : State) : Host.Outcome State Fault Refusal :=
  s.act fun d => match what with
    | .unit i => d.placeUnit i
    | .page p => d.writeBack p
    | .moves n => d.placeMoves n

/-- STRIPE_PROGRAM_PASS (R227). -/
def execStripeProgramPass (stripe : Nat) (s : State) : Host.Outcome State Fault Refusal := s.act fun d => d.stripePass stripe

/-- JOURNAL_DURABLE (R222). -/
def execJournalDurable (s : State) : Host.Outcome State Fault Refusal := s.act fun d => d.journalDurable

/-- STAGING_FREE (R210). -/
def execStagingFree (unit : Nat) (s : State) : Host.Outcome State Fault Refusal := s.act fun d => d.stagingFree unit

/-- MAP_PAGE_READY (R202). -/
def execMapPageReady (page : Nat) (good : Bool) (s : State) : Host.Outcome State Fault Refusal :=
  s.act fun d => d.pageReady page good

/-- MAP_CACHE_WRITEBACK (R203). -/
def execMapCacheWriteback (page : Nat) (s : State) : Host.Outcome State Fault Refusal := s.act fun d => d.writeBack page

/-- PINNED_MAP_WARM (R206). -/
def execPinnedMapWarm (page : Nat) (s : State) : Host.Outcome State Fault Refusal := s.act fun d => d.warmTake page

/-- SECURE_DEL_DEADLINE (R217). -/
def execSecureDelDeadline (band : Nat) (s : State) : Host.Outcome State Fault Refusal := s.act fun d => d.secureDeadline band

/-- CHECKPOINT_START (R225). -/
def execCheckpointStart (s : State) : Host.Outcome State Fault Refusal := s.act fun d => d.ckptStart

/-- CHECKPOINT_END (R225). -/
def execCheckpointEnd (root : Nat) (bands : List (Nat × List Chunk)) (s : State) : Host.Outcome State Fault Refusal :=
  s.act fun d => d.ckptEnd root bands

/-- MAP_RECOVER_REPLAY (R291). -/
def execMapRecoverReplay (root : RootObs) (dump : List DumpUnit) (seqHigh : Nat) (s : State) : Host.Outcome State Fault Refusal :=
  s.act fun d => d.recoverReplay root dump seqHigh

/-- MAP_RECOVER_SCAN (R293). -/
def execMapRecoverScan (root : RootObs) (us : List ScanUnit) (dump : List DumpUnit) (seqHigh newRoot : Nat) (s : State) : Host.Outcome State Fault Refusal :=
  s.act fun d => d.recoverScan root us dump seqHigh newRoot

/-- RECOVERY_END (R294). -/
def execRecoveryEnd (good : Bool) (s : State) : Host.Outcome State Fault Refusal := s.act fun d => d.recoveryEnd good

end Sys2Proof.Machine
end

