-- ==== Sys2Proof/Machine/Metrics.lean ====
section
/-! DEFINITION. Meanings of the commands of family Metrics, one definition for each row of the opcode table. -/

namespace Sys2Proof.Machine

/-- METER_BOUNDARY (R474). -/
def execMeterBoundary (s : State) : Host.Outcome State Fault Refusal := s.act fun d => d.meterBoundary

/-- METER_BATCH_SIGNED (R475). -/
def execMeterBatchSigned (s : State) : Host.Outcome State Fault Refusal := s.upd fun d => d.meterSigned

/-- CAPACITY_SECOND_TICK (R464). -/
def execCapacitySecondTick (s : State) : Host.Outcome State Fault Refusal := s.upd fun d => d.secondTick

/-- GRADE_MS_TICK (R464); the idle timers of R157, which count milliseconds, are looked at then (log 100). -/
def execGradeMsTick (s : State) : Host.Outcome State Fault Refusal := s.upd fun d => d.msTick.apstMoves

/-- THRESHOLD_TICK (R467). -/
def execThresholdTick (s : State) : Host.Outcome State Fault Refusal := s.upd fun d => d.thrTick

/-- PORT_WINDOW_END (R468). -/
def execPortWindowEnd (s : State) : Host.Outcome State Fault Refusal := s.upd fun d => d.windowEnd

/-- SAMPLING_EVENT (R469). -/
def execSamplingEvent (src tenant : Nat) (s : State) : Host.Outcome State Fault Refusal :=
  s.upd fun d => d.sampling src tenant

/-- SAMP_COUNT_WRITE (R470). -/
def execSampCountWrite (counter : Nat) (value : Word) (event : Bool) (s : State) : Host.Outcome State Fault Refusal :=
  s.upd fun d => d.sampWrite counter value event

/-- TLY_FREEZE_WRITE (R471). -/
def execTlyFreezeWrite (frozen onTrig : Bool) (s : State) : Host.Outcome State Fault Refusal :=
  s.upd fun d => d.freezeWrite frozen onTrig

/-- CAIRN_DISARM (R478). -/
def execCairnDisarm (s : State) : Host.Outcome State Fault Refusal := s.upd fun d => d.crnGo 0

/-- CAIRN_ONE_SHOT (R478). -/
def execCairnOneShot (s : State) : Host.Outcome State Fault Refusal := s.upd fun d => d.crnGo 1

/-- CAIRN_PERIODIC (R478). -/
def execCairnPeriodic (s : State) : Host.Outcome State Fault Refusal := s.upd fun d => d.crnGo 2

/-- CAIRN_TRIGGER (R479). -/
def execCairnTrigger (s : State) : Host.Outcome State Fault Refusal := s.act fun d => d.crnTrigger

/-- SNAPSHOT_SET_WRITTEN (R481). -/
def execSnapshotSetWritten (s : State) : Host.Outcome State Fault Refusal := s.upd fun d => d.crnWritten

end Sys2Proof.Machine
end

