-- ==== Sys2Proof/Machine/Network.lean ====
section
/-! DEFINITION. Meanings of the commands of family Network, one definition for each row of the opcode table. -/

namespace Sys2Proof.Machine

/-- SUBPORT_LINK_CHANGE (R299). -/
def execSubportLinkChange (port : Nat) (up : Bool) (s : State) : Host.Outcome State Fault Refusal :=
  s.act fun d => d.portChange port up

/-- FRAME_RECEIVE (R298). -/
def execFrameReceive (port : Nat) (frame : List Byte) (fcsGood ect : Bool) (corr uncorr : Nat) (s : State) :
    Host.Outcome State Fault Refusal :=
  s.act fun d => d.frameReceive port frame fcsGood ect corr uncorr

/-- RECIRCULATION_PASS (R309). -/
def execRecirculationPass (pipe : Nat) (ect : Bool) (s : State) : Host.Outcome State Fault Refusal :=
  s.act fun d => d.recirculate pipe ect

/-- RESEQUENCE_RELEASE (R352). -/
def execResequenceRelease (port : Nat) (ect : Bool) (s : State) : Host.Outcome State Fault Refusal :=
  s.act fun d => d.reseqRelease port ect

/-- CLASS_UPDATE_LOAD (R320). -/
def execClassUpdateLoad (count ports : Nat) (s : State) : Host.Outcome State Fault Refusal :=
  s.act fun d => d.updLoad count ports

/-- EM_ADD (R320). -/
def execEmAdd (u : UpdRec) (s : State) : Host.Outcome State Fault Refusal := s.act fun d => d.updOne { u with op := 1 }

/-- EM_END (R320). -/
def execEmEnd (u : UpdRec) (s : State) : Host.Outcome State Fault Refusal := s.act fun d => d.updOne { u with op := 2 }

/-- TCAM_ADD (R320). -/
def execTcamAdd (u : UpdRec) (s : State) : Host.Outcome State Fault Refusal := s.act fun d => d.updOne { u with op := 3 }

/-- TCAM_END (R320). -/
def execTcamEnd (u : UpdRec) (s : State) : Host.Outcome State Fault Refusal := s.act fun d => d.updOne { u with op := 4 }

/-- INDIR (R320). -/
def execIndir (u : UpdRec) (s : State) : Host.Outcome State Fault Refusal := s.act fun d => d.updOne { u with op := 5 }

/-- TIM_STEP (R301). -/
def execTimStep (value : Word) (s : State) : Host.Outcome State Fault Refusal := s.act fun d => d.timStep value

/-- TIM_SLEW (R302). -/
def execTimSlew (value : Word) (s : State) : Host.Outcome State Fault Refusal := s.upd fun d => d.timSlew value

/-- PPS_OUT_EDGE (R304). -/
def execPpsOutEdge (s : State) : Host.Outcome State Fault Refusal := s.upd fun d => d.ppsOut

/-- PPS_IN_EDGE (R304). -/
def execPpsInEdge (s : State) : Host.Outcome State Fault Refusal := s.upd fun d => d.ppsIn

/-- EGRESS_FRAME_START (R359). -/
def execEgressFrameStart (port : Nat) (s : State) : Host.Outcome State Fault Refusal := s.act fun d => d.egressStart port

/-- PRODUCER_CELL_RESUME (R351). -/
def execProducerCellResume (s : State) : Host.Outcome State Fault Refusal := s.act fun d => d.producerResume

/-- AUDIT_START (R356). -/
def execAuditStart (s : State) : Host.Outcome State Fault Refusal := s.act fun d => d.auditStart

/-- AUDIT_END (R356). -/
def execAuditEnd (leaked : Nat) (s : State) : Host.Outcome State Fault Refusal := s.act fun d => d.auditEnd leaked

/-- SCH_TEN_UPDATE (R362). -/
def execSchTenUpdate (tenant : Nat) (s : State) : Host.Outcome State Fault Refusal := s.act fun d => d.shaperUpdate tenant

/-- SCH_POL_UPDATE (R358). -/
def execSchPolUpdate (policer : Nat) (s : State) : Host.Outcome State Fault Refusal := s.act fun d => d.polUpdate policer

/-- CNP_RECOVER_EXPIRY (R363). -/
def execCnpRecoverExpiry (ctx : Nat) (s : State) : Host.Outcome State Fault Refusal := s.act fun d => d.cnpRecover ctx

/-- SCHED_GATE_LIST_START (R367). -/
def execSchedGateListStart (s : State) : Host.Outcome State Fault Refusal := s.act fun d => d.gateListStart.heldActs 0x0F 0

/-- HOLD_EXPIRY (R368). -/
def execHoldExpiry (port : Nat) (s : State) : Host.Outcome State Fault Refusal := s.act fun d => d.holdExpiry port

end Sys2Proof.Machine
end

