-- ==== Sys2Proof/Machine/Nvme.lean ====
section
/-! DEFINITION. Meanings of the commands of family Nvme, one definition for each row of the opcode table. -/

namespace Sys2Proof.Machine

/-- CAPSULE_ARRIVAL (R144). -/
def execCapsuleArrival (ctx : Nat) (sqe : List Word) (nsgl sgl : Nat) (seg : List Word) (s : State) : Host.Outcome State Fault Refusal :=
  s.act fun d => d.capsule ctx sqe nsgl sgl seg

/-- COMPLETION_DELIVERED (R146). -/
def execCompletionDelivered (ctx cid left : Nat) (s : State) : Host.Outcome State Fault Refusal :=
  s.act fun d => d.delivered ctx cid left

/-- GET_LOG_PAGE (R148). -/
def execGetLogPage (src : Src) (s : State) : Host.Outcome State Fault Refusal := s.act fun d => d.getLogPage src

/-- IDENTIFY (R160). -/
def execIdentify (src : Src) (s : State) : Host.Outcome State Fault Refusal := s.act fun d => d.identify src

/-- ABORT (R152). -/
def execAbort (src : Src) (s : State) : Host.Outcome State Fault Refusal := s.act fun d => d.abort src

/-- SET_FEATURES (R148). -/
def execSetFeatures (src : Src) (data : List Byte) (s : State) : Host.Outcome State Fault Refusal :=
  s.act fun d => d.setFeatures src data

/-- GET_FEATURES (R148). -/
def execGetFeatures (src : Src) (s : State) : Host.Outcome State Fault Refusal := s.act fun d => d.getFeatures src

/-- ASYNCHRONOUS_EVENT_REQUEST (R158). -/
def execAsynchronousEventRequest (src : Src) (s : State) : Host.Outcome State Fault Refusal := s.act fun d => d.aer src

/-- DEVICE_SELF_TEST_SHORT (R156). -/
def execDeviceSelfTestShort (src : Src) (s : State) : Host.Outcome State Fault Refusal :=
  s.act fun d => d.selfTestStart src false

/-- DEVICE_SELF_TEST_EXTENDED (R156). -/
def execDeviceSelfTestExtended (src : Src) (s : State) : Host.Outcome State Fault Refusal :=
  s.act fun d => d.selfTestStart src true

/-- DEVICE_SELF_TEST_ABORT (R156). -/
def execDeviceSelfTestAbort (src : Src) (s : State) : Host.Outcome State Fault Refusal := s.act fun d => d.selfTestAbort src

/-- SELF_TEST_END (R156). -/
def execSelfTestEnd (failed : Nat) (s : State) : Host.Outcome State Fault Refusal := s.act fun d => d.selfTestEnd failed

/-- KEEP_ALIVE (R148). -/
def execKeepAlive (src : Src) (s : State) : Host.Outcome State Fault Refusal := s.act fun d => d.keepAlive src

/-- KATO_EXPIRY (R145). -/
def execKatoExpiry (ctrl : Nat) (s : State) : Host.Outcome State Fault Refusal := s.act fun d => d.katoExpiry ctrl

/-- CONNECT (R136). -/
def execConnect (ctx cid : Nat) (fab : Fabric) (host sub : List Byte) (cntlid qid sqsize kato : Nat) (s : State) : Host.Outcome State Fault Refusal :=
  s.act fun d => d.connect ctx cid fab host sub cntlid qid sqsize kato

/-- PROPERTY_GET (R148). -/
def execPropertyGet (src : Src) (s : State) : Host.Outcome State Fault Refusal := s.act fun d => d.propertyGet src

/-- PROPERTY_SET (R148). -/
def execPropertySet (src : Src) (s : State) : Host.Outcome State Fault Refusal := s.act fun d => d.propertySet src

/-- DISCONNECT (R148). -/
def execDisconnect (ctx cid : Nat) (s : State) : Host.Outcome State Fault Refusal := s.act fun d => d.disconnect ctx cid

/-- CONTROLLER_RESET_DRAINED (R154). -/
def execControllerResetDrained (ctrl : Nat) (s : State) : Host.Outcome State Fault Refusal :=
  s.act fun d => d.resetDrained ctrl

/-- FORMAT_NVM (R218). -/
def execFormatNvm (src : Src) (s : State) : Host.Outcome State Fault Refusal := s.act fun d => d.formatNvm src

/-- FIRMWARE_IMAGE_DOWNLOAD (R162). -/
def execFirmwareImageDownload (src : Src) (off : Nat) (data : List Byte) (s : State) : Host.Outcome State Fault Refusal :=
  s.act fun d => d.fwDownload src off data

/-- FIRMWARE_COMMIT (R162). -/
def execFirmwareCommit (src : Src) (s : State) : Host.Outcome State Fault Refusal := s.act fun d => d.fwCommit src

/-- NAMESPACE_MANAGEMENT (R139). -/
def execNamespaceManagement (src : Src) (cmd : NsCmd) (s : State) : Host.Outcome State Fault Refusal :=
  s.act fun d => match cmd with
    | .create subsys handle c => d.nsCreate src subsys handle c
    | .delete handle => d.nsDelete src handle

/-- NAMESPACE_ATTACHMENT (R137). -/
def execNamespaceAttachment (src : Src) (handle : Nat) (attach : Bool) (ctrls : List Nat) (s : State) : Host.Outcome State Fault Refusal :=
  s.act fun d => d.nsAttach src handle attach ctrls

/-- SANITIZE_CRYPTO_ERASE (R163). -/
def execSanitizeCryptoErase (src : Src) (s : State) : Host.Outcome State Fault Refusal := s.act fun d => d.sanitizeCrypto src

/-- SANITIZE_BLOCK_ERASE (R163). -/
def execSanitizeBlockErase (src : Src) (s : State) : Host.Outcome State Fault Refusal := s.act fun d => d.sanitizeBlock src

/-- FLUSH (R153). -/
def execFlush (ctx cid : Nat) (s : State) : Host.Outcome State Fault Refusal := s.act fun d => d.flush ctx cid

/-- FLUSH_COMPLETE (R153). -/
def execFlushComplete (ctx cid : Nat) (s : State) : Host.Outcome State Fault Refusal :=
  s.act fun d => d.flushComplete ctx cid

/-- WRITE (R149). -/
def execWrite (ctx cid : Nat) (s : State) : Host.Outcome State Fault Refusal := s.act fun d => d.nvmWrite ctx cid

/-- READ (R149). -/
def execRead (ctx cid : Nat) (s : State) : Host.Outcome State Fault Refusal := s.act fun d => d.nvmRead ctx cid

/-- WRITE_ZEROES (R193). -/
def execWriteZeroes (ctx cid : Nat) (s : State) : Host.Outcome State Fault Refusal := s.act fun d => d.nvmWriteZeroes ctx cid

/-- DATASET_MANAGEMENT (R216). -/
def execDatasetManagement (ctx cid : Nat) (ranges : List (Nat × Nat)) (s : State) : Host.Outcome State Fault Refusal :=
  s.act fun d => d.dataset ctx cid ranges

/-- NS_ENTRY_UPDATE (R165). -/
def execNsEntryUpdate (handle : Nat) (s : State) : Host.Outcome State Fault Refusal := s.act fun d => d.nsUpdate handle

end Sys2Proof.Machine
end

