-- ==== Sys2Proof/Machine/Pairing.lean ====
section
/-! DEFINITION. Meanings of the commands of family Pairing, one definition for each row of the opcode table. -/

namespace Sys2Proof.Machine

/-- BELAY_LINK_ENABLE (R392). -/
def execBelayLinkEnable (phys : Nat) (s : State) : Host.Outcome State Fault Refusal := s.act fun d => d.blyLinkEnable phys

/-- HELLO_TIMER (R392). -/
def execHelloTimer (s : State) : Host.Outcome State Fault Refusal := s.act fun d => d.helloTimer

/-- HELLO (R392). -/
def execHello (h : BHdr) (payload : List Byte) (s : State) : Host.Outcome State Fault Refusal :=
  s.act fun d => d.rxHello h payload

/-- BEAT_TIMER (R395). -/
def execBeatTimer (s : State) : Host.Outcome State Fault Refusal := s.act fun d => d.beatTimer

/-- BEAT (R394). -/
def execBeat (h : BHdr) (payload : List Byte) (s : State) : Host.Outcome State Fault Refusal :=
  s.act fun d => d.rxBeat h payload

/-- PEER_BEAT_EDGE (R395). -/
def execPeerBeatEdge (level : Bool) (s : State) : Host.Outcome State Fault Refusal := s.act fun d => d.peerEdge level

/-- BEAT_MISS (R395). -/
def execBeatMiss (pins : Bool) (s : State) : Host.Outcome State Fault Refusal := s.act fun d => d.beatMiss pins

/-- PARTNER_LOST (R396). -/
def execPartnerLost (s : State) : Host.Outcome State Fault Refusal := s.act fun d => d.partnerLost

/-- BELAY_PHY_DOWN (R391). -/
def execBelayPhyDown (phy : Nat) (s : State) : Host.Outcome State Fault Refusal := s.act fun d => d.blyPhyDown phy

/-- LINK_GRACE_EXPIRY (R397). -/
def execLinkGraceExpiry (s : State) : Host.Outcome State Fault Refusal := s.act fun d => d.linkGrace

/-- BELAY_REPLAY_TIMEOUT (R390). -/
def execBelayReplayTimeout (s : State) : Host.Outcome State Fault Refusal := s.act fun d => d.blyReplay

/-- BUNDLE (R399). -/
def execBundle (h : BHdr) (payload : List Byte) (s : State) : Host.Outcome State Fault Refusal :=
  s.act fun d => d.rxBundle h payload

/-- BCONF (R399). -/
def execBconf (h : BHdr) (cycle part : Nat) (s : State) : Host.Outcome State Fault Refusal :=
  s.act fun d => d.rxBconf h cycle part

/-- TREC (R404). -/
def execTrec (h : BHdr) (payload : List Byte) (s : State) : Host.Outcome State Fault Refusal :=
  s.act fun d => d.rxTrec h payload

/-- TCONF (R403). -/
def execTconf (h : BHdr) (number : Nat) (s : State) : Host.Outcome State Fault Refusal := s.act fun d => d.rxTconf h number

/-- FWD (R405). -/
def execFwd (h : BHdr) (m : FwdMsg) (s : State) : Host.Outcome State Fault Refusal := s.act fun d => d.rxFwd h m

/-- JOIN (R414). -/
def execJoin (h : BHdr) (epoch : Nat) (s : State) : Host.Outcome State Fault Refusal := s.act fun d => d.rxJoin h epoch

/-- HANDBACK (R415). -/
def execHandback (h : BHdr) (epoch : Nat) (s : State) : Host.Outcome State Fault Refusal :=
  s.act fun d => d.rxHandback h epoch

/-- HANDBACK_DRAINED (R415). -/
def execHandbackDrained (s : State) : Host.Outcome State Fault Refusal := s.act fun d => d.handbackSend

/-- REJOIN_DONE (R415). -/
def execRejoinDone (h : Option BHdr) (s : State) : Host.Outcome State Fault Refusal := s.act fun d => d.rejoinDone h

/-- HANDOVER (R416). -/
def execHandover (s : State) : Host.Outcome State Fault Refusal := s.act fun d => d.blyHandover

/-- HANDOVER_RECEIVE (R416). -/
def execHandoverReceive (h : BHdr) (epoch : Nat) (s : State) : Host.Outcome State Fault Refusal :=
  s.act fun d => d.rxHandover h epoch

/-- FENCE_NOW (R409). -/
def execFenceNow (s : State) : Host.Outcome State Fault Refusal := s.act fun d => d.fenceNow

/-- TAKEOVER_CLAIM_DONE (R410). -/
def execTakeoverClaimDone (s : State) : Host.Outcome State Fault Refusal := s.act fun d => d.takeoverClaimed

/-- TAKEOVER_SECOND_CLAIM_DONE (R408). -/
def execTakeoverSecondClaimDone (s : State) : Host.Outcome State Fault Refusal := s.act fun d => d.takeoverWon

/-- TAKEOVER_STATE_LOAD (R411). -/
def execTakeoverStateLoad (root : RootObs) (s : State) : Host.Outcome State Fault Refusal :=
  s.act fun d => d.takeoverLoad root

/-- TAKEOVER_ACCEPT_RESUME (R412). -/
def execTakeoverAcceptResume (s : State) : Host.Outcome State Fault Refusal := s.act fun d => d.takeoverAccept

/-- BELAY_PHY_UP (R391). -/
def execBelayPhyUp (phy : Nat) (s : State) : Host.Outcome State Fault Refusal := s.act fun d => d.blyPhyUp phy

/-- BELAY_LINK_FRAME (R390). -/
def execBelayLinkFrame (h : BHdr) (credits : Nat) (nak : Bool) (s : State) : Host.Outcome State Fault Refusal :=
  s.act fun d => d.blyLink h credits nak

end Sys2Proof.Machine
end

