-- ==== Sys2Proof/Machine/Pitch.lean ====
section
/-! DEFINITION. Meanings of the commands of family Pitch, one definition for each row of the opcode table. -/

namespace Sys2Proof.Machine

/-- EVENT_POST (R113). -/
def execEventPost (tenant nsh token : Nat) (rest : List Nat) (s : State) : Host.Outcome State Fault Refusal :=
  s.upd fun d => d.eventPost tenant nsh token rest

/-- EVENT_DISPATCH (R114). -/
def execEventDispatch (tid : Nat) (s : State) : Host.Outcome State Fault Refusal := s.act fun d => d.dispatch tid

/-- PITCH_LOAD (R127). -/
def execPitchLoad (s : State) : Host.Outcome State Fault Refusal := s.upd fun d => d.pitchLoad

/-- PITCH_LOAD_DONE (R127). -/
def execPitchLoadDone (s : State) : Host.Outcome State Fault Refusal := s.upd fun d => d.pitchLoadDone

/-- MGMT_POST_GO (R134). -/
def execMgmtPostGo (len : Nat) (s : State) : Host.Outcome State Fault Refusal := s.upd fun d => d.mgmtPost len

/-- MGMT_POST_DONE (R134). -/
def execMgmtPostDone (s : State) : Host.Outcome State Fault Refusal := s.upd fun d => d.mgmtPostDone

/-- MAINT_REPOST (R133). -/
def execMaintRepost (s : State) : Host.Outcome State Fault Refusal := s.upd fun d => d.maintRepost

end Sys2Proof.Machine
end

