-- ==== Sys2Proof/Machine/Power.lean ====
section
/-! DEFINITION. Meanings of the commands of family Power, one definition for each row of the opcode table. -/

namespace Sys2Proof.Machine

/-- POWER_STATE_REQUEST (R452). -/
def execPowerStateRequest (ps : Nat) (s : State) : Host.Outcome State Fault Refusal := s.act fun d => d.requestPs ps

/-- WAKE (R453). -/
def execWake (s : State) : Host.Outcome State Fault Refusal := s.act fun d => d.wake

/-- POWER_STATE_REACHED (R454). -/
def execPowerStateReached (s : State) : Host.Outcome State Fault Refusal := s.act fun d => d.psReached

/-- DOMAIN_REQUEST (R449). -/
def execDomainRequest (sel : DomSel) (state : Nat) (s : State) : Host.Outcome State Fault Refusal :=
  s.upd fun d => match sel with
    | .block blk n => d.requestBlock blk n state
    | .dom k => d.requestDom k state

/-- DOMAIN_STATE_REACHED (R446). -/
def execDomainStateReached (dom : Nat) (failed : Bool) (s : State) : Host.Outcome State Fault Refusal :=
  s.act fun d => d.domReached dom failed

/-- DOMAIN_IDLE_GATE (R447). -/
def execDomainIdleGate (dom : Nat) (s : State) : Host.Outcome State Fault Refusal := s.upd fun d => d.domIdle dom

/-- DOMAIN_WORK_WAKE (R447). -/
def execDomainWorkWake (dom : Nat) (s : State) : Host.Outcome State Fault Refusal := s.upd fun d => d.domWake dom

/-- PLL_LOCK (R455). -/
def execPllLock (pll : Nat) (s : State) : Host.Outcome State Fault Refusal := s.upd fun d => d.pllLock pll

/-- PLL_LOCK_LOSS (R456). -/
def execPllLockLoss (pll : Option Nat) (s : State) : Host.Outcome State Fault Refusal := s.act fun d => d.clockFault pll

end Sys2Proof.Machine
end

