-- ==== Sys2Proof/Machine/PowerFail.lean ====
section
/-! DEFINITION. Meanings of the commands of family PowerFail, one definition for each row of the opcode table. -/

namespace Sys2Proof.Machine

/-- PFAIL_FALL (R457). -/
def execPfailFall (s : State) : Host.Outcome State Fault Refusal := s.act fun d => d.pfailFall

/-- PFAIL_GLITCH (R457). -/
def execPfailGlitch (s : State) : Host.Outcome State Fault Refusal := s.act fun d => d.pfailGlitch

/-- PFAIL_FILTER_PASS (R458). -/
def execPfailFilterPass (s : State) : Host.Outcome State Fault Refusal := s.act fun d => d.pfailPass

/-- DUMP_START (R288). -/
def execDumpStart (s : State) : Host.Outcome State Fault Refusal := s.act fun d => d.dumpBegins

/-- DUMP_END (R289). -/
def execDumpEnd (s : State) : Host.Outcome State Fault Refusal := s.act fun d => d.dumpEnds

/-- PFAIL_RISE (R460). -/
def execPfailRise (s : State) : Host.Outcome State Fault Refusal := s.act fun d => d.pfailRise

end Sys2Proof.Machine
end

