-- ==== Sys2Proof/Machine/Reset.lean ====
section
/-! DEFINITION. Meanings of the commands of family Reset, one definition for each row of the opcode table. -/

namespace Sys2Proof.Machine

/-- COLD_RESET (R48). -/
def execColdReset (unitId bootMode : Nat) (resetLow : Bool) (s : State) : Host.Outcome State Fault Refusal :=
  s.coldReset unitId bootMode resetLow

/-- PIN_RESET (R48). -/
def execPinReset (ns : Nat) (s : State) : Host.Outcome State Fault Refusal := s.pinReset ns

/-- WARM_RESET (R52). -/
def execWarmReset (key : Nat) (s : State) : Host.Outcome State Fault Refusal := s.upd fun d => d.warmRequest key

/-- WDOG_EXPIRY (R509). -/
def execWdogExpiry (s : State) : Host.Outcome State Fault Refusal := s.upd fun d => d.wdogExpire

/-- WDOG_KICK (R509). -/
def execWdogKick (ms : Nat) (kick : Bool) (s : State) : Host.Outcome State Fault Refusal :=
  s.upd fun d => d.wdogWrite ms kick

/-- PWR_GOOD_FALL (R491). -/
def execPwrGoodFall (burnt : Bool) (s : State) : Host.Outcome State Fault Refusal := s.powerFall burnt

/-- RESET_N_RISE (R498). -/
def execResetNRise (unitId bootMode : Nat) (s : State) : Host.Outcome State Fault Refusal := s.resetRise unitId bootMode

end Sys2Proof.Machine
end

