-- ==== Sys2Proof/Machine/Service.lean ====
section
/-! DEFINITION. Meanings of the commands of family Service, one definition for each row of the opcode table. -/

namespace Sys2Proof.Machine

/-- I3C_CCC (R502). -/
def execI3cCcc (c : Ccc) (s : State) : Host.Outcome State Fault Refusal := s.upd fun d => d.i3cCcc c

/-- JTAG_EXTEST (R505). -/
def execJtagExtest (levels shift : List Bool) (s : State) : Host.Outcome State Fault Refusal :=
  s.tap fun d => d.jtagExtest levels shift

/-- JTAG_SAMPLE_PRELOAD (R505). -/
def execJtagSamplePreload (levels shift : List Bool) (s : State) : Host.Outcome State Fault Refusal :=
  s.tap fun d => d.jtagSample levels shift

/-- JTAG_BYPASS (R505). -/
def execJtagBypass (shift : List Bool) (s : State) : Host.Outcome State Fault Refusal := s.tap fun d => d.jtagBypass shift

end Sys2Proof.Machine
end

