-- ==== Sys2Proof/Machine/Tether.lean ====
section
/-! DEFINITION. Meanings of the commands of family Tether, one definition for each row of the opcode table. -/

namespace Sys2Proof.Machine

/-- TETHER_LANE_LOSS (R231). -/
def execTetherLaneLoss (sled : Nat) (s : State) : Host.Outcome State Fault Refusal := s.act fun d => d.laneLoss sled

/-- TETHER_RETRAIN_END (R231). -/
def execTetherRetrainEnd (sled : Nat) (ok : Bool) (s : State) : Host.Outcome State Fault Refusal :=
  s.act fun d => d.retrainEnd sled ok

/-- TETHER_LINK_FRAME (R235). -/
def execTetherLinkFrame (h : RxHdr) (op data : Nat) (nak : Bool) (s : State) : Host.Outcome State Fault Refusal :=
  s.act fun d => d.rxLink h op data nak

/-- TETHER_REPLAY_TIMEOUT (R234). -/
def execTetherReplayTimeout (sled : Nat) (s : State) : Host.Outcome State Fault Refusal :=
  s.act fun d => d.replayTimeout sled

/-- TETHER_RESP (R238). -/
def execTetherResp (h : RxHdr) (tag result temp exec held : Nat) (s : State) : Host.Outcome State Fault Refusal :=
  s.act fun d => d.rxResp h tag result temp exec held

/-- TETHER_RDATA (R236). -/
def execTetherRdata (h : RxHdr) (tag : Nat) (pass : Bool) (cw : Codeword) (s : State) : Host.Outcome State Fault Refusal :=
  s.act fun d => d.rxData h tag pass cw

/-- TETHER_CLAIM_REPLY (R240). -/
def execTetherClaimReply (h : RxHdr) (claim accepted rejected : Nat) (held busy : List Nat) (s : State) : Host.Outcome State Fault Refusal :=
  s.act fun d => d.rxClaimReply h claim accepted rejected held busy

/-- TETHER_STATUS (R244). -/
def execTetherStatus (h : RxHdr) (temp flags : Nat) (held temps : List Nat) (s : State) : Host.Outcome State Fault Refusal :=
  s.act fun d => (d.rxStatus h temp flags held temps).tempMoves

/-- STATUS_LATE (R244). -/
def execStatusLate (sled : Nat) (s : State) : Host.Outcome State Fault Refusal := s.act fun d => d.statusLate sled

/-- TTH_CLAIM_CMD (R242). -/
def execTthClaimCmd (epoch sleds channels : Nat) (s : State) : Host.Outcome State Fault Refusal :=
  s.act fun d => d.claimCmd epoch sleds channels

/-- CLAIM_RESEND_TIMEOUT (R242). -/
def execClaimResendTimeout (sled : Nat) (s : State) : Host.Outcome State Fault Refusal := s.act fun d => d.claimTimeout sled

/-- NAND_OP_TIMEOUT (R248). -/
def execNandOpTimeout (sled tag : Nat) (s : State) : Host.Outcome State Fault Refusal := s.act fun d => d.opTimeout sled tag

/-- MDA_SLED_RELOAD (R247). -/
def execMdaSledReload (sled : Nat) (s : State) : Host.Outcome State Fault Refusal := s.act fun d => d.sledReload sled

/-- MEDIA_GATE_LIST_START (R252). -/
def execMediaGateListStart (s : State) : Host.Outcome State Fault Refusal := s.act fun d => d.mediaListStart.heldActs 0x16 0

/-- NAND_PROGRAM_ISSUE (R253). -/
def execNandProgramIssue (req tag : Nat) (s : State) : Host.Outcome State Fault Refusal :=
  s.act fun d => d.programIssue req tag

/-- NAND_READ_ISSUE (R176). -/
def execNandReadIssue (req tag : Nat) (s : State) : Host.Outcome State Fault Refusal := s.act fun d => d.readIssue req tag

/-- MEDIA_SUSPEND_SEND (R254). -/
def execMediaSuspendSend (sled ch die tag : Nat) (g1 : Bool) (s : State) : Host.Outcome State Fault Refusal :=
  s.act fun d => d.suspendSend sled ch die tag g1

/-- MEDIA_RESUME_SEND (R254). -/
def execMediaResumeSend (sled ch die tag : Nat) (s : State) : Host.Outcome State Fault Refusal :=
  s.act fun d => d.resumeSend sled ch die tag

/-- TETHER_LINK_UP (R231). -/
def execTetherLinkUp (sled : Nat) (o : CheckObs) (s : State) : Host.Outcome State Fault Refusal :=
  s.act fun d => d.linkReturns sled o

end Sys2Proof.Machine
end

