-- ==== Sys2Proof/Machine/Transport.lean ====
section
/-! DEFINITION. Meanings of the commands of family Transport, one definition for each row of the opcode table. -/

namespace Sys2Proof.Machine

/-- ROCE_REQUEST_RECEIVE (R329). -/
def execRoceRequestReceive (pipe n tenant psn : Nat) (op : ReqOp) (ce : Bool) (s : State) : Host.Outcome State Fault Refusal :=
  s.act fun d => d.roceRequest pipe n tenant psn op ce

/-- ACK_COALESCE_EXPIRY (R329). -/
def execAckCoalesceExpiry (n : Nat) (s : State) : Host.Outcome State Fault Refusal := s.act fun d => d.ackCoalesce n

/-- ROCE_ACK_RECEIVE (R331). -/
def execRoceAckReceive (pipe n tenant psn code msn : Nat) (s : State) : Host.Outcome State Fault Refusal :=
  s.act fun d => d.roceAck pipe n tenant psn code msn

/-- ROCE_NAK_RECEIVE (R331). -/
def execRoceNakReceive (pipe n tenant psn : Nat) (nak : Nak) (s : State) : Host.Outcome State Fault Refusal :=
  s.act fun d => d.roceNak pipe n tenant psn nak

/-- ROCE_READ_RESPONSE (R331). -/
def execRoceReadResponse (pipe n tenant psn : Nat) (data : List Byte) (ce : Bool) (s : State) : Host.Outcome State Fault Refusal :=
  s.act fun d => d.roceReadResponse pipe n tenant psn data ce

/-- ROCE_ACK_TIMEOUT (R331). -/
def execRoceAckTimeout (n : Nat) (s : State) : Host.Outcome State Fault Refusal := s.act fun d => d.roceTimeout n

/-- RNR_TIMER_EXPIRY (R331). -/
def execRnrTimerExpiry (n : Nat) (s : State) : Host.Outcome State Fault Refusal := s.act fun d => d.rnrExpiry n

/-- CNP_RECEIVE (R333). -/
def execCnpReceive (pipe n tenant : Nat) (s : State) : Host.Outcome State Fault Refusal :=
  s.act fun d => d.cnpReceive pipe n tenant

/-- CM_MAD_RECEIVE (R328). -/
def execCmMadReceive (x : Desc) (data : List Byte) (s : State) : Host.Outcome State Fault Refusal :=
  s.act fun d => if d.transOn 0x0C then d.wardenRing x (Memory.setBytes [] 0 data) else d

/-- CONTEXT_FETCH_DONE (R327). -/
def execContextFetchDone (n : Nat) (s : State) : Host.Outcome State Fault Refusal := s.act fun d => d.contextFetched n

/-- CONTEXT_OPEN_RESUME (R326). -/
def execContextOpenResume (blk : Nat) (s : State) : Host.Outcome State Fault Refusal := s.act fun d => d.openResume blk

/-- XPT_CTX_OPEN (R325). -/
def execXptCtxOpen (s : State) : Host.Outcome State Fault Refusal := s.act fun d => d.xptOpen

/-- XPT_CTX_CLOSE (R325). -/
def execXptCtxClose (n : Nat) (s : State) : Host.Outcome State Fault Refusal := s.act fun d => d.xptClose n

/-- XPT_CTX_MOVE (R345). -/
def execXptCtxMove (n : Nat) (s : State) : Host.Outcome State Fault Refusal := s.act fun d => d.xptMove n

/-- STR_CTX_BIND (R341). -/
def execStrCtxBind (n slot : Nat) (s : State) : Host.Outcome State Fault Refusal := s.act fun d => d.strBind n slot

/-- STR_CTX_CLOSE (R325). -/
def execStrCtxClose (n : Nat) (s : State) : Host.Outcome State Fault Refusal := s.act fun d => d.strClose n

/-- TCP_SYN_RECEIVE (R337). -/
def execTcpSynReceive (port tenant : Nat) (s : State) : Host.Outcome State Fault Refusal :=
  s.act fun d => d.tcpSyn port tenant

/-- TCP_SEGMENT_RECEIVE (R337). -/
def execTcpSegmentReceive (seg : TcpIn) (s : State) : Host.Outcome State Fault Refusal :=
  s.act fun d => match seg with
    | .conn pipe n tenant g => d.tcpSegment pipe n tenant g
    | .opens port c => d.tcpOpen port c
    | .stray port tenant => d.tcpStray port tenant

/-- TCP_RTO_EXPIRY (R337). -/
def execTcpRtoExpiry (n : Nat) (s : State) : Host.Outcome State Fault Refusal := s.act fun d => d.tcpRto n

/-- ICREQ (R338). -/
def execIcreq (n pfv hpda : Nat) (hdgst ddgst lenOk : Bool) (s : State) : Host.Outcome State Fault Refusal :=
  s.act fun d => d.icReq n pfv hpda hdgst ddgst lenOk

/-- CAPSULECMD (R338). -/
def execCapsulecmd (n : Nat) (k : HeldCap) (lenOk digestsOk : Bool) (s : State) : Host.Outcome State Fault Refusal :=
  s.act fun d => d.capsuleCmd n k lenOk digestsOk

/-- H2CDATA (R340). -/
def execH2cdata (n ttag off : Nat) (data : List Byte) (lenOk digestsOk : Bool) (s : State) : Host.Outcome State Fault Refusal :=
  s.act fun d => d.h2cData n ttag off data lenOk digestsOk

/-- H2CTERMREQ (R338). -/
def execH2ctermreq (n : Nat) (s : State) : Host.Outcome State Fault Refusal := s.act fun d => d.h2cTerm n

/-- TLS_RECORD_RECEIVE (R342). -/
def execTlsRecordReceive (n : Nat) (header sealed : List Byte) (s : State) : Host.Outcome State Fault Refusal :=
  s.act fun d => d.tlsRecord n header sealed

/-- TLS_KEYUPDATE_RECEIVE (R343). -/
def execTlsKeyupdateReceive (n : Nat) (s : State) : Host.Outcome State Fault Refusal := s.act fun d => d.tlsKeyUpdate n

/-- TLS_ALERT_RECEIVE (R341). -/
def execTlsAlertReceive (n : Nat) (s : State) : Host.Outcome State Fault Refusal := s.act fun d => d.tlsAlert n

end Sys2Proof.Machine
end

