-- ==== Sys2Proof/Machine/Trust.lean ====
section
/-! DEFINITION. Meanings of the commands of family Trust, one definition for each row of the opcode table. -/

namespace Sys2Proof.Machine

/-- ATTEST_REPORT (R443). -/
def execAttestReport (s : State) : Host.Outcome State Fault Refusal := s.upd fun d => d.attest

/-- KEK_IMPORT (R436). -/
def execKekImport (s : State) : Host.Outcome State Fault Refusal := s.upd fun d => d.kekImport

/-- KEK_UNSEAL (R436). -/
def execKekUnseal (s : State) : Host.Outcome State Fault Refusal := s.upd fun d => d.kekUnseal

/-- FUSE_REQUEST (R440). -/
def execFuseRequest (s : State) : Host.Outcome State Fault Refusal := s.upd fun d => d.fuseRequest

/-- ENROLL (R441). -/
def execEnroll (s : State) : Host.Outcome State Fault Refusal := s.fuses 1

/-- REVOKE (R440). -/
def execRevoke (s : State) : Host.Outcome State Fault Refusal := s.fuses 2

/-- RAISE_WDN (R440). -/
def execRaiseWdn (s : State) : Host.Outcome State Fault Refusal := s.fuses 3

/-- RAISE_PGM (R440). -/
def execRaisePgm (s : State) : Host.Outcome State Fault Refusal := s.fuses 4

/-- DECOMMISSION (R440). -/
def execDecommission (s : State) : Host.Outcome State Fault Refusal := s.fuses 5

/-- CERT_EXPORT (R437). -/
def execCertExport (s : State) : Host.Outcome State Fault Refusal := s.upd fun d => d.certExport

/-- SPDM_SIGN (R438). -/
def execSpdmSign (s : State) : Host.Outcome State Fault Refusal := s.upd fun d => d.spdmSign

/-- ANCHOR_REQUEST_DONE (R440). -/
def execAnchorRequestDone (s : State) : Host.Outcome State Fault Refusal := s.upd fun d => d.ancDone

/-- GET_VERSION (R444). -/
def execGetVersion (s : State) : Host.Outcome State Fault Refusal := s.upd fun d => d.getVersion

/-- GET_CAPABILITIES (R444). -/
def execGetCapabilities (s : State) : Host.Outcome State Fault Refusal := s.upd fun d => d.getCapabilities

/-- NEGOTIATE_ALGORITHMS (R444). -/
def execNegotiateAlgorithms (ed448 sha3 : Bool) (s : State) : Host.Outcome State Fault Refusal :=
  s.upd fun d => d.negotiate ed448 sha3

/-- GET_DIGESTS (R444). -/
def execGetDigests (s : State) : Host.Outcome State Fault Refusal := s.upd fun d => d.getDigests

/-- GET_CERTIFICATE (R444). -/
def execGetCertificate (slot offset length : Nat) (s : State) : Host.Outcome State Fault Refusal :=
  s.upd fun d => d.getCertificate slot offset length

/-- CHALLENGE (R444). -/
def execChallenge (slot summary : Nat) (hash : List Byte) (s : State) : Host.Outcome State Fault Refusal :=
  s.upd fun d => d.challenge slot summary hash

/-- GET_MEASUREMENTS (R444). -/
def execGetMeasurements (index : Nat) (hash : Option (List Byte)) (s : State) : Host.Outcome State Fault Refusal :=
  s.upd fun d => d.getMeasurements index hash

/-- SPDM_UNSUPPORTED_REQUEST (R444). -/
def execSpdmUnsupportedRequest (s : State) : Host.Outcome State Fault Refusal := s.upd fun d => d.spdmUnsupported

end Sys2Proof.Machine
end

