-- ==== Sys2Proof/Machine/Dispatch.lean ====
section
/-! DEFINITION. What a command does to everything but the queue: one arm for each constructor. -/

namespace Sys2Proof.Machine

open Sys2Proof

/-- The effect of a command. -/
def exec (i : Instr) (s : State) : Host.Outcome State Fault Refusal :=
  match i with
  | .regWrite who addr value => Sys2Proof.Machine.execRegWrite who addr value s
  | .regReadClear who addr => Sys2Proof.Machine.execRegReadClear who addr s
  | .badAccess addr width => Sys2Proof.Machine.execBadAccess addr width s
  | .blockEnable blk n => Sys2Proof.Machine.execBlockEnable blk n s
  | .consistencyCheckEnd blk n o => Sys2Proof.Machine.execConsistencyCheckEnd blk n o s
  | .blockDisable blk n => Sys2Proof.Machine.execBlockDisable blk n s
  | .blockDisableDone blk n => Sys2Proof.Machine.execBlockDisableDone blk n s
  | .blockDrain blk n drain => Sys2Proof.Machine.execBlockDrain blk n drain s
  | .drained blk n => Sys2Proof.Machine.execDrained blk n s
  | .genSwapRequest blk n => Sys2Proof.Machine.execGenSwapRequest blk n s
  | .genSwapCheckEnd blk n o => Sys2Proof.Machine.execGenSwapCheckEnd blk n o s
  | .genSwapTake blk n => Sys2Proof.Machine.execGenSwapTake blk n s
  | .genDiscard blk n => Sys2Proof.Machine.execGenDiscard blk n s
  | .genRelease blk n gen => Sys2Proof.Machine.execGenRelease blk n gen s
  | .coldReset unitId bootMode resetLow => Sys2Proof.Machine.execColdReset unitId bootMode resetLow s
  | .pinReset ns => Sys2Proof.Machine.execPinReset ns s
  | .warmReset key => Sys2Proof.Machine.execWarmReset key s
  | .wdogExpiry => Sys2Proof.Machine.execWdogExpiry s
  | .wdogKick ms kick => Sys2Proof.Machine.execWdogKick ms kick s
  | .pwrGoodFall burnt => Sys2Proof.Machine.execPwrGoodFall burnt s
  | .anchorBoot flash senseBad => Sys2Proof.Machine.execAnchorBoot flash senseBad s
  | .mgmtRcvData value => Sys2Proof.Machine.execMgmtRcvData value s
  | .mgmtRcvBoot => Sys2Proof.Machine.execMgmtRcvBoot s
  | .wardenMailboxWrite value => Sys2Proof.Machine.execWardenMailboxWrite value s
  | .coreRun core run => Sys2Proof.Machine.execCoreRun core run s
  | .rasRequest ip port dst dport req => Sys2Proof.Machine.execRasRequest ip port dst dport req s
  | .rasMemoryExpiry who source => Sys2Proof.Machine.execRasMemoryExpiry who source s
  | .nvmeMiVendorC0 eid overLane req => Sys2Proof.Machine.execNvmeMiVendorC0 eid overLane req s
  | .add who ecc => Sys2Proof.Machine.execAdd who ecc s
  | .sub who ecc => Sys2Proof.Machine.execSub who ecc s
  | .mul who ecc => Sys2Proof.Machine.execMul who ecc s
  | .mulhu who ecc => Sys2Proof.Machine.execMulhu who ecc s
  | .and who ecc => Sys2Proof.Machine.execAnd who ecc s
  | .or who ecc => Sys2Proof.Machine.execOr who ecc s
  | .xor who ecc => Sys2Proof.Machine.execXor who ecc s
  | .andn who ecc => Sys2Proof.Machine.execAndn who ecc s
  | .shl who ecc => Sys2Proof.Machine.execShl who ecc s
  | .shr who ecc => Sys2Proof.Machine.execShr who ecc s
  | .sar who ecc => Sys2Proof.Machine.execSar who ecc s
  | .ror who ecc => Sys2Proof.Machine.execRor who ecc s
  | .minu who ecc => Sys2Proof.Machine.execMinu who ecc s
  | .maxu who ecc => Sys2Proof.Machine.execMaxu who ecc s
  | .clz who ecc => Sys2Proof.Machine.execClz who ecc s
  | .popc who ecc => Sys2Proof.Machine.execPopc who ecc s
  | .bext who ecc => Sys2Proof.Machine.execBext who ecc s
  | .bins who ecc => Sys2Proof.Machine.execBins who ecc s
  | .crc32c who ecc => Sys2Proof.Machine.execCrc32c who ecc s
  | .bswap who ecc => Sys2Proof.Machine.execBswap who ecc s
  | .cmpeq who ecc => Sys2Proof.Machine.execCmpeq who ecc s
  | .cmpne who ecc => Sys2Proof.Machine.execCmpne who ecc s
  | .cmpltu who ecc => Sys2Proof.Machine.execCmpltu who ecc s
  | .cmplt who ecc => Sys2Proof.Machine.execCmplt who ecc s
  | .cmpgeu who ecc => Sys2Proof.Machine.execCmpgeu who ecc s
  | .cmpge who ecc => Sys2Proof.Machine.execCmpge who ecc s
  | .tst who ecc => Sys2Proof.Machine.execTst who ecc s
  | .ld who ecc => Sys2Proof.Machine.execLd who ecc s
  | .ldw who ecc => Sys2Proof.Machine.execLdw who ecc s
  | .ldh who ecc => Sys2Proof.Machine.execLdh who ecc s
  | .ldb who ecc => Sys2Proof.Machine.execLdb who ecc s
  | .st who ecc => Sys2Proof.Machine.execSt who ecc s
  | .stw who ecc => Sys2Proof.Machine.execStw who ecc s
  | .sth who ecc => Sys2Proof.Machine.execSth who ecc s
  | .stb who ecc => Sys2Proof.Machine.execStb who ecc s
  | .ldd who ecc => Sys2Proof.Machine.execLdd who ecc s
  | .ldc who ecc => Sys2Proof.Machine.execLdc who ecc s
  | .amoadd who ecc => Sys2Proof.Machine.execAmoadd who ecc s
  | .cas who ecc => Sys2Proof.Machine.execCas who ecc s
  | .br who ecc => Sys2Proof.Machine.execBr who ecc s
  | .jal who ecc => Sys2Proof.Machine.execJal who ecc s
  | .ret who ecc => Sys2Proof.Machine.execRet who ecc s
  | .jt who ecc => Sys2Proof.Machine.execJt who ecc s
  | .loop who ecc => Sys2Proof.Machine.execLoop who ecc s
  | .done who ecc => Sys2Proof.Machine.execDone who ecc s
  | .fault who ecc => Sys2Proof.Machine.execFault who ecc s
  | .nop who ecc => Sys2Proof.Machine.execNop who ecc s
  | .ask who ecc => Sys2Proof.Machine.execAsk who ecc s
  | .await who ecc => Sys2Proof.Machine.execAwait who ecc s
  | .poll who ecc => Sys2Proof.Machine.execPoll who ecc s
  | .askAnswer id waited => Sys2Proof.Machine.execAskAnswer id waited s
  | .askLate id waited => Sys2Proof.Machine.execAskLate id waited s
  | .budgetExpiry tid => Sys2Proof.Machine.execBudgetExpiry tid s
  | .csrr who ecc => Sys2Proof.Machine.execCsrr who ecc s
  | .csrw who ecc => Sys2Proof.Machine.execCsrw who ecc s
  | .rdreg who ecc => Sys2Proof.Machine.execRdreg who ecc s
  | .rdregReturn core => Sys2Proof.Machine.execRdregReturn core s
  | .wrreg who ecc => Sys2Proof.Machine.execWrreg who ecc s
  | .eret who ecc => Sys2Proof.Machine.execEret who ecc s
  | .wfe who ecc => Sys2Proof.Machine.execWfe who ecc s
  | .wfeWake core => Sys2Proof.Machine.execWfeWake core s
  | .fence who ecc => Sys2Proof.Machine.execFence who ecc s
  | .fenceDone core => Sys2Proof.Machine.execFenceDone core s
  | .interruptTaken core => Sys2Proof.Machine.execInterruptTaken core s
  | .eventPost tenant nsh token rest => Sys2Proof.Machine.execEventPost tenant nsh token rest s
  | .eventDispatch tid => Sys2Proof.Machine.execEventDispatch tid s
  | .pitchLoad => Sys2Proof.Machine.execPitchLoad s
  | .pitchLoadDone => Sys2Proof.Machine.execPitchLoadDone s
  | .mgmtPostGo len => Sys2Proof.Machine.execMgmtPostGo len s
  | .mgmtPostDone => Sys2Proof.Machine.execMgmtPostDone s
  | .maintRepost => Sys2Proof.Machine.execMaintRepost s
  | .tallyAdd id => Sys2Proof.Machine.execTallyAdd id s
  | .tallyRead id => Sys2Proof.Machine.execTallyRead id s
  | .tallyLog id => Sys2Proof.Machine.execTallyLog id s
  | .classExactLookup id stage key => Sys2Proof.Machine.execClassExactLookup id stage key s
  | .mapLookup id => Sys2Proof.Machine.execMapLookup id s
  | .mapRelease id => Sys2Proof.Machine.execMapRelease id s
  | .mapStage id => Sys2Proof.Machine.execMapStage id s
  | .mapNamespaceInfo id => Sys2Proof.Machine.execMapNamespaceInfo id s
  | .mapMove id => Sys2Proof.Machine.execMapMove id s
  | .ledgerAdmit id kind slba nblk ranges handle => Sys2Proof.Machine.execLedgerAdmit id kind slba nblk ranges handle s
  | .ledgerRelease id => Sys2Proof.Machine.execLedgerRelease id s
  | .ropeRequest id applied => Sys2Proof.Machine.execRopeRequest id applied s
  | .ropeMark id => Sys2Proof.Machine.execRopeMark id s
  | .markExpiry ctrl cmdref => Sys2Proof.Machine.execMarkExpiry ctrl cmdref s
  | .cipherSeal id => Sys2Proof.Machine.execCipherSeal id s
  | .cipherErase id => Sys2Proof.Machine.execCipherErase id s
  | .mediaRead id => Sys2Proof.Machine.execMediaRead id s
  | .mediaWork id => Sys2Proof.Machine.execMediaWork id s
  | .stripeCandidates id => Sys2Proof.Machine.execStripeCandidates id s
  | .stripeSelect id => Sys2Proof.Machine.execStripeSelect id s
  | .hostqFetchEntry id => Sys2Proof.Machine.execHostqFetchEntry id s
  | .hostqPostCompletion id c => Sys2Proof.Machine.execHostqPostCompletion id c s
  | .xportWrite id bad => Sys2Proof.Machine.execXportWrite id bad s
  | .xportRead id => Sys2Proof.Machine.execXportRead id s
  | .streamWrite id bad => Sys2Proof.Machine.execStreamWrite id bad s
  | .streamRead id => Sys2Proof.Machine.execStreamRead id s
  | .dmaRead id => Sys2Proof.Machine.execDmaRead id s
  | .dmaWrite id => Sys2Proof.Machine.execDmaWrite id s
  | .wardenMailbox id => Sys2Proof.Machine.execWardenMailbox id s
  | .wardenPost id => Sys2Proof.Machine.execWardenPost id s
  | .capsuleArrival ctx sqe nsgl sgl seg => Sys2Proof.Machine.execCapsuleArrival ctx sqe nsgl sgl seg s
  | .completionDelivered ctx cid left => Sys2Proof.Machine.execCompletionDelivered ctx cid left s
  | .getLogPage src => Sys2Proof.Machine.execGetLogPage src s
  | .identify src => Sys2Proof.Machine.execIdentify src s
  | .abort src => Sys2Proof.Machine.execAbort src s
  | .setFeatures src data => Sys2Proof.Machine.execSetFeatures src data s
  | .getFeatures src => Sys2Proof.Machine.execGetFeatures src s
  | .asynchronousEventRequest src => Sys2Proof.Machine.execAsynchronousEventRequest src s
  | .deviceSelfTestShort src => Sys2Proof.Machine.execDeviceSelfTestShort src s
  | .deviceSelfTestExtended src => Sys2Proof.Machine.execDeviceSelfTestExtended src s
  | .deviceSelfTestAbort src => Sys2Proof.Machine.execDeviceSelfTestAbort src s
  | .selfTestEnd failed => Sys2Proof.Machine.execSelfTestEnd failed s
  | .keepAlive src => Sys2Proof.Machine.execKeepAlive src s
  | .katoExpiry ctrl => Sys2Proof.Machine.execKatoExpiry ctrl s
  | .connect ctx cid fab host sub cntlid qid sqsize kato => Sys2Proof.Machine.execConnect ctx cid fab host sub cntlid qid sqsize kato s
  | .propertyGet src => Sys2Proof.Machine.execPropertyGet src s
  | .propertySet src => Sys2Proof.Machine.execPropertySet src s
  | .disconnect ctx cid => Sys2Proof.Machine.execDisconnect ctx cid s
  | .controllerResetDrained ctrl => Sys2Proof.Machine.execControllerResetDrained ctrl s
  | .formatNvm src => Sys2Proof.Machine.execFormatNvm src s
  | .firmwareImageDownload src off data => Sys2Proof.Machine.execFirmwareImageDownload src off data s
  | .firmwareCommit src => Sys2Proof.Machine.execFirmwareCommit src s
  | .namespaceManagement src cmd => Sys2Proof.Machine.execNamespaceManagement src cmd s
  | .namespaceAttachment src handle attach ctrls => Sys2Proof.Machine.execNamespaceAttachment src handle attach ctrls s
  | .sanitizeCryptoErase src => Sys2Proof.Machine.execSanitizeCryptoErase src s
  | .sanitizeBlockErase src => Sys2Proof.Machine.execSanitizeBlockErase src s
  | .flush ctx cid => Sys2Proof.Machine.execFlush ctx cid s
  | .flushComplete ctx cid => Sys2Proof.Machine.execFlushComplete ctx cid s
  | .write ctx cid => Sys2Proof.Machine.execWrite ctx cid s
  | .read ctx cid => Sys2Proof.Machine.execRead ctx cid s
  | .writeZeroes ctx cid => Sys2Proof.Machine.execWriteZeroes ctx cid s
  | .datasetManagement ctx cid ranges => Sys2Proof.Machine.execDatasetManagement ctx cid ranges s
  | .nsEntryUpdate handle => Sys2Proof.Machine.execNsEntryUpdate handle s
  | .ledgerDeferredAdmit => Sys2Proof.Machine.execLedgerDeferredAdmit s
  | .ledgerTenUpdate tenant => Sys2Proof.Machine.execLedgerTenUpdate tenant s
  | .commitCycleBoundary => Sys2Proof.Machine.execCommitCycleBoundary s
  | .sealLeadClose => Sys2Proof.Machine.execSealLeadClose s
  | .bundleSeal => Sys2Proof.Machine.execBundleSeal s
  | .lockGrant entry applied => Sys2Proof.Machine.execLockGrant entry applied s
  | .dataLanding tenant nsh token at_ data uncommitted => Sys2Proof.Machine.execDataLanding tenant nsh token at_ data uncommitted s
  | .mapPlace what => Sys2Proof.Machine.execMapPlace what s
  | .stripeProgramPass stripe => Sys2Proof.Machine.execStripeProgramPass stripe s
  | .journalDurable => Sys2Proof.Machine.execJournalDurable s
  | .stagingFree unit => Sys2Proof.Machine.execStagingFree unit s
  | .mapPageReady page good => Sys2Proof.Machine.execMapPageReady page good s
  | .mapCacheWriteback page => Sys2Proof.Machine.execMapCacheWriteback page s
  | .pinnedMapWarm page => Sys2Proof.Machine.execPinnedMapWarm page s
  | .secureDelDeadline band => Sys2Proof.Machine.execSecureDelDeadline band s
  | .checkpointStart => Sys2Proof.Machine.execCheckpointStart s
  | .checkpointEnd root bands => Sys2Proof.Machine.execCheckpointEnd root bands s
  | .mapRecoverReplay root dump seqHigh => Sys2Proof.Machine.execMapRecoverReplay root dump seqHigh s
  | .mapRecoverScan root us dump seqHigh newRoot => Sys2Proof.Machine.execMapRecoverScan root us dump seqHigh newRoot s
  | .recoveryEnd good => Sys2Proof.Machine.execRecoveryEnd good s
  | .tetherLaneLoss sled => Sys2Proof.Machine.execTetherLaneLoss sled s
  | .tetherRetrainEnd sled ok => Sys2Proof.Machine.execTetherRetrainEnd sled ok s
  | .tetherLinkFrame h op data nak => Sys2Proof.Machine.execTetherLinkFrame h op data nak s
  | .tetherReplayTimeout sled => Sys2Proof.Machine.execTetherReplayTimeout sled s
  | .tetherResp h tag result temp exec held => Sys2Proof.Machine.execTetherResp h tag result temp exec held s
  | .tetherRdata h tag pass cw => Sys2Proof.Machine.execTetherRdata h tag pass cw s
  | .tetherClaimReply h claim accepted rejected held busy => Sys2Proof.Machine.execTetherClaimReply h claim accepted rejected held busy s
  | .tetherStatus h temp flags held temps => Sys2Proof.Machine.execTetherStatus h temp flags held temps s
  | .statusLate sled => Sys2Proof.Machine.execStatusLate sled s
  | .tthClaimCmd epoch sleds channels => Sys2Proof.Machine.execTthClaimCmd epoch sleds channels s
  | .claimResendTimeout sled => Sys2Proof.Machine.execClaimResendTimeout sled s
  | .nandOpTimeout sled tag => Sys2Proof.Machine.execNandOpTimeout sled tag s
  | .mdaSledReload sled => Sys2Proof.Machine.execMdaSledReload sled s
  | .mediaGateListStart => Sys2Proof.Machine.execMediaGateListStart s
  | .nandProgramIssue req tag => Sys2Proof.Machine.execNandProgramIssue req tag s
  | .nandReadIssue req tag => Sys2Proof.Machine.execNandReadIssue req tag s
  | .mediaSuspendSend sled ch die tag g1 => Sys2Proof.Machine.execMediaSuspendSend sled ch die tag g1 s
  | .mediaResumeSend sled ch die tag => Sys2Proof.Machine.execMediaResumeSend sled ch die tag s
  | .openStripeIdleClose stream => Sys2Proof.Machine.execOpenStripeIdleClose stream s
  | .sledGraceExpiry sled => Sys2Proof.Machine.execSledGraceExpiry sled s
  | .sledDeclareFailed sled => Sys2Proof.Machine.execSledDeclareFailed sled s
  | .sledReturn sled => Sys2Proof.Machine.execSledReturn sled s
  | .sledRetired sled => Sys2Proof.Machine.execSledRetired sled s
  | .gcAutoSelect => Sys2Proof.Machine.execGcAutoSelect s
  | .gcEraseIssue band => Sys2Proof.Machine.execGcEraseIssue band s
  | .gcEraseDone band => Sys2Proof.Machine.execGcEraseDone band s
  | .pfailFall => Sys2Proof.Machine.execPfailFall s
  | .pfailGlitch => Sys2Proof.Machine.execPfailGlitch s
  | .pfailFilterPass => Sys2Proof.Machine.execPfailFilterPass s
  | .dumpStart => Sys2Proof.Machine.execDumpStart s
  | .dumpEnd => Sys2Proof.Machine.execDumpEnd s
  | .pfailRise => Sys2Proof.Machine.execPfailRise s
  | .subportLinkChange port up => Sys2Proof.Machine.execSubportLinkChange port up s
  | .frameReceive port frame fcsGood ect corr uncorr => Sys2Proof.Machine.execFrameReceive port frame fcsGood ect corr uncorr s
  | .recirculationPass pipe ect => Sys2Proof.Machine.execRecirculationPass pipe ect s
  | .resequenceRelease port ect => Sys2Proof.Machine.execResequenceRelease port ect s
  | .classUpdateLoad count ports => Sys2Proof.Machine.execClassUpdateLoad count ports s
  | .emAdd u => Sys2Proof.Machine.execEmAdd u s
  | .emEnd u => Sys2Proof.Machine.execEmEnd u s
  | .tcamAdd u => Sys2Proof.Machine.execTcamAdd u s
  | .tcamEnd u => Sys2Proof.Machine.execTcamEnd u s
  | .indir u => Sys2Proof.Machine.execIndir u s
  | .timStep value => Sys2Proof.Machine.execTimStep value s
  | .timSlew value => Sys2Proof.Machine.execTimSlew value s
  | .ppsOutEdge => Sys2Proof.Machine.execPpsOutEdge s
  | .ppsInEdge => Sys2Proof.Machine.execPpsInEdge s
  | .egressFrameStart port => Sys2Proof.Machine.execEgressFrameStart port s
  | .producerCellResume => Sys2Proof.Machine.execProducerCellResume s
  | .auditStart => Sys2Proof.Machine.execAuditStart s
  | .auditEnd leaked => Sys2Proof.Machine.execAuditEnd leaked s
  | .schTenUpdate tenant => Sys2Proof.Machine.execSchTenUpdate tenant s
  | .schPolUpdate policer => Sys2Proof.Machine.execSchPolUpdate policer s
  | .cnpRecoverExpiry ctx => Sys2Proof.Machine.execCnpRecoverExpiry ctx s
  | .schedGateListStart => Sys2Proof.Machine.execSchedGateListStart s
  | .holdExpiry port => Sys2Proof.Machine.execHoldExpiry port s
  | .roceRequestReceive pipe n tenant psn op ce => Sys2Proof.Machine.execRoceRequestReceive pipe n tenant psn op ce s
  | .ackCoalesceExpiry n => Sys2Proof.Machine.execAckCoalesceExpiry n s
  | .roceAckReceive pipe n tenant psn code msn => Sys2Proof.Machine.execRoceAckReceive pipe n tenant psn code msn s
  | .roceNakReceive pipe n tenant psn nak => Sys2Proof.Machine.execRoceNakReceive pipe n tenant psn nak s
  | .roceReadResponse pipe n tenant psn data ce => Sys2Proof.Machine.execRoceReadResponse pipe n tenant psn data ce s
  | .roceAckTimeout n => Sys2Proof.Machine.execRoceAckTimeout n s
  | .rnrTimerExpiry n => Sys2Proof.Machine.execRnrTimerExpiry n s
  | .cnpReceive pipe n tenant => Sys2Proof.Machine.execCnpReceive pipe n tenant s
  | .cmMadReceive x data => Sys2Proof.Machine.execCmMadReceive x data s
  | .contextFetchDone n => Sys2Proof.Machine.execContextFetchDone n s
  | .contextOpenResume blk => Sys2Proof.Machine.execContextOpenResume blk s
  | .xptCtxOpen => Sys2Proof.Machine.execXptCtxOpen s
  | .xptCtxClose n => Sys2Proof.Machine.execXptCtxClose n s
  | .xptCtxMove n => Sys2Proof.Machine.execXptCtxMove n s
  | .strCtxBind n slot => Sys2Proof.Machine.execStrCtxBind n slot s
  | .strCtxClose n => Sys2Proof.Machine.execStrCtxClose n s
  | .tcpSynReceive port tenant => Sys2Proof.Machine.execTcpSynReceive port tenant s
  | .tcpSegmentReceive seg => Sys2Proof.Machine.execTcpSegmentReceive seg s
  | .tcpRtoExpiry n => Sys2Proof.Machine.execTcpRtoExpiry n s
  | .icreq n pfv hpda hdgst ddgst lenOk => Sys2Proof.Machine.execIcreq n pfv hpda hdgst ddgst lenOk s
  | .capsulecmd n k lenOk digestsOk => Sys2Proof.Machine.execCapsulecmd n k lenOk digestsOk s
  | .h2cdata n ttag off data lenOk digestsOk => Sys2Proof.Machine.execH2cdata n ttag off data lenOk digestsOk s
  | .h2ctermreq n => Sys2Proof.Machine.execH2ctermreq n s
  | .tlsRecordReceive n header sealed => Sys2Proof.Machine.execTlsRecordReceive n header sealed s
  | .tlsKeyupdateReceive n => Sys2Proof.Machine.execTlsKeyupdateReceive n s
  | .tlsAlertReceive n => Sys2Proof.Machine.execTlsAlertReceive n s
  | .keyLoad session slot => Sys2Proof.Machine.execKeyLoad session slot s
  | .keyDestroy all session slot => Sys2Proof.Machine.execKeyDestroy all session slot s
  | .sealUnit k bad => Sys2Proof.Machine.execSealUnit k bad s
  | .unitDecrypt job unit => Sys2Proof.Machine.execUnitDecrypt job unit s
  | .cipherDone => Sys2Proof.Machine.execCipherDone s
  | .generationDrained slot gen => Sys2Proof.Machine.execGenerationDrained slot gen s
  | .belayLinkEnable phys => Sys2Proof.Machine.execBelayLinkEnable phys s
  | .helloTimer => Sys2Proof.Machine.execHelloTimer s
  | .hello h payload => Sys2Proof.Machine.execHello h payload s
  | .beatTimer => Sys2Proof.Machine.execBeatTimer s
  | .beat h payload => Sys2Proof.Machine.execBeat h payload s
  | .peerBeatEdge level => Sys2Proof.Machine.execPeerBeatEdge level s
  | .beatMiss pins => Sys2Proof.Machine.execBeatMiss pins s
  | .partnerLost => Sys2Proof.Machine.execPartnerLost s
  | .belayPhyDown phy => Sys2Proof.Machine.execBelayPhyDown phy s
  | .linkGraceExpiry => Sys2Proof.Machine.execLinkGraceExpiry s
  | .belayReplayTimeout => Sys2Proof.Machine.execBelayReplayTimeout s
  | .bundle h payload => Sys2Proof.Machine.execBundle h payload s
  | .bconf h cycle part => Sys2Proof.Machine.execBconf h cycle part s
  | .trec h payload => Sys2Proof.Machine.execTrec h payload s
  | .tconf h number => Sys2Proof.Machine.execTconf h number s
  | .fwd h m => Sys2Proof.Machine.execFwd h m s
  | .join h epoch => Sys2Proof.Machine.execJoin h epoch s
  | .handback h epoch => Sys2Proof.Machine.execHandback h epoch s
  | .handbackDrained => Sys2Proof.Machine.execHandbackDrained s
  | .rejoinDone h => Sys2Proof.Machine.execRejoinDone h s
  | .handover => Sys2Proof.Machine.execHandover s
  | .handoverReceive h epoch => Sys2Proof.Machine.execHandoverReceive h epoch s
  | .fenceNow => Sys2Proof.Machine.execFenceNow s
  | .takeoverClaimDone => Sys2Proof.Machine.execTakeoverClaimDone s
  | .takeoverSecondClaimDone => Sys2Proof.Machine.execTakeoverSecondClaimDone s
  | .takeoverStateLoad root => Sys2Proof.Machine.execTakeoverStateLoad root s
  | .takeoverAcceptResume => Sys2Proof.Machine.execTakeoverAcceptResume s
  | .faultDetect cls blk n detail => Sys2Proof.Machine.execFaultDetect cls blk n detail s
  | .selftestSlice item blk n failed => Sys2Proof.Machine.execSelftestSlice item blk n failed s
  | .selftestPassStart => Sys2Proof.Machine.execSelftestPassStart s
  | .selftestPassEnd ms => Sys2Proof.Machine.execSelftestPassEnd ms s
  | .sptInject blk cls => Sys2Proof.Machine.execSptInject blk cls s
  | .attestReport => Sys2Proof.Machine.execAttestReport s
  | .kekImport => Sys2Proof.Machine.execKekImport s
  | .kekUnseal => Sys2Proof.Machine.execKekUnseal s
  | .fuseRequest => Sys2Proof.Machine.execFuseRequest s
  | .enroll => Sys2Proof.Machine.execEnroll s
  | .revoke => Sys2Proof.Machine.execRevoke s
  | .raiseWdn => Sys2Proof.Machine.execRaiseWdn s
  | .raisePgm => Sys2Proof.Machine.execRaisePgm s
  | .decommission => Sys2Proof.Machine.execDecommission s
  | .certExport => Sys2Proof.Machine.execCertExport s
  | .spdmSign => Sys2Proof.Machine.execSpdmSign s
  | .anchorRequestDone => Sys2Proof.Machine.execAnchorRequestDone s
  | .getVersion => Sys2Proof.Machine.execGetVersion s
  | .getCapabilities => Sys2Proof.Machine.execGetCapabilities s
  | .negotiateAlgorithms ed448 sha3 => Sys2Proof.Machine.execNegotiateAlgorithms ed448 sha3 s
  | .getDigests => Sys2Proof.Machine.execGetDigests s
  | .getCertificate slot offset length => Sys2Proof.Machine.execGetCertificate slot offset length s
  | .challenge slot summary hash => Sys2Proof.Machine.execChallenge slot summary hash s
  | .getMeasurements index hash => Sys2Proof.Machine.execGetMeasurements index hash s
  | .spdmUnsupportedRequest => Sys2Proof.Machine.execSpdmUnsupportedRequest s
  | .powerStateRequest ps => Sys2Proof.Machine.execPowerStateRequest ps s
  | .wake => Sys2Proof.Machine.execWake s
  | .powerStateReached => Sys2Proof.Machine.execPowerStateReached s
  | .domainRequest sel state => Sys2Proof.Machine.execDomainRequest sel state s
  | .domainStateReached dom failed => Sys2Proof.Machine.execDomainStateReached dom failed s
  | .domainIdleGate dom => Sys2Proof.Machine.execDomainIdleGate dom s
  | .domainWorkWake dom => Sys2Proof.Machine.execDomainWorkWake dom s
  | .pllLock pll => Sys2Proof.Machine.execPllLock pll s
  | .pllLockLoss pll => Sys2Proof.Machine.execPllLockLoss pll s
  | .meterBoundary => Sys2Proof.Machine.execMeterBoundary s
  | .meterBatchSigned => Sys2Proof.Machine.execMeterBatchSigned s
  | .capacitySecondTick => Sys2Proof.Machine.execCapacitySecondTick s
  | .gradeMsTick => Sys2Proof.Machine.execGradeMsTick s
  | .thresholdTick => Sys2Proof.Machine.execThresholdTick s
  | .portWindowEnd => Sys2Proof.Machine.execPortWindowEnd s
  | .samplingEvent src tenant => Sys2Proof.Machine.execSamplingEvent src tenant s
  | .sampCountWrite counter value event => Sys2Proof.Machine.execSampCountWrite counter value event s
  | .tlyFreezeWrite frozen onTrig => Sys2Proof.Machine.execTlyFreezeWrite frozen onTrig s
  | .cairnDisarm => Sys2Proof.Machine.execCairnDisarm s
  | .cairnOneShot => Sys2Proof.Machine.execCairnOneShot s
  | .cairnPeriodic => Sys2Proof.Machine.execCairnPeriodic s
  | .cairnTrigger => Sys2Proof.Machine.execCairnTrigger s
  | .snapshotSetWritten => Sys2Proof.Machine.execSnapshotSetWritten s
  | .i3cCcc c => Sys2Proof.Machine.execI3cCcc c s
  | .jtagExtest levels shift => Sys2Proof.Machine.execJtagExtest levels shift s
  | .jtagSamplePreload levels shift => Sys2Proof.Machine.execJtagSamplePreload levels shift s
  | .jtagBypass shift => Sys2Proof.Machine.execJtagBypass shift s
  | .tetherLinkUp sled o => Sys2Proof.Machine.execTetherLinkUp sled o s
  | .belayPhyUp phy => Sys2Proof.Machine.execBelayPhyUp phy s
  | .belayLinkFrame h credits nak => Sys2Proof.Machine.execBelayLinkFrame h credits nak s
  | .resetNRise unitId bootMode => Sys2Proof.Machine.execResetNRise unitId bootMode s
  | .retentionExpiry band => Sys2Proof.Machine.execRetentionExpiry band s

end Sys2Proof.Machine
end

