-- ==== Sys2Proof/Safety.lean ====
section
/-! DEFINITION. The terms the statements use: a command that takes effect, what a step keeps, and the states that the
invariants describe. -/

namespace Sys2Proof.Machine

/-- The command runs: it changes the device alone, and the device it leaves has `Q`. -/
def Runs (c : Instr) (s : State) (Q : Dev → Prop) : Prop := ∃ d, exec c s = .next { s with dev := d } ∧ Q d

/-- The command acts: its own effect leaves a device with `Q`, and then what the device watches for follows at once (hard
key limits, the spare, the partner's traffic). -/
def Acts (c : Instr) (s : State) (Q : Dev → Prop) : Prop := ∃ d, exec c s = .next { s with dev := d.settle } ∧ Q d

/-- The command gives exactly this device, and changes nothing else. -/
def Gives (c : Instr) (s : State) (e : Dev) : Prop := exec c s = .next { s with dev := e }

/-- The same, where what the device watches for follows. -/
def Settles (c : Instr) (s : State) (e : Dev) : Prop := exec c s = .next { s with dev := e.settle }

/-! ### The register space -/

/-- The registers a write of which does more than the access types of its fields say, block by block: the rows of the
command table name most of these effects. -/
def ownRegs : List (Nat × List Nat) :=
  [(0x00, [0x208, 0x228, 0x230, 0x238, 0x248]), (0x01, [0x230]), (0x02, [0x200, 0x208, 0x228, 0x230]),
   (0x03, [0x208, 0x230, 0x240]), (0x04, [0x218]), (0x05, [0x250, 0x298]), (0x09, [0x210, 0x218, 0x220]), (0x0B, [0x290]),
   (0x0C, [0x220]), (0x0D, [0x240]), (0x0F, [0x220, 0x228, 0x250, 0x258]), (0x10, [0x228, 0x240]), (0x11, [0x218]),
   (0x13, [0x218, 0x268]), (0x15, [0x258]), (0x16, [0x268]), (0x17, [0x260]), (0x18, [0x208, 0x230]),
   (0x19, [0x200, 0x260]), (0x1B, [0x220]), (0x1C, [0x300, 0x308])]

/-- Does a write of this register do more than its access types say? TALLY's sampling counters do too (R470). -/
def ownEffect (blk off : Nat) : Bool :=
  (ownRegs.any fun p => decide (p.1 = blk) && p.2.contains off) || decide (blk = 0x05 ∧ 0x380 ≤ off)

/-- Does a read of this register over this path do more than return RC fields to their reset values (R111, R127, R303,
R468)? -/
def readEffect (who : Path) (blk off : Nat) : Bool :=
  decide (blk = 0x09 ∧ 0x240 ≤ off ∧ off < 0x260) || decide (blk = 0x05 ∧ off = Reg.TLY_WIN_PEAK.RX_KIB.off) ||
    decide (blk = 0x03 ∧ off = Reg.SPT_FAULTS.ALL.off) || decide (blk = 0x13 ∧ off = Reg.PITCH_LOAD.STATE.off) ||
    (match who with
      | .core _ => decide (blk = 0x02 ∧ off = Reg.WDN_MBOX.DATA.off)
      | _ => false)

/-! ### Boot and the management paths -/

/-- The device once its fuses are sensed: each word is the OR of its two cells, and what a warm reset kept stays (R430, R52). -/
def State.sensed (s : State) : Dev :=
  if s.dev.anchor.sensed then s.dev
  else { s.dev with anchor := { s.dev.anchor with
    fuse := (List.range 64).foldl (fun (t : WTab) i => t.set i (s.hard.fuseA.get i ||| s.hard.fuseB.get i)) [], sensed := true } }

/-- The Warden image `im` is one that owner slot `k` has signed and whose version the fuses accept (R430 steps 5 to 7). -/
def Dev.bootGood (d : Dev) (im : List Byte) (k : Nat) : Prop :=
  d.ownerOf (slice im 0x40 32) = some k ∧ popcount (d.fuseW 10) ≤ leAt im 8 4 ∧
    Config.ed448Verify (d.ownerKey k) (im.take (leAt im 0x30 4)) (slice im (leAt im 0x30 4) 114) = true

/-- What `e` is after that image has booted on `d` (R430 steps 8 to 10): it is measured and copied, core 0 of WARDEN, now in
service, starts at index 0, and the recovery buffer is empty. -/
def Dev.booted (d e : Dev) (im : List Byte) (k : Nat) : Prop :=
  e.fget Reg.ANC_BOOT.STAGE = 3 ∧ e.fget Reg.ANC_BOOT.OWNER = k ∧ e.fget Reg.ANC_BOOT.SVN = leAt im 8 4 ∧
    e.isEnabled 2 = true ∧ bitOf (e.fget Reg.WDN_CORE_CTRL.RUN) 0 = true ∧ (e.core 0).cpu.pc = 0 ∧
    e.warden.ncode = leAt im 0x10 4 ∧ e.mem.wcode = codeWords (slice im 0x100 (8 * leAt im 0x10 4)) (leAt im 0x10 4) ∧
    Tab.look e.anchor.meas 3 = some (measureOf im) ∧ e.anchor.wardenRan = true ∧ e.anchor.recovery = [] ∧
    e.jnl = d.jnl ∧ e.mgmt = d.mgmt

/-- The management lane takes a datagram from address `ip` to `dst` and port `dport`: to its own address from an admitted
source, or before MGMT is enabled to the fuses' (R71, R433). -/
def Dev.laneTakes (d : Dev) (ip dst dport : Nat) : Bool :=
  let len := min 32 (d.fget Reg.MGMT_RAS_ALLOW.PREFIX_LEN)
  d.mgmt.laneUp &&
    if d.on 0x1C && decide (d.fget Reg.MGMT_CTRL.LANE_EN = 1) then
      decide (dst = d.fget Reg.MGMT_RAS.IPV4 ∧ dport = d.fget Reg.MGMT_RAS.UDP_PORT ∧
        ip / 2 ^ (32 - len) = d.fget Reg.MGMT_RAS_ALLOW.PREFIX / 2 ^ (32 - len))
    else decide (dst = field (d.fuseW 13) 31 0 ∧ dport = 0x1D2C)

/-- The path of NVMe-MI that MGMT serves: the lane, or I3C (R164). -/
def Dev.miTakes (d : Dev) (overLane : Bool) : Bool :=
  d.on 0x1C && decide ((if overLane then d.fget Reg.MGMT_CTRL.LANE_EN else d.fget Reg.MGMT_CTRL.I3C_EN) ≠ 0)

/-- An ask has this answer waiting, and nothing else of it has changed. -/
def Answered (d e : Dev) (id st data : Nat) (ws : List Word) : Prop :=
  ∃ a, Tab.look d.asks id = some a ∧ Tab.look e.asks id = some { a with answer := some (statusWord st data, ws) }

/-- The ask `id` is in flight: it is `a`, names this accelerator and call, and waits for its answer. -/
def Dev.calls (d : Dev) (id accel code : Nat) (a : Ask) : Bool :=
  decide (Tab.look d.asks id = some a) && decide (a.accel = accel) && decide (a.code = code) && a.answer.isNone

/-- MAP serves this ask: it is in service, recovery is done, and the namespace is the tenant's or does not exist, or the
ask is a work item's (R228). -/
def Dev.mapTakes (d : Dev) (a : Ask) : Bool :=
  d.serves 0x14 && decide (d.fget Reg.MAP_RECOVER.STATE = 2) &&
    ((Tab.look d.hostq.nss a.nsh).isNone || d.nsOwned a.nsh a.tenant || d.workItem a)

/-- What an admission call asks LEDGER for: the command's range, the transfer and the lock entries it needs (R176, R184). -/
def Dev.asksFor (d : Dev) (a : Ask) (kind : CmdKind) (slba nblk ranges handle : Nat) : Admission :=
  let staged := (d.unitsWhere fun u => decide (u.tag = some a.tagKey ∧ u.state = .landing)).length
  { tag := a.tagKey, ctx := a.context, cmdref := a.cmdref, token := a.token, tenant := a.tenant, nsh := a.nsh
    kind := kind, grade := d.gradeOf a.nsh, slba := slba, nblk := nblk, handle := handle
    units := if kind = .read then max nblk 1 else max staged 1
    entries := if kind = .admin then 0 else if kind = .dealloc then ranges else 1
    since := d.now, staging := staged, gen := a.gen }

/-- The transfer that a transport call asks for (R347). -/
def xferOf (a : Ask) (t : Tag) (c : Ctx) : Xfer :=
  { write := decide (a.code = 1), handle := a.arg 0, token := a.arg 2, off := bitsOf (a.arg 1) 31 0, len := bitsOf (a.arg 1) 63 32
    tenant := c.tenant, nsh := a.nsh, cmdref := a.cmdref, rope := t.rope, runToken := a.token, gen := a.gen }

/-- A transport call that its transport takes (R347): the context `c` of the handle is the tenant's and usable, the command
`t` runs, and the length lies within the command's data. -/
def Dev.xferTakes (d : Dev) (id accel code : Nat) (a : Ask) (n : Nat) (t : Tag) (c : Ctx) : Bool :=
  d.calls id accel code a && d.on (accel + 2) && decide (3 ≤ a.args.length) &&
    decide (a.context < 2 ^ 18) && decide (n = bitsOf (a.arg 0) 47 30) && decide (d.ctxAny (accel + 2) n = some c) &&
    bitOf (a.arg 0) 29 && (decide (c.tenant = a.tenant) || decide (a.tenant = 0)) && (if accel = 0x0A then decide (c.state = 1) else decide (c.state ≠ 3)) &&
    decide (d.tag (tagKey n (bitsOf (a.arg 0) 63 48)) = some t) && decide (t.state = .running ∨ t.state = .committed) &&
    decide (1 ≤ bitsOf (a.arg 1) 63 32 ∧ bitsOf (a.arg 1) 63 32 ≤ 1048576) &&
    decide (bitsOf (a.arg 1) 31 0 + bitsOf (a.arg 1) 63 32 ≤ t.moves)

/-! ### NVMe commands -/

/-- An admin command of opcode `op` that a host has outstanding: its tag is `t`, its controller `x`, and no sanitize keeps it
from running. -/
def Dev.adminTakes (d : Dev) (ctx cid op : Nat) (t : Tag) (x : Ctrl) : Bool :=
  decide (d.tag (tagKey ctx cid) = some t) && decide (t.qid = 0) && decide (sqeOpcode t.sqe = op) &&
    decide (t.state ≠ .completed) && !t.held && decide (t.remote = none) && decide (d.ctrl t.ctrl = some x) &&
    (!d.sanitizing || sanitizeOk.contains op)

/-- A Connect of this host to the subsystem `u`, number `i`, that is answered on its merits: its connection carries no queue,
no sanitize runs, and the host has an entry for the subsystem or it is a discovery one (R136, R150). -/
def Dev.connects (d : Dev) (ctx : Nat) (host sub : List Byte) (i : Nat) (u : Subsys) : Bool :=
  d.on 0x10 && !d.quiet && (d.queue ctx).isNone && !d.sanitizing &&
    decide (d.hostq.subs.find? (fun s => nqnOf s.2.nqn = nqnOf sub) = some (i, u)) &&
    (u.discovery || d.hostq.hosts.any fun h => h.hash = Config.shake256 (nqnOf host) 32 && h.subsys = i)

/-- The command runs: its arrival is out of PITCH's queue, and its tag is Running, or Committed if it was. -/
def Dev.began (d : Dev) (ctx cid : Nat) : Dev :=
  (d.dropArrival ctx cid).modTag (tagKey ctx cid) fun t =>
    { t with state := if t.state = .committed then .committed else .running, checked := true }

/-- An admin command of opcode `op` tunnelled over the management path (R162), with the entry `sqe`. -/
def Dev.mgmtTakes (d : Dev) (sqe : List Word) (op : Nat) : Bool :=
  d.on 0x10 && decide (sqeOpcode sqe = op) && (!d.sanitizing || sanitizeOk.contains op)

/-- A tunnelled command completes with a status and no data. -/
def Dev.mgmtEnds (d : Dev) (c : Cqe) : Dev := { d with hostq := { d.hostq with mgmtCqe := some c, mgmtData := none } }

/-- It completes with a status and the data it returns. -/
def Dev.ends (d : Dev) (ctx cid : Nat) (c : Cqe) (data : Option HostData) : Dev :=
  (d.modTag (tagKey ctx cid) fun t => { t with data := data }).hostDone (tagKey ctx cid) c

/-- The device as an enable check finds it: DMC trains its channels first (R60, log 81). -/
def Dev.dmcTrained (d : Dev) (blk : Nat) (o : CheckObs) : Dev := if blk = 0x1A then d.dmcTrain (d.dmcFinds o) else d

/-- The status of a command that succeeds. -/
def success : Cqe := { sct := 0, sc := 0, dnr := false }

/-- An I/O command of opcode `op` outstanding for this unit: its tag is `t`, not decoded before and not being handed over,
and `x` the controller it runs for. -/
def Dev.ioOpen (d : Dev) (ctx cid op : Nat) (t : Tag) (x : Ctrl) : Bool :=
  decide (d.tag (tagKey ctx cid) = some t) && decide (t.qid ≠ 0) && decide (sqeOpcode t.sqe = op) && !t.checked &&
    decide (t.state = .queued ∨ t.state = .running) && !d.handing t && decide (d.ctrlFor t = some x)

/-- One that the unit serves: its namespace is `n` under handle `h` on a usable path, and no sanitize runs. -/
def Dev.ioTakes (d : Dev) (ctx cid op : Nat) (t : Tag) (x : Ctrl) (h : Nat) (n : Ns) : Bool :=
  d.ioOpen ctx cid op t x && !d.sanitizing && decide (d.nsFor x (sqeNsid t.sqe) = some (h, n)) &&
    decide (d.anaFails n.anagrp = none)

/-- The I/O command runs. -/
def Dev.ioBegan (d : Dev) (ctx cid qid : Nat) : Dev :=
  (d.dropArrival ctx (qid * 65536 + cid)).modTag (tagKey ctx cid) fun t => { t with state := .running, checked := true }

/-! ### Link frames -/

/-- The frame is the one its Tether link waits for: good, next in sequence, on a link in service (R234). -/
def Dev.rxNext (d : Dev) (h : RxHdr) : Bool :=
  d.linkUp h.sled && h.good && decide (h.seq % 4096 = ((d.link h.sled).rxSeq + 1) % 4096)

/-- It is received: its number is taken, and what it acknowledges is dropped. -/
def Dev.received (d : Dev) (h : RxHdr) : Dev :=
  (d.modLink h.sled fun l => { l with rxSeq := h.seq % 4096 }).ackFrames h.sled h.ack

/-! ### Network frames -/

/-- A good frame that the sub-port receives and its pipeline parses (R298, R306). -/
def Dev.portTakes (d : Dev) (port : Nat) (bytes : List Byte) : Bool :=
  decide (port < 16) && d.on 8 (port / 4) && bitOf (d.fget Reg.PRT_LINK.UP (port / 4)) (port % 4) &&
    decide (64 ≤ bytes.length ∧ bytes.length ≤ d.fget Reg.PRT_CFG.MTU (port / 4)) &&
    !decide (bytes.getD 12 0 = 0x88 ∧ bytes.getD 13 0 = 0x08) && d.on 0x0A (port / 8) && d.on 0x0B (port / 8)

/-- The walk that the frame's first pass starts with (R303, R306, R310, R322). -/
def Dev.walkOf (d : Dev) (port : Nat) (bytes : List Byte) : Walk :=
  { port := port, seq := (Tab.look d.cls.arrived port).getD 0, data := Memory.setBytes [] 0 bytes, len := bytes.length
    stamp := ((((d.now * 8 : Nat) : Int) + signed 16 (d.fget Reg.PRT_TSCOMP.RX (port / 4))) / 8).toNat
    pgen := (d.inst 0x0A 0).active, rgen := (d.inst 0x0B 0).active
    vec := (Memory.write [] 0 1 port).write 4 2 bytes.length, end_ := bytes.length - 4
    node := d.fget Reg.PRS_CFG.START, off := 0, maxDepth := d.fget Reg.PRS_CFG.MAX_DEPTH }

/-- How that pass ends (R306). -/
def Dev.parsed (d : Dev) (port : Nat) (bytes : List Byte) : WalkEnd :=
  walk (d.graphOf (d.inst 0x0A 0).active) (d.fget Reg.PRS_CFG.MAX_DEPTH) (d.fget Reg.PRS_CFG.RECIRC = 1) 0 17
    (d.walkOf port bytes)

/-- The exact-match slots that a key of a stage may take, in the staged generation's table, in the order they are tried (R312). -/
def Dev.emSlots (d : Dev) (stage key : Nat) : List Nat :=
  let st (f : FRef) : Nat := field (d.shadow.get (regAddr 0x0B 0 (f.off + 8 * stage))) f.hi f.lo
  (buckets (st Reg.CLS_STAGE.BASE) (st Reg.CLS_STAGE.LOG2) (leBytes key 40)).flatMap fun b => (List.range 4).map fun w => b * 4 + w

/-- The walk as CLASS reads it: byte 2 of its vector is the number of headers (R311). -/
def Walk.counted (w : Walk) : Walk := { w with vec := w.vec.write 2 1 w.depth }

/-- A frame of the context `c`, resident, of its tenant, meets it: the transport works, no earlier frame of the context waits
for it, and SWITCH did not mark the frame (R324, R327). -/
def Dev.hasCtx (d : Dev) (blk n tenant : Nat) (c : Ctx) : Bool :=
  d.transOn blk && decide (d.ctx blk n = some c) && decide (c.tenant = tenant) && d.ctxIn blk n && !d.inMiss n &&
    !d.ceIn (blk - 0x0B) n

/-- What comes next in the received stream of the connection of context `c` takes effect: nothing waits before it (R327,
R343). -/
def Dev.streamTakes (d : Dev) (n : Nat) (c : Ctx) : Bool :=
  decide (d.ctx 0x0D n = some c) && d.transOn 0x0D && !(d.sconn n).rxHeld && (d.sconn n).rxWait.isEmpty && !d.inMiss n

/-- A PDU that STREAM takes on the connection of context `c` (R338, R343). -/
def Dev.pduTakes (d : Dev) (n : Nat) (c : Ctx) : Bool := d.streamTakes n c && decide (c.state = 1)

/-! ### Belay frames -/

/-- The frame is the one the Belay link waits for: good and next in sequence, on a link that is up (R390). -/
def Dev.bNext (d : Dev) (h : BHdr) : Bool :=
  d.blyUp && h.good && decide (h.seq % 2 ^ 32 = (d.belay.rxSeq + 1) % 2 ^ 32)

/-- It is received: its number is taken, and what it acknowledges is dropped. -/
def Dev.bTaken (d : Dev) (h : BHdr) : Dev := (d.modBelay fun b => { b with rxSeq := h.seq % 2 ^ 32 }).backed h.ack

/-- One more frame is sent and waits for its acknowledgement: it is `f` with the next sequence number. -/
def Dev.bSent (d e : Dev) (f : BFrame) : Prop :=
  e.belay.unacked = d.belay.unacked ++ [{ f with seq := (d.belay.txSeq + 1) % 2 ^ 32 }]

/-- The command brings a frame with this header over the Belay link. -/
def belayFrame (h : BHdr) (c : Instr) : Prop :=
  ∃ (p : List Byte) (m : FwdMsg) (a b : Nat) (nak : Bool), c = .hello h p ∨ c = .beat h p ∨ c = .bundle h p ∨
    c = .bconf h a b ∨ c = .trec h p ∨ c = .tconf h a ∨ c = .fwd h m ∨ c = .join h a ∨ c = .handback h a ∨
    c = .handoverReceive h a ∨ c = .rejoinDone (some h) ∨ c = .belayLinkFrame h a nak

/-! ### Cerri instructions -/

/-- The agent can issue its next instruction, whose word has the fields `c`: opcode `op`, legal, its guard true, allowed in
the agent's mode, and within the run's budget. -/
def Dev.ready (d : Dev) (who : Agent) (op : Nat) (m : Mach) (c : CWord) : Bool :=
  decide (d.machine who = some m) && decide ((d.codeWord m m.cpu.pc).map cword = some c) && decide (c.op = op) &&
    c.legal m.priv && m.guard c && (m.priv || !privOp c.op) && d.room m (c.slots (m.rd c.sa))

/-- The device with the instruction's slots counted. -/
def Dev.paid (d : Dev) (m : Mach) (c : CWord) : Dev := d.spend m (c.slots (m.rd c.sa))

/-- The instructions that compute their destination from operands a and b, with their opcodes and what they compute
(R86, R87). -/
def arithmetic : List ((Agent → Bool → Instr) × Nat × (Word → Word → Word)) :=
  [(.add, 0x01, fun a b => a + b), (.sub, 0x02, fun a b => a - b), (.mul, 0x03, fun a b => a * b),
   (.mulhu, 0x04, fun a b => BitVec.ofNat 64 (a.toNat * b.toNat / 2 ^ 64)), (.and, 0x05, fun a b => a &&& b),
   (.or, 0x06, fun a b => a ||| b), (.xor, 0x07, fun a b => a ^^^ b), (.andn, 0x08, fun a b => a &&& ~~~b),
   (.shl, 0x09, fun a b => a <<< (b.toNat % 64)), (.shr, 0x0A, fun a b => a >>> (b.toNat % 64)),
   (.sar, 0x0B, fun a b => BitVec.ofInt 64 (a.toInt / 2 ^ (b.toNat % 64))),
   (.ror, 0x0C, fun a b => (a >>> (b.toNat % 64)) ||| (a <<< ((64 - b.toNat % 64) % 64))),
   (.minu, 0x0D, fun a b => BitVec.ofNat 64 (min a.toNat b.toNat)), (.maxu, 0x0E, fun a b => BitVec.ofNat 64 (max a.toNat b.toNat)),
   (.clz, 0x0F, fun a _ => if a = 0 then 64 else BitVec.ofNat 64 (63 - Nat.log2 a.toNat)), (.popc, 0x10, fun a _ => BitVec.ofNat 64 (oneBits a)),
   (.crc32c, 0x14, crcUpdate), (.bswap, 0x15, fun a _ => reverseBytes a),
   (.cmpeq, 0x18, fun a b => truth (decide (a = b))), (.cmpne, 0x19, fun a b => truth (decide (a ≠ b))),
   (.cmpltu, 0x1A, fun a b => truth (decide (a.toNat < b.toNat))), (.cmplt, 0x1B, fun a b => truth (decide (a.toInt < b.toInt))),
   (.cmpgeu, 0x1C, fun a b => truth (decide (b.toNat ≤ a.toNat))), (.cmpge, 0x1D, fun a b => truth (decide (b.toInt ≤ a.toInt))),
   (.tst, 0x1E, fun a b => truth (decide (a &&& b ≠ 0)))]

/-- The loads and the stores, with their opcodes and the bytes they move (R88). -/
def loads : List ((Agent → Bool → Instr) × Nat × Nat) := [(.ld, 0x30, 8), (.ldw, 0x31, 4), (.ldh, 0x32, 2), (.ldb, 0x33, 1)]
def stores : List ((Agent → Bool → Instr) × Nat × Nat) := [(.st, 0x34, 8), (.stw, 0x35, 4), (.sth, 0x36, 2), (.stb, 0x37, 1)]

/-- The memory that admits atomics: the shared region of SRAM for a core, cluster shared memory for a thread (R77, R108). -/
def atomicAt (m : Mach) (a : Nat) : Bool := if m.priv then within a 8 0x100000 0x400000 else within a 8 0x10000 0x50000

/-- Every Cerri instruction with its opcode (R86 to R89, R96, R109, R110). -/
def instructions : List ((Agent → Bool → Instr) × Nat) :=
  arithmetic.map (fun x => (x.1, x.2.1)) ++ [(.bext, 0x11), (.bins, 0x12)] ++ loads.map (fun x => (x.1, x.2.1)) ++
    stores.map (fun x => (x.1, x.2.1)) ++
    [(.ldd, 0x38), (.ldc, 0x39), (.amoadd, 0x3A), (.cas, 0x3B), (.br, 0x40), (.jal, 0x41), (.ret, 0x42), (.jt, 0x43),
     (.loop, 0x44), (.done, 0x45), (.fault, 0x46), (.nop, 0x47), (.ask, 0x50), (.await, 0x51), (.poll, 0x52), (.csrr, 0x60),
     (.csrw, 0x61), (.rdreg, 0x62), (.wrreg, 0x63), (.eret, 0x64), (.wfe, 0x65), (.fence, 0x66)]

/-- The agent is at the word `w`, which is row `op`'s, or no row's: then it traps on any row. -/
def Dev.at (d : Dev) (who : Agent) (op : Nat) (m : Mach) (w : Word) : Bool :=
  decide (d.machine who = some m) && decide (d.codeWord m m.cpu.pc = some w) &&
    (decide ((cword w).op = op) || (cerriRow (cword w).op).isNone)

/-! ### Invariants -/

/-- The commands that touch a pin or a fuse cell: every other one leaves both as they are. -/
def touchesHard : Instr → Bool
  | .coldReset .. | .pinReset .. | .resetNRise .. | .pwrGoodFall .. | .enroll | .revoke | .raiseWdn | .raisePgm
  | .decommission => true
  | _ => false

/-- A fuse bit that is programmed stays programmed: every set bit of word `i` is set in both states. -/
def fuseKept (a b : WTab) (i : Nat) : Prop := ∀ k, (a.get i).getLsbD k = true → (b.get i).getLsbD k = true

/-- The memories and word tables of the device that commands address are in canonical form. -/
def Mems.wf (m : Mems) : Bool :=
  m.dram.wf && m.scratch.wf && m.shared.wf && m.wlocal.wf && m.wsram.wf && m.wcode.wf && m.pcode.wf

end Sys2Proof.Machine
end

