-- ==== Sys2Proof/Certificates/Slice0/Obligations.lean ====
section
/-! DEFINITION. The statements for the provers, family by family of the command table. -/

open Sys2Proof Sys2Proof.Machine

/-- Reads and writes of the register space (R8, R9, R10, R54, R57). A write of BLK_ERR clears the bits written as 1, one of
BLK_ERR_MASK sets the mask, and one of BLK_CTRL, BLK_PWR_REQ or BLK_GEN does what the rows for its fields do. A write of a
register with no effect of its own gives RW fields, and LK fields while ENABLE is 0, the value written, clears W1C bits and
sets W1S bits written as 1, leaves its other fields and every other register, and puts ST fields into the staged shadow;
while ENABLE is 1 a write that would change an LK field leaves the LK fields and sets BLK_ERR.LK_WRITE, and while a swap
is pending one of an ST field leaves the shadow and sets STAGE_BUSY. A register with an effect of its own has it (the
commands of the other rows say which). A path that may not write changes nothing. A read returns every RC field to its
reset value and leaves every other field and register; the five registers whose read does something more do it. An access
of a register that is not 64 bits wide, and any of an unmapped offset, reads zero, changes nothing and sets
BLK_ERR.ACCESS; one outside every window does nothing at all. -/
def Obligations.RegisterAccess : Prop :=
  (∀ (s : State) (who : Path) (a blk n : Nat) (v : Word), s.live = true → addrTarget a = .reg blk n 0x20 →
    s.dev.mayWrite who blk 0x20 = true →
    Acts (.regWrite who a v) s fun d => d = s.dev.setInst blk n { s.dev.inst blk n with err := (s.dev.inst blk n).err &&& ~~~v }) ∧
  (∀ (s : State) (who : Path) (a blk n : Nat) (v : Word), s.live = true → addrTarget a = .reg blk n 0x28 →
    s.dev.mayWrite who blk 0x28 = true →
    Acts (.regWrite who a v) s fun d => d = s.dev.setInst blk n { s.dev.inst blk n with errMask := v }) ∧
  (∀ (s : State) (who : Path) (a blk n : Nat) (v : Word), s.live = true → addrTarget a = .reg blk n 0x08 →
    s.dev.mayWrite who blk 0x08 = true →
    Settles (.regWrite who a v) s (if v.getLsbD 0 then (s.dev.blockDrain blk n (v.getLsbD 1)).blockEnable blk n
      else (s.dev.blockDrain blk n (v.getLsbD 1)).blockDisable blk n)) ∧
  (∀ (s : State) (who : Path) (a blk n : Nat) (v : Word), s.live = true → addrTarget a = .reg blk n 0x30 →
    s.dev.mayWrite who blk 0x30 = true → field v 2 0 ≤ 4 →
    Acts (.regWrite who a v) s fun d => (d.inst blk n).pwrReq = field v 2 0) ∧
  (∀ (s : State) (who : Path) (a blk n : Nat) (v : Word), s.live = true → addrTarget a = .reg blk n 0x40 →
    s.dev.mayWrite who blk 0x40 = true →
    Settles (.regWrite who a v) s (if v.getLsbD 36 then
        if v.getLsbD 37 then (s.dev.swapRequest blk n).genDiscard blk n else s.dev.swapRequest blk n
      else if v.getLsbD 37 then s.dev.genDiscard blk n else s.dev)) ∧
  (∀ (s : State) (who : Path) (a blk n off : Nat) (v : Word) (r : Row), s.live = true → addrTarget a = .reg blk n off →
    s.dev.mayWrite who blk off = true → inHeader off = false → rowAt blk n off = some r → ownEffect blk off = false →
    ((s.dev.inst blk n).enable = false ∨ (v ^^^ s.dev.reg blk n off) &&& r.mask (· = .lk) = 0) →
    ((s.dev.inst blk n).swap = false ∨ r.mask (· = .st) = 0) →
    Acts (.regWrite who a v) s fun d =>
      let old := s.dev.reg blk n off
      let m := r.mask (· = .rw) ||| (if (s.dev.inst blk n).enable then 0 else r.mask (· = .lk))
      let st := r.mask (· = .st)
      d.reg blk n off = ((old &&& ~~~m) ||| (v &&& m) ||| (v &&& r.mask (· = .w1s))) &&& ~~~(v &&& r.mask (· = .w1c)) ∧
      d.shadowReg blk n off = ((s.dev.shadowReg blk n off &&& ~~~st) ||| (v &&& st)) ∧
      (∀ x, x ≠ regAddr blk n off → d.regs.get x = s.dev.regs.get x ∧ d.shadow.get x = s.dev.shadow.get x) ∧
      d = { s.dev with regs := d.regs, shadow := d.shadow }) ∧
  (∀ (s : State) (who : Path) (a blk n off : Nat) (v : Word) (r : Row), s.live = true → addrTarget a = .reg blk n off →
    s.dev.mayWrite who blk off = true → inHeader off = false → rowAt blk n off = some r → ownEffect blk off = false →
    (s.dev.inst blk n).enable = true → (v ^^^ s.dev.reg blk n off) &&& r.mask (· = .lk) ≠ 0 → r.mask (· = .st) = 0 →
    Acts (.regWrite who a v) s fun d =>
      (∃ w, (w &&& r.mask (· = .lk)) = (s.dev.reg blk n off &&& r.mask (· = .lk)) ∧
        d = (s.dev.setReg blk n off w).setErr blk n errLkWrite) ∧ (d.inst blk n).err.getLsbD 0 = true) ∧
  (∀ (s : State) (who : Path) (a blk n off : Nat) (v : Word) (r : Row), s.live = true → addrTarget a = .reg blk n off →
    s.dev.mayWrite who blk off = true → inHeader off = false → rowAt blk n off = some r → ownEffect blk off = false →
    ((s.dev.inst blk n).enable = false ∨ (v ^^^ s.dev.reg blk n off) &&& r.mask (· = .lk) = 0) →
    (s.dev.inst blk n).swap = true → r.mask (· = .st) ≠ 0 →
    Acts (.regWrite who a v) s fun d =>
      d.shadow = s.dev.shadow ∧ (∃ w, d = (s.dev.setReg blk n off w).setErr blk n errStageBusy) ∧
      (d.inst blk n).err.getLsbD 5 = true) ∧
  (∀ (s : State) (who : Path) (a blk n off : Nat) (v : Word), s.live = true → addrTarget a = .reg blk n off →
    s.dev.mayWrite who blk off = true → ownEffect blk off = true →
    Settles (.regWrite who a v) s (s.dev.writeReg blk n off v)) ∧
  (∀ (s : State) (who : Path) (a blk n off : Nat) (v : Word), s.live = true → addrTarget a = .reg blk n off →
    s.dev.mayWrite who blk off = false → Settles (.regWrite who a v) s s.dev) ∧
  (∀ (s : State) (who : Path) (a blk n : Nat) (v : Word), s.live = true → addrTarget a = .unmapped blk n →
    Acts (.regWrite who a v) s fun d => d = s.dev.setErr blk n errAccess ∧ (d.inst blk n).err.getLsbD 1 = true) ∧
  (∀ (s : State) (who : Path) (a : Nat) (v : Word), s.live = true → addrTarget a = .outside →
    Settles (.regWrite who a v) s s.dev) ∧
  (∀ (s : State) (who : Path) (a blk n off : Nat) (r : Row), s.live = true → addrTarget a = .reg blk n off →
    inHeader off = false → rowAt blk n off = some r → readEffect who blk off = false →
    Runs (.regReadClear who a) s fun d =>
      (∀ f ∈ r.flds, field (d.reg blk n off) f.hi f.lo =
        if f.acc = .rc then f.rst else field (s.dev.reg blk n off) f.hi f.lo) ∧
      (∀ x, x ≠ regAddr blk n off → d.regs.get x = s.dev.regs.get x) ∧ d = { s.dev with regs := d.regs }) ∧
  (∀ (s : State) (who : Path) (a blk n off : Nat), s.live = true → addrTarget a = .reg blk n off → inHeader off = true →
    Gives (.regReadClear who a) s s.dev) ∧
  (∀ (s : State) (who : Path) (a : Nat), s.live = true → addrTarget a = .reg 3 0 Reg.SPT_FAULTS.ALL.off →
    Runs (.regReadClear who a) s fun d =>
      d.fget Reg.SPT_FAULTS.ALL = 0 ∧ d.warden = { s.dev.warden with notice := false } ∧
      d = { s.dev with regs := d.regs, warden := d.warden }) ∧
  (∀ (s : State) (who : Path) (a p : Nat), s.live = true → p < 4 → addrTarget a = .reg 9 0 (0x240 + 8 * p) →
    Runs (.regReadClear who a) s fun d =>
      (Tab.look d.tim.txts p).getD [] = ((Tab.look s.dev.tim.txts p).getD []).drop 1 ∧
      (∀ k, k ≠ p → Tab.look d.tim.txts k = Tab.look s.dev.tim.txts k) ∧
      d = { s.dev with tim := { s.dev.tim with txts := d.tim.txts } }) ∧
  (∀ (s : State) (who : Path) (a : Nat), s.live = true → addrTarget a = .reg 5 0 Reg.TLY_WIN_PEAK.RX_KIB.off →
    Runs (.regReadClear who a) s fun d =>
      Tab.look d.tally.peak (s.dev.fget Reg.TLY_WIN_SEL.PORT) = none ∧
      d = { s.dev with tally := { s.dev.tally with peak := d.tally.peak } }) ∧
  (∀ (s : State) (k a : Nat), s.live = true → addrTarget a = .reg 2 0 Reg.WDN_MBOX.DATA.off →
    Runs (.regReadClear (.core k) a) s fun d =>
      d.core k = { s.dev.core k with mbox := false } ∧ (∀ j, j ≠ k → d.core j = s.dev.core j) ∧
      d = { s.dev with warden := d.warden }) ∧
  (∀ (s : State) (who : Path) (a : Nat), s.live = true → addrTarget a = .reg 0x13 0 Reg.PITCH_LOAD.STATE.off →
    Gives (.regReadClear who a) s s.dev.loadGoesOn) ∧
  (∀ (s : State) (who : Path) (a blk n : Nat), s.live = true → addrTarget a = .unmapped blk n →
    Runs (.regReadClear who a) s fun d => d = s.dev.setErr blk n errAccess ∧ (d.inst blk n).err.getLsbD 1 = true ∧
      (s.dev.readBus who a).1 = 0) ∧
  (∀ (s : State) (who : Path) (a : Nat), s.live = true → addrTarget a = .outside →
    Runs (.regReadClear who a) s fun d => d = s.dev ∧ (s.dev.readBus who a).1 = 0) ∧
  (∀ (s : State) (a width blk n off : Nat), s.live = true → width ≠ 8 → addrTarget a = .reg blk n off →
    Runs (.badAccess a width) s fun d =>
      d = s.dev.setErr blk n errAccess ∧ (d.inst blk n).err.getLsbD 1 = true) ∧
  (∀ (s : State) (a width blk n : Nat), s.live = true → addrTarget a = .unmapped blk n →
    Runs (.badAccess a width) s fun d =>
      d = s.dev.setErr blk n errAccess ∧ (d.inst blk n).err.getLsbD 1 = true) ∧
  (∀ (s : State) (a width : Nat), s.live = true → addrTarget a = .outside → Gives (.badAccess a width) s s.dev)

/-- Service of a block (R58, R61, R62). A write of 1 to ENABLE of an idle instance out of service (or in safe state, after a
write of 0) starts its check, and of any other changes nothing; a check that refuses leaves the instance out of service
with the reason; one that passes puts it in service, with the staged values active as the next generation. A write of 0
starts a disable, which ends with the instance out of service and its error bits, mask, refusal and generation kept; it
is ignored, with DEP_HELD, while an enabled block depends on the instance, disables one in safe state at once, waits for a
check or a swap, and does nothing in CAMP. DRAIN is as written, and DRAINED follows its last work. -/
def Obligations.BlockService : Prop :=
  (∀ (s : State) (blk n : Nat), s.live = true → n < instCount blk →
    ((s.dev.inst blk n).enabled = false ∧ (s.dev.inst blk n).safe = false ∨
      (s.dev.inst blk n).enabled = false ∧ (s.dev.inst blk n).zeroed = true ∧ s.dev.spotter.unitSafe = false) →
    (s.dev.inst blk n).busy = false →
    Runs (.blockEnable blk n) s fun d =>
      d = (if blk = 0x17 then s.dev.fset Reg.TTH_LINK.STATE 1 n else s.dev).setInst blk n
        { s.dev.inst blk n with enable := true, check := some .enable }) ∧
  (∀ (s : State) (blk n : Nat), s.live = true →
    (instCount blk ≤ n ∨ (s.dev.inst blk n).enabled = true ∨ (s.dev.inst blk n).busy = true ∨
      (s.dev.inst blk n).safe = true ∧ (s.dev.inst blk n).zeroed = false) →
    Gives (.blockEnable blk n) s s.dev) ∧
  (∀ (s : State) (blk n : Nat) (o : CheckObs) (r : Nat × Nat), s.live = true → n < instCount blk →
    (s.dev.inst blk n).check = some .enable → (s.dev.dmcTrained blk o).checkResult blk n o = some r →
    Acts (.consistencyCheckEnd blk n o) s fun d =>
      d.inst blk n = { s.dev.inst blk n with enable := false, check := none, refused := true, refReason := r.1
                                             refOff := r.2, heldDisable := false } ∧
      (∀ b k, instKey b k ≠ instKey blk n → d.inst b k = s.dev.inst b k) ∧
      (∀ x, x ≠ regAddr 0x17 n Reg.TTH_IDENT.PROTO.off → x ≠ regAddr 0x17 n Reg.TTH_LINK.STATE.off →
        x ≠ regAddr 0x0A 0 Reg.PRS_GFAIL.NODE.off → d.regs.get x = (s.dev.dmcTrained blk o).regs.get x) ∧
      d = { s.dev with regs := d.regs, insts := d.insts }) ∧
  (∀ (s : State) (blk n : Nat) (o : CheckObs), s.live = true → n < instCount blk →
    blk ∈ [0x01, 0x02, 0x04, 0x05, 0x09, 0x0A, 0x0B, 0x0C, 0x0D, 0x0E, 0x11, 0x12, 0x14, 0x18, 0x1C] →
    (s.dev.inst blk n).check = some .enable → (s.dev.inst blk n).heldDisable = false → (s.dev.inst blk n).safe = false →
    s.dev.checkResult blk n o = none →
    Acts (.consistencyCheckEnd blk n o) s fun d =>
      d.inst blk n = { s.dev.inst blk n with
        check := none, refused := false, enabled := true, active := ((s.dev.inst blk n).active + 1) % 65536,
        staged := ((s.dev.inst blk n).active + 2) % 65536, drained := false }) ∧
  (∀ (s : State) (blk n : Nat) (o : CheckObs), s.live = true → n < instCount blk →
    (s.dev.inst blk n).check = some .enable → (s.dev.dmcTrained blk o).checkResult blk n o = none →
    Settles (.consistencyCheckEnd blk n o) s (((s.dev.dmcTrained blk o).intoService blk n o).heldActs blk n)) ∧
  (∀ (s : State) (blk n : Nat) (o : CheckObs), s.live = true → (s.dev.inst blk n).check ≠ some .enable →
    Settles (.consistencyCheckEnd blk n o) s s.dev) ∧
  (∀ (s : State) (blk n : Nat), s.live = true → n < instCount blk → blk ≠ 0 → (s.dev.inst blk n).enabled = true →
    (s.dev.inst blk n).safe = false → (s.dev.inst blk n).check = none → (s.dev.inst blk n).swap = false →
    (s.dev.inst blk n).disabling = false → s.dev.disableHeld blk n = false →
    Acts (.blockDisable blk n) s fun d =>
      d = s.dev.setInst blk n { s.dev.inst blk n with enable := false, drain := true, disabling := true }) ∧
  (∀ (s : State) (blk n : Nat), s.live = true → n < instCount blk → blk ≠ 0 → (s.dev.inst blk n).enabled = true →
    (s.dev.inst blk n).safe = false → (s.dev.inst blk n).check = none → (s.dev.inst blk n).swap = false →
    (s.dev.inst blk n).disabling = false → s.dev.depHeld blk n = true →
    Acts (.blockDisable blk n) s fun d => d = s.dev.setErr blk n errDepHeld ∧ (d.inst blk n).err.getLsbD 4 = true ∧
      d.on blk n = true) ∧
  (∀ (s : State) (blk n : Nat), s.live = true → n < instCount blk → blk ≠ 0 → (s.dev.inst blk n).enabled = true →
    (s.dev.inst blk n).safe = true → (s.dev.inst blk n).check = none → (s.dev.inst blk n).swap = false →
    (s.dev.inst blk n).disabling = false →
    Acts (.blockDisable blk n) s fun d =>
      (d.inst blk n).enabled = false ∧ (d.inst blk n).enable = false ∧ (d.inst blk n).disabling = false ∧
      (d.inst blk n).safe = true ∧ (d.inst blk n).zeroed = true) ∧
  (∀ (s : State) (blk n : Nat), s.live = true → n < instCount blk → blk ≠ 0 → (s.dev.inst blk n).safe = false →
    ((s.dev.inst blk n).check.isSome = true ∨ (s.dev.inst blk n).enabled = true ∧ (s.dev.inst blk n).swap = true) →
    Acts (.blockDisable blk n) s fun d => d = s.dev.setInst blk n { s.dev.inst blk n with heldDisable := true }) ∧
  (∀ (s : State) (blk n : Nat), s.live = true → n < instCount blk → blk ≠ 0 → (s.dev.inst blk n).enabled = false →
    (s.dev.inst blk n).check = none → (s.dev.inst blk n).safe = false →
    Acts (.blockDisable blk n) s fun d => d = s.dev.setInst blk n { s.dev.inst blk n with enable := false }) ∧
  (∀ (s : State), s.live = true → Settles (.blockDisable 0 0) s s.dev) ∧
  (∀ (s : State) (blk n : Nat), s.live = true → n < instCount blk → (s.dev.inst blk n).disabling = true →
    Acts (.blockDisableDone blk n) s fun d =>
      (d.inst blk n).enabled = false ∧ (d.inst blk n).enable = false ∧ (d.inst blk n).disabling = false ∧
      (d.inst blk n).drain = false ∧ (d.inst blk n).drained = false ∧ (d.inst blk n).draining = [] ∧
      (d.inst blk n).active = (s.dev.inst blk n).active ∧
      (d.inst blk n).staged = ((s.dev.inst blk n).active + 1) % 65536 ∧
      (d.inst blk n).err = (s.dev.inst blk n).err ∧ (d.inst blk n).errMask = (s.dev.inst blk n).errMask ∧
      (d.inst blk n).refReason = (s.dev.inst blk n).refReason ∧ (d.inst blk n).refOff = (s.dev.inst blk n).refOff ∧
      (d.inst blk n).pwrReq = (s.dev.inst blk n).pwrReq ∧ (d.inst blk n).safe = (s.dev.inst blk n).safe) ∧
  (∀ (s : State) (blk n : Nat), s.live = true → (s.dev.inst blk n).disabling = false →
    Settles (.blockDisableDone blk n) s s.dev) ∧
  (∀ (s : State) (blk n : Nat) (v : Bool), s.live = true → n < instCount blk → (s.dev.inst blk n).disabling = false →
    Runs (.blockDrain blk n v) s fun d =>
      d = s.dev.setInst blk n { s.dev.inst blk n with drain := v, drained := (s.dev.inst blk n).drained && v }) ∧
  (∀ (s : State) (blk n : Nat), s.live = true → n < instCount blk → (s.dev.inst blk n).drain = true →
    (s.dev.inst blk n).disabling = false →
    Runs (.drained blk n) s fun d => d = s.dev.setInst blk n { s.dev.inst blk n with drained := true })

/-- Generation swaps (R64, R65, R66). A request on an idle instance in service starts the check; on any other it changes
nothing. A refused swap changes no generation and sets SWAP_REFUSED. A swap that passes, in a block whose swap point is at
once, makes the staged generation active while the one before drains; LEDGER and ROPE take it at a commit-cycle boundary
after the request, PITCH at a boundary after the one it paused at, and the two gate lists at their start, with nothing
left to drain. A discard makes the shadow equal the values in effect. A generation leaves the draining ones when nothing
refers to it. -/
def Obligations.GenerationSwap : Prop :=
  (∀ (s : State) (blk n : Nat), s.live = true → n < instCount blk → (s.dev.inst blk n).enabled = true →
    (s.dev.inst blk n).busy = false →
    Runs (.genSwapRequest blk n) s fun d =>
      d = (if blk = 0x13 then s.dev.wake else s.dev).setInst blk n
        { s.dev.inst blk n with swap := true, swapAt := s.dev.now, check := some .swap }) ∧
  (∀ (s : State) (blk n : Nat), s.live = true → ((s.dev.inst blk n).enabled = false ∨ (s.dev.inst blk n).busy = true) →
    Gives (.genSwapRequest blk n) s s.dev) ∧
  (∀ (s : State) (blk n : Nat) (o : CheckObs) (r : Nat × Nat), s.live = true → n < instCount blk →
    (s.dev.inst blk n).check = some .swap → (s.dev.inst blk n).heldDisable = false → s.dev.checkResult blk n o = some r →
    Acts (.genSwapCheckEnd blk n o) s fun d =>
      (d.inst blk n).err.getLsbD 6 = true ∧ (d.inst blk n).active = (s.dev.inst blk n).active ∧
      (d.inst blk n).staged = (s.dev.inst blk n).staged ∧ (d.inst blk n).swap = false ∧ (d.inst blk n).refused = true ∧
      (d.inst blk n).refReason = r.1 ∧ (d.inst blk n).refOff = r.2 ∧ d.shadow = s.dev.shadow) ∧
  (∀ (s : State) (blk n : Nat) (o : CheckObs), s.live = true → n < instCount blk → s.dev.swapsAtOnce blk = true →
    (s.dev.inst blk n).check = some .swap → (s.dev.inst blk n).heldDisable = false →
    (s.dev.inst blk n).swapFits = true → s.dev.checkResult blk n o = none →
    Acts (.genSwapCheckEnd blk n o) s fun d =>
      d.inst blk n = { s.dev.inst blk n with
        check := none, refused := false, swapReady := false, swap := false, active := (s.dev.inst blk n).staged,
        staged := ((s.dev.inst blk n).staged + 1) % 65536,
        draining := (s.dev.inst blk n).draining ++ [(s.dev.inst blk n).active] }) ∧
  (∀ (s : State) (blk n : Nat) (o : CheckObs), s.live = true → n < instCount blk →
    (s.dev.swapsAtOnce blk = false ∨ (s.dev.inst blk n).swapFits = false) → blk ≠ 0x16 →
    (s.dev.inst blk n).check = some .swap → s.dev.checkResult blk n o = none →
    Acts (.genSwapCheckEnd blk n o) s fun d =>
      d.inst blk n = { s.dev.inst blk n with check := none, refused := false, swapReady := true }) ∧
  (∀ (s : State) (o : CheckObs), s.live = true →
    (s.dev.inst 0x16 0).check = some .swap → s.dev.checkResult 0x16 0 o = none →
    Acts (.genSwapCheckEnd 0x16 0 o) s fun d =>
      (d.inst 0x16 0).check = none ∧ (d.inst 0x16 0).swapReady = true ∧ d.media.nextGates.isSome = true ∧
      (d.inst 0x16 0).active = (s.dev.inst 0x16 0).active ∧ (d.inst 0x16 0).swap = (s.dev.inst 0x16 0).swap) ∧
  (∀ (s : State) (blk n : Nat) (o : CheckObs), s.live = true → (s.dev.inst blk n).check ≠ some .swap →
    Settles (.genSwapCheckEnd blk n o) s s.dev) ∧
  (∀ (s : State) (blk : Nat), s.live = true → blk ∈ [0x11, 0x12] → (s.dev.inst blk 0).swapReady = true →
    (s.dev.inst blk 0).swapFits = true → (s.dev.inst blk 0).heldDisable = false → s.dev.now % max 1 s.dev.cycleNs = 0 →
    (s.dev.inst blk 0).swapAt < s.dev.now →
    Acts (.genSwapTake blk 0) s fun d =>
      d.inst blk 0 = { s.dev.inst blk 0 with
        swapReady := false, swap := false, active := (s.dev.inst blk 0).staged,
        staged := ((s.dev.inst blk 0).staged + 1) % 65536,
        draining := (s.dev.inst blk 0).draining ++ [(s.dev.inst blk 0).active] }) ∧
  (∀ (s : State) (p : Nat), s.live = true → (s.dev.inst 0x13 0).swapReady = true → (s.dev.inst 0x13 0).heldDisable = false →
    s.dev.pitch.pause = some p → s.dev.now % max 1 s.dev.cycleNs = 0 → cycLt p s.dev.cycle = true →
    Acts (.genSwapTake 0x13 0) s fun d =>
      d.inst 0x13 0 = { s.dev.inst 0x13 0 with
        swapReady := false, swap := false, active := (s.dev.inst 0x13 0).staged,
        staged := ((s.dev.inst 0x13 0).staged + 1) % 65536,
        draining := (s.dev.inst 0x13 0).draining ++ [(s.dev.inst 0x13 0).active] } ∧ d.pitch.pause = none) ∧
  (∀ (s : State) (t : GateTab) (at_ : Nat), s.live = true → (s.dev.inst 0x16 0).swapReady = true →
    (s.dev.inst 0x16 0).heldDisable = false → s.dev.media.nextGates = some (t, at_) → at_ ≤ s.dev.now →
    Acts (.genSwapTake 0x16 0) s fun d =>
      d.inst 0x16 0 = { s.dev.inst 0x16 0 with
        swapReady := false, swap := false, active := (s.dev.inst 0x16 0).staged,
        staged := ((s.dev.inst 0x16 0).staged + 1) % 65536 } ∧ d.media.gates = t ∧ d.media.nextGates = none) ∧
  (∀ (s : State) (t : NetGates) (at_ : Nat), s.live = true → (s.dev.inst 0x0F 0).swapReady = true →
    s.dev.swapsAtOnce 0x0F = false → (s.dev.inst 0x0F 0).heldDisable = false → s.dev.sch.next = some (t, at_) →
    at_ ≤ s.dev.now →
    Acts (.genSwapTake 0x0F 0) s fun d =>
      d.inst 0x0F 0 = { s.dev.inst 0x0F 0 with
        swapReady := false, swap := false, active := (s.dev.inst 0x0F 0).staged,
        staged := ((s.dev.inst 0x0F 0).staged + 1) % 65536 } ∧ d.sch.gates = t ∧ d.sch.next = none) ∧
  (∀ (s : State) (blk n : Nat), s.live = true → n < instCount blk → (s.dev.inst blk n).swapReady = true →
    s.dev.swapsAtOnce blk = true → (s.dev.inst blk n).swapFits = true → (s.dev.inst blk n).heldDisable = false →
    Acts (.genSwapTake blk n) s fun d =>
      d.inst blk n = { s.dev.inst blk n with
        swapReady := false, swap := false, active := (s.dev.inst blk n).staged,
        staged := ((s.dev.inst blk n).staged + 1) % 65536,
        draining := (s.dev.inst blk n).draining ++ [(s.dev.inst blk n).active] }) ∧
  (∀ (s : State) (blk n : Nat), s.live = true → n < instCount blk → (s.dev.inst blk n).swap = false → (blk = 0x0B → n ≠ 0) →
    Runs (.genDiscard blk n) s fun d =>
      d.stagedValid blk n = false ∧ d = { s.dev with shadow := d.shadow }) ∧
  (∀ (s : State), s.live = true → (s.dev.inst 0x0B 0).swap = false →
    Gives (.genDiscard 0x0B 0) s (s.dev.discardShadow 0x0B 0).clsDiscard) ∧
  (∀ (s : State) (blk n : Nat), s.live = true → (s.dev.inst blk n).swap = true → Gives (.genDiscard blk n) s s.dev) ∧
  (∀ (s : State) (blk n g : Nat), s.live = true → n < instCount blk → g ∈ (s.dev.inst blk n).draining →
    s.dev.genUsed blk g = false → (s.dev.inst blk n).swapReady = false →
    Acts (.genRelease blk n g) s fun d =>
      d.inst blk n = { s.dev.inst blk n with draining := (s.dev.inst blk n).draining.erase g } ∧
      (∀ b k, instKey b k ≠ instKey blk n → d.inst b k = s.dev.inst b k) ∧ d.shadow = s.dev.shadow ∧
      (blk ∉ [0x0A, 0x0B, 0x13] → d = { s.dev with insts := d.insts })) ∧
  (∀ (s : State) (blk n g : Nat), s.live = true →
    (g ∉ (s.dev.inst blk n).draining ∨ s.dev.genUsed blk g = true) → Settles (.genRelease blk n g) s s.dev)

/-- What a cold reset leaves (R48, R50, R57): power good, the straps of the command latched, MRAM kept, every other memory
empty, every header at its reset value with CAMP alone enabled, and the reset cause COLD with a count of 0. The commands
that wait and the fuse cells stay. -/
def Obligations.ColdResetLeaves : Prop :=
  ∀ (s : State) (u b : Nat) (low : Bool), ∃ t, exec (.coldReset u b low) s = .next t ∧
    t.pending = s.pending ∧ t.hard = { s.hard with pwrGood := true, resetN := !low, unitIdPin := u, bootModePin := b } ∧
    t.dev.mem = {} ∧ t.dev.jnl.mram = s.dev.jnl.mram ∧ t.dev.asks = [] ∧
    (∀ blk n, t.dev.inst blk n = Inst.rst blk) ∧ (∀ blk n, t.dev.on blk n = decide (blk = 0)) ∧
    t.dev.fget Reg.CAMP_RST_CAUSE.COUNT = 0 ∧ t.dev.fget Reg.CAMP_RST_CAUSE.COLD = 1 ∧
    t.dev.fget Reg.CAMP_STRAP.UNIT_ID = u % 2 ∧ t.dev.fget Reg.CAMP_STRAP.BOOT_MODE = b % 2

/-- The other resets and the watchdog (R48, R50, R52, R498, R509). RESET_N low for at least 1 µs puts every block and every
register of a block other than CAMP at its reset value, keeps MRAM and the power-fail records, and counts itself; a pulse
of at most 0.2 µs does nothing, and one between them does one or the other. The straps are latched when RESET_N rises.
When PWR_GOOD falls only MRAM, the pins and the fuse cells are left, with what a fuse operation under way burnt. The key of
CAMP_WRST, and the watchdog's expiry, cause a warm reset: CAMP's and MGMT's headers and the registers of MGMT, the fuse
shadow, the JTAG port and MRAM stay, and DRAM when KEEP_ON_WARM was 1; every other block is at its reset value. Any other
key is a bad access. A write of WDN_WDOG sets TIMEOUT_MS and restarts the count with KICK, or when TIMEOUT_MS differs; a
watchdog with a TIMEOUT_MS of 0 does not expire. -/
def Obligations.OtherResets : Prop :=
  (∀ (s : State) (ns : Nat), s.live = true → 1000 ≤ ns → ∃ t, exec (.pinReset ns) s = .next t ∧
    t.pending = s.pending ∧ t.hard = { s.hard with resetN := false } ∧ t.dev.jnl.mram = s.dev.jnl.mram ∧
    t.dev.mem = {} ∧ t.dev.asks = [] ∧ (∀ blk n, t.dev.inst blk n = Inst.rst blk) ∧
    (∀ blk n off, blk ≠ 0 → t.dev.reg blk n off = Dev.rst.reg blk n off) ∧
    t.dev.fget Reg.CAMP_RST_CAUSE.COUNT = (s.dev.fget Reg.CAMP_RST_CAUSE.COUNT + 1) % 2 ^ 32 ∧
    t.dev.fget Reg.CAMP_RST_CAUSE.PIN = 1 ∧ t.dev.reg 0 0 0x250 = s.dev.reg 0 0 0x250 ∧
    t.dev.fget Reg.CAMP_PFAIL_NS.NS = s.dev.fget Reg.CAMP_PFAIL_NS.NS) ∧
  (∀ (s : State) (ns : Nat), (ns ≤ 200 ∨ s.live = false) → exec (.pinReset ns) s = .next s) ∧
  (∀ (s : State) (ns : Nat), s.live = true → 200 < ns → ns < 1000 →
    exec (.pinReset ns) s = .next { s with hard := { s.hard with resetN := false }
                                           dev := s.dev.takeFree.2.pinReset { s.hard with resetN := false } } ∨
      exec (.pinReset ns) s = .next { s with dev := s.dev.takeFree.2 }) ∧
  (∀ (s : State) (u b : Nat), s.hard.pwrGood = true → s.hard.resetN = false → ∃ t,
    exec (.resetNRise u b) s = .next t ∧ t.pending = s.pending ∧
    t.hard = { s.hard with resetN := true, unitIdPin := u, bootModePin := b } ∧
    t.dev.fget Reg.CAMP_STRAP.UNIT_ID = u % 2 ∧ t.dev.fget Reg.CAMP_STRAP.BOOT_MODE = b % 2 ∧
    t.dev = { s.dev with regs := t.dev.regs }) ∧
  (∀ (s : State) (u b : Nat), (s.hard.pwrGood = false ∨ s.hard.resetN = true) → exec (.resetNRise u b) s = .next s) ∧
  (∀ (s : State) (burnt : Bool), s.hard.pwrGood = true → ∃ t, exec (.pwrGoodFall burnt) s = .next t ∧
    t.pending = s.pending ∧ t.hard = { burnCells s.hard (s.dev.fuseCut burnt) with pwrGood := false } ∧
    t.dev.jnl.mram = s.dev.jnl.mram ∧ t.dev.mem = {} ∧ t.dev.asks = [] ∧ (∀ blk n, t.dev.inst blk n = Inst.rst blk)) ∧
  (∀ (s : State) (burnt : Bool), s.hard.pwrGood = false → exec (.pwrGoodFall burnt) s = .next s) ∧
  (∀ (s : State) (key : Nat), s.live = true → key % 2 ^ 16 = 0x5752 → Runs (.warmReset key) s fun d =>
    d.mgmt = s.dev.mgmt ∧ d.jtag = s.dev.jtag ∧ d.anchor.fuse = s.dev.anchor.fuse ∧ d.anchor.kek = none ∧
    d.jnl.mram = s.dev.jnl.mram ∧ d.warden = {} ∧ d.asks = [] ∧
    d.mem = { dram := if s.dev.fget Reg.DMC_CTRL.KEEP_ON_WARM = 1 then s.dev.mem.dram else [] } ∧
    d.inst 0 0 = s.dev.inst 0 0 ∧ d.inst 0x1C 0 = s.dev.inst 0x1C 0 ∧
    (∀ blk n, n < 32 → blk ≠ 0 → blk ≠ 0x1C → d.inst blk n = Inst.rst blk) ∧
    (∀ off < 0x10000, d.reg 0x1C 0 off = s.dev.reg 0x1C 0 off) ∧
    d.fget Reg.CAMP_RST_CAUSE.COUNT = (s.dev.fget Reg.CAMP_RST_CAUSE.COUNT + 1) % 2 ^ 32 ∧
    d.fget Reg.CAMP_RST_CAUSE.WARM_REQ = 1) ∧
  (∀ (s : State) (key : Nat), s.live = true → key % 2 ^ 16 ≠ 0x5752 → Runs (.warmReset key) s fun d =>
    d = s.dev.setErr 0 0 errAccess ∧ (d.inst 0 0).err.getLsbD 1 = true) ∧
  (∀ (s : State), s.live = true → s.dev.fget Reg.WDN_WDOG.TIMEOUT_MS ≠ 0 → Runs .wdogExpiry s fun d =>
    d.mgmt = s.dev.mgmt ∧ d.anchor.fuse = s.dev.anchor.fuse ∧ d.jnl.mram = s.dev.jnl.mram ∧ d.warden = {} ∧ d.asks = [] ∧
    d.mem = { dram := if s.dev.fget Reg.DMC_CTRL.KEEP_ON_WARM = 1 then s.dev.mem.dram else [] } ∧
    d.inst 0 0 = s.dev.inst 0 0 ∧ d.inst 0x1C 0 = s.dev.inst 0x1C 0 ∧
    (∀ blk n, n < 32 → blk ≠ 0 → blk ≠ 0x1C → d.inst blk n = Inst.rst blk) ∧
    d.fget Reg.WDN_WDOG.TIMEOUT_MS = 0 ∧
    d.fget Reg.CAMP_RST_CAUSE.COUNT = (s.dev.fget Reg.CAMP_RST_CAUSE.COUNT + 1) % 2 ^ 32 ∧
    d.fget Reg.CAMP_RST_CAUSE.WDOG = 1) ∧
  (∀ (s : State), s.live = true → s.dev.fget Reg.WDN_WDOG.TIMEOUT_MS = 0 → Gives .wdogExpiry s s.dev) ∧
  (∀ (s : State) (ms : Nat) (kick : Bool), s.live = true → Runs (.wdogKick ms kick) s fun d =>
    d.fget Reg.WDN_WDOG.TIMEOUT_MS = ms % 2 ^ 16 ∧
    d.warden = { s.dev.warden with
      wdog := if kick = true ∨ s.dev.fget Reg.WDN_WDOG.TIMEOUT_MS ≠ ms % 2 ^ 16 then 0 else s.dev.warden.wdog } ∧
    (∀ x, x ≠ regAddr 2 0 Reg.WDN_WDOG.TIMEOUT_MS.off → d.regs.get x = s.dev.regs.get x) ∧
    d = { s.dev with regs := d.regs, warden := d.warden })

/-- Booting (R430, R433, R51). The fuses are sensed as the OR of their two cells; a failed sense refuses with 0x0120 and a
decommissioned unit with 0x0121, with no core released and the management lane up when BOOT_MODE is 1. In BOOT_MODE 1
ANCHOR is enabled and waits for a recovery image with the lane up; in BOOT_MODE 0 it takes the image in flash. An image
that does not have the format refuses with 0x0122; one whose owner, version or signature does not hold refuses with 0x0105;
any other is measured and copied, and Warden core 0 starts on it. The recovery registers, until a Warden core has run,
append eight bytes and boot from the buffer, which a failure empties; afterwards they do nothing. -/
def Obligations.BootSteps : Prop :=
  (∀ (s : State) (flash : List Byte), s.live = true → s.dev.fget Reg.ANC_BOOT.STAGE = 0 → s.dev.anchor.sensed = false →
    Runs (.anchorBoot flash true) s fun d =>
      (d.inst 1 0).refReason = 0x0120 ∧ (d.inst 1 0).refused = true ∧ d.fget Reg.ANC_BOOT.STAGE = 4 ∧
      (d.inst 1 0).enabled = (s.dev.inst 1 0).enabled ∧ d.warden = s.dev.warden ∧
      d.mgmt.laneUp = (s.dev.mgmt.laneUp || decide (s.dev.fget Reg.CAMP_STRAP.BOOT_MODE = 1))) ∧
  (∀ (s : State) (flash : List Byte), s.live = true → s.dev.fget Reg.ANC_BOOT.STAGE = 0 → s.dev.anchor.sensed = false →
    ((s.hard.fuseA.get 9 ||| s.hard.fuseB.get 9).getLsbD 10) = true →
    Runs (.anchorBoot flash false) s fun d =>
      (d.inst 1 0).refReason = 0x0121 ∧ (d.inst 1 0).refused = true ∧ d.fget Reg.ANC_BOOT.STAGE = 4 ∧
      (d.inst 1 0).enabled = (s.dev.inst 1 0).enabled ∧
      (∀ i < 64, d.fuseW i = s.hard.fuseA.get i ||| s.hard.fuseB.get i) ∧ d.warden = s.dev.warden ∧
      d.mgmt.laneUp = (s.dev.mgmt.laneUp || decide (s.dev.fget Reg.CAMP_STRAP.BOOT_MODE = 1))) ∧
  (∀ (s : State) (flash : List Byte), s.live = true → s.dev.fget Reg.ANC_BOOT.STAGE = 0 → s.dev.anchor.sensed = false →
    ((s.hard.fuseA.get 9 ||| s.hard.fuseB.get 9).getLsbD 10) = false → s.dev.fget Reg.CAMP_STRAP.BOOT_MODE = 1 →
    Runs (.anchorBoot flash false) s fun d =>
      (d.inst 1 0).enabled = true ∧ d.mgmt.laneUp = true ∧ d.fget Reg.ANC_BOOT.STAGE = 1 ∧
      (∀ i < 64, d.fuseW i = s.hard.fuseA.get i ||| s.hard.fuseB.get i) ∧ d.warden = s.dev.warden) ∧
  (∀ (s : State) (flash : List Byte) (senseBad : Bool), s.live = true → s.dev.fget Reg.ANC_BOOT.STAGE = 0 →
    s.dev.anchor.sensed = true → s.dev.fget Reg.CAMP_STRAP.BOOT_MODE = 1 →
    Runs (.anchorBoot flash senseBad) s fun d =>
      (d.inst 1 0).enabled = true ∧ d.mgmt.laneUp = true ∧ d.fget Reg.ANC_BOOT.STAGE = 1 ∧
      d.anchor.fuse = s.dev.anchor.fuse ∧ d.warden = s.dev.warden) ∧
  (∀ (s : State) (flash : List Byte) (senseBad : Bool), s.live = true → s.dev.fget Reg.ANC_BOOT.STAGE = 0 →
    (s.dev.anchor.sensed = true ∨
      senseBad = false ∧ ((s.hard.fuseA.get 9 ||| s.hard.fuseB.get 9).getLsbD 10) = false) →
    s.dev.fget Reg.CAMP_STRAP.BOOT_MODE = 0 → wardenImage flash = none →
    Runs (.anchorBoot flash senseBad) s fun d =>
      (d.inst 1 0).enabled = true ∧ (d.inst 1 0).refReason = 0x0122 ∧ (d.inst 1 0).refused = true ∧
      d.fget Reg.ANC_BOOT.STAGE = 4 ∧ d.anchor.fuse = s.sensed.anchor.fuse ∧ d.warden = s.dev.warden) ∧
  (∀ (s : State) (flash im : List Byte) (senseBad : Bool), s.live = true → s.dev.fget Reg.ANC_BOOT.STAGE = 0 →
    (s.dev.anchor.sensed = true ∨
      senseBad = false ∧ ((s.hard.fuseA.get 9 ||| s.hard.fuseB.get 9).getLsbD 10) = false) →
    s.dev.fget Reg.CAMP_STRAP.BOOT_MODE = 0 → wardenImage flash = some im →
    Runs (.anchorBoot flash senseBad) s fun d =>
      (d.inst 1 0).enabled = true ∧ d.anchor.fuse = s.sensed.anchor.fuse ∧
      ((∃ k, s.sensed.bootGood im k ∧ s.dev.booted d im k) ∨
        (∀ k, ¬ s.sensed.bootGood im k) ∧ (d.inst 1 0).refReason = 0x0105 ∧ (d.inst 1 0).refused = true ∧
          d.fget Reg.ANC_BOOT.STAGE = 4 ∧ d.warden = s.dev.warden)) ∧
  (∀ (s : State) (flash : List Byte) (senseBad : Bool), s.live = true → s.dev.fget Reg.ANC_BOOT.STAGE ≠ 0 →
    Gives (.anchorBoot flash senseBad) s s.dev) ∧
  (∀ (s : State) (v : Word), s.live = true → s.dev.recoveryOpen = true → s.dev.anchor.recovery.length + 8 ≤ 2097152 →
    Runs (.mgmtRcvData v) s fun d =>
      d = { s.dev with anchor := { s.dev.anchor with recovery := s.dev.anchor.recovery ++ leBytes v.toNat 8 } }) ∧
  (∀ (s : State) (v : Word), s.live = true →
    (s.dev.recoveryOpen = false ∨ 2097152 < s.dev.anchor.recovery.length + 8) → Gives (.mgmtRcvData v) s s.dev) ∧
  (∀ (s : State), s.live = true → s.dev.recoveryOpen = true → wardenImage s.dev.anchor.recovery = none →
    Runs .mgmtRcvBoot s fun d =>
      d.anchor = { s.dev.anchor with recovery := [] } ∧ (d.inst 1 0).refReason = 0x0122 ∧ d.warden = s.dev.warden ∧
      d.recoveryOpen = true) ∧
  (∀ (s : State) (im : List Byte), s.live = true → s.dev.recoveryOpen = true →
    wardenImage s.dev.anchor.recovery = some im →
    Runs .mgmtRcvBoot s fun d =>
      (∃ k, s.dev.bootGood im k ∧ s.dev.booted d im k) ∨
        (∀ k, ¬ s.dev.bootGood im k) ∧ d.anchor = { s.dev.anchor with recovery := [] } ∧
          (d.inst 1 0).refReason = 0x0105 ∧ (d.inst 1 0).refused = true ∧ d.warden = s.dev.warden) ∧
  (∀ (s : State), s.live = true → s.dev.recoveryOpen = false → Gives .mgmtRcvBoot s s.dev)

/-- Warden's doorbell and cores, and the register-access service on both its paths (R70 to R74, R111, R112, R164). A mailbox
write shows its value, rings every core and posts event 0x0001, as sixteen bytes of the ring, when WARDEN is in service
and the ring has room. A core whose RUN bit rises starts at index 0 with its control registers at their reset values, and
one whose bit falls halts. A repeated request gets the remembered response again and changes nothing else; a new one is
served and remembered; a datagram to another address, or on a path that is not enabled, does nothing; a requester whose
ten seconds are over is forgotten. A request of a bad form answers 0x04 and a misaligned one 0x02 with nothing accessed; a
read of a register answers its value, a write that the policy allows is done, one it denies answers 0x03, and an unmapped
offset answers 0x01 and sets BLK_ERR.ACCESS. -/
def Obligations.ManagementPaths : Prop :=
  (∀ (s : State) (v : Word), s.live = true → s.dev.on 2 = true →
    (s.dev.fget Reg.WDN_EVR_HEAD.INDEX + 1) % 4096 ≠ s.dev.fget Reg.WDN_EVR_TAIL.INDEX →
    Runs (.wardenMailboxWrite v) s fun d =>
      d.fget Reg.WDN_MBOX.DATA = v.toNat ∧
      (∀ k < 4, d.core k = { s.dev.core k with mbox := true }) ∧
      d.fget Reg.WDN_EVR_HEAD.INDEX = (s.dev.fget Reg.WDN_EVR_HEAD.INDEX + 1) % 4096 ∧
      let e : RingEntry := { time := s.dev.now, blk := 2, inst := 0, code := 1, arg := v.toNat % 2 ^ 32 }
      d.mem = { s.dev.mem with
        wsram := s.dev.mem.wsram.setBytes (ringBase + 16 * s.dev.fget Reg.WDN_EVR_HEAD.INDEX) e.bytes }) ∧
  (∀ (s : State) (v : Word), s.live = true →
    (s.dev.on 2 = false ∨ (s.dev.fget Reg.WDN_EVR_HEAD.INDEX + 1) % 4096 = s.dev.fget Reg.WDN_EVR_TAIL.INDEX) →
    Runs (.wardenMailboxWrite v) s fun d =>
      d.fget Reg.WDN_MBOX.DATA = v.toNat ∧ (∀ k < 4, d.core k = { s.dev.core k with mbox := true }) ∧
      d.fget Reg.WDN_EVR_LOST.COUNT = (s.dev.fget Reg.WDN_EVR_LOST.COUNT + 1) % 2 ^ 32 ∧ d.mem = s.dev.mem) ∧
  (∀ (s : State) (k : Nat), s.live = true → k < 4 → bitOf (s.dev.fget Reg.WDN_CORE_CTRL.RUN) k = false →
    Runs (.coreRun k true) s fun d =>
      d.fget Reg.WDN_CORE_CTRL.RUN = s.dev.fget Reg.WDN_CORE_CTRL.RUN + 2 ^ k ∧
      Tab.look d.warden.cores k = some { cpu := { (s.dev.core k).cpu with pc := 0 }, mbox := (s.dev.core k).mbox } ∧
      (∀ j ≠ k, Tab.look d.warden.cores j = Tab.look s.dev.warden.cores j) ∧ d.mem = s.dev.mem) ∧
  (∀ (s : State) (k : Nat), s.live = true → k < 4 → bitOf (s.dev.fget Reg.WDN_CORE_CTRL.RUN) k = true →
    Runs (.coreRun k false) s fun d =>
      d.fget Reg.WDN_CORE_CTRL.RUN = s.dev.fget Reg.WDN_CORE_CTRL.RUN - 2 ^ k ∧ d.warden = s.dev.warden ∧
      d.mem = s.dev.mem) ∧
  (∀ (s : State) (k : Nat) (run : Bool), s.live = true → k < 4 → bitOf (s.dev.fget Reg.WDN_CORE_CTRL.RUN) k = run →
    Runs (.coreRun k run) s fun d =>
      d.fget Reg.WDN_CORE_CTRL.RUN = s.dev.fget Reg.WDN_CORE_CTRL.RUN ∧ d.warden = s.dev.warden ∧ d.mem = s.dev.mem) ∧
  (∀ (s : State) (k : Nat) (run : Bool), s.live = true → 3 < k → Gives (.coreRun k run) s s.dev) ∧
  (∀ (s : State) (ip port dst dport : Nat) (req : List Byte) (m : RasMemo), s.live = true →
    s.dev.laneTakes ip dst dport = true →
    s.dev.mgmt.lane.find? (fun m => decide (m.source = ip * 65536 + port ∧ m.seq = leAt req 4 4)) = some m →
    Acts (.rasRequest ip port dst dport req) s fun d =>
      d = { s.dev with mgmt := { s.dev.mgmt with
        laneTx := m.response
        lane := (m :: s.dev.mgmt.lane.filter fun x => x.source ≠ m.source).take 16 } }) ∧
  (∀ (s : State) (ip port dst dport : Nat) (req : List Byte), s.live = true → s.dev.laneTakes ip dst dport = true →
    s.dev.mgmt.lane.find? (fun m => decide (m.source = ip * 65536 + port ∧ m.seq = leAt req 4 4)) = none →
    Acts (.rasRequest ip port dst dport req) s fun d =>
      d.mgmt.laneTx = (s.dev.rasServe .lane req).1 ∧ d = { (s.dev.rasServe .lane req).2 with mgmt := d.mgmt } ∧
      ∃ m, d.mgmt.lane.head? = some m ∧ m.source = ip * 65536 + port ∧ m.seq = leAt req 4 4 ∧
        m.response = (s.dev.rasServe .lane req).1 ∧ d.mgmt.lane.length ≤ 16) ∧
  (∀ (s : State) (ip port dst dport : Nat) (req : List Byte), s.live = true → s.dev.laneTakes ip dst dport = false →
    Settles (.rasRequest ip port dst dport req) s s.dev) ∧
  (∀ (s : State) (src : Nat), s.live = true → Runs (.rasMemoryExpiry .lane src) s fun d =>
      d = { s.dev with mgmt := { s.dev.mgmt with lane := s.dev.mgmt.lane.filter fun m => m.source ≠ src } }) ∧
  (∀ (s : State) (src : Nat), s.live = true → Runs (.rasMemoryExpiry .mctp src) s fun d =>
      d = { s.dev with mgmt := { s.dev.mgmt with mctp := s.dev.mgmt.mctp.filter fun m => m.source ≠ src } }) ∧
  (∀ (s : State) (k src : Nat), s.live = true → Gives (.rasMemoryExpiry (.core k) src) s s.dev) ∧
  (∀ (s : State) (eid : Nat) (overLane : Bool) (req : List Byte), s.live = true → s.dev.miTakes overLane = true →
    s.dev.mgmt.mctp.find? (fun m => decide (m.source = eid ∧ m.seq = leAt req 4 4)) = none → 16 ≤ req.length →
    Acts (.nvmeMiVendorC0 eid overLane req) s fun d =>
      d.mgmt.mctpTx = (s.dev.rasServe .mctp req).1 ∧ d.mgmt.mctpStatus = 0 ∧
      d = { (s.dev.rasServe .mctp req).2 with mgmt := d.mgmt } ∧
      ∃ m, d.mgmt.mctp.head? = some m ∧ m.source = eid ∧ m.seq = leAt req 4 4 ∧
        m.response = (s.dev.rasServe .mctp req).1 ∧ d.mgmt.mctp.length ≤ 16) ∧
  (∀ (s : State) (eid : Nat) (overLane : Bool) (req : List Byte) (m : RasMemo), s.live = true →
    s.dev.miTakes overLane = true →
    s.dev.mgmt.mctp.find? (fun m => decide (m.source = eid ∧ m.seq = leAt req 4 4)) = some m → 16 ≤ req.length →
    Acts (.nvmeMiVendorC0 eid overLane req) s fun d =>
      d = { s.dev with mgmt := { s.dev.mgmt with
        mctpTx := m.response, mctpStatus := 0
        mctp := (m :: s.dev.mgmt.mctp.filter fun x => x.source ≠ m.source).take 16 } }) ∧
  (∀ (s : State) (eid : Nat) (overLane : Bool) (req : List Byte), s.live = true → s.dev.miTakes overLane = false →
    Settles (.nvmeMiVendorC0 eid overLane req) s s.dev) ∧
  (∀ (d : Dev) (req : List Byte) (who : Path),
    (leAt req 0 1 ≠ 1 ∨ ¬ (leAt req 1 1 = 1 ∨ leAt req 1 1 = 2) ∨ leAt req 3 1 = 0 ∨ 64 < leAt req 3 1 ∨
      req.length ≠ if leAt req 1 1 = 2 then 16 + 8 * leAt req 3 1 else 16) →
    d.rasServe who req = (rasHead (leAt req 1 1) 4 0 (leAt req 4 4) (leAt req 8 8), d)) ∧
  (∀ (d : Dev) (req : List Byte) (who : Path), leAt req 0 1 = 1 → (leAt req 1 1 = 1 ∨ leAt req 1 1 = 2) →
    1 ≤ leAt req 3 1 → leAt req 3 1 ≤ 64 → req.length = (if leAt req 1 1 = 2 then 16 + 8 * leAt req 3 1 else 16) →
    leAt req 8 8 % 8 ≠ 0 →
    d.rasServe who req = (rasHead (leAt req 1 1) 2 0 (leAt req 4 4) (leAt req 8 8), d)) ∧
  (∀ (d : Dev) (req : List Byte) (who : Path) (blk n off : Nat), leAt req 0 1 = 1 → leAt req 1 1 = 1 → leAt req 3 1 = 1 →
    req.length = 16 → addrTarget (leAt req 8 8) = .reg blk n off →
    d.rasServe who req = (rasHead 1 0 1 (leAt req 4 4) (leAt req 8 8) ++ leBytes (d.view blk n off).toNat 8,
      d.readActs who blk n off)) ∧
  (∀ (d : Dev) (req : List Byte) (who : Path) (blk n off : Nat), leAt req 0 1 = 1 → leAt req 1 1 = 2 → leAt req 3 1 = 1 →
    req.length = 24 → addrTarget (leAt req 8 8) = .reg blk n off → d.mayWrite who blk off = true →
    d.rasServe who req = (rasHead 2 0 1 (leAt req 4 4) (leAt req 8 8),
      d.writeReg blk n off (BitVec.ofNat 64 (leAt req 16 8)))) ∧
  (∀ (d : Dev) (req : List Byte) (who : Path) (blk n off : Nat), leAt req 0 1 = 1 → leAt req 1 1 = 2 → leAt req 3 1 = 1 →
    req.length = 24 → addrTarget (leAt req 8 8) = .reg blk n off → d.mayWrite who blk off = false →
    d.rasServe who req = (rasHead 2 3 0 (leAt req 4 4) (leAt req 8 8), d)) ∧
  (∀ (d : Dev) (req : List Byte) (who : Path) (blk n : Nat), leAt req 0 1 = 1 → leAt req 1 1 = 1 → leAt req 3 1 = 1 →
    req.length = 16 → leAt req 8 8 % 8 = 0 → addrTarget (leAt req 8 8) = .unmapped blk n →
    d.rasServe who req = (rasHead 1 1 0 (leAt req 4 4) (leAt req 8 8), d.setErr blk n errAccess))

/-- The integer and compare instructions (R86, R87): one that issues writes its destination with what the tables say of
operands a and b, counts its slots, and moves past its word; nothing else of the device changes. -/
def Obligations.CerriArithmetic : Prop :=
  (∀ (s : State) (who : Agent) (m : Mach) (c : CWord), s.live = true → ∀ x ∈ arithmetic, s.dev.ready who x.2.1 m c = true →
    Gives (x.1 who false) s ((s.dev.paid m c).setCpu m
      (m.cpu.wr c.dst (x.2.2 (m.rd c.sa) (c.operand (m.rd c.sb)))).fall)) ∧
  (∀ (s : State) (who : Agent) (m : Mach) (c : CWord), s.live = true → s.dev.ready who 0x11 m c = true →
    Gives (.bext who false) s ((s.dev.paid m c).setCpu m
      (m.cpu.wr c.dst ((m.rd c.sa >>> c.bitLo) &&& BitVec.ofNat 64 (2 ^ c.bitW - 1))).fall)) ∧
  (∀ (s : State) (who : Agent) (m : Mach) (c : CWord), s.live = true → s.dev.ready who 0x12 m c = true →
    ∃ v : Word, Gives (.bins who false) s ((s.dev.paid m c).setCpu m (m.cpu.wr c.dst v).fall) ∧
      ∀ i < 64, v.getLsbD i =
        if c.bitLo ≤ i ∧ i < c.bitLo + c.bitW then (m.rd c.sa).getLsbD (i - c.bitLo) else (m.rd c.dst).getLsbD i)

/-- The memory instructions (R88): a load zero-extends the bytes at a + sext(imm) into its destination; a store writes the
destination register's low bytes there and nothing else; the bytes outside the stored ones keep their values; `ldd` reads
the event descriptor and `ldc` the running image; an atomic returns the old word and stores the new one. An access
outside the memory of the agent, or an atomic outside the memory that admits atomics, traps ADDR with the address; one that
is not aligned traps ALIGN; an `ldc` outside the image traps TARGET. -/
def Obligations.CerriMemory : Prop :=
  (∀ (s : State) (who : Agent) (m : Mach) (c : CWord) (p : Place), s.live = true → ∀ x ∈ loads, s.dev.ready who x.2.1 m c = true →
    s.dev.place m (c.address (m.rd c.sa)) x.2.2 = some p → c.address (m.rd c.sa) % x.2.2 = 0 →
    Gives (x.1 who false) s ((s.dev.paid m c).setCpu m
      (m.cpu.wr c.dst (BitVec.ofNat 64 (s.dev.mem.load p x.2.2))).fall)) ∧
  (∀ (s : State) (who : Agent) (m : Mach) (c : CWord) (p : Place), s.live = true → ∀ x ∈ stores, s.dev.ready who x.2.1 m c = true →
    s.dev.place m (c.address (m.rd c.sa)) x.2.2 = some p → c.address (m.rd c.sa) % x.2.2 = 0 →
    Gives (x.1 who false) s (Dev.setCpu
      { s.dev.paid m c with mem := s.dev.mem.store p x.2.2 (m.rd c.dst).toNat } m m.cpu.fall)) ∧
  (∀ (s : State) (who : Agent) (m : Mach) (c : CWord), s.live = true → s.dev.ready who 0x38 m c = true →
    c.address (m.rd c.sa) + 8 ≤ 8 * m.desc.length → c.address (m.rd c.sa) % 8 = 0 →
    Gives (.ldd who false) s ((s.dev.paid m c).setCpu m
      (m.cpu.wr c.dst (m.desc.getD (c.address (m.rd c.sa) / 8) 0)).fall)) ∧
  (∀ (s : State) (who : Agent) (m : Mach) (c : CWord) (i : Nat) (w : Word), s.live = true → s.dev.ready who 0x39 m c = true →
    (i : Int) = m.cpu.pc + c.simm → s.dev.codeWord m i = some w →
    Gives (.ldc who false) s ((s.dev.paid m c).setCpu m (m.cpu.wr c.dst w).fall)) ∧
  (∀ (s : State) (who : Agent) (m : Mach) (c : CWord) (a : Nat) (p : Place) (old : Word), s.live = true →
    s.dev.ready who 0x3A m c = true → a = (m.rd c.sa).toNat → atomicAt m a = true → a % 8 = 0 →
    s.dev.place m a 8 = some p → old = BitVec.ofNat 64 (s.dev.mem.load p 8) →
    Gives (.amoadd who false) s (Dev.setCpu
      { s.dev.paid m c with mem := s.dev.mem.store p 8 (old + c.operand (m.rd c.sb)).toNat } m (m.cpu.wr c.dst old).fall)) ∧
  (∀ (s : State) (who : Agent) (m : Mach) (c : CWord) (a : Nat) (p : Place) (old : Word), s.live = true →
    s.dev.ready who 0x3B m c = true → a = (m.rd c.sa).toNat → atomicAt m a = true → a % 8 = 0 →
    s.dev.place m a 8 = some p → old = BitVec.ofNat 64 (s.dev.mem.load p 8) →
    Gives (.cas who false) s (Dev.setCpu
      { s.dev.paid m c with mem := s.dev.mem.store p 8 (if old = m.rd c.dst then m.rd c.sb else old).toNat } m
      (m.cpu.wr c.dst old).fall)) ∧
  (∀ (x : Mems) (p : Place) (n v a : Nat), match p with
    | .scratch b => a < b ∨ b + n ≤ a → (x.store p n v).scratch.byte a = x.scratch.byte a
    | .shared b => a < b ∨ b + n ≤ a → (x.store p n v).shared.byte a = x.shared.byte a
    | .local_ b => a < b ∨ b + n ≤ a → (x.store p n v).wlocal.byte a = x.wlocal.byte a
    | .sram b => a < b ∨ b + n ≤ a → (x.store p n v).wsram.byte a = x.wsram.byte a
    | .dram b => a < b ∨ b + n ≤ a → (x.store p n v).dram.byte a = x.dram.byte a) ∧
  (∀ (s : State) (who : Agent) (m : Mach) (c : CWord), s.live = true → ∀ x ∈ loads ++ stores, s.dev.ready who x.2.1 m c = true →
    s.dev.place m (c.address (m.rd c.sa)) x.2.2 = none →
    Gives (x.1 who false) s ((s.dev.paid m c).trap m 0x03 (BitVec.ofNat 64 (c.address (m.rd c.sa))))) ∧
  (∀ (s : State) (who : Agent) (m : Mach) (c : CWord), s.live = true → ∀ x ∈ loads ++ stores, s.dev.ready who x.2.1 m c = true →
    (s.dev.place m (c.address (m.rd c.sa)) x.2.2).isSome = true → c.address (m.rd c.sa) % x.2.2 ≠ 0 →
    Gives (x.1 who false) s ((s.dev.paid m c).trap m 0x04 (BitVec.ofNat 64 (c.address (m.rd c.sa))))) ∧
  (∀ (s : State) (who : Agent) (m : Mach) (c : CWord), s.live = true → s.dev.ready who 0x38 m c = true →
    8 * m.desc.length < c.address (m.rd c.sa) + 8 →
    Gives (.ldd who false) s ((s.dev.paid m c).trap m 0x03 (BitVec.ofNat 64 (c.address (m.rd c.sa))))) ∧
  (∀ (s : State) (who : Agent) (m : Mach) (c : CWord), s.live = true → s.dev.ready who 0x38 m c = true →
    c.address (m.rd c.sa) + 8 ≤ 8 * m.desc.length → c.address (m.rd c.sa) % 8 ≠ 0 →
    Gives (.ldd who false) s ((s.dev.paid m c).trap m 0x04 (BitVec.ofNat 64 (c.address (m.rd c.sa))))) ∧
  (∀ (s : State) (who : Agent) (m : Mach) (c : CWord), s.live = true → s.dev.ready who 0x39 m c = true →
    (m.cpu.pc + c.simm < 0 ∨ (m.ncode : Int) ≤ m.cpu.pc + c.simm) →
    Gives (.ldc who false) s ((s.dev.paid m c).trap m 0x0E 0)) ∧
  (∀ (s : State) (who : Agent) (m : Mach) (c : CWord), s.live = true →
    ∀ x ∈ [(Instr.amoadd, 0x3A), (Instr.cas, 0x3B)], s.dev.ready who x.2 m c = true →
    atomicAt m (m.rd c.sa).toNat = false → Gives (x.1 who false) s ((s.dev.paid m c).trap m 0x03 (m.rd c.sa))) ∧
  (∀ (s : State) (who : Agent) (m : Mach) (c : CWord), s.live = true →
    ∀ x ∈ [(Instr.amoadd, 0x3A), (Instr.cas, 0x3B)], s.dev.ready who x.2 m c = true →
    atomicAt m (m.rd c.sa).toNat = true → (m.rd c.sa).toNat % 8 ≠ 0 →
    Gives (x.1 who false) s ((s.dev.paid m c).trap m 0x04 (m.rd c.sa)))

/-- Control flow (R89 to R95). A branch or a jump table transfers to its target when it lies in the image, and forward in a
pitch program, and leaves the loops that the target lies outside; `jal` records the return index and the loop depth and
writes g31; `ret` goes back; `loop` opens a loop of its count, or skips the body when the count is 0; `nop` moves on;
`done` ends a pitch run with its result word, and on a core moves on; `fault` traps FAULT with its code. A word that moves
on goes to the next one, or to the start of the innermost open loop that ends at it while that has iterations left. A
target outside the image, or not forward in a pitch program, or into a loop from outside it, traps TARGET; a malformed table entry
traps TABLE, a count above the bound LOOP_BOUND, a fifth open loop LOOP_DEPTH, a full return stack CALL_DEPTH, an open loop
of the level LOOP_OPEN, and a return that does not match RET_MISMATCH. -/
def Obligations.CerriControl : Prop :=
  (∀ (s : State) (who : Agent) (m : Mach) (c : CWord) (t k : Nat), s.live = true → s.dev.ready who 0x40 m c = true →
    (t : Int) = m.cpu.pc + c.simm → t < m.ncode → (m.priv = true ∨ m.cpu.pc < t) →
    leaveLoops (m.cpu.level.map fun l => (l.start, l.last)) t = some k →
    Gives (.br who false) s ((s.dev.paid m c).setCpu m { m.cpu with pc := t, loops := m.cpu.loops.drop k })) ∧
  (∀ (s : State) (who : Agent) (m : Mach) (c : CWord) (t : Nat), s.live = true → s.dev.ready who 0x41 m c = true →
    (t : Int) = m.cpu.pc + c.simm → t < m.ncode → m.cpu.rets.length < (if m.priv then 64 else 8) →
    Gives (.jal who false) s ((s.dev.paid m c).setCpu m
      { m.cpu with pc := t, g := m.cpu.g.set 31 (BitVec.ofNat 64 (m.cpu.pc + 1))
                   rets := { index := m.cpu.pc + 1, loopDepth := m.cpu.loops.length } :: m.cpu.rets })) ∧
  (∀ (s : State) (who : Agent) (m : Mach) (c : CWord) (r : RetRec) (rest : List RetRec), s.live = true →
    s.dev.ready who 0x42 m c = true → m.cpu.rets = r :: rest → r.index < m.ncode → m.cpu.level = [] →
    m.cpu.g.get 31 = BitVec.ofNat 64 r.index →
    Gives (.ret who false) s ((s.dev.paid m c).setCpu m { m.cpu with pc := r.index, rets := rest })) ∧
  (∀ (s : State) (who : Agent) (m : Mach) (c : CWord) (w : Word) (e : Int) (t k : Nat), s.live = true →
    s.dev.ready who 0x43 m c = true →
    s.dev.codeWord m (m.cpu.pc + bitsOf c.imm 15 0 + min (m.rd c.sa).toNat (bitsOf c.imm 31 16)) = some w →
    tableEntry w = some e → (t : Int) = m.cpu.pc + e → t < m.ncode →
    (t < m.cpu.pc + bitsOf c.imm 15 0 ∨ m.cpu.pc + bitsOf c.imm 15 0 + bitsOf c.imm 31 16 < t) →
    (m.priv = true ∨ m.cpu.pc < t) → leaveLoops (m.cpu.level.map fun l => (l.start, l.last)) t = some k →
    Gives (.jt who false) s ((s.dev.paid m c).setCpu m { m.cpu with pc := t, loops := m.cpu.loops.drop k })) ∧
  (∀ (s : State) (who : Agent) (m : Mach) (c : CWord) (k : Nat), s.live = true → s.dev.ready who 0x44 m c = true →
    k = (m.rd c.sa).toNat → 1 ≤ k → (k ≤ bitsOf c.imm 31 16 ∨ m.priv = true ∧ bitsOf c.imm 31 16 = 0) →
    m.cpu.loops.length < 4 →
    Gives (.loop who false) s ((s.dev.paid m c).setCpu m (Cpu.fall { m.cpu with
      loops := { start := m.cpu.pc + 1, last := m.cpu.pc + bitsOf c.imm 15 0, left := k } :: m.cpu.loops }))) ∧
  (∀ (s : State) (who : Agent) (m : Mach) (c : CWord), s.live = true → s.dev.ready who 0x44 m c = true →
    m.rd c.sa = 0 → m.cpu.pc + bitsOf c.imm 15 0 + 1 < m.ncode →
    Gives (.loop who false) s ((s.dev.paid m c).setCpu m
      { m.cpu with pc := m.cpu.pc + bitsOf c.imm 15 0 + 1 })) ∧
  (∀ (s : State) (who : Agent) (m : Mach) (c : CWord), s.live = true → s.dev.ready who 0x47 m c = true →
    Gives (.nop who false) s ((s.dev.paid m c).setCpu m m.cpu.fall)) ∧
  (∀ (s : State) (tid : Nat) (m : Mach) (c : CWord), s.live = true → s.dev.ready (.pitch tid) 0x45 m c = true →
    (∀ p ∈ m.cpu.slots, p.2.posted = true) → Runs (.done (.pitch tid) false) s fun d =>
      (d.thread tid).run = none ∧ (d.thread tid).cpu.g = m.cpu.g ∧
      (d.thread tid).result = (if c.form = 0 then m.rd c.sa else c.operand 0) ∧ d.mem = s.dev.mem) ∧
  (∀ (s : State) (core : Nat) (m : Mach) (c : CWord), s.live = true → s.dev.ready (.warden core) 0x46 m c = true →
    (s.dev.core core).status.getLsbD 2 = false →
    Gives (.fault (.warden core) false) s (s.dev.coreEnter core m.cpu.pc 0x0F
      (BitVec.ofNat 64 (bitsOf c.imm 15 0)))) ∧
  (∀ (s : State) (tid : Nat) (m : Mach) (c : CWord) (r : Run), s.live = true → s.dev.ready (.pitch tid) 0x46 m c = true →
    (s.dev.thread tid).run = some r →
    Gives (.fault (.pitch tid) false) s (((s.dev.paid m c).pitchTrap tid 0x0F
      (BitVec.ofNat 64 (bitsOf c.imm 15 0))).settle)) ∧
  (∀ (s : State) (core : Nat) (m : Mach) (c : CWord), s.live = true → s.dev.ready (.warden core) 0x45 m c = true →
    (∀ p ∈ m.cpu.slots, p.2.posted = true) →
    Gives (.done (.warden core) false) s ((s.dev.paid m c).setCpu m m.cpu.fall)) ∧
  (∀ (c : Cpu), (∀ l ∈ c.loops, l.last ≠ c.pc) → c.fall = { c with pc := c.pc + 1 }) ∧
  (∀ (c : Cpu) (l : LoopRec) (rest : List LoopRec), c.loops = l :: rest → l.last = c.pc → 1 < l.left →
    c.fall = { c with pc := l.start, loops := { l with left := l.left - 1 } :: rest }) ∧
  (∀ (c : Cpu) (l : LoopRec) (rest : List LoopRec), c.loops = l :: rest → l.last = c.pc → l.left ≤ 1 →
    (∀ k ∈ rest, k.last ≠ c.pc) → c.fall = { c with pc := c.pc + 1, loops := rest }) ∧
  (∀ (s : State) (who : Agent) (m : Mach) (c : CWord), s.live = true → s.dev.ready who 0x40 m c = true →
    (m.cpu.pc + c.simm < 0 ∨ (m.ncode : Int) ≤ m.cpu.pc + c.simm ∨ (m.priv = false ∧ m.cpu.pc + c.simm ≤ m.cpu.pc) ∨
      leaveLoops (m.cpu.level.map fun l => (l.start, l.last)) (m.cpu.pc + c.simm).toNat = none) →
    Gives (.br who false) s ((s.dev.paid m c).trap m 0x0E 0)) ∧
  (∀ (s : State) (who : Agent) (m : Mach) (c : CWord), s.live = true → s.dev.ready who 0x41 m c = true →
    (m.cpu.pc + c.simm < 0 ∨ (m.ncode : Int) ≤ m.cpu.pc + c.simm) →
    Gives (.jal who false) s ((s.dev.paid m c).trap m 0x0E 0)) ∧
  (∀ (s : State) (who : Agent) (m : Mach) (c : CWord) (t : Nat), s.live = true → s.dev.ready who 0x41 m c = true →
    (t : Int) = m.cpu.pc + c.simm → t < m.ncode → (if m.priv then 64 else 8) ≤ m.cpu.rets.length →
    Gives (.jal who false) s ((s.dev.paid m c).trap m 0x07 0)) ∧
  (∀ (s : State) (who : Agent) (m : Mach) (c : CWord), s.live = true → s.dev.ready who 0x42 m c = true →
    m.cpu.rets = [] → Gives (.ret who false) s ((s.dev.paid m c).trap m 0x08 0)) ∧
  (∀ (s : State) (who : Agent) (m : Mach) (c : CWord) (r : RetRec) (rest : List RetRec), s.live = true →
    s.dev.ready who 0x42 m c = true → m.cpu.rets = r :: rest →
    Gives (.ret who false) s (if m.ncode ≤ r.index then (s.dev.paid m c).trap m 0x0E 0
      else if m.cpu.level ≠ [] then (s.dev.paid m c).trap m 0x11 0
      else if m.cpu.g.get 31 ≠ BitVec.ofNat 64 r.index then (s.dev.paid m c).trap m 0x08 0
      else (s.dev.paid m c).setCpu m { m.cpu with pc := r.index, rets := rest })) ∧
  (∀ (s : State) (who : Agent) (m : Mach) (c : CWord), s.live = true → s.dev.ready who 0x43 m c = true →
    s.dev.codeWord m (m.cpu.pc + bitsOf c.imm 15 0 + min (m.rd c.sa).toNat (bitsOf c.imm 31 16)) = none →
    Gives (.jt who false) s ((s.dev.paid m c).trap m 0x0E 0)) ∧
  (∀ (s : State) (who : Agent) (m : Mach) (c : CWord) (w : Word), s.live = true → s.dev.ready who 0x43 m c = true →
    s.dev.codeWord m (m.cpu.pc + bitsOf c.imm 15 0 + min (m.rd c.sa).toNat (bitsOf c.imm 31 16)) = some w →
    tableEntry w = none → Gives (.jt who false) s ((s.dev.paid m c).trap m 0x10 0)) ∧
  (∀ (s : State) (who : Agent) (m : Mach) (c : CWord) (w : Word) (e : Int), s.live = true → s.dev.ready who 0x43 m c = true →
    s.dev.codeWord m (m.cpu.pc + bitsOf c.imm 15 0 + min (m.rd c.sa).toNat (bitsOf c.imm 31 16)) = some w →
    tableEntry w = some e →
    (m.cpu.pc + e < 0 ∨ (m.ncode : Int) ≤ m.cpu.pc + e ∨ (m.priv = false ∧ m.cpu.pc + e ≤ m.cpu.pc) ∨
      ((m.cpu.pc + bitsOf c.imm 15 0 : Nat) : Int) ≤ m.cpu.pc + e ∧
        m.cpu.pc + e ≤ ((m.cpu.pc + bitsOf c.imm 15 0 + bitsOf c.imm 31 16 : Nat) : Int) ∨
      leaveLoops (m.cpu.level.map fun l => (l.start, l.last)) (m.cpu.pc + e).toNat = none) →
    Gives (.jt who false) s ((s.dev.paid m c).trap m 0x0E 0)) ∧
  (∀ (s : State) (who : Agent) (m : Mach) (c : CWord), s.live = true → s.dev.ready who 0x44 m c = true →
    m.rd c.sa = 0 → m.ncode ≤ m.cpu.pc + bitsOf c.imm 15 0 + 1 →
    Gives (.loop who false) s ((s.dev.paid m c).trap m 0x0E 0)) ∧
  (∀ (s : State) (who : Agent) (m : Mach) (c : CWord), s.live = true → s.dev.ready who 0x44 m c = true →
    bitsOf c.imm 31 16 < (m.rd c.sa).toNat → (bitsOf c.imm 31 16 ≠ 0 ∨ m.priv = false) →
    Gives (.loop who false) s ((s.dev.paid m c).trap m 0x05 0)) ∧
  (∀ (s : State) (who : Agent) (m : Mach) (c : CWord), s.live = true → s.dev.ready who 0x44 m c = true →
    1 ≤ (m.rd c.sa).toNat → ((m.rd c.sa).toNat ≤ bitsOf c.imm 31 16 ∨ m.priv = true ∧ bitsOf c.imm 31 16 = 0) →
    4 ≤ m.cpu.loops.length → Gives (.loop who false) s ((s.dev.paid m c).trap m 0x06 0))

/-- Traps and guards of every instruction (R82, R84, R85, R104, R105, R112, R132, R133). A false guard costs one slot and
moves past the word. A word with an uncorrectable error traps ECC; one that is not legal, or that no row lists, traps
ILLEGAL with the word in TVAL; a privileged one on a pitch thread traps PRIV; a program counter outside the image traps
TARGET; a word that the run's budget has no room for does not issue and traps BUDGET. Another row's word, or an agent that
cannot issue, is left alone. A trap on a core enters the handler at TVEC, with the index, the cause and TVAL saved, IE
moved to PIE and TRAP set; while the handler is active it halts the core. A trap on a thread ends its run, records itself
in PITCH_LAST_TRAP, and posts a TRAP event when one is bound and the event was not a TRAP itself. -/
def Obligations.CerriTrapsAndGuards : Prop :=
  (∀ (s : State) (who : Agent) (m : Mach) (w : Word), s.live = true → ∀ x ∈ instructions, s.dev.at who x.2 m w = true →
    (cword w).legal m.priv = true → m.guard (cword w) = false → s.dev.room m 1 = true →
    Gives (x.1 who false) s ((s.dev.spend m 1).setCpu m m.cpu.fall)) ∧
  (∀ (s : State) (who : Agent) (m : Mach) (w : Word), s.live = true → ∀ x ∈ instructions, s.dev.at who x.2 m w = true →
    (cword w).legal m.priv = false → s.dev.room m (m.cost (some w)) = true →
    Gives (x.1 who false) s ((s.dev.spend m (m.cost (some w))).trap m 0x01 w)) ∧
  (∀ (d : Dev) (n epc cause : Nat) (tval : Word), (d.core n).status.getLsbD 2 = false →
    ((d.coreEnter n epc cause tval).core n).cpu.pc = (d.core n).tvec.toNat ∧
    ((d.coreEnter n epc cause tval).core n).epc = BitVec.ofNat 64 epc ∧
    ((d.coreEnter n epc cause tval).core n).cause = BitVec.ofNat 64 cause ∧
    ((d.coreEnter n epc cause tval).core n).tval = tval ∧
    ((d.coreEnter n epc cause tval).core n).status.getLsbD 0 = false ∧
    ((d.coreEnter n epc cause tval).core n).status.getLsbD 1 = (d.core n).status.getLsbD 0 ∧
    ((d.coreEnter n epc cause tval).core n).status.getLsbD 2 = true ∧
    (∀ j ≠ n, (d.coreEnter n epc cause tval).core j = d.core j)) ∧
  (∀ (d : Dev) (n code : Nat) (tval : Word), n < 4 → (d.core n).status.getLsbD 2 = true →
    bitOf (d.fget Reg.WDN_CORE_CTRL.RUN) n = true →
    (d.coreTrap n code tval).fget Reg.WDN_CORE_CTRL.RUN = d.fget Reg.WDN_CORE_CTRL.RUN - 2 ^ n ∧
      ∀ j, (d.coreTrap n code tval).core j = d.core j) ∧
  (∀ (s : State) (tid : Nat) (m : Mach) (w : Word), s.live = true → ∀ x ∈ instructions, 0x60 ≤ x.2 →
    s.dev.at (.pitch tid) x.2 m w = true → (cword w).legal false = true → m.guard (cword w) = true →
    s.dev.room m (m.cost (some w)) = true → privOp (cword w).op = true →
    Gives (x.1 (.pitch tid) false) s (((s.dev.spend m (m.cost (some w))).pitchTrap tid 0x02 w).settle)) ∧
  (∀ (s : State) (who : Agent) (m : Mach) (w : Word), s.live = true → ∀ x ∈ instructions, s.dev.at who x.2 m w = true →
    s.dev.room m (m.cost (some w)) = true →
    Gives (x.1 who true) s ((s.dev.spend m (m.cost (some w))).trap m 0x0D 0)) ∧
  (∀ (s : State) (who : Agent) (ecc : Bool) (m : Mach) (w : Word), s.live = true → ∀ x ∈ instructions,
    s.dev.at who x.2 m w = true → s.dev.room m (m.cost (some w)) = false →
    Gives (x.1 who ecc) s (s.dev.trap m 0x0C 0)) ∧
  (∀ (s : State) (who : Agent) (ecc : Bool) (m : Mach), s.live = true → ∀ x ∈ instructions, s.dev.machine who = some m →
    s.dev.codeWord m m.cpu.pc = none → s.dev.room m 1 = true →
    Gives (x.1 who ecc) s ((s.dev.spend m 1).trap m 0x0E 0)) ∧
  (∀ (s : State) (who : Agent) (ecc : Bool) (m : Mach) (w : Word), s.live = true → ∀ x ∈ instructions,
    s.dev.machine who = some m → s.dev.codeWord m m.cpu.pc = some w → (cerriRow (cword w).op).isSome = true →
    (cword w).op ≠ x.2 → Gives (x.1 who ecc) s s.dev) ∧
  (∀ (s : State) (who : Agent) (ecc : Bool), s.live = true → ∀ x ∈ instructions, s.dev.machine who = none →
    Gives (x.1 who ecc) s s.dev) ∧
  (∀ (d : Dev) (tid code : Nat) (tval : Word) (r : Run), (d.thread tid).run = some r → r.ev.typ ≠ evTrap → tid < 256 →
    (d.bindOf r.gen evTrap).isSome = true → code < 256 → code ≠ 0x0C → code ≠ 0x0D →
    let e := d.pitchTrap tid code tval
    (e.thread tid).run = none ∧ e.fget Reg.PITCH_LAST_TRAP.CODE = code ∧ e.fget Reg.PITCH_LAST_TRAP.TID = tid ∧
      e.fget Reg.PITCH_LAST_TVAL.TVAL = tval.toNat ∧
      ∃ last, trapEvent r last tval ∈ e.pitch.queue ++ e.pitch.held)

/-- Asks (R96 to R102, R132). `ask` takes a free slot (the lowest, the model's choice of log 11), reads its argument words,
and writes its ticket; `await` on an answer that has come retires the ticket with the status and the answer's words in the
argument block, and else waits; `poll` tells whether it has come. A block outside the agent's memory traps ADDR, one that
is not aligned ALIGN, no free slot ASK_FULL, and a value that is no open ticket TICKET. An answer frees a posted ask's
slot, waits in its slot for the `await` to come, or ends the one in progress, unless the budget is reached first; that of a
detached ask is dropped. An unanswered ask at its maximum wait gets status 0xFFFF and is detached, and SPOTTER is told. The
budget's end traps a run that waits. -/
def Obligations.CerriAsks : Prop :=
  (∀ (s : State) (who : Agent) (m : Mach) (c : CWord) (a slot : Nat), s.live = true → s.dev.ready who 0x50 m c = true →
    a = (m.rd c.sa).toNat → a % 8 = 0 → a + 8 * c.askWords ≤ m.blockSize →
    (List.range 8).find? (fun k => (Tab.look m.cpu.slots k).isNone) = some slot →
    Runs (.ask who false) s fun d => ∃ x, Tab.look d.asks s.dev.nextAsk = some x ∧ x.owner = m.who ∧ x.slot = slot ∧
      x.accel = bitsOf c.imm 31 24 ∧ x.code = bitsOf c.imm 23 16 ∧ x.args.length = c.askWords ∧
      (∀ i < c.askWords, x.args.getD i 0 = BitVec.ofNat 64 (s.dev.mem.load (m.blockPlace (a + 8 * i)) 8)) ∧
      x.posted = decide (c.dst = 0) ∧ d.nextAsk = s.dev.nextAsk + 1 ∧ d.mem = s.dev.mem) ∧
  (∀ (s : State) (who : Agent) (m : Mach) (c : CWord) (slot : Nat) (k : AskSlot) (st : Word), s.live = true →
    s.dev.ready who 0x51 m c = true → m.ticket (m.rd c.sa) = some (slot, k) → k.status = some st →
    Gives (.await who false) s (((s.dev.paid m c).writeAnswer m k.addr k.words).setCpu m (m.cpu.retire c.dst slot st).fall)) ∧
  (∀ (s : State) (who : Agent) (m : Mach) (c : CWord) (slot : Nat) (k : AskSlot), s.live = true →
    s.dev.ready who 0x52 m c = true → m.ticket (m.rd c.sa) = some (slot, k) →
    Gives (.poll who false) s ((s.dev.paid m c).setCpu m (m.cpu.wr c.dst (truth k.status.isSome)).fall)) ∧
  (∀ (s : State) (id waited : Nat) (a : Ask) (st : Word) (ws : List Word), s.live = true → Tab.look s.dev.asks id = some a →
    a.answer = some (st, ws) → a.detached = false → a.posted = true →
    Runs (.askAnswer id waited) s fun d => Tab.look d.asks id = none ∧
      Tab.look (d.owner a.owner).cpu.slots a.slot = none ∧ d.mem = s.dev.mem) ∧
  (∀ (s : State) (id waited dst : Nat) (a : Ask) (m : Mach) (st : Word) (ws : List Word), s.live = true →
    Tab.look s.dev.asks id = some a → a.answer = some (st, ws) → a.detached = false → a.posted = false →
    m = s.dev.owner a.owner → s.dev.waitOf a.owner = some (dst, a.slot) → s.dev.room m waited = true →
    Runs (.askAnswer id waited) s fun d => d = (((Dev.spend { s.dev with asks := Tab.del s.dev.asks id } m waited).writeAnswer
      m a.addr ws).endWait m).setCpu m (m.cpu.retire dst a.slot st).fall) ∧
  (∀ (s : State) (id waited : Nat) (a : Ask) (k : AskSlot), s.live = true → Tab.look s.dev.asks id = some a →
    a.answer = none → a.late = false → a.detached = false → a.posted = false →
    (s.dev.waitOf a.owner).any (fun w => decide (w.2 = a.slot)) = false → s.dev.on 3 = false → Tab.look (s.dev.owner a.owner).cpu.slots a.slot = some k →
    Acts (.askLate id waited) s fun d => Tab.look d.asks id = some { a with detached := true, late := true } ∧
      Tab.look (d.owner a.owner).cpu.slots a.slot = some { k with status := some 0xFFFF }) ∧
  (∀ (s : State) (tid : Nat) (r : Run), s.live = true → (s.dev.thread tid).run = some r → r.waiting.isSome = true →
    Runs (.budgetExpiry tid) s fun d => d = ((s.dev.setThread tid { s.dev.thread tid with
      run := some { r with used := max r.used r.budget } }).pitchTrap tid 0x0C 0).settle) ∧
  (∀ (s : State) (tid : Nat) (m : Mach) (r : Run), s.live = true → (s.dev.thread tid).run = some r → r.waiting = none →
    s.dev.machine (.pitch tid) = some m →
    Gives (.budgetExpiry tid) s (if s.dev.room m (m.cost (s.dev.codeWord m m.cpu.pc)) then s.dev else s.dev.trap m 0x0C 0)) ∧
  (∀ (s : State) (tid : Nat), s.live = true → (s.dev.thread tid).run = none → Gives (.budgetExpiry tid) s s.dev) ∧
  (∀ (s : State) (who : Agent) (m : Mach) (c : CWord) (slot : Nat) (k : AskSlot), s.live = true →
    s.dev.ready who 0x51 m c = true → m.ticket (m.rd c.sa) = some (slot, k) → k.status = none →
    Gives (.await who false) s (((s.dev.paid m c).startWait m c.dst slot).setCpu m m.cpu)) ∧
  (∀ (s : State) (who : Agent) (m : Mach) (c : CWord), s.live = true →
    ∀ x ∈ [(Instr.await, 0x51), (Instr.poll, 0x52)], s.dev.ready who x.2 m c = true → m.ticket (m.rd c.sa) = none →
    Gives (x.1 who false) s ((s.dev.paid m c).trap m 0x0A 0)) ∧
  (∀ (s : State) (who : Agent) (m : Mach) (c : CWord), s.live = true → s.dev.ready who 0x50 m c = true →
    m.blockSize < (m.rd c.sa).toNat + 8 * c.askWords → Gives (.ask who false) s ((s.dev.paid m c).trap m 0x03 (m.rd c.sa))) ∧
  (∀ (s : State) (who : Agent) (m : Mach) (c : CWord), s.live = true → s.dev.ready who 0x50 m c = true →
    (m.rd c.sa).toNat + 8 * c.askWords ≤ m.blockSize → (m.rd c.sa).toNat % 8 ≠ 0 →
    Gives (.ask who false) s ((s.dev.paid m c).trap m 0x04 (m.rd c.sa))) ∧
  (∀ (s : State) (who : Agent) (m : Mach) (c : CWord), s.live = true → s.dev.ready who 0x50 m c = true →
    (m.rd c.sa).toNat + 8 * c.askWords ≤ m.blockSize → (m.rd c.sa).toNat % 8 = 0 →
    (∀ k < 8, (Tab.look m.cpu.slots k).isSome = true) → Gives (.ask who false) s ((s.dev.paid m c).trap m 0x09 0)) ∧
  (∀ (s : State) (id waited : Nat) (a : Ask) (k : AskSlot) (st : Word) (ws : List Word), s.live = true →
    Tab.look s.dev.asks id = some a → a.answer = some (st, ws) → a.detached = false → a.posted = false →
    (s.dev.waitOf a.owner).any (fun w => decide (w.2 = a.slot)) = false → Tab.look (s.dev.owner a.owner).cpu.slots a.slot = some k →
    Runs (.askAnswer id waited) s fun d => Tab.look d.asks id = none ∧
      Tab.look (d.owner a.owner).cpu.slots a.slot = some { k with status := some st, words := ws, addr := a.addr }) ∧
  (∀ (s : State) (id waited dst : Nat) (a : Ask) (st : Word) (ws : List Word), s.live = true →
    Tab.look s.dev.asks id = some a → a.answer = some (st, ws) → a.detached = false → a.posted = false →
    s.dev.waitOf a.owner = some (dst, a.slot) → s.dev.room (s.dev.owner a.owner) waited = false →
    Gives (.askAnswer id waited) s (Dev.trap { s.dev with asks := Tab.del s.dev.asks id } (s.dev.owner a.owner) 0x0C 0)) ∧
  (∀ (s : State) (id waited : Nat) (a : Ask), s.live = true → Tab.look s.dev.asks id = some a → a.answer.isSome = true →
    a.detached = true → Gives (.askAnswer id waited) s { s.dev with asks := Tab.del s.dev.asks id }) ∧
  (∀ (s : State) (id waited : Nat), s.live = true → ((Tab.look s.dev.asks id).bind fun a => a.answer) = none →
    Gives (.askAnswer id waited) s s.dev) ∧
  (∀ (s : State) (id waited : Nat), s.live = true →
    (Tab.look s.dev.asks id = none ∨ ∃ a, Tab.look s.dev.asks id = some a ∧ (a.answer.isSome = true ∨ a.late = true)) →
    Settles (.askLate id waited) s s.dev)

/-- The privileged instructions of a Warden core (R109 to R112): `csrr` and `csrw` read and write the control registers;
`rdreg` waits, and its return puts the register's word in the destination; `wrreg` writes over the core's path and moves on;
`eret` returns to EPC with IE from PIE and TRAP clear; `wfe` goes on when an admitted interrupt is pending, and else waits
until one is; `fence` waits for its end; an interrupt enters the handler with cause 0x80 + n. -/
def Obligations.WardenCores : Prop :=
  (∀ (s : State) (n : Nat) (m : Mach) (c : CWord), s.live = true → s.dev.ready (.warden n) 0x60 m c = true → c.imm ≠ 6 →
    Gives (.csrr (.warden n) false) s (s.dev.setCpu m
      (m.cpu.wr c.dst (match c.imm with
        | 0 => (s.dev.core n).tvec
        | 1 => (s.dev.core n).epc
        | 2 => (s.dev.core n).cause
        | 3 => (s.dev.core n).tval
        | 4 => (s.dev.core n).status
        | 5 => BitVec.ofNat 64 (s.dev.pend n)
        | 7 => BitVec.ofNat 64 n
        | 8 => BitVec.ofNat 64 s.dev.now
        | 9 => (s.dev.core n).timecmp
        | _ => (s.dev.core n).kscratch)).fall)) ∧
  (∀ (s : State) (n : Nat) (m : Mach) (c : CWord), s.live = true → s.dev.ready (.warden n) 0x61 m c = true →
    Runs (.csrw (.warden n) false) s fun d =>
      let v := m.rd c.sa
      let k := s.dev.core n
      let k := { k with cpu := m.cpu.fall }
      d.core n = (if c.imm = 0 then { k with tvec := v } else if c.imm = 1 then { k with epc := v }
        else if c.imm = 4 then { k with status := v &&& 0xF07 } else if c.imm = 9 then { k with timecmp := v }
        else { k with kscratch := v }) ∧ (∀ j ≠ n, d.core j = s.dev.core j) ∧ d = { s.dev with warden := d.warden }) ∧
  (∀ (s : State) (n : Nat) (m : Mach) (c : CWord), s.live = true → s.dev.ready (.warden n) 0x62 m c = true →
    Runs (.rdreg (.warden n) false) s fun d =>
      d = s.dev.setCore n { s.dev.core n with wait := .rdreg c.dst (c.address (m.rd c.sa)) }) ∧
  (∀ (s : State) (n dst a blk k off : Nat), s.live = true → (s.dev.core n).wait = .rdreg dst a → addrTarget a = .reg blk k off →
    blk ≠ 2 →
    Runs (.rdregReturn n) s fun d => d.core n = { s.dev.core n with
      wait := .none, cpu := ((s.dev.core n).cpu.wr dst (s.dev.view blk k off)).fall }) ∧
  (∀ (s : State) (n : Nat) (m : Mach) (c : CWord), s.live = true → s.dev.ready (.warden n) 0x63 m c = true →
    Acts (.wrreg (.warden n) false) s fun d =>
      d = (s.dev.setCpu m m.cpu.fall).writeBus (.core n) (c.address (m.rd c.sa)) (m.rd c.dst)) ∧
  (∀ (s : State) (n : Nat) (m : Mach) (c : CWord), s.live = true → s.dev.ready (.warden n) 0x64 m c = true →
    Runs (.eret (.warden n) false) s fun d =>
      (d.core n).cpu = { m.cpu with pc := (s.dev.core n).epc.toNat } ∧
      (d.core n).status.getLsbD 0 = (s.dev.core n).status.getLsbD 1 ∧ (d.core n).status.getLsbD 2 = false ∧
      (∀ i < 64, i ≠ 0 → i ≠ 2 → (d.core n).status.getLsbD i = (s.dev.core n).status.getLsbD i) ∧
      (∀ j ≠ n, d.core j = s.dev.core j) ∧ d = { s.dev with warden := d.warden }) ∧
  (∀ (s : State) (n : Nat) (m : Mach) (c : CWord), s.live = true → s.dev.ready (.warden n) 0x65 m c = true →
    Gives (.wfe (.warden n) false) s (if s.dev.admitted n ≠ 0 then s.dev.setCpu m m.cpu.fall else s.dev.setCore n { s.dev.core n with wait := .wfe })) ∧
  (∀ (s : State) (n : Nat), s.live = true → (s.dev.core n).wait = .wfe → s.dev.admitted n ≠ 0 →
    Runs (.wfeWake n) s fun d => d = s.dev.setCore n { s.dev.core n with wait := .none, cpu := (s.dev.core n).cpu.fall }) ∧
  (∀ (s : State) (n : Nat) (m : Mach) (c : CWord), s.live = true → s.dev.ready (.warden n) 0x66 m c = true →
    Runs (.fence (.warden n) false) s fun d => d = s.dev.setCore n { s.dev.core n with wait := .fence }) ∧
  (∀ (s : State) (n : Nat), s.live = true → (s.dev.core n).wait = .fence →
    Runs (.fenceDone n) s fun d => d = s.dev.setCore n { s.dev.core n with wait := .none, cpu := (s.dev.core n).cpu.fall }) ∧
  (∀ (s : State) (n i : Nat), s.live = true → n < 4 → s.dev.on 2 = true → (s.dev.inst 2 0).safe = false →
    bitOf (s.dev.fget Reg.WDN_CORE_CTRL.RUN) n = true → (s.dev.core n).wait = .none → s.dev.interrupt n = some i →
    Gives (.interruptTaken n) s (s.dev.coreEnter n (s.dev.core n).cpu.pc (0x80 + i) 0)) ∧
  (∀ (s : State) (n : Nat) (m : Mach) (c : CWord), s.live = true → s.dev.ready (.warden n) 0x60 m c = true → c.imm = 6 →
    Runs (.csrr (.warden n) false) s fun d => ∃ k < 2 ^ 32,
      d.core n = { s.dev.core n with
        cycles := (s.dev.core n).cycles + 1 + BitVec.ofNat 64 k
        cpu := (m.cpu.wr c.dst ((s.dev.core n).cycles + 1 + BitVec.ofNat 64 k)).fall } ∧
      (∀ j ≠ n, d.core j = s.dev.core j) ∧ d.mem = s.dev.mem) ∧
  (∀ (s : State) (n dst a : Nat), s.live = true → (s.dev.core n).wait = .rdreg dst a →
    Runs (.rdregReturn n) s fun d => (d.core n).wait = .none ∧
      (d.core n).cpu = ((s.dev.core n).cpu.wr dst (s.dev.readBus (.core n) a).1).fall ∧
      ∀ j ≠ n, d.core j = s.dev.core j) ∧
  (∀ (s : State) (n : Nat), s.live = true → (∀ dst a, (s.dev.core n).wait ≠ .rdreg dst a) → Gives (.rdregReturn n) s s.dev) ∧
  (∀ (s : State) (n : Nat), s.live = true → ((s.dev.core n).wait ≠ .wfe ∨ s.dev.admitted n = 0) → Gives (.wfeWake n) s s.dev) ∧
  (∀ (s : State) (n : Nat), s.live = true → (s.dev.core n).wait ≠ .fence → Gives (.fenceDone n) s s.dev) ∧
  (∀ (s : State) (n : Nat), s.live = true →
    (3 < n ∨ s.dev.on 2 = false ∨ bitOf (s.dev.fget Reg.WDN_CORE_CTRL.RUN) n = false ∨ (s.dev.core n).wait ≠ .none ∨
      s.dev.interrupt n = none) → Gives (.interruptTaken n) s s.dev)

/-- PITCH's queue, runs and program images (R113, R114, R117, R127, R133, R134). A posted event joins the queue's end, or
while the queue is full its source holds it; while PITCH is not in service nothing is posted. A dispatch takes the earliest
event of the highest priority, with its cluster in service and its thread idle, and starts a run at its bound entry with
its budget, an arrival under the active generation and any other under the event's own; an event with no bind is dropped,
counted and meets its default action. A MGMT_POST of a good length posts one event for each cluster in service, and is done
when every run of it has ended; one of a bad length or address is a bad access, and one that finds BUSY or PITCH not in
service only shows its length. A load runs the stages and reports what they found; a second one while it runs, or while a
swap is pending, is refused with an error bit. A MAINT item given back is posted again. -/
def Obligations.PitchEvents : Prop :=
  (∀ (s : State) (tenant nsh token : Nat) (rest : List Nat), s.live = true → s.dev.on 0x13 = true →
    s.dev.pitch.queue.length < 8192 → s.dev.pitch.held = [] →
    Runs (.eventPost tenant nsh token rest) s fun d =>
      d.pitch = { s.dev.pitch with queue := s.dev.pitch.queue ++
        [{ typ := 0x0A, words := descriptor 0x0A 64 tenant nsh 0 0 0 token rest }] } ∧
      d.fget Reg.PITCH_EVQ.DEPTH = s.dev.pitch.queue.length + 1 ∧ d = { s.dev with pitch := d.pitch, regs := d.regs }) ∧
  (∀ (s : State) (tenant nsh token : Nat) (rest : List Nat), s.live = true → s.dev.on 0x13 = true →
    (8192 ≤ s.dev.pitch.queue.length ∨ s.dev.pitch.held ≠ []) →
    Runs (.eventPost tenant nsh token rest) s fun d =>
      d = { s.dev with pitch := { s.dev.pitch with held := s.dev.pitch.held ++
        [{ typ := 0x0A, words := descriptor 0x0A 64 tenant nsh 0 0 0 token rest }] } }) ∧
  (∀ (s : State) (tenant nsh token : Nat) (rest : List Nat), s.live = true → s.dev.on 0x13 = false →
    Gives (.eventPost tenant nsh token rest) s s.dev) ∧
  (∀ (s : State) (tid : Nat) (e : PEvent) (b : Bind) (gen : Nat), s.live = true → s.dev.on 0x13 = true →
    s.dev.quiet = false → s.dev.clusterRuns (clusterOf tid) = true →
    (s.dev.thread tid).run = none → s.dev.nextEvent (clusterOf tid) = some e → e.typ ∉ [1, 2] →
    gen = e.gen.getD (s.dev.inst 0x13 0).active → s.dev.bindOf gen e.typ = some b →
    Settles (.eventDispatch tid) s (((s.dev.dequeue e).domWake (24 + clusterOf tid)).setThread tid
      { s.dev.thread tid with
        cpu := { pc := b.entry, serial := (s.dev.thread tid).cpu.serial }
        run := some { ev := e, gen := gen, budget := s.dev.fget (Reg.PITCH_BUDGET.SLOTS.nth e.typ) } })) ∧
  (∀ (s : State) (tid : Nat) (e : PEvent) (b : Bind), s.live = true → s.dev.on 0x13 = true →
    s.dev.quiet = false → s.dev.clusterRuns (clusterOf tid) = true →
    (s.dev.thread tid).run = none → s.dev.nextEvent (clusterOf tid) = some e → e.typ ∈ [1, 2] →
    s.dev.bindOf (s.dev.inst 0x13 0).active e.typ = some b →
    Acts (.eventDispatch tid) s fun d =>
      (d.thread tid).run = some { ev := e, gen := (s.dev.inst 0x13 0).active
                                  budget := s.dev.fget (Reg.PITCH_BUDGET.SLOTS.nth e.typ) } ∧
      (d.thread tid).cpu.pc = b.entry ∧ (d.thread tid).cpu.g = [] ∧ (d.thread tid).cpu.p = 0 ∧
      d.pitch.queue = (s.dev.dequeue e).pitch.queue) ∧
  (∀ (s : State) (tid : Nat) (e : PEvent), s.live = true → s.dev.on 0x13 = true →
    s.dev.quiet = false → s.dev.clusterRuns (clusterOf tid) = true →
    (s.dev.thread tid).run = none → s.dev.nextEvent (clusterOf tid) = some e → e.typ ∈ [0x0A, 0x0B] →
    s.dev.bindOf (e.gen.getD (s.dev.inst 0x13 0).active) e.typ = none →
    Acts (.eventDispatch tid) s fun d => (d.thread tid).run = none ∧ d.pitch.queue = (s.dev.dequeue e).pitch.queue ∧
      d.fget Reg.PITCH_DROPS.UNBOUND = (s.dev.fget Reg.PITCH_DROPS.UNBOUND + 1) % 2 ^ 32) ∧
  (∀ (s : State) (tid : Nat) (e : PEvent), s.live = true → s.dev.on 0x13 = true →
    s.dev.quiet = false → s.dev.clusterRuns (clusterOf tid) = true →
    (s.dev.thread tid).run = none → s.dev.nextEvent (clusterOf tid) = some e → e.typ ∉ [1, 2] →
    s.dev.bindOf (e.gen.getD (s.dev.inst 0x13 0).active) e.typ = none →
    Settles (.eventDispatch tid) s (((((s.dev.dequeue e).domWake (24 + clusterOf tid)).bump
      Reg.PITCH_DROPS.UNBOUND).defaultAction e.typ e).postRunEnds e.typ)) ∧
  (∀ (s : State) (tid : Nat), s.live = true →
    (s.dev.on 0x13 = false ∨ s.dev.quiet = true ∨ s.dev.clusterRuns (clusterOf tid) = false ∨
      (s.dev.thread tid).run.isSome = true ∨ s.dev.nextEvent (clusterOf tid) = none) →
    Settles (.eventDispatch tid) s s.dev) ∧
  (∀ (d : Dev) (c : Nat) (e : PEvent), d.nextEvent c = some e →
    (e ∈ d.pitch.queue ∧ (e.cluster = none ∨ e.cluster = some c) ∧ d.arrivalHeld e = false ∧
      ∀ f ∈ d.pitch.queue, d.arrivalHeld f = false → (f.cluster = none ∨ f.cluster = some c) →
        d.priority f ≤ d.priority e)) ∧
  (∀ (s : State) (len addr : Nat), s.live = true → s.dev.fget Reg.PITCH_POST_CTRL.BUSY = 0 → s.dev.on 0x13 = true →
    32 ≤ len → len ≤ 1024 → len % 8 = 0 → addr = s.dev.fget Reg.PITCH_POST.ADDR → addr % 8 = 0 →
    s.dev.pitch.queue.length + 16 ≤ 8192 → s.dev.pitch.held = [] →
    Runs (.mgmtPostGo len) s fun d =>
      d.pitch.queue = s.dev.pitch.queue ++ s.dev.clusters.map (fun c =>
        { typ := 0x0C, cluster := some c
          words := (List.range (len / 8)).map fun i => BitVec.ofNat 64 (s.dev.mem.dram.read (addr + 8 * i) 8) }) ∧
      d.pitch.held = [] ∧ d.pitch.threads = s.dev.pitch.threads ∧
      d.pitch.postLeft = s.dev.clusters.length ∧ d.fget Reg.PITCH_POST_CTRL.BUSY = 1 ∧
      d.fget Reg.PITCH_POST_CTRL.DONE = 0 ∧ d.fget Reg.PITCH_POST_CTRL.LEN = len ∧ d.mem = s.dev.mem) ∧
  (∀ (s : State) (len : Nat), s.live = true → s.dev.fget Reg.PITCH_POST_CTRL.BUSY = 0 → s.dev.on 0x13 = true →
    len < 2048 → (len < 32 ∨ 1024 < len ∨ len % 8 ≠ 0 ∨ s.dev.fget Reg.PITCH_POST.ADDR % 8 ≠ 0) →
    Runs (.mgmtPostGo len) s fun d => d = (s.dev.fset Reg.PITCH_POST_CTRL.LEN len).setErr 0x13 0 errAccess ∧
      (d.inst 0x13 0).err.getLsbD 1 = true ∧ d.pitch = s.dev.pitch) ∧
  (∀ (s : State) (len : Nat), s.live = true → (s.dev.fget Reg.PITCH_POST_CTRL.BUSY = 1 ∨ s.dev.on 0x13 = false) →
    Gives (.mgmtPostGo len) s (s.dev.fset Reg.PITCH_POST_CTRL.LEN len)) ∧
  (∀ (s : State), s.live = true → s.dev.fget Reg.PITCH_POST_CTRL.BUSY = 1 → s.dev.pitch.postLeft = 0 →
    Runs .mgmtPostDone s fun d => d.fget Reg.PITCH_POST_CTRL.BUSY = 0 ∧ d.fget Reg.PITCH_POST_CTRL.DONE = 1 ∧
      d = ((s.dev.fset Reg.PITCH_POST_CTRL.BUSY 0).fset Reg.PITCH_POST_CTRL.DONE 1).post 0x13 0 0x0012 0) ∧
  (∀ (s : State), s.live = true → (s.dev.fget Reg.PITCH_POST_CTRL.BUSY = 0 ∨ s.dev.pitch.postLeft ≠ 0) →
    Gives .mgmtPostDone s s.dev) ∧
  (∀ (s : State) (e : PEvent) (es : List PEvent), s.live = true → s.dev.pitch.reposts = e :: es →
    s.dev.pitch.queue.length < 8192 → s.dev.pitch.held = [] →
    Runs .maintRepost s fun d =>
      d.pitch = { s.dev.pitch with reposts := es, queue := s.dev.pitch.queue ++ [{ e with gen := none }] } ∧
      d.fget Reg.PITCH_EVQ.DEPTH = s.dev.pitch.queue.length + 1) ∧
  (∀ (s : State) (e : PEvent) (es : List PEvent), s.live = true → s.dev.pitch.reposts = e :: es →
    (8192 ≤ s.dev.pitch.queue.length ∨ s.dev.pitch.held ≠ []) →
    Gives .maintRepost s { s.dev with pitch := { s.dev.pitch with
      reposts := es, held := s.dev.pitch.held ++ [{ e with gen := none }] } }) ∧
  (∀ (s : State), s.live = true → s.dev.pitch.reposts = [] → Gives .maintRepost s s.dev) ∧
  (∀ (s : State), s.live = true → s.dev.pitch.loading = none → (s.dev.inst 0x13 0).swap = false →
    s.dev.fget Reg.PITCH_IMG_BASE.ADDR % 8 = 0 → 512 ≤ s.dev.fget Reg.PITCH_IMG_LEN.BYTES →
    s.dev.fget Reg.PITCH_IMG_LEN.BYTES ≤ 1048576 →
    Runs .pitchLoad s fun d => d.fget Reg.PITCH_LOAD.STATE = 1 ∧ d.pitch.staged = none ∧ d.pitch.images = s.dev.pitch.images ∧
      d.pitch.queue = s.dev.pitch.queue ∧ d.pitch.threads = s.dev.pitch.threads ∧
      d.pitch.loading = (match s.dev.loadStages s.dev.loadBytes with
        | .ok i => some (some i, 0, 0)
        | .error (r, a) => some (none, r, a))) ∧
  (∀ (s : State), s.live = true → s.dev.pitch.loading = none → (s.dev.inst 0x13 0).swap = false →
    s.dev.fget Reg.PITCH_IMG_BASE.ADDR % 8 = 0 → s.dev.fget Reg.PITCH_IMG_LEN.BYTES = 0 →
    Runs .pitchLoad s fun d => d.fget Reg.PITCH_LOAD.STATE = 1 ∧ d.pitch.loading = some (none, 0x1306, 0) ∧
      d.pitch.staged = none ∧ d.pitch.images = s.dev.pitch.images) ∧
  (∀ (s : State), s.live = true → s.dev.pitch.loading = none → (s.dev.inst 0x13 0).swap = false →
    (s.dev.fget Reg.PITCH_IMG_BASE.ADDR % 8 ≠ 0 ∨ s.dev.fget Reg.PITCH_IMG_LEN.BYTES ≠ 0 ∧
      (s.dev.fget Reg.PITCH_IMG_LEN.BYTES < 512 ∨ 1048576 < s.dev.fget Reg.PITCH_IMG_LEN.BYTES)) →
    Runs .pitchLoad s fun d => d.fget Reg.PITCH_LOAD.STATE = 1 ∧ d.pitch.loading = some (none, 0x1302, 0) ∧
      d.pitch.staged = none ∧ d.pitch.images = s.dev.pitch.images) ∧
  (∀ (s : State), s.live = true → (s.dev.pitch.loading.isSome = true ∨ (s.dev.inst 0x13 0).swap = true) →
    Runs .pitchLoad s fun d => d = s.dev.setErr 0x13 0 8 ∧ (d.inst 0x13 0).err.getLsbD 8 = true ∧ d.pitch = s.dev.pitch) ∧
  (∀ (s : State) (i : Image) (r a : Nat), s.live = true → s.dev.pitch.loading = some (some i, r, a) →
    Runs .pitchLoadDone s fun d => d.fget Reg.PITCH_LOAD.STATE = 4 ∧
      d.pitch = { s.dev.pitch with loading := none, staged := some i }) ∧
  (∀ (s : State) (r a : Nat), s.live = true → s.dev.pitch.loading = some (none, r, a) →
    Runs .pitchLoadDone s fun d => d.fget Reg.PITCH_LOAD.STATE = 5 ∧ d.fget Reg.PITCH_LOAD.FAIL_REASON = r % 2 ^ 16 ∧
      d.fget Reg.PITCH_LOAD.FAIL_AT = a % 2 ^ 32 ∧ d.pitch = { s.dev.pitch with loading := none, staged := none }) ∧
  (∀ (s : State), s.live = true → s.dev.pitch.loading = none → Gives .pitchLoadDone s s.dev)

/-- The calls on counters, keys, entries and memory (R100, R159, R473, R511, R512). TALLY adds to a program counter and
reads it, and refuses an index beyond the last; it returns the tenant's page when metering is visible to it. CLASS answers
the action of the entry its key finds in the active rule set, or 4 when it finds none; HOSTQ answers the submission entry
of the asking run's command, and posts its completion; a DMA call moves the bytes of a region the image declares, answers
0x0003 for a malformed word and 0x0001 outside its regions; the Warden's mailbox and event ring take what the program
sends. A command that names no such call, or one already answered, changes nothing. -/
def Obligations.CallsOnCounters : Prop :=
  (∀ (s : State) (id : Nat) (a : Ask), s.live = true → s.dev.calls id 1 1 a = true → a.arg 0 % 2 ^ 32 ≤ 131071 →
    Gives (.tallyAdd id) s (Dev.reply { s.dev with tally := { s.dev.tally with
      pcnt := (s.dev.tally.pcnt.set (a.arg 0 % 2 ^ 32)
        (s.dev.tally.pcnt.get (a.arg 0 % 2 ^ 32) + BitVec.ofNat 64 (a.arg 0 / 2 ^ 32))) } } id 0)) ∧
  (∀ (s : State) (id : Nat) (a : Ask), s.live = true → s.dev.calls id 1 1 a = true → 131071 < a.arg 0 % 2 ^ 32 →
    Gives (.tallyAdd id) s (s.dev.reply id 0x10)) ∧
  (∀ (s : State) (id : Nat) (a : Ask), s.live = true → s.dev.calls id 1 2 a = true → a.arg 0 % 2 ^ 32 ≤ 131071 →
    Gives (.tallyRead id) s (s.dev.reply id 0 0 [s.dev.tally.pcnt.get (a.arg 0 % 2 ^ 32)])) ∧
  (∀ (s : State) (id : Nat) (a : Ask), s.live = true → s.dev.calls id 1 2 a = true → 131071 < a.arg 0 % 2 ^ 32 →
    Gives (.tallyRead id) s (s.dev.reply id 0x10)) ∧
  (∀ (s : State) (id : Nat) (a : Ask), s.live = true → s.dev.calls id 1 3 a = true → s.dev.meterVisible a.tenant = true →
    Settles (.tallyLog id) s ((s.dev.land a.tenant a.nsh (a.arg 0) 0 ((s.dev.tenantPage a.tenant).bytes 0 512) false).reply id 0)) ∧
  (∀ (s : State) (id : Nat) (a : Ask), s.live = true → s.dev.calls id 1 3 a = true → s.dev.meterVisible a.tenant = false →
    Settles (.tallyLog id) s (s.dev.reply id 0x11)) ∧
  (∀ (s : State) (id stage key g : Nat) (a : Ask) (ways : List Nat), s.live = true → Tab.look s.dev.asks id = some a →
    a.accel = 2 → a.answer = none → s.dev.serves 0x0B = true → stage ≤ 3 → g = (s.dev.inst 0x0B 0).active →
    ways = (buckets (s.dev.clsGet g Reg.CLS_STAGE.BASE stage) (s.dev.clsGet g Reg.CLS_STAGE.LOG2 stage)
      (leBytes key 40)).flatMap (fun b => (List.range 4).map fun w => b * 4 + w) →
    Gives (.classExactLookup id stage key) s
      (match (ways.filterMap fun k => Tab.look s.dev.cls.em k).find? (fun r => r.stage = stage && r.key = key && r.valid g) with
        | some r => s.dev.reply id 0 0 [BitVec.ofNat 64 r.act, BitVec.ofNat 64 (r.act / 2 ^ 64)]
        | none => s.dev.reply id 4)) ∧
  (∀ (s : State) (id stage key : Nat) (a : Ask), s.live = true → Tab.look s.dev.asks id = some a → a.accel = 2 →
    a.answer = none → s.dev.serves 0x0B = true → stage ≤ 3 → s.dev.cls.em = [] →
    Gives (.classExactLookup id stage key) s (s.dev.reply id 4)) ∧
  (∀ (s : State) (id stage key : Nat) (a : Ask), s.live = true → Tab.look s.dev.asks id = some a → a.accel = 2 →
    a.answer = none →
    Gives (.classExactLookup id stage key) s (if (s.dev.inst 0x0B 0).safe then s.dev.reply id 6
      else if !s.dev.serves 0x0B then s.dev.reply id 5 else if 3 < stage then s.dev.reply id 3
      else s.dev.classLookup id stage key)) ∧
  (∀ (s : State) (id : Nat) (a : Ask) (t : Tag), s.live = true → Tab.look s.dev.asks id = some a → a.accel = 9 →
    a.answer = none → s.dev.tag a.tagKey = some t →
    Settles (.hostqFetchEntry id) s (s.dev.reply id 0 0 (padWords 8 t.sqe))) ∧
  (∀ (s : State) (id : Nat) (c : Cqe) (a : Ask) (t : Tag), s.live = true → Tab.look s.dev.asks id = some a → a.accel = 9 →
    a.answer = none → s.dev.tag a.tagKey = some t →
    Settles (.hostqPostCompletion id c) s ((s.dev.postCompletion a.tagKey c).reply id 0)) ∧
  (∀ (s : State) (id : Nat) (c : Cqe) (a : Ask), s.live = true → Tab.look s.dev.asks id = some a → a.accel = 9 →
    a.answer = none → s.dev.tag a.tagKey = none →
    Settles (.hostqFetchEntry id) s (s.dev.reply id 1) ∧ Settles (.hostqPostCompletion id c) s (s.dev.reply id 1)) ∧
  (∀ (s : State) (id : Nat) (a : Ask), s.live = true → s.dev.calls id 0x0C 1 a = true → dmaWordOk a 256 = true →
    s.dev.dmaAllowed a (dmaOffset a) (dmaLength a) false = true →
    Gives (.dmaRead id) s (s.dev.reply id 0 0 ((List.range (dmaLength a / 8)).map fun i =>
      BitVec.ofNat 64 (s.dev.mem.dram.read (dmaOffset a + 8 * i) 8)))) ∧
  (∀ (s : State) (id : Nat) (a : Ask), s.live = true → s.dev.calls id 0x0C 1 a = true →
    (dmaWordOk a 256 = false ∨ s.dev.dmaAllowed a (dmaOffset a) (dmaLength a) false = false) →
    Gives (.dmaRead id) s (s.dev.reply id (if dmaWordOk a 256 then 1 else 3))) ∧
  (∀ (s : State) (id : Nat) (a : Ask), s.live = true → s.dev.calls id 0x0C 2 a = true → dmaWordOk a 248 = true →
    a.args.length = 1 + dmaLength a / 8 → s.dev.dmaAllowed a (dmaOffset a) (dmaLength a) true = true →
    Runs (.dmaWrite id) s fun d => Answered s.dev d id 0 0 [] ∧
      (∀ i < dmaLength a / 8, d.mem.dram.read (dmaOffset a + 8 * i) 8 = a.arg (1 + i)) ∧
      (∀ x, x < dmaOffset a ∨ dmaOffset a + dmaLength a ≤ x → d.mem.dram.byte x = s.dev.mem.dram.byte x) ∧
      d = { s.dev with mem := { s.dev.mem with dram := d.mem.dram }, asks := d.asks }) ∧
  (∀ (s : State) (id : Nat) (a : Ask), s.live = true → s.dev.calls id 0x0C 2 a = true → dmaWordOk a 248 = true →
    a.args.length = 1 + dmaLength a / 8 → s.dev.dmaAllowed a (dmaOffset a) (dmaLength a) true = false →
    Gives (.dmaWrite id) s (s.dev.reply id 1)) ∧
  (∀ (s : State) (id : Nat) (a : Ask), s.live = true → s.dev.calls id 0x0C 2 a = true →
    (dmaWordOk a 248 = false ∨ a.args.length ≠ 1 + dmaLength a / 8) → Gives (.dmaWrite id) s (s.dev.reply id 3)) ∧
  (∀ (s : State) (id : Nat) (a : Ask), s.live = true → s.dev.calls id 0x0D 1 a = true →
    Runs (.wardenMailbox id) s fun d => Answered s.dev d id 0 0 [] ∧ d.fget Reg.WDN_MBOX.DATA = a.arg 0 ∧
      ∀ k < 4, (d.core k).mbox = true) ∧
  (∀ (s : State) (id h : Nat) (a : Ask) (e : RingEntry), s.live = true → s.dev.calls id 0x0D 2 a = true →
    0x8000 ≤ a.arg 0 → a.arg 0 ≤ 0xFFFF → a.arg 1 < 2 ^ 32 → s.dev.on 2 = true → h = s.dev.fget Reg.WDN_EVR_HEAD.INDEX →
    (h + 1) % 4096 ≠ s.dev.fget Reg.WDN_EVR_TAIL.INDEX →
    e = { time := s.dev.now, blk := 0x13, inst := a.owner.num, code := a.arg 0, arg := a.arg 1 } →
    Runs (.wardenPost id) s fun d => Answered s.dev d id 0 0 [] ∧ d.fget Reg.WDN_EVR_HEAD.INDEX = (h + 1) % 4096 ∧
      d.mem = { s.dev.mem with wsram := s.dev.mem.wsram.setBytes (ringBase + 16 * h) e.bytes }) ∧
  (∀ (s : State) (id : Nat) (a : Ask), s.live = true → s.dev.calls id 0x0D 2 a = true →
    0x8000 ≤ a.arg 0 → a.arg 0 ≤ 0xFFFF → a.arg 1 < 2 ^ 32 →
    (s.dev.fget Reg.WDN_EVR_HEAD.INDEX + 1) % 4096 = s.dev.fget Reg.WDN_EVR_TAIL.INDEX →
    Gives (.wardenPost id) s ((s.dev.bump Reg.WDN_EVR_LOST.COUNT).reply id 0x10)) ∧
  (∀ (s : State) (id : Nat) (a : Ask), s.live = true → s.dev.calls id 0x0D 2 a = true →
    (a.arg 0 < 0x8000 ∨ 0xFFFF < a.arg 0 ∨ 2 ^ 32 ≤ a.arg 1) → Gives (.wardenPost id) s (s.dev.reply id 3)) ∧
  (∀ (s : State) (id : Nat), s.live = true →
    ∀ x ∈ [(Instr.tallyAdd, 1, 1), (Instr.tallyRead, 1, 2), (Instr.dmaRead, 0x0C, 1), (Instr.dmaWrite, 0x0C, 2),
      (Instr.wardenMailbox, 0x0D, 1), (Instr.wardenPost, 0x0D, 2)],
    (∀ a, s.dev.calls id x.2.1 x.2.2 a = false) → Gives (x.1 id) s s.dev) ∧
  (∀ (s : State) (id stage key : Nat) (c : Cqe), s.live = true → Tab.look s.dev.asks id = none →
    Settles (.tallyLog id) s s.dev ∧ Gives (.classExactLookup id stage key) s s.dev ∧
      Settles (.hostqFetchEntry id) s s.dev ∧ Settles (.hostqPostCompletion id c) s s.dev)

/-- The calls on the map, LEDGER and ROPE (R176, R179, R180, R186, R228). A lookup whose pages are resident captures the
entries under a new handle, one that misses answers 4 with its handle and waits, and one of a malformed entry, beyond the
namespace or with no namespace is refused; a release forgets the handle; a stage binds the landed units to the command; the
namespace's size and grade are answered; a move of a work item starts. A map call of another tenant, or while MAP is out of
service or recovering, is refused. An admission takes the holds that LEDGER decides on, is refused to a tenant that fails
fast, or waits. A rope request for a range of an admitted command takes the command's number and a lock entry, granted when
nothing below it conflicts; one whose command is marked answers 0x10 and completes it as aborted; a request outside every
admission is refused. A mark stays until a request meets it, and one that found no command expires after 10 ms. -/
def Obligations.CallsOnTheMap : Prop :=
  (∀ (s : State) (id h : Nat) (a : Ask) (n : Ns) (es : List Nat), s.live = true →
    s.dev.calls id 3 1 a = true → s.dev.mapTakes a = true → Tab.look s.dev.hostq.nss a.nsh = some n → 2 ≤ a.args.length →
    a.arg 0 + (a.arg 1 % 65536 + 1) ≤ n.nsze → es = s.dev.rangeEntries a.nsh (a.arg 0) (a.arg 1 % 65536 + 1) →
    s.dev.missing a.nsh (a.arg 0) (a.arg 1 % 65536 + 1) = [] → es.any entBad = false →
    h = s.dev.map.nextLookup →
    Acts (.mapLookup id) s fun d => Answered s.dev d id 0 0 [lookupWord h es] ∧
      (∃ l, Tab.look d.map.lookups h = some l ∧ l.entries = es ∧ l.gens = es.map s.dev.genOf ∧ l.ready = true ∧
        l.tenant = a.tenant ∧ l.tag = a.tagKey ∧ l.slba = a.arg 0 ∧ l.nblk = a.arg 1 % 65536 + 1) ∧
      d.map.nextLookup = (h + 1) % 2 ^ 32 ∧ d.map.entries = s.dev.map.entries ∧ d.mem = s.dev.mem ∧
      d.fget Reg.MAP_LOOKUP.HITS = (s.dev.fget Reg.MAP_LOOKUP.HITS + 1) % 2 ^ 32) ∧
  (∀ (s : State) (id : Nat) (a : Ask) (n : Ns), s.live = true → s.dev.calls id 3 1 a = true →
    s.dev.mapTakes a = true → Tab.look s.dev.hostq.nss a.nsh = some n → 2 ≤ a.args.length →
    n.nsze < a.arg 0 + (a.arg 1 % 65536 + 1) →
    Settles (.mapLookup id) s (s.dev.reply id 0x10)) ∧
  (∀ (s : State) (id : Nat) (a : Ask), s.live = true → s.dev.calls id 3 1 a = true →
    s.dev.mapTakes a = true → Tab.look s.dev.hostq.nss a.nsh = none →
    Settles (.mapLookup id) s (s.dev.reply id 0x11)) ∧
  (∀ (s : State) (id : Nat) (a : Ask) (n : Ns) (es : List Nat), s.live = true →
    s.dev.calls id 3 1 a = true → s.dev.mapTakes a = true → Tab.look s.dev.hostq.nss a.nsh = some n → 2 ≤ a.args.length →
    a.arg 0 + (a.arg 1 % 65536 + 1) ≤ n.nsze → es = s.dev.rangeEntries a.nsh (a.arg 0) (a.arg 1 % 65536 + 1) →
    s.dev.missing a.nsh (a.arg 0) (a.arg 1 % 65536 + 1) = [] → es.any entBad = true →
    Settles (.mapLookup id) s ((s.dev.raiseFault 0x08 0x14 0
      ((s.dev.pagesOf a.nsh (a.arg 0) (a.arg 1 % 65536 + 1)).headD 0 % 2 ^ 31)).reply id 1)) ∧
  (∀ (s : State) (id h : Nat) (a : Ask) (n : Ns), s.live = true →
    s.dev.calls id 3 1 a = true → s.dev.mapTakes a = true → Tab.look s.dev.hostq.nss a.nsh = some n → 2 ≤ a.args.length →
    a.arg 0 + (a.arg 1 % 65536 + 1) ≤ n.nsze → s.dev.missing a.nsh (a.arg 0) (a.arg 1 % 65536 + 1) ≠ [] →
    h = s.dev.map.nextLookup →
    Acts (.mapLookup id) s fun d => Answered s.dev d id 4 0 [BitVec.ofNat 64 h] ∧
      (∃ l, Tab.look d.map.lookups h = some l ∧ l.entries = [] ∧ l.ready = false ∧ l.tenant = a.tenant ∧ l.tag = a.tagKey ∧
        l.slba = a.arg 0 ∧ l.nblk = a.arg 1 % 65536 + 1) ∧
      d.map.nextLookup = (h + 1) % 2 ^ 32 ∧ d.map.entries = s.dev.map.entries) ∧
  (∀ (s : State) (id : Nat) (a : Ask), s.live = true →
    ∀ x ∈ [(Instr.mapLookup, 1), (Instr.mapRelease, 2), (Instr.mapStage, 3), (Instr.mapNamespaceInfo, 4), (Instr.mapMove, 0x10)],
    s.dev.calls id 3 x.2 a = true → s.dev.mapTakes a = false →
    Settles (x.1 id) s (s.dev.reply id (if (s.dev.inst 0x14 0).safe then 6
      else if !s.dev.serves 0x14 || decide (s.dev.fget Reg.MAP_RECOVER.STATE ≠ 2) then 5 else 1))) ∧
  (∀ (s : State) (id : Nat) (a : Ask) (l : Lookup), s.live = true → s.dev.calls id 3 2 a = true → s.dev.mapTakes a = true →
    Tab.look s.dev.map.lookups (a.arg 0 % 2 ^ 32) = some l → (l.tenant = a.tenant ∨ s.dev.workItem a = true) →
    Settles (.mapRelease id) s (Dev.reply { s.dev with
      map := { s.dev.map with lookups := Tab.del s.dev.map.lookups (a.arg 0 % 2 ^ 32) } } id 0)) ∧
  (∀ (s : State) (id : Nat) (a : Ask), s.live = true → s.dev.calls id 3 2 a = true → s.dev.mapTakes a = true →
    (∀ l, Tab.look s.dev.map.lookups (a.arg 0 % 2 ^ 32) = some l → l.tenant ≠ a.tenant ∧ s.dev.workItem a = false) →
    Settles (.mapRelease id) s (s.dev.reply id 0)) ∧
  (∀ (s : State) (id i : Nat) (a : Ask) (n : Ns) (u : SUnit), s.live = true → s.dev.calls id 3 3 a = true →
    s.dev.mapTakes a = true → Tab.look s.dev.hostq.nss a.nsh = some n → a.arg 0 + (a.arg 1 % 65536 + 1) ≤ n.nsze →
    s.dev.map.staging = [(i, u)] → u.token = a.arg 2 → u.state = .landing → u.uncommitted = false → u.rec_.tenant = a.tenant →
    s.dev.ledger.adms = [] →
    Acts (.mapStage id) s fun d => Answered s.dev d id 0 0 [] ∧
      Tab.look d.map.bound a.tagKey = some { slba := a.arg 0, nblk := a.arg 1 % 65536 + 1, token := a.arg 2, stream := a.arg 3 } ∧
      (∃ u', Tab.look d.map.staging i = some u' ∧ u'.tag = some a.tagKey ∧ u'.rec_.nsh = a.nsh ∧ u'.rec_.lba = a.arg 0 ∧
        u'.rec_.keySlot = n.keySlot ∧ u'.data = u.data ∧ u'.state = .landing) ∧ d.map.entries = s.dev.map.entries) ∧
  (∀ (s : State) (id i k : Nat) (a : Ask) (n : Ns) (u : SUnit) (c : Admission), s.live = true → s.dev.calls id 3 3 a = true →
    s.dev.mapTakes a = true → Tab.look s.dev.hostq.nss a.nsh = some n → a.arg 0 + (a.arg 1 % 65536 + 1) ≤ n.nsze →
    s.dev.map.staging = [(i, u)] → u.token = a.arg 2 → u.state = .landing → u.uncommitted = false → u.rec_.tenant = a.tenant →
    s.dev.ledger.adms = [(k, c)] → c.tag = a.tagKey →
    Acts (.mapStage id) s fun d => Answered s.dev d id 0 0 [] ∧
      (∃ u', Tab.look d.map.staging i = some u' ∧ u'.tag = some a.tagKey ∧ u'.rec_.nsh = a.nsh ∧ u'.rec_.lba = a.arg 0 ∧
        u'.data = u.data ∧ u'.state = .held ∧ u'.cycle = c.cycle ∧ u'.grade = c.grade) ∧ d.map.entries = s.dev.map.entries) ∧
  (∀ (s : State) (id : Nat) (a : Ask) (n : Ns) (us : List (Nat × SUnit)), s.live = true → s.dev.calls id 3 3 a = true →
    s.dev.mapTakes a = true → Tab.look s.dev.hostq.nss a.nsh = some n →
    us = s.dev.map.staging.filter (fun p => decide (p.2.token = a.arg 2 ∧ p.2.state = .landing)) →
    (n.nsze < a.arg 0 + (a.arg 1 % 65536 + 1) ∨ us.any (fun p => p.2.uncommitted) = true ∨
      us.any (fun p => p.2.rec_.tenant ≠ a.tenant) = true ∨ us = []) →
    Settles (.mapStage id) s (s.dev.reply id (if n.nsze < a.arg 0 + (a.arg 1 % 65536 + 1) then 0x10
      else if us.any (fun p => p.2.uncommitted) then 0x12 else 1))) ∧
  (∀ (s : State) (id : Nat) (a : Ask) (n : Ns), s.live = true → s.dev.calls id 3 4 a = true →
    s.dev.mapTakes a = true → Tab.look s.dev.hostq.nss a.nsh = some n →
    Settles (.mapNamespaceInfo id) s (s.dev.reply id 0 0
      [BitVec.ofNat 64 n.nsze, BitVec.ofNat 64 (n.grade + 8 * b2n n.pinned + 16 * b2n n.cold)])) ∧
  (∀ (s : State) (id : Nat) (a : Ask), s.live = true → ∀ x ∈ [(Instr.mapStage, 3), (Instr.mapNamespaceInfo, 4)],
    s.dev.calls id 3 x.2 a = true → s.dev.mapTakes a = true → Tab.look s.dev.hostq.nss a.nsh = none →
    Settles (x.1 id) s (s.dev.reply id 1)) ∧
  (∀ (s : State) (id n : Nat) (a : Ask), s.live = true → s.dev.calls id 3 0x10 a = true → s.dev.mapTakes a = true →
    a.tenant = 0 → Tab.look s.dev.stripe.items (a.arg 0) = some n →
    Settles (.mapMove id) s ((s.dev.startMove n).reply id 0)) ∧
  (∀ (s : State) (id : Nat) (a : Ask), s.live = true → s.dev.calls id 3 0x10 a = true → s.dev.mapTakes a = true →
    (a.tenant ≠ 0 ∨ Tab.look s.dev.stripe.items (a.arg 0) = none) → Settles (.mapMove id) s (s.dev.reply id 1)) ∧
  (∀ (s : State) (id slba nblk ranges handle : Nat) (kind : CmdKind) (a : Ask) (c c' : Admission) (defs : List (Nat × Nat)),
    s.live = true → Tab.look s.dev.asks id = some a → a.accel = 4 → a.code ≠ 2 → a.answer = none → s.dev.serves 0x11 = true →
    s.dev.ledger.adms = [] → (s.dev.psDefers = false ∨ a.tenant = 0) → c = s.dev.asksFor a kind slba nblk ranges handle →
    s.dev.keyHard a.nsh kind c.units = false → s.dev.decide_ c = .ok (c', defs) →
    Acts (.ledgerAdmit id kind slba nblk ranges handle) s fun d =>
      Answered s.dev d id 0 0 [BitVec.ofNat 64 s.dev.ledger.nextAdm] ∧
      d.ledger.adms = [(s.dev.ledger.nextAdm, { c' with deadline := s.dev.deadlineOf c' })] ∧
      d.ledger.nextAdm = (s.dev.ledger.nextAdm + 1) % 2 ^ 32 ∧ d.ledger.waiting = s.dev.ledger.waiting ∧
      d.ledger.belayBytes = s.dev.ledger.belayBytes + c'.belay ∧
      d.fget Reg.LEDGER_ADMIT.ADMITTED = (s.dev.fget Reg.LEDGER_ADMIT.ADMITTED + 1) % 2 ^ 32) ∧
  (∀ (s : State) (id slba nblk ranges handle : Nat) (kind : CmdKind) (a : Ask) (c : Admission), s.live = true →
    Tab.look s.dev.asks id = some a → a.accel = 4 → a.code ≠ 2 → a.answer = none → s.dev.serves 0x11 = true →
    s.dev.ledger.adms = [] → c = s.dev.asksFor a kind slba nblk ranges handle →
    s.dev.keyHard a.nsh kind c.units = false →
    (s.dev.psDefers = true ∧ a.tenant ≠ 0 ∨ (s.dev.decide_ c).toOption = none ∧ s.dev.failFast a.tenant = false) →
    Acts (.ledgerAdmit id kind slba nblk ranges handle) s fun d =>
      Answered s.dev d id 2 0 [] ∧ d.ledger = { s.dev.ledger with waiting := s.dev.ledger.waiting ++ [c] }) ∧
  (∀ (s : State) (id slba nblk ranges handle : Nat) (kind : CmdKind) (a : Ask) (c : Admission), s.live = true →
    Tab.look s.dev.asks id = some a → a.accel = 4 → a.code ≠ 2 → a.answer = none → s.dev.serves 0x11 = true →
    s.dev.ledger.adms = [] → c = s.dev.asksFor a kind slba nblk ranges handle →
    s.dev.keyHard a.nsh kind c.units = false → (s.dev.psDefers = false ∨ a.tenant = 0) →
    (s.dev.decide_ c).toOption = none → s.dev.failFast a.tenant = true →
    Acts (.ledgerAdmit id kind slba nblk ranges handle) s fun d => Answered s.dev d id 0x10 0 [] ∧ d.ledger = s.dev.ledger ∧
      d.fget Reg.LEDGER_WAIT.FAILFAST = (s.dev.fget Reg.LEDGER_WAIT.FAILFAST + 1) % 2 ^ 32) ∧
  (∀ (s : State) (id slba nblk ranges handle : Nat) (kind : CmdKind) (a : Ask), s.live = true →
    Tab.look s.dev.asks id = some a → a.accel = 4 → a.code ≠ 2 → a.answer = none → s.dev.serves 0x11 = true →
    s.dev.ledger.adms = [] →
    s.dev.keyHard a.nsh kind (s.dev.asksFor a kind slba nblk ranges handle).units = true →
    Settles (.ledgerAdmit id kind slba nblk ranges handle) s (s.dev.reply id 0x12)) ∧
  (∀ (s : State) (id slba nblk ranges handle : Nat) (kind : CmdKind) (a : Ask), s.live = true →
    Tab.look s.dev.asks id = some a → a.accel = 4 → a.code ≠ 2 → a.answer = none → s.dev.serves 0x11 = false →
    Settles (.ledgerAdmit id kind slba nblk ranges handle) s (s.dev.reply id (if (s.dev.inst 0x11 0).safe then 6 else 5))) ∧
  (∀ (s : State) (id n : Nat) (a : Ask) (c : Admission), s.live = true → s.dev.calls id 4 2 a = true → a.args ≠ [] →
    n = a.arg 0 % 2 ^ 32 → s.dev.ledger.adms = [(n, c)] →
    Acts (.ledgerRelease id) s fun d => Answered s.dev d id 0 0 [] ∧ d.ledger.adms = [] ∧
      d.ledger.waiting = s.dev.ledger.waiting ∧ d.ledger.belayBytes =
        (if c.cycle ≠ s.dev.cycle ∨ c.kind = .read then s.dev.ledger.belayBytes else s.dev.ledger.belayBytes - c.belay)) ∧
  (∀ (s : State) (id : Nat) (a : Ask), s.live = true → s.dev.calls id 4 2 a = true →
    (a.args = [] ∨ Tab.look s.dev.ledger.adms (a.arg 0 % 2 ^ 32) = none) →
    Settles (.ledgerRelease id) s (s.dev.reply id (if a.args = [] then 3 else 0))) ∧
  (∀ (s : State) (id r i : Nat) (a : Ask) (c : Admission) (kind : CmdKind), s.live = true → s.dev.calls id 5 1 a = true →
    s.dev.serves 0x12 = true → kindOf (bitsOf (a.arg 0) 51 48) = some kind → kind ∈ [.read, .write, .dealloc] →
    a.arg 0 % 2 ^ 32 = a.cmdref → bitsOf (a.arg 0) 45 32 = a.nsh →
    Tab.look s.dev.rope.marks (s.dev.markKey a.context a.cmdref) = none → s.dev.hostq.tags = [] → s.dev.rope.locks = [] →
    s.dev.ledger.adms = [(i, c)] → c.tag = tagKey a.context a.cmdref → c.nsh = a.nsh → c.kind = kind → 0 < c.entries →
    c.slba ≤ a.arg 1 → a.arg 1 + a.arg 2 ≤ c.slba + c.nblk →
    s.dev.jnl.active = none → r = s.dev.fget Reg.ROPE_NEXT.ROPE →
    Acts (.ropeRequest id false) s fun d => Answered s.dev d id 0 0 [BitVec.ofNat 64 r] ∧
      d.fget Reg.ROPE_NEXT.ROPE = (r + 1) % 2 ^ 64 ∧ d.ledger.adms = [(i, { c with entries := c.entries - 1 })] ∧
      (∃ l, d.rope.locks = [(0, l)] ∧ l.rope = r ∧ l.kind = kind ∧ l.granted = true ∧ l.slba = a.arg 1 ∧ l.nblk = a.arg 2 ∧
        l.nsh = a.nsh ∧ l.depth = 0 ∧ l.tenant = a.tenant)) ∧
  (∀ (s : State) (id r i j : Nat) (a : Ask) (c : Admission) (q : Lock), s.live = true → s.dev.calls id 5 1 a = true →
    s.dev.serves 0x12 = true → bitsOf (a.arg 0) 51 48 = 1 → a.arg 0 % 2 ^ 32 = a.cmdref → bitsOf (a.arg 0) 45 32 = a.nsh →
    Tab.look s.dev.rope.marks (s.dev.markKey a.context a.cmdref) = none → s.dev.hostq.tags = [] →
    s.dev.ledger.adms = [(i, c)] → c.tag = tagKey a.context a.cmdref → c.nsh = a.nsh → c.kind = .write → 0 < c.entries →
    c.slba ≤ a.arg 1 → a.arg 1 + a.arg 2 ≤ c.slba + c.nblk →
    s.dev.rope.locks = [(j, q)] → q.nsh = a.nsh → q.kind = .write → q.slba < a.arg 1 + a.arg 2 → a.arg 1 < q.slba + q.nblk →
    s.dev.jnl.active = none → r = s.dev.fget Reg.ROPE_NEXT.ROPE → q.rope < r →
    Acts (.ropeRequest id false) s fun d => Answered s.dev d id 2 0 [BitVec.ofNat 64 r] ∧
      d.rope.locks.length = 2 ∧
      (∃ l, l ∈ d.rope.locks.map (·.2) ∧ l.rope = r ∧ l.granted = false ∧ l.depth = q.depth + 1)) ∧
  (∀ (s : State) (id : Nat) (applied : Bool) (a : Ask) (m : Mark) (kind : CmdKind), s.live = true →
    s.dev.calls id 5 1 a = true → s.dev.serves 0x12 = true → kindOf (bitsOf (a.arg 0) 51 48) = some kind →
    Tab.look s.dev.rope.marks (s.dev.markKey a.context (a.arg 0 % 2 ^ 32)) = some m → s.dev.hostq.tags = [] →
    Acts (.ropeRequest id applied) s fun d => Answered s.dev d id 0x10 0 [] ∧
      Tab.look d.rope.marks (s.dev.markKey a.context (a.arg 0 % 2 ^ 32)) = none ∧
      d.fget Reg.ROPE_NEXT.ROPE = s.dev.fget Reg.ROPE_NEXT.ROPE) ∧
  (∀ (s : State) (id : Nat) (applied : Bool) (a : Ask) (kind : CmdKind), s.live = true →
    s.dev.calls id 5 1 a = true → s.dev.serves 0x12 = true → kindOf (bitsOf (a.arg 0) 51 48) = some kind →
    Tab.look s.dev.rope.marks (s.dev.markKey a.context (a.arg 0 % 2 ^ 32)) = none → s.dev.hostq.tags = [] →
    s.dev.rope.locks = [] →
    (a.arg 0 % 2 ^ 32 ≠ a.cmdref ∨ bitsOf (a.arg 0) 45 32 ≠ a.nsh ∨ s.dev.ledger.adms = []) →
    Settles (.ropeRequest id applied) s (s.dev.reply id 1)) ∧
  (∀ (s : State) (id : Nat) (applied : Bool) (a : Ask), s.live = true → s.dev.calls id 5 1 a = true →
    s.dev.serves 0x12 = true → kindOf (bitsOf (a.arg 0) 51 48) = none →
    Settles (.ropeRequest id applied) s (s.dev.reply id 3)) ∧
  (∀ (s : State) (id : Nat) (applied : Bool) (a : Ask), s.live = true → s.dev.serves 0x12 = false →
    (s.dev.calls id 5 1 a = true →
      Settles (.ropeRequest id applied) s (s.dev.reply id (if (s.dev.inst 0x12 0).safe then 6 else 5))) ∧
    (s.dev.calls id 5 2 a = true →
      Settles (.ropeMark id) s (s.dev.reply id (if (s.dev.inst 0x12 0).safe then 6 else 5)))) ∧
  (∀ (s : State) (id : Nat) (a : Ask), s.live = true → s.dev.calls id 5 2 a = true → s.dev.serves 0x12 = true →
    s.dev.hostq.tags = [] →
    Settles (.ropeMark id) s (Dev.reply { s.dev with rope := { s.dev.rope with
      marks := (Tab.put s.dev.rope.marks (s.dev.markKey a.context (a.arg 0 % 2 ^ 32))
        { made := s.dev.now, found := false }) } } id 0)) ∧
  (∀ (s : State) (id : Nat) (a : Ask) (k : Nat) (t : Tag), s.live = true → s.dev.calls id 5 2 a = true →
    s.dev.serves 0x12 = true → s.dev.hostq.tags = [(k, t)] → t.ctrl = s.dev.ctrlOf a.context →
    t.qid * 65536 + t.cid = a.arg 0 % 2 ^ 32 → t.state = .running →
    Settles (.ropeMark id) s (Dev.reply { s.dev with rope := { s.dev.rope with
      marks := (Tab.put s.dev.rope.marks (s.dev.markKey a.context (a.arg 0 % 2 ^ 32))
        { made := s.dev.now, found := true }) } } id 0)) ∧
  (∀ (s : State) (id : Nat) (a : Ask) (k : Nat) (t : Tag), s.live = true → s.dev.calls id 5 2 a = true →
    s.dev.serves 0x12 = true → (k, t) ∈ s.dev.hostq.tags → t.ctrl = s.dev.ctrlOf a.context →
    t.qid * 65536 + t.cid = a.arg 0 % 2 ^ 32 → (t.state = .committed ∨ t.state = .completed) →
    Settles (.ropeMark id) s (s.dev.reply id 0x11)) ∧
  (∀ (s : State) (ctrl cmdref : Nat) (m : Mark), s.live = true →
    Tab.look s.dev.rope.marks (ctrl * 2 ^ 32 + cmdref % 2 ^ 32) = some m → m.found = false → m.made + 10000000 ≤ s.dev.now →
    Settles (.markExpiry ctrl cmdref) s
      { s.dev with rope := { s.dev.rope with marks := (Tab.del s.dev.rope.marks (ctrl * 2 ^ 32 + cmdref % 2 ^ 32)) } }) ∧
  (∀ (s : State) (ctrl cmdref : Nat), s.live = true →
    (∀ m, Tab.look s.dev.rope.marks (ctrl * 2 ^ 32 + cmdref % 2 ^ 32) = some m →
      m.found = true ∨ s.dev.now < m.made + 10000000) →
    Settles (.markExpiry ctrl cmdref) s s.dev)

/-- The calls on CIPHER, MEDIA, STRIPE and the transports (R261, R277, R295, R347, R386, R387). A seal call queues the units
it names; an erase runs when no earlier seal of its slot is left; a read call makes a job with the units of the captured
range; a work item's move starts; the candidates come in the order asked for, and a selected band becomes the victim under
a new item TOKEN; a transfer call is answered at once and its message or its data units are queued, and one whose data is
bad at the egress check ends with an error and a fault instead. A call of another tenant, with arguments of another form,
of a slot, handle, band or context that does not allow it, or of a block out of service, gets the status the rules give. -/
def Obligations.CallsOnTheMedia : Prop :=
  (∀ (s : State) (id n slot : Nat) (a : Ask), s.live = true → s.dev.calls id 6 1 a = true → s.dev.serves 0x18 = true →
    n = bitsOf (a.arg 1) 8 0 → 1 ≤ n → n ≤ 256 → slot = bitsOf (a.arg 1) 29 16 → (s.dev.dslot slot).cur.isSome = true →
    s.dev.slotAllows a slot = true → s.dev.map.staging.all (fun p => !p.2.uncommitted) = true →
    Acts (.cipherSeal id) s fun d => Answered s.dev d id 0 0 [] ∧ ∃ x, d.cipher.seals = s.dev.cipher.seals ++ [x] ∧
      x.slot = slot ∧ x.token = a.arg 0 ∧ x.rope = a.arg 2 ∧ x.tenant = a.tenant ∧ x.nsh = a.nsh ∧
      x.units = x.left.length ∧ x.left.length ≤ n ∧
      ∀ i ∈ x.left, ∃ u, (i, u) ∈ s.dev.map.staging ∧ u.tag = some a.tagKey ∧ u.token = a.arg 0 ∧ u.sealed = false) ∧
  (∀ (s : State) (id : Nat) (a : Ask), s.live = true → s.dev.calls id 6 1 a = true → s.dev.serves 0x18 = true →
    1 ≤ bitsOf (a.arg 1) 8 0 → bitsOf (a.arg 1) 8 0 ≤ 256 → (s.dev.dslot (bitsOf (a.arg 1) 29 16)).cur = none →
    Settles (.cipherSeal id) s (s.dev.reply id 0x10)) ∧
  (∀ (s : State) (id : Nat) (a : Ask), s.live = true → s.dev.calls id 6 1 a = true → s.dev.serves 0x18 = true →
    (bitsOf (a.arg 1) 8 0 = 0 ∨ 256 < bitsOf (a.arg 1) 8 0) → Settles (.cipherSeal id) s (s.dev.reply id 3)) ∧
  (∀ (s : State) (id : Nat) (a : Ask), s.live = true → s.dev.calls id 6 1 a = true → s.dev.serves 0x18 = true →
    1 ≤ bitsOf (a.arg 1) 8 0 → bitsOf (a.arg 1) 8 0 ≤ 256 → (s.dev.dslot (bitsOf (a.arg 1) 29 16)).cur.isSome = true →
    s.dev.slotAllows a (bitsOf (a.arg 1) 29 16) = false → Settles (.cipherSeal id) s (s.dev.reply id 1)) ∧
  (∀ (s : State) (id n : Nat) (a : Ask), s.live = true → s.dev.calls id 6 2 a = true → s.dev.serves 0x18 = true →
    a.args ≠ [] → n = bitsOf (a.arg 0) 13 0 → s.dev.slotAllows a n = true → s.dev.cipher.erases = [] →
    s.dev.cipher.seals.all (fun x => decide (x.slot ≠ n)) = true → (s.dev.dslot n).cur = none → (s.dev.dslot n).standby = none →
    (s.dev.dslot n).older = [] →
    Acts (.cipherErase id) s fun d => Answered s.dev d id 0x14 0 [] ∧ (d.dslot n).cur = none ∧ (d.dslot n).older = [] ∧
      d.cipher.erases = []) ∧
  (∀ (s : State) (id n : Nat) (a : Ask) (k : KeyGen), s.live = true → s.dev.calls id 6 2 a = true → s.dev.serves 0x18 = true →
    a.args ≠ [] → n = bitsOf (a.arg 0) 13 0 → s.dev.slotAllows a n = true → s.dev.cipher.erases = [] →
    s.dev.cipher.seals.all (fun x => decide (x.slot ≠ n)) = true → (s.dev.dslot n).cur = some k →
    (s.dev.dslot n).standby = none →
    Acts (.cipherErase id) s fun d => Answered s.dev d id 0x14 0 [] ∧ (d.dslot n).cur = none ∧
      (d.dslot n).older = [] ∧ d.cipher.erases = []) ∧
  (∀ (s : State) (id n : Nat) (a : Ask), s.live = true → s.dev.calls id 6 2 a = true → s.dev.serves 0x18 = true →
    a.args ≠ [] → n = bitsOf (a.arg 0) 13 0 → s.dev.slotAllows a n = true → s.dev.cipher.erases = [] →
    s.dev.cipher.seals.any (fun x => decide (x.slot = n ∧ x.serial < s.dev.cipher.nextSeal)) = true →
    Settles (.cipherErase id) s { s.dev with cipher := { s.dev.cipher with erases := [(id, n, s.dev.cipher.nextSeal)] } }) ∧
  (∀ (s : State) (id : Nat) (a : Ask), s.live = true → s.dev.calls id 6 2 a = true → s.dev.serves 0x18 = true →
    (a.args = [] ∨ s.dev.slotAllows a (bitsOf (a.arg 0) 13 0) = false ∧
      (s.dev.dslot (bitsOf (a.arg 0) 13 0)).cur.isSome = true) →
    Settles (.cipherErase id) s (s.dev.reply id (if a.args = [] then 3 else 1))) ∧
  (∀ (s : State) (id first count h j : Nat) (a : Ask) (l : Lookup) (ad : Admission) (us : List JobUnit), s.live = true →
    s.dev.calls id 7 1 a = true → s.dev.serves 0x16 = true → first = bitsOf (a.arg 0) 47 32 → count = bitsOf (a.arg 0) 63 48 →
    1 ≤ count → count ≤ 256 → h = a.arg 1 % 2 ^ 32 → Tab.look s.dev.map.lookups h = some l →
    Tab.look s.dev.ledger.adms (a.arg 0 % 2 ^ 32) = some ad → l.tenant = a.tenant → ad.tag = l.tag →
    first + count ≤ l.entries.length → j = s.dev.media.nextJob →
    us = (((s.dev.captured l).drop first).take count).flatMap (fun c => s.dev.readUnits l c.1 c.2.1 c.2.2) → us ≠ [] →
    us.all (fun u => !u.decoded && !u.done && decide (s.dev.sledState (entSled u.entry) = 0)) = true →
    Acts (.mediaRead id) s fun d => Answered s.dev d id 0 0 [] ∧ d.media.nextJob = j + 1 ∧
      d.media.reqs = s.dev.media.reqs ++ us.zipIdx.map (fun p => readReq j p.2 0 (ad.grade = 1) p.1.entry) ∧
      ∃ x, Tab.look d.media.jobs j = some x ∧ x.units = us ∧ x.tenant = a.tenant ∧ x.cmdref = a.cmdref ∧ x.dest = a.arg 3 ∧
        x.lookup = h ∧ x.grade = ad.grade) ∧
  (∀ (s : State) (id : Nat) (a : Ask), s.live = true → s.dev.calls id 7 1 a = true → s.dev.serves 0x16 = true →
    (bitsOf (a.arg 0) 63 48 = 0 ∨ 256 < bitsOf (a.arg 0) 63 48) → Settles (.mediaRead id) s (s.dev.reply id 3)) ∧
  (∀ (s : State) (id : Nat) (a : Ask), s.live = true → s.dev.calls id 7 1 a = true → s.dev.serves 0x16 = true →
    1 ≤ bitsOf (a.arg 0) 63 48 → bitsOf (a.arg 0) 63 48 ≤ 256 → Tab.look s.dev.map.lookups (a.arg 1 % 2 ^ 32) = none →
    Settles (.mediaRead id) s (s.dev.reply id 0x11)) ∧
  (∀ (s : State) (id : Nat) (a : Ask) (l : Lookup), s.live = true → s.dev.calls id 7 1 a = true → s.dev.serves 0x16 = true →
    1 ≤ bitsOf (a.arg 0) 63 48 → bitsOf (a.arg 0) 63 48 ≤ 256 → Tab.look s.dev.map.lookups (a.arg 1 % 2 ^ 32) = some l →
    (∀ ad, Tab.look s.dev.ledger.adms (a.arg 0 % 2 ^ 32) = some ad → l.tenant ≠ a.tenant ∨ ad.tag ≠ l.tag ∨
      l.entries.length < bitsOf (a.arg 0) 47 32 + bitsOf (a.arg 0) 63 48) →
    Settles (.mediaRead id) s (s.dev.reply id 0x10)) ∧
  (∀ (s : State) (id : Nat) (a : Ask), s.live = true → s.dev.calls id 7 0x10 a = true → s.dev.serves 0x16 = true →
    a.tenant = 0 → Settles (.mediaWork id) s (Dev.reply (match Tab.look s.dev.stripe.items (a.arg 0) with
      | some n => s.dev.startMove n
      | none => s.dev) id 0)) ∧
  (∀ (s : State) (id n : Nat) (a : Ask) (b : Band), s.live = true → s.dev.calls id 8 1 a = true → s.dev.serves 0x15 = true →
    a.tenant = 0 → a.arg 0 % 4 ≠ 3 → s.dev.stripe.bands = [(n, b)] → b.state = .closed →
    Acts (.stripeCandidates id) s fun d => ∃ ws, Answered s.dev d id 0 0 ws ∧ ws.length = 3 ∧
      ws.getD 0 0 = BitVec.ofNat 64 (n + b.valid * 2 ^ 32) ∧ ws.getD 2 0 = 0xFFFFFFFF ∧ d = { s.dev with asks := d.asks }) ∧
  (∀ (s : State) (id n : Nat) (a : Ask) (b : Band), s.live = true → s.dev.calls id 8 2 a = true → s.dev.serves 0x15 = true →
    a.tenant = 0 → n = a.arg 0 % 2 ^ 32 → Tab.look s.dev.stripe.bands n = some b → b.state = .closed → b.item = none →
    b.ofMap = false →
    Acts (.stripeSelect id) s fun d => Answered s.dev d id 0 0 [BitVec.ofNat 64 s.dev.stripe.nextItem] ∧
      Tab.look d.stripe.items s.dev.stripe.nextItem = some n ∧
      (∃ b', Tab.look d.stripe.bands n = some b' ∧ b'.state = .victim ∧ b'.chunks = b.chunks)) ∧
  (∀ (s : State) (id n : Nat) (a : Ask), s.live = true → s.dev.calls id 8 2 a = true → s.dev.serves 0x15 = true →
    a.tenant = 0 → n = a.arg 0 % 2 ^ 32 → (∀ b, Tab.look s.dev.stripe.bands n = some b → b.state ≠ .closed) →
    Settles (.stripeSelect id) s (s.dev.reply id 0x10)) ∧
  (∀ (s : State) (id n : Nat) (a : Ask) (b : Band), s.live = true → s.dev.calls id 8 2 a = true → s.dev.serves 0x15 = true →
    a.tenant = 0 → n = a.arg 0 % 2 ^ 32 → Tab.look s.dev.stripe.bands n = some b → b.state = .closed → b.item.isSome = true →
    Settles (.stripeSelect id) s (s.dev.reply id 0x11)) ∧
  (∀ (s : State) (id : Nat) (a : Ask), s.live = true → ∀ x ∈ [(Instr.stripeCandidates, 1), (Instr.stripeSelect, 2)],
    s.dev.calls id 8 x.2 a = true → s.dev.serves 0x15 = true → a.tenant ≠ 0 → Settles (x.1 id) s (s.dev.reply id 1)) ∧
  (∀ (s : State) (id : Nat) (a : Ask), s.live = true → s.dev.calls id 7 0x10 a = true → s.dev.serves 0x16 = true →
    a.tenant ≠ 0 → Settles (.mediaWork id) s (s.dev.reply id 1)) ∧
  (∀ (s : State) (id : Nat) (a : Ask), s.live = true →
    ∀ x ∈ [(Instr.cipherSeal, 6, 1, 0x18), (Instr.cipherErase, 6, 2, 0x18), (Instr.mediaRead, 7, 1, 0x16),
      (Instr.mediaWork, 7, 0x10, 0x16), (Instr.stripeCandidates, 8, 1, 0x15), (Instr.stripeSelect, 8, 2, 0x15)],
    s.dev.calls id x.2.1 x.2.2.1 a = true → s.dev.serves x.2.2.2 = false →
    Settles (x.1 id) s (s.dev.reply id (if (s.dev.inst x.2.2.2 0).safe then 6 else 5))) ∧
  (∀ (s : State) (id n : Nat) (a : Ask) (t : Tag) (c : Ctx), s.live = true → s.dev.xferTakes id 0x0A 1 a n t c = true →
    s.dev.belay.carried = [] → s.dev.egressGood (xferOf a t c) = true → (s.dev.ctx 0x0C n).isSome = true →
    Settles (.xportWrite id false) s ((s.dev.reply id 0).queueMsg n
      { op := .write, tag := tagKey n (a.cmdref % 65536), cmdref := a.cmdref
        pkts := (max 1 (((xferOf a t c).len + c.mtu - 1) / c.mtu)), xfer := some (xferOf a t c) })) ∧
  (∀ (s : State) (id n : Nat) (a : Ask) (t : Tag) (c : Ctx), s.live = true → s.dev.xferTakes id 0x0A 1 a n t c = true →
    (s.dev.ctx 0x0C n).isSome = true →
    Settles (.xportWrite id true) s ((s.dev.reply id 0).egressBad 0x0C n (xferOf a t c))) ∧
  (∀ (s : State) (id n : Nat) (a : Ask) (t : Tag) (c : Ctx), s.live = true → s.dev.xferTakes id 0x0A 2 a n t c = true →
    (s.dev.ctx 0x0C n).isSome = true →
    Settles (.xportRead id) s ((s.dev.reply id 0).queueMsg n
      { op := .read, tag := tagKey n (a.cmdref % 65536), cmdref := a.cmdref
        pkts := (max 1 (((xferOf a t c).len + c.mtu - 1) / c.mtu)), xfer := some (xferOf a t c) })) ∧
  (∀ (s : State) (id n : Nat) (a : Ask) (t : Tag) (c : Ctx), s.live = true → s.dev.xferTakes id 0x0B 1 a n t c = true →
    s.dev.egressGood (xferOf a t c) = true → (s.dev.ctx 0x0D n).isSome = true → (s.dev.sconn n).hdgst = false →
    Settles (.streamWrite id false) s ((s.dev.reply id 0).queuePiece n (.c2h (xferOf a t c))
      ((24 + 4 * (c.hpda + 1) - 1) / (4 * (c.hpda + 1)) * (4 * (c.hpda + 1))) (xferOf a t c).len)) ∧
  (∀ (s : State) (id n : Nat) (a : Ask) (t : Tag) (c : Ctx), s.live = true → s.dev.xferTakes id 0x0B 1 a n t c = true →
    s.dev.egressGood (xferOf a t c) = true → (s.dev.ctx 0x0D n).isSome = true → (s.dev.sconn n).hdgst = true →
    Settles (.streamWrite id false) s ((s.dev.reply id 0).queuePiece n (.c2h (xferOf a t c))
      ((28 + 4 * (c.hpda + 1) - 1) / (4 * (c.hpda + 1)) * (4 * (c.hpda + 1)) - 4) (xferOf a t c).len)) ∧
  (∀ (s : State) (id n : Nat) (a : Ask) (t : Tag) (c : Ctx), s.live = true → s.dev.xferTakes id 0x0B 1 a n t c = true →
    (s.dev.ctx 0x0D n).isSome = true →
    Settles (.streamWrite id true) s ((s.dev.reply id 0).egressBad 0x0D n (xferOf a t c))) ∧
  (∀ (s : State) (id n : Nat) (a : Ask) (t : Tag) (c : Ctx), s.live = true → s.dev.xferTakes id 0x0B 2 a n t c = true →
    (s.dev.ctx 0x0D n).isSome = true → (s.dev.sconn n).inCapsule = [] →
    Settles (.streamRead id) s (((s.dev.reply id 0).setSconn n
      { s.dev.sconn n with xfers := (s.dev.sconn n).xfers ++ [xferOf a t c] }).moreR2ts n)) ∧
  (∀ (s : State) (id : Nat) (a : Ask), s.live = true →
    ∀ x ∈ [((fun i => Instr.xportWrite i false), 0x0A, 1), (Instr.xportRead, 0x0A, 2),
      ((fun i => Instr.streamWrite i false), 0x0B, 1), (Instr.streamRead, 0x0B, 2)],
    s.dev.calls id x.2.1 x.2.2 a = true → s.dev.on (x.2.1 + 2) = false →
    Settles (x.1 id) s (s.dev.reply id (if (s.dev.inst (x.2.1 + 2) 0).safe then 6 else 5))) ∧
  (∀ (s : State) (id : Nat) (a : Ask) (c : Ctx), s.live = true →
    ∀ x ∈ [((fun i => Instr.xportWrite i false), 0x0A, 1), (Instr.xportRead, 0x0A, 2),
      ((fun i => Instr.streamWrite i false), 0x0B, 1), (Instr.streamRead, 0x0B, 2)],
    s.dev.calls id x.2.1 x.2.2 a = true → s.dev.on (x.2.1 + 2) = true → 3 ≤ a.args.length → a.context < 2 ^ 18 →
    s.dev.ctxAny (x.2.1 + 2) (bitsOf (a.arg 0) 47 30) = some c → bitOf (a.arg 0) 29 = true → c.tenant ≠ a.tenant →
    a.tenant ≠ 0 → Settles (x.1 id) s (s.dev.reply id 1)) ∧
  (∀ (s : State) (id n : Nat) (a : Ask) (k b : KeyGen), s.live = true → s.dev.calls id 6 2 a = true → s.dev.serves 0x18 = true →
    a.args ≠ [] → n = bitsOf (a.arg 0) 13 0 → s.dev.slotAllows a n = true → s.dev.cipher.erases = [] →
    s.dev.cipher.seals.all (fun x => decide (x.slot ≠ n)) = true → (s.dev.dslot n).cur = some k →
    (s.dev.dslot n).standby = some b → (s.dev.keygenRecord n ((k.gen + 1) % 256) (s.dev.dslot n).nsh).2 = true →
    Acts (.cipherErase id) s fun d => Answered s.dev d id 0 0 [] ∧
      (d.dslot n).cur = some { b with gen := (k.gen + 1) % 256, used := 0 } ∧ (d.dslot n).standby = none ∧
      (d.dslot n).older = [] ∧ d.cipher.erases = [])

/-- Capsules, completions and controllers (R118, R119, R136, R143 to R146, R148, R150, R154). An accepted capsule has a
Queued tag and an arrival event with its namespace's handle, or goes to the partner that owns its group, and moves its
queue's head; one beyond the queue's size is only counted; a CID in use and an unknown opcode complete with their statuses.
A completion carries the queue's head; a delivered one frees its tag, and a late one is counted. Connect makes the
controller or the queue, or completes with the status of the check it fails; Disconnect and a missed keep alive take them
away, and a drained reset clears CSTS.RDY. A command of a kind that its row does not name, and any without its queue, its
controller or HOSTQ, changes nothing. The range of KATO that fails, and its status, are log 98's; reading and writing of
properties NVMe 2.0 gives at its offsets (log 24). -/
def Obligations.NvmeQueues : Prop :=
  (∀ (d : Dev) (key : Nat) (c : Cqe) (t : Tag) (q : Queue), d.tag key = some t → t.state ≠ .completed → t.remote = none →
    d.queue t.ctx = some q → ∃ o ∈ (d.hostDone key c).hostq.outbox, o.ctx = t.ctx ∧ o.cid = t.cid ∧ o.ofTag = true ∧
      o.deadline = t.deadline ∧ o.cqe.sct = c.sct ∧ o.cqe.sc = c.sc ∧ o.cqe.dnr = c.dnr ∧ o.cqe.sqhd = q.head ∧
      (t.qid = 0 → o.cqe.dw0 = c.dw0 ∧ o.cqe.dw1 = c.dw1) ∧
      (t.qid ≠ 0 → o.cqe.dw0 = t.rope % 2 ^ 32 ∧ o.cqe.dw1 = t.rope / 2 ^ 32) ∧
      ∃ t', (d.hostDone key c).tag key = some t' ∧ t'.state = .completed) ∧
  (∀ (s : State) (ctx nsgl sgl : Nat) (sqe seg : List Word) (q : Queue) (c : Ctrl), s.live = true → s.dev.queue ctx = some q →
    s.dev.ctrl q.ctrl = some c → s.dev.on 0x10 = true → s.dev.quiet = false →
    (s.dev.hostq.tags.filter fun t => t.2.ctx = ctx && decide (t.2.state ≠ .completed)).length < q.sqsize + 1 →
    s.dev.tag (tagKey ctx (sqeCid sqe)) = none → q.qid = 0 → sqeOpcode sqe ∈ adminOpcodes →
    Acts (.capsuleArrival ctx sqe nsgl sgl seg) s fun d =>
      (∃ t, d.tag (tagKey ctx (sqeCid sqe)) = some t ∧ t.state = .queued ∧ t.ctrl = q.ctrl ∧ t.tenant = c.tenant ∧
        t.sqe = padWords 8 sqe ∧ t.sglLen = sgl) ∧
      (∃ q', d.queue ctx = some q' ∧ q'.head = (q.head + 1) % (q.sqsize + 1)) ∧
      (∃ x, d.ctrl q.ctrl = some x ∧ x.katoLast = s.dev.now) ∧
      (s.dev.pitch.queue.length < 8192 → s.dev.pitch.held = [] → d.pitch.queue = s.dev.pitch.queue ++
        [{ typ := 0x02, words := arrivalWords 0x02 c.tenant ctx 0 sqe nsgl seg }])) ∧
  (∀ (s : State) (ctx nsgl sgl : Nat) (sqe seg : List Word) (q : Queue) (c : Ctrl), s.live = true →
    s.dev.queue ctx = some q →
    s.dev.ctrl q.ctrl = some c → s.dev.on 0x10 = true → s.dev.quiet = false →
    (s.dev.hostq.tags.filter fun t => t.2.ctx = ctx && decide (t.2.state ≠ .completed)).length < q.sqsize + 1 →
    s.dev.tag (tagKey ctx (sqeCid sqe)) = none → q.qid ≠ 0 → sqeOpcode sqe ∈ ioOpcodes →
    ((s.dev.nsFor c (sqeNsid sqe)).any fun p => decide (s.dev.anaState p.2.anagrp = .nonOptimized) &&
      !s.dev.ownsGroup p.2.anagrp) = false →
    Acts (.capsuleArrival ctx sqe nsgl sgl seg) s fun d =>
      (∃ t, d.tag (tagKey ctx (sqeCid sqe)) = some t ∧ t.state = .queued ∧ t.forwarded = false) ∧
      (∃ q', d.queue ctx = some q' ∧ q'.head = (q.head + 1) % (q.sqsize + 1)) ∧
      d.hostq.fwdOut = s.dev.hostq.fwdOut ∧
      (s.dev.pitch.queue.length < 8192 → s.dev.pitch.held = [] → d.pitch.queue = s.dev.pitch.queue ++
        [{ typ := 0x01, words := arrivalWords 0x01 c.tenant ctx q.qid sqe nsgl seg
            (((s.dev.nsFor c (sqeNsid sqe)).map (·.1)).getD 0) }])) ∧
  (∀ (s : State) (ctx nsgl sgl h : Nat) (sqe seg : List Word) (q : Queue) (c : Ctrl) (n : Ns), s.live = true →
    s.dev.queue ctx = some q →
    s.dev.ctrl q.ctrl = some c → s.dev.on 0x10 = true → s.dev.quiet = false →
    (s.dev.hostq.tags.filter fun t => t.2.ctx = ctx && decide (t.2.state ≠ .completed)).length < q.sqsize + 1 →
    s.dev.tag (tagKey ctx (sqeCid sqe)) = none → q.qid ≠ 0 → sqeOpcode sqe ∈ ioOpcodes →
    s.dev.nsFor c (sqeNsid sqe) = some (h, n) → s.dev.anaState n.anagrp = .nonOptimized →
    s.dev.groupOwner n.anagrp ≠ s.dev.fget Reg.CAMP_STRAP.UNIT_ID →
    Acts (.capsuleArrival ctx sqe nsgl sgl seg) s fun d =>
      (∃ t, d.tag (tagKey ctx (sqeCid sqe)) = some t ∧ t.state = .queued ∧ t.forwarded = true) ∧
      d.hostq.fwdOut = s.dev.hostq.fwdOut ++ [tagKey ctx (sqeCid sqe)] ∧ d.pitch.queue = s.dev.pitch.queue) ∧
  (∀ (s : State) (ctx nsgl sgl : Nat) (sqe seg : List Word) (q : Queue) (c : Ctrl), s.live = true → s.dev.queue ctx = some q →
    s.dev.ctrl q.ctrl = some c → s.dev.on 0x10 = true → s.dev.quiet = false →
    q.sqsize + 1 ≤ (s.dev.hostq.tags.filter fun t => t.2.ctx = ctx && decide (t.2.state ≠ .completed)).length →
    Acts (.capsuleArrival ctx sqe nsgl sgl seg) s fun d => d.hostq = s.dev.hostq ∧ d.pitch = s.dev.pitch ∧
      d.fget Reg.HOSTQ_STAT.SQ_OVERRUN = (s.dev.fget Reg.HOSTQ_STAT.SQ_OVERRUN + 1) % 2 ^ 32) ∧
  (∀ (s : State) (ctx nsgl sgl : Nat) (sqe seg : List Word) (q : Queue) (c : Ctrl) (t : Tag), s.live = true →
    s.dev.queue ctx = some q →
    s.dev.ctrl q.ctrl = some c → s.dev.on 0x10 = true → s.dev.quiet = false →
    (s.dev.hostq.tags.filter fun t => t.2.ctx = ctx && decide (t.2.state ≠ .completed)).length < q.sqsize + 1 →
    s.dev.tag (tagKey ctx (sqeCid sqe)) = some t →
    Acts (.capsuleArrival ctx sqe nsgl sgl seg) s fun d => d.tag (tagKey ctx (sqeCid sqe)) = some t ∧
      ∃ o ∈ d.hostq.outbox, o.ctx = ctx ∧ o.cid = sqeCid sqe ∧ o.ofTag = false ∧ o.cqe.sct = 0 ∧ o.cqe.sc = 3) ∧
  (∀ (s : State) (ctx nsgl sgl : Nat) (sqe seg : List Word) (q : Queue) (c : Ctrl), s.live = true → s.dev.queue ctx = some q →
    s.dev.ctrl q.ctrl = some c → s.dev.on 0x10 = true → s.dev.quiet = false →
    (s.dev.hostq.tags.filter fun t => t.2.ctx = ctx && decide (t.2.state ≠ .completed)).length < q.sqsize + 1 →
    s.dev.tag (tagKey ctx (sqeCid sqe)) = none →
    (if q.qid = 0 then adminOpcodes.contains (sqeOpcode sqe) else ioOpcodes.contains (sqeOpcode sqe)) = false →
    Acts (.capsuleArrival ctx sqe nsgl sgl seg) s fun d =>
      (∃ t, d.tag (tagKey ctx (sqeCid sqe)) = some t ∧ t.state = .completed) ∧
      ∃ o ∈ d.hostq.outbox, o.ctx = ctx ∧ o.cid = sqeCid sqe ∧ o.ofTag = true ∧ o.cqe.sct = 0 ∧ o.cqe.sc = 1) ∧
  (∀ (s : State) (ctx nsgl sgl : Nat) (sqe seg : List Word), s.live = true →
    (s.dev.queue ctx = none ∨ s.dev.on 0x10 = false ∨ s.dev.quiet = true) →
    Settles (.capsuleArrival ctx sqe nsgl sgl seg) s s.dev) ∧
  (∀ (s : State) (ctx cid left : Nat) (o : Done), s.live = true →
    s.dev.hostq.outbox.find? (fun o => o.ctx = ctx && o.cid = cid) = some o →
    o.ofTag = true → s.dev.responseHeld ctx (tagKey ctx cid) = false → (o.deadline = 0 ∨ left ≤ o.deadline) →
    Acts (.completionDelivered ctx cid left) s fun d =>
      d.hostq.outbox = s.dev.hostq.outbox.eraseP (fun o => o.ctx = ctx && o.cid = cid) ∧
      d.hostq.tags = Tab.del s.dev.hostq.tags (tagKey ctx cid) ∧
      d.cipher.plain = s.dev.cipher.plain.filter (fun p => decide (p.tag ≠ tagKey ctx cid)) ∧
      d = { s.dev with hostq := d.hostq, cipher := { s.dev.cipher with plain := d.cipher.plain } }) ∧
  (∀ (s : State) (ctx cid left : Nat) (o : Done), s.live = true →
    s.dev.hostq.outbox.find? (fun o => o.ctx = ctx && o.cid = cid) = some o →
    o.ofTag = true → s.dev.responseHeld ctx (tagKey ctx cid) = false → 0 < o.deadline → o.deadline < left →
    s.dev.hostq.ctrls = [] →
    Acts (.completionDelivered ctx cid left) s fun d =>
      d.hostq.outbox = s.dev.hostq.outbox.eraseP (fun o => o.ctx = ctx && o.cid = cid) ∧
      d.hostq.tags = Tab.del s.dev.hostq.tags (tagKey ctx cid) ∧
      d.fget Reg.LEDGER_OVERRUN.COUNT = (s.dev.fget Reg.LEDGER_OVERRUN.COUNT + 1) % 2 ^ 32) ∧
  (∀ (s : State) (ctx cid left : Nat) (o : Done), s.live = true →
    s.dev.hostq.outbox.find? (fun o => o.ctx = ctx && o.cid = cid) = some o →
    (o.ofTag = false ∨ s.dev.responseHeld ctx (tagKey ctx cid) = false) → 0 < o.deadline → o.deadline < left →
    Acts (.completionDelivered ctx cid left) s fun d =>
      d.fget Reg.LEDGER_OVERRUN.COUNT = (s.dev.fget Reg.LEDGER_OVERRUN.COUNT + 1) % 2 ^ 32) ∧
  (∀ (s : State) (ctx cid left : Nat) (o : Done), s.live = true →
    s.dev.hostq.outbox.find? (fun o => o.ctx = ctx && o.cid = cid) = some o →
    o.ofTag = true → s.dev.responseHeld ctx (tagKey ctx cid) = true →
    Settles (.completionDelivered ctx cid left) s s.dev) ∧
  (∀ (s : State) (ctx cid left : Nat), s.live = true →
    s.dev.hostq.outbox.find? (fun o => o.ctx = ctx && o.cid = cid) = none →
    Settles (.completionDelivered ctx cid left) s s.dev) ∧
  (∀ (s : State) (ctx cid cntlid sqsize kato i k : Nat) (fab : Fabric) (host sub : List Byte) (u : Subsys), s.live = true →
    s.dev.connects ctx host sub i u = true →
    1 ≤ sqsize → sqsize ≤ s.dev.fget Reg.HOSTQ_CFG.MQES → katoBad kato = false →
    s.dev.hostq.ctrls.length < s.dev.fget Reg.HOSTQ_CFG.MAX_CTRL → s.dev.fget Reg.HOSTQ_OCC.IOQ < 65535 →
    k = freeCtrl s.dev.hostq.ctrls s.dev.hostq.ctrls.length 0 →
    Acts (.connect ctx cid fab host sub cntlid 0 sqsize kato) s fun d =>
      (∃ x, d.ctrl k = some x ∧ x.subsys = i ∧ x.discovery = u.discovery ∧ x.adminCtx = ctx ∧ x.kato = connectKato kato ∧
        x.katoLast = s.dev.now ∧ x.rdy = false) ∧
      (∃ q, d.queue ctx = some q ∧ q.ctrl = k ∧ q.qid = 0 ∧ q.sqsize = sqsize ∧ q.fabric = fab) ∧
      (∃ o ∈ d.hostq.outbox, o.ctx = ctx ∧ o.cid = cid ∧ o.cqe.sct = 0 ∧ o.cqe.sc = 0 ∧ o.cqe.dw0 = k)) ∧
  (∀ (s : State) (ctx cid cntlid sqsize kato i k : Nat) (fab : Fabric) (host sub : List Byte) (u : Subsys) (e : HostEnt),
    s.live = true → s.dev.connects ctx host sub i u = true →
    s.dev.hostq.hosts.find? (fun h => h.hash = Config.shake256 (nqnOf host) 32 && h.subsys = i) = some e →
    1 ≤ sqsize → sqsize ≤ s.dev.fget Reg.HOSTQ_CFG.MQES → katoBad kato = false →
    s.dev.hostq.ctrls.length < s.dev.fget Reg.HOSTQ_CFG.MAX_CTRL → s.dev.fget Reg.HOSTQ_OCC.IOQ < 65535 →
    k = freeCtrl s.dev.hostq.ctrls s.dev.hostq.ctrls.length 0 →
    Acts (.connect ctx cid fab host sub cntlid 0 sqsize kato) s fun d =>
      (∃ x, d.ctrl k = some x ∧ x.subsys = i ∧ x.tenant = e.tenant ∧ x.maxq = e.maxq ∧
        x.adminCtx = ctx ∧ x.kato = connectKato kato) ∧
      (∃ q, d.queue ctx = some q ∧ q.ctrl = k ∧ q.qid = 0 ∧ q.sqsize = sqsize ∧ q.fabric = fab) ∧
      (∃ o ∈ d.hostq.outbox, o.ctx = ctx ∧ o.cid = cid ∧ o.cqe.sct = 0 ∧ o.cqe.sc = 0 ∧ o.cqe.dw0 = k)) ∧
  (∀ (s : State) (ctx cid cntlid qid sqsize kato i : Nat) (fab : Fabric) (host sub : List Byte) (u : Subsys) (x : Ctrl),
    s.live = true →
    s.dev.connects ctx host sub i u = true →
    1 ≤ sqsize → sqsize ≤ s.dev.fget Reg.HOSTQ_CFG.MQES → 1 ≤ qid → s.dev.ctrl cntlid = some x → x.subsys = i →
    x.hostHash = Config.shake256 (nqnOf host) 32 → x.resetting = false → qid ≤ x.maxq →
    s.dev.hostq.queues.any (fun q => q.2.ctrl = cntlid && q.2.qid = qid) = false → s.dev.fget Reg.HOSTQ_OCC.IOQ < 65535 →
    Acts (.connect ctx cid fab host sub cntlid qid sqsize kato) s fun d =>
      d.ctrl cntlid = some x ∧
      (∃ q, d.queue ctx = some q ∧ q.ctrl = cntlid ∧ q.qid = qid ∧ q.sqsize = sqsize ∧ q.fabric = fab) ∧
      (∃ o ∈ d.hostq.outbox, o.ctx = ctx ∧ o.cid = cid ∧ o.cqe.sct = 0 ∧ o.cqe.sc = 0 ∧ o.cqe.dw0 = cntlid)) ∧
  (∀ (s : State) (ctx cid cntlid qid sqsize kato : Nat) (fab : Fabric) (host sub : List Byte), s.live = true →
    s.dev.on 0x10 = true → s.dev.quiet = false → s.dev.queue ctx = none → s.dev.sanitizing = false →
    s.dev.hostq.subs.find? (fun s => nqnOf s.2.nqn = nqnOf sub) = none →
    Acts (.connect ctx cid fab host sub cntlid qid sqsize kato) s fun d => d.queue ctx = none ∧ d.hostq.ctrls = s.dev.hostq.ctrls ∧
      ∃ o ∈ d.hostq.outbox, o.ctx = ctx ∧ o.cid = cid ∧ o.cqe.sct = 1 ∧ o.cqe.sc = 0x84 ∧ o.cqe.dnr = true) ∧
  (∀ (s : State) (ctx cid cntlid qid sqsize kato i : Nat) (fab : Fabric) (host sub : List Byte) (u : Subsys), s.live = true →
    s.dev.on 0x10 = true → s.dev.quiet = false → s.dev.queue ctx = none → s.dev.sanitizing = false →
    s.dev.hostq.subs.find? (fun s => nqnOf s.2.nqn = nqnOf sub) = some (i, u) → u.discovery = false →
    s.dev.hostq.hosts.find? (fun h => h.hash = Config.shake256 (nqnOf host) 32 && h.subsys = i) = none →
    Acts (.connect ctx cid fab host sub cntlid qid sqsize kato) s fun d => d.queue ctx = none ∧ d.hostq.ctrls = s.dev.hostq.ctrls ∧
      ∃ o ∈ d.hostq.outbox, o.ctx = ctx ∧ o.cid = cid ∧ o.cqe.sct = 1 ∧ o.cqe.sc = 0x84 ∧ o.cqe.dnr = true) ∧
  (∀ (s : State) (ctx cid cntlid qid sqsize kato i : Nat) (fab : Fabric) (host sub : List Byte) (u : Subsys), s.live = true →
    s.dev.connects ctx host sub i u = true →
    (sqsize = 0 ∨ s.dev.fget Reg.HOSTQ_CFG.MQES < sqsize) →
    Acts (.connect ctx cid fab host sub cntlid qid sqsize kato) s fun d => d.queue ctx = none ∧ d.hostq.ctrls = s.dev.hostq.ctrls ∧
      ∃ o ∈ d.hostq.outbox, o.ctx = ctx ∧ o.cid = cid ∧ o.cqe.sct = 1 ∧ o.cqe.sc = 0x82 ∧ o.cqe.dw0 = 44) ∧
  (∀ (s : State) (ctx cid cntlid sqsize kato i : Nat) (fab : Fabric) (host sub : List Byte) (u : Subsys), s.live = true →
    s.dev.connects ctx host sub i u = true →
    1 ≤ sqsize → sqsize ≤ s.dev.fget Reg.HOSTQ_CFG.MQES → katoBad kato = true →
    Acts (.connect ctx cid fab host sub cntlid 0 sqsize kato) s fun d => d.queue ctx = none ∧ d.hostq.ctrls = s.dev.hostq.ctrls ∧
      ∃ o ∈ d.hostq.outbox, o.ctx = ctx ∧ o.cid = cid ∧ o.cqe.sct = 0 ∧ o.cqe.sc = 2) ∧
  (∀ (s : State) (ctx cid cntlid sqsize kato i : Nat) (fab : Fabric) (host sub : List Byte) (u : Subsys), s.live = true →
    s.dev.connects ctx host sub i u = true →
    1 ≤ sqsize → sqsize ≤ s.dev.fget Reg.HOSTQ_CFG.MQES → katoBad kato = false →
    (s.dev.fget Reg.HOSTQ_CFG.MAX_CTRL ≤ s.dev.hostq.ctrls.length ∨ 65535 ≤ s.dev.fget Reg.HOSTQ_OCC.IOQ) →
    Acts (.connect ctx cid fab host sub cntlid 0 sqsize kato) s fun d => d.queue ctx = none ∧ d.hostq.ctrls = s.dev.hostq.ctrls ∧
      ∃ o ∈ d.hostq.outbox, o.ctx = ctx ∧ o.cid = cid ∧ o.cqe.sct = 1 ∧ o.cqe.sc = 0x81) ∧
  (∀ (s : State) (ctx cid cntlid qid sqsize kato i : Nat) (fab : Fabric) (host sub : List Byte) (u : Subsys) (x : Ctrl),
    s.live = true →
    s.dev.connects ctx host sub i u = true →
    1 ≤ sqsize → sqsize ≤ s.dev.fget Reg.HOSTQ_CFG.MQES → 1 ≤ qid → s.dev.ctrl cntlid = some x → x.subsys = i →
    x.hostHash = Config.shake256 (nqnOf host) 32 → x.resetting = false → x.maxq < qid →
    Acts (.connect ctx cid fab host sub cntlid qid sqsize kato) s fun d => d.queue ctx = none ∧ d.hostq.ctrls = s.dev.hostq.ctrls ∧
      ∃ o ∈ d.hostq.outbox, o.ctx = ctx ∧ o.cid = cid ∧ o.cqe.sct = 1 ∧ o.cqe.sc = 0x82 ∧ o.cqe.dw0 = 42) ∧
  (∀ (s : State) (ctx cid cntlid qid sqsize kato i : Nat) (fab : Fabric) (host sub : List Byte) (u : Subsys), s.live = true →
    s.dev.connects ctx host sub i u = true →
    1 ≤ sqsize → sqsize ≤ s.dev.fget Reg.HOSTQ_CFG.MQES → 1 ≤ qid → s.dev.ctrl cntlid = none →
    Acts (.connect ctx cid fab host sub cntlid qid sqsize kato) s fun d => d.queue ctx = none ∧ d.hostq.ctrls = s.dev.hostq.ctrls ∧
      ∃ o ∈ d.hostq.outbox, o.ctx = ctx ∧ o.cid = cid ∧ o.cqe.sct = 1 ∧ o.cqe.sc = 0x82 ∧ o.cqe.dw0 = 16) ∧
  (∀ (s : State) (ctx cid cntlid qid sqsize kato : Nat) (fab : Fabric) (host sub : List Byte), s.live = true →
    s.dev.on 0x10 = true → s.dev.quiet = false → s.dev.queue ctx = none → s.dev.sanitizing = true →
    Acts (.connect ctx cid fab host sub cntlid qid sqsize kato) s fun d => d.queue ctx = none ∧ d.hostq.ctrls = s.dev.hostq.ctrls ∧
      ∃ o ∈ d.hostq.outbox, o.ctx = ctx ∧ o.cid = cid ∧ o.cqe.sct = 0 ∧ o.cqe.sc = 0x1D ∧ o.cqe.dnr = false) ∧
  (∀ (s : State) (ctx cid cntlid qid sqsize kato : Nat) (fab : Fabric) (host sub : List Byte), s.live = true →
    (s.dev.on 0x10 = false ∨ s.dev.quiet = true ∨ (s.dev.queue ctx).isSome = true) →
    Settles (.connect ctx cid fab host sub cntlid qid sqsize kato) s s.dev) ∧
  (∀ (s : State) (ctx cid off : Nat) (t : Tag) (x : Ctrl), s.live = true → s.dev.adminTakes ctx cid 0x7F t x = true →
    field (t.sqe.getD 0 0) 39 32 = 4 → off = sqeDw t.sqe 11 →
    Settles (.propertyGet (.host ctx cid)) s ((s.dev.began ctx cid).ends ctx cid
      (if off = 0 then { success with dw0 := s.dev.cap % 2 ^ 32, dw1 := s.dev.cap / 2 ^ 32 }
       else if off = 8 then { success with dw0 := 0x20000 }
       else if off = 0x14 then { success with dw0 := x.cc % 2 ^ 32, dw1 := x.cc / 2 ^ 32 }
       else if off = 0x1C then { success with dw0 := b2n x.rdy } else { sct := 0, sc := 2 }) none)) ∧
  (∀ (s : State) (ctx cid : Nat) (t : Tag) (x : Ctrl), s.live = true → s.dev.adminTakes ctx cid 0x7F t x = true →
    field (t.sqe.getD 0 0) 39 32 = 0 → sqeDw t.sqe 11 = 0x14 → sqeDw t.sqe 12 % 2 = 1 → x.resetting = false →
    Settles (.propertySet (.host ctx cid)) s (((s.dev.began ctx cid).modCtrl t.ctrl fun x =>
      { x with cc := sqeDw t.sqe 12, en := true, rdy := true }).ends ctx cid success none)) ∧
  (∀ (s : State) (ctx cid : Nat) (t : Tag) (x : Ctrl), s.live = true → s.dev.adminTakes ctx cid 0x7F t x = true →
    field (t.sqe.getD 0 0) 39 32 = 0 → sqeDw t.sqe 11 = 0x14 → sqeDw t.sqe 12 % 2 = 0 → x.en = true →
    Settles (.propertySet (.host ctx cid)) s ((((s.dev.began ctx cid).modCtrl t.ctrl fun x =>
      { x with cc := sqeDw t.sqe 12 }).ends ctx cid success none).resetCtrl t.ctrl false)) ∧
  (∀ (s : State) (ctx cid : Nat) (t : Tag) (x : Ctrl), s.live = true → s.dev.adminTakes ctx cid 0x7F t x = true →
    field (t.sqe.getD 0 0) 39 32 = 0 → sqeDw t.sqe 11 = 0x14 → sqeDw t.sqe 12 % 2 = 0 → x.en = false →
    Settles (.propertySet (.host ctx cid)) s (((s.dev.began ctx cid).modCtrl t.ctrl fun x =>
      { x with cc := sqeDw t.sqe 12 }).ends ctx cid success none)) ∧
  (∀ (s : State) (ctx cid : Nat) (t : Tag) (x : Ctrl), s.live = true → s.dev.adminTakes ctx cid 0x7F t x = true →
    field (t.sqe.getD 0 0) 39 32 = 0 → (sqeDw t.sqe 11 ≠ 0x14 ∨ (sqeDw t.sqe 12 % 2 = 1 ∧ x.resetting = true)) →
    Settles (.propertySet (.host ctx cid)) s ((s.dev.began ctx cid).ends ctx cid
      { sct := 0, sc := (if sqeDw t.sqe 11 = 0x14 then 0x0C else 2) } none)) ∧
  (∀ (s : State) (ctx cid k : Nat) (t : Tag) (x : Ctrl) (c : Instr), s.live = true →
    s.dev.adminTakes ctx cid 0x7F t x = true → c ∈ [Instr.propertyGet (.host ctx cid), .propertySet (.host ctx cid)] →
    k = field (t.sqe.getD 0 0) 39 32 → k ∉ [0, 4, 8] →
    Settles c s ((s.dev.began ctx cid).ends ctx cid
      (if k = 1 then { sct := 1, sc := 0x82, dw0 := 42 } else { sct := 0, sc := 1 }) none)) ∧
  (∀ (d : Dev) (c : Nat) (x : Ctrl) (dropping : Bool), d.ctrl c = some x → d.hostq.tags = [] → d.hostq.selfTest = none →
    ∃ x', (d.resetCtrl c dropping).ctrl c = some x' ∧ x'.en = false ∧ x'.resetting = true ∧ x'.rdy = x.rdy ∧
      x'.dropping = (x.dropping || dropping) ∧ x'.aers = []) ∧
  (∀ (s : State) (ctx cid : Nat) (t : Tag), s.live = true → s.dev.tag (tagKey ctx cid) = some t → sqeOpcode t.sqe = 0x7F →
    field (t.sqe.getD 0 0) 39 32 = 8 → t.state ≠ .completed → s.dev.sanitizing = false →
    Settles (.disconnect ctx cid) s
      (((s.dev.dropArrival ctx cid).hostDone (tagKey ctx cid) success).queueLost ctx)) ∧
  (∀ (s : State) (ctx cid : Nat) (t : Tag), s.live = true → s.dev.tag (tagKey ctx cid) = some t → sqeOpcode t.sqe = 0x7F →
    field (t.sqe.getD 0 0) 39 32 = 8 → t.state ≠ .completed → s.dev.sanitizing = true →
    Settles (.disconnect ctx cid) s
      ((s.dev.dropArrival ctx cid).hostDone (tagKey ctx cid) { sct := 0, sc := 0x1D, dnr := false })) ∧
  (∀ (s : State) (ctx cid : Nat), s.live = true →
    ((s.dev.tag (tagKey ctx cid)).any fun t => decide (sqeOpcode t.sqe = 0x7F ∧ field (t.sqe.getD 0 0) 39 32 = 8 ∧
      t.state ≠ .completed)) = false → Settles (.disconnect ctx cid) s s.dev) ∧
  (∀ (d : Dev) (ctx : Nat) (q : Queue), d.queue ctx = some q → q.qid = 0 → d.queueLost ctx = d.resetCtrl q.ctrl true) ∧
  (∀ (d : Dev) (ctx : Nat) (q : Queue), d.queue ctx = some q → q.qid ≠ 0 →
    (d.queueLost ctx).hostq.queues.all (fun p => decide (p.1 ≠ ctx)) = true) ∧
  (∀ (s : State) (c : Nat) (x : Ctrl), s.live = true → s.dev.ctrl c = some x → x.katoLast + x.kato * 1000000 ≤ s.dev.now →
    x.resetting = false → s.dev.on 0x10 = true →
    Settles (.katoExpiry c) s ((s.dev.post 0x10 0 0x21 (c % 65536)).resetCtrl c true)) ∧
  (∀ (s : State) (c : Nat), s.live = true →
    ((s.dev.ctrl c).any fun x => decide (x.katoLast + x.kato * 1000000 ≤ s.dev.now) && !x.resetting && s.dev.on 0x10) = false →
    Settles (.katoExpiry c) s s.dev) ∧
  (∀ (s : State) (c : Nat) (x : Ctrl), s.live = true → s.dev.ctrl c = some x → x.resetting = true → x.dropping = false →
    s.dev.openTags (fun t => decide (t.ctrl = c)) = [] →
    Settles (.controllerResetDrained c) s (s.dev.modCtrl c fun x => { x with rdy := false, resetting := false })) ∧
  (∀ (s : State) (c : Nat) (x : Ctrl), s.live = true → s.dev.ctrl c = some x → x.resetting = true → x.dropping = true →
    s.dev.openTags (fun t => decide (t.ctrl = c)) = [] →
    Acts (.controllerResetDrained c) s fun d => d.hostq.ctrls = Tab.del s.dev.hostq.ctrls c ∧
      ∀ p ∈ d.hostq.queues, p ∈ s.dev.hostq.queues ∧ p.2.ctrl ≠ c) ∧
  (∀ (s : State) (c : Nat), s.live = true →
    ((s.dev.ctrl c).any fun x => x.resetting && (s.dev.openTags fun t => decide (t.ctrl = c)).isEmpty) = false →
    Settles (.controllerResetDrained c) s s.dev)

/-- The admin commands (R148, R150 to R152, R155 to R160, R162, R163, R218): each completes its command, of a host or
tunnelled from a management controller, with the status and the data the rules give, after the effect it names. One whose
command is not outstanding, or that comes tunnelled while HOSTQ is out of service, changes nothing, and while a sanitize runs
one that R150 does not name is refused. A Format NVM or a Sanitize waits until its entries are the lowest of their
namespaces. Data structures hold their values at the offsets of NVMe 2.0 (log 24); logs 95, 96 and 97 name what is chosen in
Get Log Page, Set Features and the self-test. -/
def Obligations.NvmeAdmin : Prop :=
  (∀ (s : State) (ctx cid op : Nat) (data : List Byte) (c : Instr), s.live = true →
    (c, op) ∈ [(Instr.getLogPage (.host ctx cid), 2), (.identify (.host ctx cid), 6), (.abort (.host ctx cid), 8),
      (.setFeatures (.host ctx cid) data, 9), (.getFeatures (.host ctx cid), 0x0A),
      (.asynchronousEventRequest (.host ctx cid), 0x0C), (.deviceSelfTestShort (.host ctx cid), 0x14),
      (.deviceSelfTestExtended (.host ctx cid), 0x14), (.deviceSelfTestAbort (.host ctx cid), 0x14),
      (.keepAlive (.host ctx cid), 0x18), (.propertyGet (.host ctx cid), 0x7F), (.propertySet (.host ctx cid), 0x7F),
      (.formatNvm (.host ctx cid), 0x80)] →
    ((s.dev.tag (tagKey ctx cid)).any fun t => decide (t.qid = 0 ∧ sqeOpcode t.sqe = op ∧ t.state ≠ .completed) && !t.held) =
      false → Settles c s s.dev) ∧
  (∀ (s : State) (ctx cid op : Nat) (data : List Byte) (c : Instr) (t : Tag) (x : Ctrl), s.live = true →
    (c, op) ∈ [(Instr.setFeatures (.host ctx cid) data, 9), (.asynchronousEventRequest (.host ctx cid), 0x0C),
      (.deviceSelfTestShort (.host ctx cid), 0x14), (.deviceSelfTestExtended (.host ctx cid), 0x14),
      (.deviceSelfTestAbort (.host ctx cid), 0x14), (.propertyGet (.host ctx cid), 0x7F),
      (.propertySet (.host ctx cid), 0x7F), (.formatNvm (.host ctx cid), 0x80)] →
    s.dev.tag (tagKey ctx cid) = some t → t.qid = 0 → sqeOpcode t.sqe = op → t.state ≠ .completed → t.held = false →
    s.dev.ctrlFor t = some x → s.dev.sanitizing = true →
    Settles c s ((s.dev.began ctx cid).ends ctx cid { sct := 0, sc := 0x1D, dnr := false } none)) ∧
  (∀ (s : State) (sqe : List Word) (op off : Nat) (data : List Byte) (n : NsCmd) (attach : Bool) (l : List Nat) (c : Instr),
    s.live = true →
    (c, op) ∈ [(Instr.getLogPage (.mgmt sqe), 2), (.identify (.mgmt sqe), 6), (.abort (.mgmt sqe), 8),
      (.setFeatures (.mgmt sqe) data, 9), (.getFeatures (.mgmt sqe), 0x0A), (.asynchronousEventRequest (.mgmt sqe), 0x0C),
      (.namespaceManagement (.mgmt sqe) n, 0x0D), (.firmwareCommit (.mgmt sqe), 0x10),
      (.firmwareImageDownload (.mgmt sqe) off data, 0x11), (.deviceSelfTestShort (.mgmt sqe), 0x14),
      (.deviceSelfTestExtended (.mgmt sqe), 0x14), (.deviceSelfTestAbort (.mgmt sqe), 0x14),
      (.namespaceAttachment (.mgmt sqe) off attach l, 0x15), (.keepAlive (.mgmt sqe), 0x18),
      (.propertyGet (.mgmt sqe), 0x7F), (.propertySet (.mgmt sqe), 0x7F), (.formatNvm (.mgmt sqe), 0x80),
      (.sanitizeCryptoErase (.mgmt sqe), 0x84), (.sanitizeBlockErase (.mgmt sqe), 0x84)] →
    (s.dev.on 0x10 = false ∨ sqeOpcode sqe ≠ op) → Settles c s s.dev) ∧
  (∀ (s : State) (sqe : List Word) (op off : Nat) (data : List Byte) (n : NsCmd) (attach : Bool) (l : List Nat) (c : Instr),
    s.live = true →
    (c, op) ∈ [(Instr.setFeatures (.mgmt sqe) data, 9), (.asynchronousEventRequest (.mgmt sqe), 0x0C),
      (.namespaceManagement (.mgmt sqe) n, 0x0D), (.firmwareCommit (.mgmt sqe), 0x10),
      (.firmwareImageDownload (.mgmt sqe) off data, 0x11), (.deviceSelfTestShort (.mgmt sqe), 0x14),
      (.deviceSelfTestExtended (.mgmt sqe), 0x14), (.deviceSelfTestAbort (.mgmt sqe), 0x14),
      (.namespaceAttachment (.mgmt sqe) off attach l, 0x15),
      (.propertyGet (.mgmt sqe), 0x7F), (.propertySet (.mgmt sqe), 0x7F), (.formatNvm (.mgmt sqe), 0x80),
      (.sanitizeCryptoErase (.mgmt sqe), 0x84), (.sanitizeBlockErase (.mgmt sqe), 0x84)] →
    s.dev.on 0x10 = true → sqeOpcode sqe = op → s.dev.sanitizing = true →
    Settles c s (s.dev.mgmtEnds { sct := 0, sc := 0x1D, dnr := false })) ∧
  (∀ (s : State) (ctx cid lid : Nat) (t : Tag) (x : Ctrl), s.live = true → s.dev.adminTakes ctx cid 2 t x = true →
    lid = sqeDw t.sqe 10 % 256 →
    ((lid = 0xC0 ∧ s.dev.meterVisible x.tenant = false) ∨ (lid = 0x70 ∧ x.discovery = false) ∨
      lid ∉ [1, 2, 3, 4, 5, 6, 0x0C, 0x70, 0x81, 0xC0]) →
    Settles (.getLogPage (.host ctx cid)) s ((s.dev.began ctx cid).ends ctx cid { sct := 1, sc := 9 } none)) ∧
  (∀ (s : State) (ctx cid len : Nat) (t : Tag) (x : Ctrl), s.live = true → s.dev.adminTakes ctx cid 2 t x = true →
    sqeDw t.sqe 10 % 256 = 0xC0 → s.dev.meterVisible x.tenant = true → bitOf (sqeDw t.sqe 10) 15 = true →
    sqeDw t.sqe 12 = 0 → sqeDw t.sqe 13 = 0 → 0 < t.sglLen →
    len = (bitsOf (sqeDw t.sqe 10) 31 16 + (sqeDw t.sqe 11 % 65536) * 65536 + 1) * 4 →
    Acts (.getLogPage (.host ctx cid)) s fun d => ∃ m,
      d = (s.dev.began ctx cid).ends ctx cid success (some { m := m, len := (min (min len 512) t.sglLen) }) ∧
      ∀ a < min len 512, m.byte a = (s.dev.tenantPage x.tenant).byte a) ∧
  (∀ (s : State) (ctx cid : Nat) (t : Tag) (x : Ctrl), s.live = true → s.dev.adminTakes ctx cid 2 t x = true →
    sqeDw t.sqe 10 % 256 = 0xC0 → s.dev.meterVisible x.tenant = true →
    (512 < sqeDw t.sqe 12 + sqeDw t.sqe 13 * 2 ^ 32 ∨ sqeDw t.sqe 12 % 4 ≠ 0) →
    Settles (.getLogPage (.host ctx cid)) s ((s.dev.began ctx cid).ends ctx cid { sct := 0, sc := 2 } none)) ∧
  (∀ (s : State) (ctx cid : Nat) (t : Tag) (x : Ctrl), s.live = true → s.dev.adminTakes ctx cid 2 t x = true →
    sqeDw t.sqe 10 % 256 = 6 → bitOf (sqeDw t.sqe 10) 15 = true → sqeDw t.sqe 12 = 0 → sqeDw t.sqe 13 = 0 →
    564 ≤ t.sglLen → 564 ≤ (bitsOf (sqeDw t.sqe 10) 31 16 + (sqeDw t.sqe 11 % 65536) * 65536 + 1) * 4 →
    Acts (.getLogPage (.host ctx cid)) s fun d => ∃ h, h.len = 564 ∧
      d = Dev.ends { s.dev.began ctx cid with free := s.dev.free + 1 } ctx cid success (some h) ∧
      h.m.read 0 1 = (match s.dev.hostq.selfTest with
        | some q => if q.extended then 2 else 1
        | none => 0)) ∧
  (∀ (s : State) (ctx cid : Nat) (t : Tag) (x : Ctrl), s.live = true → s.dev.adminTakes ctx cid 2 t x = true →
    sqeDw t.sqe 10 % 256 = 0x81 → bitOf (sqeDw t.sqe 10) 15 = true → sqeDw t.sqe 12 = 0 → sqeDw t.sqe 13 = 0 →
    8 ≤ t.sglLen → 8 ≤ (bitsOf (sqeDw t.sqe 10) 31 16 + (sqeDw t.sqe 11 % 65536) * 65536 + 1) * 4 →
    s.dev.sanitizing = false →
    Acts (.getLogPage (.host ctx cid)) s fun d => ∃ h,
      d = Dev.ends { s.dev.began ctx cid with free := s.dev.free + 1 } ctx cid success (some h) ∧
      h.m.read 0 2 = 0xFFFF ∧ h.m.read 2 1 = (if s.dev.hostq.sanitize = none then 0 else 1)) ∧
  (∀ (s : State) (ctx cid len : Nat) (t : Tag) (x : Ctrl), s.live = true → s.dev.adminTakes ctx cid 2 t x = true →
    sqeDw t.sqe 10 % 256 = 4 → bitOf (sqeDw t.sqe 10) 15 = false → sqeDw t.sqe 12 = 0 → sqeDw t.sqe 13 = 0 → 0 < t.sglLen →
    len = (bitsOf (sqeDw t.sqe 10) 31 16 + (sqeDw t.sqe 11 % 65536) * 65536 + 1) * 4 →
    Acts (.getLogPage (.host ctx cid)) s fun d => ∃ h, h.len = min (min len 4096) t.sglLen ∧ h.open_ = none ∧
      d = (let b := (s.dev.began ctx cid).modCtrl t.ctrl fun x =>
            { x with events := x.events.filter fun e => decide (e.page ≠ 4) }
          Dev.ends { b with hostq := { b.hostq with
            changed := s.dev.hostq.changed.filter fun k => decide (k / 2 ^ 32 ≠ t.ctrl) } } ctx cid success (some h))) ∧
  (∀ (s : State) (sqe : List Word), s.live = true → s.dev.mgmtTakes sqe 2 = true →
    sqeDw (padWords 8 sqe) 10 % 256 ∈ [0x70, 0xC0] →
    Settles (.getLogPage (.mgmt sqe)) s (s.dev.mgmtEnds { sct := 1, sc := 9 })) ∧
  (∀ (s : State) (ctx cid : Nat) (t : Tag) (x : Ctrl), s.live = true → s.dev.adminTakes ctx cid 6 t x = true →
    sqeDw t.sqe 10 % 256 ∉ [0, 1, 2, 3, 8, 0x1C] →
    Settles (.identify (.host ctx cid)) s ((s.dev.began ctx cid).ends ctx cid { sct := 0, sc := 2 } none)) ∧
  (∀ (s : State) (ctx cid : Nat) (t : Tag) (x : Ctrl), s.live = true → s.dev.adminTakes ctx cid 6 t x = true →
    sqeDw t.sqe 10 % 256 = 1 → 0 < t.sglLen →
    Acts (.identify (.host ctx cid)) s fun d => ∃ m,
      d = (s.dev.began ctx cid).ends ctx cid success (some { m := m, len := (min 4096 t.sglLen) }) ∧
      m.read 516 4 = 16384 ∧ m.read 77 1 = 8 ∧ m.read 3138 1 = s.dev.fget Reg.CAMP_STRAP.UNIT_ID ∧
      m.read 3136 2 = (s.dev.inst 0x13 0).active % 65536) ∧
  (∀ (s : State) (ctx cid h : Nat) (t : Tag) (x : Ctrl) (n : Ns), s.live = true → s.dev.adminTakes ctx cid 6 t x = true →
    sqeDw t.sqe 10 % 256 = 0 → 0 < t.sglLen →
    (s.dev.hostq.nss.filter fun p => x.sees p.2).find? (fun p => p.2.nsid = sqeNsid t.sqe) = some (h, n) →
    Acts (.identify (.host ctx cid)) s fun d => ∃ m,
      d = Dev.ends { s.dev.began ctx cid with free := s.dev.free + 1 } ctx cid success
        (some { m := m, len := (min 4096 t.sglLen), open_ := (some (Config.freeValue s.dev.free)), given := nsGiven }) ∧
      m.read 0 8 = n.nsze % 2 ^ 64 ∧ m.read 8 8 = n.nsze % 2 ^ 64 ∧ m.read 16 8 = n.nsze % 2 ^ 64 ∧
      m.read 92 4 = n.anagrp % 2 ^ 32 ∧ m.read 130 1 = 12 ∧ m.read 25 2 = 0 ∧ m.read 33 1 = 0) ∧
  (∀ (s : State) (ctx cid : Nat) (t : Tag) (x : Ctrl), s.live = true → s.dev.adminTakes ctx cid 6 t x = true →
    sqeDw t.sqe 10 % 256 ∈ [0, 3, 8] → 0 < t.sglLen →
    (s.dev.hostq.nss.filter fun p => x.sees p.2).find? (fun p => p.2.nsid = sqeNsid t.sqe) = none →
    Settles (.identify (.host ctx cid)) s ((s.dev.began ctx cid).ends ctx cid { sct := 0, sc := 0x0B } none)) ∧
  (∀ (s : State) (ctx cid : Nat) (t : Tag) (x : Ctrl), s.live = true → s.dev.adminTakes ctx cid 8 t x = true →
    ((s.dev.began ctx cid).openTags fun u => decide (u.ctrl = t.ctrl ∧ u.qid = 0 ∧ sqeOpcode u.sqe = 8)).length ≤ 4 →
    (s.dev.began ctx cid).hostq.tags.find? (fun p => p.2.ctrl = t.ctrl && p.2.qid = sqeDw t.sqe 10 % 65536 &&
      p.2.cid = sqeDw t.sqe 10 / 65536) = none →
    Settles (.abort (.host ctx cid)) s
      (((s.dev.began ctx cid).bump Reg.HOSTQ_ABORTS.LOST).ends ctx cid { success with dw0 := 1 } none)) ∧
  (∀ (s : State) (ctx cid key : Nat) (t u : Tag) (x : Ctrl), s.live = true → s.dev.adminTakes ctx cid 8 t x = true →
    ((s.dev.began ctx cid).openTags fun u => decide (u.ctrl = t.ctrl ∧ u.qid = 0 ∧ sqeOpcode u.sqe = 8)).length ≤ 4 →
    (s.dev.began ctx cid).hostq.tags.find? (fun p => p.2.ctrl = t.ctrl && p.2.qid = sqeDw t.sqe 10 % 65536 &&
      p.2.cid = sqeDw t.sqe 10 / 65536) = some (key, u) → u.state = .queued →
    Settles (.abort (.host ctx cid)) s
      (let b := s.dev.began ctx cid
       let b := { b with hostq := { b.hostq with fwdOut := b.hostq.fwdOut.filter (· ≠ key) } }
       let b := (b.dropArrival u.ctx (u.qid * 65536 + u.cid)).hostDone key { sct := 0, sc := 7 }
       (b.bump Reg.HOSTQ_ABORTS.WON).ends ctx cid success none)) ∧
  (∀ (s : State) (ctx cid key : Nat) (t u : Tag) (x : Ctrl), s.live = true → s.dev.adminTakes ctx cid 8 t x = true →
    ((s.dev.began ctx cid).openTags fun u => decide (u.ctrl = t.ctrl ∧ u.qid = 0 ∧ sqeOpcode u.sqe = 8)).length ≤ 4 →
    (s.dev.began ctx cid).hostq.tags.find? (fun p => p.2.ctrl = t.ctrl && p.2.qid = sqeDw t.sqe 10 % 65536 &&
      p.2.cid = sqeDw t.sqe 10 / 65536) = some (key, u) → u.state = .running → u.qid ≠ 0 → u.forwarded = false →
    Settles (.abort (.host ctx cid)) s
      (let b := s.dev.began ctx cid
       let b := { b with rope := { b.rope with marks := (Tab.put b.rope.marks (u.ctrl * 2 ^ 32 + u.qid * 65536 + u.cid)
                  { made := s.dev.now, found := true }) } }
       (b.bump Reg.HOSTQ_ABORTS.WON).ends ctx cid success none)) ∧
  (∀ (s : State) (ctx cid key : Nat) (t u : Tag) (x : Ctrl), s.live = true → s.dev.adminTakes ctx cid 8 t x = true →
    ((s.dev.began ctx cid).openTags fun u => decide (u.ctrl = t.ctrl ∧ u.qid = 0 ∧ sqeOpcode u.sqe = 8)).length ≤ 4 →
    (s.dev.began ctx cid).hostq.tags.find? (fun p => p.2.ctrl = t.ctrl && p.2.qid = sqeDw t.sqe 10 % 65536 &&
      p.2.cid = sqeDw t.sqe 10 / 65536) = some (key, u) → u.state = .running → u.forwarded = true → u.abortBy = none →
    Settles (.abort (.host ctx cid)) s
      (let b := s.dev.began ctx cid
       Dev.modTag { b with hostq := { b.hostq with fwdMarks := b.hostq.fwdMarks ++ [(key, false)] } } key fun u =>
         { u with abortBy := some (ctx, cid) })) ∧
  (∀ (s : State) (ctx cid key : Nat) (t u : Tag) (x : Ctrl), s.live = true → s.dev.adminTakes ctx cid 8 t x = true →
    ((s.dev.began ctx cid).openTags fun u => decide (u.ctrl = t.ctrl ∧ u.qid = 0 ∧ sqeOpcode u.sqe = 8)).length ≤ 4 →
    (s.dev.began ctx cid).hostq.tags.find? (fun p => p.2.ctrl = t.ctrl && p.2.qid = sqeDw t.sqe 10 % 65536 &&
      p.2.cid = sqeDw t.sqe 10 / 65536) = some (key, u) → (u.state = .committed ∨ u.state = .completed) →
    Settles (.abort (.host ctx cid)) s
      (((s.dev.began ctx cid).bump Reg.HOSTQ_ABORTS.LOST).ends ctx cid { success with dw0 := 1 } none)) ∧
  (∀ (s : State) (ctx cid : Nat) (t : Tag) (x : Ctrl), s.live = true → s.dev.adminTakes ctx cid 8 t x = true →
    4 < ((s.dev.began ctx cid).openTags fun u => decide (u.ctrl = t.ctrl ∧ u.qid = 0 ∧ sqeOpcode u.sqe = 8)).length →
    Settles (.abort (.host ctx cid)) s ((s.dev.began ctx cid).ends ctx cid { sct := 1, sc := 3 } none)) ∧
  (∀ (s : State) (sqe : List Word), s.live = true → s.dev.mgmtTakes sqe 8 = true →
    Settles (.abort (.mgmt sqe)) s ((s.dev.bump Reg.HOSTQ_ABORTS.LOST).mgmtEnds { success with dw0 := 1 })) ∧
  (∀ (s : State) (ctx cid v : Nat) (data : List Byte) (t : Tag) (x : Ctrl), s.live = true →
    s.dev.adminTakes ctx cid 9 t x = true → bitOf (sqeDw t.sqe 10) 31 = false → v = sqeDw t.sqe 11 →
    Settles (.setFeatures (.host ctx cid) data) s
      (let b := s.dev.began ctx cid
       let fid := sqeDw t.sqe 10 % 256
       if fid = 2 then
         if 3 < v % 32 then b.ends ctx cid { sct := 0, sc := 2 } none
         else ((b.modCtrl t.ctrl fun x => { x with ps := v % 32, apstPs := none }).hostPs).ends ctx cid success none
       else if fid = 4 then
         if bitsOf v 19 16 ≠ 0 ∧ bitsOf v 19 16 ≠ 15 ∨ 1 < bitsOf v 21 20 then b.ends ctx cid { sct := 0, sc := 2 } none
         else (b.modCtrl t.ctrl fun x => if bitOf v 20 then { x with tempUnder := v % 65536 }
           else { x with temp := v % 65536 }).ends ctx cid success none
       else if (fid = 0x0C ∧ t.sglLen < 256) ∨ (fid = 0x81 ∧ t.sglLen < 16) then b.ends ctx cid { sct := 0, sc := 0x0F } none
       else if fid = 7 then
         if b.hostq.queues.any (fun q => decide (q.2.ctrl = t.ctrl ∧ q.2.qid ≠ 0)) then b.ends ctx cid { sct := 0, sc := 0x0C } none
         else if v % 65536 = 65535 ∨ v / 65536 = 65535 then b.ends ctx cid { sct := 0, sc := 2 } none
         else (b.modCtrl t.ctrl fun x => { x with nq := v }).ends ctx cid { success with dw0 := (x.maxq - 1) * 65537 } none
       else if fid = 0x0B then ((b.modCtrl t.ctrl fun x => { x with aec := v }).serveEvents t.ctrl).ends ctx cid success none
       else if fid = 0x0C then
         (b.modCtrl t.ctrl fun x => { x with apst := v % 2 + 2 * leNat (data.take 256), idleSince := s.dev.now }).ends ctx cid
           success none
       else if fid = 0x0F then
         let k := if v = 0 then 120000 else (v + 99) / 100 * 100
         if k < 1000 ∨ 3600000 < k then b.ends ctx cid { sct := 0, sc := 2 } none
         else (b.modCtrl t.ctrl fun x => { x with kato := k }).ends ctx cid success none
       else if fid = 0x81 then
         (b.modCtrl t.ctrl fun x => { x with fid81 := leNat (data.take 16) }).ends ctx cid success none
       else b.ends ctx cid { sct := 0, sc := 2 } none)) ∧
  (∀ (s : State) (ctx cid : Nat) (data : List Byte) (t : Tag) (x : Ctrl), s.live = true →
    s.dev.adminTakes ctx cid 9 t x = true → bitOf (sqeDw t.sqe 10) 31 = true →
    Settles (.setFeatures (.host ctx cid) data) s ((s.dev.began ctx cid).ends ctx cid { sct := 1, sc := 0x0D } none)) ∧
  (∀ (s : State) (sqe : List Word) (data : List Byte) (v : Nat), s.live = true → s.dev.mgmtTakes sqe 9 = true →
    bitOf (sqeDw (padWords 8 sqe) 10) 31 = false → sqeDw (padWords 8 sqe) 10 % 256 = 2 →
    v = sqeDw (padWords 8 sqe) 11 % 32 → v ≤ 3 →
    Settles (.setFeatures (.mgmt sqe) data) s
      ((Dev.hostPs { s.dev with hostq := { s.dev.hostq with mgmtPs := some v } }).mgmtEnds success)) ∧
  (∀ (s : State) (ctx cid f : Nat) (t : Tag) (x : Ctrl), s.live = true → s.dev.adminTakes ctx cid 0x0A t x = true →
    f = sqeDw t.sqe 10 % 256 → f ∈ [2, 4, 7, 0x0B, 0x0F] →
    Settles (.getFeatures (.host ctx cid)) s ((s.dev.began ctx cid).ends ctx cid
      { success with dw0 := (if f = 2 then x.ps
                             else if f = 4 then (if bitOf (sqeDw t.sqe 11) 20 then x.tempUnder else x.temp)
                             else if f = 7 then (x.maxq - 1) * 65537
                             else if f = 0x0B then x.aec else x.kato) } none)) ∧
  (∀ (s : State) (ctx cid f : Nat) (t : Tag) (x : Ctrl), s.live = true → s.dev.adminTakes ctx cid 0x0A t x = true →
    f = sqeDw t.sqe 10 % 256 → f ∉ [2, 4, 7, 0x0B, 0x0C, 0x0F, 0x81] →
    Settles (.getFeatures (.host ctx cid)) s ((s.dev.began ctx cid).ends ctx cid { sct := 0, sc := 2 } none)) ∧
  (∀ (s : State) (sqe : List Word), s.live = true → s.dev.mgmtTakes sqe 0x0A = true →
    sqeDw (padWords 8 sqe) 10 % 256 = 2 →
    Settles (.getFeatures (.mgmt sqe)) s (s.dev.mgmtEnds { success with dw0 := s.dev.fget Reg.CAMP_PS.REQ })) ∧
  (∀ (s : State) (ctx cid : Nat) (t : Tag) (x : Ctrl), s.live = true → s.dev.adminTakes ctx cid 0x0C t x = true →
    x.aers.length < 4 → x.events.find? (fun e => bitOf x.aec (aecBit e)) = none →
    Settles (.asynchronousEventRequest (.host ctx cid)) s
      (((s.dev.began ctx cid).modTag (tagKey ctx cid) fun t => { t with held := true }).modCtrl t.ctrl fun x =>
        { x with aers := x.aers ++ [cid] })) ∧
  (∀ (s : State) (ctx cid : Nat) (t : Tag) (x : Ctrl) (e : AsyncEv), s.live = true →
    s.dev.adminTakes ctx cid 0x0C t x = true →
    x.aers = [] → x.events.find? (fun e => bitOf x.aec (aecBit e)) = some e → x.adminCtx = ctx →
    Settles (.asynchronousEventRequest (.host ctx cid)) s
      (((((s.dev.began ctx cid).modTag (tagKey ctx cid) fun t => { t with held := true }).modCtrl t.ctrl fun x =>
        { x with aers := x.aers ++ [cid] }).modCtrl t.ctrl fun x => { x with aers := [], events := x.events.erase e }).hostDone
        (tagKey ctx cid) { success with dw0 := e.typ + e.info * 256 + e.page * 65536 })) ∧
  (∀ (s : State) (ctx cid : Nat) (t : Tag) (x : Ctrl), s.live = true → s.dev.adminTakes ctx cid 0x0C t x = true →
    4 ≤ x.aers.length →
    Settles (.asynchronousEventRequest (.host ctx cid)) s ((s.dev.began ctx cid).ends ctx cid { sct := 1, sc := 5 } none)) ∧
  (∀ (s : State) (sqe : List Word), s.live = true → s.dev.mgmtTakes sqe 0x0C = true →
    Settles (.asynchronousEventRequest (.mgmt sqe)) s (s.dev.mgmtEnds { sct := 0, sc := 1 })) ∧
  (∀ (s : State) (ctx cid : Nat) (e : Bool) (t : Tag) (x : Ctrl), s.live = true → s.dev.adminTakes ctx cid 0x14 t x = true →
    sqeDw t.sqe 10 % 16 = (if e then 2 else 1) → (sqeNsid t.sqe = 0 ∨ sqeNsid t.sqe = 0xFFFFFFFF) →
    s.dev.hostq.selfTest = none →
    Settles (if e then .deviceSelfTestExtended (.host ctx cid) else .deviceSelfTestShort (.host ctx cid)) s
      (Dev.ends { s.dev.began ctx cid with hostq := { (s.dev.began ctx cid).hostq with
        selfTest := some { ctrl := t.ctrl, extended := e
                           nss := (if sqeNsid t.sqe = 0 then []
                             else (s.dev.hostq.nss.filter fun p => x.sees p.2).map (·.1)) } } } ctx cid success none)) ∧
  (∀ (s : State) (ctx cid : Nat) (e : Bool) (t : Tag) (x : Ctrl), s.live = true → s.dev.adminTakes ctx cid 0x14 t x = true →
    sqeDw t.sqe 10 % 16 = (if e then 2 else 1) → sqeNsid t.sqe = 0 → s.dev.hostq.selfTest.isSome = true →
    Settles (if e then .deviceSelfTestExtended (.host ctx cid) else .deviceSelfTestShort (.host ctx cid)) s
      ((s.dev.began ctx cid).ends ctx cid { sct := 1, sc := 0x1D, dnr := false } none)) ∧
  (∀ (s : State) (sqe : List Word) (e : Bool), s.live = true → s.dev.mgmtTakes sqe 0x14 = true →
    sqeDw (padWords 8 sqe) 10 % 16 = (if e then 2 else 1) → sqeNsid (padWords 8 sqe) = 0 → s.dev.hostq.selfTest = none →
    Settles (if e then .deviceSelfTestExtended (.mgmt sqe) else .deviceSelfTestShort (.mgmt sqe)) s
      (Dev.mgmtEnds { s.dev with hostq := { s.dev.hostq with selfTest := some { ctrl := 0xFFFF, extended := e } } } success)) ∧
  (∀ (s : State) (ctx cid k : Nat) (c : Instr) (t : Tag) (x : Ctrl), s.live = true →
    c ∈ [Instr.deviceSelfTestShort (.host ctx cid), .deviceSelfTestExtended (.host ctx cid), .deviceSelfTestAbort (.host ctx cid)] →
    s.dev.adminTakes ctx cid 0x14 t x = true → k = sqeDw t.sqe 10 % 16 → k ∉ [1, 2, 15] →
    Settles c s ((s.dev.began ctx cid).ends ctx cid { sct := 0, sc := 2 } none)) ∧
  (∀ (s : State) (ctx cid : Nat) (t : Tag) (x : Ctrl), s.live = true → s.dev.adminTakes ctx cid 0x14 t x = true →
    sqeDw t.sqe 10 % 16 = 15 →
    Settles (.deviceSelfTestAbort (.host ctx cid)) s (((s.dev.began ctx cid).endSelfTest 1 0).ends ctx cid success none)) ∧
  (∀ (s : State) (failed : Nat) (x : SelfTest), s.live = true → s.dev.hostq.selfTest = some x →
    Acts (.selfTestEnd failed) s fun d => d.hostq.selfTest = none ∧
      d.hostq.stLog.head? = some { code := (if x.extended then 2 else 1)
                                   result := (if failed = 0 ∧ s.dev.selfTestLinks = true then 0 else 7)
                                   segment := (if failed ≠ 1 ∧ s.dev.selfTestLinks = false then 2 else failed) }) ∧
  (∀ (s : State) (failed : Nat), s.live = true → s.dev.hostq.selfTest = none → Settles (.selfTestEnd failed) s s.dev) ∧
  (∀ (s : State) (ctx cid : Nat) (t : Tag) (x : Ctrl), s.live = true → s.dev.adminTakes ctx cid 0x18 t x = true →
    Settles (.keepAlive (.host ctx cid)) s
      (((s.dev.began ctx cid).modCtrl t.ctrl fun x => { x with katoLast := s.dev.now }).ends ctx cid success none)) ∧
  (∀ (s : State) (sqe : List Word), s.live = true → s.dev.mgmtTakes sqe 0x18 = true →
    Settles (.keepAlive (.mgmt sqe)) s (s.dev.mgmtEnds success)) ∧
  (∀ (s : State) (ctx cid h : Nat) (t : Tag) (x : Ctrl) (n : Ns), s.live = true → s.dev.adminTakes ctx cid 0x80 t x = true →
    s.dev.hostq.nss = [(h, n)] → n.nsid = sqeNsid t.sqe → x.sees n = true → sqeNsid t.sqe ≠ 0xFFFFFFFF →
    s.dev.anaFails n.anagrp = none → s.dev.ownsGroup n.anagrp = true → sqeDw t.sqe 10 = 0 → s.dev.rope.locks = [] →
    Acts (.formatNvm (.host ctx cid)) s fun d => d.map.entries.all (fun p => decide (p.1 / 2 ^ 40 ≠ h)) = true ∧
      Tab.look d.map.clearSeq h = some s.dev.map.seq ∧ ∃ n', Tab.look d.hostq.nss h = some n' ∧ n'.formatting = false) ∧
  (∀ (s : State) (ctx cid h ses : Nat) (t : Tag) (x : Ctrl) (n : Ns), s.live = true →
    s.dev.adminTakes ctx cid 0x80 t x = true → sqeNsid t.sqe ≠ 0xFFFFFFFF →
    (s.dev.hostq.nss.filter fun p => x.sees p.2).find? (fun p => p.2.nsid = sqeNsid t.sqe) = some (h, n) →
    sqeDw t.sqe 10 % 256 = 0 → ses = bitsOf (sqeDw t.sqe 10) 11 9 → ses ≤ 2 → s.dev.anaFails n.anagrp = none →
    s.dev.ownsGroup n.anagrp = true →
    Settles (.formatNvm (.host ctx cid)) s
      (let r := Dev.nswide ((s.dev.began ctx cid).modNs h fun n => { n with formatting := true }) (.host ctx cid) [h]
       let w := if ses = 0 then r.2.nsClear h else r.2.cryptoErase h
       if r.1 then (((w.modNs h fun n => { n with formatting := false }).nsChanged n).nswideEnd (.host ctx cid)).ends ctx cid
         success none
       else r.2)) ∧
  (∀ (s : State) (ctx cid h : Nat) (t : Tag) (x : Ctrl) (n : Ns), s.live = true → s.dev.adminTakes ctx cid 0x80 t x = true →
    sqeNsid t.sqe ≠ 0xFFFFFFFF →
    (s.dev.hostq.nss.filter fun p => x.sees p.2).find? (fun p => p.2.nsid = sqeNsid t.sqe) = some (h, n) →
    (sqeDw t.sqe 10 % 256 ≠ 0 ∨ 2 < bitsOf (sqeDw t.sqe 10) 11 9) →
    Settles (.formatNvm (.host ctx cid)) s ((s.dev.began ctx cid).ends ctx cid
      (if sqeDw t.sqe 10 % 256 ≠ 0 then { sct := 1, sc := 0x0A } else { sct := 0, sc := 2 }) none)) ∧
  (∀ (s : State) (ctx cid h : Nat) (t : Tag) (x : Ctrl) (n : Ns), s.live = true → s.dev.adminTakes ctx cid 0x80 t x = true →
    sqeNsid t.sqe ≠ 0xFFFFFFFF →
    (s.dev.hostq.nss.filter fun p => x.sees p.2).find? (fun p => p.2.nsid = sqeNsid t.sqe) = some (h, n) →
    sqeDw t.sqe 10 % 256 = 0 → bitsOf (sqeDw t.sqe 10) 11 9 ≤ 2 → s.dev.anaFails n.anagrp = none →
    s.dev.ownsGroup n.anagrp = false →
    Settles (.formatNvm (.host ctx cid)) s
      (let b := s.dev.began ctx cid
       Dev.modTag { b with hostq := { b.hostq with fwdOut := b.hostq.fwdOut ++ [tagKey ctx cid] } } (tagKey ctx cid) fun t =>
         { t with forwarded := true })) ∧
  (∀ (s : State) (ctx cid : Nat) (t : Tag) (x : Ctrl), s.live = true → s.dev.adminTakes ctx cid 0x80 t x = true →
    sqeNsid t.sqe = 0xFFFFFFFF →
    Settles (.formatNvm (.host ctx cid)) s ((s.dev.began ctx cid).ends ctx cid { sct := 0, sc := 0x0B } none)) ∧
  (∀ (s : State) (sqe : List Word) (off : Nat) (data : List Byte), s.live = true → s.dev.on 0x10 = true →
    sqeOpcode sqe = 0x11 → s.dev.sanitizing = false →
    Acts (.firmwareImageDownload (.mgmt sqe) off data) s fun d => d.hostq.mgmtCqe = some success ∧
      (d.hostq.fw.buffer.drop (4 * off)).take data.length = data ∧
      d.hostq.fw.buffer.take (4 * off) =
        (s.dev.hostq.fw.buffer ++ List.replicate (4 * off - s.dev.hostq.fw.buffer.length) 0).take (4 * off) ∧
      d = { s.dev with hostq := d.hostq }) ∧
  (∀ (s : State) (sqe : List Word) (n : Nat), s.live = true → s.dev.on 0x10 = true → sqeOpcode sqe = 0x10 →
    s.dev.sanitizing = false → n = bitsOf (sqeDw (padWords 8 sqe) 10) 2 0 → 1 ≤ n → n ≤ 2 →
    bitsOf (sqeDw (padWords 8 sqe) 10) 5 3 = 2 → (Tab.look s.dev.hostq.fw.slots n).isSome = true →
    Acts (.firmwareCommit (.mgmt sqe)) s fun d => d.hostq.fw = { s.dev.hostq.fw with nextReset := some n } ∧
      d.hostq.mgmtCqe = some success) ∧
  (∀ (s : State) (sqe : List Word) (n act : Nat), s.live = true → s.dev.on 0x10 = true →
    sqeOpcode sqe = 0x10 → s.dev.sanitizing = false → n = bitsOf (sqeDw (padWords 8 sqe) 10) 2 0 → 1 ≤ n → n ≤ 2 →
    act = bitsOf (sqeDw (padWords 8 sqe) 10) 5 3 → act ∈ [0, 1, 3] →
    Acts (.firmwareCommit (.mgmt sqe)) s fun d => match Config.bundleParts s.dev.hostq.fw.buffer with
      | none => d = s.dev.mgmtEnds { sct := 1, sc := 7, dw0 := 0x1324 }
      | some (p, w) => match s.dev.bundleBad p w with
        | some r => d = s.dev.mgmtEnds { sct := 1, sc := 7, dw0 := r }
        | none => (act = 3 → (measureOf w).shake ≠ s.dev.measure 3) →
          Tab.look d.hostq.fw.slots n = some { program := p, warden := w } ∧
            d.hostq.fw.nextReset = (if act = 0 then s.dev.hostq.fw.nextReset else some n) ∧
            d.hostq.mgmtCqe = some (if act = 3 then { sct := 1, sc := 0x10 } else success)) ∧
  (∀ (s : State) (sqe : List Word), s.live = true → s.dev.on 0x10 = true → sqeOpcode sqe = 0x10 →
    s.dev.sanitizing = false → (2 < bitsOf (sqeDw (padWords 8 sqe) 10) 2 0 ∨ 3 < bitsOf (sqeDw (padWords 8 sqe) 10) 5 3) →
    Settles (.firmwareCommit (.mgmt sqe)) s (s.dev.mgmtEnds
      (if 2 < bitsOf (sqeDw (padWords 8 sqe) 10) 2 0 then { sct := 1, sc := 6 } else { sct := 0, sc := 2 }))) ∧
  (∀ (s : State) (sqe : List Word), s.live = true → s.dev.on 0x10 = true → sqeOpcode sqe = 0x84 →
    s.dev.sanitizing = false → sqeDw (padWords 8 sqe) 10 % 8 = 4 → s.dev.hostq.nss = [] →
    s.dev.rope.locks = [] →
    Acts (.sanitizeCryptoErase (.mgmt sqe)) s fun d => d.hostq.mgmtCqe = some success ∧
      d.hostq.sanitize = some { action := 4, running := false } ∧ d.hostq.sanTell = some 4 ∧
      ∀ p ∈ s.dev.cipher.data, (d.dslot p.1).cur = none) ∧
  (∀ (s : State) (sqe : List Word), s.live = true → s.dev.on 0x10 = true → sqeOpcode sqe = 0x84 →
    s.dev.sanitizing = false → sqeDw (padWords 8 sqe) 10 % 8 = 2 → s.dev.hostq.nss = [] → s.dev.rope.locks = [] →
    Acts (.sanitizeBlockErase (.mgmt sqe)) s fun d => d.hostq.mgmtCqe = some success ∧ d.stripe.stripes = [] ∧
      d.stripe.streams = [] ∧ (∀ n b, Tab.look d.stripe.bands n = some b → b.state ∉ [BState.opened, .closed]) ∧
      d.hostq.sanTell = some 2 ∧ ∃ z, d.hostq.sanitize = some z ∧ z.action = 2 ∧
        z.running = (d.stripe.bands.any fun b => decide (b.2.state ∈ [BState.victim, .erasing]))) ∧
  (∀ (s : State) (sqe : List Word), s.live = true → s.dev.mgmtTakes sqe 0x84 = true →
    sqeDw (padWords 8 sqe) 10 % 8 = 4 →
    Settles (.sanitizeCryptoErase (.mgmt sqe)) s
      (let r := s.dev.nswide (.mgmt sqe) (s.dev.hostq.nss.map (·.1))
       let w := r.2.sanCrypto
       if r.1 then (Dev.nswideEnd { w with hostq := { w.hostq with sanTell := some 4 } } (.mgmt sqe)).mgmtEnds success
       else r.2)) ∧
  (∀ (s : State) (sqe : List Word), s.live = true → s.dev.mgmtTakes sqe 0x84 = true →
    sqeDw (padWords 8 sqe) 10 % 8 = 2 →
    Settles (.sanitizeBlockErase (.mgmt sqe)) s
      (let r := s.dev.nswide (.mgmt sqe) (s.dev.hostq.nss.map (·.1))
       let w := r.2.sanBlock
       if r.1 then (Dev.nswideEnd { w with hostq := { w.hostq with sanTell := some 2 } } (.mgmt sqe)).mgmtEnds success
       else r.2)) ∧
  (∀ (s : State) (sqe : List Word) (c : Instr), s.live = true → s.dev.mgmtTakes sqe 0x84 = true →
    c ∈ [Instr.sanitizeCryptoErase (.mgmt sqe), .sanitizeBlockErase (.mgmt sqe)] → sqeDw (padWords 8 sqe) 10 % 8 ∉ [2, 4] →
    Settles c s (s.dev.mgmtEnds { sct := 0, sc := 2 }))

/-- The I/O commands (R137, R142, R149 to R151, R153, R163, R216). A read, a write or a write of zeroes whose range and data
fit is Running with its range known, and so is a Dataset Management that deallocates; one that does not fit, whose namespace
is not there, not ready or on a failing path, or that a sanitize keeps out, completes with its status, and a Dataset
Management that deallocates nothing completes at once. A Flush takes the next rope number and an entry of each of its
namespaces that this unit serves, waits for their earlier writes, and goes to the partner too when it names every namespace
and the partner owns some; it completes when none of those writes is held. Any other command than the one its row names, one
already decoded, and one of a group being handed over, changes nothing. The order of the checks is log 25's. -/
def Obligations.NvmeIo : Prop :=
  (∀ (s : State) (ctx cid h op : Nat) (c : Instr) (t : Tag) (x : Ctrl) (n : Ns), s.live = true →
    (c, op) ∈ [(Instr.write ctx cid, 1), (.read ctx cid, 2)] → s.dev.ioTakes ctx cid op t x h n = true →
    sqeNlb t.sqe ≤ 255 → sqeSlba t.sqe + sqeNlb t.sqe < n.nsze → (sqeNlb t.sqe + 1) * 4096 ≤ t.sglLen →
    n.formatting = false → (op = 1 → s.dev.dstate n.keySlot ≠ 0 ∧ s.dev.dstate n.keySlot ≠ 3) →
    Settles c s ((s.dev.ioBegan ctx cid t.qid).modTag (tagKey ctx cid) fun t =>
      { t with nsh := h, slba := (sqeSlba t.sqe), nblk := (sqeNlb t.sqe + 1) })) ∧
  (∀ (s : State) (ctx cid h : Nat) (t : Tag) (x : Ctrl) (n : Ns), s.live = true → s.dev.ioTakes ctx cid 8 t x h n = true →
    sqeSlba t.sqe + sqeNlb t.sqe < n.nsze → n.formatting = false → s.dev.dstate n.keySlot ≠ 0 → s.dev.dstate n.keySlot ≠ 3 →
    Settles (.writeZeroes ctx cid) s ((s.dev.ioBegan ctx cid t.qid).modTag (tagKey ctx cid) fun t =>
      { t with nsh := h, slba := (sqeSlba t.sqe), nblk := (sqeNlb t.sqe + 1) })) ∧
  (∀ (s : State) (ctx cid h op : Nat) (c : Instr) (t : Tag) (x : Ctrl) (n : Ns), s.live = true →
    (c, op) ∈ [(Instr.write ctx cid, 1), (.read ctx cid, 2), (.writeZeroes ctx cid, 8)] →
    s.dev.ioTakes ctx cid op t x h n = true →
    Settles c s (if op ≠ 8 ∧ 255 < sqeNlb t.sqe then
        (s.dev.ioBegan ctx cid t.qid).hostDone (tagKey ctx cid) { sct := 0, sc := 2 }
      else if n.nsze ≤ sqeSlba t.sqe + sqeNlb t.sqe then
        (s.dev.ioBegan ctx cid t.qid).hostDone (tagKey ctx cid) { sct := 0, sc := 0x80 }
      else if op ≠ 8 ∧ t.sglLen < (sqeNlb t.sqe + 1) * 4096 then
        (s.dev.ioBegan ctx cid t.qid).hostDone (tagKey ctx cid) { sct := 0, sc := 0x0F }
      else if n.formatting = true ∨ (op ≠ 2 ∧ (s.dev.dstate n.keySlot = 0 ∨ s.dev.dstate n.keySlot = 3)) then
        (s.dev.ioBegan ctx cid t.qid).hostDone (tagKey ctx cid) { sct := 0, sc := 0x82, dnr := false, crd := 1 }
      else (s.dev.ioBegan ctx cid t.qid).modTag (tagKey ctx cid) fun t =>
        { t with nsh := h, slba := (sqeSlba t.sqe), nblk := (sqeNlb t.sqe + 1) })) ∧
  (∀ (s : State) (ctx cid h : Nat) (t : Tag) (x : Ctrl) (n : Ns) (ranges rs : List (Nat × Nat)), s.live = true →
    s.dev.ioTakes ctx cid 9 t x h n = true → 16 * (sqeDw t.sqe 10 % 256 + 1) ≤ t.sglLen →
    rs = (ranges.take (sqeDw t.sqe 10 % 256 + 1)).filter (fun r => decide (0 < r.2)) → rs ≠ [] →
    rs.all (fun r => decide (r.1 + r.2 ≤ n.nsze)) = true → n.formatting = false → bitOf (sqeDw t.sqe 11) 2 = true →
    Settles (.datasetManagement ctx cid ranges) s ((s.dev.ioBegan ctx cid t.qid).modTag (tagKey ctx cid) fun t =>
      { t with nsh := h, slba := (rs.headD (0, 0)).1, nblk := ((rs.map (·.2)).foldl (· + ·) 0) })) ∧
  (∀ (s : State) (ctx cid h : Nat) (t : Tag) (x : Ctrl) (n : Ns) (ranges rs : List (Nat × Nat)), s.live = true →
    s.dev.ioTakes ctx cid 9 t x h n = true →
    rs = (ranges.take (sqeDw t.sqe 10 % 256 + 1)).filter (fun r => decide (0 < r.2)) →
    (bitOf (sqeDw t.sqe 11) 2 = false ∨ rs = [] ∨ n.formatting = true ∨ rs.all (fun r => decide (r.1 + r.2 ≤ n.nsze)) = false ∨
      t.sglLen < 16 * (sqeDw t.sqe 10 % 256 + 1)) →
    Settles (.datasetManagement ctx cid ranges) s ((s.dev.ioBegan ctx cid t.qid).hostDone (tagKey ctx cid)
      (if t.sglLen < 16 * (sqeDw t.sqe 10 % 256 + 1) then { sct := 0, sc := 0x0F }
       else if rs.all (fun r => decide (r.1 + r.2 ≤ n.nsze)) = false then { sct := 0, sc := 0x80 }
       else if n.formatting then { sct := 0, sc := 0x82, dnr := false, crd := 1 } else success))) ∧
  (∀ (s : State) (ctx cid op : Nat) (ranges : List (Nat × Nat)) (c : Instr) (t : Tag) (x : Ctrl), s.live = true →
    (c, op) ∈ [(Instr.write ctx cid, 1), (.read ctx cid, 2), (.writeZeroes ctx cid, 8), (.flush ctx cid, 0),
      (.datasetManagement ctx cid ranges, 9)] →
    s.dev.ioOpen ctx cid op t x = true →
    (s.dev.sanitizing = true ∨ ((op ≠ 0 ∨ sqeNsid t.sqe ≠ 0xFFFFFFFF) ∧ s.dev.nsFor x (sqeNsid t.sqe) = none)) →
    Settles c s ((s.dev.ioBegan ctx cid t.qid).hostDone (tagKey ctx cid)
      (if s.dev.sanitizing then { sct := 0, sc := 0x1D, dnr := false } else { sct := 0, sc := 0x0B }))) ∧
  (∀ (s : State) (ctx cid op h : Nat) (ranges : List (Nat × Nat)) (c : Instr) (t : Tag) (x : Ctrl) (n : Ns) (e : Cqe),
    s.live = true →
    (c, op) ∈ [(Instr.write ctx cid, 1), (.read ctx cid, 2), (.writeZeroes ctx cid, 8), (.flush ctx cid, 0),
      (.datasetManagement ctx cid ranges, 9)] →
    s.dev.ioOpen ctx cid op t x = true → s.dev.sanitizing = false → s.dev.nsFor x (sqeNsid t.sqe) = some (h, n) →
    s.dev.anaFails n.anagrp = some e → Settles c s ((s.dev.ioBegan ctx cid t.qid).hostDone (tagKey ctx cid) e)) ∧
  (∀ (d : Dev) (g : Nat), d.anaFails g = (match d.anaState g with
    | .inaccessible => some { sct := 3, sc := 2, dnr := false }
    | .persistentLoss => some { sct := 3, sc := 1 }
    | .change => some { sct := 3, sc := 3, dnr := false }
    | .optimized => none
    | .nonOptimized => none)) ∧
  (∀ (s : State) (ctx cid op : Nat) (ranges : List (Nat × Nat)) (c : Instr), s.live = true →
    (c, op) ∈ [(Instr.write ctx cid, 1), (.read ctx cid, 2), (.writeZeroes ctx cid, 8), (.flush ctx cid, 0),
      (.datasetManagement ctx cid ranges, 9)] →
    ((s.dev.tag (tagKey ctx cid)).any fun t => decide (t.qid ≠ 0 ∧ sqeOpcode t.sqe = op) && !t.checked &&
      decide (t.state = .queued ∨ t.state = .running) && !s.dev.handing t) = false → Settles c s s.dev) ∧
  (∀ (s : State) (ctx cid r : Nat) (t : Tag) (x : Ctrl) (nss : List Nat) (far : Bool), s.live = true →
    s.dev.ioOpen ctx cid 0 t x = true → s.dev.sanitizing = false →
    (sqeNsid t.sqe = 0xFFFFFFFF ∨ (s.dev.nsFor x (sqeNsid t.sqe)).isSome = true) →
    ((s.dev.nsFor x (sqeNsid t.sqe)).bind fun p => s.dev.anaFails p.2.anagrp) = none → t.rope = 0 →
    s.dev.rope.locks.all (fun p => decide (tagKey p.2.ctx p.2.cmdref ≠ tagKey ctx cid)) = true →
    r = s.dev.fget Reg.ROPE_NEXT.ROPE → 0 < r → nss = (s.dev.flushNss x (sqeNsid t.sqe)).1 →
    far = (decide (sqeNsid t.sqe = 0xFFFFFFFF) && (s.dev.flushNss x (sqeNsid t.sqe)).2 && t.remote.isNone) →
    Acts (.flush ctx cid) s fun d => d.fget Reg.ROPE_NEXT.ROPE = (r + 1) % 2 ^ 64 ∧
      (∃ t', d.tag (tagKey ctx cid) = some t' ∧ t'.state = .committed ∧ t'.rope = r ∧ t'.nsh = nss.headD 0 ∧ t'.far = far) ∧
      d.hostq.fwdOut = s.dev.hostq.fwdOut ++ (if far then [tagKey ctx cid] else []) ∧
      (∀ g ∈ nss, ∃ p ∈ d.rope.locks, p.2.kind = .flush ∧ p.2.nsh = g ∧ p.2.rope = r ∧ p.2.ctx = ctx) ∧
      ∃ ws, Tab.look d.hostq.flushes (tagKey ctx cid) = some ws ∧ ∀ k, k ∈ ws ↔
        ∃ u, (k, u) ∈ (s.dev.ioBegan ctx cid t.qid).hostq.tags ∧ u.writes = true ∧ u.state = .committed ∧ u.rope < r ∧
          u.nsh ∈ nss) ∧
  (∀ (s : State) (ctx cid : Nat) (ks : List Nat), s.live = true →
    Tab.look s.dev.hostq.flushes (tagKey ctx cid) = some ks →
    ks.all (fun k => (s.dev.tag k).all fun u => decide (u.state ≠ .committed)) = true →
    (s.dev.tag (tagKey ctx cid)).any (·.far) = false →
    Settles (.flushComplete ctx cid) s (s.dev.hostDone (tagKey ctx cid) success)) ∧
  (∀ (s : State) (ctx cid : Nat), s.live = true →
    ((Tab.look s.dev.hostq.flushes (tagKey ctx cid)).any fun ks => ks.all fun k => (s.dev.tag k).all fun u =>
      decide (u.state ≠ .committed)) = false ∨ (s.dev.tag (tagKey ctx cid)).any (·.far) = true →
    Settles (.flushComplete ctx cid) s s.dev)

/-- Namespaces (R137 to R140, R165): the management path creates a namespace whose checks pass under the lowest free NSID,
with its entry in DRAM, deletes one with its map, and attaches and detaches; a command that fails its checks completes with
their status. An entry update takes the table's entry when its checks pass, drops one that is not VALID, and shows their
result otherwise. Which of two results a zero field has is log 99's choice; a create whose handle is in use, which HOSTQ
never gives, does nothing. -/
def Obligations.NvmeNamespaces : Prop :=
  (∀ (s : State) (sqe : List Word) (subsys h : Nat) (c : NsCreate), s.live = true → s.dev.mgmtTakes sqe 0x0D = true →
    sqeDw (padWords 8 sqe) 10 % 16 = 0 → s.dev.createCheck c = none → s.dev.hostq.nss = [] → h ≤ 16383 →
    Acts (.namespaceManagement (.mgmt sqe) (.create subsys h c)) s fun d =>
      Tab.look d.hostq.nss h = some { nsid := 1, subsys := subsys, tenant := c.tenant, nsze := c.nsze, grade := c.grade
                                      anagrp := c.anagrp, attached := false, pinned := (decide (c.flags % 2 = 1))
                                      keySlot := c.keySlot } ∧
      d.mem.dram.read (s.dev.nsAddr h) 4 = 1 ∧ d.mem.dram.read (s.dev.nsAddr h + 8) 8 = c.nsze % 2 ^ 64 ∧
      d.hostq.mgmtCqe = some { success with dw0 := 1 }) ∧
  (∀ (s : State) (sqe : List Word) (subsys h : Nat) (c : NsCreate), s.live = true → s.dev.mgmtTakes sqe 0x0D = true →
    sqeDw (padWords 8 sqe) 10 % 16 = 0 → s.dev.createCheck c = none → Tab.look s.dev.hostq.nss h = none → h ≤ 16383 →
    Acts (.namespaceManagement (.mgmt sqe) (.create subsys h c)) s fun d => ∃ n, 1 ≤ n.nsid ∧
      d.hostq.nss = Tab.put s.dev.hostq.nss h n ∧
      s.dev.hostq.nss.all (fun p => decide (p.2.subsys ≠ subsys ∨ p.2.nsid ≠ n.nsid)) = true ∧
      n = { nsid := n.nsid, subsys := subsys, tenant := c.tenant, nsze := c.nsze, grade := c.grade, anagrp := c.anagrp
            attached := false, pinned := (decide (c.flags % 2 = 1)), keySlot := c.keySlot } ∧
      d.hostq.mgmtCqe = some { success with dw0 := n.nsid }) ∧
  (∀ (s : State) (sqe : List Word) (subsys h : Nat) (c : NsCreate) (e : Cqe), s.live = true →
    s.dev.mgmtTakes sqe 0x0D = true → sqeDw (padWords 8 sqe) 10 % 16 = 0 → s.dev.createCheck c = some e →
    Settles (.namespaceManagement (.mgmt sqe) (.create subsys h c)) s (s.dev.mgmtEnds e)) ∧
  (∀ (s : State) (sqe : List Word) (subsys h : Nat) (c : NsCreate), s.live = true → s.dev.mgmtTakes sqe 0x0D = true →
    sqeDw (padWords 8 sqe) 10 % 16 = 0 → s.dev.createCheck c = none →
    ((Tab.look s.dev.hostq.nss h).isSome = true ∨ 16383 < h) →
    Settles (.namespaceManagement (.mgmt sqe) (.create subsys h c)) s s.dev) ∧
  (∀ (d : Dev) (c : NsCreate), (c.tenant = 0 → d.createCheck c = some { sct := 0, sc := 2 }) ∧
    (d.createCheck c = none → 1 ≤ c.grade ∧ c.grade ≤ 4 ∧ 0 < c.nsze ∧ c.ncap = c.nsze ∧ 1 ≤ c.anagrp ∧ c.anagrp ≤ 64 ∧
      (c.grade = 1 → c.flags = 1) ∧ d.hostq.nss.length < 16384 ∧ d.overCapacity c.anagrp c.nsze = false ∧
      (c.flags = 1 → d.overPins c.anagrp (d.pinCharge c.nsze) = false)) ∧
    (1 ≤ c.tenant → c.tenant ≤ 4095 → 1 ≤ c.grade → c.grade ≤ 4 → c.flags = 0 → c.reserved = 0 → c.keySlot ≤ 16383 →
      0 < c.nsze → c.ncap = c.nsze → 1 ≤ c.anagrp → c.anagrp ≤ 64 → d.hostq.nss.length < 16384 → c.grade ≠ 1 →
      d.createCheck c = if d.overCapacity c.anagrp c.nsze then some { sct := 1, sc := 0x15 } else none)) ∧
  (∀ (s : State) (sqe : List Word) (h : Nat) (n : Ns), s.live = true → s.dev.mgmtTakes sqe 0x0D = true →
    sqeDw (padWords 8 sqe) 10 % 16 = 1 → Tab.look s.dev.hostq.nss h = some n → n.attached = false →
    Acts (.namespaceManagement (.mgmt sqe) (.delete h)) s fun d => d.hostq.nss = Tab.del s.dev.hostq.nss h ∧
      (∀ p ∈ d.map.entries, p.1 / 2 ^ 40 ≠ h) ∧ d.mem.dram.read (s.dev.nsAddr h) 8 = 0 ∧ d.hostq.mgmtCqe = some success) ∧
  (∀ (s : State) (sqe : List Word) (h : Nat) (n : Ns), s.live = true → s.dev.mgmtTakes sqe 0x0D = true →
    sqeDw (padWords 8 sqe) 10 % 16 = 1 → Tab.look s.dev.hostq.nss h = some n → n.attached = true →
    Acts (.namespaceManagement (.mgmt sqe) (.delete h)) s fun d => d.hostq.nss = Tab.del s.dev.hostq.nss h ∧
      (∀ p ∈ d.map.entries, p.1 / 2 ^ 40 ≠ h) ∧ d.hostq.mgmtCqe = some success) ∧
  (∀ (s : State) (sqe : List Word) (h : Nat), s.live = true → s.dev.mgmtTakes sqe 0x0D = true →
    sqeDw (padWords 8 sqe) 10 % 16 = 1 → Tab.look s.dev.hostq.nss h = none →
    Settles (.namespaceManagement (.mgmt sqe) (.delete h)) s (s.dev.mgmtEnds { sct := 0, sc := 0x0B })) ∧
  (∀ (s : State) (sqe : List Word) (m : NsCmd), s.live = true → s.dev.mgmtTakes sqe 0x0D = true →
    2 ≤ sqeDw (padWords 8 sqe) 10 % 16 →
    Settles (.namespaceManagement (.mgmt sqe) m) s (s.dev.mgmtEnds { sct := 0, sc := 2 })) ∧
  (∀ (s : State) (sqe : List Word) (h : Nat) (ks : List Nat) (attach : Bool) (n : Ns), s.live = true →
    s.dev.mgmtTakes sqe 0x15 = true → Tab.look s.dev.hostq.nss h = some n → n.attached = !attach → ks ≠ [] →
    ks.all (fun k => (s.dev.ctrl k).any fun x => x.subsys = n.subsys && x.tenant = n.tenant) = true →
    Acts (.namespaceAttachment (.mgmt sqe) h attach ks) s fun d =>
      d.hostq.nss = Tab.put s.dev.hostq.nss h { n with attached := attach } ∧ d.hostq.mgmtCqe = some success) ∧
  (∀ (s : State) (sqe : List Word) (h : Nat) (ks : List Nat) (attach : Bool) (n : Ns), s.live = true →
    s.dev.mgmtTakes sqe 0x15 = true → Tab.look s.dev.hostq.nss h = some n →
    (ks = [] ∨ ks.all (fun k => (s.dev.ctrl k).any fun x => x.subsys = n.subsys && x.tenant = n.tenant) = false) →
    Settles (.namespaceAttachment (.mgmt sqe) h attach ks) s (s.dev.mgmtEnds { sct := 1, sc := 0x1C })) ∧
  (∀ (s : State) (sqe : List Word) (h : Nat) (ks : List Nat) (attach : Bool) (n : Ns), s.live = true →
    s.dev.mgmtTakes sqe 0x15 = true → Tab.look s.dev.hostq.nss h = some n → n.attached = attach → ks ≠ [] →
    ks.all (fun k => (s.dev.ctrl k).any fun x => x.subsys = n.subsys && x.tenant = n.tenant) = true →
    Settles (.namespaceAttachment (.mgmt sqe) h attach ks) s
      (s.dev.mgmtEnds { sct := 1, sc := (if attach then 0x18 else 0x1A) })) ∧
  (∀ (s : State) (sqe : List Word) (h : Nat) (ks : List Nat) (attach : Bool), s.live = true →
    s.dev.mgmtTakes sqe 0x15 = true → Tab.look s.dev.hostq.nss h = none →
    Settles (.namespaceAttachment (.mgmt sqe) h attach ks) s (s.dev.mgmtEnds { sct := 0, sc := 0x0B })) ∧
  (∀ (s : State) (h : Nat) (n : Ns), s.live = true → s.dev.fget Reg.HOSTQ_NS_UPDATE.BUSY = 0 → s.dev.on 0x10 = true →
    s.dev.readNs h = .ok (some n) → s.dev.nsCheck h n = 0 →
    Acts (.nsEntryUpdate h) s fun d => ∃ n', d.hostq.nss = Tab.put s.dev.hostq.nss h n' ∧
      n' = { n with cold := n'.cold, formatting := n'.formatting } ∧ d.fget Reg.HOSTQ_NS_UPDATE.RESULT = 0) ∧
  (∀ (s : State) (h : Nat) (n : Ns), s.live = true → s.dev.fget Reg.HOSTQ_NS_UPDATE.BUSY = 0 → s.dev.on 0x10 = true →
    s.dev.readNs h = .ok (some n) → s.dev.nsCheck h n ≠ 0 →
    Acts (.nsEntryUpdate h) s fun d => d.hostq = s.dev.hostq ∧ d.fget Reg.HOSTQ_NS_UPDATE.RESULT = s.dev.nsCheck h n) ∧
  (∀ (s : State) (h : Nat), s.live = true → s.dev.fget Reg.HOSTQ_NS_UPDATE.BUSY = 0 → s.dev.on 0x10 = true →
    s.dev.readNs h = .ok none →
    Acts (.nsEntryUpdate h) s fun d => d.hostq = { s.dev.hostq with nss := (Tab.del s.dev.hostq.nss h) } ∧
      d.fget Reg.HOSTQ_NS_UPDATE.RESULT = 0) ∧
  (∀ (s : State) (h r : Nat), s.live = true → s.dev.fget Reg.HOSTQ_NS_UPDATE.BUSY = 0 → s.dev.on 0x10 = true →
    s.dev.readNs h = .error r → r < 256 →
    Acts (.nsEntryUpdate h) s fun d => d.hostq = s.dev.hostq ∧ d.fget Reg.HOSTQ_NS_UPDATE.RESULT = r) ∧
  (∀ (s : State) (h : Nat), s.live = true → (s.dev.fget Reg.HOSTQ_NS_UPDATE.BUSY = 1 ∨ s.dev.on 0x10 = false) →
    Settles (.nsEntryUpdate h) s s.dev)

/-- LEDGER and ROPE on their own (R14, R26, R27, R168, R169, R178, R179, R181, R186 to R189). Of the commands that wait the one
whose key slot is at its hard limit is refused, else the one served next is admitted with its ADMIT_READY event, else the
first of a fail-fast tenant is refused (its RESULT is log 105's); a tenant entry that checks comes into force and one that
does not leaves the table; a boundary starts the next cycle and refills the tokens; SEAL_LEAD closes the cycle to writes; a
sealed cycle is released, or goes to the partner; a grant posts LOCK_GRANTED, and an applied entry does its work on the map
and is freed, but a FLUSH or NSWIDE entry stays. Each does nothing when its condition is not met. -/
def Obligations.LedgerAndRope : Prop :=
  (∀ (s : State) (r : Nat × Admission × List (Nat × Nat)), s.live = true → s.dev.serves 0x11 = true →
    s.dev.heads.any (fun p => s.dev.keyHard p.2.nsh p.2.kind p.2.units) = false →
    s.dev.serveNext s.dev.heads = some r → r.2.1.miss = none →
    Acts .ledgerDeferredAdmit s fun d =>
      d.ledger.waiting = s.dev.ledger.waiting.eraseIdx r.1 ∧
      (∃ c, Tab.look d.ledger.adms s.dev.ledger.nextAdm = some c ∧ c = { r.2.1 with deadline := c.deadline }) ∧
      d.ledger.nextAdm = (s.dev.ledger.nextAdm + 1) % 2 ^ 32 ∧
      (s.dev.pitch.queue.length < 8192 → s.dev.pitch.held = [] → d.pitch.queue = s.dev.pitch.queue ++
        [{ typ := 0x05, gen := some r.2.1.gen, words := (descriptor 0x05 64 r.2.1.tenant r.2.1.nsh r.2.1.ctx r.2.1.cmdref 0
            r.2.1.token [s.dev.ledger.nextAdm * 2 ^ 32]) }])) ∧
  (∀ (s : State) (r : Nat × Admission × List (Nat × Nat)), s.live = true → s.dev.serves 0x11 = true →
    s.dev.heads.any (fun p => s.dev.keyHard p.2.nsh p.2.kind p.2.units) = false →
    s.dev.serveNext s.dev.heads = some r → r.2.1.miss.isSome = true →
    Acts .ledgerDeferredAdmit s fun d =>
      d.ledger.waiting = s.dev.ledger.waiting.eraseIdx r.1 ∧
      (∃ c, Tab.look d.ledger.adms s.dev.ledger.nextAdm = some c ∧ c = { r.2.1 with deadline := c.deadline }) ∧
      d.pitch = s.dev.pitch) ∧
  (∀ (s : State) (r : Nat × Admission), s.live = true → s.dev.serves 0x11 = true →
    s.dev.heads.find? (fun p => s.dev.keyHard p.2.nsh p.2.kind p.2.units) = some r →
    Settles .ledgerDeferredAdmit s ((s.dev.unqueue r.1).admitReady r.2 0x12 0)) ∧
  (∀ (s : State) (r : Nat × Admission), s.live = true → s.dev.serves 0x11 = true →
    s.dev.heads.any (fun p => s.dev.keyHard p.2.nsh p.2.kind p.2.units) = false → s.dev.serveNext s.dev.heads = none →
    s.dev.heads.find? (fun p => s.dev.failFast p.2.tenant && !s.dev.psDefers) = some r →
    Settles .ledgerDeferredAdmit s
      ((((s.dev.unqueue r.1).bump Reg.LEDGER_WAIT.FAILFAST).doom r.2.tag 0 0x21).admitReady r.2 0x10 0)) ∧
  (∀ (s : State), s.live = true → (s.dev.serves 0x11 = false ∨
      (s.dev.heads.any (fun p => s.dev.keyHard p.2.nsh p.2.kind p.2.units) = false ∧ s.dev.serveNext s.dev.heads = none ∧
        s.dev.heads.any (fun p => s.dev.failFast p.2.tenant && !s.dev.psDefers) = false)) →
    Settles .ledgerDeferredAdmit s s.dev) ∧
  (∀ (s : State) (t : Nat) (n m : LedgerTenant) (ts : Tab LedgerTenant), s.live = true →
    s.dev.fget Reg.LEDGER_TEN_UPDATE.BUSY = 0 → s.dev.on 0x11 = true → s.dev.readTenant t = .ok (some n) →
    m = { n with readTok := (min ((Tab.look s.dev.ledger.tenants t).getD n).readTok (n.readRsv * n.burst * 1000000)),
                 writeTok := (min ((Tab.look s.dev.ledger.tenants t).getD n).writeTok (n.writeRsv * n.burst * 1000000)) } →
    ts = Tab.put s.dev.ledger.tenants t m →
    Acts (.ledgerTenUpdate t) s fun d => d.fget Reg.LEDGER_TEN_UPDATE.RESULT = s.dev.tenantsCheck ts ∧
      d.ledger = (if s.dev.tenantsCheck ts = 0 then { s.dev.ledger with tenants := ts } else s.dev.ledger)) ∧
  (∀ (s : State) (t : Nat) (ts : Tab LedgerTenant), s.live = true → s.dev.fget Reg.LEDGER_TEN_UPDATE.BUSY = 0 →
    s.dev.on 0x11 = true → s.dev.readTenant t = .ok none → ts = Tab.del s.dev.ledger.tenants t →
    Acts (.ledgerTenUpdate t) s fun d => d.fget Reg.LEDGER_TEN_UPDATE.RESULT = s.dev.tenantsCheck ts ∧
      d.ledger = (if s.dev.tenantsCheck ts = 0 then { s.dev.ledger with tenants := ts } else s.dev.ledger)) ∧
  (∀ (s : State) (t r : Nat), s.live = true → s.dev.fget Reg.LEDGER_TEN_UPDATE.BUSY = 0 →
    s.dev.on 0x11 = true → s.dev.readTenant t = .error r → 0 < r → r < 256 →
    Acts (.ledgerTenUpdate t) s fun d => d.ledger = s.dev.ledger ∧ d.fget Reg.LEDGER_TEN_UPDATE.RESULT = r) ∧
  (∀ (s : State) (t : Nat), s.live = true → (s.dev.fget Reg.LEDGER_TEN_UPDATE.BUSY = 1 ∨ s.dev.on 0x11 = false) →
    Settles (.ledgerTenUpdate t) s s.dev) ∧
  (∀ (s : State) (at_ : Nat), s.live = true →
    (s.dev.inst 0x11 0).swapReady = false → (s.dev.inst 0x12 0).swapReady = false → (s.dev.inst 0x13 0).swapReady = false →
    (s.dev.inst 0x13 0).heldDisable = false → s.dev.pitch.pause = none → s.dev.belay.pairNext = false →
    s.dev.belay.joinWaits = false → 1 ≤ s.dev.cycleNs →
    at_ = (if s.dev.now / s.dev.cycleNs % 2 ^ 48 = s.dev.cycle then (s.dev.now / s.dev.cycleNs + 1) * s.dev.cycleNs
      else s.dev.now) →
    Acts .commitCycleBoundary s fun d => d.now = at_ ∧ d.cycle = at_ / s.dev.cycleNs % 2 ^ 48 ∧
      d.ledger = { s.dev.ledger with
        closed := false, g1Bytes := 0, belayBytes := 0
        belayDebt := (s.dev.ledger.belayBytes + s.dev.ledger.belayDebt - s.dev.belayCap)
        tenants := (s.dev.ledger.tenants.map fun p => (p.1, p.2.refill s.dev.cycleNs)) }) ∧
  (∀ (s : State), s.live = true →
    Settles .sealLeadClose s { s.dev with ledger := { s.dev.ledger with closed := true } }) ∧
  (∀ (s : State) (c : Nat), s.live = true → s.dev.on 0x12 = true → s.dev.quiet = false →
    s.dev.claimsPending = false → c = s.dev.belay.nextSeal → cycLe s.dev.cycle c = false → s.dev.cycleSealed c = true →
    s.dev.fget Reg.ROPE_PAIR.PAIRED = 0 → s.dev.belay.bundling = false → s.dev.hostq.tags = [] →
    Acts .bundleSeal s fun d => d.belay.nextSeal = cycAdd c 1 ∧
      d.ledger.confirmed = cycMax s.dev.ledger.confirmed (cycAdd c 1) ∧
      d.ledger.confirmed1 = cycMax s.dev.ledger.confirmed1 (cycAdd c 1) ∧
      d.ledger.confirmed2 = cycMax s.dev.ledger.confirmed2 (cycAdd c 1) ∧ d.belay.out = s.dev.belay.out) ∧
  (∀ (s : State) (c : Nat), s.live = true → s.dev.on 0x12 = true → s.dev.quiet = false →
    s.dev.claimsPending = false → c = s.dev.belay.nextSeal → cycLe s.dev.cycle c = false → s.dev.cycleSealed c = true →
    s.dev.fget Reg.ROPE_PAIR.PAIRED = 1 → s.dev.on 0x19 = true →
    Acts .bundleSeal s fun d => d.belay.nextSeal = cycAdd c 1 ∧ d.ledger = s.dev.ledger ∧
      ∃ o ∈ d.belay.out, o.cycle = c) ∧
  (∀ (s : State), s.live = true → (s.dev.on 0x12 = false ∨ s.dev.quiet = true ∨ s.dev.claimsPending = true ∨
      cycLe s.dev.cycle s.dev.belay.nextSeal = true ∨ s.dev.cycleSealed s.dev.belay.nextSeal = false) →
    Settles .bundleSeal s s.dev) ∧
  (∀ (s : State) (i : Nat) (l : Lock), s.live = true → Tab.look s.dev.rope.locks i = some l → l.granted = false →
    s.dev.grantable l = true →
    Settles (.lockGrant i false) s (Dev.event { s.dev with
        rope := { s.dev.rope with locks := Tab.put s.dev.rope.locks i { l with granted := true } } }
      { typ := 0x04, gen := some l.gen, words := (descriptor 0x04 64 l.tenant l.nsh l.ctx l.cmdref l.rope 0 [i % 65536]) })) ∧
  (∀ (s : State) (i : Nat) (l : Lock), s.live = true → Tab.look s.dev.rope.locks i = some l → l.granted = false →
    s.dev.grantable l = true →
    Settles (.lockGrant i true) s (Dev.applyEntry (Dev.event { s.dev with
        rope := { s.dev.rope with locks := Tab.put s.dev.rope.locks i { l with granted := true } } }
      { typ := 0x04, gen := some l.gen
        words := (descriptor 0x04 64 l.tenant l.nsh l.ctx l.cmdref l.rope 0 [i % 65536]) }) i)) ∧
  (∀ (s : State) (i : Nat) (l : Lock) (applied : Bool), s.live = true → Tab.look s.dev.rope.locks i = some l →
    (l.granted = false ∧ s.dev.grantable l = false ∨ l.granted = true ∧ (applied = false ∨ l.kind ∈ [.flush, .nswide])) →
    Settles (.lockGrant i applied) s s.dev) ∧
  (∀ (s : State) (i : Nat) (applied : Bool), s.live = true → Tab.look s.dev.rope.locks i = none →
    Settles (.lockGrant i applied) s s.dev) ∧
  (∀ (s : State) (i g : Nat) (l : Lock) (u : SUnit), s.live = true → Tab.look s.dev.rope.locks i = some l →
    l.granted = true → l.kind = .write → l.nblk = 1 → s.dev.fget Reg.MAP_CFG.UNIT = 0 → s.dev.map.staging = [(g, u)] →
    u.tag = some (tagKey l.ctx l.cmdref) → u.rec_.zrange = false → u.rec_.lba = l.slba → s.dev.hostq.tags = [] →
    Acts (.lockGrant i true) s fun d => Tab.look d.rope.locks i = none ∧
      d.entry l.nsh l.slba = entStaged g l.rope ∧
      (∀ k, k ≠ unitKey l.nsh l.slba → d.entryAt k = s.dev.entryAt k) ∧
      (∃ u', Tab.look d.map.staging g = some u' ∧ u'.rec_.wgen = l.rope ∧ u'.data = u.data)) ∧
  (∀ (s : State) (i : Nat) (l : Lock), s.live = true → Tab.look s.dev.rope.locks i = some l →
    l.granted = true → l.kind = .dealloc → l.nblk = 1 → s.dev.fget Reg.MAP_CFG.UNIT = 0 → s.dev.hostq.tags = [] →
    Acts (.lockGrant i true) s fun d => Tab.look d.rope.locks i = none ∧ d.entry l.nsh l.slba = entDealloc ∧
      (∀ k, k ≠ unitKey l.nsh l.slba → d.entryAt k = s.dev.entryAt k)) ∧
  (∀ (s : State) (i : Nat) (l : Lock), s.live = true → Tab.look s.dev.rope.locks i = some l →
    l.granted = true → l.kind = .read →
    Acts (.lockGrant i true) s fun d => Tab.look d.rope.locks i = none ∧ d.map.entries = s.dev.map.entries ∧
      d.map.staging = s.dev.map.staging ∧
      d.map.lookups = s.dev.map.lookups.map fun p =>
        if p.2.tag = tagKey l.ctx l.cmdref then (p.1, (s.dev.confirm p.2).1) else p)

/-- MAP's staging, placement and caches (R193, R201 to R204, R206, R207, R210, R212, R217, R222, R226, R227, R228). Data lands
in a unit with its CRC while SRAM has room; a dirty unit, a dirty map page that is due and a moved unit are placed in the next
slot of their stream's stripe; a passed stripe appends its MAP record; a durable record switches the entry if it still holds
what the move or the placement read, and else is counted as superseded; a unit that nothing holds is freed; an arrived page
completes its lookups; the last page of a pinned map makes its namespace warm; a secure-deletion deadline makes its band a
victim. Each does nothing when its condition is not met. MAP_READY's RESULT for a malformed entry is log 106's, the stream
of a unit log 110's. -/
def Obligations.MapAndStaging : Prop :=
  (∀ (s : State) (tenant nsh token : Nat) (data : List Byte) (un : Bool), s.live = true → s.dev.quiet = false → data ≠ [] →
    data.length ≤ 4096 → s.dev.map.staging = [] →
    Acts (.dataLanding tenant nsh token 0 data un) s fun d => ∃ u, d.map.staging = [(0, u)] ∧ u.state = .landing ∧
      u.token = token ∧ u.rec_.nsh = nsh ∧ u.rec_.tenant = tenant ∧ u.uncommitted = un ∧
      u.crc = dataCrc (u.data.bytes 0 4096) ∧ (∀ i < data.length, u.data.byte i = data.getD i 0) ∧
      d.fget Reg.MAP_STAGE.LANDING = 1) ∧
  (∀ (s : State) (tenant nsh token off i : Nat) (data : List Byte) (un : Bool) (u : SUnit), s.live = true →
    s.dev.quiet = false → data ≠ [] → off + data.length ≤ 4096 → s.dev.landingUnit tenant token 0 = some (i, u) →
    Acts (.dataLanding tenant nsh token off data un) s fun d => ∃ u', d.map.staging = Tab.put s.dev.map.staging i u' ∧
      u' = { u with data := u'.data, crc := (dataCrc (u'.data.bytes 0 4096)), uncommitted := (u.uncommitted || un) } ∧
      (∀ k < data.length, u'.data.byte (off + k) = data.getD k 0)) ∧
  (∀ (s : State) (tenant nsh token at_ : Nat) (data : List Byte) (un : Bool), s.live = true →
    (s.dev.quiet = true ∨ data = [] ∨ s.dev.sramFree = 0 ∧ s.dev.map.staging.any (fun p => decide (p.2.state = .landing)) = false) →
    Settles (.dataLanding tenant nsh token at_ data un) s s.dev) ∧
  (∀ (s : State) (i id st : Nat) (u : SUnit) (r : Stripe) (b : Band), s.live = true →
    Tab.look s.dev.map.staging i = some u → u.state = .dirty → u.superseded = none → s.dev.map.stalled = false →
    (u.rec_.zrange = true ∨ s.dev.fget Reg.MAP_CFG.UNIT = 0) →
    st = s.dev.streamFor u.rec_.nsh (if u.rec_.zrange then 15 else s.dev.streamOf u) →
    Tab.look s.dev.stripe.streams st = some id → Tab.look s.dev.stripe.stripes id = some r → r.slots = [] →
    Tab.look s.dev.stripe.bands r.band = some b → s.dev.bandWhole b = true → 1 ≤ b.k →
    Acts (.mapPlace (.unit i)) s fun d =>
      Tab.look d.map.staging i = some { u with state := .placing, stripe := some id, target := (slotEntry b r 0 u.rec_.wgen) } ∧
      Tab.look d.stripe.stripes id = some { r with slots := [.unit i], last := s.dev.now } ∧
      d.map.entries = s.dev.map.entries) ∧
  (∀ (s : State) (i : Nat) (u : SUnit), s.live = true → Tab.look s.dev.map.staging i = some u → u.state = .dirty →
    u.superseded = none → s.dev.map.stalled = false → u.rec_.zrange = false → s.dev.fget Reg.MAP_CFG.UNIT = 1 →
    Settles (.mapPlace (.unit i)) s (s.dev.placeGroup u)) ∧
  (∀ (s : State) (i : Nat), s.live = true → (s.dev.map.stalled = true ∨
      ((Tab.look s.dev.map.staging i).any fun u => decide (u.state = .dirty) && u.superseded.isNone) = false) →
    Settles (.mapPlace (.unit i)) s s.dev) ∧
  (∀ (s : State) (c : Instr) (p id : Nat) (f : Frame) (r : Stripe) (b : Band), s.live = true →
    c ∈ [Instr.mapPlace (.page p), .mapCacheWriteback p] → Tab.look s.dev.map.frames p = some f → f.dirty = true →
    ((s.dev.jnl.ckpt.map fun c => (s.dev.ckptPages c).contains p).getD false || (!s.dev.pagePinned p && s.dev.lacksClean p)) =
      true → s.dev.map.stalled = false →
    Tab.look s.dev.stripe.streams (s.dev.streamFor (p / 2 ^ 32) 15) = some id → s.dev.stripe.stripes = [(id, r)] →
    r.slots = [] → Tab.look s.dev.stripe.bands r.band = some b → s.dev.bandWhole b = true → 1 ≤ b.k →
    Settles c s { s.dev with stripe := { s.dev.stripe with stripes := [(id, { r with
      slots := [.mapPage p (s.dev.fget Reg.JNL_HEAD.JSEQ) (Memory.setBytes [] 0 (s.dev.mapPageBytes p))]
      last := s.dev.now })] } }) ∧
  (∀ (s : State) (c : Instr) (p : Nat), s.live = true → c ∈ [Instr.mapPlace (.page p), .mapCacheWriteback p] →
    ((Tab.look s.dev.map.frames p).any (·.dirty) = false ∨ s.dev.map.stalled = true ∨
      s.dev.jnl.ckpt = none ∧ s.dev.lacksClean p = false) → Settles c s s.dev) ∧
  (∀ (s : State) (id : Nat) (m : MoveUnit) (r : Stripe) (b : Band), s.live = true → s.dev.stripe.moveBuf = [m] →
    (m.rec_.zrange = true ∨ s.dev.fget Reg.MAP_CFG.UNIT = 0) →
    Tab.look s.dev.stripe.streams (s.dev.streamFor m.rec_.nsh (if m.rec_.zrange then 15 else 14)) = some id →
    Tab.look s.dev.stripe.stripes id = some r → r.slots = [] →
    Tab.look s.dev.stripe.bands r.band = some b → s.dev.bandWhole b = true → 1 ≤ b.k →
    Settles (.mapPlace (.moves 1)) s { s.dev with stripe := { s.dev.stripe with
      stripes := (Tab.put s.dev.stripe.stripes id { r with slots := [.move m], last := s.dev.now }), moveBuf := [] } }) ∧
  (∀ (s : State) (n : Nat), s.live = true → s.dev.stripe.moveBuf = [] → Settles (.mapPlace (.moves n)) s s.dev) ∧
  (∀ (s : State) (id i j : Nat) (r : Stripe) (b : Band) (u : SUnit), s.live = true →
    Tab.look s.dev.stripe.stripes id = some r → r.slots = [.unit i] → r.full = true → r.dump = false →
    Tab.look s.dev.stripe.bands r.band = some b → b.k + b.m ≤ r.passed.length → Tab.look s.dev.map.staging i = some u →
    u.rec_.zrange = false → j = s.dev.fget Reg.JNL_HEAD.JSEQ → j - s.dev.fget Reg.JNL_TAIL.JSEQ < ringLen - 2 →
    Acts (.stripeProgramPass id) s fun d => Tab.look d.stripe.stripes id = none ∧
      d.fget Reg.JNL_HEAD.JSEQ = (j + 1) % 2 ^ 64 ∧
      d.jnl.pend = s.dev.jnl.pend ++ [{ jseq := j, act := (.switch (unitKey u.rec_.nsh (s.dev.unitOf u.rec_.lba))
        (entStaged u.group u.rec_.wgen) u.target u.former
        (s.dev.runRecs (slotEntry b r 0 u.rec_.wgen) [.unit i]) [i]) }] ∧ d.map.entries = s.dev.map.entries) ∧
  (∀ (s : State) (id i : Nat) (r : Stripe) (b : Band) (u : SUnit), s.live = true →
    Tab.look s.dev.stripe.stripes id = some r → r.slots = [.unit i] → r.full = true → r.dump = false →
    Tab.look s.dev.stripe.bands r.band = some b → b.k + b.m ≤ r.passed.length → Tab.look s.dev.map.staging i = some u →
    u.rec_.zrange = false → ringLen - 2 ≤ s.dev.fget Reg.JNL_HEAD.JSEQ - s.dev.fget Reg.JNL_TAIL.JSEQ →
    Acts (.stripeProgramPass id) s fun d => Tab.look d.stripe.stripes id = some { r with slots := [.unit i] } ∧
      d.map.stalled = true ∧ d.jnl.pend = s.dev.jnl.pend ∧ d.map.entries = s.dev.map.entries) ∧
  (∀ (s : State) (id i : Nat) (r : Stripe) (b : Band) (u : SUnit), s.live = true →
    Tab.look s.dev.stripe.stripes id = some r → r.slots = [.unit i] → r.full = true → r.dump = false →
    Tab.look s.dev.stripe.bands r.band = some b → b.k + b.m ≤ r.passed.length → Tab.look s.dev.map.staging i = some u →
    u.rec_.zrange = true →
    Acts (.stripeProgramPass id) s fun d => Tab.look d.stripe.stripes id = none ∧ d.jnl.pend = s.dev.jnl.pend ∧
      (∃ u', Tab.look d.map.staging i = some u' ∧ u'.switched = true) ∧ d.map.entries = s.dev.map.entries) ∧
  (∀ (s : State) (id : Nat), s.live = true →
    ((Tab.look s.dev.stripe.stripes id).any fun r => r.full && !r.dump && (Tab.look s.dev.stripe.bands r.band).any fun b =>
      decide (b.k + b.m ≤ r.passed.length)) = false → Settles (.stripeProgramPass id) s s.dev) ∧
  (∀ (s : State) (q : JPend) (rest : List JPend) (key cond new former : Nat) (recs : List (Nat × URec)) (us : List Nat),
    s.live = true → s.dev.jnl.pend = q :: rest → q.act = .switch key cond new former recs us → us ≠ [] →
    Acts .journalDurable s fun d => d.jnl.pend = rest ∧
      d.entryAt key = (if s.dev.entryAt key = cond then new else s.dev.entryAt key) ∧
      (∀ k ≠ key, d.entryAt k = s.dev.entryAt k) ∧
      d.fget Reg.MAP_SUPERSEDED.PLACE = (s.dev.fget Reg.MAP_SUPERSEDED.PLACE +
        if s.dev.entryAt key = cond then 0 else 1) % 2 ^ 32) ∧
  (∀ (s : State) (q : JPend) (rest : List JPend) (key cond new former : Nat) (recs : List (Nat × URec)),
    s.live = true → s.dev.jnl.pend = q :: rest → q.act = .switch key cond new former recs [] →
    Acts .journalDurable s fun d => d.jnl.pend = rest ∧
      d.entryAt key = (if s.dev.entryAt key = cond then new else s.dev.entryAt key) ∧
      (∀ k ≠ key, d.entryAt k = s.dev.entryAt k) ∧
      d.fget Reg.MAP_SUPERSEDED.MOVE = (s.dev.fget Reg.MAP_SUPERSEDED.MOVE +
        if s.dev.entryAt key = cond then 0 else 1) % 2 ^ 32) ∧
  (∀ (s : State) (q : JPend) (rest : List JPend) (es ps : List Nat), s.live = true → s.dev.jnl.pend = q :: rest →
    q.act = .stale es ps →
    Acts .journalDurable s fun d => d.jnl.pend = rest ∧ d.map.entries = s.dev.map.entries) ∧
  (∀ (s : State) (q : JPend) (rest : List JPend), s.live = true → s.dev.jnl.pend = q :: rest → q.act = .none →
    Acts .journalDurable s fun d => d = { s.dev with jnl := { s.dev.jnl with pend := rest, mram := d.jnl.mram } } ∧
      d.jnl.mram.read (ringSlot q.jseq + 4) 4 = crc32c (s.dev.jnl.mram.bytes (ringSlot q.jseq) 4 ++
        s.dev.jnl.mram.bytes (ringSlot q.jseq + 8) 24) % 2 ^ 32) ∧
  (∀ (s : State), s.live = true → s.dev.jnl.pend = [] → Settles .journalDurable s s.dev) ∧
  (∀ (s : State) (i : Nat) (u : SUnit), s.live = true → Tab.look s.dev.map.staging i = some u → s.dev.mayFree u = true →
    Acts (.stagingFree i) s fun d => Tab.look d.map.staging i = none ∧
      (∀ j ≠ i, Tab.look d.map.staging j = Tab.look s.dev.map.staging j) ∧
      d.map.released = (if s.dev.fget Reg.ROPE_PAIR.PAIRED = 1 then s.dev.map.released ++ [i] else s.dev.map.released)) ∧
  (∀ (s : State) (i : Nat), s.live = true → (Tab.look s.dev.map.staging i).any (fun u => s.dev.mayFree u) = false →
    Settles (.stagingFree i) s s.dev) ∧
  (∀ (s : State) (page h : Nat) (l : Lookup) (es : List Nat), s.live = true → s.dev.map.lookups = [(h, l)] →
    l.ready = false → page ∈ s.dev.missing l.nsh l.slba l.nblk →
    ((s.dev.frameIn page).missing l.nsh l.slba l.nblk).filter (· ≠ page) = [] →
    es = (if l.entries.isEmpty then s.dev.rangeEntries l.nsh l.slba l.nblk else l.entries) → es.any entBad = false →
    Acts (.mapPageReady page true) s fun d => (Tab.look d.map.frames page).isSome = true ∧
      (∃ l', Tab.look d.map.lookups h = some l' ∧ l'.ready = true ∧ l'.entries = es) ∧
      (s.dev.pitch.queue.length < 8192 → s.dev.pitch.held = [] →
        d.pitch.queue = s.dev.pitch.queue ++ [{ typ := 0x03, gen := some l.gen, words := (
          descriptor 0x03 64 l.tenant l.nsh l.ctx l.cmdref 0 l.token [h % 2 ^ 32]) }])) ∧
  (∀ (s : State) (page h : Nat) (l : Lookup), s.live = true → s.dev.map.lookups = [(h, l)] →
    l.ready = false → page ∈ s.dev.missing l.nsh l.slba l.nblk →
    Acts (.mapPageReady page false) s fun d => d.map.frames.map (·.1) = s.dev.map.frames.map (·.1) ∧
      (∃ l', Tab.look d.map.lookups h = some l' ∧ l'.ready = true ∧ l'.entries = []) ∧
      (s.dev.pitch.queue.length < 8192 → s.dev.pitch.held = [] →
        d.pitch.queue = s.dev.pitch.queue ++ [{ typ := 0x03, gen := some l.gen, words := (
          descriptor 0x03 64 l.tenant l.nsh l.ctx l.cmdref 0 l.token [h % 2 ^ 32 + 0x13 * 2 ^ 32]) }])) ∧
  (∀ (s : State) (page h : Nat) (l : Lookup) (es : List Nat), s.live = true → s.dev.map.lookups = [(h, l)] →
    l.ready = false → page ∈ s.dev.missing l.nsh l.slba l.nblk →
    ((s.dev.frameIn page).missing l.nsh l.slba l.nblk).filter (· ≠ page) = [] →
    es = (if l.entries.isEmpty then s.dev.rangeEntries l.nsh l.slba l.nblk else l.entries) → es.any entBad = true →
    Acts (.mapPageReady page true) s fun d =>
      (∃ l', Tab.look d.map.lookups h = some l' ∧ l'.ready = true ∧ l'.entries = [])) ∧
  (∀ (s : State) (page : Nat) (good : Bool), s.live = true → s.dev.map.lookups = [] →
    Settles (.mapPageReady page good) s (if good then s.dev.frameIn page else s.dev)) ∧
  (∀ (d : Dev) (page : Nat), Tab.look d.map.frames page = none →
    Tab.look (d.frameIn page).map.frames page = some {}) ∧
  (∀ (s : State) (page : Nat) (n : Ns), s.live = true → s.dev.map.coldPages = [page] →
    Tab.look s.dev.hostq.nss (page / 2 ^ 32) = some n → n.cold = true → s.dev.hostq.ctrls = [] →
    Acts (.pinnedMapWarm page) s fun d => d.map.coldPages = [] ∧
      Tab.look d.hostq.nss (page / 2 ^ 32) = some { n with cold := false } ∧ d.fget Reg.MAP_WARM.PAGES_LEFT = 0) ∧
  (∀ (s : State) (page : Nat), s.live = true → s.dev.warmNext page = true →
    Acts (.pinnedMapWarm page) s fun d => d.map.coldPages = s.dev.map.coldPages.filter (· ≠ page)) ∧
  (∀ (s : State) (page : Nat), s.live = true → s.dev.warmNext page = false → Settles (.pinnedMapWarm page) s s.dev) ∧
  (∀ (s : State) (n t : Nat) (b : Band), s.live = true → s.dev.fget Reg.MAP_CFG.SECURE = 1 →
    s.dev.map.stale = [{ band := n, since := t }] → s.dev.map.ended = [] →
    t + (s.dev.fget Reg.MAP_SECDEL.HOURS - 1) * 3600000000000 ≤ s.dev.now → t < 2 ^ 64 →
    Tab.look s.dev.stripe.bands n = some b → b.state ∈ [.closed, .opened] → b.item = none →
    (b.ofMap = false ∨ b.valid = 0) →
    Acts (.secureDelDeadline n) s fun d => ∃ b', Tab.look d.stripe.bands n = some b' ∧ b'.state = .victim ∧
      b'.item = some 1 ∧ b'.chunks = b.chunks) ∧
  (∀ (s : State) (n : Nat), s.live = true → (s.dev.fget Reg.MAP_CFG.SECURE = 0 ∨
      ((Tab.look s.dev.stripe.bands n).any fun b => decide (b.state = .closed ∨ b.state = .opened)) = false) →
    Settles (.secureDelDeadline n) s s.dev)

/-- Checkpoints and recovery (R206, R222, R225, R226, R291 to R294). A checkpoint that is due starts with its record, and
one whose pages are written ends by moving the tail to where it began, unless the ring has no room for its record; a replay
without a valid superblock, or of a journal with a record lost before its end, fails, and one with it takes the root's map; a
scan rebuilds the map from the units it found that are not dead; recovery ends in STATE 2 or 3 with no open band. Each does
nothing when its condition is not met. -/
def Obligations.CheckpointAndRecovery : Prop :=
  (∀ (s : State) (j : Nat), s.live = true → s.dev.jnl.ckpt = none → s.dev.on 0x1B = true → j = s.dev.fget Reg.JNL_HEAD.JSEQ →
    (s.dev.fget Reg.JNL_CKPT.REQ = 1 ∨
      s.dev.fget Reg.JNL_CKPT_CFG.CKPT_PCT * ringLen < 100 * (j - s.dev.fget Reg.JNL_TAIL.JSEQ)) →
    j - s.dev.fget Reg.JNL_TAIL.JSEQ < ringLen →
    Acts .checkpointStart s fun d => d.jnl.ckpt = some { number := s.dev.jnl.ckptNo + 1, b := j } ∧
      d.fget Reg.JNL_HEAD.JSEQ = (j + 1) % 2 ^ 64 ∧ d.fget Reg.JNL_CKPT.REQ = 0 ∧
      d.fget Reg.JNL_CKPT.STATE =
        (if s.dev.ckptPages { number := s.dev.jnl.ckptNo + 1, b := j } = [] then 3 else 2) ∧ d.map = s.dev.map) ∧
  (∀ (s : State) (j : Nat), s.live = true → s.dev.jnl.ckpt = none → s.dev.on 0x1B = true → j = s.dev.fget Reg.JNL_HEAD.JSEQ →
    s.dev.fget Reg.JNL_CKPT.REQ = 1 → ringLen ≤ j - s.dev.fget Reg.JNL_TAIL.JSEQ →
    Acts .checkpointStart s fun d => d.jnl.ckpt = none ∧ d.fget Reg.JNL_CKPT.REQ = 1 ∧ d.map.stalled = true) ∧
  (∀ (s : State), s.live = true → (s.dev.jnl.ckpt.isSome = true ∨ s.dev.on 0x1B = false ∨
      s.dev.fget Reg.JNL_CKPT.REQ = 0 ∧ 100 * (s.dev.fget Reg.JNL_HEAD.JSEQ - s.dev.fget Reg.JNL_TAIL.JSEQ) ≤
        s.dev.fget Reg.JNL_CKPT_CFG.CKPT_PCT * ringLen) → Settles .checkpointStart s s.dev) ∧
  (∀ (s : State) (root : Nat) (bands : List (Nat × List Chunk)) (c : Ckpt), s.live = true → s.dev.jnl.ckpt = some c →
    s.dev.ckptPages c = [] → s.dev.jnl.waits = [] → s.dev.fget Reg.JNL_HEAD.JSEQ - s.dev.fget Reg.JNL_TAIL.JSEQ < ringLen →
    Acts (.checkpointEnd root bands) s fun d => d.jnl.ckpt = none ∧ d.fget Reg.JNL_TAIL.JSEQ = c.b % 2 ^ 64 ∧
      d.fget Reg.JNL_CKPT.STATE = 0 ∧ d.map.entries = s.dev.map.entries ∧ d.jnl.ckptDone = c.number ∧
      d.stripe.erasedBlocks = []) ∧
  (∀ (s : State) (root : Nat) (bands : List (Nat × List Chunk)) (c : Ckpt), s.live = true → s.dev.jnl.ckpt = some c →
    s.dev.ckptPages c = [] → ringLen ≤ s.dev.fget Reg.JNL_HEAD.JSEQ - s.dev.fget Reg.JNL_TAIL.JSEQ →
    Acts (.checkpointEnd root bands) s fun d => d.jnl.ckpt = some c ∧ d.fget Reg.JNL_CKPT.STATE = 4 ∧
      d.fget Reg.JNL_TAIL.JSEQ = s.dev.fget Reg.JNL_TAIL.JSEQ) ∧
  (∀ (s : State) (root : Nat) (bands : List (Nat × List Chunk)), s.live = true →
    (s.dev.jnl.ckpt.any fun c => (s.dev.ckptPages c).isEmpty) = false →
    Settles (.checkpointEnd root bands) s s.dev) ∧
  (∀ (s : State) (root : RootObs) (dump : List DumpUnit) (high : Nat), s.live = true →
    s.dev.fget Reg.MAP_RECOVER.STATE ≠ 1 → s.dev.on 0x14 = true → (s.dev.jnl.active = none ∨ root.good = false) →
    Acts (.mapRecoverReplay root dump high) s fun d => d.fget Reg.MAP_RECOVER.STATE = 3 ∧ d.map = s.dev.map) ∧
  (∀ (s : State) (root : RootObs) (dump : List DumpUnit) (high a j : Nat), s.live = true →
    s.dev.fget Reg.MAP_RECOVER.STATE ≠ 1 → s.dev.on 0x14 = true → s.dev.jnl.active = some a → root.good = true →
    j = s.dev.jnl.sbField 16 8 → jrecOk s.dev.jnl.mram j = false →
    (s.dev.jnl.mram.read (ringSlot j + 8) 8 ≠ j ∨ jrecOk s.dev.jnl.mram (j + 1) = false) →
    s.dev.jnl.mram.read 0x2000 4 = 0 →
    Acts (.mapRecoverReplay root dump high) s fun d => d.fget Reg.MAP_RECOVER.STATE = 1 ∧ d.map.entries = root.entries ∧
      d.map.dir = root.dir ∧ d.map.clearSeq = root.clearSeq ∧ d.fget Reg.JNL_REPLAY.RECORDS = 0 ∧
      d.fget Reg.JNL_REPLAY.TORN = (if s.dev.jnl.mram.read (ringSlot j + 8) 8 = j then 1 else 0) ∧
      d.fget Reg.JNL_HEAD.JSEQ = j ∧ d.fget Reg.JNL_TAIL.JSEQ = j) ∧
  (∀ (s : State) (root : RootObs) (dump : List DumpUnit) (high a j : Nat), s.live = true →
    s.dev.fget Reg.MAP_RECOVER.STATE ≠ 1 → s.dev.on 0x14 = true → s.dev.jnl.active = some a → root.good = true →
    j = s.dev.jnl.sbField 16 8 → jrecOk s.dev.jnl.mram j = false → s.dev.jnl.mram.read (ringSlot j + 8) 8 = j →
    jrecOk s.dev.jnl.mram (j + 1) = true →
    Acts (.mapRecoverReplay root dump high) s fun d => d.fget Reg.MAP_RECOVER.STATE = 3) ∧
  (∀ (s : State) (root : RootObs) (u : ScanUnit) (high new : Nat), s.live = true →
    s.dev.fget Reg.MAP_RECOVER.STATE ≠ 1 → s.dev.on 0x14 = true → s.dev.fget Reg.MAP_CFG.UNIT = 0 →
    s.dev.scanDead root u = false → u.rec_.zrange = false → root.bands = [] →
    s.dev.jnl.mram.read 0x2000 4 = 0 →
    Acts (.mapRecoverScan root [u] [] high new) s fun d => d.fget Reg.MAP_RECOVER.STATE = 1 ∧
      d.entryAt (unitKey u.rec_.nsh u.rec_.lba) = u.entry ∧
      (∀ k, k ≠ unitKey u.rec_.nsh u.rec_.lba → d.entryAt k = entDealloc) ∧ d.map.dir = []) ∧
  (∀ (s : State) (root : RootObs) (us : List ScanUnit) (high new : Nat), s.live = true →
    s.dev.fget Reg.MAP_RECOVER.STATE ≠ 1 → s.dev.on 0x14 = true → us.all (fun u => s.dev.scanDead root u) = true →
    root.bands = [] → s.dev.jnl.mram.read 0x2000 4 = 0 →
    Acts (.mapRecoverScan root us [] high new) s fun d => d.fget Reg.MAP_RECOVER.STATE = 1 ∧ d.map.entries = []) ∧
  (∀ (s : State) (root : RootObs) (us : List ScanUnit) (dump : List DumpUnit) (high new : Nat), s.live = true →
    (s.dev.fget Reg.MAP_RECOVER.STATE = 1 ∨ s.dev.on 0x14 = false) →
    Settles (.mapRecoverReplay root dump high) s s.dev ∧ Settles (.mapRecoverScan root us dump high new) s s.dev) ∧
  (∀ (s : State) (good : Bool), s.live = true → s.dev.fget Reg.MAP_RECOVER.STATE = 1 →
    Acts (.recoveryEnd good) s fun d => d.fget Reg.MAP_RECOVER.STATE = (if good then 2 else 3) ∧
      (∀ n b, Tab.look d.stripe.bands n = some b → b.partner = false → b.state ≠ .opened) ∧
      d.map.entries = s.dev.map.entries ∧ d.map.coldPages = s.dev.map.dir.map (·.1)) ∧
  (∀ (s : State) (good : Bool), s.live = true → s.dev.fget Reg.MAP_RECOVER.STATE ≠ 1 → Settles (.recoveryEnd good) s s.dev)

/-- TETHER's links and frames (R230 to R235, R242 to R244). A lane loss retrains an ACTIVE link or takes it down; a retrain ends
in an ACTIVE link, counted, or in a link that is down; a down link whose anchor answers comes up; a good frame in sequence is
received once and its credits count, a NAK replays; a bad frame or one out of sequence is counted, dropped and answered with a
NAK, and a repeat takes no effect but its acknowledgement; 5 µs without an acknowledgement replays what is unacknowledged, and
after eight replays the link retrains; a STATUS frame refreshes what is known of its sled, shows an anchor reset or a higher
claim; 30 ms without one are reported. Each does nothing when its condition is not met. -/
def Obligations.TetherLinks : Prop :=
  (∀ (s : State) (n : Nat), s.live = true → s.dev.linkUp n = true → s.dev.fget Reg.TTH_CFG.AUTO_RETRAIN n = 1 →
    Acts (.tetherLaneLoss n) s fun d => d.fget Reg.TTH_LINK.STATE n = 1 ∧ d.fget Reg.TTH_LINK.LANES_UP n = 0 ∧
      d.link n = { s.dev.link n with retraining := true } ∧ d.media = s.dev.media ∧ d.stripe = s.dev.stripe) ∧
  (∀ (s : State) (n : Nat), s.live = true → s.dev.linkUp n = true → s.dev.fget Reg.TTH_CFG.AUTO_RETRAIN n = 0 →
    Acts (.tetherLaneLoss n) s fun d => d.fget Reg.TTH_LINK.STATE n = 1 ∧ d.fget Reg.TTH_LINK.LANES_UP n = 0 ∧
      d.link n = { s.dev.link n with retraining := false, unacked := [] } ∧ (d.inst 0x17 n).err.getLsbD 9 = true ∧
      (d.media.ops.any fun o => decide (o.1 / 4096 = n)) = false) ∧
  (∀ (s : State) (n : Nat), s.live = true → s.dev.linkUp n = false → Settles (.tetherLaneLoss n) s s.dev) ∧
  (∀ (s : State) (n : Nat), s.live = true → (s.dev.link n).retraining = true →
    Acts (.tetherRetrainEnd n true) s fun d => d.fget Reg.TTH_LINK.STATE n = 5 ∧ d.fget Reg.TTH_LINK.LANES_UP n = 4 ∧
      d.fget Reg.TTH_LINK.RETRAINS n = (s.dev.fget Reg.TTH_LINK.RETRAINS n + 1) % 2 ^ 32 ∧
      d.link n = { s.dev.link n with retraining := false }) ∧
  (∀ (s : State) (n : Nat), s.live = true → (s.dev.link n).retraining = true →
    Acts (.tetherRetrainEnd n false) s fun d => d.fget Reg.TTH_LINK.STATE n = 1 ∧
      d.link n = { s.dev.link n with retraining := false, unacked := [] } ∧ (d.inst 0x17 n).err.getLsbD 9 = true) ∧
  (∀ (s : State) (n : Nat) (ok : Bool), s.live = true → (s.dev.link n).retraining = false →
    Settles (.tetherRetrainEnd n ok) s s.dev) ∧
  (∀ (s : State) (n : Nat) (o : CheckObs), s.live = true → s.dev.on 0x17 n = true → s.dev.linkUp n = false →
    (s.dev.link n).retraining = false → o.good = true → 4 ≤ o.lanes → o.proto = 0x0100 →
    Acts (.tetherLinkUp n o) s fun d => d.fget Reg.TTH_LINK.STATE n = 5 ∧ d.fget Reg.TTH_LINK.LANES_UP n = 4 ∧
      d.fget Reg.TTH_IDENT.PROTO n = 0x0100 ∧ d.fget Reg.TTH_IDENT.DIES n = o.dies % 256 ∧
      d.link n = { temps := (s.dev.link n).temps, lastStatus := s.dev.now } ∧ d.media = s.dev.media) ∧
  (∀ (s : State) (n : Nat) (o : CheckObs), s.live = true →
    (s.dev.on 0x17 n = false ∨ s.dev.linkUp n = true ∨ (s.dev.link n).retraining = true ∨ o.good = false ∨ o.lanes < 4 ∨
      o.proto ≠ 0x0100) → Settles (.tetherLinkUp n o) s s.dev) ∧
  (∀ (s : State) (h : RxHdr) (op data : Nat), s.live = true → s.dev.rxNext h = true →
    Settles (.tetherLinkFrame h op data false) s ((s.dev.received h).modLink h.sled fun l =>
      { l with opCredits := l.opCredits + op, dataCredits := l.dataCredits + data }) ∧
    ((s.dev.received h).link h.sled).rxSeq = h.seq % 4096) ∧
  (∀ (s : State) (h : RxHdr) (op data : Nat) (f : TFrame), s.live = true → s.dev.rxNext h = true → f.replays < 8 →
    ((s.dev.link h.sled).unacked.filter fun x => !linkSeqLe 4096 x.seq h.ack) = [f] →
    Acts (.tetherLinkFrame h op data true) s fun d =>
      d.link h.sled = { s.dev.link h.sled with
        rxSeq := h.seq % 4096, unacked := [{ f with replays := f.replays + 1 }]
        opCredits := (s.dev.link h.sled).opCredits + op, dataCredits := (s.dev.link h.sled).dataCredits + data } ∧
      d.fget Reg.TTH_FRAMES.REPLAYS h.sled = (s.dev.fget Reg.TTH_FRAMES.REPLAYS h.sled + 1) % 2 ^ 32) ∧
  (∀ (s : State) (c : Instr) (h : RxHdr) (op data tag res temp exec a b : Nat) (nak pass : Bool) (cw : Codeword)
    (xs ys : List Nat), s.live = true →
    c ∈ [Instr.tetherLinkFrame h op data nak, .tetherResp h tag res temp exec a, .tetherRdata h tag pass cw,
      .tetherClaimReply h op a b xs ys, .tetherStatus h temp a xs ys] → s.dev.linkUp h.sled = true →
    (h.good = false ∨ h.seq % 4096 ≠ ((s.dev.link h.sled).rxSeq + 1) % 4096 ∧
      linkSeqLe 4096 h.seq (s.dev.link h.sled).rxSeq = false) →
    Acts c s fun d => d.fget Reg.TTH_FRAMES.CRC_ERR h.sled = (s.dev.fget Reg.TTH_FRAMES.CRC_ERR h.sled + 1) % 2 ^ 32 ∧
      d.link h.sled = { s.dev.link h.sled with
        txSeq := ((s.dev.link h.sled).txSeq + 1) % 4096
        unacked := (s.dev.link h.sled).unacked ++
          [{ seq := ((s.dev.link h.sled).txSeq + 1) % 4096, typ := 0x0F, words := [0x100000000] }] } ∧
      d.media = s.dev.media ∧ d.stripe = s.dev.stripe ∧ d.claimX = s.dev.claimX) ∧
  (∀ (s : State) (c : Instr) (h : RxHdr) (op data tag res temp exec a b : Nat) (nak pass : Bool) (cw : Codeword)
    (xs ys : List Nat), s.live = true →
    c ∈ [Instr.tetherLinkFrame h op data nak, .tetherResp h tag res temp exec a, .tetherRdata h tag pass cw,
      .tetherClaimReply h op a b xs ys, .tetherStatus h temp a xs ys] → s.dev.linkUp h.sled = true →
    h.good = true → h.seq % 4096 ≠ ((s.dev.link h.sled).rxSeq + 1) % 4096 →
    linkSeqLe 4096 h.seq (s.dev.link h.sled).rxSeq = true →
    Acts c s fun d => d.link h.sled = { s.dev.link h.sled with
        unacked := ((s.dev.link h.sled).unacked.filter fun f => !linkSeqLe 4096 f.seq h.ack) } ∧
      d.media = s.dev.media ∧ d.stripe = s.dev.stripe ∧ d.claimX = s.dev.claimX) ∧
  (∀ (s : State) (c : Instr) (h : RxHdr) (op data tag res temp exec a b : Nat) (nak pass : Bool) (cw : Codeword)
    (xs ys : List Nat), s.live = true →
    c ∈ [Instr.tetherLinkFrame h op data nak, .tetherResp h tag res temp exec a, .tetherRdata h tag pass cw,
      .tetherClaimReply h op a b xs ys, .tetherStatus h temp a xs ys] → s.dev.linkUp h.sled = false →
    Acts c s fun d => d.links = s.dev.links ∧ d.media = s.dev.media ∧ d.stripe = s.dev.stripe ∧ d.claimX = s.dev.claimX) ∧
  (∀ (s : State) (n : Nat) (f : TFrame), s.live = true → s.dev.linkUp n = true → (s.dev.link n).unacked = [f] →
    f.replays < 8 →
    Acts (.tetherReplayTimeout n) s fun d => (d.link n).unacked = [{ f with replays := f.replays + 1 }] ∧
      d.fget Reg.TTH_FRAMES.REPLAYS n = (s.dev.fget Reg.TTH_FRAMES.REPLAYS n + 1) % 2 ^ 32 ∧
      d.fget Reg.TTH_LINK.STATE n = 5) ∧
  (∀ (s : State) (n : Nat) (f : TFrame), s.live = true → s.dev.linkUp n = true → (s.dev.link n).unacked = [f] →
    8 ≤ f.replays → s.dev.fget Reg.TTH_CFG.AUTO_RETRAIN n = 1 →
    Acts (.tetherReplayTimeout n) s fun d => (d.link n).retraining = true ∧ (d.link n).unacked = [f] ∧
      d.fget Reg.TTH_LINK.STATE n = 1) ∧
  (∀ (s : State) (n : Nat), s.live = true → (s.dev.linkUp n = false ∨ (s.dev.link n).unacked = []) →
    Settles (.tetherReplayTimeout n) s s.dev) ∧
  (∀ (s : State) (h : RxHdr) (temp flags : Nat) (held temps : List Nat), s.live = true → s.dev.rxNext h = true →
    temp < 256 → flags < 16 →
    (bitOf flags 2 = false ∨ s.dev.fget Reg.TTH_OWN.CLAIM h.sled = 0 ∨ (s.dev.link h.sled).represent ≠ 0) →
    (∀ c < 8, held.getD c 0 ≤ s.dev.fget Reg.TTH_OWN.CLAIM h.sled) →
    Acts (.tetherStatus h temp flags held temps) s fun d => d.fget Reg.TTH_ANCHOR.TEMP h.sled = temp ∧
      d.fget Reg.TTH_ANCHOR.FLAGS h.sled = flags ∧ (d.link h.sled).lastStatus = s.dev.now ∧
      (d.link h.sled).late = false ∧
      (∀ i < 128, Tab.look (d.link h.sled).temps i =
        (if temps.getD i 0x80 % 256 = 0x80 then none else some (temps.getD i 0x80 % 256))) ∧
      d.fget Reg.TTH_OWN.OWNED h.sled = s.dev.fget Reg.TTH_OWN.OWNED h.sled) ∧
  (∀ (s : State) (h : RxHdr) (temp flags : Nat) (held temps : List Nat), s.live = true → s.dev.rxNext h = true →
    bitOf flags 2 = true → s.dev.fget Reg.TTH_OWN.CLAIM h.sled ≠ 0 → (s.dev.link h.sled).represent = 0 →
    Acts (.tetherStatus h temp flags held temps) s fun d => d.fget Reg.TTH_OWN.OWNED h.sled = 0 ∧
      (d.inst 0x17 h.sled).err.getLsbD 11 = true ∧
      (d.link h.sled).represent = s.dev.fget Reg.TTH_OWN.OWNED h.sled ∧
      ∃ f ∈ (d.link h.sled).unacked, f.typ = 3 ∧ f.claim = s.dev.fget Reg.TTH_OWN.CLAIM h.sled ∧
        f.words = [BitVec.ofNat 64 (s.dev.fget Reg.TTH_OWN.OWNED h.sled)]) ∧
  (∀ (s : State) (n : Nat), s.live = true → s.dev.on 0x17 n = true → (s.dev.link n).late = false →
    (s.dev.link n).lastStatus + 30000000 ≤ s.dev.now →
    Settles (.statusLate n) s (((s.dev.modLink n fun l => { l with late := true }).setErr 0x17 n 10).post 0x17 n 0x64 0)) ∧
  (∀ (s : State) (n : Nat), s.live = true →
    (s.dev.on 0x17 n = false ∨ (s.dev.link n).late = true ∨ s.dev.now < (s.dev.link n).lastStatus + 30000000) →
    Settles (.statusLate n) s s.dev)

/-- Claims (R239 to R243). A claim command sends a sled's CLAIM with BELAY out of service, is refused with its error bit when
BELAY is enabled or the epoch is lower, and does nothing during an exchange; the last sled to accept ends the exchange with its
channels owned, and one that is not the last leaves it waiting; an answer to a CLAIM presented again after an anchor reset
returns the channels it accepts; an unanswered CLAIM is sent again twice, and then its sled is given up; a higher held claim,
or a refusal with CLAIM_LOST, takes the channel, and one with CLAIM_NONE presents the claim again. -/
def Obligations.Claims : Prop :=
  (∀ (s : State) (epoch n channels : Nat), s.live = true → n < 24 → channels < 256 → 0 < epoch → epoch < 2 ^ 31 →
    s.dev.fget Reg.TTH_CLAIM_STAT.BUSY = 0 → s.dev.isEnabled 0x19 = false → s.dev.on 0x17 = true →
    s.dev.fget Reg.TTH_CLAIM_STAT.LAST_EPOCH ≤ epoch →
    Acts (.tthClaimCmd epoch (2 ^ n) channels) s fun d =>
      d.claimX = some { epoch := epoch, sleds := 2 ^ n, channels := channels, waiting := 2 ^ n } ∧
      d.fget Reg.TTH_OWN.CLAIM n = (epoch * 2 + s.dev.fget Reg.CAMP_STRAP.UNIT_ID) % 2 ^ 32 ∧
      d.fget Reg.TTH_OWN.OWNED n = s.dev.fget Reg.TTH_OWN.OWNED n ∧ d.fget Reg.TTH_CLAIM_STAT.BUSY = 1 ∧
      d.fget Reg.TTH_CLAIM_STAT.LAST_EPOCH = epoch ∧
      (d.link n).unacked = (s.dev.link n).unacked ++ [{ seq := ((s.dev.link n).txSeq + 1) % 4096, typ := 3,
                                                         claim := d.fget Reg.TTH_OWN.CLAIM n,
                                                         words := [BitVec.ofNat 64 channels] }]) ∧
  (∀ (s : State) (epoch sleds channels : Nat), s.live = true → s.dev.fget Reg.TTH_CLAIM_STAT.BUSY = 0 →
    (s.dev.isEnabled 0x19 = true ∨ epoch < s.dev.fget Reg.TTH_CLAIM_STAT.LAST_EPOCH) →
    Acts (.tthClaimCmd epoch sleds channels) s fun d => (d.inst 0x17 0).err.getLsbD 12 = true ∧ d.claimX = s.dev.claimX ∧
      d.links = s.dev.links) ∧
  (∀ (s : State) (epoch sleds channels : Nat), s.live = true →
    (s.dev.fget Reg.TTH_CLAIM_STAT.BUSY = 1 ∨ s.dev.isEnabled 0x19 = false ∧
      s.dev.fget Reg.TTH_CLAIM_STAT.LAST_EPOCH ≤ epoch ∧ (epoch = 0 ∨ s.dev.on 0x17 = false)) →
    Acts (.tthClaimCmd epoch sleds channels) s fun d => d.claimX = s.dev.claimX ∧ d.links = s.dev.links ∧
      d.media = s.dev.media ∧ d.inst 0x17 0 = s.dev.inst 0x17 0) ∧
  (∀ (s : State) (h : RxHdr) (accepted rejected : Nat) (held busy : List Nat) (x : ClaimX), s.live = true →
    s.dev.rxNext h = true → (s.dev.link h.sled).represent = 0 → s.dev.claimX = some x → x.waiting = 2 ^ h.sled →
    x.channels < 256 → (∀ c < 8, held.getD c 0 ≤ s.dev.fget Reg.TTH_OWN.CLAIM h.sled) →
    Acts (.tetherClaimReply h (s.dev.fget Reg.TTH_OWN.CLAIM h.sled) accepted rejected held busy) s fun d =>
      d.claimX = none ∧
      d.fget Reg.TTH_OWN.OWNED h.sled = s.dev.fget Reg.TTH_OWN.OWNED h.sled ||| (accepted &&& x.channels) ∧
      d.fget Reg.TTH_CLAIM_STAT.ACCEPTED =
        (if accepted &&& x.channels = x.channels then x.accepted + 2 ^ h.sled else x.accepted) % 2 ^ 24 ∧
      d.fget Reg.TTH_CLAIM_STAT.BUSY = 0 ∧ d.fget Reg.TTH_CLAIM_STAT.DONE = 1 ∧
      (∀ c < 8, Tab.look (d.link h.sled).busy c = some (busy.getD c 0)) ∧
      (rejected &&& x.channels ≠ 0 → d.media.claimRejected = true)) ∧
  (∀ (s : State) (h : RxHdr) (accepted rejected : Nat) (held busy : List Nat) (x : ClaimX), s.live = true →
    s.dev.rxNext h = true → (s.dev.link h.sled).represent = 0 → s.dev.claimX = some x →
    bitOf x.waiting h.sled = true → x.waiting ≠ 2 ^ h.sled → x.channels < 256 →
    (∀ c < 8, held.getD c 0 ≤ s.dev.fget Reg.TTH_OWN.CLAIM h.sled) →
    Acts (.tetherClaimReply h (s.dev.fget Reg.TTH_OWN.CLAIM h.sled) accepted rejected held busy) s fun d =>
      d.claimX = some { x with
        waiting := x.waiting - 2 ^ h.sled
        accepted := (if accepted &&& x.channels = x.channels then x.accepted + 2 ^ h.sled else x.accepted) } ∧
      d.fget Reg.TTH_OWN.OWNED h.sled = s.dev.fget Reg.TTH_OWN.OWNED h.sled ||| (accepted &&& x.channels)) ∧
  (∀ (s : State) (h : RxHdr) (claim accepted rejected : Nat) (held busy : List Nat), s.live = true →
    s.dev.rxNext h = true → (claim ≠ s.dev.fget Reg.TTH_OWN.CLAIM h.sled ∨ s.dev.claimX = none ∧
      (s.dev.link h.sled).represent = 0) → (∀ c < 8, held.getD c 0 ≤ s.dev.fget Reg.TTH_OWN.CLAIM h.sled) →
    Acts (.tetherClaimReply h claim accepted rejected held busy) s fun d => d.claimX = s.dev.claimX ∧
      d.fget Reg.TTH_OWN.OWNED h.sled = s.dev.fget Reg.TTH_OWN.OWNED h.sled ∧ d.media = s.dev.media) ∧
  (∀ (s : State) (h : RxHdr) (accepted rejected r : Nat) (held busy : List Nat), s.live = true →
    s.dev.rxNext h = true → r = (s.dev.link h.sled).represent → r ≠ 0 → r < 256 → s.dev.claimX = none →
    rejected &&& r = 0 → (∀ c < 8, held.getD c 0 ≤ s.dev.fget Reg.TTH_OWN.CLAIM h.sled) →
    Acts (.tetherClaimReply h (s.dev.fget Reg.TTH_OWN.CLAIM h.sled) accepted rejected held busy) s fun d =>
      (d.link h.sled).represent = 0 ∧ d.media = s.dev.media ∧
      d.fget Reg.TTH_OWN.OWNED h.sled = s.dev.fget Reg.TTH_OWN.OWNED h.sled ||| r) ∧
  (∀ (s : State) (c : Instr) (h : RxHdr) (k claim a b temp flags : Nat) (held busy temps : List Nat), s.live = true →
    c ∈ [Instr.tetherClaimReply h claim a b held busy, .tetherStatus h temp flags held temps] → s.dev.rxNext h = true →
    bitOf flags 2 = false → k < 8 → s.dev.owns h.sled k = true → s.dev.fget Reg.TTH_OWN.CLAIM h.sled < held.getD k 0 →
    Acts c s fun d => d.owns h.sled k = false ∧ d.media.claimLost = true ∧ (d.inst 0x17 h.sled).err.getLsbD 8 = true) ∧
  (∀ (s : State) (n k : Nat) (x : ClaimX), s.live = true → s.dev.claimX = some x → bitOf x.waiting n = true →
    k = (Tab.look x.resends n).getD 0 → k < 2 →
    Settles (.claimResendTimeout n) s (Dev.sendClaim { s.dev with
      claimX := some { x with resends := Tab.put x.resends n (k + 1) } } n x.channels)) ∧
  (∀ (s : State) (n : Nat) (x : ClaimX), s.live = true → s.dev.claimX = some x → x.waiting = 2 ^ n →
    2 ≤ (Tab.look x.resends n).getD 0 →
    Acts (.claimResendTimeout n) s fun d => d.claimX = none ∧ d.links = s.dev.links ∧
      d.fget Reg.TTH_CLAIM_STAT.ACCEPTED = x.accepted % 2 ^ 24 ∧ d.fget Reg.TTH_CLAIM_STAT.BUSY = 0 ∧
      d.fget Reg.TTH_CLAIM_STAT.DONE = 1) ∧
  (∀ (s : State) (n : Nat) (x : ClaimX), s.live = true → s.dev.claimX = some x → bitOf x.waiting n = true →
    x.waiting ≠ 2 ^ n → 2 ≤ (Tab.look x.resends n).getD 0 →
    Settles (.claimResendTimeout n) s { s.dev with claimX := some { x with waiting := x.waiting - 2 ^ n } }) ∧
  (∀ (s : State) (n : Nat), s.live = true → (s.dev.claimX.any fun x => bitOf x.waiting n) = false →
    Settles (.claimResendTimeout n) s s.dev) ∧
  (∀ (s : State) (h : RxHdr) (tag temp exec held : Nat) (o : NandOp), s.live = true → s.dev.rxNext h = true →
    Tab.look s.dev.media.ops (h.sled * 4096 + tag) = some o → s.dev.owns h.sled o.channel = true →
    Acts (.tetherResp h tag 2 temp exec held) s fun d => Tab.look d.media.ops (h.sled * 4096 + tag) = none ∧
      d.media.claimLost = true ∧ d.owns h.sled o.channel = false ∧ (d.inst 0x17 h.sled).err.getLsbD 8 = true) ∧
  (∀ (s : State) (h : RxHdr) (tag temp exec held : Nat) (o : NandOp), s.live = true → s.dev.rxNext h = true →
    Tab.look s.dev.media.ops (h.sled * 4096 + tag) = some o → held ≤ s.dev.fget Reg.TTH_OWN.CLAIM h.sled →
    s.dev.fget Reg.TTH_OWN.CLAIM h.sled ≠ 0 → (s.dev.link h.sled).represent = 0 →
    Acts (.tetherResp h tag 9 temp exec held) s fun d => Tab.look d.media.ops (h.sled * 4096 + tag) = none ∧
      d.fget Reg.TTH_OWN.OWNED h.sled = 0 ∧ (d.link h.sled).represent = s.dev.fget Reg.TTH_OWN.OWNED h.sled ∧
      (d.inst 0x17 h.sled).err.getLsbD 11 = true)

/-- NAND operations, sled records and gate lists (R176, R236 to R238, R246 to R248, R251 to R256, R258 to R260, R284, R285). A
passed program counts for its stripe and a failed one fails it; an erase counts for its band; a suspend or a resume that
answers holds; a codeword decodes or climbs the ladder by one level, to SOFT_READ at level 2 and to an unrecovered unit after
level 4; an operation that times out is gone, counted, and its unit climbs; a read, a program or an erase that may go takes
its credits and is listed under its tag, as do a suspend and a resume; a good record comes into force, an invalid one leaves
the table and a bad one gives its reason; a media gate list acts from its start. Each does nothing when its condition is not
met. -/
def Obligations.NandOperations : Prop :=
  (∀ (s : State) (h : RxHdr) (tag temp exec held st ch : Nat) (o : NandOp) (x : Stripe), s.live = true →
    s.dev.rxNext h = true → Tab.look s.dev.media.ops (h.sled * 4096 + tag) = some o →
    o.use ∈ [.program st ch, .dump st ch] → held ≤ s.dev.fget Reg.TTH_OWN.CLAIM h.sled →
    Tab.look s.dev.stripe.stripes st = some x →
    Acts (.tetherResp h tag 0 temp exec held) s fun d => Tab.look d.media.ops (h.sled * 4096 + tag) = none ∧
      Tab.look d.stripe.stripes st = some { x with passed := ch :: x.passed.filter (· ≠ ch) } ∧
      Tab.look (d.link h.sled).temps (o.channel * 16 + o.die) = some (temp % 256)) ∧
  (∀ (s : State) (h : RxHdr) (tag temp exec held st ch : Nat) (o : NandOp) (x : Stripe) (b : Band), s.live = true →
    s.dev.rxNext h = true → Tab.look s.dev.media.ops (h.sled * 4096 + tag) = some o → o.use = .program st ch →
    held ≤ s.dev.fget Reg.TTH_OWN.CLAIM h.sled → Tab.look s.dev.stripe.stripes st = some x →
    Tab.look s.dev.stripe.bands x.band = some b →
    Acts (.tetherResp h tag 1 temp exec held) s fun d => Tab.look d.media.ops (h.sled * 4096 + tag) = none ∧
      Tab.look d.stripe.stripes st = none ∧
      ∃ b', Tab.look d.stripe.bands x.band = some b' ∧ b'.state = .closed ∧ b'.early = true ∧ b'.failed = b.failed ++ [ch] ∧
        b'.item.isSome = true) ∧
  (∀ (s : State) (h : RxHdr) (tag res temp exec held n i : Nat) (o : NandOp) (b : Band) (k : Chunk), s.live = true →
    s.dev.rxNext h = true → Tab.look s.dev.media.ops (h.sled * 4096 + tag) = some o → o.use = .erase n i →
    held ≤ s.dev.fget Reg.TTH_OWN.CLAIM h.sled → Tab.look s.dev.stripe.bands n = some b → b.state = .erasing →
    b.chunks[i]? = some k → res ∉ [2, 9] →
    Acts (.tetherResp h tag res temp exec held) s fun d => Tab.look d.media.ops (h.sled * 4096 + tag) = none ∧
      (∃ b', Tab.look d.stripe.bands n = some b' ∧ b'.erased = b.erased + 1 ∧ b'.state = .erasing) ∧
      d.stripe.erasedBlocks = (if res = 0 ∧ s.dev.blkPE k < ((s.dev.sled (k.group / 8)).map (·.peRated)).getD 0 then
        s.dev.stripe.erasedBlocks ++ [k] else s.dev.stripe.erasedBlocks)) ∧
  (∀ (s : State) (h : RxHdr) (tag temp exec held k : Nat) (o x : NandOp) (g1 : Bool), s.live = true →
    s.dev.rxNext h = true → s.dev.media.ops = [(h.sled * 4096 + tag, o), (k, x)] → k ≠ h.sled * 4096 + tag →
    k / 4096 = h.sled → x.channel = o.channel → x.die = o.die → x.opcode = 3 → o.use = .suspend g1 → o.opcode = 5 →
    held ≤ s.dev.fget Reg.TTH_OWN.CLAIM h.sled →
    Acts (.tetherResp h tag 0 temp exec held) s fun d =>
      d.media.ops = [(k, { x with suspended := true, ran := x.ran + (s.dev.now - x.runSince) })]) ∧
  (∀ (s : State) (h : RxHdr) (tag temp exec held k : Nat) (o x : NandOp), s.live = true →
    s.dev.rxNext h = true → s.dev.media.ops = [(h.sled * 4096 + tag, o), (k, x)] → k ≠ h.sled * 4096 + tag →
    k / 4096 = h.sled → x.channel = o.channel → x.die = o.die → x.opcode = 4 → o.use = .resume → o.opcode = 6 →
    held ≤ s.dev.fget Reg.TTH_OWN.CLAIM h.sled →
    Acts (.tetherResp h tag 0 temp exec held) s fun d =>
      d.media.ops = [(k, { x with suspended := false, runSince := s.dev.now })]) ∧
  (∀ (s : State) (c : Instr) (h : RxHdr) (tag res temp exec held : Nat) (pass : Bool) (cw : Codeword), s.live = true →
    c ∈ [Instr.tetherResp h tag res temp exec held, .tetherRdata h tag pass cw] → s.dev.rxNext h = true →
    Tab.look s.dev.media.ops (h.sled * 4096 + tag) = none → Settles c s (s.dev.received h)) ∧
  (∀ (s : State) (h : RxHdr) (tag j i l : Nat) (g1 : Bool) (o : NandOp) (job : ReadJob) (u : JobUnit) (cw : Codeword),
    s.live = true → s.dev.rxNext h = true → Tab.look s.dev.media.ops (h.sled * 4096 + tag) = some o →
    o.use = .read j i l g1 → Tab.look s.dev.media.jobs j = some job → job.units[i]? = some u →
    Acts (.tetherRdata h tag true cw) s fun d => ∃ job', Tab.look d.media.jobs j = some job' ∧
      job'.units = job.units.set i { u with decoded := true, rec_ := cw.rec_, data := cw.data } ∧
      d.media.ops = s.dev.media.ops) ∧
  (∀ (s : State) (h : RxHdr) (tag j i l : Nat) (g1 : Bool) (o : NandOp) (job : ReadJob) (u : JobUnit) (cw : Codeword),
    s.live = true → s.dev.rxNext h = true → Tab.look s.dev.media.ops (h.sled * 4096 + tag) = some o →
    o.use = .read j i l g1 → Tab.look s.dev.media.jobs j = some job → job.units[i]? = some u → u.level < 3 →
    Acts (.tetherRdata h tag false cw) s fun d => ∃ job', Tab.look d.media.jobs j = some job' ∧
      job'.units = job.units.set i { u with level := u.level + 1, decoded := false } ∧
      d.media.reqs = s.dev.media.reqs ++ [if u.level = 0 then readReq j i 1 (job.grade = 1) u.entry else
        { readReq j i (u.level + 1) (job.grade = 1) u.entry with opcode := 2, opt := (if u.level = 1 then 2 else 6) }] ∧
      (u.level = 0 → d.fget Reg.MDA_DECODE.L1 = (s.dev.fget Reg.MDA_DECODE.L1 + 1) % 2 ^ 16)) ∧
  (∀ (s : State) (h : RxHdr) (tag j i l : Nat) (g1 : Bool) (o : NandOp) (job : ReadJob) (u : JobUnit) (cw : Codeword),
    s.live = true → s.dev.rxNext h = true → Tab.look s.dev.media.ops (h.sled * 4096 + tag) = some o →
    o.use = .read j i l g1 → Tab.look s.dev.media.jobs j = some job → job.units[i]? = some u → 4 ≤ u.level →
    (job.units.zipIdx.all fun p => p.2 = i || p.1.done) = false →
    Acts (.tetherRdata h tag false cw) s fun d =>
      d.fget Reg.MDA_UNRECOV.COUNT = (s.dev.fget Reg.MDA_UNRECOV.COUNT + 1) % 2 ^ 32 ∧
      ∃ job', Tab.look d.media.jobs j = some job' ∧
        job'.units = job.units.set i { u with bad := true, done := true, level := 4 }) ∧
  (∀ (s : State) (h : RxHdr) (tag j i pos n : Nat) (o : NandOp) (job : ReadJob) (u : JobUnit) (b : Band) (cw : Codeword),
    s.live = true → s.dev.rxNext h = true → Tab.look s.dev.media.ops (h.sled * 4096 + tag) = some o →
    o.use = .rebuild j i pos → Tab.look s.dev.media.jobs j = some job → job.units[i]? = some u →
    s.dev.bandOf u.entry = some (n, b) → (Tab.put u.rebuilt pos cw).length < b.k → 2 ≤ u.rebuildLeft → u.decoded = false →
    Acts (.tetherRdata h tag true cw) s fun d => ∃ job', Tab.look d.media.jobs j = some job' ∧
      job'.units = job.units.set i { u with rebuildLeft := u.rebuildLeft - 1, rebuilt := (Tab.put u.rebuilt pos cw) }) ∧
  (∀ (s : State) (n tag j i l : Nat) (g1 : Bool) (o : NandOp) (job : ReadJob) (u : JobUnit), s.live = true →
    Tab.look s.dev.media.ops (n * 4096 + tag) = some o → s.dev.overdue n o = true → o.use = .read j i l g1 →
    Tab.look s.dev.media.jobs j = some job → job.units[i]? = some u → u.level = 0 →
    Acts (.nandOpTimeout n tag) s fun d => Tab.look d.media.ops (n * 4096 + tag) = none ∧
      d.fget Reg.TTH_OPS.TIMEOUTS n = (s.dev.fget Reg.TTH_OPS.TIMEOUTS n + 1) % 2 ^ 32 ∧
      (∃ job', Tab.look d.media.jobs j = some job' ∧ job'.units = job.units.set i { u with level := 1, decoded := false }) ∧
      d.media.reqs = s.dev.media.reqs ++ [readReq j i 1 (job.grade = 1) u.entry]) ∧
  (∀ (s : State) (n tag : Nat), s.live = true →
    ((Tab.look s.dev.media.ops (n * 4096 + tag)).any fun o => s.dev.overdue n o) = false →
    Settles (.nandOpTimeout n tag) s s.dev) ∧
  (∀ (s : State) (tag : Nat) (q : NandReq), s.live = true → s.dev.media.reqs = [q] → q.opcode = 1 →
    s.dev.canIssue q tag = true → (s.dev.window (q.sled * 8 + q.channel) s.dev.now).map (·.1) = some 0 →
    ((s.dev.dieOp q.sled q.channel q.die).all fun o => o.2.suspended) = true → s.dev.quiet = false →
    s.dev.slotFree q = true → s.dev.decoderUp = true →
    Acts (.nandReadIssue 0 tag) s fun d => d.media.reqs = [] ∧
      Tab.look d.media.ops (q.sled * 4096 + tag) = some { use := q.use, opcode := 1, channel := q.channel, die := q.die
                                                          plane := q.plane, block := q.block, page := q.page
                                                          issued := s.dev.now, runSince := s.dev.now } ∧
      (d.link q.sled).opCredits + 1 = (s.dev.link q.sled).opCredits ∧
      (d.link q.sled).unacked.length = (s.dev.link q.sled).unacked.length + 1) ∧
  (∀ (s : State) (n tag : Nat), s.live = true → ((s.dev.media.reqs[n]?).any fun q => decide (q.opcode = 1 ∨ q.opcode = 2) &&
      s.dev.canIssue q tag && !s.dev.quiet && s.dev.slotFree q && s.dev.decoderUp) = false →
    Settles (.nandReadIssue n tag) s s.dev) ∧
  (∀ (s : State) (tag b c : Nat) (q : NandReq) (r : SledRec), s.live = true → s.dev.media.reqs = [q] → q.opcode = 4 →
    q.use = .erase b c → s.dev.sled q.sled = some r → s.dev.canIssue q tag = true →
    (s.dev.window (q.sled * 8 + q.channel) s.dev.now).map (·.1) = some 2 →
    s.dev.windowMeets (q.sled * 8 + q.channel) 2 (r.tbersMax * 1000) ≤ r.susMax - r.g1Sus →
    s.dev.media.throttled.contains (q.sled * 128 + q.channel * 16 + q.die) = false →
    s.dev.dieOp q.sled q.channel q.die = none → s.dev.quiet = false →
    Acts (.nandProgramIssue 0 tag) s fun d => d.media.reqs = [] ∧
      Tab.look d.media.ops (q.sled * 4096 + tag) = some { use := .erase b c, opcode := 4, channel := q.channel, die := q.die
                                                          plane := q.plane, block := q.block, page := q.page
                                                          issued := s.dev.now, runSince := s.dev.now } ∧
      (d.link q.sled).opCredits + 1 = (s.dev.link q.sled).opCredits) ∧
  (∀ (s : State) (tag st ch : Nat) (q : NandReq) (r : SledRec) (x : Stripe) (b : Band), s.live = true →
    s.dev.media.reqs = [q] → q.opcode = 3 → q.use = .program st ch → s.dev.sled q.sled = some r →
    s.dev.canIssue q tag = true → (s.dev.window (q.sled * 8 + q.channel) s.dev.now).map (·.1) = some 1 →
    s.dev.windowMeets (q.sled * 8 + q.channel) 1 (r.tprogMax * 1000) ≤ r.susMax - r.g1Sus →
    s.dev.media.throttled.contains (q.sled * 128 + q.channel * 16 + q.die) = false →
    s.dev.dieOp q.sled q.channel q.die = none → s.dev.quiet = false →
    (q.page ≠ 0 ∨ bitOf (s.dev.blkFlags q.chunk) 3 = true) → 4 ≤ (s.dev.link q.sled).dataCredits →
    Tab.look s.dev.stripe.stripes st = some x → Tab.look s.dev.stripe.bands x.band = some b →
    Acts (.nandProgramIssue 0 tag) s fun d => d.media.reqs = [] ∧
      (Tab.look d.media.ops (q.sled * 4096 + tag)).map (·.use) = some (.program st ch) ∧
      (d.link q.sled).opCredits + 1 = (s.dev.link q.sled).opCredits ∧
      (d.link q.sled).dataCredits + 4 = (s.dev.link q.sled).dataCredits ∧
      ∃ f g, (d.link q.sled).unacked = (s.dev.link q.sled).unacked ++ [f, g] ∧ f.typ = 2 ∧
        f.page = s.dev.chunkPage x b ch ∧ g.typ = 1) ∧
  (∀ (s : State) (n tag : Nat), s.live = true →
    ((s.dev.media.reqs[n]?).any fun q => decide (q.opcode = 3 ∨ q.opcode = 4) && s.dev.canIssue q tag &&
      decide (q.opcode = 4 ∨ 4 ≤ (s.dev.link q.sled).dataCredits)) = false →
    Settles (.nandProgramIssue n tag) s s.dev) ∧
  (∀ (s : State) (n ch die tag k b c : Nat) (o : NandOp) (r : SledRec), s.live = true → s.dev.media.ops = [(k, o)] →
    s.dev.dieOp n ch die = some (k, o) → s.dev.sled n = some r → o.suspended = false → o.use = .erase b c →
    s.dev.g1May n ch die s.dev.now = true →
    s.dev.canIssue { use := .suspend true, opcode := 5, sled := n, channel := ch, die := die, plane := o.plane, block := 0,
                     page := 0 } tag = true →
    Acts (.mediaSuspendSend n ch die tag true) s fun d =>
      Tab.look d.media.ops k = some { o with g1 := o.g1 + 1, suspAt := s.dev.now } ∧
      (∃ p, Tab.look d.media.ops (n * 4096 + tag) = some p ∧ p.use = .suspend true ∧ p.opcode = 5) ∧
      d.fget Reg.MDA_SUSP.G1 = (s.dev.fget Reg.MDA_SUSP.G1 + 1) % 2 ^ 32) ∧
  (∀ (s : State) (n ch die tag k b c kind rest : Nat) (o : NandOp) (r : SledRec), s.live = true →
    s.dev.media.ops = [(k, o)] → s.dev.dieOp n ch die = some (k, o) → s.dev.sled n = some r → o.suspended = false →
    o.use = .program b c → o.sched + o.g1 < r.susMax → s.dev.window (n * 8 + ch) s.dev.now = some (kind, rest) → kind ≠ 0 →
    rest ≤ r.tsusMax * 100 →
    s.dev.canIssue { use := .suspend false, opcode := 5, sled := n, channel := ch, die := die, plane := o.plane, block := 0,
                     page := 0 } tag = true →
    Acts (.mediaSuspendSend n ch die tag false) s fun d =>
      Tab.look d.media.ops k = some { o with sched := o.sched + 1, suspAt := s.dev.now } ∧
      (∃ p, Tab.look d.media.ops (n * 4096 + tag) = some p ∧ p.use = .suspend false ∧ p.opcode = 5) ∧
      d.fget Reg.MDA_SUSP.SCHEDULED = (s.dev.fget Reg.MDA_SUSP.SCHEDULED + 1) % 2 ^ 32) ∧
  (∀ (s : State) (n ch die tag : Nat) (g1 : Bool), s.live = true →
    (s.dev.sled n = none ∨ ((s.dev.dieOp n ch die).any fun o => !o.2.suspended && !o.2.use.isDump) = false ∨
      g1 = true ∧ s.dev.g1May n ch die s.dev.now = false) →
    Settles (.mediaSuspendSend n ch die tag g1) s s.dev) ∧
  (∀ (s : State) (n ch die tag k : Nat) (o : NandOp), s.live = true → s.dev.media.ops = [(k, o)] →
    s.dev.dieOp n ch die = some (k, o) → o.suspended = true →
    (s.dev.window (n * 8 + ch) s.dev.now).map (·.1) ≠ some 0 → s.dev.quiet = false →
    (s.dev.ledger.adms.any fun a => a.2.slots.any fun x => x.plane / 4 = (n * 8 + ch) * 16 + die &&
      decide (s.dev.now < x.stop ∧ x.start ≤ max s.dev.now (o.suspAt + 20000))) = false →
    s.dev.canIssue { use := .resume, opcode := 6, sled := n, channel := ch, die := die, plane := o.plane, block := 0,
                     page := 0 } tag = true →
    Acts (.mediaResumeSend n ch die tag) s fun d => ∃ p, Tab.look d.media.ops (n * 4096 + tag) = some p ∧ p.use = .resume ∧
      p.opcode = 6 ∧ Tab.look d.media.ops k = some o) ∧
  (∀ (s : State) (n ch die tag : Nat), s.live = true → (((s.dev.dieOp n ch die).any fun o => o.2.suspended) = false ∨
      (s.dev.window (n * 8 + ch) s.dev.now).map (·.1) = some 0 ∨ s.dev.quiet = true) →
    Settles (.mediaResumeSend n ch die tag) s s.dev) ∧
  (∀ (s : State) (n : Nat) (r : SledRec), s.live = true → n < 24 → s.dev.fget Reg.MDA_SLED_RELOAD.BUSY = 0 →
    s.dev.on 0x16 = true → s.dev.readSled n = .ok (some r) → s.dev.linkUp n = true →
    Acts (.mdaSledReload n) s fun d => d.sled n = some r ∧
      d.sledState n = (if s.dev.sledState n = 1 then 0 else s.dev.sledState n) ∧
      d.fget Reg.MDA_SLED_RELOAD.RESULT = 0 ∧ d.media.needReload.contains n = false ∧
      Tab.look d.stripe.absentSince n = none) ∧
  (∀ (s : State) (n : Nat) (r : SledRec), s.live = true → n < 24 → s.dev.fget Reg.MDA_SLED_RELOAD.BUSY = 0 →
    s.dev.on 0x16 = true → s.dev.readSled n = .ok (some r) → s.dev.linkUp n = false →
    Acts (.mdaSledReload n) s fun d => d.sled n = some r ∧ d.sledState n = s.dev.sledState n ∧
      d.fget Reg.MDA_SLED_RELOAD.RESULT = 0 ∧ d.media.needReload = s.dev.media.needReload) ∧
  (∀ (s : State) (n : Nat), s.live = true → n < 24 → s.dev.fget Reg.MDA_SLED_RELOAD.BUSY = 0 →
    s.dev.on 0x16 = true → s.dev.readSled n = .ok none →
    Acts (.mdaSledReload n) s fun d => d.sled n = none ∧ d.fget Reg.MDA_SLED_RELOAD.RESULT = 0) ∧
  (∀ (s : State) (n e : Nat), s.live = true → n < 24 → s.dev.fget Reg.MDA_SLED_RELOAD.BUSY = 0 → s.dev.on 0x16 = true →
    s.dev.readSled n = .error e → e < 256 →
    Acts (.mdaSledReload n) s fun d => d.media = s.dev.media ∧ d.fget Reg.MDA_SLED_RELOAD.RESULT = e) ∧
  (∀ (s : State) (n : Nat), s.live = true →
    (s.dev.fget Reg.MDA_SLED_RELOAD.BUSY = 1 ∨ s.dev.on 0x16 = false ∨ 24 ≤ n) → Settles (.mdaSledReload n) s s.dev) ∧
  (∀ (s : State) (t : GateTab) (at_ : Nat), s.live = true → s.dev.media.nextGates = some (t, at_) → at_ ≤ s.dev.now →
    at_ < 2 ^ 64 → (s.dev.inst 0x16 0).swapReady = false → (s.dev.inst 0x16 0).heldDisable = false →
    Acts .mediaGateListStart s fun d => d.media = { s.dev.media with gates := t, nextGates := none } ∧
      d.fget Reg.MDA_GL_START.NS = at_) ∧
  (∀ (s : State), s.live = true → (s.dev.media.nextGates.any fun p => decide (p.2 ≤ s.dev.now)) = false →
    (s.dev.inst 0x16 0).heldDisable = false → Settles .mediaGateListStart s s.dev)

/-- STRIPE's bands and sleds (R267 to R269, R271 to R279, R281, R282). An idle open stripe closes and its chunks wait to be
programmed; a sled absent past its grace, or declared, is FAILED: its chunks are LOST and its bands get rebuild items, and a
band beyond its parity is reported; a retired sled whose record is loaded again gives its blocks back, but for those marked
BAD; a FAILED sled that no band uses is RETIRED; a millisecond below FREE_CRIT the closed band of fewest valid units becomes a
victim; an empty victim erases, one of the map streams only once a later checkpoint stands, and with its last erase the band
is gone; an old band gets a retention item. Each does nothing when its condition is not met. -/
def Obligations.BandsAndSleds : Prop :=
  (∀ (s : State) (stream id : Nat) (x : Stripe) (b : Band), s.live = true →
    Tab.look s.dev.stripe.streams stream = some id → Tab.look s.dev.stripe.stripes id = some x → x.slots ≠ [] →
    x.last + s.dev.fget Reg.STRIPE_FILL.US * 1000 ≤ s.dev.now → Tab.look s.dev.stripe.bands x.band = some b →
    Acts (.openStripeIdleClose stream) s fun d => (∃ y, Tab.look d.stripe.stripes id = some y ∧ y.full = true ∧
        y.slots = x.slots ++ List.replicate (4 * b.k - x.slots.length) .empty ∧ y.passed = x.passed) ∧
      (∀ p ∈ d.stripe.streams, p.2 ≠ id) ∧
      d.media.reqs = s.dev.media.reqs ++ (b.chunks.zipIdx.map fun c =>
        { use := (if x.dump then .dump id c.2 else .program id c.2), opcode := 3, sled := c.1.group / 8,
          channel := c.1.group % 8, die := c.1.die, plane := c.1.plane, block := c.1.block, page := x.page })) ∧
  (∀ (s : State) (stream : Nat), s.live = true →
    (((Tab.look s.dev.stripe.streams stream).bind fun id => Tab.look s.dev.stripe.stripes id).any fun x =>
      !x.slots.isEmpty && decide (x.last + s.dev.fget Reg.STRIPE_FILL.US * 1000 ≤ s.dev.now)) = false →
    Settles (.openStripeIdleClose stream) s s.dev) ∧
  (∀ (s : State) (c : Instr) (n t k : Nat) (b : Band), s.live = true →
    c ∈ [Instr.sledGraceExpiry n, .sledDeclareFailed n] → n < 24 → Tab.look s.dev.stripe.absentSince n = some t →
    s.dev.sledState n = 1 → t + s.dev.fget Reg.STRIPE_REBUILD.GRACE_S * 1000000000 ≤ s.dev.now →
    s.dev.stripe.bands = [(k, b)] → b.item = none → b.chunks.any (fun c => c.group / 8 = n && !c.lost) = true →
    Acts c s fun d => d.sledState n = 2 ∧ d.fget Reg.STRIPE_REBUILD.BANDS_LEFT = 1 ∧
      (∃ b', Tab.look d.stripe.bands k = some b' ∧ b'.item = some 2 ∧
        b'.chunks = b.chunks.map fun c => if c.group / 8 = n then { c with lost := true } else c) ∧
      (if (b.chunks.filter fun c => c.lost || decide (c.group / 8 = n)).length ≤ b.m then
        d.fget Reg.STRIPE_LOSS.UNITS = s.dev.fget Reg.STRIPE_LOSS.UNITS else (d.inst 0x15 0).err.getLsbD 9 = true)) ∧
  (∀ (s : State) (n : Nat), s.live = true → (s.dev.sledState n ≠ 1 ∨ (Tab.look s.dev.stripe.absentSince n).any (fun t =>
      decide (t + s.dev.fget Reg.STRIPE_REBUILD.GRACE_S * 1000000000 ≤ s.dev.now)) = false) →
    Settles (.sledGraceExpiry n) s s.dev) ∧
  (∀ (s : State) (n : Nat), s.live = true → n < 24 → (s.dev.sledState n = 0 ∨ s.dev.sledState n = 1) →
    s.dev.stripe.bands = [] →
    Acts (.sledDeclareFailed n) s fun d => d.sledState n = 2 ∧ d.fget Reg.STRIPE_REBUILD.BANDS_LEFT = 0 ∧
      Tab.look d.stripe.models n = some (s.dev.fget Reg.TTH_IDENT.MODEL n) ∧ d.media.needReload.contains n = true) ∧
  (∀ (s : State) (n : Nat), s.live = true → (24 ≤ n ∨ s.dev.sledState n = 2 ∨ s.dev.sledState n = 3) →
    Acts (.sledDeclareFailed n) s fun d => (d.inst 0x15 0).err.getLsbD errAccess = true ∧
      d.sledState n = s.dev.sledState n ∧ d.stripe = s.dev.stripe) ∧
  (∀ (s : State) (n : Nat) (r : SledRec), s.live = true → n < 24 → s.dev.sled n = some r → s.dev.sledState n = 3 →
    s.dev.media.needReload.contains n = false → Tab.look s.dev.stripe.models n = some (s.dev.fget Reg.TTH_IDENT.MODEL n) →
    Acts (.sledReturn n) s fun d => d.sledState n = 0 ∧
      ∀ c, c ∈ d.stripe.free ↔ (c ∈ s.dev.stripe.free ∧ c.group / 8 ≠ n) ∨ (c.group / 8 = n ∧
        bitOf r.channels (c.group % 8) = true ∧ s.dev.owns n (c.group % 8) = true ∧ c.die < r.dies ∧ c.plane < r.planes ∧
        c.block < r.blocks ∧ c.lost = false ∧ bitOf (s.dev.blkFlags c) 0 = false)) ∧
  (∀ (s : State) (n : Nat) (r : SledRec), s.live = true → n < 24 → s.dev.sled n = some r → s.dev.sledState n = 3 →
    s.dev.media.needReload.contains n = false →
    Acts (.sledReturn n) s fun d => d.sledState n = 0 ∧
      ∀ c ∈ d.stripe.free, c.group / 8 = n → s.dev.owns n (c.group % 8) = true ∧ bitOf (d.blkFlags c) 0 = false) ∧
  (∀ (s : State) (n : Nat), s.live = true → (s.dev.sledState n ≠ 3 ∨ s.dev.sled n = none ∨
      s.dev.media.needReload.contains n = true) →
    Acts (.sledReturn n) s fun d => (d.inst 0x15 0).err.getLsbD errAccess = true ∧ d.stripe = s.dev.stripe) ∧
  (∀ (s : State) (n : Nat), s.live = true → n < 24 → s.dev.sledState n = 2 →
    s.dev.stripe.bands.any (fun p => p.2.chunks.any fun c => c.group / 8 = n) = false →
    Acts (.sledRetired n) s fun d => d.sledState n = 3 ∧ d.fget Reg.STRIPE_REBUILD.BANDS_LEFT = 0 ∧
      d.stripe = s.dev.stripe) ∧
  (∀ (s : State) (n : Nat), s.live = true → (s.dev.sledState n ≠ 2 ∨
      s.dev.stripe.bands.any (fun p => p.2.chunks.any fun c => c.group / 8 = n) = true) →
    Settles (.sledRetired n) s s.dev) ∧
  (∀ (s : State) (n t : Nat) (b : Band), s.live = true → s.dev.stripe.critSince = some t →
    max t s.dev.stripe.lastVictim + 1000000 ≤ s.dev.now → s.dev.stripe.bands = [(n, b)] → b.state = .closed →
    b.item = none → (b.ofMap = false ∨ b.valid = 0) →
    Acts .gcAutoSelect s fun d => d.stripe.lastVictim = s.dev.now ∧
      ∃ b', Tab.look d.stripe.bands n = some b' ∧ b'.state = .victim ∧ b'.item = some 1 ∧ b'.chunks = b.chunks ∧
        b'.valid = b.valid ∧ b'.ckptAt = s.dev.jnl.ckptDone) ∧
  (∀ (s : State), s.live = true → (s.dev.stripe.critSince.any (fun t =>
      decide (max t s.dev.stripe.lastVictim + 1000000 ≤ s.dev.now)) = false ∨
      s.dev.stripe.bands.any (fun p => decide (p.2.state = .closed)) = false) → Settles .gcAutoSelect s s.dev) ∧
  (∀ (s : State) (n : Nat) (b : Band), s.live = true → Tab.look s.dev.stripe.bands n = some b → b.state = .victim →
    b.valid = 0 → s.dev.bandHeld n = false → s.dev.jnl.pend = [] → s.dev.jnl.waits = [] → s.dev.bandBusy n = false →
    (b.ofMap = false ∨ b.ckptAt < s.dev.jnl.ckptDone ∧ b.chunks.any (fun c => c.has (s.dev.jnl.sbField 24 5)) = false) →
    Acts (.gcEraseIssue n) s fun d =>
      Tab.look d.stripe.bands n = some { b with
        state := .erasing, erased := (b.chunks.zipIdx.filter fun c => c.1.lost || b.failed.contains c.2).length } ∧
      d.media.reqs = s.dev.media.reqs ++ ((b.chunks.zipIdx.filter fun c => !(c.1.lost || b.failed.contains c.2)).map fun c =>
        { use := .erase n c.2, opcode := 4, sled := c.1.group / 8, channel := c.1.group % 8, die := c.1.die,
          plane := c.1.plane, block := c.1.block, page := 0 })) ∧
  (∀ (s : State) (n : Nat), s.live = true → ((Tab.look s.dev.stripe.bands n).any fun b => decide (b.state = .victim) &&
      decide (b.valid = 0) && !s.dev.bandHeld n && !s.dev.bandBusy n &&
      (!b.ofMap || decide (b.ckptAt < s.dev.jnl.ckptDone))) = false → Settles (.gcEraseIssue n) s s.dev) ∧
  (∀ (s : State) (n : Nat) (b : Band), s.live = true → Tab.look s.dev.stripe.bands n = some b → b.state = .erasing →
    b.chunks.length ≤ b.erased →
    Acts (.gcEraseDone n) s fun d => Tab.look d.stripe.bands n = none ∧
      (∀ m, m ≠ n → Tab.look d.stripe.bands m = Tab.look s.dev.stripe.bands m) ∧
      (∀ p ∈ d.map.stale, p.band ≠ n) ∧ (∀ p ∈ d.stripe.items, p.2 ≠ n) ∧
      d.fget Reg.STRIPE_GCSTAT.ERASED = (s.dev.fget Reg.STRIPE_GCSTAT.ERASED + 1) % 2 ^ 32) ∧
  (∀ (s : State) (n : Nat), s.live = true → ((Tab.look s.dev.stripe.bands n).any fun b => decide (b.state = .erasing) &&
      decide (b.chunks.length ≤ b.erased)) = false → Settles (.gcEraseDone n) s s.dev) ∧
  (∀ (s : State) (n : Nat) (b : Band), s.live = true → Tab.look s.dev.stripe.bands n = some b → b.state = .closed →
    b.since + s.dev.fget Reg.STRIPE_RELOC.RETAIN_DAYS * 86400000000000 ≤ s.dev.now → b.item = none →
    Acts (.retentionExpiry n) s fun d => Tab.look d.stripe.bands n = some { b with item := some 4 } ∧
      Tab.look d.stripe.items s.dev.stripe.nextItem = some n) ∧
  (∀ (s : State) (n : Nat), s.live = true → ((Tab.look s.dev.stripe.bands n).any fun b => decide (b.state = .closed) &&
      decide (b.since + s.dev.fget Reg.STRIPE_RELOC.RETAIN_DAYS * 86400000000000 ≤ s.dev.now) && b.item.isNone) = false →
    Settles (.retentionExpiry n) s s.dev)

/-- The power-fail sequence and the dump (R288 to R290, R427, R457, R458, R460). A fall starts the filter, and a rise before
it passes is a glitch and nothing else; past the filter the unit is quiesced, its programs and erases are suspended and its
reads abandoned; the dump discards what was landing and marks its directory, and its end marks it again and stops the beats;
with power back and AUTO_WARM the unit resets, and a unit dumped on a fault keeps its storage blocks in safe state. Each does
nothing in another state of the sequence. -/
def Obligations.PowerFailDump : Prop :=
  (∀ (s : State), s.live = true → (s.dev.camp.pfail = .idle ∨ s.dev.camp.pfail = .done ∧ s.dev.camp.unitDump = true) →
    Settles .pfailFall s { s.dev with camp := { s.dev.camp with pfailN := false, pfail := .filtering } }) ∧
  (∀ (s : State), s.live = true → (s.dev.camp.pfail ∈ [.filtering, .quiesced, .dumping] ∨
      s.dev.camp.pfail = .done ∧ s.dev.camp.unitDump = false) →
    Settles .pfailFall s { s.dev with camp := { s.dev.camp with pfailN := false } }) ∧
  (∀ (s : State) (c : Instr), s.live = true → c ∈ [Instr.pfailGlitch, .pfailRise] → s.dev.camp.pfail = .filtering →
    Acts c s fun d => d.camp = { s.dev.camp with pfailN := true, pfail := .idle } ∧
      d.fget Reg.CAMP_PFAIL_REC.GLITCHES = min (s.dev.fget Reg.CAMP_PFAIL_REC.GLITCHES + 1) 65535 ∧
      d.fget Reg.CAMP_PFAIL_REC.EVENTS = s.dev.fget Reg.CAMP_PFAIL_REC.EVENTS ∧
      (d.inst 0 0).err.getLsbD 10 = true ∧ d.media = s.dev.media ∧ d.map = s.dev.map) ∧
  (∀ (s : State), s.live = true → s.dev.camp.pfail ≠ .filtering → Settles .pfailGlitch s s.dev) ∧
  (∀ (s : State), s.live = true → s.dev.camp.pfail = .filtering → s.dev.on 0x14 = true →
    Acts .pfailFilterPass s fun d => d.camp = { s.dev.camp with pfail := .quiesced, unitDump := false } ∧
      d.fget Reg.CAMP_PFAIL_REC.EVENTS = min (s.dev.fget Reg.CAMP_PFAIL_REC.EVENTS + 1) 65535 ∧
      d.fget Reg.CAMP_PFAIL_NS.NS = s.dev.now % 2 ^ 64 ∧ d.media.reqs = [] ∧
      (∀ o ∈ d.media.ops, (o.2.opcode = 3 ∨ o.2.opcode = 4) ∧ o.2.suspended = true) ∧ d.quiet = true) ∧
  (∀ (s : State), s.live = true → s.dev.camp.pfail = .filtering → s.dev.on 0x14 = false →
    Acts .pfailFilterPass s fun d => d.camp = { s.dev.camp with pfail := .done, unitDump := false } ∧
      d.media = s.dev.media ∧ d.fget Reg.CAMP_PFAIL_NS.NS = s.dev.now % 2 ^ 64) ∧
  (∀ (s : State), s.live = true → s.dev.camp.pfail ≠ .filtering → Settles .pfailFilterPass s s.dev) ∧
  (∀ (s : State), s.live = true → s.dev.camp.pfail = .quiesced →
    Acts .dumpStart s fun d => d.camp.pfail = .dumping ∧ d.fget Reg.CAMP_PFAIL_REC.LAST_US = 0xFFFFFFFF ∧
      d.jnl.mram.read 0x2000 4 = 0x504D5544 ∧ d.jnl.mram.read 0x2004 1 = 1 ∧
      (∀ p ∈ d.map.staging, p.2.state ≠ .landing) ∧
      (∀ p ∈ s.dev.map.staging, p.2.state ≠ .landing → p ∈ d.map.staging)) ∧
  (∀ (s : State) (i n : Nat) (u : SUnit) (b : Band) (c : Chunk), s.live = true → s.dev.camp.pfail = .quiesced →
    s.dev.map.staging = [(i, u)] → u.state ∈ [.held, .dirty, .placing] → u.superseded = none →
    s.dev.stripe.bands = [(n, b)] → b.state = .dump → 1 ≤ s.dev.fget Reg.STRIPE_DUMP.BANDS → b.chunks = [c] → 1 ≤ b.k →
    s.dev.media.reqs = [] →
    Acts .dumpStart s fun d => d.stripe.dumpOwn = 1 ∧ d.stripe.dumpMirror = 0 ∧
      d.media.reqs = [{ use := .dump s.dev.stripe.nextStripe 0, opcode := 3, sled := c.group / 8, channel := c.group % 8,
                        die := c.die, plane := c.plane, block := c.block, page := b.nextPage }] ∧
      (∃ x, Tab.look d.stripe.stripes s.dev.stripe.nextStripe = some x ∧ x.dump = true ∧ x.slots.head? = some (.unit i))) ∧
  (∀ (s : State), s.live = true → s.dev.camp.pfail ≠ .quiesced → Settles .dumpStart s s.dev) ∧
  (∀ (s : State), s.live = true → s.dev.camp.pfail = .dumping → s.dev.media.reqs.any (·.use.isDump) = false →
    s.dev.media.ops.any (·.2.use.isDump) = false → (s.dev.camp.pfailN = false ∨ s.dev.camp.unitDump = true ∨
      s.dev.fget Reg.CAMP_PFAIL_CFG.AUTO_WARM = 0) →
    Acts .dumpEnd s fun d => d.camp = { s.dev.camp with pfail := .done } ∧ d.belay.beating = false ∧
      d.fget Reg.CAMP_PFAIL_REC.LAST_US = (s.dev.now - s.dev.fget Reg.CAMP_PFAIL_NS.NS) / 1000 % 2 ^ 32 ∧
      d.jnl.mram.read 0x2004 1 = 2 ∧
      (s.dev.camp.unitDump = true → ∀ b ∈ dumpBlocks, (d.inst b 0).safe = true)) ∧
  (∀ (s : State), s.live = true → s.dev.camp.pfail = .dumping → s.dev.media.reqs.any (·.use.isDump) = false →
    s.dev.media.ops.any (·.2.use.isDump) = false → s.dev.camp.pfailN = true → s.dev.camp.unitDump = false →
    s.dev.fget Reg.CAMP_PFAIL_CFG.AUTO_WARM = 1 →
    Acts .dumpEnd s fun d => d.fget Reg.CAMP_RST_CAUSE.PFAIL = 1 ∧ d.camp.unitDump = false ∧ d.map.staging = [] ∧
      d.belay.beating = false ∧ (d.inst 0x14 0).enabled = false ∧
      d.fget Reg.CAMP_PFAIL_NS.NS = s.dev.fget Reg.CAMP_PFAIL_NS.NS) ∧
  (∀ (s : State), s.live = true → (s.dev.camp.pfail ≠ .dumping ∨
      s.dev.media.reqs.any (·.use.isDump) = true ∨ s.dev.media.ops.any (·.2.use.isDump) = true) →
    Settles .dumpEnd s s.dev) ∧
  (∀ (s : State), s.live = true → s.dev.camp.pfail = .done → s.dev.camp.unitDump = false →
    s.dev.fget Reg.CAMP_PFAIL_CFG.AUTO_WARM = 1 →
    Settles .pfailRise s (Dev.warmReset { s.dev with camp := { s.dev.camp with pfailN := true } }
      Reg.CAMP_RST_CAUSE.PFAIL)) ∧
  (∀ (s : State), s.live = true → s.dev.camp.pfail ≠ .filtering → (s.dev.camp.pfail ≠ .done ∨
      s.dev.camp.unitDump = true ∨ s.dev.fget Reg.CAMP_PFAIL_CFG.AUTO_WARM = 0) →
    Settles .pfailRise s { s.dev with camp := { s.dev.camp with pfailN := true } })

/-- Frames that a sub-port receives (R296 to R299, R306, R308, R309, R313, R314, R349, R351 to R353, R368). A bad, short, long
or control frame is dropped and counted, with its FEC codewords; one on a link that is down is not there; one that PARSE sends
round again waits for its second pass; an exception of PARSE or of CLASS is counted and gives up its place, with a copy to
Warden's ring where that is asked for; a frame whose action is DROP is dropped, one for a transport joins its pipeline's
ingress queue, and one behind an earlier frame of its sub-port waits for it; a link that comes up or goes down is shown. -/
def Obligations.FrameReception : Prop :=
  (∀ (s : State) (port corr uncorr : Nat) (bytes : List Byte) (ect : Bool), s.live = true → port < 16 →
    s.dev.on 8 (port / 4) = true → bitOf (s.dev.fget Reg.PRT_LINK.UP (port / 4)) (port % 4) = true →
    Acts (.frameReceive port bytes false ect corr uncorr) s fun d =>
      d.fget Reg.PRT_DROP.FCS (port / 4) = min (s.dev.fget Reg.PRT_DROP.FCS (port / 4) + 1) 65535 ∧
      d.fget Reg.PRT_FEC.CORR (port / 4) = (s.dev.fget Reg.PRT_FEC.CORR (port / 4) + corr) % 2 ^ 32 ∧
      d.fget Reg.PRT_FEC.UNCORR (port / 4) = (s.dev.fget Reg.PRT_FEC.UNCORR (port / 4) + uncorr) % 2 ^ 32 ∧
      d.cls = s.dev.cls ∧ d.swt = s.dev.swt ∧ d.tally = s.dev.tally) ∧
  (∀ (s : State) (port corr uncorr : Nat) (bytes : List Byte) (ect : Bool), s.live = true → port < 16 →
    s.dev.on 8 (port / 4) = true → bitOf (s.dev.fget Reg.PRT_LINK.UP (port / 4)) (port % 4) = true → bytes.length < 64 →
    Acts (.frameReceive port bytes true ect corr uncorr) s fun d =>
      d.fget Reg.PRT_DROP.RUNT (port / 4) = min (s.dev.fget Reg.PRT_DROP.RUNT (port / 4) + 1) 65535 ∧
      d.cls = s.dev.cls ∧ d.swt = s.dev.swt) ∧
  (∀ (s : State) (port corr uncorr : Nat) (bytes : List Byte) (ect : Bool), s.live = true → port < 16 →
    s.dev.on 8 (port / 4) = true → bitOf (s.dev.fget Reg.PRT_LINK.UP (port / 4)) (port % 4) = true → 64 ≤ bytes.length →
    s.dev.fget Reg.PRT_CFG.MTU (port / 4) < bytes.length →
    Acts (.frameReceive port bytes true ect corr uncorr) s fun d =>
      d.fget Reg.PRT_DROP.OVERSIZE (port / 4) = min (s.dev.fget Reg.PRT_DROP.OVERSIZE (port / 4) + 1) 65535 ∧
      d.cls = s.dev.cls ∧ d.swt = s.dev.swt) ∧
  (∀ (s : State) (port corr uncorr : Nat) (bytes : List Byte) (ect : Bool), s.live = true → port < 16 →
    s.dev.on 8 (port / 4) = true → bitOf (s.dev.fget Reg.PRT_LINK.UP (port / 4)) (port % 4) = true → 64 ≤ bytes.length →
    bytes.length ≤ s.dev.fget Reg.PRT_CFG.MTU (port / 4) → bytes.getD 12 0 = 0x88 → bytes.getD 13 0 = 0x08 →
    Acts (.frameReceive port bytes true ect corr uncorr) s fun d =>
      d.fget Reg.PRT_DROP.CTRL (port / 4) = min (s.dev.fget Reg.PRT_DROP.CTRL (port / 4) + 1) 65535 ∧
      d.cls = s.dev.cls ∧ d.swt = s.dev.swt) ∧
  (∀ (s : State) (port corr uncorr : Nat) (bytes : List Byte) (good ect : Bool), s.live = true →
    (16 ≤ port ∨ s.dev.on 8 (port / 4) = false ∨ bitOf (s.dev.fget Reg.PRT_LINK.UP (port / 4)) (port % 4) = false) →
    Settles (.frameReceive port bytes good ect corr uncorr) s s.dev) ∧
  (∀ (s : State) (port corr uncorr : Nat) (bytes : List Byte) (ect : Bool) (w : Walk), s.live = true →
    s.dev.portTakes port bytes = true → s.dev.parsed port bytes = .recirculate w →
    Acts (.frameReceive port bytes true ect corr uncorr) s fun d =>
      d.cls.recirc = s.dev.cls.recirc ++ [{ w with second := true }] ∧ d.swt = s.dev.swt ∧
      d.fget Reg.PRS_STAT.FRAMES (port / 8) = (s.dev.fget Reg.PRS_STAT.FRAMES (port / 8) + 1) % 2 ^ 32) ∧
  (∀ (s : State) (port corr uncorr r : Nat) (bytes : List Byte) (ect : Bool) (w : Walk), s.live = true →
    s.dev.portTakes port bytes = true → s.dev.parsed port bytes = .exception r w → 1 ≤ r → r ≤ 5 → w.port = port →
    bitOf (s.dev.fget Reg.CLS_EXC.TO_WARDEN_P) (r - 1) = false →
    Acts (.frameReceive port bytes true ect corr uncorr) s fun d =>
      d.fget Reg.CLS_VERDICT.EXCEPTION (port / 8) = (s.dev.fget Reg.CLS_VERDICT.EXCEPTION (port / 8) + 1) % 2 ^ 32 ∧
      d.fget Reg.SWT_RESEQ.GAPS = (s.dev.fget Reg.SWT_RESEQ.GAPS + 1) % 2 ^ 32 ∧ d.swt = s.dev.swt ∧
      Tab.look d.cls.arrived port = some ((Tab.look s.dev.cls.arrived port).getD 0 + 1) ∧
      (r = 3 → d.fget Reg.PRS_EXC.TRUNCATED (port / 8) = min (s.dev.fget Reg.PRS_EXC.TRUNCATED (port / 8) + 1) 65535)) ∧
  (∀ (s : State) (port corr uncorr r n h : Nat) (bytes : List Byte) (ect : Bool) (w : Walk), s.live = true →
    s.dev.portTakes port bytes = true → s.dev.parsed port bytes = .exception r w → 1 ≤ r → r ≤ 5 → w.port = port →
    bitOf (s.dev.fget Reg.CLS_EXC.TO_WARDEN_P) (r - 1) = true → n = 2 ^ s.dev.fget Reg.CLS_WRING.LOG2 →
    h = s.dev.fget Reg.CLS_WRING_IDX.HEAD →
    Acts (.frameReceive port bytes true ect corr uncorr) s fun d =>
      d.fget Reg.CLS_VERDICT.EXCEPTION (port / 8) = (s.dev.fget Reg.CLS_VERDICT.EXCEPTION (port / 8) + 1) % 2 ^ 32 ∧
      d.fget Reg.SWT_RESEQ.GAPS = (s.dev.fget Reg.SWT_RESEQ.GAPS + 1) % 2 ^ 32 ∧ d.swt = s.dev.swt ∧
      (if (h + 1) % n = s.dev.fget Reg.CLS_WRING_IDX.TAIL % n then
          d.fget Reg.CLS_WRING_LOST.COUNT = (s.dev.fget Reg.CLS_WRING_LOST.COUNT + 1) % 2 ^ 32
        else d.fget Reg.CLS_WRING_IDX.HEAD = (h + 1) % n % 2 ^ 12 ∧
          d.mem.dram.byte (s.dev.fget Reg.CLS_WRING.ADDR * 4096 + 320 * h + 9) = BitVec.ofNat 8 r)) ∧
  (∀ (s : State) (port corr uncorr r : Nat) (bytes : List Byte) (ect : Bool) (w : Walk) (x : Desc), s.live = true →
    s.dev.portTakes port bytes = true → s.dev.parsed port bytes = .classify w → w.port = port →
    s.dev.verdict w.counted = (x, some r) → 16 ≤ r → bitOf (s.dev.fget Reg.CLS_EXC.TO_WARDEN_C) (r - 16) = false →
    Acts (.frameReceive port bytes true ect corr uncorr) s fun d =>
      d.fget Reg.CLS_VERDICT.EXCEPTION (port / 8) = (s.dev.fget Reg.CLS_VERDICT.EXCEPTION (port / 8) + 1) % 2 ^ 32 ∧
      d.fget Reg.SWT_RESEQ.GAPS = (s.dev.fget Reg.SWT_RESEQ.GAPS + 1) % 2 ^ 32 ∧ d.swt = s.dev.swt ∧
      d.cls.reseq = s.dev.cls.reseq) ∧
  (∀ (s : State) (port corr uncorr : Nat) (bytes : List Byte) (ect : Bool) (w : Walk) (x : Desc), s.live = true →
    s.dev.portTakes port bytes = true → s.dev.parsed port bytes = .classify w →
    s.dev.verdict w.counted = (x, none) → s.dev.mustWait w.port w.seq = true →
    Acts (.frameReceive port bytes true ect corr uncorr) s fun d =>
      d.cls.reseq = s.dev.cls.reseq ++ [(w.counted, x)] ∧ d.swt = s.dev.swt ∧
      d.fget Reg.SWT_RESEQ.HELD = (s.dev.fget Reg.SWT_RESEQ.HELD + 1) % 2 ^ 32) ∧
  (∀ (s : State) (port corr uncorr : Nat) (bytes : List Byte) (ect : Bool) (w : Walk) (x : Desc), s.live = true →
    s.dev.portTakes port bytes = true → s.dev.parsed port bytes = .classify w → w.port = port →
    s.dev.verdict w.counted = (x, none) → s.dev.mustWait w.port w.seq = false → actKind x.act = 0 →
    Acts (.frameReceive port bytes true ect corr uncorr) s fun d =>
      d.fget Reg.CLS_VERDICT.DROP (port / 8) = (s.dev.fget Reg.CLS_VERDICT.DROP (port / 8) + 1) % 2 ^ 32 ∧
      d.fget Reg.SWT_RESEQ.GAPS = (s.dev.fget Reg.SWT_RESEQ.GAPS + 1) % 2 ^ 32 ∧ d.swt = s.dev.swt) ∧
  (∀ (s : State) (port corr uncorr key k blk : Nat) (bytes : List Byte) (ect : Bool) (w : Walk) (x : Desc) (c : Ctx),
    s.live = true → s.dev.portTakes port bytes = true → s.dev.parsed port bytes = .classify w → w.port = port →
    s.dev.verdict w.counted = (x, none) → s.dev.mustWait w.port w.seq = false → actKind x.act = k → k ∈ [1, 2] →
    blk = k + 0x0B → actPolicer x.act = 0 → x.port = port → key = port / 8 * 8 + actTclass x.act →
    Tab.look s.dev.swt.ingress key = none → Tab.look s.dev.swt.avg key = none →
    0 < s.dev.fget (Reg.SWT_RED.G_MIN.nth (actTclass x.act)) → s.dev.fget Reg.SWT_CFG.OVF_EN = 0 →
    s.dev.sharedUsed + cellsFor x.len ≤ s.dev.sharedCells →
    s.dev.ctx blk x.context = some c → c.tenant = actTenant x.act → s.dev.ctxIn blk x.context = true →
    Acts (.frameReceive port bytes true ect corr uncorr) s fun d =>
      Tab.look d.swt.ingress key = some [{ desc := x, colour := .green, cells := cellsFor x.len }] ∧
      (∀ k, k ≠ key → Tab.look d.swt.ingress k = Tab.look s.dev.swt.ingress k) ∧ d.swt.egress = s.dev.swt.egress) ∧
  (∀ (s : State) (port corr uncorr : Nat) (bytes : List Byte) (ect : Bool), s.live = true → port < 16 →
    s.dev.on 8 (port / 4) = true → bitOf (s.dev.fget Reg.PRT_LINK.UP (port / 4)) (port % 4) = true →
    64 ≤ bytes.length → bytes.length ≤ s.dev.fget Reg.PRT_CFG.MTU (port / 4) → bytes.getD 12 0 ≠ 0x88 →
    (s.dev.on 0x0A (port / 8) = false ∨ s.dev.on 0x0B (port / 8) = false) →
    Acts (.frameReceive port bytes true ect corr uncorr) s fun d =>
      d.cls = { s.dev.cls with arrived := (Tab.put s.dev.cls.arrived port ((Tab.look s.dev.cls.arrived port).getD 0 + 1)) } ∧
      d.swt = s.dev.swt) ∧
  (∀ (s : State) (pipe r : Nat) (ect : Bool) (w v : Walk), s.live = true → s.dev.cls.recirc = [w] → w.port / 8 = pipe →
    walk (s.dev.graphOf w.pgen) w.maxDepth false w.off 17 { w with vec := w.vec.write 1 1 ((w.vec.read 1 1) ||| 1) } =
      .exception r v → 1 ≤ r → r ≤ 5 → v.port / 8 = pipe →
    bitOf (s.dev.fget Reg.CLS_EXC.TO_WARDEN_P) (r - 1) = false →
    Acts (.recirculationPass pipe ect) s fun d => d.cls.recirc = [] ∧
      d.fget Reg.PRS_STAT.RECIRC pipe = (s.dev.fget Reg.PRS_STAT.RECIRC pipe + 1) % 2 ^ 32 ∧
      d.fget Reg.CLS_VERDICT.EXCEPTION pipe = (s.dev.fget Reg.CLS_VERDICT.EXCEPTION pipe + 1) % 2 ^ 32) ∧
  (∀ (s : State) (pipe : Nat) (ect : Bool) (w v : Walk) (x : Desc), s.live = true → s.dev.cls.recirc = [w] →
    w.port / 8 = pipe →
    walk (s.dev.graphOf w.pgen) w.maxDepth false w.off 17 { w with vec := w.vec.write 1 1 ((w.vec.read 1 1) ||| 1) } =
      .classify v → s.dev.verdict v.counted = (x, none) → s.dev.cls.reseq = [] → actKind x.act = 0 → v.port / 8 = pipe →
    Acts (.recirculationPass pipe ect) s fun d => d.cls.recirc = [] ∧ d.swt = s.dev.swt ∧
      d.fget Reg.PRS_STAT.RECIRC pipe = (s.dev.fget Reg.PRS_STAT.RECIRC pipe + 1) % 2 ^ 32 ∧
      d.fget Reg.CLS_VERDICT.DROP pipe = (s.dev.fget Reg.CLS_VERDICT.DROP pipe + 1) % 2 ^ 32) ∧
  (∀ (s : State) (pipe : Nat) (ect : Bool), s.live = true → (s.dev.cls.recirc.any fun w => w.port / 8 = pipe) = false →
    Settles (.recirculationPass pipe ect) s s.dev) ∧
  (∀ (s : State) (port : Nat) (ect : Bool) (w : Walk) (x : Desc), s.live = true → s.dev.cls.reseq = [(w, x)] →
    w.port = port → s.dev.cls.recirc = [] → actKind x.act = 0 →
    Acts (.resequenceRelease port ect) s fun d => d.cls.reseq = [] ∧
      d.fget Reg.CLS_VERDICT.DROP (port / 8) = (s.dev.fget Reg.CLS_VERDICT.DROP (port / 8) + 1) % 2 ^ 32 ∧
      d.fget Reg.SWT_RESEQ.GAPS = (s.dev.fget Reg.SWT_RESEQ.GAPS + 1) % 2 ^ 32 ∧ d.swt = s.dev.swt) ∧
  (∀ (s : State) (port : Nat) (ect : Bool), s.live = true →
    ((s.dev.cls.reseq.find? fun p => p.1.port = port).any fun p =>
      !(s.dev.cls.recirc.any fun r => r.port = port && decide (r.seq < p.1.seq))) = false →
    Settles (.resequenceRelease port ect) s s.dev) ∧
  (∀ (s : State) (q : Nat), s.live = true → s.dev.on 8 (q / 4) = true →
    bitOf (s.dev.fget Reg.PRT_LINK.UP (q / 4)) (q % 4) = false →
    bitOf (s.dev.fget Reg.PRT_CFG.SUBEN (q / 4)) (q % 4) = true →
    ((s.dev.egrPort q).downSince.any fun t => decide (t + s.dev.holdNs q < s.dev.now)) = false →
    Acts (.subportLinkChange q true) s fun d =>
      d.fget Reg.PRT_LINK.UP (q / 4) = s.dev.fget Reg.PRT_LINK.UP (q / 4) ||| 2 ^ (q % 4) ∧
      (d.egrPort q).downSince = none ∧ (d.egrPort q).expired = false ∧ d.swt.egress = s.dev.swt.egress) ∧
  (∀ (s : State) (q : Nat), s.live = true → s.dev.on 8 (q / 4) = true →
    bitOf (s.dev.fget Reg.PRT_LINK.UP (q / 4)) (q % 4) = true →
    bitOf (s.dev.fget Reg.PRT_CFG.SUBEN (q / 4)) (q % 4) = true → (s.dev.egrPort q).tx = none → 0 < s.dev.holdNs q →
    Acts (.subportLinkChange q false) s fun d =>
      d.fget Reg.PRT_LINK.UP (q / 4) = s.dev.fget Reg.PRT_LINK.UP (q / 4) - 2 ^ (q % 4) ∧
      d.fget Reg.PRT_LINK.DOWN_EVENTS (q / 4) = min (s.dev.fget Reg.PRT_LINK.DOWN_EVENTS (q / 4) + 1) 65535 ∧
      (d.egrPort q).downSince = some s.dev.now ∧ d.swt.egress = s.dev.swt.egress) ∧
  (∀ (s : State) (q : Nat) (up : Bool), s.live = true → (s.dev.on 8 (q / 4) = false ∨
      bitOf (s.dev.fget Reg.PRT_LINK.UP (q / 4)) (q % 4) = up ∨
      bitOf (s.dev.fget Reg.PRT_CFG.SUBEN (q / 4)) (q % 4) = false) → Settles (.subportLinkChange q up) s s.dev)

/-- Changing the rules of CLASS (R312, R313, R317, R320, R321). While a load may start, a record that is in order changes
the staged generation and answers RESULT 0: an entry is added from the staged generation on, or ends with it, or the staged
indirection table takes a value; one that is not in order answers its reason and changes nothing. A load applies its records
in order up to the first that is not, whose number it reports; while no load may start, each does nothing. -/
def Obligations.RuleUpdates : Prop :=
  (∀ (s : State) (u : UpdRec) (k : Nat), s.live = true → s.dev.updReady = true → u.zeros = true → u.stage ≤ 3 →
    actOk u.act = true →
    s.dev.cls.em.any (fun p => p.2.open_ u.stage u.key && p.2.valid (s.dev.inst 0x0B 0).staged) = false →
    (s.dev.emSlots u.stage u.key).find? (fun k => (Tab.look s.dev.cls.em k).isNone) = some k →
    Acts (.emAdd u) s fun d => d.fget Reg.CLS_UPD_CTRL.RESULT = 0 ∧ d.cls = { s.dev.cls with
      em := (Tab.put s.dev.cls.em k { stage := u.stage, key := u.key, act := u.act, from_ := (s.dev.inst 0x0B 0).staged }) }) ∧
  (∀ (s : State) (u : UpdRec), s.live = true → s.dev.updReady = true → u.zeros = true → u.stage ≤ 3 → actOk u.act = true →
    s.dev.cls.em.any (fun p => p.2.open_ u.stage u.key && p.2.valid (s.dev.inst 0x0B 0).staged) = true →
    Acts (.emAdd u) s fun d => d.fget Reg.CLS_UPD_CTRL.RESULT = 0x23 ∧ d.cls = s.dev.cls) ∧
  (∀ (s : State) (u : UpdRec), s.live = true → s.dev.updReady = true → u.zeros = true → u.stage ≤ 3 → actOk u.act = true →
    s.dev.cls.em.any (fun p => p.2.open_ u.stage u.key && p.2.valid (s.dev.inst 0x0B 0).staged) = false →
    (s.dev.emSlots u.stage u.key).find? (fun k => (Tab.look s.dev.cls.em k).isNone) = none →
    Acts (.emAdd u) s fun d => d.fget Reg.CLS_UPD_CTRL.RESULT = 7 ∧ d.cls = s.dev.cls) ∧
  (∀ (s : State) (u : UpdRec) (k : Nat) (r : Rule), s.live = true → s.dev.updReady = true → u.zeros = true → u.stage ≤ 3 →
    s.dev.cls.em.find? (fun p => p.2.open_ u.stage u.key && p.2.valid (s.dev.inst 0x0B 0).active) = some (k, r) →
    Acts (.emEnd u) s fun d => d.fget Reg.CLS_UPD_CTRL.RESULT = 0 ∧ d.cls = { s.dev.cls with
      em := (Tab.put s.dev.cls.em k { r with till := some (s.dev.inst 0x0B 0).staged }) }) ∧
  (∀ (s : State) (u : UpdRec), s.live = true → s.dev.updReady = true → u.zeros = true → u.stage ≤ 3 →
    s.dev.cls.em.find? (fun p => p.2.open_ u.stage u.key && p.2.valid (s.dev.inst 0x0B 0).active) = none →
    Acts (.emEnd u) s fun d => d.fget Reg.CLS_UPD_CTRL.RESULT = 0x22 ∧ d.cls = s.dev.cls) ∧
  (∀ (s : State) (u : UpdRec), s.live = true → s.dev.updReady = true → u.zeros = true → actOk u.act = true →
    u.index < 16384 → s.dev.fget Reg.CLS_CFG.PROFILE = 1 →
    ((Tab.look s.dev.cls.tcam u.index).any fun r => s.dev.clsResident.any fun g => r.valid g) = false →
    Acts (.tcamAdd u) s fun d => d.fget Reg.CLS_UPD_CTRL.RESULT = 0 ∧ d.cls = { s.dev.cls with
      tcam := (Tab.put s.dev.cls.tcam u.index { key := u.key, mask := u.mask, act := u.act,
                                                from_ := (s.dev.inst 0x0B 0).staged }) }) ∧
  (∀ (s : State) (u : UpdRec), s.live = true → s.dev.updReady = true → u.zeros = true → actOk u.act = true →
    u.index < 16384 → s.dev.fget Reg.CLS_CFG.PROFILE = 1 →
    ((Tab.look s.dev.cls.tcam u.index).any fun r => s.dev.clsResident.any fun g => r.valid g) = true →
    Acts (.tcamAdd u) s fun d => d.fget Reg.CLS_UPD_CTRL.RESULT = 0x23 ∧ d.cls = s.dev.cls) ∧
  (∀ (s : State) (u : UpdRec), s.live = true → s.dev.updReady = true → u.zeros = true → actOk u.act = true →
    16384 ≤ u.index → Acts (.tcamAdd u) s fun d => d.fget Reg.CLS_UPD_CTRL.RESULT = 7 ∧ d.cls = s.dev.cls) ∧
  (∀ (s : State) (u : UpdRec), s.live = true → s.dev.updReady = true → u.zeros = true → actOk u.act = true →
    u.index < 16384 → s.dev.fget Reg.CLS_CFG.PROFILE ≠ 1 →
    Acts (.tcamAdd u) s fun d => d.fget Reg.CLS_UPD_CTRL.RESULT = 0x21 ∧ d.cls = s.dev.cls) ∧
  (∀ (s : State) (u : UpdRec) (r : Rule), s.live = true → s.dev.updReady = true → u.zeros = true →
    s.dev.fget Reg.CLS_CFG.PROFILE = 1 → Tab.look s.dev.cls.tcam u.index = some r → r.till = none →
    r.valid (s.dev.inst 0x0B 0).active = true →
    Acts (.tcamEnd u) s fun d => d.fget Reg.CLS_UPD_CTRL.RESULT = 0 ∧ d.cls = { s.dev.cls with
      tcam := (Tab.put s.dev.cls.tcam u.index { r with till := some (s.dev.inst 0x0B 0).staged }) }) ∧
  (∀ (s : State) (u : UpdRec), s.live = true → s.dev.updReady = true → u.zeros = true →
    s.dev.fget Reg.CLS_CFG.PROFILE = 1 →
    ((Tab.look s.dev.cls.tcam u.index).any fun r => r.till.isNone && r.valid (s.dev.inst 0x0B 0).active) = false →
    Acts (.tcamEnd u) s fun d => d.fget Reg.CLS_UPD_CTRL.RESULT = 0x22 ∧ d.cls = s.dev.cls) ∧
  (∀ (s : State) (u : UpdRec), s.live = true → s.dev.updReady = true → u.zeros = true →
    s.dev.fget Reg.CLS_CFG.PROFILE ≠ 1 →
    Acts (.tcamEnd u) s fun d => d.fget Reg.CLS_UPD_CTRL.RESULT = 0x21 ∧ d.cls = s.dev.cls) ∧
  (∀ (s : State) (u : UpdRec), s.live = true → s.dev.updReady = true → u.zeros = true → u.index < 4096 →
    Acts (.indir u) s fun d => d.fget Reg.CLS_UPD_CTRL.RESULT = 0 ∧
      (Tab.look d.cls.indir u.index).getD 0 = u.act % 65536 ∧
      (∀ i, i ≠ u.index → Tab.look d.cls.indir i = Tab.look s.dev.cls.indir i) ∧ d.cls.em = s.dev.cls.em ∧
      d.cls.tcam = s.dev.cls.tcam) ∧
  (∀ (s : State) (u : UpdRec) (c : Instr), s.live = true → c ∈ [Instr.emAdd u, .emEnd u, .tcamAdd u, .tcamEnd u, .indir u] →
    s.dev.updReady = true → u.zeros = false →
    Acts c s fun d => d.fget Reg.CLS_UPD_CTRL.RESULT = 2 ∧ d.cls = s.dev.cls) ∧
  (∀ (s : State) (u : UpdRec) (c : Instr), s.live = true → c ∈ [Instr.emAdd u, .emEnd u] → s.dev.updReady = true →
    3 < u.stage → Acts c s fun d => d.fget Reg.CLS_UPD_CTRL.RESULT = 2 ∧ d.cls = s.dev.cls) ∧
  (∀ (s : State) (u : UpdRec) (c : Instr), s.live = true → c ∈ [Instr.emAdd u, .tcamAdd u] → s.dev.updReady = true →
    actOk u.act = false → Acts c s fun d => d.fget Reg.CLS_UPD_CTRL.RESULT = 2 ∧ d.cls = s.dev.cls) ∧
  (∀ (s : State) (u : UpdRec), s.live = true → s.dev.updReady = true → 4096 ≤ u.index →
    Acts (.indir u) s fun d => d.fget Reg.CLS_UPD_CTRL.RESULT = 2 ∧ d.cls = s.dev.cls) ∧
  (∀ (s : State) (ports : Nat) (u : UpdRec), s.live = true → s.dev.updReady = true → ports < 65536 →
    readUpd s.dev.mem.dram (s.dev.fget Reg.CLS_UPD_ADDR.ADDR) = u → u.zeros = true → u.op = 5 → u.index < 4096 →
    Acts (.classUpdateLoad 1 ports) s fun d => d.fget Reg.CLS_UPD_CTRL.RESULT = 0 ∧ d.fget Reg.CLS_UPD_CTRL.FAIL_AT = 0 ∧
      d.fget Reg.CLS_UPD_CTRL.PORTS = s.dev.fget Reg.CLS_UPD_CTRL.PORTS ||| ports ∧
      (Tab.look d.cls.indir u.index).getD 0 = u.act % 65536) ∧
  (∀ (s : State) (ports a : Nat) (u v : UpdRec), s.live = true → s.dev.updReady = true →
    a = s.dev.fget Reg.CLS_UPD_ADDR.ADDR → readUpd s.dev.mem.dram a = u → u.zeros = true → u.op = 5 → u.index < 4096 →
    readUpd s.dev.mem.dram (a + 160) = v → v.zeros = false →
    Acts (.classUpdateLoad 2 ports) s fun d => d.fget Reg.CLS_UPD_CTRL.RESULT = 2 ∧ d.fget Reg.CLS_UPD_CTRL.FAIL_AT = 1 ∧
      (Tab.look d.cls.indir u.index).getD 0 = u.act % 65536) ∧
  (∀ (s : State) (ports : Nat) (u : UpdRec), s.live = true → s.dev.updReady = true →
    readUpd s.dev.mem.dram (s.dev.fget Reg.CLS_UPD_ADDR.ADDR) = u → u.zeros = false →
    Acts (.classUpdateLoad 1 ports) s fun d => d.fget Reg.CLS_UPD_CTRL.RESULT = 2 ∧
      d.fget Reg.CLS_UPD_CTRL.FAIL_AT = 0 ∧ d.cls = s.dev.cls) ∧
  (∀ (s : State) (ports : Nat), s.live = true → s.dev.updReady = true →
    Acts (.classUpdateLoad 0 ports) s fun d => (d.inst 0x0B 0).err.getLsbD 1 = true ∧ d.cls = s.dev.cls) ∧
  (∀ (s : State) (count ports : Nat) (u : UpdRec) (c : Instr), s.live = true →
    c ∈ [Instr.classUpdateLoad count ports, .emAdd u, .emEnd u, .tcamAdd u, .tcamEnd u, .indir u] →
    s.dev.updReady = false → Settles c s s.dev)

/-- Network time and its pulses (R300 to R302, R304). A step moves network time by its signed value, and after the device
has become monotonic it only sets BLK_ERR.MONO; a slew sets its offset and its rate, held between 1 and 100; the output
pulse rises at the next whole second; the input pulse stamps network time, each where it is enabled. -/
def Obligations.NetworkTime : Prop :=
  (∀ (s : State) (w : Word), s.live = true → s.dev.on 9 = true → s.dev.fget Reg.TIM_STATUS.MONO = 0 →
    Acts (.timStep w) s fun d => d.tim = { s.dev.tim with ns := (BitVec.ofNat 64 s.dev.now + w).toNat }) ∧
  (∀ (s : State) (w : Word), s.live = true → s.dev.on 9 = true → s.dev.fget Reg.TIM_STATUS.MONO = 1 →
    Acts (.timStep w) s fun d => (d.inst 9 0).err.getLsbD 8 = true ∧ d.tim = s.dev.tim) ∧
  (∀ (s : State) (w : Word), s.live = true → s.dev.on 9 = false → Settles (.timStep w) s s.dev) ∧
  (∀ (s : State) (w : Word), s.live = true →
    Runs (.timSlew w) s fun d => d.fget Reg.TIM_SLEW.OFFSET = field w 63 32 ∧
      d.fget Reg.TIM_SLEW.RATE_PPM = min 100 (max 1 (field w 7 0)) ∧ d.now = s.dev.now ∧ d.tim.slewFrac = 0) ∧
  (∀ (s : State), s.live = true → s.dev.on 9 = true → s.dev.fget Reg.TIM_CTRL.PPS_OUT_EN = 1 →
    Runs .ppsOutEdge s fun d => d.now % 1000000000 = 0 ∧ s.dev.now ≤ d.now ∧ d.now < s.dev.now + 2000000000 ∧
      d.tim.lastPps = some d.now ∧ s.dev.tim.lastPps ≠ some d.now ∧ d.tim.ppsUntil = some (d.now + 100000) ∧
      d.regs = s.dev.regs) ∧
  (∀ (s : State), s.live = true → (s.dev.on 9 = false ∨ s.dev.fget Reg.TIM_CTRL.PPS_OUT_EN = 0) →
    Gives .ppsOutEdge s s.dev) ∧
  (∀ (s : State), s.live = true → s.dev.on 9 = true → s.dev.fget Reg.TIM_CTRL.PPS_IN_EN = 1 →
    Runs .ppsInEdge s fun d => d.fget Reg.TIM_PPS_IN.NS = s.dev.now % 2 ^ 64 ∧ d.tim.ppsIn = true ∧ d.now = s.dev.now) ∧
  (∀ (s : State), s.live = true → (s.dev.on 9 = false ∨ s.dev.fget Reg.TIM_CTRL.PPS_IN_EN = 0) →
    Gives .ppsInEdge s { s.dev with tim := { s.dev.tim with ppsIn := true } })

/-- Egress, policers, shapers, limiters, gate lists and the audit (R351, R355 to R368). A sub-port starts the head frame of
the queue that scheduling chooses, and its shaper pays for it, once the frame before it has gone; a waiting producer goes on
when its frame finds room, without the sub-ports whose hold has expired; an update that checks comes into force, keeping no
more tokens than there were, an entry that is not valid leaves the table, and one that does not check answers its reason; a
limiter without CNPs rises by a step and is gone at the line rate; a gate list acts from its start; a sub-port down past its
hold frees its frames; an audit counts its run and what leaked. Each does nothing when its condition is not met. -/
def Obligations.EgressScheduling : Prop :=
  (∀ (s : State) (q tc t id : Nat) (green : Bool) (rest : List Nat) (e : EgrQ) (f : OutFrame), s.live = true →
    (s.dev.egrPort q).tx = none → (s.dev.egrPort q).downSince = none → s.dev.on 0x0F = true → s.dev.on 0x0E = true →
    s.dev.chooseClass q = some (tc, t, green) → Tab.look s.dev.swt.egress (egrKey q tc t) = some e →
    e.frames = id :: rest → Tab.look s.dev.swt.frames id = some f →
    Acts (.egressFrameStart q) s fun d => (d.egrPort q).tx = some (id, s.dev.now + s.dev.txTime q f.len) ∧
      (∃ e', Tab.look d.swt.egress (egrKey q tc t) = some e' ∧ e'.frames = rest) ∧ d.swt.frames = s.dev.swt.frames ∧
      (∀ sh, Tab.look s.dev.sch.ten t = some sh → t ≠ 0 → ∃ sh', Tab.look d.sch.ten t = some sh' ∧
        sh'.e = (sh.at_ s.dev.now).e - (wireLen f.len * 256 : Nat) ∧
        sh'.c = (sh.at_ s.dev.now).c - (if green then ((wireLen f.len * 256 : Nat) : Int) else 0))) ∧
  (∀ (s : State) (q : Nat), s.live = true → ((s.dev.settleTx q).chooseClass q = none ∨
      ((s.dev.settleTx q).egrPort q).tx.isSome = true ∨ ((s.dev.settleTx q).egrPort q).downSince.isSome = true ∨
      s.dev.on 0x0F = false ∨ s.dev.on 0x0E = false) →
    Settles (.egressFrameStart q) s (s.dev.settleTx q)) ∧
  (∀ (s : State) (q : Nat) (f : OutFrame), s.live = true → s.dev.swt.waiting = [f] → f.ports = [q] →
    (s.dev.egrPort q).downSince = none → (s.dev.egrPort q).expired = false → s.dev.hasRoom f = true →
    Acts .producerCellResume s fun d => d.swt.waiting = [] ∧ d.swt.nextFrame = s.dev.swt.nextFrame + 1 ∧
      (∃ g, Tab.look d.swt.frames s.dev.swt.nextFrame = some g ∧ g.len = f.len ∧ g.tenant = f.tenant ∧ g.refs = 1) ∧
      ∃ e, Tab.look d.swt.egress (egrKey q f.tclass f.tenant) = some e ∧
        e.frames = ((Tab.look s.dev.swt.egress (egrKey q f.tclass f.tenant)).getD {}).frames ++ [s.dev.swt.nextFrame]) ∧
  (∀ (s : State) (q : Nat) (f : OutFrame), s.live = true → s.dev.swt.waiting = [f] → f.ports = [q] →
    (s.dev.egrPort q).expired = true →
    Acts .producerCellResume s fun d => d.swt = { s.dev.swt with waiting := [] } ∧
      d.fget Reg.SCH_HELD.DOWN_DROP = (s.dev.fget Reg.SCH_HELD.DOWN_DROP + 1) % 2 ^ 32) ∧
  (∀ (s : State) (f : OutFrame), s.live = true → s.dev.swt.waiting = [f] → f.ports ≠ [] →
    f.ports.all (fun q => (s.dev.egrPort q).downSince.isNone && !(s.dev.egrPort q).expired) = true →
    s.dev.hasRoom f = false → Settles .producerCellResume s s.dev) ∧
  (∀ (s : State), s.live = true → s.dev.swt.waiting = [] → Settles .producerCellResume s s.dev) ∧
  (∀ (s : State), s.live = true → s.dev.on 0x0E = true → s.dev.fget Reg.SWT_CFG.AUDIT_MS ≠ 0 → s.dev.swt.audit = none →
    Settles .auditStart s { s.dev with swt := { s.dev.swt with audit := some s.dev.now } }) ∧
  (∀ (s : State), s.live = true → (s.dev.on 0x0E = false ∨ s.dev.fget Reg.SWT_CFG.AUDIT_MS = 0 ∨
      s.dev.swt.audit.isSome = true) → Settles .auditStart s s.dev) ∧
  (∀ (s : State), s.live = true → s.dev.swt.audit.isSome = true →
    Acts (.auditEnd 0) s fun d => d.swt.audit = none ∧
      d.fget Reg.SWT_AUDIT.RUNS = (s.dev.fget Reg.SWT_AUDIT.RUNS + 1) % 2 ^ 32 ∧
      d.fget Reg.SWT_AUDIT.LEAKED = s.dev.fget Reg.SWT_AUDIT.LEAKED) ∧
  (∀ (s : State) (n : Nat), s.live = true → s.dev.swt.audit.isSome = true → 0 < n →
    Acts (.auditEnd n) s fun d => d.swt.audit = none ∧ (d.inst 0x0E 0).err.getLsbD 8 = true ∧
      d.fget Reg.SWT_AUDIT.RUNS = (s.dev.fget Reg.SWT_AUDIT.RUNS + 1) % 2 ^ 32 ∧
      d.fget Reg.SWT_AUDIT.LEAKED = (s.dev.fget Reg.SWT_AUDIT.LEAKED + n) % 2 ^ 32 ∧
      (s.dev.on 3 = true → d.fget Reg.SPT_LAST.CLASS = 0x0A ∧ d.fget Reg.SPT_LAST.BLOCK = 0x0E)) ∧
  (∀ (s : State) (n : Nat), s.live = true → s.dev.swt.audit = none → Settles (.auditEnd n) s s.dev) ∧
  (∀ (s : State) (n : Nat) (sh : Shaper), s.live = true → s.dev.fget Reg.SCH_TEN_UPDATE.BUSY = 0 → s.dev.on 0x0F = true →
    s.dev.readShaper (s.dev.fget Reg.SCH_TEN_TAB.ADDR * 4096) n = .ok (some sh) → Tab.look s.dev.sch.ten n = none →
    Acts (.schTenUpdate n) s fun d => d.sch = { s.dev.sch with ten := Tab.put s.dev.sch.ten n sh } ∧
      d.fget Reg.SCH_TEN_UPDATE.RESULT = 0) ∧
  (∀ (s : State) (n : Nat) (sh old : Shaper), s.live = true → s.dev.fget Reg.SCH_TEN_UPDATE.BUSY = 0 →
    s.dev.on 0x0F = true → s.dev.readShaper (s.dev.fget Reg.SCH_TEN_TAB.ADDR * 4096) n = .ok (some sh) →
    Tab.look s.dev.sch.ten n = some old →
    Acts (.schTenUpdate n) s fun d => d.fget Reg.SCH_TEN_UPDATE.RESULT = 0 ∧ Tab.look d.sch.ten n = some { sh with
      c := min (old.at_ s.dev.now).c sh.c, e := min (old.at_ s.dev.now).e sh.e }) ∧
  (∀ (s : State) (n : Nat), s.live = true → s.dev.fget Reg.SCH_TEN_UPDATE.BUSY = 0 → s.dev.on 0x0F = true →
    s.dev.readShaper (s.dev.fget Reg.SCH_TEN_TAB.ADDR * 4096) n = .ok none →
    Acts (.schTenUpdate n) s fun d => d.sch = { s.dev.sch with ten := Tab.del s.dev.sch.ten n } ∧
      d.fget Reg.SCH_TEN_UPDATE.RESULT = 0) ∧
  (∀ (s : State) (n r : Nat), s.live = true → s.dev.fget Reg.SCH_TEN_UPDATE.BUSY = 0 → s.dev.on 0x0F = true →
    s.dev.readShaper (s.dev.fget Reg.SCH_TEN_TAB.ADDR * 4096) n = .error r → r < 256 →
    Acts (.schTenUpdate n) s fun d => d.sch = s.dev.sch ∧ d.fget Reg.SCH_TEN_UPDATE.RESULT = r) ∧
  (∀ (s : State) (n : Nat), s.live = true → (s.dev.fget Reg.SCH_TEN_UPDATE.BUSY = 1 ∨ s.dev.on 0x0F = false) →
    Settles (.schTenUpdate n) s s.dev) ∧
  (∀ (s : State) (n : Nat) (p : Policer), s.live = true → s.dev.fget Reg.SCH_POL_UPDATE.BUSY = 0 → s.dev.on 0x0F = true →
    n ≠ 0 → s.dev.readPolicer (s.dev.fget Reg.SCH_POL_TAB.ADDR * 4096) n = .ok (some p) →
    Tab.look s.dev.sch.pol n = none →
    Acts (.schPolUpdate n) s fun d => d.sch = { s.dev.sch with pol := Tab.put s.dev.sch.pol n p } ∧
      d.fget Reg.SCH_POL_UPDATE.RESULT = 0) ∧
  (∀ (s : State) (n : Nat) (p old : Policer), s.live = true → s.dev.fget Reg.SCH_POL_UPDATE.BUSY = 0 →
    s.dev.on 0x0F = true → n ≠ 0 → s.dev.readPolicer (s.dev.fget Reg.SCH_POL_TAB.ADDR * 4096) n = .ok (some p) →
    Tab.look s.dev.sch.pol n = some old →
    Acts (.schPolUpdate n) s fun d => d.fget Reg.SCH_POL_UPDATE.RESULT = 0 ∧ Tab.look d.sch.pol n = some { p with
      tc := min (old.at_ s.dev.now).tc p.cbs, tp := min (old.at_ s.dev.now).tp p.pbs }) ∧
  (∀ (s : State) (n : Nat), s.live = true → s.dev.fget Reg.SCH_POL_UPDATE.BUSY = 0 → s.dev.on 0x0F = true → n ≠ 0 →
    s.dev.readPolicer (s.dev.fget Reg.SCH_POL_TAB.ADDR * 4096) n = .ok none →
    Acts (.schPolUpdate n) s fun d => d.sch = { s.dev.sch with pol := Tab.del s.dev.sch.pol n } ∧
      d.fget Reg.SCH_POL_UPDATE.RESULT = 0) ∧
  (∀ (s : State) (n r : Nat), s.live = true → s.dev.fget Reg.SCH_POL_UPDATE.BUSY = 0 → s.dev.on 0x0F = true →
    (n = 0 ∧ r = 2 ∨ n ≠ 0 ∧ s.dev.readPolicer (s.dev.fget Reg.SCH_POL_TAB.ADDR * 4096) n = .error r) → r < 256 →
    Acts (.schPolUpdate n) s fun d => d.sch = s.dev.sch ∧ d.fget Reg.SCH_POL_UPDATE.RESULT = r) ∧
  (∀ (s : State) (n : Nat), s.live = true → (s.dev.fget Reg.SCH_POL_UPDATE.BUSY = 1 ∨ s.dev.on 0x0F = false) →
    Settles (.schPolUpdate n) s s.dev) ∧
  (∀ (s : State) (ctx : Nat) (l : Limiter), s.live = true → Tab.look s.dev.sch.lim ctx = some l →
    l.since + s.dev.fget Reg.SCH_CNP.RECOVER_US * 1000 ≤ s.dev.now →
    l.rate + s.dev.fget Reg.SCH_CNP.STEP * 100 < s.dev.portRate l.port →
    Settles (.cnpRecoverExpiry ctx) s { s.dev with sch := { s.dev.sch with lim := (Tab.put s.dev.sch.lim ctx
      { l with rate := l.rate + s.dev.fget Reg.SCH_CNP.STEP * 100, since := s.dev.now }) } }) ∧
  (∀ (s : State) (ctx : Nat) (l : Limiter), s.live = true → Tab.look s.dev.sch.lim ctx = some l →
    l.since + s.dev.fget Reg.SCH_CNP.RECOVER_US * 1000 ≤ s.dev.now →
    s.dev.portRate l.port ≤ l.rate + s.dev.fget Reg.SCH_CNP.STEP * 100 →
    Acts (.cnpRecoverExpiry ctx) s fun d => d.sch = { s.dev.sch with lim := Tab.del s.dev.sch.lim ctx } ∧
      d.fget Reg.SCH_CNP_OCC.IN_USE = d.sch.lim.length % 2 ^ 13) ∧
  (∀ (s : State) (ctx : Nat), s.live = true → ((Tab.look s.dev.sch.lim ctx).any fun l =>
      decide (l.since + s.dev.fget Reg.SCH_CNP.RECOVER_US * 1000 ≤ s.dev.now)) = false →
    Settles (.cnpRecoverExpiry ctx) s s.dev) ∧
  (∀ (s : State) (g : NetGates) (st : Nat), s.live = true → s.dev.sch.next = some (g, st) → st ≤ s.dev.now → st < 2 ^ 64 →
    (s.dev.inst 0x0F 0).swapReady = false → (s.dev.inst 0x0F 0).heldDisable = false →
    Acts .schedGateListStart s fun d => d.sch = { s.dev.sch with gates := g, next := none } ∧
      d.fget Reg.SCH_GL_START.NS = st) ∧
  (∀ (s : State), s.live = true → (s.dev.sch.next.any fun p => decide (p.2 ≤ s.dev.now)) = false →
    (s.dev.inst 0x0F 0).heldDisable = false → Settles .schedGateListStart s s.dev) ∧
  (∀ (s : State) (q t : Nat), s.live = true → (s.dev.egrPort q).downSince = some t → (s.dev.egrPort q).expired = false →
    t + s.dev.holdNs q ≤ s.dev.now →
    Acts (.holdExpiry q) s fun d => (d.egrPort q).expired = true ∧ (d.egrPort q).downSince = some t ∧
      (∀ p ∈ d.swt.egress, p.1 / 4096 / 8 = q → p.2.frames = []) ∧
      (∀ p ∈ s.dev.swt.egress, p.1 / 4096 / 8 ≠ q → p ∈ d.swt.egress)) ∧
  (∀ (s : State) (q : Nat), s.live = true → ((s.dev.egrPort q).expired = true ∨
      ((s.dev.egrPort q).downSince.any fun t => decide (t + s.dev.holdNs q ≤ s.dev.now)) = false) →
    Settles (.holdExpiry q) s s.dev)

/-- RoCEv2 (R324, R327 to R334, R344, R363). A frame for no context or of another tenant is dropped and counted, and one for
a spilled context waits in its miss queue; on a transport that does not work none does anything. A request in sequence is
taken, and its capsule goes to HOSTQ; an earlier one is a duplicate; a later one is answered with one Sequence Error NAK; one
that is no SEND ends the context. A packet marked CE is answered with a CNP. A coalesced acknowledgement leaves; an ACK moves
UNA and the limit, and ends what it covers; a NAK and a timeout use a retry, and the last one ends the context; an RNR wait
holds and ends; read data lands; a CNP limits its context's rate; a MAD goes to the Warden ring. -/
def Obligations.Roce : Prop :=
  (∀ (s : State) (pipe n tenant psn : Nat) (op : ReqOp) (ce : Bool) (k : Nak) (code msn : Nat) (data : List Byte),
    s.live = true → s.dev.transOn 0x0C = false →
    ∀ c ∈ [Instr.roceRequestReceive pipe n tenant psn op ce, .roceAckReceive pipe n tenant psn code msn,
      .roceNakReceive pipe n tenant psn k, .roceReadResponse pipe n tenant psn data ce, .cnpReceive pipe n tenant],
    Settles c s s.dev) ∧
  (∀ (s : State) (pipe n tenant psn : Nat) (op : ReqOp) (ce : Bool) (k : Nak) (code msn : Nat) (data : List Byte),
    s.live = true → s.dev.transOn 0x0C = true →
    (s.dev.ctxAny 0x0C n = none ∨ s.dev.ctxIn 0x0C n = false ∨ ∃ x, s.dev.ctxAny 0x0C n = some x ∧ x.tenant ≠ tenant) →
    ∀ c ∈ [Instr.roceRequestReceive pipe n tenant psn op ce, .roceAckReceive pipe n tenant psn code msn,
      .roceNakReceive pipe n tenant psn k, .roceReadResponse pipe n tenant psn data ce, .cnpReceive pipe n tenant],
    Acts c s fun d => d.xpt = s.dev.xpt ∧ d.trans = s.dev.trans ∧ d.sch.lim = s.dev.sch.lim ∧
      d.fget Reg.XPT_DROP.TENANT = (s.dev.fget Reg.XPT_DROP.TENANT + 1) % 2 ^ 32) ∧
  (∀ (s : State) (pipe n tenant psn : Nat) (op : ReqOp) (ce : Bool) (k : Nak) (code msn : Nat) (data : List Byte) (x : Ctx),
    s.live = true → s.dev.transOn 0x0C = true → s.dev.ctx 0x0C n = none → s.dev.ctxAny 0x0C n = some x →
    x.tenant = tenant → s.dev.ctxIn 0x0C n = true → pipe < 2 → s.dev.inMiss n = false →
    ((Tab.look s.dev.trans.miss pipe).getD []).length < 512 →
    ∀ c ∈ [Instr.roceRequestReceive pipe n tenant psn op ce, .roceAckReceive pipe n tenant psn code msn,
      .roceNakReceive pipe n tenant psn k, .roceReadResponse pipe n tenant psn data ce, .cnpReceive pipe n tenant],
    Acts c s fun d => d.xpt = s.dev.xpt ∧ ∃ f, f.ctx = n ∧
      Tab.look d.trans.miss pipe = some ((Tab.look s.dev.trans.miss pipe).getD [] ++ [f])) ∧
  (∀ (s : State) (pipe n tenant psn : Nat) (op : ReqOp) (ce : Bool) (k : Nak) (code msn : Nat) (data : List Byte) (x : Ctx),
    s.live = true → s.dev.transOn 0x0C = true → s.dev.ctx 0x0C n = none → s.dev.ctxAny 0x0C n = some x →
    x.tenant = tenant → s.dev.ctxIn 0x0C n = true → pipe < 2 → s.dev.inMiss n = false →
    512 ≤ ((Tab.look s.dev.trans.miss pipe).getD []).length →
    ∀ c ∈ [Instr.roceRequestReceive pipe n tenant psn op ce, .roceAckReceive pipe n tenant psn code msn,
      .roceNakReceive pipe n tenant psn k, .roceReadResponse pipe n tenant psn data ce, .cnpReceive pipe n tenant],
    Acts c s fun d => d.xpt = s.dev.xpt ∧ d.trans = s.dev.trans ∧
      d.fget Reg.XPT_MISS.DROPS = (s.dev.fget Reg.XPT_MISS.DROPS + 1) % 2 ^ 32) ∧
  (∀ (s : State) (pipe n tenant psn : Nat) (op : ReqOp) (ce : Bool) (k : Nak) (code msn : Nat) (data : List Byte) (x : Ctx),
    s.live = true → s.dev.hasCtx 0x0C n tenant x = true → x.state ≠ 1 →
    ∀ c ∈ [Instr.roceRequestReceive pipe n tenant psn op ce, .roceAckReceive pipe n tenant psn code msn,
      .roceNakReceive pipe n tenant psn k, .roceReadResponse pipe n tenant psn data ce],
    Acts c s fun d => d.xpt = s.dev.xpt ∧ d.trans = s.dev.trans) ∧
  (∀ (s : State) (pipe n tenant : Nat) (c : Ctx), s.live = true → s.dev.hasCtx 0x0C n tenant c = true → c.state = 1 →
    c.epsn < 2 ^ 24 → s.dev.recording = false → s.dev.fget Reg.XPT_TIMER.ACK_COAL ≠ 0 →
    Acts (.roceRequestReceive pipe n tenant c.epsn (.send none) false) s fun d =>
      d.ctx 0x0C n = some { c with epsn := (c.epsn + 1) % 2 ^ 24 } ∧
      d.rconn n = { s.dev.rconn n with nakSent := false, owe := some c.epsn }) ∧
  (∀ (s : State) (pipe n tenant : Nat) (c : Ctx), s.live = true → s.dev.hasCtx 0x0C n tenant c = true → c.state = 1 →
    c.epsn < 2 ^ 24 → s.dev.recording = true → s.dev.fget Reg.XPT_TIMER.ACK_COAL ≠ 0 →
    Acts (.roceRequestReceive pipe n tenant c.epsn (.send none) false) s fun d =>
      d.ctx 0x0C n = some { c with epsn := (c.epsn + 1) % 2 ^ 24 } ∧
      d.rconn n = { s.dev.rconn n with
        nakSent := false, owe := some c.epsn, recPsns := (s.dev.rconn n).recPsns ++ [c.epsn] } ∧
      ∃ t, d.trans.recs = s.dev.trans.recs ++ [t] ∧ t.kind = 3 ∧ t.ctx = n ∧ t.psn = c.epsn) ∧
  (∀ (s : State) (pipe n tenant : Nat) (c : Ctx) (sqe : List Word), s.live = true →
    s.dev.hasCtx 0x0C n tenant c = true → c.state = 1 → c.epsn < 2 ^ 24 → s.dev.recording = false →
    s.dev.fget Reg.XPT_TIMER.ACK_COAL ≠ 0 →
    Acts (.roceRequestReceive pipe n tenant c.epsn (.send (some sqe)) false) s fun d => ∃ e : Dev,
      e.hostq = s.dev.hostq ∧
      e.ctx 0x0C n = some {
        c with
        epsn := ((c.epsn + 1) % 2 ^ 24)
        msn := ((c.msn + 1) % 2 ^ 24)
        granted := (c.granted - 1) } ∧
      d.hostq = (e.capsule n sqe 1 (field (sqe.getD 4 0) 23 0) []).hostq) ∧
  (∀ (s : State) (pipe n tenant : Nat) (c : Ctx), s.live = true → s.dev.hasCtx 0x0C n tenant c = true → c.state = 1 →
    c.epsn < 2 ^ 24 →
    Acts (.roceRequestReceive pipe n tenant c.epsn .other false) s fun d => d.ctxAny 0x0C n = none ∧
      (s.dev.queue n = none → (s.dev.rconn n).out = [] →
        d.fget Reg.XPT_FAIL.ERRORS = (s.dev.fget Reg.XPT_FAIL.ERRORS + 1) % 2 ^ 32)) ∧
  (∀ (s : State) (pipe n tenant psn : Nat) (op : ReqOp) (c : Ctx), s.live = true → s.dev.hasCtx 0x0C n tenant c = true →
    c.state = 1 → 2 ^ 23 ≤ (psn + 2 ^ 24 - c.epsn) % 2 ^ 24 → s.dev.fget Reg.XPT_TIMER.ACK_COAL ≠ 0 →
    Acts (.roceRequestReceive pipe n tenant psn op false) s fun d => d.ctx 0x0C n = some c ∧ d.hostq = s.dev.hostq ∧
      d.fget Reg.XPT_DROP.DUPLICATE = (s.dev.fget Reg.XPT_DROP.DUPLICATE + 1) % 2 ^ 32 ∧
      d.rconn n = { s.dev.rconn n with owe := some ((c.epsn + 2 ^ 24 - 1) % 2 ^ 24) }) ∧
  (∀ (s : State) (pipe n tenant psn : Nat) (op : ReqOp) (c : Ctx), s.live = true → s.dev.hasCtx 0x0C n tenant c = true →
    c.state = 1 → 0 < (psn + 2 ^ 24 - c.epsn) % 2 ^ 24 → (psn + 2 ^ 24 - c.epsn) % 2 ^ 24 < 2 ^ 23 →
    (s.dev.rconn n).nakSent = false →
    Acts (.roceRequestReceive pipe n tenant psn op false) s fun d => (d.rconn n).nakSent = true ∧ d.hostq = s.dev.hostq ∧
      d.fget Reg.XPT_RETX.NAK_SEQ = (s.dev.fget Reg.XPT_RETX.NAK_SEQ + 1) % 2 ^ 32 ∧
      ∃ c', d.ctx 0x0C n = some c' ∧ c'.epsn = c.epsn ∧ c'.msn = c.msn) ∧
  (∀ (s : State) (pipe n tenant psn : Nat) (op : ReqOp) (c : Ctx), s.live = true → s.dev.hasCtx 0x0C n tenant c = true →
    c.state = 1 → 0 < (psn + 2 ^ 24 - c.epsn) % 2 ^ 24 → (psn + 2 ^ 24 - c.epsn) % 2 ^ 24 < 2 ^ 23 →
    (s.dev.rconn n).nakSent = true →
    Acts (.roceRequestReceive pipe n tenant psn op false) s fun d => d.xpt = s.dev.xpt ∧ d.hostq = s.dev.hostq) ∧
  (∀ (s : State) (pipe n tenant psn : Nat) (op : ReqOp) (c : Ctx), s.live = true → s.dev.hasCtx 0x0C n tenant c = true →
    c.state = 1 → 0 < (psn + 2 ^ 24 - c.epsn) % 2 ^ 24 → (psn + 2 ^ 24 - c.epsn) % 2 ^ 24 < 2 ^ 23 →
    (s.dev.rconn n).nakSent = true → s.dev.fget Reg.XPT_CFG.CNP_EN = 1 →
    (s.dev.rconn n).lastCnp.all (fun t => decide (t + 50000 ≤ s.dev.now)) = true →
    Acts (.roceRequestReceive pipe n tenant psn op true) s fun d =>
      d.rconn n = { s.dev.rconn n with lastCnp := some s.dev.now } ∧
      d.fget Reg.XPT_CNP.SENT = (s.dev.fget Reg.XPT_CNP.SENT + 1) % 2 ^ 32) ∧
  (∀ (s : State) (n p : Nat) (c : Ctx), s.live = true → s.dev.transOn 0x0C = true → s.dev.ctx 0x0C n = some c →
    (s.dev.rconn n).owe = some p → (s.dev.rconn n).recPsns = [] →
    Acts (.ackCoalesceExpiry n) s fun d => (d.rconn n).owe = none ∧ (d.rconn n).out = (s.dev.rconn n).out ∧
      ∃ c', d.ctx 0x0C n = some c' ∧ c'.acked = p ∧ c'.epsn = c.epsn) ∧
  (∀ (s : State) (n p q : Nat) (ps : List Nat) (c : Ctx), s.live = true → s.dev.transOn 0x0C = true →
    s.dev.ctx 0x0C n = some c → (s.dev.rconn n).owe = some p → (s.dev.rconn n).recPsns = q :: ps →
    psnLe ((q + 2 ^ 24 - 1) % 2 ^ 24) c.acked = false →
    Acts (.ackCoalesceExpiry n) s fun d => (d.rconn n).owe = some p ∧
      ∃ c', d.ctx 0x0C n = some c' ∧ c'.acked = (q + 2 ^ 24 - 1) % 2 ^ 24) ∧
  (∀ (s : State) (n : Nat), s.live = true → (s.dev.transOn 0x0C = false ∨ s.dev.ctxAny 0x0C n = none) →
    Settles (.ackCoalesceExpiry n) s s.dev) ∧
  (∀ (s : State) (n : Nat) (c : Ctx), s.live = true → s.dev.ctx 0x0C n = some c → (s.dev.rconn n).owe = none →
    Settles (.ackCoalesceExpiry n) s s.dev) ∧
  (∀ (s : State) (pipe n tenant psn code msn : Nat) (c : Ctx), s.live = true → s.dev.hasCtx 0x0C n tenant c = true →
    c.state = 1 → (s.dev.rconn n).out = [] → (psn + 1) % 2 ^ 24 ≠ c.una →
    psnLe c.una ((psn + 1) % 2 ^ 24) = true → psnLe ((psn + 1) % 2 ^ 24) c.npsn = true →
    Acts (.roceAckReceive pipe n tenant psn code msn) s fun d => d.ctx 0x0C n = some {
        c with
        limit := (if 31 ≤ code then 2 ^ 31 else (msn + creditsOf code) % 2 ^ 24)
        una := ((psn + 1) % 2 ^ 24)
        retry := (s.dev.fget Reg.XPT_TIMER.RETRY_CNT)
        rnr := (s.dev.fget Reg.XPT_TIMER.RETRY_CNT) } ∧
      d.rconn n = { s.dev.rconn n with unaSince := s.dev.now }) ∧
  (∀ (s : State) (pipe n tenant psn code msn : Nat) (c : Ctx), s.live = true → s.dev.hasCtx 0x0C n tenant c = true →
    c.state = 1 → (s.dev.rconn n).out = [] →
    ((psn + 1) % 2 ^ 24 = c.una ∨ psnLe c.una ((psn + 1) % 2 ^ 24) = false ∨ psnLe ((psn + 1) % 2 ^ 24) c.npsn = false) →
    Acts (.roceAckReceive pipe n tenant psn code msn) s fun d => d.ctx 0x0C n = some { c with
        limit := (if 31 ≤ code then 2 ^ 31 else (msn + creditsOf code) % 2 ^ 24) } ∧
      d.rconn n = s.dev.rconn n) ∧
  (∀ (s : State) (pipe n tenant code msn : Nat) (c : Ctx) (m : TxMsg) (x : Xfer), s.live = true →
    s.dev.hasCtx 0x0C n tenant c = true → c.state = 1 → (s.dev.rconn n).out = [m] → s.dev.recording = false →
    m.state = .sent → m.op = .write → m.xfer = some x → x.relay = false → c.una = m.psn → m.pkts = 1 → m.psn < 2 ^ 24 →
    c.npsn = (m.psn + 1) % 2 ^ 24 → code < 31 → s.dev.pitch.queue.length < 8192 → s.dev.pitch.held = [] →
    Acts (.roceAckReceive pipe n tenant m.psn code msn) s fun d => (d.rconn n).out = [] ∧
      (∃ c', d.ctx 0x0C n = some c' ∧ c'.una = (m.psn + 1) % 2 ^ 24 ∧ c'.limit = (msn + creditsOf code) % 2 ^ 24) ∧
      ∃ e, d.pitch.queue = s.dev.pitch.queue ++ [e] ∧ e.typ = 0x08 ∧ e.gen = some x.gen) ∧
  (∀ (s : State) (pipe n tenant : Nat) (c : Ctx), s.live = true → s.dev.hasCtx 0x0C n tenant c = true →
    c.state = 1 → (s.dev.rconn n).out = [] → 2 ≤ c.retry →
    Acts (.roceNakReceive pipe n tenant c.una .sequence) s fun d =>
      d.ctx 0x0C n = some { c with retry := c.retry - 1 } ∧ d.rconn n = { s.dev.rconn n with unaSince := s.dev.now }) ∧
  (∀ (s : State) (pipe n tenant : Nat) (c : Ctx), s.live = true → s.dev.hasCtx 0x0C n tenant c = true →
    c.state = 1 → (s.dev.rconn n).out = [] → 2 ≤ c.rnr →
    Acts (.roceNakReceive pipe n tenant c.una .rnr) s fun d => d.ctx 0x0C n = some { c with rnr := c.rnr - 1 } ∧
      d.rconn n = { s.dev.rconn n with rnrWait := true }) ∧
  (∀ (s : State) (pipe n tenant : Nat) (c : Ctx) (k : Nak), s.live = true → s.dev.hasCtx 0x0C n tenant c = true →
    c.state = 1 → (s.dev.rconn n).out = [] → (k = .sequence → c.retry ≤ 1) → (k = .rnr → c.rnr ≤ 1) →
    Acts (.roceNakReceive pipe n tenant c.una k) s fun d => d.ctxAny 0x0C n = none ∧
      (s.dev.queue n = none → d.fget Reg.XPT_FAIL.ERRORS = (s.dev.fget Reg.XPT_FAIL.ERRORS + 1) % 2 ^ 32)) ∧
  (∀ (s : State) (pipe n tenant psn : Nat) (c : Ctx) (m : TxMsg) (x : Xfer) (data : List Byte), s.live = true →
    s.dev.hasCtx 0x0C n tenant c = true → c.state = 1 → (s.dev.rconn n).out = [m] → m.op = .read → m.state = .sent →
    m.xfer = some x → m.readFrom c.mtu = some psn → data.length ≤ c.mtu → x.got + data.length < x.len →
    Acts (.roceReadResponse pipe n tenant psn data false) s fun d =>
      (d.rconn n).out = [{ m with xfer := some { x with got := x.got + data.length } }] ∧
      d.map = ((s.dev.takeIn 1 n).land x.tenant x.nsh x.token (x.off / 4096 * 4096 + x.got) data false).map) ∧
  (∀ (s : State) (pipe n tenant psn : Nat) (c : Ctx) (m : TxMsg) (x : Xfer) (data : List Byte), s.live = true →
    s.dev.hasCtx 0x0C n tenant c = true → c.state = 1 → (s.dev.rconn n).out = [m] → m.op = .read → m.state = .sent →
    m.xfer = some x → x.relay = false → m.readFrom c.mtu = some psn → data.length ≤ c.mtu →
    x.got + data.length = x.len → s.dev.pitch.queue.length < 8192 → s.dev.pitch.held = [] →
    Acts (.roceReadResponse pipe n tenant psn data false) s fun d => (d.rconn n).out = [] ∧
      d.map = ((s.dev.takeIn 1 n).land x.tenant x.nsh x.token (x.off / 4096 * 4096 + x.got) data false).map ∧
      ∃ e, d.pitch.queue = s.dev.pitch.queue ++ [e] ∧ e.typ = 0x08 ∧ e.gen = some x.gen) ∧
  (∀ (s : State) (pipe n tenant psn : Nat) (c : Ctx) (data : List Byte), s.live = true →
    s.dev.hasCtx 0x0C n tenant c = true → (∀ m ∈ (s.dev.rconn n).out, m.readFrom c.mtu ≠ some psn) →
    Acts (.roceReadResponse pipe n tenant psn data false) s fun d => d.xpt = s.dev.xpt ∧ d.map = s.dev.map) ∧
  (∀ (s : State) (n : Nat) (c : Ctx), s.live = true → s.dev.transOn 0x0C = true → s.dev.ctx 0x0C n = some c → c.state = 1 →
    c.una ≠ c.npsn → (s.dev.rconn n).unaSince + s.dev.fget Reg.XPT_TIMER.ACK_TO_US * 1000 ≤ s.dev.now → 2 ≤ c.retry →
    (s.dev.rconn n).out = [] →
    Acts (.roceAckTimeout n) s fun d => d.ctx 0x0C n = some { c with retry := c.retry - 1 } ∧
      d.rconn n = { s.dev.rconn n with unaSince := s.dev.now } ∧
      d.fget Reg.XPT_RETX.TIMEOUTS = (s.dev.fget Reg.XPT_RETX.TIMEOUTS + 1) % 2 ^ 32) ∧
  (∀ (s : State) (n : Nat) (c : Ctx), s.live = true → s.dev.transOn 0x0C = true → s.dev.ctx 0x0C n = some c → c.state = 1 →
    c.una ≠ c.npsn → (s.dev.rconn n).unaSince + s.dev.fget Reg.XPT_TIMER.ACK_TO_US * 1000 ≤ s.dev.now → c.retry ≤ 1 →
    Acts (.roceAckTimeout n) s fun d => d.ctxAny 0x0C n = none ∧
      ((s.dev.rconn n).out = [] → s.dev.queue n = none →
        d.fget Reg.XPT_FAIL.ERRORS = (s.dev.fget Reg.XPT_FAIL.ERRORS + 1) % 2 ^ 32)) ∧
  (∀ (s : State) (n : Nat) (c : Ctx), s.live = true → s.dev.ctx 0x0C n = some c → (c.una = c.npsn ∨ c.state ≠ 1 ∨
      s.dev.transOn 0x0C = false ∨ s.dev.now < (s.dev.rconn n).unaSince + s.dev.fget Reg.XPT_TIMER.ACK_TO_US * 1000) →
    Settles (.roceAckTimeout n) s s.dev) ∧
  (∀ (s : State) (n : Nat), s.live = true → s.dev.ctx 0x0C n = none →
    ∀ c ∈ [Instr.roceAckTimeout n, .rnrTimerExpiry n], Settles c s s.dev) ∧
  (∀ (s : State) (n : Nat) (c : Ctx), s.live = true → s.dev.transOn 0x0C = true → s.dev.ctx 0x0C n = some c →
    (s.dev.rconn n).rnrWait = true → (s.dev.rconn n).out = [] →
    Acts (.rnrTimerExpiry n) s fun d => d.rconn n = { s.dev.rconn n with rnrWait := false, unaSince := s.dev.now } ∧
      d.ctx 0x0C n = some c) ∧
  (∀ (s : State) (n : Nat), s.live = true → (s.dev.rconn n).rnrWait = false → Settles (.rnrTimerExpiry n) s s.dev) ∧
  (∀ (s : State) (pipe n tenant : Nat) (c : Ctx), s.live = true → s.dev.hasCtx 0x0C n tenant c = true →
    Tab.look s.dev.sch.lim n = none → s.dev.sch.lim.length < 4096 →
    Acts (.cnpReceive pipe n tenant) s fun d => Tab.look d.sch.lim n = some {
        port := c.egress, rate := (s.dev.portRate c.egress * (256 - s.dev.fget Reg.SCH_CNP.CUT) / 256),
        since := s.dev.now } ∧
      d.fget Reg.XPT_CNP.RECEIVED = (s.dev.fget Reg.XPT_CNP.RECEIVED + 1) % 2 ^ 32) ∧
  (∀ (s : State) (pipe n tenant : Nat) (c : Ctx) (l : Limiter), s.live = true → s.dev.hasCtx 0x0C n tenant c = true →
    Tab.look s.dev.sch.lim n = some l →
    Acts (.cnpReceive pipe n tenant) s fun d => Tab.look d.sch.lim n = some {
        l with
        rate := (max (s.dev.fget Reg.SCH_CNP.MIN * 100) (l.rate * (256 - s.dev.fget Reg.SCH_CNP.CUT) / 256))
        since := s.dev.now } ∧
      d.fget Reg.XPT_CNP.RECEIVED = (s.dev.fget Reg.XPT_CNP.RECEIVED + 1) % 2 ^ 32) ∧
  (∀ (s : State) (x : Desc) (data : List Byte) (h : Nat), s.live = true → s.dev.transOn 0x0C = true →
    h = s.dev.fget Reg.CLS_WRING_IDX.HEAD → s.dev.fget Reg.CLS_WRING.LOG2 ≤ 12 →
    (h + 1) % 2 ^ s.dev.fget Reg.CLS_WRING.LOG2 ≠
      s.dev.fget Reg.CLS_WRING_IDX.TAIL % 2 ^ s.dev.fget Reg.CLS_WRING.LOG2 →
    Acts (.cmMadReceive x data) s fun d =>
      d.fget Reg.CLS_WRING_IDX.HEAD = (h + 1) % 2 ^ s.dev.fget Reg.CLS_WRING.LOG2 ∧
      ∀ i, i < 256 → i < x.len → i < data.length →
        d.mem.dram.byte (s.dev.fget Reg.CLS_WRING.ADDR * 4096 + 320 * h + 64 + i) = data.getD i 0) ∧
  (∀ (s : State) (x : Desc) (data : List Byte), s.live = true → s.dev.transOn 0x0C = true →
    (s.dev.fget Reg.CLS_WRING_IDX.HEAD + 1) % 2 ^ s.dev.fget Reg.CLS_WRING.LOG2 =
      s.dev.fget Reg.CLS_WRING_IDX.TAIL % 2 ^ s.dev.fget Reg.CLS_WRING.LOG2 →
    Acts (.cmMadReceive x data) s fun d => d.mem = s.dev.mem ∧
      d.fget Reg.CLS_WRING_LOST.COUNT = (s.dev.fget Reg.CLS_WRING_LOST.COUNT + 1) % 2 ^ 32) ∧
  (∀ (s : State) (x : Desc) (data : List Byte), s.live = true → s.dev.transOn 0x0C = false →
    Settles (.cmMadReceive x data) s s.dev)

/-- Contexts (R323, R325 to R327, R341, R344, R345). A fetched context is resident as its image says, in the place of the
least recently used evictable one when none is free, and the frames that waited for it act; an open takes the image that
firmware built, refuses one out of range, refuses without a number, and waits while no slot can be freed, at most 1 ms (the
RESULT then is the model's, log 30); a close frees the context; a move sets its egress; a bind gives it its session slot. -/
def Obligations.TransportContexts : Prop :=
  (∀ (s : State) (n : Nat), s.live = true → s.dev.transOn 0x0C = true → s.dev.ctx 0x0C n = none →
    (s.dev.tport 0x0C).spilled.contains n = true → (s.dev.tport 0x0C).res.length < s.dev.ctxRes 0x0C →
    s.dev.inMiss n = false → (s.dev.sconn n).rxWait = [] →
    Acts (.contextFetchDone n) s fun d => d.ctx 0x0C n = some (readCtx s.dev.mem.dram (s.dev.spillAddr 0x0C n)) ∧
      (d.tport 0x0C).spilled.contains n = false ∧
      d.fget Reg.XPT_MISS.FETCHES = (s.dev.fget Reg.XPT_MISS.FETCHES + 1) % 2 ^ 32) ∧
  (∀ (s : State) (n : Nat), s.live = true → s.dev.transOn 0x0C = true → s.dev.ctx 0x0C n = none →
    (s.dev.tport 0x0C).spilled.contains n = true → (s.dev.tport 0x0C).res.length < s.dev.ctxRes 0x0C →
    s.dev.trans.miss = [(0, [{ ctx := n, rx := .cnp }])] → (s.dev.sconn n).rxWait = [] →
    Acts (.contextFetchDone n) s fun d => d.ctx 0x0C n = some (readCtx s.dev.mem.dram (s.dev.spillAddr 0x0C n)) ∧
      d.trans.miss = [(0, [])] ∧ (Tab.look d.sch.lim n).isSome = true ∧
      d.fget Reg.XPT_CNP.RECEIVED = (s.dev.fget Reg.XPT_CNP.RECEIVED + 1) % 2 ^ 32) ∧
  (∀ (s : State) (n v : Nat) (c : Ctx), s.live = true → s.dev.transOn 0x0C = true → s.dev.ctx 0x0C n = none →
    (s.dev.tport 0x0C).spilled.contains n = true → s.dev.ctxRes 0x0C ≤ (s.dev.tport 0x0C).res.length →
    s.dev.inMiss n = false → (s.dev.sconn n).rxWait = [] → s.dev.victim 0x0C = some v → s.dev.ctx 0x0C v = some c → v ≠ n →
    Acts (.contextFetchDone n) s fun d => d.ctx 0x0C n = some (readCtx s.dev.mem.dram (s.dev.spillAddr 0x0C n)) ∧
      d.ctx 0x0C v = none ∧ (d.tport 0x0C).spilled.contains v = true ∧
      d.mem.dram = s.dev.mem.dram.setBytes (s.dev.spillAddr 0x0C v) c.bytes) ∧
  (∀ (s : State) (n : Nat), s.live = true → s.dev.transOn 0x0D = true → s.dev.ctxAny 0x0C n = none →
    s.dev.ctx 0x0D n = none → (s.dev.tport 0x0D).spilled.contains n = true →
    (s.dev.tport 0x0D).res.length < s.dev.ctxRes 0x0D → s.dev.inMiss n = false → (s.dev.sconn n).rxWait = [] →
    Acts (.contextFetchDone n) s fun d => d.ctx 0x0D n = some (readCtx s.dev.mem.dram (s.dev.spillAddr 0x0D n)) ∧
      (d.tport 0x0D).spilled.contains n = false ∧
      d.fget Reg.STR_MISS.FETCHES = (s.dev.fget Reg.STR_MISS.FETCHES + 1) % 2 ^ 32) ∧
  (∀ (s : State) (n : Nat) (c : Ctx), s.live = true → s.dev.transOn 0x0D = true → s.dev.ctxAny 0x0C n = none →
    s.dev.ctx 0x0D n = some c → s.dev.inMiss n = false → bitOf c.flags 2 = true → (s.dev.sconn n).rxHeld = false →
    (s.dev.sconn n).rxWait = [.keyUpdate] →
    Acts (.contextFetchDone n) s fun d => d.sconn n = { s.dev.sconn n with rxWait := [], rxHeld := true }) ∧
  (∀ (s : State) (n : Nat), s.live = true → s.dev.ctxAny 0x0C n = none → s.dev.ctxAny 0x0D n = none →
    Settles (.contextFetchDone n) s s.dev) ∧
  (∀ (s : State) (n : Nat), s.live = true → (s.dev.ctxAny 0x0C n).isSome = true → s.dev.ctx 0x0C n = none →
    (s.dev.makeSlot 0x0C).2 = false → Settles (.contextFetchDone n) s s.dev) ∧
  (∀ (s : State) (w : OpenWait), s.live = true → (s.dev.tport 0x0C).wait = some w →
    (s.dev.tport 0x0C).res.length < s.dev.ctxRes 0x0C →
    Acts (.contextOpenResume 0x0C) s fun d => d.ctx 0x0C w.ctx = some w.img ∧ (d.tport 0x0C).wait = none ∧
      d.fget Reg.XPT_CTX_CMD.RESULT = 0 ∧ d.fget Reg.XPT_CTX_CMD.BUSY = 0) ∧
  (∀ (s : State) (w : OpenWait), s.live = true → (s.dev.tport 0x0D).wait = some w →
    (s.dev.tport 0x0D).res.length < s.dev.ctxRes 0x0D →
    Acts (.contextOpenResume 0x0D) s fun d => d.ctx 0x0D w.ctx = some w.img ∧ (d.tport 0x0D).wait = none ∧
      d.sconn w.ctx = {}) ∧
  (∀ (s : State) (w : OpenWait), s.live = true → (s.dev.tport 0x0C).wait = some w → (s.dev.makeSlot 0x0C).2 = false →
    w.since + 1000000 ≤ s.dev.now →
    Acts (.contextOpenResume 0x0C) s fun d => (d.tport 0x0C).wait = none ∧ (d.tport 0x0C).res = (s.dev.tport 0x0C).res ∧
      d.fget Reg.XPT_CTX_CMD.RESULT = 7 ∧ d.fget Reg.XPT_CTX_CMD.BUSY = 0 ∧
      d.fget Reg.XPT_FAIL.REFUSED = (s.dev.fget Reg.XPT_FAIL.REFUSED + 1) % 2 ^ 32) ∧
  (∀ (s : State) (blk : Nat) (w : OpenWait), s.live = true → (s.dev.tport blk).wait = some w →
    (s.dev.makeSlot blk).2 = false → s.dev.now < w.since + 1000000 → Settles (.contextOpenResume blk) s s.dev) ∧
  (∀ (s : State) (blk : Nat), s.live = true → (s.dev.tport blk).wait = none → Settles (.contextOpenResume blk) s s.dev) ∧
  (∀ (s : State) (n : Nat), s.live = true → s.dev.serves 0x0C = true → s.dev.fget Reg.XPT_CTX_CMD.BUSY = 0 →
    imageOk s.dev.mem.dram (s.dev.fget Reg.XPT_CTX_IMG.ADDR) = true → s.dev.freeCtxNo 0x0C = some n → n < 2 ^ 18 →
    (s.dev.tport 0x0C).res.length < s.dev.ctxRes 0x0C →
    Acts .xptCtxOpen s fun d =>
      d.ctx 0x0C n = some (readCtx s.dev.mem.dram (s.dev.fget Reg.XPT_CTX_IMG.ADDR)) ∧
      d.fget Reg.XPT_CTX_CMD.CONTEXT = n ∧ d.fget Reg.XPT_CTX_CMD.RESULT = 0 ∧ (d.rconn n).out = []) ∧
  (∀ (s : State) (n : Nat), s.live = true → s.dev.serves 0x0C = true → s.dev.fget Reg.XPT_CTX_CMD.BUSY = 0 →
    imageOk s.dev.mem.dram (s.dev.fget Reg.XPT_CTX_IMG.ADDR) = true → s.dev.freeCtxNo 0x0C = some n →
    (s.dev.makeSlot 0x0C).2 = false →
    Acts .xptCtxOpen s fun d => d.fget Reg.XPT_CTX_CMD.BUSY = 1 ∧ (d.tport 0x0C).res = (s.dev.tport 0x0C).res ∧
      (d.tport 0x0C).wait = some { ctx := n, img := (readCtx s.dev.mem.dram (s.dev.fget Reg.XPT_CTX_IMG.ADDR)),
                                   since := s.dev.now }) ∧
  (∀ (s : State), s.live = true → s.dev.serves 0x0C = true → s.dev.fget Reg.XPT_CTX_CMD.BUSY = 0 →
    imageOk s.dev.mem.dram (s.dev.fget Reg.XPT_CTX_IMG.ADDR) = false →
    Acts .xptCtxOpen s fun d => d.xpt = s.dev.xpt ∧ d.fget Reg.XPT_CTX_CMD.RESULT = 2) ∧
  (∀ (s : State), s.live = true → s.dev.serves 0x0C = true → s.dev.fget Reg.XPT_CTX_CMD.BUSY = 0 →
    imageOk s.dev.mem.dram (s.dev.fget Reg.XPT_CTX_IMG.ADDR) = true → s.dev.freeCtxNo 0x0C = none →
    Acts .xptCtxOpen s fun d => d.xpt = s.dev.xpt ∧ d.fget Reg.XPT_CTX_CMD.RESULT = 7 ∧
      d.fget Reg.XPT_FAIL.REFUSED = (s.dev.fget Reg.XPT_FAIL.REFUSED + 1) % 2 ^ 32) ∧
  (∀ (s : State), s.live = true → (s.dev.serves 0x0C = false ∨ s.dev.fget Reg.XPT_CTX_CMD.BUSY = 1) →
    Settles .xptCtxOpen s s.dev) ∧
  (∀ (s : State) (n : Nat) (c : Ctx), s.live = true → s.dev.on 0x0C = true → s.dev.fget Reg.XPT_CTX_CMD.BUSY = 0 →
    s.dev.ctxAny 0x0C n = some c →
    Acts (.xptCtxClose n) s fun d => d.ctxAny 0x0C n = none ∧ Tab.look d.xpt.conns n = none ∧
      (s.dev.ctx 0x0C n = some c → s.dev.queue n = none → (s.dev.rconn n).out = [] →
        d.fget Reg.XPT_CTX_CMD.RESULT = 0)) ∧
  (∀ (s : State) (n : Nat), s.live = true → s.dev.on 0x0C = true → s.dev.fget Reg.XPT_CTX_CMD.BUSY = 0 →
    s.dev.ctxAny 0x0C n = none →
    (Acts (.xptCtxClose n) s fun d => d.xpt = s.dev.xpt ∧ d.fget Reg.XPT_CTX_CMD.RESULT = 0x20) ∧
    (Acts (.xptCtxMove n) s fun d => d.xpt = s.dev.xpt ∧ d.fget Reg.XPT_CTX_CMD.RESULT = 0x20)) ∧
  (∀ (s : State) (n : Nat) (c : Ctx), s.live = true → s.dev.on 0x0C = true → s.dev.fget Reg.XPT_CTX_CMD.BUSY = 0 →
    s.dev.ctx 0x0C n = some c → s.dev.mem.dram.read (s.dev.fget Reg.XPT_CTX_IMG.ADDR + 10) 1 < 16 →
    Acts (.xptCtxMove n) s fun d => d.fget Reg.XPT_CTX_CMD.RESULT = 0 ∧
      d.ctx 0x0C n = some { c with egress := s.dev.mem.dram.read (s.dev.fget Reg.XPT_CTX_IMG.ADDR + 10) 1 }) ∧
  (∀ (s : State) (n : Nat) (c : Ctx), s.live = true → s.dev.on 0x0C = true → s.dev.fget Reg.XPT_CTX_CMD.BUSY = 0 →
    s.dev.ctx 0x0C n = some c → 16 ≤ s.dev.mem.dram.read (s.dev.fget Reg.XPT_CTX_IMG.ADDR + 10) 1 →
    Acts (.xptCtxMove n) s fun d => d.fget Reg.XPT_CTX_CMD.RESULT = 2 ∧ d.xpt = s.dev.xpt) ∧
  (∀ (s : State) (n : Nat), s.live = true → (s.dev.on 0x0C = false ∨ s.dev.fget Reg.XPT_CTX_CMD.BUSY = 1) →
    ∀ c ∈ [Instr.xptCtxClose n, .xptCtxMove n], Settles c s s.dev) ∧
  (∀ (s : State) (n slot : Nat) (c : Ctx), s.live = true → s.dev.on 0x0D = true → s.dev.fget Reg.STR_CTX_CMD.BUSY = 0 →
    slot < 12288 → s.dev.ctx 0x0D n = some c → s.dev.boundSlots.contains slot = false →
    s.dev.boundSlots.length < 12288 →
    Acts (.strCtxBind n slot) s fun d => d.fget Reg.STR_CTX_CMD.RESULT = 0 ∧ d.ctx 0x0D n = some { c with
      keySlot := slot, flags := c.flags ||| 4, state := 1, rxRseq := 0, txRseq := 0 }) ∧
  (∀ (s : State) (n slot : Nat), s.live = true → s.dev.on 0x0D = true → s.dev.fget Reg.STR_CTX_CMD.BUSY = 0 →
    12288 ≤ slot →
    Acts (.strCtxBind n slot) s fun d => d.stm = s.dev.stm ∧ d.fget Reg.STR_CTX_CMD.RESULT = 2) ∧
  (∀ (s : State) (n slot : Nat) (c : Ctx), s.live = true → s.dev.on 0x0D = true → s.dev.fget Reg.STR_CTX_CMD.BUSY = 0 →
    slot < 12288 → s.dev.ctx 0x0D n = some c → s.dev.boundSlots.contains slot = true →
    Acts (.strCtxBind n slot) s fun d => d.ctxAny 0x0D n = none ∧
      (s.dev.queue n = none → s.dev.sconn n = {} → d.fget Reg.STR_CTX_CMD.RESULT = 7)) ∧
  (∀ (s : State) (n : Nat) (c : Ctx), s.live = true → s.dev.on 0x0D = true → s.dev.fget Reg.STR_CTX_CMD.BUSY = 0 →
    s.dev.ctx 0x0D n = some c →
    Acts (.strCtxClose n) s fun d => d.ctxAny 0x0D n = none ∧ Tab.look d.stm.conns n = none ∧
      (s.dev.queue n = none → s.dev.sconn n = {} → d.fget Reg.STR_CTX_CMD.RESULT = 0)) ∧
  (∀ (s : State) (n slot : Nat), s.live = true → s.dev.on 0x0D = true → s.dev.fget Reg.STR_CTX_CMD.BUSY = 0 →
    slot < 12288 → s.dev.ctxAny 0x0D n = none →
    (Acts (.strCtxClose n) s fun d => d.stm = s.dev.stm ∧ d.fget Reg.STR_CTX_CMD.RESULT = 0x20) ∧
    (Acts (.strCtxBind n slot) s fun d => d.stm = s.dev.stm ∧ d.fget Reg.STR_CTX_CMD.RESULT = 0x20)) ∧
  (∀ (s : State) (n slot : Nat), s.live = true → (s.dev.on 0x0D = false ∨ s.dev.fget Reg.STR_CTX_CMD.BUSY = 1) →
    ∀ c ∈ [Instr.strCtxClose n, .strCtxBind n slot], Settles c s s.dev)

/-- TCP, NVMe/TCP and TLS (R324, R327, R336 to R344, R384). A SYN is answered without being held; a segment in order is taken,
one out of order is answered with a duplicate ACK; the completing ACK opens a context; a reset, a FIN in order, a termination
PDU, an alert, a bad digest, a PDU that breaks the protocol or the last retransmission ends the connection; ICReq makes the
connection ready; a capsule is taken, or held under TLS; data lands at the place its R2T names; a record that verifies counts,
one that does not ends the connection, and a handshake goes to firmware; a KeyUpdate holds reception, and what follows
waits. -/
def Obligations.TcpAndTls : Prop :=
  (∀ (s : State) (port tenant : Nat), s.live = true → s.dev.transOn 0x0D = true →
    Settles (.tcpSynReceive port tenant) s (s.dev.emit { tenant := tenant, tclass := 0, len := 78, cells := 1,
                                                          ports := [port] })) ∧
  (∀ (s : State) (port tenant pipe n : Nat) (g : TcpSeg) (c : Ctx), s.live = true → s.dev.transOn 0x0D = false →
    ∀ i ∈ [Instr.tcpSynReceive port tenant, .tcpSegmentReceive (.stray port tenant), .tcpSegmentReceive (.opens port c),
      .tcpSegmentReceive (.conn pipe n tenant g)],
    Settles i s s.dev) ∧
  (∀ (s : State) (port tenant : Nat), s.live = true → s.dev.transOn 0x0D = true →
    Settles (.tcpSegmentReceive (.stray port tenant)) s (s.dev.emit { tenant := tenant, tclass := 0, len := 78, cells := 1,
                                                                      ports := [port] })) ∧
  (∀ (s : State) (pipe n tenant : Nat) (g : TcpSeg), s.live = true → s.dev.transOn 0x0D = true →
    (s.dev.ctxAny 0x0D n = none ∨ s.dev.ctxIn 0x0D n = false ∨ ∃ x, s.dev.ctxAny 0x0D n = some x ∧ x.tenant ≠ tenant) →
    Acts (.tcpSegmentReceive (.conn pipe n tenant g)) s fun d => d.stm = s.dev.stm ∧ d.trans = s.dev.trans ∧
      d.fget Reg.STR_MISS.TENANT = min (s.dev.fget Reg.STR_MISS.TENANT + 1) 65535) ∧
  (∀ (s : State) (pipe n tenant : Nat) (g : TcpSeg) (x : Ctx), s.live = true → s.dev.transOn 0x0D = true →
    s.dev.ctx 0x0D n = none → s.dev.ctxAny 0x0D n = some x → x.tenant = tenant → s.dev.ctxIn 0x0D n = true → pipe < 2 →
    s.dev.inMiss n = false → ((Tab.look s.dev.trans.miss pipe).getD []).length < 512 →
    Acts (.tcpSegmentReceive (.conn pipe n tenant g)) s fun d => d.stm = s.dev.stm ∧
      Tab.look d.trans.miss pipe = some ((Tab.look s.dev.trans.miss pipe).getD [] ++ [{ ctx := n, rx := .segment g }])) ∧
  (∀ (s : State) (pipe n tenant : Nat) (g : TcpSeg) (c : Ctx), s.live = true → s.dev.hasCtx 0x0D n tenant c = true →
    g.rst = true →
    Acts (.tcpSegmentReceive (.conn pipe n tenant g)) s fun d => d.ctxAny 0x0D n = none) ∧
  (∀ (s : State) (pipe n tenant : Nat) (g : TcpSeg) (c : Ctx), s.live = true → s.dev.hasCtx 0x0D n tenant c = true →
    g.rst = false → g.fin = false → 0 < g.len → g.seq = c.rcvNxt → c.flight = 0 → g.ack = c.sndUna →
    (s.dev.sconn n).out = [] →
    Acts (.tcpSegmentReceive (.conn pipe n tenant g)) s fun d => d.ctx 0x0D n = some { c with
      rcvNxt := (c.rcvNxt + g.len) % 2 ^ 32, sndWnd := g.wnd * 2 ^ c.sndScale, tsRecent := g.tsval }) ∧
  (∀ (s : State) (pipe n tenant : Nat) (g : TcpSeg) (c : Ctx), s.live = true → s.dev.hasCtx 0x0D n tenant c = true →
    g.rst = false → g.fin = true → g.seq = c.rcvNxt → c.rcvNxt < 2 ^ 32 → c.flight = 0 → g.ack = c.sndUna →
    (s.dev.sconn n).out = [] →
    Acts (.tcpSegmentReceive (.conn pipe n tenant g)) s fun d => d.ctxAny 0x0D n = none) ∧
  (∀ (s : State) (pipe n tenant : Nat) (g : TcpSeg) (c : Ctx), s.live = true → s.dev.hasCtx 0x0D n tenant c = true →
    g.rst = false → 0 < g.len → g.seq ≠ c.rcvNxt → c.flight = 0 → g.ack = c.sndUna → (s.dev.sconn n).out = [] →
    Acts (.tcpSegmentReceive (.conn pipe n tenant g)) s fun d => d.ctx 0x0D n = some { c with
      sndWnd := g.wnd * 2 ^ c.sndScale, tsRecent := g.tsval }) ∧
  (∀ (s : State) (pipe n tenant : Nat) (g : TcpSeg) (c : Ctx), s.live = true → s.dev.hasCtx 0x0D n tenant c = true →
    g.rst = false → g.fin = false → g.len = 0 → g.ece = false → g.rtt = none → 0 < seqDiff c.sndUna g.ack →
    seqDiff c.sndUna g.ack ≤ c.flight → (s.dev.sconn n).out = [] → (s.dev.sconn n).recover = none → c.cwnd < c.ssthresh →
    Acts (.tcpSegmentReceive (.conn pipe n tenant g)) s fun d => (d.sconn n).timeouts = 0 ∧
      (d.sconn n).rtoFrom = s.dev.now ∧ d.ctx 0x0D n = some { c with
        sndUna := g.ack, sndWnd := g.wnd * 2 ^ c.sndScale, tsRecent := g.tsval,
        cwnd := (c.cwnd + min (seqDiff c.sndUna g.ack) (max 1 c.mss)) }) ∧
  (∀ (s : State) (pipe n tenant : Nat) (g : TcpSeg) (c : Ctx), s.live = true → s.dev.hasCtx 0x0D n tenant c = true →
    g.rst = false → g.fin = false → g.len = 0 → g.sack = [] → (s.dev.sconn n).sacked = [] → g.ack = c.sndUna →
    c.sndUna < 2 ^ 32 → 0 < c.flight → g.wnd * 2 ^ c.sndScale = c.sndWnd → (s.dev.sconn n).recover = none →
    (s.dev.sconn n).dupAcks = 2 →
    Acts (.tcpSegmentReceive (.conn pipe n tenant g)) s fun d =>
      d.sconn n = { s.dev.sconn n with dupAcks := 3, recover := some c.sndNxt } ∧
      d.ctx 0x0D n = some { c with
        ssthresh := (max (c.flight / 2) (2 * max 1 c.mss)),
        cwnd := (max (c.flight / 2) (2 * max 1 c.mss) + 3 * max 1 c.mss) } ∧
      d.fget Reg.STR_ERR.RETX = (s.dev.fget Reg.STR_ERR.RETX + 1) % 2 ^ 32) ∧
  (∀ (s : State) (port n : Nat) (tls : Bool) (c : Ctx), s.live = true → s.dev.transOn 0x0D = true →
    s.dev.listens (bitsOf c.ports 31 16) = some tls → s.dev.freeCtxNo 0x0D = some n →
    (s.dev.tport 0x0D).res.length < s.dev.ctxRes 0x0D →
    Acts (.tcpSegmentReceive (.opens port c)) s fun d => ∃ c', d.ctx 0x0D n = some c' ∧ c'.kind = 2 ∧
      c'.state = (if tls then 2 else 1) ∧ c'.egress = port ∧ c'.tenant = c.tenant ∧ c'.ports = c.ports ∧ d.sconn n = {}) ∧
  (∀ (s : State) (port : Nat) (c : Ctx), s.live = true → s.dev.transOn 0x0D = true →
    s.dev.listens (bitsOf c.ports 31 16) = none →
    Settles (.tcpSegmentReceive (.opens port c)) s (s.dev.emit { tenant := c.tenant, tclass := 0, len := 78, cells := 1,
                                                                 ports := [port] })) ∧
  (∀ (s : State) (port : Nat) (tls : Bool) (c : Ctx), s.live = true → s.dev.transOn 0x0D = true →
    s.dev.listens (bitsOf c.ports 31 16) = some tls → s.dev.freeCtxNo 0x0D = none →
    Acts (.tcpSegmentReceive (.opens port c)) s fun d => d.stm = s.dev.stm ∧
      d.fget Reg.STR_ERR.REFUSED = min (s.dev.fget Reg.STR_ERR.REFUSED + 1) 65535) ∧
  (∀ (s : State) (n : Nat) (c : Ctx), s.live = true → s.dev.transOn 0x0D = true → s.dev.ctx 0x0D n = some c →
    c.flight ≠ 0 → (s.dev.sconn n).rtoFrom + s.dev.rtoUs c (s.dev.sconn n).timeouts * 1000 ≤ s.dev.now →
    (s.dev.sconn n).timeouts + 1 < s.dev.fget Reg.STR_TCP.RETRIES →
    Acts (.tcpRtoExpiry n) s fun d => (d.sconn n).timeouts = (s.dev.sconn n).timeouts + 1 ∧
      (d.sconn n).rtoFrom = s.dev.now ∧ (d.sconn n).recover = none ∧ d.ctx 0x0D n = some { c with
        ssthresh := max (c.flight / 2) (2 * max 1 c.mss), cwnd := max 1 c.mss } ∧
      d.fget Reg.STR_ERR.RETX = (s.dev.fget Reg.STR_ERR.RETX + 1) % 2 ^ 32) ∧
  (∀ (s : State) (n : Nat) (c : Ctx), s.live = true → s.dev.transOn 0x0D = true → s.dev.ctx 0x0D n = some c →
    c.flight ≠ 0 → (s.dev.sconn n).rtoFrom + s.dev.rtoUs c (s.dev.sconn n).timeouts * 1000 ≤ s.dev.now →
    s.dev.fget Reg.STR_TCP.RETRIES ≤ (s.dev.sconn n).timeouts + 1 →
    Acts (.tcpRtoExpiry n) s fun d => d.ctxAny 0x0D n = none) ∧
  (∀ (s : State) (n : Nat) (c : Ctx), s.live = true → s.dev.ctx 0x0D n = some c → (c.flight = 0 ∨
      s.dev.transOn 0x0D = false ∨ s.dev.now < (s.dev.sconn n).rtoFrom + s.dev.rtoUs c (s.dev.sconn n).timeouts * 1000) →
    Settles (.tcpRtoExpiry n) s s.dev) ∧
  (∀ (s : State) (n : Nat), s.live = true → s.dev.ctx 0x0D n = none → Settles (.tcpRtoExpiry n) s s.dev) ∧
  (∀ (s : State) (n pfv hpda ttag off : Nat) (h g lenOk good : Bool) (k : HeldCap) (data header sealed : List Byte),
    s.live = true → (s.dev.transOn 0x0D = false ∨ s.dev.ctxAny 0x0D n = none) →
    ∀ i ∈ [Instr.icreq n pfv hpda h g lenOk, .capsulecmd n k lenOk good, .h2cdata n ttag off data lenOk good, .h2ctermreq n,
      .tlsRecordReceive n header sealed, .tlsKeyupdateReceive n, .tlsAlertReceive n],
    Settles i s s.dev) ∧
  (∀ (s : State) (n pfv hpda ttag off : Nat) (h g lenOk good : Bool) (k : HeldCap) (data header sealed : List Byte) (c : Ctx),
    s.live = true → s.dev.transOn 0x0D = true → s.dev.ctxAny 0x0D n = some c →
    (s.dev.ctx 0x0D n = none ∨ s.dev.inMiss n = true ∨ (s.dev.sconn n).rxHeld = true ∨ (s.dev.sconn n).rxWait ≠ []) →
    ∀ i ∈ [Instr.icreq n pfv hpda h g lenOk, .capsulecmd n k lenOk good, .h2cdata n ttag off data lenOk good, .h2ctermreq n,
      .tlsRecordReceive n header sealed, .tlsKeyupdateReceive n, .tlsAlertReceive n],
    Acts i s fun d => d.hostq = s.dev.hostq ∧ d.map = s.dev.map ∧
      ∃ p, d.sconn n = { s.dev.sconn n with rxWait := (s.dev.sconn n).rxWait ++ [p] }) ∧
  (∀ (s : State) (n hpda : Nat) (h g : Bool) (c : Ctx), s.live = true → s.dev.pduTakes n c = true →
    (s.dev.sconn n).ready = false → hpda < 32 →
    Acts (.icreq n 0 hpda h g true) s fun d => (d.sconn n).ready = true ∧
      (d.sconn n).hdgst = (h && decide (s.dev.fget Reg.STR_CFG.HDGST_OK = 1)) ∧
      (d.sconn n).ddgst = (g && decide (s.dev.fget Reg.STR_CFG.DDGST_OK = 1)) ∧
      ∃ c', d.ctx 0x0D n = some c' ∧ c'.hpda = hpda) ∧
  (∀ (s : State) (n pfv hpda : Nat) (h g lenOk : Bool) (c : Ctx), s.live = true → s.dev.pduTakes n c = true →
    ((s.dev.sconn n).ready = true ∨ lenOk = false ∨ pfv ≠ 0 ∨ 32 ≤ hpda) →
    Acts (.icreq n pfv hpda h g lenOk) s fun d => d.ctxAny 0x0D n = none) ∧
  (∀ (s : State) (n : Nat) (k : HeldCap) (c : Ctx), s.live = true → s.dev.pduTakes n c = true →
    (s.dev.sconn n).ready = true → k.data.length ≤ 8192 → bitOf c.flags 2 = true →
    Settles (.capsulecmd n k true true) s
      (s.dev.setSconn n { s.dev.sconn n with heldCaps := (s.dev.sconn n).heldCaps ++ [k] })) ∧
  (∀ (s : State) (n : Nat) (k : HeldCap) (c : Ctx), s.live = true → s.dev.pduTakes n c = true →
    (s.dev.sconn n).ready = true → k.data = [] → bitOf c.flags 2 = false →
    Settles (.capsulecmd n k true true) s (s.dev.capsule n k.sqe k.nsgl k.sgl k.seg)) ∧
  (∀ (s : State) (n : Nat) (k : HeldCap) (c : Ctx), s.live = true → s.dev.pduTakes n c = true →
    (s.dev.sconn n).ready = true → k.data ≠ [] → k.data.length ≤ 8192 → bitOf c.flags 2 = false → s.dev.queue n = none →
    Acts (.capsulecmd n k true true) s fun d =>
      Tab.look (d.sconn n).inCapsule (sqeCid k.sqe) = some k.data.length ∧
      d.map = (s.dev.land c.tenant 0 (inCapsuleToken n (sqeCid k.sqe)) 0 k.data false).map) ∧
  (∀ (s : State) (n : Nat) (k : HeldCap) (lenOk good : Bool) (c : Ctx), s.live = true → s.dev.pduTakes n c = true →
    ((s.dev.sconn n).ready = false ∨ lenOk = false ∨ good = false ∨ 8192 < k.data.length) →
    Acts (.capsulecmd n k lenOk good) s fun d => d.ctxAny 0x0D n = none ∧
      ((s.dev.sconn n).ready = true → lenOk = true → k.data.length ≤ 8192 → s.dev.queue n = none →
        (s.dev.sconn n).out = [] → (s.dev.sconn n).xfers = [] → (s.dev.sconn n).landed = [] →
        d.fget Reg.STR_ERR.DIGEST = min (s.dev.fget Reg.STR_ERR.DIGEST + 1) 65535)) ∧
  (∀ (s : State) (n ttag off : Nat) (data : List Byte) (c : Ctx) (r : R2t) (x : Xfer), s.live = true →
    s.dev.pduTakes n c = true → (s.dev.sconn n).ready = true → (s.dev.sconn n).r2ts = [r] → r.ttag = ttag →
    (s.dev.sconn n).xfers = [x] → x.handle = r.handle → x.token = r.token → x.off = r.xoff → x.asked = x.len →
    off = r.off + r.got → r.got + data.length < r.len → x.got + data.length < x.len →
    Acts (.h2cdata n ttag off data true true) s fun d =>
      (d.sconn n).r2ts = [{ r with got := r.got + data.length }] ∧
      (d.sconn n).xfers = [{ x with got := x.got + data.length }] ∧ d.ctx 0x0D n = some c ∧
      d.map = (s.dev.land x.tenant x.nsh x.token (x.off / 4096 * 4096 + (off - x.off)) data (bitOf c.flags 2)).map) ∧
  (∀ (s : State) (n ttag off : Nat) (data : List Byte) (c : Ctx) (r : R2t) (x : Xfer), s.live = true →
    s.dev.pduTakes n c = true → (s.dev.sconn n).ready = true → (s.dev.sconn n).r2ts = [r] → r.ttag = ttag →
    (s.dev.sconn n).xfers = [x] → x.handle = r.handle → x.token = r.token → x.off = r.xoff → x.asked = x.len →
    off = r.off + r.got → r.got + data.length = r.len → x.got + data.length = x.len → x.relay = false →
    bitOf c.flags 2 = false → s.dev.pitch.queue.length < 8192 → s.dev.pitch.held = [] →
    Acts (.h2cdata n ttag off data true true) s fun d => (d.sconn n).r2ts = [] ∧ (d.sconn n).xfers = [] ∧
      (∃ e, d.pitch.queue = s.dev.pitch.queue ++ [e] ∧ e.typ = 0x08 ∧ e.gen = some x.gen) ∧
      d.map = (s.dev.land x.tenant x.nsh x.token (x.off / 4096 * 4096 + (off - x.off)) data false).map) ∧
  (∀ (s : State) (n ttag off : Nat) (data : List Byte) (lenOk good : Bool) (c : Ctx), s.live = true →
    s.dev.pduTakes n c = true →
    ((s.dev.sconn n).ready = false ∨ lenOk = false ∨ good = false ∨ ∀ r ∈ (s.dev.sconn n).r2ts, r.ttag ≠ ttag) →
    Acts (.h2cdata n ttag off data lenOk good) s fun d => d.ctxAny 0x0D n = none) ∧
  (∀ (s : State) (n : Nat) (c : Ctx), s.live = true → s.dev.streamTakes n c = true →
    Acts (.h2ctermreq n) s fun d => d.ctxAny 0x0D n = none) ∧
  (∀ (s : State) (n : Nat) (header sealed : List Byte) (c : Ctx), s.live = true → s.dev.streamTakes n c = true →
    c.state = 2 →
    Acts (.tlsRecordReceive n header sealed) s fun d =>
      d.stm.handshake = s.dev.stm.handshake ++ [(n, header ++ sealed)] ∧ d.stm.conns = s.dev.stm.conns) ∧
  (∀ (s : State) (n : Nat) (header sealed : List Byte) (c : Ctx) (k : SKey), s.live = true → s.dev.pduTakes n c = true →
    bitOf c.flags 2 = true →
    (s.dev.sslot c.keySlot).rx = some k → s.dev.sessRoom c.keySlot false 1 = true → (s.dev.sconn n).heldCaps = [] →
    (s.dev.sconn n).landed = [] → (s.dev.sconn n).xfers = [] → s.dev.queue n = none →
    Acts (.tlsRecordReceive n header sealed) s fun d =>
      (Config.gcmOpen k.key (recordNonce k.iv c.rxRseq) header sealed = none → d.ctxAny 0x0D n = none ∧
        d.fget Reg.STR_TLS.TAG_FAIL = (s.dev.fget Reg.STR_TLS.TAG_FAIL + 1) % 2 ^ 32) ∧
      (∀ plain, Config.gcmOpen k.key (recordNonce k.iv c.rxRseq) header sealed = some plain → innerType plain = 21 →
        d.ctxAny 0x0D n = none) ∧
      (∀ plain, Config.gcmOpen k.key (recordNonce k.iv c.rxRseq) header sealed = some plain → innerType plain ≠ 21 →
        ∃ c', d.ctx 0x0D n = some c' ∧ c'.rxRseq = c.rxRseq + 1) ∧
      (∀ plain, Config.gcmOpen k.key (recordNonce k.iv c.rxRseq) header sealed = some plain → innerType plain = 22 →
        d.stm.handshake = s.dev.stm.handshake ++ [(n, plain)])) ∧
  (∀ (s : State) (n : Nat) (header sealed : List Byte) (c : Ctx) (k : SKey), s.live = true → s.dev.pduTakes n c = true →
    bitOf c.flags 2 = true → (s.dev.sslot c.keySlot).rx = some k → s.dev.sessRoom c.keySlot false 1 = false →
    (s.dev.sconn n).out = [] → (s.dev.sconn n).landed = [] → (s.dev.sconn n).xfers = [] → s.dev.queue n = none →
    Acts (.tlsRecordReceive n header sealed) s fun d => d.ctxAny 0x0D n = none ∧ d.sslot c.keySlot = {} ∧
      d.fget Reg.STR_TLS.HARD_CLOSE = min (s.dev.fget Reg.STR_TLS.HARD_CLOSE + 1) 65535) ∧
  (∀ (s : State) (n : Nat) (header sealed : List Byte) (c : Ctx), s.live = true → s.dev.streamTakes n c = true →
    c.state ≠ 2 → (bitOf c.flags 2 = false ∨ (s.dev.sslot c.keySlot).rx = none) →
    Settles (.tlsRecordReceive n header sealed) s s.dev) ∧
  (∀ (s : State) (n : Nat) (c : Ctx), s.live = true → s.dev.streamTakes n c = true → bitOf c.flags 2 = true →
    Acts (.tlsKeyupdateReceive n) s fun d => d.sconn n = { s.dev.sconn n with rxHeld := true } ∧
      d.fget Reg.STR_TLS.KEYUPDATE = min (s.dev.fget Reg.STR_TLS.KEYUPDATE + 1) 65535 ∧ d.ctx 0x0D n = some c) ∧
  (∀ (s : State) (n : Nat) (c : Ctx), s.live = true → s.dev.streamTakes n c = true → bitOf c.flags 2 = true →
    Acts (.tlsAlertReceive n) s fun d => d.ctxAny 0x0D n = none) ∧
  (∀ (s : State) (n : Nat) (c : Ctx), s.live = true → s.dev.streamTakes n c = true → bitOf c.flags 2 = false →
    ∀ i ∈ [Instr.tlsKeyupdateReceive n, .tlsAlertReceive n], Settles i s s.dev)

/-- CIPHER (R371 to R376, R283, R385 to R388). A load into a wrong slot or from a malformed record answers result 2 and one
whose key does not unwrap result 5, with no slot changed; a record that unwraps to its own head makes an EMPTY slot's current
generation, or its standby after the checks of R372, or a session key whose connection goes on; a destroy empties one slot or
all. A unit is sealed under its slot's current key, with its write's ordering number in its tag; without a key it waits, and
one whose data CRC differs withdraws its write. A unit read is delivered when its tag matches, and goes to level 4 or is
unrecovered when it does not; a move keeps it, re-encrypted for a re-key. A finished seal or read posts CIPHER_DONE, and a
generation with no unit left is zeroised. -/
def Obligations.Cipher : Prop :=
  (∀ (s : State) (session : Bool) (slot a : Nat), s.live = true → s.dev.on 0x18 = true →
    s.dev.fget Reg.CPH_LOAD_CTRL.BUSY = 0 → a = s.dev.fget Reg.CPH_LOAD.ADDR → slot < 16384 →
    (session = true ∧ 12288 ≤ slot ∨ 2 < s.dev.mem.dram.read (a + 6) 1 ∨ s.dev.mem.dram.read (a + 88) 8 ≠ 0 ∨
      32768 ≤ s.dev.mem.dram.read a 2 ∨ 16384 ≤ s.dev.mem.dram.read (a + 2) 2 ∨ 4096 ≤ s.dev.mem.dram.read (a + 4) 2) →
    Acts (.keyLoad session slot) s fun d => d.fget Reg.CPH_LOAD_CTRL.RESULT = 2 ∧ d.cipher = s.dev.cipher) ∧
  (∀ (s : State) (session : Bool) (slot a : Nat), s.live = true → s.dev.on 0x18 = true →
    s.dev.fget Reg.CPH_LOAD_CTRL.BUSY = 0 → slot < 12288 → a = s.dev.fget Reg.CPH_LOAD.ADDR →
    s.dev.mem.dram.read a 2 < 32768 → s.dev.mem.dram.read (a + 2) 2 < 16384 → s.dev.mem.dram.read (a + 4) 2 < 4096 →
    s.dev.mem.dram.read (a + 6) 1 = 0 → s.dev.mem.dram.read (a + 88) 8 = 0 → s.dev.anchor.kek = none →
    Acts (.keyLoad session slot) s fun d => d.fget Reg.CPH_LOAD_CTRL.RESULT = 5 ∧ d.cipher = s.dev.cipher) ∧
  (∀ (s : State) (slot a : Nat) (kek : List Byte), s.live = true → s.dev.on 0x18 = true →
    s.dev.fget Reg.CPH_LOAD_CTRL.BUSY = 0 → slot < 16384 → a = s.dev.fget Reg.CPH_LOAD.ADDR →
    s.dev.mem.dram.read a 2 = slot → s.dev.mem.dram.read (a + 2) 2 < 16384 → s.dev.mem.dram.read (a + 4) 2 < 4096 →
    s.dev.mem.dram.read (a + 6) 1 = 0 → s.dev.mem.dram.read (a + 88) 8 = 0 → s.dev.anchor.kek = some kek →
    (s.dev.dslot slot).cur = none →
    Acts (.keyLoad false slot) s fun d =>
      (Config.keyUnwrap kek (s.dev.mem.dram.bytes (a + 8) 80) = none →
        d.fget Reg.CPH_LOAD_CTRL.RESULT = 5 ∧ d.cipher = s.dev.cipher) ∧
      (∀ plain, Config.keyUnwrap kek (s.dev.mem.dram.bytes (a + 8) 80) = some plain →
        plain.take 8 ≠ s.dev.mem.dram.bytes a 8 →
        d.fget Reg.CPH_LOAD_CTRL.RESULT = 0x20 ∧ d.cipher = s.dev.cipher) ∧
      (∀ plain, Config.keyUnwrap kek (s.dev.mem.dram.bytes (a + 8) 80) = some plain →
        plain.take 8 = s.dev.mem.dram.bytes a 8 → (plain.drop 8).take 32 = ((plain.drop 8).drop 32).take 32 →
        d.fget Reg.CPH_LOAD_CTRL.RESULT = 0x21 ∧ d.cipher = s.dev.cipher) ∧
      (∀ plain, Config.keyUnwrap kek (s.dev.mem.dram.bytes (a + 8) 80) = some plain →
        plain.take 8 = s.dev.mem.dram.bytes a 8 → (plain.drop 8).take 32 ≠ ((plain.drop 8).drop 32).take 32 →
        d.fget Reg.CPH_LOAD_CTRL.RESULT = 0 ∧
        d.dslot slot = {
          tenant := (s.dev.mem.dram.read (a + 4) 2)
          nsh := (s.dev.mem.dram.read (a + 2) 2)
          cur := (some { gen := s.dev.mem.dram.read (a + 7) 1, key := (plain.drop 8).take 64 })
          older := (s.dev.dslot slot).older } ∧
        d.cipher.sess = s.dev.cipher.sess ∧ ∀ k, k ≠ slot → d.dslot k = s.dev.dslot k)) ∧
  (∀ (s : State) (slot a : Nat) (kek : List Byte) (c : KeyGen), s.live = true → s.dev.on 0x18 = true →
    s.dev.fget Reg.CPH_LOAD_CTRL.BUSY = 0 → slot < 16384 → a = s.dev.fget Reg.CPH_LOAD.ADDR →
    s.dev.mem.dram.read a 2 = slot → s.dev.mem.dram.read (a + 2) 2 < 16384 → s.dev.mem.dram.read (a + 4) 2 < 4096 →
    s.dev.mem.dram.read (a + 6) 1 = 0 → s.dev.mem.dram.read (a + 88) 8 = 0 → s.dev.anchor.kek = some kek →
    (s.dev.dslot slot).cur = some c →
    Acts (.keyLoad false slot) s fun d => ∀ plain, Config.keyUnwrap kek (s.dev.mem.dram.bytes (a + 8) 80) = some plain →
      plain.take 8 = s.dev.mem.dram.bytes a 8 → (plain.drop 8).take 32 ≠ ((plain.drop 8).drop 32).take 32 →
      if (s.dev.dslot slot).tenant ≠ s.dev.mem.dram.read (a + 4) 2 ∨ (s.dev.dslot slot).nsh ≠ s.dev.mem.dram.read (a + 2) 2 then
        d.fget Reg.CPH_LOAD_CTRL.RESULT = 0x22 ∧ d.cipher = s.dev.cipher
      else if (s.dev.dslot slot).standby.isSome then d.fget Reg.CPH_LOAD_CTRL.RESULT = 0x23 ∧ d.cipher = s.dev.cipher
      else if s.dev.mem.dram.read (a + 7) 1 ≠ (c.gen + 1) % 256 then
        d.fget Reg.CPH_LOAD_CTRL.RESULT = 0x24 ∧ d.cipher = s.dev.cipher
      else d.fget Reg.CPH_LOAD_CTRL.RESULT = 0 ∧ d.dslot slot = { s.dev.dslot slot with
        standby := some { gen := s.dev.mem.dram.read (a + 7) 1, key := (plain.drop 8).take 64 } }) ∧
  (∀ (s : State) (slot a : Nat) (kek : List Byte), s.live = true → s.dev.on 0x18 = true →
    s.dev.fget Reg.CPH_LOAD_CTRL.BUSY = 0 → slot < 12288 → a = s.dev.fget Reg.CPH_LOAD.ADDR →
    s.dev.mem.dram.read a 2 = slot + 16384 → s.dev.mem.dram.read (a + 2) 2 = 0 → s.dev.mem.dram.read (a + 4) 2 < 4096 →
    s.dev.mem.dram.read (a + 6) 1 = 1 → s.dev.mem.dram.read (a + 7) 1 = 0 → s.dev.mem.dram.read (a + 88) 8 = 0 →
    s.dev.anchor.kek = some kek → s.dev.boundSlots.contains slot = false →
    Acts (.keyLoad true slot) s fun d => ∀ plain, Config.keyUnwrap kek (s.dev.mem.dram.bytes (a + 8) 80) = some plain →
      plain.take 8 = s.dev.mem.dram.bytes a 8 →
      d.fget Reg.CPH_LOAD_CTRL.RESULT = 0 ∧ d.cipher.data = s.dev.cipher.data ∧ d.sslot slot = { s.dev.sslot slot with
        rx := some { key := (plain.drop 8).take 32, iv := ((plain.drop 8).drop 32).take 12,
                     gen := ((((s.dev.sslot slot).rx.map (·.gen)).getD 0 + 1) % 256) } }) ∧
  (∀ (s : State) (slot a n : Nat) (kek : List Byte) (c : Ctx), s.live = true → s.dev.on 0x18 = true →
    s.dev.fget Reg.CPH_LOAD_CTRL.BUSY = 0 → slot < 12288 → a = s.dev.fget Reg.CPH_LOAD.ADDR →
    s.dev.mem.dram.read a 2 = slot + 16384 → s.dev.mem.dram.read (a + 2) 2 = 0 → s.dev.mem.dram.read (a + 4) 2 < 4096 →
    s.dev.mem.dram.read (a + 6) 1 = 1 → s.dev.mem.dram.read (a + 7) 1 = 0 → s.dev.mem.dram.read (a + 88) 8 = 0 →
    s.dev.anchor.kek = some kek → s.dev.stm.t.res = [(n, c)] → s.dev.stm.t.spilled = [] → bitOf c.flags 2 = true →
    c.keySlot = slot → (s.dev.sconn n).rxWait = [] →
    Acts (.keyLoad true slot) s fun d => ∀ plain, Config.keyUnwrap kek (s.dev.mem.dram.bytes (a + 8) 80) = some plain →
      plain.take 8 = s.dev.mem.dram.bytes a 8 →
      d.ctx 0x0D n = some { c with rxRseq := 0 } ∧ d.sconn n = { s.dev.sconn n with rxHeld := false }) ∧
  (∀ (s : State) (session : Bool) (slot : Nat), s.live = true →
    (s.dev.on 0x18 = false ∨ s.dev.fget Reg.CPH_LOAD_CTRL.BUSY = 1) → Settles (.keyLoad session slot) s s.dev) ∧
  (∀ (s : State) (session : Bool) (slot : Nat), s.live = true → s.dev.on 0x18 = true → s.dev.fget Reg.CPH_DESTROY.BUSY = 0 →
    Acts (.keyDestroy true session slot) s fun d => d.cipher = { s.dev.cipher with data := [], sess := [] } ∧
      d.fget Reg.CPH_OCC.DATA = 0 ∧ d.fget Reg.CPH_OCC.SESSION = 0) ∧
  (∀ (s : State) (slot : Nat), s.live = true → s.dev.on 0x18 = true → s.dev.fget Reg.CPH_DESTROY.BUSY = 0 →
    Acts (.keyDestroy false true slot) s fun d => d.sslot slot = {} ∧ d.cipher.data = s.dev.cipher.data ∧
      ∀ k, k ≠ slot → d.sslot k = s.dev.sslot k) ∧
  (∀ (s : State) (slot : Nat), s.live = true → s.dev.on 0x18 = true → s.dev.fget Reg.CPH_DESTROY.BUSY = 0 →
    Acts (.keyDestroy false false slot) s fun d => (d.dslot slot).cur = none ∧ (d.dslot slot).standby = none ∧
      (d.dslot slot).older = [] ∧ d.cipher.sess = s.dev.cipher.sess ∧ ∀ k, k ≠ slot → d.dslot k = s.dev.dslot k) ∧
  (∀ (s : State) (all session : Bool) (slot : Nat), s.live = true →
    (s.dev.on 0x18 = false ∨ s.dev.fget Reg.CPH_DESTROY.BUSY = 1) → Settles (.keyDestroy all session slot) s s.dev) ∧
  (∀ (s : State) (k : Nat) (q : Seal) (i : Nat) (u : SUnit) (g : KeyGen), s.live = true → s.dev.on 0x18 = true →
    s.dev.cipher.seals[k]? = some q → q.left = [i] → q.failed = false → q.own = false →
    Tab.look s.dev.map.staging i = some u → dataCrc (u.data.bytes 0 4096) = u.crc → (s.dev.dslot q.slot).cur = some g →
    g.used + 1 < s.dev.xtsSoft → g.used + 1 < xtsCeiling → s.dev.xtsSoft < s.dev.xtsHard → s.dev.cipher.erases = [] →
    s.dev.keygenWaits q.slot = false →
    Acts (.sealUnit k false) s fun d => ∃ v, Tab.look d.map.staging i = some v ∧ v.sealed = true ∧ v.rec_ = {
          u.rec_ with
          wgen := q.rope
          keySlot := q.slot
          keyGen := g.gen
          tag := (finishTag u.crc u.rec_.laddr q.rope) } ∧
        v.data = Memory.setBytes [] 0 (Config.xtsEncrypt g.key (u.rec_.laddr + q.rope % 2 ^ 64 * 2 ^ 64) (u.data.bytes 0 4096)) ∧
        d.cipher.seals = s.dev.cipher.seals.eraseIdx k ∧ (d.dslot q.slot).cur = some { g with used := g.used + 1 } ∧
        (∃ c, d.cipher.dones = s.dev.cipher.dones ++ [c] ∧ c.result = 0 ∧ c.op = 1 ∧ c.cmdref = q.cmdref) ∧
        ∀ k, k ≠ i → Tab.look d.map.staging k = Tab.look s.dev.map.staging k) ∧
  (∀ (s : State) (k : Nat) (q : Seal) (i : Nat) (u : SUnit) (is : List Nat), s.live = true →
    s.dev.cipher.seals[k]? = some q → q.left = i :: is → Tab.look s.dev.map.staging i = some u →
    dataCrc (u.data.bytes 0 4096) = u.crc → (s.dev.dslot q.slot).cur = none →
    Settles (.sealUnit k false) s s.dev) ∧
  (∀ (s : State) (k : Nat) (bad : Bool) (q : Seal) (i : Nat) (u : SUnit) (is : List Nat) (e : Nat × Nat × Nat), s.live = true →
    s.dev.cipher.seals[k]? = some q → q.left = i :: is → Tab.look s.dev.map.staging i = some u →
    s.dev.cipher.erases = [e] → e.2.1 = q.slot → e.2.2 ≤ q.serial →
    Settles (.sealUnit k bad) s s.dev) ∧
  (∀ (s : State) (q : Seal) (i t : Nat) (u : SUnit), s.live = true → s.dev.on 0x18 = true →
    s.dev.cipher.seals = [q] → q.left = [i] → q.own = false →
    s.dev.map.staging = [(i, u)] → u.tag = some t → s.dev.cipher.erases = [] →
    Acts (.sealUnit 0 true) s fun d => d.map.staging = [] ∧ d.cipher.seals = [] ∧
      d.fget Reg.CPH_STAT.PI_FAIL = (s.dev.fget Reg.CPH_STAT.PI_FAIL + 1) % 2 ^ 32 ∧
      ∃ c, d.cipher.dones = s.dev.cipher.dones ++ [c] ∧ c.result = 0x19 ∧ c.cmdref = q.cmdref) ∧
  (∀ (s : State) (q : Seal) (i t key : Nat) (u : SUnit), s.live = true → s.dev.on 0x18 = true →
    s.dev.cipher.seals = [q] → q.left = [i] → q.own = false →
    s.dev.map.staging = [(i, u)] → u.tag = some t → s.dev.cipher.erases = [] → u.rec_.zrange = false →
    key = unitKey u.rec_.nsh (s.dev.unitOf u.rec_.lba) → entIsStaged (s.dev.entryAt key) = true →
    entIndex (s.dev.entryAt key) = u.group → s.dev.entryAt key % 4 = u.rec_.wgen % 4 →
    Acts (.sealUnit 0 true) s fun d => d.entryAt key = u.replaced) ∧
  (∀ (s : State) (k : Nat) (bad : Bool), s.live = true → (s.dev.cipher.seals.length ≤ k ∨ s.dev.on 0x18 = false) →
    Settles (.sealUnit k bad) s s.dev) ∧
  (∀ (s : State) (j : Nat) (job : ReadJob) (u : JobUnit) (r : URec), s.live = true → s.dev.on 0x18 = true →
    Tab.look s.dev.media.jobs j = some job → job.units = [u] → job.move = false → job.fill = false →
    u.decoded = true → u.done = false → u.rec_ = some r → r.zrange = true → entIsStaged u.entry = false →
    finishTag (dataCrc (u.data.bytes 0 4096)) r.laddr r.wgen = r.tag → job.fits u r = true →
    Acts (.unitDecrypt j 0) s fun d => Tab.look d.media.jobs j = none ∧
      ∃ x, d.cipher.plain = s.dev.cipher.plain ++ [x] ∧ x.tag = tagKey job.ctx job.cmdref ∧ x.token = job.dest ∧
        x.index = u.place ∧ x.wgen = r.wgen ∧ x.data = Memory.setBytes [] 0 (u.data.bytes 0 4096)) ∧
  (∀ (s : State) (j : Nat) (job : ReadJob) (u : JobUnit) (r : URec), s.live = true → s.dev.on 0x18 = true →
    Tab.look s.dev.media.jobs j = some job → job.units = [u] → job.move = false → job.fill = false →
    u.decoded = true → u.done = false → u.rec_ = some r → r.zrange = false → entIsStaged u.entry = false →
    Acts (.unitDecrypt j 0) s fun d => ∀ key, s.dev.keyOf r.keySlot r.keyGen = some key →
      finishTag (dataCrc (Config.xtsDecrypt key r.tweak (u.data.bytes 0 4096))) r.laddr r.wgen = r.tag →
      job.fits u r = true → Tab.look d.media.jobs j = none ∧
      ∃ x, d.cipher.plain = s.dev.cipher.plain ++ [x] ∧ x.token = job.dest ∧ x.index = u.place ∧
        x.data = Memory.setBytes [] 0 (Config.xtsDecrypt key r.tweak (u.data.bytes 0 4096))) ∧
  (∀ (s : State) (j : Nat) (job : ReadJob) (u : JobUnit), s.live = true → s.dev.on 0x18 = true → s.dev.mapSpan = 4 →
    Tab.look s.dev.media.jobs j = some job → job.units = [u] → job.move = false → job.fill = false →
    u.decoded = true → u.done = false → u.rec_ = none →
    Acts (.unitDecrypt j 0) s fun d => Tab.look d.media.jobs j = none ∧
      d.cipher.plain = s.dev.cipher.plain ++ [zeroUnit (tagKey job.ctx job.cmdref) job.dest u.place]) ∧
  (∀ (s : State) (j : Nat) (job : ReadJob) (u : JobUnit) (r : URec), s.live = true → s.dev.on 0x18 = true →
    Tab.look s.dev.media.jobs j = some job → job.units = [u] →
    u.decoded = true → u.done = false → u.rec_ = some r → r.zrange = true → entIsStaged u.entry = false →
    s.dev.keygenWaits r.keySlot = false →
    (finishTag (dataCrc (u.data.bytes 0 4096)) r.laddr r.wgen ≠ r.tag ∨ job.fits u r = false) →
    Acts (.unitDecrypt j 0) s fun d => d.cipher.plain = s.dev.cipher.plain ∧
      d.fget Reg.CPH_STAT.PI_FAIL = (s.dev.fget Reg.CPH_STAT.PI_FAIL + 1) % 2 ^ 32 ∧
      (u.level = 4 → d.fget Reg.MDA_UNRECOV.TAG_FAIL = (s.dev.fget Reg.MDA_UNRECOV.TAG_FAIL + 1) % 2 ^ 32)) ∧
  (∀ (s : State) (j : Nat) (job : ReadJob) (u : JobUnit) (r : URec), s.live = true → s.dev.on 0x18 = true →
    Tab.look s.dev.media.jobs j = some job → job.units = [u] → job.move = true →
    u.decoded = true → u.done = false → u.rec_ = some r → r.zrange = true → entIsStaged u.entry = false →
    finishTag (dataCrc (u.data.bytes 0 4096)) r.laddr r.wgen = r.tag →
    (Tab.look s.dev.stripe.bands job.dest).any (·.item = some 6) = false →
    Acts (.unitDecrypt j 0) s fun d => Tab.look d.media.jobs j = none ∧ d.cipher.plain = s.dev.cipher.plain ∧
      d.stripe.moveBuf = s.dev.stripe.moveBuf ++ [{
        rec_ := { r.ranged u.data with copy := true }
        data := u.data
        src := u.entry }]) ∧
  (∀ (s : State) (j : Nat) (job : ReadJob) (u : JobUnit) (r : URec) (c : KeyGen), s.live = true → s.dev.on 0x18 = true →
    Tab.look s.dev.media.jobs j = some job → job.units = [u] → job.move = true →
    u.decoded = true → u.done = false → u.rec_ = some r → r.zrange = false → entIsStaged u.entry = false →
    (Tab.look s.dev.stripe.bands job.dest).any (·.item = some 6) = true → s.dev.keygenWaits r.keySlot = false →
    (s.dev.dslot r.keySlot).cur = some c → c.gen ≠ r.keyGen → c.used + 1 < s.dev.xtsSoft → c.used + 1 < xtsCeiling →
    s.dev.xtsSoft < s.dev.xtsHard →
    Acts (.unitDecrypt j 0) s fun d => ∀ key, s.dev.keyOf r.keySlot r.keyGen = some key →
      finishTag (dataCrc (Config.xtsDecrypt key r.tweak (u.data.bytes 0 4096))) r.laddr r.wgen = r.tag →
      (d.dslot r.keySlot).cur = some { c with used := c.used + 1 } ∧
      ∃ m, d.stripe.moveBuf = s.dev.stripe.moveBuf ++ [m] ∧ m.rec_.keyGen = c.gen ∧ m.rec_.tag = r.tag ∧ m.src = u.entry ∧
        m.data = Memory.setBytes [] 0 (Config.xtsEncrypt c.key r.tweak (Config.xtsDecrypt key r.tweak (u.data.bytes 0 4096)))) ∧
  (∀ (s : State) (j i : Nat), s.live = true → (Tab.look s.dev.media.jobs j = none ∨ s.dev.on 0x18 = false) →
    Settles (.unitDecrypt j i) s s.dev) ∧
  (∀ (s : State) (j i : Nat) (job : ReadJob), s.live = true → Tab.look s.dev.media.jobs j = some job →
    (∀ u, job.units[i]? = some u → u.decoded = false ∨ u.done = true) → Settles (.unitDecrypt j i) s s.dev) ∧
  (∀ (s : State) (j k : Nat) (job : ReadJob) (u : JobUnit) (r : URec) (v : SUnit), s.live = true →
    Tab.look s.dev.media.jobs j = some job → job.units = [u] → u.rec_ = some r → entIsStaged u.entry = true →
    s.dev.map.staging = [(k, v)] → v.rec_.nsh = r.nsh → v.rec_.lba = r.lba → v.rec_.wgen = r.wgen → v.sealed = false →
    Settles (.unitDecrypt j 0) s s.dev) ∧
  (∀ (s : State) (c : CDone) (cs : List CDone), s.live = true → s.dev.cipher.dones = c :: cs →
    s.dev.pitch.queue.length < 8192 → s.dev.pitch.held = [] →
    Acts .cipherDone s fun d => d.cipher = { s.dev.cipher with dones := cs } ∧
      ∃ e, d.pitch.queue = s.dev.pitch.queue ++ [e] ∧ e.typ = 0x07 ∧ e.gen = some c.gen ∧
        e.words = descriptor 0x07 64 c.tenant c.nsh c.ctx c.cmdref c.rope c.runToken
          [c.result % 2 ^ 32 + c.op * 2 ^ 32 + c.first % 256 * 2 ^ 40 + c.last % 256 * 2 ^ 48,
           c.units % 65536 + c.slot % 2 ^ 14 * 2 ^ 16, c.token, 0]) ∧
  (∀ (s : State), s.live = true → s.dev.cipher.dones = [] → Settles .cipherDone s s.dev) ∧
  (∀ (s : State) (slot gen : Nat) (k : KeyGen), s.live = true → s.dev.keyUnits slot gen = 0 →
    k ∈ (s.dev.dslot slot).older → k.gen = gen →
    Acts (.generationDrained slot gen) s fun d => d.dslot slot = {
        s.dev.dslot slot with
        older := ((s.dev.dslot slot).older.filter fun x => decide (x.gen ≠ gen)) } ∧
      d.cipher.sess = s.dev.cipher.sess ∧ ∀ x, x ≠ slot → d.dslot x = s.dev.dslot x) ∧
  (∀ (s : State) (slot gen : Nat), s.live = true →
    (s.dev.keyUnits slot gen ≠ 0 ∨ ∀ k ∈ (s.dev.dslot slot).older, k.gen ≠ gen) →
    Settles (.generationDrained slot gen) s s.dev)

/-- SPOTTER (R20, R422 to R425, R428, R429). A fault the device can have is recorded, counted and reported while SPOTTER is in
service, and its class's reaction follows: a BLOCK reaction puts the instance in safe state, a UNIT reaction the unit and its
blocks. A corrected error sets ECC_CORR, and an uncorrectable one ECC_UNCORR, of its instance; DMC counts its own. A failed
self-test item raises SELFTEST against its block; a pass starts, runs on, and ends with its count and length; an injected
fault is one with DETAIL bit 31, and a bad access while injection is off or where the class is none. -/
def Obligations.Spotter : Prop :=
  (∀ (s : State) (cls blk n detail : Nat), s.live = true → s.dev.on 3 = true → 1 ≤ cls → cls ≤ 14 → n < instCount blk →
    (cls = 0x0D → s.dev.camp.pfailN = true) →
    Acts (.faultDetect cls blk n detail) s fun d =>
      d.fget Reg.SPT_LAST.CLASS = cls ∧ d.fget Reg.SPT_LAST.BLOCK = blk ∧ d.fget Reg.SPT_LAST.INSTANCE = n ∧
      d.fget Reg.SPT_LAST.REACTION = s.dev.reaction cls blk ∧ d.fget Reg.SPT_LAST.DETAIL = detail % 2 ^ 31 ∧
      d.fget Reg.SPT_LAST_NS.NS = s.dev.now % 2 ^ 64 ∧
      d.fget Reg.SPT_FAULTS.ALL = (s.dev.fget Reg.SPT_FAULTS.ALL + 1) % 2 ^ 32 ∧ d.warden.notice = true ∧
      (cls = 2 → (d.inst blk n).err.getLsbD errEccUncorr = true) ∧
      (s.dev.reaction cls blk = 0 → d.spotter = s.dev.spotter ∧ (cls ≠ 2 → d.insts = s.dev.insts)) ∧
      (s.dev.reaction cls blk = 1 → (d.inst blk n).safe = true ∧ d.spotter = s.dev.spotter) ∧
      (s.dev.reaction cls blk = 2 → d.spotter = { s.dev.spotter with unitSafe := true } ∧
        (s.dev.unitDumps blk = false → ∀ p ∈ allInsts, p.1 ∈ unitSafeBlocks → (d.inst p.1 p.2).safe = true))) ∧
  (∀ (s : State) (blk n detail : Nat), s.live = true → n < instCount blk → bitOf detail 0 = false →
    Acts (.faultDetect 0 blk n detail) s fun d => (d.inst blk n).err.getLsbD errEccCorr = true ∧
      d.spotter = s.dev.spotter ∧ d.fget Reg.SPT_FAULTS.ALL = s.dev.fget Reg.SPT_FAULTS.ALL ∧
      d.fget Reg.DMC_ECC.CORR = (s.dev.fget Reg.DMC_ECC.CORR + if blk = 0x1A then 1 else 0) % 2 ^ 32) ∧
  (∀ (s : State) (blk n detail : Nat), s.live = true → n < instCount blk → bitOf detail 0 = true →
    Acts (.faultDetect 0 blk n detail) s fun d => (d.inst blk n).err.getLsbD errEccUncorr = true ∧
      d.spotter = s.dev.spotter ∧
      d.fget Reg.DMC_ECC.UNCORR = (s.dev.fget Reg.DMC_ECC.UNCORR + if blk = 0x1A then 1 else 0) % 2 ^ 32) ∧
  (∀ (s : State) (cls blk n detail : Nat), s.live = true →
    (instCount blk ≤ n ∨ 14 < cls ∨ cls = 0x0D ∧ s.dev.camp.pfailN = false ∨ s.dev.on 3 = false ∧ cls ≠ 0 ∧ cls ≠ 2) →
    Settles (.faultDetect cls blk n detail) s s.dev) ∧
  (∀ (s : State) (item blk n : Nat), s.live = true → s.dev.on 3 = true → n < instCount blk →
    Acts (.selftestSlice item blk n true) s fun d => d.fget Reg.SPT_ST_STAT.LAST_FAIL = item % 65536 ∧
      (s.dev.spotter.pass = true → d.spotter.passFail = item % 65536) ∧
      d.fget Reg.SPT_LAST.CLASS = 0x0B ∧ d.fget Reg.SPT_LAST.BLOCK = blk ∧
      d.fget Reg.SPT_FAULTS.LATENT = (s.dev.fget Reg.SPT_FAULTS.LATENT + 1) % 2 ^ 32) ∧
  (∀ (s : State) (item blk n : Nat) (failed : Bool), s.live = true →
    (failed = false ∨ s.dev.on 3 = false ∨ instCount blk ≤ n) → Settles (.selftestSlice item blk n failed) s s.dev) ∧
  (∀ (s : State), s.live = true → s.dev.on 3 = true → s.dev.spotter.pass = false →
    Acts .selftestPassStart s fun d => d.spotter = { s.dev.spotter with pass := true, passFail := 0 } ∧
      d.fget Reg.SPT_ST_CTRL.RUN = 1) ∧
  (∀ (s : State), s.live = true → (s.dev.on 3 = false ∨ s.dev.spotter.pass = true) →
    Settles .selftestPassStart s (s.dev.fset Reg.SPT_ST_CTRL.RUN 1)) ∧
  (∀ (s : State) (ms : Nat), s.live = true → s.dev.spotter.pass = true →
    Acts (.selftestPassEnd ms) s fun d => d.spotter = { s.dev.spotter with pass := false, passFail := 0 } ∧
      d.fget Reg.SPT_ST_CTRL.RUN = 0 ∧ d.fget Reg.SPT_ST_STAT.LAST_MS = ms % 65536 ∧
      d.fget Reg.SPT_ST_STAT.PASSES = (s.dev.fget Reg.SPT_ST_STAT.PASSES + 1) % 2 ^ 32 ∧
      d.fget Reg.SPT_ST_STAT.LAST_FAIL = s.dev.fget Reg.SPT_ST_STAT.LAST_FAIL) ∧
  (∀ (s : State) (ms : Nat), s.live = true → s.dev.spotter.pass = false → Settles (.selftestPassEnd ms) s s.dev) ∧
  (∀ (s : State) (blk cls : Nat), s.live = true → s.dev.on 3 = true → s.dev.fget Reg.SPT_CFG.INJECT_EN = 1 → 1 ≤ cls →
    cls ≤ 14 → 0 < instCount blk →
    Acts (.sptInject blk cls) s fun d => d.fget Reg.SPT_INJECT.BLOCK = blk ∧ d.fget Reg.SPT_INJECT.CLASS = cls ∧
      d.fget Reg.SPT_LAST.CLASS = cls ∧ d.fget Reg.SPT_LAST.BLOCK = blk ∧ d.fget Reg.SPT_LAST.DETAIL = 2 ^ 31 ∧
      d.fget Reg.SPT_FAULTS.ALL = (s.dev.fget Reg.SPT_FAULTS.ALL + 1) % 2 ^ 32) ∧
  (∀ (s : State) (blk cls : Nat), s.live = true → blk < 256 → cls < 256 →
    (s.dev.fget Reg.SPT_CFG.INJECT_EN = 0 ∨ cls = 0 ∨ 14 < cls ∨ instCount blk = 0) →
    Acts (.sptInject blk cls) s fun d => (d.inst 3 0).err.getLsbD 1 = true ∧ d.spotter = s.dev.spotter ∧
      d.fget Reg.SPT_FAULTS.ALL = s.dev.fget Reg.SPT_FAULTS.ALL)

/-- CAMP's power states and clocks (R445 to R456). A request for a state starts the transition, no domain having moved yet;
a wake returns to PS0, and does nothing in it; at the end every domain of the composition stands at its target. A request
for a domain is held, one past D4 ignored; one below the floor in force sets FLOOR, and D4 without a save area leaves the
domain held at D3; the PLLs that a target below D4 needs run. A domain reaches its target, or stays where it was with a
SELFTEST fault; D1 is entered when idle and left for work. A running PLL locks, and one that loses its lock raises CLOCK. -/
def Obligations.PowerStates : Prop :=
  (∀ (s : State) (ps : Nat), s.live = true → 1 ≤ ps → ps ≤ 3 → s.dev.fget Reg.CAMP_PS.CUR ≠ ps →
    Acts (.powerStateRequest ps) s fun d => d.fget Reg.CAMP_PS.REQ = ps ∧ d.fget Reg.CAMP_PS.MOVING = 1 ∧
      d.fget Reg.CAMP_PS.CUR = s.dev.fget Reg.CAMP_PS.CUR ∧ d.psDefers = true ∧
      d.camp.psWake = false ∧ ∀ k, (d.dom k).state = (s.dev.dom k).state ∧ (d.dom k).req = (s.dev.dom k).req) ∧
  (∀ (s : State) (ps : Nat), s.live = true → 1 ≤ ps → ps ≤ 3 → s.dev.fget Reg.CAMP_PS.CUR = ps →
    Acts (.powerStateRequest ps) s fun d => d.fget Reg.CAMP_PS.REQ = ps ∧
      d.fget Reg.CAMP_PS.MOVING = s.dev.fget Reg.CAMP_PS.MOVING ∧ ∀ k, (d.dom k).state = (s.dev.dom k).state) ∧
  (∀ (s : State), s.live = true →
    (s.dev.fget Reg.CAMP_PS.CUR ≠ 0 ∨ s.dev.fget Reg.CAMP_PS.REQ ≠ 0 ∨ s.dev.fget Reg.CAMP_PS.MOVING ≠ 0) →
    ∀ i ∈ [Instr.wake, .powerStateRequest 0],
    Acts i s fun d => d.fget Reg.CAMP_PS.REQ = 0 ∧ d.fget Reg.CAMP_PS.MOVING = 1 ∧
      d.fget Reg.CAMP_PS.WAKES = (s.dev.fget Reg.CAMP_PS.WAKES + 1) % 2 ^ 32 ∧ d.camp.psWake = true ∧
      ∀ k, (d.dom k).state = (s.dev.dom k).state) ∧
  (∀ (s : State), s.live = true → s.dev.fget Reg.CAMP_PS.CUR = 0 → s.dev.fget Reg.CAMP_PS.REQ = 0 →
    s.dev.fget Reg.CAMP_PS.MOVING = 0 → Settles .wake s s.dev ∧ Settles (.powerStateRequest 0) s s.dev) ∧
  (∀ (s : State), s.live = true → s.dev.fget Reg.CAMP_PS.MOVING = 1 →
    Acts .powerStateReached s fun d => d.fget Reg.CAMP_PS.CUR = s.dev.fget Reg.CAMP_PS.REQ ∧
      d.fget Reg.CAMP_PS.MOVING = 0 ∧ d.camp.psWake = false ∧
      (∀ k ∈ psDoms, (d.dom k).state = s.dev.target k ∧ (d.dom k).moving = false) ∧
      (∀ k, k ∉ psDoms → d.dom k = s.dev.dom k)) ∧
  (∀ (s : State), s.live = true → s.dev.fget Reg.CAMP_PS.MOVING = 0 → Settles .powerStateReached s s.dev) ∧
  (∀ (s : State) (k st : Nat), s.live = true → k ≤ 95 → st ≤ 4 →
    Runs (.domainRequest (.dom k) st) s fun d => (d.dom k).req = st ∧ (d.dom k).state = (s.dev.dom k).state ∧
      (d.dom k).moving = decide ((s.dev.dom k).state ≠ d.target k) ∧ (∀ j, j ≠ k → d.dom j = s.dev.dom j) ∧
      (s.dev.floorNow k < st → (d.inst 0 0).err.getLsbD 9 = true) ∧
      (d.target k ≤ 3 → ∀ p ∈ domPlls k, bitOf (d.fget Reg.CAMP_PLL.RUN) p = true)) ∧
  (∀ (s : State) (k : Nat), s.live = true → k ≤ 95 → s.dev.domBusy k = true → domFloor k = 4 →
    s.dev.fget Reg.CAMP_SAVE.BASE_MIB = 0 → (s.dev.dom k).held = false →
    Runs (.domainRequest (.dom k) 4) s fun d => (d.dom k).held = true ∧ d.target k = 3 ∧
      (d.inst 0 0).err.getLsbD 8 = true) ∧
  (∀ (s : State) (blk n st : Nat), s.live = true → st ≤ 4 →
    Runs (.domainRequest (.block blk n) st) s fun d => (d.inst blk n).pwrReq = st ∧
      (∀ k ∈ instDoms blk n, (d.dom k).req = st ∧ (d.dom k).state = (s.dev.dom k).state) ∧
      (∀ k, k ∉ instDoms blk n → d.dom k = s.dev.dom k)) ∧
  (∀ (s : State) (sel : DomSel) (st : Nat), s.live = true → 5 ≤ st → Gives (.domainRequest sel st) s s.dev) ∧
  (∀ (s : State) (k st : Nat), s.live = true → 95 < k → Gives (.domainRequest (.dom k) st) s s.dev) ∧
  (∀ (s : State) (k : Nat) (failed : Bool), s.live = true → k ≤ 95 → (s.dev.dom k).moving = true →
    (failed = false ∨ (s.dev.dom k).state < 3 ∨ 3 ≤ s.dev.target k) →
    Acts (.domainStateReached k failed) s fun d => d.dom k = {
        s.dev.dom k with
        state := (s.dev.target k)
        moving := false
        saved := (decide (s.dev.target k = 4) && s.dev.domBusy k) } ∧
      ∀ j, j ≠ k → d.dom j = s.dev.dom j) ∧
  (∀ (s : State) (k : Nat), s.live = true → k ≤ 95 → (s.dev.dom k).moving = true → 3 ≤ (s.dev.dom k).state →
    s.dev.target k < 3 → s.dev.on 3 = true →
    Acts (.domainStateReached k true) s fun d => d.dom k = s.dev.dom k ∧ d.fget Reg.SPT_LAST.CLASS = 0x0B ∧
      d.fget Reg.SPT_LAST.DETAIL = k) ∧
  (∀ (s : State) (k : Nat) (failed : Bool), s.live = true → ((s.dev.dom k).moving = false ∨ 95 < k) →
    Settles (.domainStateReached k failed) s s.dev) ∧
  (∀ (s : State) (k : Nat), s.live = true → k ≤ 95 → (s.dev.dom k).state = 0 → s.dev.target k = 1 →
    Runs (.domainIdleGate k) s fun d => d.dom k = { s.dev.dom k with state := 1 } ∧ d.regs = s.dev.regs ∧
      ∀ j, j ≠ k → d.dom j = s.dev.dom j) ∧
  (∀ (s : State) (k : Nat), s.live = true → ((s.dev.dom k).state ≠ 0 ∨ s.dev.target k ≠ 1 ∨ 95 < k) →
    Gives (.domainIdleGate k) s s.dev) ∧
  (∀ (s : State) (k : Nat), s.live = true → k ≤ 95 → (s.dev.dom k).state = 1 →
    Runs (.domainWorkWake k) s fun d => d.dom k = { s.dev.dom k with state := 0, moving := false } ∧ d.regs = s.dev.regs ∧
      ∀ j, j ≠ k → d.dom j = s.dev.dom j) ∧
  (∀ (s : State) (k : Nat), s.live = true → ((s.dev.dom k).state ≠ 1 ∨ 95 < k) → Gives (.domainWorkWake k) s s.dev) ∧
  (∀ (s : State) (p : Nat), s.live = true → p < 17 → bitOf (s.dev.fget Reg.CAMP_PLL.RUN) p = true →
    Runs (.pllLock p) s fun d => d.fget Reg.CAMP_PLL.LOCK = s.dev.fget Reg.CAMP_PLL.LOCK ||| 2 ^ p ∧
      d.fget Reg.CAMP_PLL.RUN = s.dev.fget Reg.CAMP_PLL.RUN) ∧
  (∀ (s : State) (p : Nat), s.live = true → bitOf (s.dev.fget Reg.CAMP_PLL.RUN) p = false → Gives (.pllLock p) s s.dev) ∧
  (∀ (s : State) (p : Nat), s.live = true → p < 17 → s.dev.on 3 = true →
    Acts (.pllLockLoss (some p)) s fun d => bitOf (d.fget Reg.CAMP_PLL.LOCK) p = false ∧
      d.fget Reg.SPT_LAST.CLASS = 0x0C ∧ d.fget Reg.SPT_LAST.DETAIL = p ∧ d.spotter.unitSafe = true) ∧
  (∀ (s : State), s.live = true → s.dev.on 3 = true →
    Acts (.pllLockLoss none) s fun d => d.fget Reg.CAMP_PLL.LOCK = s.dev.fget Reg.CAMP_PLL.LOCK ∧
      d.fget Reg.SPT_LAST.CLASS = 0x0C ∧ d.fget Reg.SPT_LAST.DETAIL = 31 ∧ d.spotter.unitSafe = true)

/-- TALLY (R157, R464, R467 to R471, R474, R475, R477). The ticks count capacity and grade for each namespace of the unit at
the instants due, and the millisecond moves an idle controller's APST (log 100); a threshold counter ticks while its occupancy
is above LEVEL; a port window closes, and holds while frozen; an event counts where its source, tenant and enable fit, and its
counter's wrap sets OVF; a release from freeze restarts the windows. A metering minute latches the baseline, then a batch, and
is held at a full ring; a signature puts the batch in the ring, whose head wraps. -/
def Obligations.Tally : Prop :=
  (∀ (s : State) (h : Nat) (n : Ns), s.live = true → s.dev.on 5 = true → s.dev.countedNs = [(h, n)] → n.tenant < 4096 →
    Runs .capacitySecondTick s fun d => d.now % 1000000000 = 0 ∧ s.dev.now ≤ d.now ∧
      d.tcntOf n.tenant 5 = s.dev.tcntOf n.tenant 5 + BitVec.ofNat 64 ((n.nsze + s.dev.mapSpan - 1) / s.dev.mapSpan) ∧
      ∀ k, k ≠ n.tenant * 16 + 5 → d.tally.tcnt.get k = s.dev.tally.tcnt.get k) ∧
  (∀ (s : State) (h : Nat) (n : Ns), s.live = true → s.dev.on 5 = true → s.dev.countedNs = [(h, n)] → n.tenant < 4096 →
    n.cold = false → n.grade ≤ 4 →
    Runs .gradeMsTick s fun d => d.now % 1000000 = 0 ∧ s.dev.now ≤ d.now ∧
      d.tcntOf n.tenant (5 + n.grade) = s.dev.tcntOf n.tenant (5 + n.grade) + 1 ∧
      ∀ k, k ≠ n.tenant * 16 + (5 + n.grade) → d.tally.tcnt.get k = s.dev.tally.tcnt.get k) ∧
  (∀ (s : State) (h : Nat) (n : Ns), s.live = true → s.dev.on 5 = true → s.dev.countedNs = [(h, n)] → n.tenant < 4096 →
    n.cold = true → Runs .gradeMsTick s fun d => d.tcntOf n.tenant 10 = s.dev.tcntOf n.tenant 10 + 1) ∧
  (∀ (s : State) (k x : Nat) (c : Ctrl), s.live = true → s.dev.hostq.ctrls = [(k, c)] → s.dev.hostq.tags = [] →
    c.apstNext s.dev.msTick.now = some x →
    Runs .gradeMsTick s fun d => d.hostq.ctrls = [(k, { c with apstPs := some x, idleSince := s.dev.msTick.now })]) ∧
  (∀ (s : State), s.live = true → s.dev.on 5 = false →
    Gives .capacitySecondTick s s.dev ∧ Gives .gradeMsTick s s.dev.apstMoves ∧ Gives .thresholdTick s s.dev ∧
      Gives .portWindowEnd s s.dev) ∧
  (∀ (s : State) (i : Nat) (t : Thr), s.live = true → s.dev.on 5 = true → s.dev.frozen = false → i < 64 →
    Tab.look s.dev.tally.thr i = some t → field t.cfg 63 63 = 1 → thrValid t.cfg = true →
    Runs .thresholdTick s fun d => ∃ t', Tab.look d.tally.thr i = some t' ∧ t'.cfg = t.cfg ∧
      t'.above = decide (field t.cfg 31 0 < s.dev.occupancy (field t.cfg 55 48) (field t.cfg 47 40)) ∧
      t'.ticks = (t.ticks + b2n t'.above) % 2 ^ 64) ∧
  (∀ (s : State), s.live = true → s.dev.frozen = true → Gives .thresholdTick s s.dev) ∧
  (∀ (s : State), s.live = true → s.dev.fget Reg.TLY_WIN_CFG.MS = 0 → Gives .portWindowEnd s s.dev) ∧
  (∀ (s : State), s.live = true → s.dev.on 5 = true → s.dev.fget Reg.TLY_WIN_CFG.MS ≠ 0 → s.dev.frozen = true →
    Runs .portWindowEnd s fun d => d.tally = { s.dev.tally with lastWin := some d.now } ∧ s.dev.now ≤ d.now ∧
      d.regs = s.dev.regs) ∧
  (∀ (s : State), s.live = true → s.dev.on 5 = true → s.dev.fget Reg.TLY_WIN_CFG.MS ≠ 0 → s.dev.frozen = false →
    s.dev.tally.restart = false →
    Runs .portWindowEnd s fun d => d.tally.done = s.dev.tally.cur ∧ d.tally.cur = [] ∧ s.dev.now ≤ d.now ∧
      d.now % (s.dev.fget Reg.TLY_WIN_CFG.MS * 1000000) = 0 ∧ d.fget Reg.TLY_WIN_END.NS = d.now % 2 ^ 64) ∧
  (∀ (s : State), s.live = true → s.dev.on 5 = true → s.dev.fget Reg.TLY_WIN_CFG.MS ≠ 0 → s.dev.frozen = false →
    s.dev.tally.restart = true →
    Runs .portWindowEnd s fun d => d.tally.restart = false ∧ d.tally.cur = [] ∧ d.tally.done = s.dev.tally.done ∧
      d.fget Reg.TLY_WIN_END.NS = s.dev.fget Reg.TLY_WIN_END.NS) ∧
  (∀ (s : State) (src tenant i : Nat), s.live = true → s.dev.on 5 = true → s.dev.frozen = false → 1 ≤ src → src ≤ 0x13 →
    i < 16 → s.dev.fget (Reg.TLY_SAMP_CFG.EN.nth i) = 1 → s.dev.fget (Reg.TLY_SAMP_CFG.SOURCE.nth i) = src →
    (s.dev.fget (Reg.TLY_SAMP_CFG.TEN_FILTER.nth i) = 0 ∨
      sourceNames src = true ∧ s.dev.fget (Reg.TLY_SAMP_CFG.TENANT.nth i) = tenant % 4096) →
    Runs (.samplingEvent src tenant) s fun d => d.fget (Reg.TLY_SAMP_CNT.COUNT.nth i) =
        (s.dev.fget (Reg.TLY_SAMP_CNT.COUNT.nth i) + 1) % 2 ^ 32 ∧
      (s.dev.fget (Reg.TLY_SAMP_CNT.COUNT.nth i) = 2 ^ 32 - 1 → d.fget (Reg.TLY_SAMP_CNT.OVF.nth i) = 1) ∧
      ∀ j < 16, s.dev.fget (Reg.TLY_SAMP_CFG.SOURCE.nth j) ≠ src ∨ s.dev.fget (Reg.TLY_SAMP_CFG.EN.nth j) = 0 →
        d.fget (Reg.TLY_SAMP_CNT.COUNT.nth j) = s.dev.fget (Reg.TLY_SAMP_CNT.COUNT.nth j)) ∧
  (∀ (s : State) (src tenant i : Nat), s.live = true → i < 16 → s.dev.fget (Reg.TLY_SAMP_CFG.TEN_FILTER.nth i) ≠ 0 →
    (sourceNames src = false ∨ s.dev.fget (Reg.TLY_SAMP_CFG.TENANT.nth i) ≠ tenant % 4096) →
    Runs (.samplingEvent src tenant) s fun d =>
      d.fget (Reg.TLY_SAMP_CNT.COUNT.nth i) = s.dev.fget (Reg.TLY_SAMP_CNT.COUNT.nth i)) ∧
  (∀ (s : State) (src tenant : Nat), s.live = true →
    (s.dev.frozen = true ∨ s.dev.on 5 = false ∨ src = 0 ∨ 0x13 < src) → Gives (.samplingEvent src tenant) s s.dev) ∧
  (∀ (s : State) (frozen onTrig : Bool), s.live = true →
    Runs (.tlyFreezeWrite frozen onTrig) s fun d => d.fget Reg.TLY_FREEZE.FROZEN = b2n frozen ∧
      d.fget Reg.TLY_FREEZE.ON_TRIG = b2n onTrig ∧
      (s.dev.frozen = true → frozen = false → d.tally = { s.dev.tally with restart := true, cur := [] }) ∧
      ((s.dev.frozen = false ∨ frozen = true) → d.tally = s.dev.tally)) ∧
  (∀ (s : State), s.live = true → s.dev.on 5 = true → s.dev.fget Reg.TLY_METER_CFG.EN = 1 →
    s.dev.fget Reg.TIM_STATUS.MONO = 1 → s.dev.tally.signing = none → s.dev.tally.base = none →
    Acts .meterBoundary s fun d => d.now % minuteNs = 0 ∧ s.dev.now ≤ d.now ∧ d.tally.base = some d.now ∧
      d.tally.latch = s.dev.tally.tcnt ∧ d.tally.signing = none ∧ d.mem = s.dev.mem) ∧
  (∀ (s : State) (start slots : Nat), s.live = true → s.dev.on 5 = true → s.dev.fget Reg.TLY_METER_CFG.EN = 1 →
    s.dev.fget Reg.TIM_STATUS.MONO = 1 → s.dev.tally.signing = none → s.dev.tally.base = some start →
    slots = s.dev.fget Reg.TLY_METER_RING.SLOTS → slots ≠ 0 →
    (s.dev.fget Reg.TLY_METER_IDX.HEAD + 1) % slots ≠ s.dev.fget Reg.TLY_METER_IDX.TAIL % slots →
    Acts .meterBoundary s fun d => d.now % minuteNs = 0 ∧ d.tally.base = some d.now ∧ d.tally.latch = s.dev.tally.tcnt ∧
      d.tally.seq = s.dev.tally.seq + 1 ∧ d.tally.held = false ∧
      (∃ b, d.tally.signing = some b ∧ b.seq = s.dev.tally.seq + 1 ∧ b.endNs = d.now ∧
        b.span = decide (start + minuteNs < d.now) ∧ d.mem.dram = s.dev.mem.dram.setBytes s.dev.meterSlot b.bytes ∧
        d.fget Reg.TLY_METER_GAPS.SPANS = (s.dev.fget Reg.TLY_METER_GAPS.SPANS + b2n b.span) % 2 ^ 32)) ∧
  (∀ (s : State) (start slots : Nat), s.live = true → s.dev.on 5 = true → s.dev.fget Reg.TLY_METER_CFG.EN = 1 →
    s.dev.fget Reg.TIM_STATUS.MONO = 1 → s.dev.tally.signing = none → s.dev.tally.base = some start →
    slots = s.dev.fget Reg.TLY_METER_RING.SLOTS →
    (slots = 0 ∨ (s.dev.fget Reg.TLY_METER_IDX.HEAD + 1) % slots = s.dev.fget Reg.TLY_METER_IDX.TAIL % slots) →
    Acts .meterBoundary s fun d => d.tally.held = true ∧ d.tally.base = some start ∧ d.tally.latch = s.dev.tally.latch ∧
      d.tally.signing = none ∧ d.mem.dram = s.dev.mem.dram ∧ d.tally.seq = s.dev.tally.seq ∧
      d.fget Reg.TLY_METER_GAPS.HELD = (s.dev.fget Reg.TLY_METER_GAPS.HELD + 1) % 2 ^ 32) ∧
  (∀ (s : State), s.live = true → (s.dev.fget Reg.TLY_METER_CFG.EN = 0 ∨ s.dev.on 5 = false ∨
      s.dev.fget Reg.TIM_STATUS.MONO = 0 ∨ s.dev.tally.signing.isSome = true) → Settles .meterBoundary s s.dev) ∧
  (∀ (s : State) (b : Batch), s.live = true → s.dev.tally.signing = some b →
    Runs .meterBatchSigned s fun d => d.tally = { s.dev.tally with signing := none } ∧
      d.fget Reg.TLY_METER_IDX.HEAD = (if s.dev.fget Reg.TLY_METER_IDX.HEAD + 1 < s.dev.fget Reg.TLY_METER_RING.SLOTS then
        s.dev.fget Reg.TLY_METER_IDX.HEAD + 1 else 0) ∧
      d.fget Reg.TLY_METER_SEQ.VALUE = b.seq % 2 ^ 64 ∧ d.fget Reg.TLY_METER_END.VALUE = b.endNs % 2 ^ 64 ∧
      d.fget Reg.ANC_SIGNS.METER = (s.dev.fget Reg.ANC_SIGNS.METER + 1) % 2 ^ 32 ∧
      d.mem.dram = s.dev.mem.dram.setBytes (s.dev.meterSlot + b.bytes.length)
        (Config.ed448Sign s.dev.meterSeed b.bytes ++ List.replicate 14 0)) ∧
  (∀ (s : State), s.live = true → s.dev.tally.signing = none → Gives .meterBatchSigned s s.dev)

/-- CAIRN (R478 to R482). A schedule is armed by GO, refused too near or too short, and disarmed; GO outside service only
sets MODE. A trigger moves network time to its instant, counts, raises its pin, latches what each instance shows, zeros where
it sleeps, freezes where asked, and starts a set; it is missed while a set is being collected, and dropped at a full ring; a
written set moves the ring on. -/
def Obligations.CairnTriggers : Prop :=
  (∀ (s : State), s.live = true → s.dev.on 4 = true →
    Runs .cairnDisarm s fun d => d.cairn = { s.dev.cairn with arm := .off } ∧ d.fget Reg.CRN_CTRL.ARMED = 0 ∧
      d.fget Reg.CRN_CTRL.MODE = 0 ∧ d.fget Reg.CRN_CTRL.RESULT = 0) ∧
  (∀ (s : State), s.live = true → s.dev.on 4 = true → s.dev.now + 2000 ≤ s.dev.fget Reg.CRN_BASE.NS →
    Runs .cairnOneShot s fun d => d.cairn = { s.dev.cairn with arm := .oneShot (s.dev.fget Reg.CRN_BASE.NS) } ∧
      d.fget Reg.CRN_CTRL.ARMED = 1 ∧ d.fget Reg.CRN_CTRL.MODE = 1 ∧ d.fget Reg.CRN_CTRL.RESULT = 0) ∧
  (∀ (s : State), s.live = true → s.dev.on 4 = true → s.dev.fget Reg.CRN_BASE.NS < s.dev.now + 2000 →
    Runs .cairnOneShot s fun d => d.cairn = { s.dev.cairn with arm := .off } ∧
      d.fget Reg.CRN_CTRL.ARMED = 0 ∧ d.fget Reg.CRN_CTRL.RESULT = 0x21) ∧
  (∀ (s : State) (p : Nat), s.live = true → s.dev.on 4 = true → p = s.dev.fget Reg.CRN_PERIOD.US * 1000 → 100000 ≤ p →
    Runs .cairnPeriodic s fun d => (∃ first, d.cairn = {
          s.dev.cairn with arm := .periodic first p (decide (s.dev.fget Reg.CRN_BASE.NS < s.dev.now + 2000)) } ∧
        s.dev.now + 2000 ≤ first ∧ first < s.dev.now + 2000 + p ∧ first % p = s.dev.fget Reg.CRN_BASE.NS % p) ∧
      d.fget Reg.CRN_CTRL.ARMED = 1 ∧ d.fget Reg.CRN_CTRL.MODE = 2 ∧
      d.fget Reg.CRN_CTRL.RESULT = (if s.dev.fget Reg.CRN_BASE.NS < s.dev.now + 2000 then 0x22 else 0)) ∧
  (∀ (s : State), s.live = true → s.dev.on 4 = true → s.dev.fget Reg.CRN_PERIOD.US < 100 →
    Runs .cairnPeriodic s fun d => d.cairn = s.dev.cairn ∧ d.fget Reg.CRN_CTRL.RESULT = 2 ∧
      d.fget Reg.CRN_CTRL.ARMED = s.dev.fget Reg.CRN_CTRL.ARMED) ∧
  (∀ (s : State), s.live = true → s.dev.on 4 = false →
    Gives .cairnDisarm s (s.dev.fset Reg.CRN_CTRL.MODE 0) ∧ Gives .cairnOneShot s (s.dev.fset Reg.CRN_CTRL.MODE 1) ∧
      Gives .cairnPeriodic s (s.dev.fset Reg.CRN_CTRL.MODE 2)) ∧
  (∀ (s : State) (t slots : Nat) (late : Bool), s.live = true → s.dev.on 4 = true →
    s.dev.cairn.arm.next = some (t, late) → s.dev.now ≤ t → s.dev.cairn.collecting = none →
    slots = s.dev.fget Reg.CRN_RING.SLOTS → slots ≠ 0 →
    (s.dev.fget Reg.CRN_RING_IDX.HEAD + 1) % slots ≠ s.dev.fget Reg.CRN_RING_IDX.TAIL % slots →
    Acts .cairnTrigger s fun d => d.now = t ∧ d.cairn.arm = s.dev.cairn.arm.advance ∧
      d.fget Reg.CRN_CTRL.ARMED = b2n (decide (s.dev.cairn.arm.advance ≠ .off)) ∧
      d.fget Reg.CRN_SEQ.SEQ = (s.dev.fget Reg.CRN_SEQ.SEQ + 1) % 2 ^ 32 ∧ d.fget Reg.CRN_LAST.NS = t % 2 ^ 64 ∧
      (∃ c, d.cairn.collecting = some c ∧ c.ns = t ∧ c.late = late ∧ c.stepped = false ∧
        c.seq = (s.dev.fget Reg.CRN_SEQ.SEQ + 1) % 2 ^ 32) ∧
      (s.dev.fget Reg.CRN_CFG.PIN_OUT = 1 → d.cairn.pinUntil = some (t + 1000)) ∧
      (s.dev.on 5 = true → s.dev.fget Reg.TLY_FREEZE.ON_TRIG = 1 → d.fget Reg.TLY_FREEZE.FROZEN = 1) ∧
      (∀ p ∈ allInsts, (∃ k ∈ instDoms p.1 p.2, 3 ≤ (s.dev.dom k).state) →
        (d.inst p.1 p.2).snap = List.replicate 32 0) ∧
      ∀ p ∈ allInsts, (∀ k ∈ instDoms p.1 p.2, (s.dev.dom k).state ≤ 2) →
        (d.inst p.1 p.2).snap.length = 32 ∧ (d.inst p.1 p.2).snap.getD 0 0 = BitVec.ofNat 64 t ∧
        field ((d.inst p.1 p.2).snap.getD 1 0) 31 0 = (s.dev.fget Reg.CRN_SEQ.SEQ + 1) % 2 ^ 32 ∧
        field ((d.inst p.1 p.2).snap.getD 1 0) 33 32 = 1 + 2 * b2n late) ∧
  (∀ (s : State) (c : CrnSet), s.live = true → s.dev.on 4 = true → s.dev.cairn.arm ≠ .off →
    s.dev.cairn.collecting = some c →
    Acts .cairnTrigger s fun d => d.cairn.missed = s.dev.cairn.missed + 1 ∧ d.cairn.collecting = some c ∧
      d.cairn.arm = s.dev.cairn.arm.advance ∧ d.insts = s.dev.insts ∧
      d.fget Reg.CRN_SEQ.SEQ = (s.dev.fget Reg.CRN_SEQ.SEQ + 1) % 2 ^ 32 ∧
      d.fget Reg.CRN_STAT.MISSED = (s.dev.fget Reg.CRN_STAT.MISSED + 1) % 2 ^ 32) ∧
  (∀ (s : State) (slots : Nat), s.live = true → s.dev.on 4 = true → s.dev.cairn.arm ≠ .off →
    s.dev.cairn.collecting = none → slots = s.dev.fget Reg.CRN_RING.SLOTS →
    (slots = 0 ∨ (s.dev.fget Reg.CRN_RING_IDX.HEAD + 1) % slots = s.dev.fget Reg.CRN_RING_IDX.TAIL % slots) →
    Acts .cairnTrigger s fun d => d.cairn.collecting = none ∧ d.cairn.arm = s.dev.cairn.arm.advance ∧
      d.fget Reg.CRN_STAT.DROPPED = (s.dev.fget Reg.CRN_STAT.DROPPED + 1) % 2 ^ 32) ∧
  (∀ (s : State), s.live = true → (s.dev.cairn.arm = .off ∨ s.dev.on 4 = false) → Settles .cairnTrigger s s.dev) ∧
  (∀ (s : State) (c : CrnSet), s.live = true → s.dev.cairn.collecting = some c →
    Runs .snapshotSetWritten s fun d => d.cairn = { s.dev.cairn with collecting := none, missed := 0 } ∧
      d.fget Reg.CRN_RING_IDX.HEAD = (if s.dev.fget Reg.CRN_RING_IDX.HEAD + 1 < s.dev.fget Reg.CRN_RING.SLOTS then
        s.dev.fget Reg.CRN_RING_IDX.HEAD + 1 else 0) ∧
      d.mem.dram = s.dev.mem.dram.setBytes
        (s.dev.fget Reg.CRN_RING.ADDR * 4096 + s.dev.crnSlotBytes * s.dev.fget Reg.CRN_RING_IDX.HEAD) (s.dev.crnSetBytes c)) ∧
  (∀ (s : State), s.live = true → s.dev.cairn.collecting = none → Gives .snapshotSetWritten s s.dev)

/-- The I3C target and the JTAG port (R502, R505). A dynamic address is assigned once, or at the static address 0x1D or
0x1E, and dropped; the provisional ID ends with the low 32 bits of SERIAL, highest byte first (its first two bytes and the
other answers are free values, log 69); the target answers nothing unless it is enabled. EXTEST and SAMPLE/PRELOAD capture and
load the cells, and only EXTEST drives them; BYPASS is one bit; without power the port does nothing. -/
def Obligations.ServicePins : Prop :=
  (∀ (s : State) (a : Nat), s.live = true → s.dev.on 0x1C = true → s.dev.fget Reg.MGMT_CTRL.I3C_EN = 1 →
    s.dev.mgmt.i3cDyn = none →
    Gives (.i3cCcc (.entdaa a)) s { s.dev with mgmt := { s.dev.mgmt with i3cDyn := some (a % 128) } }) ∧
  (∀ (s : State) (a : Nat), s.live = true → s.dev.mgmt.i3cDyn ≠ none → Gives (.i3cCcc (.entdaa a)) s s.dev) ∧
  (∀ (s : State) (a : Nat), s.live = true → s.dev.on 0x1C = true → s.dev.fget Reg.MGMT_CTRL.I3C_EN = 1 →
    Gives (.i3cCcc (.setdasa (0x1D + s.dev.fget Reg.CAMP_STRAP.UNIT_ID) a)) s {
      s.dev with mgmt := { s.dev.mgmt with i3cDyn := some (a % 128) } }) ∧
  (∀ (s : State) (x a : Nat), s.live = true → x ≠ 0x1D + s.dev.fget Reg.CAMP_STRAP.UNIT_ID →
    Gives (.i3cCcc (.setdasa x a)) s s.dev) ∧
  (∀ (s : State), s.live = true → s.dev.on 0x1C = true → s.dev.fget Reg.MGMT_CTRL.I3C_EN = 1 →
    Gives (.i3cCcc .rstdaa) s { s.dev with mgmt := { s.dev.mgmt with i3cDyn := none } }) ∧
  (∀ (s : State), s.live = true → s.dev.on 0x1C = true → s.dev.fget Reg.MGMT_CTRL.I3C_EN = 1 →
    Runs (.i3cCcc .getpid) s fun d => d.mgmt.i3cTx.length = 6 ∧
      d.mgmt.i3cTx.drop 2 = (leBytes (field (s.dev.fuseW 8) 31 0) 4).reverse ∧ d.mgmt.i3cDyn = s.dev.mgmt.i3cDyn) ∧
  (∀ (s : State), s.live = true → s.dev.on 0x1C = true → s.dev.fget Reg.MGMT_CTRL.I3C_EN = 1 →
    (Runs (.i3cCcc .getbcr) s fun d => d.mgmt.i3cTx.length = 1 ∧ d.mgmt.i3cDyn = s.dev.mgmt.i3cDyn) ∧
    (Runs (.i3cCcc .getdcr) s fun d => d.mgmt.i3cTx.length = 1 ∧ d.mgmt.i3cDyn = s.dev.mgmt.i3cDyn) ∧
    (Runs (.i3cCcc .getstatus) s fun d => d.mgmt.i3cTx.length = 2 ∧ d.mgmt.i3cDyn = s.dev.mgmt.i3cDyn)) ∧
  (∀ (s : State) (c : Ccc), s.live = true → (s.dev.fget Reg.MGMT_CTRL.I3C_EN = 0 ∨ s.dev.on 0x1C = false) →
    Gives (.i3cCcc c) s s.dev) ∧
  (∀ (s : State) (levels shift : List Bool), s.hard.pwrGood = true → levels.length = 95 → shift.length = 95 →
    Gives (.jtagExtest levels shift) s {
      s.dev with jtag := { s.dev.jtag with ir := 0x00, tdo := levels, cells := shift, drives := true } } ∧
    Gives (.jtagSamplePreload levels shift) s {
      s.dev with jtag := { s.dev.jtag with ir := 0x01, tdo := levels, cells := shift, drives := false } }) ∧
  (∀ (s : State) (levels shift : List Bool), s.hard.pwrGood = true →
    (Runs (.jtagExtest levels shift) s fun d => d.jtag.ir = 0 ∧ d.jtag.drives = true ∧ d.jtag.tdo.length = 95 ∧
      d.jtag.cells.length = 95) ∧
    (Runs (.jtagSamplePreload levels shift) s fun d => d.jtag.ir = 1 ∧ d.jtag.drives = false ∧ d.jtag.tdo.length = 95 ∧
      d.jtag.cells.length = 95)) ∧
  (∀ (s : State) (b : Bool) (shift : List Bool), s.hard.pwrGood = true →
    Runs (.jtagBypass (shift ++ [b])) s fun d => d.jtag.tdo = false :: shift ∧ d.jtag.bypass = b ∧ d.jtag.drives = false ∧
      d.jtag.ir = 0xFF ∧ d.jtag.cells = s.dev.jtag.cells) ∧
  (∀ (s : State) (levels shift : List Bool), s.hard.pwrGood = false →
    Gives (.jtagExtest levels shift) s s.dev ∧ Gives (.jtagSamplePreload levels shift) s s.dev ∧
      Gives (.jtagBypass shift) s s.dev)

/-- ANCHOR's requests (R436 to R440, R443). A request whose record is aligned and in DRAM begins and gets its result: a
report with its signature, a KEK loaded or refused as its wrap says, the certificate chain, an SPDM signature, and for fuses
a refusal or an accepted record. One that is not aligned or past DRAM ends with result 2 (log 41), and one
given while another runs, or in safe state, only shows its OP. A request that GO has begun goes on. When it ends, BUSY clears
and RESULT shows. -/
def Obligations.AnchorRequests : Prop :=
  (∀ (s : State) (a : Nat), s.live = true → s.dev.anchor.req = none → (s.dev.inst 1 0).safe = false →
    a = s.dev.fget Reg.ANC_REQ.ADDR → a % 8 = 0 → a < s.dev.fget Reg.DMC_CAP.MIB * 2 ^ 20 →
    Runs .attestReport s fun d => d.anchor = { s.dev.anchor with req := some { op := 1, addr := a, result := some 0 } } ∧
      d.fget Reg.ANC_REQ_CTRL.BUSY = 1 ∧ d.fget Reg.ANC_REQ_CTRL.OP = 1 ∧
      d.fget Reg.ANC_SIGNS.ATTEST = (s.dev.fget Reg.ANC_SIGNS.ATTEST + 1) % 2 ^ 32 ∧
      d.mem.dram = s.dev.mem.dram.setBytes (a + 64) (s.dev.reportBody (s.dev.mem.dram.bytes a 32) ++
        Config.ed448Sign s.dev.attestSeed (s.dev.reportBody (s.dev.mem.dram.bytes a 32)) ++ List.replicate 14 0)) ∧
  (∀ (s : State) (a : Nat), s.live = true → s.dev.anchor.req = none → (s.dev.inst 1 0).safe = false →
    a = s.dev.fget Reg.ANC_REQ.ADDR → a % 8 = 0 → a < s.dev.fget Reg.DMC_CAP.MIB * 2 ^ 20 →
    Runs .kekUnseal s fun d => d.fget Reg.ANC_REQ_CTRL.BUSY = 1 ∧ d.mem = s.dev.mem ∧
      (Config.keyUnwrap s.dev.srk (s.dev.mem.dram.bytes a 40) = none →
        d.anchor = { s.dev.anchor with req := some { op := 3, addr := a, result := some 5 } }) ∧
      (∀ k, Config.keyUnwrap s.dev.srk (s.dev.mem.dram.bytes a 40) = some k →
        d.anchor = { s.dev.anchor with kek := some k, req := some { op := 3, addr := a, result := some 0 } } ∧
        d.fget Reg.ANC_KEK.LOADED = 1 ∧
        d.fget Reg.ANC_KEK.KEK_ID = leNat ((Config.shake256 k 7).take 7) % 2 ^ 56)) ∧
  (∀ (s : State) (a : Nat) (e : List Byte), s.live = true → s.dev.anchor.req = none → (s.dev.inst 1 0).safe = false →
    a = s.dev.fget Reg.ANC_REQ.ADDR → a % 8 = 0 → a < s.dev.fget Reg.DMC_CAP.MIB * 2 ^ 20 →
    e = s.dev.mem.dram.bytes a 56 →
    Runs .kekImport s fun d => d.fget Reg.ANC_REQ_CTRL.BUSY = 1 ∧
      (Config.keyUnwrap (Config.shake256 (ascii "LX9624 KEK" ++ Config.x448 s.dev.importKey e ++ e ++ s.dev.importPub) 32)
          (s.dev.mem.dram.bytes (a + 56) 40) = none →
        d.anchor = { s.dev.anchor with req := some { op := 2, addr := a, result := some 5 } } ∧ d.mem = s.dev.mem) ∧
      (∀ k, Config.keyUnwrap (Config.shake256 (ascii "LX9624 KEK" ++ Config.x448 s.dev.importKey e ++ e ++ s.dev.importPub) 32)
          (s.dev.mem.dram.bytes (a + 56) 40) = some k →
        d.anchor = { s.dev.anchor with kek := some k, req := some { op := 2, addr := a, result := some 0 } } ∧
        d.fget Reg.ANC_KEK.LOADED = 1 ∧
        d.mem.dram = s.dev.mem.dram.setBytes (a + 96) (Config.keyWrap s.dev.srk k))) ∧
  (∀ (s : State) (a : Nat), s.live = true → s.dev.anchor.req = none → (s.dev.inst 1 0).safe = false →
    a = s.dev.fget Reg.ANC_REQ.ADDR → a % 8 = 0 → a < s.dev.fget Reg.DMC_CAP.MIB * 2 ^ 20 →
    Runs .certExport s fun d => d.anchor = { s.dev.anchor with req := some { op := 5, addr := a, result := some 0 } } ∧
      d.mem.dram = s.dev.mem.dram.setBytes a (leBytes s.dev.anchor.chain.length 4 ++ s.dev.anchor.chain)) ∧
  (∀ (s : State) (a : Nat), s.live = true → s.dev.anchor.req = none → (s.dev.inst 1 0).safe = false →
    a = s.dev.fget Reg.ANC_REQ.ADDR → a % 8 = 0 → a < s.dev.fget Reg.DMC_CAP.MIB * 2 ^ 20 →
    Runs .spdmSign s fun d => d.anchor = { s.dev.anchor with req := some { op := 6, addr := a, result := some 0 } } ∧
      d.fget Reg.ANC_SIGNS.ATTEST = (s.dev.fget Reg.ANC_SIGNS.ATTEST + 1) % 2 ^ 32 ∧
      d.mem.dram = s.dev.mem.dram.setBytes (a + 64)
        (Config.ed448Sign s.dev.attestSeed (Config.spdmPrefix ++ s.dev.mem.dram.bytes a 64))) ∧
  (∀ (s : State) (a : Nat) (r : Option Nat), s.live = true → s.dev.anchor.req = none → (s.dev.inst 1 0).safe = false →
    a = s.dev.fget Reg.ANC_REQ.ADDR → a % 8 = 0 → a < s.dev.fget Reg.DMC_CAP.MIB * 2 ^ 20 → s.dev.fuseCheck { op := 4, addr := a } = r →
    Runs .fuseRequest s fun d => d.fget Reg.ANC_REQ_CTRL.BUSY = 1 ∧ d.mem = s.dev.mem ∧
      d.anchor = { s.dev.anchor with req := some {
        op := 4
        addr := a
        result := r
        accepted := (if r = none then some (s.dev.mem.dram.bytes a 224) else none) } }) ∧
  (∀ (s : State) (a : Nat), s.live = true → s.dev.anchor.req = none → (s.dev.inst 1 0).safe = false →
    a = s.dev.fget Reg.ANC_REQ.ADDR → a % 8 = 0 → a < s.dev.fget Reg.DMC_CAP.MIB * 2 ^ 20 →
    (s.dev.mem.dram.read a 1 = 3 ∨ s.dev.mem.dram.read a 1 = 4) →
    Runs .fuseRequest s fun d => d.anchor = { s.dev.anchor with req := some {
        op := 4
        addr := a
        result := (if (s.dev.fuseW 9).getLsbD 10 then some 0x22 else none)
        accepted := (if (s.dev.fuseW 9).getLsbD 10 then none else some (s.dev.mem.dram.bytes a 224)) } }) ∧
  (∀ (s : State) (a : Nat), s.live = true → s.dev.anchor.req = none → (s.dev.inst 1 0).safe = false →
    a = s.dev.fget Reg.ANC_REQ.ADDR → a % 8 = 0 → a < s.dev.fget Reg.DMC_CAP.MIB * 2 ^ 20 →
    (s.dev.mem.dram.read a 1 = 0 ∨ 5 < s.dev.mem.dram.read a 1) →
    Runs .fuseRequest s fun d => d.anchor = { s.dev.anchor with req := some { op := 4, addr := a, result := some 2 } }) ∧
  (∀ (s : State) (a : Nat), s.live = true → s.dev.anchor.req = none → (s.dev.inst 1 0).safe = false →
    a = s.dev.fget Reg.ANC_REQ.ADDR → a % 8 = 0 → a < s.dev.fget Reg.DMC_CAP.MIB * 2 ^ 20 →
    (s.dev.mem.dram.read a 1 = 1 ∨ s.dev.mem.dram.read a 1 = 2 ∨ s.dev.mem.dram.read a 1 = 5) →
    s.dev.mem.dram.read (a + 1) 1 < 4 → s.dev.mem.dram.read (a + 80) 1 < 4 → s.dev.mem.dram.read (a + 2) 6 = 0 →
    s.dev.mem.dram.read (a + 73) 7 = 0 → s.dev.mem.dram.read (a + 81) 15 = 0 → s.dev.mem.dram.read (a + 210) 14 = 0 →
    s.dev.mem.dram.bytes (a + 8) 8 ≠ leBytes (s.dev.fuseW 8).toNat 8 →
    Runs .fuseRequest s fun d => d.anchor = { s.dev.anchor with req := some { op := 4, addr := a, result := some 0x21 } }) ∧
  (∀ (s : State) (c : Instr) (op : Nat), s.live = true → s.dev.anchor.req = none → (s.dev.inst 1 0).safe = false →
    (s.dev.fget Reg.ANC_REQ.ADDR % 8 ≠ 0 ∨ s.dev.fget Reg.DMC_CAP.MIB * 2 ^ 20 ≤ s.dev.fget Reg.ANC_REQ.ADDR) →
    (c, op) ∈ [(Instr.attestReport, 1), (.kekImport, 2), (.kekUnseal, 3), (.fuseRequest, 4), (.certExport, 5), (.spdmSign, 6)] →
    Runs c s fun d => d.fget Reg.ANC_REQ_CTRL.BUSY = 1 ∧ d.mem = s.dev.mem ∧ d.anchor = {
      s.dev.anchor with req := some { op := op, addr := s.dev.fget Reg.ANC_REQ.ADDR, result := some 2 } }) ∧
  (∀ (s : State) (c : Instr) (op : Nat) (r : AncReq), s.live = true → s.dev.anchor.req = some r →
    (r.op ≠ op ∨ r.result ≠ none) →
    (c, op) ∈ [(Instr.attestReport, 1), (.kekImport, 2), (.kekUnseal, 3), (.fuseRequest, 4), (.certExport, 5), (.spdmSign, 6)] →
    Gives c s (s.dev.fset Reg.ANC_REQ_CTRL.OP op)) ∧
  (∀ (s : State) (c : Instr) (op : Nat), s.live = true → s.dev.anchor.req = none → (s.dev.inst 1 0).safe = true →
    (c, op) ∈ [(Instr.attestReport, 1), (.kekImport, 2), (.kekUnseal, 3), (.fuseRequest, 4), (.certExport, 5), (.spdmSign, 6)] →
    Gives c s (s.dev.fset Reg.ANC_REQ_CTRL.OP op)) ∧
  (∀ (s : State) (r : AncReq), s.live = true → s.dev.anchor.req = some r → r.op = 1 → r.result = none →
    Runs .attestReport s fun d => d.anchor = { s.dev.anchor with req := some { r with result := some 0 } } ∧
      d.mem.dram = s.dev.mem.dram.setBytes (r.addr + 64) (s.dev.reportBody (s.dev.mem.dram.bytes r.addr 32) ++
        Config.ed448Sign s.dev.attestSeed (s.dev.reportBody (s.dev.mem.dram.bytes r.addr 32)) ++ List.replicate 14 0)) ∧
  (∀ (s : State) (r : AncReq) (x : Nat), s.live = true → s.dev.anchor.req = some r → r.result = some x → x < 256 →
    Runs .anchorRequestDone s fun d => d.anchor = { s.dev.anchor with req := none } ∧
      d.fget Reg.ANC_REQ_CTRL.BUSY = 0 ∧ d.fget Reg.ANC_REQ_CTRL.RESULT = x) ∧
  (∀ (s : State), s.live = true → s.dev.anchor.req.bind (·.result) = none → Gives .anchorRequestDone s s.dev)

/-- Fuse operations (R440, R441). An accepted ENROLL writes its key into the slot's words and sets the slot's ENABLED bit,
REVOKE its REVOKED bit, the floors rise to what runs, DECOMMISSION zeroes the UDS and sets its bit, in the cells and in the
shadow; with none accepted, nothing is programmed. -/
def Obligations.FuseOperations : Prop :=
  (∀ (s : State) (bs : List Byte) (slot : Nat), s.live = true → s.dev.fusePending = some (1, bs) → slot = leAt bs 1 1 →
    slot < 4 → ∃ h d, exec .enroll s = .next { s with hard := h, dev := d } ∧
      (∀ i < 8, d.fuseW (16 + 8 * slot + i) = BitVec.ofNat 64 (leAt (slice bs 16 57 ++ List.replicate 7 0) (8 * i) 8)) ∧
      (∀ i < 8, h.fuseA.get (16 + 8 * slot + i) = s.hard.fuseA.get (16 + 8 * slot + i) ||| d.fuseW (16 + 8 * slot + i)) ∧
      d.fuseW 9 = s.dev.fuseW 9 ||| BitVec.ofNat 64 (2 ^ (16 + slot)) ∧
      h.fuseA.get 9 = s.hard.fuseA.get 9 ||| d.fuseW 9 ∧ h.fuseB.get 9 = s.hard.fuseB.get 9 ||| d.fuseW 9 ∧
      (∀ i, i ≠ 9 → ¬ (16 + 8 * slot ≤ i ∧ i < 24 + 8 * slot) →
        d.fuseW i = s.dev.fuseW i ∧ h.fuseA.get i = s.hard.fuseA.get i ∧ h.fuseB.get i = s.hard.fuseB.get i) ∧
      (d.anchor.req.map fun r => r.result) = some (some 0)) ∧
  (∀ (s : State) (bs : List Byte) (slot : Nat), s.live = true → s.dev.fusePending = some (2, bs) → slot = leAt bs 1 1 →
    slot < 4 → ∃ h d, exec .revoke s = .next { s with hard := h, dev := d } ∧
      d.fuseW 9 = s.dev.fuseW 9 ||| BitVec.ofNat 64 (2 ^ (20 + slot)) ∧
      h.fuseA.get 9 = s.hard.fuseA.get 9 ||| d.fuseW 9 ∧
      (∀ i, i ≠ 9 → d.fuseW i = s.dev.fuseW i ∧ h.fuseA.get i = s.hard.fuseA.get i ∧ h.fuseB.get i = s.hard.fuseB.get i) ∧
      (d.anchor.req.map fun r => r.result) = some (some 0)) ∧
  (∀ (s : State) (bs : List Byte), s.live = true → s.dev.fusePending = some (3, bs) →
    ∃ h d, exec .raiseWdn s = .next { s with hard := h, dev := d } ∧
      d.fuseW 10 = raiseFloor (s.dev.fuseW 10) (s.dev.fget Reg.ANC_BOOT.SVN) ∧
      (∀ i, i ≠ 10 → d.fuseW i = s.dev.fuseW i ∧ h.fuseA.get i = s.hard.fuseA.get i ∧ h.fuseB.get i = s.hard.fuseB.get i) ∧
      (d.anchor.req.map fun r => r.result) = some (some 0)) ∧
  (∀ (s : State) (bs : List Byte) (m : Image), s.live = true → s.dev.fusePending = some (4, bs) →
    s.dev.pitch.images = [m] → m.gen = (s.dev.inst 0x13 0).active →
    ∃ h d, exec .raisePgm s = .next { s with hard := h, dev := d } ∧
      d.fuseW 11 = raiseFloor (s.dev.fuseW 11) m.svn ∧
      (∀ i, i ≠ 11 → d.fuseW i = s.dev.fuseW i ∧ h.fuseA.get i = s.hard.fuseA.get i ∧ h.fuseB.get i = s.hard.fuseB.get i) ∧
      (d.anchor.req.map fun r => r.result) = some (some 0)) ∧
  (∀ (s : State) (bs : List Byte), s.live = true → s.dev.fusePending = some (5, bs) →
    ∃ h d, exec .decommission s = .next { s with hard := h, dev := d } ∧
      (∀ i < 8, d.fuseW i = 0 ∧ h.fuseA.get i = 0 ∧ h.fuseB.get i = 0) ∧ (d.fuseW 9).getLsbD 10 = true ∧
      (h.fuseA.get 9).getLsbD 10 = true ∧ d.fget Reg.ANC_BOOT.LIFECYCLE = field (d.fuseW 9) 10 8 ∧
      (∀ i, i ≠ 9 → 8 ≤ i → d.fuseW i = s.dev.fuseW i ∧ h.fuseA.get i = s.hard.fuseA.get i) ∧
      (d.anchor.req.map fun r => r.result) = some (some 0)) ∧
  (∀ (s : State) (c : Instr) (op : Nat), s.live = true → s.dev.fusePending.map (·.1) ≠ some op →
    (c, op) ∈ [(Instr.enroll, 1), (.revoke, 2), (.raiseWdn, 3), (.raisePgm, 4), (.decommission, 5)] → exec c s = .next s)

/-- The SPDM responder (R444) answers while the Warden firmware runs: version 1.2, its capabilities, the algorithms both
sides have, the digest and the portions of slot 0's chain, a challenge and measurements with a signature by the attestation
alias, counted; any other request is unsupported, and one out of order is invalid and moves nothing (log 42). -/
def Obligations.SpdmResponder : Prop :=
  (∀ (s : State), s.live = true → s.dev.anchor.wardenRan = true → s.dev.on 2 = true →
    Gives .getVersion s { s.dev with anchor := { s.dev.anchor with spdmStage := 1, spdmTx := some (.version 1 2) } }) ∧
  (∀ (s : State), s.live = true → s.dev.anchor.wardenRan = true → s.dev.on 2 = true → 1 ≤ s.dev.anchor.spdmStage →
    Gives .getCapabilities s { s.dev with anchor := { s.dev.anchor with
      spdmStage := (max 2 s.dev.anchor.spdmStage)
      spdmTx := some (.capabilities true true true true) } }) ∧
  (∀ (s : State) (a b : Bool), s.live = true → s.dev.anchor.wardenRan = true → s.dev.on 2 = true →
    2 ≤ s.dev.anchor.spdmStage →
    Gives (.negotiateAlgorithms a b) s { s.dev with anchor := { s.dev.anchor with
      spdmStage := (if a && b then 3 else 2)
      spdmTx := some (.algorithms (a && b)) } }) ∧
  (∀ (s : State), s.live = true → s.dev.anchor.wardenRan = true → s.dev.on 2 = true → s.dev.anchor.spdmStage = 3 →
    Gives .getDigests s { s.dev with anchor := { s.dev.anchor with
      spdmTx := some (.digests (Config.sha3_512 s.dev.anchor.spdmChain)) } }) ∧
  (∀ (s : State) (offset len : Nat), s.live = true → s.dev.anchor.wardenRan = true → s.dev.on 2 = true →
    s.dev.anchor.spdmStage = 3 → offset ≤ s.dev.anchor.spdmChain.length →
    Gives (.getCertificate 0 offset len) s { s.dev with anchor := { s.dev.anchor with
      spdmTx := some (.certificate ((s.dev.anchor.spdmChain.drop offset).take len)
        (s.dev.anchor.spdmChain.length - offset - ((s.dev.anchor.spdmChain.drop offset).take len).length)) } }) ∧
  (∀ (s : State) (slot offset len : Nat), s.live = true → s.dev.anchor.wardenRan = true → s.dev.on 2 = true →
    s.dev.anchor.spdmStage = 3 → (slot ≠ 0 ∨ s.dev.anchor.spdmChain.length < offset) →
    Gives (.getCertificate slot offset len) s { s.dev with anchor := { s.dev.anchor with spdmTx := some .invalid } }) ∧
  (∀ (s : State) (hash : List Byte), s.live = true → s.dev.anchor.wardenRan = true → s.dev.on 2 = true →
    s.dev.anchor.spdmStage = 3 →
    Runs (.challenge 0 0 hash) s fun d => d.anchor = { s.dev.anchor with
        spdmTx := some (.challengeAuth (Config.sha3_512 s.dev.anchor.spdmChain) []
          (Config.ed448Sign s.dev.attestSeed (Config.spdmPrefix ++ hash))) } ∧
      d.fget Reg.ANC_SIGNS.ATTEST = (s.dev.fget Reg.ANC_SIGNS.ATTEST + 1) % 2 ^ 32) ∧
  (∀ (s : State) (hash : List Byte), s.live = true → s.dev.anchor.wardenRan = true → s.dev.on 2 = true →
    s.dev.anchor.spdmStage = 3 →
    Runs (.challenge 0 255 hash) s fun d => d.anchor = { s.dev.anchor with
        spdmTx := some (.challengeAuth (Config.sha3_512 s.dev.anchor.spdmChain)
          (Config.sha3_512 ((List.range 6).flatMap fun i => (s.dev.spdmBlock (i + 1)).value))
          (Config.ed448Sign s.dev.attestSeed (Config.spdmPrefix ++ hash))) } ∧
      d.fget Reg.ANC_SIGNS.ATTEST = (s.dev.fget Reg.ANC_SIGNS.ATTEST + 1) % 2 ^ 32) ∧
  (∀ (s : State) (slot k : Nat) (hash : List Byte), s.live = true → s.dev.anchor.wardenRan = true → s.dev.on 2 = true →
    s.dev.anchor.spdmStage = 3 → (slot ≠ 0 ∨ k ≠ 0 ∧ k ≠ 255) →
    Gives (.challenge slot k hash) s { s.dev with anchor := { s.dev.anchor with spdmTx := some .invalid } }) ∧
  (∀ (s : State) (i : Nat), s.live = true → s.dev.anchor.wardenRan = true → s.dev.on 2 = true →
    s.dev.anchor.spdmStage = 3 → 1 ≤ i → i ≤ 5 → Tab.look s.dev.anchor.meas i = none →
    Gives (.getMeasurements i none) s { s.dev with anchor := { s.dev.anchor with
      spdmTx := some (.measurements [.empty i] none) } }) ∧
  (∀ (s : State), s.live = true → s.dev.anchor.wardenRan = true → s.dev.on 2 = true → s.dev.anchor.spdmStage = 3 →
    Gives (.getMeasurements 255 none) s { s.dev with anchor := { s.dev.anchor with
      spdmTx := some (.measurements ([1, 2, 3, 4, 5, 6].map s.dev.spdmBlock) none) } }) ∧
  (∀ (s : State) (i : Nat) (sig : Option (List Byte)), s.live = true → s.dev.anchor.wardenRan = true → s.dev.on 2 = true →
    s.dev.anchor.spdmStage = 3 → (i = 0 ∨ 6 < i) → i ≠ 255 →
    Runs (.getMeasurements i sig) s fun d => d.anchor = { s.dev.anchor with spdmTx := some .invalid }) ∧
  (∀ (s : State) (i : Nat) (m : Measure), s.live = true → s.dev.anchor.wardenRan = true → s.dev.on 2 = true →
    s.dev.anchor.spdmStage = 3 → 1 ≤ i → i ≤ 5 → Tab.look s.dev.anchor.meas i = some m →
    Gives (.getMeasurements i none) s { s.dev with anchor := { s.dev.anchor with
      spdmTx := some (.measurements [.digest i m.sha3] none) } }) ∧
  (∀ (s : State) (hash : List Byte), s.live = true → s.dev.anchor.wardenRan = true → s.dev.on 2 = true →
    s.dev.anchor.spdmStage = 3 →
    Runs (.getMeasurements 6 (some hash)) s fun d => d.anchor = { s.dev.anchor with
        spdmTx := some (.measurements [.raw 6 (leBytes (field (s.dev.fuseW 9) 1 0) 1 ++ leBytes 0x0C00 2)]
          (some (Config.ed448Sign s.dev.attestSeed (Config.spdmPrefix ++ hash)))) } ∧
      d.fget Reg.ANC_SIGNS.ATTEST = (s.dev.fget Reg.ANC_SIGNS.ATTEST + 1) % 2 ^ 32) ∧
  (∀ (s : State), s.live = true → s.dev.anchor.wardenRan = true → s.dev.on 2 = true →
    Gives .spdmUnsupportedRequest s { s.dev with anchor := { s.dev.anchor with spdmTx := some .unsupported } }) ∧
  (∀ (s : State) (a b : Bool) (slot offset len index : Nat) (hash : List Byte) (sig : Option (List Byte)) (c : Instr),
    s.live = true → s.dev.anchor.wardenRan = true → s.dev.on 2 = true → s.dev.anchor.spdmStage = 0 →
    c ∈ [Instr.getCapabilities, .negotiateAlgorithms a b, .getDigests, .getCertificate slot offset len,
      .challenge slot index hash, .getMeasurements index sig] →
    Gives c s { s.dev with anchor := { s.dev.anchor with spdmTx := some .invalid } }) ∧
  (∀ (s : State) (a b : Bool) (slot offset len index : Nat) (hash : List Byte) (sig : Option (List Byte)) (c : Instr),
    s.live = true → (s.dev.anchor.wardenRan = false ∨ s.dev.on 2 = false) →
    c ∈ [Instr.getVersion, .getCapabilities, .negotiateAlgorithms a b, .getDigests, .getCertificate slot offset len,
      .challenge slot index hash, .getMeasurements index sig, .spdmUnsupportedRequest] →
    Gives c s s.dev)

/-- The Belay link and the heartbeats (R390 to R397, R409). A frame out of order or damaged is dropped and answered with a
NAK, a repeat only takes its acknowledgement; the link trains, its HELLOs and BEATs leave and are recorded, with the time
offset of R394 (halves rounded down, the model's choice); a path or a PHY that fails is marked; a PHY that comes back resumes
the link (log 131, the model's choice); a NAK and the timeout replay, and after eight replays the link trains again; unit 1
fences itself when the link alone stays down, and on command. -/
def Obligations.BelayLink : Prop :=
  (∀ (s : State) (h : BHdr) (c : Instr), s.live = true → s.dev.blyUp = true → belayFrame h c →
    (h.good = false ∨ (h.seq % 2 ^ 32 ≠ (s.dev.belay.rxSeq + 1) % 2 ^ 32 ∧ linkSeqLe (2 ^ 32) h.seq s.dev.belay.rxSeq = false)) →
    Acts c s fun d => s.dev.bSent d nakFrame ∧ d.belay.rxSeq = s.dev.belay.rxSeq) ∧
  (∀ (s : State) (h : BHdr) (c : Instr), s.live = true → s.dev.blyUp = true → belayFrame h c →
    h.good = true → h.seq % 2 ^ 32 ≠ (s.dev.belay.rxSeq + 1) % 2 ^ 32 → linkSeqLe (2 ^ 32) h.seq s.dev.belay.rxSeq = true →
    Settles c s (s.dev.backed h.ack)) ∧
  (∀ (s : State) (h : BHdr) (c : Instr), s.live = true → s.dev.blyUp = false → belayFrame h c → Settles c s s.dev) ∧
  (∀ (s : State) (phys : Nat), s.live = true → s.dev.fget Reg.BLY_CFG.LINK_EN = 0 → s.dev.bly = 0 → 1 ≤ phys → phys ≤ 3 →
    Acts (.belayLinkEnable phys) s fun d => d.fget Reg.BLY_CFG.LINK_EN = 1 ∧ d.fget Reg.BLY_STATUS.PHYS = phys ∧ d.bly = 1 ∧
      (phys ≠ 3 → (d.inst 0x19 0).err.getLsbD 11 = true) ∧
      s.dev.bSent d { seq := 0, typ := 1, payload := HelloRec.bytes { s.dev.ownHello with state := 1 } s.dev.imageBytes }) ∧
  (∀ (s : State), s.live = true → s.dev.fget Reg.BLY_CFG.LINK_EN = 0 →
    Acts (.belayLinkEnable 0) s fun d => d.fget Reg.BLY_CFG.LINK_EN = 1 ∧ d.fget Reg.BLY_STATUS.PHYS = 0 ∧
      d.bly = s.dev.bly ∧ d.belay = s.dev.belay) ∧
  (∀ (s : State) (phys : Nat), s.live = true → s.dev.fget Reg.BLY_CFG.LINK_EN = 1 →
    Settles (.belayLinkEnable phys) s s.dev) ∧
  (∀ (s : State), s.live = true → s.dev.blyUp = true →
    Acts .helloTimer s fun d => s.dev.bSent d { seq := 0, typ := 1, payload := s.dev.ownHello.bytes s.dev.imageBytes }) ∧
  (∀ (s : State), s.live = true → s.dev.blyUp = false → Settles .helloTimer s s.dev) ∧
  (∀ (s : State) (h : BHdr) (p : List Byte), s.live = true → s.dev.bNext h = true →
    Acts (.hello h p) s fun d => d.belay.hello = some (readHello (Memory.setBytes [] 0 p) s.dev.now) ∧
      d.belay.rxSeq = h.seq % 2 ^ 32 ∧ d.fget Reg.BLY_STATUS.PEER_UNIT = (readHello (Memory.setBytes [] 0 p) 0).unit % 2 ∧
      d.fget Reg.BLY_EPOCH.PEER = (readHello (Memory.setBytes [] 0 p) 0).epoch % 2 ^ 31 ∧
      d.fget Reg.BLY_STATUS.SAME_FW = b2n ((Memory.setBytes [] 0 p).bytes 56 64 = s.dev.imageBytes)) ∧
  (∀ (s : State), s.live = true → s.dev.belay.beating = true → s.dev.quiet = false → s.dev.blyUp = true →
    Acts .beatTimer s fun d => d.belay.pinOut = !s.dev.belay.pinOut ∧
      s.dev.bSent d { seq := 0, typ := 2, payload := (leBytes s.dev.unitId 1 ++ leBytes s.dev.bly 1 ++ leBytes 0 2 ++
        leBytes (s.dev.fget Reg.BLY_EPOCH.OWN) 4 ++ leBytes s.dev.now 8 ++ leBytes s.dev.belay.echoTx 8 ++
        leBytes s.dev.belay.echoRx 8) }) ∧
  (∀ (s : State), s.live = true → s.dev.belay.beating = true → s.dev.quiet = false → s.dev.blyUp = false →
    Acts .beatTimer s fun d => d.belay = { s.dev.belay with pinOut := !s.dev.belay.pinOut }) ∧
  (∀ (s : State), s.live = true → (s.dev.belay.beating = false ∨ s.dev.quiet = true) → Settles .beatTimer s s.dev) ∧
  (∀ (s : State) (h : BHdr) (p : List Byte) (m : Memory), s.live = true → s.dev.bNext h = true → s.dev.on 0x19 = true →
    m = Memory.setBytes [] 0 p → m.read 24 8 ≠ 0 →
    Acts (.beat h p) s fun d => d.fget Reg.BLY_STATUS.LINK_UP = 1 ∧ d.fget Reg.BLY_EPOCH.PEER = m.read 4 4 % 2 ^ 31 ∧
      d.belay.lastLink = some s.dev.now ∧ d.belay.echoTx = m.read 8 8 ∧ d.belay.echoRx = s.dev.now ∧
      d.fget Reg.BLY_TIME.OFFSET_NS = unsigned 32 ((((m.read 24 8 : Nat) : Int) - ((m.read 16 8 : Nat) : Int) -
        (((s.dev.now : Nat) : Int) - ((m.read 8 8 : Nat) : Int))) / 2) ∧
      d.fget Reg.BLY_TIME.DELAY_NS = unsigned 32 ((((m.read 24 8 : Nat) : Int) - ((m.read 16 8 : Nat) : Int) +
        (((s.dev.now : Nat) : Int) - ((m.read 8 8 : Nat) : Int))) / 2) ∧
      (s.dev.bly = 1 → s.dev.belay.beating = true → s.dev.belay.releasing = false → d.bly = 2) ∧
      (s.dev.bly ≠ 1 → d.bly = s.dev.bly)) ∧
  (∀ (s : State) (h : BHdr) (p : List Byte), s.live = true → s.dev.bNext h = true → s.dev.on 0x19 = true →
    (Memory.setBytes [] 0 p).read 24 8 = 0 →
    Acts (.beat h p) s fun d => d.fget Reg.BLY_STATUS.LINK_UP = 1 ∧ d.belay.lastLink = some s.dev.now ∧
      d.belay.skew = s.dev.belay.skew ∧ d.fget Reg.BLY_TIME.OFFSET_NS = s.dev.fget Reg.BLY_TIME.OFFSET_NS ∧
      d.fget Reg.BLY_TIME.DELAY_NS = s.dev.fget Reg.BLY_TIME.DELAY_NS) ∧
  (∀ (s : State) (h : BHdr) (p : List Byte) (m : Memory), s.live = true → s.dev.bNext h = true → s.dev.on 0x19 = true →
    m = Memory.setBytes [] 0 p → m.read 24 8 ≠ 0 → s.dev.belay.skew = 15 →
    (s.dev.fget Reg.BLY_CFG.TIME_TOL_NS < ((((m.read 24 8 : Nat) : Int) - ((m.read 16 8 : Nat) : Int) -
        (((s.dev.now : Nat) : Int) - ((m.read 8 8 : Nat) : Int))) / 2).natAbs) →
    Acts (.beat h p) s fun d => d.belay.skew = 16 ∧ (d.inst 0x19 0).err.getLsbD 9 = true) ∧
  (∀ (s : State) (h : BHdr) (p : List Byte), s.live = true → s.dev.bNext h = true → s.dev.on 0x19 = false →
    Settles (.beat h p) s (s.dev.bTaken h)) ∧
  (∀ (s : State) (level : Bool), s.live = true → s.dev.on 0x19 = true → level ≠ s.dev.belay.pinIn →
    Acts (.peerBeatEdge level) s fun d => d.belay = {
        s.dev.belay with pinIn := level, lastPins := some s.dev.now } ∧ d.fget Reg.BLY_STATUS.PINS_UP = 1) ∧
  (∀ (s : State) (level : Bool), s.live = true → s.dev.on 0x19 = false → level ≠ s.dev.belay.pinIn →
    Acts (.peerBeatEdge level) s fun d => d.belay = {
        s.dev.belay with pinIn := level, lastPins := some s.dev.now } ∧ d.regs = s.dev.regs) ∧
  (∀ (s : State), s.live = true → Settles (.peerBeatEdge s.dev.belay.pinIn) s s.dev) ∧
  (∀ (s : State), s.live = true → s.dev.on 0x19 = true → s.dev.fget Reg.BLY_STATUS.PINS_UP = 1 →
    s.dev.silent s.dev.belay.lastPins = true → s.dev.silent s.dev.belay.lastLink = false →
    Acts (.beatMiss true) s fun d => d.fget Reg.BLY_STATUS.PINS_UP = 0 ∧ (d.inst 0x19 0).err.getLsbD 8 = true ∧
      d.fget Reg.BLY_BEATS.PIN_MISSED = (s.dev.fget Reg.BLY_BEATS.PIN_MISSED + 1) % 2 ^ 32) ∧
  (∀ (s : State), s.live = true → s.dev.on 0x19 = true → s.dev.fget Reg.BLY_STATUS.LINK_UP = 1 →
    s.dev.silent s.dev.belay.lastLink = true → s.dev.silent s.dev.belay.lastPins = false →
    Acts (.beatMiss false) s fun d => d.fget Reg.BLY_STATUS.LINK_UP = 0 ∧ (d.inst 0x19 0).err.getLsbD 8 = true ∧
      d.fget Reg.BLY_BEATS.LINK_MISSED = (s.dev.fget Reg.BLY_BEATS.LINK_MISSED + 1) % 2 ^ 32) ∧
  (∀ (s : State) (t : Nat), s.live = true → s.dev.on 0x19 = true → s.dev.belay.lastLink = some t → t + 110000 ≤ s.dev.now →
    s.dev.now < t + 300000 →
    Acts (.beatMiss false) s fun d => d.fget Reg.BLY_STATUS.LINK_UP = s.dev.fget Reg.BLY_STATUS.LINK_UP ∧
      d.fget Reg.BLY_BEATS.LINK_MISSED = (s.dev.fget Reg.BLY_BEATS.LINK_MISSED + 1) % 2 ^ 32) ∧
  (∀ (s : State) (t : Nat), s.live = true → s.dev.on 0x19 = true → s.dev.belay.lastPins = some t → t + 110000 ≤ s.dev.now →
    s.dev.now < t + 300000 →
    Acts (.beatMiss true) s fun d => d.fget Reg.BLY_STATUS.PINS_UP = s.dev.fget Reg.BLY_STATUS.PINS_UP ∧
      d.fget Reg.BLY_BEATS.PIN_MISSED = (s.dev.fget Reg.BLY_BEATS.PIN_MISSED + 1) % 2 ^ 32) ∧
  (∀ (s : State) (pins : Bool) (t : Nat), s.live = true →
    (if pins then s.dev.belay.lastPins else s.dev.belay.lastLink) = some t → s.dev.now < t + 110000 →
    Settles (.beatMiss pins) s s.dev) ∧
  (∀ (s : State) (pins : Bool), s.live = true → s.dev.on 0x19 = false → Settles (.beatMiss pins) s s.dev) ∧
  (∀ (s : State) (p : Nat), s.live = true → p < 2 → s.dev.fget Reg.BLY_STATUS.PHYS = 3 →
    Acts (.belayPhyDown p) s fun d => d.fget Reg.BLY_STATUS.PHYS = 3 - 2 ^ p ∧ (d.inst 0x19 0).err.getLsbD 11 = true ∧
      d.belay = s.dev.belay) ∧
  (∀ (s : State) (p : Nat), s.live = true → p < 2 → s.dev.fget Reg.BLY_STATUS.PHYS = 2 ^ p →
    Acts (.belayPhyDown p) s fun d => d.fget Reg.BLY_STATUS.PHYS = 0 ∧
      d.belay = { s.dev.belay with downSince := some s.dev.now }) ∧
  (∀ (s : State) (p : Nat), s.live = true → p < 2 → bitOf (s.dev.fget Reg.BLY_STATUS.PHYS) p = false →
    Settles (.belayPhyDown p) s s.dev) ∧
  (∀ (s : State) (p : Nat), s.live = true → p < 2 → s.dev.fget Reg.BLY_CFG.LINK_EN = 1 →
    s.dev.fget Reg.BLY_STATUS.PHYS = 2 ^ (1 - p) →
    Acts (.belayPhyUp p) s fun d => d.fget Reg.BLY_STATUS.PHYS = 3 ∧ d.belay = { s.dev.belay with downSince := none }) ∧
  (∀ (s : State) (p : Nat), s.live = true → p < 2 → s.dev.fget Reg.BLY_CFG.LINK_EN = 1 →
    s.dev.fget Reg.BLY_STATUS.PHYS = 0 → s.dev.bly ≠ 2 → s.dev.bly ≠ 4 → s.dev.bly ≠ 5 →
    Acts (.belayPhyUp p) s fun d => d.fget Reg.BLY_STATUS.PHYS = 2 ^ p ∧
      d.belay = { s.dev.belay with downSince := none, txSeq := 0, rxSeq := 0, unacked := [] }) ∧
  (∀ (s : State) (p : Nat), s.live = true → p < 2 → s.dev.fget Reg.BLY_CFG.LINK_EN = 1 →
    s.dev.fget Reg.BLY_STATUS.PHYS = 0 → (s.dev.bly = 2 ∨ s.dev.bly = 4 ∨ s.dev.bly = 5) →
    (∀ f ∈ s.dev.belay.unacked, f.replays < 8) →
    Acts (.belayPhyUp p) s fun d => d.fget Reg.BLY_STATUS.PHYS = 2 ^ p ∧ d.belay = {
      s.dev.belay with downSince := none
                       unacked := (s.dev.belay.unacked.map fun f => { f with replays := f.replays + 1 }) }) ∧
  (∀ (s : State) (p : Nat), s.live = true → p < 2 →
    (s.dev.fget Reg.BLY_CFG.LINK_EN = 0 ∨ bitOf (s.dev.fget Reg.BLY_STATUS.PHYS) p = true) →
    Settles (.belayPhyUp p) s s.dev) ∧
  (∀ (s : State) (t : Nat), s.live = true → s.dev.on 0x19 = true → s.dev.belay.downSince = some t → s.dev.unitId = 1 →
    s.dev.fget Reg.BLY_STATUS.PINS_UP = 1 → t + s.dev.fget Reg.BLY_CFG.LINK_GRACE_US * 1000 ≤ s.dev.now → s.dev.bly ≠ 6 →
    Acts .linkGraceExpiry s fun d => d.bly = 6 ∧ (d.inst 0x19 0).err.getLsbD 10 = true ∧ d.belay.beating = false ∧
      d.belay.pinOut = s.dev.belay.pinOut ∧ ∀ b ∈ [0x08, 0x0C, 0x0D, 0x17, 0x11, 0x12], (d.inst b 0).safe = true) ∧
  (∀ (s : State), s.live = true →
    (s.dev.unitId = 0 ∨ s.dev.belay.downSince = none ∨ s.dev.fget Reg.BLY_STATUS.PINS_UP = 0) →
    Settles .linkGraceExpiry s s.dev) ∧
  (∀ (s : State) (t : Nat), s.live = true → s.dev.belay.downSince = some t →
    s.dev.now < t + s.dev.fget Reg.BLY_CFG.LINK_GRACE_US * 1000 → Settles .linkGraceExpiry s s.dev) ∧
  (∀ (s : State), s.live = true → s.dev.blyUp = true → (∀ f ∈ s.dev.belay.unacked, f.replays < 8) →
    Acts .belayReplayTimeout s fun d => d.belay = { s.dev.belay with unacked :=
      (s.dev.belay.unacked.map fun f => { f with replays := f.replays + 1 }) } ∧ d.regs = s.dev.regs) ∧
  (∀ (s : State) (f : BFrame), s.live = true → s.dev.blyUp = true → f ∈ s.dev.belay.unacked → 8 ≤ f.replays →
    Acts .belayReplayTimeout s fun d => d.fget Reg.BLY_STATUS.PHYS = 0 ∧ d.belay = {
      s.dev.belay with downSince := some s.dev.now
                       unacked := (s.dev.belay.unacked.map fun f => { f with replays := 0 }) }) ∧
  (∀ (s : State), s.live = true → s.dev.blyUp = false → Settles .belayReplayTimeout s s.dev) ∧
  (∀ (s : State) (h : BHdr) (credits : Nat) (nak : Bool), s.live = true → s.dev.bNext h = true →
    (∀ f ∈ s.dev.belay.unacked, f.replays < 8) →
    Acts (.belayLinkFrame h credits nak) s fun d => d.belay = { (s.dev.bTaken h).belay with
      credits := (s.dev.belay.credits + credits)
      unacked := ((s.dev.bTaken h).belay.unacked.map fun f => if nak then { f with replays := f.replays + 1 } else f) }) ∧
  (∀ (s : State), s.live = true → s.dev.on 0x19 = true → s.dev.fget Reg.BLY_CMD.BUSY = 0 → s.dev.bly ≠ 6 →
    Acts .fenceNow s fun d => d.bly = 6 ∧ d.fget Reg.BLY_CMD.RESULT = 0 ∧ d.fget Reg.BLY_CMD.OP = 2 ∧
      (d.inst 0x19 0).err.getLsbD 10 = true ∧ d.belay.beating = false ∧ d.belay.pinOut = s.dev.belay.pinOut ∧
      ∀ b ∈ [0x08, 0x0C, 0x0D, 0x17, 0x11, 0x12], (d.inst b 0).safe = true) ∧
  (∀ (s : State), s.live = true → (s.dev.fget Reg.BLY_CMD.BUSY = 1 ∨ s.dev.on 0x19 = false) → Settles .fenceNow s s.dev)

/-- Mirroring, records and forwarded commands (R166, R207, R399 to R401, R403 to R405). A section arrives in parts and is
confirmed when it is whole; its WRITE items become MIRROR units, and what its items say is kept; a confirmation releases its
cycle, and its units are DIRTY; a transport record is kept and confirmed, and one the partner holds leaves the queue; a
forwarded capsule is Queued at the unit that owns its namespace, and its arrival is posted; the transfers, marks and
completions of forwarded commands reach their commands. -/
def Obligations.Mirroring : Prop :=
  (∀ (s : State) (h : BHdr) (p : List Byte), s.live = true → s.dev.bNext h = true → s.dev.on 0x14 = true →
    s.dev.on 0x19 = true → s.dev.quiet = false → (s.dev.bly = 2 ∨ s.dev.bly = 4 ∨ s.dev.bly = 5) →
    s.dev.belay.rxPart = none → leNat ((p.drop 8).take 4) = 0 → p.length - 16 < leNat ((p.drop 12).take 4) →
    Acts (.bundle h p) s fun d => d.belay = { (s.dev.bTaken h).belay with rxPart := some {
        cycle := (leNat ((p.drop 0).take 6))
        sec := (leNat ((p.drop 6).take 1))
        bytes := (p.drop 16) } }) ∧
  (∀ (s : State) (h : BHdr) (p : List Byte), s.live = true → s.dev.bNext h = true → s.dev.on 0x14 = true →
    s.dev.on 0x19 = true → s.dev.quiet = false → s.dev.bly = 2 → s.dev.belay.rxPart = none → s.dev.belay.rxSects = [] →
    s.dev.belay.handback = false → p.length = 16 → leNat ((p.drop 8).take 8) = 0 → leNat ((p.drop 6).take 1) = 3 →
    s.dev.fget Reg.MAP_STAGE.MIRROR ≤ s.dev.mirrorBudget →
    Acts (.bundle h p) s fun d => d.belay.rxPart = none ∧ d.belay.rxSects = [] ∧ (s.dev.bTaken h).bSent d {
      seq := 0, typ := 4, payload := leBytes (leNat (p.take 6) + 3 * 2 ^ 48) 8 }) ∧
  (∀ (s : State) (h : BHdr) (p : List Byte) (x : RxItem) (c sec : Nat), s.live = true → s.dev.bNext h = true →
    s.dev.on 0x14 = true → s.dev.on 0x19 = true → s.dev.quiet = false → s.dev.bly = 2 → s.dev.belay.rxPart = none →
    s.dev.belay.rxSects = [] → s.dev.belay.handback = false → leNat ((p.drop 8).take 4) = 0 →
    leNat ((p.drop 12).take 4) = p.length - 16 → c = leNat ((p.drop 0).take 6) → sec = leNat ((p.drop 6).take 1) →
    sec ≠ 0 → readItems (p.length - 16) (p.drop 16) = [x] → x.kind = 1 → x.flags % 2 = 0 → x.count = 1 →
    s.dev.fget Reg.MAP_STAGE.MIRROR + 1 ≤ s.dev.mirrorBudget →
    Acts (.bundle h p) s fun d => (s.dev.bTaken h).bSent d { seq := 0, typ := 4, payload := leBytes (c + sec * 2 ^ 48) 8 } ∧
      ∃ i u, Tab.look s.dev.map.staging i = none ∧ Tab.look d.map.staging i = some u ∧ u.state = .mirror ∧
        u.section_ = some (c, sec) ∧ u.token = leNat ((x.body.drop 4128).take 4) % 2 ^ 20 ∧
        u.data.bytes 0 4096 = (Memory.setBytes [] 0 (x.body.take 4160)).bytes 32 4096 ∧
        d.belay.kept = s.dev.belay.kept ++ [{
          cycle := c, sec := sec, kind := 1, zeros := false, nsh := x.nsh, slba := x.slba, nblk := 1, rope := x.tail
          units := [i] }]) ∧
  (∀ (s : State) (h : BHdr) (p : List Byte) (x : RxItem) (c sec : Nat), s.live = true → s.dev.bNext h = true →
    s.dev.on 0x14 = true → s.dev.on 0x19 = true → s.dev.quiet = false → s.dev.bly = 2 → s.dev.belay.rxPart = none →
    s.dev.belay.rxSects = [] → s.dev.belay.handback = false → leNat ((p.drop 8).take 4) = 0 →
    leNat ((p.drop 12).take 4) = p.length - 16 → c = leNat ((p.drop 0).take 6) → sec = leNat ((p.drop 6).take 1) →
    sec ≠ 0 → readItems (p.length - 16) (p.drop 16) = [x] → x.kind = 2 →
    s.dev.fget Reg.MAP_STAGE.MIRROR ≤ s.dev.mirrorBudget →
    Acts (.bundle h p) s fun d => (s.dev.bTaken h).bSent d { seq := 0, typ := 4, payload := leBytes (c + sec * 2 ^ 48) 8 } ∧
      d.map.staging = s.dev.map.staging ∧ d.belay.kept = s.dev.belay.kept ++ [{
          cycle := c, sec := sec, kind := 2, zeros := false, nsh := x.nsh, slba := x.slba, nblk := x.count, rope := x.tail }]) ∧
  (∀ (s : State) (h : BHdr) (p : List Byte) (x : RxItem), s.live = true → s.dev.bNext h = true →
    s.dev.on 0x14 = true → s.dev.on 0x19 = true → s.dev.quiet = false → s.dev.bly = 2 → s.dev.belay.rxPart = none →
    s.dev.belay.rxSects = [] → s.dev.belay.handback = false → leNat ((p.drop 8).take 4) = 0 →
    leNat ((p.drop 12).take 4) = p.length - 16 → leNat ((p.drop 6).take 1) = 0 →
    readItems (p.length - 48) (p.drop 48) = [x] → x.kind = 3 → s.dev.fget Reg.MAP_STAGE.MIRROR ≤ s.dev.mirrorBudget →
    Acts (.bundle h p) s fun d => d.belay.unacked = (s.dev.bTaken h).belay.unacked ∧
      d.belay.ropeHigh = max s.dev.belay.ropeHigh (leNat ((p.drop 16).take 8)) ∧
      d.belay.seqHigh = max s.dev.belay.seqHigh (leNat ((p.drop 24).take 8)) ∧
      d.fget Reg.BLY_EPOCH.PEER = leNat ((p.drop 32).take 4) % 2 ^ 31 ∧
      d.belay.keptDone = s.dev.belay.keptDone ++ [{
        ctx := x.ctx, cmdref := x.cmdref, sct := (x.slba / 256 % 8), sc := (x.slba % 256), dw0 := (x.tail % 2 ^ 32)
        dw1 := (x.tail / 2 ^ 32) }] ∧
      ∀ t ∈ d.belay.precs, ¬(t.kind = 3 ∧ t.ctx = x.ctx ∧ t.cmdref = x.cmdref)) ∧
  (∀ (s : State) (h : BHdr) (p : List Byte), s.live = true → s.dev.bNext h = true →
    (s.dev.on 0x14 = false ∨ s.dev.on 0x19 = false ∨ s.dev.quiet = true ∨
      (s.dev.bly ≠ 2 ∧ s.dev.bly ≠ 4 ∧ s.dev.bly ≠ 5)) →
    Settles (.bundle h p) s (s.dev.bTaken h)) ∧
  (∀ (s : State) (h : BHdr) (p : List Byte), s.live = true → s.dev.bNext h = true → s.dev.belay.rxPart = none →
    leNat ((p.drop 8).take 4) ≠ 0 → Settles (.bundle h p) s (s.dev.bTaken h)) ∧
  (∀ (s : State) (h : BHdr) (p : List Byte) (x : Section), s.live = true → s.dev.bNext h = true →
    s.dev.belay.rxPart = some x → leNat ((p.drop 8).take 4) ≠ x.bytes.length →
    Settles (.bundle h p) s (s.dev.bTaken h)) ∧
  (∀ (s : State) (h : BHdr) (o : OutBundle), s.live = true → s.dev.bNext h = true → s.dev.belay.out = [o] →
    s.dev.fget Reg.ROPE_PAIR.PAIRED = 1 → s.dev.belay.takeover = .none → s.dev.hostq.tags = [] → o.cycle < 2 ^ 48 →
    Acts (.bconf h o.cycle 3) s fun d => d.belay.out = [] ∧
      d.ledger.confirmed = cycMax s.dev.ledger.confirmed (cycAdd o.cycle 1) ∧ d.ledger.confirmed1 = s.dev.ledger.confirmed1 ∧
      d.fget Reg.BLY_MIRROR.CONF_CYCLE = o.cycle ∧
      ∀ i u, Tab.look s.dev.map.staging i = some u → u.state = .held → u.sealed = true → u.cycle = o.cycle →
        u.grade ≠ 1 → u.grade ≠ 2 → Tab.look d.map.staging i = some { u with state := .dirty, deep := s.dev.deepMode }) ∧
  (∀ (s : State) (h : BHdr) (o : OutBundle), s.live = true → s.dev.bNext h = true → s.dev.belay.out = [o] →
    s.dev.fget Reg.ROPE_PAIR.PAIRED = 1 → s.dev.belay.takeover = .none → s.dev.hostq.tags = [] →
    Acts (.bconf h o.cycle 1) s fun d => d.belay.out = [{ o with upTo := 1 }] ∧
      d.ledger.confirmed1 = cycMax s.dev.ledger.confirmed1 (cycAdd o.cycle 1) ∧
      d.ledger.confirmed = s.dev.ledger.confirmed ∧ d.ledger.confirmed2 = s.dev.ledger.confirmed2 ∧
      (s.dev.bly = 5 → d.belay.pairNext = true)) ∧
  (∀ (s : State) (h : BHdr) (o : OutBundle), s.live = true → s.dev.bNext h = true → s.dev.belay.out = [o] →
    s.dev.claimsPending = true →
    Acts (.bconf h o.cycle 2) s fun d => d.belay.out = [{ o with upTo := 2 }] ∧
      d.ledger.confirmed2 = cycMax s.dev.ledger.confirmed2 (cycAdd o.cycle 1) ∧ d.map.staging = s.dev.map.staging ∧
      d.hostq = s.dev.hostq) ∧
  (∀ (s : State) (h : BHdr) (c sec : Nat), s.live = true → s.dev.bNext h = true →
    (∀ o ∈ s.dev.belay.out, o.cycle ≠ c) → Settles (.bconf h c sec) s (s.dev.bTaken h)) ∧
  (∀ (s : State) (h : BHdr) (p : List Byte) (t : TRec), s.live = true → s.dev.bNext h = true → s.dev.on 0x19 = true →
    readTRecs p.length (p.drop 8) = [t] → t.kind = 3 →
    Acts (.trec h p) s fun d => d.belay.precs = s.dev.belay.precs ++ [t] ∧ d.belay.precNo = leNat (p.take 8) ∧
      (s.dev.bTaken h).bSent d { seq := 0, typ := 6, payload := leBytes (leNat (p.take 8)) 8 }) ∧
  (∀ (s : State) (h : BHdr) (p : List Byte) (t : TRec) (n : Nat), s.live = true → s.dev.bNext h = true →
    s.dev.on 0x19 = true → readTRecs p.length (p.drop 8) = [t] → t.kind = 1 → s.dev.freeCtxNo 0x0C = some n →
    Acts (.trec h p) s fun d => d.belay.precs = s.dev.belay.precs ++ [t] ∧ Tab.look d.belay.pctx t.ctx = some n ∧
      d.mem.dram = s.dev.mem.dram.write (s.dev.fget Reg.BLY_PCTX_TAB.ADDR * 4096 + 4 * t.ctx) 4 (n + 2 ^ 31)) ∧
  (∀ (s : State) (h : BHdr) (p : List Byte) (t : TRec), s.live = true → s.dev.bNext h = true → s.dev.on 0x19 = true →
    readTRecs p.length (p.drop 8) = [t] → t.kind = 2 →
    Acts (.trec h p) s fun d => (∀ x ∈ d.belay.precs, x.ctx ≠ t.ctx) ∧ Tab.look d.belay.pctx t.ctx = none ∧
      (∀ x ∈ s.dev.belay.precs, x.ctx ≠ t.ctx → x ∈ d.belay.precs)) ∧
  (∀ (s : State) (h : BHdr) (p : List Byte) (t : TRec), s.live = true → s.dev.bNext h = true → s.dev.on 0x19 = true →
    readTRecs p.length (p.drop 8) = [t] → t.kind = 5 →
    Acts (.trec h p) s fun d => t ∈ d.belay.precs ∧
      (∀ x ∈ d.belay.precs, x.kind = 4 → x.ctx = t.ctx → psnLe ((x.psn + 1) % 2 ^ 24) t.psn = false) ∧
      (∀ x ∈ s.dev.belay.precs, (x.kind ≠ 4 ∨ x.ctx ≠ t.ctx) → x ∈ d.belay.precs)) ∧
  (∀ (s : State) (h : BHdr) (p : List Byte), s.live = true → s.dev.bNext h = true →
    (s.dev.on 0x19 = false ∨ readTRecs p.length (p.drop 8) = []) → Settles (.trec h p) s (s.dev.bTaken h)) ∧
  (∀ (s : State) (h : BHdr) (t : TRec), s.live = true → s.dev.bNext h = true → s.dev.trans.recs = [t] → t.kind = 5 →
    s.dev.belay.trecSent = 1 →
    Acts (.tconf h s.dev.belay.trecBase) s fun d => d.trans.recs = [] ∧ d.belay.trecBase = s.dev.belay.trecBase + 1 ∧
      d.belay.trecSent = 0) ∧
  (∀ (s : State) (h : BHdr) (number : Nat), s.live = true → s.dev.bNext h = true → number < s.dev.belay.trecBase →
    Acts (.tconf h number) s fun d => d.trans = s.dev.trans ∧ d.belay.trecBase = s.dev.belay.trecBase ∧
      d.belay.trecSent = s.dev.belay.trecSent) ∧
  (∀ (s : State) (h : BHdr) (key qid tenant subsys nsgl sgl : Nat) (sqe seg : List Word), s.live = true →
    s.dev.bNext h = true → s.dev.on 0x19 = true → s.dev.on 0x10 = true → qid ≠ 0 →
    ioOpcodes.contains (sqeOpcode sqe) = true → s.dev.pitch.queue.length < 8192 → s.dev.pitch.held = [] →
    Acts (.fwd h (.capsule key qid tenant subsys sqe nsgl sgl seg)) s fun d =>
      (∃ t, d.tag (tagKey (2 ^ 18 + key / 65536) (key % 65536)) = some t ∧ t.state = .queued ∧ t.remote = some subsys ∧
        t.tenant = tenant ∧ t.qid = qid ∧ t.sqe = padWords 8 sqe ∧ t.sglLen = sgl ∧ t.nsgl = nsgl ∧ t.seg = seg) ∧
      (∃ e, d.pitch.queue = s.dev.pitch.queue ++ [e] ∧ e.typ = 0x01) ∧
      d.fget Reg.BLY_FWD.RECEIVED = (s.dev.fget Reg.BLY_FWD.RECEIVED + 1) % 2 ^ 32) ∧
  (∀ (s : State) (h : BHdr) (m : FwdMsg), s.live = true → s.dev.bNext h = true → s.dev.on 0x19 = false →
    Settles (.fwd h m) s (s.dev.bTaken h)) ∧
  (∀ (s : State) (h : BHdr) (key off len : Nat) (bs : List Byte), s.live = true → s.dev.bNext h = true →
    s.dev.tag key = none →
    Settles (.fwd h (.want key off len)) s (s.dev.bTaken h) ∧ Settles (.fwd h (.readData key off bs)) s (s.dev.bTaken h)) ∧
  (∀ (s : State) (h : BHdr) (key off len : Nat) (t : Tag) (c : Ctx), s.live = true → s.dev.bNext h = true →
    s.dev.on 0x19 = true → s.dev.tag key = some t → s.dev.ctx 0x0C t.ctx = some c →
    Acts (.fwd h (.want key off len)) s fun d => ∃ m ∈ (d.rconn t.ctx).out, m.op = .read ∧ m.tag = key ∧
      ∃ x, m.xfer = some x ∧ x.off = off ∧ x.len = len ∧ x.write = false ∧ x.relay = true) ∧
  (∀ (s : State) (h : BHdr) (key off result : Nat) (bs : List Byte) (f : FwdXfer), s.live = true → s.dev.bNext h = true →
    s.dev.on 0x19 = true → s.dev.belay.fwdXfers = [f] → f.key = 2 ^ 18 * 65536 + key → f.x.off = off → f.x.write = false →
    f.x.relay = false → result ≠ 0 → s.dev.pitch.queue.length < 8192 → s.dev.pitch.held = [] →
    Acts (.fwd h (.data key off result bs)) s fun d => d.belay.fwdXfers = [] ∧ d.map = s.dev.map ∧
      ∃ e, d.pitch.queue = s.dev.pitch.queue ++ [e] ∧ e.typ = 0x08) ∧
  (∀ (s : State) (h : BHdr) (key off result : Nat) (bs : List Byte), s.live = true → s.dev.bNext h = true →
    (∀ f ∈ s.dev.belay.fwdXfers, f.key ≠ 2 ^ 18 * 65536 + key ∨ f.x.off ≠ off) →
    Settles (.fwd h (.data key off result bs)) s (s.dev.bTaken h)) ∧
  (∀ (s : State) (h : BHdr) (key deadline : Nat) (c : Cqe) (t : Tag) (q : Queue), s.live = true → s.dev.bNext h = true →
    s.dev.on 0x19 = true → s.dev.tag key = some t → t.far = false → t.state ≠ .completed → t.qid ≠ 0 → t.remote = none →
    t.abortBy = none → s.dev.queue t.ctx = some q →
    Acts (.fwd h (.completion key c deadline)) s fun d =>
      (∃ u, d.tag key = some u ∧ u.state = .completed) ∧
      ∃ o, d.hostq.outbox = s.dev.hostq.outbox ++ [o] ∧ o.ctx = t.ctx ∧ o.cid = t.cid ∧ o.cqe.sct = c.sct ∧
        o.cqe.sc = c.sc ∧ o.deadline = deadline) ∧
  (∀ (s : State) (h : BHdr) (key deadline : Nat) (c : Cqe), s.live = true → s.dev.bNext h = true → s.dev.tag key = none →
    Settles (.fwd h (.completion key c deadline)) s (s.dev.bTaken h)) ∧
  (∀ (s : State) (h : BHdr) (key sub : Nat) (reset : Bool) (t : Tag), s.live = true → s.dev.bNext h = true →
    s.dev.on 0x19 = true → s.dev.tag (2 ^ 18 * 65536 + key) = some t → t.state = .queued → t.remote = some sub →
    Acts (.fwd h (.mark key reset)) s fun d => d.tag (2 ^ 18 * 65536 + key) = none ∧
      ∃ c, d.belay.fwdBack = s.dev.belay.fwdBack ++ [(2 ^ 18 * 65536 + key, c, t.deadline)] ∧ c.sct = 0 ∧
        c.sc = if reset then 8 else 7) ∧
  (∀ (s : State) (h : BHdr) (key : Nat) (reset : Bool), s.live = true → s.dev.bNext h = true →
    s.dev.tag (2 ^ 18 * 65536 + key) = none → Settles (.fwd h (.mark key reset)) s (s.dev.bTaken h)) ∧
  (∀ (s : State) (h : BHdr) (action : Nat), s.live = true → s.dev.bNext h = true → s.dev.on 0x19 = true →
    (action = 2 ∨ action = 4) →
    Acts (.fwd h (.sanitize action)) s fun d => ∃ z, d.hostq.sanitize = some z ∧ z.action = action)

/-- Takeover, rejoin and handover (R27, R396, R407, R408, R410 to R412, R414 to R417). A partner silent on both paths is lost,
and the takeover claims its channels with a new epoch, then this unit's own, releases what it held, loads the partner's state
and resumes; a rejected claim fences. A JOIN waits for the boundary; the holder hands back what has drained, the joiner claims
its channels, and both are PAIRED at the end; a partner lost in between is handled as R415 says; a handover is begun on
command and taken by the partner. -/
def Obligations.Takeovers : Prop :=
  (∀ (s : State), s.live = true → s.dev.on 0x19 = true →
    (s.dev.bly = 2 ∨ (s.dev.bly = 5 ∧ s.dev.belay.releasing = true)) → s.dev.belay.handover = false →
    s.dev.silent s.dev.belay.lastLink = true → s.dev.silent s.dev.belay.lastPins = true → s.dev.nextEpoch < 2 ^ 31 →
    Acts .partnerLost s fun d => d.bly = 3 ∧ d.belay.takeover = .claiming ∧ d.fget Reg.BLY_STATUS.LINK_UP = 0 ∧
      d.fget Reg.BLY_STATUS.PINS_UP = 0 ∧ d.fget Reg.BLY_EPOCH.OWN = s.dev.nextEpoch ∧
      d.fget Reg.BLY_LAST_T0.NS =
        max (s.dev.belay.lastLink.getD 0) (s.dev.belay.lastPins.getD 0) % 2 ^ 64) ∧
  (∀ (s : State), s.live = true → s.dev.on 0x19 = true → (s.dev.bly = 2 ∨ s.dev.bly = 5) → s.dev.belay.handover = true →
    s.dev.silent s.dev.belay.lastLink = true → s.dev.silent s.dev.belay.lastPins = true →
    Acts .partnerLost s fun d => d.bly = 3 ∧ d.belay.takeover = .claiming ∧ d.belay.handover = false ∧
      d.fget Reg.BLY_CMD.RESULT = 0x21 ∧ d.fget Reg.BLY_CMD.BUSY = 0) ∧
  (∀ (s : State), s.live = true → s.dev.on 0x19 = true → s.dev.bly = 5 → s.dev.belay.handover = false →
    s.dev.belay.releasing = false → s.dev.silent s.dev.belay.lastLink = true → s.dev.silent s.dev.belay.lastPins = true →
    Acts .partnerLost s fun d => d.bly = 3 ∧ d.belay.takeover = s.dev.belay.takeover ∧ d.fget Reg.ROPE_PAIR.PAIRED = 0 ∧
      d.belay.bundling = false ∧ d.fget Reg.BLY_EPOCH.OWN = s.dev.fget Reg.BLY_EPOCH.OWN) ∧
  (∀ (s : State), s.live = true → s.dev.on 0x19 = true → s.dev.bly = 4 → s.dev.belay.handback = false →
    s.dev.silent s.dev.belay.lastLink = true → s.dev.silent s.dev.belay.lastPins = true →
    Acts .partnerLost s fun d => d.bly = 1 ∧ d.belay = { s.dev.belay with joinWaits := false } ∧
      d.fget Reg.BLY_STATUS.LINK_UP = 0 ∧ d.fget Reg.BLY_STATUS.PINS_UP = 0) ∧
  (∀ (s : State), s.live = true → s.dev.on 0x19 = true → s.dev.bly = 4 → s.dev.belay.handback = true →
    s.dev.silent s.dev.belay.lastLink = true → s.dev.silent s.dev.belay.lastPins = true →
    Acts .partnerLost s fun d => (s.dev.fget Reg.MAP_RECOVER.STATE ≠ 2 → d.bly = 4 ∧ d.belay = s.dev.belay) ∧
      (s.dev.fget Reg.MAP_RECOVER.STATE = 2 → d.bly = 3 ∧ d.belay.takeover = .claiming)) ∧
  (∀ (s : State), s.live = true →
    (s.dev.silent s.dev.belay.lastLink = false ∨ s.dev.silent s.dev.belay.lastPins = false ∨ s.dev.on 0x19 = false ∨
      (s.dev.bly ≠ 2 ∧ s.dev.bly ≠ 4 ∧ s.dev.bly ≠ 5)) →
    Settles .partnerLost s s.dev) ∧
  (∀ (s : State), s.live = true → s.dev.belay.takeover = .claiming → s.dev.claimX = none →
    s.dev.media.claimRejected = false →
    Acts .takeoverClaimDone s fun d => d.belay = { s.dev.belay with takeover := .claimingOwn } ∧ d.bly = s.dev.bly ∧
      d.media.claimRejected = false) ∧
  (∀ (s : State), s.live = true → s.dev.on 0x19 = true → s.dev.belay.takeover = .claiming → s.dev.claimX = none →
    s.dev.media.claimRejected = true → s.dev.bly ≠ 6 →
    Acts .takeoverClaimDone s fun d => d.bly = 6 ∧ d.belay.takeover = .none ∧ (d.inst 0x12 0).safe = true) ∧
  (∀ (s : State), s.live = true → (s.dev.belay.takeover ≠ .claiming ∨ s.dev.claimX.isSome = true) →
    Settles .takeoverClaimDone s s.dev) ∧
  (∀ (s : State), s.live = true → s.dev.belay.takeover = .claimingOwn → s.dev.claimX = none →
    s.dev.media.claimRejected = false → s.dev.media.claimLost = false →
    Acts .takeoverSecondClaimDone s fun d => d.belay.takeover = .released ∧ d.belay.out = [] ∧
      d.fget Reg.ROPE_PAIR.PAIRED = 0 ∧ d.trans.recs = []) ∧
  (∀ (s : State), s.live = true → s.dev.on 0x19 = true → s.dev.belay.takeover = .claimingOwn → s.dev.claimX = none →
    (s.dev.media.claimRejected = true ∨ s.dev.media.claimLost = true) → s.dev.bly ≠ 6 →
    Acts .takeoverSecondClaimDone s fun d => d.bly = 6 ∧ d.belay.takeover = .none ∧ (d.inst 0x12 0).safe = true) ∧
  (∀ (s : State), s.live = true → (s.dev.belay.takeover ≠ .claimingOwn ∨ s.dev.claimX.isSome = true) →
    Settles .takeoverSecondClaimDone s s.dev) ∧
  (∀ (s : State) (root : RootObs), s.live = true → s.dev.belay.takeover = .released → s.dev.belay.ropeHigh < 2 ^ 63 →
    Acts (.takeoverStateLoad root) s fun d => d.belay.takeover = .loaded ∧ d.belay.kept = [] ∧
      s.dev.belay.seqHigh < d.map.seq ∧ s.dev.belay.ropeHigh < d.fget Reg.ROPE_NEXT.ROPE ∧
      ∀ g ∈ s.dev.homeGroups (1 - s.dev.unitId), bitsOf (d.fget Reg.HOSTQ_ANA_OWN.UNIT) (g - 1) (g - 1) = s.dev.unitId) ∧
  (∀ (s : State) (root : RootObs), s.live = true → s.dev.belay.takeover ≠ .released →
    Settles (.takeoverStateLoad root) s s.dev) ∧
  (∀ (s : State), s.live = true → s.dev.belay.takeover = .loaded →
    Acts .takeoverAcceptResume s fun d => d.belay.takeover = .none ∧ d.belay.precs = [] ∧ d.belay.keptDone = [] ∧
      d.belay.pctx = [] ∧ d.belay.handover = false ∧ (s.dev.belay.handover = false →
        d.fget Reg.BLY_COUNT.TAKEOVERS = (s.dev.fget Reg.BLY_COUNT.TAKEOVERS + 1) % 2 ^ 32) ∧
      (s.dev.belay.handover = true →
        d.fget Reg.BLY_COUNT.REJOINS = (s.dev.fget Reg.BLY_COUNT.REJOINS + 1) % 2 ^ 32)) ∧
  (∀ (s : State) (k : Nat) (t : Tag), s.live = true → s.dev.belay.takeover = .loaded → s.dev.belay.pctx = [] →
    s.dev.hostq.tags = [(k, t)] → t.remote = none → t.far = false → t.forwarded = true → t.state ≠ .completed →
    t.abortBy = none → (s.dev.queue t.ctx).isSome = true → (s.dev.ctrl t.ctrl).any (·.resetting) = false →
    s.dev.pitch.queue.length < 8191 → s.dev.pitch.held = [] →
    Acts .takeoverAcceptResume s fun d => d.tag k = some { t with forwarded := false, state := .queued } ∧
      ∃ e f, d.pitch.queue = s.dev.pitch.queue ++ [e, f] ∧ (e.typ = 0x01 ∨ e.typ = 0x02)) ∧
  (∀ (s : State), s.live = true → s.dev.belay.takeover ≠ .loaded → Settles .takeoverAcceptResume s s.dev) ∧
  (∀ (s : State) (h : BHdr) (epoch : Nat), s.live = true → s.dev.bNext h = true → s.dev.bly = 3 →
    s.dev.belay.takeover = .none →
    Acts (.join h epoch) s fun d => d.belay = { (s.dev.bTaken h).belay with joinWaits := true } ∧
      d.fget Reg.BLY_EPOCH.PEER = epoch % 2 ^ 31 ∧ d.bly = 3) ∧
  (∀ (s : State) (h : BHdr) (epoch : Nat), s.live = true → s.dev.bNext h = true →
    (s.dev.bly ≠ 3 ∨ s.dev.belay.takeover ≠ .none) →
    Acts (.join h epoch) s fun d => d.belay = (s.dev.bTaken h).belay ∧ d.fget Reg.BLY_EPOCH.PEER = epoch % 2 ^ 31 ∧
      d.bly = s.dev.bly) ∧
  (∀ (s : State) (h : BHdr) (epoch : Nat), s.live = true → s.dev.bNext h = true → s.dev.bly = 4 →
    Acts (.handback h epoch) s fun d => d.belay = { (s.dev.bTaken h).belay with handback := true } ∧ d.bly = 4 ∧
      d.fget Reg.BLY_EPOCH.PEER = epoch % 2 ^ 31 ∧
      (∀ g ∈ s.dev.homeGroups s.dev.unitId, bitsOf (d.fget Reg.HOSTQ_ANA_OWN.UNIT) (g - 1) (g - 1) = s.dev.unitId)) ∧
  (∀ (s : State) (h : BHdr) (epoch : Nat), s.live = true → s.dev.bNext h = true → s.dev.bly ≠ 4 →
    Settles (.handback h epoch) s (s.dev.bTaken h)) ∧
  (∀ (s : State), s.live = true → s.dev.bly = 5 → s.dev.belay.releasing = false → s.dev.movedDrained = true →
    s.dev.belay.handover = false →
    Acts .handbackDrained s fun d => d.belay.releasing = true ∧ d.bly = 5 ∧
      (∀ n < 24, d.fget Reg.TTH_OWN.OWNED n = s.dev.fget Reg.TTH_OWN.OWNED n -
        (s.dev.fget Reg.TTH_OWN.OWNED n &&& homeMask (1 - s.dev.unitId))) ∧
      ∀ g ∈ s.dev.homeGroups (1 - s.dev.unitId),
        bitsOf (d.fget Reg.HOSTQ_ANA_OWN.UNIT) (g - 1) (g - 1) = 1 - s.dev.unitId) ∧
  (∀ (s : State), s.live = true → s.dev.bly = 5 → s.dev.belay.releasing = false → s.dev.movedDrained = true →
    s.dev.belay.handover = true →
    Acts .handbackDrained s fun d => d.bly = 1 ∧ d.fget Reg.ROPE_PAIR.PAIRED = 0 ∧ d.fget Reg.BLY_CMD.RESULT = 0 ∧
      d.fget Reg.BLY_CMD.BUSY = 0 ∧ d.belay.handover = false ∧
      (∀ n < 24, d.fget Reg.TTH_OWN.OWNED n = s.dev.fget Reg.TTH_OWN.OWNED n -
        (s.dev.fget Reg.TTH_OWN.OWNED n &&& homeMask s.dev.unitId)) ∧
      d.fget Reg.BLY_COUNT.REJOINS = (s.dev.fget Reg.BLY_COUNT.REJOINS + 1) % 2 ^ 32) ∧
  (∀ (s : State), s.live = true →
    (s.dev.bly ≠ 5 ∨ s.dev.belay.releasing = true ∨ s.dev.movedDrained = false) → Settles .handbackDrained s s.dev) ∧
  (∀ (s : State), s.live = true → s.dev.bly = 4 → s.dev.belay.handback = true → s.dev.fget Reg.MAP_RECOVER.STATE = 2 →
    s.dev.fget Reg.ROPE_PAIR.PAIRED = 1 → s.dev.on 0x12 = true → s.dev.on 0x11 = true → s.dev.on 0x10 = true →
    Acts (.rejoinDone none) s fun d => d.bly = 2 ∧ d.belay.handback = false ∧
      d.fget Reg.BLY_COUNT.REJOINS = (s.dev.fget Reg.BLY_COUNT.REJOINS + 1) % 2 ^ 32 ∧
      (s.dev.blyUp = true → s.dev.bSent d {
        seq := 0, typ := 8
        payload := (leBytes 3 8 ++ leBytes (s.dev.fget Reg.BLY_EPOCH.OWN) 8 ++ leBytes 0 16) })) ∧
  (∀ (s : State) (h : BHdr), s.live = true → s.dev.bNext h = true → s.dev.bly = 5 → s.dev.belay.releasing = true →
    Acts (.rejoinDone (some h)) s fun d => d.bly = 2 ∧ d.belay.releasing = false ∧
      d.fget Reg.BLY_COUNT.REJOINS = (s.dev.fget Reg.BLY_COUNT.REJOINS + 1) % 2 ^ 32) ∧
  (∀ (s : State), s.live = true →
    (s.dev.bly ≠ 4 ∨ s.dev.belay.handback = false ∨ s.dev.fget Reg.MAP_RECOVER.STATE ≠ 2 ∨
      s.dev.fget Reg.ROPE_PAIR.PAIRED = 0 ∨ s.dev.on 0x12 = false ∨ s.dev.on 0x11 = false ∨ s.dev.on 0x10 = false) →
    Settles (.rejoinDone none) s s.dev) ∧
  (∀ (s : State) (h : BHdr), s.live = true → s.dev.bNext h = true →
    (s.dev.bly ≠ 5 ∨ s.dev.belay.releasing = false) → Settles (.rejoinDone (some h)) s (s.dev.bTaken h)) ∧
  (∀ (s : State), s.live = true → s.dev.on 0x19 = true → s.dev.fget Reg.BLY_CMD.BUSY = 0 → s.dev.bly = 2 →
    Acts .handover s fun d => d.belay = { s.dev.belay with joinWaits := true, handover := true } ∧
      d.fget Reg.BLY_CMD.BUSY = 1 ∧ d.fget Reg.BLY_CMD.OP = 1 ∧ d.bly = 2) ∧
  (∀ (s : State), s.live = true → s.dev.fget Reg.BLY_CMD.BUSY = 0 → (s.dev.bly ≠ 2 ∨ s.dev.on 0x19 = false) →
    Acts .handover s fun d => d.belay = s.dev.belay ∧ d.fget Reg.BLY_CMD.RESULT = 0x20 ∧ d.fget Reg.BLY_CMD.BUSY = 0) ∧
  (∀ (s : State), s.live = true → s.dev.fget Reg.BLY_CMD.BUSY = 1 → Settles .handover s s.dev) ∧
  (∀ (s : State) (h : BHdr) (epoch : Nat), s.live = true → s.dev.bNext h = true → s.dev.bly = 2 →
    Acts (.handoverReceive h epoch) s fun d => d.bly = 3 ∧ d.belay.takeover = .released ∧ d.belay.handover = true ∧
      d.fget Reg.ROPE_PAIR.PAIRED = 0 ∧ d.fget Reg.BLY_EPOCH.PEER = epoch % 2 ^ 31) ∧
  (∀ (s : State) (h : BHdr) (epoch : Nat), s.live = true → s.dev.bNext h = true → s.dev.bly ≠ 2 →
    Settles (.handoverReceive h epoch) s (s.dev.bTaken h))

/-- A step with a command in front of the queue is that command's effect on the state with the queue's rest. -/
def Obligations.StepRunsCommand : Prop :=
  ∀ (c : Instr) (q : List Instr) (s : State), step { s with pending := c :: q } = exec c { s with pending := q }

/-- With no command waiting, a step is one period of the 25 MHz reference while the device runs, and nothing otherwise
(log 3, the model's choice); the queue is empty after reset. -/
def Obligations.IdleStep : Prop :=
  (∀ s : State, s.pending = [] → s.live = true → step s = .next { s with dev := s.dev.tick }) ∧
  (∀ s : State, s.pending = [] → s.live = false → step s = .next s) ∧ State.reset.pending = []

/-- Every command completes in every state: none of them ends in a fault or a refusal. -/
def Obligations.EveryCommandCompletes : Prop := ∀ (c : Instr) (s : State), ∃ t, exec c s = .next t

/-- Commands are taken first in, first out: a step takes the front of the queue and nothing else, whatever the command. -/
def Obligations.QueueOrder : Prop := ∀ s t : State, step s = .next t → t.pending = s.pending.tail

/-- Only the commands of the pins and the five fuse operations touch the pins' levels and the fuse cells. -/
def Obligations.PinsAndFusesKept : Prop :=
  ∀ (c : Instr) (s t : State), touchesHard c = false → exec c s = .next t → t.hard = s.hard

/-- Without power, or while RESET_N is low, no command but those of the pins and the JTAG port changes anything. -/
def Obligations.NothingWhileHeld : Prop :=
  ∀ (c : Instr) (s : State), s.live = false → touchesHard c = false →
    (∀ a b, c ≠ .jtagExtest a b) → (∀ a b, c ≠ .jtagSamplePreload a b) → (∀ a, c ≠ .jtagBypass a) → exec c s = .next s

/-- Fuses are only ever programmed (R439 to R441): whatever bits of fuse words 8 to 63 both cells held, they hold after any
step. Words 0 to 7 are the UDS, which DECOMMISSION zeroises. -/
def Obligations.FusesNeverClear : Prop :=
  ∀ (f : WTab) (i : Nat) (s t : State), 8 ≤ i → fuseKept f s.hard.fuseA i → fuseKept f s.hard.fuseB i → step s = .next t →
    fuseKept f t.hard.fuseA i ∧ fuseKept f t.hard.fuseB i

/-- R181. A READ, WRITE or DEALLOC entry is granted when no lower-numbered entry of its namespace that overlaps it is left,
and waits otherwise; a FLUSH waits for lower WRITE and DEALLOC entries and never blocks a higher entry; an NSWIDE entry
overlaps every entry of its namespace, in both directions, but for a FLUSH before it. An entry that has been applied is no
longer listed; one that was granted and awaits its apply stays as it is. -/
def Obligations.RangeLocks : Prop :=
  (∀ (s : State) (i : Nat) (l : Lock), s.live = true → Tab.look s.dev.rope.locks i = some l → l.granted = false →
    (l.kind = .read ∨ l.kind = .write ∨ l.kind = .dealloc) →
    (∀ p ∈ s.dev.rope.locks, p.2.nsh = l.nsh → p.2.rope < l.rope → p.2.kind = .flush ∨ (p.2.kind ≠ .nswide ∧
      (p.2.slba + p.2.nblk ≤ l.slba ∨ l.slba + l.nblk ≤ p.2.slba))) →
    Acts (.lockGrant i false) s fun d => Tab.look d.rope.locks i = some { l with granted := true } ∧
      ∀ j, j ≠ i → Tab.look d.rope.locks j = Tab.look s.dev.rope.locks j) ∧
  (∀ (s : State) (i : Nat) (applied : Bool) (l : Lock) (p : Nat × Lock), s.live = true →
    Tab.look s.dev.rope.locks i = some l → l.granted = false → (l.kind = .read ∨ l.kind = .write ∨ l.kind = .dealloc) →
    p ∈ s.dev.rope.locks → p.2.nsh = l.nsh → p.2.rope < l.rope →
    (p.2.kind = .nswide ∨ ((p.2.kind = .read ∨ p.2.kind = .write ∨ p.2.kind = .dealloc) ∧
      p.2.slba < l.slba + l.nblk ∧ l.slba < p.2.slba + p.2.nblk)) →
    Settles (.lockGrant i applied) s s.dev) ∧
  (∀ (s : State) (i : Nat) (l : Lock), s.live = true → Tab.look s.dev.rope.locks i = some l → l.granted = false →
    l.kind = .flush →
    (∀ p ∈ s.dev.rope.locks, p.2.nsh = l.nsh → p.2.rope < l.rope → p.2.kind = .read ∨ p.2.kind = .flush) →
    Acts (.lockGrant i false) s fun d => Tab.look d.rope.locks i = some { l with granted := true }) ∧
  (∀ (s : State) (i : Nat) (applied : Bool) (l : Lock) (p : Nat × Lock), s.live = true →
    Tab.look s.dev.rope.locks i = some l → l.granted = false → l.kind = .flush → p ∈ s.dev.rope.locks → p.2.nsh = l.nsh →
    p.2.rope < l.rope → (p.2.kind = .write ∨ p.2.kind = .dealloc ∨ p.2.kind = .nswide) →
    Settles (.lockGrant i applied) s s.dev) ∧
  (∀ (s : State) (i : Nat) (l : Lock), s.live = true → Tab.look s.dev.rope.locks i = some l → l.granted = false →
    l.kind = .nswide → (∀ p ∈ s.dev.rope.locks, p.2.nsh = l.nsh → p.2.rope < l.rope → p.2.kind = .flush) →
    Acts (.lockGrant i false) s fun d => Tab.look d.rope.locks i = some { l with granted := true }) ∧
  (∀ (s : State) (i : Nat) (applied : Bool) (l : Lock) (p : Nat × Lock), s.live = true →
    Tab.look s.dev.rope.locks i = some l → l.granted = false → l.kind = .nswide → p ∈ s.dev.rope.locks → p.2.nsh = l.nsh →
    p.2.rope < l.rope → (p.2.kind = .read ∨ p.2.kind = .write ∨ p.2.kind = .dealloc ∨ p.2.kind = .nswide) →
    Settles (.lockGrant i applied) s s.dev) ∧
  (∀ (s : State) (i : Nat) (l : Lock), s.live = true → Tab.look s.dev.rope.locks i = some l → l.granted = true →
    Settles (.lockGrant i false) s s.dev) ∧
  (∀ (s : State) (i : Nat) (l : Lock), s.live = true → Tab.look s.dev.rope.locks i = some l →
    (l.kind = .read ∨ l.kind = .write ∨ l.kind = .dealloc) → s.dev.grantable l = true →
    Acts (.lockGrant i true) s fun d => Tab.look d.rope.locks i = none) ∧
  (∀ (s : State) (i : Nat) (applied : Bool), s.live = true → Tab.look s.dev.rope.locks i = none →
    Settles (.lockGrant i applied) s s.dev)

/-- R103. A `done` executed while a non-posted ask is open, or answered but not yet retired, traps ASK_OPEN (0x0B), on a
pitch thread and on a core; posted asks never cause this trap: the run ends, and its result is the word R89 gives, or on a
core the instruction only goes on. -/
def Obligations.DoneWithOpenAsks : Prop :=
  (∀ (s : State) (tid : Nat) (m : Mach) (c : CWord) (p : Nat × AskSlot), s.live = true →
    s.dev.ready (.pitch tid) 0x45 m c = true → p ∈ m.cpu.slots → p.2.posted = false →
    Gives (.done (.pitch tid) false) s (((s.dev.paid m c).pitchTrap tid 0x0B 0).settle)) ∧
  (∀ (s : State) (n : Nat) (m : Mach) (c : CWord) (p : Nat × AskSlot), s.live = true →
    s.dev.ready (.warden n) 0x45 m c = true → p ∈ m.cpu.slots → p.2.posted = false →
    Gives (.done (.warden n) false) s ((s.dev.paid m c).coreTrap n 0x0B 0)) ∧
  (∀ (s : State) (tid : Nat) (m : Mach) (c : CWord), s.live = true → s.dev.ready (.pitch tid) 0x45 m c = true →
    (∀ p ∈ m.cpu.slots, p.2.posted = true) →
    Gives (.done (.pitch tid) false) s ((s.dev.paid m c).runDone tid (if c.form = 0 then m.rd c.sa else c.operand 0))) ∧
  (∀ (s : State) (n : Nat) (m : Mach) (c : CWord), s.live = true → s.dev.ready (.warden n) 0x45 m c = true →
    (∀ p ∈ m.cpu.slots, p.2.posted = true) →
    Gives (.done (.warden n) false) s ((s.dev.paid m c).setCpu m m.cpu.fall))

/-- R470. A write to COUNT takes effect, an event of the same cycle is then added to the written value, and one that
overflows it sets OVF; a write of 1 to OVF clears it, and OVF stays set when the same cycle also overflows the counter. No
other register changes but the Warden event ring's. A write to a counter that does not exist does nothing. -/
def Obligations.SamplingCountWrites : Prop :=
  (∀ (s : State) (i : Nat) (w : Word), s.live = true → i < 16 →
    Runs (.sampCountWrite i w false) s fun d => d.fget (Reg.TLY_SAMP_CNT.COUNT.nth i) = field w 31 0 ∧
      d.fget (Reg.TLY_SAMP_CNT.OVF.nth i) =
        (if field w 32 32 = 1 then 0 else s.dev.fget (Reg.TLY_SAMP_CNT.OVF.nth i)) ∧
      d = { s.dev with regs := d.regs } ∧
      ∀ a, a ≠ regAddr 5 0 (0x380 + 8 * i) → d.regs.get a = s.dev.regs.get a) ∧
  (∀ (s : State) (i : Nat) (w : Word), s.live = true → i < 16 → s.dev.on 5 = true → s.dev.frozen = false →
    s.dev.fget (Reg.TLY_SAMP_CFG.EN.nth i) = 1 → 1 ≤ s.dev.fget (Reg.TLY_SAMP_CFG.SOURCE.nth i) →
    s.dev.fget (Reg.TLY_SAMP_CFG.SOURCE.nth i) ≤ 0x13 →
    (s.dev.fget (Reg.TLY_SAMP_CFG.TEN_FILTER.nth i) = 0 ∨
      sourceNames (s.dev.fget (Reg.TLY_SAMP_CFG.SOURCE.nth i)) = true) →
    Runs (.sampCountWrite i w true) s fun d =>
      d.fget (Reg.TLY_SAMP_CNT.COUNT.nth i) = (field w 31 0 + 1) % 2 ^ 32 ∧
      d.fget (Reg.TLY_SAMP_CNT.OVF.nth i) = (if field w 31 0 = 2 ^ 32 - 1 then 1
        else if field w 32 32 = 1 then 0 else s.dev.fget (Reg.TLY_SAMP_CNT.OVF.nth i)) ∧
      d = { s.dev with regs := d.regs, mem := { s.dev.mem with wsram := d.mem.wsram } } ∧
      ∀ a, a ≠ regAddr 5 0 (0x380 + 8 * i) → inBlock 2 a = false → d.regs.get a = s.dev.regs.get a) ∧
  (∀ (s : State) (i : Nat) (w : Word) (event : Bool), s.live = true → 16 ≤ i →
    Gives (.sampCountWrite i w event) s s.dev)

/-- What the domain, ANCHOR, SPDM, metering, snapshot and I3C commands leave alone: every part of the device that their
blocks do not own, every register outside those blocks and Warden, the pins, the fuses and their shadow, and
every memory but the event ring and the DRAM that a report, a batch or a snapshot is stored in. The millisecond tick touches the
power states of controllers besides (R157). -/
def Obligations.ServiceFrames : Prop :=
  (∀ (s t : State) (sel : DomSel) (k : Nat) (c : Instr),
    c ∈ [Instr.domainRequest sel k, .domainIdleGate k, .domainWorkWake k, .pllLock k] → exec c s = .next t →
    t = { s with dev := t.dev } ∧ t.dev = {
      s.dev with camp := t.dev.camp, regs := t.dev.regs, insts := t.dev.insts, free := t.dev.free
                 mem := { s.dev.mem with wsram := t.dev.mem.wsram } } ∧
    ∀ a, inBlock 0 a = false → inBlock 2 a = false → t.dev.regs.get a = s.dev.regs.get a) ∧
  (∀ (s t : State) (a b : Bool) (slot offset len index : Nat) (hash : List Byte) (sig : Option (List Byte)) (c : Instr),
    c ∈ [Instr.attestReport, .kekImport, .kekUnseal, .fuseRequest, .certExport, .spdmSign, .anchorRequestDone, .getVersion,
      .getCapabilities, .negotiateAlgorithms a b, .getDigests, .getCertificate slot offset len, .challenge slot index hash,
      .getMeasurements index sig, .spdmUnsupportedRequest] → exec c s = .next t →
    t = { s with dev := t.dev } ∧ t.dev = {
      s.dev with anchor := t.dev.anchor, regs := t.dev.regs
                 mem := { s.dev.mem with dram := t.dev.mem.dram, wsram := t.dev.mem.wsram } } ∧
    t.dev.anchor.fuse = s.dev.anchor.fuse ∧
    ∀ x, inBlock 1 x = false → inBlock 2 x = false → t.dev.regs.get x = s.dev.regs.get x) ∧
  (∀ (s t : State) (src tenant : Nat) (w : Word) (a b : Bool) (c : Instr),
    c ∈ [Instr.meterBatchSigned, .capacitySecondTick, .thresholdTick, .portWindowEnd, .samplingEvent src tenant,
      .sampCountWrite src w a, .tlyFreezeWrite a b, .cairnDisarm, .cairnOneShot, .cairnPeriodic, .snapshotSetWritten] →
    exec c s = .next t →
    t = { s with dev := t.dev } ∧ t.dev = {
      s.dev with tally := t.dev.tally, cairn := t.dev.cairn, tim := t.dev.tim, regs := t.dev.regs
                 mem := { s.dev.mem with dram := t.dev.mem.dram, wsram := t.dev.mem.wsram } } ∧
    ∀ x, inBlock 1 x = false → inBlock 2 x = false → inBlock 4 x = false → inBlock 5 x = false →
      t.dev.regs.get x = s.dev.regs.get x) ∧
  (∀ s t : State, exec .gradeMsTick s = .next t →
    t = { s with dev := t.dev } ∧ t.dev = {
      s.dev with tally := t.dev.tally, tim := t.dev.tim, hostq := { s.dev.hostq with ctrls := t.dev.hostq.ctrls }
                 camp := t.dev.camp, regs := t.dev.regs, insts := t.dev.insts, free := t.dev.free
                 mem := { s.dev.mem with wsram := t.dev.mem.wsram } } ∧
    ∀ x, inBlock 0 x = false → inBlock 2 x = false → t.dev.regs.get x = s.dev.regs.get x) ∧
  (∀ (s t : State) (c : Ccc), exec (.i3cCcc c) s = .next t →
    t = { s with dev := { s.dev with mgmt := t.dev.mgmt, free := t.dev.free } } ∧ t.dev.mgmt.lane = s.dev.mgmt.lane ∧
    t.dev.mgmt.mctp = s.dev.mgmt.mctp ∧ t.dev.mgmt.gpioPins = s.dev.mgmt.gpioPins)

/-- After reset both cells of every fuse bit hold what manufacture left in them (log 15, the model's choice of that
content as a free value): the programmed bits that `FusesNeverClear` speaks of start there. -/
def Obligations.FusesAtReset : Prop :=
  ∀ i, 8 ≤ i → i < 64 → State.reset.hard.fuseA.get i = Config.fuseWord i ∧ State.reset.hard.fuseB.get i = Config.fuseWord i ∧
    fuseKept madeCells State.reset.hard.fuseA i ∧ fuseKept madeCells State.reset.hard.fuseB i
end

