-- ==== Sys2Proof/Laws/Tab.lean ====
section
/-! SUPPORT. Laws of tables and memories: a read after a write, and the canonical form that every operation keeps. -/

namespace Sys2Proof.Laws

open Sys2Proof.Machine

variable {α : Type}

@[simp] theorem look_put_self (t : Tab α) (a : Nat) (v : α) : Tab.look (Tab.put t a v) a = some v := by
  induction t with
  | nil => simp [Tab.put, Tab.look]
  | cons p t ih =>
    obtain ⟨k, w⟩ := p
    simp only [Tab.put]
    split
    · simp [Tab.look]
    · split
      · simp [Tab.look]
      · next h _ => simp [Tab.look, h, ih]

theorem look_put_other (t : Tab α) (a b : Nat) (v : α) (h : b ≠ a) : Tab.look (Tab.put t a v) b = Tab.look t b := by
  induction t with
  | nil => simp [Tab.put, Tab.look, h]
  | cons p t ih =>
    obtain ⟨k, w⟩ := p
    simp only [Tab.put]
    split
    · next hk => subst hk; simp [Tab.look, h]
    · split
      · simp [Tab.look, h]
      · simp [Tab.look, ih]

@[simp] theorem look_del_self (t : Tab α) (a : Nat) : Tab.look (Tab.del t a) a = none := by
  induction t with
  | nil => rfl
  | cons p t ih =>
    obtain ⟨k, w⟩ := p
    simp only [Tab.del]
    split
    · exact ih
    · next h => simp [Tab.look, h, ih]

theorem look_del_other (t : Tab α) (a b : Nat) (h : b ≠ a) : Tab.look (Tab.del t a) b = Tab.look t b := by
  induction t with
  | nil => rfl
  | cons p t ih =>
    obtain ⟨k, w⟩ := p
    simp only [Tab.del]
    split
    · next hk => subst hk; simp [Tab.look, h, ih]
    · simp [Tab.look, ih]

/-- Every key of the table is above `n`. -/
def above (n : Nat) (t : Tab α) : Prop := ∀ p ∈ t, n < p.1

theorem rising_cons (p : Nat × α) (t : Tab α) : Tab.rising (p :: t) = true ↔ above p.1 t ∧ Tab.rising t = true := by
  induction t generalizing p with
  | nil => simp [Tab.rising, above]
  | cons q t ih =>
    obtain ⟨k, v⟩ := p
    obtain ⟨l, w⟩ := q
    simp only [Tab.rising, Bool.and_eq_true, decide_eq_true_eq]
    constructor
    · rintro ⟨h, hr⟩
      refine ⟨?_, hr⟩
      intro r hm
      rcases List.mem_cons.1 hm with rfl | hm
      · exact h
      · exact Nat.lt_trans h (((ih (l, w)).1 hr).1 r hm)
    · rintro ⟨h, hr⟩
      exact ⟨h (l, w) (List.mem_cons_self ..), hr⟩

theorem put_mem (t : Tab α) (a : Nat) (v : α) (q : Nat × α) (h : q ∈ Tab.put t a v) : q = (a, v) ∨ q ∈ t := by
  induction t with
  | nil => simpa [Tab.put] using h
  | cons p t ih =>
    simp only [Tab.put] at h
    split at h
    · rcases List.mem_cons.1 h with h | h <;> simp [h]
    · split at h
      · rcases List.mem_cons.1 h with h | h <;> simp [h]
      · rcases List.mem_cons.1 h with h | h
        · simp [h]
        · rcases ih h with h | h <;> simp [h]

theorem del_mem (t : Tab α) (a : Nat) (q : Nat × α) (h : q ∈ Tab.del t a) : q ∈ t := by
  induction t with
  | nil => exact h
  | cons p t ih =>
    simp only [Tab.del] at h
    split at h
    · exact List.mem_cons_of_mem _ (ih h)
    · rcases List.mem_cons.1 h with h | h
      · simp [h]
      · exact List.mem_cons_of_mem _ (ih h)

/-- A write keeps the order of the keys. -/
theorem put_rising (t : Tab α) (a : Nat) (v : α) (h : Tab.rising t = true) : Tab.rising (Tab.put t a v) = true := by
  induction t with
  | nil => rfl
  | cons p t ih =>
    obtain ⟨ha, hr⟩ := (rising_cons p t).1 h
    simp only [Tab.put]
    split
    · next e => exact (rising_cons _ _).2 ⟨by simpa [above, e] using ha, hr⟩
    · split
      · next hl =>
        refine (rising_cons _ _).2 ⟨?_, h⟩
        intro q hq
        rcases List.mem_cons.1 hq with rfl | hq
        · exact hl
        · exact Nat.lt_trans hl (ha q hq)
      · next hne hlt =>
        refine (rising_cons _ _).2 ⟨?_, ih hr⟩
        intro q hq
        rcases put_mem t a v q hq with rfl | hq
        · have : a ≠ p.1 := hne
          have : ¬ a < p.1 := hlt
          show p.1 < a
          omega
        · exact ha q hq

/-- A removal keeps the order of the keys. -/
theorem del_rising (t : Tab α) (a : Nat) (h : Tab.rising t = true) : Tab.rising (Tab.del t a) = true := by
  induction t with
  | nil => rfl
  | cons p t ih =>
    obtain ⟨ha, hr⟩ := (rising_cons p t).1 h
    simp only [Tab.del]
    split
    · exact ih hr
    · exact (rising_cons _ _).2 ⟨fun q hq => ha q (del_mem t a q hq), ih hr⟩

/-- A filter keeps the order of the keys. -/
theorem filter_rising (t : Tab α) (f : Nat × α → Bool) (h : Tab.rising t = true) :
    Tab.rising (t.filter f : Tab α) = true := by
  induction t with
  | nil => rfl
  | cons p t ih =>
    obtain ⟨ha, hr⟩ := (rising_cons p t).1 h
    simp only [List.filter_cons]
    split
    · exact (rising_cons _ _).2 ⟨fun q hq => ha q (List.mem_filter.1 hq).1, ih hr⟩
    · exact ih hr

/-! ### Word tables -/

@[simp] theorem get_set_self (t : WTab) (a : Nat) (v : Word) : (t.set a v).get a = v := by
  unfold WTab.set WTab.get
  split
  · next h => subst h; simp
  · simp

theorem get_set_other (t : WTab) (a b : Nat) (v : Word) (h : b ≠ a) : (t.set a v).get b = t.get b := by
  unfold WTab.set WTab.get
  split
  · rw [look_del_other _ _ _ h]
  · rw [look_put_other _ _ _ _ h]

/-- A write of a word table keeps its canonical form. -/
theorem set_wf (t : WTab) (a : Nat) (v : Word) (h : t.wf = true) : (t.set a v).wf = true := by
  unfold WTab.wf at *
  simp only [Bool.and_eq_true, List.all_eq_true, decide_eq_true_eq] at *
  unfold WTab.set
  split
  · exact ⟨del_rising _ _ h.1, fun q hq => h.2 q (del_mem _ _ _ hq)⟩
  · next hv =>
    refine ⟨put_rising _ _ _ h.1, fun q hq => ?_⟩
    rcases put_mem _ _ _ _ hq with rfl | hq
    · exact hv
    · exact h.2 q hq

/-! ### Memories -/

@[simp] theorem byte_setByte_self (m : Memory) (a : Nat) (v : Byte) : (m.setByte a v).byte a = v := by
  unfold Memory.setByte Memory.byte
  split
  · next h => subst h; simp
  · simp

theorem byte_setByte_other (m : Memory) (a b : Nat) (v : Byte) (h : b ≠ a) : (m.setByte a v).byte b = m.byte b := by
  unfold Memory.setByte Memory.byte
  split
  · rw [look_del_other _ _ _ h]
  · rw [look_put_other _ _ _ _ h]

/-- A store of one byte keeps the canonical form. -/
theorem setByte_wf (m : Memory) (a : Nat) (v : Byte) (h : m.wf = true) : (m.setByte a v).wf = true := by
  unfold Memory.wf at *
  simp only [Bool.and_eq_true, List.all_eq_true, decide_eq_true_eq] at *
  unfold Memory.setByte
  split
  · exact ⟨del_rising _ _ h.1, fun q hq => h.2 q (del_mem _ _ _ hq)⟩
  · next hv =>
    refine ⟨put_rising _ _ _ h.1, fun q hq => ?_⟩
    rcases put_mem _ _ _ _ hq with rfl | hq
    · exact hv
    · exact h.2 q hq

/-- A store of a number keeps the canonical form. -/
theorem write_wf (n : Nat) (m : Memory) (a v : Nat) (h : m.wf = true) : (m.write a n v).wf = true := by
  induction n generalizing m a v with
  | zero => exact h
  | succ n ih => exact ih _ _ _ (setByte_wf _ _ _ h)

/-- A store of bytes keeps the canonical form. -/
theorem setBytes_wf (bs : List Byte) (m : Memory) (a : Nat) (h : m.wf = true) : (m.setBytes a bs).wf = true := by
  induction bs generalizing m a with
  | nil => exact h
  | cons b bs ih => exact ih _ _ (setByte_wf _ _ _ h)

/-- A copy keeps the destination's canonical form. -/
theorem copy_wf (src : Memory) (sa : Nat) (dst : Memory) (da n : Nat) (h : dst.wf = true) :
    (Memory.copy src sa dst da n).wf = true := setBytes_wf _ _ _ h

/-- Clearing a range keeps the canonical form. -/
theorem clear_wf (m : Memory) (lo hi : Nat) (h : m.wf = true) : (m.clear lo hi).wf = true := by
  unfold Memory.wf Memory.clear at *
  simp only [Bool.and_eq_true, List.all_eq_true, decide_eq_true_eq] at *
  exact ⟨filter_rising _ _ h.1, fun q hq => h.2 q (List.mem_filter.1 hq).1⟩

/-- A store of bytes leaves every byte outside its range. -/
theorem byte_setBytes_other (bs : List Byte) (m : Memory) (a b : Nat) (h : b < a ∨ a + bs.length ≤ b) :
    (m.setBytes a bs).byte b = m.byte b := by
  induction bs generalizing m a with
  | nil => rfl
  | cons x bs ih =>
    simp only [List.length_cons] at h
    rw [Memory.setBytes, ih _ _ (by omega), byte_setByte_other _ _ _ _ (by omega)]

/-- A store of a number leaves every byte outside its range. -/
theorem byte_write_other (n : Nat) (m : Memory) (a b v : Nat) (h : b < a ∨ a + n ≤ b) :
    (m.write a n v).byte b = m.byte b := by
  induction n generalizing m a v with
  | zero => rfl
  | succ n ih => rw [Memory.write, ih _ _ _ (by omega), byte_setByte_other _ _ _ _ (by omega)]

/-- A number reads back as it was stored. -/
theorem read_write (n : Nat) (m : Memory) (a v : Nat) : (m.write a n v).read a n = v % 256 ^ n := by
  induction n generalizing m a v with
  | zero => simp [Memory.read, Nat.mod_one]
  | succ n ih =>
    rw [Memory.write, Memory.read, ih, byte_write_other _ _ _ _ _ (by omega), byte_setByte_self]
    have e := Nat.mod_mul (x := v) (a := 256) (b := 256 ^ n)
    rw [Nat.pow_succ', e]
    simp

/-- A canonical memory lists no zero byte. -/
theorem wf_look (m : Memory) (a : Nat) (v : Byte) (h : m.wf = true) (hl : Tab.look m a = some v) : v ≠ 0 := by
  have hm : ∀ t : Memory, Tab.look t a = some v → (a, v) ∈ t := by
    intro t
    induction t with
    | nil => simp [Tab.look]
    | cons p t ih =>
      obtain ⟨k, w⟩ := p
      simp only [Tab.look]
      split
      · next e => subst e; simp +contextual
      · exact fun h => List.mem_cons_of_mem _ (ih h)
  have := hm m hl
  unfold Memory.wf at h
  simp only [Bool.and_eq_true, List.all_eq_true, decide_eq_true_eq] at h
  exact h.2 _ this

end Sys2Proof.Laws
end

