-- ==== Sys2Proof/Laws/Dev.lean ====
section
/-! SUPPORT. What each shared update of the device leaves as it was, one lemma per field. -/

namespace Sys2Proof.Laws

open Sys2Proof.Machine

variable (d : Dev)

/-! ### setReg -/

@[simp] theorem setReg_shadow (blk n off : Nat) (v : Word) : (d.setReg blk n off v).shadow = d.shadow := rfl
@[simp] theorem setReg_insts (blk n off : Nat) (v : Word) : (d.setReg blk n off v).insts = d.insts := rfl
@[simp] theorem setReg_asks (blk n off : Nat) (v : Word) : (d.setReg blk n off v).asks = d.asks := rfl
@[simp] theorem setReg_nextAsk (blk n off : Nat) (v : Word) : (d.setReg blk n off v).nextAsk = d.nextAsk := rfl
@[simp] theorem setReg_free (blk n off : Nat) (v : Word) : (d.setReg blk n off v).free = d.free := rfl
@[simp] theorem setReg_mem (blk n off : Nat) (v : Word) : (d.setReg blk n off v).mem = d.mem := rfl
@[simp] theorem setReg_camp (blk n off : Nat) (v : Word) : (d.setReg blk n off v).camp = d.camp := rfl
@[simp] theorem setReg_tim (blk n off : Nat) (v : Word) : (d.setReg blk n off v).tim = d.tim := rfl
@[simp] theorem setReg_spotter (blk n off : Nat) (v : Word) : (d.setReg blk n off v).spotter = d.spotter := rfl
@[simp] theorem setReg_mgmt (blk n off : Nat) (v : Word) : (d.setReg blk n off v).mgmt = d.mgmt := rfl
@[simp] theorem setReg_jtag (blk n off : Nat) (v : Word) : (d.setReg blk n off v).jtag = d.jtag := rfl
@[simp] theorem setReg_dmc (blk n off : Nat) (v : Word) : (d.setReg blk n off v).dmc = d.dmc := rfl
@[simp] theorem setReg_warden (blk n off : Nat) (v : Word) : (d.setReg blk n off v).warden = d.warden := rfl
@[simp] theorem setReg_pitch (blk n off : Nat) (v : Word) : (d.setReg blk n off v).pitch = d.pitch := rfl
@[simp] theorem setReg_anchor (blk n off : Nat) (v : Word) : (d.setReg blk n off v).anchor = d.anchor := rfl
@[simp] theorem setReg_hostq (blk n off : Nat) (v : Word) : (d.setReg blk n off v).hostq = d.hostq := rfl
@[simp] theorem setReg_ledger (blk n off : Nat) (v : Word) : (d.setReg blk n off v).ledger = d.ledger := rfl
@[simp] theorem setReg_rope (blk n off : Nat) (v : Word) : (d.setReg blk n off v).rope = d.rope := rfl
@[simp] theorem setReg_map (blk n off : Nat) (v : Word) : (d.setReg blk n off v).map = d.map := rfl
@[simp] theorem setReg_jnl (blk n off : Nat) (v : Word) : (d.setReg blk n off v).jnl = d.jnl := rfl
@[simp] theorem setReg_links (blk n off : Nat) (v : Word) : (d.setReg blk n off v).links = d.links := rfl
@[simp] theorem setReg_claimX (blk n off : Nat) (v : Word) : (d.setReg blk n off v).claimX = d.claimX := rfl
@[simp] theorem setReg_media (blk n off : Nat) (v : Word) : (d.setReg blk n off v).media = d.media := rfl
@[simp] theorem setReg_stripe (blk n off : Nat) (v : Word) : (d.setReg blk n off v).stripe = d.stripe := rfl
@[simp] theorem setReg_tally (blk n off : Nat) (v : Word) : (d.setReg blk n off v).tally = d.tally := rfl
@[simp] theorem setReg_cairn (blk n off : Nat) (v : Word) : (d.setReg blk n off v).cairn = d.cairn := rfl
@[simp] theorem setReg_cls (blk n off : Nat) (v : Word) : (d.setReg blk n off v).cls = d.cls := rfl
@[simp] theorem setReg_swt (blk n off : Nat) (v : Word) : (d.setReg blk n off v).swt = d.swt := rfl
@[simp] theorem setReg_sch (blk n off : Nat) (v : Word) : (d.setReg blk n off v).sch = d.sch := rfl
@[simp] theorem setReg_xpt (blk n off : Nat) (v : Word) : (d.setReg blk n off v).xpt = d.xpt := rfl
@[simp] theorem setReg_stm (blk n off : Nat) (v : Word) : (d.setReg blk n off v).stm = d.stm := rfl
@[simp] theorem setReg_trans (blk n off : Nat) (v : Word) : (d.setReg blk n off v).trans = d.trans := rfl
@[simp] theorem setReg_cipher (blk n off : Nat) (v : Word) : (d.setReg blk n off v).cipher = d.cipher := rfl
@[simp] theorem setReg_belay (blk n off : Nat) (v : Word) : (d.setReg blk n off v).belay = d.belay := rfl

/-! ### fset -/

@[simp] theorem fset_shadow (f : FRef) (v n : Nat) : (d.fset f v n).shadow = d.shadow := rfl
@[simp] theorem fset_insts (f : FRef) (v n : Nat) : (d.fset f v n).insts = d.insts := rfl
@[simp] theorem fset_asks (f : FRef) (v n : Nat) : (d.fset f v n).asks = d.asks := rfl
@[simp] theorem fset_nextAsk (f : FRef) (v n : Nat) : (d.fset f v n).nextAsk = d.nextAsk := rfl
@[simp] theorem fset_free (f : FRef) (v n : Nat) : (d.fset f v n).free = d.free := rfl
@[simp] theorem fset_mem (f : FRef) (v n : Nat) : (d.fset f v n).mem = d.mem := rfl
@[simp] theorem fset_camp (f : FRef) (v n : Nat) : (d.fset f v n).camp = d.camp := rfl
@[simp] theorem fset_tim (f : FRef) (v n : Nat) : (d.fset f v n).tim = d.tim := rfl
@[simp] theorem fset_spotter (f : FRef) (v n : Nat) : (d.fset f v n).spotter = d.spotter := rfl
@[simp] theorem fset_mgmt (f : FRef) (v n : Nat) : (d.fset f v n).mgmt = d.mgmt := rfl
@[simp] theorem fset_jtag (f : FRef) (v n : Nat) : (d.fset f v n).jtag = d.jtag := rfl
@[simp] theorem fset_dmc (f : FRef) (v n : Nat) : (d.fset f v n).dmc = d.dmc := rfl
@[simp] theorem fset_warden (f : FRef) (v n : Nat) : (d.fset f v n).warden = d.warden := rfl
@[simp] theorem fset_pitch (f : FRef) (v n : Nat) : (d.fset f v n).pitch = d.pitch := rfl
@[simp] theorem fset_anchor (f : FRef) (v n : Nat) : (d.fset f v n).anchor = d.anchor := rfl
@[simp] theorem fset_hostq (f : FRef) (v n : Nat) : (d.fset f v n).hostq = d.hostq := rfl
@[simp] theorem fset_ledger (f : FRef) (v n : Nat) : (d.fset f v n).ledger = d.ledger := rfl
@[simp] theorem fset_rope (f : FRef) (v n : Nat) : (d.fset f v n).rope = d.rope := rfl
@[simp] theorem fset_map (f : FRef) (v n : Nat) : (d.fset f v n).map = d.map := rfl
@[simp] theorem fset_jnl (f : FRef) (v n : Nat) : (d.fset f v n).jnl = d.jnl := rfl
@[simp] theorem fset_links (f : FRef) (v n : Nat) : (d.fset f v n).links = d.links := rfl
@[simp] theorem fset_claimX (f : FRef) (v n : Nat) : (d.fset f v n).claimX = d.claimX := rfl
@[simp] theorem fset_media (f : FRef) (v n : Nat) : (d.fset f v n).media = d.media := rfl
@[simp] theorem fset_stripe (f : FRef) (v n : Nat) : (d.fset f v n).stripe = d.stripe := rfl
@[simp] theorem fset_tally (f : FRef) (v n : Nat) : (d.fset f v n).tally = d.tally := rfl
@[simp] theorem fset_cairn (f : FRef) (v n : Nat) : (d.fset f v n).cairn = d.cairn := rfl
@[simp] theorem fset_cls (f : FRef) (v n : Nat) : (d.fset f v n).cls = d.cls := rfl
@[simp] theorem fset_swt (f : FRef) (v n : Nat) : (d.fset f v n).swt = d.swt := rfl
@[simp] theorem fset_sch (f : FRef) (v n : Nat) : (d.fset f v n).sch = d.sch := rfl
@[simp] theorem fset_xpt (f : FRef) (v n : Nat) : (d.fset f v n).xpt = d.xpt := rfl
@[simp] theorem fset_stm (f : FRef) (v n : Nat) : (d.fset f v n).stm = d.stm := rfl
@[simp] theorem fset_trans (f : FRef) (v n : Nat) : (d.fset f v n).trans = d.trans := rfl
@[simp] theorem fset_cipher (f : FRef) (v n : Nat) : (d.fset f v n).cipher = d.cipher := rfl
@[simp] theorem fset_belay (f : FRef) (v n : Nat) : (d.fset f v n).belay = d.belay := rfl

/-! ### bump -/

@[simp] theorem bump_shadow (f : FRef) (k n : Nat) : (d.bump f k n).shadow = d.shadow := rfl
@[simp] theorem bump_insts (f : FRef) (k n : Nat) : (d.bump f k n).insts = d.insts := rfl
@[simp] theorem bump_asks (f : FRef) (k n : Nat) : (d.bump f k n).asks = d.asks := rfl
@[simp] theorem bump_nextAsk (f : FRef) (k n : Nat) : (d.bump f k n).nextAsk = d.nextAsk := rfl
@[simp] theorem bump_free (f : FRef) (k n : Nat) : (d.bump f k n).free = d.free := rfl
@[simp] theorem bump_mem (f : FRef) (k n : Nat) : (d.bump f k n).mem = d.mem := rfl
@[simp] theorem bump_camp (f : FRef) (k n : Nat) : (d.bump f k n).camp = d.camp := rfl
@[simp] theorem bump_tim (f : FRef) (k n : Nat) : (d.bump f k n).tim = d.tim := rfl
@[simp] theorem bump_spotter (f : FRef) (k n : Nat) : (d.bump f k n).spotter = d.spotter := rfl
@[simp] theorem bump_mgmt (f : FRef) (k n : Nat) : (d.bump f k n).mgmt = d.mgmt := rfl
@[simp] theorem bump_jtag (f : FRef) (k n : Nat) : (d.bump f k n).jtag = d.jtag := rfl
@[simp] theorem bump_dmc (f : FRef) (k n : Nat) : (d.bump f k n).dmc = d.dmc := rfl
@[simp] theorem bump_warden (f : FRef) (k n : Nat) : (d.bump f k n).warden = d.warden := rfl
@[simp] theorem bump_pitch (f : FRef) (k n : Nat) : (d.bump f k n).pitch = d.pitch := rfl
@[simp] theorem bump_anchor (f : FRef) (k n : Nat) : (d.bump f k n).anchor = d.anchor := rfl
@[simp] theorem bump_hostq (f : FRef) (k n : Nat) : (d.bump f k n).hostq = d.hostq := rfl
@[simp] theorem bump_ledger (f : FRef) (k n : Nat) : (d.bump f k n).ledger = d.ledger := rfl
@[simp] theorem bump_rope (f : FRef) (k n : Nat) : (d.bump f k n).rope = d.rope := rfl
@[simp] theorem bump_map (f : FRef) (k n : Nat) : (d.bump f k n).map = d.map := rfl
@[simp] theorem bump_jnl (f : FRef) (k n : Nat) : (d.bump f k n).jnl = d.jnl := rfl
@[simp] theorem bump_links (f : FRef) (k n : Nat) : (d.bump f k n).links = d.links := rfl
@[simp] theorem bump_claimX (f : FRef) (k n : Nat) : (d.bump f k n).claimX = d.claimX := rfl
@[simp] theorem bump_media (f : FRef) (k n : Nat) : (d.bump f k n).media = d.media := rfl
@[simp] theorem bump_stripe (f : FRef) (k n : Nat) : (d.bump f k n).stripe = d.stripe := rfl
@[simp] theorem bump_tally (f : FRef) (k n : Nat) : (d.bump f k n).tally = d.tally := rfl
@[simp] theorem bump_cairn (f : FRef) (k n : Nat) : (d.bump f k n).cairn = d.cairn := rfl
@[simp] theorem bump_cls (f : FRef) (k n : Nat) : (d.bump f k n).cls = d.cls := rfl
@[simp] theorem bump_swt (f : FRef) (k n : Nat) : (d.bump f k n).swt = d.swt := rfl
@[simp] theorem bump_sch (f : FRef) (k n : Nat) : (d.bump f k n).sch = d.sch := rfl
@[simp] theorem bump_xpt (f : FRef) (k n : Nat) : (d.bump f k n).xpt = d.xpt := rfl
@[simp] theorem bump_stm (f : FRef) (k n : Nat) : (d.bump f k n).stm = d.stm := rfl
@[simp] theorem bump_trans (f : FRef) (k n : Nat) : (d.bump f k n).trans = d.trans := rfl
@[simp] theorem bump_cipher (f : FRef) (k n : Nat) : (d.bump f k n).cipher = d.cipher := rfl
@[simp] theorem bump_belay (f : FRef) (k n : Nat) : (d.bump f k n).belay = d.belay := rfl

/-! ### bumpSat -/

@[simp] theorem bumpSat_shadow (f : FRef) (k n : Nat) : (d.bumpSat f k n).shadow = d.shadow := rfl
@[simp] theorem bumpSat_insts (f : FRef) (k n : Nat) : (d.bumpSat f k n).insts = d.insts := rfl
@[simp] theorem bumpSat_asks (f : FRef) (k n : Nat) : (d.bumpSat f k n).asks = d.asks := rfl
@[simp] theorem bumpSat_nextAsk (f : FRef) (k n : Nat) : (d.bumpSat f k n).nextAsk = d.nextAsk := rfl
@[simp] theorem bumpSat_free (f : FRef) (k n : Nat) : (d.bumpSat f k n).free = d.free := rfl
@[simp] theorem bumpSat_mem (f : FRef) (k n : Nat) : (d.bumpSat f k n).mem = d.mem := rfl
@[simp] theorem bumpSat_camp (f : FRef) (k n : Nat) : (d.bumpSat f k n).camp = d.camp := rfl
@[simp] theorem bumpSat_tim (f : FRef) (k n : Nat) : (d.bumpSat f k n).tim = d.tim := rfl
@[simp] theorem bumpSat_spotter (f : FRef) (k n : Nat) : (d.bumpSat f k n).spotter = d.spotter := rfl
@[simp] theorem bumpSat_mgmt (f : FRef) (k n : Nat) : (d.bumpSat f k n).mgmt = d.mgmt := rfl
@[simp] theorem bumpSat_jtag (f : FRef) (k n : Nat) : (d.bumpSat f k n).jtag = d.jtag := rfl
@[simp] theorem bumpSat_dmc (f : FRef) (k n : Nat) : (d.bumpSat f k n).dmc = d.dmc := rfl
@[simp] theorem bumpSat_warden (f : FRef) (k n : Nat) : (d.bumpSat f k n).warden = d.warden := rfl
@[simp] theorem bumpSat_pitch (f : FRef) (k n : Nat) : (d.bumpSat f k n).pitch = d.pitch := rfl
@[simp] theorem bumpSat_anchor (f : FRef) (k n : Nat) : (d.bumpSat f k n).anchor = d.anchor := rfl
@[simp] theorem bumpSat_hostq (f : FRef) (k n : Nat) : (d.bumpSat f k n).hostq = d.hostq := rfl
@[simp] theorem bumpSat_ledger (f : FRef) (k n : Nat) : (d.bumpSat f k n).ledger = d.ledger := rfl
@[simp] theorem bumpSat_rope (f : FRef) (k n : Nat) : (d.bumpSat f k n).rope = d.rope := rfl
@[simp] theorem bumpSat_map (f : FRef) (k n : Nat) : (d.bumpSat f k n).map = d.map := rfl
@[simp] theorem bumpSat_jnl (f : FRef) (k n : Nat) : (d.bumpSat f k n).jnl = d.jnl := rfl
@[simp] theorem bumpSat_links (f : FRef) (k n : Nat) : (d.bumpSat f k n).links = d.links := rfl
@[simp] theorem bumpSat_claimX (f : FRef) (k n : Nat) : (d.bumpSat f k n).claimX = d.claimX := rfl
@[simp] theorem bumpSat_media (f : FRef) (k n : Nat) : (d.bumpSat f k n).media = d.media := rfl
@[simp] theorem bumpSat_stripe (f : FRef) (k n : Nat) : (d.bumpSat f k n).stripe = d.stripe := rfl
@[simp] theorem bumpSat_tally (f : FRef) (k n : Nat) : (d.bumpSat f k n).tally = d.tally := rfl
@[simp] theorem bumpSat_cairn (f : FRef) (k n : Nat) : (d.bumpSat f k n).cairn = d.cairn := rfl
@[simp] theorem bumpSat_cls (f : FRef) (k n : Nat) : (d.bumpSat f k n).cls = d.cls := rfl
@[simp] theorem bumpSat_swt (f : FRef) (k n : Nat) : (d.bumpSat f k n).swt = d.swt := rfl
@[simp] theorem bumpSat_sch (f : FRef) (k n : Nat) : (d.bumpSat f k n).sch = d.sch := rfl
@[simp] theorem bumpSat_xpt (f : FRef) (k n : Nat) : (d.bumpSat f k n).xpt = d.xpt := rfl
@[simp] theorem bumpSat_stm (f : FRef) (k n : Nat) : (d.bumpSat f k n).stm = d.stm := rfl
@[simp] theorem bumpSat_trans (f : FRef) (k n : Nat) : (d.bumpSat f k n).trans = d.trans := rfl
@[simp] theorem bumpSat_cipher (f : FRef) (k n : Nat) : (d.bumpSat f k n).cipher = d.cipher := rfl
@[simp] theorem bumpSat_belay (f : FRef) (k n : Nat) : (d.bumpSat f k n).belay = d.belay := rfl

/-! ### raiseTo -/

@[simp] theorem raiseTo_shadow (f : FRef) (v n : Nat) : (d.raiseTo f v n).shadow = d.shadow := rfl
@[simp] theorem raiseTo_insts (f : FRef) (v n : Nat) : (d.raiseTo f v n).insts = d.insts := rfl
@[simp] theorem raiseTo_asks (f : FRef) (v n : Nat) : (d.raiseTo f v n).asks = d.asks := rfl
@[simp] theorem raiseTo_nextAsk (f : FRef) (v n : Nat) : (d.raiseTo f v n).nextAsk = d.nextAsk := rfl
@[simp] theorem raiseTo_free (f : FRef) (v n : Nat) : (d.raiseTo f v n).free = d.free := rfl
@[simp] theorem raiseTo_mem (f : FRef) (v n : Nat) : (d.raiseTo f v n).mem = d.mem := rfl
@[simp] theorem raiseTo_camp (f : FRef) (v n : Nat) : (d.raiseTo f v n).camp = d.camp := rfl
@[simp] theorem raiseTo_tim (f : FRef) (v n : Nat) : (d.raiseTo f v n).tim = d.tim := rfl
@[simp] theorem raiseTo_spotter (f : FRef) (v n : Nat) : (d.raiseTo f v n).spotter = d.spotter := rfl
@[simp] theorem raiseTo_mgmt (f : FRef) (v n : Nat) : (d.raiseTo f v n).mgmt = d.mgmt := rfl
@[simp] theorem raiseTo_jtag (f : FRef) (v n : Nat) : (d.raiseTo f v n).jtag = d.jtag := rfl
@[simp] theorem raiseTo_dmc (f : FRef) (v n : Nat) : (d.raiseTo f v n).dmc = d.dmc := rfl
@[simp] theorem raiseTo_warden (f : FRef) (v n : Nat) : (d.raiseTo f v n).warden = d.warden := rfl
@[simp] theorem raiseTo_pitch (f : FRef) (v n : Nat) : (d.raiseTo f v n).pitch = d.pitch := rfl
@[simp] theorem raiseTo_anchor (f : FRef) (v n : Nat) : (d.raiseTo f v n).anchor = d.anchor := rfl
@[simp] theorem raiseTo_hostq (f : FRef) (v n : Nat) : (d.raiseTo f v n).hostq = d.hostq := rfl
@[simp] theorem raiseTo_ledger (f : FRef) (v n : Nat) : (d.raiseTo f v n).ledger = d.ledger := rfl
@[simp] theorem raiseTo_rope (f : FRef) (v n : Nat) : (d.raiseTo f v n).rope = d.rope := rfl
@[simp] theorem raiseTo_map (f : FRef) (v n : Nat) : (d.raiseTo f v n).map = d.map := rfl
@[simp] theorem raiseTo_jnl (f : FRef) (v n : Nat) : (d.raiseTo f v n).jnl = d.jnl := rfl
@[simp] theorem raiseTo_links (f : FRef) (v n : Nat) : (d.raiseTo f v n).links = d.links := rfl
@[simp] theorem raiseTo_claimX (f : FRef) (v n : Nat) : (d.raiseTo f v n).claimX = d.claimX := rfl
@[simp] theorem raiseTo_media (f : FRef) (v n : Nat) : (d.raiseTo f v n).media = d.media := rfl
@[simp] theorem raiseTo_stripe (f : FRef) (v n : Nat) : (d.raiseTo f v n).stripe = d.stripe := rfl
@[simp] theorem raiseTo_tally (f : FRef) (v n : Nat) : (d.raiseTo f v n).tally = d.tally := rfl
@[simp] theorem raiseTo_cairn (f : FRef) (v n : Nat) : (d.raiseTo f v n).cairn = d.cairn := rfl
@[simp] theorem raiseTo_cls (f : FRef) (v n : Nat) : (d.raiseTo f v n).cls = d.cls := rfl
@[simp] theorem raiseTo_swt (f : FRef) (v n : Nat) : (d.raiseTo f v n).swt = d.swt := rfl
@[simp] theorem raiseTo_sch (f : FRef) (v n : Nat) : (d.raiseTo f v n).sch = d.sch := rfl
@[simp] theorem raiseTo_xpt (f : FRef) (v n : Nat) : (d.raiseTo f v n).xpt = d.xpt := rfl
@[simp] theorem raiseTo_stm (f : FRef) (v n : Nat) : (d.raiseTo f v n).stm = d.stm := rfl
@[simp] theorem raiseTo_trans (f : FRef) (v n : Nat) : (d.raiseTo f v n).trans = d.trans := rfl
@[simp] theorem raiseTo_cipher (f : FRef) (v n : Nat) : (d.raiseTo f v n).cipher = d.cipher := rfl
@[simp] theorem raiseTo_belay (f : FRef) (v n : Nat) : (d.raiseTo f v n).belay = d.belay := rfl

/-! ### setInst -/

@[simp] theorem setInst_regs (blk n : Nat) (i : Inst) : (d.setInst blk n i).regs = d.regs := rfl
@[simp] theorem setInst_shadow (blk n : Nat) (i : Inst) : (d.setInst blk n i).shadow = d.shadow := rfl
@[simp] theorem setInst_asks (blk n : Nat) (i : Inst) : (d.setInst blk n i).asks = d.asks := rfl
@[simp] theorem setInst_nextAsk (blk n : Nat) (i : Inst) : (d.setInst blk n i).nextAsk = d.nextAsk := rfl
@[simp] theorem setInst_free (blk n : Nat) (i : Inst) : (d.setInst blk n i).free = d.free := rfl
@[simp] theorem setInst_mem (blk n : Nat) (i : Inst) : (d.setInst blk n i).mem = d.mem := rfl
@[simp] theorem setInst_camp (blk n : Nat) (i : Inst) : (d.setInst blk n i).camp = d.camp := rfl
@[simp] theorem setInst_tim (blk n : Nat) (i : Inst) : (d.setInst blk n i).tim = d.tim := rfl
@[simp] theorem setInst_spotter (blk n : Nat) (i : Inst) : (d.setInst blk n i).spotter = d.spotter := rfl
@[simp] theorem setInst_mgmt (blk n : Nat) (i : Inst) : (d.setInst blk n i).mgmt = d.mgmt := rfl
@[simp] theorem setInst_jtag (blk n : Nat) (i : Inst) : (d.setInst blk n i).jtag = d.jtag := rfl
@[simp] theorem setInst_dmc (blk n : Nat) (i : Inst) : (d.setInst blk n i).dmc = d.dmc := rfl
@[simp] theorem setInst_warden (blk n : Nat) (i : Inst) : (d.setInst blk n i).warden = d.warden := rfl
@[simp] theorem setInst_pitch (blk n : Nat) (i : Inst) : (d.setInst blk n i).pitch = d.pitch := rfl
@[simp] theorem setInst_anchor (blk n : Nat) (i : Inst) : (d.setInst blk n i).anchor = d.anchor := rfl
@[simp] theorem setInst_hostq (blk n : Nat) (i : Inst) : (d.setInst blk n i).hostq = d.hostq := rfl
@[simp] theorem setInst_ledger (blk n : Nat) (i : Inst) : (d.setInst blk n i).ledger = d.ledger := rfl
@[simp] theorem setInst_rope (blk n : Nat) (i : Inst) : (d.setInst blk n i).rope = d.rope := rfl
@[simp] theorem setInst_map (blk n : Nat) (i : Inst) : (d.setInst blk n i).map = d.map := rfl
@[simp] theorem setInst_jnl (blk n : Nat) (i : Inst) : (d.setInst blk n i).jnl = d.jnl := rfl
@[simp] theorem setInst_links (blk n : Nat) (i : Inst) : (d.setInst blk n i).links = d.links := rfl
@[simp] theorem setInst_claimX (blk n : Nat) (i : Inst) : (d.setInst blk n i).claimX = d.claimX := rfl
@[simp] theorem setInst_media (blk n : Nat) (i : Inst) : (d.setInst blk n i).media = d.media := rfl
@[simp] theorem setInst_stripe (blk n : Nat) (i : Inst) : (d.setInst blk n i).stripe = d.stripe := rfl
@[simp] theorem setInst_tally (blk n : Nat) (i : Inst) : (d.setInst blk n i).tally = d.tally := rfl
@[simp] theorem setInst_cairn (blk n : Nat) (i : Inst) : (d.setInst blk n i).cairn = d.cairn := rfl
@[simp] theorem setInst_cls (blk n : Nat) (i : Inst) : (d.setInst blk n i).cls = d.cls := rfl
@[simp] theorem setInst_swt (blk n : Nat) (i : Inst) : (d.setInst blk n i).swt = d.swt := rfl
@[simp] theorem setInst_sch (blk n : Nat) (i : Inst) : (d.setInst blk n i).sch = d.sch := rfl
@[simp] theorem setInst_xpt (blk n : Nat) (i : Inst) : (d.setInst blk n i).xpt = d.xpt := rfl
@[simp] theorem setInst_stm (blk n : Nat) (i : Inst) : (d.setInst blk n i).stm = d.stm := rfl
@[simp] theorem setInst_trans (blk n : Nat) (i : Inst) : (d.setInst blk n i).trans = d.trans := rfl
@[simp] theorem setInst_cipher (blk n : Nat) (i : Inst) : (d.setInst blk n i).cipher = d.cipher := rfl
@[simp] theorem setInst_belay (blk n : Nat) (i : Inst) : (d.setInst blk n i).belay = d.belay := rfl

/-! ### modInst -/

@[simp] theorem modInst_regs (blk n : Nat) (g : Inst → Inst) : (d.modInst blk n g).regs = d.regs := rfl
@[simp] theorem modInst_shadow (blk n : Nat) (g : Inst → Inst) : (d.modInst blk n g).shadow = d.shadow := rfl
@[simp] theorem modInst_asks (blk n : Nat) (g : Inst → Inst) : (d.modInst blk n g).asks = d.asks := rfl
@[simp] theorem modInst_nextAsk (blk n : Nat) (g : Inst → Inst) : (d.modInst blk n g).nextAsk = d.nextAsk := rfl
@[simp] theorem modInst_free (blk n : Nat) (g : Inst → Inst) : (d.modInst blk n g).free = d.free := rfl
@[simp] theorem modInst_mem (blk n : Nat) (g : Inst → Inst) : (d.modInst blk n g).mem = d.mem := rfl
@[simp] theorem modInst_camp (blk n : Nat) (g : Inst → Inst) : (d.modInst blk n g).camp = d.camp := rfl
@[simp] theorem modInst_tim (blk n : Nat) (g : Inst → Inst) : (d.modInst blk n g).tim = d.tim := rfl
@[simp] theorem modInst_spotter (blk n : Nat) (g : Inst → Inst) : (d.modInst blk n g).spotter = d.spotter := rfl
@[simp] theorem modInst_mgmt (blk n : Nat) (g : Inst → Inst) : (d.modInst blk n g).mgmt = d.mgmt := rfl
@[simp] theorem modInst_jtag (blk n : Nat) (g : Inst → Inst) : (d.modInst blk n g).jtag = d.jtag := rfl
@[simp] theorem modInst_dmc (blk n : Nat) (g : Inst → Inst) : (d.modInst blk n g).dmc = d.dmc := rfl
@[simp] theorem modInst_warden (blk n : Nat) (g : Inst → Inst) : (d.modInst blk n g).warden = d.warden := rfl
@[simp] theorem modInst_pitch (blk n : Nat) (g : Inst → Inst) : (d.modInst blk n g).pitch = d.pitch := rfl
@[simp] theorem modInst_anchor (blk n : Nat) (g : Inst → Inst) : (d.modInst blk n g).anchor = d.anchor := rfl
@[simp] theorem modInst_hostq (blk n : Nat) (g : Inst → Inst) : (d.modInst blk n g).hostq = d.hostq := rfl
@[simp] theorem modInst_ledger (blk n : Nat) (g : Inst → Inst) : (d.modInst blk n g).ledger = d.ledger := rfl
@[simp] theorem modInst_rope (blk n : Nat) (g : Inst → Inst) : (d.modInst blk n g).rope = d.rope := rfl
@[simp] theorem modInst_map (blk n : Nat) (g : Inst → Inst) : (d.modInst blk n g).map = d.map := rfl
@[simp] theorem modInst_jnl (blk n : Nat) (g : Inst → Inst) : (d.modInst blk n g).jnl = d.jnl := rfl
@[simp] theorem modInst_links (blk n : Nat) (g : Inst → Inst) : (d.modInst blk n g).links = d.links := rfl
@[simp] theorem modInst_claimX (blk n : Nat) (g : Inst → Inst) : (d.modInst blk n g).claimX = d.claimX := rfl
@[simp] theorem modInst_media (blk n : Nat) (g : Inst → Inst) : (d.modInst blk n g).media = d.media := rfl
@[simp] theorem modInst_stripe (blk n : Nat) (g : Inst → Inst) : (d.modInst blk n g).stripe = d.stripe := rfl
@[simp] theorem modInst_tally (blk n : Nat) (g : Inst → Inst) : (d.modInst blk n g).tally = d.tally := rfl
@[simp] theorem modInst_cairn (blk n : Nat) (g : Inst → Inst) : (d.modInst blk n g).cairn = d.cairn := rfl
@[simp] theorem modInst_cls (blk n : Nat) (g : Inst → Inst) : (d.modInst blk n g).cls = d.cls := rfl
@[simp] theorem modInst_swt (blk n : Nat) (g : Inst → Inst) : (d.modInst blk n g).swt = d.swt := rfl
@[simp] theorem modInst_sch (blk n : Nat) (g : Inst → Inst) : (d.modInst blk n g).sch = d.sch := rfl
@[simp] theorem modInst_xpt (blk n : Nat) (g : Inst → Inst) : (d.modInst blk n g).xpt = d.xpt := rfl
@[simp] theorem modInst_stm (blk n : Nat) (g : Inst → Inst) : (d.modInst blk n g).stm = d.stm := rfl
@[simp] theorem modInst_trans (blk n : Nat) (g : Inst → Inst) : (d.modInst blk n g).trans = d.trans := rfl
@[simp] theorem modInst_cipher (blk n : Nat) (g : Inst → Inst) : (d.modInst blk n g).cipher = d.cipher := rfl
@[simp] theorem modInst_belay (blk n : Nat) (g : Inst → Inst) : (d.modInst blk n g).belay = d.belay := rfl

/-! ### takeFree -/

@[simp] theorem takeFree_regs : (d.takeFree.2).regs = d.regs := rfl
@[simp] theorem takeFree_shadow : (d.takeFree.2).shadow = d.shadow := rfl
@[simp] theorem takeFree_insts : (d.takeFree.2).insts = d.insts := rfl
@[simp] theorem takeFree_asks : (d.takeFree.2).asks = d.asks := rfl
@[simp] theorem takeFree_nextAsk : (d.takeFree.2).nextAsk = d.nextAsk := rfl
@[simp] theorem takeFree_mem : (d.takeFree.2).mem = d.mem := rfl
@[simp] theorem takeFree_camp : (d.takeFree.2).camp = d.camp := rfl
@[simp] theorem takeFree_tim : (d.takeFree.2).tim = d.tim := rfl
@[simp] theorem takeFree_spotter : (d.takeFree.2).spotter = d.spotter := rfl
@[simp] theorem takeFree_mgmt : (d.takeFree.2).mgmt = d.mgmt := rfl
@[simp] theorem takeFree_jtag : (d.takeFree.2).jtag = d.jtag := rfl
@[simp] theorem takeFree_dmc : (d.takeFree.2).dmc = d.dmc := rfl
@[simp] theorem takeFree_warden : (d.takeFree.2).warden = d.warden := rfl
@[simp] theorem takeFree_pitch : (d.takeFree.2).pitch = d.pitch := rfl
@[simp] theorem takeFree_anchor : (d.takeFree.2).anchor = d.anchor := rfl
@[simp] theorem takeFree_hostq : (d.takeFree.2).hostq = d.hostq := rfl
@[simp] theorem takeFree_ledger : (d.takeFree.2).ledger = d.ledger := rfl
@[simp] theorem takeFree_rope : (d.takeFree.2).rope = d.rope := rfl
@[simp] theorem takeFree_map : (d.takeFree.2).map = d.map := rfl
@[simp] theorem takeFree_jnl : (d.takeFree.2).jnl = d.jnl := rfl
@[simp] theorem takeFree_links : (d.takeFree.2).links = d.links := rfl
@[simp] theorem takeFree_claimX : (d.takeFree.2).claimX = d.claimX := rfl
@[simp] theorem takeFree_media : (d.takeFree.2).media = d.media := rfl
@[simp] theorem takeFree_stripe : (d.takeFree.2).stripe = d.stripe := rfl
@[simp] theorem takeFree_tally : (d.takeFree.2).tally = d.tally := rfl
@[simp] theorem takeFree_cairn : (d.takeFree.2).cairn = d.cairn := rfl
@[simp] theorem takeFree_cls : (d.takeFree.2).cls = d.cls := rfl
@[simp] theorem takeFree_swt : (d.takeFree.2).swt = d.swt := rfl
@[simp] theorem takeFree_sch : (d.takeFree.2).sch = d.sch := rfl
@[simp] theorem takeFree_xpt : (d.takeFree.2).xpt = d.xpt := rfl
@[simp] theorem takeFree_stm : (d.takeFree.2).stm = d.stm := rfl
@[simp] theorem takeFree_trans : (d.takeFree.2).trans = d.trans := rfl
@[simp] theorem takeFree_cipher : (d.takeFree.2).cipher = d.cipher := rfl
@[simp] theorem takeFree_belay : (d.takeFree.2).belay = d.belay := rfl

/-! ### showQueue -/

@[simp] theorem showQueue_shadow : (d.showQueue).shadow = d.shadow := rfl
@[simp] theorem showQueue_insts : (d.showQueue).insts = d.insts := rfl
@[simp] theorem showQueue_asks : (d.showQueue).asks = d.asks := rfl
@[simp] theorem showQueue_nextAsk : (d.showQueue).nextAsk = d.nextAsk := rfl
@[simp] theorem showQueue_free : (d.showQueue).free = d.free := rfl
@[simp] theorem showQueue_mem : (d.showQueue).mem = d.mem := rfl
@[simp] theorem showQueue_camp : (d.showQueue).camp = d.camp := rfl
@[simp] theorem showQueue_tim : (d.showQueue).tim = d.tim := rfl
@[simp] theorem showQueue_spotter : (d.showQueue).spotter = d.spotter := rfl
@[simp] theorem showQueue_mgmt : (d.showQueue).mgmt = d.mgmt := rfl
@[simp] theorem showQueue_jtag : (d.showQueue).jtag = d.jtag := rfl
@[simp] theorem showQueue_dmc : (d.showQueue).dmc = d.dmc := rfl
@[simp] theorem showQueue_warden : (d.showQueue).warden = d.warden := rfl
@[simp] theorem showQueue_pitch : (d.showQueue).pitch = d.pitch := rfl
@[simp] theorem showQueue_anchor : (d.showQueue).anchor = d.anchor := rfl
@[simp] theorem showQueue_hostq : (d.showQueue).hostq = d.hostq := rfl
@[simp] theorem showQueue_ledger : (d.showQueue).ledger = d.ledger := rfl
@[simp] theorem showQueue_rope : (d.showQueue).rope = d.rope := rfl
@[simp] theorem showQueue_map : (d.showQueue).map = d.map := rfl
@[simp] theorem showQueue_jnl : (d.showQueue).jnl = d.jnl := rfl
@[simp] theorem showQueue_links : (d.showQueue).links = d.links := rfl
@[simp] theorem showQueue_claimX : (d.showQueue).claimX = d.claimX := rfl
@[simp] theorem showQueue_media : (d.showQueue).media = d.media := rfl
@[simp] theorem showQueue_stripe : (d.showQueue).stripe = d.stripe := rfl
@[simp] theorem showQueue_tally : (d.showQueue).tally = d.tally := rfl
@[simp] theorem showQueue_cairn : (d.showQueue).cairn = d.cairn := rfl
@[simp] theorem showQueue_cls : (d.showQueue).cls = d.cls := rfl
@[simp] theorem showQueue_swt : (d.showQueue).swt = d.swt := rfl
@[simp] theorem showQueue_sch : (d.showQueue).sch = d.sch := rfl
@[simp] theorem showQueue_xpt : (d.showQueue).xpt = d.xpt := rfl
@[simp] theorem showQueue_stm : (d.showQueue).stm = d.stm := rfl
@[simp] theorem showQueue_trans : (d.showQueue).trans = d.trans := rfl
@[simp] theorem showQueue_cipher : (d.showQueue).cipher = d.cipher := rfl
@[simp] theorem showQueue_belay : (d.showQueue).belay = d.belay := rfl

/-! ### reply -/

@[simp] theorem reply_regs (id st data : Nat) (ws : List Word) : (d.reply id st data ws).regs = d.regs := by
  unfold Dev.reply; split <;> rfl
@[simp] theorem reply_shadow (id st data : Nat) (ws : List Word) : (d.reply id st data ws).shadow = d.shadow := by
  unfold Dev.reply; split <;> rfl
@[simp] theorem reply_insts (id st data : Nat) (ws : List Word) : (d.reply id st data ws).insts = d.insts := by
  unfold Dev.reply; split <;> rfl
@[simp] theorem reply_nextAsk (id st data : Nat) (ws : List Word) : (d.reply id st data ws).nextAsk = d.nextAsk := by
  unfold Dev.reply; split <;> rfl
@[simp] theorem reply_free (id st data : Nat) (ws : List Word) : (d.reply id st data ws).free = d.free := by
  unfold Dev.reply; split <;> rfl
@[simp] theorem reply_mem (id st data : Nat) (ws : List Word) : (d.reply id st data ws).mem = d.mem := by
  unfold Dev.reply; split <;> rfl
@[simp] theorem reply_camp (id st data : Nat) (ws : List Word) : (d.reply id st data ws).camp = d.camp := by
  unfold Dev.reply; split <;> rfl
@[simp] theorem reply_tim (id st data : Nat) (ws : List Word) : (d.reply id st data ws).tim = d.tim := by
  unfold Dev.reply; split <;> rfl
@[simp] theorem reply_spotter (id st data : Nat) (ws : List Word) : (d.reply id st data ws).spotter = d.spotter := by
  unfold Dev.reply; split <;> rfl
@[simp] theorem reply_mgmt (id st data : Nat) (ws : List Word) : (d.reply id st data ws).mgmt = d.mgmt := by
  unfold Dev.reply; split <;> rfl
@[simp] theorem reply_jtag (id st data : Nat) (ws : List Word) : (d.reply id st data ws).jtag = d.jtag := by
  unfold Dev.reply; split <;> rfl
@[simp] theorem reply_dmc (id st data : Nat) (ws : List Word) : (d.reply id st data ws).dmc = d.dmc := by
  unfold Dev.reply; split <;> rfl
@[simp] theorem reply_warden (id st data : Nat) (ws : List Word) : (d.reply id st data ws).warden = d.warden := by
  unfold Dev.reply; split <;> rfl
@[simp] theorem reply_pitch (id st data : Nat) (ws : List Word) : (d.reply id st data ws).pitch = d.pitch := by
  unfold Dev.reply; split <;> rfl
@[simp] theorem reply_anchor (id st data : Nat) (ws : List Word) : (d.reply id st data ws).anchor = d.anchor := by
  unfold Dev.reply; split <;> rfl
@[simp] theorem reply_hostq (id st data : Nat) (ws : List Word) : (d.reply id st data ws).hostq = d.hostq := by
  unfold Dev.reply; split <;> rfl
@[simp] theorem reply_ledger (id st data : Nat) (ws : List Word) : (d.reply id st data ws).ledger = d.ledger := by
  unfold Dev.reply; split <;> rfl
@[simp] theorem reply_rope (id st data : Nat) (ws : List Word) : (d.reply id st data ws).rope = d.rope := by
  unfold Dev.reply; split <;> rfl
@[simp] theorem reply_map (id st data : Nat) (ws : List Word) : (d.reply id st data ws).map = d.map := by
  unfold Dev.reply; split <;> rfl
@[simp] theorem reply_jnl (id st data : Nat) (ws : List Word) : (d.reply id st data ws).jnl = d.jnl := by
  unfold Dev.reply; split <;> rfl
@[simp] theorem reply_links (id st data : Nat) (ws : List Word) : (d.reply id st data ws).links = d.links := by
  unfold Dev.reply; split <;> rfl
@[simp] theorem reply_claimX (id st data : Nat) (ws : List Word) : (d.reply id st data ws).claimX = d.claimX := by
  unfold Dev.reply; split <;> rfl
@[simp] theorem reply_media (id st data : Nat) (ws : List Word) : (d.reply id st data ws).media = d.media := by
  unfold Dev.reply; split <;> rfl
@[simp] theorem reply_stripe (id st data : Nat) (ws : List Word) : (d.reply id st data ws).stripe = d.stripe := by
  unfold Dev.reply; split <;> rfl
@[simp] theorem reply_tally (id st data : Nat) (ws : List Word) : (d.reply id st data ws).tally = d.tally := by
  unfold Dev.reply; split <;> rfl
@[simp] theorem reply_cairn (id st data : Nat) (ws : List Word) : (d.reply id st data ws).cairn = d.cairn := by
  unfold Dev.reply; split <;> rfl
@[simp] theorem reply_cls (id st data : Nat) (ws : List Word) : (d.reply id st data ws).cls = d.cls := by
  unfold Dev.reply; split <;> rfl
@[simp] theorem reply_swt (id st data : Nat) (ws : List Word) : (d.reply id st data ws).swt = d.swt := by
  unfold Dev.reply; split <;> rfl
@[simp] theorem reply_sch (id st data : Nat) (ws : List Word) : (d.reply id st data ws).sch = d.sch := by
  unfold Dev.reply; split <;> rfl
@[simp] theorem reply_xpt (id st data : Nat) (ws : List Word) : (d.reply id st data ws).xpt = d.xpt := by
  unfold Dev.reply; split <;> rfl
@[simp] theorem reply_stm (id st data : Nat) (ws : List Word) : (d.reply id st data ws).stm = d.stm := by
  unfold Dev.reply; split <;> rfl
@[simp] theorem reply_trans (id st data : Nat) (ws : List Word) : (d.reply id st data ws).trans = d.trans := by
  unfold Dev.reply; split <;> rfl
@[simp] theorem reply_cipher (id st data : Nat) (ws : List Word) : (d.reply id st data ws).cipher = d.cipher := by
  unfold Dev.reply; split <;> rfl
@[simp] theorem reply_belay (id st data : Nat) (ws : List Word) : (d.reply id st data ws).belay = d.belay := by
  unfold Dev.reply; split <;> rfl

/-! ### event -/

@[simp] theorem event_shadow (e : PEvent) : (d.event e).shadow = d.shadow := by
  unfold Dev.event; split <;> rfl
@[simp] theorem event_insts (e : PEvent) : (d.event e).insts = d.insts := by
  unfold Dev.event; split <;> rfl
@[simp] theorem event_asks (e : PEvent) : (d.event e).asks = d.asks := by
  unfold Dev.event; split <;> rfl
@[simp] theorem event_nextAsk (e : PEvent) : (d.event e).nextAsk = d.nextAsk := by
  unfold Dev.event; split <;> rfl
@[simp] theorem event_free (e : PEvent) : (d.event e).free = d.free := by
  unfold Dev.event; split <;> rfl
@[simp] theorem event_mem (e : PEvent) : (d.event e).mem = d.mem := by
  unfold Dev.event; split <;> rfl
@[simp] theorem event_camp (e : PEvent) : (d.event e).camp = d.camp := by
  unfold Dev.event; split <;> rfl
@[simp] theorem event_tim (e : PEvent) : (d.event e).tim = d.tim := by
  unfold Dev.event; split <;> rfl
@[simp] theorem event_spotter (e : PEvent) : (d.event e).spotter = d.spotter := by
  unfold Dev.event; split <;> rfl
@[simp] theorem event_mgmt (e : PEvent) : (d.event e).mgmt = d.mgmt := by
  unfold Dev.event; split <;> rfl
@[simp] theorem event_jtag (e : PEvent) : (d.event e).jtag = d.jtag := by
  unfold Dev.event; split <;> rfl
@[simp] theorem event_dmc (e : PEvent) : (d.event e).dmc = d.dmc := by
  unfold Dev.event; split <;> rfl
@[simp] theorem event_warden (e : PEvent) : (d.event e).warden = d.warden := by
  unfold Dev.event; split <;> rfl
@[simp] theorem event_anchor (e : PEvent) : (d.event e).anchor = d.anchor := by
  unfold Dev.event; split <;> rfl
@[simp] theorem event_hostq (e : PEvent) : (d.event e).hostq = d.hostq := by
  unfold Dev.event; split <;> rfl
@[simp] theorem event_ledger (e : PEvent) : (d.event e).ledger = d.ledger := by
  unfold Dev.event; split <;> rfl
@[simp] theorem event_rope (e : PEvent) : (d.event e).rope = d.rope := by
  unfold Dev.event; split <;> rfl
@[simp] theorem event_map (e : PEvent) : (d.event e).map = d.map := by
  unfold Dev.event; split <;> rfl
@[simp] theorem event_jnl (e : PEvent) : (d.event e).jnl = d.jnl := by
  unfold Dev.event; split <;> rfl
@[simp] theorem event_links (e : PEvent) : (d.event e).links = d.links := by
  unfold Dev.event; split <;> rfl
@[simp] theorem event_claimX (e : PEvent) : (d.event e).claimX = d.claimX := by
  unfold Dev.event; split <;> rfl
@[simp] theorem event_media (e : PEvent) : (d.event e).media = d.media := by
  unfold Dev.event; split <;> rfl
@[simp] theorem event_stripe (e : PEvent) : (d.event e).stripe = d.stripe := by
  unfold Dev.event; split <;> rfl
@[simp] theorem event_tally (e : PEvent) : (d.event e).tally = d.tally := by
  unfold Dev.event; split <;> rfl
@[simp] theorem event_cairn (e : PEvent) : (d.event e).cairn = d.cairn := by
  unfold Dev.event; split <;> rfl
@[simp] theorem event_cls (e : PEvent) : (d.event e).cls = d.cls := by
  unfold Dev.event; split <;> rfl
@[simp] theorem event_swt (e : PEvent) : (d.event e).swt = d.swt := by
  unfold Dev.event; split <;> rfl
@[simp] theorem event_sch (e : PEvent) : (d.event e).sch = d.sch := by
  unfold Dev.event; split <;> rfl
@[simp] theorem event_xpt (e : PEvent) : (d.event e).xpt = d.xpt := by
  unfold Dev.event; split <;> rfl
@[simp] theorem event_stm (e : PEvent) : (d.event e).stm = d.stm := by
  unfold Dev.event; split <;> rfl
@[simp] theorem event_trans (e : PEvent) : (d.event e).trans = d.trans := by
  unfold Dev.event; split <;> rfl
@[simp] theorem event_cipher (e : PEvent) : (d.event e).cipher = d.cipher := by
  unfold Dev.event; split <;> rfl
@[simp] theorem event_belay (e : PEvent) : (d.event e).belay = d.belay := by
  unfold Dev.event; split <;> rfl

/-! ### post -/

@[simp] theorem post_shadow (blk n code arg : Nat) : (d.post blk n code arg).shadow = d.shadow := by
  unfold Dev.post; dsimp only; split <;> rfl
@[simp] theorem post_insts (blk n code arg : Nat) : (d.post blk n code arg).insts = d.insts := by
  unfold Dev.post; dsimp only; split <;> rfl
@[simp] theorem post_asks (blk n code arg : Nat) : (d.post blk n code arg).asks = d.asks := by
  unfold Dev.post; dsimp only; split <;> rfl
@[simp] theorem post_nextAsk (blk n code arg : Nat) : (d.post blk n code arg).nextAsk = d.nextAsk := by
  unfold Dev.post; dsimp only; split <;> rfl
@[simp] theorem post_free (blk n code arg : Nat) : (d.post blk n code arg).free = d.free := by
  unfold Dev.post; dsimp only; split <;> rfl
@[simp] theorem post_dram (blk n code arg : Nat) : (d.post blk n code arg).mem.dram = d.mem.dram := by
  unfold Dev.post; dsimp only; split <;> rfl
@[simp] theorem post_scratch (blk n code arg : Nat) : (d.post blk n code arg).mem.scratch = d.mem.scratch := by
  unfold Dev.post; dsimp only; split <;> rfl
@[simp] theorem post_shared (blk n code arg : Nat) : (d.post blk n code arg).mem.shared = d.mem.shared := by
  unfold Dev.post; dsimp only; split <;> rfl
@[simp] theorem post_wlocal (blk n code arg : Nat) : (d.post blk n code arg).mem.wlocal = d.mem.wlocal := by
  unfold Dev.post; dsimp only; split <;> rfl
@[simp] theorem post_wcode (blk n code arg : Nat) : (d.post blk n code arg).mem.wcode = d.mem.wcode := by
  unfold Dev.post; dsimp only; split <;> rfl
@[simp] theorem post_pcode (blk n code arg : Nat) : (d.post blk n code arg).mem.pcode = d.mem.pcode := by
  unfold Dev.post; dsimp only; split <;> rfl
@[simp] theorem post_camp (blk n code arg : Nat) : (d.post blk n code arg).camp = d.camp := by
  unfold Dev.post; dsimp only; split <;> rfl
@[simp] theorem post_tim (blk n code arg : Nat) : (d.post blk n code arg).tim = d.tim := by
  unfold Dev.post; dsimp only; split <;> rfl
@[simp] theorem post_spotter (blk n code arg : Nat) : (d.post blk n code arg).spotter = d.spotter := by
  unfold Dev.post; dsimp only; split <;> rfl
@[simp] theorem post_mgmt (blk n code arg : Nat) : (d.post blk n code arg).mgmt = d.mgmt := by
  unfold Dev.post; dsimp only; split <;> rfl
@[simp] theorem post_jtag (blk n code arg : Nat) : (d.post blk n code arg).jtag = d.jtag := by
  unfold Dev.post; dsimp only; split <;> rfl
@[simp] theorem post_dmc (blk n code arg : Nat) : (d.post blk n code arg).dmc = d.dmc := by
  unfold Dev.post; dsimp only; split <;> rfl
@[simp] theorem post_pitch (blk n code arg : Nat) : (d.post blk n code arg).pitch = d.pitch := by
  unfold Dev.post; dsimp only; split <;> rfl
@[simp] theorem post_anchor (blk n code arg : Nat) : (d.post blk n code arg).anchor = d.anchor := by
  unfold Dev.post; dsimp only; split <;> rfl
@[simp] theorem post_hostq (blk n code arg : Nat) : (d.post blk n code arg).hostq = d.hostq := by
  unfold Dev.post; dsimp only; split <;> rfl
@[simp] theorem post_ledger (blk n code arg : Nat) : (d.post blk n code arg).ledger = d.ledger := by
  unfold Dev.post; dsimp only; split <;> rfl
@[simp] theorem post_rope (blk n code arg : Nat) : (d.post blk n code arg).rope = d.rope := by
  unfold Dev.post; dsimp only; split <;> rfl
@[simp] theorem post_map (blk n code arg : Nat) : (d.post blk n code arg).map = d.map := by
  unfold Dev.post; dsimp only; split <;> rfl
@[simp] theorem post_jnl (blk n code arg : Nat) : (d.post blk n code arg).jnl = d.jnl := by
  unfold Dev.post; dsimp only; split <;> rfl
@[simp] theorem post_links (blk n code arg : Nat) : (d.post blk n code arg).links = d.links := by
  unfold Dev.post; dsimp only; split <;> rfl
@[simp] theorem post_claimX (blk n code arg : Nat) : (d.post blk n code arg).claimX = d.claimX := by
  unfold Dev.post; dsimp only; split <;> rfl
@[simp] theorem post_media (blk n code arg : Nat) : (d.post blk n code arg).media = d.media := by
  unfold Dev.post; dsimp only; split <;> rfl
@[simp] theorem post_stripe (blk n code arg : Nat) : (d.post blk n code arg).stripe = d.stripe := by
  unfold Dev.post; dsimp only; split <;> rfl
@[simp] theorem post_tally (blk n code arg : Nat) : (d.post blk n code arg).tally = d.tally := by
  unfold Dev.post; dsimp only; split <;> rfl
@[simp] theorem post_cairn (blk n code arg : Nat) : (d.post blk n code arg).cairn = d.cairn := by
  unfold Dev.post; dsimp only; split <;> rfl
@[simp] theorem post_cls (blk n code arg : Nat) : (d.post blk n code arg).cls = d.cls := by
  unfold Dev.post; dsimp only; split <;> rfl
@[simp] theorem post_swt (blk n code arg : Nat) : (d.post blk n code arg).swt = d.swt := by
  unfold Dev.post; dsimp only; split <;> rfl
@[simp] theorem post_sch (blk n code arg : Nat) : (d.post blk n code arg).sch = d.sch := by
  unfold Dev.post; dsimp only; split <;> rfl
@[simp] theorem post_xpt (blk n code arg : Nat) : (d.post blk n code arg).xpt = d.xpt := by
  unfold Dev.post; dsimp only; split <;> rfl
@[simp] theorem post_stm (blk n code arg : Nat) : (d.post blk n code arg).stm = d.stm := by
  unfold Dev.post; dsimp only; split <;> rfl
@[simp] theorem post_trans (blk n code arg : Nat) : (d.post blk n code arg).trans = d.trans := by
  unfold Dev.post; dsimp only; split <;> rfl
@[simp] theorem post_cipher (blk n code arg : Nat) : (d.post blk n code arg).cipher = d.cipher := by
  unfold Dev.post; dsimp only; split <;> rfl
@[simp] theorem post_belay (blk n code arg : Nat) : (d.post blk n code arg).belay = d.belay := by
  unfold Dev.post; dsimp only; split <;> rfl

/-! ### setErr -/

@[simp] theorem setErr_shadow (blk n bit : Nat) : (d.setErr blk n bit).shadow = d.shadow := by
  unfold Dev.setErr; dsimp only; split <;> [rfl; (split <;> simp)]
@[simp] theorem setErr_asks (blk n bit : Nat) : (d.setErr blk n bit).asks = d.asks := by
  unfold Dev.setErr; dsimp only; split <;> [rfl; (split <;> simp)]
@[simp] theorem setErr_nextAsk (blk n bit : Nat) : (d.setErr blk n bit).nextAsk = d.nextAsk := by
  unfold Dev.setErr; dsimp only; split <;> [rfl; (split <;> simp)]
@[simp] theorem setErr_dram (blk n bit : Nat) : (d.setErr blk n bit).mem.dram = d.mem.dram := by
  unfold Dev.setErr; dsimp only; split <;> [rfl; (split <;> simp)]
@[simp] theorem setErr_scratch (blk n bit : Nat) : (d.setErr blk n bit).mem.scratch = d.mem.scratch := by
  unfold Dev.setErr; dsimp only; split <;> [rfl; (split <;> simp)]
@[simp] theorem setErr_shared (blk n bit : Nat) : (d.setErr blk n bit).mem.shared = d.mem.shared := by
  unfold Dev.setErr; dsimp only; split <;> [rfl; (split <;> simp)]
@[simp] theorem setErr_wlocal (blk n bit : Nat) : (d.setErr blk n bit).mem.wlocal = d.mem.wlocal := by
  unfold Dev.setErr; dsimp only; split <;> [rfl; (split <;> simp)]
@[simp] theorem setErr_wcode (blk n bit : Nat) : (d.setErr blk n bit).mem.wcode = d.mem.wcode := by
  unfold Dev.setErr; dsimp only; split <;> [rfl; (split <;> simp)]
@[simp] theorem setErr_pcode (blk n bit : Nat) : (d.setErr blk n bit).mem.pcode = d.mem.pcode := by
  unfold Dev.setErr; dsimp only; split <;> [rfl; (split <;> simp)]
@[simp] theorem setErr_camp (blk n bit : Nat) : (d.setErr blk n bit).camp = d.camp := by
  unfold Dev.setErr; dsimp only; split <;> [rfl; (split <;> simp)]
@[simp] theorem setErr_tim (blk n bit : Nat) : (d.setErr blk n bit).tim = d.tim := by
  unfold Dev.setErr; dsimp only; split <;> [rfl; (split <;> simp)]
@[simp] theorem setErr_spotter (blk n bit : Nat) : (d.setErr blk n bit).spotter = d.spotter := by
  unfold Dev.setErr; dsimp only; split <;> [rfl; (split <;> simp)]
@[simp] theorem setErr_mgmt (blk n bit : Nat) : (d.setErr blk n bit).mgmt = d.mgmt := by
  unfold Dev.setErr; dsimp only; split <;> [rfl; (split <;> simp)]
@[simp] theorem setErr_jtag (blk n bit : Nat) : (d.setErr blk n bit).jtag = d.jtag := by
  unfold Dev.setErr; dsimp only; split <;> [rfl; (split <;> simp)]
@[simp] theorem setErr_dmc (blk n bit : Nat) : (d.setErr blk n bit).dmc = d.dmc := by
  unfold Dev.setErr; dsimp only; split <;> [rfl; (split <;> simp)]
@[simp] theorem setErr_pitch (blk n bit : Nat) : (d.setErr blk n bit).pitch = d.pitch := by
  unfold Dev.setErr; dsimp only; split <;> [rfl; (split <;> simp)]
@[simp] theorem setErr_anchor (blk n bit : Nat) : (d.setErr blk n bit).anchor = d.anchor := by
  unfold Dev.setErr; dsimp only; split <;> [rfl; (split <;> simp)]
@[simp] theorem setErr_hostq (blk n bit : Nat) : (d.setErr blk n bit).hostq = d.hostq := by
  unfold Dev.setErr; dsimp only; split <;> [rfl; (split <;> simp)]
@[simp] theorem setErr_ledger (blk n bit : Nat) : (d.setErr blk n bit).ledger = d.ledger := by
  unfold Dev.setErr; dsimp only; split <;> [rfl; (split <;> simp)]
@[simp] theorem setErr_rope (blk n bit : Nat) : (d.setErr blk n bit).rope = d.rope := by
  unfold Dev.setErr; dsimp only; split <;> [rfl; (split <;> simp)]
@[simp] theorem setErr_map (blk n bit : Nat) : (d.setErr blk n bit).map = d.map := by
  unfold Dev.setErr; dsimp only; split <;> [rfl; (split <;> simp)]
@[simp] theorem setErr_jnl (blk n bit : Nat) : (d.setErr blk n bit).jnl = d.jnl := by
  unfold Dev.setErr; dsimp only; split <;> [rfl; (split <;> simp)]
@[simp] theorem setErr_links (blk n bit : Nat) : (d.setErr blk n bit).links = d.links := by
  unfold Dev.setErr; dsimp only; split <;> [rfl; (split <;> simp)]
@[simp] theorem setErr_claimX (blk n bit : Nat) : (d.setErr blk n bit).claimX = d.claimX := by
  unfold Dev.setErr; dsimp only; split <;> [rfl; (split <;> simp)]
@[simp] theorem setErr_media (blk n bit : Nat) : (d.setErr blk n bit).media = d.media := by
  unfold Dev.setErr; dsimp only; split <;> [rfl; (split <;> simp)]
@[simp] theorem setErr_stripe (blk n bit : Nat) : (d.setErr blk n bit).stripe = d.stripe := by
  unfold Dev.setErr; dsimp only; split <;> [rfl; (split <;> simp)]
@[simp] theorem setErr_tally (blk n bit : Nat) : (d.setErr blk n bit).tally = d.tally := by
  unfold Dev.setErr; dsimp only; split <;> [rfl; (split <;> simp)]
@[simp] theorem setErr_cairn (blk n bit : Nat) : (d.setErr blk n bit).cairn = d.cairn := by
  unfold Dev.setErr; dsimp only; split <;> [rfl; (split <;> simp)]
@[simp] theorem setErr_cls (blk n bit : Nat) : (d.setErr blk n bit).cls = d.cls := by
  unfold Dev.setErr; dsimp only; split <;> [rfl; (split <;> simp)]
@[simp] theorem setErr_swt (blk n bit : Nat) : (d.setErr blk n bit).swt = d.swt := by
  unfold Dev.setErr; dsimp only; split <;> [rfl; (split <;> simp)]
@[simp] theorem setErr_sch (blk n bit : Nat) : (d.setErr blk n bit).sch = d.sch := by
  unfold Dev.setErr; dsimp only; split <;> [rfl; (split <;> simp)]
@[simp] theorem setErr_xpt (blk n bit : Nat) : (d.setErr blk n bit).xpt = d.xpt := by
  unfold Dev.setErr; dsimp only; split <;> [rfl; (split <;> simp)]
@[simp] theorem setErr_stm (blk n bit : Nat) : (d.setErr blk n bit).stm = d.stm := by
  unfold Dev.setErr; dsimp only; split <;> [rfl; (split <;> simp)]
@[simp] theorem setErr_trans (blk n bit : Nat) : (d.setErr blk n bit).trans = d.trans := by
  unfold Dev.setErr; dsimp only; split <;> [rfl; (split <;> simp)]
@[simp] theorem setErr_cipher (blk n bit : Nat) : (d.setErr blk n bit).cipher = d.cipher := by
  unfold Dev.setErr; dsimp only; split <;> [rfl; (split <;> simp)]
@[simp] theorem setErr_belay (blk n bit : Nat) : (d.setErr blk n bit).belay = d.belay := by
  unfold Dev.setErr; dsimp only; split <;> [rfl; (split <;> simp)]

end Sys2Proof.Laws
end

