-- ==== Sys2Proof/Laws/Regs.lean ====
section
/-! SUPPORT. Laws of bit fields and of the register file: a field reads back as it was set, other fields stay. -/

namespace Sys2Proof.Laws

open Sys2Proof.Machine

theorem getLsbD_setField (w : Word) (hi lo v i : Nat) (hi64 : hi < 64) :
    (setField w hi lo v).getLsbD i =
      if lo ≤ i ∧ i < lo + (hi - lo + 1) ∧ i < 64 then v.testBit (i - lo) else w.getLsbD i := by
  simp only [setField, BitVec.getLsbD_or, BitVec.getLsbD_and, BitVec.getLsbD_not, BitVec.getLsbD_ofNat,
    Nat.testBit_mul_two_pow, Nat.testBit_two_pow_sub_one]
  generalize hk : hi - lo + 1 = k
  split
  · next h =>
    have : i - lo < k := by omega
    simp [h.1, h.2.2, this]
  · next h =>
    by_cases h3 : i < 64
    · by_cases h1 : lo ≤ i
      · have : ¬ i - lo < k := by omega
        simp [h1, h3, this]
      · simp [h1, h3]
    · have : w.getLsbD i = false := BitVec.getLsbD_of_ge w i (by omega)
      simp [h3, this]

theorem field_testBit (w : Word) (hi lo i : Nat) :
    (field w hi lo).testBit i = (decide (i < hi - lo + 1) && w.getLsbD (lo + i)) := by
  simp only [field, bitsOf, Nat.testBit_mod_two_pow, Nat.testBit_div_two_pow, BitVec.getLsbD]
  rw [Nat.add_comm i lo]

/-- A field reads back as it was set, cut to its width. -/
theorem field_setField (w : Word) (hi lo v : Nat) (h : lo ≤ hi) (hi64 : hi < 64) :
    field (setField w hi lo v) hi lo = v % 2 ^ (hi - lo + 1) := by
  apply Nat.eq_of_testBit_eq
  intro i
  rw [field_testBit, getLsbD_setField _ _ _ _ _ hi64, Nat.testBit_mod_two_pow]
  by_cases hi' : i < hi - lo + 1
  · simp [hi', show lo + i < lo + (hi - lo + 1) by omega, show lo + i < 64 by omega]
  · simp [hi']

/-- A field apart from the one set stays. -/
theorem field_setField_other (w : Word) (hi lo v h2 l2 : Nat) (hi64 : hi < 64) (hl : lo ≤ hi) (hl2 : l2 ≤ h2)
    (h : h2 < lo ∨ hi < l2) : field (setField w hi lo v) h2 l2 = field w h2 l2 := by
  apply Nat.eq_of_testBit_eq
  intro i
  rw [field_testBit, field_testBit, getLsbD_setField _ _ _ _ _ hi64]
  by_cases hi' : i < h2 - l2 + 1
  · simp only [hi', decide_true, Bool.true_and]
    rw [if_neg (by omega)]
  · simp [hi']

theorem field_lt (w : Word) (hi lo : Nat) : field w hi lo < 2 ^ (hi - lo + 1) := Nat.mod_lt _ (by positivity)

variable (d : Dev)

/-- A field reads back as the device set it, cut to its width. -/
theorem fget_fset (f : FRef) (v n : Nat) (h : f.lo ≤ f.hi) (h64 : f.hi < 64) :
    (d.fset f v n).fget f n = v % 2 ^ (f.hi - f.lo + 1) := by
  simp [Dev.fget, Dev.fset, Dev.reg, Dev.setReg, field_setField _ _ _ _ h h64]

/-- A field of another register, or a field apart from it in the same register, stays. -/
theorem fget_fset_other (f g : FRef) (v n m : Nat) (h : f.lo ≤ f.hi) (h64 : f.hi < 64) (hg : g.lo ≤ g.hi)
    (hne : regAddr g.blk m g.off ≠ regAddr f.blk n f.off ∨ g.hi < f.lo ∨ f.hi < g.lo) :
    (d.fset f v n).fget g m = d.fget g m := by
  simp only [Dev.fget, Dev.fset, Dev.reg, Dev.setReg]
  by_cases ha : regAddr g.blk m g.off = regAddr f.blk n f.off
  · rw [ha, get_set_self, field_setField_other _ _ _ _ _ _ h64 h hg (by tauto)]
  · rw [get_set_other _ _ _ _ ha]

/-- A register other than the written one stays. -/
theorem reg_setReg_other (b n o : Nat) (v : Word) (b' n' o' : Nat) (h : regAddr b' n' o' ≠ regAddr b n o) :
    (d.setReg b n o v).reg b' n' o' = d.reg b' n' o' := get_set_other _ _ _ _ h

@[simp] theorem reg_setReg_self (b n o : Nat) (v : Word) : (d.setReg b n o v).reg b n o = v := get_set_self _ _ _

/-- Registers keep their canonical form under a write. -/
theorem setReg_wf (b n o : Nat) (v : Word) (h : d.regs.wf = true) : (d.setReg b n o v).regs.wf = true := set_wf _ _ _ h

theorem fset_wf (f : FRef) (v n : Nat) (h : d.regs.wf = true) : (d.fset f v n).regs.wf = true := set_wf _ _ _ h

/-! ### Headers -/

@[simp] theorem inst_setInst_self (b n : Nat) (i : Inst) : (d.setInst b n i).inst b n = i := by
  simp [Dev.inst, Dev.setInst]

theorem inst_setInst_other (b n : Nat) (i : Inst) (b' n' : Nat) (h : instKey b' n' ≠ instKey b n) :
    (d.setInst b n i).inst b' n' = d.inst b' n' := by
  simp [Dev.inst, Dev.setInst, look_put_other _ _ _ _ h]

@[simp] theorem inst_modInst_self (b n : Nat) (g : Inst → Inst) : (d.modInst b n g).inst b n = g (d.inst b n) := by
  simp [Dev.modInst]

@[simp] theorem inst_fset (f : FRef) (v n b m : Nat) : (d.fset f v n).inst b m = d.inst b m := rfl

/-! ### Answers to asks -/

/-- The answer of an ask in flight is recorded. -/
theorem reply_look (id st data : Nat) (ws : List Word) (a : Ask) (h : Tab.look d.asks id = some a) :
    Tab.look (d.reply id st data ws).asks id = some { a with answer := some (statusWord st data, ws) } := by
  simp [Dev.reply, h]

/-- Every other ask stays. -/
theorem reply_look_other (id st data j : Nat) (ws : List Word) (h : j ≠ id) :
    Tab.look (d.reply id st data ws).asks j = Tab.look d.asks j := by
  unfold Dev.reply
  split
  · simp [look_put_other _ _ _ _ h]
  · rfl

/-- A call is served only when it is in flight, names that accelerator and code, and has no answer yet. -/
theorem serve_eq (id accel code : Nat) (f : Ask → Dev → Dev) (a : Ask) (h : Tab.look d.asks id = some a)
    (h1 : a.accel = accel) (h2 : a.code = code) (h3 : a.answer = none) : d.serve id accel code f = f a d := by
  simp [Dev.serve, h, h1, h2, h3]

end Sys2Proof.Laws
end

