-- ==== Sys2Proof/Laws/Block.lean ====
section
/-! SUPPORT. Laws of the header and of generations: what setting an error, retargeting a power domain and activating a
shadow leave of a header, and that no two fields of a register overlap. -/

namespace Sys2Proof.Laws

open Sys2Proof.Machine

theorem put_put {α : Type} (t : Tab α) (a : Nat) (v w : α) : Tab.put (Tab.put t a v) a w = Tab.put t a w := by
  induction t with
  | nil => simp [Tab.put]
  | cons p t ih =>
    obtain ⟨k, x⟩ := p
    simp only [Tab.put]
    split
    · next h => subst h; simp [Tab.put]
    · split
      · simp [Tab.put]
      · next h h2 => simp [Tab.put, h, h2, ih]

variable (d : Dev)

@[simp] theorem setInst_setInst (b n : Nat) (i j : Inst) : (d.setInst b n i).setInst b n j = d.setInst b n j := by
  simp [Dev.setInst, put_put]

theorem modInst_eq (b n : Nat) (f : Inst → Inst) : d.modInst b n f = d.setInst b n (f (d.inst b n)) := rfl

/-- Setting an error changes nothing of a header but BLK_ERR. -/
theorem setErr_inst (b n k : Nat) :
    (d.setErr b n k).inst b n = { d.inst b n with err := ((d.setErr b n k).inst b n).err } := by
  unfold Dev.setErr
  dsimp only
  split
  · rfl
  · split
    · simp
    · simp only [Dev.inst, post_insts, takeFree_insts]
      simp [Dev.modInst, Dev.setInst, Dev.inst]

/-- The error is set. -/
theorem setErr_bit (b n k : Nat) (hk : k < 64) : ((d.setErr b n k).inst b n).err.getLsbD k = true := by
  have hb : (BitVec.ofNat 64 (2 ^ k)).getLsbD k = true := by
    rw [BitVec.getLsbD_ofNat]; simp [hk, Nat.testBit_two_pow_self]
  have h1 : ((d.modInst b n fun i => { i with err := i.err ||| BitVec.ofNat 64 (2 ^ k) }).inst b n).err.getLsbD k = true := by
    rw [inst_modInst_self, BitVec.getLsbD_or, hb, Bool.or_true]
  unfold Dev.setErr
  dsimp only
  split
  · assumption
  · split
    · exact h1
    · simp only [Dev.inst, post_insts, takeFree_insts] at h1 ⊢
      exact h1

/-- Every other header stays. -/
theorem setErr_inst_other (b n k b' n' : Nat) (h : instKey b' n' ≠ instKey b n) :
    (d.setErr b n k).inst b' n' = d.inst b' n' := by
  unfold Dev.setErr
  dsimp only
  split
  · rfl
  · split
    · exact inst_setInst_other _ _ _ _ _ _ h
    · simp only [Dev.inst, post_insts, takeFree_insts]
      exact inst_setInst_other _ _ _ _ _ _ h

theorem post_inst (b n c a b' n' : Nat) : (d.post b n c a).inst b' n' = d.inst b' n' := by simp [Dev.inst]

/-- A domain's new target changes nothing of a header but CAMP's BLK_ERR. -/
theorem retarget_inst (k b n : Nat) :
    (d.retarget k).inst b n = { d.inst b n with err := ((d.retarget k).inst b n).err } := by
  unfold Dev.retarget
  dsimp only
  split
  · rw [post_inst]
    generalize he : d.setDom k _ = e
    have hi : d.inst b n = e.inst b n := by rw [← he]; rfl
    rw [hi]
    by_cases h : instKey b n = instKey 0 0
    · obtain ⟨rfl, rfl⟩ : b = 0 ∧ n = 0 := by simp [instKey] at h; omega
      exact setErr_inst e 0 0 8
    · rw [setErr_inst_other _ _ _ _ _ _ h]
  · rfl

theorem updatePlls_inst (b n : Nat) : d.updatePlls.inst b n = d.inst b n := rfl

theorem retargetAll_inst (ks : List Nat) (b n : Nat) :
    (d.retargetAll ks).inst b n = { d.inst b n with err := ((d.retargetAll ks).inst b n).err } := by
  unfold Dev.retargetAll
  rw [updatePlls_inst]
  induction ks generalizing d with
  | nil => rfl
  | cons k ks ih => rw [List.foldl_cons, ih, retarget_inst]

/-- The headers of every block but CAMP stay. -/
theorem retargetAll_inst_other (ks : List Nat) (b n : Nat) (h : instKey b n ≠ instKey 0 0) :
    (d.retargetAll ks).inst b n = d.inst b n := by
  unfold Dev.retargetAll
  rw [updatePlls_inst]
  induction ks generalizing d with
  | nil => rfl
  | cons k ks ih =>
    rw [List.foldl_cons, ih]
    unfold Dev.retarget
    dsimp only
    split
    · rw [post_inst, setErr_inst_other _ _ _ _ _ _ h]; rfl
    · rfl

/-- Activating a shadow touches registers only. -/
theorem activateShadow_eq (b n : Nat) : d.activateShadow b n = { d with regs := (d.activateShadow b n).regs } := by
  have : ∀ (l : List (Nat × Word)) (d : Dev),
      let e := l.foldl (fun (d : Dev) (p : Nat × Word) =>
        { d with regs := d.regs.set p.1 ((d.regs.get p.1 &&& ~~~p.2) ||| (d.shadow.get p.1 &&& p.2)) }) d
      e = { d with regs := e.regs } := by
    intro l
    induction l with
    | nil => intro d; rfl
    | cons x l ih => intro d; dsimp only [List.foldl_cons]; rw [ih]
  exact this _ _

theorem activateShadow_inst (b n b' n' : Nat) : (d.activateShadow b n).inst b' n' = d.inst b' n' := by
  rw [activateShadow_eq]; rfl

/-- The fields of every register lie in the register, apart from each other, and their reset values fit. -/
theorem rows_fields : ∀ blk < 0x1D, ∀ r ∈ rowsOf blk,
    r.flds.Pairwise (fun f g => f.hi < g.lo ∨ g.hi < f.lo) ∧
      ∀ f ∈ r.flds, f.lo ≤ f.hi ∧ f.hi < 64 ∧ f.rst < 2 ^ (f.hi - f.lo + 1) := by
  decide +kernel

end Sys2Proof.Laws
end

