-- ==== Sys2Proof/Laws/Run.lean ====
section
/-! SUPPORT. What running a command comes to: its effect on the device while it runs, and nothing otherwise. -/

namespace Sys2Proof.Laws

open Sys2Proof.Machine

theorem upd_live (s : State) (f : Dev → Dev) (h : s.live = true) : s.upd f = .next { s with dev := f s.dev } := by
  simp [State.upd, h]

theorem upd_dead (s : State) (f : Dev → Dev) (h : s.live = false) : s.upd f = .next s := by simp [State.upd, h]

theorem act_live (s : State) (f : Dev → Dev) (h : s.live = true) :
    s.act f = .next { s with dev := (f s.dev).settle } := by simp [State.act, upd_live _ _ h]

theorem act_dead (s : State) (f : Dev → Dev) (h : s.live = false) : s.act f = .next s := upd_dead _ _ h

theorem tap_powered (s : State) (f : Dev → Dev) (h : s.hard.pwrGood = true) : s.tap f = .next { s with dev := f s.dev } := by
  simp [State.tap, h]

/-- A command whose meaning is one change of the device runs as that change does. -/
theorem runs_of_upd (c : Instr) (s : State) (f : Dev → Dev) (Q : Dev → Prop) (he : exec c s = s.upd f)
    (h : s.live = true) (hq : Q (f s.dev)) : Runs c s Q := ⟨f s.dev, by rw [he, upd_live _ _ h], hq⟩

/-- The same, for a command after which the device settles. -/
theorem acts_of_act (c : Instr) (s : State) (f : Dev → Dev) (Q : Dev → Prop) (he : exec c s = s.act f)
    (h : s.live = true) (hq : Q (f s.dev)) : Acts c s Q := ⟨f s.dev, by rw [he, act_live _ _ h], hq⟩

end Sys2Proof.Laws
end

