-- ==== Sys2Proof/Laws/Cerri.lean ====
section
/-! SUPPORT. What issuing an instruction comes to when it is ready, and what a trap entry leaves. -/

namespace Sys2Proof.Laws

open Sys2Proof.Machine

variable (d : Dev)

/-- An instruction that is ready counts its slots and takes its own effect. -/
theorem issue_ready (who : Agent) (op : Nat) (m : Mach) (c : CWord) (body : Mach → CWord → Dev → Flow)
    (h : d.ready who op m c = true) : d.issue who op false body = (d.paid m c).finish m (body m c (d.paid m c)) := by
  simp only [Dev.ready, Bool.and_eq_true, decide_eq_true_eq, Bool.or_eq_true] at h
  obtain ⟨⟨⟨⟨⟨⟨h1, h2⟩, h3⟩, h4⟩, h5⟩, h6⟩, h7⟩ := h
  obtain ⟨w, hw, rfl⟩ := Option.map_eq_some_iff.1 h2
  have hp : (!m.priv && privOp (cword w).op) = false := by
    rcases h6 with h6 | h6
    · simp [h6]
    · cases h : privOp (cword w).op <;> simp_all
  have hc : m.cost (some w) = (cword w).slots (m.rd (cword w).sa) := by simp [Mach.cost, h5]
  subst h3
  simp only [Dev.issue, h1, hw, Option.getD_some, Option.isSome_some, ne_eq, not_true, decide_false, Bool.and_false, hc, h7,
    h4, h5, hp, Dev.paid]
  rfl

/-- What an arithmetic instruction that is ready does. -/
theorem alu_ready (who : Agent) (op : Nat) (m : Mach) (c : CWord) (f : Word → Word → Word)
    (h : d.ready who op m c = true) :
    d.alu who op false f = (d.paid m c).setCpu m (m.cpu.wr c.dst (f (m.rd c.sa) (c.operand (m.rd c.sb)))).fall := by
  rw [Dev.alu, issue_ready _ _ _ _ _ _ h]; rfl

/-- Counting slots touches the thread alone. -/
theorem paid_eq (m : Mach) (c : CWord) : d.paid m c = { d with pitch := (d.paid m c).pitch } := by
  unfold Dev.paid Dev.spend
  split <;> rfl

@[simp] theorem paid_mem (m : Mach) (c : CWord) : (d.paid m c).mem = d.mem := by rw [paid_eq]

/-- A core has no budget to count against. -/
theorem paid_priv (m : Mach) (c : CWord) (h : m.priv = true) : d.paid m c = d := by simp [Dev.paid, Dev.spend, h]

/-- The machine of a core is that core. -/
theorem machine_warden (n : Nat) (m : Mach) (h : d.machine (.warden n) = some m) :
    m.priv = true ∧ m.num = n ∧ m.cpu = (d.core n).cpu := by
  simp only [Dev.machine] at h
  split at h
  · obtain rfl := Option.some.inj h; exact ⟨rfl, rfl, rfl⟩
  · cases h

/-- The machine of a thread is that thread. -/
theorem machine_pitch (n : Nat) (m : Mach) (h : d.machine (.pitch n) = some m) :
    m.priv = false ∧ m.num = n ∧ m.cpu = (d.thread n).cpu := by
  simp only [Dev.machine] at h
  split at h
  · cases h
  · split at h
    · cases h
    · obtain rfl := Option.some.inj h; exact ⟨rfl, rfl, rfl⟩

theorem machine_of_ready (who : Agent) (op : Nat) (m : Mach) (c : CWord) (h : d.ready who op m c = true) :
    d.machine who = some m := by
  simp only [Dev.ready, Bool.and_eq_true, decide_eq_true_eq] at h
  exact h.1.1.1.1.1.1

@[simp] theorem core_setCore_self (n : Nat) (c : Core) : (d.setCore n c).core n = c := by
  simp [Dev.core, Dev.setCore]

theorem core_setCore_other (n j : Nat) (c : Core) (h : j ≠ n) : (d.setCore n c).core j = d.core j := by
  simp [Dev.core, Dev.setCore, look_put_other _ _ _ _ h]

@[simp] theorem thread_setThread_self (n : Nat) (t : Thread) : (d.setThread n t).thread n = t := by
  simp [Dev.thread, Dev.setThread]

theorem thread_setThread_other (n j : Nat) (t : Thread) (h : j ≠ n) : (d.setThread n t).thread j = d.thread j := by
  simp [Dev.thread, Dev.setThread, look_put_other _ _ _ _ h]

end Sys2Proof.Laws
end

