-- ==== Sys2Proof/Laws/Exec.lean ====
section
/-! SUPPORT. What each command comes to: one change of the device while it runs, with or without what follows at once. -/

namespace Sys2Proof.Laws

open Sys2Proof.Machine

variable (s : State)

/-! ### Block -/

theorem exec_regWrite (who : Path) (addr : Nat) (value : Word) : exec (.regWrite who addr value) s =
    s.act fun d => d.writeBus who addr value := rfl
theorem exec_regReadClear (who : Path) (addr : Nat) : exec (.regReadClear who addr) s =
    s.upd fun d => (d.readBus who addr).2 := rfl
theorem exec_badAccess (addr width : Nat) : exec (.badAccess addr width) s =
    s.upd fun d => d.badBus addr width := rfl
theorem exec_blockEnable (blk n : Nat) : exec (.blockEnable blk n) s =
    s.upd fun d => d.onInst blk n fun d => d.blockEnable blk n := rfl
theorem exec_consistencyCheckEnd (blk n : Nat) (o : CheckObs) : exec (.consistencyCheckEnd blk n o) s =
    s.act fun d => d.onInst blk n fun d => d.checkEnd blk n o := rfl
theorem exec_blockDisable (blk n : Nat) : exec (.blockDisable blk n) s =
    s.act fun d => d.onInst blk n fun d => d.blockDisable blk n := rfl
theorem exec_blockDisableDone (blk n : Nat) : exec (.blockDisableDone blk n) s =
    s.act fun d => d.onInst blk n fun d => d.blockDisableDone blk n := rfl
theorem exec_blockDrain (blk n : Nat) (drain : Bool) : exec (.blockDrain blk n drain) s =
    s.upd fun d => d.onInst blk n fun d => d.blockDrain blk n drain := rfl
theorem exec_drained (blk n : Nat) : exec (.drained blk n) s =
    s.upd fun d => d.onInst blk n fun d => d.blockDrained blk n := rfl
theorem exec_genSwapRequest (blk n : Nat) : exec (.genSwapRequest blk n) s =
    s.upd fun d => d.onInst blk n fun d => d.swapRequest blk n := rfl
theorem exec_genSwapCheckEnd (blk n : Nat) (o : CheckObs) : exec (.genSwapCheckEnd blk n o) s =
    s.act fun d => d.onInst blk n fun d => d.swapCheckEnd blk n o := rfl
theorem exec_genSwapTake (blk n : Nat) : exec (.genSwapTake blk n) s =
    s.act fun d => d.onInst blk n fun d => d.swapTake blk n := rfl
theorem exec_genDiscard (blk n : Nat) : exec (.genDiscard blk n) s =
    s.upd fun d => d.onInst blk n fun d => d.genDiscard blk n := rfl
theorem exec_genRelease (blk n gen : Nat) : exec (.genRelease blk n gen) s =
    s.act fun d => d.onInst blk n fun d => d.genRelease blk n gen := rfl

/-! ### Reset -/

theorem exec_coldReset (unitId bootMode : Nat) (resetLow : Bool) : exec (.coldReset unitId bootMode resetLow) s =
    s.coldReset unitId bootMode resetLow := rfl
theorem exec_pinReset (ns : Nat) : exec (.pinReset ns) s = s.pinReset ns := rfl
theorem exec_warmReset (key : Nat) : exec (.warmReset key) s = s.upd fun d => d.warmRequest key := rfl
theorem exec_wdogExpiry : exec .wdogExpiry s = s.upd fun d => d.wdogExpire := rfl
theorem exec_wdogKick (ms : Nat) (kick : Bool) : exec (.wdogKick ms kick) s =
    s.upd fun d => d.wdogWrite ms kick := rfl
theorem exec_pwrGoodFall (burnt : Bool) : exec (.pwrGoodFall burnt) s = s.powerFall burnt := rfl
theorem exec_resetNRise (unitId bootMode : Nat) : exec (.resetNRise unitId bootMode) s =
    s.resetRise unitId bootMode := rfl

/-! ### Manage -/

theorem exec_anchorBoot (flash : List Byte) (senseBad : Bool) : exec (.anchorBoot flash senseBad) s =
    s.upd fun d => d.anchorBoot s.hard flash senseBad := rfl
theorem exec_mgmtRcvData (value : Word) : exec (.mgmtRcvData value) s = s.upd fun d => d.rcvData value := rfl
theorem exec_mgmtRcvBoot : exec .mgmtRcvBoot s = s.upd fun d => d.rcvBoot := rfl
theorem exec_wardenMailboxWrite (value : Word) : exec (.wardenMailboxWrite value) s =
    s.upd fun d => d.mboxWrite value := rfl
theorem exec_coreRun (core : Nat) (run : Bool) : exec (.coreRun core run) s =
    s.upd fun d => d.coreRun core run := rfl
theorem exec_rasRequest (ip port dst dport : Nat) (req : List Byte) : exec (.rasRequest ip port dst dport req) s =
    s.act fun d => d.rasRequest ip port dst dport req := rfl
theorem exec_rasMemoryExpiry (who : Path) (source : Nat) : exec (.rasMemoryExpiry who source) s =
    s.upd fun d => d.rasExpiry who source := rfl
theorem exec_nvmeMiVendorC0 (eid : Nat) (overLane : Bool) (req : List Byte) : exec (.nvmeMiVendorC0 eid overLane req) s =
    s.act fun d => d.nvmeMi eid overLane req := rfl

/-! ### CerriArith -/

theorem exec_add (who : Agent) (ecc : Bool) : exec (.add who ecc) s =
    s.upd fun d => d.alu who 0x01 ecc fun a b => a + b := rfl
theorem exec_sub (who : Agent) (ecc : Bool) : exec (.sub who ecc) s =
    s.upd fun d => d.alu who 0x02 ecc fun a b => a - b := rfl
theorem exec_mul (who : Agent) (ecc : Bool) : exec (.mul who ecc) s =
    s.upd fun d => d.alu who 0x03 ecc fun a b => a * b := rfl
theorem exec_mulhu (who : Agent) (ecc : Bool) : exec (.mulhu who ecc) s =
    s.upd fun d => d.alu who 0x04 ecc fun a b => BitVec.ofNat 64 (a.toNat * b.toNat / 2 ^ 64) := rfl
theorem exec_and (who : Agent) (ecc : Bool) : exec (.and who ecc) s =
    s.upd fun d => d.alu who 0x05 ecc fun a b => a &&& b := rfl
theorem exec_or (who : Agent) (ecc : Bool) : exec (.or who ecc) s =
    s.upd fun d => d.alu who 0x06 ecc fun a b => a ||| b := rfl
theorem exec_xor (who : Agent) (ecc : Bool) : exec (.xor who ecc) s =
    s.upd fun d => d.alu who 0x07 ecc fun a b => a ^^^ b := rfl
theorem exec_andn (who : Agent) (ecc : Bool) : exec (.andn who ecc) s =
    s.upd fun d => d.alu who 0x08 ecc fun a b => a &&& ~~~b := rfl
theorem exec_shl (who : Agent) (ecc : Bool) : exec (.shl who ecc) s =
    s.upd fun d => d.alu who 0x09 ecc fun a b => a <<< (b.toNat % 64) := rfl
theorem exec_shr (who : Agent) (ecc : Bool) : exec (.shr who ecc) s =
    s.upd fun d => d.alu who 0x0A ecc fun a b => a >>> (b.toNat % 64) := rfl
theorem exec_sar (who : Agent) (ecc : Bool) : exec (.sar who ecc) s =
    s.upd fun d => d.alu who 0x0B ecc fun a b => a.sshiftRight (b.toNat % 64) := rfl
theorem exec_ror (who : Agent) (ecc : Bool) : exec (.ror who ecc) s =
    s.upd fun d => d.alu who 0x0C ecc fun a b => rotRight a (b.toNat % 64) := rfl
theorem exec_minu (who : Agent) (ecc : Bool) : exec (.minu who ecc) s =
    s.upd fun d => d.alu who 0x0D ecc fun a b => if a < b then a else b := rfl
theorem exec_maxu (who : Agent) (ecc : Bool) : exec (.maxu who ecc) s =
    s.upd fun d => d.alu who 0x0E ecc fun a b => if b < a then a else b := rfl
theorem exec_clz (who : Agent) (ecc : Bool) : exec (.clz who ecc) s =
    s.upd fun d => d.alu who 0x0F ecc fun a _ => BitVec.ofNat 64 (leadingZeros a) := rfl
theorem exec_popc (who : Agent) (ecc : Bool) : exec (.popc who ecc) s =
    s.upd fun d => d.alu who 0x10 ecc fun a _ => BitVec.ofNat 64 (oneBits a) := rfl
theorem exec_bext (who : Agent) (ecc : Bool) : exec (.bext who ecc) s =
    s.upd fun d => d.issue who 0x11 ecc fun m c d => .fall (m.cpu.wr c.dst (bitExtract (m.rd c.sa) c.bitLo c.bitW)) d := rfl
theorem exec_bins (who : Agent) (ecc : Bool) : exec (.bins who ecc) s =
    s.upd fun d => d.issue who 0x12 ecc fun m c d => .fall (m.cpu.wr c.dst (bitInsert (m.rd c.dst) (m.rd c.sa) c.bitLo c.bitW)) d := rfl
theorem exec_crc32c (who : Agent) (ecc : Bool) : exec (.crc32c who ecc) s =
    s.upd fun d => d.alu who 0x14 ecc fun a b => crcUpdate a b := rfl
theorem exec_bswap (who : Agent) (ecc : Bool) : exec (.bswap who ecc) s =
    s.upd fun d => d.alu who 0x15 ecc fun a _ => reverseBytes a := rfl
theorem exec_cmpeq (who : Agent) (ecc : Bool) : exec (.cmpeq who ecc) s =
    s.upd fun d => d.alu who 0x18 ecc fun a b => truth (a == b) := rfl
theorem exec_cmpne (who : Agent) (ecc : Bool) : exec (.cmpne who ecc) s =
    s.upd fun d => d.alu who 0x19 ecc fun a b => truth (a != b) := rfl
theorem exec_cmpltu (who : Agent) (ecc : Bool) : exec (.cmpltu who ecc) s =
    s.upd fun d => d.alu who 0x1A ecc fun a b => truth (a.ult b) := rfl
theorem exec_cmplt (who : Agent) (ecc : Bool) : exec (.cmplt who ecc) s =
    s.upd fun d => d.alu who 0x1B ecc fun a b => truth (a.slt b) := rfl
theorem exec_cmpgeu (who : Agent) (ecc : Bool) : exec (.cmpgeu who ecc) s =
    s.upd fun d => d.alu who 0x1C ecc fun a b => truth (!a.ult b) := rfl
theorem exec_cmpge (who : Agent) (ecc : Bool) : exec (.cmpge who ecc) s =
    s.upd fun d => d.alu who 0x1D ecc fun a b => truth (!a.slt b) := rfl
theorem exec_tst (who : Agent) (ecc : Bool) : exec (.tst who ecc) s =
    s.upd fun d => d.alu who 0x1E ecc fun a b => truth (a &&& b != 0) := rfl

/-! ### CerriMem -/

theorem exec_ld (who : Agent) (ecc : Bool) : exec (.ld who ecc) s = s.upd fun d => d.loadOp who 0x30 ecc := rfl
theorem exec_ldw (who : Agent) (ecc : Bool) : exec (.ldw who ecc) s =
    s.upd fun d => d.loadOp who 0x31 ecc := rfl
theorem exec_ldh (who : Agent) (ecc : Bool) : exec (.ldh who ecc) s =
    s.upd fun d => d.loadOp who 0x32 ecc := rfl
theorem exec_ldb (who : Agent) (ecc : Bool) : exec (.ldb who ecc) s =
    s.upd fun d => d.loadOp who 0x33 ecc := rfl
theorem exec_st (who : Agent) (ecc : Bool) : exec (.st who ecc) s = s.upd fun d => d.storeOp who 0x34 ecc := rfl
theorem exec_stw (who : Agent) (ecc : Bool) : exec (.stw who ecc) s =
    s.upd fun d => d.storeOp who 0x35 ecc := rfl
theorem exec_sth (who : Agent) (ecc : Bool) : exec (.sth who ecc) s =
    s.upd fun d => d.storeOp who 0x36 ecc := rfl
theorem exec_stb (who : Agent) (ecc : Bool) : exec (.stb who ecc) s =
    s.upd fun d => d.storeOp who 0x37 ecc := rfl
theorem exec_ldd (who : Agent) (ecc : Bool) : exec (.ldd who ecc) s = s.upd fun d => d.lddOp who ecc := rfl
theorem exec_ldc (who : Agent) (ecc : Bool) : exec (.ldc who ecc) s = s.upd fun d => d.ldcOp who ecc := rfl
theorem exec_amoadd (who : Agent) (ecc : Bool) : exec (.amoadd who ecc) s =
    s.upd fun d => d.atomic who 0x3A ecc fun old b _ => old + b := rfl
theorem exec_cas (who : Agent) (ecc : Bool) : exec (.cas who ecc) s =
    s.upd fun d => d.atomic who 0x3B ecc fun old b dst => if old = dst then b else old := rfl

/-! ### CerriFlow -/

theorem exec_br (who : Agent) (ecc : Bool) : exec (.br who ecc) s = s.upd fun d => d.brOp who ecc := rfl
theorem exec_jal (who : Agent) (ecc : Bool) : exec (.jal who ecc) s = s.upd fun d => d.jalOp who ecc := rfl
theorem exec_ret (who : Agent) (ecc : Bool) : exec (.ret who ecc) s = s.upd fun d => d.retOp who ecc := rfl
theorem exec_jt (who : Agent) (ecc : Bool) : exec (.jt who ecc) s = s.upd fun d => d.jtOp who ecc := rfl
theorem exec_loop (who : Agent) (ecc : Bool) : exec (.loop who ecc) s = s.upd fun d => d.loopOp who ecc := rfl
theorem exec_done (who : Agent) (ecc : Bool) : exec (.done who ecc) s = s.upd fun d => d.doneOp who ecc := rfl
theorem exec_fault (who : Agent) (ecc : Bool) : exec (.fault who ecc) s =
    s.upd fun d => d.faultOp who ecc := rfl
theorem exec_nop (who : Agent) (ecc : Bool) : exec (.nop who ecc) s =
    s.upd fun d => d.issue who 0x47 ecc fun m _ d => .fall m.cpu d := rfl
theorem exec_ask (who : Agent) (ecc : Bool) : exec (.ask who ecc) s = s.upd fun d => d.askOp who ecc := rfl
theorem exec_await (who : Agent) (ecc : Bool) : exec (.await who ecc) s =
    s.upd fun d => d.awaitOp who ecc := rfl
theorem exec_poll (who : Agent) (ecc : Bool) : exec (.poll who ecc) s = s.upd fun d => d.pollOp who ecc := rfl
theorem exec_askAnswer (id waited : Nat) : exec (.askAnswer id waited) s =
    s.upd fun d => d.askAnswer id waited := rfl
theorem exec_askLate (id waited : Nat) : exec (.askLate id waited) s = s.act fun d => d.askLate id waited := rfl
theorem exec_budgetExpiry (tid : Nat) : exec (.budgetExpiry tid) s = s.upd fun d => d.budgetExpiry tid := rfl
theorem exec_csrr (who : Agent) (ecc : Bool) : exec (.csrr who ecc) s = s.upd fun d => d.csrrOp who ecc := rfl
theorem exec_csrw (who : Agent) (ecc : Bool) : exec (.csrw who ecc) s = s.upd fun d => d.csrwOp who ecc := rfl
theorem exec_rdreg (who : Agent) (ecc : Bool) : exec (.rdreg who ecc) s =
    s.upd fun d => d.rdregOp who ecc := rfl
theorem exec_rdregReturn (core : Nat) : exec (.rdregReturn core) s = s.upd fun d => d.rdregReturn core := rfl
theorem exec_wrreg (who : Agent) (ecc : Bool) : exec (.wrreg who ecc) s =
    s.act fun d => d.wrregOp who ecc := rfl
theorem exec_eret (who : Agent) (ecc : Bool) : exec (.eret who ecc) s = s.upd fun d => d.eretOp who ecc := rfl
theorem exec_wfe (who : Agent) (ecc : Bool) : exec (.wfe who ecc) s = s.upd fun d => d.wfeOp who ecc := rfl
theorem exec_wfeWake (core : Nat) : exec (.wfeWake core) s = s.upd fun d => d.wfeWake core := rfl
theorem exec_fence (who : Agent) (ecc : Bool) : exec (.fence who ecc) s =
    s.upd fun d => d.fenceOp who ecc := rfl
theorem exec_fenceDone (core : Nat) : exec (.fenceDone core) s = s.upd fun d => d.fenceDone core := rfl
theorem exec_interruptTaken (core : Nat) : exec (.interruptTaken core) s =
    s.upd fun d => d.interruptTaken core := rfl

/-! ### Pitch -/

theorem exec_eventPost (tenant nsh token : Nat) (rest : List Nat) : exec (.eventPost tenant nsh token rest) s =
    s.upd fun d => d.eventPost tenant nsh token rest := rfl
theorem exec_eventDispatch (tid : Nat) : exec (.eventDispatch tid) s = s.act fun d => d.dispatch tid := rfl
theorem exec_pitchLoad : exec .pitchLoad s = s.upd fun d => d.pitchLoad := rfl
theorem exec_pitchLoadDone : exec .pitchLoadDone s = s.upd fun d => d.pitchLoadDone := rfl
theorem exec_mgmtPostGo (len : Nat) : exec (.mgmtPostGo len) s = s.upd fun d => d.mgmtPost len := rfl
theorem exec_mgmtPostDone : exec .mgmtPostDone s = s.upd fun d => d.mgmtPostDone := rfl
theorem exec_maintRepost : exec .maintRepost s = s.upd fun d => d.maintRepost := rfl

/-! ### Calls -/

theorem exec_tallyAdd (id : Nat) : exec (.tallyAdd id) s = s.upd fun d => d.tallyAdd id := rfl
theorem exec_tallyRead (id : Nat) : exec (.tallyRead id) s = s.upd fun d => d.tallyRead id := rfl
theorem exec_tallyLog (id : Nat) : exec (.tallyLog id) s = s.act fun d => d.tallyLog id := rfl
theorem exec_classExactLookup (id stage key : Nat) : exec (.classExactLookup id stage key) s =
    s.upd fun d => d.classLookup id stage key := rfl
theorem exec_mapLookup (id : Nat) : exec (.mapLookup id) s = s.act fun d => d.mapLookup id := rfl
theorem exec_mapRelease (id : Nat) : exec (.mapRelease id) s = s.act fun d => d.mapRelease id := rfl
theorem exec_mapStage (id : Nat) : exec (.mapStage id) s = s.act fun d => d.mapStage id := rfl
theorem exec_mapNamespaceInfo (id : Nat) : exec (.mapNamespaceInfo id) s = s.act fun d => d.mapInfo id := rfl
theorem exec_mapMove (id : Nat) : exec (.mapMove id) s = s.act fun d => d.mapMove id := rfl
theorem exec_ledgerAdmit (id : Nat) (kind : CmdKind) (slba nblk ranges handle : Nat) :
    exec (.ledgerAdmit id kind slba nblk ranges handle) s = s.act fun d => d.ledgerAdmit id kind slba nblk ranges handle := rfl
theorem exec_ledgerRelease (id : Nat) : exec (.ledgerRelease id) s = s.act fun d => d.ledgerRelease id := rfl
theorem exec_ropeRequest (id : Nat) (applied : Bool) : exec (.ropeRequest id applied) s =
    s.act fun d => d.ropeCall id applied := rfl
theorem exec_ropeMark (id : Nat) : exec (.ropeMark id) s = s.act fun d => d.ropeMark id := rfl
theorem exec_markExpiry (ctrl cmdref : Nat) : exec (.markExpiry ctrl cmdref) s =
    s.act fun d => d.markExpire ctrl cmdref := rfl
theorem exec_cipherSeal (id : Nat) : exec (.cipherSeal id) s = s.act fun d => d.cipherSeal id := rfl
theorem exec_cipherErase (id : Nat) : exec (.cipherErase id) s = s.act fun d => d.cipherErase id := rfl
theorem exec_mediaRead (id : Nat) : exec (.mediaRead id) s = s.act fun d => d.mediaRead id := rfl
theorem exec_mediaWork (id : Nat) : exec (.mediaWork id) s = s.act fun d => d.mediaWork id := rfl
theorem exec_stripeCandidates (id : Nat) : exec (.stripeCandidates id) s = s.act fun d => d.candidates id := rfl
theorem exec_stripeSelect (id : Nat) : exec (.stripeSelect id) s = s.act fun d => d.select id := rfl
theorem exec_hostqFetchEntry (id : Nat) : exec (.hostqFetchEntry id) s = s.act fun d => d.hostqFetch id := rfl
theorem exec_hostqPostCompletion (id : Nat) (c : Cqe) : exec (.hostqPostCompletion id c) s =
    s.act fun d => d.hostqPost id c := rfl
theorem exec_xportWrite (id : Nat) (bad : Bool) : exec (.xportWrite id bad) s =
    s.act fun d => d.xportWrite id bad := rfl
theorem exec_xportRead (id : Nat) : exec (.xportRead id) s = s.act fun d => d.xportRead id := rfl
theorem exec_streamWrite (id : Nat) (bad : Bool) : exec (.streamWrite id bad) s =
    s.act fun d => d.streamWrite id bad := rfl
theorem exec_streamRead (id : Nat) : exec (.streamRead id) s = s.act fun d => d.streamRead id := rfl
theorem exec_dmaRead (id : Nat) : exec (.dmaRead id) s = s.upd fun d => d.dmaRead id := rfl
theorem exec_dmaWrite (id : Nat) : exec (.dmaWrite id) s = s.upd fun d => d.dmaWrite id := rfl
theorem exec_wardenMailbox (id : Nat) : exec (.wardenMailbox id) s = s.upd fun d => d.wardenMailbox id := rfl
theorem exec_wardenPost (id : Nat) : exec (.wardenPost id) s = s.upd fun d => d.wardenPost id := rfl

/-! ### Nvme -/

theorem exec_capsuleArrival (ctx : Nat) (sqe : List Word) (nsgl sgl : Nat) (seg : List Word) : exec (.capsuleArrival ctx sqe nsgl sgl seg) s =
    s.act fun d => d.capsule ctx sqe nsgl sgl seg := rfl
theorem exec_completionDelivered (ctx cid left : Nat) : exec (.completionDelivered ctx cid left) s =
    s.act fun d => d.delivered ctx cid left := rfl
theorem exec_getLogPage (src : Src) : exec (.getLogPage src) s = s.act fun d => d.getLogPage src := rfl
theorem exec_identify (src : Src) : exec (.identify src) s = s.act fun d => d.identify src := rfl
theorem exec_abort (src : Src) : exec (.abort src) s = s.act fun d => d.abort src := rfl
theorem exec_setFeatures (src : Src) (data : List Byte) : exec (.setFeatures src data) s =
    s.act fun d => d.setFeatures src data := rfl
theorem exec_getFeatures (src : Src) : exec (.getFeatures src) s = s.act fun d => d.getFeatures src := rfl
theorem exec_asynchronousEventRequest (src : Src) : exec (.asynchronousEventRequest src) s =
    s.act fun d => d.aer src := rfl
theorem exec_deviceSelfTestShort (src : Src) : exec (.deviceSelfTestShort src) s =
    s.act fun d => d.selfTestStart src false := rfl
theorem exec_deviceSelfTestExtended (src : Src) : exec (.deviceSelfTestExtended src) s =
    s.act fun d => d.selfTestStart src true := rfl
theorem exec_deviceSelfTestAbort (src : Src) : exec (.deviceSelfTestAbort src) s =
    s.act fun d => d.selfTestAbort src := rfl
theorem exec_selfTestEnd (failed : Nat) : exec (.selfTestEnd failed) s =
    s.act fun d => d.selfTestEnd failed := rfl
theorem exec_keepAlive (src : Src) : exec (.keepAlive src) s = s.act fun d => d.keepAlive src := rfl
theorem exec_katoExpiry (ctrl : Nat) : exec (.katoExpiry ctrl) s = s.act fun d => d.katoExpiry ctrl := rfl
theorem exec_connect (ctx cid : Nat) (fab : Fabric) (host sub : List Byte) (cntlid qid sqsize kato : Nat) : exec (.connect ctx cid fab host sub cntlid qid sqsize kato) s =
    s.act fun d => d.connect ctx cid fab host sub cntlid qid sqsize kato := rfl
theorem exec_propertyGet (src : Src) : exec (.propertyGet src) s = s.act fun d => d.propertyGet src := rfl
theorem exec_propertySet (src : Src) : exec (.propertySet src) s = s.act fun d => d.propertySet src := rfl
theorem exec_disconnect (ctx cid : Nat) : exec (.disconnect ctx cid) s =
    s.act fun d => d.disconnect ctx cid := rfl
theorem exec_controllerResetDrained (ctrl : Nat) : exec (.controllerResetDrained ctrl) s =
    s.act fun d => d.resetDrained ctrl := rfl
theorem exec_formatNvm (src : Src) : exec (.formatNvm src) s = s.act fun d => d.formatNvm src := rfl
theorem exec_firmwareImageDownload (src : Src) (off : Nat) (data : List Byte) : exec (.firmwareImageDownload src off data) s =
    s.act fun d => d.fwDownload src off data := rfl
theorem exec_firmwareCommit (src : Src) : exec (.firmwareCommit src) s = s.act fun d => d.fwCommit src := rfl
theorem exec_namespaceManagement (src : Src) (cmd : NsCmd) : exec (.namespaceManagement src cmd) s =
    s.act fun d => match cmd with
    | .create subsys handle c => d.nsCreate src subsys handle c
    | .delete handle => d.nsDelete src handle := rfl
theorem exec_namespaceAttachment (src : Src) (handle : Nat) (attach : Bool) (ctrls : List Nat) : exec (.namespaceAttachment src handle attach ctrls) s =
    s.act fun d => d.nsAttach src handle attach ctrls := rfl
theorem exec_sanitizeCryptoErase (src : Src) : exec (.sanitizeCryptoErase src) s =
    s.act fun d => d.sanitizeCrypto src := rfl
theorem exec_sanitizeBlockErase (src : Src) : exec (.sanitizeBlockErase src) s =
    s.act fun d => d.sanitizeBlock src := rfl
theorem exec_flush (ctx cid : Nat) : exec (.flush ctx cid) s = s.act fun d => d.flush ctx cid := rfl
theorem exec_flushComplete (ctx cid : Nat) : exec (.flushComplete ctx cid) s =
    s.act fun d => d.flushComplete ctx cid := rfl
theorem exec_write (ctx cid : Nat) : exec (.write ctx cid) s = s.act fun d => d.nvmWrite ctx cid := rfl
theorem exec_read (ctx cid : Nat) : exec (.read ctx cid) s = s.act fun d => d.nvmRead ctx cid := rfl
theorem exec_writeZeroes (ctx cid : Nat) : exec (.writeZeroes ctx cid) s =
    s.act fun d => d.nvmWriteZeroes ctx cid := rfl
theorem exec_datasetManagement (ctx cid : Nat) (ranges : List (Nat × Nat)) : exec (.datasetManagement ctx cid ranges) s =
    s.act fun d => d.dataset ctx cid ranges := rfl
theorem exec_nsEntryUpdate (handle : Nat) : exec (.nsEntryUpdate handle) s =
    s.act fun d => d.nsUpdate handle := rfl

/-! ### Ledger -/

theorem exec_ledgerDeferredAdmit : exec .ledgerDeferredAdmit s = s.act fun d => d.admitWaiting := rfl
theorem exec_ledgerTenUpdate (tenant : Nat) : exec (.ledgerTenUpdate tenant) s =
    s.act fun d => d.tenUpdate tenant := rfl
theorem exec_commitCycleBoundary : exec .commitCycleBoundary s = s.act fun d => d.commitBoundary := rfl
theorem exec_sealLeadClose : exec .sealLeadClose s = s.act fun d => d.sealClose := rfl
theorem exec_bundleSeal : exec .bundleSeal s = s.act fun d => d.bundleSeal := rfl
theorem exec_lockGrant (entry : Nat) (applied : Bool) : exec (.lockGrant entry applied) s =
    s.act fun d => d.grant entry applied := rfl

/-! ### Mapping -/

theorem exec_dataLanding (tenant nsh token at_ : Nat) (data : List Byte) (uncommitted : Bool) : exec (.dataLanding tenant nsh token at_ data uncommitted) s =
    s.act fun d => d.land tenant nsh token at_ data uncommitted := rfl
theorem exec_mapPlace (what : PlaceReq) : exec (.mapPlace what) s =
    s.act fun d => match what with
    | .unit i => d.placeUnit i
    | .page p => d.writeBack p
    | .moves n => d.placeMoves n := rfl
theorem exec_stripeProgramPass (stripe : Nat) : exec (.stripeProgramPass stripe) s =
    s.act fun d => d.stripePass stripe := rfl
theorem exec_journalDurable : exec .journalDurable s = s.act fun d => d.journalDurable := rfl
theorem exec_stagingFree (unit : Nat) : exec (.stagingFree unit) s = s.act fun d => d.stagingFree unit := rfl
theorem exec_mapPageReady (page : Nat) (good : Bool) : exec (.mapPageReady page good) s =
    s.act fun d => d.pageReady page good := rfl
theorem exec_mapCacheWriteback (page : Nat) : exec (.mapCacheWriteback page) s = s.act fun d => d.writeBack page := rfl
theorem exec_pinnedMapWarm (page : Nat) : exec (.pinnedMapWarm page) s = s.act fun d => d.warmTake page := rfl
theorem exec_secureDelDeadline (band : Nat) : exec (.secureDelDeadline band) s =
    s.act fun d => d.secureDeadline band := rfl
theorem exec_checkpointStart : exec .checkpointStart s = s.act fun d => d.ckptStart := rfl
theorem exec_checkpointEnd (root : Nat) (bands : List (Nat × List Chunk)) : exec (.checkpointEnd root bands) s =
    s.act fun d => d.ckptEnd root bands := rfl
theorem exec_mapRecoverReplay (root : RootObs) (dump : List DumpUnit) (seqHigh : Nat) : exec (.mapRecoverReplay root dump seqHigh) s =
    s.act fun d => d.recoverReplay root dump seqHigh := rfl
theorem exec_mapRecoverScan (root : RootObs) (us : List ScanUnit) (dump : List DumpUnit) (seqHigh newRoot : Nat) : exec (.mapRecoverScan root us dump seqHigh newRoot) s =
    s.act fun d => d.recoverScan root us dump seqHigh newRoot := rfl
theorem exec_recoveryEnd (good : Bool) : exec (.recoveryEnd good) s = s.act fun d => d.recoveryEnd good := rfl

/-! ### Tether -/

theorem exec_tetherLaneLoss (sled : Nat) : exec (.tetherLaneLoss sled) s = s.act fun d => d.laneLoss sled := rfl
theorem exec_tetherRetrainEnd (sled : Nat) (ok : Bool) : exec (.tetherRetrainEnd sled ok) s =
    s.act fun d => d.retrainEnd sled ok := rfl
theorem exec_tetherLinkFrame (h : RxHdr) (op data : Nat) (nak : Bool) : exec (.tetherLinkFrame h op data nak) s =
    s.act fun d => d.rxLink h op data nak := rfl
theorem exec_tetherReplayTimeout (sled : Nat) : exec (.tetherReplayTimeout sled) s =
    s.act fun d => d.replayTimeout sled := rfl
theorem exec_tetherResp (h : RxHdr) (tag result temp exec held : Nat) : Machine.exec (.tetherResp h tag result temp exec held) s =
    s.act fun d => d.rxResp h tag result temp exec held := rfl
theorem exec_tetherRdata (h : RxHdr) (tag : Nat) (pass : Bool) (cw : Codeword) : exec (.tetherRdata h tag pass cw) s =
    s.act fun d => d.rxData h tag pass cw := rfl
theorem exec_tetherClaimReply (h : RxHdr) (claim accepted rejected : Nat) (held busy : List Nat) : exec (.tetherClaimReply h claim accepted rejected held busy) s =
    s.act fun d => d.rxClaimReply h claim accepted rejected held busy := rfl
theorem exec_tetherStatus (h : RxHdr) (temp flags : Nat) (held temps : List Nat) : exec (.tetherStatus h temp flags held temps) s =
    s.act fun d => (d.rxStatus h temp flags held temps).tempMoves := rfl
theorem exec_statusLate (sled : Nat) : exec (.statusLate sled) s = s.act fun d => d.statusLate sled := rfl
theorem exec_tthClaimCmd (epoch sleds channels : Nat) : exec (.tthClaimCmd epoch sleds channels) s =
    s.act fun d => d.claimCmd epoch sleds channels := rfl
theorem exec_claimResendTimeout (sled : Nat) : exec (.claimResendTimeout sled) s =
    s.act fun d => d.claimTimeout sled := rfl
theorem exec_nandOpTimeout (sled tag : Nat) : exec (.nandOpTimeout sled tag) s =
    s.act fun d => d.opTimeout sled tag := rfl
theorem exec_mdaSledReload (sled : Nat) : exec (.mdaSledReload sled) s = s.act fun d => d.sledReload sled := rfl
theorem exec_mediaGateListStart : exec .mediaGateListStart s =
    s.act fun d => d.mediaListStart.heldActs 0x16 0 := rfl
theorem exec_nandProgramIssue (req tag : Nat) : exec (.nandProgramIssue req tag) s =
    s.act fun d => d.programIssue req tag := rfl
theorem exec_nandReadIssue (req tag : Nat) : exec (.nandReadIssue req tag) s =
    s.act fun d => d.readIssue req tag := rfl
theorem exec_mediaSuspendSend (sled ch die tag : Nat) (g1 : Bool) : exec (.mediaSuspendSend sled ch die tag g1) s =
    s.act fun d => d.suspendSend sled ch die tag g1 := rfl
theorem exec_mediaResumeSend (sled ch die tag : Nat) : exec (.mediaResumeSend sled ch die tag) s =
    s.act fun d => d.resumeSend sled ch die tag := rfl
theorem exec_tetherLinkUp (sled : Nat) (o : CheckObs) : exec (.tetherLinkUp sled o) s =
    s.act fun d => d.linkReturns sled o := rfl

/-! ### Bands -/

theorem exec_openStripeIdleClose (stream : Nat) : exec (.openStripeIdleClose stream) s =
    s.act fun d => d.idleClose stream := rfl
theorem exec_sledGraceExpiry (sled : Nat) : exec (.sledGraceExpiry sled) s =
    s.act fun d => d.sledGrace sled := rfl
theorem exec_sledDeclareFailed (sled : Nat) : exec (.sledDeclareFailed sled) s =
    s.act fun d => d.sledCmd 1 sled := rfl
theorem exec_sledReturn (sled : Nat) : exec (.sledReturn sled) s = s.act fun d => d.sledCmd 2 sled := rfl
theorem exec_sledRetired (sled : Nat) : exec (.sledRetired sled) s = s.act fun d => d.sledRetired sled := rfl
theorem exec_gcAutoSelect : exec .gcAutoSelect s = s.act fun d => d.autoSelect := rfl
theorem exec_gcEraseIssue (band : Nat) : exec (.gcEraseIssue band) s = s.act fun d => d.eraseIssue band := rfl
theorem exec_gcEraseDone (band : Nat) : exec (.gcEraseDone band) s = s.act fun d => d.eraseDone band := rfl
theorem exec_retentionExpiry (band : Nat) : exec (.retentionExpiry band) s =
    s.act fun d => d.retention band := rfl

/-! ### PowerFail -/

theorem exec_pfailFall : exec .pfailFall s = s.act fun d => d.pfailFall := rfl
theorem exec_pfailGlitch : exec .pfailGlitch s = s.act fun d => d.pfailGlitch := rfl
theorem exec_pfailFilterPass : exec .pfailFilterPass s = s.act fun d => d.pfailPass := rfl
theorem exec_dumpStart : exec .dumpStart s = s.act fun d => d.dumpBegins := rfl
theorem exec_dumpEnd : exec .dumpEnd s = s.act fun d => d.dumpEnds := rfl
theorem exec_pfailRise : exec .pfailRise s = s.act fun d => d.pfailRise := rfl

/-! ### Network -/

theorem exec_subportLinkChange (port : Nat) (up : Bool) : exec (.subportLinkChange port up) s =
    s.act fun d => d.portChange port up := rfl
theorem exec_frameReceive (port : Nat) (frame : List Byte) (fcsGood ect : Bool) (corr uncorr : Nat) :
    exec (.frameReceive port frame fcsGood ect corr uncorr) s =
      s.act fun d => d.frameReceive port frame fcsGood ect corr uncorr := rfl
theorem exec_recirculationPass (pipe : Nat) (ect : Bool) : exec (.recirculationPass pipe ect) s =
    s.act fun d => d.recirculate pipe ect := rfl
theorem exec_resequenceRelease (port : Nat) (ect : Bool) : exec (.resequenceRelease port ect) s =
    s.act fun d => d.reseqRelease port ect := rfl
theorem exec_classUpdateLoad (count ports : Nat) : exec (.classUpdateLoad count ports) s =
    s.act fun d => d.updLoad count ports := rfl
theorem exec_emAdd (u : UpdRec) : exec (.emAdd u) s = s.act fun d => d.updOne { u with op := 1 } := rfl
theorem exec_emEnd (u : UpdRec) : exec (.emEnd u) s = s.act fun d => d.updOne { u with op := 2 } := rfl
theorem exec_tcamAdd (u : UpdRec) : exec (.tcamAdd u) s = s.act fun d => d.updOne { u with op := 3 } := rfl
theorem exec_tcamEnd (u : UpdRec) : exec (.tcamEnd u) s = s.act fun d => d.updOne { u with op := 4 } := rfl
theorem exec_indir (u : UpdRec) : exec (.indir u) s = s.act fun d => d.updOne { u with op := 5 } := rfl
theorem exec_timStep (value : Word) : exec (.timStep value) s = s.act fun d => d.timStep value := rfl
theorem exec_timSlew (value : Word) : exec (.timSlew value) s = s.upd fun d => d.timSlew value := rfl
theorem exec_ppsOutEdge : exec .ppsOutEdge s = s.upd fun d => d.ppsOut := rfl
theorem exec_ppsInEdge : exec .ppsInEdge s = s.upd fun d => d.ppsIn := rfl
theorem exec_egressFrameStart (port : Nat) : exec (.egressFrameStart port) s =
    s.act fun d => d.egressStart port := rfl
theorem exec_producerCellResume : exec .producerCellResume s = s.act fun d => d.producerResume := rfl
theorem exec_auditStart : exec .auditStart s = s.act fun d => d.auditStart := rfl
theorem exec_auditEnd (leaked : Nat) : exec (.auditEnd leaked) s = s.act fun d => d.auditEnd leaked := rfl
theorem exec_schTenUpdate (tenant : Nat) : exec (.schTenUpdate tenant) s =
    s.act fun d => d.shaperUpdate tenant := rfl
theorem exec_schPolUpdate (policer : Nat) : exec (.schPolUpdate policer) s =
    s.act fun d => d.polUpdate policer := rfl
theorem exec_cnpRecoverExpiry (ctx : Nat) : exec (.cnpRecoverExpiry ctx) s =
    s.act fun d => d.cnpRecover ctx := rfl
theorem exec_schedGateListStart : exec .schedGateListStart s =
    s.act fun d => d.gateListStart.heldActs 0x0F 0 := rfl
theorem exec_holdExpiry (port : Nat) : exec (.holdExpiry port) s = s.act fun d => d.holdExpiry port := rfl

/-! ### Transport -/

theorem exec_roceRequestReceive (pipe n tenant psn : Nat) (op : ReqOp) (ce : Bool) : exec (.roceRequestReceive pipe n tenant psn op ce) s =
    s.act fun d => d.roceRequest pipe n tenant psn op ce := rfl
theorem exec_ackCoalesceExpiry (n : Nat) : exec (.ackCoalesceExpiry n) s = s.act fun d => d.ackCoalesce n := rfl
theorem exec_roceAckReceive (pipe n tenant psn code msn : Nat) : exec (.roceAckReceive pipe n tenant psn code msn) s =
    s.act fun d => d.roceAck pipe n tenant psn code msn := rfl
theorem exec_roceNakReceive (pipe n tenant psn : Nat) (nak : Nak) : exec (.roceNakReceive pipe n tenant psn nak) s =
    s.act fun d => d.roceNak pipe n tenant psn nak := rfl
theorem exec_roceReadResponse (pipe n tenant psn : Nat) (data : List Byte) (ce : Bool) : exec (.roceReadResponse pipe n tenant psn data ce) s =
    s.act fun d => d.roceReadResponse pipe n tenant psn data ce := rfl
theorem exec_roceAckTimeout (n : Nat) : exec (.roceAckTimeout n) s = s.act fun d => d.roceTimeout n := rfl
theorem exec_rnrTimerExpiry (n : Nat) : exec (.rnrTimerExpiry n) s = s.act fun d => d.rnrExpiry n := rfl
theorem exec_cnpReceive (pipe n tenant : Nat) : exec (.cnpReceive pipe n tenant) s =
    s.act fun d => d.cnpReceive pipe n tenant := rfl
theorem exec_cmMadReceive (x : Desc) (data : List Byte) : exec (.cmMadReceive x data) s =
    s.act fun d => if d.transOn 0x0C then d.wardenRing x (Memory.setBytes [] 0 data) else d := rfl
theorem exec_contextFetchDone (n : Nat) : exec (.contextFetchDone n) s =
    s.act fun d => d.contextFetched n := rfl
theorem exec_contextOpenResume (blk : Nat) : exec (.contextOpenResume blk) s =
    s.act fun d => d.openResume blk := rfl
theorem exec_xptCtxOpen : exec .xptCtxOpen s = s.act fun d => d.xptOpen := rfl
theorem exec_xptCtxClose (n : Nat) : exec (.xptCtxClose n) s = s.act fun d => d.xptClose n := rfl
theorem exec_xptCtxMove (n : Nat) : exec (.xptCtxMove n) s = s.act fun d => d.xptMove n := rfl
theorem exec_strCtxBind (n slot : Nat) : exec (.strCtxBind n slot) s = s.act fun d => d.strBind n slot := rfl
theorem exec_strCtxClose (n : Nat) : exec (.strCtxClose n) s = s.act fun d => d.strClose n := rfl
theorem exec_tcpSynReceive (port tenant : Nat) : exec (.tcpSynReceive port tenant) s =
    s.act fun d => d.tcpSyn port tenant := rfl
theorem exec_tcpSegmentReceive (seg : TcpIn) : exec (.tcpSegmentReceive seg) s =
    s.act fun d => match seg with
    | .conn pipe n tenant g => d.tcpSegment pipe n tenant g
    | .opens port c => d.tcpOpen port c
    | .stray port tenant => d.tcpStray port tenant := rfl
theorem exec_tcpRtoExpiry (n : Nat) : exec (.tcpRtoExpiry n) s = s.act fun d => d.tcpRto n := rfl
theorem exec_icreq (n pfv hpda : Nat) (hdgst ddgst lenOk : Bool) : exec (.icreq n pfv hpda hdgst ddgst lenOk) s =
    s.act fun d => d.icReq n pfv hpda hdgst ddgst lenOk := rfl
theorem exec_capsulecmd (n : Nat) (k : HeldCap) (lenOk digestsOk : Bool) : exec (.capsulecmd n k lenOk digestsOk) s =
    s.act fun d => d.capsuleCmd n k lenOk digestsOk := rfl
theorem exec_h2cdata (n ttag off : Nat) (data : List Byte) (lenOk digestsOk : Bool) : exec (.h2cdata n ttag off data lenOk digestsOk) s =
    s.act fun d => d.h2cData n ttag off data lenOk digestsOk := rfl
theorem exec_h2ctermreq (n : Nat) : exec (.h2ctermreq n) s = s.act fun d => d.h2cTerm n := rfl
theorem exec_tlsRecordReceive (n : Nat) (header sealed : List Byte) : exec (.tlsRecordReceive n header sealed) s =
    s.act fun d => d.tlsRecord n header sealed := rfl
theorem exec_tlsKeyupdateReceive (n : Nat) : exec (.tlsKeyupdateReceive n) s =
    s.act fun d => d.tlsKeyUpdate n := rfl
theorem exec_tlsAlertReceive (n : Nat) : exec (.tlsAlertReceive n) s = s.act fun d => d.tlsAlert n := rfl

/-! ### Crypto -/

theorem exec_keyLoad (session : Bool) (slot : Nat) : exec (.keyLoad session slot) s =
    s.act fun d => d.keyLoad session slot := rfl
theorem exec_keyDestroy (all session : Bool) (slot : Nat) : exec (.keyDestroy all session slot) s =
    s.act fun d => d.keyDestroy all session slot := rfl
theorem exec_sealUnit (k : Nat) (bad : Bool) : exec (.sealUnit k bad) s = s.act fun d => d.sealUnit k bad := rfl
theorem exec_unitDecrypt (job unit : Nat) : exec (.unitDecrypt job unit) s =
    s.act fun d => d.unitDecrypt job unit := rfl
theorem exec_cipherDone : exec .cipherDone s = s.act fun d => d.cipherDone := rfl
theorem exec_generationDrained (slot gen : Nat) : exec (.generationDrained slot gen) s =
    s.act fun d => d.generationDrained slot gen := rfl

/-! ### Pairing -/

theorem exec_belayLinkEnable (phys : Nat) : exec (.belayLinkEnable phys) s =
    s.act fun d => d.blyLinkEnable phys := rfl
theorem exec_helloTimer : exec .helloTimer s = s.act fun d => d.helloTimer := rfl
theorem exec_hello (h : BHdr) (payload : List Byte) : exec (.hello h payload) s =
    s.act fun d => d.rxHello h payload := rfl
theorem exec_beatTimer : exec .beatTimer s = s.act fun d => d.beatTimer := rfl
theorem exec_beat (h : BHdr) (payload : List Byte) : exec (.beat h payload) s =
    s.act fun d => d.rxBeat h payload := rfl
theorem exec_peerBeatEdge (level : Bool) : exec (.peerBeatEdge level) s = s.act fun d => d.peerEdge level := rfl
theorem exec_beatMiss (pins : Bool) : exec (.beatMiss pins) s = s.act fun d => d.beatMiss pins := rfl
theorem exec_partnerLost : exec .partnerLost s = s.act fun d => d.partnerLost := rfl
theorem exec_belayPhyDown (phy : Nat) : exec (.belayPhyDown phy) s = s.act fun d => d.blyPhyDown phy := rfl
theorem exec_linkGraceExpiry : exec .linkGraceExpiry s = s.act fun d => d.linkGrace := rfl
theorem exec_belayReplayTimeout : exec .belayReplayTimeout s = s.act fun d => d.blyReplay := rfl
theorem exec_bundle (h : BHdr) (payload : List Byte) : exec (.bundle h payload) s =
    s.act fun d => d.rxBundle h payload := rfl
theorem exec_bconf (h : BHdr) (cycle part : Nat) : exec (.bconf h cycle part) s =
    s.act fun d => d.rxBconf h cycle part := rfl
theorem exec_trec (h : BHdr) (payload : List Byte) : exec (.trec h payload) s =
    s.act fun d => d.rxTrec h payload := rfl
theorem exec_tconf (h : BHdr) (number : Nat) : exec (.tconf h number) s =
    s.act fun d => d.rxTconf h number := rfl
theorem exec_fwd (h : BHdr) (m : FwdMsg) : exec (.fwd h m) s = s.act fun d => d.rxFwd h m := rfl
theorem exec_join (h : BHdr) (epoch : Nat) : exec (.join h epoch) s = s.act fun d => d.rxJoin h epoch := rfl
theorem exec_handback (h : BHdr) (epoch : Nat) : exec (.handback h epoch) s =
    s.act fun d => d.rxHandback h epoch := rfl
theorem exec_handbackDrained : exec .handbackDrained s = s.act fun d => d.handbackSend := rfl
theorem exec_rejoinDone (h : Option BHdr) : exec (.rejoinDone h) s = s.act fun d => d.rejoinDone h := rfl
theorem exec_handover : exec .handover s = s.act fun d => d.blyHandover := rfl
theorem exec_handoverReceive (h : BHdr) (epoch : Nat) : exec (.handoverReceive h epoch) s =
    s.act fun d => d.rxHandover h epoch := rfl
theorem exec_fenceNow : exec .fenceNow s = s.act fun d => d.fenceNow := rfl
theorem exec_takeoverClaimDone : exec .takeoverClaimDone s = s.act fun d => d.takeoverClaimed := rfl
theorem exec_takeoverSecondClaimDone : exec .takeoverSecondClaimDone s = s.act fun d => d.takeoverWon := rfl
theorem exec_takeoverStateLoad (root : RootObs) : exec (.takeoverStateLoad root) s =
    s.act fun d => d.takeoverLoad root := rfl
theorem exec_takeoverAcceptResume : exec .takeoverAcceptResume s = s.act fun d => d.takeoverAccept := rfl
theorem exec_belayPhyUp (phy : Nat) : exec (.belayPhyUp phy) s = s.act fun d => d.blyPhyUp phy := rfl
theorem exec_belayLinkFrame (h : BHdr) (credits : Nat) (nak : Bool) : exec (.belayLinkFrame h credits nak) s =
    s.act fun d => d.blyLink h credits nak := rfl

/-! ### Integrity -/

theorem exec_faultDetect (cls blk n detail : Nat) : exec (.faultDetect cls blk n detail) s =
    s.act fun d => d.faultDetect cls blk n detail := rfl
theorem exec_selftestSlice (item blk n : Nat) (failed : Bool) : exec (.selftestSlice item blk n failed) s =
    s.act fun d => d.selfTestSlice item blk n failed := rfl
theorem exec_selftestPassStart : exec .selftestPassStart s = s.act fun d => d.selfTestPass := rfl
theorem exec_selftestPassEnd (ms : Nat) : exec (.selftestPassEnd ms) s =
    s.act fun d => d.selfTestPassEnd ms := rfl
theorem exec_sptInject (blk cls : Nat) : exec (.sptInject blk cls) s = s.act fun d => d.sptInject blk cls := rfl

/-! ### Trust -/

theorem exec_attestReport : exec .attestReport s = s.upd fun d => d.attest := rfl
theorem exec_kekImport : exec .kekImport s = s.upd fun d => d.kekImport := rfl
theorem exec_kekUnseal : exec .kekUnseal s = s.upd fun d => d.kekUnseal := rfl
theorem exec_fuseRequest : exec .fuseRequest s = s.upd fun d => d.fuseRequest := rfl
theorem exec_enroll : exec .enroll s = s.fuses 1 := rfl
theorem exec_revoke : exec .revoke s = s.fuses 2 := rfl
theorem exec_raiseWdn : exec .raiseWdn s = s.fuses 3 := rfl
theorem exec_raisePgm : exec .raisePgm s = s.fuses 4 := rfl
theorem exec_decommission : exec .decommission s = s.fuses 5 := rfl
theorem exec_certExport : exec .certExport s = s.upd fun d => d.certExport := rfl
theorem exec_spdmSign : exec .spdmSign s = s.upd fun d => d.spdmSign := rfl
theorem exec_anchorRequestDone : exec .anchorRequestDone s = s.upd fun d => d.ancDone := rfl
theorem exec_getVersion : exec .getVersion s = s.upd fun d => d.getVersion := rfl
theorem exec_getCapabilities : exec .getCapabilities s = s.upd fun d => d.getCapabilities := rfl
theorem exec_negotiateAlgorithms (ed448 sha3 : Bool) : exec (.negotiateAlgorithms ed448 sha3) s =
    s.upd fun d => d.negotiate ed448 sha3 := rfl
theorem exec_getDigests : exec .getDigests s = s.upd fun d => d.getDigests := rfl
theorem exec_getCertificate (slot offset length : Nat) : exec (.getCertificate slot offset length) s =
    s.upd fun d => d.getCertificate slot offset length := rfl
theorem exec_challenge (slot summary : Nat) (hash : List Byte) : exec (.challenge slot summary hash) s =
    s.upd fun d => d.challenge slot summary hash := rfl
theorem exec_getMeasurements (index : Nat) (hash : Option (List Byte)) : exec (.getMeasurements index hash) s =
    s.upd fun d => d.getMeasurements index hash := rfl
theorem exec_spdmUnsupportedRequest : exec .spdmUnsupportedRequest s = s.upd fun d => d.spdmUnsupported := rfl

/-! ### Power -/

theorem exec_powerStateRequest (ps : Nat) : exec (.powerStateRequest ps) s =
    s.act fun d => d.requestPs ps := rfl
theorem exec_wake : exec .wake s = s.act fun d => d.wake := rfl
theorem exec_powerStateReached : exec .powerStateReached s = s.act fun d => d.psReached := rfl
theorem exec_domainRequest (sel : DomSel) (state : Nat) : exec (.domainRequest sel state) s =
    s.upd fun d => match sel with
    | .block blk n => d.requestBlock blk n state
    | .dom k => d.requestDom k state := rfl
theorem exec_domainStateReached (dom : Nat) (failed : Bool) : exec (.domainStateReached dom failed) s =
    s.act fun d => d.domReached dom failed := rfl
theorem exec_domainIdleGate (dom : Nat) : exec (.domainIdleGate dom) s = s.upd fun d => d.domIdle dom := rfl
theorem exec_domainWorkWake (dom : Nat) : exec (.domainWorkWake dom) s = s.upd fun d => d.domWake dom := rfl
theorem exec_pllLock (pll : Nat) : exec (.pllLock pll) s = s.upd fun d => d.pllLock pll := rfl
theorem exec_pllLockLoss (pll : Option Nat) : exec (.pllLockLoss pll) s = s.act fun d => d.clockFault pll := rfl

/-! ### Metrics -/

theorem exec_meterBoundary : exec .meterBoundary s = s.act fun d => d.meterBoundary := rfl
theorem exec_meterBatchSigned : exec .meterBatchSigned s = s.upd fun d => d.meterSigned := rfl
theorem exec_capacitySecondTick : exec .capacitySecondTick s = s.upd fun d => d.secondTick := rfl
theorem exec_gradeMsTick : exec .gradeMsTick s = s.upd fun d => d.msTick.apstMoves := rfl
theorem exec_thresholdTick : exec .thresholdTick s = s.upd fun d => d.thrTick := rfl
theorem exec_portWindowEnd : exec .portWindowEnd s = s.upd fun d => d.windowEnd := rfl
theorem exec_samplingEvent (src tenant : Nat) : exec (.samplingEvent src tenant) s =
    s.upd fun d => d.sampling src tenant := rfl
theorem exec_sampCountWrite (counter : Nat) (value : Word) (event : Bool) : exec (.sampCountWrite counter value event) s =
    s.upd fun d => d.sampWrite counter value event := rfl
theorem exec_tlyFreezeWrite (frozen onTrig : Bool) : exec (.tlyFreezeWrite frozen onTrig) s =
    s.upd fun d => d.freezeWrite frozen onTrig := rfl
theorem exec_cairnDisarm : exec .cairnDisarm s = s.upd fun d => d.crnGo 0 := rfl
theorem exec_cairnOneShot : exec .cairnOneShot s = s.upd fun d => d.crnGo 1 := rfl
theorem exec_cairnPeriodic : exec .cairnPeriodic s = s.upd fun d => d.crnGo 2 := rfl
theorem exec_cairnTrigger : exec .cairnTrigger s = s.act fun d => d.crnTrigger := rfl
theorem exec_snapshotSetWritten : exec .snapshotSetWritten s = s.upd fun d => d.crnWritten := rfl

/-! ### Service -/

theorem exec_i3cCcc (c : Ccc) : exec (.i3cCcc c) s = s.upd fun d => d.i3cCcc c := rfl
theorem exec_jtagExtest (levels shift : List Bool) : exec (.jtagExtest levels shift) s =
    s.tap fun d => d.jtagExtest levels shift := rfl
theorem exec_jtagSamplePreload (levels shift : List Bool) : exec (.jtagSamplePreload levels shift) s =
    s.tap fun d => d.jtagSample levels shift := rfl
theorem exec_jtagBypass (shift : List Bool) : exec (.jtagBypass shift) s =
    s.tap fun d => d.jtagBypass shift := rfl

end Sys2Proof.Laws
end

