-- ==== Sys2Proof/Laws/State.lean ====
section
/-! SUPPORT. State and its three fields: what each update of one leaves of the others, what reset holds, and that reset's
memories are in canonical form. -/

namespace Sys2Proof.Laws

open Sys2Proof.Machine

variable (s : State) (d : Dev) (h : Hard) (q : List Instr)

@[simp] theorem with_dev_pending : ({ s with dev := d } : State).pending = s.pending := rfl
@[simp] theorem with_dev_hard : ({ s with dev := d } : State).hard = s.hard := rfl
@[simp] theorem with_dev_dev : ({ s with dev := d } : State).dev = d := rfl
@[simp] theorem with_hard_pending : ({ s with hard := h } : State).pending = s.pending := rfl
@[simp] theorem with_hard_hard : ({ s with hard := h } : State).hard = h := rfl
@[simp] theorem with_hard_dev : ({ s with hard := h } : State).dev = s.dev := rfl
@[simp] theorem with_pending_pending : ({ s with pending := q } : State).pending = q := rfl
@[simp] theorem with_pending_hard : ({ s with pending := q } : State).hard = s.hard := rfl
@[simp] theorem with_pending_dev : ({ s with pending := q } : State).dev = s.dev := rfl

@[simp] theorem with_dev_live : ({ s with dev := d } : State).live = s.live := rfl
@[simp] theorem with_pending_live : ({ s with pending := q } : State).live = s.live := rfl

@[simp] theorem reset_pending : State.reset.pending = [] := rfl
@[simp] theorem reset_pwrGood : State.reset.hard.pwrGood = true := rfl
@[simp] theorem reset_resetN : State.reset.hard.resetN = true := rfl
@[simp] theorem reset_live : State.reset.live = true := rfl

/-- A cold reset leaves every memory empty. -/
@[simp] theorem coldReset_mem : (d.coldReset h).mem = {} := rfl

/-- Reset's memories are in canonical form. -/
theorem reset_mem_wf : State.reset.dev.mem.dram.wf = true ∧ State.reset.dev.mem.scratch.wf = true ∧
    State.reset.dev.mem.shared.wf = true ∧ State.reset.dev.mem.wlocal.wf = true ∧ State.reset.dev.mem.wsram.wf = true ∧
    State.reset.dev.mem.wcode.wf = true ∧ State.reset.dev.mem.pcode.wf = true := by
  have e : State.reset.dev.mem = {} := coldReset_mem _ _
  rw [e]; decide

/-- A step on an empty queue is one tick while the device runs. -/
theorem step_nil (hq : s.pending = []) : step s = if s.live then .next { s with dev := s.dev.tick } else .next s := by
  by_cases hl : s.live = true <;> simp [step, hq, idle, State.upd, hl]

end Sys2Proof.Laws
end

