-- ==== Sys2Proof/WellFormed.lean ====
section
/-! DEFINITION. Well-formed commands: every operand lies in the range the spec gives the thing it names. The meanings take
any operand; an ill-formed command names nothing that can happen. -/

namespace Sys2Proof

open Sys2Proof.Machine

/-- One of the 256 threads (R75) or four Warden cores (R107). -/
def Machine.Agent.ok : Agent → Bool
  | .pitch tid => decide (tid < 256)
  | .warden core => decide (core < 4)

/-- One of the four cores, or a path without a number (R55). -/
def Machine.Path.ok : Path → Bool
  | .core n => decide (n < 4)
  | .lane => true
  | .mctp => true

/-- Link and sequence numbers of R232. -/
def Machine.RxHdr.ok (h : RxHdr) : Bool := decide (h.sled < 24 ∧ h.seq < 4096 ∧ h.ack < 4096)

/-- Sequence numbers of R390. -/
def Machine.BHdr.ok (h : BHdr) : Bool := decide (h.seq < 2 ^ 32 ∧ h.ack < 2 ^ 32)

/-- A command identifier, or a tunnelled entry of 64 bytes. -/
def Machine.Src.ok : Src → Bool
  | .host _ cid => decide (cid < 2 ^ 16)
  | .mgmt sqe => decide (sqe.length = 8)

/-- Every operand of the command lies in its range. -/
def Instr.wf (i : Instr) : Bool :=
  match i with
  | .regWrite who addr _ => who.ok && decide (addr < 2 ^ 32)
  | .regReadClear who addr => who.ok && decide (addr < 2 ^ 32)
  | .badAccess addr width => decide (addr < 2 ^ 32 ∧ width ∈ [1, 2, 4, 8])
  | .blockEnable blk n => decide (n < instCount blk)
  | .consistencyCheckEnd blk n _ => decide (n < instCount blk)
  | .blockDisable blk n => decide (n < instCount blk)
  | .blockDisableDone blk n => decide (n < instCount blk)
  | .blockDrain blk n _ => decide (n < instCount blk)
  | .drained blk n => decide (n < instCount blk)
  | .genSwapRequest blk n => decide (n < instCount blk)
  | .genSwapCheckEnd blk n _ => decide (n < instCount blk)
  | .genSwapTake blk n => decide (n < instCount blk)
  | .genDiscard blk n => decide (n < instCount blk)
  | .genRelease blk n gen => decide (n < instCount blk ∧ gen < 2 ^ 32)
  | .coldReset unitId bootMode _ => decide (unitId < 2 ^ 1 ∧ bootMode < 2 ^ 1)
  | .pinReset ns => decide (ns < 2 ^ 64)
  | .warmReset key => decide (key < 2 ^ 16)
  | .wdogExpiry => true
  | .wdogKick ms _ => decide (ms < 2 ^ 16)
  | .pwrGoodFall _ => true
  | .anchorBoot _ _ => true
  | .mgmtRcvData _ => true
  | .mgmtRcvBoot => true
  | .wardenMailboxWrite _ => true
  | .coreRun core _ => decide (core < 4)
  | .rasRequest ip port dst dport _ => decide (ip < 2 ^ 128 ∧ port < 2 ^ 16 ∧ dst < 2 ^ 128 ∧ dport < 2 ^ 16)
  | .rasMemoryExpiry who _ => who.ok
  | .nvmeMiVendorC0 eid _ _ => decide (eid < 2 ^ 8)
  | .add who _ => who.ok
  | .sub who _ => who.ok
  | .mul who _ => who.ok
  | .mulhu who _ => who.ok
  | .and who _ => who.ok
  | .or who _ => who.ok
  | .xor who _ => who.ok
  | .andn who _ => who.ok
  | .shl who _ => who.ok
  | .shr who _ => who.ok
  | .sar who _ => who.ok
  | .ror who _ => who.ok
  | .minu who _ => who.ok
  | .maxu who _ => who.ok
  | .clz who _ => who.ok
  | .popc who _ => who.ok
  | .bext who _ => who.ok
  | .bins who _ => who.ok
  | .crc32c who _ => who.ok
  | .bswap who _ => who.ok
  | .cmpeq who _ => who.ok
  | .cmpne who _ => who.ok
  | .cmpltu who _ => who.ok
  | .cmplt who _ => who.ok
  | .cmpgeu who _ => who.ok
  | .cmpge who _ => who.ok
  | .tst who _ => who.ok
  | .ld who _ => who.ok
  | .ldw who _ => who.ok
  | .ldh who _ => who.ok
  | .ldb who _ => who.ok
  | .st who _ => who.ok
  | .stw who _ => who.ok
  | .sth who _ => who.ok
  | .stb who _ => who.ok
  | .ldd who _ => who.ok
  | .ldc who _ => who.ok
  | .amoadd who _ => who.ok
  | .cas who _ => who.ok
  | .br who _ => who.ok
  | .jal who _ => who.ok
  | .ret who _ => who.ok
  | .jt who _ => who.ok
  | .loop who _ => who.ok
  | .done who _ => who.ok
  | .fault who _ => who.ok
  | .nop who _ => who.ok
  | .ask who _ => who.ok
  | .await who _ => who.ok
  | .poll who _ => who.ok
  | .askAnswer _ waited => decide (waited < 2 ^ 32)
  | .askLate _ waited => decide (waited < 2 ^ 32)
  | .budgetExpiry tid => decide (tid < 256)
  | .csrr who _ => who.ok
  | .csrw who _ => who.ok
  | .rdreg who _ => who.ok
  | .rdregReturn core => decide (core < 4)
  | .wrreg who _ => who.ok
  | .eret who _ => who.ok
  | .wfe who _ => who.ok
  | .wfeWake core => decide (core < 4)
  | .fence who _ => who.ok
  | .fenceDone core => decide (core < 4)
  | .interruptTaken core => decide (core < 4)
  | .eventPost tenant nsh token _ => decide (tenant < 2 ^ 12 ∧ nsh < 2 ^ 16 ∧ token < 2 ^ 64)
  | .eventDispatch tid => decide (tid < 256)
  | .pitchLoad => true
  | .pitchLoadDone => true
  | .mgmtPostGo len => decide (len < 2 ^ 11)
  | .mgmtPostDone => true
  | .maintRepost => true
  | .tallyAdd _ => true
  | .tallyRead _ => true
  | .tallyLog _ => true
  | .classExactLookup _ stage _ => decide (stage < 2 ^ 2)
  | .mapLookup _ => true
  | .mapRelease _ => true
  | .mapStage _ => true
  | .mapNamespaceInfo _ => true
  | .mapMove _ => true
  | .ledgerAdmit _ _ slba nblk ranges _ => decide (slba < 2 ^ 64 ∧ nblk < 2 ^ 32 ∧ ranges < 2 ^ 9)
  | .ledgerRelease _ => true
  | .ropeRequest _ _ => true
  | .ropeMark _ => true
  | .markExpiry ctrl cmdref => decide (ctrl < 2 ^ 16 ∧ cmdref < 2 ^ 32)
  | .cipherSeal _ => true
  | .cipherErase _ => true
  | .mediaRead _ => true
  | .mediaWork _ => true
  | .stripeCandidates _ => true
  | .stripeSelect _ => true
  | .hostqFetchEntry _ => true
  | .hostqPostCompletion _ _ => true
  | .xportWrite _ _ => true
  | .xportRead _ => true
  | .streamWrite _ _ => true
  | .streamRead _ => true
  | .dmaRead _ => true
  | .dmaWrite _ => true
  | .wardenMailbox _ => true
  | .wardenPost _ => true
  | .capsuleArrival ctx _ nsgl sgl _ => decide (ctx < 2 ^ 32 ∧ nsgl < 2 ^ 8 ∧ sgl < 2 ^ 64)
  | .completionDelivered ctx cid left => decide (ctx < 2 ^ 32 ∧ cid < 2 ^ 16 ∧ left < 2 ^ 64)
  | .getLogPage src => src.ok
  | .identify src => src.ok
  | .abort src => src.ok
  | .setFeatures src _ => src.ok
  | .getFeatures src => src.ok
  | .asynchronousEventRequest src => src.ok
  | .deviceSelfTestShort src => src.ok
  | .deviceSelfTestExtended src => src.ok
  | .deviceSelfTestAbort src => src.ok
  | .selfTestEnd failed => decide (failed < 2 ^ 8)
  | .keepAlive src => src.ok
  | .katoExpiry ctrl => decide (ctrl < 2 ^ 16)
  | .connect ctx cid _ _ _ cntlid qid sqsize kato => decide (ctx < 2 ^ 32 ∧ cid < 2 ^ 16 ∧ cntlid < 2 ^ 16 ∧ qid < 2 ^ 16 ∧ sqsize < 2 ^ 16 ∧ kato < 2 ^ 32)
  | .propertyGet src => src.ok
  | .propertySet src => src.ok
  | .disconnect ctx cid => decide (ctx < 2 ^ 32 ∧ cid < 2 ^ 16)
  | .controllerResetDrained ctrl => decide (ctrl < 2 ^ 16)
  | .formatNvm src => src.ok
  | .firmwareImageDownload src _ _ => src.ok
  | .firmwareCommit src => src.ok
  | .namespaceManagement src _ => src.ok
  | .namespaceAttachment src handle _ _ => src.ok && decide (handle < 2 ^ 10)
  | .sanitizeCryptoErase src => src.ok
  | .sanitizeBlockErase src => src.ok
  | .flush ctx cid => decide (ctx < 2 ^ 32 ∧ cid < 2 ^ 16)
  | .flushComplete ctx cid => decide (ctx < 2 ^ 32 ∧ cid < 2 ^ 16)
  | .write ctx cid => decide (ctx < 2 ^ 32 ∧ cid < 2 ^ 16)
  | .read ctx cid => decide (ctx < 2 ^ 32 ∧ cid < 2 ^ 16)
  | .writeZeroes ctx cid => decide (ctx < 2 ^ 32 ∧ cid < 2 ^ 16)
  | .datasetManagement ctx cid _ => decide (ctx < 2 ^ 32 ∧ cid < 2 ^ 16)
  | .nsEntryUpdate handle => decide (handle < 2 ^ 10)
  | .ledgerDeferredAdmit => true
  | .ledgerTenUpdate tenant => decide (tenant < 2 ^ 12)
  | .commitCycleBoundary => true
  | .sealLeadClose => true
  | .bundleSeal => true
  | .lockGrant entry _ => decide (entry < 2 ^ 16)
  | .dataLanding tenant nsh _ _ _ _ => decide (tenant < 2 ^ 12 ∧ nsh < 2 ^ 16)
  | .mapPlace _ => true
  | .stripeProgramPass _ => true
  | .journalDurable => true
  | .stagingFree _ => true
  | .mapPageReady _ _ => true
  | .mapCacheWriteback _ => true
  | .pinnedMapWarm _ => true
  | .secureDelDeadline _ => true
  | .checkpointStart => true
  | .checkpointEnd _ _ => true
  | .mapRecoverReplay _ _ seqHigh => decide (seqHigh < 2 ^ 64)
  | .mapRecoverScan _ _ _ seqHigh _ => decide (seqHigh < 2 ^ 64)
  | .recoveryEnd _ => true
  | .tetherLaneLoss sled => decide (sled < 24)
  | .tetherRetrainEnd sled _ => decide (sled < 24)
  | .tetherLinkFrame h op data _ => h.ok && decide (op < 2 ^ 8 ∧ data < 2 ^ 64)
  | .tetherReplayTimeout sled => decide (sled < 24)
  | .tetherResp h tag result temp exec held => h.ok && decide (tag < 2 ^ 12 ∧ result < 2 ^ 8 ∧ temp < 2 ^ 8 ∧ exec < 2 ^ 32 ∧ held < 2 ^ 32)
  | .tetherRdata h tag _ _ => h.ok && decide (tag < 2 ^ 12)
  | .tetherClaimReply h claim accepted rejected _ _ => h.ok && decide (claim < 2 ^ 32 ∧ accepted < 2 ^ 8 ∧ rejected < 2 ^ 8)
  | .tetherStatus h temp flags _ _ => h.ok && decide (temp < 2 ^ 8 ∧ flags < 2 ^ 8)
  | .statusLate sled => decide (sled < 24)
  | .tthClaimCmd epoch sleds channels => decide (epoch < 2 ^ 32 ∧ sleds < 2 ^ 24 ∧ channels < 2 ^ 8)
  | .claimResendTimeout sled => decide (sled < 24)
  | .nandOpTimeout sled tag => decide (sled < 24 ∧ tag < 2 ^ 12)
  | .mdaSledReload sled => decide (sled < 24)
  | .mediaGateListStart => true
  | .nandProgramIssue _ tag => decide (tag < 2 ^ 12)
  | .nandReadIssue _ tag => decide (tag < 2 ^ 12)
  | .mediaSuspendSend sled ch die tag _ => decide (sled < 24 ∧ ch < 2 ^ 3 ∧ die < 2 ^ 4 ∧ tag < 2 ^ 12)
  | .mediaResumeSend sled ch die tag => decide (sled < 24 ∧ ch < 2 ^ 3 ∧ die < 2 ^ 4 ∧ tag < 2 ^ 12)
  | .openStripeIdleClose _ => true
  | .sledGraceExpiry sled => decide (sled < 24)
  | .sledDeclareFailed sled => decide (sled < 24)
  | .sledReturn sled => decide (sled < 24)
  | .sledRetired sled => decide (sled < 24)
  | .gcAutoSelect => true
  | .gcEraseIssue _ => true
  | .gcEraseDone _ => true
  | .pfailFall => true
  | .pfailGlitch => true
  | .pfailFilterPass => true
  | .dumpStart => true
  | .dumpEnd => true
  | .pfailRise => true
  | .subportLinkChange port _ => decide (port < 16)
  | .frameReceive port _ _ _ _ _ => decide (port < 16)
  | .recirculationPass pipe _ => decide (pipe < 2 ^ 1)
  | .resequenceRelease port _ => decide (port < 16)
  | .classUpdateLoad count ports => decide (count < 2 ^ 16 ∧ ports < 2 ^ 16)
  | .emAdd _ => true
  | .emEnd _ => true
  | .tcamAdd _ => true
  | .tcamEnd _ => true
  | .indir _ => true
  | .timStep _ => true
  | .timSlew _ => true
  | .ppsOutEdge => true
  | .ppsInEdge => true
  | .egressFrameStart port => decide (port < 16)
  | .producerCellResume => true
  | .auditStart => true
  | .auditEnd leaked => decide (leaked < 2 ^ 32)
  | .schTenUpdate tenant => decide (tenant < 2 ^ 12)
  | .schPolUpdate policer => decide (policer < 2 ^ 12)
  | .cnpRecoverExpiry ctx => decide (ctx < 2 ^ 32)
  | .schedGateListStart => true
  | .holdExpiry port => decide (port < 16)
  | .roceRequestReceive pipe n tenant psn _ _ => decide (pipe < 2 ^ 1 ∧ n < 2 ^ 32 ∧ tenant < 2 ^ 12 ∧ psn < 2 ^ 24)
  | .ackCoalesceExpiry n => decide (n < 2 ^ 32)
  | .roceAckReceive pipe n tenant psn code msn => decide (pipe < 2 ^ 1 ∧ n < 2 ^ 32 ∧ tenant < 2 ^ 12 ∧ psn < 2 ^ 24 ∧ code < 2 ^ 5 ∧ msn < 2 ^ 24)
  | .roceNakReceive pipe n tenant psn _ => decide (pipe < 2 ^ 1 ∧ n < 2 ^ 32 ∧ tenant < 2 ^ 12 ∧ psn < 2 ^ 24)
  | .roceReadResponse pipe n tenant psn _ _ => decide (pipe < 2 ^ 1 ∧ n < 2 ^ 32 ∧ tenant < 2 ^ 12 ∧ psn < 2 ^ 24)
  | .roceAckTimeout n => decide (n < 2 ^ 32)
  | .rnrTimerExpiry n => decide (n < 2 ^ 32)
  | .cnpReceive pipe n tenant => decide (pipe < 2 ^ 1 ∧ n < 2 ^ 32 ∧ tenant < 2 ^ 12)
  | .cmMadReceive _ _ => true
  | .contextFetchDone n => decide (n < 2 ^ 32)
  | .contextOpenResume blk => decide (blk = 0x0C ∨ blk = 0x0D)
  | .xptCtxOpen => true
  | .xptCtxClose n => decide (n < 2 ^ 32)
  | .xptCtxMove n => decide (n < 2 ^ 32)
  | .strCtxBind n slot => decide (n < 2 ^ 32 ∧ slot < 2 ^ 16)
  | .strCtxClose n => decide (n < 2 ^ 32)
  | .tcpSynReceive port tenant => decide (port < 16 ∧ tenant < 2 ^ 12)
  | .tcpSegmentReceive _ => true
  | .tcpRtoExpiry n => decide (n < 2 ^ 32)
  | .icreq n pfv hpda _ _ _ => decide (n < 2 ^ 32 ∧ pfv < 2 ^ 16 ∧ hpda < 2 ^ 8)
  | .capsulecmd n _ _ _ => decide (n < 2 ^ 32)
  | .h2cdata n ttag off _ _ _ => decide (n < 2 ^ 32 ∧ ttag < 2 ^ 16 ∧ off < 2 ^ 32)
  | .h2ctermreq n => decide (n < 2 ^ 32)
  | .tlsRecordReceive n _ _ => decide (n < 2 ^ 32)
  | .tlsKeyupdateReceive n => decide (n < 2 ^ 32)
  | .tlsAlertReceive n => decide (n < 2 ^ 32)
  | .keyLoad _ slot => decide (slot < 2 ^ 16)
  | .keyDestroy _ _ slot => decide (slot < 2 ^ 16)
  | .sealUnit _ _ => true
  | .unitDecrypt _ _ => true
  | .cipherDone => true
  | .generationDrained slot _ => decide (slot < 2 ^ 16)
  | .belayLinkEnable phys => decide (phys < 2 ^ 2)
  | .helloTimer => true
  | .hello h _ => h.ok
  | .beatTimer => true
  | .beat h _ => h.ok
  | .peerBeatEdge _ => true
  | .beatMiss _ => true
  | .partnerLost => true
  | .belayPhyDown phy => decide (phy < 2 ^ 1)
  | .linkGraceExpiry => true
  | .belayReplayTimeout => true
  | .bundle h _ => h.ok
  | .bconf h cycle part => h.ok && decide (cycle < 2 ^ 64 ∧ part < 2 ^ 8)
  | .trec h _ => h.ok
  | .tconf h number => h.ok && decide (number < 2 ^ 64)
  | .fwd h _ => h.ok
  | .join h epoch => h.ok && decide (epoch < 2 ^ 32)
  | .handback h epoch => h.ok && decide (epoch < 2 ^ 32)
  | .handbackDrained => true
  | .rejoinDone _ => true
  | .handover => true
  | .handoverReceive h epoch => h.ok && decide (epoch < 2 ^ 32)
  | .fenceNow => true
  | .takeoverClaimDone => true
  | .takeoverSecondClaimDone => true
  | .takeoverStateLoad _ => true
  | .takeoverAcceptResume => true
  | .faultDetect cls blk n detail => decide (cls < 2 ^ 4 ∧ n < instCount blk ∧ detail < 2 ^ 31)
  | .selftestSlice item blk n _ => decide (item < 2 ^ 16 ∧ n < instCount blk)
  | .selftestPassStart => true
  | .selftestPassEnd ms => decide (ms < 2 ^ 32)
  | .sptInject _ cls => decide (cls < 2 ^ 4)
  | .attestReport => true
  | .kekImport => true
  | .kekUnseal => true
  | .fuseRequest => true
  | .enroll => true
  | .revoke => true
  | .raiseWdn => true
  | .raisePgm => true
  | .decommission => true
  | .certExport => true
  | .spdmSign => true
  | .anchorRequestDone => true
  | .getVersion => true
  | .getCapabilities => true
  | .negotiateAlgorithms _ _ => true
  | .getDigests => true
  | .getCertificate slot offset length => decide (slot < 2 ^ 8 ∧ offset < 2 ^ 16 ∧ length < 2 ^ 16)
  | .challenge slot summary _ => decide (slot < 2 ^ 8 ∧ summary < 2 ^ 8)
  | .getMeasurements index _ => decide (index < 2 ^ 8)
  | .spdmUnsupportedRequest => true
  | .powerStateRequest ps => decide (ps < 2 ^ 2)
  | .wake => true
  | .powerStateReached => true
  | .domainRequest _ state => decide (state < 2 ^ 3)
  | .domainStateReached dom _ => decide (dom < 96)
  | .domainIdleGate dom => decide (dom < 96)
  | .domainWorkWake dom => decide (dom < 96)
  | .pllLock pll => decide (pll < 17)
  | .pllLockLoss _ => true
  | .meterBoundary => true
  | .meterBatchSigned => true
  | .capacitySecondTick => true
  | .gradeMsTick => true
  | .thresholdTick => true
  | .portWindowEnd => true
  | .samplingEvent src tenant => decide (src < 2 ^ 8 ∧ tenant < 2 ^ 12)
  | .sampCountWrite counter _ _ => decide (counter < 2 ^ 4)
  | .tlyFreezeWrite _ _ => true
  | .cairnDisarm => true
  | .cairnOneShot => true
  | .cairnPeriodic => true
  | .cairnTrigger => true
  | .snapshotSetWritten => true
  | .i3cCcc _ => true
  | .jtagExtest _ _ => true
  | .jtagSamplePreload _ _ => true
  | .jtagBypass _ => true
  | .tetherLinkUp sled _ => decide (sled < 24)
  | .belayPhyUp phy => decide (phy < 2 ^ 1)
  | .belayLinkFrame h credits _ => h.ok && decide (credits < 2 ^ 16)
  | .resetNRise unitId bootMode => decide (unitId < 2 ^ 1 ∧ bootMode < 2 ^ 1)
  | .retentionExpiry _ => true

end Sys2Proof
end

