-- ==== Sys2Proof/Tests/Slice0.lean ====
section
/-! SUPPORT. Tests: values worked out by hand, the WellFormed smoke, and for every statement states and operands that meet
the hypotheses of each of its clauses. -/

open Sys2Proof Sys2Proof.Machine Sys2Proof.Laws

namespace Sys2Proof.Tests

set_option Elab.async false
set_option maxRecDepth 20000

/-- The block instance in service. -/
def wOn (d : Dev) (blk n : Nat) : Dev := d.modInst blk n fun i => { i with enable := true, enabled := true }
/-- The Belay link enabled, both PHYs up. -/
def wBly (d : Dev) : Dev := (d.fset Reg.BLY_CFG.LINK_EN 1).fset Reg.BLY_STATUS.PHYS 3
/-- The context resident in the transport. -/
def wCtx (d : Dev) (blk n : Nat) (c : Ctx) : Dev :=
  let t := d.tport blk
  d.setTport blk { t with res := Tab.put t.res n c }
/-- An instruction word from its fields (R81). -/
def wWord (op guard dst sa sb form imm : Nat) : Word :=
  BitVec.ofNat 64 (op * 2 ^ 56 + guard * 2 ^ 52 + dst * 2 ^ 46 + sa * 2 ^ 40 + sb * 2 ^ 34 + form * 2 ^ 32 + imm)
/-- The thread or core about to run the word at index 0. -/
def wCore (d : Dev) (who : Agent) (w : Word) : Dev :=
  match who with
  | .warden n =>
    let d := (wOn d 2 0).fset Reg.WDN_CORE_CTRL.RUN 15
    { d with warden := { d.warden with ncode := 16, cores := Tab.put d.warden.cores n (d.core n) }, mem := { d.mem with wcode := d.mem.wcode.set 0 w } }
  | .pitch n =>
    let d := (wOn d 0x13 0).fset Reg.PITCH_CTRL.CLUSTER_EN 1
    let d := d.setDom 24 { state := 0, req := 0 }
    let im : Image := { bank := 0, gen := 0, ncode := 16, svn := 0, binds := [], dma := [], inits := [] }
    let r : Run := { ev := { typ := 0, words := [] }, gen := 0, budget := 1000 }
    let t : Thread := { cpu := (d.thread n).cpu, run := some ((d.thread n).run.getD r) }
    { d with pitch := { d.pitch with images := im :: d.pitch.images, threads := Tab.put d.pitch.threads n t }, mem := { d.mem with pcode := d.mem.pcode.set 0 w } }
/-- The registers of the thread or core, changed. -/
def wCpu (d : Dev) (who : Agent) (f : Cpu → Cpu) : Dev :=
  match who with
  | .warden n => { d with warden := { d.warden with cores := Tab.put d.warden.cores n { d.core n with cpu := f (d.core n).cpu } } }
  | .pitch n => { d with pitch := { d.pitch with threads := Tab.put d.pitch.threads n { d.thread n with cpu := f (d.thread n).cpu } } }
/-- A machine to fall back on where none runs. -/
def wM : Mach := { cpu := {}, priv := false, num := 0, desc := [], evt := 0, ncode := 0 }
/-- The device after the command on the device `d`, with power good. -/
def wAfter (c : Instr) (d : Dev) : Dev :=
  match exec c { dev := d } with
  | .next t => t.dev
  | _ => d
/-- Core 0 about to run the word, with the registers g1, g2, … at these values. -/
def wRegs (w : Word) (g : List Word) : Dev :=
  wCpu (wCore {} (.warden 0) w) (.warden 0) fun x => { x with g := (List.range g.length).foldl (fun t i => t.set (i + 1) (g.getD i 0)) x.g }
/-- g`i` of core 0. -/
def wGet (d : Dev) (i : Nat) : Word := (d.core 0).cpu.g.get i

/-! ### Values worked out by hand from the spec's tables -/

theorem test_add_wraps : wGet (wAfter (.add (.warden 0) false) (wRegs (wWord 0x01 0 3 1 2 0 0) [0xFFFFFFFFFFFFFFFF, 2])) 3 = 1 := by
  decide +kernel
theorem test_sub_same_register :
    wGet (wAfter (.sub (.warden 0) false) (wRegs (wWord 0x02 0 1 1 2 0 0) [5, 7])) 1 = 0xFFFFFFFFFFFFFFFE := by decide +kernel
theorem test_mulhu : wGet (wAfter (.mulhu (.warden 0) false) (wRegs (wWord 0x04 0 3 1 2 0 0) [0x8000000000000000, 6])) 3 = 3 := by
  decide +kernel
theorem test_sar_sign : wGet (wAfter (.sar (.warden 0) false) (wRegs (wWord 0x0B 0 3 1 2 0 0) [0x8000000000000000, 67])) 3
    = 0xF000000000000000 := by decide +kernel
theorem test_ror_zero : wGet (wAfter (.ror (.warden 0) false) (wRegs (wWord 0x0C 0 3 1 2 0 0) [0x123, 64])) 3 = 0x123 := by
  decide +kernel
theorem test_bext_field : wGet (wAfter (.bext (.warden 0) false) (wRegs (wWord 0x11 0 3 1 0 2 0x0704) [0xABCDE])) 3 = 0xCD := by
  decide +kernel
theorem test_crc32c_check :
    wGet (wAfter (.crc32c (.warden 0) false) (wRegs (wWord 0x14 0 3 1 2 0 0) [0xFFFFFFFF, 0x3837363534333231])) 3 = 0x9F787F65 := by
  decide +kernel
theorem test_cmplt_signed : wGet (wAfter (.cmplt (.warden 0) false) (wRegs (wWord 0x1B 0 3 1 2 0 0) [0xFFFFFFFFFFFFFFFF, 0])) 3 = 1 := by
  decide +kernel
theorem test_store_half_then_byte :
    let d := wAfter (.sth (.warden 0) false) (wRegs (wWord 0x36 0 1 2 0 1 2) [0xABCD, 0])
    d.mem.wlocal = [(2, 0xCD), (3, 0xAB)] := by decide +kernel
theorem test_load_byte_zero_extends :
    let d := wRegs (wWord 0x33 0 3 2 0 1 3) [0, 0]
    wGet (wAfter (.ldb (.warden 0) false) { d with mem := { d.mem with wlocal := [(3, 0xF0)] } }) 3 = 0xF0 := by decide +kernel
theorem test_csrr_core_number :
    wGet (wAfter (.csrr (.warden 0) false) (wRegs (wWord 0x60 0 3 0 0 2 7) [9, 9, 9])) 3 = 0 := by decide +kernel

theorem test_error_mask_then_clear :
    let d := ({} : Dev).setErr 0x12 0 1
    (d.inst 0x12 0).err.getLsbD 1 = true ∧
    ((wAfter (.regWrite (.core 0) 0x1200020 2) d).inst 0x12 0).err.getLsbD 1 = false := by decide +kernel
theorem test_unmapped_access :
    ((wAfter (.badAccess 0x1202000 8) {}).inst 0x12 0).err.getLsbD 1 = true := by decide +kernel
theorem test_enable_starts_check :
    ((wAfter (.blockEnable 0x18 0) {}).inst 0x18 0).check = some .enable := by decide +kernel
theorem test_cold_reset_camp_only :
    let d := wAfter (.coldReset 1 0 false) {}
    d.on 0 = true ∧ d.on 2 = false ∧ d.fget Reg.CAMP_STRAP.UNIT_ID = 1 ∧ d.fget Reg.CAMP_RST_CAUSE.COLD = 1 := by decide +kernel
theorem test_samp_count_write_then_event :
    let d := wOn ({} : Dev) 5 0
    let d := (d.fset (Reg.TLY_SAMP_CFG.EN.nth 2) 1).fset (Reg.TLY_SAMP_CFG.SOURCE.nth 2) 1
    let e := wAfter (.sampCountWrite 2 0xFFFFFFFF true) d
    e.fget (Reg.TLY_SAMP_CNT.COUNT.nth 2) = 0 ∧ e.fget (Reg.TLY_SAMP_CNT.OVF.nth 2) = 1 := by decide +kernel
theorem test_nothing_while_held :
    exec (.blockEnable 0x18 0) { hard := { pwrGood := true, resetN := false } } = .next { hard := { pwrGood := true, resetN := false } } := by
  rfl
theorem test_first_in_first_out :
    let s : State := { pending := [.blockEnable 0x18 0, .badAccess 0 4] }
    step s = exec (.blockEnable 0x18 0) { pending := [.badAccess 0 4] } := by rfl
theorem test_table_gives_no_bits : decodeTableWord 64 0 = none ∧ decodeTableWord 0 7 = none := by decide

/-! ### The WellFormed smoke: one ill-formed command, or more, for each check -/

theorem test_wellformed :
    Instr.wf (.blockEnable 0x18 0) = true ∧ Instr.wf (.add (.pitch 255) false) = true ∧ Instr.wf (.read 7 65535) = true ∧
    Machine.RxHdr.ok ⟨23, 4095, 4095, true⟩ = true ∧ Machine.RxHdr.ok ⟨0, 4096, 0, true⟩ = false ∧
    Machine.RxHdr.ok ⟨0, 0, 4096, true⟩ = false ∧ Machine.BHdr.ok ⟨0, 4294967296, true⟩ = false ∧
    Machine.Agent.ok (.warden 4) = false ∧ Machine.Src.ok (.mgmt []) = false := by
  decide +kernel

theorem test_illformed_01 :
    (∀ addr x2, Instr.wf (.regWrite (.core 4) addr x2) = false) ∧
    (∀ who x2, Instr.wf (.regWrite who (2 ^ 32) x2) = false) ∧
    (∀ addr, Instr.wf (.regReadClear (.core 4) addr) = false) ∧
    (∀ who, Instr.wf (.regReadClear who (2 ^ 32)) = false) ∧
    (∀ width, Instr.wf (.badAccess (2 ^ 32) width) = false) ∧
    (∀ addr, Instr.wf (.badAccess addr 3) = false) ∧
    (∀ blk, Instr.wf (.blockEnable blk (instCount blk)) = false) ∧
    (∀ blk x2, Instr.wf (.consistencyCheckEnd blk (instCount blk) x2) = false) ∧
    (∀ blk, Instr.wf (.blockDisable blk (instCount blk)) = false) ∧
    (∀ blk, Instr.wf (.blockDisableDone blk (instCount blk)) = false) ∧
    (∀ blk x2, Instr.wf (.blockDrain blk (instCount blk) x2) = false) ∧
    (∀ blk, Instr.wf (.drained blk (instCount blk)) = false) ∧
    (∀ blk, Instr.wf (.genSwapRequest blk (instCount blk)) = false) ∧
    (∀ blk x2, Instr.wf (.genSwapCheckEnd blk (instCount blk) x2) = false) ∧
    (∀ blk, Instr.wf (.genSwapTake blk (instCount blk)) = false) ∧
    (∀ blk, Instr.wf (.genDiscard blk (instCount blk)) = false) ∧
    (∀ blk gen, Instr.wf (.genRelease blk (instCount blk) gen) = false) ∧
    (∀ blk n, Instr.wf (.genRelease blk n (2 ^ 32)) = false) ∧
    (∀ bootMode x2, Instr.wf (.coldReset (2 ^ 1) bootMode x2) = false) ∧
    (∀ unitId x2, Instr.wf (.coldReset unitId (2 ^ 1) x2) = false) ∧
    (Instr.wf (.pinReset (2 ^ 64)) = false) ∧
    (Instr.wf (.warmReset (2 ^ 16)) = false) ∧
    (∀ x1, Instr.wf (.wdogKick (2 ^ 16) x1) = false) ∧
    (∀ x1, Instr.wf (.coreRun 4 x1) = false) ∧
    (∀ port dst dport x4, Instr.wf (.rasRequest (2 ^ 128) port dst dport x4) = false) ∧
    (∀ ip dst dport x4, Instr.wf (.rasRequest ip (2 ^ 16) dst dport x4) = false) ∧
    (∀ ip port dport x4, Instr.wf (.rasRequest ip port (2 ^ 128) dport x4) = false) ∧
    (∀ ip port dst x4, Instr.wf (.rasRequest ip port dst (2 ^ 16) x4) = false) ∧
    (∀ x1, Instr.wf (.rasMemoryExpiry (.core 4) x1) = false) ∧
    (∀ x1 x2, Instr.wf (.nvmeMiVendorC0 (2 ^ 8) x1 x2) = false) ∧
    (∀ x1, Instr.wf (.add (.pitch 256) x1) = false) ∧
    (∀ x1, Instr.wf (.sub (.pitch 256) x1) = false) := by
  refine ⟨?_, ?_, ?_, ?_, ?_, ?_, ?_, ?_, ?_, ?_, ?_, ?_, ?_, ?_, ?_, ?_, ?_, ?_, ?_, ?_, ?_, ?_, ?_, ?_, ?_, ?_, ?_, ?_, ?_, ?_, ?_, ?_⟩ <;> intros <;> simp [Instr.wf, Machine.Path.ok, Machine.Agent.ok, Machine.Src.ok, Machine.RxHdr.ok, Machine.BHdr.ok]

theorem test_illformed_02 :
    (∀ x1, Instr.wf (.mul (.pitch 256) x1) = false) ∧
    (∀ x1, Instr.wf (.mulhu (.pitch 256) x1) = false) ∧
    (∀ x1, Instr.wf (.and (.pitch 256) x1) = false) ∧
    (∀ x1, Instr.wf (.or (.pitch 256) x1) = false) ∧
    (∀ x1, Instr.wf (.xor (.pitch 256) x1) = false) ∧
    (∀ x1, Instr.wf (.andn (.pitch 256) x1) = false) ∧
    (∀ x1, Instr.wf (.shl (.pitch 256) x1) = false) ∧
    (∀ x1, Instr.wf (.shr (.pitch 256) x1) = false) ∧
    (∀ x1, Instr.wf (.sar (.pitch 256) x1) = false) ∧
    (∀ x1, Instr.wf (.ror (.pitch 256) x1) = false) ∧
    (∀ x1, Instr.wf (.minu (.pitch 256) x1) = false) ∧
    (∀ x1, Instr.wf (.maxu (.pitch 256) x1) = false) ∧
    (∀ x1, Instr.wf (.clz (.pitch 256) x1) = false) ∧
    (∀ x1, Instr.wf (.popc (.pitch 256) x1) = false) ∧
    (∀ x1, Instr.wf (.bext (.pitch 256) x1) = false) ∧
    (∀ x1, Instr.wf (.bins (.pitch 256) x1) = false) ∧
    (∀ x1, Instr.wf (.crc32c (.pitch 256) x1) = false) ∧
    (∀ x1, Instr.wf (.bswap (.pitch 256) x1) = false) ∧
    (∀ x1, Instr.wf (.cmpeq (.pitch 256) x1) = false) ∧
    (∀ x1, Instr.wf (.cmpne (.pitch 256) x1) = false) ∧
    (∀ x1, Instr.wf (.cmpltu (.pitch 256) x1) = false) ∧
    (∀ x1, Instr.wf (.cmplt (.pitch 256) x1) = false) ∧
    (∀ x1, Instr.wf (.cmpgeu (.pitch 256) x1) = false) ∧
    (∀ x1, Instr.wf (.cmpge (.pitch 256) x1) = false) ∧
    (∀ x1, Instr.wf (.tst (.pitch 256) x1) = false) ∧
    (∀ x1, Instr.wf (.ld (.pitch 256) x1) = false) ∧
    (∀ x1, Instr.wf (.ldw (.pitch 256) x1) = false) ∧
    (∀ x1, Instr.wf (.ldh (.pitch 256) x1) = false) ∧
    (∀ x1, Instr.wf (.ldb (.pitch 256) x1) = false) ∧
    (∀ x1, Instr.wf (.st (.pitch 256) x1) = false) ∧
    (∀ x1, Instr.wf (.stw (.pitch 256) x1) = false) ∧
    (∀ x1, Instr.wf (.sth (.pitch 256) x1) = false) := by
  refine ⟨?_, ?_, ?_, ?_, ?_, ?_, ?_, ?_, ?_, ?_, ?_, ?_, ?_, ?_, ?_, ?_, ?_, ?_, ?_, ?_, ?_, ?_, ?_, ?_, ?_, ?_, ?_, ?_, ?_, ?_, ?_, ?_⟩ <;> intros <;> simp [Instr.wf, Machine.Path.ok, Machine.Agent.ok, Machine.Src.ok, Machine.RxHdr.ok, Machine.BHdr.ok]

theorem test_illformed_03 :
    (∀ x1, Instr.wf (.stb (.pitch 256) x1) = false) ∧
    (∀ x1, Instr.wf (.ldd (.pitch 256) x1) = false) ∧
    (∀ x1, Instr.wf (.ldc (.pitch 256) x1) = false) ∧
    (∀ x1, Instr.wf (.amoadd (.pitch 256) x1) = false) ∧
    (∀ x1, Instr.wf (.cas (.pitch 256) x1) = false) ∧
    (∀ x1, Instr.wf (.br (.pitch 256) x1) = false) ∧
    (∀ x1, Instr.wf (.jal (.pitch 256) x1) = false) ∧
    (∀ x1, Instr.wf (.ret (.pitch 256) x1) = false) ∧
    (∀ x1, Instr.wf (.jt (.pitch 256) x1) = false) ∧
    (∀ x1, Instr.wf (.loop (.pitch 256) x1) = false) ∧
    (∀ x1, Instr.wf (.done (.pitch 256) x1) = false) ∧
    (∀ x1, Instr.wf (.fault (.pitch 256) x1) = false) ∧
    (∀ x1, Instr.wf (.nop (.pitch 256) x1) = false) ∧
    (∀ x1, Instr.wf (.ask (.pitch 256) x1) = false) ∧
    (∀ x1, Instr.wf (.await (.pitch 256) x1) = false) ∧
    (∀ x1, Instr.wf (.poll (.pitch 256) x1) = false) ∧
    (∀ x0, Instr.wf (.askAnswer x0 (2 ^ 32)) = false) ∧
    (∀ x0, Instr.wf (.askLate x0 (2 ^ 32)) = false) ∧
    (Instr.wf (.budgetExpiry 256) = false) ∧
    (∀ x1, Instr.wf (.csrr (.pitch 256) x1) = false) ∧
    (∀ x1, Instr.wf (.csrw (.pitch 256) x1) = false) ∧
    (∀ x1, Instr.wf (.rdreg (.pitch 256) x1) = false) ∧
    (Instr.wf (.rdregReturn 4) = false) ∧
    (∀ x1, Instr.wf (.wrreg (.pitch 256) x1) = false) ∧
    (∀ x1, Instr.wf (.eret (.pitch 256) x1) = false) ∧
    (∀ x1, Instr.wf (.wfe (.pitch 256) x1) = false) ∧
    (Instr.wf (.wfeWake 4) = false) ∧
    (∀ x1, Instr.wf (.fence (.pitch 256) x1) = false) ∧
    (Instr.wf (.fenceDone 4) = false) ∧
    (Instr.wf (.interruptTaken 4) = false) ∧
    (∀ nsh token x3, Instr.wf (.eventPost (2 ^ 12) nsh token x3) = false) ∧
    (∀ tenant token x3, Instr.wf (.eventPost tenant (2 ^ 16) token x3) = false) := by
  refine ⟨?_, ?_, ?_, ?_, ?_, ?_, ?_, ?_, ?_, ?_, ?_, ?_, ?_, ?_, ?_, ?_, ?_, ?_, ?_, ?_, ?_, ?_, ?_, ?_, ?_, ?_, ?_, ?_, ?_, ?_, ?_, ?_⟩ <;> intros <;> simp [Instr.wf, Machine.Path.ok, Machine.Agent.ok, Machine.Src.ok, Machine.RxHdr.ok, Machine.BHdr.ok]

theorem test_illformed_04 :
    (∀ tenant nsh x3, Instr.wf (.eventPost tenant nsh (2 ^ 64) x3) = false) ∧
    (Instr.wf (.eventDispatch 256) = false) ∧
    (Instr.wf (.mgmtPostGo (2 ^ 11)) = false) ∧
    (∀ x0 x2, Instr.wf (.classExactLookup x0 (2 ^ 2) x2) = false) ∧
    (∀ x0 x1 nblk ranges x5, Instr.wf (.ledgerAdmit x0 x1 (2 ^ 64) nblk ranges x5) = false) ∧
    (∀ x0 x1 slba ranges x5, Instr.wf (.ledgerAdmit x0 x1 slba (2 ^ 32) ranges x5) = false) ∧
    (∀ x0 x1 slba nblk x5, Instr.wf (.ledgerAdmit x0 x1 slba nblk (2 ^ 9) x5) = false) ∧
    (∀ cmdref, Instr.wf (.markExpiry (2 ^ 16) cmdref) = false) ∧
    (∀ ctrl, Instr.wf (.markExpiry ctrl (2 ^ 32)) = false) ∧
    (∀ x1 nsgl sgl x4, Instr.wf (.capsuleArrival (2 ^ 32) x1 nsgl sgl x4) = false) ∧
    (∀ ctx x1 sgl x4, Instr.wf (.capsuleArrival ctx x1 (2 ^ 8) sgl x4) = false) ∧
    (∀ ctx x1 nsgl x4, Instr.wf (.capsuleArrival ctx x1 nsgl (2 ^ 64) x4) = false) ∧
    (∀ cid left, Instr.wf (.completionDelivered (2 ^ 32) cid left) = false) ∧
    (∀ ctx left, Instr.wf (.completionDelivered ctx (2 ^ 16) left) = false) ∧
    (∀ ctx cid, Instr.wf (.completionDelivered ctx cid (2 ^ 64)) = false) ∧
    (Instr.wf (.getLogPage (.host 0 65536)) = false) ∧
    (Instr.wf (.identify (.host 0 65536)) = false) ∧
    (Instr.wf (.abort (.host 0 65536)) = false) ∧
    (∀ x1, Instr.wf (.setFeatures (.host 0 65536) x1) = false) ∧
    (Instr.wf (.getFeatures (.host 0 65536)) = false) ∧
    (Instr.wf (.asynchronousEventRequest (.host 0 65536)) = false) ∧
    (Instr.wf (.deviceSelfTestShort (.host 0 65536)) = false) ∧
    (Instr.wf (.deviceSelfTestExtended (.host 0 65536)) = false) ∧
    (Instr.wf (.deviceSelfTestAbort (.host 0 65536)) = false) ∧
    (Instr.wf (.selfTestEnd (2 ^ 8)) = false) ∧
    (Instr.wf (.keepAlive (.host 0 65536)) = false) ∧
    (Instr.wf (.katoExpiry (2 ^ 16)) = false) ∧
    (∀ cid x2 x3 x4 cntlid qid sqsize kato, Instr.wf (.connect (2 ^ 32) cid x2 x3 x4 cntlid qid sqsize kato) = false) ∧
    (∀ ctx x2 x3 x4 cntlid qid sqsize kato, Instr.wf (.connect ctx (2 ^ 16) x2 x3 x4 cntlid qid sqsize kato) = false) ∧
    (∀ ctx cid x2 x3 x4 qid sqsize kato, Instr.wf (.connect ctx cid x2 x3 x4 (2 ^ 16) qid sqsize kato) = false) ∧
    (∀ ctx cid x2 x3 x4 cntlid sqsize kato, Instr.wf (.connect ctx cid x2 x3 x4 cntlid (2 ^ 16) sqsize kato) = false) ∧
    (∀ ctx cid x2 x3 x4 cntlid qid kato, Instr.wf (.connect ctx cid x2 x3 x4 cntlid qid (2 ^ 16) kato) = false) := by
  refine ⟨?_, ?_, ?_, ?_, ?_, ?_, ?_, ?_, ?_, ?_, ?_, ?_, ?_, ?_, ?_, ?_, ?_, ?_, ?_, ?_, ?_, ?_, ?_, ?_, ?_, ?_, ?_, ?_, ?_, ?_, ?_, ?_⟩ <;> intros <;> simp [Instr.wf, Machine.Path.ok, Machine.Agent.ok, Machine.Src.ok, Machine.RxHdr.ok, Machine.BHdr.ok]

theorem test_illformed_05 :
    (∀ ctx cid x2 x3 x4 cntlid qid sqsize, Instr.wf (.connect ctx cid x2 x3 x4 cntlid qid sqsize (2 ^ 32)) = false) ∧
    (Instr.wf (.propertyGet (.host 0 65536)) = false) ∧
    (Instr.wf (.propertySet (.host 0 65536)) = false) ∧
    (∀ cid, Instr.wf (.disconnect (2 ^ 32) cid) = false) ∧
    (∀ ctx, Instr.wf (.disconnect ctx (2 ^ 16)) = false) ∧
    (Instr.wf (.controllerResetDrained (2 ^ 16)) = false) ∧
    (Instr.wf (.formatNvm (.host 0 65536)) = false) ∧
    (∀ x1 x2, Instr.wf (.firmwareImageDownload (.host 0 65536) x1 x2) = false) ∧
    (Instr.wf (.firmwareCommit (.host 0 65536)) = false) ∧
    (∀ x1, Instr.wf (.namespaceManagement (.host 0 65536) x1) = false) ∧
    (∀ handle x2 x3, Instr.wf (.namespaceAttachment (.host 0 65536) handle x2 x3) = false) ∧
    (∀ src x2 x3, Instr.wf (.namespaceAttachment src (2 ^ 10) x2 x3) = false) ∧
    (Instr.wf (.sanitizeCryptoErase (.host 0 65536)) = false) ∧
    (Instr.wf (.sanitizeBlockErase (.host 0 65536)) = false) ∧
    (∀ cid, Instr.wf (.flush (2 ^ 32) cid) = false) ∧
    (∀ ctx, Instr.wf (.flush ctx (2 ^ 16)) = false) ∧
    (∀ cid, Instr.wf (.flushComplete (2 ^ 32) cid) = false) ∧
    (∀ ctx, Instr.wf (.flushComplete ctx (2 ^ 16)) = false) ∧
    (∀ cid, Instr.wf (.write (2 ^ 32) cid) = false) ∧
    (∀ ctx, Instr.wf (.write ctx (2 ^ 16)) = false) ∧
    (∀ cid, Instr.wf (.read (2 ^ 32) cid) = false) ∧
    (∀ ctx, Instr.wf (.read ctx (2 ^ 16)) = false) ∧
    (∀ cid, Instr.wf (.writeZeroes (2 ^ 32) cid) = false) ∧
    (∀ ctx, Instr.wf (.writeZeroes ctx (2 ^ 16)) = false) ∧
    (∀ cid x2, Instr.wf (.datasetManagement (2 ^ 32) cid x2) = false) ∧
    (∀ ctx x2, Instr.wf (.datasetManagement ctx (2 ^ 16) x2) = false) ∧
    (Instr.wf (.nsEntryUpdate (2 ^ 10)) = false) ∧
    (Instr.wf (.ledgerTenUpdate (2 ^ 12)) = false) ∧
    (∀ x1, Instr.wf (.lockGrant (2 ^ 16) x1) = false) ∧
    (∀ nsh x2 x3 x4 x5, Instr.wf (.dataLanding (2 ^ 12) nsh x2 x3 x4 x5) = false) ∧
    (∀ tenant x2 x3 x4 x5, Instr.wf (.dataLanding tenant (2 ^ 16) x2 x3 x4 x5) = false) ∧
    (∀ x0 x1, Instr.wf (.mapRecoverReplay x0 x1 (2 ^ 64)) = false) := by
  refine ⟨?_, ?_, ?_, ?_, ?_, ?_, ?_, ?_, ?_, ?_, ?_, ?_, ?_, ?_, ?_, ?_, ?_, ?_, ?_, ?_, ?_, ?_, ?_, ?_, ?_, ?_, ?_, ?_, ?_, ?_, ?_, ?_⟩ <;> intros <;> simp [Instr.wf, Machine.Path.ok, Machine.Agent.ok, Machine.Src.ok, Machine.RxHdr.ok, Machine.BHdr.ok]

theorem test_illformed_06 :
    (∀ x0 x1 x2 x4, Instr.wf (.mapRecoverScan x0 x1 x2 (2 ^ 64) x4) = false) ∧
    (Instr.wf (.tetherLaneLoss 24) = false) ∧
    (∀ x1, Instr.wf (.tetherRetrainEnd 24 x1) = false) ∧
    (∀ op data x3, Instr.wf (.tetherLinkFrame ⟨24, 0, 0, true⟩ op data x3) = false) ∧
    (∀ h data x3, Instr.wf (.tetherLinkFrame h (2 ^ 8) data x3) = false) ∧
    (∀ h op x3, Instr.wf (.tetherLinkFrame h op (2 ^ 64) x3) = false) ∧
    (Instr.wf (.tetherReplayTimeout 24) = false) ∧
    (∀ tag result temp exec held, Instr.wf (.tetherResp ⟨24, 0, 0, true⟩ tag result temp exec held) = false) ∧
    (∀ h result temp exec held, Instr.wf (.tetherResp h (2 ^ 12) result temp exec held) = false) ∧
    (∀ h tag temp exec held, Instr.wf (.tetherResp h tag (2 ^ 8) temp exec held) = false) ∧
    (∀ h tag result exec held, Instr.wf (.tetherResp h tag result (2 ^ 8) exec held) = false) ∧
    (∀ h tag result temp held, Instr.wf (.tetherResp h tag result temp (2 ^ 32) held) = false) ∧
    (∀ h tag result temp exec, Instr.wf (.tetherResp h tag result temp exec (2 ^ 32)) = false) ∧
    (∀ tag x2 x3, Instr.wf (.tetherRdata ⟨24, 0, 0, true⟩ tag x2 x3) = false) ∧
    (∀ h x2 x3, Instr.wf (.tetherRdata h (2 ^ 12) x2 x3) = false) ∧
    (∀ claim accepted rejected x4 x5, Instr.wf (.tetherClaimReply ⟨24, 0, 0, true⟩ claim accepted rejected x4 x5) = false) ∧
    (∀ h accepted rejected x4 x5, Instr.wf (.tetherClaimReply h (2 ^ 32) accepted rejected x4 x5) = false) ∧
    (∀ h claim rejected x4 x5, Instr.wf (.tetherClaimReply h claim (2 ^ 8) rejected x4 x5) = false) ∧
    (∀ h claim accepted x4 x5, Instr.wf (.tetherClaimReply h claim accepted (2 ^ 8) x4 x5) = false) ∧
    (∀ temp flags x3 x4, Instr.wf (.tetherStatus ⟨24, 0, 0, true⟩ temp flags x3 x4) = false) ∧
    (∀ h flags x3 x4, Instr.wf (.tetherStatus h (2 ^ 8) flags x3 x4) = false) ∧
    (∀ h temp x3 x4, Instr.wf (.tetherStatus h temp (2 ^ 8) x3 x4) = false) ∧
    (Instr.wf (.statusLate 24) = false) ∧
    (∀ sleds channels, Instr.wf (.tthClaimCmd (2 ^ 32) sleds channels) = false) ∧
    (∀ epoch channels, Instr.wf (.tthClaimCmd epoch (2 ^ 24) channels) = false) ∧
    (∀ epoch sleds, Instr.wf (.tthClaimCmd epoch sleds (2 ^ 8)) = false) ∧
    (Instr.wf (.claimResendTimeout 24) = false) ∧
    (∀ tag, Instr.wf (.nandOpTimeout 24 tag) = false) ∧
    (∀ sled, Instr.wf (.nandOpTimeout sled (2 ^ 12)) = false) ∧
    (Instr.wf (.mdaSledReload 24) = false) ∧
    (∀ x0, Instr.wf (.nandProgramIssue x0 (2 ^ 12)) = false) ∧
    (∀ x0, Instr.wf (.nandReadIssue x0 (2 ^ 12)) = false) := by
  refine ⟨?_, ?_, ?_, ?_, ?_, ?_, ?_, ?_, ?_, ?_, ?_, ?_, ?_, ?_, ?_, ?_, ?_, ?_, ?_, ?_, ?_, ?_, ?_, ?_, ?_, ?_, ?_, ?_, ?_, ?_, ?_, ?_⟩ <;> intros <;> simp [Instr.wf, Machine.Path.ok, Machine.Agent.ok, Machine.Src.ok, Machine.RxHdr.ok, Machine.BHdr.ok]

theorem test_illformed_07 :
    (∀ ch die tag x4, Instr.wf (.mediaSuspendSend 24 ch die tag x4) = false) ∧
    (∀ sled die tag x4, Instr.wf (.mediaSuspendSend sled (2 ^ 3) die tag x4) = false) ∧
    (∀ sled ch tag x4, Instr.wf (.mediaSuspendSend sled ch (2 ^ 4) tag x4) = false) ∧
    (∀ sled ch die x4, Instr.wf (.mediaSuspendSend sled ch die (2 ^ 12) x4) = false) ∧
    (∀ ch die tag, Instr.wf (.mediaResumeSend 24 ch die tag) = false) ∧
    (∀ sled die tag, Instr.wf (.mediaResumeSend sled (2 ^ 3) die tag) = false) ∧
    (∀ sled ch tag, Instr.wf (.mediaResumeSend sled ch (2 ^ 4) tag) = false) ∧
    (∀ sled ch die, Instr.wf (.mediaResumeSend sled ch die (2 ^ 12)) = false) ∧
    (Instr.wf (.sledGraceExpiry 24) = false) ∧
    (Instr.wf (.sledDeclareFailed 24) = false) ∧
    (Instr.wf (.sledReturn 24) = false) ∧
    (Instr.wf (.sledRetired 24) = false) ∧
    (∀ x1, Instr.wf (.subportLinkChange 16 x1) = false) ∧
    (∀ x1 x2 x3 x4 x5, Instr.wf (.frameReceive 16 x1 x2 x3 x4 x5) = false) ∧
    (∀ x1, Instr.wf (.recirculationPass (2 ^ 1) x1) = false) ∧
    (∀ x1, Instr.wf (.resequenceRelease 16 x1) = false) ∧
    (∀ ports, Instr.wf (.classUpdateLoad (2 ^ 16) ports) = false) ∧
    (∀ count, Instr.wf (.classUpdateLoad count (2 ^ 16)) = false) ∧
    (Instr.wf (.egressFrameStart 16) = false) ∧
    (Instr.wf (.auditEnd (2 ^ 32)) = false) ∧
    (Instr.wf (.schTenUpdate (2 ^ 12)) = false) ∧
    (Instr.wf (.schPolUpdate (2 ^ 12)) = false) ∧
    (Instr.wf (.cnpRecoverExpiry (2 ^ 32)) = false) ∧
    (Instr.wf (.holdExpiry 16) = false) ∧
    (∀ n tenant psn x4 x5, Instr.wf (.roceRequestReceive (2 ^ 1) n tenant psn x4 x5) = false) ∧
    (∀ pipe tenant psn x4 x5, Instr.wf (.roceRequestReceive pipe (2 ^ 32) tenant psn x4 x5) = false) ∧
    (∀ pipe n psn x4 x5, Instr.wf (.roceRequestReceive pipe n (2 ^ 12) psn x4 x5) = false) ∧
    (∀ pipe n tenant x4 x5, Instr.wf (.roceRequestReceive pipe n tenant (2 ^ 24) x4 x5) = false) ∧
    (Instr.wf (.ackCoalesceExpiry (2 ^ 32)) = false) ∧
    (∀ n tenant psn code msn, Instr.wf (.roceAckReceive (2 ^ 1) n tenant psn code msn) = false) ∧
    (∀ pipe tenant psn code msn, Instr.wf (.roceAckReceive pipe (2 ^ 32) tenant psn code msn) = false) ∧
    (∀ pipe n psn code msn, Instr.wf (.roceAckReceive pipe n (2 ^ 12) psn code msn) = false) := by
  refine ⟨?_, ?_, ?_, ?_, ?_, ?_, ?_, ?_, ?_, ?_, ?_, ?_, ?_, ?_, ?_, ?_, ?_, ?_, ?_, ?_, ?_, ?_, ?_, ?_, ?_, ?_, ?_, ?_, ?_, ?_, ?_, ?_⟩ <;> intros <;> simp [Instr.wf, Machine.Path.ok, Machine.Agent.ok, Machine.Src.ok, Machine.RxHdr.ok, Machine.BHdr.ok]

theorem test_illformed_08 :
    (∀ pipe n tenant code msn, Instr.wf (.roceAckReceive pipe n tenant (2 ^ 24) code msn) = false) ∧
    (∀ pipe n tenant psn msn, Instr.wf (.roceAckReceive pipe n tenant psn (2 ^ 5) msn) = false) ∧
    (∀ pipe n tenant psn code, Instr.wf (.roceAckReceive pipe n tenant psn code (2 ^ 24)) = false) ∧
    (∀ n tenant psn x4, Instr.wf (.roceNakReceive (2 ^ 1) n tenant psn x4) = false) ∧
    (∀ pipe tenant psn x4, Instr.wf (.roceNakReceive pipe (2 ^ 32) tenant psn x4) = false) ∧
    (∀ pipe n psn x4, Instr.wf (.roceNakReceive pipe n (2 ^ 12) psn x4) = false) ∧
    (∀ pipe n tenant x4, Instr.wf (.roceNakReceive pipe n tenant (2 ^ 24) x4) = false) ∧
    (∀ n tenant psn x4 x5, Instr.wf (.roceReadResponse (2 ^ 1) n tenant psn x4 x5) = false) ∧
    (∀ pipe tenant psn x4 x5, Instr.wf (.roceReadResponse pipe (2 ^ 32) tenant psn x4 x5) = false) ∧
    (∀ pipe n psn x4 x5, Instr.wf (.roceReadResponse pipe n (2 ^ 12) psn x4 x5) = false) ∧
    (∀ pipe n tenant x4 x5, Instr.wf (.roceReadResponse pipe n tenant (2 ^ 24) x4 x5) = false) ∧
    (Instr.wf (.roceAckTimeout (2 ^ 32)) = false) ∧
    (Instr.wf (.rnrTimerExpiry (2 ^ 32)) = false) ∧
    (∀ n tenant, Instr.wf (.cnpReceive (2 ^ 1) n tenant) = false) ∧
    (∀ pipe tenant, Instr.wf (.cnpReceive pipe (2 ^ 32) tenant) = false) ∧
    (∀ pipe n, Instr.wf (.cnpReceive pipe n (2 ^ 12)) = false) ∧
    (Instr.wf (.contextFetchDone (2 ^ 32)) = false) ∧
    (Instr.wf (.contextOpenResume 14) = false) ∧
    (Instr.wf (.xptCtxClose (2 ^ 32)) = false) ∧
    (Instr.wf (.xptCtxMove (2 ^ 32)) = false) ∧
    (∀ slot, Instr.wf (.strCtxBind (2 ^ 32) slot) = false) ∧
    (∀ n, Instr.wf (.strCtxBind n (2 ^ 16)) = false) ∧
    (Instr.wf (.strCtxClose (2 ^ 32)) = false) ∧
    (∀ tenant, Instr.wf (.tcpSynReceive 16 tenant) = false) ∧
    (∀ port, Instr.wf (.tcpSynReceive port (2 ^ 12)) = false) ∧
    (Instr.wf (.tcpRtoExpiry (2 ^ 32)) = false) ∧
    (∀ pfv hpda x3 x4 x5, Instr.wf (.icreq (2 ^ 32) pfv hpda x3 x4 x5) = false) ∧
    (∀ n hpda x3 x4 x5, Instr.wf (.icreq n (2 ^ 16) hpda x3 x4 x5) = false) ∧
    (∀ n pfv x3 x4 x5, Instr.wf (.icreq n pfv (2 ^ 8) x3 x4 x5) = false) ∧
    (∀ x1 x2 x3, Instr.wf (.capsulecmd (2 ^ 32) x1 x2 x3) = false) ∧
    (∀ ttag off x3 x4 x5, Instr.wf (.h2cdata (2 ^ 32) ttag off x3 x4 x5) = false) ∧
    (∀ n off x3 x4 x5, Instr.wf (.h2cdata n (2 ^ 16) off x3 x4 x5) = false) := by
  refine ⟨?_, ?_, ?_, ?_, ?_, ?_, ?_, ?_, ?_, ?_, ?_, ?_, ?_, ?_, ?_, ?_, ?_, ?_, ?_, ?_, ?_, ?_, ?_, ?_, ?_, ?_, ?_, ?_, ?_, ?_, ?_, ?_⟩ <;> intros <;> simp [Instr.wf, Machine.Path.ok, Machine.Agent.ok, Machine.Src.ok, Machine.RxHdr.ok, Machine.BHdr.ok]

theorem test_illformed_09 :
    (∀ n ttag x3 x4 x5, Instr.wf (.h2cdata n ttag (2 ^ 32) x3 x4 x5) = false) ∧
    (Instr.wf (.h2ctermreq (2 ^ 32)) = false) ∧
    (∀ x1 x2, Instr.wf (.tlsRecordReceive (2 ^ 32) x1 x2) = false) ∧
    (Instr.wf (.tlsKeyupdateReceive (2 ^ 32)) = false) ∧
    (Instr.wf (.tlsAlertReceive (2 ^ 32)) = false) ∧
    (∀ x0, Instr.wf (.keyLoad x0 (2 ^ 16)) = false) ∧
    (∀ x0 x1, Instr.wf (.keyDestroy x0 x1 (2 ^ 16)) = false) ∧
    (∀ x1, Instr.wf (.generationDrained (2 ^ 16) x1) = false) ∧
    (Instr.wf (.belayLinkEnable (2 ^ 2)) = false) ∧
    (∀ x1, Instr.wf (.hello ⟨4294967296, 0, true⟩ x1) = false) ∧
    (∀ x1, Instr.wf (.beat ⟨4294967296, 0, true⟩ x1) = false) ∧
    (Instr.wf (.belayPhyDown (2 ^ 1)) = false) ∧
    (∀ x1, Instr.wf (.bundle ⟨4294967296, 0, true⟩ x1) = false) ∧
    (∀ cycle part, Instr.wf (.bconf ⟨4294967296, 0, true⟩ cycle part) = false) ∧
    (∀ h part, Instr.wf (.bconf h (2 ^ 64) part) = false) ∧
    (∀ h cycle, Instr.wf (.bconf h cycle (2 ^ 8)) = false) ∧
    (∀ x1, Instr.wf (.trec ⟨4294967296, 0, true⟩ x1) = false) ∧
    (∀ number, Instr.wf (.tconf ⟨4294967296, 0, true⟩ number) = false) ∧
    (∀ h, Instr.wf (.tconf h (2 ^ 64)) = false) ∧
    (∀ x1, Instr.wf (.fwd ⟨4294967296, 0, true⟩ x1) = false) ∧
    (∀ epoch, Instr.wf (.join ⟨4294967296, 0, true⟩ epoch) = false) ∧
    (∀ h, Instr.wf (.join h (2 ^ 32)) = false) ∧
    (∀ epoch, Instr.wf (.handback ⟨4294967296, 0, true⟩ epoch) = false) ∧
    (∀ h, Instr.wf (.handback h (2 ^ 32)) = false) ∧
    (∀ epoch, Instr.wf (.handoverReceive ⟨4294967296, 0, true⟩ epoch) = false) ∧
    (∀ h, Instr.wf (.handoverReceive h (2 ^ 32)) = false) ∧
    (∀ blk n detail, Instr.wf (.faultDetect (2 ^ 4) blk n detail) = false) ∧
    (∀ cls blk detail, Instr.wf (.faultDetect cls blk (instCount blk) detail) = false) ∧
    (∀ cls blk n, Instr.wf (.faultDetect cls blk n (2 ^ 31)) = false) ∧
    (∀ blk n x3, Instr.wf (.selftestSlice (2 ^ 16) blk n x3) = false) ∧
    (∀ item blk x3, Instr.wf (.selftestSlice item blk (instCount blk) x3) = false) ∧
    (Instr.wf (.selftestPassEnd (2 ^ 32)) = false) := by
  refine ⟨?_, ?_, ?_, ?_, ?_, ?_, ?_, ?_, ?_, ?_, ?_, ?_, ?_, ?_, ?_, ?_, ?_, ?_, ?_, ?_, ?_, ?_, ?_, ?_, ?_, ?_, ?_, ?_, ?_, ?_, ?_, ?_⟩ <;> intros <;> simp [Instr.wf, Machine.Path.ok, Machine.Agent.ok, Machine.Src.ok, Machine.RxHdr.ok, Machine.BHdr.ok]

theorem test_illformed_10 :
    (∀ x0, Instr.wf (.sptInject x0 (2 ^ 4)) = false) ∧
    (∀ offset length, Instr.wf (.getCertificate (2 ^ 8) offset length) = false) ∧
    (∀ slot length, Instr.wf (.getCertificate slot (2 ^ 16) length) = false) ∧
    (∀ slot offset, Instr.wf (.getCertificate slot offset (2 ^ 16)) = false) ∧
    (∀ summary x2, Instr.wf (.challenge (2 ^ 8) summary x2) = false) ∧
    (∀ slot x2, Instr.wf (.challenge slot (2 ^ 8) x2) = false) ∧
    (∀ x1, Instr.wf (.getMeasurements (2 ^ 8) x1) = false) ∧
    (Instr.wf (.powerStateRequest (2 ^ 2)) = false) ∧
    (∀ x0, Instr.wf (.domainRequest x0 (2 ^ 3)) = false) ∧
    (∀ x1, Instr.wf (.domainStateReached 96 x1) = false) ∧
    (Instr.wf (.domainIdleGate 96) = false) ∧
    (Instr.wf (.domainWorkWake 96) = false) ∧
    (Instr.wf (.pllLock 17) = false) ∧
    (∀ tenant, Instr.wf (.samplingEvent (2 ^ 8) tenant) = false) ∧
    (∀ src, Instr.wf (.samplingEvent src (2 ^ 12)) = false) ∧
    (∀ x1 x2, Instr.wf (.sampCountWrite (2 ^ 4) x1 x2) = false) ∧
    (∀ x1, Instr.wf (.tetherLinkUp 24 x1) = false) ∧
    (Instr.wf (.belayPhyUp (2 ^ 1)) = false) ∧
    (∀ credits x2, Instr.wf (.belayLinkFrame ⟨4294967296, 0, true⟩ credits x2) = false) ∧
    (∀ h x2, Instr.wf (.belayLinkFrame h (2 ^ 16) x2) = false) ∧
    (∀ bootMode, Instr.wf (.resetNRise (2 ^ 1) bootMode) = false) ∧
    (∀ unitId, Instr.wf (.resetNRise unitId (2 ^ 1)) = false) := by
  refine ⟨?_, ?_, ?_, ?_, ?_, ?_, ?_, ?_, ?_, ?_, ?_, ?_, ?_, ?_, ?_, ?_, ?_, ?_, ?_, ?_, ?_, ?_⟩ <;> intros <;> simp [Instr.wf, Machine.Path.ok, Machine.Agent.ok, Machine.Src.ok, Machine.RxHdr.ok, Machine.BHdr.ok]

/-! ### Witnesses: states and operands that meet the hypotheses of each clause of each statement, in the clauses' order -/

theorem witness_RegisterAccess :
    (let who : Path := .core 0; let a : Nat := regAddr 0x12 0 0x20; let blk := 0x12; let n := 0; let s : State := {};
     s.live = true ∧ addrTarget a = .reg blk n 0x20 ∧ s.dev.mayWrite who blk 0x20 = true) ∧
    (let who : Path := .core 0; let a : Nat := regAddr 0x12 0 0x28; let blk := 0x12; let n := 0; let s : State := {};
     s.live = true ∧ addrTarget a = .reg blk n 0x28 ∧ s.dev.mayWrite who blk 0x28 = true) ∧
    (let who : Path := .core 0; let a : Nat := regAddr 0x12 0 0x08; let blk := 0x12; let n := 0; let s : State := {};
     s.live = true ∧ addrTarget a = .reg blk n 0x08 ∧ s.dev.mayWrite who blk 0x08 = true) ∧
    (let who : Path := .core 0; let a : Nat := regAddr 0x12 0 0x30; let blk := 0x12; let n := 0; let v : Word := 0;
     let s : State := {};
     s.live = true ∧ addrTarget a = .reg blk n 0x30 ∧ s.dev.mayWrite who blk 0x30 = true ∧ field v 2 0 ≤ 4) ∧
    (let who : Path := .core 0; let a : Nat := regAddr 0x12 0 0x40; let blk := 0x12; let n := 0; let s : State := {};
     s.live = true ∧ addrTarget a = .reg blk n 0x40 ∧ s.dev.mayWrite who blk 0x40 = true) ∧
    (let who : Path := .core 0; let a : Nat := regAddr 0x12 0 0x200; let blk := 0x12; let n := 0; let off := 0x200;
     let v : Word := 0; let r : Row := (rowAt 0x12 0 0x200).getD { off := 0, flds := [] }; let s : State := {};
     s.live = true ∧ addrTarget a = .reg blk n off ∧ s.dev.mayWrite who blk off = true ∧ inHeader off = false ∧
     rowAt blk n off = some r ∧ ownEffect blk off = false ∧
     ((s.dev.inst blk n).enable = false ∨ (v ^^^ s.dev.reg blk n off) &&& r.mask (· = .lk) = 0) ∧
     ((s.dev.inst blk n).swap = false ∨ r.mask (· = .st) = 0)) ∧
    (let who : Path := .core 0; let a : Nat := regAddr 0x19 0 0x208; let blk := 0x19; let n := 0; let off := 0x208;
     let v : Word := 1; let r : Row := (rowAt 0x19 0 0x208).getD { off := 0, flds := [] };
     let d : Dev := ({} : Dev).modInst blk n fun i => { i with enable := true }
     let s : State := { dev := d };
     s.live = true ∧ addrTarget a = .reg blk n off ∧ s.dev.mayWrite who blk off = true ∧ inHeader off = false ∧
     rowAt blk n off = some r ∧ ownEffect blk off = false ∧ (s.dev.inst blk n).enable = true ∧
     (v ^^^ s.dev.reg blk n off) &&& r.mask (· = .lk) ≠ 0 ∧ r.mask (· = .st) = 0) ∧
    (let who : Path := .core 0; let a : Nat := regAddr 0x0A 0 0x208; let blk := 0x0A; let n := 0; let off := 0x208;
     let v : Word := 0; let r : Row := (rowAt 0x0A 0 0x208).getD { off := 0, flds := [] };
     let d : Dev := ({} : Dev).modInst blk n fun i => { i with swap := true }
     let s : State := { dev := d };
     s.live = true ∧ addrTarget a = .reg blk n off ∧ s.dev.mayWrite who blk off = true ∧ inHeader off = false ∧
     rowAt blk n off = some r ∧ ownEffect blk off = false ∧
     ((s.dev.inst blk n).enable = false ∨ (v ^^^ s.dev.reg blk n off) &&& r.mask (· = .lk) = 0) ∧
     (s.dev.inst blk n).swap = true ∧ r.mask (· = .st) ≠ 0) ∧
    (let who : Path := .core 0; let a : Nat := regAddr 0x19 0 0x200; let blk := 0x19; let n := 0; let off := 0x200;
     let s : State := {};
     s.live = true ∧ addrTarget a = .reg blk n off ∧ s.dev.mayWrite who blk off = true ∧ ownEffect blk off = true) ∧
    (let who : Path := .lane; let a : Nat := regAddr 0x12 0 0x200; let blk := 0x12; let n := 0; let off := 0x200;
     let s : State := {};
     s.live = true ∧ addrTarget a = .reg blk n off ∧ s.dev.mayWrite who blk off = false) ∧
    (let a := 0x1202000; let blk := 0x12; let n := 0; let s : State := {};
     s.live = true ∧ addrTarget a = .unmapped blk n) ∧
    (let a := 0xFFF00000; let s : State := {};
     s.live = true ∧ addrTarget a = .outside) ∧
    (let who : Path := .core 0; let a : Nat := regAddr 0x12 0 0x200; let blk := 0x12; let n := 0; let off := 0x200;
     let r : Row := (rowAt 0x12 0 0x200).getD { off := 0, flds := [] }; let s : State := {};
     s.live = true ∧ addrTarget a = .reg blk n off ∧ inHeader off = false ∧ rowAt blk n off = some r ∧
     readEffect who blk off = false) ∧
    (let a : Nat := regAddr 0x12 0 0x20; let blk := 0x12; let n := 0; let off := 0x20; let s : State := {};
     s.live = true ∧ addrTarget a = .reg blk n off ∧ inHeader off = true) ∧
    (let a : Nat := regAddr 3 0 Reg.SPT_FAULTS.ALL.off; let s : State := {};
     s.live = true ∧ addrTarget a = .reg 3 0 Reg.SPT_FAULTS.ALL.off) ∧
    (let a : Nat := regAddr 9 0 0x248; let p := 1; let s : State := {};
     s.live = true ∧ p < 4 ∧ addrTarget a = .reg 9 0 (0x240 + 8 * p)) ∧
    (let a : Nat := regAddr 5 0 Reg.TLY_WIN_PEAK.RX_KIB.off; let s : State := {};
     s.live = true ∧ addrTarget a = .reg 5 0 Reg.TLY_WIN_PEAK.RX_KIB.off) ∧
    (let a : Nat := regAddr 2 0 Reg.WDN_MBOX.DATA.off; let s : State := {};
     s.live = true ∧ addrTarget a = .reg 2 0 Reg.WDN_MBOX.DATA.off) ∧
    (let a : Nat := regAddr 0x13 0 Reg.PITCH_LOAD.STATE.off; let s : State := {};
     s.live = true ∧ addrTarget a = .reg 0x13 0 Reg.PITCH_LOAD.STATE.off) ∧
    (let a := 0x1202000; let blk := 0x12; let n := 0; let s : State := {};
     s.live = true ∧ addrTarget a = .unmapped blk n) ∧
    (let a := 0xFFF00000; let s : State := {};
     s.live = true ∧ addrTarget a = .outside) ∧
    (let a : Nat := regAddr 0x12 0 0x200; let width := 0; let blk := 0x12; let n := 0; let off := 0x200;
     let s : State := {};
     s.live = true ∧ width ≠ 8 ∧ addrTarget a = .reg blk n off) ∧
    (let a := 0x1202000; let blk := 0x12; let n := 0; let s : State := {};
     s.live = true ∧ addrTarget a = .unmapped blk n) ∧
    (let a := 0xFFF00000; let s : State := {};
     s.live = true ∧ addrTarget a = .outside) := by
  refine ⟨?_, ?_, ?_, ?_, ?_, ?_, ?_, ?_, ?_, ?_, ?_, ?_, ?_, ?_, ?_, ?_, ?_, ?_, ?_, ?_, ?_, ?_, ?_, ?_⟩ <;> decide +kernel

theorem witness_BlockService :
    (let blk := 0; let n := 0;
     let d : Dev := ({} : Dev).modInst blk n fun i => { i with enabled := false, safe := false, check := none, swap := false, disabling := false }
     let s : State := { dev := d };
     s.live = true ∧ n < instCount blk ∧
     ((s.dev.inst blk n).enabled = false ∧ (s.dev.inst blk n).safe = false ∨ (s.dev.inst blk n).enabled = false ∧ (s.dev.inst blk n).zeroed = true ∧ s.dev.spotter.unitSafe = false) ∧
     (s.dev.inst blk n).busy = false) ∧
    (let blk := 0; let n := 0; let s : State := {};
     s.live = true ∧
     (instCount blk ≤ n ∨ (s.dev.inst blk n).enabled = true ∨ (s.dev.inst blk n).busy = true ∨ (s.dev.inst blk n).safe = true ∧ (s.dev.inst blk n).zeroed = false)) ∧
    (let blk := 3; let n := 0; let o : CheckObs := {}; let r : Nat × Nat := (772, 0);
     let d : Dev := ({} : Dev).modInst blk n fun i => { i with check := some .enable }
     let s : State := { dev := d };
     s.live = true ∧ n < instCount blk ∧ (s.dev.inst blk n).check = some .enable ∧
     (s.dev.dmcTrained blk o).checkResult blk n o = some r) ∧
    (let blk := 1; let n := 0; let o : CheckObs := {};
     let d : Dev := ({} : Dev).modInst blk n fun i => { i with check := some .enable }
     let s : State := { dev := d };
     s.live = true ∧ n < instCount blk ∧
     blk ∈ [0x01, 0x02, 0x04, 0x05, 0x09, 0x0A, 0x0B, 0x0C, 0x0D, 0x0E, 0x11, 0x12, 0x14, 0x18, 0x1C] ∧
     (s.dev.inst blk n).check = some .enable ∧ (s.dev.inst blk n).heldDisable = false ∧
     (s.dev.inst blk n).safe = false ∧ s.dev.checkResult blk n o = none) ∧
    (let blk := 0; let n := 0; let o : CheckObs := {};
     let d : Dev := ({} : Dev).modInst blk n fun i => { i with check := some .enable }
     let s : State := { dev := d };
     s.live = true ∧ n < instCount blk ∧ (s.dev.inst blk n).check = some .enable ∧
     (s.dev.dmcTrained blk o).checkResult blk n o = none) ∧
    (let blk := 0; let n := 0; let s : State := {};
     s.live = true ∧ (s.dev.inst blk n).check ≠ some .enable) ∧
    (let blk := 1; let n := 0; let d : Dev := ({} : Dev).modInst blk n fun i => { i with enabled := true }
     let s : State := { dev := d };
     s.live = true ∧ n < instCount blk ∧ blk ≠ 0 ∧ (s.dev.inst blk n).enabled = true ∧
     (s.dev.inst blk n).safe = false ∧ (s.dev.inst blk n).check = none ∧ (s.dev.inst blk n).swap = false ∧
     (s.dev.inst blk n).disabling = false ∧ s.dev.disableHeld blk n = false) ∧
    (let blk := 3; let n := 0; let d : Dev := ({} : Dev).modInst blk n fun i => { i with enabled := true }
     let d : Dev := wOn d 0x11 0; let d : Dev := wOn d 0x17 0; let s : State := { dev := d };
     s.live = true ∧ n < instCount blk ∧ blk ≠ 0 ∧ (s.dev.inst blk n).enabled = true ∧
     (s.dev.inst blk n).safe = false ∧ (s.dev.inst blk n).check = none ∧ (s.dev.inst blk n).swap = false ∧
     (s.dev.inst blk n).disabling = false ∧ s.dev.depHeld blk n = true) ∧
    (let blk := 1; let n := 0; let d : Dev := ({} : Dev).modInst blk n fun i => { i with enabled := true }
     let d : Dev := d.modInst blk n fun i => { i with safe := true }
     let s : State := { dev := d };
     s.live = true ∧ n < instCount blk ∧ blk ≠ 0 ∧ (s.dev.inst blk n).enabled = true ∧ (s.dev.inst blk n).safe = true ∧
     (s.dev.inst blk n).check = none ∧ (s.dev.inst blk n).swap = false ∧ (s.dev.inst blk n).disabling = false) ∧
    (let blk := 1; let n := 0;
     let d : Dev := ({} : Dev).modInst blk n fun i => { i with swap := true, enabled := true }
     let s : State := { dev := d };
     s.live = true ∧ n < instCount blk ∧ blk ≠ 0 ∧ (s.dev.inst blk n).safe = false ∧
     ((s.dev.inst blk n).check.isSome = true ∨ (s.dev.inst blk n).enabled = true ∧ (s.dev.inst blk n).swap = true)) ∧
    (let blk := 1; let n := 0; let s : State := {};
     s.live = true ∧ n < instCount blk ∧ blk ≠ 0 ∧ (s.dev.inst blk n).enabled = false ∧
     (s.dev.inst blk n).check = none ∧ (s.dev.inst blk n).safe = false) ∧
    (let s : State := {};
     s.live = true) ∧
    (let blk := 0; let n := 0; let d : Dev := ({} : Dev).modInst blk n fun i => { i with disabling := true }
     let s : State := { dev := d };
     s.live = true ∧ n < instCount blk ∧ (s.dev.inst blk n).disabling = true) ∧
    (let blk := 0; let n := 0; let s : State := {};
     s.live = true ∧ (s.dev.inst blk n).disabling = false) ∧
    (let blk := 0; let n := 0; let s : State := {};
     s.live = true ∧ n < instCount blk ∧ (s.dev.inst blk n).disabling = false) ∧
    (let blk := 0; let n := 0; let d : Dev := ({} : Dev).modInst blk n fun i => { i with drain := true }
     let s : State := { dev := d };
     s.live = true ∧ n < instCount blk ∧ (s.dev.inst blk n).drain = true ∧ (s.dev.inst blk n).disabling = false) := by
  refine ⟨?_, ?_, ?_, ?_, ?_, ?_, ?_, ?_, ?_, ?_, ?_, ?_, ?_, ?_, ?_, ?_⟩ <;> decide +kernel

theorem witness_GenerationSwap :
    (let blk := 0; let n := 0; let d : Dev := ({} : Dev).modInst blk n fun i => { i with enabled := true }
     let s : State := { dev := d };
     s.live = true ∧ n < instCount blk ∧ (s.dev.inst blk n).enabled = true ∧ (s.dev.inst blk n).busy = false) ∧
    (let blk := 0; let n := 0; let d : Dev := ({} : Dev).modInst blk n fun i => { i with enabled := false }
     let s : State := { dev := d };
     s.live = true ∧ ((s.dev.inst blk n).enabled = false ∨ (s.dev.inst blk n).busy = true)) ∧
    (let blk := 3; let n := 0; let o : CheckObs := {}; let r : Nat × Nat := (772, 0);
     let d : Dev := ({} : Dev).modInst blk n fun i => { i with check := some .swap }
     let s : State := { dev := d };
     s.live = true ∧ n < instCount blk ∧ (s.dev.inst blk n).check = some .swap ∧
     (s.dev.inst blk n).heldDisable = false ∧ s.dev.checkResult blk n o = some r) ∧
    (let blk := 1; let n := 0; let o : CheckObs := {};
     let d : Dev := ({} : Dev).modInst blk n fun i => { i with check := some .swap }
     let s : State := { dev := d };
     s.live = true ∧ n < instCount blk ∧ s.dev.swapsAtOnce blk = true ∧ (s.dev.inst blk n).check = some .swap ∧
     (s.dev.inst blk n).heldDisable = false ∧ (s.dev.inst blk n).swapFits = true ∧ s.dev.checkResult blk n o = none) ∧
    (let blk := 0x12; let n := 0; let o : CheckObs := {};
     let d : Dev := ({} : Dev).modInst blk n fun i => { i with check := some .swap }
     let d : Dev := State.reset.dev;
     let d : Dev := { d with camp := { d.camp with doms := (List.range 96).map fun k => (k, { state := 0, req := 0 }) } }
     let d : Dev := allInsts.foldl (fun d p => wOn d p.1 p.2) d;
     let d : Dev := d.modInst 0x12 0 fun i => { i with check := some .swap }
     let s : State := { dev := d };
     s.live = true ∧ n < instCount blk ∧ (s.dev.swapsAtOnce blk = false ∨ (s.dev.inst blk n).swapFits = false) ∧
     blk ≠ 0x16 ∧ (s.dev.inst blk n).check = some .swap ∧ s.dev.checkResult blk n o = none) ∧
    (let o : CheckObs := {}; let d : Dev := ({} : Dev).modInst 0x16 0 fun i => { i with check := some .swap }
     let d : Dev := State.reset.dev;
     let d : Dev := { d with camp := { d.camp with doms := (List.range 96).map fun k => (k, { state := 0, req := 0 }) } }
     let d : Dev := allInsts.foldl (fun d p => wOn d p.1 p.2) d;
     let d : Dev := d.modInst 0x16 0 fun i => { i with check := some .swap }
     let d : Dev := d.fset Reg.MDA_SLED_TAB.ADDR 0x100000; let d : Dev := d.fset Reg.MDA_BLKTAB.ADDR 0x200000;
     let d : Dev := d.fset Reg.MDA_THR_TAB.ADDR 0x300000; let d : Dev := d.fset Reg.DMC_CAP.MIB 262144;
     let d : Dev := d.fset Reg.TTH_IDENT.CHANNELS 1; let d : Dev := d.fset Reg.TTH_IDENT.DIES 1;
     let d : Dev := d.fset Reg.TTH_IDENT.PLANES 1;
     let d : Dev := { d with shadow := d.shadow.set (regAddr 0x16 0 0x218) 0x400000000 };
     let d : Dev := { d with mem := { d.mem with dram := ([(0, 1, 1), (1, 1, 3), (2, 1, 1), (3, 1, 1), (4, 1, 1), (6, 2, 1), (8, 2, 1), (10, 2, 18688), (12, 2, 1), (14, 2, 1), (16, 2, 1), (18, 2, 1), (20, 2, 1), (22, 1, 1), (24, 4, 1), (30, 1, 1), (31, 1, 1), (32, 2, 1), (0x300000004, 4, 20000), (0x300000008, 1, 3), (0x300000100, 4, 10000), (0x300000104, 4, 0x40001388), (0x300000108, 4, 0x80001388)] : List (Nat × Nat × Nat)).foldl (fun (m : Memory) x => m.write (0x100000000 + x.1) x.2.1 x.2.2) ([] : Memory) } };
     let s : State := { dev := d };
     s.live = true ∧ (s.dev.inst 0x16 0).check = some .swap ∧ s.dev.checkResult 0x16 0 o = none) ∧
    (let blk := 0; let n := 0; let s : State := {};
     s.live = true ∧ (s.dev.inst blk n).check ≠ some .swap) ∧
    (let blk := 0x11; let d : Dev := ({} : Dev).modInst blk 0 fun i => { i with swapReady := true }
     let d : Dev := { d with tim := { d.tim with ns := 16000 } }; let s : State := { dev := d };
     s.live = true ∧ blk ∈ [0x11, 0x12] ∧ (s.dev.inst blk 0).swapReady = true ∧ (s.dev.inst blk 0).swapFits = true ∧
     (s.dev.inst blk 0).heldDisable = false ∧ s.dev.now % max 1 s.dev.cycleNs = 0 ∧
     (s.dev.inst blk 0).swapAt < s.dev.now) ∧
    (let p := 0; let d : Dev := ({} : Dev).modInst 0x13 0 fun i => { i with swapReady := true }
     let d : Dev := { d with pitch := { d.pitch with pause := some p } };
     let d : Dev := { d with tim := { d.tim with ns := 16000 } }; let d : Dev := d.fset Reg.ROPE_CUR_CYCLE.CYCLE 2;
     let s : State := { dev := d };
     s.live = true ∧ (s.dev.inst 0x13 0).swapReady = true ∧ (s.dev.inst 0x13 0).heldDisable = false ∧
     s.dev.pitch.pause = some p ∧ s.dev.now % max 1 s.dev.cycleNs = 0 ∧ cycLt p s.dev.cycle = true) ∧
    (let t : GateTab := {}; let at_ := 0;
     let d : Dev := ({} : Dev).modInst 0x16 0 fun i => { i with swapReady := true }
     let d : Dev := { d with media := { d.media with nextGates := some (t, at_) } }; let s : State := { dev := d };
     s.live = true ∧ (s.dev.inst 0x16 0).swapReady = true ∧ (s.dev.inst 0x16 0).heldDisable = false ∧
     s.dev.media.nextGates = some (t, at_) ∧ at_ ≤ s.dev.now) ∧
    (let t : NetGates := {}; let at_ := 0;
     let d : Dev := ({} : Dev).modInst 0x0F 0 fun i => { i with swapReady := true }
     let d : Dev := { d with sch := { d.sch with next := some (t, at_) } };
     let d : Dev := d.fset Reg.SCH_CFG.GATES_EN 1; let s : State := { dev := d };
     s.live = true ∧ (s.dev.inst 0x0F 0).swapReady = true ∧ s.dev.swapsAtOnce 0x0F = false ∧
     (s.dev.inst 0x0F 0).heldDisable = false ∧ s.dev.sch.next = some (t, at_) ∧ at_ ≤ s.dev.now) ∧
    (let blk := 1; let n := 0; let d : Dev := ({} : Dev).modInst blk n fun i => { i with swapReady := true }
     let s : State := { dev := d };
     s.live = true ∧ n < instCount blk ∧ (s.dev.inst blk n).swapReady = true ∧ s.dev.swapsAtOnce blk = true ∧
     (s.dev.inst blk n).swapFits = true ∧ (s.dev.inst blk n).heldDisable = false) ∧
    (let blk := 0; let n := 0; let s : State := {};
     s.live = true ∧ n < instCount blk ∧ (s.dev.inst blk n).swap = false ∧ (blk = 0x0B → n ≠ 0)) ∧
    (let s : State := {};
     s.live = true ∧ (s.dev.inst 0x0B 0).swap = false) ∧
    (let blk := 0; let n := 0; let d : Dev := ({} : Dev).modInst blk n fun i => { i with swap := true }
     let s : State := { dev := d };
     s.live = true ∧ (s.dev.inst blk n).swap = true) ∧
    (let blk := 0; let n := 0; let g := 1;
     let d : Dev := ({} : Dev).modInst blk n fun i => { i with draining := [1], swapReady := false }
     let s : State := { dev := d };
     s.live = true ∧ n < instCount blk ∧ g ∈ (s.dev.inst blk n).draining ∧ s.dev.genUsed blk g = false ∧
     (s.dev.inst blk n).swapReady = false) ∧
    (let blk := 0; let n := 0; let g := 0; let s : State := {};
     s.live = true ∧ (g ∉ (s.dev.inst blk n).draining ∨ s.dev.genUsed blk g = true)) := by
  refine ⟨?_, ?_, ?_, ?_, ?_, ?_, ?_, ?_, ?_, ?_, ?_, ?_, ?_, ?_, ?_, ?_, ?_⟩ <;> decide +kernel

theorem witness_OtherResets :
    (let ns := 1000; let s : State := {};
     s.live = true ∧ 1000 ≤ ns) ∧
    (let ns := 0; let s : State := {};
     (ns ≤ 200 ∨ s.live = false)) ∧
    (let ns := 201; let s : State := {};
     s.live = true ∧ 200 < ns ∧ ns < 1000) ∧
    (let s : State := { hard := { resetN := false } };
     s.hard.pwrGood = true ∧ s.hard.resetN = false) ∧
    (let s : State := {};
     (s.hard.pwrGood = false ∨ s.hard.resetN = true)) ∧
    (let s : State := {};
     s.hard.pwrGood = true) ∧
    (let s : State := { hard := { pwrGood := false } };
     s.hard.pwrGood = false) ∧
    (let key := 0x5752; let s : State := {};
     s.live = true ∧ key % 2 ^ 16 = 0x5752) ∧
    (let key := 0; let s : State := {};
     s.live = true ∧ key % 2 ^ 16 ≠ 0x5752) ∧
    (let d : Dev := ({} : Dev).fset Reg.WDN_WDOG.TIMEOUT_MS 1; let s : State := { dev := d };
     s.live = true ∧ s.dev.fget Reg.WDN_WDOG.TIMEOUT_MS ≠ 0) ∧
    (let d : Dev := ({} : Dev).fset Reg.WDN_WDOG.TIMEOUT_MS 0; let s : State := { dev := d };
     s.live = true ∧ s.dev.fget Reg.WDN_WDOG.TIMEOUT_MS = 0) ∧
    (let s : State := {};
     s.live = true) := by
  refine ⟨?_, ?_, ?_, ?_, ?_, ?_, ?_, ?_, ?_, ?_, ?_, ?_⟩ <;> decide +kernel

theorem witness_BootSteps :
    (let d : Dev := ({} : Dev).fset Reg.ANC_BOOT.STAGE 0; let s : State := { dev := d };
     s.live = true ∧ s.dev.fget Reg.ANC_BOOT.STAGE = 0 ∧ s.dev.anchor.sensed = false) ∧
    (let s : State := { hard := { fuseA := [(9, 1024)] } };
     s.live = true ∧ s.dev.fget Reg.ANC_BOOT.STAGE = 0 ∧ s.dev.anchor.sensed = false ∧
     ((s.hard.fuseA.get 9 ||| s.hard.fuseB.get 9).getLsbD 10) = true) ∧
    (let d : Dev := ({} : Dev).fset Reg.ANC_BOOT.STAGE 0; let d : Dev := d.fset Reg.CAMP_STRAP.BOOT_MODE 1;
     let d : Dev := d.fset Reg.CAMP_STRAP.BOOT_MODE 1; let s : State := { dev := d };
     s.live = true ∧ s.dev.fget Reg.ANC_BOOT.STAGE = 0 ∧ s.dev.anchor.sensed = false ∧
     ((s.hard.fuseA.get 9 ||| s.hard.fuseB.get 9).getLsbD 10) = false ∧ s.dev.fget Reg.CAMP_STRAP.BOOT_MODE = 1) ∧
    (let d : Dev := ({} : Dev).fset Reg.ANC_BOOT.STAGE 0;
     let d : Dev := { d with anchor := { d.anchor with sensed := true } };
     let d : Dev := d.fset Reg.CAMP_STRAP.BOOT_MODE 1; let d : Dev := d.fset Reg.CAMP_STRAP.BOOT_MODE 1;
     let s : State := { dev := d };
     s.live = true ∧ s.dev.fget Reg.ANC_BOOT.STAGE = 0 ∧ s.dev.anchor.sensed = true ∧
     s.dev.fget Reg.CAMP_STRAP.BOOT_MODE = 1) ∧
    (let flash : List Byte := []; let senseBad : Bool := false; let d : Dev := ({} : Dev).fset Reg.ANC_BOOT.STAGE 0;
     let d : Dev := d.fset Reg.CAMP_STRAP.BOOT_MODE 0; let s : State := { dev := d };
     s.live = true ∧ s.dev.fget Reg.ANC_BOOT.STAGE = 0 ∧
     (s.dev.anchor.sensed = true ∨ senseBad = false ∧ ((s.hard.fuseA.get 9 ||| s.hard.fuseB.get 9).getLsbD 10) = false) ∧
     s.dev.fget Reg.CAMP_STRAP.BOOT_MODE = 0 ∧ wardenImage flash = none) ∧
    (let flash : List Byte := [0x57, 0x52, 0x44, 0x4E, 1, 0, 0, 0, 0, 0, 0, 0, 0, 0, 0, 0, 1, 0, 0, 0] ++ List.replicate 28 0 ++ [8, 1, 0, 0] ++ List.replicate 340 0;
     let im : List Byte := [0x57, 0x52, 0x44, 0x4E, 1, 0, 0, 0, 0, 0, 0, 0, 0, 0, 0, 0, 1, 0, 0, 0] ++ List.replicate 28 0 ++ [8, 1, 0, 0] ++ List.replicate 340 0;
     let senseBad : Bool := false; let d : Dev := ({} : Dev).fset Reg.ANC_BOOT.STAGE 0;
     let d : Dev := d.fset Reg.CAMP_STRAP.BOOT_MODE 0; let s : State := { dev := d };
     s.live = true ∧ s.dev.fget Reg.ANC_BOOT.STAGE = 0 ∧
     (s.dev.anchor.sensed = true ∨ senseBad = false ∧ ((s.hard.fuseA.get 9 ||| s.hard.fuseB.get 9).getLsbD 10) = false) ∧
     s.dev.fget Reg.CAMP_STRAP.BOOT_MODE = 0 ∧ wardenImage flash = some im) ∧
    (let d : Dev := ({} : Dev).fset Reg.ANC_BOOT.STAGE 1; let s : State := { dev := d };
     s.live = true ∧ s.dev.fget Reg.ANC_BOOT.STAGE ≠ 0) ∧
    (let d : Dev := ({} : Dev).fset Reg.CAMP_STRAP.BOOT_MODE 1; let d : Dev := d.fset Reg.ANC_BOOT.STAGE 1;
     let s : State := { dev := d };
     s.live = true ∧ s.dev.recoveryOpen = true ∧ s.dev.anchor.recovery.length + 8 ≤ 2097152) ∧
    (let s : State := {};
     s.live = true ∧ (s.dev.recoveryOpen = false ∨ 2097152 < s.dev.anchor.recovery.length + 8)) ∧
    (let d : Dev := ({} : Dev).fset Reg.CAMP_STRAP.BOOT_MODE 1; let d : Dev := d.fset Reg.ANC_BOOT.STAGE 1;
     let s : State := { dev := d };
     s.live = true ∧ s.dev.recoveryOpen = true ∧ wardenImage s.dev.anchor.recovery = none) ∧
    (let im : List Byte := [0x57, 0x52, 0x44, 0x4E, 1, 0, 0, 0, 0, 0, 0, 0, 0, 0, 0, 0, 1, 0, 0, 0] ++ List.replicate 28 0 ++ [8, 1, 0, 0] ++ List.replicate 340 0;
     let d : Dev := ({} : Dev).fset Reg.CAMP_STRAP.BOOT_MODE 1; let d : Dev := d.fset Reg.ANC_BOOT.STAGE 1;
     let d : Dev := { d with anchor := { d.anchor with recovery := [0x57, 0x52, 0x44, 0x4E, 1, 0, 0, 0, 0, 0, 0, 0, 0, 0, 0, 0, 1, 0, 0, 0] ++ List.replicate 28 0 ++ [8, 1, 0, 0] ++ List.replicate 340 0 } };
     let s : State := { dev := d };
     s.live = true ∧ s.dev.recoveryOpen = true ∧ wardenImage s.dev.anchor.recovery = some im) ∧
    (let s : State := {};
     s.live = true ∧ s.dev.recoveryOpen = false) := by
  refine ⟨?_, ?_, ?_, ?_, ?_, ?_, ?_, ?_, ?_, ?_, ?_, ?_⟩ <;> decide +kernel

theorem witness_ManagementPaths :
    (let d : Dev := wOn ({} : Dev) 2 0; let s : State := { dev := d };
     s.live = true ∧ s.dev.on 2 = true ∧
     (s.dev.fget Reg.WDN_EVR_HEAD.INDEX + 1) % 4096 ≠ s.dev.fget Reg.WDN_EVR_TAIL.INDEX) ∧
    (let s : State := {};
     s.live = true ∧
     (s.dev.on 2 = false ∨ (s.dev.fget Reg.WDN_EVR_HEAD.INDEX + 1) % 4096 = s.dev.fget Reg.WDN_EVR_TAIL.INDEX)) ∧
    (let k := 0; let s : State := {};
     s.live = true ∧ k < 4 ∧ bitOf (s.dev.fget Reg.WDN_CORE_CTRL.RUN) k = false) ∧
    (let k := 0; let d : Dev := ({} : Dev).fset Reg.WDN_CORE_CTRL.RUN 1; let s : State := { dev := d };
     s.live = true ∧ k < 4 ∧ bitOf (s.dev.fget Reg.WDN_CORE_CTRL.RUN) k = true) ∧
    (let k := 0; let run : Bool := false; let s : State := {};
     s.live = true ∧ k < 4 ∧ bitOf (s.dev.fget Reg.WDN_CORE_CTRL.RUN) k = run) ∧
    (let k := 4; let s : State := {};
     s.live = true ∧ 3 < k) ∧
    (let ip := 0; let port := 0; let dst := 0; let dport := 0x1D2C; let req : List Byte := [];
     let m : RasMemo := { source := 0, seq := 0, response := [] }; let d : Dev := {};
     let d : Dev := { d with mgmt := { d.mgmt with laneUp := true } };
     let d : Dev := { d with mgmt := { d.mgmt with lane := [m] } }; let s : State := { dev := d };
     s.live = true ∧ s.dev.laneTakes ip dst dport = true ∧
     s.dev.mgmt.lane.find? (fun m => decide (m.source = ip * 65536 + port ∧ m.seq = leAt req 4 4)) = some m) ∧
    (let ip := 0; let port := 0; let dst := 0; let dport := 0x1D2C; let req : List Byte := []; let d : Dev := {};
     let d : Dev := { d with mgmt := { d.mgmt with laneUp := true } }; let s : State := { dev := d };
     s.live = true ∧ s.dev.laneTakes ip dst dport = true ∧
     s.dev.mgmt.lane.find? (fun m => decide (m.source = ip * 65536 + port ∧ m.seq = leAt req 4 4)) = none) ∧
    (let ip := 0; let dst := 0; let dport := 0; let s : State := {};
     s.live = true ∧ s.dev.laneTakes ip dst dport = false) ∧
    (let s : State := {};
     s.live = true) ∧
    (let s : State := {};
     s.live = true) ∧
    (let s : State := {};
     s.live = true) ∧
    (let eid := 0; let overLane : Bool := false;
     let req : List Byte := [1,1,0,1,0,0,0,0,0x00,0x02,0x20,0x01,0,0,0,0]; let d : Dev := wOn ({} : Dev) 0x1C 0;
     let d : Dev := d.fset Reg.MGMT_CTRL.LANE_EN 1; let d : Dev := d.fset Reg.MGMT_CTRL.I3C_EN 1;
     let s : State := { dev := d };
     s.live = true ∧ s.dev.miTakes overLane = true ∧
     s.dev.mgmt.mctp.find? (fun m => decide (m.source = eid ∧ m.seq = leAt req 4 4)) = none ∧ 16 ≤ req.length) ∧
    (let eid := 0; let overLane : Bool := false;
     let req : List Byte := [1,1,0,1,0,0,0,0,0x00,0x02,0x20,0x01,0,0,0,0];
     let m : RasMemo := { source := 0, seq := 0, response := [] }; let d : Dev := wOn ({} : Dev) 0x1C 0;
     let d : Dev := d.fset Reg.MGMT_CTRL.LANE_EN 1; let d : Dev := d.fset Reg.MGMT_CTRL.I3C_EN 1;
     let d : Dev := { d with mgmt := { d.mgmt with mctp := [m] } }; let s : State := { dev := d };
     s.live = true ∧ s.dev.miTakes overLane = true ∧
     s.dev.mgmt.mctp.find? (fun m => decide (m.source = eid ∧ m.seq = leAt req 4 4)) = some m ∧ 16 ≤ req.length) ∧
    (let overLane : Bool := false; let s : State := {};
     s.live = true ∧ s.dev.miTakes overLane = false) ∧
    (let req : List Byte := [];
     (leAt req 0 1 ≠ 1 ∨ ¬ (leAt req 1 1 = 1 ∨ leAt req 1 1 = 2) ∨ leAt req 3 1 = 0 ∨ 64 < leAt req 3 1 ∨ req.length ≠ if leAt req 1 1 = 2 then 16 + 8 * leAt req 3 1 else 16)) ∧
    (let req : List Byte := [1,1,0,1,0,0,0,0,0x01,0x02,0x20,0x01,0,0,0,0];
     leAt req 0 1 = 1 ∧ (leAt req 1 1 = 1 ∨ leAt req 1 1 = 2) ∧ 1 ≤ leAt req 3 1 ∧ leAt req 3 1 ≤ 64 ∧
     req.length = (if leAt req 1 1 = 2 then 16 + 8 * leAt req 3 1 else 16) ∧ leAt req 8 8 % 8 ≠ 0) ∧
    (let req : List Byte := [1,1,0,1,0,0,0,0,0x00,0x02,0x20,0x01,0,0,0,0]; let blk := 0x12; let n := 0;
     let off := 0x200;
     leAt req 0 1 = 1 ∧ leAt req 1 1 = 1 ∧ leAt req 3 1 = 1 ∧ req.length = 16 ∧
     addrTarget (leAt req 8 8) = .reg blk n off) ∧
    (let req : List Byte := [1,2,0,1,0,0,0,0,0x00,0x02,0x20,0x01,0,0,0,0,0,0,0,0,0,0,0,0]; let who : Path := .core 0;
     let blk := 0x12; let n := 0; let off := 0x200; let d : Dev := {};
     leAt req 0 1 = 1 ∧ leAt req 1 1 = 2 ∧ leAt req 3 1 = 1 ∧ req.length = 24 ∧
     addrTarget (leAt req 8 8) = .reg blk n off ∧ d.mayWrite who blk off = true) ∧
    (let req : List Byte := [1,2,0,1,0,0,0,0,0x00,0x02,0x20,0x01,0,0,0,0,0,0,0,0,0,0,0,0]; let who : Path := .lane;
     let blk := 0x12; let n := 0; let off := 0x200; let d : Dev := {};
     leAt req 0 1 = 1 ∧ leAt req 1 1 = 2 ∧ leAt req 3 1 = 1 ∧ req.length = 24 ∧
     addrTarget (leAt req 8 8) = .reg blk n off ∧ d.mayWrite who blk off = false) ∧
    (let req : List Byte := [1,1,0,1,0,0,0,0,0x00,0x20,0x20,0x01,0,0,0,0]; let blk := 0x12; let n := 0;
     leAt req 0 1 = 1 ∧ leAt req 1 1 = 1 ∧ leAt req 3 1 = 1 ∧ req.length = 16 ∧ leAt req 8 8 % 8 = 0 ∧
     addrTarget (leAt req 8 8) = .unmapped blk n) := by
  refine ⟨?_, ?_, ?_, ?_, ?_, ?_, ?_, ?_, ?_, ?_, ?_, ?_, ?_, ?_, ?_, ?_, ?_, ?_, ?_, ?_, ?_⟩ <;> decide +kernel

theorem witness_CerriArithmetic :
    (let who : Agent := .warden 0;
     let x : (Agent → Bool → Instr) × Nat × (Word → Word → Word) := (.add, 0x01, fun a b => a + b)
     let c : CWord := cword (wWord (x.2.1) 0 0 0 0 2 0);
     let d : Dev := wCore ({} : Dev) (.warden 0) (wWord (x.2.1) 0 0 0 0 2 0); let s : State := { dev := d };
     let m : Mach := (Dev.machine s.dev (.warden 0)).getD wM;
     s.live = true ∧ x ∈ arithmetic ∧ s.dev.ready who x.2.1 m c = true) ∧
    (let who : Agent := .warden 0; let c : CWord := cword (wWord 0x11 0 0 0 0 2 0);
     let d : Dev := wCore ({} : Dev) (.warden 0) (wWord 0x11 0 0 0 0 2 0); let s : State := { dev := d };
     let m : Mach := (Dev.machine s.dev (.warden 0)).getD wM;
     s.live = true ∧ s.dev.ready who 0x11 m c = true) ∧
    (let who : Agent := .warden 0; let c : CWord := cword (wWord 0x12 0 0 0 0 2 0);
     let d : Dev := wCore ({} : Dev) (.warden 0) (wWord 0x12 0 0 0 0 2 0); let s : State := { dev := d };
     let m : Mach := (Dev.machine s.dev (.warden 0)).getD wM;
     s.live = true ∧ s.dev.ready who 0x12 m c = true) := by
  refine ⟨?_, ?_, ?_⟩
  · exact ⟨by decide +kernel, List.mem_of_getElem? (i := 0) rfl, by decide +kernel⟩
  · decide +kernel
  · decide +kernel

theorem witness_CerriMemory :
    (let who : Agent := .pitch 0; let p : Place := .scratch 0;
     let x : (Agent → Bool → Instr) × Nat × Nat := (.ld, 0x30, 8);
     let c : CWord := cword (wWord (x.2.1) 0 0 0 0 1 0);
     let d : Dev := wCore ({} : Dev) (.pitch 0) (wWord (x.2.1) 0 0 0 0 1 0); let s : State := { dev := d };
     let m : Mach := (Dev.machine s.dev (.pitch 0)).getD wM;
     s.live = true ∧ x ∈ loads ∧ s.dev.ready who x.2.1 m c = true ∧
     s.dev.place m (c.address (m.rd c.sa)) x.2.2 = some p ∧ c.address (m.rd c.sa) % x.2.2 = 0) ∧
    (let who : Agent := .pitch 0; let p : Place := .scratch 0;
     let x : (Agent → Bool → Instr) × Nat × Nat := (.st, 0x34, 8);
     let c : CWord := cword (wWord (x.2.1) 0 0 0 0 1 0);
     let d : Dev := wCore ({} : Dev) (.pitch 0) (wWord (x.2.1) 0 0 0 0 1 0); let s : State := { dev := d };
     let m : Mach := (Dev.machine s.dev (.pitch 0)).getD wM;
     s.live = true ∧ x ∈ stores ∧ s.dev.ready who x.2.1 m c = true ∧
     s.dev.place m (c.address (m.rd c.sa)) x.2.2 = some p ∧ c.address (m.rd c.sa) % x.2.2 = 0) ∧
    (let who : Agent := .pitch 0; let c : CWord := cword (wWord 0x38 0 0 0 0 1 0);
     let d : Dev := wCore ({} : Dev) (.pitch 0) (wWord 0x38 0 0 0 0 1 0);
     let d : Dev := { d with pitch := { d.pitch with threads := Tab.put d.pitch.threads 0 { d.thread 0 with run := some { ev := { typ := 0, words := [1, 2] }, gen := 0, budget := 1000 } } } };
     let s : State := { dev := d }; let m : Mach := (Dev.machine s.dev (.pitch 0)).getD wM;
     s.live = true ∧ s.dev.ready who 0x38 m c = true ∧ c.address (m.rd c.sa) + 8 ≤ 8 * m.desc.length ∧
     c.address (m.rd c.sa) % 8 = 0) ∧
    (let who : Agent := .warden 0; let c : CWord := cword (wWord 0x39 0 0 0 0 1 0); let i : Nat := 0;
     let w : Word := wWord 0x39 0 0 0 0 1 0; let d : Dev := wCore ({} : Dev) (.warden 0) (wWord 0x39 0 0 0 0 1 0);
     let s : State := { dev := d }; let m : Mach := (Dev.machine s.dev (.warden 0)).getD wM;
     s.live = true ∧ s.dev.ready who 0x39 m c = true ∧ (i : Int) = m.cpu.pc + c.simm ∧ s.dev.codeWord m i = some w) ∧
    (let who : Agent := .pitch 0; let c : CWord := cword (wWord 0x3A 0 0 1 0 0 0); let a := 0x10000;
     let p : Place := .shared 0; let old : Word := 0;
     let d : Dev := wCore ({} : Dev) (.pitch 0) (wWord 0x3A 0 0 1 0 0 0);
     let d : Dev := wCpu d (.pitch 0) fun x => { x with g := x.g.set 1 0x10000 }
     let s : State := { dev := d }; let m : Mach := (Dev.machine s.dev (.pitch 0)).getD wM;
     s.live = true ∧ s.dev.ready who 0x3A m c = true ∧ a = (m.rd c.sa).toNat ∧ atomicAt m a = true ∧ a % 8 = 0 ∧
     s.dev.place m a 8 = some p ∧ old = BitVec.ofNat 64 (s.dev.mem.load p 8)) ∧
    (let who : Agent := .pitch 0; let c : CWord := cword (wWord 0x3B 0 0 1 0 0 0); let a := 0x10000;
     let p : Place := .shared 0; let old : Word := 0;
     let d : Dev := wCore ({} : Dev) (.pitch 0) (wWord 0x3B 0 0 1 0 0 0);
     let d : Dev := wCpu d (.pitch 0) fun x => { x with g := x.g.set 1 0x10000 }
     let s : State := { dev := d }; let m : Mach := (Dev.machine s.dev (.pitch 0)).getD wM;
     s.live = true ∧ s.dev.ready who 0x3B m c = true ∧ a = (m.rd c.sa).toNat ∧ atomicAt m a = true ∧ a % 8 = 0 ∧
     s.dev.place m a 8 = some p ∧ old = BitVec.ofNat 64 (s.dev.mem.load p 8)) ∧
    (let who : Agent := .pitch 0; let x : (Agent → Bool → Instr) × Nat × Nat := (.ld, 0x30, 8);
     let c : CWord := cword (wWord (x.2.1) 0 0 0 0 1 0x7FFFFFF8);
     let d : Dev := wCore ({} : Dev) (.pitch 0) (wWord (x.2.1) 0 0 0 0 1 0x7FFFFFF8); let s : State := { dev := d };
     let m : Mach := (Dev.machine s.dev (.pitch 0)).getD wM;
     s.live = true ∧ x ∈ loads ++ stores ∧ s.dev.ready who x.2.1 m c = true ∧
     s.dev.place m (c.address (m.rd c.sa)) x.2.2 = none) ∧
    (let who : Agent := .pitch 0; let x : (Agent → Bool → Instr) × Nat × Nat := (.ld, 0x30, 8);
     let c : CWord := cword (wWord (x.2.1) 0 0 0 0 1 1);
     let d : Dev := wCore ({} : Dev) (.pitch 0) (wWord (x.2.1) 0 0 0 0 1 1); let s : State := { dev := d };
     let m : Mach := (Dev.machine s.dev (.pitch 0)).getD wM;
     s.live = true ∧ x ∈ loads ++ stores ∧ s.dev.ready who x.2.1 m c = true ∧
     (s.dev.place m (c.address (m.rd c.sa)) x.2.2).isSome = true ∧ c.address (m.rd c.sa) % x.2.2 ≠ 0) ∧
    (let who : Agent := .pitch 0; let c : CWord := cword (wWord 0x38 0 0 0 0 1 0);
     let d : Dev := wCore ({} : Dev) (.pitch 0) (wWord 0x38 0 0 0 0 1 0); let s : State := { dev := d };
     let m : Mach := (Dev.machine s.dev (.pitch 0)).getD wM;
     s.live = true ∧ s.dev.ready who 0x38 m c = true ∧ 8 * m.desc.length < c.address (m.rd c.sa) + 8) ∧
    (let who : Agent := .pitch 0; let c : CWord := cword (wWord 0x38 0 0 0 0 1 1);
     let d : Dev := wCore ({} : Dev) (.pitch 0) (wWord 0x38 0 0 0 0 1 1);
     let d : Dev := { d with pitch := { d.pitch with threads := Tab.put d.pitch.threads 0 { d.thread 0 with run := some { ev := { typ := 0, words := [1, 2] }, gen := 0, budget := 1000 } } } };
     let s : State := { dev := d }; let m : Mach := (Dev.machine s.dev (.pitch 0)).getD wM;
     s.live = true ∧ s.dev.ready who 0x38 m c = true ∧ c.address (m.rd c.sa) + 8 ≤ 8 * m.desc.length ∧
     c.address (m.rd c.sa) % 8 ≠ 0) ∧
    (let who : Agent := .warden 0; let c : CWord := cword (wWord 0x39 0 0 0 0 1 100);
     let d : Dev := wCore ({} : Dev) (.warden 0) (wWord 0x39 0 0 0 0 1 100); let s : State := { dev := d };
     let m : Mach := (Dev.machine s.dev (.warden 0)).getD wM;
     s.live = true ∧ s.dev.ready who 0x39 m c = true ∧ (m.cpu.pc + c.simm < 0 ∨ (m.ncode : Int) ≤ m.cpu.pc + c.simm)) ∧
    (let who : Agent := .warden 0; let x : (Agent → Bool → Instr) × Nat := (.amoadd, 0x3A);
     let c : CWord := cword (wWord (x.2) 0 0 0 0 0 0);
     let d : Dev := wCore ({} : Dev) (.warden 0) (wWord (x.2) 0 0 0 0 0 0); let s : State := { dev := d };
     let m : Mach := (Dev.machine s.dev (.warden 0)).getD wM;
     s.live = true ∧ x ∈ [(Instr.amoadd, 0x3A), (Instr.cas, 0x3B)] ∧ s.dev.ready who x.2 m c = true ∧
     atomicAt m (m.rd c.sa).toNat = false) ∧
    (let who : Agent := .pitch 0; let x : (Agent → Bool → Instr) × Nat := (.amoadd, 0x3A);
     let c : CWord := cword (wWord (x.2) 0 0 1 0 0 0);
     let d : Dev := wCore ({} : Dev) (.pitch 0) (wWord (x.2) 0 0 1 0 0 0);
     let d : Dev := wCpu d (.pitch 0) fun x => { x with g := x.g.set 1 0x10001 }
     let s : State := { dev := d }; let m : Mach := (Dev.machine s.dev (.pitch 0)).getD wM;
     s.live = true ∧ x ∈ [(Instr.amoadd, 0x3A), (Instr.cas, 0x3B)] ∧ s.dev.ready who x.2 m c = true ∧
     atomicAt m (m.rd c.sa).toNat = true ∧ (m.rd c.sa).toNat % 8 ≠ 0) := by
  refine ⟨?_, ?_, ?_, ?_, ?_, ?_, ?_, ?_, ?_, ?_, ?_, ?_, ?_⟩
  · exact ⟨by decide +kernel, List.mem_of_getElem? (i := 0) rfl, by decide +kernel, by decide +kernel, by decide +kernel⟩
  · exact ⟨by decide +kernel, List.mem_of_getElem? (i := 0) rfl, by decide +kernel, by decide +kernel, by decide +kernel⟩
  · decide +kernel
  · decide +kernel
  · decide +kernel
  · decide +kernel
  · exact ⟨by decide +kernel, List.mem_of_getElem? (i := 0) rfl, by decide +kernel, by decide +kernel⟩
  · exact ⟨by decide +kernel, List.mem_of_getElem? (i := 0) rfl, by decide +kernel, by decide +kernel, by decide +kernel⟩
  · decide +kernel
  · decide +kernel
  · decide +kernel
  · exact ⟨by decide +kernel, by simp only [List.mem_cons, true_or, or_true], by decide +kernel, by decide +kernel⟩
  · exact ⟨by decide +kernel, by simp only [List.mem_cons, true_or, or_true], by decide +kernel, by decide +kernel, by decide +kernel⟩

theorem witness_CerriControl :
    (let who : Agent := .warden 0; let c : CWord := cword (wWord 0x40 0 0 0 0 1 1); let t : Nat := 1; let k := 0;
     let d : Dev := wCore ({} : Dev) (.warden 0) (wWord 0x40 0 0 0 0 1 1); let s : State := { dev := d };
     let m : Mach := (Dev.machine s.dev (.warden 0)).getD wM;
     s.live = true ∧ s.dev.ready who 0x40 m c = true ∧ (t : Int) = m.cpu.pc + c.simm ∧ t < m.ncode ∧
     (m.priv = true ∨ m.cpu.pc < t) ∧ leaveLoops (m.cpu.level.map fun l => (l.start, l.last)) t = some k) ∧
    (let who : Agent := .warden 0; let c : CWord := cword (wWord 0x41 0 0 0 0 1 1); let t : Nat := 1;
     let d : Dev := wCore ({} : Dev) (.warden 0) (wWord 0x41 0 0 0 0 1 1); let s : State := { dev := d };
     let m : Mach := (Dev.machine s.dev (.warden 0)).getD wM;
     s.live = true ∧ s.dev.ready who 0x41 m c = true ∧ (t : Int) = m.cpu.pc + c.simm ∧ t < m.ncode ∧
     m.cpu.rets.length < (if m.priv then 64 else 8)) ∧
    (let who : Agent := .warden 0; let c : CWord := cword (wWord 0x42 0 0 0 0 0 0);
     let r : RetRec := { index := 1, loopDepth := 0 }; let rest : List RetRec := [];
     let d : Dev := wCore ({} : Dev) (.warden 0) (wWord 0x42 0 0 0 0 0 0);
     let d : Dev := wCpu d (.warden 0) fun x => { x with g := x.g.set 31 1, rets := [{ index := 1, loopDepth := 0 }] }
     let s : State := { dev := d }; let m : Mach := (Dev.machine s.dev (.warden 0)).getD wM;
     s.live = true ∧ s.dev.ready who 0x42 m c = true ∧ m.cpu.rets = r :: rest ∧ r.index < m.ncode ∧ m.cpu.level = [] ∧
     m.cpu.g.get 31 = BitVec.ofNat 64 r.index) ∧
    (let who : Agent := .warden 0; let c : CWord := cword (wWord 0x43 0 0 0 0 2 (65536 + 5));
     let w : Word := 0xFE00000000000003; let e : Int := 3; let t : Nat := 3; let k := 0;
     let d : Dev := wCore ({} : Dev) (.warden 0) (wWord 0x43 0 0 0 0 2 (65536 + 5));
     let d : Dev := { d with mem := { d.mem with wcode := d.mem.wcode.set 5 0xFE00000000000003 } };
     let s : State := { dev := d }; let m : Mach := (Dev.machine s.dev (.warden 0)).getD wM;
     s.live = true ∧ s.dev.ready who 0x43 m c = true ∧
     s.dev.codeWord m (m.cpu.pc + bitsOf c.imm 15 0 + min (m.rd c.sa).toNat (bitsOf c.imm 31 16)) = some w ∧
     tableEntry w = some e ∧ (t : Int) = m.cpu.pc + e ∧ t < m.ncode ∧
     (t < m.cpu.pc + bitsOf c.imm 15 0 ∨ m.cpu.pc + bitsOf c.imm 15 0 + bitsOf c.imm 31 16 < t) ∧
     (m.priv = true ∨ m.cpu.pc < t) ∧ leaveLoops (m.cpu.level.map fun l => (l.start, l.last)) t = some k) ∧
    (let who : Agent := .warden 0; let c : CWord := cword (wWord 0x44 0 0 0x20 0 2 (2 * 65536 + 2)); let k := 1;
     let d : Dev := wCore ({} : Dev) (.warden 0) (wWord 0x44 0 0 0x20 0 2 (2 * 65536 + 2));
     let s : State := { dev := d }; let m : Mach := (Dev.machine s.dev (.warden 0)).getD wM;
     s.live = true ∧ s.dev.ready who 0x44 m c = true ∧ k = (m.rd c.sa).toNat ∧ 1 ≤ k ∧
     (k ≤ bitsOf c.imm 31 16 ∨ m.priv = true ∧ bitsOf c.imm 31 16 = 0) ∧ m.cpu.loops.length < 4) ∧
    (let who : Agent := .warden 0; let c : CWord := cword (wWord 0x44 0 0 0 0 2 (2 * 65536 + 2));
     let d : Dev := wCore ({} : Dev) (.warden 0) (wWord 0x44 0 0 0 0 2 (2 * 65536 + 2));
     let s : State := { dev := d }; let m : Mach := (Dev.machine s.dev (.warden 0)).getD wM;
     s.live = true ∧ s.dev.ready who 0x44 m c = true ∧ m.rd c.sa = 0 ∧ m.cpu.pc + bitsOf c.imm 15 0 + 1 < m.ncode) ∧
    (let who : Agent := .warden 0; let c : CWord := cword (wWord 0x47 0 0 0 0 0 0);
     let d : Dev := wCore ({} : Dev) (.warden 0) (wWord 0x47 0 0 0 0 0 0); let s : State := { dev := d };
     let m : Mach := (Dev.machine s.dev (.warden 0)).getD wM;
     s.live = true ∧ s.dev.ready who 0x47 m c = true) ∧
    (let tid := 0; let c : CWord := cword (wWord 0x45 0 0 0 0 0 0);
     let d : Dev := wCore ({} : Dev) (.pitch tid) (wWord 0x45 0 0 0 0 0 0); let s : State := { dev := d };
     let m : Mach := (Dev.machine s.dev (.pitch tid)).getD wM;
     s.live = true ∧ s.dev.ready (.pitch tid) 0x45 m c = true ∧ (∀ p ∈ m.cpu.slots, p.2.posted = true)) ∧
    (let core := 0; let c : CWord := cword (wWord 0x46 0 0 0 0 2 0);
     let d : Dev := wCore ({} : Dev) (.warden core) (wWord 0x46 0 0 0 0 2 0); let s : State := { dev := d };
     let m : Mach := (Dev.machine s.dev (.warden core)).getD wM;
     s.live = true ∧ s.dev.ready (.warden core) 0x46 m c = true ∧ (s.dev.core core).status.getLsbD 2 = false) ∧
    (let tid := 0; let c : CWord := cword (wWord 0x46 0 0 0 0 2 0);
     let r : Run := { ev := { typ := 0, words := [] }, gen := 0, budget := 1000 };
     let d : Dev := wCore ({} : Dev) (.pitch tid) (wWord 0x46 0 0 0 0 2 0); let s : State := { dev := d };
     let m : Mach := (Dev.machine s.dev (.pitch tid)).getD wM;
     s.live = true ∧ s.dev.ready (.pitch tid) 0x46 m c = true ∧ (s.dev.thread tid).run = some r) ∧
    (let core := 0; let c : CWord := cword (wWord 0x45 0 0 0 0 0 0);
     let d : Dev := wCore ({} : Dev) (.warden core) (wWord 0x45 0 0 0 0 0 0); let s : State := { dev := d };
     let m : Mach := (Dev.machine s.dev (.warden core)).getD wM;
     s.live = true ∧ s.dev.ready (.warden core) 0x45 m c = true ∧ (∀ p ∈ m.cpu.slots, p.2.posted = true)) ∧
    (let c : Cpu := {};
     (∀ l ∈ c.loops, l.last ≠ c.pc)) ∧
    (let l : LoopRec := { start := 0, last := 0, left := 2 }; let rest : List LoopRec := [];
     let c : Cpu := { loops := l :: rest };
     c.loops = l :: rest ∧ l.last = c.pc ∧ 1 < l.left) ∧
    (let l : LoopRec := { start := 0, last := 0, left := 0 }; let rest : List LoopRec := [];
     let c : Cpu := { loops := l :: rest };
     c.loops = l :: rest ∧ l.last = c.pc ∧ l.left ≤ 1 ∧ (∀ k ∈ rest, k.last ≠ c.pc)) ∧
    (let who : Agent := .warden 0; let c : CWord := cword (wWord 0x40 0 0 0 0 1 100);
     let d : Dev := wCore ({} : Dev) (.warden 0) (wWord 0x40 0 0 0 0 1 100); let s : State := { dev := d };
     let m : Mach := (Dev.machine s.dev (.warden 0)).getD wM;
     s.live = true ∧ s.dev.ready who 0x40 m c = true ∧
     (m.cpu.pc + c.simm < 0 ∨ (m.ncode : Int) ≤ m.cpu.pc + c.simm ∨ (m.priv = false ∧ m.cpu.pc + c.simm ≤ m.cpu.pc) ∨ leaveLoops (m.cpu.level.map fun l => (l.start, l.last)) (m.cpu.pc + c.simm).toNat = none)) ∧
    (let who : Agent := .warden 0; let c : CWord := cword (wWord 0x41 0 0 0 0 1 100);
     let d : Dev := wCore ({} : Dev) (.warden 0) (wWord 0x41 0 0 0 0 1 100); let s : State := { dev := d };
     let m : Mach := (Dev.machine s.dev (.warden 0)).getD wM;
     s.live = true ∧ s.dev.ready who 0x41 m c = true ∧ (m.cpu.pc + c.simm < 0 ∨ (m.ncode : Int) ≤ m.cpu.pc + c.simm)) ∧
    (let who : Agent := .warden 0; let c : CWord := cword (wWord 0x41 0 0 0 0 1 1); let t : Nat := 1;
     let d : Dev := wCore ({} : Dev) (.warden 0) (wWord 0x41 0 0 0 0 1 1);
     let d : Dev := wCpu d (.warden 0) fun x => { x with rets := List.replicate 64 { index := 1, loopDepth := 0 } }
     let s : State := { dev := d }; let m : Mach := (Dev.machine s.dev (.warden 0)).getD wM;
     s.live = true ∧ s.dev.ready who 0x41 m c = true ∧ (t : Int) = m.cpu.pc + c.simm ∧ t < m.ncode ∧
     (if m.priv then 64 else 8) ≤ m.cpu.rets.length) ∧
    (let who : Agent := .warden 0; let c : CWord := cword (wWord 0x42 0 0 0 0 0 0);
     let d : Dev := wCore ({} : Dev) (.warden 0) (wWord 0x42 0 0 0 0 0 0); let s : State := { dev := d };
     let m : Mach := (Dev.machine s.dev (.warden 0)).getD wM;
     s.live = true ∧ s.dev.ready who 0x42 m c = true ∧ m.cpu.rets = []) ∧
    (let who : Agent := .warden 0; let c : CWord := cword (wWord 0x42 0 0 0 0 0 0);
     let r : RetRec := { index := 1, loopDepth := 0 }; let rest : List RetRec := [];
     let d : Dev := wCore ({} : Dev) (.warden 0) (wWord 0x42 0 0 0 0 0 0);
     let d : Dev := wCpu d (.warden 0) fun x => { x with g := x.g.set 31 1, rets := [{ index := 1, loopDepth := 0 }] }
     let s : State := { dev := d }; let m : Mach := (Dev.machine s.dev (.warden 0)).getD wM;
     s.live = true ∧ s.dev.ready who 0x42 m c = true ∧ m.cpu.rets = r :: rest) ∧
    (let who : Agent := .warden 0; let c : CWord := cword (wWord 0x43 0 0 0 0 2 (65536 + 99));
     let d : Dev := wCore ({} : Dev) (.warden 0) (wWord 0x43 0 0 0 0 2 (65536 + 99)); let s : State := { dev := d };
     let m : Mach := (Dev.machine s.dev (.warden 0)).getD wM;
     s.live = true ∧ s.dev.ready who 0x43 m c = true ∧
     s.dev.codeWord m (m.cpu.pc + bitsOf c.imm 15 0 + min (m.rd c.sa).toNat (bitsOf c.imm 31 16)) = none) ∧
    (let who : Agent := .warden 0; let c : CWord := cword (wWord 0x43 0 0 0 0 2 (65536 + 5)); let w : Word := 0;
     let d : Dev := wCore ({} : Dev) (.warden 0) (wWord 0x43 0 0 0 0 2 (65536 + 5)); let s : State := { dev := d };
     let m : Mach := (Dev.machine s.dev (.warden 0)).getD wM;
     s.live = true ∧ s.dev.ready who 0x43 m c = true ∧
     s.dev.codeWord m (m.cpu.pc + bitsOf c.imm 15 0 + min (m.rd c.sa).toNat (bitsOf c.imm 31 16)) = some w ∧
     tableEntry w = none) ∧
    (let who : Agent := .warden 0; let c : CWord := cword (wWord 0x43 0 0 0 0 2 (65536 + 5));
     let w : Word := 0xFE000000FFFFFFFF; let e : Int := -1;
     let d : Dev := wCore ({} : Dev) (.warden 0) (wWord 0x43 0 0 0 0 2 (65536 + 5));
     let d : Dev := { d with mem := { d.mem with wcode := d.mem.wcode.set 5 0xFE000000FFFFFFFF } };
     let s : State := { dev := d }; let m : Mach := (Dev.machine s.dev (.warden 0)).getD wM;
     s.live = true ∧ s.dev.ready who 0x43 m c = true ∧
     s.dev.codeWord m (m.cpu.pc + bitsOf c.imm 15 0 + min (m.rd c.sa).toNat (bitsOf c.imm 31 16)) = some w ∧
     tableEntry w = some e ∧
     (m.cpu.pc + e < 0 ∨ (m.ncode : Int) ≤ m.cpu.pc + e ∨ (m.priv = false ∧ m.cpu.pc + e ≤ m.cpu.pc) ∨ ((m.cpu.pc + bitsOf c.imm 15 0 : Nat) : Int) ≤ m.cpu.pc + e ∧ m.cpu.pc + e ≤ ((m.cpu.pc + bitsOf c.imm 15 0 + bitsOf c.imm 31 16 : Nat) : Int) ∨ leaveLoops (m.cpu.level.map fun l => (l.start, l.last)) (m.cpu.pc + e).toNat = none)) ∧
    (let who : Agent := .warden 0; let c : CWord := cword (wWord 0x44 0 0 0 0 2 100);
     let d : Dev := wCore ({} : Dev) (.warden 0) (wWord 0x44 0 0 0 0 2 100); let s : State := { dev := d };
     let m : Mach := (Dev.machine s.dev (.warden 0)).getD wM;
     s.live = true ∧ s.dev.ready who 0x44 m c = true ∧ m.rd c.sa = 0 ∧ m.ncode ≤ m.cpu.pc + bitsOf c.imm 15 0 + 1) ∧
    (let who : Agent := .pitch 0; let c : CWord := cword (wWord 0x44 0 0 1 0 2 (65536 + 2));
     let d : Dev := wCore ({} : Dev) (.pitch 0) (wWord 0x44 0 0 1 0 2 (65536 + 2));
     let d : Dev := wCpu d (.pitch 0) fun x => { x with g := x.g.set 1 2 }
     let s : State := { dev := d }; let m : Mach := (Dev.machine s.dev (.pitch 0)).getD wM;
     s.live = true ∧ s.dev.ready who 0x44 m c = true ∧ bitsOf c.imm 31 16 < (m.rd c.sa).toNat ∧
     (bitsOf c.imm 31 16 ≠ 0 ∨ m.priv = false)) ∧
    (let who : Agent := .warden 0; let c : CWord := cword (wWord 0x44 0 0 0x20 0 2 (2 * 65536 + 2));
     let d : Dev := wCore ({} : Dev) (.warden 0) (wWord 0x44 0 0 0x20 0 2 (2 * 65536 + 2));
     let d : Dev := wCpu d (.warden 0) fun x => { x with loops := List.replicate 4 { start := 0, last := 9, left := 1 } }
     let s : State := { dev := d }; let m : Mach := (Dev.machine s.dev (.warden 0)).getD wM;
     s.live = true ∧ s.dev.ready who 0x44 m c = true ∧ 1 ≤ (m.rd c.sa).toNat ∧
     ((m.rd c.sa).toNat ≤ bitsOf c.imm 31 16 ∨ m.priv = true ∧ bitsOf c.imm 31 16 = 0) ∧ 4 ≤ m.cpu.loops.length) := by
  refine ⟨?_, ?_, ?_, ?_, ?_, ?_, ?_, ?_, ?_, ?_, ?_, ?_, ?_, ?_, ?_, ?_, ?_, ?_, ?_, ?_, ?_, ?_, ?_, ?_, ?_⟩ <;> decide +kernel

theorem witness_CerriTrapsAndGuards :
    (let who : Agent := .warden 0; let w : Word := wWord 0x01 1 0 0 0 0 0;
     let x : (Agent → Bool → Instr) × Nat := (.add, 0x01);
     let d : Dev := wCore ({} : Dev) (.warden 0) (wWord 0x01 1 0 0 0 0 0); let s : State := { dev := d };
     let m : Mach := (Dev.machine s.dev (.warden 0)).getD wM;
     s.live = true ∧ x ∈ instructions ∧ s.dev.at who x.2 m w = true ∧ (cword w).legal m.priv = true ∧
     m.guard (cword w) = false ∧ s.dev.room m 1 = true) ∧
    (let who : Agent := .warden 0; let w : Word := wWord 0x01 0 63 0 0 0 0;
     let x : (Agent → Bool → Instr) × Nat := (.add, 0x01);
     let d : Dev := wCore ({} : Dev) (.warden 0) (wWord 0x01 0 63 0 0 0 0); let s : State := { dev := d };
     let m : Mach := (Dev.machine s.dev (.warden 0)).getD wM;
     s.live = true ∧ x ∈ instructions ∧ s.dev.at who x.2 m w = true ∧ (cword w).legal m.priv = false ∧
     s.dev.room m (m.cost (some w)) = true) ∧
    (let n := 0; let d : Dev := {};
     (d.core n).status.getLsbD 2 = false) ∧
    (let n := 0; let d : Dev := {}; let d : Dev := d.setCore 0 { d.core 0 with status := 4 };
     let d : Dev := d.fset Reg.WDN_CORE_CTRL.RUN 1;
     n < 4 ∧ (d.core n).status.getLsbD 2 = true ∧ bitOf (d.fget Reg.WDN_CORE_CTRL.RUN) n = true) ∧
    (let tid := 0; let w : Word := wWord 0x60 0 1 0 0 2 0; let x : (Agent → Bool → Instr) × Nat := (.csrr, 0x60);
     let d : Dev := wCore ({} : Dev) (.pitch 0) (wWord 0x60 0 1 0 0 2 0); let s : State := { dev := d };
     let m : Mach := (Dev.machine s.dev (.pitch 0)).getD wM;
     s.live = true ∧ x ∈ instructions ∧ 0x60 ≤ x.2 ∧ s.dev.at (.pitch tid) x.2 m w = true ∧
     (cword w).legal false = true ∧ m.guard (cword w) = true ∧ s.dev.room m (m.cost (some w)) = true ∧
     privOp (cword w).op = true) ∧
    (let who : Agent := .warden 0; let w : Word := wWord 0x01 0 0 0 0 0 0;
     let x : (Agent → Bool → Instr) × Nat := (.add, 0x01);
     let d : Dev := wCore ({} : Dev) (.warden 0) (wWord 0x01 0 0 0 0 0 0); let s : State := { dev := d };
     let m : Mach := (Dev.machine s.dev (.warden 0)).getD wM;
     s.live = true ∧ x ∈ instructions ∧ s.dev.at who x.2 m w = true ∧ s.dev.room m (m.cost (some w)) = true) ∧
    (let who : Agent := .pitch 0; let w : Word := wWord 0x01 0 0 0 0 0 0;
     let x : (Agent → Bool → Instr) × Nat := (.add, 0x01);
     let d : Dev := wCore ({} : Dev) (.pitch 0) (wWord 0x01 0 0 0 0 0 0);
     let d : Dev := { d with pitch := { d.pitch with threads := Tab.put d.pitch.threads 0 { d.thread 0 with run := some { ev := { typ := 0, words := [] }, gen := 0, budget := 0 } } } };
     let s : State := { dev := d }; let m : Mach := (Dev.machine s.dev (.pitch 0)).getD wM;
     s.live = true ∧ x ∈ instructions ∧ s.dev.at who x.2 m w = true ∧ s.dev.room m (m.cost (some w)) = false) ∧
    (let who : Agent := .warden 0; let x : (Agent → Bool → Instr) × Nat := (.add, 0x01);
     let d : Dev := wCore ({} : Dev) (.warden 0) 0; let d : Dev := wCpu d (.warden 0) fun x => { x with pc := 16 }
     let s : State := { dev := d }; let m : Mach := (Dev.machine s.dev (.warden 0)).getD wM;
     s.live = true ∧ x ∈ instructions ∧ s.dev.machine who = some m ∧ s.dev.codeWord m m.cpu.pc = none ∧
     s.dev.room m 1 = true) ∧
    (let who : Agent := .warden 0; let w : Word := wWord 0x01 0 0 0 0 0 0;
     let x : (Agent → Bool → Instr) × Nat := (.sub, 0x02);
     let d : Dev := wCore ({} : Dev) (.warden 0) (wWord 0x01 0 0 0 0 0 0); let s : State := { dev := d };
     let m : Mach := (Dev.machine s.dev (.warden 0)).getD wM;
     s.live = true ∧ x ∈ instructions ∧ s.dev.machine who = some m ∧ s.dev.codeWord m m.cpu.pc = some w ∧
     (cerriRow (cword w).op).isSome = true ∧ (cword w).op ≠ x.2) ∧
    (let who : Agent := .pitch 0; let x : (Agent → Bool → Instr) × Nat := (.add, 0x01); let s : State := {};
     s.live = true ∧ x ∈ instructions ∧ s.dev.machine who = none) ∧
    (let tid := 0; let code := 0; let r : Run := { ev := { typ := 1, words := [] }, gen := 0, budget := 1000 };
     let d : Dev := {};
     let d : Dev := { d with pitch := { d.pitch with threads := Tab.put d.pitch.threads 0 { d.thread 0 with run := some r }, images := [{ bank := 0, gen := 0, ncode := 16, svn := 0, binds := [(0x0F, { entry := 0, worst := 100 })], dma := [], inits := [] }] } };
     (d.thread tid).run = some r ∧ r.ev.typ ≠ evTrap ∧ tid < 256 ∧ (d.bindOf r.gen evTrap).isSome = true ∧ code < 256 ∧
     code ≠ 0x0C ∧ code ≠ 0x0D) := by
  refine ⟨?_, ?_, ?_, ?_, ?_, ?_, ?_, ?_, ?_, ?_, ?_⟩
  · exact ⟨by decide +kernel, List.mem_of_getElem? (i := 0) rfl, by decide +kernel, by decide +kernel, by decide +kernel, by decide +kernel⟩
  · exact ⟨by decide +kernel, List.mem_of_getElem? (i := 0) rfl, by decide +kernel, by decide +kernel, by decide +kernel⟩
  · decide +kernel
  · decide +kernel
  · exact ⟨by decide +kernel, List.mem_of_getElem? (i := 50) rfl, by decide +kernel, by decide +kernel, by decide +kernel, by decide +kernel, by decide +kernel, by decide +kernel⟩
  · exact ⟨by decide +kernel, List.mem_of_getElem? (i := 0) rfl, by decide +kernel, by decide +kernel⟩
  · exact ⟨by decide +kernel, List.mem_of_getElem? (i := 0) rfl, by decide +kernel, by decide +kernel⟩
  · exact ⟨by decide +kernel, List.mem_of_getElem? (i := 0) rfl, by decide +kernel, by decide +kernel, by decide +kernel⟩
  · exact ⟨by decide +kernel, List.mem_of_getElem? (i := 1) rfl, by decide +kernel, by decide +kernel, by decide +kernel, by decide +kernel⟩
  · exact ⟨by decide +kernel, List.mem_of_getElem? (i := 0) rfl, by decide +kernel⟩
  · decide +kernel

theorem witness_CerriAsks :
    (let who : Agent := .warden 0; let c : CWord := cword (wWord 0x50 0 0 0 0 2 0x01000100); let a := 0;
     let slot := 0; let d : Dev := wCore ({} : Dev) (.warden 0) (wWord 0x50 0 0 0 0 2 0x01000100);
     let s : State := { dev := d }; let m : Mach := (Dev.machine s.dev (.warden 0)).getD wM;
     s.live = true ∧ s.dev.ready who 0x50 m c = true ∧ a = (m.rd c.sa).toNat ∧ a % 8 = 0 ∧
     a + 8 * c.askWords ≤ m.blockSize ∧ (List.range 8).find? (fun k => (Tab.look m.cpu.slots k).isNone) = some slot) ∧
    (let who : Agent := .warden 0; let c : CWord := cword (wWord 0x51 0 0 0 0 0 0); let slot := 0;
     let k : AskSlot := { ask := 0, serial := 0, posted := false, status := some 5 }; let st : Word := 5;
     let d : Dev := wCore ({} : Dev) (.warden 0) (wWord 0x51 0 0 0 0 0 0);
     let d : Dev := wCpu d (.warden 0) fun x => { x with slots := [(0, { ask := 0, serial := 0, posted := false, status := some 5 })] }
     let s : State := { dev := d }; let m : Mach := (Dev.machine s.dev (.warden 0)).getD wM;
     s.live = true ∧ s.dev.ready who 0x51 m c = true ∧ m.ticket (m.rd c.sa) = some (slot, k) ∧ k.status = some st) ∧
    (let who : Agent := .warden 0; let c : CWord := cword (wWord 0x52 0 0 0 0 0 0); let slot := 0;
     let k : AskSlot := { ask := 0, serial := 0, posted := false, status := some 5 };
     let d : Dev := wCore ({} : Dev) (.warden 0) (wWord 0x52 0 0 0 0 0 0);
     let d : Dev := wCpu d (.warden 0) fun x => { x with slots := [(0, { ask := 0, serial := 0, posted := false, status := some 5 })] }
     let s : State := { dev := d }; let m : Mach := (Dev.machine s.dev (.warden 0)).getD wM;
     s.live = true ∧ s.dev.ready who 0x52 m c = true ∧ m.ticket (m.rd c.sa) = some (slot, k)) ∧
    (let id := 0; let st : Word := 0; let ws : List Word := [];
     let a : Ask := { owner := .pitch 0, slot := 0, accel := 0, code := 0, args := [], addr := 0, posted := true, answer := some (st, ws), detached := false };
     let d : Dev := {}; let d : Dev := { d with asks := Tab.put d.asks id a }; let s : State := { dev := d };
     s.live = true ∧ Tab.look s.dev.asks id = some a ∧ a.answer = some (st, ws) ∧ a.detached = false ∧ a.posted = true) ∧
    (let id := 0; let waited := 0; let dst := 1; let st : Word := 0; let ws : List Word := [];
     let a : Ask := { owner := .warden 0, slot := 2, accel := 0, code := 0, args := [], addr := 0, posted := false, answer := some (st, ws), detached := false };
     let d : Dev := {}; let d : Dev := { d with asks := Tab.put d.asks id a };
     let d : Dev := d.setCore 0 { d.core 0 with wait := .await 1 2 }; let s : State := { dev := d };
     let m : Mach := Dev.owner s.dev (.warden 0);
     s.live = true ∧ Tab.look s.dev.asks id = some a ∧ a.answer = some (st, ws) ∧ a.detached = false ∧
     a.posted = false ∧ m = s.dev.owner a.owner ∧ s.dev.waitOf a.owner = some (dst, a.slot) ∧
     s.dev.room m waited = true) ∧
    (let id := 0;
     let a : Ask := { owner := .warden 0, slot := 0, accel := 0, code := 0, args := [], addr := 0, posted := false, answer := none, late := false, detached := false };
     let k : AskSlot := { ask := 0, serial := 0, posted := false }; let d : Dev := {};
     let d : Dev := { d with asks := Tab.put d.asks id a };
     let d : Dev := wCpu d (.warden 0) fun x => { x with slots := [(0, { ask := 0, serial := 0, posted := false })] }
     let s : State := { dev := d };
     s.live = true ∧ Tab.look s.dev.asks id = some a ∧ a.answer = none ∧ a.late = false ∧ a.detached = false ∧
     a.posted = false ∧ (s.dev.waitOf a.owner).any (fun w => decide (w.2 = a.slot)) = false ∧ s.dev.on 3 = false ∧
     Tab.look (s.dev.owner a.owner).cpu.slots a.slot = some k) ∧
    (let tid := 0;
     let r : Run := { ev := { typ := 0, words := [] }, gen := 0, budget := 1000, waiting := some (1, 0) };
     let d : Dev := {}; let d : Dev := { d with pitch := { d.pitch with threads := [(0, { run := some r })] } };
     let s : State := { dev := d };
     s.live = true ∧ (s.dev.thread tid).run = some r ∧ r.waiting.isSome = true) ∧
    (let tid := 0; let r : Run := { ev := { typ := 0, words := [] }, gen := 0, budget := 1000 };
     let d : Dev := wCore ({} : Dev) (.pitch 0) 0; let s : State := { dev := d };
     let m : Mach := (Dev.machine s.dev (.pitch 0)).getD wM;
     s.live = true ∧ (s.dev.thread tid).run = some r ∧ r.waiting = none ∧ s.dev.machine (.pitch tid) = some m) ∧
    (let tid := 0; let s : State := {};
     s.live = true ∧ (s.dev.thread tid).run = none) ∧
    (let who : Agent := .warden 0; let c : CWord := cword (wWord 0x51 0 0 0 0 0 0); let slot := 0;
     let k : AskSlot := { ask := 0, serial := 0, posted := false };
     let d : Dev := wCore ({} : Dev) (.warden 0) (wWord 0x51 0 0 0 0 0 0);
     let d : Dev := wCpu d (.warden 0) fun x => { x with slots := [(0, { ask := 0, serial := 0, posted := false })] }
     let s : State := { dev := d }; let m : Mach := (Dev.machine s.dev (.warden 0)).getD wM;
     s.live = true ∧ s.dev.ready who 0x51 m c = true ∧ m.ticket (m.rd c.sa) = some (slot, k) ∧ k.status = none) ∧
    (let who : Agent := .warden 0; let x : (Agent → Bool → Instr) × Nat := (.await, 0x51);
     let c : CWord := cword (wWord (x.2) 0 0 0 0 0 0);
     let d : Dev := wCore ({} : Dev) (.warden 0) (wWord (x.2) 0 0 0 0 0 0); let s : State := { dev := d };
     let m : Mach := (Dev.machine s.dev (.warden 0)).getD wM;
     s.live = true ∧ x ∈ [(Instr.await, 0x51), (Instr.poll, 0x52)] ∧ s.dev.ready who x.2 m c = true ∧
     m.ticket (m.rd c.sa) = none) ∧
    (let who : Agent := .warden 0; let c : CWord := cword (wWord 0x50 0 0 1 0 2 0x01000100);
     let d : Dev := wCore ({} : Dev) (.warden 0) (wWord 0x50 0 0 1 0 2 0x01000100);
     let d : Dev := wCpu d (.warden 0) fun x => { x with g := x.g.set 1 0x40000 }
     let s : State := { dev := d }; let m : Mach := (Dev.machine s.dev (.warden 0)).getD wM;
     s.live = true ∧ s.dev.ready who 0x50 m c = true ∧ m.blockSize < (m.rd c.sa).toNat + 8 * c.askWords) ∧
    (let who : Agent := .warden 0; let c : CWord := cword (wWord 0x50 0 0 1 0 2 0x01000100);
     let d : Dev := wCore ({} : Dev) (.warden 0) (wWord 0x50 0 0 1 0 2 0x01000100);
     let d : Dev := wCpu d (.warden 0) fun x => { x with g := x.g.set 1 4 }
     let s : State := { dev := d }; let m : Mach := (Dev.machine s.dev (.warden 0)).getD wM;
     s.live = true ∧ s.dev.ready who 0x50 m c = true ∧ (m.rd c.sa).toNat + 8 * c.askWords ≤ m.blockSize ∧
     (m.rd c.sa).toNat % 8 ≠ 0) ∧
    (let who : Agent := .warden 0; let c : CWord := cword (wWord 0x50 0 0 0 0 2 0x01000100);
     let d : Dev := wCore ({} : Dev) (.warden 0) (wWord 0x50 0 0 0 0 2 0x01000100);
     let d : Dev := wCpu d (.warden 0) fun x => { x with slots := (List.range 8).map fun k => (k, { ask := k, serial := k, posted := true }) }
     let s : State := { dev := d }; let m : Mach := (Dev.machine s.dev (.warden 0)).getD wM;
     s.live = true ∧ s.dev.ready who 0x50 m c = true ∧ (m.rd c.sa).toNat + 8 * c.askWords ≤ m.blockSize ∧
     (m.rd c.sa).toNat % 8 = 0 ∧ (∀ k ∈ List.range 8, (Tab.look m.cpu.slots k).isSome = true)) ∧
    (let id := 0; let k : AskSlot := { ask := 0, serial := 0, posted := false }; let st : Word := 0;
     let ws : List Word := [];
     let a : Ask := { owner := .warden 0, slot := 0, accel := 0, code := 0, args := [], addr := 0, posted := false, answer := some (st, ws), detached := false };
     let d : Dev := {}; let d : Dev := { d with asks := Tab.put d.asks id a };
     let d : Dev := wCpu d (.warden 0) fun x => { x with slots := [(0, { ask := 0, serial := 0, posted := false })] }
     let s : State := { dev := d };
     s.live = true ∧ Tab.look s.dev.asks id = some a ∧ a.answer = some (st, ws) ∧ a.detached = false ∧
     a.posted = false ∧ (s.dev.waitOf a.owner).any (fun w => decide (w.2 = a.slot)) = false ∧
     Tab.look (s.dev.owner a.owner).cpu.slots a.slot = some k) ∧
    (let id := 0; let waited := 2000; let dst := 1; let st : Word := 0; let ws : List Word := [];
     let a : Ask := { owner := .pitch 0, slot := 2, accel := 0, code := 0, args := [], addr := 0, posted := false, answer := some (st, ws), detached := false };
     let d : Dev := {}; let d : Dev := { d with asks := Tab.put d.asks id a };
     let d : Dev := d.setCore 0 { d.core 0 with wait := .await 1 2 };
     let d : Dev := { d with pitch := { d.pitch with threads := [(0, { run := some { ev := { typ := 0, words := [] }, gen := 0, budget := 1000, waiting := some (1, 2) } })] } };
     let s : State := { dev := d };
     s.live = true ∧ Tab.look s.dev.asks id = some a ∧ a.answer = some (st, ws) ∧ a.detached = false ∧
     a.posted = false ∧ s.dev.waitOf a.owner = some (dst, a.slot) ∧ s.dev.room (s.dev.owner a.owner) waited = false) ∧
    (let id := 0;
     let a : Ask := { owner := .pitch 0, slot := 0, accel := 0, code := 0, args := [], addr := 0, posted := false, answer := some (0, []), detached := true };
     let d : Dev := {}; let d : Dev := { d with asks := Tab.put d.asks id a }; let s : State := { dev := d };
     s.live = true ∧ Tab.look s.dev.asks id = some a ∧ a.answer.isSome = true ∧ a.detached = true) ∧
    (let id := 0; let s : State := {};
     s.live = true ∧ ((Tab.look s.dev.asks id).bind fun a => a.answer) = none) ∧
    (let id := 0; let s : State := {};
     s.live = true ∧
     (Tab.look s.dev.asks id = none ∨ ∃ a, Tab.look s.dev.asks id = some a ∧ (a.answer.isSome = true ∨ a.late = true))) := by
  refine ⟨?_, ?_, ?_, ?_, ?_, ?_, ?_, ?_, ?_, ?_, ?_, ?_, ?_, ?_, ?_, ?_, ?_, ?_, ?_⟩
  · decide +kernel
  · decide +kernel
  · decide +kernel
  · decide +kernel
  · decide +kernel
  · decide +kernel
  · decide +kernel
  · decide +kernel
  · decide +kernel
  · decide +kernel
  · exact ⟨by decide +kernel, by simp only [List.mem_cons, true_or, or_true], by decide +kernel, by decide +kernel⟩
  · decide +kernel
  · decide +kernel
  · decide +kernel
  · decide +kernel
  · decide +kernel
  · decide +kernel
  · decide +kernel
  · decide +kernel

theorem witness_WardenCores :
    (let n := 0; let c : CWord := cword (wWord 0x60 0 0 0 0 2 0);
     let d : Dev := wCore ({} : Dev) (.warden n) (wWord 0x60 0 0 0 0 2 0); let s : State := { dev := d };
     let m : Mach := (Dev.machine s.dev (.warden n)).getD wM;
     s.live = true ∧ s.dev.ready (.warden n) 0x60 m c = true ∧ c.imm ≠ 6) ∧
    (let n := 0; let c : CWord := cword (wWord 0x61 0 0 0 0 2 0);
     let d : Dev := wCore ({} : Dev) (.warden n) (wWord 0x61 0 0 0 0 2 0); let s : State := { dev := d };
     let m : Mach := (Dev.machine s.dev (.warden n)).getD wM;
     s.live = true ∧ s.dev.ready (.warden n) 0x61 m c = true) ∧
    (let n := 0; let c : CWord := cword (wWord 0x62 0 0 0 0 1 0);
     let d : Dev := wCore ({} : Dev) (.warden n) (wWord 0x62 0 0 0 0 1 0); let s : State := { dev := d };
     let m : Mach := (Dev.machine s.dev (.warden n)).getD wM;
     s.live = true ∧ s.dev.ready (.warden n) 0x62 m c = true) ∧
    (let n := 0; let dst := 1; let a := 0x1200200; let blk := 0x12; let k := 0; let off := 0x200; let d : Dev := {};
     let d : Dev := d.setCore 0 { d.core 0 with wait := .rdreg 1 0x1200200 }; let s : State := { dev := d };
     s.live = true ∧ (s.dev.core n).wait = .rdreg dst a ∧ addrTarget a = .reg blk k off ∧ blk ≠ 2) ∧
    (let n := 0; let c : CWord := cword (wWord 0x63 0 0 0 0 1 0);
     let d : Dev := wCore ({} : Dev) (.warden n) (wWord 0x63 0 0 0 0 1 0); let s : State := { dev := d };
     let m : Mach := (Dev.machine s.dev (.warden n)).getD wM;
     s.live = true ∧ s.dev.ready (.warden n) 0x63 m c = true) ∧
    (let n := 0; let c : CWord := cword (wWord 0x64 0 0 0 0 0 0);
     let d : Dev := wCore ({} : Dev) (.warden n) (wWord 0x64 0 0 0 0 0 0); let s : State := { dev := d };
     let m : Mach := (Dev.machine s.dev (.warden n)).getD wM;
     s.live = true ∧ s.dev.ready (.warden n) 0x64 m c = true) ∧
    (let n := 0; let c : CWord := cword (wWord 0x65 0 0 0 0 0 0);
     let d : Dev := wCore ({} : Dev) (.warden n) (wWord 0x65 0 0 0 0 0 0); let s : State := { dev := d };
     let m : Mach := (Dev.machine s.dev (.warden n)).getD wM;
     s.live = true ∧ s.dev.ready (.warden n) 0x65 m c = true) ∧
    (let n := 0; let d : Dev := {};
     let d : Dev := d.setCore 0 { d.core 0 with wait := .wfe, status := 0xF00, mbox := true };
     let s : State := { dev := d };
     s.live = true ∧ (s.dev.core n).wait = .wfe ∧ s.dev.admitted n ≠ 0) ∧
    (let n := 0; let c : CWord := cword (wWord 0x66 0 0 0 0 0 0);
     let d : Dev := wCore ({} : Dev) (.warden n) (wWord 0x66 0 0 0 0 0 0); let s : State := { dev := d };
     let m : Mach := (Dev.machine s.dev (.warden n)).getD wM;
     s.live = true ∧ s.dev.ready (.warden n) 0x66 m c = true) ∧
    (let n := 0; let d : Dev := {}; let d : Dev := d.setCore 0 { d.core 0 with wait := .fence };
     let s : State := { dev := d };
     s.live = true ∧ (s.dev.core n).wait = .fence) ∧
    (let n := 0; let i : Nat := 1; let d : Dev := wOn ({} : Dev) 2 0; let d : Dev := wOn d 2 0;
     let d : Dev := d.fset Reg.WDN_CORE_CTRL.RUN 1;
     let d : Dev := d.setCore 0 { d.core 0 with status := 0xF01, mbox := true }; let s : State := { dev := d };
     s.live = true ∧ n < 4 ∧ s.dev.on 2 = true ∧ (s.dev.inst 2 0).safe = false ∧
     bitOf (s.dev.fget Reg.WDN_CORE_CTRL.RUN) n = true ∧ (s.dev.core n).wait = .none ∧ s.dev.interrupt n = some i) ∧
    (let n := 0; let c : CWord := cword (wWord 0x60 0 0 0 0 2 6);
     let d : Dev := wCore ({} : Dev) (.warden n) (wWord 0x60 0 0 0 0 2 6); let s : State := { dev := d };
     let m : Mach := (Dev.machine s.dev (.warden n)).getD wM;
     s.live = true ∧ s.dev.ready (.warden n) 0x60 m c = true ∧ c.imm = 6) ∧
    (let n := 0; let dst := 0; let a := 0; let d : Dev := {};
     let d : Dev := d.setCore n { d.core n with wait := .rdreg dst a }; let s : State := { dev := d };
     s.live = true ∧ (s.dev.core n).wait = .rdreg dst a) ∧
    (let n := 0; let s : State := {};
     s.live = true ∧ (∀ dst a, (s.dev.core n).wait ≠ .rdreg dst a)) ∧
    (let n := 0; let s : State := {};
     s.live = true ∧ ((s.dev.core n).wait ≠ .wfe ∨ s.dev.admitted n = 0)) ∧
    (let n := 0; let s : State := {};
     s.live = true ∧ (s.dev.core n).wait ≠ .fence) ∧
    (let n := 0; let s : State := {};
     s.live = true ∧
     (3 < n ∨ s.dev.on 2 = false ∨ bitOf (s.dev.fget Reg.WDN_CORE_CTRL.RUN) n = false ∨ (s.dev.core n).wait ≠ .none ∨ s.dev.interrupt n = none)) := by
  refine ⟨?_, ?_, ?_, ?_, ?_, ?_, ?_, ?_, ?_, ?_, ?_, ?_, ?_, ?_, ?_, ?_, ?_⟩
  · decide +kernel
  · decide +kernel
  · decide +kernel
  · decide +kernel
  · decide +kernel
  · decide +kernel
  · decide +kernel
  · decide +kernel
  · decide +kernel
  · decide +kernel
  · decide +kernel
  · decide +kernel
  · decide +kernel
  · exact ⟨by decide +kernel, nofun⟩
  · decide +kernel
  · decide +kernel
  · decide +kernel

theorem witness_PitchEvents :
    (let d : Dev := wOn ({} : Dev) 0x13 0; let s : State := { dev := d };
     s.live = true ∧ s.dev.on 0x13 = true ∧ s.dev.pitch.queue.length < 8192 ∧ s.dev.pitch.held = []) ∧
    (let d : Dev := wOn ({} : Dev) 0x13 0;
     let d : Dev := { d with pitch := { d.pitch with queue := List.replicate 8192 { typ := 0, words := [] } } };
     let s : State := { dev := d };
     s.live = true ∧ s.dev.on 0x13 = true ∧ (8192 ≤ s.dev.pitch.queue.length ∨ s.dev.pitch.held ≠ [])) ∧
    (let s : State := {};
     s.live = true ∧ s.dev.on 0x13 = false) ∧
    (let tid := 0; let e : PEvent := { typ := 5, words := [] }; let b : Bind := { entry := 3, worst := 100 };
     let gen := 0; let d : Dev := wOn ({} : Dev) 0x13 0; let d : Dev := d.fset Reg.PITCH_CTRL.CLUSTER_EN 1;
     let d : Dev := d.setDom 24 { state := 0, req := 0 };
     let d : Dev := { d with pitch := { d.pitch with queue := [e] } };
     let d : Dev := { d with pitch := { d.pitch with images := [{ bank := 0, gen := 0, ncode := 16, svn := 0, binds := [(5, b)], dma := [], inits := [] }] } };
     let s : State := { dev := d };
     s.live = true ∧ s.dev.on 0x13 = true ∧ s.dev.quiet = false ∧ s.dev.clusterRuns (clusterOf tid) = true ∧
     (s.dev.thread tid).run = none ∧ s.dev.nextEvent (clusterOf tid) = some e ∧ e.typ ∉ [1, 2] ∧
     gen = e.gen.getD (s.dev.inst 0x13 0).active ∧ s.dev.bindOf gen e.typ = some b) ∧
    (let tid := 0; let e : PEvent := { typ := 1, words := [] }; let b : Bind := { entry := 3, worst := 100 };
     let d : Dev := wOn ({} : Dev) 0x13 0; let d : Dev := d.fset Reg.PITCH_CTRL.CLUSTER_EN 1;
     let d : Dev := d.setDom 24 { state := 0, req := 0 };
     let d : Dev := { d with pitch := { d.pitch with queue := [e] } };
     let d : Dev := { d with pitch := { d.pitch with images := [{ bank := 0, gen := 0, ncode := 16, svn := 0, binds := [(1, b)], dma := [], inits := [] }] } };
     let s : State := { dev := d };
     s.live = true ∧ s.dev.on 0x13 = true ∧ s.dev.quiet = false ∧ s.dev.clusterRuns (clusterOf tid) = true ∧
     (s.dev.thread tid).run = none ∧ s.dev.nextEvent (clusterOf tid) = some e ∧ e.typ ∈ [1, 2] ∧
     s.dev.bindOf (s.dev.inst 0x13 0).active e.typ = some b) ∧
    (let tid := 0; let e : PEvent := { typ := 10, words := [] }; let d : Dev := wOn ({} : Dev) 0x13 0;
     let d : Dev := d.fset Reg.PITCH_CTRL.CLUSTER_EN 1; let d : Dev := d.setDom 24 { state := 0, req := 0 };
     let d : Dev := { d with pitch := { d.pitch with queue := [e] } }; let s : State := { dev := d };
     s.live = true ∧ s.dev.on 0x13 = true ∧ s.dev.quiet = false ∧ s.dev.clusterRuns (clusterOf tid) = true ∧
     (s.dev.thread tid).run = none ∧ s.dev.nextEvent (clusterOf tid) = some e ∧ e.typ ∈ [0x0A, 0x0B] ∧
     s.dev.bindOf (e.gen.getD (s.dev.inst 0x13 0).active) e.typ = none) ∧
    (let tid := 0; let e : PEvent := { typ := 10, words := [] }; let d : Dev := wOn ({} : Dev) 0x13 0;
     let d : Dev := d.fset Reg.PITCH_CTRL.CLUSTER_EN 1; let d : Dev := d.setDom 24 { state := 0, req := 0 };
     let d : Dev := { d with pitch := { d.pitch with queue := [e] } }; let s : State := { dev := d };
     s.live = true ∧ s.dev.on 0x13 = true ∧ s.dev.quiet = false ∧ s.dev.clusterRuns (clusterOf tid) = true ∧
     (s.dev.thread tid).run = none ∧ s.dev.nextEvent (clusterOf tid) = some e ∧ e.typ ∉ [1, 2] ∧
     s.dev.bindOf (e.gen.getD (s.dev.inst 0x13 0).active) e.typ = none) ∧
    (let tid := 0; let s : State := {};
     s.live = true ∧
     (s.dev.on 0x13 = false ∨ s.dev.quiet = true ∨ s.dev.clusterRuns (clusterOf tid) = false ∨ (s.dev.thread tid).run.isSome = true ∨ s.dev.nextEvent (clusterOf tid) = none)) ∧
    (let c := 0; let e : PEvent := { typ := 5, words := [] }; let d : Dev := {};
     let d : Dev := { d with pitch := { d.pitch with queue := [{ typ := 5, words := [] }] } };
     d.nextEvent c = some e) ∧
    (let len := 32; let d : Dev := ({} : Dev).fset Reg.PITCH_POST_CTRL.BUSY 0; let d : Dev := wOn d 0x13 0;
     let s : State := { dev := d }; let addr : Nat := (s.dev.fget Reg.PITCH_POST.ADDR);
     s.live = true ∧ s.dev.fget Reg.PITCH_POST_CTRL.BUSY = 0 ∧ s.dev.on 0x13 = true ∧ 32 ≤ len ∧ len ≤ 1024 ∧
     len % 8 = 0 ∧ addr = s.dev.fget Reg.PITCH_POST.ADDR ∧ addr % 8 = 0 ∧ s.dev.pitch.queue.length + 16 ≤ 8192 ∧
     s.dev.pitch.held = []) ∧
    (let len := 0; let d : Dev := ({} : Dev).fset Reg.PITCH_POST_CTRL.BUSY 0; let d : Dev := wOn d 0x13 0;
     let s : State := { dev := d };
     s.live = true ∧ s.dev.fget Reg.PITCH_POST_CTRL.BUSY = 0 ∧ s.dev.on 0x13 = true ∧ len < 2048 ∧
     (len < 32 ∨ 1024 < len ∨ len % 8 ≠ 0 ∨ s.dev.fget Reg.PITCH_POST.ADDR % 8 ≠ 0)) ∧
    (let d : Dev := ({} : Dev).fset Reg.PITCH_POST_CTRL.BUSY 1; let s : State := { dev := d };
     s.live = true ∧ (s.dev.fget Reg.PITCH_POST_CTRL.BUSY = 1 ∨ s.dev.on 0x13 = false)) ∧
    (let d : Dev := ({} : Dev).fset Reg.PITCH_POST_CTRL.BUSY 1; let s : State := { dev := d };
     s.live = true ∧ s.dev.fget Reg.PITCH_POST_CTRL.BUSY = 1 ∧ s.dev.pitch.postLeft = 0) ∧
    (let s : State := {};
     s.live = true ∧ (s.dev.fget Reg.PITCH_POST_CTRL.BUSY = 0 ∨ s.dev.pitch.postLeft ≠ 0)) ∧
    (let e : PEvent := { typ := 0, words := [] }; let es : List PEvent := []; let d : Dev := {};
     let d : Dev := { d with pitch := { d.pitch with reposts := e :: es } }; let s : State := { dev := d };
     s.live = true ∧ s.dev.pitch.reposts = e :: es ∧ s.dev.pitch.queue.length < 8192 ∧ s.dev.pitch.held = []) ∧
    (let e : PEvent := { typ := 0, words := [] }; let es : List PEvent := []; let d : Dev := {};
     let d : Dev := { d with pitch := { d.pitch with reposts := e :: es } };
     let d : Dev := { d with pitch := { d.pitch with queue := List.replicate 8192 { typ := 0, words := [] } } };
     let s : State := { dev := d };
     s.live = true ∧ s.dev.pitch.reposts = e :: es ∧ (8192 ≤ s.dev.pitch.queue.length ∨ s.dev.pitch.held ≠ [])) ∧
    (let s : State := {};
     s.live = true ∧ s.dev.pitch.reposts = []) ∧
    (let d : Dev := ({} : Dev).fset Reg.PITCH_IMG_LEN.BYTES 512; let s : State := { dev := d };
     s.live = true ∧ s.dev.pitch.loading = none ∧ (s.dev.inst 0x13 0).swap = false ∧
     s.dev.fget Reg.PITCH_IMG_BASE.ADDR % 8 = 0 ∧ 512 ≤ s.dev.fget Reg.PITCH_IMG_LEN.BYTES ∧
     s.dev.fget Reg.PITCH_IMG_LEN.BYTES ≤ 1048576) ∧
    (let d : Dev := ({} : Dev).fset Reg.PITCH_IMG_LEN.BYTES 0; let s : State := { dev := d };
     s.live = true ∧ s.dev.pitch.loading = none ∧ (s.dev.inst 0x13 0).swap = false ∧
     s.dev.fget Reg.PITCH_IMG_BASE.ADDR % 8 = 0 ∧ s.dev.fget Reg.PITCH_IMG_LEN.BYTES = 0) ∧
    (let d : Dev := ({} : Dev).fset Reg.PITCH_IMG_LEN.BYTES 8; let s : State := { dev := d };
     s.live = true ∧ s.dev.pitch.loading = none ∧ (s.dev.inst 0x13 0).swap = false ∧
     (s.dev.fget Reg.PITCH_IMG_BASE.ADDR % 8 ≠ 0 ∨ s.dev.fget Reg.PITCH_IMG_LEN.BYTES ≠ 0 ∧ (s.dev.fget Reg.PITCH_IMG_LEN.BYTES < 512 ∨ 1048576 < s.dev.fget Reg.PITCH_IMG_LEN.BYTES))) ∧
    (let d : Dev := ({} : Dev).modInst 0x13 0 fun i => { i with swap := true }
     let s : State := { dev := d };
     s.live = true ∧ (s.dev.pitch.loading.isSome = true ∨ (s.dev.inst 0x13 0).swap = true)) ∧
    (let i : Image := { bank := 0, gen := 0, ncode := 0, svn := 0, binds := [], dma := [], inits := [] }; let r := 0;
     let a := 0; let d : Dev := {};
     let d : Dev := { d with pitch := { d.pitch with loading := some (some i, r, a) } };
     let s : State := { dev := d };
     s.live = true ∧ s.dev.pitch.loading = some (some i, r, a)) ∧
    (let r := 0; let a := 0; let d : Dev := {};
     let d : Dev := { d with pitch := { d.pitch with loading := some (none, r, a) } }; let s : State := { dev := d };
     s.live = true ∧ s.dev.pitch.loading = some (none, r, a)) ∧
    (let s : State := {};
     s.live = true ∧ s.dev.pitch.loading = none) := by
  refine ⟨?_, ?_, ?_, ?_, ?_, ?_, ?_, ?_, ?_, ?_, ?_, ?_, ?_, ?_, ?_, ?_, ?_, ?_, ?_, ?_, ?_, ?_, ?_, ?_⟩ <;> decide +kernel

theorem witness_CallsOnCounters :
    (let id := 0;
     let a : Ask := { owner := .pitch 0, slot := 0, accel := 1, code := 1, args := [], addr := 0, posted := false };
     let d : Dev := {}; let d : Dev := { d with asks := Tab.put d.asks id a }; let s : State := { dev := d };
     s.live = true ∧ s.dev.calls id 1 1 a = true ∧ a.arg 0 % 2 ^ 32 ≤ 131071) ∧
    (let id := 0;
     let a : Ask := { owner := .pitch 0, slot := 0, accel := 1, code := 1, args := [131072], addr := 0, posted := false };
     let d : Dev := {}; let d : Dev := { d with asks := Tab.put d.asks id a }; let s : State := { dev := d };
     s.live = true ∧ s.dev.calls id 1 1 a = true ∧ 131071 < a.arg 0 % 2 ^ 32) ∧
    (let id := 0;
     let a : Ask := { owner := .pitch 0, slot := 0, accel := 1, code := 2, args := [], addr := 0, posted := false };
     let d : Dev := {}; let d : Dev := { d with asks := Tab.put d.asks id a }; let s : State := { dev := d };
     s.live = true ∧ s.dev.calls id 1 2 a = true ∧ a.arg 0 % 2 ^ 32 ≤ 131071) ∧
    (let id := 0;
     let a : Ask := { owner := .pitch 0, slot := 0, accel := 1, code := 2, args := [131072], addr := 0, posted := false };
     let d : Dev := {}; let d : Dev := { d with asks := Tab.put d.asks id a }; let s : State := { dev := d };
     s.live = true ∧ s.dev.calls id 1 2 a = true ∧ 131071 < a.arg 0 % 2 ^ 32) ∧
    (let id := 0;
     let a : Ask := { owner := .pitch 0, slot := 0, accel := 1, code := 3, args := [], addr := 0, posted := false };
     let d : Dev := {}; let d : Dev := { d with asks := Tab.put d.asks id a };
     let d : Dev := { d with hostq := { d.hostq with visible := [0] } }; let s : State := { dev := d };
     s.live = true ∧ s.dev.calls id 1 3 a = true ∧ s.dev.meterVisible a.tenant = true) ∧
    (let id := 0;
     let a : Ask := { owner := .pitch 0, slot := 0, accel := 1, code := 3, args := [], addr := 0, posted := false };
     let d : Dev := {}; let d : Dev := { d with asks := Tab.put d.asks id a }; let s : State := { dev := d };
     s.live = true ∧ s.dev.calls id 1 3 a = true ∧ s.dev.meterVisible a.tenant = false) ∧
    (let id := 0; let stage := 0; let key := 0;
     let a : Ask := { owner := .pitch 0, slot := 0, accel := 2, code := 0, args := [], addr := 0, posted := false, answer := none };
     let d : Dev := {}; let d : Dev := { d with asks := Tab.put d.asks id a }; let d : Dev := wOn d 0x0B 0;
     let s : State := { dev := d }; let g : Nat := ((s.dev.inst 0x0B 0).active);
     let ways : List Nat := ((buckets (s.dev.clsGet g Reg.CLS_STAGE.BASE stage) (s.dev.clsGet g Reg.CLS_STAGE.LOG2 stage) (leBytes key 40)).flatMap (fun b => (List.range 4).map fun w => b * 4 + w))
     s.live = true ∧ Tab.look s.dev.asks id = some a ∧ a.accel = 2 ∧ a.answer = none ∧ s.dev.serves 0x0B = true ∧
     stage ≤ 3 ∧ g = (s.dev.inst 0x0B 0).active ∧
     ways = (buckets (s.dev.clsGet g Reg.CLS_STAGE.BASE stage) (s.dev.clsGet g Reg.CLS_STAGE.LOG2 stage) (leBytes key 40)).flatMap (fun b => (List.range 4).map fun w => b * 4 + w)) ∧
    (let id := 0; let stage := 0;
     let a : Ask := { owner := .pitch 0, slot := 0, accel := 2, code := 0, args := [], addr := 0, posted := false, answer := none };
     let d : Dev := {}; let d : Dev := { d with asks := Tab.put d.asks id a }; let d : Dev := wOn d 0x0B 0;
     let s : State := { dev := d };
     s.live = true ∧ Tab.look s.dev.asks id = some a ∧ a.accel = 2 ∧ a.answer = none ∧ s.dev.serves 0x0B = true ∧
     stage ≤ 3 ∧ s.dev.cls.em = []) ∧
    (let id := 0;
     let a : Ask := { owner := .pitch 0, slot := 0, accel := 2, code := 0, args := [], addr := 0, posted := false, answer := none };
     let d : Dev := {}; let d : Dev := { d with asks := Tab.put d.asks id a }; let s : State := { dev := d };
     s.live = true ∧ Tab.look s.dev.asks id = some a ∧ a.accel = 2 ∧ a.answer = none) ∧
    (let id := 0;
     let a : Ask := { owner := .pitch 0, slot := 0, accel := 9, code := 0, args := [], addr := 0, posted := false, answer := none };
     let t : Tag := { ctx := 0, qid := 0, cid := 0, ctrl := 0, tenant := 0, sqe := [] }; let d : Dev := {};
     let d : Dev := { d with asks := Tab.put d.asks id a };
     let d : Dev := { d with hostq := { d.hostq with tags := Tab.put d.hostq.tags a.tagKey t } };
     let s : State := { dev := d };
     s.live = true ∧ Tab.look s.dev.asks id = some a ∧ a.accel = 9 ∧ a.answer = none ∧ s.dev.tag a.tagKey = some t) ∧
    (let id := 0;
     let a : Ask := { owner := .pitch 0, slot := 0, accel := 9, code := 0, args := [], addr := 0, posted := false, answer := none };
     let t : Tag := { ctx := 0, qid := 0, cid := 0, ctrl := 0, tenant := 0, sqe := [] }; let d : Dev := {};
     let d : Dev := { d with asks := Tab.put d.asks id a };
     let d : Dev := { d with hostq := { d.hostq with tags := Tab.put d.hostq.tags a.tagKey t } };
     let s : State := { dev := d };
     s.live = true ∧ Tab.look s.dev.asks id = some a ∧ a.accel = 9 ∧ a.answer = none ∧ s.dev.tag a.tagKey = some t) ∧
    (let id := 0;
     let a : Ask := { owner := .pitch 0, slot := 0, accel := 9, code := 0, args := [], addr := 0, posted := false, answer := none };
     let d : Dev := {}; let d : Dev := { d with asks := Tab.put d.asks id a }; let s : State := { dev := d };
     s.live = true ∧ Tab.look s.dev.asks id = some a ∧ a.accel = 9 ∧ a.answer = none ∧ s.dev.tag a.tagKey = none) ∧
    (let id := 0;
     let a : Ask := { owner := .pitch 0, slot := 0, accel := 0x0C, code := 1, args := [8 * 2 ^ 40], addr := 0, posted := false, gen := 0 };
     let d : Dev := {}; let d : Dev := { d with asks := Tab.put d.asks id a };
     let d : Dev := { d with pitch := { d.pitch with images := [({ bank := 0, gen := 0, ncode := 0, svn := 0, binds := [], dma := [{ base := 0, length := 64, canRead := true, canWrite := true }], inits := [] } : Image)] } };
     let s : State := { dev := d };
     s.live = true ∧ s.dev.calls id 0x0C 1 a = true ∧ dmaWordOk a 256 = true ∧
     s.dev.dmaAllowed a (dmaOffset a) (dmaLength a) false = true) ∧
    (let id := 0;
     let a : Ask := { owner := .pitch 0, slot := 0, accel := 0x0C, code := 1, args := [], addr := 0, posted := false };
     let d : Dev := {}; let d : Dev := { d with asks := Tab.put d.asks id a }; let s : State := { dev := d };
     s.live = true ∧ s.dev.calls id 0x0C 1 a = true ∧
     (dmaWordOk a 256 = false ∨ s.dev.dmaAllowed a (dmaOffset a) (dmaLength a) false = false)) ∧
    (let id := 0;
     let a : Ask := { owner := .pitch 0, slot := 0, accel := 0x0C, code := 2, args := [8 * 2 ^ 40, 7], addr := 0, posted := false };
     let d : Dev := {}; let d : Dev := { d with asks := Tab.put d.asks id a };
     let d : Dev := { d with pitch := { d.pitch with images := [({ bank := 0, gen := 0, ncode := 0, svn := 0, binds := [], dma := [{ base := 0, length := 64, canRead := true, canWrite := true }], inits := [] } : Image)] } };
     let s : State := { dev := d };
     s.live = true ∧ s.dev.calls id 0x0C 2 a = true ∧ dmaWordOk a 248 = true ∧ a.args.length = 1 + dmaLength a / 8 ∧
     s.dev.dmaAllowed a (dmaOffset a) (dmaLength a) true = true) ∧
    (let id := 0;
     let a : Ask := { owner := .pitch 0, slot := 0, accel := 0x0C, code := 2, args := [8 * 2 ^ 40, 7], addr := 0, posted := false };
     let d : Dev := {}; let d : Dev := { d with asks := Tab.put d.asks id a }; let s : State := { dev := d };
     s.live = true ∧ s.dev.calls id 0x0C 2 a = true ∧ dmaWordOk a 248 = true ∧ a.args.length = 1 + dmaLength a / 8 ∧
     s.dev.dmaAllowed a (dmaOffset a) (dmaLength a) true = false) ∧
    (let id := 0;
     let a : Ask := { owner := .pitch 0, slot := 0, accel := 0x0C, code := 2, args := [0], addr := 0, posted := false };
     let d : Dev := {}; let d : Dev := { d with asks := Tab.put d.asks id a }; let s : State := { dev := d };
     s.live = true ∧ s.dev.calls id 0x0C 2 a = true ∧ (dmaWordOk a 248 = false ∨ a.args.length ≠ 1 + dmaLength a / 8)) ∧
    (let id := 0;
     let a : Ask := { owner := .pitch 0, slot := 0, accel := 0x0D, code := 1, args := [], addr := 0, posted := false };
     let d : Dev := {}; let d : Dev := { d with asks := Tab.put d.asks id a }; let s : State := { dev := d };
     s.live = true ∧ s.dev.calls id 0x0D 1 a = true) ∧
    (let id := 0;
     let a : Ask := { owner := .pitch 0, slot := 0, accel := 0x0D, code := 2, args := [0x8000, 5], addr := 0, posted := false };
     let d : Dev := {}; let d : Dev := { d with asks := Tab.put d.asks id a }; let d : Dev := wOn d 2 0;
     let s : State := { dev := d }; let h : Nat := (s.dev.fget Reg.WDN_EVR_HEAD.INDEX);
     let e : RingEntry := ({ time := s.dev.now, blk := 0x13, inst := a.owner.num, code := a.arg 0, arg := a.arg 1 });
     s.live = true ∧ s.dev.calls id 0x0D 2 a = true ∧ 0x8000 ≤ a.arg 0 ∧ a.arg 0 ≤ 0xFFFF ∧ a.arg 1 < 2 ^ 32 ∧
     s.dev.on 2 = true ∧ h = s.dev.fget Reg.WDN_EVR_HEAD.INDEX ∧ (h + 1) % 4096 ≠ s.dev.fget Reg.WDN_EVR_TAIL.INDEX ∧
     e = { time := s.dev.now, blk := 0x13, inst := a.owner.num, code := a.arg 0, arg := a.arg 1 }) ∧
    (let id := 0;
     let a : Ask := { owner := .pitch 0, slot := 0, accel := 0x0D, code := 2, args := [0x8000, 0], addr := 0, posted := false };
     let d : Dev := {}; let d : Dev := { d with asks := Tab.put d.asks id a };
     let d : Dev := d.fset Reg.WDN_EVR_TAIL.INDEX 1; let s : State := { dev := d };
     s.live = true ∧ s.dev.calls id 0x0D 2 a = true ∧ 0x8000 ≤ a.arg 0 ∧ a.arg 0 ≤ 0xFFFF ∧ a.arg 1 < 2 ^ 32 ∧
     (s.dev.fget Reg.WDN_EVR_HEAD.INDEX + 1) % 4096 = s.dev.fget Reg.WDN_EVR_TAIL.INDEX) ∧
    (let id := 0;
     let a : Ask := { owner := .pitch 0, slot := 0, accel := 0x0D, code := 2, args := [], addr := 0, posted := false };
     let d : Dev := {}; let d : Dev := { d with asks := Tab.put d.asks id a }; let s : State := { dev := d };
     s.live = true ∧ s.dev.calls id 0x0D 2 a = true ∧ (a.arg 0 < 0x8000 ∨ 0xFFFF < a.arg 0 ∨ 2 ^ 32 ≤ a.arg 1)) ∧
    (let id := 0; let x : (Nat → Instr) × Nat × Nat := (.tallyAdd, 1, 1); let s : State := {};
     s.live = true ∧
     x ∈ [(Instr.tallyAdd, 1, 1), (Instr.tallyRead, 1, 2), (Instr.dmaRead, 0x0C, 1), (Instr.dmaWrite, 0x0C, 2), (Instr.wardenMailbox, 0x0D, 1), (Instr.wardenPost, 0x0D, 2)] ∧
     (∀ a, s.dev.calls id x.2.1 x.2.2 a = false)) ∧
    (let id := 0; let s : State := {};
     s.live = true ∧ Tab.look s.dev.asks id = none) := by
  refine ⟨?_, ?_, ?_, ?_, ?_, ?_, ?_, ?_, ?_, ?_, ?_, ?_, ?_, ?_, ?_, ?_, ?_, ?_, ?_, ?_, ?_, ?_, ?_⟩
  · decide +kernel
  · decide +kernel
  · decide +kernel
  · decide +kernel
  · decide +kernel
  · decide +kernel
  · decide +kernel
  · decide +kernel
  · decide +kernel
  · decide +kernel
  · decide +kernel
  · decide +kernel
  · decide +kernel
  · decide +kernel
  · decide +kernel
  · decide +kernel
  · decide +kernel
  · decide +kernel
  · decide +kernel
  · decide +kernel
  · decide +kernel
  · exact ⟨by decide +kernel, by simp only [List.mem_cons, true_or, or_true], fun _ => rfl⟩
  · decide +kernel

theorem witness_CallsOnTheMap :
    (let id := 0; let h := 1;
     let a : Ask := { owner := .pitch 0, slot := 0, accel := 3, code := 1, args := [0, 0], addr := 0, posted := false };
     let n : Ns := { nsid := 0, subsys := 0, tenant := 0, nsze := 1, grade := 0, anagrp := 0, attached := false, pinned := false, keySlot := 0 };
     let es : List Nat := [0xFA00000000]; let d : Dev := {}; let d : Dev := { d with asks := Tab.put d.asks id a };
     let d : Dev := (wOn d 0x14 0).fset Reg.MAP_RECOVER.STATE 2;
     let d : Dev := { d with hostq := { d.hostq with nss := Tab.put d.hostq.nss a.nsh n } };
     let s : State := { dev := d };
     s.live = true ∧ s.dev.calls id 3 1 a = true ∧ s.dev.mapTakes a = true ∧ Tab.look s.dev.hostq.nss a.nsh = some n ∧
     2 ≤ a.args.length ∧ a.arg 0 + (a.arg 1 % 65536 + 1) ≤ n.nsze ∧
     es = s.dev.rangeEntries a.nsh (a.arg 0) (a.arg 1 % 65536 + 1) ∧
     s.dev.missing a.nsh (a.arg 0) (a.arg 1 % 65536 + 1) = [] ∧ es.any entBad = false ∧ h = s.dev.map.nextLookup) ∧
    (let id := 0;
     let a : Ask := { owner := .pitch 0, slot := 0, accel := 3, code := 1, args := [1, 0], addr := 0, posted := false };
     let n : Ns := { nsid := 0, subsys := 0, tenant := 0, nsze := 0, grade := 0, anagrp := 0, attached := false, pinned := false, keySlot := 0 };
     let d : Dev := {}; let d : Dev := { d with asks := Tab.put d.asks id a };
     let d : Dev := (wOn d 0x14 0).fset Reg.MAP_RECOVER.STATE 2;
     let d : Dev := { d with hostq := { d.hostq with nss := Tab.put d.hostq.nss a.nsh n } };
     let s : State := { dev := d };
     s.live = true ∧ s.dev.calls id 3 1 a = true ∧ s.dev.mapTakes a = true ∧ Tab.look s.dev.hostq.nss a.nsh = some n ∧
     2 ≤ a.args.length ∧ n.nsze < a.arg 0 + (a.arg 1 % 65536 + 1)) ∧
    (let id := 0;
     let a : Ask := { owner := .pitch 0, slot := 0, accel := 3, code := 1, args := [], addr := 0, posted := false };
     let d : Dev := {}; let d : Dev := { d with asks := Tab.put d.asks id a };
     let d : Dev := (wOn d 0x14 0).fset Reg.MAP_RECOVER.STATE 2; let s : State := { dev := d };
     s.live = true ∧ s.dev.calls id 3 1 a = true ∧ s.dev.mapTakes a = true ∧ Tab.look s.dev.hostq.nss a.nsh = none) ∧
    (let id := 0;
     let a : Ask := { owner := .pitch 0, slot := 0, accel := 3, code := 1, args := [0, 0], addr := 0, posted := false };
     let n : Ns := { nsid := 0, subsys := 0, tenant := 0, nsze := 1, grade := 0, anagrp := 0, attached := false, pinned := false, keySlot := 0 };
     let es : List Nat := [0xFB00000000]; let d : Dev := {}; let d : Dev := { d with asks := Tab.put d.asks id a };
     let d : Dev := (wOn d 0x14 0).fset Reg.MAP_RECOVER.STATE 2;
     let d : Dev := { d with hostq := { d.hostq with nss := Tab.put d.hostq.nss a.nsh n } };
     let d : Dev := { d with map := { d.map with entries := [(0, 0xFB00000000)] } }; let s : State := { dev := d };
     s.live = true ∧ s.dev.calls id 3 1 a = true ∧ s.dev.mapTakes a = true ∧ Tab.look s.dev.hostq.nss a.nsh = some n ∧
     2 ≤ a.args.length ∧ a.arg 0 + (a.arg 1 % 65536 + 1) ≤ n.nsze ∧
     es = s.dev.rangeEntries a.nsh (a.arg 0) (a.arg 1 % 65536 + 1) ∧
     s.dev.missing a.nsh (a.arg 0) (a.arg 1 % 65536 + 1) = [] ∧ es.any entBad = true) ∧
    (let id := 0; let h := 1;
     let a : Ask := { owner := .pitch 0, slot := 0, accel := 3, code := 1, args := [0, 0], addr := 0, posted := false };
     let n : Ns := { nsid := 0, subsys := 0, tenant := 0, nsze := 1, grade := 0, anagrp := 0, attached := false, pinned := false, keySlot := 0 };
     let d : Dev := {}; let d : Dev := { d with asks := Tab.put d.asks id a };
     let d : Dev := (wOn d 0x14 0).fset Reg.MAP_RECOVER.STATE 2;
     let d : Dev := { d with hostq := { d.hostq with nss := Tab.put d.hostq.nss a.nsh n } };
     let d : Dev := { d with map := { d.map with dir := [(0, 0)] } }; let s : State := { dev := d };
     s.live = true ∧ s.dev.calls id 3 1 a = true ∧ s.dev.mapTakes a = true ∧ Tab.look s.dev.hostq.nss a.nsh = some n ∧
     2 ≤ a.args.length ∧ a.arg 0 + (a.arg 1 % 65536 + 1) ≤ n.nsze ∧
     s.dev.missing a.nsh (a.arg 0) (a.arg 1 % 65536 + 1) ≠ [] ∧ h = s.dev.map.nextLookup) ∧
    (let id := 0;
     let a : Ask := { owner := .pitch 0, slot := 0, accel := 3, code := 1, args := [], addr := 0, posted := false };
     let x : (Nat → Instr) × Nat := (.mapLookup, 1); let d : Dev := {};
     let d : Dev := { d with asks := Tab.put d.asks id a }; let s : State := { dev := d };
     s.live = true ∧
     x ∈ [(Instr.mapLookup, 1), (Instr.mapRelease, 2), (Instr.mapStage, 3), (Instr.mapNamespaceInfo, 4), (Instr.mapMove, 0x10)] ∧
     s.dev.calls id 3 x.2 a = true ∧ s.dev.mapTakes a = false) ∧
    (let id := 0;
     let a : Ask := { owner := .pitch 0, slot := 0, accel := 3, code := 2, args := [0], addr := 0, posted := false };
     let l : Lookup := { tenant := 0, nsh := 0, slba := 0, nblk := 0, tag := 0, ctx := 0, cmdref := 0, token := 0, entries := [] };
     let d : Dev := {}; let d : Dev := { d with asks := Tab.put d.asks id a };
     let d : Dev := (wOn d 0x14 0).fset Reg.MAP_RECOVER.STATE 2;
     let d : Dev := { d with map := { d.map with lookups := Tab.put d.map.lookups (a.arg 0 % 2 ^ 32) l } };
     let s : State := { dev := d };
     s.live = true ∧ s.dev.calls id 3 2 a = true ∧ s.dev.mapTakes a = true ∧
     Tab.look s.dev.map.lookups (a.arg 0 % 2 ^ 32) = some l ∧ (l.tenant = a.tenant ∨ s.dev.workItem a = true)) ∧
    (let id := 0;
     let a : Ask := { owner := .pitch 0, slot := 0, accel := 3, code := 2, args := [], addr := 0, posted := false };
     let d : Dev := {}; let d : Dev := { d with asks := Tab.put d.asks id a };
     let d : Dev := (wOn d 0x14 0).fset Reg.MAP_RECOVER.STATE 2; let s : State := { dev := d };
     s.live = true ∧ s.dev.calls id 3 2 a = true ∧ s.dev.mapTakes a = true ∧
     (∀ l, Tab.look s.dev.map.lookups (a.arg 0 % 2 ^ 32) = some l → l.tenant ≠ a.tenant ∧ s.dev.workItem a = false)) ∧
    (let id := 0; let i : Nat := 0;
     let a : Ask := { owner := .pitch 0, slot := 0, accel := 3, code := 3, args := [0, 0, 0], addr := 0, posted := false };
     let n : Ns := { nsid := 0, subsys := 0, tenant := 0, nsze := 1, grade := 0, anagrp := 0, attached := false, pinned := false, keySlot := 0 };
     let u : SUnit := { state := .landing, rec_ := { wgen := 0, nsh := 0, lba := 0 }, uncommitted := false };
     let d : Dev := {}; let d : Dev := { d with asks := Tab.put d.asks id a };
     let d : Dev := (wOn d 0x14 0).fset Reg.MAP_RECOVER.STATE 2;
     let d : Dev := { d with hostq := { d.hostq with nss := Tab.put d.hostq.nss a.nsh n } };
     let d : Dev := { d with map := { d.map with staging := [(i, u)] } }; let s : State := { dev := d };
     s.live = true ∧ s.dev.calls id 3 3 a = true ∧ s.dev.mapTakes a = true ∧ Tab.look s.dev.hostq.nss a.nsh = some n ∧
     a.arg 0 + (a.arg 1 % 65536 + 1) ≤ n.nsze ∧ s.dev.map.staging = [(i, u)] ∧ u.token = a.arg 2 ∧ u.state = .landing ∧
     u.uncommitted = false ∧ u.rec_.tenant = a.tenant ∧ s.dev.ledger.adms = []) ∧
    (let id := 0; let i : Nat := 0; let k := 0;
     let a : Ask := { owner := .pitch 0, slot := 0, accel := 3, code := 3, args := [0, 0, 0], addr := 0, posted := false };
     let n : Ns := { nsid := 0, subsys := 0, tenant := 0, nsze := 1, grade := 0, anagrp := 0, attached := false, pinned := false, keySlot := 0 };
     let u : SUnit := { state := .landing, rec_ := { wgen := 0, nsh := 0, lba := 0 }, uncommitted := false };
     let c : Admission := { tag := 0, ctx := 0, cmdref := 0, tenant := 0, nsh := 0, kind := .read, grade := 0, slba := 0, nblk := 0, units := 0, entries := 0, since := 0 };
     let d : Dev := {}; let d : Dev := { d with asks := Tab.put d.asks id a };
     let d : Dev := (wOn d 0x14 0).fset Reg.MAP_RECOVER.STATE 2;
     let d : Dev := { d with hostq := { d.hostq with nss := Tab.put d.hostq.nss a.nsh n } };
     let d : Dev := { d with map := { d.map with staging := [(i, u)] } };
     let d : Dev := { d with ledger := { d.ledger with adms := [(k, c)] } }; let s : State := { dev := d };
     s.live = true ∧ s.dev.calls id 3 3 a = true ∧ s.dev.mapTakes a = true ∧ Tab.look s.dev.hostq.nss a.nsh = some n ∧
     a.arg 0 + (a.arg 1 % 65536 + 1) ≤ n.nsze ∧ s.dev.map.staging = [(i, u)] ∧ u.token = a.arg 2 ∧ u.state = .landing ∧
     u.uncommitted = false ∧ u.rec_.tenant = a.tenant ∧ s.dev.ledger.adms = [(k, c)] ∧ c.tag = a.tagKey) ∧
    (let id := 0;
     let a : Ask := { owner := .pitch 0, slot := 0, accel := 3, code := 3, args := [], addr := 0, posted := false };
     let n : Ns := { nsid := 0, subsys := 0, tenant := 0, nsze := 0, grade := 0, anagrp := 0, attached := false, pinned := false, keySlot := 0 };
     let d : Dev := {}; let d : Dev := { d with asks := Tab.put d.asks id a };
     let d : Dev := (wOn d 0x14 0).fset Reg.MAP_RECOVER.STATE 2;
     let d : Dev := { d with hostq := { d.hostq with nss := Tab.put d.hostq.nss a.nsh n } };
     let s : State := { dev := d };
     let us : List (Nat × SUnit) := (s.dev.map.staging.filter (fun p => decide (p.2.token = a.arg 2 ∧ p.2.state = .landing)));
     s.live = true ∧ s.dev.calls id 3 3 a = true ∧ s.dev.mapTakes a = true ∧ Tab.look s.dev.hostq.nss a.nsh = some n ∧
     us = s.dev.map.staging.filter (fun p => decide (p.2.token = a.arg 2 ∧ p.2.state = .landing)) ∧
     (n.nsze < a.arg 0 + (a.arg 1 % 65536 + 1) ∨ us.any (fun p => p.2.uncommitted) = true ∨ us.any (fun p => p.2.rec_.tenant ≠ a.tenant) = true ∨ us = [])) ∧
    (let id := 0;
     let a : Ask := { owner := .pitch 0, slot := 0, accel := 3, code := 4, args := [], addr := 0, posted := false };
     let n : Ns := { nsid := 0, subsys := 0, tenant := 0, nsze := 0, grade := 0, anagrp := 0, attached := false, pinned := false, keySlot := 0 };
     let d : Dev := {}; let d : Dev := { d with asks := Tab.put d.asks id a };
     let d : Dev := (wOn d 0x14 0).fset Reg.MAP_RECOVER.STATE 2;
     let d : Dev := { d with hostq := { d.hostq with nss := Tab.put d.hostq.nss a.nsh n } };
     let s : State := { dev := d };
     s.live = true ∧ s.dev.calls id 3 4 a = true ∧ s.dev.mapTakes a = true ∧ Tab.look s.dev.hostq.nss a.nsh = some n) ∧
    (let id := 0;
     let a : Ask := { owner := .pitch 0, slot := 0, accel := 3, code := 3, args := [], addr := 0, posted := false };
     let x : (Nat → Instr) × Nat := (.mapStage, 3); let d : Dev := {};
     let d : Dev := { d with asks := Tab.put d.asks id a };
     let d : Dev := (wOn d 0x14 0).fset Reg.MAP_RECOVER.STATE 2; let s : State := { dev := d };
     s.live = true ∧ x ∈ [(Instr.mapStage, 3), (Instr.mapNamespaceInfo, 4)] ∧ s.dev.calls id 3 x.2 a = true ∧
     s.dev.mapTakes a = true ∧ Tab.look s.dev.hostq.nss a.nsh = none) ∧
    (let id := 0; let n := 0;
     let a : Ask := { owner := .pitch 0, slot := 0, accel := 3, code := 0x10, args := [], addr := 0, posted := false, tenant := 0 };
     let d : Dev := {}; let d : Dev := { d with asks := Tab.put d.asks id a };
     let d : Dev := (wOn d 0x14 0).fset Reg.MAP_RECOVER.STATE 2;
     let d : Dev := { d with stripe := { d.stripe with items := Tab.put d.stripe.items (a.arg 0) n } };
     let s : State := { dev := d };
     s.live = true ∧ s.dev.calls id 3 0x10 a = true ∧ s.dev.mapTakes a = true ∧ a.tenant = 0 ∧
     Tab.look s.dev.stripe.items (a.arg 0) = some n) ∧
    (let id := 0;
     let a : Ask := { owner := .pitch 0, slot := 0, accel := 3, code := 0x10, args := [], addr := 0, posted := false, tenant := 1 };
     let d : Dev := {}; let d : Dev := { d with asks := Tab.put d.asks id a };
     let d : Dev := (wOn d 0x14 0).fset Reg.MAP_RECOVER.STATE 2; let s : State := { dev := d };
     s.live = true ∧ s.dev.calls id 3 0x10 a = true ∧ s.dev.mapTakes a = true ∧
     (a.tenant ≠ 0 ∨ Tab.look s.dev.stripe.items (a.arg 0) = none)) ∧
    (let id := 0; let slba := 0; let nblk := 1; let ranges := 0; let handle := 0; let kind : CmdKind := .read;
     let a : Ask := { owner := .pitch 0, slot := 0, accel := 4, code := 0, args := [], addr := 0, posted := false, answer := none };
     let d : Dev := {}; let d : Dev := { d with asks := Tab.put d.asks id a }; let d : Dev := wOn d 0x11 0;
     let d : Dev := { d with ledger := { d.ledger with tenants := [(0, ({ readRsv := 0, writeRsv := 0, burst := 0, weight := 1, failFast := false } : LedgerTenant))] } };
     let s : State := { dev := d }; let c : Admission := (s.dev.asksFor a kind slba nblk ranges handle);
     let c' : Admission := (match Dev.decide_ s.dev c with | .ok x => x.1 | .error _ => c);
     let defs : List (Nat × Nat) := (match Dev.decide_ s.dev c with | .ok x => x.2 | .error _ => []);
     s.live = true ∧ Tab.look s.dev.asks id = some a ∧ a.accel = 4 ∧ a.code ≠ 2 ∧ a.answer = none ∧
     s.dev.serves 0x11 = true ∧ s.dev.ledger.adms = [] ∧ (s.dev.psDefers = false ∨ a.tenant = 0) ∧
     c = s.dev.asksFor a kind slba nblk ranges handle ∧ s.dev.keyHard a.nsh kind c.units = false ∧
     s.dev.decide_ c = .ok (c', defs)) ∧
    (let id := 0; let slba := 0; let nblk := 1; let ranges := 0; let handle := 0; let kind : CmdKind := .read;
     let a : Ask := { owner := .pitch 0, slot := 0, accel := 4, code := 0, args := [], addr := 0, posted := false, answer := none };
     let d : Dev := {}; let d : Dev := { d with asks := Tab.put d.asks id a }; let d : Dev := wOn d 0x11 0;
     let s : State := { dev := d }; let c : Admission := (s.dev.asksFor a kind slba nblk ranges handle);
     s.live = true ∧ Tab.look s.dev.asks id = some a ∧ a.accel = 4 ∧ a.code ≠ 2 ∧ a.answer = none ∧
     s.dev.serves 0x11 = true ∧ s.dev.ledger.adms = [] ∧ c = s.dev.asksFor a kind slba nblk ranges handle ∧
     s.dev.keyHard a.nsh kind c.units = false ∧
     (s.dev.psDefers = true ∧ a.tenant ≠ 0 ∨ (s.dev.decide_ c).toOption = none ∧ s.dev.failFast a.tenant = false)) ∧
    (let id := 0; let slba := 0; let nblk := 1; let ranges := 0; let handle := 0; let kind : CmdKind := .read;
     let a : Ask := { owner := .pitch 0, slot := 0, accel := 4, code := 0, args := [], addr := 0, posted := false, answer := none };
     let d : Dev := {}; let d : Dev := { d with asks := Tab.put d.asks id a }; let d : Dev := wOn d 0x11 0;
     let d : Dev := { d with ledger := { d.ledger with tenants := [(0, ({ readRsv := 0, writeRsv := 0, burst := 0, weight := 0, failFast := true } : LedgerTenant))] } };
     let s : State := { dev := d }; let c : Admission := (s.dev.asksFor a kind slba nblk ranges handle);
     s.live = true ∧ Tab.look s.dev.asks id = some a ∧ a.accel = 4 ∧ a.code ≠ 2 ∧ a.answer = none ∧
     s.dev.serves 0x11 = true ∧ s.dev.ledger.adms = [] ∧ c = s.dev.asksFor a kind slba nblk ranges handle ∧
     s.dev.keyHard a.nsh kind c.units = false ∧ (s.dev.psDefers = false ∨ a.tenant = 0) ∧
     (s.dev.decide_ c).toOption = none ∧ s.dev.failFast a.tenant = true) ∧
    (let id := 0; let slba := 0; let nblk := 0; let ranges := 0; let handle := 0; let kind : CmdKind := .write;
     let a : Ask := { owner := .pitch 0, slot := 0, accel := 4, code := 0, args := [], addr := 0, posted := false, answer := none };
     let d : Dev := {}; let d : Dev := { d with asks := Tab.put d.asks id a }; let d : Dev := wOn d 0x11 0;
     let d : Dev := { d with hostq := { d.hostq with nss := [(0, ({ nsid := 0, subsys := 0, tenant := 0, nsze := 0, grade := 0, anagrp := 0, attached := false, pinned := false, keySlot := 0 } : Ns))] } };
     let s : State := { dev := d };
     s.live = true ∧ Tab.look s.dev.asks id = some a ∧ a.accel = 4 ∧ a.code ≠ 2 ∧ a.answer = none ∧
     s.dev.serves 0x11 = true ∧ s.dev.ledger.adms = [] ∧
     s.dev.keyHard a.nsh kind (s.dev.asksFor a kind slba nblk ranges handle).units = true) ∧
    (let id := 0;
     let a : Ask := { owner := .pitch 0, slot := 0, accel := 4, code := 0, args := [], addr := 0, posted := false, answer := none };
     let d : Dev := {}; let d : Dev := { d with asks := Tab.put d.asks id a }; let s : State := { dev := d };
     s.live = true ∧ Tab.look s.dev.asks id = some a ∧ a.accel = 4 ∧ a.code ≠ 2 ∧ a.answer = none ∧
     s.dev.serves 0x11 = false) ∧
    (let id := 0; let n := 0;
     let a : Ask := { owner := .pitch 0, slot := 0, accel := 4, code := 2, args := [0], addr := 0, posted := false };
     let c : Admission := { tag := 0, ctx := 0, cmdref := 0, tenant := 0, nsh := 0, kind := .read, grade := 0, slba := 0, nblk := 0, units := 0, entries := 0, since := 0 };
     let d : Dev := {}; let d : Dev := { d with asks := Tab.put d.asks id a };
     let d : Dev := { d with ledger := { d.ledger with adms := [(n, c)] } }; let s : State := { dev := d };
     s.live = true ∧ s.dev.calls id 4 2 a = true ∧ a.args ≠ [] ∧ n = a.arg 0 % 2 ^ 32 ∧ s.dev.ledger.adms = [(n, c)]) ∧
    (let id := 0;
     let a : Ask := { owner := .pitch 0, slot := 0, accel := 4, code := 2, args := [], addr := 0, posted := false };
     let d : Dev := {}; let d : Dev := { d with asks := Tab.put d.asks id a }; let s : State := { dev := d };
     s.live = true ∧ s.dev.calls id 4 2 a = true ∧ (a.args = [] ∨ Tab.look s.dev.ledger.adms (a.arg 0 % 2 ^ 32) = none)) ∧
    (let id := 0; let i : Nat := 0;
     let a : Ask := { owner := .pitch 0, slot := 0, accel := 5, code := 1, args := [], addr := 0, posted := false };
     let kind : CmdKind := .read;
     let c : Admission := { tag := 0, ctx := 0, cmdref := 0, tenant := 0, nsh := 0, kind := kind, grade := 0, slba := 0, nblk := 0, units := 0, entries := 1, since := 0 };
     let d : Dev := {}; let d : Dev := { d with asks := Tab.put d.asks id a }; let d : Dev := wOn d 0x12 0;
     let d : Dev := { d with ledger := { d.ledger with adms := [(i, c)] } }; let s : State := { dev := d };
     let r : Nat := (s.dev.fget Reg.ROPE_NEXT.ROPE);
     s.live = true ∧ s.dev.calls id 5 1 a = true ∧ s.dev.serves 0x12 = true ∧
     kindOf (bitsOf (a.arg 0) 51 48) = some kind ∧ kind ∈ [.read, .write, .dealloc] ∧ a.arg 0 % 2 ^ 32 = a.cmdref ∧
     bitsOf (a.arg 0) 45 32 = a.nsh ∧ Tab.look s.dev.rope.marks (s.dev.markKey a.context a.cmdref) = none ∧
     s.dev.hostq.tags = [] ∧ s.dev.rope.locks = [] ∧ s.dev.ledger.adms = [(i, c)] ∧ c.tag = tagKey a.context a.cmdref ∧
     c.nsh = a.nsh ∧ c.kind = kind ∧ 0 < c.entries ∧ c.slba ≤ a.arg 1 ∧ a.arg 1 + a.arg 2 ≤ c.slba + c.nblk ∧
     s.dev.jnl.active = none ∧ r = s.dev.fget Reg.ROPE_NEXT.ROPE) ∧
    (let id := 0; let r := 1; let i : Nat := 0; let j := 0;
     let a : Ask := { owner := .pitch 0, slot := 0, accel := 5, code := 1, args := [2 ^ 48, 0, 1], addr := 0, posted := false };
     let c : Admission := { tag := 0, ctx := 0, cmdref := 0, tenant := 0, nsh := 0, kind := .write, grade := 0, slba := 0, nblk := 1, units := 0, entries := 1, since := 0 };
     let q : Lock := { rope := 0, slba := 0, nblk := 1, nsh := 0, kind := .write, granted := false, tenant := 0, depth := 0, ctx := 0, cmdref := 0 };
     let d : Dev := {}; let d : Dev := { d with asks := Tab.put d.asks id a }; let d : Dev := wOn d 0x12 0;
     let d : Dev := { d with ledger := { d.ledger with adms := [(i, c)] } };
     let d : Dev := { d with rope := { d.rope with locks := [(j, q)] } }; let d : Dev := d.fset Reg.ROPE_NEXT.ROPE 1;
     let s : State := { dev := d };
     s.live = true ∧ s.dev.calls id 5 1 a = true ∧ s.dev.serves 0x12 = true ∧ bitsOf (a.arg 0) 51 48 = 1 ∧
     a.arg 0 % 2 ^ 32 = a.cmdref ∧ bitsOf (a.arg 0) 45 32 = a.nsh ∧
     Tab.look s.dev.rope.marks (s.dev.markKey a.context a.cmdref) = none ∧ s.dev.hostq.tags = [] ∧
     s.dev.ledger.adms = [(i, c)] ∧ c.tag = tagKey a.context a.cmdref ∧ c.nsh = a.nsh ∧ c.kind = .write ∧
     0 < c.entries ∧ c.slba ≤ a.arg 1 ∧ a.arg 1 + a.arg 2 ≤ c.slba + c.nblk ∧ s.dev.rope.locks = [(j, q)] ∧
     q.nsh = a.nsh ∧ q.kind = .write ∧ q.slba < a.arg 1 + a.arg 2 ∧ a.arg 1 < q.slba + q.nblk ∧
     s.dev.jnl.active = none ∧ r = s.dev.fget Reg.ROPE_NEXT.ROPE ∧ q.rope < r) ∧
    (let id := 0;
     let a : Ask := { owner := .pitch 0, slot := 0, accel := 5, code := 1, args := [], addr := 0, posted := false };
     let m : Mark := { made := 0 }; let kind : CmdKind := .read; let d : Dev := {};
     let d : Dev := { d with asks := Tab.put d.asks id a }; let d : Dev := wOn d 0x12 0;
     let d : Dev := { d with rope := { d.rope with marks := Tab.put d.rope.marks (d.markKey a.context (a.arg 0 % 2 ^ 32)) m } };
     let s : State := { dev := d };
     s.live = true ∧ s.dev.calls id 5 1 a = true ∧ s.dev.serves 0x12 = true ∧
     kindOf (bitsOf (a.arg 0) 51 48) = some kind ∧
     Tab.look s.dev.rope.marks (s.dev.markKey a.context (a.arg 0 % 2 ^ 32)) = some m ∧ s.dev.hostq.tags = []) ∧
    (let id := 0;
     let a : Ask := { owner := .pitch 0, slot := 0, accel := 5, code := 1, args := [], addr := 0, posted := false };
     let kind : CmdKind := .read; let d : Dev := {}; let d : Dev := { d with asks := Tab.put d.asks id a };
     let d : Dev := wOn d 0x12 0; let s : State := { dev := d };
     s.live = true ∧ s.dev.calls id 5 1 a = true ∧ s.dev.serves 0x12 = true ∧
     kindOf (bitsOf (a.arg 0) 51 48) = some kind ∧
     Tab.look s.dev.rope.marks (s.dev.markKey a.context (a.arg 0 % 2 ^ 32)) = none ∧ s.dev.hostq.tags = [] ∧
     s.dev.rope.locks = [] ∧ (a.arg 0 % 2 ^ 32 ≠ a.cmdref ∨ bitsOf (a.arg 0) 45 32 ≠ a.nsh ∨ s.dev.ledger.adms = [])) ∧
    (let id := 0;
     let a : Ask := { owner := .pitch 0, slot := 0, accel := 5, code := 1, args := [7 * 2 ^ 48], addr := 0, posted := false };
     let d : Dev := {}; let d : Dev := { d with asks := Tab.put d.asks id a }; let d : Dev := wOn d 0x12 0;
     let s : State := { dev := d };
     s.live = true ∧ s.dev.calls id 5 1 a = true ∧ s.dev.serves 0x12 = true ∧ kindOf (bitsOf (a.arg 0) 51 48) = none) ∧
    (let s : State := {};
     s.live = true ∧ s.dev.serves 0x12 = false) ∧
    (let id := 0;
     let a : Ask := { owner := .pitch 0, slot := 0, accel := 5, code := 2, args := [], addr := 0, posted := false };
     let d : Dev := {}; let d : Dev := { d with asks := Tab.put d.asks id a }; let d : Dev := wOn d 0x12 0;
     let s : State := { dev := d };
     s.live = true ∧ s.dev.calls id 5 2 a = true ∧ s.dev.serves 0x12 = true ∧ s.dev.hostq.tags = []) ∧
    (let id := 0;
     let a : Ask := { owner := .pitch 0, slot := 0, accel := 5, code := 2, args := [], addr := 0, posted := false };
     let k := 0;
     let t : Tag := { ctx := 0, qid := 0, cid := 0, ctrl := 0, tenant := 0, sqe := [], state := .running };
     let d : Dev := {}; let d : Dev := { d with asks := Tab.put d.asks id a }; let d : Dev := wOn d 0x12 0;
     let d : Dev := { d with hostq := { d.hostq with tags := [(k, t)] } }; let s : State := { dev := d };
     s.live = true ∧ s.dev.calls id 5 2 a = true ∧ s.dev.serves 0x12 = true ∧ s.dev.hostq.tags = [(k, t)] ∧
     t.ctrl = s.dev.ctrlOf a.context ∧ t.qid * 65536 + t.cid = a.arg 0 % 2 ^ 32 ∧ t.state = .running) ∧
    (let id := 0;
     let a : Ask := { owner := .pitch 0, slot := 0, accel := 5, code := 2, args := [], addr := 0, posted := false };
     let k := 0;
     let t : Tag := { ctx := 0, qid := 0, cid := 0, ctrl := 0, tenant := 0, sqe := [], state := .committed };
     let d : Dev := {}; let d : Dev := { d with asks := Tab.put d.asks id a }; let d : Dev := wOn d 0x12 0;
     let d : Dev := { d with hostq := { d.hostq with tags := [(k, t)] } }; let s : State := { dev := d };
     s.live = true ∧ s.dev.calls id 5 2 a = true ∧ s.dev.serves 0x12 = true ∧ (k, t) ∈ s.dev.hostq.tags ∧
     t.ctrl = s.dev.ctrlOf a.context ∧ t.qid * 65536 + t.cid = a.arg 0 % 2 ^ 32 ∧
     (t.state = .committed ∨ t.state = .completed)) ∧
    (let ctrl := 0; let cmdref := 0; let m : Mark := { made := 0, found := false }; let d : Dev := {};
     let d : Dev := { d with rope := { d.rope with marks := Tab.put d.rope.marks (ctrl * 2 ^ 32 + cmdref % 2 ^ 32) m } };
     let d : Dev := { d with tim := { d.tim with ns := 10000000 } }; let s : State := { dev := d };
     s.live = true ∧ Tab.look s.dev.rope.marks (ctrl * 2 ^ 32 + cmdref % 2 ^ 32) = some m ∧ m.found = false ∧
     m.made + 10000000 ≤ s.dev.now) ∧
    (let ctrl := 0; let cmdref := 0; let s : State := {};
     s.live = true ∧
     (∀ m, Tab.look s.dev.rope.marks (ctrl * 2 ^ 32 + cmdref % 2 ^ 32) = some m → m.found = true ∨ s.dev.now < m.made + 10000000)) := by
  refine ⟨?_, ?_, ?_, ?_, ?_, ?_, ?_, ?_, ?_, ?_, ?_, ?_, ?_, ?_, ?_, ?_, ?_, ?_, ?_, ?_, ?_, ?_, ?_, ?_, ?_, ?_, ?_, ?_, ?_, ?_, ?_, ?_, ?_⟩
  · decide +kernel
  · decide +kernel
  · decide +kernel
  · decide +kernel
  · decide +kernel
  · exact ⟨by decide +kernel, by simp only [List.mem_cons, true_or, or_true], by decide +kernel, by decide +kernel⟩
  · decide +kernel
  · exact ⟨by decide +kernel, by decide +kernel, by decide +kernel, by rintro _ ⟨⟩⟩
  · decide +kernel
  · decide +kernel
  · decide +kernel
  · decide +kernel
  · exact ⟨by decide +kernel, by simp only [List.mem_cons, true_or, or_true], by decide +kernel, by decide +kernel, by decide +kernel⟩
  · decide +kernel
  · decide +kernel
  · decide +kernel
  · decide +kernel
  · decide +kernel
  · decide +kernel
  · decide +kernel
  · decide +kernel
  · decide +kernel
  · decide +kernel
  · decide +kernel
  · decide +kernel
  · decide +kernel
  · decide +kernel
  · decide +kernel
  · decide +kernel
  · decide +kernel
  · decide +kernel
  · decide +kernel
  · exact ⟨by decide +kernel, by rintro _ ⟨⟩⟩

theorem witness_CallsOnTheMedia :
    (let id := 0; let n := 1; let slot := 0;
     let a : Ask := { owner := .pitch 0, slot := 0, accel := 6, code := 1, args := [0, 1], addr := 0, posted := false };
     let d : Dev := {}; let d : Dev := { d with asks := Tab.put d.asks id a }; let d : Dev := wOn d 0x18 0;
     let d : Dev := { d with cipher := { d.cipher with data := [(0, { tenant := 0, nsh := 0, cur := some ({ gen := 0, key := [] } : KeyGen) })] } };
     let s : State := { dev := d };
     s.live = true ∧ s.dev.calls id 6 1 a = true ∧ s.dev.serves 0x18 = true ∧ n = bitsOf (a.arg 1) 8 0 ∧ 1 ≤ n ∧
     n ≤ 256 ∧ slot = bitsOf (a.arg 1) 29 16 ∧ (s.dev.dslot slot).cur.isSome = true ∧ s.dev.slotAllows a slot = true ∧
     s.dev.map.staging.all (fun p => !p.2.uncommitted) = true) ∧
    (let id := 0;
     let a : Ask := { owner := .pitch 0, slot := 0, accel := 6, code := 1, args := [0, 1], addr := 0, posted := false };
     let d : Dev := {}; let d : Dev := { d with asks := Tab.put d.asks id a }; let d : Dev := wOn d 0x18 0;
     let s : State := { dev := d };
     s.live = true ∧ s.dev.calls id 6 1 a = true ∧ s.dev.serves 0x18 = true ∧ 1 ≤ bitsOf (a.arg 1) 8 0 ∧
     bitsOf (a.arg 1) 8 0 ≤ 256 ∧ (s.dev.dslot (bitsOf (a.arg 1) 29 16)).cur = none) ∧
    (let id := 0;
     let a : Ask := { owner := .pitch 0, slot := 0, accel := 6, code := 1, args := [0], addr := 0, posted := false };
     let d : Dev := {}; let d : Dev := { d with asks := Tab.put d.asks id a }; let d : Dev := wOn d 0x18 0;
     let s : State := { dev := d };
     s.live = true ∧ s.dev.calls id 6 1 a = true ∧ s.dev.serves 0x18 = true ∧
     (bitsOf (a.arg 1) 8 0 = 0 ∨ 256 < bitsOf (a.arg 1) 8 0)) ∧
    (let id := 0;
     let a : Ask := { owner := .pitch 0, slot := 0, accel := 6, code := 1, args := [0, 1], addr := 0, posted := false, tenant := 1 };
     let d : Dev := {}; let d : Dev := { d with asks := Tab.put d.asks id a }; let d : Dev := wOn d 0x18 0;
     let d : Dev := { d with cipher := { d.cipher with data := [(0, { tenant := 0, nsh := 0, cur := some ({ gen := 0, key := [] } : KeyGen) })] } };
     let s : State := { dev := d };
     s.live = true ∧ s.dev.calls id 6 1 a = true ∧ s.dev.serves 0x18 = true ∧ 1 ≤ bitsOf (a.arg 1) 8 0 ∧
     bitsOf (a.arg 1) 8 0 ≤ 256 ∧ (s.dev.dslot (bitsOf (a.arg 1) 29 16)).cur.isSome = true ∧
     s.dev.slotAllows a (bitsOf (a.arg 1) 29 16) = false) ∧
    (let id := 0; let n := 0;
     let a : Ask := { owner := .pitch 0, slot := 0, accel := 6, code := 2, args := [0], addr := 0, posted := false };
     let d : Dev := {}; let d : Dev := { d with asks := Tab.put d.asks id a }; let d : Dev := wOn d 0x18 0;
     let s : State := { dev := d };
     s.live = true ∧ s.dev.calls id 6 2 a = true ∧ s.dev.serves 0x18 = true ∧ a.args ≠ [] ∧ n = bitsOf (a.arg 0) 13 0 ∧
     s.dev.slotAllows a n = true ∧ s.dev.cipher.erases = [] ∧
     s.dev.cipher.seals.all (fun x => decide (x.slot ≠ n)) = true ∧ (s.dev.dslot n).cur = none ∧
     (s.dev.dslot n).standby = none ∧ (s.dev.dslot n).older = []) ∧
    (let id := 0; let n := 0;
     let a : Ask := { owner := .pitch 0, slot := 0, accel := 6, code := 2, args := [0], addr := 0, posted := false };
     let k : KeyGen := ({ gen := 0, key := [] } : KeyGen); let d : Dev := {};
     let d : Dev := { d with asks := Tab.put d.asks id a }; let d : Dev := wOn d 0x18 0;
     let d : Dev := { d with cipher := { d.cipher with data := [(0, { tenant := 0, nsh := 0, cur := some ({ gen := 0, key := [] } : KeyGen) })] } };
     let s : State := { dev := d };
     s.live = true ∧ s.dev.calls id 6 2 a = true ∧ s.dev.serves 0x18 = true ∧ a.args ≠ [] ∧ n = bitsOf (a.arg 0) 13 0 ∧
     s.dev.slotAllows a n = true ∧ s.dev.cipher.erases = [] ∧
     s.dev.cipher.seals.all (fun x => decide (x.slot ≠ n)) = true ∧ (s.dev.dslot n).cur = some k ∧
     (s.dev.dslot n).standby = none) ∧
    (let id := 0; let n := 0;
     let a : Ask := { owner := .pitch 0, slot := 0, accel := 6, code := 2, args := [0], addr := 0, posted := false };
     let d : Dev := {}; let d : Dev := { d with asks := Tab.put d.asks id a }; let d : Dev := wOn d 0x18 0;
     let d : Dev := { d with cipher := { d.cipher with seals := [({ ctx := 0, cmdref := 0, tenant := 0, nsh := 0, runToken := 0, runGen := 0, token := 0, slot := 0, rope := 0, left := [], units := 0, serial := 0 } : Seal)], nextSeal := 1, data := [(0, { tenant := 0, nsh := 0, cur := some ({ gen := 0, key := [] } : KeyGen) })] } };
     let s : State := { dev := d };
     s.live = true ∧ s.dev.calls id 6 2 a = true ∧ s.dev.serves 0x18 = true ∧ a.args ≠ [] ∧ n = bitsOf (a.arg 0) 13 0 ∧
     s.dev.slotAllows a n = true ∧ s.dev.cipher.erases = [] ∧
     s.dev.cipher.seals.any (fun x => decide (x.slot = n ∧ x.serial < s.dev.cipher.nextSeal)) = true) ∧
    (let id := 0;
     let a : Ask := { owner := .pitch 0, slot := 0, accel := 6, code := 2, args := [], addr := 0, posted := false };
     let d : Dev := {}; let d : Dev := { d with asks := Tab.put d.asks id a }; let d : Dev := wOn d 0x18 0;
     let s : State := { dev := d };
     s.live = true ∧ s.dev.calls id 6 2 a = true ∧ s.dev.serves 0x18 = true ∧
     (a.args = [] ∨ s.dev.slotAllows a (bitsOf (a.arg 0) 13 0) = false ∧ (s.dev.dslot (bitsOf (a.arg 0) 13 0)).cur.isSome = true)) ∧
    (let id := 0; let first := 0; let count := 1; let h := 0;
     let a : Ask := { owner := .pitch 0, slot := 0, accel := 7, code := 1, args := [2 ^ 48, 0], addr := 0, posted := false };
     let l : Lookup := { tenant := 0, nsh := 0, slba := 0, nblk := 1, tag := 0, ctx := 0, cmdref := 0, token := 0, entries := [0], gens := [0] };
     let ad : Admission := { tag := 0, ctx := 0, cmdref := 0, tenant := 0, nsh := 0, kind := .read, grade := 0, slba := 0, nblk := 0, units := 0, entries := 0, since := 0 };
     let d : Dev := {}; let d : Dev := { d with asks := Tab.put d.asks id a }; let d : Dev := wOn d 0x16 0;
     let d : Dev := { d with map := { d.map with lookups := Tab.put d.map.lookups h l } };
     let d : Dev := { d with ledger := { d.ledger with adms := Tab.put d.ledger.adms (a.arg 0 % 2 ^ 32) ad } };
     let d : Dev := d.fset Reg.MAP_RECOVER.STATE 2; let s : State := { dev := d };
     let j : Nat := Media.nextJob (Dev.media s.dev);
     let us : List JobUnit := ((((s.dev.captured l).drop first).take count).flatMap (fun c => s.dev.readUnits l c.1 c.2.1 c.2.2));
     s.live = true ∧ s.dev.calls id 7 1 a = true ∧ s.dev.serves 0x16 = true ∧ first = bitsOf (a.arg 0) 47 32 ∧
     count = bitsOf (a.arg 0) 63 48 ∧ 1 ≤ count ∧ count ≤ 256 ∧ h = a.arg 1 % 2 ^ 32 ∧
     Tab.look s.dev.map.lookups h = some l ∧ Tab.look s.dev.ledger.adms (a.arg 0 % 2 ^ 32) = some ad ∧
     l.tenant = a.tenant ∧ ad.tag = l.tag ∧ first + count ≤ l.entries.length ∧ j = s.dev.media.nextJob ∧
     us = (((s.dev.captured l).drop first).take count).flatMap (fun c => s.dev.readUnits l c.1 c.2.1 c.2.2) ∧ us ≠ [] ∧
     us.all (fun u => !u.decoded && !u.done && decide (s.dev.sledState (entSled u.entry) = 0)) = true) ∧
    (let id := 0;
     let a : Ask := { owner := .pitch 0, slot := 0, accel := 7, code := 1, args := [], addr := 0, posted := false };
     let d : Dev := {}; let d : Dev := { d with asks := Tab.put d.asks id a }; let d : Dev := wOn d 0x16 0;
     let s : State := { dev := d };
     s.live = true ∧ s.dev.calls id 7 1 a = true ∧ s.dev.serves 0x16 = true ∧
     (bitsOf (a.arg 0) 63 48 = 0 ∨ 256 < bitsOf (a.arg 0) 63 48)) ∧
    (let id := 0;
     let a : Ask := { owner := .pitch 0, slot := 0, accel := 7, code := 1, args := [2 ^ 48, 0], addr := 0, posted := false };
     let d : Dev := {}; let d : Dev := { d with asks := Tab.put d.asks id a }; let d : Dev := wOn d 0x16 0;
     let s : State := { dev := d };
     s.live = true ∧ s.dev.calls id 7 1 a = true ∧ s.dev.serves 0x16 = true ∧ 1 ≤ bitsOf (a.arg 0) 63 48 ∧
     bitsOf (a.arg 0) 63 48 ≤ 256 ∧ Tab.look s.dev.map.lookups (a.arg 1 % 2 ^ 32) = none) ∧
    (let id := 0;
     let a : Ask := { owner := .pitch 0, slot := 0, accel := 7, code := 1, args := [2 ^ 48, 0], addr := 0, posted := false };
     let l : Lookup := { tenant := 0, nsh := 0, slba := 0, nblk := 0, tag := 0, ctx := 0, cmdref := 0, token := 0, entries := [] };
     let d : Dev := {}; let d : Dev := { d with asks := Tab.put d.asks id a }; let d : Dev := wOn d 0x16 0;
     let d : Dev := { d with map := { d.map with lookups := Tab.put d.map.lookups (a.arg 1 % 2 ^ 32) l } };
     let s : State := { dev := d };
     s.live = true ∧ s.dev.calls id 7 1 a = true ∧ s.dev.serves 0x16 = true ∧ 1 ≤ bitsOf (a.arg 0) 63 48 ∧
     bitsOf (a.arg 0) 63 48 ≤ 256 ∧ Tab.look s.dev.map.lookups (a.arg 1 % 2 ^ 32) = some l ∧
     (∀ ad, Tab.look s.dev.ledger.adms (a.arg 0 % 2 ^ 32) = some ad → l.tenant ≠ a.tenant ∨ ad.tag ≠ l.tag ∨ l.entries.length < bitsOf (a.arg 0) 47 32 + bitsOf (a.arg 0) 63 48)) ∧
    (let id := 0;
     let a : Ask := { owner := .pitch 0, slot := 0, accel := 7, code := 0x10, args := [], addr := 0, posted := false, tenant := 0 };
     let d : Dev := {}; let d : Dev := { d with asks := Tab.put d.asks id a }; let d : Dev := wOn d 0x16 0;
     let s : State := { dev := d };
     s.live = true ∧ s.dev.calls id 7 0x10 a = true ∧ s.dev.serves 0x16 = true ∧ a.tenant = 0) ∧
    (let id := 0; let n := 0;
     let a : Ask := { owner := .pitch 0, slot := 0, accel := 8, code := 1, args := [], addr := 0, posted := false, tenant := 0 };
     let b : Band := { state := .closed, k := 0, m := 0 }; let d : Dev := {};
     let d : Dev := { d with asks := Tab.put d.asks id a }; let d : Dev := wOn d 0x15 0;
     let d : Dev := { d with stripe := { d.stripe with bands := [(n, b)] } }; let s : State := { dev := d };
     s.live = true ∧ s.dev.calls id 8 1 a = true ∧ s.dev.serves 0x15 = true ∧ a.tenant = 0 ∧ a.arg 0 % 4 ≠ 3 ∧
     s.dev.stripe.bands = [(n, b)] ∧ b.state = .closed) ∧
    (let id := 0; let n := 0;
     let a : Ask := { owner := .pitch 0, slot := 0, accel := 8, code := 2, args := [], addr := 0, posted := false, tenant := 0 };
     let b : Band := { state := .closed, k := 0, m := 0, item := none }; let d : Dev := {};
     let d : Dev := { d with asks := Tab.put d.asks id a }; let d : Dev := wOn d 0x15 0;
     let d : Dev := { d with stripe := { d.stripe with bands := Tab.put d.stripe.bands n b } };
     let s : State := { dev := d };
     s.live = true ∧ s.dev.calls id 8 2 a = true ∧ s.dev.serves 0x15 = true ∧ a.tenant = 0 ∧ n = a.arg 0 % 2 ^ 32 ∧
     Tab.look s.dev.stripe.bands n = some b ∧ b.state = .closed ∧ b.item = none ∧ b.ofMap = false) ∧
    (let id := 0; let n := 0;
     let a : Ask := { owner := .pitch 0, slot := 0, accel := 8, code := 2, args := [], addr := 0, posted := false, tenant := 0 };
     let d : Dev := {}; let d : Dev := { d with asks := Tab.put d.asks id a }; let d : Dev := wOn d 0x15 0;
     let s : State := { dev := d };
     s.live = true ∧ s.dev.calls id 8 2 a = true ∧ s.dev.serves 0x15 = true ∧ a.tenant = 0 ∧ n = a.arg 0 % 2 ^ 32 ∧
     (∀ b, Tab.look s.dev.stripe.bands n = some b → b.state ≠ .closed)) ∧
    (let id := 0; let n := 0;
     let a : Ask := { owner := .pitch 0, slot := 0, accel := 8, code := 2, args := [], addr := 0, posted := false, tenant := 0 };
     let b : Band := { state := .closed, k := 0, m := 0, item := some 3 }; let d : Dev := {};
     let d : Dev := { d with asks := Tab.put d.asks id a }; let d : Dev := wOn d 0x15 0;
     let d : Dev := { d with stripe := { d.stripe with bands := Tab.put d.stripe.bands n b } };
     let s : State := { dev := d };
     s.live = true ∧ s.dev.calls id 8 2 a = true ∧ s.dev.serves 0x15 = true ∧ a.tenant = 0 ∧ n = a.arg 0 % 2 ^ 32 ∧
     Tab.look s.dev.stripe.bands n = some b ∧ b.state = .closed ∧ b.item.isSome = true) ∧
    (let id := 0;
     let a : Ask := { owner := .pitch 0, slot := 0, accel := 8, code := 1, args := [], addr := 0, posted := false, tenant := 1 };
     let x : (Nat → Instr) × Nat := (.stripeCandidates, 1); let d : Dev := {};
     let d : Dev := { d with asks := Tab.put d.asks id a }; let d : Dev := wOn d 0x15 0;
     let s : State := { dev := d };
     s.live = true ∧ x ∈ [(Instr.stripeCandidates, 1), (Instr.stripeSelect, 2)] ∧ s.dev.calls id 8 x.2 a = true ∧
     s.dev.serves 0x15 = true ∧ a.tenant ≠ 0) ∧
    (let id := 0;
     let a : Ask := { owner := .pitch 0, slot := 0, accel := 7, code := 0x10, args := [], addr := 0, posted := false, tenant := 1 };
     let d : Dev := {}; let d : Dev := { d with asks := Tab.put d.asks id a }; let d : Dev := wOn d 0x16 0;
     let s : State := { dev := d };
     s.live = true ∧ s.dev.calls id 7 0x10 a = true ∧ s.dev.serves 0x16 = true ∧ a.tenant ≠ 0) ∧
    (let id := 0;
     let a : Ask := { owner := .pitch 0, slot := 0, accel := 6, code := 1, args := [], addr := 0, posted := false };
     let x : (Nat → Instr) × Nat × Nat × Nat := (.cipherSeal, 6, 1, 0x18); let d : Dev := {};
     let d : Dev := { d with asks := Tab.put d.asks id a }; let s : State := { dev := d };
     s.live = true ∧
     x ∈ [(Instr.cipherSeal, 6, 1, 0x18), (Instr.cipherErase, 6, 2, 0x18), (Instr.mediaRead, 7, 1, 0x16), (Instr.mediaWork, 7, 0x10, 0x16), (Instr.stripeCandidates, 8, 1, 0x15), (Instr.stripeSelect, 8, 2, 0x15)] ∧
     s.dev.calls id x.2.1 x.2.2.1 a = true ∧ s.dev.serves x.2.2.2 = false) ∧
    (let id := 0; let n := 0;
     let a : Ask := { owner := .pitch 0, slot := 0, accel := 0x0A, code := 1, args := [0x20000000, 0x800000000, 0], addr := 0, posted := false };
     let t : Tag := { ctx := 0, qid := 0, cid := 0, ctrl := 0, tenant := 0, sqe := [], state := .running, sglLen := 8 };
     let c : Ctx := {}; let d : Dev := wCtx (wOn ({} : Dev) 0x0C 0) 0x0C n c;
     let d : Dev := { d with asks := Tab.put d.asks id a, hostq := { d.hostq with tags := Tab.put d.hostq.tags (tagKey n 0) t } };
     let s : State := { dev := d };
     s.live = true ∧ s.dev.xferTakes id 0x0A 1 a n t c = true ∧ s.dev.belay.carried = [] ∧
     s.dev.egressGood (xferOf a t c) = true ∧ (s.dev.ctx 0x0C n).isSome = true) ∧
    (let id := 0; let n := 0;
     let a : Ask := { owner := .pitch 0, slot := 0, accel := 0x0A, code := 1, args := [0x20000000, 0x800000000, 0], addr := 0, posted := false };
     let t : Tag := { ctx := 0, qid := 0, cid := 0, ctrl := 0, tenant := 0, sqe := [], state := .running, sglLen := 8 };
     let c : Ctx := {}; let d : Dev := wCtx (wOn ({} : Dev) 0x0C 0) 0x0C n c;
     let d : Dev := { d with asks := Tab.put d.asks id a, hostq := { d.hostq with tags := Tab.put d.hostq.tags (tagKey n 0) t } };
     let s : State := { dev := d };
     s.live = true ∧ s.dev.xferTakes id 0x0A 1 a n t c = true ∧ (s.dev.ctx 0x0C n).isSome = true) ∧
    (let id := 0; let n := 0;
     let a : Ask := { owner := .pitch 0, slot := 0, accel := 0x0A, code := 2, args := [0x20000000, 0x800000000, 0], addr := 0, posted := false };
     let t : Tag := { ctx := 0, qid := 0, cid := 0, ctrl := 0, tenant := 0, sqe := [], state := .running, sglLen := 8 };
     let c : Ctx := {}; let d : Dev := wCtx (wOn ({} : Dev) 0x0C 0) 0x0C n c;
     let d : Dev := { d with asks := Tab.put d.asks id a, hostq := { d.hostq with tags := Tab.put d.hostq.tags (tagKey n 0) t } };
     let s : State := { dev := d };
     s.live = true ∧ s.dev.xferTakes id 0x0A 2 a n t c = true ∧ (s.dev.ctx 0x0C n).isSome = true) ∧
    (let id := 0; let n := 0;
     let a : Ask := { owner := .pitch 0, slot := 0, accel := 0x0B, code := 1, args := [0x20000000, 0x800000000, 0], addr := 0, posted := false };
     let t : Tag := { ctx := 0, qid := 0, cid := 0, ctrl := 0, tenant := 0, sqe := [], state := .running, sglLen := 8 };
     let c : Ctx := {}; let d : Dev := wCtx (wOn ({} : Dev) 0x0D 0) 0x0D n c;
     let d : Dev := { d with asks := Tab.put d.asks id a, hostq := { d.hostq with tags := Tab.put d.hostq.tags (tagKey n 0) t } };
     let s : State := { dev := d };
     s.live = true ∧ s.dev.xferTakes id 0x0B 1 a n t c = true ∧ s.dev.egressGood (xferOf a t c) = true ∧
     (s.dev.ctx 0x0D n).isSome = true ∧ (s.dev.sconn n).hdgst = false) ∧
    (let id := 0; let n := 0;
     let a : Ask := { owner := .pitch 0, slot := 0, accel := 0x0B, code := 1, args := [0x20000000, 0x800000000, 0], addr := 0, posted := false };
     let t : Tag := { ctx := 0, qid := 0, cid := 0, ctrl := 0, tenant := 0, sqe := [], state := .running, sglLen := 8 };
     let c : Ctx := {}; let d : Dev := wCtx (wOn ({} : Dev) 0x0D 0) 0x0D n c;
     let d : Dev := { d with asks := Tab.put d.asks id a, hostq := { d.hostq with tags := Tab.put d.hostq.tags (tagKey n 0) t } };
     let d : Dev := d.setSconn n { d.sconn n with hdgst := true }; let s : State := { dev := d };
     s.live = true ∧ s.dev.xferTakes id 0x0B 1 a n t c = true ∧ s.dev.egressGood (xferOf a t c) = true ∧
     (s.dev.ctx 0x0D n).isSome = true ∧ (s.dev.sconn n).hdgst = true) ∧
    (let id := 0; let n := 0;
     let a : Ask := { owner := .pitch 0, slot := 0, accel := 0x0B, code := 1, args := [0x20000000, 0x800000000, 0], addr := 0, posted := false };
     let t : Tag := { ctx := 0, qid := 0, cid := 0, ctrl := 0, tenant := 0, sqe := [], state := .running, sglLen := 8 };
     let c : Ctx := {}; let d : Dev := wCtx (wOn ({} : Dev) 0x0D 0) 0x0D n c;
     let d : Dev := { d with asks := Tab.put d.asks id a, hostq := { d.hostq with tags := Tab.put d.hostq.tags (tagKey n 0) t } };
     let s : State := { dev := d };
     s.live = true ∧ s.dev.xferTakes id 0x0B 1 a n t c = true ∧ (s.dev.ctx 0x0D n).isSome = true) ∧
    (let id := 0; let n := 0;
     let a : Ask := { owner := .pitch 0, slot := 0, accel := 0x0B, code := 2, args := [0x20000000, 0x800000000, 0], addr := 0, posted := false };
     let t : Tag := { ctx := 0, qid := 0, cid := 0, ctrl := 0, tenant := 0, sqe := [], state := .running, sglLen := 8 };
     let c : Ctx := {}; let d : Dev := wCtx (wOn ({} : Dev) 0x0D 0) 0x0D n c;
     let d : Dev := { d with asks := Tab.put d.asks id a, hostq := { d.hostq with tags := Tab.put d.hostq.tags (tagKey n 0) t } };
     let s : State := { dev := d };
     s.live = true ∧ s.dev.xferTakes id 0x0B 2 a n t c = true ∧ (s.dev.ctx 0x0D n).isSome = true ∧
     (s.dev.sconn n).inCapsule = []) ∧
    (let id := 0;
     let a : Ask := { owner := .pitch 0, slot := 0, accel := 0x0A, code := 1, args := [], addr := 0, posted := false };
     let x : (Nat → Instr) × Nat × Nat := ((fun i => .xportWrite i false), 0x0A, 1); let d : Dev := {};
     let d : Dev := { d with asks := Tab.put d.asks id a }; let s : State := { dev := d };
     s.live = true ∧
     x ∈ [((fun i => Instr.xportWrite i false), 0x0A, 1), (Instr.xportRead, 0x0A, 2), ((fun i => Instr.streamWrite i false), 0x0B, 1), (Instr.streamRead, 0x0B, 2)] ∧
     s.dev.calls id x.2.1 x.2.2 a = true ∧ s.dev.on (x.2.1 + 2) = false) ∧
    (let id := 0;
     let a : Ask := { owner := .pitch 0, slot := 0, accel := 0x0A, code := 1, args := [0x20000000, 0, 0], addr := 0, posted := false, tenant := 1 };
     let c : Ctx := {}; let x : (Nat → Instr) × Nat × Nat := ((fun i => .xportWrite i false), 0x0A, 1);
     let d : Dev := {}; let d : Dev := { d with asks := Tab.put d.asks id a }; let d : Dev := wOn d 0x0C 0;
     let d : Dev := wCtx d 0x0C 0 c; let d : Dev := wOn d 0x0D 0; let d : Dev := wCtx d 0x0D 0 c;
     let s : State := { dev := d };
     s.live = true ∧
     x ∈ [((fun i => Instr.xportWrite i false), 0x0A, 1), (Instr.xportRead, 0x0A, 2), ((fun i => Instr.streamWrite i false), 0x0B, 1), (Instr.streamRead, 0x0B, 2)] ∧
     s.dev.calls id x.2.1 x.2.2 a = true ∧ s.dev.on (x.2.1 + 2) = true ∧ 3 ≤ a.args.length ∧ a.context < 2 ^ 18 ∧
     s.dev.ctxAny (x.2.1 + 2) (bitsOf (a.arg 0) 47 30) = some c ∧ bitOf (a.arg 0) 29 = true ∧ c.tenant ≠ a.tenant ∧
     a.tenant ≠ 0) ∧
    (let id := 0; let n := 0;
     let a : Ask := { owner := .pitch 0, slot := 0, accel := 6, code := 2, args := [0], addr := 0, posted := false };
     let k : KeyGen := ({ gen := 0, key := [] } : KeyGen);
     let b : KeyGen := ({ gen := 0, key := [], used := 3 } : KeyGen); let d : Dev := {};
     let d : Dev := { d with asks := Tab.put d.asks id a }; let d : Dev := wOn d 0x18 0;
     let d : Dev := { d with cipher := { d.cipher with data := [(0, { tenant := 0, nsh := 0, cur := some k, standby := some b })] } };
     let s : State := { dev := d };
     s.live = true ∧ s.dev.calls id 6 2 a = true ∧ s.dev.serves 0x18 = true ∧ a.args ≠ [] ∧ n = bitsOf (a.arg 0) 13 0 ∧
     s.dev.slotAllows a n = true ∧ s.dev.cipher.erases = [] ∧
     s.dev.cipher.seals.all (fun x => decide (x.slot ≠ n)) = true ∧ (s.dev.dslot n).cur = some k ∧
     (s.dev.dslot n).standby = some b ∧ (s.dev.keygenRecord n ((k.gen + 1) % 256) (s.dev.dslot n).nsh).2 = true) := by
  refine ⟨?_, ?_, ?_, ?_, ?_, ?_, ?_, ?_, ?_, ?_, ?_, ?_, ?_, ?_, ?_, ?_, ?_, ?_, ?_, ?_, ?_, ?_, ?_, ?_, ?_, ?_, ?_, ?_, ?_, ?_⟩
  · decide +kernel
  · decide +kernel
  · decide +kernel
  · decide +kernel
  · decide +kernel
  · decide +kernel
  · decide +kernel
  · decide +kernel
  · decide +kernel
  · decide +kernel
  · decide +kernel
  · exact ⟨by decide +kernel, by decide +kernel, by decide +kernel, by decide +kernel, by decide +kernel, by decide +kernel, by rintro _ ⟨⟩⟩
  · decide +kernel
  · decide +kernel
  · decide +kernel
  · exact ⟨by decide +kernel, by decide +kernel, by decide +kernel, by decide +kernel, by decide +kernel, by rintro _ ⟨⟩⟩
  · decide +kernel
  · exact ⟨by decide +kernel, by simp only [List.mem_cons, true_or, or_true], by decide +kernel, by decide +kernel, by decide +kernel⟩
  · decide +kernel
  · exact ⟨by decide +kernel, by simp only [List.mem_cons, true_or, or_true], by decide +kernel, by decide +kernel⟩
  · decide +kernel
  · decide +kernel
  · decide +kernel
  · decide +kernel
  · decide +kernel
  · decide +kernel
  · decide +kernel
  · exact ⟨by decide +kernel, by simp only [List.mem_cons, true_or, or_true], by decide +kernel, by decide +kernel⟩
  · exact ⟨by decide +kernel, by simp only [List.mem_cons, true_or, or_true], by decide +kernel, by decide +kernel, by decide +kernel, by decide +kernel, by decide +kernel, by decide +kernel, by decide +kernel, by decide +kernel⟩
  · decide +kernel

theorem witness_NvmeQueues :
    (let key : Nat := tagKey 0 0;
     let t : Tag := { ctx := 0, qid := 0, cid := 0, ctrl := 0, tenant := 0, sqe := [], remote := none };
     let q : Queue := { ctrl := 0, qid := 0, sqsize := 0, fabric := .rdma }; let d : Dev := {};
     let d : Dev := { d with hostq := { d.hostq with tags := [(tagKey 0 0, t)], queues := [(0, q)] } };
     d.tag key = some t ∧ t.state ≠ .completed ∧ t.remote = none ∧ d.queue t.ctx = some q) ∧
    (let ctx := 0; let sqe : List Word := [2, 0, 0, 0, 0, 0, 0, 0];
     let q : Queue := { ctrl := 0, qid := 0, sqsize := 1, fabric := .rdma };
     let c : Ctrl := { subsys := 0, tenant := 0, maxq := 0, adminCtx := 0 }; let d : Dev := {};
     let d : Dev := { d with hostq := { d.hostq with queues := Tab.put d.hostq.queues ctx q } };
     let d : Dev := { d with hostq := { d.hostq with ctrls := Tab.put d.hostq.ctrls q.ctrl c } };
     let d : Dev := wOn d 0x10 0; let s : State := { dev := d };
     s.live = true ∧ s.dev.queue ctx = some q ∧ s.dev.ctrl q.ctrl = some c ∧ s.dev.on 0x10 = true ∧
     s.dev.quiet = false ∧
     (s.dev.hostq.tags.filter fun t => t.2.ctx = ctx && decide (t.2.state ≠ .completed)).length < q.sqsize + 1 ∧
     s.dev.tag (tagKey ctx (sqeCid sqe)) = none ∧ q.qid = 0 ∧ sqeOpcode sqe ∈ adminOpcodes) ∧
    (let ctx := 0; let sqe : List Word := [2 + 2 ^ 32, 0, 0, 0, 0, 0, 0, 0];
     let q : Queue := { ctrl := 0, qid := 1, sqsize := 1, fabric := .rdma };
     let c : Ctrl := { subsys := 0, tenant := 0, maxq := 0, adminCtx := 0 }; let d : Dev := {};
     let d : Dev := { d with hostq := { d.hostq with queues := Tab.put d.hostq.queues ctx q } };
     let d : Dev := { d with hostq := { d.hostq with ctrls := Tab.put d.hostq.ctrls q.ctrl c } };
     let d : Dev := wOn d 0x10 0;
     let d : Dev := { d with hostq := { d.hostq with nss := [(3, ({ nsid := 1, subsys := 0, tenant := 0, nsze := 0, grade := 0, anagrp := 1, attached := true, pinned := false, keySlot := 0 } : Ns))] } };
     let s : State := { dev := d };
     s.live = true ∧ s.dev.queue ctx = some q ∧ s.dev.ctrl q.ctrl = some c ∧ s.dev.on 0x10 = true ∧
     s.dev.quiet = false ∧
     (s.dev.hostq.tags.filter fun t => t.2.ctx = ctx && decide (t.2.state ≠ .completed)).length < q.sqsize + 1 ∧
     s.dev.tag (tagKey ctx (sqeCid sqe)) = none ∧ q.qid ≠ 0 ∧ sqeOpcode sqe ∈ ioOpcodes ∧
     ((s.dev.nsFor c (sqeNsid sqe)).any fun p => decide (s.dev.anaState p.2.anagrp = .nonOptimized) && !s.dev.ownsGroup p.2.anagrp) = false) ∧
    (let ctx := 0; let h := 0; let sqe : List Word := [2 + 2 ^ 32, 0, 0, 0, 0, 0, 0, 0];
     let q : Queue := { ctrl := 0, qid := 1, sqsize := 1, fabric := .rdma };
     let c : Ctrl := { subsys := 0, tenant := 0, maxq := 0, adminCtx := 0 };
     let n : Ns := { nsid := 1, subsys := 0, tenant := 0, nsze := 0, grade := 0, anagrp := 1, attached := true, pinned := false, keySlot := 0 };
     let d : Dev := {}; let d : Dev := { d with hostq := { d.hostq with queues := Tab.put d.hostq.queues ctx q } };
     let d : Dev := { d with hostq := { d.hostq with ctrls := Tab.put d.hostq.ctrls q.ctrl c } };
     let d : Dev := wOn d 0x10 0; let d : Dev := { d with hostq := { d.hostq with nss := [(h, n)] } };
     let d : Dev := d.fset Reg.HOSTQ_ANA_OWN.UNIT 1;
     let d : Dev := { d with hostq := { d.hostq with ana := [(1, .nonOptimized)] } }; let s : State := { dev := d };
     s.live = true ∧ s.dev.queue ctx = some q ∧ s.dev.ctrl q.ctrl = some c ∧ s.dev.on 0x10 = true ∧
     s.dev.quiet = false ∧
     (s.dev.hostq.tags.filter fun t => t.2.ctx = ctx && decide (t.2.state ≠ .completed)).length < q.sqsize + 1 ∧
     s.dev.tag (tagKey ctx (sqeCid sqe)) = none ∧ q.qid ≠ 0 ∧ sqeOpcode sqe ∈ ioOpcodes ∧
     s.dev.nsFor c (sqeNsid sqe) = some (h, n) ∧ s.dev.anaState n.anagrp = .nonOptimized ∧
     s.dev.groupOwner n.anagrp ≠ s.dev.fget Reg.CAMP_STRAP.UNIT_ID) ∧
    (let ctx := 0; let q : Queue := { ctrl := 0, qid := 0, sqsize := 0, fabric := .rdma };
     let c : Ctrl := { subsys := 0, tenant := 0, maxq := 0, adminCtx := 0 }; let d : Dev := {};
     let d : Dev := { d with hostq := { d.hostq with queues := Tab.put d.hostq.queues ctx q } };
     let d : Dev := { d with hostq := { d.hostq with ctrls := Tab.put d.hostq.ctrls q.ctrl c } };
     let d : Dev := wOn d 0x10 0;
     let d : Dev := { d with hostq := { d.hostq with tags := [(7, ({ ctx := ctx, qid := 0, cid := 0, ctrl := 0, tenant := 0, sqe := [] } : Tag))] } };
     let s : State := { dev := d };
     s.live = true ∧ s.dev.queue ctx = some q ∧ s.dev.ctrl q.ctrl = some c ∧ s.dev.on 0x10 = true ∧
     s.dev.quiet = false ∧
     q.sqsize + 1 ≤ (s.dev.hostq.tags.filter fun t => t.2.ctx = ctx && decide (t.2.state ≠ .completed)).length) ∧
    (let ctx := 0; let sqe : List Word := []; let q : Queue := { ctrl := 0, qid := 0, sqsize := 1, fabric := .rdma };
     let c : Ctrl := { subsys := 0, tenant := 0, maxq := 0, adminCtx := 0 };
     let t : Tag := { ctx := 0, qid := 0, cid := 0, ctrl := 0, tenant := 0, sqe := [] }; let d : Dev := {};
     let d : Dev := { d with hostq := { d.hostq with queues := Tab.put d.hostq.queues ctx q } };
     let d : Dev := { d with hostq := { d.hostq with ctrls := Tab.put d.hostq.ctrls q.ctrl c } };
     let d : Dev := wOn d 0x10 0;
     let d : Dev := { d with hostq := { d.hostq with tags := Tab.put d.hostq.tags (tagKey ctx (sqeCid sqe)) t } };
     let s : State := { dev := d };
     s.live = true ∧ s.dev.queue ctx = some q ∧ s.dev.ctrl q.ctrl = some c ∧ s.dev.on 0x10 = true ∧
     s.dev.quiet = false ∧
     (s.dev.hostq.tags.filter fun t => t.2.ctx = ctx && decide (t.2.state ≠ .completed)).length < q.sqsize + 1 ∧
     s.dev.tag (tagKey ctx (sqeCid sqe)) = some t) ∧
    (let ctx := 0; let sqe : List Word := [3, 0, 0, 0, 0, 0, 0, 0];
     let q : Queue := { ctrl := 0, qid := 1, sqsize := 1, fabric := .rdma };
     let c : Ctrl := { subsys := 0, tenant := 0, maxq := 0, adminCtx := 0 }; let d : Dev := {};
     let d : Dev := { d with hostq := { d.hostq with queues := Tab.put d.hostq.queues ctx q } };
     let d : Dev := { d with hostq := { d.hostq with ctrls := Tab.put d.hostq.ctrls q.ctrl c } };
     let d : Dev := wOn d 0x10 0; let s : State := { dev := d };
     s.live = true ∧ s.dev.queue ctx = some q ∧ s.dev.ctrl q.ctrl = some c ∧ s.dev.on 0x10 = true ∧
     s.dev.quiet = false ∧
     (s.dev.hostq.tags.filter fun t => t.2.ctx = ctx && decide (t.2.state ≠ .completed)).length < q.sqsize + 1 ∧
     s.dev.tag (tagKey ctx (sqeCid sqe)) = none ∧
     (if q.qid = 0 then adminOpcodes.contains (sqeOpcode sqe) else ioOpcodes.contains (sqeOpcode sqe)) = false) ∧
    (let ctx := 0; let s : State := {};
     s.live = true ∧ (s.dev.queue ctx = none ∨ s.dev.on 0x10 = false ∨ s.dev.quiet = true)) ∧
    (let ctx := 0; let cid := 0; let left := 0;
     let o : Done := { ctx := 0, cid := 0, cqe := { sct := 0, sc := 0 }, ofTag := true }; let d : Dev := {};
     let d : Dev := { d with hostq := { d.hostq with outbox := [o] } }; let s : State := { dev := d };
     s.live = true ∧ s.dev.hostq.outbox.find? (fun o => o.ctx = ctx && o.cid = cid) = some o ∧ o.ofTag = true ∧
     s.dev.responseHeld ctx (tagKey ctx cid) = false ∧ (o.deadline = 0 ∨ left ≤ o.deadline)) ∧
    (let ctx := 0; let cid := 0; let left := 2;
     let o : Done := { ctx := 0, cid := 0, cqe := { sct := 0, sc := 0 }, deadline := 1, ofTag := true };
     let d : Dev := {}; let d : Dev := { d with hostq := { d.hostq with outbox := [o] } };
     let s : State := { dev := d };
     s.live = true ∧ s.dev.hostq.outbox.find? (fun o => o.ctx = ctx && o.cid = cid) = some o ∧ o.ofTag = true ∧
     s.dev.responseHeld ctx (tagKey ctx cid) = false ∧ 0 < o.deadline ∧ o.deadline < left ∧ s.dev.hostq.ctrls = []) ∧
    (let ctx := 0; let cid := 0; let left := 2;
     let o : Done := { ctx := 0, cid := 0, cqe := { sct := 0, sc := 0 }, deadline := 1, ofTag := false };
     let d : Dev := {}; let d : Dev := { d with hostq := { d.hostq with outbox := [o] } };
     let s : State := { dev := d };
     s.live = true ∧ s.dev.hostq.outbox.find? (fun o => o.ctx = ctx && o.cid = cid) = some o ∧
     (o.ofTag = false ∨ s.dev.responseHeld ctx (tagKey ctx cid) = false) ∧ 0 < o.deadline ∧ o.deadline < left) ∧
    (let ctx := 0; let cid := 0; let o : Done := { ctx := 0, cid := 0, cqe := { sct := 0, sc := 0 }, ofTag := true };
     let d : Dev := {}; let d : Dev := { d with hostq := { d.hostq with outbox := [o] } };
     let d : Dev := d.setRconn ctx { d.rconn ctx with out := [{ op := .send false, tag := tagKey ctx cid, cmdref := 0 }] };
     let s : State := { dev := d };
     s.live = true ∧ s.dev.hostq.outbox.find? (fun o => o.ctx = ctx && o.cid = cid) = some o ∧ o.ofTag = true ∧
     s.dev.responseHeld ctx (tagKey ctx cid) = true) ∧
    (let ctx := 0; let cid := 0; let s : State := {};
     s.live = true ∧ s.dev.hostq.outbox.find? (fun o => o.ctx = ctx && o.cid = cid) = none) ∧
    (let ctx := 0; let sqsize := 1; let kato := 0; let i : Nat := 0; let host : List Byte := [];
     let sub : List Byte := []; let u : Subsys := { nqn := [], discovery := true }; let d : Dev := {};
     let d : Dev := wOn { d with hostq := { d.hostq with subs := [(i, u)] } } 0x10 0;
     let d : Dev := d.fset Reg.HOSTQ_CFG.MQES 1; let d : Dev := d.fset Reg.HOSTQ_CFG.MAX_CTRL 1;
     let s : State := { dev := d }; let k : Nat := (freeCtrl s.dev.hostq.ctrls s.dev.hostq.ctrls.length 0);
     s.live = true ∧ s.dev.connects ctx host sub i u = true ∧ 1 ≤ sqsize ∧ sqsize ≤ s.dev.fget Reg.HOSTQ_CFG.MQES ∧
     katoBad kato = false ∧ s.dev.hostq.ctrls.length < s.dev.fget Reg.HOSTQ_CFG.MAX_CTRL ∧
     s.dev.fget Reg.HOSTQ_OCC.IOQ < 65535 ∧ k = freeCtrl s.dev.hostq.ctrls s.dev.hostq.ctrls.length 0) ∧
    (let ctx := 0; let sqsize := 1; let kato := 0; let i : Nat := 0; let host : List Byte := [];
     let sub : List Byte := []; let u : Subsys := { nqn := [], discovery := true };
     let e : HostEnt := { hash := Config.shake256 (nqnOf []) 32, subsys := 0, tenant := 7, maxq := 9 };
     let d : Dev := {}; let d : Dev := wOn { d with hostq := { d.hostq with subs := [(i, u)] } } 0x10 0;
     let d : Dev := d.fset Reg.HOSTQ_CFG.MQES 1; let d : Dev := d.fset Reg.HOSTQ_CFG.MAX_CTRL 1;
     let d : Dev := { d with hostq := { d.hostq with hosts := [e] } }; let s : State := { dev := d };
     let k : Nat := (freeCtrl s.dev.hostq.ctrls s.dev.hostq.ctrls.length 0);
     s.live = true ∧ s.dev.connects ctx host sub i u = true ∧
     s.dev.hostq.hosts.find? (fun h => h.hash = Config.shake256 (nqnOf host) 32 && h.subsys = i) = some e ∧
     1 ≤ sqsize ∧ sqsize ≤ s.dev.fget Reg.HOSTQ_CFG.MQES ∧ katoBad kato = false ∧
     s.dev.hostq.ctrls.length < s.dev.fget Reg.HOSTQ_CFG.MAX_CTRL ∧ s.dev.fget Reg.HOSTQ_OCC.IOQ < 65535 ∧
     k = freeCtrl s.dev.hostq.ctrls s.dev.hostq.ctrls.length 0) ∧
    (let ctx := 0; let cntlid := 0; let qid := 1; let sqsize := 1; let i : Nat := 0; let host : List Byte := [];
     let sub : List Byte := []; let u : Subsys := { nqn := [], discovery := true };
     let x : Ctrl := { subsys := i, tenant := 0, maxq := 1, adminCtx := 0, hostHash := Config.shake256 (nqnOf host) 32, resetting := false };
     let d : Dev := {}; let d : Dev := wOn { d with hostq := { d.hostq with subs := [(i, u)] } } 0x10 0;
     let d : Dev := { d with hostq := { d.hostq with ctrls := Tab.put d.hostq.ctrls cntlid x } };
     let d : Dev := d.fset Reg.HOSTQ_CFG.MQES 1; let s : State := { dev := d };
     s.live = true ∧ s.dev.connects ctx host sub i u = true ∧ 1 ≤ sqsize ∧ sqsize ≤ s.dev.fget Reg.HOSTQ_CFG.MQES ∧
     1 ≤ qid ∧ s.dev.ctrl cntlid = some x ∧ x.subsys = i ∧ x.hostHash = Config.shake256 (nqnOf host) 32 ∧
     x.resetting = false ∧ qid ≤ x.maxq ∧
     s.dev.hostq.queues.any (fun q => q.2.ctrl = cntlid && q.2.qid = qid) = false ∧
     s.dev.fget Reg.HOSTQ_OCC.IOQ < 65535) ∧
    (let ctx := 0; let sub : List Byte := []; let d : Dev := wOn ({} : Dev) 0x10 0; let s : State := { dev := d };
     s.live = true ∧ s.dev.on 0x10 = true ∧ s.dev.quiet = false ∧ s.dev.queue ctx = none ∧ s.dev.sanitizing = false ∧
     s.dev.hostq.subs.find? (fun s => nqnOf s.2.nqn = nqnOf sub) = none) ∧
    (let ctx := 0; let i : Nat := 0; let host : List Byte := []; let sub : List Byte := [];
     let u : Subsys := { nqn := [], discovery := false }; let d : Dev := wOn ({} : Dev) 0x10 0;
     let d : Dev := { d with hostq := { d.hostq with subs := [(i, u)] } }; let s : State := { dev := d };
     s.live = true ∧ s.dev.on 0x10 = true ∧ s.dev.quiet = false ∧ s.dev.queue ctx = none ∧ s.dev.sanitizing = false ∧
     s.dev.hostq.subs.find? (fun s => nqnOf s.2.nqn = nqnOf sub) = some (i, u) ∧ u.discovery = false ∧
     s.dev.hostq.hosts.find? (fun h => h.hash = Config.shake256 (nqnOf host) 32 && h.subsys = i) = none) ∧
    (let ctx := 0; let sqsize := 0; let i : Nat := 0; let host : List Byte := []; let sub : List Byte := [];
     let u : Subsys := { nqn := [], discovery := true }; let d : Dev := {};
     let d : Dev := wOn { d with hostq := { d.hostq with subs := [(i, u)] } } 0x10 0; let s : State := { dev := d };
     s.live = true ∧ s.dev.connects ctx host sub i u = true ∧ (sqsize = 0 ∨ s.dev.fget Reg.HOSTQ_CFG.MQES < sqsize)) ∧
    (let ctx := 0; let sqsize := 1; let kato := 4000000; let i : Nat := 0; let host : List Byte := [];
     let sub : List Byte := []; let u : Subsys := { nqn := [], discovery := true }; let d : Dev := {};
     let d : Dev := wOn { d with hostq := { d.hostq with subs := [(i, u)] } } 0x10 0;
     let d : Dev := d.fset Reg.HOSTQ_CFG.MQES 1; let d : Dev := d.fset Reg.HOSTQ_CFG.MAX_CTRL 1;
     let s : State := { dev := d };
     s.live = true ∧ s.dev.connects ctx host sub i u = true ∧ 1 ≤ sqsize ∧ sqsize ≤ s.dev.fget Reg.HOSTQ_CFG.MQES ∧
     katoBad kato = true) ∧
    (let ctx := 0; let sqsize := 1; let kato := 0; let i : Nat := 0; let host : List Byte := [];
     let sub : List Byte := []; let u : Subsys := { nqn := [], discovery := true }; let d : Dev := {};
     let d : Dev := wOn { d with hostq := { d.hostq with subs := [(i, u)] } } 0x10 0;
     let d : Dev := d.fset Reg.HOSTQ_CFG.MQES 1; let s : State := { dev := d };
     s.live = true ∧ s.dev.connects ctx host sub i u = true ∧ 1 ≤ sqsize ∧ sqsize ≤ s.dev.fget Reg.HOSTQ_CFG.MQES ∧
     katoBad kato = false ∧
     (s.dev.fget Reg.HOSTQ_CFG.MAX_CTRL ≤ s.dev.hostq.ctrls.length ∨ 65535 ≤ s.dev.fget Reg.HOSTQ_OCC.IOQ)) ∧
    (let ctx := 0; let cntlid := 0; let qid := 1; let sqsize := 1; let i : Nat := 0; let host : List Byte := [];
     let sub : List Byte := []; let u : Subsys := { nqn := [], discovery := true };
     let x : Ctrl := { subsys := i, tenant := 0, maxq := 0, adminCtx := 0, hostHash := Config.shake256 (nqnOf host) 32, resetting := false };
     let d : Dev := {}; let d : Dev := wOn { d with hostq := { d.hostq with subs := [(i, u)] } } 0x10 0;
     let d : Dev := { d with hostq := { d.hostq with ctrls := Tab.put d.hostq.ctrls cntlid x } };
     let d : Dev := d.fset Reg.HOSTQ_CFG.MQES 1; let s : State := { dev := d };
     s.live = true ∧ s.dev.connects ctx host sub i u = true ∧ 1 ≤ sqsize ∧ sqsize ≤ s.dev.fget Reg.HOSTQ_CFG.MQES ∧
     1 ≤ qid ∧ s.dev.ctrl cntlid = some x ∧ x.subsys = i ∧ x.hostHash = Config.shake256 (nqnOf host) 32 ∧
     x.resetting = false ∧ x.maxq < qid) ∧
    (let ctx := 0; let cntlid := 0; let qid := 1; let sqsize := 1; let i : Nat := 0; let host : List Byte := [];
     let sub : List Byte := []; let u : Subsys := { nqn := [], discovery := true }; let d : Dev := {};
     let d : Dev := wOn { d with hostq := { d.hostq with subs := [(i, u)] } } 0x10 0;
     let d : Dev := d.fset Reg.HOSTQ_CFG.MQES 1; let s : State := { dev := d };
     s.live = true ∧ s.dev.connects ctx host sub i u = true ∧ 1 ≤ sqsize ∧ sqsize ≤ s.dev.fget Reg.HOSTQ_CFG.MQES ∧
     1 ≤ qid ∧ s.dev.ctrl cntlid = none) ∧
    (let ctx := 0; let d : Dev := wOn ({} : Dev) 0x10 0;
     let d : Dev := { d with hostq := { d.hostq with sanitize := some { action := 4, running := true } } };
     let s : State := { dev := d };
     s.live = true ∧ s.dev.on 0x10 = true ∧ s.dev.quiet = false ∧ s.dev.queue ctx = none ∧ s.dev.sanitizing = true) ∧
    (let ctx := 0; let s : State := {};
     s.live = true ∧ (s.dev.on 0x10 = false ∨ s.dev.quiet = true ∨ (s.dev.queue ctx).isSome = true)) ∧
    (let ctx := 0; let cid := 0; let off := 0;
     let t : Tag := { ctx := ctx, qid := 0, cid := cid, ctrl := 1, tenant := 0, sqe := [0x7F + 4 * 2 ^ 32, 0, 0, 0, 0, 0, 0, 0], state := .queued };
     let x : Ctrl := { subsys := 0, tenant := 0, maxq := 0, adminCtx := 0 }; let d : Dev := {};
     let d : Dev := { d with hostq := { d.hostq with tags := Tab.put d.hostq.tags (tagKey ctx cid) t, ctrls := Tab.put d.hostq.ctrls t.ctrl x } };
     let s : State := { dev := d };
     s.live = true ∧ s.dev.adminTakes ctx cid 0x7F t x = true ∧ field (t.sqe.getD 0 0) 39 32 = 4 ∧ off = sqeDw t.sqe 11) ∧
    (let ctx := 0; let cid := 0;
     let t : Tag := { ctx := ctx, qid := 0, cid := cid, ctrl := 1, tenant := 0, sqe := [0x7F, 0, 0, 0, 0, 0x14 * 2 ^ 32, 1, 0], state := .queued };
     let x : Ctrl := { subsys := 0, tenant := 0, maxq := 0, adminCtx := 0, resetting := false }; let d : Dev := {};
     let d : Dev := { d with hostq := { d.hostq with tags := Tab.put d.hostq.tags (tagKey ctx cid) t, ctrls := Tab.put d.hostq.ctrls t.ctrl x } };
     let s : State := { dev := d };
     s.live = true ∧ s.dev.adminTakes ctx cid 0x7F t x = true ∧ field (t.sqe.getD 0 0) 39 32 = 0 ∧
     sqeDw t.sqe 11 = 0x14 ∧ sqeDw t.sqe 12 % 2 = 1 ∧ x.resetting = false) ∧
    (let ctx := 0; let cid := 0;
     let t : Tag := { ctx := ctx, qid := 0, cid := cid, ctrl := 1, tenant := 0, sqe := [0x7F, 0, 0, 0, 0, 0x14 * 2 ^ 32, 0, 0], state := .queued };
     let x : Ctrl := { subsys := 0, tenant := 0, maxq := 0, adminCtx := 0, en := true }; let d : Dev := {};
     let d : Dev := { d with hostq := { d.hostq with tags := Tab.put d.hostq.tags (tagKey ctx cid) t, ctrls := Tab.put d.hostq.ctrls t.ctrl x } };
     let s : State := { dev := d };
     s.live = true ∧ s.dev.adminTakes ctx cid 0x7F t x = true ∧ field (t.sqe.getD 0 0) 39 32 = 0 ∧
     sqeDw t.sqe 11 = 0x14 ∧ sqeDw t.sqe 12 % 2 = 0 ∧ x.en = true) ∧
    (let ctx := 0; let cid := 0;
     let t : Tag := { ctx := ctx, qid := 0, cid := cid, ctrl := 1, tenant := 0, sqe := [0x7F, 0, 0, 0, 0, 0x14 * 2 ^ 32, 0, 0], state := .queued };
     let x : Ctrl := { subsys := 0, tenant := 0, maxq := 0, adminCtx := 0, en := false }; let d : Dev := {};
     let d : Dev := { d with hostq := { d.hostq with tags := Tab.put d.hostq.tags (tagKey ctx cid) t, ctrls := Tab.put d.hostq.ctrls t.ctrl x } };
     let s : State := { dev := d };
     s.live = true ∧ s.dev.adminTakes ctx cid 0x7F t x = true ∧ field (t.sqe.getD 0 0) 39 32 = 0 ∧
     sqeDw t.sqe 11 = 0x14 ∧ sqeDw t.sqe 12 % 2 = 0 ∧ x.en = false) ∧
    (let ctx := 0; let cid := 0;
     let t : Tag := { ctx := ctx, qid := 0, cid := cid, ctrl := 1, tenant := 0, sqe := [0x7F, 0, 0, 0, 0, 0x14 * 2 ^ 32, 1, 0], state := .queued };
     let x : Ctrl := { subsys := 0, tenant := 0, maxq := 0, adminCtx := 0, resetting := true }; let d : Dev := {};
     let d : Dev := { d with hostq := { d.hostq with tags := Tab.put d.hostq.tags (tagKey ctx cid) t, ctrls := Tab.put d.hostq.ctrls t.ctrl x } };
     let s : State := { dev := d };
     s.live = true ∧ s.dev.adminTakes ctx cid 0x7F t x = true ∧ field (t.sqe.getD 0 0) 39 32 = 0 ∧
     (sqeDw t.sqe 11 ≠ 0x14 ∨ (sqeDw t.sqe 12 % 2 = 1 ∧ x.resetting = true))) ∧
    (let ctx := 0; let cid := 0; let k := 1;
     let t : Tag := { ctx := ctx, qid := 0, cid := cid, ctrl := 1, tenant := 0, sqe := [0x7F + 2 ^ 32, 0, 0, 0, 0, 0, 0, 0], state := .queued };
     let x : Ctrl := { subsys := 0, tenant := 0, maxq := 0, adminCtx := 0 };
     let c : Instr := .propertySet (.host ctx cid); let d : Dev := {};
     let d : Dev := { d with hostq := { d.hostq with tags := Tab.put d.hostq.tags (tagKey ctx cid) t, ctrls := Tab.put d.hostq.ctrls t.ctrl x } };
     let s : State := { dev := d };
     s.live = true ∧ s.dev.adminTakes ctx cid 0x7F t x = true ∧
     c ∈ [Instr.propertyGet (.host ctx cid), .propertySet (.host ctx cid)] ∧ k = field (t.sqe.getD 0 0) 39 32 ∧
     k ∉ [0, 4, 8]) ∧
    (let c := 0; let x : Ctrl := { subsys := 0, tenant := 0, maxq := 0, adminCtx := 0 }; let d : Dev := {};
     let d : Dev := { d with hostq := { d.hostq with ctrls := [(c, x)] } };
     d.ctrl c = some x ∧ d.hostq.tags = [] ∧ d.hostq.selfTest = none) ∧
    (let ctx := 0; let cid := 0;
     let t : Tag := { ctx := 0, qid := 0, cid := 0, ctrl := 0, tenant := 0, sqe := [0x7F + 8 * 2 ^ 32, 0, 0, 0, 0, 0, 0, 0] };
     let d : Dev := {};
     let d : Dev := { d with hostq := { d.hostq with tags := Tab.put d.hostq.tags (tagKey ctx cid) t } };
     let s : State := { dev := d };
     s.live = true ∧ s.dev.tag (tagKey ctx cid) = some t ∧ sqeOpcode t.sqe = 0x7F ∧ field (t.sqe.getD 0 0) 39 32 = 8 ∧
     t.state ≠ .completed ∧ s.dev.sanitizing = false) ∧
    (let ctx := 0; let cid := 0;
     let t : Tag := { ctx := 0, qid := 0, cid := 0, ctrl := 0, tenant := 0, sqe := [0x7F + 8 * 2 ^ 32, 0, 0, 0, 0, 0, 0, 0] };
     let d : Dev := {};
     let d : Dev := { d with hostq := { d.hostq with tags := Tab.put d.hostq.tags (tagKey ctx cid) t } };
     let d : Dev := { d with hostq := { d.hostq with sanitize := some { action := 4, running := true } } };
     let s : State := { dev := d };
     s.live = true ∧ s.dev.tag (tagKey ctx cid) = some t ∧ sqeOpcode t.sqe = 0x7F ∧ field (t.sqe.getD 0 0) 39 32 = 8 ∧
     t.state ≠ .completed ∧ s.dev.sanitizing = true) ∧
    (let ctx := 0; let cid := 0; let s : State := {};
     s.live = true ∧
     ((s.dev.tag (tagKey ctx cid)).any fun t => decide (sqeOpcode t.sqe = 0x7F ∧ field (t.sqe.getD 0 0) 39 32 = 8 ∧ t.state ≠ .completed)) = false) ∧
    (let ctx := 0; let q : Queue := { ctrl := 0, qid := 0, sqsize := 0, fabric := .rdma }; let d : Dev := {};
     let d : Dev := { d with hostq := { d.hostq with queues := [(ctx, q)] } };
     d.queue ctx = some q ∧ q.qid = 0) ∧
    (let ctx := 0; let q : Queue := { ctrl := 0, qid := 1, sqsize := 0, fabric := .rdma }; let d : Dev := {};
     let d : Dev := { d with hostq := { d.hostq with queues := [(ctx, q)] } };
     d.queue ctx = some q ∧ q.qid ≠ 0) ∧
    (let c := 0;
     let x : Ctrl := { subsys := 0, tenant := 0, maxq := 0, adminCtx := 0, kato := 0, resetting := false };
     let d : Dev := {}; let d : Dev := { d with hostq := { d.hostq with ctrls := Tab.put d.hostq.ctrls c x } };
     let d : Dev := wOn d 0x10 0; let s : State := { dev := d };
     s.live = true ∧ s.dev.ctrl c = some x ∧ x.katoLast + x.kato * 1000000 ≤ s.dev.now ∧ x.resetting = false ∧
     s.dev.on 0x10 = true) ∧
    (let c := 0; let s : State := {};
     s.live = true ∧
     ((s.dev.ctrl c).any fun x => decide (x.katoLast + x.kato * 1000000 ≤ s.dev.now) && !x.resetting && s.dev.on 0x10) = false) ∧
    (let c := 0;
     let x : Ctrl := { subsys := 0, tenant := 0, maxq := 0, adminCtx := 0, resetting := true, dropping := false };
     let d : Dev := {}; let d : Dev := { d with hostq := { d.hostq with ctrls := Tab.put d.hostq.ctrls c x } };
     let s : State := { dev := d };
     s.live = true ∧ s.dev.ctrl c = some x ∧ x.resetting = true ∧ x.dropping = false ∧
     s.dev.openTags (fun t => decide (t.ctrl = c)) = []) ∧
    (let c := 0;
     let x : Ctrl := { subsys := 0, tenant := 0, maxq := 0, adminCtx := 0, resetting := true, dropping := true };
     let d : Dev := {}; let d : Dev := { d with hostq := { d.hostq with ctrls := Tab.put d.hostq.ctrls c x } };
     let s : State := { dev := d };
     s.live = true ∧ s.dev.ctrl c = some x ∧ x.resetting = true ∧ x.dropping = true ∧
     s.dev.openTags (fun t => decide (t.ctrl = c)) = []) ∧
    (let c := 0; let s : State := {};
     s.live = true ∧
     ((s.dev.ctrl c).any fun x => x.resetting && (s.dev.openTags fun t => decide (t.ctrl = c)).isEmpty) = false) := by
  refine ⟨?_, ?_, ?_, ?_, ?_, ?_, ?_, ?_, ?_, ?_, ?_, ?_, ?_, ?_, ?_, ?_, ?_, ?_, ?_, ?_, ?_, ?_, ?_, ?_, ?_, ?_, ?_, ?_, ?_, ?_, ?_, ?_, ?_, ?_, ?_, ?_, ?_, ?_, ?_, ?_, ?_, ?_⟩
  · decide +kernel
  · decide +kernel
  · decide +kernel
  · decide +kernel
  · decide +kernel
  · decide +kernel
  · decide +kernel
  · decide +kernel
  · decide +kernel
  · decide +kernel
  · decide +kernel
  · decide +kernel
  · decide +kernel
  · decide +kernel
  · exact ⟨by first | decide +kernel | rfl | simp [URec.laddr], by first | decide +kernel | rfl | simp [URec.laddr], List.find?_cons_of_pos (by simp), by first | decide +kernel | rfl | simp [URec.laddr], by first | decide +kernel | rfl | simp [URec.laddr], by first | decide +kernel | rfl | simp [URec.laddr], by first | decide +kernel | rfl | simp [URec.laddr], by first | decide +kernel | rfl | simp [URec.laddr], by first | decide +kernel | rfl | simp [URec.laddr]⟩
  · exact ⟨by first | decide +kernel | rfl | simp [URec.laddr], by first | decide +kernel | rfl | simp [URec.laddr], by first | decide +kernel | rfl | simp [URec.laddr], by first | decide +kernel | rfl | simp [URec.laddr], by first | decide +kernel | rfl | simp [URec.laddr], by first | decide +kernel | rfl | simp [URec.laddr], by first | decide +kernel | rfl | simp [URec.laddr], by first | decide +kernel | rfl | simp [URec.laddr], by first | decide +kernel | rfl | simp [URec.laddr], by first | decide +kernel | rfl | simp [URec.laddr], by first | decide +kernel | rfl | simp [URec.laddr], by first | decide +kernel | rfl | simp [URec.laddr]⟩
  · decide +kernel
  · exact ⟨by first | decide +kernel | rfl | simp [URec.laddr], by first | decide +kernel | rfl | simp [URec.laddr], by first | decide +kernel | rfl | simp [URec.laddr], by first | decide +kernel | rfl | simp [URec.laddr], by first | decide +kernel | rfl | simp [URec.laddr], by first | decide +kernel | rfl | simp [URec.laddr], by first | decide +kernel | rfl | simp [URec.laddr], by first | decide +kernel | rfl | simp [URec.laddr]⟩
  · decide +kernel
  · decide +kernel
  · decide +kernel
  · exact ⟨by first | decide +kernel | rfl | simp [URec.laddr], by first | decide +kernel | rfl | simp [URec.laddr], by first | decide +kernel | rfl | simp [URec.laddr], by first | decide +kernel | rfl | simp [URec.laddr], by first | decide +kernel | rfl | simp [URec.laddr], by first | decide +kernel | rfl | simp [URec.laddr], by first | decide +kernel | rfl | simp [URec.laddr], by first | decide +kernel | rfl | simp [URec.laddr], by first | decide +kernel | rfl | simp [URec.laddr], by first | decide +kernel | rfl | simp [URec.laddr]⟩
  · decide +kernel
  · decide +kernel
  · decide +kernel
  · decide +kernel
  · decide +kernel
  · decide +kernel
  · decide +kernel
  · decide +kernel
  · exact ⟨by decide +kernel, by decide +kernel, by first | decide +kernel | rfl | simp [URec.laddr], by decide +kernel, by decide +kernel⟩
  · decide +kernel
  · decide +kernel
  · decide +kernel
  · decide +kernel
  · decide +kernel
  · decide +kernel
  · decide +kernel
  · decide +kernel
  · decide +kernel
  · decide +kernel
  · decide +kernel

theorem witness_NvmeAdmin :
    (let ctx := 0; let cid := 0; let op : Nat := 0x18; let data : List Byte := [];
     let c : Instr := .keepAlive (.host ctx cid); let s : State := {};
     s.live = true ∧
     (c, op) ∈ [(Instr.getLogPage (.host ctx cid), 2), (.identify (.host ctx cid), 6), (.abort (.host ctx cid), 8), (.setFeatures (.host ctx cid) data, 9), (.getFeatures (.host ctx cid), 0x0A), (.asynchronousEventRequest (.host ctx cid), 0x0C), (.deviceSelfTestShort (.host ctx cid), 0x14), (.deviceSelfTestExtended (.host ctx cid), 0x14), (.deviceSelfTestAbort (.host ctx cid), 0x14), (.keepAlive (.host ctx cid), 0x18), (.propertyGet (.host ctx cid), 0x7F), (.propertySet (.host ctx cid), 0x7F), (.formatNvm (.host ctx cid), 0x80)] ∧
     ((s.dev.tag (tagKey ctx cid)).any fun t => decide (t.qid = 0 ∧ sqeOpcode t.sqe = op ∧ t.state ≠ .completed) && !t.held) = false) ∧
    (let ctx := 0; let cid := 0; let op : Nat := 0x80; let data : List Byte := [];
     let c : Instr := .formatNvm (.host ctx cid);
     let t : Tag := { ctx := 0, qid := 0, cid := 0, ctrl := 0, tenant := 0, sqe := [0x80, 0, 0, 0, 0, 0, 0, 0], held := false };
     let x : Ctrl := { subsys := 0, tenant := 0, maxq := 0, adminCtx := 0 }; let d : Dev := {};
     let d : Dev := { d with hostq := { d.hostq with tags := Tab.put d.hostq.tags (tagKey ctx cid) t } };
     let d : Dev := { d with hostq := { d.hostq with tags := Tab.put d.hostq.tags (tagKey ctx cid) t, ctrls := [(t.ctrl, x)], sanitize := some { action := 4, running := true } } };
     let s : State := { dev := d };
     s.live = true ∧
     (c, op) ∈ [(Instr.setFeatures (.host ctx cid) data, 9), (.asynchronousEventRequest (.host ctx cid), 0x0C), (.deviceSelfTestShort (.host ctx cid), 0x14), (.deviceSelfTestExtended (.host ctx cid), 0x14), (.deviceSelfTestAbort (.host ctx cid), 0x14), (.propertyGet (.host ctx cid), 0x7F), (.propertySet (.host ctx cid), 0x7F), (.formatNvm (.host ctx cid), 0x80)] ∧
     s.dev.tag (tagKey ctx cid) = some t ∧ t.qid = 0 ∧ sqeOpcode t.sqe = op ∧ t.state ≠ .completed ∧ t.held = false ∧
     s.dev.ctrlFor t = some x ∧ s.dev.sanitizing = true) ∧
    (let sqe : List Word := []; let op : Nat := 0x18; let off := 0; let data : List Byte := [];
     let n : NsCmd := .create 0 0 ({ tenant := 0, grade := 0, flags := 0, keySlot := 0, reserved := 0, anagrp := 0, nsze := 0, ncap := 0 });
     let attach : Bool := false; let l : List Nat := []; let c : Instr := .keepAlive (.mgmt sqe);
     let s : State := {};
     s.live = true ∧
     (c, op) ∈ [(Instr.getLogPage (.mgmt sqe), 2), (.identify (.mgmt sqe), 6), (.abort (.mgmt sqe), 8), (.setFeatures (.mgmt sqe) data, 9), (.getFeatures (.mgmt sqe), 0x0A), (.asynchronousEventRequest (.mgmt sqe), 0x0C), (.namespaceManagement (.mgmt sqe) n, 0x0D), (.firmwareCommit (.mgmt sqe), 0x10), (.firmwareImageDownload (.mgmt sqe) off data, 0x11), (.deviceSelfTestShort (.mgmt sqe), 0x14), (.deviceSelfTestExtended (.mgmt sqe), 0x14), (.deviceSelfTestAbort (.mgmt sqe), 0x14), (.namespaceAttachment (.mgmt sqe) off attach l, 0x15), (.keepAlive (.mgmt sqe), 0x18), (.propertyGet (.mgmt sqe), 0x7F), (.propertySet (.mgmt sqe), 0x7F), (.formatNvm (.mgmt sqe), 0x80), (.sanitizeCryptoErase (.mgmt sqe), 0x84), (.sanitizeBlockErase (.mgmt sqe), 0x84)] ∧
     (s.dev.on 0x10 = false ∨ sqeOpcode sqe ≠ op)) ∧
    (let sqe : List Word := [0x80]; let op : Nat := 0x80; let off := 0; let data : List Byte := [];
     let n : NsCmd := .create 0 0 ({ tenant := 0, grade := 0, flags := 0, keySlot := 0, reserved := 0, anagrp := 0, nsze := 0, ncap := 0 });
     let attach : Bool := false; let l : List Nat := []; let c : Instr := .formatNvm (.mgmt sqe);
     let d : Dev := wOn ({} : Dev) 0x10 0;
     let d : Dev := { d with hostq := { d.hostq with sanitize := some { action := 4, running := true } } };
     let s : State := { dev := d };
     s.live = true ∧
     (c, op) ∈ [(Instr.setFeatures (.mgmt sqe) data, 9), (.asynchronousEventRequest (.mgmt sqe), 0x0C), (.namespaceManagement (.mgmt sqe) n, 0x0D), (.firmwareCommit (.mgmt sqe), 0x10), (.firmwareImageDownload (.mgmt sqe) off data, 0x11), (.deviceSelfTestShort (.mgmt sqe), 0x14), (.deviceSelfTestExtended (.mgmt sqe), 0x14), (.deviceSelfTestAbort (.mgmt sqe), 0x14), (.namespaceAttachment (.mgmt sqe) off attach l, 0x15), (.propertyGet (.mgmt sqe), 0x7F), (.propertySet (.mgmt sqe), 0x7F), (.formatNvm (.mgmt sqe), 0x80), (.sanitizeCryptoErase (.mgmt sqe), 0x84), (.sanitizeBlockErase (.mgmt sqe), 0x84)] ∧
     s.dev.on 0x10 = true ∧ sqeOpcode sqe = op ∧ s.dev.sanitizing = true) ∧
    (let ctx := 0; let cid := 0; let lid := 0xC0;
     let t : Tag := { ctx := ctx, qid := 0, cid := cid, ctrl := 1, tenant := 0, sqe := [2, 0, 0, 0, 0, 0x80C0, 0, 0], state := .queued };
     let x : Ctrl := { subsys := 0, tenant := 0, maxq := 0, adminCtx := 0 }; let d : Dev := {};
     let d : Dev := { d with hostq := { d.hostq with tags := Tab.put d.hostq.tags (tagKey ctx cid) t, ctrls := Tab.put d.hostq.ctrls t.ctrl x } };
     let s : State := { dev := d };
     s.live = true ∧ s.dev.adminTakes ctx cid 2 t x = true ∧ lid = sqeDw t.sqe 10 % 256 ∧
     ((lid = 0xC0 ∧ s.dev.meterVisible x.tenant = false) ∨ (lid = 0x70 ∧ x.discovery = false) ∨ lid ∉ [1, 2, 3, 4, 5, 6, 0x0C, 0x70, 0x81, 0xC0])) ∧
    (let ctx := 0; let cid := 0; let len := 4;
     let t : Tag := { ctx := ctx, qid := 0, cid := cid, ctrl := 1, tenant := 0, sqe := [2, 0, 0, 0, 0, 0x80C0, 0, 0], sglLen := 8, state := .queued };
     let x : Ctrl := { subsys := 0, tenant := 0, maxq := 0, adminCtx := 0 }; let d : Dev := {};
     let d : Dev := { d with hostq := { d.hostq with tags := Tab.put d.hostq.tags (tagKey ctx cid) t, ctrls := Tab.put d.hostq.ctrls t.ctrl x } };
     let d : Dev := { d with hostq := { d.hostq with visible := [0] } }; let s : State := { dev := d };
     s.live = true ∧ s.dev.adminTakes ctx cid 2 t x = true ∧ sqeDw t.sqe 10 % 256 = 0xC0 ∧
     s.dev.meterVisible x.tenant = true ∧ bitOf (sqeDw t.sqe 10) 15 = true ∧ sqeDw t.sqe 12 = 0 ∧ sqeDw t.sqe 13 = 0 ∧
     0 < t.sglLen ∧ len = (bitsOf (sqeDw t.sqe 10) 31 16 + (sqeDw t.sqe 11 % 65536) * 65536 + 1) * 4) ∧
    (let ctx := 0; let cid := 0;
     let t : Tag := { ctx := ctx, qid := 0, cid := cid, ctrl := 1, tenant := 0, sqe := [2, 0, 0, 0, 0, 0x80C0, 2, 0], sglLen := 8, state := .queued };
     let x : Ctrl := { subsys := 0, tenant := 0, maxq := 0, adminCtx := 0 }; let d : Dev := {};
     let d : Dev := { d with hostq := { d.hostq with tags := Tab.put d.hostq.tags (tagKey ctx cid) t, ctrls := Tab.put d.hostq.ctrls t.ctrl x } };
     let d : Dev := { d with hostq := { d.hostq with visible := [0] } }; let s : State := { dev := d };
     s.live = true ∧ s.dev.adminTakes ctx cid 2 t x = true ∧ sqeDw t.sqe 10 % 256 = 0xC0 ∧
     s.dev.meterVisible x.tenant = true ∧ (512 < sqeDw t.sqe 12 + sqeDw t.sqe 13 * 2 ^ 32 ∨ sqeDw t.sqe 12 % 4 ≠ 0)) ∧
    (let ctx := 0; let cid := 0;
     let t : Tag := { ctx := ctx, qid := 0, cid := cid, ctrl := 1, tenant := 0, sqe := [2, 0, 0, 0, 0, 0xFF8006, 0, 0], sglLen := 564, state := .queued };
     let x : Ctrl := { subsys := 0, tenant := 0, maxq := 0, adminCtx := 0 }; let d : Dev := {};
     let d : Dev := { d with hostq := { d.hostq with tags := Tab.put d.hostq.tags (tagKey ctx cid) t, ctrls := Tab.put d.hostq.ctrls t.ctrl x } };
     let s : State := { dev := d };
     s.live = true ∧ s.dev.adminTakes ctx cid 2 t x = true ∧ sqeDw t.sqe 10 % 256 = 6 ∧
     bitOf (sqeDw t.sqe 10) 15 = true ∧ sqeDw t.sqe 12 = 0 ∧ sqeDw t.sqe 13 = 0 ∧ 564 ≤ t.sglLen ∧
     564 ≤ (bitsOf (sqeDw t.sqe 10) 31 16 + (sqeDw t.sqe 11 % 65536) * 65536 + 1) * 4) ∧
    (let ctx := 0; let cid := 0;
     let t : Tag := { ctx := ctx, qid := 0, cid := cid, ctrl := 1, tenant := 0, sqe := [2, 0, 0, 0, 0, 0xFF8081, 0, 0], sglLen := 512, state := .queued };
     let x : Ctrl := { subsys := 0, tenant := 0, maxq := 0, adminCtx := 0 }; let d : Dev := {};
     let d : Dev := { d with hostq := { d.hostq with tags := Tab.put d.hostq.tags (tagKey ctx cid) t, ctrls := Tab.put d.hostq.ctrls t.ctrl x } };
     let s : State := { dev := d };
     s.live = true ∧ s.dev.adminTakes ctx cid 2 t x = true ∧ sqeDw t.sqe 10 % 256 = 0x81 ∧
     bitOf (sqeDw t.sqe 10) 15 = true ∧ sqeDw t.sqe 12 = 0 ∧ sqeDw t.sqe 13 = 0 ∧ 8 ≤ t.sglLen ∧
     8 ≤ (bitsOf (sqeDw t.sqe 10) 31 16 + (sqeDw t.sqe 11 % 65536) * 65536 + 1) * 4 ∧ s.dev.sanitizing = false) ∧
    (let ctx := 0; let cid := 0; let len := 1024;
     let t : Tag := { ctx := ctx, qid := 0, cid := cid, ctrl := 1, tenant := 0, sqe := [2, 0, 0, 0, 0, 0xFF0004, 0, 0], sglLen := 512, state := .queued };
     let x : Ctrl := { subsys := 0, tenant := 0, maxq := 0, adminCtx := 0 }; let d : Dev := {};
     let d : Dev := { d with hostq := { d.hostq with tags := Tab.put d.hostq.tags (tagKey ctx cid) t, ctrls := Tab.put d.hostq.ctrls t.ctrl x } };
     let s : State := { dev := d };
     s.live = true ∧ s.dev.adminTakes ctx cid 2 t x = true ∧ sqeDw t.sqe 10 % 256 = 4 ∧
     bitOf (sqeDw t.sqe 10) 15 = false ∧ sqeDw t.sqe 12 = 0 ∧ sqeDw t.sqe 13 = 0 ∧ 0 < t.sglLen ∧
     len = (bitsOf (sqeDw t.sqe 10) 31 16 + (sqeDw t.sqe 11 % 65536) * 65536 + 1) * 4) ∧
    (let sqe : List Word := [2, 0, 0, 0, 0, 0xC0, 0, 0]; let d : Dev := wOn ({} : Dev) 0x10 0;
     let s : State := { dev := d };
     s.live = true ∧ s.dev.mgmtTakes sqe 2 = true ∧ sqeDw (padWords 8 sqe) 10 % 256 ∈ [0x70, 0xC0]) ∧
    (let ctx := 0; let cid := 0;
     let t : Tag := { ctx := ctx, qid := 0, cid := cid, ctrl := 1, tenant := 0, sqe := [6, 0, 0, 0, 0, 5, 0, 0], state := .queued };
     let x : Ctrl := { subsys := 0, tenant := 0, maxq := 0, adminCtx := 0 }; let d : Dev := {};
     let d : Dev := { d with hostq := { d.hostq with tags := Tab.put d.hostq.tags (tagKey ctx cid) t, ctrls := Tab.put d.hostq.ctrls t.ctrl x } };
     let s : State := { dev := d };
     s.live = true ∧ s.dev.adminTakes ctx cid 6 t x = true ∧ sqeDw t.sqe 10 % 256 ∉ [0, 1, 2, 3, 8, 0x1C]) ∧
    (let ctx := 0; let cid := 0;
     let t : Tag := { ctx := ctx, qid := 0, cid := cid, ctrl := 1, tenant := 0, sqe := [6, 0, 0, 0, 0, 1, 0, 0], sglLen := 8, state := .queued };
     let x : Ctrl := { subsys := 0, tenant := 0, maxq := 0, adminCtx := 0 }; let d : Dev := {};
     let d : Dev := { d with hostq := { d.hostq with tags := Tab.put d.hostq.tags (tagKey ctx cid) t, ctrls := Tab.put d.hostq.ctrls t.ctrl x } };
     let s : State := { dev := d };
     s.live = true ∧ s.dev.adminTakes ctx cid 6 t x = true ∧ sqeDw t.sqe 10 % 256 = 1 ∧ 0 < t.sglLen) ∧
    (let ctx := 0; let cid := 0; let h := 0;
     let t : Tag := { ctx := ctx, qid := 0, cid := cid, ctrl := 1, tenant := 0, sqe := [6 + 2 ^ 32, 0, 0, 0, 0, 0, 0, 0], sglLen := 4096, state := .queued };
     let x : Ctrl := { subsys := 0, tenant := 0, maxq := 0, adminCtx := 0 };
     let n : Ns := { nsid := 1, subsys := 0, tenant := 0, nsze := 99, grade := 0, anagrp := 7, attached := true, pinned := false, keySlot := 0 };
     let d : Dev := {};
     let d : Dev := { d with hostq := { d.hostq with tags := Tab.put d.hostq.tags (tagKey ctx cid) t, ctrls := Tab.put d.hostq.ctrls t.ctrl x } };
     let d : Dev := { d with hostq := { d.hostq with nss := [(h, n)] } }; let s : State := { dev := d };
     s.live = true ∧ s.dev.adminTakes ctx cid 6 t x = true ∧ sqeDw t.sqe 10 % 256 = 0 ∧ 0 < t.sglLen ∧
     (s.dev.hostq.nss.filter fun p => x.sees p.2).find? (fun p => p.2.nsid = sqeNsid t.sqe) = some (h, n)) ∧
    (let ctx := 0; let cid := 0;
     let t : Tag := { ctx := ctx, qid := 0, cid := cid, ctrl := 1, tenant := 0, sqe := [6, 0, 0, 0, 0, 0, 0, 0], sglLen := 4096, state := .queued };
     let x : Ctrl := { subsys := 0, tenant := 0, maxq := 0, adminCtx := 0 }; let d : Dev := {};
     let d : Dev := { d with hostq := { d.hostq with tags := Tab.put d.hostq.tags (tagKey ctx cid) t, ctrls := Tab.put d.hostq.ctrls t.ctrl x } };
     let s : State := { dev := d };
     s.live = true ∧ s.dev.adminTakes ctx cid 6 t x = true ∧ sqeDw t.sqe 10 % 256 ∈ [0, 3, 8] ∧ 0 < t.sglLen ∧
     (s.dev.hostq.nss.filter fun p => x.sees p.2).find? (fun p => p.2.nsid = sqeNsid t.sqe) = none) ∧
    (let ctx := 0; let cid := 0;
     let t : Tag := { ctx := ctx, qid := 0, cid := cid, ctrl := 1, tenant := 0, sqe := [8, 0, 0, 0, 0, 1, 0, 0], state := .queued };
     let x : Ctrl := { subsys := 0, tenant := 0, maxq := 0, adminCtx := 0 }; let d : Dev := {};
     let d : Dev := { d with hostq := { d.hostq with tags := Tab.put d.hostq.tags (tagKey ctx cid) t, ctrls := Tab.put d.hostq.ctrls t.ctrl x } };
     let s : State := { dev := d };
     s.live = true ∧ s.dev.adminTakes ctx cid 8 t x = true ∧
     ((s.dev.began ctx cid).openTags fun u => decide (u.ctrl = t.ctrl ∧ u.qid = 0 ∧ sqeOpcode u.sqe = 8)).length ≤ 4 ∧
     (s.dev.began ctx cid).hostq.tags.find? (fun p => p.2.ctrl = t.ctrl && p.2.qid = sqeDw t.sqe 10 % 65536 && p.2.cid = sqeDw t.sqe 10 / 65536) = none) ∧
    (let ctx := 0; let cid := 0; let key : Nat := tagKey 5 2;
     let t : Tag := { ctx := ctx, qid := 0, cid := cid, ctrl := 1, tenant := 0, sqe := [8, 0, 0, 0, 0, 0x20001, 0, 0], state := .queued };
     let u : Tag := { ctx := 5, qid := 1, cid := 2, ctrl := 1, tenant := 0, sqe := [], state := .queued };
     let x : Ctrl := { subsys := 0, tenant := 0, maxq := 0, adminCtx := 0 }; let d : Dev := {};
     let d : Dev := { d with hostq := { d.hostq with tags := Tab.put d.hostq.tags (tagKey ctx cid) t, ctrls := Tab.put d.hostq.ctrls t.ctrl x } };
     let d : Dev := { d with hostq := { d.hostq with tags := Tab.put d.hostq.tags (tagKey 5 2) u } };
     let s : State := { dev := d };
     s.live = true ∧ s.dev.adminTakes ctx cid 8 t x = true ∧
     ((s.dev.began ctx cid).openTags fun u => decide (u.ctrl = t.ctrl ∧ u.qid = 0 ∧ sqeOpcode u.sqe = 8)).length ≤ 4 ∧
     (s.dev.began ctx cid).hostq.tags.find? (fun p => p.2.ctrl = t.ctrl && p.2.qid = sqeDw t.sqe 10 % 65536 && p.2.cid = sqeDw t.sqe 10 / 65536) = some (key, u) ∧
     u.state = .queued) ∧
    (let ctx := 0; let cid := 0; let key : Nat := tagKey 5 2;
     let t : Tag := { ctx := ctx, qid := 0, cid := cid, ctrl := 1, tenant := 0, sqe := [8, 0, 0, 0, 0, 0x20001, 0, 0], state := .queued };
     let u : Tag := { ctx := 5, qid := 1, cid := 2, ctrl := 1, tenant := 0, sqe := [], state := .running, forwarded := false };
     let x : Ctrl := { subsys := 0, tenant := 0, maxq := 0, adminCtx := 0 }; let d : Dev := {};
     let d : Dev := { d with hostq := { d.hostq with tags := Tab.put d.hostq.tags (tagKey ctx cid) t, ctrls := Tab.put d.hostq.ctrls t.ctrl x } };
     let d : Dev := { d with hostq := { d.hostq with tags := Tab.put d.hostq.tags (tagKey 5 2) u } };
     let s : State := { dev := d };
     s.live = true ∧ s.dev.adminTakes ctx cid 8 t x = true ∧
     ((s.dev.began ctx cid).openTags fun u => decide (u.ctrl = t.ctrl ∧ u.qid = 0 ∧ sqeOpcode u.sqe = 8)).length ≤ 4 ∧
     (s.dev.began ctx cid).hostq.tags.find? (fun p => p.2.ctrl = t.ctrl && p.2.qid = sqeDw t.sqe 10 % 65536 && p.2.cid = sqeDw t.sqe 10 / 65536) = some (key, u) ∧
     u.state = .running ∧ u.qid ≠ 0 ∧ u.forwarded = false) ∧
    (let ctx := 0; let cid := 0; let key : Nat := tagKey 5 2;
     let t : Tag := { ctx := ctx, qid := 0, cid := cid, ctrl := 1, tenant := 0, sqe := [8, 0, 0, 0, 0, 0x20001, 0, 0], state := .queued };
     let u : Tag := { ctx := 5, qid := 1, cid := 2, ctrl := 1, tenant := 0, sqe := [], state := .running, forwarded := true, abortBy := none };
     let x : Ctrl := { subsys := 0, tenant := 0, maxq := 0, adminCtx := 0 }; let d : Dev := {};
     let d : Dev := { d with hostq := { d.hostq with tags := Tab.put d.hostq.tags (tagKey ctx cid) t, ctrls := Tab.put d.hostq.ctrls t.ctrl x } };
     let d : Dev := { d with hostq := { d.hostq with tags := Tab.put d.hostq.tags (tagKey 5 2) u } };
     let s : State := { dev := d };
     s.live = true ∧ s.dev.adminTakes ctx cid 8 t x = true ∧
     ((s.dev.began ctx cid).openTags fun u => decide (u.ctrl = t.ctrl ∧ u.qid = 0 ∧ sqeOpcode u.sqe = 8)).length ≤ 4 ∧
     (s.dev.began ctx cid).hostq.tags.find? (fun p => p.2.ctrl = t.ctrl && p.2.qid = sqeDw t.sqe 10 % 65536 && p.2.cid = sqeDw t.sqe 10 / 65536) = some (key, u) ∧
     u.state = .running ∧ u.forwarded = true ∧ u.abortBy = none) ∧
    (let ctx := 0; let cid := 0; let key : Nat := tagKey 5 2;
     let t : Tag := { ctx := ctx, qid := 0, cid := cid, ctrl := 1, tenant := 0, sqe := [8, 0, 0, 0, 0, 0x20001, 0, 0], state := .queued };
     let u : Tag := { ctx := 5, qid := 1, cid := 2, ctrl := 1, tenant := 0, sqe := [], state := .committed };
     let x : Ctrl := { subsys := 0, tenant := 0, maxq := 0, adminCtx := 0 }; let d : Dev := {};
     let d : Dev := { d with hostq := { d.hostq with tags := Tab.put d.hostq.tags (tagKey ctx cid) t, ctrls := Tab.put d.hostq.ctrls t.ctrl x } };
     let d : Dev := { d with hostq := { d.hostq with tags := Tab.put d.hostq.tags (tagKey 5 2) u } };
     let s : State := { dev := d };
     s.live = true ∧ s.dev.adminTakes ctx cid 8 t x = true ∧
     ((s.dev.began ctx cid).openTags fun u => decide (u.ctrl = t.ctrl ∧ u.qid = 0 ∧ sqeOpcode u.sqe = 8)).length ≤ 4 ∧
     (s.dev.began ctx cid).hostq.tags.find? (fun p => p.2.ctrl = t.ctrl && p.2.qid = sqeDw t.sqe 10 % 65536 && p.2.cid = sqeDw t.sqe 10 / 65536) = some (key, u) ∧
     (u.state = .committed ∨ u.state = .completed)) ∧
    (let ctx := 0; let cid := 0;
     let t : Tag := { ctx := ctx, qid := 0, cid := cid, ctrl := 1, tenant := 0, sqe := [8, 0, 0, 0, 0, 0, 0, 0], state := .queued };
     let x : Ctrl := { subsys := 0, tenant := 0, maxq := 0, adminCtx := 0 }; let d : Dev := {};
     let d : Dev := { d with hostq := { d.hostq with tags := Tab.put d.hostq.tags (tagKey ctx cid) t, ctrls := Tab.put d.hostq.ctrls t.ctrl x } };
     let d : Dev := { d with hostq := { d.hostq with tags := (List.range 5).map fun i => (tagKey ctx i, { t with cid := i }) } }
     let s : State := { dev := d };
     s.live = true ∧ s.dev.adminTakes ctx cid 8 t x = true ∧
     4 < ((s.dev.began ctx cid).openTags fun u => decide (u.ctrl = t.ctrl ∧ u.qid = 0 ∧ sqeOpcode u.sqe = 8)).length) ∧
    (let sqe : List Word := [8]; let d : Dev := wOn ({} : Dev) 0x10 0; let s : State := { dev := d };
     s.live = true ∧ s.dev.mgmtTakes sqe 8 = true) ∧
    (let ctx := 0; let cid := 0; let v := 0;
     let t : Tag := { ctx := ctx, qid := 0, cid := cid, ctrl := 1, tenant := 0, sqe := [9, 0, 0, 0, 0, 0, 0, 0], state := .queued };
     let x : Ctrl := { subsys := 0, tenant := 0, maxq := 0, adminCtx := 0 }; let d : Dev := {};
     let d : Dev := { d with hostq := { d.hostq with tags := Tab.put d.hostq.tags (tagKey ctx cid) t, ctrls := Tab.put d.hostq.ctrls t.ctrl x } };
     let s : State := { dev := d };
     s.live = true ∧ s.dev.adminTakes ctx cid 9 t x = true ∧ bitOf (sqeDw t.sqe 10) 31 = false ∧ v = sqeDw t.sqe 11) ∧
    (let ctx := 0; let cid := 0;
     let t : Tag := { ctx := ctx, qid := 0, cid := cid, ctrl := 1, tenant := 0, sqe := [9, 0, 0, 0, 0, 2 ^ 31, 0, 0], state := .queued };
     let x : Ctrl := { subsys := 0, tenant := 0, maxq := 0, adminCtx := 0 }; let d : Dev := {};
     let d : Dev := { d with hostq := { d.hostq with tags := Tab.put d.hostq.tags (tagKey ctx cid) t, ctrls := Tab.put d.hostq.ctrls t.ctrl x } };
     let s : State := { dev := d };
     s.live = true ∧ s.dev.adminTakes ctx cid 9 t x = true ∧ bitOf (sqeDw t.sqe 10) 31 = true) ∧
    (let sqe : List Word := [9, 0, 0, 0, 0, 2 + 2 ^ 32, 0, 0]; let v := 1; let d : Dev := wOn ({} : Dev) 0x10 0;
     let s : State := { dev := d };
     s.live = true ∧ s.dev.mgmtTakes sqe 9 = true ∧ bitOf (sqeDw (padWords 8 sqe) 10) 31 = false ∧
     sqeDw (padWords 8 sqe) 10 % 256 = 2 ∧ v = sqeDw (padWords 8 sqe) 11 % 32 ∧ v ≤ 3) ∧
    (let ctx := 0; let cid := 0; let f := 2;
     let t : Tag := { ctx := ctx, qid := 0, cid := cid, ctrl := 1, tenant := 0, sqe := [10, 0, 0, 0, 0, 2, 0, 0], state := .queued };
     let x : Ctrl := { subsys := 0, tenant := 0, maxq := 0, adminCtx := 0 }; let d : Dev := {};
     let d : Dev := { d with hostq := { d.hostq with tags := Tab.put d.hostq.tags (tagKey ctx cid) t, ctrls := Tab.put d.hostq.ctrls t.ctrl x } };
     let s : State := { dev := d };
     s.live = true ∧ s.dev.adminTakes ctx cid 0x0A t x = true ∧ f = sqeDw t.sqe 10 % 256 ∧ f ∈ [2, 4, 7, 0x0B, 0x0F]) ∧
    (let ctx := 0; let cid := 0; let f := 3;
     let t : Tag := { ctx := ctx, qid := 0, cid := cid, ctrl := 1, tenant := 0, sqe := [10, 0, 0, 0, 0, 3, 0, 0], state := .queued };
     let x : Ctrl := { subsys := 0, tenant := 0, maxq := 0, adminCtx := 0 }; let d : Dev := {};
     let d : Dev := { d with hostq := { d.hostq with tags := Tab.put d.hostq.tags (tagKey ctx cid) t, ctrls := Tab.put d.hostq.ctrls t.ctrl x } };
     let s : State := { dev := d };
     s.live = true ∧ s.dev.adminTakes ctx cid 0x0A t x = true ∧ f = sqeDw t.sqe 10 % 256 ∧
     f ∉ [2, 4, 7, 0x0B, 0x0C, 0x0F, 0x81]) ∧
    (let sqe : List Word := [10, 0, 0, 0, 0, 2, 0, 0]; let d : Dev := wOn ({} : Dev) 0x10 0;
     let s : State := { dev := d };
     s.live = true ∧ s.dev.mgmtTakes sqe 0x0A = true ∧ sqeDw (padWords 8 sqe) 10 % 256 = 2) ∧
    (let ctx := 0; let cid := 0;
     let t : Tag := { ctx := ctx, qid := 0, cid := cid, ctrl := 1, tenant := 0, sqe := [0x0C, 0, 0, 0, 0, 0, 0, 0], state := .queued };
     let x : Ctrl := { subsys := 0, tenant := 0, maxq := 0, adminCtx := 0 }; let d : Dev := {};
     let d : Dev := { d with hostq := { d.hostq with tags := Tab.put d.hostq.tags (tagKey ctx cid) t, ctrls := Tab.put d.hostq.ctrls t.ctrl x } };
     let s : State := { dev := d };
     s.live = true ∧ s.dev.adminTakes ctx cid 0x0C t x = true ∧ x.aers.length < 4 ∧
     x.events.find? (fun e => bitOf x.aec (aecBit e)) = none) ∧
    (let ctx := 0; let cid := 0;
     let t : Tag := { ctx := ctx, qid := 0, cid := cid, ctrl := 1, tenant := 0, sqe := [0x0C, 0, 0, 0, 0, 0, 0, 0], state := .queued };
     let e : AsyncEv := { typ := 1, info := 1, page := 2 };
     let x : Ctrl := { subsys := 0, tenant := 0, maxq := 0, adminCtx := ctx, events := [e], aec := 2, aers := [] };
     let d : Dev := {};
     let d : Dev := { d with hostq := { d.hostq with tags := Tab.put d.hostq.tags (tagKey ctx cid) t, ctrls := Tab.put d.hostq.ctrls t.ctrl x } };
     let s : State := { dev := d };
     s.live = true ∧ s.dev.adminTakes ctx cid 0x0C t x = true ∧ x.aers = [] ∧
     x.events.find? (fun e => bitOf x.aec (aecBit e)) = some e ∧ x.adminCtx = ctx) ∧
    (let ctx := 0; let cid := 0;
     let t : Tag := { ctx := ctx, qid := 0, cid := cid, ctrl := 1, tenant := 0, sqe := [0x0C, 0, 0, 0, 0, 0, 0, 0], state := .queued };
     let x : Ctrl := { subsys := 0, tenant := 0, maxq := 0, adminCtx := 0, aers := [1, 2, 3, 4] }; let d : Dev := {};
     let d : Dev := { d with hostq := { d.hostq with tags := Tab.put d.hostq.tags (tagKey ctx cid) t, ctrls := Tab.put d.hostq.ctrls t.ctrl x } };
     let s : State := { dev := d };
     s.live = true ∧ s.dev.adminTakes ctx cid 0x0C t x = true ∧ 4 ≤ x.aers.length) ∧
    (let sqe : List Word := [0x0C]; let d : Dev := wOn ({} : Dev) 0x10 0; let s : State := { dev := d };
     s.live = true ∧ s.dev.mgmtTakes sqe 0x0C = true) ∧
    (let ctx := 0; let cid := 0; let e : Bool := false;
     let t : Tag := { ctx := ctx, qid := 0, cid := cid, ctrl := 1, tenant := 0, sqe := [0x14, 0, 0, 0, 0, 1, 0, 0], state := .queued };
     let x : Ctrl := { subsys := 0, tenant := 0, maxq := 0, adminCtx := 0 }; let d : Dev := {};
     let d : Dev := { d with hostq := { d.hostq with tags := Tab.put d.hostq.tags (tagKey ctx cid) t, ctrls := Tab.put d.hostq.ctrls t.ctrl x } };
     let s : State := { dev := d };
     s.live = true ∧ s.dev.adminTakes ctx cid 0x14 t x = true ∧ sqeDw t.sqe 10 % 16 = (if e then 2 else 1) ∧
     (sqeNsid t.sqe = 0 ∨ sqeNsid t.sqe = 0xFFFFFFFF) ∧ s.dev.hostq.selfTest = none) ∧
    (let ctx := 0; let cid := 0; let e : Bool := false;
     let t : Tag := { ctx := ctx, qid := 0, cid := cid, ctrl := 1, tenant := 0, sqe := [0x14, 0, 0, 0, 0, 1, 0, 0], state := .queued };
     let x : Ctrl := { subsys := 0, tenant := 0, maxq := 0, adminCtx := 0 }; let d : Dev := {};
     let d : Dev := { d with hostq := { d.hostq with tags := Tab.put d.hostq.tags (tagKey ctx cid) t, ctrls := Tab.put d.hostq.ctrls t.ctrl x } };
     let d : Dev := { d with hostq := { d.hostq with selfTest := some ({ ctrl := 0, extended := false } : SelfTest) } };
     let s : State := { dev := d };
     s.live = true ∧ s.dev.adminTakes ctx cid 0x14 t x = true ∧ sqeDw t.sqe 10 % 16 = (if e then 2 else 1) ∧
     sqeNsid t.sqe = 0 ∧ s.dev.hostq.selfTest.isSome = true) ∧
    (let sqe : List Word := [0x14, 0, 0, 0, 0, 1, 0, 0]; let e : Bool := false; let d : Dev := wOn ({} : Dev) 0x10 0;
     let s : State := { dev := d };
     s.live = true ∧ s.dev.mgmtTakes sqe 0x14 = true ∧ sqeDw (padWords 8 sqe) 10 % 16 = (if e then 2 else 1) ∧
     sqeNsid (padWords 8 sqe) = 0 ∧ s.dev.hostq.selfTest = none) ∧
    (let ctx := 0; let cid := 0; let k := 3; let c : Instr := .deviceSelfTestShort (.host ctx cid);
     let t : Tag := { ctx := ctx, qid := 0, cid := cid, ctrl := 1, tenant := 0, sqe := [0x14, 0, 0, 0, 0, 3, 0, 0], state := .queued };
     let x : Ctrl := { subsys := 0, tenant := 0, maxq := 0, adminCtx := 0 }; let d : Dev := {};
     let d : Dev := { d with hostq := { d.hostq with tags := Tab.put d.hostq.tags (tagKey ctx cid) t, ctrls := Tab.put d.hostq.ctrls t.ctrl x } };
     let s : State := { dev := d };
     s.live = true ∧
     c ∈ [Instr.deviceSelfTestShort (.host ctx cid), .deviceSelfTestExtended (.host ctx cid), .deviceSelfTestAbort (.host ctx cid)] ∧
     s.dev.adminTakes ctx cid 0x14 t x = true ∧ k = sqeDw t.sqe 10 % 16 ∧ k ∉ [1, 2, 15]) ∧
    (let ctx := 0; let cid := 0;
     let t : Tag := { ctx := ctx, qid := 0, cid := cid, ctrl := 1, tenant := 0, sqe := [0x14, 0, 0, 0, 0, 15, 0, 0], state := .queued };
     let x : Ctrl := { subsys := 0, tenant := 0, maxq := 0, adminCtx := 0 }; let d : Dev := {};
     let d : Dev := { d with hostq := { d.hostq with tags := Tab.put d.hostq.tags (tagKey ctx cid) t, ctrls := Tab.put d.hostq.ctrls t.ctrl x } };
     let s : State := { dev := d };
     s.live = true ∧ s.dev.adminTakes ctx cid 0x14 t x = true ∧ sqeDw t.sqe 10 % 16 = 15) ∧
    (let x : SelfTest := { ctrl := 0, extended := false }; let d : Dev := {};
     let d : Dev := { d with hostq := { d.hostq with selfTest := some x } }; let s : State := { dev := d };
     s.live = true ∧ s.dev.hostq.selfTest = some x) ∧
    (let s : State := {};
     s.live = true ∧ s.dev.hostq.selfTest = none) ∧
    (let ctx := 0; let cid := 0;
     let t : Tag := { ctx := ctx, qid := 0, cid := cid, ctrl := 1, tenant := 0, sqe := [0x18, 0, 0, 0, 0, 0, 0, 0], state := .queued };
     let x : Ctrl := { subsys := 0, tenant := 0, maxq := 0, adminCtx := 0 }; let d : Dev := {};
     let d : Dev := { d with hostq := { d.hostq with tags := Tab.put d.hostq.tags (tagKey ctx cid) t, ctrls := Tab.put d.hostq.ctrls t.ctrl x } };
     let s : State := { dev := d };
     s.live = true ∧ s.dev.adminTakes ctx cid 0x18 t x = true) ∧
    (let sqe : List Word := [0x18]; let d : Dev := wOn ({} : Dev) 0x10 0; let s : State := { dev := d };
     s.live = true ∧ s.dev.mgmtTakes sqe 0x18 = true) ∧
    (let ctx := 0; let cid := 0; let h := 0;
     let t : Tag := { ctx := ctx, qid := 0, cid := cid, ctrl := 1, tenant := 0, sqe := [0x80 + 2 ^ 32, 0, 0, 0, 0, 0, 0, 0], state := .queued };
     let x : Ctrl := { subsys := 0, tenant := 0, maxq := 0, adminCtx := 0 };
     let n : Ns := { nsid := 1, subsys := 0, tenant := 0, nsze := 0, grade := 0, anagrp := 1, attached := true, pinned := false, keySlot := 0 };
     let d : Dev := {};
     let d : Dev := { d with hostq := { d.hostq with tags := Tab.put d.hostq.tags (tagKey ctx cid) t, ctrls := Tab.put d.hostq.ctrls t.ctrl x } };
     let d : Dev := { d with hostq := { d.hostq with nss := [(h, n)] } }; let s : State := { dev := d };
     s.live = true ∧ s.dev.adminTakes ctx cid 0x80 t x = true ∧ s.dev.hostq.nss = [(h, n)] ∧ n.nsid = sqeNsid t.sqe ∧
     x.sees n = true ∧ sqeNsid t.sqe ≠ 0xFFFFFFFF ∧ s.dev.anaFails n.anagrp = none ∧ s.dev.ownsGroup n.anagrp = true ∧
     sqeDw t.sqe 10 = 0 ∧ s.dev.rope.locks = []) ∧
    (let ctx := 0; let cid := 0; let h := 0; let ses := 0;
     let t : Tag := { ctx := ctx, qid := 0, cid := cid, ctrl := 1, tenant := 0, sqe := [0x80 + 2 ^ 32, 0, 0, 0, 0, 0, 0, 0], state := .queued };
     let x : Ctrl := { subsys := 0, tenant := 0, maxq := 0, adminCtx := 0 };
     let n : Ns := { nsid := 1, subsys := 0, tenant := 0, nsze := 0, grade := 0, anagrp := 1, attached := true, pinned := false, keySlot := 0 };
     let d : Dev := {};
     let d : Dev := { d with hostq := { d.hostq with tags := Tab.put d.hostq.tags (tagKey ctx cid) t, ctrls := Tab.put d.hostq.ctrls t.ctrl x } };
     let d : Dev := { d with hostq := { d.hostq with nss := [(h, n)] } }; let s : State := { dev := d };
     s.live = true ∧ s.dev.adminTakes ctx cid 0x80 t x = true ∧ sqeNsid t.sqe ≠ 0xFFFFFFFF ∧
     (s.dev.hostq.nss.filter fun p => x.sees p.2).find? (fun p => p.2.nsid = sqeNsid t.sqe) = some (h, n) ∧
     sqeDw t.sqe 10 % 256 = 0 ∧ ses = bitsOf (sqeDw t.sqe 10) 11 9 ∧ ses ≤ 2 ∧ s.dev.anaFails n.anagrp = none ∧
     s.dev.ownsGroup n.anagrp = true) ∧
    (let ctx := 0; let cid := 0; let h := 0;
     let t : Tag := { ctx := ctx, qid := 0, cid := cid, ctrl := 1, tenant := 0, sqe := [0x80 + 2 ^ 32, 0, 0, 0, 0, 1, 0, 0], state := .queued };
     let x : Ctrl := { subsys := 0, tenant := 0, maxq := 0, adminCtx := 0 };
     let n : Ns := { nsid := 1, subsys := 0, tenant := 0, nsze := 0, grade := 0, anagrp := 1, attached := true, pinned := false, keySlot := 0 };
     let d : Dev := {};
     let d : Dev := { d with hostq := { d.hostq with tags := Tab.put d.hostq.tags (tagKey ctx cid) t, ctrls := Tab.put d.hostq.ctrls t.ctrl x } };
     let d : Dev := { d with hostq := { d.hostq with nss := [(h, n)] } }; let s : State := { dev := d };
     s.live = true ∧ s.dev.adminTakes ctx cid 0x80 t x = true ∧ sqeNsid t.sqe ≠ 0xFFFFFFFF ∧
     (s.dev.hostq.nss.filter fun p => x.sees p.2).find? (fun p => p.2.nsid = sqeNsid t.sqe) = some (h, n) ∧
     (sqeDw t.sqe 10 % 256 ≠ 0 ∨ 2 < bitsOf (sqeDw t.sqe 10) 11 9)) ∧
    (let ctx := 0; let cid := 0; let h := 0;
     let t : Tag := { ctx := ctx, qid := 0, cid := cid, ctrl := 1, tenant := 0, sqe := [0x80 + 2 ^ 32, 0, 0, 0, 0, 0, 0, 0], state := .queued };
     let x : Ctrl := { subsys := 0, tenant := 0, maxq := 0, adminCtx := 0 };
     let n : Ns := { nsid := 1, subsys := 0, tenant := 0, nsze := 0, grade := 0, anagrp := 1, attached := true, pinned := false, keySlot := 0 };
     let d : Dev := {};
     let d : Dev := { d with hostq := { d.hostq with tags := Tab.put d.hostq.tags (tagKey ctx cid) t, ctrls := Tab.put d.hostq.ctrls t.ctrl x } };
     let d : Dev := { d with hostq := { d.hostq with nss := [(h, n)] } };
     let d : Dev := d.fset Reg.HOSTQ_ANA_OWN.UNIT 1;
     let d : Dev := { d with hostq := { d.hostq with ana := [(1, .nonOptimized)] } }; let s : State := { dev := d };
     s.live = true ∧ s.dev.adminTakes ctx cid 0x80 t x = true ∧ sqeNsid t.sqe ≠ 0xFFFFFFFF ∧
     (s.dev.hostq.nss.filter fun p => x.sees p.2).find? (fun p => p.2.nsid = sqeNsid t.sqe) = some (h, n) ∧
     sqeDw t.sqe 10 % 256 = 0 ∧ bitsOf (sqeDw t.sqe 10) 11 9 ≤ 2 ∧ s.dev.anaFails n.anagrp = none ∧
     s.dev.ownsGroup n.anagrp = false) ∧
    (let ctx := 0; let cid := 0;
     let t : Tag := { ctx := ctx, qid := 0, cid := cid, ctrl := 1, tenant := 0, sqe := [0x80 + 0xFFFFFFFF * 2 ^ 32, 0, 0, 0, 0, 0, 0, 0], state := .queued };
     let x : Ctrl := { subsys := 0, tenant := 0, maxq := 0, adminCtx := 0 }; let d : Dev := {};
     let d : Dev := { d with hostq := { d.hostq with tags := Tab.put d.hostq.tags (tagKey ctx cid) t, ctrls := Tab.put d.hostq.ctrls t.ctrl x } };
     let s : State := { dev := d };
     s.live = true ∧ s.dev.adminTakes ctx cid 0x80 t x = true ∧ sqeNsid t.sqe = 0xFFFFFFFF) ∧
    (let sqe : List Word := [0x11]; let d : Dev := wOn ({} : Dev) 0x10 0; let s : State := { dev := d };
     s.live = true ∧ s.dev.on 0x10 = true ∧ sqeOpcode sqe = 0x11 ∧ s.dev.sanitizing = false) ∧
    (let sqe : List Word := [0x10, 0, 0, 0, 0, 17]; let n := 1; let d : Dev := wOn ({} : Dev) 0x10 0;
     let d : Dev := { d with hostq := { d.hostq with fw := { d.hostq.fw with slots := [(1, ({ program := [], warden := [] } : Bundle))] } } };
     let s : State := { dev := d };
     s.live = true ∧ s.dev.on 0x10 = true ∧ sqeOpcode sqe = 0x10 ∧ s.dev.sanitizing = false ∧
     n = bitsOf (sqeDw (padWords 8 sqe) 10) 2 0 ∧ 1 ≤ n ∧ n ≤ 2 ∧ bitsOf (sqeDw (padWords 8 sqe) 10) 5 3 = 2 ∧
     (Tab.look s.dev.hostq.fw.slots n).isSome = true) ∧
    (let sqe : List Word := [0x10, 0, 0, 0, 0, 1]; let n := 1; let act := 0; let d : Dev := wOn ({} : Dev) 0x10 0;
     let s : State := { dev := d };
     s.live = true ∧ s.dev.on 0x10 = true ∧ sqeOpcode sqe = 0x10 ∧ s.dev.sanitizing = false ∧
     n = bitsOf (sqeDw (padWords 8 sqe) 10) 2 0 ∧ 1 ≤ n ∧ n ≤ 2 ∧ act = bitsOf (sqeDw (padWords 8 sqe) 10) 5 3 ∧
     act ∈ [0, 1, 3]) ∧
    (let sqe : List Word := [0x10, 0, 0, 0, 0, 3]; let d : Dev := wOn ({} : Dev) 0x10 0;
     let s : State := { dev := d };
     s.live = true ∧ s.dev.on 0x10 = true ∧ sqeOpcode sqe = 0x10 ∧ s.dev.sanitizing = false ∧
     (2 < bitsOf (sqeDw (padWords 8 sqe) 10) 2 0 ∨ 3 < bitsOf (sqeDw (padWords 8 sqe) 10) 5 3)) ∧
    (let sqe : List Word := [0x84, 0, 0, 0, 0, 4]; let d : Dev := wOn ({} : Dev) 0x10 0;
     let s : State := { dev := d };
     s.live = true ∧ s.dev.on 0x10 = true ∧ sqeOpcode sqe = 0x84 ∧ s.dev.sanitizing = false ∧
     sqeDw (padWords 8 sqe) 10 % 8 = 4 ∧ s.dev.hostq.nss = [] ∧ s.dev.rope.locks = []) ∧
    (let sqe : List Word := [0x84, 0, 0, 0, 0, 2]; let d : Dev := wOn ({} : Dev) 0x10 0;
     let s : State := { dev := d };
     s.live = true ∧ s.dev.on 0x10 = true ∧ sqeOpcode sqe = 0x84 ∧ s.dev.sanitizing = false ∧
     sqeDw (padWords 8 sqe) 10 % 8 = 2 ∧ s.dev.hostq.nss = [] ∧ s.dev.rope.locks = []) ∧
    (let sqe : List Word := [0x84, 0, 0, 0, 0, 4]; let d : Dev := wOn ({} : Dev) 0x10 0;
     let s : State := { dev := d };
     s.live = true ∧ s.dev.mgmtTakes sqe 0x84 = true ∧ sqeDw (padWords 8 sqe) 10 % 8 = 4) ∧
    (let sqe : List Word := [0x84, 0, 0, 0, 0, 2]; let d : Dev := wOn ({} : Dev) 0x10 0;
     let s : State := { dev := d };
     s.live = true ∧ s.dev.mgmtTakes sqe 0x84 = true ∧ sqeDw (padWords 8 sqe) 10 % 8 = 2) ∧
    (let sqe : List Word := [0x84, 0, 0, 0, 0, 3]; let c : Instr := .sanitizeCryptoErase (.mgmt sqe);
     let d : Dev := wOn ({} : Dev) 0x10 0; let s : State := { dev := d };
     s.live = true ∧ s.dev.mgmtTakes sqe 0x84 = true ∧
     c ∈ [Instr.sanitizeCryptoErase (.mgmt sqe), .sanitizeBlockErase (.mgmt sqe)] ∧
     sqeDw (padWords 8 sqe) 10 % 8 ∉ [2, 4]) := by
  refine ⟨?_, ?_, ?_, ?_, ?_, ?_, ?_, ?_, ?_, ?_, ?_, ?_, ?_, ?_, ?_, ?_, ?_, ?_, ?_, ?_, ?_, ?_, ?_, ?_, ?_, ?_, ?_, ?_, ?_, ?_, ?_, ?_, ?_, ?_, ?_, ?_, ?_, ?_, ?_, ?_, ?_, ?_, ?_, ?_, ?_, ?_, ?_, ?_, ?_, ?_, ?_, ?_, ?_, ?_, ?_⟩
  · exact ⟨by decide +kernel, by first | decide +kernel | rfl | simp [URec.laddr], by decide +kernel⟩
  · exact ⟨by decide +kernel, by first | decide +kernel | rfl | simp [URec.laddr], by decide +kernel, by decide +kernel, by decide +kernel, by decide +kernel, by decide +kernel, by decide +kernel, by decide +kernel⟩
  · exact ⟨by decide +kernel, by first | decide +kernel | rfl | simp [URec.laddr], by decide +kernel⟩
  · exact ⟨by decide +kernel, by first | decide +kernel | rfl | simp [URec.laddr], by decide +kernel, by decide +kernel, by decide +kernel⟩
  · decide +kernel
  · decide +kernel
  · decide +kernel
  · decide +kernel
  · decide +kernel
  · decide +kernel
  · decide +kernel
  · decide +kernel
  · decide +kernel
  · decide +kernel
  · decide +kernel
  · decide +kernel
  · decide +kernel
  · decide +kernel
  · decide +kernel
  · decide +kernel
  · decide +kernel
  · decide +kernel
  · decide +kernel
  · decide +kernel
  · decide +kernel
  · decide +kernel
  · decide +kernel
  · decide +kernel
  · decide +kernel
  · decide +kernel
  · decide +kernel
  · decide +kernel
  · decide +kernel
  · decide +kernel
  · decide +kernel
  · exact ⟨by decide +kernel, by first | decide +kernel | rfl | simp [URec.laddr], by decide +kernel, by decide +kernel, by decide +kernel⟩
  · decide +kernel
  · decide +kernel
  · decide +kernel
  · decide +kernel
  · decide +kernel
  · decide +kernel
  · decide +kernel
  · decide +kernel
  · decide +kernel
  · decide +kernel
  · decide +kernel
  · decide +kernel
  · decide +kernel
  · decide +kernel
  · decide +kernel
  · decide +kernel
  · decide +kernel
  · decide +kernel
  · exact ⟨by decide +kernel, by decide +kernel, by first | decide +kernel | rfl | simp [URec.laddr], by decide +kernel⟩

theorem witness_NvmeIo :
    (let ctx := 0; let cid := 0; let h := 0; let op : Nat := 2; let c : Instr := .read ctx cid;
     let t : Tag := { ctx := ctx, qid := 1, cid := cid, ctrl := 1, tenant := 0, sqe := [op + 2 ^ 32, 0, 0, 0, 0, 0, 0, 0], sglLen := 4096, state := .queued };
     let x : Ctrl := { subsys := 0, tenant := 0, maxq := 0, adminCtx := 0 };
     let n : Ns := { nsid := 1, subsys := 0, tenant := 0, nsze := 1, grade := 0, anagrp := 1, attached := true, pinned := false, keySlot := 0, formatting := false };
     let d : Dev := {};
     let d : Dev := { d with hostq := { d.hostq with tags := Tab.put d.hostq.tags (tagKey ctx cid) t, ctrls := Tab.put d.hostq.ctrls t.ctrl x, nss := Tab.put d.hostq.nss h n } };
     let s : State := { dev := d };
     s.live = true ∧ (c, op) ∈ [(Instr.write ctx cid, 1), (.read ctx cid, 2)] ∧
     s.dev.ioTakes ctx cid op t x h n = true ∧ sqeNlb t.sqe ≤ 255 ∧ sqeSlba t.sqe + sqeNlb t.sqe < n.nsze ∧
     (sqeNlb t.sqe + 1) * 4096 ≤ t.sglLen ∧ n.formatting = false ∧
     (op = 1 → s.dev.dstate n.keySlot ≠ 0 ∧ s.dev.dstate n.keySlot ≠ 3)) ∧
    (let ctx := 0; let cid := 0; let h := 0;
     let t : Tag := { ctx := ctx, qid := 1, cid := cid, ctrl := 1, tenant := 0, sqe := [8 + 2 ^ 32, 0, 0, 0, 0, 0, 0, 0], state := .queued };
     let x : Ctrl := { subsys := 0, tenant := 0, maxq := 0, adminCtx := 0 };
     let n : Ns := { nsid := 1, subsys := 0, tenant := 0, nsze := 1, grade := 0, anagrp := 1, attached := true, pinned := false, keySlot := 0, formatting := false };
     let d : Dev := {};
     let d : Dev := { d with hostq := { d.hostq with tags := Tab.put d.hostq.tags (tagKey ctx cid) t, ctrls := Tab.put d.hostq.ctrls t.ctrl x, nss := Tab.put d.hostq.nss h n } };
     let d : Dev := { d with cipher := { d.cipher with data := [(0, { tenant := 0, nsh := 0, cur := some ({ gen := 0, key := [] } : KeyGen) })] } };
     let d : Dev := d.fset Reg.CPH_XTS_LIMIT.SOFT_LOG2 38; let d : Dev := d.fset Reg.CPH_XTS_LIMIT.HARD_LOG2 39;
     let s : State := { dev := d };
     s.live = true ∧ s.dev.ioTakes ctx cid 8 t x h n = true ∧ sqeSlba t.sqe + sqeNlb t.sqe < n.nsze ∧
     n.formatting = false ∧ s.dev.dstate n.keySlot ≠ 0 ∧ s.dev.dstate n.keySlot ≠ 3) ∧
    (let ctx := 0; let cid := 0; let h := 0; let op : Nat := 2; let c : Instr := .read ctx cid;
     let t : Tag := { ctx := ctx, qid := 1, cid := cid, ctrl := 1, tenant := 0, sqe := [op + 2 ^ 32, 0, 0, 0, 0, 0, 0, 0], sglLen := 4096, state := .queued };
     let x : Ctrl := { subsys := 0, tenant := 0, maxq := 0, adminCtx := 0 };
     let n : Ns := { nsid := 1, subsys := 0, tenant := 0, nsze := 1, grade := 0, anagrp := 1, attached := true, pinned := false, keySlot := 0 };
     let d : Dev := {};
     let d : Dev := { d with hostq := { d.hostq with tags := Tab.put d.hostq.tags (tagKey ctx cid) t, ctrls := Tab.put d.hostq.ctrls t.ctrl x, nss := Tab.put d.hostq.nss h n } };
     let s : State := { dev := d };
     s.live = true ∧ (c, op) ∈ [(Instr.write ctx cid, 1), (.read ctx cid, 2), (.writeZeroes ctx cid, 8)] ∧
     s.dev.ioTakes ctx cid op t x h n = true) ∧
    (let ctx := 0; let cid := 0; let h := 0;
     let t : Tag := { ctx := ctx, qid := 1, cid := cid, ctrl := 1, tenant := 0, sqe := [9 + 2 ^ 32, 0, 0, 0, 0, 4 * 2 ^ 32, 0, 0], sglLen := 16, state := .queued };
     let x : Ctrl := { subsys := 0, tenant := 0, maxq := 0, adminCtx := 0 };
     let n : Ns := { nsid := 1, subsys := 0, tenant := 0, nsze := 1, grade := 0, anagrp := 1, attached := true, pinned := false, keySlot := 0, formatting := false };
     let ranges : List (Nat × Nat) := [(0, 1)]; let rs : List (Nat × Nat) := [(0, 1)]; let d : Dev := {};
     let d : Dev := { d with hostq := { d.hostq with tags := Tab.put d.hostq.tags (tagKey ctx cid) t, ctrls := Tab.put d.hostq.ctrls t.ctrl x, nss := Tab.put d.hostq.nss h n } };
     let s : State := { dev := d };
     s.live = true ∧ s.dev.ioTakes ctx cid 9 t x h n = true ∧ 16 * (sqeDw t.sqe 10 % 256 + 1) ≤ t.sglLen ∧
     rs = (ranges.take (sqeDw t.sqe 10 % 256 + 1)).filter (fun r => decide (0 < r.2)) ∧ rs ≠ [] ∧
     rs.all (fun r => decide (r.1 + r.2 ≤ n.nsze)) = true ∧ n.formatting = false ∧ bitOf (sqeDw t.sqe 11) 2 = true) ∧
    (let ctx := 0; let cid := 0; let h := 0;
     let t : Tag := { ctx := ctx, qid := 1, cid := cid, ctrl := 1, tenant := 0, sqe := [9 + 2 ^ 32, 0, 0, 0, 0, 0, 0, 0], state := .queued };
     let x : Ctrl := { subsys := 0, tenant := 0, maxq := 0, adminCtx := 0 };
     let n : Ns := { nsid := 1, subsys := 0, tenant := 0, nsze := 0, grade := 0, anagrp := 1, attached := true, pinned := false, keySlot := 0 };
     let ranges : List (Nat × Nat) := []; let rs : List (Nat × Nat) := []; let d : Dev := {};
     let d : Dev := { d with hostq := { d.hostq with tags := Tab.put d.hostq.tags (tagKey ctx cid) t, ctrls := Tab.put d.hostq.ctrls t.ctrl x, nss := Tab.put d.hostq.nss h n } };
     let s : State := { dev := d };
     s.live = true ∧ s.dev.ioTakes ctx cid 9 t x h n = true ∧
     rs = (ranges.take (sqeDw t.sqe 10 % 256 + 1)).filter (fun r => decide (0 < r.2)) ∧
     (bitOf (sqeDw t.sqe 11) 2 = false ∨ rs = [] ∨ n.formatting = true ∨ rs.all (fun r => decide (r.1 + r.2 ≤ n.nsze)) = false ∨ t.sglLen < 16 * (sqeDw t.sqe 10 % 256 + 1))) ∧
    (let ctx := 0; let cid := 0; let op : Nat := 0; let ranges : List (Nat × Nat) := [];
     let c : Instr := .flush ctx cid;
     let t : Tag := { ctx := ctx, qid := 1, cid := cid, ctrl := 1, tenant := 0, sqe := [op + 2 ^ 32, 0, 0, 0, 0, 0, 0, 0], state := .queued };
     let x : Ctrl := { subsys := 0, tenant := 0, maxq := 0, adminCtx := 0 }; let d : Dev := {};
     let d : Dev := { d with hostq := { d.hostq with tags := Tab.put d.hostq.tags (tagKey ctx cid) t, ctrls := Tab.put d.hostq.ctrls t.ctrl x } };
     let s : State := { dev := d };
     s.live = true ∧
     (c, op) ∈ [(Instr.write ctx cid, 1), (.read ctx cid, 2), (.writeZeroes ctx cid, 8), (.flush ctx cid, 0), (.datasetManagement ctx cid ranges, 9)] ∧
     s.dev.ioOpen ctx cid op t x = true ∧
     (s.dev.sanitizing = true ∨ ((op ≠ 0 ∨ sqeNsid t.sqe ≠ 0xFFFFFFFF) ∧ s.dev.nsFor x (sqeNsid t.sqe) = none))) ∧
    (let ctx := 0; let cid := 0; let op : Nat := 0; let h := 0; let ranges : List (Nat × Nat) := [];
     let c : Instr := .flush ctx cid;
     let t : Tag := { ctx := ctx, qid := 1, cid := cid, ctrl := 1, tenant := 0, sqe := [op + 2 ^ 32, 0, 0, 0, 0, 0, 0, 0], state := .queued };
     let x : Ctrl := { subsys := 0, tenant := 0, maxq := 0, adminCtx := 0 };
     let n : Ns := { nsid := 1, subsys := 0, tenant := 0, nsze := 0, grade := 0, anagrp := 0, attached := true, pinned := false, keySlot := 0 };
     let e : Cqe := { sct := 3, sc := 1 }; let d : Dev := {};
     let d : Dev := { d with hostq := { d.hostq with tags := Tab.put d.hostq.tags (tagKey ctx cid) t, ctrls := Tab.put d.hostq.ctrls t.ctrl x } };
     let d : Dev := { d with hostq := { d.hostq with nss := [(h, n)] } };
     let d : Dev := { d with hostq := { d.hostq with ana := [(0, .persistentLoss)] } };
     let s : State := { dev := d };
     s.live = true ∧
     (c, op) ∈ [(Instr.write ctx cid, 1), (.read ctx cid, 2), (.writeZeroes ctx cid, 8), (.flush ctx cid, 0), (.datasetManagement ctx cid ranges, 9)] ∧
     s.dev.ioOpen ctx cid op t x = true ∧ s.dev.sanitizing = false ∧ s.dev.nsFor x (sqeNsid t.sqe) = some (h, n) ∧
     s.dev.anaFails n.anagrp = some e) ∧
    (let ctx := 0; let cid := 0; let op : Nat := 0; let ranges : List (Nat × Nat) := [];
     let c : Instr := .flush ctx cid; let s : State := {};
     s.live = true ∧
     (c, op) ∈ [(Instr.write ctx cid, 1), (.read ctx cid, 2), (.writeZeroes ctx cid, 8), (.flush ctx cid, 0), (.datasetManagement ctx cid ranges, 9)] ∧
     ((s.dev.tag (tagKey ctx cid)).any fun t => decide (t.qid ≠ 0 ∧ sqeOpcode t.sqe = op) && !t.checked && decide (t.state = .queued ∨ t.state = .running) && !s.dev.handing t) = false) ∧
    (let ctx := 0; let cid := 0; let r := 1;
     let t : Tag := { ctx := ctx, qid := 1, cid := cid, ctrl := 1, tenant := 0, sqe := [0 + 2 ^ 32, 0, 0, 0, 0, 0, 0, 0], state := .queued, rope := 0 };
     let x : Ctrl := { subsys := 0, tenant := 0, maxq := 0, adminCtx := 0 }; let nss : List Nat := [4];
     let far : Bool := false; let d : Dev := {};
     let d : Dev := { d with hostq := { d.hostq with tags := Tab.put d.hostq.tags (tagKey ctx cid) t, ctrls := Tab.put d.hostq.ctrls t.ctrl x } };
     let d : Dev := d.fset Reg.ROPE_NEXT.ROPE 1;
     let d : Dev := { d with hostq := { d.hostq with nss := [(4, ({ nsid := 1, subsys := 0, tenant := 0, nsze := 8, grade := 0, anagrp := 1, attached := true, pinned := false, keySlot := 0 } : Ns))] } };
     let s : State := { dev := d };
     s.live = true ∧ s.dev.ioOpen ctx cid 0 t x = true ∧ s.dev.sanitizing = false ∧
     (sqeNsid t.sqe = 0xFFFFFFFF ∨ (s.dev.nsFor x (sqeNsid t.sqe)).isSome = true) ∧
     ((s.dev.nsFor x (sqeNsid t.sqe)).bind fun p => s.dev.anaFails p.2.anagrp) = none ∧ t.rope = 0 ∧
     s.dev.rope.locks.all (fun p => decide (tagKey p.2.ctx p.2.cmdref ≠ tagKey ctx cid)) = true ∧
     r = s.dev.fget Reg.ROPE_NEXT.ROPE ∧ 0 < r ∧ nss = (s.dev.flushNss x (sqeNsid t.sqe)).1 ∧
     far = (decide (sqeNsid t.sqe = 0xFFFFFFFF) && (s.dev.flushNss x (sqeNsid t.sqe)).2 && t.remote.isNone)) ∧
    (let ctx := 0; let cid := 0; let ks : List Nat := []; let d : Dev := {};
     let d : Dev := { d with hostq := { d.hostq with flushes := Tab.put d.hostq.flushes (tagKey ctx cid) ks } };
     let d : Dev := { d with hostq := { d.hostq with flushes := [(tagKey ctx cid, ks)] } };
     let s : State := { dev := d };
     s.live = true ∧ Tab.look s.dev.hostq.flushes (tagKey ctx cid) = some ks ∧
     ks.all (fun k => (s.dev.tag k).all fun u => decide (u.state ≠ .committed)) = true ∧
     (s.dev.tag (tagKey ctx cid)).any (·.far) = false) ∧
    (let ctx := 0; let cid := 0; let d : Dev := {};
     let d : Dev := { d with hostq := { d.hostq with flushes := [(tagKey ctx cid, [3])] } };
     let d : Dev := { d with hostq := { d.hostq with tags := [(3, ({ ctx := 0, qid := 0, cid := 0, ctrl := 0, tenant := 0, sqe := [], state := .committed } : Tag))] } };
     let s : State := { dev := d };
     s.live = true ∧
     ((Tab.look s.dev.hostq.flushes (tagKey ctx cid)).any fun ks => ks.all fun k => (s.dev.tag k).all fun u => decide (u.state ≠ .committed)) = false ∨ (s.dev.tag (tagKey ctx cid)).any (·.far) = true) := by
  refine ⟨?_, ?_, ?_, ?_, ?_, ?_, ?_, ?_, ?_, ?_, ?_⟩
  · exact ⟨by decide +kernel, by first | decide +kernel | rfl | simp [URec.laddr], by decide +kernel, by decide +kernel, by decide +kernel, by decide +kernel, by decide +kernel, by decide +kernel⟩
  · decide +kernel
  · exact ⟨by decide +kernel, by first | decide +kernel | rfl | simp [URec.laddr], by decide +kernel⟩
  · decide +kernel
  · decide +kernel
  · exact ⟨by decide +kernel, by first | decide +kernel | rfl | simp [URec.laddr], by decide +kernel, by decide +kernel⟩
  · exact ⟨by decide +kernel, by first | decide +kernel | rfl | simp [URec.laddr], by decide +kernel, by decide +kernel, by decide +kernel, by decide +kernel⟩
  · exact ⟨by decide +kernel, by first | decide +kernel | rfl | simp [URec.laddr], by decide +kernel⟩
  · decide +kernel
  · decide +kernel
  · decide +kernel

theorem witness_NvmeNamespaces :
    (let sqe : List Word := [0x0D]; let h := 0;
     let c : NsCreate := ({ tenant := 1, grade := 4, flags := 0, keySlot := 0, reserved := 0, anagrp := 1, nsze := 1, ncap := 1 } : NsCreate);
     let d : Dev := wOn ({} : Dev) 0x10 0; let d : Dev := d.fset Reg.MAP_CAP.BLOCKS 1; let s : State := { dev := d };
     s.live = true ∧ s.dev.mgmtTakes sqe 0x0D = true ∧ sqeDw (padWords 8 sqe) 10 % 16 = 0 ∧
     s.dev.createCheck c = none ∧ s.dev.hostq.nss = [] ∧ h ≤ 16383) ∧
    (let sqe : List Word := [0x0D]; let h := 0;
     let c : NsCreate := ({ tenant := 1, grade := 4, flags := 0, keySlot := 0, reserved := 0, anagrp := 1, nsze := 1, ncap := 1 } : NsCreate);
     let d : Dev := wOn ({} : Dev) 0x10 0; let d : Dev := d.fset Reg.MAP_CAP.BLOCKS 1; let s : State := { dev := d };
     s.live = true ∧ s.dev.mgmtTakes sqe 0x0D = true ∧ sqeDw (padWords 8 sqe) 10 % 16 = 0 ∧
     s.dev.createCheck c = none ∧ Tab.look s.dev.hostq.nss h = none ∧ h ≤ 16383) ∧
    (let sqe : List Word := [0x0D];
     let c : NsCreate := { tenant := 0, grade := 0, flags := 0, keySlot := 0, reserved := 0, anagrp := 0, nsze := 0, ncap := 0 };
     let e : Cqe := { sct := 0, sc := 2 }; let d : Dev := wOn ({} : Dev) 0x10 0; let s : State := { dev := d };
     s.live = true ∧ s.dev.mgmtTakes sqe 0x0D = true ∧ sqeDw (padWords 8 sqe) 10 % 16 = 0 ∧
     s.dev.createCheck c = some e) ∧
    (let sqe : List Word := [0x0D]; let h := 20000;
     let c : NsCreate := ({ tenant := 1, grade := 4, flags := 0, keySlot := 0, reserved := 0, anagrp := 1, nsze := 1, ncap := 1 } : NsCreate);
     let d : Dev := wOn ({} : Dev) 0x10 0; let d : Dev := d.fset Reg.MAP_CAP.BLOCKS 1; let s : State := { dev := d };
     s.live = true ∧ s.dev.mgmtTakes sqe 0x0D = true ∧ sqeDw (padWords 8 sqe) 10 % 16 = 0 ∧
     s.dev.createCheck c = none ∧ ((Tab.look s.dev.hostq.nss h).isSome = true ∨ 16383 < h)) ∧
    (let sqe : List Word := [0x0D, 0, 0, 0, 0, 1]; let h := 0;
     let n : Ns := { nsid := 0, subsys := 0, tenant := 0, nsze := 0, grade := 0, anagrp := 0, attached := false, pinned := false, keySlot := 0 };
     let d : Dev := wOn ({} : Dev) 0x10 0;
     let d : Dev := { d with hostq := { d.hostq with nss := Tab.put d.hostq.nss h n } };
     let s : State := { dev := d };
     s.live = true ∧ s.dev.mgmtTakes sqe 0x0D = true ∧ sqeDw (padWords 8 sqe) 10 % 16 = 1 ∧
     Tab.look s.dev.hostq.nss h = some n ∧ n.attached = false) ∧
    (let sqe : List Word := [0x0D, 0, 0, 0, 0, 1]; let h := 0;
     let n : Ns := { nsid := 0, subsys := 0, tenant := 0, nsze := 0, grade := 0, anagrp := 0, attached := true, pinned := false, keySlot := 0 };
     let d : Dev := wOn ({} : Dev) 0x10 0;
     let d : Dev := { d with hostq := { d.hostq with nss := Tab.put d.hostq.nss h n } };
     let s : State := { dev := d };
     s.live = true ∧ s.dev.mgmtTakes sqe 0x0D = true ∧ sqeDw (padWords 8 sqe) 10 % 16 = 1 ∧
     Tab.look s.dev.hostq.nss h = some n ∧ n.attached = true) ∧
    (let sqe : List Word := [0x0D, 0, 0, 0, 0, 1]; let h := 0; let d : Dev := wOn ({} : Dev) 0x10 0;
     let s : State := { dev := d };
     s.live = true ∧ s.dev.mgmtTakes sqe 0x0D = true ∧ sqeDw (padWords 8 sqe) 10 % 16 = 1 ∧
     Tab.look s.dev.hostq.nss h = none) ∧
    (let sqe : List Word := [0x0D, 0, 0, 0, 0, 2]; let d : Dev := wOn ({} : Dev) 0x10 0;
     let s : State := { dev := d };
     s.live = true ∧ s.dev.mgmtTakes sqe 0x0D = true ∧ 2 ≤ sqeDw (padWords 8 sqe) 10 % 16) ∧
    (let sqe : List Word := [0x15]; let h := 0; let ks : List Nat := [3]; let attach : Bool := false;
     let n : Ns := { nsid := 0, subsys := 0, tenant := 0, nsze := 0, grade := 0, anagrp := 0, attached := !attach, pinned := false, keySlot := 0 };
     let d : Dev := wOn ({} : Dev) 0x10 0;
     let d : Dev := { d with hostq := { d.hostq with nss := Tab.put d.hostq.nss h n } };
     let d : Dev := { d with hostq := { d.hostq with ctrls := [(3, ({ subsys := 0, tenant := 0, maxq := 0, adminCtx := 0 } : Ctrl))] } };
     let s : State := { dev := d };
     s.live = true ∧ s.dev.mgmtTakes sqe 0x15 = true ∧ Tab.look s.dev.hostq.nss h = some n ∧ n.attached = !attach ∧
     ks ≠ [] ∧ ks.all (fun k => (s.dev.ctrl k).any fun x => x.subsys = n.subsys && x.tenant = n.tenant) = true) ∧
    (let sqe : List Word := [0x15]; let h := 0; let ks : List Nat := [];
     let n : Ns := { nsid := 0, subsys := 0, tenant := 0, nsze := 0, grade := 0, anagrp := 0, attached := false, pinned := false, keySlot := 0 };
     let d : Dev := wOn ({} : Dev) 0x10 0;
     let d : Dev := { d with hostq := { d.hostq with nss := Tab.put d.hostq.nss h n } };
     let s : State := { dev := d };
     s.live = true ∧ s.dev.mgmtTakes sqe 0x15 = true ∧ Tab.look s.dev.hostq.nss h = some n ∧
     (ks = [] ∨ ks.all (fun k => (s.dev.ctrl k).any fun x => x.subsys = n.subsys && x.tenant = n.tenant) = false)) ∧
    (let sqe : List Word := [0x15]; let h := 0; let ks : List Nat := [3]; let attach : Bool := false;
     let n : Ns := { nsid := 0, subsys := 0, tenant := 0, nsze := 0, grade := 0, anagrp := 0, attached := attach, pinned := false, keySlot := 0 };
     let d : Dev := wOn ({} : Dev) 0x10 0;
     let d : Dev := { d with hostq := { d.hostq with nss := Tab.put d.hostq.nss h n } };
     let d : Dev := { d with hostq := { d.hostq with ctrls := [(3, ({ subsys := 0, tenant := 0, maxq := 0, adminCtx := 0 } : Ctrl))] } };
     let s : State := { dev := d };
     s.live = true ∧ s.dev.mgmtTakes sqe 0x15 = true ∧ Tab.look s.dev.hostq.nss h = some n ∧ n.attached = attach ∧
     ks ≠ [] ∧ ks.all (fun k => (s.dev.ctrl k).any fun x => x.subsys = n.subsys && x.tenant = n.tenant) = true) ∧
    (let sqe : List Word := [0x15]; let h := 0; let d : Dev := wOn ({} : Dev) 0x10 0; let s : State := { dev := d };
     s.live = true ∧ s.dev.mgmtTakes sqe 0x15 = true ∧ Tab.look s.dev.hostq.nss h = none) ∧
    (let h := 0;
     let n : Ns := { nsid := 1, subsys := 0, tenant := 1, nsze := 1, grade := 4, anagrp := 1, attached := false, pinned := false, keySlot := 0 };
     let d : Dev := ({} : Dev).fset Reg.HOSTQ_NS_UPDATE.BUSY 0; let d : Dev := wOn d 0x10 0;
     let d : Dev := d.fset Reg.MAP_CAP.BLOCKS 1;
     let d : Dev := { d with mem := { d.mem with dram := d.mem.dram.setBytes (d.nsAddr h) ((leBytes 1 4) ++ leBytes 0 2 ++ leBytes 1 2 ++ leBytes 1 8 ++ leBytes 4 1 ++ leBytes 1 1 ++ leBytes 1 1) } };
     let s : State := { dev := d };
     s.live = true ∧ s.dev.fget Reg.HOSTQ_NS_UPDATE.BUSY = 0 ∧ s.dev.on 0x10 = true ∧ s.dev.readNs h = .ok (some n) ∧
     s.dev.nsCheck h n = 0) ∧
    (let h := 0;
     let n : Ns := { nsid := 1, subsys := 0, tenant := 1, nsze := 1, grade := 4, anagrp := 1, attached := false, pinned := false, keySlot := 0 };
     let d : Dev := ({} : Dev).fset Reg.HOSTQ_NS_UPDATE.BUSY 0; let d : Dev := wOn d 0x10 0;
     let d : Dev := d.fset Reg.MAP_CAP.BLOCKS 1;
     let d : Dev := { d with mem := { d.mem with dram := d.mem.dram.setBytes (d.nsAddr h) ((leBytes 1 4) ++ leBytes 0 2 ++ leBytes 1 2 ++ leBytes 1 8 ++ leBytes 4 1 ++ leBytes 1 1 ++ leBytes 1 1) } };
     let d : Dev := { d with hostq := { d.hostq with nss := [(9, n)] } }; let s : State := { dev := d };
     s.live = true ∧ s.dev.fget Reg.HOSTQ_NS_UPDATE.BUSY = 0 ∧ s.dev.on 0x10 = true ∧ s.dev.readNs h = .ok (some n) ∧
     s.dev.nsCheck h n ≠ 0) ∧
    (let h := 0; let d : Dev := ({} : Dev).fset Reg.HOSTQ_NS_UPDATE.BUSY 0; let d : Dev := wOn d 0x10 0;
     let s : State := { dev := d };
     s.live = true ∧ s.dev.fget Reg.HOSTQ_NS_UPDATE.BUSY = 0 ∧ s.dev.on 0x10 = true ∧ s.dev.readNs h = .ok none) ∧
    (let h := 0; let r := 2; let d : Dev := ({} : Dev).fset Reg.HOSTQ_NS_UPDATE.BUSY 0; let d : Dev := wOn d 0x10 0;
     let d : Dev := { d with mem := { d.mem with dram := d.mem.dram.setBytes (d.nsAddr h + 18) [1] } };
     let s : State := { dev := d };
     s.live = true ∧ s.dev.fget Reg.HOSTQ_NS_UPDATE.BUSY = 0 ∧ s.dev.on 0x10 = true ∧ s.dev.readNs h = .error r ∧
     r < 256) ∧
    (let s : State := {};
     s.live = true ∧ (s.dev.fget Reg.HOSTQ_NS_UPDATE.BUSY = 1 ∨ s.dev.on 0x10 = false)) := by
  refine ⟨?_, ?_, ?_, ?_, ?_, ?_, ?_, ?_, ?_, ?_, ?_, ?_, ?_, ?_, ?_, ?_, ?_⟩ <;> decide +kernel

theorem witness_LedgerAndRope :
    (let d : Dev := wOn ({} : Dev) 0x11 0;
     let d : Dev := { d with ledger := { d.ledger with tenants := [(0, ({ readRsv := 0, writeRsv := 0, burst := 0, weight := 1, failFast := false } : LedgerTenant))] } };
     let d : Dev := { d with ledger := { d.ledger with waiting := [({ tag := 0, ctx := 0, cmdref := 0, tenant := 0, nsh := 0, kind := .read, grade := 4, slba := 0, nblk := 0, units := 1, entries := 1, since := 0 } : Admission)] } };
     let s : State := { dev := d };
     let r : Nat × Admission × List (Nat × Nat) := ((Dev.serveNext s.dev (Dev.heads s.dev)).getD (0, ({ tag := 0, ctx := 0, cmdref := 0, tenant := 0, nsh := 0, kind := .read, grade := 0, slba := 0, nblk := 0, units := 0, entries := 0, since := 0 } : Admission), []));
     s.live = true ∧ s.dev.serves 0x11 = true ∧
     s.dev.heads.any (fun p => s.dev.keyHard p.2.nsh p.2.kind p.2.units) = false ∧
     s.dev.serveNext s.dev.heads = some r ∧ r.2.1.miss = none) ∧
    (let d : Dev := wOn ({} : Dev) 0x11 0;
     let d : Dev := { d with ledger := { d.ledger with tenants := [(0, ({ readRsv := 0, writeRsv := 0, burst := 0, weight := 1, failFast := false } : LedgerTenant))] } };
     let d : Dev := { d with ledger := { d.ledger with waiting := [({ tag := 0, ctx := 0, cmdref := 0, tenant := 0, nsh := 0, kind := .read, grade := 4, slba := 0, nblk := 0, units := 1, entries := 1, since := 0, miss := some 3 } : Admission)] } };
     let s : State := { dev := d };
     let r : Nat × Admission × List (Nat × Nat) := ((Dev.serveNext s.dev (Dev.heads s.dev)).getD (0, ({ tag := 0, ctx := 0, cmdref := 0, tenant := 0, nsh := 0, kind := .read, grade := 0, slba := 0, nblk := 0, units := 0, entries := 0, since := 0 } : Admission), []));
     s.live = true ∧ s.dev.serves 0x11 = true ∧
     s.dev.heads.any (fun p => s.dev.keyHard p.2.nsh p.2.kind p.2.units) = false ∧
     s.dev.serveNext s.dev.heads = some r ∧ r.2.1.miss.isSome = true) ∧
    (let r : Nat × Admission := (0, ({ tag := 0, ctx := 0, cmdref := 0, tenant := 0, nsh := 0, kind := .write, grade := 0, slba := 0, nblk := 0, units := 0, entries := 0, since := 0 } : Admission));
     let d : Dev := wOn ({} : Dev) 0x11 0; let d : Dev := { d with ledger := { d.ledger with waiting := [r.2] } };
     let d : Dev := { d with hostq := { d.hostq with nss := [(0, ({ nsid := 0, subsys := 0, tenant := 0, nsze := 0, grade := 0, anagrp := 0, attached := false, pinned := false, keySlot := 0 } : Ns))] } };
     let d : Dev := { d with ledger := { d.ledger with waiting := [({ tag := 0, ctx := 0, cmdref := 0, tenant := 0, nsh := 0, kind := .write, grade := 0, slba := 0, nblk := 0, units := 0, entries := 0, since := 0 } : Admission)] } };
     let s : State := { dev := d };
     s.live = true ∧ s.dev.serves 0x11 = true ∧
     s.dev.heads.find? (fun p => s.dev.keyHard p.2.nsh p.2.kind p.2.units) = some r) ∧
    (let r : Nat × Admission := (0, ({ tag := 0, ctx := 0, cmdref := 0, tenant := 0, nsh := 0, kind := .read, grade := 4, slba := 0, nblk := 0, units := 1, entries := 0, since := 0 } : Admission));
     let d : Dev := wOn ({} : Dev) 0x11 0; let d : Dev := { d with ledger := { d.ledger with waiting := [r.2] } };
     let d : Dev := { d with ledger := { d.ledger with tenants := [(0, ({ readRsv := 0, writeRsv := 0, burst := 0, weight := 0, failFast := true } : LedgerTenant))] } };
     let s : State := { dev := d };
     s.live = true ∧ s.dev.serves 0x11 = true ∧
     s.dev.heads.any (fun p => s.dev.keyHard p.2.nsh p.2.kind p.2.units) = false ∧ s.dev.serveNext s.dev.heads = none ∧
     s.dev.heads.find? (fun p => s.dev.failFast p.2.tenant && !s.dev.psDefers) = some r) ∧
    (let s : State := {};
     s.live = true ∧
     (s.dev.serves 0x11 = false ∨ (s.dev.heads.any (fun p => s.dev.keyHard p.2.nsh p.2.kind p.2.units) = false ∧ s.dev.serveNext s.dev.heads = none ∧ s.dev.heads.any (fun p => s.dev.failFast p.2.tenant && !s.dev.psDefers) = false))) ∧
    (let t : Nat := 0;
     let n : LedgerTenant := ({ readRsv := 0, writeRsv := 1, burst := 1, weight := 0, failFast := false } : LedgerTenant);
     let d : Dev := ({} : Dev).fset Reg.LEDGER_TEN_UPDATE.BUSY 0; let d : Dev := wOn d 0x11 0;
     let d : Dev := { d with mem := { d.mem with dram := d.mem.dram.setBytes (d.fget Reg.LEDGER_TEN_TAB.ADDR * 4096) (leBytes 0 4 ++ leBytes 1 4 ++ leBytes 1 2 ++ leBytes 0 1 ++ leBytes 1 1) } };
     let s : State := { dev := d };
     let m : LedgerTenant := ({ n with readTok := (min ((Tab.look s.dev.ledger.tenants t).getD n).readTok (n.readRsv * n.burst * 1000000)), writeTok := (min ((Tab.look s.dev.ledger.tenants t).getD n).writeTok (n.writeRsv * n.burst * 1000000)) } : LedgerTenant);
     let ts : Tab LedgerTenant := Tab.put s.dev.ledger.tenants t m;
     s.live = true ∧ s.dev.fget Reg.LEDGER_TEN_UPDATE.BUSY = 0 ∧ s.dev.on 0x11 = true ∧
     s.dev.readTenant t = .ok (some n) ∧
     m = { n with readTok := (min ((Tab.look s.dev.ledger.tenants t).getD n).readTok (n.readRsv * n.burst * 1000000)), writeTok := (min ((Tab.look s.dev.ledger.tenants t).getD n).writeTok (n.writeRsv * n.burst * 1000000)) } ∧
     ts = Tab.put s.dev.ledger.tenants t m) ∧
    (let t : Nat := 0; let d : Dev := ({} : Dev).fset Reg.LEDGER_TEN_UPDATE.BUSY 0; let d : Dev := wOn d 0x11 0;
     let s : State := { dev := d }; let ts : Tab LedgerTenant := (Tab.del s.dev.ledger.tenants t);
     s.live = true ∧ s.dev.fget Reg.LEDGER_TEN_UPDATE.BUSY = 0 ∧ s.dev.on 0x11 = true ∧ s.dev.readTenant t = .ok none ∧
     ts = Tab.del s.dev.ledger.tenants t) ∧
    (let t : Nat := 0; let r := 6; let d : Dev := ({} : Dev).fset Reg.LEDGER_TEN_UPDATE.BUSY 0;
     let d : Dev := wOn d 0x11 0;
     let d : Dev := { d with mem := { d.mem with dram := d.mem.dram.setBytes (d.fget Reg.LEDGER_TEN_TAB.ADDR * 4096 + 11) [1] } };
     let s : State := { dev := d };
     s.live = true ∧ s.dev.fget Reg.LEDGER_TEN_UPDATE.BUSY = 0 ∧ s.dev.on 0x11 = true ∧ s.dev.readTenant t = .error r ∧
     0 < r ∧ r < 256) ∧
    (let s : State := {};
     s.live = true ∧ (s.dev.fget Reg.LEDGER_TEN_UPDATE.BUSY = 1 ∨ s.dev.on 0x11 = false)) ∧
    (let d : Dev := ({} : Dev).fset Reg.ROPE_CYCLE.NS 1; let s : State := { dev := d };
     let at_ : Nat := ((if s.dev.now / s.dev.cycleNs % 2 ^ 48 = s.dev.cycle then (s.dev.now / s.dev.cycleNs + 1) * s.dev.cycleNs else s.dev.now));
     s.live = true ∧ (s.dev.inst 0x11 0).swapReady = false ∧ (s.dev.inst 0x12 0).swapReady = false ∧
     (s.dev.inst 0x13 0).swapReady = false ∧ (s.dev.inst 0x13 0).heldDisable = false ∧ s.dev.pitch.pause = none ∧
     s.dev.belay.pairNext = false ∧ s.dev.belay.joinWaits = false ∧ 1 ≤ s.dev.cycleNs ∧
     at_ = (if s.dev.now / s.dev.cycleNs % 2 ^ 48 = s.dev.cycle then (s.dev.now / s.dev.cycleNs + 1) * s.dev.cycleNs else s.dev.now)) ∧
    (let s : State := {};
     s.live = true) ∧
    (let c := 0; let d : Dev := wOn ({} : Dev) 0x12 0; let d : Dev := d.fset Reg.ROPE_PAIR.PAIRED 0;
     let d : Dev := d.fset Reg.ROPE_CUR_CYCLE.CYCLE 1; let s : State := { dev := d };
     s.live = true ∧ s.dev.on 0x12 = true ∧ s.dev.quiet = false ∧ s.dev.claimsPending = false ∧
     c = s.dev.belay.nextSeal ∧ cycLe s.dev.cycle c = false ∧ s.dev.cycleSealed c = true ∧
     s.dev.fget Reg.ROPE_PAIR.PAIRED = 0 ∧ s.dev.belay.bundling = false ∧ s.dev.hostq.tags = []) ∧
    (let c := 0; let d : Dev := wOn ({} : Dev) 0x12 0; let d : Dev := d.fset Reg.ROPE_PAIR.PAIRED 1;
     let d : Dev := wOn d 0x19 0; let d : Dev := d.fset Reg.ROPE_CUR_CYCLE.CYCLE 1; let s : State := { dev := d };
     s.live = true ∧ s.dev.on 0x12 = true ∧ s.dev.quiet = false ∧ s.dev.claimsPending = false ∧
     c = s.dev.belay.nextSeal ∧ cycLe s.dev.cycle c = false ∧ s.dev.cycleSealed c = true ∧
     s.dev.fget Reg.ROPE_PAIR.PAIRED = 1 ∧ s.dev.on 0x19 = true) ∧
    (let s : State := {};
     s.live = true ∧
     (s.dev.on 0x12 = false ∨ s.dev.quiet = true ∨ s.dev.claimsPending = true ∨ cycLe s.dev.cycle s.dev.belay.nextSeal = true ∨ s.dev.cycleSealed s.dev.belay.nextSeal = false)) ∧
    (let i : Nat := 0;
     let l : Lock := { rope := 0, slba := 0, nblk := 0, nsh := 0, kind := .read, granted := false, tenant := 0, depth := 0, ctx := 0, cmdref := 0 };
     let d : Dev := {}; let d : Dev := { d with rope := { d.rope with locks := Tab.put d.rope.locks i l } };
     let s : State := { dev := d };
     s.live = true ∧ Tab.look s.dev.rope.locks i = some l ∧ l.granted = false ∧ s.dev.grantable l = true) ∧
    (let i : Nat := 0;
     let l : Lock := { rope := 0, slba := 0, nblk := 0, nsh := 0, kind := .read, granted := false, tenant := 0, depth := 0, ctx := 0, cmdref := 0 };
     let d : Dev := {}; let d : Dev := { d with rope := { d.rope with locks := Tab.put d.rope.locks i l } };
     let s : State := { dev := d };
     s.live = true ∧ Tab.look s.dev.rope.locks i = some l ∧ l.granted = false ∧ s.dev.grantable l = true) ∧
    (let i : Nat := 0;
     let l : Lock := { rope := 1, slba := 0, nblk := 1, nsh := 0, kind := .write, granted := true, tenant := 0, depth := 0, ctx := 0, cmdref := 0 };
     let applied : Bool := false; let d : Dev := {};
     let d : Dev := { d with rope := { d.rope with locks := Tab.put d.rope.locks i l } };
     let s : State := { dev := d };
     s.live = true ∧ Tab.look s.dev.rope.locks i = some l ∧
     (l.granted = false ∧ s.dev.grantable l = false ∨ l.granted = true ∧ (applied = false ∨ l.kind ∈ [.flush, .nswide]))) ∧
    (let i : Nat := 0; let s : State := {};
     s.live = true ∧ Tab.look s.dev.rope.locks i = none) ∧
    (let i : Nat := 0; let g := 0;
     let l : Lock := { rope := 0, slba := 0, nblk := 1, nsh := 0, kind := .write, granted := true, tenant := 0, depth := 0, ctx := 0, cmdref := 0 };
     let u : SUnit := { state := .landing, rec_ := { wgen := 0, nsh := 0, lba := 0 }, tag := some 0 };
     let d : Dev := {}; let d : Dev := { d with rope := { d.rope with locks := Tab.put d.rope.locks i l } };
     let d : Dev := d.fset Reg.MAP_CFG.UNIT 0; let d : Dev := { d with map := { d.map with staging := [(g, u)] } };
     let s : State := { dev := d };
     s.live = true ∧ Tab.look s.dev.rope.locks i = some l ∧ l.granted = true ∧ l.kind = .write ∧ l.nblk = 1 ∧
     s.dev.fget Reg.MAP_CFG.UNIT = 0 ∧ s.dev.map.staging = [(g, u)] ∧ u.tag = some (tagKey l.ctx l.cmdref) ∧
     u.rec_.zrange = false ∧ u.rec_.lba = l.slba ∧ s.dev.hostq.tags = []) ∧
    (let i : Nat := 0;
     let l : Lock := { rope := 0, slba := 0, nblk := 1, nsh := 0, kind := .dealloc, granted := true, tenant := 0, depth := 0, ctx := 0, cmdref := 0 };
     let d : Dev := {}; let d : Dev := { d with rope := { d.rope with locks := Tab.put d.rope.locks i l } };
     let d : Dev := d.fset Reg.MAP_CFG.UNIT 0; let s : State := { dev := d };
     s.live = true ∧ Tab.look s.dev.rope.locks i = some l ∧ l.granted = true ∧ l.kind = .dealloc ∧ l.nblk = 1 ∧
     s.dev.fget Reg.MAP_CFG.UNIT = 0 ∧ s.dev.hostq.tags = []) ∧
    (let i : Nat := 0;
     let l : Lock := { rope := 0, slba := 0, nblk := 0, nsh := 0, kind := .read, granted := true, tenant := 0, depth := 0, ctx := 0, cmdref := 0 };
     let d : Dev := {}; let d : Dev := { d with rope := { d.rope with locks := Tab.put d.rope.locks i l } };
     let s : State := { dev := d };
     s.live = true ∧ Tab.look s.dev.rope.locks i = some l ∧ l.granted = true ∧ l.kind = .read) := by
  refine ⟨?_, ?_, ?_, ?_, ?_, ?_, ?_, ?_, ?_, ?_, ?_, ?_, ?_, ?_, ?_, ?_, ?_, ?_, ?_, ?_, ?_⟩ <;> decide +kernel

theorem witness_MapAndStaging :
    (let data : List Byte := [1]; let s : State := {};
     s.live = true ∧ s.dev.quiet = false ∧ data ≠ [] ∧ data.length ≤ 4096 ∧ s.dev.map.staging = []) ∧
    (let tenant := 0; let token := 0; let off := 0; let i : Nat := 0; let data : List Byte := [1];
     let u : SUnit := { state := .landing, rec_ := { wgen := 0, nsh := 0, lba := 0 } }; let d : Dev := {};
     let d : Dev := { d with map := { d.map with staging := [(i, u)] } }; let s : State := { dev := d };
     s.live = true ∧ s.dev.quiet = false ∧ data ≠ [] ∧ off + data.length ≤ 4096 ∧
     s.dev.landingUnit tenant token 0 = some (i, u)) ∧
    (let data : List Byte := []; let s : State := {};
     s.live = true ∧
     (s.dev.quiet = true ∨ data = [] ∨ s.dev.sramFree = 0 ∧ s.dev.map.staging.any (fun p => decide (p.2.state = .landing)) = false)) ∧
    (let i : Nat := 0; let id := 0; let st := 1;
     let u : SUnit := { state := .dirty, rec_ := { wgen := 0, nsh := 0, lba := 0 }, superseded := none };
     let r : Stripe := { band := 0, page := 0, slots := [] }; let b : Band := { state := .queued, k := 1, m := 0 };
     let d : Dev := {}; let d : Dev := { d with map := { d.map with staging := Tab.put d.map.staging i u } };
     let d : Dev := { d with stripe := { d.stripe with streams := Tab.put d.stripe.streams st id } };
     let d : Dev := { d with stripe := { d.stripe with stripes := Tab.put d.stripe.stripes id r } };
     let d : Dev := { d with stripe := { d.stripe with bands := Tab.put d.stripe.bands r.band b } };
     let s : State := { dev := d };
     s.live = true ∧ Tab.look s.dev.map.staging i = some u ∧ u.state = .dirty ∧ u.superseded = none ∧
     s.dev.map.stalled = false ∧ (u.rec_.zrange = true ∨ s.dev.fget Reg.MAP_CFG.UNIT = 0) ∧
     st = s.dev.streamFor u.rec_.nsh (if u.rec_.zrange then 15 else s.dev.streamOf u) ∧
     Tab.look s.dev.stripe.streams st = some id ∧ Tab.look s.dev.stripe.stripes id = some r ∧ r.slots = [] ∧
     Tab.look s.dev.stripe.bands r.band = some b ∧ s.dev.bandWhole b = true ∧ 1 ≤ b.k) ∧
    (let i : Nat := 0;
     let u : SUnit := { state := .dirty, rec_ := { wgen := 0, nsh := 0, lba := 0 }, superseded := none };
     let d : Dev := {}; let d : Dev := { d with map := { d.map with staging := Tab.put d.map.staging i u } };
     let d : Dev := d.fset Reg.MAP_CFG.UNIT 1; let s : State := { dev := d };
     s.live = true ∧ Tab.look s.dev.map.staging i = some u ∧ u.state = .dirty ∧ u.superseded = none ∧
     s.dev.map.stalled = false ∧ u.rec_.zrange = false ∧ s.dev.fget Reg.MAP_CFG.UNIT = 1) ∧
    (let i : Nat := 0; let s : State := {};
     s.live = true ∧
     (s.dev.map.stalled = true ∨ ((Tab.look s.dev.map.staging i).any fun u => decide (u.state = .dirty) && u.superseded.isNone) = false)) ∧
    (let p := 0; let c : Instr := .mapPlace (.page p); let id := 0; let f : Frame := { dirty := true };
     let r : Stripe := { band := 0, page := 0, slots := [] }; let b : Band := { state := .queued, k := 1, m := 0 };
     let d : Dev := {}; let d : Dev := { d with map := { d.map with frames := Tab.put d.map.frames p f } };
     let d : Dev := { d with stripe := { d.stripe with streams := Tab.put d.stripe.streams (d.streamFor (p / 2 ^ 32) 15) id } };
     let d : Dev := { d with stripe := { d.stripe with stripes := [(id, r)] } };
     let d : Dev := { d with stripe := { d.stripe with bands := Tab.put d.stripe.bands r.band b } };
     let d : Dev := { d with jnl := { d.jnl with ckpt := some ({ number := 0, b := 7 } : Ckpt) } };
     let s : State := { dev := d };
     s.live = true ∧ c ∈ [Instr.mapPlace (.page p), .mapCacheWriteback p] ∧ Tab.look s.dev.map.frames p = some f ∧
     f.dirty = true ∧
     ((s.dev.jnl.ckpt.map fun c => (s.dev.ckptPages c).contains p).getD false || (!s.dev.pagePinned p && s.dev.lacksClean p)) = true ∧
     s.dev.map.stalled = false ∧ Tab.look s.dev.stripe.streams (s.dev.streamFor (p / 2 ^ 32) 15) = some id ∧
     s.dev.stripe.stripes = [(id, r)] ∧ r.slots = [] ∧ Tab.look s.dev.stripe.bands r.band = some b ∧
     s.dev.bandWhole b = true ∧ 1 ≤ b.k) ∧
    (let p := 0; let c : Instr := .mapPlace (.page p); let s : State := {};
     s.live = true ∧ c ∈ [Instr.mapPlace (.page p), .mapCacheWriteback p] ∧
     ((Tab.look s.dev.map.frames p).any (·.dirty) = false ∨ s.dev.map.stalled = true ∨ s.dev.jnl.ckpt = none ∧ s.dev.lacksClean p = false)) ∧
    (let id := 0; let m : MoveUnit := { rec_ := { wgen := 0, nsh := 0, lba := 0 }, data := [], src := 0 };
     let r : Stripe := { band := 0, page := 0, slots := [] }; let b : Band := { state := .queued, k := 1, m := 0 };
     let d : Dev := {}; let d : Dev := { d with stripe := { d.stripe with moveBuf := [m] } };
     let d : Dev := { d with stripe := { d.stripe with streams := Tab.put d.stripe.streams (d.streamFor m.rec_.nsh (if m.rec_.zrange then 15 else 14)) id } };
     let d : Dev := { d with stripe := { d.stripe with stripes := Tab.put d.stripe.stripes id r } };
     let d : Dev := { d with stripe := { d.stripe with bands := Tab.put d.stripe.bands r.band b } };
     let s : State := { dev := d };
     s.live = true ∧ s.dev.stripe.moveBuf = [m] ∧ (m.rec_.zrange = true ∨ s.dev.fget Reg.MAP_CFG.UNIT = 0) ∧
     Tab.look s.dev.stripe.streams (s.dev.streamFor m.rec_.nsh (if m.rec_.zrange then 15 else 14)) = some id ∧
     Tab.look s.dev.stripe.stripes id = some r ∧ r.slots = [] ∧ Tab.look s.dev.stripe.bands r.band = some b ∧
     s.dev.bandWhole b = true ∧ 1 ≤ b.k) ∧
    (let s : State := {};
     s.live = true ∧ s.dev.stripe.moveBuf = []) ∧
    (let id := 0; let i : Nat := 0;
     let r : Stripe := { band := 0, page := 0, passed := [0], slots := [.unit i], full := true, dump := false };
     let b : Band := { state := .queued, k := 1, m := 0 };
     let u : SUnit := { state := .landing, rec_ := { wgen := 0, nsh := 0, lba := 0 } }; let d : Dev := {};
     let d : Dev := { d with stripe := { d.stripe with stripes := Tab.put d.stripe.stripes id r } };
     let d : Dev := { d with stripe := { d.stripe with bands := Tab.put d.stripe.bands r.band b } };
     let d : Dev := { d with map := { d.map with staging := Tab.put d.map.staging i u } };
     let s : State := { dev := d }; let j : Nat := (s.dev.fget Reg.JNL_HEAD.JSEQ);
     s.live = true ∧ Tab.look s.dev.stripe.stripes id = some r ∧ r.slots = [.unit i] ∧ r.full = true ∧ r.dump = false ∧
     Tab.look s.dev.stripe.bands r.band = some b ∧ b.k + b.m ≤ r.passed.length ∧
     Tab.look s.dev.map.staging i = some u ∧ u.rec_.zrange = false ∧ j = s.dev.fget Reg.JNL_HEAD.JSEQ ∧
     j - s.dev.fget Reg.JNL_TAIL.JSEQ < ringLen - 2) ∧
    (let id := 0; let i : Nat := 0;
     let r : Stripe := { band := 0, page := 0, passed := [0], slots := [.unit i], full := true, dump := false };
     let b : Band := { state := .queued, k := 1, m := 0 };
     let u : SUnit := { state := .placing, rec_ := { wgen := 0, nsh := 0, lba := 0 } }; let d : Dev := {};
     let d : Dev := { d with stripe := { d.stripe with stripes := Tab.put d.stripe.stripes id r } };
     let d : Dev := { d with stripe := { d.stripe with bands := Tab.put d.stripe.bands r.band b } };
     let d : Dev := { d with map := { d.map with staging := Tab.put d.map.staging i u } };
     let d : Dev := d.fset Reg.JNL_HEAD.JSEQ 2095103; let s : State := { dev := d };
     s.live = true ∧ Tab.look s.dev.stripe.stripes id = some r ∧ r.slots = [.unit i] ∧ r.full = true ∧ r.dump = false ∧
     Tab.look s.dev.stripe.bands r.band = some b ∧ b.k + b.m ≤ r.passed.length ∧
     Tab.look s.dev.map.staging i = some u ∧ u.rec_.zrange = false ∧
     ringLen - 2 ≤ s.dev.fget Reg.JNL_HEAD.JSEQ - s.dev.fget Reg.JNL_TAIL.JSEQ) ∧
    (let id := 0; let i : Nat := 0;
     let r : Stripe := { band := 0, page := 0, passed := [0], slots := [.unit i], full := true, dump := false };
     let b : Band := { state := .queued, k := 1, m := 0 };
     let u : SUnit := { state := .placing, rec_ := ({ wgen := 0, nsh := 0, lba := 0, zrange := true } : URec) };
     let d : Dev := {};
     let d : Dev := { d with stripe := { d.stripe with stripes := Tab.put d.stripe.stripes id r } };
     let d : Dev := { d with stripe := { d.stripe with bands := Tab.put d.stripe.bands r.band b } };
     let d : Dev := { d with map := { d.map with staging := Tab.put d.map.staging i u } };
     let s : State := { dev := d };
     s.live = true ∧ Tab.look s.dev.stripe.stripes id = some r ∧ r.slots = [.unit i] ∧ r.full = true ∧ r.dump = false ∧
     Tab.look s.dev.stripe.bands r.band = some b ∧ b.k + b.m ≤ r.passed.length ∧
     Tab.look s.dev.map.staging i = some u ∧ u.rec_.zrange = true) ∧
    (let id := 0; let s : State := {};
     s.live = true ∧
     ((Tab.look s.dev.stripe.stripes id).any fun r => r.full && !r.dump && (Tab.look s.dev.stripe.bands r.band).any fun b => decide (b.k + b.m ≤ r.passed.length)) = false) ∧
    (let rest : List JPend := []; let key := 0; let cond := 0; let new := 0; let former := 0;
     let recs : List (Nat × URec) := []; let us : List Nat := [1];
     let q : JPend := { jseq := 0, act := .switch key cond new former recs us }; let d : Dev := {};
     let d : Dev := { d with jnl := { d.jnl with pend := q :: rest } }; let s : State := { dev := d };
     s.live = true ∧ s.dev.jnl.pend = q :: rest ∧ q.act = .switch key cond new former recs us ∧ us ≠ []) ∧
    (let rest : List JPend := []; let key := 0; let cond := 0; let new := 0; let former := 0;
     let recs : List (Nat × URec) := []; let q : JPend := { jseq := 0, act := .switch key cond new former recs [] };
     let d : Dev := {}; let d : Dev := { d with jnl := { d.jnl with pend := q :: rest } };
     let s : State := { dev := d };
     s.live = true ∧ s.dev.jnl.pend = q :: rest ∧ q.act = .switch key cond new former recs []) ∧
    (let rest : List JPend := []; let es : List Nat := []; let ps : List Nat := [];
     let q : JPend := { jseq := 0, act := .stale es ps }; let d : Dev := {};
     let d : Dev := { d with jnl := { d.jnl with pend := q :: rest } }; let s : State := { dev := d };
     s.live = true ∧ s.dev.jnl.pend = q :: rest ∧ q.act = .stale es ps) ∧
    (let q : JPend := { jseq := 0, act := .none }; let rest : List JPend := []; let d : Dev := {};
     let d : Dev := { d with jnl := { d.jnl with pend := q :: rest } }; let s : State := { dev := d };
     s.live = true ∧ s.dev.jnl.pend = q :: rest ∧ q.act = .none) ∧
    (let s : State := {};
     s.live = true ∧ s.dev.jnl.pend = []) ∧
    (let i : Nat := 0;
     let u : SUnit := { state := .placing, rec_ := { wgen := 0, nsh := 0, lba := 0 }, switched := true };
     let d : Dev := {}; let d : Dev := { d with map := { d.map with staging := Tab.put d.map.staging i u } };
     let s : State := { dev := d };
     s.live = true ∧ Tab.look s.dev.map.staging i = some u ∧ s.dev.mayFree u = true) ∧
    (let i : Nat := 0; let s : State := {};
     s.live = true ∧ (Tab.look s.dev.map.staging i).any (fun u => s.dev.mayFree u) = false) ∧
    (let page := 0; let h := 0;
     let l : Lookup := { tenant := 0, nsh := 0, slba := 0, nblk := 1, tag := 0, ctx := 0, cmdref := 0, token := 0, entries := [], ready := false };
     let d : Dev := {}; let d : Dev := { d with map := { d.map with lookups := [(h, l)] } };
     let d : Dev := { d with map := { d.map with dir := [(0, 5)] } }; let s : State := { dev := d };
     let es : List Nat := ((if l.entries.isEmpty then s.dev.rangeEntries l.nsh l.slba l.nblk else l.entries));
     s.live = true ∧ s.dev.map.lookups = [(h, l)] ∧ l.ready = false ∧ page ∈ s.dev.missing l.nsh l.slba l.nblk ∧
     ((s.dev.frameIn page).missing l.nsh l.slba l.nblk).filter (· ≠ page) = [] ∧
     es = (if l.entries.isEmpty then s.dev.rangeEntries l.nsh l.slba l.nblk else l.entries) ∧ es.any entBad = false) ∧
    (let page := 0; let h := 0;
     let l : Lookup := { tenant := 0, nsh := 0, slba := 0, nblk := 1, tag := 0, ctx := 0, cmdref := 0, token := 0, entries := [], ready := false };
     let d : Dev := {}; let d : Dev := { d with map := { d.map with lookups := [(h, l)] } };
     let d : Dev := { d with map := { d.map with dir := [(0, 5)] } }; let s : State := { dev := d };
     s.live = true ∧ s.dev.map.lookups = [(h, l)] ∧ l.ready = false ∧ page ∈ s.dev.missing l.nsh l.slba l.nblk) ∧
    (let page := 0; let h := 0;
     let l : Lookup := { tenant := 0, nsh := 0, slba := 0, nblk := 1, tag := 0, ctx := 0, cmdref := 0, token := 0, entries := [0xFF00000000], ready := false };
     let es : List Nat := l.entries; let d : Dev := {};
     let d : Dev := { d with map := { d.map with lookups := [(h, l)] } };
     let d : Dev := { d with map := { d.map with dir := [(0, 5)] } }; let s : State := { dev := d };
     s.live = true ∧ s.dev.map.lookups = [(h, l)] ∧ l.ready = false ∧ page ∈ s.dev.missing l.nsh l.slba l.nblk ∧
     ((s.dev.frameIn page).missing l.nsh l.slba l.nblk).filter (· ≠ page) = [] ∧
     es = (if l.entries.isEmpty then s.dev.rangeEntries l.nsh l.slba l.nblk else l.entries) ∧ es.any entBad = true) ∧
    (let s : State := {};
     s.live = true ∧ s.dev.map.lookups = []) ∧
    (let page := 0; let d : Dev := {};
     Tab.look d.map.frames page = none) ∧
    (let page := 0;
     let n : Ns := { nsid := 0, subsys := 0, tenant := 0, nsze := 0, grade := 0, anagrp := 0, attached := false, pinned := false, keySlot := 0, cold := true };
     let d : Dev := {}; let d : Dev := { d with map := { d.map with coldPages := [page] } };
     let d : Dev := { d with hostq := { d.hostq with nss := Tab.put d.hostq.nss (page / 2 ^ 32) n } };
     let s : State := { dev := d };
     s.live = true ∧ s.dev.map.coldPages = [page] ∧ Tab.look s.dev.hostq.nss (page / 2 ^ 32) = some n ∧ n.cold = true ∧
     s.dev.hostq.ctrls = []) ∧
    (let page := 0; let d : Dev := {}; let d : Dev := { d with map := { d.map with coldPages := [page] } };
     let s : State := { dev := d };
     s.live = true ∧ s.dev.warmNext page = true) ∧
    (let page := 0; let s : State := {};
     s.live = true ∧ s.dev.warmNext page = false) ∧
    (let n := 0; let t : Nat := 0; let b : Band := { state := .closed, k := 0, m := 0, item := none };
     let d : Dev := ({} : Dev).fset Reg.MAP_CFG.SECURE 1;
     let d : Dev := { d with map := { d.map with stale := [{ band := n, since := t }] } };
     let d : Dev := { d with stripe := { d.stripe with bands := Tab.put d.stripe.bands n b } };
     let s : State := { dev := d };
     s.live = true ∧ s.dev.fget Reg.MAP_CFG.SECURE = 1 ∧ s.dev.map.stale = [{ band := n, since := t }] ∧
     s.dev.map.ended = [] ∧ t + (s.dev.fget Reg.MAP_SECDEL.HOURS - 1) * 3600000000000 ≤ s.dev.now ∧ t < 2 ^ 64 ∧
     Tab.look s.dev.stripe.bands n = some b ∧ b.state ∈ [.closed, .opened] ∧ b.item = none ∧
     (b.ofMap = false ∨ b.valid = 0)) ∧
    (let n := 0; let s : State := {};
     s.live = true ∧
     (s.dev.fget Reg.MAP_CFG.SECURE = 0 ∨ ((Tab.look s.dev.stripe.bands n).any fun b => decide (b.state = .closed ∨ b.state = .opened)) = false)) := by
  refine ⟨?_, ?_, ?_, ?_, ?_, ?_, ?_, ?_, ?_, ?_, ?_, ?_, ?_, ?_, ?_, ?_, ?_, ?_, ?_, ?_, ?_, ?_, ?_, ?_, ?_, ?_, ?_, ?_, ?_, ?_, ?_⟩
  · decide +kernel
  · decide +kernel
  · decide +kernel
  · decide +kernel
  · decide +kernel
  · decide +kernel
  · exact ⟨by decide +kernel, by first | decide +kernel | rfl | simp [URec.laddr], by decide +kernel, by decide +kernel, by decide +kernel, by decide +kernel, by decide +kernel, by decide +kernel, by decide +kernel, by decide +kernel, by decide +kernel, by decide +kernel⟩
  · exact ⟨by decide +kernel, by first | decide +kernel | rfl | simp [URec.laddr], by decide +kernel⟩
  · decide +kernel
  · decide +kernel
  · decide +kernel
  · decide +kernel
  · decide +kernel
  · decide +kernel
  · decide +kernel
  · decide +kernel
  · decide +kernel
  · decide +kernel
  · decide +kernel
  · decide +kernel
  · decide +kernel
  · decide +kernel
  · decide +kernel
  · decide +kernel
  · decide +kernel
  · decide +kernel
  · decide +kernel
  · decide +kernel
  · decide +kernel
  · decide +kernel
  · decide +kernel

theorem witness_CheckpointAndRecovery :
    (let d : Dev := wOn ({} : Dev) 0x1B 0; let d : Dev := d.fset Reg.JNL_CKPT.REQ 1; let s : State := { dev := d };
     let j : Nat := (s.dev.fget Reg.JNL_HEAD.JSEQ);
     s.live = true ∧ s.dev.jnl.ckpt = none ∧ s.dev.on 0x1B = true ∧ j = s.dev.fget Reg.JNL_HEAD.JSEQ ∧
     (s.dev.fget Reg.JNL_CKPT.REQ = 1 ∨ s.dev.fget Reg.JNL_CKPT_CFG.CKPT_PCT * ringLen < 100 * (j - s.dev.fget Reg.JNL_TAIL.JSEQ)) ∧
     j - s.dev.fget Reg.JNL_TAIL.JSEQ < ringLen) ∧
    (let j := 2095104; let d : Dev := wOn ({} : Dev) 0x1B 0; let d : Dev := d.fset Reg.JNL_CKPT.REQ 1;
     let d : Dev := d.fset Reg.JNL_HEAD.JSEQ 2095104; let s : State := { dev := d };
     s.live = true ∧ s.dev.jnl.ckpt = none ∧ s.dev.on 0x1B = true ∧ j = s.dev.fget Reg.JNL_HEAD.JSEQ ∧
     s.dev.fget Reg.JNL_CKPT.REQ = 1 ∧ ringLen ≤ j - s.dev.fget Reg.JNL_TAIL.JSEQ) ∧
    (let s : State := {};
     s.live = true ∧
     (s.dev.jnl.ckpt.isSome = true ∨ s.dev.on 0x1B = false ∨ s.dev.fget Reg.JNL_CKPT.REQ = 0 ∧ 100 * (s.dev.fget Reg.JNL_HEAD.JSEQ - s.dev.fget Reg.JNL_TAIL.JSEQ) ≤ s.dev.fget Reg.JNL_CKPT_CFG.CKPT_PCT * ringLen)) ∧
    (let c : Ckpt := { number := 0, b := 0 }; let d : Dev := {};
     let d : Dev := { d with jnl := { d.jnl with ckpt := some c } }; let s : State := { dev := d };
     s.live = true ∧ s.dev.jnl.ckpt = some c ∧ s.dev.ckptPages c = [] ∧ s.dev.jnl.waits = [] ∧
     s.dev.fget Reg.JNL_HEAD.JSEQ - s.dev.fget Reg.JNL_TAIL.JSEQ < ringLen) ∧
    (let c : Ckpt := { number := 0, b := 0 }; let d : Dev := {};
     let d : Dev := { d with jnl := { d.jnl with ckpt := some c } }; let d : Dev := d.fset Reg.JNL_HEAD.JSEQ 2095104;
     let s : State := { dev := d };
     s.live = true ∧ s.dev.jnl.ckpt = some c ∧ s.dev.ckptPages c = [] ∧
     ringLen ≤ s.dev.fget Reg.JNL_HEAD.JSEQ - s.dev.fget Reg.JNL_TAIL.JSEQ) ∧
    (let s : State := {};
     s.live = true ∧ (s.dev.jnl.ckpt.any fun c => (s.dev.ckptPages c).isEmpty) = false) ∧
    (let root : RootObs := { good := false, entries := [], dir := [], clearSeq := [], valid := [], bands := [], queue := [], free := [], blocks := [] };
     let d : Dev := wOn ({} : Dev) 0x14 0; let s : State := { dev := d };
     s.live = true ∧ s.dev.fget Reg.MAP_RECOVER.STATE ≠ 1 ∧ s.dev.on 0x14 = true ∧
     (s.dev.jnl.active = none ∨ root.good = false)) ∧
    (let root : RootObs := { good := true, entries := [], dir := [], clearSeq := [], valid := [], bands := [], queue := [], free := [], blocks := [] };
     let a := 0; let d : Dev := wOn ({} : Dev) 0x14 0;
     let d : Dev := { d with jnl := { d.jnl with mram := [(0, 83), (1, 78), (2, 74), (3, 76), (4, 1), (4092, 247), (4093, 182), (4094, 49), (4095, 39)] } };
     let s : State := { dev := d }; let j : Nat := (s.dev.jnl.sbField 16 8);
     s.live = true ∧ s.dev.fget Reg.MAP_RECOVER.STATE ≠ 1 ∧ s.dev.on 0x14 = true ∧ s.dev.jnl.active = some a ∧
     root.good = true ∧ j = s.dev.jnl.sbField 16 8 ∧ jrecOk s.dev.jnl.mram j = false ∧
     (s.dev.jnl.mram.read (ringSlot j + 8) 8 ≠ j ∨ jrecOk s.dev.jnl.mram (j + 1) = false) ∧
     s.dev.jnl.mram.read 0x2000 4 = 0) ∧
    (let root : RootObs := { good := true, entries := [], dir := [], clearSeq := [], valid := [], bands := [], queue := [], free := [], blocks := [] };
     let a := 0; let j := 1; let d : Dev := wOn ({} : Dev) 0x14 0;
     let d : Dev := { d with jnl := { d.jnl with mram := [(0, 83), (1, 78), (2, 74), (3, 76), (4, 1), (4092, 247), (4093, 182), (4094, 49), (4095, 39)] } };
     let d : Dev := { d with jnl := { d.jnl with mram := [(0, 83), (1, 78), (2, 74), (3, 76), (4, 1), (16, 1), (4092, 69), (4093, 43), (4094, 7), (4095, 95)] } };
     let d : Dev := { d with jnl := { d.jnl with mram := Memory.setBytes (Memory.setBytes d.jnl.mram (ringSlot 1 + 8) [1]) (ringSlot 2) (jrec 5 0 0 2 0) } };
     let s : State := { dev := d };
     s.live = true ∧ s.dev.fget Reg.MAP_RECOVER.STATE ≠ 1 ∧ s.dev.on 0x14 = true ∧ s.dev.jnl.active = some a ∧
     root.good = true ∧ j = s.dev.jnl.sbField 16 8 ∧ jrecOk s.dev.jnl.mram j = false ∧
     s.dev.jnl.mram.read (ringSlot j + 8) 8 = j ∧ jrecOk s.dev.jnl.mram (j + 1) = true) ∧
    (let root : RootObs := { good := false, entries := [], dir := [], clearSeq := [], valid := [], bands := [], queue := [], free := [], blocks := [] };
     let u : ScanUnit := { entry := 0, seq := 0, dead := false, rec_ := ({ wgen := 0, nsh := 0, lba := 0 } : URec) };
     let d : Dev := wOn ({} : Dev) 0x14 0; let d : Dev := d.fset Reg.MAP_CFG.UNIT 0;
     let d : Dev := { d with hostq := { d.hostq with nss := [(0, ({ nsid := 0, subsys := 0, tenant := 0, nsze := 0, grade := 0, anagrp := 0, attached := false, pinned := false, keySlot := 0 } : Ns))] } };
     let s : State := { dev := d };
     s.live = true ∧ s.dev.fget Reg.MAP_RECOVER.STATE ≠ 1 ∧ s.dev.on 0x14 = true ∧ s.dev.fget Reg.MAP_CFG.UNIT = 0 ∧
     s.dev.scanDead root u = false ∧ u.rec_.zrange = false ∧ root.bands = [] ∧ s.dev.jnl.mram.read 0x2000 4 = 0) ∧
    (let root : RootObs := { good := false, entries := [], dir := [], clearSeq := [], valid := [], bands := [], queue := [], free := [], blocks := [] };
     let us : List ScanUnit := []; let d : Dev := wOn ({} : Dev) 0x14 0; let s : State := { dev := d };
     s.live = true ∧ s.dev.fget Reg.MAP_RECOVER.STATE ≠ 1 ∧ s.dev.on 0x14 = true ∧
     us.all (fun u => s.dev.scanDead root u) = true ∧ root.bands = [] ∧ s.dev.jnl.mram.read 0x2000 4 = 0) ∧
    (let s : State := {};
     s.live = true ∧ (s.dev.fget Reg.MAP_RECOVER.STATE = 1 ∨ s.dev.on 0x14 = false)) ∧
    (let d : Dev := ({} : Dev).fset Reg.MAP_RECOVER.STATE 1; let s : State := { dev := d };
     s.live = true ∧ s.dev.fget Reg.MAP_RECOVER.STATE = 1) ∧
    (let s : State := {};
     s.live = true ∧ s.dev.fget Reg.MAP_RECOVER.STATE ≠ 1) := by
  refine ⟨?_, ?_, ?_, ?_, ?_, ?_, ?_, ?_, ?_, ?_, ?_, ?_, ?_, ?_⟩ <;> decide +kernel

theorem witness_TetherLinks :
    (let n := 0; let d : Dev := (wOn ({} : Dev) 0x17 n).fset Reg.TTH_LINK.STATE 5 n;
     let d : Dev := d.fset Reg.TTH_CFG.AUTO_RETRAIN 1 n; let s : State := { dev := d };
     s.live = true ∧ s.dev.linkUp n = true ∧ s.dev.fget Reg.TTH_CFG.AUTO_RETRAIN n = 1) ∧
    (let n := 0; let d : Dev := (wOn ({} : Dev) 0x17 n).fset Reg.TTH_LINK.STATE 5 n;
     let d : Dev := d.fset Reg.TTH_CFG.AUTO_RETRAIN 0 n; let s : State := { dev := d };
     s.live = true ∧ s.dev.linkUp n = true ∧ s.dev.fget Reg.TTH_CFG.AUTO_RETRAIN n = 0) ∧
    (let n := 0; let s : State := {};
     s.live = true ∧ s.dev.linkUp n = false) ∧
    (let n := 0; let d : Dev := ({} : Dev).modLink n fun x => { x with retraining := true }
     let s : State := { dev := d };
     s.live = true ∧ (s.dev.link n).retraining = true) ∧
    (let n := 0; let d : Dev := ({} : Dev).modLink n fun x => { x with retraining := true }
     let s : State := { dev := d };
     s.live = true ∧ (s.dev.link n).retraining = true) ∧
    (let n := 0; let s : State := {};
     s.live = true ∧ (s.dev.link n).retraining = false) ∧
    (let n := 0; let o : CheckObs := { good := true, proto := 0x0100 }; let d : Dev := wOn ({} : Dev) 0x17 n;
     let s : State := { dev := d };
     s.live = true ∧ s.dev.on 0x17 n = true ∧ s.dev.linkUp n = false ∧ (s.dev.link n).retraining = false ∧
     o.good = true ∧ 4 ≤ o.lanes ∧ o.proto = 0x0100) ∧
    (let n := 0; let o : CheckObs := {}; let s : State := {};
     s.live = true ∧
     (s.dev.on 0x17 n = false ∨ s.dev.linkUp n = true ∨ (s.dev.link n).retraining = true ∨ o.good = false ∨ o.lanes < 4 ∨ o.proto ≠ 0x0100)) ∧
    (let h : RxHdr := { sled := 0, seq := 1, ack := 0, good := true };
     let d : Dev := (wOn ({} : Dev) 0x17 (h.sled)).fset Reg.TTH_LINK.STATE 5 (h.sled); let s : State := { dev := d };
     s.live = true ∧ s.dev.rxNext h = true) ∧
    (let h : RxHdr := { sled := 0, seq := 1, ack := 0, good := true }; let f : TFrame := { seq := 1, typ := 0 };
     let d : Dev := (wOn ({} : Dev) 0x17 (h.sled)).fset Reg.TTH_LINK.STATE 5 (h.sled);
     let d : Dev := d.modLink 0 fun x => { x with unacked := [f] }
     let s : State := { dev := d };
     s.live = true ∧ s.dev.rxNext h = true ∧ f.replays < 8 ∧
     ((s.dev.link h.sled).unacked.filter fun x => !linkSeqLe 4096 x.seq h.ack) = [f]) ∧
    (let h : RxHdr := { sled := 0, seq := 0, ack := 0, good := false }; let op : Nat := 0; let data := 0;
     let tag := 0; let res := 0; let temp := 0; let exec := 0; let a := 0; let b := 0; let nak : Bool := false;
     let c : Instr := .tetherLinkFrame h op data nak; let pass : Bool := false; let cw : Codeword := {};
     let xs : List Nat := []; let ys : List Nat := [];
     let d : Dev := (wOn ({} : Dev) 0x17 (h.sled)).fset Reg.TTH_LINK.STATE 5 (h.sled); let s : State := { dev := d };
     s.live = true ∧
     c ∈ [Instr.tetherLinkFrame h op data nak, .tetherResp h tag res temp exec a, .tetherRdata h tag pass cw, .tetherClaimReply h op a b xs ys, .tetherStatus h temp a xs ys] ∧
     s.dev.linkUp h.sled = true ∧
     (h.good = false ∨ h.seq % 4096 ≠ ((s.dev.link h.sled).rxSeq + 1) % 4096 ∧ linkSeqLe 4096 h.seq (s.dev.link h.sled).rxSeq = false)) ∧
    (let h : RxHdr := { sled := 0, seq := 0, ack := 0, good := true }; let op : Nat := 0; let data := 0;
     let tag := 0; let res := 0; let temp := 0; let exec := 0; let a := 0; let b := 0; let nak : Bool := false;
     let c : Instr := .tetherLinkFrame h op data nak; let pass : Bool := false; let cw : Codeword := {};
     let xs : List Nat := []; let ys : List Nat := [];
     let d : Dev := (wOn ({} : Dev) 0x17 (h.sled)).fset Reg.TTH_LINK.STATE 5 (h.sled); let s : State := { dev := d };
     s.live = true ∧
     c ∈ [Instr.tetherLinkFrame h op data nak, .tetherResp h tag res temp exec a, .tetherRdata h tag pass cw, .tetherClaimReply h op a b xs ys, .tetherStatus h temp a xs ys] ∧
     s.dev.linkUp h.sled = true ∧ h.good = true ∧ h.seq % 4096 ≠ ((s.dev.link h.sled).rxSeq + 1) % 4096 ∧
     linkSeqLe 4096 h.seq (s.dev.link h.sled).rxSeq = true) ∧
    (let h : RxHdr := { sled := 0, seq := 0, ack := 0, good := false }; let op : Nat := 0; let data := 0;
     let tag := 0; let res := 0; let temp := 0; let exec := 0; let a := 0; let b := 0; let nak : Bool := false;
     let c : Instr := .tetherLinkFrame h op data nak; let pass : Bool := false; let cw : Codeword := {};
     let xs : List Nat := []; let ys : List Nat := []; let s : State := {};
     s.live = true ∧
     c ∈ [Instr.tetherLinkFrame h op data nak, .tetherResp h tag res temp exec a, .tetherRdata h tag pass cw, .tetherClaimReply h op a b xs ys, .tetherStatus h temp a xs ys] ∧
     s.dev.linkUp h.sled = false) ∧
    (let n := 0; let f : TFrame := { seq := 0, typ := 0 };
     let d : Dev := (wOn ({} : Dev) 0x17 n).fset Reg.TTH_LINK.STATE 5 n;
     let d : Dev := d.modLink n fun x => { x with unacked := [f] }
     let s : State := { dev := d };
     s.live = true ∧ s.dev.linkUp n = true ∧ (s.dev.link n).unacked = [f] ∧ f.replays < 8) ∧
    (let n := 0; let f : TFrame := { seq := 0, typ := 0, replays := 8 };
     let d : Dev := (wOn ({} : Dev) 0x17 n).fset Reg.TTH_LINK.STATE 5 n;
     let d : Dev := d.modLink n fun x => { x with unacked := [f] }
     let d : Dev := d.fset Reg.TTH_CFG.AUTO_RETRAIN 1 n; let s : State := { dev := d };
     s.live = true ∧ s.dev.linkUp n = true ∧ (s.dev.link n).unacked = [f] ∧ 8 ≤ f.replays ∧
     s.dev.fget Reg.TTH_CFG.AUTO_RETRAIN n = 1) ∧
    (let n := 0; let s : State := {};
     s.live = true ∧ (s.dev.linkUp n = false ∨ (s.dev.link n).unacked = [])) ∧
    (let h : RxHdr := { sled := 0, seq := 1, ack := 0, good := true }; let temp := 0; let flags := 0;
     let held : List Nat := []; let d : Dev := (wOn ({} : Dev) 0x17 (h.sled)).fset Reg.TTH_LINK.STATE 5 (h.sled);
     let s : State := { dev := d };
     s.live = true ∧ s.dev.rxNext h = true ∧ temp < 256 ∧ flags < 16 ∧
     (bitOf flags 2 = false ∨ s.dev.fget Reg.TTH_OWN.CLAIM h.sled = 0 ∨ (s.dev.link h.sled).represent ≠ 0) ∧
     (∀ c ∈ List.range 8, held.getD c 0 ≤ s.dev.fget Reg.TTH_OWN.CLAIM h.sled)) ∧
    (let h : RxHdr := { sled := 0, seq := 1, ack := 0, good := true }; let flags := 4;
     let d : Dev := (wOn ({} : Dev) 0x17 (h.sled)).fset Reg.TTH_LINK.STATE 5 (h.sled);
     let d : Dev := d.fset Reg.TTH_OWN.CLAIM 1 h.sled; let d : Dev := d.fset Reg.TTH_OWN.CLAIM 6;
     let d : Dev := d.fset Reg.TTH_OWN.OWNED 3; let s : State := { dev := d };
     s.live = true ∧ s.dev.rxNext h = true ∧ bitOf flags 2 = true ∧ s.dev.fget Reg.TTH_OWN.CLAIM h.sled ≠ 0 ∧
     (s.dev.link h.sled).represent = 0) ∧
    (let n := 0; let d : Dev := wOn ({} : Dev) 0x17 n;
     let d : Dev := { d with tim := { d.tim with ns := 30000000 } }; let s : State := { dev := d };
     s.live = true ∧ s.dev.on 0x17 n = true ∧ (s.dev.link n).late = false ∧
     (s.dev.link n).lastStatus + 30000000 ≤ s.dev.now) ∧
    (let n := 0; let s : State := {};
     s.live = true ∧
     (s.dev.on 0x17 n = false ∨ (s.dev.link n).late = true ∨ s.dev.now < (s.dev.link n).lastStatus + 30000000)) := by
  refine ⟨?_, ?_, ?_, ?_, ?_, ?_, ?_, ?_, ?_, ?_, ?_, ?_, ?_, ?_, ?_, ?_, ?_, ?_, ?_, ?_⟩
  · decide +kernel
  · decide +kernel
  · decide +kernel
  · decide +kernel
  · decide +kernel
  · decide +kernel
  · decide +kernel
  · decide +kernel
  · decide +kernel
  · decide +kernel
  · exact ⟨by decide +kernel, by first | decide +kernel | rfl | simp [URec.laddr], by decide +kernel, by decide +kernel⟩
  · exact ⟨by decide +kernel, by first | decide +kernel | rfl | simp [URec.laddr], by decide +kernel, by decide +kernel, by decide +kernel, by decide +kernel⟩
  · exact ⟨by decide +kernel, by first | decide +kernel | rfl | simp [URec.laddr], by decide +kernel⟩
  · decide +kernel
  · decide +kernel
  · decide +kernel
  · decide +kernel
  · decide +kernel
  · decide +kernel
  · decide +kernel

theorem witness_Claims :
    (let epoch := 1; let n := 0; let channels := 0; let d : Dev := ({} : Dev).fset Reg.TTH_CLAIM_STAT.BUSY 0;
     let d : Dev := wOn d 0x17 0; let s : State := { dev := d };
     s.live = true ∧ n < 24 ∧ channels < 256 ∧ 0 < epoch ∧ epoch < 2 ^ 31 ∧ s.dev.fget Reg.TTH_CLAIM_STAT.BUSY = 0 ∧
     s.dev.isEnabled 0x19 = false ∧ s.dev.on 0x17 = true ∧ s.dev.fget Reg.TTH_CLAIM_STAT.LAST_EPOCH ≤ epoch) ∧
    (let epoch := 0; let d : Dev := ({} : Dev).fset Reg.TTH_CLAIM_STAT.BUSY 0;
     let d : Dev := d.fset Reg.TTH_CLAIM_STAT.LAST_EPOCH 7; let s : State := { dev := d };
     s.live = true ∧ s.dev.fget Reg.TTH_CLAIM_STAT.BUSY = 0 ∧
     (s.dev.isEnabled 0x19 = true ∨ epoch < s.dev.fget Reg.TTH_CLAIM_STAT.LAST_EPOCH)) ∧
    (let epoch := 0; let s : State := {};
     s.live = true ∧
     (s.dev.fget Reg.TTH_CLAIM_STAT.BUSY = 1 ∨ s.dev.isEnabled 0x19 = false ∧ s.dev.fget Reg.TTH_CLAIM_STAT.LAST_EPOCH ≤ epoch ∧ (epoch = 0 ∨ s.dev.on 0x17 = false))) ∧
    (let h : RxHdr := { sled := 0, seq := 1, ack := 0, good := true }; let held : List Nat := [];
     let x : ClaimX := { epoch := 0, sleds := 0, channels := 0, waiting := 1 };
     let d : Dev := (wOn ({} : Dev) 0x17 (h.sled)).fset Reg.TTH_LINK.STATE 5 (h.sled);
     let d : Dev := { d with claimX := some x }; let s : State := { dev := d };
     s.live = true ∧ s.dev.rxNext h = true ∧ (s.dev.link h.sled).represent = 0 ∧ s.dev.claimX = some x ∧
     x.waiting = 2 ^ h.sled ∧ x.channels < 256 ∧
     (∀ c ∈ List.range 8, held.getD c 0 ≤ s.dev.fget Reg.TTH_OWN.CLAIM h.sled)) ∧
    (let h : RxHdr := { sled := 0, seq := 1, ack := 0, good := true }; let held : List Nat := [];
     let x : ClaimX := { epoch := 0, sleds := 0, channels := 0, waiting := 3 };
     let d : Dev := (wOn ({} : Dev) 0x17 (h.sled)).fset Reg.TTH_LINK.STATE 5 (h.sled);
     let d : Dev := { d with claimX := some x }; let s : State := { dev := d };
     s.live = true ∧ s.dev.rxNext h = true ∧ (s.dev.link h.sled).represent = 0 ∧ s.dev.claimX = some x ∧
     bitOf x.waiting h.sled = true ∧ x.waiting ≠ 2 ^ h.sled ∧ x.channels < 256 ∧
     (∀ c ∈ List.range 8, held.getD c 0 ≤ s.dev.fget Reg.TTH_OWN.CLAIM h.sled)) ∧
    (let h : RxHdr := { sled := 0, seq := 1, ack := 0, good := true }; let claim := 0; let held : List Nat := [];
     let d : Dev := (wOn ({} : Dev) 0x17 (h.sled)).fset Reg.TTH_LINK.STATE 5 (h.sled); let s : State := { dev := d };
     s.live = true ∧ s.dev.rxNext h = true ∧
     (claim ≠ s.dev.fget Reg.TTH_OWN.CLAIM h.sled ∨ s.dev.claimX = none ∧ (s.dev.link h.sled).represent = 0) ∧
     (∀ c ∈ List.range 8, held.getD c 0 ≤ s.dev.fget Reg.TTH_OWN.CLAIM h.sled)) ∧
    (let h : RxHdr := { sled := 0, seq := 1, ack := 0, good := true }; let rejected := 0; let r := 5;
     let held : List Nat := []; let d : Dev := (wOn ({} : Dev) 0x17 (h.sled)).fset Reg.TTH_LINK.STATE 5 (h.sled);
     let d : Dev := d.modLink 0 fun x => { x with represent := 5 }
     let s : State := { dev := d };
     s.live = true ∧ s.dev.rxNext h = true ∧ r = (s.dev.link h.sled).represent ∧ r ≠ 0 ∧ r < 256 ∧
     s.dev.claimX = none ∧ rejected &&& r = 0 ∧
     (∀ c ∈ List.range 8, held.getD c 0 ≤ s.dev.fget Reg.TTH_OWN.CLAIM h.sled)) ∧
    (let h : RxHdr := { sled := 0, seq := 1, ack := 0, good := true }; let k := 0; let claim := 0; let a := 0;
     let b := 0; let temp := 0; let flags := 0; let held : List Nat := [7]; let busy : List Nat := [];
     let c : Instr := .tetherClaimReply h claim a b held busy; let temps : List Nat := [];
     let d : Dev := (wOn ({} : Dev) 0x17 (h.sled)).fset Reg.TTH_LINK.STATE 5 (h.sled);
     let d : Dev := d.fset Reg.TTH_OWN.OWNED 255 (h.sled); let d : Dev := d.fset Reg.TTH_OWN.OWNED 1;
     let s : State := { dev := d };
     s.live = true ∧ c ∈ [Instr.tetherClaimReply h claim a b held busy, .tetherStatus h temp flags held temps] ∧
     s.dev.rxNext h = true ∧ bitOf flags 2 = false ∧ k < 8 ∧ s.dev.owns h.sled k = true ∧
     s.dev.fget Reg.TTH_OWN.CLAIM h.sled < held.getD k 0) ∧
    (let n := 0; let k := 0; let x : ClaimX := { epoch := 0, sleds := 0, channels := 0, waiting := 1 };
     let d : Dev := { ({} : Dev) with claimX := some x }; let s : State := { dev := d };
     s.live = true ∧ s.dev.claimX = some x ∧ bitOf x.waiting n = true ∧ k = (Tab.look x.resends n).getD 0 ∧ k < 2) ∧
    (let n := 0; let x : ClaimX := { epoch := 0, sleds := 0, channels := 0, waiting := 1, resends := [(0, 2)] };
     let d : Dev := { ({} : Dev) with claimX := some x }; let s : State := { dev := d };
     s.live = true ∧ s.dev.claimX = some x ∧ x.waiting = 2 ^ n ∧ 2 ≤ (Tab.look x.resends n).getD 0) ∧
    (let n := 0; let x : ClaimX := { epoch := 0, sleds := 0, channels := 0, waiting := 3, resends := [(0, 2)] };
     let d : Dev := { ({} : Dev) with claimX := some x }; let s : State := { dev := d };
     s.live = true ∧ s.dev.claimX = some x ∧ bitOf x.waiting n = true ∧ x.waiting ≠ 2 ^ n ∧
     2 ≤ (Tab.look x.resends n).getD 0) ∧
    (let n := 0; let s : State := {};
     s.live = true ∧ (s.dev.claimX.any fun x => bitOf x.waiting n) = false) ∧
    (let h : RxHdr := { sled := 0, seq := 1, ack := 0, good := true }; let tag := 0;
     let o : NandOp := { use := .read 0 0 0 false, opcode := 0, channel := 0, die := 0, plane := 0, block := 0, page := 0, issued := 0 };
     let d : Dev := (wOn ({} : Dev) 0x17 (h.sled)).fset Reg.TTH_LINK.STATE 5 (h.sled);
     let d : Dev := { d with media := { d.media with ops := Tab.put d.media.ops (h.sled * 4096 + tag) o } };
     let d : Dev := d.fset Reg.TTH_OWN.OWNED 255 (h.sled); let s : State := { dev := d };
     s.live = true ∧ s.dev.rxNext h = true ∧ Tab.look s.dev.media.ops (h.sled * 4096 + tag) = some o ∧
     s.dev.owns h.sled o.channel = true) ∧
    (let h : RxHdr := { sled := 0, seq := 1, ack := 0, good := true }; let tag := 0; let held := 0;
     let o : NandOp := { use := .read 0 0 0 false, opcode := 0, channel := 0, die := 0, plane := 0, block := 0, page := 0, issued := 0 };
     let d : Dev := (wOn ({} : Dev) 0x17 (h.sled)).fset Reg.TTH_LINK.STATE 5 (h.sled);
     let d : Dev := { d with media := { d.media with ops := Tab.put d.media.ops (h.sled * 4096 + tag) o } };
     let d : Dev := d.fset Reg.TTH_OWN.CLAIM 1 h.sled; let s : State := { dev := d };
     s.live = true ∧ s.dev.rxNext h = true ∧ Tab.look s.dev.media.ops (h.sled * 4096 + tag) = some o ∧
     held ≤ s.dev.fget Reg.TTH_OWN.CLAIM h.sled ∧ s.dev.fget Reg.TTH_OWN.CLAIM h.sled ≠ 0 ∧
     (s.dev.link h.sled).represent = 0) := by
  refine ⟨?_, ?_, ?_, ?_, ?_, ?_, ?_, ?_, ?_, ?_, ?_, ?_, ?_, ?_⟩
  · decide +kernel
  · decide +kernel
  · decide +kernel
  · decide +kernel
  · decide +kernel
  · decide +kernel
  · decide +kernel
  · exact ⟨by decide +kernel, by first | decide +kernel | rfl | simp [URec.laddr], by decide +kernel, by decide +kernel, by decide +kernel, by decide +kernel, by decide +kernel⟩
  · decide +kernel
  · decide +kernel
  · decide +kernel
  · decide +kernel
  · decide +kernel
  · decide +kernel

theorem witness_NandOperations :
    (let h : RxHdr := { sled := 0, seq := 1, ack := 0, good := true }; let tag := 0; let held := 0; let st := 0;
     let ch := 0;
     let o : NandOp := { use := .program 0 0, opcode := 0, channel := 0, die := 0, plane := 0, block := 0, page := 0, issued := 0 };
     let x : Stripe := { band := 0, page := 0 };
     let d : Dev := (wOn ({} : Dev) 0x17 (h.sled)).fset Reg.TTH_LINK.STATE 5 (h.sled);
     let d : Dev := { d with media := { d.media with ops := Tab.put d.media.ops (h.sled * 4096 + tag) o } };
     let d : Dev := { d with stripe := { d.stripe with stripes := Tab.put d.stripe.stripes st x } };
     let s : State := { dev := d };
     s.live = true ∧ s.dev.rxNext h = true ∧ Tab.look s.dev.media.ops (h.sled * 4096 + tag) = some o ∧
     o.use ∈ [.program st ch, .dump st ch] ∧ held ≤ s.dev.fget Reg.TTH_OWN.CLAIM h.sled ∧
     Tab.look s.dev.stripe.stripes st = some x) ∧
    (let h : RxHdr := { sled := 0, seq := 1, ack := 0, good := true }; let tag := 0; let held := 0; let st := 0;
     let ch := 0;
     let o : NandOp := { use := .program st ch, opcode := 0, channel := 0, die := 0, plane := 0, block := 0, page := 0, issued := 0 };
     let x : Stripe := { band := 0, page := 0 }; let b : Band := { state := .queued, k := 0, m := 0 };
     let d : Dev := (wOn ({} : Dev) 0x17 (h.sled)).fset Reg.TTH_LINK.STATE 5 (h.sled);
     let d : Dev := { d with media := { d.media with ops := Tab.put d.media.ops (h.sled * 4096 + tag) o } };
     let d : Dev := { d with stripe := { d.stripe with stripes := Tab.put d.stripe.stripes st x } };
     let d : Dev := { d with stripe := { d.stripe with bands := Tab.put d.stripe.bands x.band b } };
     let s : State := { dev := d };
     s.live = true ∧ s.dev.rxNext h = true ∧ Tab.look s.dev.media.ops (h.sled * 4096 + tag) = some o ∧
     o.use = .program st ch ∧ held ≤ s.dev.fget Reg.TTH_OWN.CLAIM h.sled ∧ Tab.look s.dev.stripe.stripes st = some x ∧
     Tab.look s.dev.stripe.bands x.band = some b) ∧
    (let h : RxHdr := { sled := 0, seq := 1, ack := 0, good := true }; let tag := 0; let res := 0; let held := 0;
     let n := 0; let i : Nat := 0;
     let o : NandOp := { use := .erase n i, opcode := 0, channel := 0, die := 0, plane := 0, block := 0, page := 0, issued := 0 };
     let k : Chunk := { group := 0, die := 0, plane := 0, block := 0 };
     let b : Band := { state := .erasing, k := 0, m := 0, chunks := [k] };
     let d : Dev := (wOn ({} : Dev) 0x17 (h.sled)).fset Reg.TTH_LINK.STATE 5 (h.sled);
     let d : Dev := { d with media := { d.media with ops := Tab.put d.media.ops (h.sled * 4096 + tag) o } };
     let d : Dev := { d with stripe := { d.stripe with bands := Tab.put d.stripe.bands n b } };
     let s : State := { dev := d };
     s.live = true ∧ s.dev.rxNext h = true ∧ Tab.look s.dev.media.ops (h.sled * 4096 + tag) = some o ∧
     o.use = .erase n i ∧ held ≤ s.dev.fget Reg.TTH_OWN.CLAIM h.sled ∧ Tab.look s.dev.stripe.bands n = some b ∧
     b.state = .erasing ∧ b.chunks[i]? = some k ∧ res ∉ [2, 9]) ∧
    (let h : RxHdr := { sled := 0, seq := 1, ack := 0, good := true }; let tag := 0; let held := 0; let k := 1;
     let x : NandOp := { use := .read 0 0 0 false, opcode := 3, channel := 0, die := 0, plane := 0, block := 0, page := 0, issued := 0 };
     let g1 : Bool := false;
     let o : NandOp := { use := .suspend g1, opcode := 5, channel := 0, die := 0, plane := 0, block := 0, page := 0, issued := 0 };
     let d : Dev := (wOn ({} : Dev) 0x17 (h.sled)).fset Reg.TTH_LINK.STATE 5 (h.sled);
     let d : Dev := { d with media := { d.media with ops := [(h.sled * 4096 + tag, o), (k, x)] } };
     let s : State := { dev := d };
     s.live = true ∧ s.dev.rxNext h = true ∧ s.dev.media.ops = [(h.sled * 4096 + tag, o), (k, x)] ∧
     k ≠ h.sled * 4096 + tag ∧ k / 4096 = h.sled ∧ x.channel = o.channel ∧ x.die = o.die ∧ x.opcode = 3 ∧
     o.use = .suspend g1 ∧ o.opcode = 5 ∧ held ≤ s.dev.fget Reg.TTH_OWN.CLAIM h.sled) ∧
    (let h : RxHdr := { sled := 0, seq := 1, ack := 0, good := true }; let tag := 0; let held := 0; let k := 1;
     let o : NandOp := { use := .resume, opcode := 6, channel := 0, die := 0, plane := 0, block := 0, page := 0, issued := 0 };
     let x : NandOp := { use := .read 0 0 0 false, opcode := 4, channel := 0, die := 0, plane := 0, block := 0, page := 0, issued := 0 };
     let d : Dev := (wOn ({} : Dev) 0x17 (h.sled)).fset Reg.TTH_LINK.STATE 5 (h.sled);
     let d : Dev := { d with media := { d.media with ops := [(h.sled * 4096 + tag, o), (k, x)] } };
     let s : State := { dev := d };
     s.live = true ∧ s.dev.rxNext h = true ∧ s.dev.media.ops = [(h.sled * 4096 + tag, o), (k, x)] ∧
     k ≠ h.sled * 4096 + tag ∧ k / 4096 = h.sled ∧ x.channel = o.channel ∧ x.die = o.die ∧ x.opcode = 4 ∧
     o.use = .resume ∧ o.opcode = 6 ∧ held ≤ s.dev.fget Reg.TTH_OWN.CLAIM h.sled) ∧
    (let h : RxHdr := { sled := 0, seq := 1, ack := 0, good := true }; let tag := 0; let res := 0; let temp := 0;
     let exec := 0; let held := 0; let c : Instr := .tetherResp h tag res temp exec held; let pass : Bool := false;
     let cw : Codeword := {}; let d : Dev := (wOn ({} : Dev) 0x17 (h.sled)).fset Reg.TTH_LINK.STATE 5 (h.sled);
     let s : State := { dev := d };
     s.live = true ∧ c ∈ [Instr.tetherResp h tag res temp exec held, .tetherRdata h tag pass cw] ∧
     s.dev.rxNext h = true ∧ Tab.look s.dev.media.ops (h.sled * 4096 + tag) = none) ∧
    (let h : RxHdr := { sled := 0, seq := 1, ack := 0, good := true }; let tag := 0; let j := 0; let i : Nat := 0;
     let l := 0; let g1 : Bool := false;
     let o : NandOp := { use := .read j i l g1, opcode := 0, channel := 0, die := 0, plane := 0, block := 0, page := 0, issued := 0 };
     let u : JobUnit := { entry := 0 };
     let job : ReadJob := { ctx := 0, cmdref := 0, tenant := 0, nsh := 0, rope := 0, admNo := 0, lookup := 0, dest := 0, grade := 0, units := [u] };
     let d : Dev := (wOn ({} : Dev) 0x17 (h.sled)).fset Reg.TTH_LINK.STATE 5 (h.sled);
     let d : Dev := { d with media := { d.media with ops := Tab.put d.media.ops (h.sled * 4096 + tag) o } };
     let d : Dev := { d with media := { d.media with jobs := Tab.put d.media.jobs j job } };
     let s : State := { dev := d };
     s.live = true ∧ s.dev.rxNext h = true ∧ Tab.look s.dev.media.ops (h.sled * 4096 + tag) = some o ∧
     o.use = .read j i l g1 ∧ Tab.look s.dev.media.jobs j = some job ∧ job.units[i]? = some u) ∧
    (let h : RxHdr := { sled := 0, seq := 1, ack := 0, good := true }; let tag := 0; let j := 0; let i : Nat := 0;
     let l := 0; let g1 : Bool := false;
     let o : NandOp := { use := .read j i l g1, opcode := 0, channel := 0, die := 0, plane := 0, block := 0, page := 0, issued := 0 };
     let u : JobUnit := { entry := 0 };
     let job : ReadJob := { ctx := 0, cmdref := 0, tenant := 0, nsh := 0, rope := 0, admNo := 0, lookup := 0, dest := 0, grade := 0, units := [u] };
     let d : Dev := (wOn ({} : Dev) 0x17 (h.sled)).fset Reg.TTH_LINK.STATE 5 (h.sled);
     let d : Dev := { d with media := { d.media with ops := Tab.put d.media.ops (h.sled * 4096 + tag) o } };
     let d : Dev := { d with media := { d.media with jobs := Tab.put d.media.jobs j job } };
     let s : State := { dev := d };
     s.live = true ∧ s.dev.rxNext h = true ∧ Tab.look s.dev.media.ops (h.sled * 4096 + tag) = some o ∧
     o.use = .read j i l g1 ∧ Tab.look s.dev.media.jobs j = some job ∧ job.units[i]? = some u ∧ u.level < 3) ∧
    (let h : RxHdr := { sled := 0, seq := 1, ack := 0, good := true }; let tag := 0; let j := 0; let i : Nat := 0;
     let l := 0; let g1 : Bool := false;
     let o : NandOp := { use := .read j i l g1, opcode := 0, channel := 0, die := 0, plane := 0, block := 0, page := 0, issued := 0 };
     let u : JobUnit := { entry := 0, level := 4 };
     let job : ReadJob := { ctx := 0, cmdref := 0, tenant := 0, nsh := 0, rope := 0, admNo := 0, lookup := 0, dest := 0, grade := 0, units := [u, ({ entry := 0 } : JobUnit)] };
     let d : Dev := (wOn ({} : Dev) 0x17 (h.sled)).fset Reg.TTH_LINK.STATE 5 (h.sled);
     let d : Dev := { d with media := { d.media with ops := Tab.put d.media.ops (h.sled * 4096 + tag) o } };
     let d : Dev := { d with media := { d.media with jobs := Tab.put d.media.jobs j job } };
     let s : State := { dev := d };
     s.live = true ∧ s.dev.rxNext h = true ∧ Tab.look s.dev.media.ops (h.sled * 4096 + tag) = some o ∧
     o.use = .read j i l g1 ∧ Tab.look s.dev.media.jobs j = some job ∧ job.units[i]? = some u ∧ 4 ≤ u.level ∧
     (job.units.zipIdx.all fun p => p.2 = i || p.1.done) = false) ∧
    (let h : RxHdr := { sled := 0, seq := 1, ack := 0, good := true }; let tag := 0; let j := 0; let i : Nat := 0;
     let pos := 0; let n := 0;
     let o : NandOp := { use := .rebuild j i pos, opcode := 0, channel := 0, die := 0, plane := 0, block := 0, page := 0, issued := 0 };
     let u : JobUnit := { entry := 4, rebuildLeft := 2, decoded := false };
     let job : ReadJob := { ctx := 0, cmdref := 0, tenant := 0, nsh := 0, rope := 0, admNo := 0, lookup := 0, dest := 0, grade := 0, units := [u] };
     let b : Band := { state := .queued, k := 3, m := 0, chunks := [{ group := 0, die := 0, plane := 0, block := 0 }] };
     let cw : Codeword := {}; let d : Dev := (wOn ({} : Dev) 0x17 (h.sled)).fset Reg.TTH_LINK.STATE 5 (h.sled);
     let d : Dev := { d with media := { d.media with ops := Tab.put d.media.ops (h.sled * 4096 + tag) o } };
     let d : Dev := { d with media := { d.media with jobs := Tab.put d.media.jobs j job } };
     let d : Dev := { d with stripe := { d.stripe with bands := [(n, b)] } }; let s : State := { dev := d };
     s.live = true ∧ s.dev.rxNext h = true ∧ Tab.look s.dev.media.ops (h.sled * 4096 + tag) = some o ∧
     o.use = .rebuild j i pos ∧ Tab.look s.dev.media.jobs j = some job ∧ job.units[i]? = some u ∧
     s.dev.bandOf u.entry = some (n, b) ∧ (Tab.put u.rebuilt pos cw).length < b.k ∧ 2 ≤ u.rebuildLeft ∧
     u.decoded = false) ∧
    (let n := 0; let tag := 0; let j := 0; let i : Nat := 0; let l := 0; let g1 : Bool := false;
     let o : NandOp := { use := .read j i l g1, opcode := 0, channel := 0, die := 0, plane := 0, block := 0, page := 0, issued := 0 };
     let u : JobUnit := { entry := 0, level := 0 };
     let job : ReadJob := { ctx := 0, cmdref := 0, tenant := 0, nsh := 0, rope := 0, admNo := 0, lookup := 0, dest := 0, grade := 0, units := [u] };
     let d : Dev := {};
     let d : Dev := { d with media := { d.media with ops := Tab.put d.media.ops (n * 4096 + tag) o } };
     let d : Dev := { d with media := { d.media with jobs := Tab.put d.media.jobs j job } };
     let s : State := { dev := d };
     s.live = true ∧ Tab.look s.dev.media.ops (n * 4096 + tag) = some o ∧ s.dev.overdue n o = true ∧
     o.use = .read j i l g1 ∧ Tab.look s.dev.media.jobs j = some job ∧ job.units[i]? = some u ∧ u.level = 0) ∧
    (let n := 0; let tag := 0; let s : State := {};
     s.live = true ∧ ((Tab.look s.dev.media.ops (n * 4096 + tag)).any fun o => s.dev.overdue n o) = false) ∧
    (let tag := 0;
     let q : NandReq := { use := .read 0 0 0 false, opcode := 1, sled := 0, channel := 0, die := 0, plane := 0, block := 0, page := 0 };
     let d : Dev := {}; let d : Dev := { d with media := { d.media with reqs := [q] } };
     let d : Dev := { d with media := { d.media with sleds := if (d.sled (q.sled)).isSome then d.media.sleds else Tab.put d.media.sleds (q.sled) { cell := 0, channels := 0, dies := 0, planes := 0, profile := 0, blocks := 0, pages := 0, phys := 0, trMax := 0, xCh := 0, tsusMax := 0, tprogMax := 0, tbersMax := 0, susMax := 0, g1Sus := 0, peRated := 0, tresMin := 0, tempMax := 0, step := 0, tslcMax := 0 } } };
     let d : Dev := (((wOn d 0x17 (q.sled)).fset Reg.TTH_LINK.STATE 5 (q.sled)).fset Reg.TTH_OWN.OWNED 255 (q.sled)).modLink (q.sled) fun x => { x with opCredits := 1 }
     let d : Dev := { d with media := { d.media with gates := { cycle := 10, lists := [[{ kind := 0, ns := 10 }]], groups := [(0, 0)] } } };
     let d : Dev := d.setDom 43 { state := 0, req := 0 }; let s : State := { dev := d };
     s.live = true ∧ s.dev.media.reqs = [q] ∧ q.opcode = 1 ∧ s.dev.canIssue q tag = true ∧
     (s.dev.window (q.sled * 8 + q.channel) s.dev.now).map (·.1) = some 0 ∧
     ((s.dev.dieOp q.sled q.channel q.die).all fun o => o.2.suspended) = true ∧ s.dev.quiet = false ∧
     s.dev.slotFree q = true ∧ s.dev.decoderUp = true) ∧
    (let n := 0; let tag := 0; let s : State := {};
     s.live = true ∧
     ((s.dev.media.reqs[n]?).any fun q => decide (q.opcode = 1 ∨ q.opcode = 2) && s.dev.canIssue q tag && !s.dev.quiet && s.dev.slotFree q && s.dev.decoderUp) = false) ∧
    (let tag := 0; let b := 0; let c := 0;
     let q : NandReq := { use := .erase b c, opcode := 4, sled := 0, channel := 0, die := 0, plane := 0, block := 0, page := 0 };
     let r : SledRec := { cell := 0, channels := 0, dies := 0, planes := 0, profile := 0, blocks := 0, pages := 0, phys := 0, trMax := 0, xCh := 0, tsusMax := 0, tprogMax := 0, tbersMax := 0, susMax := 0, g1Sus := 0, peRated := 0, tresMin := 0, tempMax := 0, step := 0, tslcMax := 0 };
     let d : Dev := {}; let d : Dev := { d with media := { d.media with reqs := [q] } };
     let d : Dev := { d with media := { d.media with sleds := Tab.put d.media.sleds (q.sled) r } };
     let d : Dev := { d with media := { d.media with sleds := if (d.sled (q.sled)).isSome then d.media.sleds else Tab.put d.media.sleds (q.sled) { cell := 0, channels := 0, dies := 0, planes := 0, profile := 0, blocks := 0, pages := 0, phys := 0, trMax := 0, xCh := 0, tsusMax := 0, tprogMax := 0, tbersMax := 0, susMax := 0, g1Sus := 0, peRated := 0, tresMin := 0, tempMax := 0, step := 0, tslcMax := 0 } } };
     let d : Dev := (((wOn d 0x17 (q.sled)).fset Reg.TTH_LINK.STATE 5 (q.sled)).fset Reg.TTH_OWN.OWNED 255 (q.sled)).modLink (q.sled) fun x => { x with opCredits := 1 }
     let d : Dev := { d with media := { d.media with gates := { cycle := 10, lists := [[{ kind := 2, ns := 10 }]], groups := [(0, 0)] } } };
     let s : State := { dev := d };
     s.live = true ∧ s.dev.media.reqs = [q] ∧ q.opcode = 4 ∧ q.use = .erase b c ∧ s.dev.sled q.sled = some r ∧
     s.dev.canIssue q tag = true ∧ (s.dev.window (q.sled * 8 + q.channel) s.dev.now).map (·.1) = some 2 ∧
     s.dev.windowMeets (q.sled * 8 + q.channel) 2 (r.tbersMax * 1000) ≤ r.susMax - r.g1Sus ∧
     s.dev.media.throttled.contains (q.sled * 128 + q.channel * 16 + q.die) = false ∧
     s.dev.dieOp q.sled q.channel q.die = none ∧ s.dev.quiet = false) ∧
    (let tag := 0; let st := 0; let ch := 0;
     let q : NandReq := { use := .program st ch, opcode := 3, sled := 0, channel := 0, die := 0, plane := 0, block := 0, page := 1 };
     let r : SledRec := { cell := 0, channels := 0, dies := 0, planes := 0, profile := 0, blocks := 0, pages := 0, phys := 0, trMax := 0, xCh := 0, tsusMax := 0, tprogMax := 0, tbersMax := 0, susMax := 0, g1Sus := 0, peRated := 0, tresMin := 0, tempMax := 0, step := 0, tslcMax := 0 };
     let x : Stripe := { band := 0, page := 0 }; let b : Band := { state := .queued, k := 0, m := 0 };
     let d : Dev := {}; let d : Dev := { d with media := { d.media with reqs := [q] } };
     let d : Dev := { d with media := { d.media with sleds := Tab.put d.media.sleds (q.sled) r } };
     let d : Dev := { d with media := { d.media with sleds := if (d.sled (q.sled)).isSome then d.media.sleds else Tab.put d.media.sleds (q.sled) { cell := 0, channels := 0, dies := 0, planes := 0, profile := 0, blocks := 0, pages := 0, phys := 0, trMax := 0, xCh := 0, tsusMax := 0, tprogMax := 0, tbersMax := 0, susMax := 0, g1Sus := 0, peRated := 0, tresMin := 0, tempMax := 0, step := 0, tslcMax := 0 } } };
     let d : Dev := (((wOn d 0x17 (q.sled)).fset Reg.TTH_LINK.STATE 5 (q.sled)).fset Reg.TTH_OWN.OWNED 255 (q.sled)).modLink (q.sled) fun x => { x with opCredits := 1 }
     let d : Dev := { d with stripe := { d.stripe with stripes := Tab.put d.stripe.stripes st x } };
     let d : Dev := { d with stripe := { d.stripe with bands := Tab.put d.stripe.bands x.band b } };
     let d : Dev := { d with media := { d.media with gates := { cycle := 10, lists := [[{ kind := 1, ns := 10 }]], groups := [(0, 0)] } } };
     let d : Dev := d.modLink 0 fun x => { x with dataCredits := 4 }
     let s : State := { dev := d };
     s.live = true ∧ s.dev.media.reqs = [q] ∧ q.opcode = 3 ∧ q.use = .program st ch ∧ s.dev.sled q.sled = some r ∧
     s.dev.canIssue q tag = true ∧ (s.dev.window (q.sled * 8 + q.channel) s.dev.now).map (·.1) = some 1 ∧
     s.dev.windowMeets (q.sled * 8 + q.channel) 1 (r.tprogMax * 1000) ≤ r.susMax - r.g1Sus ∧
     s.dev.media.throttled.contains (q.sled * 128 + q.channel * 16 + q.die) = false ∧
     s.dev.dieOp q.sled q.channel q.die = none ∧ s.dev.quiet = false ∧
     (q.page ≠ 0 ∨ bitOf (s.dev.blkFlags q.chunk) 3 = true) ∧ 4 ≤ (s.dev.link q.sled).dataCredits ∧
     Tab.look s.dev.stripe.stripes st = some x ∧ Tab.look s.dev.stripe.bands x.band = some b) ∧
    (let n := 0; let tag := 0; let s : State := {};
     s.live = true ∧
     ((s.dev.media.reqs[n]?).any fun q => decide (q.opcode = 3 ∨ q.opcode = 4) && s.dev.canIssue q tag && decide (q.opcode = 4 ∨ 4 ≤ (s.dev.link q.sled).dataCredits)) = false) ∧
    (let n := 0; let ch := 0; let die := 0; let tag := 1; let k := 0; let b := 0; let c := 0;
     let o : NandOp := { use := .erase b c, opcode := 4, channel := 0, die := 0, plane := 0, block := 0, page := 0, issued := 0, suspended := false };
     let r : SledRec := ({ cell := 0, channels := 0, dies := 0, planes := 0, profile := 0, blocks := 0, pages := 0, phys := 0, trMax := 0, xCh := 0, tsusMax := 0, tprogMax := 0, tbersMax := 0, susMax := 4, g1Sus := 2, peRated := 0, tresMin := 0, tempMax := 0, step := 0, tslcMax := 0 } : SledRec);
     let d : Dev := {}; let d : Dev := { d with media := { d.media with ops := [(k, o)] } };
     let d : Dev := { d with media := { d.media with sleds := Tab.put d.media.sleds n r } };
     let d : Dev := { d with media := { d.media with sleds := if (d.sled n).isSome then d.media.sleds else Tab.put d.media.sleds n { cell := 0, channels := 0, dies := 0, planes := 0, profile := 0, blocks := 0, pages := 0, phys := 0, trMax := 0, xCh := 0, tsusMax := 0, tprogMax := 0, tbersMax := 0, susMax := 0, g1Sus := 0, peRated := 0, tresMin := 0, tempMax := 0, step := 0, tslcMax := 0 } } };
     let d : Dev := (((wOn d 0x17 n).fset Reg.TTH_LINK.STATE 5 n).fset Reg.TTH_OWN.OWNED 255 n).modLink n fun x => { x with opCredits := 1 }
     let d : Dev := { d with media := { d.media with sleds := [(0, ({ cell := 0, channels := 0, dies := 0, planes := 0, profile := 0, blocks := 0, pages := 0, phys := 0, trMax := 0, xCh := 0, tsusMax := 0, tprogMax := 0, tbersMax := 0, susMax := 4, g1Sus := 2, peRated := 0, tresMin := 0, tempMax := 0, step := 0, tslcMax := 0 } : SledRec))] } };
     let s : State := { dev := d };
     s.live = true ∧ s.dev.media.ops = [(k, o)] ∧ s.dev.dieOp n ch die = some (k, o) ∧ s.dev.sled n = some r ∧
     o.suspended = false ∧ o.use = .erase b c ∧ s.dev.g1May n ch die s.dev.now = true ∧
     s.dev.canIssue { use := .suspend true, opcode := 5, sled := n, channel := ch, die := die, plane := o.plane, block := 0, page := 0 } tag = true) ∧
    (let n := 0; let ch := 0; let die := 0; let tag := 1; let k := 0; let b := 0; let c := 0; let kind := 1;
     let rest := 10;
     let o : NandOp := { use := .program b c, opcode := 3, channel := 0, die := 0, plane := 0, block := 0, page := 0, issued := 0, suspended := false };
     let r : SledRec := ({ cell := 0, channels := 0, dies := 0, planes := 0, profile := 0, blocks := 0, pages := 0, phys := 0, trMax := 0, xCh := 0, tsusMax := 1, tprogMax := 0, tbersMax := 0, susMax := 4, g1Sus := 2, peRated := 0, tresMin := 0, tempMax := 0, step := 0, tslcMax := 0 } : SledRec);
     let d : Dev := {}; let d : Dev := { d with media := { d.media with ops := [(k, o)] } };
     let d : Dev := { d with media := { d.media with sleds := Tab.put d.media.sleds n r } };
     let d : Dev := { d with media := { d.media with sleds := if (d.sled n).isSome then d.media.sleds else Tab.put d.media.sleds n { cell := 0, channels := 0, dies := 0, planes := 0, profile := 0, blocks := 0, pages := 0, phys := 0, trMax := 0, xCh := 0, tsusMax := 0, tprogMax := 0, tbersMax := 0, susMax := 0, g1Sus := 0, peRated := 0, tresMin := 0, tempMax := 0, step := 0, tslcMax := 0 } } };
     let d : Dev := (((wOn d 0x17 n).fset Reg.TTH_LINK.STATE 5 n).fset Reg.TTH_OWN.OWNED 255 n).modLink n fun x => { x with opCredits := 1 }
     let d : Dev := { d with media := { d.media with sleds := [(0, ({ cell := 0, channels := 0, dies := 0, planes := 0, profile := 0, blocks := 0, pages := 0, phys := 0, trMax := 0, xCh := 0, tsusMax := 0, tprogMax := 0, tbersMax := 0, susMax := 4, g1Sus := 2, peRated := 0, tresMin := 0, tempMax := 0, step := 0, tslcMax := 0 } : SledRec))] } };
     let d : Dev := { d with media := { d.media with sleds := [(0, r)], gates := { cycle := 10, lists := [[{ kind := 1, ns := 10 }]], groups := [(0, 0)] } } };
     let s : State := { dev := d };
     s.live = true ∧ s.dev.media.ops = [(k, o)] ∧ s.dev.dieOp n ch die = some (k, o) ∧ s.dev.sled n = some r ∧
     o.suspended = false ∧ o.use = .program b c ∧ o.sched + o.g1 < r.susMax ∧
     s.dev.window (n * 8 + ch) s.dev.now = some (kind, rest) ∧ kind ≠ 0 ∧ rest ≤ r.tsusMax * 100 ∧
     s.dev.canIssue { use := .suspend false, opcode := 5, sled := n, channel := ch, die := die, plane := o.plane, block := 0, page := 0 } tag = true) ∧
    (let n := 0; let ch := 0; let die := 0; let g1 : Bool := false; let s : State := {};
     s.live = true ∧
     (s.dev.sled n = none ∨ ((s.dev.dieOp n ch die).any fun o => !o.2.suspended && !o.2.use.isDump) = false ∨ g1 = true ∧ s.dev.g1May n ch die s.dev.now = false)) ∧
    (let n := 0; let ch := 0; let die := 0; let tag := 1; let k := 0;
     let o : NandOp := { use := .read 0 0 0 false, opcode := 4, channel := 0, die := 0, plane := 0, block := 0, page := 0, issued := 0, suspended := true };
     let d : Dev := {}; let d : Dev := { d with media := { d.media with ops := [(k, o)] } };
     let d : Dev := { d with media := { d.media with sleds := if (d.sled n).isSome then d.media.sleds else Tab.put d.media.sleds n { cell := 0, channels := 0, dies := 0, planes := 0, profile := 0, blocks := 0, pages := 0, phys := 0, trMax := 0, xCh := 0, tsusMax := 0, tprogMax := 0, tbersMax := 0, susMax := 0, g1Sus := 0, peRated := 0, tresMin := 0, tempMax := 0, step := 0, tslcMax := 0 } } };
     let d : Dev := (((wOn d 0x17 n).fset Reg.TTH_LINK.STATE 5 n).fset Reg.TTH_OWN.OWNED 255 n).modLink n fun x => { x with opCredits := 1 }
     let d : Dev := { d with media := { d.media with sleds := [(0, ({ cell := 0, channels := 0, dies := 0, planes := 0, profile := 0, blocks := 0, pages := 0, phys := 0, trMax := 0, xCh := 0, tsusMax := 0, tprogMax := 0, tbersMax := 0, susMax := 4, g1Sus := 2, peRated := 0, tresMin := 0, tempMax := 0, step := 0, tslcMax := 0 } : SledRec))] } };
     let s : State := { dev := d };
     s.live = true ∧ s.dev.media.ops = [(k, o)] ∧ s.dev.dieOp n ch die = some (k, o) ∧ o.suspended = true ∧
     (s.dev.window (n * 8 + ch) s.dev.now).map (·.1) ≠ some 0 ∧ s.dev.quiet = false ∧
     (s.dev.ledger.adms.any fun a => a.2.slots.any fun x => x.plane / 4 = (n * 8 + ch) * 16 + die && decide (s.dev.now < x.stop ∧ x.start ≤ max s.dev.now (o.suspAt + 20000))) = false ∧
     s.dev.canIssue { use := .resume, opcode := 6, sled := n, channel := ch, die := die, plane := o.plane, block := 0, page := 0 } tag = true) ∧
    (let n := 0; let ch := 0; let die := 0; let s : State := {};
     s.live = true ∧
     (((s.dev.dieOp n ch die).any fun o => o.2.suspended) = false ∨ (s.dev.window (n * 8 + ch) s.dev.now).map (·.1) = some 0 ∨ s.dev.quiet = true)) ∧
    (let n := 0;
     let r : SledRec := ({ cell := 3, channels := 1, dies := 1, planes := 1, profile := 0, blocks := 1, pages := 1, phys := 18688, trMax := 1, xCh := 1, tsusMax := 1, tprogMax := 1, tbersMax := 1, susMax := 1, g1Sus := 0, peRated := 1, tresMin := 0, tempMax := 1, step := 1, tslcMax := 1 } : SledRec);
     let d : Dev := ({} : Dev).fset Reg.MDA_SLED_RELOAD.BUSY 0; let d : Dev := wOn d 0x16 0;
     let d : Dev := (wOn d 0x17 n).fset Reg.TTH_LINK.STATE 5 n; let d : Dev := d.fset Reg.STRIPE_SLED.STATE 1;
     let d : Dev := d.fset Reg.TTH_IDENT.CHANNELS 1; let d : Dev := d.fset Reg.TTH_IDENT.DIES 1;
     let d : Dev := d.fset Reg.TTH_IDENT.PLANES 1; let d : Dev := wOn d 0x17 0;
     let d : Dev := { d with mem := { d.mem with dram := d.mem.dram.setBytes 0 [1, 3, 1, 1, 1, 0, 1, 0, 1, 0, 0, 73, 1, 0, 1, 0, 1, 0, 1, 0, 1, 0, 1, 0, 1, 0, 0, 0, 0, 0, 1, 1, 1] } };
     let s : State := { dev := d };
     s.live = true ∧ n < 24 ∧ s.dev.fget Reg.MDA_SLED_RELOAD.BUSY = 0 ∧ s.dev.on 0x16 = true ∧
     s.dev.readSled n = .ok (some r) ∧ s.dev.linkUp n = true) ∧
    (let n := 0;
     let r : SledRec := ({ cell := 3, channels := 1, dies := 1, planes := 1, profile := 0, blocks := 1, pages := 1, phys := 18688, trMax := 1, xCh := 1, tsusMax := 1, tprogMax := 1, tbersMax := 1, susMax := 1, g1Sus := 0, peRated := 1, tresMin := 0, tempMax := 1, step := 1, tslcMax := 1 } : SledRec);
     let d : Dev := ({} : Dev).fset Reg.MDA_SLED_RELOAD.BUSY 0; let d : Dev := wOn d 0x16 0;
     let d : Dev := d.fset Reg.TTH_IDENT.CHANNELS 1; let d : Dev := d.fset Reg.TTH_IDENT.DIES 1;
     let d : Dev := d.fset Reg.TTH_IDENT.PLANES 1; let d : Dev := wOn d 0x17 0;
     let d : Dev := { d with mem := { d.mem with dram := d.mem.dram.setBytes 0 [1, 3, 1, 1, 1, 0, 1, 0, 1, 0, 0, 73, 1, 0, 1, 0, 1, 0, 1, 0, 1, 0, 1, 0, 1, 0, 0, 0, 0, 0, 1, 1, 1] } };
     let s : State := { dev := d };
     s.live = true ∧ n < 24 ∧ s.dev.fget Reg.MDA_SLED_RELOAD.BUSY = 0 ∧ s.dev.on 0x16 = true ∧
     s.dev.readSled n = .ok (some r) ∧ s.dev.linkUp n = false) ∧
    (let n := 0; let d : Dev := ({} : Dev).fset Reg.MDA_SLED_RELOAD.BUSY 0; let d : Dev := wOn d 0x16 0;
     let s : State := { dev := d };
     s.live = true ∧ n < 24 ∧ s.dev.fget Reg.MDA_SLED_RELOAD.BUSY = 0 ∧ s.dev.on 0x16 = true ∧
     s.dev.readSled n = .ok none) ∧
    (let n := 0; let e := 0x20; let d : Dev := ({} : Dev).fset Reg.MDA_SLED_RELOAD.BUSY 0;
     let d : Dev := wOn d 0x16 0; let d : Dev := { d with mem := { d.mem with dram := d.mem.dram.setBytes 0 [1] } };
     let s : State := { dev := d };
     s.live = true ∧ n < 24 ∧ s.dev.fget Reg.MDA_SLED_RELOAD.BUSY = 0 ∧ s.dev.on 0x16 = true ∧
     s.dev.readSled n = .error e ∧ e < 256) ∧
    (let n := 0; let s : State := {};
     s.live = true ∧ (s.dev.fget Reg.MDA_SLED_RELOAD.BUSY = 1 ∨ s.dev.on 0x16 = false ∨ 24 ≤ n)) ∧
    (let t : GateTab := {}; let at_ := 1; let d : Dev := {};
     let d : Dev := { d with media := { d.media with nextGates := some (t, at_) } };
     let d : Dev := { d with tim := { d.tim with ns := 1 } }; let s : State := { dev := d };
     s.live = true ∧ s.dev.media.nextGates = some (t, at_) ∧ at_ ≤ s.dev.now ∧ at_ < 2 ^ 64 ∧
     (s.dev.inst 0x16 0).swapReady = false ∧ (s.dev.inst 0x16 0).heldDisable = false) ∧
    (let s : State := {};
     s.live = true ∧ (s.dev.media.nextGates.any fun p => decide (p.2 ≤ s.dev.now)) = false ∧
     (s.dev.inst 0x16 0).heldDisable = false) := by
  refine ⟨?_, ?_, ?_, ?_, ?_, ?_, ?_, ?_, ?_, ?_, ?_, ?_, ?_, ?_, ?_, ?_, ?_, ?_, ?_, ?_, ?_, ?_, ?_, ?_, ?_, ?_, ?_, ?_, ?_⟩
  · decide +kernel
  · decide +kernel
  · decide +kernel
  · decide +kernel
  · decide +kernel
  · exact ⟨by decide +kernel, by first | decide +kernel | rfl | simp [URec.laddr], by decide +kernel, by decide +kernel⟩
  · decide +kernel
  · decide +kernel
  · decide +kernel
  · decide +kernel
  · decide +kernel
  · decide +kernel
  · decide +kernel
  · decide +kernel
  · decide +kernel
  · decide +kernel
  · decide +kernel
  · decide +kernel
  · decide +kernel
  · decide +kernel
  · decide +kernel
  · decide +kernel
  · decide +kernel
  · decide +kernel
  · decide +kernel
  · decide +kernel
  · decide +kernel
  · decide +kernel
  · decide +kernel

theorem witness_BandsAndSleds :
    (let stream := 0; let id := 0; let x : Stripe := { band := 0, page := 0, slots := [.empty] };
     let b : Band := { state := .queued, k := 0, m := 0 }; let d : Dev := {};
     let d : Dev := { d with stripe := { d.stripe with streams := Tab.put d.stripe.streams stream id } };
     let d : Dev := { d with stripe := { d.stripe with stripes := Tab.put d.stripe.stripes id x } };
     let d : Dev := { d with stripe := { d.stripe with bands := Tab.put d.stripe.bands x.band b } };
     let s : State := { dev := d };
     s.live = true ∧ Tab.look s.dev.stripe.streams stream = some id ∧ Tab.look s.dev.stripe.stripes id = some x ∧
     x.slots ≠ [] ∧ x.last + s.dev.fget Reg.STRIPE_FILL.US * 1000 ≤ s.dev.now ∧
     Tab.look s.dev.stripe.bands x.band = some b) ∧
    (let stream := 0; let s : State := {};
     s.live = true ∧
     (((Tab.look s.dev.stripe.streams stream).bind fun id => Tab.look s.dev.stripe.stripes id).any fun x => !x.slots.isEmpty && decide (x.last + s.dev.fget Reg.STRIPE_FILL.US * 1000 ≤ s.dev.now)) = false) ∧
    (let n := 0; let c : Instr := .sledGraceExpiry n; let t : Nat := 0; let k := 0;
     let b : Band := { state := .queued, k := 0, m := 1, chunks := [{ group := 0, die := 0, plane := 0, block := 0 }], item := none };
     let d : Dev := {};
     let d : Dev := { d with stripe := { d.stripe with absentSince := Tab.put d.stripe.absentSince n t } };
     let d : Dev := { d with stripe := { d.stripe with bands := [(k, b)] } };
     let d : Dev := d.fset Reg.STRIPE_SLED.STATE 1; let s : State := { dev := d };
     s.live = true ∧ c ∈ [Instr.sledGraceExpiry n, .sledDeclareFailed n] ∧ n < 24 ∧
     Tab.look s.dev.stripe.absentSince n = some t ∧ s.dev.sledState n = 1 ∧
     t + s.dev.fget Reg.STRIPE_REBUILD.GRACE_S * 1000000000 ≤ s.dev.now ∧ s.dev.stripe.bands = [(k, b)] ∧
     b.item = none ∧ b.chunks.any (fun c => c.group / 8 = n && !c.lost) = true) ∧
    (let n := 0; let s : State := {};
     s.live = true ∧
     (s.dev.sledState n ≠ 1 ∨ (Tab.look s.dev.stripe.absentSince n).any (fun t => decide (t + s.dev.fget Reg.STRIPE_REBUILD.GRACE_S * 1000000000 ≤ s.dev.now)) = false)) ∧
    (let n := 0; let s : State := {};
     s.live = true ∧ n < 24 ∧ (s.dev.sledState n = 0 ∨ s.dev.sledState n = 1) ∧ s.dev.stripe.bands = []) ∧
    (let n := 0; let d : Dev := ({} : Dev).fset Reg.STRIPE_SLED.STATE 2; let s : State := { dev := d };
     s.live = true ∧ (24 ≤ n ∨ s.dev.sledState n = 2 ∨ s.dev.sledState n = 3)) ∧
    (let n := 0;
     let r : SledRec := { cell := 0, channels := 0, dies := 0, planes := 0, profile := 0, blocks := 0, pages := 0, phys := 0, trMax := 0, xCh := 0, tsusMax := 0, tprogMax := 0, tbersMax := 0, susMax := 0, g1Sus := 0, peRated := 0, tresMin := 0, tempMax := 0, step := 0, tslcMax := 0 };
     let d : Dev := {}; let d : Dev := { d with media := { d.media with sleds := Tab.put d.media.sleds n r } };
     let d : Dev := { d with stripe := { d.stripe with models := Tab.put d.stripe.models n (d.fget Reg.TTH_IDENT.MODEL n) } };
     let d : Dev := d.fset Reg.STRIPE_SLED.STATE 3;
     let d : Dev := { d with stripe := { d.stripe with models := [(0, 0)] } }; let s : State := { dev := d };
     s.live = true ∧ n < 24 ∧ s.dev.sled n = some r ∧ s.dev.sledState n = 3 ∧
     s.dev.media.needReload.contains n = false ∧
     Tab.look s.dev.stripe.models n = some (s.dev.fget Reg.TTH_IDENT.MODEL n)) ∧
    (let n := 0;
     let r : SledRec := { cell := 0, channels := 0, dies := 0, planes := 0, profile := 0, blocks := 0, pages := 0, phys := 0, trMax := 0, xCh := 0, tsusMax := 0, tprogMax := 0, tbersMax := 0, susMax := 0, g1Sus := 0, peRated := 0, tresMin := 0, tempMax := 0, step := 0, tslcMax := 0 };
     let d : Dev := {}; let d : Dev := { d with media := { d.media with sleds := Tab.put d.media.sleds n r } };
     let d : Dev := d.fset Reg.STRIPE_SLED.STATE 3; let s : State := { dev := d };
     s.live = true ∧ n < 24 ∧ s.dev.sled n = some r ∧ s.dev.sledState n = 3 ∧ s.dev.media.needReload.contains n = false) ∧
    (let n := 0; let s : State := {};
     s.live = true ∧ (s.dev.sledState n ≠ 3 ∨ s.dev.sled n = none ∨ s.dev.media.needReload.contains n = true)) ∧
    (let n := 0; let d : Dev := ({} : Dev).fset Reg.STRIPE_SLED.STATE 2; let s : State := { dev := d };
     s.live = true ∧ n < 24 ∧ s.dev.sledState n = 2 ∧
     s.dev.stripe.bands.any (fun p => p.2.chunks.any fun c => c.group / 8 = n) = false) ∧
    (let n := 0; let s : State := {};
     s.live = true ∧
     (s.dev.sledState n ≠ 2 ∨ s.dev.stripe.bands.any (fun p => p.2.chunks.any fun c => c.group / 8 = n) = true)) ∧
    (let n := 0; let t : Nat := 0; let b : Band := { state := .closed, k := 0, m := 0, item := none };
     let d : Dev := {}; let d : Dev := { d with stripe := { d.stripe with critSince := some t } };
     let d : Dev := { d with stripe := { d.stripe with bands := [(n, b)] } };
     let d : Dev := { d with tim := { d.tim with ns := 1000000 } }; let s : State := { dev := d };
     s.live = true ∧ s.dev.stripe.critSince = some t ∧ max t s.dev.stripe.lastVictim + 1000000 ≤ s.dev.now ∧
     s.dev.stripe.bands = [(n, b)] ∧ b.state = .closed ∧ b.item = none ∧ (b.ofMap = false ∨ b.valid = 0)) ∧
    (let s : State := {};
     s.live = true ∧
     (s.dev.stripe.critSince.any (fun t => decide (max t s.dev.stripe.lastVictim + 1000000 ≤ s.dev.now)) = false ∨ s.dev.stripe.bands.any (fun p => decide (p.2.state = .closed)) = false)) ∧
    (let n := 0; let b : Band := { state := .victim, k := 0, m := 0, valid := 0 }; let d : Dev := {};
     let d : Dev := { d with stripe := { d.stripe with bands := Tab.put d.stripe.bands n b } };
     let s : State := { dev := d };
     s.live = true ∧ Tab.look s.dev.stripe.bands n = some b ∧ b.state = .victim ∧ b.valid = 0 ∧
     s.dev.bandHeld n = false ∧ s.dev.jnl.pend = [] ∧ s.dev.jnl.waits = [] ∧ s.dev.bandBusy n = false ∧
     (b.ofMap = false ∨ b.ckptAt < s.dev.jnl.ckptDone ∧ b.chunks.any (fun c => c.has (s.dev.jnl.sbField 24 5)) = false)) ∧
    (let n := 0; let s : State := {};
     s.live = true ∧
     ((Tab.look s.dev.stripe.bands n).any fun b => decide (b.state = .victim) && decide (b.valid = 0) && !s.dev.bandHeld n && !s.dev.bandBusy n && (!b.ofMap || decide (b.ckptAt < s.dev.jnl.ckptDone))) = false) ∧
    (let n := 0; let b : Band := { state := .erasing, k := 0, m := 0 }; let d : Dev := {};
     let d : Dev := { d with stripe := { d.stripe with bands := Tab.put d.stripe.bands n b } };
     let s : State := { dev := d };
     s.live = true ∧ Tab.look s.dev.stripe.bands n = some b ∧ b.state = .erasing ∧ b.chunks.length ≤ b.erased) ∧
    (let n := 0; let s : State := {};
     s.live = true ∧
     ((Tab.look s.dev.stripe.bands n).any fun b => decide (b.state = .erasing) && decide (b.chunks.length ≤ b.erased)) = false) ∧
    (let n := 0; let b : Band := { state := .closed, k := 0, m := 0, item := none }; let d : Dev := {};
     let d : Dev := { d with stripe := { d.stripe with bands := Tab.put d.stripe.bands n b } };
     let s : State := { dev := d };
     s.live = true ∧ Tab.look s.dev.stripe.bands n = some b ∧ b.state = .closed ∧
     b.since + s.dev.fget Reg.STRIPE_RELOC.RETAIN_DAYS * 86400000000000 ≤ s.dev.now ∧ b.item = none) ∧
    (let n := 0; let s : State := {};
     s.live = true ∧
     ((Tab.look s.dev.stripe.bands n).any fun b => decide (b.state = .closed) && decide (b.since + s.dev.fget Reg.STRIPE_RELOC.RETAIN_DAYS * 86400000000000 ≤ s.dev.now) && b.item.isNone) = false) := by
  refine ⟨?_, ?_, ?_, ?_, ?_, ?_, ?_, ?_, ?_, ?_, ?_, ?_, ?_, ?_, ?_, ?_, ?_, ?_, ?_⟩
  · decide +kernel
  · decide +kernel
  · exact ⟨by decide +kernel, by first | decide +kernel | rfl | simp [URec.laddr], by decide +kernel, by decide +kernel, by decide +kernel, by decide +kernel, by decide +kernel, by decide +kernel, by decide +kernel⟩
  · decide +kernel
  · decide +kernel
  · decide +kernel
  · decide +kernel
  · decide +kernel
  · decide +kernel
  · decide +kernel
  · decide +kernel
  · decide +kernel
  · decide +kernel
  · decide +kernel
  · decide +kernel
  · decide +kernel
  · decide +kernel
  · decide +kernel
  · decide +kernel

theorem witness_PowerFailDump :
    (let s : State := {};
     s.live = true ∧ (s.dev.camp.pfail = .idle ∨ s.dev.camp.pfail = .done ∧ s.dev.camp.unitDump = true)) ∧
    (let d : Dev := {}; let d : Dev := { d with camp := { d.camp with pfail := .quiesced } };
     let s : State := { dev := d };
     s.live = true ∧
     (s.dev.camp.pfail ∈ [.filtering, .quiesced, .dumping] ∨ s.dev.camp.pfail = .done ∧ s.dev.camp.unitDump = false)) ∧
    (let c : Instr := .pfailGlitch; let d : Dev := {};
     let d : Dev := { d with camp := { d.camp with pfail := .filtering } }; let s : State := { dev := d };
     s.live = true ∧ c ∈ [Instr.pfailGlitch, .pfailRise] ∧ s.dev.camp.pfail = .filtering) ∧
    (let s : State := {};
     s.live = true ∧ s.dev.camp.pfail ≠ .filtering) ∧
    (let d : Dev := {}; let d : Dev := { d with camp := { d.camp with pfail := .filtering } };
     let d : Dev := wOn d 0x14 0; let s : State := { dev := d };
     s.live = true ∧ s.dev.camp.pfail = .filtering ∧ s.dev.on 0x14 = true) ∧
    (let d : Dev := {}; let d : Dev := { d with camp := { d.camp with pfail := .filtering } };
     let s : State := { dev := d };
     s.live = true ∧ s.dev.camp.pfail = .filtering ∧ s.dev.on 0x14 = false) ∧
    (let s : State := {};
     s.live = true ∧ s.dev.camp.pfail ≠ .filtering) ∧
    (let d : Dev := {}; let d : Dev := { d with camp := { d.camp with pfail := .quiesced } };
     let s : State := { dev := d };
     s.live = true ∧ s.dev.camp.pfail = .quiesced) ∧
    (let i : Nat := 0; let n := 0;
     let u : SUnit := { state := .held, rec_ := { wgen := 0, nsh := 0, lba := 0 }, superseded := none };
     let c : Chunk := { group := 0, die := 0, plane := 0, block := 0 };
     let b : Band := { state := .dump, k := 1, m := 0, chunks := [c] }; let d : Dev := {};
     let d : Dev := { d with camp := { d.camp with pfail := .quiesced } };
     let d : Dev := { d with map := { d.map with staging := [(i, u)] } };
     let d : Dev := { d with stripe := { d.stripe with bands := [(n, b)] } };
     let d : Dev := d.fset Reg.STRIPE_DUMP.BANDS 1; let s : State := { dev := d };
     s.live = true ∧ s.dev.camp.pfail = .quiesced ∧ s.dev.map.staging = [(i, u)] ∧
     u.state ∈ [.held, .dirty, .placing] ∧ u.superseded = none ∧ s.dev.stripe.bands = [(n, b)] ∧ b.state = .dump ∧
     1 ≤ s.dev.fget Reg.STRIPE_DUMP.BANDS ∧ b.chunks = [c] ∧ 1 ≤ b.k ∧ s.dev.media.reqs = []) ∧
    (let s : State := {};
     s.live = true ∧ s.dev.camp.pfail ≠ .quiesced) ∧
    (let d : Dev := {}; let d : Dev := { d with camp := { d.camp with pfail := .dumping } };
     let d : Dev := { d with camp := { d.camp with pfailN := false } }; let s : State := { dev := d };
     s.live = true ∧ s.dev.camp.pfail = .dumping ∧ s.dev.media.reqs.any (·.use.isDump) = false ∧
     s.dev.media.ops.any (·.2.use.isDump) = false ∧
     (s.dev.camp.pfailN = false ∨ s.dev.camp.unitDump = true ∨ s.dev.fget Reg.CAMP_PFAIL_CFG.AUTO_WARM = 0)) ∧
    (let d : Dev := {}; let d : Dev := { d with camp := { d.camp with pfail := .dumping } };
     let d : Dev := { d with camp := { d.camp with pfailN := true } };
     let d : Dev := d.fset Reg.CAMP_PFAIL_CFG.AUTO_WARM 1; let s : State := { dev := d };
     s.live = true ∧ s.dev.camp.pfail = .dumping ∧ s.dev.media.reqs.any (·.use.isDump) = false ∧
     s.dev.media.ops.any (·.2.use.isDump) = false ∧ s.dev.camp.pfailN = true ∧ s.dev.camp.unitDump = false ∧
     s.dev.fget Reg.CAMP_PFAIL_CFG.AUTO_WARM = 1) ∧
    (let s : State := {};
     s.live = true ∧
     (s.dev.camp.pfail ≠ .dumping ∨ s.dev.media.reqs.any (·.use.isDump) = true ∨ s.dev.media.ops.any (·.2.use.isDump) = true)) ∧
    (let d : Dev := {}; let d : Dev := { d with camp := { d.camp with pfail := .done } };
     let d : Dev := d.fset Reg.CAMP_PFAIL_CFG.AUTO_WARM 1; let s : State := { dev := d };
     s.live = true ∧ s.dev.camp.pfail = .done ∧ s.dev.camp.unitDump = false ∧
     s.dev.fget Reg.CAMP_PFAIL_CFG.AUTO_WARM = 1) ∧
    (let d : Dev := {}; let d : Dev := { d with camp := { d.camp with pfail := .quiesced } };
     let s : State := { dev := d };
     s.live = true ∧ s.dev.camp.pfail ≠ .filtering ∧
     (s.dev.camp.pfail ≠ .done ∨ s.dev.camp.unitDump = true ∨ s.dev.fget Reg.CAMP_PFAIL_CFG.AUTO_WARM = 0)) := by
  refine ⟨?_, ?_, ?_, ?_, ?_, ?_, ?_, ?_, ?_, ?_, ?_, ?_, ?_, ?_, ?_⟩
  · decide +kernel
  · decide +kernel
  · exact ⟨by decide +kernel, by first | decide +kernel | rfl | simp [URec.laddr], by decide +kernel⟩
  · decide +kernel
  · decide +kernel
  · decide +kernel
  · decide +kernel
  · decide +kernel
  · decide +kernel
  · decide +kernel
  · decide +kernel
  · decide +kernel
  · decide +kernel
  · decide +kernel
  · decide +kernel

theorem witness_FrameReception :
    (let port := 0; let d : Dev := wOn ({} : Dev) 8 (port / 4); let d : Dev := d.fset Reg.PRT_LINK.UP 1;
     let s : State := { dev := d };
     s.live = true ∧ port < 16 ∧ s.dev.on 8 (port / 4) = true ∧
     bitOf (s.dev.fget Reg.PRT_LINK.UP (port / 4)) (port % 4) = true) ∧
    (let port := 0; let bytes : List Byte := []; let d : Dev := wOn ({} : Dev) 8 (port / 4);
     let d : Dev := d.fset Reg.PRT_LINK.UP 1; let s : State := { dev := d };
     s.live = true ∧ port < 16 ∧ s.dev.on 8 (port / 4) = true ∧
     bitOf (s.dev.fget Reg.PRT_LINK.UP (port / 4)) (port % 4) = true ∧ bytes.length < 64) ∧
    (let port := 0; let bytes : List Byte := List.replicate 64 0; let d : Dev := wOn ({} : Dev) 8 (port / 4);
     let d : Dev := d.fset Reg.PRT_LINK.UP 1; let s : State := { dev := d };
     s.live = true ∧ port < 16 ∧ s.dev.on 8 (port / 4) = true ∧
     bitOf (s.dev.fget Reg.PRT_LINK.UP (port / 4)) (port % 4) = true ∧ 64 ≤ bytes.length ∧
     s.dev.fget Reg.PRT_CFG.MTU (port / 4) < bytes.length) ∧
    (let port := 0; let bytes : List Byte := List.replicate 12 0 ++ [0x88, 0x08] ++ List.replicate 50 0;
     let d : Dev := wOn ({} : Dev) 8 (port / 4); let d : Dev := d.fset Reg.PRT_LINK.UP 1;
     let d : Dev := d.fset Reg.PRT_CFG.MTU 64; let s : State := { dev := d };
     s.live = true ∧ port < 16 ∧ s.dev.on 8 (port / 4) = true ∧
     bitOf (s.dev.fget Reg.PRT_LINK.UP (port / 4)) (port % 4) = true ∧ 64 ≤ bytes.length ∧
     bytes.length ≤ s.dev.fget Reg.PRT_CFG.MTU (port / 4) ∧ bytes.getD 12 0 = 0x88 ∧ bytes.getD 13 0 = 0x08) ∧
    (let port := 0; let s : State := {};
     s.live = true ∧
     (16 ≤ port ∨ s.dev.on 8 (port / 4) = false ∨ bitOf (s.dev.fget Reg.PRT_LINK.UP (port / 4)) (port % 4) = false)) ∧
    (let port := 0; let bytes : List Byte := List.replicate 410 0; let d : Dev := wOn ({} : Dev) 8 0;
     let d : Dev := wOn d 0x0A 0; let d : Dev := wOn d 0x0B 0; let d : Dev := d.fset Reg.PRT_LINK.UP 1;
     let d : Dev := d.fset Reg.PRT_CFG.MTU 410; let d : Dev := d.fset Reg.PRS_CFG.RECIRC 1;
     let d : Dev := d.fset Reg.PRS_CFG.MAX_DEPTH 12;
     let d : Dev := { d with cls := { d.cls with graphs := [(0, [(2, 200)])] } }; let s : State := { dev := d };
     let w : Walk := (match Dev.parsed s.dev 0 (List.replicate 410 0) with | .exception _ y => y | .classify y => y | .recirculate y => y);
     s.live = true ∧ s.dev.portTakes port bytes = true ∧ s.dev.parsed port bytes = .recirculate w) ∧
    (let port := 0; let r := 1; let bytes : List Byte := List.replicate 64 0; let d : Dev := wOn ({} : Dev) 8 0;
     let d : Dev := wOn d 0x0A 0; let d : Dev := wOn d 0x0B 0; let d : Dev := d.fset Reg.PRT_LINK.UP 1;
     let d : Dev := d.fset Reg.PRT_CFG.MTU 64; let s : State := { dev := d };
     let w : Walk := (match Dev.parsed s.dev 0 (List.replicate 64 0) with | .exception _ y => y | .classify y => y | .recirculate y => y);
     s.live = true ∧ s.dev.portTakes port bytes = true ∧ s.dev.parsed port bytes = .exception r w ∧ 1 ≤ r ∧ r ≤ 5 ∧
     w.port = port ∧ bitOf (s.dev.fget Reg.CLS_EXC.TO_WARDEN_P) (r - 1) = false) ∧
    (let port := 0; let r := 1; let n := 8; let h := 0; let bytes : List Byte := List.replicate 64 0;
     let d : Dev := wOn ({} : Dev) 8 0; let d : Dev := wOn d 0x0A 0; let d : Dev := wOn d 0x0B 0;
     let d : Dev := d.fset Reg.PRT_LINK.UP 1; let d : Dev := d.fset Reg.PRT_CFG.MTU 64;
     let d : Dev := d.fset Reg.CLS_EXC.TO_WARDEN_P 31; let d : Dev := d.fset Reg.CLS_WRING.LOG2 3;
     let s : State := { dev := d };
     let w : Walk := (match Dev.parsed s.dev 0 (List.replicate 64 0) with | .exception _ y => y | .classify y => y | .recirculate y => y);
     s.live = true ∧ s.dev.portTakes port bytes = true ∧ s.dev.parsed port bytes = .exception r w ∧ 1 ≤ r ∧ r ≤ 5 ∧
     w.port = port ∧ bitOf (s.dev.fget Reg.CLS_EXC.TO_WARDEN_P) (r - 1) = true ∧
     n = 2 ^ s.dev.fget Reg.CLS_WRING.LOG2 ∧ h = s.dev.fget Reg.CLS_WRING_IDX.HEAD) ∧
    (let port := 0; let r := 17; let bytes : List Byte := List.replicate 64 0; let d : Dev := wOn ({} : Dev) 8 0;
     let d : Dev := wOn d 0x0A 0; let d : Dev := wOn d 0x0B 0; let d : Dev := d.fset Reg.PRT_LINK.UP 1;
     let d : Dev := d.fset Reg.PRT_CFG.MTU 64; let d : Dev := d.fset Reg.PRS_CFG.MAX_DEPTH 12;
     let d : Dev := { d with cls := { d.cls with graphs := [(0, [(48, 0xFE)])] } };
     let d : Dev := d.fset Reg.CLS_DEFAULT_LO.ACTION 1025; let s : State := { dev := d };
     let w : Walk := (match Dev.parsed s.dev 0 (List.replicate 64 0) with | .exception _ y => y | .classify y => y | .recirculate y => y);
     let x : Desc := (Dev.verdict s.dev (match Dev.parsed s.dev 0 (List.replicate 64 0) with | .exception _ y => y.counted | .classify y => y.counted | .recirculate y => y.counted)).1;
     s.live = true ∧ s.dev.portTakes port bytes = true ∧ s.dev.parsed port bytes = .classify w ∧ w.port = port ∧
     s.dev.verdict w.counted = (x, some r) ∧ 16 ≤ r ∧ bitOf (s.dev.fget Reg.CLS_EXC.TO_WARDEN_C) (r - 16) = false) ∧
    (let port := 0; let bytes : List Byte := List.replicate 64 0; let d : Dev := wOn ({} : Dev) 8 0;
     let d : Dev := wOn d 0x0A 0; let d : Dev := wOn d 0x0B 0; let d : Dev := d.fset Reg.PRT_LINK.UP 1;
     let d : Dev := d.fset Reg.PRT_CFG.MTU 64; let d : Dev := d.fset Reg.PRS_CFG.MAX_DEPTH 12;
     let d : Dev := { d with cls := { d.cls with graphs := [(0, [(48, 0xFE)])] } };
     let d : Dev := { d with cls := { d.cls with recirc := [({ port := 0, seq := 0, data := [], len := 0, stamp := 0, pgen := 0, rgen := 0, end_ := 0, node := 0, off := 0 } : Walk)] } };
     let d : Dev := { d with cls := { d.cls with arrived := [(0, 1)] } }; let s : State := { dev := d };
     let w : Walk := (match Dev.parsed s.dev 0 (List.replicate 64 0) with | .exception _ y => y | .classify y => y | .recirculate y => y);
     let x : Desc := (Dev.verdict s.dev (match Dev.parsed s.dev 0 (List.replicate 64 0) with | .exception _ y => y.counted | .classify y => y.counted | .recirculate y => y.counted)).1;
     s.live = true ∧ s.dev.portTakes port bytes = true ∧ s.dev.parsed port bytes = .classify w ∧
     s.dev.verdict w.counted = (x, none) ∧ s.dev.mustWait w.port w.seq = true) ∧
    (let port := 0; let bytes : List Byte := List.replicate 64 0; let d : Dev := wOn ({} : Dev) 8 0;
     let d : Dev := wOn d 0x0A 0; let d : Dev := wOn d 0x0B 0; let d : Dev := d.fset Reg.PRT_LINK.UP 1;
     let d : Dev := d.fset Reg.PRT_CFG.MTU 64; let d : Dev := d.fset Reg.PRS_CFG.MAX_DEPTH 12;
     let d : Dev := { d with cls := { d.cls with graphs := [(0, [(48, 0xFE)])] } }; let s : State := { dev := d };
     let w : Walk := (match Dev.parsed s.dev 0 (List.replicate 64 0) with | .exception _ y => y | .classify y => y | .recirculate y => y);
     let x : Desc := (Dev.verdict s.dev (match Dev.parsed s.dev 0 (List.replicate 64 0) with | .exception _ y => y.counted | .classify y => y.counted | .recirculate y => y.counted)).1;
     s.live = true ∧ s.dev.portTakes port bytes = true ∧ s.dev.parsed port bytes = .classify w ∧ w.port = port ∧
     s.dev.verdict w.counted = (x, none) ∧ s.dev.mustWait w.port w.seq = false ∧ actKind x.act = 0) ∧
    (let port := 0; let key := 0; let k := 1; let blk := 0x0C; let bytes : List Byte := List.replicate 64 0;
     let c : Ctx := {}; let d : Dev := ({} : Dev).fset Reg.SWT_CFG.OVF_EN 0; let d : Dev := wOn d 8 0;
     let d : Dev := wOn d 0x0A 0; let d : Dev := wOn d 0x0B 0; let d : Dev := d.fset Reg.PRT_LINK.UP 1;
     let d : Dev := d.fset Reg.PRT_CFG.MTU 64; let d : Dev := d.fset Reg.PRS_CFG.MAX_DEPTH 12;
     let d : Dev := { d with cls := { d.cls with graphs := [(0, [(48, 0xFE)])] } };
     let d : Dev := d.fset Reg.CLS_DEFAULT_LO.ACTION 257; let d : Dev := wOn d 0x0C 0;
     let d : Dev := d.fset Reg.XPT_CTX.MAX 1; let d : Dev := wCtx d 0x0C 0 c;
     let d : Dev := d.fset Reg.SWT_RED.G_MIN 1; let s : State := { dev := d };
     let w : Walk := (match Dev.parsed s.dev 0 (List.replicate 64 0) with | .exception _ y => y | .classify y => y | .recirculate y => y);
     let x : Desc := (Dev.verdict s.dev (match Dev.parsed s.dev 0 (List.replicate 64 0) with | .exception _ y => y.counted | .classify y => y.counted | .recirculate y => y.counted)).1;
     s.live = true ∧ s.dev.portTakes port bytes = true ∧ s.dev.parsed port bytes = .classify w ∧ w.port = port ∧
     s.dev.verdict w.counted = (x, none) ∧ s.dev.mustWait w.port w.seq = false ∧ actKind x.act = k ∧ k ∈ [1, 2] ∧
     blk = k + 0x0B ∧ actPolicer x.act = 0 ∧ x.port = port ∧ key = port / 8 * 8 + actTclass x.act ∧
     Tab.look s.dev.swt.ingress key = none ∧ Tab.look s.dev.swt.avg key = none ∧
     0 < s.dev.fget (Reg.SWT_RED.G_MIN.nth (actTclass x.act)) ∧ s.dev.fget Reg.SWT_CFG.OVF_EN = 0 ∧
     s.dev.sharedUsed + cellsFor x.len ≤ s.dev.sharedCells ∧ s.dev.ctx blk x.context = some c ∧
     c.tenant = actTenant x.act ∧ s.dev.ctxIn blk x.context = true) ∧
    (let port := 0; let bytes : List Byte := List.replicate 64 0; let d : Dev := wOn ({} : Dev) 8 (port / 4);
     let d : Dev := wOn d 8 0; let d : Dev := d.fset Reg.PRT_LINK.UP 1; let d : Dev := d.fset Reg.PRT_CFG.MTU 64;
     let s : State := { dev := d };
     s.live = true ∧ port < 16 ∧ s.dev.on 8 (port / 4) = true ∧
     bitOf (s.dev.fget Reg.PRT_LINK.UP (port / 4)) (port % 4) = true ∧ 64 ≤ bytes.length ∧
     bytes.length ≤ s.dev.fget Reg.PRT_CFG.MTU (port / 4) ∧ bytes.getD 12 0 ≠ 0x88 ∧
     (s.dev.on 0x0A (port / 8) = false ∨ s.dev.on 0x0B (port / 8) = false)) ∧
    (let pipe := 0; let r := 1;
     let w : Walk := { port := 0, seq := 0, data := [], len := 0, stamp := 0, pgen := 0, rgen := 0, end_ := 0, node := 0, off := 0 };
     let v : Walk := (match walk [] 12 false 0 17 { w with vec := w.vec.write 1 1 ((w.vec.read 1 1) ||| 1) } with | .exception _ y => y | .classify y => y | .recirculate y => y);
     let d : Dev := {}; let d : Dev := { d with cls := { d.cls with recirc := [w] } }; let s : State := { dev := d };
     s.live = true ∧ s.dev.cls.recirc = [w] ∧ w.port / 8 = pipe ∧
     walk (s.dev.graphOf w.pgen) w.maxDepth false w.off 17 { w with vec := w.vec.write 1 1 ((w.vec.read 1 1) ||| 1) } = .exception r v ∧
     1 ≤ r ∧ r ≤ 5 ∧ v.port / 8 = pipe ∧ bitOf (s.dev.fget Reg.CLS_EXC.TO_WARDEN_P) (r - 1) = false) ∧
    (let pipe := 0;
     let w : Walk := { port := 0, seq := 0, data := [], len := 0, stamp := 0, pgen := 0, rgen := 0, end_ := 0, node := 0, off := 0, maxDepth := 12 };
     let d : Dev := {}; let d : Dev := { d with cls := { d.cls with recirc := [w] } };
     let d : Dev := { d with cls := { d.cls with graphs := [(0, [(48, 0xFE)])] } }; let s : State := { dev := d };
     let v : Walk := (match walk (Dev.graphOf s.dev 0) 12 false 0 17 { w with vec := w.vec.write 1 1 ((w.vec.read 1 1) ||| 1) } with | .exception _ y => y | .classify y => y | .recirculate y => y);
     let x : Desc := (Dev.verdict s.dev v.counted).1;
     s.live = true ∧ s.dev.cls.recirc = [w] ∧ w.port / 8 = pipe ∧
     walk (s.dev.graphOf w.pgen) w.maxDepth false w.off 17 { w with vec := w.vec.write 1 1 ((w.vec.read 1 1) ||| 1) } = .classify v ∧
     s.dev.verdict v.counted = (x, none) ∧ s.dev.cls.reseq = [] ∧ actKind x.act = 0 ∧ v.port / 8 = pipe) ∧
    (let pipe := 0; let s : State := {};
     s.live = true ∧ (s.dev.cls.recirc.any fun w => w.port / 8 = pipe) = false) ∧
    (let port := 0;
     let w : Walk := { port := port, seq := 0, data := [], len := 0, stamp := 0, pgen := 0, rgen := 0, end_ := 0, node := 0, off := 0 };
     let x : Desc := { stamp := 0, port := 0, pgen := 0, rgen := 0, len := 0 }; let d : Dev := {};
     let d : Dev := { d with cls := { d.cls with reseq := [(w, x)] } }; let s : State := { dev := d };
     s.live = true ∧ s.dev.cls.reseq = [(w, x)] ∧ w.port = port ∧ s.dev.cls.recirc = [] ∧ actKind x.act = 0) ∧
    (let port := 0; let s : State := {};
     s.live = true ∧
     ((s.dev.cls.reseq.find? fun p => p.1.port = port).any fun p => !(s.dev.cls.recirc.any fun r => r.port = port && decide (r.seq < p.1.seq))) = false) ∧
    (let q := 0; let d : Dev := wOn ({} : Dev) 8 (q / 4); let d : Dev := d.fset Reg.PRT_CFG.SUBEN 1;
     let s : State := { dev := d };
     s.live = true ∧ s.dev.on 8 (q / 4) = true ∧ bitOf (s.dev.fget Reg.PRT_LINK.UP (q / 4)) (q % 4) = false ∧
     bitOf (s.dev.fget Reg.PRT_CFG.SUBEN (q / 4)) (q % 4) = true ∧
     ((s.dev.egrPort q).downSince.any fun t => decide (t + s.dev.holdNs q < s.dev.now)) = false) ∧
    (let q := 0; let d : Dev := wOn ({} : Dev) 8 (q / 4); let d : Dev := d.fset Reg.PRT_CFG.SUBEN 1;
     let d : Dev := d.fset Reg.PRT_LINK.UP 1; let d : Dev := d.fset Reg.SCH_HOLD.HOLD_MS 1;
     let s : State := { dev := d };
     s.live = true ∧ s.dev.on 8 (q / 4) = true ∧ bitOf (s.dev.fget Reg.PRT_LINK.UP (q / 4)) (q % 4) = true ∧
     bitOf (s.dev.fget Reg.PRT_CFG.SUBEN (q / 4)) (q % 4) = true ∧ (s.dev.egrPort q).tx = none ∧ 0 < s.dev.holdNs q) ∧
    (let q := 0; let up : Bool := false; let s : State := {};
     s.live = true ∧
     (s.dev.on 8 (q / 4) = false ∨ bitOf (s.dev.fget Reg.PRT_LINK.UP (q / 4)) (q % 4) = up ∨ bitOf (s.dev.fget Reg.PRT_CFG.SUBEN (q / 4)) (q % 4) = false)) := by
  refine ⟨?_, ?_, ?_, ?_, ?_, ?_, ?_, ?_, ?_, ?_, ?_, ?_, ?_, ?_, ?_, ?_, ?_, ?_, ?_, ?_, ?_⟩ <;> decide +kernel

theorem witness_RuleUpdates :
    (let u : UpdRec := { op := 0, stage := 0, index := 0, act := 0, key := 0, mask := 0, zeros := true };
     let d : Dev := wOn ({} : Dev) 0x0B 0; let s : State := { dev := d };
     let k : Nat := ((Dev.emSlots s.dev u.stage u.key).headD 0);
     s.live = true ∧ s.dev.updReady = true ∧ u.zeros = true ∧ u.stage ≤ 3 ∧ actOk u.act = true ∧
     s.dev.cls.em.any (fun p => p.2.open_ u.stage u.key && p.2.valid (s.dev.inst 0x0B 0).staged) = false ∧
     (s.dev.emSlots u.stage u.key).find? (fun k => (Tab.look s.dev.cls.em k).isNone) = some k) ∧
    (let u : UpdRec := { op := 0, stage := 0, index := 0, act := 0, key := 0, mask := 0, zeros := true };
     let d : Dev := wOn ({} : Dev) 0x0B 0;
     let d : Dev := { d with cls := { d.cls with em := [(0, ({ key := 0, act := 0, from_ := (d.inst 0x0B 0).staged } : Rule))] } };
     let s : State := { dev := d };
     s.live = true ∧ s.dev.updReady = true ∧ u.zeros = true ∧ u.stage ≤ 3 ∧ actOk u.act = true ∧
     s.dev.cls.em.any (fun p => p.2.open_ u.stage u.key && p.2.valid (s.dev.inst 0x0B 0).staged) = true) ∧
    (let u : UpdRec := { op := 0, stage := 0, index := 0, act := 0, key := 0, mask := 0, zeros := true };
     let d : Dev := wOn ({} : Dev) 0x0B 0;
     let d : Dev := { d with cls := { d.cls with em := (d.emSlots u.stage u.key).map fun k => (k, ({ key := 1, act := 0, from_ := 0 } : Rule)) } }
     let s : State := { dev := d };
     s.live = true ∧ s.dev.updReady = true ∧ u.zeros = true ∧ u.stage ≤ 3 ∧ actOk u.act = true ∧
     s.dev.cls.em.any (fun p => p.2.open_ u.stage u.key && p.2.valid (s.dev.inst 0x0B 0).staged) = false ∧
     (s.dev.emSlots u.stage u.key).find? (fun k => (Tab.look s.dev.cls.em k).isNone) = none) ∧
    (let u : UpdRec := { op := 0, stage := 0, index := 0, act := 0, key := 0, mask := 0, zeros := true }; let k := 0;
     let r : Rule := { key := 0, act := 0, from_ := 0 }; let d : Dev := wOn ({} : Dev) 0x0B 0;
     let d : Dev := { d with cls := { d.cls with em := [(k, r)] } }; let s : State := { dev := d };
     s.live = true ∧ s.dev.updReady = true ∧ u.zeros = true ∧ u.stage ≤ 3 ∧
     s.dev.cls.em.find? (fun p => p.2.open_ u.stage u.key && p.2.valid (s.dev.inst 0x0B 0).active) = some (k, r)) ∧
    (let u : UpdRec := { op := 0, stage := 0, index := 0, act := 0, key := 0, mask := 0, zeros := true };
     let d : Dev := wOn ({} : Dev) 0x0B 0; let s : State := { dev := d };
     s.live = true ∧ s.dev.updReady = true ∧ u.zeros = true ∧ u.stage ≤ 3 ∧
     s.dev.cls.em.find? (fun p => p.2.open_ u.stage u.key && p.2.valid (s.dev.inst 0x0B 0).active) = none) ∧
    (let u : UpdRec := { op := 0, stage := 0, index := 0, act := 0, key := 0, mask := 0, zeros := true };
     let d : Dev := ({} : Dev).fset Reg.CLS_CFG.PROFILE 1; let d : Dev := wOn d 0x0B 0;
     let s : State := { dev := d };
     s.live = true ∧ s.dev.updReady = true ∧ u.zeros = true ∧ actOk u.act = true ∧ u.index < 16384 ∧
     s.dev.fget Reg.CLS_CFG.PROFILE = 1 ∧
     ((Tab.look s.dev.cls.tcam u.index).any fun r => s.dev.clsResident.any fun g => r.valid g) = false) ∧
    (let u : UpdRec := { op := 0, stage := 0, index := 0, act := 0, key := 0, mask := 0, zeros := true };
     let d : Dev := ({} : Dev).fset Reg.CLS_CFG.PROFILE 1; let d : Dev := wOn d 0x0B 0;
     let d : Dev := { d with cls := { d.cls with tcam := [(0, ({ key := 0, act := 0, from_ := 0 } : Rule))] } };
     let s : State := { dev := d };
     s.live = true ∧ s.dev.updReady = true ∧ u.zeros = true ∧ actOk u.act = true ∧ u.index < 16384 ∧
     s.dev.fget Reg.CLS_CFG.PROFILE = 1 ∧
     ((Tab.look s.dev.cls.tcam u.index).any fun r => s.dev.clsResident.any fun g => r.valid g) = true) ∧
    (let u : UpdRec := { op := 0, stage := 0, index := 16384, act := 0, key := 0, mask := 0, zeros := true };
     let d : Dev := wOn ({} : Dev) 0x0B 0; let s : State := { dev := d };
     s.live = true ∧ s.dev.updReady = true ∧ u.zeros = true ∧ actOk u.act = true ∧ 16384 ≤ u.index) ∧
    (let u : UpdRec := { op := 0, stage := 0, index := 0, act := 0, key := 0, mask := 0, zeros := true };
     let d : Dev := wOn ({} : Dev) 0x0B 0; let s : State := { dev := d };
     s.live = true ∧ s.dev.updReady = true ∧ u.zeros = true ∧ actOk u.act = true ∧ u.index < 16384 ∧
     s.dev.fget Reg.CLS_CFG.PROFILE ≠ 1) ∧
    (let u : UpdRec := { op := 0, stage := 0, index := 0, act := 0, key := 0, mask := 0, zeros := true };
     let r : Rule := { key := 0, act := 0, from_ := 0, till := none };
     let d : Dev := ({} : Dev).fset Reg.CLS_CFG.PROFILE 1;
     let d : Dev := { d with cls := { d.cls with tcam := Tab.put d.cls.tcam u.index r } };
     let d : Dev := wOn d 0x0B 0; let s : State := { dev := d };
     s.live = true ∧ s.dev.updReady = true ∧ u.zeros = true ∧ s.dev.fget Reg.CLS_CFG.PROFILE = 1 ∧
     Tab.look s.dev.cls.tcam u.index = some r ∧ r.till = none ∧ r.valid (s.dev.inst 0x0B 0).active = true) ∧
    (let u : UpdRec := { op := 0, stage := 0, index := 0, act := 0, key := 0, mask := 0, zeros := true };
     let d : Dev := ({} : Dev).fset Reg.CLS_CFG.PROFILE 1; let d : Dev := wOn d 0x0B 0;
     let s : State := { dev := d };
     s.live = true ∧ s.dev.updReady = true ∧ u.zeros = true ∧ s.dev.fget Reg.CLS_CFG.PROFILE = 1 ∧
     ((Tab.look s.dev.cls.tcam u.index).any fun r => r.till.isNone && r.valid (s.dev.inst 0x0B 0).active) = false) ∧
    (let u : UpdRec := { op := 0, stage := 0, index := 0, act := 0, key := 0, mask := 0, zeros := true };
     let d : Dev := wOn ({} : Dev) 0x0B 0; let s : State := { dev := d };
     s.live = true ∧ s.dev.updReady = true ∧ u.zeros = true ∧ s.dev.fget Reg.CLS_CFG.PROFILE ≠ 1) ∧
    (let u : UpdRec := { op := 0, stage := 0, index := 0, act := 0, key := 0, mask := 0, zeros := true };
     let d : Dev := wOn ({} : Dev) 0x0B 0; let s : State := { dev := d };
     s.live = true ∧ s.dev.updReady = true ∧ u.zeros = true ∧ u.index < 4096) ∧
    (let u : UpdRec := { op := 0, stage := 0, index := 0, act := 0, key := 0, mask := 0, zeros := false };
     let c : Instr := .emAdd u; let d : Dev := wOn ({} : Dev) 0x0B 0; let s : State := { dev := d };
     s.live = true ∧ c ∈ [Instr.emAdd u, .emEnd u, .tcamAdd u, .tcamEnd u, .indir u] ∧ s.dev.updReady = true ∧
     u.zeros = false) ∧
    (let u : UpdRec := { op := 0, stage := 4, index := 0, act := 0, key := 0, mask := 0, zeros := false };
     let c : Instr := .emAdd u; let d : Dev := wOn ({} : Dev) 0x0B 0; let s : State := { dev := d };
     s.live = true ∧ c ∈ [Instr.emAdd u, .emEnd u] ∧ s.dev.updReady = true ∧ 3 < u.stage) ∧
    (let u : UpdRec := { op := 0, stage := 0, index := 0, act := 64, key := 0, mask := 0, zeros := false };
     let c : Instr := .emAdd u; let d : Dev := wOn ({} : Dev) 0x0B 0; let s : State := { dev := d };
     s.live = true ∧ c ∈ [Instr.emAdd u, .tcamAdd u] ∧ s.dev.updReady = true ∧ actOk u.act = false) ∧
    (let u : UpdRec := { op := 0, stage := 0, index := 4096, act := 0, key := 0, mask := 0, zeros := false };
     let d : Dev := wOn ({} : Dev) 0x0B 0; let s : State := { dev := d };
     s.live = true ∧ s.dev.updReady = true ∧ 4096 ≤ u.index) ∧
    (let ports := 0; let u : UpdRec := readUpd [(0, 5)] 0; let d : Dev := wOn ({} : Dev) 0x0B 0;
     let d : Dev := { d with mem := { d.mem with dram := [(0, 5)] } }; let s : State := { dev := d };
     s.live = true ∧ s.dev.updReady = true ∧ ports < 65536 ∧
     readUpd s.dev.mem.dram (s.dev.fget Reg.CLS_UPD_ADDR.ADDR) = u ∧ u.zeros = true ∧ u.op = 5 ∧ u.index < 4096) ∧
    (let u : UpdRec := readUpd [(0, 5), (162, 5)] 0; let v : UpdRec := readUpd [(0, 5), (162, 5)] 160;
     let d : Dev := wOn ({} : Dev) 0x0B 0;
     let d : Dev := { d with mem := { d.mem with dram := [(0, 5), (162, 5)] } }; let s : State := { dev := d };
     let a : Nat := (s.dev.fget Reg.CLS_UPD_ADDR.ADDR);
     s.live = true ∧ s.dev.updReady = true ∧ a = s.dev.fget Reg.CLS_UPD_ADDR.ADDR ∧ readUpd s.dev.mem.dram a = u ∧
     u.zeros = true ∧ u.op = 5 ∧ u.index < 4096 ∧ readUpd s.dev.mem.dram (a + 160) = v ∧ v.zeros = false) ∧
    (let u : UpdRec := readUpd [(2, 5)] 0; let d : Dev := wOn ({} : Dev) 0x0B 0;
     let d : Dev := { d with mem := { d.mem with dram := [(2, 5)] } }; let s : State := { dev := d };
     s.live = true ∧ s.dev.updReady = true ∧ readUpd s.dev.mem.dram (s.dev.fget Reg.CLS_UPD_ADDR.ADDR) = u ∧
     u.zeros = false) ∧
    (let d : Dev := wOn ({} : Dev) 0x0B 0; let s : State := { dev := d };
     s.live = true ∧ s.dev.updReady = true) ∧
    (let count := 0; let ports := 0;
     let u : UpdRec := { op := 0, stage := 0, index := 0, act := 0, key := 0, mask := 0, zeros := false };
     let c : Instr := .classUpdateLoad count ports; let s : State := {};
     s.live = true ∧ c ∈ [Instr.classUpdateLoad count ports, .emAdd u, .emEnd u, .tcamAdd u, .tcamEnd u, .indir u] ∧
     s.dev.updReady = false) := by
  refine ⟨?_, ?_, ?_, ?_, ?_, ?_, ?_, ?_, ?_, ?_, ?_, ?_, ?_, ?_, ?_, ?_, ?_, ?_, ?_, ?_, ?_, ?_⟩
  · decide +kernel
  · decide +kernel
  · decide +kernel
  · decide +kernel
  · decide +kernel
  · decide +kernel
  · decide +kernel
  · decide +kernel
  · decide +kernel
  · decide +kernel
  · decide +kernel
  · decide +kernel
  · decide +kernel
  · exact ⟨by decide +kernel, by first | decide +kernel | rfl | simp [URec.laddr], by decide +kernel, by decide +kernel⟩
  · exact ⟨by decide +kernel, by first | decide +kernel | rfl | simp [URec.laddr], by decide +kernel, by decide +kernel⟩
  · exact ⟨by decide +kernel, by first | decide +kernel | rfl | simp [URec.laddr], by decide +kernel, by decide +kernel⟩
  · decide +kernel
  · decide +kernel
  · decide +kernel
  · decide +kernel
  · decide +kernel
  · exact ⟨by decide +kernel, by first | decide +kernel | rfl | simp [URec.laddr], by decide +kernel⟩

theorem witness_NetworkTime :
    (let d : Dev := wOn ({} : Dev) 9 0; let d : Dev := d.fset Reg.TIM_STATUS.MONO 0; let s : State := { dev := d };
     s.live = true ∧ s.dev.on 9 = true ∧ s.dev.fget Reg.TIM_STATUS.MONO = 0) ∧
    (let d : Dev := wOn ({} : Dev) 9 0; let d : Dev := d.fset Reg.TIM_STATUS.MONO 1; let s : State := { dev := d };
     s.live = true ∧ s.dev.on 9 = true ∧ s.dev.fget Reg.TIM_STATUS.MONO = 1) ∧
    (let s : State := {};
     s.live = true ∧ s.dev.on 9 = false) ∧
    (let s : State := {};
     s.live = true) ∧
    (let d : Dev := wOn ({} : Dev) 9 0; let d : Dev := d.fset Reg.TIM_CTRL.PPS_OUT_EN 1;
     let s : State := { dev := d };
     s.live = true ∧ s.dev.on 9 = true ∧ s.dev.fget Reg.TIM_CTRL.PPS_OUT_EN = 1) ∧
    (let s : State := {};
     s.live = true ∧ (s.dev.on 9 = false ∨ s.dev.fget Reg.TIM_CTRL.PPS_OUT_EN = 0)) ∧
    (let d : Dev := wOn ({} : Dev) 9 0; let d : Dev := d.fset Reg.TIM_CTRL.PPS_IN_EN 1;
     let s : State := { dev := d };
     s.live = true ∧ s.dev.on 9 = true ∧ s.dev.fget Reg.TIM_CTRL.PPS_IN_EN = 1) ∧
    (let s : State := {};
     s.live = true ∧ (s.dev.on 9 = false ∨ s.dev.fget Reg.TIM_CTRL.PPS_IN_EN = 0)) := by
  refine ⟨?_, ?_, ?_, ?_, ?_, ?_, ?_, ?_⟩ <;> decide +kernel

theorem witness_EgressScheduling :
    (let q := 0; let tc := 0; let t : Nat := 0; let id := 0; let green : Bool := true; let rest : List Nat := [];
     let e : EgrQ := { frames := id :: rest };
     let f : OutFrame := { tenant := 0, tclass := 0, len := 0, cells := 0, ports := [] };
     let d : Dev := wOn ({} : Dev) 0x0F 0; let d : Dev := wOn d 0x0E 0;
     let d : Dev := { d with swt := { d.swt with egress := Tab.put d.swt.egress (egrKey q tc t) e } };
     let d : Dev := { d with swt := { d.swt with frames := Tab.put d.swt.frames id f } };
     let s : State := { dev := d };
     s.live = true ∧ (s.dev.egrPort q).tx = none ∧ (s.dev.egrPort q).downSince = none ∧ s.dev.on 0x0F = true ∧
     s.dev.on 0x0E = true ∧ s.dev.chooseClass q = some (tc, t, green) ∧
     Tab.look s.dev.swt.egress (egrKey q tc t) = some e ∧ e.frames = id :: rest ∧ Tab.look s.dev.swt.frames id = some f) ∧
    (let q := 0; let s : State := {};
     s.live = true ∧
     ((s.dev.settleTx q).chooseClass q = none ∨ ((s.dev.settleTx q).egrPort q).tx.isSome = true ∨ ((s.dev.settleTx q).egrPort q).downSince.isSome = true ∨ s.dev.on 0x0F = false ∨ s.dev.on 0x0E = false)) ∧
    (let q := 0; let f : OutFrame := { tenant := 0, tclass := 0, len := 0, cells := 0, ports := [q] };
     let d : Dev := {}; let d : Dev := { d with swt := { d.swt with waiting := [f] } };
     let s : State := { dev := d };
     s.live = true ∧ s.dev.swt.waiting = [f] ∧ f.ports = [q] ∧ (s.dev.egrPort q).downSince = none ∧
     (s.dev.egrPort q).expired = false ∧ s.dev.hasRoom f = true) ∧
    (let q := 0; let f : OutFrame := { tenant := 0, tclass := 0, len := 0, cells := 0, ports := [q] };
     let d : Dev := {}; let d : Dev := { d with swt := { d.swt with waiting := [f] } };
     let d : Dev := d.setEgrPort q { d.egrPort q with expired := true }; let s : State := { dev := d };
     s.live = true ∧ s.dev.swt.waiting = [f] ∧ f.ports = [q] ∧ (s.dev.egrPort q).expired = true) ∧
    (let f : OutFrame := { tenant := 0, tclass := 0, len := 0, cells := 98305, ports := [0] }; let d : Dev := {};
     let d : Dev := { d with swt := { d.swt with waiting := [f] } }; let s : State := { dev := d };
     s.live = true ∧ s.dev.swt.waiting = [f] ∧ f.ports ≠ [] ∧
     f.ports.all (fun q => (s.dev.egrPort q).downSince.isNone && !(s.dev.egrPort q).expired) = true ∧
     s.dev.hasRoom f = false) ∧
    (let s : State := {};
     s.live = true ∧ s.dev.swt.waiting = []) ∧
    (let d : Dev := wOn ({} : Dev) 0x0E 0; let d : Dev := d.fset Reg.SWT_CFG.AUDIT_MS 1;
     let s : State := { dev := d };
     s.live = true ∧ s.dev.on 0x0E = true ∧ s.dev.fget Reg.SWT_CFG.AUDIT_MS ≠ 0 ∧ s.dev.swt.audit = none) ∧
    (let s : State := {};
     s.live = true ∧ (s.dev.on 0x0E = false ∨ s.dev.fget Reg.SWT_CFG.AUDIT_MS = 0 ∨ s.dev.swt.audit.isSome = true)) ∧
    (let d : Dev := {}; let d : Dev := { d with swt := { d.swt with audit := some 0 } };
     let s : State := { dev := d };
     s.live = true ∧ s.dev.swt.audit.isSome = true) ∧
    (let n := 1; let d : Dev := {}; let d : Dev := { d with swt := { d.swt with audit := some 0 } };
     let s : State := { dev := d };
     s.live = true ∧ s.dev.swt.audit.isSome = true ∧ 0 < n) ∧
    (let s : State := {};
     s.live = true ∧ s.dev.swt.audit = none) ∧
    (let n := 0; let d : Dev := ({} : Dev).fset Reg.SCH_TEN_UPDATE.BUSY 0; let d : Dev := wOn d 0x0F 0;
     let d : Dev := { d with mem := { d.mem with dram := d.mem.dram.setBytes 0 (leBytes 0 4 ++ leBytes 1 4 ++ leBytes 0 4 ++ leBytes 9236 4 ++ [1, 1]) } };
     let s : State := { dev := d };
     let sh : Shaper := (match Dev.readShaper s.dev 0 0 with | .ok (some x) => x | _ => ({ cr := 0, pr := 0, cb := 0, pb := 0, weight := 0, c := 0, e := 0 } : Shaper));
     s.live = true ∧ s.dev.fget Reg.SCH_TEN_UPDATE.BUSY = 0 ∧ s.dev.on 0x0F = true ∧
     s.dev.readShaper (s.dev.fget Reg.SCH_TEN_TAB.ADDR * 4096) n = .ok (some sh) ∧ Tab.look s.dev.sch.ten n = none) ∧
    (let n := 0; let old : Shaper := { cr := 0, pr := 0, cb := 0, pb := 0, weight := 0, c := 0, e := 0 };
     let d : Dev := ({} : Dev).fset Reg.SCH_TEN_UPDATE.BUSY 0; let d : Dev := wOn d 0x0F 0;
     let d : Dev := { d with sch := { d.sch with ten := Tab.put d.sch.ten n old } };
     let d : Dev := { d with mem := { d.mem with dram := d.mem.dram.setBytes 0 (leBytes 0 4 ++ leBytes 1 4 ++ leBytes 0 4 ++ leBytes 9236 4 ++ [1, 1]) } };
     let s : State := { dev := d };
     let sh : Shaper := (match Dev.readShaper s.dev 0 0 with | .ok (some x) => x | _ => ({ cr := 0, pr := 0, cb := 0, pb := 0, weight := 0, c := 0, e := 0 } : Shaper));
     s.live = true ∧ s.dev.fget Reg.SCH_TEN_UPDATE.BUSY = 0 ∧ s.dev.on 0x0F = true ∧
     s.dev.readShaper (s.dev.fget Reg.SCH_TEN_TAB.ADDR * 4096) n = .ok (some sh) ∧ Tab.look s.dev.sch.ten n = some old) ∧
    (let n := 0; let d : Dev := ({} : Dev).fset Reg.SCH_TEN_UPDATE.BUSY 0; let d : Dev := wOn d 0x0F 0;
     let s : State := { dev := d };
     s.live = true ∧ s.dev.fget Reg.SCH_TEN_UPDATE.BUSY = 0 ∧ s.dev.on 0x0F = true ∧
     s.dev.readShaper (s.dev.fget Reg.SCH_TEN_TAB.ADDR * 4096) n = .ok none) ∧
    (let n := 0; let r := 6; let d : Dev := ({} : Dev).fset Reg.SCH_TEN_UPDATE.BUSY 0; let d : Dev := wOn d 0x0F 0;
     let d : Dev := { d with mem := { d.mem with dram := d.mem.dram.setBytes 0 (leBytes 0 16 ++ [1, 1]) } };
     let s : State := { dev := d };
     s.live = true ∧ s.dev.fget Reg.SCH_TEN_UPDATE.BUSY = 0 ∧ s.dev.on 0x0F = true ∧
     s.dev.readShaper (s.dev.fget Reg.SCH_TEN_TAB.ADDR * 4096) n = .error r ∧ r < 256) ∧
    (let s : State := {};
     s.live = true ∧ (s.dev.fget Reg.SCH_TEN_UPDATE.BUSY = 1 ∨ s.dev.on 0x0F = false)) ∧
    (let n := 1; let d : Dev := ({} : Dev).fset Reg.SCH_POL_UPDATE.BUSY 0; let d : Dev := wOn d 0x0F 0;
     let d : Dev := { d with mem := { d.mem with dram := d.mem.dram.setBytes 32 (leBytes 0 4 ++ leBytes 1 4 ++ leBytes 0 4 ++ leBytes 9216 4 ++ [0, 0, 1]) } };
     let s : State := { dev := d };
     let p : Policer := (match Dev.readPolicer s.dev 0 1 with | .ok (some x) => x | _ => ({ cir := 0, pir := 0, cbs := 0, pbs := 0, tenant := 0, tc := 0, tp := 0 } : Policer));
     s.live = true ∧ s.dev.fget Reg.SCH_POL_UPDATE.BUSY = 0 ∧ s.dev.on 0x0F = true ∧ n ≠ 0 ∧
     s.dev.readPolicer (s.dev.fget Reg.SCH_POL_TAB.ADDR * 4096) n = .ok (some p) ∧ Tab.look s.dev.sch.pol n = none) ∧
    (let n := 1; let old : Policer := { cir := 0, pir := 0, cbs := 0, pbs := 0, tenant := 0, tc := 0, tp := 0 };
     let d : Dev := ({} : Dev).fset Reg.SCH_POL_UPDATE.BUSY 0; let d : Dev := wOn d 0x0F 0;
     let d : Dev := { d with sch := { d.sch with pol := Tab.put d.sch.pol n old } };
     let d : Dev := { d with mem := { d.mem with dram := d.mem.dram.setBytes 32 (leBytes 0 4 ++ leBytes 1 4 ++ leBytes 0 4 ++ leBytes 9216 4 ++ [0, 0, 1]) } };
     let s : State := { dev := d };
     let p : Policer := (match Dev.readPolicer s.dev 0 1 with | .ok (some x) => x | _ => ({ cir := 0, pir := 0, cbs := 0, pbs := 0, tenant := 0, tc := 0, tp := 0 } : Policer));
     s.live = true ∧ s.dev.fget Reg.SCH_POL_UPDATE.BUSY = 0 ∧ s.dev.on 0x0F = true ∧ n ≠ 0 ∧
     s.dev.readPolicer (s.dev.fget Reg.SCH_POL_TAB.ADDR * 4096) n = .ok (some p) ∧ Tab.look s.dev.sch.pol n = some old) ∧
    (let n := 1; let d : Dev := ({} : Dev).fset Reg.SCH_POL_UPDATE.BUSY 0; let d : Dev := wOn d 0x0F 0;
     let s : State := { dev := d };
     s.live = true ∧ s.dev.fget Reg.SCH_POL_UPDATE.BUSY = 0 ∧ s.dev.on 0x0F = true ∧ n ≠ 0 ∧
     s.dev.readPolicer (s.dev.fget Reg.SCH_POL_TAB.ADDR * 4096) n = .ok none) ∧
    (let n := 0; let r := 2; let d : Dev := ({} : Dev).fset Reg.SCH_POL_UPDATE.BUSY 0; let d : Dev := wOn d 0x0F 0;
     let s : State := { dev := d };
     s.live = true ∧ s.dev.fget Reg.SCH_POL_UPDATE.BUSY = 0 ∧ s.dev.on 0x0F = true ∧
     (n = 0 ∧ r = 2 ∨ n ≠ 0 ∧ s.dev.readPolicer (s.dev.fget Reg.SCH_POL_TAB.ADDR * 4096) n = .error r) ∧ r < 256) ∧
    (let s : State := {};
     s.live = true ∧ (s.dev.fget Reg.SCH_POL_UPDATE.BUSY = 1 ∨ s.dev.on 0x0F = false)) ∧
    (let ctx := 0; let l : Limiter := { port := 0, rate := 0, since := 0 }; let d : Dev := {};
     let d : Dev := { d with sch := { d.sch with lim := Tab.put d.sch.lim ctx l } }; let s : State := { dev := d };
     s.live = true ∧ Tab.look s.dev.sch.lim ctx = some l ∧
     l.since + s.dev.fget Reg.SCH_CNP.RECOVER_US * 1000 ≤ s.dev.now ∧
     l.rate + s.dev.fget Reg.SCH_CNP.STEP * 100 < s.dev.portRate l.port) ∧
    (let ctx := 0; let l : Limiter := { port := 0, rate := 400000, since := 0 }; let d : Dev := {};
     let d : Dev := { d with sch := { d.sch with lim := Tab.put d.sch.lim ctx l } }; let s : State := { dev := d };
     s.live = true ∧ Tab.look s.dev.sch.lim ctx = some l ∧
     l.since + s.dev.fget Reg.SCH_CNP.RECOVER_US * 1000 ≤ s.dev.now ∧
     s.dev.portRate l.port ≤ l.rate + s.dev.fget Reg.SCH_CNP.STEP * 100) ∧
    (let ctx := 0; let s : State := {};
     s.live = true ∧
     ((Tab.look s.dev.sch.lim ctx).any fun l => decide (l.since + s.dev.fget Reg.SCH_CNP.RECOVER_US * 1000 ≤ s.dev.now)) = false) ∧
    (let g : NetGates := {}; let st := 1; let d : Dev := {};
     let d : Dev := { d with sch := { d.sch with next := some (g, st) } };
     let d : Dev := { d with tim := { d.tim with ns := 1 } }; let s : State := { dev := d };
     s.live = true ∧ s.dev.sch.next = some (g, st) ∧ st ≤ s.dev.now ∧ st < 2 ^ 64 ∧
     (s.dev.inst 0x0F 0).swapReady = false ∧ (s.dev.inst 0x0F 0).heldDisable = false) ∧
    (let s : State := {};
     s.live = true ∧ (s.dev.sch.next.any fun p => decide (p.2 ≤ s.dev.now)) = false ∧
     (s.dev.inst 0x0F 0).heldDisable = false) ∧
    (let q := 0; let t : Nat := 0; let d : Dev := {};
     let d : Dev := d.setEgrPort q { d.egrPort q with downSince := some t }; let s : State := { dev := d };
     s.live = true ∧ (s.dev.egrPort q).downSince = some t ∧ (s.dev.egrPort q).expired = false ∧
     t + s.dev.holdNs q ≤ s.dev.now) ∧
    (let q := 0; let s : State := {};
     s.live = true ∧
     ((s.dev.egrPort q).expired = true ∨ ((s.dev.egrPort q).downSince.any fun t => decide (t + s.dev.holdNs q ≤ s.dev.now)) = false)) := by
  refine ⟨?_, ?_, ?_, ?_, ?_, ?_, ?_, ?_, ?_, ?_, ?_, ?_, ?_, ?_, ?_, ?_, ?_, ?_, ?_, ?_, ?_, ?_, ?_, ?_, ?_, ?_, ?_, ?_⟩ <;> decide +kernel

theorem witness_Roce :
    (let s : State := {};
     s.live = true ∧ s.dev.transOn 0x0C = false) ∧
    (let n := 0; let tenant := 0; let d : Dev := wOn ({} : Dev) 0x0C 0; let s : State := { dev := d };
     s.live = true ∧ s.dev.transOn 0x0C = true ∧
     (s.dev.ctxAny 0x0C n = none ∨ s.dev.ctxIn 0x0C n = false ∨ ∃ x, s.dev.ctxAny 0x0C n = some x ∧ x.tenant ≠ tenant)) ∧
    (let pipe := 0; let n := 0; let tenant := 0; let x : Ctx := readCtx [] 0; let d : Dev := wOn ({} : Dev) 0x0C 0;
     let d : Dev := d.fset Reg.XPT_CTX.MAX 1;
     let d : Dev := { d with xpt := { d.xpt with t := { d.xpt.t with spilled := [n] } } };
     let s : State := { dev := d };
     s.live = true ∧ s.dev.transOn 0x0C = true ∧ s.dev.ctx 0x0C n = none ∧ s.dev.ctxAny 0x0C n = some x ∧
     x.tenant = tenant ∧ s.dev.ctxIn 0x0C n = true ∧ pipe < 2 ∧ s.dev.inMiss n = false ∧
     ((Tab.look s.dev.trans.miss pipe).getD []).length < 512) ∧
    (let pipe := 0; let n := 0; let tenant := 0; let x : Ctx := readCtx [] 0; let d : Dev := wOn ({} : Dev) 0x0C 0;
     let d : Dev := d.fset Reg.XPT_CTX.MAX 1;
     let d : Dev := { d with xpt := { d.xpt with t := { d.xpt.t with spilled := [n] } } };
     let d : Dev := { d with trans := { d.trans with miss := [(0, List.replicate 512 { ctx := 1, rx := .cnp })] } };
     let s : State := { dev := d };
     s.live = true ∧ s.dev.transOn 0x0C = true ∧ s.dev.ctx 0x0C n = none ∧ s.dev.ctxAny 0x0C n = some x ∧
     x.tenant = tenant ∧ s.dev.ctxIn 0x0C n = true ∧ pipe < 2 ∧ s.dev.inMiss n = false ∧
     512 ≤ ((Tab.look s.dev.trans.miss pipe).getD []).length) ∧
    (let n := 0; let tenant := 0; let x : Ctx := { state := 2, tenant := tenant };
     let d : Dev := wCtx ((wOn ({} : Dev) 0x0C 0).fset Reg.XPT_CTX.MAX 262144) 0x0C n x;
     let s : State := { dev := d };
     s.live = true ∧ s.dev.hasCtx 0x0C n tenant x = true ∧ x.state ≠ 1) ∧
    (let n := 0; let tenant := 0; let c : Ctx := { tenant := tenant, state := 1 };
     let d : Dev := wCtx ((wOn ({} : Dev) 0x0C 0).fset Reg.XPT_CTX.MAX 262144) 0x0C n c;
     let d : Dev := d.fset Reg.XPT_TIMER.ACK_COAL 1; let s : State := { dev := d };
     s.live = true ∧ s.dev.hasCtx 0x0C n tenant c = true ∧ c.state = 1 ∧ c.epsn < 2 ^ 24 ∧ s.dev.recording = false ∧
     s.dev.fget Reg.XPT_TIMER.ACK_COAL ≠ 0) ∧
    (let n := 0; let tenant := 0; let c : Ctx := { tenant := tenant, state := 1 };
     let d : Dev := wCtx ((wOn ({} : Dev) 0x0C 0).fset Reg.XPT_CTX.MAX 262144) 0x0C n c;
     let d : Dev := d.fset Reg.XPT_TIMER.ACK_COAL 1; let d : Dev := wOn d 0x19 0;
     let d : Dev := d.fset Reg.ROPE_PAIR.PAIRED 1; let s : State := { dev := d };
     s.live = true ∧ s.dev.hasCtx 0x0C n tenant c = true ∧ c.state = 1 ∧ c.epsn < 2 ^ 24 ∧ s.dev.recording = true ∧
     s.dev.fget Reg.XPT_TIMER.ACK_COAL ≠ 0) ∧
    (let n := 0; let tenant := 0; let c : Ctx := { tenant := tenant, state := 1 };
     let d : Dev := wCtx ((wOn ({} : Dev) 0x0C 0).fset Reg.XPT_CTX.MAX 262144) 0x0C n c;
     let d : Dev := d.fset Reg.XPT_TIMER.ACK_COAL 1; let s : State := { dev := d };
     s.live = true ∧ s.dev.hasCtx 0x0C n tenant c = true ∧ c.state = 1 ∧ c.epsn < 2 ^ 24 ∧ s.dev.recording = false ∧
     s.dev.fget Reg.XPT_TIMER.ACK_COAL ≠ 0) ∧
    (let n := 0; let tenant := 0; let c : Ctx := { tenant := tenant, state := 1 };
     let d : Dev := wCtx ((wOn ({} : Dev) 0x0C 0).fset Reg.XPT_CTX.MAX 262144) 0x0C n c;
     let s : State := { dev := d };
     s.live = true ∧ s.dev.hasCtx 0x0C n tenant c = true ∧ c.state = 1 ∧ c.epsn < 2 ^ 24) ∧
    (let n := 0; let tenant := 0; let psn : Nat := 2 ^ 23; let c : Ctx := { tenant := tenant, state := 1 };
     let d : Dev := wCtx ((wOn ({} : Dev) 0x0C 0).fset Reg.XPT_CTX.MAX 262144) 0x0C n c;
     let d : Dev := d.fset Reg.XPT_TIMER.ACK_COAL 1; let s : State := { dev := d };
     s.live = true ∧ s.dev.hasCtx 0x0C n tenant c = true ∧ c.state = 1 ∧ 2 ^ 23 ≤ (psn + 2 ^ 24 - c.epsn) % 2 ^ 24 ∧
     s.dev.fget Reg.XPT_TIMER.ACK_COAL ≠ 0) ∧
    (let n := 0; let tenant := 0; let psn := 1; let c : Ctx := { tenant := tenant, state := 1 };
     let d : Dev := wCtx ((wOn ({} : Dev) 0x0C 0).fset Reg.XPT_CTX.MAX 262144) 0x0C n c;
     let s : State := { dev := d };
     s.live = true ∧ s.dev.hasCtx 0x0C n tenant c = true ∧ c.state = 1 ∧ 0 < (psn + 2 ^ 24 - c.epsn) % 2 ^ 24 ∧
     (psn + 2 ^ 24 - c.epsn) % 2 ^ 24 < 2 ^ 23 ∧ (s.dev.rconn n).nakSent = false) ∧
    (let n := 0; let tenant := 0; let psn := 1; let c : Ctx := { tenant := tenant, state := 1 };
     let d : Dev := wCtx ((wOn ({} : Dev) 0x0C 0).fset Reg.XPT_CTX.MAX 262144) 0x0C n c;
     let d : Dev := d.setRconn n { d.rconn n with nakSent := true }; let s : State := { dev := d };
     s.live = true ∧ s.dev.hasCtx 0x0C n tenant c = true ∧ c.state = 1 ∧ 0 < (psn + 2 ^ 24 - c.epsn) % 2 ^ 24 ∧
     (psn + 2 ^ 24 - c.epsn) % 2 ^ 24 < 2 ^ 23 ∧ (s.dev.rconn n).nakSent = true) ∧
    (let n := 0; let tenant := 0; let psn := 1; let c : Ctx := { tenant := tenant, state := 1 };
     let d : Dev := wCtx ((wOn ({} : Dev) 0x0C 0).fset Reg.XPT_CTX.MAX 262144) 0x0C n c;
     let d : Dev := d.setRconn n { d.rconn n with nakSent := true }; let d : Dev := d.fset Reg.XPT_CFG.CNP_EN 1;
     let s : State := { dev := d };
     s.live = true ∧ s.dev.hasCtx 0x0C n tenant c = true ∧ c.state = 1 ∧ 0 < (psn + 2 ^ 24 - c.epsn) % 2 ^ 24 ∧
     (psn + 2 ^ 24 - c.epsn) % 2 ^ 24 < 2 ^ 23 ∧ (s.dev.rconn n).nakSent = true ∧ s.dev.fget Reg.XPT_CFG.CNP_EN = 1 ∧
     (s.dev.rconn n).lastCnp.all (fun t => decide (t + 50000 ≤ s.dev.now)) = true) ∧
    (let n := 0; let p := 0; let c : Ctx := {}; let d : Dev := wOn ({} : Dev) 0x0C 0; let d : Dev := wCtx d 0x0C n c;
     let d : Dev := d.setRconn n { d.rconn n with owe := some p }; let s : State := { dev := d };
     s.live = true ∧ s.dev.transOn 0x0C = true ∧ s.dev.ctx 0x0C n = some c ∧ (s.dev.rconn n).owe = some p ∧
     (s.dev.rconn n).recPsns = []) ∧
    (let n := 0; let p := 0; let q := 2; let ps : List Nat := []; let c : Ctx := {};
     let d : Dev := wOn ({} : Dev) 0x0C 0; let d : Dev := wCtx d 0x0C n c;
     let d : Dev := d.setRconn n { d.rconn n with owe := some p };
     let d : Dev := d.setRconn n { d.rconn n with recPsns := q :: ps }; let s : State := { dev := d };
     s.live = true ∧ s.dev.transOn 0x0C = true ∧ s.dev.ctx 0x0C n = some c ∧ (s.dev.rconn n).owe = some p ∧
     (s.dev.rconn n).recPsns = q :: ps ∧ psnLe ((q + 2 ^ 24 - 1) % 2 ^ 24) c.acked = false) ∧
    (let n := 0; let s : State := {};
     s.live = true ∧ (s.dev.transOn 0x0C = false ∨ s.dev.ctxAny 0x0C n = none)) ∧
    (let n := 0; let c : Ctx := {}; let d : Dev := wCtx ({} : Dev) 0x0C n c; let s : State := { dev := d };
     s.live = true ∧ s.dev.ctx 0x0C n = some c ∧ (s.dev.rconn n).owe = none) ∧
    (let n := 0; let tenant := 0; let psn := 0; let c : Ctx := { npsn := 1, tenant := tenant, state := 1 };
     let d : Dev := wCtx ((wOn ({} : Dev) 0x0C 0).fset Reg.XPT_CTX.MAX 262144) 0x0C n c;
     let s : State := { dev := d };
     s.live = true ∧ s.dev.hasCtx 0x0C n tenant c = true ∧ c.state = 1 ∧ (s.dev.rconn n).out = [] ∧
     (psn + 1) % 2 ^ 24 ≠ c.una ∧ psnLe c.una ((psn + 1) % 2 ^ 24) = true ∧ psnLe ((psn + 1) % 2 ^ 24) c.npsn = true) ∧
    (let n := 0; let tenant := 0; let psn := 0; let c : Ctx := { tenant := tenant, state := 1 };
     let d : Dev := wCtx ((wOn ({} : Dev) 0x0C 0).fset Reg.XPT_CTX.MAX 262144) 0x0C n c;
     let s : State := { dev := d };
     s.live = true ∧ s.dev.hasCtx 0x0C n tenant c = true ∧ c.state = 1 ∧ (s.dev.rconn n).out = [] ∧
     ((psn + 1) % 2 ^ 24 = c.una ∨ psnLe c.una ((psn + 1) % 2 ^ 24) = false ∨ psnLe ((psn + 1) % 2 ^ 24) c.npsn = false)) ∧
    (let n := 0; let tenant := 0; let code := 0;
     let c : Ctx := { una := 0, npsn := 1, tenant := tenant, state := 1 };
     let x : Xfer := { write := false, handle := 0, token := 0, off := 0, len := 0, tenant := 0, nsh := 0, cmdref := 0, runToken := 0, gen := 0, relay := false };
     let m : TxMsg := { op := .write, tag := 0, cmdref := 0, state := .sent, xfer := some x, psn := 0, pkts := 1 };
     let d : Dev := wCtx ((wOn ({} : Dev) 0x0C 0).fset Reg.XPT_CTX.MAX 262144) 0x0C n c;
     let d : Dev := d.setRconn n { d.rconn n with out := [m] }; let s : State := { dev := d };
     s.live = true ∧ s.dev.hasCtx 0x0C n tenant c = true ∧ c.state = 1 ∧ (s.dev.rconn n).out = [m] ∧
     s.dev.recording = false ∧ m.state = .sent ∧ m.op = .write ∧ m.xfer = some x ∧ x.relay = false ∧ c.una = m.psn ∧
     m.pkts = 1 ∧ m.psn < 2 ^ 24 ∧ c.npsn = (m.psn + 1) % 2 ^ 24 ∧ code < 31 ∧ s.dev.pitch.queue.length < 8192 ∧
     s.dev.pitch.held = []) ∧
    (let n := 0; let tenant := 0; let c : Ctx := { retry := 2, tenant := tenant, state := 1 };
     let d : Dev := wCtx ((wOn ({} : Dev) 0x0C 0).fset Reg.XPT_CTX.MAX 262144) 0x0C n c;
     let s : State := { dev := d };
     s.live = true ∧ s.dev.hasCtx 0x0C n tenant c = true ∧ c.state = 1 ∧ (s.dev.rconn n).out = [] ∧ 2 ≤ c.retry) ∧
    (let n := 0; let tenant := 0; let c : Ctx := { rnr := 2, tenant := tenant, state := 1 };
     let d : Dev := wCtx ((wOn ({} : Dev) 0x0C 0).fset Reg.XPT_CTX.MAX 262144) 0x0C n c;
     let s : State := { dev := d };
     s.live = true ∧ s.dev.hasCtx 0x0C n tenant c = true ∧ c.state = 1 ∧ (s.dev.rconn n).out = [] ∧ 2 ≤ c.rnr) ∧
    (let n := 0; let tenant := 0; let c : Ctx := { tenant := tenant, state := 1 }; let k : Nak := .sequence;
     let d : Dev := wCtx ((wOn ({} : Dev) 0x0C 0).fset Reg.XPT_CTX.MAX 262144) 0x0C n c;
     let s : State := { dev := d };
     s.live = true ∧ s.dev.hasCtx 0x0C n tenant c = true ∧ c.state = 1 ∧ (s.dev.rconn n).out = [] ∧
     (k = .sequence → c.retry ≤ 1) ∧ (k = .rnr → c.rnr ≤ 1)) ∧
    (let n := 0; let tenant := 0; let psn := 0; let c : Ctx := { tenant := tenant, state := 1 };
     let x : Xfer := { write := false, handle := 0, token := 0, off := 0, len := 1, tenant := 0, nsh := 0, cmdref := 0, runToken := 0, gen := 0 };
     let m : TxMsg := { op := .read, tag := 0, cmdref := 0, state := .sent, xfer := some x };
     let data : List Byte := []; let d : Dev := wCtx ((wOn ({} : Dev) 0x0C 0).fset Reg.XPT_CTX.MAX 262144) 0x0C n c;
     let d : Dev := d.setRconn n { d.rconn n with out := [m] }; let s : State := { dev := d };
     s.live = true ∧ s.dev.hasCtx 0x0C n tenant c = true ∧ c.state = 1 ∧ (s.dev.rconn n).out = [m] ∧ m.op = .read ∧
     m.state = .sent ∧ m.xfer = some x ∧ m.readFrom c.mtu = some psn ∧ data.length ≤ c.mtu ∧
     x.got + data.length < x.len) ∧
    (let n := 0; let tenant := 0; let psn := 0; let c : Ctx := { tenant := tenant, state := 1 };
     let x : Xfer := { write := false, handle := 0, token := 0, off := 0, len := 0, tenant := 0, nsh := 0, cmdref := 0, runToken := 0, gen := 0, relay := false };
     let m : TxMsg := { op := .read, tag := 0, cmdref := 0, state := .sent, xfer := some x };
     let data : List Byte := []; let d : Dev := wCtx ((wOn ({} : Dev) 0x0C 0).fset Reg.XPT_CTX.MAX 262144) 0x0C n c;
     let d : Dev := d.setRconn n { d.rconn n with out := [m] }; let s : State := { dev := d };
     s.live = true ∧ s.dev.hasCtx 0x0C n tenant c = true ∧ c.state = 1 ∧ (s.dev.rconn n).out = [m] ∧ m.op = .read ∧
     m.state = .sent ∧ m.xfer = some x ∧ x.relay = false ∧ m.readFrom c.mtu = some psn ∧ data.length ≤ c.mtu ∧
     x.got + data.length = x.len ∧ s.dev.pitch.queue.length < 8192 ∧ s.dev.pitch.held = []) ∧
    (let n := 0; let tenant := 0; let psn := 0; let c : Ctx := { tenant := tenant };
     let d : Dev := wCtx ((wOn ({} : Dev) 0x0C 0).fset Reg.XPT_CTX.MAX 262144) 0x0C n c;
     let s : State := { dev := d };
     s.live = true ∧ s.dev.hasCtx 0x0C n tenant c = true ∧ (∀ m ∈ (s.dev.rconn n).out, m.readFrom c.mtu ≠ some psn)) ∧
    (let n := 0; let c : Ctx := { npsn := 1, retry := 2, state := 1 }; let d : Dev := wOn ({} : Dev) 0x0C 0;
     let d : Dev := wCtx d 0x0C n c; let s : State := { dev := d };
     s.live = true ∧ s.dev.transOn 0x0C = true ∧ s.dev.ctx 0x0C n = some c ∧ c.state = 1 ∧ c.una ≠ c.npsn ∧
     (s.dev.rconn n).unaSince + s.dev.fget Reg.XPT_TIMER.ACK_TO_US * 1000 ≤ s.dev.now ∧ 2 ≤ c.retry ∧
     (s.dev.rconn n).out = []) ∧
    (let n := 0; let c : Ctx := { npsn := 1, state := 1 }; let d : Dev := wOn ({} : Dev) 0x0C 0;
     let d : Dev := wCtx d 0x0C n c; let s : State := { dev := d };
     s.live = true ∧ s.dev.transOn 0x0C = true ∧ s.dev.ctx 0x0C n = some c ∧ c.state = 1 ∧ c.una ≠ c.npsn ∧
     (s.dev.rconn n).unaSince + s.dev.fget Reg.XPT_TIMER.ACK_TO_US * 1000 ≤ s.dev.now ∧ c.retry ≤ 1) ∧
    (let n := 0; let c : Ctx := {}; let d : Dev := wCtx ({} : Dev) 0x0C n c; let s : State := { dev := d };
     s.live = true ∧ s.dev.ctx 0x0C n = some c ∧
     (c.una = c.npsn ∨ c.state ≠ 1 ∨ s.dev.transOn 0x0C = false ∨ s.dev.now < (s.dev.rconn n).unaSince + s.dev.fget Reg.XPT_TIMER.ACK_TO_US * 1000)) ∧
    (let n := 0; let s : State := {};
     s.live = true ∧ s.dev.ctx 0x0C n = none) ∧
    (let n := 0; let c : Ctx := {}; let d : Dev := wOn ({} : Dev) 0x0C 0; let d : Dev := wCtx d 0x0C n c;
     let d : Dev := d.setRconn n { d.rconn n with rnrWait := true }; let s : State := { dev := d };
     s.live = true ∧ s.dev.transOn 0x0C = true ∧ s.dev.ctx 0x0C n = some c ∧ (s.dev.rconn n).rnrWait = true ∧
     (s.dev.rconn n).out = []) ∧
    (let n := 0; let s : State := {};
     s.live = true ∧ (s.dev.rconn n).rnrWait = false) ∧
    (let n := 0; let tenant := 0; let c : Ctx := { tenant := tenant };
     let d : Dev := wCtx ((wOn ({} : Dev) 0x0C 0).fset Reg.XPT_CTX.MAX 262144) 0x0C n c;
     let s : State := { dev := d };
     s.live = true ∧ s.dev.hasCtx 0x0C n tenant c = true ∧ Tab.look s.dev.sch.lim n = none ∧
     s.dev.sch.lim.length < 4096) ∧
    (let n := 0; let tenant := 0; let c : Ctx := { tenant := tenant };
     let l : Limiter := { port := 0, rate := 0, since := 0 };
     let d : Dev := wCtx ((wOn ({} : Dev) 0x0C 0).fset Reg.XPT_CTX.MAX 262144) 0x0C n c;
     let d : Dev := { d with sch := { d.sch with lim := Tab.put d.sch.lim n l } }; let s : State := { dev := d };
     s.live = true ∧ s.dev.hasCtx 0x0C n tenant c = true ∧ Tab.look s.dev.sch.lim n = some l) ∧
    (let d : Dev := wOn ({} : Dev) 0x0C 0; let d : Dev := d.fset Reg.CLS_WRING.LOG2 1; let s : State := { dev := d };
     let h : Nat := (s.dev.fget Reg.CLS_WRING_IDX.HEAD);
     s.live = true ∧ s.dev.transOn 0x0C = true ∧ h = s.dev.fget Reg.CLS_WRING_IDX.HEAD ∧
     s.dev.fget Reg.CLS_WRING.LOG2 ≤ 12 ∧
     (h + 1) % 2 ^ s.dev.fget Reg.CLS_WRING.LOG2 ≠ s.dev.fget Reg.CLS_WRING_IDX.TAIL % 2 ^ s.dev.fget Reg.CLS_WRING.LOG2) ∧
    (let d : Dev := wOn ({} : Dev) 0x0C 0; let s : State := { dev := d };
     s.live = true ∧ s.dev.transOn 0x0C = true ∧
     (s.dev.fget Reg.CLS_WRING_IDX.HEAD + 1) % 2 ^ s.dev.fget Reg.CLS_WRING.LOG2 = s.dev.fget Reg.CLS_WRING_IDX.TAIL % 2 ^ s.dev.fget Reg.CLS_WRING.LOG2) ∧
    (let s : State := {};
     s.live = true ∧ s.dev.transOn 0x0C = false) := by
  refine ⟨?_, ?_, ?_, ?_, ?_, ?_, ?_, ?_, ?_, ?_, ?_, ?_, ?_, ?_, ?_, ?_, ?_, ?_, ?_, ?_, ?_, ?_, ?_, ?_, ?_, ?_, ?_, ?_, ?_, ?_, ?_, ?_, ?_, ?_, ?_, ?_, ?_⟩ <;> decide +kernel

theorem witness_TransportContexts :
    (let n := 0; let d : Dev := wOn ({} : Dev) 0x0C 0;
     let d : Dev := { d with xpt := { d.xpt with t := { d.xpt.t with spilled := [n] } } };
     let d : Dev := d.fset Reg.XPT_CTX.RESIDENT 1; let s : State := { dev := d };
     s.live = true ∧ s.dev.transOn 0x0C = true ∧ s.dev.ctx 0x0C n = none ∧
     (s.dev.tport 0x0C).spilled.contains n = true ∧ (s.dev.tport 0x0C).res.length < s.dev.ctxRes 0x0C ∧
     s.dev.inMiss n = false ∧ (s.dev.sconn n).rxWait = []) ∧
    (let n := 0; let d : Dev := wOn ({} : Dev) 0x0C 0;
     let d : Dev := { d with trans := { d.trans with miss := [(0, [{ ctx := n, rx := .cnp }])] } };
     let d : Dev := { d with xpt := { d.xpt with t := { d.xpt.t with spilled := [n] } } };
     let d : Dev := d.fset Reg.XPT_CTX.RESIDENT 1; let s : State := { dev := d };
     s.live = true ∧ s.dev.transOn 0x0C = true ∧ s.dev.ctx 0x0C n = none ∧
     (s.dev.tport 0x0C).spilled.contains n = true ∧ (s.dev.tport 0x0C).res.length < s.dev.ctxRes 0x0C ∧
     s.dev.trans.miss = [(0, [{ ctx := n, rx := .cnp }])] ∧ (s.dev.sconn n).rxWait = []) ∧
    (let n := 0; let v := 1; let c : Ctx := ({ } : Ctx); let d : Dev := wOn ({} : Dev) 0x0C 0;
     let d : Dev := wCtx d 0x0C v c;
     let d : Dev := { d with xpt := { d.xpt with t := { d.xpt.t with spilled := [n], res := [(1, c)] } } };
     let d : Dev := d.fset Reg.XPT_SPILL.ADDR 1; let s : State := { dev := d };
     s.live = true ∧ s.dev.transOn 0x0C = true ∧ s.dev.ctx 0x0C n = none ∧
     (s.dev.tport 0x0C).spilled.contains n = true ∧ s.dev.ctxRes 0x0C ≤ (s.dev.tport 0x0C).res.length ∧
     s.dev.inMiss n = false ∧ (s.dev.sconn n).rxWait = [] ∧ s.dev.victim 0x0C = some v ∧ s.dev.ctx 0x0C v = some c ∧
     v ≠ n) ∧
    (let n := 0; let d : Dev := wOn ({} : Dev) 0x0D 0;
     let d : Dev := { d with stm := { d.stm with t := { d.stm.t with spilled := [n] } } };
     let d : Dev := d.fset Reg.STR_CTX.RESIDENT 1; let s : State := { dev := d };
     s.live = true ∧ s.dev.transOn 0x0D = true ∧ s.dev.ctxAny 0x0C n = none ∧ s.dev.ctx 0x0D n = none ∧
     (s.dev.tport 0x0D).spilled.contains n = true ∧ (s.dev.tport 0x0D).res.length < s.dev.ctxRes 0x0D ∧
     s.dev.inMiss n = false ∧ (s.dev.sconn n).rxWait = []) ∧
    (let n := 0; let c : Ctx := { flags := 4 }; let d : Dev := wOn ({} : Dev) 0x0D 0; let d : Dev := wCtx d 0x0D n c;
     let d : Dev := d.setSconn n { d.sconn n with rxWait := [.keyUpdate] }; let s : State := { dev := d };
     s.live = true ∧ s.dev.transOn 0x0D = true ∧ s.dev.ctxAny 0x0C n = none ∧ s.dev.ctx 0x0D n = some c ∧
     s.dev.inMiss n = false ∧ bitOf c.flags 2 = true ∧ (s.dev.sconn n).rxHeld = false ∧
     (s.dev.sconn n).rxWait = [.keyUpdate]) ∧
    (let n := 0; let s : State := {};
     s.live = true ∧ s.dev.ctxAny 0x0C n = none ∧ s.dev.ctxAny 0x0D n = none) ∧
    (let n := 0; let d : Dev := {};
     let d : Dev := { d with xpt := { d.xpt with t := { d.xpt.t with spilled := [n] } } };
     let s : State := { dev := d };
     s.live = true ∧ (s.dev.ctxAny 0x0C n).isSome = true ∧ s.dev.ctx 0x0C n = none ∧ (s.dev.makeSlot 0x0C).2 = false) ∧
    (let w : OpenWait := { ctx := 0, img := {}, since := 0 }; let d : Dev := {};
     let d : Dev := { d with xpt := { d.xpt with t := { d.xpt.t with wait := some w } } };
     let d : Dev := d.fset Reg.XPT_CTX.RESIDENT 1; let s : State := { dev := d };
     s.live = true ∧ (s.dev.tport 0x0C).wait = some w ∧ (s.dev.tport 0x0C).res.length < s.dev.ctxRes 0x0C) ∧
    (let w : OpenWait := { ctx := 0, img := {}, since := 0 }; let d : Dev := {};
     let d : Dev := { d with stm := { d.stm with t := { d.stm.t with wait := some w } } };
     let d : Dev := d.fset Reg.STR_CTX.RESIDENT 1; let s : State := { dev := d };
     s.live = true ∧ (s.dev.tport 0x0D).wait = some w ∧ (s.dev.tport 0x0D).res.length < s.dev.ctxRes 0x0D) ∧
    (let w : OpenWait := { ctx := 0, img := {}, since := 0 }; let d : Dev := {};
     let d : Dev := { d with xpt := { d.xpt with t := { d.xpt.t with wait := some w } } };
     let d : Dev := { d with tim := { d.tim with ns := 1000000 } }; let s : State := { dev := d };
     s.live = true ∧ (s.dev.tport 0x0C).wait = some w ∧ (s.dev.makeSlot 0x0C).2 = false ∧ w.since + 1000000 ≤ s.dev.now) ∧
    (let blk := 0x0D; let w : OpenWait := { ctx := 0, img := {}, since := 0 }; let d : Dev := {};
     let d : Dev := { d with stm := { d.stm with t := { d.stm.t with wait := some w } } };
     let s : State := { dev := d };
     s.live = true ∧ (s.dev.tport blk).wait = some w ∧ (s.dev.makeSlot blk).2 = false ∧ s.dev.now < w.since + 1000000) ∧
    (let blk := 0; let s : State := {};
     s.live = true ∧ (s.dev.tport blk).wait = none) ∧
    (let n := 0; let d : Dev := wOn ({} : Dev) 0x0C 0; let d : Dev := d.fset Reg.XPT_CTX_CMD.BUSY 0;
     let d : Dev := { d with mem := { d.mem with dram := [(0, 1), (1, 1), (98, 3), (100, 1)] } };
     let d : Dev := d.fset Reg.XPT_CTX.MAX 1; let d : Dev := d.fset Reg.XPT_CTX.RESIDENT 1;
     let s : State := { dev := d };
     s.live = true ∧ s.dev.serves 0x0C = true ∧ s.dev.fget Reg.XPT_CTX_CMD.BUSY = 0 ∧
     imageOk s.dev.mem.dram (s.dev.fget Reg.XPT_CTX_IMG.ADDR) = true ∧ s.dev.freeCtxNo 0x0C = some n ∧ n < 2 ^ 18 ∧
     (s.dev.tport 0x0C).res.length < s.dev.ctxRes 0x0C) ∧
    (let n := 0; let d : Dev := wOn ({} : Dev) 0x0C 0; let d : Dev := d.fset Reg.XPT_CTX_CMD.BUSY 0;
     let d : Dev := { d with mem := { d.mem with dram := [(0, 1), (1, 1), (98, 3), (100, 1)] } };
     let d : Dev := d.fset Reg.XPT_CTX.MAX 1; let s : State := { dev := d };
     s.live = true ∧ s.dev.serves 0x0C = true ∧ s.dev.fget Reg.XPT_CTX_CMD.BUSY = 0 ∧
     imageOk s.dev.mem.dram (s.dev.fget Reg.XPT_CTX_IMG.ADDR) = true ∧ s.dev.freeCtxNo 0x0C = some n ∧
     (s.dev.makeSlot 0x0C).2 = false) ∧
    (let d : Dev := wOn ({} : Dev) 0x0C 0; let d : Dev := d.fset Reg.XPT_CTX_CMD.BUSY 0;
     let s : State := { dev := d };
     s.live = true ∧ s.dev.serves 0x0C = true ∧ s.dev.fget Reg.XPT_CTX_CMD.BUSY = 0 ∧
     imageOk s.dev.mem.dram (s.dev.fget Reg.XPT_CTX_IMG.ADDR) = false) ∧
    (let d : Dev := wOn ({} : Dev) 0x0C 0; let d : Dev := d.fset Reg.XPT_CTX_CMD.BUSY 0;
     let d : Dev := { d with mem := { d.mem with dram := [(0, 1), (1, 1), (98, 3), (100, 1)] } };
     let s : State := { dev := d };
     s.live = true ∧ s.dev.serves 0x0C = true ∧ s.dev.fget Reg.XPT_CTX_CMD.BUSY = 0 ∧
     imageOk s.dev.mem.dram (s.dev.fget Reg.XPT_CTX_IMG.ADDR) = true ∧ s.dev.freeCtxNo 0x0C = none) ∧
    (let s : State := {};
     s.live = true ∧ (s.dev.serves 0x0C = false ∨ s.dev.fget Reg.XPT_CTX_CMD.BUSY = 1)) ∧
    (let n := 0; let c : Ctx := {}; let d : Dev := wOn ({} : Dev) 0x0C 0;
     let d : Dev := d.fset Reg.XPT_CTX_CMD.BUSY 0; let d : Dev := wCtx d 0x0C n c; let s : State := { dev := d };
     s.live = true ∧ s.dev.on 0x0C = true ∧ s.dev.fget Reg.XPT_CTX_CMD.BUSY = 0 ∧ s.dev.ctxAny 0x0C n = some c) ∧
    (let n := 0; let d : Dev := wOn ({} : Dev) 0x0C 0; let d : Dev := d.fset Reg.XPT_CTX_CMD.BUSY 0;
     let s : State := { dev := d };
     s.live = true ∧ s.dev.on 0x0C = true ∧ s.dev.fget Reg.XPT_CTX_CMD.BUSY = 0 ∧ s.dev.ctxAny 0x0C n = none) ∧
    (let n := 0; let c : Ctx := {}; let d : Dev := wOn ({} : Dev) 0x0C 0;
     let d : Dev := d.fset Reg.XPT_CTX_CMD.BUSY 0; let d : Dev := wCtx d 0x0C n c; let s : State := { dev := d };
     s.live = true ∧ s.dev.on 0x0C = true ∧ s.dev.fget Reg.XPT_CTX_CMD.BUSY = 0 ∧ s.dev.ctx 0x0C n = some c ∧
     s.dev.mem.dram.read (s.dev.fget Reg.XPT_CTX_IMG.ADDR + 10) 1 < 16) ∧
    (let n := 0; let c : Ctx := {}; let d : Dev := wOn ({} : Dev) 0x0C 0;
     let d : Dev := d.fset Reg.XPT_CTX_CMD.BUSY 0; let d : Dev := wCtx d 0x0C n c;
     let d : Dev := { d with mem := { d.mem with dram := [(10, 16)] } }; let s : State := { dev := d };
     s.live = true ∧ s.dev.on 0x0C = true ∧ s.dev.fget Reg.XPT_CTX_CMD.BUSY = 0 ∧ s.dev.ctx 0x0C n = some c ∧
     16 ≤ s.dev.mem.dram.read (s.dev.fget Reg.XPT_CTX_IMG.ADDR + 10) 1) ∧
    (let s : State := {};
     s.live = true ∧ (s.dev.on 0x0C = false ∨ s.dev.fget Reg.XPT_CTX_CMD.BUSY = 1)) ∧
    (let n := 0; let slot := 0; let c : Ctx := {}; let d : Dev := wOn ({} : Dev) 0x0D 0;
     let d : Dev := d.fset Reg.STR_CTX_CMD.BUSY 0; let d : Dev := wCtx d 0x0D n c; let s : State := { dev := d };
     s.live = true ∧ s.dev.on 0x0D = true ∧ s.dev.fget Reg.STR_CTX_CMD.BUSY = 0 ∧ slot < 12288 ∧
     s.dev.ctx 0x0D n = some c ∧ s.dev.boundSlots.contains slot = false ∧ s.dev.boundSlots.length < 12288) ∧
    (let slot := 12288; let d : Dev := wOn ({} : Dev) 0x0D 0; let d : Dev := d.fset Reg.STR_CTX_CMD.BUSY 0;
     let s : State := { dev := d };
     s.live = true ∧ s.dev.on 0x0D = true ∧ s.dev.fget Reg.STR_CTX_CMD.BUSY = 0 ∧ 12288 ≤ slot) ∧
    (let n := 0; let slot := 0; let c : Ctx := { flags := 4 }; let d : Dev := wOn ({} : Dev) 0x0D 0;
     let d : Dev := d.fset Reg.STR_CTX_CMD.BUSY 0; let d : Dev := wCtx d 0x0D n c; let s : State := { dev := d };
     s.live = true ∧ s.dev.on 0x0D = true ∧ s.dev.fget Reg.STR_CTX_CMD.BUSY = 0 ∧ slot < 12288 ∧
     s.dev.ctx 0x0D n = some c ∧ s.dev.boundSlots.contains slot = true) ∧
    (let n := 0; let c : Ctx := {}; let d : Dev := wOn ({} : Dev) 0x0D 0;
     let d : Dev := d.fset Reg.STR_CTX_CMD.BUSY 0; let d : Dev := wCtx d 0x0D n c; let s : State := { dev := d };
     s.live = true ∧ s.dev.on 0x0D = true ∧ s.dev.fget Reg.STR_CTX_CMD.BUSY = 0 ∧ s.dev.ctx 0x0D n = some c) ∧
    (let n := 0; let slot := 0; let d : Dev := wOn ({} : Dev) 0x0D 0; let d : Dev := d.fset Reg.STR_CTX_CMD.BUSY 0;
     let s : State := { dev := d };
     s.live = true ∧ s.dev.on 0x0D = true ∧ s.dev.fget Reg.STR_CTX_CMD.BUSY = 0 ∧ slot < 12288 ∧
     s.dev.ctxAny 0x0D n = none) ∧
    (let s : State := {};
     s.live = true ∧ (s.dev.on 0x0D = false ∨ s.dev.fget Reg.STR_CTX_CMD.BUSY = 1)) := by
  refine ⟨?_, ?_, ?_, ?_, ?_, ?_, ?_, ?_, ?_, ?_, ?_, ?_, ?_, ?_, ?_, ?_, ?_, ?_, ?_, ?_, ?_, ?_, ?_, ?_, ?_, ?_, ?_, ?_⟩ <;> decide +kernel

theorem witness_TcpAndTls :
    (let d : Dev := wOn ({} : Dev) 0x0D 0; let s : State := { dev := d };
     s.live = true ∧ s.dev.transOn 0x0D = true) ∧
    (let s : State := {};
     s.live = true ∧ s.dev.transOn 0x0D = false) ∧
    (let d : Dev := wOn ({} : Dev) 0x0D 0; let s : State := { dev := d };
     s.live = true ∧ s.dev.transOn 0x0D = true) ∧
    (let n := 0; let tenant := 0; let d : Dev := wOn ({} : Dev) 0x0D 0; let s : State := { dev := d };
     s.live = true ∧ s.dev.transOn 0x0D = true ∧
     (s.dev.ctxAny 0x0D n = none ∨ s.dev.ctxIn 0x0D n = false ∨ ∃ x, s.dev.ctxAny 0x0D n = some x ∧ x.tenant ≠ tenant)) ∧
    (let pipe := 0; let n := 0; let tenant := 0; let x : Ctx := readCtx [] 0; let d : Dev := wOn ({} : Dev) 0x0D 0;
     let d : Dev := d.fset Reg.STR_CTX.MAX 262144;
     let d : Dev := { d with stm := { d.stm with t := { d.stm.t with spilled := [n] } } };
     let s : State := { dev := d };
     s.live = true ∧ s.dev.transOn 0x0D = true ∧ s.dev.ctx 0x0D n = none ∧ s.dev.ctxAny 0x0D n = some x ∧
     x.tenant = tenant ∧ s.dev.ctxIn 0x0D n = true ∧ pipe < 2 ∧ s.dev.inMiss n = false ∧
     ((Tab.look s.dev.trans.miss pipe).getD []).length < 512) ∧
    (let n := 0; let tenant := 0; let g : TcpSeg := { seq := 0, ack := 0, wnd := 0, rst := true };
     let c : Ctx := { tenant := tenant };
     let d : Dev := wCtx ((wOn ({} : Dev) 0x0D 0).fset Reg.STR_CTX.MAX 262144) 0x0D n c;
     let s : State := { dev := d };
     s.live = true ∧ s.dev.hasCtx 0x0D n tenant c = true ∧ g.rst = true) ∧
    (let n := 0; let tenant := 0;
     let g : TcpSeg := { seq := 0, ack := 0, wnd := 0, len := 1, rst := false, fin := false };
     let c : Ctx := { tenant := tenant };
     let d : Dev := wCtx ((wOn ({} : Dev) 0x0D 0).fset Reg.STR_CTX.MAX 262144) 0x0D n c;
     let s : State := { dev := d };
     s.live = true ∧ s.dev.hasCtx 0x0D n tenant c = true ∧ g.rst = false ∧ g.fin = false ∧ 0 < g.len ∧
     g.seq = c.rcvNxt ∧ c.flight = 0 ∧ g.ack = c.sndUna ∧ (s.dev.sconn n).out = []) ∧
    (let n := 0; let tenant := 0; let g : TcpSeg := { seq := 0, ack := 0, wnd := 0, rst := false, fin := true };
     let c : Ctx := { tenant := tenant };
     let d : Dev := wCtx ((wOn ({} : Dev) 0x0D 0).fset Reg.STR_CTX.MAX 262144) 0x0D n c;
     let s : State := { dev := d };
     s.live = true ∧ s.dev.hasCtx 0x0D n tenant c = true ∧ g.rst = false ∧ g.fin = true ∧ g.seq = c.rcvNxt ∧
     c.rcvNxt < 2 ^ 32 ∧ c.flight = 0 ∧ g.ack = c.sndUna ∧ (s.dev.sconn n).out = []) ∧
    (let n := 0; let tenant := 0; let g : TcpSeg := { seq := 1, ack := 0, wnd := 0, len := 1, rst := false };
     let c : Ctx := { tenant := tenant };
     let d : Dev := wCtx ((wOn ({} : Dev) 0x0D 0).fset Reg.STR_CTX.MAX 262144) 0x0D n c;
     let s : State := { dev := d };
     s.live = true ∧ s.dev.hasCtx 0x0D n tenant c = true ∧ g.rst = false ∧ 0 < g.len ∧ g.seq ≠ c.rcvNxt ∧
     c.flight = 0 ∧ g.ack = c.sndUna ∧ (s.dev.sconn n).out = []) ∧
    (let n := 0; let tenant := 0;
     let g : TcpSeg := { seq := 0, ack := 1, wnd := 0, rst := false, fin := false, len := 0, ece := false, rtt := none };
     let c : Ctx := { sndNxt := 1, cwnd := 1, ssthresh := 5, tenant := tenant };
     let d : Dev := wCtx ((wOn ({} : Dev) 0x0D 0).fset Reg.STR_CTX.MAX 262144) 0x0D n c;
     let s : State := { dev := d };
     s.live = true ∧ s.dev.hasCtx 0x0D n tenant c = true ∧ g.rst = false ∧ g.fin = false ∧ g.len = 0 ∧ g.ece = false ∧
     g.rtt = none ∧ 0 < seqDiff c.sndUna g.ack ∧ seqDiff c.sndUna g.ack ≤ c.flight ∧ (s.dev.sconn n).out = [] ∧
     (s.dev.sconn n).recover = none ∧ c.cwnd < c.ssthresh) ∧
    (let n := 0; let tenant := 0;
     let g : TcpSeg := { seq := 0, ack := 0, wnd := 0, rst := false, fin := false, len := 0, sack := [] };
     let c : Ctx := { sndNxt := 1, tenant := tenant };
     let d : Dev := wCtx ((wOn ({} : Dev) 0x0D 0).fset Reg.STR_CTX.MAX 262144) 0x0D n c;
     let d : Dev := d.setSconn n { d.sconn n with dupAcks := 2 }; let s : State := { dev := d };
     s.live = true ∧ s.dev.hasCtx 0x0D n tenant c = true ∧ g.rst = false ∧ g.fin = false ∧ g.len = 0 ∧ g.sack = [] ∧
     (s.dev.sconn n).sacked = [] ∧ g.ack = c.sndUna ∧ c.sndUna < 2 ^ 32 ∧ 0 < c.flight ∧
     g.wnd * 2 ^ c.sndScale = c.sndWnd ∧ (s.dev.sconn n).recover = none ∧ (s.dev.sconn n).dupAcks = 2) ∧
    (let n := 0; let tls : Bool := false; let c : Ctx := {}; let d : Dev := wOn ({} : Dev) 0x0D 0;
     let d : Dev := d.fset Reg.STR_LISTEN.EN 1; let d : Dev := d.fset Reg.STR_CTX.MAX 262144;
     let d : Dev := d.fset Reg.STR_CTX.RESIDENT 1; let s : State := { dev := d };
     s.live = true ∧ s.dev.transOn 0x0D = true ∧ s.dev.listens (bitsOf c.ports 31 16) = some tls ∧
     s.dev.freeCtxNo 0x0D = some n ∧ (s.dev.tport 0x0D).res.length < s.dev.ctxRes 0x0D) ∧
    (let c : Ctx := {}; let d : Dev := wOn ({} : Dev) 0x0D 0; let s : State := { dev := d };
     s.live = true ∧ s.dev.transOn 0x0D = true ∧ s.dev.listens (bitsOf c.ports 31 16) = none) ∧
    (let tls : Bool := false; let c : Ctx := {}; let d : Dev := wOn ({} : Dev) 0x0D 0;
     let d : Dev := d.fset Reg.STR_LISTEN.EN 1; let s : State := { dev := d };
     s.live = true ∧ s.dev.transOn 0x0D = true ∧ s.dev.listens (bitsOf c.ports 31 16) = some tls ∧
     s.dev.freeCtxNo 0x0D = none) ∧
    (let n := 0; let c : Ctx := { sndNxt := 1 }; let d : Dev := wOn ({} : Dev) 0x0D 0;
     let d : Dev := wCtx d 0x0D n c; let d : Dev := { d with tim := { d.tim with ns := 1000000000 } };
     let d : Dev := d.fset Reg.STR_TCP.RETRIES 2; let s : State := { dev := d };
     s.live = true ∧ s.dev.transOn 0x0D = true ∧ s.dev.ctx 0x0D n = some c ∧ c.flight ≠ 0 ∧
     (s.dev.sconn n).rtoFrom + s.dev.rtoUs c (s.dev.sconn n).timeouts * 1000 ≤ s.dev.now ∧
     (s.dev.sconn n).timeouts + 1 < s.dev.fget Reg.STR_TCP.RETRIES) ∧
    (let n := 0; let c : Ctx := { sndNxt := 1 }; let d : Dev := wOn ({} : Dev) 0x0D 0;
     let d : Dev := wCtx d 0x0D n c; let d : Dev := { d with tim := { d.tim with ns := 1000000000 } };
     let s : State := { dev := d };
     s.live = true ∧ s.dev.transOn 0x0D = true ∧ s.dev.ctx 0x0D n = some c ∧ c.flight ≠ 0 ∧
     (s.dev.sconn n).rtoFrom + s.dev.rtoUs c (s.dev.sconn n).timeouts * 1000 ≤ s.dev.now ∧
     s.dev.fget Reg.STR_TCP.RETRIES ≤ (s.dev.sconn n).timeouts + 1) ∧
    (let n := 0; let c : Ctx := {}; let d : Dev := wCtx ({} : Dev) 0x0D n c; let s : State := { dev := d };
     s.live = true ∧ s.dev.ctx 0x0D n = some c ∧
     (c.flight = 0 ∨ s.dev.transOn 0x0D = false ∨ s.dev.now < (s.dev.sconn n).rtoFrom + s.dev.rtoUs c (s.dev.sconn n).timeouts * 1000)) ∧
    (let n := 0; let s : State := {};
     s.live = true ∧ s.dev.ctx 0x0D n = none) ∧
    (let n := 0; let s : State := {};
     s.live = true ∧ (s.dev.transOn 0x0D = false ∨ s.dev.ctxAny 0x0D n = none)) ∧
    (let n := 0; let c : Ctx := {}; let d : Dev := wOn ({} : Dev) 0x0D 0; let d : Dev := wCtx d 0x0D n c;
     let d : Dev := d.setSconn n { d.sconn n with rxHeld := true }; let s : State := { dev := d };
     s.live = true ∧ s.dev.transOn 0x0D = true ∧ s.dev.ctxAny 0x0D n = some c ∧
     (s.dev.ctx 0x0D n = none ∨ s.dev.inMiss n = true ∨ (s.dev.sconn n).rxHeld = true ∨ (s.dev.sconn n).rxWait ≠ [])) ∧
    (let n := 0; let hpda := 0; let c : Ctx := {}; let d : Dev := wCtx (wOn ({} : Dev) 0x0D 0) 0x0D n c;
     let s : State := { dev := d };
     s.live = true ∧ s.dev.pduTakes n c = true ∧ (s.dev.sconn n).ready = false ∧ hpda < 32) ∧
    (let n := 0; let pfv := 0; let hpda := 0; let lenOk : Bool := false; let c : Ctx := {};
     let d : Dev := wCtx (wOn ({} : Dev) 0x0D 0) 0x0D n c; let s : State := { dev := d };
     s.live = true ∧ s.dev.pduTakes n c = true ∧ ((s.dev.sconn n).ready = true ∨ lenOk = false ∨ pfv ≠ 0 ∨ 32 ≤ hpda)) ∧
    (let n := 0; let k : HeldCap := { sqe := [], nsgl := 0, sgl := 0, seg := [], data := [] };
     let c : Ctx := { flags := 4 }; let d : Dev := wCtx (wOn ({} : Dev) 0x0D 0) 0x0D n c;
     let d : Dev := d.setSconn n { d.sconn n with ready := true }; let s : State := { dev := d };
     s.live = true ∧ s.dev.pduTakes n c = true ∧ (s.dev.sconn n).ready = true ∧ k.data.length ≤ 8192 ∧
     bitOf c.flags 2 = true) ∧
    (let n := 0; let k : HeldCap := { sqe := [], nsgl := 0, sgl := 0, seg := [], data := [] }; let c : Ctx := {};
     let d : Dev := wCtx (wOn ({} : Dev) 0x0D 0) 0x0D n c;
     let d : Dev := d.setSconn n { d.sconn n with ready := true }; let s : State := { dev := d };
     s.live = true ∧ s.dev.pduTakes n c = true ∧ (s.dev.sconn n).ready = true ∧ k.data = [] ∧ bitOf c.flags 2 = false) ∧
    (let n := 0; let k : HeldCap := { sqe := [], nsgl := 0, sgl := 0, seg := [], data := [1] }; let c : Ctx := {};
     let d : Dev := wCtx (wOn ({} : Dev) 0x0D 0) 0x0D n c;
     let d : Dev := d.setSconn n { d.sconn n with ready := true }; let s : State := { dev := d };
     s.live = true ∧ s.dev.pduTakes n c = true ∧ (s.dev.sconn n).ready = true ∧ k.data ≠ [] ∧ k.data.length ≤ 8192 ∧
     bitOf c.flags 2 = false ∧ s.dev.queue n = none) ∧
    (let n := 0; let k : HeldCap := { sqe := [], nsgl := 0, sgl := 0, seg := [], data := [] };
     let lenOk : Bool := false; let good : Bool := false; let c : Ctx := {};
     let d : Dev := wCtx (wOn ({} : Dev) 0x0D 0) 0x0D n c; let s : State := { dev := d };
     s.live = true ∧ s.dev.pduTakes n c = true ∧
     ((s.dev.sconn n).ready = false ∨ lenOk = false ∨ good = false ∨ 8192 < k.data.length)) ∧
    (let n := 0; let ttag := 0; let off := 0; let data : List Byte := []; let c : Ctx := {};
     let r : R2t := { ttag := ttag, handle := 0, token := 0, xoff := 0, off := 0, len := 5 };
     let x : Xfer := { write := false, handle := 0, token := 0, off := 0, len := 5, tenant := 0, nsh := 0, cmdref := 0, runToken := 0, gen := 0, asked := 5 };
     let d : Dev := wCtx (wOn ({} : Dev) 0x0D 0) 0x0D n c;
     let d : Dev := d.setSconn n { d.sconn n with ready := true };
     let d : Dev := d.setSconn n { d.sconn n with r2ts := [r] };
     let d : Dev := d.setSconn n { d.sconn n with xfers := [x] }; let s : State := { dev := d };
     s.live = true ∧ s.dev.pduTakes n c = true ∧ (s.dev.sconn n).ready = true ∧ (s.dev.sconn n).r2ts = [r] ∧
     r.ttag = ttag ∧ (s.dev.sconn n).xfers = [x] ∧ x.handle = r.handle ∧ x.token = r.token ∧ x.off = r.xoff ∧
     x.asked = x.len ∧ off = r.off + r.got ∧ r.got + data.length < r.len ∧ x.got + data.length < x.len) ∧
    (let n := 0; let ttag := 0; let off := 0; let data : List Byte := []; let c : Ctx := {};
     let r : R2t := { ttag := ttag, handle := 0, token := 0, xoff := 0, off := 0, len := 0 };
     let x : Xfer := { write := false, handle := 0, token := 0, off := 0, len := 0, tenant := 0, nsh := 0, cmdref := 0, runToken := 0, gen := 0, relay := false };
     let d : Dev := wCtx (wOn ({} : Dev) 0x0D 0) 0x0D n c;
     let d : Dev := d.setSconn n { d.sconn n with ready := true };
     let d : Dev := d.setSconn n { d.sconn n with r2ts := [r] };
     let d : Dev := d.setSconn n { d.sconn n with xfers := [x] }; let s : State := { dev := d };
     s.live = true ∧ s.dev.pduTakes n c = true ∧ (s.dev.sconn n).ready = true ∧ (s.dev.sconn n).r2ts = [r] ∧
     r.ttag = ttag ∧ (s.dev.sconn n).xfers = [x] ∧ x.handle = r.handle ∧ x.token = r.token ∧ x.off = r.xoff ∧
     x.asked = x.len ∧ off = r.off + r.got ∧ r.got + data.length = r.len ∧ x.got + data.length = x.len ∧
     x.relay = false ∧ bitOf c.flags 2 = false ∧ s.dev.pitch.queue.length < 8192 ∧ s.dev.pitch.held = []) ∧
    (let n := 0; let ttag := 0; let lenOk : Bool := false; let good : Bool := false; let c : Ctx := {};
     let d : Dev := wCtx (wOn ({} : Dev) 0x0D 0) 0x0D n c; let s : State := { dev := d };
     s.live = true ∧ s.dev.pduTakes n c = true ∧
     ((s.dev.sconn n).ready = false ∨ lenOk = false ∨ good = false ∨ ∀ r ∈ (s.dev.sconn n).r2ts, r.ttag ≠ ttag)) ∧
    (let n := 0; let c : Ctx := {}; let d : Dev := wCtx (wOn ({} : Dev) 0x0D 0) 0x0D n c;
     let s : State := { dev := d };
     s.live = true ∧ s.dev.streamTakes n c = true) ∧
    (let n := 0; let c : Ctx := { state := 2 }; let d : Dev := wCtx (wOn ({} : Dev) 0x0D 0) 0x0D n c;
     let s : State := { dev := d };
     s.live = true ∧ s.dev.streamTakes n c = true ∧ c.state = 2) ∧
    (let n := 0; let c : Ctx := { flags := 4 }; let k : SKey := { key := [], iv := [] };
     let d : Dev := wCtx (wOn ({} : Dev) 0x0D 0) 0x0D n c;
     let d : Dev := { d with cipher := { d.cipher with sess := [(0, { rx := some k })] } };
     let d : Dev := d.fset Reg.CPH_GCM_LIMIT.HARD 5; let s : State := { dev := d };
     s.live = true ∧ s.dev.pduTakes n c = true ∧ bitOf c.flags 2 = true ∧ (s.dev.sslot c.keySlot).rx = some k ∧
     s.dev.sessRoom c.keySlot false 1 = true ∧ (s.dev.sconn n).heldCaps = [] ∧ (s.dev.sconn n).landed = [] ∧
     (s.dev.sconn n).xfers = [] ∧ s.dev.queue n = none) ∧
    (let n := 0; let c : Ctx := { flags := 4 }; let k : SKey := { key := [], iv := [] };
     let d : Dev := wCtx (wOn ({} : Dev) 0x0D 0) 0x0D n c;
     let d : Dev := { d with cipher := { d.cipher with sess := [(0, { rx := some k })] } };
     let s : State := { dev := d };
     s.live = true ∧ s.dev.pduTakes n c = true ∧ bitOf c.flags 2 = true ∧ (s.dev.sslot c.keySlot).rx = some k ∧
     s.dev.sessRoom c.keySlot false 1 = false ∧ (s.dev.sconn n).out = [] ∧ (s.dev.sconn n).landed = [] ∧
     (s.dev.sconn n).xfers = [] ∧ s.dev.queue n = none) ∧
    (let n := 0; let c : Ctx := {}; let d : Dev := wCtx (wOn ({} : Dev) 0x0D 0) 0x0D n c;
     let s : State := { dev := d };
     s.live = true ∧ s.dev.streamTakes n c = true ∧ c.state ≠ 2 ∧
     (bitOf c.flags 2 = false ∨ (s.dev.sslot c.keySlot).rx = none)) ∧
    (let n := 0; let c : Ctx := { flags := 4 }; let d : Dev := wCtx (wOn ({} : Dev) 0x0D 0) 0x0D n c;
     let s : State := { dev := d };
     s.live = true ∧ s.dev.streamTakes n c = true ∧ bitOf c.flags 2 = true) ∧
    (let n := 0; let c : Ctx := { flags := 4 }; let d : Dev := wCtx (wOn ({} : Dev) 0x0D 0) 0x0D n c;
     let s : State := { dev := d };
     s.live = true ∧ s.dev.streamTakes n c = true ∧ bitOf c.flags 2 = true) ∧
    (let n := 0; let c : Ctx := {}; let d : Dev := wCtx (wOn ({} : Dev) 0x0D 0) 0x0D n c;
     let s : State := { dev := d };
     s.live = true ∧ s.dev.streamTakes n c = true ∧ bitOf c.flags 2 = false) := by
  refine ⟨?_, ?_, ?_, ?_, ?_, ?_, ?_, ?_, ?_, ?_, ?_, ?_, ?_, ?_, ?_, ?_, ?_, ?_, ?_, ?_, ?_, ?_, ?_, ?_, ?_, ?_, ?_, ?_, ?_, ?_, ?_, ?_, ?_, ?_, ?_, ?_, ?_⟩ <;> decide +kernel

theorem witness_Cipher :
    (let session : Bool := true; let slot := 12288; let d : Dev := wOn ({} : Dev) 0x18 0;
     let d : Dev := d.fset Reg.CPH_LOAD_CTRL.BUSY 0; let s : State := { dev := d };
     let a : Nat := (s.dev.fget Reg.CPH_LOAD.ADDR);
     s.live = true ∧ s.dev.on 0x18 = true ∧ s.dev.fget Reg.CPH_LOAD_CTRL.BUSY = 0 ∧ a = s.dev.fget Reg.CPH_LOAD.ADDR ∧
     slot < 16384 ∧
     (session = true ∧ 12288 ≤ slot ∨ 2 < s.dev.mem.dram.read (a + 6) 1 ∨ s.dev.mem.dram.read (a + 88) 8 ≠ 0 ∨ 32768 ≤ s.dev.mem.dram.read a 2 ∨ 16384 ≤ s.dev.mem.dram.read (a + 2) 2 ∨ 4096 ≤ s.dev.mem.dram.read (a + 4) 2)) ∧
    (let slot := 0; let d : Dev := wOn ({} : Dev) 0x18 0; let d : Dev := d.fset Reg.CPH_LOAD_CTRL.BUSY 0;
     let s : State := { dev := d }; let a : Nat := (s.dev.fget Reg.CPH_LOAD.ADDR);
     s.live = true ∧ s.dev.on 0x18 = true ∧ s.dev.fget Reg.CPH_LOAD_CTRL.BUSY = 0 ∧ slot < 12288 ∧
     a = s.dev.fget Reg.CPH_LOAD.ADDR ∧ s.dev.mem.dram.read a 2 < 32768 ∧ s.dev.mem.dram.read (a + 2) 2 < 16384 ∧
     s.dev.mem.dram.read (a + 4) 2 < 4096 ∧ s.dev.mem.dram.read (a + 6) 1 = 0 ∧ s.dev.mem.dram.read (a + 88) 8 = 0 ∧
     s.dev.anchor.kek = none) ∧
    (let slot := 0; let kek : List Byte := []; let d : Dev := wOn ({} : Dev) 0x18 0;
     let d : Dev := d.fset Reg.CPH_LOAD_CTRL.BUSY 0;
     let d : Dev := { d with anchor := { d.anchor with kek := some kek } }; let s : State := { dev := d };
     let a : Nat := (s.dev.fget Reg.CPH_LOAD.ADDR);
     s.live = true ∧ s.dev.on 0x18 = true ∧ s.dev.fget Reg.CPH_LOAD_CTRL.BUSY = 0 ∧ slot < 16384 ∧
     a = s.dev.fget Reg.CPH_LOAD.ADDR ∧ s.dev.mem.dram.read a 2 = slot ∧ s.dev.mem.dram.read (a + 2) 2 < 16384 ∧
     s.dev.mem.dram.read (a + 4) 2 < 4096 ∧ s.dev.mem.dram.read (a + 6) 1 = 0 ∧ s.dev.mem.dram.read (a + 88) 8 = 0 ∧
     s.dev.anchor.kek = some kek ∧ (s.dev.dslot slot).cur = none) ∧
    (let slot := 0; let kek : List Byte := []; let c : KeyGen := { gen := 0, key := [] };
     let d : Dev := wOn ({} : Dev) 0x18 0; let d : Dev := d.fset Reg.CPH_LOAD_CTRL.BUSY 0;
     let d : Dev := { d with anchor := { d.anchor with kek := some kek } };
     let d : Dev := { d with cipher := { d.cipher with data := [(0, { tenant := 0, nsh := 0, cur := some c })] } };
     let s : State := { dev := d }; let a : Nat := (s.dev.fget Reg.CPH_LOAD.ADDR);
     s.live = true ∧ s.dev.on 0x18 = true ∧ s.dev.fget Reg.CPH_LOAD_CTRL.BUSY = 0 ∧ slot < 16384 ∧
     a = s.dev.fget Reg.CPH_LOAD.ADDR ∧ s.dev.mem.dram.read a 2 = slot ∧ s.dev.mem.dram.read (a + 2) 2 < 16384 ∧
     s.dev.mem.dram.read (a + 4) 2 < 4096 ∧ s.dev.mem.dram.read (a + 6) 1 = 0 ∧ s.dev.mem.dram.read (a + 88) 8 = 0 ∧
     s.dev.anchor.kek = some kek ∧ (s.dev.dslot slot).cur = some c) ∧
    (let slot := 0; let kek : List Byte := []; let d : Dev := wOn ({} : Dev) 0x18 0;
     let d : Dev := d.fset Reg.CPH_LOAD_CTRL.BUSY 0;
     let d : Dev := { d with anchor := { d.anchor with kek := some kek } };
     let d : Dev := { d with mem := { d.mem with dram := [(1, 64), (6, 1)] } }; let s : State := { dev := d };
     let a : Nat := (s.dev.fget Reg.CPH_LOAD.ADDR);
     s.live = true ∧ s.dev.on 0x18 = true ∧ s.dev.fget Reg.CPH_LOAD_CTRL.BUSY = 0 ∧ slot < 12288 ∧
     a = s.dev.fget Reg.CPH_LOAD.ADDR ∧ s.dev.mem.dram.read a 2 = slot + 16384 ∧ s.dev.mem.dram.read (a + 2) 2 = 0 ∧
     s.dev.mem.dram.read (a + 4) 2 < 4096 ∧ s.dev.mem.dram.read (a + 6) 1 = 1 ∧ s.dev.mem.dram.read (a + 7) 1 = 0 ∧
     s.dev.mem.dram.read (a + 88) 8 = 0 ∧ s.dev.anchor.kek = some kek ∧ s.dev.boundSlots.contains slot = false) ∧
    (let slot := 0; let n := 0; let kek : List Byte := []; let c : Ctx := { flags := 4, keySlot := slot };
     let d : Dev := wOn ({} : Dev) 0x18 0; let d : Dev := d.fset Reg.CPH_LOAD_CTRL.BUSY 0;
     let d : Dev := { d with anchor := { d.anchor with kek := some kek } };
     let d : Dev := { d with stm := { d.stm with t := { d.stm.t with res := [(n, c)] } } };
     let d : Dev := { d with mem := { d.mem with dram := [(1, 64), (6, 1)] } }; let s : State := { dev := d };
     let a : Nat := (s.dev.fget Reg.CPH_LOAD.ADDR);
     s.live = true ∧ s.dev.on 0x18 = true ∧ s.dev.fget Reg.CPH_LOAD_CTRL.BUSY = 0 ∧ slot < 12288 ∧
     a = s.dev.fget Reg.CPH_LOAD.ADDR ∧ s.dev.mem.dram.read a 2 = slot + 16384 ∧ s.dev.mem.dram.read (a + 2) 2 = 0 ∧
     s.dev.mem.dram.read (a + 4) 2 < 4096 ∧ s.dev.mem.dram.read (a + 6) 1 = 1 ∧ s.dev.mem.dram.read (a + 7) 1 = 0 ∧
     s.dev.mem.dram.read (a + 88) 8 = 0 ∧ s.dev.anchor.kek = some kek ∧ s.dev.stm.t.res = [(n, c)] ∧
     s.dev.stm.t.spilled = [] ∧ bitOf c.flags 2 = true ∧ c.keySlot = slot ∧ (s.dev.sconn n).rxWait = []) ∧
    (let s : State := {};
     s.live = true ∧ (s.dev.on 0x18 = false ∨ s.dev.fget Reg.CPH_LOAD_CTRL.BUSY = 1)) ∧
    (let d : Dev := wOn ({} : Dev) 0x18 0; let d : Dev := d.fset Reg.CPH_DESTROY.BUSY 0;
     let s : State := { dev := d };
     s.live = true ∧ s.dev.on 0x18 = true ∧ s.dev.fget Reg.CPH_DESTROY.BUSY = 0) ∧
    (let d : Dev := wOn ({} : Dev) 0x18 0; let d : Dev := d.fset Reg.CPH_DESTROY.BUSY 0;
     let s : State := { dev := d };
     s.live = true ∧ s.dev.on 0x18 = true ∧ s.dev.fget Reg.CPH_DESTROY.BUSY = 0) ∧
    (let d : Dev := wOn ({} : Dev) 0x18 0; let d : Dev := d.fset Reg.CPH_DESTROY.BUSY 0;
     let s : State := { dev := d };
     s.live = true ∧ s.dev.on 0x18 = true ∧ s.dev.fget Reg.CPH_DESTROY.BUSY = 0) ∧
    (let s : State := {};
     s.live = true ∧ (s.dev.on 0x18 = false ∨ s.dev.fget Reg.CPH_DESTROY.BUSY = 1)) ∧
    (let k := 0; let i : Nat := 0;
     let q : Seal := { ctx := 0, cmdref := 0, tenant := 0, nsh := 0, runToken := 0, runGen := 0, token := 0, slot := 0, rope := 0, left := [i], units := 0, failed := false, own := false };
     let u : SUnit := { state := .landing, rec_ := { wgen := 0, nsh := 0, lba := 0 }, crc := dataCrc (Memory.bytes [] 0 4096) };
     let g : KeyGen := { gen := 0, key := [] }; let d : Dev := wOn ({} : Dev) 0x18 0;
     let d : Dev := { d with map := { d.map with staging := Tab.put d.map.staging i u } };
     let d : Dev := { d with cipher := { d.cipher with seals := [q] } };
     let d : Dev := { d with cipher := { d.cipher with data := [(0, { tenant := 0, nsh := 0, cur := some g })] } };
     let d : Dev := d.fset Reg.CPH_XTS_LIMIT.SOFT_LOG2 38; let d : Dev := d.fset Reg.CPH_XTS_LIMIT.HARD_LOG2 39;
     let s : State := { dev := d };
     s.live = true ∧ s.dev.on 0x18 = true ∧ s.dev.cipher.seals[k]? = some q ∧ q.left = [i] ∧ q.failed = false ∧
     q.own = false ∧ Tab.look s.dev.map.staging i = some u ∧ dataCrc (u.data.bytes 0 4096) = u.crc ∧
     (s.dev.dslot q.slot).cur = some g ∧ g.used + 1 < s.dev.xtsSoft ∧ g.used + 1 < xtsCeiling ∧
     s.dev.xtsSoft < s.dev.xtsHard ∧ s.dev.cipher.erases = [] ∧ s.dev.keygenWaits q.slot = false) ∧
    (let k := 0; let i : Nat := 0;
     let u : SUnit := { state := .landing, rec_ := { wgen := 0, nsh := 0, lba := 0 }, crc := dataCrc (Memory.bytes [] 0 4096) };
     let is : List Nat := [];
     let q : Seal := { ctx := 0, cmdref := 0, tenant := 0, nsh := 0, runToken := 0, runGen := 0, token := 0, slot := 0, rope := 0, left := i :: is, units := 0 };
     let d : Dev := {}; let d : Dev := { d with map := { d.map with staging := Tab.put d.map.staging i u } };
     let d : Dev := { d with cipher := { d.cipher with seals := [q] } }; let s : State := { dev := d };
     s.live = true ∧ s.dev.cipher.seals[k]? = some q ∧ q.left = i :: is ∧ Tab.look s.dev.map.staging i = some u ∧
     dataCrc (u.data.bytes 0 4096) = u.crc ∧ (s.dev.dslot q.slot).cur = none) ∧
    (let k := 0; let i : Nat := 0;
     let q : Seal := { ctx := 0, cmdref := 0, tenant := 0, nsh := 0, runToken := 0, runGen := 0, token := 0, slot := 0, rope := 0, left := [i], units := 0 };
     let u : SUnit := { state := .landing, rec_ := { wgen := 0, nsh := 0, lba := 0 } }; let is : List Nat := [];
     let e : Nat × Nat × Nat := (0, 0, 0); let d : Dev := {};
     let d : Dev := { d with map := { d.map with staging := Tab.put d.map.staging i u } };
     let d : Dev := { d with cipher := { d.cipher with erases := [e] } };
     let d : Dev := { d with cipher := { d.cipher with seals := [q] } }; let s : State := { dev := d };
     s.live = true ∧ s.dev.cipher.seals[k]? = some q ∧ q.left = i :: is ∧ Tab.look s.dev.map.staging i = some u ∧
     s.dev.cipher.erases = [e] ∧ e.2.1 = q.slot ∧ e.2.2 ≤ q.serial) ∧
    (let i : Nat := 0;
     let q : Seal := { ctx := 0, cmdref := 0, tenant := 0, nsh := 0, runToken := 0, runGen := 0, token := 0, slot := 0, rope := 0, left := [i], units := 0, own := false };
     let t : Nat := 0;
     let u : SUnit := { state := .landing, rec_ := { wgen := 0, nsh := 0, lba := 0 }, tag := some t };
     let d : Dev := wOn ({} : Dev) 0x18 0; let d : Dev := { d with cipher := { d.cipher with seals := [q] } };
     let d : Dev := { d with map := { d.map with staging := [(i, u)] } }; let s : State := { dev := d };
     s.live = true ∧ s.dev.on 0x18 = true ∧ s.dev.cipher.seals = [q] ∧ q.left = [i] ∧ q.own = false ∧
     s.dev.map.staging = [(i, u)] ∧ u.tag = some t ∧ s.dev.cipher.erases = []) ∧
    (let i : Nat := 0;
     let q : Seal := { ctx := 0, cmdref := 0, tenant := 0, nsh := 0, runToken := 0, runGen := 0, token := 0, slot := 0, rope := 0, left := [i], units := 0, own := false };
     let t : Nat := 0; let key := 0;
     let u : SUnit := { state := .landing, rec_ := { wgen := 0, nsh := 0, lba := 0 }, group := 1, tag := some t };
     let d : Dev := wOn ({} : Dev) 0x18 0; let d : Dev := { d with cipher := { d.cipher with seals := [q] } };
     let d : Dev := { d with map := { d.map with staging := [(i, u)] } };
     let d : Dev := { d with map := { d.map with entries := [(0, entStaged 1 0)] } }; let s : State := { dev := d };
     s.live = true ∧ s.dev.on 0x18 = true ∧ s.dev.cipher.seals = [q] ∧ q.left = [i] ∧ q.own = false ∧
     s.dev.map.staging = [(i, u)] ∧ u.tag = some t ∧ s.dev.cipher.erases = [] ∧ u.rec_.zrange = false ∧
     key = unitKey u.rec_.nsh (s.dev.unitOf u.rec_.lba) ∧ entIsStaged (s.dev.entryAt key) = true ∧
     entIndex (s.dev.entryAt key) = u.group ∧ s.dev.entryAt key % 4 = u.rec_.wgen % 4) ∧
    (let k := 0; let s : State := {};
     s.live = true ∧ (s.dev.cipher.seals.length ≤ k ∨ s.dev.on 0x18 = false)) ∧
    (let j := 0;
     let r : URec := { wgen := 0, nsh := 0, lba := 0, tag := finishTag (dataCrc (Memory.bytes [] 0 4096)) 0 0, zrange := true };
     let u : JobUnit := { entry := 0, decoded := true, done := false, rec_ := some r };
     let job : ReadJob := { ctx := 0, cmdref := 0, tenant := 0, nsh := 0, rope := 0, admNo := 0, lookup := 0, dest := 0, grade := 0, units := [u], move := false, fill := false };
     let d : Dev := wOn ({} : Dev) 0x18 0;
     let d : Dev := { d with media := { d.media with jobs := Tab.put d.media.jobs j job } };
     let s : State := { dev := d };
     s.live = true ∧ s.dev.on 0x18 = true ∧ Tab.look s.dev.media.jobs j = some job ∧ job.units = [u] ∧
     job.move = false ∧ job.fill = false ∧ u.decoded = true ∧ u.done = false ∧ u.rec_ = some r ∧ r.zrange = true ∧
     entIsStaged u.entry = false ∧ finishTag (dataCrc (u.data.bytes 0 4096)) r.laddr r.wgen = r.tag ∧
     job.fits u r = true) ∧
    (let j := 0; let r : URec := { wgen := 0, nsh := 0, lba := 0, zrange := false };
     let u : JobUnit := { entry := 0, decoded := true, done := false, rec_ := some r };
     let job : ReadJob := { ctx := 0, cmdref := 0, tenant := 0, nsh := 0, rope := 0, admNo := 0, lookup := 0, dest := 0, grade := 0, units := [u], move := false, fill := false };
     let d : Dev := wOn ({} : Dev) 0x18 0;
     let d : Dev := { d with media := { d.media with jobs := Tab.put d.media.jobs j job } };
     let s : State := { dev := d };
     s.live = true ∧ s.dev.on 0x18 = true ∧ Tab.look s.dev.media.jobs j = some job ∧ job.units = [u] ∧
     job.move = false ∧ job.fill = false ∧ u.decoded = true ∧ u.done = false ∧ u.rec_ = some r ∧ r.zrange = false ∧
     entIsStaged u.entry = false) ∧
    (let j := 0; let u : JobUnit := { entry := 0, decoded := true, done := false, rec_ := none };
     let job : ReadJob := { ctx := 0, cmdref := 0, tenant := 0, nsh := 0, rope := 0, admNo := 0, lookup := 0, dest := 0, grade := 0, units := [u], move := false, fill := false };
     let d : Dev := wOn ({} : Dev) 0x18 0;
     let d : Dev := { d with media := { d.media with jobs := Tab.put d.media.jobs j job } };
     let d : Dev := d.fset Reg.MAP_CFG.UNIT 1; let s : State := { dev := d };
     s.live = true ∧ s.dev.on 0x18 = true ∧ s.dev.mapSpan = 4 ∧ Tab.look s.dev.media.jobs j = some job ∧
     job.units = [u] ∧ job.move = false ∧ job.fill = false ∧ u.decoded = true ∧ u.done = false ∧ u.rec_ = none) ∧
    (let j := 0; let r : URec := { wgen := 0, nsh := 0, lba := 0, zrange := true };
     let u : JobUnit := { entry := 0, decoded := true, done := false, rec_ := some r };
     let job : ReadJob := { ctx := 0, cmdref := 0, tenant := 0, nsh := 0, rope := 0, admNo := 0, lookup := 0, dest := 0, grade := 0, units := [u] };
     let d : Dev := wOn ({} : Dev) 0x18 0;
     let d : Dev := { d with media := { d.media with jobs := Tab.put d.media.jobs j job } };
     let s : State := { dev := d };
     s.live = true ∧ s.dev.on 0x18 = true ∧ Tab.look s.dev.media.jobs j = some job ∧ job.units = [u] ∧
     u.decoded = true ∧ u.done = false ∧ u.rec_ = some r ∧ r.zrange = true ∧ entIsStaged u.entry = false ∧
     s.dev.keygenWaits r.keySlot = false ∧
     (finishTag (dataCrc (u.data.bytes 0 4096)) r.laddr r.wgen ≠ r.tag ∨ job.fits u r = false)) ∧
    (let j := 0;
     let r : URec := { wgen := 0, nsh := 0, lba := 0, tag := finishTag (dataCrc (Memory.bytes [] 0 4096)) 0 0, zrange := true };
     let u : JobUnit := { entry := 0, decoded := true, done := false, rec_ := some r };
     let job : ReadJob := { ctx := 0, cmdref := 0, tenant := 0, nsh := 0, rope := 0, admNo := 0, lookup := 0, dest := 0, grade := 0, units := [u], move := true };
     let d : Dev := wOn ({} : Dev) 0x18 0;
     let d : Dev := { d with media := { d.media with jobs := Tab.put d.media.jobs j job } };
     let s : State := { dev := d };
     s.live = true ∧ s.dev.on 0x18 = true ∧ Tab.look s.dev.media.jobs j = some job ∧ job.units = [u] ∧
     job.move = true ∧ u.decoded = true ∧ u.done = false ∧ u.rec_ = some r ∧ r.zrange = true ∧
     entIsStaged u.entry = false ∧ finishTag (dataCrc (u.data.bytes 0 4096)) r.laddr r.wgen = r.tag ∧
     (Tab.look s.dev.stripe.bands job.dest).any (·.item = some 6) = false) ∧
    (let j := 0; let r : URec := { wgen := 0, nsh := 0, lba := 0, keyGen := 1, zrange := false };
     let u : JobUnit := { entry := 0, decoded := true, done := false, rec_ := some r };
     let job : ReadJob := { ctx := 0, cmdref := 0, tenant := 0, nsh := 0, rope := 0, admNo := 0, lookup := 0, dest := 0, grade := 0, units := [u], move := true };
     let c : KeyGen := { gen := 0, key := [] }; let d : Dev := wOn ({} : Dev) 0x18 0;
     let d : Dev := { d with media := { d.media with jobs := Tab.put d.media.jobs j job } };
     let d : Dev := { d with cipher := { d.cipher with data := [(0, { tenant := 0, nsh := 0, cur := some c })] } };
     let d : Dev := d.fset Reg.CPH_XTS_LIMIT.SOFT_LOG2 38; let d : Dev := d.fset Reg.CPH_XTS_LIMIT.HARD_LOG2 39;
     let d : Dev := { d with stripe := { d.stripe with bands := Tab.put d.stripe.bands 0 (({ state := .queued, k := 0, m := 0, item := some 6 } : Band)) } };
     let s : State := { dev := d };
     s.live = true ∧ s.dev.on 0x18 = true ∧ Tab.look s.dev.media.jobs j = some job ∧ job.units = [u] ∧
     job.move = true ∧ u.decoded = true ∧ u.done = false ∧ u.rec_ = some r ∧ r.zrange = false ∧
     entIsStaged u.entry = false ∧ (Tab.look s.dev.stripe.bands job.dest).any (·.item = some 6) = true ∧
     s.dev.keygenWaits r.keySlot = false ∧ (s.dev.dslot r.keySlot).cur = some c ∧ c.gen ≠ r.keyGen ∧
     c.used + 1 < s.dev.xtsSoft ∧ c.used + 1 < xtsCeiling ∧ s.dev.xtsSoft < s.dev.xtsHard) ∧
    (let j := 0; let s : State := {};
     s.live = true ∧ (Tab.look s.dev.media.jobs j = none ∨ s.dev.on 0x18 = false)) ∧
    (let j := 0; let i : Nat := 0;
     let job : ReadJob := { ctx := 0, cmdref := 0, tenant := 0, nsh := 0, rope := 0, admNo := 0, lookup := 0, dest := 0, grade := 0, units := [] };
     let d : Dev := {}; let d : Dev := { d with media := { d.media with jobs := Tab.put d.media.jobs j job } };
     let s : State := { dev := d };
     s.live = true ∧ Tab.look s.dev.media.jobs j = some job ∧
     (∀ u, job.units[i]? = some u → u.decoded = false ∨ u.done = true)) ∧
    (let j := 0; let k := 0; let r : URec := { wgen := 0, nsh := 0, lba := 0 };
     let u : JobUnit := { entry := entStaged 0 0, rec_ := some r };
     let job : ReadJob := { ctx := 0, cmdref := 0, tenant := 0, nsh := 0, rope := 0, admNo := 0, lookup := 0, dest := 0, grade := 0, units := [u] };
     let v : SUnit := { state := .landing, rec_ := { wgen := 0, nsh := 0, lba := 0 }, sealed := false };
     let d : Dev := {}; let d : Dev := { d with media := { d.media with jobs := Tab.put d.media.jobs j job } };
     let d : Dev := { d with map := { d.map with staging := [(k, v)] } }; let s : State := { dev := d };
     s.live = true ∧ Tab.look s.dev.media.jobs j = some job ∧ job.units = [u] ∧ u.rec_ = some r ∧
     entIsStaged u.entry = true ∧ s.dev.map.staging = [(k, v)] ∧ v.rec_.nsh = r.nsh ∧ v.rec_.lba = r.lba ∧
     v.rec_.wgen = r.wgen ∧ v.sealed = false) ∧
    (let c : CDone := { result := 0, op := 0, first := 0, last := 0, units := 0, slot := 0, token := 0, ctx := 0, cmdref := 0, tenant := 0, nsh := 0, rope := 0, runToken := 0, gen := 0 };
     let cs : List CDone := []; let d : Dev := {};
     let d : Dev := { d with cipher := { d.cipher with dones := c :: cs } }; let s : State := { dev := d };
     s.live = true ∧ s.dev.cipher.dones = c :: cs ∧ s.dev.pitch.queue.length < 8192 ∧ s.dev.pitch.held = []) ∧
    (let s : State := {};
     s.live = true ∧ s.dev.cipher.dones = []) ∧
    (let slot := 0; let gen := 0; let k : KeyGen := { gen := gen, key := [] }; let d : Dev := {};
     let d : Dev := { d with cipher := { d.cipher with data := [(0, { tenant := 0, nsh := 0, older := [k] })] } };
     let s : State := { dev := d };
     s.live = true ∧ s.dev.keyUnits slot gen = 0 ∧ k ∈ (s.dev.dslot slot).older ∧ k.gen = gen) ∧
    (let slot := 0; let gen := 0; let s : State := {};
     s.live = true ∧ (s.dev.keyUnits slot gen ≠ 0 ∨ ∀ k ∈ (s.dev.dslot slot).older, k.gen ≠ gen)) := by
  refine ⟨?_, ?_, ?_, ?_, ?_, ?_, ?_, ?_, ?_, ?_, ?_, ?_, ?_, ?_, ?_, ?_, ?_, ?_, ?_, ?_, ?_, ?_, ?_, ?_, ?_, ?_, ?_, ?_, ?_, ?_⟩
  · decide +kernel
  · decide +kernel
  · decide +kernel
  · decide +kernel
  · decide +kernel
  · decide +kernel
  · decide +kernel
  · decide +kernel
  · decide +kernel
  · decide +kernel
  · decide +kernel
  · exact ⟨by decide +kernel, by decide +kernel, by decide +kernel, by decide +kernel, by decide +kernel, by decide +kernel, by decide +kernel, by simp [URec.laddr], by decide +kernel, by decide +kernel, by decide +kernel, by decide +kernel, by decide +kernel, by decide +kernel⟩
  · exact ⟨by decide +kernel, by decide +kernel, by decide +kernel, by decide +kernel, by simp [URec.laddr], by decide +kernel⟩
  · decide +kernel
  · decide +kernel
  · decide +kernel
  · decide +kernel
  · exact ⟨by decide +kernel, by decide +kernel, by decide +kernel, by decide +kernel, by decide +kernel, by decide +kernel, by decide +kernel, by decide +kernel, by decide +kernel, by decide +kernel, by decide +kernel, by simp [URec.laddr], by decide +kernel⟩
  · decide +kernel
  · decide +kernel
  · exact ⟨by decide +kernel, by decide +kernel, by decide +kernel, by decide +kernel, by decide +kernel, by decide +kernel, by decide +kernel, by decide +kernel, by decide +kernel, by decide +kernel, by decide +kernel⟩
  · exact ⟨by decide +kernel, by decide +kernel, by decide +kernel, by decide +kernel, by decide +kernel, by decide +kernel, by decide +kernel, by decide +kernel, by decide +kernel, by decide +kernel, by simp [URec.laddr], by decide +kernel⟩
  · decide +kernel
  · decide +kernel
  · exact ⟨by decide +kernel, by decide +kernel, by decide +kernel⟩
  · decide +kernel
  · decide +kernel
  · decide +kernel
  · decide +kernel
  · decide +kernel

theorem witness_Spotter :
    (let cls := 1; let blk := 0; let n := 0; let d : Dev := wOn ({} : Dev) 3 0; let s : State := { dev := d };
     s.live = true ∧ s.dev.on 3 = true ∧ 1 ≤ cls ∧ cls ≤ 14 ∧ n < instCount blk ∧
     (cls = 0x0D → s.dev.camp.pfailN = true)) ∧
    (let blk := 0; let n := 0; let detail := 0; let s : State := {};
     s.live = true ∧ n < instCount blk ∧ bitOf detail 0 = false) ∧
    (let blk := 0; let n := 0; let detail := 1; let s : State := {};
     s.live = true ∧ n < instCount blk ∧ bitOf detail 0 = true) ∧
    (let cls := 15; let blk := 0; let n := 0; let s : State := {};
     s.live = true ∧
     (instCount blk ≤ n ∨ 14 < cls ∨ cls = 0x0D ∧ s.dev.camp.pfailN = false ∨ s.dev.on 3 = false ∧ cls ≠ 0 ∧ cls ≠ 2)) ∧
    (let blk := 0; let n := 0; let d : Dev := wOn ({} : Dev) 3 0; let s : State := { dev := d };
     s.live = true ∧ s.dev.on 3 = true ∧ n < instCount blk) ∧
    (let blk := 0; let n := 0; let failed : Bool := false; let s : State := {};
     s.live = true ∧ (failed = false ∨ s.dev.on 3 = false ∨ instCount blk ≤ n)) ∧
    (let d : Dev := wOn ({} : Dev) 3 0; let s : State := { dev := d };
     s.live = true ∧ s.dev.on 3 = true ∧ s.dev.spotter.pass = false) ∧
    (let s : State := {};
     s.live = true ∧ (s.dev.on 3 = false ∨ s.dev.spotter.pass = true)) ∧
    (let d : Dev := {}; let d : Dev := { d with spotter := { d.spotter with pass := true } };
     let s : State := { dev := d };
     s.live = true ∧ s.dev.spotter.pass = true) ∧
    (let s : State := {};
     s.live = true ∧ s.dev.spotter.pass = false) ∧
    (let blk := 0; let cls := 1; let d : Dev := wOn ({} : Dev) 3 0; let d : Dev := d.fset Reg.SPT_CFG.INJECT_EN 1;
     let s : State := { dev := d };
     s.live = true ∧ s.dev.on 3 = true ∧ s.dev.fget Reg.SPT_CFG.INJECT_EN = 1 ∧ 1 ≤ cls ∧ cls ≤ 14 ∧ 0 < instCount blk) ∧
    (let blk := 0; let cls := 0; let s : State := {};
     s.live = true ∧ blk < 256 ∧ cls < 256 ∧
     (s.dev.fget Reg.SPT_CFG.INJECT_EN = 0 ∨ cls = 0 ∨ 14 < cls ∨ instCount blk = 0)) := by
  refine ⟨?_, ?_, ?_, ?_, ?_, ?_, ?_, ?_, ?_, ?_, ?_, ?_⟩ <;> decide +kernel

theorem witness_PowerStates :
    (let ps := 1; let s : State := {};
     s.live = true ∧ 1 ≤ ps ∧ ps ≤ 3 ∧ s.dev.fget Reg.CAMP_PS.CUR ≠ ps) ∧
    (let ps := 1; let d : Dev := ({} : Dev).fset Reg.CAMP_PS.CUR ps; let s : State := { dev := d };
     s.live = true ∧ 1 ≤ ps ∧ ps ≤ 3 ∧ s.dev.fget Reg.CAMP_PS.CUR = ps) ∧
    (let d : Dev := ({} : Dev).fset Reg.CAMP_PS.REQ 2; let s : State := { dev := d };
     s.live = true ∧
     (s.dev.fget Reg.CAMP_PS.CUR ≠ 0 ∨ s.dev.fget Reg.CAMP_PS.REQ ≠ 0 ∨ s.dev.fget Reg.CAMP_PS.MOVING ≠ 0)) ∧
    (let d : Dev := ({} : Dev).fset Reg.CAMP_PS.CUR 0; let d : Dev := d.fset Reg.CAMP_PS.REQ 0;
     let d : Dev := d.fset Reg.CAMP_PS.MOVING 0; let s : State := { dev := d };
     s.live = true ∧ s.dev.fget Reg.CAMP_PS.CUR = 0 ∧ s.dev.fget Reg.CAMP_PS.REQ = 0 ∧
     s.dev.fget Reg.CAMP_PS.MOVING = 0) ∧
    (let d : Dev := ({} : Dev).fset Reg.CAMP_PS.MOVING 1; let s : State := { dev := d };
     s.live = true ∧ s.dev.fget Reg.CAMP_PS.MOVING = 1) ∧
    (let d : Dev := ({} : Dev).fset Reg.CAMP_PS.MOVING 0; let s : State := { dev := d };
     s.live = true ∧ s.dev.fget Reg.CAMP_PS.MOVING = 0) ∧
    (let k := 0; let st := 0; let s : State := {};
     s.live = true ∧ k ≤ 95 ∧ st ≤ 4) ∧
    (let k := 24; let d : Dev := ({} : Dev).fset Reg.CAMP_SAVE.BASE_MIB 0;
     let d : Dev := d.setDom k { d.dom k with held := false }; let d : Dev := wOn d 0x13 0;
     let s : State := { dev := d };
     s.live = true ∧ k ≤ 95 ∧ s.dev.domBusy k = true ∧ domFloor k = 4 ∧ s.dev.fget Reg.CAMP_SAVE.BASE_MIB = 0 ∧
     (s.dev.dom k).held = false) ∧
    (let st := 0; let s : State := {};
     s.live = true ∧ st ≤ 4) ∧
    (let st := 5; let s : State := {};
     s.live = true ∧ 5 ≤ st) ∧
    (let k := 96; let s : State := {};
     s.live = true ∧ 95 < k) ∧
    (let k := 10; let failed : Bool := false; let d : Dev := {};
     let d : Dev := d.setDom k { d.dom k with moving := true }; let s : State := { dev := d };
     s.live = true ∧ k ≤ 95 ∧ (s.dev.dom k).moving = true ∧
     (failed = false ∨ (s.dev.dom k).state < 3 ∨ 3 ≤ s.dev.target k)) ∧
    (let k := 10; let d : Dev := {}; let d : Dev := d.setDom k { d.dom k with moving := true };
     let d : Dev := wOn d 3 0; let d : Dev := d.setDom k { d.dom k with state := 3, req := 0 };
     let s : State := { dev := d };
     s.live = true ∧ k ≤ 95 ∧ (s.dev.dom k).moving = true ∧ 3 ≤ (s.dev.dom k).state ∧ s.dev.target k < 3 ∧
     s.dev.on 3 = true) ∧
    (let k := 0; let s : State := {};
     s.live = true ∧ ((s.dev.dom k).moving = false ∨ 95 < k)) ∧
    (let k := 10; let d : Dev := {}; let d : Dev := d.setDom k { d.dom k with state := 0 };
     let d : Dev := d.setDom k { d.dom k with state := 0, req := 1 }; let s : State := { dev := d };
     s.live = true ∧ k ≤ 95 ∧ (s.dev.dom k).state = 0 ∧ s.dev.target k = 1) ∧
    (let k := 0; let s : State := {};
     s.live = true ∧ ((s.dev.dom k).state ≠ 0 ∨ s.dev.target k ≠ 1 ∨ 95 < k)) ∧
    (let k := 0; let d : Dev := {}; let d : Dev := d.setDom k { d.dom k with state := 1 };
     let s : State := { dev := d };
     s.live = true ∧ k ≤ 95 ∧ (s.dev.dom k).state = 1) ∧
    (let k := 0; let s : State := {};
     s.live = true ∧ ((s.dev.dom k).state ≠ 1 ∨ 95 < k)) ∧
    (let p := 0; let d : Dev := ({} : Dev).fset Reg.CAMP_PLL.RUN 1; let s : State := { dev := d };
     s.live = true ∧ p < 17 ∧ bitOf (s.dev.fget Reg.CAMP_PLL.RUN) p = true) ∧
    (let p := 0; let s : State := {};
     s.live = true ∧ bitOf (s.dev.fget Reg.CAMP_PLL.RUN) p = false) ∧
    (let p := 0; let d : Dev := wOn ({} : Dev) 3 0; let s : State := { dev := d };
     s.live = true ∧ p < 17 ∧ s.dev.on 3 = true) ∧
    (let d : Dev := wOn ({} : Dev) 3 0; let s : State := { dev := d };
     s.live = true ∧ s.dev.on 3 = true) := by
  refine ⟨?_, ?_, ?_, ?_, ?_, ?_, ?_, ?_, ?_, ?_, ?_, ?_, ?_, ?_, ?_, ?_, ?_, ?_, ?_, ?_, ?_, ?_⟩ <;> decide +kernel

theorem witness_Tally :
    (let h := 0;
     let n : Ns := { nsid := 0, subsys := 0, tenant := 0, nsze := 0, grade := 0, anagrp := 0, attached := false, pinned := false, keySlot := 0 };
     let d : Dev := wOn ({} : Dev) 5 0; let d : Dev := { d with hostq := { d.hostq with nss := [(h, n)] } };
     let s : State := { dev := d };
     s.live = true ∧ s.dev.on 5 = true ∧ s.dev.countedNs = [(h, n)] ∧ n.tenant < 4096) ∧
    (let h := 0;
     let n : Ns := { nsid := 0, subsys := 0, tenant := 0, nsze := 0, grade := 1, anagrp := 0, attached := false, pinned := false, keySlot := 0, cold := false };
     let d : Dev := wOn ({} : Dev) 5 0; let d : Dev := { d with hostq := { d.hostq with nss := [(h, n)] } };
     let s : State := { dev := d };
     s.live = true ∧ s.dev.on 5 = true ∧ s.dev.countedNs = [(h, n)] ∧ n.tenant < 4096 ∧ n.cold = false ∧ n.grade ≤ 4) ∧
    (let h := 0;
     let n : Ns := { nsid := 0, subsys := 0, tenant := 0, nsze := 0, grade := 0, anagrp := 0, attached := false, pinned := false, keySlot := 0, cold := true };
     let d : Dev := wOn ({} : Dev) 5 0; let d : Dev := { d with hostq := { d.hostq with nss := [(h, n)] } };
     let s : State := { dev := d };
     s.live = true ∧ s.dev.on 5 = true ∧ s.dev.countedNs = [(h, n)] ∧ n.tenant < 4096 ∧ n.cold = true) ∧
    (let k := 0; let x := 1; let c : Ctrl := { subsys := 0, tenant := 0, maxq := 0, adminCtx := 0, apst := 529 };
     let d : Dev := {}; let d : Dev := { d with hostq := { d.hostq with ctrls := [(k, c)] } };
     let d : Dev := { d with tim := { d.tim with ns := 1000000 } }; let s : State := { dev := d };
     s.live = true ∧ s.dev.hostq.ctrls = [(k, c)] ∧ s.dev.hostq.tags = [] ∧ c.apstNext s.dev.msTick.now = some x) ∧
    (let s : State := {};
     s.live = true ∧ s.dev.on 5 = false) ∧
    (let i : Nat := 0; let t : Thr := { cfg := 0x8001000000000000 }; let d : Dev := wOn ({} : Dev) 5 0;
     let d : Dev := { d with tally := { d.tally with thr := Tab.put d.tally.thr i t } };
     let s : State := { dev := d };
     s.live = true ∧ s.dev.on 5 = true ∧ s.dev.frozen = false ∧ i < 64 ∧ Tab.look s.dev.tally.thr i = some t ∧
     field t.cfg 63 63 = 1 ∧ thrValid t.cfg = true) ∧
    (let d : Dev := ({} : Dev).fset Reg.TLY_FREEZE.FROZEN 1; let s : State := { dev := d };
     s.live = true ∧ s.dev.frozen = true) ∧
    (let d : Dev := ({} : Dev).fset Reg.TLY_WIN_CFG.MS 0; let s : State := { dev := d };
     s.live = true ∧ s.dev.fget Reg.TLY_WIN_CFG.MS = 0) ∧
    (let d : Dev := wOn ({} : Dev) 5 0; let d : Dev := d.fset Reg.TLY_WIN_CFG.MS 1;
     let d : Dev := d.fset Reg.TLY_FREEZE.FROZEN 1; let s : State := { dev := d };
     s.live = true ∧ s.dev.on 5 = true ∧ s.dev.fget Reg.TLY_WIN_CFG.MS ≠ 0 ∧ s.dev.frozen = true) ∧
    (let d : Dev := wOn ({} : Dev) 5 0; let d : Dev := d.fset Reg.TLY_WIN_CFG.MS 1; let s : State := { dev := d };
     s.live = true ∧ s.dev.on 5 = true ∧ s.dev.fget Reg.TLY_WIN_CFG.MS ≠ 0 ∧ s.dev.frozen = false ∧
     s.dev.tally.restart = false) ∧
    (let d : Dev := wOn ({} : Dev) 5 0; let d : Dev := d.fset Reg.TLY_WIN_CFG.MS 1;
     let d : Dev := { d with tally := { d.tally with restart := true } }; let s : State := { dev := d };
     s.live = true ∧ s.dev.on 5 = true ∧ s.dev.fget Reg.TLY_WIN_CFG.MS ≠ 0 ∧ s.dev.frozen = false ∧
     s.dev.tally.restart = true) ∧
    (let src := 1; let tenant := 0; let i : Nat := 0; let d : Dev := wOn ({} : Dev) 5 0;
     let d : Dev := d.fset (Reg.TLY_SAMP_CFG.EN.nth i) 1; let d : Dev := d.fset (Reg.TLY_SAMP_CFG.SOURCE.nth i) 1;
     let s : State := { dev := d };
     s.live = true ∧ s.dev.on 5 = true ∧ s.dev.frozen = false ∧ 1 ≤ src ∧ src ≤ 0x13 ∧ i < 16 ∧
     s.dev.fget (Reg.TLY_SAMP_CFG.EN.nth i) = 1 ∧ s.dev.fget (Reg.TLY_SAMP_CFG.SOURCE.nth i) = src ∧
     (s.dev.fget (Reg.TLY_SAMP_CFG.TEN_FILTER.nth i) = 0 ∨ sourceNames src = true ∧ s.dev.fget (Reg.TLY_SAMP_CFG.TENANT.nth i) = tenant % 4096)) ∧
    (let src := 1; let tenant := 0; let i : Nat := 0;
     let d : Dev := ({} : Dev).fset (Reg.TLY_SAMP_CFG.TEN_FILTER.nth i) 1; let s : State := { dev := d };
     s.live = true ∧ i < 16 ∧ s.dev.fget (Reg.TLY_SAMP_CFG.TEN_FILTER.nth i) ≠ 0 ∧
     (sourceNames src = false ∨ s.dev.fget (Reg.TLY_SAMP_CFG.TENANT.nth i) ≠ tenant % 4096)) ∧
    (let src := 0; let s : State := {};
     s.live = true ∧ (s.dev.frozen = true ∨ s.dev.on 5 = false ∨ src = 0 ∨ 0x13 < src)) ∧
    (let s : State := {};
     s.live = true) ∧
    (let d : Dev := wOn ({} : Dev) 5 0; let d : Dev := d.fset Reg.TLY_METER_CFG.EN 1;
     let d : Dev := d.fset Reg.TIM_STATUS.MONO 1; let s : State := { dev := d };
     s.live = true ∧ s.dev.on 5 = true ∧ s.dev.fget Reg.TLY_METER_CFG.EN = 1 ∧ s.dev.fget Reg.TIM_STATUS.MONO = 1 ∧
     s.dev.tally.signing = none ∧ s.dev.tally.base = none) ∧
    (let start := 0; let slots := 2; let d : Dev := wOn ({} : Dev) 5 0; let d : Dev := d.fset Reg.TLY_METER_CFG.EN 1;
     let d : Dev := d.fset Reg.TIM_STATUS.MONO 1;
     let d : Dev := { d with tally := { d.tally with base := some start } };
     let d : Dev := d.fset Reg.TLY_METER_RING.SLOTS 2; let s : State := { dev := d };
     s.live = true ∧ s.dev.on 5 = true ∧ s.dev.fget Reg.TLY_METER_CFG.EN = 1 ∧ s.dev.fget Reg.TIM_STATUS.MONO = 1 ∧
     s.dev.tally.signing = none ∧ s.dev.tally.base = some start ∧ slots = s.dev.fget Reg.TLY_METER_RING.SLOTS ∧
     slots ≠ 0 ∧ (s.dev.fget Reg.TLY_METER_IDX.HEAD + 1) % slots ≠ s.dev.fget Reg.TLY_METER_IDX.TAIL % slots) ∧
    (let start := 0; let d : Dev := wOn ({} : Dev) 5 0; let d : Dev := d.fset Reg.TLY_METER_CFG.EN 1;
     let d : Dev := d.fset Reg.TIM_STATUS.MONO 1;
     let d : Dev := { d with tally := { d.tally with base := some start } }; let s : State := { dev := d };
     let slots : Nat := (s.dev.fget Reg.TLY_METER_RING.SLOTS);
     s.live = true ∧ s.dev.on 5 = true ∧ s.dev.fget Reg.TLY_METER_CFG.EN = 1 ∧ s.dev.fget Reg.TIM_STATUS.MONO = 1 ∧
     s.dev.tally.signing = none ∧ s.dev.tally.base = some start ∧ slots = s.dev.fget Reg.TLY_METER_RING.SLOTS ∧
     (slots = 0 ∨ (s.dev.fget Reg.TLY_METER_IDX.HEAD + 1) % slots = s.dev.fget Reg.TLY_METER_IDX.TAIL % slots)) ∧
    (let s : State := {};
     s.live = true ∧
     (s.dev.fget Reg.TLY_METER_CFG.EN = 0 ∨ s.dev.on 5 = false ∨ s.dev.fget Reg.TIM_STATUS.MONO = 0 ∨ s.dev.tally.signing.isSome = true)) ∧
    (let b : Batch := { bytes := [], seq := 0, endNs := 0, span := false }; let d : Dev := {};
     let d : Dev := { d with tally := { d.tally with signing := some b } }; let s : State := { dev := d };
     s.live = true ∧ s.dev.tally.signing = some b) ∧
    (let s : State := {};
     s.live = true ∧ s.dev.tally.signing = none) := by
  refine ⟨?_, ?_, ?_, ?_, ?_, ?_, ?_, ?_, ?_, ?_, ?_, ?_, ?_, ?_, ?_, ?_, ?_, ?_, ?_, ?_, ?_⟩ <;> decide +kernel

theorem witness_CairnTriggers :
    (let d : Dev := wOn ({} : Dev) 4 0; let s : State := { dev := d };
     s.live = true ∧ s.dev.on 4 = true) ∧
    (let d : Dev := wOn ({} : Dev) 4 0; let d : Dev := d.fset Reg.CRN_BASE.NS 2000; let s : State := { dev := d };
     s.live = true ∧ s.dev.on 4 = true ∧ s.dev.now + 2000 ≤ s.dev.fget Reg.CRN_BASE.NS) ∧
    (let d : Dev := wOn ({} : Dev) 4 0; let s : State := { dev := d };
     s.live = true ∧ s.dev.on 4 = true ∧ s.dev.fget Reg.CRN_BASE.NS < s.dev.now + 2000) ∧
    (let p := 100000; let d : Dev := wOn ({} : Dev) 4 0; let d : Dev := d.fset Reg.CRN_PERIOD.US 100;
     let s : State := { dev := d };
     s.live = true ∧ s.dev.on 4 = true ∧ p = s.dev.fget Reg.CRN_PERIOD.US * 1000 ∧ 100000 ≤ p) ∧
    (let d : Dev := wOn ({} : Dev) 4 0; let s : State := { dev := d };
     s.live = true ∧ s.dev.on 4 = true ∧ s.dev.fget Reg.CRN_PERIOD.US < 100) ∧
    (let s : State := {};
     s.live = true ∧ s.dev.on 4 = false) ∧
    (let t : Nat := 0; let slots := 2; let late : Bool := false; let d : Dev := wOn ({} : Dev) 4 0;
     let d : Dev := d.fset Reg.CRN_RING.SLOTS 2;
     let d : Dev := { d with cairn := { d.cairn with arm := .periodic 0 5 false } }; let s : State := { dev := d };
     s.live = true ∧ s.dev.on 4 = true ∧ s.dev.cairn.arm.next = some (t, late) ∧ s.dev.now ≤ t ∧
     s.dev.cairn.collecting = none ∧ slots = s.dev.fget Reg.CRN_RING.SLOTS ∧ slots ≠ 0 ∧
     (s.dev.fget Reg.CRN_RING_IDX.HEAD + 1) % slots ≠ s.dev.fget Reg.CRN_RING_IDX.TAIL % slots) ∧
    (let c : CrnSet := { ns := 0, seq := 0, late := false, stepped := false }; let d : Dev := wOn ({} : Dev) 4 0;
     let d : Dev := { d with cairn := { d.cairn with collecting := some c } };
     let d : Dev := { d with cairn := { d.cairn with arm := .periodic 0 5 false } }; let s : State := { dev := d };
     s.live = true ∧ s.dev.on 4 = true ∧ s.dev.cairn.arm ≠ .off ∧ s.dev.cairn.collecting = some c) ∧
    (let d : Dev := wOn ({} : Dev) 4 0;
     let d : Dev := { d with cairn := { d.cairn with arm := .periodic 0 5 false } }; let s : State := { dev := d };
     let slots : Nat := (s.dev.fget Reg.CRN_RING.SLOTS);
     s.live = true ∧ s.dev.on 4 = true ∧ s.dev.cairn.arm ≠ .off ∧ s.dev.cairn.collecting = none ∧
     slots = s.dev.fget Reg.CRN_RING.SLOTS ∧
     (slots = 0 ∨ (s.dev.fget Reg.CRN_RING_IDX.HEAD + 1) % slots = s.dev.fget Reg.CRN_RING_IDX.TAIL % slots)) ∧
    (let s : State := {};
     s.live = true ∧ (s.dev.cairn.arm = .off ∨ s.dev.on 4 = false)) ∧
    (let c : CrnSet := { ns := 0, seq := 0, late := false, stepped := false }; let d : Dev := {};
     let d : Dev := { d with cairn := { d.cairn with collecting := some c } }; let s : State := { dev := d };
     s.live = true ∧ s.dev.cairn.collecting = some c) ∧
    (let s : State := {};
     s.live = true ∧ s.dev.cairn.collecting = none) := by
  refine ⟨?_, ?_, ?_, ?_, ?_, ?_, ?_, ?_, ?_, ?_, ?_, ?_⟩ <;> decide +kernel

theorem witness_ServicePins :
    (let d : Dev := wOn ({} : Dev) 0x1C 0; let d : Dev := d.fset Reg.MGMT_CTRL.I3C_EN 1;
     let s : State := { dev := d };
     s.live = true ∧ s.dev.on 0x1C = true ∧ s.dev.fget Reg.MGMT_CTRL.I3C_EN = 1 ∧ s.dev.mgmt.i3cDyn = none) ∧
    (let d : Dev := {}; let d : Dev := { d with mgmt := { d.mgmt with i3cDyn := some 8 } };
     let s : State := { dev := d };
     s.live = true ∧ s.dev.mgmt.i3cDyn ≠ none) ∧
    (let d : Dev := wOn ({} : Dev) 0x1C 0; let d : Dev := d.fset Reg.MGMT_CTRL.I3C_EN 1;
     let s : State := { dev := d };
     s.live = true ∧ s.dev.on 0x1C = true ∧ s.dev.fget Reg.MGMT_CTRL.I3C_EN = 1) ∧
    (let x := 0; let s : State := {};
     s.live = true ∧ x ≠ 0x1D + s.dev.fget Reg.CAMP_STRAP.UNIT_ID) ∧
    (let d : Dev := wOn ({} : Dev) 0x1C 0; let d : Dev := d.fset Reg.MGMT_CTRL.I3C_EN 1;
     let s : State := { dev := d };
     s.live = true ∧ s.dev.on 0x1C = true ∧ s.dev.fget Reg.MGMT_CTRL.I3C_EN = 1) ∧
    (let d : Dev := wOn ({} : Dev) 0x1C 0; let d : Dev := d.fset Reg.MGMT_CTRL.I3C_EN 1;
     let s : State := { dev := d };
     s.live = true ∧ s.dev.on 0x1C = true ∧ s.dev.fget Reg.MGMT_CTRL.I3C_EN = 1) ∧
    (let d : Dev := wOn ({} : Dev) 0x1C 0; let d : Dev := d.fset Reg.MGMT_CTRL.I3C_EN 1;
     let s : State := { dev := d };
     s.live = true ∧ s.dev.on 0x1C = true ∧ s.dev.fget Reg.MGMT_CTRL.I3C_EN = 1) ∧
    (let s : State := {};
     s.live = true ∧ (s.dev.fget Reg.MGMT_CTRL.I3C_EN = 0 ∨ s.dev.on 0x1C = false)) ∧
    (let levels : List Bool := List.replicate 95 false; let shift : List Bool := List.replicate 95 false;
     let s : State := {};
     s.hard.pwrGood = true ∧ levels.length = 95 ∧ shift.length = 95) ∧
    (let s : State := {};
     s.hard.pwrGood = true) ∧
    (let s : State := {};
     s.hard.pwrGood = true) ∧
    (let s : State := { hard := { pwrGood := false } };
     s.hard.pwrGood = false) := by
  refine ⟨?_, ?_, ?_, ?_, ?_, ?_, ?_, ?_, ?_, ?_, ?_, ?_⟩ <;> decide +kernel

theorem witness_AnchorRequests :
    (let d : Dev := ({} : Dev).fset Reg.DMC_CAP.MIB 1; let s : State := { dev := d };
     let a : Nat := (s.dev.fget Reg.ANC_REQ.ADDR);
     s.live = true ∧ s.dev.anchor.req = none ∧ (s.dev.inst 1 0).safe = false ∧ a = s.dev.fget Reg.ANC_REQ.ADDR ∧
     a % 8 = 0 ∧ a < s.dev.fget Reg.DMC_CAP.MIB * 2 ^ 20) ∧
    (let d : Dev := ({} : Dev).fset Reg.DMC_CAP.MIB 1; let s : State := { dev := d };
     let a : Nat := (s.dev.fget Reg.ANC_REQ.ADDR);
     s.live = true ∧ s.dev.anchor.req = none ∧ (s.dev.inst 1 0).safe = false ∧ a = s.dev.fget Reg.ANC_REQ.ADDR ∧
     a % 8 = 0 ∧ a < s.dev.fget Reg.DMC_CAP.MIB * 2 ^ 20) ∧
    (let d : Dev := ({} : Dev).fset Reg.DMC_CAP.MIB 1; let s : State := { dev := d };
     let a : Nat := (s.dev.fget Reg.ANC_REQ.ADDR); let e : List Byte := (s.dev.mem.dram.bytes a 56);
     s.live = true ∧ s.dev.anchor.req = none ∧ (s.dev.inst 1 0).safe = false ∧ a = s.dev.fget Reg.ANC_REQ.ADDR ∧
     a % 8 = 0 ∧ a < s.dev.fget Reg.DMC_CAP.MIB * 2 ^ 20 ∧ e = s.dev.mem.dram.bytes a 56) ∧
    (let d : Dev := ({} : Dev).fset Reg.DMC_CAP.MIB 1; let s : State := { dev := d };
     let a : Nat := (s.dev.fget Reg.ANC_REQ.ADDR);
     s.live = true ∧ s.dev.anchor.req = none ∧ (s.dev.inst 1 0).safe = false ∧ a = s.dev.fget Reg.ANC_REQ.ADDR ∧
     a % 8 = 0 ∧ a < s.dev.fget Reg.DMC_CAP.MIB * 2 ^ 20) ∧
    (let d : Dev := ({} : Dev).fset Reg.DMC_CAP.MIB 1; let s : State := { dev := d };
     let a : Nat := (s.dev.fget Reg.ANC_REQ.ADDR);
     s.live = true ∧ s.dev.anchor.req = none ∧ (s.dev.inst 1 0).safe = false ∧ a = s.dev.fget Reg.ANC_REQ.ADDR ∧
     a % 8 = 0 ∧ a < s.dev.fget Reg.DMC_CAP.MIB * 2 ^ 20) ∧
    (let r : Option Nat := some 2; let d : Dev := ({} : Dev).fset Reg.DMC_CAP.MIB 1; let s : State := { dev := d };
     let a : Nat := (s.dev.fget Reg.ANC_REQ.ADDR);
     s.live = true ∧ s.dev.anchor.req = none ∧ (s.dev.inst 1 0).safe = false ∧ a = s.dev.fget Reg.ANC_REQ.ADDR ∧
     a % 8 = 0 ∧ a < s.dev.fget Reg.DMC_CAP.MIB * 2 ^ 20 ∧ s.dev.fuseCheck { op := 4, addr := a } = r) ∧
    (let d : Dev := ({} : Dev).fset Reg.DMC_CAP.MIB 1;
     let d : Dev := { d with mem := { d.mem with dram := [(0, 3)] } }; let s : State := { dev := d };
     let a : Nat := (s.dev.fget Reg.ANC_REQ.ADDR);
     s.live = true ∧ s.dev.anchor.req = none ∧ (s.dev.inst 1 0).safe = false ∧ a = s.dev.fget Reg.ANC_REQ.ADDR ∧
     a % 8 = 0 ∧ a < s.dev.fget Reg.DMC_CAP.MIB * 2 ^ 20 ∧ (s.dev.mem.dram.read a 1 = 3 ∨ s.dev.mem.dram.read a 1 = 4)) ∧
    (let d : Dev := ({} : Dev).fset Reg.DMC_CAP.MIB 1; let s : State := { dev := d };
     let a : Nat := (s.dev.fget Reg.ANC_REQ.ADDR);
     s.live = true ∧ s.dev.anchor.req = none ∧ (s.dev.inst 1 0).safe = false ∧ a = s.dev.fget Reg.ANC_REQ.ADDR ∧
     a % 8 = 0 ∧ a < s.dev.fget Reg.DMC_CAP.MIB * 2 ^ 20 ∧ (s.dev.mem.dram.read a 1 = 0 ∨ 5 < s.dev.mem.dram.read a 1)) ∧
    (let d : Dev := ({} : Dev).fset Reg.DMC_CAP.MIB 1;
     let d : Dev := { d with mem := { d.mem with dram := [(0, 1)] } };
     let d : Dev := { d with anchor := { d.anchor with fuse := [(8, 1)] } }; let s : State := { dev := d };
     let a : Nat := (s.dev.fget Reg.ANC_REQ.ADDR);
     s.live = true ∧ s.dev.anchor.req = none ∧ (s.dev.inst 1 0).safe = false ∧ a = s.dev.fget Reg.ANC_REQ.ADDR ∧
     a % 8 = 0 ∧ a < s.dev.fget Reg.DMC_CAP.MIB * 2 ^ 20 ∧
     (s.dev.mem.dram.read a 1 = 1 ∨ s.dev.mem.dram.read a 1 = 2 ∨ s.dev.mem.dram.read a 1 = 5) ∧
     s.dev.mem.dram.read (a + 1) 1 < 4 ∧ s.dev.mem.dram.read (a + 80) 1 < 4 ∧ s.dev.mem.dram.read (a + 2) 6 = 0 ∧
     s.dev.mem.dram.read (a + 73) 7 = 0 ∧ s.dev.mem.dram.read (a + 81) 15 = 0 ∧ s.dev.mem.dram.read (a + 210) 14 = 0 ∧
     s.dev.mem.dram.bytes (a + 8) 8 ≠ leBytes (s.dev.fuseW 8).toNat 8) ∧
    (let c : Instr := .attestReport; let op : Nat := 1; let d : Dev := ({} : Dev).fset Reg.ANC_REQ.ADDR 1;
     let s : State := { dev := d };
     s.live = true ∧ s.dev.anchor.req = none ∧ (s.dev.inst 1 0).safe = false ∧
     (s.dev.fget Reg.ANC_REQ.ADDR % 8 ≠ 0 ∨ s.dev.fget Reg.DMC_CAP.MIB * 2 ^ 20 ≤ s.dev.fget Reg.ANC_REQ.ADDR) ∧
     (c, op) ∈ [(Instr.attestReport, 1), (.kekImport, 2), (.kekUnseal, 3), (.fuseRequest, 4), (.certExport, 5), (.spdmSign, 6)]) ∧
    (let c : Instr := .attestReport; let op : Nat := 1; let r : AncReq := { op := 0, addr := 0 }; let d : Dev := {};
     let d : Dev := { d with anchor := { d.anchor with req := some r } }; let s : State := { dev := d };
     s.live = true ∧ s.dev.anchor.req = some r ∧ (r.op ≠ op ∨ r.result ≠ none) ∧
     (c, op) ∈ [(Instr.attestReport, 1), (.kekImport, 2), (.kekUnseal, 3), (.fuseRequest, 4), (.certExport, 5), (.spdmSign, 6)]) ∧
    (let c : Instr := .attestReport; let op : Nat := 1;
     let d : Dev := ({} : Dev).modInst 1 0 fun i => { i with safe := true }
     let s : State := { dev := d };
     s.live = true ∧ s.dev.anchor.req = none ∧ (s.dev.inst 1 0).safe = true ∧
     (c, op) ∈ [(Instr.attestReport, 1), (.kekImport, 2), (.kekUnseal, 3), (.fuseRequest, 4), (.certExport, 5), (.spdmSign, 6)]) ∧
    (let r : AncReq := { op := 1, addr := 0, result := none }; let d : Dev := {};
     let d : Dev := { d with anchor := { d.anchor with req := some r } }; let s : State := { dev := d };
     s.live = true ∧ s.dev.anchor.req = some r ∧ r.op = 1 ∧ r.result = none) ∧
    (let x := 0; let r : AncReq := { op := 0, addr := 0, result := some x }; let d : Dev := {};
     let d : Dev := { d with anchor := { d.anchor with req := some r } }; let s : State := { dev := d };
     s.live = true ∧ s.dev.anchor.req = some r ∧ r.result = some x ∧ x < 256) ∧
    (let s : State := {};
     s.live = true ∧ s.dev.anchor.req.bind (·.result) = none) := by
  refine ⟨?_, ?_, ?_, ?_, ?_, ?_, ?_, ?_, ?_, ?_, ?_, ?_, ?_, ?_, ?_⟩
  · decide +kernel
  · decide +kernel
  · decide +kernel
  · decide +kernel
  · decide +kernel
  · decide +kernel
  · decide +kernel
  · decide +kernel
  · decide +kernel
  · exact ⟨by decide +kernel, by decide +kernel, by decide +kernel, by decide +kernel, by first | decide +kernel | rfl | simp [URec.laddr]⟩
  · exact ⟨by decide +kernel, by decide +kernel, by decide +kernel, by first | decide +kernel | rfl | simp [URec.laddr]⟩
  · exact ⟨by decide +kernel, by decide +kernel, by decide +kernel, by first | decide +kernel | rfl | simp [URec.laddr]⟩
  · decide +kernel
  · decide +kernel
  · decide +kernel

theorem witness_FuseOperations :
    (let bs : List Byte := [1]; let slot := 0; let d : Dev := {};
     let d : Dev := { d with anchor := { d.anchor with req := some { op := 4, addr := 0, accepted := some bs } } };
     let s : State := { dev := d };
     s.live = true ∧ s.dev.fusePending = some (1, bs) ∧ slot = leAt bs 1 1 ∧ slot < 4) ∧
    (let bs : List Byte := [2]; let slot := 0; let d : Dev := {};
     let d : Dev := { d with anchor := { d.anchor with req := some { op := 4, addr := 0, accepted := some bs } } };
     let s : State := { dev := d };
     s.live = true ∧ s.dev.fusePending = some (2, bs) ∧ slot = leAt bs 1 1 ∧ slot < 4) ∧
    (let bs : List Byte := [3]; let d : Dev := {};
     let d : Dev := { d with anchor := { d.anchor with req := some { op := 4, addr := 0, accepted := some bs } } };
     let s : State := { dev := d };
     s.live = true ∧ s.dev.fusePending = some (3, bs)) ∧
    (let bs : List Byte := [4];
     let m : Image := { bank := 0, gen := 0, ncode := 0, svn := 0, binds := [], dma := [], inits := [] };
     let d : Dev := {}; let d : Dev := { d with pitch := { d.pitch with images := [m] } };
     let d : Dev := { d with anchor := { d.anchor with req := some { op := 4, addr := 0, accepted := some bs } } };
     let s : State := { dev := d };
     s.live = true ∧ s.dev.fusePending = some (4, bs) ∧ s.dev.pitch.images = [m] ∧ m.gen = (s.dev.inst 0x13 0).active) ∧
    (let bs : List Byte := [5]; let d : Dev := {};
     let d : Dev := { d with anchor := { d.anchor with req := some { op := 4, addr := 0, accepted := some bs } } };
     let s : State := { dev := d };
     s.live = true ∧ s.dev.fusePending = some (5, bs)) ∧
    (let c : Instr := .enroll; let op : Nat := 1; let s : State := {};
     s.live = true ∧ s.dev.fusePending.map (·.1) ≠ some op ∧
     (c, op) ∈ [(Instr.enroll, 1), (.revoke, 2), (.raiseWdn, 3), (.raisePgm, 4), (.decommission, 5)]) := by
  refine ⟨?_, ?_, ?_, ?_, ?_, ?_⟩
  · decide +kernel
  · decide +kernel
  · decide +kernel
  · decide +kernel
  · decide +kernel
  · exact ⟨by decide +kernel, by decide +kernel, by first | decide +kernel | rfl | simp [URec.laddr]⟩

theorem witness_SpdmResponder :
    (let d : Dev := {}; let d : Dev := { d with anchor := { d.anchor with wardenRan := true } };
     let d : Dev := wOn d 2 0; let s : State := { dev := d };
     s.live = true ∧ s.dev.anchor.wardenRan = true ∧ s.dev.on 2 = true) ∧
    (let d : Dev := {}; let d : Dev := { d with anchor := { d.anchor with wardenRan := true } };
     let d : Dev := wOn d 2 0; let d : Dev := { d with anchor := { d.anchor with spdmStage := 1 } };
     let s : State := { dev := d };
     s.live = true ∧ s.dev.anchor.wardenRan = true ∧ s.dev.on 2 = true ∧ 1 ≤ s.dev.anchor.spdmStage) ∧
    (let d : Dev := {}; let d : Dev := { d with anchor := { d.anchor with wardenRan := true } };
     let d : Dev := wOn d 2 0; let d : Dev := { d with anchor := { d.anchor with spdmStage := 2 } };
     let s : State := { dev := d };
     s.live = true ∧ s.dev.anchor.wardenRan = true ∧ s.dev.on 2 = true ∧ 2 ≤ s.dev.anchor.spdmStage) ∧
    (let d : Dev := {}; let d : Dev := { d with anchor := { d.anchor with wardenRan := true } };
     let d : Dev := wOn d 2 0; let d : Dev := { d with anchor := { d.anchor with spdmStage := 3 } };
     let s : State := { dev := d };
     s.live = true ∧ s.dev.anchor.wardenRan = true ∧ s.dev.on 2 = true ∧ s.dev.anchor.spdmStage = 3) ∧
    (let offset := 0; let d : Dev := {}; let d : Dev := { d with anchor := { d.anchor with wardenRan := true } };
     let d : Dev := wOn d 2 0; let d : Dev := { d with anchor := { d.anchor with spdmStage := 3 } };
     let s : State := { dev := d };
     s.live = true ∧ s.dev.anchor.wardenRan = true ∧ s.dev.on 2 = true ∧ s.dev.anchor.spdmStage = 3 ∧
     offset ≤ s.dev.anchor.spdmChain.length) ∧
    (let slot := 1; let offset := 0; let d : Dev := {};
     let d : Dev := { d with anchor := { d.anchor with wardenRan := true } }; let d : Dev := wOn d 2 0;
     let d : Dev := { d with anchor := { d.anchor with spdmStage := 3 } }; let s : State := { dev := d };
     s.live = true ∧ s.dev.anchor.wardenRan = true ∧ s.dev.on 2 = true ∧ s.dev.anchor.spdmStage = 3 ∧
     (slot ≠ 0 ∨ s.dev.anchor.spdmChain.length < offset)) ∧
    (let d : Dev := {}; let d : Dev := { d with anchor := { d.anchor with wardenRan := true } };
     let d : Dev := wOn d 2 0; let d : Dev := { d with anchor := { d.anchor with spdmStage := 3 } };
     let s : State := { dev := d };
     s.live = true ∧ s.dev.anchor.wardenRan = true ∧ s.dev.on 2 = true ∧ s.dev.anchor.spdmStage = 3) ∧
    (let d : Dev := {}; let d : Dev := { d with anchor := { d.anchor with wardenRan := true } };
     let d : Dev := wOn d 2 0; let d : Dev := { d with anchor := { d.anchor with spdmStage := 3 } };
     let s : State := { dev := d };
     s.live = true ∧ s.dev.anchor.wardenRan = true ∧ s.dev.on 2 = true ∧ s.dev.anchor.spdmStage = 3) ∧
    (let slot := 1; let k := 0; let d : Dev := {};
     let d : Dev := { d with anchor := { d.anchor with wardenRan := true } }; let d : Dev := wOn d 2 0;
     let d : Dev := { d with anchor := { d.anchor with spdmStage := 3 } }; let s : State := { dev := d };
     s.live = true ∧ s.dev.anchor.wardenRan = true ∧ s.dev.on 2 = true ∧ s.dev.anchor.spdmStage = 3 ∧
     (slot ≠ 0 ∨ k ≠ 0 ∧ k ≠ 255)) ∧
    (let i : Nat := 1; let d : Dev := {}; let d : Dev := { d with anchor := { d.anchor with wardenRan := true } };
     let d : Dev := wOn d 2 0; let d : Dev := { d with anchor := { d.anchor with spdmStage := 3 } };
     let s : State := { dev := d };
     s.live = true ∧ s.dev.anchor.wardenRan = true ∧ s.dev.on 2 = true ∧ s.dev.anchor.spdmStage = 3 ∧ 1 ≤ i ∧ i ≤ 5 ∧
     Tab.look s.dev.anchor.meas i = none) ∧
    (let d : Dev := {}; let d : Dev := { d with anchor := { d.anchor with wardenRan := true } };
     let d : Dev := wOn d 2 0; let d : Dev := { d with anchor := { d.anchor with spdmStage := 3 } };
     let s : State := { dev := d };
     s.live = true ∧ s.dev.anchor.wardenRan = true ∧ s.dev.on 2 = true ∧ s.dev.anchor.spdmStage = 3) ∧
    (let i : Nat := 0; let d : Dev := {}; let d : Dev := { d with anchor := { d.anchor with wardenRan := true } };
     let d : Dev := wOn d 2 0; let d : Dev := { d with anchor := { d.anchor with spdmStage := 3 } };
     let s : State := { dev := d };
     s.live = true ∧ s.dev.anchor.wardenRan = true ∧ s.dev.on 2 = true ∧ s.dev.anchor.spdmStage = 3 ∧ (i = 0 ∨ 6 < i) ∧
     i ≠ 255) ∧
    (let i : Nat := 1; let m : Measure := { shake := [], sha3 := [] }; let d : Dev := {};
     let d : Dev := { d with anchor := { d.anchor with wardenRan := true } }; let d : Dev := wOn d 2 0;
     let d : Dev := { d with anchor := { d.anchor with spdmStage := 3 } };
     let d : Dev := { d with anchor := { d.anchor with meas := Tab.put d.anchor.meas i m } };
     let s : State := { dev := d };
     s.live = true ∧ s.dev.anchor.wardenRan = true ∧ s.dev.on 2 = true ∧ s.dev.anchor.spdmStage = 3 ∧ 1 ≤ i ∧ i ≤ 5 ∧
     Tab.look s.dev.anchor.meas i = some m) ∧
    (let d : Dev := {}; let d : Dev := { d with anchor := { d.anchor with wardenRan := true } };
     let d : Dev := wOn d 2 0; let d : Dev := { d with anchor := { d.anchor with spdmStage := 3 } };
     let s : State := { dev := d };
     s.live = true ∧ s.dev.anchor.wardenRan = true ∧ s.dev.on 2 = true ∧ s.dev.anchor.spdmStage = 3) ∧
    (let d : Dev := {}; let d : Dev := { d with anchor := { d.anchor with wardenRan := true } };
     let d : Dev := wOn d 2 0; let s : State := { dev := d };
     s.live = true ∧ s.dev.anchor.wardenRan = true ∧ s.dev.on 2 = true) ∧
    (let a : Bool := false; let b : Bool := false; let slot := 0; let offset := 0; let len := 0; let index := 0;
     let hash : List Byte := []; let sig : Option (List Byte) := none; let c : Instr := .getDigests;
     let d : Dev := {}; let d : Dev := { d with anchor := { d.anchor with wardenRan := true } };
     let d : Dev := wOn d 2 0; let s : State := { dev := d };
     s.live = true ∧ s.dev.anchor.wardenRan = true ∧ s.dev.on 2 = true ∧ s.dev.anchor.spdmStage = 0 ∧
     c ∈ [Instr.getCapabilities, .negotiateAlgorithms a b, .getDigests, .getCertificate slot offset len, .challenge slot index hash, .getMeasurements index sig]) ∧
    (let a : Bool := false; let b : Bool := false; let slot := 0; let offset := 0; let len := 0; let index := 0;
     let hash : List Byte := []; let sig : Option (List Byte) := none; let c : Instr := .getVersion;
     let s : State := {};
     s.live = true ∧ (s.dev.anchor.wardenRan = false ∨ s.dev.on 2 = false) ∧
     c ∈ [Instr.getVersion, .getCapabilities, .negotiateAlgorithms a b, .getDigests, .getCertificate slot offset len, .challenge slot index hash, .getMeasurements index sig, .spdmUnsupportedRequest]) := by
  refine ⟨?_, ?_, ?_, ?_, ?_, ?_, ?_, ?_, ?_, ?_, ?_, ?_, ?_, ?_, ?_, ?_, ?_⟩
  · decide +kernel
  · decide +kernel
  · decide +kernel
  · decide +kernel
  · decide +kernel
  · decide +kernel
  · decide +kernel
  · decide +kernel
  · decide +kernel
  · decide +kernel
  · decide +kernel
  · decide +kernel
  · decide +kernel
  · decide +kernel
  · decide +kernel
  · exact ⟨by decide +kernel, by decide +kernel, by decide +kernel, by decide +kernel, by first | decide +kernel | rfl | simp [URec.laddr]⟩
  · exact ⟨by decide +kernel, by decide +kernel, by first | decide +kernel | rfl | simp [URec.laddr]⟩

theorem witness_BelayLink :
    (let h : BHdr := { seq := 0, ack := 0, good := false }; let c : Instr := .bconf h 0 0;
     let d : Dev := wBly ({} : Dev); let s : State := { dev := d };
     s.live = true ∧ s.dev.blyUp = true ∧ belayFrame h c ∧
     (h.good = false ∨ (h.seq % 2 ^ 32 ≠ (s.dev.belay.rxSeq + 1) % 2 ^ 32 ∧ linkSeqLe (2 ^ 32) h.seq s.dev.belay.rxSeq = false))) ∧
    (let h : BHdr := { seq := 0, ack := 0, good := true }; let c : Instr := .bconf h 0 0;
     let d : Dev := wBly ({} : Dev); let s : State := { dev := d };
     s.live = true ∧ s.dev.blyUp = true ∧ belayFrame h c ∧ h.good = true ∧
     h.seq % 2 ^ 32 ≠ (s.dev.belay.rxSeq + 1) % 2 ^ 32 ∧ linkSeqLe (2 ^ 32) h.seq s.dev.belay.rxSeq = true) ∧
    (let h : BHdr := { seq := 0, ack := 0 }; let c : Instr := .bconf h 0 0; let s : State := {};
     s.live = true ∧ s.dev.blyUp = false ∧ belayFrame h c) ∧
    (let phys := 1; let d : Dev := ({} : Dev).fset Reg.BLY_CFG.LINK_EN 0;
     let d : Dev := d.fset Reg.BLY_STATUS.STATE 0; let s : State := { dev := d };
     s.live = true ∧ s.dev.fget Reg.BLY_CFG.LINK_EN = 0 ∧ s.dev.bly = 0 ∧ 1 ≤ phys ∧ phys ≤ 3) ∧
    (let d : Dev := ({} : Dev).fset Reg.BLY_CFG.LINK_EN 0; let s : State := { dev := d };
     s.live = true ∧ s.dev.fget Reg.BLY_CFG.LINK_EN = 0) ∧
    (let d : Dev := ({} : Dev).fset Reg.BLY_CFG.LINK_EN 1; let s : State := { dev := d };
     s.live = true ∧ s.dev.fget Reg.BLY_CFG.LINK_EN = 1) ∧
    (let d : Dev := wBly ({} : Dev); let s : State := { dev := d };
     s.live = true ∧ s.dev.blyUp = true) ∧
    (let s : State := {};
     s.live = true ∧ s.dev.blyUp = false) ∧
    (let h : BHdr := { seq := 1, ack := 0 }; let d : Dev := wBly ({} : Dev); let s : State := { dev := d };
     s.live = true ∧ s.dev.bNext h = true) ∧
    (let d : Dev := {}; let d : Dev := { d with belay := { d.belay with beating := true } }; let d : Dev := wBly d;
     let s : State := { dev := d };
     s.live = true ∧ s.dev.belay.beating = true ∧ s.dev.quiet = false ∧ s.dev.blyUp = true) ∧
    (let d : Dev := {}; let d : Dev := { d with belay := { d.belay with beating := true } };
     let s : State := { dev := d };
     s.live = true ∧ s.dev.belay.beating = true ∧ s.dev.quiet = false ∧ s.dev.blyUp = false) ∧
    (let s : State := {};
     s.live = true ∧ (s.dev.belay.beating = false ∨ s.dev.quiet = true)) ∧
    (let h : BHdr := { seq := 1, ack := 0 }; let p : List Byte := List.replicate 24 0 ++ [1];
     let m : Memory := (Memory.setBytes ([]) 0 p); let d : Dev := wBly ({} : Dev); let d : Dev := wOn d 0x19 0;
     let s : State := { dev := d };
     s.live = true ∧ s.dev.bNext h = true ∧ s.dev.on 0x19 = true ∧ m = Memory.setBytes [] 0 p ∧ m.read 24 8 ≠ 0) ∧
    (let h : BHdr := { seq := 1, ack := 0 }; let p : List Byte := []; let d : Dev := wBly ({} : Dev);
     let d : Dev := wOn d 0x19 0; let s : State := { dev := d };
     s.live = true ∧ s.dev.bNext h = true ∧ s.dev.on 0x19 = true ∧ (Memory.setBytes [] 0 p).read 24 8 = 0) ∧
    (let h : BHdr := { seq := 1, ack := 0 }; let p : List Byte := List.replicate 24 0 ++ [1];
     let m : Memory := (Memory.setBytes ([]) 0 p); let d : Dev := wBly ({} : Dev); let d : Dev := wOn d 0x19 0;
     let d : Dev := { d with belay := { d.belay with skew := 15 } };
     let d : Dev := { d with tim := { d.tim with ns := 1000000 } };
     let d : Dev := { d with belay := { d.belay with skew := 15 } }; let s : State := { dev := d };
     s.live = true ∧ s.dev.bNext h = true ∧ s.dev.on 0x19 = true ∧ m = Memory.setBytes [] 0 p ∧ m.read 24 8 ≠ 0 ∧
     s.dev.belay.skew = 15 ∧
     (s.dev.fget Reg.BLY_CFG.TIME_TOL_NS < ((((m.read 24 8 : Nat) : Int) - ((m.read 16 8 : Nat) : Int) - (((s.dev.now : Nat) : Int) - ((m.read 8 8 : Nat) : Int))) / 2).natAbs)) ∧
    (let h : BHdr := { seq := 1, ack := 0 }; let d : Dev := wBly ({} : Dev); let s : State := { dev := d };
     s.live = true ∧ s.dev.bNext h = true ∧ s.dev.on 0x19 = false) ∧
    (let level : Bool := true; let d : Dev := wOn ({} : Dev) 0x19 0; let s : State := { dev := d };
     s.live = true ∧ s.dev.on 0x19 = true ∧ level ≠ s.dev.belay.pinIn) ∧
    (let level : Bool := true; let s : State := {};
     s.live = true ∧ s.dev.on 0x19 = false ∧ level ≠ s.dev.belay.pinIn) ∧
    (let s : State := {};
     s.live = true) ∧
    (let d : Dev := wOn ({} : Dev) 0x19 0; let d : Dev := d.fset Reg.BLY_STATUS.PINS_UP 1;
     let d : Dev := { d with belay := { d.belay with lastLink := some 0 } }; let s : State := { dev := d };
     s.live = true ∧ s.dev.on 0x19 = true ∧ s.dev.fget Reg.BLY_STATUS.PINS_UP = 1 ∧
     s.dev.silent s.dev.belay.lastPins = true ∧ s.dev.silent s.dev.belay.lastLink = false) ∧
    (let d : Dev := wOn ({} : Dev) 0x19 0; let d : Dev := d.fset Reg.BLY_STATUS.LINK_UP 1;
     let d : Dev := { d with belay := { d.belay with lastPins := some 0 } }; let s : State := { dev := d };
     s.live = true ∧ s.dev.on 0x19 = true ∧ s.dev.fget Reg.BLY_STATUS.LINK_UP = 1 ∧
     s.dev.silent s.dev.belay.lastLink = true ∧ s.dev.silent s.dev.belay.lastPins = false) ∧
    (let t : Nat := 0; let d : Dev := wOn ({} : Dev) 0x19 0;
     let d : Dev := { d with belay := { d.belay with lastLink := some t } };
     let d : Dev := { d with tim := { d.tim with ns := 110000 } };
     let d : Dev := { d with belay := { d.belay with lastLink := some 0 } }; let s : State := { dev := d };
     s.live = true ∧ s.dev.on 0x19 = true ∧ s.dev.belay.lastLink = some t ∧ t + 110000 ≤ s.dev.now ∧
     s.dev.now < t + 300000) ∧
    (let t : Nat := 0; let d : Dev := wOn ({} : Dev) 0x19 0;
     let d : Dev := { d with belay := { d.belay with lastPins := some t } };
     let d : Dev := { d with tim := { d.tim with ns := 110000 } };
     let d : Dev := { d with belay := { d.belay with lastPins := some 0 } }; let s : State := { dev := d };
     s.live = true ∧ s.dev.on 0x19 = true ∧ s.dev.belay.lastPins = some t ∧ t + 110000 ≤ s.dev.now ∧
     s.dev.now < t + 300000) ∧
    (let pins : Bool := true; let t : Nat := 0; let d : Dev := {};
     let d : Dev := { d with belay := { d.belay with lastPins := some 0 } }; let s : State := { dev := d };
     s.live = true ∧ (if pins then s.dev.belay.lastPins else s.dev.belay.lastLink) = some t ∧ s.dev.now < t + 110000) ∧
    (let s : State := {};
     s.live = true ∧ s.dev.on 0x19 = false) ∧
    (let p := 0; let d : Dev := ({} : Dev).fset Reg.BLY_STATUS.PHYS 3; let s : State := { dev := d };
     s.live = true ∧ p < 2 ∧ s.dev.fget Reg.BLY_STATUS.PHYS = 3) ∧
    (let p := 0; let d : Dev := ({} : Dev).fset Reg.BLY_STATUS.PHYS (2 ^ p); let s : State := { dev := d };
     s.live = true ∧ p < 2 ∧ s.dev.fget Reg.BLY_STATUS.PHYS = 2 ^ p) ∧
    (let p := 0; let s : State := {};
     s.live = true ∧ p < 2 ∧ bitOf (s.dev.fget Reg.BLY_STATUS.PHYS) p = false) ∧
    (let p := 0; let d : Dev := ({} : Dev).fset Reg.BLY_CFG.LINK_EN 1;
     let d : Dev := d.fset Reg.BLY_STATUS.PHYS (2 ^ (1 - p)); let s : State := { dev := d };
     s.live = true ∧ p < 2 ∧ s.dev.fget Reg.BLY_CFG.LINK_EN = 1 ∧ s.dev.fget Reg.BLY_STATUS.PHYS = 2 ^ (1 - p)) ∧
    (let p := 0; let d : Dev := ({} : Dev).fset Reg.BLY_CFG.LINK_EN 1; let d : Dev := d.fset Reg.BLY_STATUS.PHYS 0;
     let s : State := { dev := d };
     s.live = true ∧ p < 2 ∧ s.dev.fget Reg.BLY_CFG.LINK_EN = 1 ∧ s.dev.fget Reg.BLY_STATUS.PHYS = 0 ∧ s.dev.bly ≠ 2 ∧
     s.dev.bly ≠ 4 ∧ s.dev.bly ≠ 5) ∧
    (let p := 0; let d : Dev := ({} : Dev).fset Reg.BLY_CFG.LINK_EN 1; let d : Dev := d.fset Reg.BLY_STATUS.PHYS 0;
     let d : Dev := d.fset Reg.BLY_STATUS.STATE 2; let s : State := { dev := d };
     s.live = true ∧ p < 2 ∧ s.dev.fget Reg.BLY_CFG.LINK_EN = 1 ∧ s.dev.fget Reg.BLY_STATUS.PHYS = 0 ∧
     (s.dev.bly = 2 ∨ s.dev.bly = 4 ∨ s.dev.bly = 5) ∧ (∀ f ∈ s.dev.belay.unacked, f.replays < 8)) ∧
    (let p := 0; let s : State := {};
     s.live = true ∧ p < 2 ∧ (s.dev.fget Reg.BLY_CFG.LINK_EN = 0 ∨ bitOf (s.dev.fget Reg.BLY_STATUS.PHYS) p = true)) ∧
    (let t : Nat := 0; let d : Dev := wOn ({} : Dev) 0x19 0;
     let d : Dev := { d with belay := { d.belay with downSince := some t } };
     let d : Dev := d.fset Reg.BLY_STATUS.PINS_UP 1; let d : Dev := d.fset Reg.CAMP_STRAP.UNIT_ID 1;
     let s : State := { dev := d };
     s.live = true ∧ s.dev.on 0x19 = true ∧ s.dev.belay.downSince = some t ∧ s.dev.unitId = 1 ∧
     s.dev.fget Reg.BLY_STATUS.PINS_UP = 1 ∧ t + s.dev.fget Reg.BLY_CFG.LINK_GRACE_US * 1000 ≤ s.dev.now ∧
     s.dev.bly ≠ 6) ∧
    (let s : State := {};
     s.live = true ∧ (s.dev.unitId = 0 ∨ s.dev.belay.downSince = none ∨ s.dev.fget Reg.BLY_STATUS.PINS_UP = 0)) ∧
    (let t : Nat := 0; let d : Dev := {}; let d : Dev := { d with belay := { d.belay with downSince := some t } };
     let d : Dev := d.fset Reg.BLY_CFG.LINK_GRACE_US 1000; let s : State := { dev := d };
     s.live = true ∧ s.dev.belay.downSince = some t ∧ s.dev.now < t + s.dev.fget Reg.BLY_CFG.LINK_GRACE_US * 1000) ∧
    (let d : Dev := wBly ({} : Dev); let s : State := { dev := d };
     s.live = true ∧ s.dev.blyUp = true ∧ (∀ f ∈ s.dev.belay.unacked, f.replays < 8)) ∧
    (let f : BFrame := ({ seq := 1, typ := 1, replays := 8 } : BFrame); let d : Dev := wBly ({} : Dev);
     let d : Dev := { d with belay := { d.belay with unacked := [f] } }; let s : State := { dev := d };
     s.live = true ∧ s.dev.blyUp = true ∧ f ∈ s.dev.belay.unacked ∧ 8 ≤ f.replays) ∧
    (let s : State := {};
     s.live = true ∧ s.dev.blyUp = false) ∧
    (let h : BHdr := { seq := 1, ack := 0 }; let d : Dev := wBly ({} : Dev); let s : State := { dev := d };
     s.live = true ∧ s.dev.bNext h = true ∧ (∀ f ∈ s.dev.belay.unacked, f.replays < 8)) ∧
    (let d : Dev := wOn ({} : Dev) 0x19 0; let d : Dev := d.fset Reg.BLY_CMD.BUSY 0; let s : State := { dev := d };
     s.live = true ∧ s.dev.on 0x19 = true ∧ s.dev.fget Reg.BLY_CMD.BUSY = 0 ∧ s.dev.bly ≠ 6) ∧
    (let s : State := {};
     s.live = true ∧ (s.dev.fget Reg.BLY_CMD.BUSY = 1 ∨ s.dev.on 0x19 = false)) := by
  refine ⟨?_, ?_, ?_, ?_, ?_, ?_, ?_, ?_, ?_, ?_, ?_, ?_, ?_, ?_, ?_, ?_, ?_, ?_, ?_, ?_, ?_, ?_, ?_, ?_, ?_, ?_, ?_, ?_, ?_, ?_, ?_, ?_, ?_, ?_, ?_, ?_, ?_, ?_, ?_, ?_, ?_⟩
  · exact ⟨by decide +kernel, by decide +kernel, ⟨[], .want 0 0 0, 0, 0, false, by simp⟩, by decide +kernel⟩
  · exact ⟨by decide +kernel, by decide +kernel, ⟨[], .want 0 0 0, 0, 0, false, by simp⟩, by decide +kernel, by decide +kernel, by decide +kernel⟩
  · exact ⟨by decide +kernel, by decide +kernel, ⟨[], .want 0 0 0, 0, 0, false, by simp⟩⟩
  · decide +kernel
  · decide +kernel
  · decide +kernel
  · decide +kernel
  · decide +kernel
  · decide +kernel
  · decide +kernel
  · decide +kernel
  · decide +kernel
  · decide +kernel
  · decide +kernel
  · decide +kernel
  · decide +kernel
  · decide +kernel
  · decide +kernel
  · decide +kernel
  · decide +kernel
  · decide +kernel
  · decide +kernel
  · decide +kernel
  · decide +kernel
  · decide +kernel
  · decide +kernel
  · decide +kernel
  · decide +kernel
  · decide +kernel
  · decide +kernel
  · decide +kernel
  · decide +kernel
  · decide +kernel
  · decide +kernel
  · decide +kernel
  · decide +kernel
  · decide +kernel
  · decide +kernel
  · decide +kernel
  · decide +kernel
  · decide +kernel

theorem witness_Mirroring :
    (let h : BHdr := { seq := 1, ack := 0 }; let p : List Byte := List.replicate 12 0 ++ [1, 0, 0, 0];
     let d : Dev := wBly ({} : Dev); let d : Dev := wOn d 0x14 0; let d : Dev := wOn d 0x19 0;
     let d : Dev := d.fset Reg.BLY_STATUS.STATE 4; let s : State := { dev := d };
     s.live = true ∧ s.dev.bNext h = true ∧ s.dev.on 0x14 = true ∧ s.dev.on 0x19 = true ∧ s.dev.quiet = false ∧
     (s.dev.bly = 2 ∨ s.dev.bly = 4 ∨ s.dev.bly = 5) ∧ s.dev.belay.rxPart = none ∧ leNat ((p.drop 8).take 4) = 0 ∧
     p.length - 16 < leNat ((p.drop 12).take 4)) ∧
    (let h : BHdr := { seq := 1, ack := 0 }; let p : List Byte := List.replicate 6 0 ++ [3] ++ List.replicate 9 0;
     let d : Dev := wBly ({} : Dev); let d : Dev := wOn d 0x14 0; let d : Dev := wOn d 0x19 0;
     let d : Dev := d.fset Reg.BLY_STATUS.STATE 2; let s : State := { dev := d };
     s.live = true ∧ s.dev.bNext h = true ∧ s.dev.on 0x14 = true ∧ s.dev.on 0x19 = true ∧ s.dev.quiet = false ∧
     s.dev.bly = 2 ∧ s.dev.belay.rxPart = none ∧ s.dev.belay.rxSects = [] ∧ s.dev.belay.handback = false ∧
     p.length = 16 ∧ leNat ((p.drop 8).take 8) = 0 ∧ leNat ((p.drop 6).take 1) = 3 ∧
     s.dev.fget Reg.MAP_STAGE.MIRROR ≤ s.dev.mirrorBudget) ∧
    (let h : BHdr := { seq := 1, ack := 0 };
     let p : List Byte := List.replicate 6 0 ++ [1] ++ List.replicate 5 0 ++ [0x60, 0x10, 0, 0] ++ [1, 0, 0, 0, 1] ++ List.replicate 4187 0;
     let x : RxItem := ({ kind := 1, flags := 0, count := 1, ctx := 0, cmdref := 0, nsh := 0, slba := 0, tail := 0, body := List.replicate 4160 0 } : RxItem);
     let c := 0; let sec := 1; let d : Dev := wBly ({} : Dev); let d : Dev := wOn d 0x14 0;
     let d : Dev := wOn d 0x19 0; let d : Dev := d.fset Reg.BLY_STATUS.STATE 2;
     let d : Dev := d.fset Reg.MAP_MIRROR.PCT 50; let s : State := { dev := d };
     s.live = true ∧ s.dev.bNext h = true ∧ s.dev.on 0x14 = true ∧ s.dev.on 0x19 = true ∧ s.dev.quiet = false ∧
     s.dev.bly = 2 ∧ s.dev.belay.rxPart = none ∧ s.dev.belay.rxSects = [] ∧ s.dev.belay.handback = false ∧
     leNat ((p.drop 8).take 4) = 0 ∧ leNat ((p.drop 12).take 4) = p.length - 16 ∧ c = leNat ((p.drop 0).take 6) ∧
     sec = leNat ((p.drop 6).take 1) ∧ sec ≠ 0 ∧ readItems (p.length - 16) (p.drop 16) = [x] ∧ x.kind = 1 ∧
     x.flags % 2 = 0 ∧ x.count = 1 ∧ s.dev.fget Reg.MAP_STAGE.MIRROR + 1 ≤ s.dev.mirrorBudget) ∧
    (let h : BHdr := { seq := 1, ack := 0 };
     let p : List Byte := List.replicate 6 0 ++ [2] ++ List.replicate 5 0 ++ [32, 0, 0, 0] ++ [2, 0, 0, 0, 1] ++ List.replicate 27 0;
     let x : RxItem := ({ kind := 2, flags := 0, count := 1, ctx := 0, cmdref := 0, nsh := 0, slba := 0, tail := 0, body := [] } : RxItem);
     let c := 0; let sec := 2; let d : Dev := wBly ({} : Dev); let d : Dev := wOn d 0x14 0;
     let d : Dev := wOn d 0x19 0; let d : Dev := d.fset Reg.BLY_STATUS.STATE 2; let s : State := { dev := d };
     s.live = true ∧ s.dev.bNext h = true ∧ s.dev.on 0x14 = true ∧ s.dev.on 0x19 = true ∧ s.dev.quiet = false ∧
     s.dev.bly = 2 ∧ s.dev.belay.rxPart = none ∧ s.dev.belay.rxSects = [] ∧ s.dev.belay.handback = false ∧
     leNat ((p.drop 8).take 4) = 0 ∧ leNat ((p.drop 12).take 4) = p.length - 16 ∧ c = leNat ((p.drop 0).take 6) ∧
     sec = leNat ((p.drop 6).take 1) ∧ sec ≠ 0 ∧ readItems (p.length - 16) (p.drop 16) = [x] ∧ x.kind = 2 ∧
     s.dev.fget Reg.MAP_STAGE.MIRROR ≤ s.dev.mirrorBudget) ∧
    (let h : BHdr := { seq := 1, ack := 0 };
     let p : List Byte := List.replicate 12 0 ++ [64, 0, 0, 0] ++ List.replicate 32 0 ++ [3] ++ List.replicate 31 0;
     let x : RxItem := ({ kind := 3, flags := 0, count := 0, ctx := 0, cmdref := 0, nsh := 0, slba := 0, tail := 0, body := [] } : RxItem);
     let d : Dev := wBly ({} : Dev); let d : Dev := wOn d 0x14 0; let d : Dev := wOn d 0x19 0;
     let d : Dev := d.fset Reg.BLY_STATUS.STATE 2; let s : State := { dev := d };
     s.live = true ∧ s.dev.bNext h = true ∧ s.dev.on 0x14 = true ∧ s.dev.on 0x19 = true ∧ s.dev.quiet = false ∧
     s.dev.bly = 2 ∧ s.dev.belay.rxPart = none ∧ s.dev.belay.rxSects = [] ∧ s.dev.belay.handback = false ∧
     leNat ((p.drop 8).take 4) = 0 ∧ leNat ((p.drop 12).take 4) = p.length - 16 ∧ leNat ((p.drop 6).take 1) = 0 ∧
     readItems (p.length - 48) (p.drop 48) = [x] ∧ x.kind = 3 ∧ s.dev.fget Reg.MAP_STAGE.MIRROR ≤ s.dev.mirrorBudget) ∧
    (let h : BHdr := { seq := 1, ack := 0 }; let d : Dev := wBly ({} : Dev); let s : State := { dev := d };
     s.live = true ∧ s.dev.bNext h = true ∧
     (s.dev.on 0x14 = false ∨ s.dev.on 0x19 = false ∨ s.dev.quiet = true ∨ (s.dev.bly ≠ 2 ∧ s.dev.bly ≠ 4 ∧ s.dev.bly ≠ 5))) ∧
    (let h : BHdr := { seq := 1, ack := 0 }; let p : List Byte := List.replicate 8 0 ++ [1] ++ List.replicate 7 0;
     let d : Dev := wBly ({} : Dev); let s : State := { dev := d };
     s.live = true ∧ s.dev.bNext h = true ∧ s.dev.belay.rxPart = none ∧ leNat ((p.drop 8).take 4) ≠ 0) ∧
    (let h : BHdr := { seq := 1, ack := 0 }; let p : List Byte := List.replicate 8 0 ++ [1] ++ List.replicate 7 0;
     let x : Section := { cycle := 0, sec := 0, bytes := [] }; let d : Dev := wBly ({} : Dev);
     let d : Dev := { d with belay := { d.belay with rxPart := some x } }; let s : State := { dev := d };
     s.live = true ∧ s.dev.bNext h = true ∧ s.dev.belay.rxPart = some x ∧ leNat ((p.drop 8).take 4) ≠ x.bytes.length) ∧
    (let h : BHdr := { seq := 1, ack := 0 }; let o : OutBundle := { cycle := 0, ended := 0 };
     let d : Dev := wBly ({} : Dev); let d : Dev := { d with belay := { d.belay with out := [o] } };
     let d : Dev := d.fset Reg.ROPE_PAIR.PAIRED 1; let s : State := { dev := d };
     s.live = true ∧ s.dev.bNext h = true ∧ s.dev.belay.out = [o] ∧ s.dev.fget Reg.ROPE_PAIR.PAIRED = 1 ∧
     s.dev.belay.takeover = .none ∧ s.dev.hostq.tags = [] ∧ o.cycle < 2 ^ 48) ∧
    (let h : BHdr := { seq := 1, ack := 0 }; let o : OutBundle := { cycle := 0, ended := 0 };
     let d : Dev := wBly ({} : Dev); let d : Dev := { d with belay := { d.belay with out := [o] } };
     let d : Dev := d.fset Reg.ROPE_PAIR.PAIRED 1; let s : State := { dev := d };
     s.live = true ∧ s.dev.bNext h = true ∧ s.dev.belay.out = [o] ∧ s.dev.fget Reg.ROPE_PAIR.PAIRED = 1 ∧
     s.dev.belay.takeover = .none ∧ s.dev.hostq.tags = []) ∧
    (let h : BHdr := { seq := 1, ack := 0 }; let o : OutBundle := { cycle := 0, ended := 0 };
     let d : Dev := wBly ({} : Dev); let d : Dev := { d with belay := { d.belay with out := [o] } };
     let d : Dev := { d with belay := { d.belay with takeover := .claiming } }; let s : State := { dev := d };
     s.live = true ∧ s.dev.bNext h = true ∧ s.dev.belay.out = [o] ∧ s.dev.claimsPending = true) ∧
    (let h : BHdr := { seq := 1, ack := 0 }; let c := 0; let d : Dev := wBly ({} : Dev);
     let s : State := { dev := d };
     s.live = true ∧ s.dev.bNext h = true ∧ (∀ o ∈ s.dev.belay.out, o.cycle ≠ c)) ∧
    (let h : BHdr := { seq := 1, ack := 0 };
     let p : List Byte := List.replicate 8 0 ++ [3, 0, 64, 0] ++ List.replicate 60 0;
     let t : TRec := readTRec (List.replicate 0 0 ++ [3, 0, 64, 0] ++ List.replicate 60 0);
     let d : Dev := wBly ({} : Dev); let d : Dev := wOn d 0x19 0; let s : State := { dev := d };
     s.live = true ∧ s.dev.bNext h = true ∧ s.dev.on 0x19 = true ∧ readTRecs p.length (p.drop 8) = [t] ∧ t.kind = 3) ∧
    (let h : BHdr := { seq := 1, ack := 0 };
     let p : List Byte := List.replicate 8 0 ++ [1, 0, 64, 0] ++ List.replicate 60 0;
     let t : TRec := readTRec (List.replicate 0 0 ++ [1, 0, 64, 0] ++ List.replicate 60 0); let n := 0;
     let d : Dev := wBly ({} : Dev); let d : Dev := wOn d 0x19 0; let d : Dev := d.fset Reg.XPT_CTX.MAX 1;
     let s : State := { dev := d };
     s.live = true ∧ s.dev.bNext h = true ∧ s.dev.on 0x19 = true ∧ readTRecs p.length (p.drop 8) = [t] ∧ t.kind = 1 ∧
     s.dev.freeCtxNo 0x0C = some n) ∧
    (let h : BHdr := { seq := 1, ack := 0 };
     let p : List Byte := List.replicate 8 0 ++ [2, 0, 64, 0] ++ List.replicate 60 0;
     let t : TRec := readTRec (List.replicate 0 0 ++ [2, 0, 64, 0] ++ List.replicate 60 0);
     let d : Dev := wBly ({} : Dev); let d : Dev := wOn d 0x19 0; let s : State := { dev := d };
     s.live = true ∧ s.dev.bNext h = true ∧ s.dev.on 0x19 = true ∧ readTRecs p.length (p.drop 8) = [t] ∧ t.kind = 2) ∧
    (let h : BHdr := { seq := 1, ack := 0 };
     let p : List Byte := List.replicate 8 0 ++ [5, 0, 64, 0] ++ List.replicate 60 0;
     let t : TRec := readTRec (List.replicate 0 0 ++ [5, 0, 64, 0] ++ List.replicate 60 0);
     let d : Dev := wBly ({} : Dev); let d : Dev := wOn d 0x19 0; let s : State := { dev := d };
     s.live = true ∧ s.dev.bNext h = true ∧ s.dev.on 0x19 = true ∧ readTRecs p.length (p.drop 8) = [t] ∧ t.kind = 5) ∧
    (let h : BHdr := { seq := 1, ack := 0 }; let p : List Byte := []; let d : Dev := wBly ({} : Dev);
     let s : State := { dev := d };
     s.live = true ∧ s.dev.bNext h = true ∧ (s.dev.on 0x19 = false ∨ readTRecs p.length (p.drop 8) = [])) ∧
    (let h : BHdr := { seq := 1, ack := 0 }; let t : TRec := { kind := 5, ctx := 0, psn := 0 };
     let d : Dev := wBly ({} : Dev); let d : Dev := { d with trans := { d.trans with recs := [t] } };
     let d : Dev := { d with belay := { d.belay with trecSent := 1 } }; let s : State := { dev := d };
     s.live = true ∧ s.dev.bNext h = true ∧ s.dev.trans.recs = [t] ∧ t.kind = 5 ∧ s.dev.belay.trecSent = 1) ∧
    (let h : BHdr := { seq := 1, ack := 0 }; let number := 0; let d : Dev := wBly ({} : Dev);
     let d : Dev := { d with belay := { d.belay with trecBase := 1 } }; let s : State := { dev := d };
     s.live = true ∧ s.dev.bNext h = true ∧ number < s.dev.belay.trecBase) ∧
    (let h : BHdr := { seq := 1, ack := 0 }; let qid := 1; let sqe : List Word := []; let d : Dev := wBly ({} : Dev);
     let d : Dev := wOn d 0x19 0; let d : Dev := wOn d 0x10 0; let s : State := { dev := d };
     s.live = true ∧ s.dev.bNext h = true ∧ s.dev.on 0x19 = true ∧ s.dev.on 0x10 = true ∧ qid ≠ 0 ∧
     ioOpcodes.contains (sqeOpcode sqe) = true ∧ s.dev.pitch.queue.length < 8192 ∧ s.dev.pitch.held = []) ∧
    (let h : BHdr := { seq := 1, ack := 0 }; let d : Dev := wBly ({} : Dev); let s : State := { dev := d };
     s.live = true ∧ s.dev.bNext h = true ∧ s.dev.on 0x19 = false) ∧
    (let h : BHdr := { seq := 1, ack := 0 }; let key := 0; let d : Dev := wBly ({} : Dev);
     let s : State := { dev := d };
     s.live = true ∧ s.dev.bNext h = true ∧ s.dev.tag key = none) ∧
    (let h : BHdr := { seq := 1, ack := 0 }; let key := 0;
     let t : Tag := { ctx := 0, qid := 0, cid := 0, ctrl := 0, tenant := 0, sqe := [] }; let c : Ctx := {};
     let d : Dev := wBly ({} : Dev); let d : Dev := wOn d 0x19 0;
     let d : Dev := { d with hostq := { d.hostq with tags := Tab.put d.hostq.tags key t } };
     let d : Dev := wCtx d 0x0C t.ctx c; let s : State := { dev := d };
     s.live = true ∧ s.dev.bNext h = true ∧ s.dev.on 0x19 = true ∧ s.dev.tag key = some t ∧
     s.dev.ctx 0x0C t.ctx = some c) ∧
    (let h : BHdr := { seq := 1, ack := 0 }; let key := 0; let off := 0; let result := 1;
     let f : FwdXfer := { key := 2 ^ 18 * 65536 + key, x := { write := false, handle := 0, token := 0, off := 0, len := 0, tenant := 0, nsh := 0, cmdref := 0, runToken := 0, gen := 0 } };
     let d : Dev := wBly ({} : Dev); let d : Dev := wOn d 0x19 0;
     let d : Dev := { d with belay := { d.belay with fwdXfers := [f] } }; let s : State := { dev := d };
     s.live = true ∧ s.dev.bNext h = true ∧ s.dev.on 0x19 = true ∧ s.dev.belay.fwdXfers = [f] ∧
     f.key = 2 ^ 18 * 65536 + key ∧ f.x.off = off ∧ f.x.write = false ∧ f.x.relay = false ∧ result ≠ 0 ∧
     s.dev.pitch.queue.length < 8192 ∧ s.dev.pitch.held = []) ∧
    (let h : BHdr := { seq := 1, ack := 0 }; let key := 0; let off := 0; let d : Dev := wBly ({} : Dev);
     let s : State := { dev := d };
     s.live = true ∧ s.dev.bNext h = true ∧ (∀ f ∈ s.dev.belay.fwdXfers, f.key ≠ 2 ^ 18 * 65536 + key ∨ f.x.off ≠ off)) ∧
    (let h : BHdr := { seq := 1, ack := 0 }; let key := 0;
     let t : Tag := { ctx := 0, qid := 1, cid := 0, ctrl := 0, tenant := 0, sqe := [], far := false, remote := none, abortBy := none };
     let q : Queue := { ctrl := 0, qid := 0, sqsize := 0, fabric := .rdma }; let d : Dev := wBly ({} : Dev);
     let d : Dev := wOn d 0x19 0;
     let d : Dev := { d with hostq := { d.hostq with tags := Tab.put d.hostq.tags key t } };
     let d : Dev := { d with hostq := { d.hostq with queues := Tab.put d.hostq.queues t.ctx q } };
     let s : State := { dev := d };
     s.live = true ∧ s.dev.bNext h = true ∧ s.dev.on 0x19 = true ∧ s.dev.tag key = some t ∧ t.far = false ∧
     t.state ≠ .completed ∧ t.qid ≠ 0 ∧ t.remote = none ∧ t.abortBy = none ∧ s.dev.queue t.ctx = some q) ∧
    (let h : BHdr := { seq := 1, ack := 0 }; let key := 0; let d : Dev := wBly ({} : Dev);
     let s : State := { dev := d };
     s.live = true ∧ s.dev.bNext h = true ∧ s.dev.tag key = none) ∧
    (let h : BHdr := { seq := 1, ack := 0 }; let key := 0; let sub := 0;
     let t : Tag := { ctx := 0, qid := 0, cid := 0, ctrl := 0, tenant := 0, sqe := [], state := .queued, remote := some sub };
     let d : Dev := wBly ({} : Dev); let d : Dev := wOn d 0x19 0;
     let d : Dev := { d with hostq := { d.hostq with tags := Tab.put d.hostq.tags (2 ^ 18 * 65536 + key) t } };
     let s : State := { dev := d };
     s.live = true ∧ s.dev.bNext h = true ∧ s.dev.on 0x19 = true ∧ s.dev.tag (2 ^ 18 * 65536 + key) = some t ∧
     t.state = .queued ∧ t.remote = some sub) ∧
    (let h : BHdr := { seq := 1, ack := 0 }; let key := 0; let d : Dev := wBly ({} : Dev);
     let s : State := { dev := d };
     s.live = true ∧ s.dev.bNext h = true ∧ s.dev.tag (2 ^ 18 * 65536 + key) = none) ∧
    (let h : BHdr := { seq := 1, ack := 0 }; let action := 4; let d : Dev := wBly ({} : Dev);
     let d : Dev := wOn d 0x19 0; let s : State := { dev := d };
     s.live = true ∧ s.dev.bNext h = true ∧ s.dev.on 0x19 = true ∧ (action = 2 ∨ action = 4)) := by
  refine ⟨?_, ?_, ?_, ?_, ?_, ?_, ?_, ?_, ?_, ?_, ?_, ?_, ?_, ?_, ?_, ?_, ?_, ?_, ?_, ?_, ?_, ?_, ?_, ?_, ?_, ?_, ?_, ?_, ?_, ?_⟩ <;> decide +kernel

theorem witness_Takeovers :
    (let d : Dev := wOn ({} : Dev) 0x19 0; let d : Dev := d.fset Reg.BLY_STATUS.STATE 2;
     let s : State := { dev := d };
     s.live = true ∧ s.dev.on 0x19 = true ∧ (s.dev.bly = 2 ∨ (s.dev.bly = 5 ∧ s.dev.belay.releasing = true)) ∧
     s.dev.belay.handover = false ∧ s.dev.silent s.dev.belay.lastLink = true ∧
     s.dev.silent s.dev.belay.lastPins = true ∧ s.dev.nextEpoch < 2 ^ 31) ∧
    (let d : Dev := wOn ({} : Dev) 0x19 0; let d : Dev := { d with belay := { d.belay with handover := true } };
     let d : Dev := d.fset Reg.BLY_STATUS.STATE 5; let s : State := { dev := d };
     s.live = true ∧ s.dev.on 0x19 = true ∧ (s.dev.bly = 2 ∨ s.dev.bly = 5) ∧ s.dev.belay.handover = true ∧
     s.dev.silent s.dev.belay.lastLink = true ∧ s.dev.silent s.dev.belay.lastPins = true) ∧
    (let d : Dev := wOn ({} : Dev) 0x19 0; let d : Dev := d.fset Reg.BLY_STATUS.STATE 5;
     let s : State := { dev := d };
     s.live = true ∧ s.dev.on 0x19 = true ∧ s.dev.bly = 5 ∧ s.dev.belay.handover = false ∧
     s.dev.belay.releasing = false ∧ s.dev.silent s.dev.belay.lastLink = true ∧
     s.dev.silent s.dev.belay.lastPins = true) ∧
    (let d : Dev := wOn ({} : Dev) 0x19 0; let d : Dev := d.fset Reg.BLY_STATUS.STATE 4;
     let s : State := { dev := d };
     s.live = true ∧ s.dev.on 0x19 = true ∧ s.dev.bly = 4 ∧ s.dev.belay.handback = false ∧
     s.dev.silent s.dev.belay.lastLink = true ∧ s.dev.silent s.dev.belay.lastPins = true) ∧
    (let d : Dev := wOn ({} : Dev) 0x19 0; let d : Dev := d.fset Reg.BLY_STATUS.STATE 4;
     let d : Dev := { d with belay := { d.belay with handback := true } }; let s : State := { dev := d };
     s.live = true ∧ s.dev.on 0x19 = true ∧ s.dev.bly = 4 ∧ s.dev.belay.handback = true ∧
     s.dev.silent s.dev.belay.lastLink = true ∧ s.dev.silent s.dev.belay.lastPins = true) ∧
    (let s : State := {};
     s.live = true ∧
     (s.dev.silent s.dev.belay.lastLink = false ∨ s.dev.silent s.dev.belay.lastPins = false ∨ s.dev.on 0x19 = false ∨ (s.dev.bly ≠ 2 ∧ s.dev.bly ≠ 4 ∧ s.dev.bly ≠ 5))) ∧
    (let d : Dev := {}; let d : Dev := { d with belay := { d.belay with takeover := .claiming } };
     let s : State := { dev := d };
     s.live = true ∧ s.dev.belay.takeover = .claiming ∧ s.dev.claimX = none ∧ s.dev.media.claimRejected = false) ∧
    (let d : Dev := wOn ({} : Dev) 0x19 0; let d : Dev := { d with belay := { d.belay with takeover := .claiming } };
     let d : Dev := { d with media := { d.media with claimRejected := true } }; let s : State := { dev := d };
     s.live = true ∧ s.dev.on 0x19 = true ∧ s.dev.belay.takeover = .claiming ∧ s.dev.claimX = none ∧
     s.dev.media.claimRejected = true ∧ s.dev.bly ≠ 6) ∧
    (let s : State := {};
     s.live = true ∧ (s.dev.belay.takeover ≠ .claiming ∨ s.dev.claimX.isSome = true)) ∧
    (let d : Dev := {}; let d : Dev := { d with belay := { d.belay with takeover := .claimingOwn } };
     let s : State := { dev := d };
     s.live = true ∧ s.dev.belay.takeover = .claimingOwn ∧ s.dev.claimX = none ∧ s.dev.media.claimRejected = false ∧
     s.dev.media.claimLost = false) ∧
    (let d : Dev := wOn ({} : Dev) 0x19 0;
     let d : Dev := { d with belay := { d.belay with takeover := .claimingOwn } };
     let d : Dev := { d with media := { d.media with claimRejected := true } }; let s : State := { dev := d };
     s.live = true ∧ s.dev.on 0x19 = true ∧ s.dev.belay.takeover = .claimingOwn ∧ s.dev.claimX = none ∧
     (s.dev.media.claimRejected = true ∨ s.dev.media.claimLost = true) ∧ s.dev.bly ≠ 6) ∧
    (let s : State := {};
     s.live = true ∧ (s.dev.belay.takeover ≠ .claimingOwn ∨ s.dev.claimX.isSome = true)) ∧
    (let d : Dev := {}; let d : Dev := { d with belay := { d.belay with takeover := .released } };
     let s : State := { dev := d };
     s.live = true ∧ s.dev.belay.takeover = .released ∧ s.dev.belay.ropeHigh < 2 ^ 63) ∧
    (let s : State := {};
     s.live = true ∧ s.dev.belay.takeover ≠ .released) ∧
    (let d : Dev := {}; let d : Dev := { d with belay := { d.belay with takeover := .loaded } };
     let s : State := { dev := d };
     s.live = true ∧ s.dev.belay.takeover = .loaded) ∧
    (let k := 0;
     let t : Tag := { ctx := 0, qid := 0, cid := 0, ctrl := 0, tenant := 0, sqe := [], remote := none, far := false, forwarded := true, abortBy := none };
     let d : Dev := {}; let d : Dev := { d with belay := { d.belay with takeover := .loaded } };
     let d : Dev := { d with hostq := { d.hostq with tags := [(k, t)] } };
     let d : Dev := { d with hostq := { d.hostq with queues := [(t.ctx, { ctrl := 0, qid := 1, sqsize := 1, fabric := .rdma })] } };
     let s : State := { dev := d };
     s.live = true ∧ s.dev.belay.takeover = .loaded ∧ s.dev.belay.pctx = [] ∧ s.dev.hostq.tags = [(k, t)] ∧
     t.remote = none ∧ t.far = false ∧ t.forwarded = true ∧ t.state ≠ .completed ∧ t.abortBy = none ∧
     (s.dev.queue t.ctx).isSome = true ∧ (s.dev.ctrl t.ctrl).any (·.resetting) = false ∧
     s.dev.pitch.queue.length < 8191 ∧ s.dev.pitch.held = []) ∧
    (let s : State := {};
     s.live = true ∧ s.dev.belay.takeover ≠ .loaded) ∧
    (let h : BHdr := { seq := 1, ack := 0 }; let d : Dev := wBly ({} : Dev);
     let d : Dev := d.fset Reg.BLY_STATUS.STATE 3; let s : State := { dev := d };
     s.live = true ∧ s.dev.bNext h = true ∧ s.dev.bly = 3 ∧ s.dev.belay.takeover = .none) ∧
    (let h : BHdr := { seq := 1, ack := 0 }; let d : Dev := wBly ({} : Dev); let s : State := { dev := d };
     s.live = true ∧ s.dev.bNext h = true ∧ (s.dev.bly ≠ 3 ∨ s.dev.belay.takeover ≠ .none)) ∧
    (let h : BHdr := { seq := 1, ack := 0 }; let d : Dev := wBly ({} : Dev);
     let d : Dev := d.fset Reg.BLY_STATUS.STATE 4; let s : State := { dev := d };
     s.live = true ∧ s.dev.bNext h = true ∧ s.dev.bly = 4) ∧
    (let h : BHdr := { seq := 1, ack := 0 }; let d : Dev := wBly ({} : Dev); let s : State := { dev := d };
     s.live = true ∧ s.dev.bNext h = true ∧ s.dev.bly ≠ 4) ∧
    (let d : Dev := ({} : Dev).fset Reg.BLY_STATUS.STATE 5; let s : State := { dev := d };
     s.live = true ∧ s.dev.bly = 5 ∧ s.dev.belay.releasing = false ∧ s.dev.movedDrained = true ∧
     s.dev.belay.handover = false) ∧
    (let d : Dev := ({} : Dev).fset Reg.BLY_STATUS.STATE 5;
     let d : Dev := { d with belay := { d.belay with handover := true } }; let s : State := { dev := d };
     s.live = true ∧ s.dev.bly = 5 ∧ s.dev.belay.releasing = false ∧ s.dev.movedDrained = true ∧
     s.dev.belay.handover = true) ∧
    (let s : State := {};
     s.live = true ∧ (s.dev.bly ≠ 5 ∨ s.dev.belay.releasing = true ∨ s.dev.movedDrained = false)) ∧
    (let d : Dev := ({} : Dev).fset Reg.BLY_STATUS.STATE 4;
     let d : Dev := { d with belay := { d.belay with handback := true } };
     let d : Dev := d.fset Reg.MAP_RECOVER.STATE 2; let d : Dev := d.fset Reg.ROPE_PAIR.PAIRED 1;
     let d : Dev := wOn d 0x12 0; let d : Dev := wOn d 0x11 0; let d : Dev := wOn d 0x10 0;
     let s : State := { dev := d };
     s.live = true ∧ s.dev.bly = 4 ∧ s.dev.belay.handback = true ∧ s.dev.fget Reg.MAP_RECOVER.STATE = 2 ∧
     s.dev.fget Reg.ROPE_PAIR.PAIRED = 1 ∧ s.dev.on 0x12 = true ∧ s.dev.on 0x11 = true ∧ s.dev.on 0x10 = true) ∧
    (let h : BHdr := { seq := 1, ack := 0 }; let d : Dev := wBly ({} : Dev);
     let d : Dev := d.fset Reg.BLY_STATUS.STATE 5;
     let d : Dev := { d with belay := { d.belay with releasing := true } }; let s : State := { dev := d };
     s.live = true ∧ s.dev.bNext h = true ∧ s.dev.bly = 5 ∧ s.dev.belay.releasing = true) ∧
    (let s : State := {};
     s.live = true ∧
     (s.dev.bly ≠ 4 ∨ s.dev.belay.handback = false ∨ s.dev.fget Reg.MAP_RECOVER.STATE ≠ 2 ∨ s.dev.fget Reg.ROPE_PAIR.PAIRED = 0 ∨ s.dev.on 0x12 = false ∨ s.dev.on 0x11 = false ∨ s.dev.on 0x10 = false)) ∧
    (let h : BHdr := { seq := 1, ack := 0 }; let d : Dev := wBly ({} : Dev); let s : State := { dev := d };
     s.live = true ∧ s.dev.bNext h = true ∧ (s.dev.bly ≠ 5 ∨ s.dev.belay.releasing = false)) ∧
    (let d : Dev := wOn ({} : Dev) 0x19 0; let d : Dev := d.fset Reg.BLY_CMD.BUSY 0;
     let d : Dev := d.fset Reg.BLY_STATUS.STATE 2; let s : State := { dev := d };
     s.live = true ∧ s.dev.on 0x19 = true ∧ s.dev.fget Reg.BLY_CMD.BUSY = 0 ∧ s.dev.bly = 2) ∧
    (let d : Dev := ({} : Dev).fset Reg.BLY_CMD.BUSY 0; let s : State := { dev := d };
     s.live = true ∧ s.dev.fget Reg.BLY_CMD.BUSY = 0 ∧ (s.dev.bly ≠ 2 ∨ s.dev.on 0x19 = false)) ∧
    (let d : Dev := ({} : Dev).fset Reg.BLY_CMD.BUSY 1; let s : State := { dev := d };
     s.live = true ∧ s.dev.fget Reg.BLY_CMD.BUSY = 1) ∧
    (let h : BHdr := { seq := 1, ack := 0 }; let d : Dev := wBly ({} : Dev);
     let d : Dev := d.fset Reg.BLY_STATUS.STATE 2; let s : State := { dev := d };
     s.live = true ∧ s.dev.bNext h = true ∧ s.dev.bly = 2) ∧
    (let h : BHdr := { seq := 1, ack := 0 }; let d : Dev := wBly ({} : Dev); let s : State := { dev := d };
     s.live = true ∧ s.dev.bNext h = true ∧ s.dev.bly ≠ 2) := by
  refine ⟨?_, ?_, ?_, ?_, ?_, ?_, ?_, ?_, ?_, ?_, ?_, ?_, ?_, ?_, ?_, ?_, ?_, ?_, ?_, ?_, ?_, ?_, ?_, ?_, ?_, ?_, ?_, ?_, ?_, ?_, ?_, ?_, ?_⟩ <;> decide +kernel

theorem witness_IdleStep :
    (let s : State := {};
     s.pending = [] ∧ s.live = true) ∧
    (let s : State := { hard := { resetN := false } };
     s.pending = [] ∧ s.live = false) := by
  refine ⟨?_, ?_⟩ <;> decide +kernel

theorem witness_PinsAndFusesKept :
    (let c : Instr := .blockEnable 0 0;
     touchesHard c = false) := by
  decide +kernel

theorem witness_NothingWhileHeld :
    (let c : Instr := .blockEnable 0 0; let s : State := { hard := { resetN := false } };
     s.live = false ∧ touchesHard c = false ∧ (∀ a b, c ≠ .jtagExtest a b) ∧ (∀ a b, c ≠ .jtagSamplePreload a b) ∧
     (∀ a, c ≠ .jtagBypass a)) := by
  exact ⟨by decide +kernel, by decide +kernel, nofun, nofun, nofun⟩

theorem witness_FusesNeverClear :
    (let f : WTab := []; let i : Nat := 8; let s : State := {};
     8 ≤ i ∧ fuseKept f s.hard.fuseA i ∧ fuseKept f s.hard.fuseB i) := by
  exact ⟨by decide +kernel, fun k h => by simp [WTab.get, Tab.look] at h, fun k h => by simp [WTab.get, Tab.look] at h⟩

theorem witness_RangeLocks :
    (let i : Nat := 0;
     let l : Lock := { rope := 0, slba := 0, nblk := 0, nsh := 0, kind := .read, granted := false, tenant := 0, depth := 0, ctx := 0, cmdref := 0 };
     let d : Dev := {}; let d : Dev := { d with rope := { d.rope with locks := Tab.put d.rope.locks i l } };
     let s : State := { dev := d };
     s.live = true ∧ Tab.look s.dev.rope.locks i = some l ∧ l.granted = false ∧
     (l.kind = .read ∨ l.kind = .write ∨ l.kind = .dealloc) ∧
     (∀ p ∈ s.dev.rope.locks, p.2.nsh = l.nsh → p.2.rope < l.rope → p.2.kind = .flush ∨ (p.2.kind ≠ .nswide ∧ (p.2.slba + p.2.nblk ≤ l.slba ∨ l.slba + l.nblk ≤ p.2.slba)))) ∧
    (let i : Nat := 0;
     let l : Lock := { rope := 1, slba := 0, nblk := 1, nsh := 0, kind := .read, granted := false, tenant := 0, depth := 0, ctx := 0, cmdref := 0 };
     let p : Nat × Lock := (7, ({ rope := 0, slba := 0, nblk := 1, nsh := 0, kind := .write, granted := false, tenant := 0, depth := 0, ctx := 0, cmdref := 0 } : Lock));
     let d : Dev := {}; let d : Dev := { d with rope := { d.rope with locks := Tab.put d.rope.locks i l } };
     let d : Dev := { d with rope := { d.rope with locks := [(0, l), p] } }; let s : State := { dev := d };
     s.live = true ∧ Tab.look s.dev.rope.locks i = some l ∧ l.granted = false ∧
     (l.kind = .read ∨ l.kind = .write ∨ l.kind = .dealloc) ∧ p ∈ s.dev.rope.locks ∧ p.2.nsh = l.nsh ∧
     p.2.rope < l.rope ∧
     (p.2.kind = .nswide ∨ ((p.2.kind = .read ∨ p.2.kind = .write ∨ p.2.kind = .dealloc) ∧ p.2.slba < l.slba + l.nblk ∧ l.slba < p.2.slba + p.2.nblk))) ∧
    (let i : Nat := 0;
     let l : Lock := { rope := 0, slba := 0, nblk := 0, nsh := 0, kind := .flush, granted := false, tenant := 0, depth := 0, ctx := 0, cmdref := 0 };
     let d : Dev := {}; let d : Dev := { d with rope := { d.rope with locks := Tab.put d.rope.locks i l } };
     let s : State := { dev := d };
     s.live = true ∧ Tab.look s.dev.rope.locks i = some l ∧ l.granted = false ∧ l.kind = .flush ∧
     (∀ p ∈ s.dev.rope.locks, p.2.nsh = l.nsh → p.2.rope < l.rope → p.2.kind = .read ∨ p.2.kind = .flush)) ∧
    (let i : Nat := 0;
     let l : Lock := { rope := 1, slba := 0, nblk := 0, nsh := 0, kind := .flush, granted := false, tenant := 0, depth := 0, ctx := 0, cmdref := 0 };
     let p : Nat × Lock := (7, ({ rope := 0, slba := 0, nblk := 1, nsh := 0, kind := .write, granted := false, tenant := 0, depth := 0, ctx := 0, cmdref := 0 } : Lock));
     let d : Dev := {}; let d : Dev := { d with rope := { d.rope with locks := Tab.put d.rope.locks i l } };
     let d : Dev := { d with rope := { d.rope with locks := [(0, l), p] } }; let s : State := { dev := d };
     s.live = true ∧ Tab.look s.dev.rope.locks i = some l ∧ l.granted = false ∧ l.kind = .flush ∧
     p ∈ s.dev.rope.locks ∧ p.2.nsh = l.nsh ∧ p.2.rope < l.rope ∧
     (p.2.kind = .write ∨ p.2.kind = .dealloc ∨ p.2.kind = .nswide)) ∧
    (let i : Nat := 0;
     let l : Lock := { rope := 0, slba := 0, nblk := 0, nsh := 0, kind := .nswide, granted := false, tenant := 0, depth := 0, ctx := 0, cmdref := 0 };
     let d : Dev := {}; let d : Dev := { d with rope := { d.rope with locks := Tab.put d.rope.locks i l } };
     let s : State := { dev := d };
     s.live = true ∧ Tab.look s.dev.rope.locks i = some l ∧ l.granted = false ∧ l.kind = .nswide ∧
     (∀ p ∈ s.dev.rope.locks, p.2.nsh = l.nsh → p.2.rope < l.rope → p.2.kind = .flush)) ∧
    (let i : Nat := 0;
     let l : Lock := { rope := 1, slba := 0, nblk := 0, nsh := 0, kind := .nswide, granted := false, tenant := 0, depth := 0, ctx := 0, cmdref := 0 };
     let p : Nat × Lock := (7, ({ rope := 0, slba := 0, nblk := 1, nsh := 0, kind := .write, granted := false, tenant := 0, depth := 0, ctx := 0, cmdref := 0 } : Lock));
     let d : Dev := {}; let d : Dev := { d with rope := { d.rope with locks := Tab.put d.rope.locks i l } };
     let d : Dev := { d with rope := { d.rope with locks := [(0, l), p] } }; let s : State := { dev := d };
     s.live = true ∧ Tab.look s.dev.rope.locks i = some l ∧ l.granted = false ∧ l.kind = .nswide ∧
     p ∈ s.dev.rope.locks ∧ p.2.nsh = l.nsh ∧ p.2.rope < l.rope ∧
     (p.2.kind = .read ∨ p.2.kind = .write ∨ p.2.kind = .dealloc ∨ p.2.kind = .nswide)) ∧
    (let i : Nat := 0;
     let l : Lock := { rope := 0, slba := 0, nblk := 0, nsh := 0, kind := .read, granted := true, tenant := 0, depth := 0, ctx := 0, cmdref := 0 };
     let d : Dev := {}; let d : Dev := { d with rope := { d.rope with locks := Tab.put d.rope.locks i l } };
     let s : State := { dev := d };
     s.live = true ∧ Tab.look s.dev.rope.locks i = some l ∧ l.granted = true) ∧
    (let i : Nat := 0;
     let l : Lock := { rope := 0, slba := 0, nblk := 0, nsh := 0, kind := .read, granted := false, tenant := 0, depth := 0, ctx := 0, cmdref := 0 };
     let d : Dev := {}; let d : Dev := { d with rope := { d.rope with locks := Tab.put d.rope.locks i l } };
     let s : State := { dev := d };
     s.live = true ∧ Tab.look s.dev.rope.locks i = some l ∧ (l.kind = .read ∨ l.kind = .write ∨ l.kind = .dealloc) ∧
     s.dev.grantable l = true) ∧
    (let i : Nat := 0; let s : State := {};
     s.live = true ∧ Tab.look s.dev.rope.locks i = none) := by
  refine ⟨?_, ?_, ?_, ?_, ?_, ?_, ?_, ?_, ?_⟩ <;> decide +kernel

theorem witness_DoneWithOpenAsks :
    (let tid := 0; let c : CWord := cword (wWord 0x45 0 0 0 0 0 0);
     let p : Nat × AskSlot := (0, ({ ask := 0, serial := 0, posted := false } : AskSlot));
     let d : Dev := wCore ({} : Dev) (.pitch tid) (wWord 0x45 0 0 0 0 0 0);
     let d : Dev := wCpu d (.pitch 0) fun x => { x with slots := [p] }
     let s : State := { dev := d }; let m : Mach := (Dev.machine s.dev (.pitch tid)).getD wM;
     s.live = true ∧ s.dev.ready (.pitch tid) 0x45 m c = true ∧ p ∈ m.cpu.slots ∧ p.2.posted = false) ∧
    (let n := 0; let c : CWord := cword (wWord 0x45 0 0 0 0 0 0);
     let p : Nat × AskSlot := (0, ({ ask := 0, serial := 0, posted := false } : AskSlot));
     let d : Dev := wCore ({} : Dev) (.warden n) (wWord 0x45 0 0 0 0 0 0);
     let d : Dev := wCpu d (.warden 0) fun x => { x with slots := [p] }
     let s : State := { dev := d }; let m : Mach := (Dev.machine s.dev (.warden n)).getD wM;
     s.live = true ∧ s.dev.ready (.warden n) 0x45 m c = true ∧ p ∈ m.cpu.slots ∧ p.2.posted = false) ∧
    (let tid := 0; let c : CWord := cword (wWord 0x45 0 0 0 0 0 0);
     let d : Dev := wCore ({} : Dev) (.pitch tid) (wWord 0x45 0 0 0 0 0 0); let s : State := { dev := d };
     let m : Mach := (Dev.machine s.dev (.pitch tid)).getD wM;
     s.live = true ∧ s.dev.ready (.pitch tid) 0x45 m c = true ∧ (∀ p ∈ m.cpu.slots, p.2.posted = true)) ∧
    (let n := 0; let c : CWord := cword (wWord 0x45 0 0 0 0 0 0);
     let d : Dev := wCore ({} : Dev) (.warden n) (wWord 0x45 0 0 0 0 0 0); let s : State := { dev := d };
     let m : Mach := (Dev.machine s.dev (.warden n)).getD wM;
     s.live = true ∧ s.dev.ready (.warden n) 0x45 m c = true ∧ (∀ p ∈ m.cpu.slots, p.2.posted = true)) := by
  refine ⟨?_, ?_, ?_, ?_⟩ <;> decide +kernel

theorem witness_SamplingCountWrites :
    (let i : Nat := 0; let s : State := {};
     s.live = true ∧ i < 16) ∧
    (let i : Nat := 0; let d : Dev := wOn ({} : Dev) 5 0; let d : Dev := d.fset (Reg.TLY_SAMP_CFG.EN.nth i) 1;
     let d : Dev := d.fset (Reg.TLY_SAMP_CFG.SOURCE.nth i) 1; let s : State := { dev := d };
     s.live = true ∧ i < 16 ∧ s.dev.on 5 = true ∧ s.dev.frozen = false ∧ s.dev.fget (Reg.TLY_SAMP_CFG.EN.nth i) = 1 ∧
     1 ≤ s.dev.fget (Reg.TLY_SAMP_CFG.SOURCE.nth i) ∧ s.dev.fget (Reg.TLY_SAMP_CFG.SOURCE.nth i) ≤ 0x13 ∧
     (s.dev.fget (Reg.TLY_SAMP_CFG.TEN_FILTER.nth i) = 0 ∨ sourceNames (s.dev.fget (Reg.TLY_SAMP_CFG.SOURCE.nth i)) = true)) ∧
    (let i : Nat := 16; let s : State := {};
     s.live = true ∧ 16 ≤ i) := by
  refine ⟨?_, ?_, ?_⟩ <;> decide +kernel

theorem witness_ServiceFrames :
    (let sel : DomSel := .block 0 0; let k := 0; let c : Instr := .pllLock k;
     c ∈ [Instr.domainRequest sel k, .domainIdleGate k, .domainWorkWake k, .pllLock k]) ∧
    (let a : Bool := false; let b : Bool := false; let slot := 0; let offset := 0; let len := 0; let index := 0;
     let hash : List Byte := []; let sig : Option (List Byte) := none; let c : Instr := .getVersion;
     c ∈ [Instr.attestReport, .kekImport, .kekUnseal, .fuseRequest, .certExport, .spdmSign, .anchorRequestDone, .getVersion, .getCapabilities, .negotiateAlgorithms a b, .getDigests, .getCertificate slot offset len, .challenge slot index hash, .getMeasurements index sig, .spdmUnsupportedRequest]) ∧
    (let src := 0; let tenant := 0; let w : Word := 0; let a : Bool := false; let b : Bool := false;
     let c : Instr := .capacitySecondTick;
     c ∈ [Instr.meterBatchSigned, .capacitySecondTick, .thresholdTick, .portWindowEnd, .samplingEvent src tenant, .sampCountWrite src w a, .tlyFreezeWrite a b, .cairnDisarm, .cairnOneShot, .cairnPeriodic, .snapshotSetWritten]) := by
  refine ⟨?_, ?_, ?_⟩
  · exact by first | decide +kernel | rfl | simp [URec.laddr]
  · exact by first | decide +kernel | rfl | simp [URec.laddr]
  · exact by first | decide +kernel | rfl | simp [URec.laddr]

theorem witness_CerriArithmetic_table :
    ∀ op ∈ arithmetic.map (fun x => x.2.1),
      (let w : Word := wWord op 0 0 0 0 0 0; let c : CWord := cword w;
       let s : State := { dev := wCore ({} : Dev) (.warden 0) w };
       let m : Mach := (Dev.machine s.dev (.warden 0)).getD wM;
       s.live = true ∧ s.dev.ready (.warden 0) op m c = true) := by
  decide +kernel

theorem witness_CerriMemory_loads_stores :
    ∀ x ∈ (loads ++ stores).map (fun x => x.2),
      (let w : Word := wWord x.1 0 0 0 0 1 0; let c : CWord := cword w; let p : Place := .local_ 0;
       let s : State := { dev := wCore ({} : Dev) (.warden 0) w };
       let m : Mach := (Dev.machine s.dev (.warden 0)).getD wM;
       s.live = true ∧ s.dev.ready (.warden 0) x.1 m c = true ∧ s.dev.place m (c.address (m.rd c.sa)) x.2 = some p ∧
       c.address (m.rd c.sa) % x.2 = 0) := by
  decide +kernel

theorem witness_CerriMemory_outside_the_store :
    (let b := 8; let n := 8; (7 < b ∨ b + n ≤ 7) ∧ (16 < b ∨ b + n ≤ 16)) := by
  decide

theorem witness_FusesAtReset : (let i := 8; 8 ≤ i ∧ i < 64) ∧ (let i := 63; 8 ≤ i ∧ i < 64) := by
  decide

theorem witness_QueueOrder : step {} = .next { dev := Dev.tick {} } := rfl

end Sys2Proof.Tests
end

section
/-! SUPPORT. Meeting a statement: the outcome of a command from the change of the device that its meaning is. -/

namespace Sys2Proof.Proofs

open Sys2Proof.Machine Sys2Proof.Laws

variable {c : Instr} {s : State} {f : Dev → Dev} {e : Dev}

/-- A command that settles after one change of the device settles what that change leaves. -/
theorem settles_of_act (he : exec c s = s.act f) (h : s.live = true) (hf : f s.dev = e) : Settles c s e := by
  rw [Settles, he, act_live _ _ h, hf]

/-- A command that is one change of the device gives what that change leaves. -/
theorem gives_of_upd (he : exec c s = s.upd f) (h : s.live = true) (hf : f s.dev = e) : Gives c s e := by
  rw [Gives, he, upd_live _ _ h, hf]

end Sys2Proof.Proofs
end

section
/-! SUPPORT. The fields of a register: the bits an access type holds, and what each kind of access makes of every field. -/

namespace Sys2Proof.Proofs

open Sys2Proof.Machine Sys2Proof.Laws

/-! ### The bits of an access type -/

theorem getLsbD_foldl_mask (p : Acc → Bool) (i : Nat) (fs : List Fld) (w : Word) :
    (fs.foldl (fun w f => if p f.acc then w ||| maskOf f.hi f.lo else w) w).getLsbD i =
      (w.getLsbD i || fs.any fun f => p f.acc && (maskOf f.hi f.lo).getLsbD i) := by
  induction fs generalizing w with
  | nil => simp
  | cons f fs ih =>
    rw [List.foldl_cons, ih, List.any_cons]
    cases p f.acc <;> simp [Bool.or_assoc]

/-- A bit lies in the mask of some access types when a field of one of them holds it. -/
theorem getLsbD_mask (r : Row) (p : Acc → Bool) (i : Nat) :
    (r.mask p).getLsbD i = r.flds.any fun f => p f.acc && (maskOf f.hi f.lo).getLsbD i := by
  simp [Row.mask, getLsbD_foldl_mask]

theorem le_of_getLsbD_maskOf {hi lo i : Nat} (hl : lo ≤ hi) (h : (maskOf hi lo).getLsbD i = true) : lo ≤ i ∧ i ≤ hi := by
  simp only [maskOf, BitVec.getLsbD_ofNat, Nat.testBit_mul_two_pow, Nat.testBit_two_pow_sub_one, Bool.and_eq_true,
    decide_eq_true_eq] at h
  omega

/-- Rows belong to the blocks of the register tables. -/
theorem blk_lt_of_mem_rowsOf {blk : Nat} {r : Row} (h : r ∈ rowsOf blk) : blk < 0x1D := by
  unfold rowsOf at h
  split at h <;> simp_all

/-- The row at an offset is one of its block's rows. -/
theorem mem_rowsOf_of_rowAt {blk n off : Nat} {r : Row} (h : rowAt blk n off = some r) : r ∈ rowsOf blk :=
  List.mem_of_find?_eq_some h

/-- The fields of the register at an offset are apart, lie in the register, and their reset values fit. -/
theorem flds_of_rowAt {blk n off : Nat} {r : Row} (h : rowAt blk n off = some r) :
    r.flds.Pairwise (fun f g => f.hi < g.lo ∨ g.hi < f.lo) ∧
      ∀ f ∈ r.flds, f.lo ≤ f.hi ∧ f.hi < 64 ∧ f.rst < 2 ^ (f.hi - f.lo + 1) :=
  have hm := mem_rowsOf_of_rowAt h
  rows_fields blk (blk_lt_of_mem_rowsOf hm) r hm

/-- A bit that fields of one access type hold is in no field of another. -/
theorem mask_apart {blk n off : Nat} {r : Row} (h : rowAt blk n off = some r) (a b : Acc) (hab : a ≠ b) (i : Nat)
    (ha : (r.mask (· = a)).getLsbD i = true) : (r.mask (· = b)).getLsbD i = false := by
  obtain ⟨hp, hf⟩ := flds_of_rowAt h
  by_contra hb
  rw [Bool.not_eq_false, getLsbD_mask, List.any_eq_true] at hb
  rw [getLsbD_mask, List.any_eq_true] at ha
  obtain ⟨f, hfm, hfa⟩ := ha
  obtain ⟨g, hgm, hgb⟩ := hb
  simp only [Bool.and_eq_true, decide_eq_true_eq] at hfa hgb
  have hne : f ≠ g := by rintro rfl; exact hab (hfa.1.symm.trans hgb.1)
  have hfi := le_of_getLsbD_maskOf (hf f hfm).1 hfa.2
  have hgi := le_of_getLsbD_maskOf (hf g hgm).1 hgb.2
  have hs : Std.Symm fun f g : Fld => f.hi < g.lo ∨ g.hi < f.lo := ⟨fun _ _ => Or.symm⟩
  have := hp.forall hfm hgm hne
  omega

/-! ### Read-clears fields -/

/-- The word once every RC field is back at its reset value. -/
def rcWord (fs : List Fld) (w : Word) : Word := fs.foldl (fun w f => if f.acc = .rc then setField w f.hi f.lo f.rst else w) w

/-- One field's part of that. -/
theorem rcWord_cons (f : Fld) (fs : List Fld) (w : Word) :
    rcWord (f :: fs) w = rcWord fs (if f.acc = .rc then setField w f.hi f.lo f.rst else w) := rfl

/-- A field apart from all of them stays. -/
theorem field_rcWord_other (g : Fld) (hg : g.lo ≤ g.hi) (fs : List Fld) (w : Word)
    (hf : ∀ f ∈ fs, f.lo ≤ f.hi ∧ f.hi < 64) (h : ∀ f ∈ fs, g.hi < f.lo ∨ f.hi < g.lo) :
    field (rcWord fs w) g.hi g.lo = field w g.hi g.lo := by
  induction fs generalizing w with
  | nil => rfl
  | cons f fs ih =>
    rw [rcWord_cons, ih _ (fun x hx => hf x (List.mem_cons_of_mem _ hx)) fun x hx => h x (List.mem_cons_of_mem _ hx)]
    obtain ⟨h1, h2⟩ := hf f List.mem_cons_self
    split
    · exact field_setField_other _ _ _ _ _ _ h2 h1 hg (h f List.mem_cons_self)
    · rfl

/-- Every RC field is at its reset value, and every other one stays. -/
theorem field_rcWord (fs : List Fld) (w : Word) (hp : fs.Pairwise fun f g => f.hi < g.lo ∨ g.hi < f.lo)
    (hf : ∀ f ∈ fs, f.lo ≤ f.hi ∧ f.hi < 64 ∧ f.rst < 2 ^ (f.hi - f.lo + 1)) :
    ∀ f ∈ fs, field (rcWord fs w) f.hi f.lo = if f.acc = .rc then f.rst else field w f.hi f.lo := by
  induction fs generalizing w with
  | nil => simp
  | cons g fs ih =>
    obtain ⟨hgp, hp⟩ := List.pairwise_cons.1 hp
    obtain ⟨hg1, hg2, hg3⟩ := hf g List.mem_cons_self
    have hf' : ∀ f ∈ fs, f.lo ≤ f.hi ∧ f.hi < 64 ∧ f.rst < 2 ^ (f.hi - f.lo + 1) := fun f h => hf f (List.mem_cons_of_mem _ h)
    intro f hm
    rw [rcWord_cons]
    rcases List.mem_cons.1 hm with rfl | hm
    · rw [field_rcWord_other f hg1 fs _ (fun x hx => ⟨(hf' x hx).1, (hf' x hx).2.1⟩) hgp]
      split
      · rw [field_setField _ _ _ _ hg1 hg2, Nat.mod_eq_of_lt hg3]
      · rfl
    · rw [ih _ hp hf' f hm]
      congr 1
      split
      · exact field_setField_other _ _ _ _ _ _ hg2 hg1 (hf' f hm).1 (hgp f hm).symm
      · rfl

variable (d : Dev)

/-- The device once the RC fields among `fs` of a register are back at their reset values. -/
def rcClear (blk n off : Nat) (fs : List Fld) : Dev :=
  fs.foldl (fun (d : Dev) (f : Fld) =>
    if f.acc = .rc then d.setReg blk n off (setField (d.reg blk n off) f.hi f.lo f.rst) else d) d

theorem rcClear_cons (blk n off : Nat) (f : Fld) (fs : List Fld) : rcClear d blk n off (f :: fs) =
    rcClear (if f.acc = .rc then d.setReg blk n off (setField (d.reg blk n off) f.hi f.lo f.rst) else d) blk n off fs := rfl

/-- It is a write of that register, or none. -/
theorem rcClear_reg (blk n off : Nat) (fs : List Fld) :
    (rcClear d blk n off fs).reg blk n off = rcWord fs (d.reg blk n off) := by
  induction fs generalizing d with
  | nil => rfl
  | cons f fs ih => rw [rcClear_cons, ih, rcWord_cons]; split <;> simp

theorem rcClear_regs_other (blk n off : Nat) (fs : List Fld) (x : Nat) (hx : x ≠ regAddr blk n off) :
    (rcClear d blk n off fs).regs.get x = d.regs.get x := by
  induction fs generalizing d with
  | nil => rfl
  | cons f fs ih =>
    rw [rcClear_cons, ih]
    split
    · exact get_set_other _ _ _ _ hx
    · rfl

theorem rcClear_eq (blk n off : Nat) (fs : List Fld) :
    rcClear d blk n off fs = { d with regs := (rcClear d blk n off fs).regs } := by
  induction fs generalizing d with
  | nil => rfl
  | cons f fs ih => rw [rcClear_cons, ih]; split <;> rfl

end Sys2Proof.Proofs
end

section
/-! SUPPORT. Reads and writes of the register space: what each case of a bus access comes to. -/

namespace Sys2Proof.Proofs

open Sys2Proof.Machine Sys2Proof.Laws

variable (d : Dev)

/-! ### Where an access goes -/

variable {d} in
theorem writeBus_reg {who : Path} {a blk n off : Nat} (v : Word) (ha : addrTarget a = .reg blk n off)
    (hw : d.mayWrite who blk off = true) : d.writeBus who a v = d.writeReg blk n off v := by
  simp [Dev.writeBus, ha, hw]

variable {d} in
theorem writeBus_denied {who : Path} {a blk n off : Nat} (v : Word) (ha : addrTarget a = .reg blk n off)
    (hw : d.mayWrite who blk off = false) : d.writeBus who a v = d := by
  simp [Dev.writeBus, ha, hw]

theorem writeBus_unmapped {a blk n : Nat} (who : Path) (v : Word) (ha : addrTarget a = .unmapped blk n) :
    d.writeBus who a v = d.setErr blk n errAccess := by
  simp [Dev.writeBus, ha]

theorem writeBus_outside {a : Nat} (who : Path) (v : Word) (ha : addrTarget a = .outside) : d.writeBus who a v = d := by
  simp [Dev.writeBus, ha]

theorem readBus_reg {a blk n off : Nat} (who : Path) (ha : addrTarget a = .reg blk n off) :
    (d.readBus who a).2 = d.readActs who blk n off := by
  simp [Dev.readBus, ha]

theorem readBus_unmapped {a blk n : Nat} (who : Path) (ha : addrTarget a = .unmapped blk n) :
    d.readBus who a = (0, d.setErr blk n errAccess) := by
  simp [Dev.readBus, ha]

theorem readBus_outside {a : Nat} (who : Path) (ha : addrTarget a = .outside) : d.readBus who a = (0, d) := by
  simp [Dev.readBus, ha]

theorem badBus_narrow {a width blk n off : Nat} (hw : width ≠ 8) (ha : addrTarget a = .reg blk n off) :
    d.badBus a width = d.setErr blk n errAccess := by
  simp [Dev.badBus, Dev.badAccess, ha, hw]

theorem badBus_unmapped {a blk n : Nat} (width : Nat) (ha : addrTarget a = .unmapped blk n) :
    d.badBus a width = d.setErr blk n errAccess := by
  simp [Dev.badBus, Dev.badAccess, ha]

theorem badBus_outside {a : Nat} (width : Nat) (ha : addrTarget a = .outside) : d.badBus a width = d := by
  simp [Dev.badBus, Dev.badAccess, ha]

/-! ### Writes of the header -/

/-- A write of a register of the header is a write of the header. -/
theorem writeReg_header {off : Nat} (blk n : Nat) (v : Word) (h : inHeader off = true) :
    d.writeReg blk n off v = d.headerWrite blk n off v := by
  simp [Dev.writeReg, h]

/-- A write of BLK_GEN with SWAP and DISCARD swaps first (R65, R66). -/
theorem headerWrite_gen (blk n : Nat) (v : Word) : d.headerWrite blk n 0x40 v =
    let e := if v.getLsbD 36 then d.swapRequest blk n else d
    if v.getLsbD 37 then e.genDiscard blk n else e := rfl

/-- New requests of domains change nothing of a header but CAMP's BLK_ERR (R449). -/
theorem requestDoms_inst (ks : List Nat) (st b n : Nat) :
    (d.requestDoms ks st).inst b n = { d.inst b n with err := ((d.requestDoms ks st).inst b n).err } := by
  have hset : ∀ (ks : List Nat) (d : Dev),
      (ks.foldl (fun (d : Dev) k => d.setDom k { d.dom k with req := st }) d).inst b n = d.inst b n := by
    intro ks
    induction ks with
    | nil => exact fun _ => rfl
    | cons k ks ih => exact fun d => ih _
  unfold Dev.requestDoms
  rw [retargetAll_inst]
  split
  · by_cases h : instKey b n = instKey 0 0
    · obtain ⟨rfl, rfl⟩ : b = 0 ∧ n = 0 := by simp [instKey] at h; omega
      rw [setErr_inst, hset]
    · rw [setErr_inst_other _ _ _ _ _ _ h, hset]
  · rw [hset]

/-- A request of a block's power state that names one of the five is in BLK_PWR_REQ (R449). -/
theorem requestBlock_pwrReq (blk n st : Nat) (h : st ≤ 4) : ((d.requestBlock blk n st).inst blk n).pwrReq = st := by
  rw [Dev.requestBlock, if_neg (by omega), requestDoms_inst, inst_modInst_self]

/-! ### Writes by access type -/

/-- A register without an effect of its own has no bit that such an effect writes. -/
theorem ownBits_of_plain {blk off : Nat} (h : ownEffect blk off = false) : ownBits blk off = 0 := by
  unfold ownBits
  split_ifs with h1 h2 h3
  · rcases h1 with h1 | h1 | h1 | h1 | h1 <;> obtain ⟨rfl, h1⟩ := h1 <;> simp [ownEffect, ownRegs] at h h1 <;> omega
  · obtain ⟨rfl, rfl⟩ := h2
    simp [ownEffect, ownRegs] at h
  · obtain ⟨rfl, rfl⟩ := h3
    simp [ownEffect, ownRegs] at h
  · rfl

/-- Its write has no effect beyond the access types in the blocks of `ownWriteA`. -/
theorem ownWriteA_of_plain {blk off : Nat} (v : Word) (h : ownEffect blk off = false) : d.ownWriteA blk off v = d := by
  unfold Dev.ownWriteA
  dsimp only
  iterate 8
    refine ite_eq_iff'.2 ⟨fun hb => ?_, fun _ => ?_⟩
    · subst hb; simp [ownEffect, ownRegs] at h; simp [h]
  rfl

/-- Nor in the others. -/
theorem ownWriteB_of_plain {blk off : Nat} (v : Word) (h : ownEffect blk off = false) : d.ownWriteB blk off v = d := by
  unfold Dev.ownWriteB
  dsimp only
  iterate 13
    refine ite_eq_iff'.2 ⟨fun hb => ?_, fun _ => ?_⟩
    · subst hb; simp [ownEffect, ownRegs] at h; simp [h]
  rfl

/-- What a plain write makes of a register's value: RW fields, and LK fields while ENABLE is 0, take `v`, W1S bits set and
W1C bits clear (R8, R9). -/
def plainWord (blk n off : Nat) (r : Row) (v : Word) : Word :=
  let m := r.mask (· = .rw) ||| (if (d.inst blk n).enable then 0 else r.mask (· = .lk))
  ((d.reg blk n off &&& ~~~m) ||| (v &&& m) ||| (v &&& r.mask (· = .w1s))) &&& ~~~(v &&& r.mask (· = .w1c))

/-- A write of a register without an effect of its own is the write by access type. -/
theorem writeReg_plain {blk n off : Nat} {r : Row} (v : Word) (hh : inHeader off = false) (hr : rowAt blk n off = some r)
    (ho : ownEffect blk off = false) : d.writeReg blk n off v = d.plainWrite blk n off r v := by
  simp only [Dev.writeReg, hh, hr, ownWriteA_of_plain _ _ ho, ownWriteB_of_plain _ _ ho]
  simp

section
variable {d} {blk n off : Nat} {r : Row} {v : Word} (ho : ownEffect blk off = false)
include ho

/-- A plain write sets the register to `plainWord`, and then the errors or the shadow. -/
theorem plainWrite_eq : d.plainWrite blk n off r v =
    let e := d.setReg blk n off (plainWord d blk n off r v)
    let e := if (d.inst blk n).enable ∧ (v ^^^ d.reg blk n off) &&& r.mask (· = .lk) ≠ 0 then e.setErr blk n errLkWrite else e
    if r.mask (· = .st) = 0 then e
    else if (d.inst blk n).swap then e.setErr blk n errStageBusy
    else { e with
      shadow := e.shadow.set (regAddr blk n off)
        ((e.shadowReg blk n off &&& ~~~r.mask (· = .st)) ||| (v &&& r.mask (· = .st))) } := by
  have hz (w : Word) : w &&& ~~~(0 : Word) = w := BitVec.and_allOnes
  simp only [Dev.plainWrite, plainWord, ownBits_of_plain ho, hz]

/-- A write that changes no LK field in force, and no ST field while a swap is pending: the register and its shadow take it. -/
theorem plainWrite_taken (hlk : (d.inst blk n).enable = false ∨ (v ^^^ d.reg blk n off) &&& r.mask (· = .lk) = 0)
    (hst : (d.inst blk n).swap = false ∨ r.mask (· = .st) = 0) :
    d.plainWrite blk n off r v = { d.setReg blk n off (plainWord d blk n off r v) with
      shadow := if r.mask (· = .st) = 0 then d.shadow
        else d.shadow.set (regAddr blk n off)
          ((d.shadowReg blk n off &&& ~~~r.mask (· = .st)) ||| (v &&& r.mask (· = .st))) } := by
  have hk : ¬ ((d.inst blk n).enable = true ∧ (v ^^^ d.reg blk n off) &&& r.mask (· = .lk) ≠ 0) := by
    rintro ⟨h1, h2⟩
    exact hlk.elim (by simp [h1]) h2
  rw [plainWrite_eq ho]
  simp only [if_neg hk]
  by_cases hs : r.mask (· = .st) = 0
  · simp only [if_pos hs]
    rfl
  · simp only [if_neg hs, hst.resolve_right hs]
    rfl

/-- A write that would change an LK field while ENABLE is 1 sets LK_WRITE (R9). -/
theorem plainWrite_locked (he : (d.inst blk n).enable = true) (hlk : (v ^^^ d.reg blk n off) &&& r.mask (· = .lk) ≠ 0)
    (hst : r.mask (· = .st) = 0) :
    d.plainWrite blk n off r v = (d.setReg blk n off (plainWord d blk n off r v)).setErr blk n errLkWrite := by
  rw [plainWrite_eq ho]
  simp only [if_pos (And.intro he hlk), if_pos hst]

/-- A write of an ST field while a swap is pending sets STAGE_BUSY (R66). -/
theorem plainWrite_busy (hlk : (d.inst blk n).enable = false ∨ (v ^^^ d.reg blk n off) &&& r.mask (· = .lk) = 0)
    (hs : (d.inst blk n).swap = true) (hst : r.mask (· = .st) ≠ 0) :
    d.plainWrite blk n off r v = (d.setReg blk n off (plainWord d blk n off r v)).setErr blk n errStageBusy := by
  have hk : ¬ ((d.inst blk n).enable = true ∧ (v ^^^ d.reg blk n off) &&& r.mask (· = .lk) ≠ 0) := by
    rintro ⟨h1, h2⟩
    exact hlk.elim (by simp [h1]) h2
  rw [plainWrite_eq ho]
  simp only [if_neg hk, if_neg hst, if_pos hs]

end

/-- While ENABLE is 1 a plain write leaves the LK fields (R9). -/
theorem plainWord_keeps_lk {blk n off : Nat} {r : Row} (v : Word) (hr : rowAt blk n off = some r)
    (he : (d.inst blk n).enable = true) :
    plainWord d blk n off r v &&& r.mask (· = .lk) = d.reg blk n off &&& r.mask (· = .lk) := by
  apply BitVec.eq_of_getLsbD_eq
  intro i hi
  rcases hb : (r.mask (· = .lk)).getLsbD i with _ | _
  · simp [hb]
  · have hrw := mask_apart hr .lk .rw (by decide) i hb
    have hw1s := mask_apart hr .lk .w1s (by decide) i hb
    have hw1c := mask_apart hr .lk .w1c (by decide) i hb
    simp [plainWord, he, hb, hrw, hw1s, hw1c]
    exact fun _ => hi

/-! ### Reads -/

/-- Registers of rows lie above the header. -/
theorem rows_above_header : ∀ blk < 0x1D, ∀ r ∈ rowsOf blk, 0x200 ≤ r.off := by
  decide +kernel

theorem inHeader_of_row {blk n off : Nat} {r : Row} (hr : rowAt blk n off = some r) : inHeader off = false := by
  have hm := mem_rowsOf_of_rowAt hr
  have h := rows_above_header blk (blk_lt_of_mem_rowsOf hm) r hm
  have hp := List.find?_some hr
  simp only [Bool.and_eq_true, decide_eq_true_eq] at hp
  simp [inHeader]
  omega

/-- A read without a further effect returns the RC fields to their reset values (R8). -/
theorem readActs_plain {who : Path} {blk n off : Nat} {r : Row} (hr : rowAt blk n off = some r)
    (he : readEffect who blk off = false) : d.readActs who blk n off = rcClear d blk n off r.flds := by
  simp only [readEffect, Bool.or_eq_false_iff, decide_eq_false_iff_not] at he
  obtain ⟨⟨⟨⟨h9, h5⟩, h3⟩, h13⟩, hc⟩ := he
  simp only [Dev.readActs, if_neg h9, if_neg h5, if_neg h3, if_neg h13, hr]
  cases who with
  | core k =>
    simp only [decide_eq_false_iff_not] at hc
    simp only [if_neg hc]
    rfl
  | lane => rfl
  | mctp => rfl

/-- A read of the header changes nothing. -/
theorem readActs_header {off : Nat} (who : Path) (blk n : Nat) (h : inHeader off = true) : d.readActs who blk n off = d := by
  have hr : rowAt blk n off = none := by
    cases hr : rowAt blk n off with
    | none => rfl
    | some r => simp [inHeader_of_row hr] at h
  have hlt : off < 0x200 := by simp [inHeader] at h; omega
  have h5 : off ≠ Reg.TLY_WIN_PEAK.RX_KIB.off := by rintro rfl; simp [Reg.TLY_WIN_PEAK.RX_KIB] at hlt
  have h3 : off ≠ Reg.SPT_FAULTS.ALL.off := by rintro rfl; simp [Reg.SPT_FAULTS.ALL] at hlt
  have h13 : off ≠ Reg.PITCH_LOAD.STATE.off := by rintro rfl; simp [Reg.PITCH_LOAD.STATE] at hlt
  have h2 : off ≠ Reg.WDN_MBOX.DATA.off := by rintro rfl; simp [Reg.WDN_MBOX.DATA] at hlt
  have h9 : ¬ (blk = 9 ∧ 0x240 ≤ off ∧ off < 0x260) := by omega
  simp only [Dev.readActs, if_neg h9, h5, h3, h13, h2, hr, and_false, if_false]
  cases who <;> rfl

end Sys2Proof.Proofs
end

section
/-! SUPPORT. The registers whose read does more than clear RC fields. -/

namespace Sys2Proof.Proofs

open Sys2Proof.Machine Sys2Proof.Laws

variable (d : Dev)

/-- A read of SPT_FAULTS also takes the notice for Warden (R111). -/
theorem readActs_sptFaults (who : Path) : d.readActs who 3 0 Reg.SPT_FAULTS.ALL.off =
    rcClear { d with warden := { d.warden with notice := false } } 3 0 Reg.SPT_FAULTS.ALL.off
      [⟨63, 32, .rc, 0, false, 0, 0xFFFFFFFFFFFFFFFF⟩, ⟨31, 0, .rc, 0, false, 0, 0xFFFFFFFFFFFFFFFF⟩] := by
  cases who <;> rfl

/-- A read of TIM_TXTS removes the oldest stamp (R303). -/
theorem readActs_timTxts (who : Path) (p : Nat) (hp : p < 4) : d.readActs who 9 0 (0x240 + 8 * p) =
    { d with tim := { d.tim with txts := Tab.modify d.tim.txts [] p (·.drop 1) } } := by
  have h : 9 = 9 ∧ 0x240 ≤ 0x240 + 8 * p ∧ 0x240 + 8 * p < 0x260 := by omega
  have hq : (0x240 + 8 * p - 0x240) / 8 = p := by omega
  rw [Dev.readActs, if_pos h]
  simp only [hq]

/-- A read of TLY_WIN_PEAK clears the selected port's peak (R468). -/
theorem readActs_winPeak (who : Path) : d.readActs who 5 0 Reg.TLY_WIN_PEAK.RX_KIB.off =
    { d with tally := { d.tally with peak := Tab.del d.tally.peak (d.fget Reg.TLY_WIN_SEL.PORT) } } := rfl

/-- A core's read of WDN_MBOX takes its own doorbell (R111). -/
theorem readActs_mbox (k : Nat) : d.readActs (.core k) 2 0 Reg.WDN_MBOX.DATA.off =
    { d with warden := { d.warden with cores := Tab.modify d.warden.cores {} k fun c => { c with mbox := false } } } := rfl

/-- A read of PITCH_LOAD finds the load as far on as it has come (R127). -/
theorem readActs_pitchLoad (who : Path) : d.readActs who 0x13 0 Reg.PITCH_LOAD.STATE.off = d.loadGoesOn := by
  cases who <;> rfl

end Sys2Proof.Proofs
end

section
/-! Register reads, writes and bad accesses (R8, R9, R10, R54, R57). -/

namespace Sys2Proof.Proofs

open Sys2Proof.Machine Sys2Proof.Laws

section
variable {s : State} {who : Path} {a blk n off : Nat} {v : Word} (hl : s.live = true)
include hl

/-- A write that its path may make settles after the write of the register. -/
theorem settles_regWrite {e : Dev} (ha : addrTarget a = .reg blk n off) (hw : s.dev.mayWrite who blk off = true)
    (he : s.dev.writeReg blk n off v = e) : Settles (.regWrite who a v) s e :=
  settles_of_act (exec_regWrite s who a v) hl ((writeBus_reg v ha hw).trans he)

/-- Such a write acts as the write of the register does. -/
theorem acts_regWrite {Q : Dev → Prop} (ha : addrTarget a = .reg blk n off) (hw : s.dev.mayWrite who blk off = true)
    (hq : Q (s.dev.writeReg blk n off v)) : Acts (.regWrite who a v) s Q :=
  acts_of_act _ s _ Q (exec_regWrite s who a v) hl (by rw [writeBus_reg v ha hw]; exact hq)

/-- A read of a register runs as its side effect does. -/
theorem runs_regRead {Q : Dev → Prop} (ha : addrTarget a = .reg blk n off) (hq : Q (s.dev.readActs who blk n off)) :
    Runs (.regReadClear who a) s Q :=
  runs_of_upd _ s _ Q (exec_regReadClear s who a) hl (by rw [readBus_reg _ _ ha]; exact hq)

/-- A read of a register gives what its side effect leaves. -/
theorem gives_regRead {e : Dev} (ha : addrTarget a = .reg blk n off) (he : s.dev.readActs who blk n off = e) :
    Gives (.regReadClear who a) s e :=
  gives_of_upd (exec_regReadClear s who a) hl ((readBus_reg _ _ ha).trans he)

end

/-- BLK_ERR.ACCESS is set by an access that the block does not accept (R54). -/
theorem setErr_access (d : Dev) (blk n : Nat) : ((d.setErr blk n errAccess).inst blk n).err.getLsbD 1 = true :=
  setErr_bit d blk n 1 (by decide)

/-- Settles O1: each access comes to a write by access type, a header write or a read's own effect. -/
theorem registerAccess : Obligations.RegisterAccess := by
  unfold Obligations.RegisterAccess
  refine ⟨?_, ?_, ?_, ?_, ?_, ?_, ?_, ?_, ?_, ?_, ?_, ?_, ?_, ?_, ?_, ?_, ?_, ?_, ?_, ?_, ?_, ?_, ?_, ?_⟩
  · intro s who a blk n v hl ha hw
    exact acts_regWrite hl ha hw rfl
  · intro s who a blk n v hl ha hw
    exact acts_regWrite hl ha hw rfl
  · intro s who a blk n v hl ha hw
    exact settles_regWrite hl ha hw rfl
  · intro s who a blk n v hl ha hw hv
    exact acts_regWrite hl ha hw (requestBlock_pwrReq _ _ _ _ hv)
  · intro s who a blk n v hl ha hw
    refine settles_regWrite hl ha hw ?_
    rw [writeReg_header _ _ _ _ (by decide), headerWrite_gen]
    cases v.getLsbD 36 <;> rfl
  · intro s who a blk n off v r hl ha hw hh hr ho hlk hst
    refine acts_regWrite hl ha hw ?_
    rw [writeReg_plain _ _ hh hr ho, plainWrite_taken ho hlk hst]
    refine ⟨get_set_self _ _ _, ?_, fun x hx => ⟨get_set_other _ _ _ _ hx, ?_⟩, rfl⟩
    · by_cases hs : r.mask (· = .st) = 0
      · have hz (w : Word) : w &&& ~~~(0 : Word) = w := BitVec.and_allOnes
        simp only [Dev.shadowReg, hs, hz]
        simp
      · simp only [Dev.shadowReg, if_neg hs, get_set_self]
    · by_cases hs : r.mask (· = .st) = 0
      · simp only [if_pos hs]
      · simp only [if_neg hs, get_set_other _ _ _ _ hx]
  · intro s who a blk n off v r hl ha hw hh hr ho he hlk hst
    refine acts_regWrite hl ha hw ?_
    rw [writeReg_plain _ _ hh hr ho, plainWrite_locked ho he hlk hst]
    exact ⟨⟨_, plainWord_keeps_lk _ v hr he, rfl⟩, setErr_bit _ _ _ _ (by decide)⟩
  · intro s who a blk n off v r hl ha hw hh hr ho hlk hs hst
    refine acts_regWrite hl ha hw ?_
    rw [writeReg_plain _ _ hh hr ho, plainWrite_busy ho hlk hs hst]
    exact ⟨by rw [setErr_shadow, setReg_shadow], ⟨_, rfl⟩, setErr_bit _ _ _ _ (by decide)⟩
  · intro s who a blk n off v hl ha hw ho
    exact settles_regWrite hl ha hw rfl
  · intro s who a blk n off v hl ha hw
    exact settles_of_act (exec_regWrite s who a v) hl (writeBus_denied v ha hw)
  · intro s who a blk n v hl ha
    exact acts_of_act _ s _ _ (exec_regWrite s who a v) hl (by
      rw [writeBus_unmapped _ _ _ ha]; exact ⟨rfl, setErr_access _ _ _⟩)
  · intro s who a v hl ha
    exact settles_of_act (exec_regWrite s who a v) hl (writeBus_outside _ _ _ ha)
  · intro s who a blk n off r hl ha hh hr he
    refine runs_regRead hl ha ?_
    rw [readActs_plain _ hr he]
    obtain ⟨hp, hf⟩ := flds_of_rowAt hr
    refine ⟨?_, fun x hx => rcClear_regs_other _ _ _ _ _ _ hx, rcClear_eq _ _ _ _ _⟩
    rw [rcClear_reg]
    exact field_rcWord _ _ hp hf
  · intro s who a blk n off hl ha hh
    exact gives_regRead hl ha (readActs_header _ _ _ _ hh)
  · intro s who a hl ha
    refine runs_regRead hl ha ?_
    rw [readActs_sptFaults]
    refine ⟨?_, ?_, ?_⟩
    · show field ((rcClear _ 3 0 Reg.SPT_FAULTS.ALL.off _).reg 3 0 Reg.SPT_FAULTS.ALL.off) 31 0 = 0
      rw [rcClear_reg]
      exact field_setField _ 31 0 0 (by decide) (by decide)
    · rw [rcClear_eq]
    · rw [rcClear_eq]
  · intro s who a p hl hp ha
    refine runs_regRead hl ha ?_
    rw [readActs_timTxts _ _ _ hp]
    exact ⟨by simp [Tab.modify], fun k hk => look_put_other _ _ _ _ hk, rfl⟩
  · intro s who a hl ha
    refine runs_regRead hl ha ?_
    rw [readActs_winPeak]
    exact ⟨look_del_self _ _, rfl⟩
  · intro s k a hl ha
    refine runs_regRead hl ha ?_
    rw [readActs_mbox]
    exact ⟨by simp [Dev.core, Tab.modify], fun j hj => by simp [Dev.core, Tab.modify, look_put_other _ _ _ _ hj], rfl⟩
  · intro s who a hl ha
    exact gives_regRead hl ha (readActs_pitchLoad _ _)
  · intro s who a blk n hl ha
    refine runs_of_upd _ s _ _ (exec_regReadClear s who a) hl ?_
    rw [readBus_unmapped _ _ ha]
    exact ⟨rfl, setErr_access _ _ _, rfl⟩
  · intro s who a hl ha
    refine runs_of_upd _ s _ _ (exec_regReadClear s who a) hl ?_
    rw [readBus_outside _ _ ha]
    exact ⟨rfl, rfl⟩
  · intro s a width blk n off hl hw ha
    refine runs_of_upd _ s _ _ (exec_badAccess s a width) hl ?_
    rw [badBus_narrow _ hw ha]
    exact ⟨rfl, setErr_access _ _ _⟩
  · intro s a width blk n hl ha
    refine runs_of_upd _ s _ _ (exec_badAccess s a width) hl ?_
    rw [badBus_unmapped _ _ ha]
    exact ⟨rfl, setErr_access _ _ _⟩
  · intro s a width hl ha
    exact gives_of_upd (exec_badAccess s a width) hl (badBus_outside _ _ ha)

end Sys2Proof.Proofs
end

section
/-! SUPPORT. Operations that show something: they change registers and Warden's region of SRAM alone. -/

namespace Sys2Proof.Proofs

open Sys2Proof.Machine Sys2Proof.Laws

/-- `e` is `d` but for its registers and the Warden region of SRAM. -/
def Shows (d e : Dev) : Prop := e = { d with regs := e.regs, mem := { d.mem with wsram := e.mem.wsram } }

namespace Shows

variable {d e f : Dev}

theorem refl (d : Dev) : Shows d d := rfl

theorem trans (h : Shows d e) (h' : Shows e f) : Shows d f := by
  rw [Shows, h', h]

theorem pitch (h : Shows d e) : e.pitch = d.pitch := by rw [h]
theorem ledger (h : Shows d e) : e.ledger = d.ledger := by rw [h]
theorem map (h : Shows d e) : e.map = d.map := by rw [h]

end Shows

variable (d : Dev)

theorem shows_fset (f : FRef) (v n : Nat) : Shows d (d.fset f v n) := rfl
theorem shows_bump (f : FRef) (k n : Nat) : Shows d (d.bump f k n) := rfl
theorem shows_raiseTo (f : FRef) (v n : Nat) : Shows d (d.raiseTo f v n) := rfl

/-- A Warden event goes to the ring, or is counted as lost (R70). -/
theorem shows_post (blk n code arg : Nat) : Shows d (d.post blk n code arg) := by
  unfold Dev.post
  dsimp only
  split <;> rfl

/-- It changes no register but the ring's head and its lost count. -/
theorem reg_post_other (blk n code arg b m o : Nat) (hh : regAddr b m o ≠ regAddr 2 0 0x210)
    (hl : regAddr b m o ≠ regAddr 2 0 0x220) : (d.post blk n code arg).reg b m o = d.reg b m o := by
  unfold Dev.post
  dsimp only
  split
  · exact reg_setReg_other _ _ _ _ _ _ _ _ hl
  · exact reg_setReg_other _ _ _ _ _ _ _ _ hh

theorem shows_sampleAt (src : Nat) (tenant : Option Nat) (i : Nat) : Shows d (d.sampleAt src tenant i) := by
  unfold Dev.sampleAt
  dsimp only
  split
  · rfl
  · split
    · exact ((shows_fset _ _ _ _).trans (shows_fset _ _ _ _)).trans (shows_post _ _ _ _ _)
    · rfl

/-- An event of a sampling source counts in TALLY's registers (R469). -/
theorem shows_sample (src : Nat) (tenant : Option Nat) : Shows d (d.sample src tenant) := by
  unfold Dev.sample
  split
  · rfl
  · exact List.foldlRecOn (motive := Shows d) _ _ (Shows.refl d) fun e he i _ => he.trans (shows_sampleAt e _ _ _)

/-- A field of another register than the one set stays. -/
theorem fget_fset_of_ne {f g : FRef} {n m : Nat} (v : Nat) (h : regAddr g.blk m g.off ≠ regAddr f.blk n f.off) :
    (d.fset f v n).fget g m = d.fget g m := by
  rw [Dev.fget, Dev.fset, reg_setReg_other _ _ _ _ _ _ _ _ h, Dev.fget]

/-- So does one of another register than LEDGER_OCC when LEDGER shows its occupancy. -/
theorem fget_showLedger_of_ne {g : FRef} {m : Nat} (h : regAddr g.blk m g.off ≠ regAddr 0x11 0 0x240) :
    d.showLedger.fget g m = d.fget g m := by
  unfold Dev.showLedger
  exact (fget_fset_of_ne _ _ h).trans ((fget_fset_of_ne _ _ h).trans (fget_fset_of_ne _ _ h))

end Sys2Proof.Proofs
end

section
/-! SUPPORT. LEDGER: what admitting a waiting command comes to, and what a tenant update reads (R166 to R179). -/

namespace Sys2Proof.Proofs

open Sys2Proof.Machine Sys2Proof.Laws

variable (d : Dev)

/-! ### Admission -/

/-- A place taken over moves the slots of others; the admission that took it stays, and so does all but the admissions
(R167, R170). -/
theorem displace_spec (n : Nat) :
    d.displace n = { d with ledger := { d.ledger with adms := (d.displace n).ledger.adms } } ∧
      Tab.look (d.displace n).ledger.adms n = Tab.look d.ledger.adms n := by
  unfold Dev.displace
  split
  · exact ⟨rfl, rfl⟩
  · refine List.foldlRecOn (motive := fun e : Dev => e = { d with ledger := { d.ledger with adms := e.ledger.adms } } ∧
      Tab.look e.ledger.adms n = Tab.look d.ledger.adms n) _ _ ⟨rfl, rfl⟩ ?_
    rintro e ⟨he, hn⟩ p -
    dsimp only
    split
    · exact ⟨he, hn⟩
    · next hhit =>
      have hpn : n ≠ p.1 := by
        rintro rfl
        simp at hhit
      refine ⟨?_, ?_⟩
      · rw [he]
      · rw [look_put_other _ _ _ _ hpn, hn]

/-- Counting an event, with its sampling source, and showing a maximum. -/
theorem shows_counted (f : FRef) (src : Nat) (tenant : Option Nat) (g : FRef) (v : Nat) :
    Shows d (((d.bump f).sample src tenant).raiseTo g v) :=
  ((shows_bump d f 1 0).trans (shows_sample _ src tenant)).trans (shows_raiseTo _ g v 0)

/-- An admission is charged to the ledger, and displaces what it was placed over (R166, R176). -/
theorem take_spec (c : Admission) (defs : List (Nat × Nat)) (waited : Nat) :
    ∃ e : Dev, e.pitch = d.pitch ∧ e.ledger = d.charged { c with deadline := d.deadlineOf c } defs ∧
      (d.take c defs waited).2 = ((e.displace d.ledger.nextAdm).showStaging).showLedger := by
  unfold Dev.take
  dsimp only
  refine ⟨_, ?_, ?_, rfl⟩
  · exact (shows_counted _ _ _ _ _ _).pitch
  · exact (shows_counted _ _ _ _ _ _).ledger

theorem take_fst (c : Admission) (defs : List (Nat × Nat)) (waited : Nat) :
    (d.take c defs waited).1 = d.ledger.nextAdm := rfl

/-- Taking an admission touches PITCH not at all. -/
theorem take_pitch (c : Admission) (defs : List (Nat × Nat)) (waited : Nat) : (d.take c defs waited).2.pitch = d.pitch := by
  obtain ⟨e, hp, -, ht⟩ := take_spec d c defs waited
  rw [ht]
  show (e.displace d.ledger.nextAdm).pitch = d.pitch
  rw [(displace_spec e _).1, hp]

/-- It leaves what waits, and numbers the next admission. -/
theorem take_ledger (c : Admission) (defs : List (Nat × Nat)) (waited : Nat) :
    (d.take c defs waited).2.ledger.waiting = d.ledger.waiting ∧
      (d.take c defs waited).2.ledger.nextAdm = (d.ledger.nextAdm + 1) % 2 ^ 32 ∧
      Tab.look (d.take c defs waited).2.ledger.adms d.ledger.nextAdm = some { c with deadline := d.deadlineOf c } := by
  obtain ⟨e, -, he, ht⟩ := take_spec d c defs waited
  obtain ⟨hd, hl⟩ := displace_spec e d.ledger.nextAdm
  rw [ht]
  show (e.displace d.ledger.nextAdm).ledger.waiting = _ ∧ (e.displace d.ledger.nextAdm).ledger.nextAdm = _ ∧
    Tab.look (e.displace d.ledger.nextAdm).ledger.adms _ = _
  refine ⟨?_, ?_, ?_⟩
  · rw [hd, he]; rfl
  · rw [hd, he]; rfl
  · rw [hl, he]
    exact look_put_self _ _ _

/-! ### What LEDGER does with what waits (R178, R179) -/

theorem find?_eq_none_of_any {α : Type} {p : α → Bool} {l : List α} (h : l.any p = false) : l.find? p = none := by
  simpa [List.find?_eq_none] using h

section
variable {d}

/-- A head whose key slot is at its hard limit is refused first. -/
theorem admitWaiting_hard {r : Nat × Admission} (hs : d.serves 0x11 = true)
    (hr : d.heads.find? (fun p => d.keyHard p.2.nsh p.2.kind p.2.units) = some r) :
    d.admitWaiting = (d.unqueue r.1).admitReady r.2 0x12 0 := by
  simp [Dev.admitWaiting, hs, hr]

/-- Else the head served next is admitted. -/
theorem admitWaiting_served {r : Nat × Admission × List (Nat × Nat)} (hs : d.serves 0x11 = true)
    (hk : d.heads.any (fun p => d.keyHard p.2.nsh p.2.kind p.2.units) = false) (hr : d.serveNext d.heads = some r) :
    ∃ w, d.admitWaiting = if r.2.1.miss.isSome then ((d.unqueue r.1).take r.2.1 r.2.2 w).2
      else ((d.unqueue r.1).take r.2.1 r.2.2 w).2.admitReady r.2.1 0 d.ledger.nextAdm := by
  refine ⟨d.now - (((d.ledger.waiting[r.1]?).map (·.since)).getD d.now), ?_⟩
  simp only [Dev.admitWaiting, hs, find?_eq_none_of_any hk, hr, take_fst]
  rfl

/-- Else the first head of a fail-fast tenant is refused. -/
theorem admitWaiting_failFast {r : Nat × Admission} (hs : d.serves 0x11 = true)
    (hk : d.heads.any (fun p => d.keyHard p.2.nsh p.2.kind p.2.units) = false) (hn : d.serveNext d.heads = none)
    (hr : d.heads.find? (fun p => d.failFast p.2.tenant && !d.psDefers) = some r) :
    d.admitWaiting = (((d.unqueue r.1).bump Reg.LEDGER_WAIT.FAILFAST).doom r.2.tag 0 0x21).admitReady r.2 0x10 0 := by
  simp [Dev.admitWaiting, hs, find?_eq_none_of_any hk, hn, hr]

/-- Else nothing happens. -/
theorem admitWaiting_idle (h : d.serves 0x11 = false ∨
    (d.heads.any (fun p => d.keyHard p.2.nsh p.2.kind p.2.units) = false ∧ d.serveNext d.heads = none ∧
      d.heads.any (fun p => d.failFast p.2.tenant && !d.psDefers) = false)) : d.admitWaiting = d := by
  rcases h with hs | ⟨hk, hn, hf⟩
  · simp [Dev.admitWaiting, hs]
  · simp only [Dev.admitWaiting, find?_eq_none_of_any hk, hn, find?_eq_none_of_any hf, ite_self]

end

theorem unqueue_pitch (n : Nat) : (d.unqueue n).pitch = d.pitch := rfl

/-- An event enters the queue while it has room and no source holds one (R113). -/
theorem event_queue (e : PEvent) (hq : d.pitch.queue.length < 8192) (hh : d.pitch.held = []) :
    (d.event e).pitch.queue = d.pitch.queue ++ [e] := by
  rw [Dev.event, if_pos ⟨hq, hh⟩]
  rfl

theorem admitReady_ledger (c : Admission) (result admId : Nat) : (d.admitReady c result admId).ledger = d.ledger :=
  event_ledger _ _

/-! ### Tenant entries (R168, R169) -/

/-- Showing the tenant of an update moves no register but LEDGER_TEN_UPDATE. -/
theorem fget_tenUpdate {g : FRef} {m : Nat} (t : Nat) (h : regAddr g.blk m g.off ≠ regAddr 0x11 0 0x218) :
    (d.fset Reg.LEDGER_TEN_UPDATE.TENANT t).fget g m = d.fget g m :=
  fget_fset_of_ne d t h

/-- Registers of the blocks above LEDGER lie above LEDGER_TEN_UPDATE (R53). -/
theorem regAddr_ne_tenUpdate {blk : Nat} (n off : Nat) (h : 0x12 ≤ blk) : regAddr blk n off ≠ regAddr 0x11 0 0x218 := by
  have ht : regAddr 0x11 0 0x218 = 0x1100218 := by decide
  rw [ht, regAddr, instBase]
  split <;> omega

/-- The entry in DRAM is read as before. -/
theorem readTenant_tenUpdate (t k : Nat) : (d.fset Reg.LEDGER_TEN_UPDATE.TENANT t).readTenant k = d.readTenant k := by
  have ha : (d.fset Reg.LEDGER_TEN_UPDATE.TENANT t).fget Reg.LEDGER_TEN_TAB.ADDR = d.fget Reg.LEDGER_TEN_TAB.ADDR :=
    fget_tenUpdate d t (by decide)
  simp only [Dev.readTenant, ha, fset_mem]

/-- So is the read capacity. -/
theorem readCapacity_tenUpdate (t : Nat) : (d.fset Reg.LEDGER_TEN_UPDATE.TENANT t).readCapacity = d.readCapacity := by
  have ho (n c : Nat) : (d.fset Reg.LEDGER_TEN_UPDATE.TENANT t).owns n c = d.owns n c := by
    rw [Dev.owns, fget_tenUpdate d t (regAddr_ne_tenUpdate n _ (by decide)), Dev.owns]
  have hc (n : Nat) : (d.fset Reg.LEDGER_TEN_UPDATE.TENANT t).chNs n = d.chNs n := by
    simp only [Dev.chNs, ho]
    rfl
  simp only [Dev.readCapacity, ho, hc]
  rfl

theorem slotsOf_tenUpdate (t : Nat) (ts : List Nat) : (d.fset Reg.LEDGER_TEN_UPDATE.TENANT t).slotsOf ts = d.slotsOf ts := by
  have hs (k : Nat) : (d.fset Reg.LEDGER_TEN_UPDATE.TENANT t).fget (Reg.PITCH_BUDGET.SLOTS.nth k) =
      d.fget (Reg.PITCH_BUDGET.SLOTS.nth k) :=
    fget_tenUpdate d t (regAddr_ne_tenUpdate (blk := 0x13) 0 _ (by decide))
  simp only [Dev.slotsOf, hs]

theorem engineCap_tenUpdate (t : Nat) : (d.fset Reg.LEDGER_TEN_UPDATE.TENANT t).engineCap = d.engineCap := by
  have he : (d.fset Reg.LEDGER_TEN_UPDATE.TENANT t).fget Reg.PITCH_CTRL.CLUSTER_EN = d.fget Reg.PITCH_CTRL.CLUSTER_EN :=
    fget_tenUpdate d t (by decide)
  have hp : (d.fset Reg.LEDGER_TEN_UPDATE.TENANT t).fget Reg.LEDGER_CFG.ENG_PCT = d.fget Reg.LEDGER_CFG.ENG_PCT :=
    fget_tenUpdate d t (by decide)
  have hr : (d.fset Reg.LEDGER_TEN_UPDATE.TENANT t).clusterRuns = d.clusterRuns := by
    funext c
    simp only [Dev.clusterRuns, Dev.clusterOn, he]
    rfl
  simp only [Dev.engineCap, hr, hp]

theorem dirtyBudget_tenUpdate (t : Nat) : (d.fset Reg.LEDGER_TEN_UPDATE.TENANT t).dirtyBudget = d.dirtyBudget := by
  have hb : (d.fset Reg.LEDGER_TEN_UPDATE.TENANT t).fget Reg.MAP_CFG.BUF_MODE = d.fget Reg.MAP_CFG.BUF_MODE :=
    fget_tenUpdate d t (by decide)
  have hp : (d.fset Reg.LEDGER_TEN_UPDATE.TENANT t).fget Reg.ROPE_PAIR.PAIRED = d.fget Reg.ROPE_PAIR.PAIRED :=
    fget_tenUpdate d t (by decide)
  have hm : (d.fset Reg.LEDGER_TEN_UPDATE.TENANT t).fget Reg.MAP_MIRROR.PCT = d.fget Reg.MAP_MIRROR.PCT :=
    fget_tenUpdate d t (by decide)
  simp only [Dev.dirtyBudget, hb, hp, hm]

/-- So the check of a whole table has the same result. -/
theorem tenantsCheck_tenUpdate (t : Nat) (ts : Tab LedgerTenant) :
    (d.fset Reg.LEDGER_TEN_UPDATE.TENANT t).tenantsCheck ts = d.tenantsCheck ts := by
  have hr : (d.fset Reg.LEDGER_TEN_UPDATE.TENANT t).fget Reg.LEDGER_CFG.RSV_PCT = d.fget Reg.LEDGER_CFG.RSV_PCT :=
    fget_tenUpdate d t (by decide)
  have hb : (d.fset Reg.LEDGER_TEN_UPDATE.TENANT t).fget Reg.LEDGER_CFG.BELAY_PCT = d.fget Reg.LEDGER_CFG.BELAY_PCT :=
    fget_tenUpdate d t (by decide)
  simp only [Dev.tenantsCheck, Dev.tenantsFit, hr, hb, readCapacity_tenUpdate, slotsOf_tenUpdate, engineCap_tenUpdate,
    dirtyBudget_tenUpdate]

/-- The results of a table check fit RESULT. -/
theorem tenantsCheck_lt (ts : Tab LedgerTenant) : d.tenantsCheck ts < 256 := by
  unfold Dev.tenantsCheck
  split
  · decide
  · split
    · decide
    · split <;> decide

/-- How an update ends: the table `ts` comes into force where the result is 0, and RESULT shows it (R169). -/
def tenEnds (t res : Nat) (ts : Tab LedgerTenant) : Dev :=
  let e := d.fset Reg.LEDGER_TEN_UPDATE.TENANT t
  let e := if res = 0 then { e with ledger := { e.ledger with tenants := ts } } else e
  (e.fset Reg.LEDGER_TEN_UPDATE.RESULT res).post 0x11 0 0x30 (t * 65536 + res)

theorem tenEnds_ledger (t res : Nat) (ts : Tab LedgerTenant) :
    (tenEnds d t res ts).ledger = if res = 0 then { d.ledger with tenants := ts } else d.ledger := by
  rw [tenEnds, post_ledger, fset_ledger]
  split <;> rfl

theorem tenEnds_result (t res : Nat) (ts : Tab LedgerTenant) (h : res < 256) :
    (tenEnds d t res ts).fget Reg.LEDGER_TEN_UPDATE.RESULT = res := by
  rw [tenEnds, Dev.fget, reg_post_other _ _ _ _ _ _ _ _ (by decide) (by decide)]
  exact (fget_fset _ Reg.LEDGER_TEN_UPDATE.RESULT res 0 (by decide) (by decide)).trans (Nat.mod_eq_of_lt h)

section
variable {d} {t : Nat} (hb : d.fget Reg.LEDGER_TEN_UPDATE.BUSY = 0) (ho : d.on 0x11 = true)
include hb ho

/-- An entry that reads well is put in the table, with no more tokens than it may hold. -/
theorem tenUpdate_entry {n m : LedgerTenant} (hr : d.readTenant t = .ok (some n))
    (hm : m = { n with
      readTok := min ((Tab.look d.ledger.tenants t).getD n).readTok (n.readRsv * n.burst * 1000000)
      writeTok := min ((Tab.look d.ledger.tenants t).getD n).writeTok (n.writeRsv * n.burst * 1000000) }) :
    d.tenUpdate t = tenEnds d t (d.tenantsCheck (Tab.put d.ledger.tenants t m)) (Tab.put d.ledger.tenants t m) := by
  simp only [Dev.tenUpdate, hb, ho, readTenant_tenUpdate, hr, tenantsCheck_tenUpdate, fset_ledger, hm]
  rfl

/-- An entry that is not valid leaves the table. -/
theorem tenUpdate_none (hr : d.readTenant t = .ok none) :
    d.tenUpdate t = tenEnds d t (d.tenantsCheck (Tab.del d.ledger.tenants t)) (Tab.del d.ledger.tenants t) := by
  simp only [Dev.tenUpdate, hb, ho, readTenant_tenUpdate, hr, tenantsCheck_tenUpdate, fset_ledger]
  rfl

/-- One that reads badly has its result. -/
theorem tenUpdate_error {r : Nat} (hr : d.readTenant t = .error r) :
    d.tenUpdate t = tenEnds d t r d.ledger.tenants := by
  simp only [Dev.tenUpdate, hb, ho, readTenant_tenUpdate, hr, fset_ledger]
  rfl

end

/-- An update while one is under way, or out of service, does nothing. -/
theorem tenUpdate_idle (t : Nat) (h : d.fget Reg.LEDGER_TEN_UPDATE.BUSY = 1 ∨ d.on 0x11 = false) : d.tenUpdate t = d := by
  rw [Dev.tenUpdate, if_pos (by simpa using h)]

end Sys2Proof.Proofs
end

section
/-! SUPPORT. The commit cycle: its boundary and the sealing of a cycle (R14, R26, R27, R64, R168, R188, R398). -/

namespace Sys2Proof.Proofs

open Sys2Proof.Machine Sys2Proof.Laws

variable (d : Dev)

/-! ### The boundary -/

/-- A block without a swap that is ready takes none at the boundary. -/
theorem boundarySwap_idle (blk at_ : Nat) (h : (d.inst blk 0).swapReady = false) : d.boundarySwap blk at_ = d := by
  simp [Dev.boundarySwap, h]

theorem pitchBoundary_idle (hp : d.pitch.pause = none) (h : (d.inst 0x13 0).swapReady = false) : d.pitchBoundary = d := by
  simp [Dev.pitchBoundary, hp, h]

theorem blyBoundary_idle (hp : d.belay.pairNext = false) (hj : d.belay.joinWaits = false) : d.blyBoundary = d := by
  simp [Dev.blyBoundary, hp, hj]

theorem heldActs_idle (blk n : Nat) (h : (d.inst blk n).heldDisable = false) : d.heldActs blk n = d := by
  simp [Dev.heldActs, h]

/-- LEDGER's part of a boundary, with the caps that the registers give (R14, R168, R188, R189). -/
def boundaryLedger : Ledger :=
  { d.ledger with
    closed := false, g1Bytes := 0, belayBytes := 0
    belayDebt := d.ledger.belayBytes + d.ledger.belayDebt - d.belayCap
    tenants := d.ledger.tenants.map fun p => (p.1, p.2.refill d.cycleNs) }

/-- The instant of the boundary: the next multiple of the cycle length, or where network time has jumped to (R14). -/
def boundaryAt : Nat :=
  if d.now / d.cycleNs % 2 ^ 48 = d.cycle then (d.now / d.cycleNs + 1) * d.cycleNs else d.now

/-- The device with network time at the boundary, and its cycle shown. -/
def atBoundary (t : Tim) : Dev := Dev.fset { d with tim := t } Reg.ROPE_CUR_CYCLE.CYCLE (boundaryAt d / d.cycleNs)

/-- A field of a register other than ROPE_CUR_CYCLE stays at a boundary. -/
theorem fget_atBoundary (t : Tim) {g : FRef} {m : Nat} (h : regAddr g.blk m g.off ≠ regAddr 0x12 0 0x218) :
    (atBoundary d t).fget g m = d.fget g m :=
  fget_fset_of_ne _ _ h

theorem boundaryLedger_atBoundary (t : Tim) : boundaryLedger (atBoundary d t) = boundaryLedger d := by
  have hc : (atBoundary d t).cycleNs = d.cycleNs := fget_atBoundary d t (by decide)
  have hp : (atBoundary d t).fget Reg.LEDGER_CFG.BELAY_PCT = d.fget Reg.LEDGER_CFG.BELAY_PCT :=
    fget_atBoundary d t (by decide)
  have hb : (atBoundary d t).fget Reg.BLY_STATUS.PHYS = d.fget Reg.BLY_STATUS.PHYS := fget_atBoundary d t (by decide)
  simp only [boundaryLedger, Dev.belayCap, hc, hp, hb]
  rfl

/-- Network time reaches the instant of the boundary. -/
theorem jump_boundary (hc : 1 ≤ d.cycleNs) : ∃ t : Tim, t.ns = boundaryAt d ∧
    (if d.now / d.cycleNs % 2 ^ 48 = d.cycle then d.jumpTo ((d.now / d.cycleNs + 1) * d.cycleNs) else d) =
      { d with tim := t } := by
  have hlt : d.now < (d.now / d.cycleNs + 1) * d.cycleNs := by
    rw [Nat.mul_comm]
    exact Nat.lt_mul_div_succ _ hc
  unfold boundaryAt
  split
  · rw [Dev.jumpTo, if_pos hlt]
    exact ⟨_, rfl, rfl⟩
  · exact ⟨d.tim, rfl, rfl⟩

/-- A boundary at which no swap, join or held disable waits is its instant, its cycle and LEDGER's part. -/
theorem commitBoundary_plain (h11 : (d.inst 0x11 0).swapReady = false) (h12 : (d.inst 0x12 0).swapReady = false)
    (h13 : (d.inst 0x13 0).swapReady = false) (hh : (d.inst 0x13 0).heldDisable = false) (hp : d.pitch.pause = none)
    (hn : d.belay.pairNext = false) (hj : d.belay.joinWaits = false) (hc : 1 ≤ d.cycleNs) :
    ∃ t : Tim, t.ns = boundaryAt d ∧ d.commitBoundary = (atBoundary d t).ledgerBoundary := by
  obtain ⟨t, ht, hjump⟩ := jump_boundary d hc
  refine ⟨t, ht, ?_⟩
  have hlen : max 1 d.cycleNs = d.cycleNs := Nat.max_eq_right hc
  have hlen' : max 1 ({ d with tim := t } : Dev).cycleNs = d.cycleNs := hlen
  have hnow : ({ d with tim := t } : Dev).now = boundaryAt d := ht
  have hswap {blk : Nat} (h : (d.inst blk 0).swapReady = false) (a : Nat) :
      ({ d with tim := t } : Dev).boundarySwap blk a = { d with tim := t } := boundarySwap_idle _ blk a h
  have hbly : (atBoundary d t).ledgerBoundary.blyBoundary = (atBoundary d t).ledgerBoundary := blyBoundary_idle _ hn hj
  have hpit : (atBoundary d t).ledgerBoundary.pitchBoundary = (atBoundary d t).ledgerBoundary :=
    pitchBoundary_idle _ hp h13
  have hheld : (atBoundary d t).ledgerBoundary.heldActs 0x13 0 = (atBoundary d t).ledgerBoundary :=
    heldActs_idle _ _ _ hh
  simp only [Dev.commitBoundary, hlen, hjump, hswap h11, hswap h12, hnow, hlen']
  show (atBoundary d t).ledgerBoundary.blyBoundary.pitchBoundary.heldActs 0x13 0 = _
  rw [hbly, hpit, hheld]

/-! ### Sealing a cycle -/

/-- A frame sent is BELAY's alone. -/
theorem bsend_belay (f : BFrame) : ∃ b, d.bsend f = { d with belay := b } := by
  unfold Dev.bsend
  split
  · exact ⟨_, rfl⟩
  · exact ⟨_, rfl⟩

/-- So is a section. -/
theorem sendSection_belay (c sec : Nat) (bs : List Byte) : ∃ b, d.sendSection c sec bs = { d with belay := b } := by
  unfold Dev.sendSection
  refine List.foldlRecOn (motive := fun e : Dev => ∃ b, e = { d with belay := b }) _ _ ⟨_, rfl⟩ ?_
  rintro e ⟨b, rfl⟩ i -
  exact bsend_belay _ _

section
variable {d}

/-- Nothing is sealed unless a cycle that has ended stands ready. -/
theorem bundleSeal_idle (h : d.on 0x12 = false ∨ d.quiet = true ∨ d.claimsPending = true ∨
    cycLe d.cycle d.belay.nextSeal = true ∨ d.cycleSealed d.belay.nextSeal = false) : d.bundleSeal = d := by
  rw [Dev.bundleSeal]
  dsimp only
  rw [if_pos]
  rcases h with h | h | h | h | h <;> simp [h]

variable (hon : d.on 0x12 = true) (hq : d.quiet = false) (hcl : d.claimsPending = false)
  (hle : cycLe d.cycle d.belay.nextSeal = false) (hsd : d.cycleSealed d.belay.nextSeal = true)
include hon hq hcl hle hsd

/-- Unpaired, a sealed cycle is released (R27). -/
theorem bundleSeal_unpaired (hp : d.fget Reg.ROPE_PAIR.PAIRED = 0) (hb : d.belay.bundling = false) :
    d.bundleSeal = (d.modBelay fun b => { b with
      nextSeal := cycAdd d.belay.nextSeal 1, jseqSent := d.fget Reg.JNL_HEAD.JSEQ
      effects := b.effects.filter fun e => cycLt d.belay.nextSeal e.cycle }).releaseUnpaired d.belay.nextSeal := by
  have hp' : ∀ b, ({ d with belay := b } : Dev).fget Reg.ROPE_PAIR.PAIRED = 0 := fun _ => hp
  simp [Dev.bundleSeal, hon, hq, hcl, hle, hsd, hp, hb, Dev.modBelay, hp']

/-- Paired, it goes to the partner: an outgoing bundle of the cycle waits for its confirmation (R398). -/
theorem bundleSeal_paired (hp : d.fget Reg.ROPE_PAIR.PAIRED = 1) (h19 : d.on 0x19 = true) :
    ∃ b : Belay, d.bundleSeal = { d with belay := b, map := { d.map with released := [] } } ∧
      b.nextSeal = cycAdd d.belay.nextSeal 1 ∧ ∃ o ∈ b.out, o.cycle = d.belay.nextSeal := by
  have hen : d.isEnabled 0x19 = true := by
    simp only [Dev.on, Bool.and_eq_true] at h19
    exact h19.1
  simp only [Dev.bundleSeal, hon, hq, hcl, hle, hsd, hp, hen]
  obtain ⟨b0, h0⟩ := sendSection_belay d d.belay.nextSeal 0 (d.metaSection d.belay.nextSeal (d.ownRecords d.belay.jseqSent)
    [(d.writeSection d.belay.nextSeal 1).length, (d.writeSection d.belay.nextSeal 2).length,
      (d.writeSection d.belay.nextSeal 3).length])
  obtain ⟨b1, h1⟩ := sendSection_belay { d with belay := b0 } d.belay.nextSeal 1 (d.writeSection d.belay.nextSeal 1)
  obtain ⟨b2, h2⟩ := sendSection_belay { d with belay := b1 } d.belay.nextSeal 2 (d.writeSection d.belay.nextSeal 2)
  obtain ⟨b3, h3⟩ := sendSection_belay { d with belay := b2 } d.belay.nextSeal 3 (d.writeSection d.belay.nextSeal 3)
  rw [h0, h1, h2, h3]
  split
  · next h => simp at h
  · split
    · split
      · exact ⟨_, rfl, rfl, _, List.mem_append_right _ List.mem_cons_self, rfl⟩
      · next h => exact absurd hp h
    · next h => simp at h

end

/-- With no commands outstanding nothing held is released. -/
theorem releaseHeld_none (h : d.hostq.tags = []) : d.releaseHeld = d := by
  simp [Dev.releaseHeld, h]

/-- The ledger once every section up to the cycle counts as confirmed. -/
def confirmedTo (c : Nat) : Ledger :=
  { d.ledger with
    confirmed := cycMax d.ledger.confirmed (cycAdd c 1), confirmed1 := cycMax d.ledger.confirmed1 (cycAdd c 1)
    confirmed2 := cycMax d.ledger.confirmed2 (cycAdd c 1) }

/-- The unpaired rule confirms every section up to the cycle; with no commands outstanding only their units follow (R27). -/
theorem releaseUnpaired_eq (c : Nat) (h : d.hostq.tags = []) :
    d.releaseUnpaired c = ({ d with ledger := confirmedTo d c } : Dev).unitsDirty c none :=
  releaseHeld_none _ h

end Sys2Proof.Proofs
end

section
/-! SUPPORT. The map's entries: how they read after a write of one, and what leaves them as they are (R191, R193). -/

namespace Sys2Proof.Proofs

open Sys2Proof.Machine Sys2Proof.Laws

variable (d : Dev)

/-- An entry depends on the entries alone. -/
theorem entryAt_congr {e : Dev} (h : e.map.entries = d.map.entries) (k : Nat) : e.entryAt k = d.entryAt k := by
  rw [Dev.entryAt, h, Dev.entryAt]

/-- An entry reads back as it was set; DEALLOC is no entry at all (R193). -/
theorem entryAt_setEntry_self (key e : Nat) : (d.setEntry key e).entryAt key = e := by
  show (Tab.look (if e = entDealloc then Tab.del d.map.entries key else Tab.put d.map.entries key e) key).getD entDealloc = e
  split
  · next h => rw [look_del_self, h]; rfl
  · rw [look_put_self]; rfl

theorem entryAt_setEntry_other {key k : Nat} (e : Nat) (h : k ≠ key) : (d.setEntry key e).entryAt k = d.entryAt k := by
  show (Tab.look (if e = entDealloc then Tab.del d.map.entries key else Tab.put d.map.entries key e) k).getD entDealloc = _
  split
  · rw [look_del_other _ _ _ h]; rfl
  · rw [look_put_other _ _ _ _ h]; rfl

theorem setEntry_staging (key e : Nat) : (d.setEntry key e).map.staging = d.map.staging := rfl

/-- Remembering when a copy ended changes neither entries nor units (R217). -/
theorem endCopy_map (e : Nat) :
    (d.endCopy e).map.entries = d.map.entries ∧ (d.endCopy e).map.staging = d.map.staging := by
  unfold Dev.endCopy
  split <;> exact ⟨rfl, rfl⟩

/-- Nor does appending a journal record, or having it wait for room (R222). -/
theorem append_entries (typ flags nsh body : Nat) (act : JAct) :
    (d.append typ flags nsh body act).1.map.entries = d.map.entries := by
  unfold Dev.append
  dsimp only
  generalize (if typ ≠ 4 ∧ typ ≠ 5 ∧ d.partnerNs nsh = true then 1 else flags) = fl
  generalize decide ((typ = 4 ∨ typ = 5) ∧ fl = 0) = ckpt
  generalize (if ckpt = true then ringLen else ringLen - 2) = room
  split
  · split <;> split <;> cases d.map.stalled <;> rfl
  · rw [(shows_sample _ _ _).map]
    split <;> rfl

/-- With 4 KiB map units a range of one block is one unit (R191). -/
theorem mapSpan_one (h : d.fget Reg.MAP_CFG.UNIT = 0) : d.mapSpan = 1 := by
  simp [Dev.mapSpan, h]

theorem unitsOf_one (h : d.mapSpan = 1) (slba : Nat) : d.unitsOf slba 1 = [slba] := by
  simp [Dev.unitsOf, Dev.unitOf, h, List.range_succ]

end Sys2Proof.Proofs
end

section
/-! SUPPORT. Range locks: granting an entry, and what applying a granted one does to the map (R181, R183, R186, R187). -/

namespace Sys2Proof.Proofs

open Sys2Proof.Machine Sys2Proof.Laws

variable {d : Dev}

/-! ### Granting -/

/-- The device once the entry at `i` is granted and LOCK_GRANTED is posted. -/
def granted (d : Dev) (i : Nat) (l : Lock) : Dev :=
  Dev.event { d with rope := { d.rope with locks := Tab.put d.rope.locks i { l with granted := true } } }
    { typ := 0x04, gen := some l.gen, words := descriptor 0x04 64 l.tenant l.nsh l.ctx l.cmdref l.rope 0 [i % 65536] }

/-- A waiting entry that nothing lower blocks is granted, and applied where MAP has done so. -/
theorem grant_waiting {i : Nat} {l : Lock} (hl : Tab.look d.rope.locks i = some l) (hw : l.granted = false)
    (hg : d.grantable l = true) (applied : Bool) :
    d.grant i applied = if applied then (granted d i l).applyEntry i else granted d i l := by
  simp [Dev.grant, hl, hw, hg, granted, evLockGranted]

/-- A granted entry is applied. -/
theorem grant_granted {i : Nat} {l : Lock} (hl : Tab.look d.rope.locks i = some l) (hg : l.granted = true) :
    d.grant i true = d.applyEntry i := by
  simp [Dev.grant, hl, hg]

/-- A blocked entry waits on, and one that is not applied, or holds a namespace, stays as it is. -/
theorem grant_stays {i : Nat} {l : Lock} {applied : Bool} (hl : Tab.look d.rope.locks i = some l)
    (h : l.granted = false ∧ d.grantable l = false ∨ l.granted = true ∧ (applied = false ∨ l.kind ∈ [.flush, .nswide])) :
    d.grant i applied = d := by
  rcases h with ⟨hw, hb⟩ | ⟨hg, rfl | hk⟩
  · simp [Dev.grant, hl, hw, hb]
  · simp [Dev.grant, hl, hg]
  · have he : d.applyEntry i = d := by
      rcases List.mem_pair.mp hk with hk | hk <;> simp [Dev.applyEntry, hl, hk]
    simp [Dev.grant, hl, hg, he]

theorem grant_none {i : Nat} (applied : Bool) (hl : Tab.look d.rope.locks i = none) : d.grant i applied = d := by
  simp [Dev.grant, hl]

/-! ### Applying -/

/-- The trace ring lies in DRAM: tracing an entry leaves the map (R187). -/
theorem trace_map (l : Lock) : (d.trace l).map = d.map := by
  unfold Dev.trace
  dsimp only
  split
  · rfl
  · split
    · exact post_map _ _ _ _ _
    · rfl

theorem freeLockAt_map (i : Nat) : (d.freeLockAt i).map = d.map := rfl

/-- A freed entry is free. -/
theorem look_freeLockAt (i : Nat) : Tab.look (d.freeLockAt i).rope.locks i = none :=
  look_del_self _ _

/-- A granted entry that is no FLUSH or NSWIDE does its work on the map, at its admission's cycle and grade, and is freed;
what it notes for BELAY aside, the map becomes what `applyRange` makes of it. -/
theorem applyEntry_granted {i : Nat} {l : Lock} (hl : Tab.look d.rope.locks i = some l) (hg : l.granted = true)
    (hf : l.kind ≠ .flush) (hn : l.kind ≠ .nswide) :
    ∃ b cycle grade, Tab.look (d.applyEntry i).rope.locks i = none ∧
      (d.applyEntry i).map = (({ d with belay := b } : Dev).applyRange (tagKey l.ctx l.cmdref) l cycle grade).map := by
  have happ : ∃ b cycle grade, d.applyEntry i =
      ((({ d with belay := b } : Dev).applyRange (tagKey l.ctx l.cmdref) l cycle grade).trace l).freeLockAt i := by
    rw [Dev.applyEntry, hl]
    dsimp only
    rw [if_neg (by simp [hg, hf, hn])]
    split
    · exact ⟨_, _, _, rfl⟩
    · exact ⟨d.belay, _, _, rfl⟩
  obtain ⟨b, cycle, grade, h⟩ := happ
  exact ⟨b, cycle, grade, by rw [h, look_freeLockAt], by rw [h, freeLockAt_map, trace_map]⟩

/-- Without commands outstanding no entry belongs to a Write Zeroes. -/
theorem sqeOp_none (h : d.hostq.tags = []) (tag : Nat) : d.sqeOp tag = (0, false) := by
  simp [Dev.sqeOp, h, Tab.look]

theorem applyRange_write {l : Lock} (hk : l.kind = .write) (ht : d.hostq.tags = []) (tag cycle grade : Nat) :
    d.applyRange tag l cycle grade = d.applyWrite tag l.nsh l.slba l.nblk l.rope cycle := by
  simp [Dev.applyRange, hk, sqeOp_none ht]

theorem applyRange_dealloc {l : Lock} (hk : l.kind = .dealloc) (ht : d.hostq.tags = []) (tag cycle grade : Nat) :
    d.applyRange tag l cycle grade = d.deallocUnits l.nsh (d.wholeUnits l.slba l.nblk).1 cycle := by
  simp [Dev.applyRange, hk, sqeOp_none ht]

theorem applyRange_read {l : Lock} (hk : l.kind = .read) (tag cycle grade : Nat) :
    d.applyRange tag l cycle grade = d.redirect tag := by
  simp [Dev.applyRange, hk]

/-! ### A write of one unit -/

/-- With 4 KiB units a block is its own unit. -/
theorem unitOf_one (h : d.mapSpan = 1) (lba : Nat) : d.unitOf lba = lba := by
  simp [Dev.unitOf, h]

/-- A staged unit once the entry under `key` names its group `g` (R181, R211). -/
def namedBy (d : Dev) (key g rope : Nat) (u : SUnit) : SUnit :=
  { u with group := g, former := d.formerOf (d.entryAt key), replaced := d.entryAt key
           rec_ := { u.rec_ with wgen := rope } }

/-- The write's one staged unit becomes what the block's entry names, with the write's generation (R181, R193, R211). -/
theorem stageUnit_single {g : Nat} {u : SUnit} (hs : d.map.staging = [(g, u)]) (nsh slba rope cycle : Nat) :
    ∃ e : Dev, e.map.entries = d.map.entries ∧ e.map.staging = [(g, namedBy d (unitKey nsh slba) g rope u)] ∧
      d.stageUnit nsh slba rope cycle [g] = e.setEntry (unitKey nsh slba) (entStaged g rope) := by
  refine ⟨Dev.endCopy { d with map := { d.map with staging := [(g, namedBy d (unitKey nsh slba) g rope u)] } }
    (d.entryAt (unitKey nsh slba)), (endCopy_map _ _).1, (endCopy_map _ _).2, ?_⟩
  simp [Dev.stageUnit, hs, namedBy]

/-- So a write of one block whose data is staged points the block's entry at the unit. -/
theorem applyWrite_single {g : Nat} {u : SUnit} {tag slba : Nat} (hsp : d.mapSpan = 1) (hs : d.map.staging = [(g, u)])
    (ht : u.tag = some tag) (hz : u.rec_.zrange = false) (hu : u.rec_.lba = slba) (nsh rope cycle : Nat) :
    d.applyWrite tag nsh slba 1 rope cycle = d.stageUnit nsh slba rope cycle [g] := by
  simp [Dev.applyWrite, unitsOf_one d hsp, hs, ht, hz, hu, unitOf_one hsp]

/-! ### A deallocation of one unit -/

theorem wholeUnits_one (hsp : d.mapSpan = 1) (slba : Nat) : (d.wholeUnits slba 1).1 = [slba] := by
  simp [Dev.wholeUnits, unitsOf_one d hsp, hsp]

/-- Marking units superseded leaves the entries. -/
theorem supersede_entries (g slba nblk cycle : Nat) (keep : Nat → Bool) :
    (d.supersede g slba nblk cycle keep).map.entries = d.map.entries := rfl

/-- Deallocating one unit makes its entry DEALLOC; the record appended for it leaves the entries (R216). -/
theorem deallocUnits_one (nsh u cycle : Nat) : ∃ e : Dev, e.map.entries = d.map.entries ∧
    (d.deallocUnits nsh [u] cycle).map.entries = (e.setEntry (unitKey nsh u) entDealloc).map.entries := by
  refine ⟨Dev.endCopy _ _, ?_, append_entries _ _ _ _ _ _⟩
  refine (endCopy_map _ _).1.trans ?_
  split
  · exact supersede_entries _ _ _ _ _
  · rfl

end Sys2Proof.Proofs
end

section
/-! LEDGER and ROPE on their own. -/

namespace Sys2Proof.Proofs

open Sys2Proof.Machine Sys2Proof.Laws

variable {d : Dev}

/-! ### What waits for admission, and the boundary -/

/-- The command served next leaves the queue and is admitted under the next number, with its ADMIT_READY event unless it is
to be refused later (R178, R179). -/
theorem admitWaiting_takes {r : Nat × Admission × List (Nat × Nat)} (hs : d.serves 0x11 = true)
    (hk : d.heads.any (fun p => d.keyHard p.2.nsh p.2.kind p.2.units) = false) (hr : d.serveNext d.heads = some r) :
    d.admitWaiting.ledger.waiting = d.ledger.waiting.eraseIdx r.1 ∧
      (∃ c, Tab.look d.admitWaiting.ledger.adms d.ledger.nextAdm = some c ∧ c = { r.2.1 with deadline := c.deadline }) ∧
      d.admitWaiting.ledger.nextAdm = (d.ledger.nextAdm + 1) % 2 ^ 32 ∧
      (r.2.1.miss = none → d.pitch.queue.length < 8192 → d.pitch.held = [] →
        d.admitWaiting.pitch.queue = d.pitch.queue ++
          [{ typ := 0x05, gen := some r.2.1.gen
             words := descriptor 0x05 64 r.2.1.tenant r.2.1.nsh r.2.1.ctx r.2.1.cmdref 0 r.2.1.token
               [d.ledger.nextAdm * 2 ^ 32] }]) ∧
      (r.2.1.miss.isSome = true → d.admitWaiting.pitch = d.pitch) := by
  obtain ⟨w, hw⟩ := admitWaiting_served hs hk hr
  obtain ⟨hwait, hnext, hadm⟩ := take_ledger (d.unqueue r.1) r.2.1 r.2.2 w
  have hp := take_pitch (d.unqueue r.1) r.2.1 r.2.2 w
  have hled : d.admitWaiting.ledger = ((d.unqueue r.1).take r.2.1 r.2.2 w).2.ledger := by
    rw [hw]
    split
    · rfl
    · exact admitReady_ledger _ _ _ _
  rw [hled]
  refine ⟨hwait, ⟨_, hadm, rfl⟩, hnext, fun hm hq hh => ?_, fun hm => ?_⟩
  · rw [hw, hm]
    refine (event_queue _ _ ?_ ?_).trans ?_
    · rw [hp]; exact hq
    · rw [hp]; exact hh
    · rw [hp, unqueue_pitch]; simp [evAdmitReady]
  · rw [hw, if_pos hm, hp, unqueue_pitch]

/-- The cycle shown from a boundary on is the one that begins there (R14). -/
theorem cycle_ledgerBoundary (t : Tim) : (atBoundary d t).ledgerBoundary.cycle = boundaryAt d / d.cycleNs % 2 ^ 48 := by
  have hshow : (atBoundary d t).ledgerBoundary.cycle = (atBoundary d t).cycle :=
    fget_showLedger_of_ne (g := Reg.ROPE_CUR_CYCLE.CYCLE) _ (by decide)
  exact hshow.trans (fget_fset _ Reg.ROPE_CUR_CYCLE.CYCLE _ 0 (by decide) (by decide))

/-! ### Sealing -/

/-- The unpaired rule confirms the cycle's sections and sends nothing (R27). -/
theorem bundleSeal_releases (hon : d.on 0x12 = true) (hq : d.quiet = false) (hcl : d.claimsPending = false)
    (hle : cycLe d.cycle d.belay.nextSeal = false) (hsd : d.cycleSealed d.belay.nextSeal = true)
    (hp : d.fget Reg.ROPE_PAIR.PAIRED = 0) (hb : d.belay.bundling = false) (ht : d.hostq.tags = []) :
    d.bundleSeal.belay.nextSeal = cycAdd d.belay.nextSeal 1 ∧
      d.bundleSeal.ledger = { confirmedTo d d.belay.nextSeal with adms := d.bundleSeal.ledger.adms } ∧
      d.bundleSeal.belay.out = d.belay.out := by
  rw [bundleSeal_unpaired hon hq hcl hle hsd hp hb, releaseUnpaired_eq _ _ (by exact ht)]
  exact ⟨rfl, rfl, rfl⟩

/-! ### Applying an entry -/

variable {i : Nat} {l : Lock} (hl : Tab.look d.rope.locks i = some l) (hg : l.granted = true)
include hl hg

/-- A granted write of one staged block points its entry at the unit (R181, R186). -/
theorem grant_write {g : Nat} {u : SUnit} (hk : l.kind = .write) (hn : l.nblk = 1) (hsp : d.mapSpan = 1)
    (hs : d.map.staging = [(g, u)]) (ht : u.tag = some (tagKey l.ctx l.cmdref)) (hz : u.rec_.zrange = false)
    (hu : u.rec_.lba = l.slba) (htags : d.hostq.tags = []) :
    Tab.look (d.grant i true).rope.locks i = none ∧ ∃ e : Dev, e.map.entries = d.map.entries ∧
      e.map.staging = [(g, namedBy d (unitKey l.nsh l.slba) g l.rope u)] ∧
      (d.grant i true).map = (e.setEntry (unitKey l.nsh l.slba) (entStaged g l.rope)).map := by
  obtain ⟨b, cycle, grade, hfree, hmap⟩ := applyEntry_granted hl hg (by simp [hk]) (by simp [hk])
  rw [grant_granted hl hg]
  refine ⟨hfree, ?_⟩
  obtain ⟨e, he, hst, happ⟩ := stageUnit_single (d := { d with belay := b }) hs l.nsh l.slba l.rope cycle
  refine ⟨e, he, hst, ?_⟩
  rw [hmap, applyRange_write hk (by exact htags), hn, applyWrite_single (by exact hsp) (by exact hs) ht hz hu, happ]

/-- A granted deallocation of one block makes its entry DEALLOC (R181, R216). -/
theorem grant_dealloc (hk : l.kind = .dealloc) (hn : l.nblk = 1) (hsp : d.mapSpan = 1) (htags : d.hostq.tags = []) :
    Tab.look (d.grant i true).rope.locks i = none ∧ ∃ e : Dev, e.map.entries = d.map.entries ∧
      (d.grant i true).map.entries = (e.setEntry (unitKey l.nsh l.slba) entDealloc).map.entries := by
  obtain ⟨b, cycle, grade, hfree, hmap⟩ := applyEntry_granted hl hg (by simp [hk]) (by simp [hk])
  rw [grant_granted hl hg]
  refine ⟨hfree, ?_⟩
  obtain ⟨e, he, hd⟩ := deallocUnits_one (d := { d with belay := b }) l.nsh l.slba cycle
  exact ⟨e, he, by rw [hmap, applyRange_dealloc hk (by exact htags), hn, wholeUnits_one (by exact hsp), hd]⟩

/-- A granted read has its lookups confirmed at its rope position, and changes nothing of the map else (R183). -/
theorem grant_read (hk : l.kind = .read) :
    Tab.look (d.grant i true).rope.locks i = none ∧ (d.grant i true).map = (d.redirect (tagKey l.ctx l.cmdref)).map := by
  obtain ⟨b, cycle, grade, hfree, hmap⟩ := applyEntry_granted hl hg (by simp [hk]) (by simp [hk])
  rw [grant_granted hl hg]
  refine ⟨hfree, ?_⟩
  rw [hmap, applyRange_read hk]
  rfl

end Sys2Proof.Proofs
end

section
namespace Sys2Proof.Proofs

open Sys2Proof.Machine Sys2Proof.Laws

/-- Settles O22: LEDGER's queue, tenant entries and cycle boundary, the sealing of a cycle, and the range locks, clause by
clause from what each operation comes to. -/
theorem ledgerAndRope : Obligations.LedgerAndRope := by
  refine ⟨?_, ?_, ?_, ?_, ?_, ?_, ?_, ?_, ?_, ?_, ?_, ?_, ?_, ?_, ?_, ?_, ?_, ?_, ?_, ?_, ?_⟩
  · intro s r h hs hk hr hm
    obtain ⟨hw, ha, hn, hq, -⟩ := admitWaiting_takes hs hk hr
    exact acts_of_act _ _ _ _ (exec_ledgerDeferredAdmit s) h ⟨hw, ha, hn, hq hm⟩
  · intro s r h hs hk hr hm
    obtain ⟨hw, ha, -, -, hp⟩ := admitWaiting_takes hs hk hr
    exact acts_of_act _ _ _ _ (exec_ledgerDeferredAdmit s) h ⟨hw, ha, hp hm⟩
  · intro s r h hs hr
    exact settles_of_act (exec_ledgerDeferredAdmit s) h (admitWaiting_hard hs hr)
  · intro s r h hs hk hn hr
    exact settles_of_act (exec_ledgerDeferredAdmit s) h (admitWaiting_failFast hs hk hn hr)
  · intro s h hidle
    exact settles_of_act (exec_ledgerDeferredAdmit s) h (admitWaiting_idle hidle)
  · rintro s t n m _ h hb ho hr hm rfl
    refine acts_of_act _ _ _ _ (exec_ledgerTenUpdate s t) h ?_
    rw [tenUpdate_entry hb ho hr hm]
    exact ⟨tenEnds_result _ _ _ _ (tenantsCheck_lt _ _), tenEnds_ledger _ _ _ _⟩
  · rintro s t _ h hb ho hr rfl
    refine acts_of_act _ _ _ _ (exec_ledgerTenUpdate s t) h ?_
    rw [tenUpdate_none hb ho hr]
    exact ⟨tenEnds_result _ _ _ _ (tenantsCheck_lt _ _), tenEnds_ledger _ _ _ _⟩
  · intro s t r h hb ho hr hpos hlt
    refine acts_of_act _ _ _ _ (exec_ledgerTenUpdate s t) h ?_
    rw [tenUpdate_error hb ho hr, tenEnds_ledger, if_neg (by omega)]
    exact ⟨rfl, tenEnds_result _ _ _ _ hlt⟩
  · intro s t h hidle
    exact settles_of_act (exec_ledgerTenUpdate s t) h (tenUpdate_idle _ t hidle)
  · rintro s _ h h11 h12 h13 hh hp hn hj hc rfl
    obtain ⟨t, ht, hb⟩ := commitBoundary_plain s.dev h11 h12 h13 hh hp hn hj hc
    refine acts_of_act _ _ _ _ (exec_commitCycleBoundary s) h ?_
    rw [hb]
    exact ⟨ht, cycle_ledgerBoundary t, boundaryLedger_atBoundary _ t⟩
  · intro s h
    exact settles_of_act (exec_sealLeadClose s) h rfl
  · rintro s _ h hon hq hcl rfl hle hsd hp hb ht
    obtain ⟨hseal, hled, hout⟩ := bundleSeal_releases hon hq hcl hle hsd hp hb ht
    refine acts_of_act _ _ _ _ (exec_bundleSeal s) h ?_
    rw [hled]
    exact ⟨hseal, rfl, rfl, rfl, hout⟩
  · rintro s _ h hon hq hcl rfl hle hsd hp h19
    obtain ⟨b, hb, hseal, hout⟩ := bundleSeal_paired hon hq hcl hle hsd hp h19
    refine acts_of_act _ _ _ _ (exec_bundleSeal s) h ?_
    rw [hb]
    exact ⟨hseal, rfl, hout⟩
  · intro s h hidle
    exact settles_of_act (exec_bundleSeal s) h (bundleSeal_idle hidle)
  · intro s i l h hl hw hg
    exact settles_of_act (exec_lockGrant s i false) h (grant_waiting hl hw hg false)
  · intro s i l h hl hw hg
    exact settles_of_act (exec_lockGrant s i true) h (grant_waiting hl hw hg true)
  · intro s i l applied h hl hstay
    exact settles_of_act (exec_lockGrant s i applied) h (grant_stays hl hstay)
  · intro s i applied h hl
    exact settles_of_act (exec_lockGrant s i applied) h (grant_none applied hl)
  · intro s i g l u h hl hg hk hn hunit hs ht hz hu htags
    obtain ⟨hfree, e, he, hst, hmap⟩ := grant_write hl hg hk hn (mapSpan_one _ hunit) hs ht hz hu htags
    have hent := entryAt_congr _ (congrArg Map.entries hmap)
    refine acts_of_act _ _ _ _ (exec_lockGrant s i true) h ⟨hfree, ?_, fun k hk' => ?_,
      namedBy s.dev (unitKey l.nsh l.slba) g l.rope u, ?_, rfl, rfl⟩
    · exact (hent _).trans (entryAt_setEntry_self _ _ _)
    · rw [hent, entryAt_setEntry_other _ _ hk', entryAt_congr _ he]
    · rw [hmap, setEntry_staging, hst]
      simp [Tab.look]
  · intro s i l h hl hg hk hn hunit htags
    obtain ⟨hfree, e, he, hmap⟩ := grant_dealloc hl hg hk hn (mapSpan_one _ hunit) htags
    have hent := entryAt_congr _ hmap
    refine acts_of_act _ _ _ _ (exec_lockGrant s i true) h ⟨hfree, ?_, fun k hk' => ?_⟩
    · exact (hent _).trans (entryAt_setEntry_self _ _ _)
    · rw [hent, entryAt_setEntry_other _ _ hk', entryAt_congr _ he]
  · intro s i l h hl hg hk
    obtain ⟨hfree, hmap⟩ := grant_read hl hg hk
    refine acts_of_act _ _ _ _ (exec_lockGrant s i true) h ⟨hfree, ?_⟩
    rw [hmap]
    exact ⟨rfl, rfl, rfl⟩

end Sys2Proof.Proofs
end

section
/-! SUPPORT. Registers that a change leaves as they are: a set of addresses, and what each shared operation needs to stay
out of it. -/

namespace Sys2Proof.Proofs

open Sys2Proof.Machine Sys2Proof.Laws

/-- Every register whose address is in `K` reads in `e` as it does in `d`. -/
def KeepsRegs (K : Nat → Bool) (d e : Dev) : Prop := ∀ a, K a = true → e.regs.get a = d.regs.get a

/-- The registers of Warden's event ring, which every event moves (R70). -/
def ringRegs : List Nat := [0x200210, 0x200220]

namespace KeepsRegs

variable {K : Nat → Bool} {d e f : Dev}

theorem refl (d : Dev) : KeepsRegs K d d := fun _ _ => rfl

theorem trans (h : KeepsRegs K d e) (h' : KeepsRegs K e f) : KeepsRegs K d f :=
  fun a ha => (h' a ha).trans (h a ha)

theorem of_regs (h : e.regs = d.regs) : KeepsRegs K d e := fun _ _ => by rw [h]

/-- A field of a register in the set reads the same. -/
theorem fget (h : KeepsRegs K d e) {g : FRef} {m : Nat} (hg : K (regAddr g.blk m g.off) = true) :
    e.fget g m = d.fget g m := by
  rw [Dev.fget, Dev.reg, h _ hg, Dev.fget, Dev.reg]

theorem setReg (d : Dev) {b n o : Nat} (v : Word) (h : K (regAddr b n o) = false) :
    KeepsRegs K d (d.setReg b n o v) := by
  intro a ha
  refine get_set_other _ _ _ _ ?_
  rintro rfl
  rw [h] at ha
  cases ha

theorem fset (d : Dev) {g : FRef} {n : Nat} (v : Nat) (h : K (regAddr g.blk n g.off) = false) :
    KeepsRegs K d (d.fset g v n) := setReg d _ h

theorem bump (d : Dev) {g : FRef} {n : Nat} (k : Nat) (h : K (regAddr g.blk n g.off) = false) :
    KeepsRegs K d (d.bump g k n) := setReg d _ h

variable (hr : ∀ a ∈ ringRegs, K a = false)
include hr

theorem post (d : Dev) (b n c x : Nat) : KeepsRegs K d (d.post b n c x) := by
  unfold Dev.post
  dsimp only
  split
  · exact bump d _ (hr _ (by decide))
  · exact (of_regs rfl).trans (fset _ _ (hr _ (by decide)))

theorem setErr (d : Dev) (b n k : Nat) : KeepsRegs K d (d.setErr b n k) := by
  unfold Dev.setErr
  dsimp only
  split
  · exact refl d
  · split
    · exact of_regs rfl
    · exact (of_regs rfl).trans (post hr _ _ _ _ _)

end KeepsRegs

variable (d : Dev)

/-- A field apart from the one set stays, whether it lies in the same register or in another. -/
theorem fget_fset_apart {f g : FRef} {n m : Nat} (v : Nat)
    (h : f.lo ≤ f.hi ∧ f.hi < 64 ∧ g.lo ≤ g.hi ∧
      (regAddr g.blk m g.off ≠ regAddr f.blk n f.off ∨ g.hi < f.lo ∨ f.hi < g.lo)) :
    (d.fset f v n).fget g m = d.fget g m :=
  fget_fset_other d f g v n m h.1 h.2.1 h.2.2.1 h.2.2.2

theorem fget_lt (g : FRef) (m : Nat) : d.fget g m < 2 ^ (g.hi - g.lo + 1) := field_lt _ _ _

/-- A counter reads one more than it did, modulo its width (log 9). -/
theorem fget_bump (f : FRef) (k n : Nat) (h : f.lo ≤ f.hi) (h64 : f.hi < 64) :
    (d.bump f k n).fget f n = (d.fget f n + k) % 2 ^ (f.hi - f.lo + 1) := fget_fset d f _ n h h64

end Sys2Proof.Proofs
end

section
/-! SPOTTER on its own. -/

namespace Sys2Proof.Proofs

open Sys2Proof.Machine Sys2Proof.Laws

/-- A running device whose 16-bit count of uncorrectable bursts is full. -/
def uncorrFull : State :=
  { State.reset with dev := State.reset.dev.fset Reg.DMC_ECC.UNCORR 0xFFFF }

theorem fget_uncorrFull : uncorrFull.dev.fget Reg.DMC_ECC.UNCORR = 0xFFFF :=
  fget_fset _ Reg.DMC_ECC.UNCORR _ 0 (by decide) (by decide)

/-- Refutes O38: DMC_ECC.UNCORR has 16 bits (DMC_ECC, bits 47:32), so that after 0xFFFF
the next uncorrectable error of DMC cannot read as the 0x10000 that the statement, which counts modulo 2^32, asks for. -/
theorem not_spotter : ¬ Obligations.Spotter := by
  intro h
  obtain ⟨-, -, huncorr, -⟩ := h
  obtain ⟨d, -, -, -, hcount⟩ := huncorr uncorrFull 0x1A 0 1 rfl (by decide) (by decide)
  rw [fget_uncorrFull] at hcount
  have hlt : d.fget Reg.DMC_ECC.UNCORR < 0x10000 := fget_lt d _ 0
  have hask : d.fget Reg.DMC_ECC.UNCORR = 0x10000 := hcount
  omega

end Sys2Proof.Proofs
end

section
/-! SUPPORT. Work that leaves the pair as it is: what hosts, transports, the map and the media do changes neither TETHER's
and BELAY's registers nor BELAY's own state (R27, R396, R408). -/

namespace Sys2Proof.Proofs

open Sys2Proof.Machine Sys2Proof.Laws

-- One proof after another, as in the tests: proofs that wait for a slow one would each hold a thread.
set_option Elab.async false

/-- The registers of TETHER and BELAY, CAMP_STRAP, HOSTQ_ANA_OWN, ROPE_NEXT, ROPE_PAIR and MAP_RECOVER. -/
def pairReg (a : Nat) : Bool :=
  decide (0x1700000 ≤ a ∧ a < 0x1800000) || decide (0x1900000 ≤ a ∧ a < 0x1A00000) ||
    decide (0x9700000 ≤ a ∧ a < 0x9800000) || [0x210, 0x1000230, 0x1200210, 0x1200240, 0x1400278].contains a

theorem pairReg_ring : ∀ a ∈ ringRegs, pairReg a = false := by decide

/-- `e` is `d` after work that leaves the pair as it is: of BELAY only what goes back to the partner and what it is to resend
change, the page counter does not fall, and while the unit is not paired no transport record is made. -/
structure LeavesPair (d e : Dev) : Prop where
  regs : KeepsRegs pairReg d e
  belay : e.belay = { d.belay with fwdBack := e.belay.fwdBack, carried := e.belay.carried }
  recs : d.fget Reg.ROPE_PAIR.PAIRED = 0 → e.trans.recs = d.trans.recs
  seq : d.map.seq ≤ e.map.seq

namespace LeavesPair

variable {c d e f : Dev}

theorem fget (h : LeavesPair d e) {g : FRef} {m : Nat} (hg : pairReg (regAddr g.blk m g.off) = true) :
    e.fget g m = d.fget g m := h.regs.fget hg

/-- What BELAY keeps of any part but those two. -/
theorem belayOf {β : Type} (h : LeavesPair d e) (p : Belay → β)
    (hp : ∀ b x y, p { b with fwdBack := x, carried := y } = p b := by exact fun _ _ _ => rfl) : p e.belay = p d.belay := by
  rw [h.belay, hp]

theorem trans (h : LeavesPair d e) (h' : LeavesPair e f) : LeavesPair d f where
  regs := h.regs.trans h'.regs
  belay := by rw [h'.belay, h.belay]
  recs hp := (h'.recs ((h.fget (by decide)).trans hp)).trans (h.recs hp)
  seq := h.seq.trans h'.seq

/-- A change of registers outside the pair's, and of nothing else that counts. -/
theorem of_regs (hr : KeepsRegs pairReg d e) (hb : e.belay = d.belay) (ht : e.trans.recs = d.trans.recs)
    (hs : e.map.seq = d.map.seq) : LeavesPair d e :=
  ⟨hr, by rw [hb], fun _ => ht, hs.ge⟩

theorem refl (d : Dev) : LeavesPair d d := of_regs (.refl d) rfl rfl rfl

/-- A further change of other parts of the device. -/
theorem same (h : LeavesPair d e) (hr : f.regs = e.regs := by rfl)
    (hb : f.belay = { e.belay with fwdBack := f.belay.fwdBack, carried := f.belay.carried } := by rfl)
    (ht : f.trans.recs = e.trans.recs := by rfl) (hs : f.map.seq = e.map.seq := by rfl) : LeavesPair d f :=
  h.trans ⟨.of_regs hr, hb, fun _ => ht, hs.ge⟩

theorem ite {p : Prop} [Decidable p] (he : LeavesPair d e) (hf : LeavesPair d f) : LeavesPair d (if p then e else f) := by
  split
  · exact he
  · exact hf

theorem foldl {α : Type} {g : Dev → α → Dev} (l : List α) (hg : ∀ c x, x ∈ l → LeavesPair c (g c x))
    (h : LeavesPair d e) : LeavesPair d (l.foldl g e) :=
  h.trans (List.foldlRecOn (motive := LeavesPair e) l g (refl e) fun _ hc x hx => hc.trans (hg _ x hx))

theorem foldl_fst {α β : Type} {g : Dev × β → α → Dev × β} {x : Dev × β} (l : List α)
    (hg : ∀ y a, LeavesPair y.1 (g y a).1) (h : LeavesPair d x.1) : LeavesPair d (l.foldl g x).1 :=
  List.foldlRecOn (motive := fun y => LeavesPair d y.1) l g h fun _ hy a _ => hy.trans (hg _ a)

variable (h : LeavesPair d e)
include h

/-! ### Shared operations -/

theorem fset {g : FRef} {n : Nat} (v : Nat) (hg : pairReg (regAddr g.blk n g.off) = false := by decide) :
    LeavesPair d (e.fset g v n) := h.trans (of_regs (.fset _ _ hg) rfl rfl rfl)

theorem bump {g : FRef} {n : Nat} (k : Nat) (hg : pairReg (regAddr g.blk n g.off) = false := by decide) :
    LeavesPair d (e.bump g k n) := h.fset _ hg

theorem bumpSat {g : FRef} {n : Nat} (k : Nat) (hg : pairReg (regAddr g.blk n g.off) = false := by decide) :
    LeavesPair d (e.bumpSat g k n) := h.fset _ hg

theorem raiseTo {g : FRef} {n : Nat} (v : Nat) (hg : pairReg (regAddr g.blk n g.off) = false := by decide) :
    LeavesPair d (e.raiseTo g v n) := h.fset _ hg

theorem post (b n c x : Nat) : LeavesPair d (e.post b n c x) :=
  h.trans (of_regs (.post pairReg_ring _ _ _ _ _) (by simp) (by simp) (by simp))

theorem setErr (b n k : Nat) : LeavesPair d (e.setErr b n k) :=
  h.trans (of_regs (.setErr pairReg_ring _ _ _ _) (by simp) (by simp) (by simp))

theorem showQueue : LeavesPair d e.showQueue := (h.fset _).raiseTo _

theorem queueIs (q : List PEvent) : LeavesPair d (e.queueIs q) := (h.same (f := { e with pitch := _ })).showQueue

theorem event (x : PEvent) : LeavesPair d (e.event x) := by
  unfold Dev.event
  exact .ite (h.same (f := { e with pitch := _ })).showQueue h.same

theorem takeoverEvent (step nsh : Nat) : LeavesPair d (e.takeoverEvent step nsh) := h.event _

/-! ### Power, metrics (R453, R464, R469) -/

theorem retarget (k : Nat) : LeavesPair d (e.retarget k) := by
  unfold Dev.retarget
  exact .ite ((h.same (f := e.setDom _ _)).setErr _ _ _ |>.post _ _ _ _) h.same

theorem updatePlls : LeavesPair d e.updatePlls := (h.fset _).fset _

theorem wake : LeavesPair d e.wake := by
  unfold Dev.wake
  refine .ite h (updatePlls (.foldl _ (fun _ k _ => (refl _).retarget k) ?_))
  exact ((h.bump (g := Reg.CAMP_PS.WAKES) (n := 0) 1).fset (g := Reg.CAMP_PS.REQ) (n := 0) 0
    |>.fset (g := Reg.CAMP_PS.MOVING) (n := 0) 1).same

theorem tcount (t i k : Nat) : LeavesPair d (e.tcount t i k) := by
  unfold Dev.tcount
  exact .ite h h.same

theorem sampleAt (src : Nat) (tenant : Option Nat) {i : Nat} (hi : i < 16) : LeavesPair d (e.sampleAt src tenant i) := by
  have hc : ∀ i < 16, pairReg (regAddr 5 0 (Reg.TLY_SAMP_CNT.COUNT.off + 8 * i)) = false := by decide
  unfold Dev.sampleAt
  have hn := h.fset (g := Reg.TLY_SAMP_CNT.COUNT.nth i) (n := 0) (e.fget (Reg.TLY_SAMP_CNT.COUNT.nth i) + 1) (hc i hi)
  exact .ite h (.ite ((hn.fset _ (hc i hi)).post _ _ _ _) hn)

theorem sample (src : Nat) (tenant : Option Nat) : LeavesPair d (e.sample src tenant) := by
  unfold Dev.sample
  exact .ite h (.foldl _ (fun _ i hi => (refl _).sampleAt src tenant (List.mem_range.1 hi)) h)

theorem countDone (ctrl tenant qid op : Nat) (c : Cqe) : LeavesPair d (e.countDone ctrl tenant qid op c) := by
  unfold Dev.countDone
  have hc := h.tcount (if (e.ctrl ctrl).any (·.discovery) then 0 else tenant)
    (if qid = 0 then 2 else if op = 2 then 0 else if op = 1 ∨ op = 8 then 1 else 2) 1
  exact (ite ((ite hc (hc.tcount _ _ _)).tcount _ _ _) (ite hc (hc.tcount _ _ _))).sample _ _

end LeavesPair

end Sys2Proof.Proofs
end

section
/-! SUPPORT. Transports, completions and arrivals leave the pair as it is (R119, R144, R187, R323 to R341). -/

namespace Sys2Proof.Proofs

open Sys2Proof.Machine Sys2Proof.Laws

set_option Elab.async false

/-- An unpaired unit keeps no transport records (R334). -/
theorem recording_unpaired {d : Dev} (h : d.fget Reg.ROPE_PAIR.PAIRED = 0) : d.recording = false := by
  simp [Dev.recording, h]

namespace LeavesPair

variable {d e : Dev} (h : LeavesPair d e)
include h

/-! ### Frames out (R349 to R355) -/

theorem showSwt : LeavesPair d e.showSwt := ((h.fset _).fset _).fset _

theorem dropRef (i : Nat) : LeavesPair d (e.dropRef i) := by
  unfold Dev.dropRef
  split
  · exact h
  · exact h.same.showSwt

theorem freeQueued (q : Nat) : LeavesPair d (e.freeQueued q) := by
  unfold Dev.freeQueued
  exact showSwt (post (bump (foldl _ (fun _ i _ => (refl _).dropRef i) (same h)) _) _ _ _ _)

theorem holdExpiry (q : Nat) : LeavesPair d (e.holdExpiry q) := by
  unfold Dev.holdExpiry
  dsimp only
  split
  · exact .ite h (h.same.freeQueued q)
  · exact h

theorem freeDead (f : OutFrame) : LeavesPair d (e.freeDead f).1 := by
  have hf := foldl f.ports (fun _ q _ => (refl _).holdExpiry q) h
  exact .ite hf (hf.bump _)

theorem admitFrame (f : OutFrame) : LeavesPair d (e.admitFrame f) := by
  unfold Dev.admitFrame
  exact showSwt (foldl _ (fun _ _ _ => same (refl _)) (same (ite (bump (g := Reg.SWT_OVFSTAT.OVERFLOWS) (n := 0) h 1) h)))

theorem emit (f : OutFrame) : LeavesPair d (e.emit f) := by
  have hd := h.freeDead f
  unfold Dev.emit
  generalize e.freeDead f = r at hd ⊢
  obtain ⟨c, g⟩ := r
  exact .ite h (.ite (same h) (.ite hd (.ite (admitFrame hd g) (bump (same hd) _))))

theorem emitCtx (n : Nat) (x : Ctx) (body : Nat) : LeavesPair d (e.emitCtx n x body) := h.emit _

theorem sendMsg (n : Nat) (x : Ctx) (m : TxMsg) : LeavesPair d (e.sendMsg n x m) :=
  foldl _ (fun _ _ _ => (refl _).emitCtx _ _ _) h

theorem sendPiece (n : Nat) (x : Ctx) (bytes : Nat) : LeavesPair d (e.sendPiece n x bytes) :=
  foldl _ (fun _ _ _ => (refl _).emitCtx _ _ _) h

/-! ### Contexts (R323 to R327) -/

theorem setTport (blk : Nat) (t : Tport) : LeavesPair d (e.setTport blk t) := by
  unfold Dev.setTport
  exact .ite h.same h.same

theorem showCtx (blk : Nat) : LeavesPair d (e.showCtx blk) := by
  unfold Dev.showCtx
  exact .ite ((h.fset _).fset _) ((h.fset _).fset _)

theorem modCtx (blk n : Nat) (g : Ctx → Ctx) : LeavesPair d (e.modCtx blk n g) := by
  unfold Dev.modCtx
  dsimp only
  split
  · exact h
  · exact h.same.setTport _ _

theorem placeCtx (blk n : Nat) (x : Ctx) : LeavesPair d (e.placeCtx blk n x) := (h.same.setTport _ _).showCtx blk

theorem evict (blk n : Nat) : LeavesPair d (e.evict blk n) := by
  unfold Dev.evict
  dsimp only
  split
  · exact h
  · exact h.same.setTport _ _

theorem makeSlot (blk : Nat) : LeavesPair d (e.makeSlot blk).1 := by
  unfold Dev.makeSlot
  split
  · exact h
  · split
    · exact h.evict _ _
    · exact h

theorem fetchCtx (blk n : Nat) : LeavesPair d (e.fetchCtx blk n) := by
  have hm := h.makeSlot blk
  unfold Dev.fetchCtx
  generalize e.makeSlot blk = r at hm ⊢
  obtain ⟨c, ok⟩ := r
  exact .ite h (.ite hm (sample (ite (bump (placeCtx hm _ _ _) _) (bump (placeCtx hm _ _ _) _)) _ _))

theorem needCtx (blk n : Nat) : LeavesPair d (e.needCtx blk n) := by
  unfold Dev.needCtx
  exact .ite h (h.fetchCtx _ _)

/-! ### RoCEv2 (R328 to R334) -/

/-- Transport records of an unpaired unit are none. -/
theorem addRecs {rs : List TRec} (hr : d.fget Reg.ROPE_PAIR.PAIRED = 0 → rs = []) :
    LeavesPair d { e with trans := { e.trans with recs := e.trans.recs ++ rs } } where
  regs := h.regs
  belay := h.belay
  recs hp := by rw [hr hp, List.append_nil, h.recs hp]
  seq := h.seq

omit h in
theorem pumpN (k : Nat) : ∀ {e : Dev}, LeavesPair d e → ∀ n, LeavesPair d (e.pumpN n k) := by
  induction k with
  | zero => exact fun h _ => h
  | succ k ih =>
    intro e h n
    unfold Dev.pumpN
    split
    · exact h
    · dsimp only
      split
      · exact h
      · split
        · exact h
        · refine .ite h (ih (h.trans (.ite ?_ (sendMsg ?_ _ _ _))) n) <;>
            exact addRecs (modCtx (same (refl e)) _ _ _) fun hp => by rw [recording_unpaired hp]; rfl

theorem pump (n : Nat) : LeavesPair d (e.pump n) := pumpN _ h n

theorem queueMsg (n : Nat) (m : TxMsg) : LeavesPair d (e.queueMsg n m) := h.same.pump n

theorem sendAeth (n : Nat) (x : Ctx) : LeavesPair d (e.sendAeth n x) := (h.same.modCtx _ _ _).emitCtx _ _ _

theorem ackNow (n : Nat) : LeavesPair d (e.ackNow n) := by
  unfold Dev.ackNow
  dsimp only
  split
  · split
    · exact (h.same.modCtx _ _ _).sendAeth _ _
    · exact .ite h ((h.modCtx _ _ _).sendAeth _ _)
  · exact h

/-- Nor do records that the partner has come to hold. -/
theorem recHeld (t : TRec) : LeavesPair d (e.recHeld t) := by
  unfold Dev.recHeld
  refine .ite (h.same.ackNow _) (.ite ?_ h)
  dsimp only
  split
  · exact .ite (h.same.sendMsg _ _ _) h.same
  · exact h

/-! ### The stream (R337 to R341) -/

theorem showSlots : LeavesPair d e.showSlots := (h.fset _).fset _

theorem sessUse (slot : Nat) (send : Bool) (k : Nat) : LeavesPair d (e.sessUse slot send k).1 := by
  unfold Dev.sessUse
  dsimp only
  split
  · exact h
  · split
    · exact (h.same (f := { e with cipher := _ })).showSlots.post _ _ _ _
    · exact (h.same (f := { e with cipher := _ })).showSlots

theorem setSconn (n : Nat) (x : SConn) : LeavesPair d (e.setSconn n x) := h.same

omit h in
theorem streamPumpN (k : Nat) : ∀ {e : Dev}, LeavesPair d e → ∀ n, LeavesPair d (e.streamPumpN n k) := by
  induction k with
  | zero => exact fun h _ => h
  | succ k ih =>
    intro e h n
    unfold Dev.streamPumpN
    split
    · exact h
    · dsimp only
      split
      · exact h
      · split
        · exact h
        · refine .ite h (.ite h.same (ih (sendPiece (modCtx (setSconn ?_ _ _) _ _ _) _ _ _) n))
          exact ite (bumpSat (sessUse h _ _ _) _) (sessUse h _ _ _)

theorem streamPump (n : Nat) : LeavesPair d (e.streamPump n) := streamPumpN _ h n

theorem queuePiece (n : Nat) (k : SKind) (head data : Nat) : LeavesPair d (e.queuePiece n k head data) := by
  unfold Dev.queuePiece
  split
  · exact h
  · exact h.same.streamPump n

theorem sendResponse (ctx tag cmdref : Nat) (inval : Bool) : LeavesPair d (e.sendResponse ctx tag cmdref inval) := by
  unfold Dev.sendResponse
  split
  · exact h
  · exact (h.needCtx _ _).queueMsg _ _
  · exact (h.needCtx _ _).queuePiece _ _ _ _

/-! ### Completions (R144, R166, R187) -/

theorem trace (l : Lock) : LeavesPair d (e.trace l) := by
  unfold Dev.trace
  exact .ite h (.ite (post (fset (same h) _) _ _ _ _) (fset (same h) _))

theorem freeLockAt (i : Nat) : LeavesPair d (e.freeLockAt i) :=
  ((h.same (f := { e with rope := _ })).fset _).raiseTo _

theorem finishLocks (key : Nat) : LeavesPair d (e.finishLocks key) :=
  foldl _ (fun _ _ _ => ((refl _).trace _).freeLockAt _) h

theorem showLedger : LeavesPair d e.showLedger := ((h.fset _).fset _).fset _

theorem dropAdm (n : Nat) : LeavesPair d (e.dropAdm n) := by
  unfold Dev.dropAdm
  split
  · exact h
  · refine showLedger (same (e := e.giveBack _) ?_)
    unfold Dev.giveBack
    exact .ite h h.same

theorem dropAdmsOf (tag : Nat) : LeavesPair d (e.dropAdmsOf tag) := by
  have hd := foldl (e.ledger.adms.filter fun x => decide (x.2.tag = tag)) (fun _ p _ => (refl _).dropAdm p.1) h
  exact hd.same.showLedger

theorem showStaging : LeavesPair d e.showStaging := ((h.fset _).fset _).fset _

theorem discard (p : SUnit → Bool) : LeavesPair d (e.discard p) := h.same.showStaging

theorem withHostq (x : Hostq) : LeavesPair d { e with hostq := x } := h.same

theorem modTag (key : Nat) (g : Tag → Tag) : LeavesPair d (e.modTag key g) := by
  unfold Dev.modTag
  split
  · exact h.same
  · exact h

theorem hostDone (key : Nat) (c : Cqe) (counted : Bool) : LeavesPair d (e.hostDone key c counted) := by
  unfold Dev.hostDone
  split
  · exact h
  · have hd (c' : Dev) (hc : LeavesPair d c') :=
      discard (dropAdmsOf (finishLocks hc key) key) fun u => u.tag = some key
    refine .ite h (.ite (same (hd _ ?_)) (.ite (same (hd _ ?_))
      (sendResponse (withHostq (modTag (same (hd _ ?_)) _ _) _) _ _ _ _))) <;>
      exact ite (countDone h _ _ _ _ _) h

theorem releaseHeld : LeavesPair d e.releaseHeld := by
  refine foldl _ (fun c p _ => ?_) h
  dsimp only
  split
  · exact .ite ((refl c).hostDone _ _ _) (refl c)
  · exact refl c

theorem unitsDirty (c : Nat) (sec : Option Nat) : LeavesPair d (e.unitsDirty c sec) := h.same.showStaging

theorem releaseUnpaired (c : Nat) : LeavesPair d (e.releaseUnpaired c) := (h.same.unitsDirty _ _).releaseHeld

/-! ### Arrivals (R119, R142, R144) -/

theorem arrive (t : Tag) : LeavesPair d (e.arrive t) := h.event _

theorem modCtrl (c : Nat) (g : Ctrl → Ctrl) : LeavesPair d (e.modCtrl c g) := by
  unfold Dev.modCtrl
  split
  · exact h.same
  · exact h

theorem answerCapsule (q : Queue) (ctx cid tenant op : Nat) (c : Cqe) :
    LeavesPair d (e.answerCapsule q ctx cid tenant op c) := (h.countDone _ _ _ _ _).same.sendResponse _ _ _ _

theorem capsule (ctx : Nat) (sqe : List Word) (nsgl sgl : Nat) (seg : List Word) :
    LeavesPair d (e.capsule ctx sqe nsgl sgl seg) := by
  unfold Dev.capsule
  split
  · exact h
  · split
    · exact h
    · have hm (c : Nat) (g : Ctrl → Ctrl) {f : Dev} (hf : LeavesPair e.wake f) := modCtrl (h.wake.trans hf) c g
      refine .ite h (.ite (post (bump h.wake _) _ _ _ _) ?_)
      refine .ite (answerCapsule (bump (hm _ _ ?_) _) _ _ _ _ _ _) (.ite (hostDone (same (hm _ _ ?_)) _ _ _)
        (.ite (same (hm _ _ ?_)) (arrive (same (hm _ _ ?_)) _))) <;> exact same (refl _)

theorem dropArrival (ctx cmdref : Nat) : LeavesPair d (e.dropArrival ctx cmdref) := h.same.queueIs _

theorem abortAnswer (key : Nat × Nat) (won : Bool) : LeavesPair d (e.abortAnswer key won) :=
  (ite (h.bump _) (h.bump _)).hostDone _ _ _

end LeavesPair

end Sys2Proof.Proofs
end

section
/-! SUPPORT. The load of a partner's state leaves the pair as it is: map, journal, bands, key slots and carried contexts
(R223, R335, R411). -/

namespace Sys2Proof.Proofs

open Sys2Proof.Machine Sys2Proof.Laws

set_option Elab.async false

namespace LeavesPair

variable {d e : Dev} (h : LeavesPair d e)
include h

/-! ### Bands and blocks -/

theorem showBands : LeavesPair d e.showBands := ((h.fset _).fset _).fset _

theorem putBand (n : Nat) (b : Band) : LeavesPair d (e.putBand n b) := by
  unfold Dev.putBand
  exact showBands (same h)

theorem modBand (n : Nat) (g : Band → Band) : LeavesPair d (e.modBand n g) := by
  unfold Dev.modBand
  split
  · exact h.putBand _ _
  · exact h

theorem raiseValid (k : Nat) (r : URec) : LeavesPair d (e.raiseValid k r) := by
  unfold Dev.raiseValid
  dsimp only
  split
  · exact putBand (same h) _ _
  · exact same h

theorem staleCopy (n since : Nat) : LeavesPair d (e.staleCopy n since) := by
  unfold Dev.staleCopy
  exact .ite (same h) h

theorem lowerAt (k n : Nat) : LeavesPair d (e.lowerAt k n) := by
  unfold Dev.lowerAt
  refine .ite h ?_
  dsimp only
  split
  · exact .ite (putBand (same h) _ _) (staleCopy (putBand (same h) _ _) _ _)
  · exact same h

theorem lower (k : Nat) : LeavesPair d (e.lower k) := h.lowerAt _ _

theorem setEntry (key x : Nat) : LeavesPair d (e.setEntry key x) := h.same

theorem replayRec (root : RootObs) (j : Nat) : LeavesPair d (e.replayRec root j) := by
  unfold Dev.replayRec
  refine .ite ?_ (.ite ?_ (.ite ?_ h))
  · exact .ite (setEntry (lower h _) _ _)
      (foldl _ (fun _ _ _ => ite (raiseValid (refl _) _ _) (refl _)) (setEntry (lower h _) _ _))
  · exact foldl _ (fun _ _ _ => setEntry (lower (refl _) _) _ _) h
  · exact same (foldl ((e.map.dir.filter _).map (·.2)) (fun _ k _ => lowerAt (refl _) k 1)
      (foldl ((e.map.entries.filter _).map (·.2)) (fun _ k _ => lower (refl _) k) h))

theorem openReplayed (partner : Bool) : LeavesPair d (e.openReplayed partner) := by
  unfold Dev.openReplayed
  exact foldl _ (fun _ _ _ => modBand (refl _) _ _) (same h)

theorem blkErased (c : Chunk) (on : Bool) : LeavesPair d (e.blkErased c on) := h.same

theorem settleBands (partner : Bool) : LeavesPair d (e.settleBands partner) :=
  foldl _ (fun _ _ _ => blkErased (refl _) _ _)
    (foldl _ (fun _ _ _ => foldl _ (fun _ _ _ => blkErased (refl _) _ _) (refl _))
      (foldl _ (fun _ _ _ => modBand (refl _) _ _) h))

theorem loadPartnerRoot (r : RootObs) : LeavesPair d (e.loadPartnerRoot r) := by
  unfold Dev.loadPartnerRoot
  dsimp only
  refine same (e := Prod.fst (α := Dev) (β := Tab Nat) (List.foldl _ _ r.bands))
    (foldl_fst _ (fun _ _ => putBand (refl _) _ _) ?_)
  exact same h

/-! ### The journal and the map (R216, R222, R224) -/

theorem showRing : LeavesPair d e.showRing := (h.fset _).raiseTo _

theorem append (typ flags nsh body : Nat) (act : JAct) : LeavesPair d (e.append typ flags nsh body act).1 := by
  unfold Dev.append
  dsimp only
  generalize (if typ ≠ 4 ∧ typ ≠ 5 ∧ e.partnerNs nsh = true then 1 else flags) = fl
  have hs : LeavesPair d (if e.map.stalled = true then e else e.bump Reg.JNL_STALL.COUNT) := .ite h (bump h _)
  rw [apply_ite Prod.fst, apply_ite Prod.fst]
  exact .ite (.ite (same hs) (same hs)) (sample (showRing (ite (bump (fset (same h) _) _) (fset (same h) _))) _ _)

theorem showSb : LeavesPair d e.showSb := ((h.fset _).fset _).fset _

theorem writeSuper (ckpt root seqHigh ropeHigh : Nat) : LeavesPair d (e.writeSuper ckpt root seqHigh ropeHigh) :=
  h.same.showSb

theorem raiseCeilings : LeavesPair d e.raiseCeilings := by
  unfold Dev.raiseCeilings
  exact .ite h (.ite h (h.writeSuper _ _ _ _))

theorem supersede (g slba nblk cycle : Nat) (keep : Nat → Bool) : LeavesPair d (e.supersede g slba nblk cycle keep) :=
  h.same

theorem endCopy (k : Nat) : LeavesPair d (e.endCopy k) := by
  unfold Dev.endCopy
  exact .ite (same h) h

theorem stageUnit (nsh u rope cycle : Nat) (mine : List Nat) : LeavesPair d (e.stageUnit nsh u rope cycle mine) := by
  unfold Dev.stageUnit
  split
  · exact h
  · exact setEntry (endCopy (same h) _) _ _

theorem deallocUnits (nsh : Nat) (us : List Nat) (cycle : Nat) : LeavesPair d (e.deallocUnits nsh us cycle) := by
  have hd : LeavesPair d ((us.zip (us.map (e.entry nsh))).foldl (fun d p =>
      let d := if entIsStaged p.2 then d.supersede (entIndex p.2) (p.1 * d.mapSpan) d.mapSpan cycle (fun _ => false) else d
      (d.endCopy p.2).setEntry (unitKey nsh p.1) entDealloc) e) :=
    foldl _ (fun _ _ _ => setEntry (endCopy (ite (supersede (refl _) _ _ _ _ _) (refl _)) _) _ _) h
  unfold Dev.deallocUnits
  dsimp only
  split
  · exact hd
  · exact append hd _ _ _ _ _

theorem zeroUnits (nsh : Nat) (us : List Nat) (rope cycle : Nat) : LeavesPair d (e.zeroUnits nsh us rope cycle) :=
  foldl _ (fun _ _ _ => append (setEntry (endCopy (ite (supersede (refl _) _ _ _ _ _) (refl _)) _) _ _) _ _ _ _ _) h

theorem modUnit (i : Nat) (g : SUnit → SUnit) : LeavesPair d (e.modUnit i g) := by
  unfold Dev.modUnit
  split
  · exact same h
  · exact h

omit h in
theorem applyKept (ks : List Kept) : ∀ {e : Dev}, LeavesPair d e → LeavesPair d (Dev.applyKept ks e) := by
  induction ks with
  | nil => exact fun h => h
  | cons k rest ih =>
    intro e h
    unfold Dev.applyKept
    refine ih (.ite (deallocUnits h _ _ _) (.ite (zeroUnits ?_ _ _ _ _) ?_))
    · exact foldl _ (fun _ _ _ => modUnit (refl _) _ _) h
    · exact foldl _ (fun _ _ _ => stageUnit (refl _) _ _ _ _ _) (foldl _ (fun _ _ _ => modUnit (refl _) _ _) h)

theorem setDslot (n : Nat) (s : DSlot) : LeavesPair d (e.setDslot n s) := h.same.showSlots

theorem showWarm : LeavesPair d e.showWarm := (h.fset _).fset _

/-! ### Carried contexts (R335, R412) -/

theorem showHostq : LeavesPair d e.showHostq := (h.fset _).fset _

theorem setRconn (n : Nat) (x : RConn) : LeavesPair d (e.setRconn n x) := h.same

theorem openCarried (n : Nat) (o : TRec) (recs : List TRec) : LeavesPair d (e.openCarried n o recs) := by
  have hm := h.makeSlot 0x0C
  unfold Dev.openCarried
  generalize e.makeSlot 0x0C = r at hm ⊢
  obtain ⟨c, ok⟩ := r
  cases ok
  · dsimp only
    split
    · exact showHostq (withHostq (setRconn (showCtx (setTport (same hm) _ _) _) _ _) _)
    · exact showHostq (withHostq (withHostq (setRconn (showCtx (setTport (same hm) _ _) _) _ _) _) _)
  · dsimp only
    split
    · exact showHostq (withHostq (setRconn (placeCtx hm _ _ _) _ _) _)
    · exact showHostq (withHostq (withHostq (setRconn (placeCtx hm _ _ _) _ _) _) _)

theorem carriedDone (n qid cid : Nat) (c : Cqe) : LeavesPair d (e.carriedDone n qid cid c) := h.same

theorem settleCarried (pctx n : Nat) : LeavesPair d (e.settleCarried pctx n) := by
  unfold Dev.settleCarried
  dsimp only
  split
  · exact h
  · refine withHostq (foldl _ (fun _ _ _ => capsule (refl _) _ _ _ _ _)
      (foldl _ (fun _ _ _ => sendResponse (carriedDone (refl _) _ _ _ _) _ _ _ _) (foldl _ (fun c _ _ => ?_) h))) _
    exact ite (sendMsg (setRconn (carriedDone (refl c) _ _ _ _) _ _) _ _ _) (same (refl c))

theorem fwdTakenBack (p : Nat × Tag) : LeavesPair d (e.fwdTakenBack p) := by
  unfold Dev.fwdTakenBack
  refine .ite (modTag h _ _) (.ite h ?_)
  dsimp only
  split
  · exact abortAnswer (hostDone (modTag h _ _) _ _ _) _ _
  · exact .ite (hostDone (modTag h _ _) _ _ _) (arrive (modTag h _ _) _)

end LeavesPair

end Sys2Proof.Proofs
end

section
/-! SUPPORT. Claims, fencing and group owners (R16, R242, R406 to R409, R426). -/

namespace Sys2Proof.Proofs

open Sys2Proof.Machine Sys2Proof.Laws

set_option Elab.async false

/-! ### Claims -/

/-- The pair's registers outside TETHER. -/
def blyReg (a : Nat) : Bool := pairReg a && !inBlock 0x17 a

theorem blyReg_ring : ∀ a ∈ ringRegs, blyReg a = false := by decide

/-- A smaller set of registers is kept as well. -/
theorem KeepsRegs.mono {K L : Nat → Bool} {d e : Dev} (h : KeepsRegs K d e) (hl : ∀ a, L a = true → K a = true) :
    KeepsRegs L d e := fun a ha => h a (hl a ha)

/-- `e` is `d` after work on TETHER only. -/
structure LeavesBelay (d e : Dev) : Prop where
  regs : KeepsRegs blyReg d e
  belay : e.belay = d.belay
  rejected : e.media.claimRejected = d.media.claimRejected

namespace LeavesBelay

variable {c d e f : Dev}

theorem refl (d : Dev) : LeavesBelay d d := ⟨.refl _, rfl, rfl⟩

theorem trans (h : LeavesBelay d e) (h' : LeavesBelay e f) : LeavesBelay d f :=
  ⟨h.regs.trans h'.regs, h'.belay.trans h.belay, h'.rejected.trans h.rejected⟩

theorem same (h : LeavesBelay d e) (hr : f.regs = e.regs := by rfl) (hb : f.belay = e.belay := by rfl)
    (hm : f.media.claimRejected = e.media.claimRejected := by rfl) : LeavesBelay d f :=
  h.trans ⟨.of_regs hr, hb, hm⟩

theorem fset (h : LeavesBelay d e) {g : FRef} {n : Nat} (v : Nat)
    (hg : blyReg (regAddr g.blk n g.off) = false := by decide) : LeavesBelay d (e.fset g v n) :=
  h.trans ⟨.fset _ _ hg, rfl, rfl⟩

theorem post (h : LeavesBelay d e) (b n c x : Nat) : LeavesBelay d (e.post b n c x) :=
  h.trans ⟨.post blyReg_ring _ _ _ _ _, by simp, by simp⟩

theorem sendClaim (h : LeavesBelay d e) (n mask : Nat) : LeavesBelay d (e.sendClaim n mask) := h.same

theorem claimFinish (h : LeavesBelay d e) : LeavesBelay d e.claimFinish := by
  unfold Dev.claimFinish
  split
  · split
    · exact h
    · exact post (fset (fset (fset (same h) _) _) _) _ _ _ _
  · exact h

/-- A claim goes out, and no exchange is rejected yet (R242). -/
theorem claimSend (d : Dev) (epoch sleds channels : Nat) :
    LeavesBelay { d with media := { d.media with claimRejected := false } } (d.claimSend epoch sleds channels) := by
  have hclaim : ∀ n < 24, blyReg (regAddr 0x17 n Reg.TTH_OWN.CLAIM.off) = false := by decide
  have hstat : KeepsRegs blyReg d
      (((d.fset Reg.TTH_CLAIM_STAT.BUSY 1).fset Reg.TTH_CLAIM_STAT.DONE 0).raiseTo Reg.TTH_CLAIM_STAT.LAST_EPOCH epoch) :=
    ((KeepsRegs.fset d _ (by decide)).trans (.fset _ _ (by decide))).trans (.fset _ _ (by decide))
  unfold Dev.claimSend
  dsimp only
  refine claimFinish ?_
  generalize hf : List.foldl _ _ _ = f
  refine same (e := f) ?_
  rw [← hf]
  refine List.foldlRecOn (motive := LeavesBelay _) _ _ ?_ fun e he n hn => ?_
  · exact ⟨fun a ha => hstat a ha, rfl, rfl⟩
  · have hn := hclaim n (List.mem_range.1 (List.mem_of_mem_filter hn))
    have hc := fset he (g := Reg.TTH_OWN.CLAIM) (n := n) (d.claimNo epoch) hn
    exact sendClaim hc n channels

end LeavesBelay

section
variable (d : Dev)

theorem claimSend_fget {g : FRef} {m : Nat} (epoch sleds channels : Nat) (hg : blyReg (regAddr g.blk m g.off) = true) :
    (d.claimSend epoch sleds channels).fget g m = d.fget g m := (LeavesBelay.claimSend d _ _ _).regs.fget hg

theorem claimSend_belay (epoch sleds channels : Nat) : (d.claimSend epoch sleds channels).belay = d.belay :=
  (LeavesBelay.claimSend d _ _ _).belay

theorem claimSend_rejected (epoch sleds channels : Nat) : (d.claimSend epoch sleds channels).media.claimRejected = false :=
  (LeavesBelay.claimSend d _ _ _).rejected

theorem raiseClaim_belay (u : Nat) : (d.raiseClaim u).belay = d.belay := claimSend_belay _ _ _ _

/-- A raised claim changes one field of BELAY: the epoch it owns. -/
theorem raiseClaim_regs (u : Nat) : KeepsRegs blyReg (d.fset Reg.BLY_EPOCH.OWN d.nextEpoch) (d.raiseClaim u) :=
  (LeavesBelay.claimSend _ _ _ _).regs

end

/-! ### The epoch of the next claim (R406) -/

/-- The registers it comes from: those of TETHER and BLY_EPOCH. -/
def epochReg (a : Nat) : Bool := inBlock 0x17 a || decide (a = regAddr 0x19 0 Reg.BLY_EPOCH.OWN.off)

/-- With those registers and TETHER's headers as they were, the next epoch is as it was. -/
theorem nextEpoch_eq {d e : Dev} (h : KeepsRegs epochReg d e) (hi : ∀ n < 24, e.on 0x17 n = d.on 0x17 n) :
    e.nextEpoch = d.nextEpoch := by
  have heven : ∀ n < 24, ∀ i < 4, epochReg (regAddr 0x17 n (Reg.TTH_HELD.EVEN.nth i).off) = true := by decide
  have hodd : ∀ n < 24, ∀ i < 4, epochReg (regAddr 0x17 n (Reg.TTH_HELD.ODD.nth i).off) = true := by decide
  have hheld : ((List.range 24).flatMap fun n => if e.on 0x17 n = true then (List.range 4).flatMap fun i =>
      [e.fget (Reg.TTH_HELD.EVEN.nth i) n / 2, e.fget (Reg.TTH_HELD.ODD.nth i) n / 2] else []) =
      (List.range 24).flatMap fun n => if d.on 0x17 n = true then (List.range 4).flatMap fun i =>
      [d.fget (Reg.TTH_HELD.EVEN.nth i) n / 2, d.fget (Reg.TTH_HELD.ODD.nth i) n / 2] else [] := by
    refine List.flatMap_congr fun n hn => ?_
    have hn := List.mem_range.1 hn
    rw [hi n hn]
    refine ite_congr rfl (fun _ => List.flatMap_congr fun i hi' => ?_) fun _ => rfl
    have hi' := List.mem_range.1 hi'
    rw [h.fget (g := Reg.TTH_HELD.EVEN.nth i) (heven n hn i hi'), h.fget (g := Reg.TTH_HELD.ODD.nth i) (hodd n hn i hi')]
  unfold Dev.nextEpoch
  rw [hheld, h.fget (g := Reg.BLY_EPOCH.OWN) (by decide), h.fget (g := Reg.BLY_EPOCH.PEER) (by decide)]

/-! ### Fencing (R409, R426) -/

section
variable (d : Dev)

/-- A block in safe state stays there while others follow. -/
theorem safeInst_safe (b n b' n' : Nat) (h : (d.inst b' n').safe = true ∨ (b', n') = (b, n)) :
    ((d.safeInst b n).inst b' n').safe = true := by
  have hmod : (d.safeInst b n).inst b' n' = (d.modInst b n fun i =>
      { i with safe := true, zeroed := false, check := none, swap := false, swapReady := false, disabling := false,
               heldDisable := false }).inst b' n' := by
    unfold Dev.safeInst
    split <;> rfl
  rw [hmod]
  by_cases hk : instKey b' n' = instKey b n
  · simp [Dev.modInst, Dev.setInst, Dev.inst, hk]
  · rw [Dev.modInst, inst_setInst_other _ _ _ _ _ _ hk]
    refine h.resolve_right ?_
    rintro ⟨⟩
    exact hk rfl

theorem safeInsts_safe (l : List (Nat × Nat)) (b n : Nat) (h : (d.inst b n).safe = true ∨ (b, n) ∈ l) :
    ((l.foldl (fun d p => d.safeInst p.1 p.2) d).inst b n).safe = true := by
  induction l generalizing d with
  | nil => simpa using h
  | cons p l ih =>
    refine ih _ ?_
    rw [List.mem_cons] at h
    rcases h with hs | hp | hl
    · exact .inl (safeInst_safe _ _ _ _ _ (.inl hs))
    · exact .inl (safeInst_safe _ _ _ _ _ (.inr hp))
    · exact .inr hl

theorem safeBlocks_safe {blks : List Nat} {b n : Nat} (h : (b, n) ∈ allInsts.filter fun p => blks.contains p.1) :
    ((d.safeBlocks blks).inst b n).safe = true := by
  unfold Dev.safeBlocks
  exact safeInsts_safe _ _ _ _ (.inr h)

theorem LeavesPair.safeInst {d e : Dev} (h : LeavesPair d e) {b : Nat} (n : Nat) (hb : b ≠ 0x19) :
    LeavesPair d (e.safeInst b n) := by
  unfold Dev.safeInst
  dsimp only
  rw [if_neg hb]
  exact same (fset (g := Reg.SPT_SAFE.BLOCKS) (n := 0) (same h) _)

theorem LeavesPair.safeBlocks {d e : Dev} (h : LeavesPair d e) {blks : List Nat} (hb : 0x19 ∉ blks) :
    LeavesPair d (e.safeBlocks blks) := by
  refine foldl _ (fun c p hp => (refl c).safeInst _ ?_) h
  rintro hp'
  rw [List.mem_filter, hp', List.contains_iff_mem] at hp
  exact hb hp.2

/-- A fenced unit: FENCED, no takeover under way, and ROPE, among others, in safe state. -/
theorem fence_spec (cause : Nat) (hon : d.on 0x19 = true) (hb : d.bly ≠ 6) :
    (d.fence cause).bly = 6 ∧ (d.fence cause).belay.takeover = .none ∧ ((d.fence cause).inst 0x12 0).safe = true := by
  unfold Dev.fence
  rw [if_neg (by simp [hon, hb])]
  dsimp only
  have hf := (LeavesPair.refl (d.modBelay fun b =>
    { b with beating := false, takeover := .none, bundling := false, joinWaits := false })).safeBlocks
    (blks := [0x08, 0x0C, 0x0D, 0x17, 0x11, 0x12]) (by decide)
  have hs := safeBlocks_safe (d.modBelay fun b =>
    { b with beating := false, takeover := .none, bundling := false, joinWaits := false })
    (blks := [0x08, 0x0C, 0x0D, 0x17, 0x11, 0x12]) (b := 0x12) (n := 0) (by decide)
  generalize Dev.safeBlocks _ _ = f at hf hs ⊢
  have hg : LeavesPair (f.setBly 6) ((((f.setBly 6).setErr 0x19 0 10).post 0x19 0 0x192 cause).takeoverEvent 9 0) :=
    (((LeavesPair.refl (f.setBly 6)).setErr 0x19 0 10).post 0x19 0 0x192 cause).takeoverEvent 9 0
  refine ⟨?_, ?_, ?_⟩
  · exact (hg.fget (g := Reg.BLY_STATUS.STATE) (by decide)).trans (fget_fset _ _ _ _ (by decide) (by decide))
  · rw [hg.belay, Dev.setBly, fset_belay, hf.belay]
    rfl
  · rw [Dev.inst, Dev.takeoverEvent, event_insts, ← Dev.inst, post_inst, setErr_inst_other _ _ _ _ _ _ (by decide), Dev.inst,
      Dev.setBly, fset_insts]
    exact hs

/-! ### Group owners (R16) -/

/-- Two fields that no write of the first changes the second. -/
abbrev Apart (f g : FRef) (n m : Nat) : Prop :=
  f.lo ≤ f.hi ∧ f.hi < 64 ∧ g.lo ≤ g.hi ∧ (regAddr g.blk m g.off ≠ regAddr f.blk n f.off ∨ g.hi < f.lo ∨ f.hi < g.lo)

theorem setOwner_fget {g : FRef} (home owner : Nat) (h : Apart Reg.HOSTQ_ANA_OWN.UNIT g 0 0) :
    (d.setOwner home owner).fget g = d.fget g := fget_fset_apart _ _ h

theorem setOwner_belay (home owner : Nat) : (d.setOwner home owner).belay = d.belay := by
  rw [Dev.setOwner, fset_belay]

/-- A bit that some of the writes set reads the value they all write. -/
theorem bits_setFields (l : List Nat) (hl : ∀ i ∈ l, i < 64) (w : Word) (v i : Nat)
    (h : i ∈ l ∨ field w i i = v % 2) (hi : i < 64) :
    field (l.foldl (fun w j => setField w j j v) w) i i = v % 2 := by
  induction l generalizing w with
  | nil => simpa using h
  | cons j l ih =>
    refine ih (fun k hk => hl k (List.mem_cons_of_mem _ hk)) _ ?_
    by_cases hj : i = j
    · subst hj
      exact .inr ((field_setField _ _ _ _ le_rfl hi).trans (by simp))
    · rw [List.mem_cons] at h
      rw [field_setField_other _ _ _ _ _ _ (hl j (by simp)) le_rfl le_rfl (by omega)]
      exact h.imp_left fun h => h.resolve_left hj

theorem mem_homeGroups {d : Dev} {u g : Nat} (h : g ∈ d.homeGroups u) : g - 1 < 64 := by
  rw [Dev.homeGroups, List.mem_map] at h
  obtain ⟨i, hi, rfl⟩ := h
  exact List.mem_range.1 (List.mem_of_mem_filter hi)

/-- A unit's home groups all change owner. -/
theorem groupOwner_setOwner {home owner g : Nat} (ho : owner < 2) (hg : g ∈ d.homeGroups home) :
    bitsOf ((d.setOwner home owner).fget Reg.HOSTQ_ANA_OWN.UNIT) (g - 1) (g - 1) = owner := by
  unfold Dev.setOwner
  rw [fget_fset _ _ _ _ (by decide) (by decide)]
  set w := (d.homeGroups home).foldl (fun w g => setField w (g - 1) (g - 1) owner)
    (BitVec.ofNat 64 (d.fget Reg.HOSTQ_ANA_OWN.UNIT)) with hw
  have hmap : w = ((d.homeGroups home).map (· - 1)).foldl (fun w j => setField w j j owner)
      (BitVec.ofNat 64 (d.fget Reg.HOSTQ_ANA_OWN.UNIT)) := by rw [hw, List.foldl_map]
  have hbit := bits_setFields ((d.homeGroups home).map (· - 1)) (fun i hi => by
    obtain ⟨g, hg, rfl⟩ := List.mem_map.1 hi
    exact mem_homeGroups hg) (BitVec.ofNat 64 (d.fget Reg.HOSTQ_ANA_OWN.UNIT)) owner (g - 1)
    (.inl (List.mem_map_of_mem hg)) (mem_homeGroups hg)
  rw [← hmap] at hbit
  have hfull : w.toNat % 2 ^ (Reg.HOSTQ_ANA_OWN.UNIT.hi - Reg.HOSTQ_ANA_OWN.UNIT.lo + 1) = w.toNat :=
    Nat.mod_eq_of_lt w.isLt
  rw [hfull]
  exact hbit.trans (Nat.mod_eq_of_lt ho)

theorem unitId_lt : d.unitId < 2 := fget_lt d Reg.CAMP_STRAP.UNIT_ID 0

end

end Sys2Proof.Proofs
end

section
/-! SUPPORT. The loss of the partner (R396, R410, R415). -/

namespace Sys2Proof.Proofs

open Sys2Proof.Machine Sys2Proof.Laws

set_option Elab.async false

variable (d : Dev)

theorem blyReg_pairReg (a : Nat) (h : blyReg a = true) : pairReg a = true := by
  rw [blyReg, Bool.and_eq_true] at h
  exact h.1

theorem LeavesPair.bly {d e : Dev} (h : LeavesPair d e) : e.bly = d.bly := h.fget (g := Reg.BLY_STATUS.STATE) (by decide)

theorem LeavesPair.unitId {d e : Dev} (h : LeavesPair d e) : e.unitId = d.unitId :=
  h.fget (g := Reg.CAMP_STRAP.UNIT_ID) (by decide)

theorem wake_belay : d.wake.belay = d.belay := by
  unfold Dev.wake Dev.retargetAll
  split
  · rfl
  · refine List.foldlRecOn (motive := fun e : Dev => e.belay = d.belay) psDoms Dev.retarget rfl fun e he k _ => ?_
    unfold Dev.retarget
    dsimp only
    split
    · rw [post_belay, setErr_belay]
      exact he
    · exact he

theorem wake_on {b n : Nat} (h : instKey b n ≠ instKey 0 0) : d.wake.on b n = d.on b n := by
  have hi : d.wake.inst b n = d.inst b n := by
    unfold Dev.wake
    split
    · rfl
    · exact retargetAll_inst_other _ _ _ _ h
  rw [Dev.on, Dev.on, Dev.isEnabled, Dev.isEnabled, hi]

/-! ### A takeover starts -/

/-- A takeover's start up to its claim. -/
def takeoverBegun (t0 : Nat) : Dev :=
  (((d.setBly 3).fset Reg.BLY_LAST_T0.NS t0).modBelay fun b =>
    { b with takeover := .claiming, t0 := t0, bundling := false, joinWaits := false, pairNext := false,
             releasing := false, rxPart := none, rxSects := [] }).inFlightAll t0

theorem startTakeover_eq (t0 : Nat) :
    let e := (takeoverBegun d t0).raiseClaim (1 - (takeoverBegun d t0).unitId)
    d.startTakeover t0 = (e.takeoverEvent 1 0).post 0x19 0 0x190 (e.fget Reg.BLY_EPOCH.OWN) := rfl

theorem startTakeover_belay (t0 : Nat) : (d.startTakeover t0).belay =
    { d.belay with takeover := .claiming, t0 := t0, bundling := false, joinWaits := false, pairNext := false,
                   releasing := false, rxPart := none, rxSects := [] } := by
  rw [startTakeover_eq, Dev.takeoverEvent, post_belay, event_belay, raiseClaim_belay]
  rfl

/-- Of the pair's registers outside TETHER, a takeover's start sets STATE, BLY_LAST_T0 and the epoch. -/
theorem startTakeover_regs (t0 : Nat) :
    KeepsRegs blyReg (((d.setBly 3).fset Reg.BLY_LAST_T0.NS t0).fset Reg.BLY_EPOCH.OWN d.nextEpoch)
      (d.startTakeover t0) := by
  have hepoch : (takeoverBegun d t0).nextEpoch = d.nextEpoch :=
    nextEpoch_eq ((KeepsRegs.fset (d := d) _ (by decide)).trans (.fset _ _ (by decide))) fun _ _ => rfl
  have hclaim := raiseClaim_regs (takeoverBegun d t0) (1 - (takeoverBegun d t0).unitId)
  rw [hepoch] at hclaim
  rw [startTakeover_eq]
  generalize (takeoverBegun d t0).raiseClaim _ = e at hclaim ⊢
  have hpost : LeavesPair e ((e.takeoverEvent 1 0).post 0x19 0 0x190 (e.fget Reg.BLY_EPOCH.OWN)) :=
    ((LeavesPair.refl e).takeoverEvent 1 0).post _ _ _ _
  exact KeepsRegs.trans hclaim (hpost.regs.mono blyReg_pairReg)

theorem startTakeover_bly (t0 : Nat) : (d.startTakeover t0).bly = 3 := by
  rw [Dev.bly, (startTakeover_regs d t0).fget (by decide), fget_fset_apart _ _ (by decide), fget_fset_apart _ _ (by decide),
    Dev.setBly, fget_fset _ _ _ _ (by decide) (by decide)]
  rfl

theorem startTakeover_own (t0 : Nat) : (d.startTakeover t0).fget Reg.BLY_EPOCH.OWN = d.nextEpoch % 2 ^ 31 := by
  rw [(startTakeover_regs d t0).fget (by decide), fget_fset _ _ _ _ (by decide) (by decide)]
  rfl

theorem startTakeover_lastT0 (t0 : Nat) : (d.startTakeover t0).fget Reg.BLY_LAST_T0.NS = t0 % 2 ^ 64 := by
  rw [(startTakeover_regs d t0).fget (by decide), fget_fset_apart _ _ (by decide), fget_fset _ _ _ _ (by decide) (by decide)]
  rfl

/-- Any other of those fields keeps its value. -/
theorem startTakeover_fget (t0 : Nat) {g : FRef} (hg : blyReg (regAddr g.blk 0 g.off) = true)
    (hs : Apart Reg.BLY_STATUS.STATE g 0 0) (ht : Apart Reg.BLY_LAST_T0.NS g 0 0) (ho : Apart Reg.BLY_EPOCH.OWN g 0 0) :
    (d.startTakeover t0).fget g = d.fget g := by
  rw [(startTakeover_regs d t0).fget hg, fget_fset_apart _ _ ho, fget_fset_apart _ _ ht, Dev.setBly,
    fget_fset_apart _ _ hs]

/-! ### PARTNER_LOST (R396, R415) -/

/-- Both paths are shown down. -/
def pathsDown : Dev := (d.wake.fset Reg.BLY_STATUS.LINK_UP 0).fset Reg.BLY_STATUS.PINS_UP 0

theorem pathsDown_belay : (pathsDown d).belay = d.belay := wake_belay d

theorem pathsDown_fget {g : FRef} (hg : pairReg (regAddr g.blk 0 g.off) = true) (hl : Apart Reg.BLY_STATUS.LINK_UP g 0 0)
    (hp : Apart Reg.BLY_STATUS.PINS_UP g 0 0) : (pathsDown d).fget g = d.fget g := by
  rw [pathsDown, fget_fset_apart _ _ hp, fget_fset_apart _ _ hl]
  exact (LeavesPair.refl d).wake.fget hg

theorem pathsDown_bly : (pathsDown d).bly = d.bly := pathsDown_fget _ (by decide) (by decide) (by decide)

theorem pathsDown_link : (pathsDown d).fget Reg.BLY_STATUS.LINK_UP = 0 := by
  rw [pathsDown, fget_fset_apart _ _ (by decide), fget_fset _ _ _ _ (by decide) (by decide)]
  rfl

theorem pathsDown_pins : (pathsDown d).fget Reg.BLY_STATUS.PINS_UP = 0 := by
  rw [pathsDown, fget_fset _ _ _ _ (by decide) (by decide)]
  rfl

theorem pathsDown_nextEpoch : (pathsDown d).nextEpoch = d.nextEpoch := by
  refine nextEpoch_eq ?_ fun n hn => ?_
  · refine KeepsRegs.trans (KeepsRegs.mono (LeavesPair.refl d).wake.regs fun a ha => ?_)
      ((KeepsRegs.fset _ _ (by decide)).trans (.fset _ _ (by decide)))
    simp only [epochReg, inBlock, regAddr, instBase, Reg.BLY_EPOCH.OWN, pairReg] at ha ⊢
    simp at ha ⊢
    omega
  · exact wake_on d (by simp [instKey])

/-- PARTNER_LOST of a unit in a pair whose partner is silent on both paths. -/
theorem partnerLost_eq (hon : d.on 0x19 = true) (hb : d.bly = 2 ∨ d.bly = 4 ∨ d.bly = 5)
    (hl : d.silent d.belay.lastLink = true) (hp : d.silent d.belay.lastPins = true) :
    d.partnerLost =
      if d.bly = 4 then
        if !d.belay.handback then ((pathsDown d).setBly 1).modBelay fun b => { b with joinWaits := false }
        else if (pathsDown d).fget Reg.MAP_RECOVER.STATE = 2 then
          (pathsDown d).startTakeover (max (d.belay.lastLink.getD 0) (d.belay.lastPins.getD 0))
        else pathsDown d
      else if d.bly = 5 ∧ !d.belay.handover ∧ !d.belay.releasing then
        ((((pathsDown d).setBly 3).fset Reg.ROPE_PAIR.PAIRED 0).reportGroups
          (1 - (pathsDown d).unitId) none).modBelay
          fun b => { b with bundling := false, pairNext := false, rxPart := none, rxSects := [] }
      else
        (if d.belay.handover then
          ((((pathsDown d).fset Reg.BLY_CMD.RESULT 0x21).fset Reg.BLY_CMD.BUSY 0).reportGroups
            (pathsDown d).unitId none).modBelay fun b => { b with handover := false }
        else pathsDown d).startTakeover (max (d.belay.lastLink.getD 0) (d.belay.lastPins.getD 0)) := by
  have hdown : (d.wake.fset Reg.BLY_STATUS.LINK_UP 0).fset Reg.BLY_STATUS.PINS_UP 0 = pathsDown d := rfl
  unfold Dev.partnerLost
  rw [if_neg (by simp [hon, hl, hp]; tauto)]
  dsimp only
  rw [hdown, pathsDown_bly]

section
variable {d : Dev} (hon : d.on 0x19 = true) (hl : d.silent d.belay.lastLink = true)
  (hp : d.silent d.belay.lastPins = true)
include hon hl hp

/-- A paired unit, or a holder that has handed back, takes over (R396, R410, R415). -/
theorem partnerLost_takesOver (hb : d.bly = 2 ∨ (d.bly = 5 ∧ d.belay.releasing = true)) (hh : d.belay.handover = false) :
    d.partnerLost = (pathsDown d).startTakeover (max (d.belay.lastLink.getD 0) (d.belay.lastPins.getD 0)) := by
  rw [partnerLost_eq d hon (by tauto) hl hp, if_neg (by omega),
    if_neg (by rintro ⟨h5, -, hr⟩; rcases hb with h | ⟨-, h⟩ <;> simp_all), if_neg (by simp [hh])]

/-- A handover under way ends without success, and the unit takes over (R416). -/
theorem partnerLost_handover (hb : d.bly = 2 ∨ d.bly = 5) (hh : d.belay.handover = true) :
    let e := d.partnerLost
    e.bly = 3 ∧ e.belay.takeover = .claiming ∧ e.belay.handover = false ∧ e.fget Reg.BLY_CMD.RESULT = 0x21 ∧
      e.fget Reg.BLY_CMD.BUSY = 0 := by
  rw [partnerLost_eq d hon (by tauto) hl hp, if_neg (by omega), if_neg (by simp [hh]), if_pos hh]
  refine ⟨startTakeover_bly _ _, ?_, ?_, ?_, ?_⟩
  · rw [startTakeover_belay]
  · rw [startTakeover_belay]
    rfl
  · rw [startTakeover_fget _ _ (by decide) (by decide) (by decide) (by decide)]
    exact (fget_fset_apart _ _ (by decide)).trans (fget_fset _ _ _ _ (by decide) (by decide))
  · rw [startTakeover_fget _ _ (by decide) (by decide) (by decide) (by decide)]
    exact fget_fset _ _ _ _ (by decide) (by decide)

/-- A holder that has not handed back serves on alone (R415). -/
theorem partnerLost_holder (hb : d.bly = 5) (hh : d.belay.handover = false) (hr : d.belay.releasing = false) :
    let e := d.partnerLost
    e.bly = 3 ∧ e.belay.takeover = d.belay.takeover ∧ e.fget Reg.ROPE_PAIR.PAIRED = 0 ∧ e.belay.bundling = false ∧
      e.fget Reg.BLY_EPOCH.OWN = d.fget Reg.BLY_EPOCH.OWN := by
  rw [partnerLost_eq d hon (by tauto) hl hp, if_neg (by omega), if_pos (by simp [hb, hh, hr])]
  refine ⟨?_, ?_, ?_, rfl, ?_⟩
  · exact (fget_fset_apart _ _ (by decide)).trans (fget_fset _ _ _ _ (by decide) (by decide))
  · have ht := congrArg Belay.takeover (pathsDown_belay d)
    exact ht
  · exact fget_fset _ _ _ _ (by decide) (by decide)
  · exact ((fget_fset_apart _ _ (by decide)).trans (fget_fset_apart _ _ (by decide))).trans
      (pathsDown_fget _ (by decide) (by decide) (by decide))

/-- A joiner that nothing has been handed waits again (R415). -/
theorem partnerLost_joiner (hb : d.bly = 4) (hk : d.belay.handback = false) :
    let e := d.partnerLost
    e.bly = 1 ∧ e.belay = { d.belay with joinWaits := false } ∧ e.fget Reg.BLY_STATUS.LINK_UP = 0 ∧
      e.fget Reg.BLY_STATUS.PINS_UP = 0 := by
  rw [partnerLost_eq d hon (by tauto) hl hp, if_pos hb, if_pos (by simp [hk])]
  refine ⟨?_, ?_, ?_, ?_⟩
  · exact fget_fset _ _ _ _ (by decide) (by decide)
  · exact congrArg (fun b : Belay => { b with joinWaits := false }) (pathsDown_belay d)
  · exact (fget_fset_apart _ _ (by decide)).trans (pathsDown_link d)
  · exact (fget_fset_apart _ _ (by decide)).trans (pathsDown_pins d)

/-- A joiner with the claims recovers by itself, and takes over once it has (R415). -/
theorem partnerLost_handedBack (hb : d.bly = 4) (hk : d.belay.handback = true) :
    let e := d.partnerLost
    (d.fget Reg.MAP_RECOVER.STATE ≠ 2 → e.bly = 4 ∧ e.belay = d.belay) ∧
      (d.fget Reg.MAP_RECOVER.STATE = 2 → e.bly = 3 ∧ e.belay.takeover = .claiming) := by
  rw [partnerLost_eq d hon (by tauto) hl hp, if_pos hb, if_neg (by simp [hk]),
    pathsDown_fget _ (by decide) (by decide) (by decide)]
  refine ⟨fun hs => ?_, fun hs => ?_⟩
  · rw [if_neg hs]
    exact ⟨(pathsDown_bly d).trans hb, pathsDown_belay d⟩
  · rw [if_pos hs]
    refine ⟨startTakeover_bly _ _, ?_⟩
    rw [startTakeover_belay]

end

/-- Nothing comes of PARTNER_LOST while a path is heard, BELAY is out of service, or there is no pair. -/
theorem partnerLost_none (h : d.silent d.belay.lastLink = false ∨ d.silent d.belay.lastPins = false ∨ d.on 0x19 = false ∨
    (d.bly ≠ 2 ∧ d.bly ≠ 4 ∧ d.bly ≠ 5)) : d.partnerLost = d := by
  unfold Dev.partnerLost
  refine if_pos ?_
  rcases h with h | h | h | ⟨h2, h4, h5⟩ <;> simp [*]

end Sys2Proof.Proofs
end

section
/-! SUPPORT. The claims of a takeover, what is released, and the state loaded (R223, R407, R408, R410, R411). -/

namespace Sys2Proof.Proofs

open Sys2Proof.Machine Sys2Proof.Laws

set_option Elab.async false

section
variable {d : Dev}

/-! ### The two exchanges (R407, R408) -/

theorem takeoverClaimed_wins (ht : d.belay.takeover = .claiming) (hx : d.claimX = none)
    (hm : d.media.claimRejected = false) :
    let e := d.takeoverClaimed
    e.belay = { d.belay with takeover := .claimingOwn } ∧ e.bly = d.bly ∧ e.media.claimRejected = false := by
  unfold Dev.takeoverClaimed
  rw [if_neg (by simp [ht, hx]), if_neg (by simp [hm])]
  exact ⟨claimSend_belay _ _ _ _, claimSend_fget _ _ _ _ (by decide), claimSend_rejected _ _ _ _⟩

theorem takeoverClaimed_loses (hon : d.on 0x19 = true) (ht : d.belay.takeover = .claiming) (hx : d.claimX = none)
    (hm : d.media.claimRejected = true) (hb : d.bly ≠ 6) :
    let e := d.takeoverClaimed
    e.bly = 6 ∧ e.belay.takeover = .none ∧ (e.inst 0x12 0).safe = true := by
  unfold Dev.takeoverClaimed
  rw [if_neg (by simp [ht, hx]), if_pos (by simp [hm])]
  exact fence_spec d 2 hon hb

theorem takeoverClaimed_none (h : d.belay.takeover ≠ .claiming ∨ d.claimX.isSome = true) : d.takeoverClaimed = d :=
  if_pos h

theorem takeoverWon_loses (hon : d.on 0x19 = true) (ht : d.belay.takeover = .claimingOwn) (hx : d.claimX = none)
    (hm : d.media.claimRejected = true ∨ d.media.claimLost = true) (hb : d.bly ≠ 6) :
    let e := d.takeoverWon
    e.bly = 6 ∧ e.belay.takeover = .none ∧ (e.inst 0x12 0).safe = true := by
  unfold Dev.takeoverWon
  rw [if_neg (by simp [ht, hx]), if_pos (by simpa using hm)]
  exact fence_spec d 2 hon hb

theorem takeoverWon_none (h : d.belay.takeover ≠ .claimingOwn ∨ d.claimX.isSome = true) : d.takeoverWon = d :=
  if_pos h

end

variable (d : Dev)

/-! ### What a unit on its own releases (R27, R408) -/

/-- What the state of the pair is once ROPE runs unpaired. -/
theorem goUnpaired_spec :
    let e := d.goUnpaired
    KeepsRegs pairReg (d.fset Reg.ROPE_PAIR.PAIRED 0) e ∧ e.trans.recs = [] ∧ e.belay.out = [] ∧
      e.belay.takeover = d.belay.takeover ∧ e.belay.handover = d.belay.handover := by
  generalize hE : d.goUnpaired = E
  unfold Dev.goUnpaired Dev.recsHeld at hE
  extract_lets d₁ d₂ done m d₃ d₄ at hE
  have hrel : LeavesPair d₁ d₂ := (LeavesPair.refl d₁).releaseUnpaired _
  have hpaired : d₁.fget Reg.ROPE_PAIR.PAIRED = 0 := fget_fset _ _ _ _ (by decide) (by decide)
  clear_value d₂
  have hheld : LeavesPair d₄ E := hE ▸ .foldl _ (fun c t _ => (LeavesPair.refl c).recHeld t) (.refl d₄)
  have hunpaired : d₄.fget Reg.ROPE_PAIR.PAIRED = 0 := (hrel.fget (by decide)).trans hpaired
  refine ⟨hrel.regs.trans hheld.regs, ?_, ?_, ?_, ?_⟩
  · exact (hheld.recs hunpaired).trans List.drop_length
  · exact (hheld.belayOf Belay.out).trans (hrel.belayOf Belay.out)
  · exact (hheld.belayOf Belay.takeover).trans (hrel.belayOf Belay.takeover)
  · exact (hheld.belayOf Belay.handover).trans (hrel.belayOf Belay.handover)

theorem takeoverWon_wins {d : Dev} (ht : d.belay.takeover = .claimingOwn) (hx : d.claimX = none)
    (hm : d.media.claimRejected = false) (hlost : d.media.claimLost = false) :
    let e := d.takeoverWon
    e.belay.takeover = .released ∧ e.belay.out = [] ∧ e.fget Reg.ROPE_PAIR.PAIRED = 0 ∧ e.trans.recs = [] := by
  unfold Dev.takeoverWon
  rw [if_neg (by simp [ht, hx]), if_neg (by simp [hm, hlost])]
  obtain ⟨hregs, hrecs, hout, htake, -⟩ := goUnpaired_spec (d.modBelay fun b => { b with takeover := .released })
  exact ⟨htake, hout, (hregs.fget (by decide)).trans (fget_fset _ _ _ _ (by decide) (by decide)), hrecs⟩

/-! ### The partner's state (R223, R335, R411) -/

theorem LeavesPair.reportGroups {d e : Dev} (h : LeavesPair d e) (home : Nat) (a : Option Ana) :
    LeavesPair d (e.reportGroups home a) := h.same

theorem homeGroups_eq {d e : Dev} (h : e.fget Reg.BLY_HOME.GROUPS = d.fget Reg.BLY_HOME.GROUPS) (u : Nat) :
    e.homeGroups u = d.homeGroups u := by rw [Dev.homeGroups, Dev.homeGroups, h]

/-- The load ends with the partner's counters passed and its groups owned. -/
theorem takeoverLoad_spec {d : Dev} (root : RootObs) (ht : d.belay.takeover = .released) (hrope : d.belay.ropeHigh < 2 ^ 63) :
    let e := d.takeoverLoad root
    e.belay.takeover = .loaded ∧ e.belay.kept = [] ∧ d.belay.seqHigh < e.map.seq ∧
      d.belay.ropeHigh < e.fget Reg.ROPE_NEXT.ROPE ∧
      ∀ g ∈ d.homeGroups (1 - d.unitId), bitsOf (e.fget Reg.HOSTQ_ANA_OWN.UNIT) (g - 1) (g - 1) = d.unitId := by
  generalize hE : d.takeoverLoad root = E
  unfold Dev.takeoverLoad at hE
  rw [if_neg (by simp [ht])] at hE
  extract_lets d₁ from_ d₂ d₃ d₄ d₅ lag d₆ d₇ m₇ d₈ d₉ other ns pages cold h₉ m₉ d₁₀ d₁₁ warm h₁₁ d₁₂ mib d₁₃ d₁₄ at hE
  have happlied : LeavesPair d d₄ := by
    refine .applyKept _ (.settleBands (.openReplayed (.foldl _ (fun c i _ => .ite ?_ (.refl c)) ?_) _) _)
    · exact (LeavesPair.refl c).replayRec _ _
    · exact (LeavesPair.refl d).loadPartnerRoot root
  clear_value d₄
  have hkept : LeavesPair (d₄.modBelay fun b => { b with kept := [] }) d₆ :=
    .foldl _ (fun c n _ => (LeavesPair.refl c).setDslot _ _) (LeavesPair.refl _).showStaging
  clear_value d₆
  have hceil : LeavesPair d₈ d₉ := (LeavesPair.refl d₈).raiseCeilings.takeoverEvent 3 0
  clear_value d₉
  have htold : LeavesPair d₈ d₁₀ := hceil.same
  have hwarm : LeavesPair (d₁₀.setOwner other d₁₀.unitId) d₁₃ := by
    have howned : LeavesPair (d₁₀.setOwner other d₁₀.unitId) d₁₁ := (LeavesPair.refl _).reportGroups _ _
    clear_value d₁₁
    exact .showWarm (.fset (howned.withHostq _) _)
  have hopened : LeavesPair (d₁₀.setOwner other d₁₀.unitId) d₁₄ := by
    refine .foldl _ (fun c o _ => ?_) hwarm
    split
    · exact (LeavesPair.refl c).openCarried _ _ _
    · exact .refl c
  clear_value d₁₄ d₁₀
  have hlast : LeavesPair (d₁₄.modBelay fun b => { b with takeover := .loaded }) E :=
    hE ▸ (LeavesPair.refl _).takeoverEvent 4 0
  have hfget {g : FRef} (hg : pairReg (regAddr g.blk 0 g.off) = true) (ha : Apart Reg.ROPE_NEXT.ROPE g 0 0) :
      d₈.fget g = d.fget g := (fget_fset_apart d₆ _ ha).trans ((hkept.fget hg).trans (happlied.fget hg))
  have hbelay {β : Type} (p : Belay → β) (h1 : ∀ b x y, p { b with fwdBack := x, carried := y } = p b)
      (h2 : ∀ b x, p { b with takeover := x } = p b) : p E.belay = p d₆.belay :=
    (hlast.belayOf p h1).trans ((h2 _ _).trans ((hopened.belayOf p h1).trans (htold.belayOf p h1)))
  refine ⟨hlast.belayOf Belay.takeover, ?_, ?_, ?_, ?_⟩
  · exact (hbelay Belay.kept (fun _ _ _ => rfl) fun _ _ => rfl).trans (hkept.belayOf Belay.kept)
  · have hhigh : d₆.belay.seqHigh = d.belay.seqHigh :=
      (hkept.belayOf Belay.seqHigh).trans (happlied.belayOf Belay.seqHigh)
    have hraised : d₆.belay.seqHigh + 1 ≤ d₈.map.seq := le_max_right _ _
    have hseq : d₈.map.seq ≤ E.map.seq := htold.seq.trans (hopened.seq.trans hlast.seq)
    omega
  · have hhigh : d₆.belay.ropeHigh = d.belay.ropeHigh :=
      (hkept.belayOf Belay.ropeHigh).trans (happlied.belayOf Belay.ropeHigh)
    have hnext : E.fget Reg.ROPE_NEXT.ROPE = d₈.fget Reg.ROPE_NEXT.ROPE :=
      (hlast.fget (by decide)).trans ((hopened.fget (by decide)).trans
        ((setOwner_fget _ _ _ (by decide)).trans (htold.fget (by decide))))
    have hraised : d₈.fget Reg.ROPE_NEXT.ROPE = max (d₆.fget Reg.ROPE_NEXT.ROPE) (d₆.belay.ropeHigh + 1) % 2 ^ 64 :=
      fget_fset d₆ _ _ _ (by decide) (by decide)
    have hlt : d₆.fget Reg.ROPE_NEXT.ROPE < 2 ^ 64 := fget_lt d₆ _ _
    rw [hnext, hraised, Nat.mod_eq_of_lt (by omega)]
    omega
  · intro g hg
    have hunit : d₈.unitId = d.unitId := hfget (by decide) (by decide)
    have hother : other = 1 - d.unitId := by rw [← hunit, ← hceil.unitId]
    have hhome : d₁₀.homeGroups other = d.homeGroups (1 - d.unitId) := by
      rw [hother]
      exact homeGroups_eq ((htold.fget (by decide)).trans (hfget (by decide) (by decide))) _
    have hmap : E.fget Reg.HOSTQ_ANA_OWN.UNIT = (d₁₀.setOwner other d₁₀.unitId).fget Reg.HOSTQ_ANA_OWN.UNIT :=
      (hlast.fget (by decide)).trans (hopened.fget (by decide))
    rw [hmap, groupOwner_setOwner _ (unitId_lt _) (hhome ▸ hg), htold.unitId, hunit]

end Sys2Proof.Proofs
end

section
/-! SUPPORT. The takeover resumes (R410, R412). -/

namespace Sys2Proof.Proofs

open Sys2Proof.Machine Sys2Proof.Laws

set_option Elab.async false

variable {d : Dev}

/-! ### What a resumed takeover leaves of the pair -/

theorem takeoverAccept_spec (ht : d.belay.takeover = .loaded) :
    let e := d.takeoverAccept
    e.belay.takeover = .none ∧ e.belay.precs = [] ∧ e.belay.keptDone = [] ∧ e.belay.pctx = [] ∧
      e.belay.handover = false ∧
      (d.belay.handover = false →
        e.fget Reg.BLY_COUNT.TAKEOVERS = (d.fget Reg.BLY_COUNT.TAKEOVERS + 1) % 2 ^ 32) ∧
      (d.belay.handover = true → e.fget Reg.BLY_COUNT.REJOINS = (d.fget Reg.BLY_COUNT.REJOINS + 1) % 2 ^ 32) := by
  generalize hE : d.takeoverAccept = E
  unfold Dev.takeoverAccept at hE
  rw [if_neg (by simp [ht])] at hE
  extract_lets handed d₁ h₁ d₂ d₃ d₄ h₄ d₅ d₆ d₇ at hE
  have hsettled : LeavesPair d₁ d₄ :=
    .foldl _ (fun c p _ => (LeavesPair.refl c).fwdTakenBack p)
      (.foldl _ (fun c p _ => (LeavesPair.refl c).settleCarried _ _) ((LeavesPair.refl d₁).withHostq _))
  clear_value d₄
  have htold : LeavesPair (d₅.modBelay fun b => { b with precs := [], keptDone := [], pctx := [] }) d₇ :=
    (LeavesPair.refl _).showHostq.takeoverEvent 5 0
  have hcount {g : FRef} (hg : pairReg (regAddr g.blk 0 g.off) = true) : d₇.fget g = d.fget g :=
    (htold.fget hg).trans (hsettled.fget hg)
  have hbelay {β : Type} (p : Belay → β) : p E.belay = p d₇.belay := by
    rw [← hE]
    split <;> simp
  refine ⟨?_, ?_, ?_, ?_, ?_, fun hh => ?_, fun hh => ?_⟩
  · exact (hbelay Belay.takeover).trans ((htold.belayOf Belay.takeover).trans (hsettled.belayOf Belay.takeover))
  · exact (hbelay Belay.precs).trans (htold.belayOf Belay.precs)
  · exact (hbelay Belay.keptDone).trans (htold.belayOf Belay.keptDone)
  · exact (hbelay Belay.pctx).trans (htold.belayOf Belay.pctx)
  · exact (hbelay Belay.handover).trans ((htold.belayOf Belay.handover).trans (hsettled.belayOf Belay.handover))
  · have hpost := (LeavesPair.refl (d₇.bump Reg.BLY_COUNT.TAKEOVERS)).post 0x19 0 0x191 0
    rw [← hE, if_neg (by simp [handed, hh]), hpost.fget (by decide), fget_bump _ _ _ _ (by decide) (by decide),
      hcount (by decide)]
    rfl
  · have hpost := (LeavesPair.refl (d₇.bump Reg.BLY_COUNT.REJOINS)).post 0x19 0 0x194 0
    rw [← hE, if_pos hh, hpost.fget (by decide), fget_bump _ _ _ _ (by decide) (by decide), hcount (by decide)]
    rfl

theorem takeoverAccept_none (h : d.belay.takeover ≠ .loaded) : d.takeoverAccept = d := if_pos h

/-! ### A command that had been forwarded runs here (R412) -/

theorem tag_modTag (k : Nat) (g : Tag → Tag) {t : Tag} (h : d.tag k = some t) : (d.modTag k g).tag k = some (g t) := by
  unfold Dev.modTag
  rw [h]
  exact look_put_self _ _ _

theorem modTag_pitch (k : Nat) (g : Tag → Tag) : (d.modTag k g).pitch = d.pitch := by
  unfold Dev.modTag
  split <;> rfl

/-- A command that no abort and no reset concerns is queued and arrives anew. -/
theorem fwdTakenBack_arrives {k : Nat} {t : Tag} (hfar : t.far = false) (hfwd : t.forwarded = true)
    (hs : t.state ≠ .completed) (ha : t.abortBy = none) (hq : (d.queue t.ctx).isSome = true)
    (hc : (d.ctrl t.ctrl).any (·.resetting) = false) :
    d.fwdTakenBack (k, t) = (d.modTag k fun t => { t with forwarded := false, state := .queued }).arrive t := by
  have hhostq (c : Nat) : (d.modTag k fun t => { t with forwarded := false, state := .queued }).queue c = d.queue c ∧
      (d.modTag k fun t => { t with forwarded := false, state := .queued }).ctrl c = d.ctrl c := by
    unfold Dev.modTag
    split <;> exact ⟨rfl, rfl⟩
  unfold Dev.fwdTakenBack
  rw [if_neg (by simp [hfar]), if_neg (by simp [hfwd, hs])]
  dsimp only
  rw [ha, (hhostq _).1, (hhostq _).2]
  exact if_neg (by simp [Option.isSome_iff_ne_none.1 hq, hc])

theorem event_held (e : PEvent) (hq : d.pitch.queue.length < 8192) (hh : d.pitch.held = []) :
    (d.event e).pitch.held = [] := by
  rw [Dev.event, if_pos ⟨hq, hh⟩]
  exact hh

/-- With one forwarded command and no carried context, the resumed unit queues that command and tells of its arrival. -/
theorem takeoverAccept_forwarded {k : Nat} {t : Tag} (ht : d.belay.takeover = .loaded) (hctx : d.belay.pctx = [])
    (htags : d.hostq.tags = [(k, t)]) (hrem : t.remote = none) (hfar : t.far = false) (hfwd : t.forwarded = true)
    (hs : t.state ≠ .completed) (ha : t.abortBy = none) (hq : (d.queue t.ctx).isSome = true)
    (hc : (d.ctrl t.ctrl).any (·.resetting) = false) (hroom : d.pitch.queue.length < 8191) (hheld : d.pitch.held = []) :
    let e := d.takeoverAccept
    e.tag k = some { t with forwarded := false, state := .queued } ∧
      ∃ x y, e.pitch.queue = d.pitch.queue ++ [x, y] ∧ (x.typ = 0x01 ∨ x.typ = 0x02) := by
  generalize hE : d.takeoverAccept = E
  unfold Dev.takeoverAccept at hE
  rw [if_neg (by simp [ht])] at hE
  extract_lets handed d₁ h₁ d₂ d₃ d₄ h₄ d₅ d₆ d₇ at hE
  have htags₂ : d₂.hostq.tags = [(k, t)] := by
    change d.hostq.tags.filter _ = _
    rw [htags]
    simp [hrem]
  have hd₃ : d₃ = d₂ := by
    change d.belay.pctx.foldl _ d₂ = d₂
    rw [hctx]
    rfl
  have hd₄ : d₄ = (d₂.modTag k fun t => { t with forwarded := false, state := .queued }).arrive t := by
    change d₃.hostq.tags.foldl Dev.fwdTakenBack d₃ = _
    rw [hd₃, htags₂]
    exact fwdTakenBack_arrives hfar hfwd hs ha hq hc
  have htag₄ : d₄.tag k = some { t with forwarded := false, state := .queued } := by
    rw [hd₄, Dev.tag, Dev.arrive, event_hostq]
    refine tag_modTag k _ ?_
    rw [Dev.tag, htags₂]
    simp [Tab.look]
  have hpitch : (d₂.modTag k fun t => { t with forwarded := false, state := .queued }).pitch = d.pitch := modTag_pitch _ _
  obtain ⟨x, hx, hxt⟩ : ∃ x : PEvent, d₄ = (d₂.modTag k fun t => { t with forwarded := false, state := .queued }).event x ∧
      (x.typ = 0x01 ∨ x.typ = 0x02) := by
    refine ⟨_, hd₄, ?_⟩
    dsimp only
    split
    · exact .inr rfl
    · exact .inl rfl
  have hqueue₄ : d₄.pitch.queue = d.pitch.queue ++ [x] := by
    rw [hx, event_queue _ _ (by rw [hpitch]; omega) (by rw [hpitch]; exact hheld), hpitch]
  have hheld₄ : d₄.pitch.held = [] := by
    rw [hx]
    exact event_held _ (by rw [hpitch]; omega) (by rw [hpitch]; exact hheld)
  clear_value d₄
  have hqueue₇ : ∃ y, d₇.pitch.queue = d₄.pitch.queue ++ [y] := by
    refine ⟨_, event_queue _ _ ?_ ?_⟩
    · change d₄.pitch.queue.length < 8192
      rw [hqueue₄, List.length_append, List.length_singleton]
      omega
    · exact hheld₄
  have hhostq₇ : d₇.hostq = d₆.hostq := event_hostq _ _
  have hlast : E.hostq = d₇.hostq ∧ E.pitch = d₇.pitch := by
    rw [← hE]
    split <;> simp
  obtain ⟨y, hy⟩ := hqueue₇
  refine ⟨?_, x, y, ?_, hxt⟩
  · rw [Dev.tag, hlast.1, hhostq₇]
    exact htag₄
  · rw [hlast.2, hy, hqueue₄, List.append_assoc]
    rfl

end Sys2Proof.Proofs
end

section
/-! SUPPORT. Rejoin and handover (R414 to R417). -/

namespace Sys2Proof.Proofs

open Sys2Proof.Machine Sys2Proof.Laws

set_option Elab.async false

variable {d : Dev}

/-! ### Frames of the link -/

/-- The next frame of the link is taken. -/
theorem brx_next {h : BHdr} (f : Dev → Dev) (hn : d.bNext h = true) : d.brx h f = f (d.bTaken h) := by
  simp only [Dev.bNext, Bool.and_eq_true, decide_eq_true_eq] at hn
  obtain ⟨⟨hup, hgood⟩, hseq⟩ := hn
  unfold Dev.brx
  rw [if_neg (by simp [hup]), if_neg (by simp [hgood]), if_pos hseq]
  rfl

theorem bTaken_bly (h : BHdr) : (d.bTaken h).bly = d.bly := rfl

/-- `e` is `d` with frames sent to the partner. -/
def Sends (d e : Dev) : Prop :=
  ∃ s u c, e = { d with belay := { d.belay with txSeq := s, unacked := u, credits := c } }

theorem Sends.trans {c d e : Dev} (h : Sends c d) (h' : Sends d e) : Sends c e := by
  obtain ⟨_, _, _, rfl⟩ := h
  obtain ⟨_, _, _, rfl⟩ := h'
  exact ⟨_, _, _, rfl⟩

theorem sends_bsend (d : Dev) (f : BFrame) : Sends d (d.bsend f) := by
  unfold Dev.bsend
  split
  · exact ⟨_, _, _, rfl⟩
  · exact ⟨_, _, _, rfl⟩

theorem sends_sendSection (d : Dev) (c sec : Nat) (bs : List Byte) : Sends d (d.sendSection c sec bs) :=
  List.foldlRecOn (motive := Sends d) _ _ ⟨_, _, _, rfl⟩ fun _ he _ _ => he.trans (sends_bsend _ _)

/-- Over a link that is up a frame waits for its acknowledgement. -/
theorem bsend_unacked (f : BFrame) (hup : d.blyUp = true) :
    (d.bsend f).belay.unacked = d.belay.unacked ++ [{ f with seq := (d.belay.txSeq + 1) % 2 ^ 32 }] := by
  simp only [Dev.blyUp, decide_eq_true_eq] at hup
  obtain ⟨hen, hphys⟩ := hup
  unfold Dev.bsend
  rw [if_neg (by simp [hen, hphys])]
  rfl

/-! ### JOIN (R414) -/

theorem rxJoin_waits {h : BHdr} (epoch : Nat) (hn : d.bNext h = true) (hb : d.bly = 3) (ht : d.belay.takeover = .none) :
    let e := d.rxJoin h epoch
    e.belay = { (d.bTaken h).belay with joinWaits := true } ∧ e.fget Reg.BLY_EPOCH.PEER = epoch % 2 ^ 31 ∧ e.bly = 3 := by
  have hb' : ((d.bTaken h).fset Reg.BLY_EPOCH.PEER epoch).bly = 3 := (fget_fset_apart _ _ (by decide)).trans hb
  unfold Dev.rxJoin
  rw [brx_next _ hn, if_pos ⟨hb', ht⟩]
  exact ⟨rfl, fget_fset _ _ _ _ (by decide) (by decide), hb'⟩

theorem rxJoin_noted {h : BHdr} (epoch : Nat) (hn : d.bNext h = true) (hb : d.bly ≠ 3 ∨ d.belay.takeover ≠ .none) :
    let e := d.rxJoin h epoch
    e.belay = (d.bTaken h).belay ∧ e.fget Reg.BLY_EPOCH.PEER = epoch % 2 ^ 31 ∧ e.bly = d.bly := by
  have hb' : ((d.bTaken h).fset Reg.BLY_EPOCH.PEER epoch).bly = d.bly := fget_fset_apart _ _ (by decide)
  unfold Dev.rxJoin
  rw [brx_next _ hn, if_neg]
  · exact ⟨rfl, fget_fset _ _ _ _ (by decide) (by decide), hb'⟩
  · rintro ⟨h3, hnone⟩
    exact hb.elim (fun h => h (hb'.symm.trans h3)) fun h => h hnone

/-! ### HANDBACK at the joiner (R415) -/

theorem rxHandback_claims {h : BHdr} (epoch : Nat) (hn : d.bNext h = true) (hb : d.bly = 4) :
    let e := d.rxHandback h epoch
    e.belay = { (d.bTaken h).belay with handback := true } ∧ e.bly = 4 ∧ e.fget Reg.BLY_EPOCH.PEER = epoch % 2 ^ 31 ∧
      ∀ g ∈ d.homeGroups d.unitId, bitsOf (e.fget Reg.HOSTQ_ANA_OWN.UNIT) (g - 1) (g - 1) = d.unitId := by
  unfold Dev.rxHandback
  rw [brx_next _ hn, if_neg (by simp [bTaken_bly, hb])]
  dsimp only
  have hfirst {g : FRef} (hg : Apart Reg.BLY_EPOCH.PEER g 0 0) :
      (((d.bTaken h).fset Reg.BLY_EPOCH.PEER epoch).modBelay fun b => { b with handback := true }).fget g = d.fget g :=
    fget_fset_apart _ _ hg
  have hpeer : (((d.bTaken h).fset Reg.BLY_EPOCH.PEER epoch).modBelay fun b => { b with handback := true }).fget
      Reg.BLY_EPOCH.PEER = epoch % 2 ^ 31 := fget_fset _ _ _ _ (by decide) (by decide)
  have hbelay : (((d.bTaken h).fset Reg.BLY_EPOCH.PEER epoch).modBelay fun b => { b with handback := true }).belay =
      { (d.bTaken h).belay with handback := true } := rfl
  generalize Dev.modBelay _ _ = e at hfirst hpeer hbelay ⊢
  have hclaim := raiseClaim_regs (e.setOwner e.unitId e.unitId) e.unitId
  refine ⟨?_, ?_, ?_, fun g hg => ?_⟩
  · rw [raiseClaim_belay]
    exact hbelay
  · rw [Dev.bly, hclaim.fget (by decide), fget_fset_apart _ _ (by decide), setOwner_fget _ _ _ (by decide),
      hfirst (by decide)]
    exact hb
  · rw [hclaim.fget (by decide), fget_fset_apart _ _ (by decide), setOwner_fget _ _ _ (by decide), hpeer]
  · have hunit : e.unitId = d.unitId := hfirst (by decide)
    rw [hclaim.fget (by decide), fget_fset_apart _ _ (by decide), groupOwner_setOwner _ (unitId_lt _), hunit]
    rwa [hunit, homeGroups_eq (hfirst (by decide))]

theorem rxHandback_none {h : BHdr} (epoch : Nat) (hn : d.bNext h = true) (hb : d.bly ≠ 4) :
    d.rxHandback h epoch = d.bTaken h := by
  unfold Dev.rxHandback
  rw [brx_next _ hn]
  exact if_pos hb

/-! ### The rejoin ends (R415) -/

theorem rejoined_spec (d : Dev) :
    let e := d.rejoined
    e.bly = 2 ∧ e.belay = { d.belay with releasing := false, handback := false, joinWaits := false, pairNext := false } ∧
      e.fget Reg.BLY_COUNT.REJOINS = (d.fget Reg.BLY_COUNT.REJOINS + 1) % 2 ^ 32 := by
  generalize hE : d.rejoined = E
  unfold Dev.rejoined at hE
  extract_lets d₁ d₂ at hE
  have hset {g : FRef} (hg : Apart Reg.BLY_STATUS.STATE g 0 0) : d₂.fget g = d.fget g := fget_fset_apart _ _ hg
  have hbly : d₂.bly = 2 := fget_fset _ _ _ _ (by decide) (by decide)
  have hbelay : d₂.belay =
      { d.belay with releasing := false, handback := false, joinWaits := false, pairNext := false } := rfl
  clear_value d₂
  have hpost := ((LeavesPair.refl (d₂.bump Reg.BLY_COUNT.REJOINS)).post 0x19 0 0x194 0).takeoverEvent 8 0
  refine ⟨?_, ?_, ?_⟩
  · rw [← hE, hpost.bly]
    exact (fget_fset_apart _ _ (by decide)).trans hbly
  · rw [← hE, Dev.takeoverEvent, event_belay, post_belay]
    exact hbelay
  · rw [← hE, hpost.fget (by decide), fget_bump _ _ _ _ (by decide) (by decide), hset (by decide)]
    rfl

/-- The joiner's DONE ends the rejoin at the holder. -/
theorem rejoinDone_holder {h : BHdr} (hn : d.bNext h = true) (hb : d.bly = 5) (hr : d.belay.releasing = true) :
    let e := d.rejoinDone (some h)
    e.bly = 2 ∧ e.belay.releasing = false ∧
      e.fget Reg.BLY_COUNT.REJOINS = (d.fget Reg.BLY_COUNT.REJOINS + 1) % 2 ^ 32 := by
  obtain ⟨hbly, hbelay, hcount⟩ := rejoined_spec (d.bTaken h)
  unfold Dev.rejoinDone
  dsimp only
  rw [brx_next _ hn, if_pos ⟨hb, hr⟩]
  exact ⟨hbly, congrArg Belay.releasing hbelay, hcount⟩

theorem rejoinDone_holder_none {h : BHdr} (hn : d.bNext h = true) (hb : d.bly ≠ 5 ∨ d.belay.releasing = false) :
    d.rejoinDone (some h) = d.bTaken h := by
  unfold Dev.rejoinDone
  dsimp only
  rw [brx_next _ hn]
  refine if_neg ?_
  rintro ⟨h5, hr⟩
  exact hb.elim (fun h => h h5) fun h => Bool.noConfusion (h.symm.trans hr)

/-- The joiner, recovered and in service, sends DONE and is paired. -/
theorem rejoinDone_joiner (hb : d.bly = 4) (hk : d.belay.handback = true) (hm : d.fget Reg.MAP_RECOVER.STATE = 2)
    (hp : d.fget Reg.ROPE_PAIR.PAIRED = 1) (h12 : d.on 0x12 = true) (h11 : d.on 0x11 = true) (h10 : d.on 0x10 = true) :
    let e := d.rejoinDone none
    e.bly = 2 ∧ e.belay.handback = false ∧
      e.fget Reg.BLY_COUNT.REJOINS = (d.fget Reg.BLY_COUNT.REJOINS + 1) % 2 ^ 32 ∧
      (d.blyUp = true → d.bSent e {
        seq := 0, typ := 8
        payload := (leBytes 3 8 ++ leBytes (d.fget Reg.BLY_EPOCH.OWN) 8 ++ leBytes 0 16) }) := by
  obtain ⟨hbly, hbelay, hcount⟩ := rejoined_spec (d.sendCtrl 3)
  obtain ⟨_, _, _, hsent⟩ : Sends d (d.sendCtrl 3) := sends_bsend _ _
  have hregs : (d.sendCtrl 3).fget Reg.BLY_COUNT.REJOINS = d.fget Reg.BLY_COUNT.REJOINS := by
    rw [hsent]
    rfl
  unfold Dev.rejoinDone
  dsimp only
  rw [if_pos ⟨hb, hk, hm, hp, h12, h11, h10⟩]
  refine ⟨hbly, congrArg Belay.handback hbelay, hcount.trans (by rw [hregs]), fun hup => ?_⟩
  exact (congrArg Belay.unacked hbelay).trans (bsend_unacked _ hup)

theorem rejoinDone_joiner_none (h : d.bly ≠ 4 ∨ d.belay.handback = false ∨ d.fget Reg.MAP_RECOVER.STATE ≠ 2 ∨
    d.fget Reg.ROPE_PAIR.PAIRED = 0 ∨ d.on 0x12 = false ∨ d.on 0x11 = false ∨ d.on 0x10 = false) :
    d.rejoinDone none = d := by
  unfold Dev.rejoinDone
  refine if_neg ?_
  rintro ⟨hb, hk, hm, hp, h12, h11, h10⟩
  simp_all

/-! ### HANDOVER (R416) -/

theorem blyHandover_begins (hon : d.on 0x19 = true) (hbusy : d.fget Reg.BLY_CMD.BUSY = 0) (hb : d.bly = 2) :
    let e := d.blyHandover
    e.belay = { d.belay with joinWaits := true, handover := true } ∧ e.fget Reg.BLY_CMD.BUSY = 1 ∧
      e.fget Reg.BLY_CMD.OP = 1 ∧ e.bly = 2 := by
  have hb' : (d.fset Reg.BLY_CMD.OP 1).bly = 2 := (fget_fset_apart _ _ (by decide)).trans hb
  have hon' : (d.fset Reg.BLY_CMD.OP 1).on 0x19 = true := hon
  unfold Dev.blyHandover
  rw [if_neg (by simp [hbusy])]
  dsimp only
  rw [if_neg (by simp [hon', hb'])]
  refine ⟨rfl, ?_, ?_, ?_⟩
  · exact fget_fset _ _ _ _ (by decide) (by decide)
  · exact (fget_fset_apart _ _ (by decide)).trans (fget_fset _ _ _ _ (by decide) (by decide))
  · exact (fget_fset_apart _ _ (by decide)).trans hb'

theorem blyHandover_refused (hbusy : d.fget Reg.BLY_CMD.BUSY = 0) (h : d.bly ≠ 2 ∨ d.on 0x19 = false) :
    let e := d.blyHandover
    e.belay = d.belay ∧ e.fget Reg.BLY_CMD.RESULT = 0x20 ∧ e.fget Reg.BLY_CMD.BUSY = 0 := by
  have hb' : (d.fset Reg.BLY_CMD.OP 1).bly = d.bly := fget_fset_apart _ _ (by decide)
  have hon' : (d.fset Reg.BLY_CMD.OP 1).on 0x19 = d.on 0x19 := rfl
  unfold Dev.blyHandover
  rw [if_neg (by simp [hbusy])]
  dsimp only
  rw [if_pos (by rw [hb', hon']; simpa [or_comm] using h)]
  refine ⟨rfl, fget_fset _ _ _ _ (by decide) (by decide), ?_⟩
  exact ((fget_fset_apart _ _ (by decide)).trans (fget_fset_apart _ _ (by decide))).trans hbusy

theorem rxHandover_takes {h : BHdr} (epoch : Nat) (hn : d.bNext h = true) (hb : d.bly = 2) :
    let e := d.rxHandover h epoch
    e.bly = 3 ∧ e.belay.takeover = .released ∧ e.belay.handover = true ∧ e.fget Reg.ROPE_PAIR.PAIRED = 0 ∧
      e.fget Reg.BLY_EPOCH.PEER = epoch % 2 ^ 31 := by
  unfold Dev.rxHandover
  rw [brx_next _ hn, if_neg (by simp [bTaken_bly, hb])]
  extract_lets d₁ d₂
  have hpeer : d₂.fget Reg.BLY_EPOCH.PEER = epoch % 2 ^ 31 := by
    refine (fget_fset_apart _ _ (by decide)).trans (((raiseClaim_regs _ _).fget (by decide)).trans
      ((fget_fset_apart _ _ (by decide)).trans (fget_fset _ _ _ _ (by decide) (by decide))))
  have hbly : d₂.bly = 3 := fget_fset _ _ _ _ (by decide) (by decide)
  have htake : d₂.belay.takeover = .released := rfl
  have hhand : d₂.belay.handover = true := rfl
  clear_value d₂
  obtain ⟨hregs, -, -, htake', hhand'⟩ := goUnpaired_spec d₂
  refine ⟨?_, htake'.trans htake, hhand'.trans hhand, ?_, ?_⟩
  · exact (hregs.fget (by decide)).trans ((fget_fset_apart _ _ (by decide)).trans hbly)
  · exact (hregs.fget (by decide)).trans (fget_fset _ _ _ _ (by decide) (by decide))
  · exact (hregs.fget (by decide)).trans ((fget_fset_apart _ _ (by decide)).trans hpeer)

theorem rxHandover_none {h : BHdr} (epoch : Nat) (hn : d.bNext h = true) (hb : d.bly ≠ 2) :
    d.rxHandover h epoch = d.bTaken h := by
  unfold Dev.rxHandover
  rw [brx_next _ hn]
  exact if_pos hb

/-! ### What a drained holder hands over (R415, R416) -/

/-- A sled's channels of one unit are released. -/
def releaseOwned (mask : Nat) (d : Dev) (n : Nat) : Dev :=
  d.fset Reg.TTH_OWN.OWNED (d.fget Reg.TTH_OWN.OWNED n - (d.fget Reg.TTH_OWN.OWNED n &&& mask)) n

theorem foldl_releaseOwned_regs (mask : Nat) (l : List Nat) (hl : ∀ n ∈ l, n < 24) (d : Dev) :
    KeepsRegs blyReg d (l.foldl (releaseOwned mask) d) := by
  have howned : ∀ n < 24, blyReg (regAddr 0x17 n Reg.TTH_OWN.OWNED.off) = false := by decide
  exact List.foldlRecOn (motive := KeepsRegs blyReg d) _ _ (.refl d) fun e he n hn =>
    he.trans (.fset _ _ (howned n (hl n hn)))

theorem foldl_releaseOwned_owned (mask : Nat) (l : List Nat) (hl : ∀ n ∈ l, n < 24) (hd : l.Nodup) {m : Nat} (hm : m ∈ l)
    (d : Dev) : (l.foldl (releaseOwned mask) d).fget Reg.TTH_OWN.OWNED m =
      d.fget Reg.TTH_OWN.OWNED m - (d.fget Reg.TTH_OWN.OWNED m &&& mask) := by
  induction l generalizing d with
  | nil => simp at hm
  | cons k l ih =>
    have hk : k < 24 := hl k (by simp)
    obtain ⟨hnew, hd'⟩ := List.nodup_cons.1 hd
    have hl' (n : Nat) (hn : n ∈ l) : n < 24 := hl n (List.mem_cons_of_mem _ hn)
    have haddr : ∀ m < 24, ∀ k < 24, m ≠ k → regAddr 0x17 m 0x218 ≠ regAddr 0x17 k 0x218 := by decide
    rw [List.foldl_cons]
    rcases List.mem_cons.1 hm with rfl | hml
    · have hkeep : ∀ n ∈ l, n ≠ m := fun n hn h => hnew (h ▸ hn)
      have hown : (releaseOwned mask d m).fget Reg.TTH_OWN.OWNED m =
          d.fget Reg.TTH_OWN.OWNED m - (d.fget Reg.TTH_OWN.OWNED m &&& mask) :=
        (fget_fset _ _ _ _ (by decide) (by decide)).trans
          (Nat.mod_eq_of_lt ((Nat.sub_le _ _).trans_lt (fget_lt d Reg.TTH_OWN.OWNED m)))
      rw [← hown]
      refine List.foldlRecOn (motive := fun e : Dev => e.fget Reg.TTH_OWN.OWNED m = _) _ _ rfl fun e he n hn => ?_
      exact (fget_fset_of_ne e _ (haddr m hk n (hl' n hn) (hkeep n hn).symm)).trans he
    · have hother : (releaseOwned mask d k).fget Reg.TTH_OWN.OWNED m = d.fget Reg.TTH_OWN.OWNED m :=
        fget_fset_of_ne d _ (haddr m (hl' m hml) k hk fun h => hnew (h ▸ hml))
      rw [ih hl' hd' hml, hother]

end Sys2Proof.Proofs
end

section
/-! The takeover, the rejoin and the handover of a pair. -/

namespace Sys2Proof.Proofs

open Sys2Proof.Machine Sys2Proof.Laws

set_option Elab.async false

variable {d : Dev}

theorem Sends.regs {d e : Dev} (h : Sends d e) : e.regs = d.regs := by
  obtain ⟨_, _, _, rfl⟩ := h
  rfl

theorem Sends.handover {d e : Dev} (h : Sends d e) : e.belay.handover = d.belay.handover := by
  obtain ⟨_, _, _, rfl⟩ := h
  rfl

/-- The unit that has handed over: it waits, and nothing is paired. -/
def handedOver (f : Dev) : Dev :=
  ((((f.setBly 1).fset Reg.BLY_CMD.RESULT 0).fset Reg.BLY_CMD.BUSY 0).fset Reg.ROPE_PAIR.PAIRED 0).modBelay
    fun b => { b with bundling := false, handover := false }

section
variable (f : Dev)

theorem handedOver_bly : (handedOver f).bly = 1 := by
  refine (fget_fset_apart _ _ (by decide)).trans ((fget_fset_apart _ _ (by decide)).trans
    ((fget_fset_apart _ _ (by decide)).trans (fget_fset _ _ _ _ (by decide) (by decide))))

theorem handedOver_paired : (handedOver f).fget Reg.ROPE_PAIR.PAIRED = 0 := fget_fset _ _ _ _ (by decide) (by decide)

theorem handedOver_result : (handedOver f).fget Reg.BLY_CMD.RESULT = 0 :=
  (fget_fset_apart _ _ (by decide)).trans ((fget_fset_apart _ _ (by decide)).trans
    (fget_fset _ _ _ _ (by decide) (by decide)))

theorem handedOver_busy : (handedOver f).fget Reg.BLY_CMD.BUSY = 0 :=
  (fget_fset_apart _ _ (by decide)).trans (fget_fset _ _ _ _ (by decide) (by decide))

/-- Registers other than BLY_STATUS, BLY_CMD and ROPE_PAIR keep their fields. -/
theorem handedOver_fget {g : FRef} {n : Nat}
    (h : ∀ a ∈ [regAddr 0x19 0 0x210, regAddr 0x19 0 0x260, regAddr 0x12 0 0x240], regAddr g.blk n g.off ≠ a) :
    (handedOver f).fget g n = f.fget g n :=
  (fget_fset_of_ne _ _ (h _ (by decide))).trans ((fget_fset_of_ne _ _ (h _ (by decide))).trans
    ((fget_fset_of_ne _ _ (h _ (by decide))).trans (fget_fset_of_ne _ _ (h _ (by decide)))))

end

/-- HANDBACK_DRAINED, apart from how it ends: the channels and groups of the moving home are the partner's, and the pair's
other registers outside TETHER are as they were. -/
theorem handbackSend_spec (hb : d.bly = 5) (hr : d.belay.releasing = false) (hm : d.movedDrained = true) :
    ∃ f : Dev, f.belay.handover = d.belay.handover ∧ f.belay.releasing = true ∧
      d.handbackSend = (if f.belay.handover then
        (((handedOver f).bump Reg.BLY_COUNT.REJOINS).post 0x19 0 0x194 0).takeoverEvent 8 0
        else f) ∧
      (∀ g : FRef, blyReg (regAddr g.blk 0 g.off) = true → Apart Reg.HOSTQ_ANA_OWN.UNIT g 0 0 → f.fget g = d.fget g) ∧
      (∀ n < 24, f.fget Reg.TTH_OWN.OWNED n =
        d.fget Reg.TTH_OWN.OWNED n - (d.fget Reg.TTH_OWN.OWNED n &&& homeMask d.movingHome)) ∧
      ∀ g ∈ d.homeGroups d.movingHome, bitsOf (f.fget Reg.HOSTQ_ANA_OWN.UNIT) (g - 1) (g - 1) = 1 - d.unitId := by
  generalize hE : d.handbackSend = E
  unfold Dev.handbackSend at hE
  rw [if_neg (by simp [hb, hr, hm])] at hE
  extract_lets home ns from_ recs head s3 s0 sent st m d₁ d₂ d₃ queued d₄ d₅ d₆ d₇ at hE
  have hfirst : KeepsRegs pairReg d d₁ ∧ d₁.belay.handover = d.belay.handover := by
    unfold d₁
    split
    · exact ⟨.of_regs (sends_bsend _ _).regs, (sends_bsend _ _).handover⟩
    · have hsent : Sends d sent :=
        ((sends_bsend _ _).trans (sends_sendSection _ _ _ _)).trans (sends_sendSection _ _ _ _)
      clear_value sent
      have hshown := (LeavesPair.refl ({ sent with map := { sent.map with staging := st } })).showStaging
      exact ⟨(KeepsRegs.of_regs hsent.regs).trans hshown.regs, hsent.handover⟩
  clear_value d₁
  obtain ⟨hregs₁, hhand₁⟩ := hfirst
  have hd₂ : d₂ = (List.range 24).foldl (releaseOwned (homeMask home)) d₁ := rfl
  have hregs₂ : KeepsRegs blyReg d d₂ :=
    (hregs₁.mono blyReg_pairReg).trans (hd₂ ▸ foldl_releaseOwned_regs _ _ (fun _ h => List.mem_range.1 h) _)
  have howned₂ (n : Nat) (hn : n < 24) : d₂.fget Reg.TTH_OWN.OWNED n =
      d.fget Reg.TTH_OWN.OWNED n - (d.fget Reg.TTH_OWN.OWNED n &&& homeMask home) := by
    have hpair : ∀ n < 24, pairReg (regAddr 0x17 n Reg.TTH_OWN.OWNED.off) = true := by decide
    have h₁ : d₁.fget Reg.TTH_OWN.OWNED n = d.fget Reg.TTH_OWN.OWNED n := hregs₁.fget (hpair n hn)
    rw [hd₂, foldl_releaseOwned_owned _ _ (fun _ h => List.mem_range.1 h) List.nodup_range (List.mem_range.2 hn), h₁]
  have hhand₂ : d₂.belay.handover = d.belay.handover := by
    rw [hd₂, ← hhand₁]
    exact List.foldlRecOn (motive := fun e : Dev => e.belay.handover = d₁.belay.handover) _ (releaseOwned _) rfl
      fun e he _ _ => he
  clear_value d₂
  have hdropped : LeavesPair (d₂.setOwner home (1 - d₂.unitId)) d₄ := by
    refine .foldl _ (fun c k _ => ?_) ((LeavesPair.refl _).reportGroups _ _)
    split
    · exact ((LeavesPair.refl c).dropArrival _ _).hostDone _ _ _
    · exact .refl c
  clear_value d₄
  have hhand₅ : d₅.belay.handover = d.belay.handover := by
    have hhand₄ := hdropped.belayOf Belay.handover
    rw [setOwner_belay, hhand₂] at hhand₄
    exact hhand₄
  refine ⟨d₅, hhand₅, rfl, hE.symm, fun g hg ha => ?_, fun n hn => ?_, fun g hg => ?_⟩
  · exact (hdropped.fget (blyReg_pairReg _ hg)).trans ((setOwner_fget _ _ _ ha).trans (hregs₂.fget hg))
  · have hpair : ∀ n < 24, pairReg (regAddr 0x17 n Reg.TTH_OWN.OWNED.off) = true := by decide
    have haddr : ∀ n < 24, regAddr 0x17 n Reg.TTH_OWN.OWNED.off ≠ regAddr 0x10 0 Reg.HOSTQ_ANA_OWN.UNIT.off := by decide
    have hkept : d₅.fget Reg.TTH_OWN.OWNED n = (d₂.setOwner home (1 - d₂.unitId)).fget Reg.TTH_OWN.OWNED n :=
      hdropped.fget (hpair n hn)
    have howner : (d₂.setOwner home (1 - d₂.unitId)).fget Reg.TTH_OWN.OWNED n = d₂.fget Reg.TTH_OWN.OWNED n :=
      fget_fset_of_ne _ _ (haddr n hn)
    rw [hkept, howner, howned₂ n hn]
  · have hunit : d₂.unitId = d.unitId := hregs₂.fget (by decide)
    have hbit : bitsOf (d₅.fget Reg.HOSTQ_ANA_OWN.UNIT) (g - 1) (g - 1) =
        bitsOf ((d₂.setOwner home (1 - d₂.unitId)).fget Reg.HOSTQ_ANA_OWN.UNIT) (g - 1) (g - 1) :=
      congrArg (bitsOf · _ _) (hdropped.fget (by decide))
    have hlt : 1 - d.unitId < 2 := by omega
    rw [hbit, hunit, groupOwner_setOwner _ hlt]
    rwa [homeGroups_eq (hregs₂.fget (by decide))]

/-- A holder that has drained the joiner's work hands its home back (R415). -/
theorem handbackSend_handsBack (hb : d.bly = 5) (hr : d.belay.releasing = false) (hm : d.movedDrained = true)
    (hh : d.belay.handover = false) :
    let e := d.handbackSend
    e.belay.releasing = true ∧ e.bly = 5 ∧
      (∀ n < 24, e.fget Reg.TTH_OWN.OWNED n = d.fget Reg.TTH_OWN.OWNED n -
        (d.fget Reg.TTH_OWN.OWNED n &&& homeMask (1 - d.unitId))) ∧
      ∀ g ∈ d.homeGroups (1 - d.unitId), bitsOf (e.fget Reg.HOSTQ_ANA_OWN.UNIT) (g - 1) (g - 1) = 1 - d.unitId := by
  obtain ⟨f, hhand, hrel, hf, hkeep, howned, hgroups⟩ := handbackSend_spec hb hr hm
  have hhome : d.movingHome = 1 - d.unitId := by simp [Dev.movingHome, hh]
  rw [hhome] at howned hgroups
  rw [hf, if_neg (by simp [hhand, hh])]
  exact ⟨hrel, (hkeep Reg.BLY_STATUS.STATE (by decide) (by decide)).trans hb, howned, hgroups⟩

/-- A unit that hands over leaves its own home to the partner and waits (R416). -/
theorem handbackSend_handsOver (hb : d.bly = 5) (hr : d.belay.releasing = false) (hm : d.movedDrained = true)
    (hh : d.belay.handover = true) :
    let e := d.handbackSend
    e.bly = 1 ∧ e.fget Reg.ROPE_PAIR.PAIRED = 0 ∧ e.fget Reg.BLY_CMD.RESULT = 0 ∧ e.fget Reg.BLY_CMD.BUSY = 0 ∧
      e.belay.handover = false ∧
      (∀ n < 24, e.fget Reg.TTH_OWN.OWNED n = d.fget Reg.TTH_OWN.OWNED n -
        (d.fget Reg.TTH_OWN.OWNED n &&& homeMask d.unitId)) ∧
      e.fget Reg.BLY_COUNT.REJOINS = (d.fget Reg.BLY_COUNT.REJOINS + 1) % 2 ^ 32 := by
  obtain ⟨f, hhand, -, hf, hkeep, howned, -⟩ := handbackSend_spec hb hr hm
  have hhome : d.movingHome = d.unitId := by simp [Dev.movingHome, hh]
  rw [hhome] at howned
  rw [hf, if_pos (by rw [hhand, hh])]
  have hlast : LeavesPair ((handedOver f).bump Reg.BLY_COUNT.REJOINS)
      ((((handedOver f).bump Reg.BLY_COUNT.REJOINS).post 0x19 0 0x194 0).takeoverEvent 8 0) :=
    ((LeavesPair.refl _).post 0x19 0 0x194 0).takeoverEvent 8 0
  generalize Dev.takeoverEvent _ 8 0 = e at hlast ⊢
  have hkept {g : FRef} (hg : pairReg (regAddr g.blk 0 g.off) = true) (ha : Apart Reg.BLY_COUNT.REJOINS g 0 0) :
      e.fget g = (handedOver f).fget g := (hlast.fget hg).trans (fget_fset_apart _ _ ha)
  refine ⟨?_, ?_, ?_, ?_, ?_, fun n hn => ?_, ?_⟩
  · exact (hkept (by decide) (by decide)).trans (handedOver_bly f)
  · exact (hkept (by decide) (by decide)).trans (handedOver_paired f)
  · exact (hkept (by decide) (by decide)).trans (handedOver_result f)
  · exact (hkept (by decide) (by decide)).trans (handedOver_busy f)
  · exact hlast.belayOf Belay.handover
  · have hpair : ∀ n < 24, pairReg (regAddr 0x17 n Reg.TTH_OWN.OWNED.off) = true := by decide
    have haddr : ∀ n < 24, ∀ a ∈ [regAddr 0x19 0 0x210, regAddr 0x19 0 0x260, regAddr 0x12 0 0x240],
        regAddr 0x17 n Reg.TTH_OWN.OWNED.off ≠ a := by decide
    have hcount : ∀ n < 24, regAddr 0x17 n Reg.TTH_OWN.OWNED.off ≠ regAddr 0x19 0 Reg.BLY_COUNT.REJOINS.off := by decide
    have he : e.fget Reg.TTH_OWN.OWNED n = ((handedOver f).bump Reg.BLY_COUNT.REJOINS).fget Reg.TTH_OWN.OWNED n :=
      hlast.fget (hpair n hn)
    have hbump : ((handedOver f).bump Reg.BLY_COUNT.REJOINS).fget Reg.TTH_OWN.OWNED n =
        (handedOver f).fget Reg.TTH_OWN.OWNED n := fget_fset_of_ne _ _ (hcount n hn)
    have hw : (handedOver f).fget Reg.TTH_OWN.OWNED n = f.fget Reg.TTH_OWN.OWNED n := handedOver_fget f (haddr n hn)
    rw [he, hbump, hw, howned n hn]
  · have hw : (handedOver f).fget Reg.BLY_COUNT.REJOINS = d.fget Reg.BLY_COUNT.REJOINS :=
      (handedOver_fget f (by decide)).trans (hkeep _ (by decide) (by decide))
    rw [hlast.fget (by decide), fget_bump _ _ _ _ (by decide) (by decide), hw]
    rfl

theorem handbackSend_none (h : d.bly ≠ 5 ∨ d.belay.releasing = true ∨ d.movedDrained = false) : d.handbackSend = d :=
  if_pos (by simpa using h)

/-- Settles O48: loss and takeover, rejoin and handover, each step by what it leaves of the pair. -/
theorem takeovers : Obligations.Takeovers := by
  unfold Obligations.Takeovers
  refine ⟨?_, ?_, ?_, ?_, ?_, ?_, ?_, ?_, ?_, ?_, ?_, ?_, ?_, ?_, ?_, ?_, ?_, ?_, ?_, ?_, ?_, ?_, ?_, ?_, ?_, ?_, ?_, ?_,
    ?_, ?_, ?_, ?_, ?_⟩
  · intro s h hon hb hh hl hp hn
    refine acts_of_act _ _ _ _ (exec_partnerLost s) h ?_
    rw [partnerLost_takesOver hon hl hp hb hh]
    refine ⟨startTakeover_bly _ _, congrArg Belay.takeover (startTakeover_belay _ _), ?_, ?_, ?_, startTakeover_lastT0 _ _⟩
    · exact (startTakeover_fget _ _ (by decide) (by decide) (by decide) (by decide)).trans (pathsDown_link _)
    · exact (startTakeover_fget _ _ (by decide) (by decide) (by decide) (by decide)).trans (pathsDown_pins _)
    · rw [startTakeover_own, pathsDown_nextEpoch, Nat.mod_eq_of_lt hn]
  · exact fun s h hon hb hh hl hp => acts_of_act _ _ _ _ (exec_partnerLost s) h (partnerLost_handover hon hl hp hb hh)
  · exact fun s h hon hb hh hr hl hp => acts_of_act _ _ _ _ (exec_partnerLost s) h (partnerLost_holder hon hl hp hb hh hr)
  · exact fun s h hon hb hk hl hp => acts_of_act _ _ _ _ (exec_partnerLost s) h (partnerLost_joiner hon hl hp hb hk)
  · exact fun s h hon hb hk hl hp => acts_of_act _ _ _ _ (exec_partnerLost s) h (partnerLost_handedBack hon hl hp hb hk)
  · exact fun s h hx => settles_of_act (exec_partnerLost s) h (partnerLost_none s.dev hx)
  · exact fun s h ht hx hm => acts_of_act _ _ _ _ (exec_takeoverClaimDone s) h (takeoverClaimed_wins ht hx hm)
  · exact fun s h hon ht hx hm hb => acts_of_act _ _ _ _ (exec_takeoverClaimDone s) h
      (takeoverClaimed_loses hon ht hx hm hb)
  · exact fun s h hx => settles_of_act (exec_takeoverClaimDone s) h (takeoverClaimed_none hx)
  · exact fun s h ht hx hm hlost => acts_of_act _ _ _ _ (exec_takeoverSecondClaimDone s) h (takeoverWon_wins ht hx hm hlost)
  · exact fun s h hon ht hx hm hb => acts_of_act _ _ _ _ (exec_takeoverSecondClaimDone s) h
      (takeoverWon_loses hon ht hx hm hb)
  · exact fun s h hx => settles_of_act (exec_takeoverSecondClaimDone s) h (takeoverWon_none hx)
  · exact fun s root h ht hrope => acts_of_act _ _ _ _ (exec_takeoverStateLoad s root) h (takeoverLoad_spec root ht hrope)
  · exact fun s root h ht => settles_of_act (exec_takeoverStateLoad s root) h (if_pos ht)
  · exact fun s h ht => acts_of_act _ _ _ _ (exec_takeoverAcceptResume s) h (takeoverAccept_spec ht)
  · exact fun s k t h ht hctx htags hrem hfar hfwd hs ha hq hc hroom hheld =>
      acts_of_act _ _ _ _ (exec_takeoverAcceptResume s) h
        (takeoverAccept_forwarded ht hctx htags hrem hfar hfwd hs ha hq hc hroom hheld)
  · exact fun s h ht => settles_of_act (exec_takeoverAcceptResume s) h (takeoverAccept_none ht)
  · exact fun s b epoch h hn hb ht => acts_of_act _ _ _ _ (exec_join s b epoch) h (rxJoin_waits epoch hn hb ht)
  · exact fun s b epoch h hn hb => acts_of_act _ _ _ _ (exec_join s b epoch) h (rxJoin_noted epoch hn hb)
  · exact fun s b epoch h hn hb => acts_of_act _ _ _ _ (exec_handback s b epoch) h (rxHandback_claims epoch hn hb)
  · exact fun s b epoch h hn hb => settles_of_act (exec_handback s b epoch) h (rxHandback_none epoch hn hb)
  · exact fun s h hb hr hm hh => acts_of_act _ _ _ _ (exec_handbackDrained s) h (handbackSend_handsBack hb hr hm hh)
  · exact fun s h hb hr hm hh => acts_of_act _ _ _ _ (exec_handbackDrained s) h (handbackSend_handsOver hb hr hm hh)
  · exact fun s h hx => settles_of_act (exec_handbackDrained s) h (handbackSend_none hx)
  · exact fun s h hb hk hm hp h12 h11 h10 => acts_of_act _ _ _ _ (exec_rejoinDone s none) h
      (rejoinDone_joiner hb hk hm hp h12 h11 h10)
  · exact fun s b h hn hb hr => acts_of_act _ _ _ _ (exec_rejoinDone s (some b)) h (rejoinDone_holder hn hb hr)
  · exact fun s h hx => settles_of_act (exec_rejoinDone s none) h (rejoinDone_joiner_none hx)
  · exact fun s b h hn hb => settles_of_act (exec_rejoinDone s (some b)) h (rejoinDone_holder_none hn hb)
  · exact fun s h hon hbusy hb => acts_of_act _ _ _ _ (exec_handover s) h (blyHandover_begins hon hbusy hb)
  · exact fun s h hbusy hx => acts_of_act _ _ _ _ (exec_handover s) h (blyHandover_refused hbusy hx)
  · exact fun s h hbusy => settles_of_act (exec_handover s) h (if_pos hbusy)
  · exact fun s b epoch h hn hb => acts_of_act _ _ _ _ (exec_handoverReceive s b epoch) h (rxHandover_takes epoch hn hb)
  · exact fun s b epoch h hn hb => settles_of_act (exec_handoverReceive s b epoch) h (rxHandover_none epoch hn hb)

end Sys2Proof.Proofs
end

section
/-! SUPPORT. Where commands reach: every command but those of the pins and the fuse cells changes the device alone, while the
device runs, or for the JTAG port while it has power (R47, R439, R498, R505). -/

namespace Sys2Proof.Proofs

open Sys2Proof.Machine Sys2Proof.Laws

set_option Elab.async false

/-- The commands of the JTAG port, which need power only (R505). -/
def ofJtag : Instr → Bool
  | .jtagExtest .. | .jtagSamplePreload .. | .jtagBypass .. => true
  | _ => false

/-- The JTAG port changes the device while it has power. -/
theorem exec_ofJtag {c : Instr} (s : State) (h : ofJtag c = true) :
    ∃ d, exec c s = .next (if s.hard.pwrGood then { s with dev := d } else s) := by
  cases c with
  | jtagExtest | jtagSamplePreload | jtagBypass => exact ⟨_, rfl⟩
  | _ => cases h

/-- Every other command that touches neither a pin nor a fuse cell changes the device while it runs. -/
theorem exec_ofDev {c : Instr} (s : State) (h : touchesHard c = false) (hj : ofJtag c = false) :
    ∃ d, exec c s = .next (if s.live then { s with dev := d } else s) := by
  cases c with
  | coldReset | pinReset | resetNRise | pwrGoodFall | enroll | revoke | raiseWdn | raisePgm | decommission => cases h
  | jtagExtest | jtagSamplePreload | jtagBypass => cases hj
  | _ => exact ⟨_, rfl⟩

/-- Such a command leaves the pins and the fuse cells, whether it takes effect or not. -/
theorem hard_of_exec {c : Instr} {s t : State} {p : Bool} {d : Dev}
    (h : exec c s = .next (if p then { s with dev := d } else s)) (ht : exec c s = .next t) : t.hard = s.hard := by
  rw [h] at ht
  cases ht
  cases p <;> rfl

/-- Settles O53: a command that is not of the pins or the fuses changes the device alone. -/
theorem pinsAndFusesKept : Obligations.PinsAndFusesKept := by
  unfold Obligations.PinsAndFusesKept
  intro c s t h ht
  cases hj : ofJtag c with
  | true =>
    obtain ⟨d, hd⟩ := exec_ofJtag s hj
    exact hard_of_exec hd ht
  | false =>
    obtain ⟨d, hd⟩ := exec_ofDev s h hj
    exact hard_of_exec hd ht

/-- Settles O54: a change of the device needs the device to run. -/
theorem nothingWhileHeld : Obligations.NothingWhileHeld := by
  unfold Obligations.NothingWhileHeld
  intro c s hl h hx hp hb
  have hj : ofJtag c = false := by
    cases c with
    | jtagExtest levels shift => exact absurd rfl (hx levels shift)
    | jtagSamplePreload levels shift => exact absurd rfl (hp levels shift)
    | jtagBypass shift => exact absurd rfl (hb shift)
    | _ => rfl
  obtain ⟨d, hd⟩ := exec_ofDev s h hj
  rw [hd, if_neg (by simp [hl])]

end Sys2Proof.Proofs
end

section
/-! SUPPORT. Resets: what each leaves of the registers, the headers and the memories (R48, R50, R52, R498). -/

namespace Sys2Proof.Proofs

open Sys2Proof.Machine Sys2Proof.Laws

set_option Elab.async false

/-! ### Tables and addresses -/

/-- A selection by key keeps the entries of the keys selected. -/
theorem look_filter_key {α : Type} (t : Tab α) (p : Nat → Bool) (a : Nat) :
    Tab.look (t.filter fun x => p x.1) a = if p a then Tab.look t a else none := by
  induction t with
  | nil => simp [Tab.look]
  | cons x t ih =>
    obtain ⟨k, v⟩ := x
    by_cases hk : a = k
    · subst hk
      cases hp : p a <;> simp [hp, Tab.look, ih]
    · cases hp : p k <;> simp [hp, Tab.look, ih, hk]

theorem get_foldl_set_other (l : List (Nat × Word)) (t : WTab) (a : Nat) (h : ∀ p ∈ l, a ≠ p.1) :
    (l.foldl (fun (t : WTab) p => t.set p.1 p.2) t).get a = t.get a := by
  induction l generalizing t with
  | nil => rfl
  | cons x l ih =>
    rw [List.foldl_cons, ih _ fun p hp => h p (List.mem_cons_of_mem _ hp), get_set_other _ _ _ _ (h x List.mem_cons_self)]

/-- CAMP's registers are the lowest of the register space (R53). -/
theorem regAddr_of_ne_camp {blk : Nat} (n off : Nat) (h : blk ≠ 0) : 0x100000 ≤ regAddr blk n off := by
  unfold regAddr instBase
  split <;> omega

theorem inst_of_insts_nil {d : Dev} (h : d.insts = []) (blk n : Nat) : d.inst blk n = Inst.rst blk := by
  rw [Dev.inst, h]; rfl

/-- After a reset CAMP alone is in service (R49). -/
theorem on_of_insts_nil {d : Dev} (h : d.insts = []) (blk n : Nat) : d.on blk n = decide (blk = 0) := by
  rw [Dev.on, Dev.isEnabled, inst_of_insts_nil h]
  exact Bool.and_true _

/-! ### Straps and the cause of a reset -/

section
variable (d : Dev) (h : Hard)

theorem keepAlways_regs (new : Dev) : (d.keepAlways new).regs = new.regs := rfl

theorem latchStraps_unitId : (d.latchStraps h).fget Reg.CAMP_STRAP.UNIT_ID = h.unitIdPin % 2 :=
  (fget_fset_apart _ _ (by decide)).trans (fget_fset _ _ _ _ (by decide) (by decide))

theorem latchStraps_bootMode : (d.latchStraps h).fget Reg.CAMP_STRAP.BOOT_MODE = h.bootModePin % 2 :=
  fget_fset _ _ _ _ (by decide) (by decide)

theorem latchStraps_regs {K : Nat → Bool} (hk : K 0x210 = false) : KeepsRegs K d (d.latchStraps h) :=
  (KeepsRegs.fset _ _ hk).trans (.fset _ _ hk)

theorem startAnc_regs {K : Nat → Bool} (hk : K 0x218 = false) : KeepsRegs K d d.startAnc :=
  (KeepsRegs.fset _ _ hk).trans (.fset _ _ hk)

/-- The registers that a reset leaves at their reset values: all but CAMP_STRAP and CAMP_PLL. -/
theorem coldReset_regs {K : Nat → Bool} (hs : K 0x210 = false) (hp : K 0x218 = false) : KeepsRegs K Dev.rst (d.coldReset h) :=
  (KeepsRegs.of_regs (e := d.keepAlways Dev.rst) rfl).trans ((latchStraps_regs _ h hs).trans (startAnc_regs _ hp))

theorem startAnc_strap {g : FRef} (hg : regAddr g.blk 0 g.off ≠ 0x218) : d.startAnc.fget g = d.fget g :=
  (startAnc_regs d (K := fun a => decide (a ≠ 0x218)) rfl).fget (decide_eq_true hg)

variable (old : Dev) {cause : FRef}

/-- A reset that counts adds one to COUNT (CAMP_RST_CAUSE). -/
theorem countReset_count (hc : Apart cause Reg.CAMP_RST_CAUSE.COUNT 0 0) :
    (d.countReset old cause).fget Reg.CAMP_RST_CAUSE.COUNT = (old.fget Reg.CAMP_RST_CAUSE.COUNT + 1) % 2 ^ 32 := by
  refine (fget_fset_apart _ _ hc).trans ((fget_bump _ _ _ _ (by decide) (by decide)).trans ?_)
  rw [Dev.fget, show Reg.CAMP_RST_CAUSE.COUNT.blk = 0 from rfl, reg_setReg_self]
  rfl

theorem countReset_cause (hl : cause.lo ≤ cause.hi) (h64 : cause.hi < 64) :
    (d.countReset old cause).fget cause = 1 := by
  refine (fget_fset _ _ _ _ hl h64).trans (Nat.mod_eq_of_lt (Nat.one_lt_two_pow (by omega)))

theorem countReset_regs {K : Nat → Bool} (hr : K 0x200 = false) (hc : K (regAddr cause.blk 0 cause.off) = false) :
    KeepsRegs K d (d.countReset old cause) :=
  ((KeepsRegs.setReg _ _ hr).trans (.bump _ _ hr)).trans (.fset _ _ hc)

end

/-! ### The pin reset (R48) -/

section
variable (d : Dev) (h : Hard)

theorem pinReset_count : (d.pinReset h).fget Reg.CAMP_RST_CAUSE.COUNT = (d.fget Reg.CAMP_RST_CAUSE.COUNT + 1) % 2 ^ 32 :=
  countReset_count _ _ (by decide)

theorem pinReset_cause : (d.pinReset h).fget Reg.CAMP_RST_CAUSE.PIN = 1 := countReset_cause _ _ (by decide) (by decide)

/-- Every register of a block other than CAMP is at its reset value. -/
theorem pinReset_reg {blk : Nat} (n off : Nat) (hb : blk ≠ 0) : (d.pinReset h).reg blk n off = Dev.rst.reg blk n off := by
  have hk : KeepsRegs (fun a => decide (0x100000 ≤ a)) Dev.rst (d.pinReset h) :=
    (((coldReset_regs d h rfl rfl).trans (.setReg _ _ rfl)).trans (.setReg _ _ rfl)).trans (countReset_regs _ _ rfl rfl)
  exact hk _ (decide_eq_true (regAddr_of_ne_camp n off hb))

/-- The power-fail records stay. -/
theorem pinReset_pfailRec : (d.pinReset h).reg 0 0 0x250 = d.reg 0 0 0x250 := by
  have hk (e : Dev) : KeepsRegs (fun a => decide (a = 0x250)) e (e.countReset d Reg.CAMP_RST_CAUSE.PIN) :=
    countReset_regs _ _ rfl rfl
  refine (hk _ _ rfl).trans ((reg_setReg_other _ _ _ _ _ _ _ _ (by decide)).trans (reg_setReg_self _ _ _ _ _))

theorem pinReset_pfailNs : (d.pinReset h).reg 0 0 0x258 = d.reg 0 0 0x258 := by
  have hk (e : Dev) : KeepsRegs (fun a => decide (a = 0x258)) e (e.countReset d Reg.CAMP_RST_CAUSE.PIN) :=
    countReset_regs _ _ rfl rfl
  exact (hk _ _ rfl).trans (reg_setReg_self _ _ _ _ _)

end

/-! ### The warm reset (R52) -/

/-- The addresses whose registers a warm reset keeps: CAMP's and MGMT's. -/
def warmKeeps (a : Nat) : Bool := inBlock 0x00 a || inBlock 0x1C a

/-- The headers that it keeps. -/
def warmKeepsInst (k : Nat) : Bool := decide (k / 32 = 0x00 ∨ k / 32 = 0x1C)

/-- A register file after a warm reset: the kept registers of the old one over the others of a new one. -/
def warmRegs (new old : WTab) : WTab :=
  (new.filter fun (p : Nat × Word) => !warmKeeps p.1).foldl (fun t (p : Nat × Word) => t.set p.1 p.2)
    (old.filter fun (p : Nat × Word) => warmKeeps p.1)

theorem warmRegs_kept (new old : WTab) {a : Nat} (h : warmKeeps a = true) : (warmRegs new old).get a = old.get a := by
  refine (get_foldl_set_other _ _ _ fun p hp => ?_).trans ?_
  · rintro rfl
    simp [h] at hp
  · rw [WTab.get, look_filter_key old warmKeeps, if_pos h]
    rfl

/-- A register that is not kept and resets to 0 reads 0. -/
theorem warmRegs_zero {new : WTab} (old : WTab) {a : Nat} (h : warmKeeps a = false) (hn : ∀ p ∈ new, p.1 ≠ a) :
    (warmRegs new old).get a = 0 := by
  refine (get_foldl_set_other _ _ _ fun p hp => (hn p (List.mem_of_mem_filter hp)).symm).trans ?_
  rw [WTab.get, look_filter_key old warmKeeps, if_neg (by simp [h])]
  rfl

section
variable (d : Dev) (cause : FRef)

theorem warmReset_insts : (d.warmReset cause).insts = d.insts.filter fun p => warmKeepsInst p.1 := rfl

theorem warmReset_mem : (d.warmReset cause).mem =
    { dram := if d.fget Reg.DMC_CTRL.KEEP_ON_WARM = 1 then d.mem.dram else [] } := by
  show { dram := if decide (d.fget Reg.DMC_CTRL.KEEP_ON_WARM = 1) = true then d.mem.dram else [] : Mems } = _
  simp only [decide_eq_true_eq]

/-- The headers of CAMP and MGMT stay. -/
theorem warmReset_inst_kept {blk n : Nat} (hn : n < 32) (hb : blk = 0 ∨ blk = 0x1C) :
    (d.warmReset cause).inst blk n = d.inst blk n := by
  rw [Dev.inst, warmReset_insts, look_filter_key _ warmKeepsInst, if_pos (by simp [warmKeepsInst, instKey]; omega)]
  rfl

/-- Every other one is at its reset value. -/
theorem warmReset_inst_rst {blk n : Nat} (hn : n < 32) (h0 : blk ≠ 0) (h1 : blk ≠ 0x1C) :
    (d.warmReset cause).inst blk n = Inst.rst blk := by
  rw [Dev.inst, warmReset_insts, look_filter_key _ warmKeepsInst, if_neg (by simp [warmKeepsInst, instKey]; omega)]
  rfl

/-- The device before CAMP counts the reset and stops its PLLs. -/
theorem warmReset_eq : ∃ e : Dev, d.warmReset cause = e.updatePlls.countReset d cause ∧
    e.regs = warmRegs Dev.rst.regs d.regs := by
  rw [← keepAlways_regs d Dev.rst]
  unfold Dev.warmReset
  generalize d.keepAlways Dev.rst = new
  exact ⟨_, rfl, rfl⟩

variable {cause}

/-- Beside what is kept, a warm reset writes CAMP_RST_CAUSE and CAMP_PLL. -/
theorem warmReset_regs {a : Nat} (hc : regAddr cause.blk 0 cause.off = 0x200) (hr : a ≠ 0x200) (hp : a ≠ 0x218) :
    (d.warmReset cause).regs.get a = (warmRegs Dev.rst.regs d.regs).get a := by
  obtain ⟨e, he, hregs⟩ := warmReset_eq d cause
  have hpll : KeepsRegs (fun a => decide (a ≠ 0x200 ∧ a ≠ 0x218)) e e.updatePlls :=
    (KeepsRegs.fset _ _ rfl).trans (.fset _ _ rfl)
  rw [he, ← hregs]
  exact (hpll.trans (countReset_regs _ d rfl (by rw [hc]; rfl))) a (by simp [hr, hp])

/-- The registers of MGMT stay. -/
theorem warmReset_mgmtReg (hc : regAddr cause.blk 0 cause.off = 0x200) {off : Nat} (ho : off < 0x10000) :
    (d.warmReset cause).reg 0x1C 0 off = d.reg 0x1C 0 off := by
  have ha : regAddr 0x1C 0 off = 0x1C00000 + off := rfl
  have hk : warmKeeps (regAddr 0x1C 0 off) = true := by simp [warmKeeps, inBlock, ha]; omega
  exact (warmReset_regs d hc (by omega) (by omega)).trans (warmRegs_kept _ _ hk)

/-- The watchdog is off. -/
theorem warmReset_wdog (hc : regAddr cause.blk 0 cause.off = 0x200) :
    (d.warmReset cause).fget Reg.WDN_WDOG.TIMEOUT_MS = 0 := by
  have hz : (d.warmReset cause).reg 2 0 0x230 = 0 :=
    (warmReset_regs d hc (by decide) (by decide)).trans (warmRegs_zero _ (by decide) (by decide +kernel))
  rw [Dev.fget, show (d.warmReset cause).reg Reg.WDN_WDOG.TIMEOUT_MS.blk 0 Reg.WDN_WDOG.TIMEOUT_MS.off = 0 from hz]
  rfl

theorem warmReset_count (hc : Apart cause Reg.CAMP_RST_CAUSE.COUNT 0 0) :
    (d.warmReset cause).fget Reg.CAMP_RST_CAUSE.COUNT = (d.fget Reg.CAMP_RST_CAUSE.COUNT + 1) % 2 ^ 32 :=
  countReset_count _ _ hc

theorem warmReset_cause (hl : cause.lo ≤ cause.hi) (h64 : cause.hi < 64) : (d.warmReset cause).fget cause = 1 :=
  countReset_cause _ _ hl h64

end

end Sys2Proof.Proofs
end

section
/-! Resets and the watchdog (R48, R50, R52, R57, R498, R509). -/

namespace Sys2Proof.Proofs

open Sys2Proof.Machine Sys2Proof.Laws

/-- Settles O4: a cold reset is the reset device with its straps latched, its cause at the reset value. -/
theorem coldResetLeaves : Obligations.ColdResetLeaves := by
  unfold Obligations.ColdResetLeaves
  intro s u b low
  refine ⟨_, exec_coldReset s u b low, rfl, rfl, coldReset_mem _ _, rfl, rfl, inst_of_insts_nil rfl, on_of_insts_nil rfl,
    ?_, ?_, ?_, ?_⟩
  · exact ((coldReset_regs _ _ (K := fun a => decide (a = 0x200)) rfl rfl).fget rfl).trans (by decide +kernel)
  · exact ((coldReset_regs _ _ (K := fun a => decide (a = 0x200)) rfl rfl).fget rfl).trans (by decide +kernel)
  · exact (startAnc_strap _ (by decide)).trans (latchStraps_unitId _ _)
  · exact (startAnc_strap _ (by decide)).trans (latchStraps_bootMode _ _)

section
variable {s : State}

theorem exec_pinReset_long {ns : Nat} (hl : s.live = true) (h : 1000 ≤ ns) : exec (.pinReset ns) s =
    .next { s with hard := { s.hard with resetN := false }
                   dev := s.dev.pinReset { s.hard with resetN := false } } := by
  rw [exec_pinReset, State.pinReset, if_neg (by simp [hl]; omega), if_pos h]

theorem exec_pinReset_short {ns : Nat} (h : ns ≤ 200 ∨ s.live = false) : exec (.pinReset ns) s = .next s := by
  rw [exec_pinReset, State.pinReset, if_pos]
  rcases h with h | h <;> simp [h]

/-- Between the two lengths a free bit says which (log 14). -/
theorem exec_pinReset_between {ns : Nat} (hl : s.live = true) (h : 200 < ns) (h' : ns < 1000) : exec (.pinReset ns) s =
    if s.dev.takeFree.1.getLsbD 0 then
      .next { s with
        hard := { s.hard with resetN := false }
        dev := s.dev.takeFree.2.pinReset { s.hard with resetN := false } }
    else .next { s with dev := s.dev.takeFree.2 } := by
  rw [exec_pinReset, State.pinReset, if_neg (by simp [hl]; omega), if_neg (by omega)]

theorem exec_resetNRise_rises (u b : Nat) (hp : s.hard.pwrGood = true) (hr : s.hard.resetN = false) :
    exec (.resetNRise u b) s = .next { s with
      hard := { s.hard with resetN := true, unitIdPin := u, bootModePin := b }
      dev := s.dev.latchStraps { s.hard with resetN := true, unitIdPin := u, bootModePin := b } } := by
  rw [exec_resetNRise, State.resetRise, if_pos (by simp [hp, hr])]

theorem exec_resetNRise_none (u b : Nat) (h : s.hard.pwrGood = false ∨ s.hard.resetN = true) :
    exec (.resetNRise u b) s = .next s := by
  rw [exec_resetNRise, State.resetRise, if_neg]
  rcases h with h | h <;> simp [h]

theorem exec_pwrGoodFall_falls (burnt : Bool) (hp : s.hard.pwrGood = true) : exec (.pwrGoodFall burnt) s =
    .next { s with
      hard := { burnCells s.hard (s.dev.fuseCut burnt) with pwrGood := false }
      dev := s.dev.coldReset { burnCells s.hard (s.dev.fuseCut burnt) with pwrGood := false } } := by
  rw [exec_pwrGoodFall, State.powerFall]
  simp only [if_pos hp]

theorem exec_pwrGoodFall_none (burnt : Bool) (hp : s.hard.pwrGood = false) : exec (.pwrGoodFall burnt) s = .next s := by
  rw [exec_pwrGoodFall, State.powerFall]
  simp only [hp, Bool.false_eq_true, if_false]

end

/-! ### The watchdog (R509) -/

section
variable (d : Dev) (ms : Nat) (kick : Bool)

theorem warmRequest_key {key : Nat} (h : key % 2 ^ 16 = 0x5752) : d.warmRequest key = d.warmReset Reg.CAMP_RST_CAUSE.WARM_REQ :=
  if_pos h

theorem warmRequest_bad {key : Nat} (h : key % 2 ^ 16 ≠ 0x5752) : d.warmRequest key = d.setErr 0 0 errAccess := if_neg h

/-- The count starts again with KICK, or with another TIMEOUT_MS. -/
theorem wdogWrite_eq : d.wdogWrite ms kick = { d.fset Reg.WDN_WDOG.TIMEOUT_MS ms with
    warden := { d.warden with
      wdog := if kick = true ∨ d.fget Reg.WDN_WDOG.TIMEOUT_MS ≠ ms % 2 ^ 16 then 0 else d.warden.wdog } } := by
  unfold Dev.wdogWrite
  by_cases h : kick = true ∨ d.fget Reg.WDN_WDOG.TIMEOUT_MS ≠ ms % 2 ^ 16
  · rw [if_pos h]
    exact if_pos (by simpa using h)
  · rw [if_neg h]
    exact if_neg (by simpa using h)

theorem wdogExpire_on (h : d.fget Reg.WDN_WDOG.TIMEOUT_MS ≠ 0) : d.wdogExpire = d.warmReset Reg.CAMP_RST_CAUSE.WDOG := if_neg h

theorem wdogExpire_off (h : d.fget Reg.WDN_WDOG.TIMEOUT_MS = 0) : d.wdogExpire = d := if_pos h

end

/-- Settles O5: the pin, power and warm resets and the watchdog, each by what it leaves. -/
theorem otherResets : Obligations.OtherResets := by
  unfold Obligations.OtherResets
  refine ⟨?_, ?_, ?_, ?_, ?_, ?_, ?_, ?_, ?_, ?_, ?_, ?_⟩
  · intro s ns hl h
    exact ⟨_, exec_pinReset_long hl h, rfl, rfl, rfl, rfl, rfl, inst_of_insts_nil rfl,
      fun blk n off hb => pinReset_reg _ _ _ _ hb, pinReset_count _ _, pinReset_cause _ _, pinReset_pfailRec _ _,
      congrArg (field · 63 0) (pinReset_pfailNs _ _)⟩
  · exact fun s ns h => exec_pinReset_short h
  · intro s ns hl h h'
    rw [exec_pinReset_between hl h h']
    split
    · exact .inl rfl
    · exact .inr rfl
  · exact fun s u b hp hr =>
      ⟨_, exec_resetNRise_rises u b hp hr, rfl, rfl, latchStraps_unitId _ _, latchStraps_bootMode _ _, rfl⟩
  · exact fun s u b h => exec_resetNRise_none u b h
  · exact fun s burnt hp =>
      ⟨_, exec_pwrGoodFall_falls burnt hp, rfl, rfl, rfl, coldReset_mem _ _, rfl, inst_of_insts_nil rfl⟩
  · exact fun s burnt hp => exec_pwrGoodFall_none burnt hp
  · intro s key hl h
    refine runs_of_upd _ s _ _ (exec_warmReset s key) hl ?_
    rw [warmRequest_key _ h]
    exact ⟨rfl, rfl, rfl, rfl, rfl, rfl, rfl, warmReset_mem _ _, warmReset_inst_kept _ _ (by decide) (.inl rfl),
      warmReset_inst_kept _ _ (by decide) (.inr rfl), fun blk n => warmReset_inst_rst _ _,
      fun off => warmReset_mgmtReg _ rfl, warmReset_count _ (by decide), warmReset_cause _ (by decide) (by decide)⟩
  · intro s key hl h
    refine runs_of_upd _ s _ _ (exec_warmReset s key) hl ?_
    rw [warmRequest_bad _ h]
    exact ⟨rfl, setErr_access _ _ _⟩
  · intro s hl h
    refine runs_of_upd _ s _ _ (exec_wdogExpiry s) hl ?_
    rw [wdogExpire_on _ h]
    exact ⟨rfl, rfl, rfl, rfl, rfl, warmReset_mem _ _, warmReset_inst_kept _ _ (by decide) (.inl rfl),
      warmReset_inst_kept _ _ (by decide) (.inr rfl), fun blk n => warmReset_inst_rst _ _,
      warmReset_wdog _ rfl, warmReset_count _ (by decide), warmReset_cause _ (by decide) (by decide)⟩
  · exact fun s hl h => gives_of_upd (exec_wdogExpiry s) hl (wdogExpire_off _ h)
  · intro s ms kick hl
    refine runs_of_upd _ s _ _ (exec_wdogKick s ms kick) hl ?_
    rw [wdogWrite_eq]
    exact ⟨fget_fset _ _ _ _ (by decide) (by decide), rfl, fun x hx => get_set_other _ _ _ _ hx, rfl⟩

end Sys2Proof.Proofs
end

section
/-! SUPPORT. Warden's mailbox and cores, and the register-access service: what each does, case by case (R70 to R74, R111,
R112, R164). -/

namespace Sys2Proof.Proofs

open Sys2Proof.Machine Sys2Proof.Laws

set_option Elab.async false

/-! ### The mailbox (R70, R111) -/

section
variable (d : Dev) (v : Word)

/-- The cores once all four doorbells have been rung. -/
def ringAll (t : Tab Core) : Tab Core :=
  (List.range 4).foldl (fun (t : Tab Core) k => Tab.modify t {} k fun c => { c with mbox := true }) t

theorem look_ringAll (t : Tab Core) {k : Nat} (hk : k < 4) :
    (Tab.look (ringAll t) k).getD {} = { (Tab.look t k).getD {} with mbox := true } := by
  have h4 : List.range 4 = [0, 1, 2, 3] := rfl
  rw [ringAll, h4]
  simp only [List.foldl_cons, List.foldl_nil, Tab.modify]
  interval_cases k <;> simp [look_put_other]

/-- The event that a value written to the mailbox posts. -/
def mboxEvent : Dev := (d.fset Reg.WDN_MBOX.DATA v.toNat).post 2 0 1 (field v 31 0)

theorem mboxWrite_eq : d.mboxWrite v =
    { mboxEvent d v with warden := { (mboxEvent d v).warden with cores := ringAll (mboxEvent d v).warden.cores } } := rfl

/-- The mailbox shows the value. -/
theorem mboxWrite_data : (d.mboxWrite v).fget Reg.WDN_MBOX.DATA = v.toNat := by
  have hp (e : Dev) : KeepsRegs (fun a => decide (a = 0x200228)) e (e.post 2 0 1 (field v 31 0)) :=
    .post (by decide) _ _ _ _ _
  refine ((hp _).fget rfl).trans ((fget_fset _ _ _ _ (by decide) (by decide)).trans ?_)
  exact Nat.mod_eq_of_lt v.isLt

/-- Every core has its doorbell. -/
theorem mboxWrite_core {k : Nat} (hk : k < 4) : (d.mboxWrite v).core k = { d.core k with mbox := true } := by
  have hw : (mboxEvent d v).warden = d.warden := by
    unfold mboxEvent Dev.post
    dsimp only
    split <;> rfl
  rw [mboxWrite_eq]
  exact (look_ringAll _ hk).trans (by rw [hw]; rfl)

end

/-! ### The event ring (R70) -/

section
variable (d : Dev) (blk n code arg : Nat)

/-- An event goes to the ring while WARDEN is in service and the ring has room. -/
theorem post_rings (hon : d.on 2 = true)
    (hr : (d.fget Reg.WDN_EVR_HEAD.INDEX + 1) % 4096 ≠ d.fget Reg.WDN_EVR_TAIL.INDEX) :
    d.post blk n code arg = Dev.fset { d with mem := { d.mem with
      wsram := d.mem.wsram.setBytes (ringBase + 16 * d.fget Reg.WDN_EVR_HEAD.INDEX)
        (RingEntry.bytes { time := d.now, blk := blk, inst := n, code := code, arg := arg % 2 ^ 32 }) } }
      Reg.WDN_EVR_HEAD.INDEX ((d.fget Reg.WDN_EVR_HEAD.INDEX + 1) % 4096) :=
  if_neg (by simp [hon, hr])

/-- Otherwise it is lost and counted. -/
theorem post_lost (h : d.on 2 = false ∨ (d.fget Reg.WDN_EVR_HEAD.INDEX + 1) % 4096 = d.fget Reg.WDN_EVR_TAIL.INDEX) :
    d.post blk n code arg = d.bump Reg.WDN_EVR_LOST.COUNT :=
  if_pos (by rcases h with h | h <;> simp [h])

end

/-- The low half of a word. -/
theorem field_low (v : Word) : field v 31 0 = v.toNat % 2 ^ 32 := by
  simp [field, bitsOf]

section
variable {d : Dev} (v : Word)

theorem fget_mboxData {g : FRef} (h : Apart Reg.WDN_MBOX.DATA g 0 0) :
    (d.fset Reg.WDN_MBOX.DATA v.toNat).fget g = d.fget g := fget_fset_apart _ _ h

theorem mboxWrite_rings (hon : d.on 2 = true)
    (hr : (d.fget Reg.WDN_EVR_HEAD.INDEX + 1) % 4096 ≠ d.fget Reg.WDN_EVR_TAIL.INDEX) :
    (d.mboxWrite v).fget Reg.WDN_EVR_HEAD.INDEX = (d.fget Reg.WDN_EVR_HEAD.INDEX + 1) % 4096 ∧
      (d.mboxWrite v).mem = { d.mem with
        wsram := d.mem.wsram.setBytes (ringBase + 16 * d.fget Reg.WDN_EVR_HEAD.INDEX)
          (RingEntry.bytes { time := d.now, blk := 2, inst := 0, code := 1, arg := v.toNat % 2 ^ 32 }) } := by
  have hh : (d.fset Reg.WDN_MBOX.DATA v.toNat).fget Reg.WDN_EVR_HEAD.INDEX = d.fget Reg.WDN_EVR_HEAD.INDEX :=
    fget_mboxData v (by decide)
  have ht : (d.fset Reg.WDN_MBOX.DATA v.toNat).fget Reg.WDN_EVR_TAIL.INDEX = d.fget Reg.WDN_EVR_TAIL.INDEX :=
    fget_mboxData v (by decide)
  have he : mboxEvent d v = _ := post_rings (d.fset Reg.WDN_MBOX.DATA v.toNat) 2 0 1 (field v 31 0) hon (by rw [hh, ht]; exact hr)
  rw [mboxWrite_eq, he, hh, field_low, Nat.mod_mod]
  refine ⟨(fget_fset _ Reg.WDN_EVR_HEAD.INDEX _ _ (by decide) (by decide)).trans (Nat.mod_mod _ _), rfl⟩

theorem mboxWrite_lost
    (h : d.on 2 = false ∨ (d.fget Reg.WDN_EVR_HEAD.INDEX + 1) % 4096 = d.fget Reg.WDN_EVR_TAIL.INDEX) :
    (d.mboxWrite v).fget Reg.WDN_EVR_LOST.COUNT = (d.fget Reg.WDN_EVR_LOST.COUNT + 1) % 2 ^ 32 ∧
      (d.mboxWrite v).mem = d.mem := by
  have he : mboxEvent d v = _ := post_lost (d.fset Reg.WDN_MBOX.DATA v.toNat) 2 0 1 (field v 31 0) (by
    rwa [fget_mboxData v (by decide), fget_mboxData v (by decide)])
  rw [mboxWrite_eq, he]
  refine ⟨(fget_bump _ Reg.WDN_EVR_LOST.COUNT _ _ (by decide) (by decide)).trans ?_, rfl⟩
  rw [fget_mboxData v (by decide)]
  rfl

end

/-! ### The cores' RUN bits (R112) -/

/-- A core's bit that is clear rises alone when it is added. -/
theorem run_rises : ∀ was < 16, ∀ k < 4, bitOf was k = false → was &&& (was + 2 ^ k) = was ∧
    (was ||| 2 ^ k) = was + 2 ^ k ∧ was + 2 ^ k < 16 ∧
    ∀ j < 4, (bitOf (was + 2 ^ k) j && !bitOf was j) = decide (j = k) := by
  decide

/-- No bit rises when one that is set is taken away. -/
theorem run_falls : ∀ was < 16, ∀ k < 4, bitOf was k = true → was &&& (was - 2 ^ k) = was - 2 ^ k ∧ 2 ^ k ≤ was ∧
    ∀ j < 4, (bitOf (was - 2 ^ k) j && !bitOf was j) = false := by
  decide

section
variable {d : Dev} {run k : Nat}

/-- The cores whose bit rises start: one. -/
theorem coreCtrl_rises (hk : k < 4) (ha : d.fget Reg.WDN_CORE_CTRL.RUN &&& run = d.fget Reg.WDN_CORE_CTRL.RUN)
    (hr : ∀ j < 4, (bitOf run j && !bitOf (d.fget Reg.WDN_CORE_CTRL.RUN) j) = decide (j = k)) :
    d.coreCtrl run = (d.fset Reg.WDN_CORE_CTRL.RUN (d.fget Reg.WDN_CORE_CTRL.RUN)).coreStart k := by
  unfold Dev.coreCtrl
  simp only [ha, show List.range 4 = [0, 1, 2, 3] from rfl, List.foldl_cons, List.foldl_nil, hr 0 (by decide),
    hr 1 (by decide), hr 2 (by decide), hr 3 (by decide), decide_eq_true_eq]
  interval_cases k <;> rfl

/-- None. -/
theorem coreCtrl_none (hr : ∀ j < 4, (bitOf run j && !bitOf (d.fget Reg.WDN_CORE_CTRL.RUN) j) = false) :
    d.coreCtrl run = d.fset Reg.WDN_CORE_CTRL.RUN (d.fget Reg.WDN_CORE_CTRL.RUN &&& run) := by
  unfold Dev.coreCtrl
  simp only [show List.range 4 = [0, 1, 2, 3] from rfl, List.foldl_cons, List.foldl_nil, hr 0 (by decide),
    hr 1 (by decide), hr 2 (by decide), hr 3 (by decide), Bool.false_eq_true, if_false]

theorem run_lt (d : Dev) : d.fget Reg.WDN_CORE_CTRL.RUN < 16 := fget_lt d _ 0

theorem fget_fset_run (d : Dev) {v : Nat} (h : v < 16) : (d.fset Reg.WDN_CORE_CTRL.RUN v).fget Reg.WDN_CORE_CTRL.RUN = v :=
  (fget_fset _ _ _ _ (by decide) (by decide)).trans (Nat.mod_eq_of_lt h)

theorem coreRun_starts (hk : k < 4) (hb : bitOf (d.fget Reg.WDN_CORE_CTRL.RUN) k = false) :
    d.coreRun k true = (d.fset Reg.WDN_CORE_CTRL.RUN (d.fget Reg.WDN_CORE_CTRL.RUN)).coreStart k := by
  obtain ⟨ha, -, -, hr⟩ := run_rises _ (run_lt d) k hk hb
  rw [Dev.coreRun, if_neg (by omega)]
  simp only [hb, Bool.false_eq_true, if_false, if_true]
  exact coreCtrl_rises hk ha hr

theorem coreStart_run (hk : k < 4) (hb : bitOf (d.fget Reg.WDN_CORE_CTRL.RUN) k = false) :
    (d.coreStart k).fget Reg.WDN_CORE_CTRL.RUN = d.fget Reg.WDN_CORE_CTRL.RUN + 2 ^ k := by
  obtain ⟨-, ho, hlt, -⟩ := run_rises _ (run_lt d) k hk hb
  have hs := fget_fset_run { d with warden := (d.coreStart k).warden } (ho.trans_lt hlt)
  exact hs.trans ho

theorem coreRun_halts (hk : k < 4) (hb : bitOf (d.fget Reg.WDN_CORE_CTRL.RUN) k = true) :
    d.coreRun k false = d.fset Reg.WDN_CORE_CTRL.RUN (d.fget Reg.WDN_CORE_CTRL.RUN - 2 ^ k) := by
  obtain ⟨ha, -, hr⟩ := run_falls _ (run_lt d) k hk hb
  rw [Dev.coreRun, if_neg (by omega)]
  simp only [hb, Bool.false_eq_true, if_false, if_true]
  rw [coreCtrl_none hr, ha]

/-- A bit written as it is changes nothing. -/
theorem coreRun_same {run : Bool} (hk : k < 4) (hb : bitOf (d.fget Reg.WDN_CORE_CTRL.RUN) k = run) :
    d.coreRun k run = d.fset Reg.WDN_CORE_CTRL.RUN (d.fget Reg.WDN_CORE_CTRL.RUN) := by
  have hw : (if run = true then (if bitOf (d.fget Reg.WDN_CORE_CTRL.RUN) k = true then d.fget Reg.WDN_CORE_CTRL.RUN - 2 ^ k
      else d.fget Reg.WDN_CORE_CTRL.RUN) + 2 ^ k else (if bitOf (d.fget Reg.WDN_CORE_CTRL.RUN) k = true then
      d.fget Reg.WDN_CORE_CTRL.RUN - 2 ^ k else d.fget Reg.WDN_CORE_CTRL.RUN)) = d.fget Reg.WDN_CORE_CTRL.RUN := by
    cases run with
    | true =>
      obtain ⟨-, hle, -⟩ := run_falls _ (run_lt d) k hk hb
      simp only [hb, if_true]
      omega
    | false => simp [hb]
  rw [Dev.coreRun, if_neg (by omega)]
  dsimp only
  rw [hw, coreCtrl_none (by simp), Nat.and_self]

end

/-! ### The lane and the MCTP path (R71 to R74, R164) -/

section
variable {d : Dev}

theorem remember_length (m : List RasMemo) (x : RasMemo) : (remember m x).length ≤ 16 := List.length_take_le _ _

theorem remember_head (m : List RasMemo) (x : RasMemo) : (remember m x).head? = some x := rfl

section
variable {ip port dst dport : Nat} {req : List Byte}

/-- The tests of a datagram, in the order they are made, are those of `laneTakes`. -/
theorem laneTakes_eq (d : Dev) (ip dst dport : Nat) : d.laneTakes ip dst dport =
    let on := d.on 0x1C && decide (d.fget Reg.MGMT_CTRL.LANE_EN = 1)
    let len := min 32 (d.fget Reg.MGMT_RAS_ALLOW.PREFIX_LEN)
    !(!d.mgmt.laneUp ||
      !(if on then decide (dst = d.fget Reg.MGMT_RAS.IPV4 ∧ dport = d.fget Reg.MGMT_RAS.UDP_PORT)
        else decide (dst = field (d.fuseW 13) 31 0 ∧ dport = 0x1D2C)) ||
      !(!on || decide (ip / 2 ^ (32 - len) = d.fget Reg.MGMT_RAS_ALLOW.PREFIX / 2 ^ (32 - len)))) := by
  unfold Dev.laneTakes
  dsimp only
  generalize (d.on 0x1C && decide (d.fget Reg.MGMT_CTRL.LANE_EN = 1)) = on
  cases on with
  | true => simp [Bool.decide_and, Bool.and_assoc]
  | false => simp

/-- A datagram that the lane does not take does nothing. -/
theorem rasRequest_none (h : d.laneTakes ip dst dport = false) : d.rasRequest ip port dst dport req = d := by
  rw [laneTakes_eq, Bool.not_eq_false'] at h
  exact if_pos h

/-- A repeat gets the remembered response again. -/
theorem rasRequest_repeat {m : RasMemo} (h : d.laneTakes ip dst dport = true)
    (hm : d.mgmt.lane.find? (fun m => decide (m.source = ip * 65536 + port ∧ m.seq = leAt req 4 4)) = some m) :
    d.rasRequest ip port dst dport req =
      { d with mgmt := { d.mgmt with laneTx := m.response, lane := remember d.mgmt.lane m } } := by
  rw [laneTakes_eq, Bool.not_eq_true'] at h
  refine (if_neg (Bool.eq_false_iff.1 h)).trans ?_
  simp only [hm]

/-- A new request is served, and its response remembered. -/
theorem rasRequest_new (h : d.laneTakes ip dst dport = true)
    (hm : d.mgmt.lane.find? (fun m => decide (m.source = ip * 65536 + port ∧ m.seq = leAt req 4 4)) = none) :
    d.rasRequest ip port dst dport req =
      let r := d.rasServe .lane req
      { r.2 with mgmt := { r.2.mgmt with
        laneTx := r.1
        lane := remember r.2.mgmt.lane { source := ip * 65536 + port, seq := leAt req 4 4, response := r.1 } } } := by
  rw [laneTakes_eq, Bool.not_eq_true'] at h
  refine (if_neg (Bool.eq_false_iff.1 h)).trans ?_
  simp only [hm]

end

section
variable {eid : Nat} {overLane : Bool} {req : List Byte}

theorem miTakes_eq (d : Dev) (overLane : Bool) : d.miTakes overLane =
    !(!d.on 0x1C || decide ((if overLane then d.fget Reg.MGMT_CTRL.LANE_EN else d.fget Reg.MGMT_CTRL.I3C_EN) = 0)) := by
  simp [Dev.miTakes]

/-- A request that holds a header is answered with Success. -/
theorem miStatus_success (h : 16 ≤ req.length) : d.miStatus req = { d with mgmt := { d.mgmt with mctpStatus := 0 } } := by
  simp [Dev.miStatus, h]

theorem nvmeMi_none (h : d.miTakes overLane = false) : d.nvmeMi eid overLane req = d := by
  rw [miTakes_eq, Bool.not_eq_false'] at h
  exact if_pos h

theorem nvmeMi_repeat {m : RasMemo} (h : d.miTakes overLane = true)
    (hm : d.mgmt.mctp.find? (fun m => decide (m.source = eid ∧ m.seq = leAt req 4 4)) = some m) (hl : 16 ≤ req.length) :
    d.nvmeMi eid overLane req = { d with mgmt := { d.mgmt with
      mctpTx := m.response, mctpStatus := 0, mctp := remember d.mgmt.mctp m } } := by
  rw [miTakes_eq, Bool.not_eq_true'] at h
  refine (if_neg (Bool.eq_false_iff.1 h)).trans ?_
  simp only [hm, miStatus_success hl]

theorem nvmeMi_new (h : d.miTakes overLane = true)
    (hm : d.mgmt.mctp.find? (fun m => decide (m.source = eid ∧ m.seq = leAt req 4 4)) = none) (hl : 16 ≤ req.length) :
    d.nvmeMi eid overLane req =
      let r := d.rasServe .mctp req
      { r.2 with mgmt := { r.2.mgmt with
        mctpTx := r.1, mctpStatus := 0
        mctp := remember r.2.mgmt.mctp { source := eid, seq := leAt req 4 4, response := r.1 } } } := by
  rw [miTakes_eq, Bool.not_eq_true'] at h
  refine (if_neg (Bool.eq_false_iff.1 h)).trans ?_
  simp only [hm, miStatus_success hl]

end
end

/-! ### The request itself (R72) -/

theorem mapped_aligned {blk n off : Nat} (h : mapped blk n off = true) : off % 8 = 0 := by
  simp only [mapped, Bool.and_eq_true, decide_eq_true_eq] at h
  exact h.1.2

/-- A register lies at an address that is a multiple of 8 (R54). -/
theorem aligned_of_addrTarget {a blk n off : Nat} (h : addrTarget a = .reg blk n off) : a % 8 = 0 := by
  suffices ho : a % 0x10000 % 8 = 0 by omega
  unfold addrTarget at h
  dsimp only at h
  split at h
  · split at h
    · cases h
    · split at h
      · next hm => exact mapped_aligned hm
      · cases h
  · split at h
    · cases h
    · split at h
      · cases h
      · split at h
        · next hm => exact mapped_aligned hm
        · cases h

/-- The head or the length of a request is not one that the service takes (R71, R72). -/
def badForm (req : List Byte) : Prop :=
  (leAt req 0 1 ≠ 1 ∨ ¬ (leAt req 1 1 = 1 ∨ leAt req 1 1 = 2) ∨ leAt req 3 1 = 0 ∨ 64 < leAt req 3 1) ∨
    req.length ≠ if leAt req 1 1 = 2 then 16 + 8 * leAt req 3 1 else 16

theorem not_badForm {req : List Byte} (hv : leAt req 0 1 = 1) (ho : leAt req 1 1 = 1 ∨ leAt req 1 1 = 2)
    (h1 : 1 ≤ leAt req 3 1) (h64 : leAt req 3 1 ≤ 64)
    (hl : req.length = if leAt req 1 1 = 2 then 16 + 8 * leAt req 3 1 else 16) : ¬ badForm req := by
  rintro ((h | h | h | h) | h)
  · exact h hv
  · exact h ho
  · omega
  · omega
  · exact h hl

section
variable (d : Dev) {req : List Byte} (who : Path) {blk n off : Nat}

/-- A request of a bad form accesses nothing. -/
theorem rasServe_badForm (h : badForm req) :
    d.rasServe who req = (rasHead (leAt req 1 1) 4 0 (leAt req 4 4) (leAt req 8 8), d) := if_pos h

theorem rasServe_misaligned (h : ¬ badForm req) (ha : leAt req 8 8 % 8 ≠ 0) :
    d.rasServe who req = (rasHead (leAt req 1 1) 2 0 (leAt req 4 4) (leAt req 8 8), d) := (if_neg h).trans (if_pos ha)

/-- A read of a good form reads its registers. -/
theorem rasServe_read (hv : leAt req 0 1 = 1) (ho : leAt req 1 1 = 1) (h1 : leAt req 3 1 = 1) (hl : req.length = 16)
    (ha : leAt req 8 8 % 8 = 0) : d.rasServe who req =
      let r := d.rasReads who (leAt req 8 8) 1
      (rasHead 1 r.2.2.1 r.1 (leAt req 4 4) (leAt req 8 8) ++ r.2.1, r.2.2.2) := by
  have hg := not_badForm (req := req) hv (.inl ho) (by omega) (by omega) (by rw [if_neg (by omega), hl])
  refine ((if_neg hg).trans (if_neg (not_not_intro ha))).trans ((if_pos ho).trans ?_)
  simp only [h1, ho]

/-- A write of a good form writes them. -/
theorem rasServe_write (hv : leAt req 0 1 = 1) (ho : leAt req 1 1 = 2) (h1 : leAt req 3 1 = 1) (hl : req.length = 24)
    (ha : leAt req 8 8 % 8 = 0) : d.rasServe who req =
      let r := d.rasWrites who (leAt req 8 8) [BitVec.ofNat 64 (leAt req 16 8)]
      (rasHead 2 r.2.1 r.1 (leAt req 4 4) (leAt req 8 8), r.2.2) := by
  have hg := not_badForm (req := req) hv (.inr ho) (by omega) (by omega) (by rw [if_pos ho, hl, h1])
  have h2 : ¬ leAt req 1 1 = 1 := by omega
  refine ((if_neg hg).trans (if_neg (not_not_intro ha))).trans ((if_neg h2).trans ?_)
  simp only [h1, ho]
  rfl

theorem rasReads_reg {a : Nat} (ha : addrTarget a = .reg blk n off) :
    d.rasReads who a 1 = (1, leBytes (d.view blk n off).toNat 8, 0, d.readActs who blk n off) := by
  simp [Dev.rasReads, Dev.readBus, ha]

theorem rasReads_unmapped {a : Nat} (ha : addrTarget a = .unmapped blk n) :
    d.rasReads who a 1 = (0, [], 1, d.setErr blk n errAccess) := by
  simp [Dev.rasReads, Dev.badAccess, ha]

theorem rasWrites_reg {a : Nat} (v : Word) (ha : addrTarget a = .reg blk n off) (hw : d.mayWrite who blk off = true) :
    d.rasWrites who a [v] = (1, 0, d.writeReg blk n off v) := by
  simp [Dev.rasWrites, ha, hw]

theorem rasWrites_denied {a : Nat} (v : Word) (ha : addrTarget a = .reg blk n off) (hw : d.mayWrite who blk off = false) :
    d.rasWrites who a [v] = (0, 3, d) := by
  simp [Dev.rasWrites, ha, hw]

end

end Sys2Proof.Proofs
end

section
/-! Warden's doorbell and cores, and the register-access service on both its paths (R70 to R74, R111, R112, R164). -/

namespace Sys2Proof.Proofs

open Sys2Proof.Machine Sys2Proof.Laws

/-- Settles O7: the mailbox, the cores' RUN bits, and a request on either path by its form and by what it names. -/
theorem managementPaths : Obligations.ManagementPaths := by
  unfold Obligations.ManagementPaths
  refine ⟨?_, ?_, ?_, ?_, ?_, ?_, ?_, ?_, ?_, ?_, ?_, ?_, ?_, ?_, ?_, ?_, ?_, ?_, ?_, ?_, ?_⟩
  · intro s v hl hon hr
    obtain ⟨hh, hm⟩ := mboxWrite_rings v hon hr
    exact runs_of_upd _ s _ _ (exec_wardenMailboxWrite s v) hl ⟨mboxWrite_data _ _, fun k => mboxWrite_core _ _, hh, hm⟩
  · intro s v hl h
    exact runs_of_upd _ s _ _ (exec_wardenMailboxWrite s v) hl
      ⟨mboxWrite_data _ _, fun k => mboxWrite_core _ _, mboxWrite_lost v h⟩
  · intro s k hl hk hb
    refine runs_of_upd _ s _ _ (exec_coreRun s k true) hl ?_
    have hw := fget_fset_run s.dev (run_lt s.dev)
    rw [coreRun_starts hk hb]
    refine ⟨?_, look_put_self _ _ _, fun j hj => look_put_other _ _ _ _ hj, rfl⟩
    rw [coreStart_run hk (by rwa [hw]), hw]
  · intro s k hl hk hb
    refine runs_of_upd _ s _ _ (exec_coreRun s k false) hl ?_
    rw [coreRun_halts hk hb]
    exact ⟨fget_fset_run _ (Nat.lt_of_le_of_lt (Nat.sub_le _ _) (run_lt _)), rfl, rfl⟩
  · intro s k run hl hk hb
    refine runs_of_upd _ s _ _ (exec_coreRun s k run) hl ?_
    rw [coreRun_same hk hb]
    exact ⟨fget_fset_run _ (run_lt _), rfl, rfl⟩
  · exact fun s k run hl hk => gives_of_upd (exec_coreRun s k run) hl (if_pos hk)
  · exact fun s ip port dst dport req m hl ht hm =>
      acts_of_act _ s _ _ (exec_rasRequest s ip port dst dport req) hl (rasRequest_repeat ht hm)
  · intro s ip port dst dport req hl ht hm
    refine acts_of_act _ s _ _ (exec_rasRequest s ip port dst dport req) hl ?_
    rw [rasRequest_new ht hm]
    exact ⟨rfl, rfl, _, remember_head _ _, rfl, rfl, rfl, remember_length _ _⟩
  · exact fun s ip port dst dport req hl ht => settles_of_act (exec_rasRequest s ip port dst dport req) hl (rasRequest_none ht)
  · exact fun s src hl => runs_of_upd _ s _ _ (exec_rasMemoryExpiry s .lane src) hl rfl
  · exact fun s src hl => runs_of_upd _ s _ _ (exec_rasMemoryExpiry s .mctp src) hl rfl
  · exact fun s k src hl => gives_of_upd (exec_rasMemoryExpiry s (.core k) src) hl rfl
  · intro s eid overLane req hl ht hm h16
    refine acts_of_act _ s _ _ (exec_nvmeMiVendorC0 s eid overLane req) hl ?_
    rw [nvmeMi_new ht hm h16]
    exact ⟨rfl, rfl, rfl, _, remember_head _ _, rfl, rfl, rfl, remember_length _ _⟩
  · exact fun s eid overLane req m hl ht hm h16 =>
      acts_of_act _ s _ _ (exec_nvmeMiVendorC0 s eid overLane req) hl (nvmeMi_repeat ht hm h16)
  · exact fun s eid overLane req hl ht => settles_of_act (exec_nvmeMiVendorC0 s eid overLane req) hl (nvmeMi_none ht)
  · exact fun d req who h => rasServe_badForm d who (by simpa only [badForm, or_assoc] using h)
  · exact fun d req who hv ho h1 h64 hlen ha => rasServe_misaligned d who (not_badForm hv ho h1 h64 hlen) ha
  · intro d req who blk n off hv ho h1 hlen ha
    rw [rasServe_read d who hv ho h1 hlen (aligned_of_addrTarget ha), rasReads_reg d who ha]
  · intro d req who blk n off hv ho h1 hlen ha hw
    rw [rasServe_write d who hv ho h1 hlen (aligned_of_addrTarget ha), rasWrites_reg d who _ ha hw]
  · intro d req who blk n off hv ho h1 hlen ha hw
    rw [rasServe_write d who hv ho h1 hlen (aligned_of_addrTarget ha), rasWrites_denied d who _ ha hw]
  · intro d req who blk n hv ho h1 hlen ha hu
    rw [rasServe_read d who hv ho h1 hlen ha, rasReads_unmapped d who hu]
    exact congrArg (·, _) (List.append_nil _)

end Sys2Proof.Proofs
end

section
/-! SUPPORT. Work that leaves the headers of blocks as they are: what completions, transports, bands and reads do (R144, R187,
R259, R271, R284, R323 to R341). -/

namespace Sys2Proof.Proofs

open Sys2Proof.Machine Sys2Proof.Laws

set_option Elab.async false

/-- `e` is `d` after work that leaves every header, and PITCH's pause before a swap, as they are. -/
structure LeavesHeaders (d e : Dev) : Prop where
  insts : e.insts = d.insts
  pause : e.pitch.pause = d.pitch.pause

namespace LeavesHeaders

variable {c d e f : Dev}

theorem refl (d : Dev) : LeavesHeaders d d := ⟨rfl, rfl⟩

theorem trans (h : LeavesHeaders d e) (h' : LeavesHeaders e f) : LeavesHeaders d f :=
  ⟨h'.insts.trans h.insts, h'.pause.trans h.pause⟩

theorem inst (h : LeavesHeaders d e) (b n : Nat) : e.inst b n = d.inst b n := by rw [Dev.inst, h.insts, Dev.inst]

/-- A further change of other parts of the device. -/
theorem same (h : LeavesHeaders d e) (hi : f.insts = e.insts := by rfl) (hp : f.pitch.pause = e.pitch.pause := by rfl) :
    LeavesHeaders d f := h.trans ⟨hi, hp⟩

theorem ite {p : Prop} [Decidable p] (he : LeavesHeaders d e) (hf : LeavesHeaders d f) :
    LeavesHeaders d (if p then e else f) := by
  split
  · exact he
  · exact hf

theorem foldl {α : Type} {g : Dev → α → Dev} (l : List α) (hg : ∀ c x, LeavesHeaders c (g c x)) (h : LeavesHeaders d e) :
    LeavesHeaders d (l.foldl g e) :=
  h.trans (List.foldlRecOn (motive := LeavesHeaders e) l g (refl e) fun _ hc x _ => hc.trans (hg _ x))

variable (h : LeavesHeaders d e)
include h

/-! ### Shared operations -/

theorem fset {g : FRef} {n : Nat} (v : Nat) : LeavesHeaders d (e.fset g v n) := h.same

theorem bump {g : FRef} {n : Nat} (k : Nat) : LeavesHeaders d (e.bump g k n) := h.same

theorem bumpSat {g : FRef} {n : Nat} (k : Nat) : LeavesHeaders d (e.bumpSat g k n) := h.same

theorem raiseTo {g : FRef} {n : Nat} (v : Nat) : LeavesHeaders d (e.raiseTo g v n) := h.same

theorem post (b n c x : Nat) : LeavesHeaders d (e.post b n c x) := h.same (by simp) (by simp)

theorem event (x : PEvent) : LeavesHeaders d (e.event x) := by
  unfold Dev.event
  exact .ite h.same h.same

theorem maint (nsh token : Nat) (rest : List Nat) : LeavesHeaders d (e.maint nsh token rest) := h.event _

theorem tcount (t i k : Nat) : LeavesHeaders d (e.tcount t i k) := by
  unfold Dev.tcount
  exact .ite h h.same

theorem sampleAt (src : Nat) (tenant : Option Nat) (i : Nat) : LeavesHeaders d (e.sampleAt src tenant i) := by
  unfold Dev.sampleAt
  exact .ite h (.ite ((h.same (f := (e.fset _ _).fset _ _)).post _ _ _ _) h.same)

theorem sample (src : Nat) (tenant : Option Nat) : LeavesHeaders d (e.sample src tenant) := by
  unfold Dev.sample
  exact .ite h (.foldl _ (fun _ i => (refl _).sampleAt src tenant i) h)

theorem countDone (ctrl tenant qid op : Nat) (c : Cqe) : LeavesHeaders d (e.countDone ctrl tenant qid op c) := by
  unfold Dev.countDone
  have hc := h.tcount (if (e.ctrl ctrl).any (·.discovery) then 0 else tenant)
    (if qid = 0 then 2 else if op = 2 then 0 else if op = 1 ∨ op = 8 then 1 else 2) 1
  exact (ite ((ite hc (hc.tcount _ _ _)).tcount _ _ _) (ite hc (hc.tcount _ _ _))).sample _ _

theorem withMedia (m : Media) : LeavesHeaders d { e with media := m } := h.same

/-! ### Frames out (R349 to R355) -/

theorem showSwt : LeavesHeaders d e.showSwt := h.same

theorem dropRef (i : Nat) : LeavesHeaders d (e.dropRef i) := by
  unfold Dev.dropRef
  split
  · exact h
  · exact h.same

theorem freeQueued (q : Nat) : LeavesHeaders d (e.freeQueued q) := by
  unfold Dev.freeQueued
  exact showSwt (post (bump (foldl _ (fun _ i => (refl _).dropRef i) (same h)) _) _ _ _ _)

theorem holdExpiry (q : Nat) : LeavesHeaders d (e.holdExpiry q) := by
  unfold Dev.holdExpiry
  dsimp only
  split
  · exact .ite h (h.same.freeQueued q)
  · exact h

theorem freeDead (f : OutFrame) : LeavesHeaders d (e.freeDead f).1 := by
  have hf := foldl f.ports (fun _ q => (refl _).holdExpiry q) h
  exact .ite hf hf.same

theorem admitFrame (f : OutFrame) : LeavesHeaders d (e.admitFrame f) := by
  unfold Dev.admitFrame
  exact showSwt (foldl _ (fun _ _ => same (refl _)) (same (ite (bump (g := Reg.SWT_OVFSTAT.OVERFLOWS) (n := 0) h 1) h)))

theorem emit (f : OutFrame) : LeavesHeaders d (e.emit f) := by
  have hd := h.freeDead f
  unfold Dev.emit
  generalize e.freeDead f = r at hd ⊢
  obtain ⟨c, g⟩ := r
  exact .ite h (.ite (same h) (.ite hd (.ite (admitFrame hd g) (same hd))))

theorem sendMsg (n : Nat) (x : Ctx) (m : TxMsg) : LeavesHeaders d (e.sendMsg n x m) :=
  foldl _ (fun _ _ => (refl _).emit _) h

theorem sendPiece (n : Nat) (x : Ctx) (bytes : Nat) : LeavesHeaders d (e.sendPiece n x bytes) :=
  foldl _ (fun _ _ => (refl _).emit _) h

/-! ### Contexts (R323 to R327) -/

theorem setTport (blk : Nat) (t : Tport) : LeavesHeaders d (e.setTport blk t) := by
  unfold Dev.setTport
  exact .ite h.same h.same

theorem showCtx (blk : Nat) : LeavesHeaders d (e.showCtx blk) := by
  unfold Dev.showCtx
  exact .ite h.same h.same

theorem modCtx (blk n : Nat) (g : Ctx → Ctx) : LeavesHeaders d (e.modCtx blk n g) := by
  unfold Dev.modCtx
  dsimp only
  split
  · exact h
  · exact h.same.setTport _ _

theorem placeCtx (blk n : Nat) (x : Ctx) : LeavesHeaders d (e.placeCtx blk n x) := (h.same.setTport _ _).showCtx blk

theorem evict (blk n : Nat) : LeavesHeaders d (e.evict blk n) := by
  unfold Dev.evict
  dsimp only
  split
  · exact h
  · exact h.same.setTport _ _

theorem makeSlot (blk : Nat) : LeavesHeaders d (e.makeSlot blk).1 := by
  unfold Dev.makeSlot
  split
  · exact h
  · split
    · exact h.evict _ _
    · exact h

theorem fetchCtx (blk n : Nat) : LeavesHeaders d (e.fetchCtx blk n) := by
  have hm := h.makeSlot blk
  unfold Dev.fetchCtx
  generalize e.makeSlot blk = r at hm ⊢
  obtain ⟨c, ok⟩ := r
  exact .ite h (.ite hm (sample (ite (bump (placeCtx hm _ _ _) _) (bump (placeCtx hm _ _ _) _)) _ _))

theorem needCtx (blk n : Nat) : LeavesHeaders d (e.needCtx blk n) := by
  unfold Dev.needCtx
  exact .ite h (h.fetchCtx _ _)

/-! ### Messages and pieces of the stream (R328 to R341) -/

theorem addRecs (l : List TRec) : LeavesHeaders d { e with trans := { e.trans with recs := e.trans.recs ++ l } } := h.same

omit h in
theorem pumpN (k : Nat) : ∀ {e : Dev}, LeavesHeaders d e → ∀ n, LeavesHeaders d (e.pumpN n k) := by
  induction k with
  | zero => exact fun h _ => h
  | succ k ih =>
    intro e h n
    unfold Dev.pumpN
    split
    · exact h
    · dsimp only
      split
      · exact h
      · split
        · exact h
        · refine .ite h (ih (h.trans (.ite ?_ (sendMsg ?_ _ _ _))) n) <;>
            exact addRecs (modCtx (same (refl e)) _ _ _) _

theorem queueMsg (n : Nat) (m : TxMsg) : LeavesHeaders d (e.queueMsg n m) := pumpN _ h.same n

theorem sessUse (slot : Nat) (send : Bool) (k : Nat) : LeavesHeaders d (e.sessUse slot send k).1 := by
  unfold Dev.sessUse
  dsimp only
  split
  · exact h
  · split
    · exact h.same.post _ _ _ _
    · exact h.same

theorem setSconn (n : Nat) (x : SConn) : LeavesHeaders d (e.setSconn n x) := h.same

omit h in
theorem streamPumpN (k : Nat) : ∀ {e : Dev}, LeavesHeaders d e → ∀ n, LeavesHeaders d (e.streamPumpN n k) := by
  induction k with
  | zero => exact fun h _ => h
  | succ k ih =>
    intro e h n
    unfold Dev.streamPumpN
    split
    · exact h
    · dsimp only
      split
      · exact h
      · split
        · exact h
        · refine .ite h (.ite h.same (ih (sendPiece (modCtx (setSconn ?_ _ _) _ _ _) _ _ _) n))
          exact ite (bumpSat (sessUse h _ _ _) _) (sessUse h _ _ _)

theorem queuePiece (n : Nat) (k : SKind) (head data : Nat) : LeavesHeaders d (e.queuePiece n k head data) := by
  unfold Dev.queuePiece
  split
  · exact h
  · exact streamPumpN _ h.same n

theorem sendResponse (ctx tag cmdref : Nat) (inval : Bool) : LeavesHeaders d (e.sendResponse ctx tag cmdref inval) := by
  unfold Dev.sendResponse
  split
  · exact h
  · exact (h.needCtx _ _).queueMsg _ _
  · exact (h.needCtx _ _).queuePiece _ _ _ _

/-! ### Completions and the events of controllers (R144, R158, R166, R187) -/

theorem trace (l : Lock) : LeavesHeaders d (e.trace l) := by
  unfold Dev.trace
  exact .ite h (.ite (post (same h) _ _ _ _) (same h))

theorem finishLocks (key : Nat) : LeavesHeaders d (e.finishLocks key) :=
  foldl _ (fun _ _ => same ((refl _).trace _)) h

theorem dropAdm (n : Nat) : LeavesHeaders d (e.dropAdm n) := by
  unfold Dev.dropAdm
  split
  · exact h
  · refine same (e := e.giveBack _) ?_
    unfold Dev.giveBack
    exact .ite h h.same

theorem dropAdmsOf (tag : Nat) : LeavesHeaders d (e.dropAdmsOf tag) :=
  same (foldl (e.ledger.adms.filter fun x => decide (x.2.tag = tag)) (fun _ p => (refl _).dropAdm p.1) h)

theorem showStaging : LeavesHeaders d e.showStaging := h.same

theorem modTag (key : Nat) (g : Tag → Tag) : LeavesHeaders d (e.modTag key g) := by
  unfold Dev.modTag
  split
  · exact h.same
  · exact h

theorem withHostq (x : Hostq) : LeavesHeaders d { e with hostq := x } := h.same

theorem withHostqRope (x : Hostq) (y : Rope) : LeavesHeaders d { e with hostq := x, rope := y } := h.same

theorem withHostqBelay (x : Hostq) (y : Belay) : LeavesHeaders d { e with hostq := x, belay := y } := h.same

theorem discard (p : SUnit → Bool) : LeavesHeaders d (e.discard p) := showStaging (same h)

theorem hostDone (key : Nat) (c : Cqe) (counted : Bool) : LeavesHeaders d (e.hostDone key c counted) := by
  unfold Dev.hostDone
  split
  · exact h
  · refine .ite h (.ite (withHostqBelay ?_ _ _) (.ite (withHostq ?_ _)
      (sendResponse (withHostq (modTag ?_ _ _) _) _ _ _ _))) <;>
      exact withHostqRope (discard (dropAdmsOf (finishLocks (ite (countDone h _ _ _ _ _) h) _) _) _) _ _

theorem modCtrl (c : Nat) (g : Ctrl → Ctrl) : LeavesHeaders d (e.modCtrl c g) := by
  unfold Dev.modCtrl
  split
  · exact h.same
  · exact h

theorem serveEvents (c : Nat) : LeavesHeaders d (e.serveEvents c) := by
  unfold Dev.serveEvents
  split
  · exact h
  · split
    · exact (h.modCtrl _ _).hostDone _ _ _
    · exact h

theorem raiseAens (p : Ctrl → Bool) (typ info page : Nat) : LeavesHeaders d (e.raiseAens p typ info page) :=
  foldl _ (fun _ _ => ((refl _).modCtrl _ _).serveEvents _) h

/-! ### Bands, blocks and staging (R268, R276, R282, R284) -/

theorem putBand (n : Nat) (b : Band) : LeavesHeaders d (e.putBand n b) := h.same

theorem modBand (n : Nat) (g : Band → Band) : LeavesHeaders d (e.modBand n g) := by
  unfold Dev.modBand
  split
  · exact h.putBand _ _
  · exact h

theorem modUnit (i : Nat) (g : SUnit → SUnit) : LeavesHeaders d (e.modUnit i g) := by
  unfold Dev.modUnit
  split
  · exact h.same
  · exact h

theorem bandItem (n kind : Nat) : LeavesHeaders d (e.bandItem n kind) := by
  unfold Dev.bandItem
  split
  · exact .ite h (maint (putBand (same h) _ _) _ _ _)
  · exact h

theorem retire (c : Chunk) : LeavesHeaders d (e.retire c) := h.same

theorem wearCheck : LeavesHeaders d e.wearCheck := by
  unfold Dev.wearCheck
  refine .ite h ?_
  dsimp only
  split
  · exact h
  · exact h.bandItem _ _

theorem failStripe (id chunk : Nat) : LeavesHeaders d (e.failStripe id chunk) := by
  unfold Dev.failStripe
  split
  · exact h
  · refine showStaging (bandItem (modBand (same (foldl _ (fun c u => ?_) h)) _ _) _ _)
    dsimp only
    split
    · exact (refl c).modUnit _ _
    · exact (refl c).same
    · exact (refl c).same
    · exact refl c
    · exact refl c

theorem chunkErased (n chunk : Nat) (good : Bool) : LeavesHeaders d (e.chunkErased n chunk good) := by
  unfold Dev.chunkErased
  split
  · exact h
  · split
    · exact h
    · have hw (c : Chunk) (v : Nat) : LeavesHeaders d (e.blkWrite c 10 3 v).wearCheck := wearCheck (same h)
      exact .ite (modBand (ite (retire (hw _ _) _) (same (hw _ _))) _ _)
        (.ite (same (hw _ _)) (foldl _ (fun _ _ => (refl _).failStripe _ _) (retire (hw _ _) _)))

/-! ### The decode ladder (R248, R259, R260, R270) -/

theorem modJobUnit (j i : Nat) (g : JobUnit → JobUnit) : LeavesHeaders d (e.modJobUnit j i g) := by
  unfold Dev.modJobUnit
  split
  · exact h.same
  · exact h

theorem modJob (j : Nat) (g : ReadJob → ReadJob) : LeavesHeaders d (e.modJob j g) := by
  unfold Dev.modJob
  split
  · exact h.same
  · exact h

theorem doom (key sct sc : Nat) : LeavesHeaders d (e.doom key sct sc) := by
  unfold Dev.doom
  split
  · exact .ite h h.same
  · exact h

theorem finishJob (j : Nat) : LeavesHeaders d (e.finishJob j) := by
  unfold Dev.finishJob
  split
  · exact h
  · refine .ite h (.ite (same h) (event (ite ?_ (ite (doom ?_ _ _ _) (doom ?_ _ _ _))) _)) <;>
      exact ite (same h) (same h)

theorem relocate (x level : Nat) : LeavesHeaders d (e.relocate x level) := by
  unfold Dev.relocate
  split
  · exact h
  · exact .ite h (maint (putBand (same h) _ _) _ _ _)

theorem unrecovered (j i x : Nat) : LeavesHeaders d (e.unrecovered j i x) :=
  ((((h.bump _).relocate _ _).post _ _ _ _).modJobUnit _ _ _).finishJob _

theorem rebuildReqs (j i x : Nat) : LeavesHeaders d (e.rebuildReqs j i x) := by
  unfold Dev.rebuildReqs
  split
  · exact h.unrecovered _ _ _
  · exact .ite ((h.modJobUnit _ _ _).unrecovered _ _ _) (h.modJobUnit _ _ _).same

theorem climb (j i : Nat) : LeavesHeaders d (e.climb j i) := by
  unfold Dev.climb
  split
  · exact h
  · split
    · exact h
    · refine .ite (h.unrecovered _ _ _) (.ite (rebuildReqs (.ite (.ite (modJob (bump ?_ _) _ _) ?_) ?_) _ _ _)
        (withMedia (.ite (.ite (modJob (bump ?_ _) _ _) ?_) ?_) _)) <;>
        exact .ite (sample (bump (modJobUnit h _ _ _) _) _ _) (.ite (bump (modJobUnit h _ _ _) _)
          (.ite (bump (modJobUnit h _ _ _) _) (bumpSat (modJobUnit h _ _ _) _)))

theorem toLevel4 (j i : Nat) : LeavesHeaders d (e.toLevel4 j i) := (h.modJobUnit _ _ _).climb _ _

theorem decoded (j i : Nat) (r : Option URec) (data : Memory) : LeavesHeaders d (e.decoded j i r data) := by
  unfold Dev.decoded
  dsimp only
  split
  · split
    · exact (h.modJobUnit j i _).same.relocate _ _
    · exact h.modJobUnit _ _ _
  · exact h.modJobUnit _ _ _

theorem rebuildGot (j i pos : Nat) (cw : Option Codeword) : LeavesHeaders d (e.rebuildGot j i pos cw) := by
  unfold Dev.rebuildGot
  dsimp only
  split
  · exact h.modJobUnit _ _ _
  · split
    · exact h.modJobUnit _ _ _
    · exact .ite (h.modJobUnit _ _ _) (.ite (decoded (modJob (bump (modJobUnit h _ _ _) _) _ _) _ _ _ _)
        (.ite ((h.modJobUnit _ _ _).unrecovered _ _ _) (h.modJobUnit _ _ _)))

/-! ### A link that goes (R231, R271, R508) -/

theorem programFailed (ch : Chunk) (s c : Nat) : LeavesHeaders d (e.programFailed ch s c) := by
  unfold Dev.programFailed
  refine .ite (h.failStripe _ _) ?_
  dsimp only
  split
  · exact h.putBand _ _
  · exact h

theorem opFailed (n : Nat) (o : NandOp) : LeavesHeaders d (e.opFailed n o) := by
  unfold Dev.opFailed
  split
  · exact h.climb _ _
  · exact h.rebuildGot _ _ _ _
  · exact h.programFailed _ _ _
  · exact h.chunkErased _ _ _
  · exact h

theorem showOps (n : Nat) : LeavesHeaders d (e.showOps n) := h.same

theorem endOps (n : Nat) (p : NandOp → Bool) : LeavesHeaders d (e.endOps n p).1 :=
  showOps (foldl _ (fun _ _ => (refl _).opFailed _ _) (withMedia h _)) n

theorem dropReqs (n : Nat) (failed : Bool) : LeavesHeaders d (e.dropReqs n failed) := by
  unfold Dev.dropReqs
  refine foldl _ (fun c q => ?_) (withMedia h _)
  split
  · exact (refl c).toLevel4 _ _
  · exact (refl c).rebuildGot _ _ _ _
  · exact (refl c).modBand _ _
  · exact (refl c).programFailed _ _ _
  · exact refl c

theorem sledAbsent (n : Nat) : LeavesHeaders d (e.sledAbsent n) := by
  unfold Dev.sledAbsent
  exact .ite h (.ite (same h) (post (same h) _ _ _ _))

theorem tetherStops (n : Nat) : LeavesHeaders d (e.tetherStops n) :=
  same ((((h.sledAbsent n).endOps n fun _ => true).bump _).dropReqs n false)

end LeavesHeaders

end Sys2Proof.Proofs
end

section
/-! SUPPORT. A block's service (R58, R61, R62): what its check, its disable and its start leave of its header. -/

namespace Sys2Proof.Proofs

open Sys2Proof.Machine Sys2Proof.Laws

set_option Elab.async false

variable {d : Dev} {blk n : Nat}

/-! ### Commands that name a block and a number -/

theorem onInst_of_lt (h : n < instCount blk) (f : Dev → Dev) : d.onInst blk n f = f d := if_pos h

theorem onInst_same {f : Dev → Dev} (h : f d = d) : d.onInst blk n f = d := by
  unfold Dev.onInst
  rw [h]
  exact ite_self d

theorem instKey_ne_camp (hb : blk ≠ 0) : instKey blk n ≠ instKey 0 0 := by simp [instKey]; omega

/-! ### The request for service (R58, R426) -/

/-- What a write of 1 to ENABLE leaves of a block that takes it: TETHER's link goes to training. -/
theorem blockEnable_starts (he : (d.inst blk n).enabled = false) (hb : (d.inst blk n).busy = false)
    (hs : ((d.inst blk n).safe && (d.spotter.unitSafe || !(d.inst blk n).zeroed)) = false) :
    d.blockEnable blk n = (if blk = 0x17 then d.fset Reg.TTH_LINK.STATE 1 n else d).setInst blk n
      { d.inst blk n with enable := true, check := some .enable } := by
  unfold Dev.blockEnable
  rw [if_neg (by rw [he, hb, hs]; decide)]
  split <;> rfl

theorem blockEnable_ignored (h : (d.inst blk n).enabled = true ∨ (d.inst blk n).busy = true ∨
    (d.inst blk n).safe = true ∧ (d.inst blk n).zeroed = false) : d.blockEnable blk n = d := by
  unfold Dev.blockEnable
  rcases h with h | h | ⟨h, h'⟩ <;> simp [*]

/-! ### The check refuses (R60) -/

theorem dmcTrained_eq (o : CheckObs) : d.dmcTrained blk o = { d with regs := (d.dmcTrained blk o).regs } := by
  unfold Dev.dmcTrained
  split <;> rfl

theorem checkEnd_other {o : CheckObs} (h : (d.inst blk n).check ≠ some .enable) : d.checkEnd blk n o = d := if_pos h

theorem checkEnd_passes {o : CheckObs} (hc : (d.inst blk n).check = some .enable)
    (hr : (d.dmcTrained blk o).checkResult blk n o = none) :
    d.checkEnd blk n o = ((d.dmcTrained blk o).intoService blk n o).heldActs blk n := by
  unfold Dev.checkEnd
  rw [if_neg (by simp [hc])]
  simp only [Dev.dmcTrained] at hr ⊢
  rw [hr]

/-- A write of a field reaches no other register. -/
theorem get_fset_other (f : FRef) (v k : Nat) {x : Nat} (h : x ≠ regAddr f.blk k f.off) :
    (d.fset f v k).regs.get x = d.regs.get x := get_set_other _ _ _ _ h

/-- A link whose training did not end well says so, and nothing else. -/
theorem notTrained_regs (r : Nat × Nat) (o : CheckObs) :
    d.notTrained n r o = { d with regs := (d.notTrained n r o).regs } ∧
    ∀ x, x ≠ regAddr 0x17 n Reg.TTH_IDENT.PROTO.off → x ≠ regAddr 0x17 n Reg.TTH_LINK.STATE.off →
      (d.notTrained n r o).regs.get x = d.regs.get x := by
  unfold Dev.notTrained
  by_cases hp : r.1 % 256 = 0x21
  · simp only [if_pos hp]
    exact ⟨rfl, fun x h h' => (get_fset_other _ _ _ h).trans (get_fset_other _ _ _ h')⟩
  · simp only [if_neg hp]
    exact ⟨rfl, fun x _ h' => get_fset_other _ _ _ h'⟩

/-- A refusal is kept in the header, and PARSE's node in its register. -/
theorem refuse_regs (r : Nat × Nat) : ∃ rg, d.refuse blk n r = { d with regs := rg }.setInst blk n
      { d.inst blk n with check := none, refused := true, refReason := r.1, refOff := r.2 } ∧
    ∀ x, x ≠ regAddr 0x0A 0 Reg.PRS_GFAIL.NODE.off → rg.get x = d.regs.get x := by
  unfold Dev.refuse
  split
  · exact ⟨_, rfl, fun x h => get_fset_other _ _ _ h⟩
  · exact ⟨d.regs, rfl, fun _ _ => rfl⟩

/-- What a refused check leaves: the header's refusal and the registers that say what was found. -/
theorem checkEnd_refused {o : CheckObs} {r : Nat × Nat} (hc : (d.inst blk n).check = some .enable)
    (hr : (d.dmcTrained blk o).checkResult blk n o = some r) :
    ∃ rg, d.checkEnd blk n o = { d with regs := rg }.setInst blk n
        { d.inst blk n with enable := false, check := none, refused := true, refReason := r.1, refOff := r.2
                            heldDisable := false } ∧
      ∀ x, x ≠ regAddr 0x17 n Reg.TTH_IDENT.PROTO.off → x ≠ regAddr 0x17 n Reg.TTH_LINK.STATE.off →
        x ≠ regAddr 0x0A 0 Reg.PRS_GFAIL.NODE.off → rg.get x = (d.dmcTrained blk o).regs.get x := by
  have hd := dmcTrained_eq (d := d) (blk := blk) o
  have he : d.checkEnd blk n o = Dev.modInst
      (Dev.refuse (if blk = 0x17 then (d.dmcTrained blk o).notTrained n r o else d.dmcTrained blk o) blk n r) blk n
      fun i => { i with enable := false, heldDisable := false } := by
    unfold Dev.checkEnd
    rw [if_neg (by simp [hc])]
    simp only [Dev.dmcTrained] at hr ⊢
    rw [hr]
  generalize d.dmcTrained blk o = c at hd he ⊢
  obtain ⟨ht, htx⟩ := notTrained_regs (d := c) (n := n) r o
  have hn : ∃ rg, (if blk = 0x17 then c.notTrained n r o else c) = { d with regs := rg } ∧
      ∀ x, x ≠ regAddr 0x17 n Reg.TTH_IDENT.PROTO.off → x ≠ regAddr 0x17 n Reg.TTH_LINK.STATE.off →
        rg.get x = c.regs.get x := by
    split
    · exact ⟨(c.notTrained n r o).regs, by rw [ht, hd], htx⟩
    · exact ⟨c.regs, hd, fun _ _ _ => rfl⟩
  obtain ⟨rg, hn, hx⟩ := hn
  obtain ⟨rg', hf, hy⟩ := refuse_regs (d := { d with regs := rg }) (blk := blk) (n := n) r
  refine ⟨rg', ?_, fun x h1 h2 h3 => (hy x h3).trans (hx x h1 h2)⟩
  rw [he, hn, hf, modInst_eq, inst_setInst_self, setInst_setInst]
  rfl

/-! ### A block comes into service (R58) -/

/-- Blocks whose start leaves every header as it is. -/
def plainStart (blk : Nat) : Prop :=
  blk ∈ [0x01, 0x02, 0x04, 0x05, 0x09, 0x0A, 0x0B, 0x0C, 0x0D, 0x0E, 0x11, 0x12, 0x14, 0x18, 0x1C]

theorem ropeStarts_insts : d.ropeStarts.insts = d.insts := by
  unfold Dev.ropeStarts
  dsimp only
  split <;> rfl

theorem insts_ite {p : Prop} [Decidable p] {e : Dev} (h : e.insts = d.insts) : (if p then e else d).insts = d.insts := by
  split
  · exact h
  · rfl

theorem startBlock_insts (hb : plainStart blk) (o : CheckObs) : (d.startBlock blk n o).insts = d.insts := by
  simp only [plainStart, List.mem_cons, List.not_mem_nil, or_false] at hb
  rcases hb with rfl | rfl | rfl | rfl | rfl | rfl | rfl | rfl | rfl | rfl | rfl | rfl | rfl | rfl | rfl
  exacts [rfl, rfl, rfl, rfl, rfl, insts_ite rfl, insts_ite rfl, rfl, rfl, rfl, rfl, ropeStarts_insts, rfl, rfl, rfl]

theorem intoService_inst (hb : plainStart blk) (hs : (d.inst blk n).safe = false) (o : CheckObs) :
    (d.intoService blk n o).inst blk n = { d.inst blk n with
      check := none, refused := false, enabled := true, active := ((d.inst blk n).active + 1) % 65536,
      staged := ((d.inst blk n).active + 2) % 65536, drained := false } := by
  have h0 : blk ≠ 0 := by rintro rfl; simp [plainStart] at hb
  unfold Dev.intoService
  dsimp only
  rw [inst_modInst_self, activateShadow_inst, if_neg (by simp [hs]), retargetAll_inst_other _ _ _ _ (instKey_ne_camp h0)]
  rw [Dev.inst, startBlock_insts hb, ← Dev.inst, inst_modInst_self, activateShadow_inst]


/-! ### A block goes out of service (R61) -/

/-- A header as a disable leaves it: what R61 lists stays. -/
def offHeader (i : Inst) : Inst :=
  { i with enable := false, enabled := false, disabling := false, heldDisable := false, drain := false, drained := false
           check := none, swap := false, swapReady := false, draining := [], staged := (i.active + 1) % 65536 }

theorem clearFields_insts : (d.clearFields blk n).insts = d.insts := by
  refine List.foldlRecOn (motive := fun e : Dev => e.insts = d.insts) (rowsOf blk) _ rfl fun e he r _ => ?_
  dsimp only
  split
  · exact he
  · exact List.foldlRecOn (motive := fun e : Dev => e.insts = d.insts) (List.range r.cnt) _ he fun e he i _ => he

theorem portStops_insts : (d.portStops n).insts = d.insts :=
  List.foldlRecOn (motive := fun e : Dev => e.insts = d.insts) (List.range 4) _ rfl fun e he p _ => by
    dsimp only
    split <;> exact he

theorem clearBlock_insts : (d.clearBlock blk n).insts = d.insts := by
  unfold Dev.clearBlock
  split
  case h_6 => exact portStops_insts
  case h_8 => exact insts_ite (p := n = 0) rfl
  case h_9 => exact insts_ite (p := n = 0) rfl
  case h_21 => exact ((LeavesHeaders.refl d).tetherStops n).insts
  all_goals rfl

/-- A domain that serves no enabled block keeps no D4 target from it, and sets no error. -/
theorem retarget_insts_of_idle {k : Nat} (h : d.domBusy k = false) : (d.retarget k).insts = d.insts := by
  unfold Dev.retarget
  rw [if_neg (by simp [Dev.heldAt3, h])]
  rfl

/-- What a disable leaves of a block's header, CAMP's own included: its one domain then serves no enabled block. -/
theorem outOfService_inst (hn : n < instCount blk) : (d.outOfService blk n).inst blk n = offHeader (d.inst blk n) := by
  have hc : ((d.clearBlock blk n).clearFields blk n).inst blk n = d.inst blk n := by
    rw [Dev.inst, clearFields_insts, clearBlock_insts, Dev.inst]
  unfold Dev.outOfService
  dsimp only
  by_cases h0 : blk = 0
  · subst h0
    obtain rfl : n = 0 := by simpa [instCount] using hn
    have hu : usedDoms 0 0 = [0] := by decide
    rw [hu, Dev.retargetAll, updatePlls_inst, List.foldl_cons, List.foldl_nil, Dev.inst, retarget_insts_of_idle, ← Dev.inst,
      inst_modInst_self, hc]
    · rfl
    · rw [Dev.domBusy, show domInsts 0 = [(0, 0)] from rfl]
      simp [Dev.isEnabled]
  · rw [retargetAll_inst_other _ _ _ _ (instKey_ne_camp h0), inst_modInst_self, hc]
    rfl

theorem needAsks_insts : (d.needAsks blk n).insts = d.insts :=
  List.foldlRecOn (motive := fun e : Dev => e.insts = d.insts) _ _ rfl fun _ he _ _ => he

/-! ### A write of 0 to ENABLE (R61, R62, R417) -/

theorem blockDisable_camp : d.blockDisable 0 n = d := rfl

/-- Outside safe state the write waits, is nothing new, or acts. -/
theorem blockDisable_eq (hb : blk ≠ 0) (hs : (d.inst blk n).safe = false) : d.blockDisable blk n =
    if (d.inst blk n).check.isSome || ((d.inst blk n).enabled && (d.inst blk n).swap) then
      d.modInst blk n fun i => { i with heldDisable := true }
    else if !(d.inst blk n).enabled then d.modInst blk n fun i => { i with enable := false }
    else if (d.inst blk n).disabling then d
    else d.disableActs blk n := by
  unfold Dev.blockDisable
  rw [if_neg hb]
  simp [hs]

theorem blockDisable_waits (hb : blk ≠ 0) (hs : (d.inst blk n).safe = false)
    (h : (d.inst blk n).check.isSome = true ∨ (d.inst blk n).enabled = true ∧ (d.inst blk n).swap = true) :
    d.blockDisable blk n = d.setInst blk n { d.inst blk n with heldDisable := true } := by
  rw [blockDisable_eq hb hs, if_pos (by simpa using h)]
  rfl

theorem blockDisable_off (hb : blk ≠ 0) (hs : (d.inst blk n).safe = false) (he : (d.inst blk n).enabled = false)
    (hc : (d.inst blk n).check = none) :
    d.blockDisable blk n = d.setInst blk n { d.inst blk n with enable := false } := by
  rw [blockDisable_eq hb hs, if_neg (by simp [hc, he]), if_pos (by simp [he])]
  rfl

theorem blockDisable_acts (hb : blk ≠ 0) (hs : (d.inst blk n).safe = false) (he : (d.inst blk n).enabled = true)
    (hc : (d.inst blk n).check = none) (hw : (d.inst blk n).swap = false) (hd : (d.inst blk n).disabling = false) :
    d.blockDisable blk n = d.disableActs blk n := by
  rw [blockDisable_eq hb hs, if_neg (by simp [hc, hw]), if_neg (by simp [he]), if_neg (by simp [hd])]

/-- A disable in safe state is at once, and remembered (R426). -/
theorem blockDisable_safe (hb : blk ≠ 0) (hs : (d.inst blk n).safe = true) (he : (d.inst blk n).enabled = true)
    (hc : (d.inst blk n).check = none) (hw : (d.inst blk n).swap = false) (hd : (d.inst blk n).disabling = false) :
    d.blockDisable blk n =
      ((d.setInst blk n { d.inst blk n with zeroed := true }).outOfService blk n).needAsks blk n := by
  unfold Dev.blockDisable
  rw [if_neg hb]
  simp [hs, he, hc, hw, hd, modInst_eq, Dev.disableActs, Dev.disableHeld]

theorem disableActs_held (h : d.disableHeld blk n = true) : d.disableActs blk n = d.setErr blk n errDepHeld := if_pos h

theorem disableActs_starts (h : d.disableHeld blk n = false) (hs : (d.inst blk n).safe = false) :
    d.disableActs blk n = d.setInst blk n { d.inst blk n with enable := false, drain := true, disabling := true } := by
  rw [Dev.disableActs, if_neg (by simp [h]), if_neg (by simp [hs])]
  rfl

/-- An error leaves a block in service as it was. -/
theorem setErr_on (k : Nat) : (d.setErr blk n k).on blk n = d.on blk n := by
  rw [Dev.on, Dev.isEnabled, setErr_inst]
  rfl

/-- Settles O2: the enable, its check, the disable and the drain, each by the rule of its operation. -/
theorem blockService : Obligations.BlockService := by
  unfold Obligations.BlockService
  refine ⟨?_, ?_, ?_, ?_, ?_, ?_, ?_, ?_, ?_, ?_, ?_, ?_, ?_, ?_, ?_, ?_⟩
  · intro s blk n hl hn h hb
    refine runs_of_upd _ s _ _ (exec_blockEnable s blk n) hl ?_
    rw [onInst_of_lt hn]
    rcases h with ⟨he, hs⟩ | ⟨he, hz, hu⟩
    · exact blockEnable_starts he hb (by simp [hs])
    · exact blockEnable_starts he hb (by simp [hz, hu])
  · intro s blk n hl h
    refine gives_of_upd (exec_blockEnable s blk n) hl ?_
    rcases h with h | h
    · exact if_neg (by omega)
    · exact onInst_same (blockEnable_ignored h)
  · intro s blk n o r hl hn hc hr
    refine acts_of_act _ s _ _ (exec_consistencyCheckEnd s blk n o) hl ?_
    obtain ⟨rg, he, hx⟩ := checkEnd_refused hc hr
    rw [onInst_of_lt hn, he]
    exact ⟨inst_setInst_self _ _ _ _, fun b k hk => inst_setInst_other _ _ _ _ _ _ hk, hx, rfl⟩
  · intro s blk n o hl hn hb hc hh hs hr
    refine acts_of_act _ s _ _ (exec_consistencyCheckEnd s blk n o) hl ?_
    have hd : s.dev.dmcTrained blk o = s.dev := if_neg (by rintro rfl; simp at hb)
    have hi := intoService_inst (d := s.dev) (n := n) hb hs o
    rw [onInst_of_lt hn, checkEnd_passes hc (by rw [hd, hr]), hd, heldActs_idle _ _ _ (by rw [hi]; exact hh)]
    exact hi
  · intro s blk n o hl hn hc hr
    refine settles_of_act (exec_consistencyCheckEnd s blk n o) hl ?_
    rw [onInst_of_lt hn, checkEnd_passes hc hr]
  · exact fun s blk n o hl hc => settles_of_act (exec_consistencyCheckEnd s blk n o) hl (onInst_same (checkEnd_other hc))
  · intro s blk n hl hn hb he hs hc hw hd hh
    refine acts_of_act _ s _ _ (exec_blockDisable s blk n) hl ?_
    rw [onInst_of_lt hn, blockDisable_acts hb hs he hc hw hd, disableActs_starts hh hs]
  · intro s blk n hl hn hb he hs hc hw hd hh
    refine acts_of_act _ s _ _ (exec_blockDisable s blk n) hl ?_
    rw [onInst_of_lt hn, blockDisable_acts hb hs he hc hw hd, disableActs_held (by simp [Dev.disableHeld, hs, hh])]
    exact ⟨rfl, setErr_bit _ _ _ _ (by decide), (setErr_on _).trans (by simp [Dev.on, Dev.isEnabled, he, hs])⟩
  · intro s blk n hl hn hb he hs hc hw hd
    refine acts_of_act _ s _ _ (exec_blockDisable s blk n) hl ?_
    rw [onInst_of_lt hn, blockDisable_safe hb hs he hc hw hd, Dev.inst, needAsks_insts, ← Dev.inst, outOfService_inst hn,
      inst_setInst_self]
    exact ⟨rfl, rfl, rfl, hs, rfl⟩
  · intro s blk n hl hn hb hs h
    refine acts_of_act _ s _ _ (exec_blockDisable s blk n) hl ?_
    rw [onInst_of_lt hn, blockDisable_waits hb hs h]
  · intro s blk n hl hn hb he hc hs
    refine acts_of_act _ s _ _ (exec_blockDisable s blk n) hl ?_
    rw [onInst_of_lt hn, blockDisable_off hb hs he hc]
  · exact fun s hl => settles_of_act (exec_blockDisable s 0 0) hl (onInst_same blockDisable_camp)
  · intro s blk n hl hn hd
    refine acts_of_act _ s _ _ (exec_blockDisableDone s blk n) hl ?_
    rw [onInst_of_lt hn, Dev.blockDisableDone, if_pos hd, outOfService_inst hn]
    exact ⟨rfl, rfl, rfl, rfl, rfl, rfl, rfl, rfl, rfl, rfl, rfl, rfl, rfl, rfl⟩
  · intro s blk n hl hd
    refine settles_of_act (exec_blockDisableDone s blk n) hl (onInst_same ?_)
    rw [Dev.blockDisableDone, if_neg (by simp [hd])]
  · intro s blk n v hl hn hd
    refine runs_of_upd _ s _ _ (exec_blockDrain s blk n v) hl ?_
    rw [onInst_of_lt hn, Dev.blockDrain, if_neg (by simp [hd])]
    rfl
  · intro s blk n hl hn hv hd
    refine runs_of_upd _ s _ _ (exec_drained s blk n) hl ?_
    have hr : ((s.dev.inst blk n).drain && !(s.dev.inst blk n).disabling) = true := by rw [hv, hd]; rfl
    simp only [onInst_of_lt hn, Dev.blockDrained, modInst_eq, hr]

end Sys2Proof.Proofs
end

section
/-! SUPPORT. Generations (R24, R25, R64 to R66): what a request, its check, its swap point, a discard and a release leave. -/

namespace Sys2Proof.Proofs

open Sys2Proof.Machine Sys2Proof.Laws

set_option Elab.async false

variable {d : Dev} {blk n : Nat}

/-! ### The request (R65, R66) -/

theorem retarget_now (k : Nat) : (d.retarget k).now = d.now := by
  unfold Dev.retarget Dev.now
  dsimp only
  split
  · rw [post_tim, setErr_tim]
    rfl
  · rfl

theorem wake_now : d.wake.now = d.now := by
  unfold Dev.wake Dev.retargetAll
  split
  · rfl
  · exact List.foldlRecOn (motive := fun e : Dev => e.now = d.now) psDoms Dev.retarget rfl fun e he k _ =>
      (retarget_now k).trans he

theorem wake_inst (h : instKey blk n ≠ instKey 0 0) : d.wake.inst blk n = d.inst blk n := by
  unfold Dev.wake
  split
  · rfl
  · exact retargetAll_inst_other _ _ _ _ h

theorem swapRequest_starts (he : (d.inst blk n).enabled = true) (hb : (d.inst blk n).busy = false) :
    d.swapRequest blk n = (if blk = 0x13 then d.wake else d).setInst blk n
      { d.inst blk n with swap := true, swapAt := d.now, check := some .swap } := by
  unfold Dev.swapRequest
  rw [if_neg (by simp [he, hb])]
  dsimp only
  split
  · next h =>
    subst h
    rw [modInst_eq, wake_inst (by simp [instKey]), wake_now]
  · rfl

theorem swapRequest_ignored (h : (d.inst blk n).enabled = false ∨ (d.inst blk n).busy = true) : d.swapRequest blk n = d :=
  if_pos (by simpa using h)

/-! ### A staged generation becomes active (R65) -/

/-- A header once its staged generation is active; with `drains` the one before drains. -/
def takenHeader (i : Inst) (drains : Bool) : Inst :=
  { i with active := i.staged, staged := (i.staged + 1) % 65536, swap := false, swapReady := false
           draining := if drains then i.draining ++ [i.active] else i.draining }

theorem takeGen_inst (b : Bool) : (d.takeGen blk n b).inst blk n = takenHeader (d.inst blk n) b := by
  unfold Dev.takeGen
  rw [activateShadow_inst, inst_modInst_self]
  rfl

/-- With no write of 0 held, a header stays as it is. -/
theorem heldActs_inst {i : Inst} (hi : d.inst blk n = i) (hh : i.heldDisable = false) : (d.heldActs blk n).inst blk n = i := by
  rw [heldActs_idle _ _ _ (by rw [hi]; exact hh), hi]

/-- A swap that is at once, ready and fits takes the staged generation, with the copies that PARSE and CLASS make of it. -/
theorem swapNow_inst (hr : (d.inst blk n).swapReady = true) (ha : d.swapsAtOnce blk = true)
    (hf : (d.inst blk n).swapFits = true) (hh : (d.inst blk n).heldDisable = false) :
    (d.swapNow blk n).inst blk n = takenHeader (d.inst blk n) true := by
  have hi := takeGen_inst (d := d) (blk := blk) (n := n) true
  unfold Dev.swapNow
  dsimp only
  rw [if_pos (by simp [hr, ha, hf])]
  refine heldActs_inst ?_ hh
  split
  · exact hi
  · split <;> exact hi

theorem swapNow_idle (h : (d.inst blk n).swapReady = false ∨ d.swapsAtOnce blk = false ∨ (d.inst blk n).swapFits = false) :
    d.swapNow blk n = d := by
  unfold Dev.swapNow
  rcases h with h | h | h <;> simp [h]

theorem swapsAtOnce_iff : d.swapsAtOnce blk = true ↔
    blk ≠ 0x11 ∧ blk ≠ 0x12 ∧ blk ≠ 0x13 ∧ blk ≠ 0x16 ∧ (blk ≠ 0x0F ∨ d.fget Reg.SCH_CFG.GATES_EN = 0) :=
  decide_eq_true_iff

/-- Only SCHED's gate enable says whether a swap is at once. -/
theorem swapsAtOnce_congr {e : Dev} (h : e.fget Reg.SCH_CFG.GATES_EN = d.fget Reg.SCH_CFG.GATES_EN) :
    e.swapsAtOnce blk = d.swapsAtOnce blk := by
  unfold Dev.swapsAtOnce
  rw [h]

/-! ### The check of a swap -/

theorem swapCheckEnd_other {o : CheckObs} (h : (d.inst blk n).check ≠ some .swap) : d.swapCheckEnd blk n o = d := if_pos h

theorem swapCheckEnd_refused {o : CheckObs} {r : Nat × Nat} (hc : (d.inst blk n).check = some .swap)
    (hr : d.checkResult blk n o = some r) : d.swapCheckEnd blk n o =
      (((d.refuse blk n r).modInst blk n fun i => { i with swap := false }).setErr blk n errSwapRefused).heldActs blk n := by
  unfold Dev.swapCheckEnd
  rw [if_neg (by simp [hc]), hr]

/-- The device after a swap's check has passed, before the swap is prepared. -/
def swapPassed (d : Dev) (blk n : Nat) : Dev :=
  d.modInst blk n fun i => { i with check := none, refused := false, swapReady := true }

theorem swapPassed_inst : (swapPassed d blk n).inst blk n =
    { d.inst blk n with check := none, refused := false, swapReady := true } := inst_modInst_self _ _ _ _

theorem swapCheckEnd_passes {o : CheckObs} (hc : (d.inst blk n).check = some .swap) (hr : d.checkResult blk n o = none) :
    d.swapCheckEnd blk n o = ((swapPassed d blk n).swapPrepares blk).swapNow blk n := by
  unfold Dev.swapCheckEnd
  rw [if_neg (by simp [hc]), hr]
  rfl

/-- A refused swap changes no generation and sets SWAP_REFUSED. -/
theorem swapRefused_inst {o : CheckObs} {r : Nat × Nat} (hc : (d.inst blk n).check = some .swap)
    (hh : (d.inst blk n).heldDisable = false) (hr : d.checkResult blk n o = some r) :
    (((d.swapCheckEnd blk n o).inst blk n).err.getLsbD 6 = true ∧ (d.swapCheckEnd blk n o).shadow = d.shadow) ∧
      (d.swapCheckEnd blk n o).inst blk n = { d.inst blk n with
        check := none, refused := true, refReason := r.1, refOff := r.2, swap := false
        err := ((d.swapCheckEnd blk n o).inst blk n).err } := by
  obtain ⟨rg, he, -⟩ := refuse_regs (d := d) (blk := blk) (n := n) r
  have hi := setErr_inst (((d.refuse blk n r).modInst blk n fun i => { i with swap := false })) blk n errSwapRefused
  rw [inst_modInst_self, he, inst_setInst_self] at hi
  rw [swapCheckEnd_refused hc hr, he, heldActs_idle]
  · exact ⟨⟨setErr_bit _ _ _ _ (by decide), setErr_shadow _ _ _ _⟩, hi⟩
  · rw [hi]
    exact hh

/-! ### The gate lists (R252, R366, R367) -/

theorem gateArm_insts : d.gateArm.insts = d.insts := by
  unfold Dev.gateArm
  split
  · rfl
  · dsimp only
    split
    · exact post_insts _ _ _ _ _
    · rfl

theorem gateArm_off (h : d.fget Reg.SCH_CFG.GATES_EN = 0) : d.gateArm = d := if_pos h

/-- SCHED's gate enable. -/
def gatesReg (a : Nat) : Bool := decide (a = regAddr 0x0F 0 Reg.SCH_CFG.GATES_EN.off)

theorem gateArm_gatesEn : d.gateArm.fget Reg.SCH_CFG.GATES_EN = d.fget Reg.SCH_CFG.GATES_EN := by
  refine KeepsRegs.fget (K := gatesReg) ?_ (by decide)
  unfold Dev.gateArm
  split
  · exact .refl d
  · dsimp only
    split
    · exact (KeepsRegs.trans (.of_regs rfl) (.fset _ _ (by decide))).trans
        ((KeepsRegs.bump _ _ (by decide)).trans (.post (by decide) _ _ _ _ _))
    · exact KeepsRegs.trans (.of_regs rfl) (.fset _ _ (by decide))

theorem applyInits_insts : d.applyInits.insts = d.insts := by
  unfold Dev.applyInits
  split <;> rfl

theorem applyInits_regs : d.applyInits.regs = d.regs := by
  unfold Dev.applyInits
  split <;> rfl

theorem applyInits_gatesEn : d.applyInits.fget Reg.SCH_CFG.GATES_EN = d.fget Reg.SCH_CFG.GATES_EN := by
  rw [Dev.fget, Dev.reg, applyInits_regs]
  rfl

theorem swapPrepares_pitch : d.swapPrepares 0x13 = d.applyInits := rfl

theorem swapPrepares_sched : d.swapPrepares 0x0F = d.gateArm := rfl

theorem swapPrepares_other (h1 : blk ≠ 0x13) (h2 : blk ≠ 0x16) (h3 : blk ≠ 0x0F) : d.swapPrepares blk = d := by
  unfold Dev.swapPrepares
  split
  · exact absurd rfl h1
  · exact absurd rfl h2
  · exact absurd rfl h3
  · rfl

/-- Preparing a swap, of any block but MEDIA, leaves the headers, and says the same of a swap at once. -/
theorem swapPrepares_keeps (hb : blk ≠ 0x16) :
    (d.swapPrepares blk).insts = d.insts ∧ (d.swapPrepares blk).swapsAtOnce blk = d.swapsAtOnce blk := by
  by_cases h1 : blk = 0x13
  · subst h1
    rw [swapPrepares_pitch]
    exact ⟨applyInits_insts, swapsAtOnce_congr applyInits_gatesEn⟩
  · by_cases h3 : blk = 0x0F
    · subst h3
      rw [swapPrepares_sched]
      exact ⟨gateArm_insts, swapsAtOnce_congr gateArm_gatesEn⟩
    · rw [swapPrepares_other h1 hb h3]
      exact ⟨rfl, rfl⟩

/-- MEDIA's accepting of a table once its start is known (R252): `Dev.acceptGates` for any start, so that what it does can be
said without computing one. -/
def acceptAt (d : Dev) (t : GateTab) (first : Bool) (start : Nat × Bool) : Dev :=
  let (s, late) := start
  let d := d.fset Reg.MDA_GL_LATE.LATE_START (b2n late)
  let d := if late then ((d.bump Reg.MDA_GL_LATE.COUNT).setErr 0x16 0 10).post 0x16 0 0x70 s else d
  if first then ({ d with media := { d.media with gates := t } }).fset Reg.MDA_GL_START.NS s
  else { d with media := { d.media with nextGates := some (t, s) } }

theorem acceptGates_eq (t : GateTab) (first : Bool) : d.acceptGates t first =
    acceptAt d t first (mediaGateStart (d.reg 0x16 0 Reg.MDA_GL_BASE.NS.off).toNat t.cycle d.now) := rfl

/-- MEDIA's next list is set, and its header is as it was but for its error bits. -/
def WaitsForList (d e : Dev) : Prop :=
  e.media.nextGates.isSome = true ∧ e.inst 0x16 0 = { d.inst 0x16 0 with err := (e.inst 0x16 0).err }

/-- A table accepted behind the one in effect waits for its start; a late one is an error. -/
theorem acceptAt_waits (t : GateTab) (start : Nat × Bool) : WaitsForList d (acceptAt d t false start) := by
  obtain ⟨at_, late⟩ := start
  cases late with
  | false => exact ⟨rfl, rfl⟩
  | true =>
    have hp (c : Dev) (x : Nat) (m : Media) : Dev.inst { c.post 0x16 0 0x70 x with media := m } 0x16 0 = c.inst 0x16 0 :=
      post_inst _ _ _ _ _ _ _
    refine ⟨rfl, ?_⟩
    rw [acceptAt]
    simp only [if_true, Bool.false_eq_true, if_false, hp]
    exact setErr_inst _ _ _ _

theorem acceptGates_waits (t : GateTab) : WaitsForList d (d.acceptGates t false) := by
  rw [acceptGates_eq]
  exact acceptAt_waits t _

theorem WaitsForList.setReg {e : Dev} (h : WaitsForList d e) (b k o : Nat) (v : Word) : WaitsForList d (e.setReg b k o v) := h

theorem swapPrepares_media_eq : ∃ (e : Dev) (t : GateTab) (v : Word),
    d.swapPrepares 0x16 = (e.acceptGates t false).setReg 0x16 0 Reg.MDA_GL_BASE.NS.off v ∧ e.insts = d.insts :=
  ⟨_, _, _, rfl, rfl⟩

theorem swapPrepares_media : WaitsForList d (d.swapPrepares 0x16) := by
  obtain ⟨e, t, v, hs, he⟩ := swapPrepares_media_eq (d := d)
  have hi : e.inst 0x16 0 = d.inst 0x16 0 := by rw [Dev.inst, he, Dev.inst]
  have hw : WaitsForList d (e.acceptGates t false) := by
    rw [WaitsForList, ← hi]
    exact acceptGates_waits t
  rw [hs]
  exact hw.setReg _ _ _ _

/-- A swap that is at once and fits is taken where its check passes. -/
theorem swapPassed_takes {o : CheckObs} (hc : (d.inst blk n).check = some .swap) (hr : d.checkResult blk n o = none)
    (ha : d.swapsAtOnce blk = true) (hf : (d.inst blk n).swapFits = true) (hh : (d.inst blk n).heldDisable = false) :
    (d.swapCheckEnd blk n o).inst blk n =
      takenHeader { d.inst blk n with check := none, refused := false, swapReady := true } true := by
  obtain ⟨-, -, h13, h16, hg⟩ := swapsAtOnce_iff.1 ha
  have hp : (swapPassed d blk n).swapPrepares blk = swapPassed d blk n := by
    by_cases h : blk = 0x0F
    · subst h
      exact gateArm_off (hg.resolve_left fun h => h rfl)
    · exact swapPrepares_other h13 h16 h
  have hi := swapPassed_inst (d := d) (blk := blk) (n := n)
  rw [swapCheckEnd_passes hc hr, hp, swapNow_inst, hi]
  · rw [hi]
  · exact ha
  · rw [hi]
    exact hf
  · rw [hi]
    exact hh

/-- Any other swap, of any block but MEDIA, waits for its swap point. -/
theorem swapPassed_waits {o : CheckObs} (hc : (d.inst blk n).check = some .swap) (hr : d.checkResult blk n o = none)
    (hb : blk ≠ 0x16) (h : d.swapsAtOnce blk = false ∨ (d.inst blk n).swapFits = false) :
    (d.swapCheckEnd blk n o).inst blk n = { d.inst blk n with check := none, refused := false, swapReady := true } := by
  obtain ⟨hk, ha⟩ := swapPrepares_keeps (d := swapPassed d blk n) hb
  have hi : ((swapPassed d blk n).swapPrepares blk).inst blk n = (swapPassed d blk n).inst blk n := by
    rw [Dev.inst, hk, Dev.inst]
  rw [swapPassed_inst] at hi
  rw [swapCheckEnd_passes hc hr, swapNow_idle]
  · exact hi
  · right
    rw [ha, hi]
    exact h

/-- MEDIA's swap waits for its list's start. -/
theorem swapPassed_media {o : CheckObs} (hc : (d.inst 0x16 0).check = some .swap) (hr : d.checkResult 0x16 0 o = none) :
    WaitsForList (swapPassed d 0x16 0) (d.swapCheckEnd 0x16 0 o) := by
  rw [swapCheckEnd_passes hc hr, swapNow_idle (.inr (.inl (by simp [Dev.swapsAtOnce])))]
  exact swapPrepares_media

/-! ### The swap point (R64) -/

theorem boundarySwap_inst {at_ : Nat} (hr : (d.inst blk 0).swapReady = true) (hf : (d.inst blk 0).swapFits = true)
    (hh : (d.inst blk 0).heldDisable = false) (ht : (d.inst blk 0).swapAt < at_) :
    (d.boundarySwap blk at_).inst blk 0 = takenHeader (d.inst blk 0) true := by
  unfold Dev.boundarySwap
  rw [if_pos (by simp [hr, hf, ht])]
  exact heldActs_inst (takeGen_inst true) hh

theorem activateImage_insts (g : Nat) : (d.activateImage g).insts = d.insts := by
  unfold Dev.activateImage
  split <;> rfl

/-- PITCH takes its staged generation and resumes. -/
theorem pitchSwap_takes {p : Nat} (hp : d.pitch.pause = some p) :
    d.pitchSwap.inst 0x13 0 = takenHeader (d.inst 0x13 0) true ∧ d.pitchSwap.pitch.pause = none := by
  unfold Dev.pitchSwap
  rw [hp]
  dsimp only
  constructor
  · rw [((LeavesHeaders.refl _).raiseAens _ _ _ _).inst, ← takeGen_inst]
    exact congrArg (fun t => (Tab.look t (instKey 0x13 0)).getD (Inst.rst 0x13)) (activateImage_insts _)
  · exact ((LeavesHeaders.refl _).raiseAens _ _ _ _).pause

/-- A gate list of MEDIA's at its start is in effect, with nothing left to drain. -/
theorem mediaListStart_takes {t : GateTab} {at_ : Nat} (hr : (d.inst 0x16 0).swapReady = true)
    (ht : d.media.nextGates = some (t, at_)) (hn : at_ ≤ d.now) :
    d.mediaListStart.inst 0x16 0 = takenHeader (d.inst 0x16 0) false ∧ d.mediaListStart.media.gates = t ∧
      d.mediaListStart.media.nextGates = none := by
  unfold Dev.mediaListStart
  rw [ht]
  dsimp only
  rw [if_neg (by omega), if_pos (by exact hr)]
  refine ⟨takeGen_inst _, ?_⟩
  rw [Dev.takeGen, activateShadow_eq]
  exact ⟨rfl, rfl⟩

/-- So is one of SCHED's. -/
theorem gateListStart_takes {t : NetGates} {at_ : Nat} (hr : (d.inst 0x0F 0).swapReady = true)
    (ht : d.sch.next = some (t, at_)) (hn : at_ ≤ d.now) :
    d.gateListStart.inst 0x0F 0 = takenHeader (d.inst 0x0F 0) false ∧ d.gateListStart.sch.gates = t ∧
      d.gateListStart.sch.next = none := by
  unfold Dev.gateListStart
  rw [ht]
  dsimp only
  rw [if_neg (by omega), if_pos (by exact hr)]
  refine ⟨takeGen_inst _, ?_⟩
  rw [Dev.takeGen, activateShadow_eq]
  exact ⟨rfl, rfl⟩

theorem swapTake_boundary (hb : blk = 0x11 ∨ blk = 0x12) (hr : (d.inst blk 0).swapReady = true)
    (hc : d.now % max 1 d.cycleNs = 0) : d.swapTake blk 0 = d.boundarySwap blk d.now := by
  unfold Dev.swapTake
  rw [if_neg (by simp [hr]), if_pos hb, if_pos hc]

theorem swapTake_pitch {p : Nat} (hr : (d.inst 0x13 0).swapReady = true) (hp : d.pitch.pause = some p)
    (hc : d.now % max 1 d.cycleNs = 0) (hl : cycLt p d.cycle = true) :
    d.swapTake 0x13 0 = d.pitchSwap.heldActs 0x13 0 := by
  unfold Dev.swapTake
  rw [if_neg (by simp [hr]), if_neg (by decide), if_pos rfl, hp]
  exact if_pos ⟨hc, hl⟩

theorem swapTake_atOnce (hr : (d.inst blk n).swapReady = true) (ha : d.swapsAtOnce blk = true) :
    d.swapTake blk n = d.swapNow blk n := by
  obtain ⟨h11, h12, h13, -, -⟩ := swapsAtOnce_iff.1 ha
  unfold Dev.swapTake
  rw [if_neg (by simp [hr]), if_neg (by simp [h11, h12]), if_neg h13, if_pos ha]

theorem swapTake_media (hr : (d.inst 0x16 0).swapReady = true) :
    d.swapTake 0x16 0 = d.mediaListStart.heldActs 0x16 0 := by
  unfold Dev.swapTake
  rw [if_neg (by simp [hr]), if_neg (by decide), if_neg (by decide), if_neg (by simp [Dev.swapsAtOnce]), if_pos rfl]

theorem swapTake_sched (hr : (d.inst 0x0F 0).swapReady = true) (ha : d.swapsAtOnce 0x0F = false) :
    d.swapTake 0x0F 0 = d.gateListStart.heldActs 0x0F 0 := by
  unfold Dev.swapTake
  rw [if_neg (by simp [hr]), if_neg (by decide), if_neg (by decide), if_neg (by simp [ha]), if_neg (by decide)]

/-! ### A discard (R66) -/

/-- The shadow's bits of one register become the values in effect. -/
def pullShadow (d : Dev) (p : Nat × Word) : Dev :=
  { d with shadow := d.shadow.set p.1 ((d.shadow.get p.1 &&& ~~~p.2) ||| (d.regs.get p.1 &&& p.2)) }

/-- The shadow agrees with the values in effect on the bits `p.2` of the register at `p.1`. -/
def ShadowAgrees (d : Dev) (p : Nat × Word) : Prop := (d.shadow.get p.1 ^^^ d.regs.get p.1) &&& p.2 = 0

theorem discardShadow_foldl : d.discardShadow blk n = (stRegs blk n).foldl pullShadow d := rfl

/-- Bits of one register that are pulled differ no more, and the others as before. -/
theorem pulled_xor (x r m : Word) : (x &&& ~~~m ||| r &&& m) ^^^ r = (x ^^^ r) &&& ~~~m := by
  ext i hi
  simp only [BitVec.getElem_xor, BitVec.getElem_or, BitVec.getElem_and, BitVec.getElem_not]
  cases x[i] <;> cases r[i] <;> cases m[i] <;> rfl

theorem pullShadow_agrees (p : Nat × Word) : ShadowAgrees (pullShadow d p) p := by
  rw [ShadowAgrees, pullShadow, get_set_self, pulled_xor, BitVec.and_assoc, BitVec.not_and_self]
  exact BitVec.and_zero

/-- A register that agrees keeps agreeing. -/
theorem ShadowAgrees.pullShadow {q : Nat × Word} (h : ShadowAgrees d q) (p : Nat × Word) :
    ShadowAgrees (pullShadow d p) q := by
  unfold ShadowAgrees Proofs.pullShadow at *
  by_cases hq : q.1 = p.1
  · rw [hq] at h ⊢
    rw [get_set_self, pulled_xor, BitVec.and_assoc, BitVec.and_comm (~~~p.2), ← BitVec.and_assoc, h]
    exact BitVec.zero_and
  · rw [get_set_other _ _ _ _ hq]
    exact h

theorem ShadowAgrees.foldl {q : Nat × Word} (h : ShadowAgrees d q) (l : List (Nat × Word)) :
    ShadowAgrees (l.foldl Proofs.pullShadow d) q :=
  List.foldlRecOn (motive := fun e => ShadowAgrees e q) l _ h fun _ he p _ => he.pullShadow p

theorem foldl_pullShadow_agrees {q : Nat × Word} {l : List (Nat × Word)} (h : q ∈ l) :
    ShadowAgrees (l.foldl pullShadow d) q := by
  obtain ⟨l₁, l₂, rfl⟩ := List.append_of_mem h
  rw [List.foldl_append, List.foldl_cons]
  exact (pullShadow_agrees q).foldl l₂

theorem discardShadow_eq : d.discardShadow blk n = { d with shadow := (d.discardShadow blk n).shadow } := by
  rw [discardShadow_foldl]
  exact List.foldlRecOn (motive := fun e : Dev => e = { d with shadow := e.shadow }) _ pullShadow rfl fun e he p _ => by
    rw [he]
    rfl

theorem mem_stRegs {r : Row} {i : Nat} (hr : r ∈ rowsOf blk) (hn : r.only0 = false ∨ n = 0)
    (hm : r.mask (fun a => decide (a = .st)) ≠ 0) (hi : i < r.cnt) :
    (regAddr blk n (r.off + 8 * i), r.mask fun a => decide (a = .st)) ∈ stRegs blk n := by
  refine List.mem_flatMap.2 ⟨r, hr, ?_⟩
  dsimp only
  rw [if_neg (by rintro (⟨h, h'⟩ | h); exacts [hn.elim (by simp [h]) h', hm h])]
  exact List.mem_map.2 ⟨i, List.mem_range.2 hi, rfl⟩

/-- A discard leaves no staged value that differs from the one in effect. -/
theorem discardShadow_stagedValid : (d.discardShadow blk n).stagedValid blk n = false := by
  unfold Dev.stagedValid
  rw [List.any_eq_false]
  intro r hr h
  simp only [Bool.and_eq_true, Bool.or_eq_true, Bool.not_eq_true', decide_eq_true_eq, List.any_eq_true,
    List.mem_range] at h
  obtain ⟨⟨hn, hm⟩, i, hi, hx⟩ := h
  have ha := foldl_pullShadow_agrees (d := d) (mem_stRegs hr hn hm hi)
  rw [← discardShadow_foldl] at ha
  exact hx ha

theorem genDiscard_swap (h : (d.inst blk n).swap = true) : d.genDiscard blk n = d := if_pos h

theorem genDiscard_other (h : (d.inst blk n).swap = false) (hb : blk = 0x0B → n ≠ 0) :
    d.genDiscard blk n = d.discardShadow blk n := by
  unfold Dev.genDiscard
  rw [if_neg (by simp [h])]
  exact if_neg fun hx => hb hx.1 hx.2

theorem genDiscard_class (h : (d.inst 0x0B 0).swap = false) :
    d.genDiscard 0x0B 0 = (d.discardShadow 0x0B 0).clsDiscard := if_neg (by simp [h])

/-! ### A release (R24) -/

/-- What PITCH, PARSE and CLASS hold of a generation goes with it. -/
def dropGen (d : Dev) (blk n g : Nat) : Dev :=
  if blk = 0x13 then d.releaseImage g
  else if blk = 0x0A ∧ n = 0 then { d with cls := { d.cls with graphs := Tab.del d.cls.graphs g } }
  else if blk = 0x0B ∧ n = 0 then d.clsReap else d

theorem dropGen_keeps (g : Nat) : (dropGen d blk n g).insts = d.insts ∧ (dropGen d blk n g).shadow = d.shadow := by
  unfold dropGen
  split
  · exact ⟨rfl, rfl⟩
  · split
    · exact ⟨rfl, rfl⟩
    · split <;> exact ⟨rfl, rfl⟩

theorem dropGen_other (g : Nat) (hb : blk ∉ [0x0A, 0x0B, 0x13]) : dropGen d blk n g = d := by
  simp only [List.mem_cons, List.not_mem_nil, or_false, not_or] at hb
  obtain ⟨h0A, h0B, h13⟩ := hb
  rw [dropGen, if_neg h13, if_neg fun h => h0A h.1, if_neg fun h => h0B h.1]

theorem genRelease_none {g : Nat} (h : g ∉ (d.inst blk n).draining ∨ d.genUsed blk g = true) : d.genRelease blk n g = d :=
  if_pos (by simpa using h)

/-- The last reference to a generation has gone, and no swap waits for it. -/
theorem genRelease_drops {g : Nat} (hg : g ∈ (d.inst blk n).draining) (hu : d.genUsed blk g = false)
    (hr : (d.inst blk n).swapReady = false) : d.genRelease blk n g =
      dropGen (d.setInst blk n { d.inst blk n with draining := (d.inst blk n).draining.erase g }) blk n g := by
  have he : d.genRelease blk n g =
      (dropGen (d.setInst blk n { d.inst blk n with draining := (d.inst blk n).draining.erase g }) blk n g).swapNow blk n :=
    if_neg (by simp [hg, hu])
  rw [he, swapNow_idle]
  left
  rw [Dev.inst, (dropGen_keeps g).1, ← Dev.inst, inst_setInst_self]
  exact hr

/-- Settles O3: the request, the check, the swap points, the discard and the release, each by the rule of its operation. -/
theorem generationSwap : Obligations.GenerationSwap := by
  unfold Obligations.GenerationSwap
  refine ⟨?_, ?_, ?_, ?_, ?_, ?_, ?_, ?_, ?_, ?_, ?_, ?_, ?_, ?_, ?_, ?_, ?_⟩
  · intro s blk n hl hn he hb
    refine runs_of_upd _ s _ _ (exec_genSwapRequest s blk n) hl ?_
    rw [onInst_of_lt hn, swapRequest_starts he hb]
  · exact fun s blk n hl h => gives_of_upd (exec_genSwapRequest s blk n) hl (onInst_same (swapRequest_ignored h))
  · intro s blk n o r hl hn hc hh hr
    refine acts_of_act _ s _ _ (exec_genSwapCheckEnd s blk n o) hl ?_
    obtain ⟨⟨herr, hsh⟩, hi⟩ := swapRefused_inst hc hh hr
    rw [onInst_of_lt hn]
    refine ⟨herr, ?_⟩
    rw [hi]
    exact ⟨rfl, rfl, rfl, rfl, rfl, rfl, hsh⟩
  · intro s blk n o hl hn ha hc hh hf hr
    refine acts_of_act _ s _ _ (exec_genSwapCheckEnd s blk n o) hl ?_
    rw [onInst_of_lt hn, swapPassed_takes hc hr ha hf hh]
    rfl
  · intro s blk n o hl hn h hb hc hr
    refine acts_of_act _ s _ _ (exec_genSwapCheckEnd s blk n o) hl ?_
    rw [onInst_of_lt hn, swapPassed_waits hc hr hb h]
  · intro s o hl hc hr
    refine acts_of_act _ s _ _ (exec_genSwapCheckEnd s 0x16 0 o) hl ?_
    obtain ⟨hg, hi⟩ := swapPassed_media hc hr
    rw [swapPassed_inst] at hi
    rw [onInst_of_lt (by decide), hi]
    exact ⟨rfl, rfl, hg, rfl, rfl⟩
  · exact fun s blk n o hl h =>
      settles_of_act (exec_genSwapCheckEnd s blk n o) hl (onInst_same (swapCheckEnd_other h))
  · intro s blk hl hb hr hf hh hc ht
    refine acts_of_act _ s _ _ (exec_genSwapTake s blk 0) hl ?_
    have hb' : blk = 0x11 ∨ blk = 0x12 := by simpa using hb
    have hn : 0 < instCount blk := by rcases hb' with rfl | rfl <;> decide
    rw [onInst_of_lt hn, swapTake_boundary hb' hr hc, boundarySwap_inst hr hf hh ht]
    rfl
  · intro s p hl hr hh hp hc hlt
    refine acts_of_act _ s _ _ (exec_genSwapTake s 0x13 0) hl ?_
    have ht := pitchSwap_takes hp
    rw [onInst_of_lt (by decide), swapTake_pitch hr hp hc hlt, heldActs_idle _ _ _ (by rw [ht.1]; exact hh)]
    exact ht
  · intro s t at_ hl hr hh ht hn
    refine acts_of_act _ s _ _ (exec_genSwapTake s 0x16 0) hl ?_
    have hm := mediaListStart_takes hr ht hn
    rw [onInst_of_lt (by decide), swapTake_media hr, heldActs_idle _ _ _ (by rw [hm.1]; exact hh)]
    exact hm
  · intro s t at_ hl hr ha hh ht hn
    refine acts_of_act _ s _ _ (exec_genSwapTake s 0x0F 0) hl ?_
    have hg := gateListStart_takes hr ht hn
    rw [onInst_of_lt (by decide), swapTake_sched hr ha, heldActs_idle _ _ _ (by rw [hg.1]; exact hh)]
    exact hg
  · intro s blk n hl hn hr ha hf hh
    refine acts_of_act _ s _ _ (exec_genSwapTake s blk n) hl ?_
    rw [onInst_of_lt hn, swapTake_atOnce hr ha, swapNow_inst hr ha hf hh]
    rfl
  · intro s blk n hl hn hw hb
    refine runs_of_upd _ s _ _ (exec_genDiscard s blk n) hl ?_
    rw [onInst_of_lt hn, genDiscard_other hw hb]
    exact ⟨discardShadow_stagedValid, discardShadow_eq⟩
  · intro s hl hw
    refine gives_of_upd (exec_genDiscard s 0x0B 0) hl ?_
    rw [onInst_of_lt (by decide), genDiscard_class hw]
  · exact fun s blk n hl hw => gives_of_upd (exec_genDiscard s blk n) hl (onInst_same (genDiscard_swap hw))
  · intro s blk n g hl hn hg hu hr
    refine acts_of_act _ s _ _ (exec_genRelease s blk n g) hl ?_
    obtain ⟨hi, hs⟩ := dropGen_keeps (blk := blk) (n := n)
      (d := s.dev.setInst blk n { s.dev.inst blk n with draining := (s.dev.inst blk n).draining.erase g }) g
    rw [onInst_of_lt hn, genRelease_drops hg hu hr]
    refine ⟨?_, fun b k hk => ?_, hs, fun hb => ?_⟩
    · rw [Dev.inst, hi, ← Dev.inst, inst_setInst_self]
    · rw [Dev.inst, hi, ← Dev.inst, inst_setInst_other _ _ _ _ _ _ hk]
    · rw [dropGen_other _ hb]
      rfl
  · exact fun s blk n g hl h => settles_of_act (exec_genRelease s blk n g) hl (onInst_same (genRelease_none h))

end Sys2Proof.Proofs
end

section
/-! PITCH's queue, runs and program images (R134, R448, R453). -/

namespace Sys2Proof.Proofs

open Sys2Proof.Machine Sys2Proof.Laws

-- One proof after another: proofs that wait for a slow one would each hold a thread.
set_option Elab.async false

/-- A command that is one change of the device runs to what that change leaves, and to nothing else. -/
theorem of_runs {c : Instr} {s : State} {f : Dev → Dev} {Q : Dev → Prop} (he : exec c s = s.upd f) (h : s.live = true)
    (hr : Runs c s Q) : Q (f s.dev) := by
  obtain ⟨d, hd, hq⟩ := hr
  rw [he, upd_live _ _ h] at hd
  injection hd with hd
  injection hd with _ _ hd
  rwa [hd]

/-- A unit in PS1 with WARDEN and PITCH enabled, no save area, and CAMP's SAVE_MISSING set from before: PITCH's domains are
asked for D4, and are held at D3 when the unit next looks at their targets. -/
def heldOnWake : State :=
  { dev := (((({} : Dev).setInst 0x13 0 { enabled := true }).setInst 2 0 { enabled := true }).setInst 0 0
      { enabled := true, err := 0x100 }).fset Reg.CAMP_PS.CUR 1 }

/-- The GO wakes the unit (R453), and each PITCH domain then held at D3 has its event 0x0163 in the ring (R70, R448). -/
theorem mgmtPost_heldOnWake : (heldOnWake.dev.mgmtPost 32).mem.wsram ≠ heldOnWake.dev.mem.wsram := by decide +kernel

/-- Refutes O14: MGMT_POST_GO is a wake source, and a wake can post events 0x0163, whose entries are bytes of Warden's region
of SRAM; the statement's clause on a post of a good length has every memory unchanged. -/
theorem not_pitchEvents : ¬ Obligations.PitchEvents := by
  intro h
  obtain ⟨-, -, -, -, -, -, -, -, -, hpost, -⟩ := h
  obtain ⟨-, -, -, -, -, -, -, hmem⟩ := of_runs (exec_mgmtPostGo _ _) (by decide) <|
    hpost heldOnWake 32 0 (by decide) (by decide +kernel) (by decide +kernel) (by decide) (by decide) (by decide)
      (by decide +kernel) (by decide) (by decide +kernel) (by decide +kernel)
  exact mgmtPost_heldOnWake (congrArg Mems.wsram hmem)

end Sys2Proof.Proofs
end

section
/-! SUPPORT. Work that leaves HOSTQ and PITCH as they are: what transports, counters, power and the holds of a command do
(R187, R323 to R355, R447 to R453, R464). -/

namespace Sys2Proof.Proofs

open Sys2Proof.Machine Sys2Proof.Laws

-- One proof after another: proofs that wait for a slow one would each hold a thread.
set_option Elab.async false

/-- HOSTQ_CFG, HOSTQ_OCC, HOSTQ_STAT and LEDGER_OVERRUN. -/
def hostReg (a : Nat) : Bool := [0x1000200, 0x1000248, 0x1000250, 0x1100238].contains a

theorem hostReg_ring : ∀ a ∈ ringRegs, hostReg a = false := by decide

/-- `e` is `d` after work that leaves HOSTQ, PITCH and those registers as they are. -/
structure LeavesHost (d e : Dev) : Prop where
  hostq : e.hostq = d.hostq
  pitch : e.pitch = d.pitch
  regs : KeepsRegs hostReg d e

namespace LeavesHost

variable {d e f : Dev}

theorem refl (d : Dev) : LeavesHost d d := ⟨rfl, rfl, .refl d⟩

theorem trans (h : LeavesHost d e) (h' : LeavesHost e f) : LeavesHost d f :=
  ⟨h'.hostq.trans h.hostq, h'.pitch.trans h.pitch, h.regs.trans h'.regs⟩

theorem fget (h : LeavesHost d e) {g : FRef} {m : Nat} (hg : hostReg (regAddr g.blk m g.off) = true) :
    e.fget g m = d.fget g m := h.regs.fget hg

/-- A further change of other parts of the device. -/
theorem same (h : LeavesHost d e) (hh : f.hostq = e.hostq := by rfl) (hp : f.pitch = e.pitch := by rfl)
    (hr : f.regs = e.regs := by rfl) : LeavesHost d f := h.trans ⟨hh, hp, .of_regs hr⟩

theorem ite {p : Prop} [Decidable p] (he : LeavesHost d e) (hf : LeavesHost d f) : LeavesHost d (if p then e else f) := by
  split
  · exact he
  · exact hf

theorem foldl {α : Type} {g : Dev → α → Dev} (l : List α) (hg : ∀ c x, x ∈ l → LeavesHost c (g c x))
    (h : LeavesHost d e) : LeavesHost d (l.foldl g e) :=
  h.trans (List.foldlRecOn (motive := LeavesHost e) l g (refl e) fun _ hc x hx => hc.trans (hg _ x hx))

variable (h : LeavesHost d e)
include h

/-! ### Shared operations -/

theorem fset {g : FRef} {n : Nat} (v : Nat) (hg : hostReg (regAddr g.blk n g.off) = false := by decide) :
    LeavesHost d (e.fset g v n) := h.trans ⟨rfl, rfl, .fset _ _ hg⟩

theorem bump {g : FRef} {n : Nat} (k : Nat) (hg : hostReg (regAddr g.blk n g.off) = false := by decide) :
    LeavesHost d (e.bump g k n) := h.fset _ hg

theorem bumpSat {g : FRef} {n : Nat} (k : Nat) (hg : hostReg (regAddr g.blk n g.off) = false := by decide) :
    LeavesHost d (e.bumpSat g k n) := h.fset _ hg

theorem raiseTo {g : FRef} {n : Nat} (v : Nat) (hg : hostReg (regAddr g.blk n g.off) = false := by decide) :
    LeavesHost d (e.raiseTo g v n) := h.fset _ hg

theorem post (b n c x : Nat) : LeavesHost d (e.post b n c x) :=
  h.trans ⟨post_hostq .., post_pitch .., .post hostReg_ring _ _ _ _ _⟩

theorem setErr (b n k : Nat) : LeavesHost d (e.setErr b n k) :=
  h.trans ⟨setErr_hostq .., setErr_pitch .., .setErr hostReg_ring _ _ _ _⟩

/-! ### Power, metrics (R449, R452, R453, R464, R469) -/

theorem retarget (k : Nat) : LeavesHost d (e.retarget k) := by
  unfold Dev.retarget
  exact .ite ((h.same (f := e.setDom _ _)).setErr _ _ _ |>.post _ _ _ _) h.same

theorem retargetAll (ks : List Nat) : LeavesHost d (e.retargetAll ks) :=
  fset (fset (.foldl _ (fun _ k _ => (refl _).retarget k) h) _) _

theorem wake : LeavesHost d e.wake := by
  unfold Dev.wake
  have hw := (h.bump (g := Reg.CAMP_PS.WAKES) (n := 0) 1).fset (g := Reg.CAMP_PS.REQ) (n := 0) 0
  exact .ite h (retargetAll (same (hw.fset (g := Reg.CAMP_PS.MOVING) (n := 0) 1)) _)

theorem requestPs (ps : Nat) : LeavesHost d (e.requestPs ps) := by
  unfold Dev.requestPs
  have hr := h.fset (g := Reg.CAMP_PS.REQ) (n := 0) ps
  exact .ite h.wake (retargetAll (same (ite hr (hr.fset (g := Reg.CAMP_PS.MOVING) (n := 0) 1))) _)

theorem hostPs : LeavesHost d e.hostPs := h.requestPs _

theorem tcount (t i k : Nat) : LeavesHost d (e.tcount t i k) := by
  unfold Dev.tcount
  exact .ite h h.same

theorem sampleAt (src : Nat) (tenant : Option Nat) {i : Nat} (hi : i < 16) : LeavesHost d (e.sampleAt src tenant i) := by
  have hc : ∀ i < 16, hostReg (regAddr 5 0 (Reg.TLY_SAMP_CNT.COUNT.off + 8 * i)) = false := by decide
  unfold Dev.sampleAt
  have hn := h.fset (g := Reg.TLY_SAMP_CNT.COUNT.nth i) (n := 0) (e.fget (Reg.TLY_SAMP_CNT.COUNT.nth i) + 1) (hc i hi)
  exact .ite h (.ite ((hn.fset _ (hc i hi)).post _ _ _ _) hn)

theorem sample (src : Nat) (tenant : Option Nat) : LeavesHost d (e.sample src tenant) := by
  unfold Dev.sample
  exact .ite h (.foldl _ (fun _ i hi => (refl _).sampleAt src tenant (List.mem_range.1 hi)) h)

theorem countDone (ctrl tenant qid op : Nat) (c : Cqe) : LeavesHost d (e.countDone ctrl tenant qid op c) := by
  unfold Dev.countDone
  have hc := h.tcount (if (e.ctrl ctrl).any (·.discovery) then 0 else tenant)
    (if qid = 0 then 2 else if op = 2 then 0 else if op = 1 ∨ op = 8 then 1 else 2) 1
  exact (ite ((ite hc (hc.tcount _ _ _)).tcount _ _ _) (ite hc (hc.tcount _ _ _))).sample _ _

/-! ### Frames out (R349 to R355) -/

theorem showSwt : LeavesHost d e.showSwt := ((h.fset _).fset _).fset _

theorem dropRef (i : Nat) : LeavesHost d (e.dropRef i) := by
  unfold Dev.dropRef
  split
  · exact h
  · exact h.same.showSwt

theorem freeQueued (q : Nat) : LeavesHost d (e.freeQueued q) := by
  unfold Dev.freeQueued
  exact showSwt (post (bump (foldl _ (fun _ i _ => (refl _).dropRef i) (same h)) _) _ _ _ _)

theorem holdExpiry (q : Nat) : LeavesHost d (e.holdExpiry q) := by
  unfold Dev.holdExpiry
  dsimp only
  split
  · exact .ite h (h.same.freeQueued q)
  · exact h

theorem freeDead (f : OutFrame) : LeavesHost d (e.freeDead f).1 := by
  have hf := foldl f.ports (fun _ q _ => (refl _).holdExpiry q) h
  exact .ite hf (hf.bump _)

theorem admitFrame (f : OutFrame) : LeavesHost d (e.admitFrame f) := by
  unfold Dev.admitFrame
  exact showSwt (foldl _ (fun _ _ _ => same (refl _)) (same (ite (bump (g := Reg.SWT_OVFSTAT.OVERFLOWS) (n := 0) h 1) h)))

theorem emit (f : OutFrame) : LeavesHost d (e.emit f) := by
  have hd := h.freeDead f
  unfold Dev.emit
  generalize e.freeDead f = r at hd ⊢
  obtain ⟨c, g⟩ := r
  exact .ite h (.ite (same h) (.ite hd (.ite (admitFrame hd g) (bump (same hd) _))))

theorem sendMsg (n : Nat) (x : Ctx) (m : TxMsg) : LeavesHost d (e.sendMsg n x m) :=
  foldl _ (fun _ _ _ => (refl _).emit _) h

theorem sendPiece (n : Nat) (x : Ctx) (bytes : Nat) : LeavesHost d (e.sendPiece n x bytes) :=
  foldl _ (fun _ _ _ => (refl _).emit _) h

/-! ### Contexts (R323 to R327) -/

theorem setTport (blk : Nat) (t : Tport) : LeavesHost d (e.setTport blk t) := by
  unfold Dev.setTport
  exact .ite h.same h.same

theorem showCtx (blk : Nat) : LeavesHost d (e.showCtx blk) := by
  unfold Dev.showCtx
  exact .ite ((h.fset _).fset _) ((h.fset _).fset _)

theorem modCtx (blk n : Nat) (g : Ctx → Ctx) : LeavesHost d (e.modCtx blk n g) := by
  unfold Dev.modCtx
  dsimp only
  split
  · exact h
  · exact h.same.setTport _ _

theorem placeCtx (blk n : Nat) (x : Ctx) : LeavesHost d (e.placeCtx blk n x) := (h.same.setTport _ _).showCtx blk

theorem makeSlot (blk : Nat) : LeavesHost d (e.makeSlot blk).1 := by
  unfold Dev.makeSlot Dev.evict
  split
  · exact h
  · split
    · dsimp only
      split
      · exact h
      · exact h.same.setTport _ _
    · exact h

theorem needCtx (blk n : Nat) : LeavesHost d (e.needCtx blk n) := by
  have hm := h.makeSlot blk
  unfold Dev.needCtx Dev.fetchCtx
  generalize e.makeSlot blk = r at hm ⊢
  obtain ⟨c, ok⟩ := r
  exact .ite h (.ite h (.ite hm (sample (ite (bump (placeCtx hm _ _ _) _) (bump (placeCtx hm _ _ _) _)) _ _)))

/-! ### Messages and pieces of the stream (R328 to R341) -/

theorem addRecs (l : List TRec) : LeavesHost d { e with trans := { e.trans with recs := e.trans.recs ++ l } } := h.same

omit h in
theorem pumpN (k : Nat) : ∀ {e : Dev}, LeavesHost d e → ∀ n, LeavesHost d (e.pumpN n k) := by
  induction k with
  | zero => exact fun h _ => h
  | succ k ih =>
    intro e h n
    unfold Dev.pumpN
    split
    · exact h
    · dsimp only
      split
      · exact h
      · split
        · exact h
        · refine .ite h (ih (h.trans (.ite ?_ (sendMsg ?_ _ _ _))) n) <;>
            exact addRecs (modCtx (same (refl e)) _ _ _) _

theorem queueMsg (n : Nat) (m : TxMsg) : LeavesHost d (e.queueMsg n m) := pumpN _ h.same n

theorem sessUse (slot : Nat) (send : Bool) (k : Nat) : LeavesHost d (e.sessUse slot send k).1 := by
  have hs (x : SSlot) : LeavesHost d (e.setSslot slot x) := fset (fset h.same _) _
  unfold Dev.sessUse
  dsimp only
  split
  · exact h
  · split
    · exact (hs _).post _ _ _ _
    · exact hs _

theorem setSconn (n : Nat) (x : SConn) : LeavesHost d (e.setSconn n x) := h.same

omit h in
theorem streamPumpN (k : Nat) : ∀ {e : Dev}, LeavesHost d e → ∀ n, LeavesHost d (e.streamPumpN n k) := by
  induction k with
  | zero => exact fun h _ => h
  | succ k ih =>
    intro e h n
    unfold Dev.streamPumpN
    split
    · exact h
    · dsimp only
      split
      · exact h
      · split
        · exact h
        · refine .ite h (.ite h.same (ih (sendPiece (modCtx (setSconn ?_ _ _) _ _ _) _ _ _) n))
          exact ite (bumpSat (sessUse h _ _ _) _) (sessUse h _ _ _)

theorem queuePiece (n : Nat) (k : SKind) (head data : Nat) : LeavesHost d (e.queuePiece n k head data) := by
  unfold Dev.queuePiece
  split
  · exact h
  · exact streamPumpN _ h.same n

theorem sendResponse (ctx tag cmdref : Nat) (inval : Bool) : LeavesHost d (e.sendResponse ctx tag cmdref inval) := by
  unfold Dev.sendResponse
  split
  · exact h
  · exact (h.needCtx _ _).queueMsg _ _
  · exact (h.needCtx _ _).queuePiece _ _ _ _

/-! ### What ROPE, LEDGER and MAP hold for a command (R179, R187, R207) -/

theorem trace (l : Lock) : LeavesHost d (e.trace l) := by
  unfold Dev.trace
  exact .ite h (.ite (post (fset (same h) _) _ _ _ _) (fset (same h) _))

theorem freeLockAt (i : Nat) : LeavesHost d (e.freeLockAt i) :=
  ((h.same (f := { e with rope := _ })).fset _).raiseTo _

theorem finishLocks (key : Nat) : LeavesHost d (e.finishLocks key) :=
  foldl _ (fun _ _ _ => ((refl _).trace _).freeLockAt _) h

theorem showLedger : LeavesHost d e.showLedger := ((h.fset _).fset _).fset _

theorem dropAdm (n : Nat) : LeavesHost d (e.dropAdm n) := by
  unfold Dev.dropAdm
  split
  · exact h
  · refine showLedger (same (e := e.giveBack _) ?_)
    unfold Dev.giveBack
    exact .ite h h.same

theorem dropAdmsOf (tag : Nat) : LeavesHost d (e.dropAdmsOf tag) :=
  showLedger (same (foldl (e.ledger.adms.filter fun x => decide (x.2.tag = tag)) (fun _ p _ => (refl _).dropAdm p.1) h))

theorem discard (p : SUnit → Bool) : LeavesHost d (e.discard p) :=
  fset (fset (fset (same (f := { e with map := _ }) h) _) _) _

end LeavesHost

end Sys2Proof.Proofs
end

section
/-! SUPPORT. HOSTQ's completions: what one leaves in HOSTQ's tables, with a tag and without, and its delivery (R144, R146, R150,
R158, R464). -/

namespace Sys2Proof.Proofs

open Sys2Proof.Machine Sys2Proof.Laws

-- One proof after another: proofs that wait for a slow one would each hold a thread.
set_option Elab.async false

variable (d : Dev)

/-! ### Tables of HOSTQ -/

theorem mem_del_ne {α : Type} {t : Tab α} {a : Nat} {p : Nat × α} (h : p ∈ Tab.del t a) : p.1 ≠ a := by
  induction t with
  | nil => cases h
  | cons q t ih =>
    obtain ⟨k, v⟩ := q
    simp only [Tab.del] at h
    split at h
    · exact ih h
    · next hk =>
      rcases List.mem_cons.1 h with rfl | h
      · exact fun e => hk e.symm
      · exact ih h

theorem modTag_hostq {key : Nat} {t : Tag} (g : Tag → Tag) (h : d.tag key = some t) :
    (d.modTag key g).hostq = { d.hostq with tags := Tab.put d.hostq.tags key (g t) } := by
  unfold Dev.modTag
  rw [h]

theorem modCtrl_hostq {k : Nat} {x : Ctrl} (g : Ctrl → Ctrl) (h : d.ctrl k = some x) :
    (d.modCtrl k g).hostq = { d.hostq with ctrls := Tab.put d.hostq.ctrls k (g x) } := by
  unfold Dev.modCtrl
  rw [h]

theorem showHostq_hostq : d.showHostq.hostq = d.hostq := rfl

/-! ### A completion (R144, R187) -/

/-- What a completion carries: an I/O command's rope number, and its queue's head. -/
def carried (t : Tag) (head : Nat) (c : Cqe) : Cqe :=
  { (if t.qid = 0 then c else { c with dw0 := t.rope % 2 ^ 32, dw1 := t.rope / 2 ^ 32 }) with sqhd := head }

theorem carried_status (t : Tag) (head : Nat) (c : Cqe) : (carried t head c).sct = c.sct ∧ (carried t head c).sc = c.sc ∧
    (carried t head c).dnr = c.dnr ∧ (carried t head c).sqhd = head := by
  unfold carried
  split <;> exact ⟨rfl, rfl, rfl, rfl⟩

/-- HOSTQ once the completion of a tag is handed to the transport. -/
def hostqDone (h : Hostq) (key : Nat) (t : Tag) (c : Cqe) : Hostq :=
  { h with
    flushes := Tab.del h.flushes key
    tags := Tab.put h.tags key { t with state := .completed, pendingCqe := none }
    outbox := h.outbox ++ [{ ctx := t.ctx, cid := t.cid, cqe := c, tenant := t.tenant, deadline := t.deadline }] }

theorem freesHolds {e : Dev} (h : LeavesHost d e) (key : Nat) :
    LeavesHost d (((e.finishLocks key).dropAdmsOf key).discard fun u => u.tag = some key) :=
  ((h.finishLocks key).dropAdmsOf key).discard _

/-- A command of this unit's own completes on its queue. -/
theorem hostDone_hostq {key : Nat} {t : Tag} {q : Queue} (c : Cqe) (ht : d.tag key = some t) (hs : t.state ≠ .completed)
    (hr : t.remote = none) (hq : d.queue t.ctx = some q) :
    (d.hostDone key c).hostq = hostqDone d.hostq key t (carried t q.head c) := by
  unfold Dev.hostDone
  split
  · next h => rw [ht] at h; cases h
  · next t' h =>
    obtain rfl : t = t' := Option.some.inj (ht.symm.trans h)
    rw [if_neg hs]
    extract_lets c₁ c₂ d₁ d₂ d₃ h₃ r₃ d₄ h₄ b₄ d₅ o h₅ d₆
    have hc : c₂ = carried t q.head c := by
      change carried t (((d.queue t.ctx).map (·.head)).getD 0) c = _
      rw [hq]
      rfl
    have hd : d₃.hostq = d.hostq :=
      (freesHolds d (.ite ((LeavesHost.refl d).countDone t.ctrl t.tenant t.qid (sqeOpcode t.sqe) c₂) (.refl d)) key).hostq
    clear_value c₂ d₃
    have ho : d₄.hostq = { d.hostq with flushes := Tab.del d.hostq.flushes key } := by
      rw [← hd]
    have hq₄ : d₄.queue t.ctx = some q := by rw [Dev.queue, ho]; exact hq
    have ht₄ : d₄.tag key = some t := by rw [Dev.tag, ho]; exact ht
    rw [if_neg (by simp [hr]), hq₄, if_neg (by simp), ((LeavesHost.refl d₆).sendResponse _ _ _ _).hostq]
    have h5 : d₅.hostq = _ := modTag_hostq d₄ _ ht₄
    change { d₅.hostq with outbox := d₅.hostq.outbox ++ [o] } = _
    rw [h5, ho, hostqDone, ← hc]

/-! ### Registers that completions leave (R150, R158) -/

theorem modTag_regs (key : Nat) (g : Tag → Tag) : (d.modTag key g).regs = d.regs := by
  unfold Dev.modTag
  split <;> rfl

theorem modCtrl_regs (k : Nat) (g : Ctrl → Ctrl) : (d.modCtrl k g).regs = d.regs := by
  unfold Dev.modCtrl
  split <;> rfl

section
variable {d} {K : Nat → Bool} {e f : Dev} (h : KeepsRegs K d e)
include h

theorem KeepsRegs.withHostq (x : Hostq) : KeepsRegs K d { e with hostq := x } := h

theorem KeepsRegs.withHostqRope (x : Hostq) (y : Rope) : KeepsRegs K d { e with hostq := x, rope := y } := h

theorem KeepsRegs.withHostqBelay (x : Hostq) (y : Belay) : KeepsRegs K d { e with hostq := x, belay := y } := h

theorem KeepsRegs.modTag (key : Nat) (g : Tag → Tag) : KeepsRegs K d (e.modTag key g) :=
  h.trans (.of_regs (modTag_regs e key g))

theorem KeepsRegs.modCtrl (k : Nat) (g : Ctrl → Ctrl) : KeepsRegs K d (e.modCtrl k g) :=
  h.trans (.of_regs (modCtrl_regs e k g))

theorem KeepsRegs.ite {p : Prop} [Decidable p] (h' : KeepsRegs K d f) : KeepsRegs K d (if p then e else f) := by
  split
  · exact h
  · exact h'

end

theorem KeepsRegs.sendResponse {e : Dev} (h : KeepsRegs hostReg d e) (ctx tag cmdref : Nat) (inval : Bool) :
    KeepsRegs hostReg d (e.sendResponse ctx tag cmdref inval) := h.trans ((LeavesHost.refl e).sendResponse _ _ _ _).regs

/-- A completion leaves them, whatever becomes of it. -/
theorem hostDone_regs (key : Nat) (c : Cqe) : KeepsRegs hostReg d (d.hostDone key c) := by
  unfold Dev.hostDone
  split
  · exact .refl d
  · have hd (e : Dev) (he : LeavesHost d e) := (freesHolds d he key).regs
    refine .ite (.refl d) (.ite (.withHostqBelay (.withHostqRope (hd _ ?_) _ _) _ _)
      (.ite (.withHostq (.withHostqRope (hd _ ?_) _ _) _)
        (.sendResponse _ (.withHostq (.modTag (.withHostqRope (hd _ ?_) _ _) _ _) _) _ _ _ _))) <;>
      exact .ite ((LeavesHost.refl d).countDone _ _ _ _ _) (.refl d)

theorem serveEvents_regs (k : Nat) : KeepsRegs hostReg d (d.serveEvents k) := by
  unfold Dev.serveEvents
  split
  · exact .refl d
  · split
    · exact (KeepsRegs.of_regs (modCtrl_regs _ _ _)).trans (hostDone_regs _ _ _)
    · exact .refl d

theorem raiseAens_regs (p : Ctrl → Bool) (typ info page : Nat) : KeepsRegs hostReg d (d.raiseAens p typ info page) :=
  List.foldlRecOn (motive := KeepsRegs hostReg d) _ _ (.refl d) fun _ he _ _ =>
    (he.trans (.of_regs (modCtrl_regs _ _ _))).trans (serveEvents_regs _ _)

/-! ### A capsule answered without a tag of its own (R136, R144) -/

theorem answerCapsule_leaves (q : Queue) (ctx cid tenant op : Nat) (c : Cqe) :
    (d.answerCapsule q ctx cid tenant op c).hostq = { d.hostq with outbox := d.hostq.outbox ++
      [{ ctx := ctx, cid := cid, cqe := { c with sqhd := q.head }, ofTag := false, tenant := tenant }] } := by
  have hc := ((LeavesHost.refl d).countDone q.ctrl tenant q.qid op c).hostq
  unfold Dev.answerCapsule
  dsimp only
  rw [((LeavesHost.refl _).sendResponse _ _ _ _).hostq, hc]

/-! ### Delivery (R146, R175) -/

/-- The device once a delivered completion is out of the outbox, with its tag where it owns one. -/
def takenOut (d : Dev) (ctx cid : Nat) (o : Done) : Dev :=
  let key := tagKey ctx cid
  let e := { d with hostq := { d.hostq with
    outbox := d.hostq.outbox.eraseP fun x => x.ctx = ctx && x.cid = cid
    tags := if o.ofTag then Tab.del d.hostq.tags key else d.hostq.tags } }
  if o.ofTag then e.dropPlain key else e

/-- The overrun of a late one is counted. -/
def overrunCounted (d : Dev) (o : Done) : Dev :=
  ((d.tcount o.tenant 11 1).bump Reg.LEDGER_OVERRUN.COUNT).sample 0x0D (some o.tenant)

variable {d} {ctx cid left : Nat} {o : Done}

theorem delivered_absent (h : d.hostq.outbox.find? (fun o => o.ctx = ctx && o.cid = cid) = none) :
    d.delivered ctx cid left = d := by
  unfold Dev.delivered
  rw [h]

section
variable (ho : d.hostq.outbox.find? (fun o => o.ctx = ctx && o.cid = cid) = some o)
include ho

theorem delivered_held (ht : o.ofTag = true) (hh : d.responseHeld ctx (tagKey ctx cid) = true) :
    d.delivered ctx cid left = d := by
  unfold Dev.delivered
  rw [ho]
  exact if_pos (by simp [ht, hh])

theorem delivered_inTime (hh : o.ofTag = false ∨ d.responseHeld ctx (tagKey ctx cid) = false)
    (hl : o.deadline = 0 ∨ left ≤ o.deadline) : d.delivered ctx cid left = takenOut d ctx cid o := by
  unfold Dev.delivered
  rw [ho]
  exact (if_neg (by rcases hh with h | h <;> simp [h])).trans (if_pos hl)

theorem delivered_late (hh : o.ofTag = false ∨ d.responseHeld ctx (tagKey ctx cid) = false)
    (hd : 0 < o.deadline) (hl : o.deadline < left) : d.delivered ctx cid left =
      (let e := overrunCounted (takenOut d ctx cid o) o
       if (e.tcntOf o.tenant 11).toNat % 1024 = 0 then e.raiseAens (fun c => c.tenant = o.tenant && !c.discovery) 7 0xC1 0xC0
       else e) := by
  unfold Dev.delivered
  rw [ho]
  exact (if_neg (by rcases hh with h | h <;> simp [h])).trans (if_neg (by omega))

end

theorem takenOut_regs : (takenOut d ctx cid o).regs = d.regs := by
  unfold takenOut
  dsimp only
  split <;> rfl

theorem takenOut_tag (ht : o.ofTag = true) : takenOut d ctx cid o =
    { d with
      hostq := { d.hostq with
        outbox := d.hostq.outbox.eraseP fun x => x.ctx = ctx && x.cid = cid
        tags := Tab.del d.hostq.tags (tagKey ctx cid) }
      cipher := { d.cipher with plain := d.cipher.plain.filter fun p => decide (p.tag ≠ tagKey ctx cid) } } := by
  unfold takenOut
  simp only [ht, if_true]
  rfl

theorem overrunCounted_hostq : (overrunCounted d o).hostq = d.hostq :=
  ((LeavesHost.refl _).sample _ _).hostq.trans ((LeavesHost.refl d).tcount _ _ _).hostq

theorem overrunCounted_fget : (overrunCounted d o).fget Reg.LEDGER_OVERRUN.COUNT =
    (d.fget Reg.LEDGER_OVERRUN.COUNT + 1) % 2 ^ 32 := by
  have hs := ((LeavesHost.refl ((d.tcount o.tenant 11 1).bump Reg.LEDGER_OVERRUN.COUNT)).sample 0x0D (some o.tenant)).fget
    (g := Reg.LEDGER_OVERRUN.COUNT) (m := 0) (by decide)
  have ht := ((LeavesHost.refl d).tcount o.tenant 11 1).fget (g := Reg.LEDGER_OVERRUN.COUNT) (m := 0) (by decide)
  rw [overrunCounted, hs, fget_bump _ Reg.LEDGER_OVERRUN.COUNT 1 0 (by decide) (by decide), ht]
  rfl

/-- Late or not told to any controller, an overrun is counted once. -/
theorem delivered_late_fget (ho : d.hostq.outbox.find? (fun o => o.ctx = ctx && o.cid = cid) = some o)
    (hh : o.ofTag = false ∨ d.responseHeld ctx (tagKey ctx cid) = false) (hd : 0 < o.deadline) (hl : o.deadline < left) :
    (d.delivered ctx cid left).fget Reg.LEDGER_OVERRUN.COUNT = (d.fget Reg.LEDGER_OVERRUN.COUNT + 1) % 2 ^ 32 := by
  have hc : (overrunCounted (takenOut d ctx cid o) o).fget Reg.LEDGER_OVERRUN.COUNT =
      (d.fget Reg.LEDGER_OVERRUN.COUNT + 1) % 2 ^ 32 := by
    rw [overrunCounted_fget, Dev.fget, Dev.reg, takenOut_regs, Dev.fget, Dev.reg]
  rw [delivered_late ho hh hd hl, ← hc]
  dsimp only
  split
  · exact (raiseAens_regs _ _ _ _ _).fget (by decide)
  · rfl

/-- With no controller to tell, a late delivery leaves of HOSTQ what one in time does. -/
theorem delivered_late_hostq (ho : d.hostq.outbox.find? (fun o => o.ctx = ctx && o.cid = cid) = some o)
    (hh : o.ofTag = false ∨ d.responseHeld ctx (tagKey ctx cid) = false) (hd : 0 < o.deadline) (hl : o.deadline < left)
    (hc : (takenOut d ctx cid o).hostq.ctrls = []) : (d.delivered ctx cid left).hostq = (takenOut d ctx cid o).hostq := by
  rw [delivered_late ho hh hd hl]
  dsimp only
  split
  · rw [Dev.raiseAens, overrunCounted_hostq, hc]
    exact overrunCounted_hostq
  · exact overrunCounted_hostq

end Sys2Proof.Proofs
end

section
/-! SUPPORT. The arrival of a command capsule (R119, R142, R144, R146, R148, R149). -/

namespace Sys2Proof.Proofs

open Sys2Proof.Machine Sys2Proof.Laws

-- One proof after another: proofs that wait for a slow one would each hold a thread.
set_option Elab.async false

variable {d : Dev} {ctx nsgl sgl : Nat} {sqe seg : List Word} {q : Queue} {c : Ctrl}

/-- Commands of a queue that are not Completed. -/
def outstanding (d : Dev) (ctx : Nat) : Nat :=
  (d.hostq.tags.filter fun t => t.2.ctx = ctx && decide (t.2.state ≠ .completed)).length

/-- The queue with its head moved on (R144). -/
def movedHead (q : Queue) : Queue := { q with head := (q.head + 1) % (q.sqsize + 1) }

/-- The controller with a command on that queue. -/
def movedCtrl (d : Dev) (q : Queue) (c : Ctrl) : Ctrl :=
  { c with idleSince := d.now, apstPs := none, katoLast := if q.qid = 0 then d.now else c.katoLast }

/-- The device as it takes a capsule in: awake, with the head moved and the controller no longer idle. -/
def takenIn (d : Dev) (ctx : Nat) (q : Queue) : Dev :=
  let e := d.wake
  { e with hostq := { e.hostq with queues := Tab.put e.hostq.queues ctx (movedHead q) } }.modCtrl q.ctrl (movedCtrl e q)

/-- The tag of an accepted capsule. -/
def newTag (ctx nsgl sgl : Nat) (sqe seg : List Word) (q : Queue) (c : Ctrl) : Tag :=
  { ctx := ctx, qid := q.qid, cid := sqeCid sqe, ctrl := q.ctrl, tenant := c.tenant
    sqe := padWords 8 sqe, sglLen := sgl, nsgl := nsgl, seg := seg }

/-- The device with that tag. -/
def tagged (d : Dev) (ctx : Nat) (q : Queue) (t : Tag) : Dev :=
  let e := takenIn d ctx q
  { e with hostq := { e.hostq with tags := Tab.put e.hostq.tags (tagKey ctx t.cid) t } }

/-- Opcodes that the queue accepts (R148, R149). -/
def knownOn (q : Queue) (op : Nat) : Bool := if q.qid = 0 then adminOpcodes.contains op else ioOpcodes.contains op

/-- Must the command go to the partner, which owns its namespace's group (R142)? -/
def goesFar (d : Dev) (q : Queue) (c : Ctrl) (nsid : Nat) : Bool :=
  q.qid ≠ 0 && (match d.nsFor c nsid with
    | some (_, n) => decide (d.anaState n.anagrp = .nonOptimized) &&
      decide (d.groupOwner n.anagrp ≠ d.fget Reg.CAMP_STRAP.UNIT_ID)
    | none => false)

theorem outstanding_wake : outstanding d.wake ctx = outstanding d ctx := by
  rw [outstanding, (LeavesHost.refl d).wake.hostq, outstanding]

theorem capsule_idle (h : d.queue ctx = none ∨ d.on 0x10 = false ∨ d.quiet = true) :
    d.capsule ctx sqe nsgl sgl seg = d := by
  unfold Dev.capsule
  split
  · rfl
  · next hq =>
    split
    · rfl
    · exact if_pos (by rcases h with h | h | h <;> simp_all)

/-! ### What taking it in leaves -/

theorem takenIn_hostq (hc : d.ctrl q.ctrl = some c) : (takenIn d ctx q).hostq =
    { d.hostq with queues := Tab.put d.hostq.queues ctx (movedHead q)
                   ctrls := Tab.put d.hostq.ctrls q.ctrl (movedCtrl d q c) } := by
  have hw := ((LeavesHost.refl d).wake).hostq
  unfold takenIn
  extract_lets e
  have hc' : ({ e with hostq := { e.hostq with queues := Tab.put e.hostq.queues ctx (movedHead q) } } : Dev).ctrl q.ctrl = some c := by
    change Tab.look e.hostq.ctrls q.ctrl = some c
    rw [hw]
    exact hc
  rw [modCtrl_hostq _ _ hc']
  change { e.hostq with queues := Tab.put e.hostq.queues ctx (movedHead q)
                        ctrls := Tab.put e.hostq.ctrls q.ctrl (movedCtrl e q c) } = _
  rw [hw, movedCtrl, show e.now = d.now from wake_now, ← movedCtrl]

theorem modCtrl_pitch (k : Nat) (g : Ctrl → Ctrl) : (d.modCtrl k g).pitch = d.pitch := by
  unfold Dev.modCtrl
  split <;> rfl

theorem takenIn_pitch : (takenIn d ctx q).pitch = d.pitch :=
  (modCtrl_pitch _ _).trans ((LeavesHost.refl d).wake).pitch

theorem tagged_hostq (hc : d.ctrl q.ctrl = some c) (t : Tag) : (tagged d ctx q t).hostq =
    { d.hostq with queues := Tab.put d.hostq.queues ctx (movedHead q)
                   ctrls := Tab.put d.hostq.ctrls q.ctrl (movedCtrl d q c)
                   tags := Tab.put d.hostq.tags (tagKey ctx t.cid) t } := by
  unfold tagged
  dsimp only
  rw [takenIn_hostq hc]

theorem tagged_pitch (t : Tag) : (tagged d ctx q t).pitch = d.pitch := takenIn_pitch

theorem tagged_leavesPair (t : Tag) : LeavesPair d (tagged d ctx q t) := by
  have hw := (LeavesPair.refl d).wake
  exact .withHostq (.modCtrl (.withHostq hw _) _ _) _

/-- Where a command goes hangs on HOSTQ's namespaces, its ANA groups and the pair. -/
theorem goesFar_congr {e : Dev} (hn : e.hostq.nss = d.hostq.nss) (ha : e.hostq.ana = d.hostq.ana) (hp : LeavesPair d e)
    (nsid : Nat) : goesFar e q c nsid = goesFar d q c nsid := by
  have hown : e.fget Reg.HOSTQ_ANA_OWN.UNIT = d.fget Reg.HOSTQ_ANA_OWN.UNIT := hp.fget (by decide)
  have hunit : e.fget Reg.CAMP_STRAP.UNIT_ID = d.fget Reg.CAMP_STRAP.UNIT_ID := hp.fget (by decide)
  have hbly : e.fget Reg.BLY_STATUS.STATE = d.fget Reg.BLY_STATUS.STATE := hp.fget (by decide)
  have hgroup (g : Nat) : e.groupOwner g = d.groupOwner g := by rw [Dev.groupOwner, hown, Dev.groupOwner]
  have hana (g : Nat) : e.anaState g = d.anaState g := by
    unfold Dev.anaState
    rw [ha, hgroup, hunit, hbly]
  unfold goesFar Dev.nsFor
  simp only [hn, hgroup, hana, hunit]

/-! ### The submission entry, padded to eight words -/

theorem padWords_getD (n i : Nat) (ws : List Word) (h : i < n) : (padWords n ws).getD i 0 = ws.getD i 0 := by
  simp only [padWords, List.getD_eq_getElem?_getD, List.getElem?_take, h, if_true, List.getElem?_append,
    List.getElem?_replicate]
  split
  · rfl
  · next hl => split <;> simp [List.getElem?_eq_none (Nat.le_of_not_lt hl)]

theorem padWords_padWords (n : Nat) (ws : List Word) : padWords n (padWords n ws) = padWords n ws := by
  have hl : (padWords n ws).length = n := by simp [padWords]
  conv_lhs => rw [padWords, List.take_append_of_le_length hl.ge, List.take_of_length_le hl.le]

theorem arrivalWords_padWords (typ tenant ctx qid : Nat) (sqe seg : List Word) (nsgl nsh : Nat) :
    arrivalWords typ tenant ctx qid (padWords 8 sqe) nsgl seg nsh = arrivalWords typ tenant ctx qid sqe nsgl seg nsh := by
  unfold arrivalWords sqeCid
  simp only [padWords_padWords, padWords_getD 8 _ _ (by decide : 0 < 8),
    padWords_getD 8 _ _ (by decide : 5 < 8), padWords_getD 8 _ _ (by decide : 6 < 8), padWords_getD 8 _ _ (by decide : 7 < 8)]

/-! ### The cases of an arrival -/

section
variable (hq : d.queue ctx = some q) (hc : d.ctrl q.ctrl = some c) (hon : d.on 0x10 = true) (hquiet : d.quiet = false)
include hq hc hon hquiet

/-- A capsule on a queue of a controller in service is counted as beyond the queue's size, or taken in. -/
theorem capsule_eq : d.capsule ctx sqe nsgl sgl seg =
    if q.sqsize + 1 ≤ outstanding d.wake ctx then
      (d.wake.bump Reg.HOSTQ_STAT.SQ_OVERRUN).post 0x10 0 0x20 (q.ctrl % 65536 * 65536 + q.qid % 65536)
    else
      let t := newTag ctx nsgl sgl sqe seg q c
      let e := takenIn d ctx q
      let f := tagged d ctx q t
      if (e.tag (tagKey ctx t.cid)).isSome then
        (e.bump Reg.HOSTQ_STAT.CID_CONFLICT).answerCapsule (movedHead q) ctx t.cid c.tenant (sqeOpcode sqe) (cqe 0 3)
      else if !knownOn q (sqeOpcode sqe) then f.hostDone (tagKey ctx t.cid) (cqe 0 1)
      else if goesFar f q c (sqeNsid sqe) then
        { f with hostq := { f.hostq with
          tags := Tab.put f.hostq.tags (tagKey ctx t.cid) { t with forwarded := true }
          fwdOut := f.hostq.fwdOut ++ [tagKey ctx t.cid] } }
      else f.arrive t := by
  unfold Dev.capsule
  split
  · next h => rw [hq] at h; cases h
  · next q' h =>
    obtain rfl : q = q' := Option.some.inj (hq.symm.trans h)
    split
    · next h => rw [hc] at h; cases h
    · next c' h =>
      obtain rfl : c = c' := Option.some.inj (hc.symm.trans h)
      rw [if_neg (by simp [hon, hquiet])]
      rfl

section
variable (hopen : outstanding d ctx < q.sqsize + 1)

theorem capsule_overrun (hopen : q.sqsize + 1 ≤ outstanding d ctx) : d.capsule ctx sqe nsgl sgl seg =
    (d.wake.bump Reg.HOSTQ_STAT.SQ_OVERRUN).post 0x10 0 0x20 (q.ctrl % 65536 * 65536 + q.qid % 65536) := by
  rw [capsule_eq hq hc hon hquiet, outstanding_wake, if_pos hopen]

include hopen

theorem capsule_conflict (htag : (d.tag (tagKey ctx (sqeCid sqe))).isSome = true) : d.capsule ctx sqe nsgl sgl seg =
    ((takenIn d ctx q).bump Reg.HOSTQ_STAT.CID_CONFLICT).answerCapsule (movedHead q) ctx (sqeCid sqe) c.tenant
      (sqeOpcode sqe) (cqe 0 3) := by
  rw [capsule_eq hq hc hon hquiet, outstanding_wake, if_neg (by omega)]
  refine if_pos ?_
  rw [Dev.tag, takenIn_hostq hc]
  exact htag

variable (htag : d.tag (tagKey ctx (sqeCid sqe)) = none)
include htag

theorem capsule_taken : d.capsule ctx sqe nsgl sgl seg =
    (let t := newTag ctx nsgl sgl sqe seg q c
     let f := tagged d ctx q t
     if !knownOn q (sqeOpcode sqe) then f.hostDone (tagKey ctx t.cid) (cqe 0 1)
     else if goesFar d q c (sqeNsid sqe) then
       { f with hostq := { f.hostq with
         tags := Tab.put f.hostq.tags (tagKey ctx t.cid) { t with forwarded := true }
         fwdOut := f.hostq.fwdOut ++ [tagKey ctx t.cid] } }
     else f.arrive t) := by
  rw [capsule_eq hq hc hon hquiet, outstanding_wake, if_neg (by omega)]
  extract_lets t e f
  have hnone : e.tag (tagKey ctx t.cid) = none := by
    rw [Dev.tag, takenIn_hostq hc]
    exact htag
  rw [hnone, if_neg (by simp), goesFar_congr (by rw [tagged_hostq hc]) (by rw [tagged_hostq hc]) (tagged_leavesPair t)]

end

end
end Sys2Proof.Proofs
end

section
/-! SUPPORT. Connect: what it finds, and what it leaves of HOSTQ (R136, R143, R145, R150). -/

namespace Sys2Proof.Proofs

open Sys2Proof.Machine Sys2Proof.Laws

-- One proof after another: proofs that wait for a slow one would each hold a thread.
set_option Elab.async false

/-- What a Connect is found to be: refused with a status, the first of a new controller, of number `k` and counted against
`tenant`, or a queue of the controller `x`. -/
inductive Verdict where
  | refuses (c : Cqe)
  | creates (k : Nat) (x : Ctrl) (tenant : Nat)
  | joins (x : Ctrl)

/-- The controller that a dynamic Connect makes (R136, R145). -/
def newCtrl (d : Dev) (ctx si : Nat) (s : Subsys) (host : List Byte) (ent : Option HostEnt) (kato : Nat) : Ctrl :=
  { subsys := si, tenant := (ent.map (·.tenant)).getD 0
    maxq := (ent.map (·.maxq)).getD (d.fget Reg.HOSTQ_CFG.MAXQ)
    discovery := s.discovery, hostHash := Config.shake256 (nqnOf host) 32, adminCtx := ctx, kato := connectKato kato
    katoLast := d.now, idleSince := d.now }

/-- The entry of a host for a subsystem (R136). -/
def hostEntry (d : Dev) (host : List Byte) (si : Nat) : Option HostEnt :=
  d.hostq.hosts.find? fun h => h.hash = Config.shake256 (nqnOf host) 32 && h.subsys = si

/-- The findings on a Connect whose host may connect to subsystem `s`, number `si`. -/
def verdictOn (d : Dev) (ctx : Nat) (host : List Byte) (cntlid qid sqsize kato si : Nat) (s : Subsys) : Verdict :=
  if sqsize = 0 ∨ d.fget Reg.HOSTQ_CFG.MQES < sqsize then .refuses { cqe 1 0x82 with dw0 := 44 }
  else if qid = 0 then
    if katoBad kato then .refuses (cqe 0 2)
    else if d.fget Reg.HOSTQ_CFG.MAX_CTRL ≤ d.hostq.ctrls.length ∨ 65535 ≤ d.fget Reg.HOSTQ_OCC.IOQ then
      .refuses (cqe 1 0x81 false)
    else
      .creates (freeCtrl d.hostq.ctrls d.hostq.ctrls.length 0) (newCtrl d ctx si s host (hostEntry d host si) kato)
        (if s.discovery then 0 else ((hostEntry d host si).map (·.tenant)).getD 0)
  else
    match d.ctrl cntlid with
    | none => .refuses { cqe 1 0x82 with dw0 := 16 }
    | some x =>
      if x.subsys ≠ si ∨ x.hostHash ≠ Config.shake256 (nqnOf host) 32 ∨ x.resetting then
        .refuses { cqe 1 0x82 with dw0 := 16 }
      else if x.maxq < qid ∨ d.hostq.queues.any (fun q => q.2.ctrl = cntlid && q.2.qid = qid) then
        .refuses { cqe 1 0x82 with dw0 := 42 }
      else if 65535 ≤ d.fget Reg.HOSTQ_OCC.IOQ then .refuses (cqe 1 0x81 false)
      else .joins x

/-- The subsystem of a name. -/
def subsysOf (d : Dev) (sub : List Byte) : Option (Nat × Subsys) := d.hostq.subs.find? fun s => nqnOf s.2.nqn = nqnOf sub

/-- The findings on a Connect. -/
def verdict (d : Dev) (ctx : Nat) (host sub : List Byte) (cntlid qid sqsize kato : Nat) : Verdict :=
  if d.sanitizing then .refuses (cqe 0 0x1D false)
  else match subsysOf d sub with
    | none => .refuses (cqe 1 0x84)
    | some (si, s) =>
      if !s.discovery && (hostEntry d host si).isNone then .refuses (cqe 1 0x84)
      else verdictOn d ctx host cntlid qid sqsize kato si s

/-- What a Connect comes to, by what it is found to be. -/
def connected (d : Dev) (ctx cid : Nat) (fab : Fabric) (cntlid qid sqsize : Nat) : Verdict → Dev
  | .refuses c => d.connectFails ctx cid c
  | .creates k x tenant =>
    (Dev.hostPs { d with hostq := { d.hostq with ctrls := Tab.put d.hostq.ctrls k x } }).openQueue ctx cid k 0 sqsize fab tenant
  | .joins x => d.openQueue ctx cid cntlid qid sqsize fab (if x.discovery then 0 else x.tenant)

variable {d : Dev} {ctx cid cntlid qid sqsize kato : Nat} {fab : Fabric} {host sub : List Byte}

theorem connect_idle (h : d.on 0x10 = false ∨ d.quiet = true ∨ (d.queue ctx).isSome = true) :
    d.connect ctx cid fab host sub cntlid qid sqsize kato = d := by
  unfold Dev.connect
  exact if_pos (by rcases h with h | h | h <;> simp [h])

/-- The findings hang on HOSTQ and its registers, and on the instant. -/
theorem verdict_wake : verdict d.wake ctx host sub cntlid qid sqsize kato = verdict d ctx host sub cntlid qid sqsize kato := by
  have hw := (LeavesHost.refl d).wake
  have hcfg : d.wake.fget Reg.HOSTQ_CFG.MQES = d.fget Reg.HOSTQ_CFG.MQES := hw.fget (by decide)
  have hmax : d.wake.fget Reg.HOSTQ_CFG.MAX_CTRL = d.fget Reg.HOSTQ_CFG.MAX_CTRL := hw.fget (by decide)
  have hq : d.wake.fget Reg.HOSTQ_CFG.MAXQ = d.fget Reg.HOSTQ_CFG.MAXQ := hw.fget (by decide)
  have hioq : d.wake.fget Reg.HOSTQ_OCC.IOQ = d.fget Reg.HOSTQ_OCC.IOQ := hw.fget (by decide)
  unfold verdict verdictOn subsysOf hostEntry newCtrl Dev.sanitizing Dev.ctrl
  rw [hw.hostq, hcfg, hmax, hq, hioq, wake_now]

/-! ### What an answer to a Connect leaves -/

theorem connectFails_hostq (c : Cqe) : ∃ tenant, (d.connectFails ctx cid c).hostq =
    { d.hostq with outbox := d.hostq.outbox ++
      [{ ctx := ctx, cid := cid, cqe := { c with sqhd := 0 }, ofTag := false, tenant := tenant }] } :=
  ⟨_, answerCapsule_leaves _ _ _ _ _ _ _⟩

/-- The queue that a Connect puts in service. -/
def newQueue (k qid sqsize : Nat) (fab : Fabric) : Queue :=
  { ctrl := k, qid := qid, sqsize := sqsize, fabric := fab, head := 1 % (sqsize + 1) }

theorem openQueue_hostq (k tenant : Nat) : (d.openQueue ctx cid k qid sqsize fab tenant).hostq =
    { d.hostq with
      queues := Tab.put d.hostq.queues ctx (newQueue k qid sqsize fab)
      outbox := d.hostq.outbox ++
        [{ ctx := ctx, cid := cid, cqe := { cqe 0 0 false with dw0 := k, sqhd := 1 % (sqsize + 1) }, ofTag := false
           tenant := tenant }] } := by
  unfold Dev.openQueue
  extract_lets q _ e f
  have hf : f.hostq = { d.hostq with queues := Tab.put d.hostq.queues ctx (newQueue k qid sqsize fab) } := by
    change (match e.ctxBlk ctx with
      | some b => (e.needCtx b ctx).modCtx b ctx _
      | none => e).hostq = _
    split
    · exact (((LeavesHost.refl e).needCtx _ _).modCtx _ _ _).hostq
    · rfl
  rw [answerCapsule_leaves, hf]

/-! ### What a Connect comes to -/

section
variable (hon : d.on 0x10 = true) (hquiet : d.quiet = false) (hqueue : d.queue ctx = none)
include hon hquiet hqueue

theorem connect_eq : d.connect ctx cid fab host sub cntlid qid sqsize kato =
    connected d.wake ctx cid fab cntlid qid sqsize (verdict d ctx host sub cntlid qid sqsize kato) := by
  rw [← verdict_wake]
  unfold Dev.connect
  rw [if_neg (by simp [hon, hquiet, hqueue])]
  generalize d.wake = e
  rw [verdict, apply_ite (connected e ctx cid fab cntlid qid sqsize)]
  refine ite_congr rfl (fun _ => rfl) fun _ => ?_
  unfold subsysOf
  cases e.hostq.subs.find? fun s => decide (nqnOf s.2.nqn = nqnOf sub) with
  | none => rfl
  | some p =>
    obtain ⟨si, s⟩ := p
    unfold verdictOn
    simp only [apply_ite (connected e ctx cid fab cntlid qid sqsize)]
    refine ite_congr rfl (fun _ => rfl) fun _ => ite_congr rfl (fun _ => rfl) fun _ => ite_congr rfl (fun _ => rfl) fun _ => ?_
    cases e.ctrl cntlid with
    | none => rfl
    | some x => simp only [apply_ite (connected e ctx cid fab cntlid qid sqsize)] <;> rfl

/-- The outbox has the answer to a Connect. -/
def answered (h : Hostq) (ctx cid : Nat) (c : Cqe) (head : Nat) : Prop :=
  ∃ o ∈ h.outbox, o.ctx = ctx ∧ o.cid = cid ∧ o.cqe = { c with sqhd := head }

/-- A refused Connect leaves no queue and every controller, and is answered with its status. -/
theorem connect_refused {c : Cqe} (hv : verdict d ctx host sub cntlid qid sqsize kato = .refuses c) :
    (d.connect ctx cid fab host sub cntlid qid sqsize kato).queue ctx = none ∧
      (d.connect ctx cid fab host sub cntlid qid sqsize kato).hostq.ctrls = d.hostq.ctrls ∧
      answered (d.connect ctx cid fab host sub cntlid qid sqsize kato).hostq ctx cid c 0 := by
  rw [connect_eq hon hquiet hqueue, hv, connected]
  obtain ⟨tenant, h⟩ := connectFails_hostq (d := d.wake) (ctx := ctx) (cid := cid) c
  rw [Dev.queue, h, (LeavesHost.refl d).wake.hostq]
  exact ⟨hqueue, rfl, _, List.mem_append_right _ (List.mem_singleton_self _), rfl, rfl, rfl⟩

/-- One that makes a controller leaves it, with its admin queue, and is answered with its number. -/
theorem connect_created {k tenant : Nat} {x : Ctrl}
    (hv : verdict d ctx host sub cntlid qid sqsize kato = .creates k x tenant) :
    (d.connect ctx cid fab host sub cntlid qid sqsize kato).ctrl k = some x ∧
      (d.connect ctx cid fab host sub cntlid qid sqsize kato).queue ctx = some (newQueue k 0 sqsize fab) ∧
      answered (d.connect ctx cid fab host sub cntlid qid sqsize kato).hostq ctx cid { cqe 0 0 false with dw0 := k }
        (1 % (sqsize + 1)) := by
  rw [connect_eq hon hquiet hqueue, hv, connected, Dev.ctrl, Dev.queue, openQueue_hostq, ((LeavesHost.refl _).hostPs).hostq]
  exact ⟨look_put_self _ _ _, look_put_self _ _ _, _, List.mem_append_right _ (List.mem_singleton_self _), rfl, rfl, rfl⟩

/-- One that joins a controller leaves that as it is, with a queue more, and is answered with its number. -/
theorem connect_joined {x : Ctrl} (hv : verdict d ctx host sub cntlid qid sqsize kato = .joins x) :
    (d.connect ctx cid fab host sub cntlid qid sqsize kato).hostq.ctrls = d.hostq.ctrls ∧
      (d.connect ctx cid fab host sub cntlid qid sqsize kato).queue ctx = some (newQueue cntlid qid sqsize fab) ∧
      answered (d.connect ctx cid fab host sub cntlid qid sqsize kato).hostq ctx cid { cqe 0 0 false with dw0 := cntlid }
        (1 % (sqsize + 1)) := by
  rw [connect_eq hon hquiet hqueue, hv, connected, Dev.queue, openQueue_hostq, (LeavesHost.refl d).wake.hostq]
  exact ⟨rfl, look_put_self _ _ _, _, List.mem_append_right _ (List.mem_singleton_self _), rfl, rfl, rfl⟩

end

/-! ### When each is found -/

theorem verdict_sanitizing (h : d.sanitizing = true) :
    verdict d ctx host sub cntlid qid sqsize kato = .refuses (cqe 0 0x1D false) := if_pos h

theorem verdict_unknown (hs : d.sanitizing = false) (h : subsysOf d sub = none) :
    verdict d ctx host sub cntlid qid sqsize kato = .refuses (cqe 1 0x84) := by
  rw [verdict, if_neg (by simp [hs]), h]

theorem verdict_forbidden {i : Nat} {u : Subsys} (hs : d.sanitizing = false) (h : subsysOf d sub = some (i, u))
    (hu : u.discovery = false) (he : hostEntry d host i = none) :
    verdict d ctx host sub cntlid qid sqsize kato = .refuses (cqe 1 0x84) := by
  rw [verdict, if_neg (by simp [hs]), h]
  exact if_pos (by simp [hu, he])

/-- What a Connect answered on its merits meets (R136, R150). -/
theorem connects_iff {i : Nat} {u : Subsys} : d.connects ctx host sub i u = true ↔
    d.on 0x10 = true ∧ d.quiet = false ∧ d.queue ctx = none ∧ d.sanitizing = false ∧ subsysOf d sub = some (i, u) ∧
      (u.discovery = true ∨ (hostEntry d host i).isSome = true) := by
  simp only [Dev.connects, Bool.and_eq_true, Bool.not_eq_true', Option.isNone_iff_eq_none, decide_eq_true_eq, Bool.or_eq_true,
    hostEntry, List.find?_isSome, List.any_eq_true, subsysOf, and_assoc]

theorem verdict_merits {i : Nat} {u : Subsys} (h : d.connects ctx host sub i u = true) :
    verdict d ctx host sub cntlid qid sqsize kato = verdictOn d ctx host cntlid qid sqsize kato i u := by
  obtain ⟨-, -, -, hs, hu, he⟩ := connects_iff.1 h
  rw [verdict, if_neg (by simp [hs]), hu]
  exact if_neg (by rcases he with he | he <;> simp [he, Option.isSome_iff_ne_none.1])

section
variable {i : Nat} {u : Subsys}

theorem verdictOn_size (h : sqsize = 0 ∨ d.fget Reg.HOSTQ_CFG.MQES < sqsize) :
    verdictOn d ctx host cntlid qid sqsize kato i u = .refuses { cqe 1 0x82 with dw0 := 44 } := if_pos h

variable (h1 : 1 ≤ sqsize) (hm : sqsize ≤ d.fget Reg.HOSTQ_CFG.MQES)
include h1 hm

theorem verdictOn_kato (h : katoBad kato = true) :
    verdictOn d ctx host cntlid 0 sqsize kato i u = .refuses (cqe 0 2) := by
  rw [verdictOn, if_neg (by omega), if_pos rfl, if_pos h]

theorem verdictOn_full (hk : katoBad kato = false)
    (h : d.fget Reg.HOSTQ_CFG.MAX_CTRL ≤ d.hostq.ctrls.length ∨ 65535 ≤ d.fget Reg.HOSTQ_OCC.IOQ) :
    verdictOn d ctx host cntlid 0 sqsize kato i u = .refuses (cqe 1 0x81 false) := by
  rw [verdictOn, if_neg (by omega), if_pos rfl, if_neg (by simp [hk]), if_pos h]

theorem verdictOn_creates (hk : katoBad kato = false) (hmax : d.hostq.ctrls.length < d.fget Reg.HOSTQ_CFG.MAX_CTRL)
    (hioq : d.fget Reg.HOSTQ_OCC.IOQ < 65535) :
    verdictOn d ctx host cntlid 0 sqsize kato i u = .creates (freeCtrl d.hostq.ctrls d.hostq.ctrls.length 0)
      (newCtrl d ctx i u host (hostEntry d host i) kato) (if u.discovery then 0 else ((hostEntry d host i).map (·.tenant)).getD 0) := by
  rw [verdictOn, if_neg (by omega), if_pos rfl, if_neg (by simp [hk]), if_neg (by omega)]

variable (hqid : 1 ≤ qid)
include hqid

theorem verdictOn_noCtrl (h : d.ctrl cntlid = none) :
    verdictOn d ctx host cntlid qid sqsize kato i u = .refuses { cqe 1 0x82 with dw0 := 16 } := by
  rw [verdictOn, if_neg (by omega), if_neg (by omega), h]

variable {x : Ctrl} (hx : d.ctrl cntlid = some x) (hi : x.subsys = i) (hh : x.hostHash = Config.shake256 (nqnOf host) 32)
  (hr : x.resetting = false)
include hx hi hh hr

theorem verdictOn_maxq (h : x.maxq < qid) :
    verdictOn d ctx host cntlid qid sqsize kato i u = .refuses { cqe 1 0x82 with dw0 := 42 } := by
  rw [verdictOn, if_neg (by omega), if_neg (by omega), hx]
  exact (if_neg (by simp [hi, hh, hr])).trans (if_pos (.inl h))

theorem verdictOn_joins (hq : qid ≤ x.maxq) (ha : d.hostq.queues.any (fun q => q.2.ctrl = cntlid && q.2.qid = qid) = false)
    (hioq : d.fget Reg.HOSTQ_OCC.IOQ < 65535) : verdictOn d ctx host cntlid qid sqsize kato i u = .joins x := by
  rw [verdictOn, if_neg (by omega), if_neg (by omega), hx]
  exact (if_neg (by simp [hi, hh, hr])).trans ((if_neg (by rw [ha]; simp [hq])).trans (if_neg (by omega)))

end

end Sys2Proof.Proofs
end

section
/-! SUPPORT. Fabrics commands of a host, controller resets and lost queues (R145, R148, R154, R344). -/

namespace Sys2Proof.Proofs

open Sys2Proof.Machine Sys2Proof.Laws

-- One proof after another: proofs that wait for a slow one would each hold a thread.
set_option Elab.async false

variable {d : Dev} {ctx cid op : Nat} {t : Tag} {x : Ctrl}

/-! ### An admin command that runs (R150) -/

theorem adminTakes_iff : d.adminTakes ctx cid op t x = true ↔
    d.tag (tagKey ctx cid) = some t ∧ t.qid = 0 ∧ sqeOpcode t.sqe = op ∧ t.state ≠ .completed ∧ t.held = false ∧
      t.remote = none ∧ d.ctrl t.ctrl = some x ∧ (d.sanitizing = true → sanitizeOk.contains op = true) := by
  simp only [Dev.adminTakes, Bool.and_eq_true, Bool.not_eq_true', Bool.or_eq_true, decide_eq_true_eq, and_assoc,
    ← Bool.not_eq_true, ← imp_iff_not_or]

theorem dropArrival_hostq (cmdref : Nat) : (d.dropArrival ctx cmdref).hostq = d.hostq := rfl

theorem began_keeps : (d.began ctx cid).sanitizing = d.sanitizing ∧ KeepsRegs hostReg d (d.began ctx cid) := by
  have hr : KeepsRegs hostReg d (d.dropArrival ctx cid) :=
    (KeepsRegs.fset _ _ (by decide)).trans (.fset _ _ (by decide))
  refine ⟨?_, hr.modTag _ _⟩
  unfold Dev.began Dev.modTag
  split <;> rfl

/-- It runs on the device that has begun it. -/
theorem admin_takes (h : d.adminTakes ctx cid op t x = true) (f : AdmIn → Dev → Dev) : d.admin (.host ctx cid) op f =
    f { src := .host ctx cid, sqe := t.sqe, ctrl := some (t.ctrl, x), sgl := t.sglLen } (d.began ctx cid) := by
  obtain ⟨ht, hq, hop, hs, hh, hr, hx, hsan⟩ := adminTakes_iff.1 h
  have hfor : d.ctrlFor t = some x := by
    unfold Dev.ctrlFor
    rw [hr]
    exact hx
  have hrun : ¬ ((d.began ctx cid).sanitizing && !sanitizeOk.contains op) = true := by
    rw [began_keeps.1]
    cases hd : d.sanitizing
    · simp
    · rw [hsan hd]
      simp
  unfold Dev.admin
  simp only [ht]
  rw [if_neg (by simp [hq, hop, hs, hh]), hfor]
  exact if_neg hrun

/-- A second Connect on a queue, and every type that Fabrics does not have here, are refused (R143, R148). -/
theorem fabricsOther_eq (d : Dev) (a : AdmIn) (hk : a.fctype ∉ [0, 4, 8]) : d.fabricsOther a =
    d.admDone a (if a.fctype = 1 then { sct := 1, sc := 0x82, dw0 := 42 } else { sct := 0, sc := 1 }) := by
  unfold Dev.fabricsOther
  rw [if_neg hk]
  split <;> rfl

section
variable (h : d.adminTakes ctx cid 0x7F t x = true)
include h

/-- A Property Get of a property, and of any other offset (R148). -/
theorem propertyGet_takes (hf : field (t.sqe.getD 0 0) 39 32 = 4) {off : Nat} (ho : off = sqeDw t.sqe 11) :
    d.propertyGet (.host ctx cid) = (d.began ctx cid).ends ctx cid
      (if off = 0 then { success with dw0 := d.cap % 2 ^ 32, dw1 := d.cap / 2 ^ 32 }
       else if off = 8 then { success with dw0 := 0x20000 }
       else if off = 0x14 then { success with dw0 := x.cc % 2 ^ 32, dw1 := x.cc / 2 ^ 32 }
       else if off = 0x1C then { success with dw0 := b2n x.rdy } else { sct := 0, sc := 2 }) none := by
  have hcap : (d.began ctx cid).cap = d.cap := by
    rw [Dev.cap, began_keeps.2.fget (by decide), ← Dev.cap]
  have hb : b2n x.rdy < 2 ^ 32 := by cases x.rdy <;> decide
  unfold Dev.propertyGet
  rw [admin_takes h]
  refine (if_neg (not_not.2 hf)).trans ?_
  subst ho
  change (match (if sqeDw t.sqe 11 = 0 then some (d.began ctx cid).cap else if sqeDw t.sqe 11 = 8 then some 0x20000
          else if sqeDw t.sqe 11 = 0x14 then some x.cc else if sqeDw t.sqe 11 = 0x1C then some (b2n x.rdy) else none) with
        | some v => (d.began ctx cid).admDone _ { cqe 0 0 false with dw0 := v % 2 ^ 32, dw1 := v / 2 ^ 32 }
        | none => (d.began ctx cid).admDone _ (cqe 0 2)) = _
  rw [hcap]
  split_ifs <;> [rfl; rfl; rfl; skip; rfl]
  dsimp only
  rw [Nat.mod_eq_of_lt hb, Nat.div_eq_of_lt hb]
  rfl

theorem propertySet_enables (hf : field (t.sqe.getD 0 0) 39 32 = 0) (ho : sqeDw t.sqe 11 = 0x14)
    (hv : sqeDw t.sqe 12 % 2 = 1) (hr : x.resetting = false) :
    d.propertySet (.host ctx cid) = ((d.began ctx cid).modCtrl t.ctrl fun x =>
      { x with cc := sqeDw t.sqe 12, en := true, rdy := true }).ends ctx cid success none := by
  unfold Dev.propertySet
  rw [admin_takes h]
  exact (if_neg (not_not.2 hf)).trans ((if_neg (not_not.2 ho)).trans ((if_pos hv).trans (if_neg (by simp [hr]))))

theorem propertySet_disables (hf : field (t.sqe.getD 0 0) 39 32 = 0) (ho : sqeDw t.sqe 11 = 0x14)
    (hv : sqeDw t.sqe 12 % 2 = 0) :
    d.propertySet (.host ctx cid) =
      (let e := ((d.began ctx cid).modCtrl t.ctrl fun x => { x with cc := sqeDw t.sqe 12 }).ends ctx cid success none
       if x.en then e.resetCtrl t.ctrl false else e) := by
  unfold Dev.propertySet
  rw [admin_takes h]
  exact (if_neg (not_not.2 hf)).trans ((if_neg (not_not.2 ho)).trans (if_neg (by change ¬ sqeDw t.sqe 12 % 2 = 1; omega)))

theorem propertySet_fails (hf : field (t.sqe.getD 0 0) 39 32 = 0)
    (ho : sqeDw t.sqe 11 ≠ 0x14 ∨ (sqeDw t.sqe 12 % 2 = 1 ∧ x.resetting = true)) :
    d.propertySet (.host ctx cid) = (d.began ctx cid).ends ctx cid
      { sct := 0, sc := if sqeDw t.sqe 11 = 0x14 then 0x0C else 2 } none := by
  unfold Dev.propertySet
  rw [admin_takes h]
  refine (if_neg (not_not.2 hf)).trans ?_
  by_cases h14 : sqeDw t.sqe 11 = 0x14
  · obtain ⟨hv, hr⟩ := ho.resolve_left (not_not.2 h14)
    rw [if_pos h14]
    exact (if_neg (not_not.2 h14)).trans ((if_pos hv).trans (if_pos hr))
  · rw [if_neg h14]
    exact if_pos h14

/-- Both rows answer the types that Fabrics does not have here alike. -/
theorem property_other (hk : field (t.sqe.getD 0 0) 39 32 ∉ [0, 4, 8]) {e : Dev}
    (he : e = d.propertyGet (.host ctx cid) ∨ e = d.propertySet (.host ctx cid)) :
    e = (d.began ctx cid).ends ctx cid
      (if field (t.sqe.getD 0 0) 39 32 = 1 then { sct := 1, sc := 0x82, dw0 := 42 } else { sct := 0, sc := 1 }) none := by
  obtain ⟨h0, h4, -⟩ : _ ≠ 0 ∧ _ ≠ 4 ∧ _ ≠ 8 := by simpa only [List.mem_cons, List.not_mem_nil, or_false, not_or] using hk
  have ho := fabricsOther_eq (d.began ctx cid)
    { src := .host ctx cid, sqe := t.sqe, ctrl := some (t.ctrl, x), sgl := t.sglLen } hk
  rcases he with rfl | rfl
  · unfold Dev.propertyGet
    rw [admin_takes h]
    exact (if_pos h4).trans ho
  · unfold Dev.propertySet
    rw [admin_takes h]
    exact (if_pos h0).trans ho

end

/-! ### Resets (R154) -/

theorem resetCtrl_quiet {c : Nat} {b : Bool} (hx : d.ctrl c = some x) (ht : d.hostq.tags = []) (hs : d.hostq.selfTest = none) :
    (d.resetCtrl c b).ctrl c =
      some { x with en := false, resetting := true, dropping := x.dropping || b, aers := [], aborts := [] } := by
  have ho : (d.openTags fun t => decide (t.ctrl = c)) = [] := by rw [Dev.openTags, ht]; rfl
  unfold Dev.resetCtrl
  rw [hx]
  dsimp only
  rw [ho, List.foldl_nil, hs]
  change Tab.look (d.modCtrl c _).hostq.ctrls c = _
  rw [modCtrl_hostq _ _ hx]
  exact look_put_self _ _ _

/-! ### Queues that go (R154, R344) -/

theorem dropQueue_hostq : (d.dropQueue ctx).hostq =
    { d.hostq with
      queues := Tab.del d.hostq.queues ctx
      outbox := d.hostq.outbox.filter fun o => decide (o.ctx ≠ ctx)
      tags := d.hostq.tags.filter fun t => !(t.2.ctx = ctx && decide (t.2.state = .completed)) } := rfl

theorem queueLost_admin {q : Queue} (hq : d.queue ctx = some q) (h : q.qid = 0) : d.queueLost ctx = d.resetCtrl q.ctrl true := by
  unfold Dev.queueLost
  rw [hq]
  exact if_pos h

theorem queueLost_io {q : Queue} (hq : d.queue ctx = some q) (h : q.qid ≠ 0) :
    (d.queueLost ctx).hostq.queues.all (fun p => decide (p.1 ≠ ctx)) = true := by
  have he : d.queueLost ctx = ((d.openTags fun t => decide (t.ctx = ctx)).foldl Dev.cutShort d).dropQueue ctx := by
    unfold Dev.queueLost
    rw [hq]
    exact if_neg h
  rw [he, dropQueue_hostq]
  exact List.all_eq_true.2 fun p hp => decide_eq_true (mem_del_ne hp)

/-- The queues left after several go are others, and every controller stays. -/
theorem dropQueues_leave (l : List Nat) : ∀ d : Dev, (l.foldl Dev.dropQueue d).hostq.ctrls = d.hostq.ctrls ∧
    ∀ p ∈ (l.foldl Dev.dropQueue d).hostq.queues, p ∈ d.hostq.queues ∧ p.1 ∉ l := by
  induction l with
  | nil => exact fun d => ⟨rfl, fun p hp => ⟨hp, List.not_mem_nil⟩⟩
  | cons a l ih =>
    intro d
    obtain ⟨hc, hq⟩ := ih (d.dropQueue a)
    refine ⟨hc, fun p hp => ?_⟩
    obtain ⟨hp, hl⟩ := hq p hp
    exact ⟨del_mem _ _ _ hp, List.not_mem_cons_of_ne_of_not_mem (mem_del_ne hp) hl⟩

section
variable {c : Nat} (hx : d.ctrl c = some x) (hr : x.resetting = true) (ho : (d.openTags fun t => decide (t.ctrl = c)) = [])
include hx hr ho

theorem resetDrained_ready (hd : x.dropping = false) :
    d.resetDrained c = d.modCtrl c fun x => { x with rdy := false, resetting := false } := by
  unfold Dev.resetDrained
  rw [hx]
  exact (if_neg (by simp [hr, ho])).trans (if_neg (by simp [hd]))

theorem resetDrained_drops (hd : x.dropping = true) : (d.resetDrained c).hostq.ctrls = Tab.del d.hostq.ctrls c ∧
    ∀ p ∈ (d.resetDrained c).hostq.queues, p ∈ d.hostq.queues ∧ p.2.ctrl ≠ c := by
  have he : d.resetDrained c =
      (let e := ((d.hostq.queues.filter fun q => decide (q.2.ctrl = c)).map (·.1)).foldl Dev.dropQueue d
       Dev.hostPs (Dev.showHostq { e with hostq := { e.hostq with ctrls := Tab.del e.hostq.ctrls c } })) := by
    unfold Dev.resetDrained
    rw [hx]
    exact (if_neg (by simp [hr, ho])).trans (if_pos hd)
  obtain ⟨hc, hq⟩ := dropQueues_leave ((d.hostq.queues.filter fun q => decide (q.2.ctrl = c)).map (·.1)) d
  rw [he, ((LeavesHost.refl _).hostPs).hostq]
  refine ⟨congrArg (Tab.del · c) hc, fun p hp => ?_⟩
  obtain ⟨hp, hl⟩ := hq p hp
  exact ⟨hp, fun hpc => hl (List.mem_map_of_mem (List.mem_filter.2 ⟨hp, decide_eq_true hpc⟩))⟩

end

theorem resetDrained_waits {c : Nat}
    (h : ((d.ctrl c).any fun x => x.resetting && (d.openTags fun t => decide (t.ctrl = c)).isEmpty) = false) :
    d.resetDrained c = d := by
  unfold Dev.resetDrained
  cases hx : d.ctrl c with
  | none => rfl
  | some x =>
    rw [hx, Option.any_some] at h
    exact if_pos (by rw [← Bool.not_and, h]; rfl)

/-! ### Keep Alive (R145) -/

theorem katoExpiry_resets {c : Nat} (hx : d.ctrl c = some x) (hk : x.katoLast + x.kato * 1000000 ≤ d.now)
    (hr : x.resetting = false) (hon : d.on 0x10 = true) :
    d.katoExpiry c = (d.post 0x10 0 0x21 (c % 65536)).resetCtrl c true := by
  unfold Dev.katoExpiry
  rw [hx]
  exact if_neg (by simp [hr, hon, hk])

theorem katoExpiry_idle {c : Nat}
    (h : ((d.ctrl c).any fun x => decide (x.katoLast + x.kato * 1000000 ≤ d.now) && !x.resetting && d.on 0x10) = false) :
    d.katoExpiry c = d := by
  unfold Dev.katoExpiry
  cases hx : d.ctrl c with
  | none => rfl
  | some x =>
    rw [hx, Option.any_some] at h
    refine if_pos ?_
    simp only [Bool.and_eq_false_iff, decide_eq_false_iff_not, Bool.not_eq_false', Nat.not_le] at h
    rcases h with (h | h) | h <;> simp [h]

/-! ### Disconnect (R148) -/

theorem disconnect_other (h : ((d.tag (tagKey ctx cid)).any fun t => decide (sqeOpcode t.sqe = 0x7F ∧
    field (t.sqe.getD 0 0) 39 32 = 8 ∧ t.state ≠ .completed)) = false) : d.disconnect ctx cid = d := by
  unfold Dev.disconnect
  cases ht : d.tag (tagKey ctx cid) with
  | none => rfl
  | some t =>
    rw [ht, Option.any_some, decide_eq_false_iff_not] at h
    exact if_pos (by tauto)

theorem disconnect_ends (ht : d.tag (tagKey ctx cid) = some t) (ho : sqeOpcode t.sqe = 0x7F)
    (hf : field (t.sqe.getD 0 0) 39 32 = 8) (hs : t.state ≠ .completed) : d.disconnect ctx cid =
    if d.sanitizing then (d.dropArrival ctx cid).hostDone (tagKey ctx cid) { sct := 0, sc := 0x1D, dnr := false }
    else ((d.dropArrival ctx cid).hostDone (tagKey ctx cid) success).queueLost ctx := by
  unfold Dev.disconnect
  rw [ht]
  exact if_neg (by rw [not_or, not_or, not_not, not_not]; exact ⟨ho, hf, hs⟩)

end Sys2Proof.Proofs
end

section
/-! Capsules, completions and controllers (R118, R119, R136, R143 to R146, R148, R150, R154). -/

namespace Sys2Proof.Proofs

open Sys2Proof.Machine Sys2Proof.Laws

-- One proof after another: proofs that wait for a slow one would each hold a thread.
set_option Elab.async false

variable {d : Dev} {ctx nsgl sgl : Nat} {sqe seg : List Word} {q : Queue} {c : Ctrl}

/-! ### Completions -/

/-- What the transport is given for a command, and the tag it leaves (R144, R146, R187). -/
theorem hostDone_answers {key : Nat} {c : Cqe} {t : Tag} (ht : d.tag key = some t) (hs : t.state ≠ .completed)
    (hr : t.remote = none) (hq : d.queue t.ctx = some q) :
    ∃ o ∈ (d.hostDone key c).hostq.outbox, o.ctx = t.ctx ∧ o.cid = t.cid ∧ o.ofTag = true ∧
      o.deadline = t.deadline ∧ o.cqe.sct = c.sct ∧ o.cqe.sc = c.sc ∧ o.cqe.dnr = c.dnr ∧ o.cqe.sqhd = q.head ∧
      (t.qid = 0 → o.cqe.dw0 = c.dw0 ∧ o.cqe.dw1 = c.dw1) ∧
      (t.qid ≠ 0 → o.cqe.dw0 = t.rope % 2 ^ 32 ∧ o.cqe.dw1 = t.rope / 2 ^ 32) ∧
      ∃ t', (d.hostDone key c).tag key = some t' ∧ t'.state = .completed := by
  obtain ⟨hsct, hsc, hdnr, hhead⟩ := carried_status t q.head c
  rw [Dev.tag, hostDone_hostq d c ht hs hr hq]
  refine ⟨_, List.mem_append_right _ (List.mem_singleton_self _), rfl, rfl, rfl, rfl, hsct, hsc, hdnr, hhead, ?_, ?_,
    _, look_put_self _ _ _, rfl⟩
  · intro h
    rw [carried, if_pos h]
    exact ⟨rfl, rfl⟩
  · intro h
    rw [carried, if_neg h]
    exact ⟨rfl, rfl⟩

/-! ### Arrivals -/

section
variable (hq : d.queue ctx = some q) (hc : d.ctrl q.ctrl = some c) (hon : d.on 0x10 = true) (hquiet : d.quiet = false)
include hq hc hon hquiet

theorem capsule_overrun_counts (ho : q.sqsize + 1 ≤ outstanding d ctx) :
    (d.capsule ctx sqe nsgl sgl seg).hostq = d.hostq ∧ (d.capsule ctx sqe nsgl sgl seg).pitch = d.pitch ∧
      (d.capsule ctx sqe nsgl sgl seg).fget Reg.HOSTQ_STAT.SQ_OVERRUN = (d.fget Reg.HOSTQ_STAT.SQ_OVERRUN + 1) % 2 ^ 32 := by
  have hw := (LeavesHost.refl d).wake
  rw [capsule_overrun hq hc hon hquiet ho]
  refine ⟨(post_hostq ..).trans hw.hostq, (post_pitch ..).trans hw.pitch, ?_⟩
  rw [((LeavesHost.refl _).post _ _ _ _).fget (by decide), fget_bump _ Reg.HOSTQ_STAT.SQ_OVERRUN 1 0 (by decide) (by decide),
    hw.fget (by decide)]
  rfl

variable (hopen : outstanding d ctx < q.sqsize + 1)
include hopen

theorem capsule_conflict_answers {t : Tag} (ht : d.tag (tagKey ctx (sqeCid sqe)) = some t) :
    (d.capsule ctx sqe nsgl sgl seg).tag (tagKey ctx (sqeCid sqe)) = some t ∧
      ∃ o ∈ (d.capsule ctx sqe nsgl sgl seg).hostq.outbox, o.ctx = ctx ∧ o.cid = sqeCid sqe ∧ o.ofTag = false ∧
        o.cqe.sct = 0 ∧ o.cqe.sc = 3 := by
  rw [capsule_conflict hq hc hon hquiet hopen (by rw [ht]; rfl), Dev.tag, answerCapsule_leaves, bump_hostq, takenIn_hostq hc]
  exact ⟨ht, _, List.mem_append_right _ (List.mem_singleton_self _), rfl, rfl, rfl, rfl, rfl⟩

variable (htag : d.tag (tagKey ctx (sqeCid sqe)) = none)
include htag

theorem capsule_unknown_answers (hk : knownOn q (sqeOpcode sqe) = false) :
    (∃ t, (d.capsule ctx sqe nsgl sgl seg).tag (tagKey ctx (sqeCid sqe)) = some t ∧ t.state = .completed) ∧
      ∃ o ∈ (d.capsule ctx sqe nsgl sgl seg).hostq.outbox, o.ctx = ctx ∧ o.cid = sqeCid sqe ∧ o.ofTag = true ∧
        o.cqe.sct = 0 ∧ o.cqe.sc = 1 := by
  have he : d.capsule ctx sqe nsgl sgl seg =
      (tagged d ctx q (newTag ctx nsgl sgl sqe seg q c)).hostDone (tagKey ctx (sqeCid sqe)) (cqe 0 1) := by
    rw [capsule_taken hq hc hon hquiet hopen htag]
    exact if_pos (by rw [hk]; rfl)
  have ht : (tagged d ctx q (newTag ctx nsgl sgl sqe seg q c)).tag (tagKey ctx (sqeCid sqe)) =
      some (newTag ctx nsgl sgl sqe seg q c) := by
    rw [Dev.tag, tagged_hostq hc]
    exact look_put_self _ _ _
  have hqueue : (tagged d ctx q (newTag ctx nsgl sgl sqe seg q c)).queue ctx = some (movedHead q) := by
    rw [Dev.queue, tagged_hostq hc]
    exact look_put_self _ _ _
  obtain ⟨o, ho, hctx, hcid, hof, -, hsct, hsc, -, -, -, -, ht'⟩ :=
    hostDone_answers (c := cqe 0 1) ht TagState.noConfusion rfl hqueue
  rw [he]
  exact ⟨ht', o, ho, hctx, hcid, hof, hsct, hsc⟩

variable (hk : knownOn q (sqeOpcode sqe) = true)
include hk

theorem capsule_accepted (hf : goesFar d q c (sqeNsid sqe) = false) : d.capsule ctx sqe nsgl sgl seg =
    (tagged d ctx q (newTag ctx nsgl sgl sqe seg q c)).arrive (newTag ctx nsgl sgl sqe seg q c) := by
  rw [capsule_taken hq hc hon hquiet hopen htag]
  exact (if_neg (by rw [hk]; exact Bool.false_ne_true)).trans (if_neg (by rw [hf]; exact Bool.false_ne_true))

theorem capsule_forwarded (hf : goesFar d q c (sqeNsid sqe) = true) :
    (∃ t, (d.capsule ctx sqe nsgl sgl seg).tag (tagKey ctx (sqeCid sqe)) = some t ∧ t.state = .queued ∧ t.forwarded = true) ∧
      (d.capsule ctx sqe nsgl sgl seg).hostq.fwdOut = d.hostq.fwdOut ++ [tagKey ctx (sqeCid sqe)] ∧
      (d.capsule ctx sqe nsgl sgl seg).pitch.queue = d.pitch.queue := by
  rw [capsule_taken hq hc hon hquiet hopen htag]
  extract_lets t f
  rw [if_neg (by rw [hk]; exact Bool.false_ne_true), if_pos hf]
  refine ⟨⟨_, look_put_self _ _ _, rfl, rfl⟩, ?_, ?_⟩
  · change f.hostq.fwdOut ++ _ = _
    rw [tagged_hostq hc t]
    rfl
  · exact congrArg Pitch.queue (tagged_pitch t)

end

/-- The event of an accepted capsule, with the handle of the namespace it names (R118, R119). -/
def arrivalEvent (d : Dev) (ctx nsgl : Nat) (sqe seg : List Word) (q : Queue) (c : Ctrl) : PEvent :=
  { typ := if q.qid = 0 then evAdminArrival else evIoArrival
    words := arrivalWords (if q.qid = 0 then evAdminArrival else evIoArrival) c.tenant ctx q.qid sqe nsgl seg
      (if q.qid = 0 then 0 else ((d.nsFor c (sqeNsid sqe)).map (·.1)).getD 0) }

theorem arrive_of_ctrl {t : Tag} (ht : d.ctrlFor t = some c) {r : Option (Nat × Ns)} (hr : d.nsFor c (sqeNsid t.sqe) = r) :
    d.arrive t = d.event
      { typ := if t.qid = 0 then evAdminArrival else evIoArrival
        words := arrivalWords (if t.qid = 0 then evAdminArrival else evIoArrival) t.tenant t.ctx t.qid t.sqe t.nsgl t.seg
          (if t.qid = 0 then 0 else (r.map (·.1)).getD 0) } := by
  unfold Dev.arrive
  rw [ht, Option.bind_some, hr]

theorem arrive_eq (hc : d.ctrl q.ctrl = some c) :
    (tagged d ctx q (newTag ctx nsgl sgl sqe seg q c)).arrive (newTag ctx nsgl sgl sqe seg q c) =
      (tagged d ctx q (newTag ctx nsgl sgl sqe seg q c)).event (arrivalEvent d ctx nsgl sqe seg q c) := by
  have hctrl : (tagged d ctx q (newTag ctx nsgl sgl sqe seg q c)).ctrlFor (newTag ctx nsgl sgl sqe seg q c) =
      some (movedCtrl d q c) := by
    change Tab.look _ q.ctrl = _
    rw [tagged_hostq hc]
    exact look_put_self _ _ _
  have hns : (tagged d ctx q (newTag ctx nsgl sgl sqe seg q c)).nsFor (movedCtrl d q c) (sqeNsid (padWords 8 sqe)) =
      d.nsFor c (sqeNsid sqe) := by
    rw [Dev.nsFor, tagged_hostq hc, sqeNsid, padWords_getD _ _ _ (by decide)]
    rfl
  rw [arrive_of_ctrl hctrl hns, arrivalEvent, ← arrivalWords_padWords _ _ _ _ sqe]
  rfl

section
variable (hq : d.queue ctx = some q) (hc : d.ctrl q.ctrl = some c) (hon : d.on 0x10 = true) (hquiet : d.quiet = false)
  (hopen : outstanding d ctx < q.sqsize + 1) (htag : d.tag (tagKey ctx (sqeCid sqe)) = none)
  (hk : knownOn q (sqeOpcode sqe) = true) (hf : goesFar d q c (sqeNsid sqe) = false)
include hq hc hon hquiet hopen htag hk hf

/-- An accepted capsule leaves its tag, its queue's head and its controller's instant, and posts its event. -/
theorem capsule_accepted_leaves :
    (d.capsule ctx sqe nsgl sgl seg).tag (tagKey ctx (sqeCid sqe)) = some (newTag ctx nsgl sgl sqe seg q c) ∧
      (d.capsule ctx sqe nsgl sgl seg).queue ctx = some (movedHead q) ∧
      (d.capsule ctx sqe nsgl sgl seg).ctrl q.ctrl = some (movedCtrl d q c) ∧
      (d.capsule ctx sqe nsgl sgl seg).hostq.fwdOut = d.hostq.fwdOut ∧
      (d.pitch.queue.length < 8192 → d.pitch.held = [] →
        (d.capsule ctx sqe nsgl sgl seg).pitch.queue = d.pitch.queue ++ [arrivalEvent d ctx nsgl sqe seg q c]) := by
  have hp := tagged_pitch (d := d) (ctx := ctx) (q := q) (newTag ctx nsgl sgl sqe seg q c)
  rw [Dev.tag, Dev.queue, Dev.ctrl, capsule_accepted hq hc hon hquiet hopen htag hk hf, arrive_eq hc, event_hostq,
    tagged_hostq hc]
  refine ⟨look_put_self _ _ _, look_put_self _ _ _, look_put_self _ _ _, rfl, fun hroom hheld => ?_⟩
  rw [event_queue _ _ (by rw [hp]; exact hroom) (by rw [hp]; exact hheld), hp]

end

theorem goesFar_admin (h : q.qid = 0) (nsid : Nat) : goesFar d q c nsid = false := by
  rw [goesFar, h]
  rfl

theorem goesFar_io (h : q.qid ≠ 0) (nsid : Nat) : goesFar d q c nsid =
    (d.nsFor c nsid).any fun p => decide (d.anaState p.2.anagrp = .nonOptimized) && !d.ownsGroup p.2.anagrp := by
  unfold goesFar Dev.ownsGroup
  cases d.nsFor c nsid <;> simp [h]

theorem knownOn_admin {op : Nat} (h : q.qid = 0) (ho : op ∈ adminOpcodes) : knownOn q op = true := by
  rw [knownOn, if_pos h, List.contains_iff_mem]
  exact ho

theorem knownOn_io {op : Nat} (h : q.qid ≠ 0) (ho : op ∈ ioOpcodes) : knownOn q op = true := by
  rw [knownOn, if_neg h, List.contains_iff_mem]
  exact ho

/-! ### Answers to Connects -/

section
variable {cid cntlid qid sqsize kato : Nat} {fab : Fabric} {host sub : List Byte}

/-- The outbox of `e` has an answer to the capsule, of the status, the result and DNR of `c`. -/
def ConnectAnswered (ctx cid : Nat) (c : Cqe) (e : Dev) : Prop :=
  ∃ o ∈ e.hostq.outbox, o.ctx = ctx ∧ o.cid = cid ∧ o.cqe.sct = c.sct ∧ o.cqe.sc = c.sc ∧ o.cqe.dw0 = c.dw0 ∧
    o.cqe.dnr = c.dnr

theorem answered.status {e : Dev} {head : Nat} {c : Cqe} (ha : answered e.hostq ctx cid c head) : ConnectAnswered ctx cid c e := by
  obtain ⟨o, ho, hctx, hcid, hc⟩ := ha
  exact ⟨o, ho, hctx, hcid, by rw [hc], by rw [hc], by rw [hc], by rw [hc]⟩

/-- A Connect refused with `c` in state `d` leaves `e`. -/
def ConnectRefused (d : Dev) (ctx cid : Nat) (c : Cqe) (e : Dev) : Prop :=
  e.queue ctx = none ∧ e.hostq.ctrls = d.hostq.ctrls ∧ ConnectAnswered ctx cid c e

section
variable {e : Dev} {a : Cqe} (h : ConnectRefused d ctx cid a e)
include h

theorem ConnectRefused.status : e.queue ctx = none ∧ e.hostq.ctrls = d.hostq.ctrls ∧
    ∃ o ∈ e.hostq.outbox, o.ctx = ctx ∧ o.cid = cid ∧ o.cqe.sct = a.sct ∧ o.cqe.sc = a.sc := by
  obtain ⟨hnone, hctrls, o, ho, hctx, hcid, hsct, hsc, -⟩ := h
  exact ⟨hnone, hctrls, o, ho, hctx, hcid, hsct, hsc⟩

theorem ConnectRefused.result : e.queue ctx = none ∧ e.hostq.ctrls = d.hostq.ctrls ∧
    ∃ o ∈ e.hostq.outbox, o.ctx = ctx ∧ o.cid = cid ∧ o.cqe.sct = a.sct ∧ o.cqe.sc = a.sc ∧ o.cqe.dw0 = a.dw0 := by
  obtain ⟨hnone, hctrls, o, ho, hctx, hcid, hsct, hsc, hdw0, -⟩ := h
  exact ⟨hnone, hctrls, o, ho, hctx, hcid, hsct, hsc, hdw0⟩

theorem ConnectRefused.dnr : e.queue ctx = none ∧ e.hostq.ctrls = d.hostq.ctrls ∧
    ∃ o ∈ e.hostq.outbox, o.ctx = ctx ∧ o.cid = cid ∧ o.cqe.sct = a.sct ∧ o.cqe.sc = a.sc ∧ o.cqe.dnr = a.dnr := by
  obtain ⟨hnone, hctrls, o, ho, hctx, hcid, hsct, hsc, -, hdnr⟩ := h
  exact ⟨hnone, hctrls, o, ho, hctx, hcid, hsct, hsc, hdnr⟩

end

theorem connect_leaves_refused {a : Cqe} (hon : d.on 0x10 = true) (hquiet : d.quiet = false) (hqueue : d.queue ctx = none)
    (hv : verdict d ctx host sub cntlid qid sqsize kato = .refuses a) :
    ConnectRefused d ctx cid a (d.connect ctx cid fab host sub cntlid qid sqsize kato) := by
  obtain ⟨hnone, hctrls, ha⟩ := connect_refused hon hquiet hqueue hv
  exact ⟨hnone, hctrls, ha.status⟩

section
variable {i : Nat} {u : Subsys} (h : d.connects ctx host sub i u = true)
include h

theorem connects_leaves_refused {a : Cqe} (hv : verdictOn d ctx host cntlid qid sqsize kato i u = .refuses a) :
    ConnectRefused d ctx cid a (d.connect ctx cid fab host sub cntlid qid sqsize kato) := by
  obtain ⟨hon, hquiet, hqueue, -⟩ := connects_iff.1 h
  exact connect_leaves_refused hon hquiet hqueue ((verdict_merits h).trans hv)

theorem connects_creates {k : Nat} (h1 : 1 ≤ sqsize) (hm : sqsize ≤ d.fget Reg.HOSTQ_CFG.MQES) (hk : katoBad kato = false)
    (hmax : d.hostq.ctrls.length < d.fget Reg.HOSTQ_CFG.MAX_CTRL) (hioq : d.fget Reg.HOSTQ_OCC.IOQ < 65535)
    (hfree : k = freeCtrl d.hostq.ctrls d.hostq.ctrls.length 0) :
    (d.connect ctx cid fab host sub cntlid 0 sqsize kato).ctrl k =
        some (newCtrl d ctx i u host (hostEntry d host i) kato) ∧
      (d.connect ctx cid fab host sub cntlid 0 sqsize kato).queue ctx = some (newQueue k 0 sqsize fab) ∧
      ConnectAnswered ctx cid { cqe 0 0 false with dw0 := k } (d.connect ctx cid fab host sub cntlid 0 sqsize kato) := by
  obtain ⟨hon, hquiet, hqueue, -⟩ := connects_iff.1 h
  subst hfree
  obtain ⟨hctrl, hq, ha⟩ :=
    connect_created hon hquiet hqueue ((verdict_merits h).trans (verdictOn_creates h1 hm hk hmax hioq))
  exact ⟨hctrl, hq, ha.status⟩

theorem connects_joins {x : Ctrl} (hv : verdictOn d ctx host cntlid qid sqsize kato i u = .joins x) :
    (d.connect ctx cid fab host sub cntlid qid sqsize kato).hostq.ctrls = d.hostq.ctrls ∧
      (d.connect ctx cid fab host sub cntlid qid sqsize kato).queue ctx = some (newQueue cntlid qid sqsize fab) ∧
      ConnectAnswered ctx cid { cqe 0 0 false with dw0 := cntlid }
        (d.connect ctx cid fab host sub cntlid qid sqsize kato) := by
  obtain ⟨hon, hquiet, hqueue, -⟩ := connects_iff.1 h
  obtain ⟨hctrls, hq, ha⟩ := connect_joined hon hquiet hqueue ((verdict_merits h).trans hv)
  exact ⟨hctrls, hq, ha.status⟩

end

end

end Sys2Proof.Proofs
end

section
/-! The statement on capsules, completions and controllers, clause by clause. -/

namespace Sys2Proof.Proofs

open Sys2Proof.Machine Sys2Proof.Laws

-- One proof after another: proofs that wait for a slow one would each hold a thread.
set_option Elab.async false

/-- Settles O18: completions, arrivals, deliveries, Connects, Fabrics commands and resets, each by the rule of its operation. -/
theorem nvmeQueues : Obligations.NvmeQueues := by
  unfold Obligations.NvmeQueues
  refine ⟨fun d key c t q ht hs hr hq => hostDone_answers ht hs hr hq,
    ?_, ?_, ?_, ?_, ?_, ?_, ?_, ?_, ?_, ?_, ?_, ?_, ?_, ?_, ?_, ?_, ?_, ?_, ?_, ?_, ?_, ?_, ?_, ?_, ?_, ?_, ?_, ?_, ?_, ?_,
    ?_, ?_, ?_, ?_, ?_, ?_, ?_, ?_, ?_, ?_, ?_⟩
  · intro s ctx nsgl sgl sqe seg q c hl hq hc hon hquiet hopen htag hadmin hop
    refine acts_of_act _ s _ _ (exec_capsuleArrival ..) hl ?_
    obtain ⟨ht, hqueue, hctrl, -, hevent⟩ := capsule_accepted_leaves (nsgl := nsgl) (sgl := sgl) (seg := seg)
      hq hc hon hquiet hopen htag (knownOn_admin hadmin hop) (goesFar_admin hadmin _)
    refine ⟨⟨_, ht, rfl, rfl, rfl, rfl, rfl⟩, ⟨_, hqueue, rfl⟩, ⟨_, hctrl, if_pos hadmin⟩, fun hroom hheld => ?_⟩
    rw [hevent hroom hheld]
    simp only [arrivalEvent, hadmin, if_true]
    rfl
  · intro s ctx nsgl sgl sqe seg q c hl hq hc hon hquiet hopen htag hio hop hfar
    refine acts_of_act _ s _ _ (exec_capsuleArrival ..) hl ?_
    obtain ⟨ht, hqueue, -, hfwd, hevent⟩ := capsule_accepted_leaves (nsgl := nsgl) (sgl := sgl) (seg := seg)
      hq hc hon hquiet hopen htag (knownOn_io hio hop) ((goesFar_io hio _).trans hfar)
    refine ⟨⟨_, ht, rfl, rfl⟩, ⟨_, hqueue, rfl⟩, hfwd, fun hroom hheld => ?_⟩
    rw [hevent hroom hheld]
    simp only [arrivalEvent, if_neg hio]
    rfl
  · intro s ctx nsgl sgl h sqe seg q c n hl hq hc hon hquiet hopen htag hio hop hns hana howner
    refine acts_of_act _ s _ _ (exec_capsuleArrival ..) hl ?_
    refine capsule_forwarded hq hc hon hquiet hopen htag (knownOn_io hio hop) ?_
    rw [goesFar_io hio, hns, Option.any_some, hana, Dev.ownsGroup, decide_eq_false howner]
    rfl
  · intro s ctx nsgl sgl sqe seg q c hl hq hc hon hquiet ho
    exact acts_of_act _ s _ _ (exec_capsuleArrival ..) hl (capsule_overrun_counts hq hc hon hquiet ho)
  · intro s ctx nsgl sgl sqe seg q c t hl hq hc hon hquiet hopen ht
    exact acts_of_act _ s _ _ (exec_capsuleArrival ..) hl (capsule_conflict_answers hq hc hon hquiet hopen ht)
  · intro s ctx nsgl sgl sqe seg q c hl hq hc hon hquiet hopen htag hk
    exact acts_of_act _ s _ _ (exec_capsuleArrival ..) hl (capsule_unknown_answers hq hc hon hquiet hopen htag hk)
  · exact fun s ctx nsgl sgl sqe seg hl h => settles_of_act (exec_capsuleArrival ..) hl (capsule_idle h)
  · intro s ctx cid left o hl ho hof hh hd
    refine acts_of_act _ s _ _ (exec_completionDelivered ..) hl ?_
    rw [delivered_inTime ho (.inr hh) hd, takenOut_tag hof]
    exact ⟨rfl, rfl, rfl, rfl⟩
  · intro s ctx cid left o hl ho hof hh hd hlate hc
    refine acts_of_act _ s _ _ (exec_completionDelivered ..) hl ?_
    have hhostq := delivered_late_hostq ho (.inr hh) hd hlate (by rw [takenOut_tag hof]; exact hc)
    rw [takenOut_tag hof] at hhostq
    rw [hhostq]
    exact ⟨rfl, rfl, delivered_late_fget ho (.inr hh) hd hlate⟩
  · intro s ctx cid left o hl ho hh hd hlate
    exact acts_of_act _ s _ _ (exec_completionDelivered ..) hl (delivered_late_fget ho hh hd hlate)
  · exact fun s ctx cid left o hl ho hof hh => settles_of_act (exec_completionDelivered ..) hl (delivered_held ho hof hh)
  · exact fun s ctx cid left hl ho => settles_of_act (exec_completionDelivered ..) hl (delivered_absent ho)
  · intro s ctx cid cntlid sqsize kato i k fab host sub u hl h h1 hm hk hmax hioq hfree
    refine acts_of_act _ s _ _ (exec_connect ..) hl ?_
    obtain ⟨hctrl, hqueue, o, ho, hctx, hcid, hsct, hsc, hdw0, -⟩ :=
      connects_creates (cid := cid) (cntlid := cntlid) (fab := fab) h h1 hm hk hmax hioq hfree
    exact ⟨⟨_, hctrl, rfl, rfl, rfl, rfl, rfl, rfl⟩, ⟨_, hqueue, rfl, rfl, rfl, rfl⟩, o, ho, hctx, hcid, hsct, hsc, hdw0⟩
  · intro s ctx cid cntlid sqsize kato i k fab host sub u e hl h he h1 hm hk hmax hioq hfree
    refine acts_of_act _ s _ _ (exec_connect ..) hl ?_
    obtain ⟨hctrl, hqueue, o, ho, hctx, hcid, hsct, hsc, hdw0, -⟩ :=
      connects_creates (cid := cid) (cntlid := cntlid) (fab := fab) h h1 hm hk hmax hioq hfree
    rw [show hostEntry s.dev host i = some e from he] at hctrl
    exact ⟨⟨_, hctrl, rfl, rfl, rfl, rfl, rfl⟩, ⟨_, hqueue, rfl, rfl, rfl, rfl⟩, o, ho, hctx, hcid, hsct, hsc, hdw0⟩
  · intro s ctx cid cntlid qid sqsize kato i fab host sub u x hl h h1 hm hqid hx hi hh hr hmaxq hone hioq
    refine acts_of_act _ s _ _ (exec_connect ..) hl ?_
    obtain ⟨hctrls, hqueue, o, ho, hctx, hcid, hsct, hsc, hdw0, -⟩ := connects_joins (cid := cid) (kato := kato) (fab := fab) h
      (verdictOn_joins h1 hm hqid hx hi hh hr hmaxq hone hioq)
    exact ⟨by rw [Dev.ctrl, hctrls]; exact hx, ⟨_, hqueue, rfl, rfl, rfl, rfl⟩, o, ho, hctx, hcid, hsct, hsc, hdw0⟩
  · intro s ctx cid cntlid qid sqsize kato fab host sub hl hon hquiet hqueue hsan hsub
    exact acts_of_act _ s _ _ (exec_connect ..) hl
      (connect_leaves_refused hon hquiet hqueue (verdict_unknown hsan hsub)).dnr
  · intro s ctx cid cntlid qid sqsize kato i fab host sub u hl hon hquiet hqueue hsan hsub hu he
    exact acts_of_act _ s _ _ (exec_connect ..) hl
      (connect_leaves_refused hon hquiet hqueue (verdict_forbidden hsan hsub hu he)).dnr
  · intro s ctx cid cntlid qid sqsize kato i fab host sub u hl h hsize
    exact acts_of_act _ s _ _ (exec_connect ..) hl (connects_leaves_refused h (verdictOn_size hsize)).result
  · intro s ctx cid cntlid sqsize kato i fab host sub u hl h h1 hm hk
    exact acts_of_act _ s _ _ (exec_connect ..) hl (connects_leaves_refused h (verdictOn_kato h1 hm hk)).status
  · intro s ctx cid cntlid sqsize kato i fab host sub u hl h h1 hm hk hfull
    exact acts_of_act _ s _ _ (exec_connect ..) hl (connects_leaves_refused h (verdictOn_full h1 hm hk hfull)).status
  · intro s ctx cid cntlid qid sqsize kato i fab host sub u x hl h h1 hm hqid hx hi hh hr hmaxq
    exact acts_of_act _ s _ _ (exec_connect ..) hl
      (connects_leaves_refused h (verdictOn_maxq h1 hm hqid hx hi hh hr hmaxq)).result
  · intro s ctx cid cntlid qid sqsize kato i fab host sub u hl h h1 hm hqid hx
    exact acts_of_act _ s _ _ (exec_connect ..) hl (connects_leaves_refused h (verdictOn_noCtrl h1 hm hqid hx)).result
  · intro s ctx cid cntlid qid sqsize kato fab host sub hl hon hquiet hqueue hsan
    exact acts_of_act _ s _ _ (exec_connect ..) hl
      (connect_leaves_refused hon hquiet hqueue (verdict_sanitizing hsan)).dnr
  · exact fun s ctx cid cntlid qid sqsize kato fab host sub hl h => settles_of_act (exec_connect ..) hl (connect_idle h)
  · exact fun s ctx cid off t x hl h hf ho => settles_of_act (exec_propertyGet ..) hl (propertyGet_takes h hf ho)
  · exact fun s ctx cid t x hl h hf ho hv hr => settles_of_act (exec_propertySet ..) hl (propertySet_enables h hf ho hv hr)
  · exact fun s ctx cid t x hl h hf ho hv hen =>
      settles_of_act (exec_propertySet ..) hl ((propertySet_disables h hf ho hv).trans (if_pos hen))
  · exact fun s ctx cid t x hl h hf ho hv hen =>
      settles_of_act (exec_propertySet ..) hl ((propertySet_disables h hf ho hv).trans (if_neg (by simp [hen])))
  · exact fun s ctx cid t x hl h hf ho => settles_of_act (exec_propertySet ..) hl (propertySet_fails h hf ho)
  · intro s ctx cid k t x c hl h hc hkeq hk
    subst hkeq
    obtain rfl | rfl : c = .propertyGet (.host ctx cid) ∨ c = .propertySet (.host ctx cid) := by simpa using hc
    · exact settles_of_act (exec_propertyGet ..) hl (property_other h hk (.inl rfl))
    · exact settles_of_act (exec_propertySet ..) hl (property_other h hk (.inr rfl))
  · exact fun d c x b hx ht hs => ⟨_, resetCtrl_quiet hx ht hs, rfl, rfl, rfl, rfl, rfl⟩
  · exact fun s ctx cid t hl ht ho hf hs hsan =>
      settles_of_act (exec_disconnect ..) hl ((disconnect_ends ht ho hf hs).trans (if_neg (by simp [hsan])))
  · exact fun s ctx cid t hl ht ho hf hs hsan =>
      settles_of_act (exec_disconnect ..) hl ((disconnect_ends ht ho hf hs).trans (if_pos hsan))
  · exact fun s ctx cid hl h => settles_of_act (exec_disconnect ..) hl (disconnect_other h)
  · exact fun d ctx q hq h => queueLost_admin hq h
  · exact fun d ctx q hq h => queueLost_io hq h
  · exact fun s c x hl hx hk hr hon => settles_of_act (exec_katoExpiry ..) hl (katoExpiry_resets hx hk hr hon)
  · exact fun s c hl h => settles_of_act (exec_katoExpiry ..) hl (katoExpiry_idle h)
  · exact fun s c x hl hx hr hd ho => settles_of_act (exec_controllerResetDrained ..) hl (resetDrained_ready hx hr ho hd)
  · exact fun s c x hl hx hr hd ho =>
      acts_of_act _ s _ _ (exec_controllerResetDrained ..) hl (resetDrained_drops hx hr ho hd)
  · exact fun s c hl h => settles_of_act (exec_controllerResetDrained ..) hl (resetDrained_waits h)

end Sys2Proof.Proofs
end

section
/-! SUPPORT. TALLY: the instants its ticks reach, the counters that ticks and events advance, and what a metering minute leaves
(R157, R464 to R477). -/

namespace Sys2Proof.Proofs

open Sys2Proof.Machine Sys2Proof.Laws

-- One proof after another: proofs that wait for a slow one would each hold a thread.
set_option Elab.async false

/-! ### Folds over numbered counters -/

/-- A fold in which one item takes `P` to `Q`, while every other keeps either, leads from `P` to `Q`. -/
theorem foldl_once {β : Type} {g : β → Nat → β} {P Q : β → Prop} {i : Nat} {l : List Nat} (hl : l.Nodup) (hi : i ∈ l)
    (hP : ∀ j ∈ l, j ≠ i → ∀ b, P b → P (g b j)) (hQ : ∀ j ∈ l, j ≠ i → ∀ b, Q b → Q (g b j)) (h : ∀ b, P b → Q (g b i))
    {b : β} (hb : P b) : Q (l.foldl g b) := by
  obtain ⟨s, t, rfl⟩ := List.append_of_mem hi
  have hn : i ∉ s ∧ i ∉ t := by
    rw [List.nodup_append] at hl
    obtain ⟨-, ht, hst⟩ := hl
    exact ⟨fun hs => hst i hs i List.mem_cons_self rfl, (List.nodup_cons.1 ht).1⟩
  rw [List.foldl_append, List.foldl_cons]
  have hs : P (s.foldl g b) := List.foldlRecOn (motive := P) s g hb fun c hc j hj =>
    hP j (List.mem_append_left _ hj) (by rintro rfl; exact hn.1 hj) c hc
  exact List.foldlRecOn (motive := Q) t g (h _ hs) fun c hc j hj =>
    hQ j (List.mem_append_right _ (List.mem_cons_of_mem _ hj)) (by rintro rfl; exact hn.2 hj) c hc

variable (d : Dev)

/-! ### Instants -/

/-- The next instant is a multiple of the period, and not behind. -/
theorem nextAt_spec {p : Nat} (hp : 0 < p) (now : Nat) (last : Option Nat) :
    now ≤ nextAt now p last ∧ nextAt now p last % p = 0 := by
  have hup : now ≤ (now + p - 1) / p * p := by
    have hmod := Nat.mod_add_div (now + p - 1) p
    have hlt := Nat.mod_lt (now + p - 1) hp
    rw [Nat.mul_comm p] at hmod
    omega
  unfold nextAt
  dsimp only
  split
  · next l =>
    split
    · exact ⟨hup, Nat.mul_mod_left _ _⟩
    · have hnext : l < (l / p + 1) * p := by
        rw [Nat.mul_comm]
        exact Nat.lt_mul_div_succ l hp
      exact ⟨by omega, Nat.mul_mod_left _ _⟩
  · exact ⟨hup, Nat.mul_mod_left _ _⟩

/-- Network time reaches the next instant, and nothing but TIME changes. -/
theorem jumpTo_nextAt {p : Nat} (hp : 0 < p) (last : Option Nat) : ∃ τ : Tim, d.now ≤ τ.ns ∧ τ.ns % p = 0 ∧
    nextAt d.now p last = τ.ns ∧ d.jumpTo (nextAt d.now p last) = { d with tim := τ } := by
  obtain ⟨hle, hmod⟩ := nextAt_spec hp d.now last
  unfold Dev.jumpTo
  split
  · exact ⟨_, hle, hmod, rfl, rfl⟩
  · next hlt =>
    have he : nextAt d.now p last = d.tim.ns := Nat.le_antisymm (Nat.le_of_not_lt hlt) hle
    exact ⟨d.tim, Nat.le_refl _, he ▸ hmod, he, rfl⟩

/-! ### Tenant counters (R464) -/

theorem tcount_counts {t i : Nat} (k : Nat) (hon : d.on 5 = true) (ht : t < 4096) (hi : i < 16) :
    (d.tcount t i k).tcntOf t i = d.tcntOf t i + BitVec.ofNat 64 k ∧
      ∀ j, j ≠ t * 16 + i → (d.tcount t i k).tally.tcnt.get j = d.tally.tcnt.get j := by
  have hc : (d.tcount t i k).tally.tcnt =
      d.tally.tcnt.set (t * 16 + i) (d.tally.tcnt.get (t * 16 + i) + BitVec.ofNat 64 k) := by
    unfold Dev.tcount
    rw [if_neg (by simp [hon]), Nat.mod_eq_of_lt ht, Nat.mod_eq_of_lt hi]
  refine ⟨?_, fun j hj => ?_⟩
  · rw [Dev.tcntOf, hc, get_set_self, Dev.tcntOf]
  · rw [hc, get_set_other _ _ _ _ hj]

theorem tcount_now (t i k : Nat) : (d.tcount t i k).now = d.now := by
  unfold Dev.tcount
  split <;> rfl

section
variable {d} {h : Nat} {n : Ns} (hon : d.on 5 = true) (hc : d.countedNs = [(h, n)])
include hon hc

/-- The second counts the capacity of the one namespace of the unit. -/
theorem secondTick_counts : ∃ τ : Tim, d.now ≤ τ.ns ∧ τ.ns % 1000000000 = 0 ∧ d.secondTick =
    { d with tim := τ, tally := { d.tally with lastSec := some τ.ns } }.tcount n.tenant 5
      ((n.nsze + d.mapSpan - 1) / d.mapSpan) := by
  obtain ⟨τ, hle, hmod, hat, hj⟩ := jumpTo_nextAt d (by decide : 0 < 1000000000) d.tally.lastSec
  refine ⟨τ, hle, hmod, ?_⟩
  unfold Dev.secondTick
  rw [if_neg (by simp [hon])]
  dsimp only
  rw [hj, hat]
  exact congrArg (List.foldl _ _) hc

/-- The millisecond counts its grade, or that its map is cold. -/
theorem msTick_counts : ∃ τ : Tim, d.now ≤ τ.ns ∧ τ.ns % 1000000 = 0 ∧ d.msTick =
    { d with tim := τ, tally := { d.tally with lastMs := some τ.ns } }.tcount n.tenant
      (if n.cold then 10 else 5 + n.grade) 1 := by
  obtain ⟨τ, hle, hmod, hat, hj⟩ := jumpTo_nextAt d (by decide : 0 < 1000000) d.tally.lastMs
  refine ⟨τ, hle, hmod, ?_⟩
  unfold Dev.msTick
  rw [if_neg (by simp [hon])]
  dsimp only
  rw [hj, hat]
  exact congrArg (List.foldl _ _) hc

end

theorem msTick_off (h : d.on 5 = false) : d.msTick = d := if_pos (by simp [h])

/-- The millisecond's counts leave HOSTQ as it is. -/
theorem msTick_hostq : d.msTick.hostq = d.hostq := by
  unfold Dev.msTick
  split
  · rfl
  · refine ((LeavesHost.refl _).foldl _ fun c _ _ => (LeavesHost.refl c).tcount _ _ _).hostq.trans ?_
    obtain ⟨τ, -, -, -, hj⟩ := jumpTo_nextAt d (by decide : 0 < 1000000) d.tally.lastMs
    rw [hj]

/-! ### Idle controllers (R157) -/

theorem retargetAll_clock {e : Dev} (h : e.tim = d.tim ∧ e.tally = d.tally) (ks : List Nat) :
    (e.retargetAll ks).tim = d.tim ∧ (e.retargetAll ks).tally = d.tally := by
  unfold Dev.retargetAll
  refine List.foldlRecOn (motive := fun e : Dev => e.tim = d.tim ∧ e.tally = d.tally) ks Dev.retarget h ?_
  rintro e ⟨htim, htally⟩ k -
  unfold Dev.retarget
  dsimp only
  split
  · simp only [post_tim, post_tally, setErr_tim, setErr_tally]
    exact ⟨htim, htally⟩
  · exact ⟨htim, htally⟩

theorem wake_clock : d.wake.tim = d.tim ∧ d.wake.tally = d.tally := by
  unfold Dev.wake
  split
  · exact ⟨rfl, rfl⟩
  · dsimp only
    refine retargetAll_clock d ?_ psDoms
    exact ⟨rfl, rfl⟩

/-- A move between power states touches neither TIME nor TALLY. -/
theorem requestPs_clock (ps : Nat) : (d.requestPs ps).tim = d.tim ∧ (d.requestPs ps).tally = d.tally := by
  unfold Dev.requestPs
  split
  · exact wake_clock d
  · dsimp only
    refine retargetAll_clock d ?_ psDoms
    split <;> exact ⟨rfl, rfl⟩

theorem apstMoves_clock : d.apstMoves.tim = d.tim ∧ d.apstMoves.tally = d.tally := by
  unfold Dev.apstMoves
  dsimp only
  split
  · exact requestPs_clock _ _
  · exact ⟨rfl, rfl⟩

/-- A controller alone and idle for its time asks for its next state. -/
theorem apstMoves_idle {k x : Nat} {c : Ctrl} (hc : d.hostq.ctrls = [(k, c)]) (ht : d.hostq.tags = [])
    (hx : c.apstNext d.now = some x) :
    d.apstMoves.hostq.ctrls = [(k, { c with apstPs := some x, idleSince := d.now })] := by
  unfold Dev.apstMoves
  simp only [Dev.openTags, ht, hc, hx, List.filter_nil, List.map_nil, List.isEmpty_nil, Bool.not_true, List.map_cons,
    Bool.false_eq_true, if_false]
  split
  · rw [((LeavesHost.refl _).hostPs).hostq]
  · rfl

/-! ### Registers under events of Warden's ring -/

theorem fget_post {g : FRef} {m : Nat} (b n c x : Nat) (h : regAddr g.blk m g.off ∉ ringRegs) :
    (d.post b n c x).fget g m = d.fget g m := by
  have hk := KeepsRegs.post (K := fun a => !ringRegs.contains a) (by decide) d b n c x
  exact hk.fget (by simpa using h)

/-! ### Threshold counters (R467) -/

/-- `e` is `d` but for threshold counters and Warden's event ring. -/
structure TicksThresholds (d e : Dev) : Prop where
  eq : e = { d with regs := e.regs, mem := e.mem, tally := { d.tally with thr := e.tally.thr } }
  regs : KeepsRegs (fun a => !ringRegs.contains a) d e

theorem TicksThresholds.refl : TicksThresholds d d := ⟨rfl, .refl d⟩

theorem TicksThresholds.trans {d e f : Dev} (h : TicksThresholds d e) (h' : TicksThresholds e f) : TicksThresholds d f :=
  ⟨by rw [h'.eq, h.eq], h.regs.trans h'.regs⟩

theorem post_ticks (b n c x : Nat) : TicksThresholds d (d.post b n c x) :=
  ⟨by rw [shows_post d b n c x], KeepsRegs.post (by decide) _ _ _ _ _⟩

/-- The occupancies that a valid counter may name are none of them in Warden's ring. -/
theorem occupancy_ticks {d e : Dev} (h : TicksThresholds d e) {w : Word} (hw : thrValid w = true) :
    e.occupancy (field w 55 48) (field w 47 40) = d.occupancy (field w 55 48) (field w 47 40) := by
  have hp : field w 55 48 = 0x0A → field w 47 40 ≤ 23 := by
    intro hsrc
    simp only [thrValid, hsrc, Bool.and_eq_true, Bool.or_eq_true, decide_eq_true_eq] at hw
    tauto
  have htth : ∀ p ≤ 23, ringRegs.contains (regAddr 0x17 p Reg.TTH_OPS.OUTSTANDING.off) = false := by decide
  have hfget {g : FRef} {m : Nat} (hg : ringRegs.contains (regAddr g.blk m g.off) = false) : e.fget g m = d.fget g m :=
    h.regs.fget (by rw [hg]; rfl)
  have hrest : e.pitch = d.pitch ∧ e.rope = d.rope ∧ e.xpt = d.xpt ∧ e.trans = d.trans ∧ e.swt = d.swt := by
    rw [h.eq]
    exact ⟨rfl, rfl, rfl, rfl, rfl⟩
  obtain ⟨hpitch, hrope, hxpt, htrans, hswt⟩ := hrest
  have hsled : field w 55 48 = 0x0A → e.fget Reg.TTH_OPS.OUTSTANDING (field w 47 40) =
      d.fget Reg.TTH_OPS.OUTSTANDING (field w 47 40) := fun hsrc => hfget (htth _ (hp hsrc))
  unfold Dev.occupancy Dev.egressBytes Dev.frameLen
  rw [hpitch, hrope, hxpt, htrans, hswt, hfget (g := Reg.SWT_OCC.CELLS) (by decide),
    hfget (g := Reg.SWT_OCC.DRAM_MIB) (by decide), hfget (g := Reg.LEDGER_OCC.WAITING) (by decide),
    hfget (g := Reg.MAP_STAGE.DIRTY) (by decide), hfget (g := Reg.JNL_OCC.BYTES) (by decide),
    hfget (g := Reg.LEDGER_OCC.ENG_PCT_NOW) (by decide)]
  by_cases hsrc : field w 55 48 = 0x0A
  · rw [hsled hsrc]
  · simp only [if_neg hsrc]

end Sys2Proof.Proofs
end

section
/-! SUPPORT. TALLY's threshold and sampling counters, port windows and metering minutes, case by case (R467 to R477). -/

namespace Sys2Proof.Proofs

open Sys2Proof.Machine Sys2Proof.Laws

-- One proof after another: proofs that wait for a slow one would each hold a thread.
set_option Elab.async false

variable (d : Dev)

/-! ### One threshold counter at one tick (R467) -/

/-- Does a tick count at the counter `t`: is it enabled, and does it name an occupancy? -/
def thrCounts (t : Thr) : Prop := field t.cfg 63 63 = 1 ∧ thrValid t.cfg = true

/-- Does its occupancy stand above LEVEL? -/
def thrAbove (d : Dev) (t : Thr) : Bool := decide (field t.cfg 31 0 < d.occupancy (field t.cfg 55 48) (field t.cfg 47 40))

theorem thrTickAt_ticks (i : Nat) : TicksThresholds d (d.thrTickAt i) := by
  unfold Dev.thrTickAt
  split
  · exact .refl d
  · extract_lets src above quiet posts t' e
    split
    · exact .refl d
    · have he : TicksThresholds d e := ⟨rfl, .of_regs rfl⟩
      split
      · exact he.trans (post_ticks e _ _ _ _)
      · exact he

theorem thrTickAt_other {i j : Nat} (h : j ≠ i) :
    Tab.look (d.thrTickAt i).tally.thr j = Tab.look d.tally.thr j := by
  unfold Dev.thrTickAt
  split
  · rfl
  · extract_lets src above quiet posts t' e
    have he : Tab.look e.tally.thr j = Tab.look d.tally.thr j := look_put_other _ _ _ _ h
    split
    · rfl
    · split
      · rw [post_tally]
        exact he
      · exact he

theorem thrTickAt_self {i : Nat} {t : Thr} (ht : Tab.look d.tally.thr i = some t) (hc : thrCounts t) :
    ∃ t', Tab.look (d.thrTickAt i).tally.thr i = some t' ∧ t'.cfg = t.cfg ∧ t'.above = thrAbove d t ∧
      t'.ticks = (t.ticks + b2n (thrAbove d t)) % 2 ^ 64 := by
  obtain ⟨hen, hvalid⟩ := hc
  unfold Dev.thrTickAt
  split
  · next h => rw [ht] at h; cases h
  · next t₁ h =>
    obtain rfl : t = t₁ := Option.some.inj (ht.symm.trans h)
    extract_lets above quiet posts t' src e
    rw [if_neg (by simp [hen, hvalid])]
    refine ⟨t', ?_, rfl, rfl, rfl⟩
    have he : Tab.look e.tally.thr i = some t' := look_put_self _ _ _
    split
    · rw [post_tally]
      exact he
    · exact he

/-- Each of the 64 counters ticks once. -/
theorem thrTick_self {i : Nat} {t : Thr} (hon : d.on 5 = true) (hf : d.frozen = false) (hi : i < 64)
    (ht : Tab.look d.tally.thr i = some t) (hc : thrCounts t) :
    ∃ t', Tab.look d.thrTick.tally.thr i = some t' ∧ t'.cfg = t.cfg ∧ t'.above = thrAbove d t ∧
      t'.ticks = (t.ticks + b2n t'.above) % 2 ^ 64 := by
  have hfold : d.thrTick = (List.range 64).foldl Dev.thrTickAt d := if_neg (by simp [hon, hf])
  rw [hfold]
  refine foldl_once (P := fun e => TicksThresholds d e ∧ Tab.look e.tally.thr i = some t) (i := i)
    (Q := fun e => ∃ t', Tab.look e.tally.thr i = some t' ∧ t'.cfg = t.cfg ∧ t'.above = thrAbove d t ∧
      t'.ticks = (t.ticks + b2n t'.above) % 2 ^ 64)
    List.nodup_range (List.mem_range.2 hi) ?_ ?_ ?_ ⟨.refl d, ht⟩
  · rintro j - hj e ⟨he, hl⟩
    exact ⟨he.trans (thrTickAt_ticks e j), (thrTickAt_other e hj.symm).trans hl⟩
  · rintro j - hj e ⟨t', hl, hrest⟩
    exact ⟨t', (thrTickAt_other e hj.symm).trans hl, hrest⟩
  · rintro e ⟨he, hl⟩
    obtain ⟨t', hl', hcfg, habove, hticks⟩ := thrTickAt_self e hl hc
    have hsame : thrAbove e t = thrAbove d t := by rw [thrAbove, occupancy_ticks he hc.2, ← thrAbove]
    exact ⟨t', hl', hcfg, habove.trans hsame, by rw [hticks, habove]⟩

/-! ### One sampling counter and one event (R469) -/

/-- The configuration and the count of a sampling counter. -/
def sampCfg (i : Nat) : Nat := regAddr 5 0 (Reg.TLY_SAMP_CFG.EN.nth i).off
def sampCnt (i : Nat) : Nat := regAddr 5 0 (Reg.TLY_SAMP_CNT.COUNT.nth i).off

theorem sampCfg_eq (i : Nat) : sampCfg i = 0x500300 + 8 * i := by
  show 0x500000 + (0x300 + 8 * i) = _
  omega

theorem sampCnt_eq (i : Nat) : sampCnt i = 0x500380 + 8 * i := by
  show 0x500000 + (0x380 + 8 * i) = _
  omega

/-- Does the counter count an event of a source, with its tenant where it has one? -/
def SampleFits (d : Dev) (src : Nat) (tenant : Option Nat) (i : Nat) : Prop :=
  d.fget (Reg.TLY_SAMP_CFG.EN.nth i) = 1 ∧ d.fget (Reg.TLY_SAMP_CFG.SOURCE.nth i) = src ∧
    (d.fget (Reg.TLY_SAMP_CFG.TEN_FILTER.nth i) = 0 ∨ tenant = some (d.fget (Reg.TLY_SAMP_CFG.TENANT.nth i)))

/-- That hangs on its configuration alone. -/
theorem SampleFits.congr {d e : Dev} {i : Nat} (h : KeepsRegs (fun a => a == sampCfg i) d e) (src : Nat)
    (tenant : Option Nat) : SampleFits e src tenant i ↔ SampleFits d src tenant i := by
  have hf {g : FRef} (hg : regAddr g.blk 0 g.off = sampCfg i) : e.fget g = d.fget g := h.fget (by simp [hg])
  unfold SampleFits
  rw [hf (g := Reg.TLY_SAMP_CFG.EN.nth i) rfl, hf (g := Reg.TLY_SAMP_CFG.SOURCE.nth i) rfl,
    hf (g := Reg.TLY_SAMP_CFG.TEN_FILTER.nth i) rfl, hf (g := Reg.TLY_SAMP_CFG.TENANT.nth i) rfl]

theorem sampleAt_unfit {src i : Nat} {tenant : Option Nat} (h : ¬ SampleFits d src tenant i) :
    d.sampleAt src tenant i = d := by
  unfold Dev.sampleAt
  exact if_pos (by rw [Bool.not_eq_true', decide_eq_false_iff_not]; exact h)

theorem sampleAt_fit {src i : Nat} {tenant : Option Nat} (h : SampleFits d src tenant i) :
    d.sampleAt src tenant i =
      (let e := d.fset (Reg.TLY_SAMP_CNT.COUNT.nth i) (d.fget (Reg.TLY_SAMP_CNT.COUNT.nth i) + 1)
       if d.fget (Reg.TLY_SAMP_CNT.COUNT.nth i) = 0xFFFFFFFF then (e.fset (Reg.TLY_SAMP_CNT.OVF.nth i) 1).post 5 0 0x172 i
       else e) := by
  unfold Dev.sampleAt
  exact if_neg (by rw [Bool.not_eq_true', decide_eq_false_iff_not, not_not]; exact h)

/-- All registers but a counter's own count and Warden's ring. -/
def sampRest (i a : Nat) : Bool := !ringRegs.contains a && !(a == sampCnt i)

theorem sampleAt_keeps (src : Nat) (tenant : Option Nat) (i : Nat) :
    KeepsRegs (sampRest i) d (d.sampleAt src tenant i) := by
  have hcnt {g : FRef} (hg : regAddr g.blk 0 g.off = sampCnt i) : sampRest i (regAddr g.blk 0 g.off) = false := by
    simp [sampRest, hg]
  by_cases h : SampleFits d src tenant i
  · rw [sampleAt_fit d h]
    have hc := KeepsRegs.fset (K := sampRest i) (g := Reg.TLY_SAMP_CNT.COUNT.nth i) (n := 0) d
      (d.fget (Reg.TLY_SAMP_CNT.COUNT.nth i) + 1) (hcnt rfl)
    dsimp only
    split
    · refine (hc.trans (.fset _ _ (hcnt rfl))).trans (.post ?_ _ _ _ _ _)
      intro a ha
      simp [sampRest, ha]
    · exact hc
  · rw [sampleAt_unfit d h]
    exact .refl d

/-- A counter's registers stay while another counts. -/
theorem sampleAt_other {src i j : Nat} {tenant : Option Nat} (hi : i < 16) (hj : j < 16) (h : j ≠ i) :
    KeepsRegs (fun a => a == sampCfg i || a == sampCnt i) d (d.sampleAt src tenant j) := by
  intro a ha
  refine sampleAt_keeps d src tenant j a ?_
  have hcfg := sampCfg_eq i
  have hcnt := sampCnt_eq i
  have hcntj := sampCnt_eq j
  simp only [Bool.or_eq_true, beq_iff_eq] at ha
  simp only [sampRest, ringRegs, Bool.and_eq_true, Bool.not_eq_true', List.contains_eq_mem, decide_eq_false_iff_not, List.mem_cons,
    List.not_mem_nil, or_false, beq_eq_false_iff_ne]
  omega

/-- What a fitting event leaves of the count, and of OVF when it wraps (log 9). -/
def Counted (d e : Dev) (i : Nat) : Prop :=
  e.fget (Reg.TLY_SAMP_CNT.COUNT.nth i) = (d.fget (Reg.TLY_SAMP_CNT.COUNT.nth i) + 1) % 2 ^ 32 ∧
    (d.fget (Reg.TLY_SAMP_CNT.COUNT.nth i) = 2 ^ 32 - 1 → e.fget (Reg.TLY_SAMP_CNT.OVF.nth i) = 1)

theorem sampleAt_counts {src i : Nat} {tenant : Option Nat} (hi : i < 16) (h : SampleFits d src tenant i) :
    Counted d (d.sampleAt src tenant i) i := by
  have hring : ∀ i < 16, regAddr 5 0 (0x380 + 8 * i) ∉ ringRegs := by decide
  rw [sampleAt_fit d h]
  dsimp only
  have hc : (d.fset (Reg.TLY_SAMP_CNT.COUNT.nth i) (d.fget (Reg.TLY_SAMP_CNT.COUNT.nth i) + 1)).fget
      (Reg.TLY_SAMP_CNT.COUNT.nth i) = (d.fget (Reg.TLY_SAMP_CNT.COUNT.nth i) + 1) % 2 ^ 32 :=
    fget_fset d (Reg.TLY_SAMP_CNT.COUNT.nth i) _ 0 (by decide : 0 ≤ 31) (by decide : 31 < 64)
  split
  · refine ⟨?_, fun _ => ?_⟩
    · rw [fget_post _ _ _ _ _ (hring i hi), fget_fset_apart _ 1
        ⟨(by decide : 32 ≤ 32), (by decide : 32 < 64), (by decide : 0 ≤ 31), .inr (.inl (by decide : 31 < 32))⟩]
      exact hc
    · rw [fget_post _ _ _ _ _ (hring i hi)]
      exact fget_fset _ (Reg.TLY_SAMP_CNT.OVF.nth i) 1 0 (by decide : 32 ≤ 32) (by decide : 32 < 64)
  · next hne => exact ⟨hc, fun he => absurd he hne⟩

/-- An event reaches each counter once. -/
theorem sample_on {src : Nat} (tenant : Option Nat) (hon : d.on 5 = true) (hf : d.frozen = false) (h1 : 1 ≤ src)
    (h2 : src ≤ 0x13) : d.sample src tenant = (List.range 16).foldl (fun e i => e.sampleAt src tenant i) d := by
  unfold Dev.sample
  refine if_neg ?_
  simp only [hon, hf, Bool.not_true, Bool.or_false, Bool.false_or, Bool.or_eq_true, decide_eq_true_eq]
  omega

theorem sample_off {src : Nat} (tenant : Option Nat) (h : d.frozen = true ∨ d.on 5 = false ∨ src = 0 ∨ 0x13 < src) :
    d.sample src tenant = d := by
  unfold Dev.sample
  exact if_pos (by rcases h with h | h | h | h <;> simp [h])

theorem sample_counts {src i : Nat} {tenant : Option Nat} (hon : d.on 5 = true) (hf : d.frozen = false) (h1 : 1 ≤ src)
    (h2 : src ≤ 0x13) (hi : i < 16) (h : SampleFits d src tenant i) : Counted d (d.sample src tenant) i := by
  rw [sample_on d tenant hon hf h1 h2]
  have hmine {e f : Dev} (hk : KeepsRegs (fun a => a == sampCfg i || a == sampCnt i) e f) {g : FRef}
      (hg : regAddr g.blk 0 g.off = sampCnt i) : f.fget g = e.fget g := hk.fget (by simp [hg])
  refine foldl_once (P := KeepsRegs (fun a => a == sampCfg i || a == sampCnt i) d) (Q := fun e => Counted d e i)
    List.nodup_range (List.mem_range.2 hi) ?_ ?_ ?_ (.refl d)
  · exact fun j hj hne e he => he.trans (sampleAt_other e hi (List.mem_range.1 hj) hne)
  · rintro j hj hne e ⟨hcount, hovf⟩
    have hk := sampleAt_other e (src := src) (tenant := tenant) hi (List.mem_range.1 hj) hne
    exact ⟨(hmine hk rfl).trans hcount, fun hfull => (hmine hk rfl).trans (hovf hfull)⟩
  · intro e he
    have hfit : SampleFits e src tenant i := (SampleFits.congr (fun a ha => he a (by simp_all)) src tenant).2 h
    obtain ⟨hcount, hovf⟩ := sampleAt_counts e hi hfit
    rw [hmine he rfl] at hcount hovf
    exact ⟨hcount, hovf⟩

/-- A counter that the event does not fit keeps its count. -/
theorem sample_unfit {src i : Nat} {tenant : Option Nat} (hi : i < 16) (h : ¬ SampleFits d src tenant i) :
    (d.sample src tenant).fget (Reg.TLY_SAMP_CNT.COUNT.nth i) = d.fget (Reg.TLY_SAMP_CNT.COUNT.nth i) := by
  suffices hk : KeepsRegs (fun a => a == sampCfg i || a == sampCnt i) d (d.sample src tenant) from
    hk.fget (g := Reg.TLY_SAMP_CNT.COUNT.nth i) (m := 0) (by simp [sampCnt, FRef.nth, Reg.TLY_SAMP_CNT.COUNT])
  unfold Dev.sample
  split
  · exact .refl d
  · refine List.foldlRecOn (motive := KeepsRegs (fun a => a == sampCfg i || a == sampCnt i) d) _ _ (.refl d) fun e he j hj => ?_
    by_cases hji : j = i
    · subst hji
      rw [sampleAt_unfit e fun hfit => h ((SampleFits.congr (fun a ha => he a (by simp_all)) src tenant).1 hfit)]
      exact he
    · exact he.trans (sampleAt_other e hi (List.mem_range.1 hj) hji)

/-! ### Port windows and freeze (R468, R471) -/

theorem windowEnd_off (h : d.on 5 = false ∨ d.fget Reg.TLY_WIN_CFG.MS = 0) : d.windowEnd = d := by
  unfold Dev.windowEnd
  exact if_pos (by rcases h with h | h <;> simp [h])

/-- The greatest counts of each port with those of the window that ends, in KiB. -/
def windowPeaks (t : Tally) : Tab (Nat × Nat) :=
  t.cur.foldl (fun (acc : Tab (Nat × Nat)) (x : Nat × PortWin) =>
    let o := (Tab.look acc x.1).getD (0, 0)
    Tab.put acc x.1 (max o.1 (min (x.2.rxb / 1024) 0xFFFFFFFF), max o.2 (min (x.2.txb / 1024) 0xFFFFFFFF))) t.peak

/-- A window ends: it completes, is held while frozen, or starts anew after a release. -/
theorem windowEnd_on (hon : d.on 5 = true) (hms : d.fget Reg.TLY_WIN_CFG.MS ≠ 0) : ∃ τ : Tim,
    d.now ≤ τ.ns ∧ τ.ns % (d.fget Reg.TLY_WIN_CFG.MS * 1000000) = 0 ∧ d.windowEnd =
      (let e := { d with tim := τ, tally := { d.tally with lastWin := some τ.ns } }
       if d.frozen then e
       else if d.tally.restart then { e with tally := { e.tally with restart := false, cur := [] } }
       else { e with tally := { e.tally with done := d.tally.cur, cur := [], peak := windowPeaks d.tally } }.fset Reg.TLY_WIN_END.NS τ.ns) := by
  obtain ⟨τ, hle, hmod, hat, hj⟩ := jumpTo_nextAt d (by omega : 0 < d.fget Reg.TLY_WIN_CFG.MS * 1000000) d.tally.lastWin
  refine ⟨τ, hle, hmod, ?_⟩
  unfold Dev.windowEnd
  dsimp only
  rw [if_neg (by simp [hon, hms]), hj, hat]
  rfl

theorem freezeWrite_fields (frozen onTrig : Bool) : (d.freezeWrite frozen onTrig).fget Reg.TLY_FREEZE.FROZEN = b2n frozen ∧
    (d.freezeWrite frozen onTrig).fget Reg.TLY_FREEZE.ON_TRIG = b2n onTrig := by
  have hlt (b : Bool) : b2n b % 2 = b2n b := by cases b <;> rfl
  have hf : (d.freeze frozen).fget Reg.TLY_FREEZE.FROZEN = b2n frozen := by
    rw [← hlt]
    refine Eq.trans ?_ (fget_fset d Reg.TLY_FREEZE.FROZEN (b2n frozen) 0 (by decide) (by decide))
    unfold Dev.freeze
    dsimp only
    split <;> rfl
  refine ⟨(fget_fset_apart _ _ (by decide)).trans hf, ?_⟩
  rw [← hlt]
  exact fget_fset _ Reg.TLY_FREEZE.ON_TRIG (b2n onTrig) 0 (by decide) (by decide)

theorem freezeWrite_tally (frozen onTrig : Bool) : (d.freezeWrite frozen onTrig).tally =
    if d.frozen && !frozen then { d.tally with restart := true, cur := [] } else d.tally := by
  unfold Dev.freezeWrite Dev.freeze
  dsimp only
  split <;> rfl

/-! ### Metering (R474, R475, R477) -/

section
variable {d}

/-- TALLY meters: it is in service, metering is enabled, network time is monotonic, and no batch waits for its signature. -/
def Meters (d : Dev) : Prop :=
  d.on 5 = true ∧ d.fget Reg.TLY_METER_CFG.EN = 1 ∧ d.fget Reg.TIM_STATUS.MONO = 1 ∧ d.tally.signing = none

theorem meterBoundary_off (h : d.fget Reg.TLY_METER_CFG.EN = 0 ∨ d.on 5 = false ∨ d.fget Reg.TIM_STATUS.MONO = 0 ∨
    d.tally.signing.isSome = true) : d.meterBoundary = d := by
  unfold Dev.meterBoundary
  exact if_pos (by rcases h with h | h | h | h <;> simp [h])

/-- The device at a metering boundary. -/
def atMinute (d : Dev) (τ : Tim) : Dev := { d with tim := τ, tally := { d.tally with lastMin := some τ.ns } }

/-- The batch of the minutes since `start` (R475). -/
def minuteBatch (d : Dev) (start : Nat) (τ : Tim) : Batch :=
  let span := decide (start + minuteNs < τ.ns)
  { bytes := (atMinute d τ).batchBytes start τ.ns (d.tally.seq + 1) span, seq := d.tally.seq + 1, endNs := τ.ns, span := span }

/-- The device once a batch is latched and waits for its signature. -/
def minuteLatched (d : Dev) (τ : Tim) (b : Batch) : Dev :=
  let e := atMinute d τ
  { e with
    mem := { e.mem with dram := e.mem.dram.setBytes d.meterSlot b.bytes }
    tally := { e.tally with
      signing := some b, seq := d.tally.seq + 1, base := some τ.ns, latch := d.tally.tcnt
      held := false } }

/-- What a boundary leaves once the baseline stands. -/
def minuteEnds (d : Dev) (start : Nat) (τ : Tim) : Dev :=
  let e := atMinute d τ
  let slots := d.fget Reg.TLY_METER_RING.SLOTS
  if slots = 0 ∨ (d.fget Reg.TLY_METER_IDX.HEAD + 1) % slots = d.fget Reg.TLY_METER_IDX.TAIL % slots then
    let f := e.bump Reg.TLY_METER_GAPS.HELD
    if d.tally.held then f else Dev.post { f with tally := { f.tally with held := true } } 5 0 0x173 τ.ns
  else
    let f := minuteLatched d τ (minuteBatch d start τ)
    if (minuteBatch d start τ).span then f.bump Reg.TLY_METER_GAPS.SPANS else f

section
variable (hm : Meters d)
include hm

theorem meterBoundary_eq : ∃ τ : Tim, d.now ≤ τ.ns ∧ τ.ns % minuteNs = 0 ∧ d.meterBoundary =
    match d.tally.base with
    | none => { atMinute d τ with tally := { (atMinute d τ).tally with base := some τ.ns, latch := d.tally.tcnt } }
    | some start => minuteEnds d start τ := by
  obtain ⟨hon, hen, hmono, hsign⟩ := hm
  obtain ⟨τ, hle, hmod, hat, hj⟩ := jumpTo_nextAt d (by decide : 0 < minuteNs) d.tally.lastMin
  refine ⟨τ, hle, hmod, ?_⟩
  unfold Dev.meterBoundary
  dsimp only
  rw [if_neg (by simp [hon, hen, hmono, hsign]), hj, hat]
  rfl

end

end

end Sys2Proof.Proofs
end

section
/-! TALLY's ticks, counters, windows and metering (R157, R464, R467 to R471, R474, R475, R477). -/

namespace Sys2Proof.Proofs

open Sys2Proof.Machine Sys2Proof.Laws

-- One proof after another: proofs that wait for a slow one would each hold a thread.
set_option Elab.async false

variable {d : Dev}

/-- The ways in which a counter that filters by tenant does not fit an event (R469). -/
theorem not_sampleFits_tenant {src tenant i : Nat} (hf : d.fget (Reg.TLY_SAMP_CFG.TEN_FILTER.nth i) ≠ 0)
    (h : sourceNames src = false ∨ d.fget (Reg.TLY_SAMP_CFG.TENANT.nth i) ≠ tenant % 4096) :
    ¬ SampleFits d src (if sourceNames src then some (tenant % 4096) else none) i := by
  rintro ⟨-, -, h0 | ht⟩
  · exact hf h0
  · rcases h with h | h
    · simp [h] at ht
    · split at ht
      · exact h (Option.some.inj ht).symm
      · cases ht

/-- The boundary of a full ring is held (R477). -/
theorem minuteEnds_full {start : Nat} {τ : Tim} {slots : Nat} (hslots : slots = d.fget Reg.TLY_METER_RING.SLOTS)
    (hfull : slots = 0 ∨ (d.fget Reg.TLY_METER_IDX.HEAD + 1) % slots = d.fget Reg.TLY_METER_IDX.TAIL % slots) :
    (minuteEnds d start τ).tally = { d.tally with lastMin := some τ.ns, held := true } ∧
      (minuteEnds d start τ).mem.dram = d.mem.dram ∧
      (minuteEnds d start τ).fget Reg.TLY_METER_GAPS.HELD = (d.fget Reg.TLY_METER_GAPS.HELD + 1) % 2 ^ 32 := by
  subst hslots
  have hheld := fget_bump (atMinute d τ) Reg.TLY_METER_GAPS.HELD 1 0 (by decide) (by decide)
  unfold minuteEnds
  dsimp only
  rw [if_pos hfull]
  split
  · next h => exact ⟨by rw [show ((atMinute d τ).bump Reg.TLY_METER_GAPS.HELD).tally = (atMinute d τ).tally from rfl, atMinute, ← h], rfl, hheld⟩
  · exact ⟨post_tally .., post_dram .., (fget_post _ _ _ _ _ (by decide)).trans hheld⟩

/-- A boundary with room in the ring latches the batch of the minutes since the last (R475). -/
theorem minuteEnds_room {start : Nat} {τ : Tim} {slots : Nat} (hslots : slots = d.fget Reg.TLY_METER_RING.SLOTS)
    (h0 : slots ≠ 0)
    (hroom : (d.fget Reg.TLY_METER_IDX.HEAD + 1) % slots ≠ d.fget Reg.TLY_METER_IDX.TAIL % slots) :
    (minuteEnds d start τ).tim = τ ∧
      (minuteEnds d start τ).tally = { d.tally with
        lastMin := some τ.ns, signing := some (minuteBatch d start τ), seq := d.tally.seq + 1, base := some τ.ns,
        latch := d.tally.tcnt, held := false } ∧
      (minuteEnds d start τ).mem.dram = d.mem.dram.setBytes d.meterSlot (minuteBatch d start τ).bytes ∧
      (minuteEnds d start τ).fget Reg.TLY_METER_GAPS.SPANS =
        (d.fget Reg.TLY_METER_GAPS.SPANS + b2n (minuteBatch d start τ).span) % 2 ^ 32 := by
  subst hslots
  have he : minuteEnds d start τ = if (minuteBatch d start τ).span = true then
      (minuteLatched d τ (minuteBatch d start τ)).bump Reg.TLY_METER_GAPS.SPANS
      else minuteLatched d τ (minuteBatch d start τ) := if_neg (by rintro (h | h); exacts [h0 h, hroom h])
  rw [he]
  generalize minuteBatch d start τ = b
  split
  · next hs =>
    rw [hs]
    exact ⟨rfl, rfl, rfl, fget_bump (minuteLatched d τ b) Reg.TLY_METER_GAPS.SPANS 1 0 (by decide) (by decide)⟩
  · next hs =>
    rw [Bool.not_eq_true] at hs
    rw [hs]
    exact ⟨rfl, rfl, rfl, (Nat.mod_eq_of_lt (fget_lt d Reg.TLY_METER_GAPS.SPANS 0)).symm⟩

/-- A signature puts its batch in the ring, whose head wraps (R475). -/
theorem meterSigned_leaves {b : Batch} (hb : d.tally.signing = some b) :
    d.meterSigned.tally = { d.tally with signing := none } ∧
      d.meterSigned.fget Reg.TLY_METER_IDX.HEAD =
        (if d.fget Reg.TLY_METER_IDX.HEAD + 1 < d.fget Reg.TLY_METER_RING.SLOTS then d.fget Reg.TLY_METER_IDX.HEAD + 1 else 0) ∧
      d.meterSigned.fget Reg.TLY_METER_SEQ.VALUE = b.seq % 2 ^ 64 ∧
      d.meterSigned.fget Reg.TLY_METER_END.VALUE = b.endNs % 2 ^ 64 ∧
      d.meterSigned.fget Reg.ANC_SIGNS.METER = (d.fget Reg.ANC_SIGNS.METER + 1) % 2 ^ 32 ∧
      d.meterSigned.mem.dram = d.mem.dram.setBytes (d.meterSlot + b.bytes.length)
        (Config.ed448Sign d.meterSeed b.bytes ++ List.replicate 14 0) := by
  have hslots : d.fget Reg.TLY_METER_RING.SLOTS < 128 := fget_lt d Reg.TLY_METER_RING.SLOTS 0
  unfold Dev.meterSigned
  split
  · next h => rw [hb] at h; cases h
  next b' h =>
  obtain rfl : b = b' := Option.some.inj (hb.symm.trans h)
  extract_lets sig slots head mem tal e f g
  have hhead : f.fget Reg.TLY_METER_IDX.HEAD = (if head + 1 < slots then head + 1 else 0) := by
    refine (fget_fset e Reg.TLY_METER_IDX.HEAD _ 0 (by decide) (by decide)).trans (Nat.mod_eq_of_lt ?_)
    show _ < 128
    split <;> omega
  have hsigns : g.fget Reg.ANC_SIGNS.METER = d.fget Reg.ANC_SIGNS.METER :=
    (fget_fset_apart _ _ (by decide)).trans ((fget_fset_apart _ _ (by decide)).trans (fget_fset_apart e _ (by decide)))
  have hring {r : FRef} (hr : regAddr r.blk 0 r.off ∉ ringRegs) :
      ((g.bump Reg.ANC_SIGNS.METER).post 5 0 0x170 b.seq).fget r = (g.bump Reg.ANC_SIGNS.METER).fget r := fget_post _ _ _ _ _ hr
  refine ⟨post_tally .., ?_, ?_, ?_, ?_, post_dram ..⟩
  · rw [hring (by decide), ← hhead]
    exact (fget_fset_apart _ _ (by decide)).trans ((fget_fset_apart _ _ (by decide)).trans (fget_fset_apart _ _ (by decide)))
  · rw [hring (by decide)]
    exact (fget_fset_apart _ _ (by decide)).trans ((fget_fset_apart _ _ (by decide)).trans
      (fget_fset f Reg.TLY_METER_SEQ.VALUE b.seq 0 (by decide) (by decide)))
  · rw [hring (by decide)]
    exact (fget_fset_apart _ _ (by decide)).trans (fget_fset _ Reg.TLY_METER_END.VALUE b.endNs 0 (by decide) (by decide))
  · rw [hring (by decide), ← hsigns]
    exact fget_bump g Reg.ANC_SIGNS.METER 1 0 (by decide) (by decide)

/-- Settles O40: ticks, counters, windows and metering minutes, each by the rule of its operation. -/
theorem tally : Obligations.Tally := by
  unfold Obligations.Tally
  refine ⟨?_, ?_, ?_, ?_, ?_, ?_, ?_, ?_, ?_, ?_, ?_, ?_, ?_, ?_, ?_, ?_, ?_, ?_, ?_, ?_, ?_⟩
  · intro s h n hl hon hc ht
    obtain ⟨τ, hle, hmod, he⟩ := secondTick_counts hon hc
    refine runs_of_upd _ s _ _ (exec_capacitySecondTick s) hl ?_
    rw [he, tcount_now]
    exact ⟨hmod, hle, tcount_counts _ _ hon ht (by decide)⟩
  · intro s h n hl hon hc ht hcold hg
    obtain ⟨τ, hle, hmod, he⟩ := msTick_counts hon hc
    obtain ⟨htim, htally⟩ := apstMoves_clock s.dev.msTick
    refine runs_of_upd _ s _ _ (exec_gradeMsTick s) hl ?_
    rw [Dev.now, Dev.tcntOf, htim, htally, he, hcold, ← Dev.now, tcount_now]
    exact ⟨hmod, hle, tcount_counts _ _ hon ht (by rw [if_neg Bool.false_ne_true]; omega)⟩
  · intro s h n hl hon hc ht hcold
    obtain ⟨τ, -, -, he⟩ := msTick_counts hon hc
    refine runs_of_upd _ s _ _ (exec_gradeMsTick s) hl ?_
    rw [Dev.tcntOf, (apstMoves_clock s.dev.msTick).2, he, hcold]
    exact (tcount_counts { s.dev with tim := τ, tally := { s.dev.tally with lastMs := some τ.ns } } 1 hon ht
      (by decide : 10 < 16)).1
  · intro s k x c hl hc ht hx
    refine runs_of_upd _ s _ _ (exec_gradeMsTick s) hl (apstMoves_idle _ ?_ ?_ hx)
    · rw [msTick_hostq, hc]
    · rw [msTick_hostq, ht]
  · intro s hl hoff
    refine ⟨gives_of_upd (exec_capacitySecondTick s) hl (if_pos (by simp [hoff])), gives_of_upd (exec_gradeMsTick s) hl ?_,
      gives_of_upd (exec_thresholdTick s) hl (if_pos (by simp [hoff])),
      gives_of_upd (exec_portWindowEnd s) hl (windowEnd_off _ (.inl hoff))⟩
    rw [msTick_off _ hoff]
  · intro s i t hl hon hf hi ht hen hv
    refine runs_of_upd _ s _ _ (exec_thresholdTick s) hl ?_
    exact thrTick_self s.dev hon hf hi ht ⟨hen, hv⟩
  · exact fun s hl hf => gives_of_upd (exec_thresholdTick s) hl (if_pos (by simp [hf]))
  · exact fun s hl hms => gives_of_upd (exec_portWindowEnd s) hl (windowEnd_off _ (.inr hms))
  · intro s hl hon hms hf
    obtain ⟨τ, hle, -, he⟩ := windowEnd_on s.dev hon hms
    refine runs_of_upd _ s _ _ (exec_portWindowEnd s) hl ?_
    rw [he, hf]
    exact ⟨rfl, hle, rfl⟩
  · intro s hl hon hms hf hr
    obtain ⟨τ, hle, hmod, he⟩ := windowEnd_on s.dev hon hms
    refine runs_of_upd _ s _ _ (exec_portWindowEnd s) hl ?_
    rw [he, hf, hr]
    exact ⟨rfl, rfl, hle, hmod, fget_fset _ Reg.TLY_WIN_END.NS τ.ns 0 (by decide) (by decide)⟩
  · intro s hl hon hms hf hr
    obtain ⟨τ, -, -, he⟩ := windowEnd_on s.dev hon hms
    refine runs_of_upd _ s _ _ (exec_portWindowEnd s) hl ?_
    rw [he, hf, hr]
    exact ⟨rfl, rfl, rfl, rfl⟩
  · intro s src tenant i hl hon hf h1 h2 hi hen hsrc hten
    refine runs_of_upd _ s _ _ (exec_samplingEvent ..) hl ?_
    have hfit : SampleFits s.dev src (if sourceNames src then some (tenant % 4096) else none) i :=
      ⟨hen, hsrc, hten.imp_right fun ⟨hn, ht⟩ => by rw [if_pos hn, ht]⟩
    obtain ⟨hcount, hovf⟩ := sample_counts s.dev hon hf h1 h2 hi hfit
    refine ⟨hcount, hovf, fun j hj hother => sample_unfit s.dev hj ?_⟩
    rintro ⟨he, hs, -⟩
    rcases hother with hother | hother
    · exact hother hs
    · rw [hother] at he
      cases he
  · intro s src tenant i hl hi hfilter hten
    exact runs_of_upd _ s _ _ (exec_samplingEvent ..) hl (sample_unfit s.dev hi (not_sampleFits_tenant hfilter hten))
  · exact fun s src tenant hl h => gives_of_upd (exec_samplingEvent ..) hl (sample_off s.dev _ h)
  · intro s frozen onTrig hl
    obtain ⟨hfrozen, htrig⟩ := freezeWrite_fields s.dev frozen onTrig
    refine runs_of_upd _ s _ _ (exec_tlyFreezeWrite ..) hl ⟨hfrozen, htrig, ?_, ?_⟩
    · intro hwas hnow
      rw [freezeWrite_tally, hwas, hnow]
      rfl
    · intro h
      rw [freezeWrite_tally]
      exact if_neg (by rcases h with h | h <;> simp [h])
  · intro s hl hon hen hmono hsign hbase
    obtain ⟨τ, hle, hmod, he⟩ := meterBoundary_eq ⟨hon, hen, hmono, hsign⟩
    refine acts_of_act _ s _ _ (exec_meterBoundary s) hl ?_
    rw [he, hbase]
    exact ⟨hmod, hle, rfl, rfl, hsign, rfl⟩
  · intro s start slots hl hon hen hmono hsign hbase hslots h0 hroom
    obtain ⟨τ, -, hmod, he⟩ := meterBoundary_eq ⟨hon, hen, hmono, hsign⟩
    obtain ⟨htim, htally, hdram, hspans⟩ := minuteEnds_room (start := start) (τ := τ) hslots h0 hroom
    refine acts_of_act _ s _ _ (exec_meterBoundary s) hl ?_
    rw [he, hbase]
    dsimp only
    rw [Dev.now, htim, htally]
    exact ⟨hmod, rfl, rfl, rfl, rfl, _, rfl, rfl, rfl, rfl, hdram, hspans⟩
  · intro s start slots hl hon hen hmono hsign hbase hslots hfull
    obtain ⟨τ, -, -, he⟩ := meterBoundary_eq ⟨hon, hen, hmono, hsign⟩
    obtain ⟨htally, hdram, hheld⟩ := minuteEnds_full (start := start) (τ := τ) hslots hfull
    refine acts_of_act _ s _ _ (exec_meterBoundary s) hl ?_
    rw [he, hbase]
    dsimp only
    rw [htally]
    exact ⟨rfl, hbase, rfl, hsign, hdram, rfl, hheld⟩
  · exact fun s hl h => settles_of_act (exec_meterBoundary s) hl (meterBoundary_off h)
  · exact fun s b hl hb => runs_of_upd _ s _ _ (exec_meterBatchSigned s) hl (meterSigned_leaves hb)
  · intro s hl hb
    refine gives_of_upd (exec_meterBatchSigned s) hl ?_
    unfold Dev.meterSigned
    rw [hb]

end Sys2Proof.Proofs
end

section
/-! SUPPORT. Work that leaves the namespaces and their maps as they are: what completions and the events of controllers do (R144,
R158, R187, R323 to R341). -/

namespace Sys2Proof.Proofs

open Sys2Proof.Machine Sys2Proof.Laws

-- One proof after another: proofs that wait for a slow one would each hold a thread.
set_option Elab.async false

/-- `e` is `d` after work that leaves the namespaces, the map's entries and its records of clears as they are. -/
structure LeavesSpaces (d e : Dev) : Prop where
  nss : e.hostq.nss = d.hostq.nss
  entries : e.map.entries = d.map.entries
  clears : e.map.clearSeq = d.map.clearSeq

namespace LeavesSpaces

variable {d e f : Dev}

theorem refl (d : Dev) : LeavesSpaces d d := ⟨rfl, rfl, rfl⟩

theorem trans (h : LeavesSpaces d e) (h' : LeavesSpaces e f) : LeavesSpaces d f :=
  ⟨h'.nss.trans h.nss, h'.entries.trans h.entries, h'.clears.trans h.clears⟩

/-- A further change of other parts of the device. -/
theorem same (h : LeavesSpaces d e) (hn : f.hostq.nss = e.hostq.nss := by rfl) (he : f.map.entries = e.map.entries := by rfl)
    (hc : f.map.clearSeq = e.map.clearSeq := by rfl) : LeavesSpaces d f := h.trans ⟨hn, he, hc⟩

theorem ite {p : Prop} [Decidable p] (he : LeavesSpaces d e) (hf : LeavesSpaces d f) :
    LeavesSpaces d (if p then e else f) := by
  split
  · exact he
  · exact hf

theorem foldl {α : Type} {g : Dev → α → Dev} (l : List α) (hg : ∀ c x, LeavesSpaces c (g c x)) (h : LeavesSpaces d e) :
    LeavesSpaces d (l.foldl g e) :=
  h.trans (List.foldlRecOn (motive := LeavesSpaces e) l g (refl e) fun _ hc x _ => hc.trans (hg _ x))

variable (h : LeavesSpaces d e)
include h

/-! ### Shared operations -/

theorem fset {g : FRef} {n : Nat} (v : Nat) : LeavesSpaces d (e.fset g v n) := h.same

theorem bump {g : FRef} {n : Nat} (k : Nat) : LeavesSpaces d (e.bump g k n) := h.same

theorem bumpSat {g : FRef} {n : Nat} (k : Nat) : LeavesSpaces d (e.bumpSat g k n) := h.same

theorem raiseTo {g : FRef} {n : Nat} (v : Nat) : LeavesSpaces d (e.raiseTo g v n) := h.same

theorem post (b n c x : Nat) : LeavesSpaces d (e.post b n c x) := h.same (by simp) (by simp) (by simp)

theorem tcount (t i k : Nat) : LeavesSpaces d (e.tcount t i k) := by
  unfold Dev.tcount
  exact .ite h h.same

theorem sampleAt (src : Nat) (tenant : Option Nat) (i : Nat) : LeavesSpaces d (e.sampleAt src tenant i) := by
  unfold Dev.sampleAt
  exact .ite h (.ite ((h.same (f := (e.fset _ _).fset _ _)).post _ _ _ _) h.same)

theorem sample (src : Nat) (tenant : Option Nat) : LeavesSpaces d (e.sample src tenant) := by
  unfold Dev.sample
  exact .ite h (.foldl _ (fun _ i => (refl _).sampleAt src tenant i) h)

theorem countDone (ctrl tenant qid op : Nat) (c : Cqe) : LeavesSpaces d (e.countDone ctrl tenant qid op c) := by
  unfold Dev.countDone
  have hc := h.tcount (if (e.ctrl ctrl).any (·.discovery) then 0 else tenant)
    (if qid = 0 then 2 else if op = 2 then 0 else if op = 1 ∨ op = 8 then 1 else 2) 1
  exact (ite ((ite hc (hc.tcount _ _ _)).tcount _ _ _) (ite hc (hc.tcount _ _ _))).sample _ _

/-! ### Frames out (R349 to R355) -/

theorem showSwt : LeavesSpaces d e.showSwt := h.same

theorem dropRef (i : Nat) : LeavesSpaces d (e.dropRef i) := by
  unfold Dev.dropRef
  split
  · exact h
  · exact h.same

theorem freeQueued (q : Nat) : LeavesSpaces d (e.freeQueued q) := by
  unfold Dev.freeQueued
  exact showSwt (post (bump (foldl _ (fun _ i => (refl _).dropRef i) (same h)) _) _ _ _ _)

theorem holdExpiry (q : Nat) : LeavesSpaces d (e.holdExpiry q) := by
  unfold Dev.holdExpiry
  dsimp only
  split
  · exact .ite h (h.same.freeQueued q)
  · exact h

theorem freeDead (f : OutFrame) : LeavesSpaces d (e.freeDead f).1 := by
  have hf := foldl f.ports (fun _ q => (refl _).holdExpiry q) h
  exact .ite hf hf.same

theorem admitFrame (f : OutFrame) : LeavesSpaces d (e.admitFrame f) := by
  unfold Dev.admitFrame
  exact showSwt (foldl _ (fun _ _ => same (refl _)) (same (ite (bump (g := Reg.SWT_OVFSTAT.OVERFLOWS) (n := 0) h 1) h)))

theorem emit (f : OutFrame) : LeavesSpaces d (e.emit f) := by
  have hd := h.freeDead f
  unfold Dev.emit
  generalize e.freeDead f = r at hd ⊢
  obtain ⟨c, g⟩ := r
  exact .ite h (.ite (same h) (.ite hd (.ite (admitFrame hd g) (same hd))))

theorem sendMsg (n : Nat) (x : Ctx) (m : TxMsg) : LeavesSpaces d (e.sendMsg n x m) :=
  foldl _ (fun _ _ => (refl _).emit _) h

theorem sendPiece (n : Nat) (x : Ctx) (bytes : Nat) : LeavesSpaces d (e.sendPiece n x bytes) :=
  foldl _ (fun _ _ => (refl _).emit _) h

/-! ### Contexts (R323 to R327) -/

theorem setTport (blk : Nat) (t : Tport) : LeavesSpaces d (e.setTport blk t) := by
  unfold Dev.setTport
  exact .ite h.same h.same

theorem showCtx (blk : Nat) : LeavesSpaces d (e.showCtx blk) := by
  unfold Dev.showCtx
  exact .ite h.same h.same

theorem modCtx (blk n : Nat) (g : Ctx → Ctx) : LeavesSpaces d (e.modCtx blk n g) := by
  unfold Dev.modCtx
  dsimp only
  split
  · exact h
  · exact h.same.setTport _ _

theorem placeCtx (blk n : Nat) (x : Ctx) : LeavesSpaces d (e.placeCtx blk n x) := (h.same.setTport _ _).showCtx blk

theorem evict (blk n : Nat) : LeavesSpaces d (e.evict blk n) := by
  unfold Dev.evict
  dsimp only
  split
  · exact h
  · exact h.same.setTport _ _

theorem makeSlot (blk : Nat) : LeavesSpaces d (e.makeSlot blk).1 := by
  unfold Dev.makeSlot
  split
  · exact h
  · split
    · exact h.evict _ _
    · exact h

theorem fetchCtx (blk n : Nat) : LeavesSpaces d (e.fetchCtx blk n) := by
  have hm := h.makeSlot blk
  unfold Dev.fetchCtx
  generalize e.makeSlot blk = r at hm ⊢
  obtain ⟨c, ok⟩ := r
  exact .ite h (.ite hm (sample (ite (bump (placeCtx hm _ _ _) _) (bump (placeCtx hm _ _ _) _)) _ _))

theorem needCtx (blk n : Nat) : LeavesSpaces d (e.needCtx blk n) := by
  unfold Dev.needCtx
  exact .ite h (h.fetchCtx _ _)

/-! ### Messages and pieces of the stream (R328 to R341) -/

theorem addRecs (l : List TRec) : LeavesSpaces d { e with trans := { e.trans with recs := e.trans.recs ++ l } } := h.same

omit h in
theorem pumpN (k : Nat) : ∀ {e : Dev}, LeavesSpaces d e → ∀ n, LeavesSpaces d (e.pumpN n k) := by
  induction k with
  | zero => exact fun h _ => h
  | succ k ih =>
    intro e h n
    unfold Dev.pumpN
    split
    · exact h
    · dsimp only
      split
      · exact h
      · split
        · exact h
        · refine .ite h (ih (h.trans (.ite ?_ (sendMsg ?_ _ _ _))) n) <;>
            exact addRecs (modCtx (same (refl e)) _ _ _) _

theorem queueMsg (n : Nat) (m : TxMsg) : LeavesSpaces d (e.queueMsg n m) := pumpN _ h.same n

theorem sessUse (slot : Nat) (send : Bool) (k : Nat) : LeavesSpaces d (e.sessUse slot send k).1 := by
  unfold Dev.sessUse
  dsimp only
  split
  · exact h
  · split
    · exact h.same.post _ _ _ _
    · exact h.same

theorem setSconn (n : Nat) (x : SConn) : LeavesSpaces d (e.setSconn n x) := h.same

omit h in
theorem streamPumpN (k : Nat) : ∀ {e : Dev}, LeavesSpaces d e → ∀ n, LeavesSpaces d (e.streamPumpN n k) := by
  induction k with
  | zero => exact fun h _ => h
  | succ k ih =>
    intro e h n
    unfold Dev.streamPumpN
    split
    · exact h
    · dsimp only
      split
      · exact h
      · split
        · exact h
        · refine .ite h (.ite h.same (ih (sendPiece (modCtx (setSconn ?_ _ _) _ _ _) _ _ _) n))
          exact ite (bumpSat (sessUse h _ _ _) _) (sessUse h _ _ _)

theorem queuePiece (n : Nat) (k : SKind) (head data : Nat) : LeavesSpaces d (e.queuePiece n k head data) := by
  unfold Dev.queuePiece
  split
  · exact h
  · exact streamPumpN _ h.same n

theorem sendResponse (ctx tag cmdref : Nat) (inval : Bool) : LeavesSpaces d (e.sendResponse ctx tag cmdref inval) := by
  unfold Dev.sendResponse
  split
  · exact h
  · exact (h.needCtx _ _).queueMsg _ _
  · exact (h.needCtx _ _).queuePiece _ _ _ _

/-! ### Completions and the events of controllers (R144, R158, R166, R187) -/

theorem trace (l : Lock) : LeavesSpaces d (e.trace l) := by
  unfold Dev.trace
  exact .ite h (.ite (post (same h) _ _ _ _) (same h))

theorem finishLocks (key : Nat) : LeavesSpaces d (e.finishLocks key) :=
  foldl _ (fun _ _ => same ((refl _).trace _)) h

theorem dropAdm (n : Nat) : LeavesSpaces d (e.dropAdm n) := by
  unfold Dev.dropAdm
  split
  · exact h
  · refine same (e := e.giveBack _) ?_
    unfold Dev.giveBack
    exact .ite h h.same

theorem dropAdmsOf (tag : Nat) : LeavesSpaces d (e.dropAdmsOf tag) :=
  same (foldl (e.ledger.adms.filter fun x => decide (x.2.tag = tag)) (fun _ p => (refl _).dropAdm p.1) h)

theorem showStaging : LeavesSpaces d e.showStaging := h.same

theorem modTag (key : Nat) (g : Tag → Tag) : LeavesSpaces d (e.modTag key g) := by
  unfold Dev.modTag
  split
  · exact h.same
  · exact h

theorem withHostq {x : Hostq} (hx : x.nss = e.hostq.nss := by rfl) : LeavesSpaces d { e with hostq := x } := h.same hx

theorem withHostqRope {x : Hostq} {y : Rope} (hx : x.nss = e.hostq.nss := by rfl) :
    LeavesSpaces d { e with hostq := x, rope := y } := h.same hx

theorem withHostqBelay {x : Hostq} {y : Belay} (hx : x.nss = e.hostq.nss := by rfl) :
    LeavesSpaces d { e with hostq := x, belay := y } := h.same hx

theorem discard (p : SUnit → Bool) : LeavesSpaces d (e.discard p) := showStaging (same h)

theorem hostDone (key : Nat) (c : Cqe) (counted : Bool) : LeavesSpaces d (e.hostDone key c counted) := by
  unfold Dev.hostDone
  split
  · exact h
  · refine .ite h (.ite (withHostqBelay ?_) (.ite (withHostq ?_)
      (sendResponse (withHostq (modTag ?_ _ _)) _ _ _ _))) <;>
      exact withHostqRope (discard (dropAdmsOf (finishLocks (ite (countDone h _ _ _ _ _) h) _) _) _)

theorem modCtrl (c : Nat) (g : Ctrl → Ctrl) : LeavesSpaces d (e.modCtrl c g) := by
  unfold Dev.modCtrl
  split
  · exact h.same
  · exact h

theorem serveEvents (c : Nat) : LeavesSpaces d (e.serveEvents c) := by
  unfold Dev.serveEvents
  split
  · exact h
  · split
    · exact (h.modCtrl _ _).hostDone _ _ _
    · exact h

theorem raiseAens (p : Ctrl → Bool) (typ info page : Nat) : LeavesSpaces d (e.raiseAens p typ info page) :=
  foldl _ (fun _ _ => ((refl _).modCtrl _ _).serveEvents _) h

theorem nsChanged (n : Ns) : LeavesSpaces d (e.nsChanged n) := by
  unfold Dev.nsChanged
  exact (h.withHostq).raiseAens _ _ _ _

end LeavesSpaces

end Sys2Proof.Proofs
end

section
/-! SUPPORT. Namespaces: the bytes of an entry, the NSIDs that are free, the checks of a create and of an update, and what the
management path's commands leave (R137 to R140, R165). -/

namespace Sys2Proof.Proofs

open Sys2Proof.Machine Sys2Proof.Laws

-- One proof after another: proofs that wait for a slow one would each hold a thread.
set_option Elab.async false

/-! ### Numbers in memory -/

theorem read_congr {m m' : Memory} (n : Nat) : ∀ {a : Nat}, (∀ b, a ≤ b → b < a + n → m'.byte b = m.byte b) →
    m'.read a n = m.read a n := by
  induction n with
  | zero => exact fun _ => rfl
  | succ n ih =>
    intro a h
    rw [Memory.read, Memory.read, h a (Nat.le_refl a) (by omega), ih fun b hb hlt => h b (by omega) (by omega)]

theorem setBytes_append (p q : List Byte) : ∀ (m : Memory) (a : Nat),
    m.setBytes a (p ++ q) = (m.setBytes a p).setBytes (a + p.length) q := by
  induction p with
  | nil => exact fun _ _ => rfl
  | cons b p ih =>
    intro m a
    rw [List.cons_append, Memory.setBytes, ih, Memory.setBytes, List.length_cons, Nat.add_right_comm, ← Nat.add_assoc]

theorem setBytes_leBytes (n : Nat) : ∀ (m : Memory) (a v : Nat), m.setBytes a (leBytes v n) = m.write a n v := by
  induction n with
  | zero => exact fun _ _ _ => rfl
  | succ n ih => exact fun m a v => ih _ _ _

theorem leBytes_length (n : Nat) : ∀ v, (leBytes v n).length = n := by
  induction n with
  | zero => exact fun _ => rfl
  | succ n ih => exact fun v => congrArg (· + 1) (ih _)

/-- A number stored among other bytes reads back. -/
theorem read_setBytes (m : Memory) (a v n : Nat) (p q : List Byte) :
    (m.setBytes a (p ++ (leBytes v n ++ q))).read (a + p.length) n = v % 256 ^ n := by
  rw [setBytes_append, setBytes_append, setBytes_leBytes, leBytes_length, ← read_write n (m.setBytes a p) (a + p.length) v]
  exact read_congr n fun b _ hlt => byte_setBytes_other _ _ _ _ (.inl hlt)

/-- A cleared range reads as zero. -/
theorem read_clear (m : Memory) {lo hi : Nat} (n : Nat) : ∀ {a : Nat}, lo ≤ a → a + n ≤ hi → (m.clear lo hi).read a n = 0 := by
  induction n with
  | zero => exact fun _ _ => rfl
  | succ n ih =>
    intro a hlo hhi
    have hb : (m.clear lo hi).byte a = 0 := by
      unfold Memory.byte Memory.clear
      rw [look_filter_key m (fun k => decide (k < lo) || decide (hi ≤ k)) a, if_neg]
      · rfl
      · simp only [Bool.or_eq_true, decide_eq_true_eq]
        omega
    rw [Memory.read, hb, ih (by omega) (by omega)]
    rfl

/-! ### Free NSIDs (R139) -/

/-- The search from `n` finds a free NSID, or has found the `f` from `n` on all used. -/
theorem freeNsid_from (used : List Nat) (f : Nat) : ∀ n, n ≤ freeNsid used f n ∧
    (freeNsid used f n ∉ used ∨ freeNsid used f n = n + f ∧ ∀ k, n ≤ k → k < n + f → k ∈ used) := by
  induction f with
  | zero => exact fun n => ⟨Nat.le_refl n, .inr ⟨rfl, fun k h h' => absurd h' (by omega)⟩⟩
  | succ f ih =>
    intro n
    unfold freeNsid
    split
    · next hn =>
      obtain ⟨hle, hf⟩ := ih (n + 1)
      refine ⟨by omega, hf.imp_right fun ⟨he, hall⟩ => ⟨by omega, fun k h h' => ?_⟩⟩
      obtain rfl | hk := Nat.eq_or_lt_of_le h
      · exact List.contains_iff_mem.1 hn
      · exact hall k hk (by omega)
    · next hn => exact ⟨Nat.le_refl n, .inl fun h => hn (List.contains_iff_mem.2 h)⟩

/-- With as many steps as there are NSIDs in use, it finds a free one. -/
theorem freeNsid_free (used : List Nat) (n : Nat) :
    n ≤ freeNsid used used.length n ∧ freeNsid used used.length n ∉ used := by
  obtain ⟨hle, hf⟩ := freeNsid_from used used.length n
  refine ⟨hle, hf.elim id fun ⟨he, hall⟩ hm => ?_⟩
  rw [he] at hm
  have hsub : List.range' n (used.length + 1) ⊆ used := fun k hk => by
    obtain ⟨hn, hlt⟩ := List.mem_range'_1.1 hk
    obtain hlt | rfl : k < n + used.length ∨ k = n + used.length := by omega
    · exact hall k hn hlt
    · exact hm
  have hlen := (List.nodup_range' (s := n) (n := used.length + 1)).length_le_of_subset hsub
  rw [List.length_range'] at hlen
  omega

variable {d : Dev}

/-! ### Capacity (R205, R214) -/

theorem showAlloc_hostq : d.showAlloc.hostq = d.hostq := rfl

theorem showAlloc_map : d.showAlloc.map = d.map := rfl

theorem showAlloc_mem : d.showAlloc.mem = d.mem := rfl

theorem showWarm_hostq : d.showWarm.hostq = d.hostq := rfl

/-! ### Entries -/

/-- The device with a namespace in force leaves it in HOSTQ, and its entry's NSID and size in DRAM. -/
theorem putNs_leaves (h : Nat) (n : Ns) : (d.putNs h n).hostq = { d.hostq with nss := Tab.put d.hostq.nss h n } ∧
    (d.putNs h n).mem.dram.read (d.nsAddr h) 4 = n.nsid % 2 ^ 32 ∧
    (d.putNs h n).mem.dram.read (d.nsAddr h + 8) 8 = n.nsze % 2 ^ 64 := by
  obtain ⟨p, q, r, hp, hhead, hsize⟩ : ∃ p q r, p.length = 8 ∧ n.bytes = [] ++ (leBytes n.nsid 4 ++ q) ∧
      n.bytes = p ++ (leBytes n.nsze 8 ++ r) := by
    refine ⟨leBytes n.nsid 4 ++ (leBytes n.subsys 2 ++ leBytes n.tenant 2), _,
      [(n.grade, 1), (n.anagrp, 1), (1 + 2 * b2n n.attached + 4 * b2n n.pinned, 1), (0, 1), (n.keySlot, 2), (0, 10)].flatMap
        fun p => leBytes p.1 p.2, ?_, rfl, ?_⟩
    · simp only [List.length_append, leBytes_length]
    · simp only [Ns.bytes, List.flatMap_cons, List.append_assoc]
  have hm : (d.putNs h n).mem.dram = d.mem.dram.setBytes (d.nsAddr h) n.bytes := rfl
  have h4 := read_setBytes d.mem.dram (d.nsAddr h) n.nsid 4 [] q
  have h8 := read_setBytes d.mem.dram (d.nsAddr h) n.nsze 8 p r
  rw [← hhead, ← hm, List.length_nil, Nat.add_zero, show 256 ^ 4 = 2 ^ 32 by norm_num] at h4
  rw [← hsize, ← hm, hp, show 256 ^ 8 = 2 ^ 64 by norm_num] at h8
  exact ⟨rfl, h4, h8⟩

/-! ### The checks of a create (R139) -/

theorem createCheck_tenant {c : NsCreate} (h : c.tenant = 0) : d.createCheck c = some { sct := 0, sc := 2 } :=
  if_pos (.inl h)

/-- What a create that passes has. -/
theorem createCheck_passes {c : NsCreate} (h : d.createCheck c = none) :
    1 ≤ c.grade ∧ c.grade ≤ 4 ∧ 0 < c.nsze ∧ c.ncap = c.nsze ∧ 1 ≤ c.anagrp ∧ c.anagrp ≤ 64 ∧ (c.grade = 1 → c.flags = 1) ∧
      d.hostq.nss.length < 16384 ∧ d.overCapacity c.anagrp c.nsze = false ∧
      (c.flags = 1 → d.overPins c.anagrp (d.pinCharge c.nsze) = false) := by
  unfold Dev.createCheck at h
  split_ifs at h with hrange hsize hgroup hfull hflag hcap hpin
  simp only [not_or, not_lt, not_not] at hrange hsize hgroup
  obtain ⟨-, -, hlow, hhigh, hflags, -, -⟩ := hrange
  obtain ⟨hpos, hncap⟩ := hsize
  obtain ⟨hg1, hg64⟩ := hgroup
  refine ⟨hlow, hhigh, Nat.pos_of_ne_zero hpos, hncap, hg1, hg64, fun hgr => ?_, Nat.lt_of_not_le hfull,
    Bool.eq_false_iff.2 hcap, fun hf => Bool.eq_false_iff.2 fun ho => hpin ⟨by rw [hf], ho⟩⟩
  have hodd : ¬ c.flags % 2 = 0 := fun he => hflag ⟨hgr, he⟩
  omega

/-- One whose fields are in range has the check of the unit's capacity. -/
theorem createCheck_inRange {c : NsCreate} (ht1 : 1 ≤ c.tenant) (ht : c.tenant ≤ 4095) (hg1 : 1 ≤ c.grade) (hg4 : c.grade ≤ 4)
    (hf : c.flags = 0) (hr : c.reserved = 0) (hk : c.keySlot ≤ 16383) (hs : 0 < c.nsze) (hn : c.ncap = c.nsze)
    (ha1 : 1 ≤ c.anagrp) (ha64 : c.anagrp ≤ 64) (hl : d.hostq.nss.length < 16384) (hg : c.grade ≠ 1) :
    d.createCheck c = if d.overCapacity c.anagrp c.nsze then some { sct := 1, sc := 0x15 } else none := by
  unfold Dev.createCheck
  rw [if_neg (by omega), if_neg (by omega), if_neg (by omega), if_neg (by omega), if_neg (by omega),
    if_neg (c := c.flags % 2 = 1 ∧ _) (by rw [hf]; simp)]
  rfl

/-! ### Commands of the management path (R137, R139) -/

/-- A tunnelled command runs as it is. -/
theorem admin_mgmt {sqe : List Word} {op : Nat} (h : d.mgmtTakes sqe op = true) (f : AdmIn → Dev → Dev) :
    d.admin (.mgmt sqe) op f = f { src := .mgmt sqe, sqe := padWords 8 sqe, ctrl := none, sgl := 2 ^ 32 } d := by
  simp only [Dev.mgmtTakes, Bool.and_eq_true, Bool.or_eq_true, Bool.not_eq_true', decide_eq_true_eq] at h
  obtain ⟨⟨hon, hop⟩, hsan⟩ := h
  unfold Dev.admin
  refine (if_neg (by simp [hon, hop])).trans (if_neg ?_)
  rcases hsan with hsan | hsan
  · rw [hsan]
    exact Bool.false_ne_true
  · rw [hsan, Bool.not_true, Bool.and_false]
    exact Bool.false_ne_true

theorem mgmtEnds_mem (c : Cqe) : (d.mgmtEnds c).mem = d.mem := rfl

section
variable {sqe : List Word} (ht : d.mgmtTakes sqe 0x0D = true)
include ht

/-- Of another SEL than a create and a delete have, both are refused. -/
theorem nsManage_refused {e : Dev} (hs : 2 ≤ sqeDw (padWords 8 sqe) 10 % 16)
    (he : (∃ subsys h c, e = d.nsCreate (.mgmt sqe) subsys h c) ∨ ∃ h, e = d.nsDelete (.mgmt sqe) h) :
    e = d.mgmtEnds { sct := 0, sc := 2 } := by
  have hsel (a : AdmIn) (hq : a.sqe = padWords 8 sqe) : a.dw 10 % 16 = sqeDw (padWords 8 sqe) 10 % 16 := by rw [AdmIn.dw, hq]
  obtain ⟨subsys, h, c, rfl⟩ | ⟨h, rfl⟩ := he
  · unfold Dev.nsCreate
    rw [admin_mgmt ht]
    exact (if_pos (by rw [hsel _ rfl]; omega)).trans (if_neg (by rw [hsel _ rfl]; omega))
  · unfold Dev.nsDelete
    rw [admin_mgmt ht]
    exact (if_pos (by rw [hsel _ rfl]; omega)).trans (if_neg (by rw [hsel _ rfl]; omega))

section
variable {subsys h : Nat} {c : NsCreate} (hs : sqeDw (padWords 8 sqe) 10 % 16 = 0)
include hs

/-- The create on its merits. -/
theorem nsCreate_mgmt : d.nsCreate (.mgmt sqe) subsys h c = match d.createCheck c with
    | some e => d.mgmtEnds e
    | none =>
      if (Tab.look d.hostq.nss h).isSome ∨ 16383 < h then d
      else
        let used := (d.hostq.nss.filter fun p => decide (p.2.subsys = subsys)).map (·.2.nsid)
        let n : Ns := { nsid := freeNsid used used.length 1, subsys := subsys, tenant := c.tenant, nsze := c.nsze
                        grade := c.grade, anagrp := c.anagrp, attached := false, pinned := decide (c.flags % 2 = 1)
                        keySlot := c.keySlot }
        (d.putNs h n).mgmtEnds { success with dw0 := n.nsid } := by
  unfold Dev.nsCreate
  rw [admin_mgmt ht]
  exact if_neg (by rw [not_not]; exact hs)

/-- One that passes has the lowest free NSID of its subsystem. -/
theorem nsCreate_created (hc : d.createCheck c = none) (hh : Tab.look d.hostq.nss h = none) (hlt : h ≤ 16383) :
    ∃ n, d.nsCreate (.mgmt sqe) subsys h c = (d.putNs h n).mgmtEnds { success with dw0 := n.nsid } ∧ 1 ≤ n.nsid ∧
      n.nsid ∉ (d.hostq.nss.filter fun p => decide (p.2.subsys = subsys)).map (·.2.nsid) ∧
      (d.hostq.nss = [] → n.nsid = 1) ∧
      n = { nsid := n.nsid, subsys := subsys, tenant := c.tenant, nsze := c.nsze, grade := c.grade, anagrp := c.anagrp
            attached := false, pinned := (decide (c.flags % 2 = 1)), keySlot := c.keySlot } := by
  rw [nsCreate_mgmt ht hs, hc]
  dsimp only
  rw [if_neg (by simp [hh, hlt])]
  obtain ⟨h1, hfree⟩ := freeNsid_free ((d.hostq.nss.filter fun p => decide (p.2.subsys = subsys)).map (·.2.nsid)) 1
  exact ⟨_, rfl, h1, hfree, fun he => by rw [he]; rfl, rfl⟩

theorem nsCreate_fails {e : Cqe} (hc : d.createCheck c = some e) :
    d.nsCreate (.mgmt sqe) subsys h c = d.mgmtEnds e := by
  rw [nsCreate_mgmt ht hs, hc]

theorem nsCreate_inUse (hc : d.createCheck c = none) (hh : (Tab.look d.hostq.nss h).isSome = true ∨ 16383 < h) :
    d.nsCreate (.mgmt sqe) subsys h c = d := by
  rw [nsCreate_mgmt ht hs, hc]
  exact if_pos hh

end

section
variable {h : Nat} (hs : sqeDw (padWords 8 sqe) 10 % 16 = 1)
include hs

/-- A delete of a namespace that is not there. -/
theorem nsDelete_absent (hn : Tab.look d.hostq.nss h = none) :
    d.nsDelete (.mgmt sqe) h = d.mgmtEnds { sct := 0, sc := 0x0B } := by
  unfold Dev.nsDelete
  rw [admin_mgmt ht]
  refine (if_neg (by rw [not_not]; exact hs)).trans ?_
  rw [hn]
  rfl

/-- A delete drops the entry, the map and, in DRAM, the entry of the table. -/
theorem nsDelete_leaves {n : Ns} (hn : Tab.look d.hostq.nss h = some n) :
    (d.nsDelete (.mgmt sqe) h).hostq.nss = Tab.del d.hostq.nss h ∧
      (∀ p ∈ (d.nsDelete (.mgmt sqe) h).map.entries, p.1 / 2 ^ 40 ≠ h) ∧
      (n.attached = false → (d.nsDelete (.mgmt sqe) h).mem.dram.read (d.nsAddr h) 8 = 0) ∧
      (d.nsDelete (.mgmt sqe) h).hostq.mgmtCqe = some success := by
  obtain ⟨e, he, hd⟩ : ∃ e, e = (if n.attached then d.nsChanged n else d) ∧ d.nsDelete (.mgmt sqe) h =
      (Dev.showAlloc { e with
        hostq := { e.hostq with nss := Tab.del e.hostq.nss h }
        map := { e.map with entries := e.map.entries.filter fun p => decide (p.1 / 2 ^ 40 ≠ h)
                            dir := e.map.dir.filter fun p => decide (p.1 / 2 ^ 32 ≠ h) }
        mem := { e.mem with dram := e.mem.dram.clear (e.nsAddr h) (e.nsAddr h + 32) } }).mgmtEnds success := by
    refine ⟨_, rfl, ?_⟩
    unfold Dev.nsDelete
    rw [admin_mgmt ht]
    refine (if_neg (by rw [not_not]; exact hs)).trans ?_
    rw [hn]
    rfl
  have hnss : e.hostq.nss = d.hostq.nss := by
    rw [he]
    exact (LeavesSpaces.ite ((LeavesSpaces.refl d).nsChanged n) (.refl d)).nss
  refine ⟨?_, fun p hp => ?_, fun ha => ?_, by rw [hd]; rfl⟩
  · rw [hd]
    exact congrArg (Tab.del · h) hnss
  · rw [hd] at hp
    exact of_decide_eq_true (List.mem_filter.1 hp).2
  · rw [hd, he, ha]
    exact read_clear _ 8 (Nat.le_refl _) (by change d.nsAddr h + 8 ≤ d.nsAddr h + 32; omega)

end

end

section
variable {sqe : List Word} {h : Nat} {ks : List Nat} {attach : Bool} (ht : d.mgmtTakes sqe 0x15 = true)
include ht

theorem nsAttach_absent (hn : Tab.look d.hostq.nss h = none) :
    d.nsAttach (.mgmt sqe) h attach ks = d.mgmtEnds { sct := 0, sc := 0x0B } := by
  unfold Dev.nsAttach
  rw [admin_mgmt ht]
  dsimp only
  rw [hn]
  rfl

/-- Every controller named is one of the namespace's subsystem and tenant. -/
def attachable (d : Dev) (n : Ns) (ks : List Nat) : Bool :=
  ks.all fun k => (d.ctrl k).any fun x => x.subsys = n.subsys && x.tenant = n.tenant

variable {n : Ns} (hn : Tab.look d.hostq.nss h = some n)
include hn

/-- The command on the merits of the controllers it names. -/
theorem nsAttach_mgmt : d.nsAttach (.mgmt sqe) h attach ks =
    if (ks.isEmpty || !attachable d n ks) = true then d.mgmtEnds { sct := 1, sc := 0x1C }
    else if attach ∧ n.attached then d.mgmtEnds { sct := 1, sc := 0x18 }
    else if !attach ∧ !n.attached then d.mgmtEnds { sct := 1, sc := 0x1A }
    else ((d.putNs h { n with attached := attach }).nsChanged { n with attached := attach }).mgmtEnds success := by
  have hbad : (ks.any fun c => match d.ctrl c with
      | some x => !(x.subsys = n.subsys && x.tenant = n.tenant)
      | none => true) = !attachable d n ks := by
    rw [attachable, List.not_all_eq_any_not]
    congr 1
    funext k
    cases d.ctrl k <;> rfl
  unfold Dev.nsAttach
  rw [admin_mgmt ht]
  dsimp only
  rw [hn, ← hbad]
  rfl

theorem nsAttach_leaves (ha : n.attached = !attach) (hks : ks ≠ []) (hall : attachable d n ks = true) :
    (d.nsAttach (.mgmt sqe) h attach ks).hostq.nss = Tab.put d.hostq.nss h { n with attached := attach } ∧
      (d.nsAttach (.mgmt sqe) h attach ks).hostq.mgmtCqe = some success := by
  rw [nsAttach_mgmt ht hn, if_neg (by simp [hks, hall]), if_neg (by rw [ha]; cases attach <;> simp),
    if_neg (by rw [ha]; cases attach <;> simp)]
  exact ⟨((LeavesSpaces.refl _).nsChanged _).nss, rfl⟩

theorem nsAttach_others (h' : ks = [] ∨ attachable d n ks = false) :
    d.nsAttach (.mgmt sqe) h attach ks = d.mgmtEnds { sct := 1, sc := 0x1C } := by
  rw [nsAttach_mgmt ht hn, if_pos]
  rcases h' with rfl | h' <;> simp [*]

theorem nsAttach_already (ha : n.attached = attach) (hks : ks ≠ []) (hall : attachable d n ks = true) :
    d.nsAttach (.mgmt sqe) h attach ks = d.mgmtEnds { sct := 1, sc := (if attach then 0x18 else 0x1A) } := by
  rw [nsAttach_mgmt ht hn, if_neg (by simp [hks, hall]), ha]
  cases attach <;> rfl

end

/-! ### Updates of an entry (R140, R165) -/

section
variable (d) (v : Nat)

theorem fget_nsHandle {g : FRef} {m : Nat} (hg : regAddr g.blk m g.off ≠ regAddr 0x10 0 0x228) :
    (d.fset Reg.HOSTQ_NS_UPDATE.HANDLE v).fget g m = d.fget g m := fget_fset_of_ne _ _ hg

theorem readNs_nsHandle (h : Nat) : (d.fset Reg.HOSTQ_NS_UPDATE.HANDLE v).readNs h = d.readNs h := by
  have ha : (d.fset Reg.HOSTQ_NS_UPDATE.HANDLE v).nsAddr h = d.nsAddr h := by
    rw [Dev.nsAddr, fget_nsHandle _ _ (by decide), Dev.nsAddr]
  simp only [Dev.readNs, ha, fset_mem]

theorem pinCharge_nsHandle : (d.fset Reg.HOSTQ_NS_UPDATE.HANDLE v).pinCharge = d.pinCharge := by
  funext b
  have hm : (d.fset Reg.HOSTQ_NS_UPDATE.HANDLE v).mapSpan = d.mapSpan := by
    rw [Dev.mapSpan, fget_nsHandle _ _ (by decide), Dev.mapSpan]
  rw [Dev.pinCharge, hm, Dev.pinCharge]

theorem ownsGroup_nsHandle : (d.fset Reg.HOSTQ_NS_UPDATE.HANDLE v).ownsGroup = d.ownsGroup := by
  funext g
  rw [Dev.ownsGroup, Dev.groupOwner, fget_nsHandle _ _ (by decide), fget_nsHandle _ _ (by decide), Dev.ownsGroup,
    Dev.groupOwner]

/-- The check of an entry does not see the handle shown. -/
theorem nsCheck_nsHandle (h : Nat) (n : Ns) : (d.fset Reg.HOSTQ_NS_UPDATE.HANDLE v).nsCheck h n = d.nsCheck h n := by
  have hp : (d.fset Reg.HOSTQ_NS_UPDATE.HANDLE v).partnersNss = d.partnersNss := by
    rw [Dev.partnersNss, ownsGroup_nsHandle, Dev.partnersNss, fset_hostq]
  have hpins : (d.fset Reg.HOSTQ_NS_UPDATE.HANDLE v).overPins = d.overPins := by
    funext g mib
    rw [Dev.overPins, hp, ownsGroup_nsHandle, pinCharge_nsHandle, fget_nsHandle _ _ (by decide),
      fget_nsHandle _ _ (by decide), Dev.overPins]
  have hcap : (d.fset Reg.HOSTQ_NS_UPDATE.HANDLE v).overCapacity = d.overCapacity := by
    funext g b
    rw [Dev.overCapacity, hp, ownsGroup_nsHandle, fget_nsHandle _ _ (by decide), fget_nsHandle _ _ (by decide),
      fget_nsHandle _ _ (by decide), fget_nsHandle _ _ (by decide), fget_nsHandle _ _ (by decide),
      fget_nsHandle _ _ (by decide), Dev.overCapacity]
    rfl
  rw [Dev.nsCheck, hpins, hcap, pinCharge_nsHandle, fset_hostq, Dev.nsCheck]

end

theorem nsCheck_lt (h : Nat) (n : Ns) : d.nsCheck h n < 256 := by
  unfold Dev.nsCheck
  dsimp only
  split_ifs <;> decide

/-- How an update ends: RESULT shows its result, with the event. -/
def nsEnds (e : Dev) (h res : Nat) : Dev := (e.fset Reg.HOSTQ_NS_UPDATE.RESULT res).post 0x10 0 0x22 (h * 65536 + res)

theorem nsEnds_hostq (e : Dev) (h res : Nat) : (nsEnds e h res).hostq = e.hostq := post_hostq ..

theorem nsEnds_result (e : Dev) (h : Nat) {res : Nat} (hr : res < 256) :
    (nsEnds e h res).fget Reg.HOSTQ_NS_UPDATE.RESULT = res := by
  rw [nsEnds, Dev.fget, reg_post_other _ _ _ _ _ _ _ _ (by decide) (by decide)]
  exact (fget_fset _ Reg.HOSTQ_NS_UPDATE.RESULT res 0 (by decide) (by decide)).trans (Nat.mod_eq_of_lt hr)

theorem nsUpdate_idle {h : Nat} (hb : d.fget Reg.HOSTQ_NS_UPDATE.BUSY = 1 ∨ d.on 0x10 = false) : d.nsUpdate h = d :=
  if_pos (by simpa using hb)

/-- The namespace that an entry which checks puts in force: its map is cold when it becomes pinned with pages, and it keeps a
format that runs. -/
def reloaded (d : Dev) (h : Nat) (n : Ns) : Ns :=
  let old : Option Ns := Tab.look d.hostq.nss h
  { n with
    cold := (n.pinned && !old.any (fun o : Ns => o.pinned) && !(d.mapPages h).isEmpty) || old.any (fun o : Ns => o.cold)
    formatting := old.any (fun o : Ns => o.formatting) }

section
variable {h : Nat} (hb : d.fget Reg.HOSTQ_NS_UPDATE.BUSY = 0) (hon : d.on 0x10 = true)
include hb hon

/-- One that reads badly has its result, and HOSTQ is as before. -/
theorem nsUpdate_error {r : Nat} (hr : d.readNs h = .error r) :
    d.nsUpdate h = nsEnds (d.fset Reg.HOSTQ_NS_UPDATE.HANDLE h) h r := by
  simp only [Dev.nsUpdate, hb, hon, readNs_nsHandle, hr]
  rfl

/-- An entry that is not VALID leaves the table. -/
theorem nsUpdate_none (hr : d.readNs h = .ok none) : ∃ e, d.nsUpdate h = nsEnds e h 0 ∧
    e.hostq = { d.hostq with nss := (Tab.del d.hostq.nss h) } := by
  refine ⟨Dev.showAlloc { d.fset Reg.HOSTQ_NS_UPDATE.HANDLE h with
    hostq := { d.hostq with nss := (Tab.del d.hostq.nss h) } }, ?_, rfl⟩
  simp only [Dev.nsUpdate, hb, hon, readNs_nsHandle, hr]
  rfl

/-- An entry that does not check has its result. -/
theorem nsUpdate_refused {n : Ns} (hr : d.readNs h = .ok (some n)) (hc : d.nsCheck h n ≠ 0) :
    d.nsUpdate h = nsEnds (d.fset Reg.HOSTQ_NS_UPDATE.HANDLE h) h (d.nsCheck h n) := by
  simp only [Dev.nsUpdate, hb, hon, readNs_nsHandle, hr, nsCheck_nsHandle, if_pos hc]
  rfl

/-- One that checks is put in force. -/
theorem nsUpdate_takes {n : Ns} (hr : d.readNs h = .ok (some n)) (hc : d.nsCheck h n = 0) : ∃ e, d.nsUpdate h = nsEnds e h 0 ∧
    e.hostq.nss = Tab.put d.hostq.nss h (reloaded d h n) := by
  unfold Dev.nsUpdate
  rw [if_neg (by simp [hb, hon])]
  dsimp only
  rw [readNs_nsHandle, hr]
  dsimp only
  rw [nsCheck_nsHandle, hc, if_neg (by simp)]
  refine ⟨_, rfl, ?_⟩
  rw [showWarm_hostq, showAlloc_hostq]
  refine (LeavesSpaces.ite ((LeavesSpaces.refl _).nsChanged _) (.refl _)).nss.trans ?_
  split <;> rfl

end

end Sys2Proof.Proofs
end

section
/-! The statement on namespaces, clause by clause (R137 to R140, R165). -/

namespace Sys2Proof.Proofs

open Sys2Proof.Machine Sys2Proof.Laws

-- One proof after another: proofs that wait for a slow one would each hold a thread.
set_option Elab.async false

/-- Settles O21: creates, deletes, attachments and updates of entries, each by the rule of its operation. -/
theorem nvmeNamespaces : Obligations.NvmeNamespaces := by
  unfold Obligations.NvmeNamespaces
  refine ⟨?_, ?_, ?_, ?_, ?_, ?_, ?_, ?_, ?_, ?_, ?_, ?_, ?_, ?_, ?_, ?_, ?_, ?_⟩
  · intro s sqe subsys h c hl ht hs hc hnone hh
    refine acts_of_act _ s _ _ (exec_namespaceManagement ..) hl ?_
    dsimp only
    obtain ⟨n, he, -, -, hid, hn⟩ := nsCreate_created (subsys := subsys) ht hs hc (by rw [hnone]; rfl : _ = none) hh
    obtain ⟨hhostq, hnsid, hnsze⟩ := putNs_leaves (d := s.dev) h n
    rw [hid hnone] at hn hnsid he
    have hsize : n.nsze = c.nsze := by rw [hn]
    rw [hsize] at hnsze
    rw [he, ← hn, mgmtEnds_mem, hnsid, hnsze]
    refine ⟨?_, Nat.mod_eq_of_lt (by decide), rfl, rfl⟩
    exact (congrArg (fun q : Hostq => Tab.look q.nss h) hhostq).trans (look_put_self _ _ _)
  · intro s sqe subsys h c hl ht hs hc hnone hh
    refine acts_of_act _ s _ _ (exec_namespaceManagement ..) hl ?_
    dsimp only
    obtain ⟨n, he, h1, hfree, -, hn⟩ := nsCreate_created (subsys := subsys) ht hs hc hnone hh
    rw [he]
    refine ⟨n, h1, congrArg Hostq.nss (putNs_leaves (d := s.dev) h n).1, List.all_eq_true.2 fun p hp => ?_, hn, rfl⟩
    rw [decide_eq_true_eq, ← not_and_or]
    rintro ⟨hsub, hsame⟩
    exact hfree (List.mem_map.2 ⟨p, List.mem_filter.2 ⟨hp, decide_eq_true hsub⟩, hsame⟩)
  · exact fun s sqe subsys h c e hl ht hs hc => settles_of_act (exec_namespaceManagement ..) hl (nsCreate_fails ht hs hc)
  · exact fun s sqe subsys h c hl ht hs hc hh => settles_of_act (exec_namespaceManagement ..) hl (nsCreate_inUse ht hs hc hh)
  · exact fun d c => ⟨createCheck_tenant, createCheck_passes, createCheck_inRange⟩
  · intro s sqe h n hl ht hs hn ha
    refine acts_of_act _ s _ _ (exec_namespaceManagement ..) hl ?_
    obtain ⟨hnss, hentries, hread, hcqe⟩ := nsDelete_leaves ht hs hn
    exact ⟨hnss, hentries, hread ha, hcqe⟩
  · intro s sqe h n hl ht hs hn _
    refine acts_of_act _ s _ _ (exec_namespaceManagement ..) hl ?_
    obtain ⟨hnss, hentries, -, hcqe⟩ := nsDelete_leaves ht hs hn
    exact ⟨hnss, hentries, hcqe⟩
  · exact fun s sqe h hl ht hs hn => settles_of_act (exec_namespaceManagement ..) hl (nsDelete_absent ht hs hn)
  · intro s sqe m hl ht hs
    refine settles_of_act (exec_namespaceManagement ..) hl (nsManage_refused ht hs ?_)
    cases m with
    | create subsys h c => exact .inl ⟨subsys, h, c, rfl⟩
    | delete h => exact .inr ⟨h, rfl⟩
  · exact fun s sqe h ks attach n hl ht hn ha hks hall =>
      acts_of_act _ s _ _ (exec_namespaceAttachment ..) hl (nsAttach_leaves ht hn ha hks hall)
  · exact fun s sqe h ks attach n hl ht hn hks => settles_of_act (exec_namespaceAttachment ..) hl (nsAttach_others ht hn hks)
  · exact fun s sqe h ks attach n hl ht hn ha hks hall =>
      settles_of_act (exec_namespaceAttachment ..) hl (nsAttach_already ht hn ha hks hall)
  · exact fun s sqe h ks attach hl ht hn => settles_of_act (exec_namespaceAttachment ..) hl (nsAttach_absent ht hn)
  · intro s h n hl hb hon hr hc
    obtain ⟨e, he, hnss⟩ := nsUpdate_takes hb hon hr hc
    refine acts_of_act _ s _ _ (exec_nsEntryUpdate ..) hl ?_
    rw [he]
    exact ⟨_, (congrArg Hostq.nss (nsEnds_hostq ..)).trans hnss, rfl, nsEnds_result _ _ (by decide)⟩
  · intro s h n hl hb hon hr hc
    refine acts_of_act _ s _ _ (exec_nsEntryUpdate ..) hl ?_
    rw [nsUpdate_refused hb hon hr hc]
    exact ⟨nsEnds_hostq .., nsEnds_result _ _ (nsCheck_lt h n)⟩
  · intro s h hl hb hon hr
    obtain ⟨e, he, hhostq⟩ := nsUpdate_none hb hon hr
    refine acts_of_act _ s _ _ (exec_nsEntryUpdate ..) hl ?_
    rw [he]
    exact ⟨(nsEnds_hostq ..).trans hhostq, nsEnds_result _ _ (by decide)⟩
  · intro s h r hl hb hon hr hlt
    refine acts_of_act _ s _ _ (exec_nsEntryUpdate ..) hl ?_
    rw [nsUpdate_error hb hon hr]
    exact ⟨nsEnds_hostq .., nsEnds_result _ _ hlt⟩
  · exact fun s h hl hb => settles_of_act (exec_nsEntryUpdate ..) hl (nsUpdate_idle hb)

end Sys2Proof.Proofs
end

section
/-! SUPPORT. The checks of an I/O command, and the commands they let run (R137, R142, R149 to R151, R163). -/

namespace Sys2Proof.Proofs

open Sys2Proof.Machine Sys2Proof.Laws

-- One proof after another: proofs that wait for a slow one would each hold a thread.
set_option Elab.async false

variable {d e : Dev} {ctx cid op : Nat} {t : Tag} {x : Ctrl}

/-! ### What the checks hang on -/

/-- CAMP_STRAP, HOSTQ_ANA_OWN, ROPE_NEXT, CPH_XTS_LIMIT and BLY_STATUS. -/
def pathReg (a : Nat) : Bool := [0x210, 0x1000230, 0x1200210, 0x1800210, 0x1900210].contains a

/-- `e` is `d` after work that leaves all that the checks read: HOSTQ but for its tags, the keys and those registers. -/
structure ChecksAlike (d e : Dev) : Prop where
  hostq : e.hostq = { d.hostq with tags := e.hostq.tags }
  cipher : e.cipher = d.cipher
  regs : KeepsRegs pathReg d e

namespace ChecksAlike

variable (h : ChecksAlike d e)
include h

theorem nss : e.hostq.nss = d.hostq.nss := (congrArg Hostq.nss h.hostq).trans rfl

theorem ownsGroup (g : Nat) : e.ownsGroup g = d.ownsGroup g := by
  rw [Dev.ownsGroup, Dev.groupOwner, h.regs.fget (by decide), h.regs.fget (by decide), Dev.ownsGroup, Dev.groupOwner]

theorem anaState (g : Nat) : e.anaState g = d.anaState g := by
  have hana : e.hostq.ana = d.hostq.ana := (congrArg Hostq.ana h.hostq).trans rfl
  have hown : e.groupOwner g = d.groupOwner g := by rw [Dev.groupOwner, h.regs.fget (by decide), Dev.groupOwner]
  have hunit : e.fget Reg.CAMP_STRAP.UNIT_ID = d.fget Reg.CAMP_STRAP.UNIT_ID := h.regs.fget (by decide)
  have hbly : e.fget Reg.BLY_STATUS.STATE = d.fget Reg.BLY_STATUS.STATE := h.regs.fget (by decide)
  unfold Dev.anaState
  rw [hana, hown, hunit, hbly]

theorem anaFails (g : Nat) : e.anaFails g = d.anaFails g := by rw [Dev.anaFails, h.anaState, Dev.anaFails]

theorem nsFor (x : Ctrl) (nsid : Nat) : e.nsFor x nsid = d.nsFor x nsid := by rw [Dev.nsFor, h.nss, Dev.nsFor]

theorem ctrlFor (t : Tag) : e.ctrlFor t = d.ctrlFor t := by
  have hctrl (k : Nat) : e.ctrl k = d.ctrl k :=
    (congrArg (fun q : Hostq => Tab.look q.ctrls k) h.hostq).trans rfl
  unfold Dev.ctrlFor
  rw [hctrl]

theorem sanitizing : e.sanitizing = d.sanitizing := by
  have hsan : e.hostq.sanitize = d.hostq.sanitize := (congrArg Hostq.sanitize h.hostq).trans rfl
  rw [Dev.sanitizing, hsan, Dev.sanitizing]

theorem dstate (n : Nat) : e.dstate n = d.dstate n := by
  have hslot : e.dslot n = d.dslot n := by rw [Dev.dslot, h.cipher, Dev.dslot]
  rw [Dev.dstate, hslot, Dev.xtsHard, Dev.xtsSoft, h.regs.fget (by decide), h.regs.fget (by decide), Dev.dstate,
    Dev.xtsHard, Dev.xtsSoft]

theorem flushNss (x : Ctrl) (nsid : Nat) : e.flushNss x nsid = d.flushNss x nsid := by
  unfold Dev.flushNss
  simp only [h.nss, h.nsFor, h.anaState, h.ownsGroup]

end ChecksAlike

/-- A command that begins leaves all of that. -/
theorem ioBegan_alike (qid : Nat) : ChecksAlike d (d.ioBegan ctx cid qid) := by
  have hr : KeepsRegs pathReg d (d.dropArrival ctx (qid * 65536 + cid)) :=
    (KeepsRegs.fset _ _ (by decide)).trans (.fset _ _ (by decide))
  refine ⟨?_, ?_, hr.modTag _ _⟩
  · unfold Dev.ioBegan Dev.modTag
    split <;> rfl
  · unfold Dev.ioBegan Dev.modTag
    split <;> rfl

/-- And ROPE's entries. -/
theorem ioBegan_rope (qid : Nat) : (d.ioBegan ctx cid qid).rope = d.rope := by
  unfold Dev.ioBegan Dev.modTag
  split <;> rfl

/-! ### Commands that are outstanding, and those that are not -/

theorem ioOpen_iff : d.ioOpen ctx cid op t x = true ↔ d.tag (tagKey ctx cid) = some t ∧ t.qid ≠ 0 ∧ sqeOpcode t.sqe = op ∧
    t.checked = false ∧ (t.state = .queued ∨ t.state = .running) ∧ d.handing t = false ∧ d.ctrlFor t = some x := by
  simp only [Dev.ioOpen, Bool.and_eq_true, Bool.not_eq_true', decide_eq_true_eq, and_assoc]

theorem ioTakes_iff {h : Nat} {n : Ns} : d.ioTakes ctx cid op t x h n = true ↔ d.ioOpen ctx cid op t x = true ∧
    d.sanitizing = false ∧ d.nsFor x (sqeNsid t.sqe) = some (h, n) ∧ d.anaFails n.anagrp = none := by
  simp only [Dev.ioTakes, Bool.and_eq_true, Bool.not_eq_true', decide_eq_true_eq, and_assoc]

/-- Its tag once it runs. -/
theorem ioBegan_tags (ht : d.tag (tagKey ctx cid) = some t) (qid : Nat) : (d.ioBegan ctx cid qid).hostq.tags =
    Tab.put d.hostq.tags (tagKey ctx cid) { t with state := .running, checked := true } := by
  have ht' : (d.dropArrival ctx (qid * 65536 + cid)).tag (tagKey ctx cid) = some t := ht
  unfold Dev.ioBegan
  rw [modTag_hostq _ _ ht']
  rfl

theorem ioBegan_tag (ht : d.tag (tagKey ctx cid) = some t) (qid : Nat) : (d.ioBegan ctx cid qid).tag (tagKey ctx cid) =
    some { t with state := .running, checked := true } := by
  rw [Dev.tag, ioBegan_tags ht, look_put_self]

theorem modTag_congr {key : Nat} {g g' : Tag → Tag} (ht : d.tag key = some t) (h : g t = g' t) :
    d.modTag key g = d.modTag key g' := by
  unfold Dev.modTag
  simp only [ht, h]

/-- Is the command outstanding, of this opcode, not decoded yet and not handed over? -/
def ioWaits (d : Dev) (op : Nat) (t : Tag) : Bool :=
  decide (t.qid ≠ 0 ∧ sqeOpcode t.sqe = op) && !t.checked && decide (t.state = .queued ∨ t.state = .running) && !d.handing t

/-- Why a command is not. -/
theorem not_ioWaits (h : (d.tag (tagKey ctx cid)).any (ioWaits d op) = false) : d.tag (tagKey ctx cid) = none ∨
    ∃ t, d.tag (tagKey ctx cid) = some t ∧
      ((t.qid = 0 ∨ sqeOpcode t.sqe ≠ op ∨ t.checked ∨ !(t.state = .queued ∨ t.state = .running)) ∨ d.handing t = true) := by
  cases ht : d.tag (tagKey ctx cid) with
  | none => exact .inl rfl
  | some t =>
    rw [ht, Option.any_some, ioWaits] at h
    refine .inr ⟨t, rfl, ?_⟩
    simp only [Bool.and_eq_false_iff, decide_eq_false_iff_not, Bool.not_eq_false', not_and_or, not_not] at h
    simp only [Bool.not_eq_true', decide_eq_false_iff_not]
    tauto

/-! ### Every row of an I/O command (R142, R149, R150) -/

/-- What each row of an I/O command of an opcode does before its own checks: it is idle on a command that is not its own, and
completes one that a sanitize keeps out, whose namespace is not there, or on a failing path. -/
structure IoRow (ctx cid op : Nat) (F : Dev → Dev) : Prop where
  idle : ∀ d : Dev, (d.tag (tagKey ctx cid)).any (ioWaits d op) = false → F d = d
  sanitized : ∀ (d : Dev) t x, d.ioOpen ctx cid op t x = true → d.sanitizing = true →
    F d = (d.ioBegan ctx cid t.qid).hostDone (tagKey ctx cid) { sct := 0, sc := 0x1D, dnr := false }
  absent : ∀ (d : Dev) t x, d.ioOpen ctx cid op t x = true → d.sanitizing = false → (op ≠ 0 ∨ sqeNsid t.sqe ≠ 0xFFFFFFFF) →
    d.nsFor x (sqeNsid t.sqe) = none → F d = (d.ioBegan ctx cid t.qid).hostDone (tagKey ctx cid) { sct := 0, sc := 0x0B }
  failing : ∀ (d : Dev) t x h n c, d.ioOpen ctx cid op t x = true → d.sanitizing = false →
    d.nsFor x (sqeNsid t.sqe) = some (h, n) → d.anaFails n.anagrp = some c →
    F d = (d.ioBegan ctx cid t.qid).hostDone (tagKey ctx cid) c

theorem ioCmd_open (h : d.ioOpen ctx cid op t x = true) (f : Nat → Tag → Ns → Nat → Dev → Dev) : d.ioCmd ctx cid op f =
    if d.sanitizing then (d.ioBegan ctx cid t.qid).hostDone (tagKey ctx cid) { sct := 0, sc := 0x1D, dnr := false }
    else (d.nsFor x (sqeNsid t.sqe)).elim ((d.ioBegan ctx cid t.qid).hostDone (tagKey ctx cid) { sct := 0, sc := 0x0B }) fun p =>
      (d.anaFails p.2.anagrp).elim (f (tagKey ctx cid) t p.2 p.1 (d.ioBegan ctx cid t.qid))
        ((d.ioBegan ctx cid t.qid).hostDone (tagKey ctx cid)) := by
  obtain ⟨ht, hq, hop, hc, hs, hh, hx⟩ := ioOpen_iff.1 h
  have hb : ChecksAlike d (d.ioBegan ctx cid t.qid) := ioBegan_alike t.qid
  have he : (d.dropArrival ctx (t.qid * 65536 + cid)).modTag (tagKey ctx cid)
      (fun t => { t with state := .running, checked := true }) = d.ioBegan ctx cid t.qid := rfl
  unfold Dev.ioCmd
  simp only [ht]
  rw [if_neg (by simp [hq, hop, hc, hs]), if_neg (by rw [hh]; exact Bool.false_ne_true), he, hb.ctrlFor, hx]
  dsimp only [cqe]
  rw [hb.sanitizing, hb.nsFor]
  cases d.nsFor x (sqeNsid t.sqe) with
  | none => rfl
  | some p =>
    obtain ⟨nsh, n⟩ := p
    dsimp only [Option.elim_some]
    rw [hb.anaFails]
    cases d.anaFails n.anagrp <;> rfl

theorem ioCmd_row (f : Nat → Tag → Ns → Nat → Dev → Dev) : IoRow ctx cid op fun d => d.ioCmd ctx cid op f where
  idle d h := by
    unfold Dev.ioCmd
    rcases not_ioWaits h with ht | ⟨t, ht, hg | hh⟩
    · simp only [ht]
    · simp only [ht]
      exact if_pos hg
    · simp only [ht]
      rw [if_pos hh, ite_self]
  sanitized d t x h hs := by
    rw [ioCmd_open h f, if_pos hs]
  absent d t x h hs _ hn := by
    rw [ioCmd_open h f, if_neg (by simp [hs]), hn, Option.elim_none]
  failing d t x nsh n c h hs hn hc := by
    rw [ioCmd_open h f, if_neg (by simp [hs]), hn, Option.elim_some, hc, Option.elim_some]

/-- One that the unit serves has the checks of its own. -/
theorem ioCmd_takes {nsh : Nat} {n : Ns} (h : d.ioTakes ctx cid op t x nsh n = true) (f : Nat → Tag → Ns → Nat → Dev → Dev) :
    d.ioCmd ctx cid op f = f (tagKey ctx cid) t n nsh (d.ioBegan ctx cid t.qid) := by
  obtain ⟨hopen, hs, hn, ha⟩ := ioTakes_iff.1 h
  rw [ioCmd_open hopen f, if_neg (by simp [hs]), hn, Option.elim_some, ha, Option.elim_none]

/-! ### Ranges of blocks (R149, R151, R163) -/

theorem rangeCmd_row (data : Bool) : IoRow ctx cid op fun d => d.rangeCmd ctx cid op data := ioCmd_row _

theorem dataset_row (ranges : List (Nat × Nat)) : IoRow ctx cid 9 fun d => d.dataset ctx cid ranges := ioCmd_row _

/-- The checks of a read, a write or a write of zeroes, in their order (log 25). -/
theorem rangeCmd_takes {h : Nat} {n : Ns} (hop : op = 1 ∨ op = 2 ∨ op = 8) (ht : d.ioTakes ctx cid op t x h n = true) :
    d.rangeCmd ctx cid op (decide (op ≠ 8)) =
      if op ≠ 8 ∧ 255 < sqeNlb t.sqe then
        (d.ioBegan ctx cid t.qid).hostDone (tagKey ctx cid) { sct := 0, sc := 2 }
      else if n.nsze ≤ sqeSlba t.sqe + sqeNlb t.sqe then
        (d.ioBegan ctx cid t.qid).hostDone (tagKey ctx cid) { sct := 0, sc := 0x80 }
      else if op ≠ 8 ∧ t.sglLen < (sqeNlb t.sqe + 1) * 4096 then
        (d.ioBegan ctx cid t.qid).hostDone (tagKey ctx cid) { sct := 0, sc := 0x0F }
      else if n.formatting = true ∨ (op ≠ 2 ∧ (d.dstate n.keySlot = 0 ∨ d.dstate n.keySlot = 3)) then
        (d.ioBegan ctx cid t.qid).hostDone (tagKey ctx cid) { sct := 0, sc := 0x82, dnr := false, crd := 1 }
      else (d.ioBegan ctx cid t.qid).modTag (tagKey ctx cid) fun t =>
        { t with nsh := h, slba := (sqeSlba t.sqe), nblk := (sqeNlb t.sqe + 1) } := by
  have hwrites : decide (op = 1 ∨ op = 8) = decide (op ≠ 2) := by
    rw [decide_eq_decide]
    omega
  unfold Dev.rangeCmd
  rw [ioCmd_takes ht]
  dsimp only
  rw [(ioBegan_alike (ctx := ctx) (cid := cid) t.qid).dstate, hwrites]
  simp only [Bool.and_eq_true, Bool.or_eq_true, decide_eq_true_eq, cqe]
  split_ifs <;> [rfl; rfl; rfl; rfl; skip]
  exact modTag_congr (ioBegan_tag (ioOpen_iff.1 (ioTakes_iff.1 ht).1).1 t.qid) rfl

/-- Dataset Management: what it deallocates, or the status with which it completes (R149, R151, R216). -/
theorem dataset_takes {h : Nat} {n : Ns} {ranges rs : List (Nat × Nat)} (ht : d.ioTakes ctx cid 9 t x h n = true)
    (hrs : rs = (ranges.take (sqeDw t.sqe 10 % 256 + 1)).filter (fun r => decide (0 < r.2))) :
    d.dataset ctx cid ranges =
      if t.sglLen < 16 * (sqeDw t.sqe 10 % 256 + 1) then
        (d.ioBegan ctx cid t.qid).hostDone (tagKey ctx cid) { sct := 0, sc := 0x0F }
      else if rs.all (fun r => decide (r.1 + r.2 ≤ n.nsze)) = false then
        (d.ioBegan ctx cid t.qid).hostDone (tagKey ctx cid) { sct := 0, sc := 0x80 }
      else if n.formatting = true then
        (d.ioBegan ctx cid t.qid).hostDone (tagKey ctx cid) { sct := 0, sc := 0x82, dnr := false, crd := 1 }
      else if bitOf (sqeDw t.sqe 11) 2 = false ∨ rs = [] then (d.ioBegan ctx cid t.qid).hostDone (tagKey ctx cid) success
      else (d.ioBegan ctx cid t.qid).modTag (tagKey ctx cid) fun t =>
        { t with nsh := h, slba := (rs.headD (0, 0)).1, nblk := ((rs.map (·.2)).foldl (· + ·) 0) } := by
  have hbeyond : (rs.any fun r => decide (n.nsze < r.1 + r.2)) = !rs.all fun r => decide (r.1 + r.2 ≤ n.nsze) := by
    rw [List.not_all_eq_any_not]
    congr 1
    funext r
    rw [← decide_not, decide_eq_decide]
    omega
  unfold Dev.dataset
  rw [ioCmd_takes ht]
  dsimp only
  rw [← hrs, hbeyond]
  simp only [Bool.not_eq_true', Bool.or_eq_true, List.isEmpty_iff, cqe]
  split_ifs <;> rfl

end Sys2Proof.Proofs
end

section
/-! SUPPORT. A Flush: its rope number, its entries in ROPE's table and the writes it waits for (R142, R153, R180, R181, R184). -/

namespace Sys2Proof.Proofs

open Sys2Proof.Machine Sys2Proof.Laws

-- One proof after another: proofs that wait for a slow one would each hold a thread.
set_option Elab.async false

/-! ### Tables -/

theorem look_eq_none {α : Type} {t : Tab α} {a : Nat} : Tab.look t a = none ↔ a ∉ t.map (·.1) := by
  induction t with
  | nil => simp [Tab.look]
  | cons p t ih =>
    by_cases h : a = p.1
    · simp [Tab.look, h]
    · simp [Tab.look, h, ih]

/-- A value listed under a new key joins the table. -/
theorem mem_put_absent {α : Type} {t : Tab α} {a : Nat} (v : α) (h : Tab.look t a = none) (p : Nat × α) :
    p ∈ Tab.put t a v ↔ p = (a, v) ∨ p ∈ t := by
  induction t with
  | nil => simp [Tab.put]
  | cons q t ih =>
    obtain ⟨k, w⟩ := q
    simp only [Tab.look] at h
    split at h
    · cases h
    · next hk =>
      simp only [Tab.put, if_neg hk]
      split
      · simp
      · simp only [List.mem_cons, ih h]
        tauto

/-- A table with a key listed anew holds the same other values, whatever the key is listed with. -/
theorem mem_put_change {α : Type} {t : Tab α} {a : Nat} {v : α} (w : α) {p : Nat × α} (h : p ∈ Tab.put t a v) :
    p = (a, v) ∨ p ∈ Tab.put t a w := by
  induction t with
  | nil => exact .inl (List.mem_singleton.1 h)
  | cons q t ih =>
    obtain ⟨k, u⟩ := q
    simp only [Tab.put] at h ⊢
    split
    · next hk =>
      rw [if_pos hk] at h
      exact (List.mem_cons.1 h).imp_right (List.mem_cons_of_mem _)
    · next hk =>
      rw [if_neg hk] at h
      split
      · next hlt =>
        rw [if_pos hlt] at h
        exact (List.mem_cons.1 h).imp_right (List.mem_cons_of_mem _)
      · next hlt =>
        rw [if_neg hlt] at h
        rcases List.mem_cons.1 h with rfl | h
        · exact .inr List.mem_cons_self
        · exact (ih h).imp_right (List.mem_cons_of_mem _)

/-- The lowest free index of ROPE's table is searched for as the lowest free NSID is. -/
theorem freeLock_eq (t : Tab Lock) (f : Nat) : ∀ n, freeLock t f n = freeNsid (t.map (·.1)) f n := by
  induction f with
  | zero => exact fun _ => rfl
  | succ f ih =>
    intro n
    have hused : (Tab.look t n).isSome = (t.map (·.1)).contains n := by
      rw [Bool.eq_iff_iff, List.contains_iff_mem, Option.isSome_iff_ne_none, ne_eq, look_eq_none, not_not]
    rw [freeLock, freeNsid, hused, ih]

theorem look_freeLock (t : Tab Lock) : Tab.look t (freeLock t t.length 0) = none := by
  have hfree := (freeNsid_free (t.map (·.1)) 0).2
  rw [List.length_map] at hfree
  rw [look_eq_none, freeLock_eq]
  exact hfree

/-! ### Entries of the table (R181, R184, R185) -/

/-- What an entry is for: the part of it that stays while it waits. -/
structure LockClaim where
  kind : CmdKind
  nsh : Nat
  rope : Nat
  ctx : Nat
  cmdref : Nat

def claimOf (l : Lock) : LockClaim := { kind := l.kind, nsh := l.nsh, rope := l.rope, ctx := l.ctx, cmdref := l.cmdref }

def claims (d : Dev) : List LockClaim := d.rope.locks.map fun p => claimOf p.2

variable {d e : Dev}

/-- Work on ROPE's table that leaves HOSTQ and the next rope number. -/
structure LeavesNext (d e : Dev) : Prop where
  hostq : e.hostq = d.hostq
  next : e.fget Reg.ROPE_NEXT.ROPE = d.fget Reg.ROPE_NEXT.ROPE

theorem showLocks_leaves (h : LeavesNext d e) : LeavesNext d e.showLocks :=
  ⟨h.hostq, ((fget_fset_apart _ _ (by decide)).trans (fget_fset_apart e _ (by decide))).trans h.next⟩

theorem claims_put {i : Nat} {l : Lock} {locks : Tab Lock} (h : Tab.look locks i = none) (c : LockClaim) :
    (c ∈ (Tab.put locks i l).map fun p => claimOf p.2) ↔ c = claimOf l ∨ c ∈ locks.map fun p => claimOf p.2 := by
  simp only [List.mem_map, mem_put_absent l h]
  constructor
  · rintro ⟨p, rfl | hp, rfl⟩
    · exact .inl rfl
    · exact .inr ⟨p, hp, rfl⟩
  · rintro (rfl | ⟨p, hp, rfl⟩)
    · exact ⟨_, .inl rfl, rfl⟩
    · exact ⟨p, .inr hp, rfl⟩

/-- The entry before one that waits learns its index, and no claim changes. -/
theorem linkNext_locks (l : Lock) (i : Nat) : (d.linkNext l i).rope.locks.map (·.1) = d.rope.locks.map (·.1) ∧
    claims (d.linkNext l i) = claims d := by
  unfold claims Dev.linkNext
  simp only [List.map_map]
  constructor <;>
  · refine List.map_congr_left fun p _ => ?_
    dsimp only [Function.comp]
    split <;> rfl

/-- An entry put in the table, granted or waiting, joins the claims. -/
theorem lockIn_leaves (l : Lock) : LeavesNext d (d.lockIn l false).2 ∧
    ∀ c, c ∈ claims (d.lockIn l false).2 ↔ c = claimOf l ∨ c ∈ claims d := by
  unfold Dev.lockIn
  dsimp only
  split
  · exact ⟨showLocks_leaves ⟨rfl, rfl⟩, claims_put (look_freeLock _)⟩
  · obtain ⟨hkeys, hclaims⟩ := linkNext_locks (d := d) l (freeLock d.rope.locks d.rope.locks.length 0)
    have habsent : Tab.look (d.linkNext l (freeLock d.rope.locks d.rope.locks.length 0)).rope.locks
        (freeLock d.rope.locks d.rope.locks.length 0) = none := by
      rw [look_eq_none, hkeys, ← look_eq_none]
      exact look_freeLock _
    refine ⟨showLocks_leaves ⟨rfl, rfl⟩, fun c => (claims_put habsent c).trans ?_⟩
    rw [← hclaims]
    rfl

/-! ### Rope numbers (R180) -/

theorem raiseCeilings_leaves : LeavesNext d d.raiseCeilings ∧ d.raiseCeilings.rope = d.rope := by
  refine ⟨⟨?_, (LeavesPair.refl d).raiseCeilings.fget (by decide)⟩, ?_⟩
  · unfold Dev.raiseCeilings
    split
    · rfl
    · dsimp only
      split <;> rfl
  · unfold Dev.raiseCeilings
    split
    · rfl
    · dsimp only
      split <;> rfl

section
variable {key : Nat} {u : Tag} (hu : d.tag key = some u)
include hu

theorem ropeOf_known (h : u.rope ≠ 0) : d.ropeOf key = (u.rope, d) := by
  unfold Dev.ropeOf
  split
  · next t ht =>
    obtain rfl : u = t := Option.some.inj (hu.symm.trans ht)
    exact if_pos h
  · next ht => cases hu.symm.trans ht

/-- A command without one takes the next. -/
theorem ropeOf_next (h : u.rope = 0) : ∃ (c : Nat) (e : Dev), d.ropeOf key = (d.fget Reg.ROPE_NEXT.ROPE, e) ∧
    e.hostq = { d.hostq with
      tags := Tab.put d.hostq.tags key { u with state := .committed, rope := d.fget Reg.ROPE_NEXT.ROPE, cycle := c } } ∧
    e.rope = d.rope ∧ e.fget Reg.ROPE_NEXT.ROPE = (d.fget Reg.ROPE_NEXT.ROPE + 1) % 2 ^ 64 := by
  obtain ⟨⟨hhostq, hnext⟩, hrope⟩ := raiseCeilings_leaves (d := d)
  unfold Dev.ropeOf
  split
  · next t ht =>
    obtain rfl : u = t := Option.some.inj (hu.symm.trans ht)
    rw [if_neg (not_not.2 h)]
    dsimp only
    rw [hnext]
    refine ⟨d.raiseCeilings.cycle, _, rfl, ?_, hrope, fget_fset _ Reg.ROPE_NEXT.ROPE _ 0 (by decide) (by decide)⟩
    rw [fset_hostq, hhostq]
  · next ht => cases hu.symm.trans ht

end

/-! ### The entries of a Flush (R153, R184) -/

section
variable {ctx cid qid tenant r : Nat} {u : Tag}

theorem tagKey_queued (ctx qid cid : Nat) : tagKey ctx (qid * 65536 + cid) = tagKey ctx cid := by
  rw [tagKey, Nat.mul_add_mod_self_right, tagKey]

/-- The entry of a Flush for a namespace. -/
def flushClaim (ctx qid cid r g : Nat) : LockClaim :=
  { kind := .flush, nsh := g, rope := r, ctx := ctx, cmdref := qid * 65536 + cid }

/-- The command's entries are those of this Flush. -/
def OwnClaims (d : Dev) (ctx qid cid r : Nat) : Prop :=
  ∀ c ∈ claims d, tagKey c.ctx c.cmdref = tagKey ctx cid → ∃ g, c = flushClaim ctx qid cid r g

variable (hu : d.tag (tagKey ctx cid) = some u) (hr : u.rope = r) (h0 : 0 < r)
include hu hr h0

/-- Each namespace gets its entry once. -/
theorem holdSpace_leaves (g : Nat) (hown : OwnClaims d ctx qid cid r) :
    LeavesNext d (d.holdSpace (tagKey ctx cid) ctx (qid * 65536 + cid) tenant g .flush) ∧
      ∀ c, c ∈ claims (d.holdSpace (tagKey ctx cid) ctx (qid * 65536 + cid) tenant g .flush) ↔
        c = flushClaim ctx qid cid r g ∨ c ∈ claims d := by
  unfold Dev.holdSpace
  split
  · next hheld =>
    obtain ⟨p, hp, hpk⟩ := List.any_eq_true.1 hheld
    obtain ⟨hkey, hnsh, hkind⟩ := of_decide_eq_true hpk
    have hc : claimOf p.2 ∈ claims d := List.mem_map_of_mem hp
    obtain ⟨g', hg'⟩ := hown _ hc hkey
    have hg : claimOf p.2 = flushClaim ctx qid cid r g := by
      rw [hg', show g' = g from (congrArg LockClaim.nsh hg').symm.trans hnsh]
    exact ⟨⟨rfl, rfl⟩, fun c => ⟨.inr, fun h => h.elim (fun he => by rw [he, ← hg]; exact hc) id⟩⟩
  · rw [ropeOf_known hu (by omega), hr]
    exact lockIn_leaves _

/-- And so does each of several. -/
theorem holdSpaces_leave (gs : List Nat) (hown : OwnClaims d ctx qid cid r) :
    LeavesNext d (gs.foldl (fun d g => d.holdSpace (tagKey ctx cid) ctx (qid * 65536 + cid) tenant g .flush) d) ∧
      (∀ c ∈ claims d,
        c ∈ claims (gs.foldl (fun d g => d.holdSpace (tagKey ctx cid) ctx (qid * 65536 + cid) tenant g .flush) d)) ∧
      ∀ g ∈ gs, flushClaim ctx qid cid r g ∈
        claims (gs.foldl (fun d g => d.holdSpace (tagKey ctx cid) ctx (qid * 65536 + cid) tenant g .flush) d) := by
  induction gs generalizing d with
  | nil => exact ⟨⟨rfl, rfl⟩, fun _ hc => hc, fun _ hg => (List.not_mem_nil hg).elim⟩
  | cons g gs ih =>
    obtain ⟨⟨hhostq, hnext⟩, hclaims⟩ := holdSpace_leaves (tenant := tenant) hu hr h0 g hown
    have hu' : (d.holdSpace (tagKey ctx cid) ctx (qid * 65536 + cid) tenant g .flush).tag (tagKey ctx cid) = some u := by
      rw [Dev.tag, hhostq]
      exact hu
    have hown' : OwnClaims (d.holdSpace (tagKey ctx cid) ctx (qid * 65536 + cid) tenant g .flush) ctx qid cid r := by
      intro c hc hkey
      rcases (hclaims c).1 hc with rfl | hc
      · exact ⟨g, rfl⟩
      · exact hown c hc hkey
    obtain ⟨⟨hhostq', hnext'⟩, hkeep, hall⟩ := ih hu' hown'
    refine ⟨⟨hhostq'.trans hhostq, hnext'.trans hnext⟩, fun c hc => hkeep c ((hclaims c).2 (.inr hc)), fun g' hg' => ?_⟩
    rcases List.mem_cons.1 hg' with rfl | hg'
    · exact hkeep _ ((hclaims _).2 (.inl rfl))
    · exact hall g' hg'

end

/-! ### The command (R142, R150, R153) -/

section
variable {ctx cid : Nat} {t : Tag} {x : Ctrl}

/-- The writes that a Flush of rope number `r` waits for. -/
def flushWaits (q : Hostq) (r : Nat) (nss : List Nat) : List Nat :=
  (q.tags.filter fun p => p.2.writes && decide (p.2.state = .committed ∧ p.2.rope < r) && nss.contains p.2.nsh).map (·.1)

/-- A Flush enters ROPE under its number. -/
def flushEnters (b : Dev) (ctx cid : Nat) (t : Tag) (r : Nat) (nss : List Nat) (far : Bool) : Dev :=
  let key := tagKey ctx cid
  let e := { b with hostq := { b.hostq with flushes := Tab.put b.hostq.flushes key (flushWaits b.hostq r nss) } }
  (nss.foldl (fun d g => d.holdSpace key ctx (t.qid * 65536 + cid) t.tenant g .flush) e).modTag key fun t =>
    { t with nsh := nss.headD 0, far := far }

/-- The part of a Flush for the partner goes to it. -/
def flushSends (b : Dev) (key : Nat) (far : Bool) : Dev :=
  if far then { b with hostq := { b.hostq with fwdOut := b.hostq.fwdOut ++ [key] } } else b

/-- A Flush that passes its checks, for the namespaces `nss` of this unit, with the partner's part where `far`. -/
def flushRuns (b : Dev) (ctx cid : Nat) (t : Tag) (nss : List Nat) (far : Bool) : Dev :=
  let e := (flushSends b (tagKey ctx cid) far).ropeOf (tagKey ctx cid)
  flushEnters e.2 ctx cid t e.1 nss far

/-- Does a Flush name every namespace, of which the partner owns some, and come from a host of this unit's own? -/
def flushFar (d : Dev) (t : Tag) (x : Ctrl) : Bool :=
  decide (sqeNsid t.sqe = 0xFFFFFFFF) && (d.flushNss x (sqeNsid t.sqe)).2 && t.remote.isNone

theorem flush_open (h : d.ioOpen ctx cid 0 t x = true) : d.flush ctx cid =
    if d.sanitizing then (d.ioBegan ctx cid t.qid).hostDone (tagKey ctx cid) { sct := 0, sc := 0x1D, dnr := false }
    else if (!decide (sqeNsid t.sqe = 0xFFFFFFFF) && (d.nsFor x (sqeNsid t.sqe)).isNone) = true then
      (d.ioBegan ctx cid t.qid).hostDone (tagKey ctx cid) { sct := 0, sc := 0x0B }
    else ((d.nsFor x (sqeNsid t.sqe)).bind fun p => d.anaFails p.2.anagrp).elim
      (flushRuns (d.ioBegan ctx cid t.qid) ctx cid t (d.flushNss x (sqeNsid t.sqe)).1 (flushFar d t x))
      ((d.ioBegan ctx cid t.qid).hostDone (tagKey ctx cid)) := by
  obtain ⟨ht, hq, hop, hc, hs, hh, hx⟩ := ioOpen_iff.1 h
  have hb : ChecksAlike d (d.ioBegan ctx cid t.qid) := ioBegan_alike t.qid
  have he : (d.dropArrival ctx (t.qid * 65536 + cid)).modTag (tagKey ctx cid)
      (fun t => { t with state := .running, checked := true }) = d.ioBegan ctx cid t.qid := rfl
  have hana : (d.ioBegan ctx cid t.qid).anaFails = d.anaFails := funext hb.anaFails
  unfold Dev.flush
  simp only [ht]
  rw [if_neg (by simp [hq, hop, hc, hs]), if_neg (by rw [hh]; exact Bool.false_ne_true), hx]
  dsimp only [cqe]
  rw [he, hb.sanitizing, hb.nsFor, hana, hb.flushNss]
  unfold flushFar
  generalize d.flushNss x (sqeNsid t.sqe) = p
  obtain ⟨nss, other⟩ := p
  cases (d.nsFor x (sqeNsid t.sqe)).bind fun p => d.anaFails p.2.anagrp <;> rfl

theorem flush_row : IoRow ctx cid 0 fun d => d.flush ctx cid where
  idle d h := by
    unfold Dev.flush
    rcases not_ioWaits h with ht | ⟨t, ht, hg | hh⟩
    · simp only [ht]
    · simp only [ht]
      exact if_pos hg
    · simp only [ht]
      rw [if_pos hh, ite_self]
  sanitized d t x h hs := by
    rw [flush_open h, if_pos hs]
  absent d t x h hs hall hn := by
    rw [flush_open h, if_neg (by simp [hs]), hn, if_pos (by simpa using hall)]
  failing d t x nsh n c h hs hn hc := by
    rw [flush_open h, if_neg (by simp [hs]), hn, if_neg (by simp), Option.bind_some, hc, Option.elim_some]

/-- One with a namespace, or for every one, on usable paths runs. -/
theorem flush_takes (h : d.ioOpen ctx cid 0 t x = true) (hs : d.sanitizing = false)
    (hn : sqeNsid t.sqe = 0xFFFFFFFF ∨ (d.nsFor x (sqeNsid t.sqe)).isSome = true)
    (ha : ((d.nsFor x (sqeNsid t.sqe)).bind fun p => d.anaFails p.2.anagrp) = none) :
    d.flush ctx cid = flushRuns (d.ioBegan ctx cid t.qid) ctx cid t (d.flushNss x (sqeNsid t.sqe)).1 (flushFar d t x) := by
  rw [flush_open h, if_neg (by simp [hs]), if_neg, ha, Option.elim_none]
  rintro hne
  simp only [Bool.and_eq_true, Bool.not_eq_true', decide_eq_false_iff_not] at hne
  rcases hn with hn | hn
  · exact hne.1 hn
  · rw [Option.isSome_iff_ne_none, ne_eq, ← Option.isNone_iff_eq_none] at hn
    exact hn hne.2

theorem flushSends_leaves (b : Dev) (key : Nat) (far : Bool) :
    (flushSends b key far).hostq = { b.hostq with fwdOut := b.hostq.fwdOut ++ (if far then [key] else []) } ∧
      (flushSends b key far).rope = b.rope ∧ (flushSends b key far).regs = b.regs := by
  cases far
  · refine ⟨?_, rfl, rfl⟩
    simp only [flushSends, Bool.false_eq_true, if_false, List.append_nil]
  · exact ⟨rfl, rfl, rfl⟩

theorem mem_flushWaits {q : Hostq} {r k : Nat} {nss : List Nat} : k ∈ flushWaits q r nss ↔
    ∃ v, (k, v) ∈ q.tags ∧ v.writes = true ∧ v.state = .committed ∧ v.rope < r ∧ v.nsh ∈ nss := by
  simp only [flushWaits, List.mem_map, List.mem_filter, Bool.and_eq_true, decide_eq_true_eq, List.contains_iff_mem]
  constructor
  · rintro ⟨⟨k, v⟩, ⟨hm, ⟨hw, hs, hr⟩, hn⟩, rfl⟩
    exact ⟨v, hm, hw, hs, hr, hn⟩
  · rintro ⟨v, hm, hw, hs, hr, hn⟩
    exact ⟨(k, v), ⟨hm, ⟨hw, hs, hr⟩, hn⟩, rfl⟩

theorem modTag_rope (d : Dev) (key : Nat) (g : Tag → Tag) : (d.modTag key g).rope = d.rope := by
  unfold Dev.modTag
  split <;> rfl

/-- A Flush that enters ROPE has its entries, its tag and the writes it waits for. -/
theorem flushEnters_leaves {b : Dev} {u : Tag} {r : Nat} (nss : List Nat) (far : Bool) (hu : b.tag (tagKey ctx cid) = some u)
    (hr : u.rope = r) (hs : u.state = .committed) (hpos : 0 < r)
    (hfree : ∀ c ∈ claims b, tagKey c.ctx c.cmdref ≠ tagKey ctx cid) :
    (flushEnters b ctx cid t r nss far).fget Reg.ROPE_NEXT.ROPE = b.fget Reg.ROPE_NEXT.ROPE ∧
      (∃ t', (flushEnters b ctx cid t r nss far).tag (tagKey ctx cid) = some t' ∧ t'.state = .committed ∧ t'.rope = r ∧
        t'.nsh = nss.headD 0 ∧ t'.far = far) ∧
      (flushEnters b ctx cid t r nss far).hostq.fwdOut = b.hostq.fwdOut ∧
      (∀ g ∈ nss, ∃ p ∈ (flushEnters b ctx cid t r nss far).rope.locks, p.2.kind = .flush ∧ p.2.nsh = g ∧ p.2.rope = r ∧
        p.2.ctx = ctx) ∧
      Tab.look (flushEnters b ctx cid t r nss far).hostq.flushes (tagKey ctx cid) = some (flushWaits b.hostq r nss) := by
  obtain ⟨e, he⟩ : ∃ e : Dev, e = { b with hostq := { b.hostq with
      flushes := Tab.put b.hostq.flushes (tagKey ctx cid) (flushWaits b.hostq r nss) } } := ⟨_, rfl⟩
  have hu' : e.tag (tagKey ctx cid) = some u := by rw [he]; exact hu
  have hown : OwnClaims e ctx t.qid cid r := by
    rw [he]
    exact fun c hc hkey => (hfree c hc hkey).elim
  obtain ⟨⟨hhostq, hnext⟩, -, hall⟩ := holdSpaces_leave (tenant := t.tenant) hu' hr hpos nss hown
  obtain ⟨f, hf⟩ : ∃ f, f =
      nss.foldl (fun d g => d.holdSpace (tagKey ctx cid) ctx (t.qid * 65536 + cid) t.tenant g .flush) e := ⟨_, rfl⟩
  have hruns : flushEnters b ctx cid t r nss far = f.modTag (tagKey ctx cid) fun t =>
      { t with nsh := nss.headD 0, far := far } := by rw [hf, he, flushEnters]
  rw [← hf] at hhostq hnext hall
  have huf : f.tag (tagKey ctx cid) = some u := by rw [Dev.tag, hhostq]; exact hu'
  have hlast := modTag_hostq f (fun t => { t with nsh := nss.headD 0, far := far }) huf
  have hregs := modTag_regs f (tagKey ctx cid) fun t => { t with nsh := nss.headD 0, far := far }
  rw [hruns]
  refine ⟨?_, ⟨_, tag_modTag _ _ huf, hs, hr, rfl, rfl⟩, ?_, fun g hg => ?_, ?_⟩
  · rw [Dev.fget, Dev.reg, hregs, ← Dev.reg, ← Dev.fget, hnext, he]
    rfl
  · rw [hlast, hhostq, he]
  · obtain ⟨p, hp, hc⟩ := List.mem_map.1 (hall g hg)
    refine ⟨p, ?_, congrArg LockClaim.kind hc, congrArg LockClaim.nsh hc, congrArg LockClaim.rope hc,
      congrArg LockClaim.ctx hc⟩
    rw [modTag_rope]
    exact hp
  · rw [hlast, hhostq, he]
    exact look_put_self _ _ _

/-- What a Flush that runs leaves: its number and its entries, the writes it waits for, and its part for the partner. -/
theorem flushRuns_leaves {b : Dev} {u : Tag} {r : Nat} (nss : List Nat) (far : Bool) (hu : b.tag (tagKey ctx cid) = some u)
    (h0 : u.rope = 0) (hr : r = b.fget Reg.ROPE_NEXT.ROPE) (hpos : 0 < r)
    (hfree : ∀ c ∈ claims b, tagKey c.ctx c.cmdref ≠ tagKey ctx cid) :
    (flushRuns b ctx cid t nss far).fget Reg.ROPE_NEXT.ROPE = (r + 1) % 2 ^ 64 ∧
      (∃ t', (flushRuns b ctx cid t nss far).tag (tagKey ctx cid) = some t' ∧ t'.state = .committed ∧ t'.rope = r ∧
        t'.nsh = nss.headD 0 ∧ t'.far = far) ∧
      (flushRuns b ctx cid t nss far).hostq.fwdOut = b.hostq.fwdOut ++ (if far then [tagKey ctx cid] else []) ∧
      (∀ g ∈ nss, ∃ p ∈ (flushRuns b ctx cid t nss far).rope.locks, p.2.kind = .flush ∧ p.2.nsh = g ∧ p.2.rope = r ∧
        p.2.ctx = ctx) ∧
      ∃ c, Tab.look (flushRuns b ctx cid t nss far).hostq.flushes (tagKey ctx cid) =
        some (flushWaits { b.hostq with
          tags := Tab.put b.hostq.tags (tagKey ctx cid) { u with state := .committed, rope := r, cycle := c } } r nss) := by
  obtain ⟨hhostq, hrope, hregs⟩ := flushSends_leaves b (tagKey ctx cid) far
  have hu₁ : (flushSends b (tagKey ctx cid) far).tag (tagKey ctx cid) = some u := by rw [Dev.tag, hhostq]; exact hu
  have hr₁ : (flushSends b (tagKey ctx cid) far).fget Reg.ROPE_NEXT.ROPE = r := by
    rw [Dev.fget, Dev.reg, hregs, hr, Dev.fget, Dev.reg]
  obtain ⟨c, e, he, hhostq', hrope', hnext⟩ := ropeOf_next hu₁ h0
  rw [hr₁] at he hhostq' hnext
  rw [hhostq] at hhostq'
  have hue : e.tag (tagKey ctx cid) = some { u with state := .committed, rope := r, cycle := c } := by
    rw [Dev.tag, hhostq']
    exact look_put_self _ _ _
  have hfree' : ∀ c ∈ claims e, tagKey c.ctx c.cmdref ≠ tagKey ctx cid := by
    rw [claims, hrope', hrope]
    exact hfree
  have hruns : flushRuns b ctx cid t nss far = flushEnters e ctx cid t r nss far := by rw [flushRuns, he]
  obtain ⟨hnext', htag, hfwd, hlocks, hwaits⟩ := flushEnters_leaves (t := t) nss far hue rfl rfl hpos hfree'
  rw [hruns]
  refine ⟨hnext'.trans hnext, htag, hfwd.trans (by rw [hhostq']), hlocks, c, hwaits.trans ?_⟩
  rw [hhostq']
  rfl

/-- The Flush itself is none of the writes that it waits for. -/
theorem mem_flushWaits_own {q : Hostq} {key r k : Nat} {u v : Tag} {nss : List Nat} {ts : Tab Tag}
    (hq : q.tags = Tab.put ts key u) (hu : u.writes = false) (hv : v.writes = false) :
    k ∈ flushWaits { q with tags := Tab.put q.tags key v } r nss ↔
      ∃ w, (k, w) ∈ q.tags ∧ w.writes = true ∧ w.state = .committed ∧ w.rope < r ∧ w.nsh ∈ nss := by
  rw [mem_flushWaits]
  dsimp only
  rw [hq, put_put]
  constructor
  · rintro ⟨w, hm, hw, hrest⟩
    refine ⟨w, (mem_put_change u hm).resolve_left ?_, hw, hrest⟩
    rintro he
    rw [(Prod.mk.inj he).2, hv] at hw
    cases hw
  · rintro ⟨w, hm, hw, hrest⟩
    refine ⟨w, (mem_put_change v hm).resolve_left ?_, hw, hrest⟩
    rintro he
    rw [(Prod.mk.inj he).2, hu] at hw
    cases hw

/-- A Flush is no write. -/
theorem flush_writes (h : sqeOpcode t.sqe = 0) : t.writes = false := by
  rw [Tag.writes, h]
  exact Bool.and_false _

/-! ### Its end (R153) -/

/-- Is every write that it waits for released? -/
def writesReleased (d : Dev) (ks : List Nat) : Bool := ks.all fun k => (d.tag k).all fun u => decide (u.state ≠ .committed)

theorem flushComplete_eq : d.flushComplete ctx cid = (Tab.look d.hostq.flushes (tagKey ctx cid)).elim d fun ks =>
    if (writesReleased d ks && !(d.tag (tagKey ctx cid)).any (·.far)) = true then d.hostDone (tagKey ctx cid) success
    else d := by
  have hdone (ks : List Nat) : (ks.all fun k => match d.tag k with
      | some t => decide (t.state ≠ .committed)
      | none => true) = writesReleased d ks := by
    unfold writesReleased
    congr 1
    funext k
    cases d.tag k <;> rfl
  unfold Dev.flushComplete
  dsimp only
  cases Tab.look d.hostq.flushes (tagKey ctx cid) with
  | none => rfl
  | some ks => rw [Option.elim_some, ← hdone]; rfl

end

end Sys2Proof.Proofs
end

section
/-! The statement on the I/O commands of a host, clause by clause (R137, R142, R149 to R151, R153, R163, R216). -/

namespace Sys2Proof.Proofs

open Sys2Proof.Machine Sys2Proof.Laws

-- One proof after another: proofs that wait for a slow one would each hold a thread.
set_option Elab.async false

/-- Each of the five I/O commands has a row of its opcode. -/
theorem ioRow_of_mem {ctx cid op : Nat} {ranges : List (Nat × Nat)} {c : Instr}
    (hc : (c, op) ∈ [(Instr.write ctx cid, 1), (.read ctx cid, 2), (.writeZeroes ctx cid, 8), (.flush ctx cid, 0),
      (.datasetManagement ctx cid ranges, 9)]) :
    ∃ F, IoRow ctx cid op F ∧ ∀ s, exec c s = s.act F := by
  simp only [List.mem_cons, List.not_mem_nil, or_false, Prod.mk.injEq] at hc
  obtain ⟨rfl, rfl⟩ | ⟨rfl, rfl⟩ | ⟨rfl, rfl⟩ | ⟨rfl, rfl⟩ | ⟨rfl, rfl⟩ := hc
  · exact ⟨_, rangeCmd_row true, fun s => exec_write ..⟩
  · exact ⟨_, rangeCmd_row true, fun s => exec_read ..⟩
  · exact ⟨_, rangeCmd_row false, fun s => exec_writeZeroes ..⟩
  · exact ⟨_, flush_row, fun s => exec_flush ..⟩
  · exact ⟨_, dataset_row ranges, fun s => exec_datasetManagement ..⟩

/-- A command of a range of blocks is the check of its opcode's row. -/
theorem rangeRow_of_mem {ctx cid op : Nat} {c : Instr}
    (hc : (c, op) ∈ [(Instr.write ctx cid, 1), (.read ctx cid, 2), (.writeZeroes ctx cid, 8)]) :
    (op = 1 ∨ op = 2 ∨ op = 8) ∧ ∀ s, exec c s = s.act fun d => d.rangeCmd ctx cid op (decide (op ≠ 8)) := by
  simp only [List.mem_cons, List.not_mem_nil, or_false, Prod.mk.injEq] at hc
  obtain ⟨rfl, rfl⟩ | ⟨rfl, rfl⟩ | ⟨rfl, rfl⟩ := hc
  · exact ⟨.inl rfl, fun s => exec_write ..⟩
  · exact ⟨.inr (.inl rfl), fun s => exec_read ..⟩
  · exact ⟨.inr (.inr rfl), fun s => exec_writeZeroes ..⟩

/-- Settles O20: the checks of the I/O commands in their order, and a Flush by what it enters and waits for. -/
theorem nvmeIo : Obligations.NvmeIo := by
  unfold Obligations.NvmeIo
  refine ⟨?_, ?_, ?_, ?_, ?_, ?_, ?_, ?_, ?_, ?_, ?_, ?_⟩
  · intro s ctx cid h op c t x n hl hc ht hnlb hend hsgl hf hkey
    obtain ⟨hop, he⟩ := rangeRow_of_mem (List.mem_append_left [(Instr.writeZeroes ctx cid, 8)] hc)
    refine settles_of_act (he s) hl ((rangeCmd_takes hop ht).trans ?_)
    simp only [List.mem_cons, List.not_mem_nil, or_false, Prod.mk.injEq] at hc
    have hop' : op = 1 ∨ op = 2 := hc.imp And.right And.right
    rw [if_neg (by omega), if_neg (by omega), if_neg (by omega), if_neg]
    rintro (hfmt | ⟨h2, hstate⟩)
    · exact Bool.false_ne_true (hf.symm.trans hfmt)
    · obtain ⟨h0, h3⟩ := hkey (hop'.resolve_right h2)
      exact hstate.elim h0 h3
  · intro s ctx cid h t x n hl ht hend hf h0 h3
    refine settles_of_act (exec_writeZeroes ..) hl ((rangeCmd_takes (.inr (.inr rfl)) ht).trans ?_)
    rw [if_neg (by omega), if_neg (by omega), if_neg (by omega), if_neg (by simp [hf, h0, h3])]
  · intro s ctx cid h op c t x n hl hc ht
    obtain ⟨hop, he⟩ := rangeRow_of_mem hc
    exact settles_of_act (he s) hl (rangeCmd_takes hop ht)
  · intro s ctx cid h t x n ranges rs hl ht hsgl hrs hne hall hf had
    refine settles_of_act (exec_datasetManagement ..) hl ((dataset_takes ht hrs).trans ?_)
    rw [if_neg (by omega), if_neg (by simp [hall]), if_neg (by simp [hf]), if_neg (by simp [had, hne])]
  · intro s ctx cid h t x n ranges rs hl ht hrs hwhy
    refine settles_of_act (exec_datasetManagement ..) hl ((dataset_takes ht hrs).trans ?_)
    split
    · rfl
    · next hsgl =>
      split
      · rfl
      · next hall =>
        split
        · rfl
        · next hf => exact if_pos (by tauto)
  · intro s ctx cid op ranges c t x hl hc ho hwhy
    obtain ⟨F, hrow, he⟩ := ioRow_of_mem hc
    refine settles_of_act (he s) hl ?_
    cases hs : s.dev.sanitizing with
    | true => exact hrow.sanitized _ _ _ ho hs
    | false =>
      obtain ⟨hall, hn⟩ := hwhy.resolve_left (by simp [hs])
      exact hrow.absent _ _ _ ho hs hall hn
  · intro s ctx cid op h ranges c t x n e hl hc ho hs hn ha
    obtain ⟨F, hrow, he⟩ := ioRow_of_mem hc
    exact settles_of_act (he s) hl (hrow.failing _ _ _ _ _ _ ho hs hn ha)
  · intro d g
    unfold Dev.anaFails
    cases d.anaState g <;> rfl
  · intro s ctx cid op ranges c hl hc hidle
    obtain ⟨F, hrow, he⟩ := ioRow_of_mem hc
    exact settles_of_act (he s) hl (hrow.idle _ hidle)
  · intro s ctx cid r t x nss far hl ho hs hn ha h0 hlocks hr hpos hnss hfar
    obtain ⟨ht, -, hop, -⟩ := ioOpen_iff.1 ho
    have hb : ChecksAlike s.dev (s.dev.ioBegan ctx cid t.qid) := ioBegan_alike t.qid
    have hfree : ∀ c ∈ claims (s.dev.ioBegan ctx cid t.qid), tagKey c.ctx c.cmdref ≠ tagKey ctx cid := by
      rw [claims, ioBegan_rope]
      intro c hc
      obtain ⟨p, hp, rfl⟩ := List.mem_map.1 hc
      exact of_decide_eq_true (List.all_eq_true.1 hlocks p hp)
    obtain ⟨hnext, htag, hfwd, hent, c, hwaits⟩ := flushRuns_leaves (t := t) nss far (ioBegan_tag ht t.qid) h0
      (hr.trans (hb.regs.fget (by decide)).symm) hpos hfree
    have hfwdOut : (s.dev.ioBegan ctx cid t.qid).hostq.fwdOut = s.dev.hostq.fwdOut :=
      (congrArg Hostq.fwdOut hb.hostq).trans rfl
    refine acts_of_act _ s _ _ (exec_flush ..) hl ?_
    rw [flush_takes ho hs hn ha, ← hnss, show flushFar s.dev t x = far from hfar.symm]
    refine ⟨hnext, htag, hfwd.trans (by rw [hfwdOut]), hent, _, hwaits, fun k => ?_⟩
    exact mem_flushWaits_own (ioBegan_tags ht t.qid) (flush_writes hop) (flush_writes hop)
  · intro s ctx cid ks hl hks hall hfar
    refine settles_of_act (exec_flushComplete ..) hl (flushComplete_eq.trans ?_)
    rw [hks, Option.elim_some]
    exact if_pos (by rw [writesReleased, hall, hfar]; rfl)
  · intro s ctx cid hl hwhy
    refine settles_of_act (exec_flushComplete ..) hl (flushComplete_eq.trans ?_)
    cases hks : Tab.look s.dev.hostq.flushes (tagKey ctx cid) with
    | none => rfl
    | some ks =>
      rw [hks, Option.any_some] at hwhy
      rw [Option.elim_some]
      refine if_neg ?_
      rw [Bool.and_eq_true, Bool.not_eq_true']
      rintro ⟨hall, hfar⟩
      rcases hwhy with hno | hyes
      · exact Bool.false_ne_true (hno.symm.trans hall)
      · exact Bool.false_ne_true (hfar.symm.trans hyes)

end Sys2Proof.Proofs
end

section
/-! SUPPORT. Admin commands: those that do not run, the device that has begun one, and how they end (R148, R150, R151, R162). -/

namespace Sys2Proof.Proofs

open Sys2Proof.Machine Sys2Proof.Laws

-- One proof after another: proofs that wait for a slow one would each hold a thread.
set_option Elab.async false

variable {d : Dev} {ctx cid op : Nat} {t : Tag} {x : Ctrl}

/-! ### The rows of admin commands -/

/-- The rows of admin commands from a sender, each with its opcode. -/
def adminOps (src : Src) (off : Nat) (data : List Byte) (n : NsCmd) (attach : Bool) (l : List Nat) : List (Instr × Nat) :=
  [(.getLogPage src, 2), (.identify src, 6), (.abort src, 8), (.setFeatures src data, 9), (.getFeatures src, 0x0A),
    (.asynchronousEventRequest src, 0x0C), (.namespaceManagement src n, 0x0D), (.firmwareCommit src, 0x10),
    (.firmwareImageDownload src off data, 0x11), (.deviceSelfTestShort src, 0x14), (.deviceSelfTestExtended src, 0x14),
    (.deviceSelfTestAbort src, 0x14), (.namespaceAttachment src off attach l, 0x15), (.keepAlive src, 0x18),
    (.propertyGet src, 0x7F), (.propertySet src, 0x7F), (.formatNvm src, 0x80), (.sanitizeCryptoErase src, 0x84),
    (.sanitizeBlockErase src, 0x84)]

/-- Those that a sanitize keeps out (R150). -/
def keptOut (src : Src) (off : Nat) (data : List Byte) (n : NsCmd) (attach : Bool) (l : List Nat) : List (Instr × Nat) :=
  [(.setFeatures src data, 9), (.asynchronousEventRequest src, 0x0C), (.namespaceManagement src n, 0x0D),
    (.firmwareCommit src, 0x10), (.firmwareImageDownload src off data, 0x11), (.deviceSelfTestShort src, 0x14),
    (.deviceSelfTestExtended src, 0x14), (.deviceSelfTestAbort src, 0x14), (.namespaceAttachment src off attach l, 0x15),
    (.propertyGet src, 0x7F), (.propertySet src, 0x7F), (.formatNvm src, 0x80), (.sanitizeCryptoErase src, 0x84),
    (.sanitizeBlockErase src, 0x84)]

/-- The row runs an admin command of the opcode from the sender. -/
def AdminRow (src : Src) (p : Instr × Nat) : Prop := ∃ f, ∀ s : State, exec p.1 s = s.act fun d => d.admin src p.2 f

section
variable {src : Src} {off : Nat} {data : List Byte} {n : NsCmd} {attach : Bool} {l : List Nat}

theorem adminOps_row {p : Instr × Nat} (hp : p ∈ adminOps src off data n attach l) : AdminRow src p := by
  have hns : AdminRow src (.namespaceManagement src n, 0x0D) := by
    cases n <;> exact ⟨_, fun _ => rfl⟩
  simp only [adminOps, List.mem_cons, List.not_mem_nil, or_false] at hp
  rcases hp with rfl | rfl | rfl | rfl | rfl | rfl | rfl | rfl | rfl | rfl | rfl | rfl | rfl | rfl | rfl | rfl | rfl | rfl | rfl
  case inr.inr.inr.inr.inr.inr.inl => exact hns
  all_goals exact ⟨_, fun _ => rfl⟩

theorem keptOut_subset : keptOut src off data n attach l ⊆ adminOps src off data n attach l :=
  (.cons _ <| .cons _ <| .cons _ <| .cons_cons _ <| .cons _ <| .cons_cons _ <| .cons_cons _ <| .cons_cons _ <| .cons_cons _ <|
    .cons_cons _ <| .cons_cons _ <| .cons_cons _ <| .cons_cons _ <| .cons _ <| List.Sublist.refl _ :
    (keptOut src off data n attach l).Sublist (adminOps src off data n attach l)).subset

/-- The admin rows that a host's commands have too. -/
theorem hostOps_subset : [(Instr.getLogPage src, 2), (.identify src, 6), (.abort src, 8), (.setFeatures src data, 9),
    (.getFeatures src, 0x0A), (.asynchronousEventRequest src, 0x0C), (.deviceSelfTestShort src, 0x14),
    (.deviceSelfTestExtended src, 0x14), (.deviceSelfTestAbort src, 0x14), (.keepAlive src, 0x18), (.propertyGet src, 0x7F),
    (.propertySet src, 0x7F), (.formatNvm src, 0x80)] ⊆ adminOps src off data n attach l := by
  refine List.Sublist.subset ?_
  exact .cons_cons _ <| .cons_cons _ <| .cons_cons _ <| .cons_cons _ <| .cons_cons _ <| .cons_cons _ <| .cons _ <| .cons _ <|
    .cons _ <| .cons_cons _ <| .cons_cons _ <| .cons_cons _ <| .cons _ <| .cons_cons _ <| .cons_cons _ <| .cons_cons _ <|
    .cons_cons _ <| List.nil_sublist _

theorem hostKeptOut_subset : [(Instr.setFeatures src data, 9), (.asynchronousEventRequest src, 0x0C),
    (.deviceSelfTestShort src, 0x14), (.deviceSelfTestExtended src, 0x14), (.deviceSelfTestAbort src, 0x14),
    (.propertyGet src, 0x7F), (.propertySet src, 0x7F), (.formatNvm src, 0x80)] ⊆ keptOut src off data n attach l := by
  refine List.Sublist.subset ?_
  exact .cons_cons _ <| .cons_cons _ <| .cons _ <| .cons _ <| .cons _ <| .cons_cons _ <| .cons_cons _ <| .cons_cons _ <|
    .cons _ <| .cons_cons _ <| .cons_cons _ <| .cons_cons _ <| List.nil_sublist _

theorem keptOut_sanitize {p : Instr × Nat} (hp : p ∈ keptOut src off data n attach l) :
    AdminRow src p ∧ sanitizeOk.contains p.2 = false := by
  refine ⟨adminOps_row (keptOut_subset hp), ?_⟩
  have hops : p.2 ∈ (keptOut src off data n attach l).map (·.2) := List.mem_map_of_mem hp
  have hall : ∀ op ∈ [9, 0x0C, 0x0D, 0x10, 0x11, 0x14, 0x14, 0x14, 0x15, 0x7F, 0x7F, 0x80, 0x84, 0x84],
      sanitizeOk.contains op = false := by decide
  exact hall _ hops

end

/-! ### Commands that do not run (R150, R162) -/

theorem admin_idle (h : ((d.tag (tagKey ctx cid)).any fun t =>
      decide (t.qid = 0 ∧ sqeOpcode t.sqe = op ∧ t.state ≠ .completed) && !t.held) = false) (f : AdmIn → Dev → Dev) :
    d.admin (.host ctx cid) op f = d := by
  unfold Dev.admin
  cases ht : d.tag (tagKey ctx cid) with
  | none => simp only [ht]
  | some t =>
    simp only [ht]
    refine if_pos ?_
    rw [ht, Option.any_some, Bool.and_eq_false_iff, decide_eq_false_iff_not, Bool.not_eq_false'] at h
    tauto

theorem admin_keptOut (ht : d.tag (tagKey ctx cid) = some t) (hq : t.qid = 0) (hop : sqeOpcode t.sqe = op)
    (hs : t.state ≠ .completed) (hh : t.held = false) (hx : d.ctrlFor t = some x) (hsan : d.sanitizing = true)
    (hk : sanitizeOk.contains op = false) (f : AdmIn → Dev → Dev) :
    d.admin (.host ctx cid) op f = (d.began ctx cid).ends ctx cid { sct := 0, sc := 0x1D, dnr := false } none := by
  unfold Dev.admin
  simp only [ht]
  rw [if_neg (by simp [hq, hop, hs, hh]), hx]
  exact if_pos (by change ((d.began ctx cid).sanitizing && !sanitizeOk.contains op) = true; rw [began_keeps.1, hsan, hk]; rfl)

section
variable {sqe : List Word}

theorem adminMgmt_idle (h : d.on 0x10 = false ∨ sqeOpcode sqe ≠ op) (f : AdmIn → Dev → Dev) :
    d.admin (.mgmt sqe) op f = d := by
  unfold Dev.admin
  exact if_pos (by simpa using h)

theorem adminMgmt_keptOut (hon : d.on 0x10 = true) (hop : sqeOpcode sqe = op) (hsan : d.sanitizing = true)
    (hk : sanitizeOk.contains op = false) (f : AdmIn → Dev → Dev) :
    d.admin (.mgmt sqe) op f = d.mgmtEnds { sct := 0, sc := 0x1D, dnr := false } := by
  unfold Dev.admin
  refine (if_neg (by simp [hon, hop])).trans ((if_pos ?_).trans rfl)
  rw [hsan, hk]
  rfl

theorem mgmtTakes_of (hon : d.on 0x10 = true) (hop : sqeOpcode sqe = op) (hsan : d.sanitizing = false) :
    d.mgmtTakes sqe op = true := by
  rw [Dev.mgmtTakes, hon, hsan, decide_eq_true hop]
  rfl

end

/-! ### The device that has begun a command -/

/-- What a command of a host runs on: its entry, its controller and its SGL. -/
def hostIn (ctx cid : Nat) (t : Tag) (x : Ctrl) : AdmIn :=
  { src := .host ctx cid, sqe := t.sqe, ctrl := some (t.ctrl, x), sgl := t.sglLen }

/-- What a tunnelled one runs on. -/
def mgmtIn (sqe : List Word) : AdmIn := { src := .mgmt sqe, sqe := padWords 8 sqe, ctrl := none, sgl := 2 ^ 32 }

theorem admDone_host (e : Dev) (c : Cqe) : e.admDone (hostIn ctx cid t x) c = e.ends ctx cid c none := rfl

theorem admDone_data (e : Dev) (c : Cqe) (h : HostData) :
    e.admDone (hostIn ctx cid t x) c (some h) = e.ends ctx cid c (some { h with len := (min h.len t.sglLen) }) := rfl

theorem admDone_mgmt (e : Dev) (sqe : List Word) (c : Cqe) : e.admDone (mgmtIn sqe) c = e.mgmtEnds c := rfl

/-- Beginning a command concerns PITCH's queue, its registers and the command's tag. -/
theorem began_eq : d.began ctx cid = { d with
    pitch := (d.began ctx cid).pitch
    regs := (d.began ctx cid).regs
    hostq := { d.hostq with tags := (d.began ctx cid).hostq.tags } } := by
  unfold Dev.began Dev.modTag
  split <;> rfl

theorem began_hostq : (d.began ctx cid).hostq = { d.hostq with tags := (d.began ctx cid).hostq.tags } :=
  congrArg Dev.hostq began_eq

theorem began_free : (d.began ctx cid).free = d.free := (congrArg Dev.free began_eq).trans rfl

theorem began_now : (d.began ctx cid).now = d.now := (congrArg Dev.now began_eq).trans rfl

theorem began_map : (d.began ctx cid).map = d.map := (congrArg Dev.map began_eq).trans rfl

theorem began_rope : (d.began ctx cid).rope = d.rope := (congrArg Dev.rope began_eq).trans rfl

theorem began_nss : (d.began ctx cid).hostq.nss = d.hostq.nss := (congrArg Hostq.nss began_hostq).trans rfl

theorem began_selfTest : (d.began ctx cid).hostq.selfTest = d.hostq.selfTest := (congrArg Hostq.selfTest began_hostq).trans rfl

theorem began_ctrl (k : Nat) : (d.began ctx cid).ctrl k = d.ctrl k :=
  (congrArg (fun q : Hostq => Tab.look q.ctrls k) began_hostq).trans rfl

theorem began_inst (blk n : Nat) : (d.began ctx cid).inst blk n = d.inst blk n :=
  (congrArg (fun e : Dev => e.inst blk n) began_eq).trans rfl

theorem began_alike : ChecksAlike d (d.began ctx cid) := by
  have hr : KeepsRegs pathReg d (d.dropArrival ctx cid) := (KeepsRegs.fset _ _ (by decide)).trans (.fset _ _ (by decide))
  exact ⟨began_hostq, (congrArg Dev.cipher began_eq).trans rfl, hr.modTag _ _⟩

/-- The namespaces that a sender sees, and the one that it names. -/
theorem began_nsOf (a : AdmIn) : (d.began ctx cid).nsOf a = d.nsOf a := by rw [Dev.nsOf, began_nss, Dev.nsOf]

theorem began_nsNamed (a : AdmIn) : (d.began ctx cid).nsNamed a = d.nsNamed a := by
  rw [Dev.nsNamed, began_nsOf, Dev.nsNamed]

theorem admin_host (h : d.adminTakes ctx cid op t x = true) (f : AdmIn → Dev → Dev) :
    d.admin (.host ctx cid) op f = f (hostIn ctx cid t x) (d.began ctx cid) := admin_takes h f

theorem admin_mgmtIn {sqe : List Word} (h : d.mgmtTakes sqe op = true) (f : AdmIn → Dev → Dev) :
    d.admin (.mgmt sqe) op f = f (mgmtIn sqe) d := admin_mgmt h f

end Sys2Proof.Proofs
end

section
/-! SUPPORT. The data that Get Log Page and Identify return (R148, R151, R156, R158 to R160, R163). -/

namespace Sys2Proof.Proofs

open Sys2Proof.Machine Sys2Proof.Laws

-- One proof after another: proofs that wait for a slow one would each hold a thread.
set_option Elab.async false

/-! ### Numbers and strings in memory -/

theorem read_write_other (k n v : Nat) (m : Memory) (a b : Nat) (h : b + k ≤ a ∨ a + n ≤ b) :
    (m.write a n v).read b k = m.read b k :=
  read_congr k fun c hle hlt => byte_write_other n m a c v (by omega)

theorem read_setBytes_other (k : Nat) (bs : List Byte) (m : Memory) (a b : Nat) (h : b + k ≤ a ∨ a + bs.length ≤ b) :
    (m.setBytes a bs).read b k = m.read b k :=
  read_congr k fun c hle hlt => byte_setBytes_other bs m a c (by omega)

/-- Writes elsewhere, one after another, leave a number. -/
theorem read_foldl {α : Type} (b k : Nat) (g : Memory → α → Memory) (hg : ∀ m y, (g m y).read b k = m.read b k)
    (l : List α) : ∀ m, (l.foldl g m).read b k = m.read b k := by
  induction l with
  | nil => exact fun _ => rfl
  | cons y l ih => exact fun m => (ih _).trans (hg m y)

/-- What Get Log Page returns of a page from its start. -/
def pageHead (m : Memory) (len : Nat) : Memory :=
  ((m.filter fun p => decide (0 ≤ p.1)).map fun p => (p.1 - 0, p.2)).filter fun p => decide (p.1 < len)

theorem byte_pageHead (m : Memory) {a len : Nat} (h : a < len) : (pageHead m len).byte a = m.byte a := by
  have hall : (m.filter fun p => decide (0 ≤ p.1)).map (fun p => (p.1 - 0, p.2)) = m := by
    simp only [Nat.zero_le, decide_true, List.filter_true, Nat.sub_zero, Prod.mk.eta, List.map_id']
  rw [Memory.byte, pageHead, hall, look_filter_key m (fun k => decide (k < len)) a, if_pos (decide_eq_true h), Memory.byte]

theorem read_pageHead (m : Memory) {a n len : Nat} (h : a + n ≤ len) : (pageHead m len).read a n = m.read a n :=
  read_congr n fun _ _ hlt => byte_pageHead m (by omega)

variable {d : Dev} {ctx cid : Nat} {t : Tag} {x : Ctrl}

/-! ### Get Log Page (R148, R150, R158, R159) -/

/-- The length that the command asks for. -/
def logLen (t : Tag) : Nat := (bitsOf (sqeDw t.sqe 10) 31 16 + (sqeDw t.sqe 11 % 65536) * 65536 + 1) * 4

/-- The page as the command finds it. -/
def pageOf (d : Dev) (ctx cid : Nat) (t : Tag) (x : Ctrl) : Option (HostData × Dev) :=
  (d.began ctx cid).logPage (hostIn ctx cid t x) ((hostIn ctx cid t x).dw 10 % 256)

section
variable (h : d.adminTakes ctx cid 2 t x = true)
include h

theorem getLogPage_unsupported (hp : pageOf d ctx cid t x = none) :
    d.getLogPage (.host ctx cid) = (d.began ctx cid).ends ctx cid { sct := 1, sc := 9 } none := by
  unfold Dev.getLogPage
  rw [admin_host h]
  dsimp only
  rw [← pageOf, hp]
  rfl

theorem getLogPage_beyond {p : HostData} {e : Dev} (hp : pageOf d ctx cid t x = some (p, e))
    (ho : p.len < sqeDw t.sqe 12 + sqeDw t.sqe 13 * 2 ^ 32 ∨ (sqeDw t.sqe 12 + sqeDw t.sqe 13 * 2 ^ 32) % 4 ≠ 0) :
    d.getLogPage (.host ctx cid) = (d.began ctx cid).ends ctx cid { sct := 0, sc := 2 } none := by
  unfold Dev.getLogPage
  rw [admin_host h]
  dsimp only
  rw [← pageOf, hp]
  exact if_pos ho

/-- A read from the start of a page: with RAE = 0 it lets go of the page's event first. -/
theorem getLogPage_head {p : HostData} {e : Dev} (hp : pageOf d ctx cid t x = some (p, e)) (h12 : sqeDw t.sqe 12 = 0)
    (h13 : sqeDw t.sqe 13 = 0) (hlen : 0 < t.sglLen) : ∃ given, (p.given = [] → given = []) ∧
    d.getLogPage (.host ctx cid) = Dev.ends
      (if bitOf (sqeDw t.sqe 10) 15 then e
       else
         let b := e.modCtrl t.ctrl fun x =>
           { x with events := x.events.filter fun e => decide (e.page ≠ sqeDw t.sqe 10 % 256) }
         if sqeDw t.sqe 10 % 256 = 4 then
           { b with hostq := { b.hostq with changed := b.hostq.changed.filter fun k => decide (k / 2 ^ 32 ≠ t.ctrl) } }
         else b) ctx cid success
      (some { m := pageHead p.m (logLen t), len := (min (min (logLen t) p.len) t.sglLen), open_ := p.open_
              given := given }) := by
  refine ⟨(p.given.filter fun g => decide (0 < g.1 + g.2.1)).map fun g => (g.1 - 0, g.2.1 - (0 - g.1), g.2.2), ?_, ?_⟩
  · intro hg
    rw [hg]
    rfl
  unfold Dev.getLogPage
  rw [admin_host h]
  have ho : (hostIn ctx cid t x).dw 12 + (hostIn ctx cid t x).dw 13 * 2 ^ 32 = 0 := by
    rw [AdmIn.dw, AdmIn.dw, hostIn, h12, h13, Nat.zero_mul]
  dsimp only
  rw [← pageOf, hp]
  dsimp only
  rw [ho, if_neg (by omega), if_neg (show ¬ (hostIn ctx cid t x).sgl = 0 from hlen.ne')]
  rfl

end

/-! #### The pages -/

theorem began_visible (n : Nat) : (d.began ctx cid).meterVisible n = d.meterVisible n :=
  (congrArg (fun q : Hostq => q.visible.contains n) began_hostq).trans rfl

theorem pageOf_unsupported {lid : Nat} (hl : lid = sqeDw t.sqe 10 % 256)
    (hn : (lid = 0xC0 ∧ d.meterVisible x.tenant = false) ∨ (lid = 0x70 ∧ x.discovery = false) ∨
      lid ∉ [1, 2, 3, 4, 5, 6, 0x0C, 0x70, 0x81, 0xC0]) : pageOf d ctx cid t x = none := by
  have hlid : (hostIn ctx cid t x).dw 10 % 256 = lid := hl.symm
  rw [pageOf, hlid]
  clear hl hlid
  rcases hn with ⟨rfl, hv⟩ | ⟨rfl, hx⟩ | hn
  · simp [Dev.logPage, hostIn, began_visible, hv]
  · simp [Dev.logPage, hostIn, hx]
  · simp only [List.mem_cons, List.not_mem_nil, or_false, not_or] at hn
    simp [Dev.logPage, hn]

section
variable (hv : d.meterVisible x.tenant = true) (hl : sqeDw t.sqe 10 % 256 = 0xC0)
include hv hl

/-- Log page C0h of a tenant whose meter the host may see (R159). -/
theorem pageOf_meter : pageOf d ctx cid t x = some ({ m := d.tenantPage x.tenant, len := 512 }, d.began ctx cid) := by
  have hlid : (hostIn ctx cid t x).dw 10 % 256 = 0xC0 := hl
  have hpage : (d.began ctx cid).tenantPage x.tenant = d.tenantPage x.tenant := by
    rw [began_eq]
    rfl
  rw [pageOf, hlid, ← hpage]
  simp [Dev.logPage, hostIn, began_visible, hv]

end

theorem pageOf_selfTest (hl : sqeDw t.sqe 10 % 256 = 6) : ∃ given, pageOf d ctx cid t x =
    some ({ m := d.selfTestPage, len := 564, open_ := (some (Config.freeValue d.free)), given := given },
      { d.began ctx cid with free := d.free + 1 }) := by
  have hlid : (hostIn ctx cid t x).dw 10 % 256 = 6 := hl
  have hpage : (d.began ctx cid).selfTestPage = d.selfTestPage := by
    rw [began_eq]
    rfl
  rw [pageOf, hlid, ← hpage, ← began_free (ctx := ctx) (cid := cid)]
  exact ⟨_, rfl⟩

theorem pageOf_sanitize (hl : sqeDw t.sqe 10 % 256 = 0x81) : ∃ given, pageOf d ctx cid t x =
    some ({ m := d.sanitizePage, len := 512, open_ := (some (Config.freeValue d.free)), given := given },
      { d.began ctx cid with free := d.free + 1 }) := by
  have hlid : (hostIn ctx cid t x).dw 10 % 256 = 0x81 := hl
  have hpage : (d.began ctx cid).sanitizePage = d.sanitizePage := by
    rw [began_eq]
    rfl
  rw [pageOf, hlid, ← hpage, ← began_free (ctx := ctx) (cid := cid)]
  exact ⟨_, rfl⟩

/-- Log page 04h, the namespaces that changed (R158). -/
theorem pageOf_changed (hl : sqeDw t.sqe 10 % 256 = 4) : ∃ m, pageOf d ctx cid t x =
    some ({ m := m, len := 4096 }, d.began ctx cid) := by
  have hlid : (hostIn ctx cid t x).dw 10 % 256 = 4 := hl
  rw [pageOf, hlid]
  exact ⟨_, rfl⟩

/-- The test in progress, as page 06h numbers it (R156). -/
theorem selfTestPage_current : d.selfTestPage.read 0 1 = (match d.hostq.selfTest with
    | some q => if q.extended then 2 else 1
    | none => 0) := by
  unfold Dev.selfTestPage
  dsimp only
  rw [read_foldl 0 1 _ (fun m i => ?_), read_write]
  · cases d.hostq.selfTest with
    | none => rfl
    | some q => cases hq : q.extended <;> simp [hq]
  · split
    · rw [read_write_other _ _ _ _ _ _ (by omega), read_write_other _ _ _ _ _ _ (by omega)]
    · rw [read_write_other _ _ _ _ _ _ (by omega)]

/-- With no sanitize running, page 81h shows its end (R163). -/
theorem sanitizePage_ended (h : d.sanitizing = false) : d.sanitizePage.read 0 2 = 0xFFFF ∧
    d.sanitizePage.read 2 1 = (if d.hostq.sanitize = none then 0 else 1) := by
  unfold Dev.sanitizePage
  rw [Dev.sanitizing] at h
  cases hs : d.hostq.sanitize with
  | none =>
    dsimp only
    rw [read_write_other _ _ _ _ _ _ (by omega), read_write_other _ _ _ _ _ _ (by omega), read_write,
      read_write_other _ _ _ _ _ _ (by omega), read_write]
    exact ⟨rfl, rfl⟩
  | some z =>
    rw [hs, Option.any_some] at h
    dsimp only
    rw [h, if_neg Bool.false_ne_true]
    dsimp only
    rw [read_write_other _ _ _ _ _ _ (by omega), read_write_other _ _ _ _ _ _ (by omega), read_write,
      read_write_other _ _ _ _ _ _ (by omega), read_write, if_neg (by simp)]
    exact ⟨rfl, rfl⟩

theorem getLogPage_mgmt {sqe : List Word} (h : d.mgmtTakes sqe 2 = true)
    (hl : sqeDw (padWords 8 sqe) 10 % 256 ∈ [0x70, 0xC0]) :
    d.getLogPage (.mgmt sqe) = d.mgmtEnds { sct := 1, sc := 9 } := by
  have hp : d.logPage (mgmtIn sqe) ((mgmtIn sqe).dw 10 % 256) = none := by
    have hlid : (mgmtIn sqe).dw 10 % 256 ∈ [0x70, 0xC0] := hl
    simp only [List.mem_cons, List.not_mem_nil, or_false] at hlid
    rcases hlid with hlid | hlid
    · rw [hlid]
      rfl
    · rw [hlid]
      rfl
  unfold Dev.getLogPage
  rw [admin_mgmtIn h]
  dsimp only
  rw [hp]
  rfl

section
variable (h : d.adminTakes ctx cid 2 t x = true) (h12 : sqeDw t.sqe 12 = 0) (h13 : sqeDw t.sqe 13 = 0)
include h h12 h13

/-- A read from the start of a page that keeps the page's event. -/
theorem getLogPage_keeps {p : HostData} {e : Dev} (hp : pageOf d ctx cid t x = some (p, e))
    (hrae : bitOf (sqeDw t.sqe 10) 15 = true) (hlen : 0 < t.sglLen) : ∃ given, (p.given = [] → given = []) ∧
    d.getLogPage (.host ctx cid) = e.ends ctx cid success (some
      { m := pageHead p.m (logLen t), len := (min (min (logLen t) p.len) t.sglLen), open_ := p.open_, given := given }) := by
  obtain ⟨given, hg, he⟩ := getLogPage_head h hp h12 h13 hlen
  exact ⟨given, hg, he.trans (by rw [if_pos hrae])⟩

/-- A read of page 04h that lets go of its event, and of the list (R158). -/
theorem getLogPage_changed (hl : sqeDw t.sqe 10 % 256 = 4) (hrae : bitOf (sqeDw t.sqe 10) 15 = false) (hlen : 0 < t.sglLen) :
    ∃ p : HostData, p.len = min (min (logLen t) 4096) t.sglLen ∧ p.open_ = none ∧ d.getLogPage (.host ctx cid) =
      (let b := (d.began ctx cid).modCtrl t.ctrl fun x =>
         { x with events := x.events.filter fun e => decide (e.page ≠ 4) }
       Dev.ends { b with hostq := { b.hostq with
         changed := d.hostq.changed.filter fun k => decide (k / 2 ^ 32 ≠ t.ctrl) } } ctx cid success (some p)) := by
  obtain ⟨m, hp⟩ := pageOf_changed (d := d) (ctx := ctx) (cid := cid) (x := x) hl
  obtain ⟨given, -, he⟩ := getLogPage_head h hp h12 h13 hlen
  have hkept (g : Ctrl → Ctrl) : ((d.began ctx cid).modCtrl t.ctrl g).hostq.changed = d.hostq.changed := by
    refine Eq.trans ?_ ((congrArg Hostq.changed (began_hostq (d := d) (ctx := ctx) (cid := cid))).trans rfl)
    unfold Dev.modCtrl
    split <;> rfl
  refine ⟨{ m := pageHead m (logLen t), len := (min (min (logLen t) 4096) t.sglLen), given := given }, rfl, rfl,
    he.trans ?_⟩
  rw [hl, hrae, if_neg Bool.false_ne_true]
  dsimp only
  rw [if_pos rfl, hkept]

end

/-! ### Identify (R148, R160) -/

section
variable (h : d.adminTakes ctx cid 6 t x = true)
include h

theorem identify_unsupported (hc : sqeDw t.sqe 10 % 256 ∉ [0, 1, 2, 3, 8, 0x1C]) :
    d.identify (.host ctx cid) = (d.began ctx cid).ends ctx cid { sct := 0, sc := 2 } none := by
  unfold Dev.identify
  rw [admin_host h]
  refine (if_pos ?_).trans rfl
  rw [Bool.not_eq_true', Bool.eq_false_iff, ne_eq, List.contains_iff_mem]
  exact hc

variable (hlen : 0 < t.sglLen)
include hlen

/-- Identify Controller returns its page. -/
theorem identify_ctrl (hc : sqeDw t.sqe 10 % 256 = 1) : d.identify (.host ctx cid) = (d.began ctx cid).ends ctx cid success
    (some { m := (d.began ctx cid).identifyCtrl (hostIn ctx cid t x), len := (min 4096 t.sglLen) }) := by
  have hcns : (hostIn ctx cid t x).dw 10 % 256 = 1 := hc
  unfold Dev.identify
  rw [admin_host h]
  dsimp only
  rw [hcns, if_neg (by decide), if_neg (show ¬ (hostIn ctx cid t x).sgl = 0 from hlen.ne'), if_pos rfl]
  rfl

/-- Identify Namespace returns the page of the namespace named. -/
theorem identify_ns {k : Nat} {n : Ns} (hc : sqeDw t.sqe 10 % 256 = 0)
    (hn : d.nsNamed (hostIn ctx cid t x) = some (k, n)) : d.identify (.host ctx cid) =
      Dev.ends { d.began ctx cid with free := d.free + 1 } ctx cid success
        (some { m := (identifyNs n), len := (min 4096 t.sglLen), open_ := (some (Config.freeValue d.free))
                given := nsGiven }) := by
  have hcns : (hostIn ctx cid t x).dw 10 % 256 = 0 := hc
  unfold Dev.identify
  rw [admin_host h]
  dsimp only
  rw [hcns, if_neg (by decide), if_neg (show ¬ (hostIn ctx cid t x).sgl = 0 from hlen.ne'), if_neg (by decide),
    if_neg (by decide), if_neg (by decide), began_nsNamed, hn, ← began_free (ctx := ctx) (cid := cid)]
  rfl

/-- One that names none the controller sees fails. -/
theorem identify_absent (hc : sqeDw t.sqe 10 % 256 ∈ [0, 3, 8]) (hn : d.nsNamed (hostIn ctx cid t x) = none) :
    d.identify (.host ctx cid) = (d.began ctx cid).ends ctx cid { sct := 0, sc := 0x0B } none := by
  have hcns : (hostIn ctx cid t x).dw 10 % 256 ∈ [0, 3, 8] := hc
  unfold Dev.identify
  rw [admin_host h]
  dsimp only
  rw [began_nsNamed, hn]
  generalize (hostIn ctx cid t x).dw 10 % 256 = cns at hcns
  simp only [List.mem_cons, List.not_mem_nil, or_false] at hcns
  rcases hcns with rfl | rfl | rfl <;>
  · rw [if_neg (by decide), if_neg (show ¬ (hostIn ctx cid t x).sgl = 0 from hlen.ne'), if_neg (by decide),
      if_neg (by decide), if_neg (by decide)]
    rfl

end

/-- Fields of Identify Namespace (R138, R149). -/
theorem identifyNs_reads (n : Ns) : (identifyNs n).read 0 8 = n.nsze % 2 ^ 64 ∧ (identifyNs n).read 8 8 = n.nsze % 2 ^ 64 ∧
    (identifyNs n).read 16 8 = n.nsze % 2 ^ 64 ∧ (identifyNs n).read 92 4 = n.anagrp % 2 ^ 32 ∧
    (identifyNs n).read 130 1 = 12 ∧ (identifyNs n).read 25 2 = 0 ∧ (identifyNs n).read 33 1 = 0 := by
  have h8 : 2 ^ 64 = 256 ^ 8 := by norm_num
  have h4 : 2 ^ 32 = 256 ^ 4 := by norm_num
  have h0 : ∀ a k, Memory.read [] a k = 0 := by
    intro a k
    induction k generalizing a with
    | zero => rfl
    | succ k ih => rw [Memory.read, ih]; rfl
  rw [h8, h4]
  unfold identifyNs
  refine ⟨?_, ?_, ?_, ?_, ?_, ?_, ?_⟩ <;>
    simp (disch := omega) only [read_write_other, read_write, h0]
  norm_num

/-- The numbers in Identify Controller, below its two hashes: those of the table, one after another. -/
theorem identifyCtrl_reads (e : Dev) (a : AdmIn) : (e.identifyCtrl a).read 516 4 = 16384 ∧
    (e.identifyCtrl a).read 77 1 = 8 ∧
    (e.identifyCtrl a).read 3138 1 = e.fget Reg.CAMP_STRAP.UNIT_ID % 256 ∧
    (e.identifyCtrl a).read 3136 2 = (e.inst 0x13 0).active % 65536 := by
  have h32 : ((e.measure 4).take 32).length ≤ 32 := List.length_take_le 32 _
  have h32' : ((e.measure 3).take 32).length ≤ 32 := List.length_take_le 32 _
  unfold Dev.identifyCtrl
  simp only [List.foldl_cons, List.foldl_nil]
  refine ⟨?_, ?_, ?_, ?_⟩ <;>
    simp (disch := omega) only [read_write_other, read_write, read_setBytes_other] <;> norm_num

end Sys2Proof.Proofs
end

section
/-! SUPPORT. Abort, features, events, the self-test and Keep Alive (R148, R150, R152, R156 to R158). -/

namespace Sys2Proof.Proofs

open Sys2Proof.Machine Sys2Proof.Laws

-- One proof after another: proofs that wait for a slow one would each hold a thread.
set_option Elab.async false

variable {d : Dev} {ctx cid : Nat} {t : Tag} {x : Ctrl}

/-! ### Abort (R152) -/

/-- The Aborts that a controller has outstanding. -/
def abortsOf (b : Dev) (c : Nat) : List Nat := b.openTags fun u => decide (u.ctrl = c ∧ u.qid = 0 ∧ sqeOpcode u.sqe = 8)

/-- The command that an Abort names. -/
def abortsTag (b : Dev) (t : Tag) : Option (Nat × Tag) :=
  b.hostq.tags.find? fun p => p.2.ctrl = t.ctrl && p.2.qid = sqeDw t.sqe 10 % 65536 && p.2.cid = sqeDw t.sqe 10 / 65536

theorem abortsTag_qid {b : Dev} {key : Nat} {u : Tag} (h : abortsTag b t = some (key, u)) :
    u.qid = sqeDw t.sqe 10 % 65536 ∧ u.cid = sqeDw t.sqe 10 / 65536 := by
  have hp := List.find?_some h
  simp only [Bool.and_eq_true, decide_eq_true_eq] at hp
  exact ⟨hp.1.2, hp.2⟩

/-- An Abort of a command by the state it is in. -/
def abortOf (b : Dev) (a : AdmIn) (key : Nat) (u : Tag) : Dev :=
  match u.state with
  | .queued =>
    (({ b with hostq := { b.hostq with fwdOut := b.hostq.fwdOut.filter (· ≠ key) } }.dropArrival u.ctx
      (u.qid * 65536 + u.cid)).hostDone key (cqe 0 7)).abortDone a true
  | .running =>
    match u.forwarded, u.abortBy, a.src with
    | true, none, .host actx acid =>
      { b with hostq := { b.hostq with fwdMarks := b.hostq.fwdMarks ++ [(key, false)] } }.modTag key fun u =>
        { u with abortBy := some (actx, acid) }
    | true, _, _ => b.abortDone a true
    | false, _, _ => (b.abortRunning key u).abortDone a true
  | _ => b.abortDone a false

section
variable (h : d.adminTakes ctx cid 8 t x = true)
include h

theorem abort_tooMany (hn : 4 < (abortsOf (d.began ctx cid) t.ctrl).length) :
    d.abort (.host ctx cid) = (d.began ctx cid).ends ctx cid { sct := 1, sc := 3 } none := by
  unfold Dev.abort
  rw [admin_host h]
  exact if_pos hn

variable (hn : (abortsOf (d.began ctx cid) t.ctrl).length ≤ 4)
include hn

/-- What a command found runs on, by its state. -/
theorem abort_found {key : Nat} {u : Tag} (hu : abortsTag (d.began ctx cid) t = some (key, u)) :
    d.abort (.host ctx cid) = abortOf (d.began ctx cid) (hostIn ctx cid t x) key u := by
  obtain ⟨hqid, hcid⟩ := abortsTag_qid hu
  unfold Dev.abort
  rw [admin_host h]
  refine (if_neg (Nat.not_lt.2 hn)).trans ?_
  rw [abortsTag] at hu
  dsimp only [hostIn, AdmIn.dw]
  rw [hu, ← hqid, ← hcid]
  rfl

theorem abort_unknown (hu : abortsTag (d.began ctx cid) t = none) : d.abort (.host ctx cid) =
    ((d.began ctx cid).bump Reg.HOSTQ_ABORTS.LOST).ends ctx cid { success with dw0 := 1 } none := by
  unfold Dev.abort
  rw [admin_host h]
  refine (if_neg (Nat.not_lt.2 hn)).trans ?_
  dsimp only
  split
  · rfl
  · next hs => cases hs.symm.trans hu

section
variable {key : Nat} {u : Tag} (hu : abortsTag (d.began ctx cid) t = some (key, u))
include hu

/-- A Queued command is taken out, and ends as aborted. -/
theorem abort_queued (hs : u.state = .queued) : d.abort (.host ctx cid) =
    (let b := d.began ctx cid
     let b := { b with hostq := { b.hostq with fwdOut := b.hostq.fwdOut.filter (· ≠ key) } }
     let b := (b.dropArrival u.ctx (u.qid * 65536 + u.cid)).hostDone key { sct := 0, sc := 7 }
     (b.bump Reg.HOSTQ_ABORTS.WON).ends ctx cid success none) := by
  rw [abort_found h hn hu, abortOf, hs]
  rfl

/-- A Running I/O command of this unit is marked. -/
theorem abort_running (hs : u.state = .running) (hq : u.qid ≠ 0) (hf : u.forwarded = false) : d.abort (.host ctx cid) =
    (let b := d.began ctx cid
     let b := { b with rope := { b.rope with marks := (Tab.put b.rope.marks (u.ctrl * 2 ^ 32 + u.qid * 65536 + u.cid)
                { made := d.now, found := true }) } }
     (b.bump Reg.HOSTQ_ABORTS.WON).ends ctx cid success none) := by
  rw [abort_found h hn hu, abortOf, hs, hf, ← began_now (d := d) (ctx := ctx) (cid := cid)]
  dsimp only
  rw [Dev.abortRunning, if_neg hq]
  rfl

/-- One that the partner runs waits for the partner's answer. -/
theorem abort_forwarded (hs : u.state = .running) (hf : u.forwarded = true) (ha : u.abortBy = none) : d.abort (.host ctx cid) =
    (let b := d.began ctx cid
     Dev.modTag { b with hostq := { b.hostq with fwdMarks := b.hostq.fwdMarks ++ [(key, false)] } } key fun u =>
       { u with abortBy := some (ctx, cid) }) := by
  rw [abort_found h hn hu, abortOf, hs, hf, ha]
  rfl

theorem abort_late (hs : u.state = .committed ∨ u.state = .completed) : d.abort (.host ctx cid) =
    ((d.began ctx cid).bump Reg.HOSTQ_ABORTS.LOST).ends ctx cid { success with dw0 := 1 } none := by
  rw [abort_found h hn hu, abortOf]
  rcases hs with hs | hs <;>
  · rw [hs]
    rfl

end

end

theorem abort_mgmt {sqe : List Word} (h : d.mgmtTakes sqe 8 = true) :
    d.abort (.mgmt sqe) = (d.bump Reg.HOSTQ_ABORTS.LOST).mgmtEnds { success with dw0 := 1 } := by
  unfold Dev.abort
  rw [admin_mgmtIn h]
  rfl

/-! ### Features (R145, R148, R157) -/

theorem setFeatures_saves {data : List Byte} (h : d.adminTakes ctx cid 9 t x = true)
    (hs : bitOf (sqeDw t.sqe 10) 31 = true) : d.setFeatures (.host ctx cid) data =
      (d.began ctx cid).ends ctx cid { sct := 1, sc := 0x0D } none := by
  unfold Dev.setFeatures
  rw [admin_host h]
  exact if_pos hs

theorem setFeatures_mgmtPs {sqe : List Word} {data : List Byte} (h : d.mgmtTakes sqe 9 = true)
    (hs : bitOf (sqeDw (padWords 8 sqe) 10) 31 = false) (hf : sqeDw (padWords 8 sqe) 10 % 256 = 2) {v : Nat}
    (hv : v = sqeDw (padWords 8 sqe) 11 % 32) (hle : v ≤ 3) : d.setFeatures (.mgmt sqe) data =
      (Dev.hostPs { d with hostq := { d.hostq with mgmtPs := some v } }).mgmtEnds success := by
  subst hv
  unfold Dev.setFeatures
  rw [admin_mgmtIn h]
  refine (if_neg (by rw [AdmIn.dw, mgmtIn, hs]; exact Bool.false_ne_true)).trans ?_
  exact (if_pos hf).trans (if_neg (Nat.not_lt.2 hle))

section
variable (h : d.adminTakes ctx cid 0x0A t x = true)
include h

/-- The value of a feature that has no data. -/
theorem getFeatures_value {f : Nat} (hf : f = sqeDw t.sqe 10 % 256) (hm : f ∈ [2, 4, 7, 0x0B, 0x0F]) :
    d.getFeatures (.host ctx cid) = (d.began ctx cid).ends ctx cid
      { success with dw0 := (if f = 2 then x.ps
                             else if f = 4 then (if bitOf (sqeDw t.sqe 11) 20 then x.tempUnder else x.temp)
                             else if f = 7 then (x.maxq - 1) * 65537
                             else if f = 0x0B then x.aec else x.kato) } none := by
  have hdw : (hostIn ctx cid t x).dw 10 % 256 = f := hf.symm
  unfold Dev.getFeatures
  rw [admin_host h]
  dsimp only
  rw [hdw]
  clear hf hdw
  have hnone (c : Cqe) : (d.began ctx cid).admDone (hostIn ctx cid t x) c
      (if (hostIn ctx cid t x).sgl = 0 then none else none) = (d.began ctx cid).ends ctx cid c none := by
    rw [ite_self]
    rfl
  simp only [List.mem_cons, List.not_mem_nil, or_false] at hm
  rcases hm with rfl | rfl | rfl | rfl | rfl <;> exact hnone _

theorem getFeatures_unsupported {f : Nat} (hf : f = sqeDw t.sqe 10 % 256) (hm : f ∉ [2, 4, 7, 0x0B, 0x0C, 0x0F, 0x81]) :
    d.getFeatures (.host ctx cid) = (d.began ctx cid).ends ctx cid { sct := 0, sc := 2 } none := by
  have hdw : (hostIn ctx cid t x).dw 10 % 256 = f := hf.symm
  simp only [List.mem_cons, List.not_mem_nil, or_false, not_or] at hm
  obtain ⟨h2, h4, h7, hb, hc, hkato, h81⟩ := hm
  unfold Dev.getFeatures
  rw [admin_host h]
  dsimp only [hostIn, AdmIn.dw] at hdw ⊢
  rw [hdw, if_neg h2, if_neg h4, if_neg h7, if_neg hb, if_neg hc, if_neg hkato, if_neg h81]
  rfl

end

theorem getFeatures_mgmtPs {sqe : List Word} (h : d.mgmtTakes sqe 0x0A = true) (hf : sqeDw (padWords 8 sqe) 10 % 256 = 2) :
    d.getFeatures (.mgmt sqe) = d.mgmtEnds { success with dw0 := d.fget Reg.CAMP_PS.REQ } := by
  have hdw : (mgmtIn sqe).dw 10 % 256 = 2 := hf
  unfold Dev.getFeatures
  rw [admin_mgmtIn h]
  dsimp only
  rw [hdw]
  rfl

/-! ### Asynchronous events (R148, R158) -/

/-- The device that holds the request. -/
def heldRequest (d : Dev) (ctx cid : Nat) (t : Tag) : Dev :=
  ((d.began ctx cid).modTag (tagKey ctx cid) fun t => { t with held := true }).modCtrl t.ctrl fun x =>
    { x with aers := x.aers ++ [cid] }

theorem modTag_ctrl (e : Dev) (key : Nat) (g : Tag → Tag) (k : Nat) : (e.modTag key g).ctrl k = e.ctrl k := by
  unfold Dev.modTag
  split <;> rfl

theorem heldRequest_ctrl (hx : d.ctrl t.ctrl = some x) :
    (heldRequest d ctx cid t).ctrl t.ctrl = some { x with aers := x.aers ++ [cid] } := by
  have hctrl : ((d.began ctx cid).modTag (tagKey ctx cid) fun t => { t with held := true }).ctrl t.ctrl = some x := by
    rw [modTag_ctrl, began_ctrl, hx]
  rw [Dev.ctrl, heldRequest, modCtrl_hostq _ _ hctrl]
  exact look_put_self _ _ _

/-- With nothing to report, nothing is answered. -/
theorem serveEvents_nothing {e : Dev} {k : Nat} (hx : e.ctrl k = some x)
    (hn : x.events.find? (fun e => bitOf x.aec (aecBit e)) = none) : e.serveEvents k = e := by
  unfold Dev.serveEvents
  rw [hx]
  dsimp only
  rw [hn]
  cases x.aers <;> rfl

/-- The oldest request is answered with the first event that is enabled. -/
theorem serveEvents_serves {e : Dev} {k c : Nat} {rest : List Nat} {ev : AsyncEv} (hx : e.ctrl k = some x)
    (ha : x.aers = c :: rest) (hn : x.events.find? (fun e => bitOf x.aec (aecBit e)) = some ev) : e.serveEvents k =
      (e.modCtrl k fun x => { x with aers := rest, events := x.events.erase ev }).hostDone (tagKey x.adminCtx c)
        { success with dw0 := ev.typ + ev.info * 256 + ev.page * 65536 } := by
  unfold Dev.serveEvents
  rw [hx]
  dsimp only
  rw [ha, hn]
  rfl

section
variable (h : d.adminTakes ctx cid 0x0C t x = true)
include h

theorem aer_tooMany (hn : 4 ≤ x.aers.length) :
    d.aer (.host ctx cid) = (d.began ctx cid).ends ctx cid { sct := 1, sc := 5 } none := by
  unfold Dev.aer
  rw [admin_host h]
  exact if_pos hn

theorem aer_host (hn : x.aers.length < 4) : d.aer (.host ctx cid) = (heldRequest d ctx cid t).serveEvents t.ctrl := by
  unfold Dev.aer
  rw [admin_host h]
  exact if_neg (Nat.not_le.2 hn)

theorem adminTakes_ctrl : d.ctrl t.ctrl = some x := by
  obtain ⟨-, -, -, -, -, -, hx, -⟩ := adminTakes_iff.1 h
  exact hx

theorem aer_held (hn : x.aers.length < 4) (he : x.events.find? (fun e => bitOf x.aec (aecBit e)) = none) :
    d.aer (.host ctx cid) = heldRequest d ctx cid t := by
  rw [aer_host h hn, serveEvents_nothing (heldRequest_ctrl (adminTakes_ctrl h)) he]

/-- The first request of a controller with an event waiting is answered at once. -/
theorem aer_answered {e : AsyncEv} (ha : x.aers = [])
    (he : x.events.find? (fun e => bitOf x.aec (aecBit e)) = some e) (hc : x.adminCtx = ctx) : d.aer (.host ctx cid) =
      ((heldRequest d ctx cid t).modCtrl t.ctrl fun x => { x with aers := [], events := x.events.erase e }).hostDone
        (tagKey ctx cid) { success with dw0 := e.typ + e.info * 256 + e.page * 65536 } := by
  have hlist : x.aers ++ [cid] = cid :: [] := by rw [ha, List.nil_append]
  rw [aer_host h (by rw [ha]; decide), serveEvents_serves (heldRequest_ctrl (adminTakes_ctrl h)) hlist he, hc]

end

theorem aer_mgmt {sqe : List Word} (h : d.mgmtTakes sqe 0x0C = true) :
    d.aer (.mgmt sqe) = d.mgmtEnds { sct := 0, sc := 1 } := by
  unfold Dev.aer
  rw [admin_mgmtIn h]
  rfl

/-! ### The device self-test (R156) -/

/-- The device with a self-test in progress. -/
def withTest (d : Dev) (ctrl : Nat) (ext : Bool) (nss : List Nat) : Dev :=
  { d with hostq := { d.hostq with selfTest := some { ctrl := ctrl, extended := ext, nss := nss } } }

section
variable (h : d.adminTakes ctx cid 0x14 t x = true)
include h

/-- Of a reserved STC every row refuses the command. -/
theorem selfTest_reserved {k : Nat} (hk : k = sqeDw t.sqe 10 % 16) (hm : k ∉ [1, 2, 15]) {e : Dev}
    (he : (∃ b, e = d.selfTestStart (.host ctx cid) b) ∨ e = d.selfTestAbort (.host ctx cid)) :
    e = (d.began ctx cid).ends ctx cid { sct := 0, sc := 2 } none := by
  have hdw : (hostIn ctx cid t x).dw 10 % 16 = k := hk.symm
  have hother : (d.began ctx cid).selfTestOther (hostIn ctx cid t x) =
      (d.began ctx cid).ends ctx cid { sct := 0, sc := 2 } none := by
    unfold Dev.selfTestOther
    rw [hdw, if_neg hm]
    rfl
  simp only [List.mem_cons, List.not_mem_nil, or_false, not_or] at hm
  obtain ⟨b, rfl⟩ | rfl := he
  · unfold Dev.selfTestStart
    rw [admin_host h]
    refine (if_pos ?_).trans hother
    rw [hdw]
    cases b
    · exact hm.1
    · exact hm.2.1
  · unfold Dev.selfTestAbort
    rw [admin_host h]
    exact (if_pos (by rw [hdw]; exact hm.2.2)).trans hother

section
variable {ext : Bool} (hstc : sqeDw t.sqe 10 % 16 = if ext then 2 else 1)
include hstc

/-- A start of every namespace the controller sees, or of none. -/
theorem selfTest_starts (hns : sqeNsid t.sqe = 0 ∨ sqeNsid t.sqe = 0xFFFFFFFF) (hnone : d.hostq.selfTest = none) :
    d.selfTestStart (.host ctx cid) ext =
      (withTest (d.began ctx cid) t.ctrl ext
        (if sqeNsid t.sqe = 0 then [] else (d.hostq.nss.filter fun p => x.sees p.2).map (·.1))).ends ctx cid success none := by
  have hall : (if sqeNsid t.sqe = 0 then [] else (((d.began ctx cid).nsOf (hostIn ctx cid t x)).filter fun p =>
      decide (sqeNsid t.sqe = 0xFFFFFFFF ∨ p.2.nsid = sqeNsid t.sqe)).map (·.1)) =
      if sqeNsid t.sqe = 0 then [] else (d.hostq.nss.filter fun p => x.sees p.2).map (·.1) := by
    rcases hns with hz | hf
    · rw [if_pos hz, if_pos hz]
    · rw [began_nsOf, hf]
      simp only [true_or, decide_true, List.filter_true]
      rfl
  unfold Dev.selfTestStart
  rw [admin_host h]
  refine (if_neg (not_not.2 hstc)).trans ((if_neg ?_).trans ((if_neg ?_).trans ?_))
  · rintro ⟨h0, h1, -⟩
    exact hns.elim h0 h1
  · rw [began_selfTest, hnone]
    exact Bool.false_ne_true
  · exact congrArg (fun l => (withTest (d.began ctx cid) t.ctrl ext l).ends ctx cid success none) hall

theorem selfTest_inProgress (hns : sqeNsid t.sqe = 0) (hsome : d.hostq.selfTest.isSome = true) :
    d.selfTestStart (.host ctx cid) ext = (d.began ctx cid).ends ctx cid { sct := 1, sc := 0x1D, dnr := false } none := by
  unfold Dev.selfTestStart
  rw [admin_host h]
  refine (if_neg (not_not.2 hstc)).trans ((if_neg ?_).trans ((if_pos ?_).trans rfl))
  · exact fun hne => hne.1 hns
  · rw [began_selfTest]
    exact hsome

end

theorem selfTestAbort_ends (hstc : sqeDw t.sqe 10 % 16 = 15) : d.selfTestAbort (.host ctx cid) =
    ((d.began ctx cid).endSelfTest 1 0).ends ctx cid success none := by
  unfold Dev.selfTestAbort
  rw [admin_host h]
  exact if_neg (not_not.2 hstc)

end

theorem selfTest_mgmt {sqe : List Word} {ext : Bool} (h : d.mgmtTakes sqe 0x14 = true)
    (hstc : sqeDw (padWords 8 sqe) 10 % 16 = if ext then 2 else 1) (hns : sqeNsid (padWords 8 sqe) = 0)
    (hnone : d.hostq.selfTest = none) : d.selfTestStart (.mgmt sqe) ext =
      (withTest d 0xFFFF ext []).mgmtEnds success := by
  unfold Dev.selfTestStart
  rw [admin_mgmtIn h]
  refine (if_neg (not_not.2 hstc)).trans ((if_neg ?_).trans ((if_neg ?_).trans ?_))
  · exact fun hne => hne.1 hns
  · rw [hnone]
    exact Bool.false_ne_true
  · exact congrArg (fun l => (withTest d 0xFFFF ext l).mgmtEnds success) (if_pos hns)

theorem endSelfTest_none (r g : Nat) (h : d.hostq.selfTest = none) : d.endSelfTest r g = d := by
  unfold Dev.endSelfTest
  rw [h]

theorem endSelfTest_some (r g : Nat) {q : SelfTest} (h : d.hostq.selfTest = some q) :
    (d.endSelfTest r g).hostq.selfTest = none ∧ (d.endSelfTest r g).hostq.stLog.head? =
      some { code := (if q.extended then 2 else 1), result := r, segment := g } := by
  unfold Dev.endSelfTest
  rw [h]
  exact ⟨rfl, rfl⟩

/-- The end of a self-test as one end with a result (R156, log 97). -/
theorem selfTestEnd_eq (failed : Nat) : d.selfTestEnd failed =
    d.endSelfTest (if failed = 0 ∧ d.selfTestLinks = true then 0 else 7)
      (if failed ≠ 1 ∧ d.selfTestLinks = false then 2 else failed) := by
  unfold Dev.selfTestEnd
  cases d.selfTestLinks
  · by_cases h1 : failed = 1 <;> simp [h1]
  · by_cases h1 : failed = 1
    · simp [h1]
    · by_cases h0 : failed = 0 <;> simp [h0, h1]

/-! ### Keep Alive (R145) -/

theorem keepAlive_host (h : d.adminTakes ctx cid 0x18 t x = true) : d.keepAlive (.host ctx cid) =
    ((d.began ctx cid).modCtrl t.ctrl fun x => { x with katoLast := d.now }).ends ctx cid success none := by
  unfold Dev.keepAlive
  rw [admin_host h, ← began_now (d := d) (ctx := ctx) (cid := cid)]
  rfl

theorem keepAlive_mgmt {sqe : List Word} (h : d.mgmtTakes sqe 0x18 = true) :
    d.keepAlive (.mgmt sqe) = d.mgmtEnds success := by
  unfold Dev.keepAlive
  rw [admin_mgmtIn h]
  rfl

end Sys2Proof.Proofs
end

section
/-! SUPPORT. Firmware images: their download and their commit (R155, R162). -/

namespace Sys2Proof.Proofs

open Sys2Proof.Machine Sys2Proof.Laws

-- One proof after another: proofs that wait for a slow one would each hold a thread.
set_option Elab.async false

variable {d : Dev} {sqe : List Word}

/-! ### Firmware Image Download (R162) -/

/-- A buffer with bytes put at an offset, zeros filling what lies before it. -/
def patched (b : List Byte) (at_ : Nat) (data : List Byte) : List Byte :=
  let b := b ++ List.replicate (at_ - b.length) 0
  b.take at_ ++ data ++ b.drop (at_ + data.length)

theorem patched_reads (b : List Byte) (at_ : Nat) (data : List Byte) :
    ((patched b at_ data).drop at_).take data.length = data ∧
      (patched b at_ data).take at_ = (b ++ List.replicate (at_ - b.length) 0).take at_ := by
  have hlen : ((b ++ List.replicate (at_ - b.length) 0).take at_).length = at_ := by
    rw [List.length_take, List.length_append, List.length_replicate]
    omega
  unfold patched
  dsimp only
  constructor
  · rw [List.append_assoc, List.drop_left' hlen, List.take_left]
  · rw [List.append_assoc, List.take_left' hlen]

theorem fwDownload_mgmt (h : d.mgmtTakes sqe 0x11 = true) (off : Nat) (data : List Byte) :
    d.fwDownload (.mgmt sqe) off data =
      Dev.mgmtEnds { d with hostq := { d.hostq with fw := { d.hostq.fw with
        buffer := patched d.hostq.fw.buffer (4 * off) data } } } success := by
  unfold Dev.fwDownload
  rw [admin_mgmtIn h]
  rfl

/-! ### Firmware Commit (R155, R162) -/

/-- The device with the slot of the next reset. -/
def nextSlot (d : Dev) (n : Nat) : Dev := { d with hostq := { d.hostq with fw := { d.hostq.fw with nextReset := some n } } }

/-- The device with a bundle in a slot. -/
def withBundle (d : Dev) (n : Nat) (b : Bundle) : Dev :=
  { d with hostq := { d.hostq with fw := { d.hostq.fw with slots := Tab.put d.hostq.fw.slots n b } } }

section
variable (h : d.mgmtTakes sqe 0x10 = true)
include h

/-- A slot or an action that the device does not have. -/
theorem fwCommit_refused (hbad : 2 < bitsOf (sqeDw (padWords 8 sqe) 10) 2 0 ∨ 3 < bitsOf (sqeDw (padWords 8 sqe) 10) 5 3) :
    d.fwCommit (.mgmt sqe) = d.mgmtEnds
      (if 2 < bitsOf (sqeDw (padWords 8 sqe) 10) 2 0 then { sct := 1, sc := 6 } else { sct := 0, sc := 2 }) := by
  unfold Dev.fwCommit
  rw [admin_mgmtIn h]
  by_cases hslot : 2 < bitsOf (sqeDw (padWords 8 sqe) 10) 2 0
  · rw [if_pos hslot]
    exact if_pos hslot
  · rw [if_neg hslot]
    exact (if_neg hslot).trans (if_pos (hbad.resolve_left hslot))

variable {n : Nat} (hn : n = bitsOf (sqeDw (padWords 8 sqe) 10) 2 0) (h1 : 1 ≤ n) (h2 : n ≤ 2)
include hn h1 h2

/-- A commit of a slot that the command names. -/
theorem fwCommit_named {act : Nat} (ha : act = bitsOf (sqeDw (padWords 8 sqe) 10) 5 3) (hle : act ≤ 3) :
    d.fwCommit (.mgmt sqe) =
      if act = 2 then
        if (Tab.look d.hostq.fw.slots n).isSome then (nextSlot d n).mgmtEnds success else d.mgmtEnds (cqe 1 0x06)
      else (Config.bundleParts d.hostq.fw.buffer).elim (d.mgmtEnds { sct := 1, sc := 7, dw0 := 0x1324 }) fun p =>
        (d.bundleBad p.1 p.2).elim
          (if act = 0 then (withBundle d n { program := p.1, warden := p.2 }).mgmtEnds success
           else if act = 1 then (nextSlot (withBundle d n { program := p.1, warden := p.2 }) n).mgmtEnds success
           else if (measureOf p.2).shake = d.measure 3 then
             (withBundle d n { program := p.1, warden := p.2 }).commitNow (mgmtIn sqe) n p.1
           else (nextSlot (withBundle d n { program := p.1, warden := p.2 }) n).mgmtEnds (cqe 1 0x10))
          fun r => d.mgmtEnds { sct := 1, sc := 7, dw0 := r } := by
  have hslot : (if bitsOf ((mgmtIn sqe).dw 10) 2 0 = 0 then (if d.hostq.fw.active = 1 then 2 else 1)
      else bitsOf ((mgmtIn sqe).dw 10) 2 0) = n := by
    rw [show bitsOf ((mgmtIn sqe).dw 10) 2 0 = n from hn.symm, if_neg (by omega)]
  unfold Dev.fwCommit
  rw [admin_mgmtIn h]
  dsimp only
  rw [hslot, show bitsOf ((mgmtIn sqe).dw 10) 2 0 = n from hn.symm, show bitsOf ((mgmtIn sqe).dw 10) 5 3 = act from ha.symm,
    if_neg (by omega), if_neg (by omega)]
  cases Config.bundleParts d.hostq.fw.buffer with
  | none => rfl
  | some p =>
    obtain ⟨program, warden⟩ := p
    dsimp only [Option.elim_some]
    cases d.bundleBad program warden <;> rfl

end

/-- What a commit of a good bundle that needs no load now leaves. -/
theorem committed_leaves {act n : Nat} {program warden : List Byte} (hm : act ∈ [0, 1, 3])
    (hs : act = 3 → (measureOf warden).shake ≠ d.measure 3) {e : Dev}
    (he : e = if act = 0 then (withBundle d n { program := program, warden := warden }).mgmtEnds success
      else if act = 1 then (nextSlot (withBundle d n { program := program, warden := warden }) n).mgmtEnds success
      else if (measureOf warden).shake = d.measure 3 then
        (withBundle d n { program := program, warden := warden }).commitNow (mgmtIn sqe) n program
      else (nextSlot (withBundle d n { program := program, warden := warden }) n).mgmtEnds (cqe 1 0x10)) :
    Tab.look e.hostq.fw.slots n = some { program := program, warden := warden } ∧
      e.hostq.fw.nextReset = (if act = 0 then d.hostq.fw.nextReset else some n) ∧
      e.hostq.mgmtCqe = some (if act = 3 then { sct := 1, sc := 0x10 } else success) := by
  simp only [List.mem_cons, List.not_mem_nil, or_false] at hm
  rcases hm with rfl | rfl | rfl
  · rw [he, if_pos rfl]
    exact ⟨look_put_self _ _ _, rfl, rfl⟩
  · rw [he, if_neg (by decide), if_pos rfl]
    exact ⟨look_put_self _ _ _, rfl, rfl⟩
  · rw [he, if_neg (by decide), if_neg (by decide), if_neg (hs rfl)]
    exact ⟨look_put_self _ _ _, rfl, rfl⟩

end Sys2Proof.Proofs
end

section
/-! SUPPORT. Format NVM: its checks, its NSWIDE entry, and what it leaves of the namespace (R148, R184, R218). -/

namespace Sys2Proof.Proofs

open Sys2Proof.Machine Sys2Proof.Laws

-- One proof after another: proofs that wait for a slow one would each hold a thread.
set_option Elab.async false

variable {d e : Dev} {ctx cid : Nat} {t : Tag} {x : Ctrl}

/-! ### A namespace cleared (R218) -/

namespace LeavesSpaces

variable (h : LeavesSpaces d e)
include h

theorem endCopy (k : Nat) : LeavesSpaces d (e.endCopy k) := by
  unfold Dev.endCopy
  exact .ite h.same h

theorem showRing : LeavesSpaces d e.showRing := h.same

theorem append (typ flags nsh body : Nat) (act : JAct) : LeavesSpaces d (e.append typ flags nsh body act).1 := by
  unfold Dev.append
  dsimp only
  generalize (if typ ≠ 4 ∧ typ ≠ 5 ∧ e.partnerNs nsh = true then 1 else flags) = fl
  generalize decide ((typ = 4 ∨ typ = 5) ∧ fl = 0) = ckpt
  generalize (if ckpt = true then ringLen else ringLen - 2) = room
  have hstall : LeavesSpaces d (if e.map.stalled = true then e else e.bump Reg.JNL_STALL.COUNT) := .ite h (h.bump 1)
  split
  · split <;> split <;> exact hstall.same
  · exact sample (showRing (ite (bump (fset (same h) _) _) (fset (same h) _))) _ _

end LeavesSpaces

/-- A clear drops the namespace's entries, and records the page sequence number. -/
theorem nsClear_leaves (h : Nat) : (d.nsClear h).map.entries = d.map.entries.filter (fun p => p.1 / 2 ^ 40 ≠ h) ∧
    Tab.look (d.nsClear h).map.clearSeq h = some d.map.seq ∧ (d.nsClear h).hostq.nss = d.hostq.nss := by
  obtain ⟨c, hc⟩ : ∃ c, c =
      ((d.map.entries.filter fun p => p.1 / 2 ^ 40 = h).map fun p => d.formerOf p.2).foldl Dev.endCopy d := ⟨_, rfl⟩
  have hseq : c.map.seq = d.map.seq := by
    rw [hc]
    exact List.foldlRecOn (motive := fun e : Dev => e.map.seq = d.map.seq) _ Dev.endCopy rfl fun e he k _ => by
      rw [← he]
      unfold Dev.endCopy
      split <;> rfl
  have hleaves : LeavesSpaces d c := by
    rw [hc]
    exact .foldl _ (fun e k => (LeavesSpaces.refl e).endCopy k) (.refl d)
  unfold Dev.nsClear
  dsimp only
  rw [← hc]
  refine ⟨((LeavesSpaces.refl _).append _ _ _ _ _).entries.trans ?_, ?_,
    ((LeavesSpaces.refl _).append _ _ _ _ _).nss.trans hleaves.nss⟩
  · exact congrArg (List.filter fun p => p.1 / 2 ^ 40 ≠ h) hleaves.entries
  · rw [((LeavesSpaces.refl _).append _ _ _ _ _).clears]
    exact (look_put_self _ _ _).trans (congrArg some hseq)

/-! ### The NSWIDE entry (R181, R184) -/

theorem ropeOf_same (key : Nat) : (d.ropeOf key).2.map = d.map ∧ (d.ropeOf key).2.rope = d.rope ∧
    (d.ropeOf key).2.hostq.nss = d.hostq.nss := by
  have hmap : d.raiseCeilings.map = d.map := by
    unfold Dev.raiseCeilings
    split
    · rfl
    · dsimp only
      split <;> rfl
  obtain ⟨⟨hhostq, -⟩, hrope⟩ := raiseCeilings_leaves (d := d)
  have hnss : d.raiseCeilings.hostq.nss = d.hostq.nss := by rw [hhostq]
  unfold Dev.ropeOf
  split
  · split
    · exact ⟨rfl, rfl, rfl⟩
    · dsimp only
      exact ⟨hmap, hrope, (congrArg Hostq.nss (fset_hostq ..)).trans hnss⟩
  · exact ⟨hmap, hrope, (congrArg Hostq.nss (fset_hostq ..)).trans hnss⟩

/-- The first entry of ROPE's table is granted. -/
theorem lockIn_first (l : Lock) (hl : d.rope.locks = []) : (d.lockIn l false).2 =
    Dev.showLocks { d with rope := { d.rope with locks := [(0, { l with granted := true })] } } := by
  have hgrant : d.grantable l = true := by
    rw [Dev.grantable, hl]
    rfl
  unfold Dev.lockIn
  rw [if_pos hgrant, hl]
  rfl

theorem holdSpace_first (key ctx cmdref tenant h : Nat) (kind : CmdKind) (hl : d.rope.locks = []) :
    (∃ p, (d.holdSpace key ctx cmdref tenant h kind).rope.locks = [p]) ∧
      (d.holdSpace key ctx cmdref tenant h kind).map = d.map ∧
      (d.holdSpace key ctx cmdref tenant h kind).hostq.nss = d.hostq.nss := by
  obtain ⟨hmap, hrope, hnss⟩ := ropeOf_same (d := d) key
  unfold Dev.holdSpace
  rw [hl, if_neg (by simp)]
  dsimp only
  rw [lockIn_first _ (by rw [hrope, hl])]
  exact ⟨⟨_, rfl⟩, hmap, hnss⟩

/-- With no other entry in ROPE's table, the entry of one namespace is the lowest at once. -/
theorem nswide_alone (src : Src) (h : Nat) (hl : d.rope.locks = []) : (d.nswide src [h]).1 = true ∧
    (d.nswide src [h]).2.map = d.map ∧ (d.nswide src [h]).2.hostq.nss = d.hostq.nss := by
  obtain ⟨⟨p, hp⟩, hmap, hnss⟩ := holdSpace_first (d := d) (tagKey src.holder.1 src.holder.2) src.holder.1 src.holder.2
    (((Tab.look d.hostq.nss h).map (·.tenant)).getD 0) h .nswide hl
  refine ⟨?_, hmap, hnss⟩
  unfold Dev.nswide
  dsimp only [List.foldl_cons, List.foldl_nil]
  rw [hp, List.all_cons, List.all_nil, Bool.and_true, Dev.grantable, hp]
  simp

/-! ### Format NVM (R148, R218) -/

/-- A format that may work: the namespace is cleared or crypto-erased under its NSWIDE entry, once that entry is the lowest. -/
def formats (b : Dev) (ctx cid h : Nat) (n : Ns) (ses : Nat) : Dev :=
  let r := Dev.nswide (b.modNs h fun n => { n with formatting := true }) (.host ctx cid) [h]
  let w := if ses = 0 then r.2.nsClear h else r.2.cryptoErase h
  if r.1 then
    (((w.modNs h fun n => { n with formatting := false }).nsChanged n).nswideEnd (.host ctx cid)).ends ctx cid success none
  else r.2

/-- The format fields of dword 10 that hold no other value than 0 here: LBAF, MSET, PI and PIL. -/
theorem formatFields_iff (v : Nat) : (v % 16 ≠ 0 ∨ bitOf v 4 = true ∨ bitsOf v 7 5 ≠ 0) ↔ v % 256 ≠ 0 := by
  have hbit : bitOf v 4 = true ↔ v / 16 % 2 = 1 := by
    rw [bitOf, Nat.testBit_eq_decide_div_mod_eq, decide_eq_true_eq]
  rw [hbit, bitsOf]
  omega

theorem nsNamed_only {h : Nat} {n : Ns} (hnss : d.hostq.nss = [(h, n)]) (hsees : x.sees n = true)
    (hid : n.nsid = sqeNsid t.sqe) : d.nsNamed (hostIn ctx cid t x) = some (h, n) := by
  simp [Dev.nsNamed, Dev.nsOf, hostIn, hnss, hsees, hid]

section
variable (ht : d.adminTakes ctx cid 0x80 t x = true)
include ht

theorem formatNvm_all (hall : sqeNsid t.sqe = 0xFFFFFFFF) :
    d.formatNvm (.host ctx cid) = (d.began ctx cid).ends ctx cid { sct := 0, sc := 0x0B } none := by
  unfold Dev.formatNvm
  rw [admin_host ht]
  exact if_pos hall

variable {h : Nat} {n : Ns} (hone : sqeNsid t.sqe ≠ 0xFFFFFFFF) (hn : d.nsNamed (hostIn ctx cid t x) = some (h, n))
include hone hn

/-- A format of a namespace the controller sees, by its checks in their order. -/
theorem formatNvm_named : d.formatNvm (.host ctx cid) =
    if sqeDw t.sqe 10 % 256 ≠ 0 then (d.began ctx cid).ends ctx cid { sct := 1, sc := 0x0A } none
    else if 2 < bitsOf (sqeDw t.sqe 10) 11 9 then (d.began ctx cid).ends ctx cid { sct := 0, sc := 2 } none
    else (d.anaFails n.anagrp).elim
      (if d.ownsGroup n.anagrp then formats (d.began ctx cid) ctx cid h n (bitsOf (sqeDw t.sqe 10) 11 9)
       else
         let b := d.began ctx cid
         Dev.modTag { b with hostq := { b.hostq with fwdOut := b.hostq.fwdOut ++ [tagKey ctx cid] } } (tagKey ctx cid) fun t =>
           { t with forwarded := true })
      fun c => (d.began ctx cid).ends ctx cid c none := by
  unfold Dev.formatNvm
  rw [admin_host ht]
  refine (if_neg hone).trans ?_
  dsimp only
  rw [began_nsNamed, hn]
  dsimp only
  rw [show (hostIn ctx cid t x).dw 10 = sqeDw t.sqe 10 from rfl, began_alike.anaFails, began_alike.ownsGroup]
  by_cases hf : sqeDw t.sqe 10 % 256 ≠ 0
  · rw [if_pos ((formatFields_iff _).2 hf), if_pos hf]
    rfl
  rw [if_neg (mt (formatFields_iff _).1 hf), if_neg hf]
  by_cases hs : 2 < bitsOf (sqeDw t.sqe 10) 11 9
  · rw [if_pos hs, if_pos hs]
    rfl
  rw [if_neg hs, if_neg hs]
  cases d.anaFails n.anagrp with
  | some c =>
    dsimp only [Option.elim_some]
    exact admDone_host _ c
  | none =>
    dsimp only [Option.elim_none]
    cases d.ownsGroup n.anagrp with
    | false => rfl
    | true =>
      refine (if_neg (by simp)).trans ?_
      rw [if_pos rfl, formats, show (hostIn ctx cid t x).src = .host ctx cid from rfl]
      generalize Dev.nswide ((d.began ctx cid).modNs h fun n => { n with formatting := true }) (.host ctx cid) [h] = r
      obtain ⟨ready, e⟩ := r
      cases ready <;> rfl

end

theorem modNs_some {h : Nat} {n : Ns} (g : Ns → Ns) (hn : Tab.look d.hostq.nss h = some n) :
    d.modNs h g = { d with hostq := { d.hostq with nss := Tab.put d.hostq.nss h (g n) } } := by
  unfold Dev.modNs
  rw [hn]

/-- What a format leaves of a namespace that no one else has entries for. -/
theorem formats_leaves {b : Dev} {h : Nat} {n n₀ : Ns} (hn : Tab.look b.hostq.nss h = some n₀) (hl : b.rope.locks = []) :
    (∀ p ∈ (formats b ctx cid h n 0).map.entries, p.1 / 2 ^ 40 ≠ h) ∧
      Tab.look (formats b ctx cid h n 0).map.clearSeq h = some b.map.seq ∧
      ∃ n', Tab.look (formats b ctx cid h n 0).hostq.nss h = some n' ∧ n'.formatting = false := by
  have hb : b.modNs h (fun n => { n with formatting := true }) =
      { b with hostq := { b.hostq with nss := Tab.put b.hostq.nss h { n₀ with formatting := true } } } := modNs_some _ hn
  obtain ⟨hready, hmap, hnss⟩ := nswide_alone (d := b.modNs h fun n => { n with formatting := true }) (.host ctx cid) h
    (by rw [hb]; exact hl)
  unfold formats
  dsimp only
  rw [if_pos hready, if_pos rfl]
  generalize (Dev.nswide (b.modNs h fun n => { n with formatting := true }) (.host ctx cid) [h]).2 = e at hmap hnss
  obtain ⟨hentries, hclears, hkept⟩ := nsClear_leaves (d := e) h
  rw [hmap, hb] at hclears
  have hlook : Tab.look (e.nsClear h).hostq.nss h = some { n₀ with formatting := true } := by
    rw [hkept, hnss, hb]
    exact look_put_self _ _ _
  have hlast := modNs_some (fun n => { n with formatting := false }) hlook
  have hends : LeavesSpaces ((e.nsClear h).modNs h fun n => { n with formatting := false })
      (((((e.nsClear h).modNs h fun n => { n with formatting := false }).nsChanged n).nswideEnd (.host ctx cid)).ends ctx cid
        success none) := ((((LeavesSpaces.refl _).nsChanged n).finishLocks _).modTag _ _).hostDone _ _ _
  refine ⟨fun p hp => ?_, ?_, { n₀ with formatting := false }, ?_, rfl⟩
  · rw [hends.entries, hlast] at hp
    dsimp only at hp
    rw [hentries] at hp
    exact of_decide_eq_true (List.mem_filter.1 hp).2
  · rw [hends.clears, hlast]
    exact hclears
  · rw [hends.nss, hlast]
    exact look_put_self _ _ _

end Sys2Proof.Proofs
end

section
/-! SUPPORT. Sanitize: what it leaves of keys, bands and stripes (R163, R184, R218). -/

namespace Sys2Proof.Proofs

open Sys2Proof.Machine Sys2Proof.Laws

-- One proof after another: proofs that wait for a slow one would each hold a thread.
set_option Elab.async false

variable {d : Dev} {sqe : List Word}

/-- A sanitize that may work: it erases under its NSWIDE entries, once they are the lowest, and the partner is told. -/
def sanitizes (d : Dev) (sqe : List Word) (action : Nat) (erase : Dev → Dev) : Dev :=
  let r := d.nswide (.mgmt sqe) (d.hostq.nss.map (·.1))
  let w := erase r.2
  if r.1 then (Dev.nswideEnd { w with hostq := { w.hostq with sanTell := some action } } (.mgmt sqe)).mgmtEnds success
  else r.2

theorem sanitizeNow_mgmt (action : Nat) (erase : Dev → Dev) :
    d.sanitizeNow (mgmtIn sqe) action erase = sanitizes d sqe action erase := by
  unfold Dev.sanitizeNow sanitizes
  rw [show (mgmtIn sqe).src = .mgmt sqe from rfl]
  generalize d.nswide (.mgmt sqe) (d.hostq.nss.map (·.1)) = r
  obtain ⟨ready, e⟩ := r
  cases ready <;> rfl

section
variable (h : d.mgmtTakes sqe 0x84 = true)
include h

theorem sanitizeCrypto_mgmt (ha : sqeDw (padWords 8 sqe) 10 % 8 = 4) :
    d.sanitizeCrypto (.mgmt sqe) = sanitizes d sqe 4 Dev.sanCrypto := by
  unfold Dev.sanitizeCrypto
  rw [admin_mgmtIn h, ← sanitizeNow_mgmt]
  exact if_neg (not_not.2 ha)

theorem sanitizeBlock_mgmt (ha : sqeDw (padWords 8 sqe) 10 % 8 = 2) :
    d.sanitizeBlock (.mgmt sqe) = sanitizes d sqe 2 Dev.sanBlock := by
  unfold Dev.sanitizeBlock
  rw [admin_mgmtIn h, ← sanitizeNow_mgmt]
  exact if_neg (not_not.2 ha)

/-- Both rows refuse an action that the device does not have. -/
theorem sanitize_refused (ha : sqeDw (padWords 8 sqe) 10 % 8 ∉ [2, 4]) {e : Dev}
    (he : e = d.sanitizeCrypto (.mgmt sqe) ∨ e = d.sanitizeBlock (.mgmt sqe)) : e = d.mgmtEnds { sct := 0, sc := 2 } := by
  have hother : d.sanOther (mgmtIn sqe) = d.mgmtEnds { sct := 0, sc := 2 } := if_neg ha
  simp only [List.mem_cons, List.not_mem_nil, or_false, not_or] at ha
  obtain ⟨h2, h4⟩ := ha
  rcases he with rfl | rfl
  · unfold Dev.sanitizeCrypto
    rw [admin_mgmtIn h]
    exact (if_pos h4).trans hother
  · unfold Dev.sanitizeBlock
    rw [admin_mgmtIn h]
    exact (if_pos h2).trans hother

end

/-- With no namespaces nothing is waited for and nothing is let go. -/
theorem sanitizes_empty (action : Nat) (erase : Dev → Dev) (hn : d.hostq.nss = []) (hl : d.rope.locks = [])
    (hkeep : (erase d).rope = d.rope) : sanitizes d sqe action erase =
      Dev.mgmtEnds { erase d with hostq := { (erase d).hostq with sanTell := some action } } success := by
  have hwide : d.nswide (.mgmt sqe) [] = (true, d) := by
    unfold Dev.nswide
    dsimp only [List.foldl_nil]
    rw [hl]
    rfl
  unfold sanitizes
  rw [hn, List.map_nil, hwide]
  dsimp only
  rw [if_pos rfl, Dev.nswideEnd, Dev.finishLocks, hkeep, hl]
  rfl

/-! ### Keys (R218) -/

theorem zeroData_leaves (n : Nat) : (d.zeroData n).hostq = d.hostq ∧ (d.zeroData n).rope = d.rope ∧
    (d.zeroData n).cipher = { d.cipher with data := Tab.del d.cipher.data n } := ⟨rfl, rfl, rfl⟩

/-- A slot zeroised holds no key, and neither does one that held none. -/
theorem zeroDatas_leave (l : Tab DSlot) : ∀ d : Dev, (l.foldl (fun d p => d.zeroData p.1) d).hostq = d.hostq ∧
    (l.foldl (fun d p => d.zeroData p.1) d).rope = d.rope ∧
    ∀ k, Tab.look d.cipher.data k = none ∨ k ∈ l.map (·.1) →
      Tab.look (l.foldl (fun d p => d.zeroData p.1) d).cipher.data k = none := by
  induction l with
  | nil => exact fun d => ⟨rfl, rfl, fun k hk => hk.resolve_right List.not_mem_nil⟩
  | cons p l ih =>
    intro d
    obtain ⟨hh, hr, hk⟩ := ih (d.zeroData p.1)
    obtain ⟨hh', hr', hc⟩ := zeroData_leaves (d := d) p.1
    refine ⟨hh.trans hh', hr.trans hr', fun k hin => hk k ?_⟩
    rw [hc]
    by_cases hkp : k = p.1
    · rw [hkp]
      exact .inl (look_del_self _ _)
    · refine hin.imp (fun hnone => (look_del_other _ _ _ hkp).trans hnone) fun hm => ?_
      exact (List.mem_cons.1 hm).resolve_left hkp

/-- With no namespaces every data slot is zeroised. -/
theorem sanCrypto_leaves (hn : d.hostq.nss = []) :
    d.sanCrypto.hostq = { d.hostq with sanitize := some { action := 4, running := false } } ∧ d.sanCrypto.rope = d.rope ∧
      ∀ p ∈ d.cipher.data, (d.sanCrypto.dslot p.1).cur = none := by
  obtain ⟨hh, hr, hk⟩ := zeroDatas_leave d.cipher.data d
  have hall : (d.cipher.data.filter fun p => !([] : List Nat).contains p.1) = d.cipher.data :=
    List.filter_eq_self.2 fun p _ => rfl
  have hrun : d.sanCrypto = (let e := d.cipher.data.foldl (fun d p => d.zeroData p.1) d
      { e with hostq := { e.hostq with sanitize := some { action := 4, running := false } } }) := by
    unfold Dev.sanCrypto
    rw [hn]
    dsimp only [List.foldl_nil]
    rw [hn, List.map_nil, hall]
  rw [hrun]
  refine ⟨?_, hr, fun p hp => ?_⟩
  · dsimp only
    rw [hh]
  · have hnone := hk p.1 (.inr (List.mem_map_of_mem hp))
    change ((Tab.look (d.cipher.data.foldl (fun d p => d.zeroData p.1) d).cipher.data p.1).getD _).cur = none
    rw [hnone]
    rfl

/-! ### Bands and stripes (R163, R268) -/

theorem look_modBand (n k : Nat) (f : Band → Band) : Tab.look (d.modBand n f).stripe.bands k =
    if k = n then (Tab.look d.stripe.bands n).map f else Tab.look d.stripe.bands k := by
  unfold Dev.modBand
  cases hb : Tab.look d.stripe.bands n with
  | none =>
    dsimp only
    split
    · next hk => rw [hk, hb, Option.map_none]
    · rfl
  | some b =>
    change Tab.look (Tab.put d.stripe.bands n (f b)) k = _
    split
    · next hk => rw [hk, look_put_self, Option.map_some]
    · next hk => exact look_put_other _ _ _ _ hk

theorem modBand_keeps (n : Nat) (f : Band → Band) : (d.modBand n f).hostq = d.hostq ∧ (d.modBand n f).rope = d.rope ∧
    (d.modBand n f).stripe = { d.stripe with bands := (d.modBand n f).stripe.bands } := by
  unfold Dev.modBand
  split <;> exact ⟨rfl, rfl, rfl⟩

/-- The bands named become victims, and the others stay. -/
theorem victims_leave (l : List Nat) : ∀ d : Dev, ∃ e,
    e = l.foldl (fun d n => d.modBand n fun b => { b with state := .victim }) d ∧ e.hostq = d.hostq ∧
    e.rope = d.rope ∧ e.stripe = { d.stripe with bands := e.stripe.bands } ∧
    ∀ k b, Tab.look e.stripe.bands k = some b → b.state = .victim ∨ k ∉ l ∧ Tab.look d.stripe.bands k = some b := by
  induction l with
  | nil => exact fun d => ⟨d, rfl, rfl, rfl, rfl, fun k b hb => .inr ⟨List.not_mem_nil, hb⟩⟩
  | cons n l ih =>
    intro d
    obtain ⟨hh, hr, hs⟩ := modBand_keeps (d := d) n fun b => { b with state := .victim }
    obtain ⟨e, he, hh', hr', hs', hk⟩ := ih (d.modBand n fun b => { b with state := .victim })
    refine ⟨e, he, hh'.trans hh, hr'.trans hr, hs'.trans (by rw [hs]), fun k b hb => ?_⟩
    rcases hk k b hb with hv | ⟨hnot, hlook⟩
    · exact .inl hv
    rw [look_modBand] at hlook
    split at hlook
    · obtain ⟨c, -, rfl⟩ := Option.map_eq_some_iff.1 hlook
      exact .inl rfl
    · next hkn => exact .inr ⟨fun hm => (List.mem_cons.1 hm).elim hkn hnot, hlook⟩

/-- Bands that hold no written blocks any more but those to be erased. -/
def erasable (b : Nat × Band) : Bool := decide (b.2.state ∈ [BState.victim, .erasing])

theorem running_iff (l : Tab Band) : decide (0 < (l.filter erasable).length) = l.any erasable := by
  rw [Bool.eq_iff_iff, decide_eq_true_eq, List.length_pos_iff, ne_eq, List.filter_eq_nil_iff, List.any_eq_true]
  push Not
  rfl

theorem mem_of_look {α : Type} {t : Tab α} {a : Nat} {v : α} (h : Tab.look t a = some v) : (a, v) ∈ t := by
  induction t with
  | nil => cases h
  | cons p t ih =>
    obtain ⟨k, w⟩ := p
    simp only [Tab.look] at h
    split at h
    · next hk => rw [hk, Option.some.inj h]; exact List.mem_cons_self
    · exact List.mem_cons_of_mem _ (ih h)

/-- A block erase of the bands there are. -/
def blockErase (bands : Tab Band) : Sanitize where
  action := 2
  running := decide (0 < (bands.filter erasable).length)
  total := (bands.filter erasable).length

/-- With no namespaces the bands with written blocks become victims, and no stripe is left. -/
theorem sanBlock_leaves (hn : d.hostq.nss = []) : ∃ (e : Dev) (z : Sanitize),
    d.sanBlock = { e with hostq := { d.hostq with sanitize := some z } } ∧
    e.rope = d.rope ∧ e.stripe.stripes = [] ∧ e.stripe.streams = [] ∧
    (∀ n b, Tab.look e.stripe.bands n = some b → b.state ∉ [BState.opened, .closed]) ∧ z.action = 2 ∧
    z.running = e.stripe.bands.any erasable := by
  obtain ⟨c, hc⟩ : ∃ c : Dev, c = { d with
      map := { d.map with staging := d.map.staging.map fun p =>
        if p.2.state = .placing then (p.1, { p.2 with state := .dirty, stripe := none }) else p }
      stripe := { d.stripe with stripes := [], streams := [], moveBuf := [] } } := ⟨_, rfl⟩
  obtain ⟨e, he, hh, hr, hs, hk⟩ :=
    victims_leave ((d.stripe.bands.filter fun b => decide (b.2.state ∈ [BState.opened, .closed])).map (·.1)) c
  have hrun : d.sanBlock = { e with hostq := { e.hostq with sanitize := some (blockErase e.stripe.bands) } } := by
    unfold Dev.sanBlock
    rw [hn, List.foldl_nil, he, hc]
    rfl
  rw [hrun, hh]
  refine ⟨e, _, by rw [hc], by rw [hr, hc], by rw [hs, hc], by rw [hs, hc], fun n b hb hstate => ?_, rfl, running_iff _⟩
  rcases hk n b hb with hv | ⟨hnot, hlook⟩
  · rw [hv] at hstate
    revert hstate
    decide
  · rw [hc] at hlook
    exact hnot (List.mem_map.2 ⟨(n, b), List.mem_filter.2 ⟨mem_of_look hlook, decide_eq_true hstate⟩, rfl⟩)

end Sys2Proof.Proofs
end

section
/-! The statement on the admin commands, clause by clause (R148, R150 to R152, R155 to R160, R162, R163, R218). -/

namespace Sys2Proof.Proofs

open Sys2Proof.Machine Sys2Proof.Laws

-- One proof after another: proofs that wait for a slow one would each hold a thread.
set_option Elab.async false

/-- Both starts of a self-test are one operation. -/
theorem exec_selfTestStart (s : State) (src : Src) (ext : Bool) :
    exec (if ext then .deviceSelfTestExtended src else .deviceSelfTestShort src) s =
      s.act fun d => d.selfTestStart src ext := by
  cases ext <;> rfl

/-- Settles O19: each command by the rule of its operation, on the device that has begun it. -/
theorem nvmeAdmin : Obligations.NvmeAdmin := by
  unfold Obligations.NvmeAdmin
  refine ⟨?_, ?_, ?_, ?_, ?_, ?_, ?_, ?_, ?_, ?_, ?_, ?_, ?_, ?_, ?_, ?_, ?_, ?_, ?_, ?_, ?_, ?_, ?_, ?_, ?_, ?_, ?_, ?_,
    ?_, ?_, ?_, ?_, ?_, ?_, ?_, ?_, ?_, ?_, ?_, ?_, ?_, ?_, ?_, ?_, ?_, ?_, ?_, ?_, ?_, ?_, ?_, ?_, ?_, ?_, ?_⟩
  · intro s ctx cid op data c hl hc hidle
    obtain ⟨f, hf⟩ := adminOps_row (off := 0) (n := .delete 0) (attach := false) (l := []) (hostOps_subset hc)
    exact settles_of_act (hf s) hl (admin_idle hidle f)
  · intro s ctx cid op data c t x hl hc ht hq hop hs hh hx hsan
    obtain ⟨⟨f, hf⟩, hk⟩ :=
      keptOut_sanitize (off := 0) (n := .delete 0) (attach := false) (l := []) (hostKeptOut_subset hc)
    exact settles_of_act (hf s) hl (admin_keptOut ht hq hop hs hh hx hsan hk f)
  · intro s sqe op off data n attach l c hl hc hidle
    obtain ⟨f, hf⟩ := adminOps_row hc
    exact settles_of_act (hf s) hl (adminMgmt_idle hidle f)
  · intro s sqe op off data n attach l c hl hc hon hop hsan
    obtain ⟨⟨f, hf⟩, hk⟩ := keptOut_sanitize hc
    exact settles_of_act (hf s) hl (adminMgmt_keptOut hon hop hsan hk f)
  · exact fun s ctx cid lid t x hl h hlid hn =>
      settles_of_act (exec_getLogPage ..) hl (getLogPage_unsupported h (pageOf_unsupported hlid hn))
  · intro s ctx cid len t x hl h hp hv hrae h12 h13 hpos hlen
    obtain ⟨given, hg, he⟩ := getLogPage_keeps h h12 h13 (pageOf_meter hv hp) hrae hpos
    rw [hg rfl] at he
    subst hlen
    exact acts_of_act _ s _ _ (exec_getLogPage ..) hl
      ⟨_, he, fun a ha => byte_pageHead _ (Nat.lt_of_lt_of_le ha (Nat.min_le_left ..))⟩
  · exact fun s ctx cid t x hl h hp hv ho =>
      settles_of_act (exec_getLogPage ..) hl (getLogPage_beyond h (pageOf_meter hv hp) (by
        dsimp only
        omega))
  · intro s ctx cid t x hl h hp hrae h12 h13 hsgl hlen
    obtain ⟨given, hpage⟩ := pageOf_selfTest (d := s.dev) (ctx := ctx) (cid := cid) (x := x) hp
    obtain ⟨_, -, he⟩ := getLogPage_keeps h h12 h13 hpage hrae (by omega)
    change 564 ≤ logLen t at hlen
    refine acts_of_act _ s _ _ (exec_getLogPage ..) hl ⟨_, ?_, he, ?_⟩
    · dsimp only
      omega
    · exact (read_pageHead _ (by omega)).trans selfTestPage_current
  · intro s ctx cid t x hl h hp hrae h12 h13 hsgl hlen hsan
    obtain ⟨given, hpage⟩ := pageOf_sanitize (d := s.dev) (ctx := ctx) (cid := cid) (x := x) hp
    obtain ⟨_, -, he⟩ := getLogPage_keeps h h12 h13 hpage hrae (by omega)
    change 8 ≤ logLen t at hlen
    obtain ⟨h0, h2⟩ := sanitizePage_ended hsan
    exact acts_of_act _ s _ _ (exec_getLogPage ..) hl
      ⟨_, he, (read_pageHead _ (by omega)).trans h0, (read_pageHead _ (by omega)).trans h2⟩
  · intro s ctx cid len t x hl h hp hrae h12 h13 hpos hlen
    subst hlen
    exact acts_of_act _ s _ _ (exec_getLogPage ..) hl (getLogPage_changed h h12 h13 hp hrae hpos)
  · exact fun s sqe hl h hp => settles_of_act (exec_getLogPage ..) hl (getLogPage_mgmt h hp)
  · exact fun s ctx cid t x hl h hc => settles_of_act (exec_identify ..) hl (identify_unsupported h hc)
  · intro s ctx cid t x hl h hc hpos
    obtain ⟨hio, hmdts, hunit, hactive⟩ := identifyCtrl_reads (s.dev.began ctx cid) (hostIn ctx cid t x)
    have hfield : (s.dev.began ctx cid).fget Reg.CAMP_STRAP.UNIT_ID = s.dev.fget Reg.CAMP_STRAP.UNIT_ID :=
      began_alike.regs.fget (by decide)
    have hbit : s.dev.fget Reg.CAMP_STRAP.UNIT_ID < 2 := fget_lt s.dev Reg.CAMP_STRAP.UNIT_ID 0
    rw [hfield, Nat.mod_eq_of_lt (by omega)] at hunit
    rw [began_inst] at hactive
    exact acts_of_act _ s _ _ (exec_identify ..) hl ⟨_, identify_ctrl h hpos hc, hio, hmdts, hunit, hactive⟩
  · exact fun s ctx cid k t x n hl h hc hpos hn => acts_of_act _ s _ _ (exec_identify ..) hl
      ⟨_, identify_ns h hpos hc hn, identifyNs_reads n⟩
  · exact fun s ctx cid t x hl h hc hpos hn => settles_of_act (exec_identify ..) hl (identify_absent h hpos hc hn)
  · exact fun s ctx cid t x hl h hn hu => settles_of_act (exec_abort ..) hl (abort_unknown h hn hu)
  · exact fun s ctx cid key t u x hl h hn hu hs => settles_of_act (exec_abort ..) hl (abort_queued h hn hu hs)
  · exact fun s ctx cid key t u x hl h hn hu hs hq hf => settles_of_act (exec_abort ..) hl (abort_running h hn hu hs hq hf)
  · exact fun s ctx cid key t u x hl h hn hu hs hf ha => settles_of_act (exec_abort ..) hl (abort_forwarded h hn hu hs hf ha)
  · exact fun s ctx cid key t u x hl h hn hu hs => settles_of_act (exec_abort ..) hl (abort_late h hn hu hs)
  · exact fun s ctx cid t x hl h hn => settles_of_act (exec_abort ..) hl (abort_tooMany h hn)
  · exact fun s sqe hl h => settles_of_act (exec_abort ..) hl (abort_mgmt h)
  · intro s ctx cid v data t x hl h hs hv
    refine settles_of_act (exec_setFeatures ..) hl ?_
    subst hv
    unfold Dev.setFeatures
    rw [admin_host h, ← began_now (d := s.dev) (ctx := ctx) (cid := cid)]
    exact if_neg (by rw [AdmIn.dw, hostIn, hs]; exact Bool.false_ne_true)
  · exact fun s ctx cid data t x hl h hs => settles_of_act (exec_setFeatures ..) hl (setFeatures_saves h hs)
  · exact fun s sqe data v hl h hs hf hv hle => settles_of_act (exec_setFeatures ..) hl (setFeatures_mgmtPs h hs hf hv hle)
  · exact fun s ctx cid f t x hl h hf hm => settles_of_act (exec_getFeatures ..) hl (getFeatures_value h hf hm)
  · exact fun s ctx cid f t x hl h hf hm => settles_of_act (exec_getFeatures ..) hl (getFeatures_unsupported h hf hm)
  · exact fun s sqe hl h hf => settles_of_act (exec_getFeatures ..) hl (getFeatures_mgmtPs h hf)
  · exact fun s ctx cid t x hl h hn he => settles_of_act (exec_asynchronousEventRequest ..) hl (aer_held h hn he)
  · exact fun s ctx cid t x e hl h ha he hc => settles_of_act (exec_asynchronousEventRequest ..) hl (aer_answered h ha he hc)
  · exact fun s ctx cid t x hl h hn => settles_of_act (exec_asynchronousEventRequest ..) hl (aer_tooMany h hn)
  · exact fun s sqe hl h => settles_of_act (exec_asynchronousEventRequest ..) hl (aer_mgmt h)
  · exact fun s ctx cid e t x hl h hstc hns hnone =>
      settles_of_act (exec_selfTestStart ..) hl (selfTest_starts h hstc hns hnone)
  · exact fun s ctx cid e t x hl h hstc hns hsome =>
      settles_of_act (exec_selfTestStart ..) hl (selfTest_inProgress h hstc hns hsome)
  · exact fun s sqe e hl h hstc hns hnone => settles_of_act (exec_selfTestStart ..) hl (selfTest_mgmt h hstc hns hnone)
  · intro s ctx cid k c t x hl hc h hk hm
    simp only [List.mem_cons, List.not_mem_nil, or_false] at hc
    rcases hc with rfl | rfl | rfl
    · exact settles_of_act (exec_deviceSelfTestShort ..) hl (selfTest_reserved h hk hm (.inl ⟨_, rfl⟩))
    · exact settles_of_act (exec_deviceSelfTestExtended ..) hl (selfTest_reserved h hk hm (.inl ⟨_, rfl⟩))
    · exact settles_of_act (exec_deviceSelfTestAbort ..) hl (selfTest_reserved h hk hm (.inr rfl))
  · exact fun s ctx cid t x hl h hstc => settles_of_act (exec_deviceSelfTestAbort ..) hl (selfTestAbort_ends h hstc)
  · intro s failed q hl hq
    refine acts_of_act _ s _ _ (exec_selfTestEnd ..) hl ?_
    rw [selfTestEnd_eq]
    exact endSelfTest_some _ _ hq
  · exact fun s failed hl hnone => settles_of_act (exec_selfTestEnd ..) hl (by rw [selfTestEnd_eq, endSelfTest_none _ _ hnone])
  · exact fun s ctx cid t x hl h => settles_of_act (exec_keepAlive ..) hl (keepAlive_host h)
  · exact fun s sqe hl h => settles_of_act (exec_keepAlive ..) hl (keepAlive_mgmt h)
  · intro s ctx cid k t x n hl h hnss hid hsees hone ha ho hdw hlocks
    have hn := nsNamed_only (ctx := ctx) (cid := cid) hnss hsees hid
    have hlook : Tab.look (s.dev.began ctx cid).hostq.nss k = some n := by
      rw [began_nss, hnss]
      exact if_pos rfl
    obtain ⟨hentries, hclear, hns⟩ :=
      formats_leaves (ctx := ctx) (cid := cid) (n := n) hlook (by rw [began_rope, hlocks])
    refine acts_of_act _ s _ _ (exec_formatNvm ..) hl ?_
    rw [formatNvm_named h hone hn, hdw, if_neg (by decide), if_neg (by decide), ha, Option.elim_none, if_pos ho]
    rw [began_map] at hclear
    exact ⟨List.all_eq_true.2 fun p hp => decide_eq_true (hentries p hp), hclear, hns⟩
  · intro s ctx cid k ses t x n hl h hone hn hdw hses hle ha ho
    refine settles_of_act (exec_formatNvm ..) hl ?_
    rw [formatNvm_named h hone hn, if_neg (not_not.2 hdw), ← hses, if_neg (by omega), ha, Option.elim_none, if_pos ho]
    rfl
  · intro s ctx cid k t x n hl h hone hn hbad
    refine settles_of_act (exec_formatNvm ..) hl ?_
    rw [formatNvm_named h hone hn]
    split
    · rfl
    · next hf => rw [if_pos (hbad.resolve_left hf)]
  · intro s ctx cid k t x n hl h hone hn hdw hle ha ho
    refine settles_of_act (exec_formatNvm ..) hl ?_
    rw [formatNvm_named h hone hn, if_neg (not_not.2 hdw), if_neg (by omega), ha, Option.elim_none, if_neg (by simp [ho])]
  · exact fun s ctx cid t x hl h hall => settles_of_act (exec_formatNvm ..) hl (formatNvm_all h hall)
  · intro s sqe off data hl hon hop hsan
    refine acts_of_act _ s _ _ (exec_firmwareImageDownload ..) hl ?_
    dsimp only
    rw [fwDownload_mgmt (mgmtTakes_of hon hop hsan)]
    obtain ⟨hnew, hold⟩ := patched_reads s.dev.hostq.fw.buffer (4 * off) data
    exact ⟨rfl, hnew, hold, rfl⟩
  · intro s sqe n hl hon hop hsan hn h1 h2 hact hslot
    refine acts_of_act _ s _ _ (exec_firmwareCommit ..) hl ?_
    dsimp only
    rw [fwCommit_named (mgmtTakes_of hon hop hsan) hn h1 h2 hact.symm (by decide), if_pos rfl, if_pos hslot]
    exact ⟨rfl, rfl⟩
  · intro s sqe n act hl hon hop hsan hn h1 h2 hact hm
    refine acts_of_act _ s _ _ (exec_firmwareCommit ..) hl ?_
    have hne : act ≠ 2 ∧ act ≤ 3 := by
      simp only [List.mem_cons, List.not_mem_nil, or_false] at hm
      omega
    rw [fwCommit_named (mgmtTakes_of hon hop hsan) hn h1 h2 hact hne.2, if_neg hne.1]
    cases Config.bundleParts s.dev.hostq.fw.buffer with
    | none => rfl
    | some p =>
      obtain ⟨program, warden⟩ := p
      dsimp only [Option.elim_some]
      cases s.dev.bundleBad program warden with
      | some r => rfl
      | none => exact fun hs => committed_leaves hm hs rfl
  · exact fun s sqe hl hon hop hsan hbad =>
      settles_of_act (exec_firmwareCommit ..) hl (fwCommit_refused (mgmtTakes_of hon hop hsan) hbad)
  · intro s sqe hl hon hop hsan ha hn hlocks
    obtain ⟨hhostq, hrope, hkeys⟩ := sanCrypto_leaves hn
    refine acts_of_act _ s _ _ (exec_sanitizeCryptoErase ..) hl ?_
    rw [sanitizeCrypto_mgmt (mgmtTakes_of hon hop hsan) ha, sanitizes_empty _ _ hn hlocks hrope]
    exact ⟨rfl, congrArg Hostq.sanitize hhostq, rfl, hkeys⟩
  · intro s sqe hl hon hop hsan ha hn hlocks
    obtain ⟨e, z, he, hrope, hstripes, hstreams, hbands, haction, hrun⟩ := sanBlock_leaves hn
    refine acts_of_act _ s _ _ (exec_sanitizeBlockErase ..) hl ?_
    rw [sanitizeBlock_mgmt (mgmtTakes_of hon hop hsan) ha, sanitizes_empty _ _ hn hlocks (by rw [he]; exact hrope), he]
    exact ⟨rfl, hstripes, hstreams, hbands, rfl, z, rfl, haction, hrun⟩
  · exact fun s sqe hl h ha => settles_of_act (exec_sanitizeCryptoErase ..) hl (sanitizeCrypto_mgmt h ha)
  · exact fun s sqe hl h ha => settles_of_act (exec_sanitizeBlockErase ..) hl (sanitizeBlock_mgmt h ha)
  · intro s sqe c hl h hc ha
    simp only [List.mem_cons, List.not_mem_nil, or_false] at hc
    rcases hc with rfl | rfl
    · exact settles_of_act (exec_sanitizeCryptoErase ..) hl (sanitize_refused h ha (.inl rfl))
    · exact settles_of_act (exec_sanitizeBlockErase ..) hl (sanitize_refused h ha (.inr rfl))

end Sys2Proof.Proofs
end
